-- ==== Sys2Proof/Word.lean ====
section
/-! DEFINITION. The word types of the EC3200 model (R8: registers are 32 bits wide) and the one sparse table type
that every bank of like things (registers, memories, entities, queues) is kept in. The operations over the table are in
Sys2Proof/Machine/Tab.lean. -/

namespace Sys2Proof

/-- One 32-bit register (R8). -/
abbrev Word := BitVec 32

/-- One byte. -/
abbrev Byte := BitVec 8

/-- A sparse table: (index, value) pairs with strictly rising indexes and no entry equal to the value an unlisted index
reads as. Memories are tables of bytes, that is, lists of `Host.Cell`. -/
abbrev Tab (α : Type) := List (Nat × α)

end Sys2Proof
end

