-- ==== Sys2Proof/Machine/Tab.lean ====
section
/-! DEFINITION. The operations over sparse tables: read, write, erase, the canonical form, and byte strings in a table of
bytes. Every memory and every bank of the model goes through these. -/

namespace Sys2Proof

/-- The value stored under `k`, if one is listed. -/
def Tab.find {α : Type} : Tab α → Nat → Option α
  | [], _ => none
  | (k, v) :: t, n => if k = n then some v else Tab.find t n

/-- The value at index `n`; `d` is what an unlisted index reads as. -/
def Tab.get {α : Type} (d : α) (t : Tab α) (n : Nat) : α := (Tab.find t n).getD d

/-- Drop index `n`. -/
def Tab.del {α : Type} : Tab α → Nat → Tab α
  | [], _ => []
  | (k, v) :: t, n => if k = n then Tab.del t n else (k, v) :: Tab.del t n

/-- List `v` under index `n`, keeping the indexes rising. -/
def Tab.put {α : Type} : Tab α → Nat → α → Tab α
  | [], n, v => [(n, v)]
  | (k, w) :: t, n, v =>
    if n < k then (n, v) :: (k, w) :: t
    else if k = n then (n, v) :: t
    else (k, w) :: Tab.put t n v

/-- Write `v` at index `n` of a table whose unlisted indexes read `d`: writing `d` removes the entry. -/
def Tab.set {α : Type} [DecidableEq α] (d : α) (t : Tab α) (n : Nat) (v : α) : Tab α :=
  if v = d then Tab.del t n else Tab.put t n v

/-- Change the value at index `n` by `f`. -/
def Tab.upd {α : Type} [DecidableEq α] (d : α) (t : Tab α) (n : Nat) (f : α → α) : Tab α :=
  Tab.set d t n (f (Tab.get d t n))

/-- Every index of `t` is above `lo`, and the indexes rise. -/
def Tab.above {α : Type} : Nat → Tab α → Bool
  | _, [] => true
  | lo, (k, _) :: t => decide (lo < k) && Tab.above k t

/-- The indexes rise strictly. -/
def Tab.sorted {α : Type} : Tab α → Bool
  | [] => true
  | (k, _) :: t => Tab.above k t

/-- The canonical form: strictly rising indexes, no entry equal to the unlisted value `d`. -/
def Tab.wf {α : Type} [DecidableEq α] (d : α) (t : Tab α) : Bool :=
  Tab.sorted t && t.all (fun kv => decide (kv.2 ≠ d))

/-- Keep the entries whose index and value satisfy `p`. -/
def Tab.keep {α : Type} (t : Tab α) (p : Nat → α → Bool) : Tab α := t.filter (fun kv => p kv.1 kv.2)

/-- Apply `f` to every listed value; entries that come to read as `d` are removed. -/
def Tab.mapAll {α : Type} [DecidableEq α] (d : α) (t : Tab α) (f : Nat → α → α) : Tab α :=
  (t.map (fun kv => (kv.1, f kv.1 kv.2))).filter (fun kv => decide (kv.2 ≠ d))

/-- Write the values of a list at consecutive indexes from `n`. -/
def Tab.setList {α : Type} [DecidableEq α] (d : α) : Tab α → Nat → List α → Tab α
  | t, _, [] => t
  | t, n, v :: vs => Tab.setList d (Tab.set d t n v) (n + 1) vs

/-- Read `len` consecutive values from index `n`. -/
def Tab.getList {α : Type} (d : α) (t : Tab α) (n : Nat) : Nat → List α
  | 0 => []
  | len + 1 => Tab.get d t n :: Tab.getList d t (n + 1) len

/-- Copy `len` values of `src` from index `a` to index `n` of `t`; both tables' unlisted indexes read `d`. Only listed values are
visited: the rest of the target run is cleared. -/
def Tab.copyIn {α : Type} [DecidableEq α] (d : α) (t : Tab α) (n len : Nat) (src : Tab α) (a : Nat) : Tab α :=
  (src.filter (fun kv => decide (a ≤ kv.1) && decide (kv.1 < a + len))).foldl (fun (u : Tab α) kv => Tab.set d u (kv.1 - a + n) kv.2)
    (Tab.keep t (fun k _ => !(decide (n ≤ k) && decide (k < n + len))))

/-- A little-endian number from its bytes (R3). -/
def leNat : List Byte → Nat
  | [] => 0
  | b :: bs => b.toNat + 256 * leNat bs

/-- The `n` little-endian bytes of a number (R3). -/
def leBytes : Nat → Nat → List Byte
  | 0, _ => []
  | n + 1, x => BitVec.ofNat 8 x :: leBytes n (x / 256)

/-- A big-endian number from its bytes (the byte order of network frames, R3). -/
def beNat (bs : List Byte) : Nat := bs.foldl (fun a b => 256 * a + b.toNat) 0

/-- A list of bytes cut or padded with zeros to `n`. -/
def padTo (n : Nat) (bs : List Byte) : List Byte := (bs ++ leBytes (n - bs.length) 0).take n

/-- A slice of a record. -/
def sub (bs : List Byte) (o n : Nat) : List Byte := (bs.drop o).take n

/-- The number at an offset of a record. -/
def subN (bs : List Byte) (o n : Nat) : Nat := leNat (sub bs o n)

/-- Bits `h` to `l` of a number (R15: a[h:l]). -/
def bits (x h l : Nat) : Nat := (x / 2 ^ l) % 2 ^ (h + 1 - l)

/-- Bit `i` of a number. -/
def bit (x i : Nat) : Bool := decide (x / 2 ^ i % 2 = 1)

/-- Bits `h` to `l` of a word, as a number. -/
def wbits (x : Word) (h l : Nat) : Nat := bits x.toNat h l

/-- Bit `i` of a word. -/
def wbit (x : Word) (i : Nat) : Bool := bit x.toNat i

/-- A number with its bits `h` to `l` replaced by `v` (taken modulo the field's width). -/
def putBits (x h l v : Nat) : Nat :=
  x - 2 ^ l * bits x h l + 2 ^ l * (v % 2 ^ (h + 1 - l))

/-- A word with its bits `h` to `l` replaced. -/
def wput (x : Word) (h l v : Nat) : Word := BitVec.ofNat 32 (putBits x.toNat h l v)

/-- One as a bit. -/
def b2n (b : Bool) : Nat := if b then 1 else 0

/-- The two's complement value of the low `n` bits of `x` (R3). -/
def sext (n x : Nat) : Int :=
  let v := x % 2 ^ n
  if 2 ^ (n - 1) ≤ v then (v : Int) - 2 ^ n else v

/-- The low `n` bits of an integer in two's complement (R15: wrap). -/
def wrapI (n : Nat) (x : Int) : Nat := (x % (2 ^ n : Int)).toNat

/-- R15: sat(x, lo, hi). -/
def satI (x lo hi : Int) : Int := if x < lo then lo else if hi < x then hi else x

/-- A count that sticks at `m`. -/
def stick (m n : Nat) : Nat := min m n

/-- The 32-bit sticking limit. -/
def stick32 (n : Nat) : Nat := min 0xFFFFFFFF n

/-- Rising multiples: `a` rounded up to a multiple of `m`. -/
def roundUp (a m : Nat) : Nat := (a + m - 1) / m * m

/-- The list 0, 1, …, n − 1. -/
def upTo (n : Nat) : List Nat := List.range n

/-- The indexes of the set bits of the low `n` bits of a mask, lowest first. -/
def maskBits (n m : Nat) : List Nat := (upTo n).filter (fun i => bit m i)

/-- The number of set bits among the low `n`. -/
def popCount (n m : Nat) : Nat := (maskBits n m).length

/-- A mask with bit `i` set. -/
def setBit (m i : Nat) : Nat := if bit m i then m else m + 2 ^ i

/-- A mask with bit `i` cleared. -/
def clrBit (m i : Nat) : Nat := if bit m i then m - 2 ^ i else m

end Sys2Proof
end

