-- ==== Sys2Proof/Machine/Num.lean ====
section
/-! DEFINITION. The arithmetic of chapter 2: exact dyadic values, one rounding to binary32 or bfloat16, the block-scaled
encoder, the edge unit, and the link codes. Number codes are held as their bit patterns (Nat). -/

namespace Sys2Proof

/-- R15: rne of num ÷ den (den positive): nearest integer, ties to the even integer. -/
def rneRat (num : Int) (den : Nat) : Int :=
  let q := num / (den : Int)
  let r := num % (den : Int)
  if 2 * r < den then q
  else if (den : Int) < 2 * r then q + 1
  else if q % 2 = 0 then q else q + 1

/-- rne of n × 2^e. -/
def rneDy (n e : Int) : Int :=
  if 0 ≤ e then n * 2 ^ e.toNat else rneRat n (2 ^ (-e).toNat)

/-- One rounding of n × 2^e (n not 0) to a binary format of precision `p` (24 or 8) with the exponent range of binary32: the
bit pattern, and whether a finite value rounded to infinity (R41). Subnormals are produced. -/
def fpRound (p : Nat) (n e : Int) : Nat × Bool :=
  let a := n.natAbs
  let emin : Int := -126 - (p - 1 : Nat)
  let u := max (e + Nat.log2 a - (p - 1 : Nat)) emin
  let q := (rneDy a (e - u)).toNat
  let m := (u - emin).toNat * 2 ^ (p - 1) + q
  let sign := if n < 0 then 2 ^ (p + 7) else 0
  if 255 * 2 ^ (p - 1) ≤ m then (sign + 255 * 2 ^ (p - 1), true) else (sign + m, false)

/-- The canonical quiet NaN (R41). -/
def nan32 : Nat := 0x7FC00000

def nan16 : Nat := 0x7FC0

def fIsNaN (x : Nat) : Bool := decide (bits x 30 23 = 255) && decide (bits x 22 0 ≠ 0)

def fIsInf (x : Nat) : Bool := decide (bits x 30 23 = 255) && decide (bits x 22 0 = 0)

def fNeg (x : Nat) : Bool := bit x 31

def fIsZero (x : Nat) : Bool := decide (bits x 30 0 = 0)

/-- The significand and exponent of a finite binary32 value: its value is fMant x × 2^(fExp x). -/
def fMant (x : Nat) : Int :=
  let f := bits x 22 0
  let m : Nat := if bits x 30 23 = 0 then f else 2 ^ 23 + f
  if fNeg x then -(m : Int) else m

def fExp (x : Nat) : Int := if bits x 30 23 = 0 then -149 else (bits x 30 23 : Int) - 150

/-- fp32() of n × 2^e; an exact zero is +0.0 (R42). -/
def fp32Of (n e : Int) : Nat × Bool := if n = 0 then (0, false) else fpRound 24 n e

/-- R41: binary32 addition. -/
def fAdd (x y : Nat) : Nat × Bool :=
  if fIsNaN x ∨ fIsNaN y then (nan32, false)
  else if fIsInf x ∧ fIsInf y then (if fNeg x = fNeg y then x else nan32, false)
  else if fIsInf x then (x, false)
  else if fIsInf y then (y, false)
  else if fIsZero x ∧ fIsZero y then (if fNeg x ∧ fNeg y then 2 ^ 31 else 0, false)
  else
    let e := min (fExp x) (fExp y)
    fp32Of (fMant x * 2 ^ (fExp x - e).toNat + fMant y * 2 ^ (fExp y - e).toNat) e

/-- bf16() of a binary32 value (R41, R42). -/
def bf16Of (x : Nat) : Nat × Bool :=
  if fIsNaN x then (nan16, false)
  else if fIsInf x then (x / 65536, false)
  else if fMant x = 0 then (0, false)
  else fpRound 8 (fMant x) (fExp x)

/-- A BF16 value widened exactly to binary32. -/
def bf16Wide (x : Nat) : Nat := if fIsNaN (x * 65536) then nan32 else x * 65536

/-- The value of a side-list entry (R59, R60): widened exactly, an exact zero as +0.0 (R42). -/
def bf16Zero (x : Nat) : Nat := if bits x 14 0 = 0 then 0 else bf16Wide x

/-- The arithmetic event counts (R62). -/
structure Counts where
  sat : Nat := 0
  esc : Nat := 0
  escFull : Nat := 0
  nan : Nat := 0
  ovf : Nat := 0
  linkErr : Nat := 0
  deriving DecidableEq, Repr, Inhabited

def Counts.add (a b : Counts) : Counts :=
  { sat := a.sat + b.sat, esc := a.esc + b.esc, escFull := a.escFull + b.escFull, nan := a.nan + b.nan,
    ovf := a.ovf + b.ovf, linkErr := a.linkErr + b.linkErr }

/-- A block-scaled slice: mantissas and the biased exponent (R46). -/
structure Slice where
  m : List Int
  e : Nat
  deriving DecidableEq, Repr, Inhabited

/-- floor(log2 |x|) of a finite non-zero binary32 value. -/
def fLog2 (x : Nat) : Int := fExp x + Nat.log2 (fMant x).natAbs

/-- R48: encode a slice of binary32 values to BS8 (mw = 8) or BS16 (mw = 16). -/
def encodeBs (xs : List Nat) (mw : Nat) : Slice × Counts :=
  let lim : Int := 2 ^ (mw - 1) - 1
  let off : Int := 125 + mw
  if xs.any (fun x => fIsNaN x || fIsInf x) then ({ m := xs.map (fun _ => 0), e := 255 }, { nan := 1 })
  else
    let nz := xs.filter (fun x => !fIsZero x)
    match nz with
    | [] => ({ m := xs.map (fun _ => 0), e := 0 }, {})
    | x0 :: rest =>
      let top := rest.foldl (fun a x => max a (fLog2 x)) (fLog2 x0)
      let e0 : Int := max 0 (top + 127)
      let scale := fun (e : Int) => xs.map (fun x => rneDy (fMant x) (fExp x + off - e))
      let m0 := scale e0
      let up := m0.any (fun m => decide (lim < m))
      let e1 := if up then e0 + 1 else e0
      let m1 := if up then scale e1 else m0
      if 254 < e1 then
        let t := scale 254
        ({ m := t.map (fun v => satI v (-lim - 1) lim), e := 254 },
         { sat := (t.filter (fun v => decide (satI v (-lim - 1) lim ≠ v))).length })
      else ({ m := m1, e := e1.toNat }, {})

/-- R52: the edge conversion of one column of one tile. -/
def edgeTile (p sr : Int) (z2 s e mw : Nat) : Nat × Bool :=
  if e = 255 then (nan32, false)
  else
    let c := 2 * p - z2 * sr
    if c = 0 ∨ fIsZero s then (0, false)
    else if fIsNaN s then (nan32, false)
    else if fIsInf s then (0x7F800000 + (if (decide (c < 0)) = fNeg s then 0 else 2 ^ 31), false)
    else fp32Of (c * fMant s) (fExp s + e - 126 - mw)

/-! ### Link codes (R56 to R60) -/

/-- Bits per element: 4 for QL4 (CODE 0), 8 for QL8 (CODE 1). -/
def qlBits (code : Nat) : Nat := if code = 0 then 4 else 8

/-- One group parameter record (R57). -/
structure QlPar where
  g : Nat
  zq : Nat
  rsv : Nat
  deriving DecidableEq, Repr, Inhabited

/-- R103, R56: a record whose g is finite and above 0, whose zq is at most 2^n − 2 and whose top bits are 0. -/
def QlPar.ok (n : Nat) (p : QlPar) : Bool :=
  !fIsNaN p.g && !fIsInf p.g && !fNeg p.g && !fIsZero p.g && decide (p.zq ≤ 2 ^ n - 2) && decide (p.rsv = 0)

/-- The side list while encoding: entries oldest first, and the three header counts of R59. -/
structure SideList where
  ents : List (Nat × Nat) := []
  sat : Nat := 0
  escFull : Nat := 0
  nan : Nat := 0
  deriving DecidableEq, Repr, Inhabited

/-- R58: encode one element with index `i`; `cnt` is the number of side-list entries already used. The answer: the code, the
side-list entry if one is taken, and the counts. -/
def encodeQl1 (n cap cnt i : Nat) (par : QlPar) (x : Nat) : Nat × Option (Nat × Nat) × Counts :=
  let hi : Int := 2 ^ n - 2
  let esc := 2 ^ n - 1
  let full : Nat := if 0 < cap then 1 else 0
  if fIsNaN x then
    if cnt < cap then (esc, some (i, nan16), { esc := 1 })
    else (par.zq, none, { nan := 1, escFull := full })
  else
    let v : Int :=
      if fIsInf x then (if fNeg x then -1 else hi + 1)
      else
        let ex := fExp x - fExp par.g
        let num := fMant x * 2 ^ (max ex 0).toNat + (par.zq : Int) * ((fMant par.g) * 2 ^ (max (-ex) 0).toNat)
        rneRat num ((fMant par.g).toNat * 2 ^ (max (-ex) 0).toNat)
    if 0 ≤ v ∧ v ≤ hi then (v.toNat, none, {})
    else if cnt < cap then
      let b := bf16Of x
      (esc, some (i, b.1), { esc := 1, ovf := b2n b.2 })
    else (if v < 0 then 0 else hi.toNat, none, { sat := 1, escFull := full })

/-- R56: the value of a usable code. -/
def decodeQl (par : QlPar) (u : Nat) : Nat × Bool := fp32Of (fMant par.g * ((u : Int) - par.zq)) (fExp par.g)

/-- Lexicographic order of lists of numbers. -/
def rankLt : List Nat → List Nat → Bool
  | a :: as, b :: bs => decide (a < b) || (decide (a = b) && rankLt as bs)
  | _, _ => false

end Sys2Proof
end

