-- ==== Sys2Proof/Machine/RegMap.lean ====
section
/-! DEFINITION. The register map of PF BAR0 (R352 and the register maps of the block chapters): for every register its
place, which of its bits the host may change and how (the access codes of R4), its reset value, and the MSI-X vector its
event register signals (R370). A register is named by its PF BAR0 offset; a VF's own copy of a GLB, MBX or doorbell
register (R353) is named by that offset plus `vfBase n`. -/

namespace Sys2Proof

/-- One line of a register map: registers at `base + i * s1 + j * s2`, `i < n1`, `j < n2`; masks of the bits the host may
change as RW, RWL, W1C or W1S (WO counts as W1S: the write triggers the action of a command of its own). -/
structure RegRow where
  base : Nat
  n1 : Nat := 1
  s1 : Nat := 4
  n2 : Nat := 1
  s2 : Nat := 1
  rw : Nat := 0
  rwl : Nat := 0
  w1c : Nat := 0
  w1s : Nat := 0
  rst : Nat := 0
  /-- A write of the register has a behaviour of its own, given by another command of the table. -/
  own : Bool := false
  deriving DecidableEq, Repr

/-- Does the row hold a register at this offset? -/
def RegRow.covers (r : RegRow) (off : Nat) : Bool :=
  let d := off - r.base
  decide (r.base ≤ off) && decide (d / r.s1 < r.n1) && decide (d % r.s1 % r.s2 = 0) && decide (d % r.s1 / r.s2 < r.n2)

/-- Does the host have any field to change in the register? -/
def RegRow.writable (r : RegRow) : Bool := decide (r.rw ≠ 0) || decide (r.rwl ≠ 0) || decide (r.w1c ≠ 0) || decide (r.w1s ≠ 0)

def glbBase : Nat := 0x00000000
def erlBase : Nat := 0x00010000
def mbxBase : Nat := 0x00020000
def lckBase : Nat := 0x00030000
def pqBase : Nat := 0x00040000
def catBase : Nat := 0x00050000
def tmuBase : Nat := 0x00080000
def prtBase : Nat := 0x00100000
def parBase : Nat := 0x00200000
def clsBase : Nat := 0x00240000
def flwBase : Nat := 0x00300000
def gntBase : Nat := 0x00340000
def treBase : Nat := 0x00380000
def visBase : Nat := 0x003C0000
def hudBase : Nat := 0x00400000
def tenBase : Nat := 0x00800000
def memBase : Nat := 0x00C00000
def ptnBase : Nat := 0x00E00000
def pwrBase : Nat := 0x00F00000
def secBase : Nat := 0x00F80000
def dbBase : Nat := 0x01000000
def msixBase : Nat := 0x01010000
def pbaBase : Nat := 0x01018000

/-- The model's name space for the registers of VF n's own view (R353): GLB, MBX, doorbells and MSI-X table. -/
def vfBase (n : Nat) : Nat := 0x10000000 * (n + 1)

/-- All 32 bits. -/
def m32 : Nat := 0xFFFFFFFF

/-- GLB, R373, and MBX, R374, and the doorbell window. -/
def rowsHost : List RegRow := [
  { base := glbBase + 0x00, rst := 0x32000001 },
  { base := glbBase + 0x04, rst := 0x00000001 },
  { base := glbBase + 0x08 },
  { base := glbBase + 0x0C, w1c := 0x7 },
  { base := glbBase + 0x10, rw := 0x7 },
  { base := glbBase + 0x14, rw := m32 },
  { base := glbBase + 0x18 },
  { base := glbBase + 0x1C },
  { base := glbBase + 0x20, rw := m32 },
  { base := glbBase + 0x24 },
  { base := mbxBase + 0x0000, n1 := 1024, rw := m32 },
  { base := mbxBase + 0x1000, n1 := 1024 },
  { base := mbxBase + 0x2000, w1s := 0x3, own := true },
  { base := mbxBase + 0x2004 },
  { base := mbxBase + 0x2008, w1c := 0x3 },
  { base := mbxBase + 0x200C, rw := 0x3 },
  { base := mbxBase + 0x2010, n1 := 4 },
  { base := mbxBase + 0x2020, rw := m32 },
  { base := dbBase, n1 := 16, s1 := 8, n2 := 2, s2 := 4, rw := 0xFFF, own := true },
  { base := dbBase + 0x100, n1 := 16 },
  { base := msixBase, n1 := 256, rw := m32 },
  { base := pbaBase, n1 := 2 } ]

/-- ERL, R347; LCK, R171; PQ, R170; CAT, R169. -/
def rowsLog : List RegRow := [
  { base := erlBase + 0x00, rst := 0x0C100001 },
  { base := erlBase + 0x04, w1s := 0xF, own := true },
  { base := erlBase + 0x08 },
  { base := erlBase + 0x0C, w1c := 0xF },
  { base := erlBase + 0x10, rw := 0xF },
  { base := erlBase + 0x14 },
  { base := erlBase + 0x18, rw := 0xFFF, own := true },
  { base := erlBase + 0x20, n1 := 8 },
  { base := erlBase + 0x40, n1 := 4, rw := m32 },
  { base := erlBase + 0x50, rw := m32 },
  { base := lckBase, n1 := 256, rw := m32, own := true },
  { base := lckBase + 0x400, n1 := 256 },
  { base := lckBase + 0x800, own := true },
  { base := lckBase + 0x804, n1 := 2, rw := m32 },
  { base := pqBase + 0x00, n1 := 64, s1 := 0x100 },
  { base := pqBase + 0x04, n1 := 64, s1 := 0x100, rst := 0x40000000 },
  { base := pqBase + 0x08, n1 := 64, s1 := 0x100, w1c := 0x7 },
  { base := pqBase + 0x0C, n1 := 64, s1 := 0x100, rw := 0x7 },
  { base := pqBase + 0x10, n1 := 64, s1 := 0x100, rw := m32 },
  { base := pqBase + 0x14, n1 := 64, s1 := 0x100, w1s := 0x7, own := true },
  { base := pqBase + 0x18, n1 := 64, s1 := 0x100, own := true },
  { base := pqBase + 0x20, n1 := 64, s1 := 0x100, n2 := 8, s2 := 4, rw := m32 },
  { base := pqBase + 0x40, n1 := 64, s1 := 0x100, n2 := 8, s2 := 4 },
  { base := catBase + 0x00, rst := 0x80082401 },
  { base := catBase + 0x04, n1 := 2 },
  { base := catBase + 0x0C, w1c := 0x3 },
  { base := catBase + 0x10, rw := 0x3 },
  { base := catBase + 0x100, n1 := 36, s1 := 8 },
  { base := catBase + 0x104, n1 := 36, s1 := 8, rw := m32 },
  { base := catBase + 0x400, n1 := 33, s1 := 0x10 },
  { base := catBase + 0x404, n1 := 33, s1 := 0x10, rw := 0xFF, own := true },
  { base := catBase + 0x408, n1 := 33, s1 := 0x10, rw := m32 },
  { base := catBase + 0x40C, n1 := 33, s1 := 0x10, rw := 0x30000, w1c := 0x3 },
  { base := catBase + 0x8000, n1 := 33, s1 := 0x1000, n2 := 1024, s2 := 4 } ]

/-- TMU, R297; PRT, R197; PAR, R227; CLS, R228. -/
def rowsFlowA : List RegRow := [
  { base := tmuBase + 0x00, rst := 0x03080001 },
  { base := tmuBase + 0x04, rst := 0x00000022 },
  { base := tmuBase + 0x08 },
  { base := tmuBase + 0x0C, rst := 0x00000802 },
  { base := tmuBase + 0x10, w1c := 0x1FF },
  { base := tmuBase + 0x14, rw := 0x1FF },
  { base := tmuBase + 0x18, n1 := 2 },
  { base := tmuBase + 0x20, rst := 0xFF020000 },
  { base := tmuBase + 0x24 },
  { base := tmuBase + 0x28, rst := 0xFFFFFFFF },
  { base := tmuBase + 0x2C, rst := 0x000186A0 },
  { base := tmuBase + 0x30, rst := 0x03E8000A },
  { base := tmuBase + 0x34, rst := 0x000F4240 },
  { base := tmuBase + 0x38, rst := 0x00000025 },
  { base := tmuBase + 0x3C, rst := 0x00000064 },
  { base := tmuBase + 0x40 },
  { base := tmuBase + 0x44, rst := 0x000003E8 },
  { base := tmuBase + 0x48, n1 := 3 },
  { base := tmuBase + 0x54, rst := 0x006400FA },
  { base := tmuBase + 0x58, rst := 0x00140064 },
  { base := tmuBase + 0x5C, rst := 0x03E80004 },
  { base := tmuBase + 0x60, rst := 0x00000BB8 },
  { base := tmuBase + 0x64, rst := 0x00000007 },
  { base := tmuBase + 0x68, n1 := 4 },
  { base := tmuBase + 0x100, n1 := 32 },
  { base := prtBase + 0x00, n1 := 8, s1 := 0x10000, rst := 0x00000001 },
  { base := prtBase + 0x04, n1 := 8, s1 := 0x10000, n2 := 2, s2 := 4 },
  { base := prtBase + 0x1000, n1 := 8, s1 := 0x10000, n2 := 4, s2 := 0x1000 },
  { base := prtBase + 0x1004, n1 := 8, s1 := 0x10000, n2 := 4, s2 := 0x1000, rst := 0x000005EE },
  { base := prtBase + 0x1008, n1 := 8, s1 := 0x10000, n2 := 4, s2 := 0x1000 },
  { base := prtBase + 0x100C, n1 := 8, s1 := 0x10000, n2 := 4, s2 := 0x1000, w1c := 0x1F },
  { base := prtBase + 0x1010, n1 := 8, s1 := 0x10000, n2 := 4, s2 := 0x1000, rw := 0x1F },
  { base := prtBase + 0x1014, n1 := 8, s1 := 0x10000, n2 := 4, s2 := 0x1000 },
  { base := prtBase + 0x1018, n1 := 8, s1 := 0x10000, n2 := 4, s2 := 0x1000 },
  { base := prtBase + 0x101C, n1 := 8, s1 := 0x10000, n2 := 4, s2 := 0x1000 },
  { base := prtBase + 0x1020, n1 := 8, s1 := 0x10000, n2 := 4, s2 := 0x1000, rst := 0x00000064 },
  { base := prtBase + 0x1024, n1 := 8, s1 := 0x10000, n2 := 4, s2 := 0x1000 },
  { base := prtBase + 0x1028, n1 := 8, s1 := 0x10000, n2 := 4, s2 := 0x1000 },
  { base := prtBase + 0x102C, n1 := 8, s1 := 0x10000, n2 := 4, s2 := 0x1000 },
  { base := prtBase + 0x1030, n1 := 8, s1 := 0x10000, n2 := 4, s2 := 0x1000 },
  { base := prtBase + 0x1100, n1 := 8, s1 := 0x10000, n2 := 50, s2 := 4 },
  { base := prtBase + 0x2100, n1 := 8, s1 := 0x10000, n2 := 50, s2 := 4 },
  { base := prtBase + 0x3100, n1 := 8, s1 := 0x10000, n2 := 50, s2 := 4 },
  { base := prtBase + 0x4100, n1 := 8, s1 := 0x10000, n2 := 50, s2 := 4 },
  { base := parBase + 0x00, rst := 0x04404001 },
  { base := parBase + 0x04, rst := 0x12B51269 },
  { base := parBase + 0x08, rst := 0x00661268 },
  { base := parBase + 0x0C, n1 := 2 },
  { base := parBase + 0x14, w1c := 0x3 },
  { base := parBase + 0x18, rw := 0x3 },
  { base := parBase + 0x20, n1 := 8 },
  { base := parBase + 0x100, n1 := 64 },
  { base := parBase + 0x400, n1 := 64 },
  { base := parBase + 0x800, n1 := 256 },
  { base := clsBase + 0x00, rst := 0x08100801 },
  { base := clsBase + 0x04, rst := 0x00000001 },
  { base := clsBase + 0x08, rst := 0x00010001 },
  { base := clsBase + 0x0C, own := true },
  { base := clsBase + 0x10 },
  { base := clsBase + 0x14, w1c := 0xF },
  { base := clsBase + 0x18, rw := 0xF },
  { base := clsBase + 0x20, n1 := 8 },
  { base := clsBase + 0x100, n1 := 32 },
  { base := clsBase + 0x200, n1 := 128 },
  { base := clsBase + 0x400, n1 := 32 },
  { base := clsBase + 0x500, n1 := 64 },
  { base := clsBase + 0x1000, n1 := 64 } ]

/-- FLW, R250; GNT, R251; TRE, R278; VIS, R252; HUD, R321. -/
def rowsFlowB : List RegRow := [
  { base := flwBase + 0x00, rst := 0x14121F01 },
  { base := flwBase + 0x04, rst := 0x00000004 },
  { base := flwBase + 0x08 },
  { base := flwBase + 0x0C, w1c := 0x7 },
  { base := flwBase + 0x10, rw := 0x7 },
  { base := flwBase + 0x14 },
  { base := flwBase + 0x20, rw := 0xFFFFF, own := true },
  { base := flwBase + 0x40, n1 := 16 },
  { base := flwBase + 0x80, rw := 0x3FFFF, own := true },
  { base := flwBase + 0x84, n1 := 2 },
  { base := flwBase + 0x100, n1 := 128 },
  { base := flwBase + 0x300, n1 := 64 },
  { base := flwBase + 0x400, n1 := 64 },
  { base := flwBase + 0x600, n1 := 32 },
  { base := flwBase + 0x800, n1 := 32, rw := m32 },
  { base := gntBase + 0x00, rst := 0x08000001 },
  { base := gntBase + 0x04, rst := 0x00040000 },
  { base := gntBase + 0x08 },
  { base := gntBase + 0x0C, w1c := 0x7 },
  { base := gntBase + 0x10, rw := 0x7 },
  { base := gntBase + 0x20, rw := 0x3FFF, w1s := 0x40000000, own := true },
  { base := gntBase + 0x40, n1 := 8 },
  { base := gntBase + 0x60, n1 := 6 },
  { base := gntBase + 0x100, n1 := 32, s1 := 0x10, n2 := 3, s2 := 4 },
  { base := gntBase + 0x10C, n1 := 32, s1 := 0x10, rw := m32 },
  { base := gntBase + 0x800, n1 := 32 },
  { base := gntBase + 0x1000, n1 := 256, s1 := 0x40, n2 := 9, s2 := 4 },
  { base := gntBase + 0x1024, n1 := 256, s1 := 0x40, n2 := 3, s2 := 4, rw := m32 },
  { base := gntBase + 0x1030, n1 := 256, s1 := 0x40, n2 := 4, s2 := 4 },
  { base := treBase + 0x00, rst := 0x040B4001 },
  { base := treBase + 0x04, rst := 0x00000002 },
  { base := treBase + 0x08 },
  { base := treBase + 0x0C, w1c := 0x1F },
  { base := treBase + 0x10, rw := 0x1F },
  { base := treBase + 0x14 },
  { base := treBase + 0x40, n1 := 4 },
  { base := treBase + 0x100, n1 := 64, s1 := 0x10, n2 := 2, s2 := 4 },
  { base := treBase + 0x108, n1 := 64, s1 := 0x10, rw := m32 },
  { base := treBase + 0x10C, n1 := 64, s1 := 0x10 },
  { base := treBase + 0x800, n1 := 512 },
  { base := treBase + 0x1000, n1 := 32 },
  { base := visBase + 0x00, rst := 0x40400001 },
  { base := visBase + 0x04, w1c := 0x3 },
  { base := visBase + 0x08, rw := 0x3 },
  { base := visBase + 0x100, n1 := 1024 },
  { base := visBase + 0x2000, n1 := 256 },
  { base := visBase + 0x3000, n1 := 32 },
  { base := hudBase + 0x00, rst := 0x40FFF001 },
  { base := hudBase + 0x04 },
  { base := hudBase + 0x08, w1c := 0x3F },
  { base := hudBase + 0x0C, rw := 0x3F },
  { base := hudBase + 0x10 },
  { base := hudBase + 0x40, n1 := 6, rw := m32 },
  { base := hudBase + 0x100, n1 := 512 },
  { base := hudBase + 0x1000, n1 := 64 },
  { base := hudBase + 0x2000, n1 := 64, s1 := 0x10, n2 := 2, s2 := 4 },
  { base := hudBase + 0x2008, n1 := 64, s1 := 0x10, rw := m32 },
  { base := hudBase + 0x200C, n1 := 64, s1 := 0x10 },
  { base := hudBase + 0x4000, n1 := 2048 } ]

/-- TEN, R122; MEM, R149; PTN, R346; PWR, R477; SEC, R453. -/
def rowsTen : List RegRow := [
  { base := tenBase + 0x00, n1 := 32, s1 := 0x20000 },
  { base := tenBase + 0x04, n1 := 32, s1 := 0x20000, w1s := 0x8000000F, own := true },
  { base := tenBase + 0x08, n1 := 32, s1 := 0x20000 },
  { base := tenBase + 0x0C, n1 := 32, s1 := 0x20000, rwl := 0x01FFFFC0 },
  { base := tenBase + 0x10, n1 := 32, s1 := 0x20000, w1c := 0x3F },
  { base := tenBase + 0x14, n1 := 32, s1 := 0x20000, rw := 0x3F },
  { base := tenBase + 0x18, n1 := 32, s1 := 0x20000, rwl := 0xFFFFC000 },
  { base := tenBase + 0x1C, n1 := 32, s1 := 0x20000, rwl := 0xFF },
  { base := tenBase + 0x20, n1 := 32, s1 := 0x20000, n2 := 4, s2 := 4 },
  { base := tenBase + 0x40, n1 := 32, s1 := 0x20000, n2 := 6, s2 := 4, rw := m32 },
  { base := tenBase + 0x60, n1 := 32, s1 := 0x20000, n2 := 7, s2 := 4, rw := m32 },
  { base := tenBase + 0x80, n1 := 32, s1 := 0x20000, n2 := 2, s2 := 4 },
  { base := memBase + 0x00, rst := 0x08083001 },
  { base := memBase + 0x04, rst := 0x00001010 },
  { base := memBase + 0x08, n1 := 2 },
  { base := memBase + 0x10, w1c := 0x1F },
  { base := memBase + 0x14, rw := 0x1F },
  { base := memBase + 0x18 },
  { base := memBase + 0x20, rst := 0x8C84FFFF },
  { base := memBase + 0x24 },
  { base := memBase + 0x28, n1 := 2 },
  { base := memBase + 0x40, n1 := 32 },
  { base := memBase + 0x100, n1 := 32, s1 := 0x20, n2 := 6, s2 := 4 },
  { base := ptnBase + 0x00, rst := 0x20000001 },
  { base := ptnBase + 0x04, n1 := 3 },
  { base := ptnBase + 0x10, w1c := 0x3F },
  { base := ptnBase + 0x14, rw := 0x3F },
  { base := ptnBase + 0x18 },
  { base := ptnBase + 0x20, n1 := 4 },
  { base := ptnBase + 0x40, n1 := 32 },
  { base := ptnBase + 0x100, n1 := 1024 },
  { base := ptnBase + 0x1400, n1 := 192 },
  { base := pwrBase + 0x00, rst := 0x10040001 },
  { base := pwrBase + 0x04, n1 := 2 },
  { base := pwrBase + 0x0C, w1c := 0x3F },
  { base := pwrBase + 0x10, rw := 0x3F },
  { base := pwrBase + 0x14 },
  { base := pwrBase + 0x18, w1s := m32, own := true },
  { base := pwrBase + 0x1C, n1 := 4 },
  { base := pwrBase + 0x30, n1 := 8 },
  { base := pwrBase + 0x60, n1 := 4 },
  { base := pwrBase + 0x80, n1 := 16 },
  { base := pwrBase + 0x100, n1 := 16 },
  { base := secBase + 0x00, rst := 0x04250001 },
  { base := secBase + 0x04, n1 := 3 },
  { base := secBase + 0x10, w1c := 0x3F },
  { base := secBase + 0x14, rw := 0x3F },
  { base := secBase + 0x18, n1 := 2, rw := m32 },
  { base := secBase + 0x40, rw := 0x3F, own := true },
  { base := secBase + 0x44 },
  { base := secBase + 0x50, n1 := 12 },
  { base := secBase + 0x100, n1 := 32 },
  { base := secBase + 0x200, rw := 0x1F, own := true },
  { base := secBase + 0x1000, n1 := 432 } ]

/-- The rows of the block an offset lies in (R352). -/
def rowsAt (off : Nat) : List RegRow :=
  if off < 0x30000 then (if off < erlBase then rowsHost else if off < mbxBase then rowsLog else rowsHost)
  else if off < tmuBase then rowsLog
  else if off < flwBase then rowsFlowA
  else if off < tenBase then rowsFlowB
  else if off < dbBase then rowsTen
  else rowsHost

/-- The register line that holds an offset, a VF's own copies counted under the PF's line (R353). -/
def regRow (key : Nat) : Option RegRow :=
  let off := key % 0x10000000
  (rowsAt off).find? (fun r => r.covers off)

/-- R7, R373, R374 and the Reset columns: what a register reads as after the reset of its block. GLB_ID of a VF view shows
DEVICE 0x3201 (R353). PRT_ID holds its block number, TEN_ID its core and die. MEM_MSCAP is 19,999,999,655,936 (R149). A vector of
an MSI-X table is masked after reset (R357: the PCIe Base Specification; log 54). -/
def regReset (key : Nat) : Word :=
  let off := key % 0x10000000
  if off = glbBase ∧ 0x10000000 ≤ key then BitVec.ofNat 32 0x32010001
  else if prtBase ≤ off ∧ off < parBase ∧ off % 0x10000 = 0 then BitVec.ofNat 32 (2 ^ 24 * ((off - prtBase) / 0x10000) + 1)
  else if tenBase ≤ off ∧ off < memBase ∧ off % 0x20000 = 0 then
    BitVec.ofNat 32 (((off - tenBase) / 0x20000) + 64 * ((off - tenBase) / 0x20000 / 8))
  else if msixBase ≤ off ∧ off < msixBase + 0x400 ∧ off % 16 = 12 then 1
  else if off = memBase + 0x20 then BitVec.ofNat 32 (19999999655936 % 2 ^ 32)
  else if off = memBase + 0x24 then BitVec.ofNat 32 (19999999655936 / 2 ^ 32)
  else match regRow key with
    | some r => BitVec.ofNat 32 r.rst
    | none => 0

/-- R370: the PF vector an event register of PF BAR0 signals, and the function (none for the PF) of a VF's own register. -/
def eventVector (key : Nat) : Option (Option Nat × Nat) :=
  let off := key % 0x10000000
  if key = glbBase + 0x0C then some (none, 12)
  else if off = mbxBase + 0x2008 then
    (if key < 0x10000000 then some (none, 0) else some (some (key / 0x10000000 - 1), 0))
  else if key = erlBase + 0x0C then some (none, 1)
  else if key = ptnBase + 0x10 then some (none, 2)
  else if key = memBase + 0x10 then some (none, 3)
  else if key = tmuBase + 0x10 then some (none, 4)
  else if prtBase ≤ key ∧ key < parBase then some (none, 5)
  else if key = parBase + 0x14 ∨ key = clsBase + 0x14 then some (none, 6)
  else if key = flwBase + 0x0C ∨ key = gntBase + 0x0C ∨ key = visBase + 0x04 then some (none, 7)
  else if key = treBase + 0x0C then some (none, 8)
  else if key = hudBase + 0x08 then some (none, 9)
  else if key = catBase + 0x0C then some (none, 10)
  else if key = pwrBase + 0x0C then some (none, 14)
  else if key = secBase + 0x10 then some (none, 15)
  else none

/-- Is this the event register of a block (its enables stand in the next register)? -/
def isEventReg (key : Nat) : Bool :=
  (eventVector key).isSome ||
  (decide (tenBase ≤ key ∧ key < memBase) && decide (key % 0x20000 = 0x10)) ||
  (decide (pqBase ≤ key ∧ key < catBase) && decide (key % 0x100 = 0x08))

end Sys2Proof
end

