-- ==== Sys2Proof/Machine/StTime.lean ====
section
/-! DEFINITION. The state of the time unit (chapter 11). The configuration registers stand in the register file. -/

namespace Sys2Proof

/-- The timestamp record of R281, 16 bytes. -/
structure TStamp where
  subsec : Nat := 0
  seconds : Nat := 0
  quality : Nat := 0
  epoch : Nat := 0
  flags : Nat := 0
  deriving DecidableEq, Repr, Inhabited

/-- The STATE of the quality code (R281). -/
inductive TimeState
  | locked | holdover | freerun | stepping
  deriving DecidableEq, Repr, Inhabited

/-- One source's qualification (R285). -/
structure TimeSrc where
  /-- consecutive good measurements, up to QUALN -/
  good : Nat := 0
  qualified : Bool := false
  /-- source bound SRCB of the latest good measurement, ns -/
  srcb : Nat := 0
  /-- consecutive missing or failing IRIG-B frames -/
  bad : Nat := 0
  /-- device time of the last good measurement, 0.1 ns -/
  last : Nat := 0
  deriving DecidableEq, Repr, Inhabited

/-- A scheduled step (R293). -/
structure PendStep where
  /-- Δ in quarter nanoseconds -/
  delta : Int
  /-- reported time of the scheduling, quarter nanoseconds -/
  at_ : Nat
  /-- the state before -/
  prev : TimeState
  deriving DecidableEq, Repr

/-- One entry of the transmit-stamp ring (R296). -/
structure TxStamp where
  tag : Nat
  port : Nat
  stamp : TStamp
  deriving DecidableEq, Repr

/-- The data set of a foreign master, from its Announce message (R286; the fields of IEEE 1588-2019, log 104). -/
structure PtpMaster where
  prio1 : Nat
  cls : Nat
  acc : Nat
  var : Nat
  prio2 : Nat
  gm : Nat
  steps : Nat
  /-- currentUtcOffset, when it is valid -/
  utc : Option Int := none
  /-- +1 leap61, −1 leap59 announced -/
  leap : Int := 0
  deriving DecidableEq, Repr, Inhabited

/-- The firmware's PTP slave clock (R286): the best master heard on each port (32: the management port) and the port in use. -/
structure Servo where
  heard : Tab (Option PtpMaster) := []
  port : Option Nat := none
  /-- the stamp of the last PTP frame at the management port (R196) -/
  mgmt : Option TStamp := none
  deriving DecidableEq, Repr, Inhabited

structure Tmu where
  /-- reported time in quarter nanoseconds: SECONDS × 4,000,000,000 + SUBSEC (R279) -/
  cnt : Nat := 0
  /-- fraction of a quarter nanosecond, in units of 2^−16 × 10^−9 -/
  frac : Int := 0
  /-- phase still to be removed by the slew, in 2^−16 quarter nanoseconds (R292) -/
  slew : Int := 0
  state : TimeState := .freerun
  /-- SOURCE: 0 none, 1 PTP, 2 PPS_IN, 3 IRIG-B, 4 set by firmware -/
  source : Nat := 0
  /-- the selected source (R284), 0 for none -/
  sel : Nat := 0
  unknown : Bool := true
  /-- error bound in ns, when known -/
  err : Nat := 0xFFFFFFFF
  epoch : Nat := 0
  /-- STATE has been LOCKED since PORST_N (R293) -/
  everLocked : Bool := false
  pend : Option PendStep := none
  /-- the last 16 |offset| of the source followed, newest first, ns; that source and its SRCB: they change with its first good
  measurement, not with the selection (R290, R291) -/
  offs : List Nat := []
  offSrc : Nat := 0
  offSrcb : Nat := 0
  /-- the bound at the latest good measurement, the growth since in 10^−10 ns up to the last change of HOLDRATE, and the device time the
  present rate holds from (R290 HOLDOVER) -/
  goodBound : Nat := 0
  grown : Nat := 0
  goodAt : Nat := 0
  /-- a step has landed and no good measurement has followed: the bound is the landing's own (R294) -/
  landed : Bool := false
  /-- sources 1 PTP, 2 PPS_IN, 3 IRIG-B -/
  src : Tab TimeSrc := []
  /-- device time of the last accepted PPS_IN edge -/
  ppsLast : Option Nat := none
  /-- time of the previous IRIG-B frame, seconds -/
  irigPrev : Option Nat := none
  /-- TUCLK comes from REF10M_IN -/
  refIn : Bool := false
  /-- a leap second is announced: +1 or −1; LEAP61 and LEAP59 of TMU_UTCOFF show it -/
  leap : Int := 0
  /-- the latest landed Δ and the reported times around it, quarter nanoseconds (R306, R311) -/
  lastDelta : Int := 0
  ppsOut : Bool := false
  /-- device time at which the pulse that stands ends (R295) -/
  ppsUntil : Nat := 0
  /-- the servo of firmware component 5 (R286) -/
  servo : Servo := {}
  txRing : List TxStamp := []
  deriving DecidableEq, Repr, Inhabited

end Sys2Proof
end

