-- ==== Sys2Proof/Machine/StHost.lean ====
section
/-! DEFINITION. The state of the host interface (chapter 14), of the error log (chapter 13) and of telemetry (chapter 19),
and what the model records of the device's outputs. -/

namespace Sys2Proof

/-- Who makes an access (R9, R164): the PF, a VF, a firmware component, or the debug port. -/
inductive Req
  | pf | vf (n : Nat) | fw (c : Nat) | debug
  deriving DecidableEq, Repr, Inhabited

/-- A mailbox request as taken (R359), its payload assembled (R360). -/
structure MbxMsg where
  opcode : Nat
  seq : Nat
  payload : List Byte
  more : Bool := false
  deriving DecidableEq, Repr, Inhabited

/-- A mailbox response (R359). -/
structure MbxRsp where
  opcode : Nat
  seq : Nat
  status : Nat
  major : Nat
  minor : Nat
  payload : List Byte
  deriving DecidableEq, Repr, Inhabited

/-- One mailbox (R359 to R361). -/
structure Mbx where
  pending : Bool := false
  taken : Bool := false
  resp : Bool := false
  hello : Bool := false
  agMajor : Nat := 0
  agMinor : Nat := 0
  feat : Nat := 0
  /-- the request firmware carries out -/
  cur : Option MbxMsg := none
  /-- the segments assembled so far: opcode, SEQ of the last segment, payload -/
  asm : Option MbxMsg := none
  /-- the response page, valid while RESP is 1 -/
  page : Option MbxRsp := none
  /-- a response that waits for the RACK of the previous one -/
  waiting : Option MbxRsp := none
  /-- the mailbox was reset after the request was taken: its response is discarded (R371) -/
  discard : Bool := false
  deriving DecidableEq, Repr, Inhabited

/-- A 64-byte DMA descriptor (chapter 14). -/
structure DmaDesc where
  haddr : Nat
  shoff : Nat
  len : Nat
  tag : Nat
  op : Nat
  flags : Nat
  pq : Nat
  level : Nat
  rsv : Nat
  entry : List Byte
  deriving DecidableEq, Repr, Inhabited

/-- A descriptor that has been carried out and waits for its completion (R368). -/
structure DmaDone where
  desc : DmaDesc
  status : Nat
  bytes : Nat
  deriving DecidableEq, Repr, Inhabited

/-- One DMA queue pair (R369). -/
structure DmaQ where
  active : Bool := false
  sqN : Nat := 0
  cqN : Nat := 0
  sqBase : Nat := 0
  cqBase : Nat := 0
  sqTail : Nat := 0
  sqHead : Nat := 0
  cqHead : Nat := 0
  cqTail : Nat := 0
  phase : Bool := true
  /-- descriptors submitted and not completed -/
  todo : Nat := 0
  /-- the descriptor running or done and not completed -/
  run : Option DmaDone := none
  /-- RECV buffers open, oldest first: descriptor and its place in the order of the PF's queues together (R367, R483) -/
  recv : List (DmaDesc × Nat) := []
  deriving DecidableEq, Repr, Inhabited

/-- A report on its way to the error log, and an entry of it (R341). -/
structure ErlEntry where
  stamp : Nat := 0
  subsec : Nat := 0
  seconds : Nat := 0
  code : Nat := 0
  source : Nat := 0
  /-- 0 advisory, 1 corrected, 2 uncorrectable, 3 fatal -/
  cls : Nat := 0
  tstate : Nat := 0
  saved : Bool := false
  partition : Nat := 0xFF
  epoch : Nat := 0
  count : Nat := 1
  seq : Nat := 0
  detail : Nat := 0
  deriving DecidableEq, Repr, Inhabited

/-- The error log (R341 to R345). -/
structure Erl where
  /-- reports waiting, oldest first, at most 64 -/
  queue : List ErlEntry := []
  slots : Tab ErlEntry := []
  nextSeq : Nat := 0
  alarm : Bool := false
  deriving DecidableEq, Repr, Inhabited

/-- A telemetry record (R478). -/
structure TelRec where
  rank : Nat := 0
  typ : Nat := 0
  source : Nat := 0
  partition : Nat := 0xFF
  inst : Nat := 0
  seq : Nat := 0
  time : TStamp := {}
  payload : List Byte := []
  deriving DecidableEq, Repr, Inhabited

/-- The length of a record with its header, a multiple of 8 from 32 to 512 (R478). -/
def TelRec.len (r : TelRec) : Nat := min 512 (roundUp (32 + r.payload.length) 8)

/-- One alarm slot (R480). -/
structure Alarm where
  set : Bool := false
  count : Nat := 0
  time : TStamp := {}
  detail : Nat := 0
  emcy : Nat := 0
  seq : Nat := 0
  /-- paths it is still to be sent on: bit 0 PCIe, 1 UDP, 2 CAN, 3 USB -/
  pend : Nat := 0
  deriving DecidableEq, Repr, Inhabited

/-- One telemetry path (R482 to R486). -/
structure TelPath where
  up : Bool := false
  queue : List TelRec := []
  drop : Tab Nat := []
  prod : Tab Nat := []
  notOffered : Nat := 0
  /-- the first SEQ of the summary period -/
  firstSeq : Nat := 0
  /-- datagram number (UDP) -/
  dgram : Nat := 0
  deriving DecidableEq, Repr, Inhabited

structure Tel where
  seq : Nat := 0
  /-- records produced by hardware and not yet offered, oldest first -/
  fresh : List TelRec := []
  /-- alarm slots, by code × 65,536 + INSTANCE -/
  alarms : Tab Alarm := []
  /-- paths 0 PCIe, 1 UDP, 2 CAN, 3 USB -/
  path : Tab TelPath := []
  /-- the predefined error field 0x1003: newest first -/
  errHist : List Nat := []
  /-- firmware record production held (R487) -/
  fwHeld : Bool := false
  deriving DecidableEq, Repr, Inhabited

/-- What the device sends or drives, in order: the model's own record. -/
inductive Out
  /-- an MSI-X message of a function (none for the PF) -/
  | msix (fn : Option Nat) (vec : Nat)
  /-- the completion of a read: status 0 successful, 1 Unsupported Request, 2 Completer Abort; and the data -/
  | read (who : Req) (status : Nat) (data : Nat)
  /-- a DMA write to host memory: address and bytes -/
  | hostWrite (fn : Option Nat) (addr : Nat) (data : List Byte)
  /-- a pause control frame: port, enabled priorities (all for PAUSE), quanta -/
  | pause (port : Nat) (pfc : Bool) (prios : Nat) (quanta : Nat)
  /-- a frame sent out of a network port: queue, packet id, its data as they stand on the lane, and whether the FCS that follows them is
  inverted (R181) -/
  | frame (port : Nat) (queue : Nat) (pkt : Nat) (data : List Byte) (stomped : Bool)
  /-- a frame built by firmware or hardware, sent out of a port (32: the management port) -/
  | frameBytes (port : Nat) (data : List Byte)
  /-- a CAN frame -/
  | can (cob : Nat) (data : List Byte)
  /-- a UDP datagram of the management port -/
  | udp (data : List Byte)
  /-- the data or status stage of a USB request, and its STALL -/
  | usb (data : List Byte)
  | usbStall
  /-- an answer to a CAN FD client node: abort code and data (R399) -/
  | usdo (node abort : Nat) (data : List Byte)
  /-- telemetry records sent on a path -/
  | tele (path : Nat) (recs : List TelRec)
  /-- a telemetry datagram of the management port: source port, destination address and port as 0x2040 holds them, bytes (R483) -/
  | teleUdp (sport : Nat) (dst : List Byte) (data : List Byte)
  /-- a level driven on a pin -/
  | pin (name : String) (high : Bool)
  /-- an SPDM or DOE response -/
  | doe (data : List Byte)
  /-- a PMBus command to a rail: rail, millivolts (0 removes the rail) -/
  | pmbus (rail : Nat) (mv : Nat)
  deriving DecidableEq, Repr

/-- The identity fields of a function's PCIe configuration header (R1, R349). The subsystem identities come from the board data (R474). -/
structure CfgHead where
  vendor : Nat := 0x1F7A
  device : Nat
  revision : Nat := 0x00
  classCode : Nat := 0x120000
  subVendor : Nat := 0
  subDevice : Nat := 0
  deriving DecidableEq, Repr, Inhabited

/-- The state of the PCIe functions (chapter 14). -/
structure HostIf where
  /-- configuration headers: the PF's, and the one every VF shows (R349) -/
  pfHead : CfgHead := { device := 0x3200 }
  vfHead : CfgHead := { device := 0x3201 }
  /-- mailboxes: 0 the PF, 1 + n VF n -/
  mbx : Tab Mbx := []
  /-- queue pairs: function × 16 + queue, function 0 the PF, 1 + n VF n -/
  dma : Tab DmaQ := []
  /-- read latches and staging latches of register pairs, by requester and register (R9) -/
  rlatch : Tab Nat := []
  wlatch : Tab Nat := []
  /-- latched words of TMU_NOW1, 2, 3 and TMU_ERRB by requester (R297) -/
  nowLatch : Tab Nat := []
  /-- MSI-X pending bits: function × 64 + vector -/
  pba : Tab Bool := []
  /-- MSI-X Enable and Bus Master Enable and Memory Space Enable, by function -/
  msixEn : Tab Bool := []
  bme : Tab Bool := []
  mse : Tab Bool := []
  vfEnable : Bool := false
  numVfs : Nat := 0
  /-- the PCIe link is up -/
  linkUp : Bool := false
  /-- GLB_DIRECT: partitions whose VF may start its cores itself (R372, R373) -/
  direct : Nat := 0
  deriving DecidableEq, Repr, Inhabited

end Sys2Proof
end

