-- ==== Sys2Proof/Machine/StDieB.lean ====
section
/-! DEFINITION. The state of the Catcher, the priority queues and the hardware locks (chapter 6) and of the partition map
and the fault manager (chapter 13). -/

namespace Sys2Proof

/-- A completion record (R154); FLAGS and the stamp are filled in at the take. -/
structure CatRec where
  value : Nat := 0
  seq : Nat := 0
  source : Nat := 0
  partition : Nat := 0xFF
  kind : Nat := 0
  err : Bool := false
  empty : Bool := false
  held : Bool := false
  code : Nat := 0
  opcode : Nat := 0
  stamp : Nat := 0
  detail : Nat := 0
  take : Nat := 0
  deriving DecidableEq, Repr, Inhabited

/-- The Catcher (R150 to R157). -/
structure Cat where
  /-- the completion FIFO of each source, oldest first, at most 8 -/
  fifo : Tab (List CatRec) := []
  /-- records held back while the FIFO is full, oldest first (R152) -/
  hold : Tab (List CatRec) := []
  holds : Tab Nat := []
  ptr : Nat := 0
  take : Nat := 0
  /-- ring slots, ring × 128 + slot -/
  slot : Tab CatRec := []
  head : Tab Nat := []
  tail : Tab Nat := []
  /-- POST records forwarded to the write-back unit, in TAKE order (R155) -/
  fwd : List CatRec := []
  deriving DecidableEq, Repr, Inhabited

/-- One entry of a priority queue: level and 32 bytes (R160). -/
structure PqEntry where
  level : Nat
  data : List Byte
  deriving DecidableEq, Repr, Inhabited

/-- One priority queue (R158 to R163). -/
structure Pq where
  en : Bool := false
  owner : Nat := 0
  depth : Nat := 0
  hiwater : Nat := 0
  /-- oldest first -/
  ents : List PqEntry := []
  /-- waiters in the order they began waiting: cores 0 to 31, the staging engine 65 -/
  waiters : List Nat := []
  pushPtr : Nat := 0
  popPtr : Nat := 0
  deriving DecidableEq, Repr, Inhabited

/-- One hardware lock (R164 to R168). -/
structure Lck where
  held : Bool := false
  owner : Nat := 0
  broken : Bool := false
  ptr : Nat := 0
  deriving DecidableEq, Repr, Inhabited

/-- One map entry (R322). -/
structure MapEnt where
  valid : Bool := false
  prot : Bool := false
  rqen : Bool := false
  gang : Nat := 0
  rq : Nat := 0
  cores : Nat := 0
  ports : Nat := 0
  queues : Nat := 0
  pstack : Nat := 0
  pbase : Nat := 0
  len : Nat := 0
  mstack : Nat := 0
  mbase : Nat := 0
  efirst : Nat := 0
  ecount : Nat := 0
  amfirst : Nat := 0
  amcount : Nat := 0
  chfirst : Nat := 0
  chcount : Nat := 0
  trquota : List Nat := []
  ensfirst : Nat := 0
  enscount : Nat := 0
  grpfirst : Nat := 0
  grpcount : Nat := 0
  tplfirst : Nat := 0
  tplcount : Nat := 0
  polfirst : Nat := 0
  polcount : Nat := 0
  deriving DecidableEq, Repr, Inhabited

/-- STATE of PTN_STAT (R346). -/
inductive PtnState
  | offline | service | remap | restage | tshared | failed
  deriving DecidableEq, Repr, Inhabited

/-- One partition as the fault manager and the map keep it. -/
structure Ptn where
  ent : MapEnt := {}
  state : PtnState := .offline
  mirrored : Bool := false
  remaps : Nat := 0
  /-- the cores by rank (R354): ascending when the map is built, a re-map puts the target in the lost core's place; 0xFF a lost core -/
  order : List Nat := []
  deriving DecidableEq, Repr, Inhabited

/-- A failed unit: a tensor die, an HBM stack, a model-store stack, a core, or die B with its link (R330). -/
inductive FUnit
  | die (d : Nat) | hbm (n : Nat) | ms (n : Nat) | core (c : Nat) | dieB
  deriving DecidableEq, Repr, Inhabited

/-- A re-map plan (R332, PTN_PLAN). -/
structure Plan where
  valid : Bool := false
  fits : Bool := false
  /-- die: target of each local core; core: its one target; 0x80 + core time-shared, 0xFF none -/
  targets : List Nat := []
  /-- stack: partitions re-staged -/
  restage : Nat := 0
  worst : Nat := 0
  deriving DecidableEq, Repr, Inhabited

/-- One core moved by the re-map in progress. -/
structure Move1 where
  ptn : Nat
  old : Nat
  new : Nat
  tshared : Bool
  /-- LOCK and TEN_SAVEBASE of the rank on its old core (R123) -/
  lock : Bool
  save : Nat
  deriving DecidableEq, Repr, Inhabited

/-- The re-map in progress (R332). -/
structure Remap where
  cause : Nat
  moves : List Move1
  /-- detection time in ns (R330), device time of the detection and of the end of step 3 -/
  det : Nat
  at_ : Nat
  planned : Nat
  deriving DecidableEq, Repr, Inhabited

/-- A time-shared core (R340). -/
structure TShare where
  /-- the partition running in this slice and the one saved -/
  running : Nat
  other : Nat
  /-- the other partition's LOCK, TEN_PC and TEN_SAVEBASE, and whether it was reset while saved -/
  otherLock : Bool
  otherPc : Nat
  otherSave : Nat
  otherReset : Bool
  /-- it stopped with an error in its slice: its ERRCODE and TEN_ERRPC (R110, log 140) -/
  otherErr : Option (Nat × Nat) := none
  deriving DecidableEq, Repr, Inhabited

structure PtnAll where
  ptn : Tab Ptn := []
  /-- dies: 0 in service, 1 failed, 2 thermal trip -/
  dies : Tab Nat := []
  /-- stacks H0 to H7 and S0 to S7: 0 in service, 1 redundancy lost, 2 failed, 3 not trained -/
  hbm : Tab Nat := []
  ms : Tab Nat := []
  /-- die B or the F-to-B link lost -/
  dieBLost : Bool := false
  spares : Nat := 0
  out : Nat := 0
  mode : Nat := 0
  plan : Tab Plan := []
  /-- failed units waiting, oldest first, with cause code, detection time in ns and device time (R338) -/
  todo : List (FUnit × Nat × Nat × Nat) := []
  cur : Option Remap := none
  remaps : Nat := 0
  tshare : Tab (Option TShare) := []
  /-- the report that makes entities stale, partitions waiting (R318) -/
  staleReports : List Nat := []
  /-- free granules by stack, from the map built (R324): stack × 192 + granule -/
  freeGr : List Nat := []
  deriving DecidableEq, Repr, Inhabited

end Sys2Proof
end

