-- ==== Sys2Proof/Machine/StTen.lean ====
section
/-! DEFINITION. The state of the tensor cores (chapters 3 and 4) and of the model memories (chapter 5). -/

namespace Sys2Proof

/-- STATE of TEN_STATUS (R122). -/
inductive CoreSt
  | idle | run | wait | freezing | saved | error | faulted | resuming
  deriving DecidableEq, Repr, Inhabited

/-- What the memory checks of a command's reads met (R91, R126): nothing; a corrected error in the fetched descriptor, or in whatever
a command without one reads; an uncorrectable one there; an uncorrectable error in data, `n` 64-byte lines into it; a corrected error
in data. -/
inductive Ecc
  | none | corrected | uncFetch | uncData (n : Nat) | corData
  deriving DecidableEq, Repr, Inhabited

/-- A corrected error. -/
def Ecc.cor : Ecc → Bool
  | .corrected | .corData => true
  | _ => false

/-- An uncorrectable error. -/
def Ecc.unc : Ecc → Bool
  | .uncFetch | .uncData _ => true
  | _ => false

/-- A walk context: the WALK descriptor that loaded it and its five counters (R92, R102). -/
structure Walk where
  desc : Nat
  i : List Nat
  deriving DecidableEq, Repr, Inhabited

/-- A link context (R103). -/
structure LinkCtx where
  code : Nat
  n : Nat
  c : Nat
  /-- group size G in channels -/
  g : Nat
  cap : Nat
  pbase : Nat
  gbase : Nat
  next : Nat := 0
  count : Nat := 0
  sat : Nat := 0
  escFull : Nat := 0
  nan : Nat := 0
  /-- the zeroing and the header write have been accepted -/
  ready : Bool := false
  /-- SEQ and CATCH of the LINK, for its completion -/
  seq : Nat := 0
  ctch : Bool := false
  pc : Nat := 0
  deriving DecidableEq, Repr, Inhabited

/-- The cells and registers of one array (R65, R67, R69): the active and the shadow 8-bit weight registers as bit planes (byte
2,048 × j + 16 × r + c div 8, bit c mod 8, is bit j of the register at row r, column c), the parameter record of the pending tile, the
row registers, and the two sets of 128 40-bit column registers, which successive vectors use alternately. -/
structure ArrSt where
  active : Tab Byte := []
  shadow : Tab Byte := []
  srec : List Byte := []
  /-- the shadow holds the whole pending tile and its record (R70) -/
  full : Bool := false
  row : List Int := []
  col0 : List Int := []
  col1 : List Int := []
  /-- the set that the last vector used: 1 when true -/
  sel : Bool := false
  deriving DecidableEq, Repr, Inhabited

/-- The held vector of one array (R81): its exponent, row sum and tile, and the parameter record bound to its column registers when
its tile was swapped in (R70). The registers themselves stand in the array. -/
structure HeldVec where
  par : List Byte
  e : Nat
  s : Int
  bs16 : Bool
  tile : Nat
  deriving DecidableEq, Repr, Inhabited

/-- A PASS that has been issued. -/
structure PassRun where
  desc : Nat
  pc : Nat
  /-- effective output and exponent bases (R101) -/
  dst : Int := 0
  expdst : Int := 0
  /-- tiles swapped in so far -/
  tile : Nat := 0
  /-- the first tile has been asked for: the bias stands in the working banks -/
  started : Bool := false
  /-- the re-run of an abandoned pass (R83) -/
  rerun : Bool := false
  /-- the counters of its walk when it started -/
  walk0 : List Nat := []
  /-- working banks of the named arrays, in ascending array number: 128 binary32 patterns each; of a pending PASS, its staged bias
  (R112) -/
  bank : List (List Nat) := []
  held : List HeldVec := []
  /-- array drains repeated (R114) -/
  redrain : Nat := 0
  deriving DecidableEq, Repr, Inhabited

/-- A MOVE that has been issued. -/
structure MoveRun where
  desc : Nat
  pc : Nat
  /-- the engine has taken it up and found nothing that stops it -/
  started : Bool := false
  /-- bytes, or elements when it encodes or decodes, done before it last stopped (R115, R117) -/
  done : Nat := 0
  ecc : Ecc := .none
  deriving DecidableEq, Repr, Inhabited

/-- What a waiting sequencer waits for (R106, R108). -/
inductive CoreWait
  | queue (q : Nat) (since : Nat)
  | lock (l : Nat) (since : Nat)
  deriving DecidableEq, Repr, Inhabited

/-- One tensor core. TEN_PC, TEN_SAVEBASE, TEN_LASTSEQ, TEN_ERRPC, TEN_ARRAYS and the counts stand in the register file. -/
structure Core where
  st : CoreSt := .idle
  errcode : Nat := 0
  /-- TEN_PC has been set since the error (R110) -/
  pcSet : Bool := false
  lock : Bool := false
  /-- the descriptor that has been fetched and not issued, behind its address; TEN_PC stands past it (R96) -/
  cur : Option (Nat × Nat) := none
  ctr : List Nat := [0, 0, 0, 0]
  walks : Tab (Option Walk) := []
  links : Tab (Option LinkCtx) := []
  /-- the arrays A0 to A3 -/
  arr : Tab ArrSt := []
  run : Option PassRun := none
  pend : Option PassRun := none
  /-- passes whose banks have been exchanged and that drain, oldest first -/
  emit : List PassRun := []
  /-- issued MOVEs, oldest first, at most 4 -/
  moves : List MoveRun := []
  waiting : Option CoreWait := none
  /-- locks acquired by LOCK descriptors and not released, at most 16 -/
  held : List Nat := []
  saves : Nat := 0
  /-- one entry for each record of this core that the Catcher holds back: the completion it delays (R152) -/
  defer : List (Bool × Option (Nat × Bool)) := []
  deriving DecidableEq, Repr, Inhabited

/-- What a partition's encryption keys are derived from (R430): the gang's lowest partition, KGEN and LGEN, and the number of the
BOOTNONCE, which the HBM key takes and the model-store key does not. Keys of different contexts are different keys (log 111). -/
structure XtsKey where
  gang : Nat
  kgen : Nat
  lgen : Nat
  boot : Nat
  deriving DecidableEq, Repr, Inhabited

/-- The model memories. A byte of HBM stands as its plain value beside the key it is stored under: granules under `gkey`, and the
64-byte lines of `lkey` under a key of their own. It reads as that value under that key and as no known value under another (R138,
R449, log 111). -/
structure Mem where
  /-- core stores: core × 2^25 + address; an unlisted byte reads 0 (R91) -/
  cs : Tab Byte := []
  /-- HBM: stack × 48 GiB + address; an unlisted byte reads 0 (R129) -/
  hbm : Tab Byte := []
  /-- the key of each partition in die B's encryption units (R431) -/
  ukey : Tab (Option XtsKey) := []
  /-- the key each granule's content is stored under: granule number 192 × stack + granule; none for scrubbed or free space -/
  gkey : Tab (Option XtsKey) := []
  /-- the lines stored under another key than their granule's: address div 64 -/
  lkey : Tab (Option XtsKey) := []
  deriving DecidableEq, Repr, Inhabited

end Sys2Proof
end

