-- ==== Sys2Proof/Machine/StFlow.lean ====
section
/-! DEFINITION. The state of the flow plane (chapters 7 to 10) and of the Huddle (chapter 12). Configuration and counters
stand in the register file. -/

namespace Sys2Proof

/-- Where a packet stands in the flow plane (the stages table of chapter 1). -/
inductive Stage
  /-- delivered, waiting for dispatch -/
  | rx
  /-- in a parser pipe -/
  | taken (pipe : Nat)
  /-- punted and held by a Shortstop core -/
  | punted (core : Nat)
  | parsed | classified | bound | policed
  /-- waits in the score queue of its ensemble -/
  | queued
  /-- granted: to be delivered to the Visor -/
  | granted
  | scored
  /-- its verdict is known; it waits in the reorder stage -/
  | verdict
  /-- released in order; the egress enqueue is still to come -/
  | released
  /-- transmitted, consumed or dropped; the cells go when nothing refers to the frame -/
  | gone
  deriving DecidableEq, Repr, Inhabited

/-- The PAR settings in force at a packet's take (R199): PAR_CTL, PAR_L4PORTS, PAR_PUNTMAP and PAR_PUNTLIM. -/
structure ParSnap where
  ctl : Nat := 0
  l4 : Nat := 0
  map : List Nat := []
  lim : List Nat := []
  deriving DecidableEq, Repr, Inhabited

/-- One packet (R21). -/
structure Pkt where
  /-- source of the dispatcher, 0 to 32 -/
  src : Nat := 0
  port : Nat := 0
  /-- the port by which the frame entered, whose cells it holds (R237) -/
  entry : Nat := 0
  /-- MODE of the port at delivery (R175) -/
  mode : Nat := 0
  /-- data without FCS (R501) -/
  data : List Byte := []
  /-- frame length with FCS -/
  len : Nat := 0
  stamp : TStamp := {}
  /-- buffer cells held -/
  cells : Nat := 0
  /-- PFC priority of R185 -/
  pri : Nat := 0
  msFail : Bool := false
  msUntag : Bool := false
  reinj : Bool := false
  synth : Bool := false
  /-- end-of-frame status: not yet known, or good or bad (R181) -/
  eof : Option Bool := none
  /-- take number (R198) -/
  order : Nat := 0
  seq : Nat := 0
  stage : Stage := .rx
  conf : ParSnap := {}
  /-- the parse result, 32 words (R204) -/
  par : List Nat := []
  /-- punt reason found at step 3, if any -/
  punt3 : Option Nat := none
  ver : Nat := 0
  /-- the packet is counted in its version's in-flight count -/
  inVer : Bool := false
  /-- classification result, 256 bits (R212) -/
  res : Nat := 0
  defaulted : Bool := false
  flow : Option Nat := none
  /-- dn of R233, when computed -/
  dn : Option Nat := none
  entity : Option Nat := none
  marked : Bool := false
  /-- S (two's complement value), K, ensemble number, block E came from the front stage -/
  s : Int := 0
  k : Nat := 0
  fs : Bool := false
  /-- granted copy: record and copy number -/
  grant : Option (Nat × Nat) := none
  /-- counts of LINKSAT and FSSAT of the scoring; the event was granted before a parity error returned it (R272) -/
  lsat : Bool := false
  fssat : Nat := 0
  regrant : Bool := false
  /-- the verdict's action and egress class, once known -/
  act : Nat := 0
  cls : Nat := 0
  tagged : Bool := false
  /-- the number of its last hand-over where order is not take order: its grant (R269), its release by the reorder stage -/
  hand : Nat := 0
  /-- released by the reorder stage -/
  released : Bool := false
  /-- the FCLK in which it became fileable (R304) -/
  fileAt : Option Nat := none
  /-- the Huddle has finished with it (R304) -/
  hudDone : Bool := false
  /-- copies queued or in transmission that refer to the frame -/
  refs : Nat := 0
  deriving DecidableEq, Repr, Inhabited

/-- A frame in an egress queue: a packet's frame or a mirror copy of it, or a frame of its own (a report). -/
structure EgItem where
  pkt : Option Nat
  /-- frame length with FCS and any tag -/
  len : Nat
  cells : Nat
  marked : Bool := false
  /-- the bytes of the frame as it is sent, the FCS apart -/
  data : List Byte := []
  /-- marked for transmit stamping: the tag and, for a one-step frame, its origin or request-receipt stamp (R193, R296) -/
  mark : Option (Nat × Option TStamp) := none
  /-- R245: it met the conditions of cut-through when it was enqueued -/
  cut : Bool := false
  /-- R181: the frame was found bad during its transmission: its FCS is sent inverted -/
  bad : Bool := false
  deriving DecidableEq, Repr, Inhabited

/-- One egress queue (R245 to R249). -/
structure EgQ where
  items : List EgItem := []
  cc : Int := 0
  cp : Int := 0
  d : Nat := 0
  /-- device time of the last refill and of the last advance of AGE -/
  at_ : Nat := 0
  age : Nat := 0
  promo : Option Int := none
  deriving DecidableEq, Repr, Inhabited

/-- One logical port's transmitter and flow control (chapter 7). -/
structure PortSt where
  link : Bool := false
  /-- a change of split, speed or FEC, or a lost link, has the lanes retrain (R174) -/
  training : Bool := false
  /-- generated pause frames that wait for the end of the frame in flight: priority (8 for PAUSE) and quanta (R186) -/
  ctl : List (Nat × Nat) := []
  /-- frame in transmission: queue and item -/
  tx : Option (Nat × EgItem) := none
  /-- DRR pointers of bands G and E, and whether the pointer has just arrived -/
  ptrG : Nat := 0
  ptrE : Nat := 0
  visitedG : Bool := false
  visitedE : Bool := false
  /-- pause timers: priority (8 for PAUSE) to the device time of expiry -/
  timer : Tab Nat := []
  /-- device time since which the timer holds, for R187 -/
  heldSince : Tab Nat := []
  /-- R187 acts on the priority; the device time of the last pause frame ignored -/
  ignoring : Tab Bool := []
  lastPause : Tab Nat := []
  /-- a pause has been sent for the priority (8 for PAUSE) and not ended; device times of the last frame and of the rise -/
  xoff : Tab Bool := []
  xoffAt : Tab Nat := []
  above : Tab Nat := []
  /-- the count of R186 at its last comparison -/
  last : Tab Nat := []
  /-- R188: generation stopped -/
  stopped : Tab Bool := []
  /-- sequence numbers: next at the take, next to release -/
  nextSeq : Nat := 0
  relSeq : Nat := 0
  /-- gaps: sequence numbers released without a packet -/
  gaps : List Nat := []
  ipv4 : List Nat := []
  ipv6 : List Nat := []
  /-- multicast filter -/
  mcast : List Nat := []
  deriving DecidableEq, Repr, Inhabited

/-- A MACsec secure association (R189 to R191, R450): its key is held where no register and no transport reads it. -/
structure MsSa where
  installed : Bool := false
  /-- next packet number: of a transmit association the one the next frame takes, of a receive association one above the highest
  accepted -/
  pn : Nat := 1
  ssci : Nat := 0
  salt : List Byte := []
  sci : List Byte := []
  /-- the SAK, in the clear only inside the security engine and the port -/
  sak : List Byte := []
  deriving DecidableEq, Repr, Inhabited

/-- An entry of a Shortstop core's punt queue (R207). -/
structure PuntEnt where
  header : List Byte
  par : List Nat
  pkt : Option Nat
  /-- the frame of a snoop copy -/
  data : List Byte := []
  deriving DecidableEq, Repr, Inhabited

/-- An entry of the associative memory (R210): 320-bit key and mask, 256-bit result, 64-bit control. -/
structure AmEnt where
  key : Nat := 0
  mask : Nat := 0
  res : Nat := 0
  ctl : Nat := 0
  deriving DecidableEq, Repr, Inhabited

/-- An entry of the chain pool (R215, R216): key words, prefix length, result and control. -/
structure ChEnt where
  key : List Nat := []
  plen : Nat := 0
  res : Nat := 0
  ctl : Nat := 0
  deriving DecidableEq, Repr, Inhabited

/-- One version from BASE on (R219, R223). -/
structure VerSlot where
  v : Nat
  live : Bool := true
  infl : Nat := 0
  deriving DecidableEq, Repr, Inhabited

/-- A flow-table entry (R230). -/
structure FlowEnt where
  digest : Nat := 0
  fprof : Nat := 0
  valid : Bool := false
  static : Bool := false
  entValid : Bool := false
  iaInit : Bool := false
  version : Nat := 0
  entity : Nat := 0
  packets : Nat := 0
  bytes : Nat := 0
  last : Nat := 0
  iaMean : Nat := 0
  iaDev : Nat := 0
  iaMax : Nat := 0
  marked : Nat := 0
  dropped : Nat := 0
  seen : Nat := 0
  deriving DecidableEq, Repr, Inhabited

/-- A policer class (R238); tokens in 2^−24 byte. -/
structure Policer where
  cinc : Nat := 0
  pinc : Nat := 0
  cbs : Nat := 0
  pbs : Nat := 0
  en : Bool := false
  resetFull : Bool := true
  tc : Nat := 0
  tp : Nat := 0
  last : Nat := 0
  green : Nat := 0
  yellow : Nat := 0
  red : Nat := 0
  deriving DecidableEq, Repr, Inhabited

/-- A tree (R263): nodes as 64-bit words, leaves as values. -/
structure Tree where
  oblivious : Bool
  depth : Nat
  cls : Nat
  qpos : Nat
  nodes : List Nat
  leaves : List Int
  deriving DecidableEq, Repr, Inhabited

/-- One copy of an ensemble: the quadrant and first slot of each position, and whether it is out of service (R254, R272). -/
structure EnsCopy where
  quads : List Nat
  first : List Nat
  lost : Bool := false
  /-- slots of it being reloaded -/
  reload : List Nat := []
  deriving DecidableEq, Repr, Inhabited

/-- An ensemble record (R255). Its control word is that of its head slot and of every slot of its trees (R256). -/
structure EnsRec where
  inUse : Bool := false
  ctl : Nat := 0
  ens : Nat := 0
  classes : Nat := 1
  link : Nat := 0
  span : Nat := 1
  lsh : Nat := 0
  osh : Int := 0
  sqlim : Nat := 16
  base : List Int := []
  windows : List (List Nat) := []
  fsprog : List Nat := []
  edges : List Nat := []
  trees : List Tree := []
  copies : List EnsCopy := []
  reloads : Nat := 0
  deriving DecidableEq, Repr, Inhabited

/-- One snapshot of a group (R307 to R313). `rec` is the group record it opened with. -/
structure Snap where
  n : Nat
  recd : List Byte
  /-- its buffer's share offset, or none when skipped -/
  buf : Option Nat := none
  /-- status bytes of filled slots -/
  filled : Tab Nat := []
  dup : Nat := 0
  late : List (List Byte) := []
  lateLost : Bool := false
  stepped : Bool := false
  areaFault : Bool := false
  skipDrop : Nat := 0
  /-- slots already late-listed, once closed -/
  listed : List Nat := []
  deriving DecidableEq, Repr, Inhabited

/-- One group (R298 to R300). -/
structure HudGrp where
  running : Bool := false
  tpl : Nat := 0
  /-- next snapshot number to open, when running -/
  next : Option Nat := none
  opened : List Snap := []
  /-- the records that snapshots opened under, newest first, each with the first snapshot it opened (R300) -/
  recs : List (Nat × List Byte) := []
  /-- closed snapshots within the late window, newest first -/
  closed : List Snap := []
  lastClosed : Nat := 0
  anyClosed : Bool := false
  lastBack : Nat := 0
  /-- held buffers: buffer to snapshot (R312) -/
  held : Tab (Option Nat) := []
  gap : Nat := 0
  lostEv : Nat := 0
  /-- closes whose result deadline scan is still to come (R317) -/
  deadlines : List Nat := []
  /-- results to write back, oldest first -/
  results : List Nat := []
  deriving DecidableEq, Repr, Inhabited

/-- A value in the filing queue: group, snapshot, share offset of value and status byte, bytes, status. -/
structure FileVal where
  grp : Nat
  n : Nat
  ptn : Nat
  off : Nat
  val : List Byte
  soff : Nat
  status : Nat
  deriving DecidableEq, Repr, Inhabited

structure Flow where
  pkts : Tab Pkt := []
  nextPkt : Nat := 1
  ports : Tab PortSt := []
  q : Tab EgQ := []
  /-- rotating pointer of the dispatcher, packets taken, hand-overs of packets in another order -/
  dptr : Nat := 0
  takes : Nat := 0
  hands : Nat := 0
  /-- SYNTH frames that found the system pool full: the count of their producer, the slow path (R237) -/
  synthDrop : Nat := 0
  /-- token buckets of the punt reasons: (tokens × 1,250,000,000, FCLK of the last update); unlisted: full (R206) -/
  punt : Tab (Option (Nat × Nat)) := []
  puntQ : Tab (List PuntEnt) := []
  am : Tab AmEnt := []
  ch : Tab ChEnt := []
  /-- versions from BASE on -/
  vers : List VerSlot := [{ v := 1 }]
  sweeping : Bool := false
  /-- the FCLK of the last accepted commit (R222) -/
  commitAt : Option Nat := none
  flow : Tab FlowEnt := []
  scan : Nat := 0
  /-- entity features: entity × 64 + feature; state words: unlisted read 0x0300, stale with CAUSE 3 (R236) -/
  feat : Tab Nat := []
  est : Tab Nat := []
  pol : Tab Policer := []
  recs : Tab EnsRec := []
  /-- score queues: ensemble to packets -/
  sq : Tab (List Nat) := []
  sqPtr : Nat := 0
  qInSvc : Nat := 0
  scrub : Nat := 0
  /-- drop runs by ensemble: refusals since DROPSTART, the device time of the last refusal and the owner of the record that refused -/
  drops : Tab (Option (Nat × Nat × Nat)) := []
  /-- device time of the last tag verdict, by Visor profile (R480) -/
  tagAt : Tab Nat := []
  ms : Tab MsSa := []
  failsafe : Bool := true
  /-- firmware has released FAILSAFE_N; die F lost in this power-up; pairs that no longer hold the release (R195) -/
  released : Bool := false
  dieFLost : Bool := false
  waived : List Nat := []
  /-- system pool cells in use -/
  sysUsed : Nat := 0
  /-- template store: record bytes, number k of version j at k + 4,096 × j (R298, R301, R221) -/
  tpl : Tab (List Byte) := []
  grp : Tab HudGrp := []
  fileQ : List FileVal := []
  fileDropAt : Option Nat := none
  deriving DecidableEq, Repr, Inhabited

end Sys2Proof
end

