-- ==== Sys2Proof/Machine/StFw.lean ====
section
/-! DEFINITION. The state of the model store and its catalogue (chapter 5), of the object dictionary and its transports
(chapter 15), of firmware (chapter 16), of the security engine (chapter 17) and of power, the Helmet and boot (chapter 18). -/

namespace Sys2Proof

/-- An installed section (R141, R142), its content in plain. -/
structure Sect where
  typ : Nat
  flags : Nat := 0
  id : Nat := 0
  dest : Nat := 0
  data : List Byte := []
  deriving DecidableEq, Repr, Inhabited

/-- A tensor entry (R143). -/
structure TensorEnt where
  code : Nat
  sect : Nat
  off : Nat
  len : Nat
  poff : Nat
  pcount : Nat
  cap : Nat
  g : Nat
  namehash : Nat := 0
  deriving DecidableEq, Repr, Inhabited

/-- A region of a placement (R144). -/
structure Region where
  kind : Nat
  rank : Nat := 0
  lib : Nat := 0
  slotSize : Nat := 0
  off : Nat := 0
  len : Nat := 0
  stgq : Nat := 0
  deriving DecidableEq, Repr, Inhabited

/-- A bundle in the model-store catalogue (R147): its sections, placement and tensors, and the LGEN and KGEN it was installed
under (R432). `old` marks a replaced copy kept while staging requests read it (R136). -/
structure Bundle where
  inst : Nat
  bid : List Byte := []
  name : List Byte := []
  seqno : Nat := 0
  ptn : Nat := 0
  gang : Nat := 0
  lgen : Nat := 0
  kgen : Nat := 0
  old : Bool := false
  /-- a section lies on a model-store stack that failed: to be installed again before R131 can use it (R336) -/
  damaged : Bool := false
  /-- catalogued, but its PARTITION or GANG no longer matches the map: not restored (R472) -/
  idle : Bool := false
  sects : List Sect := []
  regions : List Region := []
  tensors : List TensorEnt := []
  /-- the associative-memory entries of its rule sets -/
  am : List Nat := []
  deriving DecidableEq, Repr, Inhabited

/-- Where an install stands: BUNDLE_STATUS (R363). -/
structure Install where
  ticket : Nat
  total : Nat := 0
  /-- 0 queued, 1 running, 2 done -/
  state : Nat := 0
  outcome : Nat := 0
  hostdma : Bool := false
  step : Nat := 1
  /-- checked and written, waiting for its commit -/
  ready : Option (Bundle × Bool) := none
  deriving DecidableEq, Repr, Inhabited

/-- A staging request in progress (R133, R134), with the status its checks gave and the bytes it writes. -/
structure StgReq where
  ptn : Nat
  expert : Nat
  slot : Nat
  lib : Nat
  reply : Nat
  tag : Nat
  inst : Nat := 0
  status : Nat := 0
  /-- the expert's OFFSET in its library (R145) -/
  libOff : Nat := 0
  dst : Nat := 0
  slotSize : Nat := 0
  readLen : Nat := 0
  data : List Byte := []
  deriving DecidableEq, Repr, Inhabited

/-- A granule range that is being scrubbed, and the extent the map gives a partition when it ends (R129). -/
structure Scrub where
  stack : Nat
  base : Nat
  len : Nat
  /-- the partition the granules pass to, and whether as a mirror -/
  dest : Option (Nat × Bool) := none
  deriving DecidableEq, Repr, Inhabited

/-- The model store and the staging engine. -/
structure Store where
  bundles : List Bundle := []
  nextInst : Nat := 1
  installs : List Install := []
  nextTicket : Nat := 1
  /-- the NAME and SEQNO of each bundle that another has replaced (R139) -/
  seqnos : List (List Byte × Nat) := []
  stg : List StgReq := []
  /-- a popped request that waits for its slot, by partition -/
  stgHeld : Tab (Option StgReq) := []
  scrubs : List Scrub := []
  /-- user bytes written since the stacks were new: what MEM_WEAR follows (R125, log 123) -/
  written : Nat := 0
  deriving DecidableEq, Repr, Inhabited

/-- A partly assembled write of a transport (R394): target, bytes, the total and what has arrived. -/
structure Asm where
  index : Nat
  sub : Nat
  total : Nat := 0
  data : List Byte := []
  /-- byte ranges received (UDP), offset and bytes -/
  parts : List (Nat × List Byte) := []
  last : Bool := false
  /-- segments received (USB, CAN) -/
  seg : Nat := 0
  /-- a block transfer (CAN) -/
  block : Bool := false
  deriving DecidableEq, Repr, Inhabited

/-- A transport session (R394): SELECT values by index, the staged token and its time, the write being assembled, the read
copy with its entry and time, and the responses kept (UDP). -/
structure Sess where
  opened : Bool := false
  /-- device time of the last datagram (UDP) -/
  seen : Nat := 0
  sel : Tab Nat := []
  token : Option (List Byte × Nat) := none
  asm : Option Asm := none
  copy : Option (Nat × List Byte × Nat) := none
  resp : List (Nat × List Byte) := []
  /-- bytes of the copy already uploaded, next toggle, and block size of a block upload (CAN) -/
  pos : Nat := 0
  toggle : Bool := false
  blk : Nat := 0
  /-- USB RESULT: abort code, wValue, subindex, COMMITTED -/
  result : Nat × Nat × Nat × Bool := (0, 0, 0, false)
  deriving DecidableEq, Repr, Inhabited

/-- A client frame, or a block of segments, of a classic SDO download (R398). -/
inductive SdoDn
  | expedited (index sb : Nat) (data : List Byte)
  | initiate (index sb size : Nat)
  | segment (toggle : Bool) (data : List Byte) (last : Bool)
  | blockInitiate (index sb size : Nat)
  | blockData (data : List Byte) (last : Bool)
  | blockEnd (crc : Option Nat)
  | abort
  | unknown (index sb : Nat)
  deriving DecidableEq, Repr, Inhabited

/-- A client frame of a classic SDO upload (R398). -/
inductive SdoUp
  | initiate (index sb : Nat)
  | segment (toggle : Bool)
  | blockInitiate (index sb size : Nat)
  | blockStart
  | blockAck (segments size : Nat)
  | blockEnd
  | abort
  deriving DecidableEq, Repr, Inhabited

/-- A unicast USDO request of a client node (R399). -/
inductive UsdoReq
  | read (index sb : Nat)
  | write (index sb : Nat) (data : List Byte)
  | initiate (index sb size : Nat)
  | segment (data : List Byte) (last : Bool)
  deriving DecidableEq, Repr, Inhabited

/-- A request that waits for the end of a live update's pause (R395), with the outcome a board device (SPI NOR, a regulator) gives. -/
inductive HeldReq
  | dn (r : SdoDn) (ok : Bool)
  | up (r : SdoUp)
  | usdo (node : Nat) (r : UsdoReq) (ok : Bool)
  | udp (src : Nat) (raw : List Byte) (ok : Bool)
  deriving DecidableEq, Repr, Inhabited

/-- NMT states of the CAN node (R397). -/
inductive Nmt
  | off | preOp | operational | stopped
  deriving DecidableEq, Repr, Inhabited

/-- A persistent image in SPI NOR (R475), or an erased or invalid copy. -/
structure NorCopy where
  valid : Bool := false
  seq : Nat := 0
  vals : Tab (List Byte) := []
  /-- the copy as SPI NOR holds it: header, records and MAC (R475) -/
  img : List Byte := []
  deriving DecidableEq, Repr, Inhabited

/-- The object dictionary and its transports. -/
structure Dict where
  /-- values that differ from their defaults, by `dkey` -/
  vals : Tab (List Byte) := []
  /-- committed persistent values not yet stored, in commit order (R385) -/
  unstored : List Nat := []
  /-- values committed and not yet programmed into hardware (R380) -/
  apply : List Nat := []
  sess : Tab Sess := []
  norA : NorCopy := {}
  norB : NorCopy := {}
  /-- ranges marked by 0x1011 (R384) -/
  restore : List Nat := []
  loadedSeq : Nat := 0
  defaults : Bool := false
  sagApplied : Bool := false
  sagOvf : Bool := false
  lastStore : Nat := 0
  nmt : Nmt := .off
  canPassive : Bool := false
  canBusOff : Bool := false
  /-- UDP datagrams and CAN requests held during a live update's pause (R395), oldest first -/
  held : List HeldReq := []
  /-- CAN bit rate and FD data rate in effect since the last NMT reset (R380, R397) -/
  canRate : Nat := 0
  canFd : Nat := 0
  /-- device time until which the management port's transmitter is paused (R196) -/
  mgmtPause : Nat := 0
  /-- frames and datagrams that wait for the end of that pause, oldest first -/
  mgmtQ : List Out := []
  deriving DecidableEq, Repr, Inhabited

/-- A firmware image (R410) as the ROM keeps it in a slot. -/
structure FwImage where
  bytes : List Byte := []
  svn : Nat := 0
  mbxMajor : Nat := 0
  mbxMinor : Nat := 0
  pfFeat : Nat := 0
  vfFeat : Nat := 0
  version : List Byte := []
  /-- RECMAX: the highest state-record format the image exports -/
  recMax : Nat := 0
  signer : Nat := 0
  deriving DecidableEq, Repr, Inhabited

/-- A region of a core's memory-protection unit (R407): a component's code, execute-only, or its data, read-write to itself alone, in the
image slot; a message queue, writable by its sender and readable by its receiver; a component's records in the retained area, writable by
component 0 and by the component. -/
inductive ProtKind
  | code (comp base len : Nat)
  | data (comp base len : Nat)
  | queue (sender receiver : Nat)
  | retained (comp : Nat)
  deriving DecidableEq, Repr, Inhabited

/-- One region: the core (0 the supervisor, 1 to 4 RT0 to RT3, 5 every Shortstop core, as R410 codes them) and what it covers. -/
structure ProtRegion where
  core : Nat
  kind : ProtKind
  deriving DecidableEq, Repr, Inhabited

/-- A row of the permission table (R408): component `comp` may write `n` runs of `len` bytes, `step` bytes apart, from PF BAR0 offset
`base`; a VF's own copies count under the PF's offset. -/
structure PermRow where
  comp : Nat
  base : Nat
  len : Nat
  n : Nat := 1
  step : Nat := 0x10000000
  deriving DecidableEq, Repr, Inhabited

/-- Does the row name the register? -/
def PermRow.covers (r : PermRow) (key : Nat) : Bool :=
  let o := key % 0x10000000
  decide (r.base ≤ o) && decide ((o - r.base) / r.step < r.n) && decide ((o - r.base) % r.step < r.len)

/-- What the supervisor programs when it starts an image (R407, R408, R411). -/
structure Prot where
  regions : List ProtRegion := []
  table : List PermRow := []
  deriving DecidableEq, Repr, Inhabited

/-- What a state record carries (R416), by its TYPE 1 to 11. -/
inductive RecBody
  | dictionary (vals : Tab (List Byte)) (unstored : List Nat) (sel : Tab (Tab Nat))
  | sessions (sess : Tab Sess) (held : List HeldReq)
  | power (bucket quiet : Nat) (rails : List Nat) (asked : Tab Nat)
  | thermal (hbmCeil msCeil : Nat)
  | servo (s : Servo)
  | flowShadow (next : Nat)
  | installs (queue : List Install) (nextTicket : Nat) (catalogue : List Nat)
  | partitions (ents : List MapEnt) (plans : Tab Plan) (tshare : Tab (Option TShare))
  | telemetry (seq : Nat) (drops : List (Tab Nat))
  | slowPath (reinjected : Nat)
  | builder
  deriving DecidableEq, Repr, Inhabited

/-- TYPE of a record (R416). -/
def RecBody.typ : RecBody → Nat
  | .dictionary _ _ _ => 1 | .sessions _ _ => 2 | .power _ _ _ _ => 3 | .thermal _ _ => 4 | .servo _ => 5 | .flowShadow _ => 6
  | .installs _ _ _ => 7 | .partitions _ _ _ => 8 | .telemetry _ _ => 9 | .slowPath _ => 10 | .builder => 11

/-- Is a record of this TYPE critical (R416)? -/
def recCritical (typ : Nat) : Bool := [1, 2, 3, 4, 6, 7, 8].contains typ

/-- A state record in the retained area (R416): what it carries, its format, and its payload as bytes, whose layout the spec does not give. -/
structure StateRec where
  body : RecBody
  format : Nat
  payload : List Byte
  /-- the CRC-32C its header holds -/
  crc : Nat
  deriving DecidableEq, Repr, Inhabited

/-- Phases of a live update (R414). -/
inductive Phase
  | none | prepare | quiesce | switch
  deriving DecidableEq, Repr, Inhabited

/-- Firmware. -/
structure Fw where
  /-- the image that runs -/
  image : Option FwImage := none
  /-- the other slot: the verified image of an update, or after the switch the old image -/
  other : Option FwImage := none
  phase : Phase := .none
  /-- TYPE of a non-critical record that the new image discarded (R417) -/
  discarded : Option Nat := none
  updates : Nat := 0
  /-- device time at which the pause began -/
  pauseAt : Nat := 0
  mgmtResets : Nat := 0
  /-- a component has been restarted three times in 60 s: a management reset is due (R425) -/
  mgmtDue : Bool := false
  /-- device times of each component's restarts in the last 60 s -/
  restarts : Tab (List Nat) := []
  /-- the state records of the retained area, by rising TYPE (R416, R426) -/
  retained : List StateRec := []
  /-- the protection regions and the permission table as the supervisor programmed them (R407, R408) -/
  prot : Prot := {}
  deriving DecidableEq, Repr, Inhabited

/-- One SPDM session (R435): its handshake is done, and its transcript. -/
structure SpdmSess where
  id : Nat
  done : Bool := false
  /-- transcript hash of the last signed response in the session -/
  signed : List Byte := []
  deriving DecidableEq, Repr, Inhabited

/-- The security engine. -/
structure Sec where
  /-- the lifecycle fuses LCF (R438) -/
  lcf : Nat := 0
  udsGone : Bool := false
  floor : Nat := 0
  /-- revocation bits of the four firmware-signer slots (R443); the hashes are fuses, `Config.signerHash` -/
  revoked : Nat := 0
  kgen : Tab Nat := []
  /-- BOOTNONCEs drawn: one at each PORST_N and warm reset (R430) -/
  boots : Nat := 0
  tokenCtr : Nat := 0
  debug : Bool := false
  /-- random values drawn so far -/
  draws : Nat := 0
  measCnt : Tab Nat := []
  /-- the SPDM connection: 0 none, 1 version, 2 capabilities, 3 algorithms negotiated -/
  conn : Nat := 0
  /-- the messages of the connection since GET_VERSION, and the transcript hash of its last signed response -/
  trans : List Byte := []
  signed : List Byte := []
  sess : List SpdmSess := []
  /-- the challenge the TAP presents (R442) -/
  challenge : List Byte := []
  deriving DecidableEq, Repr, Inhabited

/-- The save image of the Helmet's MRAM (R465): header and the parts written. -/
structure SaveImg where
  valid : Bool := false
  cause : Nat := 0
  consumed : Bool := false
  skips : Nat := 0
  seq : Nat := 0
  /-- parts 1 to 6 that were begun, in order, and the one whose CRC fails -/
  parts : List Nat := []
  bad : Option Nat := none
  /-- parts 1 to 3 as bytes, 4 and 5 as log slots, 6 as values in commit order -/
  time : List Byte := []
  map : List Byte := []
  flow : List Byte := []
  fatal : List (Nat × ErlEntry) := []
  general : List (Nat × ErlEntry) := []
  dict : List (Nat × List Byte) := []
  ovf : Bool := false
  /-- the IV of an encrypted value of part 6 (R475) -/
  iv : List Byte := []
  deriving DecidableEq, Repr, Inhabited

/-- What a boot finds outside the device: the strap pins in the bit places of PWR_STRAP, the first 256 bytes of SPI NOR, whether the NOR
part answers (R473), a 10 MHz reference (R283), stacks that fail to train (masks), and the spare lanes and network planes of R19. -/
structure BootIn where
  straps : Nat := 0
  board : List Byte := []
  nor : Bool := true
  refIn : Bool := false
  hbmBad : Nat := 0
  msBad : Nat := 0
  spareLanes : Nat := 0
  planes : Nat := 0
  deriving DecidableEq, Repr, Inhabited

/-- Power, the Helmet and boot. -/
structure Pwr where
  /-- VHOLD has risen through 10.8 V -/
  vhold : Bool := false
  /-- PORST_N is high -/
  porst : Bool := false
  /-- a rising edge of PORST_N waits for VHOLD (R491), or for the end of a save (R467) -/
  porstPend : Option BootIn := none
  /-- a save is running, and its cause; SKIPS of the image it writes -/
  saving : Option Nat := none
  skips : Nat := 0
  /-- frozen by a trigger of cause 1 to 4 (R464, R467) -/
  frozen : Bool := false
  save : SaveImg := {}
  saveSeq : Nat := 0
  /-- sag-archive slots in SPI NOR, newest first, at most 4 -/
  archive : List SaveImg := []
  /-- die F's copy of the error log in MRAM, newest first, at most 1,920 entries (R337) -/
  fLog : List ErlEntry := []
  /-- the board data as read from SPI NOR at boot, and the failed check of R476 (0: valid) -/
  board : List Byte := []
  boardErr : Nat := 0
  /-- the SPI NOR part answers (R473) -/
  nor : Bool := true
  /-- PERST_N is low -/
  perst : Bool := false
  /-- the burst bucket in 0.1 µJ (R458) -/
  bucket : Nat := 0
  /-- power-loop periods since the last reduction, sticking at 10,000 (1 s) -/
  quiet : Nat := 10000
  /-- the loop-loss fallback is armed (R423) -/
  armed : Bool := false
  /-- temperatures of 0x6000, 0.1 °C, and parts under hardware throttle: dies 0 to 3, HBM 4 to 11, MS 12 to 19, B 20, F 21 -/
  temps : List Int := []
  hot : List Nat := []
  hbmCeil : Nat := 16
  msCeil : Nat := 16
  /-- rails whose calibration is held (R421) -/
  railHeld : List Nat := []
  /-- setpoints blocked outside their window (R422) -/
  blocked : Nat := 0
  /-- k requested of a tensor die's clock generator and not yet applied -/
  tclkReq : Tab Nat := []
  /-- package-network planes lost, spare lanes in use (R19) -/
  planes : Nat := 0
  spareLanes : Nat := 0
  deriving DecidableEq, Repr, Inhabited

end Sys2Proof
end

