-- ==== Sys2Proof/Machine/Types.lean ====
section
/-! DEFINITION. The operands of commands that are not plain numbers: what a command carries from outside the device (R-numbers
at each). -/

namespace Sys2Proof

/-- A versioned object that firmware stages for its next commit (R222): a new object, which gets VMIN = N, or the mark that
makes an object disappear, VMAX = CLS_VCUR; `undo` clears the staged object again. -/
inductive VObj
  | am (i : Nat) (e : AmEnt)
  | ch (unit : Nat) (e : ChEnt)
  | tpl (n : Nat) (bytes : List (BitVec 8))
  | endAm (i : Nat)
  | endCh (unit : Nat)
  | endTpl (n : Nat)
  | endEns (r : Nat)
  /-- a fabric image of firmware's own, owner code 32 (R255) -/
  | ens (image : List (BitVec 8))
  | undoAm (i : Nat)
  | undoCh (unit : Nat)
  | undoTpl (n : Nat)
  | undoEns (r : Nat)
  deriving DecidableEq, Repr, Inhabited

/-- A named field of a flow entry (R230) and the value firmware gives it (R232). -/
inductive FlowSet
  | digest (v : Nat) | fprof (v : Nat) | valid (b : Bool) | static (b : Bool) | entValid (b : Bool) | iaInit (b : Bool) | version (v : Nat)
  | entity (v : Nat) | packets (v : Nat) | bytes (v : Nat) | last (v : Nat) | iaMean (v : Nat) | iaDev (v : Nat) | iaMax (v : Nat)
  | marked (v : Nat) | dropped (v : Nat) | seen (v : Nat)
  deriving DecidableEq, Repr, Inhabited

/-- The fields that a firmware write of a flow entry names (R232), each with its value. -/
def flowSets (static entValid : Option Bool) (entity : Option Nat) (valid : Option Bool) (more : List FlowSet) : List FlowSet :=
  (static.map FlowSet.static).toList ++ (entValid.map FlowSet.entValid).toList ++ (entity.map FlowSet.entity).toList ++
    (valid.map FlowSet.valid).toList ++ more

/-- A frame as its bytes and the zero bytes that pad it (IEEE 802.3 pads short frames). -/
def padded (data : List (BitVec 8)) (pad : Nat) : List (BitVec 8) := data ++ List.replicate pad 0

/-- What a Shortstop core reinjects (R208): the frame of the k-th entry of its punt queue, or a frame it built with its stamp. -/
inductive Reinj
  | orig (k : Nat)
  | synth (data : List (BitVec 8)) (stamp : TStamp)
  deriving DecidableEq, Repr, Inhabited

/-- The time of an IRIG-B frame (R288): its format B00x, the day of the year from 1, the second of the day, and the two-digit year of the
BCD field or of the extension. -/
structure IrigDate where
  fmt : Nat := 4
  day : Nat := 1
  sec : Nat := 0
  year : Nat := 0
  deriving DecidableEq, Repr, Inhabited

/-- An IRIG-B frame as the unit decodes it (R288): its time, the local-time offset in minutes, whether position identifiers and parity are
in place, the time quality, and an announced leap second. -/
structure IrigIn extends IrigDate where
  offMin : Int := 0
  ok : Bool := true
  q : Nat := 0
  leap : Int := 0
  deriving DecidableEq, Repr, Inhabited

/-- A write of configuration space (R350, R356, R370). -/
inductive CfgWrite
  | vfEnable (on : Bool)
  | numVfs (n : Nat)
  | mse (fn : Option Nat) (on : Bool)
  | bme (fn : Option Nat) (on : Bool)
  | msixEn (fn : Option Nat) (on : Bool)
  deriving DecidableEq, Repr, Inhabited

/-- The transport and session of a dictionary access (chapter 15): a mailbox, the classic SDO channel, a CAN FD client node, a UDP
source, or the USB control pipe. -/
inductive Via
  | mbx (fn : Option Nat) | sdo | usdo (node : Nat) | udp (src : Nat) | usb
  deriving DecidableEq, Repr, Inhabited

/-- What the self-tests of a start find: the arrays that fail (core, array), and the quadrants that fail, a mask. -/
structure SelfTest where
  arrays : List (Nat × Nat) := []
  quads : Nat := 0
  deriving DecidableEq, Repr, Inhabited

/-- A defect of R19: a lane of a die-to-die link, replaced by a spare, or a plane of the package network. -/
inductive NetDefect
  | lane
  | plane (p : Fin 2)
  deriving DecidableEq, Repr, Inhabited

end Sys2Proof
end

