-- ==== Sys2Proof/Syntax.lean ====
section
/-! DEFINITION. The commands of the EC3200: one constructor for each row of spec/opcode_table.json, in its order. Each carries what
its event brings from outside the device: who makes an access and with what, what a frame or a message holds, what a sensor or a board
device answers. Indexes the device numbers are `Fin`; the ranges of the other operands are in Sys2Proof/WellFormed.lean. An operand with a
default may be left out of a command. -/

namespace Sys2Proof

inductive Instr
  /-- REGISTER_WRITE, R4: A host write to a register with no behaviour of its own; each field the function may change takes its part and
  RO and RSV fields ignore theirs. -/
  | registerWrite (who : Req) (off : Nat) (len : Nat) (data : BitVec 64)
  /-- PAIR_LOW_READ, R9: A read of the low word of a 64-bit pair latches the high word in the requester's own read latch. -/
  | pairLowRead (who : Req) (off : Nat) (len : Nat)
  /-- PAIR_LOW_WRITE, R9: A write of the low word of a pair is held in the requester's staging latch, replacing any staged value. -/
  | pairLowWrite (who : Req) (off : Nat) (data : Word)
  /-- PAIR_HIGH_WRITE, R9: A write of the high word of a pair makes it take effect together with the staged low word. -/
  | pairHighWrite (who : Req) (off : Nat) (data : Word)
  /-- READ_TIMEOUT, R356: A host read not completed 10 µs after reaching die F completes as Completer Abort and counts in GLB_TIMEOUT. -/
  | readTimeout (fn : Option Nat) (isWrite : Bool)
  /-- FRAME_RECEIVE, R180: A frame starts arriving at a port and is delivered to step 1 with its timestamp unless the MAC keeps it back. -/
  | frameReceive (n : Fin 32) (data : List Byte) (pad : Nat)
  /-- FRAME_END, R181: A frame's end-of-frame status becomes known; a bad FCS frame is consumed, and a cut-through copy is stomped. -/
  | frameEnd (n : Fin 32) (good : Bool)
  /-- PAUSE, R184: An accepted PAUSE frame loads the port's pause timer, replacing its value. -/
  | pause (n : Fin 32) (quanta : Nat) (good : Bool) (forUs : Bool)
  /-- PFC, R184: An accepted PFC frame loads the pause timer of each enabled priority. -/
  | pfc (n : Fin 32) (enable : Nat) (quanta : List Nat) (good : Bool) (forUs : Bool)
  /-- PAUSE_TIMER_EXPIRY, R184: A pause timer expires and transmission of the port or priority resumes within 20 ns. -/
  | pauseTimerExpiry (n : Fin 32) (i : Fin 9)
  /-- PAUSE_REPEAT, R186: Half of QUANTA elapses while the count stays above PRT_XON and the pause frame is sent again. -/
  | pauseRepeat (n : Fin 32) (i : Fin 9)
  /-- STORM_RX_EXPIRY, R187: A pause has held a port or priority for STORMT ms; further pause frames are ignored and transmission resumes
  with an alarm. -/
  | stormRxExpiry (n : Fin 32) (i : Fin 9)
  /-- STORM_RX_QUIET_EXPIRY, R187: No pause frame has arrived for STORMT ms and the port honours pause frames again. -/
  | stormRxQuietExpiry (n : Fin 32) (i : Fin 9)
  /-- STORM_TX_EXPIRY, R188: A count has stayed above PRT_XON for STORMT ms; the port stops generating pauses and sends one with quanta 0. -/
  | stormTxExpiry (n : Fin 32) (i : Fin 9)
  /-- LINK_CHANGE, R173: A port's link comes up or goes down after training, negotiation or retraining. -/
  | linkChange (n : Fin 32) (up : Bool) (lf : Bool) (rf : Bool)
  /-- DIE_F_LOSS, R194: The Helmet detects loss of die F and asserts FAILSAFE_N within 4 µs, putting lanes into the FSMODE state. -/
  | dieFLoss
  /-- FAILSAFE_RELEASE, R195: Firmware releases FAILSAFE_N once the flow plane is in service, modes are applied and every inline pair has
  link. -/
  | failsafeRelease
  /-- PAIR_WAIT_EXPIRY, R195: An inline pair's link has not come up within the pair wait, so it no longer holds the release and is logged. -/
  | pairWaitExpiry (n : Fin 32)
  /-- DISPATCH_TAKE, R198: Each FCLK the dispatcher takes up to four eligible packets from its rotating pointer and assigns pipes and
  sequence numbers. -/
  | dispatchTake
  /-- PARSE_RESULT, R199: A parser pipe delivers a packet's 128-byte parse result 40 FCLK after its take. -/
  | parseResult (pipe : Fin 4)
  /-- CLASSIFY, R218: The packet takes the current version and is matched in the associative memory, the chain tables or the port default. -/
  | classify
  /-- REINJECT, R208: A Shortstop core reinjects an original or synthesised packet through dispatcher source 32. -/
  | reinject (core : Fin 8) (port : Fin 32) (k : Reinj)
  /-- PUNT_RELEASE, R207: A Shortstop core releases a punted frame from the packet buffer. -/
  | puntRelease (core : Fin 8) (k : Nat := 0)
  /-- TEMPLATE_BUILD, R303: A Shortstop core builds a stream template from a configuration frame or snoop and commits it. -/
  | templateBuild (core : Fin 8) (n : Fin 4096) (recd : List Byte)
  /-- VERSION_COMMIT, R222: A firmware write of CLS_VCOMMIT makes the next version current or is refused with its outcome. -/
  | versionCommit (who : Req) (v : Nat) (objs : List VObj)
  /-- VERSION_RETIRE, R223: A non-current version whose in-flight count is 0 and whose elders have retired retires on the next FCLK. -/
  | versionRetire
  /-- SWEEP, R224: A retirement starts a sweep that clears expired objects and zeroes VMIN of the swept version. -/
  | sweep
  /-- SWEEP_END, R224: A sweep finishes and BASE advances to the successor of the swept version. -/
  | sweepEnd
  /-- BIND, R231: At step 6 a packet looks up, learns or evicts its flow entry and updates its counts and inter-arrival statistics. -/
  | bind
  /-- AGING_SCAN, R232: Every 4 FCLK the aging scanner visits one flow entry and removes it when its idle age reaches IDLE. -/
  | agingScan
  /-- FLOW_ENTRY_FW_WRITE, R232: Firmware writes named fields of a flow entry, applied after any packet update in the same FCLK. -/
  | flowEntryFwWrite (i : Fin 1048576) (static : Option Bool) (entValid : Option Bool) (entity : Option Nat) (valid : Option Bool)
    (more : List FlowSet := [])
  /-- ENTITY_RANGE_ASSIGN, R236: Firmware assigns or reassigns an entity range, zeroing its rows and marking them stale with CAUSE 4. -/
  | entityRangeAssign (p : Fin 32) (first : Nat) (n : Nat)
  /-- FLW_FIDX_WRITE, R250: A write of FLW_FIDX copies a flow entry into FLW_FDATA within 8 FCLK. -/
  | flwFidxWrite (who : Req) (i : Fin 1048576)
  /-- FLW_EIDX_WRITE, R250: A write of FLW_EIDX copies an entity's state word within 8 FCLK. -/
  | flwEidxWrite (who : Req) (e : Fin 262144)
  /-- POLICE, R238: At step 7 a policed packet refills and spends its class's buckets and is coloured green, yellow or red. -/
  | police
  /-- POLICER_CLASS_WRITE, R239: Firmware rewrites a policer class, setting its tokens full or empty by RESETFULL. -/
  | policerClassWrite (c : Fin 16384) (cinc : Nat) (pinc : Nat) (cbs : Nat) (pbs : Nat) (en : Bool) (resetFull : Bool)
  /-- GNT_PIDX_COPY, R251: A write of GNT_PIDX with OP 1 copies a class's record, refilled tokens and counts into GNT_PDATA and GNT_PCNT. -/
  | gntPidxCopy (who : Req) (c : Fin 16384) (op : Bool)
  /-- SCORE_ADMIT, R268: At the end of step 7 a packet is admitted to its ensemble's score queue, refused, or scored without a record. -/
  | scoreAdmit
  /-- DROPEND, R277: 1 ms passes without a refusal after DROPSTART and a DROPEND event is posted. -/
  | dropEnd (e : Fin 64)
  /-- SCORE_GRANT, R269: Each FCLK the arbiter grants free quadrants to queued events from its rotating ensemble pointer. -/
  | scoreGrant
  /-- SCORE_DELIVER, R270: A granted event reaches the Visor 48 FCLK later with its score, class and ensemble. -/
  | scoreDeliver (err : Option (Fin 8192 × Bool) := none)
  /-- SLOT_RELOAD_DONE, R272: A slot reload completes after 64 FCLK and its copy returns to service. -/
  | slotReloadDone (slot : Fin 8192)
  /-- FABRIC_SCRUB, R272: Every 16 FCLK the scrubber reads one tree slot and checks its parity. -/
  | fabricScrub (err : Ecc)
  /-- VISOR_VERDICT, R240: The Visor turns the score or BASEACT into one action and egress class. -/
  | visorVerdict
  /-- TAGGED_QUIET_EXPIRY, R480: 1,000 ms pass without a tag verdict of a profile and its TAGGED alarm clears. -/
  | taggedQuietExpiry (k : Fin 64)
  /-- REORDER_RELEASE, R225: The reorder stage releases a port's packets in sequence order once their verdicts are known. -/
  | reorderRelease (n : Fin 32)
  /-- EGRESS_ENQUEUE, R245: A packet enters its egress queue if it fits QMAX and, when marked, YMAX, or is dropped. -/
  | egressEnqueue
  /-- SCHEDULE_DECISION, R248: An idle port, or one whose frame in flight ends, picks the next queue by promotion, strict priority and
  DRR. -/
  | scheduleDecision (n : Fin 32)
  /-- FRAME_RELEASE, R237: A frame's transmission ends, or it is dropped or consumed, and its cells are freed. -/
  | frameRelease (n : Option (Fin 32))
  /-- QUEUE_STARVED, R249: A queue's AGE exceeds STARVE_LIMIT and it becomes starved. -/
  | queueStarved (n : Fin 32) (q : Fin 8)
  /-- QUEUE_RECORD_WRITE, R247: Firmware rewrites a queue's shaper or scheduler record, resetting its credits and deficit. -/
  | queueRecordWrite (n : Fin 32) (q : Fin 8) (w : List Nat)
  /-- REF_LOSS, R283: Loss of REF10M_IN is detected within 2 µs and TUCLK changes to XTAL25. -/
  | refLoss
  /-- REF_RETURN, R283: REF10M_IN has stayed in range for 10 s and TUCLK changes back to it. -/
  | refReturn
  /-- PTP_MEASUREMENT, R285: A firmware write of TMU_MEAS_HI submits a PTP offset that qualifies, moves the state, slews or schedules a
  step. -/
  | ptpMeasurement (who : Req) (off : Nat) (epoch : Nat) (extra : Nat) (cls : Nat)
  /-- PPS_IN_EDGE, R287: A rising edge on PPS_IN is measured as a phase offset or rejected. -/
  | ppsInEdge (t : Nat)
  /-- IRIG_FRAME, R288: An IRIG-B frame is decoded and measured at the next on-time point. -/
  | irigFrame (t : Nat) (date : IrigDate) (offMin : Int) (ok : Bool) (q : Nat) (leap : Int)
  /-- SOURCE_LOSS, R285: A source meets its loss condition, loses qualification and the selection changes. -/
  | sourceLoss (src : Fin 4)
  /-- TIME_SET, R289: Firmware sets the time from dictionary entry 0x2021 as a single measurement with SOURCE 4. -/
  | timeSet (q : Nat) (bound : Nat)
  /-- STEP_LAND, R294: A scheduled step lands on a second boundary: the counter jumps by Δ, EPOCH increments and the pulse is omitted. -/
  | stepLand
  /-- ERROR_BOUND_UPDATE, R282: Each millisecond the error bound is recomputed and HOLDOVER passes to FREERUN above TMU_FRLIMIT. -/
  | errorBoundUpdate
  /-- PPS_OUT_PULSE, R295: PPS_OUT rises at a second boundary of reported time, offset by TMU_PPSOADJ. -/
  | ppsOutPulse
  /-- PPS_OUT_END, R295: PPS_OUT falls after WIDTH milliseconds. -/
  | ppsOutEnd
  /-- LEAP_SECOND, R279: TMU_UTCOFF changes at the end of the last UTC second of a day that a pending leap second names. -/
  | leapSecond
  /-- TMU_NOW_READ, R297: A read of TMU_NOW0 latches a same-TUCLK snapshot of time, quality, EPOCH and error bound. -/
  | tmuNowRead (who : Req)
  /-- SNAPSHOT_OPEN, R309: Reported time reaches O_n and a group opens snapshot n, filling its buffer or skipping it if the buffer is
  held. -/
  | snapshotOpen (g : Fin 64)
  /-- SNAPSHOT_CLOSE, R309: Reported time reaches D_n; after its writes are accepted the header is written and the event pushed. -/
  | snapshotClose (g : Fin 64)
  /-- HUDDLE_TAKE, R304: The Huddle takes up to four fileable packets per FCLK and files their values by tag and snapshot state. -/
  | huddleTake
  /-- FILING_WRITE, R304: The filing queue writes values to the snapshot buffer in HBM at up to 2 per FCLK. -/
  | filingWrite
  /-- RESULT_POST, R315: A forwarded SIGNAL post with OP RESULT, RELEASE or both is taken by the write-back unit or ignored. -/
  | resultPost
  /-- RESULT_WRITEBACK, R316: A result transfer is decoded and written into entity rows four per FCLK, making them warm. -/
  | resultWriteback (g : Fin 64) (ecc : Ecc)
  /-- RESULT_DEADLINE, R317: At the close of snapshot n + RESLAG, entities without a result for n turn stale with CAUSE 1. -/
  | resultDeadline (g : Fin 64)
  /-- PARTITION_STALE, R318: On firmware's report of a lost or re-mapped partition, its groups' warm entities turn stale with CAUSE 2. -/
  | partitionStale (p : Fin 32)
  /-- CATCHER_RECORD, R150: A source places a completion record into its FIFO, holding it while the FIFO is full. -/
  | catcherRecord (r : CatRec)
  /-- CATCHER_TAKE, R151: Each NCLK the Catcher takes one head record by its drain pointer, writes it to a ring and forwards POST records. -/
  | catcherTake
  /-- CAT_RTAIL_WRITE, R156: A write of CAT_RTAIL advances a ring's tail, or is ignored if it would pass the head. -/
  | catRtailWrite (who : Req) (p : Fin 33) (v : Word)
  /-- PQ_CFG_WRITE, R158: Firmware writes PQ_CFG, emptying the queue and clearing its events and overrun count. -/
  | pqCfgWrite (n : Fin 64) (en : Bool) (owner : Nat) (depth : Nat) (hiwater : Nat)
  /-- PQ_PUSHCTL, R170: A write of PQ_PUSHCTL pushes the requester's staged entry at its level, or overruns a full queue. -/
  | pqPushctl (who : Req) (n : Fin 64) (level : Nat)
  /-- PQ_POPCTL, R170: A read of PQ_POPCTL pops the oldest highest-level entry behind existing waiters, or returns EMPTY. -/
  | pqPopctl (who : Req) (n : Fin 64)
  /-- PQ_WAITER_POP, R162: An entry lands in a queue with waiters and the oldest waiter pops it in the next NCLK. -/
  | pqWaiterPop (n : Fin 64)
  /-- LCK_ACQ_READ, R165: A read of LCK_ACQ acquires the lock for the reading domain if it is free. -/
  | lckAcqRead (who : Req) (n : Fin 256)
  /-- LCK_ACQ_WRITE, R166: A write of LCK_ACQ by the owning domain releases the lock; any other write is ignored and counted. -/
  | lckAcqWrite (who : Req) (n : Fin 256)
  /-- LCK_FORCE, R171: A firmware write of LCK_FORCE releases the named lock by force. -/
  | lckForce (who : Req) (n : Fin 256)
  /-- PASS, R100: The sequencer issues a PASS that runs one pass on its named arrays. -/
  | pass (c : Fin 32) (ecc : Ecc)
  /-- WALK, R102: The sequencer loads a walk context and clears its counters. -/
  | walk (c : Fin 32) (ecc : Ecc)
  /-- LINK, R103: The sequencer opens a link context and starts zeroing its transfer and writing its header. -/
  | link (c : Fin 32) (ecc : Ecc)
  /-- MOVE, R104: The move engine copies, encodes or decodes data between core stores and the HBM share. -/
  | move (c : Fin 32) (ecc : Ecc)
  /-- WAITQ, R106: The sequencer pops one entry from a priority queue, waiting if it is empty. -/
  | waitq (c : Fin 32) (ecc : Ecc)
  /-- SIGNAL, R107: After every earlier descriptor completes, the sequencer pushes to a queue and posts a Catcher record. -/
  | signal (c : Fin 32) (ecc : Ecc)
  /-- LOCK, R108: The sequencer acquires or releases a hardware lock under its partition's owner code. -/
  | lock (c : Fin 32) (ecc : Ecc)
  /-- JUMP, R109: The sequencer loops back by TARGET until the loop counter reaches COUNT. -/
  | jump (c : Fin 32) (ecc : Ecc)
  /-- NOP, R109: A descriptor with no effect, a fence with BARRIER set. -/
  | nop (c : Fin 32) (ecc : Ecc)
  /-- END, R109: After every earlier descriptor completes, the sequencer stops with STATE IDLE and sets END. -/
  | endProgram (c : Fin 32) (ecc : Ecc)
  /-- SWAP, R70: On a vector boundary once the pending tile is complete, the whole new tile becomes active in one TCLK edge. -/
  | swap (c : Fin 32) (ecc : Ecc := .none)
  /-- FRONT, R73: In Toizor ripple mode a weight change sweeps across columns one per TCLK. -/
  | front (c : Fin 32) (ecc : Ecc := .none)
  /-- BANK_EXCHANGE, R68: After the last accumulator update of a pass the working and emitting banks exchange and the drain begins. -/
  | bankExchange (c : Fin 32)
  /-- PASS_COMMIT, R111: The last drain write of a pass is accepted; the pass completes and its record, SEQ and counts follow. -/
  | passCommit (c : Fin 32)
  /-- EMIT_DRAIN_ERROR, R114: An emit-path error repeats the array's drain; a second error faults the core. -/
  | emitDrainError (c : Fin 32) (arr : Fin 4)
  /-- MOVE_COMPLETE, R97: A MOVE's last write is accepted at its destination and the MOVE completes. -/
  | moveComplete (c : Fin 32)
  /-- LINK_COMPLETE, R103: A LINK's zeroing and header write are accepted and waiting descriptors naming the context proceed. -/
  | linkComplete (c : Fin 32) (k : Fin 4)
  /-- WAITQ_TIMEOUT, R106: A WAITQ reaches its timeout and writes only the status with TIMEOUT set. -/
  | waitqTimeout (c : Fin 32)
  /-- LOCK_RETRY, R108: Every 64 NCLK an ungranted LOCK acquire reads the lock again. -/
  | lockRetry (c : Fin 32)
  /-- LOCK_TIMEOUT, R108: A LOCK acquire's last permitted read is not granted and it ends with TIMEOUT. -/
  | lockTimeout (c : Fin 32)
  /-- ARRAY_FAULT, R83: A residue, parity or ECC error (`ecc`: one of core store) abandons the array's pass for a re-run, or faults the core in a re-run. -/
  | arrayFault (c : Fin 32) (arr : Fin 4) (col : Fin 128) (ecc : Bool := false)
  /-- TCLK_STEP, R85: A tensor die's clock generator applies a throttle step of k within 100 ns of the request. -/
  | tclkStep (k : Fin 4)
  /-- TEN_CTRL_RUN, R122: A write of TEN_CTRL.RUN starts the tile program at TEN_PC from IDLE or ERROR. -/
  | tenCtrlRun (who : Req) (c : Fin 32)
  /-- TEN_CTRL_PREEMPT, R115: A write of TEN_CTRL.PREEMPT requests pre-emption of the core. -/
  | tenCtrlPreempt (who : Req) (c : Fin 32)
  /-- PREEMPT_SAVED, R115: The arrays freeze, drains commit and the save record is written, and the core reaches SAVED. -/
  | preemptSaved (c : Fin 32)
  /-- TEN_CTRL_RESUME, R119: A write of TEN_CTRL.RESUME restores the save record onto the core and continues. -/
  | tenCtrlResume (who : Req) (c : Fin 32)
  /-- TEN_CTRL_RESET, R120: A write of TEN_CTRL.RESET abandons the core's work, clears contexts and releases its held locks. -/
  | tenCtrlReset (who : Req) (c : Fin 32)
  /-- TEN_CTRL_LOCK, R123: A write of TEN_CTRL.LOCK makes TEN_PC and TEN_SAVEBASE read-only to the host. -/
  | tenCtrlLock (who : Req) (c : Fin 32)
  /-- STAGING_POP, R132: The staging engine pops a request from a partition's staging queue and starts copying an expert. -/
  | stagingPop (p : Fin 32)
  /-- STAGING_REPLY, R133: A staging request finishes and its reply is pushed and its Catcher record posted. -/
  | stagingReply (i : Nat) (err : Ecc) (lost : Bool)
  /-- GRANULE_SCRUB_DONE, R129: A granule's scrub ends and the map part that gives it to a partition takes effect. -/
  | granuleScrubDone
  /-- BUNDLE_INSTALL_RUN, R147: Firmware starts the next queued bundle install and runs its check, decrypt and write steps. -/
  | bundleInstallRun (data : Option (List Byte))
  /-- BUNDLE_COMMIT, R147: An install commits: its flow-plane objects enter service under one version and libraries switch. -/
  | bundleCommit
  /-- DIE_HEARTBEAT_LOST, R330: A tensor die misses two heartbeat toggles and is detected as lost. -/
  | dieHeartbeatLost (k : Fin 4) (det : Nat)
  /-- LINK_RETRAIN_FAIL, R330: A Td-to-B or F-to-B link retrain has not completed after 2.0 µs. -/
  | linkRetrainFail (k : Option (Fin 4)) (det : Nat)
  /-- THERMAL_TRIP, R330: A tensor die's junction reaches 110 °C and the die fails, its rails removed. -/
  | thermalTrip (k : Fin 4) (det : Nat)
  /-- HBM_ERROR_BURST, R330: The eighth uncorrectable line error on a stack within 1 ms fails the stack. -/
  | hbmErrorBurst (n : Fin 8) (det : Nat)
  /-- HBM_STACK_FAIL, R330: An HBM stack stops responding or its retraining fails. -/
  | hbmStackFail (n : Fin 8) (det : Nat)
  /-- MODEL_STORE_STACK_FAIL, R330: A model-store stack stops responding for 100 µs. -/
  | modelStoreStackFail (n : Fin 8)
  /-- CORE_OUT_OF_SERVICE, R330: A second array fault, drain error or ECC burst takes a core out of service. -/
  | coreOutOfService (c : Fin 32) (det : Nat)
  /-- REMAP_START, R332: The fault manager fences a failed unit, applies its plan and begins loading targets. -/
  | remapStart
  /-- REMAP_RESTART, R332: After the image load or re-stage, TEN_PC is set, RUN written, the restart notice pushed and REMAPDONE posted. -/
  | remapRestart
  /-- TIME_SHARE_SWITCH, R340: A time-share quantum expires and the core swaps partitions by pre-empt, store swap and resume. -/
  | timeShareSwitch (c : Fin 32)
  /-- ERROR_LOG_TAKE, R344: The error log takes the oldest queued report, coalescing it or placing it in a slot. -/
  | errorLogTake
  /-- ERL_CTL_CLEAR, R345: A write of ERL_CTL.CLEAR frees entries of the named classes and re-arms the summary alarm. -/
  | erlCtlClear (who : Req) (mask : Fin 16)
  /-- ERL_IDX_WRITE, R347: A write of ERL_IDX copies a log slot into ERL_DATA within 8 NCLK. -/
  | erlIdxWrite (who : Req) (k : Fin 4096)
  /-- MBX_RING, R359: A write of MBX_DB.RING submits the request page and sets PENDING. -/
  | mbxRing (fn : Option Nat)
  /-- MBX_RACK, R359: A write of MBX_DB.RACK acknowledges the response and clears RESP. -/
  | mbxRack (fn : Option Nat)
  /-- MBX_TAKE, R359: Firmware takes a pending mailbox request and sets TAKEN. -/
  | mbxTake (fn : Option Nat)
  /-- MESSAGE_SEGMENT, R360: A non-final segment with MORE set is assembled and answered with OK. -/
  | messageSegment (fn : Option Nat)
  /-- HELLO, R361: The mailbox negotiates protocol minor and features. -/
  | hello (fn : Option Nat)
  /-- FW_LOAD, R411: The ROM copies, checks and measures a firmware image and starts it. -/
  | fwLoad (data : Option (List Byte))
  /-- FW_UPDATE, R413: The running image copies and verifies a new image for a live update. -/
  | fwUpdate (data : Option (List Byte))
  /-- DICT_READ, R396: A mailbox dictionary read returns up to 4,072 bytes of an entry from an offset. -/
  | dictRead (fn : Option Nat)
  /-- DICT_WRITE, R396: A mailbox dictionary write with its token commits when its last segment is taken. -/
  | dictWrite (fn : Option Nat) (ok : Bool)
  /-- BUNDLE_INSTALL, R364: A bundle install request is queued and answered with a ticket. -/
  | bundleInstall
  /-- BUNDLE_STATUS, R363: Reports the state, outcome and step of an install ticket. -/
  | bundleStatus
  /-- BUNDLE_FREE, R363: Frees an installed bundle by name. -/
  | bundleFree
  /-- PTN_RESET, R329: A mailbox request resets a partition and is answered when the reset completes. -/
  | ptnReset (fn : Option Nat)
  /-- CORE_CTRL_SET_PC, R363: CORE_CTRL operation 0 sets TEN_PC of the core of a rank. -/
  | coreCtrlSetPc (n : Fin 32)
  /-- CORE_CTRL_SET_SAVEBASE, R363: CORE_CTRL operation 1 sets TEN_SAVEBASE of the core of a rank. -/
  | coreCtrlSetSavebase (n : Fin 32)
  /-- CORE_CTRL_RUN, R363: CORE_CTRL operation 2 starts the tile program of the core of a rank. -/
  | coreCtrlRun (n : Fin 32)
  /-- CORE_CTRL_PREEMPT, R363: CORE_CTRL operation 3 requests pre-emption of the core of a rank. -/
  | coreCtrlPreempt (n : Fin 32)
  /-- CORE_CTRL_RESUME, R363: CORE_CTRL operation 4 resumes the core of a rank from its save slot. -/
  | coreCtrlResume (n : Fin 32)
  /-- CORE_CTRL_RESET, R363: CORE_CTRL operation 5 applies a per-core reset to the core of a rank. -/
  | coreCtrlReset (n : Fin 32)
  /-- DIRECT_GRANT, R372: The PF grants or revokes direct mode per partition. -/
  | directGrant
  /-- DMAQ_CREATE, R363: Creates a DMA queue pair with its rings. -/
  | dmaqCreate (fn : Option Nat)
  /-- DMAQ_DESTROY, R369: Destroys a DMA queue pair after its running descriptor, abandoning the rest. -/
  | dmaqDestroy (fn : Option Nat)
  /-- SQ_DOORBELL, R369: A write of GLB_SQTAIL submits descriptors, or is ignored if too many. -/
  | sqDoorbell (fn : Option Nat) (q : Nat) (tail : Nat)
  /-- CQ_HEAD_WRITE, R369: A write of GLB_CQHEAD frees completion entries, or is ignored if it passes the last written. -/
  | cqHeadWrite (fn : Option Nat) (q : Nat) (head : Nat)
  /-- DMA_WRITE, R366: A WRITE descriptor copies host data into the partition's share after its checks. -/
  | dmaWrite (n : Fin 32) (q : Fin 4) (desc : List Byte) (data : List Byte) (hostErr : Option Nat) (shareErr : Option Nat)
  /-- DMA_RECV, R367: A RECV descriptor gives the device a host buffer for telemetry. -/
  | dmaRecv (q : Fin 16) (desc : List Byte)
  /-- DMA_COMPLETE, R368: A descriptor finishes, pushes its entry and writes its completion. -/
  | dmaComplete (fn : Option Nat) (q : Nat)
  /-- MSIX_DELIVER, R370: A masked vector with pending raises becomes deliverable and sends one message. -/
  | msixDeliver (fn : Option Nat) (v : Nat)
  /-- PCIE_HOT_RESET, R371: A hot reset or link down resets every function's host-side state and revokes direct grants. -/
  | pcieHotReset
  /-- PF_FLR, R371: A PF function-level reset resets the host-side state of the PF and every VF. -/
  | pfFlr
  /-- VF_FLR, R371: A VF function-level reset resets its host-side state and its partition. -/
  | vfFlr (n : Fin 32)
  /-- PERST, R469: A low PERST_N resets the PCIe endpoint and counts as a link down. -/
  | perst
  /-- SETTING_APPLY, R380: Firmware programs the hardware with a committed value within 10 ms. -/
  | settingApply
  /-- STORE, R382: A write of "save" to 0x1010 stores the persistent image into the older SPI NOR copy. -/
  | storeSettings (via : Via) (sb : Fin 4) (tok : Option (List Byte)) (ok : Bool)
  /-- RESTORE_DEFAULTS, R384: A write of "load" to 0x1011 marks a range to take defaults at the next reset. -/
  | restoreDefaults (via : Via) (sb : Fin 4) (tok : Option (List Byte))
  /-- TOKEN_STAGE, R388: A write to 0x5020 stages an authorisation token for the session's next write. -/
  | tokenStage (via : Via) (raw : List Byte)
  /-- TOKEN_EXPIRY, R388: A staged token expires 10 s after staging. -/
  | tokenExpiry (via : Via)
  /-- SDO_DOWNLOAD, R398: A CAN SDO download commits at its final frame and is confirmed or aborted. -/
  | sdoDownload (f : SdoDn) (ok : Bool)
  /-- SDO_UPLOAD, R398: A CAN SDO upload returns an entry's value. -/
  | sdoUpload (f : SdoUp)
  /-- SDO_TIMEOUT, R398: A gap between frames of a transfer exceeds the segment timeout and aborts it. -/
  | sdoTimeout (node : Option Nat)
  /-- USDO_TRANSFER, R399: A CAN FD USDO unicast transfer is served under the SDO commit rules. -/
  | usdoTransfer (node : Nat) (r : UsdoReq) (ok : Bool)
  /-- NMT_START, R397: NMT start changes the node to operational. -/
  | nmtStart
  /-- NMT_STOP, R397: NMT stop ends SDO, USDO and EMCY service. -/
  | nmtStop
  /-- NMT_ENTER_PRE_OPERATIONAL, R397: NMT enter-pre-operational changes the node state. -/
  | nmtEnterPreOperational
  /-- NMT_RESET_COMMUNICATION, R397: Reinitialises the CAN controller, discards CAN sessions and sends boot-up. -/
  | nmtResetCommunication
  /-- NMT_RESET_NODE, R397: Reinitialises the CAN controller, discards CAN sessions and sends boot-up. -/
  | nmtResetNode
  /-- HEARTBEAT, R397: The producer heartbeat period expires and a heartbeat is sent. -/
  | heartbeat
  /-- UDP_READ, R401: A UDP READ datagram returns bytes of an entry from a copy. -/
  | udpRead (src : Nat) (raw : List Byte)
  /-- UDP_WRITE, R401: A UDP WRITE datagram is assembled and the write commits when complete. -/
  | udpWrite (src : Nat) (raw : List Byte) (ok : Bool)
  /-- UDP_SESSION_TIMEOUT, R401: An idle UDP session is discarded without answer. -/
  | udpSessionTimeout (src : Nat)
  /-- USB_READ, R403: A USB vendor READ returns a segment of an entry's value. -/
  | usbRead (index : Nat) (sb : Nat) (seg : Nat) (len : Nat)
  /-- USB_WRITE, R403: A USB vendor WRITE carries one non-final 4,096-byte segment. -/
  | usbWrite (index : Nat) (sb : Nat) (seg : Nat) (data : List Byte)
  /-- USB_WRITE_LAST, R404: A USB WRITE_LAST completes the assembly, which commits at the status-stage ACK. -/
  | usbWriteLast (index : Nat) (sb : Nat) (seg : Nat) (data : List Byte) (ack : Bool) (ok : Bool)
  /-- USB_RESULT, R403: A USB RESULT request returns the abort code and commit flag of the last transfer. -/
  | usbResult
  /-- USB_BUS_RESET, R404: A USB bus reset, suspend or detach discards partial writes, the staged token and the read copy. -/
  | usbBusReset
  /-- PROVISION, R439: Lifecycle PROVISION burns PROV. -/
  | provision (via : Via) (tok : Option (List Byte))
  /-- DEPLOY, R440: Lifecycle DEPLOY burns a DEPLOY bit, rekeys every gang and scrubs every share. -/
  | deploy (via : Via) (tok : Option (List Byte))
  /-- RETURN, R440: Lifecycle RETURN burns a RETURN bit, rekeys every gang and scrubs every share. -/
  | returnDevice (via : Via) (tok : Option (List Byte))
  /-- DECOMMISSION, R440: Lifecycle DECOMMISSION scrubs everything, burns DECOM and the UDS, and holds the device in ROM. -/
  | decommission (via : Via) (tok : Option (List Byte))
  /-- COMMIT_SVN, R439: Raises the SVN floor to the running SVN. -/
  | commitSvn (via : Via) (tok : Option (List Byte))
  /-- REKEY, R432: Rekeys a gang: resets members, increments KGEN, frees bundles, scrubs and loads new keys. -/
  | rekey (via : Via) (g : Fin 32) (tok : Option (List Byte))
  /-- REVOKE, R439: Revokes a firmware-signer slot. -/
  | revoke (via : Via) (k : Fin 4) (tok : Option (List Byte))
  /-- MACSEC_KEY_ROW, R450: A write of a MACsec key row installs, replaces or deletes an association. -/
  | macsecKeyRow (via : Via) (row : List Byte) (tok : Option (List Byte))
  /-- PNWARN_HANDLE, R451: On PNWARN firmware selects the next transmit association or raises an alarm. -/
  | pnwarnHandle (n : Fin 32)
  /-- START_SEQUENCE, R412: The started image loads the dictionary, runs self-tests, scrubs HBM, builds the map and sets FWREADY. -/
  | startSequence (t : SelfTest)
  /-- PARTITION_RESTAGE, R472: After FWREADY firmware re-stages each partition's sections and sets it in service. -/
  | partitionRestage
  /-- LIVE_UPDATE_QUIESCE, R414: With no install running the pause begins, transports hold requests and components finish. -/
  | liveUpdateQuiesce
  /-- LIVE_UPDATE_SWITCH, R414: After export the supervisor starts the new image and components import their records. -/
  | liveUpdateSwitch (discard : Option Nat)
  /-- LIVE_UPDATE_RESUME, R414: Readiness checks pass, HELD clears and held requests are served. -/
  | liveUpdateResume
  /-- UPDATE_ABANDON, R418: A critical record fails or a component misses readiness and the old image is restarted. -/
  | updateAbandon (typ : Nat)
  /-- POWER_LOOP_PERIOD, R419: Every 100 µs the power loop estimates power, updates the burst bucket and steps TCLK or memory limits. -/
  | powerLoopPeriod (parts : List Nat) (rails : List (Nat × Option (Nat × Nat)))
  /-- THERMAL_LOOP_PERIOD, R420: Every 10 ms the thermal loop lowers or raises ceilings on k and memory limits. -/
  | thermalLoopPeriod (temps : List Int)
  /-- HW_THROTTLE, R422: A die or stack at 100 °C is throttled by hardware until below 98 °C. -/
  | hwThrottle (part : Fin 22) (hot : Bool)
  /-- HW_SHUTDOWN, R422: A die or stack reaching 110 °C is shut down as its fault. -/
  | hwShutdown (part : Fin 22) (det : Nat)
  /-- LOOP_LOSS_FALLBACK, R423: No power-loop update for 10 ms applies k = 8 and limits of 8. -/
  | loopLossFallback
  /-- WATCHDOG_EXPIRY, R424: A component misses its watchdog and is restarted in its domain. -/
  | watchdogExpiry (c : Fin 12)
  /-- PROTECTION_FAULT, R409: A write outside a component's regions stops and restarts the component. -/
  | protectionFault (c : Fin 12) (addr : Nat)
  /-- MANAGEMENT_RESET, R425: A third restart in 60 s or a supervisor watchdog expiry resets the thirteen cores and restarts the image. -/
  | managementReset
  /-- RETAINED_RECORD_WRITE, R426: At least every 100 ms each component writes its state records to the retained area. -/
  | retainedRecordWrite
  /-- GET_VERSION, R435: SPDM GET_VERSION request. -/
  | getVersion (req : List Byte)
  /-- GET_CAPABILITIES, R435: SPDM GET_CAPABILITIES request. -/
  | getCapabilities (req : List Byte)
  /-- NEGOTIATE_ALGORITHMS, R435: SPDM algorithm negotiation, refusing unsupported choices. -/
  | negotiateAlgorithms (req : List Byte)
  /-- GET_DIGESTS, R435: SPDM GET_DIGESTS request for the certificate slots. -/
  | getDigests (sid : Option Nat) (req : List Byte)
  /-- GET_CERTIFICATE, R435: SPDM GET_CERTIFICATE returns the slot 0 chain. -/
  | getCertificate (sid : Option Nat) (req : List Byte)
  /-- CHALLENGE, R435: SPDM CHALLENGE signed with the Alias key. -/
  | challenge (sid : Option Nat) (req : List Byte)
  /-- GET_MEASUREMENTS, R436: SPDM GET_MEASUREMENTS reports measurement indices 1 to 37. -/
  | getMeasurements (sid : Option Nat) (req : List Byte)
  /-- KEY_EXCHANGE, R435: SPDM KEY_EXCHANGE opens a session, refused beyond four. -/
  | keyExchange (sid : Option Nat) (req : List Byte)
  /-- FINISH, R435: SPDM FINISH completes a session handshake. -/
  | finish (sid : Option Nat) (req : List Byte)
  /-- HEARTBEAT_SPDM, R435: SPDM HEARTBEAT within a session. -/
  | heartbeatSpdm (sid : Option Nat) (req : List Byte)
  /-- END_SESSION, R435: SPDM END_SESSION closes a session. -/
  | endSession (sid : Option Nat) (req : List Byte)
  /-- VENDOR_DEFINED_REQUEST, R435: Returns the Alias ML-DSA-87 signature over the last signed transcript. -/
  | vendorDefinedRequest (sid : Option Nat) (req : List Byte)
  /-- DEBUG_UNLOCK, R442: A signed reply to the TAP challenge opens debug access. -/
  | debugUnlock (reply : List Byte)
  /-- SEC_MEASSEL_WRITE, R453: A write of SEC_MEASSEL copies a measurement into SEC_MEASDATA. -/
  | secMeasselWrite (who : Req) (ix : Fin 64)
  /-- SEC_PKSEL_WRITE, R453: A write of SEC_PKSEL copies a gang's public keys into SEC_PKDATA. -/
  | secPkselWrite (who : Req) (p : Fin 32)
  /-- PORST_RISE, R471: PORST_N rises: straps latch, fuses load, links and stacks train and the ROM serves the mailbox. -/
  | porstRise (b : BootIn)
  /-- SAG_TRIGGER, R464: VMAIN, a group PGOOD, XTAL25 loss or PORST_N fall freezes the device and starts the save. -/
  | sagTrigger (cause : Fin 5)
  /-- SAVE_DONE, R465: The save controller finishes writing the save image into MRAM. -/
  | saveDone (cut : Option Nat)
  /-- SAG_RESTART, R467: After 100 ms of good supplies the Helmet restarts the device as a PORST_N pulse. -/
  | sagRestart (b : BootIn)
  /-- PWR_WARM, R470: A write of "WARM" to PWR_WARM runs the save and a warm reset. -/
  | pwrWarm (v : Word)
  /-- JTAG_WARM_RESET, R470: A JTAG warm-reset request with debug open runs the save and a warm reset. -/
  | jtagWarmReset
  /-- PGOOD_T_FALL, R456: A fall of PGOOD_Td stops the die's heartbeat and is handled as a die fault. -/
  | pgoodTFall (k : Fin 4) (det : Nat)
  /-- TELEMETRY_RECORD, R485: A record is offered to each up path and enters its queue, removing lower-ranked records when full. -/
  | telemetryRecord
  /-- ALARM_CHANGE, R480: An alarm identity changes state and its slot is updated in place. -/
  | alarmChange (code : Nat) (inst : Nat) (set : Bool) (detail : Nat)
  /-- ALARM_SEND, R484: A changed alarm slot is sent on every up path ahead of other records, as EMCY on CAN. -/
  | alarmSend
  /-- RECV_BUFFER_COMPLETE, R483: A telemetry RECV buffer completes when full, after 10 ms, or on an alarm. -/
  | recvBufferComplete (q : Fin 16)
  /-- SUMMARY_PERIOD, R486: Each summary period every path sends its summary record. -/
  | summaryPeriod
  /-- PATH_UP, R486: A telemetry path comes up and sends a summary and every standing alarm. -/
  | pathUp (p : Fin 4)
  /-- PACKAGE_NETWORK_DEFECT, R19: A die-to-die lane or a package-network plane on die B fails; a spare lane or the other plane takes
  over, a corrected entry is logged and 0x6010 reports the lost redundancy. -/
  | packageNetworkDefect (x : NetDefect)
  /-- PATH_DOWN, R482: A telemetry path stops being up (last RECV descriptor used or BME cleared, management link down, CAN stopped or
  bus-off, USB suspended) and from then on is offered nothing and holds nothing. -/
  | pathDown (p : Fin 4)
  /-- CAN_ERROR_STATE_CHANGE, R390: The CAN controller enters or leaves error-passive or bus-off, changing bit 4 of 0x1001 and the CAN
  telemetry path. -/
  | canErrorStateChange (passive : Bool) (busOff : Bool)
  /-- MGMT_PORT_FRAME, R196: A frame arrives on the management port and the management complex answers ARP or ND, honours a PAUSE, or
  passes PTP to the servo. -/
  | mgmtPortFrame (fr : List Byte)
  /-- SLOW_PATH_TRANSMIT, R177: Firmware on the management complex sends a frame out of a network port: an ARP or ND reply for an endpoint
  address, or a PTP Delay_Req, Pdelay_Req or Pdelay_Resp marked for transmit stamping. -/
  | slowPathTransmit (n : Fin 32) (q : Fin 8) (fr : List Byte) (mark : Option (Nat × Option TStamp))
  /-- MIRROR_REBUILD, R128: Firmware finishes building a new mirror extent for a protected partition that lost one, so that the partition
  runs protected again. -/
  | mirrorRebuild (p : Fin 32)
  /-- RESTAGE_DONE, R336: The re-stage of an unprotected partition onto a new extent after an HBM stack failure ends, its RESTAGE state
  ends and a RESTAGED notice is posted. -/
  | restageDone (p : Fin 32)
  /-- CONFIG_SPACE_WRITE, R350: The host writes PCIe configuration space, setting VF Enable, NumVFs, Memory Space Enable, Bus Master
  Enable or MSI-X Enable, so that VFs appear or vanish and delivery changes. -/
  | configSpaceWrite (c : CfgWrite)
  /-- DOE_DISCOVERY, R351: A DOE Discovery request arrives in the PF DOE mailbox and is answered with the supported data object types. -/
  | doeDiscovery (index : Nat)
  /-- TAP_RESET, R497: The JTAG TAP is reset by TRST_N or five TCK cycles with TMS high, resetting the debug port and releasing every lock
  of owner code 63 with BROKEN. -/
  | tapReset
  /-- PCIE_LINK_TRAINED, R348: The PCIe link completes training or retraining at a rate and width, updating GLB_LINK and setting
  GLB_EVENT.LINKCHG. -/
  | pcieLinkTrained (rate : Nat) (width : Nat) (flit : Bool)
  /-- VHOLD_RISE, R491: VHOLD rises through 6.0 V and then 10.8 V, powering the Helmet with FAILSAFE_N low and DARK, and letting a pending
  rising edge of PORST_N latch the straps at the later of the two. -/
  | vholdRise (b : BootIn)
  deriving DecidableEq, Repr

end Sys2Proof
end

