-- ==== Sys2Proof/Decode.lean ====
section
/-! DEFINITION. The command a word spells by the opcode table. The table gives no row any bits (every `fields` list is empty), so no
word spells a command: commands come as themselves, in the queue. -/

namespace Sys2Proof

/-- The command that a word spells: none, for the table gives no bits to any row. -/
def decodeTableWord (_nbits _w : Nat) : Option Instr := none

end Sys2Proof
end

