-- ==== Sys2Proof/Config.lean ====
section
/-! DEFINITION. What an implementation fixes and the spec leaves open. Every constant here has no body: nothing can
evaluate it and no proof can know a value of it. The assumption log names each. -/

namespace Sys2Proof

/-- A value the spec leaves undefined after a command that goes on. The argument is the model's own counter `Dev.free`,
advanced at each use, so that two uses are unrelated (log 2). -/
opaque Config.freeValue : Nat → Nat

/-- A free bit (log 2). -/
opaque Config.freeBit : Nat → Bool

/-- The frequency term the servo takes after a good measurement, in units of 2^−16 ppb before the limit of ±200 ppm: R292
gives its bounds and not its law (log 14). -/
opaque Config.servoFreq : Nat → Int

/-- The phase, in 2^−16 of a quarter nanosecond, that a slew removes in one TUCLK, before the limit of 10 ppm (R292 gives
the bound and not the rate, log 14). -/
opaque Config.slewStep : Nat → Nat

/-- The device bitmap and the firmware's own choices, the hash functions and signature schemes the spec takes from other
standards: SHA-384 of a byte string. -/
opaque Config.sha384 : List (BitVec 8) → List (BitVec 8)

/-- HMAC-SHA-384 of a message under a key. -/
opaque Config.hmac384 : List (BitVec 8) → List (BitVec 8) → List (BitVec 8)

/-- The unique device secret, 48 bytes in fuses (R429). -/
opaque Config.uds : List (BitVec 8)

/-- The BOOTNONCE of the n-th start (R430). -/
opaque Config.bootNonce : Nat → List (BitVec 8)

/-- ML-KEM-1024 of FIPS 203: the encapsulation key of a seed, and the decapsulation of a ciphertext. -/
opaque Config.mlkemPublic : List (BitVec 8) → List (BitVec 8)
opaque Config.mlkemDecaps : List (BitVec 8) → List (BitVec 8) → List (BitVec 8)

/-- P-384: the uncompressed public key of a scalar, whether a point lies on the curve, the x-coordinate of ECDH, and an ECDSA signature. -/
opaque Config.p384Public : Nat → List (BitVec 8)
opaque Config.p384OnCurve : List (BitVec 8) → Bool
opaque Config.p384Ecdh : Nat → List (BitVec 8) → List (BitVec 8)
opaque Config.ecdsaSign : Nat → List (BitVec 8) → List (BitVec 8)

/-- ML-DSA-87 of FIPS 204: the public key of a seed, and a signature. -/
opaque Config.mldsaPublic : List (BitVec 8) → List (BitVec 8)
opaque Config.mldsaSign : List (BitVec 8) → List (BitVec 8) → List (BitVec 8)

/-- AES key unwrap of RFC 3394 under a key; none where the integrity check fails (R447, R450). -/
opaque Config.aesUnwrap : List (BitVec 8) → List (BitVec 8) → Option (List (BitVec 8))

/-- AES-256-GCM opening: key, IV, additional data, ciphertext, tag; none where the tag fails (R141). -/
opaque Config.gcmOpen : List (BitVec 8) → List (BitVec 8) → List (BitVec 8) → List (BitVec 8) → List (BitVec 8) → Option (List (BitVec 8))

/-- AES-256-GCM sealing: key, IV, additional data, plaintext; ciphertext and 16-byte tag (R189). -/
opaque Config.gcmSeal : List (BitVec 8) → List (BitVec 8) → List (BitVec 8) → List (BitVec 8) → List (BitVec 8)

/-- The replay window of a port, 0 to 2^32 − 1 frames: R190 gives its range and no register or entry that sets it (log 127). -/
opaque Config.replayWindow : Nat → Nat

/-- The DER certificates of the DeviceID key, root first, and Synermund's signature over its ML-DSA-87 key, both in fuses (R433). -/
opaque Config.deviceChain : List (BitVec 8)
opaque Config.synermundMldsa : List (BitVec 8)

/-- The Alias certificate that the DeviceID scalar issues for an Alias public key with measurements 2 and 3 in an extension (R433). -/
opaque Config.aliasCert : Nat → List (BitVec 8) → List (BitVec 8) → List (BitVec 8)

/-- The transcript hash that a signed SPDM response or a session secret covers, as DSP0274 forms it: which one, and the messages of the
connection (log 61). -/
opaque Config.spdmHash : Nat → List (BitVec 8) → List (BitVec 8)

/-- The verify data or the secret of an SPDM session is right: the session, the messages so far and the data received (log 61). -/
opaque Config.spdmFinish : Nat → List (BitVec 8) → List (BitVec 8) → Bool

/-- Does a signature verify under a key over a message? -/
opaque Config.verify : List (BitVec 8) → List (BitVec 8) → List (BitVec 8) → Bool

/-- Random numbers drawn by the security engine, by the model's draw counter. -/
opaque Config.random : Nat → List (BitVec 8)

/-- The part's serial number, fused at manufacture. -/
opaque Config.serial : Nat

/-- The fused ceiling of TCLK of a tensor die, MHz. -/
opaque Config.fuseTclk : Nat → Nat

/-- The voltage of a tensor die's rail at a set frequency, mV: its fused voltage-frequency table (R419). -/
opaque Config.fuseVolt : Nat → Nat → Nat

/-- The fused voltage window of a rail, mV: lowest and highest (R422). -/
opaque Config.voltWindow : Nat → Nat × Nat

/-- SHA-384 of the supervisor ROM (R436, measurement 1). -/
opaque Config.romDigest : List (BitVec 8)

/-- The fused hash of a firmware-signer slot (R443). -/
opaque Config.signerHash : Nat → List (BitVec 8)

/-- The fused array repair map of 0x4080 (R78). -/
opaque Config.arrayRepair : Nat → Nat

/-- What a byte of HBM or model store reads as under another key than the one it is stored under (R449): of the plain byte, its
place in the data unit and the tweak, the key it is stored under and the key it is read under (log 111). -/
opaque Config.xtsOther : List Nat → List (BitVec 8) → List (BitVec 8) → BitVec 8

/-- A byte of a library's extent that no section of its bundle writes: by install number, library and offset (log 122). -/
opaque Config.storeGap : Nat → Nat → Nat → BitVec 8

/-- The receive and transmit path latency of a port at a speed, in 0.25 ns (PRT_RXLAT, PRT_TXLAT; R192). -/
opaque Config.pathLatency : Bool → Nat → Nat → Nat

/-- The payload of a state record as the running image lays it out, by the model's draw counter and TYPE (R416 gives its header only, log
144). -/
opaque Config.recPayload : Nat → Nat → List (BitVec 8)

/-- What lies at an address of the management complex's SRAM (R407 gives its parts, not their places, log 145): (0, a, _) address a of the image
slots, (1, s, r) the queue from component s to r, (2, c, _) the records of component c in the retained area, anything else nothing. -/
opaque Config.sramPlace : Nat → Nat × Nat × Nat

end Sys2Proof
end

