-- ==== Sys2Proof/Machine/Dev.lean ====
section
/-! DEFINITION. The whole device: everything State holds but the queue of waiting commands. -/

namespace Sys2Proof

structure Dev where
  /-- time since the rising edge of PORST_N in 0.1 ns: FCLK = 8, NCLK = 5, MCLK = 10, TUCLK = 40 (the model's one clock, log 1) -/
  now : Nat := 0
  /-- the model's counter of free values drawn (log 2) -/
  free : Nat := 0
  /-- supplies good, PORST_N high, not frozen -/
  alive : Bool := false
  /-- every plain register, by PF BAR0 offset; unlisted ones read their reset value -/
  regs : Tab Word := []
  /-- PQ staging and pop registers, kept per requester (R170) -/
  pqRegs : Tab Word := []
  host : HostIf := {}
  erl : Erl := {}
  tel : Tel := {}
  tmu : Tmu := {}
  cat : Cat := {}
  pq : Tab Pq := []
  lck : Tab Lck := []
  ptn : PtnAll := {}
  core : Tab Core := []
  mem : Mem := {}
  flow : Flow := {}
  store : Store := {}
  dict : Dict := {}
  fw : Fw := {}
  sec : Sec := {}
  pwr : Pwr := {}
  /-- what the device has sent and driven, newest first (the model's own record) -/
  out : List Out := []
  deriving DecidableEq, Repr, Inhabited

end Sys2Proof
end

