-- ==== Sys2Proof/Machine/Ops.lean ====
section
/-! DEFINITION. The shared operations of the device: registers, free values, time stamps, events and MSI-X, error reports,
telemetry records and alarms, Catcher records, priority queues and locks. Every meaning is written over these. -/

namespace Sys2Proof

/-! ### Registers -/

/-- The content of a plain register. -/
def Dev.rd (d : Dev) (k : Nat) : Word := Tab.get (regReset k) d.regs k

/-- The content of a plain register as a number. -/
def Dev.rdN (d : Dev) (k : Nat) : Nat := (d.rd k).toNat

/-- Set a plain register. -/
def Dev.wr (d : Dev) (k : Nat) (v : Word) : Dev := { d with regs := Tab.set (regReset k) d.regs k v }

/-- Set a plain register from a number, modulo 2^32. -/
def Dev.wrN (d : Dev) (k v : Nat) : Dev := d.wr k (BitVec.ofNat 32 v)

/-- Add to a 32-bit counter that sticks at 0xFFFF_FFFF. -/
def Dev.count (d : Dev) (k n : Nat) : Dev := d.wrN k (stick32 (d.rdN k + n))

/-- A 64-bit counter pair, low word at `k` (R9). -/
def Dev.rd64 (d : Dev) (k : Nat) : Nat := d.rdN k + 2 ^ 32 * d.rdN (k + 4)

/-- Set a 64-bit pair, modulo 2^64. -/
def Dev.wr64 (d : Dev) (k v : Nat) : Dev := (d.wrN k (v % 2 ^ 32)).wrN (k + 4) (v / 2 ^ 32 % 2 ^ 32)

/-- Add to a 64-bit counter pair, which wraps modulo 2^64. -/
def Dev.count64 (d : Dev) (k n : Nat) : Dev := d.wr64 k (d.rd64 k + n)

/-- Put every register of [lo, hi) back to its reset value (R7). -/
def Dev.regsReset (d : Dev) (lo hi : Nat) : Dev :=
  { d with regs := Tab.keep d.regs (fun k _ => !(decide (lo ≤ k) && decide (k < hi))) }

/-- Record something the device sends or drives. -/
def Dev.emit (d : Dev) (o : Out) : Dev := { d with out := o :: d.out }

/-! ### Free values (log 2) -/

/-- The next free number, and the counter advanced. -/
def Dev.drawN (d : Dev) : Nat × Dev := (Config.freeValue d.free, { d with free := d.free + 1 })

/-- The next free bit, and the counter advanced. -/
def Dev.drawB (d : Dev) : Bool × Dev := (Config.freeBit d.free, { d with free := d.free + 1 })

/-! ### Time -/

/-- One second in quarter nanoseconds. -/
def qsec : Nat := 4000000000

/-- Device time of one millisecond, in 0.1 ns. -/
def msec : Nat := 10000000

/-- The code of STATE (R281). -/
def TimeState.code : TimeState → Nat
  | .locked => 0 | .holdover => 1 | .freerun => 2 | .stepping => 3

/-- R281: the smallest n from 0 to 32 with the bound at most 2^n ns. -/
def errLogFrom (e : Nat) : Nat → Nat → Nat
  | 0, n => n
  | fuel + 1, n => if e ≤ 2 ^ n then n else errLogFrom e fuel (n + 1)

/-- R281: the 16-bit quality code. -/
def Tmu.quality (t : Tmu) : Nat :=
  (if t.unknown then 255 else errLogFrom t.err 32 0) * 256 + (if t.leap = 0 then 0 else 32) + t.source * 4 + t.state.code

/-- R281: the timestamp record of a reported time. -/
def Tmu.stampAt (t : Tmu) (q : Nat) : TStamp :=
  { subsec := q % qsec, seconds := q / qsec % 2 ^ 48, quality := t.quality, epoch := t.epoch, flags := 0 }

/-- The timestamp of the present TUCLK. -/
def Dev.stamp (d : Dev) : TStamp := d.tmu.stampAt d.tmu.cnt

/-- The 16 bytes of a timestamp record (R281). -/
def TStamp.bytes (t : TStamp) : List Byte :=
  leBytes 4 t.subsec ++ leBytes 6 t.seconds ++ leBytes 2 t.quality ++ leBytes 1 t.epoch ++ leBytes 1 t.flags ++ leBytes 2 0

/-- NCLK since the rising edge of PORST_N. -/
def Dev.nclk (d : Dev) : Nat := d.now / 5

/-- FCLK since the rising edge of PORST_N. -/
def Dev.fclk (d : Dev) : Nat := d.now / 8

/-- TUCLK since the rising edge of PORST_N. -/
def Dev.tuclk (d : Dev) : Nat := d.now / 40

/-! ### MSI-X (R370) -/

/-- The model's number of a function: 0 the PF, 1 + n VF n. -/
def fnIx : Option Nat → Nat
  | none => 0
  | some n => n + 1

/-- The register name space of a function's own view: 0 for the PF, `vfBase n` for VF n. -/
def fnBase : Option Nat → Nat
  | none => 0
  | some n => vfBase n

/-- The word of an MSI-X table entry of a function: entry v, word w (R357). -/
def Dev.msixWord (d : Dev) (fn : Option Nat) (v w : Nat) : Nat := d.rdN (fnBase fn + msixBase + 16 * v + 4 * w)

/-- May the vector send now: MSI-X Enable, Bus Master Enable and not masked (R370)? -/
def Dev.msixOpen (d : Dev) (fn : Option Nat) (v : Nat) : Bool :=
  Tab.get false d.host.msixEn (fnIx fn) && Tab.get false d.host.bme (fnIx fn) && !bit (d.msixWord fn v 3) 0

/-- R370: one raise of a vector sends one message, or sets the pending bit of a vector that may not send. -/
def Dev.msixRaise (d : Dev) (fn : Option Nat) (v : Nat) : Dev :=
  if d.msixOpen fn v then d.emit (.msix fn v)
  else { d with host := { d.host with pba := Tab.set false d.host.pba (64 * fnIx fn + v) true } }

/-- The partition whose core, queue or ring an event register belongs to, and its vector (R370): TEN_EVENT signals VF
vector 1 of the core's partition, PQ_EVENT VF vector 2 of the owner or PF vector 11 for owner code 48. -/
def Dev.ownerOfCore (d : Dev) (c : Nat) : Option Nat :=
  match Tab.get none d.ptn.tshare c with
  | some t => some t.running
  | none => (upTo 32).find? (fun p => let e := (Tab.get {} d.ptn.ptn p).ent; e.valid && bit e.cores c)

def Dev.vectorOf (d : Dev) (key : Nat) : Option (Option Nat × Nat) :=
  if tenBase ≤ key ∧ key < memBase then
    (d.ownerOfCore ((key - tenBase) / 0x20000)).map (fun p => (some p, 1))
  else if pqBase ≤ key ∧ key < catBase then
    let o := (Tab.get {} d.pq ((key - pqBase) / 0x100)).owner
    if o < 32 then some (some o, 2) else if o = 48 then some (none, 11) else none
  else eventVector key

/-! ### Telemetry records produced by hardware (R478) -/

/-- R486: a record of a rank has been produced: every path's summary counts it. -/
def Tel.produced (t : Tel) (rank : Nat) : Tel :=
  { t with path := (upTo 4).foldl (fun (m : Tab TelPath) p =>
      let x := Tab.get {} m p
      Tab.set {} m p { x with prod := Tab.set 0 x.prod rank (stick32 (Tab.get 0 x.prod rank + 1)) }) t.path }

/-- Produce a record: it takes the next SEQ and the present time, and waits to be offered to the paths. -/
def Dev.teleMake (d : Dev) (rank typ source partition inst : Nat) (payload : List Byte) : Dev :=
  let r : TelRec := { rank := rank, typ := typ, source := source, partition := partition, inst := inst,
                      seq := d.tel.seq, time := d.stamp, payload := payload }
  { d with tel := ({ d.tel with seq := (d.tel.seq + 1) % 2 ^ 32, fresh := d.tel.fresh ++ [r] } : Tel).produced rank }

/-! ### Events (R6, R370, R478) -/

/-- Set event bit `b` of the event register `key`. A bit that goes from 0 to 1 with its enable at 1 raises the vector, and
every bit that goes from 0 to 1 makes a block-event record, whatever its enable. -/
def Dev.event (d : Dev) (key b : Nat) : Dev :=
  if wbit (d.rd key) b then d
  else
    let d1 := d.wrN key (setBit (d.rdN key) b)
    let d2 := d1.teleMake 1 1 1 0xFF 0 (leBytes 4 key ++ leBytes 4 (2 ^ b))
    if wbit (d.rd (key + 4)) b then
      (match d.vectorOf key with
       | some (fn, v) => d2.msixRaise fn v
       | none => d2)
    else d2

/-- Set several event bits, lowest first. -/
def Dev.events (d : Dev) (key : Nat) : List Nat → Dev
  | [] => d
  | b :: bs => (d.event key b).events key bs

/-- R370: writing an enable to 1 while its event bit is 1 raises the vector once. -/
def Dev.enableWrite (d : Dev) (key : Nat) (new : Nat) : Dev :=
  let old := d.rdN (key + 4)
  let ev := d.rdN key
  let d1 := d.wrN (key + 4) new
  if (maskBits 32 new).any (fun i => !bit old i && bit ev i) then
    (match d.vectorOf key with
     | some (fn, v) => d1.msixRaise fn v
     | none => d1)
  else d1

/-! ### Alarms (R480) -/

/-- The EMCY code of an alarm (the alarm table of R480). -/
def alarmEmcy (code : Nat) : Nat :=
  if code = 1 ∨ code = 2 then 0x8100
  else if code = 3 ∨ code = 4 ∨ code = 9 then 0x5000
  else if code = 5 then 0x4200
  else if code = 6 then 0xFF06
  else if code = 7 then 0x3000
  else if code = 8 then 0xFF08
  else 0xFF0A

/-- The slot number of an alarm identity. -/
def alarmKey (code inst : Nat) : Nat := code * 65536 + inst

/-- The paths that are up, as a mask (R482). -/
def Dev.pathsUp (d : Dev) : Nat :=
  (upTo 4).foldl (fun m p => if (Tab.get {} d.tel.path p).up then setBit m p else m) 0

/-- R480: a change of state updates the slot in place: the state, COUNT, and TIME at the first change since the last send.
`force` is set for FATAL, of which each report sets anew. -/
def Dev.alarmSet (d : Dev) (code inst : Nat) (set : Bool) (detail : Nat) (force : Bool) : Dev :=
  let k := alarmKey code inst
  let a := Tab.get {} d.tel.alarms k
  if a.set = set ∧ force = false then d
  else
    let fresh := decide (a.count = 0)
    let a' : Alarm := { a with set := set, count := stick 0xFFFF (a.count + 1), detail := if set then detail else a.detail,
                               time := if fresh then d.stamp else a.time, emcy := alarmEmcy code,
                               seq := d.tel.seq, pend := d.pathsUp }
    { d with tel := { d.tel with alarms := Tab.set {} d.tel.alarms k a', seq := (d.tel.seq + 1) % 2 ^ 32 } }

/-! ### The error log's report queue (R344) -/

/-- A report as its unit makes it (R341): stamped in the cycle of the making. -/
def Dev.mkReport (d : Dev) (source code cls partition detail : Nat) : ErlEntry :=
  let s := d.stamp
  { stamp := d.nclk, subsec := s.subsec, seconds := s.seconds % 2 ^ 32, code := code, source := source, cls := cls,
    tstate := d.tmu.state.code, partition := partition, epoch := s.epoch, detail := detail % 2 ^ 32 }

/-- Remove the newest advisory or corrected report of a queue (the last of the list), if there is one. -/
def dropNewestLow : List ErlEntry → Option (List ErlEntry × ErlEntry)
  | [] => none
  | e :: es =>
    match dropNewestLow es with
    | some (es', x) => some (e :: es', x)
    | none => if e.cls < 2 then some (es, e) else none

/-- R343, R344: a drop is counted in ERL_LOST of its class and sets the LOST event; the first drop of an uncorrectable or
fatal report since the last clear raises the summary alarm. -/
def Dev.erlLost (d : Dev) (cls : Nat) : Dev :=
  let d1 := (d.count (erlBase + 0x40 + 4 * cls) 1).event (erlBase + 0x0C) 3
  if 2 ≤ cls ∧ d.erl.alarm = false then
    { d1 with erl := { d1.erl with alarm := true } }.alarmSet 3 0 true 0 false
  else d1

/-- R344: a report enters the 64-report queue, displaces a lower one, or is dropped. -/
def Dev.reportE (d : Dev) (e : ErlEntry) : Dev :=
  if d.erl.queue.length < 64 then { d with erl := { d.erl with queue := d.erl.queue ++ [e] } }
  else if e.cls < 2 then d.erlLost e.cls
  else match dropNewestLow d.erl.queue with
    | some (q, x) => { d with erl := { d.erl with queue := q ++ [e] } }.erlLost x.cls
    | none => d.erlLost e.cls

/-- Make a report and put it into the queue. -/
def Dev.report (d : Dev) (source code cls partition detail : Nat) : Dev :=
  d.reportE (d.mkReport source code cls partition detail)

/-! ### The Catcher (R150 to R157) -/

/-- A source places a record into its FIFO, or holds it while the FIFO holds 8 (R150, R152). -/
def Dev.catPut (d : Dev) (r : CatRec) : Dev :=
  let q := Tab.get [] d.cat.fifo r.source
  let h := Tab.get [] d.cat.hold r.source
  if q.length < 8 ∧ h = [] then
    { d with cat := { d.cat with fifo := Tab.set [] d.cat.fifo r.source (q ++ [r]) } }
  else
    { d with cat := { d.cat with hold := Tab.set [] d.cat.hold r.source (h ++ [{ r with held := true }]),
                                 holds := Tab.set 0 d.cat.holds r.source (stick 0xFFFF (Tab.get 0 d.cat.holds r.source + 1)) } }

/-- R339: a firmware notice, Catcher source 35, KIND 0x20. -/
def Dev.notice (d : Dev) (p value detail : Nat) : Dev :=
  d.catPut { value := value, source := 35, partition := p, kind := 0x20, detail := detail }

/-! ### Priority queues (R158 to R163) -/

def Dev.pqAt (d : Dev) (n : Nat) : Pq := Tab.get {} d.pq n

def Dev.pqSet (d : Dev) (n : Nat) (q : Pq) : Dev := { d with pq := Tab.set {} d.pq n q }

/-- The entries a depth code gives (R158). -/
def Pq.cap (q : Pq) : Nat := 16 * 2 ^ min q.depth 6

/-- The highest level held, plus one; 0 when the queue is empty. -/
def Pq.top1 (q : Pq) : Nat := q.ents.foldl (fun m e => max m (e.level + 1)) 0

/-- Take the oldest entry of a level out of the list. -/
def takeLevel (l : Nat) : List PqEntry → Option (PqEntry × List PqEntry)
  | [] => none
  | e :: es =>
    if e.level = l then some (e, es)
    else match takeLevel l es with
      | some (x, es') => some (x, e :: es')
      | none => none

/-- R160: a pop returns the oldest entry of the highest level held; an empty queue returns none and does not change. -/
def Pq.pop (q : Pq) : Option (PqEntry × Pq) :=
  match q.top1 with
  | 0 => none
  | l + 1 =>
    match takeLevel l q.ents with
    | some (e, es) => some (e, { q with ents := es })
    | none => none

/-- R160, R163: a push lands, or is ignored by a full queue with OVERRUN. `port` moves the push pointer (R502). The Bool says
that the push landed. -/
def Dev.pqPush (d : Dev) (n port : Nat) (e : PqEntry) : Dev × Bool :=
  let q := d.pqAt n
  let ek := pqBase + 0x100 * n + 0x08
  let q1 := { q with pushPtr := (port + 1) % 84 }
  if q.ents.length < q.cap then
    let d1 := d.pqSet n { q1 with ents := q.ents ++ [e] }
    let d2 := if q.ents = [] then d1.event ek 0 else d1
    let d3 := if q.hiwater ≠ 0 ∧ q.ents.length + 1 = q.hiwater then d2.event ek 1 else d2
    (d3, true)
  else
    (((d.pqSet n q1).event ek 2).count (pqBase + 0x100 * n + 0x10) 1, false)

/-- Empty a queue and clear its events (R163). -/
def Dev.pqEmpty (d : Dev) (n : Nat) : Dev :=
  (d.pqSet n { d.pqAt n with ents := [] }).wrN (pqBase + 0x100 * n + 0x08) 0

/-! ### Hardware locks (R164 to R168) -/

def Dev.lckAt (d : Dev) (n : Nat) : Lck := Tab.get {} d.lck n

def Dev.lckSet (d : Dev) (n : Nat) (l : Lck) : Dev := { d with lck := Tab.set {} d.lck n l }

/-- R164: the owner code a requester's accesses carry. -/
def Req.owner : Req → Nat
  | .vf n => n
  | .fw c => 32 + c
  | .pf => 48
  | .debug => 63

/-- R502: the port a requester's register accesses come from. -/
def Req.port : Req → Nat
  | .vf n => 32 + n
  | .pf => 64
  | .fw c => 67 + c
  | .debug => 83

/-- The model's number of a requester, for its latches: the PF, each VF, firmware as one, and the debug port (R9). -/
def Req.code : Req → Nat
  | .pf => 0
  | .vf n => 1 + n
  | .fw _ => 33
  | .debug => 49

/-- R165: an acquire by owner code `o` through `port`; the Bool is GRANTED. -/
def Dev.lckAcquire (d : Dev) (n o port : Nat) : Dev × Bool :=
  let l := { d.lckAt n with ptr := (port + 1) % 84 }
  if l.held = false then (d.lckSet n { l with held := true, owner := o }, true)
  else (d.lckSet n l, decide (l.owner = o))

/-- R166: a release by owner code `o`: frees the lock and clears BROKEN, or is ignored, counted and logged. -/
def Dev.lckRelease (d : Dev) (n o : Nat) : Dev :=
  let l := d.lckAt n
  if l.held ∧ l.owner = o then d.lckSet n { l with held := false, owner := 0, broken := false }
  else
    let det := n + 256 * (if l.held then l.owner else 0) + 16384 * b2n (!l.held) + 65536 * o
    (d.count (lckBase + 0x804) 1).report 5 1 0 (if l.held ∧ l.owner < 32 then l.owner else 0xFF) det

/-- R167: a forced release of one lock, by a row of the forced-release table. -/
def Dev.lckForce (d : Dev) (n row : Nat) : Dev :=
  let l := d.lckAt n
  if l.held then
    ((d.lckSet n { l with held := false, owner := 0, broken := true }).count (lckBase + 0x808) 1).report 5 2 0
      (if l.owner < 32 then l.owner else 0xFF) (n + 256 * l.owner + 65536 * row)
  else d

/-- R167: force the release of a list of locks. -/
def Dev.lckForceList (d : Dev) (row : Nat) : List Nat → Dev
  | [] => d
  | n :: ns => (d.lckForce n row).lckForceList row ns

/-- The locks an owner code holds, lowest first. -/
def Dev.locksOf (d : Dev) (o : Nat) : List Nat :=
  (d.lck.filter (fun kv => kv.2.held && decide (kv.2.owner = o))).map (fun kv => kv.1)

/-- R167: every lock of an owner code is released by force. -/
def Dev.lckForceOwner (d : Dev) (o row : Nat) : Dev := d.lckForceList row (d.locksOf o)

/-- The map entry of a partition. -/
def Dev.ent (d : Dev) (p : Nat) : MapEnt := (Tab.get {} d.ptn.ptn p).ent

/-- The partition record. -/
def Dev.ptnAt (d : Dev) (p : Nat) : Ptn := Tab.get {} d.ptn.ptn p

def Dev.ptnSet (d : Dev) (p : Nat) (x : Ptn) : Dev := { d with ptn := { d.ptn with ptn := Tab.set {} d.ptn.ptn p x } }

/-- The core of rank r of a partition (R354, R327); none when the rank has no core. -/
def Dev.coreOfRank (d : Dev) (p r : Nat) : Option Nat :=
  match (d.ptnAt p).order[r]? with
  | some c => if c < 32 then some c else none
  | none => none

/-- FWREADY (R365, R373). -/
def Dev.fwReady (d : Dev) : Bool := wbit (d.rd (glbBase + 4)) 1

/-- GLB_STAT.ROM. -/
def Dev.romServes (d : Dev) : Bool := wbit (d.rd (glbBase + 4)) 0

/-- GLB_STAT.HELD. -/
def Dev.helds (d : Dev) : Bool := wbit (d.rd (glbBase + 4)) 2

/-! ### The outcomes of an access (R355) -/

/-- Count an access of a function: GLB_ACCERR, GLB_ACCLAST0 and 1 of that function, and GLB_EVENT.ACCERR for the PF. -/
def Dev.accErr (d : Dev) (fn : Option Nat) (off be : Nat) (isWrite : Bool) (cause : Nat) : Dev :=
  let b := fnBase fn + glbBase
  let d1 := ((d.count (b + 0x14) 1).wrN (b + 0x18) (off % 2 ^ 26)).wrN (b + 0x1C)
              (2 ^ 31 + 256 * (be % 16) + 16 * b2n isWrite + cause)
  match fn with
  | none => d1.event (glbBase + 0x0C) 0
  | some _ => d1

/-- R499: the advisory entry of a logged cause. -/
def Dev.accLog (d : Dev) (fn : Option Nat) (off cause : Nat) : Dev :=
  d.report 1 cause 0 (fn.getD 0xFF) (off % 2 ^ 26 + 2 ^ 26 * (fn.getD 63))

/-- The function as a requester. -/
def fnReq : Option Nat → Req
  | none => .pf
  | some n => .vf n

end Sys2Proof
end

