-- ==== Sys2Proof/Machine/ErrLog.lean ====
section
/-! DEFINITION. The error log (R341 to R347): taking a report, clearing classes, copying a slot. -/

namespace Sys2Proof

/-- The 32 bytes of an entry (R341). -/
def ErlEntry.bytes (e : ErlEntry) : List Byte :=
  leBytes 8 e.stamp ++ leBytes 4 e.subsec ++ leBytes 4 e.seconds ++ leBytes 2 e.code ++ leBytes 1 e.source ++
  leBytes 1 (e.cls + 4 * e.tstate + 16 * b2n e.saved) ++ leBytes 1 e.partition ++ leBytes 1 e.epoch ++ leBytes 2 e.count ++
  leBytes 4 e.seq ++ leBytes 4 e.detail

/-- How many entries have been made since one: SEQ counts modulo 2^32 (R341), so an entry restored from before the last PORST_N is older
than every entry made since. -/
def Erl.age (l : Erl) (e : ErlEntry) : Nat := (l.nextSeq + 2 ^ 32 - 1 - e.seq) % 2 ^ 32

/-- The newest slot and entry among those satisfying `f` (R342). -/
def Erl.newest (l : Erl) (f : ErlEntry → Bool) : Option (Nat × ErlEntry) :=
  l.slots.foldl (fun m kv => if f kv.2 then (match m with
    | some x => if l.age kv.2 < l.age x.2 then some kv else m
    | none => some kv) else m) none

/-- The slot of the oldest, by SEQ, of the advisory and corrected entries of the general region (R343). -/
def Erl.oldestLow (l : Erl) : Option Nat :=
  (l.slots.foldl (fun (m : Option (Nat × ErlEntry)) kv => if decide (kv.1 < 3840) && decide (kv.2.cls < 2) then (match m with
    | some x => if l.age x.2 < l.age kv.2 then some kv else m
    | none => some kv) else m) none).map (fun x => x.1)

/-- The lowest slot of [lo, hi) that is free. -/
def Erl.freeSlot (l : Erl) (lo hi : Nat) : Option Nat :=
  ((upTo (hi - lo)).map (fun i => lo + i)).find? (fun k => (Tab.find l.slots k).isNone)

/-- R343: where a new entry goes. -/
def Erl.place (l : Erl) (cls : Nat) : Option Nat :=
  match (if cls = 3 then l.freeSlot 3840 4096 else none) with
  | some k => some k
  | none =>
    match l.freeSlot 0 3840 with
    | some k => some k
    | none => l.oldestLow

/-- R345, R479: what an entry tells the outside: the log's events and its telemetry record or alarm (log 46). -/
def Dev.erlAnnounce (d : Dev) (e : ErlEntry) : Dev :=
  let d1 := d.event (erlBase + 0x0C) 0
  if e.cls = 3 then (d1.event (erlBase + 0x0C) 2).alarmSet 4 e.source true (65536 * e.code + e.detail % 65536) true
  else if e.cls = 2 then (d1.event (erlBase + 0x0C) 1).teleMake 1 3 e.source e.partition 0 e.bytes
  else d1.teleMake 3 1 e.source e.partition 0 e.bytes

/-- R343: a new entry takes the next SEQ and a slot, or is dropped. -/
def Dev.newEntry (d : Dev) (e : ErlEntry) : Dev :=
  match d.erl.place e.cls with
  | none => d.erlLost e.cls
  | some k =>
    let x := { e with seq := d.erl.nextSeq }
    (({ d with erl := { d.erl with slots := Tab.put d.erl.slots k x, nextSeq := (d.erl.nextSeq + 1) % 2 ^ 32 } }).wrN
      (erlBase + 0x14) ((d.erl.nextSeq + 1) % 2 ^ 32)).erlAnnounce x

/-- R342: did the entry stand, at its first report, no more than 1 ms before a report? The STAMP of a restored entry counts from an earlier
PORST_N; DEDUCED (log 131): it takes no further report. -/
def ErlEntry.recent (x e : ErlEntry) : Bool := !x.saved && decide (x.stamp ≤ e.stamp) && decide (e.stamp ≤ x.stamp + 2000000)

/-- R342 to R344: the log takes its oldest report: it coalesces, makes an entry, or is dropped. -/
def Dev.erlTake (d : Dev) : Dev :=
  match d.erl.queue with
  | [] => d
  | e :: q =>
    let d1 := { d with erl := { d.erl with queue := q } }
    let same := d1.erl.newest (fun x => decide (x.source = e.source) && decide (x.code = e.code) && decide (x.cls = e.cls))
    match same with
    | some (k, x) =>
      if x.recent e then
        let x' := { x with count := stick 0xFFFF (x.count + 1), partition := if x.partition = e.partition then x.partition else 0xFE }
        ({ d1 with erl := { d1.erl with slots := Tab.put d1.erl.slots k x' } }).count (erlBase + 0x50) 1
      else d1.newEntry e
    | none => d1.newEntry e

/-- R345: a write of ERL_CTL.CLEAR frees every entry of the named classes and re-arms the summary alarm. -/
def Dev.erlClear (d : Dev) (mask : Nat) : Dev :=
  let d1 := { d with erl := { d.erl with slots := Tab.keep d.erl.slots (fun _ e => !bit mask e.cls), alarm := false } }
  d1.alarmSet 3 0 false 0 false

/-- R347: a write of ERL_IDX copies a slot into ERL_DATA; a free slot copies as 0. -/
def Dev.erlIdx (d : Dev) (k : Nat) : Dev :=
  let bs := match Tab.find d.erl.slots k with
    | some e => e.bytes
    | none => leBytes 32 0
  (upTo 8).foldl (fun (x : Dev) i => x.wrN (erlBase + 0x20 + 4 * i) (leNat ((bs.drop (4 * i)).take 4))) (d.wrN (erlBase + 0x18) (2 ^ 31 + k))

/-- ERL_STAT (R347). -/
def Dev.erlStat (d : Dev) : Nat :=
  let g := d.erl.slots.filter (fun kv => decide (kv.1 < 3840))
  let f := d.erl.slots.filter (fun kv => decide (3840 ≤ kv.1))
  g.length + 4096 * f.length + 2 ^ 21 * b2n (decide (g.length = 3840) && g.all (fun kv => decide (2 ≤ kv.2.cls))) + 2 ^ 22 * b2n d.erl.alarm

end Sys2Proof
end

