-- ==== Sys2Proof/Machine/DieB.lean ====
section
/-! DEFINITION. The Catcher, the priority queues and the hardware locks (chapter 6): placing and taking records, ring tails,
queue configuration, register pushes and pops, acquires and releases. -/

namespace Sys2Proof

/-! ### The Catcher -/

/-- The 32 bytes of a completion record (R154). -/
def CatRec.bytes (r : CatRec) : List Byte :=
  leBytes 8 r.value ++ leBytes 2 r.seq ++ leBytes 1 r.source ++ leBytes 1 r.partition ++ leBytes 1 r.kind ++
  leBytes 1 (b2n r.err + 2 * b2n r.empty + 4 * b2n r.held) ++ leBytes 1 r.code ++ leBytes 1 r.opcode ++
  leBytes 8 r.stamp ++ leBytes 4 r.detail ++ leBytes 4 r.take

/-- A ring slot of zeros (R157). -/
def CatRec.zero : CatRec := { partition := 0 }

/-- R151: the first source at or after the pointer, wrapping from 35 to 0, whose FIFO is not empty. -/
def Cat.pick (c : Cat) : Option Nat :=
  ((upTo 36).map (fun i => (c.ptr + i) % 36)).find? (fun s => decide (Tab.get [] c.fifo s ≠ []))

/-- The register that holds the events of ring p (R169); ring 32's are CAT_EVENT. -/
def ringEventKey (p : Nat) : Nat := if p = 32 then catBase + 0x0C else catBase + 0x40C + 0x10 * p

/-- Set event bit b (0 RECORD, 1 RINGOVF) of ring p, with its enable at bit 16 + b of the same register; ring 32 signals PF
vector 10, ring p VF p's vector 3 (R370). -/
def Dev.ringEvent (d : Dev) (p b : Nat) : Dev :=
  if p = 32 then d.event (catBase + 0x0C) b
  else
    let k := ringEventKey p
    if wbit (d.rd k) b then d
    else
      let d1 := (d.wrN k (setBit (d.rdN k) b)).teleMake 1 1 6 p 0 (leBytes 4 k ++ leBytes 4 (2 ^ b))
      if wbit (d.rd k) (16 + b) then d1.msixRaise (some p) 3 else d1

/-- R155, R156: a taken record goes to its ring, unless the ring is full; then it is counted in CAT_RLOST and flagged. -/
def Dev.ringWrite (d : Dev) (r : CatRec) : Dev :=
  let p := if r.partition < 32 then r.partition else 32
  let h := Tab.get 0 d.cat.head p
  let t := Tab.get 0 d.cat.tail p
  if (h + 256 - t) % 256 = 128 then (d.count (catBase + 0x408 + 0x10 * p) 1).ringEvent p 1
  else
    { d with cat := { d.cat with slot := Tab.set CatRec.zero d.cat.slot (p * 128 + h % 128) r,
                                 head := Tab.set 0 d.cat.head p ((h + 1) % 256) } }.ringEvent p 0

/-- R152: when a slot frees, the oldest held record of the source enters its FIFO. -/
def Dev.catUnhold (d : Dev) (s : Nat) : Dev :=
  match Tab.get [] d.cat.hold s with
  | [] => d
  | r :: rs =>
    { d with cat := { d.cat with hold := Tab.set [] d.cat.hold s rs,
                                 fifo := Tab.set [] d.cat.fifo s (Tab.get [] d.cat.fifo s ++ [r]) } }

/-- R151, R154, R155: one take. Answers the source taken from, if any. -/
def Dev.catTake (d : Dev) : Dev × Option Nat :=
  match d.cat.pick with
  | none => (d, none)
  | some s =>
    match Tab.get [] d.cat.fifo s with
    | [] => (d, none)
    | r :: rs =>
      let r' := { r with stamp := d.nclk, take := d.cat.take }
      let d1 := { d with cat := { d.cat with fifo := Tab.set [] d.cat.fifo s rs, ptr := (s + 1) % 36,
                                             take := (d.cat.take + 1) % 2 ^ 32 } }
      let d2 := (d1.count (catBase + 0x104 + 8 * s) 1).ringWrite r'
      let d3 := if r'.kind = 0x02 then { d2 with cat := { d2.cat with fwd := d2.cat.fwd ++ [r'] } } else d2
      let d4 := if r'.kind = 0x20 then d3.teleMake 1 2 6 r'.partition 0 r'.bytes else d3
      (d4.catUnhold s, some s)

/-- R156, R157, R169: a write of CAT_RTAIL(p). VF p writes its own ring's, the PF ring 32's; a tail beyond the head is ignored
and counted with cause 8, a foreign ring with cause 7. Firmware reaches every ring. -/
def Dev.catRtail (d : Dev) (who : Req) (p v : Nat) : Dev :=
  let h := Tab.get 0 d.cat.head p
  let t := Tab.get 0 d.cat.tail p
  let own := match who with
    | .pf => decide (p = 32)
    | .vf n => decide (n = p)
    | .fw _ => true
    | .debug => false
  let miss := fun (cause : Nat) => match who with
    | .pf => d.accErr none (catBase + 0x404 + 0x10 * p) 15 true cause
    | .vf n => d.accErr (some n) 0x9004 15 true cause
    | _ => d
  if own = false then miss 7
  else if (v % 256 + 256 - t) % 256 ≤ (h + 256 - t) % 256 then
    { d with cat := { d.cat with tail := Tab.set 0 d.cat.tail p (v % 256) } }
  else miss 8

/-- R157: a reset of partition p sets ring p's indexes to 0 and writes its slots with zero. -/
def Dev.ringClear (d : Dev) (p : Nat) : Dev :=
  let c := d.cat
  let d1 := { d with cat := { c with head := Tab.set 0 c.head p 0, tail := Tab.set 0 c.tail p 0,
                                     slot := Tab.keep c.slot (fun k _ => !decide (k / 128 = p)) } }
  (d1.wrN (catBase + 0x408 + 0x10 * p) 0).wrN (ringEventKey p) 0

/-! ### Priority queues -/

/-- R158: firmware writes PQ_CFG, which empties the queue, clears its events and sets PQ_OVRCNT to 0. -/
def Dev.pqCfg (d : Dev) (n : Nat) (en : Bool) (owner depth hiwater : Nat) : Dev :=
  if owner = 63 then d
  else
    let q := d.pqAt n
    let d1 := d.pqSet n { q with en := en, owner := owner, depth := min depth 6, hiwater := hiwater, ents := [] }
    (d1.wrN (pqBase + 0x100 * n + 0x08) 0).wrN (pqBase + 0x100 * n + 0x10) 0

/-- The place of a per-requester PQ register (R170). -/
def pqKey (who : Req) (n k : Nat) : Nat := who.code * 2 ^ 32 + pqBase + 0x100 * n + k

/-- R170: the 32 bytes a requester has staged for queue n. -/
def Dev.pqStaged (d : Dev) (who : Req) (n : Nat) : List Byte :=
  (upTo 8).flatMap (fun i => leBytes 4 (Tab.get 0 d.pqRegs (pqKey who n (0x20 + 4 * i))).toNat)

/-- R170: load the requester's PQ_POPDATA latch. -/
def Dev.pqLatch (d : Dev) (who : Req) (n : Nat) (bs : List Byte) : Dev :=
  { d with pqRegs := (upTo 8).foldl (fun t i =>
      Tab.set 0 t (pqKey who n (0x40 + 4 * i)) (BitVec.ofNat 32 (leNat ((bs.drop (4 * i)).take 4)))) d.pqRegs }

/-- R159: may the requester push to queue n through its registers? -/
def Dev.pqMayPush (d : Dev) (who : Req) (n : Nat) : Bool :=
  let q := d.pqAt n
  q.en && (match who with
    | .vf p => decide (q.owner = p)
    | .pf => decide (q.owner = 48)
    | .fw _ => true
    | .debug => false)

/-- R159: may the requester pop from queue n through its registers? -/
def Dev.pqMayPop (d : Dev) (who : Req) (n : Nat) : Bool :=
  let q := d.pqAt n
  q.en && (match who with
    | .vf p => decide (q.owner = p)
    | .pf => decide (q.owner = 48)
    | .fw _ => decide (32 ≤ q.owner) && decide (q.owner ≤ 48)
    | .debug => false)

/-- R355: the count of an access to a queue, rank or ring the function does not own (cause 7). -/
def Dev.pqDenied (d : Dev) (who : Req) (n k : Nat) (isWrite : Bool) : Dev :=
  match who with
  | .pf => d.accErr none (pqBase + 0x100 * n + k) 15 isWrite 7
  | .vf p => d.accErr (some p) (0x20000 + 0x100 * n + k) 15 isWrite 7
  | _ => d

/-- R170: a write of PQ_PUSHCTL pushes the requester's staged entry at the level it names. -/
def Dev.pqPushCtl (d : Dev) (who : Req) (n level : Nat) : Dev :=
  if d.pqMayPush who n then (d.pqPush n who.port { level := level % 8, data := d.pqStaged who n }).1
  else d.pqDenied who n 0x14 true

/-- R170: the pop of a PQ_POPCTL read once no waiter stands before it: the data latch, and the word the read returns. -/
def Dev.pqPopWord (d : Dev) (who : Req) (n : Nat) : Dev × Nat :=
  if d.pqMayPop who n then
    let d0 := d.pqSet n { d.pqAt n with popPtr := (who.port + 1) % 84 }
    match (d0.pqAt n).pop with
    | some (e, q') => ((d0.pqSet n q').pqLatch who n e.data, 2 ^ 31 + 256 * e.level)
    | none => (d0.pqLatch who n [], 2 ^ 30)
  else (d.pqDenied who n 0x18 false, 0)

/-- R170: a 32-bit read of PQ_POPCTL and its completion. -/
def Dev.pqPopCtl (d : Dev) (who : Req) (n : Nat) : Dev :=
  let r := d.pqPopWord who n
  r.1.emit (.read who 0 r.2)

/-! ### Hardware locks -/

/-- The value a read of LCK_ACQ or LCK_PEEK returns (R171). -/
def Lck.word (l : Lck) (granted : Bool) : Nat :=
  2 ^ 31 * b2n l.held + 2 ^ 30 * b2n l.broken + 256 * l.owner + b2n granted

/-- R165: a read of LCK_ACQ(n) acquires the lock if it is free; the word it returns shows the owner after the read. -/
def Dev.lckAcqWord (d : Dev) (who : Req) (n : Nat) : Dev × Nat :=
  let r := d.lckAcquire n who.owner who.port
  (r.1, (r.1.lckAt n).word r.2)

/-- R165: a 32-bit read of LCK_ACQ(n) and its completion. -/
def Dev.lckAcqRead (d : Dev) (who : Req) (n : Nat) : Dev :=
  let r := d.lckAcqWord who n
  r.1.emit (.read who 0 r.2)

/-- R355: the function whose GLB_ACCERR counts an access of a requester, if it has one. -/
def Req.fn? : Req → Option (Option Nat)
  | .pf => some none
  | .vf n => some (some n)
  | _ => none

/-- R166, R355: a write of LCK_ACQ(n): a release by the owning domain, or ignored and counted, with cause 7 as well for a
function that does not own the lock. -/
def Dev.lckAcqWrite (d : Dev) (who : Req) (n : Nat) : Dev :=
  let l := d.lckAt n
  let d1 := d.lckRelease n who.owner
  if l.held ∧ l.owner = who.owner then d1
  else match who with
    | .pf => d1.accErr none (lckBase + 4 * n) 15 true 7
    | .vf p => d1.accErr (some p) (0x10000 + 4 * n) 15 true 7
    | _ => d1

/-- R171, R167: a write of LCK_FORCE releases the named lock when firmware makes it; a host write is counted with cause 4. -/
def Dev.lckForceWrite (d : Dev) (who : Req) (n : Nat) : Dev :=
  match who with
  | .fw _ => d.lckForce n 6
  | .pf => d.accErr none (lckBase + 0x800) 15 true 4
  | .vf p => d.accErr (some p) 0x10800 15 true 3
  | .debug => d

end Sys2Proof
end

