-- ==== Sys2Proof/Machine/Keys.lean ====
section
/-! DEFINITION. The keys of chapter 17: the key derivation of R430, the root and the gangs' keys, the recovery of a bundle's content key
(R447), and the lifecycle fuses they depend on (R438). The primitives of the standards are constants of Config (log 12). -/

namespace Sys2Proof

/-! ### The lifecycle fuses (R438) -/

/-- The DEPLOY and RETURN counts. -/
def Sec.deploys (s : Sec) : Nat := popCount 8 (bits s.lcf 8 1)
def Sec.returns (s : Sec) : Nat := popCount 8 (bits s.lcf 16 9)

/-- LGEN, the pair of bytes (DEPLOY count, RETURN count) as a number. -/
def Sec.lgen (s : Sec) : Nat := s.deploys + 256 * s.returns

/-- The lifecycle state: 0 BLANK, 1 PROVISIONED, 2 DEPLOYED, 3 DECOMMISSIONED. -/
def Sec.state (s : Sec) : Nat :=
  if bit s.lcf 17 then 3 else if !bit s.lcf 0 then 0 else if s.returns < s.deploys then 2 else 1

/-- R441, R497: JTAG EXTEST is allowed while BLANK and PROVISIONED. -/
def Sec.extest (s : Sec) : Bool := decide (s.state ≤ 1)

/-- R497: the JTAG IDCODE of revision A0: VERSION 0, PART 0x3200, MANUFACTURER 0x2E7, and bit 0. -/
def jtagIdcode : Nat := 0x3200 * 2 ^ 12 + 0x2E7 * 2 + 1

/-! ### Key derivation (R430) -/

/-- The bytes of an ASCII label. -/
def ascii (s : String) : List Byte := s.toList.map (fun c => BitVec.ofNat 8 c.toNat)

/-- The blocks of HKDF-Expand of RFC 5869, from block `i` on, after block `t`. -/
def hkdfBlocks (prk info : List Byte) : Nat → Nat → List Byte → List Byte
  | 0, _, _ => []
  | n + 1, i, t =>
    let b := padTo 48 (Config.hmac384 prk (t ++ info ++ leBytes 1 i))
    b ++ hkdfBlocks prk info n (i + 1) b

/-- HKDF-SHA-384 of RFC 5869. -/
def hkdf (salt ikm info : List Byte) (len : Nat) : List Byte :=
  (hkdfBlocks (padTo 48 (Config.hmac384 salt ikm)) info ((len + 47) / 48) 1 []).take len

/-- R430: KDF(K, label, ctx, L): a salt of 48 zero bytes, and the label, a zero byte and the context as info. -/
def kdf (k : List Byte) (label : String) (ctx : List Byte) (len : Nat) : List Byte :=
  hkdf (leBytes 48 0) k (ascii label ++ leBytes 1 0 ++ ctx) len

/-- The order n of the P-384 group (FIPS 186). -/
def p384Order : Nat := 0xFFFFFFFFFFFFFFFFFFFFFFFFFFFFFFFFFFFFFFFFFFFFFFFFC7634D81F4372DDF581A0DB248B0A77AECEC196ACCC52973

/-- R430: a P-384 private scalar: the first 48 bytes of its seed, big-endian, modulo n − 1, plus 1. -/
def p384Scalar (seed : List Byte) : Nat := beNat (seed.take 48) % (p384Order - 1) + 1

/-- The DeviceID seed: bytes 0 to 47 the P-384 scalar, bytes 48 to 79 ξ of ML-DSA-87. -/
def deviceSeed : List Byte := kdf Config.uds "EC3200 DEVID" [] 80

/-- The storage root of a lifecycle generation. -/
def storageRoot (lgen : Nat) : List Byte := kdf Config.uds "EC3200 STORE" (leBytes 2 lgen) 48

/-- PS(g), the seed of gang g's keys at LGEN and KGEN(g). -/
def ptnSeed (lgen g kgen : Nat) : List Byte := kdf (storageRoot lgen) "EC3200 PTN" (leBytes 1 g ++ leBytes 2 kgen) 48

/-- The gang's bundle pair: the ML-KEM-1024 seed d ‖ z and the P-384 scalar. -/
def kemSeed (ps : List Byte) : List Byte := kdf ps "EC3200 KEM" [] 64
def ecdhScalar (ps : List Byte) : Nat := p384Scalar (kdf ps "EC3200 ECDH" [] 48)

/-- R453: the gang's public keys: the ML-KEM-1024 encapsulation key, then the uncompressed P-384 public key. -/
def gangPublic (ps : List Byte) : List Byte := padTo 1568 (Config.mlkemPublic (kemSeed ps)) ++ padTo 97 (Config.p384Public (ecdhScalar ps))

/-- The seed of the gang a partition's storage keys belong to. -/
def XtsKey.seed (k : XtsKey) : List Byte := ptnSeed k.lgen k.gang k.kgen

/-- The HBM key and the model-store key of a context, key 1 then key 2 of AES-256-XTS; none as no bytes. -/
def XtsKey.hbm : Option XtsKey → List Byte
  | some k => kdf k.seed "EC3200 HBM" (padTo 32 (Config.bootNonce k.boot)) 64
  | none => []

def XtsKey.store : Option XtsKey → List Byte
  | some k => kdf k.seed "EC3200 MS" [] 64
  | none => []

/-- R430, R446: the dictionary key: 32 bytes of AES-256-GCM, then 32 of HMAC-SHA-384. -/
def dictKey : List Byte := kdf Config.uds "EC3200 DICT" [] 64

/-! ### Content keys and MACsec keys (R140, R447, R450) -/

/-- R447: the content key of a bundle addressed to gang g, from bytes 0 to 255 and the key-wrap block of R140; none where the ephemeral key
is off the curve or the unwrap fails. -/
def contentKey (ps : List Byte) (g : Nat) (head wrap : List Byte) : Option (List Byte) :=
  let eph := sub wrap 1584 97
  if Config.p384OnCurve eph then
    let k1 := padTo 32 (Config.mlkemDecaps (kemSeed ps) (sub wrap 16 1568))
    let z := padTo 48 (Config.p384Ecdh (ecdhScalar ps) eph)
    Config.aesUnwrap (hkdf (padTo 48 (Config.sha384 head)) (k1 ++ z) (ascii "EC3200 BUNDLE" ++ leBytes 1 0 ++ leBytes 1 g) 32) (sub wrap 1681 40)
  else none

/-- R430, R450: a MACsec SAK unwrapped under the wrapping key of port n, which comes from the value of 0x5011. -/
def unwrapSak (key : List Byte) (n : Nat) (wrapped : List Byte) : Option (List Byte) :=
  Config.aesUnwrap (kdf key "EC3200 SAKWRAP" (leBytes 1 n) 32) wrapped

end Sys2Proof
end

