-- ==== Sys2Proof/Machine/Tensor.lean ====
section
/-! DEFINITION. The tensor core (chapters 3 and 4): core store and share accesses, the address generator, the array and its
edge tile by tile, emit into core store and into link transfers, descriptor fetch and errors, completions. -/

namespace Sys2Proof

/-! ### Memories -/

/-- Bytes of one core store (R87). -/
def csSize : Nat := 25165824

/-- Read bytes of a core store. -/
def Dev.csRead (d : Dev) (c a len : Nat) : List Byte := Tab.getList 0 d.mem.cs (c * 2 ^ 25 + a) len

/-- Write bytes of a core store. -/
def Dev.csWrite (d : Dev) (c a : Nat) (bs : List Byte) : Dev :=
  { d with mem := { d.mem with cs := Tab.setList 0 d.mem.cs (c * 2 ^ 25 + a) bs } }

/-- A little-endian number of a core store. -/
def Dev.csNat (d : Dev) (c a len : Nat) : Nat := leNat (d.csRead c a len)

/-- Zero a core store (R91). -/
def Dev.csZero (d : Dev) (c : Nat) : Dev :=
  { d with mem := { d.mem with cs := Tab.keep d.mem.cs (fun k _ => !decide (k / 2 ^ 25 = c)) } }

/-- Bytes of one HBM stack: 48 GiB, and of one granule: 256 MiB. -/
def stackSize : Nat := 51539607552

def granule : Nat := 268435456

/-- Place of a share offset in the primary extent. -/
def MapEnt.prim (e : MapEnt) (off : Nat) : Nat := e.pstack * stackSize + e.pbase * granule + off

/-- Place of a share offset in the mirror extent. -/
def MapEnt.mirr (e : MapEnt) (off : Nat) : Nat := e.mstack * stackSize + e.mbase * granule + off

/-! ### The encryption of the shares (R138, R449, log 111) -/

/-- The key a line is stored under: its own, or its granule's. -/
def Mem.lineKey (m : Mem) (l : Nat) : Option XtsKey :=
  match Tab.find m.lkey l with
  | some k => k
  | none => Tab.get none m.gkey (64 * l / granule)

/-- Is every byte of the run stored under key k? -/
def Mem.under (m : Mem) (k : Option XtsKey) (a len : Nat) : Bool :=
  (m.lkey.all (fun kv => decide (kv.1 < a / 64) || decide ((a + len + 63) / 64 ≤ kv.1) || decide (kv.2 = k))) &&
  (upTo ((a + len + granule - 1) / granule - a / granule)).all (fun i => decide (Tab.get none m.gkey (a / granule + i) = k))

/-- R449: the byte at offset `off` of an extent at `base`, read under key k: its plain value where it is stored under k, else what
another key makes of the 64-byte unit whose tweak is the share offset div 64. -/
def Mem.byteUnder (m : Mem) (k : Option XtsKey) (base off : Nat) : Byte :=
  let v := Tab.get 0 m.hbm (base + off)
  let w := m.lineKey ((base + off) / 64)
  if w = k then v else Config.xtsOther [v.toNat, off % 64, off / 64] (XtsKey.hbm w) (XtsKey.hbm k)

/-- Read `len` bytes at offset `off` of an extent under key k. -/
def Mem.readUnder (m : Mem) (k : Option XtsKey) (base off len : Nat) : List Byte :=
  if m.under k (base + off) len then Tab.getList 0 m.hbm (base + off) len
  else (upTo len).map (fun i => m.byteUnder k base (off + i))

/-- A line comes to stand under key k, with what it reads as under k for its value: the read half of a write of part of it. -/
def Mem.rekeyLine (m : Mem) (k : Option XtsKey) (base l : Nat) : Mem :=
  if m.lineKey l = k then m
  else
    { m with hbm := Tab.setList 0 m.hbm (64 * l) ((upTo 64).map (fun i => m.byteUnder k base (64 * l + i - base))),
             lkey := if Tab.get none m.gkey (64 * l / granule) = k then Tab.del m.lkey l else Tab.put m.lkey l k }

/-- Every line that a write of the run touches stands under key k. -/
def Mem.rekey (m : Mem) (k : Option XtsKey) (base off len : Nat) : Mem :=
  if m.under k (base + off) len then m
  else (upTo ((base + off + len + 63) / 64 - (base + off) / 64)).foldl (fun m i => m.rekeyLine k base ((base + off) / 64 + i)) m

/-- Write bytes at offset `off` of an extent under key k. -/
def Mem.writeUnder (m : Mem) (k : Option XtsKey) (base off : Nat) (bs : List Byte) : Mem :=
  let m1 := m.rekey k base off bs.length
  { m1 with hbm := Tab.setList 0 m1.hbm (base + off) bs }

/-- The key of partition p in the encryption units (R431). -/
def Dev.unitKey (d : Dev) (p : Nat) : Option XtsKey := Tab.get none d.mem.ukey p

/-- Read a partition's share (its primary extent, R128). -/
def Dev.shRead (d : Dev) (p off len : Nat) : List Byte := d.mem.readUnder (d.unitKey p) ((d.ent p).prim 0) off len

/-- Are both extents of p's share written (R128)? -/
def Dev.doubled (d : Dev) (p : Nat) : Bool := (d.ent p).prot && (d.ptnAt p).mirrored

/-- Write a partition's share: both extents while the mirror is valid (R128). -/
def Dev.shWrite (d : Dev) (p off : Nat) (bs : List Byte) : Dev :=
  let k := d.unitKey p
  let m1 := d.mem.writeUnder k ((d.ent p).prim 0) off bs
  { d with mem := if d.doubled p then m1.writeUnder k ((d.ent p).mirr 0) off bs else m1 }

/-- Copy `len` bytes of core c's store from address a into an extent under key k. -/
def Mem.fromCore (m : Mem) (k : Option XtsKey) (base off c a len : Nat) : Mem :=
  let m1 := m.rekey k base off len
  { m1 with hbm := Tab.copyIn 0 m1.hbm (base + off) len m1.cs (c * 2 ^ 25 + a) }

/-- Copy `len` bytes of core c's store from address a to a share offset: both extents while the mirror is valid (R128, R130). -/
def Dev.shFromCore (d : Dev) (p off c a len : Nat) : Dev :=
  let k := d.unitKey p
  let m1 := d.mem.fromCore k ((d.ent p).prim 0) off c a len
  { d with mem := if d.doubled p then m1.fromCore k ((d.ent p).mirr 0) off c a len else m1 }

/-- Copy `len` bytes of partition p's share from an offset to address a of core c's store (R130). -/
def Dev.coreFromSh (d : Dev) (c a p off len : Nat) : Dev :=
  if d.mem.under (d.unitKey p) ((d.ent p).prim off) len then
    { d with mem := { d.mem with cs := Tab.copyIn 0 d.mem.cs (c * 2 ^ 25 + a) len d.mem.hbm ((d.ent p).prim off) } }
  else d.csWrite c a (d.shRead p off len)

/-- Does [off, off + len) lie within the share of p? -/
def Dev.inShare (d : Dev) (p off len : Nat) : Bool := decide (off + len ≤ (d.ent p).len * granule)

/-! ### Memory errors (R126) -/

def memReg (off : Nat) : Nat := memBase + off

/-- R344: a report whose CODE and DETAIL the spec does not state: both are free values (log 2). -/
def Dev.reportFree (d : Dev) (source cls partition : Nat) : Dev :=
  let a := d.drawN
  let b := a.2.drawN
  b.2.report source (a.1 % 65536) cls partition b.1

/-- What the controllers count for a read of HBM stack n: corrected or uncorrectable. -/
def Dev.hbmEcc (d : Dev) (n ptn : Nat) (e : Ecc) : Dev :=
  if e.cor then d.count (memReg (0x40 + 4 * n)) 1
  else if e.unc then (d.count (memReg (0x60 + 4 * n)) 1).reportFree 3 2 ptn
  else d

/-- The same for model-store stack n. -/
def Dev.msEcc (d : Dev) (n ptn : Nat) (e : Ecc) : Dev :=
  if e.cor then d.count (memReg (0x80 + 4 * n)) 1
  else if e.unc then (d.count (memReg (0xA0 + 4 * n)) 1).reportFree 4 2 ptn
  else d

/-- R126: what the memory checks of a read of partition p's share do. An uncorrectable line of a share whose mirror is valid is served
from the mirror and the primary line rewritten, which is logged as a corrected entry; any other goes to the reader. -/
def Dev.shEcc (d : Dev) (p : Nat) (e : Ecc) : Dev :=
  if e.unc && d.doubled p then d.reportFree 3 1 p else d.hbmEcc (d.ent p).pstack p e

/-- R126: does the error of a read of p's share reach the reader? -/
def Dev.shLost (d : Dev) (p : Nat) (e : Ecc) : Bool := e.unc && !d.doubled p

/-! ### Core records and registers -/

def Dev.coreAt (d : Dev) (c : Nat) : Core := Tab.get {} d.core c

def Dev.coreSet (d : Dev) (c : Nat) (x : Core) : Dev := { d with core := Tab.set {} d.core c x }

def Dev.coreUpd (d : Dev) (c : Nat) (f : Core → Core) : Dev := d.coreSet c (f (d.coreAt c))

/-- A register of core c's TEN block. -/
def tenReg (c off : Nat) : Nat := tenBase + 0x20000 * c + off

def Dev.pc (d : Dev) (c : Nat) : Nat := d.rdN (tenReg c 0x0C)

/-- Set TEN_PC, which names addresses up to 0x1FF_FFC0: a JUMP that leads below 0 names one beyond the core store (R96, log 112). -/
def Dev.setPc (d : Dev) (c : Nat) (v : Int) : Dev := d.wrN (tenReg c 0x0C) (wrapI 25 v)

/-- The address of the descriptor the sequencer stands at: one fetched and not issued, or the next to fetch (R96). -/
def Dev.curPc (d : Dev) (c : Nat) : Nat :=
  match (d.coreAt c).cur with
  | some a => a.1
  | none => d.pc c

/-- That descriptor: as it was fetched, or as it stands in core store. -/
def Dev.curDesc (d : Dev) (c : Nat) : Nat :=
  match (d.coreAt c).cur with
  | some a => a.2
  | none => d.csNat c (d.pc c) 64

/-- TEN_SAVEBASE. -/
def Dev.saveBase (d : Dev) (c : Nat) : Nat := d.rdN (tenReg c 0x18) + 2 ^ 32 * d.rdN (tenReg c 0x1C)

/-- The partition a core belongs to; 0xFF for none. -/
def Dev.corePtn (d : Dev) (c : Nat) : Nat := (d.ownerOfCore c).getD 0xFF

/-- R327: are two partitions the same or of one gang? -/
def Dev.sameGang (d : Dev) (p q : Nat) : Bool :=
  decide (p = q) || ((d.ent p).valid && (d.ent q).valid && decide ((d.ent p).gang = (d.ent q).gang))

/-- Add a tally to a core's R62 counts. -/
def Dev.tally (d : Dev) (c : Nat) (t : Counts) : Dev :=
  (((((d.count (tenReg c 0x40) t.sat).count (tenReg c 0x44) t.esc).count (tenReg c 0x48) t.escFull).count
    (tenReg c 0x4C) t.nan).count (tenReg c 0x50) t.ovf).count (tenReg c 0x54) t.linkErr

/-! ### Completions (R97, R98, R111, R152) -/

/-- The effects that follow the post of a completed descriptor: TEN_LASTSEQ and, for a PASS, TEN_PASSES. -/
def Dev.afterPost (d : Dev) (c seq : Nat) (isPass : Bool) : Dev :=
  let d1 := d.wrN (tenReg c 0x20) (seq % 65536)
  if isPass then d1.count64 (tenReg c 0x80) 1 else d1

/-- Post a record of core c; `after` is the completion whose effects follow it. While the FIFO is full those effects wait. -/
def Dev.corePost (d : Dev) (c : Nat) (r : CatRec) (after : Option (Nat × Bool)) : Dev :=
  let held := decide (8 ≤ (Tab.get [] d.cat.fifo c).length) || decide (Tab.get [] d.cat.hold c ≠ [])
  let d1 := d.catPut r
  if held then d1.coreUpd c (fun x => { x with defer := x.defer ++ [(true, after)] })
  else match after with
    | some (seq, isPass) => d1.afterPost c seq isPass
    | none => d1

/-- A descriptor completes: its CATCH record, then TEN_LASTSEQ and TEN_PASSES. -/
def Dev.complete (d : Dev) (c desc pc : Nat) (isPass empty : Bool) : Dev :=
  let seq := bits desc 63 48
  if bit desc 11 then
    d.corePost c { seq := seq, source := c, partition := d.corePtn c, kind := 1, empty := empty, opcode := bits desc 7 0,
                   detail := pc % 2 ^ 32 } (some (seq, isPass))
  else if (d.coreAt c).defer ≠ [] then d.coreUpd c (fun x => { x with defer := x.defer ++ [(false, some (seq, isPass))] })
  else d.afterPost c seq isPass

/-- The effects of one completion that had to wait, if it has any. -/
def Dev.afterWait (d : Dev) (c : Nat) (a : Bool × Option (Nat × Bool)) (rest : List (Bool × Option (Nat × Bool))) : Dev :=
  let d1 := d.coreUpd c (fun x => { x with defer := rest })
  match a.2 with
  | some (seq, isPass) => d1.afterPost c seq isPass
  | none => d1

/-- The completions without a record that stand first in core c's list. -/
def Dev.releaseFree (d : Dev) (c : Nat) : List (Bool × Option (Nat × Bool)) → Dev
  | a :: rest => if a.1 then d else (d.afterWait c a rest).releaseFree c rest
  | [] => d

/-- R152: the Catcher has taken a record of core c and a held one entered the FIFO: the effects it delayed follow, and so do
those of completions without a record that stood behind it. -/
def Dev.release (d : Dev) (c : Nat) : Dev :=
  match (d.coreAt c).defer with
  | [] => d
  | a :: rest => (d.afterWait c a rest).releaseFree c rest

/-- R150 to R152: a source places a record; a core's own effects wait with it while its FIFO is full. -/
def Dev.catRecord (d : Dev) (r : CatRec) : Dev := if r.source < 32 then d.corePost r.source r none else d.catPut r

/-- R151: one take of the Catcher; a core's held record that enters the FIFO releases what waited for it. -/
def Dev.catTakeOne (d : Dev) : Dev :=
  match d.catTake with
  | (d1, some s) => if s < 32 then d1.release s else d1
  | (d1, none) => d1

/-- A core leaves the waiters of the queue it waits at (R110, R115, R120, R162). -/
def Dev.unwait (d : Dev) (c : Nat) : Dev :=
  match (d.coreAt c).waiting with
  | some (.queue n _) =>
    let q := d.pqAt n
    d.pqSet n { q with waiters := q.waiters.filter (fun w => decide (w ≠ c)) }
  | _ => d

/-- R110: a failing descriptor stops the sequencer, posts an error record and makes a log entry. A descriptor that fails
after the first error keeps ERRCODE and TEN_ERRPC. -/
def Dev.tenFail (d : Dev) (c code pc desc : Nat) : Dev :=
  let x := d.coreAt c
  let d1 := if x.st = .error then d
    else (((d.unwait c).coreSet c { x with st := .error, errcode := code, pcSet := false, waiting := none, cur := none }).wrN
      (tenReg c 0x24) pc).event (tenReg c 0x10) 1
  let d2 := d1.corePost c { seq := bits desc 63 48, source := c, partition := d.corePtn c, kind := 3, err := true, code := code,
                            opcode := bits desc 7 0, detail := pc % 2 ^ 32 } none
  d2.report 2 (0x100 + code) (if code = 0x0B ∨ code = 0x0C then 2 else 0) (d.corePtn c) (pc % 2 ^ 25 + 2 ^ 25 * c)

/-- R91: an uncorrectable core-store word is counted; a corrected one is counted. That eight uncorrectable ones came within 1 ms
(R330) is what the command CORE_OUT_OF_SERVICE says. -/
def Dev.eccNote (d : Dev) (c : Nat) (e : Ecc) : Dev :=
  if e.cor then d.count (tenReg c 0x70) 1
  else if e.unc then (d.count (tenReg c 0x74) 1).event (tenReg c 0x10) 5
  else d

/-- R90: the ports of core c's store that met a bank conflict in a step of its work retried; how many did is a matter of timing and so
a free value (log 113). -/
def Dev.bankStalls (d : Dev) (c : Nat) : Dev :=
  let w := d.drawN
  w.2.count (tenReg c 0x78) w.1

/-! ### The address generator (R92 to R95) -/

/-- Level field d of a WALK: COUNT, STRIDE, XC, YC (R102). -/
def walkCount (w l : Nat) : Nat := bits w (232 + 56 * l + 55) (232 + 56 * l + 40)
def walkStride (w l : Nat) : Int := sext 24 (bits w (232 + 56 * l + 39) (232 + 56 * l + 16))
def walkXc (w l : Nat) : Int := sext 8 (bits w (232 + 56 * l + 15) (232 + 56 * l + 8))
def walkYc (w l : Nat) : Int := sext 8 (bits w (232 + 56 * l + 7) (232 + 56 * l))
def walkEfmt (w : Nat) : Nat := bits w 93 92
def walkSlv (w : Nat) : Bool := bit w 91
def walkTrans (w : Nat) : Bool := bit w 90

/-- Element size of EFMT: BS8 1, BS16 2, FP32 4, BF16 2. -/
def efmtSize (f : Nat) : Nat := if f = 0 then 1 else if f = 2 then 4 else 2

def sumI : List Int → Int
  | [] => 0
  | x :: xs => x + sumI xs

/-- R92: address(w, i). -/
def walkAddr (w : Nat) (i : List Nat) : Bool × Int :=
  let ix := (upTo 5).map (fun l => (l, (i.getD l 0 : Int)))
  let x := sumI (ix.map (fun p => p.2 * walkXc w p.1)) - bits w 109 102
  let y := sumI (ix.map (fun p => p.2 * walkYc w p.1)) - bits w 101 94
  let valid := decide (0 ≤ x) && decide (x < (bits w 181 166 : Int)) && decide (0 ≤ y) && decide (y < (bits w 165 150 : Int))
  let addr := (bits w 231 207 : Int) + sumI (ix.map (fun p => p.2 * walkStride w p.1)) + x * bits w 149 134 + y * bits w 133 110
  (valid, addr)

/-- R92: step the outer levels from level l: the counter of a full level below 4 returns to 0 and carries. -/
def walkCarry (w : Nat) : Nat → Nat → List Nat → List Nat
  | 0, _, i => i
  | fuel + 1, l, i =>
    if 4 < l then i
    else
      let v := i.getD l 0 + 1
      if v = walkCount w l ∧ l < 4 then walkCarry w fuel (l + 1) (i.set l 0) else i.set l v

/-- The counters after one slice. -/
def walkStep (w : Nat) (i : List Nat) : List Nat := walkCarry w 5 (if walkSlv w then 2 else 1) i

/-- R94: the conditions of a stored walk. -/
def walkStored (w : Nat) : Bool :=
  let f := walkEfmt w
  !walkSlv w && !walkTrans w && decide (walkCount w 0 = 128) && decide (walkStride w 0 = efmtSize f) &&
  (upTo 5).all (fun l => decide (walkXc w l = 0) && decide (walkYc w l = 0)) &&
  decide (bits w 109 102 = 0) && decide (bits w 101 94 = 0) && decide (1 ≤ bits w 181 166) && decide (1 ≤ bits w 165 150)

/-- One presented slice: the mantissas of 128 rows and the exponent, with the encoder's counts, or the error code of R110. -/
inductive SliceRes
  | ok (s : Slice) (n : Counts)
  | err (code : Nat)
  deriving DecidableEq, Repr

/-- R92 to R94, R49: the next slice of a walk for a tile with `k` live rows, presented as AFMT asks. -/
def Dev.nextSlice (d : Dev) (c : Nat) (w : Walk) (k afmt : Nat) : SliceRes :=
  let f := walkEfmt w.desc
  if f < 2 ∧ walkStored w.desc = false then .err 7
  else if walkCount w.desc 4 ≤ w.i.getD 4 0 then .err 6
  else if f < 2 then
    let sz := if f = 0 then 128 else 256
    let a := (walkAddr w.desc w.i).2
    let base : Int := bits w.desc 231 207
    if (a - base) % sz ≠ 0 then .err 7
    else
      let ea := (bits w.desc 206 182 : Int) + (a - base) / sz
      if a < 0 ∨ (csSize : Int) < a + sz ∨ ea < 0 ∨ (csSize : Int) ≤ ea then .err 5
      else
        let m := (upTo 128).map (fun r =>
          if f = 0 then sext 8 (d.csNat c (a.toNat + r) 1) else sext 16 (d.csNat c (a.toNat + 2 * r) 2))
        .ok { m := m, e := d.csNat c ea.toNat 1 } {}
  else
    let c0 := walkCount w.desc 0
    let sz := efmtSize f
    let cell := fun r =>
      let j0 := r % c0
      let j1 := r / c0
      let inside := if walkSlv w.desc then decide (j1 < walkCount w.desc 1) else decide (j1 = 0)
      let i := if walkSlv w.desc then (w.i.set 0 j0).set 1 j1 else w.i.set 0 j0
      let va := walkAddr w.desc i
      if inside && decide (r < k) && va.1 then some va.2 else none
    let cells := (upTo 128).map cell
    if cells.any (fun x => match x with
        | some a => decide (a < 0) || decide ((csSize : Int) < a + sz)
        | none => false) then .err 5
    else
      let vals := cells.map (fun x => match x with
        | some a => if f = 2 then d.csNat c a.toNat 4 else bf16Wide (d.csNat c a.toNat 2)
        | none => 0)
      let e := encodeBs vals (if afmt = 1 then 8 else 16)
      .ok e.1 e.2

/-! ### PASS fields (R100) -/

def passWsrc (x : Nat) : Nat := bits x 511 487
def passWsrcB (x : Nat) : Nat := bits x 486 462
def passPsrc (x : Nat) : Nat := bits x 461 437
def passPsrcB (x : Nat) : Nat := bits x 436 412
def passBsrc (x : Nat) : Nat := bits x 411 387
def passBsrcB (x : Nat) : Nat := bits x 386 362
def passDst (x : Nat) : Nat := bits x 361 337
def passExpdst (x : Nat) : Nat := bits x 336 312
def passStep (x : Nat) : Int := sext 20 (bits x 311 292)
def passOstride (x : Nat) : Nat := bits x 291 275
def passTiles (x : Nat) : Nat := bits x 274 259
def passNlive (x : Nat) : Nat := bits x 258 252 + 1
def passKlast (x : Nat) : Nat := bits x 251 245 + 1
def passLoop (x : Nat) : Nat := bits x 244 243
def passWalk (x : Nat) : Nat := bits x 242 241
def passLctx (x : Nat) : Nat := bits x 240 239
def passWcode (x : Nat) : Nat := bits x 238 236
def passAfmt (x : Nat) : Nat := bits x 235 234
def passOfmt (x : Nat) : Nat := bits x 233 231
def passArrays (x : Nat) : Nat := bits x 230 227
def passPair (x : Nat) : Bool := bit x 226
def passRipple (x : Nat) : Bool := bit x 225
def passBias (x : Nat) : Bool := bit x 224

/-- Weight width b of WCODE (R43). -/
def wcodeBits (w : Nat) : Nat := [1, 2, 3, 4, 6, 8].getD w 8

/-- The named arrays in ascending number (R88). -/
def passNamed (x : Nat) : List Nat := maskBits 4 (passArrays x)

/-- R44, R65: the weight code of row r, column c: bits 0 to b − 1 of its active register. -/
def ArrSt.weight (a : ArrSt) (b r c : Nat) : Nat :=
  ((upTo b).map (fun j => if bit (Tab.get 0 a.active (2048 * j + 16 * r + c / 8)).toNat (c % 8) then 2 ^ j else 0)).foldl (· + ·) 0

/-- R51, R67: the 128 column registers, of 40 bits, after a slice has passed the active tile, whose live rows are 0 to k − 1 and live
columns 0 to n − 1. -/
def ArrSt.products (a : ArrSt) (b k n : Nat) : List Int :=
  let rows := (upTo k).map (fun r => (r, a.row.getD r 0))
  (upTo 128).map (fun c => if c < n then sext 40 (wrapI 40 (sumI (rows.map (fun rm => rm.2 * a.weight b rm.1 c)))) else 0)

/-- The column registers of the last vector. -/
def ArrSt.cols (a : ArrSt) : List Int := if a.sel then a.col1 else a.col0

/-- R51: the row sum over the live rows. -/
def rowSum (k : Nat) (m : List Int) : Int := sumI (m.take k)

/-- R101, R45: the tile base and the record base of tile t for array number `arr` of a pass. -/
def passTileBase (x arr t : Nat) : Nat :=
  (if passPair x ∧ 2 ≤ arr then passWsrcB x else passWsrc x) + t * wcodeBits (passWcode x) * 2048

def passRecBase (x arr t : Nat) : Nat := (if passPair x ∧ 2 ≤ arr then passPsrcB x else passPsrc x) + 768 * t

/-- R53: the accumulators of array `arr` at the start of a pass. -/
def Dev.biasBank (d : Dev) (core x arr : Nat) : List Nat :=
  let b := if passPair x ∧ 2 ≤ arr then passBsrcB x else passBsrc x
  (upTo 128).map (fun c => if passBias x then d.csNat core (b + 4 * c) 4 else 0)

/-- A little-endian number of `n` bytes at an offset of a list. -/
def natAt (bs : List Byte) (o n : Nat) : Nat := leNat ((bs.drop o).take n)

/-- R52, R53: convert a held vector, whose column registers are `regs` and whose parameter record is bound to them, and add it into its
bank; gated columns keep theirs (R75). -/
def HeldVec.convert (h : HeldVec) (x : Nat) (regs : List Int) (bank : List Nat) : List Nat × Nat :=
  let r := (upTo 128).map (fun c =>
    let acc := bank.getD c 0
    if c < passNlive x then
      let v := edgeTile (regs.getD c 0) h.s (natAt h.par (512 + 2 * c) 2) (natAt h.par (4 * c) 4) h.e (if h.bs16 then 16 else 8)
      let a := fAdd acc v.1
      (a.1, b2n v.2 + b2n a.2)
    else (acc, 0))
  (r.map (fun p => p.1), (r.map (fun p => p.2)).foldl (· + ·) 0)

/-- Array a of a core. -/
def Core.arrAt (x : Core) (a : Nat) : ArrSt := Tab.get {} x.arr a

/-- Convert every held vector of a running pass of core x. -/
def Core.convertAll (x : Core) (p : PassRun) : PassRun × Nat :=
  if p.held = [] then (p, 0)
  else
    let r := ((passNamed p.desc).zip (p.held.zip p.bank)).map (fun a => a.2.1.convert p.desc (x.arrAt a.1).cols a.2.2)
    ({ p with bank := r.map (fun a => a.1), held := [] }, (r.map (fun a => a.2)).foldl (· + ·) 0)

/-! ### The shadow and the swap (R69, R70, R73, R76) -/

/-- The tile that the next swap or front of array a makes active: the running pass's next one, or once that pass has taken its last, the
first of the pending PASS (R96). A pass without tiles has none (R76). -/
def Core.dueTile (x : Core) (a : Nat) : Option (Nat × Nat) :=
  let first := match x.pend with
    | some q => if bit (passArrays q.desc) a && decide (0 < passTiles q.desc) then some (q.desc, 0) else none
    | none => none
  match x.run with
  | some p => if bit (passArrays p.desc) a && decide (p.tile < passTiles p.desc) then some (p.desc, p.tile) else first
  | none => first

/-- R65, R69: the fill path writes planes 0 to b − 1 of the tile into the shadow registers, in plane order, and the parameter path its
768-byte record; the bits from b on stay. -/
def Dev.fillTile (d : Dev) (c : Nat) (a : ArrSt) (arr desc t : Nat) : ArrSt :=
  { a with shadow := Tab.copyIn 0 a.shadow 0 (2048 * wcodeBits (passWcode desc)) d.mem.cs (c * 2 ^ 25 + passTileBase desc arr t),
           srec := d.csRead c (passRecBase desc arr t) 768, full := true }

/-- The fill of the listed arrays' shadows with the tiles due (log 114: a fill ends within the step that lets it begin). -/
def Dev.fill (d : Dev) (c : Nat) : List Nat → Dev
  | [] => d
  | a :: as =>
    let x := d.coreAt c
    (match (x.arrAt a).full, x.dueTile a with
     | false, some (desc, t) => d.coreSet c { x with arr := Tab.set {} x.arr a (d.fillTile c (x.arrAt a) a desc t) }
     | _, _ => d).fill c as

/-- The shadows of the arrays in a mask are discarded (R80, R83). -/
def Core.dropShadow (x : Core) (mask : Nat) : Core :=
  { x with arr := Tab.mapAll {} x.arr (fun a y => if bit mask a then { y with shadow := [], srec := [], full := false } else y) }

/-- R65, R67, R70: the pending tile's planes 0 to b − 1 become active, the row registers take the slice, and the set of column registers
that the last vector did not use takes this vector's sums. -/
def ArrSt.swap (a : ArrSt) (b k n : Nat) (m : List Int) : ArrSt :=
  let a1 := { a with active := Tab.copyIn 0 a.active 0 (2048 * b) a.shadow 0, full := false, row := m, sel := !a.sel }
  let v := a1.products b k n
  if a1.sel then { a1 with col1 := v } else { a1 with col0 := v }

/-- The slices of one tile, dealt to the named arrays in ascending number (R88): mantissas in order, the walk after them. -/
def Dev.dealSlices (d : Dev) (core k afmt : Nat) : Nat → Walk → List Slice → Counts → Except Nat (List Slice × Walk × Counts)
  | 0, w, acc, n => .ok (acc.reverse, w, n)
  | m + 1, w, acc, n =>
    match d.nextSlice core w k afmt with
    | .err e => .error e
    | .ok s t => d.dealSlices core k afmt m { w with i := walkStep w.desc w.i } (s :: acc) (n.add t)

/-- Swap the listed arrays, each with its slice. -/
def swapArrays (t : Tab ArrSt) (b k n : Nat) : List (Nat × Slice) → Tab ArrSt
  | [] => t
  | (a, s) :: r => swapArrays (Tab.set {} t a ((Tab.get {} t a).swap b k n s.m)) b k n r

/-- R70, R73, R88: the pending tile of every named array becomes active and its vector is presented: the previous vector's conversion
and add complete, and the new vector's column registers, row sum and exponent are formed, with the swapped record bound to them. What
happened in the slices of a tile that then stops the program counts nowhere (log 115). -/
def Dev.presentTile (d : Dev) (c : Nat) (p : PassRun) (w : Walk) : Except Nat (Dev × PassRun) :=
  let x := p.desc
  let k := if p.tile + 1 = passTiles x then passKlast x else 128
  let named := passNamed x
  match d.dealSlices c k (passAfmt x) named.length w [] {} with
  | .error e => .error e
  | .ok (ss, w', n) =>
    let y := d.coreAt c
    let cv := y.convertAll p
    let bs16 := if passAfmt x = 0 then decide (walkEfmt w.desc = 1) else decide (passAfmt x = 2)
    let held := (named.zip ss).map (fun a =>
      ({ par := (y.arrAt a.1).srec, e := a.2.e, s := rowSum k a.2.m, bs16 := bs16, tile := p.tile } : HeldVec))
    let d1 := (d.tally c { n with ovf := n.ovf + cv.2 }).coreUpd c (fun y => { y with
      walks := Tab.set none y.walks (passWalk x) (some w'),
      arr := swapArrays y.arr (wcodeBits (passWcode x)) k (passNlive x) (named.zip ss) })
    .ok (d1, { cv.1 with held := held, tile := p.tile + 1 })

/-! ### Link transfers in core store (R57 to R59, R103, R113) -/

/-- Payload bytes of a transfer, padded to 64 (R59). -/
def qlPayload (code n : Nat) : Nat := roundUp ((n * qlBits code + 7) / 8) 64

/-- Side-list bytes, padded to 64; none when CAP is 0 (R59). -/
def qlSide (cap : Nat) : Nat := if cap = 0 then 0 else roundUp (16 + 8 * cap) 64

def qlSize (code n cap : Nat) : Nat := qlPayload code n + qlSide cap

/-- The 16-byte side-list header (R59). -/
def qlHeader (code cap cnt sat escFull nan : Nat) : List Byte :=
  leBytes 16 (2 ^ 24 * (if code = 0 then 4 else 8) + 2 ^ 32 * cnt + 2 ^ 48 * cap + 2 ^ 64 * stick32 sat +
    2 ^ 96 * stick 0xFFFF escFull + 2 ^ 112 * stick 0xFFFF nan)

/-- The group record of element i (R57). -/
def parOfBytes (bs : List Byte) : QlPar :=
  let v := leNat bs
  { g := bits v 31 0, zq := bits v 39 32, rsv := bits v 63 40 }

/-- The group number of element i: (i mod C) div G (R57). -/
def qlGroup (cch g i : Nat) : Nat := (i % cch) / g

/-- The bytes of a payload of codes (R59): QL4 packs element 2k low and 2k + 1 high. -/
def packQl (code : Nat) : List Nat → List Byte
  | [] => []
  | [u] => [BitVec.ofNat 8 u]
  | u :: v :: rest =>
    if code = 0 then BitVec.ofNat 8 (u + 16 * v) :: packQl code rest
    else BitVec.ofNat 8 u :: packQl code (v :: rest)

/-- Encode a list of binary32 values starting at element index i: codes newest last, the side list, the counts. -/
def encodeQlList (n cap cch g : Nat) (par : Nat → QlPar) : Nat → Nat → List Nat → List Nat × List (Nat × Nat) × Counts
  | _, _, [] => ([], [], {})
  | i, cnt, x :: xs =>
    let r := encodeQl1 n cap cnt i (par (qlGroup cch g i)) x
    let cnt' := if r.2.1.isSome then cnt + 1 else cnt
    let rest := encodeQlList n cap cch g par (i + 1) cnt' xs
    (r.1 :: rest.1, (match r.2.1 with | some e => e :: rest.2.1 | none => rest.2.1), r.2.2.add rest.2.2)

/-- The 8 bytes of a side-list entry (R59). -/
def sideEntry (e : Nat × Nat) : List Byte := leBytes 4 e.1 ++ leBytes 2 e.2 ++ leBytes 2 0

/-- R60: decode a transfer: codes, side entries, from element i and escape number k: values and LINKERR elements. -/
def decodeQlList (n cch g : Nat) (par : Nat → QlPar) (cnt : Nat) (side : Nat → Nat × Nat) :
    Nat → Nat → List Nat → List Nat × Nat × Nat
  | _, _, [] => ([], 0, 0)
  | i, k, u :: us =>
    if u = 2 ^ n - 1 then
      let e := side k
      let bad := decide (cnt ≤ k) || decide (e.1 ≠ i)
      let rest := decodeQlList n cch g par cnt side (i + 1) (k + 1) us
      ((if bad then nan32 else bf16Zero e.2) :: rest.1, b2n bad + rest.2.1, rest.2.2)
    else
      let v := decodeQl (par (qlGroup cch g i)) u
      let rest := decodeQlList n cch g par cnt side (i + 1) k us
      (v.1 :: rest.1, rest.2.1, b2n v.2 + rest.2.2)

/-- The codes of a payload. -/
def unpackQl (code : Nat) (bs : List Byte) (n : Nat) : List Nat :=
  (upTo n).map (fun i => if code = 0 then bits ((bs.getD (i / 2) 0).toNat) (4 * (i % 2) + 3) (4 * (i % 2))
                         else (bs.getD i 0).toNat)

/-- Write one element's code into the payload at `base` of core store c. -/
def Dev.putCode (d : Dev) (c base code i u : Nat) : Dev :=
  if code = 0 then
    let old := d.csNat c (base + i / 2) 1
    d.csWrite c (base + i / 2) [BitVec.ofNat 8 (putBits old (4 * (i % 2) + 3) (4 * (i % 2)) u)]
  else d.csWrite c (base + i) [BitVec.ofNat 8 u]

def Dev.putCodes (d : Dev) (c base code : Nat) : Nat → List Nat → Dev
  | _, [] => d
  | i, u :: us => (d.putCode c base code i u).putCodes c base code (i + 1) us

def Dev.putSides (d : Dev) (c base : Nat) : Nat → List (Nat × Nat) → Dev
  | _, [] => d
  | k, e :: es => (d.csWrite c (base + 16 + 8 * k) (sideEntry e)).putSides c base (k + 1) es

/-- R113: append a pass's elements to a link context: the codes, the side entries and the header in core store, the counts of
the core. An error code when the append passes N − 1 or uses an invalid group record. -/
def Dev.linkAppend (d : Dev) (c lc : Nat) (xs : List Nat) : Except Nat Dev :=
  match Tab.get none (d.coreAt c).links lc with
  | none => .error 8
  | some l =>
    let nb := qlBits l.code
    let par := fun gi => parOfBytes (d.csRead c (l.gbase + 8 * gi) 8)
    if l.n < l.next + xs.length then .error 8
    else if (xs.zip (upTo xs.length)).any (fun p => !(par (qlGroup l.c l.g (l.next + p.2))).ok nb) then .error 3
    else
      let r := encodeQlList nb l.cap l.c l.g par l.next l.count xs
      let sb := l.pbase + qlPayload l.code l.n
      let l' := { l with next := l.next + xs.length, count := l.count + r.2.1.length, sat := l.sat + r.2.2.sat,
                         escFull := l.escFull + r.2.2.escFull, nan := l.nan + r.2.2.nan }
      let d1 := (d.putCodes c l.pbase l.code l.next r.1).putSides c sb l.count r.2.1
      let d2 := if 0 < l.cap then d1.csWrite c sb (qlHeader l.code l.cap l'.count l'.sat l'.escFull l'.nan) else d1
      .ok ((d2.coreUpd c (fun y => { y with links := Tab.set none y.links lc (some l') })).tally c r.2.2)

/-! ### Emit (R55, R101, R111) -/

/-- The live accumulators of one array. -/
def liveCols (x : Nat) (bank : List Nat) : List Nat := bank.take (passNlive x)

/-- Write the output of the named array of rank j. -/
def Dev.emitArray (d : Dev) (c : Nat) (p : PassRun) (j : Nat) (bank : List Nat) : Dev :=
  let x := p.desc
  let a := (p.dst + j * passOstride x).toNat
  let live := liveCols x bank
  match passOfmt x with
  | 0 => d.csWrite c a (live.flatMap (fun v => leBytes 4 v))
  | 1 =>
    let r := live.map bf16Of
    (d.csWrite c a (r.flatMap (fun v => leBytes 2 v.1))).tally c { ovf := (r.filter (fun v => v.2)).length }
  | _ =>
    let e := encodeBs (live ++ (upTo (128 - live.length)).map (fun _ => 0)) 8
    let d1 := d.csWrite c a ((e.1.m.take live.length).map (fun m => BitVec.ofNat 8 (wrapI 8 m)))
    (d1.csWrite c (p.expdst + j * (passOstride x / 128)).toNat [BitVec.ofNat 8 e.1.e]).tally c e.2

def Dev.emitArrays (d : Dev) (c : Nat) (p : PassRun) : Nat → List (List Nat) → Dev
  | _, [] => d
  | j, b :: bs => (d.emitArray c p j b).emitArrays c p (j + 1) bs

/-- The whole drain of a pass: every named array in ascending number. -/
def Dev.emitPass (d : Dev) (c : Nat) (p : PassRun) : Except Nat Dev :=
  if passOfmt p.desc = 3 then d.linkAppend c (passLctx p.desc) (p.bank.flatMap (liveCols p.desc))
  else .ok (d.emitArrays c p 0 p.bank)

end Sys2Proof
end

