-- ==== Sys2Proof/Machine/TensorSeq.lean ====
section
/-! DEFINITION. The sequencer of a tensor core: fetching and carrying out each descriptor (R96 to R110), the events of the
arrays, the move engine, queue waits and lock retries (R70, R73, R83, R106, R108, R111, R114). -/

namespace Sys2Proof

/-- R97, R152: every earlier descriptor of the core is complete, and no effect that follows a post is outstanding. -/
def Core.quiet (x : Core) : Bool :=
  x.run.isNone && x.pend.isNone && decide (x.emit = []) && decide (x.moves = []) && decide (x.defer = []) &&
  x.links.all (fun kv => match kv.2 with | some l => l.ready | none => true)

/-- The issued PASSes of a core that are not complete. -/
def Core.passes (x : Core) : List PassRun := x.run.toList ++ x.pend.toList ++ x.emit

/-- R96: is a PASS or MOVE that uses the walk (link) context issued and not complete? -/
def Core.usesWalk (x : Core) (k : Nat) : Bool := x.passes.any (fun p => decide (0 < passTiles p.desc) && decide (passWalk p.desc = k))

def Core.usesLink (x : Core) (k : Nat) : Bool :=
  x.passes.any (fun p => decide (passOfmt p.desc = 3) && decide (passLctx p.desc = k)) ||
  x.moves.any (fun m => decide (bits m.desc 385 384 ≠ 0) && decide (bits m.desc 383 382 = k))

/-- The lowest of a list of error codes (R110), if there is one. -/
def lowest : List Nat → Option Nat
  | [] => none
  | e :: es => match lowest es with
    | some f => some (min e f)
    | none => some e

/-- An error code when a condition fails. -/
def errIf (b : Bool) (code : Nat) : List Nat := if b then [code] else []

/-- R96: a fetch whose 64 bytes do not lie in the core store stops the program with error 0x05. No descriptor was read, so the SEQ and
OPCODE of its records are 0, and TEN_PC stays (log 112). -/
def Dev.fetchCheck (d : Dev) (c : Nat) : Dev :=
  if (d.coreAt c).st = .run ∧ csSize < d.pc c + 64 then d.tenFail c 5 (d.pc c) 0 else d

/-- The descriptor has been issued; the sequencer goes on to the next fetch. -/
def Dev.nextPc (d : Dev) (c : Nat) : Dev := (d.coreUpd c (fun x => { x with cur := none })).fetchCheck c

/-- R96: the descriptor at TEN_PC is fetched, and TEN_PC advances by 64; one fetched before stays as it is. -/
def Dev.fetch (d : Dev) (c : Nat) (ecc : Ecc) : Dev :=
  match (d.coreAt c).cur with
  | some _ => d
  | none =>
    let d1 := if ecc = .corrected then d.eccNote c ecc else d
    (d1.coreUpd c (fun x => { x with cur := some (d.pc c, d.csNat c (d.pc c) 64) })).setPc c (d.pc c + 64)

/-- R96, R98, R99, R110: fetch the descriptor at TEN_PC; refuse it, hold it behind its barrier, or carry it out. `rsv` says
whether its own reserved bits are all 0, `errs` the conditions checked at issue. A descriptor of another opcode than `op` is
not this command's: nothing happens. The SEQ and OPCODE of the records of a descriptor that came with an uncorrectable error are 0
(log 112). -/
def Dev.issue (d : Dev) (c op : Nat) (ecc : Ecc) (barrier : Bool) (rsv : Nat → Bool) (errs : Nat → Dev → List Nat)
    (body : Nat → Nat → Dev → Dev) : Dev :=
  let x := d.coreAt c
  if x.st ≠ .run then d
  else
    let pc := d.curPc c
    if csSize < pc + 64 then d.tenFail c 5 pc 0
    else if x.cur = none ∧ ecc = .uncFetch then ((d.eccNote c ecc).setPc c (pc + 64)).tenFail c 0x0B pc 0
    else
      let desc := d.curDesc c
      let o := bits desc 7 0
      if o = 0 ∨ 10 < o then (d.fetch c ecc).tenFail c 1 pc desc
      else if o ≠ op then d
      else if (barrier || bit desc 10) && !x.quiet then d.fetch c ecc
      else
        let d1 := d.fetch c ecc
        let hdr := decide (bits desc 47 12 = 0) && decide (bits desc 9 8 = 0) && rsv desc
        match lowest (errIf (!hdr) 2 ++ errs desc d1) with
        | some e => d1.tenFail c e pc desc
        | none => body desc pc d1

/-! ### PASS -/

/-- Bounds of an address field (R99). -/
def beyond (a len : Nat) : Bool := decide (csSize < a + len)

def beyondI (a : Int) (len : Nat) : Bool := decide (a < 0) || decide ((csSize : Int) < a + len)

/-- R101: the effective output base. -/
def Core.dstEff (x : Core) (desc : Nat) : Int := passDst desc + passStep desc * (x.ctr.getD (passLoop desc) 0 : Int)

def Core.expEff (x : Core) (desc : Nat) : Int := passExpdst desc + (passStep desc * (x.ctr.getD (passLoop desc) 0 : Int)) / 128

/-- Output bytes of one array and the element size (R101). -/
def passOutSize (desc : Nat) : Nat := if passOfmt desc = 0 then 4 else if passOfmt desc = 1 then 2 else 1

/-- R100: the conditions checked when a PASS issues. -/
def passErrs (c desc : Nat) (d : Dev) : List Nat :=
  let x := d.coreAt c
  let t := passTiles desc
  let m := (passNamed desc).length
  let b := wcodeBits (passWcode desc)
  let wmis := match Tab.get none x.walks (passWalk desc) with
    | some w => if passAfmt desc = 0 then decide (1 < walkEfmt w.desc) else decide (walkEfmt w.desc < 2)
    | none => false
  let dst := x.dstEff desc
  let ex := x.expEff desc
  let ost := passOstride desc
  errIf (decide (5 < passWcode desc) || decide (passAfmt desc = 3) || decide (3 < passOfmt desc) ||
         decide (passArrays desc = 0) || wmis) 3 ++
  errIf (decide (0 < t) && (decide (passWsrc desc % 64 ≠ 0) || decide (passPsrc desc % 64 ≠ 0)) ||
         decide (0 < t) && passPair desc && (decide (passWsrcB desc % 64 ≠ 0) || decide (passPsrcB desc % 64 ≠ 0)) ||
         passBias desc && decide (passBsrc desc % 64 ≠ 0) ||
         passBias desc && passPair desc && decide (passBsrcB desc % 64 ≠ 0) ||
         decide (passOfmt desc ≠ 3) && (decide (passDst desc % passOutSize desc ≠ 0) || decide (ost % passOutSize desc ≠ 0)) ||
         decide (passOfmt desc = 2) && decide (ost % 128 ≠ 0)) 4 ++
  errIf (decide (0 < t) && (beyond (passWsrc desc) (t * b * 2048) || beyond (passPsrc desc) (768 * t)) ||
         decide (0 < t) && passPair desc && (beyond (passWsrcB desc) (t * b * 2048) || beyond (passPsrcB desc) (768 * t)) ||
         passBias desc && beyond (passBsrc desc) 512 ||
         passBias desc && passPair desc && beyond (passBsrcB desc) 512 ||
         decide (passOfmt desc ≠ 3) && (upTo m).any (fun j => beyondI (dst + j * ost) (passNlive desc * passOutSize desc)) ||
         decide (passOfmt desc = 2) && (upTo m).any (fun j => beyondI (ex + j * (ost / 128)) 1)) 5 ++
  errIf (decide ((upTo 4).any (fun a => bit (passArrays desc) a && !wbit (d.rd (tenReg c 0x28)) a))) 0x0D

/-- A pass enters the arrays: its staged bias goes into the working banks (R53, R76, R112) and its first tile into the shadows (R69);
an empty walk or link context stops it with 0x06 or 0x08 (R93, R103). -/
def Dev.startPass (d : Dev) (c : Nat) (p : PassRun) : Dev :=
  let x := d.coreAt c
  let w := Tab.get none x.walks (passWalk p.desc)
  if 0 < passTiles p.desc ∧ w = none then (d.coreSet c { x with run := none }).tenFail c 6 p.pc p.desc
  else if passOfmt p.desc = 3 ∧ Tab.get none x.links (passLctx p.desc) = none then
    (d.coreSet c { x with run := none }).tenFail c 8 p.pc p.desc
  else
    (d.coreSet c { x with run := some { p with
      started := true, tile := 0, held := [], walk0 := match w with | some v => v.i | none => [] } }).fill c (upTo 4)

/-- The pending PASS becomes the running one. -/
def Dev.promote (d : Dev) (c : Nat) : Dev :=
  let x := d.coreAt c
  match x.run, x.pend with
  | none, some p => (d.coreSet c { x with pend := none, run := some p }).startPass c p
  | _, _ => d

/-! ### Array faults (R83, R84) -/

/-- The core is reported faulted: its array work stops and STATE is FAULTED. -/
def Dev.coreFault (d : Dev) (c : Nat) : Dev :=
  ((d.unwait c).coreUpd c (fun x => { x with st := .faulted, run := none, pend := none, waiting := none, cur := none })).event
    (tenReg c 0x10) 4

/-- R83: an array fault. With a pass running on the array it abandons the pass, which restarts from its first tile and its bias; in
the re-run of a pass it takes the core out; with none it discards the shadow and counts, and the fill path loads the pending tile again
before its swap. R84: before a freeze completes, the pass is left marked to be re-run. -/
def Dev.arrayFault (d : Dev) (c arr col : Nat) : Dev :=
  let d1 := d.count (tenReg c 0x60 + 4 * arr) 1
  let x := d1.coreAt c
  let det := c + 256 * arr + 65536 * col
  match x.run with
  | some p =>
    if p.started && bit (passArrays p.desc) arr then
      if p.rerun then (d1.coreFault c).report 2 0x201 2 (d.corePtn c) det
      else
        let p' := { p with rerun := true, tile := 0, held := [], bank := (passNamed p.desc).map (fun a => d.biasBank c p.desc a) }
        let w' := match Tab.get none x.walks (passWalk p.desc) with
          | some w => if p.walk0 = [] then x.walks else Tab.set none x.walks (passWalk p.desc) (some { w with i := p.walk0 })
          | none => x.walks
        ((((d1.coreSet c { x.dropShadow (passArrays p.desc) with run := some p', walks := w' }).fill c (upTo 4))).event (tenReg c 0x10) 3).report
          2 0x200 1 (d.corePtn c) det
    else ((d1.coreSet c (x.dropShadow (2 ^ arr))).event (tenReg c 0x10) 3).report 2 0x200 1 (d.corePtn c) (det + 2 ^ 24)
  | none => ((d1.coreSet c (x.dropShadow (2 ^ arr))).event (tenReg c 0x10) 3).report 2 0x200 1 (d.corePtn c) (det + 2 ^ 24)

/-- R83, R91: an array fault with its cause: an uncorrectable error of the core store in an operand counts in TEN_ECCUNC as well. -/
def Dev.arrayFaultBy (d : Dev) (c arr col : Nat) (ecc : Bool) : Dev :=
  (if ecc then d.eccNote c .uncFetch else d).arrayFault c arr col

/-- R103: a PASS that drains to a link context waits for that context's LINK. -/
def Core.linkBusy (x : Core) (desc : Nat) : Bool :=
  decide (passOfmt desc = 3) && (match Tab.get none x.links (passLctx desc) with | some l => !l.ready | none => false)

/-- The PASS runs, or waits behind the one that runs with its bias staged and its first tile filled as soon as a shadow is free (R96,
R112). -/
def Dev.passTaken (d : Dev) (c desc pc : Nat) : Dev :=
  let x := d.coreAt c
  let p : PassRun := { desc := desc, pc := pc, dst := x.dstEff desc, expdst := x.expEff desc,
                       bank := (passNamed desc).map (fun a => d.biasBank c desc a) }
  if x.run.isSome then (d.coreSet c { x with pend := some p }).fill c (upTo 4) else (d.coreSet c { x with run := some p }).startPass c p

/-- R83, R91: what the core store's check of the weights, records, bias or slices of a pass met: counted, and an uncorrectable error is
an array fault. A command that does not name the array and column it was delivered to gives the first named array and column 0
(log 116). -/
def Dev.operandEcc (d : Dev) (c desc : Nat) (ecc : Ecc) : Dev :=
  if ecc.unc then (d.eccNote c ecc).arrayFault c ((passNamed desc).headD 0) 0 else d.eccNote c ecc

/-- The part of a descriptor's check result that its operands met. -/
def Ecc.data : Ecc → Ecc
  | .uncData n => .uncData n
  | .corData => .corData
  | _ => .none

/-- R96, R100: PASS. A double-bit error in its operands is an array fault (R91). -/
def Dev.doPass (d : Dev) (c : Nat) (ecc : Ecc) : Dev :=
  d.issue c 1 ecc false (fun x => decide (bits x 223 64 = 0)) (passErrs c) (fun desc pc d1 =>
    let x := d1.coreAt c
    if (x.run.isSome && x.pend.isSome) || x.linkBusy desc then d1
    else
      let d2 := (d1.passTaken c desc pc).operandEcc c desc ecc.data
      if (d2.coreAt c).st = .run then d2.nextPc c else d2)

/-! ### The array unit -/

/-- May the issued passes of a core go on (R80: not from a freeze on; R110: they do in ERROR)? -/
def CoreSt.working : CoreSt → Bool
  | .run | .wait | .error => true
  | _ => false

/-- R70, R73: the pending tile becomes active, by swap or by front, and its vector is presented. A shadow that is not complete first
completes its fill, for the array holds until it does; the fill of the next tile begins behind the swap, or behind the front once it has
read column 127. `ecc` is what the operands met (R91). -/
def Dev.tileChange (d : Dev) (c : Nat) (ripple : Bool) (ecc : Ecc) : Dev :=
  let x := d.coreAt c
  match x.run with
  | some p =>
    if x.st.working && p.started && decide (passRipple p.desc = ripple) && decide (p.tile < passTiles p.desc) then
      match Tab.get none x.walks (passWalk p.desc) with
      | none => d
      | some w =>
        let d0 := d.fill c (passNamed p.desc)
        if ecc.unc then d0.operandEcc c p.desc ecc
        else match (d0.eccNote c ecc).presentTile c p w with
        | .ok (d1, p') => ((d1.coreUpd c (fun y => { y with run := some p' })).fill c (upTo 4)).bankStalls c
        | .error e => ((d.coreSet c { x with run := none }).tenFail c e p.pc p.desc).promote c
    else d
  | none => d

/-- R68, R111, R112: after the last tile the held results are added and the banks exchange; the drain begins, and the pending
PASS starts. The exchange waits for a drain of the same array. -/
def Dev.bankExchange (d : Dev) (c : Nat) : Dev :=
  let x := d.coreAt c
  match x.run with
  | some p =>
    let busy := x.emit.any (fun e => (upTo 4).any (fun a => bit (passArrays e.desc) a && bit (passArrays p.desc) a))
    if x.st.working && p.started && decide (p.tile = passTiles p.desc) && !busy then
      let cv := x.convertAll p
      ((d.tally c { ovf := cv.2 }).coreUpd c (fun y => { y with run := none, emit := y.emit ++ [cv.1] })).promote c
    else d
  | none => d

/-- R111, R113: the last drain write of the oldest draining pass is accepted: its outputs stand in core store and the pass
completes; an append out of range stops the program and appends nothing. -/
def Dev.passCommit (d : Dev) (c : Nat) : Dev :=
  let x := d.coreAt c
  match x.emit with
  | [] => d
  | p :: rest =>
    if x.st = .saved ∨ x.st = .faulted then d
    else
      let d0 := d.coreSet c { x with emit := rest }
      match d0.emitPass c p with
      | .ok d1 => d1.complete c p.desc p.pc true (decide (passTiles p.desc = 0))
      | .error e => d0.tenFail c e p.pc p.desc

/-- R114: an error on the emit path repeats the array's drain; a second one faults the core and the pass never commits. -/
def Dev.emitError (d : Dev) (c arr : Nat) : Dev :=
  let x := d.coreAt c
  match x.emit with
  | [] => d
  | p :: rest =>
    if bit (passArrays p.desc) arr then
      let det := c + 256 * arr
      if bit p.redrain arr then
        ((d.coreSet c { x with emit := rest }).coreFault c).report 2 0x203 2 (d.corePtn c) det
      else
        (d.coreSet c { x with emit := { p with redrain := setBit p.redrain arr } :: rest }).report 2 0x202 1 (d.corePtn c) det
    else d

/-! ### WALK and LINK -/

def walkErrs (desc : Nat) (_ : Dev) : List Nat :=
  let f := walkEfmt desc
  let sz := efmtSize f
  let c0 := walkCount desc 0
  let c1 := walkCount desc 1
  let badT := walkTrans desc && decide (2 ≤ f) &&
    (walkSlv desc || decide (walkStride desc 1 ≠ sz) || decide (walkXc desc 0 ≠ 0) || decide (walkYc desc 0 ≠ 0) ||
     decide (walkXc desc 1 ≠ 0) || decide (walkYc desc 1 ≠ 0) || decide (65536 < c0 * c1 * sz))
  errIf ((upTo 5).any (fun l => decide (walkCount desc l = 0)) || decide (128 < c0) ||
         (walkSlv desc && decide (128 < c0 * c1)) || badT) 3 ++
  errIf (beyond (bits desc 231 207) 1 || (decide (f < 2) && beyond (bits desc 206 182) 1)) 5 ++
  errIf (decide (f < 2) && !(walkStored desc && (upTo 4).all (fun l => decide (walkCount desc (l + 1) ≤ 1) || decide (walkStride desc (l + 1) % (128 * sz) = 0)))) 7

/-- R102, R94, R95: WALK loads a context and clears its counters; it waits while an issued PASS uses the context. -/
def Dev.doWalk (d : Dev) (c : Nat) (ecc : Ecc) : Dev :=
  d.issue c 2 ecc false (fun x => decide (bits x 89 66 = 0)) walkErrs (fun desc pc d1 =>
    let k := bits desc 65 64
    if (d1.coreAt c).usesWalk k then d1
    else ((d1.coreUpd c (fun x => { x with walks := Tab.set none x.walks k (some { desc := desc, i := [0, 0, 0, 0, 0] }) })).complete
            c desc pc false false).nextPc c)

def linkG (desc : Nat) : Nat := 16 * 2 ^ bits desc 421 420

def linkErrs (desc : Nat) (_ : Dev) : List Nat :=
  let n := bits desc 461 438
  let cc := bits desc 437 422
  let cap := bits desc 419 407
  let code := bits desc 406 406
  errIf (decide (n = 0) || decide (cc = 0) || decide (4096 < cap)) 3 ++
  errIf (decide (bits desc 511 487 % 64 ≠ 0) || decide (bits desc 486 462 % 8 ≠ 0)) 4 ++
  errIf (beyond (bits desc 511 487) (qlSize code n cap) ||
         beyond (bits desc 486 462) (8 * ((cc + linkG desc - 1) / linkG desc))) 5

/-- R103: LINK opens a transfer context; the zeroing and the header write complete it later. -/
def Dev.doLink (d : Dev) (c : Nat) (ecc : Ecc) : Dev :=
  d.issue c 3 ecc false (fun x => decide (bits x 405 66 = 0)) linkErrs (fun desc pc d1 =>
    let k := bits desc 65 64
    let busy := match Tab.get none (d1.coreAt c).links k with | some l => !l.ready | none => false
    if (d1.coreAt c).usesLink k || busy then d1
    else
      let l : LinkCtx := { code := bits desc 406 406, n := bits desc 461 438, c := bits desc 437 422, g := linkG desc,
                           cap := bits desc 419 407, pbase := bits desc 511 487, gbase := bits desc 486 462,
                           seq := bits desc 63 48, ctch := bit desc 11, pc := pc }
      (d1.coreUpd c (fun x => { x with links := Tab.set none x.links k (some l) })).nextPc c)

/-- R103: the zeroing of the transfer and the header write are accepted: the LINK is complete. -/
def Dev.linkComplete (d : Dev) (c k : Nat) : Dev :=
  match Tab.get none (d.coreAt c).links k with
  | some l =>
    if l.ready then d
    else
      let lo := c * 2 ^ 25 + l.pbase
      let hi := lo + qlSize l.code l.n l.cap
      let d1 := { d with mem := { d.mem with cs := Tab.keep d.mem.cs (fun a _ => !(decide (lo ≤ a) && decide (a < hi))) } }
      let d2 := if 0 < l.cap then d1.csWrite c (l.pbase + qlPayload l.code l.n) (qlHeader l.code l.cap 0 0 0 0) else d1
      let d3 := d2.coreUpd c (fun x => { x with links := Tab.set none x.links k (some { l with ready := true }) })
      d3.complete c (3 + 2048 * b2n l.ctch + 2 ^ 48 * l.seq) l.pc false false
  | none => d

/-! ### MOVE (R104, R105) -/

def mvSrcSp (x : Nat) : Nat := bits x 399 398
def mvDstSp (x : Nat) : Nat := bits x 397 396
def mvConv (x : Nat) : Nat := bits x 385 384
def mvClass (x : Nat) : Nat := bits x 381 380
def mvSrc (x : Nat) : Nat := bits x 511 472
def mvDst (x : Nat) : Nat := bits x 471 432

/-- Bytes read and bytes written of a MOVE. -/
def mvLens (desc : Nat) (l : Option LinkCtx) : Nat × Nat :=
  match mvConv desc, l with
  | 1, some l => (4 * l.n, qlSize l.code l.n l.cap)
  | 2, some l => (qlSize l.code l.n l.cap, 4 * l.n)
  | 0, _ => (bits desc 431 400, bits desc 431 400)
  | _, _ => (0, 0)

def moveErrs (c desc : Nat) (d : Dev) : List Nat :=
  let x := d.coreAt c
  let p := d.corePtn c
  let l := Tab.get none x.links (bits desc 383 382)
  let lens := mvLens desc l
  let conv := mvConv desc
  let sc := bits desc 395 391
  let dc := bits desc 390 386
  let out := fun (sp a len : Nat) => if sp = 1 then !d.inShare p a len else beyond a len
  let foreign := fun (sp k : Nat) => decide (sp = 2) && !(match d.ownerOfCore k with | some q => d.sameGang p q | none => false)
  let cross := fun (sp k : Nat) => decide (sp = 1) || (decide (sp = 2) && decide (k / 8 ≠ c / 8))
  errIf (decide (mvSrcSp desc = 3) || decide (mvDstSp desc = 3) || decide (conv = 3) || decide (mvClass desc = 3) ||
         (decide (conv ≠ 0) && decide (mvClass desc ≠ 2))) 3 ++
  errIf (decide (conv = 0) && (decide (mvSrc desc % 64 ≠ 0) || decide (mvDst desc % 64 ≠ 0) || decide (bits desc 431 400 % 64 ≠ 0))) 4 ++
  errIf (out (mvSrcSp desc) (mvSrc desc) lens.1 || out (mvDstSp desc) (mvDst desc) lens.2) 5 ++
  errIf (foreign (mvSrcSp desc) sc || foreign (mvDstSp desc) dc) 9 ++
  errIf (decide (mvClass desc = 1) && decide (conv = 0) && (cross (mvSrcSp desc) sc || cross (mvDstSp desc) dc)) 0x0A

/-- Read a space of a MOVE of core c: its partition's share, or the store of core k or its own. -/
def Dev.spRead (d : Dev) (c sp k a len : Nat) : List Byte :=
  if sp = 1 then d.shRead (d.corePtn c) a len else d.csRead (if sp = 2 then k else c) a len

def Dev.mvRead (d : Dev) (c desc a len : Nat) : List Byte := d.spRead c (mvSrcSp desc) (bits desc 395 391) a len

def Dev.mvWrite (d : Dev) (c desc a : Nat) (bs : List Byte) : Dev :=
  if mvDstSp desc = 1 then d.shWrite (d.corePtn c) a bs
  else d.csWrite (if mvDstSp desc = 2 then bits desc 390 386 else c) a bs

/-- `n` free bytes, and the counter past them. -/
def Dev.freeBytes (d : Dev) (n : Nat) : List Byte × Dev :=
  ((upTo n).map (fun i => BitVec.ofNat 8 (Config.freeValue (d.free + i))), { d with free := d.free + n })

/-- What a MOVE copies in all: bytes, or elements when it encodes or decodes. -/
def mvTotal (desc : Nat) (l : Option LinkCtx) : Nat :=
  match mvConv desc, l with
  | 0, _ => bits desc 431 400
  | _, some l => l.n
  | _, none => 0

/-- The link context a MOVE names. -/
def Core.mvLink (x : Core) (desc : Nat) : Option LinkCtx := Tab.get none x.links (bits desc 383 382)

/-- The group records of a link context (R57). -/
def Dev.groupPar (d : Dev) (c : Nat) (l : LinkCtx) (gi : Nat) : QlPar := parOfBytes (d.csRead c (l.gbase + 8 * gi) 8)

/-- R58: elements `a` to `z` − 1 of an encoding MOVE. The side-list count and the header counts so far stand in the destination's own
header, and the padding behind the payload and the side list is written with the last element (log 117). -/
def Dev.moveEncode (d : Dev) (c desc : Nat) (l : LinkCtx) (a z : Nat) : Dev :=
  let nb := qlBits l.code
  let src := d.mvRead c desc (mvSrc desc + 4 * a) (4 * (z - a))
  let sb := mvDst desc + qlPayload l.code l.n
  let hd := if a = 0 ∨ l.cap = 0 then [] else d.spRead c (mvDstSp desc) (bits desc 390 386) sb 16
  let cnt := natAt hd 4 2
  let r := encodeQlList nb l.cap l.c l.g (d.groupPar c l) a cnt ((upTo (z - a)).map (fun i => natAt src (4 * i) 4))
  let fin := decide (z = l.n)
  let o := a * nb / 8
  let pay := packQl l.code r.1
  let d1 := d.mvWrite c desc (mvDst desc + o) (if fin then padTo (qlPayload l.code l.n - o) pay else pay)
  let d2 := if l.cap = 0 then d1
    else
      let side := r.2.1.flatMap sideEntry
      let d1a := d1.mvWrite c desc sb (qlHeader l.code l.cap (cnt + r.2.1.length) (natAt hd 8 4 + r.2.2.sat) (natAt hd 12 2 + r.2.2.escFull)
        (natAt hd 14 2 + r.2.2.nan))
      d1a.mvWrite c desc (sb + 16 + 8 * cnt) (if fin then padTo (qlSide l.cap - 16 - 8 * cnt) side else side)
  d2.tally c r.2.2

/-- R60: elements `a` to `z` − 1 of a decoding MOVE, after the escapes of the elements before them; the LINKERR elements are logged. -/
def Dev.moveDecode (d : Dev) (c desc : Nat) (l : LinkCtx) (a z : Nat) : Dev :=
  let nb := qlBits l.code
  let src := d.mvRead c desc (mvSrc desc) (qlSize l.code l.n l.cap)
  let sb := qlPayload l.code l.n
  let cnt := if l.cap = 0 then 0 else natAt src (sb + 4) 2
  let codes := unpackQl l.code src l.n
  let esc := ((codes.take a).filter (fun u => decide (u = 2 ^ nb - 1))).length
  let r := decodeQlList nb l.c l.g (d.groupPar c l) cnt (fun k => (natAt src (sb + 16 + 8 * k) 4, natAt src (sb + 20 + 8 * k) 2)) a esc
    ((codes.drop a).take (z - a))
  let d1 := (d.mvWrite c desc (mvDst desc + 4 * a) (r.1.flatMap (fun v => leBytes 4 v))).tally c { linkErr := r.2.1, ovf := r.2.2 }
  if 0 < r.2.1 then d1.report 2 0x300 2 (d.corePtn c) (c + 256 * stick 0xFFFFFF r.2.1) else d1

/-- R104, R105: the part of a MOVE from its progress up to `z`, in bytes or elements. -/
def Dev.moveSpan (d : Dev) (c : Nat) (m : MoveRun) (z : Nat) : Dev :=
  let desc := m.desc
  match mvConv desc, (d.coreAt c).mvLink desc with
  | 0, _ => d.mvWrite c desc (mvDst desc + m.done) (d.mvRead c desc (mvSrc desc + m.done) (z - m.done))
  | 1, some l => d.moveEncode c desc l m.done z
  | _, some l => d.moveDecode c desc l m.done z
  | _, none => d

/-- R91, R126: what the memory checks of a MOVE's source did; the Bool says that an uncorrectable error reached the MOVE. -/
def Dev.moveEcc (d : Dev) (c : Nat) (m : MoveRun) : Dev × Bool :=
  if mvSrcSp m.desc = 1 then (d.shEcc (d.corePtn c) m.ecc, d.shLost (d.corePtn c) m.ecc)
  else (d.eccNote (if mvSrcSp m.desc = 2 then bits m.desc 395 391 else c) m.ecc, m.ecc.unc)

/-- R103: what stops a MOVE that encodes or decodes when it runs: an empty context, or an invalid group record. -/
def Dev.moveErr (d : Dev) (c : Nat) (m : MoveRun) : Option Nat :=
  if mvConv m.desc = 0 then none
  else match (d.coreAt c).mvLink m.desc with
    | none => some 8
    | some l => if (upTo (min l.n l.c)).any (fun i => !(d.groupPar c l (qlGroup l.c l.g i)).ok (qlBits l.code)) then some 3 else none

/-- R104, R105: the move engine takes up the MOVE at its head. One that stops with an error stops here: with an uncorrectable word the
destination holds undefined data up to the failed line. The elements before the line count nowhere (log 115). -/
def Dev.runMove (d : Dev) (c : Nat) : Dev :=
  match (d.coreAt c).moves with
  | m :: rest =>
    if m.started then d
    else
      let w := d.moveEcc c m
      if w.2 then
        let n := match m.ecc with | .uncData n => n | _ => 0
        let fb := w.1.freeBytes (min (64 * n) (mvLens m.desc ((d.coreAt c).mvLink m.desc)).2)
        ((fb.2.mvWrite c m.desc (mvDst m.desc) fb.1).coreUpd c (fun x => { x with moves := rest })).tenFail c 0x0C m.pc m.desc
      else match d.moveErr c m with
        | some e => (w.1.coreUpd c (fun x => { x with moves := rest })).tenFail c e m.pc m.desc
        | none => w.1.coreUpd c (fun x => { x with moves := { m with started := true, ecc := .none } :: rest })
  | [] => d

/-- R104: MOVE enters the engine, which holds up to four and runs them one at a time in order. -/
def Dev.doMove (d : Dev) (c : Nat) (ecc : Ecc) : Dev :=
  d.issue c 4 ecc false (fun x => decide (bits x 379 64 = 0)) (moveErrs c) (fun desc pc d1 =>
    let x := d1.coreAt c
    let busy := decide (mvConv desc ≠ 0) &&
      (match Tab.get none x.links (bits desc 383 382) with | some l => !l.ready | none => false)
    if 4 ≤ x.moves.length ∨ busy then d1
    else
      let m : MoveRun := { desc := desc, pc := pc, ecc := ecc.data }
      let d2 := (d1.coreSet c { x with moves := x.moves ++ [m] })
      let d3 := if x.moves = [] then d2.runMove c else d2
      if (d3.coreAt c).st = .run then d3.nextPc c else d3)

/-- R97: the last write of the engine's MOVE is accepted: what was left of it stands at its destination, and it completes. -/
def Dev.moveEnd (d : Dev) (c : Nat) (m : MoveRun) (rest : List MoveRun) : Dev :=
  (((d.moveSpan c m (mvTotal m.desc ((d.coreAt c).mvLink m.desc))).coreUpd c (fun x => { x with moves := rest })).complete
    c m.desc m.pc false false).bankStalls c

/-- R97: the MOVE at the engine's head completes and the next is taken up; from a pre-emption request on no further one is (R115). -/
def Dev.moveComplete (d : Dev) (c : Nat) : Dev :=
  let st := (d.coreAt c).st
  match (d.coreAt c).moves with
  | m :: rest =>
    if st = .saved ∨ st = .faulted then d
    else if m.started then (if st = .freezing then d.moveEnd c m rest else (d.moveEnd c m rest).runMove c)
    else if st = .freezing then d else d.runMove c
  | [] => d

/-- R115 step 4: a running MOVE stops at a 4 KiB boundary of its source, or after a multiple of 1,024 further elements; which one is a
free value (log 117). One that has reached its end completes. -/
def Dev.moveStop (d : Dev) (c : Nat) : Dev :=
  match (d.coreAt c).moves with
  | m :: rest =>
    if m.started then
      let w := d.drawN
      let tot := mvTotal m.desc ((d.coreAt c).mvLink m.desc)
      let z := min tot (if mvConv m.desc = 0 then m.done + (4096 - (mvSrc m.desc + m.done) % 4096) + 4096 * (w.1 % (tot / 4096 + 1))
        else m.done + 1024 * (1 + w.1 % (tot / 1024 + 1)))
      if z = tot then w.2.moveEnd c m rest
      else (w.2.moveSpan c m z).coreUpd c (fun x => { x with moves := { m with started := false, done := z } :: rest })
    else d
  | [] => d

/-! ### WAITQ and SIGNAL (R106, R107) -/

/-- R158, R159: may core c use queue q? -/
def Dev.coreMayQueue (d : Dev) (c q : Nat) : Bool :=
  let x := d.pqAt q
  x.en && decide (x.owner < 32) && (match d.ownerOfCore c with | some p => d.sameGang p x.owner | none => false)

/-- R106: the WAITQ at TEN_PC ends with an entry, or without one on a timeout. -/
def Dev.waitqEnd (d : Dev) (c : Nat) (e : Option PqEntry) : Dev :=
  let pc := d.curPc c
  let desc := d.curDesc c
  let d1 := match e with
    | some x => (d.csWrite c (bits desc 511 487) x.data).csWrite c (bits desc 486 462) (leBytes 8 (1 + 256 * x.level))
    | none => d.csWrite c (bits desc 486 462) (leBytes 8 2)
  (((d1.coreUpd c (fun x => { x with st := .run, waiting := none }))).complete c desc pc false false).nextPc c

def waitqErrs (c desc : Nat) (d : Dev) : List Nat :=
  errIf (decide (bits desc 511 487 % 32 ≠ 0) || decide (bits desc 486 462 % 8 ≠ 0)) 4 ++
  errIf (beyond (bits desc 511 487) 32 || beyond (bits desc 486 462) 8) 5 ++
  errIf (!d.coreMayQueue c (bits desc 429 424)) 9

/-- R106, R162: WAITQ pops one entry, or waits behind the queue's waiters. -/
def Dev.doWaitq (d : Dev) (c : Nat) (ecc : Ecc) : Dev :=
  d.issue c 5 ecc false (fun x => decide (bits x 423 64 = 0)) (waitqErrs c) (fun desc _pc d1 =>
    let n := bits desc 429 424
    let q := { d1.pqAt n with popPtr := (c + 1) % 84 }
    match q.waiters, q.pop with
    | [], some (e, q') => (d1.pqSet n q').waitqEnd c (some e)
    | _, _ => (d1.pqSet n { q with waiters := q.waiters ++ [c] }).coreUpd c
        (fun x => { x with st := .wait, waiting := some (.queue n d1.now) }))

/-- R162: in the NCLK after an entry lands, the oldest waiting core pops it. -/
def Dev.waiterPop (d : Dev) (n : Nat) : Dev :=
  let q := d.pqAt n
  match q.waiters with
  | c :: ws =>
    if c < 32 then
      match q.pop with
      | some (e, q') => (d.pqSet n { q' with waiters := ws, popPtr := (c + 1) % 84 }).waitqEnd c (some e)
      | none => d
    else d
  | [] => d

/-- R106: a WAITQ reaches its TIMEOUT. -/
def Dev.waitqTimeout (d : Dev) (c : Nat) : Dev :=
  match (d.coreAt c).waiting with
  | some (.queue _ _) =>
    if bits (d.curDesc c) 461 430 = 0 then d else (d.unwait c).waitqEnd c none
  | _ => d

def signalErrs (c desc : Nat) (d : Dev) : List Nat :=
  if bit desc 413 then
    errIf (decide (bits desc 447 423 % 32 ≠ 0)) 4 ++ errIf (beyond (bits desc 447 423) 32) 5 ++
    errIf (!d.coreMayQueue c (bits desc 422 417)) 9
  else []

/-- R107: SIGNAL, after every earlier descriptor is complete, pushes and then posts. -/
def Dev.doSignal (d : Dev) (c : Nat) (ecc : Ecc) : Dev :=
  d.issue c 6 ecc true (fun x => decide (bits x 411 64 = 0)) (signalErrs c) (fun desc pc d1 =>
    let d2 := if bit desc 413 then
        (d1.pqPush (bits desc 422 417) c { level := bits desc 416 414, data := d1.csRead c (bits desc 447 423) 32 }).1
      else d1
    let d3 := if bit desc 412 then
        d2.corePost c { value := bits desc 511 448, seq := bits desc 63 48, source := c, partition := d2.corePtn c, kind := 2,
                        opcode := 6, detail := pc % 2 ^ 32 } none
      else d2
    (d3.complete c desc pc false false).nextPc c)

/-! ### LOCK (R108) -/

/-- The 8-byte status of a LOCK. -/
def lockStatus (granted broken timeout ignored : Bool) (owner : Nat) : List Byte :=
  leBytes 8 (b2n granted + 2 * b2n broken + 4 * b2n timeout + 8 * b2n ignored + 256 * owner)

/-- The LOCK at TEN_PC ends: its status is written and it completes. -/
def Dev.lockEnd (d : Dev) (c : Nat) (st : List Byte) : Dev :=
  let pc := d.curPc c
  let desc := d.curDesc c
  (((d.csWrite c (bits desc 511 487) st).coreUpd c (fun x => { x with st := .run, waiting := none })).complete
    c desc pc false false).nextPc c

/-- One read of the lock by an acquire: granted, it ends; `last` says that no further read is made. -/
def Dev.lockRead (d : Dev) (c id : Nat) (last : Bool) : Dev :=
  let r := d.lckAcquire id (d.corePtn c) c
  let l := r.1.lckAt id
  if r.2 then
    (r.1.coreUpd c (fun x => { x with held := if x.held.contains id then x.held else x.held ++ [id] })).lockEnd c
      (lockStatus true l.broken false false l.owner)
  else if last then r.1.lockEnd c (lockStatus false false true false l.owner)
  else r.1.coreUpd c (fun x => { x with st := .wait, waiting := some (.lock id
    (match x.waiting with | some (.lock _ t) => t | _ => d.now)) })

def lockErrs (c desc : Nat) (d : Dev) : List Nat :=
  let x := d.coreAt c
  let id := bits desc 454 447
  errIf (!bit desc 446 && decide (16 ≤ x.held.length) && !x.held.contains id) 3 ++
  errIf (decide (bits desc 511 487 % 8 ≠ 0)) 4 ++ errIf (beyond (bits desc 511 487) 8) 5

/-- R108: LOCK acquires, reading again while it is not granted, or releases. -/
def Dev.doLock (d : Dev) (c : Nat) (ecc : Ecc) : Dev :=
  d.issue c 7 ecc false (fun x => decide (bits x 445 64 = 0)) (lockErrs c) (fun desc _pc d1 =>
    let id := bits desc 454 447
    if bit desc 446 then
      let l := d1.lckAt id
      let own := l.held && decide (l.owner = d1.corePtn c)
      ((d1.lckRelease id (d1.corePtn c)).coreUpd c (fun x => { x with held := if own then x.held.filter (fun k => decide (k ≠ id)) else x.held })).lockEnd c
        (lockStatus false l.broken false (!own) l.owner)
    else d1.lockRead c id false)

/-- R108: an ungranted acquire reads the lock again. -/
def Dev.lockRetry (d : Dev) (c : Nat) : Dev :=
  match (d.coreAt c).waiting with
  | some (.lock id _) => d.lockRead c id false
  | _ => d

/-- R108: the last permitted read of an acquire with a TIMEOUT. -/
def Dev.lockTimeout (d : Dev) (c : Nat) : Dev :=
  match (d.coreAt c).waiting with
  | some (.lock id _) => if bits (d.curDesc c) 486 455 = 0 then d else d.lockRead c id true
  | _ => d

/-! ### JUMP, NOP and END (R109) -/

def Dev.doJump (d : Dev) (c : Nat) (ecc : Ecc) : Dev :=
  d.issue c 8 ecc false (fun x => decide (bits x 477 64 = 0)) (fun x _ => errIf (decide (bits x 511 496 = 0)) 3) (fun desc pc d1 =>
    let k := bits desc 479 478
    let v := (d1.coreAt c).ctr.getD k 0
    let d2 := d1.complete c desc pc false false
    if v + 1 < bits desc 511 496 then
      ((d2.coreUpd c (fun x => { x with ctr := x.ctr.set k (v + 1) })).setPc c (pc + 64 * sext 16 (bits desc 495 480))).nextPc c
    else (d2.coreUpd c (fun x => { x with ctr := x.ctr.set k 0 })).nextPc c)

def Dev.doNop (d : Dev) (c : Nat) (ecc : Ecc) : Dev :=
  d.issue c 9 ecc false (fun x => decide (bits x 511 64 = 0)) (fun _ _ => []) (fun desc pc d1 =>
    (d1.complete c desc pc false false).nextPc c)

/-- END stops the sequencer once every earlier descriptor is complete: STATE IDLE, TEN_EVENT.END. -/
def Dev.doEnd (d : Dev) (c : Nat) (ecc : Ecc) : Dev :=
  d.issue c 10 ecc true (fun x => decide (bits x 511 64 = 0)) (fun _ _ => []) (fun desc pc d1 =>
    ((d1.complete c desc pc false false).coreUpd c (fun x => { x with st := .idle, cur := none })).event (tenReg c 0x10) 0)

end Sys2Proof
end

