-- ==== Sys2Proof/Machine/TensorCtl.lean ====
section
/-! DEFINITION. Control of a tensor core: RUN, pre-emption and its save record, RESUME, per-core reset and LOCK (R115 to
R123, R500). -/

namespace Sys2Proof

/-- TEN_STATUS.STATE (R122). -/
def CoreSt.code : CoreSt → Nat
  | .idle => 0 | .run => 1 | .wait => 2 | .freezing => 3 | .saved => 4 | .error => 5 | .faulted => 6 | .resuming => 7

/-- TEN_STATUS as it reads. -/
def Dev.tenStatus (d : Dev) (c : Nat) : Nat := (d.coreAt c).st.code + 2 ^ 24 * (d.coreAt c).errcode

/-! ### RUN -/

/-- R122, R110: RUN starts the program at TEN_PC from IDLE, or from ERROR once TEN_PC has been set again; ERRCODE and TEN_ERRPC then
read 0 (log 118). -/
def Dev.tenRun (d : Dev) (c : Nat) : Dev :=
  let x := d.coreAt c
  if x.st = .idle ∨ (x.st = .error ∧ x.pcSet = true) then
    ((d.coreSet c { x with st := .run, errcode := 0, pcSet := false, ctr := [0, 0, 0, 0], waiting := none, cur := none }).wrN
      (tenReg c 0x24) 0).fetchCheck c
  else d

/-! ### The save record (R117, R118) -/

/-- An integer as the `n` bytes of its two's complement. -/
def leInt (n : Nat) (x : Int) : List Byte := leBytes n (wrapI (8 * n) x)

/-- Does the interrupted pass carry RERUN: abandoned and not begun again (R84)? -/
def PassRun.redo (p : PassRun) : Bool := p.rerun && decide (p.tile = 0)

/-- R118: the record of array `a` of a core. -/
def Core.arrayRecord (x : Core) (a : Nat) : List Byte :=
  padTo 2048 (match x.run with
    | none => []
    | some p =>
      if bit (passArrays p.desc) a then
        if p.redo then leBytes 0x601 0 ++ leBytes 1 4
        else
          let j := ((upTo a).filter (fun b => bit (passArrays p.desc) b)).length
          let bank := padTo 512 ((p.bank.getD j []).flatMap (fun v => leBytes 4 v))
          match p.held[j]? with
          | some h => bank ++ padTo 1024 ((x.arrAt a).cols.flatMap (fun v => leInt 8 v)) ++ leBytes 1 h.e ++
              leBytes 1 (1 + 2 * b2n h.bs16) ++ leBytes 2 0 ++ leInt 4 h.s ++ leBytes 4 h.tile
          | none => bank
      else [])

/-- The 64 bytes of a saved link context (R117): its twelve values as 4-byte words, in the order R117 names them (log 21). -/
def linkRecord : Option LinkCtx → List Byte
  | none => leBytes 64 0
  | some l => padTo 64 ([l.code, l.n, l.c, l.g, l.cap, l.pbase, l.gbase, l.next, l.count, l.sat, l.escFull, l.nan].flatMap
      (fun v => leBytes 4 v))

/-- The 128 bytes of a saved walk context (R117). -/
def walkRecord : Option Walk → List Byte
  | none => leBytes 128 0
  | some w => padTo 128 (leBytes 64 w.desc ++ w.i.flatMap (fun v => leBytes 2 v))

/-- A cancelled pending PASS as it is saved: R101 fixed its output bases at its issue and the record has no other place for them, so its
DST and EXPDST hold the effective ones and its DSTSTEP 0 (log 110). -/
def PassRun.fixed (p : PassRun) : Nat :=
  if passOfmt p.desc = 3 then p.desc
  else
    let x := putBits (putBits p.desc 361 337 (wrapI 25 p.dst)) 311 292 0
    if passOfmt p.desc = 2 then putBits x 336 312 (wrapI 25 p.expdst) else x

/-- R117: the 9,728 bytes of the save record of core c; `running` is RUN. -/
def Dev.saveRecord (d : Dev) (c : Nat) (running : Bool) : List Byte :=
  let x := d.coreAt c
  let rr := match x.run with | some p => p.redo | none => false
  let flags := 1 + 2 * b2n running + 4 * b2n x.run.isSome + 8 * b2n rr + 16 * b2n x.pend.isSome
  let passDesc := fun (p : Option PassRun) => match p with | some q => leBytes 64 q.desc | none => leBytes 64 0
  padTo 64 (leBytes 1 1 ++ leBytes 1 c ++ leBytes 1 (d.corePtn c) ++ leBytes 1 flags ++ leBytes 4 x.saves) ++
  padTo 64 (leBytes 4 (d.curPc c) ++ x.ctr.flatMap (fun v => leBytes 2 v) ++
            leBytes 2 (match x.run with | some p => bits p.desc 63 48 | none => 0) ++ leBytes 4 x.held.length ++
            x.held.flatMap (fun v => leBytes 1 v)) ++
  passDesc x.run ++
  (match x.run with
   | some p => padTo 64 (leInt 4 p.dst ++ leInt 4 p.expdst ++ leBytes 2 p.tile)
   | none => leBytes 64 0) ++
  (match x.pend with | some q => leBytes 64 q.fixed | none => leBytes 64 0) ++
  padTo 256 (x.moves.flatMap (fun m => leBytes 64 m.desc)) ++
  padTo 64 (x.moves.flatMap (fun m => leBytes 8 m.done ++ leBytes 8 0)) ++
  (upTo 4).flatMap (fun k => walkRecord (Tab.get none x.walks k)) ++
  (upTo 4).flatMap (fun k => linkRecord (Tab.get none x.links k)) ++
  leBytes 128 0 ++
  (upTo 4).flatMap x.arrayRecord

/-- R115 steps 6 to 8: the record, or in IDLE its header, is written and the core is SAVED; the pending PASS's fill is discarded (R80),
and TEN_PC names the next descriptor not issued (log 112). A slot outside the share stops the core with 0x05. -/
def Dev.writeSave (d : Dev) (c : Nat) (running : Bool) : Dev :=
  let p := d.corePtn c
  let d1 := d.coreUpd c (fun x => { x with saves := x.saves + 1 })
  if d1.inShare p (d1.saveBase c) 9728 then
    (((d1.shWrite p (d1.saveBase c) (if running then d1.saveRecord c true else (d1.saveRecord c false).take 64)).setPc c (d1.curPc c)).coreUpd c
      (fun x => { x.dropShadow 15 with st := .saved, run := none, pend := none, moves := [], waiting := none, cur := none })).event (tenReg c 0x10) 2
  else d1.tenFail c 5 (d1.curPc c) 0

/-- R115: a pre-emption request. In IDLE the header is written at once; in SAVED, ERROR and FAULTED it is ignored. -/
def Dev.tenPreempt (d : Dev) (c : Nat) : Dev :=
  match (d.coreAt c).st with
  | .idle => d.writeSave c false
  | .run | .wait => (d.unwait c).coreUpd c (fun x => { x with st := .freezing, waiting := none })
  | _ => d

/-- Commit every drain of exchanged banks (R115 step 3). -/
def Dev.commitAll (d : Dev) (c : Nat) : Nat → Dev
  | 0 => d
  | n + 1 => if (d.coreAt c).emit = [] then d else (d.passCommit c).commitAll c n

/-- R115: the LINKs still zeroing their transfers complete before the save. -/
def Dev.linksFinish (d : Dev) (c : Nat) : List Nat → Dev
  | [] => d
  | k :: ks =>
    (match Tab.get none (d.coreAt c).links k with
      | some l => if l.ready then d else d.linkComplete c k
      | none => d).linksFinish c ks

/-- R115: the arrays are frozen, drains are committed, the running MOVE stops and the record is written. -/
def Dev.preemptSaved (d : Dev) (c : Nat) : Dev :=
  if (d.coreAt c).st = .freezing then
    let d1 := d.commitAll c 4
    let d2 := d1.linksFinish c (upTo 4)
    if (d2.coreAt c).st = .freezing then (d2.moveStop c).writeSave c true else d2
  else d

/-! ### RESUME (R119) -/

def walkOfRecord (bs : List Byte) : Option Walk :=
  if subN bs 0 64 = 0 then none
  else some { desc := subN bs 0 64, i := (upTo 5).map (fun l => subN bs (64 + 2 * l) 2) }

def linkOfRecord (bs : List Byte) : Option LinkCtx :=
  if subN bs 4 4 = 0 then none
  else some { code := subN bs 0 4, n := subN bs 4 4, c := subN bs 8 4, g := subN bs 12 4, cap := subN bs 16 4,
              pbase := subN bs 20 4, gbase := subN bs 24 4, next := subN bs 28 4, count := subN bs 32 4, sat := subN bs 36 4,
              escFull := subN bs 40 4, nan := subN bs 44 4, ready := true }

/-- The held vector of an array record, if HELD is 1 (R118). -/
def heldOfRecord (bs : List Byte) : Option HeldVec :=
  if bit (subN bs 0x601 1) 0 then
    some { par := [], e := subN bs 0x600 1, s := sext 32 (subN bs 0x604 4), bs16 := bit (subN bs 0x601 1) 1, tile := subN bs 0x608 4 }
  else none

/-- The array of an array record: its column registers, in one of the two sets. -/
def arrOfRecord (bs : List Byte) : ArrSt :=
  if bit (subN bs 0x601 1) 0 then { col0 := (upTo 128).map (fun c => sext 64 (subN bs (0x200 + 8 * c) 8)) } else {}

def bankOfRecord (bs : List Byte) : List Nat := (upTo 128).map (fun c => subN bs (4 * c) 4)

/-- The linear position of a walk's counters, from level `l` up. -/
def walkPos (w : Nat) (i : List Nat) : Nat → Nat → Nat
  | 0, _ => 0
  | n + 1, l => if l = 4 then i.getD 4 0 else i.getD l 0 + walkCount w l * walkPos w i n (l + 1)

/-- The counters of a linear position, from level `l` up. -/
def walkAtPos (w : Nat) : Nat → Nat → Nat → List Nat
  | 0, _, _ => []
  | n + 1, l, p => if l = 4 then [p] else p % walkCount w l :: walkAtPos w n (l + 1) (p / walkCount w l)

/-- The counters `n` slices earlier: where the interrupted pass began, for its re-run (R83). -/
def walkBack (w : Walk) (n : Nat) : List Nat :=
  let l := if walkSlv w.desc then 2 else 1
  w.i.take l ++ walkAtPos w.desc 5 l (walkPos w.desc w.i 5 l - n)

/-- R119: the core as a save record gives it; PC and the descriptors that wait go with it. -/
def coreOfRecord (x : Core) (r : List Byte) : Core :=
  let flags := subN r 3 1
  let desc := subN r 0x80 64
  let walks := (upTo 4).foldl (fun t k => Tab.set none t k (walkOfRecord (sub r (0x280 + 128 * k) 128))) []
  let links := (upTo 4).foldl (fun t k => Tab.set none t k (linkOfRecord (sub r (0x480 + 64 * k) 64))) []
  let recs := (passNamed desc).map (fun a => sub r (0x600 + 2048 * a) 2048)
  let tile := subN r 0xC8 2
  let walk0 := match Tab.get none walks (passWalk desc) with
    | some w => walkBack w (tile * recs.length)
    | none => []
  let redo := bit flags 3
  let run : Option PassRun :=
    if bit flags 2 then
      some { desc := desc, pc := 0, dst := sext 32 (subN r 0xC0 4), expdst := sext 32 (subN r 0xC4 4), started := true,
             tile := if redo then 0 else tile, rerun := redo, walk0 := walk0,
             bank := if redo then [] else recs.map bankOfRecord,
             held := if redo then [] else recs.filterMap heldOfRecord }
    else none
  let pend : Option PassRun := if bit flags 4 then some { desc := subN r 0x100 64, pc := 0 } else none
  let moves := ((upTo 4).map (fun k => (subN r (0x140 + 64 * k) 64, subN r (0x240 + 16 * k) 8))).filter (fun m => decide (m.1 ≠ 0))
  { x with st := if bit flags 1 then .run else .idle, errcode := 0, waiting := none,
           ctr := (upTo 4).map (fun k => subN r (0x44 + 2 * k) 2), walks := walks, links := links,
           arr := (upTo 4).foldl (fun t a => Tab.set {} t a (arrOfRecord (sub r (0x600 + 2048 * a) 2048))) [], cur := none,
           held := (upTo (min 16 (subN r 0x4E 4))).map (fun k => subN r (0x52 + k) 1), run := run, pend := pend,
           moves := moves.map (fun m => { desc := m.1, pc := 0, done := m.2 }), emit := [] }

/-- R81, R119: the record of the held tile of array a, reloaded from core store. -/
def Dev.reload (d : Dev) (c desc : Nat) (a : Nat × HeldVec) : HeldVec := { a.2 with par := d.csRead c (passRecBase desc a.1 a.2.tile) 768 }

/-- R81, R119: what a restored core takes from its core store: the records of the held tiles, the bias of a pass that starts anew and of
the cancelled PASS, and the fill. The record does not hold the addresses of the descriptors, which their later records name: free
values (log 119). -/
def Dev.rebase (d : Dev) (c : Nat) : Dev :=
  let x := d.coreAt c
  let at_ := fun k => Config.freeValue (d.free + k)
  let bias := fun (desc : Nat) => (passNamed desc).map (fun a => d.biasBank c desc a)
  let run := x.run.map (fun p =>
    let q := { p with pc := at_ 0, held := ((passNamed p.desc).zip p.held).map (d.reload c p.desc) }
    if p.rerun then { q with bank := bias p.desc } else q)
  let pend := x.pend.map (fun p => { p with pc := at_ 1, dst := x.dstEff p.desc, expdst := x.expEff p.desc, bank := bias p.desc })
  let moves := ((upTo 4).zip x.moves).map (fun m => { m.2 with pc := at_ (2 + m.1) })
  ({ d with free := d.free + 6 }.coreSet c { x with run := run, pend := pend, moves := moves }).fill c (upTo 4)

/-- R119: RESUME reads the record at TEN_SAVEBASE; in IDLE and SAVED it restores the core (log 22); it is no way out of ERROR (R110). -/
def Dev.tenResume (d : Dev) (c : Nat) : Dev :=
  let x := d.coreAt c
  let p := d.corePtn c
  if x.st = .idle ∨ x.st = .saved then
    if d.inShare p (d.saveBase c) 9728 then
      let r := d.shRead p (d.saveBase c) 9728
      if bit (subN r 3 1) 0 && decide (subN r 0 1 = 1) && !bit (subN r 3 1) 1 then d.coreSet c { x with st := .idle, errcode := 0 }
      else if bit (subN r 3 1) 0 && decide (subN r 0 1 = 1) then
        (((((d.coreSet c (coreOfRecord x r)).setPc c (subN r 0x40 4)).rebase c).promote c).runMove c).fetchCheck c
      else (d.coreSet c { x with st := .resuming }).tenFail c 3 (d.pc c) 0
    else (d.coreSet c { x with st := .resuming }).tenFail c 5 (d.pc c) 0
  else d

/-! ### Per-core reset and LOCK (R120, R122, R123) -/

/-- R122: the TEN registers of core c return to their reset values, TEN_ARRAYS apart. -/
def Dev.tenRegsReset (d : Dev) (c : Nat) : Dev :=
  (d.regsReset (tenReg c 0x04) (tenReg c 0x28)).regsReset (tenReg c 0x30) (tenReg c 0x88)

/-- Is core c, and the die it stands on, in service (R331)? -/
def Dev.coreUp (d : Dev) (c : Nat) : Bool := !bit d.ptn.out c && decide (Tab.get 0 d.ptn.dies (c / 8) = 0)

/-- R120: a per-core reset. The held-lock record is released as a reset of the owner; LOCK and the core store stay. A core out of service
stays so, and FAULTED (R331, log 138). -/
def Dev.tenReset (d : Dev) (c : Nat) : Dev :=
  let x := d.coreAt c
  ((((d.unwait c).lckForceList 0 (x.held.filter (fun n => (d.lckAt n).held && decide ((d.lckAt n).owner = d.corePtn c)))).coreSet c
    { ({} : Core) with st := if d.coreUp c then .idle else .faulted, lock := x.lock, saves := x.saves, defer := x.defer.map (fun a => (a.1, none)) })).tenRegsReset c

/-- R123: set TEN_CTRL.LOCK. -/
def Dev.tenLock (d : Dev) (c : Nat) : Dev := d.coreUpd c (fun x => { x with lock := true })

/-! ### Access to TEN_CTRL (R122, R355, R372) -/

/-- GLB_DIRECT of a partition (R372). -/
def Dev.directOf (d : Dev) (p : Nat) : Bool := bit d.host.direct p

/-- The rank of core c among the cores of partition p (R354). -/
def Dev.rankOfCore (d : Dev) (p c : Nat) : Nat := ((d.ptnAt p).order.takeWhile (fun k => decide (k ≠ c))).length

/-- R122, R355: may `who` write a direct-mode field of core c's TEN block? The error cause when not. -/
def Dev.tenDenied (d : Dev) (who : Req) (c : Nat) : Option Nat :=
  let direct := match d.ownerOfCore c with | some p => d.directOf p | none => false
  match who with
  | .fw _ => none
  | .debug => none
  | .pf => if direct then none else some 6
  | .vf n => if d.ownerOfCore c = some n then (if direct then none else some 6) else some 7

/-- The BAR offset of a TEN register as `who` addresses it (R353). -/
def Dev.tenOff (d : Dev) (who : Req) (c off : Nat) : Nat :=
  match who with
  | .vf n => 0x40000 + 0x1000 * d.rankOfCore n c + off
  | _ => tenReg c off

/-- R123: who sets TEN_CTRL.LOCK: a host function whose write direct mode lets through, or firmware component 0. -/
def Req.maySetLock : Req → Bool
  | .fw c => decide (c = 0)
  | .debug => false
  | _ => true

/-- R500: one write of TEN_CTRL. LOCK acts first; then the first of RESET, PREEMPT, RESUME and RUN. -/
def Dev.tenCtrl (d : Dev) (who : Req) (c data : Nat) : Dev :=
  match d.tenDenied who c, who.fn? with
  | some cause, some fn => d.accErr fn (d.tenOff who c 4) 15 true cause
  | some _, none => d
  | none, _ =>
    let d1 := if bit data 31 && who.maySetLock then d.tenLock c else d
    if bit data 3 then d1.tenReset c
    else if bit data 1 then d1.tenPreempt c
    else if bit data 2 then d1.tenResume c
    else if bit data 0 then d1.tenRun c
    else d1

end Sys2Proof
end

