-- ==== Sys2Proof/Machine/PortBase.lean ====
section
/-! DEFINITION. What the chapters of the flow plane share of a logical port: its registers, pairs and lanes (R172 to R178, R194), packets,
and the egress queues with their shapers (R246, R249). -/

namespace Sys2Proof

/-- A report whose CODE the spec does not state and which names something: the thing's number stands in DETAIL (log 2). -/
def Dev.reportNamed (d : Dev) (source cls partition det : Nat) : Dev :=
  let a := d.drawN
  a.2.report source (a.1 % 65536) cls partition det

/-! ### Registers of a logical port (R197) -/

def prt (n off : Nat) : Nat := prtBase + 0x10000 * (n / 4) + 0x1000 * (n % 4 + 1) + off

/-- Add to port counter k. -/
def Dev.prtCount (d : Dev) (n k x : Nat) : Dev := d.count64 (prt n (0x100 + 8 * k)) x

/-- SPLIT of a block. -/
def Dev.split (d : Dev) (b : Nat) : Nat := bits (d.rdN (prtBase + 0x10000 * b + 4)) 1 0

/-- R172: does the split of its block create the port? -/
def Dev.portExists (d : Dev) (n : Nat) : Bool :=
  match d.split (n / 4) with
  | 0 => decide (n % 4 = 0)
  | 1 => decide (n % 2 = 0)
  | _ => true

def Dev.prtCfg (d : Dev) (n : Nat) : Nat := d.rdN (prt n 0)

/-- MODE: 0 DISABLED, 1 INLINE, 2 TAP, 3 ENDPOINT (R175). -/
def Dev.portMode (d : Dev) (n : Nat) : Nat := bits (d.prtCfg n) 2 0

def Dev.portSpeed (d : Dev) (n : Nat) : Nat := bits (d.prtCfg n) 6 4

/-- Bits per nanosecond of a SPEED code. -/
def speedGb (s : Nat) : Nat := [400, 200, 100, 50, 25, 10].getD s 10

/-- R172, R173: is the port's recorded speed one that the split of its block has? -/
def Dev.portFits (d : Dev) (n : Nat) : Bool :=
  match d.split (n / 4) with
  | 0 => decide (d.portSpeed n = 0)
  | 1 => decide (d.portSpeed n = 1)
  | _ => decide (2 ≤ d.portSpeed n) && decide (d.portSpeed n ≤ 5)

def Dev.partner (d : Dev) (n : Nat) : Nat := bits (d.prtCfg n) 22 18

/-- R176: does the port form an inline pair? -/
def Dev.paired (d : Dev) (n : Nat) : Bool :=
  let m := d.partner n
  decide (d.portMode n = 1) && decide (d.portMode m = 1) && decide (d.partner m = n) && decide (m ≠ n) &&
  d.portExists n && d.portExists m && decide (d.portSpeed n = d.portSpeed m)

def Dev.portAt (d : Dev) (n : Nat) : PortSt := Tab.get {} d.flow.ports n

def Dev.portSet (d : Dev) (n : Nat) (x : PortSt) : Dev :=
  { d with flow := { d.flow with ports := Tab.set {} d.flow.ports n x } }

def Dev.portUpd (d : Dev) (n : Nat) (f : PortSt → PortSt) : Dev := d.portSet n (f (d.portAt n))

/-- R176: does the port transmit Local Fault because LFP is set and its pair's other port has no link? -/
def Dev.sendsLocalFault (d : Dev) (n : Nat) : Bool :=
  d.paired n && bit (d.prtCfg (d.partner n)) 9 && !(d.portAt (d.partner n)).link

/-- R175, R176, R178, R182: may port n transmit frames? With TAPTX a TAP port may, of reports and mirror copies. -/
def Dev.mayTx (d : Dev) (n : Nat) : Bool :=
  let m := d.portMode n
  d.portExists n && (d.portAt n).link && decide (m ≠ 0) && !(decide (m = 1) && !d.paired n) &&
  !(decide (m = 2) && !bit (d.prtCfg n) 10) && !d.sendsLocalFault n

/-- What a port's lanes carry. -/
inductive Lane
  /-- electrical idle, or the fixed pattern without block lock: the fail-safe states of FSMODE (R194) -/
  | dark | fault
  | idle | localFault
  /-- frames, and idle between them -/
  | frames
  deriving DecidableEq, Repr

/-- R175, R176, R178, R194: what the lanes of port n carry. -/
def Dev.lane (d : Dev) (n : Nat) : Lane :=
  if d.flow.failsafe then (if bit (d.rdN (pwrBase + 0x1C)) 16 then .fault else .dark)
  else if d.sendsLocalFault n then .localFault
  else if d.mayTx n then .frames
  else .idle

/-- R194: what a port's transmitter sends reaches its lanes, unless FAILSAFE_N is low and the SerDes has them in the fail-safe state
(log 126). -/
def Dev.onLane (d : Dev) (o : Out) : Dev := if d.flow.failsafe then d else d.emit o

/-- R173, R194: does the port receive frames: it exists, its link is up, and die F has not been lost (log 126)? -/
def Dev.hears (d : Dev) (n : Nat) : Bool := d.portExists n && (d.portAt n).link && !d.flow.dieFLost

/-- R179: the port's MAC address. -/
def Dev.portMac (d : Dev) (n : Nat) : Nat := beNat ((d.pwr.board.drop 8).take 6) + n

/-! ### Packets -/

def Dev.pkt (d : Dev) (i : Nat) : Pkt := Tab.get {} d.flow.pkts i

def Dev.pktSet (d : Dev) (i : Nat) (p : Pkt) : Dev := { d with flow := { d.flow with pkts := Tab.put d.flow.pkts i p } }

def Dev.pktUpd (d : Dev) (i : Nat) (f : Pkt → Pkt) : Dev := d.pktSet i (f (d.pkt i))

/-- The first packet, by its number, that satisfies a condition. -/
def Dev.pktFind (d : Dev) (f : Pkt → Bool) : Option Nat := (d.flow.pkts.find? (fun kv => f kv.2)).map (fun kv => kv.1)

/-- Cells of a length (R237). -/
def cellsOf (len : Nat) : Nat := (len + 255) / 256

/-! ### Egress queues and their shapers (R245, R246, R249) -/

def gntQ (n q off : Nat) : Nat := gntBase + 0x1000 + 0x40 * (8 * n + q) + off

def Dev.egAt (d : Dev) (n q : Nat) : EgQ := Tab.get {} d.flow.q (8 * n + q)

def Dev.egSet (d : Dev) (n q : Nat) (x : EgQ) : Dev := { d with flow := { d.flow with q := Tab.set {} d.flow.q (8 * n + q) x } }

/-- Cells queued in (n, q). -/
def EgQ.occ (x : EgQ) : Nat := (x.items.map (fun it => it.cells)).foldl (· + ·) 0

/-- Drop one queued item: its packet loses a reference. -/
def Dev.dropItem (d : Dev) (it : EgItem) : Dev :=
  match it.pkt with
  | some i => d.pktUpd i (fun p => { p with refs := p.refs - 1 })
  | none => { d with flow := { d.flow with sysUsed := d.flow.sysUsed - it.cells } }

def Dev.dropItems (d : Dev) : List EgItem → Dev
  | [] => d
  | it :: its => (d.dropItem it).dropItems its

/-- R174, R182: the frames queued for a port are dropped and counted as link-down drops. -/
def Dev.flushPort (d : Dev) (n : Nat) : Dev :=
  (upTo 8).foldl (fun (e : Dev) q =>
    let x := e.egAt n q
    if x.items.isEmpty then e
    else ((e.egSet n q { x with items := [], d := 0, promo := none }).dropItems x.items).prtCount n 15 x.items.length) d

/-- R182: no queue holds packets of a port that may not transmit. -/
def Dev.flushDead (d : Dev) : List Nat → Dev
  | [] => d
  | n :: ns => (if d.mayTx n then d else d.flushPort n).flushDead ns

/-- Is queue q of port n paused (R184, R185)? -/
def Dev.qPaused (d : Dev) (n q : Nat) : Bool :=
  let t := (d.portAt n).timer
  (Tab.find t 8).isSome || (Tab.find t q).isSome

def capQ (x : Int) (burst : Nat) : Int := min x ((burst : Int) * 2 ^ 24)

/-- R245: may the item's transmission begin: its frame has arrived whole, or meets the conditions of cut-through (log 128)? -/
def Dev.itemReady (d : Dev) (it : EgItem) : Bool :=
  match it.pkt with
  | none => true
  | some i => it.cut || decide ((d.pkt i).eof ≠ none)

/-- Does the queue hold a packet it may send, and is it not paused? -/
def Dev.qOpen (d : Dev) (n q : Nat) (x : EgQ) : Bool :=
  (match x.items with
   | [] => false
   | it :: _ => d.itemReady it) && !d.qPaused n q

/-- Eligibility and band of a queue: 0 not eligible, 1 E, 2 G (R246). -/
def Dev.qBand (d : Dev) (n q : Nat) (x : EgQ) : Nat :=
  if !d.qOpen n q x || (decide (d.rdN (gntQ n q 8) ≠ 0) && decide (x.cp < 0)) then 0
  else if d.rdN (gntQ n q 4) ≠ 0 ∧ 0 ≤ x.cc then 2 else 1

/-- R246, R249: of the time since the last refresh, k FCLK of it, the part in which the queue was eligible: all of it, or what follows the
FCLK in which its peak credit came back to 0. -/
def Dev.eligTime (d : Dev) (n q : Nat) (x : EgQ) (k : Nat) : Nat :=
  let pinc := d.rdN (gntQ n q 8)
  if d.qOpen n q x = false then 0
  else if pinc = 0 ∨ 0 ≤ x.cp then d.now - x.at_
  else
    let wait := ((-x.cp).toNat + pinc - 1) / pinc
    8 * (k - wait)

/-- R246, R249: refill the credits and advance AGE of a queue to the present. -/
def Dev.qRefresh (d : Dev) (n q : Nat) : Dev :=
  let x := d.egAt n q
  let k := d.now / 8 - x.at_ / 8
  let sending := match (d.portAt n).tx with
    | some (w, _) => decide (w = q)
    | none => false
  d.egSet n q { x with
    cc := capQ (x.cc + k * d.rdN (gntQ n q 4)) (bits (d.rdN (gntQ n q 0x0C)) 23 0),
    cp := capQ (x.cp + k * d.rdN (gntQ n q 8)) (bits (d.rdN (gntQ n q 0x10)) 23 0), at_ := d.now,
    age := if sending then x.age else x.age + d.eligTime n q x k }

/-- R248: every queue's ages and credits are brought to the present. -/
def Dev.qRefreshAll (d : Dev) (n : Nat) : List Nat → Dev
  | [] => d
  | q :: qs => (d.qRefresh n q).qRefreshAll n qs

/-- R248, R249: a promoted queue that has nothing it may send loses its promotion. -/
def Dev.promoClear (d : Dev) (n : Nat) : List Nat → Dev
  | [] => d
  | q :: qs =>
    let x := d.egAt n q
    (if x.promo.isSome && decide (d.qBand n q x = 0) then d.egSet n q { x with promo := none } else d).promoClear n qs

end Sys2Proof
end

