-- ==== Sys2Proof/Machine/Macsec.lean ====
section
/-! DEFINITION. MACsec of a port (R189 to R191, R450): the SecTAG, validation and decryption of received frames, protection of sent ones.
The frame layout, the initial value of GCM-AES-XPN-256 and the recovery of a packet number are those of IEEE 802.1AE, which R189 names
(log 13). -/

namespace Sys2Proof

/-- The EtherType field at byte 12. -/
def etherType (bs : List Byte) : Nat := beNat ((bs.drop 12).take 2)

/-- May an association protect another frame: it is installed and its packet number has not reached 2^64 − 1? -/
def MsSa.fresh (s : MsSa) : Bool := s.installed && decide (s.pn < 2 ^ 64 - 1)

/-- The association `ch` × 4 + AN of port n: channel 0 transmits, 1 to 16 receive (R450). -/
def saKey (n an : Nat) : Nat := n * 256 + an

def Dev.saAt (d : Dev) (k : Nat) : MsSa := Tab.get {} d.flow.ms k

def Dev.saSet (d : Dev) (k : Nat) (s : MsSa) : Dev := { d with flow := { d.flow with ms := Tab.set {} d.flow.ms k s } }

/-- Bytes combined by exclusive or. -/
def xorBytes (a b : List Byte) : List Byte := (a.zip b).map (fun x => x.1 ^^^ x.2)

/-- The initial value of a frame: SSCI and packet number, most significant byte first, under the salt. -/
def MsSa.iv (s : MsSa) (pn : Nat) : List Byte := xorBytes ((leBytes 4 s.ssci).reverse ++ (leBytes 8 pn).reverse) s.salt

/-- A received SecTAG: AN, the encryption bits, short length, the low 32 bits of the packet number, the SCI, and the bytes up to its end. -/
structure SecTag where
  an : Nat
  enc : Bool
  sl : Nat
  pn : Nat
  sci : List Byte
  len : Nat
  deriving DecidableEq, Repr

/-- The SecTAG of a frame with EtherType 0x88E5; none when its version is not 0 or the frame has no room for it and an ICV. Without an SCI
the channel is that of the source address and port 1 (log 13). -/
def secTagOf (fr : List Byte) : Option SecTag :=
  let tci := beNat ((fr.drop 14).take 1)
  let len := if bit tci 5 then 28 else 20
  let sl := beNat ((fr.drop 15).take 1) % 64
  if bit tci 7 || decide (fr.length < len + sl + 16) then none
  else some { an := tci % 4, enc := bit tci 3 || bit tci 2, sl := sl, pn := beNat ((fr.drop 16).take 4),
              sci := if bit tci 5 then (fr.drop 20).take 8 else (fr.drop 6).take 6 ++ [0, 1], len := len }

/-- The installed receive association a SecTAG names (R450). -/
def Dev.saOf (d : Dev) (n : Nat) (t : SecTag) : Option Nat :=
  (((upTo 16).map (fun ch => saKey n (4 * (ch + 1) + t.an))).find? (fun k => (d.saAt k).installed && decide ((d.saAt k).sci = t.sci)))

/-- The lowest acceptable packet number of a receive association (R190, R450). -/
def MsSa.lowest (s : MsSa) (window : Nat) : Nat := max 1 (s.pn - window)

/-- The full packet number of which a frame carries the low 32 bits. -/
def pnRecover (low pn : Nat) : Nat := (low / 2 ^ 32 + b2n (decide (2 ^ 31 ≤ low % 2 ^ 32) && decide (pn < 2 ^ 31))) * 2 ^ 32 + pn

/-- What validation finds (R190): the port counter, the frame that may be delivered (the plaintext, or the frame as it came), and the
association and packet number accepted. -/
structure MsRes where
  counter : Nat
  data : Option (List Byte)
  took : Option (Nat × Nat) := none
  deriving DecidableEq, Repr

/-- R190: validate and decrypt a frame received on port n. A frame that fails keeps its data when only its integrity was protected. -/
def Dev.msValidate (d : Dev) (n : Nat) (fr : List Byte) : MsRes :=
  if etherType fr ≠ 0x88E5 then { counter := 20, data := some fr }
  else match secTagOf fr with
    | none => { counter := 17, data := none }
    | some t =>
      let body := (fr.drop t.len).take (if t.sl = 0 then fr.length - t.len - 16 else t.sl)
      let icv := (fr.drop (t.len + body.length)).take 16
      let bare := if t.enc then none else some (fr.take 12 ++ body)
      match d.saOf n t with
      | none => { counter := 19, data := bare }
      | some k =>
        let s := d.saAt k
        let pn := pnRecover (s.lowest (Config.replayWindow n)) t.pn
        let opened := if t.enc then (Config.gcmOpen s.sak (s.iv pn) (fr.take t.len) body icv).map (fun x => fr.take 12 ++ padTo body.length x)
          else (Config.gcmOpen s.sak (s.iv pn) (fr.take t.len ++ body) [] icv).map (fun _ => fr.take 12 ++ body)
        if pn < s.lowest (Config.replayWindow n) then { counter := 18, data := match opened with | some x => some x | none => bare }
        else match opened with
          | some x => { counter := 16, data := some x, took := some (k, pn) }
          | none => { counter := 17, data := bare }

/-- R190: ingress MACsec under PRT_MSCTL: the counter follows, an accepted packet number moves the replay window, and the frame goes on
with the flags MSFAIL and MSUNTAG, or is discarded. With VALIDATE 0 only frames that pass count, and every other frame goes on as it came
(log 13). -/
def Dev.msIngress (d : Dev) (n : Nat) (fr : List Byte) : Dev × Option (List Byte × Bool × Bool) :=
  let v := bits (d.rdN (prt n 0x30)) 3 2
  let r := d.msValidate n fr
  let d1 := match r.took with
    | some (k, pn) => d.saSet k { d.saAt k with pn := max (d.saAt k).pn (pn + 1) }
    | none => d
  if r.counter = 16 then (d1.prtCount n 16 1, r.data.map (fun x => (x, false, false)))
  else if v = 2 then (d1.prtCount n r.counter 1, none)
  else if v = 1 then (d1.prtCount n r.counter 1, r.data.map (fun x => (x, decide (r.counter ≠ 20), decide (r.counter = 20))))
  else (d1, some (fr, false, false))

/-- R189, R191: the frame as an association protects it under packet number pn: the SecTAG with its SCI after the addresses, the data
encrypted or not, and the ICV. -/
def MsSa.protect (s : MsSa) (an pn : Nat) (encrypt : Bool) (fr : List Byte) : List Byte :=
  let body := fr.drop 12
  let tci := 0x20 + (if encrypt then 0x0C else 0) + an
  let sl := if body.length < 48 then body.length else 0
  let head := fr.take 12 ++ [(0x88 : Byte), 0xE5] ++ leBytes 1 tci ++ leBytes 1 sl ++ (leBytes 4 (pn % 2 ^ 32)).reverse ++ padTo 8 s.sci
  if encrypt then head ++ padTo (body.length + 16) (Config.gcmSeal s.sak (s.iv pn) head body)
  else head ++ body ++ padTo 16 (Config.gcmSeal s.sak (s.iv pn) (head ++ body) [])

/-- R191: egress MACsec of a frame whose transmission begins on port n, under the association TXAN selects at that moment: the frame as it
goes out, 32 bytes longer, or none where it is too long or the association is not installed or exhausted, which counts. -/
def Dev.msEgress (d : Dev) (n : Nat) (it : EgItem) : Dev × Option EgItem :=
  let c := d.rdN (prt n 0x30)
  if bit c 1 then
    let k := saKey n (bits c 5 4)
    let a := d.saAt k
    if bits (d.rdN (prt n 4)) 13 0 < it.len + 32 then (d.prtCount n 22 1, none)
    else if a.fresh = false then ((d.prtCount n 23 1).event (prt n 0x0C) 4, none)
    else
      let d1 := (d.saSet k { a with pn := a.pn + 1 }).prtCount n 21 1
      (if 2 ^ 64 - 2 ^ 32 < a.pn + 1 then d1.event (prt n 0x0C) 3 else d1,
       some { it with len := it.len + 32, data := a.protect (bits c 5 4) a.pn (bit c 6) it.data })
  else (d, some it)

end Sys2Proof
end

