-- ==== Sys2Proof/Machine/Ports.lean ====
section
/-! DEFINITION. The network ports (chapter 7): the packet buffer's admission (R237), flow control and its storm watchdogs, receiving a
frame and its end, links and the fail-safe. -/

namespace Sys2Proof

/-! ### The packet buffer (R237) -/

def portBuf (n w : Nat) : Nat := gntBase + 0x100 + 0x10 * n + 4 * w

/-- Cells beyond the reserve that a port takes from the shared pool. -/
def overMin (used mn : Nat) : Nat := used - mn

def Dev.sumPorts (f : Nat → Nat) : Nat := ((upTo 32).map f).foldl (· + ·) 0

/-- R237: is a claim of r cells by port n admitted? -/
def Dev.admits (d : Dev) (n r : Nat) : Bool :=
  let used := d.rdN (portBuf n 2)
  let mn := d.rdN (portBuf n 0)
  let shared := 262144 - d.rdN (gntBase + 0x08) - Dev.sumPorts (fun k => d.rdN (portBuf k 0))
  let sharedUsed := Dev.sumPorts (fun k => overMin (d.rdN (portBuf k 2)) (d.rdN (portBuf k 0)))
  decide (used + r ≤ mn) ||
  (decide (used + r ≤ d.rdN (portBuf n 1)) && decide (overMin (used + r) mn - overMin used mn ≤ shared - sharedUsed))

/-! ### Pause generation (R186, R188) -/

/-- Cells held by packets that entered port n, of priority i, or of every priority for i = 8. -/
def Dev.cellsHeld (d : Dev) (n i : Nat) : Nat :=
  ((d.flow.pkts.filter (fun kv => decide (kv.2.entry = n) && !kv.2.synth && (decide (i = 8) || decide (kv.2.pri = i)))).map
    (fun kv => kv.2.cells)).foldl (· + ·) 0

/-- The indexes the port's flow control counts by: 8 for PAUSE, the eight priorities for PFC. -/
def Dev.fcIndexes (d : Dev) (n : Nat) : List Nat :=
  match bits (d.rdN (prt n 0x14)) 1 0 with
  | 1 => [8]
  | 2 => upTo 8
  | _ => []

/-- R175 to R178: may the port send control frames: it transmits, and is INLINE or ENDPOINT? -/
def Dev.mayPause (d : Dev) (n : Nat) : Bool :=
  d.mayTx n && (decide (d.portMode n = 1) || decide (d.portMode n = 3)) && bit (d.rdN (prt n 0x14)) 3

/-- Send a pause frame of index i with a quanta. -/
def Dev.pauseEmit (d : Dev) (n i quanta : Nat) : Dev :=
  let pfc := decide (i ≠ 8)
  (d.prtCount n (if pfc then 13 else 12) 1).onLane (.pause n pfc (if pfc then 2 ^ i else 0) quanta)

/-- R186: a generated pause frame waits for the end of any frame in flight. -/
def Dev.sendPause (d : Dev) (n i quanta : Nat) : Dev :=
  if (d.portAt n).tx.isSome then d.portUpd n (fun p => { p with ctl := p.ctl ++ [(i, quanta)] }) else d.pauseEmit n i quanta

/-- The pause frames that waited for a frame in flight go out, ahead of every queued frame (R186). -/
def Dev.pauseList (d : Dev) (n : Nat) : List (Nat × Nat) → Dev
  | [] => d
  | (i, q) :: r => (d.pauseEmit n i q).pauseList n r

/-- R186, R188: compare one count with PRT_XOFF and PRT_XON: it has fallen to PRT_XON or below, or it has reached PRT_XOFF. -/
def Dev.pauseCheck1 (d : Dev) (n i : Nat) : Dev :=
  let c := d.cellsHeld n i
  let on := d.rdN (prt n 0x1C)
  let off := d.rdN (prt n 0x18)
  let p := d.portAt n
  let was := Tab.get 0 p.last i
  let sent := Tab.get false p.xoff i
  let stop := Tab.get false p.stopped i
  let may := d.mayPause n
  let fell := decide (c ≤ on) && (decide (c < was) || decide (c < off))
  let start := may && !sent && !stop && decide (off ≤ c) && (decide (was < c) || decide (on < c))
  let stops := if c ≤ on then Tab.set false p.stopped i false else p.stopped
  let d1 := d.portSet n { p with
    last := Tab.set 0 p.last i c, stopped := stops,
    above := if c ≤ on then Tab.del p.above i else if (Tab.find p.above i).isNone then Tab.put p.above i d.now else p.above,
    xoff := if start then Tab.set false p.xoff i true else if sent && fell then Tab.set false p.xoff i false else p.xoff,
    xoffAt := if start then Tab.put p.xoffAt i d.now else p.xoffAt }
  let d2 := if sent && fell && may then d1.sendPause n i 0 else d1
  let d3 := if start then d2.sendPause n i (bits (d.rdN (prt n 0x14)) 31 16) else d2
  if stop && decide (c ≤ on) && stops.isEmpty then d3.alarmSet 2 n false 0 false else d3

def Dev.pauseCheckList (d : Dev) (n : Nat) : List Nat → Dev
  | [] => d
  | i :: is => (d.pauseCheck1 n i).pauseCheckList n is

def Dev.pauseCheck (d : Dev) (n : Nat) : Dev := d.pauseCheckList n (d.fcIndexes n)

/-- R186: half of QUANTA has elapsed while the count stays above PRT_XON. -/
def Dev.pauseRepeat (d : Dev) (n i : Nat) : Dev :=
  let p := d.portAt n
  if d.mayPause n && Tab.get false p.xoff i && !Tab.get false p.stopped i && decide (d.rdN (prt n 0x1C) < d.cellsHeld n i) then
    (d.portSet n { p with xoffAt := Tab.put p.xoffAt i d.now }).sendPause n i (bits (d.rdN (prt n 0x14)) 31 16)
  else d

/-- R188: the transmit storm watchdog acts on a count that has stayed above PRT_XON. -/
def Dev.stormTx (d : Dev) (n i : Nat) : Dev :=
  let p := d.portAt n
  if (d.fcIndexes n).contains i && bit (d.rdN (prt n 0x14)) 3 && !Tab.get false p.stopped i &&
     decide (d.rdN (prt n 0x1C) < d.cellsHeld n i) then
    let d1 := d.portSet n { p with stopped := Tab.set false p.stopped i true, xoff := Tab.set false p.xoff i false }
    (((if d.mayPause n then d1.sendPause n i 0 else d1).prtCount n 24 1).event (prt n 0x0C) 2).alarmSet 2 n true 0 false
  else d

/-! ### Received pauses (R183, R184, R187) -/

/-- Clear one pause timer; the queues it held become eligible from now on (R246, R249). -/
def Dev.timerEnd (d : Dev) (n i : Nat) : Dev :=
  (d.qRefreshAll n (upTo 8)).portUpd n (fun p => { p with timer := Tab.del p.timer i, heldSince := Tab.del p.heldSince i })

/-- R184: load one pause timer. A queue that it stops loses its promotion (R249). -/
def Dev.pauseLoad (d : Dev) (n i quanta : Nat) : Dev :=
  if quanta = 0 then d.timerEnd n i
  else
    ((d.qRefreshAll n (upTo 8)).portUpd n (fun p => { p with
      timer := Tab.put p.timer i (d.now + quanta * 5120 / speedGb (d.portSpeed n)),
      heldSince := if (Tab.find p.heldSince i).isSome then p.heldSince else Tab.put p.heldSince i d.now })).promoClear n (upTo 8)

/-- R183: may a control frame of this opcode act on port n? -/
def Dev.pauseAccepts (d : Dev) (n fcmode : Nat) (good forUs : Bool) : Bool :=
  (decide (d.portMode n = 1) || decide (d.portMode n = 3)) && good && forUs &&
  decide (bits (d.rdN (prt n 0x14)) 1 0 = fcmode) && bit (d.rdN (prt n 0x14)) 2

/-- R183, R184, R187: a PAUSE frame. `good`: its FCS; `forUs`: addressed to 01-80-C2-00-00-01 or the port. -/
def Dev.pauseFrame (d : Dev) (n quanta : Nat) (good forUs : Bool) : Dev :=
  if d.hears n = false then d
  else if d.pauseAccepts n 1 good forUs then
    let p := d.portAt n
    if Tab.get false p.ignoring 8 then (d.portSet n { p with lastPause := Tab.put p.lastPause 8 d.now }).prtCount n 8 1
    else (d.prtCount n 6 1).pauseLoad n 8 quanta
  else if d.portMode n = 1 ∨ d.portMode n = 3 then d.prtCount n 8 1
  else d

/-- The loads of a PFC frame for the priorities in a list, those not ignored. -/
def Dev.pfcLoads (d : Dev) (n : Nat) (quanta : List Nat) : List Nat → Dev
  | [] => d
  | i :: is =>
    let p := d.portAt n
    if Tab.get false p.ignoring i then (d.portSet n { p with lastPause := Tab.put p.lastPause i d.now }).pfcLoads n quanta is
    else (d.pauseLoad n i (quanta.getD i 0)).pfcLoads n quanta is

/-- R183, R184: a PFC frame with its enable mask and eight quanta. -/
def Dev.pfcFrame (d : Dev) (n enable : Nat) (quanta : List Nat) (good forUs : Bool) : Dev :=
  if d.hears n = false then d
  else if d.pauseAccepts n 2 good forUs then
    let es := maskBits 8 enable
    let ign := es.any (fun i => Tab.get false (d.portAt n).ignoring i)
    let d1 := if ign then d.prtCount n 8 1 else d.prtCount n 7 1
    d1.pfcLoads n quanta es
  else if d.portMode n = 1 ∨ d.portMode n = 3 then d.prtCount n 8 1
  else d

/-- R184: a pause timer expires. -/
def Dev.pauseExpire (d : Dev) (n i : Nat) : Dev := d.timerEnd n i

/-- R187: the receive storm watchdog acts on a timer that holds its port or priority. -/
def Dev.stormRx (d : Dev) (n i : Nat) : Dev :=
  if (Tab.find (d.portAt n).timer i).isSome then
    ((((d.timerEnd n i).portUpd n (fun p => { p with
      ignoring := Tab.set false p.ignoring i true, lastPause := Tab.put p.lastPause i d.now })).prtCount n 9 1).event (prt n 0x0C) 1).alarmSet
      1 n true 0 false
  else d

/-- R187: no pause frame has arrived for STORMT ms: they are honoured again. -/
def Dev.stormRxQuiet (d : Dev) (n i : Nat) : Dev :=
  let p := d.portAt n
  if Tab.get false p.ignoring i then
    let p' := { p with ignoring := Tab.set false p.ignoring i false }
    let d1 := d.portSet n p'
    if p'.ignoring = [] then d1.alarmSet 1 n false 0 false else d1
  else d

/-! ### Receiving frames (R180, R181, R190, R192, R237) -/

/-- R185: the PFC priority of a frame. -/
def Dev.framePri (d : Dev) (n : Nat) (bs : List Byte) : Nat :=
  let t := etherType bs
  if t = 0x8100 ∨ t = 0x88A8 then beNat ((bs.drop 14).take 2) / 8192 else bits (d.prtCfg n) 15 13

/-- R177: does an ENDPOINT port accept the destination address? -/
def Dev.filterPass (d : Dev) (n : Nat) (bs : List Byte) : Bool :=
  let da := beNat (bs.take 6)
  decide (da = d.portMac n) || decide (da = 2 ^ 48 - 1) || (d.portAt n).mcast.contains da

/-- R192: the ingress timestamp: reported time less PRT_RXLAT plus PRT_TSADJ. -/
def Dev.rxStamp (d : Dev) (n : Nat) : TStamp :=
  let q : Int := (d.tmu.cnt : Int) - bits (d.rdN (prt n 0x24)) 15 0 + sext 16 (d.rdN (prt n 0x2C))
  d.tmu.stampAt q.toNat

/-- Deliver a frame to step 1 (R180), its cells claimed (R237). -/
def Dev.deliver (d : Dev) (n : Nat) (data : List Byte) (fail untag : Bool) : Dev :=
  let r := cellsOf (bits (d.rdN (prt n 4)) 13 0)
  if d.admits n r then
    let p : Pkt := { src := n, port := n, entry := n, mode := d.portMode n, data := data, len := data.length + 4, stamp := d.rxStamp n,
                     cells := r, pri := d.framePri n data, msFail := fail, msUntag := untag }
    let d1 := { d with flow := { d.flow with pkts := Tab.put d.flow.pkts d.flow.nextPkt p, nextPkt := d.flow.nextPkt + 1 } }
    (d1.wrN (portBuf n 2) (d1.rdN (portBuf n 2) + r)).pauseCheck n
  else (d.count (portBuf n 3) 1).event (gntBase + 0x0C) 0

/-- R180: a frame starts arriving at port n: its data, as they stand on the lane, without the FCS. -/
def Dev.frameReceive (d : Dev) (n : Nat) (data : List Byte) : Dev :=
  if d.hears n = false then d
  else
    let len := data.length + 4
    let d1 := (d.prtCount n 0 1).prtCount n 1 len
    let mode := d.portMode n
    if mode = 0 ∨ 3 < mode then d1
    else if len < 64 then d1.prtCount n 3 1
    else if bits (d.rdN (prt n 4)) 13 0 < len then d1.prtCount n 4 1
    else if etherType data = 0x8808 ∧ mode ≠ 2 then
      let op := beNat ((data.drop 14).take 2)
      if op = 0x0001 ∨ op = 0x0101 then d1 else d1.prtCount n 8 1
    else if mode = 3 ∧ d.filterPass n data = false then d1.prtCount n 5 1
    else if bit (d.rdN (prt n 0x30)) 0 then
      match d1.msIngress n data with
      | (d2, some (fr, fail, untag)) => d2.deliver n fr fail untag
      | (d2, none) => d2
    else d1.deliver n data false false

/-- R181: every transmission of packet i that has begun is stomped and counted. -/
def Dev.stomp (d : Dev) (i : Nat) : List (Nat × PortSt) → Dev
  | [] => d
  | (m, x) :: r =>
    (match x.tx with
     | some (q, it) =>
       if it.pkt = some i then (d.portUpd m (fun p => { p with tx := some (q, { it with bad := true }) })).prtCount m 14 1 else d
     | none => d).stomp i r

/-- R181: packet i leaves every queue it waits in. -/
def Dev.unqueue (d : Dev) (i : Nat) : List (Nat × EgQ) → Dev
  | [] => d
  | (k, x) :: r =>
    let gone := x.items.filter (fun it => decide (it.pkt = some i))
    if gone.isEmpty then d.unqueue i r
    else
      let keep := x.items.filter (fun it => decide (it.pkt ≠ some i))
      ((d.egSet (k / 8) (k % 8) { x with items := keep, d := if keep.isEmpty then 0 else x.d }).dropItems gone).unqueue i r

/-- The queues whose head is a frame of packet i are brought to the present, before it changes what they may send (R249). -/
def Dev.refreshHeads (d : Dev) (i : Nat) : List (Nat × EgQ) → Dev
  | [] => d
  | (k, x) :: r =>
    (match x.items with
     | it :: _ => if it.pkt = some i then d.qRefresh (k / 8) (k % 8) else d
     | [] => d).refreshHeads i r

/-- R181: the end-of-frame status of the oldest frame of port n that has none. Unused cells return (R237). A bad frame is counted; where
its transmission has begun it is stomped, and no other transmission of it begins. -/
def Dev.frameEnd (d : Dev) (n : Nat) (good : Bool) : Dev :=
  match d.pktFind (fun p => decide (p.entry = n) && !p.synth && decide (p.eof = none)) with
  | none => d
  | some i =>
    let p := d.pkt i
    let c := min p.cells (cellsOf p.len)
    let d0 := d.refreshHeads i d.flow.q
    let d1 := (d0.pktSet i { p with eof := some good, cells := c }).wrN (portBuf n 2) (d.rdN (portBuf n 2) - (p.cells - c))
    let d2 := if good then d1 else ((d1.prtCount n 2 1).stomp i d1.flow.ports).unqueue i d1.flow.q
    d2.pauseCheck n

/-- Free the cells of a packet and forget it (R237). -/
def Dev.freePkt (d : Dev) (i : Nat) : Dev :=
  let p := d.pkt i
  let d1 := { d with flow := { d.flow with pkts := Tab.del d.flow.pkts i } }
  if p.synth = false then (d1.wrN (portBuf p.entry 2) (d1.rdN (portBuf p.entry 2) - p.cells)).pauseCheck p.entry
  else { d1 with flow := { d1.flow with sysUsed := d1.flow.sysUsed - p.cells } }

/-! ### Links and the fail-safe (R173, R174, R182, R194, R195) -/

/-- A transmission that the link's loss cuts short; it counts as a link-down drop, and the pause frames that waited are not sent (log
126). -/
def Dev.txAbort (d : Dev) (n : Nat) : Dev :=
  match (d.portAt n).tx with
  | none => d
  | some (_, it) => ((d.portUpd n (fun p => { p with tx := none, ctl := [] })).dropItem it).prtCount n 15 1

/-- R174, R182, R197: port n's link goes down: LINK reads 0, LINKCHG is set, and what it had to send is dropped and counted; so is what its
pair's other port had, when that now sends Local Fault (R176, log 126). -/
def Dev.linkDown (d : Dev) (n : Nat) : Dev :=
  if (d.portAt n).link then
    let d1 := ((d.wrN (prt n 8) (d.rdN (prt n 8) / 2 * 2)).portUpd n (fun p => { p with link := false })).event (prt n 0x0C) 0
    ((d1.txAbort n).flushPort n).flushDead [d.partner n]
  else d

/-- R174: the lanes of port n retrain. -/
def Dev.retrain (d : Dev) (n : Nat) : Dev := (d.linkDown n).portUpd n (fun p => { p with training := true })

def Dev.retrainList (d : Dev) : List Nat → Dev
  | [] => d
  | n :: ns => (if d.portExists n then d.retrain n else d).retrainList ns

/-- R173: a port's link comes up or goes down, or a fault is received: LINK, LF and RF of PRT_STAT follow. A port whose speed is none of
its block's split stays down. -/
def Dev.linkChange (d : Dev) (n : Nat) (up lf rf : Bool) : Dev :=
  if !d.portExists n then d
  else
    let u := up && d.portFits n
    let set := fun (e : Dev) => e.wrN (prt n 8) (b2n u + 2 * b2n lf + 4 * b2n rf)
    if u then
      let d1 := (set d).portUpd n (fun p => { p with link := true, training := false })
      if (d.portAt n).link then d1 else d1.event (prt n 0x0C) 0
    else set (d.linkDown n)

/-- FAILSAFE_N driven low: the state of R194. -/
def Dev.failsafeAssert (d : Dev) : Dev :=
  if d.flow.failsafe then d
  else { d with flow := { d.flow with failsafe := true } }.emit (.pin "FAILSAFE_N" false)

/-- R194: the Helmet detects the loss of die F. -/
def Dev.dieFLoss (d : Dev) : Dev := { d with flow := { d.flow with dieFLost := true, released := false } }.failsafeAssert

/-- R195: every configured inline pair has link on both ports, or no longer holds the release. -/
def Dev.pairsUp (d : Dev) : Bool :=
  (upTo 32).all (fun n => !d.paired n || (d.portAt n).link && (d.portAt (d.partner n)).link || d.flow.waived.contains n)

/-- R194, R195: firmware releases FAILSAFE_N. `held` is the hold of dictionary entry 0x3003. -/
def Dev.failsafeRelease (d : Dev) (held : Bool) : Dev :=
  if d.fwReady && !d.flow.dieFLost && d.pairsUp && !held && d.flow.failsafe then
    { d with flow := { d.flow with released := true, failsafe := false } }.emit (.pin "FAILSAFE_N" true)
  else d

/-- R195: the pair wait of port n's inline pair has passed without link. -/
def Dev.pairWait (d : Dev) (n : Nat) : Dev :=
  if d.paired n && !d.flow.waived.contains n && !((d.portAt n).link && (d.portAt (d.partner n)).link) then
    { d with flow := { d.flow with waived := n :: d.partner n :: d.flow.waived } }.reportFree 9 0 0xFF
  else d

end Sys2Proof
end

