-- ==== Sys2Proof/Machine/Parse.lean ====
section
/-! DEFINITION. The parser (R200 to R205, R501): from the data of a frame to the 32 words of the parse result, a parse failure
or a punt reason. -/

namespace Sys2Proof

/-- What the parser reads besides the frame. -/
structure ParCfg where
  vxlan : Nat
  c37udp : Nat
  spdu : Nat
  c37tcp : Nat
  /-- the port is in ENDPOINT mode -/
  endpoint : Bool
  ipv4 : List Nat
  ipv6 : List Nat
  /-- PTP frames of the port are punted (reason 0x0C) -/
  ptpPunt : Bool
  deriving DecidableEq, Repr, Inhabited

/-- The parse so far: words 1 to 27 as far as read, PERR, the punt reasons found, flags of word 0. -/
structure PR where
  w : Tab Nat := []
  perr : Nat := 0
  punts : List Nat := []
  cls : Nat := 0
  vxlan : Bool := false
  mplsOpq : Bool := false
  llc : Bool := false
  localip : Bool := false
  deriving DecidableEq, Repr, Inhabited

/-- How a header read ends: all bytes there, or punt DEPTH, or the failure TRUNC. -/
inductive Need
  | ok | depth | trunc
  deriving DecidableEq, Repr

/-- R200: may the `n` bytes at offset `o` be read? -/
def need (bs : List Byte) (o n : Nat) : Need :=
  if o + n ≤ min 256 bs.length then .ok else if 256 < bs.length then .depth else .trunc

/-- A big-endian field of the frame. -/
def be (bs : List Byte) (o n : Nat) : Nat := beNat ((bs.drop o).take n)

/-- Add to word k. -/
def PR.put (p : PR) (k v : Nat) : PR := { p with w := Tab.set 0 p.w k (Tab.get 0 p.w k + v) }

def PR.fail (p : PR) (c : Nat) : PR := { p with perr := c }

def PR.punt (p : PR) (r : Nat) : PR := { p with punts := p.punts ++ [r] }

/-- Go on when a read is possible, else end with DEPTH or TRUNC. -/
def PR.reads (p : PR) (bs : List Byte) (o n : Nat) (go : PR → PR) : PR :=
  match need bs o n with
  | .ok => go p
  | .depth => p.punt 3
  | .trunc => p.fail 1

/-- Set the application fields: word 24, word 25 and the application offset of word 26. -/
def PR.app (p : PR) (o typ key w25 : Nat) : PR := ((p.put 24 (65536 * key + typ)).put 25 w25).put 26 (65536 * (o % 256))

/-! ### Applications -/

/-- GOOSE and SV over Ethernet. -/
def parGoose (bs : List Byte) (o typ : Nat) (p : PR) : PR :=
  p.reads bs o 4 (fun p =>
    let q := { p with cls := 3 }.app o typ (be bs o 2) (be bs (o + 2) 2)
    if bs.length < o + be bs (o + 2) 2 then q.fail 8 else q)

/-- PTP, over Ethernet or UDP. -/
def parPtp (c : ParCfg) (bs : List Byte) (o : Nat) (udp : Bool) (p : PR) : PR :=
  p.reads bs o 5 (fun p =>
    let q := (if udp then p else { p with cls := 3 }).app o 9 0 (65536 * b2n udp + 256 * be bs (o + 4) 1 + be bs o 1 % 16)
    if c.ptpPunt then q.punt 0x0C else q)

/-- R-GOOSE and R-SV; the places of the fields are those of IEC 61850-90-5 (log 31). -/
def parSpdu (bs : List Byte) (o : Nat) (p : PR) : PR :=
  p.reads bs o 1 (fun p =>
    let si := be bs o 1
    if si = 0xA1 ∨ si = 0xA2 then
      p.reads bs o 34 (fun p =>
        let len := be bs (o + 4) 4
        let q := p.app o (if si = 0xA1 then 3 else 4) (be bs (o + 32) 2) (len % 65536)
        if bs.length < o + 8 + len then q.fail 8
        else if be bs (o + 20) 1 ≠ 0 ∨ be bs (o + 21) 1 ≠ 0 then q.punt 8 else q)
    else p)

/-- APPTYPE of a C37.118 frame type (R204). -/
def c37Type (t : Nat) : Nat := [5, 7, 6, 6, 8, 6, 0, 0].getD t 0

/-- C37.118 over UDP. -/
def parC37 (c : ParCfg) (bs : List Byte) (o : Nat) (p : PR) : PR :=
  p.reads bs o 1 (fun p =>
    if be bs o 1 ≠ 0xAA then p.fail 7
    else p.reads bs o 6 (fun p =>
      let t := be bs (o + 1) 1 / 16 % 8
      let q := p.app o (c37Type t) (be bs (o + 4) 2) (65536 * t + be bs (o + 2) 2)
      if bs.length < o + be bs (o + 2) 2 then q.fail 8
      else if c37Type t = 6 ∧ c.endpoint ∧ q.localip then q.punt 0x0B else q))

/-! ### TCP and UDP -/

def parTcp (c : ParCfg) (bs : List Byte) (o : Nat) (p : PR) : PR :=
  (p.put 26 (256 * (o % 256))).reads bs o 14 (fun p =>
    if be bs (o + 12) 1 / 16 < 5 then p.fail 5
    else
      let q := (p.put 19 (be bs o 4)).put 20 (be bs (o + 12) 2 % 512)
      if q.localip then
        if be bs (o + 2) 2 = c.c37tcp ∧ c.endpoint then q.punt 7 else q.punt 9
      else q)

/-- UDP and what it carries; `vx` gives the parse of a VXLAN payload. -/
def parUdp (c : ParCfg) (bs : List Byte) (o : Nat) (inner : Bool) (vx : Nat → PR → PR) (p : PR) : PR :=
  (p.put 26 (256 * (o % 256))).reads bs o 4 (fun p =>
    let q := p.put 19 (be bs o 4)
    let dp := be bs (o + 2) 2
    let a := o + 8
    if dp = c.vxlan ∧ inner = false then vx a q
    else if dp = 319 ∨ dp = 320 then parPtp c bs a true q
    else if dp = c.spdu then parSpdu bs a q
    else if dp = c.c37udp then parC37 c bs a q
    else q)

/-! ### IP -/

/-- The four words of an IP address, most significant first, from word k. -/
def PR.ip (p : PR) (k a : Nat) : PR :=
  (((p.put k (a / 2 ^ 96)).put (k + 1) (a / 2 ^ 64 % 2 ^ 32)).put (k + 2) (a / 2 ^ 32 % 2 ^ 32)).put (k + 3) (a % 2 ^ 32)

/-- R203: LOCALIP, when the outermost IP destination is one of the port's addresses. -/
def PR.mark (p : PR) (c : ParCfg) (inner hit : Bool) : PR := if !inner && c.endpoint && hit then { p with localip := true } else p

/-- R202, R203: the failure NOTLOCAL of the outermost IP destination, behind the punts FRAG and EXTHDR. `exempt` holds for multicast and
broadcast. -/
def PR.local (p : PR) (c : ParCfg) (inner exempt : Bool) (go : PR → PR) : PR :=
  if inner || !c.endpoint || p.localip || exempt then go p else p.fail 6

/-- The ones' complement sum of the 16-bit words of a header. -/
def sum16 : List Byte → Nat
  | [] => 0
  | [b] => 256 * b.toNat
  | a :: b :: bs => 256 * a.toNat + b.toNat + sum16 bs

/-- Does the IPv4 header checksum hold? -/
def csumOk (h : List Byte) : Bool :=
  let s := sum16 h
  let f := s % 65536 + s / 65536
  decide (f % 65536 + f / 65536 = 0xFFFF)

/-- What follows an IP header: TCP, UDP, and behind an outermost one ICMP; nothing else is read (R200). -/
def parL4 (c : ParCfg) (bs : List Byte) (o proto : Nat) (v6 inner : Bool) (vx : Nat → PR → PR) (p : PR) : PR :=
  if proto = 6 then parTcp c bs o p
  else if proto = 17 then parUdp c bs o inner vx p
  else if proto = 1 ∧ v6 = false ∧ inner = false then
    (let q := p.put 26 (256 * (o % 256))
     if q.localip then q.punt 0x0A else q)
  else if proto = 58 ∧ v6 ∧ inner = false then
    (p.put 26 (256 * (o % 256))).reads bs o 1 (fun p =>
      let t := be bs o 1
      if 133 ≤ t ∧ t ≤ 137 then (if c.endpoint then p.punt 6 else p)
      else if p.localip then p.punt 0x0A else p)
  else p

/-- IPv4 (R200, R202, R204). -/
def parIpv4 (c : ParCfg) (bs : List Byte) (o : Nat) (inner : Bool) (vx : Nat → PR → PR) (p : PR) : PR :=
  (p.put 26 (o % 256)).reads bs o 20 (fun p =>
    let ihl := be bs o 1 % 16
    let tot := be bs (o + 2) 2
    if be bs o 1 / 16 ≠ 4 ∨ ihl < 5 ∨ tot < 4 * ihl ∨ bs.length < o + tot then p.fail 2
    else p.reads bs o (4 * ihl) (fun p =>
      if csumOk ((bs.drop o).take (4 * ihl)) = false then p.fail 3
      else
        let src := 0xFFFF * 2 ^ 32 + be bs (o + 12) 4
        let d4 := be bs (o + 16) 4
        let q := (({ p with cls := 1 }.ip 9 src).ip 13 (0xFFFF * 2 ^ 32 + d4)).put 17
          (2 ^ 22 * (be bs (o + 1) 1 % 4) + 2 ^ 16 * (be bs (o + 1) 1 / 4) + 256 * be bs (o + 8) 1 + be bs (o + 9) 1)
        let q := q.mark c inner (c.ipv4.contains d4)
        if be bs (o + 6) 2 % 0x4000 ≠ 0 then q.punt 1
        else q.local c inner (decide (d4 / 2 ^ 28 = 14) || decide (d4 = 2 ^ 32 - 1)) (fun q =>
          parL4 c bs (o + 4 * ihl) (be bs (o + 9) 1) false inner vx q)))

/-- R200, R204: the extension headers of IPv6: how many so far, the next header's number and offset. The answer goes on with the
last protocol. Wherever it ends, word 17 has the headers parsed and the last next-header number read. -/
def parExt (bs : List Byte) (go : Nat → Nat → Nat → PR → PR) : Nat → Nat → Nat → Nat → PR → PR
  | 0, cnt, nh, o, p => go cnt nh o p
  | fuel + 1, cnt, nh, o, p =>
    let e := p.put 17 (2 ^ 24 * cnt + nh)
    if nh = 44 then e.punt 1
    else if nh = 0 ∨ nh = 43 ∨ nh = 60 then
      if cnt = 2 then e.punt 2
      else match need bs o 2 with
        | .ok => parExt bs go fuel (cnt + 1) (be bs o 1) (o + 8 * (be bs (o + 1) 1 + 1)) p
        | .depth => e.punt 3
        | .trunc => e.fail 1
    else go cnt nh o e

/-- IPv6 (R200, R202, R204). -/
def parIpv6 (c : ParCfg) (bs : List Byte) (o : Nat) (inner : Bool) (vx : Nat → PR → PR) (p : PR) : PR :=
  (p.put 26 (o % 256)).reads bs o 40 (fun p =>
    if be bs o 1 / 16 ≠ 6 ∨ bs.length < o + 40 + be bs (o + 4) 2 then p.fail 4
    else
      let tc := be bs o 2 / 16 % 256
      let dst := be bs (o + 24) 16
      let q := ((({ p with cls := 2 }.ip 9 (be bs (o + 8) 16)).ip 13 dst).put 18 (be bs o 4 % 2 ^ 20)).put 17
        (2 ^ 22 * (tc % 4) + 2 ^ 16 * (tc / 4) + 256 * be bs (o + 7) 1)
      parExt bs (fun _ nh o2 q =>
        q.local c inner (decide (dst / 2 ^ 120 = 255)) (fun q =>
          parL4 c bs o2 nh true inner vx q)) 3 0 (be bs (o + 6) 1) (o + 40) (q.mark c inner (c.ipv6.contains dst)))

/-! ### MPLS, tags and Ethernet -/

/-- R200: MPLS label stack entries from number `cnt` on. -/
def parMpls (c : ParCfg) (bs : List Byte) (vx : Nat → PR → PR) : Nat → Nat → Nat → PR → PR
  | 0, _, _, p => p.punt 5
  | fuel + 1, cnt, o, p =>
    p.reads bs o 4 (fun p =>
      let e := be bs o 4
      let q := (p.put (6 + cnt) e).put 5 (2 ^ 18)
      if bit e 8 then
        q.reads bs (o + 4) 1 (fun q =>
          let nib := be bs (o + 4) 1 / 16
          if nib = 4 then parIpv4 c bs (o + 4) false vx q
          else if nib = 6 then parIpv6 c bs (o + 4) false vx q
          else { q with mplsOpq := true })
      else parMpls c bs vx fuel (cnt + 1) (o + 4) q)

/-- What an EtherType at its place leads to; `o` is the offset after it. -/
def parEther (c : ParCfg) (bs : List Byte) (t o : Nat) (inner : Bool) (vx : Nat → PR → PR) (p : PR) : PR :=
  if t = 0x0800 then parIpv4 c bs o inner vx p
  else if t = 0x86DD then parIpv6 c bs o inner vx p
  else if inner then p
  else if t = 0x8847 ∨ t = 0x8848 then parMpls c bs vx 3 0 o p
  else if t = 0x88F7 then parPtp c bs o false p
  else if t = 0x88B8 then parGoose bs o 1 p
  else if t = 0x88BA then parGoose bs o 2 p
  else if t = 0x0806 then (if c.endpoint then p.punt 6 else p)
  else if t < 0x0600 then { p with llc := true }
  else p

/-- R200: up to two tags, then what the EtherType leads to. -/
def parTags (c : ParCfg) (bs : List Byte) (inner : Bool) (vx : Nat → PR → PR) : Nat → Nat → Nat → Nat → PR → PR
  | 0, _, _, _, p => p
  | fuel + 1, cnt, t, o, p =>
    if t = 0x8100 ∨ t = 0x88A8 then
      if cnt = 2 then p.punt 4
      else p.reads bs o 4 (fun p =>
        let q := if inner then p else (p.put 4 (if cnt = 0 then 65536 * be bs o 2 else be bs o 2)).put 5 (2 ^ 16)
        parTags c bs inner vx fuel (cnt + 1) (be bs (o + 2) 2) (o + 4) q)
    else parEther c bs t o inner vx (if inner then p else p.put 5 t)

/-- Fold an IP address for words 22 and 23 (R204): the IPv4 address, or the XOR of the four words. -/
def PR.fold (p : PR) (k : Nat) : Nat :=
  let w := fun i => Tab.get 0 p.w (k + i)
  if p.cls = 1 then w 3 else Nat.xor (Nat.xor (w 0) (w 1)) (Nat.xor (w 2) (w 3))

/-- R200, R204: VXLAN: the VNI and the inner Ethernet; words 9 to 20 come to describe the inner headers. -/
def parVxlan (c : ParCfg) (bs : List Byte) (o : Nat) (p : PR) : PR :=
  p.reads bs o 7 (fun p =>
    let s := p.fold 9
    let t := p.fold 13
    let i := o + 8
    let q : PR := { p with vxlan := true, w := Tab.keep p.w (fun k _ => decide (k < 9) || decide (20 < k) && decide (k ≠ 26)) }
    let q := (((q.put 21 (be bs (o + 4) 3)).put 22 s).put 23 t).put 26 (2 ^ 24 * (i % 256))
    q.reads bs i 14 (fun q => parTags c bs true (fun _ r => r) 4 0 (be bs (i + 12) 2) (i + 14) q))

/-- R200: a whole frame. -/
def parseFrame (c : ParCfg) (bs : List Byte) : PR :=
  ({} : PR).reads bs 0 14 (fun p =>
    let q := ((p.put 1 (be bs 0 4)).put 2 (be bs 4 4)).put 3 (be bs 8 4)
    parTags c bs false (parVxlan c bs) 4 0 (be bs 12 2) 14 q)

/-- R204: the 32 words. `frm` gives the flags of word 0 that come with the packet. -/
def PR.words (r : PR) (mode port len : Nat) (msUntag msFail synth reinj : Bool) : List Nat :=
  (upTo 32).map (fun k =>
    if k = 0 then 2 ^ 24 * r.perr + 2 ^ 18 * b2n r.vxlan + 2 ^ 17 * b2n r.mplsOpq + 2 ^ 16 * b2n r.llc + 2 ^ 15 * b2n r.localip +
      2 ^ 14 * b2n msUntag + 2 ^ 13 * b2n msFail + 2 ^ 12 * b2n synth + 2 ^ 11 * b2n reinj + 256 * r.cls + 32 * mode + port
    else if k = 27 then len % 2 ^ 14
    else Tab.get 0 r.w k)

/-- R205: the punt reason: the lowest code found. -/
def PR.reason (r : PR) : Option Nat := r.punts.foldl (fun m x => match m with | some y => some (min x y) | none => some x) none

end Sys2Proof
end

