-- ==== Sys2Proof/Machine/Classify.lean ====
section
/-! DEFINITION. Dispatch, parse results, punts and reinjection, classification, rule versions and the reorder stage
(chapter 8). -/

namespace Sys2Proof

/-! ### Counters and configuration -/

def Dev.parCount (d : Dev) (k : Nat) : Dev := d.count64 (parBase + 0x100 + 8 * k) 1

def Dev.clsCount (d : Dev) (k : Nat) : Dev := d.count64 (clsBase + 0x500 + 8 * k) 1

def Dev.clsCounts (d : Dev) : List Nat → Dev
  | [] => d
  | k :: ks => (d.clsCount k).clsCounts ks

/-- What the parser reads of the configuration for a packet of port n (R199, R227). -/
def Dev.parCfgOf (d : Dev) (n mode : Nat) : ParCfg :=
  let u := d.rdN (parBase + 4)
  let l := d.rdN (parBase + 8)
  { vxlan := u / 65536, c37udp := u % 65536, spdu := l / 65536, c37tcp := l % 65536, endpoint := decide (mode = 3),
    ipv4 := (d.portAt n).ipv4, ipv6 := (d.portAt n).ipv6, ptpPunt := bit (d.rdN (parBase + 0x10)) n }

/-- R199: the settings a packet taken now keeps: PAR_CTL, PAR_L4PORTS, PAR_PUNTMAP, and PAR_PUNTLIM of the reasons that exist (R205). -/
def Dev.parSnap (d : Dev) : ParSnap :=
  { ctl := d.rdN (parBase + 0x0C), l4 := d.rdN (parBase + 8), map := (upTo 5).map (fun i => d.rdN (parBase + 0x20 + 4 * i)),
    lim := (upTo 35).map (fun r => d.rdN (parBase + 0x400 + 4 * r)) }

/-- A field of word w of a parse result. -/
def parW (p : Pkt) (w h l : Nat) : Nat := bits (p.par.getD w 0) h l

/-! ### Sequence numbers and the reorder window (R198, R225) -/

/-- Advance the release pointer over the gaps. -/
def PortSt.skip : Nat → PortSt → PortSt
  | 0, x => x
  | fuel + 1, x =>
    if x.gaps.contains x.relSeq then
      PortSt.skip fuel { x with gaps := x.gaps.filter (fun g => decide (g ≠ x.relSeq)), relSeq := (x.relSeq + 1) % 65536 }
    else x

/-- R225: a sequence number released at once, as a gap. -/
def Dev.seqGap (d : Dev) (n s : Nat) : Dev :=
  d.portUpd n (fun x => PortSt.skip 1025 { x with gaps := x.gaps ++ [s] })

/-- Packets of the port in its reorder window. -/
def PortSt.window (x : PortSt) : Nat := (x.nextSeq + 65536 - x.relSeq) % 65536

/-! ### Versions (R219 to R224) -/

/-- CLS_VCUR. -/
def Dev.vcur (d : Dev) : Nat := (d.flow.vers.getLast?.map (fun s => s.v)).getD 1

/-- BASE (R219). -/
def Dev.vbase (d : Dev) : Nat := (d.flow.vers.head?.map (fun s => s.v)).getD 1

/-- The successor of a version. -/
def vsucc (v : Nat) : Nat := v % 65535 + 1

def Dev.vord (d : Dev) (v : Nat) : Nat := (v + 65535 - d.vbase) % 65535

def ctlValid (c : Nat) : Bool := bit c 63
def ctlOwner (c : Nat) : Nat := bits c 62 57
def ctlProf (c : Nat) : Nat := bits c 47 32
def ctlVmax (c : Nat) : Nat := bits c 31 16
def ctlVmin (c : Nat) : Nat := bits c 15 0

/-- R220: is an object of control word c visible to version pv? -/
def Dev.visible (d : Dev) (c pv : Nat) : Bool :=
  ctlValid c && !(decide (ctlVmin c ≠ 0) && decide (d.vord pv < d.vord (ctlVmin c))) &&
  !(decide (ctlVmax c ≠ 0) && decide (d.vord (ctlVmax c) < d.vord pv))

/-- Change the in-flight count of a version. -/
def Dev.verUpd (d : Dev) (v : Nat) (f : Nat → Nat) : Dev :=
  { d with flow := { d.flow with vers := d.flow.vers.map (fun s => if s.v = v then { s with infl := f s.infl } else s) } }

/-- R223: a packet leaves its version. -/
def Dev.leaveVer (d : Dev) (i : Nat) : Dev :=
  let p := d.pkt i
  if p.inVer then (d.pktSet i { p with inVer := false }).verUpd p.ver (fun n => n - 1) else d

/-- The control word of a template record. -/
def tplCtl (bs : List Byte) : Nat := leNat (bs.take 8)

def tplSetCtl (bs : List Byte) (c : Nat) : List Byte := leBytes 8 c ++ bs.drop 8

/-- A control word staged for version n: VMIN = n, VMAX = 0, VALID. -/
def ctlStage (c n : Nat) : Nat := setBit (putBits (putBits c 31 16 0) 15 0 n) 63

/-- Where the records of template number k are kept: at most four versions are in the window (R222) and one is staged, so five places
hold every record that any of them sees (R220, R221). The place is k + 4,096 × j. -/
def tplPlaces (k : Nat) : List Nat := (upTo 5).map (fun j => k + 4096 * j)

/-- The record of template number k that version pv sees, or none (R301). -/
def Dev.tplRec (d : Dev) (k pv : Nat) : List Byte :=
  (((tplPlaces k).map (fun i => Tab.get [] d.flow.tpl i)).find? (fun b => !b.isEmpty && d.visible (tplCtl b) pv)).getD []

/-- A free place for a new record of number k. -/
def Dev.tplFree (d : Dev) (k : Nat) : Nat := ((tplPlaces k).find? (fun i => (Tab.get [] d.flow.tpl i).isEmpty)).getD k

/-- Change the records of template number k. -/
def Dev.tplUpd (d : Dev) (k : Nat) (f : List Byte → List Byte) : Dev :=
  { d with flow := { d.flow with tpl := Tab.mapAll ([] : List Byte) d.flow.tpl (fun i b => if i % 4096 = k then f b else b) } }

/-- R222: one staged write of firmware; `n` the version prepared, `cur` the current one. An image of `.ens` is placed by `Dev.stageFw`. -/
def Dev.stageObj (d : Dev) (n cur : Nat) (o : VObj) : Dev :=
  let f := d.flow
  match o with
  | .am i e => { d with flow := { f with am := Tab.set {} f.am i { e with ctl := ctlStage e.ctl n } } }
  | .ch u e => { d with flow := { f with ch := Tab.set {} f.ch u { e with ctl := ctlStage e.ctl n } } }
  | .tpl k bs => { d with flow := { f with tpl := Tab.set [] f.tpl (d.tplFree k) (tplSetCtl bs (ctlStage (tplCtl bs) n)) } }
  | .endAm i => { d with flow := { f with am := Tab.upd ({} : AmEnt) f.am i (fun e => { e with ctl := putBits e.ctl 31 16 cur }) } }
  | .endCh u => { d with flow := { f with ch := Tab.upd ({} : ChEnt) f.ch u (fun e => { e with ctl := putBits e.ctl 31 16 cur }) } }
  | .endTpl k => d.tplUpd k (fun b => if ctlVmax (tplCtl b) = 0 ∧ ctlVmin (tplCtl b) ≠ n then tplSetCtl b (putBits (tplCtl b) 31 16 cur) else b)
  | .endEns r => { d with flow := { f with recs := Tab.upd ({} : EnsRec) f.recs r (fun e => { e with ctl := putBits e.ctl 31 16 cur }) } }
  | .undoAm i => { d with flow := { f with am := Tab.upd ({} : AmEnt) f.am i (fun e =>
      if ctlVmin e.ctl = n then { e with ctl := 0 } else { e with ctl := putBits e.ctl 31 16 0 }) } }
  | .undoCh u => { d with flow := { f with ch := Tab.upd ({} : ChEnt) f.ch u (fun e =>
      if ctlVmin e.ctl = n then { e with ctl := 0 } else { e with ctl := putBits e.ctl 31 16 0 }) } }
  | .ens _ => d
  | .undoEns r =>
    if ctlVmin (Tab.get ({} : EnsRec) f.recs r).ctl = n then { d with flow := { f with recs := Tab.del f.recs r } }
    else { d with flow := { f with recs := Tab.upd ({} : EnsRec) f.recs r (fun e =>
      if ctlVmax e.ctl = cur then { e with ctl := putBits e.ctl 31 16 0 } else e) } }
  | .undoTpl k => d.tplUpd k (fun b =>
      if ctlVmin (tplCtl b) = n then [] else if ctlVmax (tplCtl b) = cur then tplSetCtl b (putBits (tplCtl b) 31 16 0) else b)

def Dev.stageAll (d : Dev) (n cur : Nat) : List VObj → Dev
  | [] => d
  | o :: os => (d.stageObj n cur o).stageAll n cur os

/-- R222, R228: firmware writes version v into CLS_VCOMMIT. The Bool says whether the commit was accepted: one in an FCLK at most. -/
def Dev.commit (d0 : Dev) (v : Nat) : Dev × Bool :=
  let d := d0.wrN (clsBase + 0x0C) (v % 65536)
  if v ≠ vsucc d.vcur ∨ d.flow.commitAt = some d.fclk then ((d.wrN (clsBase + 0x10) (2 ^ 16 + v % 65536)).event (clsBase + 0x14) 2, false)
  else if 4 ≤ d.flow.vers.length then ((d.wrN (clsBase + 0x10) (2 ^ 17 + v % 65536)).event (clsBase + 0x14) 2, false)
  else (({ d with flow := { d.flow with vers := d.flow.vers ++ [({ v := v } : VerSlot)], commitAt := some d.fclk } }.wrN (clsBase + 0x10) v).event (clsBase + 0x14) 0, true)

/-- The first live version that may retire: every older one has, its count is 0, it is not the current one (R223). -/
def retireList : List VerSlot → Option (List VerSlot)
  | [] => none
  | [_] => none
  | s :: rest =>
    if s.live = false then (retireList rest).map (fun r => s :: r)
    else if s.infl = 0 then some ({ s with live := false } :: rest)
    else none

/-- R223: a version retires. -/
def Dev.retire (d : Dev) : Dev :=
  match retireList d.flow.vers with
  | some vs => { d with flow := { d.flow with vers := vs } }.event (clsBase + 0x14) 1
  | none => d

/-- R224: what the sweep of version v makes of a control word: the new one. -/
def sweepCtl (v c : Nat) : Nat :=
  let c1 := if ctlVmax c = v then clrBit c 63 else c
  if ctlVmin c1 = v then putBits c1 15 0 0 else c1

/-- R277: the tree engine's record of an ensemble. -/
def Dev.treeEvent (d : Dev) (owner code ens count detail : Nat) : Dev :=
  d.catPut { value := code + 256 * ens + 2 ^ 32 * stick32 count, source := 32, partition := if owner < 32 then owner else 0xFF,
             kind := 0x10, detail := detail }

/-- R276, R277: the records whose head slot the sweep of v clears post a RETIRED event; store and slots are free at the sweep's end. -/
def Dev.sweepRecs (d : Dev) (v : Nat) : List (Nat × EnsRec) → Dev
  | [] => d
  | (k, r) :: rest =>
    let d1 := { d with flow := { d.flow with recs := Tab.set {} d.flow.recs k { r with ctl := sweepCtl v r.ctl } } }
    (if ctlVmax r.ctl = v ∧ ctlValid r.ctl then d1.treeEvent (ctlOwner r.ctl) 5 r.ens (r.trees.length * r.copies.length) 0 else d1).sweepRecs v rest

/-- R224: the sweep of the oldest retired version: VALID is cleared where VMAX is v, VMIN becomes 0 where it is v. -/
def Dev.sweep (d : Dev) : Dev :=
  match d.flow.vers with
  | s :: _ =>
    if s.live || d.flow.sweeping then d
    else
      let v := s.v
      let f := d.flow
      let am := Tab.mapAll ({} : AmEnt) f.am (fun _ e => { e with ctl := sweepCtl v e.ctl })
      let ch := Tab.mapAll ({} : ChEnt) f.ch (fun _ e => { e with ctl := sweepCtl v e.ctl })
      let tpl := Tab.mapAll ([] : List Byte) f.tpl (fun _ b => tplSetCtl b (sweepCtl v (tplCtl b)))
      ({ d with flow := { f with am := am, ch := ch, tpl := tpl, sweeping := true } }).sweepRecs v f.recs
  | [] => d

/-- R224, R276: the sweep ends: BASE becomes the next version, and what it cleared is free from now on. -/
def Dev.sweepEnd (d : Dev) : Dev :=
  let f := d.flow
  if f.sweeping then
    { d with flow := { f with
        vers := f.vers.tail, sweeping := false,
        am := Tab.keep f.am (fun _ e => ctlValid e.ctl), ch := Tab.keep f.ch (fun _ e => ctlValid e.ctl),
        tpl := Tab.keep f.tpl (fun _ b => ctlValid (tplCtl b)), recs := Tab.keep f.recs (fun _ r => ctlValid r.ctl) } }
  else d

/-! ### Punts and snoops (R205 to R208) -/

/-- The Shortstop core of a reason (PAR_PUNTMAP). -/
def ParSnap.core (c : ParSnap) (r : Nat) : Nat := bits (c.map.getD (r / 8) 0) (4 * (r % 8) + 2) (4 * (r % 8))

/-- One token, in the units of the buckets. -/
def tok1 : Nat := 1250000000

/-- R206: take a token of reason r, whose PAR_PUNTLIM is `lim`; the Bool says whether there was a whole one. -/
def Dev.puntToken (d : Dev) (r lim : Nat) : Dev × Bool :=
  let full := bits lim 31 20 * tok1
  let t := match Tab.get none d.flow.punt r with
    | none => full
    | some (t, at_) => min full (t + (d.fclk - at_) * bits lim 19 0)
  let set := fun (x : Nat) => { d with flow := { d.flow with punt := Tab.put d.flow.punt r (some (x, d.fclk)) } }
  if tok1 ≤ t ∧ bits lim 19 0 ≠ 0 then (set (t - tok1), true) else (set t, false)

/-- R199, R206: offer an entry to the Shortstop core of reason r under the settings of its packet's take; the Bool says whether it was
admitted. -/
def Dev.puntOffer (d : Dev) (r : Nat) (conf : ParSnap) (e : PuntEnt) : Dev × Bool :=
  let t := d.puntToken r (conf.lim.getD r 0)
  let c := conf.core r
  let q := Tab.get [] t.1.flow.puntQ c
  if t.2 && decide (q.length < 512) then
    ({ t.1 with flow := { t.1.flow with puntQ := Tab.set [] t.1.flow.puntQ c (q ++ [e]) } }.count64 (parBase + 0x800 + 16 * r) 1, true)
  else ((t.1.count64 (parBase + 0x808 + 16 * r) 1).event (parBase + 0x14) 0, false)

/-- R207: the 32-byte punt header. -/
def puntHeader (p : Pkt) (r ver ruleid metaW : Nat) (snoop verdict : Bool) : List Byte :=
  leBytes 2 r ++ leBytes 1 p.port ++ leBytes 1 (b2n snoop + 2 * b2n p.reinj + 4 * b2n p.synth + 8 * b2n verdict) ++ leBytes 2 ver ++
  leBytes 2 ruleid ++ leBytes 4 metaW ++ leBytes 4 p.len ++ p.stamp.bytes

/-- A packet whose frame nothing needs any more leaves the flow plane: finished with by every stage. -/
def Dev.pktGone (d : Dev) (i : Nat) : Dev := (d.leaveVer i).pktUpd i (fun p => { p with stage := .gone, hudDone := true })

/-- R205, R206: punt packet i with reason r. -/
def Dev.puntPkt (d : Dev) (i r ver ruleid metaW : Nat) (verdict : Bool) : Dev :=
  let p := d.pkt i
  let d1 := d.leaveVer i
  let o := d1.puntOffer r p.conf { header := puntHeader p r ver ruleid metaW false verdict, par := p.par, pkt := some i }
  if o.2 then o.1.pktUpd i (fun q => { q with stage := .punted (p.conf.core r), hudDone := true })
  else o.1.pktGone i

/-- The packets of the stage in take order: the first. -/
def Dev.oldest (d : Dev) (f : Stage → Bool) : Option Nat :=
  (d.flow.pkts.foldl (fun (m : Option (Nat × Nat)) kv =>
    if f kv.2.stage then
      (match m with
       | some (_, o) => if kv.2.order < o then some (kv.1, kv.2.order) else m
       | none => some (kv.1, kv.2.order))
    else m) none).map (fun x => x.1)

/-- Where a packet stands in the steps that keep take order (R232, R238, R268): 1 in a parser pipe to 5 policed, 0 elsewhere. -/
def Stage.rank : Stage → Nat
  | .taken _ => 1
  | .parsed => 2
  | .classified => 3
  | .bound => 4
  | .policed => 5
  | _ => 0

/-- The packet whose turn at a step it is, in take order: the first of the stage before it, unless one taken earlier is still to come. -/
def Dev.turn (d : Dev) (st : Stage) : Option Nat :=
  match d.oldest (fun s => decide (s = st)) with
  | none => none
  | some i =>
    if d.flow.pkts.any (fun kv => decide (0 < kv.2.stage.rank) && decide (kv.2.stage.rank < st.rank) && decide (kv.2.order < (d.pkt i).order)) then none
    else some i

/-- The packet of a stage that was handed over first. -/
def Dev.firstHand (d : Dev) (st : Stage) : Option Nat :=
  (d.flow.pkts.foldl (fun (m : Option (Nat × Nat)) kv =>
    if kv.2.stage = st then
      (match m with
       | some (_, o) => if kv.2.hand < o then some (kv.1, kv.2.hand) else m
       | none => some (kv.1, kv.2.hand))
    else m) none).map (fun x => x.1)

/-- The next number of a hand-over. -/
def Dev.nextHand (d : Dev) : Dev := { d with flow := { d.flow with hands := d.flow.hands + 1 } }

/-- R208: a Shortstop core reinjects. An original keeps its stamp and the cells of the port it entered by; under another port it is a new
arrival of that port, in its mode of now (log 129). A SYNTH frame's stamp is marked SUPPLIED (R281); one that finds the system pool full is
dropped and counted (R237). -/
def Dev.reinject (d : Dev) (core port : Nat) (k : Reinj) : Dev :=
  match k with
  | .orig k =>
    let q := Tab.get [] d.flow.puntQ core
    match (q[k]?).bind (fun e => e.pkt) with
    | some i =>
      let p := d.pkt i
      let d1 := { d with flow := { d.flow with puntQ := Tab.set [] d.flow.puntQ core (q.eraseIdx k) } }
      (d1.pktSet i { p with src := 32, port := port, mode := if port = p.port then p.mode else d.portMode port, reinj := true, stage := .rx,
                            par := [], punt3 := none, hudDone := false, defaulted := false, flow := none, dn := none, entity := none,
                            marked := false, released := false, tagged := false, fileAt := none }).parCount 4
    | none => d
  | .synth data stamp =>
    let c := cellsOf (data.length + 4)
    if d.rdN (gntBase + 8) < d.flow.sysUsed + c then { d with flow := { d.flow with synthDrop := d.flow.synthDrop + 1 } }
    else
      let p : Pkt := { src := 32, port := port, mode := d.portMode port, data := data, len := data.length + 4,
                       stamp := { stamp with flags := setBit stamp.flags 0 },
                       cells := c, reinj := true, synth := true, eof := some true }
      { d with flow := { d.flow with pkts := Tab.put d.flow.pkts d.flow.nextPkt p, nextPkt := d.flow.nextPkt + 1,
                                     sysUsed := d.flow.sysUsed + c } }.parCount 5

/-- R207: a Shortstop core releases the k-th entry of its queue, and the buffer its frame. -/
def Dev.puntRelease (d : Dev) (core k : Nat) : Dev :=
  let q := Tab.get [] d.flow.puntQ core
  match q[k]? with
  | none => d
  | some e =>
    let d1 := { d with flow := { d.flow with puntQ := Tab.set [] d.flow.puntQ core (q.eraseIdx k) } }
    match e.pkt with
    | some i => d1.freePkt i
    | none => d1

/-! ### Dispatch and parse results (R198, R199) -/

/-- Is the window of port n full (R225)? -/
def Dev.windowFull (d : Dev) (n : Nat) : Bool := decide (1024 ≤ (d.portAt n).window)

/-- R198: may a packet that waits at its source be taken: on a port with ingress MACsec on, once its whole frame has arrived? -/
def Dev.arrived (d : Dev) (p : Pkt) : Bool := decide (p.src = 32) || !bit (d.rdN (prt p.entry 0x30)) 0 || decide (p.eof ≠ none)

/-- R198, R225: the packet source s offers: a port's first one, when it may be taken and the window has room; of the packets that wait at
source 32 one that no full window holds. DESIGN CHOICE (log 130): of several there, the one with the lowest packet number. -/
def Dev.eligible (d : Dev) (s : Nat) : Option Nat :=
  if s = 32 then d.pktFind (fun p => decide (p.src = 32) && decide (p.stage = .rx) && !d.windowFull p.port)
  else match d.pktFind (fun p => decide (p.src = s) && decide (p.stage = .rx)) with
    | some i => if d.arrived (d.pkt i) && !d.windowFull (d.pkt i).port then some i else none
    | none => none

/-- R225: does a full window hold a packet that could be taken? -/
def Dev.anyHeld (d : Dev) : Bool :=
  d.flow.pkts.any (fun kv => decide (kv.2.stage = .rx) && d.arrived kv.2 && d.windowFull kv.2.port)

/-- R198: one take. -/
def Dev.take1 (d : Dev) (s i : Nat) : Dev :=
  let p := d.pkt i
  let f := d.flow
  let x := d.portAt p.port
  let r := parseFrame (d.parCfgOf p.port p.mode) p.data
  let w := r.words p.mode p.port p.len p.msUntag p.msFail p.synth p.reinj
  let d1 := { d with flow := { f with takes := f.takes + 1, dptr := (s + 1) % 33 } }
  let d2 := ((d1.portSet p.port { x with nextSeq := (x.nextSeq + 1) % 65536 }).pktSet i
    { p with order := f.takes, seq := x.nextSeq, stage := .taken (f.takes % 4), par := w, punt3 := r.reason, conf := d.parSnap }).parCount
      (f.takes % 4)
  if r.reason.isSome && !p.reinj then d2.seqGap p.port x.nextSeq else d2

/-- R198: the dispatcher takes up to `k` packets, visiting the sources in order. -/
def Dev.dispatchFrom (d : Dev) : Nat → List Nat → Dev
  | _, [] => d
  | k, s :: ss =>
    if k = 0 then d
    else match d.eligible s with
      | none => d.dispatchFrom k ss
      | some i => (d.take1 s i).dispatchFrom (k - 1) ss

/-- R198, R225, R227: one FCLK of the dispatcher. REORDHOLD counts an FCLK in which a full window holds a port. -/
def Dev.dispatchTake (d : Dev) : Dev :=
  (if d.anyHeld then (d.parCount 7).event (parBase + 0x14) 1 else d).dispatchFrom 4 ((upTo 33).map (fun i => (d.flow.dptr + i) % 33))

/-- R301, R205: has a stream (APPTYPE, KEY) a stream template visible to the current version? -/
def Dev.hasTemplate (d : Dev) (w24 : Nat) : Bool :=
  d.flow.tpl.any (fun kv => decide (leNat ((kv.2.drop 8).take 1) = 2) && d.visible (tplCtl kv.2) d.vcur &&
    decide (leNat ((kv.2.drop 12).take 1) = w24 % 256) && decide (leNat ((kv.2.drop 14).take 2) = w24 / 65536))

/-- R199, R205: the snoop reason of a packet, lowest first, under the settings of its take. -/
def Dev.snoopOf (d : Dev) (p : Pkt) : Option Nat :=
  let c := p.conf.ctl
  let typ := parW p 24 7 0
  if p.reinj || p.punt3.isSome then none
  else if bit c 1 && decide (typ = 6) then some 0x20
  else if bit c 2 && decide (1 ≤ typ) && decide (typ ≤ 5) && !d.hasTemplate (p.par.getD 24 0) then some 0x21
  else if bit c 0 && decide (parW p 17 7 0 = 6) && decide (parW p 19 15 0 = p.conf.l4 % 65536) &&
          (decide (p.mode ≠ 3) || !bit (p.par.getD 0 0) 15) then some 0x22
  else none

/-- R199, R205: the parse result of the oldest packet of a pipe is delivered. -/
def Dev.parseResult (d : Dev) (pipe : Nat) : Dev :=
  match d.oldest (fun s => decide (s = .taken pipe)) with
  | none => d
  | some i =>
    let p := d.pkt i
    let perr := parW p 0 31 24
    let d1 := if perr = 0 then d else d.parCount (7 + perr)
    match p.punt3, p.reinj with
    | some r, false => d1.puntPkt i r 0 0 0 false
    | _, _ =>
      let d2 := d1.pktUpd i (fun q => { q with stage := .parsed })
      match d1.snoopOf p with
      | some r => (d2.puntOffer r p.conf { header := puntHeader p r 0 0 0 true false, par := p.par, pkt := none, data := p.data }).1
      | none => d2

/-! ### Keys and lookups (R209 to R216) -/

/-- Word w of CLS_PROF(j). -/
def Dev.profW (d : Dev) (j w : Nat) : Nat := d.rdN (clsBase + 0x200 + 0x20 * j + 4 * w)

def Dev.profN (d : Dev) (j : Nat) : Nat := bits (d.profW j 4) 4 0

/-- R209: the key words of a profile for a packet, with CMETA in word 28. -/
def Dev.keyWords (d : Dev) (j : Nat) (p : Pkt) (cmeta : Nat) : List Nat :=
  (upTo (d.profN j)).map (fun s =>
    let w := bits (d.profW j (s / 6)) (5 * (s % 6) + 4) (5 * (s % 6))
    if w = 28 then cmeta else p.par.getD w 0)

/-- The words of a key as one number, word 0 lowest. -/
def wordsNat : List Nat → Nat
  | [] => 0
  | w :: ws => w + 2 ^ 32 * wordsNat ws

/-- R210: the lowest visible matching entry of the associative memory. -/
def Dev.amLookup (d : Dev) (prof ver key : Nat) : Option AmEnt :=
  (d.flow.am.find? (fun kv => d.visible kv.2.ctl ver && bit (ctlProf kv.2.ctl) prof &&
    decide (Nat.land (Nat.xor key kv.2.key) kv.2.mask = 0))).map (fun kv => kv.2)

/-- CRC-32C (RFC 3720), one byte into the running register. -/
def crcByte (c : Nat) (b : Byte) : Nat :=
  (upTo 8).foldl (fun x _ => if x % 2 = 1 then Nat.xor (x / 2) 0x82F63B78 else x / 2) (Nat.xor c b.toNat)

/-- CRC-32C of a byte string. -/
def crc32c (bs : List Byte) : Nat := Nat.xor (bs.foldl crcByte 0xFFFFFFFF) 0xFFFFFFFF

def tblW (d : Dev) (t w : Nat) : Nat := d.rdN (clsBase + 0x400 + 0x10 * t + 4 * w)

/-- R215: the hit of an exact-match table. -/
def Dev.exactLookup (d : Dev) (t : Nat) (key : List Nat) (ver : Nat) : Option ChEnt :=
  let b := bits (tblW d t 2) 20 0 / 4
  let base := bits (tblW d t 1) 16 0
  let sz := if key.length ≤ 6 then 1 else 2
  let kb := key.flatMap (fun w => leBytes 4 w)
  let h1 := crc32c kb % b
  let h2 := crc32c (kb ++ [1]) % b
  let cands := ((upTo 4).map (fun e => 4 * h1 + e)) ++ ((upTo 4).map (fun e => 4 * h2 + e))
  (cands.map (fun ix => Tab.get {} d.flow.ch (base + sz * ix))).find? (fun e => d.visible e.ctl ver && decide (e.key = key))

/-- R216: the hit of a prefix table: the greatest length, the lowest address of equals. -/
def Dev.prefixLookup (d : Dev) (t : Nat) (key : List Nat) (ver : Nat) : Option ChEnt :=
  let n := 32 * key.length
  let base := bits (tblW d t 1) 16 0
  let num := fun (ws : List Nat) => ws.foldl (fun a w => 2 ^ 32 * a + w) 0
  let k := num key
  (d.flow.ch.foldl (fun (m : Option ChEnt) kv =>
    let e := kv.2
    if base ≤ kv.1 ∧ kv.1 < base + bits (tblW d t 2) 20 0 ∧ d.visible e.ctl ver = true ∧ e.plen ≤ n ∧
       k / 2 ^ (n - e.plen) = num e.key / 2 ^ (n - e.plen) then
      (match m with
       | some x => if x.plen < e.plen then some e else m
       | none => some e)
    else m) none)

/-- Where a chain lookup comes from (R213). -/
inductive Origin
  | owner (o : Nat)
  | port (n : Nat)
  deriving DecidableEq, Repr

/-- R213: owner_ok. -/
def Dev.ownerOk (d : Dev) (t : Nat) (o : Origin) : Bool :=
  let w := bits (tblW d t 0) 15 10
  decide (w = 32) || (match o with
    | .owner x => decide (x = w) || decide (x = 32)
    | .port n => (d.ent w).valid && bit (d.ent w).ports n)

/-- How classification ends (R213, R217): a result, a punt with its result, or the port's default for a miss or a failure. -/
inductive ClsEnd
  | res (r : Nat)
  | punt (r : Nat)
  | dflt (fail : Bool)
  deriving DecidableEq, Repr

def resKind (r : Nat) : Nat := bits r 1 0

/-- R218: chain, with the fuel of the eight tables. The list holds the counters to increment. -/
def Dev.chain (d : Dev) (p : Pkt) : Nat → Nat → Nat → Option Nat → Origin → ClsEnd × List Nat
  | 0, _, _, _, _ => (.dflt false, [18])
  | fuel + 1, n, cmeta, t, org =>
    let bad := match t with
      | some x => decide (n ≤ x)
      | none => false
    if bad || !bit (tblW d n 0) 0 || !d.ownerOk n org then (.dflt false, [18])
    else
      let key := d.keyWords (bits (tblW d n 0) 5 2) p cmeta
      let hit := if bit (tblW d n 0) 1 then d.prefixLookup n key p.ver else d.exactLookup n key p.ver
      match hit with
      | some e =>
        match resKind e.res with
        | 0 => (.res e.res, [2 + n])
        | 2 => (.punt e.res, [2 + n])
        | 3 => (.dflt false, [2 + n])
        | _ =>
          let r := d.chain p fuel (bits e.res 6 4) (bits e.res 255 224) (some n) (.owner (ctlOwner e.ctl))
          (r.1, (2 + n) :: r.2)
      | none =>
        if bit (tblW d n 0) 6 then
          let r := d.chain p fuel (bits (tblW d n 0) 9 7) cmeta (some n) org
          (r.1, (10 + n) :: r.2)
        else (.dflt false, [10 + n])

def Dev.clsPort (d : Dev) (n : Nat) : Nat := d.rdN (clsBase + 0x100 + 4 * n)

/-- R218: classify a packet. -/
def Dev.classifyPkt (d : Dev) (p : Pkt) : ClsEnd × List Nat :=
  let c := d.clsPort p.port
  if parW p 0 31 24 ≠ 0 then (.dflt true, [])
  else
    let cls := parW p 0 10 8
    let prof := bits c (19 + 4 * cls) (16 + 4 * cls)
    if 10 < d.profN prof then d.chain p 9 (bits (d.profW prof 4) 10 8) 0 none (.port p.port)
    else match d.amLookup prof p.ver (wordsNat (d.keyWords prof p 0)) with
      | some e =>
        match resKind e.res with
        | 0 => (.res e.res, [0])
        | 2 => (.punt e.res, [0])
        | 3 => (.dflt false, [0])
        | _ =>
          let r := d.chain p 9 (bits e.res 6 4) (bits e.res 255 224) none (.owner (ctlOwner e.ctl))
          (r.1, 0 :: r.2)
      | none =>
        if bit c 7 then
          let r := d.chain p 9 (bits c 10 8) 0 none (.port p.port)
          (r.1, 1 :: r.2)
        else (.dflt false, [1])

/-- CLS_DEFRES(i), as 256 bits. -/
def Dev.defRes (d : Dev) (i : Nat) : Nat := wordsNat ((upTo 8).map (fun w => d.rdN (clsBase + 0x1000 + 0x20 * i + 4 * w)))

/-- R208, R217: the port's default action. A reinjected packet is never punted; `again` says that REPUNT has counted it. -/
def Dev.byDefault (d : Dev) (i : Nat) (fail again : Bool) : Dev :=
  let p := d.pkt i
  let c := d.clsPort p.port
  let act := if fail then bits c 3 2 else bits c 1 0
  let d1 := d.clsCount (if fail then 20 else 19)
  if act = 2 ∧ p.reinj = false then
    (d1.seqGap p.port p.seq).puntPkt i (if fail then 0x12 else 0x11) p.ver 0 0 false
  else
    let base := if act = 0 then 0 else if act = 3 then 2 else 3
    let r := putBits (d.defRes (bits c 13 11)) 163 160 base
    let d2 := if act = 2 ∧ again = false then d1.parCount 6 else d1
    d2.pktSet i { p with res := r, defaulted := true, stage := .classified }

/-- R205, R208, R213, R221: steps 4 and 5 of the oldest parsed packet: it takes the current version and is classified. -/
def Dev.classify (d : Dev) : Dev :=
  match d.turn .parsed with
  | none => d
  | some i =>
    let p := { d.pkt i with ver := d.vcur, inVer := true }
    let d1 := (d.pktSet i p).verUpd p.ver (fun n => n + 1)
    if p.reinj && p.punt3.isSome then
      let c := d.clsPort p.port
      let act := bits c 3 2
      let base := if act = 0 then 0 else if act = 3 then 2 else 3
      ((d1.clsCount 20).parCount 6).pktSet i
        { p with res := putBits (d.defRes (bits c 13 11)) 163 160 base, defaulted := true, stage := .classified }
    else
      let r := d1.classifyPkt p
      let d2 := d1.clsCounts r.2
      let d3 := if r.2.contains 18 then d2.event (clsBase + 0x14) 3 else d2
      match r.1 with
      | .res x => d3.pktSet i { p with res := x, stage := .classified }
      | .dflt f => d3.byDefault i f false
      | .punt x =>
        if p.reinj then (d3.parCount 6).byDefault i false true
        else (d3.seqGap p.port p.seq).puntPkt i 0x10 p.ver (bits x 223 208) (bits x 255 224) false

end Sys2Proof
end

