-- ==== Sys2Proof/Machine/Flows.lean ====
section
/-! DEFINITION. Binding to flows and entities, aging, firmware writes of flow entries and entity ranges, and ingress policing
(chapter 9, R229 to R239, R250, R251). -/

namespace Sys2Proof

def Dev.flwCount (d : Dev) (k : Nat) : Dev := d.count64 (flwBase + 0x600 + 8 * k) 1

/-- FLW_NOW: milliseconds from PORST_N (R232). -/
def Dev.flwNow (d : Dev) : Nat := d.now / msec % 2 ^ 32

/-- wrap(FLW_NOW − SEEN, 32) (R231). -/
def Dev.idleAge (d : Dev) (e : FlowEnt) : Nat := (d.flwNow + 2 ^ 32 - e.seen) % 2 ^ 32

def Dev.fprof (d : Dev) (j w : Nat) : Nat := d.rdN (flwBase + 0x100 + 0x10 * j + 4 * w)

def Dev.flowAt (d : Dev) (i : Nat) : FlowEnt := Tab.get {} d.flow.flow i

def Dev.flowSet (d : Dev) (i : Nat) (e : FlowEnt) : Dev := { d with flow := { d.flow with flow := Tab.set {} d.flow.flow i e } }

/-- The 64 bytes of a flow entry (R230). -/
def FlowEnt.bytesOf (e : FlowEnt) : List Byte :=
  leBytes 12 e.digest ++ leBytes 1 e.fprof ++ leBytes 1 (b2n e.valid + 2 * b2n e.static + 4 * b2n e.entValid + 8 * b2n e.iaInit) ++
  leBytes 2 e.version ++ leBytes 4 e.entity ++ leBytes 8 e.packets ++ leBytes 8 e.bytes ++ leBytes 8 e.last ++
  leBytes 4 e.iaMean ++ leBytes 4 e.iaDev ++ leBytes 4 e.iaMax ++ leBytes 2 e.marked ++ leBytes 2 e.dropped ++ leBytes 4 e.seen

/-- R229: the digest of a packet's flow key under profile j. -/
def Dev.flowDigest (d : Dev) (j : Nat) (p : Pkt) : Nat :=
  let n := bits (d.fprof j 2) 3 0
  let k := BitVec.ofNat 8 j :: (upTo n).flatMap (fun s =>
    leBytes 4 (p.par.getD (bits (d.fprof j (s / 6)) (5 * (s % 6) + 4) (5 * (s % 6))) 0))
  crc32c (k ++ [1]) + 2 ^ 32 * crc32c (k ++ [2]) + 2 ^ 64 * crc32c (k ++ [3])

/-- R230: the candidate entries of a digest. -/
def flowCands (g : Nat) : List Nat :=
  let h1 := g % 2 ^ 32 % 262144
  let h2 := g / 2 ^ 32 % 2 ^ 32 % 262144
  let b := fun h => (upTo 4).map (fun e => 4 * h + e)
  if h1 = h2 then b h1 else b h1 ++ b h2

/-- The flow record of an eviction (CAUSE 1) or an aging removal (CAUSE 2). -/
def Dev.flowRecord (d : Dev) (e : FlowEnt) (cause : Nat) : Dev :=
  d.teleMake 2 0x10 0x0B (if e.entity / 2 ^ 18 % 64 < 32 ∧ e.entValid then e.entity / 2 ^ 18 % 64 else 0xFF) 0
    (e.bytesOf ++ leBytes 8 cause)

/-- R231: among the candidates, the victim: not STATIC, the greatest idle age, ties in candidate order. -/
def Dev.victim (d : Dev) : List Nat → Option (Nat × Nat)
  | [] => none
  | i :: is =>
    let e := d.flowAt i
    match e.static, d.victim is with
    | true, r => r
    | false, none => some (i, d.idleAge e)
    | false, some (j, a) => if a ≤ d.idleAge e then some (i, d.idleAge e) else some (j, a)

/-- R231: the entry of a packet: the hit (true), or a new one inserted (false), or none. -/
def Dev.flowFind (d : Dev) (j g : Nat) : Dev × Option (Nat × Bool) :=
  let cs := flowCands g
  let new := fun (e : Dev) i => (((e.flowSet i { digest := g, fprof := j, valid := true, seen := e.flwNow }).flwCount 1), some (i, false))
  match cs.find? (fun i => let e := d.flowAt i; e.valid && decide (e.digest = g) && decide (e.fprof = j)) with
  | some i => (d.flwCount 0, some (i, true))
  | none =>
    if bit (d.fprof j 2) 4 then
      match cs.find? (fun i => !(d.flowAt i).valid) with
      | some i => new d i
      | none =>
        match d.victim cs with
        | some (i, age) =>
          if bits (d.fprof (d.flowAt i).fprof 3) 31 16 ≤ age then new ((d.flowRecord (d.flowAt i) 1).flwCount 3) i
          else ((d.flwCount 2).event (flwBase + 0x0C) 0, none)
        | none => ((d.flwCount 2).event (flwBase + 0x0C) 0, none)
    else (d, none)

/-- R233: the timestamp in quarter nanoseconds. -/
def TStamp.q (t : TStamp) : Nat := t.seconds * qsec + t.subsec

/-- R233: the update of a bound packet's entry: the new entry, dn when computed, and whether IASKIP counts. -/
def flowUpdate (e : FlowEnt) (first : Bool) (k : Nat) (t len ver now : Nat) : FlowEnt × Option Nat × Bool :=
  let dd := sext 64 ((t + 2 ^ 64 - e.last % 2 ^ 64) % 2 ^ 64)
  let e1 := { e with packets := (e.packets + 1) % 2 ^ 64, bytes := (e.bytes + len) % 2 ^ 64, last := t % 2 ^ 64, version := ver, seen := now }
  if first then (e1, none, false)
  else if dd ≤ 0 then (e1, none, true)
  else
    let dn := min (dd.toNat / 4) 0xFFFFFFFF
    let mx := max e1.iaMax dn
    if e1.iaInit = false then ({ e1 with iaMean := dn, iaInit := true, iaMax := mx }, some dn, false)
    else
      let dev := ((dn : Int) - e1.iaMean).natAbs
      let mean := ((e1.iaMean : Int) + ((dn : Int) - e1.iaMean) / 2 ^ k).toNat
      let adev := ((e1.iaDev : Int) + ((dev : Int) - e1.iaDev) / 2 ^ k).toNat
      ({ e1 with iaMean := mean, iaDev := adev, iaMax := mx }, some dn, false)

/-- FLW_ERANGE(p): first entity and count. -/
def Dev.erange (d : Dev) (p : Nat) : Nat × Nat := (bits (d.rdN (flwBase + 0x400 + 8 * p)) 17 0, bits (d.rdN (flwBase + 0x404 + 8 * p)) 18 0)

/-- R234: the entity of a packet whose flow entry is f. -/
def Dev.bindEntity (d : Dev) (p : Pkt) (f : Option FlowEnt) : Option Nat :=
  let j := bits p.res 135 128
  let w0 := d.rdN (flwBase + 0x300 + 8 * j)
  let base := bits (d.rdN (flwBase + 0x304 + 8 * j)) 17 0
  let m := 2 ^ bits w0 16 12
  let part := bits p.res 127 122
  let e? : Option Nat := match bits w0 1 0 with
    | 1 => some (base + (p.par.getD (bits w0 6 2) 0 / 2 ^ bits w0 11 7) % m)
    | 2 => some (base + bits p.res 255 224 % m)
    | 3 => (match f with
        | some x => if x.entValid then some (x.entity % 2 ^ 18) else none
        | none => none)
    | _ => none
  match e? with
  | some e => let r := d.erange part
              if part < 32 ∧ e ≤ 262143 ∧ r.1 ≤ e ∧ e < r.1 + r.2 then some e else none
  | none => none

/-- R231 to R234: step 6 for the packet whose turn it is in take order (R232). -/
def Dev.bind (d : Dev) : Dev :=
  match d.turn .classified with
  | none => d
  | some i =>
    let p := d.pkt i
    let j := bits p.res 143 136
    let r : Dev × Option (Nat × Bool) := if j = 0 then (d.flwCount 5, none) else d.flowFind j (d.flowDigest j p)
    let d1 := r.1
    let u : Dev × Option Nat := match r.2 with
      | some (ix, hit) =>
        let v := flowUpdate (d1.flowAt ix) (!hit) (bits (d1.rdN (flwBase + 4)) 3 0) p.stamp.q p.len p.ver d1.flwNow
        let d2 := d1.flowSet ix v.1
        (if v.2.2 then d2.flwCount 7 else d2, v.2.1)
      | none => (d1, none)
    let d3 := u.1
    let fe := r.2.map (fun x => d3.flowAt x.1)
    let ent := if bits p.res 135 128 = 0 then none else d3.bindEntity p fe
    let d4 := if bits p.res 135 128 ≠ 0 ∧ ent = none then (d3.flwCount 6).event (flwBase + 0x0C) 1 else d3
    let mode := bits (d4.rdN (flwBase + 0x300 + 8 * bits p.res 135 128)) 1 0
    let d5 := match r.2, ent with
      | some (ix, _), some e =>
        if mode = 1 ∨ mode = 2 then d4.flowSet ix { d4.flowAt ix with entity := e + 2 ^ 18 * bits p.res 127 122 } else d4
      | _, _ => d4
    d5.pktSet i { p with flow := r.2.map (fun x => x.1), dn := u.2, entity := ent, stage := .bound }

/-- R232: one visit of the aging scanner. -/
def Dev.agingScan (d : Dev) : Dev :=
  let i := d.flow.scan
  let e := d.flowAt i
  let d1 := { d with flow := { d.flow with scan := (i + 1) % 1048576 } }
  let idle := bits (d.fprof e.fprof 3) 15 0
  if e.valid && !e.static && decide (idle ≠ 0) && decide (idle ≤ d.idleAge e) then
    ((d1.flowSet i { e with valid := false }).flowRecord e 2).flwCount 4
  else d1

/-- R232: firmware sets one named field of an entry, in the width R230 gives it. -/
def FlowEnt.set1 (e : FlowEnt) : FlowSet → FlowEnt
  | .digest v => { e with digest := v % 2 ^ 96 }
  | .fprof v => { e with fprof := v % 256 }
  | .valid b => { e with valid := b }
  | .static b => { e with static := b }
  | .entValid b => { e with entValid := b }
  | .iaInit b => { e with iaInit := b }
  | .version v => { e with version := v % 65536 }
  | .entity v => { e with entity := v % 2 ^ 24 }
  | .packets v => { e with packets := v % 2 ^ 64 }
  | .bytes v => { e with bytes := v % 2 ^ 64 }
  | .last v => { e with last := v % 2 ^ 64 }
  | .iaMean v => { e with iaMean := v % 2 ^ 32 }
  | .iaDev v => { e with iaDev := v % 2 ^ 32 }
  | .iaMax v => { e with iaMax := v % 2 ^ 32 }
  | .marked v => { e with marked := v % 65536 }
  | .dropped v => { e with dropped := v % 65536 }
  | .seen v => { e with seen := v % 2 ^ 32 }

/-- R232: a firmware write of an entry: the fields it names, and no other. -/
def FlowEnt.write (e : FlowEnt) : List FlowSet → FlowEnt
  | [] => e
  | x :: xs => (e.set1 x).write xs

/-! ### Entities (R235, R236) -/

/-- The state word of an entity. -/
def Dev.entState (d : Dev) (e : Nat) : Nat := Tab.get 0x300 d.flow.est e

def Dev.entSetState (d : Dev) (e v : Nat) : Dev := { d with flow := { d.flow with est := Tab.set 0x300 d.flow.est e v } }

/-- The partition whose range holds an entity. -/
def Dev.entOwner (d : Dev) (e : Nat) : Option Nat :=
  (upTo 32).find? (fun p => let r := d.erange p; decide (r.1 ≤ e) && decide (e < r.1 + r.2))

/-- R236: an entity leaves WARM with a cause; the owning partition's count follows. An entity that is stale stays as it is. -/
def Dev.makeStale (d : Dev) (e cause : Nat) : Dev :=
  let s := d.entState e
  if bit s 0 then
    let d1 := (d.entSetState e (putBits (clrBit s 0) 15 8 cause)).event (flwBase + 0x0C) 2
    match d1.entOwner e with
    | some p => d1.count (flwBase + 0x800 + 4 * p) 1
    | none => d1
  else d

def Dev.makeStaleList (d : Dev) (cause : Nat) : List Nat → Dev
  | [] => d
  | e :: es => (d.makeStale e cause).makeStaleList cause es

/-- The entities of a range that are WARM. -/
def Dev.warmIn (d : Dev) (first n : Nat) : List Nat :=
  (d.flow.est.filter (fun kv => decide (first ≤ kv.1) && decide (kv.1 < first + n) && bit kv.2 0)).map (fun kv => kv.1)

/-- R236: firmware assigns the range [first, first + n) to partition p: rows and state words are zeroed, CAUSE is 4, and the
move counts in FLW_STALE for the entities that leave WARM. -/
def Dev.assignRange (d : Dev) (p first n : Nat) : Dev :=
  let d1 := (d.wrN (flwBase + 0x400 + 8 * p) first).wrN (flwBase + 0x404 + 8 * p) n
  let warm := d.warmIn first n
  let d2 := (if warm = [] then d1 else d1.event (flwBase + 0x0C) 2).count (flwBase + 0x800 + 4 * p) warm.length
  { d2 with flow := { d2.flow with
      feat := Tab.keep d2.flow.feat (fun k _ => !(decide (first * 64 ≤ k) && decide (k < (first + n) * 64))),
      est := Tab.keep d2.flow.est (fun k _ => decide (k < first)) ++ (upTo n).map (fun i => (first + i, 0x400)) ++
        Tab.keep d2.flow.est (fun k _ => decide (first + n ≤ k)) } }

/-- R250: copy a flow entry into FLW_FDATA. -/
def Dev.fidx (d : Dev) (i : Nat) : Dev :=
  let bs := (d.flowAt i).bytesOf
  (upTo 16).foldl (fun (e : Dev) k => e.wrN (flwBase + 0x40 + 4 * k) (leNat ((bs.drop (4 * k)).take 4)))
    (d.wrN (flwBase + 0x20) (2 ^ 31 + i))

/-- R250: copy an entity's state word. -/
def Dev.eidx (d : Dev) (e : Nat) : Dev := (d.wrN (flwBase + 0x80) (2 ^ 31 + e)).wr64 (flwBase + 0x84) (d.entState e)

/-! ### Policing (R238, R239, R251) -/

def Dev.polAt (d : Dev) (c : Nat) : Policer := Tab.get {} d.flow.pol c

def Dev.polSet (d : Dev) (c : Nat) (x : Policer) : Dev := { d with flow := { d.flow with pol := Tab.set {} d.flow.pol c x } }

/-- R238: a class with its buckets refilled to the FCLK given. -/
def Policer.refill (x : Policer) (now : Nat) : Policer :=
  { x with tc := min (x.cbs * 2 ^ 24) (x.tc + (now - x.last) * x.cinc), tp := min (x.pbs * 2 ^ 24) (x.tp + (now - x.last) * x.pinc),
           last := now }

/-- R238: the colour of a packet of b bytes (0 GREEN, 1 YELLOW, 2 RED) and the class after it. -/
def Policer.colour (x : Policer) (now b : Nat) : Nat × Policer :=
  let y := x.refill now
  let u := b * 2 ^ 24
  if y.tp < u then (2, { y with red := (y.red + 1) % 2 ^ 64 })
  else if y.tc < u then (1, { y with tp := y.tp - u, yellow := (y.yellow + 1) % 2 ^ 64 })
  else (0, { y with tp := y.tp - u, tc := y.tc - u, green := (y.green + 1) % 2 ^ 64 })

/-- Add one to the flow's MARKED or DROPPED. -/
def Dev.flowMark (d : Dev) (f : Option Nat) (drop : Bool) : Dev :=
  match f with
  | some ix =>
    let e := d.flowAt ix
    d.flowSet ix (if drop then { e with dropped := stick 0xFFFF (e.dropped + 1) } else { e with marked := stick 0xFFFF (e.marked + 1) })
  | none => d

/-- R238: step 7 for the packet whose turn it is in take order. -/
def Dev.police (d : Dev) : Dev :=
  match d.turn .bound with
  | none => d
  | some i =>
    let p := d.pkt i
    let c := bits p.res 191 176
    let x := d.polAt c
    if c = 0 ∨ x.en = false then d.pktSet i { p with stage := .policed }
    else
      let r := x.colour d.fclk (parW p 27 13 0)
      let d1 := d.polSet c r.2
      if r.1 = 2 then ((d1.flowMark p.flow true).seqGap p.port p.seq).pktGone i
      else if r.1 = 1 then (d1.flowMark p.flow false).pktSet i { p with marked := true, stage := .policed }
      else d1.pktSet i { p with stage := .policed }

/-- R238: the bucket sizes of a class. -/
def bucketsOk (cbs pbs : Nat) : Bool := decide (64 ≤ cbs) && decide (cbs ≤ pbs) && decide (pbs < 2 ^ 24)

/-- R239: firmware writes a class's record. Sizes outside the range of R238 are none it writes. -/
def Dev.policerWrite (d : Dev) (c cinc pinc cbs pbs : Nat) (en resetFull : Bool) : Dev :=
  let x := d.polAt c
  if bucketsOk cbs pbs = false then d
  else
    d.polSet c { x with cinc := cinc, pinc := pinc, cbs := cbs, pbs := pbs, en := en, resetFull := resetFull,
                        tc := if resetFull then cbs * 2 ^ 24 else 0, tp := if resetFull then pbs * 2 ^ 24 else 0, last := d.fclk }

/-- R251: a write of GNT_PIDX; with OP 1 it copies the class's record, refilled tokens and counts. -/
def Dev.pidx (d : Dev) (c : Nat) (op : Bool) : Dev :=
  if op then
    let x := d.polAt c
    let y := x.refill d.fclk
    let w := [x.cinc, x.pinc, x.cbs, x.pbs, b2n x.en + 2 * b2n x.resetFull, y.tc % 2 ^ 32, y.tp % 2 ^ 32,
              y.tc / 2 ^ 32 % 65536 + 65536 * (y.tp / 2 ^ 32 % 65536)]
    let d1 := (upTo 8).foldl (fun (e : Dev) k => e.wrN (gntBase + 0x40 + 4 * k) (w.getD k 0)) (d.wrN (gntBase + 0x20) (2 ^ 31 + c))
    ((d1.wr64 (gntBase + 0x60) x.green).wr64 (gntBase + 0x68) x.yellow).wr64 (gntBase + 0x70) x.red
  else d.wrN (gntBase + 0x20) c

end Sys2Proof
end

