-- ==== Sys2Proof/Machine/Score.lean ====
section
/-! DEFINITION. The tree engine (chapter 10): features, the front stage, trees, link functions, score queues and the arbiter,
and faults in the fabric. -/

namespace Sys2Proof

def Dev.treCount (d : Dev) (k n : Nat) : Dev := d.count64 (treBase + 0x1000 + 8 * k) n

/-! ### The feature vector (R257 to R260) -/

/-- One feature: its 16-bit code, or missing. -/
abbrev Feat := Nat × Bool

/-- A 16-bit code, or missing. -/
def featOf (miss : Bool) (v : Nat) : Feat := (if miss then 0 else v % 65536, miss)

/-- R257: a feature of the metadata block. -/
def Dev.featMeta (d : Dev) (p : Pkt) (k : Nat) : Feat :=
  let fl := p.flow.map d.flowAt
  let noFlow := fl.isNone
  let f := fl.getD {}
  let st := match p.entity with
    | some e => d.entState e
    | none => 0
  let noEnt := p.entity.isNone
  match k with
  | 256 => (p.port, false)
  | 257 => (p.mode, false)
  | 258 => (parW p 27 13 0, false)
  | 259 => (p.stamp.quality % 65536, false)
  | 260 => (b2n p.marked, false)
  | 261 => (b2n p.defaulted, false)
  | 262 => (b2n p.reinj + 2 * b2n p.synth, false)
  | 263 => (p.ver, false)
  | 264 => (bits p.res 223 208, false)
  | 265 => (if noEnt then 0 else if bit st 0 then 2 else 1, false)
  | 266 => featOf noEnt (bits st 63 48)
  | 267 => featOf noEnt (p.entity.getD 0 % 65536)
  | 268 => (bits p.res 127 122, false)
  | 269 => featOf noFlow (min 65535 f.packets)
  | 270 => featOf noFlow (min 65535 (f.iaMean / 1000))
  | 271 => featOf noFlow (min 65535 (f.iaDev / 1000))
  | 272 => featOf noFlow (min 65535 (f.iaMax / 1000))
  | 273 => featOf (noFlow || p.dn.isNone) (min 65535 (p.dn.getD 0 / 1000))
  | 274 => featOf noFlow f.marked
  | 275 => featOf noFlow f.dropped
  | 276 => (bits p.res 239 224, false)
  | 277 => (bits p.res 255 240, false)
  | _ => (0, false)

/-- R259: does block E come from the front stage for this packet? -/
def Dev.fromFront (d : Dev) (p : Pkt) : Bool :=
  bit (d.rdN (treBase + 4)) 0 ||
  (match p.entity with
   | some e => !bit (d.entState e) 0
   | none => true)

/-- R257: a feature of the raw blocks P, W and M. -/
def Dev.featRaw (d : Dev) (p : Pkt) (k : Nat) : Feat :=
  if k < 128 then (let w := p.par.getD ((k - 64) / 2) 0; if k % 2 = 0 then (w % 65536, false) else (w / 65536, false))
  else if k < 256 then (let i := k - 128; if p.data.length < 2 * i + 2 then (0, true) else (be p.data (2 * i) 2, false))
  else d.featMeta p k

/-! ### The front stage (R261) -/

/-- The value of a code under a signedness. -/
def sgn16 (s : Bool) (v : Nat) : Int := if s then sext 16 v else (v : Int)

/-- R261: one operation; `get` reads a feature. The answer: the output and whether FSSAT counts. -/
def frontOp (o : Nat) (edges : List Nat) (get : Nat → Feat) : Feat × Bool :=
  let op := bits o 127 124
  let fa := get (bits o 123 114)
  let fb := get (bits o 113 104)
  let sa := bit o 103
  let a := sgn16 sa fa.1
  if fa.2 || (decide (op = 2) && fb.2) then
    (if bit o 102 then (bits o 15 0, false) else (0, true), false)
  else if op = 0 then
    let t := rneRat ((a - sext 32 (bits o 95 64)) * sext 16 (bits o 63 48)) (2 ^ bits o 47 42)
    let x := if bit o 101 then satI t (-32768) 32767 else satI t 0 65535
    ((wrapI 16 x, false), decide (x ≠ t))
  else if op = 1 then
    ((((upTo (bits o 33 30)).filter (fun i => decide (sgn16 sa (edges.getD (bits o 41 34 + i) 0) ≤ a))).length, false), false)
  else
    let wb := bits o 25 22
    (((fa.1 % 2 ^ bits o 29 26) * 2 ^ wb + fb.1 % 2 ^ wb, false), false)

/-- R261: the outputs X[0] upward, and the count of FSSAT. -/
def Dev.front (d : Dev) (p : Pkt) (edges : List Nat) : List Nat → List Feat → Nat → List Feat × Nat
  | [], xs, n => (xs, n)
  | o :: os, xs, n =>
    let get := fun k => if 512 ≤ k then xs.getD (k - 512) (0, true) else d.featRaw p k
    let r := frontOp o edges get
    d.front p edges os (xs ++ [r.1]) (n + b2n r.2)

/-- R257, R259: feature k of a packet, with the front-stage outputs X. -/
def Dev.feature (d : Dev) (p : Pkt) (fs : Bool) (xs : List Feat) (k : Nat) : Feat :=
  if k < 64 then
    (if fs then xs.getD k (0, true) else (Tab.get 0 d.flow.feat (p.entity.getD 0 * 64 + k), false))
  else if k < 288 then d.featRaw p k
  else if k < 512 then (0, false)
  else xs.getD (k - 512) (0, true)

/-! ### Trees (R263, R264) -/

/-- R264: the outcome bit of a node word through a window. -/
def nodeOut (node : Nat) (win : List Nat) (get : Nat → Feat) : Bool :=
  let e := win.getD (bits node 47 40) 0
  let f := get (bits e 9 0)
  if f.2 || (bit e 15 && decide (f.1 = bits e 31 16)) then bit node 39
  else decide (sgn16 (bit e 14) f.1 < sgn16 (bit e 14) (bits node 63 48))

/-- R264: the leaves that survive the nodes of a general tree. -/
def alive : List (Nat × Bool) → List Nat → List Nat
  | [], ls => ls
  | (n, c) :: ns, ls =>
    alive ns (ls.filter (fun l => if c then !(decide (bits n 29 24 < l) && decide (l ≤ bits n 23 18))
                                  else !(decide (bits n 35 30 ≤ l) && decide (l ≤ bits n 29 24))))

/-- R264: the selected leaf index. -/
def Tree.leaf (t : Tree) (win : List Nat) (get : Nat → Feat) : Nat :=
  let cs := t.nodes.map (fun n => nodeOut n win get)
  if t.oblivious then cs.foldl (fun a c => 2 * a + (if c then 0 else 1)) 0
  else (alive (t.nodes.zip cs) (upTo t.leaves.length)).headD 0

/-- R265: the accumulator of class k. -/
def EnsRec.acc (r : EnsRec) (get : Nat → Feat) (k : Nat) : Int :=
  r.base.getD k 0 + sumI ((r.trees.filter (fun t => decide (t.cls = k))).map (fun t =>
    t.leaves.getD (t.leaf (r.windows.getD t.qpos []) get) 0))

/-! ### Link functions (R266) -/

/-- Fraction bits of the exponential. -/
def expBits : Nat := 384

/-- Taylor terms of e^x, x in units of 2^−expBits. -/
def expTerms (x : Int) : Nat → Nat → Int → Int → Int
  | 0, _, _, s => s
  | fuel + 1, n, t, s =>
    let t' := t * x / (2 ^ expBits * (n + 1))
    expTerms x fuel (n + 1) t' (s + t')

/-- Square a fixed-point number m times. -/
def sqrTimes : Nat → Int → Int
  | 0, x => x
  | m + 1, x => sqrTimes m (x * x / 2 ^ expBits)

/-- e^(a × 2^−lsh) in units of 2^−expBits, for |a × 2^−lsh| below 128 (log 33). -/
def expFix (a : Int) (lsh : Nat) : Int :=
  sqrTimes 10 (expTerms (a * 2 ^ (expBits - 10 - lsh)) 80 0 (2 ^ expBits) (2 ^ expBits))

/-- Is a × 2^−lsh above `m`? -/
def zAbove (a : Int) (lsh m : Nat) : Bool := decide ((m : Int) * 2 ^ lsh < a)

/-- satc of R266: the value and whether LINKSAT counts. -/
def satc (t lo hi : Int) : Int × Bool := (satI t lo hi, decide (satI t lo hi ≠ t))

/-- rne(A × 2^−osh). -/
def scaleOsh (a osh : Int) : Int := rneDy a (-osh)

/-- R266: S, K and the count of LINKSAT. -/
def linkFn (r : EnsRec) (a : List Int) : Int × Nat × Bool :=
  let a0 := a.getD 0 0
  let one : Int := 2 ^ expBits
  let mx := a.foldl max a0
  let k := (((upTo r.classes).find? (fun i => decide (a.getD i 0 = mx))).getD 0)
  match r.link with
  | 0 => let s := satc (scaleOsh a0 r.osh) (-32768) 32767; (s.1, 0, s.2)
  | 1 =>
    if zAbove a0 r.lsh 64 then (32767, 0, false)
    else if zAbove (-a0) r.lsh 64 then (0, 0, false)
    else (min 32767 (rneRat (32768 * one) (one + expFix (-a0) r.lsh).toNat), 0, false)
  | 3 =>
    if zAbove a0 r.lsh 64 then (32767, 0, true)
    else if zAbove (-a0) r.lsh 64 then (0, 0, false)
    else
      let s := satc (rneDy (expFix a0 r.lsh) (-r.osh - expBits)) 0 32767
      (s.1, 0, s.2)
  | 2 =>
    let den := sumI ((upTo r.classes).map (fun i =>
      let z := a.getD i 0 - mx
      if zAbove (-z) r.lsh 64 then 0 else expFix z r.lsh))
    (min 32767 (rneRat (32768 * one) den.toNat), k, false)
  | _ => let s := satc (scaleOsh (a.getD k 0) r.osh) (-32768) 32767; (s.1, k, s.2)

/-! ### Records, copies and queues (R254 to R256, R268, R269) -/

def Dev.recAt (d : Dev) (r : Nat) : EnsRec := Tab.get {} d.flow.recs r

def Dev.recSet (d : Dev) (r : Nat) (x : EnsRec) : Dev := { d with flow := { d.flow with recs := Tab.set {} d.flow.recs r x } }

/-- R256: the record of ensemble e for a packet of version pv. -/
def Dev.ensRecord (d : Dev) (e pv : Nat) : Option Nat :=
  (d.flow.recs.find? (fun kv => kv.2.inUse && decide (kv.2.ens = e) && d.visible kv.2.ctl pv)).map (fun kv => kv.1)

/-- Is a copy in service: its quadrants are, none of its slots is being reloaded, and it has not been lost (R269, R272)? -/
def Dev.copyOk (d : Dev) (c : EnsCopy) : Bool :=
  !c.lost && decide (c.reload = []) && c.quads.all (fun q => bit d.flow.qInSvc q)

def Dev.sqAt (d : Dev) (e : Nat) : List Nat := Tab.get [] d.flow.sq e

def Dev.sqSet (d : Dev) (e : Nat) (q : List Nat) : Dev := { d with flow := { d.flow with sq := Tab.set [] d.flow.sq e q } }

/-- Entries of the score pool in use (R268). -/
def Dev.poolUsed (d : Dev) : Nat := (d.flow.sq.map (fun kv => kv.2.length)).foldl (· + ·) 0

/-- R277: a refusal: DROPSTART after at least 1 ms without one. -/
def Dev.scoreDrop (d : Dev) (r : EnsRec) : Dev :=
  let d1 := ((d.treCount 3 1).count (treBase + 0x108 + 0x10 * r.ens) 1).event (treBase + 0x0C) 0
  let set := fun (e : Dev) (x : Nat × Nat × Nat) => { e with flow := { e.flow with drops := Tab.put e.flow.drops r.ens (some x) } }
  match Tab.get none d.flow.drops r.ens with
  | some (n, _) => set d1 (stick32 (n + 1), d.now, ctlOwner r.ctl)
  | none => set (d1.treeEvent (ctlOwner r.ctl) 1 r.ens 1 0) (1, d.now, ctlOwner r.ctl)

/-- R277: 1 ms has passed without a refusal of ensemble e. -/
def Dev.dropEnd (d : Dev) (e : Nat) : Dev :=
  match Tab.get none d.flow.drops e with
  | some (n, _, own) =>
    { d with flow := { d.flow with drops := Tab.del d.flow.drops e } }.treeEvent own 2 e n 0
  | none => d

/-- R268: a packet that is scored without a record or without a copy in service: S and K are 0, and it takes the same 48 FCLK (R270). -/
def Dev.scoreNone (d : Dev) (i k : Nat) : Dev :=
  ((d.treCount k 1).nextHand).pktUpd i (fun p => { p with s := 0, k := 0, fs := false, grant := none, lsat := false, fssat := 0,
                                                          stage := .granted, hand := d.flow.hands })

/-- R268: admission at the end of step 7, in take order. -/
def Dev.scoreAdmit (d : Dev) : Dev :=
  match d.turn .policed with
  | none => d
  | some i =>
    let p := d.pkt i
    let e := bits p.res 175 170
    match d.ensRecord e p.ver with
    | none => d.scoreNone i 2
    | some r =>
      let x := d.recAt r
      if !x.copies.any d.copyOk then
        d.scoreNone i 8
      else if (d.sqAt e).length < x.sqlim ∧ d.poolUsed < 65536 then
        (d.pktSet i { p with stage := .queued }).sqSet e (d.sqAt e ++ [i])
      else ((d.scoreDrop x).seqGap p.port p.seq).pktGone i

/-- R265, R266: score a packet on a record; S, K, block E from the front stage, LINKSAT, FSSAT. -/
def Dev.scorePkt (d : Dev) (p : Pkt) (r : EnsRec) : Int × Nat × Bool × Bool × Nat :=
  let f := d.front p r.edges r.fsprog [] 0
  let fs := d.fromFront p
  let get := d.feature p fs f.1
  let l := linkFn r ((upTo r.classes).map (r.acc get))
  (l.1, l.2.1, fs, l.2.2, f.2)

/-- R258, R269: grant the head of ensemble e's queue to a copy: the features are those that stand now. -/
def Dev.grantHead (d : Dev) (e i r c : Nat) : Dev :=
  let p := d.pkt i
  let x := d.recAt r
  let v := d.scorePkt p x
  let quads := (x.copies.getD c { quads := [], first := [] }).quads
  let q : Pkt :=
    { p with stage := .granted, hand := d.flow.hands, grant := some (r, c), s := v.1, k := v.2.1, fs := v.2.2.1,
             lsat := v.2.2.2.1, fssat := v.2.2.2.2 }
  let d1 := (d.nextHand.sqSet e (d.sqAt e).tail).pktSet i q
  if p.regrant then d1 else quads.foldl (fun (z : Dev) q => z.treCount (9 + q) 1) d1

/-- R269: grants to one ensemble while its head has a copy in the free quadrants. -/
def Dev.grantEns (d : Dev) (e : Nat) : Nat → List Nat → Dev × List Nat
  | 0, free => (d, free)
  | fuel + 1, free =>
    match d.sqAt e with
    | [] => (d, free)
    | i :: _ =>
      match d.ensRecord e (d.pkt i).ver with
      | none => (d, free)
      | some r =>
        let cs := (d.recAt r).copies
        match (upTo cs.length).find? (fun c =>
            let x := cs.getD c { quads := [], first := [] }
            d.copyOk x && x.quads.all (fun q => free.contains q)) with
        | none => (d, free)
        | some c =>
          let used := (cs.getD c { quads := [], first := [] }).quads
          (d.grantHead e i r c).grantEns e fuel (free.filter (fun q => !used.contains q))

def Dev.grantFrom (d : Dev) : List Nat → List Nat → Dev
  | [], _ => d
  | e :: es, free =>
    let r := d.grantEns e 4 free
    r.1.grantFrom es r.2

/-- R269: the arbiter's grants of one FCLK. -/
def Dev.scoreGrant (d : Dev) : Dev :=
  let ptr := d.flow.sqPtr
  let d1 := d.grantFrom ((upTo 64).map (fun i => (ptr + i) % 64)) ((upTo 4).filter (fun q => bit d.flow.qInSvc q))
  { d1 with flow := { d1.flow with sqPtr := (ptr + 1) % 64 } }

/-! ### Faults in the fabric (R272) -/

/-- The record and copy whose slot range holds device slot s. -/
def EnsRec.copyOfSlot (r : EnsRec) (s : Nat) : Option Nat :=
  (upTo r.copies.length).find? (fun c =>
    let x := r.copies.getD c { quads := [], first := [] }
    (upTo x.quads.length).any (fun p =>
      let n := (r.trees.filter (fun t => decide (t.qpos = p))).length
      let a := 2048 * x.quads.getD p 0 + x.first.getD p 0
      decide (a ≤ s) && decide (s < a + n)))

def Dev.slotOwner (d : Dev) (s : Nat) : Option (Nat × Nat) :=
  match d.flow.recs.find? (fun kv => (kv.2.copyOfSlot s).isSome) with
  | some kv => (kv.2.copyOfSlot s).map (fun c => (kv.1, c))
  | none => none

def Dev.copyUpd (d : Dev) (r c : Nat) (f : EnsCopy → EnsCopy) : Dev :=
  let x := d.recAt r
  d.recSet r { x with copies := (x.copies.zip (upTo x.copies.length)).map (fun a => if a.2 = c then f a.1 else a.1) }

/-- R268, R272: the packets that wait for a record of which no copy is left are scored as those that find none. -/
def Dev.failQueued (d : Dev) (e r : Nat) : List Nat → Dev
  | [] => d
  | i :: is =>
    (if d.ensRecord e (d.pkt i).ver = some r then (d.sqSet e ((d.sqAt e).filter (fun j => decide (j ≠ i)))).scoreNone i 8 else d).failQueued e r is

/-- Has every copy of a record been lost for good? -/
def Dev.allLost (d : Dev) (x : EnsRec) : Bool := x.copies.all (fun c => c.lost || !c.quads.all (fun q => bit d.flow.qInSvc q))

/-- R272: a parity error in slot s, met by the event `ev` of its copy, or by the scrubber. The event returns to the head of its queue, to
be granted again; the slot is reloaded, and the copy is out of service meanwhile. An uncorrectable error of the backing copy (`bad`) takes
the copy out of service; with no copy left, the packets that wait are scored as R268 decides. -/
def Dev.slotParity (d : Dev) (s : Nat) (bad : Bool) (ev : Option Nat) : Dev :=
  match d.slotOwner s with
  | none => d
  | some (r, c) =>
    let x := d.recAt r
    let own := if ctlOwner x.ctl < 32 then ctlOwner x.ctl else 0xFF
    let d1 := (d.treCount 4 1).event (treBase + 0x0C) 1
    let d2 := match ev with
      | some i => (d1.pktUpd i (fun p => { p with stage := .queued, grant := none, regrant := true })).sqSet x.ens (i :: d1.sqAt x.ens)
      | none => d1
    if bad then
      let d3 := ((d2.copyUpd r c (fun y => { y with lost := true, reload := [] })).event (treBase + 0x0C) 2).reportNamed 0x0C 2 own s
      let d4 := d3.treeEvent (ctlOwner x.ctl) 4 x.ens ((d3.recAt r).copies.filter d3.copyOk).length s
      if d4.allLost (d4.recAt r) then d4.failQueued x.ens r (d4.sqAt x.ens) else d4
    else (d2.copyUpd r c (fun y => { y with reload := y.reload ++ [s] })).reportNamed 0x0C 1 own s

/-- R269, R270, R272: the event granted first reaches the Visor, unless a parity error in one of its copy's slots returns it (`err`: the
slot, and whether the backing copy fails too). -/
def Dev.scoreDeliver (d : Dev) (err : Option (Nat × Bool)) : Dev :=
  match d.firstHand .granted with
  | none => d
  | some i =>
    let p := d.pkt i
    let hit := match err with
      | some (s, bad) => if p.grant.isSome ∧ d.slotOwner s = p.grant then some (s, bad) else none
      | none => none
    match hit with
    | some (s, bad) => d.slotParity s bad (some i)
    | none =>
      let d1 := d.pktSet i { p with stage := .scored }
      if p.grant.isSome then
        let d2 := (d1.treCount 0 1).treCount 1 (b2n p.fs)
        let d3 := if p.lsat then (d2.treCount 6 1).event (treBase + 0x0C) 3 else d2
        if 0 < p.fssat then (d3.treCount 7 p.fssat).event (treBase + 0x0C) 4 else d3
      else d1

/-- R272: the reload of slot s completes. -/
def Dev.slotReloaded (d : Dev) (s : Nat) : Dev :=
  match d.slotOwner s with
  | none => d
  | some (r, c) =>
    let x := d.recAt r
    if ((x.copies.getD c { quads := [], first := [] }).reload).contains s then
      let d1 := ((d.copyUpd r c (fun y => { y with reload := y.reload.filter (fun z => decide (z ≠ s)) }))).treCount 5 1
      let y := d1.recAt r
      (d1.recSet r { y with reloads := y.reloads + 1 }).treeEvent (ctlOwner x.ctl) 3 x.ens (y.reloads + 1) s
    else d

/-- R272: the scrubber reads one slot; `err`: none, a parity error, or one whose backing copy fails too. No event met it. -/
def Dev.fabricScrub (d : Dev) (err : Ecc) : Dev :=
  if bit (d.rdN (treBase + 4)) 1 then
    let s := d.flow.scrub
    let d1 := { d with flow := { d.flow with scrub := (s + 1) % 8192 } }
    match err with
    | .none => d1
    | .corrected => d1.slotParity s false none
    | _ => d1.slotParity s true none
  else d

end Sys2Proof
end

