-- ==== Sys2Proof/Machine/Egress.lean ====
section
/-! DEFINITION. The Visor, the reorder stage's release, egress queues and the scheduler (chapter 9, R240 to R249). -/

namespace Sys2Proof

def Dev.visCount (d : Dev) (k : Nat) : Dev := d.count64 (visBase + 0x3000 + 8 * k) 1

def Dev.visProf (d : Dev) (v w : Nat) : Nat := d.rdN (visBase + 0x100 + 0x40 * v + 4 * w)

/-! ### The verdict (R240) -/

/-- The severity order forward < rate-class < tag < mirror < punt < drop. -/
def severity (a : Nat) : Nat := [0, 2, 3, 5, 1, 4].getD a 0

/-- Entry e of a group of packed entries that starts at word w: action and class. -/
def Dev.visEntry (d : Dev) (v w e : Nat) : Nat × Nat :=
  let x := d.visProf v (w + e / 4) / 2 ^ (8 * (e % 4)) % 256
  (bits x 2 0, bits x 6 4)

/-- R240: the verdict of a packet: action and egress class. -/
def Dev.verdictOf (d : Dev) (p : Pkt) : Nat × Nat :=
  let base := bits p.res 163 160
  let out := bits p.res 159 157
  if p.defaulted then (base, out)
  else
    let v := bits p.res 169 164
    let w0 := d.visProf v 0
    let t1 := sext 16 (d.visProf v 1)
    let t2 := sext 16 (d.visProf v 1 / 65536)
    let t3 := sext 16 (d.visProf v 2)
    let band := if p.s < t1 then 0 else if p.s < t2 then 1 else if p.s < t3 then 2 else 3
    let e := if bit w0 0 then d.visEntry v 6 p.k else d.visEntry v 4 band
    if bit w0 1 && decide (severity e.1 < severity base) then (base, out)
    else (e.1, if e.1 = 4 then e.2 else out)

/-- R240, R480: step 9 for the packet that left step 8 first (R269). A tag verdict after at least 1,000 ms without one sets the profile's
alarm. -/
def Dev.visorVerdict (d : Dev) : Dev :=
  match d.firstHand .scored with
  | none => d
  | some i =>
    let p := d.pkt i
    let v := d.verdictOf p
    let d1 := (d.visCount v.1).pktSet i { p with act := v.1, cls := v.2, tagged := decide (v.1 = 1), stage := .verdict }
    let d2 := if p.defaulted then d1.visCount 6 else d1
    if v.1 = 1 then
      let k := bits p.res 169 164
      let d3 := { d2 with flow := { d2.flow with tagAt := Tab.put d2.flow.tagAt k d.now } }
      match Tab.find d.flow.tagAt k with
      | some t => if t + 1000 * msec ≤ d.now then d3.alarmSet 10 k true (bits p.res 175 170 + 65536 * bits p.res 223 208) false else d3
      | none => d3.alarmSet 10 k true (bits p.res 175 170 + 65536 * bits p.res 223 208) false
    else d2

/-- R480: 1,000 ms have passed without a tag verdict of profile k. -/
def Dev.taggedQuiet (d : Dev) (k : Nat) : Dev :=
  { d with flow := { d.flow with tagAt := Tab.del d.flow.tagAt k } }.alarmSet 10 k false 0 false

/-! ### The reorder stage (R22, R223, R225) -/

/-- R304: what the release of a packet settles for the Huddle: a packet that can never be fileable is finished with. -/
def Pkt.neverFiled (p : Pkt) : Bool :=
  decide (bits p.res 207 192 = 0) || decide (p.act = 3) || decide (p.act = 5) || decide (p.eof = some false)

/-- R304: is a packet fileable? -/
def Pkt.fileable (p : Pkt) : Bool := p.released && !p.hudDone && decide (p.eof = some true) && !p.neverFiled

/-- R304: the FCLK in which a packet becomes fileable. -/
def Dev.noteFileable (d : Dev) (i : Nat) : Dev :=
  d.pktUpd i (fun p => if p.fileable ∧ p.fileAt = none then { p with fileAt := some d.fclk } else p)

def Dev.noteFileables (d : Dev) : List Nat → Dev
  | [] => d
  | i :: is => (d.noteFileable i).noteFileables is

/-- R223: leave the version once released and finished with by the Huddle. -/
def Dev.settle (d : Dev) (i : Nat) : Dev :=
  let p := d.pkt i
  if p.released && p.hudDone then d.leaveVer i else d

/-- R225: the reorder stage releases the next packet of port n, when its verdict is known; gaps are passed over. On an INLINE port
whose configuration forms no pair it is handled as dropped and counted (R176). -/
def Dev.release1 (d : Dev) (n : Nat) : Dev × Bool :=
  let x := d.portAt n
  match d.pktFind (fun p => decide (p.port = n) && decide (p.seq = x.relSeq) && decide (p.stage = .verdict)) with
  | none => (d, false)
  | some i =>
    let q := d.pkt i
    let lost := decide (q.mode = 1) && !d.paired q.port
    let p := if lost then { q with act := 3 } else q
    let d0 := if lost then d.prtCount q.port 15 1 else d
    let d1 := (d0.nextHand.portSet n (PortSt.skip 1025 { x with relSeq := (x.relSeq + 1) % 65536 })).pktSet i
      { p with released := true, stage := .released, hand := d.flow.hands, hudDone := p.hudDone || p.neverFiled }
    ((d1.noteFileable i).settle i, true)

/-- R225: the packets of port n whose turn has come. -/
def Dev.releasePort (d : Dev) (n : Nat) : Nat → Dev
  | 0 => d
  | k + 1 =>
    match d.release1 n with
    | (d1, true) => d1.releasePort n k
    | (d1, false) => d1

def Dev.reorderRelease (d : Dev) (n : Nat) : Dev := d.releasePort n 1024

/-! ### Egress queues (R245, R246) -/

/-- R35, R245: the conditions of cut-through for a frame of packet p that is enqueued on queue q of port n: the port allows it, the frame
has at most 1,518 bytes, the ingress runs at 100 Gb/s or faster with its MACsec off, the egress is no faster, and the queue is empty, the
port idle and unpaused (log 128). -/
def Dev.cutOk (d : Dev) (n q : Nat) (p : Pkt) : Bool :=
  let src := speedGb (d.portSpeed p.entry)
  bit (d.prtCfg n) 11 && decide (p.len ≤ 1518) && decide (100 ≤ src) && decide (speedGb (d.portSpeed n) ≤ src) &&
  !bit (d.rdN (prt p.entry 0x30)) 0 && (d.egAt n q).items.isEmpty && (d.portAt n).tx.isNone && !d.qPaused n q

/-- R245: enqueue an item; the Bool says whether it was admitted. -/
def Dev.enqueue (d0 : Dev) (n q : Nat) (it0 : EgItem) : Dev × Bool :=
  let d := d0.qRefresh n q
  let it := match it0.pkt with
    | some i => { it0 with cut := d.cutOk n q (d.pkt i) }
    | none => it0
  let x := d.egAt n q
  let occ := x.occ
  if d.mayTx n = false then (d.prtCount n 15 1, false)
  else if d.rdN (gntQ n q 0x14) < occ + it.cells then ((d.count (gntQ n q 0x28) 1).event (gntBase + 0x0C) 1, false)
  else if it.marked ∧ d.rdN (gntQ n q 0x18) ≤ occ then ((d.count (gntQ n q 0x2C) 1).event (gntBase + 0x0C) 1, false)
  else
    let d1 := d.egSet n q { x with items := x.items ++ [it] }
    (match it.pkt with
     | some i => d1.pktUpd i (fun p => { p with refs := p.refs + 1 })
     | none => d1, true)

/-- R242: the extra bytes a tag adds, and whether the tag falls back to metadata only. -/
def Dev.tagBytes (d : Dev) (p : Pkt) (n : Nat) : Nat × Bool :=
  let v := bits p.res 169 164
  let mode := bits (d.visProf v 0) 3 2
  let maxf := bits (d.rdN (prt n 4)) 13 0
  if p.tagged = false then (0, false)
  else if mode = 1 then (0, decide (parW p 0 10 8 ≠ 1) && decide (parW p 0 10 8 ≠ 2))
  else if mode = 2 then (if maxf < p.len + 4 ∨ parW p 5 17 16 = 2 then (0, true) else (4, false))
  else if mode = 3 then (if maxf < p.len + 8 then (0, true) else (8, false))
  else (0, false)

/-- The ones' complement sum folded to 16 bits. -/
def fold16 (s : Nat) : Nat := (s % 65536 + s / 65536) % 65536 + (s % 65536 + s / 65536) / 65536

/-- Replace `bs.length` bytes at `o`. -/
def splice (fr : List Byte) (o : Nat) (bs : List Byte) : List Byte := fr.take o ++ bs ++ fr.drop (o + bs.length)

/-- The offset of the outermost header behind tags and labels. -/
def Pkt.outerL3 (p : Pkt) : Nat := 14 + 4 * (parW p 5 17 16 + parW p 5 19 18)

/-- R242: TAGDSCP in the outermost IP header, with the IPv4 header checksum brought up to date. -/
def setDscp (fr : List Byte) (o v : Nat) : List Byte :=
  if be fr o 1 / 16 = 4 then
    let old := be fr o 2
    let new := old / 256 * 256 + 4 * v + old % 4
    let c := 65535 - fold16 ((65535 - be fr (o + 10) 2) + (65535 - old) + new)
    splice (splice fr o (leBytes 2 new).reverse) (o + 10) (leBytes 2 c).reverse
  else if be fr o 1 / 16 = 6 then
    let w := be fr o 2
    splice fr o (leBytes 2 (w / 4096 * 4096 + 64 * v + w % 64)).reverse
  else fr

/-- An 802.1Q tag, TPID 0x8100, inserted after SA. -/
def pushTag (fr : List Byte) (pcp vid : Nat) : List Byte :=
  fr.take 12 ++ [(0x81 : Byte), 0x00] ++ (leBytes 2 (8192 * pcp + vid)).reverse ++ fr.drop 12

/-- R242: the data of the frame as transmitted to port n, the FCS apart. -/
def Dev.taggedData (d : Dev) (p : Pkt) (n : Nat) : List Byte :=
  let v := bits p.res 169 164
  let mode := bits (d.visProf v 0) 3 2
  let w3 := d.visProf v 3
  if p.tagged = false ∨ (d.tagBytes p n).2 then p.data
  else if mode = 1 then setDscp p.data p.outerL3 (bits w3 21 16)
  else if mode = 2 then pushTag p.data (bits w3 14 12) (bits w3 11 0)
  else if mode = 3 then p.data ++ [(0xEC : Byte), 0x32] ++ (leBytes 2 (wrapI 16 p.s)).reverse ++ leBytes 1 p.act ++ leBytes 1 v ++ (leBytes 2 p.ver).reverse
  else p.data

/-- R243: send a copy of the frame `fr` to mirror destination m. A TAP port transmits no frame it received (R33, R178). -/
def Dev.mirrorCopy (d : Dev) (i m : Nat) (fr : List Byte) : Dev :=
  let w := d.rdN (visBase + 0x2000 + 0x10 * m)
  let p := d.pkt i
  let whole := fr.length + 4
  let t := bits w 31 16
  let cut := if t = 0 then fr else fr.take (min t whole - 4)
  let data := if bit w 9 then pushTag cut (bits (d.rdN (visBase + 0x2000 + 0x10 * m + 4)) 14 12) (bits (d.rdN (visBase + 0x2000 + 0x10 * m + 4)) 11 0) else cut
  let len := (if t = 0 then whole else min t whole) + (if bit w 9 then 4 else 0)
  let drop := fun (e : Dev) => (e.visCount 8).event (visBase + 4) 1
  if bit w 8 && !(decide (d.portMode (bits w 4 0) = 2) && decide (bits w 4 0 = p.port)) then
    let r := d.enqueue (bits w 4 0) (bits w 7 5) { pkt := some i, len := len, cells := p.cells, marked := p.marked, data := data }
    if r.2 then r.1 else drop r.1
  else drop d

/-- R33, R241 to R245: step 10 for the packet released first: the verdict's action under the port's mode. -/
def Dev.egressEnqueue (d : Dev) : Dev :=
  match d.firstHand .released with
  | none => d
  | some i =>
    let p := d.pkt i
    let d0 := d.pktSet i { p with stage := .gone }
    if p.act = 5 then d0.puntPkt i 0x10 p.ver (bits p.res 223 208) (bits p.res 255 224) true
    else if p.eof = some false ∨ p.synth then d0
    else
      let inline_ := decide (p.mode = 1)
      let n := d.partner p.port
      let tg := if inline_ then d.tagBytes p n else (0, false)
      let d1 := if tg.2 then (d0.visCount 7).event (visBase + 4) 0 else d0
      let d2 := if inline_ && decide (p.act ≠ 3) then
          (d1.enqueue n p.cls { pkt := some i, len := p.len + tg.1, cells := p.cells, marked := p.marked, data := d.taggedData p n }).1
        else d1
      if p.act = 2 then d2.mirrorCopy i (bits p.res 151 144) (if inline_ then d.taggedData p n else p.data) else d2

/-! ### The scheduler (R246 to R249) -/

/-- L′ of R246: the wire length of an item on port n. -/
def Dev.wireLen (d : Dev) (n : Nat) (it : EgItem) : Nat := it.len + 20 + (if bit (d.rdN (prt n 0x30)) 1 then 32 else 0)

/-- Is the queue round-robin? -/
def Dev.qDrr (d : Dev) (n q : Nat) : Bool := bit (d.rdN (gntQ n q 0)) 0

def Dev.qQuantum (d : Dev) (n q : Nat) : Nat := bits (d.rdN (gntQ n q 0)) 31 16

/-- AGE in microseconds. -/
def EgQ.ageUs (x : EgQ) : Nat := stick32 (x.age / 10000)

/-- R248: deficit round robin over the queues of a band from its pointer: the queue that sends, with the deficits. -/
def Dev.drrPick (d : Dev) (n band : Nat) : Nat → Nat → Bool → Dev × Option (Nat × Bool)
  | 0, _, _ => (d, none)
  | fuel + 1, q, here =>
    let x := d.egAt n q
    if d.qDrr n q && decide (d.qBand n q x = band) then
      match x.items with
      | [] => d.drrPick n band fuel ((q + 1) % 8) false
      | it :: _ =>
        let dq := if here then x.d else x.d + d.qQuantum n q
        let d1 := d.egSet n q { x with d := dq }
        if d.wireLen n it ≤ dq then (d1, some (q, true)) else d1.drrPick n band fuel ((q + 1) % 8) false
    else d.drrPick n band fuel ((q + 1) % 8) false

/-- Where a PTP frame's PTP header stands, and its UDP header when it has one (R200, R286): EtherType 0x88F7, or UDP over IPv4 or IPv6,
behind at most one tag. -/
def ptpAt (fr : List Byte) : Option (Nat × Option Nat) :=
  let o := if etherType fr = 0x8100 ∨ etherType fr = 0x88A8 then 18 else 14
  let t := be fr (o - 2) 2
  if t = 0x88F7 then some (o, none)
  else if t = 0x0800 then
    (let u := o + 4 * (be fr o 1 % 16)
     some (u + 8, some u))
  else if t = 0x86DD then some (o + 48, some (o + 40))
  else none

/-- The offset of a frame's PTP message, when it carries one: EtherType 0x88F7, or UDP port 319 or 320 (R200). -/
def ptpMsg (fr : List Byte) : Option Nat :=
  match ptpAt fr with
  | some (o, none) => some o
  | some (o, some u) =>
    let l3 := if etherType fr = 0x8100 ∨ etherType fr = 0x88A8 then 18 else 14
    let proto := be fr (if be fr l3 1 / 16 = 4 then l3 + 9 else l3 + 6) 1
    if proto = 17 ∧ (be fr (u + 2) 2 = 319 ∨ be fr (u + 2) 2 = 320) then some o else none
  | none => none

/-- R193, R296: the difference of two stamps in quarter nanoseconds is added to correctionField, in units of 2^−16 ns, and the UDP
checksum follows. -/
def addCorrection (fr : List Byte) (diff : Int) : List Byte :=
  match ptpAt fr with
  | none => fr
  | some (o, udp) =>
    let old := (fr.drop (o + 8)).take 8
    let new := (leBytes 8 (wrapI 64 (sext 64 (beNat old) + diff * 16384))).reverse
    let f1 := splice fr (o + 8) new
    match udp with
    | none => f1
    | some u =>
      let c := be fr (u + 6) 2
      if c = 0 then f1
      else
        let s := fold16 ((65535 - c) + (4 * 65535 - sum16 old) + sum16 new)
        let c' := if s = 65535 then 65535 else 65535 - s
        splice f1 (u + 6) (leBytes 2 c').reverse

/-- R193, R296: the transmit stamp of a marked frame goes to the ring of 256, or is dropped and counted; a one-step frame takes its
correction, unless a step landed between its two stamps. -/
def Dev.txStamp (d : Dev) (n : Nat) (it : EgItem) : Dev × EgItem :=
  match it.mark with
  | none => (d, it)
  | some (tag, org) =>
    let s := { d.tmu.stampAt (d.tmu.cnt + bits (d.rdN (prt n 0x28)) 15 0) with flags := 4 }
    let ring := d.tmu.txRing
    let d1 := if ring.length < 256 then { d with tmu := { d.tmu with txRing := ring ++ [{ tag := tag % 65536, port := n, stamp := s }] } }
      else d.count64 (tmuBase + 0x100 + 8 * 11) 1
    match org with
    | none => (d1, it)
    | some r =>
      if r.epoch ≠ s.epoch then (d1.count64 (tmuBase + 0x100 + 8 * 8) 1, it)
      else (d1, { it with data := addCorrection it.data (((s.seconds * qsec + s.subsec : Nat) : Int) - ((r.seconds * qsec + r.subsec : Nat) : Int)) })

/-- Begin transmission of the head of queue q; `drr` says that the deficit pays. A frame that egress MACsec drops leaves its queue and
pays nothing (R191, log 13). A promotion goes on while its allowance lasts and the queue stays eligible (R249). -/
def Dev.txStart (d : Dev) (n q : Nat) (drr promoted : Bool) : Dev :=
  let x := d.egAt n q
  match x.items with
  | [] => d
  | it :: rest =>
    let m := d.txStamp n it
    match m.1.msEgress n m.2 with
    | (e, none) => (e.egSet n q { x with items := rest, d := if rest = [] then 0 else x.d }).dropItem it
    | (e, some out) =>
      let l := d.wireLen n it
      let y := { x with items := rest, cc := x.cc - l * 2 ^ 24, cp := x.cp - l * 2 ^ 24, age := 0,
                        d := if rest = [] then 0 else if drr then x.d - l else x.d }
      let left := x.promo.getD (d.qQuantum n q) - l
      let goes := promoted && decide (0 < left) && decide (d.qBand n q y ≠ 0)
      (e.egSet n q { y with promo := if goes then some left else none }).portUpd n (fun p => { p with tx := some (q, out) })

/-- R248: the queue of port n that has waited longest beyond the port's limit (the highest of equals). -/
def Dev.starvedPick (d : Dev) (n : Nat) : Option Nat :=
  let lim := bits (d.rdN (gntBase + 0x800 + 4 * n)) 15 0
  let starved := (upTo 8).filter (fun q => decide (lim ≠ 0) && decide (d.qBand n q (d.egAt n q) ≠ 0) && decide (lim < (d.egAt n q).ageUs))
  starved.foldl (fun (m : Option Nat) q =>
    match m with
    | some w => if (d.egAt n w).ageUs ≤ (d.egAt n q).ageUs then some q else some w
    | none => some q) none

/-- R248: the queue is promoted, which counts and is an event. -/
def Dev.promote1 (d : Dev) (n q : Nat) : Dev :=
  ((d.egSet n q { d.egAt n q with promo := some (d.qQuantum n q) }).count (gntQ n q 0x24) 1).event (gntBase + 0x0C) 2

/-- R248: the strict queue of a band with the highest number. -/
def Dev.strictPick (d : Dev) (n b : Nat) : Option Nat :=
  ((upTo 8).filter (fun q => !d.qDrr n q && decide (d.qBand n q (d.egAt n q) = b))).getLast?

/-- R248: a DRR queue of the excess band, in its round. -/
def Dev.drrExcess (d : Dev) (n : Nat) : Dev :=
  let e := d.drrPick n 1 8192 (d.portAt n).ptrE (d.portAt n).visitedE
  match e.2 with
  | some (q, _) => (e.1.portUpd n (fun y => { y with ptrE := q, visitedE := true })).txStart n q true false
  | none => d

/-- R248: a DRR queue of the guaranteed band, in its round; else the excess band. -/
def Dev.drrGuaranteed (d : Dev) (n : Nat) : Dev :=
  let g := d.drrPick n 2 8192 (d.portAt n).ptrG (d.portAt n).visitedG
  match g.2 with
  | some (q, _) => (g.1.portUpd n (fun y => { y with ptrG := q, visitedG := true })).txStart n q true false
  | none =>
    match d.strictPick n 1 with
    | some q => d.txStart n q false false
    | none => d.drrExcess n

/-- R248: the scheduling decision of port n, when its transmitter is idle. Deficit round robin visits each queue up to 1,024
times, enough for the largest frame at the smallest QUANTUM. -/
def Dev.schedule (d : Dev) (n : Nat) : Dev :=
  if (d.portAt n).tx.isSome || !d.mayTx n then d
  else
    let d1 := (d.qRefreshAll n (upTo 8)).promoClear n (upTo 8)
    match (upTo 8).find? (fun q => (d1.egAt n q).promo.isSome) with
    | some q => d1.txStart n q false true
    | none =>
      match d1.starvedPick n with
      | some q => (d1.promote1 n q).txStart n q false true
      | none =>
        match d1.strictPick n 2 with
        | some q => d1.txStart n q false false
        | none => d1.drrGuaranteed n

/-- R249: queue q of port n has become starved: its promotion comes at the next decision. AGE is brought up to date. -/
def Dev.queueStarved (d : Dev) (n q : Nat) : Dev :=
  let d1 := d.qRefresh n q
  let lim := bits (d.rdN (gntBase + 0x800 + 4 * n)) 15 0
  let x := d1.egAt n q
  if lim = 0 ∨ d1.qBand n q x = 0 then d1
  else d1.egSet n q { x with age := max x.age ((lim + 1) * 10000) }

/-- R247: firmware rewrites a queue's record: words QCFG, CINC, PINC, CBURST, PBURST, QMAX and YMAX. -/
def Dev.queueWrite (d : Dev) (n q : Nat) (w : List Nat) : Dev :=
  let d1 := (upTo 7).foldl (fun (e : Dev) k => e.wrN (gntQ n q (4 * k)) (w.getD k 0)) (d.qRefresh n q)
  let full := bit (w.getD 0 0) 1
  let x := d1.egAt n q
  d1.egSet n q { x with cc := if full then (bits (w.getD 3 0) 23 0 : Int) * 2 ^ 24 else 0,
                        cp := if full then (bits (w.getD 4 0) 23 0 : Int) * 2 ^ 24 else 0, d := 0 }

/-! ### The end of a frame (R191, R237) -/

/-- Is nothing left that refers to a packet's frame? -/
def Pkt.idle (p : Pkt) : Bool := decide (p.stage = .gone) && decide (p.refs = 0) && p.hudDone && decide (p.eof ≠ none)

/-- Has the frame of an item arrived whole? -/
def Dev.whole (d : Dev) (it : EgItem) : Bool :=
  match it.pkt with
  | some i => decide ((d.pkt i).eof ≠ none)
  | none => true

/-- R186, R237: the frame in transmission on port n ends: it is counted, its cells are freed when nothing refers to it, and the pause
frames that waited for its end go out. A frame that is still arriving does not end. -/
def Dev.txEnd (d : Dev) (n : Nat) : Dev :=
  match (d.portAt n).tx with
  | none => d
  | some (q, it) =>
    if d.whole it = false then d
    else
      let d0 := (d.qRefreshAll n (upTo 8)).portUpd n (fun p => { p with tx := none, ctl := [] })
      let d1 := ((((d0.prtCount n 10 1).prtCount n 11 it.len).count64 (gntQ n q 0x30) 1).count64 (gntQ n q 0x38) it.len).onLane
        (match it.pkt with
         | some i => .frame n q i it.data it.bad
         | none => .frameBytes n it.data)
      let d2 := (d1.dropItem it).pauseList n (d.portAt n).ctl
      match it.pkt with
      | some i => if (d2.pkt i).idle then d2.freePkt i else d2
      | none => d2

/-- R237: the cells of the oldest dropped or consumed frame are freed. -/
def Dev.freeIdle (d : Dev) : Dev :=
  match d.pktFind Pkt.idle with
  | some i => d.freePkt i
  | none => d

/-- R181, R304: the end-of-frame status of port n's oldest open frame; a bad frame already released is finished with by the
Huddle. -/
def Dev.frameEndAll (d : Dev) (n : Nat) (good : Bool) : Dev :=
  let d0 := d.frameEnd n good
  let d1 := d0.noteFileables ((d0.flow.pkts.filter (fun kv => decide (kv.2.entry = n) && kv.2.fileable)).map (fun kv => kv.1))
  match d1.pktFind (fun p => p.released && !p.hudDone && decide (p.eof = some false)) with
  | some i => (d1.pktUpd i (fun p => { p with hudDone := true })).settle i
  | none => d1

end Sys2Proof
end

