-- ==== Sys2Proof/Machine/Huddle.lean ====
section
/-! DEFINITION. The Huddle (chapter 12): snapshots, filing, closing, results and write-back, deadlines, reports. -/

namespace Sys2Proof

def Dev.hudCount (d : Dev) (k n : Nat) : Dev := d.count64 (hudBase + 0x1000 + 8 * k) n

/-! ### Records (R298, R301) -/

/-- A little-endian field of a record. -/
def fld (r : List Byte) (o n : Nat) : Nat := subN r o n

def gPtn (r : List Byte) : Nat := fld r 10 1
def gBf16 (r : List Byte) : Bool := bit (fld r 11 1) 0
def gRate (r : List Byte) : Nat := fld r 12 2
def gVpe (r : List Byte) : Nat := fld r 14 1
def gNbuf (r : List Byte) : Nat := fld r 15 1
def gEfirst (r : List Byte) : Nat := fld r 16 4
def gNent (r : List Byte) : Nat := fld r 20 4
def gArea (r : List Byte) : Nat := fld r 24 8
def gWait (r : List Byte) : Nat := fld r 32 4
def gHoldn (r : List Byte) : Nat := fld r 36 1
def gReslag (r : List Byte) : Nat := fld r 37 1
def gPq (r : List Byte) : Nat := fld r 38 1
def gLevel (r : List Byte) : Nat := fld r 39 1
def gTol (r : List Byte) : Nat := fld r 40 4
def gFill (r : List Byte) : Nat := fld r 44 4
def gLateCap (r : List Byte) : Nat := fld r 48 2
def gNres (r : List Byte) : Nat := fld r 50 1
def gNfeat (r : List Byte) : Nat := fld r 51 1
def gFbase (r : List Byte) : Nat := fld r 52 1
def gFfmt (r : List Byte) : Nat := fld r 53 1
def gRcode (r : List Byte) : Nat := fld r 54 1
def gReport (r : List Byte) : Nat := fld r 55 1
def gRcap (r : List Byte) : Nat := fld r 56 2
def gResArea (r : List Byte) : Nat := fld r 64 8
def gRpar (r : List Byte) : Nat := fld r 72 8

def gSlots (r : List Byte) : Nat := gNent r * gVpe r
def gEsz (r : List Byte) : Nat := if gBf16 r then 2 else 4

/-- Offsets in a buffer (R313). -/
def gStatOff (r : List Byte) : Nat := 256 + roundUp (gSlots r * gEsz r) 64
def gLateOff (r : List Byte) : Nat := gStatOff r + roundUp (gSlots r) 64
def gBufLen (r : List Byte) : Nat := gLateOff r + roundUp (gLateCap r * 16) 64

/-- R299: t_n × RATE in quarter nanoseconds is n × 4,000,000,000: O_n and D_n as exact fractions over RATE. -/
def gOpenNum (_r : List Byte) (n : Nat) : Int := ((n : Int) - 1) * qsec

def gCloseNum (r : List Byte) (n : Nat) : Int := (n : Int) * qsec + gWait r * 4000 * gRate r

/-- Reported time over RATE, comparable with the above. -/
def Dev.timeNum (d : Dev) (r : List Byte) : Int := (d.tmu.cnt : Int) * gRate r

def Dev.grpAt (d : Dev) (g : Nat) : HudGrp := Tab.get {} d.flow.grp g

def Dev.grpSet (d : Dev) (g : Nat) (x : HudGrp) : Dev := { d with flow := { d.flow with grp := Tab.set {} d.flow.grp g x } }

/-- The number of the group record of g visible to the current version, if there is one (R300). -/
def Dev.groupRec (d : Dev) (g : Nat) : Option Nat :=
  (d.flow.tpl.find? (fun kv => decide (fld kv.2 8 1 = 1) && decide (fld kv.2 9 1 = g) && d.visible (tplCtl kv.2) d.vcur)).map
    (fun kv => kv.1)

/-- R300: a group runs while its record is visible and the error bound is known. -/
def Dev.groupRuns (d : Dev) (g : Nat) : Bool := (d.groupRec g).isSome && !d.tmu.unknown

/-- R319: a Huddle event. -/
def Dev.hudEvent (d : Dev) (p code g count n : Nat) : Dev :=
  d.catPut { value := code + 256 * g + 2 ^ 32 * stick32 count, source := 33, partition := p, kind := 0x11, detail := n % 2 ^ 32 }

/-! ### Opening (R299, R309, R312) -/

/-- The smallest n whose opening is not before the present reported time. -/
def Dev.firstSnap (d : Dev) (r : List Byte) : Nat := ((d.timeNum r + qsec - 1) / qsec + 1).toNat

/-- Write the fill into a buffer (R309). -/
def Dev.fillBuffer (d : Dev) (r : List Byte) (off : Nat) : Dev :=
  let v := if gBf16 r then leBytes 2 (bf16Of (gFill r)).1 else leBytes 4 (gFill r)
  let vals := (upTo (gSlots r)).flatMap (fun _ => v)
  (d.shWrite (gPtn r) (off + 256) vals).shWrite (gPtn r) (off + gStatOff r) (leBytes (gSlots r) 0)

/-- R299, R300, R309, R312: group g opens its next snapshot, when reported time has reached O_n. DESIGN CHOICE (log 125): under a record of
another RATE it goes on from the first number of the new numbering. -/
def Dev.snapOpen (d : Dev) (g : Nat) : Dev :=
  match d.groupRec g with
  | none => d.grpSet g { d.grpAt g with running := false, next := none }
  | some k =>
    if d.tmu.unknown then d
    else
      let r := Tab.get [] d.flow.tpl k
      let x := d.grpAt g
      let sameRate := match x.recs.head? with | some (_, r0) => decide (gRate r0 = gRate r) | none => true
      let n := match x.running && sameRate, x.next with
        | true, some n => n
        | _, _ => let f := d.firstSnap r; if x.anyClosed ∧ sameRate ∧ f ≤ x.lastClosed then x.lastClosed + 1 else f
      let x := { x with running := true, tpl := k, next := some n }
      if d.timeNum r < gOpenNum r n then d.grpSet g x
      else
        let b := n % gNbuf r
        let rel := bit (fld r 11 1) 2
        let busy := rel && decide (Tab.get none x.held b ≠ none)
        let off := gArea r + b * gBufLen r
        let s : Snap := { n := n, recd := r, buf := if busy then none else some off }
        let x' := { x with next := some (n + 1), opened := x.opened ++ [s],
                           recs := if (x.recs.head?.map Prod.snd) = some r then x.recs else (n, r) :: x.recs,
                           held := if rel && !busy then Tab.set none x.held b (some n) else x.held }
        let d1 := d.grpSet g x'
        if busy then d1 else d1.fillBuffer r off

/-! ### Tags and values (R302, R305 to R307) -/

/-- Big-endian field of the frame, when it lies in the data. -/
def beIn (bs : List Byte) (o n : Nat) : Option Nat := if o + n ≤ bs.length then some (be bs o n) else none

/-- R306: the correction of a packet's stamp: none when it is two or more epochs old; and whether it was corrected. -/
def Dev.corrStamp (d : Dev) (t : TStamp) : Option (Nat × Bool) :=
  let age := (d.tmu.epoch + 256 - t.epoch) % 256
  if age = 0 then some (t.q, false)
  else if age = 1 then some (((t.q : Int) + d.tmu.lastDelta).toNat, true)
  else none

/-- A time tag: seconds, quarter nanoseconds, unsynchronised, bad. -/
structure Tag where
  sec : Int
  sub : Nat
  unsync : Bool
  bad : Bool
  deriving DecidableEq, Repr

/-- R305: the tag of repetition k of a packet under a template; `base` is the application offset, `q` the corrected stamp. -/
def Dev.tagOf (d : Dev) (bs t : List Byte) (base k q : Nat) : Option Tag :=
  let kind := fld t 9 1
  let o := base + fld t 20 2 + k * fld t 28 2
  let tb := fld t 24 4
  let utc : Int := if bit (fld t 11 1) 0 then sext 16 (d.rdN (tmuBase + 0x38)) else 0
  if kind = 0 then some { sec := ((q / qsec : Nat) : Int), sub := (q % qsec : Nat), unsync := false, bad := false }
  else if kind = 1 then
    (match beIn bs o 4, beIn bs (o + 4) 4 with
     | some s, some f =>
       let fr : Nat := f % 2 ^ 24
       some { sec := s + utc, sub := (rneRat (fr * qsec) tb).toNat, unsync := decide (f / 2 ^ 24 % 16 = 15), bad := decide (tb ≤ fr) }
     | _, _ => none)
  else if kind = 3 then
    (match beIn bs o 4, beIn bs (o + 4) 3, beIn bs (o + 7) 1 with
     | some s, some f, some b => some { sec := s + utc, sub := (rneRat (f * qsec) (2 ^ 24)).toNat, unsync := bit b 5, bad := false }
     | _, _, _ => none)
  else
    match beIn bs o 2 with
    | none => none
    | some c =>
      let sub := (rneRat (c * qsec) tb).toNat
      let s : Int := q / qsec
      let lo := ((s - 1) * qsec + sub - q).natAbs
      let hi := (s * qsec + sub - q).natAbs
      let so := fld t 22 2
      let un := decide (so ≠ 0xFFFF) && decide (beIn bs (base + so + k * fld t 28 2) 1 = some 0)
      some { sec := (if lo ≤ hi then s - 1 else s) + utc, sub := sub, unsync := un, bad := decide (tb ≤ c) }

/-- R307: the snapshot of a tag, and whether it is off grid. -/
def tagSnap (r : List Byte) (t : Tag) : Int × Bool :=
  let k := (t.sub * gRate r + 2000000000) / qsec
  (t.sec * gRate r + k, decide (gTol r * 4 * gRate r < ((t.sub * gRate r : Int) - k * qsec).natAbs))

/-- What a field of a template gives (R302). -/
inductive FieldVal
  | val (x : Nat) (badq : Bool)
  | rawMiss | beyond | nonFin
  deriving DecidableEq, Repr

/-- x × y + z of an integer-or-dyadic raw value and two binary32 numbers, rounded once to `p` bits. -/
def mulAdd (p : Nat) (n e : Int) (y z : Nat) : Nat × Bool :=
  let e1 := e + fExp y
  let e2 := fExp z
  let m := min e1 e2
  let v := n * fMant y * 2 ^ (e1 - m).toNat + fMant z * 2 ^ (e2 - m).toNat
  if v = 0 then (0, false) else fpRound p v m

/-- R302: the value of a field entry for a repetition's offset. -/
def fieldVal (bs f : List Byte) (base : Nat) (bf16 : Bool) : FieldVal :=
  let enc := fld f 2 1
  let fl := fld f 3 1
  let w := if enc < 2 then 2 else 4
  match beIn bs (base + fld f 0 2) w with
  | none => .beyond
  | some raw =>
    if bit fl 0 ∧ raw = fld f 16 4 then .rawMiss
    else if enc = 4 ∧ fIsNaN raw then .rawMiss
    else if enc = 4 ∧ fIsInf raw then .nonFin
    else
      let n : Int := match enc with
        | 0 => sext 16 raw
        | 2 => sext 32 raw
        | 4 => fMant raw
        | _ => raw
      let e : Int := if enc = 4 then fExp raw else 0
      let v := mulAdd (if bf16 then 8 else 24) n e (fld f 8 4) (fld f 12 4)
      if v.2 then .nonFin
      else
        let qw := if bit fl 2 then 4 else 2
        if bit fl 1 then
          (match beIn bs (base + fld f 20 2) qw with
           | none => .beyond
           | some q => .val v.1 (decide (Nat.land q (fld f 24 4) ≠ fld f 28 4)))
        else .val v.1 false

/-! ### Filing (R304, R307, R308, R310) -/

/-- One value as it reaches its group: slot, value bits, status byte. -/
structure HVal where
  slot : Nat
  ent : Nat
  chan : Nat
  x : Nat
  status : Nat
  deriving DecidableEq, Repr

/-- The bytes of a value in a group. -/
def valBytes (r : List Byte) (x : Nat) : List Byte := leBytes (gEsz r) x

/-- R307, R308, R310: file one value into snapshot n of group g. The Bool is DUP's own bit. -/
def Dev.fileValue (d : Dev) (g : Nat) (r : List Byte) (n : Int) (v : HVal) : Dev :=
  let x := d.grpAt g
  match x.opened.find? (fun s => decide ((s.n : Int) = n)) with
  | some s =>
    let put := fun (s' : Snap) => d.grpSet g { x with opened := x.opened.map (fun t => if t.n = s.n then s' else t) }
    match s.buf with
    | none => (put { s with skipDrop := s.skipDrop + 1 }).hudCount 11 1
    | some off =>
      let old := Tab.get 0 s.filled v.slot
      let emit := fun (e : Dev) (st : Nat) (withVal : Bool) =>
        let soff := off + gStatOff s.recd + v.slot
        let fv : FileVal := { grp := g, n := s.n, ptn := gPtn s.recd, off := off + 256 + v.slot * gEsz s.recd,
                              val := if withVal then valBytes s.recd v.x else [], soff := soff, status := st }
        { e with flow := { e.flow with fileQ := e.flow.fileQ ++ [fv] } }
      if old = 0 then
        emit (((put { s with filled := Tab.set 0 s.filled v.slot v.status }).hudCount 0 1).hudCount 9 (b2n (decide (v.status % 4 = 3)))) v.status true
      else
        let last := bit (fld s.recd 11 1) 1
        let st := if last then setBit v.status 5 else setBit old 5
        emit ((put { s with filled := Tab.set 0 s.filled v.slot st, dup := s.dup + 1 }).hudCount 7 1) st last
  | none =>
    match x.closed.find? (fun s => decide ((s.n : Int) = n)) with
    | some s =>
      if s.buf = none then d.hudCount 11 1
      else if Tab.get 0 s.filled v.slot ≠ 0 ∨ s.listed.contains v.slot then d.hudCount 7 1
      else
        match x.opened with
        | t :: rest =>
          let c' := x.closed.map (fun u => if u.n = s.n then { u with listed := v.slot :: u.listed } else u)
          if t.late.length < gLateCap t.recd then
            let e := leBytes 4 (v.ent + 2 ^ 24 * v.chan) ++ leBytes 4 s.n ++ leBytes 4 v.x ++ leBytes 4 v.status
            (d.grpSet g { x with closed := c', opened := { t with late := t.late ++ [e] } :: rest }).hudCount 2 1
          else (d.grpSet g { x with opened := { t with lateLost := true } :: rest }).hudCount 3 1
        | [] => d.hudCount 3 1
    | none =>
      if d.timeNum r < gOpenNum r n.toNat ∧ (x.anyClosed = false ∨ (x.lastClosed : Int) < n) then d.hudCount 5 1
      else d.hudCount 4 1

def Dev.fileValues (d : Dev) (g : Nat) (r : List Byte) : List (Int × HVal) → Dev
  | [] => d
  | a :: as => (d.fileValue g r a.1 a.2).fileValues g r as

/-- CRC-CCITT of IEEE C37.118.2 (initial value 0xFFFF, polynomial 0x1021) (log 32). -/
def crcCcitt (bs : List Byte) : Nat :=
  bs.foldl (fun c b => (upTo 8).foldl (fun x _ => if bit x 15 then Nat.xor (2 * x % 65536) 0x1021 else 2 * x % 65536)
    (Nat.xor c (256 * b.toNat))) 0xFFFF

/-- The entries of a template, 32 bytes each. -/
def tplFields (t : List Byte) : List (List Byte) := (upTo (fld t 18 2)).map (fun i => sub t (64 + 32 * i) 32)

/-- R300, R301: the template of a packet and its group's record, when it may be used; else the counter. NOCLOCK counts the values of a
packet that is otherwise for the group: NFIELDS × NREP (log 125). -/
def Dev.useTemplate (d : Dev) (p : Pkt) : Except Nat (List Byte × Nat × List Byte) :=
  let t := d.tplRec (bits p.res 207 192) p.ver
  let w24 := p.par.getD 24 0
  let g := fld t 10 1
  if t = [] ∨ fld t 8 1 ≠ 2 then .error 13
  else match d.groupRec g with
    | none => .error 13
    | some k =>
      let r := Tab.get [] d.flow.tpl k
      if gPtn r ≠ bits p.res 127 122 ∨ fld t 12 1 ≠ w24 % 256 ∨ fld t 14 2 ≠ w24 / 65536 then .error 13
      else if fld t 16 2 ≠ 0 ∧ fld t 16 2 ≠ parW p 25 15 0 then .error 14
      else if d.tmu.unknown then .error 10
      else .ok (t, g, r)

/-- The values of one repetition: its snapshot and value of each field, and the counters. -/
def repValues (p : Pkt) (t r : List Byte) (base k : Nat) (tag : Tag) (quality : Nat) : List (Int × HVal) × List Nat :=
  let sn := tagSnap r tag
  if tag.bad then ([], [8])
  else if sn.2 then ([], [6])
  else
    let one : List Byte → List (Int × HVal) × List Nat := fun (f : List Byte) =>
      match fieldVal p.data f (base + k * fld t 28 2) (gBf16 r) with
      | .val x bq =>
        let tg := fld f 4 4
        let ent := bits tg 17 0
        let chan := bits tg 27 24
        let pres := if tag.unsync then 3 else if bq then 2 else 1
        let st := 128 * b2n (decide (fld t 9 1 = 0)) + 64 * b2n p.synth + 16 * b2n p.tagged + 4 * (quality % 4) + pres
        ([(sn.1, { slot := (ent - gEfirst r) * gVpe r + chan, ent := ent, chan := chan, x := x, status := st })], [])
      | .rawMiss => ([], [15])
      | .beyond => ([], [13])
      | .nonFin => ([], [16])
    let rs := (tplFields t).map one
    (rs.flatMap (fun a => a.1), rs.flatMap (fun a => a.2))

def Dev.hudCounts (d : Dev) : List Nat → Dev
  | [] => d
  | k :: ks => (d.hudCount k 1).hudCounts ks

/-- R319: FILEDROP after at least 1 ms without one. -/
def Dev.fileDrop (d : Dev) (p g n : Nat) : Dev :=
  let d1 := (d.hudCount 12 n).event (hudBase + 8) 3
  let d2 := { d1 with flow := { d1.flow with fileDropAt := some d.now } }
  match d.flow.fileDropAt with
  | some t => if t + msec ≤ d.now then d2.hudEvent p 4 g 1 0 else d2
  | none => d2.hudEvent p 4 g 1 0

/-- R301 to R307: file a packet. -/
def Dev.filePkt (d : Dev) (i : Nat) : Dev :=
  let p := d.pkt i
  let d0 := d.hudCount 1 1
  match d.useTemplate p with
  | .error 10 => let t := d.tplRec (bits p.res 207 192) p.ver; d0.hudCount 10 (fld t 18 2 * fld t 13 1)
  | .error k => (d0.hudCount k 1).event (hudBase + 8) 5
  | .ok (t, g, r) =>
    let base := parW p 26 23 16
    let flen := parW p 25 15 0
    if bit (fld t 11 1) 1 && decide (beIn p.data (base + flen - 2) 2 ≠ some (crcCcitt (sub p.data base (flen - 2)))) then
      (d0.hudCount 13 1).event (hudBase + 8) 5
    else
      match d.corrStamp p.stamp with
      | none => d0.hudCount 18 1
      | some (q, corr) =>
        let reps := (upTo (fld t 13 1)).map (fun k =>
          match d.tagOf p.data t base k q with
          | none => ([], [13])
          | some tag => repValues p t r base k tag p.stamp.quality)
        let vals := reps.flatMap (fun a => a.1)
        let cnts := reps.flatMap (fun a => a.2)
        let d1 := d0.hudCounts cnts
        let d2 := if cnts.contains 13 then d1.event (hudBase + 8) 5 else d1
        let d3 := if corr then d2.hudCount 17 vals.length else d2
        if 65536 < d3.flow.fileQ.length + vals.length then d3.fileDrop (gPtn r) g vals.length
        else d3.fileValues g r vals

/-- R304: does a packet come before another: by the FCLK in which it became fileable, then its port, then its place in the port's order? -/
def Pkt.filesBefore (p q : Pkt) : Bool :=
  rankLt [p.fileAt.getD 0, p.port, p.order] [q.fileAt.getD 0, q.port, q.order]

/-- The fileable packet whose take is next. -/
def Dev.nextFile (d : Dev) : Option Nat :=
  (d.flow.pkts.foldl (fun (m : Option (Nat × Pkt)) kv =>
    if kv.2.fileable then
      (match m with
       | some x => if kv.2.filesBefore x.2 then some kv else m
       | none => some kv)
    else m) none).map (fun x => x.1)

def Dev.takeFiles (d : Dev) : Nat → Dev
  | 0 => d
  | k + 1 =>
    match d.nextFile with
    | none => d
    | some i => (((d.filePkt i).pktUpd i (fun p => { p with hudDone := true })).settle i).takeFiles k

/-- R304: the Huddle takes up to four fileable packets. -/
def Dev.huddleTake (d : Dev) : Dev := d.takeFiles 4

/-- Write one value of the filing queue to HBM. -/
def Dev.writeFile (d : Dev) (v : FileVal) : Dev :=
  let d1 := if v.val = [] then d else d.shWrite v.ptn v.off v.val
  d1.shWrite v.ptn v.soff (leBytes 1 v.status)

def Dev.writeFiles (d : Dev) : List FileVal → Dev
  | [] => d
  | v :: vs => (d.writeFile v).writeFiles vs

/-- R304: up to two values leave the filing queue for HBM. -/
def Dev.filingWrite (d : Dev) : Dev :=
  let q := d.flow.fileQ
  ({ d with flow := { d.flow with fileQ := q.drop 2 } }).writeFiles (q.take 2)

/-! ### Closing (R309, R311, R313, R314) -/

/-- A count of filled slots. -/
def Snap.cnt (s : Snap) (f : Nat → Bool) : Nat := (s.filled.filter (fun kv => f kv.2)).length

/-- Is the stack of a partition's primary extent lost, with no mirror to take writes (R318)? -/
def Dev.areaLost (d : Dev) (p : Nat) : Bool :=
  decide (Tab.get 0 d.ptn.hbm (d.ent p).pstack = 2) && !((d.ent p).prot && (d.ptnAt p).mirrored)

/-- R313: the 256-byte header. -/
def snapHeader (g : Nat) (s : Snap) (gap : Nat) (nominal closed : TStamp) : List Byte :=
  let r := s.recd
  let present := s.filled.length
  padTo 256 ([0x48, 0x55, 0x44, 0x53] ++ leBytes 1 1 ++ leBytes 1 g ++
    leBytes 1 (b2n (gBf16 r) + 2 * b2n s.stepped + 4 * b2n s.areaFault + 8 * b2n s.lateLost) ++ leBytes 1 (gVpe r) ++ leBytes 8 s.n ++
    nominal.bytes ++ closed.bytes ++ leBytes 4 (gNent r) ++ leBytes 4 present ++ leBytes 4 (gSlots r - present) ++
    leBytes 4 (s.cnt (fun b => decide (b % 4 = 2))) ++ leBytes 4 (s.cnt (fun b => decide (b % 4 = 3))) ++ leBytes 4 s.dup ++
    leBytes 4 (s.cnt (fun b => decide (b / 4 % 4 ≠ 0))) ++ leBytes 2 s.late.length ++ leBytes 2 (stick 0xFFFF gap) ++
    leBytes 4 256 ++ leBytes 4 (gStatOff r) ++ leBytes 4 (gLateOff r))

/-- R314: the 32-byte event entry. -/
def snapEvent (g : Nat) (s : Snap) (gap lost : Nat) : List Byte :=
  let present := s.filled.length
  leBytes 8 s.n ++ leBytes 8 (s.buf.getD 0) ++ leBytes 1 g ++
  leBytes 1 (b2n s.buf.isNone + 2 * b2n s.stepped + 4 * b2n s.areaFault) ++ leBytes 2 (stick 0xFFFF lost) ++
  leBytes 4 (gSlots s.recd - present) ++ leBytes 2 s.late.length ++ leBytes 2 (stick 0xFFFF gap) ++ leBytes 4 present

/-- R309: close snapshot s of group g: its writes, the header, the event. -/
def Dev.closeSnap (d : Dev) (g : Nat) (s0 : Snap) : Dev :=
  let p := gPtn s0.recd
  let r := s0.recd
  let mine := d.flow.fileQ.filter (fun v => decide (v.grp = g) && decide (v.n = s0.n))
  let rest := d.flow.fileQ.filter (fun v => !(decide (v.grp = g) && decide (v.n = s0.n)))
  let d1 := ({ d with flow := { d.flow with fileQ := rest } }).writeFiles mine
  let lost := d1.areaLost p && s0.buf.isSome
  let s := { s0 with areaFault := s0.areaFault || lost }
  let x := d1.grpAt g
  let nom := { d1.tmu.stampAt (s.n / gRate r * qsec + (rneRat ((s.n % gRate r) * qsec) (gRate r)).toNat) with flags := 0 }
  let d2 := match s.buf with
    | some off => if lost then d1 else
        (d1.shWrite p (off + gLateOff r) (s.late.flatMap id)).shWrite p off (snapHeader g s x.gap nom d1.stamp)
    | none => d1
  let x' := { x with opened := x.opened.filter (fun t => decide (t.n ≠ s.n)), closed := (s :: x.closed).take (gHoldn r),
                     lastClosed := max x.lastClosed s.n, anyClosed := true, gap := 0, deadlines := x.deadlines ++ [s.n] }
  let q := d2.pqAt (gPq r)
  let pushed := if q.en && decide (q.owner = gPtn r) then d2.pqPush (gPq r) 66 { level := gLevel r, data := snapEvent g s x.gap x.lostEv } else (d2, false)
  let d3 := pushed.1.grpSet g { x' with lostEv := if pushed.2 then 0 else x.lostEv + 1 }
  let d4 := if pushed.2 then d3.hudCount 24 1 else d3
  let d5 := if s.buf.isNone then (d4.event (hudBase + 8) 0).hudEvent p 1 g s.skipDrop s.n else d4
  let d6 := if lost then (d5.event (hudBase + 8) 2).hudEvent p 3 g 1 s.n else d5
  d6.teleMake 4 2 0x0D p g (leBytes 8 g ++ leBytes 8 s.n ++ leBytes 8 0 ++ leBytes 4 s.filled.length ++ leBytes 4 (gSlots r - s.filled.length))

/-- R299, R309: the oldest open snapshot of group g closes when reported time has reached D_n. -/
def Dev.snapClose (d : Dev) (g : Nat) : Dev :=
  match (d.grpAt g).opened with
  | [] => d
  | s :: _ =>
    if d.tmu.unknown || !(d.grpAt g).running then d
    else if d.timeNum s.recd < gCloseNum s.recd s.n then d
    else d.closeSnap g s

/-- R311: the effect of a landed step on the open snapshots of group g: they are marked STEPPED; snapshots never opened count in
GAP. -/
def Dev.stepGroup (d : Dev) (g : Nat) : Dev :=
  let x := d.grpAt g
  let x1 := { x with opened := x.opened.map (fun s => { s with stepped := true }) }
  match x.running, x.next, d.groupRec g with
  | true, some n, some k =>
    let r := Tab.get [] d.flow.tpl k
    let f := d.firstSnap r
    if n < f then d.grpSet g { x1 with next := some f, gap := x1.gap + (f - n) } else d.grpSet g x1
  | _, _, _ => d.grpSet g x1

def Dev.stepGroups (d : Dev) : List Nat → Dev
  | [] => d
  | g :: gs => (d.stepGroup g).stepGroups gs

/-! ### Results (R315 to R318, R320) -/

/-- R300: the record that snapshot n (modulo 2^48) of a group opened under; the current record `cur` before any has opened. -/
def HudGrp.recOf (x : HudGrp) (n : Nat) (cur : List Byte) : List Byte :=
  ((x.recs.find? (fun e => decide (e.1 % 2 ^ 48 ≤ n % 2 ^ 48))).map Prod.snd).getD cur

/-- R315: the snapshot that n modulo 2^48 names: in the last closed one's run of 2^48. -/
def HudGrp.whole (x : HudGrp) (n : Nat) : Nat := x.lastClosed / 2 ^ 48 * 2 ^ 48 + n

/-- R315: the write-back unit takes the oldest forwarded record. -/
def Dev.resultPost (d : Dev) : Dev :=
  match d.cat.fwd with
  | [] => d
  | c :: rest =>
    let d1 := { d with cat := { d.cat with fwd := rest } }
    let op := bits c.value 63 60
    let g := bits c.value 59 54
    let n := bits c.value 47 0
    if op = 0 ∨ 3 < op then d1
    else
      let bad := d1.hudCount 19 1
      match d1.groupRec g with
      | none => bad
      | some k =>
        let x := d1.grpAt g
        let n := x.whole n
        let r := x.recOf n (Tab.get [] d1.flow.tpl k)
        let b := n % gNbuf r
        let heldOk := match Tab.get none x.held b with
          | some m => decide (m % 2 ^ 48 = n % 2 ^ 48)
          | none => false
        if !x.running || d1.tmu.unknown || !d1.sameGang c.partition (gPtn r) || !x.anyClosed || decide (x.lastClosed < n) then bad
        else if (op = 2 ∨ op = 3) ∧ heldOk = false then bad
        else
          let x1 := if op = 2 ∨ op = 3 then { x with held := Tab.set none x.held b none } else x
          let x2 := if op = 1 ∨ op = 3 then { x1 with results := x1.results ++ [n] } else x1
          d1.grpSet g x2

/-- R316, R61: the 16-bit code of a decoded value, and whether HUD_SAT counts. -/
def resCode (ffmt x : Nat) : Nat × Bool :=
  let frac := bits ffmt 3 0
  let uq := bit ffmt 7
  if fIsNaN x then (if uq then 0xFFFF else 0x8000, false)
  else
    let lo : Int := if uq then 0 else -32767
    let hi : Int := if uq then 65534 else 32767
    if fIsInf x then (wrapI 16 (if fNeg x then lo else hi), true)
    else
      let t := rneDy (fMant x) (fExp x + frac)
      (wrapI 16 (satI t lo hi), decide (satI t lo hi ≠ t))

/-- R316: write back one entity's values; the codes written, or none when it is skipped. -/
def Dev.backEntity (d : Dev) (r : List Byte) (n e : Nat) (xs : List Nat) : Dev × Option (List Nat) :=
  let st := d.entState e
  let newer := (bits st 63 48 + 65536 - n % 65536) % 65536
  if xs.all fIsNaN ∨ (1 ≤ newer ∧ newer ≤ 32767) then (d.hudCount 21 1, none)
  else
    let cs := xs.map (resCode (gFfmt r))
    let d1 := { d with flow := { d.flow with feat := Tab.setList 0 d.flow.feat (e * 64 + gFbase r) (cs.map Prod.fst) } }
    let d2 := ((d1.entSetState e (2 ^ 48 * (n % 65536) + 3)).hudCount 20 1).count (hudBase + 0x40) ((cs.filter Prod.snd).length)
    (d2, some (cs.map Prod.fst))

def Dev.backEntities (d : Dev) (r : List Byte) (n : Nat) : Nat → List (List Nat) → List (Nat × List Nat) → Dev × List (Nat × List Nat)
  | _, [], acc => (d, acc.reverse)
  | e, xs :: rest, acc =>
    match d.backEntity r n e xs with
    | (d1, some cs) => d1.backEntities r n (e + 1) rest ((e, cs) :: acc)
    | (d1, none) => d1.backEntities r n (e + 1) rest acc

/-- Cut a list into pieces of `n`. -/
def chunks {α : Type} (n : Nat) : Nat → List α → List (List α)
  | 0, _ => []
  | k + 1, xs => xs.take n :: chunks n k (xs.drop n)

/-! ### Reports (R320) -/

/-- The ones'-complement sum of 16-bit big-endian words (RFC 1071). -/
def onesSum : List Byte → Nat
  | [] => 0
  | [a] => 256 * a.toNat
  | a :: b :: r => 256 * a.toNat + b.toNat + onesSum r

/-- The checksum of a sum: its carries folded in, complemented. -/
def onesCheck (s : Nat) : Nat :=
  let f : Nat → Nat := fun x => x % 65536 + x / 65536
  65535 - f (f (f s))

/-- Bytes of a frame replaced at an offset. -/
def patch (bs : List Byte) (o : Nat) (new : List Byte) : List Byte := bs.take o ++ new ++ bs.drop (o + new.length)

/-- Where the network header of an Ethernet frame begins: behind at most two tags. -/
def netOff (bs : List Byte) : Nat :=
  let tag := fun (o : Nat) => decide (be bs o 2 = 0x8100 ∨ be bs o 2 = 0x88A8)
  if tag 12 then (if tag 16 then 22 else 18) else 14

/-- R320: the builder fills the IP lengths, the IPv4 header checksum and the UDP checksum, at the places of their protocols (log 34). -/
def fillLengths (bs : List Byte) : List Byte :=
  let bev := fun (k v : Nat) => (leBytes k v).reverse
  let o := netOff bs
  let v4 := decide (be bs o 1 / 16 = 4)
  let u := if v4 then o + 4 * (be bs o 1 % 16) else o + 40
  let b1 := if v4 then patch (patch bs (o + 2) (bev 2 (bs.length - o))) (o + 10) (bev 2 0) else patch bs (o + 4) (bev 2 (bs.length - u))
  let b2 := if v4 then patch b1 (o + 10) (bev 2 (onesCheck (onesSum ((b1.drop o).take (u - o))))) else b1
  let b3 := patch (patch b2 (u + 4) (bev 2 (bs.length - u))) (u + 6) (bev 2 0)
  let adr := if v4 then (b3.drop (o + 12)).take 8 else (b3.drop (o + 8)).take 32
  let c := onesCheck (onesSum (b3.drop u) + onesSum adr + 17 + (bs.length - u))
  patch b3 (u + 6) (bev 2 (if c = 0 then 65535 else c))

/-- R320: the report packets of a result. -/
def Dev.report1 (d : Dev) (rep g : Nat) (r : List Byte) (n : Nat) (idx : Nat) (last : Bool) (es : List (Nat × List Nat)) : Dev :=
  let w0 := d.rdN (hudBase + 0x2000 + 0x10 * rep)
  let seq := d.rdN (hudBase + 0x2004 + 0x10 * rep)
  let hl := bits w0 15 9
  let hdr := ((upTo 32).flatMap (fun w => leBytes 4 (d.rdN (hudBase + 0x4000 + 0x80 * rep + 4 * w)))).take hl
  let bev := fun (k v : Nat) => (leBytes k v).reverse
  let body := [0x45, 0x43, 0x52, 0x50] ++ bev 1 1 ++ bev 1 g ++ bev 1 (gNfeat r) ++ bev 1 (gFfmt r) ++ bev 8 n ++ bev 4 seq ++
    bev 2 es.length ++ bev 2 idx ++ bev 1 (b2n last) ++ bev 7 0 ++ es.flatMap (fun e => bev 4 e.1 ++ e.2.flatMap (bev 2))
  let data := fillLengths (hdr ++ body)
  let c := cellsOf (data.length + 4)
  let drop := fun (e : Dev) => (e.count (hudBase + 0x2008 + 0x10 * rep) 1).hudCount 23 1
  let d1 := d.wrN (hudBase + 0x2004 + 0x10 * rep) (seq + 1)
  if d.rdN (gntBase + 8) < d.flow.sysUsed + c then drop d1
  else
    let q := ({ d1 with flow := { d1.flow with sysUsed := d1.flow.sysUsed + c } }).enqueue (bits w0 4 0) (bits w0 7 5)
      { pkt := none, len := data.length + 4, cells := c, data := data }
    if q.2 then q.1.hudCount 22 1 else drop { q.1 with flow := { q.1.flow with sysUsed := q.1.flow.sysUsed - c } }

def Dev.reports (d : Dev) (rep g : Nat) (r : List Byte) (n : Nat) : Nat → List (List (Nat × List Nat)) → Dev
  | _, [] => d
  | i, [es] => d.report1 rep g r n i true es
  | i, es :: rest => (d.report1 rep g r n i false es).reports rep g r n (i + 1) rest

/-- R320: a RESULT written back goes out as packets of as many entries as MAXFRAME takes. -/
def Dev.reportAll (d : Dev) (rep g : Nat) (r : List Byte) (n : Nat) (es : List (Nat × List Nat)) : Dev :=
  let w0 := d.rdN (hudBase + 0x2000 + 0x10 * rep)
  if bit w0 8 && decide (es ≠ []) then
    let maxf := bits (d.rdN (prt (bits w0 4 0) 4)) 13 0
    let per := max 1 ((maxf - 4 - bits w0 15 9 - 32) / (4 + 2 * gNfeat r))
    d.reports rep g r n 0 (chunks per ((es.length + per - 1) / per) es)
  else d

/-- R316: the oldest RESULT of group g is read, decoded and written back. `ecc` is what the read of the transfer meets: with an
uncorrectable error in line k the elements that lie beyond it are abandoned: they are not decoded, and no LINKERR of theirs counts.
DESIGN CHOICE (log 124): a group record at RPAR that R56 would refuse is decoded with as it stands. -/
def Dev.resultWriteback (d : Dev) (g : Nat) (ecc : Ecc) : Dev :=
  let x := d.grpAt g
  match x.results, d.groupRec g with
  | n :: rest, some k =>
    let r := x.recOf n (Tab.get [] d.flow.tpl k)
    let p := gPtn r
    let code := gRcode r % 2
    let nb := qlBits code
    let gsz := 16 * 2 ^ bits (gRcode r) 2 1
    let nf := gNfeat r
    let tot := gNent r * nf
    let size := qlSize code tot (gRcap r)
    let off := gResArea r + (n % gNres r) * size
    let src := d.shRead p off size
    let par := fun gi => parOfBytes (d.shRead p (gRpar r + 8 * gi) 8)
    let sb := qlPayload code tot
    let cnt := if gRcap r = 0 then 0 else leNat ((src.drop (sb + 4)).take 2)
    let ent := fun j => (leNat ((src.drop (sb + 16 + 8 * j)).take 4), leNat ((src.drop (sb + 20 + 8 * j)).take 2))
    let good := if d.shLost p ecc then (match ecc with
      | .uncData line => min (gNent r) (64 * line * 8 / nb / nf)
      | _ => 0) else gNent r
    let dec := decodeQlList nb nf gsz par cnt ent 0 0 ((unpackQl code src tot).take (good * nf))
    let d1 := (d.shEcc p ecc).grpSet g { x with results := rest, lastBack := n }
    let b := d1.backEntities r n (gEfirst r) (chunks nf good dec.1) []
    let d2 := if good < gNent r then (b.1.event (hudBase + 8) 2).hudEvent p 3 g 1 n else b.1
    let d3 := if 0 < dec.2.1 then
        ((((d2.count (hudBase + 0x54) dec.2.1).event (hudBase + 8) 4).hudEvent p 5 g dec.2.1 n).report 0x0D 1 2 p
          (g + 256 * stick 0xFFFFFF dec.2.1))
      else d2
    if gReport r = 0xFF then d3 else d3.reportAll (gReport r) g r n b.2
  | _, _ => d

/-- R317: the result deadline scan, under the record that the closed snapshot opened with, of the oldest close of group g that waits for one. -/
def Dev.resultDeadline (d : Dev) (g : Nat) : Dev :=
  let x := d.grpAt g
  match x.deadlines, d.groupRec g with
  | m :: rest, some k =>
    let r := x.recOf m (Tab.get [] d.flow.tpl k)
    let d1 := d.grpSet g { x with deadlines := rest }
    if m < gReslag r then d1
    else
      let n := m - gReslag r
      let late := (d.warmIn (gEfirst r) (gNent r)).filter (fun e =>
        let a := (n % 65536 + 65536 - bits (d.entState e) 63 48) % 65536
        decide (1 ≤ a) && decide (a ≤ 32767))
      let d2 := d1.makeStaleList 1 late
      if late = [] then d2 else (d2.event (hudBase + 8) 1).hudEvent (gPtn r) 2 g late.length n
  | _ :: rest, none => d.grpSet g { x with deadlines := rest }
  | _, _ => d

/-- R318: the warm entities of partition p's groups, of those in a list. -/
def Dev.staleGroups (d : Dev) (p : Nat) : List Nat → Dev
  | [] => d
  | g :: gs =>
    (match d.groupRec g with
    | some k =>
      let r := Tab.get [] d.flow.tpl k
      if gPtn r = p then d.makeStaleList 2 (d.warmIn (gEfirst r) (gNent r)) else d
    | none => d).staleGroups p gs

/-- R318: firmware reports a partition lost or re-mapped: its groups' WARM entities turn stale with CAUSE 2. -/
def Dev.partitionStale (d : Dev) (p : Nat) : Dev :=
  ({ d with ptn := { d.ptn with staleReports := d.ptn.staleReports.filter (fun q => decide (q ≠ p)) } }).staleGroups p (upTo 64)

/-- R312: a reset of the partition releases every buffer of its groups. -/
def Dev.releaseBuffers (d : Dev) (p : Nat) : Dev :=
  { d with flow := { d.flow with grp := Tab.mapAll ({} : HudGrp) d.flow.grp (fun g x =>
      match d.groupRec g with
      | some k => if gPtn (Tab.get [] d.flow.tpl k) = p then { x with held := [] } else x
      | none => x) } }

end Sys2Proof
end

