-- ==== Sys2Proof/Machine/Loader.lean ====
section
/-! DEFINITION. The content checks of the bundle loader (R142 to R145 and the content chapters) and the fabric image's reading
into an ensemble record (R254, R255, R263, R274, R275). -/

namespace Sys2Proof

/-- Are all bytes zero? -/
def zeros (bs : List Byte) : Bool := bs.all (fun b => decide (b = 0))

/-! ### Reading the parts (R143, R144) -/

def tensorOf (bs : List Byte) : TensorEnt :=
  { code := subN bs 0 2, sect := subN bs 2 2, off := subN bs 4 4, len := subN bs 8 8, poff := subN bs 16 4, pcount := subN bs 20 4,
    cap := subN bs 24 2, g := subN bs 26 2, namehash := subN bs 28 4 }

def regionOf (bs : List Byte) : Region :=
  { kind := subN bs 0 2, rank := subN bs 2 1, lib := subN bs 3 1, slotSize := subN bs 4 4, off := subN bs 8 8, len := subN bs 16 8,
    stgq := subN bs 24 1 }

/-- The 32-byte entries of a section. -/
def entries (n : Nat) (bs : List Byte) : List (List Byte) := (upTo (bs.length / n)).map (fun i => sub bs (n * i) n)

/-! ### Parameter records (R45, R56) -/

/-- The bits of the codes of a tensor CODE 1 to 6 (R143). -/
def codeBits (code : Nat) : Nat := [1, 2, 3, 4, 6, 8].getD (code - 1) 8

/-- R45: s not negative, infinite or NaN; Z2 within the range of a b-bit code. DESIGN CHOICE (log 121): an s of −0.0 is not negative. -/
def recOk (b : Nat) (r : List Byte) : Bool :=
  (upTo 128).all (fun c =>
    let s := subN r (4 * c) 4
    !fIsNaN s && !fIsInf s && !(fNeg s && !fIsZero s) && decide (subN r (512 + 2 * c) 2 ≤ 2 * (2 ^ b - 1)))

/-- A compact record widened (R137): s exactly from BF16, Z2 with zeros. -/
def widenRec (r : List Byte) : List Byte :=
  (upTo 128).flatMap (fun c => leBytes 4 (65536 * subN r (2 * c) 2)) ++ (upTo 128).flatMap (fun c => leBytes 2 (subN r (256 + c) 1))

/-- R143: a stored side list agrees with its tensor entry. -/
def sideOk (t : TensorEnt) (bs : List Byte) : Bool :=
  if t.cap = 0 then true
  else
    let n := if t.code = 0x20 then 4 else 8
    let pay := qlPayload (t.code - 0x20) (t.len * 8 / n)
    let h := sub bs (t.off + pay) 16
    let cnt := bits (leNat h) 47 32
    let ix := (upTo cnt).map (fun k => subN bs (t.off + pay + 16 + 8 * k) 4)
    decide (bits (leNat h) 31 24 = n) && decide (bits (leNat h) 63 48 = t.cap) && decide (cnt ≤ t.cap) &&
      (ix.zip (ix.drop 1)).all (fun a => decide (a.1 < a.2)) && ix.all (fun i => decide (i < t.len * 8 / n))

/-- R143: a tensor lies in the section that holds it, and its records too; the fields its CODE does not use are 0 (log 121). -/
def tensorIn (s : Sect) (t : TensorEnt) (recLen : Nat) : Bool :=
  decide (t.off + t.len ≤ s.data.length) && (decide (t.pcount = 0) || decide (t.poff + recLen * t.pcount ≤ s.data.length))

/-- R143: every record of a tensor, in the section that holds it. -/
def tensorOk (sects : List Sect) (t : TensorEnt) : Bool :=
  match sects[t.sect]? with
  | none => false
  | some s =>
    if 1 ≤ t.code ∧ t.code ≤ 6 then
      (if bit s.flags 0 then tensorIn s t 384 && (upTo t.pcount).all (fun i => recOk (codeBits t.code) (widenRec (sub s.data (t.poff + 384 * i) 384)))
      else tensorIn s t 768 && (upTo t.pcount).all (fun i => recOk (codeBits t.code) (sub s.data (t.poff + 768 * i) 768)))
    else if t.code = 0x20 ∨ t.code = 0x21 then
      tensorIn s t 8 && decide (t.g = 16 ∨ t.g = 32 ∨ t.g = 64 ∨ t.g = 128) &&
      (upTo t.pcount).all (fun i => (parOfBytes (sub s.data (t.poff + 8 * i) 8)).ok (if t.code = 0x20 then 4 else 8)) && sideOk t s.data
    else decide (t.code = 0x10 ∨ t.code = 0x11 ∨ t.code = 0x30 ∨ t.code = 0x31) && decide (t.pcount = 0) && tensorIn s t 0

/-! ### Rule sets (R211) -/

/-- R212, R213, R229, R234, R238, R239, R241, R255: the reserved and refused values of a classification result, and the policer class
and the ensemble that are not the partition's. -/
def resultOk (e : MapEnt) (r : Nat) : Bool :=
  decide (bits r 163 160 ≤ 4) && decide (bits r 156 152 = 0) && decide (bits r 121 7 = 0) && decide (bits r 3 2 = 0) &&
  (decide (bits r 127 122 < 32) || decide (bits r 127 122 = 63)) &&
  decide (bits r 143 136 ≤ 31) && decide (bits r 135 128 ≤ 31) && decide (bits r 151 144 ≤ 63) &&
  (decide (bits r 191 176 = 0) || (decide (e.polfirst ≤ bits r 191 176) && decide (bits r 191 176 < e.polfirst + e.polcount))) &&
  decide (e.ensfirst ≤ bits r 175 170) && decide (bits r 175 170 < e.ensfirst + e.enscount)

/-- R211: may an entry of a rule set be installed for partition p? -/
def Dev.ruleOk (d : Dev) (p : Nat) (e : List Byte) : Bool :=
  let key := subN e 0 40
  let mask := subN e 40 40
  let ctl := subN e 112 8
  decide (Nat.land key mask = key) && decide (ctlProf ctl ≠ 0) && decide (bits ctl 56 48 = 0) && zeros (sub e 120 8) && resultOk (d.ent p) (subN e 80 32) &&
  decide (ctlOwner ctl = p) &&
  (maskBits 16 (ctlProf ctl)).all (fun j =>
    (upTo (d.profN j)).any (fun s =>
      decide (bits (d.profW j (s / 6)) (5 * (s % 6) + 4) (5 * (s % 6)) = 0) &&
      decide (bits mask (32 * s + 4) (32 * s) = 31) && bit (d.ent p).ports (bits key (32 * s + 4) (32 * s))))

/-! ### Fabric images (R274, R275) -/

def treeOf (b : List Byte) : Tree :=
  { oblivious := decide (subN b 0 1 = 1), depth := subN b 1 1, cls := subN b 4 1, qpos := subN b 5 1,
    nodes := (upTo (subN b 2 1)).map (fun n => subN b (8 + 8 * n) 8),
    leaves := (upTo (subN b 3 1)).map (fun n => sext 16 (subN b (512 + 2 * n) 2)) }

/-- R264: the ranges below [lo, hi] describe one full binary tree of depth at most the fuel. -/
def rangesOk (nodes : List Nat) : Nat → Nat → Nat → Bool
  | fuel, lo, hi =>
    if lo = hi then true
    else match fuel with
      | 0 => false
      | f + 1 =>
        match nodes.filter (fun n => decide (bits n 35 30 = lo) && decide (bits n 23 18 = hi)) with
        | [n] =>
          let m := bits n 29 24
          decide (lo ≤ m) && decide (m < hi) && rangesOk nodes f lo m && rangesOk nodes f (m + 1) hi
        | _ => false

/-- R263, R264: one tree record of an image with `cls` classes and `span` positions. -/
def treeOk (cls span : Nat) (b : List Byte) : Bool :=
  let t := treeOf b
  let nn := subN b 2 1
  let nl := subN b 3 1
  decide (subN b 0 1 ≤ 1) && zeros (sub b 6 2) && decide (t.cls < cls) && decide (t.qpos < span) && decide (nn ≤ 63) && decide (1 ≤ nl) &&
  decide (nl ≤ 64) && zeros (sub b (8 + 8 * nn) (504 - 8 * nn)) && zeros (sub b (512 + 2 * nl) (128 - 2 * nl)) &&
  t.nodes.all (fun n => decide (bits n 38 36 = 0) && decide (bits n 17 0 = 0)) &&
  (if t.oblivious then
    decide (1 ≤ t.depth) && decide (t.depth ≤ 6) && decide (nn = t.depth) && decide (nl = 2 ^ t.depth) && t.nodes.all (fun n => decide (bits n 35 18 = 0))
   else
    decide (t.depth ≤ 12) && decide (nl = nn + 1) &&
    (decide (nn = 0) || (decide (bits (t.nodes.headD 0) 35 30 = 0) && decide (bits (t.nodes.headD 0) 23 18 = nl - 1))) &&
    rangesOk t.nodes t.depth 0 (nl - 1))

/-- A source of operation j (R262). -/
def srcOk (j k : Nat) : Bool := (decide (64 ≤ k) && decide (k ≤ 287)) || (decide (512 ≤ k) && decide (k < 512 + j))

/-- R262: one operation, given its number, the edges and the levels of the earlier ones. -/
def frontOpOk (j o : Nat) (edges : List Nat) : Bool :=
  let op := bits o 127 124
  let e := (edges.drop (bits o 41 34)).take (bits o 33 30)
  let v := fun x => if bit o 103 then sext 16 x else (x : Int)
  decide (op ≤ 2) && srcOk j (bits o 123 114) && decide (bits o 100 96 = 0) && decide (bits o 21 16 = 0) &&
  (if op = 2 then srcOk j (bits o 113 104) && decide (bits o 29 26 ≠ 0) && decide (bits o 25 22 ≠ 0) &&
      decide (bits o 29 26 + bits o 25 22 ≤ 16) && decide (bits o 95 30 = 0)
   else decide (bits o 113 104 = 0) && decide (bits o 29 22 = 0)) &&
  (if op = 1 then decide (1 ≤ bits o 33 30) && decide (e.length = bits o 33 30) && (e.zip (e.drop 1)).all (fun a => decide (v a.1 < v a.2)) &&
      decide (bits o 95 42 = 0)
   else decide (bits o 41 30 = 0)) &&
  (if op = 0 then decide (bits o 47 42 ≤ 47) else decide (bits o 101 101 = 0))

/-- R262: the levels of the operations; the Bool says that every one is at most 3 and every operation is in order. -/
def frontOk (edges : List Nat) : Nat → List Nat → List Nat → Bool
  | _, [], _ => true
  | j, o :: os, lv =>
    let of := fun (k : Nat) => if 512 ≤ k then lv.getD (k - 512) 0 + 1 else 0
    let l := max (of (bits o 123 114)) (if bits o 127 124 = 2 then of (bits o 113 104) else 0)
    frontOpOk j o edges && decide (l ≤ 3) && frontOk edges (j + 1) os (lv ++ [l])

/-- R260: a window entry. -/
def winOk (w : Nat) : Bool := decide (bits w 13 10 = 0) && (decide (bits w 9 0 ≤ 287) || decide (512 ≤ bits w 9 0))

/-- The parts of a fabric image: windows, front stage, edges and trees, each from the next multiple of 64 (R274). -/
def fabOps (b : List Byte) : Nat := 128 + 1024 * subN b 10 1
def fabEdges (b : List Byte) : Nat := roundUp (fabOps b + 16 * subN b 14 2) 64
def fabTrees (b : List Byte) : Nat := roundUp (fabEdges b + 2 * subN b 16 2) 64

/-- R274: the record of a fabric image, without its copies. -/
def ensOf (b : List Byte) : EnsRec :=
  { inUse := true, ens := subN b 5 1, classes := subN b 8 1, link := subN b 9 1, span := subN b 10 1, lsh := subN b 12 1,
    osh := sext 8 (subN b 13 1), sqlim := subN b 20 4,
    base := (upTo 16).map (fun k => sext 32 (subN b (64 + 4 * k) 4)),
    windows := (upTo (subN b 10 1)).map (fun p => (upTo 256).map (fun i => subN b (128 + 1024 * p + 4 * i) 4)),
    fsprog := (upTo (subN b 14 2)).map (fun j => subN b (fabOps b + 16 * j) 16),
    edges := (upTo (subN b 16 2)).map (fun j => subN b (fabEdges b + 2 * j) 2),
    trees := (upTo (subN b 6 2)).map (fun j => treeOf (sub b (fabTrees b + 640 * j) 640)) }

/-- R275, R262, R264: the loader's checks of a fabric image. -/
def fabricOk (b : List Byte) (dest : Nat) : Bool :=
  let r := ensOf b
  let nt := subN b 6 2
  let osh := sext 8 (subN b 13 1)
  decide (sub b 0 4 = [0x54, 0x52, 0x45, 0x46]) && decide (subN b 4 1 = 1) && decide (r.ens = dest) && decide (1 ≤ nt) && decide (nt ≤ 8192) &&
  decide (1 ≤ r.classes) && decide (r.classes ≤ 16) && decide (r.link ≤ 4) && decide (r.span = 1 ∨ r.span = 2 ∨ r.span = 4) &&
  decide (1 ≤ subN b 11 1) && decide (r.span * subN b 11 1 ≤ 4) && decide (r.lsh ≤ 24) && decide (-32 ≤ osh) && decide (osh ≤ 31) &&
  decide (subN b 14 2 ≤ 512) && decide (subN b 16 2 ≤ 256) && decide (subN b 18 2 = 0) && decide (16 ≤ r.sqlim) && decide (r.sqlim ≤ 65536) &&
  zeros (sub b 24 40) &&
  (if r.link = 0 ∨ r.link = 1 ∨ r.link = 3 then decide (r.classes = 1) else decide (2 ≤ r.classes)) &&
  (decide (osh = 0) || !decide (r.link = 1 ∨ r.link = 2)) &&
  r.base.all (fun x => decide (x.natAbs ≤ 2 ^ 30)) && zeros (sub b (64 + 4 * r.classes) (64 - 4 * r.classes)) &&
  r.windows.all (fun w => w.all winOk) && frontOk r.edges 0 r.fsprog [] &&
  (upTo nt).all (fun j => treeOk r.classes r.span (sub b (fabTrees b + 640 * j) 640)) &&
  (upTo r.span).all (fun p => decide ((r.trees.filter (fun t => decide (t.qpos = p))).length ≤ 2048)) &&
  decide (b.length = fabTrees b + 640 * nt)

/-! ### Placing an ensemble (R254, R255, R276) -/

/-- The slots a record's copies hold in quadrant q, as (first, count). -/
def EnsRec.inQuad (r : EnsRec) (q : Nat) : List (Nat × Nat) :=
  r.copies.flatMap (fun c => ((upTo c.quads.length).filter (fun p => decide (c.quads.getD p 9 = q))).map (fun p =>
    (c.first.getD p 0, (r.trees.filter (fun t => decide (t.qpos = p))).length)))

/-- The slots in use in quadrant q, and those of one partition's records there. -/
def Dev.quadUsed (d : Dev) (q : Nat) : List (Nat × Nat) := d.flow.recs.flatMap (fun kv => if kv.2.inUse then kv.2.inQuad q else [])

def Dev.quotaUsed (d : Dev) (p q : Nat) : Nat :=
  ((d.flow.recs.flatMap (fun kv => if kv.2.inUse && decide (ctlOwner kv.2.ctl = p) then kv.2.inQuad q else [])).map (fun a => a.2)).foldl (· + ·) 0

/-- The lowest first slot at which n slots are free beside the ranges `us`. -/
def firstFit (us : List (Nat × Nat)) (n : Nat) : Option Nat :=
  ((0 :: us.map (fun a => a.1 + a.2)).filter (fun f =>
    decide (f + n ≤ 2048) && us.all (fun a => decide (f + n ≤ a.1) || decide (a.1 + a.2 ≤ f)))).foldl
      (fun m f => match m with | some x => some (min x f) | none => some f) none

/-- Copy k of a record when its positions, and those of the copies before it, go into the quadrants `qs` in that order. Firmware's own
ensembles (owner 32) have no quota (R255). -/
def Dev.placeCopy (d : Dev) (ptn : Nat) (r : EnsRec) (qs0 : List Nat) (k : Nat) : Option EnsCopy :=
  let qs := qs0.drop (k * r.span)
  let put := (upTo r.span).map (fun p =>
    let n := (r.trees.filter (fun t => decide (t.qpos = p))).length
    match qs[p]? with
    | some q =>
      if ptn = 32 ∨ d.quotaUsed ptn q + n ≤ (d.ent ptn).trquota.getD q 0 then (firstFit (d.quadUsed q) n).map (fun f => (q, f)) else none
    | none => none)
  if put.all Option.isSome then
    some { quads := put.map (fun x => (x.getD (0, 0)).1), first := put.map (fun x => (x.getD (0, 0)).2) }
  else none

/-- The ways to put x into a list. -/
def insertAll (x : Nat) : List Nat → List (List Nat)
  | [] => [[x]]
  | y :: ys => (x :: y :: ys) :: (insertAll x ys).map (fun l => y :: l)

/-- The orders of a list. -/
def ordersOf : List Nat → List (List Nat)
  | [] => [[]]
  | x :: xs => (ordersOf xs).flatMap (insertAll x)

/-- R275: all copies of a record, in the first order of the quadrants in service under which they fit (log 45). -/
def Dev.placeCopies (d : Dev) (ptn copies : Nat) (r : EnsRec) : Option (List EnsCopy) :=
  ((ordersOf (maskBits 4 d.flow.qInSvc)).map (fun qs => (upTo copies).map (d.placeCopy ptn r qs))).find? (fun cs => cs.all Option.isSome) |>.map
    (fun cs => cs.filterMap id)

/-- R276: place an image of partition p (32: firmware's own) with its copies in a free record store, staged for version n; the record that
serves the ensemble number ends at the current version. None where there is no room (R275). -/
def Dev.placeEns (d : Dev) (p n : Nat) (b : List Byte) : Option Dev :=
  let r0 := { ensOf b with ctl := setBit (2 ^ 57 * p + n) 63 }
  match (upTo 128).find? (fun i => !(d.recAt i).inUse), d.placeCopies p (subN b 11 1) r0 with
  | some i, some cs =>
    let olds := d.flow.recs.filter (fun kv => kv.2.inUse && ctlValid kv.2.ctl && decide (kv.2.ens = r0.ens) && decide (ctlVmax kv.2.ctl = 0))
    let d1 := d.stageAll n d.vcur (olds.map (fun kv => VObj.endEns kv.1))
    some (d1.recSet i { r0 with copies := cs })
  | _, _ => none

/-- R222, R255: the staged writes of firmware, its own ensembles among them; an image it would not accept of a bundle it does not stage. -/
def Dev.stageFw (d : Dev) (n cur : Nat) : List VObj → Dev
  | [] => d
  | .ens b :: os => (if fabricOk b (subN b 5 1) then (d.placeEns 32 n b).getD d else d).stageFw n cur os
  | o :: os => (d.stageObj n cur o).stageFw n cur os

/-- R222, R228: a write of CLS_VCOMMIT, after the staged writes firmware has made for it. A host write is ignored with
cause 4. -/
def Dev.versionCommit (d : Dev) (who : Req) (v : Nat) (objs : List VObj) : Dev :=
  match who with
  | .fw _ => ((d.stageFw (vsucc d.vcur) d.vcur objs).commit v).1
  | .pf => d.accErr none (clsBase + 0x0C) 15 true 4
  | .vf n => d.accErr (some n) (clsBase + 0x0C) 15 true 3
  | .debug => d

/-! ### Templates (R298, R301, R302) -/

/-- Nominal period times RATE: ceil(WAIT ÷ P) = ceil(WAIT × RATE ÷ 1,000,000). -/
def waitPeriods (r : List Byte) : Nat := (gWait r * gRate r + 999999) / 1000000

/-- Does a range of partition p's share lie inside its placement regions of kind 4? -/
def inKind (rs : List Region) (k off len : Nat) : Bool :=
  rs.any (fun r => decide (r.kind = k) && decide (r.off ≤ off) && decide (off + len ≤ r.off + r.len))

/-- Presence bits of a group (R298). -/
def presence (r : List Byte) : Nat := (2 + waitPeriods r + gHoldn r) * gNent r * gVpe r

/-- Bytes of one result slot: a QL transfer of NENT × NFEAT elements with its side list (chapter 12), rounded to 64. -/
def resSlotLen (r : List Byte) : Nat := qlSize (gRcode r % 2) (gNent r * gNfeat r) (gRcap r)

/-- R298: the refusal conditions of a group record. -/
def Dev.groupOk (d : Dev) (p : Nat) (rs : List Region) (r : List Byte) : Bool :=
  let e := d.erange p
  let others := (d.flow.tpl.map (fun kv => kv.2)).filter (fun t => bit (tplCtl t) 63 && decide (fld t 8 1 = 1) && decide (fld t 9 1 ≠ fld r 9 1))
  decide (r.length = 128) && decide (gPtn r = p) && decide ((d.ent p).grpfirst ≤ fld r 9 1) && decide (fld r 9 1 < (d.ent p).grpfirst + (d.ent p).grpcount) &&
  decide (fld r 11 1 < 8) && decide (10 ≤ gRate r) && decide (gRate r ≤ 200) && decide (1 ≤ gVpe r) && decide (gVpe r ≤ 16) &&
  decide (2 ≤ gNbuf r) && decide (gNbuf r ≤ 16) && decide (1 ≤ gNent r) && decide (gEfirst r + gNent r ≤ 262144) && decide (gArea r % 64 = 0) &&
  decide (100 ≤ gWait r) && decide (gWait r * gRate r ≤ 3000000) && decide (gHoldn r ≤ 4) && decide (1 ≤ gReslag r) && decide (gReslag r ≤ 8) &&
  decide (gPq r < 64) && decide ((d.pqAt (gPq r)).owner = p) && decide (gLevel r ≤ 7) && decide (gTol r ≤ 2000000) && decide (gTol r * gRate r < 500000000) && decide (gLateCap r ≤ 4096) &&
  decide (1 ≤ gNres r) && decide (gNres r ≤ 16) && decide (1 ≤ gNfeat r) && decide (gFbase r + gNfeat r ≤ 64) && decide (bits (gFfmt r) 6 4 = 0) &&
  decide (gRcode r < 8) && (decide (gReport r < 64) || decide (gReport r = 0xFF)) && decide (gRcap r ≤ 4096) && zeros (sub r 58 6) &&
  decide (gResArea r % 64 = 0) && decide (gRpar r % 8 = 0) && zeros (sub r 80 48) &&
  decide (e.1 ≤ gEfirst r) && decide (gEfirst r + gNent r ≤ e.1 + e.2) &&
  others.all (fun t => decide (gEfirst r + gNent r ≤ gEfirst t) || decide (gEfirst t + gNent t ≤ gEfirst r)) &&
  inKind rs 4 (gArea r) (gBufLen r * gNbuf r) && inKind rs 4 (gResArea r) (resSlotLen r * gNres r) &&
  decide (2 + waitPeriods r ≤ gNbuf r) &&
  decide (((others.map presence).foldl (· + ·) 0) + presence r ≤ 16777216)

/-- R301, R302: the field ranges of a stream template. -/
def streamOk (t : List Byte) : Bool :=
  decide (fld t 9 1 ≤ 3) && decide (fld t 10 1 < 64) && decide (fld t 11 1 < 4) && decide (1 ≤ fld t 12 1) && decide (fld t 12 1 ≤ 5) &&
  decide (1 ≤ fld t 13 1) && decide (fld t 13 1 ≤ 16) && decide (1 ≤ fld t 18 2) && decide (fld t 18 2 ≤ 2048) && zeros (sub t 30 34) &&
  (if fld t 9 1 = 1 then decide (1 ≤ fld t 24 4) && decide (fld t 24 4 ≤ 16777215)
   else if fld t 9 1 = 2 then decide (1 ≤ fld t 24 4) && decide (fld t 24 4 ≤ 65535) else decide (fld t 24 4 = 0)) &&
  decide (t.length = 64 + 32 * fld t 18 2) &&
  (tplFields t).all (fun f => decide (fld f 2 1 ≤ 4) && decide (fld f 3 1 < 8) && zeros (sub f 22 2))

/-- R302: the targets of a stream template against its group's record: inside its entity range and channels, no two fields with one
target, SCALE and OFFSET finite. Repetitions carry their own time tag, so they meet the same targets in other snapshots (log 65). -/
def targetsOk (r t : List Byte) : Bool :=
  let fs := tplFields t
  let ts := fs.map (fun f => fld f 4 4)
  ts.all (fun x => decide (bits x 23 18 = 0) && decide (bits x 31 28 = 0) && decide (gEfirst r ≤ bits x 17 0) &&
    decide (bits x 17 0 < gEfirst r + gNent r) && decide (bits x 27 24 < gVpe r)) &&
  decide (ts.eraseDups.length = ts.length) &&
  fs.all (fun f => decide (bits (fld f 8 4) 30 23 ≠ 255) && decide (bits (fld f 12 4) 30 23 ≠ 255))

/-- The record of group g that a template of partition p counts with: one of the records it comes with, or one in service. -/
def Dev.groupFor (d : Dev) (p g : Nat) (new : List (List Byte)) : Option (List Byte) :=
  (new ++ (match d.groupRec g with
    | some k => [Tab.get [] d.flow.tpl k]
    | none => [])).find? (fun r => decide (fld r 8 1 = 1) && decide (fld r 9 1 = g) && decide (gPtn r = p))

/-- The loader's check of a TEMPLATE section; `new` are the records of its bundle. A stream template whose group is not known has no
range its targets lie in (log 65). -/
def Dev.templateOk (d : Dev) (p : Nat) (rs : List Region) (new : List (List Byte)) (t : List Byte) : Bool :=
  decide (ctlOwner (tplCtl t) = p) &&
  (if fld t 8 1 = 1 then d.groupOk p rs t
   else decide (fld t 8 1 = 2) && streamOk t && (match d.groupFor p (fld t 10 1) new with
     | some r => targetsOk r t
     | none => false))

end Sys2Proof
end

