-- ==== Sys2Proof/Machine/Memory.lean ====
section
/-! DEFINITION. The model memories (chapter 5): the catalogue, expert paging, scrubs, mirrors, re-staging, and the install of
a bundle. -/

namespace Sys2Proof

/-! ### Gangs and bundles (R127, R139, R327) -/

/-- The partitions of p's gang, ascending (R327). -/
def Dev.gangOf (d : Dev) (p : Nat) : List Nat :=
  (upTo 32).filter (fun q => (d.ent q).valid && decide ((d.ent q).gang = (d.ent p).gang))

/-- The cores of p's gang by rank: ascending partition, then the partition's own order (R327). -/
def Dev.gangCores (d : Dev) (p : Nat) : List Nat := (d.gangOf p).flatMap (fun q => (d.ptnAt q).order)

/-- The core of gang rank r (R142). -/
def Dev.gangCore (d : Dev) (p r : Nat) : Option Nat :=
  match (d.gangCores p)[r]? with
  | some c => if c < 32 then some c else none
  | none => none

/-- R430: the HBM key of partition p's gang; none can be derived once the device secret is gone (R440). -/
def Dev.hbmKey (d : Dev) (p : Nat) : Option XtsKey :=
  let g := (d.ent p).gang
  if (d.ent p).valid && !d.sec.udsGone then
    some { gang := g, kgen := Tab.get 0 d.sec.kgen g, lgen := d.sec.lgen, boot := d.sec.boots }
  else none

/-- R431: the security engine loads the keys of the partitions of a list into their encryption units. -/
def Dev.loadKeys (d : Dev) : List Nat → Dev
  | [] => d
  | p :: ps => ({ d with mem := { d.mem with ukey := Tab.set none d.mem.ukey p (d.hbmKey p) } }).loadKeys ps

/-- The model-store key a bundle's extents are stored under (R430): the fields of the HBM key but for the BOOTNONCE. -/
def Bundle.msKey (b : Bundle) : Option XtsKey := some { gang := b.gang, kgen := b.kgen, lgen := b.lgen, boot := 0 }

/-- R138, R449: a bundle as the units of its partition read its extents: its sections in plain under the key they are stored under, else
what another key makes of them (log 111). -/
def Dev.plainOf (d : Dev) (b : Bundle) : Bundle :=
  let k := (d.unitKey b.ptn).map (fun (k : XtsKey) => { k with boot := 0 })
  if k = b.msKey then b
  else { b with sects := b.sects.map (fun (s : Sect) => { s with data := (upTo s.data.length).map (fun i =>
      Config.xtsOther [(s.data.getD i 0).toNat, i % 4096, i / 4096, b.inst, s.id] (XtsKey.store b.msKey) (XtsKey.store k)) }) }

/-- The installed bundles addressed to partition p. -/
def Dev.bundlesOf (d : Dev) (p : Nat) : List Bundle :=
  (d.store.bundles.filter (fun b => decide (b.ptn = p) && !b.old && !b.idle)).map d.plainOf

/-- The placement regions of p's bundles. -/
def Dev.regionsOf (d : Dev) (p : Nat) : List Region := (d.bundlesOf p).flatMap (fun b => b.regions)

/-- The image of gang rank r, declared by a bundle of the gang (R144). -/
def Dev.imageOf (d : Dev) (g r : Nat) : Option Region :=
  (d.regionsOf g).find? (fun x => decide (x.kind = 1) && decide (x.rank = r))

/-- The DEST of the PROGRAM section with the lowest ID given to gang rank r: the restart address (R332). -/
def Dev.restartAddr (d : Dev) (g r : Nat) : Option Nat :=
  let ss := ((d.bundlesOf g).flatMap (fun b => b.sects)).filter (fun s => decide (s.typ = 0x10) && decide (s.dest / 2 ^ 56 = r))
  (ss.foldl (fun (m : Option Sect) s => match m with | some x => some (if s.id < x.id then s else x) | none => some s) none).map (fun s => s.dest % 2 ^ 25)

/-- The model-store bytes a bundle holds: 4,096-byte units, and 524,288-byte units for library data (R145, log 40). -/
def Bundle.bytes (b : Bundle) : Nat :=
  (b.sects.map (fun s => roundUp s.data.length (if s.typ = 0x14 then 524288 else 4096))).foldl (· + ·) 0

/-- User capacity of the model store in bytes. -/
def storeSize : Nat := 19999999655936

/-- R125, R149: MEM_WEAR in 0.1 % of the rating of 1,000 writes of the capacity, sticking at 1,023 (log 123). -/
def Store.wear (s : Store) : Nat := stick 1023 (s.written / storeSize)

/-- R125: the sections of a bundle are written; WEARWARN fires when the wear reaches 90 % of the rating. -/
def Dev.storeWrite (d : Dev) (n : Nat) : Dev :=
  let d1 := { d with store := { d.store with written := d.store.written + n } }
  if d.store.wear < 900 ∧ 900 ≤ d1.store.wear then d1.event (memReg 0x10) 3 else d1

/-- MEM_MSFREE follows the catalogue (R149). -/
def Dev.msRefresh (d : Dev) : Dev :=
  d.wr64 (memReg 0x28) (storeSize - (d.store.bundles.map Bundle.bytes).foldl (· + ·) 0)

/-- MEM_STAGE(p) follows the placement of p's bundles (R149). -/
def Dev.stageRefresh (d : Dev) : List Nat → Dev
  | [] => d
  | p :: ps =>
    (match (d.regionsOf p).find? (fun (r : Region) => decide (r.kind = 2)) with
     | some r => d.wrN (memReg 0x104 + 0x20 * p) (2 ^ 24 * (r.stgq % 64) + 2 ^ 23)
     | none => d.wrN (memReg 0x104 + 0x20 * p) 0).stageRefresh ps

/-- Replaced bundles go once no staging request reads them (R136), and the registers follow. -/
def Dev.catalogue (d : Dev) : Dev :=
  ({ d with store := { d.store with bundles := d.store.bundles.filter (fun b =>
      !b.old || d.store.stg.any (fun r => decide (r.inst = b.inst))) } }.msRefresh).stageRefresh (upTo 32)

/-! ### Expert paging (R132 to R136) -/

/-- The library of partition p: the bundle that holds its directory, and the directory (R145). -/
def Dev.libOf (d : Dev) (p lib : Nat) : Option (Bundle × List Byte) :=
  match (d.bundlesOf p).find? (fun b => b.sects.any (fun s => decide (s.typ = 0x13) && decide (s.dest = lib))) with
  | some b => (b.sects.find? (fun s => decide (s.typ = 0x13) && decide (s.dest = lib))).map (fun s => (b, s.data))
  | none => none

/-- The LIB_DATA section that holds an offset of a library (R142). -/
def Bundle.libSect (b : Bundle) (lib off : Nat) : Option Sect :=
  b.sects.find? (fun s => decide (s.typ = 0x14) && decide (s.dest / 2 ^ 62 = lib) && decide (s.dest % 2 ^ 62 ≤ off) &&
    decide (off < s.dest % 2 ^ 62 + s.data.length))

/-- Bytes of a library, through the LIB_DATA sections that hold them; at most `fuel` runs. What no section writes is a free value. -/
def Bundle.libRead (b : Bundle) (lib : Nat) : Nat → Nat → Nat → List Byte
  | 0, off, len => (upTo len).map (fun i => Config.storeGap b.inst lib (off + i))
  | fuel + 1, off, len =>
    match b.libSect lib off with
    | some s =>
      let run := sub s.data (off - s.dest % 2 ^ 62) len
      if run.length < len then run ++ b.libRead lib fuel (off + run.length) (len - run.length) else run
    | none =>
      let next := (b.sects.filter (fun s => decide (s.typ = 0x14) && decide (s.dest / 2 ^ 62 = lib) && decide (off < s.dest % 2 ^ 62))).foldl
        (fun (m : Nat) s => min m (s.dest % 2 ^ 62)) (off + len)
      (upTo (next - off)).map (fun i => Config.storeGap b.inst lib (off + i)) ++ (if next < off + len then b.libRead lib fuel next (off + len - next) else [])

/-- The bits of the codes of the expert at a library offset, from the tensor entry that covers it; 8 where none does (log 41). -/
def Bundle.libBits (b : Bundle) (lib off : Nat) : Nat :=
  let hit := b.tensors.find? (fun t => match b.sects[t.sect]? with
    | some s => decide (s.typ = 0x14) && decide (s.dest / 2 ^ 62 = lib) && decide (s.dest % 2 ^ 62 + t.off ≤ off) &&
        decide (off < s.dest % 2 ^ 62 + t.off + t.len)
    | none => false)
  match hit with
  | some t => codeBits t.code
  | none => 8

/-- R132, R133: the checks of a request and the bytes it writes. -/
def Dev.stgPlan (d : Dev) (p : Nat) (e : List Byte) : StgReq :=
  let r : StgReq := { ptn := p, expert := subN e 0 4, slot := subN e 4 2, lib := subN e 6 1, reply := subN e 7 1, tag := subN e 8 8 }
  match d.libOf p r.lib, (d.regionsOf p).find? (fun x => decide (x.kind = 2) && decide (x.lib = r.lib)) with
  | some (b, dir), some c =>
    let x := sub dir (32 * r.expert) 32
    let dst := c.off + r.slot * c.slotSize
    let r1 := { r with inst := b.inst, dst := dst, slotSize := c.slotSize }
    if x.length < 32 ∨ bit (subN x 16 4) 0 = false then { r1 with status := 1 }
    else if c.len < (r.slot + 1) * c.slotSize then { r1 with status := 2 }
    else
      let o := subN x 0 8
      let body := subN x 8 4
      let tiles := subN x 12 4
      let cmp := bit (subN x 16 4) 1
      let rl := body + tiles * (if cmp then 384 else 768)
      if c.slotSize < body + 768 * tiles then { r1 with status := 3 }
      else
        let raw := b.libRead r.lib (2 * b.sects.length) o rl
        let recs := (upTo tiles).map (fun i => if cmp then widenRec (sub raw (body + 384 * i) 384) else sub raw (body + 768 * i) 768)
        let bad := !recs.all (recOk (b.libBits r.lib o))
        let lost := (upTo (rl / 65536 + 2)).any (fun u => decide (65536 * (o / 65536 + u) < o + rl) && decide (Tab.get 0 d.ptn.ms ((o / 65536 + u) % 8) = 2))
        { r1 with status := if lost then 4 else if bad then 5 else 0, readLen := rl, libOff := o, data := raw.take body ++ recs.flatten }
  | _, _ => { r with status := 1 }

/-- R134: start a popped request, or hold it while its slot is in progress. -/
def Dev.stgStart (d : Dev) (r : StgReq) : Dev :=
  let s := d.store
  if s.stg.any (fun x => decide (x.ptn = r.ptn) && decide (x.lib = r.lib) && decide (x.slot = r.slot)) then
    { d with store := { s with stgHeld := Tab.set none s.stgHeld r.ptn (some r) } }
  else { d with store := { s with stg := s.stg ++ [r], stgHeld := Tab.set none s.stgHeld r.ptn none } }

/-- R134: may the engine take another request of partition p? -/
def Dev.stgRoom (d : Dev) (p : Nat) : Bool :=
  decide ((d.store.stg.filter (fun x => decide (x.ptn = p))).length < 4) && decide (d.store.stg.length < 32)

/-- The staging queue of partition p, when a cache is declared and the queue belongs to p (R132). -/
def Dev.stgQueue (d : Dev) (p : Nat) : Option Nat :=
  let v := d.rdN (memReg 0x104 + 0x20 * p)
  let n := bits v 29 24
  if bit v 23 && (d.pqAt n).en && decide ((d.pqAt n).owner = p) then some n else none

/-- R132, R134, R162: the engine pops a request of partition p and starts it, or waits at the empty queue. -/
def Dev.stagingPop (d : Dev) (p : Nat) : Dev :=
  if d.stgRoom p then
    match Tab.get none d.store.stgHeld p with
    | some r => d.stgStart (d.stgPlan p (leBytes 4 r.expert ++ leBytes 2 r.slot ++ leBytes 1 r.lib ++ leBytes 1 r.reply ++ leBytes 8 r.tag))
    | none =>
      match d.stgQueue p with
      | none => d
      | some n =>
        let q := { d.pqAt n with popPtr := 66 }
        match q.waiters, q.pop with
        | [], some (e, q') => (d.pqSet n q').stgStart (d.stgPlan p e.data)
        | ws, _ => if ws.any (fun w => decide (w = 65)) then d else d.pqSet n { q with waiters := ws ++ [65] }
  else d

/-- R162: in the NCLK after an entry lands, the oldest waiter of a queue pops it: a core's WAITQ, or the staging engine while it may take
another request of the partition (R134). -/
def Dev.waiterServe (d : Dev) (n : Nat) : Dev :=
  let q := d.pqAt n
  match q.waiters with
  | 65 :: ws =>
    (match d.stgRoom q.owner, q.pop with
     | true, some (e, q') => (d.pqSet n { q' with waiters := ws, popPtr := 66 }).stgStart (d.stgPlan q.owner e.data)
     | _, _ => d)
  | _ => d.waiterPop n

/-- R162: the waiters that stand before a pop are served one after another. -/
def Dev.waitersServe (d : Dev) (n : Nat) : Nat → Dev
  | 0 => d
  | k + 1 => if (d.pqAt n).waiters = [] ∨ (d.pqAt n).ents = [] then d else (d.waiterServe n).waitersServe n k

/-- R162, R170: a read of PQ_POPCTL, behind every waiter that stands before it. -/
def Dev.pqPop (d : Dev) (who : Req) (n : Nat) : Dev :=
  if d.pqMayPop who n then (d.waitersServe n 33).pqPopCtl who n else d.pqPopCtl who n

/-- The 32-byte reply (R133). -/
def stgReplyBytes (r : StgReq) (status bytes : Nat) : List Byte :=
  leBytes 8 r.tag ++ leBytes 4 r.expert ++ leBytes 2 r.slot ++ leBytes 1 status ++ leBytes 1 0 ++ leBytes 8 bytes ++ leBytes 8 0

/-- R145: the model-store stack of the line of a request's reads that an error met: the stripe unit of the library that holds it. -/
def StgReq.stackOf (r : StgReq) (e : Ecc) : Nat :=
  let line := match e with | .uncData n => n | _ => 0
  (r.libOff + 64 * line) / 65536 % 8

/-- R133: the i-th request in progress finishes; `err` is what its model-store reads met, `lost` that the share's stack failed. A corrected
error is counted on the stack of the first unit read (log 122). -/
def Dev.stagingReply (d : Dev) (i : Nat) (err : Ecc) (lost : Bool) : Dev :=
  match d.store.stg[i]? with
  | none => d
  | some r =>
    let st := if lost then 6 else if r.status = 0 ∨ r.status = 5 then (if err.unc then 4 else r.status) else r.status
    let n := if st = 0 then r.data.length else 0
    let d0 := { d with store := { d.store with stg := d.store.stg.eraseIdx i } }
    let d1 := if r.readLen = 0 then d0 else (d0.msEcc (r.stackOf err) r.ptn err).count64 (memReg 0x108 + 0x20 * r.ptn) (if st = 0 then r.readLen else 0)
    let d2 :=
      if st = 0 then (d1.shWrite r.ptn r.dst r.data).count (memReg 0x110 + 0x20 * r.ptn) 1
      else
        let f := if st = 2 ∨ r.slotSize = 0 ∨ d1.inShare r.ptn r.dst r.slotSize = false then ([], d1) else d1.freeBytes r.slotSize
        ((f.2.shWrite r.ptn r.dst f.1).count (memReg 0x114 + 0x20 * r.ptn) 1).event (memReg 0x10) 0
    let q := r.reply % 64
    let d3 :=
      if bit r.reply 7 then
        (if (d2.pqAt q).en && decide ((d2.pqAt q).owner = r.ptn) then (d2.pqPush q 65 { level := 7, data := stgReplyBytes r st n }).1
         else d2.count (memReg 0x114 + 0x20 * r.ptn) 1)
      else d2
    let d4 := if bit r.reply 6 then
        d3.catPut { value := r.tag, source := 34, partition := r.ptn, kind := 4, err := decide (st ≠ 0), code := st } else d3
    d4.catalogue

/-! ### Extents, scrubs and mirrors (R128, R129) -/

/-- Zero `len` granules from granule `base` of a stack: scrubbed space is stored under no key (R138). -/
def Dev.zeroGr (d : Dev) (stack base len : Nat) : Dev :=
  let g := stack * 192 + base
  let out : Nat → Nat → Bool := fun unit k => !(decide (g * granule ≤ k * unit) && decide (k * unit < (g + len) * granule))
  { d with mem := { d.mem with
      hbm := Tab.keep d.mem.hbm (fun k _ => out 1 k), gkey := Tab.keep d.mem.gkey (fun k _ => out granule k), lkey := Tab.keep d.mem.lkey (fun k _ => out 64 k) } }

/-- Granules that a share has taken stand under its owner's key from then on, zero as the scrub left them (R129, R138, log 111). -/
def Mem.join (m : Mem) (k : Option XtsKey) (stack base len : Nat) : Mem :=
  { m with gkey := (upTo len).foldl (fun (t : Tab (Option XtsKey)) i => Tab.set none t (192 * stack + base + i) k) m.gkey }

/-- The extents of p's share stand under the key of p's units. -/
def Dev.joinShare (d : Dev) (p : Nat) : Dev :=
  let e := d.ent p
  let m := d.mem.join (d.unitKey p) e.pstack e.pbase e.len
  { d with mem := if e.prot then m.join (d.unitKey p) e.mstack e.mbase e.len else m }

def Dev.joinShares (d : Dev) : List Nat → Dev
  | [] => d
  | p :: ps => (d.joinShare p).joinShares ps

/-- A partition's share zeroed, both extents (R129, scrub in place). -/
def Dev.scrubShare (d : Dev) (p : Nat) : Dev :=
  let e := d.ent p
  let d1 := d.zeroGr e.pstack e.pbase e.len
  if e.prot then d1.zeroGr e.mstack e.mbase e.len else d1

def Dev.entSet (d : Dev) (p : Nat) (e : MapEnt) : Dev := d.ptnSet p { d.ptnAt p with ent := e }

/-- Granule numbers of an extent. -/
def extent (stack base len : Nat) : List Nat := (upTo len).map (fun i => 192 * stack + base + i)

/-- A run of `len` free granules on a stack, lowest first. -/
def Dev.freeRun (d : Dev) (stack len : Nat) : Option Nat :=
  (upTo 192).find? (fun b => decide (b + len ≤ 192) && (extent stack b len).all (fun g => d.ptn.freeGr.contains g))

/-- R129: granules leave every share: on a stack in service they are scrubbed, and are free when the scrub ends. -/
def Dev.extentLeaves (d : Dev) (stack base len : Nat) : Dev :=
  if 0 < len ∧ Tab.get 0 d.ptn.hbm stack ≤ 1 then
    { d with store := { d.store with scrubs := d.store.scrubs ++ [{ stack := stack, base := base, len := len }] } }
  else d

/-- MEM_SHARE(p) (R149): PROT says that a mirror extent exists. -/
def MapEnt.shareReg (e : MapEnt) (mirrored : Bool) : Nat :=
  let m := e.prot && mirrored
  if e.valid && decide (0 < e.len) then
    2 ^ 31 + 2 ^ 28 * e.pstack + 2 ^ 20 * e.pbase + 2 ^ 12 * e.len + 2 ^ 11 * b2n m + (if m then 256 * e.mstack + e.mbase else 0)
  else 0

def Dev.shareRegs (d : Dev) : List Nat → Dev
  | [] => d
  | p :: ps => (d.wrN (memReg 0x100 + 0x20 * p) ((d.ent p).shareReg (d.ptnAt p).mirrored)).shareRegs ps

/-- The near die of a stack (the stacks table of chapter 5). -/
def nearDie (stack : Nat) : Nat := stack / 2

/-- R128, R336: firmware finishes a new mirror for a protected partition that lost one: the lowest free run on a stack in service
near another die, filled by copying the primary extent's ciphertext (R138; log 42 names the choice of the run). -/
def Mem.mirrorCopy (m : Mem) (e : MapEnt) : Mem :=
  let src := 192 * e.pstack + e.pbase
  let dst := 192 * e.mstack + e.mbase
  let lines := m.lkey.filter (fun kv => decide (src * granule ≤ 64 * kv.1) && decide (64 * kv.1 < (src + e.len) * granule))
  { m with
    hbm := Tab.copyIn 0 m.hbm (e.mirr 0) (e.len * granule) m.hbm (e.prim 0)
    gkey := (upTo e.len).foldl (fun (t : Tab (Option XtsKey)) i => Tab.set none t (dst + i) (Tab.get none m.gkey (src + i))) m.gkey
    lkey := lines.foldl (fun (t : Tab (Option XtsKey)) kv => Tab.put t (kv.1 + dst * granule / 64 - src * granule / 64) kv.2) m.lkey }

/-- R128, R336: the mirror that firmware has finished: `Mem.mirrorCopy` fills it. -/
def Dev.mirrorRebuild (d : Dev) (p : Nat) : Dev :=
  let e := d.ent p
  if e.prot && !(d.ptnAt p).mirrored && decide (0 < e.len) then
    match (upTo 8).find? (fun s => decide (nearDie s ≠ nearDie e.pstack) && decide (Tab.get 0 d.ptn.hbm s ≤ 1) && (d.freeRun s e.len).isSome) with
    | some s =>
      let b := (d.freeRun s e.len).getD 0
      let e1 := { e with mstack := s, mbase := b }
      let d1 := { d with mem := d.mem.mirrorCopy e1,
                         ptn := { d.ptn with freeGr := d.ptn.freeGr.filter (fun g => !(extent s b e.len).contains g) } }
      (d1.ptnSet p { d1.ptnAt p with ent := e1, mirrored := true }).shareRegs [p]
    | none => d
  else d

/-! ### Re-staging (R130, R131) -/

/-- Write the core sections of a gang's bundles into the store of the core of gang rank r. -/
def Dev.coreSections (d : Dev) (c r : Nat) : List Sect → Dev
  | [] => d
  | s :: ss =>
    (if decide (s.typ = 0x10 ∨ s.typ = 0x11) && decide (s.dest / 2 ^ 56 = r) then d.csWrite c (s.dest % 2 ^ 25) s.data else d).coreSections c r ss

/-- R131: an unprotected core's store comes from the installed sections; what they do not cover is zero (R91). Damaged bundles
are no source (R336). -/
def Dev.restageCore (d : Dev) (p c : Nat) : Dev :=
  let g := (d.ent p).gang
  match (upTo 32).find? (fun r => decide ((d.gangCores p)[r]? = some c)) with
  | some r => (d.csZero c).coreSections c r (((d.bundlesOf g).filter (fun b => !b.damaged)).flatMap (fun b => b.sects))
  | none => d.csZero c

def Dev.restageCores (d : Dev) (p : Nat) : List Nat → Dev
  | [] => d
  | c :: cs => (if c < 32 then d.restageCore p c else d).restageCores p cs

/-- R130: the image of rank r of gang g, into the store of core c; bytes beyond IMGLEN are zero. -/
def Dev.loadImage (d : Dev) (g r c : Nat) : Dev :=
  match d.imageOf g r with
  | some x => (d.csZero c).coreFromSh c 0 g x.off x.len
  | none => d.csZero c

/-- HBM_DATA sections into the share (R131). -/
def Dev.shareSections (d : Dev) (p : Nat) : List Sect → Dev
  | [] => d
  | s :: ss => (if s.typ = 0x12 then d.shWrite p s.dest s.data else d).shareSections p ss

/-- R131, R472: every bundle-origin region of a partition from its model-store extents: HBM_DATA, PROGRAM and CORE_DATA. -/
def Dev.restagePtn (d : Dev) (p : Nat) : Dev :=
  (d.shareSections p (((d.bundlesOf p).filter (fun b => !b.damaged)).flatMap (fun b => b.sects))).restageCores p (d.ptnAt p).order

/-! ### The install of a bundle (R139 to R148) -/

/-- Bytes of the persistent value of a dictionary entry; `dkey` numbers entries by window row, index and subindex. -/
def dkey (index sb row : Nat) : Nat := row * 2 ^ 24 + index * 256 + sb

def Dev.dictRaw (d : Dev) (index sb : Nat) : List Byte := Tab.get [] d.dict.vals (dkey index sb 0)

/-- R443, R446: a listed signer of 0x5010 with this hash: its subindex, 1 to 8. -/
def Dev.signerOf (d : Dev) (hash : List Byte) : Option Nat :=
  if zeros hash then none else ((upTo 8).map (· + 1)).find? (fun k => decide (d.dictRaw 0x5010 k = hash))

/-- R146: a signature block over `msg`: format, lengths, and both signatures. -/
def sigFormat (sig : List Byte) : Bool :=
  decide (subN sig 0 4 = 1) && decide (subN sig 4 4 = 96) && decide (subN sig 8 4 = 4627) && decide (subN sig 12 4 = 0) && zeros (sub sig 4787 13)

def sigVerifies (sig msg : List Byte) : Bool := sigFormat sig && Config.verify (sub sig 16 48) msg (sub sig 64 4723)

/-- R147 step 1, R148: the header and layout; the code of the first fault. -/
def headerErr (bs : List Byte) (total : Nat) : Option Nat :=
  let sig := subN bs 72 8
  let n := subN bs 64 4
  let ent := fun (i : Nat) => sub bs (2048 + 64 * i) 64
  let ends := (upTo n).map (fun i => (subN (ent i) 8 8, subN (ent i) 8 8 + subN (ent i) 16 8))
  if decide (sub bs 0 4 ≠ [0x45, 0x43, 0x42, 0x4E]) || decide (subN bs 8 4 ≠ 256) || decide (subN bs 48 8 ≠ 256) || decide (subN bs 56 8 ≠ 2048) ||
      decide (8 ≤ subN bs 12 4) || !zeros (sub bs 42 2) || !zeros (sub bs 68 4) || !zeros (sub bs 120 136) || !zeros (sub bs (256 + 1721) 71) ||
      decide (subN bs 256 4 ≠ 1) || decide (subN bs 260 4 ≠ 1568) || decide (subN bs 264 4 ≠ 97) || decide (subN bs 268 4 ≠ 40) ||
      (upTo n).any (fun i => decide (2 ≤ subN (ent i) 2 2) || !zeros (sub (ent i) 60 4)) then some 0x01
  else if subN bs 4 2 ≠ 1 then some 0x02
  else if decide (n = 0) || decide (4096 < n) || decide (subN bs 32 8 ≠ sig + 4800) || decide (subN bs 32 8 ≠ total) || decide (bs.length ≠ total) ||
      decide (sig % 64 ≠ 0) || ends.any (fun e => decide (e.1 % 64 ≠ 0) || decide (e.1 < 2048 + 64 * n) || decide (sig < e.2)) ||
      (ends.zip (ends.drop 1)).any (fun a => decide (a.2.1 < a.1.2)) then some 0x03
  else none

/-- The free associative-memory entries of a partition's range (R211, R224). -/
def Dev.amFree (d : Dev) (p : Nat) : List Nat :=
  ((upTo (d.ent p).amcount).map (fun i => (d.ent p).amfirst + i)).filter (fun i => decide ((Tab.get {} d.flow.am i).ctl = 0))

/-- R142 to R145: the destinations and the placement of the decrypted sections; 0x08, 0x0A or 0x0B. -/
def Dev.placeErr (d : Dev) (p : Nat) (protect : Bool) (ss : List Sect) (rs : List Region) : Option Nat :=
  let known := [0x01, 0x02, 0x10, 0x11, 0x12, 0x13, 0x14, 0x20, 0x21, 0x22]
  let ids := ss.map (fun s => s.id)
  let e := d.ent p
  let nc := (d.gangCores p).length
  let ofT := fun (t : Nat) => ss.filter (fun s => decide (s.typ = t))
  if ss.any (fun s => !known.contains s.typ) then some 0x0B
  else if decide ((ofT 1).length ≠ 1) || decide ((ofT 2).length ≠ 1) || decide (ids.eraseDups.length ≠ ids.length) ||
      ss.any (fun s =>
        if s.typ = 1 ∨ s.typ = 2 ∨ s.typ = 0x22 then decide (s.dest ≠ 0)
        else if s.typ = 0x10 ∨ s.typ = 0x11 then decide (nc ≤ s.dest / 2 ^ 56) || decide (bits s.dest 55 25 ≠ 0)
        else if s.typ = 0x12 then decide (s.dest % 64 ≠ 0) || !inKind rs 5 s.dest s.data.length
        else if s.typ = 0x13 then decide (4 ≤ s.dest) || (entries 32 s.data).any (fun x => decide (subN x 0 8 % 524288 ≠ 0) || decide (subN x 8 4 % 64 ≠ 0) || !zeros (sub x 20 12))
        else if s.typ = 0x20 then decide (s.dest < e.ensfirst) || decide (e.ensfirst + e.enscount ≤ s.dest)
        else if s.typ = 0x21 then decide (s.dest < e.tplfirst) || decide (e.tplfirst + e.tplcount ≤ s.dest)
        else false) ||
      decide (((ofT 0x20).map (fun s => s.dest)).eraseDups.length ≠ (ofT 0x20).length) ||
      rs.any (fun r => decide (r.kind = 0) || decide (5 < r.kind) || decide (r.off % 64 ≠ 0) || (decide (r.kind = 2) && (decide (r.slotSize % 64 ≠ 0) || decide (4 ≤ r.lib)))) ||
      rs.any (fun r => decide (r.len ≤ e.len * granule) && !d.inShare p r.off r.len) ||
      (ofT 1).any (fun s => (entries 32 s.data).any (fun x => !zeros (sub x 25 7))) || rs.any (fun r => decide (r.kind = 2) && decide (64 ≤ r.stgq)) ||
      rs.any (fun r => decide (0 < r.len) && (rs.filter (fun x => decide (x.off < r.off + r.len) && decide (r.off < x.off + x.len))).length ≠ 1) ||
      (protect && !(upTo nc).all (fun k => decide ((rs.filter (fun r => decide (r.kind = 1) && decide (r.rank = k) && decide (r.len ≤ csSize))).length = 1)))
    then some 0x08
  else if rs.any (fun r => decide (e.len * granule < r.len)) ||
      ss.any (fun s => decide (s.typ = 0x10 ∨ s.typ = 0x11) && decide (csSize < s.dest % 2 ^ 25 + s.data.length)) ||
      decide ((d.amFree p).length < ((ss.filter (fun s => decide (s.typ = 0x22))).map (fun (s : Sect) => s.data.length / 128)).foldl (· + ·) 0) ||
      decide (d.rd64 (memReg 0x28) < (ss.map (fun s => roundUp s.data.length (if s.typ = 0x14 then 524288 else 4096))).foldl (· + ·) 0) then some 0x0A
  else none

/-- R143, R211, R275, R298, R301: the contents, code 0x09. -/
def Dev.contentOk (d : Dev) (p : Nat) (ss : List Sect) (rs : List Region) (ts : List TensorEnt) : Bool :=
  let new := (ss.filter (fun s => decide (s.typ = 0x21))).map (fun (s : Sect) => s.data)
  ts.all (tensorOk ss) &&
  ss.all (fun s =>
    if s.typ = 0x20 then fabricOk s.data s.dest
    else if s.typ = 0x21 then d.templateOk p rs new s.data
    else if s.typ = 0x22 then decide (s.data.length % 128 = 0) && (entries 128 s.data).all (d.ruleOk p)
    else true)

/-- R139: is a SEQNO not above that of an installed or previously replaced bundle of the same NAME? -/
def Dev.seqnoUsed (d : Dev) (name : List Byte) (seqno : Nat) : Bool :=
  (d.store.bundles.map (fun b => (b.name, b.seqno)) ++ d.store.seqnos).any (fun a => decide (a.1 = name) && decide (seqno ≤ a.2))

/-- R147 steps 1 to 5: the bundle read, checked and decrypted, and whether it replaces; or the code and the step reached. -/
def Dev.readBundle (d : Dev) (bs : List Byte) (total : Nat) : Except (Nat × Nat) (Bundle × Bool) :=
  let p := subN bs 40 1
  let fl := subN bs 12 4
  let sigOff := subN bs 72 8
  let sig := bs.drop sigOff
  let name := sub bs 80 32
  let seqno := subN bs 112 8
  let gang := (d.ent p).gang
  let kg := Tab.get 0 d.sec.kgen gang
  let same := (d.bundlesOf p).any (fun b => decide (b.name = name))
  if d.sec.state ≠ 1 ∧ d.sec.state ≠ 2 then .error (0x0D, 1)
  else match headerErr bs total with
  | some c => .error (c, 1)
  | none =>
    if sigVerifies sig (bs.take sigOff) = false then .error (0x04, 2)
    else if (d.signerOf (sub sig 16 48)).isNone ∨ d.seqnoUsed name seqno = true then .error (0x05, 2)
    else if 32 ≤ p ∨ (d.ent p).gang ≠ p ∨ (d.gangOf p).length ≠ subN bs 41 1 then .error (0x06, 3)
    else if decide ((d.ptnAt p).state ≠ .service ∧ (d.ptnAt p).state ≠ .tshared) || (bit fl 1 && !(d.ent p).prot) || (bit fl 2 && !same) then
      .error (0x0C, 3)
    else match contentKey (ptnSeed d.sec.lgen gang kg) gang (bs.take 256) (sub bs 256 1792) with
    | none => .error (0x06, 3)
    | some key =>
      let opened := (upTo (subN bs 64 4)).map (fun i =>
        let e := sub bs (2048 + 64 * i) 64
        (Config.gcmOpen key (sub e 32 12) (e.take 44 ++ leBytes 16 0 ++ e.drop 60) (sub bs (subN e 8 8) (subN e 16 8)) (sub e 44 16)).map (fun pl =>
          ({ typ := subN e 0 2, flags := subN e 2 2, id := subN e 4 4, dest := subN e 24 8, data := padTo (subN e 16 8) pl } : Sect)))
      if opened.all Option.isSome = false then .error (0x07, 4)
      else
        let ss := opened.filterMap id
        let rs := (ss.filter (fun s => decide (s.typ = 1))).flatMap (fun s => (entries 32 s.data).map regionOf)
        let ts := (ss.filter (fun s => decide (s.typ = 2))).flatMap (fun s => (entries 32 s.data).map tensorOf)
        match d.placeErr p (bit fl 1) ss rs with
        | some c => .error (c, 5)
        | none =>
          if d.contentOk p ss rs ts then
            .ok ({ inst := d.store.nextInst, bid := sub bs 16 16, name := name, seqno := seqno, ptn := p, gang := gang, lgen := d.sec.lgen, kgen := kg,
                   sects := ss, regions := rs, tensors := ts }, bit fl 2)
          else .error (0x09, 5)

def Dev.installUpd (d : Dev) (t : Nat) (f : Install → Install) : Dev :=
  { d with store := { d.store with installs := d.store.installs.map (fun i => if i.ticket = t then f i else i) } }

/-- R148, R364: an install ends with an outcome. -/
def Dev.installEnd (d : Dev) (t code step : Nat) (hostdma : Bool) : Dev :=
  let d1 := (d.installUpd t (fun i => { i with state := 2, outcome := code, step := step, hostdma := hostdma, ready := none })).event (memReg 0x10) 4
  if code = 4 ∨ (code = 6 ∧ step = 3) then
    ((d1.count (secBase + 0x18) 1).event (secBase + 0x10) 2).report 0x11 2 0 0xFF code
  else d1

/-- R147 steps 1 to 6 of the next queued install; `data` holds the bundle read from the host's ranges, none where a host read
failed. HBM_DATA, PROGRAM and CORE_DATA are written at the commit's own moment (log 43). -/
def Dev.bundleInstallRun (d : Dev) (data : Option (List Byte)) : Dev :=
  if d.store.installs.any (fun i => decide (i.state = 1)) then d
  else match d.store.installs.find? (fun i => decide (i.state = 0)) with
  | none => d
  | some i =>
    match data with
    | none => d.installEnd i.ticket 0xFF 1 true
    | some bs =>
      match d.readBundle bs i.total with
      | .error (c, st) => d.installEnd i.ticket c st false
      | .ok (b, rep) => (d.storeWrite b.bytes).installUpd i.ticket (fun x => { x with state := 1, step := 6, ready := some (b, rep) })

/-- The staged rule entries of a RULESET section: the lowest free entries of the partition's range (R211, R222). -/
def Dev.ruleObjs (d : Dev) (p : Nat) (s : Sect) : List VObj :=
  ((d.amFree p).zip (entries 128 s.data)).map (fun a =>
    VObj.am a.1 { key := subN a.2 0 40, mask := subN a.2 40 40, res := subN a.2 80 32, ctl := subN a.2 112 8 })

/-- The records that a TEMPLATE section replaces: those of its number, and for a group record those of its GROUP (R300, R301). -/
def Dev.tplEnds (d : Dev) (s : Sect) : List VObj :=
  [VObj.endTpl s.dest] ++ (if fld s.data 8 1 = 1 then
    (d.flow.tpl.filter (fun kv => decide (fld kv.2 8 1 = 1) && decide (fld kv.2 9 1 = fld s.data 9 1))).map (fun kv => VObj.endTpl (kv.1 % 4096)) else [])

/-- R147: the flow-plane objects of the sections, staged for version n; none where an ensemble or the 8 MiB template store has no room. -/
def Dev.stageSections (d : Dev) (p n : Nat) : List Sect → Option Dev
  | [] => some d
  | s :: ss =>
    if s.typ = 0x20 then
      (match d.placeEns p n s.data with
       | some d1 => d1.stageSections p n ss
       | none => none)
    else if s.typ = 0x21 then
      (if 8388608 < (d.flow.tpl.map (fun kv => kv.2.length)).foldl (· + ·) 0 + s.data.length then none
       else (d.stageAll n d.vcur (d.tplEnds s ++ [VObj.tpl s.dest s.data])).stageSections p n ss)
    else if s.typ = 0x22 then (d.stageAll n d.vcur (d.ruleObjs p s)).stageSections p n ss
    else d.stageSections p n ss

/-- The rule entries staged for version n. -/
def Dev.amStaged (d : Dev) (n : Nat) : List Nat := (d.flow.am.filter (fun kv => decide (ctlVmin kv.2.ctl = n))).map (fun kv => kv.1)

/-- The flow-plane objects of a replaced bundle, marked to disappear with version n (R139 REPLACE, R222). -/
def Dev.endBundle (d : Dev) (n : Nat) (b : Bundle) : Dev :=
  let ens := (b.sects.filter (fun s => decide (s.typ = 0x20))).map (fun (s : Sect) => s.dest)
  d.stageAll n d.vcur (b.am.map VObj.endAm ++
    (b.sects.filter (fun s => decide (s.typ = 0x21))).map (fun (s : Sect) => VObj.endTpl s.dest) ++
    (d.flow.recs.filter (fun kv => kv.2.inUse && decide (ctlOwner kv.2.ctl = b.ptn) && ens.contains kv.2.ens && decide (ctlVmax kv.2.ctl = 0))).map
      (fun kv => VObj.endEns kv.1))

def Dev.endBundles (d : Dev) (n : Nat) : List Bundle → Dev
  | [] => d
  | b :: bs => (d.endBundle n b).endBundles n bs

/-- A count of a changed measurement: SEC_MEASCNT and MEASCHG (R437). -/
def Dev.measChange (d : Dev) (ix : Nat) : Dev :=
  let s := { d.sec with measCnt := Tab.set 0 d.sec.measCnt ix (stick32 (Tab.get 0 d.sec.measCnt ix + 1)) }
  let s1 := if ix = 2 ∨ ix = 3 then { s with sess := [] } else s
  ({ d with sec := s1 }).event (secBase + 0x10) 1

/-- Does a bundle hold flow-plane objects (sections 0x20 to 0x22)? -/
def bundleHasPlane (x : Bundle) : Bool := x.sects.any (fun s => decide (s.typ = 0x20 ∨ s.typ = 0x21 ∨ s.typ = 0x22))

/-- R147: the flow-plane objects of bundle b, staged and committed as version n; those of the bundles it replaces end with it. None where
there is no room. -/
def Dev.commitPlane (d : Dev) (n : Nat) (gone : List Bundle) (b : Bundle) : Option Dev :=
  if d.flow.vers.length < 4 then ((d.endBundles n gone).stageSections b.ptn n b.sects).map (fun x => (x.commit n).1) else none

/-- R147, R139: the bundle enters the catalogue; with REPLACE the bundle of its name is old. -/
def Dev.catalogueBundle (d : Dev) (n : Nat) (b : Bundle) (rep flowObj : Bool) : Dev :=
  let s := d.store
  let keep : List Bundle := s.bundles.map (fun (x : Bundle) => if rep && decide (x.ptn = b.ptn ∧ x.name = b.name) then { x with old := true } else x)
  { d with store := { s with
      bundles := keep ++ [{ b with am := if flowObj then d.amStaged n else [] }], nextInst := s.nextInst + 1
      seqnos := s.seqnos ++ ((s.bundles.filter (fun (x : Bundle) => rep && decide (x.ptn = b.ptn ∧ x.name = b.name) && !x.old)).map (fun x => (x.name, x.seqno))) } }

/-- R147: the core-store sections of the ranks in a list are written. -/
def Dev.commitCores (d : Dev) (b : Bundle) : List Nat → Dev
  | [] => d
  | r :: rs =>
    (match d.gangCore b.ptn r with
      | some c => d.coreSections c r b.sects
      | none => d).commitCores b rs

/-- R147: the core-image regions in a list take what core store holds. -/
def Dev.commitImages (d : Dev) (b : Bundle) : List Region → Dev
  | [] => d
  | r :: rs =>
    (if r.kind = 1 then (match d.gangCore b.ptn r.rank with
        | some c => d.shFromCore b.ptn r.off c 0 r.len
        | none => d) else d).commitImages b rs

/-- R147 step 7: the running install commits: one version commit for its flow-plane objects, libraries switch, the catalogue
records the bundle. A commit that no version or no room is left for ends with code 0x0A and nothing in service. -/
def Dev.bundleCommit (d : Dev) : Dev :=
  match d.store.installs.find? (fun i => decide (i.state = 1)) with
  | none => d
  | some i =>
    match i.ready with
    | none => d
    | some (b, rep) =>
      let n := vsucc d.vcur
      let gone := if rep then (d.bundlesOf b.ptn).filter (fun (x : Bundle) => decide (x.name = b.name)) else []
      let flowObj := ([b] ++ gone).any bundleHasPlane
      match (if flowObj then d.commitPlane n gone b else some d) with
      | none => d.installEnd i.ticket 0x0A 7 false
      | some d1 =>
        let d2 := ((d1.catalogueBundle n b rep flowObj).shareSections b.ptn b.sects).catalogue
        (((d2.commitCores b (upTo 32)).commitImages b b.regions).measChange (6 + b.ptn)).installEnd i.ticket 0 7 false

/-- R363: free an installed bundle by name; the Bool says that there was one. -/
def Dev.bundleFree (d : Dev) (name : List Byte) : Dev × Bool :=
  match d.store.bundles.find? (fun b => decide (b.name = name) && !b.old) with
  | some b =>
    let d1 := { d with store := { d.store with bundles := d.store.bundles.map (fun (x : Bundle) => if x.inst = b.inst then { x with old := true } else x) } }
    (d1.catalogue.measChange (6 + b.ptn), true)
  | none => (d, false)

end Sys2Proof
end

