-- ==== Sys2Proof/Machine/Partition.lean ====
section
/-! DEFINITION. The partition map, faults and the re-map (chapter 13). -/

namespace Sys2Proof

def ptnReg (off : Nat) : Nat := ptnBase + off

/-! ### Registers of the PTN block (R346) -/

def PtnState.code : PtnState → Nat
  | .offline => 0 | .service => 1 | .remap => 2 | .restage => 3 | .tshared => 4 | .failed => 5

/-- PTN_STAT(p). -/
def Ptn.stat (x : Ptn) : Nat :=
  x.state.code + 8 * b2n x.ent.prot + 16 * b2n x.mirrored + 256 * (x.ent.gang % 32) + 2 ^ 24 * stick 255 x.remaps

/-- The 128 bytes of a map entry (R322). -/
def MapEnt.bytes (e : MapEnt) : List Byte :=
  leBytes 1 1 ++ leBytes 1 (b2n e.valid + 2 * b2n e.prot + 4 * b2n e.rqen) ++ leBytes 1 e.gang ++ leBytes 1 e.rq ++ leBytes 4 e.cores ++
  leBytes 4 e.ports ++ leBytes 8 e.queues ++ leBytes 1 e.pstack ++ leBytes 1 e.pbase ++ leBytes 1 e.len ++ leBytes 1 e.mstack ++
  leBytes 1 e.mbase ++ leBytes 3 0 ++ leBytes 4 e.efirst ++ leBytes 4 e.ecount ++ leBytes 4 e.amfirst ++ leBytes 4 e.amcount ++
  leBytes 4 e.chfirst ++ leBytes 4 e.chcount ++ (upTo 4).flatMap (fun q => leBytes 2 (e.trquota.getD q 0)) ++ leBytes 1 e.ensfirst ++
  leBytes 1 e.enscount ++ leBytes 1 e.grpfirst ++ leBytes 1 e.grpcount ++ leBytes 2 e.tplfirst ++ leBytes 2 e.tplcount ++
  leBytes 2 e.polfirst ++ leBytes 2 e.polcount ++ leBytes 56 0

/-- A map entry from its bytes. -/
def entOf (b : List Byte) : MapEnt :=
  let f := subN b 1 1
  { valid := bit f 0, prot := bit f 1, rqen := bit f 2, gang := subN b 2 1, rq := subN b 3 1, cores := subN b 4 4, ports := subN b 8 4,
    queues := subN b 12 8, pstack := subN b 20 1, pbase := subN b 21 1, len := subN b 22 1, mstack := subN b 23 1, mbase := subN b 24 1,
    efirst := bits (subN b 28 4) 17 0, ecount := bits (subN b 32 4) 18 0, amfirst := bits (subN b 36 4) 16 0,
    amcount := bits (subN b 40 4) 17 0, chfirst := bits (subN b 44 4) 16 0, chcount := bits (subN b 48 4) 17 0,
    trquota := (upTo 4).map (fun q => subN b (52 + 2 * q) 2), ensfirst := subN b 60 1, enscount := subN b 61 1, grpfirst := subN b 62 1,
    grpcount := subN b 63 1, tplfirst := subN b 64 2, tplcount := subN b 66 2, polfirst := subN b 68 2, polcount := subN b 70 2 }

/-- Write consecutive words of a register window from bytes. -/
def Dev.wrBytes (d : Dev) (k : Nat) (bs : List Byte) (n : Nat) : Dev :=
  (upTo n).foldl (fun (x : Dev) i => x.wrN (k + 4 * i) (leNat ((bs.drop (4 * i)).take 4))) d

/-- The PTN registers that show the map follow it: PTN_STAT, PTN_MAP, MEM_SHARE, PTN_DIES, PTN_SPARES, PTN_OUT. -/
def Dev.ptnRegs (d : Dev) : Dev :=
  let d1 := (upTo 32).foldl (fun (x : Dev) p => (x.wrN (ptnReg 0x40 + 4 * p) (x.ptnAt p).stat).wrBytes (ptnReg 0x100 + 0x80 * p) (x.ent p).bytes 32) d
  (((d1.shareRegs (upTo 32)).wrN (ptnReg 4) ((upTo 4).foldl (fun s k => s + 16 ^ k * Tab.get 0 d.ptn.dies k) 0)).wrN (ptnReg 8) d.ptn.spares).wrN
    (ptnReg 0xC) d.ptn.out

/-- R129: a granule scrub ends: the granules read zero, and the map part that gives them away takes effect. -/
def Dev.granuleScrubDone (d : Dev) : Dev :=
  match d.store.scrubs with
  | [] => d
  | s :: ss =>
    let d1 := ({ d with store := { d.store with scrubs := ss } }).zeroGr s.stack s.base s.len
    match s.dest with
    | none => { d1 with ptn := { d1.ptn with freeGr := d1.ptn.freeGr ++ extent s.stack s.base s.len } }
    | some (p, false) => ((d1.entSet p { d1.ent p with pstack := s.stack, pbase := s.base, len := s.len }).joinShare p).ptnRegs
    | some (p, true) => ((d1.entSet p { d1.ent p with mstack := s.stack, mbase := s.base }).joinShare p).ptnRegs

def Dev.ptnState (d : Dev) (p : Nat) (s : PtnState) : Dev := d.ptnSet p { d.ptnAt p with state := s }

/-! ### The map (R322 to R325) -/

/-- Slice i of n equal slices of [lo, lo + tot), the remainder going to the last (R323). -/
def sliceOf (lo tot n i : Nat) : Nat × Nat := (lo + i * (tot / n), if i + 1 = n then tot - (n - 1) * (tot / n) else tot / n)

/-- The partitions of a generated mode: 32, 16 or 8, and the cores each has (R323). -/
def modeN (mode : Nat) : Nat := [32, 16, 8].getD mode 32

/-- Default region of partition p: stack, base, length (R127, R323). -/
def modeShare (mode p : Nat) : Nat × Nat × Nat :=
  if mode = 0 then (2 * (p / 8) + p % 8 / 4, 48 * (p % 4), 48)
  else if mode = 1 then (2 * (p / 4) + p % 4 / 2, 96 * (p % 2), 96)
  else (2 * (p / 2) + p % 2, 0, 192)

/-- The spare cores that a count reserves, in the order 31, 23, 15, 7 (R325). -/
def spareCores (n : Nat) : List Nat := if n = 1 then [31] else if n = 2 then [31, 23] else if n = 4 then [31, 23, 15, 7] else []

/-- R323, R324: the generated entry of partition p; `avail` is the mask of cores neither spare nor out of service. -/
def genEntry (mode protect avail p : Nat) : MapEnt :=
  let n := modeN mode
  if n ≤ p then {}
  else
    let per := 32 / n
    let cores := (upTo per).foldl (fun m i => if bit avail (per * p + i) then setBit m (per * p + i) else m) 0
    let s := modeShare mode p
    let m := modeShare mode ((p + n / 4) % n)
    let half := decide (protect ≠ 0)
    let len := if half then s.2.2 / 2 else s.2.2
    let e := sliceOf 0 262144 n p
    let am := sliceOf 0 131072 n p
    let ch := sliceOf 0 131072 n p
    let tr := sliceOf 0 2048 n p
    let en := sliceOf 0 64 n p
    let tp := sliceOf 1 4095 n p
    let po := sliceOf 1 16383 n p
    { valid := true, prot := bit protect p, gang := p, cores := cores, queues := (2 ^ (2 * per) - 1) * 2 ^ (2 * per * p), pstack := s.1, pbase := s.2.1,
      len := len, mstack := if bit protect p then m.1 else 0, mbase := if bit protect p then m.2.1 + len else 0, efirst := e.1, ecount := e.2,
      amfirst := am.1, amcount := am.2, chfirst := ch.1, chcount := ch.2, trquota := [tr.2, tr.2, tr.2, tr.2], ensfirst := en.1,
      enscount := en.2, grpfirst := en.1, grpcount := en.2, tplfirst := tp.1, tplcount := tp.2, polfirst := po.1, polcount := po.2 }

/-- Do [a, a + n) and [b, b + m) meet? -/
def meets (a n b m : Nat) : Bool := decide (a < b + m) && decide (b < a + n) && decide (0 < n) && decide (0 < m)

/-- R324: the extents of an entry, as (stack, base, length). -/
def MapEnt.extents (e : MapEnt) : List (Nat × Nat × Nat) :=
  if e.valid && decide (0 < e.len) then (e.pstack, e.pbase, e.len) :: (if e.prot then [(e.mstack, e.mbase, e.len)] else []) else []

/-- R324: an entry of 0x4011 by itself: within the device and within R128. -/
def MapEnt.sound (e : MapEnt) : Bool :=
  !e.valid ||
  (e.extents.all (fun x => decide (x.1 < 8) && decide (x.2.1 + x.2.2 ≤ 192)) && (!e.prot || decide (nearDie e.pstack ≠ nearDie e.mstack)) &&
   decide (e.gang < 32) && decide (e.rq < 64) && decide (e.efirst + e.ecount ≤ 262144) && decide (e.amfirst + e.amcount ≤ 131072) &&
   decide (e.chfirst + e.chcount ≤ 131072) && e.trquota.all (fun q => decide (q ≤ 2048)) && decide (e.ensfirst + e.enscount ≤ 64) &&
   decide (e.grpfirst + e.grpcount ≤ 64) && (decide (e.tplcount = 0) || (decide (1 ≤ e.tplfirst) && decide (e.tplfirst + e.tplcount ≤ 4096))) &&
   (decide (e.polcount = 0) || (decide (1 ≤ e.polfirst) && decide (e.polfirst + e.polcount ≤ 16384))))

/-- R322, R324: two entries share nothing. -/
def MapEnt.apart (a b : MapEnt) : Bool :=
  !a.valid || !b.valid ||
  (decide (Nat.land a.cores b.cores = 0) && decide (Nat.land a.queues b.queues = 0) &&
   a.extents.all (fun x => b.extents.all (fun y => decide (x.1 ≠ y.1) || !meets x.2.1 x.2.2 y.2.1 y.2.2)) &&
   !meets a.efirst a.ecount b.efirst b.ecount && !meets a.amfirst a.amcount b.amfirst b.amcount && !meets a.chfirst a.chcount b.chfirst b.chcount &&
   !meets a.ensfirst a.enscount b.ensfirst b.enscount && !meets a.grpfirst a.grpcount b.grpfirst b.grpcount &&
   !meets a.tplfirst a.tplcount b.tplfirst b.tplcount && !meets a.polfirst a.polcount b.polfirst b.polcount)

/-- R324: the subindex of the first entry at fault. -/
def mapFault (es : List MapEnt) : Option Nat :=
  ((upTo 32).find? (fun p =>
    let e := es.getD p {}
    !e.sound || (upTo p).any (fun q => !(es.getD q {}).apart e) ||
    (upTo 4).any (fun k => decide (2048 < ((es.take (p + 1)).map (fun x => if x.valid then x.trquota.getD k 0 else 0)).foldl (· + ·) 0)))).map (· + 1)

/-- The owner code the map gives a queue. -/
def Dev.queueOwner (d : Dev) (n : Nat) : Option Nat := (upTo 32).find? (fun p => (d.ent p).valid && bit (d.ent p).queues n)

/-! ### Re-map plans (R332, R333, R338, PTN_PLAN) -/

/-- The gang rank of core c of partition p. -/
def Dev.gangRank (d : Dev) (p c : Nat) : Option Nat := (upTo 32).find? (fun r => decide ((d.gangCores p)[r]? = some c))

/-- The image declared for core c of partition p. -/
def Dev.coreImage (d : Dev) (p c : Nat) : Option Region :=
  match d.gangRank p c with
  | some r => d.imageOf (d.ent p).gang r
  | none => none

/-- A core that may host a time-shared partition: up, not shared yet, its resident has declared an image for it (R340). -/
def Dev.mayHost (d : Dev) (c : Nat) : Bool :=
  d.coreUp c && (Tab.get none d.ptn.tshare c).isNone &&
  (match d.ownerOfCore c with
   | some q => (d.coreImage q c).isSome
   | none => false)

/-- Targets for a list of lost cores, taken from the spares and then from the hosts, lowest first (log 47). -/
def assignTargets : List Nat → List Nat → List Nat → List (Nat × Nat)
  | [], _, _ => []
  | c :: cs, s :: ss, hs => (c, s) :: assignTargets cs ss hs
  | c :: cs, [], h :: hs => (c, 0x80 + h) :: assignTargets cs [] hs
  | c :: cs, [], [] => (c, 0xFF) :: assignTargets cs [] []

/-- The targets of the lost cores that a partition owns: protected partitions first. -/
def Dev.targetsFor (d : Dev) (lost : List Nat) : List (Nat × Nat) :=
  let own := lost.filter (fun c => (d.ownerOfCore c).isSome)
  let isProt := fun c => match d.ownerOfCore c with | some p => (d.ent p).prot | none => false
  assignTargets (own.filter isProt ++ own.filter (fun c => !isProt c))
    ((maskBits 32 d.ptn.spares).filter (fun s => d.coreUp s && !lost.contains s))
    ((upTo 32).filter (fun h => d.mayHost h && !lost.contains h))

/-- R333: does a plan of these targets keep the conditions on images, stacks and links? -/
def Dev.planFits (d : Dev) (ts : List (Nat × Nat)) : Bool :=
  let prot := ts.filter (fun t => match d.ownerOfCore t.1 with | some p => (d.ent p).prot | none => false)
  let inLen : Nat × Nat → Nat := fun t => match d.ownerOfCore t.1 with | some p => ((d.coreImage p t.1).map (fun r => r.len)).getD 0 | none => 0
  let outLen : Nat × Nat → Nat := fun t => if 0x80 ≤ t.2 ∧ t.2 < 0xFF then
      (match d.ownerOfCore (t.2 - 0x80) with | some q => ((d.coreImage q (t.2 - 0x80)).map (fun r => r.len)).getD 0 | none => 0) else 0
  let reads : Nat × Nat → Nat → Nat := fun t n => match d.ownerOfCore t.1 with
    | some p => if (d.ent p).pstack = n then inLen t else 0
    | none => 0
  let writes : Nat × Nat → Nat → Nat := fun t n => if 0x80 ≤ t.2 ∧ t.2 < 0xFF then (match d.ownerOfCore (t.2 - 0x80) with
    | some q => (if (d.ent q).pstack = n then outLen t else 0) + (if (d.ptnAt q).mirrored && decide ((d.ent q).mstack = n) then outLen t else 0)
    | none => 0) else 0
  let sum : (Nat × Nat → Nat) → Nat := fun f => (prot.map f).foldl (· + ·) 0
  prot.all (fun (t : Nat × Nat) => decide (t.2 ≠ 0xFF) && decide (outLen t ≤ inLen t ∨ t.2 < 0x80)) &&
  (upTo 8).all (fun n => decide (sum (fun t => reads t n + writes t n) ≤ 56000000)) &&
  (upTo 4).all (fun k => decide (sum (fun t => if t.2 % 0x80 / 8 = k then inLen t + outLen t else 0) ≤ 140000000))

def dieCores (k : Nat) : List Nat := (upTo 8).map (fun i => 8 * k + i)

/-- The cores a failed unit takes with it. -/
def FUnit.lost : FUnit → List Nat
  | .die k => dieCores k
  | .core c => [c]
  | _ => []

/-- R332: the plan for one unit of PTN_PLAN: dies 0 to 3, stacks 4 to 11, cores 16 to 47. -/
def Dev.planUnit (d : Dev) (u : Nat) (worst : Nat) : Plan :=
  if u < 4 then
    let ts := d.targetsFor (dieCores u)
    { valid := decide (Tab.get 0 d.ptn.dies u = 0), fits := d.planFits ts, worst := worst,
      targets := (dieCores u).map (fun c => ((ts.find? (fun t => decide (t.1 = c))).map (fun t => t.2)).getD 0xFF) }
  else if u < 12 then
    { valid := decide (Tab.get 0 d.ptn.hbm (u - 4) ≤ 1), fits := true, worst := worst,
      restage := (upTo 32).foldl (fun m p =>
        if (d.ent p).valid && decide (0 < (d.ent p).len) && decide ((d.ent p).pstack = u - 4) && !(d.ptnAt p).mirrored then setBit m p else m) 0 }
  else if u < 16 then {}
  else
    let ts := d.targetsFor [u - 16]
    { valid := d.coreUp (u - 16), fits := d.planFits ts, worst := worst, targets := [((ts.head?).map (fun t => t.2)).getD 0xFF] }

/-- Firmware prepares the plans; the estimate of the worst interruption is its own (a free value). -/
def Dev.planAll (d : Dev) : Dev :=
  (upTo 48).foldl (fun (x : Dev) u =>
    let w := x.drawN
    let pl := x.planUnit u (w.1 % 65536)
    let k := ptnReg 0x1400 + 0x10 * u
    let word := fun (i : Nat) => leNat (((pl.targets.drop (4 * i)).take 4).map (fun t => BitVec.ofNat 8 t))
    (((({ w.2 with ptn := { w.2.ptn with plan := Tab.set {} w.2.ptn.plan u pl } }).wrN k (b2n pl.valid + 2 * b2n pl.fits + 65536 * pl.worst)).wrN (k + 4)
      (if 4 ≤ u ∧ u < 12 then pl.restage else word 0)).wrN (k + 8) (word 1))) d

/-! ### Failures (R330, R331, R336, R337) -/

/-- A partition enters FAILED (R338). -/
def Dev.ptnFail (d : Dev) (p cause old : Nat) : Dev :=
  if (d.ptnAt p).state = .failed then d
  else
    (((((d.ptnState p .failed).report 0x0F 7 2 p p).event (ptnReg 0x10) 2).notice p
      (3 + 256 * cause + 65536 * old + 2 ^ 24 * 0xFF + 2 ^ 32 * d.ptn.remaps) 0).alarmSet 9 p true 0 false)

def Dev.ptnFailAll (d : Dev) (cause old : Nat) : List Nat → Dev
  | [] => d
  | p :: ps => (d.ptnFail p cause old).ptnFailAll cause old ps

/-- A failed unit is logged, shown and queued for the re-map (R331, R338). -/
def Dev.unitLost (d : Dev) (u : FUnit) (code cls detail det : Nat) : Dev :=
  let p := match u with
    | .core c => (d.ownerOfCore c).getD 0xFF
    | _ => 0xFF
  let d1 := (d.report 0x0F code cls p detail).event (ptnReg 0x10) 3
  ({ d1 with ptn := { d1.ptn with todo := d1.ptn.todo ++ [(u, code, det, d.now)] } }).ptnRegs

/-- R331: cores go out of service; a spare among them is none any more. -/
def Dev.coresLost (d : Dev) (cs : List Nat) : Dev :=
  { d with ptn := { d.ptn with out := cs.foldl (fun m c => setBit m c) d.ptn.out, spares := cs.foldl (fun m c => clrBit m c) d.ptn.spares } }

/-- A core stops with all its work: its waiters leave (R162), and LOCK, the count of saves and the completions that stand behind records
already held stay. -/
def Dev.coreStop (d : Dev) (c : Nat) : Dev :=
  (d.unwait c).coreUpd c (fun x => { ({} : Core) with st := .faulted, lock := x.lock, saves := x.saves, defer := x.defer })

/-- R153: the records that a core has not yet placed in its FIFO are lost with its die, and so are the effects that waited for them. -/
def Dev.holdLost (d : Dev) (c : Nat) : Dev :=
  ({ d with cat := { d.cat with hold := Tab.set [] d.cat.hold c [] } }).coreUpd c (fun x => { x with defer := [] })

/-- The cores of a lost die. -/
def Dev.coresGone (d : Dev) : List Nat → Dev
  | [] => d
  | c :: cs => ((d.coreStop c).holdLost c).coresGone cs

/-- R330: tensor die k fails, detected under row `src`; `det` ns after its last correct behaviour. -/
def Dev.dieFail (d : Dev) (k src det : Nat) (trip : Bool) : Dev :=
  if Tab.get 0 d.ptn.dies k = 0 then
    let d1 := { d with ptn := { d.ptn with dies := Tab.set 0 d.ptn.dies k (if trip then 2 else 1) } }
    let d2 := if trip then d1.emit (.pmbus (2 + k) 0) else d1
    ((d2.coresLost (dieCores k)).coresGone (dieCores k)).unitLost (.die k) 1 3 (k + 256 * src) det
  else d

/-- MEM_HBMSTAT or MEM_MSSTAT of stack n becomes 2. -/
def Dev.stackStat (d : Dev) (off n : Nat) : Dev := d.wrN (memReg off) (putBits (d.rdN (memReg off)) (4 * n + 3) (4 * n) 2)

/-- R330, R336: an HBM stack fails. -/
def Dev.hbmFail (d : Dev) (n det : Nat) : Dev :=
  if Tab.get 0 d.ptn.hbm n ≤ 1 then
    let d1 := ({ d with ptn := { d.ptn with hbm := Tab.set 0 d.ptn.hbm n 2, freeGr := d.ptn.freeGr.filter (fun g => decide (g / 192 ≠ n)) } }).stackStat 8 n
    (d1.event (memReg 0x10) 2).unitLost (.hbm n) 2 3 n det
  else d

/-- R330: the eighth uncorrectable line error on HBM stack n within 1 ms: it is counted and the stack fails. -/
def Dev.hbmBurst (d : Dev) (n det : Nat) : Dev := (d.hbmEcc n 0xFF .uncFetch).hbmFail n det

/-- R330, R336: a model-store stack fails; every bundle has sections on every stack its units reach (log 44). -/
def Dev.msFail (d : Dev) (n : Nat) : Dev :=
  if Tab.get 0 d.ptn.ms n ≤ 1 then
    let d1 := ({ d with ptn := { d.ptn with ms := Tab.set 0 d.ptn.ms n 2 },
                        store := { d.store with bundles := d.store.bundles.map (fun (b : Bundle) => { b with damaged := true }) } }).stackStat 0x0C n
    ((d1.event (memReg 0x10) 2).report 0x0F 3 3 0xFF n).event (ptnReg 0x10) 3
  else d

/-- R330, R83, R114: core c is taken out of service. -/
def Dev.coreOut (d : Dev) (c det : Nat) : Dev :=
  if d.coreUp c then
    (d.coresLost [c]).unitLost (.core c) 4 2 c det
  else d

/-- R337: die B or the F-to-B link is lost: every partition FAILED, every entity stale with CAUSE 2. -/
def Dev.dieBFail (d : Dev) : Dev :=
  if d.ptn.dieBLost then d
  else
    let e := d.mkReport 0x0F 5 3 0xFF 0
    let d0 := { d with ptn := { d.ptn with dieBLost := true }, pwr := { d.pwr with fLog := (e :: d.pwr.fLog).take 1920 } }
    let d1 := (d0.alarmSet 4 0x0F true (5 * 65536) true).event (ptnReg 0x10) 3
    let d2 := d1.makeStaleList 2 (d1.warmIn 0 262144)
    (d2.ptnFailAll 5 0xFF ((upTo 32).filter (fun p => (d2.ent p).valid))).ptnRegs

/-! ### The reset of a partition (R329, R338) -/

def Dev.resetCores (d : Dev) (p : Nat) : List Nat → Dev
  | [] => d
  | c :: cs => (if decide (c < 32) && decide (d.ownerOfCore c = some p) then ((d.tenReset c).coreUpd c (fun x => { x with lock := false })).csZero c else d).resetCores p cs

def Dev.emptyQueues (d : Dev) : List Nat → Dev
  | [] => d
  | n :: ns => (d.pqEmpty n).emptyQueues ns

/-- The queues of an owner code. -/
def Dev.queuesOf (d : Dev) (o : Nat) : List Nat := (d.pq.filter (fun kv => decide (kv.2.owner = o))).map (fun kv => kv.1)

/-- R123, R329: the saved slices of partition p on shared cores are reset: they come back idle, unlocked, with a cleared store. -/
def Dev.resetSlices (d : Dev) (p : Nat) : Dev :=
  { d with ptn := { d.ptn with tshare := d.ptn.tshare.map (fun kv => (kv.1, kv.2.map (fun (t : TShare) => if t.other = p then { t with otherLock := false, otherPc := 0, otherSave := 0, otherReset := true, otherErr := none } else t))) } }

/-- R329: the reset itself. -/
def Dev.ptnClear (d : Dev) (p : Nat) : Dev :=
  ((((((d.resetSlices p).resetCores p (d.ptnAt p).order).emptyQueues (d.queuesOf p)).lckForceOwner p 1).ringClear p).releaseBuffers p)

/-- Replace core `old` by `new` at its rank and in CORES. -/
def Ptn.move (x : Ptn) (old new : Nat) : Ptn :=
  { x with order := x.order.map (fun c => if c = old then new else c),
           ent := { x.ent with cores := if new < 32 then setBit (clrBit x.ent.cores old) new else clrBit x.ent.cores old } }

/-- A REMAPSTART or REMAPDONE notice (R339). -/
def Dev.remapNotice (d : Dev) (p code cause old new detail : Nat) : Dev :=
  d.notice p (code + 256 * cause + 65536 * old + 2 ^ 24 * new + 2 ^ 32 * (d.ptn.remaps % 2 ^ 32)) detail

/-- Give core `tgt` of a plan to partition p in place of `old`: a spare is used up, a host becomes time-shared (R340). -/
def Dev.giveCore (d : Dev) (p old tgt : Nat) : Dev :=
  let new := if tgt = 0xFF then 0xFF else tgt % 0x80
  let d1 := d.ptnSet p ((d.ptnAt p).move old new)
  if tgt < 0x80 then { d1 with ptn := { d1.ptn with spares := clrBit d1.ptn.spares tgt } } else d1

/-- The store of core c, written to an image region of partition p. -/
def Dev.storeOut (d : Dev) (p c : Nat) : Dev :=
  match d.coreImage p c with
  | some r => d.shFromCore (d.ent p).gang r.off c 0 r.len
  | none => d

/-- ERRCODE and TEN_ERRPC of a core in the ERROR state, which a pre-emption leaves as it is (R110, R115). -/
def Dev.errorOf (d : Dev) (c : Nat) : Option (Nat × Nat) :=
  if (d.coreAt c).st = .error then some ((d.coreAt c).errcode, d.rdN (tenReg c 0x24)) else none

/-- R340: core c becomes shared: its resident partition, pre-empted, is swapped out, and partition p begins the first slice. -/
def Dev.shareCore (d : Dev) (p c : Nat) : Dev :=
  match (upTo 32).find? (fun q => decide (q ≠ p) && (d.ent q).valid && (d.ptnAt q).order.contains c) with
  | some h =>
    let e := d.storeOut h c
    let t : TShare := { running := p, other := h, otherLock := (d.coreAt c).lock, otherPc := d.pc c, otherSave := d.saveBase c,
                        otherReset := false, otherErr := d.errorOf c }
    ({ e with ptn := { e.ptn with tshare := Tab.set none e.ptn.tshare c (some t) } }).ptnState h .tshared
  | none => d

/-- What a core keeps of itself when it takes up another partition's work: the count of saves, and the completions that stand behind
records the Catcher holds back, whose effects on the old work are void. -/
def Core.fresh (x : Core) (lock : Bool) : Core :=
  { ({} : Core) with lock := lock, saves := x.saves, defer := x.defer.map (fun a => (a.1, none)) }

/-- R338, R340: a FAILED partition that is reset takes a time-shared core: the host is pre-empted and the core is left idle. -/
def Dev.shareIdle (d : Dev) (p c : Nat) : Dev :=
  let d1 := ((d.tenPreempt c).preemptSaved c).shareCore p c
  ((d1.coreSet c ((d1.coreAt c).fresh false)).tenRegsReset c).event (ptnReg 0x10) 5

/-- R338: the planning step for a FAILED partition: every rank without a healthy core takes a target. -/
def Dev.replan (d : Dev) (p : Nat) : List Nat → Dev
  | [] => d
  | k :: ks =>
    let x := d.ptnAt p
    let c := x.order.getD k 0xFF
    if decide (c < 32) && d.coreUp c then d.replan p ks
    else
      let t := match (maskBits 32 d.ptn.spares).find? d.coreUp with
        | some s => s
        | none => match (upTo 32).find? d.mayHost with
          | some h => 0x80 + h
          | none => 0xFF
      let d1 := d.ptnSet p { x with order := x.order.set k (0x100 + k) }
      let d2 := d1.giveCore p (0x100 + k) t
      (if t < 0xFF ∧ 0x80 ≤ t then d2.shareIdle p (t % 0x80) else d2).replan p ks

/-- R329, R338: a reset of partition p, with the planning step for one that is FAILED. -/
def Dev.ptnReset (d : Dev) (p : Nat) : Dev :=
  let d1 := d.ptnClear p
  if (d1.ptnAt p).state = .failed ∧ d1.ptn.dieBLost = false then
    let d2 := d1.replan p (upTo (d1.ptnAt p).order.length)
    if (d2.ptnAt p).order.all (fun c => decide (c < 32)) && decide (0 < (d2.ptnAt p).order.length) then
      let st := if (d2.ptnAt p).order.any (fun c => (Tab.get none d2.ptn.tshare c).isSome) then PtnState.tshared else .service
      ((((d2.restagePtn p).ptnState p st).remapNotice p 2 7 0xFF ((d2.ptnAt p).order.headD 0xFF) 0).alarmSet 9 p false 0 false).ptnRegs
    else d2.ptnRegs
  else d1

/-! ### The re-map (R332 to R336) -/

/-- The mirror of partition p is lost or promoted (R128, R336). -/
def Dev.mirrorLost (d : Dev) (p : Nat) (promote : Bool) : Dev :=
  let x := d.ptnAt p
  let e := x.ent
  let e' := if promote then { e with pstack := e.mstack, pbase := e.mbase, mstack := e.pstack, mbase := e.pbase } else e
  (d.ptnSet p { x with ent := e', mirrored := false }).event (memReg 0x10) 1

/-- R336: a new extent for an unprotected partition, nearest stack first (log 47), else FAILED. -/
def Dev.moveShare (d : Dev) (p n : Nat) : Dev :=
  let d1 := d.ptnClear p
  let e := d1.ent p
  let home := ((d1.ptnAt p).order.find? (fun c => decide (c < 32))).getD 0 / 8
  let far := fun (s : Nat) => if nearDie s ≤ home then home - nearDie s else nearDie s - home
  let near := (upTo 4).flatMap (fun k => (upTo 8).filter (fun s => decide (far s = k)))
  match near.find? (fun s => decide (Tab.get 0 d1.ptn.hbm s ≤ 1) && (d1.freeRun s e.len).isSome) with
  | some s =>
    let b := (d1.freeRun s e.len).getD 0
    let d2 := (d1.extentLeaves e.pstack e.pbase e.len).extentLeaves e.mstack e.mbase (if e.prot then e.len else 0)
    ((({ d2 with ptn := { d2.ptn with freeGr := d2.ptn.freeGr.filter (fun g => !(extent s b e.len).contains g) } }).entSet p
      { e with pstack := s, pbase := b }).joinShare p).ptnState p .restage
  | none => ({ d1 with ptn := { d1.ptn with staleReports := d1.ptn.staleReports ++ [p] } }).ptnFail p 2 (n % 256)

/-- R336: what a failed HBM stack does to each partition. -/
def Dev.stackPtns (d : Dev) (n : Nat) : List Nat → Dev
  | [] => d
  | p :: ps =>
    let x := d.ptnAt p
    (if x.ent.valid && decide (0 < x.ent.len) then
      if x.mirrored && decide (x.ent.pstack = n) then d.mirrorLost p true
      else if x.mirrored && decide (x.ent.mstack = n) then d.mirrorLost p false
      else if x.ent.pstack = n then d.moveShare p n
      else d
     else d).stackPtns n ps

/-- Step 2 for the lost cores: waiters leave, the core stops; a guest of a shared core loses it too (R162, R332). -/
def Dev.fenceCores (d : Dev) : List Nat → Dev
  | [] => d
  | c :: cs => (d.coreStop c).fenceCores cs

/-- The partitions that lose a core. -/
def Dev.affected (d : Dev) (lost : List Nat) : List Nat :=
  (upTo 32).filter (fun p => (d.ent p).valid && lost.any (fun c => (d.ptnAt p).order.contains c))

/-- R167: the locks of partitions, by the row of a fault. -/
def Dev.freeLocks (d : Dev) : List Nat → Dev
  | [] => d
  | p :: ps => (d.lckForceOwner p 2).freeLocks ps

/-- Step 3 for one lost core of partition p. -/
def Dev.planMove (d : Dev) (cause : Nat) (p c t : Nat) : Dev × List Move1 :=
  let d1 := (d.giveCore p c t).remapNotice p 1 cause c (if t = 0xFF then 0xFF else t % 0x80) 0
  let saved := (Tab.get none d.ptn.tshare c).filter (fun (s : TShare) => decide (s.other = p))
  let lock := match saved with | some s => s.otherLock | none => (d.coreAt c).lock
  let save := match saved with | some s => s.otherSave | none => d.saveBase c
  if t = 0xFF then (d1.ptnFail p cause c, [])
  else (d1, [{ ptn := p, old := c, new := t % 0x80, tshared := decide (0x80 ≤ t), lock := lock, save := save }])

def Dev.planMoves (d : Dev) (cause : Nat) : List (Nat × Nat × Nat) → Dev × List Move1
  | [] => (d, [])
  | (p, c, t) :: rest =>
    let a := d.planMove cause p c t
    let b := a.1.planMoves cause rest
    (b.1, a.2 ++ b.2)

/-- PTN_STAT of the moving partitions: REMAP, or RESTAGE for one without an image (R332, R335). -/
def Dev.startStates (d : Dev) : List Nat → Dev
  | [] => d
  | p :: ps =>
    let x := d.ptnAt p
    (if x.state = .failed then d else d.ptnSet p { x with state := if x.ent.prot then .remap else .restage, remaps := stick 255 (x.remaps + 1) }).startStates ps

/-- R332 step 4: a time-shared target is pre-empted. -/
def Dev.freeTargets (d : Dev) : List Move1 → Dev
  | [] => d
  | m :: ms => (if m.tshared then (d.tenPreempt m.new).preemptSaved m.new else d).freeTargets ms

/-- The plan unit of a failed unit. -/
def FUnit.plan : FUnit → Nat
  | .die k => k
  | .hbm n => 4 + n
  | .core c => 16 + c
  | _ => 48

/-- PWR_DIE.REMAPHOLD: die k is a target die of the re-map in progress (R333, R477). -/
def Dev.remapHolds (d : Dev) : Dev :=
  let held : Nat → Bool := fun k => match d.ptn.cur with | some r => r.moves.any (fun m => decide (m.new / 8 = k)) | none => false
  (upTo 4).foldl (fun (x : Dev) k => x.wrN (pwrBase + 0x60 + 4 * k) (putBits (x.rdN (pwrBase + 0x60 + 4 * k)) 22 22 (b2n (held k)))) d

/-- R332 steps 2 to 4, and the start of step 5. -/
def Dev.remapStart (d : Dev) : Dev :=
  match d.ptn.cur, d.ptn.todo with
  | none, (u, cause, det, at_) :: rest =>
    let d0 := { d with ptn := { d.ptn with todo := rest } }
    match u with
    | .hbm n => (d0.stackPtns n (upTo 32)).planAll.ptnRegs
    | .ms _ => d0
    | .dieB => d0
    | _ =>
      let lost := u.lost
      let ps := d0.affected lost
      let pl := Tab.get {} d0.ptn.plan u.plan
      let ts := (lost.zip pl.targets)
      let target := fun (c : Nat) => ((ts.find? (fun t => decide (t.1 = c))).map (fun t => t.2)).getD 0xFF
      let d1 := (d0.freeLocks ps).fenceCores lost
      if ps = [] then d1.planAll.ptnRegs else
      let n1 := { d1 with ptn := { d1.ptn with remaps := stick32 (d1.ptn.remaps + 1) } }
      let d2 := (n1.wrN (ptnReg 0x18) n1.ptn.remaps).event (ptnReg 0x10) 0
      let d3 := if pl.fits then d2 else (d2.report 0x0F 8 0 0xFF u.plan).event (ptnReg 0x10) 4
      let want := ps.flatMap (fun p => ((d3.ptnAt p).order.filter (fun c => lost.contains c)).map (fun c => (p, c, target c)))
      let m := d3.planMoves cause want
      let d4 := m.1.startStates ps
      let d5 := { d4 with ptn := { d4.ptn with
        tshare := Tab.keep d4.ptn.tshare (fun c _ => !lost.contains c)
        staleReports := d4.ptn.staleReports ++ ps
        cur := some { cause := cause, moves := m.2.filter (fun (x : Move1) => decide ((d4.ptnAt x.ptn).state ≠ PtnState.failed)), det := det, at_ := at_, planned := d4.now } } }
      (d5.freeTargets m.2).ptnRegs.remapHolds
  | _, _ => d

/-- Load the image of partition p's rank of core c, or re-stage it without one (R130, R131). -/
def Dev.storeIn (d : Dev) (p c : Nat) : Dev :=
  if (d.ent p).prot then
    (match d.gangRank p c with
     | some r => d.loadImage (d.ent p).gang r c
     | none => d.csZero c)
  else d.restageCore p c

/-- R332 step 6: one core restarts. A time-shared target swaps its resident out first. -/
def Dev.restart1 (d : Dev) (m : Move1) (ns cause : Nat) : Dev :=
  let c := m.new
  let d1 := if m.tshared then (d.shareCore m.ptn c).event (ptnReg 0x10) 5 else d
  let w := d1.drawN
  let pcw : Nat × Dev := match (d1.gangRank m.ptn c).bind (fun r => d1.restartAddr (d1.ent m.ptn).gang r) with
    | some a => (a, d1)
    | none => (64 * (w.1 % 524288), w.2)
  let d1 := pcw.2
  let d2 := ((((d1.storeIn m.ptn c).coreSet c ((d1.coreAt c).fresh m.lock)).tenRegsReset c).wrN (tenReg c 0x18) (m.save % 2 ^ 32)).wrN (tenReg c 0x1C) (m.save / 2 ^ 32)
  let d3 := (d2.setPc c pcw.1).coreUpd c (fun y => { y with pcSet := true })
  let e := d3.ent m.ptn
  let v := 2 + 256 * cause + 65536 * m.old + 2 ^ 24 * c + 2 ^ 32 * (d3.ptn.remaps % 2 ^ 32)
  let note := leBytes 8 v ++ leBytes 4 ns ++ leBytes 1 (b2n e.prot + 2 * b2n m.tshared) ++ leBytes 19 0
  let d4 := if e.rqen && (d3.pqAt e.rq).en && decide ((d3.pqAt e.rq).owner = m.ptn) then (d3.pqPush e.rq 75 { level := 7, data := note }).1 else d3
  let d5 := if e.prot then d4 else d4.remapNotice m.ptn 4 cause m.old c 0
  ((d5.ptnState m.ptn (if m.tshared then .tshared else .service)).tenRun c).remapNotice m.ptn 2 cause m.old c ns

def Dev.restartAll (d : Dev) (ns cause : Nat) : List Move1 → Dev
  | [] => d
  | m :: ms => (d.restart1 m ns cause).restartAll ns cause ms

/-- R338: a target that failed during step 5: its partition is planned again, to the next free spare, to a host, or to FAILED. -/
def Dev.moveAgain (d : Dev) (cause : Nat) (m : Move1) : Dev × List Move1 :=
  let t := match (maskBits 32 d.ptn.spares).find? d.coreUp with
    | some s => s
    | none => match (upTo 32).find? d.mayHost with
      | some h => 0x80 + h
      | none => 0xFF
  let d1 := d.giveCore m.ptn m.new t
  if t = 0xFF then (d1.ptnFail m.ptn cause m.old, [])
  else
    let m' := { m with new := t % 0x80, tshared := decide (0x80 ≤ t) }
    (d1.freeTargets [m'], [m'])

def Dev.movesAgain (d : Dev) (cause : Nat) : List Move1 → Dev × List Move1
  | [] => (d, [])
  | m :: ms =>
    let a := d.moveAgain cause m
    let b := a.1.movesAgain cause ms
    (b.1, a.2 ++ b.2)

/-- R332 step 6, R333: loads end, the targets restart, the step times are shown. A partition with a target that has failed meanwhile is
planned again within the same re-map (R338). -/
def Dev.remapRestart (d : Dev) : Dev :=
  match d.ptn.cur with
  | none => d
  | some r =>
    let dead := r.moves.filter (fun (m : Move1) => !d.coreUp m.new)
    let late : Move1 → Bool := fun m => dead.any (fun x => decide (x.ptn = m.ptn))
    let fence := (r.planned - r.at_) / 10
    let load := (d.now - r.planned) / 10
    let total := r.det + fence + load
    let d0 := d.restartAll total r.cause (r.moves.filter (fun m => !late m))
    if dead = [] then
      let d2 := (((d0.wrN (ptnReg 0x20) r.det).wrN (ptnReg 0x24) fence).wrN (ptnReg 0x28) load).wrN (ptnReg 0x2C) total
      let who := match (r.moves.map (fun m => m.ptn)).eraseDups with | [] => 0xFF | [p] => p | _ => 0xFE
      let d3 := ((d2.event (ptnReg 0x10) 1).report 0x0F 6 0 who total).teleMake 4 3 0x0F 0xFF 0
        (leBytes 4 r.det ++ leBytes 4 fence ++ leBytes 4 load ++ leBytes 4 total)
      (({ d3 with ptn := { d3.ptn with cur := none } }).planAll).ptnRegs.remapHolds
    else
      let a := d0.movesAgain r.cause dead
      let ms := (r.moves.filter (fun m => late m && d.coreUp m.new) ++ a.2).filter (fun (m : Move1) => decide ((a.1.ptnAt m.ptn).state ≠ PtnState.failed))
      ({ a.1 with ptn := { a.1.ptn with cur := some { r with moves := ms } } }).ptnRegs.remapHolds

/-- R336: the re-stage of a partition onto its new extent ends. -/
def Dev.restageDone (d : Dev) (p : Nat) : Dev :=
  let moving := match d.ptn.cur with | some r => r.moves.any (fun m => decide (m.ptn = p)) | none => false
  if (d.ptnAt p).state = .restage ∧ moving = false then
    (((d.restagePtn p).ptnState p .service).notice p (4 + 256 * 2 + 2 ^ 24 * 0xFF + 65536 * 0xFF + 2 ^ 32 * (d.ptn.remaps % 2 ^ 32)) 0).planAll.ptnRegs
  else d

/-- R340: the incoming partition goes on from its save slot. One that was reset while saved is idle; one that stopped with an error is still
in the ERROR state, which no RESUME leaves (R110). DESIGN CHOICE (log 140): the spec names neither case. -/
def Dev.sliceIn (d : Dev) (c : Nat) (t : TShare) : Dev :=
  if t.otherReset then d
  else match t.otherErr with
    | some e => (d.coreUpd c (fun x => { x with st := .error, errcode := e.1 })).wrN (tenReg c 0x24) e.2
    | none => d.tenResume c

/-- R340: the quantum of a shared core expires: pre-empt, swap the store, resume. -/
def Dev.timeShareSwitch (d : Dev) (c : Nat) : Dev :=
  match Tab.get none d.ptn.tshare c with
  | none => d
  | some t =>
    let d1 := (d.tenPreempt c).preemptSaved c
    let d2 := d1.storeOut t.running c
    let t' : TShare := { running := t.other, other := t.running, otherLock := (d2.coreAt c).lock, otherPc := d2.pc c, otherSave := d2.saveBase c,
                         otherReset := false, otherErr := d2.errorOf c }
    let d3 := { d2 with ptn := { d2.ptn with tshare := Tab.set none d2.ptn.tshare c (some t') } }
    let d4 := if t.otherReset then d3.csZero c else d3.storeIn t.other c
    let d5 := (((d4.coreSet c ((d4.coreAt c).fresh t.otherLock)).wrN (tenReg c 0x18) (t.otherSave % 2 ^ 32)).wrN (tenReg c 0x1C) (t.otherSave / 2 ^ 32)).setPc c t.otherPc
    (d5.sliceIn c t).event (ptnReg 0x10) 5

end Sys2Proof
end

