-- ==== Sys2Proof/Machine/Telemetry.lean ====
section
/-! DEFINITION. Telemetry (chapter 19): the offer of records to the paths, the overload rules, alarms, RECV buffers, summaries. -/

namespace Sys2Proof

/-- The bytes of a record with its header (R478). -/
def TelRec.bytes (r : TelRec) : List Byte :=
  padTo r.len (leBytes 1 r.rank ++ leBytes 1 1 ++ leBytes 2 r.len ++ leBytes 4 r.seq ++ r.time.bytes ++ leBytes 2 r.typ ++ leBytes 1 r.source ++
    leBytes 1 r.partition ++ leBytes 2 r.inst ++ leBytes 2 0 ++ r.payload)

/-- A numeric dictionary entry, with its default. -/
def Dev.dnum (d : Dev) (index sb dflt : Nat) : Nat :=
  match d.dictRaw index sb with
  | [] => dflt
  | bs => leNat bs

def Dev.path (d : Dev) (p : Nat) : TelPath := Tab.get {} d.tel.path p

def Dev.pathSet (d : Dev) (p : Nat) (x : TelPath) : Dev := { d with tel := { d.tel with path := Tab.set {} d.tel.path p x } }

/-- R482: does path p carry rank r? Path 2, CAN, carries alarms only; ranks 0 and 5 are always carried by the others. -/
def Dev.carries (d : Dev) (p r : Nat) : Bool :=
  if p = 2 then decide (r = 0) else decide (r = 0) || decide (r = 5) || bit (d.dnum 0x2040 2 0xFFFFFFFF) (8 * p + r)

/-- The bytes of a path's queue (R482). -/
def pathCap (p : Nat) : Nat := if p = 3 then 65536 else 262144

/-- The bytes of the queued records of ranks 1 to 4: alarms and summaries have a reservation of their own (R484). -/
def queueBytes (q : List TelRec) : Nat := ((q.filter (fun r => decide (r.rank ≠ 0) && decide (r.rank ≠ 5))).map TelRec.len).foldl (· + ·) 0

/-- R484: a record that goes ahead of a queue: alarms and summaries stand first, in order of SEQ. -/
def teleAhead (r : TelRec) (q : List TelRec) : List TelRec :=
  let first : TelRec → Bool := fun x => (decide (x.rank = 0) || decide (x.rank = 5)) && decide (x.seq ≤ r.seq)
  q.takeWhile first ++ [r] ++ q.dropWhile first

/-- Count a drop of a rank on a path. -/
def TelPath.dropped (x : TelPath) (r : Nat) : TelPath := { x with drop := Tab.set 0 x.drop r (stick32 (Tab.get 0 x.drop r + 1)) }

/-- Remove the newest queued record of rank r. -/
def dropNewest (r : Nat) (q : List TelRec) : Option (List TelRec) :=
  let n := (q.reverse.takeWhile (fun x => decide (x.rank ≠ r))).length
  if n = q.length then none else some (q.eraseIdx (q.length - 1 - n))

/-- R485: make room for `need` bytes of a record of rank `rank`: newest records of higher ranks go, rank 4 first. -/
def TelPath.room (cap need rank : Nat) : Nat → TelPath → TelPath × Bool
  | 0, x => (x, decide (queueBytes x.queue + need ≤ cap))
  | fuel + 1, x =>
    if queueBytes x.queue + need ≤ cap then (x, true)
    else
      match [4, 3, 2, 1].find? (fun r => decide (rank < r) && (dropNewest r x.queue).isSome) with
      | some r => TelPath.room cap need rank fuel (({ x with queue := (dropNewest r x.queue).getD [] } : TelPath).dropped r)
      | none => (x, false)

/-- R482, R485: offer a record of rank 1 to 4 to one path. -/
def Dev.offer (d : Dev) (r : TelRec) (p : Nat) : Dev :=
  let x := d.path p
  if x.up = false then d.pathSet p { x with notOffered := stick32 (x.notOffered + 1) }
  else if d.carries p r.rank then
    let m := TelPath.room (pathCap p) r.len r.rank x.queue.length x
    if m.2 then d.pathSet p { m.1 with queue := m.1.queue ++ [r] } else d.pathSet p (m.1.dropped r.rank)
  else d

/-- R485: the oldest record produced is offered to each path. -/
def Dev.teleRecord (d : Dev) : Dev :=
  match d.tel.fresh with
  | [] => d
  | r :: rs => ((((({ d with tel := { d.tel with fresh := rs } }).offer r 0).offer r 1).offer r 2).offer r 3)

/-! ### Alarms (R480, R481, R484) -/

/-- The error register 0x1001 (R390). -/
def Dev.errReg (d : Dev) : Nat :=
  let b2 := !d.pwr.railHeld.isEmpty || d.pwr.saving.isSome
  let b3 := !d.pwr.hot.isEmpty
  let b4 := d.dict.canPassive || d.dict.canBusOff
  let b7 := d.erl.slots.any (fun kv => decide (2 ≤ kv.2.cls))
  b2n (b2 || b3 || b4 || b7) + 4 * b2n b2 + 8 * b2n b3 + 16 * b2n b4 + 128 * b2n b7

/-- The SOURCE and PARTITION of an alarm record (log 48). -/
def alarmSource (code inst : Nat) : Nat :=
  if code = 1 ∨ code = 2 ∨ code = 6 then 9 else if code = 3 then 0x12 else if code = 4 then inst else if code = 5 ∨ code = 7 then 0x10
  else if code = 8 then 0x0E else if code = 9 then 0x0F else 0x0B

/-- The alarm record of a slot (R480). -/
def Alarm.toRec (a : Alarm) (code inst : Nat) : TelRec :=
  { rank := 0, typ := code, source := alarmSource code inst, partition := if code = 9 then inst else 0xFF, inst := inst, seq := a.seq, time := a.time,
    payload := leBytes 1 (b2n a.set) ++ leBytes 1 0 ++ leBytes 2 (stick 0xFFFF a.count) ++ leBytes 2 a.emcy ++ leBytes 2 0 ++ leBytes 4 a.detail ++ leBytes 4 0 }

/-- R480: the identities of the alarm table. -/
def alarmExists (code inst : Nat) : Bool :=
  decide (1 ≤ code) && decide (code ≤ 10) &&
  decide (inst < (if code = 1 ∨ code = 2 ∨ code = 6 ∨ code = 9 then 32 else if code = 4 then 256 else if code = 7 then 16 else if code = 10 then 64 else 1))

/-- The slot still to be sent with the lowest SEQ. A slot that changed while no path was up waits for one (R482, R486). -/
def Dev.alarmDue (d : Dev) : Option (Nat × Alarm) :=
  d.tel.alarms.foldl (fun m kv => if kv.2.pend ≠ 0 then (match m with
    | some x => if kv.2.seq < x.2.seq then some kv else m
    | none => some kv) else m) none

/-- R196: an accepted PAUSE holds the management port's transmitter. -/
def Dev.mgmtHeld (d : Dev) : Bool := decide (d.now < d.dict.mgmtPause)

/-- R196: a frame or datagram of the management port: sent, or held while a received PAUSE lasts. -/
def Dev.mgmtOut (d : Dev) (o : Out) : Dev :=
  if d.mgmtHeld || !d.dict.mgmtQ.isEmpty then { d with dict := { d.dict with mgmtQ := d.dict.mgmtQ ++ [o] } } else d.emit o

def Dev.emitAll (d : Dev) : List Out → Dev
  | [] => d
  | o :: os => (d.emit o).emitAll os

/-- R196: the pause is over: what it held goes out. -/
def Dev.mgmtDrain (d : Dev) : Dev :=
  if d.mgmtHeld || d.dict.mgmtQ.isEmpty then d else { d with dict := { d.dict with mgmtQ := [] } }.emitAll d.dict.mgmtQ

/-- R483: a datagram of records, with the path's next datagram number. -/
def Dev.teleDgram (d : Dev) (rs : List TelRec) : Dev :=
  let x := d.path 1
  (d.pathSet 1 { x with dgram := (x.dgram + 1) % 2 ^ 32 }).mgmtOut
    (.teleUdp (d.dnum 0x2031 1 49640) (padTo 18 (d.dictRaw 0x2040 1))
      ([0x45, 0x54, 1] ++ leBytes 1 rs.length ++ leBytes 4 x.dgram ++ (rs.map TelRec.bytes).flatten))

/-- R484: an alarm or a summary goes out on path p ahead of every other record: on PCIe into the next buffer, on the management path once no
received PAUSE holds it. -/
def Dev.teleFirst (d : Dev) (p : Nat) (r : TelRec) : Dev :=
  if (d.path p).up = false then d
  else if p = 0 || (decide (p = 1) && d.mgmtHeld) then d.pathSet p { d.path p with queue := teleAhead r (d.path p).queue }
  else if p = 1 then d.teleDgram [r]
  else if p = 3 then d.emit (.tele 3 [r])
  else d

/-- R484: a pending slot is sent on every up path that is to carry it, as EMCY on CAN (R481), and a SET enters 0x1003. -/
def Dev.alarmSend (d : Dev) : Dev :=
  match d.alarmDue with
  | none => d
  | some (k, a) =>
    let code := k / 65536
    let inst := k % 65536
    let r := a.toRec code inst
    let others := d.tel.alarms.any (fun kv => decide (kv.1 ≠ k) && kv.2.set)
    let emcy := if !a.set && !others then 0 else a.emcy
    let hist := if a.set && decide (a.count ≠ 0) then ((a.emcy + 65536 * code) :: d.tel.errHist).take 16 else d.tel.errHist
    let d0 := { d with tel := { d.tel with alarms := Tab.set {} d.tel.alarms k { a with count := 0, pend := 0 }, errHist := hist } }
    let d1 := if bit a.pend 0 then d0.teleFirst 0 r else d0
    let d2 := if bit a.pend 1 then d1.teleFirst 1 r else d1
    let d3 := if bit a.pend 2 && (d.path 2).up then d2.emit (.can (0x80 + bits (d.rdN (pwrBase + 0x1C)) 10 4)
        (leBytes 2 emcy ++ leBytes 1 d.errReg ++ leBytes 2 code ++ leBytes 1 inst ++ leBytes 1 (b2n a.set) ++ leBytes 1 (stick 255 a.count))) else d2
    if bit a.pend 3 then d3.teleFirst 3 r else d3

/-! ### Paths coming up and going down (R482, R486) -/

/-- R480, R486: every slot that is SET is to be sent again, with COUNT unchanged. -/
def Dev.alarmsAgain (d : Dev) (p : Nat) : Dev :=
  { d with tel := { d.tel with alarms := Tab.mapAll ({} : Alarm) d.tel.alarms (fun _ a => if a.set then { a with pend := setBit a.pend p } else a) } }

/-- The summary record of a path (R486), and its counts cleared. DESIGN CHOICE (log 143): CAN, which carries alarms only (R482), has none. -/
def Dev.summary (d : Dev) (p : Nat) : Dev :=
  let x := d.path p
  let four := fun (t : Tab Nat) => (upTo 4).flatMap (fun i => leBytes 4 (Tab.get 0 t (i + 1)))
  let body := leBytes 4 (d.dnum 0x2040 3 1000) ++ leBytes 4 x.firstSeq ++ four x.drop ++ four x.prod ++
    leBytes 4 x.notOffered ++ leBytes 4 0
  let r : TelRec := { rank := 5, typ := 1, source := 0x12, seq := d.tel.seq, time := d.stamp, payload := body }
  let next := (d.tel.seq + 1) % 2 ^ 32
  if p = 2 then d
  else (({ d with tel := { d.tel with seq := next } }).pathSet p { x with drop := [], prod := [], notOffered := 0, firstSeq := next }).teleFirst p r

/-- R486: a path comes up: a summary at once, and every standing alarm. -/
def Dev.pathUp (d : Dev) (p : Nat) : Dev :=
  if (d.path p).up then d else ((d.pathSet p { d.path p with up := true }).summary p).alarmsAgain p

/-- R482: a path goes down: it holds nothing. -/
def Dev.pathDown (d : Dev) (p : Nat) : Dev :=
  let d1 := d.pathSet p { d.path p with up := false, queue := [] }
  { d1 with tel := { d1.tel with alarms := Tab.mapAll ({} : Alarm) d1.tel.alarms (fun _ a => { a with pend := clrBit a.pend p }) } }

/-! ### Counter records (R478) -/

/-- 0x6020 subindexes 0x01 to 0x0A: packets delivered, scored, verdicts by action, policer drops, score refusals. -/
def Dev.flowCounters (d : Dev) : List Nat :=
  [d.flow.nextPkt - 1, d.rd64 (treBase + 0x1000)] ++ (upTo 6).map (fun k => d.rd64 (visBase + 0x3000 + 8 * k)) ++
  [(d.flow.pol.map (fun kv => kv.2.red)).foldl (· + ·) 0, d.rd64 (treBase + 0x1018)]

def Dev.portRecords (d : Dev) : List Nat → Dev
  | [] => d
  | n :: ns =>
    (if d.portExists n then d.teleMake 2 2 9 0xFF n ((upTo 25).flatMap (fun k => leBytes 8 (d.rd64 (prt n (0x100 + 8 * k))))) else d).portRecords ns

def Dev.ptnRecords (d : Dev) : List Nat → Dev
  | [] => d
  | p :: ps =>
    (if (d.ptnAt p).state = .service then
      d.teleMake 2 3 0x0F p 0 (leBytes 8 (d.rdN (flwBase + 0x800 + 4 * p)) ++ leBytes 8 (d.rdN (memReg 0x110 + 0x20 * p)) ++
        leBytes 8 (d.rdN (memReg 0x114 + 0x20 * p)) ++ leBytes 8 (d.ptnAt p).stat ++
        leBytes 8 ((((d.ptnAt p).order.filter (fun c => decide (c < 32))).map (fun c => d.rdN (tenReg c 0x40))).foldl (· + ·) 0))
     else d).ptnRecords ps

/-- The place in `Pwr.temps` of a subindex of 0x6000: F, B, the tensor dies, the HBM stacks, the model-store stacks. -/
def tempIx (sb : Nat) : Nat := if sb = 1 then 21 else if sb = 2 then 20 else sb - 3

/-- R478, R486: a summary period: the counter records are produced, then every up path sends its summary. -/
def Dev.summaryPeriod (d : Dev) : Dev :=
  let d1 := d.teleMake 2 1 0x12 0xFF 0 (d.flowCounters.flatMap (leBytes 8))
  let d2 := (d1.portRecords (upTo 32)).ptnRecords (upTo 32)
  let d3 := d2.teleMake 2 4 0x10 0xFF 0 ((upTo 8).flatMap (fun i => leBytes 4 (d.rdN (pwrBase + 0x30 + 4 * i))) ++
    (upTo 22).flatMap (fun i => leBytes 2 (wrapI 16 (d.pwr.temps.getD (tempIx (i + 1)) 0))))
  (upTo 4).foldl (fun (x : Dev) p => if (x.path p).up then x.summary p else x) d3

/-! ### Sending (R483) -/

/-- The records that fit `room` bytes, and the rest. -/
def fitRecs : Nat → List TelRec → List TelRec × List TelRec
  | _, [] => ([], [])
  | room, r :: rs =>
    if r.len ≤ room then
      let x := fitRecs (room - r.len) rs
      (r :: x.1, x.2)
    else ([], r :: rs)

/-- R483: what UDP and USB send when the device has nothing else to do: one datagram of at most 1,400 bytes, one burst. -/
def Dev.teleSend (d : Dev) : Dev :=
  let d0 := d.mgmtDrain
  let u := d0.path 1
  let f := fitRecs 1392 u.queue
  let d1 := if u.up && !d0.mgmtHeld && !f.1.isEmpty then (d0.pathSet 1 { u with queue := f.2 }).teleDgram f.1 else d0
  let s := d1.path 3
  if s.up && !s.queue.isEmpty then (d1.pathSet 3 { s with queue := [] }).emit (.tele 3 s.queue) else d1

/-- R483: an alarm ends the buffer it is written into. -/
def cutAlarm : List TelRec → List TelRec × List TelRec
  | [] => ([], [])
  | r :: rs =>
    if r.rank = 0 then ([r], rs)
    else
      let x := cutAlarm rs
      (r :: x.1, x.2)

/-- R483: the records that go into a buffer of `room` bytes, and the rest. -/
def bufRecs (room : Nat) (q : List TelRec) : List TelRec × List TelRec :=
  let f := fitRecs room q
  let c := cutAlarm f.1
  (c.1, c.2 ++ f.2)

/-- R483: is buffer number `x` the oldest that the PF's queues hold open? -/
def Dev.oldestRecv (d : Dev) (x : Nat) : Bool :=
  (upTo 16).all (fun q => match (Tab.get {} d.host.dma q).recv with | (_, y) :: _ => decide (x ≤ y) | [] => true)

/-- R367, R483: the oldest open RECV buffer, of PF queue q, completes: its records are written back to back, the tail is zero, and a
buffer that holds an alarm signals PF vector 13. The queue completes one descriptor at a time. -/
def Dev.recvComplete (d : Dev) (q : Nat) : Dev :=
  let x := Tab.get {} d.host.dma q
  match x.recv with
  | [] => d
  | (ds, o) :: rest =>
    let f := bufRecs ds.len (d.path 0).queue
    if f.1.isEmpty || x.run.isSome || !d.oldestRecv o then d
    else
      let bs := (f.1.map TelRec.bytes).flatten
      let d1 := (d.pathSet 0 { d.path 0 with queue := f.2 }).emit (.hostWrite none ds.haddr (padTo ds.len bs))
      let d2 := { d1 with host := { d1.host with dma := Tab.set {} d1.host.dma q { x with recv := rest, run := some { desc := ds, status := 0, bytes := bs.length } } } }
      if f.1.any (fun r => decide (r.rank = 0)) then d2.msixRaise none 13 else d2

/-- A firmware trace or log record is not produced while firmware production is held (R487). -/
def Dev.fwTele (d : Dev) (rank typ source partition inst : Nat) (payload : List Byte) : Dev :=
  if d.tel.fwHeld then d else d.teleMake rank typ source partition inst payload

end Sys2Proof
end

