-- ==== Sys2Proof/Machine/TimeUnit.lean ====
section
/-! DEFINITION. The time unit (chapter 11): reference, sources, the quality states, slew and step, PPS_OUT, leap seconds and the
time registers. -/

namespace Sys2Proof

def tmuReg (off : Nat) : Nat := tmuBase + off

def Dev.tmuCount (d : Dev) (k : Nat) : Dev := d.count64 (tmuReg (0x100 + 8 * k)) 1

/-- LEAP61 and LEAP59 as bits [17:16] of TMU_UTCOFF. -/
def leapBits (l : Int) : Nat := if l = 1 then 1 else if l = -1 then 2 else 0

/-- The register copies of the unit's state: TMU_STAT, and the announced leap second in TMU_UTCOFF (R297). -/
def Dev.tmuRegs (d : Dev) : Dev :=
  let t := d.tmu
  let q := fun (k : Nat) => b2n (Tab.get {} t.src k).qualified
  (d.wrN (tmuReg 0x38) (putBits (d.rdN (tmuReg 0x38)) 17 16 (leapBits t.leap))).wrN (tmuReg 0x0C) (t.state.code + 4 * t.source + 1024 * b2n (decide (t.slew ≠ 0)) + 2048 * b2n t.unknown + 4096 * b2n t.refIn +
    65536 * q 1 + 131072 * q 2 + 262144 * q 3 + 2 ^ 24 * t.epoch)

def Dev.tmuUpd (d : Dev) (f : Tmu → Tmu) : Dev := ({ d with tmu := f d.tmu }).tmuRegs

/-- A change of STATE sets STATECHG; entering FREERUN from HOLDOVER and leaving it move the FREERUN alarm (R290, R480). -/
def Dev.tmuState (d : Dev) (s : TimeState) : Dev :=
  if d.tmu.state = s then d
  else
    let old := d.tmu.state
    let d1 := (d.tmuUpd (fun t => { t with state := s, everLocked := t.everLocked || decide (s = .locked) })).event (tmuReg 0x10) 1
    if s = .freerun then d1.alarmSet 8 0 true 0 false
    else if old = .freerun then d1.alarmSet 8 0 false 0 false
    else d1

/-! ### Sources (R284, R285) -/

/-- R284: the first qualified source of TMU_PRIO. -/
def Dev.selSource (d : Dev) : Nat :=
  let p := d.rdN (tmuReg 0x08)
  let l := [bits p 2 0, bits p 5 3, bits p 8 6].takeWhile (fun s => decide (s ≠ 0))
  (l.find? (fun s => (Tab.get {} d.tmu.src s).qualified)).getD 0

/-- R281, R291: the selection follows the qualifications; state, bound and frequency stay until the new source's next measurement. -/
def Dev.reselect (d : Dev) : Dev :=
  let s := d.selSource
  if s = d.tmu.sel then d
  else
    (d.tmuUpd (fun t => { t with sel := s, source := if s = 0 ∧ t.source = 4 then 4 else s })).event (tmuReg 0x10) 2

/-- BOARDERR, HOLDRATE and the registers of R290, in ns. -/
def Dev.boardErr (d : Dev) : Nat := bits (d.rdN (tmuReg 0x58)) 31 16
def Dev.lockThr (d : Dev) : Nat := bits (d.rdN (tmuReg 0x5C)) 31 16
def Dev.stepThr (d : Dev) : Nat := d.rdN (tmuReg 0x2C)
def Dev.holdRate (d : Dev) : Nat := if d.tmu.refIn then bits (d.rdN (tmuReg 0x30)) 15 0 else bits (d.rdN (tmuReg 0x30)) 31 16

/-- Rounding a quarter-nanosecond offset to ns: its absolute value, rounded up, so that a bound is never understated. -/
def nsUp (q : Int) : Nat := (q.natAbs + 3) / 4

/-- R290: the growth of the bound since the latest good measurement, in 10^−10 ns. -/
def Dev.growth (d : Dev) : Nat := d.tmu.grown + d.holdRate * (d.now - d.tmu.goodAt)

/-- R290: HOLDRATE changes: what has grown at the old rate stands, to the end of the millisecond, and the new rate holds from there. -/
def Dev.foldGrowth (d : Dev) : Dev :=
  let ms := (d.now / msec + 1) * msec
  d.tmuUpd (fun t => { t with grown := t.grown + d.holdRate * (ms - t.goodAt), goodAt := ms })

/-- R290: the bound of a state's own rule, in ns. The SRCB and the offsets are those of the source last followed (R291). -/
def Dev.stateBound (d : Dev) : Nat :=
  let t := d.tmu
  match t.state with
  | .locked => t.offSrcb + d.boardErr + t.offs.foldl max 0
  | .stepping => (match t.pend with
    | some s => nsUp s.delta + t.offSrcb + d.boardErr
    | none => t.goodBound)
  | _ => if t.landed then t.goodBound else t.goodBound + (d.growth + 9999999999) / 10000000000

/-- R290: the bound applied: the lower of the state's rule and |offset| + SRCB + BOARDERR of the latest good measurement, while a
source is selected. -/
def Dev.boundNow (d : Dev) : Nat :=
  match d.tmu.offs with
  | o :: _ => if d.tmu.sel = 0 then d.stateBound else min d.stateBound (o + d.tmu.offSrcb + d.boardErr)
  | [] => d.stateBound

def Dev.setBound (d : Dev) (b : Nat) : Dev :=
  if d.tmu.unknown then d else d.tmuUpd (fun t => { t with err := min 0xFFFFFFFE b })

/-- R282, R290: each millisecond the bound is recomputed as it holds at the millisecond's end; HOLDOVER passes to FREERUN above
TMU_FRLIMIT. -/
def Dev.errorBound (d : Dev) : Dev :=
  let ahead := ({ d with now := d.now + msec } : Dev).boundNow
  let d2 := d.setBound ahead
  if d.tmu.state = .holdover ∧ d.rdN (tmuReg 0x34) < ahead then d2.tmuState .freerun else d2

/-! ### Steps and slews (R292 to R294) -/

/-- R293: may the policy step now? -/
def Dev.mayStep (d : Dev) : Bool :=
  let pol := bits (d.rdN (tmuReg 4)) 3 2
  d.tmu.unknown || decide (pol = 1) || (decide (pol = 0) && !d.tmu.everLocked)

/-- R292: an offset (quarter ns) goes to the phase term. -/
def Dev.slewBy (d : Dev) (off : Int) : Dev := d.tmuUpd (fun t => { t with slew := off * 65536 })

/-- R293: a step is scheduled, or its Δ replaced (R294). -/
def Dev.schedStep (d : Dev) (off : Int) : Dev :=
  match d.tmu.pend with
  | some s => d.tmuUpd (fun t => { t with pend := some { s with delta := off } })
  | none => (d.tmuUpd (fun t => { t with pend := some { delta := off, at_ := t.cnt, prev := t.state } })).tmuState .stepping

/-- R294: a pending step is cancelled: STATE returns to what it was. -/
def Dev.cancelStep (d : Dev) : Dev :=
  match d.tmu.pend with
  | some s => ((d.tmuUpd (fun t => { t with pend := none })).tmuState s.prev).tmuCount 1
  | none => d

/-- R290: the bound that applies at a measurement of |offset| `mag` and source bound `srcb`: the growth starts anew from it. -/
def Dev.boundAt (d : Dev) (mag srcb : Nat) : Dev :=
  let b := min d.stateBound (mag + srcb + d.boardErr)
  (d.tmuUpd (fun t => { t with goodBound := b, grown := 0, goodAt := d.now, landed := false })).setBound b

/-- R290, R291: the source bound and the |offset| of a measurement take their place; those of another source go. -/
def Dev.noteOffset (d : Dev) (s mag srcb : Nat) : Dev :=
  d.tmuUpd (fun t => { t with offs := if t.offSrc = s then (mag :: t.offs).take 16 else [mag], offSrc := s, offSrcb := srcb })

/-- R293, R294: does a measurement of `off` schedule a step or replace a pending Δ? While the bound is UNKNOWN the first one schedules
whatever its size; while a step is pending only one above STEP_THRESH replaces it. -/
def Dev.steps (d : Dev) (off : Int) : Bool :=
  let big := decide (4 * d.stepThr < off.natAbs)
  if d.tmu.pend.isSome then big else d.tmu.unknown || (big && d.mayStep)

/-- R292: a measurement is removed by slewing; one above STEP_THRESH sets SLEWLONG. A pending step is cancelled (R294). -/
def Dev.slewMeas (d : Dev) (off : Int) : Dev :=
  let d1 := if d.tmu.pend.isSome then d.cancelStep else d
  (if 4 * d.stepThr < off.natAbs then d1.event (tmuReg 0x10) 4 else d1).slewBy off

/-- R290, R292: the state after a slewed good measurement of |offset| `mag`, and the frequency term, which only LOCKED moves. While the
bound is UNKNOWN no state is entered (log 105). -/
def Dev.lockMeas (d : Dev) (mag : Nat) : Dev :=
  if d.tmu.unknown then d
  else if mag ≤ d.lockThr then
    let f := Config.servoFreq d.free
    (({ d with free := d.free + 1 } : Dev).wrN (tmuReg 0x6C) (wrapI 32 (satI f (-13107200000) 13107200000))).tmuState .locked
  else if d.tmu.state = .locked then d.tmuState .holdover
  else d

/-- R290, R292, R293: a good measurement of the selected source is applied: a step or a slew, the state, the bound. -/
def Dev.applyOffset (d : Dev) (off : Int) (srcb : Nat) : Dev :=
  (if d.steps off then d.schedStep off else (d.slewMeas off).lockMeas (nsUp off)).boundAt (nsUp off) srcb

/-- R279: TAI − UTC takes a value; TMU_EVENT.LEAP says that it changed. -/
def Dev.utcSet (d : Dev) (v : Int) : Dev :=
  let old := d.rdN (tmuReg 0x38)
  if old % 65536 = wrapI 16 v then d else (d.wrN (tmuReg 0x38) (putBits old 15 0 (wrapI 16 v))).event (tmuReg 0x10) 6

/-- The master the servo follows (R286). -/
def Dev.ptpMaster (d : Dev) : Option PtpMaster :=
  match d.tmu.servo.port with
  | some p => Tab.get none d.tmu.servo.heard p
  | none => none

/-- R279: what the selected PTP source announces: currentUtcOffset when valid, and a pending leap second. -/
def Dev.ptpUtc (d : Dev) : Dev :=
  match d.ptpMaster with
  | some m =>
    let d1 := d.tmuUpd (fun t => { t with leap := m.leap })
    (match m.utc with
      | some v => d1.utcSet v
      | none => d1)
  | none => d

/-- R285: a good measurement of source s: it counts toward qualification; when the source is selected it is applied. -/
def Dev.goodMeas (d : Dev) (s : Nat) (off : Int) (srcb : Nat) : Dev :=
  let x := Tab.get ({} : TimeSrc) d.tmu.src s
  let n := bits (d.rdN (tmuReg 0x5C)) 3 0
  let g := min 15 (x.good + 1)
  let d1 := d.tmuUpd (fun t => { t with src := Tab.set {} t.src s { x with good := g, qualified := x.qualified || decide (n ≤ g), srcb := srcb, bad := 0, last := d.now } })
  let d2 := d1.reselect
  if d2.tmu.sel = s then
    let q := min 0x7FFFFFFF (max (-0x80000000) (Int.tdiv off 4))
    let d3 := ((if s = 1 then d2.ptpUtc else d2).noteOffset s (nsUp off) srcb).wrN (tmuReg 0x68) (wrapI 32 q)
    d3.applyOffset off srcb
  else d2

/-- R285, R290, R294: source s meets its loss condition. The servo forgets the masters it heard when PTP is lost (log 104). -/
def Dev.sourceLoss (d : Dev) (s : Nat) : Dev :=
  let x := Tab.get ({} : TimeSrc) d.tmu.src s
  let d0 := d.tmuUpd (fun t => { t with src := Tab.set {} t.src s { x with qualified := false, good := 0 } })
  if x.qualified then
    let was := decide (d.tmu.sel = s)
    let d1 := (d0.event (tmuReg 0x10) 3).tmuCount 9
    let d2 := if was && d1.tmu.pend.isSome then d1.cancelStep else d1
    let d3 := (if s = 1 then d2.tmuUpd (fun t => { t with servo := {} }) else d2).reselect
    if was && decide (d3.tmu.sel = 0) && decide (d3.tmu.state = .locked) then d3.tmuState .holdover else d3
  else d0

/-- R285, R286: firmware writes TMU_MEAS_HI: a PTP offset of 48 bits, signed, in quarter ns, with its EPOCH; `extra` is what the
source bound takes beyond PTPERR (the TLV's inaccuracy), `cls` the grandmaster's clockClass. -/
def Dev.ptpMeasurement (d : Dev) (who : Req) (off epoch extra cls : Nat) : Dev :=
  match who with
  | .fw _ =>
    let c := d.rdN (tmuReg 0x64)
    let d0 := (d.wrN (tmuReg 0x70) (off % 2 ^ 32)).wrN (tmuReg 0x74) (off / 2 ^ 32 % 65536 + 65536 * (epoch % 256))
    if bit (d.rdN (tmuReg 4)) 5 = false then d0
    else if epoch % 256 ≠ d.tmu.epoch then d0.tmuCount 8
    else if bits c 7 0 < cls then d0.sourceLoss 1
    else
      let srcb := bits (d.rdN (tmuReg 0x54)) 15 0 + (if bits c 17 16 = 2 then extra else 0) + (if bit c 23 then 16 else 0)
      (d0.tmuCount 7).goodMeas 1 (sext 48 off) srcb
  | .pf => d.accErr none (tmuReg 0x74) 15 true 4
  | .vf n => d.accErr (some n) (tmuReg 0x74) 15 true 3
  | .debug => d

/-- R287: a rising edge on PPS_IN at reported time `t` (quarter ns). -/
def Dev.ppsIn (d : Dev) (t : Nat) : Dev :=
  if bit (d.rdN (tmuReg 4)) 6 = false then d
  else
    let e := (t : Int) - sext 32 (d.rdN (tmuReg 0x48))
    let fr := e % (qsec : Int)
    let off : Int := if 2 * fr < qsec then -fr else qsec - fr
    let win := 4000 * bits (d.rdN (tmuReg 0x44)) 15 0
    let x := Tab.get ({} : TimeSrc) d.tmu.src 2
    let rej := fun (y : Dev) => (y.tmuCount 4).event (tmuReg 0x10) 7
    let soon := match d.tmu.ppsLast with
      | some l => decide (d.now < l + 10000000000)
      | none => false
    if soon || (x.qualified && decide (win < off.natAbs)) then rej d
    else if d.tmu.unknown then d
    else ((d.tmuUpd (fun t => { t with ppsLast := some d.now })).tmuCount 3).goodMeas 2 off (bits (d.rdN (tmuReg 0x54)) 31 16)

/-- Days from 1970-01-01 to January 1 of a year of the Gregorian calendar. -/
def daysToYear (y : Nat) : Nat :=
  let n := fun (k : Nat) => 365 * k + k / 4 - k / 100 + k / 400
  n (y - 1) - n 1969

/-- R288: does an IRIG-B format B00x carry control functions, and does it carry a BCD year? -/
def irigControl (fmt : Nat) : Bool := [0, 1, 4, 5].contains fmt
def irigHasYear (fmt : Nat) : Bool := [4, 5, 6, 7].contains fmt

/-- R288: the year of a frame: the extension's with IRIGEXT, else the BCD field's where the format carries one, else TMU_IRIGYEAR. A
two-digit year is of the century from 2000 (log 106). -/
def Dev.irigYear (d : Dev) (f : IrigIn) : Nat :=
  if bit (d.rdN (tmuReg 4)) 8 ∨ irigHasYear f.fmt then 2000 + f.year % 100 else d.rdN (tmuReg 0x50) % 65536

/-- R288: the frame's time in seconds since 1970, in its own timescale: UTC, or local time with IRIGEXT. -/
def Dev.irigSecs (d : Dev) (f : IrigIn) : Nat := (daysToYear (d.irigYear f) + (f.day - 1)) * 86400 + f.sec

/-- R288: an IRIG-B frame, measured at the next on-time point at reported time `t`. With IRIGEXT a format without control functions
fails. R285: time quality 12 to 14 leaves the source not qualified, which is taken as its loss (log 107). -/
def Dev.irigFrame (d : Dev) (t : Nat) (f : IrigIn) : Dev :=
  let ctl := d.rdN (tmuReg 4)
  if bit ctl 7 = false then d
  else
    let ext := bit ctl 8
    let q' := if ext then f.q else 0
    let secs := d.irigSecs f
    let x := Tab.get ({} : TimeSrc) d.tmu.src 3
    let utc : Int := (secs : Int) - (if ext then f.offMin * 60 else 0)
    let inOrder := match d.tmu.irigPrev with
      | some p => decide (secs = p + 1)
      | none => true
    let bad := fun (y : Dev) =>
      let z := (y.tmuCount 6).event (tmuReg 0x10) 8
      let b := x.bad + 1
      let z1 := z.tmuUpd (fun u => { u with src := Tab.set {} u.src 3 { x with bad := b, good := 0 } })
      if 2 ≤ b ∨ q' = 15 then z1.sourceLoss 3 else z1
    let d0 := d.tmuUpd (fun u => { u with irigPrev := some secs })
    if f.ok = false ∨ q' = 15 ∨ inOrder = false ∨ (ext = true ∧ irigControl f.fmt = false) then bad d0
    else
      let d1 := d0.tmuCount 5
      let d2 := if ext ∧ f.leap ≠ 0 then d1.tmuUpd (fun u => { u with leap := f.leap }) else d1
      if 12 ≤ q' then d2.sourceLoss 3
      else
        let tai : Int := (utc + 1 + sext 16 (d.rdN (tmuReg 0x38))) * qsec + sext 32 (d.rdN (tmuReg 0x4C))
        let srcb := if q' = 0 then bits (d.rdN (tmuReg 0x58)) 15 0 else 10 ^ (q' - 1)
        d2.goodMeas 3 (tai - t) srcb

/-- R289: firmware sets the time: accepted only while no source is selected and with a bound of at least 1 ms; the Bool says so. `q` is
the time in quarter ns. A set is a measurement with SOURCE 4, of no source that qualifies: it locks nothing. -/
def Dev.timeSet (d : Dev) (q bound : Nat) : Dev × Bool :=
  if d.tmu.sel ≠ 0 ∨ bound < 1000000 then (d, false)
  else
    let off : Int := (q : Int) - d.tmu.cnt
    let d1 := d.tmuUpd (fun t => { t with source := 4, offs := [], offSrc := 4, offSrcb := bound })
    let big := decide (4 * d.stepThr < off.natAbs)
    if d.tmu.unknown || (big && d.mayStep) then ((d1.schedStep off).boundAt (nsUp off) bound, true)
    else
      let d2 := d1.slewMeas off
      ((d2.tmuUpd (fun t => { t with goodBound := nsUp off + bound + d.boardErr, grown := 0, goodAt := d.now, landed := false })).setBound
        (nsUp off + bound + d.boardErr), true)

/-- The second boundary on which a pending step lands (R294). -/
def PendStep.boundary (s : PendStep) : Nat := roundUp (s.at_ + 40000000) qsec

/-- R294: the scheduled step lands on its boundary: the counter jumps by Δ, EPOCH rises, no pulse comes. -/
def Dev.stepLand (d : Dev) : Dev :=
  match d.tmu.pend with
  | none => d
  | some s =>
    let b := s.boundary
    let ns : Int := Int.tdiv s.delta 4
    let wasUnknown := d.tmu.unknown
    let bound := d.tmu.offSrcb + d.boardErr + d.lockThr
    let back : TimeState := if s.prev = .freerun then .freerun else .holdover
    let d1 := d.tmuUpd (fun t => { t with cnt := b, epoch := (t.epoch + 1) % 256, slew := 0, frac := 0 })
    let det := if ns.natAbs < 2 ^ 31 then wrapI 32 ns else wrapI 32 (satI (Int.tdiv ns 1000000000) (-(2 ^ 31 - 1)) (2 ^ 31 - 1))
    let d2 := (d1.report 0x0E (if ns.natAbs < 2 ^ 31 then 1 else 2) 0 0xFF det).event (tmuReg 0x10) 0
    let d3 := d2.tmuUpd (fun t => { t with cnt := ((b : Int) + s.delta).toNat, pend := none, unknown := false, lastDelta := s.delta, goodBound := bound, grown := 0, goodAt := d.now, landed := true, err := min 0xFFFFFFFE bound })
    let d4 := ((d3.tmuState back).tmuCount 0)
    let d5 := if bit (d.rdN (tmuReg 4)) 0 && !(bit (d.rdN (tmuReg 4)) 1 && wasUnknown) then d4.tmuCount 2 else d4
    d5.stepGroups (upTo 64)

/-! ### Reference, pulses, leap seconds, registers -/

/-- R283: the reference is lost: TUCLK changes to XTAL25. -/
def Dev.refLoss (d : Dev) : Dev :=
  if d.tmu.refIn then ((d.foldGrowth.tmuUpd (fun t => { t with refIn := false })).event (tmuReg 0x10) 5).tmuCount 10 else d

/-- R283: the reference has stayed in range for 10 s. -/
def Dev.refReturn (d : Dev) : Dev :=
  if d.tmu.refIn || bit (d.rdN (tmuReg 4)) 4 then d
  else ((d.foldGrowth.tmuUpd (fun t => { t with refIn := true })).event (tmuReg 0x10) 5).tmuCount 10

/-- R295: the pulse at a second boundary, offset by TMU_PPSOADJ: it is to stand for the WIDTH of now. -/
def Dev.ppsOut (d : Dev) : Dev :=
  let c := d.rdN (tmuReg 4)
  if bit c 0 && !(bit c 1 && d.tmu.unknown) && !d.tmu.ppsOut then
    (d.tmuUpd (fun t => { t with ppsOut := true, ppsUntil := d.now + bits (d.rdN (tmuReg 0x3C)) 8 0 * msec })).emit (.pin "PPS_OUT" true)
  else d

/-- R295: a pulse, once begun, runs its full width. -/
def Dev.ppsOutEnd (d : Dev) : Dev :=
  if d.tmu.ppsOut && decide (d.tmu.ppsUntil ≤ d.now) then (d.tmuUpd (fun t => { t with ppsOut := false })).emit (.pin "PPS_OUT" false) else d

/-- R279: TMU_UTCOFF changes at the end of the last UTC second of the day that a pending leap second names. -/
def Dev.leapSecond (d : Dev) : Dev :=
  let l := d.tmu.leap
  if l = 0 then d else (d.tmuUpd (fun t => { t with leap := 0 })).utcSet (sext 16 (d.rdN (tmuReg 0x38)) + l)

/-- The time configuration of 0x2020 takes effect (R279, R283, R284, R290): `off` is the register's offset. A new HOLDRATE starts from the
next millisecond, REFSEL forces the local oscillator, TMU_PRIO moves the selection; TAI − UTC comes from the dictionary unless the
selected PTP source gives it. -/
def Dev.timeCfg (d : Dev) (off v : Nat) : Dev :=
  if off = 0x08 then (d.wrN (tmuReg 0x08) v).reselect
  else if off = 0x04 then
    (let d1 := d.wrN (tmuReg 0x04) v
     if bit v 4 then d1.refLoss else d1)
  else if off = 0x30 then d.foldGrowth.wrN (tmuReg 0x30) v
  else if off = 0x38 then
    (let d1 := d.tmuUpd (fun t => { t with leap := if bit v 16 then 1 else if bit v 17 then -1 else 0 })
     if d.tmu.sel = 1 ∧ (d.ptpMaster.bind (fun m => m.utc)).isSome then d1 else d1.utcSet (sext 16 v))
  else d.wrN (tmuReg off) v

/-! ### The PTP slave clock of firmware (R286) -/

/-- The order of the best master clock algorithm: lower is better. -/
def PtpMaster.rank (m : PtpMaster) (port : Nat) : List Nat := [m.prio1, m.cls, m.acc, m.var, m.prio2, m.gm, m.steps, port]

/-- The port whose master is best (R286). -/
def Servo.best (s : Servo) : Option Nat :=
  (s.heard.foldl (fun (b : Option (Nat × PtpMaster)) kv =>
    match kv.2, b with
    | none, b => b
    | some m, none => some (kv.1, m)
    | some m, some x => if rankLt (m.rank kv.1) (x.2.rank x.1) then some (kv.1, m) else some x) none).map (fun x => x.1)

/-- A big-endian number of `n` bytes at an offset of a PTP message. -/
def ptpN (m : List Byte) (o n : Nat) : Nat := beNat ((m.drop o).take n)

/-- The data set of an Announce message (IEEE 1588-2019; log 104). -/
def masterOf (m : List Byte) : PtpMaster :=
  let fl := ptpN m 7 1
  { prio1 := ptpN m 47 1, cls := ptpN m 48 1, acc := ptpN m 49 1, var := ptpN m 50 2, prio2 := ptpN m 52 1, gm := ptpN m 53 8, steps := ptpN m 61 2,
    utc := if bit fl 2 then some (sext 16 (ptpN m 44 2)) else none, leap := if bit fl 0 then 1 else if bit fl 1 then -1 else 0 }

/-- R286: a PTP message reaches the servo from port `p` (32: the management port): an Announce of the configured domain gives the port's
master, and the best master of all ports gives the port in use. Other messages are the exchanges whose offsets PTP_MEASUREMENT writes. -/
def Dev.ptpHear (d : Dev) (p : Nat) (m : List Byte) : Dev :=
  let c := d.rdN (tmuReg 0x64)
  if ptpN m 0 1 % 16 = 11 ∧ ptpN m 1 1 % 16 = 2 ∧ ptpN m 4 1 = bits c 15 8 ∧ 64 ≤ m.length then
    let s := { d.tmu.servo with heard := Tab.put d.tmu.servo.heard p (some (masterOf m)) }
    let b := s.best
    let c' := match b with
      | some n => if n = 32 then putBits c 23 23 1 else putBits (putBits c 22 18 n) 23 23 0
      | none => c
    (d.tmuUpd (fun t => { t with servo := { s with port := b } })).wrN (tmuReg 0x64) c'
  else d

/-- R286: the delay mechanism of the configured profile: may the slave send a PTP message of this type? Delay_Req under request-response,
Pdelay_Req and Pdelay_Resp (with its follow-up) under peer-to-peer; it never sends Sync or Announce. -/
def Dev.ptpMaySend (d : Dev) (typ : Nat) : Bool :=
  if bits (d.rdN (tmuReg 0x64)) 17 16 = 0 then decide (typ = 1) else decide (typ = 2) || decide (typ = 3) || decide (typ = 0xA)

/-- R297: a read of TMU_NOW0 latches TMU_NOW1 to 3 and TMU_ERRB for its requester, all of one TUCLK, and returns SUBSEC. -/
def Dev.nowWord (d : Dev) (who : Req) : Dev × Nat :=
  let s := d.stamp
  let b := 8 * who.code
  let l : List (Nat × Nat) := [(1, s.seconds % 2 ^ 32), (2, s.seconds / 2 ^ 32 + 65536 * s.quality), (3, s.epoch), (4, if d.tmu.unknown then 0xFFFFFFFF else d.tmu.err)]
  ({ d with host := { d.host with nowLatch := l.foldl (fun (t : Tab Nat) (x : Nat × Nat) => Tab.put t (b + x.1) x.2) d.host.nowLatch } }, s.subsec)

/-- R297: a 32-bit read of TMU_NOW0 and its completion. -/
def Dev.nowRead (d : Dev) (who : Req) : Dev :=
  let r := d.nowWord who
  r.1.emit (.read who 0 r.2)

/-- One TUCLK of 4 ns with the frequency term and the slew (R292): the counter of reported time moves by 16 quarter ns, with the
term in 2^−16 ppb, and removes at most 10 ppm of the phase. Fractions are kept in 2^−16 × 10^−9 of a quarter ns. -/
def Tmu.tick (t : Tmu) (freq : Int) (rate : Nat) : Tmu :=
  let lim : Int := min rate 10
  let s := satI t.slew (-lim) lim
  let f := t.frac + 16 * freq + s * 1000000000
  let unit : Int := 65536 * 1000000000
  { t with cnt := ((t.cnt : Int) + 16 + f / unit).toNat, frac := f % unit, slew := t.slew - s }

/-- The device's time moves on by one TUCLK when no command waits (log 1). -/
def Dev.tick (d : Dev) : Dev :=
  { d with now := d.now + 40, free := d.free + 1, tmu := d.tmu.tick (sext 32 (d.rdN (tmuReg 0x6C))) (Config.slewStep d.free) }

end Sys2Proof
end

