-- ==== Sys2Proof/Machine/Views.lean ====
section
/-! DEFINITION. The read-only registers of the flow plane that show the state of its queues, versions, records and groups: CLS_VCUR to
CLS_VINFL (R228), FLW_NOW and FLW_COUNT (R250), GNT_FREE, QSTAT and AGE (R251), TRE_STAT to TRE_REC (R278), HUD_STAT to HUD_GRP (R321),
PRT_BSTAT and PRT_STAT (R197), MEM_WEAR (R149). -/

namespace Sys2Proof

/-- CLS_VSLOT(s) and CLS_VINFL(s). -/
def Dev.vslot (d : Dev) (s : Nat) : Nat :=
  match d.flow.vers[s]? with
  | some v => v.v + 65536 * b2n v.live + 2 ^ 17 * b2n (!v.live)
  | none => 0

def Dev.vinfl (d : Dev) (s : Nat) : Nat := ((d.flow.vers[s]?).map (fun v => v.infl)).getD 0

/-- CLS_VWIN. -/
def Dev.vwin (d : Dev) : Nat :=
  d.vbase + 65536 * (d.flow.vers.filter (fun v => v.live)).length + 2 ^ 19 * (d.flow.vers.filter (fun v => !v.live)).length + 2 ^ 22 * b2n d.flow.sweeping

/-- GNT_FREE: cells of the buffer that nothing holds (R237). -/
def Dev.gntFree (d : Dev) : Nat := 262144 - Dev.sumPorts (fun n => d.rdN (portBuf n 2)) - d.flow.sysUsed

/-- QSTAT of queue (n, q). -/
def Dev.qStat (d : Dev) (n q : Nat) : Nat :=
  let x := (d.qRefresh n q).egAt n q
  x.occ + 2 ^ 20 * d.qBand n q x + 2 ^ 22 * b2n (d.qPaused n q) + 2 ^ 23 * b2n x.promo.isSome

/-- TRE_STAT: record stores in use, ensembles visible, the test of R273, quadrants reloading and in service. -/
def Dev.treStat (d : Dev) : Nat :=
  let used := d.flow.recs.filter (fun kv => kv.2.inUse)
  let seen := ((used.filter (fun kv => d.visible kv.2.ctl d.vcur)).map (fun kv => kv.2.ens)).eraseDups
  let slots := used.flatMap (fun kv => kv.2.copies.flatMap (fun c => c.reload))
  let rel := (upTo 4).foldl (fun (m : Nat) q => if slots.any (fun s => decide (s / 2048 = q)) then m + 2 ^ q else m) 0
  2 ^ 24 * used.length + 65536 * seen.length + 256 * b2n (bit (d.rdN (treBase + 8)) 8) + 16 * rel + d.flow.qInSvc % 16

/-- TRE_QUSED(q): slots that hold trees of any version. -/
def Dev.quadSlots (d : Dev) (q : Nat) : Nat :=
  let n := ((d.quadUsed q).map (fun x => x.2)).foldl (· + ·) 0
  if 2048 ≤ n then 2048 + 4096 else n

/-- TRE_ENS(e), word w. -/
def Dev.treEns (d : Dev) (e w : Nat) : Nat :=
  match w, d.ensRecord e d.vcur with
  | 0, some r => r + 128 + 256 * ((d.recAt r).copies.filter d.copyOk).length + 2048 * (d.recAt r).span
  | 1, _ => (d.sqAt e).length
  | 2, _ => d.rdN (treBase + 0x108 + 0x10 * e)
  | 3, some r => (d.recAt r).sqlim
  | _, _ => 0

/-- The device slot number of a record's head: the first slot of the first position of its first copy. -/
def EnsRec.head (r : EnsRec) : Nat :=
  match r.copies with
  | c :: _ => 2048 * c.quads.headD 0 + c.first.headD 0
  | [] => 0

/-- TRE_REC(r), word w. -/
def Dev.treRec (d : Dev) (r w : Nat) : Nat :=
  let x := d.recAt r
  if x.inUse = false then 0
  else if w = 0 then 1 + 2 * x.ens + 256 * x.head + 2 ^ 24 * ctlOwner x.ctl
  else if w = 1 then ctlVmin x.ctl + 65536 * ctlVmax x.ctl
  else if w = 2 then x.trees.length + 65536 * (x.classes - 1) + 2 ^ 20 * x.link + 2 ^ 23 * (x.copies.length - 1)
  else 0

/-- HUD_STAT. FILEDROP is active in the millisecond after a drop (R319, log 62). -/
def Dev.hudStat (d : Dev) : Nat :=
  let drop := match d.flow.fileDropAt with | some t => decide (d.now < t + msec) | none => false
  b2n (!d.tmu.unknown) + 2 * b2n drop + 4 * d.flow.fileQ.length

/-- HUD_PRESUSED: the presence bits of the running groups (R298). -/
def Dev.presUsed (d : Dev) : Nat :=
  ((d.flow.grp.filter (fun kv => kv.2.running && !d.tmu.unknown)).map (fun kv => presence (Tab.get [] d.flow.tpl kv.2.tpl))).foldl (· + ·) 0

/-- HUD_GRP(g), word w. -/
def Dev.hudGrp (d : Dev) (g w : Nat) : Nat :=
  let x := d.grpAt g
  let held := (upTo 16).foldl (fun (m : Nat) b => if (Tab.get none x.held b).isSome then m + 2 ^ b else m) 0
  let run := b2n (x.running && !d.tmu.unknown)
  if w = 0 then run + 2 * (gPtn (Tab.get [] d.flow.tpl x.tpl) % 32) * run + 256 * x.opened.length + 65536 * held
  else if w = 1 then x.lastClosed % 2 ^ 32
  else if w = 2 then x.lastClosed / 2 ^ 32
  else if w = 3 then x.lastBack % 2 ^ 32
  else if w = 4 then x.lastBack / 2 ^ 32
  else if w = 5 then x.tpl
  else 0

/-- A mask of the priorities 0 to 7 that satisfy a condition. -/
def prioMask (f : Nat → Bool) : Nat := (upTo 8).foldl (fun (m : Nat) i => if f i then m + 2 ^ i else m) 0

/-- PRT_STAT of port n; the link and the faults received stand in the register. -/
def Dev.prtStat (d : Dev) (n : Nat) : Nat :=
  let p := d.portAt n
  let all := (Tab.find p.timer 8).isSome
  d.rdN (prt n 8) % 8 + 8 * b2n (!p.ignoring.isEmpty) + 16 * b2n (!p.stopped.isEmpty) + 256 * prioMask (fun i => all || (Tab.find p.timer i).isSome) +
    65536 * prioMask (fun i => decide (d.rdN (prt n 0x1C) < d.cellsHeld n i))

/-- PRT_BSTAT of block b: signal and block lock of the lanes whose port has link, and RETRAIN while a port of the block retrains (R174). A
link that is down leaves open which of signal and lock is missing: both read 0 (log 63). -/
def Dev.blockStat (d : Dev) (b : Nat) : Nat :=
  let portOf : Nat → Nat := fun l => 4 * b + (if d.split b = 0 then 0 else if d.split b = 1 then 2 * (l / 2) else l)
  let up := (upTo 4).foldl (fun (m : Nat) l => if (d.portAt (portOf l)).link then m + 2 ^ l else m) 0
  17 * up + 256 * b2n ((upTo 4).any (fun l => d.portExists (4 * b + l) && (d.portAt (4 * b + l)).training))

/-- The registers of the flow plane that are computed from the state, by PF BAR0 offset. -/
def Dev.planeView (d : Dev) (o : Nat) : Option Nat :=
  if prtBase ≤ o ∧ o < parBase then
    (let b := (o - prtBase) / 0x10000
     let k := o % 0x10000
     if k = 8 then some (d.blockStat b)
     else if 0x1000 ≤ k ∧ k < 0x5000 ∧ d.portExists (4 * b + k / 0x1000 - 1) = false then some 0
     else if 0x1000 ≤ k ∧ k % 0x1000 = 8 then some (d.prtStat (4 * b + k / 0x1000 - 1))
     else none)
  else if o = clsBase + 4 then some d.vcur
  else if o = clsBase + 8 then some d.vwin
  else if clsBase + 0x20 ≤ o ∧ o < clsBase + 0x40 then
    (let s := (o - clsBase - 0x20) / 8
     some (if o % 8 = 0 then d.vslot s else d.vinfl s))
  else if o = flwBase + 8 then some d.flwNow
  else if o = flwBase + 0x14 then some (d.flow.flow.filter (fun kv => kv.2.valid)).length
  else if o = gntBase + 4 then some d.gntFree
  else if gntBase + 0x1000 ≤ o ∧ o < gntBase + 0x5000 then
    (let i := (o - gntBase - 0x1000) / 0x40
     if o % 0x40 = 0x1C then some (d.qStat (i / 8) (i % 8))
     else if o % 0x40 = 0x20 then some (((d.qRefresh (i / 8) (i % 8)).egAt (i / 8) (i % 8)).ageUs)
     else none)
  else if o = treBase + 8 then some d.treStat
  else if o = treBase + 0x14 then some d.poolUsed
  else if treBase + 0x40 ≤ o ∧ o < treBase + 0x50 then some (d.quadSlots ((o - treBase - 0x40) / 4))
  else if treBase + 0x100 ≤ o ∧ o < treBase + 0x500 then some (d.treEns ((o - treBase - 0x100) / 0x10) (o % 0x10 / 4))
  else if treBase + 0x800 ≤ o ∧ o < treBase + 0x1000 then some (d.treRec ((o - treBase - 0x800) / 0x10) (o % 0x10 / 4))
  else if o = hudBase + 4 then some d.hudStat
  else if o = hudBase + 0x10 then some d.presUsed
  else if hudBase + 0x100 ≤ o ∧ o < hudBase + 0x900 then some (d.hudGrp ((o - hudBase - 0x100) / 0x20) (o % 0x20 / 4))
  else if o = memBase + 0x18 then some d.store.wear
  else none

end Sys2Proof
end

