-- ==== Sys2Proof/Machine/Host.lean ====
section
/-! DEFINITION. The host interface (chapter 14): register accesses and their outcomes, mailboxes, DMA queues, MSI-X and the
host-side resets. -/

namespace Sys2Proof

/-! ### Functions and their views (R350, R352, R353) -/

/-- R350, R356: does a function answer: the link is up, its Memory Space Enable is 1 and, for a VF, it exists? -/
def Dev.fnOpen (d : Dev) (fn : Option Nat) : Bool :=
  d.host.linkUp && Tab.get false d.host.mse (fnIx fn) &&
  (match fn with
   | none => true
   | some n => d.host.vfEnable && decide (n < d.host.numVfs))

/-- Does a requester's access reach the device? The debug port's does while debug access is open (R442). -/
def Dev.reqOpen (d : Dev) (who : Req) : Bool :=
  match who with
  | .pf => d.fnOpen none
  | .vf n => d.fnOpen (some n)
  | .fw _ => d.fw.image.isSome && !d.romServes
  | .debug => d.sec.debug

/-- What an offset leads to: a register (its key), or the error cause of R355. -/
inductive Place
  | reg (k : Nat) | bad (cause : Nat)
  deriving DecidableEq, Repr

/-- An offset with no register behind it is cause 3. -/
def placeOf (k : Nat) : Place := if (regRow k).isSome then .reg k else .bad 3

/-- R353, R354: what an offset of VF n's BAR0 leads to. The view of a core that is lost has no core until a re-map points it at the target
(R338's table of observers). -/
def Dev.vfPlace (d : Dev) (n off : Nat) : Place :=
  if off < 0x2000 then
    (if [0, 4, 0x14, 0x18, 0x1C, 0x20, 0x24].contains (off / 4 * 4) then .reg (vfBase n + glbBase + off / 4 * 4) else .bad 3)
  else if off < 0x6000 then placeOf (vfBase n + mbxBase + (off - 0x2000) / 4 * 4)
  else if off < 0x8000 then
    let o := (off - 0x6000) / 4 * 4
    if o < 32 ∨ (0x100 ≤ o ∧ o < 0x110) then .reg (vfBase n + dbBase + o) else .bad 3
  else if off < 0x9000 then
    let o := (off - 0x8000) / 4 * 4
    if o = 0 then .reg (ptnBase + 0x40 + 4 * n)
    else if 0x100 ≤ o ∧ o < 0x180 then .reg (ptnBase + 0x100 + 0x80 * n + (o - 0x100))
    else .bad 3
  else if off < 0x10000 then
    let o := (off - 0x9000) / 4 * 4
    if o < 0x10 then .reg (catBase + 0x400 + 0x10 * n + o)
    else if 0x1000 ≤ o ∧ o < 0x2000 then .reg (catBase + 0x8000 + 0x1000 * n + (o - 0x1000))
    else .bad 3
  else if off < 0x20000 then
    let o := (off - 0x10000) / 4 * 4
    if o < 0x800 then .reg (lckBase + o) else .bad 3
  else if off < 0x40000 then
    let o := (off - 0x20000) / 4 * 4
    if o < 0x4000 then
      (match placeOf (pqBase + o) with
       | .reg k => if (d.pqAt (o / 0x100)).en && decide ((d.pqAt (o / 0x100)).owner = n) then .reg k else .bad 7
       | p => p)
    else .bad 3
  else if off < 0x60000 then
    let o := (off - 0x40000) / 4 * 4
    match placeOf (tenBase + o % 0x1000) with
    | .reg _ => (match d.coreOfRank n (o / 0x1000) with
      | some c => if d.coreUp c then .reg (tenBase + 0x20000 * c + o % 0x1000) else .bad 7
      | none => .bad 7)
    | p => p
  else if 0xF0000 ≤ off ∧ off < 0xF0080 then .reg (vfBase n + msixBase + (off - 0xF0000) / 4 * 4)
  else if 0xF8000 ≤ off ∧ off < 0xF8008 then .reg (vfBase n + pbaBase + (off - 0xF8000) / 4 * 4)
  else .bad 3

/-- What an offset leads to for a requester. Firmware and the debug port address PF BAR0's map (log 50). -/
def Dev.place (d : Dev) (who : Req) (off : Nat) : Place :=
  match who with
  | .vf n => d.vfPlace n off
  | .pf =>
    let k := off / 4 * 4
    if pqBase ≤ k ∧ k < catBase then
      (match placeOf k with
       | .reg k => if (d.pqAt ((k - pqBase) / 0x100)).en && decide ((d.pqAt ((k - pqBase) / 0x100)).owner = 48) then .reg k else .bad 7
       | p => p)
    else if 0x10000000 ≤ k then .bad 3
    else if (catBase + 0x400 ≤ k ∧ k < catBase + 0x600) ∨ (catBase + 0x8000 ≤ k ∧ k < catBase + 0x28000) then
      (match placeOf k with | .reg _ => .bad 7 | p => p)
    else placeOf k
  | _ => if 0x10000000 ≤ off then .bad 3 else placeOf (off / 4 * 4)

/-! ### Register pairs (R9, R10) -/

/-- The low words of the 64-bit pairs of the register maps. -/
def isPairLow (key : Nat) : Bool :=
  let o := key % 0x10000000
  let run := fun (base n : Nat) => decide (base ≤ o) && decide (o < base + 8 * n) && decide ((o - base) % 8 = 0)
  decide (o = mbxBase + 0x2018) || run (tmuBase + 0x70) 1 || run (tmuBase + 0x100) 16 ||
  (decide (prtBase ≤ o ∧ o < parBase) && decide (0x1100 ≤ o % 0x10000) && decide (o % 0x10000 < 0x5000) && decide (0x100 ≤ o % 0x1000) &&
    decide (o % 0x1000 < 0x100 + 200) && decide (o % 8 = 0)) ||
  run (parBase + 0x100) 32 || run (parBase + 0x800) 128 || run (clsBase + 0x500) 32 || decide (o = flwBase + 0x84) || run (flwBase + 0x600) 16 ||
  run (gntBase + 0x60) 3 ||
  (decide (gntBase + 0x1000 ≤ o ∧ o < gntBase + 0x5000) && (decide ((o - gntBase) % 0x40 = 0x30) || decide ((o - gntBase) % 0x40 = 0x38))) ||
  run (treBase + 0x1000) 16 || run (visBase + 0x3000) 16 || run (hudBase + 0x1000) 32 ||
  (decide (tenBase ≤ o ∧ o < memBase) && (decide (o % 0x20000 = 0x18) || decide (o % 0x20000 = 0x80))) ||
  decide (o = memBase + 0x20) || decide (o = memBase + 0x28) ||
  (decide (memBase + 0x100 ≤ o ∧ o < memBase + 0x500) && decide (o % 0x20 = 8)) ||
  run (pwrBase + 0x100) 8

/-- R10: is the pair marked atomic in its register map? TEN_SAVEBASE, TEN_PASSES, MEM_STGBYTES, FLW_ESTATE and TMU_MEAS are not. -/
def isAtomic (key : Nat) : Bool :=
  let o := key % 0x10000000
  isPairLow key && !(decide (tenBase ≤ o ∧ o < memBase) || decide (memBase + 0x100 ≤ o ∧ o < memBase + 0x500) || decide (o = flwBase + 0x84) ||
    decide (o = tmuBase + 0x70))

/-- The key of a requester's latch for a register. -/
def latchKey (who : Req) (key : Nat) : Nat := who.code * 2 ^ 40 + key

/-! ### What registers read as -/

/-- MBX_STAT (R374). -/
def Dev.mbxStat (d : Dev) (m : Mbx) : Nat :=
  b2n m.pending + 2 * b2n m.taken + 4 * b2n m.resp + 8 * b2n m.hello + 16 * b2n (d.helds && m.taken && m.pending)

/-- The header and payload of a response page (R359). -/
def MbxRsp.bytes (r : MbxRsp) : List Byte :=
  leBytes 1 r.major ++ leBytes 1 r.minor ++ leBytes 2 (r.opcode % 32768 + 32768) ++ leBytes 2 r.payload.length ++ leBytes 2 0 ++
  leBytes 4 r.seq ++ leBytes 2 r.status ++ leBytes 2 0 ++ r.payload

/-- The version and the features the device offers a function's mailbox (R361, R365). -/
def Dev.mbxOffer (d : Dev) (fn : Option Nat) : Nat × Nat × Nat :=
  if d.romServes then (1, 0, if fn = none then 4 else 0)
  else match d.fw.image with
    | some i => (i.mbxMajor, i.mbxMinor, if fn = none then i.pfFeat else i.vfFeat)
    | none => (1, 0, 0)

def Dev.mbxAt (d : Dev) (fn : Option Nat) : Mbx := Tab.get {} d.host.mbx (fnIx fn)

def Dev.mbxSet (d : Dev) (fn : Option Nat) (m : Mbx) : Dev := { d with host := { d.host with mbx := Tab.set {} d.host.mbx (fnIx fn) m } }

/-- A word of a function's mailbox block. -/
def Dev.mbxRead (d : Dev) (fn : Option Nat) (o : Nat) : Nat :=
  let m := d.mbxAt fn
  if 0x1000 ≤ o ∧ o < 0x2000 then
    (match m.page with
     | some r => leNat ((r.bytes.drop (o - 0x1000)).take 4)
     | none => 0)
  else if o = 0x2000 then 0
  else if o = 0x2004 then d.mbxStat m
  else if o = 0x2010 then (d.mbxOffer fn).1 + 256 * (d.mbxOffer fn).2.1
  else if o = 0x2014 then m.agMajor + 256 * m.agMinor
  else if o = 0x2018 then m.feat % 2 ^ 32
  else if o = 0x201C then m.feat / 2 ^ 32
  else d.rdN (fnBase fn + mbxBase + o)

/-- The model's number of a DMA queue. -/
def dmaIx (fn : Option Nat) (q : Nat) : Nat := 16 * fnIx fn + q

def Dev.dmaAt (d : Dev) (fn : Option Nat) (q : Nat) : DmaQ := Tab.get {} d.host.dma (dmaIx fn q)

def Dev.dmaSet (d : Dev) (fn : Option Nat) (q : Nat) (x : DmaQ) : Dev :=
  { d with host := { d.host with dma := Tab.set {} d.host.dma (dmaIx fn q) x } }

/-- Does the completion ring hold its entry count minus 1 entries (R369)? -/
def DmaQ.full (x : DmaQ) : Bool := decide ((x.cqTail + x.cqN - x.cqHead) % x.cqN = x.cqN - 1)

/-- GLB_QSTAT (R373). -/
def DmaQ.stat (x : DmaQ) : Nat := b2n x.active + 2 * b2n (x.active && x.full) + 65536 * x.sqHead

/-- The value of a register as a requester reads it: the registers that show a structure of the state are computed from it. -/
def Dev.regValue (d : Dev) (who : Req) (key : Nat) : Nat :=
  let o := key % 0x10000000
  let fn : Option Nat := if key < 0x10000000 then none else some (key / 0x10000000 - 1)
  if o = glbBase + 4 then d.rdN (glbBase + 4)
  else if o = glbBase + 0x24 then (match fn with | none => d.host.direct | some n => b2n (bit d.host.direct n))
  else if mbxBase ≤ o ∧ o < lckBase then d.mbxRead fn (o - mbxBase)
  else if o = erlBase + 8 then d.erlStat
  else if lckBase + 0x400 ≤ o ∧ o < lckBase + 0x800 then (d.lckAt ((o - lckBase - 0x400) / 4)).word false
  else if pqBase ≤ o ∧ o < catBase then
    let n := (o - pqBase) / 0x100
    let q := d.pqAt n
    let k := o % 0x100
    if k = 0 then 2 ^ 31 * b2n q.en + 2 ^ 24 * q.owner + 65536 * q.depth + q.hiwater
    else if k = 4 then 2 ^ 31 * b2n (decide (q.ents.length = q.cap)) + 2 ^ 30 * b2n q.ents.isEmpty + 2 ^ 29 * b2n (!q.waiters.isEmpty) +
      2 ^ 24 * (q.top1 - 1) + q.ents.length
    else if 0x20 ≤ k then (Tab.get 0 d.pqRegs (pqKey who n k)).toNat
    else d.rdN key
  else if catBase ≤ o ∧ o < tmuBase then
    let k := o - catBase
    if k = 4 then d.cat.ptr
    else if k = 8 then d.cat.take
    else if 0x100 ≤ k ∧ k < 0x220 ∧ k % 8 = 0 then
      let s := (k - 0x100) / 8
      (Tab.get [] d.cat.fifo s).length + 16 * b2n (!(Tab.get [] d.cat.hold s).isEmpty) + 65536 * Tab.get 0 d.cat.holds s
    else if k = 0x60C then d.rdN (catBase + 0x0C) + 65536 * d.rdN (catBase + 0x10)
    else if 0x400 ≤ k ∧ k < 0x610 ∧ k % 0x10 = 0 then Tab.get 0 d.cat.head ((k - 0x400) / 0x10)
    else if 0x400 ≤ k ∧ k < 0x610 ∧ k % 0x10 = 4 then Tab.get 0 d.cat.tail ((k - 0x400) / 0x10)
    else if 0x8000 ≤ k then
      let p := (k - 0x8000) / 0x1000
      let w := (k - 0x8000) % 0x1000
      leNat (((Tab.get CatRec.zero d.cat.slot (p * 128 + w / 32)).bytes.drop (w % 32)).take 4)
    else d.rdN key
  else if tmuBase + 0x1C ≤ o ∧ o < tmuBase + 0x2C then (Tab.find d.host.nowLatch (8 * who.code + (o - tmuBase - 0x18) / 4)).getD (regReset o).toNat
  else if tenBase ≤ o ∧ o < memBase then
    let c := (o - tenBase) / 0x20000
    let k := o % 0x20000
    if k = 4 then 2 ^ 31 * b2n (d.coreAt c).lock
    else if k = 8 then d.tenStatus c
    else if k = 0x2C then d.corePtn c % 32
    else d.rdN key
  else if dbBase + 0x100 ≤ o ∧ o < dbBase + 0x140 then (d.dmaAt fn ((o - dbBase - 0x100) / 4)).stat
  else if dbBase ≤ o ∧ o < dbBase + 0x80 then
    (let x := d.dmaAt fn ((o - dbBase) / 8)
     if (o - dbBase) % 8 = 0 then x.sqTail else x.cqHead)
  else if pbaBase ≤ o ∧ o < pbaBase + 8 then
    (upTo 32).foldl (fun (m : Nat) v => if Tab.get false d.host.pba (64 * fnIx fn + 8 * (o - pbaBase) + v) then m + 2 ^ v else m) 0
  else (d.planeView o).getD (d.rdN key)

/-! ### Reads of pairs (R9 to R13) -/

/-- The byte enables of an access. -/
def byteEn (off len : Nat) : Nat := (2 ^ min len 4 - 1) * 2 ^ (off % 4) % 16

/-- A counted access of a requester; causes 1, 2 and 5 are logged as well (R355, R499). -/
def Dev.accFail (d : Dev) (who : Req) (off len : Nat) (isWrite : Bool) (cause : Nat) : Dev :=
  match who.fn? with
  | none => d
  | some fn =>
    let d1 := d.accErr fn off (byteEn off len) isWrite cause
    if cause = 1 ∨ cause = 2 ∨ cause = 5 then d1.accLog fn off cause else d1

/-- Does an access cross a 4-byte boundary without being an aligned 64-bit access to a pair (R13)? The MSI-X table allows 64-bit
accesses at any 8-byte-aligned offset (R357). -/
def Dev.crosses (d : Dev) (who : Req) (off len : Nat) : Bool :=
  if off % 4 + len ≤ 4 ∧ 0 < len then false
  else if len = 8 ∧ off % 8 = 0 then
    (match d.place who off with
     | .reg k => !(isPairLow k || (decide (msixBase ≤ k % 0x10000000) && decide (k % 0x10000000 < pbaBase + 8)))
     | .bad 7 => !(decide (0x40000 ≤ off ∧ off < 0x60000) && isPairLow (tenBase + off % 0x1000))
     | .bad _ => true)
  else true

/-- The word a read of the register at `k` returns, and what the read does: every read of LCK_ACQ acquires (R165), of PQ_POPCTL pops
(R170), of TMU_NOW0 takes the snapshot (R297). -/
def Dev.readWord (d : Dev) (who : Req) (k : Nat) : Dev × Nat :=
  if lckBase ≤ k ∧ k < lckBase + 0x400 then d.lckAcqWord who ((k - lckBase) / 4)
  else if pqBase ≤ k ∧ k < catBase ∧ k % 0x100 = 0x18 then
    (let n := (k - pqBase) / 0x100
     if d.pqMayPop who n then (d.waitersServe n 33).pqPopWord who n else d.pqPopWord who n)
  else if k = tmuBase + 0x18 then d.nowWord who
  else (d, d.regValue who k)

/-- R9, R11, R355: a read of `len` bytes at an offset. A read that includes byte 0 of a pair's low word latches the high word in
the requester's own latch; a read of the high word returns the latch; an aligned 64-bit read returns both words (R10). A narrow read
returns the addressed bytes, of a register whose read acts too (R11). DESIGN CHOICE (log 101): an aligned 64-bit read of an atomic pair
loads the latch as two 32-bit reads of it do. -/
def Dev.pairLowRead (d : Dev) (who : Req) (off len : Nat) : Dev :=
  if d.crosses who off len then (d.accFail who off len false 2).emit (.read who 1 0)
  else match d.place who off with
    | .bad cause => (if cause = 7 then d.accFail who off len false 7 else d).emit (.read who 0 0)
    | .reg k =>
      let sh := fun (v : Nat) => v / 2 ^ (8 * (off % 4)) % 2 ^ (8 * len)
      if isPairLow k then
        let lo := d.regValue who k
        let hi := d.regValue who (k + 4)
        let d1 := { d with host := { d.host with rlatch := Tab.set 0 d.host.rlatch (latchKey who (k + 4)) hi } }
        if len = 8 then d1.emit (.read who 0 (lo + 2 ^ 32 * hi))
        else (if off % 4 = 0 then d1 else d).emit (.read who 0 (sh lo))
      else if isPairLow (k - 4) then d.emit (.read who 0 (sh (Tab.get 0 d.host.rlatch (latchKey who k))))
      else if len = 8 then d.emit (.read who 0 (d.regValue who k + 2 ^ 32 * d.regValue who (k + 4)))
      else
        let r := d.readWord who k
        r.1.emit (.read who 0 (sh r.2))

/-! ### Register writes (R4, R355) -/

/-- Is a core's RWL field held by LOCK (R123)? -/
def Dev.lockedAt (d : Dev) (key : Nat) : Bool :=
  decide (tenBase ≤ key ∧ key < memBase) && (d.coreAt ((key - tenBase) / 0x20000)).lock

/-- The cause for which a write of a TEN field that needs direct mode is ignored (R122, R372), and the cause of one that LOCK holds. Firmware
component 8, the partition manager, is not held by LOCK (R123). -/
def Dev.rwlCause (d : Dev) (who : Req) (key : Nat) : Option Nat :=
  match d.tenDenied who ((key - tenBase) / 0x20000) with
  | some c => some c
  | none => if d.lockedAt key && decide (who ≠ .fw 8) then some 5 else none

/-- R6, R370: a 32-bit write of a register with no behaviour of its own: RW bits take the data, W1C bits written 1 are cleared, and
an enable register may raise its vector. -/
def Dev.plainWrite (d : Dev) (r : RegRow) (key mask data : Nat) : Dev :=
  let old := d.rdN key
  let rw := Nat.land r.rw mask
  let new := (old - Nat.land old rw + Nat.land data rw)
  let clr := Nat.land (Nat.land r.w1c mask) data
  let v := new - Nat.land new clr
  if r.rw ≠ 0 ∧ r.w1c = 0 ∧ isEventReg (key - 4) then d.enableWrite (key - 4) v
  else if r.base = catBase + 0x40C then
    (let p := (key - catBase - 0x40C) / 0x10
     if p = 32 then
       (d.wrN (catBase + 0x0C) (d.rdN (catBase + 0x0C) - Nat.land (d.rdN (catBase + 0x0C)) (Nat.land data 3))).enableWrite (catBase + 0x0C) (bits data 17 16)
     else if (upTo 2).any (fun b => bit v b && bit v (16 + b) && !bit old (16 + b)) then (d.wrN key v).msixRaise (some p) 3
     else d.wrN key v)
  else d.wrN key v

/-- R9: a write of a pair's low word is staged in the requester's latch. -/
def Dev.stageLow (d : Dev) (who : Req) (k data : Nat) : Dev :=
  { d with host := { d.host with wlatch := Tab.set 0 d.host.wlatch (latchKey who k) (data % 2 ^ 32) } }

/-- R9: the high word is written: both words of TEN_SAVEBASE, the one pair with fields the host may change, take effect. DESIGN CHOICE
(log 102): the staged low word stays in its latch, and a later write of the high word alone takes it again. -/
def Dev.pairTake (d : Dev) (who : Req) (k data : Nat) : Dev :=
  let lo := Tab.get 0 d.host.wlatch (latchKey who k)
  if decide (tenBase ≤ k ∧ k < memBase) && decide (k % 0x20000 = 0x18) then
    (d.wrN k (lo / 16384 * 16384)).wrN (k + 4) (data % 256)
  else d

/-- Who may write the pair at `k`: none, or the cause of R355. -/
def Dev.pairCause (d : Dev) (who : Req) (k : Nat) : Option Nat :=
  if decide (tenBase ≤ k ∧ k < memBase) && decide (k % 0x20000 = 0x18) then d.rwlCause who k
  else match who with
    | .fw _ => none
    | _ => some 4

/-- R9: a 32-bit write of the low word of a pair. -/
def Dev.pairLowWrite (d : Dev) (who : Req) (off data : Nat) : Dev :=
  match d.place who off with
  | .bad c => d.accFail who off 4 true c
  | .reg k =>
    if isPairLow k then
      (match d.pairCause who k with
       | some c => d.accFail who off 4 true c
       | none => d.stageLow who k data)
    else d

/-- R9: a 32-bit write of the high word of a pair: it takes effect together with the staged low word. -/
def Dev.pairHighWrite (d : Dev) (who : Req) (off data : Nat) : Dev :=
  match d.place who off with
  | .bad c => d.accFail who off 4 true c
  | .reg k =>
    if isPairLow (k - 4) then
      (match d.pairCause who (k - 4) with
       | some c => d.accFail who off 4 true c
       | none => d.pairTake who (k - 4) data)
    else d

/-- R10: a 64-bit write of a pair: one access where the pair is marked atomic, else two 32-bit ones, low word first. -/
def Dev.pairWrite (d : Dev) (who : Req) (off k data : Nat) : Dev :=
  if isAtomic k then
    (match d.pairCause who k with
     | some c => d.accFail who off 8 true c
     | none => (d.stageLow who k (data % 2 ^ 32)).pairTake who k (data / 2 ^ 32))
  else (d.pairLowWrite who off (data % 2 ^ 32)).pairHighWrite who (off + 4) (data / 2 ^ 32)

/-- The mask of the bits an access of `len` bytes at an offset addresses. -/
def byteMask (off len : Nat) : Nat := (2 ^ (8 * min len 4) - 1) * 2 ^ (8 * (off % 4)) % 2 ^ 32

/-- R4, R12 to R14, R355: a host write of `len` bytes at an offset of a function's BAR0. A write of TEN_CTRL may carry several action bits
(R500). The other registers whose write is a command of its own are left to it. -/
def Dev.registerWrite (d : Dev) (who : Req) (off len data : Nat) : Dev :=
  if d.crosses who off len then d.accFail who off len true 2
  else match d.place who off with
    | .bad 3 => d.accFail who off len true 3
    | .bad c => if len < 4 then d.accFail who off len true 1 else d.accFail who off len true c
    | .reg k =>
      let o := k % 0x10000000
      match regRow k with
      | none => d.accFail who off len true 3
      | some r =>
        if mbxBase ≤ o ∧ o < mbxBase + 0x1000 then
          (let fn : Option Nat := if k < 0x10000000 then none else some (k / 0x10000000 - 1)
           if (d.mbxAt fn).pending then d.accFail who off len true 9
           else
             let m := byteMask off len
             d.wrN k (d.rdN k - Nat.land (d.rdN k) m + Nat.land (data * 2 ^ (8 * (off % 4))) m))
        else if len < 4 then d.accFail who off len true 1
        else if msixBase ≤ o ∧ o < pbaBase then
          (if len = 8 then (d.wrN k (data % 2 ^ 32)).wrN (k + 4) (data / 2 ^ 32 % 2 ^ 32) else d.wrN k (data % 2 ^ 32))
        else if isPairLow k then
          (if len = 8 then d.pairWrite who off k data else d.pairLowWrite who off data)
        else if isPairLow (k - 4) then d.pairHighWrite who off data
        else if r.writable = false then d.accFail who off len true 4
        else if tenBase ≤ k ∧ k < memBase ∧ k % 0x20000 = 4 then d.tenCtrl who ((k - tenBase) / 0x20000) data
        else if r.own then d
        else if pqBase ≤ k ∧ k < catBase ∧ 0x20 ≤ k % 0x100 then
          { d with pqRegs := Tab.set 0 d.pqRegs (pqKey who ((k - pqBase) / 0x100) (k % 0x100)) (BitVec.ofNat 32 data) }
        else if r.rwl ≠ 0 then
          (match d.rwlCause who k with
           | some c => d.accFail who off len true c
           | none =>
             let d1 := d.wrN k (Nat.land r.rwl data)
             if k % 0x20000 = 0x0C then d1.coreUpd ((k - tenBase) / 0x20000) (fun x => { x with pcSet := true }) else d1)
        else d.plainWrite r k m32 data

/-- R356: an access that does not complete: a read ends as Completer Abort, a write is dropped; both are counted. -/
def Dev.readTimeout (d : Dev) (fn : Option Nat) (isWrite : Bool) : Dev :=
  let d1 := d.count (fnBase fn + glbBase + 0x20) 1
  let d2 := if fn = none then d1.event (glbBase + 0x0C) 1 else d1
  if isWrite then d2 else d2.emit (.read (fnReq fn) 2 0)

/-! ### Mailboxes (R359 to R365) -/

/-- Set an event bit of a function's mailbox. -/
def Dev.mbxEvent (d : Dev) (fn : Option Nat) (b : Nat) : Dev := d.event (fnBase fn + mbxBase + 0x2008) b

/-- An ignored RING or RACK. -/
def Dev.mbxBad (d : Dev) (fn : Option Nat) : Dev := (d.count (fnBase fn + mbxBase + 0x2020) 1).mbxEvent fn 1

/-- R359 step 2. -/
def Dev.mbxRing (d : Dev) (fn : Option Nat) : Dev :=
  let m := d.mbxAt fn
  if m.pending then d.mbxBad fn else d.mbxSet fn { m with pending := true }

/-- R359 step 4: the response goes to the page, or waits for the RACK of the previous one. -/
def Dev.mbxDeliver (d : Dev) (fn : Option Nat) (r : MbxRsp) : Dev :=
  let m := d.mbxAt fn
  if m.resp then d.mbxSet fn { m with cur := none, waiting := some r }
  else (d.mbxSet fn { m with cur := none, waiting := none, page := some r, resp := true, pending := false, taken := false }).mbxEvent fn 0

/-- R359 step 5: RACK clears RESP, and a response that waited takes its place. -/
def Dev.mbxRack (d : Dev) (fn : Option Nat) : Dev :=
  let m := d.mbxAt fn
  if m.resp then
    let d1 := d.mbxSet fn { m with resp := false, page := none }
    match m.waiting with
    | some r => d1.mbxDeliver fn r
    | none => d1
  else d.mbxBad fn

/-- Answer the request of a mailbox: STATUS and payload; the response of a reset mailbox is discarded (R371). -/
def Dev.mbxRespond (d : Dev) (fn : Option Nat) (opcode seq status : Nat) (payload : List Byte) : Dev :=
  let m := d.mbxAt fn
  if m.discard then d.mbxSet fn { m with cur := none, discard := false }
  else
    let ag := if m.hello then (m.agMajor, m.agMinor) else ((d.mbxOffer fn).1, (d.mbxOffer fn).2.1)
    d.mbxDeliver fn { opcode := opcode, seq := seq, status := status, major := ag.1, minor := ag.2, payload := payload }

/-- The feature bit of a message (R361), if the opcode is one of the catalogue. -/
def msgFeature (op : Nat) : Option Nat :=
  if op = 0x10 then some 2 else if op = 0x11 then some 3 else if op = 0x20 ∨ op = 0x21 then some 0
  else if op = 0x30 ∨ op = 0x31 ∨ op = 0x32 then some 1 else if op = 0x40 then some 7 else if op = 0x41 then some 5
  else if op = 0x50 then some 6 else if op = 0x60 ∨ op = 0x61 then some 4 else none

/-- R363: the functions of a message. -/
def msgAllowed (op : Nat) (fn : Option Nat) : Bool :=
  if op = 0x41 then fn.isSome
  else if op = 0x10 ∨ op = 0x11 ∨ op = 0x30 ∨ op = 0x31 ∨ op = 0x32 ∨ op = 0x50 then fn.isNone
  else true

/-- The bytes of a function's request page. -/
def Dev.mbxPage (d : Dev) (fn : Option Nat) (n : Nat) : List Byte :=
  (upTo ((n + 3) / 4)).flatMap (fun i => leBytes 4 (d.rdN (fnBase fn + mbxBase + 4 * i)))

/-- R359 step 3, R360, R361, R365: firmware takes a request, sets TAKEN, and either answers it with an error status or leaves it to
its message command. While HELD is 1 it is only taken. -/
def Dev.mbxTake (d : Dev) (fn : Option Nat) : Dev :=
  let m := d.mbxAt fn
  if m.pending = false ∨ m.cur.isSome ∨ m.waiting.isSome ∨ (d.romServes = false ∧ d.fwReady = false) then d
  else
    let d0 := d.mbxSet fn { m with taken := true }
    if d.helds then d0
    else
      let h := d.mbxPage fn 16
      let op := subN h 2 2
      let len := subN h 4 2
      let flags := subN h 6 2
      let sq := subN h 8 4
      let say := fun (st : Nat) => d0.mbxRespond fn op sq st []
      let payload := ((d.mbxPage fn (16 + len)).drop 16).take len
      if d.romServes ∧ fn.isSome then say 9
      else if 4080 < len ∨ 1 < flags ∨ subN h 12 2 ≠ 0 ∨ subN h 14 2 ≠ 0 then say 1
      else if op = 1 then d0.mbxSet fn { m with taken := true, cur := some { opcode := 1, seq := sq, payload := sub h 0 2 ++ payload } }
      else if m.hello = false then say 3
      else if subN h 0 1 ≠ m.agMajor ∨ subN h 1 1 ≠ m.agMinor then say 2
      else match msgFeature op with
        | none => say 4
        | some f =>
          if bit m.feat f = false then say 4
          else if msgAllowed op fn = false then say 5
          else
            let before := match m.asm with | some a => a.payload | none => []
            let wrong := match m.asm with
              | some a => decide (a.opcode ≠ op) || decide ((a.seq + 1) % 2 ^ 32 ≠ sq)
              | none => false
            let m1 := { m with taken := true, asm := none }
            let full := before ++ payload
            if wrong then (d0.mbxSet fn m1).mbxRespond fn op sq 1 []
            else if 1048576 < full.length then (d0.mbxSet fn m1).mbxRespond fn op sq 6 []
            else if op = 0x41 ∧ flags = 0 ∧ (full.length < 16 ∨ 5 < subN full 1 1) then (d0.mbxSet fn m1).mbxRespond fn op sq 6 []
            else d0.mbxSet fn { m1 with cur := some { opcode := op, seq := sq, payload := full, more := decide (flags = 1) } }

/-- The request a message command carries out: taken, complete and with its opcode. -/
def Dev.msg (d : Dev) (fn : Option Nat) (op : Nat) : Option MbxMsg :=
  match (d.mbxAt fn).cur with
  | some c => if c.opcode = op ∧ c.more = false then some c else none
  | none => none

/-- Answer a message. -/
def Dev.answer (d : Dev) (fn : Option Nat) (c : MbxMsg) (status : Nat) (payload : List Byte) : Dev := d.mbxRespond fn c.opcode c.seq status payload

/-- R360: a segment that is not the last is assembled and answered with OK. -/
def Dev.messageSegment (d : Dev) (fn : Option Nat) : Dev :=
  match (d.mbxAt fn).cur with
  | some c => if c.more then (d.mbxSet fn { d.mbxAt fn with asm := some c }).answer fn c 0 [] else d
  | none => d

/-- R361: HELLO. The message's payload here is preceded by the header's MAJOR and MINOR. -/
def Dev.hello (d : Dev) (fn : Option Nat) : Dev :=
  match d.msg fn 1 with
  | none => d
  | some c =>
    let o := d.mbxOffer fn
    let p := c.payload.drop 2
    let m := { d.mbxAt fn with hello := false, agMajor := 0, agMinor := 0, feat := 0, asm := none }
    if subN c.payload 0 1 ≠ o.1 then (d.mbxSet fn m).answer fn c 2 []
    else if p.length < 16 then (d.mbxSet fn m).answer fn c 6 []
    else
      let minor := min (subN c.payload 1 1) o.2.1
      let f := Nat.land (subN p 8 8) o.2.2
      (d.mbxSet fn { m with hello := true, agMajor := o.1, agMinor := minor, feat := f }).answer fn c 0
        (leBytes 1 o.1 ++ leBytes 1 o.2.1 ++ leBytes 6 0 ++ leBytes 8 o.2.2 ++ leBytes 8 f)

/-! ### Bundle messages (R363, R364) -/

/-- The ranges of a request are in order: at least NRANGES of them, each with address and length multiples of 64. -/
def rangesIn (p : List Byte) : Bool :=
  let n := subN p 8 2
  let rs := entries 16 (p.drop 16)
  decide (1 ≤ n) && decide (n ≤ 254) && decide (n ≤ rs.length) && decide ((p.length - 16) % 16 = 0) &&
    rs.all (fun r => decide (subN r 0 8 % 64 = 0) && decide (subN r 8 8 % 64 = 0))

/-- R364: an install is queued and answered with its ticket. -/
def Dev.bundleInstall (d : Dev) : Dev :=
  match d.msg none 0x30 with
  | none => d
  | some c =>
    if rangesIn c.payload = false then d.answer none c 6 []
    else if 8 ≤ (d.store.installs.filter (fun i => decide (i.state < 2))).length then d.answer none c 7 []
    else
      let t := d.store.nextTicket
      let is := d.store.installs ++ [({ ticket := t, total := subN c.payload 0 8 } : Install)]
      let d1 := { d with store := { d.store with nextTicket := t + 1, installs := is.drop (is.length - 64) } }
      d1.answer none c 0 (leBytes 4 t)

/-- R363, R364: BUNDLE_STATUS. -/
def Dev.bundleStatus (d : Dev) : Dev :=
  match d.msg none 0x31 with
  | none => d
  | some c =>
    if c.payload.length < 4 then d.answer none c 6 []
    else match d.store.installs.find? (fun i => decide (i.ticket = subN c.payload 0 4)) with
      | some i => d.answer none c 0 (leBytes 1 i.state ++ leBytes 1 (if i.hostdma then 0xFF else i.outcome) ++ leBytes 1 (b2n i.hostdma) ++ leBytes 1 0 ++ leBytes 1 i.step)
      | none => d.answer none c 0 (leBytes 1 3 ++ leBytes 4 0)

/-- R363: BUNDLE_FREE. -/
def Dev.bundleFreeMsg (d : Dev) : Dev :=
  match d.msg none 0x32 with
  | none => d
  | some c =>
    if c.payload.length < 32 then d.answer none c 6 []
    else
      let r := d.bundleFree (c.payload.take 32)
      r.1.answer none c 0 (leBytes 1 (if r.2 then 0 else 0x0C))

/-! ### Partition and core messages (R363) -/

/-- R363: PTN_RESET, answered when the reset is complete. -/
def Dev.ptnResetMsg (d : Dev) (fn : Option Nat) : Dev :=
  match d.msg fn 0x40 with
  | none => d
  | some c =>
    let p := subN c.payload 0 1
    if c.payload.length < 1 ∨ 31 < p then d.answer fn c 6 []
    else if (match fn with | some n => decide (n ≠ p) | none => false) then d.answer fn c 5 []
    else (d.ptnReset p).answer fn c 0 []

/-- CORE_CTRL with operation `op`: `f` is applied to the core of the rank, and TEN_STATUS answered. -/
def Dev.coreCtrl (d : Dev) (n op : Nat) (f : Dev → Nat → Nat → Nat → Dev) : Dev :=
  match d.msg (some n) 0x41 with
  | none => d
  | some c =>
    if subN c.payload 1 1 ≠ op then d
    else match d.coreOfRank n (subN c.payload 0 1) with
      | none => d.answer (some n) c 6 []
      | some k =>
        let d1 := f d (subN c.payload 0 1) k (subN c.payload 8 8)
        d1.answer (some n) c 0 (leBytes 4 (d1.tenStatus k))

/-- A set operation of CORE_CTRL held by LOCK is ignored, counted with cause 5 and logged (R123). -/
def Dev.coreSetHeld (d : Dev) (n r off : Nat) : Dev := d.accFail (.vf n) (0x40000 + 0x1000 * r + off) 4 true 5

def Dev.coreSetPc (d : Dev) (n : Nat) : Dev :=
  d.coreCtrl n 0 (fun d r k v =>
    if (d.coreAt k).lock then d.coreSetHeld n r 0x0C
    else (d.wrN (tenReg k 0x0C) (v % 2 ^ 32 / 64 * 64)).coreUpd k (fun x => { x with pcSet := true }))

def Dev.coreSetSave (d : Dev) (n : Nat) : Dev :=
  d.coreCtrl n 1 (fun d r k v =>
    if (d.coreAt k).lock then d.coreSetHeld n r 0x18
    else (d.wrN (tenReg k 0x18) (v % 2 ^ 32 / 16384 * 16384)).wrN (tenReg k 0x1C) (v / 2 ^ 32 % 256))

def Dev.coreRun (d : Dev) (n : Nat) : Dev := d.coreCtrl n 2 (fun d _ k _ => d.tenRun k)
def Dev.corePreempt (d : Dev) (n : Nat) : Dev := d.coreCtrl n 3 (fun d _ k _ => d.tenPreempt k)
def Dev.coreResume (d : Dev) (n : Nat) : Dev := d.coreCtrl n 4 (fun d _ k _ => d.tenResume k)
def Dev.coreReset (d : Dev) (n : Nat) : Dev := d.coreCtrl n 5 (fun d _ k _ => d.tenReset k)

/-- R372: DIRECT_GRANT; a bit both granted and revoked ends revoked (log 51). -/
def Dev.directGrant (d : Dev) : Dev :=
  match d.msg none 0x50 with
  | none => d
  | some c =>
    if c.payload.length < 8 then d.answer none c 6 []
    else
      let g := Nat.lor d.host.direct (subN c.payload 0 4)
      let v := g - Nat.land g (subN c.payload 4 4)
      ({ d with host := { d.host with direct := v } }).answer none c 0 (leBytes 4 v)

/-! ### DMA queues (R366 to R369) -/

/-- The queue pairs of a function. -/
def dmaQueues (fn : Option Nat) : Nat := if fn.isNone then 16 else 4

def ringSize (n : Nat) : Bool := [16, 32, 64, 128, 256, 512, 1024, 2048, 4096].contains n

/-- R363: DMAQ_CREATE. -/
def Dev.dmaqCreate (d : Dev) (fn : Option Nat) : Dev :=
  match d.msg fn 0x60 with
  | none => d
  | some c =>
    let p := c.payload
    let q := subN p 0 1
    if p.length < 24 ∨ dmaQueues fn ≤ q ∨ ringSize (subN p 2 2) = false ∨ ringSize (subN p 4 2) = false ∨ subN p 8 8 % 4096 ≠ 0 ∨
        subN p 16 8 % 4096 ≠ 0 then d.answer fn c 6 []
    else if (d.dmaAt fn q).active then d.answer fn c 7 []
    else (d.dmaSet fn q { active := true, sqN := subN p 2 2, cqN := subN p 4 2, sqBase := subN p 8 8, cqBase := subN p 16 8 }).answer fn c 0 []

/-- R369: DMAQ_DESTROY once the running descriptor has finished; a RECV buffer still open is abandoned with the rest (log 52). -/
def Dev.dmaqDestroy (d : Dev) (fn : Option Nat) : Dev :=
  match d.msg fn 0x61 with
  | none => d
  | some c =>
    let q := subN c.payload 0 1
    let x := d.dmaAt fn q
    if c.payload.length < 1 ∨ dmaQueues fn ≤ q ∨ x.active = false then d.answer fn c 6 []
    else if x.run.isSome then d
    else (d.dmaSet fn q {}).answer fn c 0 (leBytes 4 x.todo)

/-- The offset of a doorbell register in a function's BAR0. -/
def doorbell (fn : Option Nat) (q o : Nat) : Nat := (if fn.isNone then dbBase else 0x6000) + 8 * q + o

/-- R369: a new tail submits descriptors, or is ignored with cause 8. -/
def Dev.sqDoorbell (d : Dev) (fn : Option Nat) (q tail : Nat) : Dev :=
  let x := d.dmaAt fn q
  let v := tail % 4096
  let new := (v + x.sqN - x.sqTail) % x.sqN
  if dmaQueues fn ≤ q then d.accFail (fnReq fn) (doorbell fn q 0) 4 true 3
  else if x.active = false ∨ x.sqN ≤ v ∨ x.sqN - 1 < x.todo + new then d.accFail (fnReq fn) (doorbell fn q 0) 4 true 8
  else d.dmaSet fn q { x with sqTail := v, todo := x.todo + new }

/-- R369: a new head frees completion entries, or is ignored with cause 8. -/
def Dev.cqHeadWrite (d : Dev) (fn : Option Nat) (q head : Nat) : Dev :=
  let x := d.dmaAt fn q
  let v := head % 4096
  if dmaQueues fn ≤ q then d.accFail (fnReq fn) (doorbell fn q 4) 4 true 3
  else if x.active = false ∨ x.cqN ≤ v ∨ (x.cqTail + x.cqN - x.cqHead) % x.cqN < (v + x.cqN - x.cqHead) % x.cqN then
    d.accFail (fnReq fn) (doorbell fn q 4) 4 true 8
  else d.dmaSet fn q { x with cqHead := v }

/-- A descriptor from its 64 bytes. -/
def dmaDesc (b : List Byte) : DmaDesc :=
  { haddr := subN b 0 8, shoff := subN b 8 8, len := subN b 16 4, tag := subN b 20 2, op := subN b 22 1, flags := subN b 23 1, pq := subN b 24 1,
    level := subN b 25 1, rsv := subN b 26 6, entry := padTo 32 (sub b 32 32) }

/-- May the queue begin its next descriptor (R368, R369)? Open RECV buffers have been begun. -/
def DmaQ.ready (x : DmaQ) : Bool := x.active && x.run.isNone && decide (x.recv.length < x.todo) && !x.full

/-- R368: BADOP (log 53 for misaligned addresses and a LEVEL above 7). -/
def DmaDesc.bad (s : DmaDesc) (vf : Bool) : Bool :=
  if vf then
    decide (s.op ≠ 1) || decide (3 < s.flags) || decide (s.len < 64) || decide (16777216 < s.len) || decide (s.len % 64 ≠ 0) || decide (s.rsv ≠ 0) ||
    decide (s.haddr % 64 ≠ 0) || decide (s.shoff % 64 ≠ 0) || (bit s.flags 0 && decide (7 < s.level))
  else
    decide (s.op ≠ 2) || decide (s.flags ≠ 0 ∧ s.flags ≠ 2) || decide (s.len < 4096) || decide (1048576 < s.len) || decide (s.len % 4096 ≠ 0) ||
    decide (s.rsv ≠ 0) || decide (s.haddr % 64 ≠ 0) || decide (s.shoff ≠ 0)

/-- R366: a WRITE of VF n's queue q. `desc` is the descriptor as read from host memory, `data` the host data; `hostErr` and `shareErr`
are the lines moved before a host read or a share write failed. -/
def Dev.dmaWrite (d : Dev) (n q : Nat) (desc data : List Byte) (hostErr shareErr : Option Nat) : Dev :=
  let x := d.dmaAt (some n) q
  if x.ready then
    let s := dmaDesc desc
    let fin := fun (y : Dev) (st bytes : Nat) => y.dmaSet (some n) q { x with run := some { desc := s, status := st, bytes := bytes } }
    if s.bad true then fin d 1 0
    else if inKind (d.regionsOf n) 5 s.shoff s.len = false ∨ d.inShare n s.shoff s.len = false then fin d 2 0
    else if bit s.flags 0 && !(decide (s.pq < 64) && (d.pqAt s.pq).en && decide ((d.pqAt s.pq).owner = n)) then fin d 3 0
    else
      let lines := s.len / 64
      let h := min lines (hostErr.getD lines)
      let w := min h (shareErr.getD lines)
      let st := if w < lines then (if w < h then 6 else 4) else 0
      fin (d.shWrite n s.shoff (padTo (64 * w) data)) st (64 * w)
  else d

/-- R483: the number of the next RECV buffer: above those of all the PF's open buffers. -/
def Dev.recvNext (d : Dev) : Nat :=
  (upTo 16).foldl (fun m q => (Tab.get {} d.host.dma q).recv.foldl (fun m b => max m (b.2 + 1)) m) 0

/-- R367: a descriptor of PF queue q: a RECV opens its host buffer. -/
def Dev.dmaRecv (d : Dev) (q : Nat) (desc : List Byte) : Dev :=
  let x := d.dmaAt none q
  if x.ready then
    let s := dmaDesc desc
    if s.bad false then d.dmaSet none q { x with run := some { desc := s, status := 1, bytes := 0 } }
    else d.dmaSet none q { x with recv := x.recv ++ [(s, d.recvNext)] }
  else d

/-- R366, R368, R369: the running descriptor finishes: the entry is pushed, then the completion is written. A queue that was disabled or
given away after the check before the first byte takes no push (R158, R159); DESIGN CHOICE (log 120): the completion then says PQDENIED. -/
def Dev.dmaComplete (d : Dev) (fn : Option Nat) (q : Nat) : Dev :=
  let x := d.dmaAt fn q
  match x.run with
  | none => d
  | some r =>
    if x.active = false then d
    else
      let push := r.status = 0 ∧ fn.isSome ∧ bit r.desc.flags 0
      let open_ := (d.pqAt r.desc.pq).en && decide ((d.pqAt r.desc.pq).owner = fn.getD 0)
      let pr := if push ∧ open_ then d.pqPush r.desc.pq (32 + fn.getD 0) { level := r.desc.level, data := r.desc.entry } else (d, true)
      let st := if push ∧ !open_ then 3 else if pr.2 then r.status else 5
      let hd := (x.sqHead + 1) % x.sqN
      let entry := leBytes 2 r.desc.tag ++ leBytes 2 hd ++ leBytes 1 st ++ leBytes 1 (b2n x.phase) ++ leBytes 2 0 ++ leBytes 4 r.bytes ++ leBytes 4 0
      let tl := (x.cqTail + 1) % x.cqN
      let d1 := (pr.1.emit (.hostWrite fn (x.cqBase + 16 * x.cqTail) entry)).dmaSet fn q
        { x with run := none, sqHead := hd, todo := x.todo - 1, cqTail := tl, phase := if tl = 0 then !x.phase else x.phase }
      if bit r.desc.flags 1 then d1.msixRaise fn (if fn.isNone then 16 + q else 4 + q) else d1

/-- R370: a vector that holds pending raises and has become deliverable sends one message. -/
def Dev.msixDeliver (d : Dev) (fn : Option Nat) (v : Nat) : Dev :=
  if Tab.get false d.host.pba (64 * fnIx fn + v) && d.msixOpen fn v then
    ({ d with host := { d.host with pba := Tab.set false d.host.pba (64 * fnIx fn + v) false } }).emit (.msix fn v)
  else d

/-! ### Resets and configuration space (R350, R371, R373, R374) -/

/-- A mailbox is reset: a taken request runs on and its response is discarded. -/
def Mbx.reset (m : Mbx) : Mbx := { ({} : Mbx) with cur := m.cur, discard := m.cur.isSome }

/-- R1, R349: the configuration header a function shows. -/
def Dev.cfgHead (d : Dev) : Option Nat → CfgHead
  | none => d.host.pfHead
  | some _ => d.host.vfHead

/-- R349, R474, R476: the subsystem vendor and subsystem ID come from the board data; with invalid board data they read 0x1F7A and 0. -/
def Dev.headLoad (d : Dev) : Dev :=
  let v := if d.pwr.boardErr = 0 then leNat ((d.pwr.board.drop 16).take 2) else 0x1F7A
  let i := if d.pwr.boardErr = 0 then leNat ((d.pwr.board.drop 18).take 2) else 0
  { d with host := { d.host with pfHead := { d.host.pfHead with subVendor := v, subDevice := i },
                                 vfHead := { d.host.vfHead with subVendor := v, subDevice := i } } }

/-- R371, R373: the host-side state of a function takes its reset values: mailbox, DMA queues, MSI-X table, error counts; and, as the
PCIe specification has it, its enables (log 54). DESIGN CHOICE (log 103): the function's read and staging latches (R9) stay; a warm reset
and PORST_N clear them. -/
def Dev.fnReset (d : Dev) (fn : Option Nat) : Dev :=
  let b := fnBase fn
  let i := fnIx fn
  let h := d.host
  let h1 := { h with mbx := Tab.set ({} : Mbx) h.mbx i (Tab.get ({} : Mbx) h.mbx i).reset, dma := Tab.keep h.dma (fun k _ => !decide (k / 16 = i)) }
  let h2 := { h1 with pba := Tab.keep h.pba (fun k _ => !decide (k / 64 = i)), msixEn := Tab.set false h.msixEn i false }
  let h3 := { h2 with bme := Tab.set false h.bme i false, mse := Tab.set false h.mse i false }
  ((({ d with host := h3, dict := { d.dict with sess := Tab.set ({} : Sess) d.dict.sess i {} } }).regsReset (b + glbBase + 0x14) (b + glbBase + 0x24)).regsReset (b + mbxBase + 0x2000) (b + mbxBase + 0x2024)).regsReset
    (b + msixBase) (b + msixBase + 0x400)

/-- R371: every function. -/
def Dev.fnResets (d : Dev) : List Nat → Dev
  | [] => d
  | n :: ns => (d.fnReset (some n)).fnResets ns

/-- R371: PF function-level reset: host-side state of the PF and every VF, grants revoked, code 48 released. -/
def Dev.pfFlr (d : Dev) : Dev :=
  let d1 := ((d.fnReset none).fnResets (upTo 32)).pathDown 0
  let d2 := { d1 with host := { d1.host with direct := 0, vfEnable := false, numVfs := 0 } }
  (d2.lckForceOwner 48 4).emptyQueues (d2.queuesOf 48)

/-- R371: PCIe hot reset or link down. -/
def Dev.hotReset (d : Dev) : Dev :=
  let d1 := d.pfFlr
  { d1 with host := { d1.host with linkUp := false } }

/-- R371: a low PERST_N resets the endpoint and counts as a link down. -/
def Dev.perst (d : Dev) : Dev :=
  let d1 := d.hotReset
  { d1 with pwr := { d1.pwr with perst := true } }

/-- R371: VF n function-level reset. -/
def Dev.vfFlr (d : Dev) (n : Nat) : Dev := (d.fnReset (some n)).ptnReset n

/-- R348, R373: the link completes training at a rate code, a width in lanes and FLIT mode. -/
def Dev.linkTrained (d : Dev) (rate width : Nat) (flit : Bool) : Dev :=
  if [3, 4, 5].contains rate && [4, 8, 16].contains width then
    (({ d with host := { d.host with linkUp := true }, pwr := { d.pwr with perst := false } }).wrN (glbBase + 8)
      (rate + 16 * width + 512 * b2n (flit || decide (rate = 5)))).event (glbBase + 0x0C) 2
  else d

/-- R350, R370, R482: the effect of a configuration-space write. It resets no partition; a path loses Bus Master Enable with it. -/
def Dev.configWrite (d : Dev) (c : CfgWrite) : Dev :=
  match c with
  | .vfEnable on => { d with host := { d.host with vfEnable := on } }
  | .numVfs n => if 1 ≤ n ∧ n ≤ 32 then { d with host := { d.host with numVfs := n } } else d
  | .mse fn on => { d with host := { d.host with mse := Tab.set false d.host.mse (fnIx fn) on } }
  | .bme fn on =>
    let d1 := { d with host := { d.host with bme := Tab.set false d.host.bme (fnIx fn) on } }
    if on = false ∧ fn = none then d1.pathDown 0 else d1
  | .msixEn fn on => { d with host := { d.host with msixEn := Tab.set false d.host.msixEn (fnIx fn) on } }

/-- R351: DOE Discovery answers vendor 0x0001 with the data object types: Discovery, SPDM and Secured SPDM, by index (log 55). -/
def Dev.doeDiscovery (d : Dev) (index : Nat) : Dev :=
  d.emit (.doe (if index < 3 then leBytes 2 1 ++ leBytes 1 index ++ leBytes 1 (if index < 2 then index + 1 else 0) else leBytes 2 0xFFFF ++ leBytes 2 0))

end Sys2Proof
end

