-- ==== Sys2Proof/Machine/PowerLoop.lean ====
section
/-! DEFINITION. The power loop, the thermal loop and the fixed hardware limits (chapters 16 and 18, R419 to R423, R457 to R460). -/

namespace Sys2Proof

def pwrReg (off : Nat) : Nat := pwrBase + off

/-! ### Tensor-die clocks (R85, R477) -/

def Dev.dieReg (d : Dev) (k : Nat) : Nat := d.rdN (pwrReg (0x60 + 4 * k))

def Dev.dieFld (d : Dev) (k h l v : Nat) : Dev := d.wrN (pwrReg (0x60 + 4 * k)) (putBits (d.dieReg k) h l v)

def Dev.fSet (d : Dev) (k : Nat) : Nat := bits (d.dieReg k) 10 0

/-- k of die `k`'s clock generator now. -/
def Dev.kNow (d : Dev) (k : Nat) : Nat := bits (d.dieReg k) 15 11

/-- k as last requested. -/
def Dev.kWant (d : Dev) (k : Nat) : Nat := match Tab.get 0 d.pwr.tclkReq k with | 0 => d.kNow k | n => n

/-- R85: the smallest k that keeps F_set × k ÷ 16 at or above 400 MHz. -/
def lowK (f : Nat) : Nat := if f = 0 then 1 else max 1 ((6400 + f - 1) / f)

def Dev.dieLow (d : Dev) (k : Nat) : Nat := lowK (d.fSet k)

/-- A request for a step of die k (R419). -/
def Dev.kRequest (d : Dev) (k v : Nat) : Dev := { d with pwr := { d.pwr with tclkReq := Tab.set 0 d.pwr.tclkReq k v } }

/-- A limit of the hardware sets k at once, and a step still requested is gone. -/
def Dev.kForce (d : Dev) (k v : Nat) : Dev := (d.kRequest k 0).dieFld k 15 11 v

/-- The highest k the limits of the hardware and the lowest step leave a die: 8 while die B is throttled (R422), and no raise while the die
is under its own throttle (R419). -/
def Dev.kLimit (d : Dev) (k : Nat) : Nat :=
  max (d.dieLow k) (min (if d.pwr.hot.contains 20 then 8 else 16) (if bit (d.dieReg k) 21 then d.kNow k else 16))

/-- R85: the clock generator of die k applies the step requested: k moves by one toward it, never below the lowest step, and a limit of the
hardware stands over it (R422). -/
def Dev.tclkStep (d : Dev) (k : Nat) : Dev :=
  match Tab.get 0 d.pwr.tclkReq k with
  | 0 => d
  | n => d.kForce k (max (d.dieLow k) (min (d.kLimit k) (if n < d.kNow k then d.kNow k - 1 else if d.kNow k < n then d.kNow k + 1 else n)))

/-- R85: a step is applied no later than 100 ns after its request: before the next period of the loop. -/
def Dev.tclkSteps (d : Dev) : List Nat → Dev
  | [] => d
  | k :: ks => (d.tclkStep k).tclkSteps ks

/-! ### Memory limits (R135) -/

def Dev.hbmLim (d : Dev) : Nat := bits (d.rdN (memReg 4)) 12 8
def Dev.msLim (d : Dev) : Nat := bits (d.rdN (memReg 4)) 4 0
def Dev.hbmLimSet (d : Dev) (v : Nat) : Dev := d.wrN (memReg 4) (putBits (d.rdN (memReg 4)) 12 8 v)
def Dev.msLimSet (d : Dev) (v : Nat) : Dev := d.wrN (memReg 4) (putBits (d.rdN (memReg 4)) 4 0 v)

/-! ### The power loop (R419, R457 to R460) -/

/-- A part the loop steps. -/
inductive PPart
  | die (k : Nat) | hbm | ms
  deriving DecidableEq, Repr

/-- The part's present setting: k, or LIM. -/
def Dev.setting (d : Dev) : PPart → Nat
  | .die k => d.kWant k
  | .hbm => d.hbmLim
  | .ms => d.msLim

def Dev.stepPart (d : Dev) (p : PPart) (v : Nat) : Dev :=
  match p with
  | .die k => d.kRequest k v
  | .hbm => d.hbmLimSet v
  | .ms => d.msLimSet v

/-- The part's estimate in mW among the eight of PWR_PART. -/
def partEst (est : List Nat) : PPart → Nat
  | .die k => est.getD (2 + k) 0
  | .hbm => est.getD 6 0
  | .ms => est.getD 7 0

/-- Sixteen settings divide this: a saving in mW times it is whole. -/
def stepUnit : Nat := 720720

/-- R459: the estimated saving of a step of a part at setting v, in mW ÷ 720,720. -/
def stepSaving (est : List Nat) (p : PPart) (v : Nat) : Nat := partEst est p * (stepUnit / v)

/-- The dies by estimate, highest first; ties by number (log 57). -/
def diesHigh (est : List Nat) : List Nat :=
  let ins : List Nat → Nat → List Nat := fun l k => l.takeWhile (fun j => decide (est.getD (2 + k) 0 ≤ est.getD (2 + j) 0)) ++ [k] ++
    l.dropWhile (fun j => decide (est.getD (2 + k) 0 ≤ est.getD (2 + j) 0))
  (upTo 4).foldl ins []

/-- The dies by estimate, lowest first; ties by number (log 57). -/
def diesLow (est : List Nat) : List Nat :=
  let ins : List Nat → Nat → List Nat := fun l k => l.takeWhile (fun j => decide (est.getD (2 + j) 0 ≤ est.getD (2 + k) 0)) ++ [k] ++
    l.dropWhile (fun j => decide (est.getD (2 + j) 0 ≤ est.getD (2 + k) 0))
  (upTo 4).foldl ins []

def Dev.dieRuns (d : Dev) (k : Nat) : Bool := decide (Tab.get 0 d.ptn.dies k = 0)

/-- R459: the candidates in order, each with the setting it stops above. -/
def Dev.reduceOrder (d : Dev) (est : List Nat) : List (PPart × Nat) :=
  [(.ms, 8)] ++ ((diesHigh est).filter (fun k => d.dieRuns k && !bit (d.dieReg k) 22)).map (fun k => (PPart.die k, d.dieLow k)) ++
  [(.hbm, 8), (.ms, 1), (.hbm, 1)]

/-- R459: walk the candidates until the savings reach the excess; no part steps twice. -/
def Dev.reduceWalk (d : Dev) (est : List Nat) (need got : Nat) (done : List PPart) : List (PPart × Nat) → Dev × List PPart
  | [] => (d, done)
  | (p, lo) :: ps =>
    if need ≤ got then (d, done)
    else
      let v := d.setting p
      if lo < v && !done.contains p then (d.stepPart p (v - 1)).reduceWalk est need (got + stepSaving est p v) (p :: done) ps
      else d.reduceWalk est need got done ps

/-- The highest k allowed a die: its thermal ceiling, and 8 while die B is throttled, but not less than its lowest step (R85, R420, R422). -/
def Dev.kTop (d : Dev) (k : Nat) : Nat :=
  max (d.dieLow k) (min (min 16 (bits (d.dieReg k) 20 16)) (if d.pwr.hot.contains 20 then 8 else 16))

def Dev.partTop (d : Dev) : PPart → Nat
  | .die k => d.kTop k
  | .hbm => d.pwr.hbmCeil
  | .ms => d.pwr.msCeil

/-- R420: a part above its thermal ceiling goes down one step. -/
def Dev.ceilWalk (d : Dev) : List PPart → Dev × List PPart
  | [] => (d, [])
  | p :: ps =>
    let r := d.ceilWalk ps
    let v := r.1.setting p
    if r.1.partTop p < v then (r.1.stepPart p (v - 1), p :: r.2) else r

/-- R460: the candidates of a raise in order. -/
def Dev.raiseOrder (d : Dev) (est : List Nat) : List PPart :=
  (if d.hbmLim < 8 then [.hbm] else []) ++ (if d.msLim < 8 then [.ms] else []) ++
  ((diesLow est).filter (fun k => d.dieRuns k && !bit (d.dieReg k) 21)).map PPart.die ++
  (if 8 ≤ d.hbmLim then [.hbm] else []) ++ (if 8 ≤ d.msLim then [.ms] else [])

/-- R460: the first candidate that may rise and whose cost fits below C − 5 W. -/
def Dev.raiseOne (d : Dev) (est : List Nat) (p c : Nat) : Dev :=
  match (d.raiseOrder est).find? (fun x => decide (d.setting x < min 16 (d.partTop x)) &&
      decide (p * stepUnit + stepSaving est x (d.setting x + 1) + 5000 * stepUnit ≤ c * stepUnit)) with
  | some x => d.stepPart x (d.setting x + 1)
  | none => d

/-- R421: a transaction on a rail failed three times: its calibration is held. -/
def Dev.railFail (d : Dev) (r : Nat) : Dev :=
  let d1 := { d with pwr := { d.pwr with railHeld := if d.pwr.railHeld.contains r then d.pwr.railHeld else d.pwr.railHeld ++ [r] } }
  let d2 := (d1.report 0x12 7 1 0xFF r).count64 (pwrReg 0x120) 1
  if d.tel.fwHeld then d2 else d2.alarmSet 7 r true 0 false

/-- R421: a transaction on a rail succeeded. -/
def Dev.railOk (d : Dev) (r : Nat) : Dev :=
  let d1 := { d with pwr := { d.pwr with railHeld := d.pwr.railHeld.filter (fun x => decide (x ≠ r)) } }
  if d.tel.fwHeld then d1 else d1.alarmSet 7 r false 0 false

/-- R421: the readings of the rails: READ_VOUT in mV and READ_IOUT in 0.1 A, or none after three failures. -/
def Dev.railReads (d : Dev) : List (Nat × Option (Nat × Nat)) → Dev
  | [] => d
  | (r, none) :: rs => (d.railFail r).railReads rs
  | (r, some (v, i)) :: rs => ((d.railOk r).wrN (pwrReg (0x80 + 4 * r)) (v % 65536 + 65536 * i)).railReads rs

/-- PWR_STAT from the state of the loop and of the limits (R477). -/
def Dev.pwrStat (d : Dev) (run fallback limiting empty : Bool) : Dev :=
  let h : Nat → Nat := fun p => b2n (d.pwr.hot.contains p)
  d.wrN (pwrReg 8) (b2n run + 2 * b2n fallback + 4 * b2n limiting + 8 * b2n empty + 16 * h 0 + 32 * h 1 + 64 * h 2 + 128 * h 3 + 256 * h 20 + 512 * h 21)

/-- PWR_STAT's throttle bits follow the limits. -/
def Dev.pwrHot (d : Dev) : Dev :=
  let s := d.rdN (pwrReg 8)
  d.pwrStat (bit s 0) (bit s 1) (bit s 2) (bit s 3)

/-- R457: max(125 W, F_est + B_est) in mW. -/
def planeEst (est : List Nat) : Nat := max 125000 (est.getD 0 0 + est.getD 1 0)

/-- R457: P in mW. -/
def packageEst (est : List Nat) : Nat := planeEst est + (est.drop 2).foldl (· + ·) 0

/-- The cap C in mW (PWR_CAP). -/
def Dev.cap (d : Dev) : Nat := bits (d.rdN (pwrReg 4)) 9 0 * 1000

/-- R458: the bucket after a period, in 0.1 µJ; E_MAX is C × 5 ms. -/
def bucketNext (e c p : Nat) : Nat := (satI ((min e (50 * c) : Nat) + ((c : Int) - p)) 0 (50 * c : Nat)).toNat

/-- R459: the excess X in mW. -/
def excess (e c p : Nat) : Nat := max (p - 600000) (if e = 0 then p - c else 0)

/-- R419, R457 to R460: one period: estimates of PWR_PART 0 to 7 in mW, and the rails read in it. -/
def Dev.powerLoop (d : Dev) (parts : List Nat) (rails : List (Nat × Option (Nat × Nat))) : Dev :=
  let est := parts.take 8
  let d0 := (d.tclkSteps (upTo 4)).railReads (rails.filter (fun r => decide (r.1 < 16)))
  let c := d0.cap
  let p := packageEst est
  let e := bucketNext d0.pwr.bucket c p
  let x := excess e c p
  let pw := { d0.pwr with bucket := e, armed := true }
  let d1 := (upTo 8).foldl (fun (y : Dev) i => y.wrN (pwrReg (0x30 + 4 * i)) (est.getD i 0)) { d0 with pwr := pw }
  let d2 := ((d1.wrN (pwrReg 0x20) p).wrN (pwrReg 0x24) (c - planeEst est)).wrN (pwrReg 0x28) (e / 10)
  let r0 := d2.ceilWalk ([PPart.hbm, .ms] ++ (((upTo 4).filter d2.dieRuns).filter (fun k => !bit (d2.dieReg k) 22)).map PPart.die)
  let r1 := if 0 < x then r0.1.reduceWalk est (x * stepUnit) ((r0.2.map (fun q => stepSaving est q (d2.setting q))).foldl (· + ·) 0) r0.2 (r0.1.reduceOrder est) else r0
  let cut := decide (0 < x) && !r1.2.isEmpty
  let peak := decide (600000 < p)
  let d3 := if x = 0 ∧ r0.2 = [] ∧ 25 * c ≤ e then r1.1.raiseOne est p c else r1.1
  let d4 := if cut && decide (10000 ≤ d3.pwr.quiet) then d3.event (pwrReg 0xC) 0 else d3
  let d5 := if cut && peak then d4.event (pwrReg 0xC) 1 else d4
  let d6 := if cut then d5.count64 (pwrReg 0x100) 1 else d5
  let d7 := if peak then d6.count64 (pwrReg 0x108) 1 else d6
  let d8 := { d7 with pwr := { d7.pwr with quiet := if cut then 0 else min 10000 (d7.pwr.quiet + 1) } }
  d8.pwrStat true false cut (decide (e = 0))

/-! ### The thermal loop (R420) -/

/-- Does some part of a range of `temps` exceed, or do all stay below, a bound in 0.1 °C? -/
def anyOver (ts : List Int) (lo n : Nat) (b : Int) : Bool := (upTo n).any (fun i => decide (b < ts.getD (lo + i) 0))
def allBelow (ts : List Int) (lo n : Nat) (b : Int) : Bool := (upTo n).all (fun i => decide (ts.getD (lo + i) 0 < b))

/-- R420: one period of the thermal loop: the ceilings follow the temperatures, a die's never below its lowest step. -/
def Dev.thermalLoop (d : Dev) (temps : List Int) : Dev :=
  let d0 := { d with pwr := { d.pwr with temps := temps.take 22 } }
  let d1 := (upTo 4).foldl (fun (x : Dev) k =>
    let c := bits (x.dieReg k) 20 16
    let t := temps.getD k 0
    if 950 < t then x.dieFld k 20 16 (max (x.dieLow k) (c - 1)) else if t < 920 then x.dieFld k 20 16 (min 16 (c + 1)) else x) d0
  let mem : Dev → Nat → Nat → Nat → Nat × Nat := fun _ lo lim ceil =>
    if anyOver temps lo 8 950 then (max 1 (min lim ceil - 1), max 1 (min lim ceil - 1))
    else if allBelow temps lo 8 920 then (lim, min 16 (ceil + 1)) else (lim, ceil)
  let h := mem d1 4 d1.hbmLim d1.pwr.hbmCeil
  let m := mem d1 12 d1.msLim d1.pwr.msCeil
  let d2 := (d1.hbmLimSet h.1).msLimSet m.1
  { d2 with pwr := { d2.pwr with hbmCeil := h.2, msCeil := m.2 } }

/-! ### Fixed hardware limits (R422, R423) -/

/-- R422: k of a die under the limit of die B; a request above the limit is gone. -/
def Dev.holdB (d : Dev) (k : Nat) : Dev :=
  if max 8 (d.dieLow k) < d.kNow k then d.kForce k (max 8 (d.dieLow k))
  else if max 8 (d.dieLow k) < d.kWant k then d.kRequest k 0 else d

/-- R422: a part (the numbering of `Pwr.temps`) is at 100 °C or more, or is below 98 °C again. Each command for a hot tensor die is one
microsecond's step. -/
def Dev.hwThrottle (d : Dev) (part : Nat) (hot : Bool) : Dev :=
  if hot then
    let first := !d.pwr.hot.contains part
    let d0 := if first then { d with pwr := { d.pwr with hot := d.pwr.hot ++ [part] } } else d
    let d1 := if first then (d0.event (pwrReg 0xC) 3).count64 (pwrReg 0x118) 1 else d0
    let d2 :=
      if part < 4 then (d1.kForce part (max (d1.dieLow part) (d1.kNow part - 1))).dieFld part 21 21 1
      else if part = 20 then (upTo 4).foldl (fun (x : Dev) k => x.holdB k) d1
      else if part = 21 then d1.alarmSet 5 0 true 0 false
      else d1
    d2.pwrHot
  else if d.pwr.hot.contains part then
    let d1 := { d with pwr := { d.pwr with hot := d.pwr.hot.filter (fun x => decide (x ≠ part)) } }
    (if part < 4 then d1.dieFld part 21 21 0 else if part = 21 then d1.alarmSet 5 0 false 0 false else d1).pwrHot
  else d

/-- R422: a die or stack reaches 110 °C: the fault of R330, R337 or R194. -/
def Dev.hwShutdown (d : Dev) (part det : Nat) : Dev :=
  if part < 4 then d.dieFail part 2 det true
  else if part < 12 then d.hbmFail (part - 4) det
  else if part < 20 then d.msFail (part - 12)
  else if part = 20 then d.dieBFail
  else d.dieFLoss

/-- R423: no power-loop update for 10 ms: every tensor die at k = 8 or its lowest step, both memory limits at 8. A die under its own
throttle keeps the limit's lower k. -/
def Dev.loopLoss (d : Dev) : Dev :=
  if d.pwr.armed && !bit (d.rdN (pwrReg 8)) 1 then
    let d1 := (upTo 4).foldl (fun (x : Dev) k => let v := max 8 (x.dieLow k); x.kForce k (if bit (x.dieReg k) 21 then min v (x.kNow k) else v)) d
    let d2 := ((((d1.hbmLimSet 8).msLimSet 8).event (pwrReg 0xC) 2).count64 (pwrReg 0x110) 1).report 0x12 9 1 0xFF 0
    d2.pwrStat false true false (bit (d2.rdN (pwrReg 8)) 3)
  else d

/-- R85: k, the step requested and the thermal ceiling of die k are not below its lowest step. -/
def Dev.kRaise (d : Dev) (k : Nat) : Dev :=
  let lo := d.dieLow k
  let d1 := if d.kNow k < lo then d.kForce k lo else if d.kWant k < lo then d.kRequest k lo else d
  if bits (d1.dieReg k) 20 16 < lo then d1.dieFld k 20 16 lo else d1

/-- R24, R419, R421, R422, R476: firmware sets F_set of die k: the voltage of the die's fused table first, unless it lies outside the
rail's window, within 0.55 to 0.95 V (R490), or no valid board data lets the PMBus master set one. The clock generator refuses an F_set above the fused ceiling. -/
def Dev.setFreq (d : Dev) (k f : Nat) : Dev :=
  let mv := Config.fuseVolt k f
  let w := Config.voltWindow (2 + k)
  if d.pwr.boardErr ≠ 0 ∨ Config.fuseTclk k < f then d
  else if mv < max 550 w.1 ∨ min 950 w.2 < mv then { d with pwr := { d.pwr with blocked := d.pwr.blocked + 1 } }.report 0x12 8 2 0xFF (2 + k)
  else ((d.emit (.pmbus (2 + k) mv)).dieFld k 10 0 f).kRaise k

end Sys2Proof
end

