-- ==== Sys2Proof/Machine/DictTab.lean ====
section
/-! DEFINITION. The entries of the object dictionary (R389): index, subindexes, length, access right, default, persistence, VF
visibility and when a committed value takes effect; and the ranges of their values. -/

namespace Sys2Proof

/-- Access rights (R377). -/
inductive Acc
  | const | ro | wo | rw | rws
  deriving DecidableEq, Repr

/-- When a committed value takes effect (R380): it is a status or acts by itself, now, at the next reset, at the next NMT reset. -/
inductive Eff
  | none | now | reset | nmt
  deriving DecidableEq, Repr

/-- One line of the index list: subindexes `lo` to `hi` of `idx`, `len` bytes each (0: variable up to `cap`). For a window entry (R378)
the ROW has `rows` = its first and last row. -/
structure DEnt where
  idx : Nat
  lo : Nat := 0
  hi : Nat := 0
  len : Nat
  acc : Acc
  dflt : Nat := 0
  persist : Bool := false
  v : Bool := false
  eff : Eff := .none
  cap : Nat := 0
  rows : Option (Nat × Nat) := .none
  deriving DecidableEq, Repr

/-- 0x1000 to 0x1FFF. "EC3200" and "A0" in ASCII. -/
def dict1 : List DEnt := [
  { idx := 0x1000, len := 4, acc := .const, dflt := 0x32000000, v := true },
  { idx := 0x1001, len := 1, acc := .ro, v := true },
  { idx := 0x1003, len := 1, acc := .rw },
  { idx := 0x1003, lo := 1, hi := 16, len := 4, acc := .ro },
  { idx := 0x1008, len := 6, acc := .const, dflt := 0x303032334345, v := true },
  { idx := 0x1009, len := 2, acc := .const, dflt := 0x3041, v := true },
  { idx := 0x100A, len := 0, acc := .ro, v := true },
  { idx := 0x1010, lo := 1, hi := 3, len := 4, acc := .rw, dflt := 1 },
  { idx := 0x1011, lo := 1, hi := 3, len := 4, acc := .rws, dflt := 1 },
  { idx := 0x1014, len := 4, acc := .ro },
  { idx := 0x1017, len := 2, acc := .rw, dflt := 1000, persist := true },
  { idx := 0x1018, lo := 1, hi := 1, len := 4, acc := .const, dflt := 0x1F7A, v := true },
  { idx := 0x1018, lo := 2, hi := 2, len := 4, acc := .const, dflt := 0x3200, v := true },
  { idx := 0x1018, lo := 3, hi := 3, len := 4, acc := .const, v := true },
  { idx := 0x1018, lo := 4, hi := 4, len := 4, acc := .ro, v := true },
  { idx := 0x1200, lo := 1, hi := 2, len := 4, acc := .ro } ]

/-- 0x2000 to 0x2FFF. -/
def dict2 : List DEnt := [
  { idx := 0x2000, lo := 1, hi := 1, len := 2, acc := .rws, persist := true, eff := .now },
  { idx := 0x2000, lo := 2, hi := 2, len := 1, acc := .ro },
  { idx := 0x2010, lo := 1, hi := 9, len := 1, acc := .ro, v := true },
  { idx := 0x2020, lo := 1, hi := 18, len := 4, acc := .rw, persist := true, eff := .now },
  { idx := 0x2021, len := 16, acc := .rws },
  { idx := 0x2022, lo := 1, hi := 1, len := 2, acc := .ro, v := true },
  { idx := 0x2022, lo := 2, hi := 2, len := 4, acc := .ro, v := true },
  { idx := 0x2022, lo := 3, hi := 3, len := 1, acc := .ro, v := true },
  { idx := 0x2022, lo := 4, hi := 4, len := 16, acc := .ro, v := true },
  { idx := 0x2030, lo := 1, hi := 1, len := 4, acc := .rw, persist := true },
  { idx := 0x2030, lo := 2, hi := 2, len := 1, acc := .rw, persist := true },
  { idx := 0x2030, lo := 3, hi := 3, len := 4, acc := .rw, persist := true },
  { idx := 0x2030, lo := 4, hi := 4, len := 16, acc := .rw, persist := true },
  { idx := 0x2030, lo := 5, hi := 5, len := 1, acc := .rw, persist := true },
  { idx := 0x2030, lo := 6, hi := 6, len := 16, acc := .rw, persist := true },
  { idx := 0x2031, lo := 1, hi := 1, len := 2, acc := .rws, dflt := 49640, persist := true },
  { idx := 0x2031, lo := 2, hi := 2, len := 1, acc := .rws, persist := true },
  { idx := 0x2032, lo := 1, hi := 2, len := 1, acc := .rw, persist := true, eff := .nmt },
  { idx := 0x2032, lo := 3, hi := 3, len := 2, acc := .rw, dflt := 1000, persist := true },
  { idx := 0x2040, lo := 1, hi := 1, len := 18, acc := .rw, persist := true },
  { idx := 0x2040, lo := 2, hi := 2, len := 4, acc := .rw, dflt := 0xFFFFFFFF, persist := true },
  { idx := 0x2040, lo := 3, hi := 3, len := 2, acc := .rw, dflt := 1000, persist := true } ]

/-- The default port record but for SPEED: MAXFRAME 1,518, STORMT 100. -/
def portRecDflt : Nat := 1518 * 2 ^ 48 + 100 * 2 ^ 160

/-- 0x3000 to 0x3FFF. R448 gives 0x3100 a token (log 56). -/
def dict3 : List DEnt := [
  { idx := 0x3000, lo := 1, hi := 8, len := 1, acc := .rw, persist := true, eff := .now },
  { idx := 0x3001, lo := 1, hi := 32, len := 32, acc := .rw, dflt := portRecDflt, persist := true, eff := .now },
  { idx := 0x3002, lo := 1, hi := 32, len := 272, acc := .rw, persist := true, eff := .now },
  { idx := 0x3003, lo := 1, hi := 1, len := 1, acc := .rws, eff := .now },
  { idx := 0x3003, lo := 2, hi := 2, len := 2, acc := .rw, dflt := 10, persist := true },
  { idx := 0x3010, lo := 1, hi := 1, len := 4, acc := .rw, dflt := 0x12B51269, persist := true, eff := .now },
  { idx := 0x3010, lo := 2, hi := 2, len := 4, acc := .rw, dflt := 0x00661268, persist := true, eff := .now },
  { idx := 0x3010, lo := 3, hi := 3, len := 4, acc := .rw, persist := true, eff := .now },
  { idx := 0x3011, lo := 1, hi := 8, len := 4, acc := .rw, persist := true, eff := .now },
  { idx := 0x3012, lo := 1, hi := 64, len := 4, acc := .rw, dflt := 0x04002710, persist := true, eff := .now },
  { idx := 0x3013, lo := 1, hi := 32, len := 4, acc := .rw, persist := true, eff := .now },
  { idx := 0x3014, lo := 1, hi := 16, len := 32, acc := .rw, persist := true, eff := .now },
  { idx := 0x3015, lo := 1, hi := 8, len := 16, acc := .rw, persist := true, eff := .now },
  { idx := 0x3016, lo := 1, hi := 8, len := 32, acc := .rw, persist := true, eff := .now },
  { idx := 0x3020, len := 1, acc := .rw, dflt := 4, persist := true, eff := .now },
  { idx := 0x3021, lo := 1, hi := 31, len := 16, acc := .rw, persist := true, eff := .now },
  { idx := 0x3022, lo := 1, hi := 31, len := 8, acc := .rw, persist := true, eff := .now },
  { idx := 0x3030, len := 4, acc := .rw, dflt := 4096, persist := true, eff := .now },
  { idx := 0x3031, lo := 1, hi := 32, len := 8, acc := .rw, dflt := 1024 + 65536 * 2 ^ 32, persist := true, eff := .now },
  { idx := 0x3032, lo := 1, hi := 1, len := 4, acc := .rw },
  { idx := 0x3032, lo := 2, hi := 2, len := 24, acc := .rw, dflt := 2 * 2 ^ 128, persist := true, eff := .now, rows := some (1, 16383) },
  { idx := 0x3033, lo := 1, hi := 1, len := 4, acc := .rw },
  { idx := 0x3033, lo := 2, hi := 2, len := 28, acc := .rw, persist := true, eff := .now, rows := some (0, 255) },
  { idx := 0x3034, lo := 1, hi := 32, len := 2, acc := .rw, persist := true, eff := .now },
  { idx := 0x3040, lo := 1, hi := 64, len := 40, acc := .rw, persist := true, eff := .now },
  { idx := 0x3041, lo := 1, hi := 64, len := 8, acc := .rw, persist := true, eff := .now },
  { idx := 0x3050, len := 1, acc := .rw, dflt := 1, persist := true, eff := .now },
  { idx := 0x3060, lo := 1, hi := 64, len := 132, acc := .rw, persist := true, eff := .now },
  { idx := 0x3100, lo := 1, hi := 1, len := 4, acc := .rw },
  { idx := 0x3100, lo := 2, hi := 2, len := 32, acc := .rws, persist := true, rows := some (0, 4095) } ]

/-- 0x4000 to 0x6FFF. -/
def dict4 : List DEnt := [
  { idx := 0x4000, lo := 1, hi := 32, len := 4, acc := .ro, v := true },
  { idx := 0x4001, lo := 1, hi := 32, len := 1, acc := .rws },
  { idx := 0x4002, lo := 1, hi := 64, len := 4, acc := .rw, dflt := 0x80040000, persist := true, eff := .now },
  { idx := 0x4010, len := 4, acc := .rws, persist := true, eff := .reset },
  { idx := 0x4011, lo := 1, hi := 32, len := 128, acc := .rws, persist := true, eff := .reset },
  { idx := 0x4012, len := 2, acc := .rw, dflt := 1000, persist := true },
  { idx := 0x4013, len := 1, acc := .rws, dflt := 0xFF, persist := true, eff := .reset },
  { idx := 0x4014, len := 1, acc := .ro, v := true },
  { idx := 0x4020, lo := 1, hi := 4, len := 2, acc := .rw, dflt := 1500, persist := true, eff := .now },
  { idx := 0x4080, lo := 1, hi := 128, len := 8, acc := .ro },
  { idx := 0x5000, len := 1, acc := .ro, v := true },
  { idx := 0x5001, len := 4, acc := .rws },
  { idx := 0x5010, lo := 1, hi := 8, len := 48, acc := .rws, persist := true },
  { idx := 0x5011, len := 48, acc := .rws, persist := true },
  { idx := 0x5012, len := 8, acc := .ro, persist := true },
  { idx := 0x5020, len := 0, acc := .wo, cap := 8192 },
  { idx := 0x5030, len := 0, acc := .ro, v := true },
  { idx := 0x5040, lo := 1, hi := 1, len := 4, acc := .rw },
  { idx := 0x5040, lo := 2, hi := 2, len := 64, acc := .rws, rows := some (0, 4095) },
  { idx := 0x6000, lo := 1, hi := 22, len := 2, acc := .ro, v := true },
  { idx := 0x6001, lo := 1, hi := 6, len := 4, acc := .ro, v := true },
  { idx := 0x6002, lo := 1, hi := 4, len := 2, acc := .ro, v := true },
  { idx := 0x6003, lo := 1, hi := 4, len := 2, acc := .ro, v := true },
  { idx := 0x6010, lo := 1, hi := 1, len := 4, acc := .ro, v := true },
  { idx := 0x6010, lo := 2, hi := 2, len := 2, acc := .ro, v := true },
  { idx := 0x6020, lo := 1, hi := 10, len := 8, acc := .ro, v := true },
  { idx := 0x6030, lo := 1, hi := 32, len := 4, acc := .ro, v := true },
  { idx := 0x6040, lo := 1, hi := 5, len := 4, acc := .ro, v := true },
  { idx := 0x6050, lo := 1, hi := 1, len := 4, acc := .ro, v := true },
  { idx := 0x6050, lo := 2, hi := 2, len := 1, acc := .ro, v := true },
  { idx := 0x6050, lo := 3, hi := 3, len := 4, acc := .ro, v := true } ]

/-- The lines of an index. -/
def dictLines (index : Nat) : List DEnt :=
  (if index < 0x2000 then dict1 else if index < 0x3000 then dict2 else if index < 0x4000 then dict3 else dict4).filter
    (fun (e : DEnt) => decide (e.idx = index))

/-- The entry at an index and subindex: the line that covers it, or the const subindex 0x00 of an array or record (R375). -/
def dictEnt (index sb : Nat) : Option DEnt :=
  let ls := dictLines index
  match ls.find? (fun (e : DEnt) => decide (e.lo ≤ sb) && decide (sb ≤ e.hi)) with
  | some e => some e
  | none => if sb = 0 ∧ ls ≠ [] then some { idx := index, len := 1, acc := .const, dflt := ls.foldl (fun m (e : DEnt) => max m e.hi) 0,
                                            v := ls.all (fun (e : DEnt) => e.v) } else none

/-- Is a subindex the SELECT of a window entry, and is it the ROW? -/
def isSelect (index sb : Nat) : Bool := sb = 1 && (dictLines index).any (fun (e : DEnt) => e.rows.isSome)
def isRow (index sb : Nat) : Bool := (dictLines index).any (fun (e : DEnt) => e.rows.isSome && decide (e.lo = sb))

/-! ### Ranges (R376, R379, R389) -/

/-- Word k of a value (R389: word k of a layout sits at bytes 4k to 4k + 3). -/
def dw (raw : List Byte) (k : Nat) : Nat := subN raw (4 * k) 4

/-- "save" and "load" in little-endian ASCII. -/
def saveWord : Nat := 0x65766173
def loadWord : Nat := 0x64616F6C

/-- The port record of 0x3001 is in range (PRT_CFG, PRT_MAXF, PRT_FC, PRT_XOFF, PRT_XON, PRT_STORM, PRT_MSCTL of R197). -/
def portRecOk (r : List Byte) : Bool :=
  decide (subN r 0 1 ≤ 3) && decide (subN r 1 1 ≤ 5) && decide (subN r 2 1 ≤ 2) && decide (subN r 3 1 < 16) && decide (subN r 4 1 ≤ 31) &&
  decide (subN r 5 1 ≤ 7) && decide (1518 ≤ subN r 6 2) && decide (subN r 6 2 ≤ 9216) && decide (subN r 8 1 ≤ 2) && decide (subN r 9 1 < 4) &&
  (decide (subN r 8 1 = 0) || decide (1 ≤ subN r 10 2)) && decide (subN r 12 4 < 262144) && decide (subN r 16 4 ≤ subN r 12 4) &&
  decide (1 ≤ subN r 20 2) && decide (subN r 20 2 ≤ 1000) && decide (bits (subN r 24 4) 3 2 ≠ 3) && decide (subN r 24 4 < 128) && zeros (sub r 28 4)

/-- TMU registers of 0x2020 are in range (R293, R297). -/
def timeCfgOk (sb v : Nat) : Bool :=
  if sb = 1 then decide (v < 512) && decide (bits v 2 0 ≤ 3) && decide (bits v 5 3 ≤ 3) && decide (bits v 8 6 ≤ 3)
  else if sb = 2 then decide (v < 512) && decide (bits v 3 2 ≠ 3)
  else if sb = 3 then decide (1000 ≤ v) && decide (v ≤ 1000000000)
  else if sb = 6 then decide (v < 2 ^ 18)
  else if sb = 7 then decide (1 ≤ v) && decide (v ≤ 500)
  else if sb = 9 then decide (1 ≤ v) && decide (v ≤ 50000)
  else if sb = 12 then decide (v < 65536)
  else if sb = 15 then decide (1 ≤ v % 65536) && decide (v % 65536 ≤ 15)
  else if sb = 17 then decide (bits v 17 16 ≠ 3) && decide (v < 2 ^ 24)
  else true

/-- A binding row of 0x3100 is in range; APPTYPE 0 leaves the row unused. -/
def bindingOk (r : List Byte) : Bool :=
  decide (subN r 0 1 = 0) || (decide (subN r 0 1 ≤ 5) && decide (subN r 1 1 < 2) && decide (subN r 4 1 < 64) && decide (1 ≤ subN r 5 1) &&
    decide (subN r 5 1 ≤ 16) && zeros (sub r 20 12))

/-- The values 0x5001 knows (R439). -/
def lifeOpOk (v : Nat) : Bool :=
  [1, 2, 3, 4, 0x10].contains v || (decide (0x10000 ≤ v) && decide (v < 0x10020)) || (decide (0x20000 ≤ v) && decide (v < 0x20004))

/-- Is a value in the range of its entry? -/
def Dev.valueOk (d : Dev) (index sb : Nat) (raw : List Byte) : Bool :=
  let v := leNat raw
  if (index = 0x2031 ∧ sb = 2) ∨ (index = 0x3003 ∧ sb = 1) ∨ index = 0x3050 ∨ index = 0x4001 then decide (v ≤ 1)
  else if index = 0x1003 then decide (v = 0)
  else if index = 0x2000 then decide (300 ≤ v) && decide (v ≤ 600)
  else if index = 0x2020 then timeCfgOk sb v
  else if index = 0x2021 then decide (subN raw 6 4 < qsec) && decide (1000000 ≤ subN raw 10 4) && zeros (sub raw 14 2)
  else if index = 0x2030 then (if sb = 2 then decide (v ≤ 32) else if sb = 5 then decide (v ≤ 128) else true)
  else if index = 0x2032 then (if sb = 1 then decide (v ≤ 3) else if sb = 2 then decide (v ≤ 2) else decide (100 ≤ v) && decide (v ≤ 10000))
  else if index = 0x2040 ∧ sb = 3 then decide (100 ≤ v) && decide (v ≤ 60000)
  else if index = 0x3000 then decide (v ≤ 2)
  else if index = 0x3001 then portRecOk raw
  else if index = 0x3003 then decide (1 ≤ v) && decide (v ≤ 600)
  else if index = 0x3010 ∧ sb = 3 then decide (v < 8)
  else if index = 0x3011 then decide (Nat.land v 0x88888888 = 0)
  else if index = 0x3012 then decide (1 ≤ bits v 31 20) && decide (bits v 19 0 ≤ 1000000)
  else if index = 0x3013 then decide (Nat.land v 0xC070 = 0)
  else if index = 0x3014 then
    decide (1 ≤ bits (dw raw 4) 4 0) && decide (bits (dw raw 4) 4 0 ≤ 20) && decide (Nat.land (dw raw 4) 0x71F = dw raw 4) && zeros (raw.drop 20)
  else if index = 0x3015 then decide (dw raw 0 < 65536) && decide (dw raw 1 < 2 ^ 17) && decide (dw raw 2 < 2 ^ 21) && decide (dw raw 3 = 0)
  else if index = 0x3016 then decide (bits (dw raw 0) 1 0 = 0) && decide (bits (dw raw 5) 3 0 ≤ 4)
  else if index = 0x3020 then decide (v ≤ 15)
  else if index = 0x3021 then decide (bits (dw raw 2) 3 0 ≤ 12) && decide (1 ≤ bits (dw raw 2) 3 0) && decide (dw raw 2 < 32)
  else if index = 0x3022 then
    decide (bits (dw raw 0) 16 12 ≤ 18) && (decide (bits (dw raw 0) 1 0 = 0) || decide (1 ≤ bits (dw raw 0) 16 12)) && decide (dw raw 0 < 2 ^ 17) &&
    decide (dw raw 1 < 2 ^ 18)
  else if index = 0x3030 then decide (v < 2 ^ 18)
  else if index = 0x3031 then decide (dw raw 0 < 2 ^ 18) && decide (dw raw 1 < 2 ^ 19)
  else if index = 0x3032 then decide (64 ≤ dw raw 2) && decide (dw raw 2 < 2 ^ 24) && decide (64 ≤ dw raw 3) && decide (dw raw 3 < 2 ^ 24) && decide (dw raw 4 < 4) && decide (dw raw 5 = 0)
  else if index = 0x3033 then
    decide (bits (dw raw 0) 15 2 = 0) && (!bit (dw raw 0) 0 || decide (64 ≤ bits (dw raw 0) 31 16)) && decide (dw raw 3 < 2 ^ 24) &&
    decide (dw raw 4 < 2 ^ 24) && decide (dw raw 5 < 2 ^ 19) && decide (dw raw 6 < 2 ^ 19)
  else if index = 0x3041 then decide (bits (dw raw 0) 15 10 = 0) && decide (dw raw 1 < 2 ^ 15)
  else if index = 0x3060 then
    decide (dw raw 0 < 65536) && (!bit (dw raw 0) 8 || (decide (42 ≤ bits (dw raw 0) 15 9) && decide (bits (dw raw 0) 15 9 ≤ 126) &&
      decide (bits (dw raw 0) 15 9 % 2 = 0)))
  else if index = 0x3100 then bindingOk raw
  else if index = 0x4002 then decide (Nat.land v 0x7FF8F800 = 0) && decide (bits v 18 16 ≠ 7) && decide (bits v 10 0 ≤ 1024)
  else if index = 0x4013 then [0, 1, 2, 4, 0xFF].contains v
  else if index = 0x4020 then decide (400 ≤ v) && decide (v ≤ 1800) && decide (v ≤ Config.fuseTclk (sb - 1))
  else if index = 0x5001 then
    lifeOpOk v && (decide (v / 65536 ≠ 1) || ((d.ent (v % 65536)).valid && decide ((d.ent (v % 65536)).gang = v % 65536)))
  else true

end Sys2Proof
end

