-- ==== Sys2Proof/Machine/SecOps.lean ====
section
/-! DEFINITION. Measurements, the partition key manifest, the lifecycle and rekeys (chapter 17). -/

namespace Sys2Proof

/-- A stored dictionary value, or its default; straps give the defaults of the power cap, the time sources and the port speeds. -/
def Dev.strap (d : Dev) (h l : Nat) : Nat := bits (d.rdN (pwrBase + 0x1C)) h l

/-- The cap of the PWRCAP strap in W (R463). -/
def Dev.strapCap (d : Dev) : Nat := [450, 375, 525, 600].getD (d.strap 1 0) 450

/-- TMU_PRIO as the TIMESRC strap gives it (R284). -/
def Dev.strapPrio (d : Dev) : Nat := [0x99, 0x8B, 0x53, 0].getD (d.strap 19 18) 0

/-- R172: the split of a block as the PORTMODE strap, or with code 11 dictionary entry 0x3000, gives it. -/
def Dev.splitOf (d : Dev) (b : Nat) : Nat := if d.strap 3 2 = 3 then leNat (d.dictRaw 0x3000 (b + 1)) else d.strap 3 2

/-- The committed value of a stored entry, window row `row` (0 for a plain entry). -/
def Dev.dval (d : Dev) (index sb row : Nat) : List Byte :=
  match Tab.get [] d.dict.vals (dkey index sb row) with
  | [] =>
    (match dictEnt index sb with
     | some e =>
       if index = 0x2000 then leBytes 2 d.strapCap
       else if index = 0x2020 ∧ sb < 18 then (if sb = 1 then leBytes 4 d.strapPrio else
         leBytes 4 (regReset (tmuBase + [0, 0x08, 0x04, 0x2C, 0x30, 0x34, 0x38, 0x3C, 0x40, 0x44, 0x48, 0x4C, 0x50, 0x54, 0x58, 0x5C, 0x60, 0x64].getD sb 0)).toNat)
       else if index = 0x3001 then leBytes 32 (e.dflt + 256 * min 2 (d.splitOf ((sb - 1) / 4)))
       else leBytes e.len e.dflt
     | none => [])
  | bs => bs

def Dev.dvalN (d : Dev) (index sb row : Nat) : Nat := leNat (d.dval index sb row)

/-! ### Measurements (R433, R436) -/

/-- The image digest: SHA-384 of bytes 0 to SIGOFF − 1 (R430). -/
def FwImage.digest (i : FwImage) : List Byte := Config.sha384 (i.bytes.take (i.bytes.length - 4800))

/-- The SVN of the running image (SEC_RUNSVN). -/
def Dev.runSvn (d : Dev) : Nat := match d.fw.image with | some i => i.svn | none => 0

/-- Measurement 3 (R436). -/
def Dev.meas3 (d : Dev) : List Byte :=
  padTo 16 (leBytes 1 d.sec.state ++ leBytes 1 d.sec.deploys ++ leBytes 1 d.sec.returns ++ leBytes 1 d.sec.floor ++ leBytes 4 d.runSvn ++ leBytes 1 d.sec.revoked)

/-- The gang of a partition as the map has it; a partition outside the map stands alone. -/
def Dev.gangLow (d : Dev) (p : Nat) : Nat := if (d.ent p).valid then (d.ent p).gang else p

/-- R430: PS(g) as the fuses and KGEN(g) have it now. -/
def Dev.gangSeed (d : Dev) (g : Nat) : List Byte := ptnSeed d.sec.lgen g (Tab.get 0 d.sec.kgen g)

/-- One entry of the manifest (R433). -/
def Dev.manifestEnt (d : Dev) (p : Nat) : List Byte :=
  let g := d.gangLow p
  leBytes 1 p ++ leBytes 1 g ++ leBytes 2 (Tab.get 0 d.sec.kgen g) ++ padTo 48 (Config.sha384 (gangPublic (d.gangSeed g)))

/-- R433 TYPE 3: the partition key manifest, signed by the DeviceID keys. -/
def Dev.manifest (d : Dev) : List Byte :=
  let body := padTo 64 ([(0x50 : Byte), 0x4B, 0x4D, 0x46] ++ leBytes 1 1 ++ leBytes 2 d.sec.lgen) ++ (upTo 32).flatMap (fun p => d.manifestEnt p)
  body ++ padTo 96 (Config.ecdsaSign (p384Scalar deviceSeed) body) ++ padTo 4627 (Config.mldsaSign (deviceSeed.drop 48) body)

/-- Measurement `ix` (R436); index 3 is raw. -/
def Dev.meas (d : Dev) (ix : Nat) : List Byte :=
  if ix = 1 then padTo 48 Config.romDigest
  else if ix = 2 then (match d.fw.image with | some i => padTo 48 i.digest | none => leBytes 48 0)
  else if ix = 3 then d.meas3
  else if ix = 4 then padTo 48 (Config.sha384 ((upTo 8).flatMap (fun i => d.dval 0x5010 (i + 1) 0)))
  else if ix = 5 then padTo 48 (Config.sha384 d.manifest)
  else
    let bs := d.bundlesOf (ix - 6)
    if bs.isEmpty then leBytes 48 0 else padTo 48 (Config.sha384 (bs.flatMap (fun b => b.bid ++ leBytes 8 b.seqno)))

/-- R430: the CDI of the running image, and the Alias seed: bytes 0 to 47 the P-384 scalar, bytes 48 to 79 ξ of ML-DSA-87. -/
def Dev.cdi (d : Dev) : List Byte :=
  kdf Config.uds "EC3200 CDI" (d.meas 1 ++ d.meas 2 ++ leBytes 4 d.runSvn ++ leBytes 1 d.sec.state) 48

def Dev.aliasSeed (d : Dev) : List Byte := kdf d.cdi "EC3200 ALIAS" [] 80

/-- One record of 0x5030: TYPE, LENGTH, the bytes padded to a multiple of 4. -/
def certRec (t : Nat) (bs : List Byte) : List Byte := leBytes 4 t ++ leBytes 4 bs.length ++ padTo (roundUp bs.length 4) bs

/-- R433 TYPE 1: the certificate chain, and TYPE 2: the ML-DSA statement. -/
def Dev.certChain (d : Dev) : List Byte :=
  Config.deviceChain ++ Config.aliasCert (p384Scalar deviceSeed) (padTo 97 (Config.p384Public (p384Scalar d.aliasSeed))) (d.meas 2 ++ d.meas 3)

def Dev.mldsaRecord (d : Dev) : List Byte :=
  let a := padTo 2592 (Config.mldsaPublic (d.aliasSeed.drop 48))
  padTo 2592 (Config.mldsaPublic (deviceSeed.drop 48)) ++ padTo 4627 Config.synermundMldsa ++ a ++
    padTo 4627 (Config.mldsaSign (deviceSeed.drop 48) (a ++ d.meas 2 ++ d.meas 3))

/-- R433: the content of 0x5030. -/
def Dev.certs (d : Dev) : List Byte := certRec 1 d.certChain ++ certRec 2 d.mldsaRecord ++ certRec 3 d.manifest

/-! ### Registers of the security engine (R453) -/

/-- SEC_STATE, SEC_FLOOR, SEC_RUNSVN and SEC_KGEN follow fuses and keys. -/
def Dev.secRegs (d : Dev) : Dev :=
  let s := d.sec
  let slots := (upTo 4).foldl (fun (m : Nat) k => if (Config.signerHash k).isEmpty then m else m + 2 ^ k) 0
  let v := 2 ^ 24 * s.returns + 2 ^ 16 * s.deploys + 4096 * (s.revoked % 16) + 256 * slots + 128 * b2n s.debug + 64 * b2n (decide (s.state < 2)) + s.state
  let d1 := ((d.wrN (secBase + 4) v).wrN (secBase + 8) s.floor).wrN (secBase + 0xC) d.runSvn
  (upTo 32).foldl (fun (x : Dev) p => x.wrN (secBase + 0x100 + 4 * p) (Tab.get 0 s.kgen (x.gangLow p) + 65536 * x.gangLow p)) d1

/-- R453: a write of SEC_MEASSEL copies a measurement. Index 0 or above 37 selects nothing. -/
def Dev.measSel (d : Dev) (ix : Nat) : Dev :=
  if 1 ≤ ix ∧ ix ≤ 37 then
    ((d.wrN (secBase + 0x40) (2 ^ 31 + ix)).wrN (secBase + 0x44) (Tab.get 0 d.sec.measCnt ix)).wrBytes (secBase + 0x50) (padTo 48 (d.meas ix)) 12
  else d.wrN (secBase + 0x40) ix

/-- R453: a write of SEC_PKSEL copies the public keys of a partition's gang. -/
def Dev.pkSel (d : Dev) (p : Nat) : Dev :=
  let g := d.gangLow p
  let ok := !d.sec.udsGone
  (d.wrN (secBase + 0x200) (2 ^ 31 + 2 ^ 30 * b2n ok + p)).wrBytes (secBase + 0x1000)
    (padTo 1728 (if ok then gangPublic (d.gangSeed g) else [])) 432

/-! ### Rekeys and lifecycle transitions (R432, R437 to R440) -/

/-- Reset each partition of a list (R329). -/
def Dev.ptnResets (d : Dev) : List Nat → Dev
  | [] => d
  | p :: ps => (d.ptnReset p).ptnResets ps

/-- Scrub each share of a list (R129). -/
def Dev.shareScrubs (d : Dev) : List Nat → Dev
  | [] => d
  | p :: ps => (d.scrubShare p).shareScrubs ps

/-- The bundles of a gang leave the catalogue, and their measurements change. -/
def Dev.bundlesGone (d : Dev) (g : Nat) : Dev :=
  let hit := d.store.bundles.any (fun b => decide (b.gang = g))
  let d1 := { d with store := { d.store with bundles := d.store.bundles.filter (fun b => decide (b.gang ≠ g)) } }
  if hit then ((d.gangOf g).foldl (fun (x : Dev) p => x.measChange (6 + p)) d1).catalogue else d1

/-- R432 steps 2 to 6 for gang g. -/
def Dev.rekeyGang (d : Dev) (g : Nat) : Dev :=
  let d1 := d.ptnResets (d.gangOf g)
  let k := (Tab.get 0 d1.sec.kgen g + 1) % 65536
  let d2 := ({ d1 with sec := { d1.sec with kgen := Tab.set 0 d1.sec.kgen g k } }).bundlesGone g
  ((((d2.shareScrubs (d2.gangOf g)).loadKeys (d2.gangOf g)).joinShares (d2.gangOf g)).event (secBase + 0x10) 4).report 0x11 5 0 0xFF (g + 65536 * k)

/-- The gangs of the map, by their lowest partition. -/
def Dev.gangs (d : Dev) : List Nat := (upTo 32).filter (fun p => (d.ent p).valid && decide ((d.ent p).gang = p))

/-- R440: every gang. -/
def Dev.rekeyAll (d : Dev) : List Nat → Dev
  | [] => d
  | g :: gs => (d.rekeyGang g).rekeyAll gs

/-- A lifecycle operation is done: the log entry, the event, the measurement, the registers (R437, R452). -/
def Dev.lifeDone (d : Dev) (op : Nat) (meas : Bool) : Dev :=
  let d1 := ((d.report 0x11 4 0 0xFF (d.sec.state + 256 * (op % 256))).event (secBase + 0x10) 0)
  (if meas then d1.measChange 3 else d1).secRegs

/-- A transition burns one fuse bit and closes debug access (R438, R442). -/
def Dev.burn (d : Dev) (b : Nat) : Dev := { d with sec := { d.sec with lcf := setBit d.sec.lcf b, debug := false } }

/-- R431, R440: every partition's keys are loaded, and the scrubbed shares stand under them. -/
def Dev.keysIn (d : Dev) : Dev := (d.loadKeys (upTo 32)).joinShares ((upTo 32).filter (fun p => (d.ent p).valid))

/-- PROVISION (R439). -/
def Dev.provision (d : Dev) : Dev := (d.burn 0).lifeDone 1 true

/-- DEPLOY: every gang is rekeyed, one DEPLOY bit burned, keys load under the new LGEN (R440). -/
def Dev.deploy (d : Dev) : Dev :=
  (((d.bundleCommit.rekeyAll d.gangs).burn (1 + d.sec.deploys)).keysIn.measChange 5).lifeDone 2 true

/-- RETURN (R440). -/
def Dev.return_ (d : Dev) : Dev :=
  (((d.bundleCommit.rekeyAll d.gangs).burn (9 + d.sec.returns)).keysIn.measChange 5).lifeDone 3 true

/-- REKEY of gang g (R432). -/
def Dev.rekey (d : Dev) (g : Nat) : Dev := ((d.bundleCommit.rekeyGang g).measChange 5).lifeDone g false

/-- COMMIT SVN: the floor rises to the running SVN, if higher (R439, R443). -/
def Dev.commitSvn (d : Dev) : Dev :=
  let n := min 64 d.runSvn
  if d.sec.floor < n then ({ d with sec := { d.sec with floor := n } }).lifeDone 0x10 true else d.lifeDone 0x10 false

/-- REVOKE of firmware-signer slot k (R439). -/
def Dev.revokeSlot (d : Dev) (k : Nat) : Dev := ({ d with sec := { d.sec with revoked := setBit d.sec.revoked k } }).lifeDone k true

/-- Disable the ports of a list (R440). -/
def Dev.portsOff (d : Dev) : List Nat → Dev
  | [] => d
  | n :: ns => ((d.wrN (prt n 0) (putBits (d.rdN (prt n 0)) 2 0 0)).flushPort n).portsOff ns

/-- Every mailbox becomes unnegotiated (R365, R411). -/
def Dev.mbxDrop (d : Dev) : Dev :=
  { d with host := { d.host with mbx := Tab.mapAll ({} : Mbx) d.host.mbx (fun _ m => { m with hello := false, agMajor := 0, agMinor := 0, feat := 0, asm := none }) } }

/-- DECOMMISSION: partitions reset, shares scrubbed, fuses burned, the device held in the ROM, ports DISABLED and FAILSAFE_N low
(R440). -/
def Dev.decommission (d : Dev) : Dev :=
  let d1 := (d.ptnResets (upTo 32)).shareScrubs (upTo 32)
  let d2 := (d1.burn 17).lifeDone 4 true
  let d3 := { d2 with sec := { d2.sec with udsGone := true }, fw := {} }
  let d4 := ({ d3 with flow := { d3.flow with released := false } }).failsafeAssert
  (((d4.loadKeys (upTo 32)).portsOff (upTo 32)).mbxDrop.wrN (glbBase + 4) 1).secRegs

end Sys2Proof
end

