-- ==== Sys2Proof/Machine/Dict.lean ====
section
/-! DEFINITION. The object dictionary (chapter 15): what entries read as, tokens, the checks of a write in their order, the commit and
its effects, the store, and the programming of hardware from committed values. -/

namespace Sys2Proof

/-- The model's number of a session. -/
def Via.sess : Via → Nat
  | .mbx fn => fnIx fn
  | .sdo => 40
  | .usdo k => 41 + k % 128
  | .usb => 190
  | .udp s => 200 + s

def Dev.sessAt (d : Dev) (k : Nat) : Sess := Tab.get {} d.dict.sess k

def Dev.sessSet (d : Dev) (k : Nat) (s : Sess) : Dev := { d with dict := { d.dict with sess := Tab.set {} d.dict.sess k s } }

def Dev.sessUpd (d : Dev) (k : Nat) (f : Sess → Sess) : Dev := d.sessSet k (f (d.sessAt k))

/-- Abort codes (R391). -/
def abTimeout : Nat := 0x05040000
def abCommand : Nat := 0x05040001
def abCrc : Nat := 0x05040004
def abToggle : Nat := 0x05030000
def abNoSess : Nat := 0x05040005
def abAccess : Nat := 0x06010000
def abReadWo : Nat := 0x06010001
def abWriteRo : Nat := 0x06010002
def abNoIndex : Nat := 0x06020000
def abLength : Nat := 0x06070010
def abNoSub : Nat := 0x06090011
def abRange : Nat := 0x06090030
def abGeneral : Nat := 0x08000000
def abStore : Nat := 0x08000020
def abState : Nat := 0x08000022
def abNoToken : Nat := 0x080000F1
def abTokenSig : Nat := 0x080000F2
def abTokenStale : Nat := 0x080000F3
def abTransport : Nat := 0x080000F4
def abFunction : Nat := 0x080000F5
def abInconsistent : Nat := 0x080000F6

/-! ### Reading (R377 to R379, R389, R390) -/

/-- 0x6050 subindex 0x02. -/
def Dev.storeFlags (d : Dev) : Nat :=
  let c := d.dict
  b2n c.norA.valid + 2 * b2n c.norB.valid + 4 * b2n c.defaults + 8 * b2n c.sagApplied + 16 * b2n (!c.unstored.isEmpty) + 32 * b2n c.sagOvf

/-- TCLK of a die now: F_set × k / 16 (R85). -/
def Dev.tclkNow (d : Dev) (k : Nat) : Nat := bits (d.rdN (pwrBase + 0x60 + 4 * k)) 10 0 * bits (d.rdN (pwrBase + 0x60 + 4 * k)) 15 11 / 16

/-- 0x6001 in mW: package, tensor dies, HBM, model store, F, B. -/
def Dev.powerEntry (d : Dev) (sb : Nat) : Nat :=
  let p := fun i => d.rdN (pwrBase + 0x30 + 4 * i)
  if sb = 1 then d.rdN (pwrBase + 0x20) else if sb = 2 then p 2 + p 3 + p 4 + p 5 else if sb = 3 then p 6 else if sb = 4 then p 7
  else if sb = 5 then p 0 else p 1

/-- What an entry reads as, for a session whose SELECT of that index is `sel`. -/
def Dev.dread (d : Dev) (index sb sel : Nat) : List Byte :=
  match dictEnt index sb with
  | none => []
  | some e =>
    if isSelect index sb then leBytes 4 sel
    else if e.acc = .const then leBytes e.len e.dflt
    else if index = 0x1001 then leBytes 1 d.errReg
    else if index = 0x1003 then (if sb = 0 then leBytes 1 d.tel.errHist.length else leBytes 4 (d.tel.errHist.getD (sb - 1) 0))
    else if index = 0x100A then (match d.fw.image with | some i => i.version.takeWhile (fun b => decide (b ≠ 0)) | none => [])
    else if index = 0x1010 ∨ index = 0x1011 then leBytes 4 1
    else if index = 0x1014 then leBytes 4 (0x80 + d.strap 10 4)
    else if index = 0x1018 then leBytes 4 Config.serial
    else if index = 0x1200 then leBytes 4 ((if sb = 1 then 0x600 else 0x580) + d.strap 10 4)
    else if index = 0x2000 ∧ sb = 2 then leBytes 1 (b2n (!(d.dictRaw 0x2000 1).isEmpty))
    else if index = 0x2010 then
      leBytes 1 ([0, d.strap 1 0, d.strap 3 2, d.strap 10 4, d.strap 11 11, d.strap 13 12, d.strap 15 14, d.strap 16 16, d.strap 17 17, d.strap 19 18].getD sb 0)
    else if index = 0x2021 then leBytes 16 0
    else if index = 0x2022 then
      (if sb = 1 then leBytes 2 d.tmu.quality else if sb = 2 then leBytes 4 (if d.tmu.unknown then 0xFFFFFFFF else d.tmu.err)
       else if sb = 3 then leBytes 1 d.tmu.epoch else d.stamp.bytes)
    else if index = 0x4000 then leBytes 4 (d.ptnAt (sb - 1)).stat
    else if index = 0x4001 ∨ index = 0x5001 then leBytes e.len 0
    else if index = 0x4014 then leBytes 1 (stick 255 d.ptn.remaps)
    else if index = 0x4080 then leBytes 8 (2 ^ 56 + Config.arrayRepair (sb - 1) % 2 ^ 48)
    else if index = 0x5000 then leBytes 1 d.sec.state
    else if index = 0x5011 then leBytes 48 0
    else if index = 0x5012 then leBytes 8 d.sec.tokenCtr
    else if index = 0x5030 then d.certs
    else if index = 0x5040 then leBytes 64 0
    else if index = 0x6000 then leBytes 2 (wrapI 16 (d.pwr.temps.getD (tempIx sb) 0))
    else if index = 0x6001 then leBytes 4 (d.powerEntry sb)
    else if index = 0x6002 then leBytes 2 (d.tclkNow (sb - 1))
    else if index = 0x6003 then leBytes 2 (Config.fuseTclk (sb - 1))
    else if index = 0x6010 then (if sb = 1 then leBytes 4 d.pwr.planes else leBytes 2 d.pwr.spareLanes)
    else if index = 0x6020 then leBytes 8 (d.flowCounters.getD (sb - 1) 0)
    else if index = 0x6030 then leBytes 4 (d.regValue .pf (prt (sb - 1) 8))
    else if index = 0x6040 then leBytes 4 (if sb = 1 then d.erlStat else d.rdN (erlBase + 0x40 + 4 * (sb - 2)))
    else if index = 0x6050 then (if sb = 1 then leBytes 4 d.dict.loadedSeq else if sb = 2 then leBytes 1 d.storeFlags else leBytes 4 d.dict.lastStore)
    else d.dval index sb (if isRow index sb then sel else 0)

/-- Is a SELECT within the rows of its table (R378, R450)? -/
def selOk (index sel : Nat) : Bool :=
  match (dictLines index).find? (fun (e : DEnt) => e.rows.isSome) with
  | some e => (match e.rows with
    | some (lo, hi) => decide (lo ≤ sel) && decide (sel ≤ hi) && (decide (index ≠ 0x5040) || decide (sel / 4 % 32 ≤ 16))
    | none => true)
  | none => true

/-- A read by a session: the abort code, or the value (R377, R378, R389, R393). -/
def Dev.dictRead (d : Dev) (via : Via) (index sb : Nat) : Except Nat (List Byte) :=
  let sel := Tab.get 0 (d.sessAt via.sess).sel index
  match dictEnt index sb with
  | none => .error (if dictLines index = [] then abNoIndex else abNoSub)
  | some e =>
    if e.acc = .wo then .error abReadWo
    else if (match via with
        | .mbx (some n) => !e.v || (decide (index = 0x4000) && decide (sb ≠ n + 1))
        | _ => false) then .error abFunction
    else if isRow index sb ∧ selOk index sel = false then .error abRange
    else .ok (d.dread index sb sel)

/-! ### Tokens (R386, R387, R444, R445) -/

/-- Which signer an authorised hash is: ROOT, OPERATOR or none (R444). -/
def Dev.signerKind (d : Dev) (hash : List Byte) : Option Bool :=
  if zeros hash then none
  else if (upTo 2).any (fun i => decide (d.dval 0x5010 (i + 1) 0 = hash)) then some true
  else if (upTo 6).any (fun i => decide (d.dval 0x5010 (i + 3) 0 = hash)) then some false
  else none

/-- R444: a target that needs a ROOT signer, one that needs a signer, and every other. -/
def tokenClass (index sb v : Nat) : Nat :=
  if (index = 0x5010 ∧ sb ≤ 2) ∨ (index = 0x5001 ∧ v / 65536 ≠ 1) then 2 else if index = 0x5010 ∨ index = 0x5011 ∨ index = 0x5001 then 1 else 0

/-- R387: the check of a token; the abort code, or the counter. -/
def Dev.tokenCheck (d : Dev) (index sb sel : Nat) (data t : List Byte) : Except Nat Nat :=
  let kind := subN t 2 1
  let ctr := subN t 8 8
  let cls := tokenClass index sb (leNat data)
  if sub t 0 2 ≠ [0x44, 0x54] ∨ (kind ≠ 1 ∧ kind ≠ 2) ∨ t.length ≠ (if kind = 2 then 128 else 4851) ∨ subN t 3 1 ≠ 0 ∨ subN t 7 1 ≠ 0 ∨ subN t 4 2 ≠ index ∨
      subN t 6 1 ≠ sb ∨ subN t 16 4 ≠ Config.serial ∨ subN t 20 4 ≠ sel ∨ subN t 24 8 ≠ data.length ∨ sub t 32 48 ≠ Config.sha384 data ∨ ctr ≤ d.sec.tokenCtr then
    .error abTokenStale
  else if kind = 2 then
    (if 0 < cls then .error abTokenStale
     else if zeros (d.dval 0x5011 0 0) ∨ sub t 80 48 ≠ Config.hmac384 (d.dval 0x5011 0 0) (sub t 0 80) then .error abTokenSig
     else .ok ctr)
  else match d.signerKind (sub t 80 48) with
    | none => .error abTokenSig
    | some root =>
      if cls = 2 ∧ root = false then .error abTokenStale
      else if Config.verify (sub t 80 48) (sub t 0 80) (t.drop 128) then .ok ctr
      else .error abTokenSig

/-- The token step of the commit checks, with what BLANK allows (R445): the abort code, or the counter to take. -/
def Dev.tokenStep (d : Dev) (via : Via) (index sb sel : Nat) (data : List Byte) (tok : Option (List Byte)) : Except Nat (Option Nat) :=
  if d.sec.state = 0 then
    (if index = 0x5010 ∧ via = .mbx none then .ok none
     else if index = 0x5001 ∧ (leNat data = 1 ∨ leNat data = 4) then .ok none
     else .error abState)
  else match tok with
    | none => .error abNoToken
    | some t => (match d.tokenCheck index sb sel data t with
      | .ok c => .ok (some c)
      | .error e => .error e)

/-- A refusal for a token reason is counted and logged (R387, R452). -/
def Dev.tokenFail (d : Dev) (index sb ab : Nat) : Dev :=
  if ab = abNoToken ∨ ab = abTokenSig ∨ ab = abTokenStale then
    ((d.count (secBase + 0x1C) 1).event (secBase + 0x10) 3).report 0x11 1 0 0xFF (index + 65536 * sb + 2 ^ 24 * (ab % 256))
  else d

/-! ### Checks that chapters set (R379, R380) -/

/-- R237: the port buffers fit with a new SYSPOOL or a new port's MIN and MAX. -/
def Dev.buffersOk (d : Dev) (pool : Nat) (new : Option (Nat × List Byte)) : Bool :=
  let rec_ := fun n => match new with
    | some (m, b) => if m = n then b else d.dval 0x3031 (n + 1) 0
    | none => d.dval 0x3031 (n + 1) 0
  decide (((upTo 32).map (fun n => dw (rec_ n) 0)).foldl (· + ·) pool ≤ 262144) && (upTo 32).all (fun n => decide (dw (rec_ n) 0 ≤ dw (rec_ n) 1))

/-- R240, R252: a Visor profile: thresholds in order, no action code 6 or 7. -/
def visOk (r : List Byte) : Bool :=
  let t := fun (x : Nat) => sext 16 x
  decide (t (bits (dw r 1) 15 0) ≤ t (bits (dw r 1) 31 16)) && decide (t (bits (dw r 1) 31 16) ≤ t (bits (dw r 2) 15 0)) &&
  (r.drop 16).all (fun b => decide (b.toNat % 8 ≤ 5))

/-- Two used rows of 0x3100 with the same APPTYPE and KEY (R389). -/
def Dev.bindingTwice (d : Dev) (row : Nat) (r : List Byte) : Bool :=
  decide (subN r 0 1 ≠ 0) && d.dict.vals.any (fun kv => decide (kv.1 % 2 ^ 24 = dkey 0x3100 2 0) && decide (kv.1 / 2 ^ 24 ≠ row) &&
    decide (subN kv.2 0 1 = subN r 0 1) && decide (subN kv.2 2 2 = subN r 2 2))

/-- The group of the stream binding of a (APPTYPE, KEY) pair, if 0x3100 lists it (R303, R389). -/
def Dev.bindingOf (d : Dev) (app key : Nat) : Option Nat :=
  (d.dict.vals.find? (fun kv => decide (kv.1 % 2 ^ 24 = dkey 0x3100 2 0) && decide (subN kv.2 0 1 = app) && decide (subN kv.2 2 2 = key))).map
    (fun kv => subN kv.2 4 1)

/-- R303, R448: a Shortstop core that holds a snoop or punt builds a stream template and commits it, in place of the one the number had.
It refuses a stream that 0x3100 does not bind, and the record stays in the ranges of the partition of its group (log 65). -/
def Dev.templateBuild (d : Dev) (core n : Nat) (recd : List Byte) : Dev :=
  if Tab.get [] d.flow.puntQ core = [] ∨ fld recd 8 1 ≠ 2 ∨ streamOk recd = false then d
  else match d.bindingOf (fld recd 12 1) (fld recd 14 2) with
    | none => d
    | some g => (match d.groupRec g with
      | none => d
      | some k =>
        let r := Tab.get [] d.flow.tpl k
        let e := d.ent (gPtn r)
        if fld recd 10 1 = g ∧ ctlOwner (tplCtl recd) = gPtn r ∧ e.tplfirst ≤ n ∧ n < e.tplfirst + e.tplcount ∧ targetsOk r recd then
          ((d.stageAll (vsucc d.vcur) d.vcur [VObj.endTpl n, VObj.tpl n recd]).commit (vsucc d.vcur)).1
        else d)

/-- The map entries of 0x4011 with a new one. -/
def Dev.mapWith (d : Dev) (p : Nat) (b : List Byte) : List MapEnt := (upTo 32).map (fun q => entOf (if q = p then b else d.dval 0x4011 (q + 1) 0))

/-- Fused slots that are not revoked (R443). -/
def Dev.liveSlots (d : Dev) : List Nat := (upTo 4).filter (fun k => !(Config.signerHash k).isEmpty && !bit d.sec.revoked k)

/-- R439: the states of a lifecycle operation, and the two refusals of REVOKE. -/
def Dev.lifeErr (d : Dev) (v : Nat) : Nat :=
  let s := d.sec
  let root := (upTo 2).any (fun i => !zeros (d.dval 0x5010 (i + 1) 0))
  if v = 1 then (if s.state = 0 ∧ root then 0 else abState)
  else if v = 2 then (if s.state = 1 ∧ s.deploys < 8 then 0 else abState)
  else if v = 3 then (if s.state = 2 ∧ s.returns < 8 then 0 else abState)
  else if v = 4 then (if s.state < 3 then 0 else abState)
  else if s.state ≠ 1 ∧ s.state ≠ 2 then abState
  else if v / 65536 = 2 then
    (let k := v % 65536
     let runs : Bool := match d.fw.image with | some i => decide (i.signer = k) | none => false
     if runs || decide (d.liveSlots = [k]) then abInconsistent else 0)
  else 0

/-- The consistency and hardware rules of an entry, the last check before the commit (R379, R380). -/
def Dev.ruleErr (d : Dev) (index sb row : Nat) (raw : List Byte) : Nat :=
  if index = 0x2021 then (if d.tmu.sel ≠ 0 then abState else 0)
  else if index = 0x3001 ∨ index = 0x3002 then (if d.portExists (sb - 1) then 0 else abInconsistent)
  else if index = 0x3030 then (if d.buffersOk (leNat raw) none then 0 else abInconsistent)
  else if index = 0x3031 then (if d.buffersOk (d.dvalN 0x3030 0 0) (some (sb - 1, raw)) then 0 else abInconsistent)
  else if index = 0x3032 then (if dw raw 2 ≤ dw raw 3 then 0 else abInconsistent)
  else if index = 0x3040 then (if visOk raw then 0 else abInconsistent)
  else if index = 0x3100 then (if d.bindingTwice row raw then abInconsistent else 0)
  else if index = 0x4011 then (if (mapFault (d.mapWith (sb - 1) raw)).isSome then abInconsistent else 0)
  else if index = 0x5001 then d.lifeErr (leNat raw)
  else if index = 0x5010 then (if sb ≤ 2 ∧ zeros raw ∧ zeros (d.dval 0x5010 (3 - sb) 0) then abInconsistent else 0)
  else if index = 0x5040 then
    (if zeros raw ∨ zeros (sub raw 0 40) then 0
     else if zeros (d.dval 0x5011 0 0) then abState
     else if (unwrapSak (d.dval 0x5011 0 0) (row / 128) (sub raw 0 40)).isNone then abTokenSig
     else 0)
  else 0

/-! ### Commit and effects (R379 to R385) -/

/-- The last index of a store range (R382): subindexes 1, 2, 3 of 0x1010 and 0x1011. -/
def inRange (sb index : Nat) : Bool :=
  if sb = 2 then decide (index < 0x2000) else if sb = 3 then decide (0x2000 ≤ index) && decide (index < 0x7000) else true

/-- The index and subindex a stored key names. -/
def keyIndex (k : Nat) : Nat := k / 256 % 65536
def keyPersist (k : Nat) : Bool := match dictEnt (keyIndex k) (k % 256) with | some e => e.persist | none => false

/-- Does an entry's value read as zeros and is stored encrypted (R446)? -/
def keySecret (k : Nat) : Bool := decide (keyIndex k = 0x5011)

/-- R475: LEN of the record of a value: an encrypted value carries its IV and its tag. -/
def recLen (kv : Nat × List Byte) : Nat := kv.2.length + (if keySecret kv.1 then 28 else 0)

/-- The bytes of a record (R475). -/
def recSize (kv : Nat × List Byte) : Nat := 12 + roundUp (recLen kv) 8

/-- R475: the first 12 bytes of a record: index, subindex, ENC, window row, LEN. -/
def recHead (kv : Nat × List Byte) : List Byte :=
  leBytes 2 (keyIndex kv.1) ++ leBytes 1 (kv.1 % 256) ++ leBytes 1 (b2n (keySecret kv.1)) ++ leBytes 4 (kv.1 / 2 ^ 24) ++ leBytes 4 (recLen kv)

/-- R446, R475: a record; a value that reads as zeros is sealed under the GCM half of the dictionary key, its head as additional data. -/
def recBytes (iv : List Byte) (kv : Nat × List Byte) : List Byte :=
  let v := if keySecret kv.1 then iv ++ Config.gcmSeal (dictKey.take 32) iv (recHead kv) kv.2 else kv.2
  recHead kv ++ padTo (roundUp (recLen kv) 8) v

/-- R446, R475: an image: the header with the CRC-32C of its bytes 0 to 19 and the records, the records, and the HMAC-SHA-384 over both. -/
def imageBytes (seq : Nat) (iv : List Byte) (vals : Tab (List Byte)) : List Byte :=
  let recs := vals.flatMap (recBytes iv)
  let h := [0x45, 0x43, 0x44, 0x49] ++ leBytes 4 1 ++ leBytes 4 seq ++ leBytes 4 recs.length ++ leBytes 4 vals.length
  let body := padTo 64 (h ++ leBytes 4 (crc32c (h ++ recs))) ++ recs
  body ++ padTo 48 (Config.hmac384 (sub dictKey 32 32) body)

/-- The bytes of an image (R475): header, records and MAC. -/
def imageSize (vals : Tab (List Byte)) : Nat := 112 + (vals.map recSize).foldl (· + ·) 0

/-- A fresh IV of the random bit generator. -/
def Dev.newIv (d : Dev) : List Byte := padTo 12 (Config.random d.sec.draws)

/-- R382, R475: store the persistent image into the copy with the lower sequence number; `ok` is the outcome of SPI NOR. An image above
1 MiB, a sequence number above 32 bits and a part that does not answer fail before a copy is touched. -/
def Dev.storeImage (d : Dev) (sb : Nat) (ok : Bool) : Dev × Nat :=
  let c := d.dict
  let intoA := decide (c.norA.seq ≤ c.norB.seq)
  let old := if intoA then c.norA else c.norB
  let other := if intoA then c.norB else c.norA
  let new := (c.vals.filter (fun kv => keyPersist kv.1 && inRange sb (keyIndex kv.1))) ++ (old.vals.filter (fun kv => !inRange sb (keyIndex kv.1)))
  let vals := new.foldl (fun (t : Tab (List Byte)) kv => Tab.put t kv.1 kv.2) []
  if d.pwr.nor = false ∨ 0xFFFFFFFF < other.seq + 1 ∨ 1048576 < imageSize vals then ({ d with dict := { c with lastStore := abStore } }, abStore)
  else
    let img : NorCopy := { valid := ok, seq := other.seq + 1, vals := vals, img := imageBytes (other.seq + 1) d.newIv vals }
    let c1 := if intoA then { c with norA := if ok then img else { old with valid := false } } else { c with norB := if ok then img else { old with valid := false } }
    let st := if ok then 0 else abStore
    let c2 := { c1 with lastStore := st, unstored := if ok then c.unstored.filter (fun k => !inRange sb (keyIndex k)) else c.unstored }
    ({ d with dict := c2, sec := { d.sec with draws := d.sec.draws + 1 } }, st)

/-- R450: a MACsec key row installs, replaces or deletes an association. -/
def Dev.macsecRow (d : Dev) (row : Nat) (raw : List Byte) : Dev :=
  let k := saKey (row / 128) (row % 128)
  if zeros raw then { d with flow := { d.flow with ms := Tab.set {} d.flow.ms k {} } }
  else
    let sak := (unwrapSak (d.dval 0x5011 0 0) (row / 128) (sub raw 0 40)).getD []
    let sa : MsSa := { installed := true, pn := 1, ssci := subN raw 52 4, salt := sub raw 40 12, sci := sub raw 56 8, sak := sak }
    { d with flow := { d.flow with ms := Tab.set {} d.flow.ms k sa } }

/-- The operations of 0x5001 (R439). -/
def Dev.lifeOp (d : Dev) (v : Nat) : Dev :=
  if v = 1 then d.provision
  else if v = 2 then d.deploy
  else if v = 3 then d.return_
  else if v = 4 then d.decommission
  else if v = 0x10 then d.commitSvn
  else if v / 65536 = 1 then d.rekey (v % 65536)
  else d.revokeSlot (v % 65536)

/-- A committed value enters the dictionary: unstored when persistent (R385), to be applied when it takes effect now (R380). -/
def Dev.keepValue (d : Dev) (index sb row : Nat) (raw : List Byte) (e : DEnt) : Dev :=
  let k := dkey index sb row
  let c := d.dict
  let c1 := { c with vals := Tab.set [] c.vals k raw, unstored := if e.persist then c.unstored.filter (fun x => decide (x ≠ k)) ++ [k] else c.unstored }
  { d with dict := { c1 with apply := if e.eff = .now then c.apply ++ [k] else c.apply } }

/-- The commit of a checked write: the whole value in one step, and the effect of entries that act by themselves. The Nat is the
abort code: a store may still fail, and so may a setpoint (R421). `norOk` is the outcome of SPI NOR or of the regulator. -/
def Dev.dictCommit (d : Dev) (via : Via) (index sb row : Nat) (raw : List Byte) (e : DEnt) (norOk : Bool) : Dev × Nat :=
  let v := leNat raw
  if isSelect index sb then (d.sessUpd via.sess (fun s => { s with opened := true, sel := Tab.set 0 s.sel index v }), 0)
  else if index = 0x1003 then ({ d with tel := { d.tel with errHist := [] } }, 0)
  else if index = 0x1010 then d.storeImage sb norOk
  else if index = 0x1011 then ({ d with dict := { d.dict with restore := if d.dict.restore.contains sb then d.dict.restore else d.dict.restore ++ [sb] } }, 0)
  else if index = 0x2021 then ((d.timeSet (subN raw 0 6 * qsec + subN raw 6 4) (subN raw 10 4)).1, 0)
  else if index = 0x4001 then (if v = 1 then d.ptnReset (sb - 1) else d, 0)
  else if index = 0x5001 then (d.lifeOp v, 0)
  else if index = 0x5010 then ((d.keepValue index sb 0 raw e).measChange 4, 0)
  else if index = 0x5020 then (d.sessUpd via.sess (fun s => { s with opened := true, token := some (raw, d.now) }), 0)
  else if index = 0x4020 ∧ norOk = false then (d.railFail (1 + sb), abGeneral)
  else if index = 0x5040 then (d.macsecRow row raw, 0)
  else (d.keepValue index sb row raw e, 0)

/-- R388: ten seconds in the model's time. -/
def tokenLife : Nat := 100000000000

/-- R392, R393, R402, R446: may the session write this entry? -/
def Dev.rightsErr (d : Dev) (via : Via) (index : Nat) : Nat :=
  match via with
  | .mbx (some _) => abFunction
  | .mbx none => if index = 0x5011 then abTransport else 0
  | .udp _ => if d.dvalN 0x2031 2 0 = 0 ∨ index = 0x5011 then abTransport else 0
  | _ => if d.strap 17 17 = 1 then 0 else abTransport

/-- The checks of R379 in their order: the abort code of the first that fails, or the entry and the token counter to take. -/
def Dev.writeChecks (d : Dev) (via : Via) (index sb : Nat) (raw : List Byte) (tok : Option (List Byte)) : Except Nat (DEnt × Option Nat) :=
  let sel := Tab.get 0 (d.sessAt via.sess).sel index
  let row := if isRow index sb then sel else 0
  match dictEnt index sb with
  | none => .error (if dictLines index = [] then abNoIndex else abNoSub)
  | some e =>
    if e.acc = .const ∨ e.acc = .ro then .error abWriteRo
    else if d.rightsErr via index ≠ 0 then .error (d.rightsErr via index)
    else if (e.len ≠ 0 ∧ raw.length ≠ e.len) ∨ (e.len = 0 ∧ e.cap < raw.length) then .error abLength
    else if isRow index sb ∧ selOk index sel = false then .error abRange
    else if (index = 0x1010 ∧ leNat raw ≠ saveWord) ∨ (index = 0x1011 ∧ leNat raw ≠ loadWord) then .error abStore
    else if isSelect index sb = false ∧ d.valueOk index sb raw = false then .error abRange
    else match (if e.acc = .rws then d.tokenStep via index sb row raw tok else .ok none) with
      | .error ab => .error ab
      | .ok ctr => if d.ruleErr index sb row raw ≠ 0 then .error (d.ruleErr index sb row raw) else .ok (e, ctr)

/-- R379, R387, R388: a write at its commit. The staged token of the session is consumed by the next write to any entry but 0x5020;
a mailbox carries its token in the message. -/
def Dev.dictWrite (d : Dev) (via : Via) (index sb : Nat) (raw : List Byte) (tok : Option (List Byte)) (norOk : Bool) : Dev × Nat :=
  let s := d.sessAt via.sess
  let staged := match s.token with | some (t, at_) => if d.now ≤ at_ + tokenLife then some t else none | none => none
  let t := match tok with | some t => some t | none => staged
  let d0 := if index = 0x5020 then d else d.sessUpd via.sess (fun s => { s with token := none })
  match d.writeChecks via index sb raw t with
  | .error ab => (d0.tokenFail index sb ab, ab)
  | .ok (e, ctr) =>
    let row := if isRow index sb then Tab.get 0 s.sel index else 0
    let d1 := match ctr with | some c => { d0 with sec := { d0.sec with tokenCtr := c } } | none => d0
    d1.dictCommit via index sb row raw e norOk

/-! ### Settings (R380, R412) -/

/-- Write consecutive register words from a value. -/
def Dev.applyWords (d : Dev) (key n : Nat) (raw : List Byte) : Dev := d.wrBytes key raw n

/-- The numbers of the non-zero big-endian addresses of `n` bytes in a string. -/
def addrsOf (n : Nat) (bs : List Byte) : List Nat := ((entries n bs).map beNat).filter (fun a => decide (a ≠ 0))

/-- The port record of 0x3001 into PRT_CFG, PRT_MAXF, PRT_FC, PRT_XOFF, PRT_XON, PRT_STORM, PRT_TSADJ and PRT_MSCTL of port n. A usable
transmit association selected ends the NOSA alarm (R480). With invalid board data the port stays DISABLED (R476). FEC reads 0 but at 25G
(R197). A change of speed or FEC retrains the lanes (R174), a speed that the split does not have takes the link down (R173), and no queue
holds packets of a port that the record leaves without a transmitter (R182). -/
def Dev.applyPort (d : Dev) (n : Nat) (rec0 : List Byte) : Dev :=
  let r := if d.pwr.boardErr = 0 then rec0 else leBytes 1 0 ++ rec0.drop 1
  let f := subN r 3 1
  let cfg := subN r 0 1 + 16 * subN r 1 1 + 512 * b2n (bit f 3) + 1024 * b2n (bit f 2) + 2048 * b2n (bit f 1) + 4096 * b2n (bit f 0) +
    8192 * subN r 5 1 + 65536 * (if subN r 1 1 = 4 then subN r 2 1 else 0) + 2 ^ 18 * subN r 4 1
  let old := d.prtCfg n
  let d0 := d.wrN (prt n 0) cfg
  let moved := decide (bits old 6 4 ≠ bits cfg 6 4) || decide (bits old 17 16 ≠ bits cfg 17 16)
  let dr := ((if moved then d0.retrain n else if d0.portFits n then d0 else d0.linkDown n)).flushDead [n, bits old 22 18, bits cfg 22 18]
  let d1 := ((dr.wrN (prt n 4) (subN r 6 2)).wrN (prt n 0x14) (subN r 8 1 + 4 * subN r 9 1 + 65536 * subN r 10 2)).wrN (prt n 0x18) (subN r 12 4)
  let d2 := (((d1.wrN (prt n 0x1C) (subN r 16 4)).wrN (prt n 0x20) (subN r 20 2)).wrN (prt n 0x2C) (subN r 22 2)).wrN (prt n 0x30) (subN r 24 4)
  let d3 := ((d2.wrN (prt n 0x24) (Config.pathLatency true n (subN r 1 1) % 65536)).wrN (prt n 0x28) (Config.pathLatency false n (subN r 1 1) % 65536)).pauseCheck n
  if (d3.saAt (saKey n (bits (subN r 24 1) 5 4))).fresh then d3.alarmSet 6 n false 0 false else d3

/-- The records of the ports of a list that exist take effect. -/
def Dev.applyPorts (d : Dev) : List Nat → Dev
  | [] => d
  | n :: ns => (if d.portExists n then d.applyPort n (d.dval 0x3001 (n + 1) 0) else d).applyPorts ns

/-- R172, R174: block b takes another split: every lane of it retrains, what its ports had to send is dropped, and the ports that the new
split creates take their records. -/
def Dev.splitChange (d : Dev) (b v : Nat) : Dev :=
  if d.split b = v % 4 then d
  else
    let ps := (upTo 4).map (fun l => 4 * b + l)
    (((d.retrainList ps).wrN (prtBase + 0x10000 * b + 4) v).retrainList ps).applyPorts ps

/-- Program the hardware with the committed value of a stored key. -/
def Dev.applyKey (d : Dev) (k : Nat) : Dev :=
  let index := keyIndex k
  let sb := k % 256
  let row := k / 2 ^ 24
  let raw := d.dval index sb row
  let v := leNat raw
  if index = 0x2000 then d.wrN (pwrBase + 4) (v + 65536 * b2n (!(d.dictRaw 0x2000 1).isEmpty))
  else if index = 0x2020 then
    (if sb = 18 then d.wrN (parBase + 0x10) v
     else
      d.timeCfg ([0, 0x08, 0x04, 0x2C, 0x30, 0x34, 0x38, 0x3C, 0x40, 0x44, 0x48, 0x4C, 0x50, 0x54, 0x58, 0x5C, 0x60, 0x64].getD sb 0) v)
  else if index = 0x3000 then (if d.strap 3 2 = 3 then d.splitChange (sb - 1) v else d)
  else if index = 0x3001 then (if d.portExists (sb - 1) then d.applyPort (sb - 1) raw else d)
  else if index = 0x3002 then
    d.portUpd (sb - 1) (fun x => { x with ipv4 := addrsOf 4 (sub raw 0 16), ipv6 := addrsOf 16 (sub raw 16 64), mcast := addrsOf 6 (sub raw 80 192) })
  else if index = 0x3003 then (if v = 1 then d.failsafeAssert else d)
  else if index = 0x3010 then d.wrN (parBase + 4 * sb) v
  else if index = 0x3011 then d.wrN (parBase + 0x20 + 4 * (sb - 1)) v
  else if index = 0x3012 then d.wrN (parBase + 0x400 + 4 * (sb - 1)) v
  else if index = 0x3013 then d.wrN (clsBase + 0x100 + 4 * (sb - 1)) v
  else if index = 0x3014 then d.applyWords (clsBase + 0x200 + 0x20 * (sb - 1)) 8 raw
  else if index = 0x3015 then d.applyWords (clsBase + 0x400 + 0x10 * (sb - 1)) 4 raw
  else if index = 0x3016 then d.applyWords (clsBase + 0x1000 + 0x20 * (sb - 1)) 8 raw
  else if index = 0x3020 then d.wrN (flwBase + 4) v
  else if index = 0x3021 then d.applyWords (flwBase + 0x100 + 0x10 * sb) 4 raw
  else if index = 0x3022 then d.applyWords (flwBase + 0x300 + 8 * sb) 2 raw
  else if index = 0x3030 then d.wrN (gntBase + 8) v
  else if index = 0x3031 then d.applyWords (gntBase + 0x100 + 0x10 * (sb - 1)) 2 raw
  else if index = 0x3032 then d.policerWrite row (dw raw 0) (dw raw 1) (dw raw 2) (dw raw 3) (bit (dw raw 4) 0) (bit (dw raw 4) 1)
  else if index = 0x3033 then d.queueWrite (row / 8) (row % 8) ((upTo 7).map (fun i => dw raw i))
  else if index = 0x3034 then d.wrN (gntBase + 0x800 + 4 * (sb - 1)) v
  else if index = 0x3040 then d.applyWords (visBase + 0x100 + 0x40 * (sb - 1)) 10 raw
  else if index = 0x3041 then d.applyWords (visBase + 0x2000 + 0x10 * (sb - 1)) 2 raw
  else if index = 0x3050 then d.wrN (treBase + 4) (putBits (d.rdN (treBase + 4)) 1 1 v)
  else if index = 0x3060 then (d.wrN (hudBase + 0x2000 + 0x10 * (sb - 1)) (dw raw 0)).applyWords (hudBase + 0x4000 + 0x80 * (sb - 1)) 32 (raw.drop 4)
  else if index = 0x4002 then
    (let n := sb - 1
     let o := match d.queueOwner n with | some p => p | none => 48
     d.pqCfg n (bit v 31) o (bits v 18 16) (bits v 10 0))
  else if index = 0x4020 then d.setFreq (sb - 1) v
  else d

/-- R380: firmware programs the hardware with the oldest value committed and not yet in effect. -/
def Dev.settingApply (d : Dev) : Dev :=
  match d.dict.apply with
  | [] => d
  | k :: ks => ({ d with dict := { d.dict with apply := ks } }).applyKey k

def Dev.applyAll (d : Dev) : List Nat → Dev
  | [] => d
  | k :: ks => (d.applyKey k).applyAll ks

/-- Every key that takes effect now: the plain entries, and the window rows that have a value. -/
def Dev.applyKeys (d : Dev) : List Nat :=
  ((dict2 ++ dict3 ++ dict4).filter (fun (e : DEnt) => decide (e.eff = .now) && e.rows.isNone)).flatMap (fun (e : DEnt) =>
      (upTo (e.hi + 1 - e.lo)).map (fun i => dkey e.idx (e.lo + i) 0)) ++
    (d.dict.vals.filter (fun kv => decide (0 < kv.1 / 2 ^ 24) || isRow (keyIndex kv.1) (kv.1 % 256))).map (fun kv => kv.1)

end Sys2Proof
end

