-- ==== Sys2Proof/Machine/Transports.lean ====
section
/-! DEFINITION. The transports of the object dictionary (chapter 15, R394 to R404): the mailbox messages, CAN and CAN FD, UDP, USB, and
the management port (R196). -/

namespace Sys2Proof

/-- The greatest value assembled (R394): 1 MiB. -/
def asmMax : Nat := 1048576

/-- R394: sessions that hold a partly assembled write. -/
def Dev.partials (d : Dev) : Nat :=
  (d.dict.sess.filter (fun kv => kv.2.asm.isSome)).length +
  (d.host.mbx.filter (fun kv => match kv.2.asm with | some a => decide (a.opcode = 0x21) | none => false)).length

/-- R394: may session k open a partly assembled write? -/
def Dev.mayOpen (d : Dev) (k : Nat) : Bool := (d.sessAt k).asm.isSome || decide (d.partials < 48)

/-! ### The mailbox (R396) -/

/-- R379: the copy of an entry that a function's reads of several messages share: taken at the first, served to those further in. -/
def Dev.mbxCopy (d : Dev) (fn : Option Nat) (key off : Nat) : Option (List Byte) :=
  match (d.sessAt (fnIx fn)).copy with
  | some (q, v, _) => if q = key ∧ off ≠ 0 then some v else none
  | none => none

/-- R396: DICT_READ: up to 4,072 bytes from the offset, with the entry's size. An entry longer than one answer is read from the copy that
its first message takes (R379). -/
def Dev.dictReadMsg (d : Dev) (fn : Option Nat) : Dev :=
  match d.msg fn 0x20 with
  | none => d
  | some c =>
    let p := c.payload
    if p.length < 8 ∨ subN p 3 1 ≠ 0 then d.answer fn c 6 []
    else
      let key := 256 * subN p 0 2 + subN p 2 1
      let off := subN p 4 4
      let say := fun (x : Dev) (v : List Byte) => x.answer fn c 0 (leBytes 4 0 ++ leBytes 4 v.length ++ (v.drop off).take 4072)
      match d.mbxCopy fn key off with
      | some v => say d v
      | none => (match d.dictRead (.mbx fn) (subN p 0 2) (subN p 2 1) with
        | .error ab => d.answer fn c 0 (leBytes 4 ab ++ leBytes 4 0)
        | .ok v => say (if v.length ≤ 4072 then d else d.sessUpd (fnIx fn) (fun s => { s with opened := true, copy := some (key, v, d.now) })) v)

/-- The index, subindex, token and data of a DICT_WRITE payload, when its lengths hold. -/
def writeMsg (p : List Byte) : Option (Nat × Nat × Option (List Byte) × List Byte) :=
  let tl := subN p 4 4
  let dl := subN p 8 4
  if p.length < 12 ∨ subN p 3 1 ≠ 0 ∨ p.length ≠ 12 + tl + dl then none
  else some (subN p 0 2, subN p 2 1, if tl = 0 then none else some (sub p 12 tl), sub p (12 + tl) dl)

/-- R396: DICT_WRITE commits when its last segment is taken; `ok` is what a board device answers (SPI NOR, a regulator). -/
def Dev.dictWriteMsg (d : Dev) (fn : Option Nat) (ok : Bool) : Dev :=
  match d.msg fn 0x21 with
  | none => d
  | some c =>
    match writeMsg c.payload with
    | none => d.answer fn c 6 []
    | some (index, sb, tok, data) =>
      let r := d.dictWrite (.mbx fn) index sb data tok ok
      r.1.answer fn c 0 (leBytes 4 r.2)

/-- R360, R394: a segment of a message; a forty-ninth partly assembled dictionary write is refused. -/
def Dev.segment (d : Dev) (fn : Option Nat) : Dev :=
  match (d.mbxAt fn).cur with
  | some c => if c.more && decide (c.opcode = 0x21) && decide (48 ≤ d.partials) then d.answer fn c 0 (leBytes 4 abNoSess) else d.messageSegment fn
  | none => d

/-! ### CAN (R397 to R399) -/

/-- The node ID (R397); 0: the controller is off. -/
def Dev.canNode (d : Dev) : Nat := d.strap 10 4

/-- The controller is on and takes part in the bus. -/
def Dev.canUp (d : Dev) : Bool := decide (d.canNode ≠ 0) && d.fwReady && decide (d.dict.nmt ≠ .off) && !d.dict.canBusOff

/-- R397: SDO and USDO are served. -/
def Dev.sdoServes (d : Dev) : Bool := d.canUp && decide (d.dict.nmt ≠ .stopped)

/-- R482: the CAN telemetry path follows CANID, the NMT state and bus-off. -/
def Dev.canPath (d : Dev) : Dev :=
  if d.sdoServes then d.pathUp 2 else if (d.path 2).up then d.pathDown 2 else d

/-- An SDO response frame (log 58). -/
def Dev.sdoSay (d : Dev) (bs : List Byte) : Dev := d.emit (.can (0x580 + d.canNode) (padTo 8 bs))

/-- The multiplexer of a frame. -/
def mux (index sb : Nat) : List Byte := leBytes 2 index ++ leBytes 1 sb

def Dev.sdoAbort (d : Dev) (index sb code : Nat) : Dev := d.sdoSay (leBytes 1 0x80 ++ mux index sb ++ leBytes 4 code)

/-- The transfer of a session ends. -/
def Sess.ended (s : Sess) : Sess := { s with asm := none, copy := none, pos := 0, toggle := false, blk := 0 }

def Dev.sessEnd (d : Dev) (k : Nat) : Dev := d.sessUpd k Sess.ended

/-- The CRC of an SDO block transfer: CRC-CCITT with initial value 0 (log 58). -/
def crcBlock (bs : List Byte) : Nat :=
  bs.foldl (fun c b => (upTo 8).foldl (fun x _ => if bit x 15 then Nat.xor (2 * x % 65536) 0x1021 else 2 * x % 65536) (Nat.xor c (256 * b.toNat))) 0

/-- R398: a download's final frame: the commit, then the confirmation or the abort. -/
def Dev.sdoCommit (d : Dev) (index sb : Nat) (data : List Byte) (ok : Bool) (confirm : List Byte) : Dev :=
  let r := (d.sessEnd 40).dictWrite .sdo index sb data none ok
  if r.2 = 0 then r.1.sdoSay confirm else r.1.sdoAbort index sb r.2

/-- R398: a frame of a classic SDO download. -/
def Dev.sdoDown (d : Dev) (f : SdoDn) (ok : Bool) : Dev :=
  let s := d.sessAt 40
  let opens := fun (index sb size : Nat) (block : Bool) (say : List Byte) =>
    if d.mayOpen 40 = false then d.sdoAbort index sb abNoSess
    else if asmMax < size then (d.sessEnd 40).sdoAbort index sb abLength
    else (d.sessSet 40 { s.ended with opened := true, asm := some { index := index, sub := sb, total := size, block := block } }).sdoSay say
  match f with
  | .expedited index sb data => d.sdoCommit index sb (data.take 4) ok (leBytes 1 0x60 ++ mux index sb)
  | .initiate index sb size => opens index sb size false (leBytes 1 0x60 ++ mux index sb)
  | .blockInitiate index sb size => opens index sb size true (leBytes 1 0xA4 ++ mux index sb ++ leBytes 1 127)
  | .segment t data last =>
    (match s.asm with
     | none => d.sdoAbort 0 0 abCommand
     | some a =>
       let full := a.data ++ data.take 7
       if a.block then (d.sessEnd 40).sdoAbort a.index a.sub abCommand
       else if t ≠ decide (a.seg % 2 = 1) then (d.sessEnd 40).sdoAbort a.index a.sub abToggle
       else if asmMax < full.length ∨ (a.total ≠ 0 ∧ (a.total < full.length ∨ (last = true ∧ full.length ≠ a.total))) then (d.sessEnd 40).sdoAbort a.index a.sub abLength
       else if last then d.sdoCommit a.index a.sub full ok (leBytes 1 (0x20 + 16 * b2n t))
       else (d.sessSet 40 { s with asm := some { a with data := full, seg := a.seg + 1 } }).sdoSay (leBytes 1 (0x20 + 16 * b2n t)))
  | .blockData data last =>
    (match s.asm with
     | none => d.sdoAbort 0 0 abCommand
     | some a =>
       let full := a.data ++ data.take 889
       if a.block = false ∨ a.last then (d.sessEnd 40).sdoAbort a.index a.sub abCommand
       else if asmMax < full.length ∨ (a.total ≠ 0 ∧ (a.total < full.length ∨ (last = true ∧ full.length ≠ a.total))) then (d.sessEnd 40).sdoAbort a.index a.sub abLength
       else (d.sessSet 40 { s with asm := some { a with data := full, last := last } }).sdoSay ([0xA2] ++ leBytes 1 ((min 889 data.length + 6) / 7) ++ [127]))
  | .blockEnd crc =>
    (match s.asm with
     | none => d.sdoAbort 0 0 abCommand
     | some a =>
       if a.block = false ∨ a.last = false then (d.sessEnd 40).sdoAbort a.index a.sub abCommand
       else if crc.all (fun c => decide (crcBlock a.data = c)) then d.sdoCommit a.index a.sub a.data ok [0xA1]
       else (d.sessEnd 40).sdoAbort a.index a.sub abCrc)
  | .abort => d.sessEnd 40
  | .unknown index sb => d.sdoAbort index sb abCommand

/-- R398: the segments of one block of an upload, from the position already acknowledged. -/
def Dev.sdoBlock (d : Dev) (v : List Byte) (pos n : Nat) : Dev :=
  (upTo n).foldl (fun (x : Dev) i =>
    if pos + 7 * i < v.length ∨ (i = 0 ∧ v = []) then
      x.sdoSay (leBytes 1 (i + 1 + 128 * b2n (decide (v.length ≤ pos + 7 * (i + 1)))) ++ (v.drop (pos + 7 * i)).take 7)
    else x) d

/-- R398: a frame of a classic SDO upload. -/
def Dev.sdoUp (d : Dev) (f : SdoUp) : Dev :=
  let s := d.sessAt 40
  match f with
  | .initiate index sb =>
    (match d.dictRead .sdo index sb with
     | .error ab => (d.sessEnd 40).sdoAbort index sb ab
     | .ok v =>
       if 1 ≤ v.length ∧ v.length ≤ 4 then (d.sessEnd 40).sdoSay (leBytes 1 (0x43 + 4 * (4 - v.length)) ++ mux index sb ++ v)
       else (d.sessSet 40 { s.ended with opened := true, copy := some (256 * index + sb, v, d.now) }).sdoSay (leBytes 1 0x41 ++ mux index sb ++ leBytes 4 v.length))
  | .blockInitiate index sb size =>
    (match d.dictRead .sdo index sb with
     | .error ab => (d.sessEnd 40).sdoAbort index sb ab
     | .ok v =>
       if size = 0 ∨ 127 < size then (d.sessEnd 40).sdoAbort index sb abCommand
       else (d.sessSet 40 { s.ended with opened := true, copy := some (256 * index + sb, v, d.now), blk := size }).sdoSay
         (leBytes 1 0xC6 ++ mux index sb ++ leBytes 4 v.length))
  | .segment t =>
    (match s.copy with
     | none => d.sdoAbort 0 0 abCommand
     | some (k, v, at_) =>
       if s.blk ≠ 0 then (d.sessEnd 40).sdoAbort (k / 256) (k % 256) abCommand
       else if t ≠ s.toggle then (d.sessEnd 40).sdoAbort (k / 256) (k % 256) abToggle
       else
         let part := (v.drop s.pos).take 7
         let last := decide (v.length ≤ s.pos + 7)
         let next := if last then s.ended else { s with copy := some (k, v, at_), pos := s.pos + 7, toggle := !t }
         (d.sessSet 40 next).sdoSay (leBytes 1 (16 * b2n t + 2 * (7 - part.length) + b2n last) ++ part))
  | .blockStart =>
    (match s.copy with
     | none => d.sdoAbort 0 0 abCommand
     | some (k, v, _) => if s.blk = 0 then (d.sessEnd 40).sdoAbort (k / 256) (k % 256) abCommand else d.sdoBlock v s.pos s.blk)
  | .blockAck n size =>
    (match s.copy with
     | none => d.sdoAbort 0 0 abCommand
     | some (k, v, _) =>
       if s.blk = 0 ∨ s.blk < n ∨ size = 0 ∨ 127 < size then (d.sessEnd 40).sdoAbort (k / 256) (k % 256) abCommand
       else
         let pos := s.pos + 7 * n
         let d1 := d.sessSet 40 { s with pos := pos, blk := size }
         if v.length ≤ pos then d1.sdoSay (leBytes 1 (0xC1 + 4 * (pos - v.length)) ++ leBytes 2 (crcBlock v)) else d1.sdoBlock v pos size)
  | .blockEnd => d.sessEnd 40
  | .abort => d.sessEnd 40

/-- The sessions of CAN FD client nodes with a transfer in progress (R399). -/
def Dev.usdoOpen (d : Dev) : Nat := (d.dict.sess.filter (fun kv => decide (41 ≤ kv.1) && decide (kv.1 < 169) && kv.2.asm.isSome)).length

/-- R399: a unicast USDO request of a client node; a ninth session is refused. -/
def Dev.usdoServe (d : Dev) (node : Nat) (r : UsdoReq) (ok : Bool) : Dev :=
  let via := Via.usdo node
  let k := via.sess
  let s := d.sessAt k
  let say := fun (x : Dev) (ab : Nat) (v : List Byte) => x.emit (.usdo node ab v)
  let room := s.asm.isSome || decide (d.usdoOpen < 8)
  let commit := fun (index sb : Nat) (data : List Byte) =>
    let w := (d.sessEnd k).dictWrite via index sb data none ok
    say w.1 w.2 []
  match r with
  | .read index sb =>
    if room = false then say d abNoSess []
    else (match d.dictRead via index sb with
      | .error ab => say d ab []
      | .ok v => say d 0 v)
  | .write index sb data => if room = false then say d abNoSess [] else commit index sb data
  | .initiate index sb size =>
    if room = false ∨ d.mayOpen k = false then say d abNoSess []
    else if asmMax < size then say (d.sessEnd k) abLength []
    else say (d.sessSet k { s.ended with opened := true, asm := some { index := index, sub := sb, total := size } }) 0 []
  | .segment data last =>
    (match s.asm with
     | none => say d abCommand []
     | some a =>
       let full := a.data ++ data
       if a.total < full.length ∨ (last = true ∧ full.length ≠ a.total) then say (d.sessEnd k) abLength []
       else if last then commit a.index a.sub full
       else say (d.sessSet k { s with asm := some { a with data := full } }) 0 [])

/-! ### Dictionary over UDP (R400 to R402) -/

/-- The response datagram: the request's header with bit 7 of OP set, FLAGS 0, LENGTH and TOTAL. -/
def udpAnswer (raw : List Byte) (total : Nat) (data : List Byte) : List Byte :=
  raw.take 3 ++ leBytes 1 (subN raw 3 1 % 128 + 128) ++ sub raw 4 7 ++ leBytes 1 0 ++ sub raw 12 4 ++ leBytes 2 data.length ++ leBytes 2 0 ++ leBytes 4 total ++ data

/-- How far the bytes received reach from `at_`, and those bytes; `fuel` is the number of parts. -/
def coverFrom (parts : List (Nat × List Byte)) : Nat → Nat → List Byte
  | 0, _ => []
  | fuel + 1, at_ =>
    match parts.find? (fun p => decide (p.1 ≤ at_) && decide (at_ < p.1 + p.2.length)) with
    | some p => let got := p.2.drop (at_ - p.1); got ++ coverFrom parts fuel (at_ + got.length)
    | none => []

/-- The bytes of a value from its parts, when they cover 0 to `total` − 1. -/
def Asm.whole (a : Asm) : Option (List Byte) :=
  let bs := (coverFrom a.parts a.parts.length 0).take a.total
  if a.last && decide (bs.length = a.total) then some bs else none

/-- Send a response and keep it, one of the last 16 of its source. -/
def Dev.udpSay (d : Dev) (k sq : Nat) (resp : List Byte) : Dev :=
  (d.sessUpd k (fun s => { s with opened := true, seen := d.now, resp := ((sq, resp) :: s.resp).take 16 })).mgmtOut (.udp resp)

/-- R401: a READ. -/
def Dev.udpGet (d : Dev) (src : Nat) (raw : List Byte) : Dev :=
  let via := Via.udp src
  let k := via.sess
  let index := subN raw 8 2
  let sb := subN raw 10 1
  let off := subN raw 12 4
  let key := 256 * index + sb
  let kept := match (d.sessAt k).copy with
    | some (q, v, at_) => if off ≠ 0 ∧ q = key ∧ d.now ≤ at_ + 20000000000 then some v else none
    | none => none
  match kept with
  | some v => d.udpSay k (subN raw 4 4) (udpAnswer raw v.length ((v.drop off).take (min 1400 (subN raw 16 2))))
  | none =>
    match d.dictRead via index sb with
    | .error ab => d.udpSay k (subN raw 4 4) (udpAnswer raw ab [])
    | .ok v => (d.sessUpd k (fun s => { s with copy := some (key, v, d.now) })).udpSay k (subN raw 4 4) (udpAnswer raw v.length ((v.drop off).take (min 1400 (subN raw 16 2))))

/-- R401, R402: a datagram of a WRITE. -/
def Dev.udpPut (d : Dev) (src : Nat) (raw : List Byte) (ok : Bool) : Dev :=
  let via := Via.udp src
  let k := via.sess
  let index := subN raw 8 2
  let sb := subN raw 10 1
  let total := subN raw 20 4
  let say := fun (x : Dev) (code : Nat) => x.udpSay k (subN raw 4 4) (udpAnswer raw code [])
  if d.dvalN 0x2031 2 0 = 0 then say d abTransport
  else if asmMax < total then say d abLength
  else if d.mayOpen k = false then say d abNoSess
  else
    let fresh : Asm := { index := index, sub := sb, total := total }
    let a := match (d.sessAt k).asm with
      | some x => if x.index = index ∧ x.sub = sb ∧ x.total = total then x else fresh
      | none => fresh
    let data := (raw.drop 24).take (min 1400 (subN raw 16 2))
    let a1 := { a with parts := a.parts ++ [(subN raw 12 4, data)], last := a.last || bit (subN raw 11 1) 0 }
    match a1.whole with
    | none => say (d.sessUpd k (fun s => { s with asm := some a1 })) 0
    | some v =>
      let r := (d.sessUpd k (fun s => { s with asm := none })).dictWrite via index sb v none ok
      say r.1 r.2

/-- R400: a datagram of the service; a wrong MAGIC or VERSION is discarded, a repeated SEQ is answered from the responses kept. -/
def Dev.udpServe (d : Dev) (src : Nat) (raw : List Byte) (ok : Bool) : Dev :=
  let k := Via.sess (.udp src)
  if raw.length < 24 ∨ sub raw 0 2 ≠ [0x45, 0x44] ∨ subN raw 2 1 ≠ 1 then d
  else match (d.sessAt k).resp.find? (fun r => decide (r.1 = subN raw 4 4)) with
    | some r => (d.sessUpd k (fun s => { s with seen := d.now })).mgmtOut (.udp r.2)
    | none => if subN raw 3 1 = 1 then d.udpGet src raw else if subN raw 3 1 = 2 then d.udpPut src raw ok else d

/-! ### Requests held during a live update (R395) -/

def Dev.heldServe (d : Dev) : HeldReq → Dev
  | .dn r ok => if d.sdoServes then d.sdoDown r ok else d
  | .up r => if d.sdoServes then d.sdoUp r else d
  | .usdo n r ok => if d.sdoServes && decide (d.dict.canFd ≠ 0) then d.usdoServe n r ok else d
  | .udp s raw ok => d.udpServe s raw ok

def Dev.heldAll (d : Dev) : List HeldReq → Dev
  | [] => d
  | r :: rs => (d.heldServe r).heldAll rs

def HeldReq.isUdp : HeldReq → Bool
  | .udp _ _ _ => true
  | _ => false

/-- A request arrives: it is served, or held while the service is paused; at most 64 UDP datagrams are held.
With invalid board data the management port is off (R476). -/
def Dev.request (d : Dev) (r : HeldReq) : Dev :=
  if d.fwReady = false ∨ (r.isUdp = true ∧ d.pwr.boardErr ≠ 0) then d
  else if d.helds then
    (if r.isUdp && decide (64 ≤ (d.dict.held.filter HeldReq.isUdp).length) then d else { d with dict := { d.dict with held := d.dict.held ++ [r] } })
  else d.heldServe r

def Dev.sdoDownload (d : Dev) (f : SdoDn) (ok : Bool) : Dev := if d.sdoServes then d.request (.dn f ok) else d
def Dev.sdoUpload (d : Dev) (f : SdoUp) : Dev := if d.sdoServes then d.request (.up f) else d
def Dev.usdoTransfer (d : Dev) (node : Nat) (r : UsdoReq) (ok : Bool) : Dev :=
  if d.sdoServes && decide (d.dict.canFd ≠ 0) then d.request (.usdo node r ok) else d

/-- R398, R399: a gap of a transfer exceeds the segment timeout: classic SDO, or a client node's USDO session. -/
def Dev.sdoTimeout (d : Dev) (node : Option Nat) : Dev :=
  let k := match node with | none => 40 | some n => Via.sess (.usdo n)
  let s := d.sessAt k
  if s.asm.isSome || s.copy.isSome then
    let d1 := d.sessEnd k
    if d.sdoServes then
      (match node with
       | some n => d1.emit (.usdo n abTimeout [])
       | none =>
         let key := match s.asm, s.copy with | some a, _ => 256 * a.index + a.sub | none, some (q, _, _) => q | none, none => 0
         d1.sdoAbort (key / 256) (key % 256) abTimeout)
    else d1
  else d

/-- R397: NMT start, stop and enter pre-operational change the node's state only. -/
def Dev.nmtSet (d : Dev) (s : Nmt) : Dev := if d.canUp then ({ d with dict := { d.dict with nmt := s } }).canPath else d

/-- R397: the controller takes the 0x2032 values, every CAN session goes, the node sends its boot-up message and enters
pre-operational. -/
def Dev.canStart (d : Dev) : Dev :=
  if d.canNode = 0 then d
  else
    let c := d.dict
    let c1 := { c with canRate := d.dvalN 0x2032 1 0, canFd := d.dvalN 0x2032 2 0, nmt := .preOp, canPassive := false, canBusOff := false }
    let c2 := { c1 with sess := Tab.keep c.sess (fun k _ => !(decide (40 ≤ k) && decide (k < 169))), held := c.held.filter HeldReq.isUdp }
    (({ d with dict := c2 }).emit (.can (0x700 + d.canNode) [0])).canPath

/-- R397: reset communication and reset node. -/
def Dev.nmtReset (d : Dev) : Dev := if d.canUp then d.canStart else d

/-- R397: the heartbeat, with the CiA 301 state byte (log 58). -/
def Dev.heartbeat (d : Dev) : Dev :=
  if d.canUp && decide (d.dvalN 0x1017 0 0 ≠ 0) then
    d.emit (.can (0x700 + d.canNode) (leBytes 1 (match d.dict.nmt with | .stopped => 4 | .operational => 5 | _ => 0x7F)))
  else d

/-- R390, R482: the controller enters or leaves error-passive and bus-off. -/
def Dev.canError (d : Dev) (passive busOff : Bool) : Dev :=
  if decide (d.canNode ≠ 0) && decide (d.dict.nmt ≠ .off) then ({ d with dict := { d.dict with canPassive := passive, canBusOff := busOff } }).canPath else d

/-- R401: an idle UDP session is discarded without answer. -/
def Dev.udpTimeout (d : Dev) (src : Nat) : Dev := d.sessSet (Via.sess (.udp src)) {}

/-! ### USB (R403, R404) -/

/-- A request before firmware runs stalls with 0x0800_0022 (R394). -/
def Dev.usbFail (d : Dev) (index sb ab : Nat) : Dev := (d.sessUpd 190 (fun s => { s with opened := true, result := (ab, index, sb, false) })).emit .usbStall

/-- Is the request answered with NAK, or stalled, without being served? -/
def Dev.usbGate (d : Dev) (index sb : Nat) (go : Dev) : Dev :=
  if d.fwReady = false then d.usbFail index sb abState else if d.helds then d else go

/-- R403: READ. -/
def Dev.usbRead (d : Dev) (index sb seg len : Nat) : Dev :=
  let key := 256 * index + sb
  let serve := fun (x : Dev) (v : List Byte) =>
    (x.sessUpd 190 (fun s => { s with opened := true, result := (0, index, sb, false) })).emit (.usb ((v.drop (4096 * seg)).take (min 4096 len)))
  d.usbGate index sb
    (if seg = 0 then
      (match d.dictRead .usb index sb with
       | .error ab => (d.sessUpd 190 (fun s => { s with copy := none })).usbFail index sb ab
       | .ok v => serve (d.sessUpd 190 (fun s => { s with copy := some (key, v, d.now) })) v)
     else match (d.sessAt 190).copy with
       | some (k, v, _) => if k = key then serve d v else d.usbFail index sb abAccess
       | none => d.usbFail index sb abAccess)

/-- R403: the segment joins its assembly: segment 0 begins one, the others follow in order. -/
def Dev.usbAsm (d : Dev) (index sb seg : Nat) (data : List Byte) : Option Asm :=
  if seg = 0 then some { index := index, sub := sb, data := data, seg := 1 }
  else match (d.sessAt 190).asm with
    | some a => if a.index = index ∧ a.sub = sb ∧ a.seg = seg then some { a with data := a.data ++ data, seg := seg + 1 } else none
    | none => none

/-- R403: WRITE: one segment of exactly 4,096 bytes. -/
def Dev.usbWrite (d : Dev) (index sb seg : Nat) (data : List Byte) : Dev :=
  let d0 := d.sessUpd 190 (fun s => { s with copy := none })
  let drop := d0.sessUpd 190 (fun s => { s with asm := none })
  d.usbGate index sb
    (if data.length ≠ 4096 ∨ 255 < seg then drop.usbFail index sb abAccess
     else if d.mayOpen 190 = false then d0.usbFail index sb abNoSess
     else match d.usbAsm index sb seg data with
       | some a => d0.sessUpd 190 (fun s => { s with opened := true, asm := some a, result := (0, index, sb, false) })
       | none => drop.usbFail index sb abAccess)

/-- R404: WRITE_LAST: the checks, then the commit when the status stage is acknowledged. -/
def Dev.usbWriteLast (d : Dev) (index sb seg : Nat) (data : List Byte) (ack ok : Bool) : Dev :=
  let drop := d.sessUpd 190 (fun s => { s with asm := none, copy := none })
  d.usbGate index sb
    (if 4096 < data.length ∨ 255 < seg then drop.usbFail index sb abAccess
     else match d.usbAsm index sb seg data with
       | none => drop.usbFail index sb abAccess
       | some a =>
         let r := drop.dictWrite .usb index sb a.data none ok
         if r.2 ≠ 0 then r.1.usbFail index sb r.2
         else if ack then (r.1.sessUpd 190 (fun s => { s with opened := true, result := (0, index, sb, true) })).emit (.usb [])
         else drop.sessUpd 190 (fun s => { s with opened := true, result := (0, index, sb, false), token := if index = 0x5020 then s.token else none }))

/-- R403: RESULT. -/
def Dev.usbResult (d : Dev) : Dev :=
  let r := (d.sessAt 190).result
  if d.helds then d else d.emit (.usb (leBytes 4 r.1 ++ leBytes 2 r.2.1 ++ leBytes 1 r.2.2.1 ++ leBytes 1 (b2n r.2.2.2)))

/-- R404, R482: a bus reset, suspend or detach. -/
def Dev.usbReset (d : Dev) : Dev := (d.sessUpd 190 (fun s => { s with asm := none, token := none, copy := none })).pathDown 3

/-! ### Committed settings and tokens as commands of their own (R380, R382, R384, R388) -/

/-- R388: a staged token expires 10 s after staging. -/
def Dev.tokenExpire (d : Dev) (via : Via) : Dev := d.sessUpd via.sess (fun s => { s with token := none })

/-- A write over a transport by its session, committed at its transport's moment: the outcome is the session's result. Over a mailbox it
is the DICT_WRITE message taken, which must spell it, and the message is answered with the outcome. -/
def Dev.writeVia (d : Dev) (via : Via) (index sb : Nat) (raw : List Byte) (tok : Option (List Byte)) (ok : Bool) : Dev :=
  if d.fwReady = false ∨ d.helds then d
  else match via with
    | .mbx fn => (match d.msg fn 0x21 with
      | some c => if writeMsg c.payload = some (index, sb, tok, raw) then d.dictWriteMsg fn ok else d
      | none => d)
    | _ =>
      let r := d.dictWrite via index sb raw tok ok
      r.1.sessUpd via.sess (fun s => { s with opened := true, result := (r.2, index, sb, decide (r.2 = 0)) })

/-! ### Telemetry paths (R482) -/

/-- R482: does a PF queue pair hold a RECV buffer, with Bus Master Enable 1? -/
def Dev.pciePath (d : Dev) : Bool :=
  Tab.get false d.host.bme 0 && (upTo 16).any (fun q => !(Tab.get {} d.host.dma q).recv.isEmpty)

/-- R482, R486: the conditions of a path's coming up that the device itself holds: a RECV buffer (PCIe), valid board data and a
destination (UDP), the node's state (CAN). That the management link is up with the destination's address resolved, or the USB device
configured, is what the command says. -/
def Dev.pathRise (d : Dev) (p : Fin 4) : Dev :=
  match p with
  | 0 => if d.pciePath then d.pathUp 0 else d
  | 1 => if d.pwr.boardErr = 0 ∧ zeros (d.dval 0x2040 1 0) = false then d.pathUp 1 else d
  | 2 => d.canPath
  | 3 => d.pathUp 3

/-- R482: a path stops being up; the PCIe and CAN paths only when the device's own state says so. -/
def Dev.pathFall (d : Dev) (p : Fin 4) : Dev :=
  match p with
  | 0 => if d.pciePath then d else d.pathDown 0
  | 1 => d.pathDown 1
  | 2 => d.canPath
  | 3 => d.pathDown 3

/-! ### The management port (R196) -/

/-- The port's MAC address (R179). -/
def Dev.mgmtMac (d : Dev) : List Byte := (leBytes 6 (d.portMac 32)).reverse

/-- The ICMPv6 checksum of a message between two addresses. -/
def icmp6Sum (src dst msg : List Byte) : Nat :=
  let s := fold16 (fold16 (sum16 src + sum16 dst + msg.length + 58 + sum16 msg))
  if s = 65535 then 65535 else 65535 - s

/-- An ARP reply to a request for one of the port's addresses (log 59). -/
def arpReply (own : List Byte) (fr : List Byte) : List Byte :=
  sub fr 22 6 ++ own ++ [0x08, 0x06, 0, 1, 8, 0, 6, 4, 0, 2] ++ own ++ sub fr 38 4 ++ sub fr 22 6 ++ sub fr 28 4

/-- A neighbour advertisement in answer to a solicitation (log 59). -/
def ndReply (own : List Byte) (fr : List Byte) : List Byte :=
  let target := sub fr 62 16
  let dad := zeros (sub fr 22 16)
  let dst : List Byte := if dad then [0xFF, 0x02, 0, 0, 0, 0, 0, 0, 0, 0, 0, 0, 0, 0, 0, 1] else sub fr 22 16
  let body : List Byte := (if dad then [0x20, 0, 0, 0] else [0x60, 0, 0, 0]) ++ target ++ [2, 1] ++ own
  let c := icmp6Sum target dst ([136, 0, 0, 0] ++ body)
  sub fr 6 6 ++ own ++ [0x86, 0xDD, 0x60, 0, 0, 0, 0, 32, 58, 255] ++ target ++ dst ++ [136, 0] ++ (leBytes 2 c).reverse ++ body

/-- R196, R281: the stamp of a PTP frame at the management port: resolution 8 ns, flag MGMT. -/
def Dev.mgmtStamp (d : Dev) : TStamp :=
  let s := d.stamp
  { s with subsec := s.subsec / 32 * 32, flags := setBit s.flags 1 }

/-- R196: a frame on the management port: PAUSE is honoured, ARP and neighbour discovery for the port's addresses are answered, a PTP frame
is stamped and reaches the servo (R286), whose measurements are commands of their own; dictionary datagrams are UDP_READ and UDP_WRITE.
With invalid board data the port is off (R476). -/
def Dev.mgmtFrame (d : Dev) (fr : List Byte) : Dev :=
  let t := etherType fr
  let own := d.mgmtMac
  let forUs := decide (fr.take 6 = own) || decide (beNat (fr.take 6) = 0x0180C2000001)
  let v4 := (leBytes 4 (d.dvalN 0x2030 1 0)).reverse
  let v6 := d.dval 0x2030 4 0
  if d.pwr.boardErr ≠ 0 then d
  else if t = 0x8808 ∧ be fr 14 2 = 1 ∧ forUs then { d with dict := { d.dict with mgmtPause := d.now + 5120 * be fr 16 2 } }.mgmtDrain
  else if d.fwReady = false ∨ d.helds then d
  else if t = 0x0806 ∧ be fr 14 2 = 1 ∧ be fr 16 2 = 0x0800 ∧ be fr 20 2 = 1 ∧ zeros v4 = false ∧ sub fr 38 4 = v4 then d.mgmtOut (.frameBytes 32 (arpReply own fr))
  else if t = 0x86DD ∧ be fr 20 1 = 58 ∧ be fr 54 1 = 135 ∧ zeros v6 = false ∧ sub fr 62 16 = v6 then d.mgmtOut (.frameBytes 32 (ndReply own fr))
  else match ptpMsg fr with
    | some o => (d.tmuUpd (fun t => { t with servo := { t.servo with mgmt := some d.mgmtStamp } })).ptpHear 32 (fr.drop o)
    | none => d

/-- R207, R286: a Shortstop core is done with the k-th entry of its queue. A PTP frame it held (reason 0x0C) has reached the servo from
its port. -/
def Dev.puntDone (d : Dev) (core k : Nat) : Dev :=
  match (Tab.get [] d.flow.puntQ core)[k]? with
  | none => d
  | some e =>
    let fr := match e.pkt with
      | some i => (d.pkt i).data
      | none => e.data
    let d1 := d.puntRelease core k
    match ptpMsg fr with
    | some o => if fld e.header 0 2 = 0x0C then d1.ptpHear (fld e.header 2 1) (fr.drop o) else d1
    | none => d1

/-- R286: may firmware send this frame on port n: it is no PTP message, or one the slave sends under its delay mechanism; a Delay_Req,
Pdelay_Req or Pdelay_Resp goes out of a PTP port, marked for stamping. -/
def Dev.ptpOk (d : Dev) (n : Nat) (fr : List Byte) (marked : Bool) : Bool :=
  match ptpMsg fr with
  | none => true
  | some o =>
    let t := be fr o 1 % 16
    d.ptpMaySend t && (!([1, 2, 3].contains t) || (marked && bit (d.rdN (parBase + 0x10)) n))

/-- R177, R193, R286: firmware sends a frame of its own out of queue q of network port n, marked for transmit stamping or not; its cells
come from the system pool. -/
def Dev.slowSend (d : Dev) (n q : Nat) (fr : List Byte) (mark : Option (Nat × Option TStamp)) : Dev :=
  let it : EgItem := { pkt := none, len := fr.length + 4, cells := cellsOf (fr.length + 4), data := fr, mark := mark }
  if d.fwReady = false ∨ d.helds ∨ d.ptpOk n fr mark.isSome = false ∨ d.rdN (gntBase + 8) < d.flow.sysUsed + it.cells then d
  else
    let r := d.enqueue n q it
    if r.2 then { r.1 with flow := { r.1.flow with sysUsed := r.1.flow.sysUsed + it.cells } } else r.1

end Sys2Proof
end

