-- ==== Sys2Proof/Machine/Firmware.lean ====
section
/-! DEFINITION. Firmware (chapter 16): images and their checks, the start sequence, live update, watchdogs and the management reset;
and the building of the partition map at boot (chapter 13, R323 to R325). -/

namespace Sys2Proof

/-! ### Images (R410, R411) -/

/-- A segment entry is sound: its core, component and kind exist and it lies on the boundaries of R410. -/
def segOk (bs : List Byte) (sig : Nat) : Bool :=
  decide (subN bs 0 1 ≤ 5) && decide (subN bs 1 1 ≤ 11) && decide (subN bs 2 1 ≤ 2) && decide (subN bs 24 8 % 64 = 0) &&
  decide (subN bs 24 8 + subN bs 16 8 ≤ 25165824) &&
  (if subN bs 2 1 = 2 then decide (subN bs 8 8 = 0) else decide (subN bs 8 8 % 64 = 0) && decide (subN bs 8 8 + subN bs 16 8 ≤ sig))

/-- R411 step 2: outcome 0x01 or 0x02 of the header and the segment table. -/
def imageErr (bs : List Byte) (total : Nat) : Option Nat :=
  let sig := subN bs 24 8
  let n := subN bs 32 2
  let ent := fun (i : Nat) => sub bs (256 + 32 * i) 32
  let filed := ((upTo n).map ent).filter (fun e => decide (subN e 2 1 ≠ 2))
  if decide (sub bs 0 4 ≠ [0x45, 0x43, 0x46, 0x57]) || decide (subN bs 4 2 ≠ 1) || decide (subN bs 8 4 ≠ 256) || !zeros (sub bs 36 4) || !zeros (sub bs 90 166) ||
      (upTo n).any (fun i => !zeros (sub (ent i) 3 5)) then some 1
  else if decide (subN bs 16 8 ≠ total) || decide (bs.length ≠ total) || decide (total ≠ sig + 4800) || decide (25165824 < total) || decide (sig % 64 ≠ 0) ||
      decide (n = 0) || decide (64 < n) || (upTo n).any (fun i => !segOk (ent i) sig) || filed.any (fun e => decide (subN e 8 8 < 256 + 32 * n)) ||
      (filed.zip (filed.drop 1)).any (fun a => decide (subN a.2 8 8 < subN a.1 8 8 + subN a.1 16 8)) then some 2
  else none

/-- The image of its bytes, signed by slot `k`. -/
def imageOf_ (bs : List Byte) (k : Nat) : FwImage :=
  { bytes := bs, svn := subN bs 12 4, mbxMajor := subN bs 34 1, mbxMinor := subN bs 35 1, pfFeat := subN bs 40 8, vfFeat := subN bs 48 8,
    version := sub bs 56 32, recMax := subN bs 88 2, signer := k }

/-! ### Memory protection (R407, R408) -/

/-- R408: the hardware writes permitted per component, and those that R156, R159 and R166 give to all firmware: ring tails, queue pushes,
lock releases (log 108). -/
def permTable : List PermRow :=
  [ { comp := 0, base := secBase, len := 0x80000 }, { comp := 0, base := tenBase + 4, len := 4, n := 32, step := 0x20000 },
    { comp := 0, base := glbBase, len := 0x10000 }, { comp := 0, base := mbxBase + 0x1000, len := 0x1000 },
    { comp := 2, base := mbxBase + 0x1000, len := 0x1000 },
    { comp := 3, base := pwrBase, len := 0x80000 }, { comp := 3, base := memBase + 4, len := 4 },
    { comp := 4, base := pwrBase + 0x60, len := 0x10 },
    { comp := 5, base := tmuBase, len := 0x80000 },
    { comp := 6, base := prtBase, len := 0x100000 }, { comp := 6, base := parBase, len := 0x40000 }, { comp := 6, base := clsBase, len := 0xC0000 },
    { comp := 6, base := flwBase, len := 0x40000 }, { comp := 6, base := gntBase, len := 0x40000 }, { comp := 6, base := visBase, len := 0x40000 },
    { comp := 6, base := hudBase, len := 0x400000 }, { comp := 6, base := treBase + 4, len := 4 },
    { comp := 8, base := ptnBase, len := 0x100000 }, { comp := 8, base := pqBase, len := 4, n := 64, step := 0x100 },
    { comp := 8, base := lckBase + 0x800, len := 4 }, { comp := 8, base := memBase + 0x100, len := 8, n := 32, step := 0x20 },
    { comp := 8, base := tenBase + 0xC, len := 4, n := 32, step := 0x20000 }, { comp := 8, base := tenBase + 0x18, len := 8, n := 32, step := 0x20000 } ] ++
  (upTo 12).flatMap (fun c => [ { comp := c, base := lckBase, len := 0x400 }, { comp := c, base := pqBase + 0x14, len := 4, n := 64, step := 0x100 },
    { comp := c, base := pqBase + 0x20, len := 0x20, n := 64, step := 0x100 }, { comp := c, base := catBase + 0x404, len := 4, n := 33, step := 0x10 } ])

/-- R407: the regions of a core from an image's segment table: code execute-only, data for its own component. A core has 16 regions, which
its first segments take (log 109). -/
def segRegions (bs : List Byte) (core : Nat) : List ProtRegion :=
  ((((upTo (subN bs 32 2)).map (fun i => sub bs (256 + 32 * i) 32)).filter (fun e => decide (subN e 0 1 = core))).map (fun e =>
    ({ core := core, kind := if subN e 2 1 = 0 then .code (subN e 1 1) (subN e 24 8) (subN e 16 8) else .data (subN e 1 1) (subN e 24 8) (subN e 16 8) } : ProtRegion))).take 16

/-- R407, R408, R411 step 5: what the supervisor programs for an image. -/
def protOf (i : FwImage) : Prot := { regions := (upTo 6).flatMap (segRegions i.bytes), table := permTable }

/-- R407: may component c store at an SRAM address? Its own data, the queues it sends on, its own records; component 0 every record. Code
is execute-only. -/
def Prot.mayStore (p : Prot) (c addr : Nat) : Bool :=
  match Config.sramPlace addr with
  | (0, a, _) => p.regions.any (fun r => match r.kind with
      | .data k base len => decide (k = c) && decide (base ≤ a) && decide (a < base + len)
      | _ => false)
  | (1, s, _) => decide (s = c)
  | (2, k, _) => decide (c = 0) || decide (k = c)
  | _ => false

/-- R408: does the permission table let component c write the register at `key`? -/
def Dev.fwMayWrite (d : Dev) (c key : Nat) : Bool := d.fw.prot.table.any (fun r => decide (r.comp = c) && r.covers key)

/-- R411 steps 2 and 3, R441, R443: the outcome of the first check that fails, or the image. -/
def Dev.imageCheck (d : Dev) (bs : List Byte) (total : Nat) : Except Nat FwImage :=
  let sigOff := subN bs 24 8
  let sig := bs.drop sigOff
  match imageErr bs total with
  | some c => .error c
  | none =>
    if sigVerifies sig (bs.take sigOff) = false then .error 4
    else match d.liveSlots.find? (fun k => decide (Config.signerHash k = sub sig 16 48)) with
      | none => .error 5
      | some k => if subN bs 12 4 < d.sec.floor then .error 6 else if d.sec.state = 3 then .error 7 else .ok (imageOf_ bs k)

/-- R452: an image refused is logged and counted. -/
def Dev.imageRefused (d : Dev) (code : Nat) : Dev := ((d.report 0x11 3 0 0xFF code).count (secBase + 0x18) 1).event (secBase + 0x10) 2

/-- The payload of FW_LOAD and FW_UPDATE: length, and ranges that hold. -/
def loadPayload (p : List Byte) : Bool := decide (16 ≤ p.length) && rangesIn p

/-- R411: FW_LOAD, with what the DMA reads of host memory gave. -/
def Dev.fwLoad (d : Dev) (data : Option (List Byte)) : Dev :=
  match d.msg none 0x10 with
  | none => d
  | some c =>
    if d.romServes = false then d
    else if loadPayload c.payload = false then d.answer none c 6 []
    else match data with
    | none => (d.imageRefused 3).answer none c 0 (leBytes 4 3)
    | some bs =>
      match d.imageCheck bs (subN c.payload 0 8) with
      | .error code => (d.imageRefused code).answer none c 0 (leBytes 4 code)
      | .ok img =>
        let d1 := d.answer none c 0 (leBytes 4 0)
        let d2 := { d1 with fw := { d1.fw with image := some img, other := none, phase := .none, prot := protOf img } }
        (d2.mbxDrop.wrN (glbBase + 4) 0).secRegs

/-- R411 code 0x08: the new image keeps every agreed major and feature. -/
def Dev.updateKeeps (d : Dev) (img : FwImage) : Bool :=
  d.host.mbx.all (fun kv => !kv.2.hello || (decide (kv.2.agMajor = img.mbxMajor) &&
    decide (Nat.land kv.2.feat (if kv.1 = 0 then img.pfFeat else img.vfFeat) = kv.2.feat)))

/-- R413: FW_UPDATE: the new image is copied and verified while service continues. -/
def Dev.fwUpdate (d : Dev) (data : Option (List Byte)) : Dev :=
  match d.msg none 0x11 with
  | none => d
  | some c =>
    if d.fwReady = false ∨ d.helds then d
    else if loadPayload c.payload = false then d.answer none c 6 []
    else if d.fw.phase ≠ .none then d.answer none c 0 (leBytes 4 0x0A)
    else match data with
    | none => (d.imageRefused 3).answer none c 0 (leBytes 4 3)
    | some bs =>
      match d.imageCheck bs (subN c.payload 0 8) with
      | .error code => (d.imageRefused code).answer none c 0 (leBytes 4 code)
      | .ok img =>
        if d.updateKeeps img then { d with fw := { d.fw with other := some img, phase := .prepare } }
        else d.answer none c 0 (leBytes 4 8)

/-! ### Live update (R414 to R418) -/

/-- A firmware notice (R427). -/
def Dev.fwNotice (d : Dev) (code comp count : Nat) : Dev := d.notice 0xFF (code + 256 * comp + 2 ^ 32 * (count % 2 ^ 32)) 0

/-- Set or clear GLB_STAT.HELD. -/
def Dev.setHeld (d : Dev) (on : Bool) : Dev := d.wrN (glbBase + 4) (putBits (d.rdN (glbBase + 4)) 2 2 (b2n on))

/-- R413, R414 phase 2: with no bundle install running the pause begins. -/
def Dev.quiesce (d : Dev) : Dev :=
  if d.fw.phase = .prepare ∧ d.store.installs.any (fun i => decide (i.state = 1)) = false then
    let n := d.fw.updates + 1
    let d1 := { d with fw := { d.fw with phase := .quiesce, pauseAt := d.now, updates := n }, tel := { d.tel with fwHeld := true } }
    (d1.setHeld true).fwNotice 0x10 0 n
  else d

/-- The image changes: its protection regions and permissions (R407, R408), measurement 2, and 3 with the running SVN (R436). -/
def Dev.imageSwap (d : Dev) (new old : Option FwImage) : Dev :=
  let prot := match new with | some i => protOf i | none => {}
  let d1 := ({ d with fw := { d.fw with image := new, other := old, prot := prot } }).measChange 2
  (if d1.runSvn = d.runSvn then d1 else d1.measChange 3).secRegs

/-! ### State records (R416, R417, R426) -/

/-- R416: a record in the retained area: header, payload, zeros to the next 64-byte boundary. -/
def StateRec.bytes (r : StateRec) : List Byte :=
  let n := r.payload.length
  padTo (roundUp (16 + n) 64) (leBytes 2 r.body.typ ++ leBytes 2 r.format ++ leBytes 2 (b2n (recCritical r.body.typ)) ++ leBytes 2 0 ++ leBytes 4 n ++
    leBytes 4 r.crc ++ r.payload)

/-- R417: a record passes its CRC. -/
def StateRec.sound (r : StateRec) : Bool := decide (r.crc = crc32c r.payload)

/-- R416: what the components export, by rising TYPE. -/
def Dev.recBodies (d : Dev) : List RecBody :=
  let c := d.dict
  let sel := c.sess.foldl (fun (t : Tab (Tab Nat)) kv => Tab.set [] t kv.1 kv.2.sel) []
  [ .dictionary c.vals c.unstored sel, .sessions c.sess c.held, .power d.pwr.bucket d.pwr.quiet d.pwr.railHeld d.pwr.tclkReq,
    .thermal d.pwr.hbmCeil d.pwr.msCeil, .servo d.tmu.servo, .flowShadow (vsucc d.vcur),
    .installs d.store.installs d.store.nextTicket (d.store.bundles.map (fun b => b.inst)),
    .partitions ((upTo 32).map d.ent) d.ptn.plan d.ptn.tshare, .telemetry d.tel.seq ((upTo 4).map (fun p => (Tab.get {} d.tel.path p).drop)),
    .slowPath d.flow.takes, .builder ]

/-- R416, R426: every component writes its record to the retained area. -/
def Dev.exportRecs (d : Dev) : Dev :=
  let fmt := match d.fw.image with | some i => i.recMax | none => 0
  let rec_ := fun (b : RecBody) =>
    let p := Config.recPayload d.free b.typ
    ({ body := b, format := fmt, payload := p, crc := crc32c p } : StateRec)
  { d with free := d.free + 1, fw := { d.fw with retained := d.recBodies.map rec_ } }

/-- R424: component c starts afresh: what its records would carry takes its first values. Committed values, the map and the model store
stand. -/
def Dev.compFresh (d : Dev) (c : Nat) : Dev :=
  if c = 3 then { d with pwr := { d.pwr with bucket := 50 * d.cap, quiet := 10000, railHeld := [], tclkReq := [] } }
  else if c = 4 then { d with pwr := { d.pwr with hbmCeil := 16, msCeil := 16 } }
  else if c = 5 then { d with tmu := { d.tmu with servo := {} } }
  else if c = 7 then { d with store := { d.store with installs := d.store.installs.filter (fun i => decide (i.state = 2)) } }
  else if c = 9 then
    { d with tel := { d.tel with seq := 0, path := Tab.mapAll ({} : TelPath) d.tel.path (fun _ x => { x with drop := [] }) } }
  else d

/-- The sessions a record gives back: no staged token (R426). -/
def retainedSess (t : Tab Sess) : Tab Sess := Tab.mapAll ({} : Sess) t (fun _ s => { s with token := none })

/-- R425: the restarted image imports a record. What is written after every commit, the values, the versions, the catalogue and the map, is
that of now (R426); tickets taken since the record are lost. -/
def Dev.importRec (d : Dev) (b : RecBody) : Dev :=
  match b with
  | .dictionary _ _ sel => { d with dict := { d.dict with sess := sel.foldl (fun (t : Tab Sess) kv => Tab.upd {} t kv.1 (fun s => { s with sel := kv.2 })) d.dict.sess } }
  | .sessions sess _ => { d with dict := { d.dict with sess := retainedSess sess } }
  | .power bucket quiet rails asked => { d with pwr := { d.pwr with bucket := bucket, quiet := quiet, railHeld := rails, tclkReq := asked } }
  | .thermal hbmCeil msCeil => { d with pwr := { d.pwr with hbmCeil := hbmCeil, msCeil := msCeil } }
  | .servo s => { d with tmu := { d.tmu with servo := s } }
  | .flowShadow _ => d
  | .installs queue next _ =>
    { d with store := { d.store with nextTicket := next, installs := queue.map (fun i => (d.store.installs.find? (fun j => decide (j.ticket = i.ticket))).getD i) } }
  | .partitions _ _ _ => d
  | .telemetry seq drops =>
    { d with tel := { d.tel with seq := seq, path := (upTo 4).foldl (fun (t : Tab TelPath) p => Tab.upd {} t p (fun x => { x with drop := drops.getD p [] })) d.tel.path } }
  | .slowPath _ => d
  | .builder => d

/-- R425, R426: the sessions record before the values record, whose SELECT values stand in the sessions. -/
def Dev.importRecs (d : Dev) : List StateRec → Dev
  | [] => d
  | r :: rs => (if r.sound then (d.importRecs rs).importRec r.body else (d.importRecs rs).compFresh r.body.typ)

/-- The answer to the FW_UPDATE that began the update. -/
def Dev.updateAnswer (d : Dev) (code : Nat) : Dev :=
  match d.msg none 0x11 with
  | some c => d.answer none c 0 (leBytes 4 code)
  | none => d

/-- The pause ends: HELD clears and held requests are served in their order (R395, R414). -/
def Dev.pauseEnd (d : Dev) (code : Nat) : Dev :=
  let d1 := { d with fw := { d.fw with phase := .none, other := none, discarded := none }, tel := { d.tel with fwHeld := false } }
  let d2 := (d1.setHeld false).updateAnswer code
  ({ d2 with dict := { d2.dict with held := [] } }).heldAll d2.dict.held

/-- R414 phase 5. -/
def Dev.resumeUpdate (d : Dev) : Dev :=
  if d.fw.phase = .switch then
    let d1 := match d.fw.discarded with | some t => d.report 0x12 5 0 0xFF (t % 65536) | none => d
    (d1.pauseEnd 0).fwNotice 0x11 0 ((d.now - d.fw.pauseAt) / 10000)
  else d

/-- R418: the new image is abandoned and the old one restarted; `typ` is the record that failed, or 0. -/
def Dev.abandonUpdate (d : Dev) (typ : Nat) : Dev :=
  if d.fw.phase = .switch then
    let d1 := (d.imageSwap d.fw.other d.fw.image).report 0x12 6 2 0xFF (typ % 65536)
    (d1.pauseEnd 9).fwNotice 0x12 0 typ
  else d

/-- R414 phases 3 and 4, R416 to R418: the records are exported, the new image starts and imports them. `discard` is the TYPE of a record it
cannot import: a component whose record is not critical starts afresh; a critical one ends the update. -/
def Dev.switchImage (d : Dev) (discard : Option Nat) : Dev :=
  if d.fw.phase = .quiesce then
    let d1 := d.exportRecs.imageSwap d.fw.other d.fw.image
    let d2 := { d1 with fw := { d1.fw with phase := .switch, discarded := discard } }
    match discard with
    | some t => if recCritical t then d2.abandonUpdate t else d2.compFresh t
    | none => d2
  else d

/-! ### Watchdogs and firmware faults (R409, R424 to R426) -/

/-- The transfers of every session are discarded (R424). -/
def Dev.dropTransfers (d : Dev) : Dev :=
  let d1 := { d with dict := { d.dict with sess := Tab.mapAll ({} : Sess) d.dict.sess (fun _ s => { s.ended with token := none }), held := [] } }
  { d1 with host := { d1.host with mbx := Tab.mapAll ({} : Mbx) d1.host.mbx (fun _ m => { m with asm := none }) } }

/-- 60 s. -/
def minute : Nat := 600000000000

/-- R424: component c is restarted in its own domain; the third restart in 60 s makes a management reset due (R425). -/
def Dev.compRestart (d : Dev) (c : Nat) : Dev :=
  let times := ((Tab.get [] d.fw.restarts c).filter (fun t => decide (d.now < t + minute))) ++ [d.now]
  let d1 := { d with fw := { d.fw with restarts := Tab.set [] d.fw.restarts c times, mgmtDue := d.fw.mgmtDue || decide (3 ≤ times.length) } }
  let d2 := (d1.lckForceOwner (32 + c) 3).report 0x12 1 1 0xFF (256 * c)
  ((if c = 1 ∨ c = 2 then d2.dropTransfers else d2).compFresh c).fwNotice 0x13 c times.length

/-- May a component run: an image runs. -/
def Dev.fwRuns (d : Dev) : Bool := d.fw.image.isSome && !d.romServes

/-- R415, R424: a component misses its watchdog. The watchdogs are suspended in phases 2 to 4 of an update; the supervisor's own expiry is
the management reset. -/
def Dev.watchdog (d : Dev) (c : Nat) : Dev :=
  if d.fwRuns = false ∨ d.helds then d else if c = 0 then { d with fw := { d.fw with mgmtDue := true } } else d.compRestart c

/-- R409: a write outside a component's regions is not performed; it is logged and the component restarted. -/
def Dev.protFault (d : Dev) (c addr : Nat) : Dev :=
  if d.fwRuns then (d.report 0x12 2 2 0xFF (256 * c + 65536 * (addr % 65536))).compRestart c else d

/-- R407, R409: component c stores at an address of the complex's SRAM: outside its regions it takes the protection fault. -/
def Dev.protWrite (d : Dev) (c addr : Nat) : Dev := if d.fw.prot.mayStore c addr then d else d.protFault c addr

/-- R425: the thirteen cores are reset; the ROM checks the image in the active slot again and restarts it, which imports the retained
records, or waits for FW_LOAD. -/
def Dev.managementReset (d : Dev) : Dev :=
  let n := d.fw.mgmtResets + 1
  let det := if d.fw.mgmtDue && (Tab.get [] d.fw.restarts 0).isEmpty && d.fw.restarts.any (fun kv => decide (3 ≤ kv.2.length)) then 0 else 1
  let d1 := (d.report 0x12 3 2 0xFF det).fwNotice 0x14 0 n
  let good := match d.fw.image with
    | some i => (match d.imageCheck i.bytes i.bytes.length with | .ok _ => true | .error _ => false)
    | none => false
  let prot := match d.fw.image with | some i => protOf i | none => {}
  let f := { d1.fw with phase := .none, other := none, discarded := none, mgmtResets := n, mgmtDue := false, restarts := [], prot := prot }
  let d2 := ({ d1 with fw := f, dict := { d1.dict with sess := [], held := [] }, tel := { d1.tel with fwHeld := false } }).mbxDrop
  if good then (if d.fwReady then (d2.importRecs d.fw.retained).wrN (glbBase + 4) 2 else d2.wrN (glbBase + 4) 0)
  else (({ d2 with fw := { d2.fw with image := none, prot := {} } }).wrN (glbBase + 4) 1).secRegs

/-- R426: every component writes its records to the retained area. -/
def Dev.retainedWrite (d : Dev) : Dev := if d.fwRuns then d.exportRecs else d

/-! ### The map built at boot (R322 to R325) -/

/-- The spares reserved: 0x4013, or the strap (R325). -/
def Dev.spareSetting (d : Dev) : Nat := if d.dvalN 0x4013 0 0 = 0xFF then [0, 1, 2, 4].getD (d.strap 15 14) 0 else d.dvalN 0x4013 0 0

/-- Take the cores of a mask out of an entry. -/
def MapEnt.without (e : MapEnt) (cs : List Nat) : MapEnt := { e with cores := cs.foldl clrBit e.cores }

/-- R325: each failed core of an entry is replaced by the next spare, in ascending core order. -/
def replaceBad : List Nat → List Nat → List MapEnt → List Nat × List MapEnt
  | [], ss, es => (ss, es)
  | c :: cs, ss, es =>
    if es.any (fun e => e.valid && bit e.cores c) then
      (match ss with
       | s :: rest => replaceBad cs rest (es.map (fun e => if e.valid && bit e.cores c then { e with cores := setBit (clrBit e.cores c) s } else e))
       | [] => replaceBad cs [] (es.map (fun e => { e with cores := clrBit e.cores c })))
    else replaceBad cs ss es

/-- The entries before spares and failed cores: generated, or those of 0x4011 (R323). -/
def Dev.mapBase (d : Dev) : List MapEnt :=
  let mode := d.strap 13 12
  if mode = 3 then (upTo 32).map (fun p => entOf (d.dval 0x4011 (p + 1) 0)) else (upTo 32).map (fun p => genEntry mode (d.dvalN 0x4010 0 0) (2 ^ 32 - 1) p)

/-- The granules that no extent holds, on trained stacks (R324). -/
def Dev.granulesFree (d : Dev) (es : List MapEnt) : List Nat :=
  let used := es.flatMap (fun e => e.extents.flatMap (fun x => extent x.1 x.2.1 x.2.2))
  (upTo 1536).filter (fun g => decide (Tab.get 0 d.ptn.hbm (g / 192) ≤ 1) && !used.contains g)

/-- R431, R138: the granules of each share under the key of its owner's units. -/
def Dev.granuleKeys (d : Dev) (es : List MapEnt) : Tab (Option XtsKey) :=
  let held := ((upTo 32).zip es).flatMap (fun a => (a.2.extents.flatMap (fun x => extent x.1 x.2.1 x.2.2)).map (fun g => (g, d.unitKey a.1)))
  (upTo 1536).filterMap (fun g => match held.find? (fun h => decide (h.1 = g)) with
    | some (_, some k) => some (g, some k)
    | _ => none)

/-- Assign the entity ranges of the map (R236). -/
def Dev.assignAll (d : Dev) : List Nat → Dev
  | [] => d
  | p :: ps => (let e := d.ent p; if e.valid && decide (0 < e.ecount) then d.assignRange p e.efirst e.ecount else d).assignAll ps

/-- R322 to R325: firmware builds the map: spares come out of their partitions, failed cores are replaced, every share is scrubbed, the
plans are made. A refused 0x4011 leaves every partition out of service. `bad` are the cores that failed the self-test, ascending. -/
def Dev.buildMap (d : Dev) (bad : List Nat) : Dev :=
  let mode := d.strap 13 12
  let base := d.mapBase
  let flt := if mode = 3 then mapFault base else none
  let good := if flt.isSome then (upTo 32).map (fun _ => ({} : MapEnt)) else base
  let sp := spareCores d.spareSetting
  let r := replaceBad bad ((upTo 32).filter (fun c => sp.contains c && !bad.contains c)) (good.map (fun e => e.without sp))
  let ents := r.2
  let mk : Nat → Ptn := fun p =>
    let e := ents.getD p {}
    { ent := e, mirrored := e.valid && e.prot && decide (0 < e.len), order := if e.valid then maskBits 32 e.cores else [] }
  let outMask := bad.foldl setBit 0
  let all := (upTo 32).foldl (fun (t : Tab Ptn) p => Tab.set {} t p (mk p)) []
  let pt := { d.ptn with ptn := all, spares := r.1.foldl setBit 0, out := outMask, mode := mode, freeGr := d.granulesFree ents, todo := [], cur := none }
  let k := ({ d with ptn := pt }).loadKeys (upTo 32)
  let d1 := { k with mem := { k.mem with hbm := [], lkey := [], gkey := k.granuleKeys ents } }
  let d2 := match flt with | some sb => d1.report 0x0F 9 2 0xFF sb | none => d1
  let d3 := d2.wrN (ptnReg 0) (putBits (putBits (d2.rdN (ptnReg 0)) 12 10 sp.length) 9 8 mode)
  (d3.assignAll (upTo 32)).planAll.ptnRegs.remapHolds

/-! ### Bundles brought back (R432, R472) -/

/-- Catalogue entries of old key generations go; what no longer matches the map stays and is not restored. -/
def Dev.bundleKeep (d : Dev) : Dev :=
  let live : List Bundle := d.store.bundles.filter (fun b => decide (b.lgen = d.sec.lgen) && decide (b.kgen = Tab.get 0 d.sec.kgen b.gang) && !b.old)
  let fits : Bundle → Bool := fun b => (d.ent b.ptn).valid && decide ((d.ent b.ptn).gang = b.gang)
  let d1 := { d with store := { d.store with bundles := live.map (fun (b : Bundle) => { b with idle := !fits b }), installs := [], stg := [], stgHeld := [], scrubs := [] } }
  (live.filter (fun b => !fits b)).foldl (fun (x : Dev) b => x.report 0x10 5 0 0xFF b.ptn) d1

/-- The flow-plane objects of the restored bundles, staged for version n; a bundle whose ensembles find no room brings none back. -/
def Dev.bundleStage (d : Dev) (n : Nat) : List Bundle → Dev
  | [] => d
  | b :: bs =>
    let d1 := (d.stageSections b.ptn n b.sects).getD d
    let am := (d1.amStaged n).filter (fun i => !(d.amStaged n).contains i)
    { d1 with store := { d1.store with bundles := d1.store.bundles.map (fun (x : Bundle) => if x.inst = b.inst then { x with am := am } else x) } }.bundleStage n bs

/-- R472: rule sets, ensembles and templates of all restored bundles enter service under one commit. -/
def Dev.bundleRestore (d : Dev) : Dev :=
  let d0 := d.bundleKeep
  let bs := (d0.store.bundles.filter (fun b => !b.idle)).map d0.plainOf
  let n := vsucc d0.vcur
  let objs := bs.any (fun b => b.sects.any (fun s => decide (s.typ = 0x20 ∨ s.typ = 0x21 ∨ s.typ = 0x22)))
  (if objs then ((d0.bundleStage n bs).commit n).1 else d0).catalogue

/-! ### Saved state (R385, R468) -/

/-- R465: a part of a save: its header and its bytes. -/
def savePart (id : Nat) (bs : List Byte) : List Byte :=
  leBytes 2 id ++ leBytes 2 0 ++ leBytes 4 bs.length ++ leBytes 4 (crc32c bs) ++ leBytes 4 0 ++ bs

/-- R465: slots of the error log as the bytes of a part. -/
def logBytes (lo n : Nat) (es : List (Nat × ErlEntry)) : List Byte :=
  (upTo n).flatMap (fun i => match Tab.find es (lo + i) with | some e => e.bytes | none => leBytes 32 0)

/-- R465: the bytes of part `id`: the time, the map, the flow counters, the two regions of the error log, the unstored values. -/
def SaveImg.part (s : SaveImg) (id : Nat) : List Byte :=
  if id = 1 then s.time else if id = 2 then s.map else if id = 3 then s.flow
  else if id = 4 then logBytes 3840 256 s.fatal else if id = 5 then logBytes 0 3840 s.general
  else s.dict.flatMap (recBytes s.iv)

/-- R465: the save image as MRAM holds it from offset 0x1_0000: the header and the parts written whole. -/
def SaveImg.image (s : SaveImg) : List Byte :=
  padTo 64 ([0x45, 0x43, 0x53, 0x56, 1] ++ leBytes 1 s.cause ++ leBytes 1 (b2n s.consumed) ++ leBytes 1 s.skips ++ leBytes 4 s.seq) ++
  (s.parts.filter (fun p => decide (s.bad ≠ some p))).flatMap (fun p => savePart p (s.part p))

/-- A telemetry log record of saved part `id` (R478 rank 3 type 2): pieces of at most 480 bytes. -/
def Dev.savedPart (d : Dev) (id : Nat) (bs : List Byte) : Dev :=
  let whole := savePart id bs
  (upTo ((whole.length + 479) / 480)).foldl (fun (x : Dev) i => x.fwTele 3 2 0x10 0xFF 0 (sub whole (480 * i) 480)) d

/-- Log entries put back with SAVED set, in the slots they came from (R345). -/
def Dev.erlBack (d : Dev) (es : List (Nat × ErlEntry)) : Dev :=
  { d with erl := { d.erl with slots := es.foldl (fun (t : Tab ErlEntry) kv => Tab.put t kv.1 { kv.2 with saved := true }) d.erl.slots } }

/-- The parts a start accepts: in order up to the first whose CRC fails (R468). -/
def SaveImg.accepted (s : SaveImg) : List Nat := s.parts.takeWhile (fun p => decide (s.bad ≠ some p))

/-- R468: parts 4 and 5 of a save go back into the error log, which keeps its entries of itself through a warm reset. -/
def Dev.saveLogs (d : Dev) (s : SaveImg) : Dev :=
  let fresh := decide (bits (d.rdN (pwrReg 0x14)) 15 8 = 0)
  let d1 := if s.accepted.contains 4 && fresh then d.erlBack s.fatal else d
  if s.accepted.contains 5 && fresh then d1.erlBack s.general else d1

/-- R468: part 6, the committed values that were not stored. -/
def Dev.saveValues (d : Dev) (s : SaveImg) : Dev :=
  if s.accepted.contains 6 then
    { d with dict := { d.dict with vals := s.dict.foldl (fun (t : Tab (List Byte)) kv => Tab.set [] t kv.1 kv.2) d.dict.vals,
                                    sagApplied := true, sagOvf := s.ovf } }
  else d

/-- R468: parts 1 to 3 are reported. -/
def Dev.reportParts (d : Dev) (s : SaveImg) : Dev :=
  let d1 := if s.accepted.contains 1 then d.savedPart 1 s.time else d
  let d2 := if s.accepted.contains 2 then d1.savedPart 2 s.map else d1
  if s.accepted.contains 3 then d2.savedPart 3 s.flow else d2

/-- R468: a part whose CRC fails is logged. -/
def Dev.saveBad (d : Dev) (s : SaveImg) : Dev :=
  match s.parts.find? (fun p => decide (s.bad = some p)) with
  | some p => d.report 0x10 2 2 0xFF p
  | none => d

/-- R468: a start takes a save that no start has taken. -/
def Dev.saveTake (d : Dev) : Dev :=
  if d.pwr.save.valid && !d.pwr.save.consumed then
    let s := d.pwr.save
    let d1 := ((d.saveLogs s).saveValues s).reportParts s
    let mask := s.accepted.foldl (fun (m : Nat) p => setBit m (p - 1)) 0
    let d2 := ((d1.report 0x10 1 0 0xFF (s.cause + 256 * mask + 65536 * s.skips)).event (pwrReg 0xC) 4).saveBad s
    { d2 with pwr := { d2.pwr with save := { s with consumed := true }, archive := (s :: d2.pwr.archive).take 4 } }
  else d

/-! ### The start sequence (R412) -/

/-- R381, R383: the valid copy with the higher sequence number is loaded. -/
def Dev.dictLoad (d : Dev) : Dev :=
  let c := d.dict
  let pick : Option NorCopy := if !d.pwr.nor then none else if c.norA.valid && (!c.norB.valid || decide (c.norB.seq ≤ c.norA.seq)) then some c.norA else if c.norB.valid then some c.norB else none
  let base : Dict := { norA := c.norA, norB := c.norB, restore := c.restore, lastStore := c.lastStore }
  match pick with
  | some n => { d with dict := { base with vals := n.vals, loadedSeq := n.seq } }
  | none =>
    let d1 := { d with dict := { base with defaults := true } }
    d1.report 0x12 4 2 0xFF d1.storeFlags

/-- R384: the ranges marked take their defaults, and the new image is stored at this start. -/
def Dev.dictRestore (d : Dev) : Dev :=
  if d.dict.restore = [] then d
  else
    let keep : Tab (List Byte) := d.dict.vals.filter (fun kv => !(d.dict.restore.any (fun r => inRange r (keyIndex kv.1))))
    (({ d with dict := { d.dict with vals := keep, restore := [] } }).storeImage 1 true).1

/-- R79: an array that fails is out of service and logged. -/
def Dev.arraysFail (d : Dev) : List (Nat × Nat) → Dev
  | [] => d
  | (c, a) :: r => ((d.wrN (tenReg c 0x28) (clrBit (d.rdN (tenReg c 0x28)) a)).report 2 0x400 2 0xFF (c + 256 * a)).arraysFail r

/-- R79, R122: the self-test finds the arrays in service and logs those that fail: TEN_ARRAYS. -/
def Dev.arrayTest (d : Dev) (bad : List (Nat × Nat)) : Dev :=
  ((upTo 32).foldl (fun (x : Dev) c => x.wrN (tenReg c 0x28) 15) d).arraysFail bad

/-- R273: a quadrant that fails is logged. -/
def Dev.quadsFail (d : Dev) : List Nat → Dev
  | [] => d
  | q :: qs => (d.reportNamed 0x0C 2 0xFF q).quadsFail qs

/-- R412, R472: steps 1 to 6 of the start sequence. -/
def Dev.startSequence (d : Dev) (t : SelfTest) : Dev :=
  if d.fwRuns && !d.fwReady then
    let d1 := d.dictLoad.dictRestore
    let sag := d1.pwr.save.valid && !d1.pwr.save.consumed && d1.pwr.save.accepted.contains 6
    let d2 := d1.saveTake
    let d3 := if sag then (d2.storeImage 1 true).1 else d2
    let bad := (upTo 32).filter (fun c => t.arrays.any (fun a => decide (a.1 = c)))
    let d4 := (d3.arrayTest t.arrays).quadsFail (maskBits 4 t.quads)
    let fl := { d4.flow with qInSvc := 15 - Nat.land 15 t.quads, feat := [], est := [] }
    let d5 := (({ d4 with flow := fl }).wrN (treBase + 8) 256).buildMap bad
    let d6 := ((d5.applyAll d5.applyKeys).bundleRestore).measChange 5
    let d7 := { d6 with pwr := { d6.pwr with bucket := 50 * d6.cap } }
    ((d7.wrN (glbBase + 4) 2).secRegs).canStart
  else d

/-- R472: after FWREADY, the next partition in ascending order gets its sections and enters service. -/
def Dev.partitionRestage (d : Dev) : Dev :=
  match (upTo 32).find? (fun p => (d.ent p).valid && decide ((d.ptnAt p).state = .offline) && !(d.ptnAt p).order.isEmpty) with
  | some p => if d.fwReady && !d.ptn.dieBLost then ((d.restagePtn p).ptnState p .service).ptnRegs else d
  | none => d

end Sys2Proof
end

