-- ==== Sys2Proof/Machine/Security.lean ====
section
/-! DEFINITION. SPDM over the DOE mailbox (R435 to R437; message formats of DSP0274, log 61), the debug unlock (R442), the TAP reset
(R497), and the choice of a new transmit association (R451). -/

namespace Sys2Proof

/-! ### SPDM messages (R435, log 61) -/

/-- A response leaves the DOE mailbox: a message of the connection, or, as a secured message, of a session. -/
def Dev.spdmSay (d : Dev) (bs : List Byte) : Dev := d.emit (.doe bs)

/-- ERROR responses: InvalidRequest 0x01, InvalidSession 0x02, UnexpectedRequest 0x04, DecryptError 0x06, UnsupportedRequest 0x07,
SessionLimitExceeded 0x0A, VersionMismatch 0x41. The transcript keeps no refused request. -/
def Dev.spdmErr (d : Dev) (code extra : Nat) : Dev := d.spdmSay (leBytes 1 0x12 ++ leBytes 1 0x7F ++ leBytes 1 code ++ leBytes 1 extra)

/-- A request and its response enter the transcript of the connection, and the response is sent. -/
def Dev.spdmAnswer (d : Dev) (req resp : List Byte) : Dev := ({ d with sec := { d.sec with trans := d.sec.trans ++ req ++ resp } }).spdmSay resp

/-- The header of a response: version 1.2, code, two parameters. -/
def spdmHdr (code p1 p2 : Nat) : List Byte := leBytes 1 0x12 ++ leBytes 1 code ++ leBytes 1 p1 ++ leBytes 1 p2

/-- 32 or more random bytes from the security engine. -/
def Dev.draw (d : Dev) (n : Nat) : List Byte × Dev := (padTo n (Config.random d.sec.draws), { d with sec := { d.sec with draws := d.sec.draws + 1 } })

/-- The session a secured message names is open; a message of the connection names none. -/
def Dev.sessOk (d : Dev) (sid : Option Nat) : Bool :=
  match sid with
  | none => true
  | some k => d.sec.sess.any (fun x => decide (x.id = k))

/-- The handshake of a session is done. -/
def Dev.sessDone (d : Dev) (sid : Option Nat) : Bool :=
  match sid with
  | none => false
  | some k => d.sec.sess.any (fun x => decide (x.id = k) && x.done)

/-- A request is carried out by `go` when its version is 1.2, its length and its session hold, and the connection has negotiated as far
as `need`; the DOE mailbox is configuration space, so the link must be up (R351). -/
def Dev.spdmGate (d : Dev) (sid : Option Nat) (req : List Byte) (len need : Nat) (go : Dev) : Dev :=
  if d.host.linkUp = false then d
  else if d.sessOk sid = false then d.spdmErr 2 0
  else if subN req 0 1 ≠ 0x12 then d.spdmErr 0x41 0
  else if req.length < len then d.spdmErr 1 0
  else if d.sec.conn < need then d.spdmErr 4 0
  else go

/-- The transcript hash of a signed response, kept for the hybrid half (R435), in the connection or in its session. -/
def Dev.spdmSigned (d : Dev) (sid : Option Nat) (h : List Byte) : Dev :=
  match sid with
  | none => { d with sec := { d.sec with signed := h } }
  | some k => { d with sec := { d.sec with sess := d.sec.sess.map (fun (x : SpdmSess) => if x.id = k then { x with signed := h } else x) } }

/-- A signed response: its body, then the Alias ECDSA signature over its transcript hash. -/
def Dev.spdmSign (d : Dev) (sid : Option Nat) (kind : Nat) (req body : List Byte) : Dev :=
  let h := Config.spdmHash kind (d.sec.trans ++ req ++ body)
  (d.spdmSigned sid h).spdmAnswer req (body ++ padTo 96 (Config.ecdsaSign (p384Scalar d.aliasSeed) h))

/-! ### The certificate chain of slot 0 (R433, R435) -/

/-- The chain as SPDM carries it: length, root hash, certificates. -/
def Dev.slot0 (d : Dev) : List Byte :=
  let c := d.certChain
  let root := c.take (4 + beNat (sub c 2 2))
  leBytes 2 (52 + c.length) ++ leBytes 2 0 ++ padTo 48 (Config.sha384 root) ++ c

/-- The hash of the measurements a request names: all of them, or none (param2 0). -/
def Dev.measSummary (d : Dev) (p : Nat) : List Byte :=
  if p = 0 then [] else padTo 48 (Config.sha384 ((if p = 1 then [1] else (upTo 37).map (· + 1)).flatMap (fun i => d.meas i)))

/-! ### The requests (R435) -/

/-- GET_VERSION begins a connection: nothing is negotiated and every session ends. -/
def Dev.getVersion (d : Dev) (req : List Byte) : Dev :=
  if d.host.linkUp = false then d
  else if subN req 0 1 ≠ 0x10 then d.spdmErr 0x41 0
  else
    let d1 := { d with sec := { d.sec with conn := 1, trans := [], signed := [], sess := [] } }
    d1.spdmAnswer req ([0x10, 0x04, 0, 0, 0, 1] ++ leBytes 2 0x1200)

/-- The capabilities R435 and R436 give the device: certificates, CHALLENGE, signed measurements, encryption and MAC, key exchange,
heartbeat, an alias certificate. -/
def spdmCaps : Nat := 2 + 4 + 0x10 + 0x40 + 0x80 + 0x200 + 0x2000 + 0x40000

def Dev.getCapabilities (d : Dev) (req : List Byte) : Dev :=
  d.spdmGate none req 4 1
    (if d.sec.conn ≠ 1 then d.spdmErr 4 0
     else ({ d with sec := { d.sec with conn := 2 } }).spdmAnswer req (spdmHdr 0x61 0 0 ++ leBytes 4 0 ++ leBytes 4 spdmCaps ++ leBytes 4 4096 ++ leBytes 4 65536))

/-- The algorithm tables of a request: type and offered mask. -/
def algTables (req : List Byte) : List (Nat × Nat) :=
  let o := 32 + 4 * (subN req 28 1 + subN req 29 1)
  (upTo (subN req 2 1)).map (fun i => (subN req (o + 4 * i) 1, subN req (o + 4 * i + 2) 2))

/-- The device's choice of a table: secp384r1, AES-256-GCM, no requester signature, the SPDM key schedule. -/
def algChoice (typ : Nat) : Nat := if typ = 2 then 0x10 else if typ = 3 then 2 else if typ = 5 then 1 else 0

/-- NEGOTIATE_ALGORITHMS: any choice but the device's own is refused (R435). -/
def Dev.negotiate (d : Dev) (req : List Byte) : Dev :=
  d.spdmGate none req 32 1
    (let ts := algTables req
     if d.sec.conn ≠ 2 then d.spdmErr 4 0
     else if !bit (subN req 8 4) 7 || !bit (subN req 12 4) 1 || ts.any (fun t => decide (t.1 = 2 ∨ t.1 = 3 ∨ t.1 = 5) && decide (Nat.land t.2 (algChoice t.1) = 0)) then
       d.spdmErr 7 0xE3
     else
       let out := ts.flatMap (fun t => leBytes 1 t.1 ++ leBytes 1 0x20 ++ leBytes 2 (algChoice t.1))
       ({ d with sec := { d.sec with conn := 3 } }).spdmAnswer req
         (spdmHdr 0x63 ts.length 0 ++ leBytes 2 (36 + out.length) ++ leBytes 2 1 ++ leBytes 4 4 ++ leBytes 4 0x80 ++ leBytes 4 2 ++ leBytes 16 0 ++ out))

/-- GET_DIGESTS: slot 0 holds the chain, slots 1 to 7 are empty (R435). -/
def Dev.getDigests (d : Dev) (sid : Option Nat) (req : List Byte) : Dev :=
  d.spdmGate sid req 4 3 (d.spdmAnswer req (spdmHdr 0x01 0 1 ++ padTo 48 (Config.sha384 d.slot0)))

/-- GET_CERTIFICATE: a portion of the slot 0 chain. -/
def Dev.getCertificate (d : Dev) (sid : Option Nat) (req : List Byte) : Dev :=
  d.spdmGate sid req 8 3
    (let c := d.slot0
     let off := subN req 4 2
     if bits (subN req 2 1) 3 0 ≠ 0 ∨ c.length ≤ off then d.spdmErr 1 0
     else
       let part := sub c off (min (subN req 6 2) (min 4000 (c.length - off)))
       d.spdmAnswer req (spdmHdr 0x02 0 0 ++ leBytes 2 part.length ++ leBytes 2 (c.length - off - part.length) ++ part))

/-- CHALLENGE, signed with the Alias key; never inside a session. -/
def Dev.spdmChallenge (d : Dev) (sid : Option Nat) (req : List Byte) : Dev :=
  d.spdmGate sid req 36 3
    (if sid.isSome then d.spdmErr 4 0
     else if bits (subN req 2 1) 3 0 ≠ 0 then d.spdmErr 1 0
     else
       let r := d.draw 32
       r.2.spdmSign none 1 req (spdmHdr 0x03 0 1 ++ padTo 48 (Config.sha384 d.slot0) ++ r.1 ++ d.measSummary (subN req 3 1) ++ leBytes 2 0))

/-- One DMTF measurement block: a digest, but index 3 raw (R436). -/
def Dev.measBlock (d : Dev) (ix : Nat) : List Byte :=
  let v := d.meas ix
  let typ := if ix = 1 then 0 else if ix = 2 then 1 else if ix = 3 then 0x83 else 3
  leBytes 1 ix ++ leBytes 1 1 ++ leBytes 2 (v.length + 3) ++ leBytes 1 typ ++ leBytes 2 v.length ++ v

/-- GET_MEASUREMENTS: the number of indices, one of them, or all 37, signed if asked (R436). -/
def Dev.getMeasurements (d : Dev) (sid : Option Nat) (req : List Byte) : Dev :=
  let sig := bit (subN req 2 1) 0
  let op := subN req 3 1
  d.spdmGate sid req (if sig then 37 else 4) 3
    (if (37 < op ∧ op ≠ 0xFF) ∨ (sig = true ∧ bits (subN req 36 1) 3 0 ≠ 0) then d.spdmErr 1 0
     else
       let ixs := if op = 0 then [] else if op = 0xFF then (upTo 37).map (· + 1) else [op]
       let blocks := ixs.flatMap d.measBlock
       let r := d.draw 32
       let body := spdmHdr 0x60 (if op = 0 then 37 else 0) 0 ++ leBytes 1 ixs.length ++ leBytes 3 blocks.length ++ blocks ++ r.1 ++ leBytes 2 0
       if sig then r.2.spdmSign sid 2 req body else r.2.spdmAnswer req body)

/-- The lowest responder half of a session ID, 1 to 4, that no session has. -/
def Dev.sidFree (d : Dev) : Nat := ([1, 2, 3, 4].find? (fun k => !d.sec.sess.any (fun x => decide (x.id / 65536 = k)))).getD 1

/-- KEY_EXCHANGE opens a session; a fifth is refused (R435). -/
def Dev.keyExchange (d : Dev) (sid : Option Nat) (req : List Byte) : Dev :=
  d.spdmGate sid req 138 3
    (if sid.isSome then d.spdmErr 4 0
     else if bits (subN req 3 1) 3 0 ≠ 0 then d.spdmErr 1 0
     else if 4 ≤ d.sec.sess.length then d.spdmErr 0x0A 0
     else
       let k := d.sidFree
       let id := subN req 4 2 + 65536 * k
       let hb := d.drawN
       let r := hb.2.draw 32
       let x := r.2.draw 96
       let body := spdmHdr 0x64 (hb.1 % 256) 0 ++ leBytes 2 k ++ leBytes 2 0 ++ r.1 ++ x.1 ++ d.measSummary (subN req 2 1) ++ leBytes 2 0
       let h := Config.spdmHash 3 (d.sec.trans ++ req ++ body)
       let resp := body ++ padTo 96 (Config.ecdsaSign (p384Scalar d.aliasSeed) h) ++ padTo 48 (Config.spdmHash 4 (d.sec.trans ++ req ++ body))
       let d1 := { x.2 with sec := { x.2.sec with sess := x.2.sec.sess ++ [({ id := id, signed := h } : SpdmSess)], signed := h } }
       d1.spdmAnswer req resp)

/-- FINISH completes the handshake of its session when the verify data is right. -/
def Dev.spdmFinish (d : Dev) (sid : Option Nat) (req : List Byte) : Dev :=
  d.spdmGate sid req 52 3
    (match sid with
     | none => d.spdmErr 4 0
     | some k =>
       if d.sessDone sid then d.spdmErr 4 0
       else if Config.spdmFinish k (d.sec.trans ++ req.take 4) (sub req 4 48) = false then d.spdmErr 6 0
       else ({ d with sec := { d.sec with sess := d.sec.sess.map (fun (x : SpdmSess) => if x.id = k then { x with done := true } else x) } }).spdmAnswer req (spdmHdr 0x65 0 0))

/-- HEARTBEAT within a session. -/
def Dev.spdmHeartbeat (d : Dev) (sid : Option Nat) (req : List Byte) : Dev :=
  d.spdmGate sid req 4 3 (if d.sessDone sid then d.spdmSay (spdmHdr 0x68 0 0) else d.spdmErr 4 0)

/-- END_SESSION closes a session. -/
def Dev.endSession (d : Dev) (sid : Option Nat) (req : List Byte) : Dev :=
  d.spdmGate sid req 4 3
    (match sid with
     | none => d.spdmErr 4 0
     | some k =>
       if d.sessDone sid then ({ d with sec := { d.sec with sess := d.sec.sess.filter (fun x => decide (x.id ≠ k)) } }).spdmSay (spdmHdr 0x6C 0 0)
       else d.spdmErr 4 0)

/-- The transcript hash of the last signed response of the connection or session. -/
def Dev.lastSigned (d : Dev) (sid : Option Nat) : List Byte :=
  match sid with
  | none => d.sec.signed
  | some k => ((d.sec.sess.find? (fun x => decide (x.id = k))).map (fun x => x.signed)).getD []

/-- VENDOR_DEFINED_REQUEST of StandardID 0x0003 and VendorID 0x1F7A: the Alias ML-DSA-87 signature over that hash (R435). -/
def Dev.vendorRequest (d : Dev) (sid : Option Nat) (req : List Byte) : Dev :=
  d.spdmGate sid req 9 3
    (if subN req 4 2 ≠ 3 ∨ subN req 6 1 ≠ 2 ∨ subN req 7 2 ≠ 0x1F7A then d.spdmErr 7 0xFE
     else if d.lastSigned sid = [] then d.spdmErr 4 0
     else
       let s := padTo 4627 (Config.mldsaSign (d.aliasSeed.drop 48) (d.lastSigned sid))
       d.spdmAnswer req (spdmHdr 0x7E 0 0 ++ leBytes 2 3 ++ leBytes 1 2 ++ leBytes 2 0x1F7A ++ leBytes 2 s.length ++ s))

/-! ### Debug access (R441, R442, R497) -/

/-- The signer R441 names: in BLANK Synermund's, a fused firmware signer; in PROVISIONED a ROOT signer; else none. -/
def Dev.debugSigner (d : Dev) (hash : List Byte) : Bool :=
  if d.sec.state = 0 then d.liveSlots.any (fun k => decide (Config.signerHash k = hash))
  else decide (d.sec.state = 1) && decide (d.signerKind hash = some true)

/-- The TAP presents a fresh challenge. -/
def Dev.newChallenge (d : Dev) : Dev :=
  let r := d.draw 48
  { r.2 with sec := { r.2.sec with challenge := r.1 } }

/-- R442: a reply to the challenge: a hybrid signature over the challenge and the serial. An accepted one opens debug access. -/
def Dev.debugUnlock (d : Dev) (reply : List Byte) : Dev :=
  let good := d.debugSigner (sub reply 16 48) && decide (reply.length = 4800) && sigVerifies reply (d.sec.challenge ++ leBytes 4 Config.serial)
  let d1 := d.newChallenge
  if good then ((({ d1 with sec := { d1.sec with debug := true } }).event (secBase + 0x10) 5).report 0x11 6 0 0xFF 0).secRegs else d1

/-- R497, R167: the TAP is reset: every lock of owner code 63 is released with BROKEN. -/
def Dev.tapReset (d : Dev) : Dev := d.lckForceOwner 63 5

/-! ### A new transmit association (R191, R451) -/

/-- The committed MSCTL word of port n's record takes a new TXAN. -/
def Dev.txanRecord (d : Dev) (n an : Nat) : Dev :=
  let r := d.dval 0x3001 (n + 1) 0
  let r' := r.take 24 ++ leBytes 1 (putBits (subN r 24 1) 5 4 an) ++ r.drop 25
  { d with dict := { d.dict with vals := Tab.set [] d.dict.vals (dkey 0x3001 (n + 1) 0) r' } }

/-- R451: firmware selects the next installed, unexhausted transmit association after TXAN, modulo 4; with none it raises the alarm. -/
def Dev.pnwarn (d : Dev) (n : Nat) : Dev :=
  let c := d.rdN (prt n 0x30)
  let cur := bits c 5 4
  if d.portExists n = false ∨ wbit (d.rd (prt n 0x0C)) 3 = false then d
  else match ([1, 2, 3].map (fun i => (cur + i) % 4)).find? (fun an => (Tab.get {} d.flow.ms (saKey n an)).fresh) with
    | some an => ((d.wrN (prt n 0x30) (putBits c 5 4 an)).txanRecord n an).alarmSet 6 n false 0 false
    | none => d.alarmSet 6 n true 0 false

end Sys2Proof
end

