-- ==== Sys2Proof/Machine/Power.lean ====
section
/-! DEFINITION. Power-up, the save and the wide resets (chapter 18): VHOLD and PORST_N, the freeze, the save image, sag restart, warm
reset, boot, and the defects of die B that R19 survives. -/

namespace Sys2Proof

/-! ### Board data (R474, R476) -/

/-- R476: the failed check of the board data, 1 to 4, or 0: MAGIC and FMT; CRC; BASE; rails 2 to 5 (log 64). -/
def boardCheck (bs : List Byte) : Nat :=
  let base := sub bs 8 6
  let rail : Nat → Bool := fun r => bit (subN bs (56 + 4 * r + 2) 1) 0 && bit (subN bs (56 + 4 * r + 2) 1) 1
  if sub bs 0 4 ≠ [0x45, 0x43, 0x42, 0x44] ∨ subN bs 4 1 ≠ 1 then 1
  else if subN bs 252 4 ≠ crc32c (padTo 252 bs) then 2
  else if beNat base % 64 ≠ 0 ∨ bit (beNat (base.take 1)) 0 then 3
  else if !(rail 2 && rail 3 && rail 4 && rail 5) then 4
  else 0

/-- R403, R476: idVendor, idProduct and the serial string of the USB descriptors: from the board data, or 0x1F7A, 0x3200 and "0". -/
def Dev.usbIds (d : Dev) : Nat × Nat × List Byte :=
  if d.pwr.boardErr = 0 then (subN d.pwr.board 20 2, subN d.pwr.board 22 2, (sub d.pwr.board 24 32).takeWhile (fun b => decide (b ≠ 0)))
  else (0x1F7A, 0x3200, ascii "0")

/-- Board data that fails: the event and the entry (R476). -/
def Dev.boardBad (d : Dev) : Dev := if d.pwr.boardErr = 0 then d else (d.event (pwrReg 0xC) 5).report 0x10 3 2 0xFF d.pwr.boardErr

/-! ### What the wide resets keep (R469) -/

/-- The fuses, the counters and the lifecycle of the security engine; sessions, debug access and measurement counts go, and the next
BOOTNONCE is drawn (R430). -/
def Sec.kept (s : Sec) : Sec :=
  { lcf := s.lcf, udsGone := s.udsGone, floor := s.floor, revoked := s.revoked, kgen := s.kgen, boots := s.boots + 1, tokenCtr := s.tokenCtr, draws := s.draws }

/-- The model store and its catalogue. -/
def Store.kept (s : Store) : Store := { bundles := s.bundles, nextInst := s.nextInst, seqnos := s.seqnos, written := s.written }

/-- SPI NOR's images and the marks of 0x1011. -/
def Dict.kept (c : Dict) : Dict := { norA := c.norA, norB := c.norB, restore := c.restore }

/-- The Helmet, MRAM and the sag archive; the pins. -/
def Pwr.kept (p : Pwr) : Pwr :=
  { vhold := p.vhold, porst := p.porst, save := p.save, saveSeq := p.saveSeq, archive := p.archive, fLog := p.fLog, perst := p.perst }

/-- R7, R374: the request pages of the mailboxes keep their content through every reset. -/
def keptCold (k : Nat) : Bool := decide (mbxBase ≤ k % 0x10000000) && decide (k % 0x10000000 < mbxBase + 0x1000)

/-- The device with everything volatile lost: what PORST_N, a sag restart and the loss of VHOLD leave. Request pages (R374) and the slots
of the completion rings (R169) keep their content. -/
def Dev.cold (d : Dev) : Dev :=
  { free := d.free, out := d.out, regs := Tab.keep d.regs (fun k _ => keptCold k), cat := { slot := d.cat.slot }, sec := d.sec.kept,
    store := d.store.kept, dict := d.dict.kept, pwr := d.pwr.kept }

/-! ### Boot (R471) -/

/-- Status codes of the stacks: 3 for those a mask names as not trained, else 0 (MEM_HBMSTAT). -/
def stackTab (bad : Nat) : Tab Nat := (maskBits 8 bad).map (fun n => (n, 3))

/-- The status word of eight stacks. -/
def stackWord (t : Tab Nat) : Nat := (upTo 8).foldl (fun (m : Nat) n => m + 16 ^ n * Tab.get 0 t n) 0

/-- Registers that boot loads from fuses and straps (R7, R172, R284, R461, R477): the tensor dies at 400 MHz, the cap, the time sources,
the splits and the speeds that go with them. PORTMODE 11 leaves the splits to 0x3000. -/
def Dev.bootRegs (d : Dev) : Dev :=
  let d1 := (upTo 4).foldl (fun (x : Dev) k => x.wrN (pwrReg (0x60 + 4 * k)) (400 + 2048 * 16 + 65536 * 16)) d
  let d2 := ((d1.wrN (pwrReg 4) d1.strapCap).wrN (pwrReg 0x24) (d1.strapCap * 1000 - 125000)).wrN (pwrReg 0x28) (d1.strapCap * 5000)
  let d3 := (upTo 8).foldl (fun (x : Dev) b => x.wrN (prtBase + 0x10000 * b + 4) (if x.strap 3 2 = 3 then 0 else x.strap 3 2)) d2
  let d4 := (upTo 32).foldl (fun (x : Dev) n => x.wrN (prt n 0) (16 * x.split (n / 4))) d3
  ((d4.wrN (memReg 8) (stackWord d4.ptn.hbm)).wrN (memReg 0xC) (stackWord d4.ptn.ms)).msRefresh.secRegs

/-- PWR_RESET: the cause, the sag restart, the warm resets since PORST_N. -/
def Dev.resetWord (d : Dev) (cause : Nat) (restart : Bool) (warms : Nat) : Dev :=
  d.wrN (pwrReg 0x14) (cause + 16 * b2n restart + 256 * stick 255 warms)

/-- R463, R471, R476, R280: steps 1 to 5 after a rising edge of PORST_N, or after a sag restart: the supervisor ROM serves the mailbox,
FAILSAFE_N stays low. -/
def Dev.boot (d : Dev) (b : BootIn) (restart : Bool) : Dev :=
  let cause := if d.pwr.save.valid && !d.pwr.save.consumed then d.pwr.save.cause else 0
  let c := d.cold
  let board := if b.nor then b.board.take 256 else []
  let p := { c.pwr with vhold := true, porst := true, board := board, boardErr := boardCheck board, nor := b.nor, planes := b.planes % 4, spareLanes := b.spareLanes }
  let c1 := { c with alive := true, pwr := p, ptn := { c.ptn with hbm := stackTab b.hbmBad, ms := stackTab b.msBad }, tmu := { refIn := b.refIn } }
  let c2 := (c1.wrN (pwrReg 0x1C) (b.straps % 2 ^ 20)).bootRegs
  let c3 := ((c2.wrN (tmuBase + 8) c2.strapPrio).tmuRegs).resetWord cause restart 0
  c3.headLoad.newChallenge.boardBad

/-- R455, R463, R491: a rising edge of PORST_N boots the device; below 10.8 V of VHOLD, or while a save runs (R467), it waits. -/
def Dev.porstRise (d : Dev) (b : BootIn) : Dev :=
  if d.pwr.porst then d
  else if d.pwr.vhold = false ∨ d.pwr.saving.isSome then { d with pwr := { d.pwr with porst := true, porstPend := some b } }
  else d.boot b false

/-- R488, R489, R491: VHOLD rises through 6.0 V and 10.8 V: the Helmet starts, FAILSAFE_N low and DARK, and a rising edge of PORST_N that
waited latches the straps now. Without one, PORST_N is low: supplies come up (R455). A device with VHOLD present sees nothing. -/
def Dev.vholdRise (d : Dev) (b : BootIn) : Dev :=
  if d.alive ∨ d.pwr.saving.isSome then d
  else if d.pwr.porstPend.isSome then d.boot b false
  else
    let c := d.cold
    { c with pwr := { c.pwr with vhold := true, porst := false } }

/-! ### The save (R464, R465, R467) -/

/-- Part 3: 0x6020, FLW_COUNT and PTN_STAT, 256 bytes. -/
def Dev.savedFlow (d : Dev) : List Byte :=
  padTo 256 (d.flowCounters.flatMap (leBytes 8) ++ leBytes 4 ((d.planeView (flwBase + 0x14)).getD 0) ++ (upTo 32).flatMap (fun p => leBytes 4 (d.ptnAt p).stat))

/-- Part 1: the timestamp at the freeze, TMU_STAT, TMU_ERRB, TMU_FREQ, TMU_UTCOFF. TMU_ERRB is all ones while the bound is UNKNOWN. -/
def Dev.savedTime (d : Dev) : List Byte :=
  padTo 64 (d.stamp.bytes ++ leBytes 4 (d.rdN (tmuBase + 0xC)) ++ leBytes 4 (if d.tmu.unknown then 0xFFFFFFFF else d.tmu.err) ++
    leBytes 4 (d.rdN (tmuBase + 0x6C)) ++ leBytes 4 (d.rdN (tmuBase + 0x38)))

/-- R385: the unstored values that fit 192 KiB, in commit order, as records of R475. -/
def Dev.unstoredFit (d : Dev) : Nat → List Nat → List (Nat × List Byte)
  | _, [] => []
  | room, k :: ks =>
    let v := Tab.get [] d.dict.vals k
    let n := recSize (k, v)
    if n ≤ room then (k, v) :: d.unstoredFit (room - n) ks else []

/-- The parts a save of a cause writes (R465): the error log is left out of a warm reset's. -/
def saveParts (cause : Nat) : List Nat := if cause = 5 ∨ cause = 6 then [1, 2, 3, 6] else [1, 2, 3, 4, 5, 6]

/-- R465: the save image. A save cut short by VHOLD ends with part `cut`, whose CRC fails. -/
def Dev.saveImage (d : Dev) (cause : Nat) (cut : Option Nat) : SaveImg :=
  let all := saveParts cause
  let parts := match cut with | some p => all.filter (fun x => decide (x ≤ p)) | none => all
  let log := if cause = 5 ∨ cause = 6 then [] else d.erl.slots
  let dict := d.unstoredFit 196608 d.dict.unstored
  { valid := true, cause := cause, consumed := false, skips := d.pwr.skips, seq := d.pwr.saveSeq, parts := parts, bad := if cut.any parts.contains then cut else none,
    time := d.savedTime, map := (upTo 32).flatMap (fun p => (d.ent p).bytes), flow := d.savedFlow, fatal := log.filter (fun kv => decide (3840 ≤ kv.1)),
    general := log.filter (fun kv => decide (kv.1 < 3840)), dict := dict, iv := d.newIv, ovf := decide (dict.length < d.dict.unstored.length) }

/-- An unconsumed save stands in MRAM: it is never overwritten, and a trigger increments its SKIPS (R467). -/
def Dev.saveStands (d : Dev) : Bool := d.pwr.save.valid && !d.pwr.save.consumed

def Dev.saveSkip (d : Dev) : Dev := { d with pwr := { d.pwr with save := { d.pwr.save with skips := stick 255 (d.pwr.save.skips + 1) } } }

/-- A save begins. -/
def Dev.saveBegin (d : Dev) (cause : Nat) : Dev :=
  { d with alive := false, pwr := { d.pwr with saving := some cause, skips := 0, saveSeq := (d.pwr.saveSeq + 1) % 2 ^ 32 } }

/-- R464, R456, R462: a trigger of cause 1 to 4 freezes the device: die F's heartbeat stops, FAILSAFE_N asserts, the save starts. A
trigger while a save runs or stands adds to its SKIPS. Cause 4 is a fall of PORST_N. -/
def Dev.sagTrigger (d : Dev) (cause : Nat) : Dev :=
  if d.pwr.vhold = false ∨ d.pwr.porst = false ∨ d.pwr.porstPend.isSome then d
  else
    let d0 := { d with pwr := { d.pwr with porst := decide (cause ≠ 4), frozen := true } }
    if d.alive then (if d.saveStands then { d0.dieFLoss.saveSkip with alive := false } else d0.dieFLoss.saveBegin cause)
    else if d.pwr.saving.isSome then { d0 with pwr := { d0.pwr with skips := stick 255 (d.pwr.skips + 1) } }
    else if d.saveStands then d0.saveSkip
    else d0

/-! ### Warm reset (R469, R470) -/

/-- Is the register kept through a warm reset: the time unit (R280), the error log (R345), the straps, the training and the fuses, and
PTN_REMAPS, which counts since PORST_N (log 72)? -/
def keptWarm (k : Nat) : Bool :=
  keptCold k ||
  (decide (tmuBase ≤ k) && decide (k < prtBase)) || (decide (erlBase ≤ k) && decide (k < mbxBase)) || decide (k = pwrReg 0x14) || decide (k = pwrReg 0x1C) ||
  decide (k = ptnReg 0x18)

/-- R331, R469: a stack that failed returns with the reset; one with redundancy lost, or not trained, stays as it is. -/
def warmStacks (t : Tab Nat) : Tab Nat := t.filter (fun kv => decide (kv.2 ≠ 2))

/-- R469: the host side of a warm reset: the state of R371 goes, the link and configuration space stay, and so does the snapshot of the time
unit, which this reset does not touch (R280, R297). -/
def HostIf.warm (h : HostIf) : HostIf :=
  { pfHead := h.pfHead, vfHead := h.vfHead, nowLatch := h.nowLatch, msixEn := h.msixEn, bme := h.bme, mse := h.mse, vfEnable := h.vfEnable, numVfs := h.numVfs, linkUp := h.linkUp }

/-- R469, R470: what a warm reset leaves; boot resumes at step 5. Failed dies, stacks and cores return (R331). -/
def Dev.warmReset (d : Dev) (cause : Nat) : Dev :=
  let c := d.cold
  let warms := bits (d.rdN (pwrReg 0x14)) 15 8 + 1
  let p := { c.pwr with board := d.pwr.board, boardErr := d.pwr.boardErr, nor := d.pwr.nor, planes := d.pwr.planes, spareLanes := d.pwr.spareLanes }
  let t := { c.ptn with hbm := warmStacks d.ptn.hbm, ms := warmStacks d.ptn.ms, remaps := d.ptn.remaps }
  let regs := Tab.keep d.regs (fun k _ => keptWarm k)
  let c1 := { c with now := d.now, alive := true, regs := regs, host := d.host.warm, erl := d.erl, tmu := d.tmu, ptn := t, pwr := p }
  let c2 := { c1 with sec := { c1.sec with measCnt := d.sec.measCnt }, fw := { updates := d.fw.updates, mgmtResets := d.fw.mgmtResets } }
  let c3 := ({ c2 with flow := { c2.flow with dieFLost := d.flow.dieFLost } }).bootRegs.resetWord cause false warms
  c3.newChallenge.boardBad.report 0x10 4 0 0xFF cause

/-- R464, R470: a warm reset is requested: FAILSAFE_N low without a loss of die F, and the save first. -/
def Dev.warmRequest (d : Dev) (cause : Nat) : Dev :=
  let d1 := ({ d with flow := { d.flow with released := false } }).failsafeAssert
  if d.saveStands then d1.saveSkip.warmReset cause else d1.saveBegin cause

/-- R470: a PF write of PWR_WARM; any other value is ignored. -/
def Dev.pwrWarm (d : Dev) (v : Nat) : Dev := if v = 0x4D524157 then d.warmRequest 5 else d

/-- R470, R442: through JTAG while debug access is open. -/
def Dev.jtagWarm (d : Dev) : Dev := if d.sec.debug then d.warmRequest 6 else d

/-- R465, R467: the save ends, whole or cut short in part `cut` by VHOLD falling to 6.0 V, with which the Helmet is off until VHOLD rises. A
frozen device stays frozen, or boots when PORST_N rose meanwhile; otherwise the warm reset follows. -/
def Dev.saveDone (d : Dev) (cut : Option Nat) : Dev :=
  match d.pwr.saving with
  | none => d
  | some cause =>
    let d1 := { d with pwr := { d.pwr with save := d.saveImage cause cut, saving := none, skips := 0 }, sec := { d.sec with draws := d.sec.draws + 1 } }
    if cut.isSome then { d1 with pwr := { d1.pwr with vhold := false } }
    else if d.pwr.frozen = false then d1.warmReset cause
    else match d.pwr.porstPend with
      | some b => d1.boot b false
      | none => d1

/-- R467: supplies have been good for 100 ms: the effect of a PORST_N pulse. -/
def Dev.sagRestart (d : Dev) (b : BootIn) : Dev :=
  if d.pwr.vhold && d.pwr.frozen && d.pwr.porst && d.pwr.saving.isNone && !d.alive then d.boot b true else d

/-! ### Other supply and package events -/

/-- R456: PGOOD_Tk falls: the die's heartbeat stops (row 0 of R330). A die already out of service ignores it. -/
def Dev.pgoodFall (d : Dev) (k det : Nat) : Dev := d.dieFail k 0 det false

/-- R19: the repair is a corrected entry, and 0x6010 shows the redundancy lost. With both planes gone die B is lost (R337). -/
def Dev.netDefect (d : Dev) (x : NetDefect) : Dev :=
  match x with
  | .lane => ({ d with pwr := { d.pwr with spareLanes := stick 65535 (d.pwr.spareLanes + 1) } }).reportFree 7 1 0xFF
  | .plane p =>
    if bit d.pwr.planes p.val then d
    else
      let d1 := ({ d with pwr := { d.pwr with planes := setBit d.pwr.planes p.val } }).reportFree 8 1 0xFF
      if d1.pwr.planes = 3 then d1.dieBFail else d1

/-- R194, R195: firmware releases FAILSAFE_N when 0x3003 does not hold it, every configured mode has been applied and the board data is
valid (R476). -/
def Dev.failsafeTry (d : Dev) : Dev :=
  let waits := d.dict.apply.any (fun k => decide (keyIndex k = 0x3001))
  d.failsafeRelease (decide (d.dvalN 0x3003 1 0 = 1) || decide (d.pwr.boardErr ≠ 0) || waits)

end Sys2Proof
end

