-- ==== Sys2Proof/Machine/State.lean ====
section
/-! DEFINITION. The whole state of the model: the commands that wait and the device. -/

namespace Sys2Proof.Machine

open Sys2Proof

/-- Why a step stops with a fault. The spec gives every command an effect in every state (a device that is refused, busy or without
supply answers or stays as it is), so there is no reason: no step faults, which is safe, for nothing is lost by it. -/
inductive Fault
  deriving DecidableEq, Repr

/-- Why a command has no meaning. -/
inductive Refusal
  /-- The command's meaning is not written yet; raised by an arm of exec only. Safe: a run stops at it. No arm raises it. -/
  | notModelled (mnemonic : String)
  deriving DecidableEq, Repr

/-- The queue of waiting commands, first in first out, and the device. -/
structure State where
  /-- the commands that wait, the next one first -/
  pending : List Instr := []
  dev : Dev := {}
  deriving DecidableEq, Repr

/-- The device before its supplies rise: nothing has arrived, PORST_N is low, every register reads its reset value (chapter 18). It
comes up with VHOLD_RISE and PORST_RISE (log 4). -/
def State.reset : State := {}

end Sys2Proof.Machine
end

