-- ==== Sys2Proof/Machine/Exec.lean ====
section
/-! DEFINITION. What every meaning shares: the device that is alive or not, and who a command may come from. -/

namespace Sys2Proof

/-! ### Where a command comes from -/

/-- An access of requester `who`: nothing happens unless it reaches the device (R350, R356, R442). -/
def Dev.hostDo (d : Dev) (who : Req) (f : Dev → Dev) : Dev := if d.reqOpen who then f d else d

/-- An access of a PCIe function. -/
def Dev.fnDo (d : Dev) (fn : Option Nat) (f : Dev → Dev) : Dev := if d.fnOpen fn then f d else d

/-- An access to a block register of PF BAR0's map: a VF has no way to it (R352). -/
def Dev.blockDo (d : Dev) (who : Req) (f : Dev → Dev) : Dev :=
  match who with
  | .vf _ => d
  | _ => d.hostDo who f

/-- An act of firmware, once it serves and outside the pause of a live update (R412, R414). -/
def Dev.fwDo (d : Dev) (f : Dev → Dev) : Dev := if d.fwReady && !d.helds then f d else d

/-- R408, R409: a write by requester `who` of the register at `key`. The complex's bus checks a firmware component's write against the
permission table; `field` says that the write keeps to the fields the table names (TEN_CTRL.LOCK). One it does not permit is not performed
and faults. -/
def Dev.writeDo (d : Dev) (who : Req) (key : Nat) (field : Bool) (f : Dev → Dev) : Dev :=
  match who with
  | .fw c => if d.fwRuns && !(field && d.fwMayWrite c key) then d.protFault c key else d.hostDo who f
  | _ => d.hostDo who f

/-- Does the offset lie in a core's TEN_CTRL, whose LOCK alone the permission table may name (R408)? -/
def isTenCtrl (off : Nat) : Bool := decide (tenBase ≤ off) && decide (off < memBase) && decide (off % 0x20000 / 4 = 1)

/-- A write of a block register of PF BAR0's map, which a VF has no way to (R352). -/
def Dev.blockWriteDo (d : Dev) (who : Req) (key : Nat) (f : Dev → Dev) : Dev :=
  match who with
  | .vf _ => d
  | _ => d.writeDo who key true f

/-- A request over the PCIe link to configuration space or the DOE mailbox (R350, R351). -/
def Dev.linkDo (d : Dev) (f : Dev → Dev) : Dev := if d.host.linkUp then f d else d

/-- A request to VF n, which exists while VF Enable is 1 and n < NumVFs (R350). -/
def Dev.vfDo (d : Dev) (n : Nat) (f : Dev → Dev) : Dev := if d.host.linkUp && d.host.vfEnable && decide (n < d.host.numVfs) then f d else d

/-! ### When no command waits -/

/-- No command waits: one TUCLK of 4 ns passes, and the telemetry paths that send of themselves do (log 1). The clocks run while the
device is alive or saves for a warm reset, through which the time unit keeps counting (R280, R470). -/
def Dev.idle (d : Dev) : Dev :=
  if d.alive then d.tick.teleSend else if d.pwr.saving.isSome && !d.pwr.frozen then d.tick else d

end Sys2Proof

namespace Sys2Proof.Machine

open Sys2Proof

/-- A command of a device that runs: with its supplies down, in a freeze or a save, the device does nothing (R464, R465, log 5). -/
def live (s : State) (f : Dev → Dev) : Host.Outcome State Fault Refusal := .next { s with dev := if s.dev.alive then f s.dev else s.dev }

/-- A command of the time unit's hardware: it runs as well while a warm reset's save does, which the unit goes through untouched (R280,
R464). -/
def timeLive (s : State) (f : Dev → Dev) : Host.Outcome State Fault Refusal :=
  .next { s with dev := if s.dev.alive || (s.dev.pwr.saving.isSome && !s.dev.pwr.frozen) then f s.dev else s.dev }

/-- A command that the supplies and the Helmet bring, whatever the device does. -/
def always (s : State) (f : Dev → Dev) : Host.Outcome State Fault Refusal := .next { s with dev := f s.dev }

end Sys2Proof.Machine
end

