-- ==== Sys2Proof/Machine/ExecCore.lean ====
section
/-! DEFINITION. The meanings of the commands of the tensor cores (chapters 3 and 4), one for each. -/

namespace Sys2Proof.Machine

open Sys2Proof

/-- PASS, R100: The sequencer issues a PASS that runs one pass on its named arrays. -/
def execPass (c : Fin 32) (ecc : Ecc) (s : State) : Host.Outcome State Fault Refusal :=
  live s (fun d => d.doPass c ecc)

/-- WALK, R102: The sequencer loads a walk context and clears its counters. -/
def execWalk (c : Fin 32) (ecc : Ecc) (s : State) : Host.Outcome State Fault Refusal :=
  live s (fun d => d.doWalk c ecc)

/-- LINK, R103: The sequencer opens a link context and starts zeroing its transfer and writing its header. -/
def execLink (c : Fin 32) (ecc : Ecc) (s : State) : Host.Outcome State Fault Refusal :=
  live s (fun d => d.doLink c ecc)

/-- MOVE, R104: The move engine copies, encodes or decodes data between core stores and the HBM share. -/
def execMove (c : Fin 32) (ecc : Ecc) (s : State) : Host.Outcome State Fault Refusal :=
  live s (fun d => d.doMove c ecc)

/-- WAITQ, R106: The sequencer pops one entry from a priority queue, waiting if it is empty. -/
def execWaitq (c : Fin 32) (ecc : Ecc) (s : State) : Host.Outcome State Fault Refusal :=
  live s (fun d => d.doWaitq c ecc)

/-- SIGNAL, R107: After every earlier descriptor completes, the sequencer pushes to a queue and posts a Catcher record. -/
def execSignal (c : Fin 32) (ecc : Ecc) (s : State) : Host.Outcome State Fault Refusal :=
  live s (fun d => d.doSignal c ecc)

/-- LOCK, R108: The sequencer acquires or releases a hardware lock under its partition's owner code. -/
def execLock (c : Fin 32) (ecc : Ecc) (s : State) : Host.Outcome State Fault Refusal :=
  live s (fun d => d.doLock c ecc)

/-- JUMP, R109: The sequencer loops back by TARGET until the loop counter reaches COUNT. -/
def execJump (c : Fin 32) (ecc : Ecc) (s : State) : Host.Outcome State Fault Refusal :=
  live s (fun d => d.doJump c ecc)

/-- NOP, R109: A descriptor with no effect, a fence with BARRIER set. -/
def execNop (c : Fin 32) (ecc : Ecc) (s : State) : Host.Outcome State Fault Refusal :=
  live s (fun d => d.doNop c ecc)

/-- END, R109: After every earlier descriptor completes, the sequencer stops with STATE IDLE and sets END. -/
def execEndProgram (c : Fin 32) (ecc : Ecc) (s : State) : Host.Outcome State Fault Refusal :=
  live s (fun d => d.doEnd c ecc)

/-- SWAP, R70: On a vector boundary once the pending tile is complete, the whole new tile becomes active in one TCLK edge. -/
def execSwap (c : Fin 32) (s : State) (ecc : Ecc := .none) : Host.Outcome State Fault Refusal :=
  live s (fun d => d.tileChange c false ecc)

/-- FRONT, R73: In Toizor ripple mode a weight change sweeps across columns one per TCLK. -/
def execFront (c : Fin 32) (s : State) (ecc : Ecc := .none) : Host.Outcome State Fault Refusal :=
  live s (fun d => d.tileChange c true ecc)

/-- BANK_EXCHANGE, R68: After the last accumulator update of a pass the working and emitting banks exchange and the drain begins. -/
def execBankExchange (c : Fin 32) (s : State) : Host.Outcome State Fault Refusal :=
  live s (fun d => d.bankExchange c)

/-- PASS_COMMIT, R111: The last drain write of a pass is accepted; the pass completes and its record, SEQ and counts follow. -/
def execPassCommit (c : Fin 32) (s : State) : Host.Outcome State Fault Refusal :=
  live s (fun d => d.passCommit c)

/-- EMIT_DRAIN_ERROR, R114: An emit-path error repeats the array's drain; a second error faults the core. -/
def execEmitDrainError (c : Fin 32) (arr : Fin 4) (s : State) : Host.Outcome State Fault Refusal :=
  live s (fun d => d.emitError c arr)

/-- MOVE_COMPLETE, R97: A MOVE's last write is accepted at its destination and the MOVE completes. -/
def execMoveComplete (c : Fin 32) (s : State) : Host.Outcome State Fault Refusal :=
  live s (fun d => d.moveComplete c)

/-- LINK_COMPLETE, R103: A LINK's zeroing and header write are accepted and waiting descriptors naming the context proceed. -/
def execLinkComplete (c : Fin 32) (k : Fin 4) (s : State) : Host.Outcome State Fault Refusal :=
  live s (fun d => d.linkComplete c k)

/-- WAITQ_TIMEOUT, R106: A WAITQ reaches its timeout and writes only the status with TIMEOUT set. -/
def execWaitqTimeout (c : Fin 32) (s : State) : Host.Outcome State Fault Refusal :=
  live s (fun d => d.waitqTimeout c)

/-- LOCK_RETRY, R108: Every 64 NCLK an ungranted LOCK acquire reads the lock again. -/
def execLockRetry (c : Fin 32) (s : State) : Host.Outcome State Fault Refusal :=
  live s (fun d => d.lockRetry c)

/-- LOCK_TIMEOUT, R108: A LOCK acquire's last permitted read is not granted and it ends with TIMEOUT. -/
def execLockTimeout (c : Fin 32) (s : State) : Host.Outcome State Fault Refusal :=
  live s (fun d => d.lockTimeout c)

/-- ARRAY_FAULT, R83: A residue, parity or ECC error abandons the array's pass for a re-run, or faults the core in a re-run. -/
def execArrayFault (c : Fin 32) (arr : Fin 4) (col : Fin 128) (s : State) (ecc : Bool := false) : Host.Outcome State Fault Refusal :=
  live s (fun d => d.arrayFaultBy c arr col ecc)

/-- TCLK_STEP, R85: A tensor die's clock generator applies a throttle step of k within 100 ns of the request. -/
def execTclkStep (k : Fin 4) (s : State) : Host.Outcome State Fault Refusal :=
  live s (fun d => d.tclkStep k)

/-- TEN_CTRL_RUN, R122: A write of TEN_CTRL.RUN starts the tile program at TEN_PC from IDLE or ERROR. For a requester whose accesses
reach the device. -/
def execTenCtrlRun (who : Req) (c : Fin 32) (s : State) : Host.Outcome State Fault Refusal :=
  live s (fun d => d.writeDo who (tenBase + 0x20000 * c + 4) false (fun d => d.tenCtrl who c 1))

/-- TEN_CTRL_PREEMPT, R115: A write of TEN_CTRL.PREEMPT requests pre-emption of the core. For a requester whose accesses reach the
device. -/
def execTenCtrlPreempt (who : Req) (c : Fin 32) (s : State) : Host.Outcome State Fault Refusal :=
  live s (fun d => d.writeDo who (tenBase + 0x20000 * c + 4) false (fun d => d.tenCtrl who c 2))

/-- PREEMPT_SAVED, R115: The arrays freeze, drains commit and the save record is written, and the core reaches SAVED. -/
def execPreemptSaved (c : Fin 32) (s : State) : Host.Outcome State Fault Refusal :=
  live s (fun d => d.preemptSaved c)

/-- TEN_CTRL_RESUME, R119: A write of TEN_CTRL.RESUME restores the save record onto the core and continues. For a requester whose
accesses reach the device. -/
def execTenCtrlResume (who : Req) (c : Fin 32) (s : State) : Host.Outcome State Fault Refusal :=
  live s (fun d => d.writeDo who (tenBase + 0x20000 * c + 4) false (fun d => d.tenCtrl who c 4))

/-- TEN_CTRL_RESET, R120: A write of TEN_CTRL.RESET abandons the core's work, clears contexts and releases its held locks. For a
requester whose accesses reach the device. -/
def execTenCtrlReset (who : Req) (c : Fin 32) (s : State) : Host.Outcome State Fault Refusal :=
  live s (fun d => d.writeDo who (tenBase + 0x20000 * c + 4) false (fun d => d.tenCtrl who c 8))

/-- TEN_CTRL_LOCK, R123: A write of TEN_CTRL.LOCK makes TEN_PC and TEN_SAVEBASE read-only to the host. For a requester whose accesses
reach the device. -/
def execTenCtrlLock (who : Req) (c : Fin 32) (s : State) : Host.Outcome State Fault Refusal :=
  live s (fun d => d.writeDo who (tenBase + 0x20000 * c + 4) true (fun d => d.tenCtrl who c (2 ^ 31)))

end Sys2Proof.Machine
end

