-- ==== Sys2Proof/Machine/ExecDict.lean ====
section
/-! DEFINITION. The meanings of the commands of the object dictionary and its transports (chapter 15), one for each. -/

namespace Sys2Proof.Machine

open Sys2Proof

/-- DICT_READ, R396: A mailbox dictionary read returns up to 4,072 bytes of an entry from an offset. -/
def execDictRead (fn : Option Nat) (s : State) : Host.Outcome State Fault Refusal :=
  live s (fun d => d.dictReadMsg fn)

/-- DICT_WRITE, R396: A mailbox dictionary write with its token commits when its last segment is taken. -/
def execDictWrite (fn : Option Nat) (ok : Bool) (s : State) : Host.Outcome State Fault Refusal :=
  live s (fun d => d.dictWriteMsg fn ok)

/-- SETTING_APPLY, R380: Firmware programs the hardware with a committed value within 10 ms. While firmware serves, outside a live
update's pause. -/
def execSettingApply (s : State) : Host.Outcome State Fault Refusal :=
  live s (fun d => d.fwDo (fun d => d.settingApply))

/-- STORE, R382: A write of "save" to 0x1010 stores the persistent image into the older SPI NOR copy. -/
def execStoreSettings (via : Via) (sb : Fin 4) (tok : Option (List Byte)) (ok : Bool) (s : State) : Host.Outcome State Fault Refusal :=
  live s (fun d => d.writeVia via 0x1010 sb (leBytes 4 saveWord) tok ok)

/-- RESTORE_DEFAULTS, R384: A write of "load" to 0x1011 marks a range to take defaults at the next reset. -/
def execRestoreDefaults (via : Via) (sb : Fin 4) (tok : Option (List Byte)) (s : State) : Host.Outcome State Fault Refusal :=
  live s (fun d => d.writeVia via 0x1011 sb (leBytes 4 loadWord) tok true)

/-- TOKEN_STAGE, R388: A write to 0x5020 stages an authorisation token for the session's next write. -/
def execTokenStage (via : Via) (raw : List Byte) (s : State) : Host.Outcome State Fault Refusal :=
  live s (fun d => d.writeVia via 0x5020 0 raw none true)

/-- TOKEN_EXPIRY, R388: A staged token expires 10 s after staging. -/
def execTokenExpiry (via : Via) (s : State) : Host.Outcome State Fault Refusal :=
  live s (fun d => d.tokenExpire via)

/-- SDO_DOWNLOAD, R398: A CAN SDO download commits at its final frame and is confirmed or aborted. -/
def execSdoDownload (f : SdoDn) (ok : Bool) (s : State) : Host.Outcome State Fault Refusal :=
  live s (fun d => d.sdoDownload f ok)

/-- SDO_UPLOAD, R398: A CAN SDO upload returns an entry's value. -/
def execSdoUpload (f : SdoUp) (s : State) : Host.Outcome State Fault Refusal :=
  live s (fun d => d.sdoUpload f)

/-- SDO_TIMEOUT, R398: A gap between frames of a transfer exceeds the segment timeout and aborts it. -/
def execSdoTimeout (node : Option Nat) (s : State) : Host.Outcome State Fault Refusal :=
  live s (fun d => d.sdoTimeout node)

/-- USDO_TRANSFER, R399: A CAN FD USDO unicast transfer is served under the SDO commit rules. -/
def execUsdoTransfer (node : Nat) (r : UsdoReq) (ok : Bool) (s : State) : Host.Outcome State Fault Refusal :=
  live s (fun d => d.usdoTransfer node r ok)

/-- NMT_START, R397: NMT start changes the node to operational. -/
def execNmtStart (s : State) : Host.Outcome State Fault Refusal :=
  live s (fun d => d.nmtSet .operational)

/-- NMT_STOP, R397: NMT stop ends SDO, USDO and EMCY service. -/
def execNmtStop (s : State) : Host.Outcome State Fault Refusal :=
  live s (fun d => d.nmtSet .stopped)

/-- NMT_ENTER_PRE_OPERATIONAL, R397: NMT enter-pre-operational changes the node state. -/
def execNmtEnterPreOperational (s : State) : Host.Outcome State Fault Refusal :=
  live s (fun d => d.nmtSet .preOp)

/-- NMT_RESET_COMMUNICATION, R397: Reinitialises the CAN controller, discards CAN sessions and sends boot-up. -/
def execNmtResetCommunication (s : State) : Host.Outcome State Fault Refusal :=
  live s (fun d => d.nmtReset)

/-- NMT_RESET_NODE, R397: Reinitialises the CAN controller, discards CAN sessions and sends boot-up. -/
def execNmtResetNode (s : State) : Host.Outcome State Fault Refusal :=
  live s (fun d => d.nmtReset)

/-- HEARTBEAT, R397: The producer heartbeat period expires and a heartbeat is sent. -/
def execHeartbeat (s : State) : Host.Outcome State Fault Refusal :=
  live s (fun d => d.heartbeat)

/-- UDP_READ, R401: A UDP READ datagram returns bytes of an entry from a copy. -/
def execUdpRead (src : Nat) (raw : List Byte) (s : State) : Host.Outcome State Fault Refusal :=
  live s (fun d => d.request (.udp src raw true))

/-- UDP_WRITE, R401: A UDP WRITE datagram is assembled and the write commits when complete. -/
def execUdpWrite (src : Nat) (raw : List Byte) (ok : Bool) (s : State) : Host.Outcome State Fault Refusal :=
  live s (fun d => d.request (.udp src raw ok))

/-- UDP_SESSION_TIMEOUT, R401: An idle UDP session is discarded without answer. -/
def execUdpSessionTimeout (src : Nat) (s : State) : Host.Outcome State Fault Refusal :=
  live s (fun d => d.udpTimeout src)

/-- USB_READ, R403: A USB vendor READ returns a segment of an entry's value. -/
def execUsbRead (index : Nat) (sb : Nat) (seg : Nat) (len : Nat) (s : State) : Host.Outcome State Fault Refusal :=
  live s (fun d => d.usbRead index sb seg len)

/-- USB_WRITE, R403: A USB vendor WRITE carries one non-final 4,096-byte segment. -/
def execUsbWrite (index : Nat) (sb : Nat) (seg : Nat) (data : List Byte) (s : State) : Host.Outcome State Fault Refusal :=
  live s (fun d => d.usbWrite index sb seg data)

/-- USB_WRITE_LAST, R404: A USB WRITE_LAST completes the assembly, which commits at the status-stage ACK. -/
def execUsbWriteLast (index : Nat) (sb : Nat) (seg : Nat) (data : List Byte) (ack : Bool) (ok : Bool) (s : State) : Host.Outcome State Fault Refusal :=
  live s (fun d => d.usbWriteLast index sb seg data ack ok)

/-- USB_RESULT, R403: A USB RESULT request returns the abort code and commit flag of the last transfer. -/
def execUsbResult (s : State) : Host.Outcome State Fault Refusal :=
  live s (fun d => d.usbResult)

/-- USB_BUS_RESET, R404: A USB bus reset, suspend or detach discards partial writes, the staged token and the read copy. -/
def execUsbBusReset (s : State) : Host.Outcome State Fault Refusal :=
  live s (fun d => d.usbReset)

end Sys2Proof.Machine
end

