-- ==== Sys2Proof/Machine/ExecFw.lean ====
section
/-! DEFINITION. The meanings of the commands of firmware (chapter 16), one for each. -/

namespace Sys2Proof.Machine

open Sys2Proof

/-- FW_LOAD, R411: The ROM copies, checks and measures a firmware image and starts it. -/
def execFwLoad (data : Option (List Byte)) (s : State) : Host.Outcome State Fault Refusal :=
  live s (fun d => d.fwLoad data)

/-- FW_UPDATE, R413: The running image copies and verifies a new image for a live update. -/
def execFwUpdate (data : Option (List Byte)) (s : State) : Host.Outcome State Fault Refusal :=
  live s (fun d => d.fwUpdate data)

/-- START_SEQUENCE, R412: The started image loads the dictionary, runs self-tests, scrubs HBM, builds the map and sets FWREADY. -/
def execStartSequence (t : SelfTest) (s : State) : Host.Outcome State Fault Refusal :=
  live s (fun d => d.startSequence t)

/-- PARTITION_RESTAGE, R472: After FWREADY firmware re-stages each partition's sections and sets it in service. -/
def execPartitionRestage (s : State) : Host.Outcome State Fault Refusal :=
  live s (fun d => d.partitionRestage)

/-- LIVE_UPDATE_QUIESCE, R414: With no install running the pause begins, transports hold requests and components finish. -/
def execLiveUpdateQuiesce (s : State) : Host.Outcome State Fault Refusal :=
  live s (fun d => d.quiesce)

/-- LIVE_UPDATE_SWITCH, R414: After export the supervisor starts the new image and components import their records. -/
def execLiveUpdateSwitch (discard : Option Nat) (s : State) : Host.Outcome State Fault Refusal :=
  live s (fun d => d.switchImage discard)

/-- LIVE_UPDATE_RESUME, R414: Readiness checks pass, HELD clears and held requests are served. -/
def execLiveUpdateResume (s : State) : Host.Outcome State Fault Refusal :=
  live s (fun d => d.resumeUpdate)

/-- UPDATE_ABANDON, R418: A critical record fails or a component misses readiness and the old image is restarted. -/
def execUpdateAbandon (typ : Nat) (s : State) : Host.Outcome State Fault Refusal :=
  live s (fun d => d.abandonUpdate typ)

/-- WATCHDOG_EXPIRY, R424: A component misses its watchdog and is restarted in its domain. -/
def execWatchdogExpiry (c : Fin 12) (s : State) : Host.Outcome State Fault Refusal :=
  live s (fun d => d.watchdog c)

/-- PROTECTION_FAULT, R409: A write outside a component's regions stops and restarts the component. -/
def execProtectionFault (c : Fin 12) (addr : Nat) (s : State) : Host.Outcome State Fault Refusal :=
  live s (fun d => d.protWrite c addr)

/-- MANAGEMENT_RESET, R425: A third restart in 60 s or a supervisor watchdog expiry resets the thirteen cores and restarts the image. -/
def execManagementReset (s : State) : Host.Outcome State Fault Refusal :=
  live s (fun d => d.managementReset)

/-- RETAINED_RECORD_WRITE, R426: At least every 100 ms each component writes its state records to the retained area. -/
def execRetainedRecordWrite (s : State) : Host.Outcome State Fault Refusal :=
  live s (fun d => d.retainedWrite)

end Sys2Proof.Machine
end

