-- ==== Sys2Proof/Machine/ExecHost.lean ====
section
/-! DEFINITION. The meanings of the commands of the host interface (chapter 14), one for each. -/

namespace Sys2Proof.Machine

open Sys2Proof

/-- REGISTER_WRITE, R4: A host write to a register with no behaviour of its own; each field the function may change takes its part and
RO and RSV fields ignore theirs. For a requester whose accesses reach the device. -/
def execRegisterWrite (who : Req) (off : Nat) (len : Nat) (data : BitVec 64) (s : State) : Host.Outcome State Fault Refusal :=
  live s (fun d => d.writeDo who (off / 4 * 4) (!isTenCtrl off || decide (data.toNat = 2 ^ 31)) (fun d => d.registerWrite who off len data.toNat))

/-- PAIR_LOW_READ, R9: A read of the low word of a 64-bit pair latches the high word in the requester's own read latch. For a requester
whose accesses reach the device. -/
def execPairLowRead (who : Req) (off : Nat) (len : Nat) (s : State) : Host.Outcome State Fault Refusal :=
  live s (fun d => d.hostDo who (fun d => d.pairLowRead who off len))

/-- PAIR_LOW_WRITE, R9: A write of the low word of a pair is held in the requester's staging latch, replacing any staged value. For a
requester whose accesses reach the device. -/
def execPairLowWrite (who : Req) (off : Nat) (data : Word) (s : State) : Host.Outcome State Fault Refusal :=
  live s (fun d => d.writeDo who off true (fun d => d.pairLowWrite who off data.toNat))

/-- PAIR_HIGH_WRITE, R9: A write of the high word of a pair makes it take effect together with the staged low word. For a requester
whose accesses reach the device. -/
def execPairHighWrite (who : Req) (off : Nat) (data : Word) (s : State) : Host.Outcome State Fault Refusal :=
  live s (fun d => d.writeDo who off true (fun d => d.pairHighWrite who off data.toNat))

/-- READ_TIMEOUT, R356: A host read not completed 10 µs after reaching die F completes as Completer Abort and counts in GLB_TIMEOUT. For
a function that answers. -/
def execReadTimeout (fn : Option Nat) (isWrite : Bool) (s : State) : Host.Outcome State Fault Refusal :=
  live s (fun d => d.fnDo fn (fun d => d.readTimeout fn isWrite))

/-- MBX_RING, R359: A write of MBX_DB.RING submits the request page and sets PENDING. For a function that answers. -/
def execMbxRing (fn : Option Nat) (s : State) : Host.Outcome State Fault Refusal :=
  live s (fun d => d.fnDo fn (fun d => d.mbxRing fn))

/-- MBX_RACK, R359: A write of MBX_DB.RACK acknowledges the response and clears RESP. For a function that answers. -/
def execMbxRack (fn : Option Nat) (s : State) : Host.Outcome State Fault Refusal :=
  live s (fun d => d.fnDo fn (fun d => d.mbxRack fn))

/-- MBX_TAKE, R359: Firmware takes a pending mailbox request and sets TAKEN. -/
def execMbxTake (fn : Option Nat) (s : State) : Host.Outcome State Fault Refusal :=
  live s (fun d => d.mbxTake fn)

/-- MESSAGE_SEGMENT, R360: A non-final segment with MORE set is assembled and answered with OK. -/
def execMessageSegment (fn : Option Nat) (s : State) : Host.Outcome State Fault Refusal :=
  live s (fun d => d.segment fn)

/-- HELLO, R361: The mailbox negotiates protocol minor and features. -/
def execHello (fn : Option Nat) (s : State) : Host.Outcome State Fault Refusal :=
  live s (fun d => d.hello fn)

/-- BUNDLE_INSTALL, R364: A bundle install request is queued and answered with a ticket. -/
def execBundleInstall (s : State) : Host.Outcome State Fault Refusal :=
  live s (fun d => d.bundleInstall)

/-- BUNDLE_STATUS, R363: Reports the state, outcome and step of an install ticket. -/
def execBundleStatus (s : State) : Host.Outcome State Fault Refusal :=
  live s (fun d => d.bundleStatus)

/-- BUNDLE_FREE, R363: Frees an installed bundle by name. -/
def execBundleFree (s : State) : Host.Outcome State Fault Refusal :=
  live s (fun d => d.bundleFreeMsg)

/-- PTN_RESET, R329: A mailbox request resets a partition and is answered when the reset completes. -/
def execPtnReset (fn : Option Nat) (s : State) : Host.Outcome State Fault Refusal :=
  live s (fun d => d.ptnResetMsg fn)

/-- CORE_CTRL_SET_PC, R363: CORE_CTRL operation 0 sets TEN_PC of the core of a rank. -/
def execCoreCtrlSetPc (n : Fin 32) (s : State) : Host.Outcome State Fault Refusal :=
  live s (fun d => d.coreSetPc n)

/-- CORE_CTRL_SET_SAVEBASE, R363: CORE_CTRL operation 1 sets TEN_SAVEBASE of the core of a rank. -/
def execCoreCtrlSetSavebase (n : Fin 32) (s : State) : Host.Outcome State Fault Refusal :=
  live s (fun d => d.coreSetSave n)

/-- CORE_CTRL_RUN, R363: CORE_CTRL operation 2 starts the tile program of the core of a rank. -/
def execCoreCtrlRun (n : Fin 32) (s : State) : Host.Outcome State Fault Refusal :=
  live s (fun d => d.coreRun n)

/-- CORE_CTRL_PREEMPT, R363: CORE_CTRL operation 3 requests pre-emption of the core of a rank. -/
def execCoreCtrlPreempt (n : Fin 32) (s : State) : Host.Outcome State Fault Refusal :=
  live s (fun d => d.corePreempt n)

/-- CORE_CTRL_RESUME, R363: CORE_CTRL operation 4 resumes the core of a rank from its save slot. -/
def execCoreCtrlResume (n : Fin 32) (s : State) : Host.Outcome State Fault Refusal :=
  live s (fun d => d.coreResume n)

/-- CORE_CTRL_RESET, R363: CORE_CTRL operation 5 applies a per-core reset to the core of a rank. -/
def execCoreCtrlReset (n : Fin 32) (s : State) : Host.Outcome State Fault Refusal :=
  live s (fun d => d.coreReset n)

/-- DIRECT_GRANT, R372: The PF grants or revokes direct mode per partition. -/
def execDirectGrant (s : State) : Host.Outcome State Fault Refusal :=
  live s (fun d => d.directGrant)

/-- DMAQ_CREATE, R363: Creates a DMA queue pair with its rings. -/
def execDmaqCreate (fn : Option Nat) (s : State) : Host.Outcome State Fault Refusal :=
  live s (fun d => d.dmaqCreate fn)

/-- DMAQ_DESTROY, R369: Destroys a DMA queue pair after its running descriptor, abandoning the rest. -/
def execDmaqDestroy (fn : Option Nat) (s : State) : Host.Outcome State Fault Refusal :=
  live s (fun d => d.dmaqDestroy fn)

/-- SQ_DOORBELL, R369: A write of GLB_SQTAIL submits descriptors, or is ignored if too many. For a function that answers. -/
def execSqDoorbell (fn : Option Nat) (q : Nat) (tail : Nat) (s : State) : Host.Outcome State Fault Refusal :=
  live s (fun d => d.fnDo fn (fun d => d.sqDoorbell fn q tail))

/-- CQ_HEAD_WRITE, R369: A write of GLB_CQHEAD frees completion entries, or is ignored if it passes the last written. For a function
that answers. -/
def execCqHeadWrite (fn : Option Nat) (q : Nat) (head : Nat) (s : State) : Host.Outcome State Fault Refusal :=
  live s (fun d => d.fnDo fn (fun d => d.cqHeadWrite fn q head))

/-- DMA_WRITE, R366: A WRITE descriptor copies host data into the partition's share after its checks. -/
def execDmaWrite (n : Fin 32) (q : Fin 4) (desc : List Byte) (data : List Byte) (hostErr : Option Nat) (shareErr : Option Nat) (s : State) : Host.Outcome State Fault Refusal :=
  live s (fun d => d.dmaWrite n q desc data hostErr shareErr)

/-- DMA_RECV, R367: A RECV descriptor gives the device a host buffer for telemetry. -/
def execDmaRecv (q : Fin 16) (desc : List Byte) (s : State) : Host.Outcome State Fault Refusal :=
  live s (fun d => d.dmaRecv q desc)

/-- DMA_COMPLETE, R368: A descriptor finishes, pushes its entry and writes its completion. -/
def execDmaComplete (fn : Option Nat) (q : Nat) (s : State) : Host.Outcome State Fault Refusal :=
  live s (fun d => d.dmaComplete fn q)

/-- MSIX_DELIVER, R370: A masked vector with pending raises becomes deliverable and sends one message. -/
def execMsixDeliver (fn : Option Nat) (v : Nat) (s : State) : Host.Outcome State Fault Refusal :=
  live s (fun d => d.msixDeliver fn v)

/-- PCIE_HOT_RESET, R371: A hot reset or link down resets every function's host-side state and revokes direct grants. -/
def execPcieHotReset (s : State) : Host.Outcome State Fault Refusal :=
  live s (fun d => d.hotReset)

/-- PF_FLR, R371: A PF function-level reset resets the host-side state of the PF and every VF. While the link is up. -/
def execPfFlr (s : State) : Host.Outcome State Fault Refusal :=
  live s (fun d => d.linkDo (fun d => d.pfFlr))

/-- VF_FLR, R371: A VF function-level reset resets its host-side state and its partition. For a VF that exists. -/
def execVfFlr (n : Fin 32) (s : State) : Host.Outcome State Fault Refusal :=
  live s (fun d => d.vfDo n (fun d => d.vfFlr n))

/-- PERST, R469: A low PERST_N resets the PCIe endpoint and counts as a link down. -/
def execPerst (s : State) : Host.Outcome State Fault Refusal :=
  live s (fun d => d.perst)

/-- CONFIG_SPACE_WRITE, R350: The host writes PCIe configuration space, setting VF Enable, NumVFs, Memory Space Enable, Bus Master
Enable or MSI-X Enable, so that VFs appear or vanish and delivery changes. While the link is up. -/
def execConfigSpaceWrite (c : CfgWrite) (s : State) : Host.Outcome State Fault Refusal :=
  live s (fun d => d.linkDo (fun d => d.configWrite c))

/-- DOE_DISCOVERY, R351: A DOE Discovery request arrives in the PF DOE mailbox and is answered with the supported data object types.
While the link is up. -/
def execDoeDiscovery (index : Nat) (s : State) : Host.Outcome State Fault Refusal :=
  live s (fun d => d.linkDo (fun d => d.doeDiscovery index))

/-- PCIE_LINK_TRAINED, R348: The PCIe link completes training or retraining at a rate and width, updating GLB_LINK and setting
GLB_EVENT.LINKCHG. -/
def execPcieLinkTrained (rate : Nat) (width : Nat) (flit : Bool) (s : State) : Host.Outcome State Fault Refusal :=
  live s (fun d => d.linkTrained rate width flit)

end Sys2Proof.Machine
end

