-- ==== Sys2Proof/Machine/ExecHud.lean ====
section
/-! DEFINITION. The meanings of the commands of the Huddle (chapter 12), one for each. -/

namespace Sys2Proof.Machine

open Sys2Proof

/-- SNAPSHOT_OPEN, R309: Reported time reaches O_n and a group opens snapshot n, filling its buffer or skipping it if the buffer is
held. -/
def execSnapshotOpen (g : Fin 64) (s : State) : Host.Outcome State Fault Refusal :=
  live s (fun d => d.snapOpen g)

/-- SNAPSHOT_CLOSE, R309: Reported time reaches D_n; after its writes are accepted the header is written and the event pushed. -/
def execSnapshotClose (g : Fin 64) (s : State) : Host.Outcome State Fault Refusal :=
  live s (fun d => d.snapClose g)

/-- HUDDLE_TAKE, R304: The Huddle takes up to four fileable packets per FCLK and files their values by tag and snapshot state. -/
def execHuddleTake (s : State) : Host.Outcome State Fault Refusal :=
  live s (fun d => d.huddleTake)

/-- FILING_WRITE, R304: The filing queue writes values to the snapshot buffer in HBM at up to 2 per FCLK. -/
def execFilingWrite (s : State) : Host.Outcome State Fault Refusal :=
  live s (fun d => d.filingWrite)

/-- RESULT_POST, R315: A forwarded SIGNAL post with OP RESULT, RELEASE or both is taken by the write-back unit or ignored. -/
def execResultPost (s : State) : Host.Outcome State Fault Refusal :=
  live s (fun d => d.resultPost)

/-- RESULT_WRITEBACK, R316: A result transfer is decoded and written into entity rows four per FCLK, making them warm. -/
def execResultWriteback (g : Fin 64) (ecc : Ecc) (s : State) : Host.Outcome State Fault Refusal :=
  live s (fun d => d.resultWriteback g ecc)

/-- RESULT_DEADLINE, R317: At the close of snapshot n + RESLAG, entities without a result for n turn stale with CAUSE 1. -/
def execResultDeadline (g : Fin 64) (s : State) : Host.Outcome State Fault Refusal :=
  live s (fun d => d.resultDeadline g)

/-- PARTITION_STALE, R318: On firmware's report of a lost or re-mapped partition, its groups' warm entities turn stale with CAUSE 2. -/
def execPartitionStale (p : Fin 32) (s : State) : Host.Outcome State Fault Refusal :=
  live s (fun d => d.partitionStale p)

end Sys2Proof.Machine
end

