-- ==== Sys2Proof/Machine/ExecMem.lean ====
section
/-! DEFINITION. The meanings of the commands of memory, staging and bundles (chapter 5), one for each. -/

namespace Sys2Proof.Machine

open Sys2Proof

/-- STAGING_POP, R132: The staging engine pops a request from a partition's staging queue and starts copying an expert. -/
def execStagingPop (p : Fin 32) (s : State) : Host.Outcome State Fault Refusal :=
  live s (fun d => d.stagingPop p)

/-- STAGING_REPLY, R133: A staging request finishes and its reply is pushed and its Catcher record posted. -/
def execStagingReply (i : Nat) (err : Ecc) (lost : Bool) (s : State) : Host.Outcome State Fault Refusal :=
  live s (fun d => d.stagingReply i err lost)

/-- GRANULE_SCRUB_DONE, R129: A granule's scrub ends and the map part that gives it to a partition takes effect. -/
def execGranuleScrubDone (s : State) : Host.Outcome State Fault Refusal :=
  live s (fun d => d.granuleScrubDone)

/-- BUNDLE_INSTALL_RUN, R147: Firmware starts the next queued bundle install and runs its check, decrypt and write steps. While firmware
serves, outside a live update's pause. -/
def execBundleInstallRun (data : Option (List Byte)) (s : State) : Host.Outcome State Fault Refusal :=
  live s (fun d => d.fwDo (fun d => d.bundleInstallRun data))

/-- BUNDLE_COMMIT, R147: An install commits: its flow-plane objects enter service under one version and libraries switch. While firmware
serves, outside a live update's pause. -/
def execBundleCommit (s : State) : Host.Outcome State Fault Refusal :=
  live s (fun d => d.fwDo (fun d => d.bundleCommit))

end Sys2Proof.Machine
end

