-- ==== Sys2Proof/Machine/ExecPart.lean ====
section
/-! DEFINITION. The meanings of the commands of partitions, faults and the error log (chapter 13), one for each. -/

namespace Sys2Proof.Machine

open Sys2Proof

/-- DIE_HEARTBEAT_LOST, R330: A tensor die misses two heartbeat toggles and is detected as lost. -/
def execDieHeartbeatLost (k : Fin 4) (det : Nat) (s : State) : Host.Outcome State Fault Refusal :=
  live s (fun d => d.dieFail k 0 det false)

/-- LINK_RETRAIN_FAIL, R330: A Td-to-B or F-to-B link retrain has not completed after 2.0 µs. -/
def execLinkRetrainFail (k : Option (Fin 4)) (det : Nat) (s : State) : Host.Outcome State Fault Refusal :=
  live s (fun d => match k with
    | some k => d.dieFail k 1 det false
    | none => d.dieBFail)

/-- THERMAL_TRIP, R330: A tensor die's junction reaches 110 °C and the die fails, its rails removed. -/
def execThermalTrip (k : Fin 4) (det : Nat) (s : State) : Host.Outcome State Fault Refusal :=
  live s (fun d => d.dieFail k 2 det true)

/-- HBM_ERROR_BURST, R330: The eighth uncorrectable line error on a stack within 1 ms fails the stack. -/
def execHbmErrorBurst (n : Fin 8) (det : Nat) (s : State) : Host.Outcome State Fault Refusal :=
  live s (fun d => d.hbmBurst n det)

/-- HBM_STACK_FAIL, R330: An HBM stack stops responding or its retraining fails. -/
def execHbmStackFail (n : Fin 8) (det : Nat) (s : State) : Host.Outcome State Fault Refusal :=
  live s (fun d => d.hbmFail n det)

/-- MODEL_STORE_STACK_FAIL, R330: A model-store stack stops responding for 100 µs. -/
def execModelStoreStackFail (n : Fin 8) (s : State) : Host.Outcome State Fault Refusal :=
  live s (fun d => d.msFail n)

/-- CORE_OUT_OF_SERVICE, R330: A second array fault, drain error or ECC burst takes a core out of service. -/
def execCoreOutOfService (c : Fin 32) (det : Nat) (s : State) : Host.Outcome State Fault Refusal :=
  live s (fun d => d.coreOut c det)

/-- REMAP_START, R332: The fault manager fences a failed unit, applies its plan and begins loading targets. -/
def execRemapStart (s : State) : Host.Outcome State Fault Refusal :=
  live s (fun d => d.remapStart)

/-- REMAP_RESTART, R332: After the image load or re-stage, TEN_PC is set, RUN written, the restart notice pushed and REMAPDONE posted. -/
def execRemapRestart (s : State) : Host.Outcome State Fault Refusal :=
  live s (fun d => d.remapRestart)

/-- TIME_SHARE_SWITCH, R340: A time-share quantum expires and the core swaps partitions by pre-empt, store swap and resume. -/
def execTimeShareSwitch (c : Fin 32) (s : State) : Host.Outcome State Fault Refusal :=
  live s (fun d => d.timeShareSwitch c)

/-- ERROR_LOG_TAKE, R344: The error log takes the oldest queued report, coalescing it or placing it in a slot. -/
def execErrorLogTake (s : State) : Host.Outcome State Fault Refusal :=
  live s (fun d => d.erlTake)

/-- ERL_CTL_CLEAR, R345: A write of ERL_CTL.CLEAR frees entries of the named classes and re-arms the summary alarm. For the PF, firmware
or the open debug port; a VF has no such register. -/
def execErlCtlClear (who : Req) (mask : Fin 16) (s : State) : Host.Outcome State Fault Refusal :=
  live s (fun d => d.blockWriteDo who (erlBase + 4) (fun d => d.erlClear mask))

/-- ERL_IDX_WRITE, R347: A write of ERL_IDX copies a log slot into ERL_DATA within 8 NCLK. For the PF, firmware or the open debug port;
a VF has no such register. -/
def execErlIdxWrite (who : Req) (k : Fin 4096) (s : State) : Host.Outcome State Fault Refusal :=
  live s (fun d => d.blockWriteDo who (erlBase + 0x18) (fun d => d.erlIdx k))

/-- PACKAGE_NETWORK_DEFECT, R19: A die-to-die lane or a package-network plane on die B fails; a spare lane or the other plane takes
over, a corrected entry is logged and 0x6010 reports the lost redundancy. -/
def execPackageNetworkDefect (x : NetDefect) (s : State) : Host.Outcome State Fault Refusal :=
  live s (fun d => d.netDefect x)

/-- MIRROR_REBUILD, R128: Firmware finishes building a new mirror extent for a protected partition that lost one, so that the partition
runs protected again. -/
def execMirrorRebuild (p : Fin 32) (s : State) : Host.Outcome State Fault Refusal :=
  live s (fun d => d.mirrorRebuild p)

/-- RESTAGE_DONE, R336: The re-stage of an unprotected partition onto a new extent after an HBM stack failure ends, its RESTAGE state
ends and a RESTAGED notice is posted. -/
def execRestageDone (p : Fin 32) (s : State) : Host.Outcome State Fault Refusal :=
  live s (fun d => d.restageDone p)

end Sys2Proof.Machine
end

