-- ==== Sys2Proof/Machine/ExecPlane.lean ====
section
/-! DEFINITION. The meanings of the commands of the flow plane: dispatch, classification, flows, the Gauntlet, scoring, verdicts and egress (chapters 8 to 10), one for each. -/

namespace Sys2Proof.Machine

open Sys2Proof

/-- DISPATCH_TAKE, R198: Each FCLK the dispatcher takes up to four eligible packets from its rotating pointer and assigns pipes and
sequence numbers. -/
def execDispatchTake (s : State) : Host.Outcome State Fault Refusal :=
  live s (fun d => d.dispatchTake)

/-- PARSE_RESULT, R199: A parser pipe delivers a packet's 128-byte parse result 40 FCLK after its take. -/
def execParseResult (pipe : Fin 4) (s : State) : Host.Outcome State Fault Refusal :=
  live s (fun d => d.parseResult pipe)

/-- CLASSIFY, R218: The packet takes the current version and is matched in the associative memory, the chain tables or the port default. -/
def execClassify (s : State) : Host.Outcome State Fault Refusal :=
  live s (fun d => d.classify)

/-- REINJECT, R208: A Shortstop core reinjects an original or synthesised packet through dispatcher source 32. While firmware serves,
outside a live update's pause. -/
def execReinject (core : Fin 8) (port : Fin 32) (k : Reinj) (s : State) : Host.Outcome State Fault Refusal :=
  live s (fun d => d.fwDo (fun d => d.reinject core port k))

/-- PUNT_RELEASE, R207: A Shortstop core releases a punted frame from the packet buffer. While firmware serves, outside a live update's
pause. -/
def execPuntRelease (core : Fin 8) (s : State) (k : Nat := 0) : Host.Outcome State Fault Refusal :=
  live s (fun d => d.fwDo (fun d => d.puntDone core k))

/-- TEMPLATE_BUILD, R303: A Shortstop core builds a stream template from a configuration frame or snoop and commits it. While firmware
serves, outside a live update's pause. -/
def execTemplateBuild (core : Fin 8) (n : Fin 4096) (recd : List Byte) (s : State) : Host.Outcome State Fault Refusal :=
  live s (fun d => d.fwDo (fun d => d.templateBuild core n recd))

/-- VERSION_COMMIT, R222: A firmware write of CLS_VCOMMIT makes the next version current or is refused with its outcome. For a requester
whose accesses reach the device. -/
def execVersionCommit (who : Req) (v : Nat) (objs : List VObj) (s : State) : Host.Outcome State Fault Refusal :=
  live s (fun d => d.writeDo who (clsBase + 0x0C) true (fun d => d.versionCommit who v objs))

/-- VERSION_RETIRE, R223: A non-current version whose in-flight count is 0 and whose elders have retired retires on the next FCLK. -/
def execVersionRetire (s : State) : Host.Outcome State Fault Refusal :=
  live s (fun d => d.retire)

/-- SWEEP, R224: A retirement starts a sweep that clears expired objects and zeroes VMIN of the swept version. -/
def execSweep (s : State) : Host.Outcome State Fault Refusal :=
  live s (fun d => d.sweep)

/-- SWEEP_END, R224: A sweep finishes and BASE advances to the successor of the swept version. -/
def execSweepEnd (s : State) : Host.Outcome State Fault Refusal :=
  live s (fun d => d.sweepEnd)

/-- BIND, R231: At step 6 a packet looks up, learns or evicts its flow entry and updates its counts and inter-arrival statistics. -/
def execBind (s : State) : Host.Outcome State Fault Refusal :=
  live s (fun d => d.bind)

/-- AGING_SCAN, R232: Every 4 FCLK the aging scanner visits one flow entry and removes it when its idle age reaches IDLE. -/
def execAgingScan (s : State) : Host.Outcome State Fault Refusal :=
  live s (fun d => d.agingScan)

/-- FLOW_ENTRY_FW_WRITE, R232: Firmware writes named fields of a flow entry, applied after any packet update in the same FCLK. While
firmware serves, outside a live update's pause. -/
def execFlowEntryFwWrite (i : Fin 1048576) (static entValid : Option Bool) (entity : Option Nat) (valid : Option Bool) (s : State)
    (more : List FlowSet := []) : Host.Outcome State Fault Refusal :=
  live s (fun d => d.fwDo (fun d => d.flowSet i ((d.flowAt i).write (flowSets static entValid entity valid more))))

/-- ENTITY_RANGE_ASSIGN, R236: Firmware assigns or reassigns an entity range, zeroing its rows and marking them stale with CAUSE 4.
While firmware serves, outside a live update's pause. -/
def execEntityRangeAssign (p : Fin 32) (first : Nat) (n : Nat) (s : State) : Host.Outcome State Fault Refusal :=
  live s (fun d => d.fwDo (fun d => d.assignRange p first n))

/-- FLW_FIDX_WRITE, R250: A write of FLW_FIDX copies a flow entry into FLW_FDATA within 8 FCLK. For the PF, firmware or the open debug
port; a VF has no such register. -/
def execFlwFidxWrite (who : Req) (i : Fin 1048576) (s : State) : Host.Outcome State Fault Refusal :=
  live s (fun d => d.blockWriteDo who (flwBase + 0x20) (fun d => d.fidx i))

/-- FLW_EIDX_WRITE, R250: A write of FLW_EIDX copies an entity's state word within 8 FCLK. For the PF, firmware or the open debug port;
a VF has no such register. -/
def execFlwEidxWrite (who : Req) (e : Fin 262144) (s : State) : Host.Outcome State Fault Refusal :=
  live s (fun d => d.blockWriteDo who (flwBase + 0x80) (fun d => d.eidx e))

/-- POLICE, R238: At step 7 a policed packet refills and spends its class's buckets and is coloured green, yellow or red. -/
def execPolice (s : State) : Host.Outcome State Fault Refusal :=
  live s (fun d => d.police)

/-- POLICER_CLASS_WRITE, R239: Firmware rewrites a policer class, setting its tokens full or empty by RESETFULL. While firmware serves,
outside a live update's pause. -/
def execPolicerClassWrite (c : Fin 16384) (cinc : Nat) (pinc : Nat) (cbs : Nat) (pbs : Nat) (en : Bool) (resetFull : Bool) (s : State) : Host.Outcome State Fault Refusal :=
  live s (fun d => d.fwDo (fun d => d.policerWrite c cinc pinc cbs pbs en resetFull))

/-- GNT_PIDX_COPY, R251: A write of GNT_PIDX with OP 1 copies a class's record, refilled tokens and counts into GNT_PDATA and GNT_PCNT.
For the PF, firmware or the open debug port; a VF has no such register. -/
def execGntPidxCopy (who : Req) (c : Fin 16384) (op : Bool) (s : State) : Host.Outcome State Fault Refusal :=
  live s (fun d => d.blockWriteDo who (gntBase + 0x20) (fun d => d.pidx c op))

/-- SCORE_ADMIT, R268: At the end of step 7 a packet is admitted to its ensemble's score queue, refused, or scored without a record. -/
def execScoreAdmit (s : State) : Host.Outcome State Fault Refusal :=
  live s (fun d => d.scoreAdmit)

/-- DROPEND, R277: 1 ms passes without a refusal after DROPSTART and a DROPEND event is posted. -/
def execDropEnd (e : Fin 64) (s : State) : Host.Outcome State Fault Refusal :=
  live s (fun d => d.dropEnd e)

/-- SCORE_GRANT, R269: Each FCLK the arbiter grants free quadrants to queued events from its rotating ensemble pointer. -/
def execScoreGrant (s : State) : Host.Outcome State Fault Refusal :=
  live s (fun d => d.scoreGrant)

/-- SCORE_DELIVER, R270: A granted event reaches the Visor 48 FCLK later with its score, class and ensemble. -/
def execScoreDeliver (s : State) (err : Option (Fin 8192 × Bool) := none) : Host.Outcome State Fault Refusal :=
  live s (fun d => d.scoreDeliver (err.map (fun x => (x.1.val, x.2))))

/-- SLOT_RELOAD_DONE, R272: A slot reload completes after 64 FCLK and its copy returns to service. -/
def execSlotReloadDone (slot : Fin 8192) (s : State) : Host.Outcome State Fault Refusal :=
  live s (fun d => d.slotReloaded slot)

/-- FABRIC_SCRUB, R272: Every 16 FCLK the scrubber reads one tree slot and checks its parity. -/
def execFabricScrub (err : Ecc) (s : State) : Host.Outcome State Fault Refusal :=
  live s (fun d => d.fabricScrub err)

/-- VISOR_VERDICT, R240: The Visor turns the score or BASEACT into one action and egress class. -/
def execVisorVerdict (s : State) : Host.Outcome State Fault Refusal :=
  live s (fun d => d.visorVerdict)

/-- TAGGED_QUIET_EXPIRY, R480: 1,000 ms pass without a tag verdict of a profile and its TAGGED alarm clears. -/
def execTaggedQuietExpiry (k : Fin 64) (s : State) : Host.Outcome State Fault Refusal :=
  live s (fun d => d.taggedQuiet k)

/-- REORDER_RELEASE, R225: The reorder stage releases a port's packets in sequence order once their verdicts are known. -/
def execReorderRelease (n : Fin 32) (s : State) : Host.Outcome State Fault Refusal :=
  live s (fun d => d.reorderRelease n)

/-- EGRESS_ENQUEUE, R245: A packet enters its egress queue if it fits QMAX and, when marked, YMAX, or is dropped. -/
def execEgressEnqueue (s : State) : Host.Outcome State Fault Refusal :=
  live s (fun d => d.egressEnqueue)

/-- SCHEDULE_DECISION, R248: An idle port, or one whose frame in flight ends, picks the next queue by promotion, strict priority and
DRR. -/
def execScheduleDecision (n : Fin 32) (s : State) : Host.Outcome State Fault Refusal :=
  live s (fun d => d.schedule n)

/-- FRAME_RELEASE, R237: A frame's transmission ends, or it is dropped or consumed, and its cells are freed. -/
def execFrameRelease (n : Option (Fin 32)) (s : State) : Host.Outcome State Fault Refusal :=
  live s (fun d => match n with 
    | some n => d.txEnd n 
    | none => d.freeIdle)

/-- QUEUE_STARVED, R249: A queue's AGE exceeds STARVE_LIMIT and it becomes starved. -/
def execQueueStarved (n : Fin 32) (q : Fin 8) (s : State) : Host.Outcome State Fault Refusal :=
  live s (fun d => d.queueStarved n q)

/-- QUEUE_RECORD_WRITE, R247: Firmware rewrites a queue's shaper or scheduler record, resetting its credits and deficit. While firmware
serves, outside a live update's pause. -/
def execQueueRecordWrite (n : Fin 32) (q : Fin 8) (w : List Nat) (s : State) : Host.Outcome State Fault Refusal :=
  live s (fun d => d.fwDo (fun d => d.queueWrite n q w))

end Sys2Proof.Machine
end

