-- ==== Sys2Proof/Machine/ExecPort.lean ====
section
/-! DEFINITION. The meanings of the commands of the network ports (chapter 7), one for each. -/

namespace Sys2Proof.Machine

open Sys2Proof

/-- FRAME_RECEIVE, R180: A frame starts arriving at a port and is delivered to step 1 with its timestamp unless the MAC keeps it back. -/
def execFrameReceive (n : Fin 32) (data : List Byte) (pad : Nat) (s : State) : Host.Outcome State Fault Refusal :=
  live s (fun d => d.frameReceive n (padded data pad))

/-- FRAME_END, R181: A frame's end-of-frame status becomes known; a bad FCS frame is consumed, and a cut-through copy is stomped. -/
def execFrameEnd (n : Fin 32) (good : Bool) (s : State) : Host.Outcome State Fault Refusal :=
  live s (fun d => d.frameEndAll n good)

/-- PAUSE, R184: An accepted PAUSE frame loads the port's pause timer, replacing its value. -/
def execPause (n : Fin 32) (quanta : Nat) (good : Bool) (forUs : Bool) (s : State) : Host.Outcome State Fault Refusal :=
  live s (fun d => d.pauseFrame n quanta good forUs)

/-- PFC, R184: An accepted PFC frame loads the pause timer of each enabled priority. -/
def execPfc (n : Fin 32) (enable : Nat) (quanta : List Nat) (good : Bool) (forUs : Bool) (s : State) : Host.Outcome State Fault Refusal :=
  live s (fun d => d.pfcFrame n enable quanta good forUs)

/-- PAUSE_TIMER_EXPIRY, R184: A pause timer expires and transmission of the port or priority resumes within 20 ns. -/
def execPauseTimerExpiry (n : Fin 32) (i : Fin 9) (s : State) : Host.Outcome State Fault Refusal :=
  live s (fun d => d.pauseExpire n i)

/-- PAUSE_REPEAT, R186: Half of QUANTA elapses while the count stays above PRT_XON and the pause frame is sent again. -/
def execPauseRepeat (n : Fin 32) (i : Fin 9) (s : State) : Host.Outcome State Fault Refusal :=
  live s (fun d => d.pauseRepeat n i)

/-- STORM_RX_EXPIRY, R187: A pause has held a port or priority for STORMT ms; further pause frames are ignored and transmission resumes
with an alarm. -/
def execStormRxExpiry (n : Fin 32) (i : Fin 9) (s : State) : Host.Outcome State Fault Refusal :=
  live s (fun d => d.stormRx n i)

/-- STORM_RX_QUIET_EXPIRY, R187: No pause frame has arrived for STORMT ms and the port honours pause frames again. -/
def execStormRxQuietExpiry (n : Fin 32) (i : Fin 9) (s : State) : Host.Outcome State Fault Refusal :=
  live s (fun d => d.stormRxQuiet n i)

/-- STORM_TX_EXPIRY, R188: A count has stayed above PRT_XON for STORMT ms; the port stops generating pauses and sends one with quanta 0. -/
def execStormTxExpiry (n : Fin 32) (i : Fin 9) (s : State) : Host.Outcome State Fault Refusal :=
  live s (fun d => d.stormTx n i)

/-- LINK_CHANGE, R173: A port's link comes up or goes down after training, negotiation or retraining. -/
def execLinkChange (n : Fin 32) (up : Bool) (lf : Bool) (rf : Bool) (s : State) : Host.Outcome State Fault Refusal :=
  live s (fun d => d.linkChange n up lf rf)

/-- DIE_F_LOSS, R194: The Helmet detects loss of die F and asserts FAILSAFE_N within 4 µs, putting lanes into the FSMODE state. -/
def execDieFLoss (s : State) : Host.Outcome State Fault Refusal :=
  live s (fun d => d.dieFLoss)

/-- FAILSAFE_RELEASE, R195: Firmware releases FAILSAFE_N once the flow plane is in service, modes are applied and every inline pair has
link. -/
def execFailsafeRelease (s : State) : Host.Outcome State Fault Refusal :=
  live s (fun d => d.failsafeTry)

/-- PAIR_WAIT_EXPIRY, R195: An inline pair's link has not come up within the pair wait, so it no longer holds the release and is logged. -/
def execPairWaitExpiry (n : Fin 32) (s : State) : Host.Outcome State Fault Refusal :=
  live s (fun d => d.pairWait n)

end Sys2Proof.Machine
end

