-- ==== Sys2Proof/Machine/ExecPwr.lean ====
section
/-! DEFINITION. The meanings of the commands of power, saves and resets (chapter 18), one for each. -/

namespace Sys2Proof.Machine

open Sys2Proof

/-- POWER_LOOP_PERIOD, R419: Every 100 µs the power loop estimates power, updates the burst bucket and steps TCLK or memory limits. -/
def execPowerLoopPeriod (parts : List Nat) (rails : List (Nat × Option (Nat × Nat))) (s : State) : Host.Outcome State Fault Refusal :=
  live s (fun d => d.powerLoop parts rails)

/-- THERMAL_LOOP_PERIOD, R420: Every 10 ms the thermal loop lowers or raises ceilings on k and memory limits. -/
def execThermalLoopPeriod (temps : List Int) (s : State) : Host.Outcome State Fault Refusal :=
  live s (fun d => d.thermalLoop temps)

/-- HW_THROTTLE, R422: A die or stack at 100 °C is throttled by hardware until below 98 °C. -/
def execHwThrottle (part : Fin 22) (hot : Bool) (s : State) : Host.Outcome State Fault Refusal :=
  live s (fun d => d.hwThrottle part hot)

/-- HW_SHUTDOWN, R422: A die or stack reaching 110 °C is shut down as its fault. -/
def execHwShutdown (part : Fin 22) (det : Nat) (s : State) : Host.Outcome State Fault Refusal :=
  live s (fun d => d.hwShutdown part det)

/-- LOOP_LOSS_FALLBACK, R423: No power-loop update for 10 ms applies k = 8 and limits of 8. -/
def execLoopLossFallback (s : State) : Host.Outcome State Fault Refusal :=
  live s (fun d => d.loopLoss)

/-- PORST_RISE, R471: PORST_N rises: straps latch, fuses load, links and stacks train and the ROM serves the mailbox. Also while the
device is without supply or frozen. -/
def execPorstRise (b : BootIn) (s : State) : Host.Outcome State Fault Refusal :=
  always s (fun d => d.porstRise b)

/-- SAG_TRIGGER, R464: VMAIN, a group PGOOD, XTAL25 loss or PORST_N fall freezes the device and starts the save. Also while the device
is without supply or frozen. -/
def execSagTrigger (cause : Fin 5) (s : State) : Host.Outcome State Fault Refusal :=
  always s (fun d => d.sagTrigger cause)

/-- SAVE_DONE, R465: The save controller finishes writing the save image into MRAM. Also while the device is without supply or frozen. -/
def execSaveDone (cut : Option Nat) (s : State) : Host.Outcome State Fault Refusal :=
  always s (fun d => d.saveDone cut)

/-- SAG_RESTART, R467: After 100 ms of good supplies the Helmet restarts the device as a PORST_N pulse. Also while the device is without
supply or frozen. -/
def execSagRestart (b : BootIn) (s : State) : Host.Outcome State Fault Refusal :=
  always s (fun d => d.sagRestart b)

/-- PWR_WARM, R470: A write of "WARM" to PWR_WARM runs the save and a warm reset. A write of the PF. -/
def execPwrWarm (v : Word) (s : State) : Host.Outcome State Fault Refusal :=
  live s (fun d => d.fnDo none (fun d => d.pwrWarm v.toNat))

/-- JTAG_WARM_RESET, R470: A JTAG warm-reset request with debug open runs the save and a warm reset. -/
def execJtagWarmReset (s : State) : Host.Outcome State Fault Refusal :=
  live s (fun d => d.jtagWarm)

/-- PGOOD_T_FALL, R456: A fall of PGOOD_Td stops the die's heartbeat and is handled as a die fault. -/
def execPgoodTFall (k : Fin 4) (det : Nat) (s : State) : Host.Outcome State Fault Refusal :=
  live s (fun d => d.pgoodFall k det)

/-- VHOLD_RISE, R491: VHOLD rises through 6.0 V and then 10.8 V, powering the Helmet with FAILSAFE_N low and DARK, and letting a pending
rising edge of PORST_N latch the straps at the later of the two. Also while the device is without supply or frozen. -/
def execVholdRise (b : BootIn) (s : State) : Host.Outcome State Fault Refusal :=
  always s (fun d => d.vholdRise b)

end Sys2Proof.Machine
end

