-- ==== Sys2Proof/Machine/ExecQueue.lean ====
section
/-! DEFINITION. The meanings of the commands of the Catcher, the priority queues and the locks (chapter 6), one for each. -/

namespace Sys2Proof.Machine

open Sys2Proof

/-- CATCHER_RECORD, R150: A source places a completion record into its FIFO, holding it while the FIFO is full. -/
def execCatcherRecord (r : CatRec) (s : State) : Host.Outcome State Fault Refusal :=
  live s (fun d => d.catRecord r)

/-- CATCHER_TAKE, R151: Each NCLK the Catcher takes one head record by its drain pointer, writes it to a ring and forwards POST records. -/
def execCatcherTake (s : State) : Host.Outcome State Fault Refusal :=
  live s (fun d => d.catTakeOne)

/-- CAT_RTAIL_WRITE, R156: A write of CAT_RTAIL advances a ring's tail, or is ignored if it would pass the head. For a requester whose
accesses reach the device. -/
def execCatRtailWrite (who : Req) (p : Fin 33) (v : Word) (s : State) : Host.Outcome State Fault Refusal :=
  live s (fun d => d.writeDo who (catBase + 0x404 + 0x10 * p) true (fun d => d.catRtail who p v.toNat))

/-- PQ_CFG_WRITE, R158: Firmware writes PQ_CFG, emptying the queue and clearing its events and overrun count. While firmware serves,
outside a live update's pause. -/
def execPqCfgWrite (n : Fin 64) (en : Bool) (owner : Nat) (depth : Nat) (hiwater : Nat) (s : State) : Host.Outcome State Fault Refusal :=
  live s (fun d => d.fwDo (fun d => d.pqCfg n en owner depth hiwater))

/-- PQ_PUSHCTL, R170: A write of PQ_PUSHCTL pushes the requester's staged entry at its level, or overruns a full queue. For a requester
whose accesses reach the device. -/
def execPqPushctl (who : Req) (n : Fin 64) (level : Nat) (s : State) : Host.Outcome State Fault Refusal :=
  live s (fun d => d.writeDo who (pqBase + 0x100 * n + 0x14) true (fun d => d.pqPushCtl who n level))

/-- PQ_POPCTL, R170: A read of PQ_POPCTL pops the oldest highest-level entry behind existing waiters, or returns EMPTY. For a requester
whose accesses reach the device. -/
def execPqPopctl (who : Req) (n : Fin 64) (s : State) : Host.Outcome State Fault Refusal :=
  live s (fun d => d.hostDo who (fun d => d.pqPop who n))

/-- PQ_WAITER_POP, R162: An entry lands in a queue with waiters and the oldest waiter pops it in the next NCLK. -/
def execPqWaiterPop (n : Fin 64) (s : State) : Host.Outcome State Fault Refusal :=
  live s (fun d => d.waiterServe n)

/-- LCK_ACQ_READ, R165: A read of LCK_ACQ acquires the lock for the reading domain if it is free. For a requester whose accesses reach
the device. -/
def execLckAcqRead (who : Req) (n : Fin 256) (s : State) : Host.Outcome State Fault Refusal :=
  live s (fun d => d.hostDo who (fun d => d.lckAcqRead who n))

/-- LCK_ACQ_WRITE, R166: A write of LCK_ACQ by the owning domain releases the lock; any other write is ignored and counted. For a
requester whose accesses reach the device. -/
def execLckAcqWrite (who : Req) (n : Fin 256) (s : State) : Host.Outcome State Fault Refusal :=
  live s (fun d => d.writeDo who (lckBase + 4 * n) true (fun d => d.lckAcqWrite who n))

/-- LCK_FORCE, R171: A firmware write of LCK_FORCE releases the named lock by force. For a requester whose accesses reach the device. -/
def execLckForce (who : Req) (n : Fin 256) (s : State) : Host.Outcome State Fault Refusal :=
  live s (fun d => d.writeDo who (lckBase + 0x800) true (fun d => d.lckForceWrite who n))

end Sys2Proof.Machine
end

