-- ==== Sys2Proof/Machine/ExecSec.lean ====
section
/-! DEFINITION. The meanings of the commands of security (chapter 17), one for each. -/

namespace Sys2Proof.Machine

open Sys2Proof

/-- PROVISION, R439: Lifecycle PROVISION burns PROV. -/
def execProvision (via : Via) (tok : Option (List Byte)) (s : State) : Host.Outcome State Fault Refusal :=
  live s (fun d => d.writeVia via 0x5001 0 (leBytes 4 1) tok true)

/-- DEPLOY, R440: Lifecycle DEPLOY burns a DEPLOY bit, rekeys every gang and scrubs every share. -/
def execDeploy (via : Via) (tok : Option (List Byte)) (s : State) : Host.Outcome State Fault Refusal :=
  live s (fun d => d.writeVia via 0x5001 0 (leBytes 4 2) tok true)

/-- RETURN, R440: Lifecycle RETURN burns a RETURN bit, rekeys every gang and scrubs every share. -/
def execReturnDevice (via : Via) (tok : Option (List Byte)) (s : State) : Host.Outcome State Fault Refusal :=
  live s (fun d => d.writeVia via 0x5001 0 (leBytes 4 3) tok true)

/-- DECOMMISSION, R440: Lifecycle DECOMMISSION scrubs everything, burns DECOM and the UDS, and holds the device in ROM. -/
def execDecommission (via : Via) (tok : Option (List Byte)) (s : State) : Host.Outcome State Fault Refusal :=
  live s (fun d => d.writeVia via 0x5001 0 (leBytes 4 4) tok true)

/-- COMMIT_SVN, R439: Raises the SVN floor to the running SVN. -/
def execCommitSvn (via : Via) (tok : Option (List Byte)) (s : State) : Host.Outcome State Fault Refusal :=
  live s (fun d => d.writeVia via 0x5001 0 (leBytes 4 0x10) tok true)

/-- REKEY, R432: Rekeys a gang: resets members, increments KGEN, frees bundles, scrubs and loads new keys. -/
def execRekey (via : Via) (g : Fin 32) (tok : Option (List Byte)) (s : State) : Host.Outcome State Fault Refusal :=
  live s (fun d => d.writeVia via 0x5001 0 (leBytes 4 (0x10000 + g)) tok true)

/-- REVOKE, R439: Revokes a firmware-signer slot. -/
def execRevoke (via : Via) (k : Fin 4) (tok : Option (List Byte)) (s : State) : Host.Outcome State Fault Refusal :=
  live s (fun d => d.writeVia via 0x5001 0 (leBytes 4 (0x20000 + k)) tok true)

/-- MACSEC_KEY_ROW, R450: A write of a MACsec key row installs, replaces or deletes an association. -/
def execMacsecKeyRow (via : Via) (row : List Byte) (tok : Option (List Byte)) (s : State) : Host.Outcome State Fault Refusal :=
  live s (fun d => d.writeVia via 0x5040 2 row tok true)

/-- PNWARN_HANDLE, R451: On PNWARN firmware selects the next transmit association or raises an alarm. While firmware serves, outside a
live update's pause. -/
def execPnwarnHandle (n : Fin 32) (s : State) : Host.Outcome State Fault Refusal :=
  live s (fun d => d.fwDo (fun d => d.pnwarn n))

/-- GET_VERSION, R435: SPDM GET_VERSION request. While the link is up. -/
def execGetVersion (req : List Byte) (s : State) : Host.Outcome State Fault Refusal :=
  live s (fun d => d.linkDo (fun d => d.getVersion req))

/-- GET_CAPABILITIES, R435: SPDM GET_CAPABILITIES request. While the link is up. -/
def execGetCapabilities (req : List Byte) (s : State) : Host.Outcome State Fault Refusal :=
  live s (fun d => d.linkDo (fun d => d.getCapabilities req))

/-- NEGOTIATE_ALGORITHMS, R435: SPDM algorithm negotiation, refusing unsupported choices. While the link is up. -/
def execNegotiateAlgorithms (req : List Byte) (s : State) : Host.Outcome State Fault Refusal :=
  live s (fun d => d.linkDo (fun d => d.negotiate req))

/-- GET_DIGESTS, R435: SPDM GET_DIGESTS request for the certificate slots. While the link is up. -/
def execGetDigests (sid : Option Nat) (req : List Byte) (s : State) : Host.Outcome State Fault Refusal :=
  live s (fun d => d.linkDo (fun d => d.getDigests sid req))

/-- GET_CERTIFICATE, R435: SPDM GET_CERTIFICATE returns the slot 0 chain. While the link is up. -/
def execGetCertificate (sid : Option Nat) (req : List Byte) (s : State) : Host.Outcome State Fault Refusal :=
  live s (fun d => d.linkDo (fun d => d.getCertificate sid req))

/-- CHALLENGE, R435: SPDM CHALLENGE signed with the Alias key. While the link is up. -/
def execChallenge (sid : Option Nat) (req : List Byte) (s : State) : Host.Outcome State Fault Refusal :=
  live s (fun d => d.linkDo (fun d => d.spdmChallenge sid req))

/-- GET_MEASUREMENTS, R436: SPDM GET_MEASUREMENTS reports measurement indices 1 to 37. While the link is up. -/
def execGetMeasurements (sid : Option Nat) (req : List Byte) (s : State) : Host.Outcome State Fault Refusal :=
  live s (fun d => d.linkDo (fun d => d.getMeasurements sid req))

/-- KEY_EXCHANGE, R435: SPDM KEY_EXCHANGE opens a session, refused beyond four. While the link is up. -/
def execKeyExchange (sid : Option Nat) (req : List Byte) (s : State) : Host.Outcome State Fault Refusal :=
  live s (fun d => d.linkDo (fun d => d.keyExchange sid req))

/-- FINISH, R435: SPDM FINISH completes a session handshake. While the link is up. -/
def execFinish (sid : Option Nat) (req : List Byte) (s : State) : Host.Outcome State Fault Refusal :=
  live s (fun d => d.linkDo (fun d => d.spdmFinish sid req))

/-- HEARTBEAT_SPDM, R435: SPDM HEARTBEAT within a session. While the link is up. -/
def execHeartbeatSpdm (sid : Option Nat) (req : List Byte) (s : State) : Host.Outcome State Fault Refusal :=
  live s (fun d => d.linkDo (fun d => d.spdmHeartbeat sid req))

/-- END_SESSION, R435: SPDM END_SESSION closes a session. While the link is up. -/
def execEndSession (sid : Option Nat) (req : List Byte) (s : State) : Host.Outcome State Fault Refusal :=
  live s (fun d => d.linkDo (fun d => d.endSession sid req))

/-- VENDOR_DEFINED_REQUEST, R435: Returns the Alias ML-DSA-87 signature over the last signed transcript. While the link is up. -/
def execVendorDefinedRequest (sid : Option Nat) (req : List Byte) (s : State) : Host.Outcome State Fault Refusal :=
  live s (fun d => d.linkDo (fun d => d.vendorRequest sid req))

/-- DEBUG_UNLOCK, R442: A signed reply to the TAP challenge opens debug access. -/
def execDebugUnlock (reply : List Byte) (s : State) : Host.Outcome State Fault Refusal :=
  live s (fun d => d.debugUnlock reply)

/-- SEC_MEASSEL_WRITE, R453: A write of SEC_MEASSEL copies a measurement into SEC_MEASDATA. For the PF, firmware or the open debug port;
a VF has no such register. -/
def execSecMeasselWrite (who : Req) (ix : Fin 64) (s : State) : Host.Outcome State Fault Refusal :=
  live s (fun d => d.blockWriteDo who (secBase + 0x40) (fun d => d.measSel ix))

/-- SEC_PKSEL_WRITE, R453: A write of SEC_PKSEL copies a gang's public keys into SEC_PKDATA. For the PF, firmware or the open debug
port; a VF has no such register. -/
def execSecPkselWrite (who : Req) (p : Fin 32) (s : State) : Host.Outcome State Fault Refusal :=
  live s (fun d => d.blockWriteDo who (secBase + 0x200) (fun d => d.pkSel p))

/-- TAP_RESET, R497: The JTAG TAP is reset by TRST_N or five TCK cycles with TMS high, resetting the debug port and releasing every lock
of owner code 63 with BROKEN. -/
def execTapReset (s : State) : Host.Outcome State Fault Refusal :=
  live s (fun d => d.tapReset)

end Sys2Proof.Machine
end

