-- ==== Sys2Proof/Machine/ExecTele.lean ====
section
/-! DEFINITION. The meanings of the commands of telemetry (chapter 19), one for each. -/

namespace Sys2Proof.Machine

open Sys2Proof

/-- TELEMETRY_RECORD, R485: A record is offered to each up path and enters its queue, removing lower-ranked records when full. -/
def execTelemetryRecord (s : State) : Host.Outcome State Fault Refusal :=
  live s (fun d => d.teleRecord)

/-- ALARM_CHANGE, R480: An alarm identity changes state and its slot is updated in place. For an identity of the table. -/
def execAlarmChange (code : Nat) (inst : Nat) (set : Bool) (detail : Nat) (s : State) : Host.Outcome State Fault Refusal :=
  live s (fun d => if alarmExists code inst then d.alarmSet code inst set detail (decide (code = 4) && set) else d)

/-- ALARM_SEND, R484: A changed alarm slot is sent on every up path ahead of other records, as EMCY on CAN. -/
def execAlarmSend (s : State) : Host.Outcome State Fault Refusal :=
  live s (fun d => d.alarmSend)

/-- RECV_BUFFER_COMPLETE, R483: A telemetry RECV buffer completes when full, after 10 ms, or on an alarm. -/
def execRecvBufferComplete (q : Fin 16) (s : State) : Host.Outcome State Fault Refusal :=
  live s (fun d => d.recvComplete q)

/-- SUMMARY_PERIOD, R486: Each summary period every path sends its summary record. -/
def execSummaryPeriod (s : State) : Host.Outcome State Fault Refusal :=
  live s (fun d => d.summaryPeriod)

/-- PATH_UP, R486: A telemetry path comes up and sends a summary and every standing alarm. -/
def execPathUp (p : Fin 4) (s : State) : Host.Outcome State Fault Refusal :=
  live s (fun d => d.pathRise p)

/-- PATH_DOWN, R482: A telemetry path stops being up (last RECV descriptor used or BME cleared, management link down, CAN stopped or
bus-off, USB suspended) and from then on is offered nothing and holds nothing. -/
def execPathDown (p : Fin 4) (s : State) : Host.Outcome State Fault Refusal :=
  live s (fun d => d.pathFall p)

/-- CAN_ERROR_STATE_CHANGE, R390: The CAN controller enters or leaves error-passive or bus-off, changing bit 4 of 0x1001 and the CAN
telemetry path. -/
def execCanErrorStateChange (passive : Bool) (busOff : Bool) (s : State) : Host.Outcome State Fault Refusal :=
  live s (fun d => d.canError passive busOff)

/-- MGMT_PORT_FRAME, R196: A frame arrives on the management port and the management complex answers ARP or ND, honours a PAUSE, or
passes PTP to the servo. -/
def execMgmtPortFrame (fr : List Byte) (s : State) : Host.Outcome State Fault Refusal :=
  live s (fun d => d.mgmtFrame fr)

/-- SLOW_PATH_TRANSMIT, R177: Firmware on the management complex sends a frame out of a network port: an ARP or ND reply for an endpoint
address, or a PTP Delay_Req, Pdelay_Req or Pdelay_Resp marked for transmit stamping. While firmware serves, outside a live update's
pause. -/
def execSlowPathTransmit (n : Fin 32) (q : Fin 8) (fr : List Byte) (mark : Option (Nat × Option TStamp)) (s : State) : Host.Outcome State Fault Refusal :=
  live s (fun d => d.fwDo (fun d => d.slowSend n q fr mark))

end Sys2Proof.Machine
end

