-- ==== Sys2Proof/Machine/ExecTime.lean ====
section
/-! DEFINITION. The meanings of the commands of the time unit (chapter 11), one for each. -/

namespace Sys2Proof.Machine

open Sys2Proof

/-- REF_LOSS, R283: Loss of REF10M_IN is detected within 2 µs and TUCLK changes to XTAL25. -/
def execRefLoss (s : State) : Host.Outcome State Fault Refusal :=
  timeLive s (fun d => d.refLoss)

/-- REF_RETURN, R283: REF10M_IN has stayed in range for 10 s and TUCLK changes back to it. -/
def execRefReturn (s : State) : Host.Outcome State Fault Refusal :=
  timeLive s (fun d => d.refReturn)

/-- PTP_MEASUREMENT, R285: A firmware write of TMU_MEAS_HI submits a PTP offset that qualifies, moves the state, slews or schedules a
step. For a requester whose accesses reach the device. -/
def execPtpMeasurement (who : Req) (off : Nat) (epoch : Nat) (extra : Nat) (cls : Nat) (s : State) : Host.Outcome State Fault Refusal :=
  live s (fun d => d.writeDo who (tmuBase + 0x74) true (fun d => d.ptpMeasurement who off epoch extra cls))

/-- PPS_IN_EDGE, R287: A rising edge on PPS_IN is measured as a phase offset or rejected. -/
def execPpsInEdge (t : Nat) (s : State) : Host.Outcome State Fault Refusal :=
  timeLive s (fun d => d.ppsIn t)

/-- IRIG_FRAME, R288: An IRIG-B frame is decoded and measured at the next on-time point. -/
def execIrigFrame (t : Nat) (date : IrigDate) (offMin : Int) (ok : Bool) (q : Nat) (leap : Int) (s : State) : Host.Outcome State Fault Refusal :=
  timeLive s (fun d => d.irigFrame t { toIrigDate := date, offMin := offMin, ok := ok, q := q, leap := leap })

/-- SOURCE_LOSS, R285: A source meets its loss condition, loses qualification and the selection changes. -/
def execSourceLoss (src : Fin 4) (s : State) : Host.Outcome State Fault Refusal :=
  timeLive s (fun d => d.sourceLoss src)

/-- TIME_SET, R289: Firmware sets the time from dictionary entry 0x2021 as a single measurement with SOURCE 4. While firmware serves,
outside a live update's pause. -/
def execTimeSet (q : Nat) (bound : Nat) (s : State) : Host.Outcome State Fault Refusal :=
  live s (fun d => d.fwDo (fun d => (d.timeSet q bound).1))

/-- STEP_LAND, R294: A scheduled step lands on a second boundary: the counter jumps by Δ, EPOCH increments and the pulse is omitted. -/
def execStepLand (s : State) : Host.Outcome State Fault Refusal :=
  timeLive s (fun d => d.stepLand)

/-- ERROR_BOUND_UPDATE, R282: Each millisecond the error bound is recomputed and HOLDOVER passes to FREERUN above TMU_FRLIMIT. -/
def execErrorBoundUpdate (s : State) : Host.Outcome State Fault Refusal :=
  timeLive s (fun d => d.errorBound)

/-- PPS_OUT_PULSE, R295: PPS_OUT rises at a second boundary of reported time, offset by TMU_PPSOADJ. -/
def execPpsOutPulse (s : State) : Host.Outcome State Fault Refusal :=
  timeLive s (fun d => d.ppsOut)

/-- PPS_OUT_END, R295: PPS_OUT falls after WIDTH milliseconds. -/
def execPpsOutEnd (s : State) : Host.Outcome State Fault Refusal :=
  timeLive s (fun d => d.ppsOutEnd)

/-- LEAP_SECOND, R279: TMU_UTCOFF changes at the end of the last UTC second of a day that a pending leap second names. -/
def execLeapSecond (s : State) : Host.Outcome State Fault Refusal :=
  timeLive s (fun d => d.leapSecond)

/-- TMU_NOW_READ, R297: A read of TMU_NOW0 latches a same-TUCLK snapshot of time, quality, EPOCH and error bound. For a requester whose
accesses reach the device. -/
def execTmuNowRead (who : Req) (s : State) : Host.Outcome State Fault Refusal :=
  live s (fun d => d.hostDo who (fun d => d.nowRead who))

end Sys2Proof.Machine
end

