-- ==== Sys2Proof/Machine/Dispatch.lean ====
section
/-! DEFINITION. The dispatch: one arm per command, each one call of its meaning. -/

namespace Sys2Proof.Machine

open Sys2Proof

def exec (i : Instr) (s : State) : Host.Outcome State Fault Refusal :=
  match i with
  | .registerWrite who off len data => Sys2Proof.Machine.execRegisterWrite who off len data s
  | .pairLowRead who off len => Sys2Proof.Machine.execPairLowRead who off len s
  | .pairLowWrite who off data => Sys2Proof.Machine.execPairLowWrite who off data s
  | .pairHighWrite who off data => Sys2Proof.Machine.execPairHighWrite who off data s
  | .readTimeout fn isWrite => Sys2Proof.Machine.execReadTimeout fn isWrite s
  | .frameReceive n data pad => Sys2Proof.Machine.execFrameReceive n data pad s
  | .frameEnd n good => Sys2Proof.Machine.execFrameEnd n good s
  | .pause n quanta good forUs => Sys2Proof.Machine.execPause n quanta good forUs s
  | .pfc n enable quanta good forUs => Sys2Proof.Machine.execPfc n enable quanta good forUs s
  | .pauseTimerExpiry n ix => Sys2Proof.Machine.execPauseTimerExpiry n ix s
  | .pauseRepeat n ix => Sys2Proof.Machine.execPauseRepeat n ix s
  | .stormRxExpiry n ix => Sys2Proof.Machine.execStormRxExpiry n ix s
  | .stormRxQuietExpiry n ix => Sys2Proof.Machine.execStormRxQuietExpiry n ix s
  | .stormTxExpiry n ix => Sys2Proof.Machine.execStormTxExpiry n ix s
  | .linkChange n up lf rf => Sys2Proof.Machine.execLinkChange n up lf rf s
  | .dieFLoss => Sys2Proof.Machine.execDieFLoss s
  | .failsafeRelease => Sys2Proof.Machine.execFailsafeRelease s
  | .pairWaitExpiry n => Sys2Proof.Machine.execPairWaitExpiry n s
  | .dispatchTake => Sys2Proof.Machine.execDispatchTake s
  | .parseResult pipe => Sys2Proof.Machine.execParseResult pipe s
  | .classify => Sys2Proof.Machine.execClassify s
  | .reinject core port k => Sys2Proof.Machine.execReinject core port k s
  | .puntRelease core k => Sys2Proof.Machine.execPuntRelease core s k
  | .templateBuild core n recd => Sys2Proof.Machine.execTemplateBuild core n recd s
  | .versionCommit who v objs => Sys2Proof.Machine.execVersionCommit who v objs s
  | .versionRetire => Sys2Proof.Machine.execVersionRetire s
  | .sweep => Sys2Proof.Machine.execSweep s
  | .sweepEnd => Sys2Proof.Machine.execSweepEnd s
  | .bind => Sys2Proof.Machine.execBind s
  | .agingScan => Sys2Proof.Machine.execAgingScan s
  | .flowEntryFwWrite ix static entValid entity valid more => Sys2Proof.Machine.execFlowEntryFwWrite ix static entValid entity valid s more
  | .entityRangeAssign p first n => Sys2Proof.Machine.execEntityRangeAssign p first n s
  | .flwFidxWrite who ix => Sys2Proof.Machine.execFlwFidxWrite who ix s
  | .flwEidxWrite who e => Sys2Proof.Machine.execFlwEidxWrite who e s
  | .police => Sys2Proof.Machine.execPolice s
  | .policerClassWrite c cinc pinc cbs pbs en resetFull => Sys2Proof.Machine.execPolicerClassWrite c cinc pinc cbs pbs en resetFull s
  | .gntPidxCopy who c op => Sys2Proof.Machine.execGntPidxCopy who c op s
  | .scoreAdmit => Sys2Proof.Machine.execScoreAdmit s
  | .dropEnd e => Sys2Proof.Machine.execDropEnd e s
  | .scoreGrant => Sys2Proof.Machine.execScoreGrant s
  | .scoreDeliver err => Sys2Proof.Machine.execScoreDeliver s err
  | .slotReloadDone slot => Sys2Proof.Machine.execSlotReloadDone slot s
  | .fabricScrub err => Sys2Proof.Machine.execFabricScrub err s
  | .visorVerdict => Sys2Proof.Machine.execVisorVerdict s
  | .taggedQuietExpiry k => Sys2Proof.Machine.execTaggedQuietExpiry k s
  | .reorderRelease n => Sys2Proof.Machine.execReorderRelease n s
  | .egressEnqueue => Sys2Proof.Machine.execEgressEnqueue s
  | .scheduleDecision n => Sys2Proof.Machine.execScheduleDecision n s
  | .frameRelease n => Sys2Proof.Machine.execFrameRelease n s
  | .queueStarved n q => Sys2Proof.Machine.execQueueStarved n q s
  | .queueRecordWrite n q w => Sys2Proof.Machine.execQueueRecordWrite n q w s
  | .refLoss => Sys2Proof.Machine.execRefLoss s
  | .refReturn => Sys2Proof.Machine.execRefReturn s
  | .ptpMeasurement who off epoch extra cls => Sys2Proof.Machine.execPtpMeasurement who off epoch extra cls s
  | .ppsInEdge t => Sys2Proof.Machine.execPpsInEdge t s
  | .irigFrame t date offMin ok q leap => Sys2Proof.Machine.execIrigFrame t date offMin ok q leap s
  | .sourceLoss src => Sys2Proof.Machine.execSourceLoss src s
  | .timeSet q bound => Sys2Proof.Machine.execTimeSet q bound s
  | .stepLand => Sys2Proof.Machine.execStepLand s
  | .errorBoundUpdate => Sys2Proof.Machine.execErrorBoundUpdate s
  | .ppsOutPulse => Sys2Proof.Machine.execPpsOutPulse s
  | .ppsOutEnd => Sys2Proof.Machine.execPpsOutEnd s
  | .leapSecond => Sys2Proof.Machine.execLeapSecond s
  | .tmuNowRead who => Sys2Proof.Machine.execTmuNowRead who s
  | .snapshotOpen g => Sys2Proof.Machine.execSnapshotOpen g s
  | .snapshotClose g => Sys2Proof.Machine.execSnapshotClose g s
  | .huddleTake => Sys2Proof.Machine.execHuddleTake s
  | .filingWrite => Sys2Proof.Machine.execFilingWrite s
  | .resultPost => Sys2Proof.Machine.execResultPost s
  | .resultWriteback g ecc => Sys2Proof.Machine.execResultWriteback g ecc s
  | .resultDeadline g => Sys2Proof.Machine.execResultDeadline g s
  | .partitionStale p => Sys2Proof.Machine.execPartitionStale p s
  | .catcherRecord r => Sys2Proof.Machine.execCatcherRecord r s
  | .catcherTake => Sys2Proof.Machine.execCatcherTake s
  | .catRtailWrite who p v => Sys2Proof.Machine.execCatRtailWrite who p v s
  | .pqCfgWrite n en owner depth hiwater => Sys2Proof.Machine.execPqCfgWrite n en owner depth hiwater s
  | .pqPushctl who n level => Sys2Proof.Machine.execPqPushctl who n level s
  | .pqPopctl who n => Sys2Proof.Machine.execPqPopctl who n s
  | .pqWaiterPop n => Sys2Proof.Machine.execPqWaiterPop n s
  | .lckAcqRead who n => Sys2Proof.Machine.execLckAcqRead who n s
  | .lckAcqWrite who n => Sys2Proof.Machine.execLckAcqWrite who n s
  | .lckForce who n => Sys2Proof.Machine.execLckForce who n s
  | .pass c ecc => Sys2Proof.Machine.execPass c ecc s
  | .walk c ecc => Sys2Proof.Machine.execWalk c ecc s
  | .link c ecc => Sys2Proof.Machine.execLink c ecc s
  | .move c ecc => Sys2Proof.Machine.execMove c ecc s
  | .waitq c ecc => Sys2Proof.Machine.execWaitq c ecc s
  | .signal c ecc => Sys2Proof.Machine.execSignal c ecc s
  | .lock c ecc => Sys2Proof.Machine.execLock c ecc s
  | .jump c ecc => Sys2Proof.Machine.execJump c ecc s
  | .nop c ecc => Sys2Proof.Machine.execNop c ecc s
  | .endProgram c ecc => Sys2Proof.Machine.execEndProgram c ecc s
  | .swap c ecc => Sys2Proof.Machine.execSwap c s ecc
  | .front c ecc => Sys2Proof.Machine.execFront c s ecc
  | .bankExchange c => Sys2Proof.Machine.execBankExchange c s
  | .passCommit c => Sys2Proof.Machine.execPassCommit c s
  | .emitDrainError c arr => Sys2Proof.Machine.execEmitDrainError c arr s
  | .moveComplete c => Sys2Proof.Machine.execMoveComplete c s
  | .linkComplete c k => Sys2Proof.Machine.execLinkComplete c k s
  | .waitqTimeout c => Sys2Proof.Machine.execWaitqTimeout c s
  | .lockRetry c => Sys2Proof.Machine.execLockRetry c s
  | .lockTimeout c => Sys2Proof.Machine.execLockTimeout c s
  | .arrayFault c arr col ecc => Sys2Proof.Machine.execArrayFault c arr col s ecc
  | .tclkStep k => Sys2Proof.Machine.execTclkStep k s
  | .tenCtrlRun who c => Sys2Proof.Machine.execTenCtrlRun who c s
  | .tenCtrlPreempt who c => Sys2Proof.Machine.execTenCtrlPreempt who c s
  | .preemptSaved c => Sys2Proof.Machine.execPreemptSaved c s
  | .tenCtrlResume who c => Sys2Proof.Machine.execTenCtrlResume who c s
  | .tenCtrlReset who c => Sys2Proof.Machine.execTenCtrlReset who c s
  | .tenCtrlLock who c => Sys2Proof.Machine.execTenCtrlLock who c s
  | .stagingPop p => Sys2Proof.Machine.execStagingPop p s
  | .stagingReply ix err lost => Sys2Proof.Machine.execStagingReply ix err lost s
  | .granuleScrubDone => Sys2Proof.Machine.execGranuleScrubDone s
  | .bundleInstallRun data => Sys2Proof.Machine.execBundleInstallRun data s
  | .bundleCommit => Sys2Proof.Machine.execBundleCommit s
  | .dieHeartbeatLost k det => Sys2Proof.Machine.execDieHeartbeatLost k det s
  | .linkRetrainFail k det => Sys2Proof.Machine.execLinkRetrainFail k det s
  | .thermalTrip k det => Sys2Proof.Machine.execThermalTrip k det s
  | .hbmErrorBurst n det => Sys2Proof.Machine.execHbmErrorBurst n det s
  | .hbmStackFail n det => Sys2Proof.Machine.execHbmStackFail n det s
  | .modelStoreStackFail n => Sys2Proof.Machine.execModelStoreStackFail n s
  | .coreOutOfService c det => Sys2Proof.Machine.execCoreOutOfService c det s
  | .remapStart => Sys2Proof.Machine.execRemapStart s
  | .remapRestart => Sys2Proof.Machine.execRemapRestart s
  | .timeShareSwitch c => Sys2Proof.Machine.execTimeShareSwitch c s
  | .errorLogTake => Sys2Proof.Machine.execErrorLogTake s
  | .erlCtlClear who mask => Sys2Proof.Machine.execErlCtlClear who mask s
  | .erlIdxWrite who k => Sys2Proof.Machine.execErlIdxWrite who k s
  | .mbxRing fn => Sys2Proof.Machine.execMbxRing fn s
  | .mbxRack fn => Sys2Proof.Machine.execMbxRack fn s
  | .mbxTake fn => Sys2Proof.Machine.execMbxTake fn s
  | .messageSegment fn => Sys2Proof.Machine.execMessageSegment fn s
  | .hello fn => Sys2Proof.Machine.execHello fn s
  | .fwLoad data => Sys2Proof.Machine.execFwLoad data s
  | .fwUpdate data => Sys2Proof.Machine.execFwUpdate data s
  | .dictRead fn => Sys2Proof.Machine.execDictRead fn s
  | .dictWrite fn ok => Sys2Proof.Machine.execDictWrite fn ok s
  | .bundleInstall => Sys2Proof.Machine.execBundleInstall s
  | .bundleStatus => Sys2Proof.Machine.execBundleStatus s
  | .bundleFree => Sys2Proof.Machine.execBundleFree s
  | .ptnReset fn => Sys2Proof.Machine.execPtnReset fn s
  | .coreCtrlSetPc n => Sys2Proof.Machine.execCoreCtrlSetPc n s
  | .coreCtrlSetSavebase n => Sys2Proof.Machine.execCoreCtrlSetSavebase n s
  | .coreCtrlRun n => Sys2Proof.Machine.execCoreCtrlRun n s
  | .coreCtrlPreempt n => Sys2Proof.Machine.execCoreCtrlPreempt n s
  | .coreCtrlResume n => Sys2Proof.Machine.execCoreCtrlResume n s
  | .coreCtrlReset n => Sys2Proof.Machine.execCoreCtrlReset n s
  | .directGrant => Sys2Proof.Machine.execDirectGrant s
  | .dmaqCreate fn => Sys2Proof.Machine.execDmaqCreate fn s
  | .dmaqDestroy fn => Sys2Proof.Machine.execDmaqDestroy fn s
  | .sqDoorbell fn q tail => Sys2Proof.Machine.execSqDoorbell fn q tail s
  | .cqHeadWrite fn q head => Sys2Proof.Machine.execCqHeadWrite fn q head s
  | .dmaWrite n q desc data hostErr shareErr => Sys2Proof.Machine.execDmaWrite n q desc data hostErr shareErr s
  | .dmaRecv q desc => Sys2Proof.Machine.execDmaRecv q desc s
  | .dmaComplete fn q => Sys2Proof.Machine.execDmaComplete fn q s
  | .msixDeliver fn v => Sys2Proof.Machine.execMsixDeliver fn v s
  | .pcieHotReset => Sys2Proof.Machine.execPcieHotReset s
  | .pfFlr => Sys2Proof.Machine.execPfFlr s
  | .vfFlr n => Sys2Proof.Machine.execVfFlr n s
  | .perst => Sys2Proof.Machine.execPerst s
  | .settingApply => Sys2Proof.Machine.execSettingApply s
  | .storeSettings via sb tok ok => Sys2Proof.Machine.execStoreSettings via sb tok ok s
  | .restoreDefaults via sb tok => Sys2Proof.Machine.execRestoreDefaults via sb tok s
  | .tokenStage via raw => Sys2Proof.Machine.execTokenStage via raw s
  | .tokenExpiry via => Sys2Proof.Machine.execTokenExpiry via s
  | .sdoDownload f ok => Sys2Proof.Machine.execSdoDownload f ok s
  | .sdoUpload f => Sys2Proof.Machine.execSdoUpload f s
  | .sdoTimeout node => Sys2Proof.Machine.execSdoTimeout node s
  | .usdoTransfer node r ok => Sys2Proof.Machine.execUsdoTransfer node r ok s
  | .nmtStart => Sys2Proof.Machine.execNmtStart s
  | .nmtStop => Sys2Proof.Machine.execNmtStop s
  | .nmtEnterPreOperational => Sys2Proof.Machine.execNmtEnterPreOperational s
  | .nmtResetCommunication => Sys2Proof.Machine.execNmtResetCommunication s
  | .nmtResetNode => Sys2Proof.Machine.execNmtResetNode s
  | .heartbeat => Sys2Proof.Machine.execHeartbeat s
  | .udpRead src raw => Sys2Proof.Machine.execUdpRead src raw s
  | .udpWrite src raw ok => Sys2Proof.Machine.execUdpWrite src raw ok s
  | .udpSessionTimeout src => Sys2Proof.Machine.execUdpSessionTimeout src s
  | .usbRead index sb seg len => Sys2Proof.Machine.execUsbRead index sb seg len s
  | .usbWrite index sb seg data => Sys2Proof.Machine.execUsbWrite index sb seg data s
  | .usbWriteLast index sb seg data ack ok => Sys2Proof.Machine.execUsbWriteLast index sb seg data ack ok s
  | .usbResult => Sys2Proof.Machine.execUsbResult s
  | .usbBusReset => Sys2Proof.Machine.execUsbBusReset s
  | .provision via tok => Sys2Proof.Machine.execProvision via tok s
  | .deploy via tok => Sys2Proof.Machine.execDeploy via tok s
  | .returnDevice via tok => Sys2Proof.Machine.execReturnDevice via tok s
  | .decommission via tok => Sys2Proof.Machine.execDecommission via tok s
  | .commitSvn via tok => Sys2Proof.Machine.execCommitSvn via tok s
  | .rekey via g tok => Sys2Proof.Machine.execRekey via g tok s
  | .revoke via k tok => Sys2Proof.Machine.execRevoke via k tok s
  | .macsecKeyRow via row tok => Sys2Proof.Machine.execMacsecKeyRow via row tok s
  | .pnwarnHandle n => Sys2Proof.Machine.execPnwarnHandle n s
  | .startSequence t => Sys2Proof.Machine.execStartSequence t s
  | .partitionRestage => Sys2Proof.Machine.execPartitionRestage s
  | .liveUpdateQuiesce => Sys2Proof.Machine.execLiveUpdateQuiesce s
  | .liveUpdateSwitch discard => Sys2Proof.Machine.execLiveUpdateSwitch discard s
  | .liveUpdateResume => Sys2Proof.Machine.execLiveUpdateResume s
  | .updateAbandon typ => Sys2Proof.Machine.execUpdateAbandon typ s
  | .powerLoopPeriod parts rails => Sys2Proof.Machine.execPowerLoopPeriod parts rails s
  | .thermalLoopPeriod temps => Sys2Proof.Machine.execThermalLoopPeriod temps s
  | .hwThrottle part hot => Sys2Proof.Machine.execHwThrottle part hot s
  | .hwShutdown part det => Sys2Proof.Machine.execHwShutdown part det s
  | .loopLossFallback => Sys2Proof.Machine.execLoopLossFallback s
  | .watchdogExpiry c => Sys2Proof.Machine.execWatchdogExpiry c s
  | .protectionFault c addr => Sys2Proof.Machine.execProtectionFault c addr s
  | .managementReset => Sys2Proof.Machine.execManagementReset s
  | .retainedRecordWrite => Sys2Proof.Machine.execRetainedRecordWrite s
  | .getVersion req => Sys2Proof.Machine.execGetVersion req s
  | .getCapabilities req => Sys2Proof.Machine.execGetCapabilities req s
  | .negotiateAlgorithms req => Sys2Proof.Machine.execNegotiateAlgorithms req s
  | .getDigests sid req => Sys2Proof.Machine.execGetDigests sid req s
  | .getCertificate sid req => Sys2Proof.Machine.execGetCertificate sid req s
  | .challenge sid req => Sys2Proof.Machine.execChallenge sid req s
  | .getMeasurements sid req => Sys2Proof.Machine.execGetMeasurements sid req s
  | .keyExchange sid req => Sys2Proof.Machine.execKeyExchange sid req s
  | .finish sid req => Sys2Proof.Machine.execFinish sid req s
  | .heartbeatSpdm sid req => Sys2Proof.Machine.execHeartbeatSpdm sid req s
  | .endSession sid req => Sys2Proof.Machine.execEndSession sid req s
  | .vendorDefinedRequest sid req => Sys2Proof.Machine.execVendorDefinedRequest sid req s
  | .debugUnlock reply => Sys2Proof.Machine.execDebugUnlock reply s
  | .secMeasselWrite who ix => Sys2Proof.Machine.execSecMeasselWrite who ix s
  | .secPkselWrite who p => Sys2Proof.Machine.execSecPkselWrite who p s
  | .porstRise b => Sys2Proof.Machine.execPorstRise b s
  | .sagTrigger cause => Sys2Proof.Machine.execSagTrigger cause s
  | .saveDone cut => Sys2Proof.Machine.execSaveDone cut s
  | .sagRestart b => Sys2Proof.Machine.execSagRestart b s
  | .pwrWarm v => Sys2Proof.Machine.execPwrWarm v s
  | .jtagWarmReset => Sys2Proof.Machine.execJtagWarmReset s
  | .pgoodTFall k det => Sys2Proof.Machine.execPgoodTFall k det s
  | .telemetryRecord => Sys2Proof.Machine.execTelemetryRecord s
  | .alarmChange code inst set detail => Sys2Proof.Machine.execAlarmChange code inst set detail s
  | .alarmSend => Sys2Proof.Machine.execAlarmSend s
  | .recvBufferComplete q => Sys2Proof.Machine.execRecvBufferComplete q s
  | .summaryPeriod => Sys2Proof.Machine.execSummaryPeriod s
  | .pathUp p => Sys2Proof.Machine.execPathUp p s
  | .packageNetworkDefect x => Sys2Proof.Machine.execPackageNetworkDefect x s
  | .pathDown p => Sys2Proof.Machine.execPathDown p s
  | .canErrorStateChange passive busOff => Sys2Proof.Machine.execCanErrorStateChange passive busOff s
  | .mgmtPortFrame fr => Sys2Proof.Machine.execMgmtPortFrame fr s
  | .slowPathTransmit n q fr mark => Sys2Proof.Machine.execSlowPathTransmit n q fr mark s
  | .mirrorRebuild p => Sys2Proof.Machine.execMirrorRebuild p s
  | .restageDone p => Sys2Proof.Machine.execRestageDone p s
  | .configSpaceWrite c => Sys2Proof.Machine.execConfigSpaceWrite c s
  | .doeDiscovery index => Sys2Proof.Machine.execDoeDiscovery index s
  | .tapReset => Sys2Proof.Machine.execTapReset s
  | .pcieLinkTrained rate width flit => Sys2Proof.Machine.execPcieLinkTrained rate width flit s
  | .vholdRise b => Sys2Proof.Machine.execVholdRise b s

end Sys2Proof.Machine
end

