-- ==== Sys2Proof/Safety.lean ====
section
/-! DEFINITION. The terms the statements use: the parts of the device that a command may leave alone, the canonical form of the model
memories, and what the fuses may do. -/

namespace Sys2Proof

/-! ### Parts of the device, for frames -/

/-- Security, power and the Helmet, the dictionary, firmware, supplies and clock, and the popped words of the priority queues. -/
structure Control where
  sec : Sec
  pwr : Pwr
  dict : Dict
  fw : Fw
  alive : Bool
  now : Nat
  pqRegs : Tab Word
  deriving DecidableEq, Repr

/-- The model memories, the cores, the locks, the partitions and fault manager, and the model store. -/
structure Tensor where
  mem : Mem
  core : Tab Core
  lck : Tab Lck
  ptn : PtnAll
  store : Store
  deriving DecidableEq, Repr

/-- The flow plane with the Huddle, and the time unit. -/
structure Plane where
  flow : Flow
  tmu : Tmu
  deriving DecidableEq, Repr

/-- The lifecycle fuses, whether UDS is overwritten, the rollback floor, the revocation fuses and the token counter (R438 to R443). -/
structure Fuses where
  lcf : Nat
  udsGone : Bool
  floor : Nat
  revoked : Nat
  tokenCtr : Nat
  deriving DecidableEq, Repr

@[irreducible] def Dev.control (d : Dev) : Control := ⟨d.sec, d.pwr, d.dict, d.fw, d.alive, d.now, d.pqRegs⟩
@[irreducible] def Dev.tensor (d : Dev) : Tensor := ⟨d.mem, d.core, d.lck, d.ptn, d.store⟩
@[irreducible] def Dev.plane (d : Dev) : Plane := ⟨d.flow, d.tmu⟩
@[irreducible] def Dev.fuses (d : Dev) : Fuses := ⟨d.sec.lcf, d.sec.udsGone, d.sec.floor, d.sec.revoked, d.sec.tokenCtr⟩

/-- The host interface without its pending MSI-X raises: mailboxes, DMA queues, latches, enables, grants and the link. -/
@[irreducible] def Dev.hostRest (d : Dev) : HostIf := { d.host with pba := [] }

/-! ### The model memories -/

/-- The canonical form: core stores and HBM list rising addresses and no byte that reads 0. -/
def Memory.wf (m : Mem) : Bool := Tab.wf 0#8 m.cs && Tab.wf 0#8 m.hbm

/-- The memories of a device have their canonical form. -/
@[irreducible] def Dev.memOk (d : Dev) : Bool := Memory.wf d.mem

/-- Address a of HBM lies outside what a write of `len` bytes at address x under key k may touch: outside its 64-byte lines, or outside its
bytes where those lines stand under k already (R138, R449). -/
def Mem.spares (m : Mem) (k : Option XtsKey) (x len a : Nat) : Bool :=
  decide (a / 64 < x / 64) || decide ((x + len + 63) / 64 ≤ a / 64) || (m.under k x len && (decide (a < x) || decide (x + len ≤ a)))

/-- A write of `len` bytes at offset `off` of p's share touches neither address a nor, while the mirror is valid, its place there (R128). -/
def Dev.shSpares (d : Dev) (p off len a : Nat) : Bool :=
  d.mem.spares (d.unitKey p) ((d.ent p).prim off) len a && (!d.doubled p || d.mem.spares (d.unitKey p) ((d.ent p).mirr off) len a)

/-- The byte at address a of HBM reads in the two states as the same, under whatever key (R449). -/
def Mem.sameAt (m n : Mem) (a : Nat) : Prop := Tab.get 0 m.hbm a = Tab.get 0 n.hbm a ∧ m.lineKey (a / 64) = n.lineKey (a / 64)

/-! ### Fuses (R438, R440, R441, R443) -/

/-- The lifecycle word with PROVISIONED p, d deployments and r returns as thermometers, and DECOMMISSIONED x (R438). -/
def lcfWord (p d r x : Nat) : Nat := p + 2 * (2 ^ d - 1) + 512 * (2 ^ r - 1) + 131072 * x

/-- The lifecycle words that R438's transitions reach: thermometers of at most eight, a return only after a deployment, a deployment only
after provisioning. -/
def LcfLegal (n : Nat) : Prop := ∃ p d r x, p ≤ 1 ∧ d ≤ 8 ∧ r ≤ d ∧ d ≤ r + 1 ∧ x ≤ 1 ∧ (p = 0 → d = 0) ∧ n = lcfWord p d r x

/-- Fuses only burn: no set bit clears, and no count falls (R438). -/
def Fuses.Le (a b : Fuses) : Prop :=
  (∀ i, bit a.lcf i = true → bit b.lcf i = true) ∧ (a.udsGone = true → b.udsGone = true) ∧ a.floor ≤ b.floor ∧
  (∀ i, bit a.revoked i = true → bit b.revoked i = true) ∧ a.tokenCtr ≤ b.tokenCtr

/-- What a step may do to the fuses: burn, along the lifecycle's transitions. -/
def Burns (a b : Fuses) : Prop := a.Le b ∧ (LcfLegal a.lcf → LcfLegal b.lcf)

/-! ### Terms of the host interface (chapter 14) -/

/-- A register that a 32-bit write simply writes: no page, pair, latch or table, no write with an effect of its own (R4). -/
def PlainReg (k : Nat) (r : RegRow) : Bool :=
  decide (regRow k = some r) && !(decide (mbxBase ≤ k % 0x10000000) && decide (k % 0x10000000 < mbxBase + 0x1000)) &&
  !(decide (msixBase ≤ k % 0x10000000) && decide (k % 0x10000000 < pbaBase)) && !isPairLow k && !isPairLow (k - 4) && !r.own && r.writable &&
  decide (r.rwl = 0) && !(decide (pqBase ≤ k) && decide (k < catBase) && decide (0x20 ≤ k % 0x100)) && !isEventReg (k - 4) &&
  decide (r.base ≠ catBase + 0x40C)

/-- The mailbox of fn holds a response to request c on its page: RESP is 1, PENDING and TAKEN are 0 (R359). -/
abbrev Answered (e : Dev) (fn : Option Nat) (c : MbxMsg) (status : Nat) (payload : List Byte) : Prop :=
  ((e.mbxAt fn).page.map (fun r => (r.opcode, r.seq, r.status, r.payload))) = some (c.opcode, c.seq, status, payload) ∧
  (e.mbxAt fn).resp = true ∧ (e.mbxAt fn).pending = false ∧ (e.mbxAt fn).taken = false ∧ (e.mbxAt fn).cur = none

/-- The mailbox of fn carries out request c of opcode op, and nothing keeps its response back (R359, R371). -/
def Dev.asked (d : Dev) (fn : Option Nat) (op : Nat) (c : MbxMsg) : Bool :=
  decide (d.msg fn op = some c) && !(d.mbxAt fn).resp && !(d.mbxAt fn).discard

/-- Is this requester one of those that have the block registers of PF BAR0's map: the PF, firmware, the debug port (R352)? -/
def Req.atBlocks : Req → Bool
  | .vf _ => false
  | _ => true

/-- Is the requester a component of firmware, whose writes the permission table checks (R408)? -/
def Req.isFw : Req → Bool
  | .fw _ => true
  | _ => false

/-- A write of the register at `key` by `who` reaches the device, and no protection fault takes its place: the permission table names the
register for a firmware component (R350, R408, R442). -/
def Dev.mayWrite (d : Dev) (who : Req) (key : Nat) : Bool :=
  d.reqOpen who && (match who with | .fw c => d.fwMayWrite c key | _ => true)

/-- A register whose read acts: a lock's LCK_ACQ, a queue's PQ_POPCTL, TMU_NOW0 (R165, R170, R297). -/
def readActs (k : Nat) : Bool :=
  (decide (lckBase ≤ k) && decide (k < lckBase + 0x400)) || (decide (pqBase ≤ k) && decide (k < catBase) && decide (k % 0x100 = 0x18)) ||
  decide (k = tmuBase + 0x18)

/-! ### Terms of the tensor cores (chapter 4) -/

/-- Core c runs and holds no descriptor fetched before, the 64 bytes at TEN_PC lie in its core store and are the descriptor `desc` of
opcode op, without BARRIER and with the reserved bits of word 0 zero (R96, R98, R99). -/
def Dev.fetches (d : Dev) (c op desc : Nat) : Bool :=
  decide ((d.coreAt c).st = .run) && decide ((d.coreAt c).cur = none) && decide (d.pc c + 64 ≤ csSize) &&
  decide (d.csNat c (d.pc c) 64 = desc) && decide (bits desc 7 0 = op) && !bit desc 10 && decide (bits desc 47 12 = 0) && decide (bits desc 9 8 = 0)

/-! ### Which commands may change which part of the device, for frames -/

/-- The commands of the time unit's hardware, which runs on while a warm reset saves (R280, R464). -/
def Instr.timeUnit : Instr → Bool
  | .refLoss | .refReturn | .ppsInEdge .. | .irigFrame .. | .sourceLoss .. | .stepLand | .errorBoundUpdate | .ppsOutPulse | .ppsOutEnd
  | .leapSecond => true
  | _ => false

/-- The commands that may change security, power, the dictionary, firmware, the supplies, the clock or the popped words of a queue. -/
def Instr.altersControl : Instr → Bool
  | .registerWrite .. | .errorBoundUpdate | .pqPopctl .. | .tclkStep .. | .bundleCommit | .linkRetrainFail .. | .fwLoad ..
  | .fwUpdate .. | .dictWrite .. | .bundleFree | .pcieHotReset | .pfFlr | .vfFlr .. | .perst | .settingApply | .storeSettings ..
  | .restoreDefaults .. | .tokenStage .. | .tokenExpiry .. | .sdoDownload .. | .sdoUpload .. | .sdoTimeout .. | .usdoTransfer ..
  | .nmtStart | .nmtStop | .nmtEnterPreOperational | .nmtResetCommunication | .nmtResetNode | .udpRead .. | .udpWrite ..
  | .udpSessionTimeout .. | .usbRead .. | .usbWrite .. | .usbWriteLast .. | .usbBusReset | .provision .. | .deploy ..
  | .returnDevice .. | .decommission .. | .commitSvn .. | .rekey .. | .revoke .. | .macsecKeyRow .. | .pnwarnHandle ..
  | .startSequence .. | .liveUpdateQuiesce | .liveUpdateSwitch .. | .liveUpdateResume | .updateAbandon .. | .powerLoopPeriod ..
  | .thermalLoopPeriod .. | .hwThrottle .. | .hwShutdown .. | .loopLossFallback | .watchdogExpiry .. | .protectionFault ..
  | .managementReset | .retainedRecordWrite | .getVersion .. | .getCapabilities .. | .negotiateAlgorithms .. | .getDigests ..
  | .getCertificate .. | .challenge .. | .getMeasurements .. | .keyExchange .. | .finish .. | .endSession .. | .vendorDefinedRequest ..
  | .debugUnlock .. | .porstRise .. | .sagTrigger .. | .saveDone .. | .sagRestart .. | .pwrWarm .. | .jtagWarmReset
  | .packageNetworkDefect .. | .canErrorStateChange .. | .mgmtPortFrame .. | .pcieLinkTrained .. | .vholdRise .. | .pairLowRead ..
  | .alarmSend | .summaryPeriod | .pathUp .. | .dictRead .. | .pairLowWrite (.fw _) .. | .pairHighWrite (.fw _) ..
  | .tenCtrlRun (.fw _) .. | .tenCtrlPreempt (.fw _) .. | .tenCtrlResume (.fw _) .. | .tenCtrlReset (.fw _) ..
  | .tenCtrlLock (.fw _) .. | .erlCtlClear (.fw _) .. | .erlIdxWrite (.fw _) .. | .versionCommit (.fw _) .. | .flwFidxWrite (.fw _) ..
  | .flwEidxWrite (.fw _) .. | .gntPidxCopy (.fw _) .. | .catRtailWrite (.fw _) .. | .pqPushctl (.fw _) .. | .lckAcqWrite (.fw _) ..
  | .lckForce (.fw _) .. | .secMeasselWrite (.fw _) .. | .secPkselWrite (.fw _) .. | .ptpMeasurement (.fw _) .. => true
  | _ => false

/-- The commands that may change the model memories, the cores, the locks, the partitions or the model store. -/
def Instr.altersTensor : Instr → Bool
  | .registerWrite .. | .snapshotOpen .. | .snapshotClose .. | .filingWrite | .partitionStale .. | .catcherRecord .. | .catcherTake
  | .pqPopctl .. | .pqWaiterPop .. | .lckAcqRead .. | .lckAcqWrite .. | .lckForce .. | .pass .. | .walk .. | .link .. | .move ..
  | .waitq .. | .signal .. | .lock .. | .jump .. | .nop .. | .endProgram .. | .swap .. | .front .. | .bankExchange .. | .passCommit ..
  | .emitDrainError .. | .moveComplete .. | .linkComplete .. | .waitqTimeout .. | .lockRetry .. | .lockTimeout .. | .arrayFault ..
  | .tenCtrlRun .. | .tenCtrlPreempt .. | .preemptSaved .. | .tenCtrlResume .. | .tenCtrlReset .. | .tenCtrlLock .. | .stagingPop ..
  | .stagingReply .. | .granuleScrubDone | .bundleInstallRun .. | .bundleCommit | .dieHeartbeatLost .. | .linkRetrainFail ..
  | .thermalTrip .. | .hbmErrorBurst .. | .hbmStackFail .. | .modelStoreStackFail .. | .coreOutOfService .. | .remapStart
  | .remapRestart | .timeShareSwitch .. | .dictWrite .. | .bundleInstall | .bundleFree | .ptnReset .. | .coreCtrlSetPc ..
  | .coreCtrlRun .. | .coreCtrlPreempt .. | .coreCtrlResume .. | .coreCtrlReset .. | .dmaWrite .. | .pcieHotReset | .pfFlr | .vfFlr ..
  | .perst | .storeSettings .. | .restoreDefaults .. | .tokenStage .. | .sdoDownload .. | .sdoUpload .. | .usdoTransfer ..
  | .udpRead .. | .udpWrite .. | .usbWriteLast .. | .provision .. | .deploy .. | .returnDevice .. | .decommission .. | .commitSvn ..
  | .rekey .. | .revoke .. | .macsecKeyRow .. | .startSequence .. | .partitionRestage | .liveUpdateResume | .updateAbandon ..
  | .hwShutdown .. | .watchdogExpiry .. | .protectionFault .. | .porstRise .. | .saveDone .. | .sagRestart .. | .pwrWarm ..
  | .jtagWarmReset | .pgoodTFall .. | .packageNetworkDefect .. | .mirrorRebuild .. | .restageDone .. | .tapReset | .vholdRise ..
  | .liveUpdateSwitch .. | .managementReset | .pairLowRead .. | .pairLowWrite (.fw _) .. | .pairHighWrite (.fw _) ..
  | .erlCtlClear (.fw _) .. | .erlIdxWrite (.fw _) .. | .versionCommit (.fw _) .. | .flwFidxWrite (.fw _) .. | .flwEidxWrite (.fw _) ..
  | .gntPidxCopy (.fw _) .. | .catRtailWrite (.fw _) .. | .pqPushctl (.fw _) .. | .secMeasselWrite (.fw _) ..
  | .secPkselWrite (.fw _) .. | .ptpMeasurement (.fw _) .. => true
  | _ => false

/-- The commands that may change the flow plane, the Huddle or the time unit. -/
def Instr.altersPlane : Instr → Bool
  | .pairLowRead .. | .frameReceive .. | .frameEnd .. | .pause .. | .pfc .. | .pauseTimerExpiry .. | .pauseRepeat ..
  | .stormRxExpiry .. | .stormRxQuietExpiry .. | .stormTxExpiry .. | .linkChange .. | .dieFLoss | .failsafeRelease | .pairWaitExpiry ..
  | .dispatchTake | .parseResult .. | .classify | .reinject .. | .puntRelease .. | .templateBuild .. | .versionCommit ..
  | .versionRetire | .sweep | .sweepEnd | .bind | .agingScan | .flowEntryFwWrite .. | .entityRangeAssign .. | .police
  | .policerClassWrite .. | .scoreAdmit | .dropEnd .. | .scoreGrant | .scoreDeliver .. | .slotReloadDone .. | .fabricScrub ..
  | .visorVerdict | .taggedQuietExpiry .. | .reorderRelease .. | .egressEnqueue | .scheduleDecision .. | .frameRelease ..
  | .queueStarved .. | .queueRecordWrite .. | .refLoss | .refReturn | .ptpMeasurement .. | .ppsInEdge .. | .irigFrame ..
  | .sourceLoss .. | .timeSet .. | .stepLand | .errorBoundUpdate | .ppsOutPulse | .ppsOutEnd | .leapSecond | .snapshotOpen ..
  | .snapshotClose .. | .huddleTake | .filingWrite | .resultPost | .resultWriteback .. | .resultDeadline .. | .partitionStale ..
  | .bundleCommit | .linkRetrainFail .. | .remapStart | .dictWrite .. | .ptnReset .. | .vfFlr .. | .settingApply | .storeSettings ..
  | .restoreDefaults .. | .tokenStage .. | .sdoDownload .. | .sdoUpload .. | .usdoTransfer .. | .udpRead .. | .udpWrite ..
  | .usbWriteLast .. | .provision .. | .deploy .. | .returnDevice .. | .decommission .. | .commitSvn .. | .rekey .. | .revoke ..
  | .macsecKeyRow .. | .startSequence .. | .liveUpdateResume | .updateAbandon .. | .hwShutdown .. | .porstRise .. | .sagTrigger ..
  | .saveDone .. | .sagRestart .. | .pwrWarm .. | .jtagWarmReset | .packageNetworkDefect .. | .slowPathTransmit .. | .vholdRise ..
  | .liveUpdateSwitch .. | .managementReset | .mgmtPortFrame .. | .protectionFault .. | .watchdogExpiry .. | .registerWrite (.fw _) ..
  | .pairLowWrite (.fw _) .. | .pairHighWrite (.fw _) .. | .tenCtrlRun (.fw _) .. | .tenCtrlPreempt (.fw _) ..
  | .tenCtrlResume (.fw _) .. | .tenCtrlReset (.fw _) .. | .tenCtrlLock (.fw _) .. | .erlCtlClear (.fw _) .. | .erlIdxWrite (.fw _) ..
  | .flwFidxWrite (.fw _) .. | .flwEidxWrite (.fw _) .. | .gntPidxCopy (.fw _) .. | .catRtailWrite (.fw _) .. | .pqPushctl (.fw _) ..
  | .lckAcqWrite (.fw _) .. | .lckForce (.fw _) .. | .secMeasselWrite (.fw _) .. | .secPkselWrite (.fw _) .. => true
  | _ => false

/-- The commands that may change more of the host interface than its pending MSI-X raises. -/
def Instr.altersHost : Instr → Bool
  | .registerWrite .. | .pairLowRead .. | .pairLowWrite .. | .tmuNowRead .. | .mbxRing .. | .mbxRack .. | .mbxTake ..
  | .messageSegment .. | .hello .. | .fwLoad .. | .fwUpdate .. | .dictRead .. | .dictWrite .. | .bundleInstall | .bundleStatus
  | .bundleFree | .ptnReset .. | .coreCtrlSetPc .. | .coreCtrlSetSavebase .. | .coreCtrlRun .. | .coreCtrlPreempt ..
  | .coreCtrlResume .. | .coreCtrlReset .. | .directGrant | .dmaqCreate .. | .dmaqDestroy .. | .sqDoorbell .. | .cqHeadWrite ..
  | .dmaWrite .. | .dmaRecv .. | .dmaComplete .. | .pcieHotReset | .pfFlr | .vfFlr .. | .perst | .storeSettings ..
  | .restoreDefaults .. | .tokenStage .. | .sdoDownload .. | .sdoUpload .. | .usdoTransfer .. | .udpRead .. | .udpWrite ..
  | .usbWriteLast .. | .provision .. | .deploy .. | .returnDevice .. | .decommission .. | .commitSvn .. | .rekey .. | .revoke ..
  | .macsecKeyRow .. | .liveUpdateResume | .updateAbandon .. | .watchdogExpiry .. | .protectionFault .. | .managementReset
  | .porstRise .. | .saveDone .. | .sagRestart .. | .pwrWarm .. | .jtagWarmReset | .recvBufferComplete .. | .configSpaceWrite ..
  | .pcieLinkTrained .. | .vholdRise .. | .liveUpdateSwitch .. | .pairHighWrite (.fw _) .. | .tenCtrlRun (.fw _) ..
  | .tenCtrlPreempt (.fw _) .. | .tenCtrlResume (.fw _) .. | .tenCtrlReset (.fw _) .. | .tenCtrlLock (.fw _) ..
  | .erlCtlClear (.fw _) .. | .erlIdxWrite (.fw _) .. | .versionCommit (.fw _) .. | .flwFidxWrite (.fw _) .. | .flwEidxWrite (.fw _) ..
  | .gntPidxCopy (.fw _) .. | .catRtailWrite (.fw _) .. | .pqPushctl (.fw _) .. | .lckAcqWrite (.fw _) .. | .lckForce (.fw _) ..
  | .secMeasselWrite (.fw _) .. | .secPkselWrite (.fw _) .. | .ptpMeasurement (.fw _) .. => true
  | _ => false

/-- The commands that may change a priority queue. -/
def Instr.altersQueues : Instr → Bool
  | .snapshotClose .. | .pqCfgWrite .. | .pqPushctl .. | .pqPopctl .. | .pqWaiterPop .. | .waitq .. | .signal .. | .waitqTimeout ..
  | .tenCtrlRun .. | .tenCtrlPreempt .. | .tenCtrlResume .. | .tenCtrlReset .. | .tenCtrlLock .. | .stagingPop .. | .stagingReply ..
  | .remapStart | .remapRestart | .timeShareSwitch .. | .dictWrite .. | .ptnReset .. | .coreCtrlPreempt .. | .coreCtrlReset ..
  | .dmaComplete .. | .pcieHotReset | .pfFlr | .vfFlr .. | .perst | .settingApply | .storeSettings .. | .restoreDefaults ..
  | .tokenStage .. | .sdoDownload .. | .sdoUpload .. | .usdoTransfer .. | .udpRead .. | .udpWrite .. | .usbWriteLast .. | .provision ..
  | .deploy .. | .returnDevice .. | .decommission .. | .commitSvn .. | .rekey .. | .revoke .. | .macsecKeyRow .. | .startSequence ..
  | .liveUpdateResume | .updateAbandon .. | .porstRise .. | .saveDone .. | .sagRestart .. | .pwrWarm .. | .jtagWarmReset
  | .vholdRise .. | .arrayFault .. | .bankExchange .. | .coreCtrlResume .. | .coreCtrlRun .. | .dieHeartbeatLost ..
  | .emitDrainError .. | .endProgram .. | .front .. | .hwShutdown .. | .jump .. | .link .. | .linkRetrainFail .. | .liveUpdateSwitch ..
  | .lock .. | .lockRetry .. | .lockTimeout .. | .move .. | .moveComplete .. | .nop .. | .pairLowRead .. | .pass .. | .passCommit ..
  | .pgoodTFall .. | .preemptSaved .. | .registerWrite .. | .swap .. | .thermalTrip .. | .walk .. => true
  | _ => false

/-- The commands that may change the Catcher. -/
def Instr.altersCatcher : Instr → Bool
  | .sweep | .scoreAdmit | .dropEnd .. | .slotReloadDone .. | .fabricScrub .. | .snapshotClose .. | .huddleTake | .resultPost
  | .resultWriteback .. | .resultDeadline .. | .catcherRecord .. | .catcherTake | .catRtailWrite .. | .pqPopctl .. | .pqWaiterPop ..
  | .pass .. | .walk .. | .link .. | .move .. | .waitq .. | .signal .. | .lock .. | .jump .. | .nop .. | .endProgram .. | .swap ..
  | .front .. | .bankExchange .. | .passCommit .. | .moveComplete .. | .linkComplete .. | .waitqTimeout .. | .lockRetry ..
  | .lockTimeout .. | .tenCtrlRun .. | .tenCtrlPreempt .. | .preemptSaved .. | .tenCtrlResume .. | .tenCtrlReset .. | .tenCtrlLock ..
  | .stagingReply .. | .linkRetrainFail .. | .remapStart | .remapRestart | .timeShareSwitch .. | .dictWrite .. | .ptnReset ..
  | .coreCtrlRun .. | .coreCtrlPreempt .. | .coreCtrlResume .. | .vfFlr .. | .storeSettings .. | .restoreDefaults .. | .tokenStage ..
  | .sdoDownload .. | .sdoUpload .. | .usdoTransfer .. | .udpRead .. | .udpWrite .. | .usbWriteLast .. | .provision .. | .deploy ..
  | .returnDevice .. | .decommission .. | .commitSvn .. | .rekey .. | .revoke .. | .macsecKeyRow .. | .liveUpdateQuiesce
  | .liveUpdateResume | .updateAbandon .. | .hwShutdown .. | .watchdogExpiry .. | .protectionFault .. | .managementReset
  | .porstRise .. | .saveDone .. | .sagRestart .. | .pwrWarm .. | .jtagWarmReset | .packageNetworkDefect .. | .restageDone ..
  | .vholdRise .. | .dieHeartbeatLost .. | .liveUpdateSwitch .. | .pairLowRead .. | .pgoodTFall .. | .registerWrite ..
  | .scoreDeliver (some _) | .thermalTrip .. | .erlCtlClear (.fw _) .. | .erlIdxWrite (.fw _) .. | .flwEidxWrite (.fw _) ..
  | .flwFidxWrite (.fw _) .. | .gntPidxCopy (.fw _) .. | .lckAcqWrite (.fw _) .. | .lckForce (.fw _) .. | .pairHighWrite (.fw _) ..
  | .pairLowWrite (.fw _) .. | .pqPushctl (.fw _) .. | .ptpMeasurement (.fw _) .. | .secMeasselWrite (.fw _) ..
  | .secPkselWrite (.fw _) .. | .versionCommit (.fw _) .. => true
  | _ => false

/-- The commands that may change the error log. -/
def Instr.altersErrorLog : Instr → Bool
  | .registerWrite .. | .pairLowRead .. | .pairLowWrite .. | .pairHighWrite .. | .pairWaitExpiry .. | .fabricScrub .. | .stepLand
  | .resultWriteback .. | .pqPopctl .. | .pqWaiterPop .. | .lckAcqWrite .. | .lckForce .. | .pass .. | .walk .. | .link .. | .move ..
  | .waitq .. | .signal .. | .lock .. | .jump .. | .nop .. | .endProgram .. | .swap .. | .front .. | .bankExchange .. | .passCommit ..
  | .emitDrainError .. | .moveComplete .. | .waitqTimeout .. | .lockRetry .. | .lockTimeout .. | .arrayFault .. | .tenCtrlRun ..
  | .tenCtrlPreempt .. | .preemptSaved .. | .tenCtrlResume .. | .tenCtrlReset .. | .tenCtrlLock .. | .stagingReply ..
  | .bundleInstallRun .. | .bundleCommit | .dieHeartbeatLost .. | .linkRetrainFail .. | .thermalTrip .. | .hbmErrorBurst ..
  | .hbmStackFail .. | .modelStoreStackFail .. | .coreOutOfService .. | .remapStart | .remapRestart | .timeShareSwitch ..
  | .errorLogTake | .erlCtlClear .. | .fwLoad .. | .fwUpdate .. | .dictWrite .. | .ptnReset .. | .coreCtrlSetPc ..
  | .coreCtrlSetSavebase .. | .coreCtrlRun .. | .coreCtrlPreempt .. | .coreCtrlResume .. | .coreCtrlReset .. | .sqDoorbell ..
  | .cqHeadWrite .. | .pcieHotReset | .pfFlr | .vfFlr .. | .perst | .settingApply | .storeSettings .. | .restoreDefaults ..
  | .tokenStage .. | .sdoDownload .. | .sdoUpload .. | .usdoTransfer .. | .udpRead .. | .udpWrite .. | .usbWriteLast .. | .provision ..
  | .deploy .. | .returnDevice .. | .decommission .. | .commitSvn .. | .rekey .. | .revoke .. | .macsecKeyRow .. | .startSequence ..
  | .liveUpdateResume | .updateAbandon .. | .powerLoopPeriod .. | .hwShutdown .. | .loopLossFallback | .watchdogExpiry ..
  | .protectionFault .. | .managementReset | .debugUnlock .. | .porstRise .. | .saveDone .. | .sagRestart .. | .pwrWarm ..
  | .jtagWarmReset | .pgoodTFall .. | .packageNetworkDefect .. | .tapReset | .vholdRise .. | .erlIdxWrite (.fw _) ..
  | .versionCommit (.fw _) .. | .flwFidxWrite (.fw _) .. | .flwEidxWrite (.fw _) .. | .gntPidxCopy (.fw _) ..
  | .catRtailWrite (.fw _) .. | .pqPushctl (.fw _) .. | .secMeasselWrite (.fw _) .. | .secPkselWrite (.fw _) ..
  | .ptpMeasurement (.fw _) .. | .liveUpdateSwitch .. | .scoreDeliver (some _) => true
  | _ => false

/-- The commands that change no plain register, not even by an event or a count. -/
def Instr.keepsRegisters : Instr → Bool
  | .pauseTimerExpiry .. | .stormRxQuietExpiry .. | .dieFLoss | .failsafeRelease | .sweep | .sweepEnd | .flowEntryFwWrite .. | .police
  | .policerClassWrite .. | .dropEnd .. | .taggedQuietExpiry .. | .queueStarved .. | .tmuNowRead .. | .snapshotOpen .. | .filingWrite
  | .lckAcqRead .. | .stagingPop .. | .dmaWrite .. | .dmaRecv .. | .msixDeliver .. | .tokenExpiry .. | .sdoTimeout .. | .nmtStart
  | .nmtStop | .nmtEnterPreOperational | .nmtResetCommunication | .nmtResetNode | .heartbeat | .udpSessionTimeout .. | .usbRead ..
  | .usbWrite .. | .usbResult | .usbBusReset | .retainedRecordWrite | .getVersion .. | .getCapabilities .. | .negotiateAlgorithms ..
  | .getDigests .. | .getCertificate .. | .challenge .. | .getMeasurements .. | .keyExchange .. | .finish .. | .heartbeatSpdm ..
  | .endSession .. | .vendorDefinedRequest .. | .sagTrigger .. | .telemetryRecord | .alarmChange .. | .alarmSend
  | .recvBufferComplete .. | .summaryPeriod | .pathUp .. | .pathDown .. | .canErrorStateChange .. | .configSpaceWrite ..
  | .doeDiscovery .. | .erlCtlClear .pf .. | .erlCtlClear (.vf _) .. | .erlCtlClear .debug .. => true
  | _ => false

end Sys2Proof
end

