-- ==== Sys2Proof/WellFormed.lean ====
section
/-! DEFINITION. When a command is well formed: its operands lie in the ranges the spec gives them. The machine is total on any
command; this predicate says which ones the outside world can send. -/

namespace Sys2Proof

/-- A requester that exists: VF 0 to 31, firmware component 0 to 11 (R164, R350, R406). -/
def Req.wf : Req → Bool
  | .pf => true
  | .vf n => decide (n < 32)
  | .fw c => decide (c < 12)
  | .debug => true

/-- A function: the PF or VF 0 to 31 (R350). -/
def fnWf (fn : Option Nat) : Bool := fn.all (fun n => decide (n < 32))

/-- A CAN client: the classic SDO channel, or a node 1 to 127 (R397, R399). -/
def nodeWf (node : Option Nat) : Bool := node.all (fun n => decide (1 ≤ n) && decide (n ≤ 127))

/-- A transport's session (chapter 15). -/
def Via.wf : Via → Bool
  | .mbx fn => fnWf fn
  | .sdo => true
  | .usdo node => nodeWf (some node)
  | .udp _ => true
  | .usb => true

/-- A frame that a Shortstop core builds holds bytes; a punt queue has 512 entries (R206, R208). -/
def Reinj.wf : Reinj → Bool
  | .orig k => decide (k < 512)
  | .synth data _ => decide (0 < data.length)

/-- The value of a flow-entry field fits the field (R230). -/
def FlowSet.wf : FlowSet → Bool
  | .digest v => decide (v < 2 ^ 96)
  | .fprof v => decide (1 ≤ v) && decide (v ≤ 31)
  | .version v => decide (1 ≤ v) && decide (v ≤ 65535)
  | .entity v => decide (v < 2 ^ 24)
  | .packets v => decide (v < 2 ^ 64)
  | .bytes v => decide (v < 2 ^ 64)
  | .last v => decide (v < 2 ^ 64)
  | .iaMean v => decide (v < 2 ^ 32)
  | .iaDev v => decide (v < 2 ^ 32)
  | .iaMax v => decide (v < 2 ^ 32)
  | .marked v => decide (v < 65536)
  | .dropped v => decide (v < 65536)
  | .seen v => decide (v < 2 ^ 32)
  | .valid _ => true
  | .static _ => true
  | .entValid _ => true
  | .iaInit _ => true

/-- The functions and the number of VFs that a configuration write names (R350). -/
def CfgWrite.wf : CfgWrite → Bool
  | .vfEnable _ => true
  | .numVfs n => decide (n ≤ 32)
  | .mse fn _ => fnWf fn
  | .bme fn _ => fnWf fn
  | .msixEn fn _ => fnWf fn

/-- The straps are the bits of PWR_STRAP; masks of stacks and planes have their width (R456, R473). -/
def BootIn.wf (b : BootIn) : Bool :=
  decide (b.straps < 2 ^ 32) && decide (b.hbmBad < 256) && decide (b.msBad < 256) && decide (b.planes < 4)

/-- Is a command well formed? -/
def Instr.wf : Instr → Bool
  | .registerWrite who off len _ => who.wf && decide (off < 2 ^ 24) && decide (0 < len) && decide (len ≤ 64)
  | .pairLowRead who off len => who.wf && decide (off < 2 ^ 24) && decide (0 < len) && decide (len ≤ 64)
  | .pairLowWrite who off _ => who.wf && decide (off < 2 ^ 24) && decide (off % 4 = 0)
  | .pairHighWrite who off _ => who.wf && decide (off < 2 ^ 24) && decide (off % 4 = 0)
  | .readTimeout fn _ => fnWf fn
  | .frameReceive _ data pad => decide (0 < data.length) && decide (data.length + pad < 16384)
  | .frameEnd _ _ => true
  | .pause _ quanta _ _ => decide (quanta < 65536)
  | .pfc _ enable quanta _ _ => decide (enable < 256) && decide (quanta.length = 8) && quanta.all (fun q => decide (q < 65536))
  | .pauseTimerExpiry _ _ => true
  | .pauseRepeat _ _ => true
  | .stormRxExpiry _ _ => true
  | .stormRxQuietExpiry _ _ => true
  | .stormTxExpiry _ _ => true
  | .linkChange _ _ _ _ => true
  | .dieFLoss => true
  | .failsafeRelease => true
  | .pairWaitExpiry _ => true
  | .dispatchTake => true
  | .parseResult _ => true
  | .classify => true
  | .reinject _ _ k => k.wf
  | .puntRelease _ k => decide (k < 512)
  | .templateBuild _ n _ => decide (0 < n.val)
  | .versionCommit who v _ => who.wf && decide (v < 65536)
  | .versionRetire => true
  | .sweep => true
  | .sweepEnd => true
  | .bind => true
  | .agingScan => true
  | .flowEntryFwWrite _ _ _ entity _ more => (entity.map FlowSet.entity).all FlowSet.wf && more.all FlowSet.wf
  | .entityRangeAssign _ first n => decide (first + n ≤ 262144)
  | .flwFidxWrite who _ => who.wf
  | .flwEidxWrite who _ => who.wf
  | .police => true
  | .policerClassWrite _ cinc pinc cbs pbs _ _ => decide (cinc < 2 ^ 32) && decide (pinc < 2 ^ 32) && bucketsOk cbs pbs
  | .gntPidxCopy who _ _ => who.wf
  | .scoreAdmit => true
  | .dropEnd _ => true
  | .scoreGrant => true
  | .scoreDeliver _ => true
  | .slotReloadDone _ => true
  | .fabricScrub _ => true
  | .visorVerdict => true
  | .taggedQuietExpiry _ => true
  | .reorderRelease _ => true
  | .egressEnqueue => true
  | .scheduleDecision _ => true
  | .frameRelease _ => true
  | .queueStarved _ _ => true
  | .queueRecordWrite _ _ w => decide (w.length = 7) && w.all (fun x => decide (x < 2 ^ 32))
  | .refLoss => true
  | .refReturn => true
  | .ptpMeasurement who off epoch _ cls => who.wf && decide (off < 2 ^ 64) && decide (epoch < 256) && decide (cls < 256)
  | .ppsInEdge _ => true
  | .irigFrame _ f _ _ q leap => decide (f.fmt < 8) && decide (1 ≤ f.day) && decide (f.day ≤ 366) && decide (f.sec ≤ 86400) && decide (f.year < 100) && decide (q < 16) &&
      decide (-1 ≤ leap) && decide (leap ≤ 1)
  | .sourceLoss _ => true
  | .timeSet _ bound => decide (bound < 2 ^ 32)
  | .stepLand => true
  | .errorBoundUpdate => true
  | .ppsOutPulse => true
  | .ppsOutEnd => true
  | .leapSecond => true
  | .tmuNowRead who => who.wf
  | .snapshotOpen _ => true
  | .snapshotClose _ => true
  | .huddleTake => true
  | .filingWrite => true
  | .resultPost => true
  | .resultWriteback _ _ => true
  | .resultDeadline _ => true
  | .partitionStale _ => true
  | .catcherRecord r => decide (r.source < 36) && decide (r.code < 256)
  | .catcherTake => true
  | .catRtailWrite who _ _ => who.wf
  | .pqCfgWrite _ _ owner depth _ => decide (owner < 64) && decide (depth ≤ 6)
  | .pqPushctl who _ level => who.wf && decide (level < 8)
  | .pqPopctl who _ => who.wf
  | .pqWaiterPop _ => true
  | .lckAcqRead who _ => who.wf
  | .lckAcqWrite who _ => who.wf
  | .lckForce who _ => who.wf
  | .pass _ _ => true
  | .walk _ _ => true
  | .link _ _ => true
  | .move _ _ => true
  | .waitq _ _ => true
  | .signal _ _ => true
  | .lock _ _ => true
  | .jump _ _ => true
  | .nop _ _ => true
  | .endProgram _ _ => true
  | .swap _ _ => true
  | .front _ _ => true
  | .bankExchange _ => true
  | .passCommit _ => true
  | .emitDrainError _ _ => true
  | .moveComplete _ => true
  | .linkComplete _ _ => true
  | .waitqTimeout _ => true
  | .lockRetry _ => true
  | .lockTimeout _ => true
  | .arrayFault _ _ _ _ => true
  | .tclkStep _ => true
  | .tenCtrlRun who _ => who.wf
  | .tenCtrlPreempt who _ => who.wf
  | .preemptSaved _ => true
  | .tenCtrlResume who _ => who.wf
  | .tenCtrlReset who _ => who.wf
  | .tenCtrlLock who _ => who.wf
  | .stagingPop _ => true
  | .stagingReply _ _ _ => true
  | .granuleScrubDone => true
  | .bundleInstallRun _ => true
  | .bundleCommit => true
  | .dieHeartbeatLost _ _ => true
  | .linkRetrainFail _ _ => true
  | .thermalTrip _ _ => true
  | .hbmErrorBurst _ _ => true
  | .hbmStackFail _ _ => true
  | .modelStoreStackFail _ => true
  | .coreOutOfService _ _ => true
  | .remapStart => true
  | .remapRestart => true
  | .timeShareSwitch _ => true
  | .errorLogTake => true
  | .erlCtlClear who _ => who.wf
  | .erlIdxWrite who _ => who.wf
  | .mbxRing fn => fnWf fn
  | .mbxRack fn => fnWf fn
  | .mbxTake fn => fnWf fn
  | .messageSegment fn => fnWf fn
  | .hello fn => fnWf fn
  | .fwLoad _ => true
  | .fwUpdate _ => true
  | .dictRead fn => fnWf fn
  | .dictWrite fn _ => fnWf fn
  | .bundleInstall => true
  | .bundleStatus => true
  | .bundleFree => true
  | .ptnReset fn => fnWf fn
  | .coreCtrlSetPc _ => true
  | .coreCtrlSetSavebase _ => true
  | .coreCtrlRun _ => true
  | .coreCtrlPreempt _ => true
  | .coreCtrlResume _ => true
  | .coreCtrlReset _ => true
  | .directGrant => true
  | .dmaqCreate fn => fnWf fn
  | .dmaqDestroy fn => fnWf fn
  | .sqDoorbell fn q tail => fnWf fn && decide (q < 16) && decide (tail < 65536)
  | .cqHeadWrite fn q head => fnWf fn && decide (q < 16) && decide (head < 65536)
  | .dmaWrite _ _ desc _ _ _ => decide (desc.length = 64)
  | .dmaRecv _ desc => decide (desc.length = 64)
  | .dmaComplete fn q => fnWf fn && decide (q < 16)
  | .msixDeliver fn v => fnWf fn && decide (v < 64)
  | .pcieHotReset => true
  | .pfFlr => true
  | .vfFlr _ => true
  | .perst => true
  | .settingApply => true
  | .storeSettings via sb _ _ => via.wf && decide (0 < sb.val)
  | .restoreDefaults via sb _ => via.wf && decide (0 < sb.val)
  | .tokenStage via raw => via.wf && decide (raw.length ≤ 8192)
  | .tokenExpiry via => via.wf
  | .sdoDownload _ _ => true
  | .sdoUpload _ => true
  | .sdoTimeout node => nodeWf node
  | .usdoTransfer node _ _ => decide (1 ≤ node) && decide (node ≤ 127)
  | .nmtStart => true
  | .nmtStop => true
  | .nmtEnterPreOperational => true
  | .nmtResetCommunication => true
  | .nmtResetNode => true
  | .heartbeat => true
  | .udpRead _ raw => decide (raw.length ≤ 1472)
  | .udpWrite _ raw _ => decide (raw.length ≤ 1472)
  | .udpSessionTimeout _ => true
  | .usbRead index sb _ _ => decide (index < 65536) && decide (sb < 256)
  | .usbWrite index sb _ data => decide (index < 65536) && decide (sb < 256) && decide (data.length = 4096)
  | .usbWriteLast index sb _ data _ _ => decide (index < 65536) && decide (sb < 256) && decide (data.length ≤ 4096)
  | .usbResult => true
  | .usbBusReset => true
  | .provision via _ => via.wf
  | .deploy via _ => via.wf
  | .returnDevice via _ => via.wf
  | .decommission via _ => via.wf
  | .commitSvn via _ => via.wf
  | .rekey via _ _ => via.wf
  | .revoke via _ _ => via.wf
  | .macsecKeyRow via row _ => via.wf && decide (row.length = 64)
  | .pnwarnHandle _ => true
  | .startSequence _ => true
  | .partitionRestage => true
  | .liveUpdateQuiesce => true
  | .liveUpdateSwitch _ => true
  | .liveUpdateResume => true
  | .updateAbandon typ => decide (typ < 65536)
  | .powerLoopPeriod _ rails => rails.all (fun r => decide (r.1 < 16))
  | .thermalLoopPeriod temps => decide (temps.length = 22)
  | .hwThrottle _ _ => true
  | .hwShutdown _ _ => true
  | .loopLossFallback => true
  | .watchdogExpiry _ => true
  | .protectionFault _ _ => true
  | .managementReset => true
  | .retainedRecordWrite => true
  | .getVersion req => decide (4 ≤ req.length)
  | .getCapabilities req => decide (4 ≤ req.length)
  | .negotiateAlgorithms req => decide (4 ≤ req.length)
  | .getDigests _ req => decide (4 ≤ req.length)
  | .getCertificate _ req => decide (4 ≤ req.length)
  | .challenge _ req => decide (4 ≤ req.length)
  | .getMeasurements _ req => decide (4 ≤ req.length)
  | .keyExchange _ req => decide (4 ≤ req.length)
  | .finish _ req => decide (4 ≤ req.length)
  | .heartbeatSpdm _ req => decide (4 ≤ req.length)
  | .endSession _ req => decide (4 ≤ req.length)
  | .vendorDefinedRequest _ req => decide (4 ≤ req.length)
  | .debugUnlock _ => true
  | .secMeasselWrite who _ => who.wf
  | .secPkselWrite who _ => who.wf
  | .porstRise b => b.wf
  | .sagTrigger cause => decide (0 < cause.val)
  | .saveDone cut => cut.all (fun k => decide (1 ≤ k) && decide (k ≤ 6))
  | .sagRestart b => b.wf
  | .pwrWarm _ => true
  | .jtagWarmReset => true
  | .pgoodTFall _ _ => true
  | .telemetryRecord => true
  | .alarmChange code inst _ _ => alarmExists code inst
  | .alarmSend => true
  | .recvBufferComplete _ => true
  | .summaryPeriod => true
  | .pathUp _ => true
  | .packageNetworkDefect _ => true
  | .pathDown _ => true
  | .canErrorStateChange _ _ => true
  | .mgmtPortFrame _ => true
  | .slowPathTransmit _ _ fr _ => decide (0 < fr.length)
  | .mirrorRebuild _ => true
  | .restageDone _ => true
  | .configSpaceWrite c => c.wf
  | .doeDiscovery _ => true
  | .tapReset => true
  | .pcieLinkTrained rate width _ => [3, 4, 5].contains rate && [4, 8, 16].contains width
  | .vholdRise b => b.wf

end Sys2Proof
end

