-- ==== Sys2Proof/Certificates/Slice0/Obligations.lean ====
section
/-! DEFINITION. The statements for the provers. A statement about commands says of each, for every state of a live device and the operands
that meet its hypotheses, that exec answers a next state and what that state holds. -/

open Sys2Proof Sys2Proof.Machine

/-- For every command c and state s with c at the front of its queue, step of s is exec of c on s with the rest of the queue. The queue is
the model's own (see NOTES.md): the spec's commands arrive one at a time. (95 What each step holds) -/
def Obligations.StepRunsTheFrontCommand : Prop :=
  ∀ (c : Instr) (rest : List Instr) (s : Machine.State), s.pending = c :: rest → Machine.step s = Machine.exec c { s with pending := rest }

/-- The model's choice of log entry 1: on an empty queue a step answers a next state with an empty queue; a device that runs moves its
clock on by 40 tenths of a nanosecond and keeps its memories, cores, partitions and fuses; the clock runs on in the save of a warm reset;
a device without supply, frozen or not saving stays as it is. (95 What each step holds) -/
def Obligations.AnIdleStepPassesOneTick : Prop :=
  ∀ (s : Machine.State), s.pending = [] → ∃ t, Machine.step s = .next t ∧ t.pending = [] ∧ (s.dev.alive = true → t.dev.now = s.dev.now + 40 ∧ t.dev.tensor = s.dev.tensor ∧ t.dev.fuses = s.dev.fuses) ∧ (s.dev.alive = false → s.dev.pwr.saving.isSome = true → s.dev.pwr.frozen = false → t.dev.now = s.dev.now + 40) ∧ (s.dev.alive = false → s.dev.pwr.saving = none ∨ s.dev.pwr.frozen = true → t = s)

/-- For every command c and state s, exec answers a next state (no command faults or is refused) whose queue is that of s. (95 What each
step holds) -/
def Obligations.EveryCommandAnswersAndLeavesTheQueue : Prop :=
  ∀ (c : Instr) (s : Machine.State), ∃ t, Machine.exec c s = .next t ∧ t.pending = s.pending

/-- In a state whose device is not alive every command but PORST_RISE, VHOLD_RISE, SAG_TRIGGER, SAVE_DONE and SAG_RESTART leaves the whole
state as it is, and the commands of the time unit do so too unless the save of a warm reset runs, through which that unit goes on. (R280,
R464, R465, R467, R491) -/
def Obligations.WithoutSupplyOnlyTheSuppliesAct : Prop :=
  ∀ (c : Instr) (s : Machine.State), s.dev.alive = false → (∀ b, c ≠ .porstRise b) → (∀ b, c ≠ .vholdRise b) → (∀ k, c ≠ .sagTrigger k) → (∀ k, c ≠ .saveDone k) → (∀ b, c ≠ .sagRestart b) → c.timeUnit = false ∨ s.dev.pwr.saving = none ∨ s.dev.pwr.frozen = true → Machine.exec c s = .next s

/-- For every command that is not in the list altersControl: the security engine, the power state, the dictionary, firmware, the supplies,
the clock and the popped words of the queues are unchanged. (95 What each step holds) -/
def Obligations.FrameOfControl : Prop :=
  ∀ (c : Instr) (s t : Machine.State), c.altersControl = false → Machine.exec c s = .next t → t.dev.control = s.dev.control

/-- For every command that is not in the list altersTensor: both memories (every byte), every core, lock and partition, the fault manager
and the model store are unchanged. (95 What each step holds) -/
def Obligations.FrameOfTheTensorSide : Prop :=
  ∀ (c : Instr) (s t : Machine.State), c.altersTensor = false → Machine.exec c s = .next t → t.dev.tensor = s.dev.tensor

/-- For every command that is not in the list altersPlane: ports, packets, flow entries, rules, policers, egress queues, the Huddle and
the time unit are unchanged. (95 What each step holds) -/
def Obligations.FrameOfTheFlowPlane : Prop :=
  ∀ (c : Instr) (s t : Machine.State), c.altersPlane = false → Machine.exec c s = .next t → t.dev.plane = s.dev.plane

/-- For every command that is not in the list altersHost: the host interface is unchanged but for the pending MSI-X raises. (95 What each
step holds) -/
def Obligations.FrameOfTheHostInterface : Prop :=
  ∀ (c : Instr) (s t : Machine.State), c.altersHost = false → Machine.exec c s = .next t → t.dev.hostRest = s.dev.hostRest

/-- For every command that is not in the list altersQueues, altersCatcher or altersErrorLog, the priority queues, the Catcher or the error
log are unchanged; for every command of the list keepsRegisters every plain register is unchanged. (95 What each step holds) -/
def Obligations.FramesOfUnitsAndRegisters : Prop :=
  (∀ (c : Instr) (s t : Machine.State), c.altersQueues = false → Machine.exec c s = .next t → t.dev.pq = s.dev.pq) ∧ (∀ (c : Instr) (s t : Machine.State), c.altersCatcher = false → Machine.exec c s = .next t → t.dev.cat = s.dev.cat) ∧ (∀ (c : Instr) (s t : Machine.State), c.altersErrorLog = false → Machine.exec c s = .next t → t.dev.erl = s.dev.erl) ∧ (∀ (c : Instr) (s t : Machine.State), c.keepsRegisters = true → Machine.exec c s = .next t → t.dev.regs = s.dev.regs)

/-- For every state whose memories have the canonical form, from reset or not, and every command at the front of its queue, or none, the
next state's memories have it. (95 What each step holds) -/
def Obligations.EveryStepKeepsTheMemoryForm : Prop :=
  ∀ (s t : Machine.State), s.dev.memOk = true → Machine.step s = .next t → t.dev.memOk = true

/-- For every state, from reset or not, and every step of it: no set bit of LCF or of the revocation fuses clears, UDS once overwritten
stays so, the floor and the token counter do not fall, and a legal lifecycle word (thermometers, a return only after a deployment) stays
legal. (R387, R438, R439, R443) -/
def Obligations.EveryStepOnlyBurnsFuses : Prop :=
  ∀ (s t : Machine.State), Machine.step s = .next t → Burns s.dev.fuses t.dev.fuses

/-- State.reset has an empty queue, memories in canonical form, a legal lifecycle word and no open waiting; that the device is not alive
and FAILSAFE_N is asserted until the supplies rise is the model's choice of log entry 4. (R438, R455, R488) -/
def Obligations.ResetHasTheInvariants : Prop :=
  Machine.State.reset.pending = [] ∧ Machine.State.reset.dev.memOk = true ∧ LcfLegal Machine.State.reset.dev.fuses.lcf ∧ Machine.State.reset.dev.alive = false ∧ Machine.State.reset.dev.pwr.saving = none ∧ Machine.State.reset.dev.flow.failsafe = true

/-- A read by a requester of an offset that holds no register answers 0 and changes nothing else; a write by a function changes no state
but its GLB_ACCERR count with what the count shows, and adds nothing to the error log. (R14) -/
def Obligations.OffsetsWithoutARegisterReadZero : Prop :=
  (∀ (s : Machine.State) (who : Req) (off len : Nat), s.dev.alive = true → s.dev.reqOpen who = true → s.dev.crosses who off len = false → s.dev.place who off = .bad 3 → ∃ t, Machine.exec (.pairLowRead who off len) s = .next t ∧ t = { s with dev := s.dev.emit (.read who 0 0) }) ∧
  (∀ (s : Machine.State) (fn : Option Nat) (off len : Nat) (data : BitVec 64), s.dev.alive = true → s.dev.fnOpen fn = true → fnWf fn = true → s.dev.crosses (fnReq fn) off len = false → s.dev.place (fnReq fn) off = .bad 3 → ∃ t, Machine.exec (.registerWrite (fnReq fn) off len data) s = .next t ∧ t.dev.rdN (fnBase fn + glbBase + 0x14) = stick32 (s.dev.rdN (fnBase fn + glbBase + 0x14) + 1) ∧ t.dev.erl = s.dev.erl ∧ t.dev.core = s.dev.core ∧ t.dev.mem = s.dev.mem ∧ t.dev.ptn = s.dev.ptn ∧ t.dev.flow = s.dev.flow ∧ t.dev.dict = s.dev.dict ∧ t.dev.sec = s.dev.sec ∧ t.dev.pq = s.dev.pq ∧ t.dev.lck = s.dev.lck ∧ t.dev.cat = s.dev.cat ∧ t.dev.store = s.dev.store ∧ t.dev.pwr = s.dev.pwr ∧ t.dev.fw = s.dev.fw ∧ t.dev.tmu = s.dev.tmu)

/-- A write by the owning domain frees the lock and clears BROKEN, whatever it writes; a write by any other domain, or to a free lock,
leaves every lock, adds one to LCK_BADREL and, while the report queue has room, makes one advisory report of the lock. (R166) -/
def Obligations.LocksReleaseOnlyToTheirOwner : Prop :=
  (∀ (s : Machine.State) (who : Req) (n : Fin 256), s.dev.alive = true → s.dev.mayWrite who (lckBase + 4 * n) = true → (s.dev.lckAt n).held = true → (s.dev.lckAt n).owner = who.owner → ∃ t, Machine.exec (.lckAcqWrite who n) s = .next t ∧ t.dev.lckAt n = { s.dev.lckAt n with held := false, owner := 0, broken := false } ∧ t.dev.regs = s.dev.regs ∧ t.dev.erl = s.dev.erl) ∧
  (∀ (s : Machine.State) (who : Req) (n : Fin 256), s.dev.alive = true → s.dev.mayWrite who (lckBase + 4 * n) = true → (s.dev.lckAt n).held = false ∨ (s.dev.lckAt n).owner ≠ who.owner → s.dev.erl.queue.length < 64 → ∃ t, Machine.exec (.lckAcqWrite who n) s = .next t ∧ t.dev.lck = s.dev.lck ∧ t.dev.rdN (lckBase + 0x804) = stick32 (s.dev.rdN (lckBase + 0x804) + 1) ∧ ∃ e, t.dev.erl.queue = s.dev.erl.queue ++ [e] ∧ e.source = 5 ∧ e.code = 1 ∧ e.cls = 0 ∧ e.detail = (n.val + 256 * (if (s.dev.lckAt n).held then (s.dev.lckAt n).owner else 0) + 16384 * b2n (!(s.dev.lckAt n).held) + 65536 * who.owner) % 2 ^ 32)

/-- A push with room appends the 32 staged bytes at a level from 0 to 7; a push into a queue that holds its depth changes no entry, sets
PQ_EVENT.OVERRUN and adds one to PQ_OVRCNT; a pop takes out the first entry of the highest level held and leaves the others in order; a
pop of an empty queue answers EMPTY and changes no entry, lock, core, memory byte or register of the block. (R160) -/
def Obligations.PriorityQueuesKeepTheirOrder : Prop :=
  (∀ (s : Machine.State) (who : Req) (n : Fin 64) (level : Nat), s.dev.alive = true → s.dev.mayWrite who (pqBase + 0x100 * n + 0x14) = true → s.dev.pqMayPush who n = true → (s.dev.pqAt n).ents.length < (s.dev.pqAt n).cap → ∃ t, Machine.exec (.pqPushctl who n level) s = .next t ∧ ∃ e, (t.dev.pqAt n).ents = (s.dev.pqAt n).ents ++ [e] ∧ e.data = s.dev.pqStaged who n ∧ e.data.length = 32 ∧ e.level = level % 8) ∧
  (∀ (s : Machine.State) (who : Req) (n : Fin 64) (level : Nat), s.dev.alive = true → s.dev.mayWrite who (pqBase + 0x100 * n + 0x14) = true → s.dev.pqMayPush who n = true → (s.dev.pqAt n).cap ≤ (s.dev.pqAt n).ents.length → ∃ t, Machine.exec (.pqPushctl who n level) s = .next t ∧ (t.dev.pqAt n).ents = (s.dev.pqAt n).ents ∧ wbit (t.dev.rd (pqBase + 0x100 * n + 0x08)) 2 = true ∧ t.dev.rdN (pqBase + 0x100 * n + 0x10) = stick32 (s.dev.rdN (pqBase + 0x100 * n + 0x10) + 1)) ∧
  (∀ (s : Machine.State) (who : Req) (n : Fin 64), s.dev.alive = true → s.dev.reqOpen who = true → s.dev.pqMayPop who n = true → (s.dev.pqAt n).waiters = [] → (s.dev.pqAt n).ents ≠ [] → ∃ t, Machine.exec (.pqPopctl who n) s = .next t ∧ ∃ as e bs, (s.dev.pqAt n).ents = as ++ e :: bs ∧ (∀ x ∈ as, x.level < e.level) ∧ (∀ x ∈ bs, x.level ≤ e.level) ∧ (t.dev.pqAt n).ents = as ++ bs ∧ t.dev.out.head? = some (.read who 0 (2 ^ 31 + 256 * e.level))) ∧
  (∀ (s : Machine.State) (who : Req) (n : Fin 64), s.dev.alive = true → s.dev.reqOpen who = true → s.dev.pqMayPop who n = true → (s.dev.pqAt n).waiters = [] → (s.dev.pqAt n).ents = [] → ∃ t, Machine.exec (.pqPopctl who n) s = .next t ∧ (t.dev.pqAt n).ents = [] ∧ t.dev.out.head? = some (.read who 0 (2 ^ 30)) ∧ t.dev.regs = s.dev.regs ∧ t.dev.core = s.dev.core ∧ t.dev.mem = s.dev.mem ∧ t.dev.lck = s.dev.lck)

/-- After a sound WRITE of a VF its bytes of the share read as the host data, core store is unchanged and every HBM byte that the write
does not touch, in the share and in its valid mirror, reads as before; the same of a staged slot that meets no error; after a finished
scrub every HBM byte outside the scrubbed granules reads as before and each byte inside reads 0. A write of part of a 64-byte line that
stands under another key brings the line under the share's (log 111). (R128, R129, R134, R138, R367, R449) -/
def Obligations.StoresChangeOnlyTheirBytes : Prop :=
  (∀ (s : Machine.State) (n : Fin 32) (k : Fin 4) (desc data : List Byte), s.dev.alive = true → (s.dev.dmaAt (some n) k).ready = true → (dmaDesc desc).bad true = false → inKind (s.dev.regionsOf n) 5 (dmaDesc desc).shoff (dmaDesc desc).len = true → s.dev.inShare n (dmaDesc desc).shoff (dmaDesc desc).len = true → bit (dmaDesc desc).flags 0 = false → ∃ t, Machine.exec (.dmaWrite n k desc data none none) s = .next t ∧ t.dev.mem.cs = s.dev.mem.cs ∧ (s.dev.doubled n = false → t.dev.shRead n (dmaDesc desc).shoff (dmaDesc desc).len = padTo (dmaDesc desc).len data) ∧ ∀ a, s.dev.shSpares n (dmaDesc desc).shoff (dmaDesc desc).len a = true → t.dev.mem.sameAt s.dev.mem a) ∧
  (∀ (s : Machine.State) (i : Nat) (r : StgReq), s.dev.alive = true → s.dev.store.stg[i]? = some r → r.status = 0 → ∃ t, Machine.exec (.stagingReply i .none false) s = .next t ∧ t.dev.mem.cs = s.dev.mem.cs ∧ (s.dev.doubled r.ptn = false → t.dev.shRead r.ptn r.dst r.data.length = r.data) ∧ ∀ a, s.dev.shSpares r.ptn r.dst r.data.length a = true → t.dev.mem.sameAt s.dev.mem a) ∧
  (∀ (s : Machine.State) (x : Scrub) (rest : List Scrub), s.dev.alive = true → s.dev.store.scrubs = x :: rest → x.dest = none → ∃ t, Machine.exec (.granuleScrubDone) s = .next t ∧ t.dev.mem.cs = s.dev.mem.cs ∧ ∀ a, Tab.get 0 t.dev.mem.hbm a = (if x.stack * stackSize + x.base * granule ≤ a ∧ a < x.stack * stackSize + x.base * granule + x.len * granule then 0 else Tab.get 0 s.dev.mem.hbm a))

/-- A 32-bit write sets the addressed word of a request page, or the RW bits of a plain register while W1C bits written 1 clear; a read of
the low word of a pair latches the high word, a 64-bit one returns both, and a read of any other plain register returns its value; a
narrow read of a free LCK_ACQ acquires the lock and returns the addressed bytes; a pair write stages the low word and takes both words of
TEN_SAVEBASE with the high one; a read that does not complete counts in GLB_TOCNT and ends as Completer Abort. A write of a firmware
component that the permission table does not name takes the protection fault in its place. (R4, R6, R9, R10, R11, R165, R356, R359, R408,
R409, 14 Host interface) -/
def Obligations.RegisterAccessesTakeEffect : Prop :=
  (∀ (s : Machine.State) (who : Req) (off : Nat) (data : BitVec 64) (k : Nat), s.dev.alive = true → s.dev.mayWrite who off = true → off % 4 = 0 → s.dev.place who off = .reg k → (regRow k).isSome = true → mbxBase ≤ k % 0x10000000 → k % 0x10000000 < mbxBase + 0x1000 → (s.dev.mbxAt (if k < 0x10000000 then none else some (k / 0x10000000 - 1))).pending = false → ∃ t, Machine.exec (.registerWrite who off 4 data) s = .next t ∧ t.dev.rdN k = data.toNat % 2 ^ 32) ∧
  (∀ (s : Machine.State) (who : Req) (off : Nat) (data : BitVec 64) (k : Nat) (r : RegRow), s.dev.alive = true → s.dev.mayWrite who off = true → off % 4 = 0 → s.dev.place who off = .reg k → PlainReg k r = true → ∃ t, Machine.exec (.registerWrite who off 4 data) s = .next t ∧ t.dev.rdN k = (let v := s.dev.rdN k - Nat.land (s.dev.rdN k) (Nat.land r.rw m32) + Nat.land data.toNat (Nat.land r.rw m32); v - Nat.land v (Nat.land (Nat.land r.w1c m32) data.toNat)) % 2 ^ 32) ∧
  (∀ (s : Machine.State) (who : Req) (off len k : Nat), s.dev.alive = true → s.dev.reqOpen who = true → off % 4 = 0 → 0 < len → len ≤ 4 → s.dev.place who off = .reg k → isPairLow k = true → ∃ t, Machine.exec (.pairLowRead who off len) s = .next t ∧ Tab.get 0 t.dev.host.rlatch (latchKey who (k + 4)) = s.dev.regValue who (k + 4) ∧ t.dev.out.head? = some (.read who 0 (s.dev.regValue who k % 2 ^ (8 * len)))) ∧
  (∀ (s : Machine.State) (who : Req) (off len k : Nat), s.dev.alive = true → s.dev.reqOpen who = true → off % 4 = 0 → 0 < len → len ≤ 4 → s.dev.place who off = .reg k → isPairLow k = false → isPairLow (k - 4) = false → readActs k = false → ∃ t, Machine.exec (.pairLowRead who off len) s = .next t ∧ t = { s with dev := s.dev.emit (.read who 0 (s.dev.regValue who k % 2 ^ (8 * len))) }) ∧
  (∀ (s : Machine.State) (who : Req) (off len k : Nat), s.dev.alive = true → s.dev.reqOpen who = true → off % 4 = 0 → 0 < len → len ≤ 4 → s.dev.place who off = .reg k → isPairLow k = false → isPairLow (k - 4) = true → ∃ t, Machine.exec (.pairLowRead who off len) s = .next t ∧ t = { s with dev := s.dev.emit (.read who 0 (Tab.get 0 s.dev.host.rlatch (latchKey who k) % 2 ^ (8 * len))) }) ∧
  (∀ (s : Machine.State) (who : Req) (off k : Nat) (data : Word), s.dev.alive = true → s.dev.mayWrite who off = true → s.dev.place who off = .reg k → isPairLow k = true → s.dev.pairCause who k = none → ∃ t, Machine.exec (.pairLowWrite who off data) s = .next t ∧ Tab.get 0 t.dev.host.wlatch (latchKey who k) = data.toNat ∧ t.dev.regs = s.dev.regs) ∧
  (∀ (s : Machine.State) (who : Req) (off : Nat) (c : Fin 32) (data : Word), s.dev.alive = true → s.dev.mayWrite who off = true → s.dev.place who off = .reg (tenReg c 0x1C) → s.dev.pairCause who (tenReg c 0x18) = none → ∃ t, Machine.exec (.pairHighWrite who off data) s = .next t ∧ t.dev.rdN (tenReg c 0x18) = Tab.get 0 s.dev.host.wlatch (latchKey who (tenReg c 0x18)) / 16384 * 16384 % 2 ^ 32 ∧ t.dev.rdN (tenReg c 0x1C) = data.toNat % 256) ∧
  (∀ (s : Machine.State) (fn : Option Nat) (isWrite : Bool), s.dev.alive = true → s.dev.fnOpen fn = true → fnWf fn = true → ∃ t, Machine.exec (.readTimeout fn isWrite) s = .next t ∧ t.dev.rdN (fnBase fn + glbBase + 0x20) = stick32 (s.dev.rdN (fnBase fn + glbBase + 0x20) + 1) ∧ (fn = none → wbit (t.dev.rd (glbBase + 0x0C)) 1 = true) ∧ (isWrite = false → t.dev.out.head? = some (.read (fnReq fn) 2 0))) ∧
  (∀ (s : Machine.State) (who : Req) (off len : Nat) (n : Fin 256), s.dev.alive = true → s.dev.reqOpen who = true → off % 4 = 0 → 0 < len → len ≤ 4 → s.dev.place who off = .reg (lckBase + 4 * n) → (s.dev.lckAt n).held = false → ∃ t, Machine.exec (.pairLowRead who off len) s = .next t ∧ t.dev.lckAt n = { s.dev.lckAt n with held := true, owner := who.owner, ptr := (who.port + 1) % 84 } ∧ t.dev.out = .read who 0 ((t.dev.lckAt n).word true % 2 ^ (8 * len)) :: s.dev.out) ∧
  (∀ (s : Machine.State) (who : Req) (off k : Nat), s.dev.alive = true → s.dev.reqOpen who = true → off % 8 = 0 → s.dev.place who off = .reg k → isPairLow k = true → ∃ t, Machine.exec (.pairLowRead who off 8) s = .next t ∧ t.dev.out = .read who 0 (s.dev.regValue who k + 2 ^ 32 * s.dev.regValue who (k + 4)) :: s.dev.out ∧ t.dev.regs = s.dev.regs) ∧
  (∀ (s : Machine.State) (c off len : Nat) (data : BitVec 64), s.dev.alive = true → s.dev.reqOpen (.fw c) = true → s.dev.fwMayWrite c (off / 4 * 4) = false → ∃ t, Machine.exec (.registerWrite (.fw c) off len data) s = .next t ∧ t = { s with dev := s.dev.protFault c (off / 4 * 4) })

/-- A write that crosses a register boundary of a function is counted with cause 2, a 32-bit write of a read-only register with cause 4,
and a write to the request page while PENDING is 1 with cause 9: GLB_ACCERR rises and GLB_ACCLAST1 holds the cause; the register keeps its
value. (R4, R13, R355, R359) -/
def Obligations.AccessesTurnedAwayAreCounted : Prop :=
  (∀ (s : Machine.State) (fn : Option Nat) (off len : Nat) (data : BitVec 64), s.dev.alive = true → s.dev.fnOpen fn = true → fnWf fn = true → s.dev.crosses (fnReq fn) off len = true → ∃ t, Machine.exec (.registerWrite (fnReq fn) off len data) s = .next t ∧ t.dev.rdN (fnBase fn + glbBase + 0x14) = stick32 (s.dev.rdN (fnBase fn + glbBase + 0x14) + 1) ∧ t.dev.rdN (fnBase fn + glbBase + 0x1C) % 16 = 2) ∧
  (∀ (s : Machine.State) (fn : Option Nat) (off : Nat) (data : BitVec 64) (k : Nat) (r : RegRow), s.dev.alive = true → s.dev.fnOpen fn = true → fnWf fn = true → off % 4 = 0 → s.dev.place (fnReq fn) off = .reg k → regRow k = some r → r.writable = false → isPairLow k = false → isPairLow (k - 4) = false → ¬(mbxBase ≤ k % 0x10000000 ∧ k % 0x10000000 < mbxBase + 0x1000) → ¬(msixBase ≤ k % 0x10000000 ∧ k % 0x10000000 < pbaBase) → ∃ t, Machine.exec (.registerWrite (fnReq fn) off 4 data) s = .next t ∧ t.dev.rdN (fnBase fn + glbBase + 0x14) = stick32 (s.dev.rdN (fnBase fn + glbBase + 0x14) + 1) ∧ t.dev.rdN (fnBase fn + glbBase + 0x1C) % 16 = 4) ∧
  (∀ (s : Machine.State) (fn : Option Nat) (off len : Nat) (data : BitVec 64) (k : Nat), s.dev.alive = true → s.dev.fnOpen fn = true → fnWf fn = true → s.dev.crosses (fnReq fn) off len = false → s.dev.place (fnReq fn) off = .reg k → (regRow k).isSome = true → mbxBase ≤ k % 0x10000000 → k % 0x10000000 < mbxBase + 0x1000 → (s.dev.mbxAt (if k < 0x10000000 then none else some (k / 0x10000000 - 1))).pending = true → ∃ t, Machine.exec (.registerWrite (fnReq fn) off len data) s = .next t ∧ t.dev.rdN (fnBase fn + glbBase + 0x14) = stick32 (s.dev.rdN (fnBase fn + glbBase + 0x14) + 1) ∧ t.dev.rdN (fnBase fn + glbBase + 0x1C) % 16 = 9 ∧ t.dev.rd k = s.dev.rd k)

/-- RING sets PENDING; RACK clears RESP; firmware takes a pending request, sets TAKEN, and holds a HELLO for its answer; a segment that is
not the last is assembled and answered with OK; HELLO with the offered MAJOR agrees the smaller MINOR and the common features, and answers
with OK. (R359, R360, R361, R362) -/
def Obligations.MailboxDoorbellsTakeAndAnswer : Prop :=
  (∀ (s : Machine.State) (fn : Option Nat), s.dev.alive = true → s.dev.fnOpen fn = true → (s.dev.mbxAt fn).pending = false → ∃ t, Machine.exec (.mbxRing fn) s = .next t ∧ t = { s with dev := s.dev.mbxSet fn { s.dev.mbxAt fn with pending := true } }) ∧
  (∀ (s : Machine.State) (fn : Option Nat), s.dev.alive = true → s.dev.fnOpen fn = true → (s.dev.mbxAt fn).resp = true → (s.dev.mbxAt fn).waiting = none → ∃ t, Machine.exec (.mbxRack fn) s = .next t ∧ t = { s with dev := s.dev.mbxSet fn { s.dev.mbxAt fn with resp := false, page := none } }) ∧
  (∀ (s : Machine.State) (fn : Option Nat) (r : MbxRsp), s.dev.alive = true → s.dev.fnOpen fn = true → (s.dev.mbxAt fn).resp = true → (s.dev.mbxAt fn).waiting = some r → ∃ t, Machine.exec (.mbxRack fn) s = .next t ∧ (t.dev.mbxAt fn).resp = true ∧ (t.dev.mbxAt fn).page = some r ∧ (t.dev.mbxAt fn).pending = false) ∧
  (∀ (s : Machine.State) (fn : Option Nat), s.dev.alive = true → (s.dev.mbxAt fn).pending = true → (s.dev.mbxAt fn).cur = none → (s.dev.mbxAt fn).waiting = none → s.dev.fwReady = true → s.dev.helds = true → ∃ t, Machine.exec (.mbxTake fn) s = .next t ∧ t = { s with dev := s.dev.mbxSet fn { s.dev.mbxAt fn with taken := true } }) ∧
  (∀ (s : Machine.State) (fn : Option Nat), s.dev.alive = true → (s.dev.mbxAt fn).pending = true → (s.dev.mbxAt fn).cur = none → (s.dev.mbxAt fn).waiting = none → s.dev.fwReady = true → s.dev.helds = false → s.dev.romServes = false → subN (s.dev.mbxPage fn 16) 2 2 = 1 → subN (s.dev.mbxPage fn 16) 4 2 ≤ 4080 → subN (s.dev.mbxPage fn 16) 6 2 ≤ 1 → subN (s.dev.mbxPage fn 16) 12 2 = 0 → subN (s.dev.mbxPage fn 16) 14 2 = 0 → ∃ t, Machine.exec (.mbxTake fn) s = .next t ∧ (t.dev.mbxAt fn).taken = true ∧ (t.dev.mbxAt fn).pending = true ∧ ((t.dev.mbxAt fn).cur.map (fun c => (c.opcode, c.seq))) = some (1, subN (s.dev.mbxPage fn 16) 8 4)) ∧
  (∀ (s : Machine.State) (fn : Option Nat) (c : MbxMsg), s.dev.alive = true → (s.dev.mbxAt fn).cur = some c → c.more = true → c.opcode ≠ 0x21 ∨ s.dev.partials < 48 → (s.dev.mbxAt fn).resp = false → (s.dev.mbxAt fn).discard = false → ∃ t, Machine.exec (.messageSegment fn) s = .next t ∧ Answered t.dev fn c 0 [] ∧ (t.dev.mbxAt fn).asm = some c) ∧
  (∀ (s : Machine.State) (fn : Option Nat) (c : MbxMsg), s.dev.alive = true → s.dev.asked fn 1 c = true → subN c.payload 0 1 = (s.dev.mbxOffer fn).1 → 16 ≤ (c.payload.drop 2).length → ∃ t, Machine.exec (.hello fn) s = .next t ∧ (t.dev.mbxAt fn).hello = true ∧ (t.dev.mbxAt fn).agMajor = (s.dev.mbxOffer fn).1 ∧ (t.dev.mbxAt fn).agMinor = min (subN c.payload 1 1) (s.dev.mbxOffer fn).2.1 ∧ (t.dev.mbxAt fn).feat = Nat.land (subN (c.payload.drop 2) 8 8) (s.dev.mbxOffer fn).2.2 ∧ ((t.dev.mbxAt fn).page.map (fun r => r.status)) = some 0)

/-- An install with sound ranges and a free place is queued under the next ticket and answered with it; the status of a known ticket is
its state, outcome, HOSTDMA flag and step, of an unknown one state 3; freeing a bundle answers OK with the result of the free. PTN_RESET
of the PF, or of a VF for its own partition, resets the partition and answers OK; DIRECT_GRANT sets the granted bits and then clears the
revoked ones, and answers with the new value. A DICT_READ of an entry the function may read answers OK with abort code 0, the size of the
value and up to 4,072 bytes from the offset; a sound DICT_WRITE whose commit leaves the mailbox free to answer answers OK with the abort
code of the write (0 for a commit). (R363, R364, R372, R329, R389, R391, R396) -/
def Obligations.HostMessagesAnswer : Prop :=
  (∀ (s : Machine.State) (c : MbxMsg), s.dev.alive = true → s.dev.asked none 0x30 c = true → rangesIn c.payload = true → (s.dev.store.installs.filter (fun x => decide (x.state < 2))).length < 8 → ∃ t, Machine.exec (.bundleInstall) s = .next t ∧ Answered t.dev none c 0 (leBytes 4 s.dev.store.nextTicket) ∧ t.dev.store.nextTicket = s.dev.store.nextTicket + 1) ∧
  (∀ (s : Machine.State) (c : MbxMsg), s.dev.alive = true → s.dev.asked none 0x31 c = true → 4 ≤ c.payload.length → s.dev.store.installs.find? (fun x => decide (x.ticket = subN c.payload 0 4)) = none → ∃ t, Machine.exec (.bundleStatus) s = .next t ∧ Answered t.dev none c 0 (leBytes 1 3 ++ leBytes 4 0)) ∧
  (∀ (s : Machine.State) (c : MbxMsg) (x : Install), s.dev.alive = true → s.dev.asked none 0x31 c = true → 4 ≤ c.payload.length → s.dev.store.installs.find? (fun x => decide (x.ticket = subN c.payload 0 4)) = some x → ∃ t, Machine.exec (.bundleStatus) s = .next t ∧ Answered t.dev none c 0 (leBytes 1 x.state ++ leBytes 1 (if x.hostdma then 0xFF else x.outcome) ++ leBytes 1 (b2n x.hostdma) ++ leBytes 1 0 ++ leBytes 1 x.step)) ∧
  (∀ (s : Machine.State) (c : MbxMsg), s.dev.alive = true → s.dev.asked none 0x32 c = true → 32 ≤ c.payload.length → ∃ t, Machine.exec (.bundleFree) s = .next t ∧ Answered t.dev none c 0 (leBytes 1 (if (s.dev.bundleFree (c.payload.take 32)).2 then 0 else 0x0C)) ∧ t.dev.store = (s.dev.bundleFree (c.payload.take 32)).1.store) ∧
  (∀ (s : Machine.State) (fn : Option Nat) (c : MbxMsg), s.dev.alive = true → s.dev.asked fn 0x40 c = true → 1 ≤ c.payload.length → subN c.payload 0 1 ≤ 31 → fn = none ∨ fn = some (subN c.payload 0 1) → ∃ t, Machine.exec (.ptnReset fn) s = .next t ∧ Answered t.dev fn c 0 [] ∧ t.dev.core = (s.dev.ptnReset (subN c.payload 0 1)).core ∧ t.dev.ptn = (s.dev.ptnReset (subN c.payload 0 1)).ptn) ∧
  (∀ (s : Machine.State) (c : MbxMsg), s.dev.alive = true → s.dev.asked none 0x50 c = true → 8 ≤ c.payload.length → ∃ t, Machine.exec (.directGrant) s = .next t ∧ t.dev.host.direct = Nat.lor s.dev.host.direct (subN c.payload 0 4) - Nat.land (Nat.lor s.dev.host.direct (subN c.payload 0 4)) (subN c.payload 4 4) ∧ Answered t.dev none c 0 (leBytes 4 t.dev.host.direct)) ∧
  (∀ (s : Machine.State) (fn : Option Nat) (c : MbxMsg), s.dev.alive = true → s.dev.asked fn 0x40 c = true → 1 ≤ c.payload.length → subN c.payload 0 1 ≤ 31 → fn ≠ none → fn ≠ some (subN c.payload 0 1) → ∃ t, Machine.exec (.ptnReset fn) s = .next t ∧ Answered t.dev fn c 5 [] ∧ t.dev.core = s.dev.core ∧ t.dev.ptn = s.dev.ptn) ∧
  (∀ (s : Machine.State) (fn : Option Nat) (c : MbxMsg) (v : List Byte), s.dev.alive = true → s.dev.asked fn 0x20 c = true → 8 ≤ c.payload.length → subN c.payload 3 1 = 0 → s.dev.dictRead (.mbx fn) (subN c.payload 0 2) (subN c.payload 2 1) = .ok v → ∃ t, Machine.exec (.dictRead fn) s = .next t ∧ Answered t.dev fn c 0 (leBytes 4 0 ++ leBytes 4 v.length ++ (v.drop (subN c.payload 4 4)).take 4072) ∧ t.dev.dict = s.dev.dict) ∧
  (∀ (s : Machine.State) (fn : Option Nat) (ok : Bool) (c : MbxMsg) (index sb : Nat) (tok : Option (List Byte)) (data : List Byte), s.dev.alive = true → s.dev.asked fn 0x21 c = true → writeMsg c.payload = some (index, sb, tok, data) → ((s.dev.dictWrite (.mbx fn) index sb data tok ok).1.mbxAt fn).resp = false → ((s.dev.dictWrite (.mbx fn) index sb data tok ok).1.mbxAt fn).discard = false → ∃ t, Machine.exec (.dictWrite fn ok) s = .next t ∧ Answered t.dev fn c 0 (leBytes 4 (s.dev.dictWrite (.mbx fn) index sb data tok ok).2) ∧ t.dev.dict = (s.dev.dictWrite (.mbx fn) index sb data tok ok).1.dict)

/-- For a VF whose CORE_CTRL names a rank with a core: set-PC writes TEN_PC with its low six bits 0 unless LOCK holds it; set-savebase
writes both words; RUN starts an idle core; PREEMPT freezes a running one; RESUME of an idle save brings a saved core to IDLE; RESET
brings any core to IDLE. Each answers OK with the TEN_STATUS that results. RUN starts an idle core whose first descriptor lies in the
store, PREEMPT freezes a running or waiting core, RESUME of an idle save brings a saved core to IDLE, RESET brings any core to IDLE and
keeps LOCK and the store, LOCK sets LOCK; the save of a frozen core with nothing to drain brings it to SAVED. (R363, R122, R123, R115,
R119, R120, R500) -/
def Obligations.CoreControlActs : Prop :=
  (∀ (s : Machine.State) (n : Fin 32) (c : MbxMsg) (k : Nat), s.dev.alive = true → s.dev.asked (some n) 0x41 c = true → subN c.payload 1 1 = 0 → s.dev.coreOfRank n (subN c.payload 0 1) = some k → (s.dev.coreAt k).lock = false → ∃ t, Machine.exec (.coreCtrlSetPc n) s = .next t ∧ t.dev.pc k = subN c.payload 8 8 % 2 ^ 32 / 64 * 64 ∧ (t.dev.coreAt k).pcSet = true ∧ Answered t.dev (some n) c 0 (leBytes 4 (t.dev.tenStatus k))) ∧
  (∀ (s : Machine.State) (n : Fin 32) (c : MbxMsg) (k : Nat), s.dev.alive = true → s.dev.asked (some n) 0x41 c = true → subN c.payload 1 1 = 1 → s.dev.coreOfRank n (subN c.payload 0 1) = some k → (s.dev.coreAt k).lock = false → ∃ t, Machine.exec (.coreCtrlSetSavebase n) s = .next t ∧ t.dev.rdN (tenReg k 0x18) = subN c.payload 8 8 % 2 ^ 32 / 16384 * 16384 ∧ t.dev.rdN (tenReg k 0x1C) = subN c.payload 8 8 / 2 ^ 32 % 256 ∧ Answered t.dev (some n) c 0 (leBytes 4 (t.dev.tenStatus k))) ∧
  (∀ (s : Machine.State) (n : Fin 32) (c : MbxMsg) (k : Nat), s.dev.alive = true → s.dev.asked (some n) 0x41 c = true → subN c.payload 1 1 = 2 → s.dev.coreOfRank n (subN c.payload 0 1) = some k → (s.dev.coreAt k).st = .idle → s.dev.pc k + 64 ≤ csSize → ∃ t, Machine.exec (.coreCtrlRun n) s = .next t ∧ (t.dev.coreAt k).st = .run ∧ Answered t.dev (some n) c 0 (leBytes 4 (t.dev.tenStatus k))) ∧
  (∀ (s : Machine.State) (n : Fin 32) (c : MbxMsg) (k : Nat), s.dev.alive = true → s.dev.asked (some n) 0x41 c = true → subN c.payload 1 1 = 3 → s.dev.coreOfRank n (subN c.payload 0 1) = some k → (s.dev.coreAt k).st = .run ∨ (s.dev.coreAt k).st = .wait → ∃ t, Machine.exec (.coreCtrlPreempt n) s = .next t ∧ (t.dev.coreAt k).st = .freezing ∧ Answered t.dev (some n) c 0 (leBytes 4 (t.dev.tenStatus k))) ∧
  (∀ (s : Machine.State) (n : Fin 32) (c : MbxMsg) (k : Nat), s.dev.alive = true → s.dev.asked (some n) 0x41 c = true → subN c.payload 1 1 = 4 → s.dev.coreOfRank n (subN c.payload 0 1) = some k → (s.dev.coreAt k).st = .saved → s.dev.inShare (s.dev.corePtn k) (s.dev.saveBase k) 9728 = true → subN (s.dev.shRead (s.dev.corePtn k) (s.dev.saveBase k) 9728) 0 1 = 1 → bit (subN (s.dev.shRead (s.dev.corePtn k) (s.dev.saveBase k) 9728) 3 1) 0 = true → bit (subN (s.dev.shRead (s.dev.corePtn k) (s.dev.saveBase k) 9728) 3 1) 1 = false → ∃ t, Machine.exec (.coreCtrlResume n) s = .next t ∧ (t.dev.coreAt k).st = .idle ∧ Answered t.dev (some n) c 0 (leBytes 4 (t.dev.tenStatus k))) ∧
  (∀ (s : Machine.State) (n : Fin 32) (c : MbxMsg) (k : Nat), s.dev.alive = true → s.dev.asked (some n) 0x41 c = true → subN c.payload 1 1 = 5 → s.dev.coreOfRank n (subN c.payload 0 1) = some k → s.dev.coreUp k = true → ∃ t, Machine.exec (.coreCtrlReset n) s = .next t ∧ (t.dev.coreAt k).st = .idle ∧ (t.dev.coreAt k).lock = (s.dev.coreAt k).lock ∧ t.dev.mem = s.dev.mem ∧ Answered t.dev (some n) c 0 (leBytes 4 (t.dev.tenStatus k))) ∧
  (∀ (s : Machine.State) (who : Req) (c : Fin 32), s.dev.alive = true → s.dev.reqOpen who = true → who.isFw = false → s.dev.tenDenied who c = none → (s.dev.coreAt c).st = .idle → s.dev.pc c + 64 ≤ csSize → ∃ t, Machine.exec (.tenCtrlRun who c) s = .next t ∧ (t.dev.coreAt c).st = .run ∧ (t.dev.coreAt c).ctr = [0, 0, 0, 0] ∧ t.dev.rdN (tenReg c 0x24) = 0 ∧ t.dev.mem = s.dev.mem) ∧
  (∀ (s : Machine.State) (who : Req) (c : Fin 32), s.dev.alive = true → s.dev.reqOpen who = true → who.isFw = false → s.dev.tenDenied who c = none → (s.dev.coreAt c).st = .run ∨ (s.dev.coreAt c).st = .wait → ∃ t, Machine.exec (.tenCtrlPreempt who c) s = .next t ∧ (t.dev.coreAt c).st = .freezing ∧ (t.dev.coreAt c).waiting = none ∧ t.dev.mem = s.dev.mem) ∧
  (∀ (s : Machine.State) (who : Req) (c : Fin 32), s.dev.alive = true → s.dev.reqOpen who = true → who.isFw = false → s.dev.tenDenied who c = none → (s.dev.coreAt c).st = .saved → s.dev.inShare (s.dev.corePtn c) (s.dev.saveBase c) 9728 = true → subN (s.dev.shRead (s.dev.corePtn c) (s.dev.saveBase c) 9728) 0 1 = 1 → bit (subN (s.dev.shRead (s.dev.corePtn c) (s.dev.saveBase c) 9728) 3 1) 0 = true → bit (subN (s.dev.shRead (s.dev.corePtn c) (s.dev.saveBase c) 9728) 3 1) 1 = false → ∃ t, Machine.exec (.tenCtrlResume who c) s = .next t ∧ (t.dev.coreAt c).st = .idle ∧ t.dev.mem = s.dev.mem) ∧
  (∀ (s : Machine.State) (who : Req) (c : Fin 32), s.dev.alive = true → s.dev.reqOpen who = true → who.isFw = false → s.dev.tenDenied who c = none → s.dev.coreUp c = true → ∃ t, Machine.exec (.tenCtrlReset who c) s = .next t ∧ (t.dev.coreAt c).st = .idle ∧ (t.dev.coreAt c).lock = (s.dev.coreAt c).lock ∧ t.dev.mem = s.dev.mem) ∧
  (∀ (s : Machine.State) (who : Req) (c : Fin 32), s.dev.alive = true → s.dev.mayWrite who (tenReg c 4) = true → who.maySetLock = true → s.dev.tenDenied who c = none → ∃ t, Machine.exec (.tenCtrlLock who c) s = .next t ∧ t = { s with dev := s.dev.coreUpd c (fun x => { x with lock := true }) }) ∧
  (∀ (s : Machine.State) (c : Fin 32), s.dev.alive = true → (s.dev.coreAt c).st = .freezing → (s.dev.coreAt c).emit = [] → (s.dev.coreAt c).links = [] → s.dev.inShare (s.dev.corePtn c) (s.dev.saveBase c) 9728 = true → ∃ t, Machine.exec (.preemptSaved c) s = .next t ∧ (t.dev.coreAt c).st = .saved ∧ (t.dev.coreAt c).saves = (s.dev.coreAt c).saves + 1 ∧ wbit (t.dev.rd (tenReg c 0x10)) 2 = true)

/-- DMAQ_CREATE with sound sizes and 4,096-byte-aligned rings makes an inactive queue active and answers OK; DMAQ_DESTROY with no
descriptor running answers with the number of descriptors not completed and clears the queue; a tail or head doorbell in range moves
exactly that index. A sound WRITE of a VF writes its data to the share at the offset and finishes with status 0 and its length; a sound
RECV of the PF opens its buffer behind those open; the completion of a descriptor that pushes nothing and raises nothing writes the
16-byte entry at the ring tail and advances the indexes; a pending MSI-X vector that may send sends one message. (R363, R369, R366, R367,
R368, R370) -/
def Obligations.DmaQueuesActAndRun : Prop :=
  (∀ (s : Machine.State) (fn : Option Nat) (c : MbxMsg), s.dev.alive = true → s.dev.asked fn 0x60 c = true → 24 ≤ c.payload.length → subN c.payload 0 1 < dmaQueues fn → ringSize (subN c.payload 2 2) = true → ringSize (subN c.payload 4 2) = true → subN c.payload 8 8 % 4096 = 0 → subN c.payload 16 8 % 4096 = 0 → (s.dev.dmaAt fn (subN c.payload 0 1)).active = false → ∃ t, Machine.exec (.dmaqCreate fn) s = .next t ∧ t.dev.dmaAt fn (subN c.payload 0 1) = { active := true, sqN := subN c.payload 2 2, cqN := subN c.payload 4 2, sqBase := subN c.payload 8 8, cqBase := subN c.payload 16 8 } ∧ Answered t.dev fn c 0 []) ∧
  (∀ (s : Machine.State) (fn : Option Nat) (c : MbxMsg), s.dev.alive = true → s.dev.asked fn 0x61 c = true → 1 ≤ c.payload.length → subN c.payload 0 1 < dmaQueues fn → (s.dev.dmaAt fn (subN c.payload 0 1)).active = true → (s.dev.dmaAt fn (subN c.payload 0 1)).run = none → ∃ t, Machine.exec (.dmaqDestroy fn) s = .next t ∧ t.dev.dmaAt fn (subN c.payload 0 1) = {} ∧ Answered t.dev fn c 0 (leBytes 4 (s.dev.dmaAt fn (subN c.payload 0 1)).todo)) ∧
  (∀ (s : Machine.State) (fn : Option Nat) (q tail : Nat), s.dev.alive = true → s.dev.fnOpen fn = true → q < dmaQueues fn → (s.dev.dmaAt fn q).active = true → tail % 4096 < (s.dev.dmaAt fn q).sqN → (s.dev.dmaAt fn q).todo + (tail % 4096 + (s.dev.dmaAt fn q).sqN - (s.dev.dmaAt fn q).sqTail) % (s.dev.dmaAt fn q).sqN ≤ (s.dev.dmaAt fn q).sqN - 1 → ∃ t, Machine.exec (.sqDoorbell fn q tail) s = .next t ∧ t = { s with dev := s.dev.dmaSet fn q { s.dev.dmaAt fn q with sqTail := tail % 4096, todo := (s.dev.dmaAt fn q).todo + (tail % 4096 + (s.dev.dmaAt fn q).sqN - (s.dev.dmaAt fn q).sqTail) % (s.dev.dmaAt fn q).sqN } }) ∧
  (∀ (s : Machine.State) (fn : Option Nat) (q head : Nat), s.dev.alive = true → s.dev.fnOpen fn = true → q < dmaQueues fn → (s.dev.dmaAt fn q).active = true → head % 4096 < (s.dev.dmaAt fn q).cqN → (head % 4096 + (s.dev.dmaAt fn q).cqN - (s.dev.dmaAt fn q).cqHead) % (s.dev.dmaAt fn q).cqN ≤ ((s.dev.dmaAt fn q).cqTail + (s.dev.dmaAt fn q).cqN - (s.dev.dmaAt fn q).cqHead) % (s.dev.dmaAt fn q).cqN → ∃ t, Machine.exec (.cqHeadWrite fn q head) s = .next t ∧ t = { s with dev := s.dev.dmaSet fn q { s.dev.dmaAt fn q with cqHead := head % 4096 } }) ∧
  (∀ (s : Machine.State) (n : Fin 32) (q : Fin 4) (desc data : List Byte), s.dev.alive = true → (s.dev.dmaAt (some n) q).ready = true → (dmaDesc desc).bad true = false → inKind (s.dev.regionsOf n) 5 (dmaDesc desc).shoff (dmaDesc desc).len = true → s.dev.inShare n (dmaDesc desc).shoff (dmaDesc desc).len = true → bit (dmaDesc desc).flags 0 = false → ∃ t, Machine.exec (.dmaWrite n q desc data none none) s = .next t ∧ t = { s with dev := (s.dev.shWrite n (dmaDesc desc).shoff (padTo (dmaDesc desc).len data)).dmaSet (some n) q { s.dev.dmaAt (some n) q with run := some { desc := dmaDesc desc, status := 0, bytes := (dmaDesc desc).len } } }) ∧
  (∀ (s : Machine.State) (q : Fin 16) (desc : List Byte), s.dev.alive = true → (s.dev.dmaAt none q).ready = true → (dmaDesc desc).bad false = false → ∃ t, Machine.exec (.dmaRecv q desc) s = .next t ∧ t = { s with dev := s.dev.dmaSet none q { s.dev.dmaAt none q with recv := (s.dev.dmaAt none q).recv ++ [(dmaDesc desc, s.dev.recvNext)] } }) ∧
  (∀ (s : Machine.State) (fn : Option Nat) (q : Nat) (r : DmaDone), s.dev.alive = true → (s.dev.dmaAt fn q).active = true → (s.dev.dmaAt fn q).run = some r → r.desc.flags = 0 → ∃ t, Machine.exec (.dmaComplete fn q) s = .next t ∧ t.dev.out = .hostWrite fn ((s.dev.dmaAt fn q).cqBase + 16 * (s.dev.dmaAt fn q).cqTail) (leBytes 2 r.desc.tag ++ leBytes 2 (((s.dev.dmaAt fn q).sqHead + 1) % (s.dev.dmaAt fn q).sqN) ++ leBytes 1 r.status ++ leBytes 1 (b2n (s.dev.dmaAt fn q).phase) ++ leBytes 2 0 ++ leBytes 4 r.bytes ++ leBytes 4 0) :: s.dev.out ∧ (t.dev.dmaAt fn q).run = none ∧ (t.dev.dmaAt fn q).sqHead = ((s.dev.dmaAt fn q).sqHead + 1) % (s.dev.dmaAt fn q).sqN ∧ (t.dev.dmaAt fn q).todo = (s.dev.dmaAt fn q).todo - 1 ∧ (t.dev.dmaAt fn q).cqTail = ((s.dev.dmaAt fn q).cqTail + 1) % (s.dev.dmaAt fn q).cqN) ∧
  (∀ (s : Machine.State) (fn : Option Nat) (v : Nat), s.dev.alive = true → Tab.get false s.dev.host.pba (64 * fnIx fn + v) = true → s.dev.msixOpen fn v = true → ∃ t, Machine.exec (.msixDeliver fn v) s = .next t ∧ t.dev.out = .msix fn v :: s.dev.out ∧ Tab.get false t.dev.host.pba (64 * fnIx fn + v) = false)

/-- A hot reset or a low PERST_N brings the link down and revokes every grant; the PF function-level reset clears VF Enable, grants and
mailboxes; a VF function-level reset clears its mailbox; training at a supported rate and width brings the link up; a configuration write
sets exactly the enable it names; DOE Discovery answers with the data object type of its index. (R348, R350, R351, R371, R373) -/
def Obligations.LinkAndFunctionResetsAct : Prop :=
  (∀ (s : Machine.State), s.dev.alive = true → ∃ t, Machine.exec (.pcieHotReset) s = .next t ∧ t.dev.host.linkUp = false ∧ t.dev.host.direct = 0 ∧ t.dev.host.vfEnable = false ∧ (t.dev.mbxAt none).pending = false) ∧
  (∀ (s : Machine.State), s.dev.alive = true → s.dev.host.linkUp = true → ∃ t, Machine.exec (.pfFlr) s = .next t ∧ t.dev.host.linkUp = true ∧ t.dev.host.direct = 0 ∧ t.dev.host.vfEnable = false ∧ (t.dev.mbxAt none).pending = false) ∧
  (∀ (s : Machine.State) (n : Fin 32), s.dev.alive = true → s.dev.host.linkUp = true → s.dev.host.vfEnable = true → n.val < s.dev.host.numVfs → ∃ t, Machine.exec (.vfFlr n) s = .next t ∧ (t.dev.mbxAt (some n)).pending = false ∧ (t.dev.mbxAt (some n)).resp = false ∧ (t.dev.mbxAt none) = (s.dev.mbxAt none)) ∧
  (∀ (s : Machine.State), s.dev.alive = true → ∃ t, Machine.exec (.perst) s = .next t ∧ t.dev.host.linkUp = false ∧ t.dev.pwr.perst = true ∧ t.dev.host.direct = 0) ∧
  (∀ (s : Machine.State) (rate width : Nat) (flit : Bool), s.dev.alive = true → rate = 3 ∨ rate = 4 ∨ rate = 5 → width = 4 ∨ width = 8 ∨ width = 16 → ∃ t, Machine.exec (.pcieLinkTrained rate width flit) s = .next t ∧ t.dev.host.linkUp = true ∧ t.dev.rdN (glbBase + 8) = rate + 16 * width + 512 * b2n (flit || decide (rate = 5)) ∧ wbit (t.dev.rd (glbBase + 0x0C)) 2 = true) ∧
  (∀ (s : Machine.State) (on : Bool), s.dev.alive = true → s.dev.host.linkUp = true → ∃ t, Machine.exec (.configSpaceWrite (.vfEnable on)) s = .next t ∧ t = { s with dev := { s.dev with host := { s.dev.host with vfEnable := on } } }) ∧
  (∀ (s : Machine.State) (n : Nat), s.dev.alive = true → s.dev.host.linkUp = true → 1 ≤ n → n ≤ 32 → ∃ t, Machine.exec (.configSpaceWrite (.numVfs n)) s = .next t ∧ t = { s with dev := { s.dev with host := { s.dev.host with numVfs := n } } }) ∧
  (∀ (s : Machine.State) (fn : Option Nat) (on : Bool), s.dev.alive = true → s.dev.host.linkUp = true → ∃ t, Machine.exec (.configSpaceWrite (.mse fn on)) s = .next t ∧ t = { s with dev := { s.dev with host := { s.dev.host with mse := Tab.set false s.dev.host.mse (fnIx fn) on } } }) ∧
  (∀ (s : Machine.State) (fn : Option Nat) (on : Bool), s.dev.alive = true → s.dev.host.linkUp = true → ∃ t, Machine.exec (.configSpaceWrite (.msixEn fn on)) s = .next t ∧ t = { s with dev := { s.dev with host := { s.dev.host with msixEn := Tab.set false s.dev.host.msixEn (fnIx fn) on } } }) ∧
  (∀ (s : Machine.State) (fn : Option Nat) (on : Bool), s.dev.alive = true → s.dev.host.linkUp = true → ∃ t, Machine.exec (.configSpaceWrite (.bme fn on)) s = .next t ∧ Tab.get false t.dev.host.bme (fnIx fn) = on ∧ t.dev.regs = s.dev.regs) ∧
  (∀ (s : Machine.State) (index : Nat), s.dev.alive = true → s.dev.host.linkUp = true → index < 3 → ∃ t, Machine.exec (.doeDiscovery index) s = .next t ∧ t = { s with dev := s.dev.emit (.doe (leBytes 2 1 ++ leBytes 1 index ++ leBytes 1 (if index < 2 then index + 1 else 0))) })

/-- On a port that receives, in mode INLINE, TAP or ENDPOINT, a frame of 64 bytes up to the maximum that is no MAC control frame (but to a
TAP port) and passes the filter of an ENDPOINT port counts in RXFRAMES and RXBYTES and, its cells admitted, becomes the next packet in
stage rx; with ingress MACsec the frame that the checks let through does; a frame shorter than 64 bytes counts as a runt and is not
delivered. The end-of-frame status goes to the oldest frame of the port that has none; a bad one is counted, and no queue keeps the frame.
(R175, R177, R178, R180, R181, R190, R237) -/
def Obligations.ReceivedFramesAreCountedAndDelivered : Prop :=
  (∀ (s : Machine.State) (n : Fin 32) (data : List Byte) (pad : Nat), s.dev.alive = true → s.dev.hears n = true → 1 ≤ s.dev.portMode n → s.dev.portMode n ≤ 3 → 60 ≤ (padded data pad).length → (padded data pad).length + 4 ≤ bits (s.dev.rdN (prt n 4)) 13 0 → etherType (padded data pad) ≠ 0x8808 ∨ s.dev.portMode n = 2 → s.dev.portMode n ≠ 3 ∨ s.dev.filterPass n (padded data pad) = true → bit (s.dev.rdN (prt n 0x30)) 0 = false → s.dev.admits n (cellsOf (bits (s.dev.rdN (prt n 4)) 13 0)) = true → ∃ t, Machine.exec (.frameReceive n data pad) s = .next t ∧ t.dev.flow.nextPkt = s.dev.flow.nextPkt + 1 ∧ (t.dev.pkt s.dev.flow.nextPkt).stage = .rx ∧ (t.dev.pkt s.dev.flow.nextPkt).src = n ∧ (t.dev.pkt s.dev.flow.nextPkt).entry = n ∧ (t.dev.pkt s.dev.flow.nextPkt).mode = s.dev.portMode n ∧ (t.dev.pkt s.dev.flow.nextPkt).data = padded data pad ∧ (t.dev.pkt s.dev.flow.nextPkt).len = (padded data pad).length + 4 ∧ (t.dev.pkt s.dev.flow.nextPkt).cells = cellsOf (bits (s.dev.rdN (prt n 4)) 13 0) ∧ t.dev.rd64 (prt n 0x100) = (s.dev.rd64 (prt n 0x100) + 1) % 2 ^ 64 ∧ t.dev.rd64 (prt n 0x108) = (s.dev.rd64 (prt n 0x108) + (padded data pad).length + 4) % 2 ^ 64) ∧
  (∀ (s : Machine.State) (n : Fin 32) (data : List Byte) (pad : Nat), s.dev.alive = true → s.dev.hears n = true → 1 ≤ s.dev.portMode n → s.dev.portMode n ≤ 3 → (padded data pad).length < 60 → ∃ t, Machine.exec (.frameReceive n data pad) s = .next t ∧ t = { s with dev := ((s.dev.prtCount n 0 1).prtCount n 1 ((padded data pad).length + 4)).prtCount n 3 1 }) ∧
  (∀ (s : Machine.State) (n : Fin 32) (i : Nat), s.dev.alive = true → s.dev.pktFind (fun p => decide (p.entry = n.val) && !p.synth && decide (p.eof = none)) = some i → ∃ t, Machine.exec (.frameEnd n true) s = .next t ∧ (t.dev.pkt i).eof = some true ∧ (t.dev.pkt i).cells = min (s.dev.pkt i).cells (cellsOf (s.dev.pkt i).len) ∧ (t.dev.pkt i).data = (s.dev.pkt i).data) ∧
  (∀ (s : Machine.State) (n : Fin 32) (i : Nat), s.dev.alive = true → s.dev.pktFind (fun p => decide (p.entry = n.val) && !p.synth && decide (p.eof = none)) = some i → ∃ t, Machine.exec (.frameEnd n false) s = .next t ∧ t.dev.rd64 (prt n 0x110) = (s.dev.rd64 (prt n 0x110) + 1) % 2 ^ 64 ∧ (∀ m, m < 32 → ∀ q, q < 8 → (t.dev.egAt m q).items.all (fun it => decide (it.pkt ≠ some i)) = true)) ∧
  (∀ (s : Machine.State) (n : Fin 32) (data fr : List Byte) (pad : Nat) (fail untag : Bool), s.dev.alive = true → s.dev.hears n = true → 1 ≤ s.dev.portMode n → s.dev.portMode n ≤ 3 → 60 ≤ (padded data pad).length → (padded data pad).length + 4 ≤ bits (s.dev.rdN (prt n 4)) 13 0 → etherType (padded data pad) ≠ 0x8808 ∨ s.dev.portMode n = 2 → s.dev.portMode n ≠ 3 ∨ s.dev.filterPass n (padded data pad) = true → bit (s.dev.rdN (prt n 0x30)) 0 = true → (((s.dev.prtCount n 0 1).prtCount n 1 ((padded data pad).length + 4)).msIngress n (padded data pad)).2 = some (fr, fail, untag) → (((s.dev.prtCount n 0 1).prtCount n 1 ((padded data pad).length + 4)).msIngress n (padded data pad)).1.admits n (cellsOf (bits (s.dev.rdN (prt n 4)) 13 0)) = true → ∃ t, Machine.exec (.frameReceive n data pad) s = .next t ∧ t.dev.flow.nextPkt = s.dev.flow.nextPkt + 1 ∧ (t.dev.pkt s.dev.flow.nextPkt).stage = .rx ∧ (t.dev.pkt s.dev.flow.nextPkt).src = n ∧ (t.dev.pkt s.dev.flow.nextPkt).entry = n ∧ (t.dev.pkt s.dev.flow.nextPkt).mode = s.dev.portMode n ∧ (t.dev.pkt s.dev.flow.nextPkt).data = fr ∧ (t.dev.pkt s.dev.flow.nextPkt).len = fr.length + 4 ∧ (t.dev.pkt s.dev.flow.nextPkt).cells = cellsOf (bits (s.dev.rdN (prt n 4)) 13 0) ∧ t.dev.rd64 (prt n 0x100) = (s.dev.rd64 (prt n 0x100) + 1) % 2 ^ 64 ∧ t.dev.rd64 (prt n 0x108) = (s.dev.rd64 (prt n 0x108) + (padded data pad).length + 4) % 2 ^ 64 ∧ (t.dev.pkt s.dev.flow.nextPkt).msFail = fail ∧ (t.dev.pkt s.dev.flow.nextPkt).msUntag = untag)

/-- An accepted PAUSE frame that a port receives sets the timer of the port to now plus quanta times 512 bit times, or removes it for 0
quanta, and counts; a PFC frame does the same for each enabled priority; a timer that expires is removed. A pending pause whose count
stays above PRT_XON is sent again with QUANTA, or waits for the end of the frame in flight; the receive storm watchdog drops the timer and
ignores pause frames until STORMT ms without one pass; the transmit storm watchdog stops generation, sends a zero pause and counts. (R183,
R184, R186, R187, R188) -/
def Obligations.PauseActsBothWays : Prop :=
  (∀ (s : Machine.State) (n : Fin 32) (quanta : Nat) (good forUs : Bool), s.dev.alive = true → s.dev.hears n = true → s.dev.pauseAccepts n 1 good forUs = true → Tab.get false (s.dev.portAt n).ignoring 8 = false → ∃ t, Machine.exec (.pause n quanta good forUs) s = .next t ∧ Tab.find (t.dev.portAt n).timer 8 = (if quanta = 0 then none else some (s.dev.now + quanta * 5120 / speedGb (s.dev.portSpeed n))) ∧ t.dev.rd64 (prt n 0x130) = (s.dev.rd64 (prt n 0x130) + 1) % 2 ^ 64) ∧
  (∀ (s : Machine.State) (n : Fin 32) (enable : Nat) (quanta : List Nat) (good forUs : Bool), s.dev.alive = true → s.dev.hears n = true → s.dev.pauseAccepts n 2 good forUs = true → (maskBits 8 enable).any (fun i => Tab.get false (s.dev.portAt n).ignoring i) = false → ∃ t, Machine.exec (.pfc n enable quanta good forUs) s = .next t ∧ t.dev.rd64 (prt n 0x138) = (s.dev.rd64 (prt n 0x138) + 1) % 2 ^ 64 ∧ (∀ i, i < 8 → bit enable i = true → Tab.find (t.dev.portAt n).timer i = (if quanta.getD i 0 = 0 then none else some (s.dev.now + quanta.getD i 0 * 5120 / speedGb (s.dev.portSpeed n))))) ∧
  (∀ (s : Machine.State) (n : Fin 32) (i : Fin 9), s.dev.alive = true → ∃ t, Machine.exec (.pauseTimerExpiry n i) s = .next t ∧ Tab.find (t.dev.portAt n).timer i = none ∧ ∀ j, j < 9 → j ≠ i.val → Tab.find (t.dev.portAt n).timer j = Tab.find (s.dev.portAt n).timer j) ∧
  (∀ (s : Machine.State) (n : Fin 32) (i : Fin 9), s.dev.alive = true → s.dev.mayPause n = true → s.dev.flow.failsafe = false → (s.dev.portAt n).tx = none → Tab.get false (s.dev.portAt n).xoff i = true → Tab.get false (s.dev.portAt n).stopped i = false → s.dev.rdN (prt n 0x1C) < s.dev.cellsHeld n i → ∃ t, Machine.exec (.pauseRepeat n i) s = .next t ∧ t.dev.out = .pause n (decide (i.val ≠ 8)) (if i.val ≠ 8 then 2 ^ i.val else 0) (bits (s.dev.rdN (prt n 0x14)) 31 16) :: s.dev.out) ∧
  (∀ (s : Machine.State) (n : Fin 32) (i : Fin 9) (q : Nat) (it : EgItem), s.dev.alive = true → s.dev.mayPause n = true → (s.dev.portAt n).tx = some (q, it) → Tab.get false (s.dev.portAt n).xoff i = true → Tab.get false (s.dev.portAt n).stopped i = false → s.dev.rdN (prt n 0x1C) < s.dev.cellsHeld n i → ∃ t, Machine.exec (.pauseRepeat n i) s = .next t ∧ (t.dev.portAt n).ctl = (s.dev.portAt n).ctl ++ [(i.val, bits (s.dev.rdN (prt n 0x14)) 31 16)] ∧ t.dev.out = s.dev.out) ∧
  (∀ (s : Machine.State) (n : Fin 32) (i : Fin 9), s.dev.alive = true → (Tab.find (s.dev.portAt n).timer i).isSome = true → ∃ t, Machine.exec (.stormRxExpiry n i) s = .next t ∧ Tab.find (t.dev.portAt n).timer i = none ∧ Tab.get false (t.dev.portAt n).ignoring i = true ∧ t.dev.rd64 (prt n 0x148) = (s.dev.rd64 (prt n 0x148) + 1) % 2 ^ 64 ∧ wbit (t.dev.rd (prt n 0x0C)) 1 = true) ∧
  (∀ (s : Machine.State) (n : Fin 32) (i : Fin 9), s.dev.alive = true → Tab.get false (s.dev.portAt n).ignoring i = true → ∃ t, Machine.exec (.stormRxQuietExpiry n i) s = .next t ∧ Tab.get false (t.dev.portAt n).ignoring i = false ∧ (t.dev.portAt n).timer = (s.dev.portAt n).timer) ∧
  (∀ (s : Machine.State) (n : Fin 32) (i : Fin 9), s.dev.alive = true → s.dev.mayPause n = true → s.dev.flow.failsafe = false → (s.dev.portAt n).tx = none → (s.dev.fcIndexes n).contains i = true → bit (s.dev.rdN (prt n 0x14)) 3 = true → Tab.get false (s.dev.portAt n).stopped i = false → s.dev.rdN (prt n 0x1C) < s.dev.cellsHeld n i → ∃ t, Machine.exec (.stormTxExpiry n i) s = .next t ∧ Tab.get false (t.dev.portAt n).stopped i = true ∧ Tab.get false (t.dev.portAt n).xoff i = false ∧ wbit (t.dev.rd (prt n 0x0C)) 2 = true ∧ t.dev.out.reverse[s.dev.out.length]? = some (.pause n (decide (i.val ≠ 8)) (if i.val ≠ 8 then 2 ^ i.val else 0) 0))

/-- A link change writes LINK, LF and RF, sets the event when LINK changes and, for a link that goes down, empties the eight queues; the
loss of die F drives FAILSAFE_N low; firmware releases it when every condition of R195 holds; a pair wait that passes waives the pair.
(R173, R182, R194, R195) -/
def Obligations.LinksAndTheFailSafe : Prop :=
  (∀ (s : Machine.State) (n : Fin 32) (lf rf : Bool), s.dev.alive = true → s.dev.portExists n = true → (s.dev.portAt n).link = true → ∃ t, Machine.exec (.linkChange n false lf rf) s = .next t ∧ (t.dev.portAt n).link = false ∧ wbit (t.dev.rd (prt n 0x0C)) 0 = true ∧ ∀ q, q < 8 → (t.dev.egAt n q).items = []) ∧
  (∀ (s : Machine.State), s.dev.alive = true → ∃ t, Machine.exec (.dieFLoss) s = .next t ∧ t.dev.flow.dieFLost = true ∧ t.dev.flow.failsafe = true ∧ (s.dev.flow.failsafe = false → t.dev.out = .pin "FAILSAFE_N" false :: s.dev.out)) ∧
  (∀ (s : Machine.State), s.dev.alive = true → s.dev.fwReady = true → s.dev.helds = false → s.dev.flow.dieFLost = false → s.dev.pairsUp = true → s.dev.flow.failsafe = true → s.dev.dvalN 0x3003 1 0 ≠ 1 → s.dev.pwr.boardErr = 0 → s.dev.dict.apply.any (fun k => decide (keyIndex k = 0x3001)) = false → ∃ t, Machine.exec (.failsafeRelease) s = .next t ∧ t.dev.flow.failsafe = false ∧ t.dev.flow.released = true ∧ t.dev.out = .pin "FAILSAFE_N" true :: s.dev.out) ∧
  (∀ (s : Machine.State) (n : Fin 32), s.dev.alive = true → s.dev.paired n = true → s.dev.flow.waived.contains n.val = false → ((s.dev.portAt n).link && (s.dev.portAt (s.dev.partner n)).link) = false → ∃ t, Machine.exec (.pairWaitExpiry n) s = .next t ∧ t.dev.flow.waived = n.val :: s.dev.partner n :: s.dev.flow.waived ∧ t.dev.flow.ports = s.dev.flow.ports)

/-- The one packet that waits and may go is taken with the next sequence number of its port and the next take number; in any state an FCLK
takes at most four packets, none where no source offers one, and counts REORDHOLD where a full window holds a packet. A parse result
without a punt reason or a snoop makes the packet parsed; one with a punt reason of a packet that is not reinjected enters the queue of
the reason's Shortstop core where the reason has a token and the queue room, and is otherwise gone with the PUNTDROP event. A visible hit
in the associative memory of KIND 0 gives the packet the entry as its result under the current version; a parse error leads to the port's
default for a failure, whose BASEACT is forward, drop or tap as PARSEFAIL says. (R198, R199, R205, R206, R210, R213, R217, R221, R225) -/
def Obligations.PacketsAreTakenParsedAndClassified : Prop :=
  (∀ (s : Machine.State) (i : Nat) (p : Pkt), s.dev.alive = true → s.dev.anyHeld = false → s.dev.flow.pkts.filter (fun kv => decide (kv.2.stage = .rx)) = [(i, p)] → p.src < 33 → s.dev.eligible p.src = some i → (s.dev.take1 p.src i).flow.pkts.all (fun kv => decide (kv.2.stage ≠ .rx)) = true → ∃ t, Machine.exec (.dispatchTake) s = .next t ∧ t = { s with dev := s.dev.take1 p.src i } ∧ (t.dev.pkt i).stage = .taken (s.dev.flow.takes % 4) ∧ (t.dev.pkt i).order = s.dev.flow.takes ∧ (t.dev.pkt i).seq = (s.dev.portAt (s.dev.pkt i).port).nextSeq ∧ t.dev.flow.takes = s.dev.flow.takes + 1 ∧ t.dev.flow.dptr = (p.src + 1) % 33) ∧
  (∀ (s : Machine.State), s.dev.alive = true → ∃ t, Machine.exec (.dispatchTake) s = .next t ∧ s.dev.flow.takes ≤ t.dev.flow.takes ∧ t.dev.flow.takes ≤ s.dev.flow.takes + 4 ∧ ((upTo 33).all (fun k => (s.dev.eligible k).isNone) = true → t.dev.flow = s.dev.flow) ∧ (s.dev.anyHeld = true → t.dev.rd64 (parBase + 0x138) = (s.dev.rd64 (parBase + 0x138) + 1) % 2 ^ 64 ∧ wbit (t.dev.rd (parBase + 0x14)) 1 = true)) ∧
  (∀ (s : Machine.State) (pipe : Fin 4) (i : Nat), s.dev.alive = true → s.dev.oldest (fun x => decide (x = .taken pipe)) = some i → (s.dev.pkt i).punt3 = none → bits (s.dev.pkt i).conf.ctl 2 0 = 0 → ∃ t, Machine.exec (.parseResult pipe) s = .next t ∧ t.dev.pkt i = { s.dev.pkt i with stage := .parsed }) ∧
  (∀ (s : Machine.State) (i : Nat) (e : AmEnt), s.dev.alive = true → s.dev.turn .parsed = some i → (s.dev.pkt i).punt3 = none → parW (s.dev.pkt i) 0 31 24 = 0 → s.dev.profN (bits (s.dev.clsPort (s.dev.pkt i).port) (19 + 4 * parW (s.dev.pkt i) 0 10 8) (16 + 4 * parW (s.dev.pkt i) 0 10 8)) ≤ 10 → s.dev.amLookup (bits (s.dev.clsPort (s.dev.pkt i).port) (19 + 4 * parW (s.dev.pkt i) 0 10 8) (16 + 4 * parW (s.dev.pkt i) 0 10 8)) s.dev.vcur (wordsNat (s.dev.keyWords (bits (s.dev.clsPort (s.dev.pkt i).port) (19 + 4 * parW (s.dev.pkt i) 0 10 8) (16 + 4 * parW (s.dev.pkt i) 0 10 8)) (s.dev.pkt i) 0)) = some e → resKind e.res = 0 → ∃ t, Machine.exec (.classify) s = .next t ∧ t.dev.pkt i = { s.dev.pkt i with ver := s.dev.vcur, inVer := true, res := e.res, stage := .classified } ∧ t.dev.rd64 (clsBase + 0x500) = (s.dev.rd64 (clsBase + 0x500) + 1) % 2 ^ 64) ∧
  (∀ (s : Machine.State) (pipe : Fin 4) (i r : Nat), s.dev.alive = true → s.dev.oldest (fun x => decide (x = .taken pipe)) = some i → (s.dev.pkt i).punt3 = some r → (s.dev.pkt i).reinj = false → parW (s.dev.pkt i) 0 31 24 = 0 → ∃ t, Machine.exec (.parseResult pipe) s = .next t ∧ (if ((s.dev.leaveVer i).puntToken r ((s.dev.pkt i).conf.lim.getD r 0)).2 = true ∧ (Tab.get [] s.dev.flow.puntQ ((s.dev.pkt i).conf.core r)).length < 512 then (t.dev.pkt i).stage = .punted ((s.dev.pkt i).conf.core r) ∧ Tab.get [] t.dev.flow.puntQ ((s.dev.pkt i).conf.core r) = Tab.get [] s.dev.flow.puntQ ((s.dev.pkt i).conf.core r) ++ [{ header := puntHeader (s.dev.pkt i) r 0 0 0 false false, par := (s.dev.pkt i).par, pkt := some i }] else (t.dev.pkt i).stage = .gone ∧ wbit (t.dev.rd (parBase + 0x14)) 0 = true)) ∧
  (∀ (s : Machine.State) (i : Nat), s.dev.alive = true → s.dev.turn .parsed = some i → parW (s.dev.pkt i) 0 31 24 ≠ 0 → ((s.dev.pkt i).reinj = true ∨ bits (s.dev.clsPort (s.dev.pkt i).port) 3 2 ≠ 2) → ∃ t, Machine.exec (.classify) s = .next t ∧ (t.dev.pkt i).stage = .classified ∧ (t.dev.pkt i).defaulted = true ∧ (t.dev.pkt i).ver = s.dev.vcur ∧ bits (t.dev.pkt i).res 163 160 = (if bits (s.dev.clsPort (s.dev.pkt i).port) 3 2 = 0 then 0 else if bits (s.dev.clsPort (s.dev.pkt i).port) 3 2 = 3 then 2 else 3) ∧ t.dev.rd64 (clsBase + 0x5A0) = (s.dev.rd64 (clsBase + 0x5A0) + 1) % 2 ^ 64)

/-- REINJECT of a held original takes it out of the core's queue, whatever its place there, and it waits again as a reinjected packet of
source 32 under the port named, with its data, its stamp, its cells and its entry port, and is counted; a built frame that the system pool
holds becomes the next packet, complete, its stamp marked SUPPLIED; one that finds the pool full is dropped and counted (a count of the
model's own, R237); a release of an entry takes it out of the queue and frees its frame. (R207, R208, R237, R281) -/
def Obligations.PuntsAreReinjectedAndReleased : Prop :=
  (∀ (s : Machine.State) (core : Fin 8) (port : Fin 32) (k : Nat) (x : PuntEnt) (i : Nat), s.dev.alive = true → s.dev.fwReady = true → s.dev.helds = false → (Tab.get [] s.dev.flow.puntQ core)[k]? = some x → x.pkt = some i → ∃ t, Machine.exec (.reinject core port (.orig k)) s = .next t ∧ (t.dev.pkt i).stage = .rx ∧ (t.dev.pkt i).src = 32 ∧ (t.dev.pkt i).port = port ∧ (t.dev.pkt i).reinj = true ∧ (t.dev.pkt i).data = (s.dev.pkt i).data ∧ (t.dev.pkt i).stamp = (s.dev.pkt i).stamp ∧ (t.dev.pkt i).cells = (s.dev.pkt i).cells ∧ (t.dev.pkt i).entry = (s.dev.pkt i).entry ∧ Tab.get [] t.dev.flow.puntQ core = (Tab.get [] s.dev.flow.puntQ core).eraseIdx k ∧ t.dev.rd64 (parBase + 0x120) = (s.dev.rd64 (parBase + 0x120) + 1) % 2 ^ 64) ∧
  (∀ (s : Machine.State) (core : Fin 8) (port : Fin 32) (data : List Byte) (st : TStamp), s.dev.alive = true → s.dev.fwReady = true → s.dev.helds = false → s.dev.flow.sysUsed + cellsOf (data.length + 4) ≤ s.dev.rdN (gntBase + 8) → ∃ t, Machine.exec (.reinject core port (.synth data st)) s = .next t ∧ t.dev.flow.nextPkt = s.dev.flow.nextPkt + 1 ∧ t.dev.pkt s.dev.flow.nextPkt = { src := 32, port := port, mode := s.dev.portMode port, data := data, len := data.length + 4, stamp := { st with flags := setBit st.flags 0 }, cells := cellsOf (data.length + 4), reinj := true, synth := true, eof := some true } ∧ t.dev.flow.sysUsed = s.dev.flow.sysUsed + cellsOf (data.length + 4)) ∧
  (∀ (s : Machine.State) (core : Fin 8) (k : Nat) (x : PuntEnt), s.dev.alive = true → s.dev.fwReady = true → s.dev.helds = false → (Tab.get [] s.dev.flow.puntQ core)[k]? = some x → ∃ t, Machine.exec (.puntRelease core k) s = .next t ∧ Tab.get [] t.dev.flow.puntQ core = (Tab.get [] s.dev.flow.puntQ core).eraseIdx k ∧ x.pkt.all (fun i => (Tab.find t.dev.flow.pkts i).isNone) = true) ∧
  (∀ (s : Machine.State) (core : Fin 8) (port : Fin 32) (data : List Byte) (st : TStamp), s.dev.alive = true → s.dev.fwReady = true → s.dev.helds = false → s.dev.rdN (gntBase + 8) < s.dev.flow.sysUsed + cellsOf (data.length + 4) → ∃ t, Machine.exec (.reinject core port (.synth data st)) s = .next t ∧ t = { s with dev := { s.dev with flow := { s.dev.flow with synthDrop := s.dev.flow.synthDrop + 1 } } })

/-- A commit by firmware of the successor of the current version, the first of its FCLK, appends it, writes CLS_VCOMMIT and CLS_VLAST and
sets the event; any other value, or a second commit of the FCLK, changes no version and leaves outcome 1 in CLS_VLAST, and a fifth live
version outcome 2; a write of the host is an access error of cause 4. The oldest live version with no packet in flight retires; a sweep
clears VALID of the objects that ended with the retired version and zeroes VMIN of those that began with it; its end frees what it cleared
and moves BASE. A template a Shortstop core builds takes the next version with it. (R219, R221, R222, R223, R224, R228, R303) -/
def Obligations.RuleVersionsCommitRetireAndSweep : Prop :=
  (∀ (s : Machine.State) (c : Fin 12) (v : Nat) (objs : List VObj), s.dev.alive = true → s.dev.mayWrite (.fw c) (clsBase + 0x0C) = true → v = vsucc s.dev.vcur → s.dev.flow.commitAt ≠ some s.dev.fclk → s.dev.flow.vers.length < 4 → ∃ t, Machine.exec (.versionCommit (.fw c) v objs) s = .next t ∧ t.dev.flow.vers = s.dev.flow.vers ++ [{ v := v }] ∧ t.dev.vcur = v ∧ t.dev.flow.commitAt = some s.dev.fclk ∧ t.dev.rdN (clsBase + 0x0C) = v ∧ t.dev.rdN (clsBase + 0x10) = v ∧ wbit (t.dev.rd (clsBase + 0x14)) 0 = true) ∧
  (∀ (s : Machine.State) (c : Fin 12) (v : Nat) (objs : List VObj), s.dev.alive = true → s.dev.mayWrite (.fw c) (clsBase + 0x0C) = true → (v ≠ vsucc s.dev.vcur ∨ s.dev.flow.commitAt = some s.dev.fclk) → ∃ t, Machine.exec (.versionCommit (.fw c) v objs) s = .next t ∧ t.dev.flow.vers = s.dev.flow.vers ∧ t.dev.vcur = s.dev.vcur ∧ t.dev.rdN (clsBase + 0x0C) = v % 65536 ∧ t.dev.rdN (clsBase + 0x10) = 2 ^ 16 + v % 65536 ∧ wbit (t.dev.rd (clsBase + 0x14)) 2 = true) ∧
  (∀ (s : Machine.State) (c : Fin 12) (v : Nat) (objs : List VObj), s.dev.alive = true → s.dev.mayWrite (.fw c) (clsBase + 0x0C) = true → v = vsucc s.dev.vcur → s.dev.flow.commitAt ≠ some s.dev.fclk → 4 ≤ s.dev.flow.vers.length → ∃ t, Machine.exec (.versionCommit (.fw c) v objs) s = .next t ∧ t.dev.flow.vers = s.dev.flow.vers ∧ t.dev.rdN (clsBase + 0x10) = 2 ^ 17 + v ∧ wbit (t.dev.rd (clsBase + 0x14)) 2 = true) ∧
  (∀ (s : Machine.State) (v : Nat) (objs : List VObj), s.dev.alive = true → s.dev.reqOpen .pf = true → ∃ t, Machine.exec (.versionCommit .pf v objs) s = .next t ∧ t.dev = s.dev.accErr none (clsBase + 0x0C) 15 true 4 ∧ t.dev.flow.vers = s.dev.flow.vers) ∧
  (∀ (s : Machine.State) (a : Nat) (b : VerSlot) (rest : List VerSlot), s.dev.alive = true → s.dev.flow.vers = { v := a } :: b :: rest → ∃ t, Machine.exec (.versionRetire) s = .next t ∧ t.dev.flow.vers = { v := a, live := false } :: b :: rest ∧ wbit (t.dev.rd (clsBase + 0x14)) 1 = true) ∧
  (∀ (s : Machine.State) (x : VerSlot) (rest : List VerSlot), s.dev.alive = true → s.dev.flow.vers = x :: rest → x.live = false → s.dev.flow.sweeping = false → ∃ t, Machine.exec (.sweep) s = .next t ∧ t.dev.flow.sweeping = true ∧ t.dev.flow.vers = s.dev.flow.vers ∧ t.dev.flow.am = Tab.mapAll ({} : AmEnt) s.dev.flow.am (fun _ e => { e with ctl := sweepCtl x.v e.ctl }) ∧ t.dev.flow.ch = Tab.mapAll ({} : ChEnt) s.dev.flow.ch (fun _ e => { e with ctl := sweepCtl x.v e.ctl }) ∧ t.dev.flow.tpl = Tab.mapAll ([] : List Byte) s.dev.flow.tpl (fun _ b => tplSetCtl b (sweepCtl x.v (tplCtl b)))) ∧
  (∀ (s : Machine.State), s.dev.alive = true → s.dev.flow.sweeping = true → ∃ t, Machine.exec (.sweepEnd) s = .next t ∧ t.dev.flow.vers = s.dev.flow.vers.tail ∧ t.dev.flow.sweeping = false ∧ t.dev.flow.am = s.dev.flow.am.filter (fun kv => ctlValid kv.2.ctl) ∧ t.dev.flow.ch = s.dev.flow.ch.filter (fun kv => ctlValid kv.2.ctl) ∧ t.dev.flow.tpl = s.dev.flow.tpl.filter (fun kv => ctlValid (tplCtl kv.2)) ∧ t.dev.flow.recs = s.dev.flow.recs.filter (fun kv => ctlValid kv.2.ctl)) ∧
  (∀ (s : Machine.State) (core : Fin 8) (n : Fin 4096) (recd : List Byte) (g k : Nat), s.dev.alive = true → s.dev.fwReady = true → s.dev.helds = false → Tab.get [] s.dev.flow.puntQ core ≠ [] → fld recd 8 1 = 2 → streamOk recd = true → s.dev.bindingOf (fld recd 12 1) (fld recd 14 2) = some g → s.dev.groupRec g = some k → fld recd 10 1 = g → ctlOwner (tplCtl recd) = gPtn (Tab.get [] s.dev.flow.tpl k) → (s.dev.ent (gPtn (Tab.get [] s.dev.flow.tpl k))).tplfirst ≤ n → n < (s.dev.ent (gPtn (Tab.get [] s.dev.flow.tpl k))).tplfirst + (s.dev.ent (gPtn (Tab.get [] s.dev.flow.tpl k))).tplcount → targetsOk (Tab.get [] s.dev.flow.tpl k) recd = true → s.dev.flow.commitAt ≠ some s.dev.fclk → s.dev.flow.vers.length < 4 → ∃ t, Machine.exec (.templateBuild core n recd) s = .next t ∧ t.dev.vcur = vsucc s.dev.vcur ∧ t.dev.flow.tpl = (s.dev.stageAll (vsucc s.dev.vcur) s.dev.vcur [VObj.endTpl n, VObj.tpl n recd]).flow.tpl)

/-- A packet whose result names no flow and no entity profile is bound to neither; a hit updates the entry with the packet; the scanner
invalidates an entry idle for its profile limit; firmware writes exactly the fields it names, each in its width; an assigned range shows
in FLW_ERANGE and its entities are stale with CAUSE 4; the two index registers copy an entry for every requester that has them. (R231,
R232, R233, R236, R250) -/
def Obligations.BindingAgingAndEntities : Prop :=
  (∀ (s : Machine.State) (i : Nat), s.dev.alive = true → s.dev.turn .classified = some i → bits (s.dev.pkt i).res 143 136 = 0 → bits (s.dev.pkt i).res 135 128 = 0 → ∃ t, Machine.exec (.bind) s = .next t ∧ t.dev.pkt i = { s.dev.pkt i with flow := none, dn := none, entity := none, stage := .bound } ∧ t.dev.flow.flow = s.dev.flow.flow) ∧
  (∀ (s : Machine.State) (i ix : Nat), s.dev.alive = true → s.dev.turn .classified = some i → bits (s.dev.pkt i).res 143 136 ≠ 0 → bits (s.dev.pkt i).res 135 128 = 0 → (flowCands (s.dev.flowDigest (bits (s.dev.pkt i).res 143 136) (s.dev.pkt i))).find? (fun k => (s.dev.flowAt k).valid && decide ((s.dev.flowAt k).digest = s.dev.flowDigest (bits (s.dev.pkt i).res 143 136) (s.dev.pkt i)) && decide ((s.dev.flowAt k).fprof = bits (s.dev.pkt i).res 143 136)) = some ix → ∃ t, Machine.exec (.bind) s = .next t ∧ (t.dev.pkt i).flow = some ix ∧ (t.dev.pkt i).stage = .bound ∧ t.dev.flowAt ix = (flowUpdate (s.dev.flowAt ix) false (bits (s.dev.rdN (flwBase + 4)) 3 0) (s.dev.pkt i).stamp.q (s.dev.pkt i).len (s.dev.pkt i).ver s.dev.flwNow).1) ∧
  (∀ (s : Machine.State), s.dev.alive = true → (s.dev.flowAt s.dev.flow.scan).valid = true → (s.dev.flowAt s.dev.flow.scan).static = false → bits (s.dev.fprof (s.dev.flowAt s.dev.flow.scan).fprof 3) 15 0 ≠ 0 → bits (s.dev.fprof (s.dev.flowAt s.dev.flow.scan).fprof 3) 15 0 ≤ s.dev.idleAge (s.dev.flowAt s.dev.flow.scan) → ∃ t, Machine.exec (.agingScan) s = .next t ∧ t.dev.flowAt s.dev.flow.scan = { s.dev.flowAt s.dev.flow.scan with valid := false } ∧ t.dev.flow.scan = (s.dev.flow.scan + 1) % 1048576) ∧
  (∀ (s : Machine.State) (i : Fin 1048576) (st ev va : Option Bool) (en : Option Nat) (more : List FlowSet), s.dev.alive = true → s.dev.fwReady = true → s.dev.helds = false → ∃ t, Machine.exec (.flowEntryFwWrite i st ev en va more) s = .next t ∧ t = { s with dev := s.dev.flowSet i ((s.dev.flowAt i).write (flowSets st ev en va more)) }) ∧
  (∀ (s : Machine.State) (i : Fin 1048576) (v w : Nat) (b : Bool), s.dev.alive = true → s.dev.fwReady = true → s.dev.helds = false → ∃ t, Machine.exec (.flowEntryFwWrite i (some b) none (some v) none [.packets w]) s = .next t ∧ t.dev.flowAt i = { s.dev.flowAt i with entity := v % 2 ^ 24, static := b, packets := w % 2 ^ 64 }) ∧
  (∀ (s : Machine.State) (p : Fin 32) (first n : Nat), s.dev.alive = true → s.dev.fwReady = true → s.dev.helds = false → first + n ≤ 262144 → ∃ t, Machine.exec (.entityRangeAssign p first n) s = .next t ∧ t.dev.rdN (flwBase + 0x400 + 8 * p) = first ∧ t.dev.rdN (flwBase + 0x404 + 8 * p) = n ∧ ∀ k, k < n → t.dev.entState (first + k) = 0x400) ∧
  (∀ (s : Machine.State) (who : Req) (i : Fin 1048576), s.dev.alive = true → s.dev.mayWrite who (flwBase + 0x20) = true → who.atBlocks = true → ∃ t, Machine.exec (.flwFidxWrite who i) s = .next t ∧ t.dev.rdN (flwBase + 0x20) = 2 ^ 31 + i ∧ t.dev.flow = s.dev.flow ∧ ∀ k, k < 16 → t.dev.rdN (flwBase + 0x40 + 4 * k) = leNat (((s.dev.flowAt i).bytesOf.drop (4 * k)).take 4)) ∧
  (∀ (s : Machine.State) (who : Req) (e : Fin 262144), s.dev.alive = true → s.dev.mayWrite who (flwBase + 0x80) = true → who.atBlocks = true → ∃ t, Machine.exec (.flwEidxWrite who e) s = .next t ∧ t.dev.rdN (flwBase + 0x80) = 2 ^ 31 + e ∧ t.dev.rd64 (flwBase + 0x84) = s.dev.entState e % 2 ^ 64 ∧ t.dev.flow = s.dev.flow)

/-- A packet without an enabled class passes; with one it takes the colour of the two buckets, and the class the tokens and counts of that
colour: a RED packet is dropped, a YELLOW one marked, a GREEN one passes as it is; a firmware write stores the record with its buckets
full or empty, and one whose bucket sizes the rule excludes writes nothing; GNT_PIDX with OP copies the record, without OP it only holds
the index. (R238, R239, R251) -/
def Obligations.PolicersColourAndCount : Prop :=
  (∀ (s : Machine.State) (i : Nat), s.dev.alive = true → s.dev.turn .bound = some i → (bits (s.dev.pkt i).res 191 176 = 0 ∨ (s.dev.polAt (bits (s.dev.pkt i).res 191 176)).en = false) → ∃ t, Machine.exec (.police) s = .next t ∧ t = { s with dev := s.dev.pktSet i { s.dev.pkt i with stage := .policed } }) ∧
  (∀ (s : Machine.State) (i : Nat), s.dev.alive = true → s.dev.turn .bound = some i → bits (s.dev.pkt i).res 191 176 ≠ 0 → (s.dev.polAt (bits (s.dev.pkt i).res 191 176)).en = true → ((s.dev.polAt (bits (s.dev.pkt i).res 191 176)).colour s.dev.fclk (parW (s.dev.pkt i) 27 13 0)).1 = 2 → ∃ t, Machine.exec (.police) s = .next t ∧ (t.dev.pkt i).stage = .gone ∧ t.dev.polAt (bits (s.dev.pkt i).res 191 176) = ((s.dev.polAt (bits (s.dev.pkt i).res 191 176)).colour s.dev.fclk (parW (s.dev.pkt i) 27 13 0)).2) ∧
  (∀ (s : Machine.State) (i : Nat), s.dev.alive = true → s.dev.turn .bound = some i → bits (s.dev.pkt i).res 191 176 ≠ 0 → (s.dev.polAt (bits (s.dev.pkt i).res 191 176)).en = true → ((s.dev.polAt (bits (s.dev.pkt i).res 191 176)).colour s.dev.fclk (parW (s.dev.pkt i) 27 13 0)).1 = 1 → ∃ t, Machine.exec (.police) s = .next t ∧ (t.dev.pkt i).stage = .policed ∧ (t.dev.pkt i).marked = true ∧ t.dev.polAt (bits (s.dev.pkt i).res 191 176) = ((s.dev.polAt (bits (s.dev.pkt i).res 191 176)).colour s.dev.fclk (parW (s.dev.pkt i) 27 13 0)).2) ∧
  (∀ (s : Machine.State) (i : Nat), s.dev.alive = true → s.dev.turn .bound = some i → bits (s.dev.pkt i).res 191 176 ≠ 0 → (s.dev.polAt (bits (s.dev.pkt i).res 191 176)).en = true → ((s.dev.polAt (bits (s.dev.pkt i).res 191 176)).colour s.dev.fclk (parW (s.dev.pkt i) 27 13 0)).1 = 0 → ∃ t, Machine.exec (.police) s = .next t ∧ (t.dev.pkt i).stage = .policed ∧ (t.dev.pkt i).marked = (s.dev.pkt i).marked ∧ t.dev.polAt (bits (s.dev.pkt i).res 191 176) = ((s.dev.polAt (bits (s.dev.pkt i).res 191 176)).colour s.dev.fclk (parW (s.dev.pkt i) 27 13 0)).2) ∧
  (∀ (s : Machine.State) (c : Fin 16384) (cinc pinc cbs pbs : Nat) (en rf : Bool), s.dev.alive = true → s.dev.fwReady = true → s.dev.helds = false → bucketsOk cbs pbs = true → ∃ t, Machine.exec (.policerClassWrite c cinc pinc cbs pbs en rf) s = .next t ∧ t.dev.polAt c = { s.dev.polAt c with cinc := cinc, pinc := pinc, cbs := cbs, pbs := pbs, en := en, resetFull := rf, tc := if rf then cbs * 2 ^ 24 else 0, tp := if rf then pbs * 2 ^ 24 else 0, last := s.dev.fclk } ∧ t.dev.regs = s.dev.regs) ∧
  (∀ (s : Machine.State) (c : Fin 16384) (cinc pinc cbs pbs : Nat) (en rf : Bool), s.dev.alive = true → s.dev.fwReady = true → s.dev.helds = false → bucketsOk cbs pbs = false → ∃ t, Machine.exec (.policerClassWrite c cinc pinc cbs pbs en rf) s = .next t ∧ t = s) ∧
  (∀ (s : Machine.State) (who : Req) (c : Fin 16384), s.dev.alive = true → s.dev.mayWrite who (gntBase + 0x20) = true → who.atBlocks = true → ∃ t, Machine.exec (.gntPidxCopy who c true) s = .next t ∧ t.dev.flow = s.dev.flow ∧ t.dev.rdN (gntBase + 0x20) = 2 ^ 31 + c ∧ t.dev.rdN (gntBase + 0x40) = (s.dev.polAt c).cinc % 2 ^ 32 ∧ t.dev.rdN (gntBase + 0x48) = (s.dev.polAt c).cbs % 2 ^ 32 ∧ t.dev.rd64 (gntBase + 0x60) = (s.dev.polAt c).green % 2 ^ 64 ∧ t.dev.rd64 (gntBase + 0x70) = (s.dev.polAt c).red % 2 ^ 64) ∧
  (∀ (s : Machine.State) (who : Req) (c : Fin 16384), s.dev.alive = true → s.dev.mayWrite who (gntBase + 0x20) = true → who.atBlocks = true → ∃ t, Machine.exec (.gntPidxCopy who c false) s = .next t ∧ t = { s with dev := s.dev.wrN (gntBase + 0x20) c })

/-- A packet whose ensemble has no visible record, or none with a copy in service, is granted with S and K 0 and counted; one with a copy
in service and room joins the queue; one that finds SQLIM or the pool full is dropped; the arbiter grants the only waiting head its score
on a free copy. The event granted first is delivered, unless a parity error in a slot of its copy returns it to the head of its queue and
the slot is reloaded; the end of a reload takes the slot out of its copy's list and counts it in the record; a drop run ends with its
DROPEND event and count; a scrub step that finds no error only moves to the next slot, and one that finds a slot whose backing copy fails
too takes the copy out of service. (R268, R269, R270, R272, R277) -/
def Obligations.TheFabricScoresAndServes : Prop :=
  (∀ (s : Machine.State) (i : Nat), s.dev.alive = true → s.dev.turn .policed = some i → s.dev.ensRecord (bits (s.dev.pkt i).res 175 170) (s.dev.pkt i).ver = none → ∃ t, Machine.exec (.scoreAdmit) s = .next t ∧ t.dev.pkt i = { s.dev.pkt i with s := 0, k := 0, fs := false, grant := none, lsat := false, fssat := 0, stage := .granted, hand := s.dev.flow.hands } ∧ t.dev.rd64 (treBase + 0x1010) = (s.dev.rd64 (treBase + 0x1010) + 1) % 2 ^ 64) ∧
  (∀ (s : Machine.State) (i r : Nat), s.dev.alive = true → s.dev.turn .policed = some i → s.dev.ensRecord (bits (s.dev.pkt i).res 175 170) (s.dev.pkt i).ver = some r → (s.dev.recAt r).copies.any s.dev.copyOk = false → ∃ t, Machine.exec (.scoreAdmit) s = .next t ∧ t.dev.pkt i = { s.dev.pkt i with s := 0, k := 0, fs := false, grant := none, lsat := false, fssat := 0, stage := .granted, hand := s.dev.flow.hands } ∧ t.dev.rd64 (treBase + 0x1040) = (s.dev.rd64 (treBase + 0x1040) + 1) % 2 ^ 64) ∧
  (∀ (s : Machine.State) (i r : Nat), s.dev.alive = true → s.dev.turn .policed = some i → s.dev.ensRecord (bits (s.dev.pkt i).res 175 170) (s.dev.pkt i).ver = some r → (s.dev.recAt r).copies.any s.dev.copyOk = true → (s.dev.sqAt (bits (s.dev.pkt i).res 175 170)).length < (s.dev.recAt r).sqlim → s.dev.poolUsed < 65536 → ∃ t, Machine.exec (.scoreAdmit) s = .next t ∧ t.dev.pkt i = { s.dev.pkt i with stage := .queued } ∧ t.dev.sqAt (bits (s.dev.pkt i).res 175 170) = s.dev.sqAt (bits (s.dev.pkt i).res 175 170) ++ [i]) ∧
  (∀ (s : Machine.State) (i r : Nat), s.dev.alive = true → s.dev.turn .policed = some i → s.dev.ensRecord (bits (s.dev.pkt i).res 175 170) (s.dev.pkt i).ver = some r → (s.dev.recAt r).copies.any s.dev.copyOk = true → ((s.dev.recAt r).sqlim ≤ (s.dev.sqAt (bits (s.dev.pkt i).res 175 170)).length ∨ 65536 ≤ s.dev.poolUsed) → ∃ t, Machine.exec (.scoreAdmit) s = .next t ∧ (t.dev.pkt i).stage = .gone ∧ t.dev.sqAt (bits (s.dev.pkt i).res 175 170) = s.dev.sqAt (bits (s.dev.pkt i).res 175 170)) ∧
  (∀ (s : Machine.State) (e : Fin 64) (n at_ own : Nat), s.dev.alive = true → Tab.get none s.dev.flow.drops e = some (n, at_, own) → (Tab.get [] s.dev.cat.fifo 32).length < 8 → Tab.get [] s.dev.cat.hold 32 = [] → ∃ t, Machine.exec (.dropEnd e) s = .next t ∧ Tab.find t.dev.flow.drops e = none ∧ t.dev.flow.recs = s.dev.flow.recs ∧ Tab.get [] t.dev.cat.fifo 32 = Tab.get [] s.dev.cat.fifo 32 ++ [{ value := 2 + 256 * e + 2 ^ 32 * min n 0xFFFFFFFF, source := 32, partition := if own < 32 then own else 0xFF, kind := 0x10, detail := 0 }]) ∧
  (∀ (s : Machine.State) (e i r : Nat) (c : EnsCopy), s.dev.alive = true → e < 64 → s.dev.sqAt e = [i] → (upTo 64).all (fun k => decide (k = e) || decide (s.dev.sqAt k = [])) = true → s.dev.ensRecord e (s.dev.pkt i).ver = some r → (s.dev.recAt r).copies = [c] → s.dev.copyOk c = true → c.quads.all (fun q => decide (q < 4)) = true → ∃ t, Machine.exec (.scoreGrant) s = .next t ∧ (t.dev.pkt i).stage = .granted ∧ (t.dev.pkt i).grant = some (r, 0) ∧ (t.dev.pkt i).hand = s.dev.flow.hands ∧ (t.dev.pkt i).s = (s.dev.scorePkt (s.dev.pkt i) (s.dev.recAt r)).1 ∧ (t.dev.pkt i).k = (s.dev.scorePkt (s.dev.pkt i) (s.dev.recAt r)).2.1 ∧ t.dev.sqAt e = [] ∧ t.dev.flow.sqPtr = (s.dev.flow.sqPtr + 1) % 64) ∧
  (∀ (s : Machine.State) (i : Nat) (err : Option (Fin 8192 × Bool)), s.dev.alive = true → s.dev.firstHand .granted = some i → err.all (fun x => (s.dev.pkt i).grant.isNone || decide (s.dev.slotOwner x.1.val ≠ (s.dev.pkt i).grant)) = true → ∃ t, Machine.exec (.scoreDeliver err) s = .next t ∧ t.dev.pkt i = { s.dev.pkt i with stage := .scored } ∧ ((s.dev.pkt i).grant.isSome = true → t.dev.rd64 (treBase + 0x1000) = (s.dev.rd64 (treBase + 0x1000) + 1) % 2 ^ 64)) ∧
  (∀ (s : Machine.State) (i r c : Nat) (slot : Fin 8192), s.dev.alive = true → s.dev.firstHand .granted = some i → (s.dev.pkt i).grant = some (r, c) → s.dev.slotOwner slot = some (r, c) → c < (s.dev.recAt r).copies.length → ∃ t, Machine.exec (.scoreDeliver (some (slot, false))) s = .next t ∧ (t.dev.pkt i).stage = .queued ∧ (t.dev.pkt i).grant = none ∧ t.dev.sqAt (s.dev.recAt r).ens = i :: s.dev.sqAt (s.dev.recAt r).ens ∧ ((t.dev.recAt r).copies.getD c { quads := [], first := [] }).reload = ((s.dev.recAt r).copies.getD c { quads := [], first := [] }).reload ++ [slot.val] ∧ t.dev.rd64 (treBase + 0x1020) = (s.dev.rd64 (treBase + 0x1020) + 1) % 2 ^ 64 ∧ wbit (t.dev.rd (treBase + 0x0C)) 1 = true) ∧
  (∀ (s : Machine.State) (slot : Fin 8192) (r c : Nat), s.dev.alive = true → s.dev.slotOwner slot = some (r, c) → ((s.dev.recAt r).copies.getD c { quads := [], first := [] }).reload.contains slot.val = true → ∃ t, Machine.exec (.slotReloadDone slot) s = .next t ∧ (t.dev.recAt r).reloads = (s.dev.recAt r).reloads + 1 ∧ (t.dev.recAt r).copies = ((s.dev.recAt r).copies.zip (upTo (s.dev.recAt r).copies.length)).map (fun a => if a.2 = c then { a.1 with reload := a.1.reload.filter (fun z => decide (z ≠ slot.val)) } else a.1)) ∧
  (∀ (s : Machine.State), s.dev.alive = true → bit (s.dev.rdN (treBase + 4)) 1 = true → ∃ t, Machine.exec (.fabricScrub .none) s = .next t ∧ t = { s with dev := { s.dev with flow := { s.dev.flow with scrub := (s.dev.flow.scrub + 1) % 8192 } } }) ∧
  (∀ (s : Machine.State) (r c n : Nat), s.dev.alive = true → bit (s.dev.rdN (treBase + 4)) 1 = true → s.dev.slotOwner s.dev.flow.scrub = some (r, c) → c < (s.dev.recAt r).copies.length → ∃ t, Machine.exec (.fabricScrub (.uncData n)) s = .next t ∧ ((t.dev.recAt r).copies.getD c { quads := [], first := [] }).lost = true ∧ t.dev.flow.scrub = (s.dev.flow.scrub + 1) % 8192 ∧ wbit (t.dev.rd (treBase + 0x0C)) 2 = true)

/-- The packet that left step 8 first takes the verdict of R240; the packet of a port whose sequence number is next is released, as
dropped when its INLINE port forms no pair; a forwarded or rate-classed untagged packet of an inline pair joins the partner's egress queue
with its frame; a mirrored one of another mode leaves its whole frame in the queue of its destination; a dropped one, or one of a port
whose mode forwards nothing, is gone; the tag alarm of a profile ends after 1,000 ms. (R33, R176, R225, R240, R241, R243, R245, R480) -/
def Obligations.VerdictsAndTheReorderStage : Prop :=
  (∀ (s : Machine.State) (i : Nat), s.dev.alive = true → s.dev.firstHand .scored = some i → ∃ t, Machine.exec (.visorVerdict) s = .next t ∧ t.dev.pkt i = { s.dev.pkt i with act := (s.dev.verdictOf (s.dev.pkt i)).1, cls := (s.dev.verdictOf (s.dev.pkt i)).2, tagged := decide ((s.dev.verdictOf (s.dev.pkt i)).1 = 1), stage := .verdict }) ∧
  (∀ (s : Machine.State) (k : Fin 64), s.dev.alive = true → ∃ t, Machine.exec (.taggedQuietExpiry k) s = .next t ∧ Tab.find t.dev.flow.tagAt k = none ∧ (Tab.get {} t.dev.tel.alarms (alarmKey 10 k)).set = false) ∧
  (∀ (s : Machine.State) (n : Fin 32) (i : Nat), s.dev.alive = true → s.dev.pktFind (fun p => decide (p.port = n.val) && decide (p.seq = (s.dev.portAt n).relSeq) && decide (p.stage = .verdict)) = some i → ∃ t, Machine.exec (.reorderRelease n) s = .next t ∧ (t.dev.pkt i).released = true ∧ (t.dev.pkt i).stage = .released ∧ (t.dev.pkt i).data = (s.dev.pkt i).data ∧ (t.dev.pkt i).act = (if (s.dev.pkt i).mode = 1 ∧ s.dev.paired (s.dev.pkt i).port = false then 3 else (s.dev.pkt i).act)) ∧
  (∀ (s : Machine.State) (i : Nat), s.dev.alive = true → s.dev.firstHand .released = some i → (s.dev.pkt i).eof ≠ some false → (s.dev.pkt i).synth = false → (s.dev.pkt i).mode = 1 → ((s.dev.pkt i).act = 0 ∨ (s.dev.pkt i).act = 4) → (s.dev.pkt i).tagged = false → ((s.dev.pkt i).marked = false ∨ (s.dev.egAt (s.dev.partner (s.dev.pkt i).port) (s.dev.pkt i).cls).occ < s.dev.rdN (gntQ (s.dev.partner (s.dev.pkt i).port) (s.dev.pkt i).cls 0x18)) → s.dev.mayTx (s.dev.partner (s.dev.pkt i).port) = true → (s.dev.egAt (s.dev.partner (s.dev.pkt i).port) (s.dev.pkt i).cls).occ + (s.dev.pkt i).cells ≤ s.dev.rdN (gntQ (s.dev.partner (s.dev.pkt i).port) (s.dev.pkt i).cls 0x14) → ∃ t, Machine.exec (.egressEnqueue) s = .next t ∧ (t.dev.egAt (s.dev.partner (s.dev.pkt i).port) (s.dev.pkt i).cls).items = (s.dev.egAt (s.dev.partner (s.dev.pkt i).port) (s.dev.pkt i).cls).items ++ [{ pkt := some i, len := (s.dev.pkt i).len, cells := (s.dev.pkt i).cells, marked := (s.dev.pkt i).marked, data := (s.dev.pkt i).data, cut := s.dev.cutOk (s.dev.partner (s.dev.pkt i).port) (s.dev.pkt i).cls (s.dev.pkt i) }] ∧ t.dev.pkt i = { s.dev.pkt i with stage := .gone, refs := (s.dev.pkt i).refs + 1 }) ∧
  (∀ (s : Machine.State) (i : Nat), s.dev.alive = true → s.dev.firstHand .released = some i → (s.dev.pkt i).eof ≠ some false → (s.dev.pkt i).synth = false → ((s.dev.pkt i).act = 3 ∨ ((s.dev.pkt i).mode ≠ 1 ∧ (s.dev.pkt i).act ≠ 2 ∧ (s.dev.pkt i).act ≠ 5)) → ((decide ((s.dev.pkt i).mode = 1)) && (s.dev.tagBytes (s.dev.pkt i) (s.dev.partner (s.dev.pkt i).port)).2) = false → ∃ t, Machine.exec (.egressEnqueue) s = .next t ∧ t = { s with dev := s.dev.pktSet i { s.dev.pkt i with stage := .gone } }) ∧
  (∀ (s : Machine.State) (i n q : Nat), s.dev.alive = true → s.dev.firstHand .released = some i → (s.dev.pkt i).eof ≠ some false → (s.dev.pkt i).synth = false → (s.dev.pkt i).act = 2 → (s.dev.pkt i).mode ≠ 1 → bits (s.dev.rdN (visBase + 0x2000 + 0x10 * bits (s.dev.pkt i).res 151 144)) 4 0 = n → bits (s.dev.rdN (visBase + 0x2000 + 0x10 * bits (s.dev.pkt i).res 151 144)) 7 5 = q → bit (s.dev.rdN (visBase + 0x2000 + 0x10 * bits (s.dev.pkt i).res 151 144)) 8 = true → bit (s.dev.rdN (visBase + 0x2000 + 0x10 * bits (s.dev.pkt i).res 151 144)) 9 = false → bits (s.dev.rdN (visBase + 0x2000 + 0x10 * bits (s.dev.pkt i).res 151 144)) 31 16 = 0 → (s.dev.portMode n ≠ 2 ∨ n ≠ (s.dev.pkt i).port) → s.dev.mayTx n = true → (s.dev.egAt n q).occ + (s.dev.pkt i).cells ≤ s.dev.rdN (gntQ n q 0x14) → (s.dev.pkt i).marked = false → ∃ t, Machine.exec (.egressEnqueue) s = .next t ∧ (t.dev.egAt n q).items = (s.dev.egAt n q).items ++ [{ pkt := some i, len := (s.dev.pkt i).data.length + 4, cells := (s.dev.pkt i).cells, data := (s.dev.pkt i).data, cut := s.dev.cutOk n q (s.dev.pkt i) }] ∧ t.dev.pkt i = { s.dev.pkt i with stage := .gone, refs := (s.dev.pkt i).refs + 1 })

/-- With no promoted and no starved queue, a strict queue in the guaranteed band with the highest number begins transmission of its head;
the end of the frame leaves the transmitter idle, is sent and counted; a frame that is still arriving does not end; an idle packet loses
its cells; a starved queue is aged beyond the limit; firmware rewrites a queue record, with credits full or zero by RESETFULL. (R237,
R246, R247, R248, R249) -/
def Obligations.TheSchedulerSendsAndFrames : Prop :=
  (∀ (s : Machine.State) (n : Fin 32) (q : Nat) (it : EgItem) (rest : List EgItem), s.dev.alive = true → (s.dev.portAt n).tx = none → s.dev.mayTx n = true → (upTo 8).find? (fun k => (((s.dev.qRefreshAll n (upTo 8)).promoClear n (upTo 8)).egAt n k).promo.isSome) = none → ((s.dev.qRefreshAll n (upTo 8)).promoClear n (upTo 8)).starvedPick n = none → ((s.dev.qRefreshAll n (upTo 8)).promoClear n (upTo 8)).strictPick n 2 = some q → (s.dev.egAt n q).items = it :: rest → bit (s.dev.rdN (prt n 0x30)) 1 = false → ∃ t, Machine.exec (.scheduleDecision n) s = .next t ∧ t = { s with dev := ((s.dev.qRefreshAll n (upTo 8)).promoClear n (upTo 8)).txStart n q false false } ∧ (t.dev.portAt n).tx.map (fun x => x.1) = some q ∧ (t.dev.egAt n q).items = rest ∧ (it.mark = none → (t.dev.portAt n).tx = some (q, it))) ∧
  (∀ (s : Machine.State) (n : Fin 32) (q : Nat) (it : EgItem), s.dev.alive = true → (s.dev.portAt n).tx = some (q, it) → s.dev.whole it = true → s.dev.flow.failsafe = false → it.pkt.all (fun i => decide ((s.dev.pkt i).entry < 32)) = true → ∃ t, Machine.exec (.frameRelease (some n)) s = .next t ∧ (t.dev.portAt n).tx = none ∧ t.dev.out.reverse[s.dev.out.length]? = some (match it.pkt with | some i => .frame n q i it.data it.bad | none => .frameBytes n it.data) ∧ (t.dev.portAt n).ctl = [] ∧ t.dev.rd64 (prt n 0x150) = (s.dev.rd64 (prt n 0x150) + 1) % 2 ^ 64) ∧
  (∀ (s : Machine.State) (i : Nat), s.dev.alive = true → s.dev.pktFind Pkt.idle = some i → ∃ t, Machine.exec (.frameRelease none) s = .next t ∧ Tab.find t.dev.flow.pkts i = none) ∧
  (∀ (s : Machine.State) (n : Fin 32) (q : Fin 8), s.dev.alive = true → bits (s.dev.rdN (gntBase + 0x800 + 4 * n)) 15 0 ≠ 0 → (s.dev.qRefresh n q).qBand n q ((s.dev.qRefresh n q).egAt n q) ≠ 0 → ∃ t, Machine.exec (.queueStarved n q) s = .next t ∧ (bits (s.dev.rdN (gntBase + 0x800 + 4 * n)) 15 0 + 1) * 10000 ≤ (t.dev.egAt n q).age ∧ (t.dev.egAt n q).items = (s.dev.egAt n q).items) ∧
  (∀ (s : Machine.State) (n : Fin 32) (q : Fin 8) (w : List Nat), s.dev.alive = true → s.dev.fwReady = true → s.dev.helds = false → ∃ t, Machine.exec (.queueRecordWrite n q w) s = .next t ∧ (∀ k, k < 7 → t.dev.rdN (gntQ n q (4 * k)) = w.getD k 0 % 2 ^ 32) ∧ (t.dev.egAt n q).cc = (if bit (w.getD 0 0) 1 then (bits (w.getD 3 0) 23 0 : Int) * 2 ^ 24 else 0) ∧ (t.dev.egAt n q).cp = (if bit (w.getD 0 0) 1 then (bits (w.getD 4 0) 23 0 : Int) * 2 ^ 24 else 0) ∧ (t.dev.egAt n q).d = 0 ∧ (t.dev.egAt n q).items = (s.dev.egAt n q).items) ∧
  (∀ (s : Machine.State) (n : Fin 32) (q : Nat) (it : EgItem), s.dev.alive = true → (s.dev.portAt n).tx = some (q, it) → s.dev.whole it = false → ∃ t, Machine.exec (.frameRelease (some n)) s = .next t ∧ t = s)

/-- An accepted measurement of an enabled source raises its count of good measurements, qualifies it at QUALN and stores its bound and its
time, and counts; a PTP offset of an old epoch is counted and dropped, and one of a clock class above the limit ends the qualification; a
second PPS edge within one second is rejected and counted; a frame that fails its checks, or an extension without control functions,
counts and starts the count of good frames anew; the loss of a qualified source clears its qualification, sets the event and counts. A
lost reference moves TUCLK to the crystal and one that has stayed returns it, each an event and a count; firmware may set the time while
no source is selected, with a bound of at least 1 ms, and otherwise nothing changes; a pending step lands with the reported time at its
boundary plus Δ and EPOCH one higher; the bound is renewed each millisecond and one above TMU_FRLIMIT ends HOLDOVER; the pulse drives
PPS_OUT for its width; a leap second moves TMU_UTCOFF by one; a read of TMU_NOW0 answers SUBSEC and latches the rest. The unit does so
through a warm reset's save as well. (R279, R280, R283, R285, R287, R288, R289, R290, R294, R295, R297) -/
def Obligations.TheTimeUnitActs : Prop :=
  (∀ (s : Machine.State) (c : Fin 12) (off epoch extra cls : Nat), s.dev.alive = true → s.dev.mayWrite (.fw c) (tmuBase + 0x74) = true → bit (s.dev.rdN (tmuReg 4)) 5 = true → epoch % 256 = s.dev.tmu.epoch → cls ≤ bits (s.dev.rdN (tmuReg 0x64)) 7 0 → ∃ t, Machine.exec (.ptpMeasurement (.fw c) off epoch extra cls) s = .next t ∧ Tab.get {} t.dev.tmu.src 1 = { good := min 15 ((Tab.get {} s.dev.tmu.src 1).good + 1), qualified := (Tab.get {} s.dev.tmu.src 1).qualified || decide (bits (s.dev.rdN (tmuReg 0x5C)) 3 0 ≤ min 15 ((Tab.get {} s.dev.tmu.src 1).good + 1)), srcb := bits (s.dev.rdN (tmuReg 0x54)) 15 0 + (if bits (s.dev.rdN (tmuReg 0x64)) 17 16 = 2 then extra else 0) + (if bit (s.dev.rdN (tmuReg 0x64)) 23 then 16 else 0), bad := 0, last := s.dev.now } ∧ t.dev.rd64 (tmuReg 0x138) = (s.dev.rd64 (tmuReg 0x138) + 1) % 2 ^ 64) ∧
  (∀ (s : Machine.State) (c : Fin 12) (off epoch extra cls : Nat), s.dev.alive = true → s.dev.mayWrite (.fw c) (tmuBase + 0x74) = true → bit (s.dev.rdN (tmuReg 4)) 5 = true → epoch % 256 ≠ s.dev.tmu.epoch → ∃ t, Machine.exec (.ptpMeasurement (.fw c) off epoch extra cls) s = .next t ∧ t.dev.tmu = s.dev.tmu ∧ t.dev.rd64 (tmuReg 0x140) = (s.dev.rd64 (tmuReg 0x140) + 1) % 2 ^ 64) ∧
  (∀ (s : Machine.State) (x : Nat), (s.dev.alive || (s.dev.pwr.saving.isSome && !s.dev.pwr.frozen)) = true → bit (s.dev.rdN (tmuReg 4)) 6 = true → s.dev.tmu.ppsLast.all (fun l => decide (l + 10000000000 ≤ s.dev.now)) = true → ((Tab.get {} s.dev.tmu.src 2).qualified = false ∨ ((x : Int) - sext 32 (s.dev.rdN (tmuReg 0x48))) % (qsec : Int) ≤ 4000 * (bits (s.dev.rdN (tmuReg 0x44)) 15 0 : Int) ∨ (qsec : Int) - ((x : Int) - sext 32 (s.dev.rdN (tmuReg 0x48))) % (qsec : Int) ≤ 4000 * (bits (s.dev.rdN (tmuReg 0x44)) 15 0 : Int)) → s.dev.tmu.unknown = false → ∃ t, Machine.exec (.ppsInEdge x) s = .next t ∧ t.dev.tmu.ppsLast = some s.dev.now ∧ Tab.get {} t.dev.tmu.src 2 = { good := min 15 ((Tab.get {} s.dev.tmu.src 2).good + 1), qualified := (Tab.get {} s.dev.tmu.src 2).qualified || decide (bits (s.dev.rdN (tmuReg 0x5C)) 3 0 ≤ min 15 ((Tab.get {} s.dev.tmu.src 2).good + 1)), srcb := bits (s.dev.rdN (tmuReg 0x54)) 31 16, bad := 0, last := s.dev.now } ∧ t.dev.rd64 (tmuReg 0x118) = (s.dev.rd64 (tmuReg 0x118) + 1) % 2 ^ 64) ∧
  (∀ (s : Machine.State) (x : Nat) (f : IrigIn), (s.dev.alive || (s.dev.pwr.saving.isSome && !s.dev.pwr.frozen)) = true → bit (s.dev.rdN (tmuReg 4)) 7 = true → f.ok = true → (bit (s.dev.rdN (tmuReg 4)) 8 = false ∨ (irigControl f.fmt = true ∧ f.q < 12)) → (s.dev.tmu.irigPrev.all (fun p => decide (s.dev.irigSecs f = p + 1))) = true → ∃ t, Machine.exec (.irigFrame x f.toIrigDate f.offMin f.ok f.q f.leap) s = .next t ∧ t.dev.tmu.irigPrev = some (s.dev.irigSecs f) ∧ Tab.get {} t.dev.tmu.src 3 = { good := min 15 ((Tab.get {} s.dev.tmu.src 3).good + 1), qualified := (Tab.get {} s.dev.tmu.src 3).qualified || decide (bits (s.dev.rdN (tmuReg 0x5C)) 3 0 ≤ min 15 ((Tab.get {} s.dev.tmu.src 3).good + 1)), srcb := if bit (s.dev.rdN (tmuReg 4)) 8 ∧ f.q ≠ 0 then 10 ^ (f.q - 1) else bits (s.dev.rdN (tmuReg 0x58)) 15 0, bad := 0, last := s.dev.now } ∧ t.dev.rd64 (tmuReg 0x128) = (s.dev.rd64 (tmuReg 0x128) + 1) % 2 ^ 64) ∧
  (∀ (s : Machine.State) (k : Fin 4), (s.dev.alive || (s.dev.pwr.saving.isSome && !s.dev.pwr.frozen)) = true → (Tab.get {} s.dev.tmu.src k).qualified = true → ∃ t, Machine.exec (.sourceLoss k) s = .next t ∧ (Tab.get {} t.dev.tmu.src k).qualified = false ∧ (Tab.get {} t.dev.tmu.src k).good = 0 ∧ wbit (t.dev.rd (tmuReg 0x10)) 3 = true ∧ t.dev.rd64 (tmuReg 0x148) = (s.dev.rd64 (tmuReg 0x148) + 1) % 2 ^ 64) ∧
  (∀ (s : Machine.State), (s.dev.alive || (s.dev.pwr.saving.isSome && !s.dev.pwr.frozen)) = true → s.dev.tmu.refIn = true → ∃ t, Machine.exec (.refLoss) s = .next t ∧ t.dev.tmu.refIn = false ∧ wbit (t.dev.rd (tmuReg 0x10)) 5 = true ∧ t.dev.rd64 (tmuReg 0x150) = (s.dev.rd64 (tmuReg 0x150) + 1) % 2 ^ 64) ∧
  (∀ (s : Machine.State), (s.dev.alive || (s.dev.pwr.saving.isSome && !s.dev.pwr.frozen)) = true → s.dev.tmu.refIn = false → bit (s.dev.rdN (tmuReg 4)) 4 = false → ∃ t, Machine.exec (.refReturn) s = .next t ∧ t.dev.tmu.refIn = true ∧ wbit (t.dev.rd (tmuReg 0x10)) 5 = true ∧ t.dev.rd64 (tmuReg 0x150) = (s.dev.rd64 (tmuReg 0x150) + 1) % 2 ^ 64) ∧
  (∀ (s : Machine.State) (q bound : Nat), s.dev.alive = true → s.dev.fwReady = true → s.dev.helds = false → s.dev.tmu.sel = 0 → 1000000 ≤ bound → ∃ t, Machine.exec (.timeSet q bound) s = .next t ∧ t.dev.tmu.source = 4 ∧ t.dev.tmu.sel = 0 ∧ t.dev.tmu.src = s.dev.tmu.src ∧ (s.dev.tmu.unknown = true → s.dev.tmu.pend = none → t.dev.tmu.state = .stepping ∧ t.dev.tmu.pend = some { delta := (q : Int) - s.dev.tmu.cnt, at_ := s.dev.tmu.cnt, prev := s.dev.tmu.state }) ∧ (s.dev.tmu.unknown = false → s.dev.tmu.pend = none → ((q : Int) - s.dev.tmu.cnt).natAbs ≤ 4 * s.dev.stepThr → t.dev.tmu.state = s.dev.tmu.state ∧ t.dev.tmu.slew = ((q : Int) - s.dev.tmu.cnt) * 65536 ∧ t.dev.tmu.err = min 0xFFFFFFFE (nsUp ((q : Int) - s.dev.tmu.cnt) + bound + s.dev.boardErr))) ∧
  (∀ (s : Machine.State) (p : PendStep), (s.dev.alive || (s.dev.pwr.saving.isSome && !s.dev.pwr.frozen)) = true → s.dev.tmu.pend = some p → ∃ t, Machine.exec (.stepLand) s = .next t ∧ t.dev.tmu.cnt = ((p.boundary : Int) + p.delta).toNat ∧ t.dev.tmu.epoch = (s.dev.tmu.epoch + 1) % 256 ∧ t.dev.tmu.pend = none ∧ t.dev.tmu.unknown = false ∧ t.dev.tmu.slew = 0 ∧ wbit (t.dev.rd (tmuReg 0x10)) 0 = true) ∧
  (∀ (s : Machine.State), (s.dev.alive || (s.dev.pwr.saving.isSome && !s.dev.pwr.frozen)) = true → s.dev.tmu.unknown = false → ∃ t, Machine.exec (.errorBoundUpdate) s = .next t ∧ t.dev.tmu.err = min 0xFFFFFFFE ({ s.dev with now := s.dev.now + msec } : Dev).boundNow ∧ (s.dev.tmu.state = .holdover → s.dev.rdN (tmuReg 0x34) < ({ s.dev with now := s.dev.now + msec } : Dev).boundNow → t.dev.tmu.state = .freerun)) ∧
  (∀ (s : Machine.State), (s.dev.alive || (s.dev.pwr.saving.isSome && !s.dev.pwr.frozen)) = true → bit (s.dev.rdN (tmuReg 4)) 0 = true → (bit (s.dev.rdN (tmuReg 4)) 1 && s.dev.tmu.unknown) = false → s.dev.tmu.ppsOut = false → ∃ t, Machine.exec (.ppsOutPulse) s = .next t ∧ t.dev.tmu.ppsOut = true ∧ t.dev.out = .pin "PPS_OUT" true :: s.dev.out) ∧
  (∀ (s : Machine.State), (s.dev.alive || (s.dev.pwr.saving.isSome && !s.dev.pwr.frozen)) = true → s.dev.tmu.ppsOut = true → s.dev.tmu.ppsUntil ≤ s.dev.now → ∃ t, Machine.exec (.ppsOutEnd) s = .next t ∧ t.dev.tmu.ppsOut = false ∧ t.dev.out = .pin "PPS_OUT" false :: s.dev.out) ∧
  (∀ (s : Machine.State), (s.dev.alive || (s.dev.pwr.saving.isSome && !s.dev.pwr.frozen)) = true → (s.dev.tmu.leap = 1 ∨ s.dev.tmu.leap = -1) → ∃ t, Machine.exec (.leapSecond) s = .next t ∧ t.dev.rdN (tmuReg 0x38) % 65536 = wrapI 16 (sext 16 (s.dev.rdN (tmuReg 0x38)) + s.dev.tmu.leap) ∧ t.dev.tmu.leap = 0 ∧ bits (t.dev.rdN (tmuReg 0x38)) 17 16 = 0 ∧ wbit (t.dev.rd (tmuReg 0x10)) 6 = true) ∧
  (∀ (s : Machine.State) (who : Req), s.dev.alive = true → s.dev.reqOpen who = true → ∃ t, Machine.exec (.tmuNowRead who) s = .next t ∧ t.dev.out = .read who 0 s.dev.stamp.subsec :: s.dev.out ∧ Tab.find t.dev.host.nowLatch (8 * who.code + 1) = some (s.dev.stamp.seconds % 2 ^ 32) ∧ Tab.find t.dev.host.nowLatch (8 * who.code + 3) = some s.dev.stamp.epoch ∧ Tab.find t.dev.host.nowLatch (8 * who.code + 4) = some (if s.dev.tmu.unknown then 0xFFFFFFFF else s.dev.tmu.err)) ∧
  (∀ (s : Machine.State) (c : Fin 12) (off epoch extra cls : Nat), s.dev.alive = true → s.dev.mayWrite (.fw c) (tmuBase + 0x74) = true → bit (s.dev.rdN (tmuReg 4)) 5 = true → epoch % 256 = s.dev.tmu.epoch → bits (s.dev.rdN (tmuReg 0x64)) 7 0 < cls → ∃ t, Machine.exec (.ptpMeasurement (.fw c) off epoch extra cls) s = .next t ∧ (Tab.get {} t.dev.tmu.src 1).qualified = false ∧ (Tab.get {} t.dev.tmu.src 1).good = 0) ∧
  (∀ (s : Machine.State) (x l : Nat), (s.dev.alive || (s.dev.pwr.saving.isSome && !s.dev.pwr.frozen)) = true → bit (s.dev.rdN (tmuReg 4)) 6 = true → s.dev.tmu.ppsLast = some l → s.dev.now < l + 10000000000 → ∃ t, Machine.exec (.ppsInEdge x) s = .next t ∧ t.dev.tmu = s.dev.tmu ∧ t.dev.rd64 (tmuReg 0x120) = (s.dev.rd64 (tmuReg 0x120) + 1) % 2 ^ 64 ∧ wbit (t.dev.rd (tmuReg 0x10)) 7 = true) ∧
  (∀ (s : Machine.State) (x : Nat) (f : IrigIn), (s.dev.alive || (s.dev.pwr.saving.isSome && !s.dev.pwr.frozen)) = true → bit (s.dev.rdN (tmuReg 4)) 7 = true → (f.ok = false ∨ (bit (s.dev.rdN (tmuReg 4)) 8 = true ∧ irigControl f.fmt = false)) → ∃ t, Machine.exec (.irigFrame x f.toIrigDate f.offMin f.ok f.q f.leap) s = .next t ∧ (Tab.get {} t.dev.tmu.src 3).good = 0 ∧ t.dev.rd64 (tmuReg 0x130) = (s.dev.rd64 (tmuReg 0x130) + 1) % 2 ^ 64 ∧ wbit (t.dev.rd (tmuReg 0x10)) 8 = true) ∧
  (∀ (s : Machine.State) (q bound : Nat), s.dev.alive = true → (s.dev.tmu.sel ≠ 0 ∨ bound < 1000000) → ∃ t, Machine.exec (.timeSet q bound) s = .next t ∧ t = s)

/-- At its opening time a running group opens snapshot n in buffer n mod NBUF and waits for n + 1; a group that starts before its first
opening time runs and waits for it; the fileable packet whose turn it is is finished with, and with none nothing changes; up to two values
leave the filing queue; the oldest open snapshot closes at its closing time and becomes the last closed. (R299, R304, R309, R312) -/
def Obligations.SnapshotsOpenFileAndClose : Prop :=
  (∀ (s : Machine.State) (g : Fin 64) (k n : Nat), s.dev.alive = true → s.dev.groupRec g = some k → s.dev.tmu.unknown = false → (s.dev.grpAt g).running = true → (s.dev.grpAt g).recs.head?.all (fun x => decide (gRate x.2 = gRate (Tab.get [] s.dev.flow.tpl k))) = true → (s.dev.grpAt g).next = some n → gOpenNum (Tab.get [] s.dev.flow.tpl k) n ≤ s.dev.timeNum (Tab.get [] s.dev.flow.tpl k) → bit (fld (Tab.get [] s.dev.flow.tpl k) 11 1) 2 = false → ∃ t, Machine.exec (.snapshotOpen g) s = .next t ∧ (t.dev.grpAt g).next = some (n + 1) ∧ (t.dev.grpAt g).opened = (s.dev.grpAt g).opened ++ [{ n := n, recd := (Tab.get [] s.dev.flow.tpl k), buf := some (gArea (Tab.get [] s.dev.flow.tpl k) + n % gNbuf (Tab.get [] s.dev.flow.tpl k) * gBufLen (Tab.get [] s.dev.flow.tpl k)) }]) ∧
  (∀ (s : Machine.State) (g : Fin 64) (k : Nat), s.dev.alive = true → s.dev.groupRec g = some k → s.dev.tmu.unknown = false → (s.dev.grpAt g).running = false → (s.dev.grpAt g).anyClosed = false → s.dev.timeNum (Tab.get [] s.dev.flow.tpl k) < gOpenNum (Tab.get [] s.dev.flow.tpl k) (s.dev.firstSnap (Tab.get [] s.dev.flow.tpl k)) → ∃ t, Machine.exec (.snapshotOpen g) s = .next t ∧ (t.dev.grpAt g).running = true ∧ (t.dev.grpAt g).next = some (s.dev.firstSnap (Tab.get [] s.dev.flow.tpl k)) ∧ (t.dev.grpAt g).opened = (s.dev.grpAt g).opened) ∧
  (∀ (s : Machine.State) (g : Fin 64) (x : Snap) (rest : List Snap), s.dev.alive = true → (s.dev.grpAt g).opened = x :: rest → s.dev.tmu.unknown = false → (s.dev.grpAt g).running = true → gCloseNum x.recd x.n ≤ s.dev.timeNum x.recd → ∃ t, Machine.exec (.snapshotClose g) s = .next t ∧ (t.dev.grpAt g).lastClosed = max (s.dev.grpAt g).lastClosed x.n ∧ (t.dev.grpAt g).anyClosed = true ∧ (t.dev.grpAt g).gap = 0 ∧ (t.dev.grpAt g).opened = (x :: rest).filter (fun y => decide (y.n ≠ x.n)) ∧ (t.dev.grpAt g).deadlines = (s.dev.grpAt g).deadlines ++ [x.n]) ∧
  (∀ (s : Machine.State) (i : Nat), s.dev.alive = true → s.dev.nextFile = some i → ∃ t, Machine.exec (.huddleTake) s = .next t ∧ (t.dev.pkt i).hudDone = true ∧ (t.dev.pkt i).data = (s.dev.pkt i).data) ∧
  (∀ (s : Machine.State), s.dev.alive = true → ∃ t, Machine.exec (.filingWrite) s = .next t ∧ t.dev.flow.fileQ = s.dev.flow.fileQ.drop 2 ∧ t.dev.mem = (s.dev.writeFiles (s.dev.flow.fileQ.take 2)).mem) ∧
  (∀ (s : Machine.State), s.dev.alive = true → s.dev.nextFile = none → ∃ t, Machine.exec (.huddleTake) s = .next t ∧ t = s)

/-- A record with operation 1 for a closed snapshot of a running group of its gang leaves the forward queue and adds the snapshot to the
results; one with operation 2 releases the buffer that the snapshot holds; one for a group that does not run, or a snapshot not closed, is
dropped and counted; the write-back of a group takes its oldest result; the deadline scan takes its oldest close; a report that a
partition is stale leaves the queue of reports. (R312, R315, R316, R317, R318) -/
def Obligations.ResultsAreTakenAndWrittenBack : Prop :=
  (∀ (s : Machine.State) (c : CatRec) (rest : List CatRec) (k : Nat), s.dev.alive = true → s.dev.cat.fwd = c :: rest → bits c.value 63 60 = 1 → s.dev.groupRec (bits c.value 59 54) = some k → (s.dev.grpAt (bits c.value 59 54)).running = true → s.dev.tmu.unknown = false → s.dev.sameGang c.partition (gPtn ((s.dev.grpAt (bits c.value 59 54)).recOf ((s.dev.grpAt (bits c.value 59 54)).whole (bits c.value 47 0)) (Tab.get [] s.dev.flow.tpl k))) = true → (s.dev.grpAt (bits c.value 59 54)).anyClosed = true → ((s.dev.grpAt (bits c.value 59 54)).whole (bits c.value 47 0)) ≤ (s.dev.grpAt (bits c.value 59 54)).lastClosed → ∃ t, Machine.exec (.resultPost) s = .next t ∧ t.dev.cat.fwd = rest ∧ (t.dev.grpAt (bits c.value 59 54)).results = (s.dev.grpAt (bits c.value 59 54)).results ++ [((s.dev.grpAt (bits c.value 59 54)).whole (bits c.value 47 0))]) ∧
  (∀ (s : Machine.State) (c : CatRec) (rest : List CatRec) (k : Nat), s.dev.alive = true → s.dev.cat.fwd = c :: rest → 1 ≤ bits c.value 63 60 → bits c.value 63 60 ≤ 3 → s.dev.groupRec (bits c.value 59 54) = some k → ((s.dev.grpAt (bits c.value 59 54)).running = false ∨ s.dev.tmu.unknown = true ∨ (s.dev.grpAt (bits c.value 59 54)).anyClosed = false ∨ (s.dev.grpAt (bits c.value 59 54)).lastClosed < ((s.dev.grpAt (bits c.value 59 54)).whole (bits c.value 47 0))) → ∃ t, Machine.exec (.resultPost) s = .next t ∧ t.dev.cat.fwd = rest ∧ t.dev.flow.grp = s.dev.flow.grp ∧ t.dev.rd64 (hudBase + 0x1098) = (s.dev.rd64 (hudBase + 0x1098) + 1) % 2 ^ 64) ∧
  (∀ (s : Machine.State) (c : CatRec) (rest : List CatRec) (k : Nat), s.dev.alive = true → s.dev.cat.fwd = c :: rest → bits c.value 63 60 = 2 → s.dev.groupRec (bits c.value 59 54) = some k → (s.dev.grpAt (bits c.value 59 54)).running = true → s.dev.tmu.unknown = false → s.dev.sameGang c.partition (gPtn ((s.dev.grpAt (bits c.value 59 54)).recOf ((s.dev.grpAt (bits c.value 59 54)).whole (bits c.value 47 0)) (Tab.get [] s.dev.flow.tpl k))) = true → (s.dev.grpAt (bits c.value 59 54)).anyClosed = true → ((s.dev.grpAt (bits c.value 59 54)).whole (bits c.value 47 0)) ≤ (s.dev.grpAt (bits c.value 59 54)).lastClosed → Tab.get none (s.dev.grpAt (bits c.value 59 54)).held (((s.dev.grpAt (bits c.value 59 54)).whole (bits c.value 47 0)) % gNbuf ((s.dev.grpAt (bits c.value 59 54)).recOf ((s.dev.grpAt (bits c.value 59 54)).whole (bits c.value 47 0)) (Tab.get [] s.dev.flow.tpl k))) = some ((s.dev.grpAt (bits c.value 59 54)).whole (bits c.value 47 0)) → ∃ t, Machine.exec (.resultPost) s = .next t ∧ t.dev.cat.fwd = rest ∧ (t.dev.grpAt (bits c.value 59 54)).results = (s.dev.grpAt (bits c.value 59 54)).results ∧ Tab.get none (t.dev.grpAt (bits c.value 59 54)).held (((s.dev.grpAt (bits c.value 59 54)).whole (bits c.value 47 0)) % gNbuf ((s.dev.grpAt (bits c.value 59 54)).recOf ((s.dev.grpAt (bits c.value 59 54)).whole (bits c.value 47 0)) (Tab.get [] s.dev.flow.tpl k))) = none) ∧
  (∀ (s : Machine.State) (g : Fin 64) (ecc : Ecc) (n : Nat) (rest : List Nat) (k : Nat), s.dev.alive = true → (s.dev.grpAt g).results = n :: rest → s.dev.groupRec g = some k → ∃ t, Machine.exec (.resultWriteback g ecc) s = .next t ∧ (t.dev.grpAt g).results = rest ∧ (t.dev.grpAt g).lastBack = n) ∧
  (∀ (s : Machine.State) (g : Fin 64) (m : Nat) (rest : List Nat) (k : Nat), s.dev.alive = true → (s.dev.grpAt g).deadlines = m :: rest → s.dev.groupRec g = some k → ∃ t, Machine.exec (.resultDeadline g) s = .next t ∧ (t.dev.grpAt g).deadlines = rest ∧ (t.dev.grpAt g).results = (s.dev.grpAt g).results) ∧
  (∀ (s : Machine.State) (p : Fin 32), s.dev.alive = true → ∃ t, Machine.exec (.partitionStale p) s = .next t ∧ t.dev.ptn.staleReports = s.dev.ptn.staleReports.filter (fun q => decide (q ≠ p.val)) ∧ t.dev.flow.grp = s.dev.flow.grp)

/-- A record of a source with room and nothing held enters that source's FIFO; the take of the picked source removes its oldest record and
writes it, stamped and numbered, at the head of the ring of its partition; a tail not beyond the head is stored, for the partition's VF,
for the PF of ring 32, and for firmware of every ring (log 108); one beyond the head is ignored and an access error of cause 8. (R150,
R151, R154, R155, R156, R355) -/
def Obligations.CatcherRecordsAndRings : Prop :=
  (∀ (s : Machine.State) (r : CatRec), s.dev.alive = true → (Tab.get [] s.dev.cat.fifo r.source).length < 8 → Tab.get [] s.dev.cat.hold r.source = [] → ∃ t, Machine.exec (.catcherRecord r) s = .next t ∧ Tab.get [] t.dev.cat.fifo r.source = Tab.get [] s.dev.cat.fifo r.source ++ [r] ∧ t.dev.core = s.dev.core) ∧
  (∀ (s : Machine.State) (k : Nat) (r : CatRec) (rest : List CatRec), s.dev.alive = true → s.dev.cat.pick = some k → Tab.get [] s.dev.cat.fifo k = r :: rest → Tab.get [] s.dev.cat.hold k = [] → (Tab.get 0 s.dev.cat.head (if r.partition < 32 then r.partition else 32) + 256 - Tab.get 0 s.dev.cat.tail (if r.partition < 32 then r.partition else 32)) % 256 ≠ 128 → ∃ t, Machine.exec (.catcherTake) s = .next t ∧ Tab.get [] t.dev.cat.fifo k = rest ∧ Tab.get CatRec.zero t.dev.cat.slot ((if r.partition < 32 then r.partition else 32) * 128 + Tab.get 0 s.dev.cat.head (if r.partition < 32 then r.partition else 32) % 128) = { r with stamp := s.dev.nclk, take := s.dev.cat.take } ∧ Tab.get 0 t.dev.cat.head (if r.partition < 32 then r.partition else 32) = (Tab.get 0 s.dev.cat.head (if r.partition < 32 then r.partition else 32) + 1) % 256 ∧ t.dev.cat.ptr = (k + 1) % 36 ∧ t.dev.cat.take = (s.dev.cat.take + 1) % 2 ^ 32) ∧
  (∀ (s : Machine.State) (p : Fin 32) (v : Word), s.dev.alive = true → s.dev.reqOpen (.vf p) = true → (v.toNat % 256 + 256 - Tab.get 0 s.dev.cat.tail p) % 256 ≤ (Tab.get 0 s.dev.cat.head p + 256 - Tab.get 0 s.dev.cat.tail p) % 256 → ∃ t, Machine.exec (.catRtailWrite (.vf p) (⟨p.val, by omega⟩) v) s = .next t ∧ t = { s with dev := { s.dev with cat := { s.dev.cat with tail := Tab.set 0 s.dev.cat.tail p (v.toNat % 256) } } }) ∧
  (∀ (s : Machine.State) (c : Fin 12) (p : Fin 33) (v : Word), s.dev.alive = true → s.dev.mayWrite (.fw c) (catBase + 0x404 + 0x10 * p) = true → (v.toNat % 256 + 256 - Tab.get 0 s.dev.cat.tail p) % 256 ≤ (Tab.get 0 s.dev.cat.head p + 256 - Tab.get 0 s.dev.cat.tail p) % 256 → ∃ t, Machine.exec (.catRtailWrite (.fw c) (p) v) s = .next t ∧ t = { s with dev := { s.dev with cat := { s.dev.cat with tail := Tab.set 0 s.dev.cat.tail p (v.toNat % 256) } } }) ∧
  (∀ (s : Machine.State) (v : Word), s.dev.alive = true → s.dev.reqOpen .pf = true → (v.toNat % 256 + 256 - Tab.get 0 s.dev.cat.tail 32) % 256 ≤ (Tab.get 0 s.dev.cat.head 32 + 256 - Tab.get 0 s.dev.cat.tail 32) % 256 → ∃ t, Machine.exec (.catRtailWrite .pf 32 v) s = .next t ∧ t = { s with dev := { s.dev with cat := { s.dev.cat with tail := Tab.set 0 s.dev.cat.tail 32 (v.toNat % 256) } } }) ∧
  (∀ (s : Machine.State) (p : Fin 32) (v : Word), s.dev.alive = true → s.dev.reqOpen (.vf p) = true → (Tab.get 0 s.dev.cat.head p + 256 - Tab.get 0 s.dev.cat.tail p) % 256 < (v.toNat % 256 + 256 - Tab.get 0 s.dev.cat.tail p) % 256 → ∃ t, Machine.exec (.catRtailWrite (.vf p) (⟨p.val, by omega⟩) v) s = .next t ∧ t.dev.cat = s.dev.cat ∧ bits (t.dev.rdN (vfBase p + glbBase + 0x1C)) 3 0 = 8)

/-- PQ_CFG stores what firmware writes and empties the queue; a push of a requester that may push, into a queue with room, appends its
staged bytes at the level written, and into a full one sets OVERRUN and counts; a pop of one that may, with no waiter before it, takes the
entry of R160; the oldest waiting core, or the waiting staging engine with room for a request, takes an entry that landed. A read acquires
a free lock for the requester's owner code and answers, and of a held one only shows the holder; a write by the owning domain frees it and
clears BROKEN; LCK_FORCE by firmware frees a held lock and sets BROKEN. A write of firmware is one that its permission table names. (R158,
R159, R160, R162, R164, R165, R166, R167, R170, R171, R408) -/
def Obligations.QueuesAndLocksActThroughRegisters : Prop :=
  (∀ (s : Machine.State) (n : Fin 64) (en : Bool) (owner depth hiwater : Nat), s.dev.alive = true → s.dev.fwReady = true → s.dev.helds = false → owner < 63 → ∃ t, Machine.exec (.pqCfgWrite n en owner depth hiwater) s = .next t ∧ t.dev.pqAt n = { s.dev.pqAt n with en := en, owner := owner, depth := min depth 6, hiwater := hiwater, ents := [] } ∧ t.dev.rdN (pqBase + 0x100 * n + 0x08) = 0 ∧ t.dev.rdN (pqBase + 0x100 * n + 0x10) = 0) ∧
  (∀ (s : Machine.State) (who : Req) (n : Fin 64) (level : Nat), s.dev.alive = true → s.dev.mayWrite who (pqBase + 0x100 * n + 0x14) = true → s.dev.pqMayPush who n = true → (s.dev.pqAt n).ents.length < (s.dev.pqAt n).cap → ∃ t, Machine.exec (.pqPushctl who n level) s = .next t ∧ (t.dev.pqAt n).ents = (s.dev.pqAt n).ents ++ [{ level := level % 8, data := s.dev.pqStaged who n }] ∧ ((s.dev.pqAt n).ents = [] → wbit (t.dev.rd (pqBase + 0x100 * n + 0x08)) 0 = true)) ∧
  (∀ (s : Machine.State) (who : Req) (n : Fin 64) (e : PqEntry) (y : Pq), s.dev.alive = true → s.dev.reqOpen who = true → s.dev.pqMayPop who n = true → (s.dev.pqAt n).waiters = [] → ({ s.dev.pqAt n with popPtr := (who.port + 1) % 84 } : Pq).pop = some (e, y) → ∃ t, Machine.exec (.pqPopctl who n) s = .next t ∧ t.dev.pqAt n = y ∧ t.dev.out = .read who 0 (2 ^ 31 + 256 * e.level) :: s.dev.out) ∧
  (∀ (s : Machine.State) (n : Fin 64) (c : Nat) (ws : List Nat) (e : PqEntry) (y : Pq), s.dev.alive = true → (s.dev.pqAt n).waiters = c :: ws → c < 32 → (s.dev.pqAt n).pop = some (e, y) → ∃ t, Machine.exec (.pqWaiterPop n) s = .next t ∧ t.dev.pqAt n = { y with waiters := ws, popPtr := (c + 1) % 84 } ∧ (t.dev.coreAt c).waiting = none) ∧
  (∀ (s : Machine.State) (who : Req) (n : Fin 256), s.dev.alive = true → s.dev.reqOpen who = true → (s.dev.lckAt n).held = false → ∃ t, Machine.exec (.lckAcqRead who n) s = .next t ∧ t.dev.lckAt n = { s.dev.lckAt n with held := true, owner := who.owner, ptr := (who.port + 1) % 84 } ∧ t.dev.out = .read who 0 ((t.dev.lckAt n).word true) :: s.dev.out) ∧
  (∀ (s : Machine.State) (who : Req) (n : Fin 256), s.dev.alive = true → s.dev.mayWrite who (lckBase + 4 * n) = true → (s.dev.lckAt n).held = true → (s.dev.lckAt n).owner = who.owner → ∃ t, Machine.exec (.lckAcqWrite who n) s = .next t ∧ t = { s with dev := s.dev.lckSet n { s.dev.lckAt n with held := false, owner := 0, broken := false } }) ∧
  (∀ (s : Machine.State) (c : Fin 12) (n : Fin 256), s.dev.alive = true → s.dev.mayWrite (.fw c) (lckBase + 0x800) = true → (s.dev.lckAt n).held = true → ∃ t, Machine.exec (.lckForce (.fw c) n) s = .next t ∧ t.dev.lckAt n = { s.dev.lckAt n with held := false, owner := 0, broken := true } ∧ t.dev.rdN (lckBase + 0x808) = stick32 (s.dev.rdN (lckBase + 0x808) + 1)) ∧
  (∀ (s : Machine.State) (who : Req) (n : Fin 64) (level : Nat), s.dev.alive = true → s.dev.mayWrite who (pqBase + 0x100 * n + 0x14) = true → s.dev.pqMayPush who n = true → (s.dev.pqAt n).cap ≤ (s.dev.pqAt n).ents.length → ∃ t, Machine.exec (.pqPushctl who n level) s = .next t ∧ (t.dev.pqAt n).ents = (s.dev.pqAt n).ents ∧ wbit (t.dev.rd (pqBase + 0x100 * n + 0x08)) 2 = true ∧ t.dev.rdN (pqBase + 0x100 * n + 0x10) = min 0xFFFFFFFF (s.dev.rdN (pqBase + 0x100 * n + 0x10) + 1)) ∧
  (∀ (s : Machine.State) (n : Fin 64) (ws : List Nat) (e : PqEntry) (y : Pq), s.dev.alive = true → (s.dev.pqAt n).waiters = 65 :: ws → s.dev.stgRoom (s.dev.pqAt n).owner = true → (s.dev.pqAt n).pop = some (e, y) → ∃ t, Machine.exec (.pqWaiterPop n) s = .next t ∧ t.dev.pqAt n = { y with waiters := ws, popPtr := 66 }) ∧
  (∀ (s : Machine.State) (who : Req) (n : Fin 256), s.dev.alive = true → s.dev.reqOpen who = true → (s.dev.lckAt n).held = true → ∃ t, Machine.exec (.lckAcqRead who n) s = .next t ∧ t.dev.lckAt n = { s.dev.lckAt n with ptr := (who.port + 1) % 84 } ∧ t.dev.out = .read who 0 ((t.dev.lckAt n).word (decide ((s.dev.lckAt n).owner = who.owner))) :: s.dev.out)

/-- A fetched NOP completes and the next descriptor follows; END of a core with nothing outstanding makes STATE IDLE, moves TEN_PC on and
sets TEN_EVENT.END; JUMP whose counter is not exhausted counts up and moves TEN_PC by its displacement, else it clears the counter and
goes on. A sound WALK whose context no issued PASS uses loads the context with five zero counters and goes on; a sound LINK opens its
context with the values of the descriptor; when its zeroing is accepted the context is ready and its transfer bytes read 0. A corrected
fetch changes none of this; an uncorrectable one stops the program with 0x0B, and an opcode outside the ten with 0x01, at its TEN_ERRPC.
(R91, R96, R97, R99, R102, R103, R109, R110) -/
def Obligations.TheSequencerRuns : Prop :=
  (∀ (s : Machine.State) (c : Fin 32) (desc : Nat) (ecc : Ecc), s.dev.alive = true → s.dev.fetches c 9 desc = true → bits desc 511 64 = 0 → s.dev.pc c + 128 ≤ csSize → ecc ≠ .uncFetch → ∃ t, Machine.exec (.nop c ecc) s = .next t ∧ t.dev.pc c = s.dev.pc c + 64 ∧ (t.dev.coreAt c).st = .run ∧ (bit desc 11 = false → (s.dev.coreAt c).defer = [] → t.dev.rdN (tenReg c 0x20) = bits desc 63 48)) ∧
  (∀ (s : Machine.State) (c : Fin 32) (desc : Nat) (ecc : Ecc), s.dev.alive = true → s.dev.fetches c 10 desc = true → bits desc 511 64 = 0 → (s.dev.coreAt c).quiet = true → ecc ≠ .uncFetch → ∃ t, Machine.exec (.endProgram c ecc) s = .next t ∧ t.dev.pc c = s.dev.pc c + 64 ∧ (t.dev.coreAt c).st = .idle ∧ wbit (t.dev.rd (tenReg c 0x10)) 0 = true) ∧
  (∀ (s : Machine.State) (c : Fin 32) (desc : Nat) (ecc : Ecc), s.dev.alive = true → s.dev.fetches c 8 desc = true → bits desc 477 64 = 0 → bits desc 511 496 ≠ 0 → (s.dev.coreAt c).ctr.getD (bits desc 479 478) 0 + 1 < bits desc 511 496 → 0 ≤ (s.dev.pc c : Int) + 64 * sext 16 (bits desc 495 480) → (s.dev.pc c : Int) + 64 * sext 16 (bits desc 495 480) + 64 ≤ csSize → ecc ≠ .uncFetch → ∃ t, Machine.exec (.jump c ecc) s = .next t ∧ t.dev.pc c = ((s.dev.pc c : Int) + 64 * sext 16 (bits desc 495 480)).toNat ∧ (t.dev.coreAt c).ctr = (s.dev.coreAt c).ctr.set (bits desc 479 478) ((s.dev.coreAt c).ctr.getD (bits desc 479 478) 0 + 1) ∧ (t.dev.coreAt c).st = .run) ∧
  (∀ (s : Machine.State) (c : Fin 32) (desc : Nat) (ecc : Ecc), s.dev.alive = true → s.dev.fetches c 8 desc = true → bits desc 477 64 = 0 → bits desc 511 496 ≠ 0 → bits desc 511 496 ≤ (s.dev.coreAt c).ctr.getD (bits desc 479 478) 0 + 1 → s.dev.pc c + 128 ≤ csSize → ecc ≠ .uncFetch → ∃ t, Machine.exec (.jump c ecc) s = .next t ∧ t.dev.pc c = s.dev.pc c + 64 ∧ (t.dev.coreAt c).ctr = (s.dev.coreAt c).ctr.set (bits desc 479 478) 0) ∧
  (∀ (s : Machine.State) (c : Fin 32) (desc : Nat) (ecc : Ecc), s.dev.alive = true → s.dev.fetches c 2 desc = true → bits desc 89 66 = 0 → walkErrs desc s.dev = [] → (s.dev.coreAt c).usesWalk (bits desc 65 64) = false → s.dev.pc c + 128 ≤ csSize → ecc ≠ .uncFetch → ∃ t, Machine.exec (.walk c ecc) s = .next t ∧ Tab.get none (t.dev.coreAt c).walks (bits desc 65 64) = some { desc := desc, i := [0, 0, 0, 0, 0] } ∧ t.dev.pc c = s.dev.pc c + 64) ∧
  (∀ (s : Machine.State) (c : Fin 32) (desc : Nat) (ecc : Ecc), s.dev.alive = true → s.dev.fetches c 3 desc = true → bits desc 405 66 = 0 → linkErrs desc s.dev = [] → (s.dev.coreAt c).usesLink (bits desc 65 64) = false → Tab.get none (s.dev.coreAt c).links (bits desc 65 64) = none → s.dev.pc c + 128 ≤ csSize → ecc ≠ .uncFetch → ∃ t, Machine.exec (.link c ecc) s = .next t ∧ Tab.get none (t.dev.coreAt c).links (bits desc 65 64) = some { code := bits desc 406 406, n := bits desc 461 438, c := bits desc 437 422, g := linkG desc, cap := bits desc 419 407, pbase := bits desc 511 487, gbase := bits desc 486 462, seq := bits desc 63 48, ctch := bit desc 11, pc := s.dev.pc c } ∧ t.dev.pc c = s.dev.pc c + 64) ∧
  (∀ (s : Machine.State) (c : Fin 32) (k : Fin 4) (l : LinkCtx), s.dev.alive = true → Tab.get none (s.dev.coreAt c).links k = some l → l.ready = false → l.cap = 0 → ∃ t, Machine.exec (.linkComplete c k) s = .next t ∧ Tab.get none (t.dev.coreAt c).links k = some { l with ready := true } ∧ t.dev.mem.hbm = s.dev.mem.hbm ∧ t.dev.mem.cs = Tab.keep s.dev.mem.cs (fun a _ => !(decide (c.val * 2 ^ 25 + l.pbase ≤ a) && decide (a < c.val * 2 ^ 25 + l.pbase + qlSize l.code l.n l.cap)))) ∧
  (∀ (s : Machine.State) (c : Fin 32), s.dev.alive = true → (s.dev.coreAt c).st = .run → (s.dev.coreAt c).cur = none → s.dev.pc c + 64 ≤ csSize → ∃ t, Machine.exec (.nop c .uncFetch) s = .next t ∧ (t.dev.coreAt c).st = .error ∧ (t.dev.coreAt c).errcode = 0x0B ∧ t.dev.rdN (tenReg c 0x24) = s.dev.pc c ∧ t.dev.pc c = s.dev.pc c + 64 ∧ wbit (t.dev.rd (tenReg c 0x10)) 1 = true ∧ wbit (t.dev.rd (tenReg c 0x10)) 5 = true) ∧
  (∀ (s : Machine.State) (c : Fin 32) (desc : Nat), s.dev.alive = true → (s.dev.coreAt c).st = .run → (s.dev.coreAt c).cur = none → s.dev.pc c + 64 ≤ csSize → s.dev.csNat c (s.dev.pc c) 64 = desc → (bits desc 7 0 = 0 ∨ 10 < bits desc 7 0) → ∃ t, Machine.exec (.nop c .none) s = .next t ∧ (t.dev.coreAt c).st = .error ∧ (t.dev.coreAt c).errcode = 1 ∧ t.dev.rdN (tenReg c 0x24) = s.dev.pc c ∧ t.dev.pc c = s.dev.pc c + 64 ∧ wbit (t.dev.rd (tenReg c 0x10)) 1 = true)

/-- A sound MOVE without conversion enters an empty engine and is taken up; when its last write is accepted the bytes that were left of it
stand at its destination, or for one that encodes or decodes its elements, and the engine is empty. WAITQ on a queue with an entry and no
waiter takes it and stores its bytes and its status; on an empty queue the core waits behind the queue's waiters with its descriptor
fetched; at its TIMEOUT the core leaves them with status TIMEOUT; a SIGNAL with PUSH appends 32 bytes of core store at its level, and one
with POST places its record. (R96, R97, R104, R105, R106, R107, R162) -/
def Obligations.MovesQueuesAndSignalsRun : Prop :=
  (∀ (s : Machine.State) (c : Fin 32) (desc : Nat) (ecc : Ecc), s.dev.alive = true → s.dev.fetches c 4 desc = true → bits desc 379 64 = 0 → moveErrs c desc s.dev = [] → mvConv desc = 0 → (s.dev.coreAt c).moves = [] → s.dev.pc c + 128 ≤ csSize → ecc.unc = false → ∃ t, Machine.exec (.move c ecc) s = .next t ∧ (t.dev.coreAt c).moves = [{ desc := desc, pc := s.dev.pc c, started := true }] ∧ t.dev.mem = s.dev.mem ∧ t.dev.pc c = s.dev.pc c + 64) ∧
  (∀ (s : Machine.State) (c : Fin 32) (m : MoveRun), s.dev.alive = true → (s.dev.coreAt c).moves = [m] → m.started = true → (s.dev.coreAt c).st ≠ .saved → (s.dev.coreAt c).st ≠ .faulted → mvConv m.desc = 0 → ∃ t, Machine.exec (.moveComplete c) s = .next t ∧ (t.dev.coreAt c).moves = [] ∧ t.dev.mem = (s.dev.mvWrite c m.desc (mvDst m.desc + m.done) (s.dev.mvRead c m.desc (mvSrc m.desc + m.done) (bits m.desc 431 400 - m.done))).mem) ∧
  (∀ (s : Machine.State) (c : Fin 32) (m : MoveRun) (l : LinkCtx), s.dev.alive = true → (s.dev.coreAt c).moves = [m] → m.started = true → (s.dev.coreAt c).st ≠ .saved → (s.dev.coreAt c).st ≠ .faulted → mvConv m.desc ≠ 0 → (s.dev.coreAt c).mvLink m.desc = some l → ∃ t, Machine.exec (.moveComplete c) s = .next t ∧ (t.dev.coreAt c).moves = [] ∧ t.dev.mem = (if mvConv m.desc = 1 then s.dev.moveEncode c m.desc l m.done l.n else s.dev.moveDecode c m.desc l m.done l.n).mem) ∧
  (∀ (s : Machine.State) (c : Fin 32) (desc : Nat) (e : PqEntry) (y : Pq) (ecc : Ecc), s.dev.alive = true → s.dev.fetches c 5 desc = true → bits desc 423 64 = 0 → waitqErrs c desc s.dev = [] → (s.dev.pqAt (bits desc 429 424)).waiters = [] → ({ s.dev.pqAt (bits desc 429 424) with popPtr := (c.val + 1) % 84 } : Pq).pop = some (e, y) → s.dev.pc c + 128 ≤ csSize → ecc ≠ .uncFetch → ∃ t, Machine.exec (.waitq c ecc) s = .next t ∧ t.dev.pqAt (bits desc 429 424) = y ∧ (t.dev.coreAt c).st = .run ∧ t.dev.mem = ((s.dev.csWrite c (bits desc 511 487) e.data).csWrite c (bits desc 486 462) (leBytes 8 (1 + 256 * e.level))).mem) ∧
  (∀ (s : Machine.State) (c : Fin 32) (desc : Nat) (ecc : Ecc), s.dev.alive = true → s.dev.fetches c 5 desc = true → bits desc 423 64 = 0 → waitqErrs c desc s.dev = [] → (s.dev.pqAt (bits desc 429 424)).ents = [] → ecc ≠ .uncFetch → ∃ t, Machine.exec (.waitq c ecc) s = .next t ∧ (t.dev.pqAt (bits desc 429 424)).waiters = (s.dev.pqAt (bits desc 429 424)).waiters ++ [c.val] ∧ (t.dev.coreAt c).st = .wait ∧ (t.dev.coreAt c).waiting = some (.queue (bits desc 429 424) s.dev.now) ∧ t.dev.mem = s.dev.mem ∧ t.dev.pc c = s.dev.pc c + 64 ∧ (t.dev.coreAt c).cur = some (s.dev.pc c, desc)) ∧
  (∀ (s : Machine.State) (c : Fin 32) (k at_ : Nat), s.dev.alive = true → (s.dev.coreAt c).waiting = some (.queue k at_) → bits (s.dev.curDesc c) 461 430 ≠ 0 → s.dev.pc c + 64 ≤ csSize → ∃ t, Machine.exec (.waitqTimeout c) s = .next t ∧ (t.dev.coreAt c).waiting = none ∧ (t.dev.coreAt c).st = .run ∧ (t.dev.pqAt k).waiters = (s.dev.pqAt k).waiters.filter (fun w => decide (w ≠ c.val)) ∧ t.dev.mem = (s.dev.csWrite c (bits (s.dev.curDesc c) 486 462) (leBytes 8 2)).mem) ∧
  (∀ (s : Machine.State) (c : Fin 32) (desc : Nat) (ecc : Ecc), s.dev.alive = true → s.dev.fetches c 6 desc = true → bits desc 411 64 = 0 → signalErrs c desc s.dev = [] → (s.dev.coreAt c).quiet = true → bit desc 413 = true → bit desc 412 = false → (s.dev.pqAt (bits desc 422 417)).ents.length < (s.dev.pqAt (bits desc 422 417)).cap → s.dev.pc c + 128 ≤ csSize → ecc ≠ .uncFetch → ∃ t, Machine.exec (.signal c ecc) s = .next t ∧ (t.dev.pqAt (bits desc 422 417)).ents = (s.dev.pqAt (bits desc 422 417)).ents ++ [{ level := bits desc 416 414, data := s.dev.csRead c (bits desc 447 423) 32 }] ∧ t.dev.pc c = s.dev.pc c + 64) ∧
  (∀ (s : Machine.State) (c : Fin 32) (desc : Nat) (ecc : Ecc), s.dev.alive = true → s.dev.fetches c 6 desc = true → bits desc 411 64 = 0 → (s.dev.coreAt c).quiet = true → bit desc 413 = false → bit desc 412 = true → bit desc 11 = false → (Tab.get [] s.dev.cat.fifo c).length < 8 → Tab.get [] s.dev.cat.hold c = [] → s.dev.pc c + 128 ≤ csSize → ecc ≠ .uncFetch → ∃ t, Machine.exec (.signal c ecc) s = .next t ∧ Tab.get [] t.dev.cat.fifo c = Tab.get [] s.dev.cat.fifo c ++ [{ value := bits desc 511 448, seq := bits desc 63 48, source := c, partition := s.dev.corePtn c, kind := 2, opcode := 6, detail := s.dev.pc c % 2 ^ 32 }] ∧ t.dev.pc c = s.dev.pc c + 64)

/-- A LOCK of a free lock takes it for the core's partition, records it and stores GRANTED; a retry of a lock another owner holds goes on
waiting; one that finds it free is granted; the last read of a timed-out acquire of a held lock stores TIMEOUT and the core runs on.
(R108, R165) -/
def Obligations.LockDescriptorsAcquireAndWait : Prop :=
  (∀ (s : Machine.State) (c : Fin 32) (desc : Nat) (ecc : Ecc), s.dev.alive = true → s.dev.fetches c 7 desc = true → bits desc 445 64 = 0 → lockErrs c desc s.dev = [] → bit desc 446 = false → (s.dev.lckAt (bits desc 454 447)).held = false → s.dev.pc c + 128 ≤ csSize → ecc ≠ .uncFetch → ∃ t, Machine.exec (.lock c ecc) s = .next t ∧ t.dev.lckAt (bits desc 454 447) = { s.dev.lckAt (bits desc 454 447) with held := true, owner := s.dev.corePtn c, ptr := (c.val + 1) % 84 } ∧ (t.dev.coreAt c).held.contains (bits desc 454 447) = true ∧ (t.dev.coreAt c).st = .run ∧ t.dev.mem = (s.dev.csWrite c (bits desc 511 487) (lockStatus true (s.dev.lckAt (bits desc 454 447)).broken false false (s.dev.corePtn c))).mem) ∧
  (∀ (s : Machine.State) (c : Fin 32) (desc : Nat) (ecc : Ecc), s.dev.alive = true → s.dev.fetches c 7 desc = true → bits desc 445 64 = 0 → lockErrs c desc s.dev = [] → bit desc 446 = true → (s.dev.lckAt (bits desc 454 447)).held = true → (s.dev.lckAt (bits desc 454 447)).owner = s.dev.corePtn c → s.dev.pc c + 128 ≤ csSize → ecc ≠ .uncFetch → ∃ t, Machine.exec (.lock c ecc) s = .next t ∧ t.dev.lckAt (bits desc 454 447) = { s.dev.lckAt (bits desc 454 447) with held := false, owner := 0, broken := false } ∧ (t.dev.coreAt c).held = (s.dev.coreAt c).held.filter (fun k => decide (k ≠ (bits desc 454 447))) ∧ t.dev.mem = (s.dev.csWrite c (bits desc 511 487) (lockStatus false (s.dev.lckAt (bits desc 454 447)).broken false false (s.dev.lckAt (bits desc 454 447)).owner)).mem) ∧
  (∀ (s : Machine.State) (c : Fin 32) (k at_ : Nat), s.dev.alive = true → (s.dev.coreAt c).waiting = some (.lock k at_) → (s.dev.lckAt k).held = false → s.dev.pc c + 64 ≤ csSize → ∃ t, Machine.exec (.lockRetry c) s = .next t ∧ t.dev.lckAt k = { s.dev.lckAt k with held := true, owner := s.dev.corePtn c, ptr := (c.val + 1) % 84 } ∧ (t.dev.coreAt c).waiting = none ∧ (t.dev.coreAt c).st = .run ∧ t.dev.mem = (s.dev.csWrite c (bits (s.dev.curDesc c) 511 487) (lockStatus true (s.dev.lckAt k).broken false false (s.dev.corePtn c))).mem) ∧
  (∀ (s : Machine.State) (c : Fin 32) (k at_ : Nat), s.dev.alive = true → (s.dev.coreAt c).waiting = some (.lock k at_) → (s.dev.lckAt k).held = true → (s.dev.lckAt k).owner ≠ s.dev.corePtn c → ∃ t, Machine.exec (.lockRetry c) s = .next t ∧ (t.dev.coreAt c).waiting = some (.lock k at_) ∧ (t.dev.coreAt c).st = .wait ∧ t.dev.mem = s.dev.mem) ∧
  (∀ (s : Machine.State) (c : Fin 32) (k at_ : Nat), s.dev.alive = true → (s.dev.coreAt c).waiting = some (.lock k at_) → bits (s.dev.curDesc c) 486 455 ≠ 0 → (s.dev.lckAt k).held = true → (s.dev.lckAt k).owner ≠ s.dev.corePtn c → s.dev.pc c + 64 ≤ csSize → ∃ t, Machine.exec (.lockTimeout c) s = .next t ∧ (t.dev.coreAt c).waiting = none ∧ (t.dev.coreAt c).st = .run ∧ t.dev.mem = (s.dev.csWrite c (bits (s.dev.curDesc c) 511 487) (lockStatus false false true false (s.dev.lckAt k).owner)).mem)

/-- A sound PASS with nothing running starts with the bias in the working banks; behind a running one it waits with its bias staged; a
pending tile whose slices are sound becomes active, by swap or by front, with the counters of the walk gone on; after the last tile the
held results are added, the banks exchange and the drain begins; the committed drain leaves its outputs in core store. An array fault of a
started pass that names the array is counted, an uncorrectable operand in TEN_ECCUNC too, and restarts the pass from its first tile and
bias, marked to be re-run; one in the re-run faults the core; an error on the emit path marks the array's drain to be repeated; the clock
of a die takes one step toward the one requested, never below the lowest step of its F_set nor above what the hardware's limits leave.
(R53, R70, R73, R83, R85, R91, R96, R100, R111, R112, R114) -/
def Obligations.PassesRunAndRestart : Prop :=
  (∀ (s : Machine.State) (c : Fin 32) (desc : Nat) (ecc : Ecc), s.dev.alive = true → s.dev.fetches c 1 desc = true → bits desc 223 64 = 0 → passErrs c desc s.dev = [] → (s.dev.coreAt c).run = none → (passOfmt desc ≠ 3 ∨ (Tab.get none (s.dev.coreAt c).links (passLctx desc)).any (fun l => l.ready) = true) → passTiles desc = 0 ∨ (Tab.get none (s.dev.coreAt c).walks (passWalk desc)).isSome = true → s.dev.pc c + 128 ≤ csSize → ecc.unc = false → ∃ t, Machine.exec (.pass c ecc) s = .next t ∧ (t.dev.coreAt c).run = some { desc := desc, pc := s.dev.pc c, dst := (s.dev.coreAt c).dstEff desc, expdst := (s.dev.coreAt c).expEff desc, started := true, bank := (passNamed desc).map (fun a => s.dev.biasBank c desc a), walk0 := (match Tab.get none (s.dev.coreAt c).walks (passWalk desc) with | some w => w.i | none => []) } ∧ t.dev.pc c = s.dev.pc c + 64) ∧
  (∀ (s : Machine.State) (c : Fin 32) (desc : Nat) (p : PassRun) (ecc : Ecc), s.dev.alive = true → s.dev.fetches c 1 desc = true → bits desc 223 64 = 0 → passErrs c desc s.dev = [] → (s.dev.coreAt c).run = some p → (s.dev.coreAt c).pend = none → (passOfmt desc ≠ 3 ∨ (Tab.get none (s.dev.coreAt c).links (passLctx desc)).any (fun l => l.ready) = true) → s.dev.pc c + 128 ≤ csSize → ecc.unc = false → ∃ t, Machine.exec (.pass c ecc) s = .next t ∧ (t.dev.coreAt c).run = some p ∧ (t.dev.coreAt c).pend = some { desc := desc, pc := s.dev.pc c, dst := (s.dev.coreAt c).dstEff desc, expdst := (s.dev.coreAt c).expEff desc, bank := (passNamed desc).map (fun a => s.dev.biasBank c desc a) } ∧ t.dev.pc c = s.dev.pc c + 64) ∧
  (∀ (s : Machine.State) (c : Fin 32) (p : PassRun) (w : Walk) (ecc : Ecc), s.dev.alive = true → (s.dev.coreAt c).run = some p → (s.dev.coreAt c).st.working = true → p.started = true → passRipple p.desc = false → p.tile < passTiles p.desc → Tab.get none (s.dev.coreAt c).walks (passWalk p.desc) = some w → ecc.unc = false → (((s.dev.fill c (passNamed p.desc)).eccNote c ecc).presentTile c p w).isOk = true → ∃ t, Machine.exec (.swap c ecc) s = .next t ∧ (t.dev.coreAt c).run = (((s.dev.fill c (passNamed p.desc)).eccNote c ecc).presentTile c p w).toOption.map (fun r => r.2) ∧ (t.dev.coreAt c).run.map (fun r => r.tile) = some (p.tile + 1) ∧ (t.dev.coreAt c).run.map (fun r => r.desc) = some p.desc ∧ t.dev.mem = s.dev.mem) ∧
  (∀ (s : Machine.State) (c : Fin 32) (p : PassRun) (w : Walk) (ecc : Ecc), s.dev.alive = true → (s.dev.coreAt c).run = some p → (s.dev.coreAt c).st.working = true → p.started = true → passRipple p.desc = true → p.tile < passTiles p.desc → Tab.get none (s.dev.coreAt c).walks (passWalk p.desc) = some w → ecc.unc = false → (((s.dev.fill c (passNamed p.desc)).eccNote c ecc).presentTile c p w).isOk = true → ∃ t, Machine.exec (.front c ecc) s = .next t ∧ (t.dev.coreAt c).run = (((s.dev.fill c (passNamed p.desc)).eccNote c ecc).presentTile c p w).toOption.map (fun r => r.2) ∧ (t.dev.coreAt c).run.map (fun r => r.tile) = some (p.tile + 1) ∧ (t.dev.coreAt c).run.map (fun r => r.desc) = some p.desc ∧ t.dev.mem = s.dev.mem) ∧
  (∀ (s : Machine.State) (c : Fin 32) (p : PassRun), s.dev.alive = true → (s.dev.coreAt c).run = some p → (s.dev.coreAt c).st.working = true → p.started = true → p.tile = passTiles p.desc → (s.dev.coreAt c).emit.any (fun e => (upTo 4).any (fun a => bit (passArrays e.desc) a && bit (passArrays p.desc) a)) = false → ∃ t, Machine.exec (.bankExchange c) s = .next t ∧ (t.dev.coreAt c).emit = (s.dev.coreAt c).emit ++ [((s.dev.coreAt c).convertAll p).1] ∧ ((s.dev.coreAt c).pend = none → (t.dev.coreAt c).run = none) ∧ t.dev.mem = s.dev.mem) ∧
  (∀ (s : Machine.State) (c : Fin 32) (p : PassRun) (rest : List PassRun) (d2 : Dev), s.dev.alive = true → (s.dev.coreAt c).emit = p :: rest → (s.dev.coreAt c).st ≠ .saved → (s.dev.coreAt c).st ≠ .faulted → (s.dev.coreSet c { s.dev.coreAt c with emit := rest }).emitPass c p = .ok d2 → ∃ t, Machine.exec (.passCommit c) s = .next t ∧ (t.dev.coreAt c).emit = rest ∧ t.dev.mem = d2.mem) ∧
  (∀ (s : Machine.State) (c : Fin 32) (arr : Fin 4) (col : Fin 128) (ecc : Bool) (p : PassRun), s.dev.alive = true → (s.dev.coreAt c).run = some p → p.started = true → bit (passArrays p.desc) arr = true → p.rerun = false → ∃ t, Machine.exec (.arrayFault c arr col ecc) s = .next t ∧ (t.dev.coreAt c).run = some { p with rerun := true, tile := 0, held := [], bank := (passNamed p.desc).map (fun a => s.dev.biasBank c p.desc a) } ∧ t.dev.rdN (tenReg c 0x60 + 4 * arr) = stick32 (s.dev.rdN (tenReg c 0x60 + 4 * arr) + 1) ∧ wbit (t.dev.rd (tenReg c 0x10)) 3 = true ∧ (ecc = true → t.dev.rdN (tenReg c 0x74) = stick32 (s.dev.rdN (tenReg c 0x74) + 1))) ∧
  (∀ (s : Machine.State) (c : Fin 32) (arr : Fin 4) (col : Fin 128) (ecc : Bool) (p : PassRun), s.dev.alive = true → (s.dev.coreAt c).run = some p → p.started = true → bit (passArrays p.desc) arr = true → p.rerun = true → ∃ t, Machine.exec (.arrayFault c arr col ecc) s = .next t ∧ (t.dev.coreAt c).st = .faulted ∧ (t.dev.coreAt c).run = none ∧ wbit (t.dev.rd (tenReg c 0x10)) 4 = true) ∧
  (∀ (s : Machine.State) (c : Fin 32) (arr : Fin 4) (p : PassRun) (rest : List PassRun), s.dev.alive = true → (s.dev.coreAt c).emit = p :: rest → bit (passArrays p.desc) arr = true → bit p.redrain arr = false → ∃ t, Machine.exec (.emitDrainError c arr) s = .next t ∧ (t.dev.coreAt c).emit = { p with redrain := setBit p.redrain arr } :: rest ∧ t.dev.mem = s.dev.mem) ∧
  (∀ (s : Machine.State) (k : Fin 4) (n : Nat), s.dev.alive = true → Tab.get 0 s.dev.pwr.tclkReq k = n → n ≠ 0 → s.dev.dieLow k ≤ s.dev.kNow k → ∃ t, Machine.exec (.tclkStep k) s = .next t ∧ t.dev.kNow k = max (s.dev.dieLow k) (min (s.dev.kLimit k) (if n < s.dev.kNow k then s.dev.kNow k - 1 else if s.dev.kNow k < n then s.dev.kNow k + 1 else n)) ∧ s.dev.dieLow k ≤ t.dev.kNow k ∧ Tab.get 0 t.dev.pwr.tclkReq k = 0)

/-- With room and an entry in the staging queue, the engine pops it and starts the request its bytes describe, and waits at an empty one;
a request that meets no error writes its bytes to the share and leaves the list; a finished scrub zeroes its granules, which go to the
free list or into the map entry that waits for them. (R129, R132, R133, R134) -/
def Obligations.StagingAndScrubsAct : Prop :=
  (∀ (s : Machine.State) (p : Fin 32) (n : Nat) (e : PqEntry) (y : Pq), s.dev.alive = true → s.dev.stgRoom p = true → Tab.get none s.dev.store.stgHeld p = none → s.dev.stgQueue p = some n → (s.dev.pqAt n).waiters = [] → ({ s.dev.pqAt n with popPtr := 66 } : Pq).pop = some (e, y) → s.dev.store.stg.any (fun x => decide (x.ptn = (s.dev.stgPlan p e.data).ptn) && decide (x.lib = (s.dev.stgPlan p e.data).lib) && decide (x.slot = (s.dev.stgPlan p e.data).slot)) = false → ∃ t, Machine.exec (.stagingPop p) s = .next t ∧ t.dev.pqAt n = y ∧ t.dev.store.stg = s.dev.store.stg ++ [(s.dev.stgPlan p e.data)]) ∧
  (∀ (s : Machine.State) (p : Fin 32) (n : Nat), s.dev.alive = true → s.dev.stgRoom p = true → Tab.get none s.dev.store.stgHeld p = none → s.dev.stgQueue p = some n → (s.dev.pqAt n).waiters = [] → ({ s.dev.pqAt n with popPtr := 66 } : Pq).pop = none → ∃ t, Machine.exec (.stagingPop p) s = .next t ∧ t.dev.store.stg = s.dev.store.stg ∧ (t.dev.pqAt n).waiters = [65] ∧ (t.dev.pqAt n).ents = (s.dev.pqAt n).ents) ∧
  (∀ (s : Machine.State) (i : Nat) (r : StgReq), s.dev.alive = true → s.dev.store.stg[i]? = some r → r.status = 0 → ∃ t, Machine.exec (.stagingReply i .none false) s = .next t ∧ t.dev.mem = (s.dev.shWrite r.ptn r.dst r.data).mem ∧ t.dev.store.stg = s.dev.store.stg.eraseIdx i) ∧
  (∀ (s : Machine.State) (x : Scrub) (rest : List Scrub), s.dev.alive = true → s.dev.store.scrubs = x :: rest → x.dest = none → ∃ t, Machine.exec (.granuleScrubDone) s = .next t ∧ t.dev.store.scrubs = rest ∧ t.dev.ptn.freeGr = s.dev.ptn.freeGr ++ extent x.stack x.base x.len ∧ t.dev.mem = (s.dev.zeroGr x.stack x.base x.len).mem) ∧
  (∀ (s : Machine.State) (x : Scrub) (rest : List Scrub) (p : Nat) (m : Bool), s.dev.alive = true → s.dev.store.scrubs = x :: rest → x.dest = some (p, m) → ∃ t, Machine.exec (.granuleScrubDone) s = .next t ∧ t.dev.store.scrubs = rest ∧ t.dev.ptn.freeGr = s.dev.ptn.freeGr ∧ t.dev.ent p = (if m then { s.dev.ent p with mstack := x.stack, mbase := x.base } else { s.dev.ent p with pstack := x.stack, pbase := x.base, len := x.len }))

/-- With none running, the oldest queued install takes the result of reading its bundle: an outcome with its step, or ready for its
commit; a failed host read ends it with HOSTDMA; a ready bundle without flow-plane objects enters the catalogue and the install is done
with outcome 0. (R139, R147, R148, R364) -/
def Obligations.InstallsRunAndCommit : Prop :=
  (∀ (s : Machine.State) (i : Install) (bs : List Byte), s.dev.alive = true → s.dev.fwReady = true → s.dev.helds = false → s.dev.store.installs.any (fun x => decide (x.state = 1)) = false → s.dev.store.installs.find? (fun x => decide (x.state = 0)) = some i → ∃ t, Machine.exec (.bundleInstallRun (some bs)) s = .next t ∧ t.dev.store.installs = s.dev.store.installs.map (fun x => if x.ticket = i.ticket then (match s.dev.readBundle bs i.total with | .error (c, st) => { x with state := 2, outcome := c, step := st, hostdma := false, ready := none } | .ok (b, rep) => { x with state := 1, step := 6, ready := some (b, rep) }) else x)) ∧
  (∀ (s : Machine.State) (i : Install), s.dev.alive = true → s.dev.fwReady = true → s.dev.helds = false → s.dev.store.installs.any (fun x => decide (x.state = 1)) = false → s.dev.store.installs.find? (fun x => decide (x.state = 0)) = some i → ∃ t, Machine.exec (.bundleInstallRun none) s = .next t ∧ t.dev.store.installs = s.dev.store.installs.map (fun x => if x.ticket = i.ticket then { x with state := 2, outcome := 0xFF, step := 1, hostdma := true, ready := none } else x)) ∧
  (∀ (s : Machine.State) (i : Install) (b : Bundle), s.dev.alive = true → s.dev.fwReady = true → s.dev.helds = false → s.dev.store.installs.find? (fun x => decide (x.state = 1)) = some i → i.ready = some (b, false) → bundleHasPlane b = false → b.old = false → ∃ t, Machine.exec (.bundleCommit) s = .next t ∧ t.dev.store.installs = s.dev.store.installs.map (fun x => if x.ticket = i.ticket then { x with state := 2, outcome := 0, step := 7, hostdma := false, ready := none } else x) ∧ { b with am := [] } ∈ t.dev.store.bundles ∧ t.dev.store.nextInst = s.dev.store.nextInst + 1)

/-- A tensor die that fails by heartbeat, link or thermal trip shows 1 or 2, its cores go out of service and the unit is queued; an HBM
stack shows 2 and is queued; a model-store stack shows 2 and damages the bundles; a core goes out of service; the loss of die B is
recorded. With no re-map in progress, the oldest failed unit that takes cores of a partition with it starts one, which counts; when its
targets are up the restart of its one move ends the re-map with the partition in service; a shared core changes to its other partition; a
re-staged partition returns to service; a rebuilt mirror is valid. (R330, R331, R336, R337, R128, R332, R340) -/
def Obligations.FaultsAreTakenAndRemapped : Prop :=
  (∀ (s : Machine.State) (k : Fin 4) (det : Nat), s.dev.alive = true → Tab.get 0 s.dev.ptn.dies k = 0 → ∃ t, Machine.exec (.dieHeartbeatLost k det) s = .next t ∧ Tab.get 0 t.dev.ptn.dies k = 1 ∧ t.dev.ptn.out = (dieCores k).foldl (fun m c => setBit m c) s.dev.ptn.out ∧ t.dev.ptn.todo = s.dev.ptn.todo ++ [(.die k, 1, det, s.dev.now)]) ∧
  (∀ (s : Machine.State) (k : Fin 4) (det : Nat), s.dev.alive = true → Tab.get 0 s.dev.ptn.dies k = 0 → ∃ t, Machine.exec (.linkRetrainFail (some k) det) s = .next t ∧ Tab.get 0 t.dev.ptn.dies k = 1 ∧ t.dev.ptn.out = (dieCores k).foldl (fun m c => setBit m c) s.dev.ptn.out ∧ t.dev.ptn.todo = s.dev.ptn.todo ++ [(.die k, 1, det, s.dev.now)]) ∧
  (∀ (s : Machine.State) (det : Nat), s.dev.alive = true → s.dev.ptn.dieBLost = false → ∃ t, Machine.exec (.linkRetrainFail none det) s = .next t ∧ t.dev.ptn.dieBLost = true ∧ t.dev.ptn.todo = s.dev.ptn.todo) ∧
  (∀ (s : Machine.State) (k : Fin 4) (det : Nat), s.dev.alive = true → Tab.get 0 s.dev.ptn.dies k = 0 → ∃ t, Machine.exec (.thermalTrip k det) s = .next t ∧ Tab.get 0 t.dev.ptn.dies k = 2 ∧ t.dev.ptn.out = (dieCores k).foldl (fun m c => setBit m c) s.dev.ptn.out ∧ t.dev.ptn.todo = s.dev.ptn.todo ++ [(.die k, 1, det, s.dev.now)]) ∧
  (∀ (s : Machine.State) (n : Fin 8) (det : Nat), s.dev.alive = true → Tab.get 0 s.dev.ptn.hbm n ≤ 1 → ∃ t, Machine.exec (.hbmErrorBurst n det) s = .next t ∧ Tab.get 0 t.dev.ptn.hbm n = 2 ∧ t.dev.ptn.todo = s.dev.ptn.todo ++ [(.hbm n, 2, det, s.dev.now)]) ∧
  (∀ (s : Machine.State) (n : Fin 8) (det : Nat), s.dev.alive = true → Tab.get 0 s.dev.ptn.hbm n ≤ 1 → ∃ t, Machine.exec (.hbmStackFail n det) s = .next t ∧ Tab.get 0 t.dev.ptn.hbm n = 2 ∧ t.dev.ptn.todo = s.dev.ptn.todo ++ [(.hbm n, 2, det, s.dev.now)]) ∧
  (∀ (s : Machine.State) (n : Fin 8), s.dev.alive = true → Tab.get 0 s.dev.ptn.ms n ≤ 1 → ∃ t, Machine.exec (.modelStoreStackFail n) s = .next t ∧ Tab.get 0 t.dev.ptn.ms n = 2 ∧ t.dev.store.bundles = s.dev.store.bundles.map (fun b => { b with damaged := true })) ∧
  (∀ (s : Machine.State) (c : Fin 32) (det : Nat), s.dev.alive = true → s.dev.coreUp c = true → ∃ t, Machine.exec (.coreOutOfService c det) s = .next t ∧ t.dev.ptn.out = setBit s.dev.ptn.out c ∧ t.dev.ptn.todo = s.dev.ptn.todo ++ [(.core c, 4, det, s.dev.now)]) ∧
  (∀ (s : Machine.State), s.dev.alive = true → ∃ t, Machine.exec (.packageNetworkDefect .lane) s = .next t ∧ t.dev.pwr.spareLanes = stick 65535 (s.dev.pwr.spareLanes + 1) ∧ t.dev.ptn = s.dev.ptn) ∧
  (∀ (s : Machine.State) (p : Fin 2), s.dev.alive = true → bit s.dev.pwr.planes p = false → ∃ t, Machine.exec (.packageNetworkDefect (.plane p)) s = .next t ∧ t.dev.pwr.planes = setBit s.dev.pwr.planes p ∧ (setBit s.dev.pwr.planes p = 3 → t.dev.ptn.dieBLost = true)) ∧
  (∀ (s : Machine.State) (u : FUnit) (cause det at_ : Nat) (rest : List (FUnit × Nat × Nat × Nat)), s.dev.alive = true → s.dev.ptn.cur = none → s.dev.ptn.todo = (u, cause, det, at_) :: rest → s.dev.affected u.lost ≠ [] → ∃ t, Machine.exec (.remapStart) s = .next t ∧ t.dev.ptn.todo = rest ∧ t.dev.ptn.remaps = stick32 (s.dev.ptn.remaps + 1) ∧ t.dev.ptn.cur.map (fun r => (r.cause, r.det, r.at_)) = some (cause, det, at_)) ∧
  (∀ (s : Machine.State) (r : Remap) (m : Move1), s.dev.alive = true → s.dev.ptn.cur = some r → r.moves = [m] → s.dev.coreUp m.new = true → ∃ t, Machine.exec (.remapRestart) s = .next t ∧ t.dev.ptn.cur = none ∧ (t.dev.ptnAt m.ptn).state = (if m.tshared then .tshared else .service) ∧ t.dev.rdN (ptnReg 0x20) = r.det % 2 ^ 32) ∧
  (∀ (s : Machine.State) (c : Fin 32) (y : TShare), s.dev.alive = true → Tab.get none s.dev.ptn.tshare c = some y → ∃ t, Machine.exec (.timeShareSwitch c) s = .next t ∧ (Tab.get none t.dev.ptn.tshare c).map (fun z => (z.running, z.other, z.otherReset)) = some (y.other, y.running, false) ∧ wbit (t.dev.rd (ptnReg 0x10)) 5 = true) ∧
  (∀ (s : Machine.State) (p : Fin 32), s.dev.alive = true → (s.dev.ptnAt p).state = .restage → s.dev.ptn.cur = none → ∃ t, Machine.exec (.restageDone p) s = .next t ∧ (t.dev.ptnAt p).state = .service ∧ (t.dev.ptnAt p).order = (s.dev.ptnAt p).order) ∧
  (∀ (s : Machine.State) (p : Fin 32) (k : Nat), s.dev.alive = true → (s.dev.ent p).prot = true → (s.dev.ptnAt p).mirrored = false → 0 < (s.dev.ent p).len → (upTo 8).find? (fun x => decide (nearDie x ≠ nearDie (s.dev.ent p).pstack) && decide (Tab.get 0 s.dev.ptn.hbm x ≤ 1) && (s.dev.freeRun x (s.dev.ent p).len).isSome) = some k → ∃ t, Machine.exec (.mirrorRebuild p) s = .next t ∧ (t.dev.ptnAt p).mirrored = true ∧ t.dev.ent p = { s.dev.ent p with mstack := k, mbase := (s.dev.freeRun k (s.dev.ent p).len).getD 0 })

/-- The oldest report whose newest like entry is not recent takes the next SEQ and its slot; one with a like entry first reported in the
2,000,000 NCLK before adds to its count; a clear frees the entries of the named classes and re-arms the alarm; ERL_IDX copies the 32 bytes
of a slot, zeros for a free one. A restored entry takes no further report by log 131. (R342, R343, R345, R347) -/
def Obligations.TheErrorLogTakesAndShows : Prop :=
  (∀ (s : Machine.State) (e : ErlEntry) (rest : List ErlEntry) (k : Nat), s.dev.alive = true → s.dev.erl.queue = e :: rest → ((s.dev.erl.newest (fun x => decide (x.source = e.source) && decide (x.code = e.code) && decide (x.cls = e.cls))).all (fun y => !y.2.recent e)) = true → s.dev.erl.place e.cls = some k → ∃ t, Machine.exec (.errorLogTake) s = .next t ∧ t.dev.erl.queue = rest ∧ Tab.find t.dev.erl.slots k = some { e with seq := s.dev.erl.nextSeq } ∧ t.dev.erl.nextSeq = (s.dev.erl.nextSeq + 1) % 2 ^ 32) ∧
  (∀ (s : Machine.State) (e x : ErlEntry) (rest : List ErlEntry) (k : Nat), s.dev.alive = true → s.dev.erl.queue = e :: rest → s.dev.erl.newest (fun x => decide (x.source = e.source) && decide (x.code = e.code) && decide (x.cls = e.cls)) = some (k, x) → x.saved = false → x.stamp ≤ e.stamp → e.stamp ≤ x.stamp + 2000000 → ∃ t, Machine.exec (.errorLogTake) s = .next t ∧ t.dev.erl.queue = rest ∧ Tab.find t.dev.erl.slots k = some { x with count := stick 0xFFFF (x.count + 1), partition := if x.partition = e.partition then x.partition else 0xFE } ∧ t.dev.erl.nextSeq = s.dev.erl.nextSeq) ∧
  (∀ (s : Machine.State) (who : Req) (mask : Fin 16), s.dev.alive = true → s.dev.reqOpen who = true → who.atBlocks = true → s.dev.mayWrite who (erlBase + 4) = true → ∃ t, Machine.exec (.erlCtlClear who mask) s = .next t ∧ t.dev.erl.slots = Tab.keep s.dev.erl.slots (fun _ e => !bit mask e.cls) ∧ t.dev.erl.alarm = false ∧ t.dev.erl.queue = s.dev.erl.queue) ∧
  (∀ (s : Machine.State) (who : Req) (k : Fin 4096), s.dev.alive = true → s.dev.reqOpen who = true → who.atBlocks = true → s.dev.mayWrite who (erlBase + 0x18) = true → ∃ t, Machine.exec (.erlIdxWrite who k) s = .next t ∧ t.dev.erl = s.dev.erl ∧ t.dev.rdN (erlBase + 0x18) = 2 ^ 31 + k ∧ ∀ i, i < 8 → t.dev.rdN (erlBase + 0x20 + 4 * i) = leNat (((((Tab.find s.dev.erl.slots k).map ErlEntry.bytes).getD (leBytes 32 0)).drop (4 * i)).take 4))

/-- In the ROM a FW_LOAD whose data arrived answers OK with outcome 0 and the image runs, or with the code of the first check that fails;
a failed transfer is outcome 3. A serving device answers FW_UPDATE so too and prepares the update of an image that keeps what is agreed.
The started image sets FWREADY; the first partition that waits re-stages and enters service. (R411, R412, R413, R472) -/
def Obligations.FirmwareLoadsAndStarts : Prop :=
  (∀ (s : Machine.State) (c : MbxMsg), s.dev.alive = true → s.dev.asked none 0x10 c = true → s.dev.romServes = true → loadPayload c.payload = true → ∃ t, Machine.exec (.fwLoad none) s = .next t ∧ Answered t.dev none c 0 (leBytes 4 3) ∧ t.dev.fw = s.dev.fw) ∧
  (∀ (s : Machine.State) (c : MbxMsg) (bs : List Byte), s.dev.alive = true → s.dev.asked none 0x10 c = true → s.dev.romServes = true → loadPayload c.payload = true → ∃ t, Machine.exec (.fwLoad (some bs)) s = .next t ∧ (match s.dev.imageCheck bs (subN c.payload 0 8) with | .error e => Answered t.dev none c 0 (leBytes 4 e) ∧ t.dev.fw = s.dev.fw | .ok img => t.dev.fw.image = some img ∧ t.dev.fw.prot = protOf img ∧ t.dev.fw.phase = .none ∧ t.dev.fw.other = none ∧ t.dev.rdN (glbBase + 4) = 0)) ∧
  (∀ (s : Machine.State) (c : MbxMsg), s.dev.alive = true → s.dev.asked none 0x10 c = true → s.dev.romServes = true → loadPayload c.payload = false → ∃ t, Machine.exec (.fwLoad none) s = .next t ∧ Answered t.dev none c 6 [] ∧ t.dev.fw = s.dev.fw) ∧
  (∀ (s : Machine.State) (c : MbxMsg), s.dev.alive = true → s.dev.asked none 0x11 c = true → s.dev.fwReady = true → s.dev.helds = false → loadPayload c.payload = true → s.dev.fw.phase = .none → ∃ t, Machine.exec (.fwUpdate none) s = .next t ∧ Answered t.dev none c 0 (leBytes 4 3) ∧ t.dev.fw = s.dev.fw) ∧
  (∀ (s : Machine.State) (c : MbxMsg) (bs : List Byte), s.dev.alive = true → s.dev.asked none 0x11 c = true → s.dev.fwReady = true → s.dev.helds = false → loadPayload c.payload = true → s.dev.fw.phase = .none → ∃ t, Machine.exec (.fwUpdate (some bs)) s = .next t ∧ (match s.dev.imageCheck bs (subN c.payload 0 8) with | .error e => Answered t.dev none c 0 (leBytes 4 e) ∧ t.dev.fw = s.dev.fw | .ok img => if s.dev.updateKeeps img then t.dev.fw.phase = .prepare ∧ t.dev.fw.other = some img ∧ t.dev.fw.image = s.dev.fw.image else Answered t.dev none c 0 (leBytes 4 8) ∧ t.dev.fw = s.dev.fw)) ∧
  (∀ (s : Machine.State) (c : MbxMsg) (data : Option (List Byte)), s.dev.alive = true → s.dev.asked none 0x11 c = true → s.dev.fwReady = true → s.dev.helds = false → loadPayload c.payload = true → s.dev.fw.phase ≠ .none → ∃ t, Machine.exec (.fwUpdate data) s = .next t ∧ Answered t.dev none c 0 (leBytes 4 0x0A) ∧ t.dev.fw = s.dev.fw) ∧
  (∀ (s : Machine.State) (x : SelfTest), s.dev.alive = true → s.dev.fwRuns = true → s.dev.fwReady = false → ∃ t, Machine.exec (.startSequence x) s = .next t ∧ t.dev.fwReady = true ∧ t.dev.fw.image = s.dev.fw.image ∧ t.dev.sec.lcf = s.dev.sec.lcf) ∧
  (∀ (s : Machine.State) (p : Nat), s.dev.alive = true → s.dev.fwReady = true → s.dev.ptn.dieBLost = false → (upTo 32).find? (fun x => (s.dev.ent x).valid && decide ((s.dev.ptnAt x).state = .offline) && !(s.dev.ptnAt x).order.isEmpty) = some p → ∃ t, Machine.exec (.partitionRestage) s = .next t ∧ (t.dev.ptnAt p).state = .service ∧ (t.dev.ptnAt p).order = (s.dev.ptnAt p).order)

/-- With no install running the pause begins: GLB_STAT.HELD is 1 and the update is counted; the switch changes the two images, unless a
critical record cannot be imported, which leaves the old image running; the resumption and the abandonment end the pause, and only the
abandonment brings the old image back. (R414, R417, R418) -/
def Obligations.TheLiveUpdateRunsItsPhases : Prop :=
  (∀ (s : Machine.State), s.dev.alive = true → s.dev.fw.phase = .prepare → s.dev.store.installs.any (fun i => decide (i.state = 1)) = false → ∃ t, Machine.exec (.liveUpdateQuiesce) s = .next t ∧ t.dev.fw.phase = .quiesce ∧ t.dev.fw.updates = s.dev.fw.updates + 1 ∧ t.dev.fw.pauseAt = s.dev.now ∧ t.dev.tel.fwHeld = true ∧ t.dev.helds = true) ∧
  (∀ (s : Machine.State) (r : Option Nat), s.dev.alive = true → s.dev.fw.phase = .quiesce → r.all (fun t => !recCritical t) = true → ∃ t, Machine.exec (.liveUpdateSwitch r) s = .next t ∧ t.dev.fw.phase = .switch ∧ t.dev.fw.image = s.dev.fw.other ∧ t.dev.fw.other = s.dev.fw.image ∧ t.dev.fw.discarded = r) ∧
  (∀ (s : Machine.State) (r : Nat), s.dev.alive = true → s.dev.fw.phase = .quiesce → recCritical r = true → s.dev.dict.held = [] → ∃ t, Machine.exec (.liveUpdateSwitch (some r)) s = .next t ∧ t.dev.fw.phase = .none ∧ t.dev.fw.image = s.dev.fw.image ∧ t.dev.fw.other = none ∧ t.dev.helds = false ∧ t.dev.tel.fwHeld = false) ∧
  (∀ (s : Machine.State), s.dev.alive = true → s.dev.fw.phase = .switch → s.dev.dict.held = [] → ∃ t, Machine.exec (.liveUpdateResume) s = .next t ∧ t.dev.fw.phase = .none ∧ t.dev.fw.other = none ∧ t.dev.helds = false ∧ t.dev.tel.fwHeld = false ∧ t.dev.fw.image = s.dev.fw.image) ∧
  (∀ (s : Machine.State) (typ : Nat), s.dev.alive = true → s.dev.fw.phase = .switch → s.dev.dict.held = [] → ∃ t, Machine.exec (.updateAbandon typ) s = .next t ∧ t.dev.fw.phase = .none ∧ t.dev.fw.other = none ∧ t.dev.helds = false ∧ t.dev.tel.fwHeld = false ∧ t.dev.fw.image = s.dev.fw.other)

/-- The supervisor's own expiry makes a management reset due; a component that misses its watchdog or writes outside its regions is
restarted, and the third restart within 60 s makes the reset due; the reset counts, clears the restarts and leaves an absent image to the
ROM; the retained area takes the sessions. (R409, R424, R425, R426) -/
def Obligations.FirmwareFaultsRestartComponents : Prop :=
  (∀ (s : Machine.State), s.dev.alive = true → s.dev.fwRuns = true → s.dev.helds = false → ∃ t, Machine.exec (.watchdogExpiry 0) s = .next t ∧ t = { s with dev := { s.dev with fw := { s.dev.fw with mgmtDue := true } } }) ∧
  (∀ (s : Machine.State) (c : Fin 12), s.dev.alive = true → s.dev.fwRuns = true → s.dev.helds = false → c ≠ 0 → ∃ t, Machine.exec (.watchdogExpiry c) s = .next t ∧ (let ts := (Tab.get [] s.dev.fw.restarts c).filter (fun x => decide (s.dev.now < x + minute)) ++ [s.dev.now]; Tab.get [] t.dev.fw.restarts c = ts ∧ t.dev.fw.mgmtDue = (s.dev.fw.mgmtDue || decide (3 ≤ ts.length)))) ∧
  (∀ (s : Machine.State) (c : Fin 12) (a : Nat), s.dev.alive = true → s.dev.fwRuns = true → ∃ t, Machine.exec (.protectionFault c a) s = .next t ∧ (if s.dev.fw.prot.mayStore c a then t = s else Tab.get [] t.dev.fw.restarts c = (Tab.get [] s.dev.fw.restarts c).filter (fun x => decide (s.dev.now < x + minute)) ++ [s.dev.now] ∧ t.dev.fw.mgmtDue = (s.dev.fw.mgmtDue || decide (3 ≤ ((Tab.get [] s.dev.fw.restarts c).filter (fun x => decide (s.dev.now < x + minute)) ++ [s.dev.now]).length)))) ∧
  (∀ (s : Machine.State), s.dev.alive = true → ∃ t, Machine.exec (.managementReset) s = .next t ∧ t.dev.fw.mgmtResets = s.dev.fw.mgmtResets + 1 ∧ t.dev.fw.restarts = [] ∧ t.dev.fw.mgmtDue = false ∧ t.dev.fw.phase = .none) ∧
  (∀ (s : Machine.State), s.dev.alive = true → s.dev.fw.image = none → ∃ t, Machine.exec (.managementReset) s = .next t ∧ t.dev.romServes = true ∧ t.dev.fwReady = false ∧ t.dev.fw.image = none) ∧
  (∀ (s : Machine.State), s.dev.alive = true → s.dev.fwRuns = true → ∃ t, Machine.exec (.retainedRecordWrite) s = .next t ∧ t.dev.fw.retained.map (fun x => x.body) = s.dev.recBodies ∧ (t.dev.fw.retained.all StateRec.sound) = true ∧ t.dev.dict = s.dev.dict ∧ t.dev.regs = s.dev.regs)

/-- A period writes P to PWR_EST, moves the burst bucket by C minus P within 0 to E_MAX, and sets RUN; a tensor die above 95.0 °C has its
ceiling lowered one step, not below its lowest k; a hot part enters the throttle and a cool one leaves it; 110 °C takes the die or stack
out; 10 ms without an update sets k and both limits to 8. (R420, R422, R423, R457, R458) -/
def Obligations.ThePowerAndThermalLoopsAct : Prop :=
  (∀ (s : Machine.State) (parts : List Nat) (rails : List (Nat × Option (Nat × Nat))), s.dev.alive = true → ∃ t, Machine.exec (.powerLoopPeriod parts rails) s = .next t ∧ t.dev.rdN (pwrReg 0x20) = packageEst (parts.take 8) % 2 ^ 32 ∧ t.dev.pwr.bucket = bucketNext s.dev.pwr.bucket s.dev.cap (packageEst (parts.take 8)) ∧ t.dev.pwr.armed = true ∧ bit (t.dev.rdN (pwrReg 8)) 0 = true) ∧
  (∀ (s : Machine.State) (temps : List Int) (k : Fin 4), s.dev.alive = true → 950 < temps.getD k 0 → s.dev.dieLow k ≤ 16 → ∃ t, Machine.exec (.thermalLoopPeriod temps) s = .next t ∧ t.dev.pwr.temps = temps.take 22 ∧ bits (t.dev.dieReg k) 20 16 = max (s.dev.dieLow k) (bits (s.dev.dieReg k) 20 16 - 1)) ∧
  (∀ (s : Machine.State) (temps : List Int) (k : Fin 4), s.dev.alive = true → temps.getD k 0 < 920 → ∃ t, Machine.exec (.thermalLoopPeriod temps) s = .next t ∧ t.dev.pwr.temps = temps.take 22 ∧ bits (t.dev.dieReg k) 20 16 = min 16 (bits (s.dev.dieReg k) 20 16 + 1)) ∧
  (∀ (s : Machine.State) (p : Fin 22), s.dev.alive = true → s.dev.pwr.hot.contains p.val = false → ∃ t, Machine.exec (.hwThrottle p true) s = .next t ∧ t.dev.pwr.hot = s.dev.pwr.hot ++ [p.val]) ∧
  (∀ (s : Machine.State) (p : Fin 22), s.dev.alive = true → p.val < 4 → s.dev.dieLow p ≤ 16 → ∃ t, Machine.exec (.hwThrottle p true) s = .next t ∧ t.dev.kNow p = max (s.dev.dieLow p) (s.dev.kNow p - 1) ∧ bit (t.dev.dieReg p) 21 = true) ∧
  (∀ (s : Machine.State) (p : Fin 22), s.dev.alive = true → s.dev.pwr.hot.contains p.val = true → ∃ t, Machine.exec (.hwThrottle p false) s = .next t ∧ t.dev.pwr.hot = s.dev.pwr.hot.filter (fun x => decide (x ≠ p.val))) ∧
  (∀ (s : Machine.State) (p : Fin 22) (det : Nat), s.dev.alive = true → p.val < 4 → Tab.get 0 s.dev.ptn.dies p = 0 → ∃ t, Machine.exec (.hwShutdown p det) s = .next t ∧ Tab.get 0 t.dev.ptn.dies p = 2 ∧ t.dev.ptn.todo = s.dev.ptn.todo ++ [(.die p, 1, det, s.dev.now)]) ∧
  (∀ (s : Machine.State) (p : Fin 22) (det : Nat), s.dev.alive = true → 4 ≤ p.val → p.val < 12 → Tab.get 0 s.dev.ptn.hbm (p.val - 4) ≤ 1 → ∃ t, Machine.exec (.hwShutdown p det) s = .next t ∧ Tab.get 0 t.dev.ptn.hbm (p.val - 4) = 2 ∧ t.dev.ptn.todo = s.dev.ptn.todo ++ [(.hbm (p.val - 4), 2, det, s.dev.now)]) ∧
  (∀ (s : Machine.State) (p : Fin 22) (det : Nat), s.dev.alive = true → 12 ≤ p.val → p.val < 20 → Tab.get 0 s.dev.ptn.ms (p.val - 12) ≤ 1 → ∃ t, Machine.exec (.hwShutdown p det) s = .next t ∧ Tab.get 0 t.dev.ptn.ms (p.val - 12) = 2) ∧
  (∀ (s : Machine.State) (det : Nat), s.dev.alive = true → s.dev.ptn.dieBLost = false → ∃ t, Machine.exec (.hwShutdown 20 det) s = .next t ∧ t.dev.ptn.dieBLost = true) ∧
  (∀ (s : Machine.State) (det : Nat), s.dev.alive = true → ∃ t, Machine.exec (.hwShutdown 21 det) s = .next t ∧ t.dev.flow.dieFLost = true ∧ t.dev.flow.failsafe = true) ∧
  (∀ (s : Machine.State), s.dev.alive = true → s.dev.pwr.armed = true → bit (s.dev.rdN (pwrReg 8)) 1 = false → ∃ t, Machine.exec (.loopLossFallback) s = .next t ∧ t.dev.hbmLim = 8 ∧ t.dev.msLim = 8 ∧ bit (t.dev.rdN (pwrReg 8)) 1 = true ∧ ∀ k, k < 4 → bit (s.dev.dieReg k) 21 = false → s.dev.dieLow k ≤ 16 → t.dev.kNow k = max 8 (s.dev.dieLow k)) ∧
  (∀ (s : Machine.State) (k : Fin 4) (det : Nat), s.dev.alive = true → Tab.get 0 s.dev.ptn.dies k = 0 → ∃ t, Machine.exec (.pgoodTFall k det) s = .next t ∧ Tab.get 0 t.dev.ptn.dies k = 1 ∧ t.dev.ptn.todo = s.dev.ptn.todo ++ [(.die k, 1, det, s.dev.now)])

/-- PORST_N rising with VHOLD present latches the straps and boots to the ROM, and waits without VHOLD or during a save; VHOLD rising
powers the Helmet and lets a waiting edge boot; a sag freezes a live device and starts the save; the save ends in the image of its cause,
a requested one in the warm reset, one that VHOLD cuts short without supply; 100 ms of good supplies restart a frozen device. (R455, R464,
R467, R470, R491) -/
def Obligations.ThePowerStateMovesWithItsSupplies : Prop :=
  (∀ (s : Machine.State) (b : BootIn), s.dev.pwr.porst = false → s.dev.pwr.vhold = true → s.dev.pwr.saving = none → ∃ t, Machine.exec (.porstRise b) s = .next t ∧ t.dev.alive = true ∧ t.dev.rdN (pwrReg 0x1C) = b.straps % 2 ^ 20 ∧ t.dev.pwr.porst = true ∧ t.dev.pwr.vhold = true ∧ t.dev.pwr.frozen = false ∧ t.dev.fwReady = false) ∧
  (∀ (s : Machine.State) (b : BootIn), s.dev.pwr.porst = false → s.dev.pwr.vhold = false ∨ s.dev.pwr.saving ≠ none → ∃ t, Machine.exec (.porstRise b) s = .next t ∧ t = { s with dev := { s.dev with pwr := { s.dev.pwr with porst := true, porstPend := some b } } }) ∧
  (∀ (s : Machine.State) (x b : BootIn), s.dev.alive = false → s.dev.pwr.saving = none → s.dev.pwr.porstPend = some b → ∃ t, Machine.exec (.vholdRise x) s = .next t ∧ t.dev.alive = true ∧ t.dev.rdN (pwrReg 0x1C) = b.straps % 2 ^ 20 ∧ t.dev.pwr.porst = true ∧ t.dev.pwr.vhold = true ∧ t.dev.pwr.frozen = false ∧ t.dev.fwReady = false) ∧
  (∀ (s : Machine.State) (x : BootIn), s.dev.alive = false → s.dev.pwr.saving = none → s.dev.pwr.porstPend = none → ∃ t, Machine.exec (.vholdRise x) s = .next t ∧ t.dev.alive = false ∧ t.dev.pwr.vhold = true ∧ t.dev.pwr.porst = false ∧ t.dev.sec.lcf = s.dev.sec.lcf) ∧
  (∀ (s : Machine.State) (cause : Fin 5), s.dev.alive = true → s.dev.pwr.vhold = true → s.dev.pwr.porst = true → s.dev.pwr.porstPend = none → s.dev.saveStands = false → ∃ t, Machine.exec (.sagTrigger cause) s = .next t ∧ t.dev.alive = false ∧ t.dev.pwr.frozen = true ∧ t.dev.pwr.saving = some cause.val ∧ t.dev.flow.failsafe = true ∧ t.dev.pwr.porst = decide (cause.val ≠ 4)) ∧
  (∀ (s : Machine.State) (cause : Nat), s.dev.pwr.saving = some cause → s.dev.pwr.frozen = true → s.dev.pwr.porstPend = none → ∃ t, Machine.exec (.saveDone none) s = .next t ∧ t = { s with dev := { s.dev with pwr := { s.dev.pwr with save := s.dev.saveImage cause none, saving := none, skips := 0 }, sec := { s.dev.sec with draws := s.dev.sec.draws + 1 } } }) ∧
  (∀ (s : Machine.State) (cut cause : Nat), s.dev.pwr.saving = some cause → ∃ t, Machine.exec (.saveDone (some cut)) s = .next t ∧ t = { s with dev := { s.dev with pwr := { s.dev.pwr with save := s.dev.saveImage cause (some cut), saving := none, skips := 0, vhold := false }, sec := { s.dev.sec with draws := s.dev.sec.draws + 1 } } }) ∧
  (∀ (s : Machine.State) (cause : Nat), s.dev.pwr.saving = some cause → s.dev.pwr.frozen = false → ∃ t, Machine.exec (.saveDone none) s = .next t ∧ t.dev.alive = true ∧ t.dev.pwr.saving = none ∧ t.dev.pwr.save = s.dev.saveImage cause none ∧ t.dev.now = s.dev.now ∧ t.dev.ptn.remaps = s.dev.ptn.remaps ∧ t.dev.rdN (pwrReg 0x14) = (cause + 256 * stick 255 (bits (s.dev.rdN (pwrReg 0x14)) 15 8 + 1)) % 2 ^ 32) ∧
  (∀ (s : Machine.State) (b : BootIn), s.dev.alive = false → s.dev.pwr.vhold = true → s.dev.pwr.frozen = true → s.dev.pwr.porst = true → s.dev.pwr.saving = none → ∃ t, Machine.exec (.sagRestart b) s = .next t ∧ t.dev.alive = true ∧ t.dev.rdN (pwrReg 0x1C) = b.straps % 2 ^ 20 ∧ t.dev.pwr.porst = true ∧ t.dev.pwr.vhold = true ∧ t.dev.pwr.frozen = false ∧ t.dev.fwReady = false) ∧
  (∀ (s : Machine.State), s.dev.alive = true → s.dev.fnOpen none = true → s.dev.saveStands = false → ∃ t, Machine.exec (.pwrWarm 0x4D524157) s = .next t ∧ t.dev.alive = false ∧ t.dev.pwr.saving = some 5 ∧ t.dev.flow.failsafe = true ∧ t.dev.pwr.frozen = s.dev.pwr.frozen) ∧
  (∀ (s : Machine.State) (v : Word), s.dev.alive = true → s.dev.fnOpen none = true → v ≠ 0x4D524157 → ∃ t, Machine.exec (.pwrWarm v) s = .next t ∧ t = s) ∧
  (∀ (s : Machine.State), s.dev.alive = true → s.dev.sec.debug = true → s.dev.saveStands = false → ∃ t, Machine.exec (.jtagWarmReset) s = .next t ∧ t.dev.alive = false ∧ t.dev.pwr.saving = some 6 ∧ t.dev.flow.failsafe = true ∧ t.dev.pwr.frozen = s.dev.pwr.frozen) ∧
  (∀ (s : Machine.State), s.dev.alive = true → s.dev.sec.debug = false → ∃ t, Machine.exec (.jtagWarmReset) s = .next t ∧ t = s)

/-- SETTING_APPLY takes the oldest committed value: a value of 0x3010 or 0x3030 is in its register; a store that fits writes the copy with
the lower sequence number and leaves the other; a load marks its range and leaves the values; a token is staged with its time, and its
expiry removes it. (R380, R382, R384, R388) -/
def Obligations.SettingsApplyAndStoresAct : Prop :=
  (∀ (s : Machine.State) (k : Nat) (ks : List Nat), s.dev.alive = true → s.dev.fwReady = true → s.dev.helds = false → s.dev.dict.apply = k :: ks → keyIndex k = 0x3010 → ∃ t, Machine.exec (.settingApply) s = .next t ∧ t.dev.dict.apply = ks ∧ t.dev.rdN (parBase + 4 * (k % 256)) = s.dev.dvalN 0x3010 (k % 256) (k / 2 ^ 24) % 2 ^ 32) ∧
  (∀ (s : Machine.State) (k : Nat) (ks : List Nat), s.dev.alive = true → s.dev.fwReady = true → s.dev.helds = false → s.dev.dict.apply = k :: ks → keyIndex k = 0x3030 → ∃ t, Machine.exec (.settingApply) s = .next t ∧ t.dev.dict.apply = ks ∧ t.dev.rdN (gntBase + 8) = s.dev.dvalN 0x3030 (k % 256) (k / 2 ^ 24) % 2 ^ 32) ∧
  (∀ (s : Machine.State) (sb : Fin 4) (e : DEnt), s.dev.alive = true → s.dev.fwReady = true → s.dev.helds = false → (s.dev.sessAt 190).token = none → s.dev.writeChecks .usb 0x1010 sb (leBytes 4 saveWord) none = .ok (e, none) → (s.dev.storeImage sb true).2 = 0 → s.dev.dict.norB.seq < s.dev.dict.norA.seq → ∃ t, Machine.exec (.storeSettings .usb sb none true) s = .next t ∧ t.dev.dict.norB.valid = true ∧ t.dev.dict.norB.seq = s.dev.dict.norA.seq + 1 ∧ t.dev.dict.norA = s.dev.dict.norA ∧ t.dev.dict.lastStore = 0 ∧ (t.dev.sessAt 190).result = (0, 0x1010, sb.val, true)) ∧
  (∀ (s : Machine.State) (sb : Fin 4) (tok : Option (List Byte)), s.dev.alive = true → s.dev.fwReady = true → s.dev.helds = false → (s.dev.sessAt 190).token = none → ∃ t, Machine.exec (.restoreDefaults .usb sb tok) s = .next t ∧ (match s.dev.writeChecks .usb 0x1011 sb (leBytes 4 loadWord) tok with | .ok _ => sb.val ∈ t.dev.dict.restore ∧ t.dev.dict.vals = s.dev.dict.vals ∧ (t.dev.sessAt 190).result = (0, 0x1011, sb.val, true) | .error ab => t.dev.dict.restore = s.dev.dict.restore ∧ (t.dev.sessAt 190).result = (ab, 0x1011, sb.val, decide (ab = 0)))) ∧
  (∀ (s : Machine.State) (raw : List Byte) (e : DEnt), s.dev.alive = true → s.dev.fwReady = true → s.dev.helds = false → (s.dev.sessAt 190).token = none → s.dev.writeChecks .usb 0x5020 0 raw none = .ok (e, none) → ∃ t, Machine.exec (.tokenStage .usb raw) s = .next t ∧ (t.dev.sessAt 190).token = some (raw, s.dev.now) ∧ (t.dev.sessAt 190).result = (0, 0x5020, 0, true)) ∧
  (∀ (s : Machine.State) (via : Via), s.dev.alive = true → ∃ t, Machine.exec (.tokenExpiry via) s = .next t ∧ t = { s with dev := s.dev.sessSet via.sess { s.dev.sessAt via.sess with token := none } })

/-- An expedited download whose commit succeeds is confirmed, one that fails is aborted with its code; an initiate opens the assembly and
is confirmed; an upload of a short value returns it; a timeout ends the transfer; a USDO read answers with the value; NMT commands set the
state and a reset ends every CAN session with the boot-up message. (R397, R398, R399) -/
def Obligations.CanTransfersCommitAndAnswer : Prop :=
  (∀ (s : Machine.State) (index sb : Nat) (data : List Byte) (ok : Bool), s.dev.alive = true → s.dev.sdoServes = true → s.dev.helds = false → ∃ t, Machine.exec (.sdoDownload (.expedited index sb data) ok) s = .next t ∧ t.dev.out.head? = some (.can (0x580 + t.dev.canNode) (padTo 8 (if ((s.dev.sessEnd 40).dictWrite .sdo index sb (data.take 4) none ok).2 = 0 then leBytes 1 0x60 ++ mux index sb else leBytes 1 0x80 ++ mux index sb ++ leBytes 4 ((s.dev.sessEnd 40).dictWrite .sdo index sb (data.take 4) none ok).2))) ∧ t.dev.dict = ((s.dev.sessEnd 40).dictWrite .sdo index sb (data.take 4) none ok).1.dict) ∧
  (∀ (s : Machine.State) (index sb size : Nat) (ok : Bool), s.dev.alive = true → s.dev.sdoServes = true → s.dev.helds = false → s.dev.mayOpen 40 = true → size ≤ asmMax → ∃ t, Machine.exec (.sdoDownload (.initiate index sb size) ok) s = .next t ∧ (t.dev.sessAt 40).asm = some { index := index, sub := sb, total := size } ∧ t.dev.out = .can (0x580 + s.dev.canNode) (padTo 8 (leBytes 1 0x60 ++ mux index sb)) :: s.dev.out) ∧
  (∀ (s : Machine.State) (a : Asm) (data : List Byte) (ok : Bool), s.dev.alive = true → s.dev.sdoServes = true → s.dev.helds = false → (s.dev.sessAt 40).asm = some a → a.block = false → a.data.length + (data.take 7).length ≤ asmMax → a.total = 0 → ∃ t, Machine.exec (.sdoDownload (.segment (decide (a.seg % 2 = 1)) data false) ok) s = .next t ∧ (t.dev.sessAt 40).asm = some { a with data := a.data ++ data.take 7, seg := a.seg + 1 } ∧ t.dev.out = .can (0x580 + s.dev.canNode) (padTo 8 (leBytes 1 (0x20 + 16 * b2n (decide (a.seg % 2 = 1))))) :: s.dev.out) ∧
  (∀ (s : Machine.State) (index sb : Nat) (ok : Bool), s.dev.alive = true → s.dev.sdoServes = true → s.dev.helds = false → ∃ t, Machine.exec (.sdoDownload (.unknown index sb) ok) s = .next t ∧ t = { s with dev := s.dev.sdoAbort index sb abCommand }) ∧
  (∀ (s : Machine.State) (index sb : Nat) (v : List Byte), s.dev.alive = true → s.dev.sdoServes = true → s.dev.helds = false → s.dev.dictRead .sdo index sb = .ok v → 1 ≤ v.length → v.length ≤ 4 → ∃ t, Machine.exec (.sdoUpload (.initiate index sb)) s = .next t ∧ t.dev.out = .can (0x580 + s.dev.canNode) (padTo 8 (leBytes 1 (0x43 + 4 * (4 - v.length)) ++ mux index sb ++ v)) :: s.dev.out ∧ (t.dev.sessAt 40).copy = none) ∧
  (∀ (s : Machine.State) (node : Option Nat), s.dev.alive = true → (s.dev.sessAt (match node with | none => 40 | some n => Via.sess (.usdo n))).asm.isSome = true → ∃ t, Machine.exec (.sdoTimeout node) s = .next t ∧ (t.dev.sessAt (match node with | none => 40 | some n => Via.sess (.usdo n))).asm = none ∧ (t.dev.sessAt (match node with | none => 40 | some n => Via.sess (.usdo n))).copy = none) ∧
  (∀ (s : Machine.State) (node index sb : Nat) (ok : Bool) (v : List Byte), s.dev.alive = true → s.dev.sdoServes = true → s.dev.helds = false → s.dev.dict.canFd ≠ 0 → s.dev.usdoOpen < 8 → s.dev.dictRead (.usdo node) index sb = .ok v → ∃ t, Machine.exec (.usdoTransfer node (.read index sb) ok) s = .next t ∧ t = { s with dev := s.dev.emit (.usdo node 0 v) }) ∧
  (∀ (s : Machine.State), s.dev.alive = true → s.dev.canUp = true → ∃ t, Machine.exec (.nmtStart) s = .next t ∧ t.dev.dict = { s.dev.dict with nmt := .operational } ∧ ((t.dev.path 2).up = true ↔ t.dev.sdoServes = true)) ∧
  (∀ (s : Machine.State), s.dev.alive = true → s.dev.canUp = true → ∃ t, Machine.exec (.nmtStop) s = .next t ∧ t.dev.dict = { s.dev.dict with nmt := .stopped } ∧ ((t.dev.path 2).up = true ↔ t.dev.sdoServes = true)) ∧
  (∀ (s : Machine.State), s.dev.alive = true → s.dev.canUp = true → ∃ t, Machine.exec (.nmtEnterPreOperational) s = .next t ∧ t.dev.dict = { s.dev.dict with nmt := .preOp } ∧ ((t.dev.path 2).up = true ↔ t.dev.sdoServes = true)) ∧
  (∀ (s : Machine.State), s.dev.alive = true → s.dev.canUp = true → ∃ t, Machine.exec (.nmtResetCommunication) s = .next t ∧ t.dev.dict.nmt = .preOp ∧ (∀ k, 40 ≤ k → k < 169 → t.dev.sessAt k = {}) ∧ t.dev.out.head? = some (.can (0x700 + s.dev.canNode) [0])) ∧
  (∀ (s : Machine.State), s.dev.alive = true → s.dev.canUp = true → ∃ t, Machine.exec (.nmtResetNode) s = .next t ∧ t.dev.dict.nmt = .preOp ∧ (∀ k, 40 ≤ k → k < 169 → t.dev.sessAt k = {}) ∧ t.dev.out.head? = some (.can (0x700 + s.dev.canNode) [0])) ∧
  (∀ (s : Machine.State), s.dev.alive = true → s.dev.canUp = true → s.dev.dvalN 0x1017 0 0 ≠ 0 → ∃ t, Machine.exec (.heartbeat) s = .next t ∧ t = { s with dev := s.dev.emit (.can (0x700 + s.dev.canNode) (leBytes 1 (match s.dev.dict.nmt with | .stopped => 4 | .operational => 5 | _ => 0x7F))) })

/-- A UDP READ at offset 0 answers with the bytes of the value and its size, a repeated SEQ with the kept response, which a received PAUSE
holds; a WRITE while writes are off is refused; a WRITE that its datagram completes answers with the code of its commit; an idle session
is discarded; USB READ returns the segment, WRITE adds to the assembly, WRITE_LAST commits and records the result, RESULT returns it, a
bus reset discards the session. (R401, R402, R403, R404) -/
def Obligations.UdpAndUsbTransfersAct : Prop :=
  (∀ (s : Machine.State) (src : Nat) (raw v : List Byte), s.dev.alive = true → s.dev.fwReady = true → s.dev.pwr.boardErr = 0 → s.dev.helds = false → s.dev.mgmtHeld = false → s.dev.dict.mgmtQ = [] → 24 ≤ raw.length → sub raw 0 2 = [0x45, 0x44] → subN raw 2 1 = 1 → (s.dev.sessAt (200 + src)).resp.find? (fun r => decide (r.1 = subN raw 4 4)) = none → subN raw 3 1 = 1 → subN raw 12 4 = 0 → s.dev.dictRead (.udp src) (subN raw 8 2) (subN raw 10 1) = .ok v → ∃ t, Machine.exec (.udpRead src raw) s = .next t ∧ t.dev.out = .udp (udpAnswer raw v.length (v.take (min 1400 (subN raw 16 2)))) :: s.dev.out ∧ t.dev.dict.vals = s.dev.dict.vals) ∧
  (∀ (s : Machine.State) (src : Nat) (raw resp : List Byte), s.dev.alive = true → s.dev.fwReady = true → s.dev.pwr.boardErr = 0 → s.dev.helds = false → s.dev.mgmtHeld = true → 24 ≤ raw.length → sub raw 0 2 = [0x45, 0x44] → subN raw 2 1 = 1 → (s.dev.sessAt (200 + src)).resp.find? (fun r => decide (r.1 = subN raw 4 4)) = some (subN raw 4 4, resp) → ∃ t, Machine.exec (.udpRead src raw) s = .next t ∧ t.dev.out = s.dev.out ∧ t.dev.dict.mgmtQ = s.dev.dict.mgmtQ ++ [.udp resp] ∧ t.dev.dict.vals = s.dev.dict.vals) ∧
  (∀ (s : Machine.State) (src : Nat) (raw : List Byte) (ok : Bool), s.dev.alive = true → s.dev.fwReady = true → s.dev.pwr.boardErr = 0 → s.dev.helds = false → s.dev.mgmtHeld = false → s.dev.dict.mgmtQ = [] → 24 ≤ raw.length → sub raw 0 2 = [0x45, 0x44] → subN raw 2 1 = 1 → (s.dev.sessAt (200 + src)).resp.find? (fun r => decide (r.1 = subN raw 4 4)) = none → subN raw 3 1 = 2 → s.dev.dvalN 0x2031 2 0 = 0 → ∃ t, Machine.exec (.udpWrite src raw ok) s = .next t ∧ t.dev.out = .udp (udpAnswer raw abTransport []) :: s.dev.out ∧ t.dev.dict.vals = s.dev.dict.vals) ∧
  (∀ (s : Machine.State) (src : Nat) (raw v : List Byte) (ok : Bool), s.dev.alive = true → s.dev.fwReady = true → s.dev.pwr.boardErr = 0 → s.dev.helds = false → s.dev.mgmtHeld = false → s.dev.dict.mgmtQ = [] → 24 ≤ raw.length → sub raw 0 2 = [0x45, 0x44] → subN raw 2 1 = 1 → (s.dev.sessAt (200 + src)).resp.find? (fun r => decide (r.1 = subN raw 4 4)) = none → subN raw 3 1 = 2 → s.dev.dvalN 0x2031 2 0 ≠ 0 → subN raw 20 4 ≤ asmMax → s.dev.mayOpen (200 + src) = true → (s.dev.sessAt (200 + src)).asm = none → ({ index := subN raw 8 2, sub := subN raw 10 1, total := subN raw 20 4, parts := [(subN raw 12 4, (raw.drop 24).take (min 1400 (subN raw 16 2)))], last := bit (subN raw 11 1) 0 } : Asm).whole = some v → ∃ t, Machine.exec (.udpWrite src raw ok) s = .next t ∧ t.dev.out.head? = some (.udp (udpAnswer raw ((s.dev.sessUpd (200 + src) (fun x => { x with asm := none })).dictWrite (.udp src) (subN raw 8 2) (subN raw 10 1) v none ok).2 [])) ∧ t.dev.dict.vals = ((s.dev.sessUpd (200 + src) (fun x => { x with asm := none })).dictWrite (.udp src) (subN raw 8 2) (subN raw 10 1) v none ok).1.dict.vals) ∧
  (∀ (s : Machine.State) (src : Nat), s.dev.alive = true → ∃ t, Machine.exec (.udpSessionTimeout src) s = .next t ∧ t.dev.sessAt (200 + src) = {} ∧ ∀ k, k ≠ 200 + src → t.dev.sessAt k = s.dev.sessAt k) ∧
  (∀ (s : Machine.State) (index sb len : Nat) (v : List Byte), s.dev.alive = true → s.dev.fwReady = true → s.dev.helds = false → s.dev.dictRead .usb index sb = .ok v → ∃ t, Machine.exec (.usbRead index sb 0 len) s = .next t ∧ t.dev.out = .usb (v.take (min 4096 len)) :: s.dev.out ∧ (t.dev.sessAt 190).copy = some (256 * index + sb, v, s.dev.now) ∧ (t.dev.sessAt 190).result = (0, index, sb, false)) ∧
  (∀ (s : Machine.State) (index sb seg : Nat) (data : List Byte) (a : Asm), s.dev.alive = true → s.dev.fwReady = true → s.dev.helds = false → data.length = 4096 → seg ≤ 255 → s.dev.mayOpen 190 = true → s.dev.usbAsm index sb seg data = some a → ∃ t, Machine.exec (.usbWrite index sb seg data) s = .next t ∧ (t.dev.sessAt 190).asm = some a ∧ (t.dev.sessAt 190).copy = none ∧ (t.dev.sessAt 190).result = (0, index, sb, false) ∧ t.dev.dict.vals = s.dev.dict.vals) ∧
  (∀ (s : Machine.State) (index sb seg : Nat) (data : List Byte) (ok : Bool) (a : Asm), s.dev.alive = true → s.dev.fwReady = true → s.dev.helds = false → data.length ≤ 4096 → seg ≤ 255 → s.dev.usbAsm index sb seg data = some a → ((s.dev.sessUpd 190 (fun x => { x with asm := none, copy := none })).dictWrite .usb index sb a.data none ok).2 = 0 → ∃ t, Machine.exec (.usbWriteLast index sb seg data true ok) s = .next t ∧ t.dev.out.head? = some (.usb []) ∧ (t.dev.sessAt 190).result = (0, index, sb, true) ∧ t.dev.dict.vals = ((s.dev.sessUpd 190 (fun x => { x with asm := none, copy := none })).dictWrite .usb index sb a.data none ok).1.dict.vals) ∧
  (∀ (s : Machine.State), s.dev.alive = true → s.dev.helds = false → ∃ t, Machine.exec (.usbResult) s = .next t ∧ (let r := (s.dev.sessAt 190).result; t = { s with dev := s.dev.emit (.usb (leBytes 4 r.1 ++ leBytes 2 r.2.1 ++ leBytes 1 r.2.2.1 ++ leBytes 1 (b2n r.2.2.2))) })) ∧
  (∀ (s : Machine.State), s.dev.alive = true → ∃ t, Machine.exec (.usbBusReset) s = .next t ∧ (t.dev.sessAt 190).asm = none ∧ (t.dev.sessAt 190).token = none ∧ (t.dev.sessAt 190).copy = none ∧ (t.dev.path 3).up = false ∧ (t.dev.path 3).queue = [])

/-- When the checks of the write hold, PROVISION, DEPLOY, RETURN and DECOMMISSION burn their one bit, DECOMMISSION leaves the device to
its ROM with the UDS gone, COMMIT SVN raises the floor to the running SVN, REVOKE sets the slot, REKEY increments the generation of its
gang; else nothing is burned and the session holds the abort code. (R432, R439, R440) -/
def Obligations.LifecycleWritesActWhenTheirChecksHold : Prop :=
  (∀ (s : Machine.State) (tok : Option (List Byte)), s.dev.alive = true → s.dev.fwReady = true → s.dev.helds = false → (s.dev.sessAt 190).token = none → ∃ t, Machine.exec (.provision .usb tok) s = .next t ∧ (match s.dev.writeChecks .usb 0x5001 0 (leBytes 4 1) tok with | .ok _ => t.dev.sec.lcf = setBit s.dev.sec.lcf 0 ∧ (t.dev.sessAt 190).result = (0, 0x5001, 0, true) | .error ab => t.dev.sec.lcf = s.dev.sec.lcf ∧ t.dev.sec.floor = s.dev.sec.floor ∧ t.dev.sec.revoked = s.dev.sec.revoked ∧ t.dev.sec.kgen = s.dev.sec.kgen ∧ (t.dev.sessAt 190).result = (ab, 0x5001, 0, decide (ab = 0)))) ∧
  (∀ (s : Machine.State) (tok : Option (List Byte)), s.dev.alive = true → s.dev.fwReady = true → s.dev.helds = false → (s.dev.sessAt 190).token = none → ∃ t, Machine.exec (.deploy .usb tok) s = .next t ∧ (match s.dev.writeChecks .usb 0x5001 0 (leBytes 4 2) tok with | .ok _ => t.dev.sec.lcf = setBit s.dev.sec.lcf (1 + s.dev.sec.deploys) ∧ (t.dev.sessAt 190).result = (0, 0x5001, 0, true) | .error ab => t.dev.sec.lcf = s.dev.sec.lcf ∧ t.dev.sec.floor = s.dev.sec.floor ∧ t.dev.sec.revoked = s.dev.sec.revoked ∧ t.dev.sec.kgen = s.dev.sec.kgen ∧ (t.dev.sessAt 190).result = (ab, 0x5001, 0, decide (ab = 0)))) ∧
  (∀ (s : Machine.State) (tok : Option (List Byte)), s.dev.alive = true → s.dev.fwReady = true → s.dev.helds = false → (s.dev.sessAt 190).token = none → ∃ t, Machine.exec (.returnDevice .usb tok) s = .next t ∧ (match s.dev.writeChecks .usb 0x5001 0 (leBytes 4 3) tok with | .ok _ => t.dev.sec.lcf = setBit s.dev.sec.lcf (9 + s.dev.sec.returns) ∧ (t.dev.sessAt 190).result = (0, 0x5001, 0, true) | .error ab => t.dev.sec.lcf = s.dev.sec.lcf ∧ t.dev.sec.floor = s.dev.sec.floor ∧ t.dev.sec.revoked = s.dev.sec.revoked ∧ t.dev.sec.kgen = s.dev.sec.kgen ∧ (t.dev.sessAt 190).result = (ab, 0x5001, 0, decide (ab = 0)))) ∧
  (∀ (s : Machine.State) (tok : Option (List Byte)), s.dev.alive = true → s.dev.fwReady = true → s.dev.helds = false → (s.dev.sessAt 190).token = none → ∃ t, Machine.exec (.decommission .usb tok) s = .next t ∧ (match s.dev.writeChecks .usb 0x5001 0 (leBytes 4 4) tok with | .ok _ => t.dev.sec.lcf = setBit s.dev.sec.lcf 17 ∧ t.dev.sec.udsGone = true ∧ t.dev.romServes = true ∧ t.dev.fw = {} ∧ t.dev.flow.failsafe = true ∧ (t.dev.sessAt 190).result = (0, 0x5001, 0, true) | .error ab => t.dev.sec.lcf = s.dev.sec.lcf ∧ t.dev.sec.floor = s.dev.sec.floor ∧ t.dev.sec.revoked = s.dev.sec.revoked ∧ t.dev.sec.kgen = s.dev.sec.kgen ∧ (t.dev.sessAt 190).result = (ab, 0x5001, 0, decide (ab = 0)))) ∧
  (∀ (s : Machine.State) (tok : Option (List Byte)), s.dev.alive = true → s.dev.fwReady = true → s.dev.helds = false → (s.dev.sessAt 190).token = none → ∃ t, Machine.exec (.commitSvn .usb tok) s = .next t ∧ (match s.dev.writeChecks .usb 0x5001 0 (leBytes 4 0x10) tok with | .ok _ => t.dev.sec.floor = max s.dev.sec.floor (min 64 s.dev.runSvn) ∧ t.dev.sec.lcf = s.dev.sec.lcf ∧ (t.dev.sessAt 190).result = (0, 0x5001, 0, true) | .error ab => t.dev.sec.lcf = s.dev.sec.lcf ∧ t.dev.sec.floor = s.dev.sec.floor ∧ t.dev.sec.revoked = s.dev.sec.revoked ∧ t.dev.sec.kgen = s.dev.sec.kgen ∧ (t.dev.sessAt 190).result = (ab, 0x5001, 0, decide (ab = 0)))) ∧
  (∀ (s : Machine.State) (g : Fin 32) (tok : Option (List Byte)), s.dev.alive = true → s.dev.fwReady = true → s.dev.helds = false → (s.dev.sessAt 190).token = none → ∃ t, Machine.exec (.rekey .usb g tok) s = .next t ∧ (match s.dev.writeChecks .usb 0x5001 0 (leBytes 4 (0x10000 + g)) tok with | .ok _ => Tab.get 0 t.dev.sec.kgen g = (Tab.get 0 s.dev.sec.kgen g + 1) % 65536 ∧ t.dev.sec.lcf = s.dev.sec.lcf ∧ (t.dev.sessAt 190).result = (0, 0x5001, 0, true) | .error ab => t.dev.sec.lcf = s.dev.sec.lcf ∧ t.dev.sec.floor = s.dev.sec.floor ∧ t.dev.sec.revoked = s.dev.sec.revoked ∧ t.dev.sec.kgen = s.dev.sec.kgen ∧ (t.dev.sessAt 190).result = (ab, 0x5001, 0, decide (ab = 0)))) ∧
  (∀ (s : Machine.State) (k : Fin 4) (tok : Option (List Byte)), s.dev.alive = true → s.dev.fwReady = true → s.dev.helds = false → (s.dev.sessAt 190).token = none → ∃ t, Machine.exec (.revoke .usb k tok) s = .next t ∧ (match s.dev.writeChecks .usb 0x5001 0 (leBytes 4 (0x20000 + k)) tok with | .ok _ => t.dev.sec.revoked = setBit s.dev.sec.revoked k ∧ t.dev.sec.lcf = s.dev.sec.lcf ∧ (t.dev.sessAt 190).result = (0, 0x5001, 0, true) | .error ab => t.dev.sec.lcf = s.dev.sec.lcf ∧ t.dev.sec.floor = s.dev.sec.floor ∧ t.dev.sec.revoked = s.dev.sec.revoked ∧ t.dev.sec.kgen = s.dev.sec.kgen ∧ (t.dev.sessAt 190).result = (ab, 0x5001, 0, decide (ab = 0))))

/-- When the checks of the write hold, a row of zeros deletes the association of the selected row and any other row installs it with
packet number 1; on PNWARN firmware selects the next installed, unexhausted association after TXAN, and with none raises alarm 6 of the
port. Debug access opens exactly when the reply is signed by an allowed signer over the challenge and the serial, and every reply takes a
fresh challenge; SEC_MEASSEL copies the measurement with its count, an index outside 1 to 37 selects nothing; SEC_PKSEL shows its
partition; a TAP reset releases the locks of owner code 63 with BROKEN. (R450, R451, R442, R453, R497) -/
def Obligations.SecurityRowsWindowsAndDebugAct : Prop :=
  (∀ (s : Machine.State) (row : List Byte) (tok : Option (List Byte)), s.dev.alive = true → s.dev.fwReady = true → s.dev.helds = false → (s.dev.sessAt 190).token = none → ∃ t, Machine.exec (.macsecKeyRow .usb row tok) s = .next t ∧ (match s.dev.writeChecks .usb 0x5040 2 row tok with | .ok _ => (let m := Tab.get {} t.dev.flow.ms (saKey (Tab.get 0 (s.dev.sessAt 190).sel 0x5040 / 128) (Tab.get 0 (s.dev.sessAt 190).sel 0x5040 % 128)); m.installed = !zeros row ∧ (zeros row = false → m.pn = 1)) ∧ (t.dev.sessAt 190).result = (0, 0x5040, 2, true) | .error ab => t.dev.flow.ms = s.dev.flow.ms ∧ (t.dev.sessAt 190).result = (ab, 0x5040, 2, decide (ab = 0)))) ∧
  (∀ (s : Machine.State) (n : Fin 32) (an : Nat), s.dev.alive = true → s.dev.fwReady = true → s.dev.helds = false → s.dev.portExists n = true → wbit (s.dev.rd (prt n 0x0C)) 3 = true → ([1, 2, 3].map (fun i => (bits (s.dev.rdN (prt n 0x30)) 5 4 + i) % 4)).find? (fun an => (Tab.get {} s.dev.flow.ms (saKey n an)).fresh) = some an → ∃ t, Machine.exec (.pnwarnHandle n) s = .next t ∧ t.dev.rdN (prt n 0x30) = putBits (s.dev.rdN (prt n 0x30)) 5 4 an % 2 ^ 32 ∧ (Tab.get {} t.dev.tel.alarms (alarmKey 6 n)).set = false) ∧
  (∀ (s : Machine.State) (n : Fin 32), s.dev.alive = true → s.dev.fwReady = true → s.dev.helds = false → s.dev.portExists n = true → wbit (s.dev.rd (prt n 0x0C)) 3 = true → ([1, 2, 3].map (fun i => (bits (s.dev.rdN (prt n 0x30)) 5 4 + i) % 4)).find? (fun an => (Tab.get {} s.dev.flow.ms (saKey n an)).fresh) = none → ∃ t, Machine.exec (.pnwarnHandle n) s = .next t ∧ (Tab.get {} t.dev.tel.alarms (alarmKey 6 n)).set = true ∧ t.dev.regs = s.dev.regs) ∧
  (∀ (s : Machine.State) (reply : List Byte), s.dev.alive = true → ∃ t, Machine.exec (.debugUnlock reply) s = .next t ∧ t.dev.sec.debug = (s.dev.sec.debug || (s.dev.debugSigner (sub reply 16 48) && decide (reply.length = 4800) && sigVerifies reply (s.dev.sec.challenge ++ leBytes 4 Config.serial))) ∧ t.dev.sec.draws = s.dev.sec.draws + 1) ∧
  (∀ (s : Machine.State) (who : Req) (ix : Fin 64), s.dev.alive = true → s.dev.reqOpen who = true → who.atBlocks = true → s.dev.mayWrite who (secBase + 0x40) = true → 1 ≤ ix.val → ix.val ≤ 37 → ∃ t, Machine.exec (.secMeasselWrite who ix) s = .next t ∧ t.dev.rdN (secBase + 0x40) = 2 ^ 31 + ix.val ∧ t.dev.rdN (secBase + 0x44) = Tab.get 0 s.dev.sec.measCnt ix % 2 ^ 32 ∧ ∀ i, i < 12 → t.dev.rdN (secBase + 0x50 + 4 * i) = leNat (((padTo 48 (s.dev.meas ix)).drop (4 * i)).take 4)) ∧
  (∀ (s : Machine.State) (who : Req) (ix : Fin 64), s.dev.alive = true → s.dev.reqOpen who = true → who.atBlocks = true → s.dev.mayWrite who (secBase + 0x40) = true → ix.val = 0 ∨ 37 < ix.val → ∃ t, Machine.exec (.secMeasselWrite who ix) s = .next t ∧ t.dev.rdN (secBase + 0x40) = ix.val ∧ ∀ i, i < 12 → t.dev.rdN (secBase + 0x50 + 4 * i) = s.dev.rdN (secBase + 0x50 + 4 * i)) ∧
  (∀ (s : Machine.State) (who : Req) (p : Fin 32), s.dev.alive = true → s.dev.reqOpen who = true → who.atBlocks = true → s.dev.mayWrite who (secBase + 0x200) = true → ∃ t, Machine.exec (.secPkselWrite who p) s = .next t ∧ t.dev.rdN (secBase + 0x200) = 2 ^ 31 + 2 ^ 30 * b2n (!s.dev.sec.udsGone) + p.val) ∧
  (∀ (s : Machine.State), s.dev.alive = true → ∃ t, Machine.exec (.tapReset) s = .next t ∧ ∀ n, (s.dev.lckAt n).held = true → (s.dev.lckAt n).owner = 63 → t.dev.lckAt n = { s.dev.lckAt n with held := false, owner := 0, broken := true })

/-- GET_VERSION begins a connection, GET_CAPABILITIES and NEGOTIATE_ALGORITHMS take it on in order; then GET_DIGESTS returns the digest of
the chain, GET_CERTIFICATE a portion of it, CHALLENGE and a signed GET_MEASUREMENTS sign the transcript and use a fresh nonce, and
VENDOR_DEFINED_REQUEST signs the last transcript. KEY_EXCHANGE adds one session with the low half the request named; a fifth is refused;
FINISH marks the session done when its verify data holds; HEARTBEAT answers in a session that is done; END_SESSION removes it. (R435,
R436) -/
def Obligations.SpdmServes : Prop :=
  (∀ (s : Machine.State) (req : List Byte), s.dev.alive = true → s.dev.host.linkUp = true → subN req 0 1 = 0x10 → ∃ t, Machine.exec (.getVersion req) s = .next t ∧ t.dev.sec.conn = 1 ∧ t.dev.sec.sess = [] ∧ t.dev.out = .doe ([0x10, 0x04, 0, 0, 0, 1] ++ leBytes 2 0x1200) :: s.dev.out) ∧
  (∀ (s : Machine.State) (req : List Byte), s.dev.alive = true → s.dev.host.linkUp = true → subN req 0 1 = 0x12 → 4 ≤ req.length → s.dev.sec.conn = 1 → ∃ t, Machine.exec (.getCapabilities req) s = .next t ∧ t.dev.sec.conn = 2 ∧ t.dev.out = .doe (spdmHdr 0x61 0 0 ++ leBytes 4 0 ++ leBytes 4 spdmCaps ++ leBytes 4 4096 ++ leBytes 4 65536) :: s.dev.out) ∧
  (∀ (s : Machine.State) (req : List Byte), s.dev.alive = true → s.dev.host.linkUp = true → subN req 0 1 = 0x12 → 32 ≤ req.length → s.dev.sec.conn = 2 → bit (subN req 8 4) 7 = true → bit (subN req 12 4) 1 = true → (algTables req).any (fun x => decide (x.1 = 2 ∨ x.1 = 3 ∨ x.1 = 5) && decide (Nat.land x.2 (algChoice x.1) = 0)) = false → ∃ t, Machine.exec (.negotiateAlgorithms req) s = .next t ∧ t.dev.sec.conn = 3 ∧ t.dev.sec.sess = s.dev.sec.sess) ∧
  (∀ (s : Machine.State) (req : List Byte), s.dev.alive = true → s.dev.host.linkUp = true → subN req 0 1 = 0x12 → 32 ≤ req.length → s.dev.sec.conn = 2 → bit (subN req 8 4) 7 = false → ∃ t, Machine.exec (.negotiateAlgorithms req) s = .next t ∧ t = { s with dev := s.dev.spdmErr 7 0xE3 }) ∧
  (∀ (s : Machine.State) (req : List Byte), s.dev.alive = true → s.dev.host.linkUp = true → subN req 0 1 = 0x12 → 3 ≤ s.dev.sec.conn → 4 ≤ req.length → ∃ t, Machine.exec (.getDigests none req) s = .next t ∧ t.dev.out = .doe (spdmHdr 0x01 0 1 ++ padTo 48 (Config.sha384 s.dev.slot0)) :: s.dev.out ∧ t.dev.sec.trans = s.dev.sec.trans ++ req ++ (spdmHdr 0x01 0 1 ++ padTo 48 (Config.sha384 s.dev.slot0))) ∧
  (∀ (s : Machine.State) (req : List Byte), s.dev.alive = true → s.dev.host.linkUp = true → subN req 0 1 = 0x12 → 3 ≤ s.dev.sec.conn → 8 ≤ req.length → bits (subN req 2 1) 3 0 = 0 → ∃ t, Machine.exec (.getCertificate none req) s = .next t ∧ t.dev.out.head? = some (.doe (if s.dev.slot0.length ≤ subN req 4 2 then leBytes 1 0x12 ++ leBytes 1 0x7F ++ leBytes 1 1 ++ leBytes 1 0 else (let part := sub s.dev.slot0 (subN req 4 2) (min (subN req 6 2) (min 4000 (s.dev.slot0.length - subN req 4 2))); spdmHdr 0x02 0 0 ++ leBytes 2 part.length ++ leBytes 2 (s.dev.slot0.length - subN req 4 2 - part.length) ++ part)))) ∧
  (∀ (s : Machine.State) (req : List Byte), s.dev.alive = true → s.dev.host.linkUp = true → subN req 0 1 = 0x12 → 3 ≤ s.dev.sec.conn → 36 ≤ req.length → bits (subN req 2 1) 3 0 = 0 → ∃ t, Machine.exec (.challenge none req) s = .next t ∧ (let body := spdmHdr 0x03 0 1 ++ padTo 48 (Config.sha384 s.dev.slot0) ++ padTo 32 (Config.random s.dev.sec.draws) ++ s.dev.measSummary (subN req 3 1) ++ leBytes 2 0; let h := Config.spdmHash 1 (s.dev.sec.trans ++ req ++ body); t.dev.out = .doe (body ++ padTo 96 (Config.ecdsaSign (p384Scalar s.dev.aliasSeed) h)) :: s.dev.out ∧ t.dev.sec.signed = h ∧ t.dev.sec.draws = s.dev.sec.draws + 1)) ∧
  (∀ (s : Machine.State) (req : List Byte), s.dev.alive = true → s.dev.host.linkUp = true → subN req 0 1 = 0x12 → 3 ≤ s.dev.sec.conn → 37 ≤ req.length → bit (subN req 2 1) 0 = true → subN req 3 1 ≤ 37 → 1 ≤ subN req 3 1 → bits (subN req 36 1) 3 0 = 0 → ∃ t, Machine.exec (.getMeasurements none req) s = .next t ∧ (let b := s.dev.measBlock (subN req 3 1); let body := spdmHdr 0x60 0 0 ++ leBytes 1 1 ++ leBytes 3 b.length ++ b ++ padTo 32 (Config.random s.dev.sec.draws) ++ leBytes 2 0; let h := Config.spdmHash 2 (s.dev.sec.trans ++ req ++ body); t.dev.out = .doe (body ++ padTo 96 (Config.ecdsaSign (p384Scalar s.dev.aliasSeed) h)) :: s.dev.out ∧ t.dev.sec.signed = h ∧ t.dev.sec.draws = s.dev.sec.draws + 1)) ∧
  (∀ (s : Machine.State) (req : List Byte), s.dev.alive = true → s.dev.host.linkUp = true → subN req 0 1 = 0x12 → 3 ≤ s.dev.sec.conn → 9 ≤ req.length → subN req 4 2 = 3 → subN req 6 1 = 2 → subN req 7 2 = 0x1F7A → s.dev.sec.signed ≠ [] → ∃ t, Machine.exec (.vendorDefinedRequest none req) s = .next t ∧ (let g := padTo 4627 (Config.mldsaSign (s.dev.aliasSeed.drop 48) s.dev.sec.signed); t.dev.out = .doe (spdmHdr 0x7E 0 0 ++ leBytes 2 3 ++ leBytes 1 2 ++ leBytes 2 0x1F7A ++ leBytes 2 g.length ++ g) :: s.dev.out)) ∧
  (∀ (s : Machine.State) (req : List Byte), s.dev.alive = true → s.dev.host.linkUp = true → subN req 0 1 = 0x12 → 3 ≤ s.dev.sec.conn → 138 ≤ req.length → bits (subN req 3 1) 3 0 = 0 → s.dev.sec.sess.length < 4 → ∃ t, Machine.exec (.keyExchange none req) s = .next t ∧ (∃ x, t.dev.sec.sess = s.dev.sec.sess ++ [x] ∧ x.id = subN req 4 2 + 65536 * s.dev.sidFree ∧ x.done = false) ∧ t.dev.sec.conn = s.dev.sec.conn) ∧
  (∀ (s : Machine.State) (req : List Byte), s.dev.alive = true → s.dev.host.linkUp = true → subN req 0 1 = 0x12 → 3 ≤ s.dev.sec.conn → 138 ≤ req.length → bits (subN req 3 1) 3 0 = 0 → 4 ≤ s.dev.sec.sess.length → ∃ t, Machine.exec (.keyExchange none req) s = .next t ∧ t = { s with dev := s.dev.spdmErr 0x0A 0 }) ∧
  (∀ (s : Machine.State) (k : Nat) (req : List Byte), s.dev.alive = true → s.dev.host.linkUp = true → subN req 0 1 = 0x12 → 3 ≤ s.dev.sec.conn → s.dev.sessOk (some k) = true → 52 ≤ req.length → s.dev.sessDone (some k) = false → ∃ t, Machine.exec (.finish (some k) req) s = .next t ∧ (if Config.spdmFinish k (s.dev.sec.trans ++ req.take 4) (sub req 4 48) = true then t.dev.sec.sess = s.dev.sec.sess.map (fun (x : SpdmSess) => if x.id = k then { x with done := true } else x) ∧ t.dev.out = .doe (spdmHdr 0x65 0 0) :: s.dev.out else t = { s with dev := s.dev.spdmErr 6 0 })) ∧
  (∀ (s : Machine.State) (k : Nat) (req : List Byte), s.dev.alive = true → s.dev.host.linkUp = true → subN req 0 1 = 0x12 → 3 ≤ s.dev.sec.conn → s.dev.sessOk (some k) = true → 4 ≤ req.length → s.dev.sessDone (some k) = true → ∃ t, Machine.exec (.heartbeatSpdm (some k) req) s = .next t ∧ t = { s with dev := s.dev.emit (.doe (spdmHdr 0x68 0 0)) }) ∧
  (∀ (s : Machine.State) (k : Nat) (req : List Byte), s.dev.alive = true → s.dev.host.linkUp = true → subN req 0 1 = 0x12 → 3 ≤ s.dev.sec.conn → s.dev.sessOk (some k) = true → 4 ≤ req.length → s.dev.sessDone (some k) = true → ∃ t, Machine.exec (.endSession (some k) req) s = .next t ∧ t.dev.sec.sess = s.dev.sec.sess.filter (fun x => decide (x.id ≠ k)) ∧ t.dev.out = .doe (spdmHdr 0x6C 0 0) :: s.dev.out)

/-- The oldest record joins the queue of each up path that carries it and has room; an alarm change sets its slot; a due slot is sent on
every up path and cleared; a RECV buffer takes the records that fit; a summary period clears the counts of every up path; a path that
comes up sends its summary and one that goes down holds nothing. A change of the CAN error state sets both error flags; a PAUSE for the
management port holds its transmitter for its quanta, and one of zero quanta releases what was held; an ARP request for its address is
answered; a frame firmware sends takes its cells from the system pool. (R480, R482, R483, R484, R485, R486, R177, R196, R390) -/
def Obligations.TelemetryAndManagementPortsAct : Prop :=
  (∀ (s : Machine.State) (r : TelRec) (rs : List TelRec) (p : Nat), s.dev.alive = true → s.dev.tel.fresh = r :: rs → p < 4 → (s.dev.path p).up = true → s.dev.carries p r.rank = true → queueBytes (s.dev.path p).queue + r.len ≤ pathCap p → ∃ t, Machine.exec (.telemetryRecord) s = .next t ∧ t.dev.tel.fresh = rs ∧ (t.dev.path p).queue = (s.dev.path p).queue ++ [r]) ∧
  (∀ (s : Machine.State) (r : TelRec) (rs : List TelRec) (p : Nat), s.dev.alive = true → s.dev.tel.fresh = r :: rs → p < 4 → (s.dev.path p).up = false → ∃ t, Machine.exec (.telemetryRecord) s = .next t ∧ (t.dev.path p).queue = (s.dev.path p).queue ∧ (t.dev.path p).notOffered = stick32 ((s.dev.path p).notOffered + 1)) ∧
  (∀ (s : Machine.State) (code i : Nat) (on : Bool) (detail : Nat), s.dev.alive = true → alarmExists code i = true → (Tab.get {} s.dev.tel.alarms (alarmKey code i)).set ≠ on → ∃ t, Machine.exec (.alarmChange code i on detail) s = .next t ∧ (let a := Tab.get {} t.dev.tel.alarms (alarmKey code i); a.set = on ∧ a.seq = s.dev.tel.seq ∧ a.pend = s.dev.pathsUp ∧ a.count = stick 0xFFFF ((Tab.get {} s.dev.tel.alarms (alarmKey code i)).count + 1)) ∧ t.dev.tel.seq = (s.dev.tel.seq + 1) % 2 ^ 32) ∧
  (∀ (s : Machine.State) (k : Nat) (a : Alarm), s.dev.alive = true → s.dev.alarmDue = some (k, a) → ∃ t, Machine.exec (.alarmSend) s = .next t ∧ (let b := Tab.get {} t.dev.tel.alarms k; b.count = 0 ∧ b.pend = 0 ∧ b.set = a.set) ∧ (bit a.pend 3 = true → (s.dev.path 3).up = true → t.dev.out.head? = some (.tele 3 [a.toRec (k / 65536) (k % 65536)]))) ∧
  (∀ (s : Machine.State) (b : Fin 16) (ds : DmaDesc) (x : Nat) (rest : List (DmaDesc × Nat)), s.dev.alive = true → (Tab.get {} s.dev.host.dma b).recv = (ds, x) :: rest → (Tab.get {} s.dev.host.dma b).run = none → s.dev.oldestRecv x = true → (bufRecs ds.len (s.dev.path 0).queue).1 ≠ [] → ∃ t, Machine.exec (.recvBufferComplete b) s = .next t ∧ (let f := bufRecs ds.len (s.dev.path 0).queue; (t.dev.path 0).queue = f.2 ∧ (Tab.get {} t.dev.host.dma b).recv = rest ∧ (Tab.get {} t.dev.host.dma b).run = some { desc := ds, status := 0, bytes := ((f.1.map TelRec.bytes).flatten).length } ∧ .hostWrite none ds.haddr (padTo ds.len (f.1.map TelRec.bytes).flatten) ∈ t.dev.out)) ∧
  (∀ (s : Machine.State), s.dev.alive = true → ∃ t, Machine.exec (.summaryPeriod) s = .next t ∧ ∀ p, p < 4 → p ≠ 2 → (s.dev.path p).up = true → (t.dev.path p).up = true ∧ (t.dev.path p).drop = [] ∧ (t.dev.path p).prod = [] ∧ (t.dev.path p).notOffered = 0) ∧
  (∀ (s : Machine.State), s.dev.alive = true → (s.dev.path 3).up = false → ∃ t, Machine.exec (.pathUp 3) s = .next t ∧ (t.dev.path 3).up = true ∧ (t.dev.path 3).prod = [] ∧ t.dev.tel.seq = (s.dev.tel.seq + 1) % 2 ^ 32) ∧
  (∀ (s : Machine.State), s.dev.alive = true → (s.dev.path 0).up = false → s.dev.pciePath = true → ∃ t, Machine.exec (.pathUp 0) s = .next t ∧ (t.dev.path 0).up = true) ∧
  (∀ (s : Machine.State) (p : Fin 4), s.dev.alive = true → p.val = 1 ∨ p.val = 3 → ∃ t, Machine.exec (.pathDown p) s = .next t ∧ (t.dev.path p).up = false ∧ (t.dev.path p).queue = []) ∧
  (∀ (s : Machine.State), s.dev.alive = true → s.dev.pciePath = false → ∃ t, Machine.exec (.pathDown 0) s = .next t ∧ (t.dev.path 0).up = false ∧ (t.dev.path 0).queue = []) ∧
  (∀ (s : Machine.State) (passive busOff : Bool), s.dev.alive = true → s.dev.canNode ≠ 0 → s.dev.dict.nmt ≠ .off → ∃ t, Machine.exec (.canErrorStateChange passive busOff) s = .next t ∧ t.dev.dict = { s.dev.dict with canPassive := passive, canBusOff := busOff }) ∧
  (∀ (s : Machine.State) (fr : List Byte), s.dev.alive = true → s.dev.pwr.boardErr = 0 → etherType fr = 0x8808 → be fr 14 2 = 1 → fr.take 6 = s.dev.mgmtMac → 0 < be fr 16 2 → ∃ t, Machine.exec (.mgmtPortFrame fr) s = .next t ∧ t = { s with dev := { s.dev with dict := { s.dev.dict with mgmtPause := s.dev.now + 5120 * be fr 16 2 } } }) ∧
  (∀ (s : Machine.State) (fr : List Byte), s.dev.alive = true → s.dev.pwr.boardErr = 0 → etherType fr = 0x8808 → be fr 14 2 = 1 → fr.take 6 = s.dev.mgmtMac → be fr 16 2 = 0 → ∃ t, Machine.exec (.mgmtPortFrame fr) s = .next t ∧ t.dev.dict.mgmtPause = s.dev.now ∧ t.dev.dict.mgmtQ = [] ∧ t.dev.out = s.dev.dict.mgmtQ.reverse ++ s.dev.out) ∧
  (∀ (s : Machine.State) (fr : List Byte), s.dev.alive = true → s.dev.pwr.boardErr = 0 → s.dev.fwReady = true → s.dev.helds = false → s.dev.mgmtHeld = false → s.dev.dict.mgmtQ = [] → etherType fr = 0x0806 → be fr 14 2 = 1 → be fr 16 2 = 0x0800 → be fr 20 2 = 1 → zeros (leBytes 4 (s.dev.dvalN 0x2030 1 0)).reverse = false → sub fr 38 4 = (leBytes 4 (s.dev.dvalN 0x2030 1 0)).reverse → ∃ t, Machine.exec (.mgmtPortFrame fr) s = .next t ∧ t = { s with dev := s.dev.emit (.frameBytes 32 (arpReply s.dev.mgmtMac fr)) }) ∧
  (∀ (s : Machine.State) (n : Fin 32) (k : Fin 8) (fr : List Byte) (mark : Option (Nat × Option TStamp)), s.dev.alive = true → s.dev.fwReady = true → s.dev.helds = false → s.dev.ptpOk n fr mark.isSome = true → s.dev.flow.sysUsed + cellsOf (fr.length + 4) ≤ s.dev.rdN (gntBase + 8) → (s.dev.enqueue n k { pkt := none, len := fr.length + 4, cells := cellsOf (fr.length + 4), data := fr, mark := mark }).2 = true → ∃ t, Machine.exec (.slowPathTransmit n k fr mark) s = .next t ∧ t.dev.flow.sysUsed = s.dev.flow.sysUsed + cellsOf (fr.length + 4) ∧ (t.dev.egAt n k).items = (s.dev.egAt n k).items ++ [{ pkt := none, len := fr.length + 4, cells := cellsOf (fr.length + 4), data := fr, mark := mark }])
end

