-- ==== Sys2Proof/Laws/Control.lean ====
section
/-! SUPPORT. Every function of the machine that leaves security, power, the dictionary, firmware, the supplies and the clock as they were says so. -/

namespace Sys2Proof

@[simp] theorem Control.fold (d : Dev) : Control.mk d.sec d.pwr d.dict d.fw d.alive d.now d.pqRegs = d.control := by unfold Dev.control; rfl
@[simp] theorem Dev.control_mk (now free alive regs pqRegs host erl tel tmu cat pq lck ptn core mem flow store dict fw sec pwr out) : (Dev.mk now free alive regs pqRegs host erl tel tmu cat pq lck ptn core mem flow store dict fw sec pwr out).control = ⟨sec, pwr, dict, fw, alive, now, pqRegs⟩ := by unfold Dev.control; rfl
@[simp] theorem Dev.control_ite (c : Prop) [Decidable c] (a b : Dev) : (if c then a else b).control = if c then a.control else b.control := by split <;> rfl
@[simp] theorem Dev.control_ite1 {α : Type} (c : Prop) [Decidable c] (a b : Dev × α) : (if c then a else b).1.control = if c then a.1.control else b.1.control := by split <;> rfl
@[simp] theorem Dev.control_ite2 {α : Type} (c : Prop) [Decidable c] (a b : α × Dev) : (if c then a else b).2.control = if c then a.2.control else b.2.control := by split <;> rfl
@[simp] theorem Dev.control_foldl {α : Type} (f : Dev → α → Dev) (l : List α) (d : Dev) (h : ∀ e x, (f e x).control = e.control) : (l.foldl f d).control = d.control := by
  induction l generalizing d with
  | nil => rfl
  | cons a l ih => simp [ih, h]

/-! #### Ops -/

@[simp] theorem Dev.wr_control (d x1 x2) : (Dev.wr d x1 x2).control = d.control := by
  simp [Dev.wr]
@[simp] theorem Dev.wrN_control (d x1 x2) : (Dev.wrN d x1 x2).control = d.control := by
  simp [Dev.wrN]
@[simp] theorem Dev.count_control (d x1 x2) : (Dev.count d x1 x2).control = d.control := by
  simp [Dev.count]
@[simp] theorem Dev.wr64_control (d x1 x2) : (Dev.wr64 d x1 x2).control = d.control := by
  simp [Dev.wr64]
@[simp] theorem Dev.count64_control (d x1 x2) : (Dev.count64 d x1 x2).control = d.control := by
  simp [Dev.count64]
@[simp] theorem Dev.regsReset_control (d x1 x2) : (Dev.regsReset d x1 x2).control = d.control := by
  simp [Dev.regsReset]
@[simp] theorem Dev.emit_control (d x1) : (Dev.emit d x1).control = d.control := by
  simp [Dev.emit]
@[simp] theorem Dev.drawN_control (d) : (Dev.drawN d).2.control = d.control := by
  simp [Dev.drawN]
@[simp] theorem Dev.drawB_control (d) : (Dev.drawB d).2.control = d.control := by
  simp [Dev.drawB]
@[simp] theorem Dev.msixRaise_control (d x1 x2) : (Dev.msixRaise d x1 x2).control = d.control := by
  simp [Dev.msixRaise]
@[simp] theorem Dev.teleMake_control (d x1 x2 x3 x4 x5 x6) : (Dev.teleMake d x1 x2 x3 x4 x5 x6).control = d.control := by
  simp [Dev.teleMake]
@[simp] theorem Dev.event_control (d x1 x2) : (Dev.event d x1 x2).control = d.control := by
  unfold Dev.event
  (repeat' split) <;> simp
@[simp] theorem Dev.events_control (d x1 x2) : (Dev.events d x1 x2).control = d.control := by
  fun_induction Dev.events d x1 x2 <;> simp_all
@[simp] theorem Dev.enableWrite_control (d x1 x2) : (Dev.enableWrite d x1 x2).control = d.control := by
  unfold Dev.enableWrite
  (repeat' split) <;> simp
@[simp] theorem Dev.alarmSet_control (d x1 x2 x3 x4 x5) : (Dev.alarmSet d x1 x2 x3 x4 x5).control = d.control := by
  simp [Dev.alarmSet]
@[simp] theorem Dev.erlLost_control (d x1) : (Dev.erlLost d x1).control = d.control := by
  simp [Dev.erlLost]
@[simp] theorem Dev.reportE_control (d x1) : (Dev.reportE d x1).control = d.control := by
  unfold Dev.reportE
  (repeat' split) <;> simp
@[simp] theorem Dev.report_control (d x1 x2 x3 x4 x5) : (Dev.report d x1 x2 x3 x4 x5).control = d.control := by
  simp [Dev.report]
@[simp] theorem Dev.catPut_control (d x1) : (Dev.catPut d x1).control = d.control := by
  simp [Dev.catPut]
@[simp] theorem Dev.notice_control (d x1 x2 x3) : (Dev.notice d x1 x2 x3).control = d.control := by
  simp [Dev.notice]
@[simp] theorem Dev.pqSet_control (d x1 x2) : (Dev.pqSet d x1 x2).control = d.control := by
  simp [Dev.pqSet]
@[simp] theorem Dev.pqPush_control (d x1 x2 x3) : (Dev.pqPush d x1 x2 x3).1.control = d.control := by
  unfold Dev.pqPush
  dsimp only
  (repeat' split) <;> simp_all
@[simp] theorem Dev.pqEmpty_control (d x1) : (Dev.pqEmpty d x1).control = d.control := by
  simp [Dev.pqEmpty]
@[simp] theorem Dev.lckSet_control (d x1 x2) : (Dev.lckSet d x1 x2).control = d.control := by
  simp [Dev.lckSet]
@[simp] theorem Dev.lckAcquire_control (d x1 x2 x3) : (Dev.lckAcquire d x1 x2 x3).1.control = d.control := by
  fun_cases Dev.lckAcquire d x1 x2 x3 <;> simp_all
@[simp] theorem Dev.lckRelease_control (d x1 x2) : (Dev.lckRelease d x1 x2).control = d.control := by
  simp [Dev.lckRelease]
@[simp] theorem Dev.lckForce_control (d x1 x2) : (Dev.lckForce d x1 x2).control = d.control := by
  simp [Dev.lckForce]
@[simp] theorem Dev.lckForceList_control (d x1 x2) : (Dev.lckForceList d x1 x2).control = d.control := by
  fun_induction Dev.lckForceList d x1 x2 <;> simp_all
@[simp] theorem Dev.lckForceOwner_control (d x1 x2) : (Dev.lckForceOwner d x1 x2).control = d.control := by
  simp [Dev.lckForceOwner]
@[simp] theorem Dev.ptnSet_control (d x1 x2) : (Dev.ptnSet d x1 x2).control = d.control := by
  simp [Dev.ptnSet]
@[simp] theorem Dev.accErr_control (d x1 x2 x3 x4 x5) : (Dev.accErr d x1 x2 x3 x4 x5).control = d.control := by
  unfold Dev.accErr
  (repeat' split) <;> simp
@[simp] theorem Dev.accLog_control (d x1 x2 x3) : (Dev.accLog d x1 x2 x3).control = d.control := by
  simp [Dev.accLog]

/-! #### DieB -/

@[simp] theorem Dev.ringEvent_control (d x1 x2) : (Dev.ringEvent d x1 x2).control = d.control := by
  simp [Dev.ringEvent]
@[simp] theorem Dev.ringWrite_control (d x1) : (Dev.ringWrite d x1).control = d.control := by
  simp [Dev.ringWrite]
@[simp] theorem Dev.catUnhold_control (d x1) : (Dev.catUnhold d x1).control = d.control := by
  unfold Dev.catUnhold
  (repeat' split) <;> simp
@[simp] theorem Dev.catTake_control (d) : (Dev.catTake d).1.control = d.control := by
  unfold Dev.catTake
  (repeat' split) <;> simp
@[simp] theorem Dev.catRtail_control (d x1 x2 x3) : (Dev.catRtail d x1 x2 x3).control = d.control := by
  unfold Dev.catRtail
  (repeat' split) <;> simp
@[simp] theorem Dev.ringClear_control (d x1) : (Dev.ringClear d x1).control = d.control := by
  simp [Dev.ringClear]
@[simp] theorem Dev.pqCfg_control (d x1 x2 x3 x4 x5) : (Dev.pqCfg d x1 x2 x3 x4 x5).control = d.control := by
  simp [Dev.pqCfg]
@[simp] theorem Dev.pqDenied_control (d x1 x2 x3 x4) : (Dev.pqDenied d x1 x2 x3 x4).control = d.control := by
  unfold Dev.pqDenied
  (repeat' split) <;> simp
@[simp] theorem Dev.pqPushCtl_control (d x1 x2 x3) : (Dev.pqPushCtl d x1 x2 x3).control = d.control := by
  simp [Dev.pqPushCtl]
@[simp] theorem Dev.lckAcqWord_control (d x1 x2) : (Dev.lckAcqWord d x1 x2).1.control = d.control := by
  simp [Dev.lckAcqWord]
@[simp] theorem Dev.lckAcqRead_control (d x1 x2) : (Dev.lckAcqRead d x1 x2).control = d.control := by
  simp [Dev.lckAcqRead]
@[simp] theorem Dev.lckAcqWrite_control (d x1 x2) : (Dev.lckAcqWrite d x1 x2).control = d.control := by
  unfold Dev.lckAcqWrite
  (repeat' split) <;> simp
@[simp] theorem Dev.lckForceWrite_control (d x1 x2) : (Dev.lckForceWrite d x1 x2).control = d.control := by
  unfold Dev.lckForceWrite
  (repeat' split) <;> simp

/-! #### Tensor -/

@[simp] theorem Dev.csWrite_control (d x1 x2 x3) : (Dev.csWrite d x1 x2 x3).control = d.control := by
  simp [Dev.csWrite]
@[simp] theorem Dev.csZero_control (d x1) : (Dev.csZero d x1).control = d.control := by
  simp [Dev.csZero]
@[simp] theorem Dev.shWrite_control (d x1 x2 x3) : (Dev.shWrite d x1 x2 x3).control = d.control := by
  simp [Dev.shWrite]
@[simp] theorem Dev.shFromCore_control (d x1 x2 x3 x4 x5) : (Dev.shFromCore d x1 x2 x3 x4 x5).control = d.control := by
  unfold Dev.shFromCore
  (repeat' split) <;> simp
@[simp] theorem Dev.coreFromSh_control (d x1 x2 x3 x4 x5) : (Dev.coreFromSh d x1 x2 x3 x4 x5).control = d.control := by
  unfold Dev.coreFromSh
  (repeat' split) <;> simp
@[simp] theorem Dev.reportFree_control (d x1 x2 x3) : (Dev.reportFree d x1 x2 x3).control = d.control := by
  simp [Dev.reportFree]
@[simp] theorem Dev.hbmEcc_control (d x1 x2 x3) : (Dev.hbmEcc d x1 x2 x3).control = d.control := by
  unfold Dev.hbmEcc
  (repeat' split) <;> simp
@[simp] theorem Dev.msEcc_control (d x1 x2 x3) : (Dev.msEcc d x1 x2 x3).control = d.control := by
  unfold Dev.msEcc
  (repeat' split) <;> simp
@[simp] theorem Dev.shEcc_control (d x1 x2) : (Dev.shEcc d x1 x2).control = d.control := by
  simp [Dev.shEcc]
@[simp] theorem Dev.coreSet_control (d x1 x2) : (Dev.coreSet d x1 x2).control = d.control := by
  simp [Dev.coreSet]
@[simp] theorem Dev.coreUpd_control (d x1 x2) : (Dev.coreUpd d x1 x2).control = d.control := by
  simp [Dev.coreUpd]
@[simp] theorem Dev.setPc_control (d x1 x2) : (Dev.setPc d x1 x2).control = d.control := by
  simp [Dev.setPc]
@[simp] theorem Dev.tally_control (d x1 x2) : (Dev.tally d x1 x2).control = d.control := by
  simp [Dev.tally]
@[simp] theorem Dev.afterPost_control (d x1 x2 x3) : (Dev.afterPost d x1 x2 x3).control = d.control := by
  simp [Dev.afterPost]
@[simp] theorem Dev.corePost_control (d x1 x2 x3) : (Dev.corePost d x1 x2 x3).control = d.control := by
  unfold Dev.corePost
  (repeat' split) <;> simp
@[simp] theorem Dev.complete_control (d x1 x2 x3 x4 x5) : (Dev.complete d x1 x2 x3 x4 x5).control = d.control := by
  simp [Dev.complete]
@[simp] theorem Dev.afterWait_control (d x1 x2 x3) : (Dev.afterWait d x1 x2 x3).control = d.control := by
  unfold Dev.afterWait
  (repeat' split) <;> simp
@[simp] theorem Dev.releaseFree_control (d x1 x2) : (Dev.releaseFree d x1 x2).control = d.control := by
  fun_induction Dev.releaseFree d x1 x2 <;> simp_all
@[simp] theorem Dev.release_control (d x1) : (Dev.release d x1).control = d.control := by
  unfold Dev.release
  (repeat' split) <;> simp
@[simp] theorem Dev.catRecord_control (d x1) : (Dev.catRecord d x1).control = d.control := by
  simp [Dev.catRecord]
@[simp] theorem Dev.catTakeOne_control (d) : (Dev.catTakeOne d).control = d.control := by
  have h := Dev.catTake_control d
  unfold Dev.catTakeOne
  split <;> rename_i heq <;> rw [heq] at h
  · split <;> simpa using h
  · exact h
@[simp] theorem Dev.unwait_control (d x1) : (Dev.unwait d x1).control = d.control := by
  unfold Dev.unwait
  (repeat' split) <;> simp
@[simp] theorem Dev.tenFail_control (d x1 x2 x3 x4) : (Dev.tenFail d x1 x2 x3 x4).control = d.control := by
  simp [Dev.tenFail]
@[simp] theorem Dev.eccNote_control (d x1 x2) : (Dev.eccNote d x1 x2).control = d.control := by
  unfold Dev.eccNote
  (repeat' split) <;> simp
@[simp] theorem Dev.bankStalls_control (d x1) : (Dev.bankStalls d x1).control = d.control := by
  simp [Dev.bankStalls]
@[simp] theorem Dev.fill_control (d x1 x2) : (Dev.fill d x1 x2).control = d.control := by
  induction x2 generalizing d with
  | nil => rfl
  | cons a l ih => rw [Dev.fill, ih]; (repeat' split) <;> simp
theorem Dev.presentTile_control {d d1 : Dev} {c p w q} (h : d.presentTile c p w = .ok (d1, q)) : d1.control = d.control := by
  simp only [Dev.presentTile] at h
  split at h
  · cases h
  · simp only [Except.ok.injEq, Prod.mk.injEq] at h
    rw [← h.1]; simp
@[simp] theorem Dev.putCode_control (d x1 x2 x3 x4 x5) : (Dev.putCode d x1 x2 x3 x4 x5).control = d.control := by
  simp [Dev.putCode]
@[simp] theorem Dev.putCodes_control (d x1 x2 x3 x4 x5) : (Dev.putCodes d x1 x2 x3 x4 x5).control = d.control := by
  fun_induction Dev.putCodes d x1 x2 x3 x4 x5 <;> simp_all
@[simp] theorem Dev.putSides_control (d x1 x2 x3 x4) : (Dev.putSides d x1 x2 x3 x4).control = d.control := by
  fun_induction Dev.putSides d x1 x2 x3 x4 <;> simp_all
theorem Dev.linkAppend_control {d d1 : Dev} {c l xs} (h : d.linkAppend c l xs = .ok d1) : d1.control = d.control := by
  simp only [Dev.linkAppend] at h
  repeat' split at h
  all_goals first | (cases h; done) | (simp only [Except.ok.injEq] at h; rw [← h]; (repeat' split) <;> simp)
@[simp] theorem Dev.emitArray_control (d x1 x2 x3 x4) : (Dev.emitArray d x1 x2 x3 x4).control = d.control := by
  unfold Dev.emitArray
  dsimp only
  (repeat' split) <;> simp_all
@[simp] theorem Dev.emitArrays_control (d x1 x2 x3 x4) : (Dev.emitArrays d x1 x2 x3 x4).control = d.control := by
  fun_induction Dev.emitArrays d x1 x2 x3 x4 <;> simp_all
theorem Dev.emitPass_control {d d1 : Dev} {c p} (h : d.emitPass c p = .ok d1) : d1.control = d.control := by
  unfold Dev.emitPass at h
  split at h
  · exact Dev.linkAppend_control h
  · simp only [Except.ok.injEq] at h
    rw [← h]; simp

/-! #### TensorSeq -/

@[simp] theorem Dev.fetchCheck_control (d x1) : (Dev.fetchCheck d x1).control = d.control := by
  simp [Dev.fetchCheck]
@[simp] theorem Dev.nextPc_control (d x1) : (Dev.nextPc d x1).control = d.control := by
  simp [Dev.nextPc]
@[simp] theorem Dev.fetch_control (d x1 x2) : (Dev.fetch d x1 x2).control = d.control := by
  unfold Dev.fetch
  (repeat' split) <;> simp
theorem Dev.issue_control (d : Dev) (c op : Nat) (ecc : Ecc) (b : Bool) (rsv : Nat → Bool) (errs : Nat → Dev → List Nat)
    (body : Nat → Nat → Dev → Dev) (h : ∀ x y (e : Dev), (body x y e).control = e.control) :
    (d.issue c op ecc b rsv errs body).control = d.control := by
  unfold Dev.issue
  dsimp only
  repeat' split
  all_goals simp [h]
@[simp] theorem Dev.startPass_control (d x1 x2) : (Dev.startPass d x1 x2).control = d.control := by
  simp [Dev.startPass]
@[simp] theorem Dev.promote_control (d x1) : (Dev.promote d x1).control = d.control := by
  unfold Dev.promote
  dsimp only
  (repeat' split) <;> simp
@[simp] theorem Dev.coreFault_control (d x1) : (Dev.coreFault d x1).control = d.control := by
  simp [Dev.coreFault]
@[simp] theorem Dev.arrayFault_control (d x1 x2 x3) : (Dev.arrayFault d x1 x2 x3).control = d.control := by
  unfold Dev.arrayFault
  dsimp only
  (repeat' split) <;> simp
@[simp] theorem Dev.arrayFaultBy_control (d x1 x2 x3 x4) : (Dev.arrayFaultBy d x1 x2 x3 x4).control = d.control := by
  fun_cases Dev.arrayFaultBy d x1 x2 x3 x4 <;> simp_all +zetaDelta
@[simp] theorem Dev.passTaken_control (d x1 x2 x3) : (Dev.passTaken d x1 x2 x3).control = d.control := by
  simp [Dev.passTaken]
@[simp] theorem Dev.operandEcc_control (d x1 x2 x3) : (Dev.operandEcc d x1 x2 x3).control = d.control := by
  fun_cases Dev.operandEcc d x1 x2 x3 <;> simp_all +zetaDelta
@[simp] theorem Dev.doPass_control (d x1 x2) : (Dev.doPass d x1 x2).control = d.control := by
  refine Dev.issue_control _ _ _ _ _ _ _ _ ?_
  intros
  dsimp only
  repeat' split
  all_goals simp
@[simp] theorem Dev.tileChange_control (d x1 x2 x3) : (Dev.tileChange d x1 x2 x3).control = d.control := by
  unfold Dev.tileChange
  dsimp only
  repeat' split
  all_goals first | (simp; done) | (rename_i heq; simp [Dev.presentTile_control heq])
@[simp] theorem Dev.bankExchange_control (d x1) : (Dev.bankExchange d x1).control = d.control := by
  fun_cases Dev.bankExchange d x1 <;> simp_all
@[simp] theorem Dev.passCommit_control (d c) : (Dev.passCommit d c).control = d.control := by
  unfold Dev.passCommit
  dsimp only
  repeat' split
  all_goals first | (simp; done) | (rename_i heq; simp [Dev.emitPass_control heq])
@[simp] theorem Dev.emitError_control (d x1 x2) : (Dev.emitError d x1 x2).control = d.control := by
  fun_cases Dev.emitError d x1 x2 <;> simp_all
@[simp] theorem Dev.doWalk_control (d c e) : (Dev.doWalk d c e).control = d.control := by
  unfold Dev.doWalk
  apply Dev.issue_control
  intros
  (repeat' split) <;> simp
@[simp] theorem Dev.doLink_control (d c e) : (Dev.doLink d c e).control = d.control := by
  unfold Dev.doLink
  apply Dev.issue_control
  intros
  (repeat' split) <;> simp
@[simp] theorem Dev.linkComplete_control (d x1 x2) : (Dev.linkComplete d x1 x2).control = d.control := by
  unfold Dev.linkComplete
  (repeat' split) <;> simp
@[simp] theorem Dev.mvWrite_control (d x1 x2 x3 x4) : (Dev.mvWrite d x1 x2 x3 x4).control = d.control := by
  simp [Dev.mvWrite]
@[simp] theorem Dev.freeBytes_control (d x1) : (Dev.freeBytes d x1).2.control = d.control := by
  simp [Dev.freeBytes]
@[simp] theorem Dev.moveEncode_control (d x1 x2 x3 x4 x5) : (Dev.moveEncode d x1 x2 x3 x4 x5).control = d.control := by
  simp [Dev.moveEncode]
@[simp] theorem Dev.moveDecode_control (d x1 x2 x3 x4 x5) : (Dev.moveDecode d x1 x2 x3 x4 x5).control = d.control := by
  simp [Dev.moveDecode]
@[simp] theorem Dev.moveSpan_control (d x1 x2 x3) : (Dev.moveSpan d x1 x2 x3).control = d.control := by
  unfold Dev.moveSpan
  dsimp only
  (repeat' split) <;> simp
@[simp] theorem Dev.moveEcc_control (d x1 x2) : (Dev.moveEcc d x1 x2).1.control = d.control := by
  simp [Dev.moveEcc]
@[simp] theorem Dev.runMove_control (d c) : (Dev.runMove d c).control = d.control := by
  unfold Dev.runMove
  repeat' split
  all_goals first | (simp; done) | (rename_i heq; have h := congrArg (fun r => r.1.control) heq; simp at h; simp [← h])
@[simp] theorem Dev.doMove_control (d c e) : (Dev.doMove d c e).control = d.control := by
  unfold Dev.doMove
  apply Dev.issue_control
  intros
  (repeat' split) <;> simp
@[simp] theorem Dev.moveEnd_control (d x1 x2 x3) : (Dev.moveEnd d x1 x2 x3).control = d.control := by
  simp [Dev.moveEnd]
@[simp] theorem Dev.moveComplete_control (d x1) : (Dev.moveComplete d x1).control = d.control := by
  unfold Dev.moveComplete
  (repeat' split) <;> simp
@[simp] theorem Dev.moveStop_control (d x1) : (Dev.moveStop d x1).control = d.control := by
  unfold Dev.moveStop
  (repeat' split) <;> simp
@[simp] theorem Dev.waitqEnd_control (d x1 x2) : (Dev.waitqEnd d x1 x2).control = d.control := by
  unfold Dev.waitqEnd
  (repeat' split) <;> simp
@[simp] theorem Dev.doWaitq_control (d c e) : (Dev.doWaitq d c e).control = d.control := by
  unfold Dev.doWaitq
  apply Dev.issue_control
  intros
  dsimp only
  repeat' split
  all_goals simp
@[simp] theorem Dev.waiterPop_control (d x1) : (Dev.waiterPop d x1).control = d.control := by
  fun_cases Dev.waiterPop d x1 <;> simp_all
@[simp] theorem Dev.waitqTimeout_control (d x1) : (Dev.waitqTimeout d x1).control = d.control := by
  unfold Dev.waitqTimeout
  (repeat' split) <;> simp
@[simp] theorem Dev.doSignal_control (d c e) : (Dev.doSignal d c e).control = d.control := by
  unfold Dev.doSignal
  apply Dev.issue_control
  intros
  (repeat' split) <;> simp
@[simp] theorem Dev.lockEnd_control (d x1 x2) : (Dev.lockEnd d x1 x2).control = d.control := by
  simp [Dev.lockEnd]
@[simp] theorem Dev.lockRead_control (d x1 x2 x3) : (Dev.lockRead d x1 x2 x3).control = d.control := by
  simp [Dev.lockRead]
@[simp] theorem Dev.doLock_control (d c e) : (Dev.doLock d c e).control = d.control := by
  unfold Dev.doLock
  apply Dev.issue_control
  intros
  (repeat' split) <;> simp
@[simp] theorem Dev.lockRetry_control (d x1) : (Dev.lockRetry d x1).control = d.control := by
  unfold Dev.lockRetry
  (repeat' split) <;> simp
@[simp] theorem Dev.lockTimeout_control (d x1) : (Dev.lockTimeout d x1).control = d.control := by
  unfold Dev.lockTimeout
  (repeat' split) <;> simp
@[simp] theorem Dev.doJump_control (d c e) : (Dev.doJump d c e).control = d.control := by
  refine Dev.issue_control _ _ _ _ _ _ _ _ ?_
  intros
  dsimp only
  (repeat' split) <;> simp
@[simp] theorem Dev.doNop_control (d c e) : (Dev.doNop d c e).control = d.control := by
  refine Dev.issue_control _ _ _ _ _ _ _ _ ?_
  intros
  simp
@[simp] theorem Dev.doEnd_control (d c e) : (Dev.doEnd d c e).control = d.control := by
  refine Dev.issue_control _ _ _ _ _ _ _ _ ?_
  intros
  simp

/-! #### TensorCtl -/

@[simp] theorem Dev.tenRun_control (d x1) : (Dev.tenRun d x1).control = d.control := by
  simp [Dev.tenRun]
@[simp] theorem Dev.writeSave_control (d x1 x2) : (Dev.writeSave d x1 x2).control = d.control := by
  simp [Dev.writeSave]
@[simp] theorem Dev.tenPreempt_control (d x1) : (Dev.tenPreempt d x1).control = d.control := by
  unfold Dev.tenPreempt
  (repeat' split) <;> simp
@[simp] theorem Dev.commitAll_control (d x1 x2) : (Dev.commitAll d x1 x2).control = d.control := by
  fun_induction Dev.commitAll d x1 x2 <;> simp_all
@[simp] theorem Dev.linksFinish_control (d : Dev) (c : Nat) (ks : List Nat) : (Dev.linksFinish d c ks).control = d.control := by
  induction ks generalizing d with
  | nil => rfl
  | cons k ks ih =>
    rw [Dev.linksFinish, ih]
    (repeat' split) <;> simp
@[simp] theorem Dev.preemptSaved_control (d c) : (Dev.preemptSaved d c).control = d.control := by
  unfold Dev.preemptSaved
  dsimp only
  (repeat' split) <;> simp
@[simp] theorem Dev.rebase_control (d x1) : (Dev.rebase d x1).control = d.control := by
  simp [Dev.rebase]
@[simp] theorem Dev.tenResume_control (d x1) : (Dev.tenResume d x1).control = d.control := by
  simp [Dev.tenResume]
@[simp] theorem Dev.tenRegsReset_control (d x1) : (Dev.tenRegsReset d x1).control = d.control := by
  simp [Dev.tenRegsReset]
@[simp] theorem Dev.tenReset_control (d x1) : (Dev.tenReset d x1).control = d.control := by
  simp [Dev.tenReset]
@[simp] theorem Dev.tenLock_control (d x1) : (Dev.tenLock d x1).control = d.control := by
  simp [Dev.tenLock]
@[simp] theorem Dev.tenCtrl_control (d x1 x2 x3) : (Dev.tenCtrl d x1 x2 x3).control = d.control := by
  unfold Dev.tenCtrl
  (repeat' split) <;> simp

/-! #### PortBase -/

@[simp] theorem Dev.reportNamed_control (d x1 x2 x3 x4) : (Dev.reportNamed d x1 x2 x3 x4).control = d.control := by
  simp [Dev.reportNamed]
@[simp] theorem Dev.prtCount_control (d x1 x2 x3) : (Dev.prtCount d x1 x2 x3).control = d.control := by
  simp [Dev.prtCount]
@[simp] theorem Dev.portSet_control (d x1 x2) : (Dev.portSet d x1 x2).control = d.control := by
  simp [Dev.portSet]
@[simp] theorem Dev.portUpd_control (d x1 x2) : (Dev.portUpd d x1 x2).control = d.control := by
  simp [Dev.portUpd]
@[simp] theorem Dev.onLane_control (d x1) : (Dev.onLane d x1).control = d.control := by
  simp [Dev.onLane]
@[simp] theorem Dev.pktSet_control (d x1 x2) : (Dev.pktSet d x1 x2).control = d.control := by
  simp [Dev.pktSet]
@[simp] theorem Dev.pktUpd_control (d x1 x2) : (Dev.pktUpd d x1 x2).control = d.control := by
  simp [Dev.pktUpd]
@[simp] theorem Dev.egSet_control (d x1 x2 x3) : (Dev.egSet d x1 x2 x3).control = d.control := by
  simp [Dev.egSet]
@[simp] theorem Dev.dropItem_control (d x1) : (Dev.dropItem d x1).control = d.control := by
  unfold Dev.dropItem
  (repeat' split) <;> simp
@[simp] theorem Dev.dropItems_control (d x1) : (Dev.dropItems d x1).control = d.control := by
  fun_induction Dev.dropItems d x1 <;> simp_all
@[simp] theorem Dev.flushPort_control (d x1) : (Dev.flushPort d x1).control = d.control := by
  simp [Dev.flushPort]
@[simp] theorem Dev.flushDead_control (d x1) : (Dev.flushDead d x1).control = d.control := by
  fun_induction Dev.flushDead d x1 <;> simp_all
@[simp] theorem Dev.qRefresh_control (d x1 x2) : (Dev.qRefresh d x1 x2).control = d.control := by
  simp [Dev.qRefresh]
@[simp] theorem Dev.qRefreshAll_control (d : Dev) (n : Nat) (qs : List Nat) : (Dev.qRefreshAll d n qs).control = d.control := by
  induction qs generalizing d with
  | nil => rfl
  | cons q qs ih => simp [Dev.qRefreshAll, ih]
@[simp] theorem Dev.promoClear_control (d : Dev) (n : Nat) (qs : List Nat) : (Dev.promoClear d n qs).control = d.control := by
  induction qs generalizing d with
  | nil => rfl
  | cons q qs ih => simp [Dev.promoClear, ih]

/-! #### Macsec -/

@[simp] theorem Dev.saSet_control (d x1 x2) : (Dev.saSet d x1 x2).control = d.control := by
  simp [Dev.saSet]
@[simp] theorem Dev.msIngress_control (d x1 x2) : (Dev.msIngress d x1 x2).1.control = d.control := by
  unfold Dev.msIngress
  dsimp only
  (repeat' split) <;> simp
@[simp] theorem Dev.msEgress_control (d n it) : (Dev.msEgress d n it).1.control = d.control := by
  unfold Dev.msEgress
  dsimp only
  (repeat' split) <;> simp

/-! #### Ports -/

@[simp] theorem Dev.pauseEmit_control (d x1 x2 x3) : (Dev.pauseEmit d x1 x2 x3).control = d.control := by
  simp [Dev.pauseEmit]
@[simp] theorem Dev.sendPause_control (d x1 x2 x3) : (Dev.sendPause d x1 x2 x3).control = d.control := by
  simp [Dev.sendPause]
@[simp] theorem Dev.pauseList_control (d x1 x2) : (Dev.pauseList d x1 x2).control = d.control := by
  fun_induction Dev.pauseList d x1 x2 <;> simp_all
@[simp] theorem Dev.pauseCheck1_control (d x1 x2) : (Dev.pauseCheck1 d x1 x2).control = d.control := by
  simp [Dev.pauseCheck1]
@[simp] theorem Dev.pauseCheckList_control (d x1 x2) : (Dev.pauseCheckList d x1 x2).control = d.control := by
  fun_induction Dev.pauseCheckList d x1 x2 <;> simp_all
@[simp] theorem Dev.pauseCheck_control (d x1) : (Dev.pauseCheck d x1).control = d.control := by
  simp [Dev.pauseCheck]
@[simp] theorem Dev.pauseRepeat_control (d x1 x2) : (Dev.pauseRepeat d x1 x2).control = d.control := by
  simp [Dev.pauseRepeat]
@[simp] theorem Dev.stormTx_control (d x1 x2) : (Dev.stormTx d x1 x2).control = d.control := by
  simp [Dev.stormTx]
@[simp] theorem Dev.timerEnd_control (d x1 x2) : (Dev.timerEnd d x1 x2).control = d.control := by
  simp [Dev.timerEnd]
@[simp] theorem Dev.pauseLoad_control (d x1 x2 x3) : (Dev.pauseLoad d x1 x2 x3).control = d.control := by
  simp [Dev.pauseLoad]
@[simp] theorem Dev.pauseFrame_control (d x1 x2 x3 x4) : (Dev.pauseFrame d x1 x2 x3 x4).control = d.control := by
  simp [Dev.pauseFrame]
@[simp] theorem Dev.pfcLoads_control (d x1 x2 x3) : (Dev.pfcLoads d x1 x2 x3).control = d.control := by
  fun_induction Dev.pfcLoads d x1 x2 x3 <;> simp_all
@[simp] theorem Dev.pfcFrame_control (d x1 x2 x3 x4 x5) : (Dev.pfcFrame d x1 x2 x3 x4 x5).control = d.control := by
  simp [Dev.pfcFrame]
@[simp] theorem Dev.pauseExpire_control (d x1 x2) : (Dev.pauseExpire d x1 x2).control = d.control := by
  simp [Dev.pauseExpire]
@[simp] theorem Dev.stormRx_control (d x1 x2) : (Dev.stormRx d x1 x2).control = d.control := by
  simp [Dev.stormRx]
@[simp] theorem Dev.stormRxQuiet_control (d x1 x2) : (Dev.stormRxQuiet d x1 x2).control = d.control := by
  simp [Dev.stormRxQuiet]
@[simp] theorem Dev.deliver_control (d x1 x2 x3 x4) : (Dev.deliver d x1 x2 x3 x4).control = d.control := by
  simp [Dev.deliver]
@[simp] theorem Dev.frameReceive_control (d x1 x2) : (Dev.frameReceive d x1 x2).control = d.control := by
  unfold Dev.frameReceive
  dsimp only
  repeat' split
  all_goals first | (simp; done) | (rename_i heq; have h := congrArg (fun r => r.1.control) heq; simp at h; simp [← h])
@[simp] theorem Dev.stomp_control (d x1 x2) : (Dev.stomp d x1 x2).control = d.control := by
  induction x2 generalizing d with
  | nil => rfl
  | cons a l ih => rw [Dev.stomp, ih]; (repeat' split) <;> simp
@[simp] theorem Dev.unqueue_control (d x1 x2) : (Dev.unqueue d x1 x2).control = d.control := by
  fun_induction Dev.unqueue d x1 x2 <;> simp_all
@[simp] theorem Dev.refreshHeads_control (d x1 x2) : (Dev.refreshHeads d x1 x2).control = d.control := by
  induction x2 generalizing d with
  | nil => rfl
  | cons a l ih => rw [Dev.refreshHeads, ih]; (repeat' split) <;> simp
@[simp] theorem Dev.frameEnd_control (d x1 x2) : (Dev.frameEnd d x1 x2).control = d.control := by
  unfold Dev.frameEnd
  (repeat' split) <;> simp
@[simp] theorem Dev.freePkt_control (d x1) : (Dev.freePkt d x1).control = d.control := by
  simp [Dev.freePkt]
@[simp] theorem Dev.txAbort_control (d x1) : (Dev.txAbort d x1).control = d.control := by
  unfold Dev.txAbort
  (repeat' split) <;> simp
@[simp] theorem Dev.linkDown_control (d x1) : (Dev.linkDown d x1).control = d.control := by
  simp [Dev.linkDown]
@[simp] theorem Dev.retrain_control (d x1) : (Dev.retrain d x1).control = d.control := by
  simp [Dev.retrain]
@[simp] theorem Dev.retrainList_control (d x1) : (Dev.retrainList d x1).control = d.control := by
  fun_induction Dev.retrainList d x1 <;> simp_all
@[simp] theorem Dev.linkChange_control (d x1 x2 x3 x4) : (Dev.linkChange d x1 x2 x3 x4).control = d.control := by
  simp [Dev.linkChange]
@[simp] theorem Dev.failsafeAssert_control (d) : (Dev.failsafeAssert d).control = d.control := by
  simp [Dev.failsafeAssert]
@[simp] theorem Dev.dieFLoss_control (d) : (Dev.dieFLoss d).control = d.control := by
  simp [Dev.dieFLoss]
@[simp] theorem Dev.failsafeRelease_control (d x1) : (Dev.failsafeRelease d x1).control = d.control := by
  simp [Dev.failsafeRelease]
@[simp] theorem Dev.pairWait_control (d x1) : (Dev.pairWait d x1).control = d.control := by
  simp [Dev.pairWait]

/-! #### Classify -/

@[simp] theorem Dev.parCount_control (d x1) : (Dev.parCount d x1).control = d.control := by
  simp [Dev.parCount]
@[simp] theorem Dev.clsCount_control (d x1) : (Dev.clsCount d x1).control = d.control := by
  simp [Dev.clsCount]
@[simp] theorem Dev.clsCounts_control (d x1) : (Dev.clsCounts d x1).control = d.control := by
  fun_induction Dev.clsCounts d x1 <;> simp_all
@[simp] theorem Dev.seqGap_control (d x1 x2) : (Dev.seqGap d x1 x2).control = d.control := by
  simp [Dev.seqGap]
@[simp] theorem Dev.verUpd_control (d x1 x2) : (Dev.verUpd d x1 x2).control = d.control := by
  simp [Dev.verUpd]
@[simp] theorem Dev.leaveVer_control (d x1) : (Dev.leaveVer d x1).control = d.control := by
  simp [Dev.leaveVer]
@[simp] theorem Dev.tplUpd_control (d x1 x2) : (Dev.tplUpd d x1 x2).control = d.control := by
  simp [Dev.tplUpd]
@[simp] theorem Dev.stageObj_control (d x1 x2 x3) : (Dev.stageObj d x1 x2 x3).control = d.control := by
  unfold Dev.stageObj
  (repeat' split) <;> simp
@[simp] theorem Dev.stageAll_control (d x1 x2 x3) : (Dev.stageAll d x1 x2 x3).control = d.control := by
  fun_induction Dev.stageAll d x1 x2 x3 <;> simp_all
@[simp] theorem Dev.commit_control (d x1) : (Dev.commit d x1).1.control = d.control := by
  unfold Dev.commit
  (repeat' split) <;> simp
@[simp] theorem Dev.retire_control (d) : (Dev.retire d).control = d.control := by
  unfold Dev.retire
  (repeat' split) <;> simp
@[simp] theorem Dev.treeEvent_control (d x1 x2 x3 x4 x5) : (Dev.treeEvent d x1 x2 x3 x4 x5).control = d.control := by
  simp [Dev.treeEvent]
@[simp] theorem Dev.sweepRecs_control (d x1 x2) : (Dev.sweepRecs d x1 x2).control = d.control := by
  fun_induction Dev.sweepRecs d x1 x2 <;> simp_all +zetaDelta
@[simp] theorem Dev.sweep_control (d) : (Dev.sweep d).control = d.control := by
  unfold Dev.sweep
  (repeat' split) <;> simp
@[simp] theorem Dev.sweepEnd_control (d) : (Dev.sweepEnd d).control = d.control := by
  simp [Dev.sweepEnd]
@[simp] theorem Dev.puntToken_control (d x1 x2) : (Dev.puntToken d x1 x2).1.control = d.control := by
  simp [Dev.puntToken]
@[simp] theorem Dev.puntOffer_control (d x1 x2 x3) : (Dev.puntOffer d x1 x2 x3).1.control = d.control := by
  simp [Dev.puntOffer]
@[simp] theorem Dev.pktGone_control (d x1) : (Dev.pktGone d x1).control = d.control := by
  simp [Dev.pktGone]
@[simp] theorem Dev.puntPkt_control (d x1 x2 x3 x4 x5 x6) : (Dev.puntPkt d x1 x2 x3 x4 x5 x6).control = d.control := by
  simp [Dev.puntPkt]
@[simp] theorem Dev.nextHand_control (d) : (Dev.nextHand d).control = d.control := by
  simp [Dev.nextHand]
@[simp] theorem Dev.reinject_control (d x1 x2 x3) : (Dev.reinject d x1 x2 x3).control = d.control := by
  unfold Dev.reinject
  dsimp only
  (repeat' split) <;> simp_all
@[simp] theorem Dev.puntRelease_control (d x1 x2) : (Dev.puntRelease d x1 x2).control = d.control := by
  unfold Dev.puntRelease
  dsimp only
  (repeat' split) <;> simp
@[simp] theorem Dev.take1_control (d x1 x2) : (Dev.take1 d x1 x2).control = d.control := by
  simp [Dev.take1]
@[simp] theorem Dev.dispatchFrom_control (d x1 x2) : (Dev.dispatchFrom d x1 x2).control = d.control := by
  fun_induction Dev.dispatchFrom d x1 x2 <;> simp_all
@[simp] theorem Dev.dispatchTake_control (d) : (Dev.dispatchTake d).control = d.control := by
  simp [Dev.dispatchTake]
@[simp] theorem Dev.parseResult_control (d x1) : (Dev.parseResult d x1).control = d.control := by
  unfold Dev.parseResult
  dsimp only
  (repeat' split) <;> simp_all
@[simp] theorem Dev.byDefault_control (d x1 x2 x3) : (Dev.byDefault d x1 x2 x3).control = d.control := by
  simp [Dev.byDefault]
@[simp] theorem Dev.classify_control (d) : (Dev.classify d).control = d.control := by
  unfold Dev.classify
  dsimp only
  (repeat' split) <;> simp_all

/-! #### Flows -/

@[simp] theorem Dev.flwCount_control (d x1) : (Dev.flwCount d x1).control = d.control := by
  simp [Dev.flwCount]
@[simp] theorem Dev.flowSet_control (d x1 x2) : (Dev.flowSet d x1 x2).control = d.control := by
  simp [Dev.flowSet]
@[simp] theorem Dev.flowRecord_control (d x1 x2) : (Dev.flowRecord d x1 x2).control = d.control := by
  simp [Dev.flowRecord]
@[simp] theorem Dev.flowFind_control (d x1 x2) : (Dev.flowFind d x1 x2).1.control = d.control := by
  unfold Dev.flowFind
  dsimp only
  (repeat' split) <;> simp_all
@[simp] theorem Dev.bind_control (d) : (Dev.bind d).control = d.control := by
  unfold Dev.bind
  dsimp only
  (repeat' split) <;> simp
@[simp] theorem Dev.agingScan_control (d) : (Dev.agingScan d).control = d.control := by
  simp [Dev.agingScan]
@[simp] theorem Dev.entSetState_control (d x1 x2) : (Dev.entSetState d x1 x2).control = d.control := by
  simp [Dev.entSetState]
@[simp] theorem Dev.makeStale_control (d x1 x2) : (Dev.makeStale d x1 x2).control = d.control := by
  unfold Dev.makeStale
  dsimp only
  (repeat' split) <;> simp_all
@[simp] theorem Dev.makeStaleList_control (d x1 x2) : (Dev.makeStaleList d x1 x2).control = d.control := by
  fun_induction Dev.makeStaleList d x1 x2 <;> simp_all
@[simp] theorem Dev.assignRange_control (d x1 x2 x3) : (Dev.assignRange d x1 x2 x3).control = d.control := by
  simp [Dev.assignRange]
@[simp] theorem Dev.fidx_control (d x1) : (Dev.fidx d x1).control = d.control := by
  simp [Dev.fidx]
@[simp] theorem Dev.eidx_control (d x1) : (Dev.eidx d x1).control = d.control := by
  simp [Dev.eidx]
@[simp] theorem Dev.polSet_control (d x1 x2) : (Dev.polSet d x1 x2).control = d.control := by
  simp [Dev.polSet]
@[simp] theorem Dev.flowMark_control (d x1 x2) : (Dev.flowMark d x1 x2).control = d.control := by
  unfold Dev.flowMark
  (repeat' split) <;> simp
@[simp] theorem Dev.police_control (d) : (Dev.police d).control = d.control := by
  unfold Dev.police
  (repeat' split) <;> simp
@[simp] theorem Dev.policerWrite_control (d x1 x2 x3 x4 x5 x6 x7) : (Dev.policerWrite d x1 x2 x3 x4 x5 x6 x7).control = d.control := by
  simp [Dev.policerWrite]
@[simp] theorem Dev.pidx_control (d x1 x2) : (Dev.pidx d x1 x2).control = d.control := by
  simp [Dev.pidx]

/-! #### Score -/

@[simp] theorem Dev.treCount_control (d x1 x2) : (Dev.treCount d x1 x2).control = d.control := by
  simp [Dev.treCount]
@[simp] theorem Dev.recSet_control (d x1 x2) : (Dev.recSet d x1 x2).control = d.control := by
  simp [Dev.recSet]
@[simp] theorem Dev.sqSet_control (d x1 x2) : (Dev.sqSet d x1 x2).control = d.control := by
  simp [Dev.sqSet]
@[simp] theorem Dev.scoreDrop_control (d x1) : (Dev.scoreDrop d x1).control = d.control := by
  unfold Dev.scoreDrop
  (repeat' split) <;> simp
@[simp] theorem Dev.dropEnd_control (d x1) : (Dev.dropEnd d x1).control = d.control := by
  unfold Dev.dropEnd
  (repeat' split) <;> simp
@[simp] theorem Dev.scoreNone_control (d x1 x2) : (Dev.scoreNone d x1 x2).control = d.control := by
  simp [Dev.scoreNone]
@[simp] theorem Dev.scoreAdmit_control (d) : (Dev.scoreAdmit d).control = d.control := by
  fun_cases Dev.scoreAdmit d <;> simp_all
@[simp] theorem Dev.grantHead_control (d x1 x2 x3 x4) : (Dev.grantHead d x1 x2 x3 x4).control = d.control := by
  simp [Dev.grantHead]
@[simp] theorem Dev.grantEns_control (d x1 x2 x3) : (Dev.grantEns d x1 x2 x3).1.control = d.control := by
  fun_induction Dev.grantEns d x1 x2 x3 <;> simp_all
@[simp] theorem Dev.grantFrom_control (d : Dev) (es free : List Nat) : (Dev.grantFrom d es free).control = d.control := by
  induction es generalizing d free with
  | nil => rfl
  | cons e es ih => simp [Dev.grantFrom, ih]
@[simp] theorem Dev.scoreGrant_control (d) : (Dev.scoreGrant d).control = d.control := by
  simp [Dev.scoreGrant]
@[simp] theorem Dev.copyUpd_control (d x1 x2 x3) : (Dev.copyUpd d x1 x2 x3).control = d.control := by
  simp [Dev.copyUpd]
@[simp] theorem Dev.failQueued_control (d x1 x2 x3) : (Dev.failQueued d x1 x2 x3).control = d.control := by
  fun_induction Dev.failQueued d x1 x2 x3 <;> simp_all
@[simp] theorem Dev.slotParity_control (d x1 x2 x3) : (Dev.slotParity d x1 x2 x3).control = d.control := by
  unfold Dev.slotParity
  (repeat' split) <;> simp
@[simp] theorem Dev.scoreDeliver_control (d x1) : (Dev.scoreDeliver d x1).control = d.control := by
  unfold Dev.scoreDeliver
  dsimp only
  (repeat' split) <;> simp
@[simp] theorem Dev.slotReloaded_control (d x1) : (Dev.slotReloaded d x1).control = d.control := by
  unfold Dev.slotReloaded
  (repeat' split) <;> simp
@[simp] theorem Dev.fabricScrub_control (d x1) : (Dev.fabricScrub d x1).control = d.control := by
  unfold Dev.fabricScrub
  (repeat' split) <;> simp

/-! #### Egress -/

@[simp] theorem Dev.visCount_control (d x1) : (Dev.visCount d x1).control = d.control := by
  simp [Dev.visCount]
@[simp] theorem Dev.visorVerdict_control (d) : (Dev.visorVerdict d).control = d.control := by
  unfold Dev.visorVerdict
  dsimp only
  (repeat' split) <;> simp_all
@[simp] theorem Dev.taggedQuiet_control (d x1) : (Dev.taggedQuiet d x1).control = d.control := by
  simp [Dev.taggedQuiet]
@[simp] theorem Dev.noteFileable_control (d x1) : (Dev.noteFileable d x1).control = d.control := by
  simp [Dev.noteFileable]
@[simp] theorem Dev.noteFileables_control (d x1) : (Dev.noteFileables d x1).control = d.control := by
  fun_induction Dev.noteFileables d x1 <;> simp_all
@[simp] theorem Dev.settle_control (d x1) : (Dev.settle d x1).control = d.control := by
  simp [Dev.settle]
@[simp] theorem Dev.release1_control (d x1) : (Dev.release1 d x1).1.control = d.control := by
  unfold Dev.release1
  dsimp only
  (repeat' split) <;> simp_all
@[simp] theorem Dev.releasePort_control (d : Dev) (n k : Nat) : (Dev.releasePort d n k).control = d.control := by
  induction k generalizing d with
  | zero => rfl
  | succ k ih =>
    have h := Dev.release1_control d n
    unfold Dev.releasePort
    split <;> rename_i heq <;> rw [heq] at h <;> simp_all
@[simp] theorem Dev.reorderRelease_control (d x1) : (Dev.reorderRelease d x1).control = d.control := by
  simp [Dev.reorderRelease]
@[simp] theorem Dev.enqueue_control (d x1 x2 x3) : (Dev.enqueue d x1 x2 x3).1.control = d.control := by
  unfold Dev.enqueue
  dsimp only
  (repeat' split) <;> simp_all
@[simp] theorem Dev.mirrorCopy_control (d x1 x2 x3) : (Dev.mirrorCopy d x1 x2 x3).control = d.control := by
  simp [Dev.mirrorCopy]
@[simp] theorem Dev.egressEnqueue_control (d) : (Dev.egressEnqueue d).control = d.control := by
  unfold Dev.egressEnqueue
  (repeat' split) <;> simp
@[simp] theorem Dev.drrPick_control (d : Dev) (n b k q : Nat) (h : Bool) : (Dev.drrPick d n b k q h).1.control = d.control := by
  induction k generalizing d q h with
  | zero => rfl
  | succ k ih =>
    unfold Dev.drrPick
    dsimp only
    repeat' split
    all_goals simp [ih]
@[simp] theorem Dev.txStamp_control (d x1 x2) : (Dev.txStamp d x1 x2).1.control = d.control := by
  unfold Dev.txStamp
  dsimp only
  (repeat' split) <;> simp_all
@[simp] theorem Dev.txStart_control (d x1 x2 x3 x4) : (Dev.txStart d x1 x2 x3 x4).control = d.control := by
  unfold Dev.txStart
  cases hx : (d.egAt x1 x2).items with
  | nil => simp [hx]
  | cons it rest =>
    have h := Dev.msEgress_control (d.txStamp x1 it).1 x1 (d.txStamp x1 it).2
    cases hm : Dev.msEgress (d.txStamp x1 it).1 x1 (d.txStamp x1 it).2 with
    | mk e o => cases o <;> simp_all
@[simp] theorem Dev.promote1_control (d x1 x2) : (Dev.promote1 d x1 x2).control = d.control := by
  unfold Dev.promote1
  (repeat' split) <;> simp
@[simp] theorem Dev.drrExcess_control (d x1) : (Dev.drrExcess d x1).control = d.control := by
  unfold Dev.drrExcess
  dsimp only
  (repeat' split) <;> simp
@[simp] theorem Dev.drrGuaranteed_control (d x1) : (Dev.drrGuaranteed d x1).control = d.control := by
  unfold Dev.drrGuaranteed
  dsimp only
  (repeat' split) <;> simp
@[simp] theorem Dev.schedule_control (d x1) : (Dev.schedule d x1).control = d.control := by
  unfold Dev.schedule
  dsimp only
  (repeat' split) <;> simp
@[simp] theorem Dev.queueStarved_control (d x1 x2) : (Dev.queueStarved d x1 x2).control = d.control := by
  simp [Dev.queueStarved]
@[simp] theorem Dev.queueWrite_control (d x1 x2 x3) : (Dev.queueWrite d x1 x2 x3).control = d.control := by
  simp [Dev.queueWrite]
@[simp] theorem Dev.txEnd_control (d x1) : (Dev.txEnd d x1).control = d.control := by
  unfold Dev.txEnd
  (repeat' split) <;> simp
@[simp] theorem Dev.freeIdle_control (d) : (Dev.freeIdle d).control = d.control := by
  unfold Dev.freeIdle
  (repeat' split) <;> simp
@[simp] theorem Dev.frameEndAll_control (d x1 x2) : (Dev.frameEndAll d x1 x2).control = d.control := by
  unfold Dev.frameEndAll
  dsimp only
  (repeat' split) <;> simp

/-! #### Huddle -/

@[simp] theorem Dev.hudCount_control (d x1 x2) : (Dev.hudCount d x1 x2).control = d.control := by
  simp [Dev.hudCount]
@[simp] theorem Dev.grpSet_control (d x1 x2) : (Dev.grpSet d x1 x2).control = d.control := by
  simp [Dev.grpSet]
@[simp] theorem Dev.hudEvent_control (d x1 x2 x3 x4 x5) : (Dev.hudEvent d x1 x2 x3 x4 x5).control = d.control := by
  simp [Dev.hudEvent]
@[simp] theorem Dev.fillBuffer_control (d x1 x2) : (Dev.fillBuffer d x1 x2).control = d.control := by
  simp [Dev.fillBuffer]
@[simp] theorem Dev.snapOpen_control (d x1) : (Dev.snapOpen d x1).control = d.control := by
  unfold Dev.snapOpen
  (repeat' split) <;> simp
@[simp] theorem Dev.fileValue_control (d x1 x2 x3 x4) : (Dev.fileValue d x1 x2 x3 x4).control = d.control := by
  unfold Dev.fileValue
  dsimp only
  (repeat' split) <;> simp
@[simp] theorem Dev.fileValues_control (d x1 x2 x3) : (Dev.fileValues d x1 x2 x3).control = d.control := by
  fun_induction Dev.fileValues d x1 x2 x3 <;> simp_all
@[simp] theorem Dev.hudCounts_control (d x1) : (Dev.hudCounts d x1).control = d.control := by
  fun_induction Dev.hudCounts d x1 <;> simp_all
@[simp] theorem Dev.fileDrop_control (d x1 x2 x3) : (Dev.fileDrop d x1 x2 x3).control = d.control := by
  unfold Dev.fileDrop
  (repeat' split) <;> simp
@[simp] theorem Dev.filePkt_control (d x1) : (Dev.filePkt d x1).control = d.control := by
  unfold Dev.filePkt
  dsimp only
  (repeat' split) <;> simp
@[simp] theorem Dev.takeFiles_control (d x1) : (Dev.takeFiles d x1).control = d.control := by
  fun_induction Dev.takeFiles d x1 <;> simp_all
@[simp] theorem Dev.huddleTake_control (d) : (Dev.huddleTake d).control = d.control := by
  simp [Dev.huddleTake]
@[simp] theorem Dev.writeFile_control (d x1) : (Dev.writeFile d x1).control = d.control := by
  simp [Dev.writeFile]
@[simp] theorem Dev.writeFiles_control (d x1) : (Dev.writeFiles d x1).control = d.control := by
  fun_induction Dev.writeFiles d x1 <;> simp_all
@[simp] theorem Dev.filingWrite_control (d) : (Dev.filingWrite d).control = d.control := by
  simp [Dev.filingWrite]
@[simp] theorem Dev.closeSnap_control (d g s) : (Dev.closeSnap d g s).control = d.control := by
  unfold Dev.closeSnap
  dsimp only
  cases s.buf <;> simp
@[simp] theorem Dev.snapClose_control (d x1) : (Dev.snapClose d x1).control = d.control := by
  unfold Dev.snapClose
  (repeat' split) <;> simp
@[simp] theorem Dev.stepGroup_control (d x1) : (Dev.stepGroup d x1).control = d.control := by
  fun_cases Dev.stepGroup d x1 <;> simp_all
@[simp] theorem Dev.stepGroups_control (d x1) : (Dev.stepGroups d x1).control = d.control := by
  fun_induction Dev.stepGroups d x1 <;> simp_all
@[simp] theorem Dev.resultPost_control (d) : (Dev.resultPost d).control = d.control := by
  unfold Dev.resultPost
  dsimp only
  (repeat' split) <;> simp
@[simp] theorem Dev.backEntity_control (d x1 x2 x3 x4) : (Dev.backEntity d x1 x2 x3 x4).1.control = d.control := by
  unfold Dev.backEntity
  dsimp only
  (repeat' split) <;> simp
@[simp] theorem Dev.backEntities_control (d : Dev) (r : List Byte) (n e : Nat) (xs : List (List Nat)) (acc) :
    (Dev.backEntities d r n e xs acc).1.control = d.control := by
  induction xs generalizing d e acc with
  | nil => rfl
  | cons x xs ih =>
    have h := Dev.backEntity_control d r n e x
    unfold Dev.backEntities
    split <;> rename_i heq <;> rw [heq] at h <;> rw [ih, h]
@[simp] theorem Dev.report1_control (d x1 x2 x3 x4 x5 x6 x7) : (Dev.report1 d x1 x2 x3 x4 x5 x6 x7).control = d.control := by
  simp [Dev.report1]
@[simp] theorem Dev.reports_control (d x1 x2 x3 x4 x5 x6) : (Dev.reports d x1 x2 x3 x4 x5 x6).control = d.control := by
  fun_induction Dev.reports d x1 x2 x3 x4 x5 x6 <;> simp_all
@[simp] theorem Dev.reportAll_control (d x1 x2 x3 x4 x5) : (Dev.reportAll d x1 x2 x3 x4 x5).control = d.control := by
  simp [Dev.reportAll]
@[simp] theorem Dev.resultWriteback_control (d x1 x2) : (Dev.resultWriteback d x1 x2).control = d.control := by
  unfold Dev.resultWriteback
  dsimp only
  (repeat' split) <;> simp
@[simp] theorem Dev.resultDeadline_control (d x1) : (Dev.resultDeadline d x1).control = d.control := by
  unfold Dev.resultDeadline
  dsimp only
  (repeat' split) <;> simp
@[simp] theorem Dev.staleGroups_control (d : Dev) (p : Nat) (gs : List Nat) : (Dev.staleGroups d p gs).control = d.control := by
  induction gs generalizing d with
  | nil => rfl
  | cons g gs ih => rw [Dev.staleGroups, ih]; (repeat' split) <;> simp
@[simp] theorem Dev.partitionStale_control (d x1) : (Dev.partitionStale d x1).control = d.control := by
  fun_cases Dev.partitionStale d x1 <;> simp_all
@[simp] theorem Dev.releaseBuffers_control (d x1) : (Dev.releaseBuffers d x1).control = d.control := by
  simp [Dev.releaseBuffers]

/-! #### Loader -/

theorem Dev.placeEns_control {d d1 : Dev} {p n b} (h : d.placeEns p n b = some d1) : d1.control = d.control := by
  simp only [Dev.placeEns] at h
  repeat' split at h
  all_goals first | (cases h; done) | (simp only [Option.some.injEq] at h; rw [← h]; simp)
theorem Dev.placeEns_getD_control (d : Dev) (p n b) : ((d.placeEns p n b).getD d).control = d.control := by
  cases h : d.placeEns p n b with
  | none => rfl
  | some d1 => exact Dev.placeEns_control h
@[simp] theorem Dev.stageFw_control (d x1 x2 x3) : (Dev.stageFw d x1 x2 x3).control = d.control := by
  fun_induction Dev.stageFw d x1 x2 x3 <;> simp_all [Dev.placeEns_getD_control]
@[simp] theorem Dev.versionCommit_control (d x1 x2 x3) : (Dev.versionCommit d x1 x2 x3).control = d.control := by
  unfold Dev.versionCommit
  (repeat' split) <;> simp

/-! #### Memory -/

@[simp] theorem Dev.loadKeys_control (d x1) : (Dev.loadKeys d x1).control = d.control := by
  fun_induction Dev.loadKeys d x1 <;> simp_all
@[simp] theorem Dev.storeWrite_control (d x1) : (Dev.storeWrite d x1).control = d.control := by
  simp [Dev.storeWrite]
@[simp] theorem Dev.msRefresh_control (d) : (Dev.msRefresh d).control = d.control := by
  simp [Dev.msRefresh]
@[simp] theorem Dev.stageRefresh_control (d : Dev) (ps : List Nat) : (Dev.stageRefresh d ps).control = d.control := by
  induction ps generalizing d with
  | nil => rfl
  | cons p ps ih => rw [Dev.stageRefresh, ih]; split <;> simp
@[simp] theorem Dev.catalogue_control (d) : (Dev.catalogue d).control = d.control := by
  simp [Dev.catalogue]
@[simp] theorem Dev.stgStart_control (d x1) : (Dev.stgStart d x1).control = d.control := by
  simp [Dev.stgStart]
@[simp] theorem Dev.stagingPop_control (d x1) : (Dev.stagingPop d x1).control = d.control := by
  fun_cases Dev.stagingPop d x1 <;> simp_all
@[simp] theorem Dev.waiterServe_control (d x1) : (Dev.waiterServe d x1).control = d.control := by
  fun_cases Dev.waiterServe d x1 <;> simp_all
@[simp] theorem Dev.waitersServe_control (d x1 x2) : (Dev.waitersServe d x1 x2).control = d.control := by
  fun_induction Dev.waitersServe d x1 x2 <;> simp_all
@[simp] theorem Dev.stagingReply_control (d i e l) : (Dev.stagingReply d i e l).control = d.control := by
  unfold Dev.stagingReply
  split
  · rfl
  · simp
@[simp] theorem Dev.zeroGr_control (d x1 x2 x3) : (Dev.zeroGr d x1 x2 x3).control = d.control := by
  simp [Dev.zeroGr]
@[simp] theorem Dev.joinShare_control (d x1) : (Dev.joinShare d x1).control = d.control := by
  simp [Dev.joinShare]
@[simp] theorem Dev.joinShares_control (d x1) : (Dev.joinShares d x1).control = d.control := by
  fun_induction Dev.joinShares d x1 <;> simp_all
@[simp] theorem Dev.scrubShare_control (d x1) : (Dev.scrubShare d x1).control = d.control := by
  simp [Dev.scrubShare]
@[simp] theorem Dev.entSet_control (d x1 x2) : (Dev.entSet d x1 x2).control = d.control := by
  simp [Dev.entSet]
@[simp] theorem Dev.extentLeaves_control (d x1 x2 x3) : (Dev.extentLeaves d x1 x2 x3).control = d.control := by
  simp [Dev.extentLeaves]
@[simp] theorem Dev.shareRegs_control (d x1) : (Dev.shareRegs d x1).control = d.control := by
  fun_induction Dev.shareRegs d x1 <;> simp_all
@[simp] theorem Dev.mirrorRebuild_control (d x1) : (Dev.mirrorRebuild d x1).control = d.control := by
  unfold Dev.mirrorRebuild
  dsimp only
  (repeat' split) <;> simp
@[simp] theorem Dev.coreSections_control (d x1 x2 x3) : (Dev.coreSections d x1 x2 x3).control = d.control := by
  fun_induction Dev.coreSections d x1 x2 x3 <;> simp_all
@[simp] theorem Dev.restageCore_control (d x1 x2) : (Dev.restageCore d x1 x2).control = d.control := by
  unfold Dev.restageCore
  (repeat' split) <;> simp
@[simp] theorem Dev.restageCores_control (d x1 x2) : (Dev.restageCores d x1 x2).control = d.control := by
  fun_induction Dev.restageCores d x1 x2 <;> simp_all
@[simp] theorem Dev.loadImage_control (d x1 x2 x3) : (Dev.loadImage d x1 x2 x3).control = d.control := by
  unfold Dev.loadImage
  (repeat' split) <;> simp
@[simp] theorem Dev.shareSections_control (d x1 x2) : (Dev.shareSections d x1 x2).control = d.control := by
  fun_induction Dev.shareSections d x1 x2 <;> simp_all
@[simp] theorem Dev.restagePtn_control (d x1) : (Dev.restagePtn d x1).control = d.control := by
  simp [Dev.restagePtn]
@[simp] theorem Dev.installUpd_control (d x1 x2) : (Dev.installUpd d x1 x2).control = d.control := by
  simp [Dev.installUpd]
@[simp] theorem Dev.installEnd_control (d x1 x2 x3 x4) : (Dev.installEnd d x1 x2 x3 x4).control = d.control := by
  simp [Dev.installEnd]
@[simp] theorem Dev.bundleInstallRun_control (d x1) : (Dev.bundleInstallRun d x1).control = d.control := by
  unfold Dev.bundleInstallRun
  (repeat' split) <;> simp
theorem Dev.stageSections_control {d d1 : Dev} {p n ss} (h : d.stageSections p n ss = some d1) : d1.control = d.control := by
  induction ss generalizing d with
  | nil => simp only [Dev.stageSections, Option.some.injEq] at h; rw [h]
  | cons s ss ih =>
    unfold Dev.stageSections at h
    repeat' split at h
    · rename_i heq; rw [ih h, Dev.placeEns_control heq]
    · cases h
    · cases h
    · rw [ih h]; simp
    · rw [ih h]; simp
    · exact ih h
theorem Dev.stageSections_getD_control (d : Dev) (p n ss) : ((d.stageSections p n ss).getD d).control = d.control := by
  cases h : d.stageSections p n ss with
  | none => rfl
  | some d1 => exact Dev.stageSections_control h
@[simp] theorem Dev.endBundle_control (d x1 x2) : (Dev.endBundle d x1 x2).control = d.control := by
  simp [Dev.endBundle]
@[simp] theorem Dev.endBundles_control (d x1 x2) : (Dev.endBundles d x1 x2).control = d.control := by
  fun_induction Dev.endBundles d x1 x2 <;> simp_all
@[simp] theorem Dev.catalogueBundle_control (d x1 x2 x3 x4) : (Dev.catalogueBundle d x1 x2 x3 x4).control = d.control := by
  unfold Dev.catalogueBundle
  (repeat' split) <;> simp
@[simp] theorem Dev.commitCores_control (d : Dev) (b : Bundle) (rs : List Nat) : (Dev.commitCores d b rs).control = d.control := by
  induction rs generalizing d with
  | nil => rfl
  | cons r rs ih => rw [Dev.commitCores, ih]; split <;> simp
@[simp] theorem Dev.commitImages_control (d : Dev) (b : Bundle) (rs : List Region) : (Dev.commitImages d b rs).control = d.control := by
  induction rs generalizing d with
  | nil => rfl
  | cons r rs ih => rw [Dev.commitImages, ih]; (repeat' split) <;> simp

/-! #### ErrLog -/

@[simp] theorem Dev.erlAnnounce_control (d x1) : (Dev.erlAnnounce d x1).control = d.control := by
  simp [Dev.erlAnnounce]
@[simp] theorem Dev.newEntry_control (d x1) : (Dev.newEntry d x1).control = d.control := by
  unfold Dev.newEntry
  (repeat' split) <;> simp
@[simp] theorem Dev.erlTake_control (d) : (Dev.erlTake d).control = d.control := by
  fun_cases Dev.erlTake d <;> simp_all +zetaDelta
@[simp] theorem Dev.erlClear_control (d x1) : (Dev.erlClear d x1).control = d.control := by
  simp [Dev.erlClear]
@[simp] theorem Dev.erlIdx_control (d x1) : (Dev.erlIdx d x1).control = d.control := by
  simp [Dev.erlIdx]

/-! #### Partition -/

@[simp] theorem Dev.wrBytes_control (d x1 x2 x3) : (Dev.wrBytes d x1 x2 x3).control = d.control := by
  simp [Dev.wrBytes]
@[simp] theorem Dev.ptnRegs_control (d) : (Dev.ptnRegs d).control = d.control := by
  simp [Dev.ptnRegs]
@[simp] theorem Dev.granuleScrubDone_control (d) : (Dev.granuleScrubDone d).control = d.control := by
  unfold Dev.granuleScrubDone
  (repeat' split) <;> simp
@[simp] theorem Dev.ptnState_control (d x1 x2) : (Dev.ptnState d x1 x2).control = d.control := by
  simp [Dev.ptnState]
@[simp] theorem Dev.planAll_control (d) : (Dev.planAll d).control = d.control := by
  simp [Dev.planAll]
@[simp] theorem Dev.ptnFail_control (d x1 x2 x3) : (Dev.ptnFail d x1 x2 x3).control = d.control := by
  simp [Dev.ptnFail]
@[simp] theorem Dev.ptnFailAll_control (d x1 x2 x3) : (Dev.ptnFailAll d x1 x2 x3).control = d.control := by
  fun_induction Dev.ptnFailAll d x1 x2 x3 <;> simp_all
@[simp] theorem Dev.unitLost_control (d x1 x2 x3 x4 x5) : (Dev.unitLost d x1 x2 x3 x4 x5).control = d.control := by
  unfold Dev.unitLost
  (repeat' split) <;> simp
@[simp] theorem Dev.coresLost_control (d x1) : (Dev.coresLost d x1).control = d.control := by
  simp [Dev.coresLost]
@[simp] theorem Dev.coreStop_control (d x1) : (Dev.coreStop d x1).control = d.control := by
  simp [Dev.coreStop]
@[simp] theorem Dev.holdLost_control (d x1) : (Dev.holdLost d x1).control = d.control := by
  simp [Dev.holdLost]
@[simp] theorem Dev.coresGone_control (d x1) : (Dev.coresGone d x1).control = d.control := by
  fun_induction Dev.coresGone d x1 <;> simp_all
@[simp] theorem Dev.dieFail_control (d x1 x2 x3 x4) : (Dev.dieFail d x1 x2 x3 x4).control = d.control := by
  simp [Dev.dieFail]
@[simp] theorem Dev.stackStat_control (d x1 x2) : (Dev.stackStat d x1 x2).control = d.control := by
  simp [Dev.stackStat]
@[simp] theorem Dev.hbmFail_control (d x1 x2) : (Dev.hbmFail d x1 x2).control = d.control := by
  simp [Dev.hbmFail]
@[simp] theorem Dev.hbmBurst_control (d x1 x2) : (Dev.hbmBurst d x1 x2).control = d.control := by
  simp [Dev.hbmBurst]
@[simp] theorem Dev.msFail_control (d x1) : (Dev.msFail d x1).control = d.control := by
  simp [Dev.msFail]
@[simp] theorem Dev.coreOut_control (d x1 x2) : (Dev.coreOut d x1 x2).control = d.control := by
  simp [Dev.coreOut]
@[simp] theorem Dev.resetCores_control (d x1 x2) : (Dev.resetCores d x1 x2).control = d.control := by
  fun_induction Dev.resetCores d x1 x2 <;> simp_all
@[simp] theorem Dev.emptyQueues_control (d x1) : (Dev.emptyQueues d x1).control = d.control := by
  fun_induction Dev.emptyQueues d x1 <;> simp_all
@[simp] theorem Dev.resetSlices_control (d x1) : (Dev.resetSlices d x1).control = d.control := by
  simp [Dev.resetSlices]
@[simp] theorem Dev.ptnClear_control (d x1) : (Dev.ptnClear d x1).control = d.control := by
  simp [Dev.ptnClear]
@[simp] theorem Dev.remapNotice_control (d x1 x2 x3 x4 x5 x6) : (Dev.remapNotice d x1 x2 x3 x4 x5 x6).control = d.control := by
  simp [Dev.remapNotice]
@[simp] theorem Dev.giveCore_control (d x1 x2 x3) : (Dev.giveCore d x1 x2 x3).control = d.control := by
  simp [Dev.giveCore]
@[simp] theorem Dev.storeOut_control (d x1 x2) : (Dev.storeOut d x1 x2).control = d.control := by
  unfold Dev.storeOut
  (repeat' split) <;> simp
@[simp] theorem Dev.shareCore_control (d x1 x2) : (Dev.shareCore d x1 x2).control = d.control := by
  unfold Dev.shareCore
  (repeat' split) <;> simp
@[simp] theorem Dev.shareIdle_control (d x1 x2) : (Dev.shareIdle d x1 x2).control = d.control := by
  simp [Dev.shareIdle]
@[simp] theorem Dev.replan_control (d x1 x2) : (Dev.replan d x1 x2).control = d.control := by
  fun_induction Dev.replan d x1 x2 <;> simp_all +zetaDelta
@[simp] theorem Dev.ptnReset_control (d x1) : (Dev.ptnReset d x1).control = d.control := by
  simp [Dev.ptnReset]
@[simp] theorem Dev.mirrorLost_control (d x1 x2) : (Dev.mirrorLost d x1 x2).control = d.control := by
  simp [Dev.mirrorLost]
@[simp] theorem Dev.moveShare_control (d x1 x2) : (Dev.moveShare d x1 x2).control = d.control := by
  unfold Dev.moveShare
  dsimp only
  (repeat' split) <;> simp
@[simp] theorem Dev.stackPtns_control (d x1 x2) : (Dev.stackPtns d x1 x2).control = d.control := by
  fun_induction Dev.stackPtns d x1 x2 <;> simp_all
@[simp] theorem Dev.fenceCores_control (d x1) : (Dev.fenceCores d x1).control = d.control := by
  fun_induction Dev.fenceCores d x1 <;> simp_all
@[simp] theorem Dev.freeLocks_control (d x1) : (Dev.freeLocks d x1).control = d.control := by
  fun_induction Dev.freeLocks d x1 <;> simp_all
@[simp] theorem Dev.planMove_control (d x1 x2 x3 x4) : (Dev.planMove d x1 x2 x3 x4).1.control = d.control := by
  unfold Dev.planMove
  (repeat' split) <;> simp
@[simp] theorem Dev.planMoves_control (d x1 x2) : (Dev.planMoves d x1 x2).1.control = d.control := by
  fun_induction Dev.planMoves d x1 x2 <;> simp_all +zetaDelta
@[simp] theorem Dev.startStates_control (d x1) : (Dev.startStates d x1).control = d.control := by
  fun_induction Dev.startStates d x1 <;> simp_all
@[simp] theorem Dev.freeTargets_control (d x1) : (Dev.freeTargets d x1).control = d.control := by
  fun_induction Dev.freeTargets d x1 <;> simp_all
@[simp] theorem Dev.remapHolds_control (d) : (Dev.remapHolds d).control = d.control := by
  simp [Dev.remapHolds]
@[simp] theorem Dev.remapStart_control (d) : (Dev.remapStart d).control = d.control := by
  unfold Dev.remapStart
  (repeat' split) <;> simp
@[simp] theorem Dev.storeIn_control (d x1 x2) : (Dev.storeIn d x1 x2).control = d.control := by
  unfold Dev.storeIn
  (repeat' split) <;> simp
@[simp] theorem Dev.restart1_control (d x1 x2 x3) : (Dev.restart1 d x1 x2 x3).control = d.control := by
  unfold Dev.restart1
  dsimp only
  (repeat' split) <;> simp
@[simp] theorem Dev.restartAll_control (d x1 x2 x3) : (Dev.restartAll d x1 x2 x3).control = d.control := by
  fun_induction Dev.restartAll d x1 x2 x3 <;> simp_all
@[simp] theorem Dev.moveAgain_control (d x1 x2) : (Dev.moveAgain d x1 x2).1.control = d.control := by
  unfold Dev.moveAgain
  dsimp only
  (repeat' split) <;> simp
@[simp] theorem Dev.movesAgain_control (d x1 x2) : (Dev.movesAgain d x1 x2).1.control = d.control := by
  fun_induction Dev.movesAgain d x1 x2 <;> simp_all +zetaDelta
@[simp] theorem Dev.remapRestart_control (d) : (Dev.remapRestart d).control = d.control := by
  unfold Dev.remapRestart
  (repeat' split) <;> simp
@[simp] theorem Dev.restageDone_control (d x1) : (Dev.restageDone d x1).control = d.control := by
  simp [Dev.restageDone]
@[simp] theorem Dev.sliceIn_control (d x1 x2) : (Dev.sliceIn d x1 x2).control = d.control := by
  unfold Dev.sliceIn
  (repeat' split) <;> simp
@[simp] theorem Dev.timeShareSwitch_control (d x1) : (Dev.timeShareSwitch d x1).control = d.control := by
  unfold Dev.timeShareSwitch
  (repeat' split) <;> simp

/-! #### Telemetry -/

@[simp] theorem Dev.pathSet_control (d x1 x2) : (Dev.pathSet d x1 x2).control = d.control := by
  simp [Dev.pathSet]
@[simp] theorem Dev.offer_control (d x1 x2) : (Dev.offer d x1 x2).control = d.control := by
  simp [Dev.offer]
@[simp] theorem Dev.teleRecord_control (d) : (Dev.teleRecord d).control = d.control := by
  unfold Dev.teleRecord
  (repeat' split) <;> simp
@[simp] theorem Dev.emitAll_control (d x1) : (Dev.emitAll d x1).control = d.control := by
  fun_induction Dev.emitAll d x1 <;> simp_all
@[simp] theorem Dev.alarmsAgain_control (d x1) : (Dev.alarmsAgain d x1).control = d.control := by
  simp [Dev.alarmsAgain]
@[simp] theorem Dev.pathDown_control (d x1) : (Dev.pathDown d x1).control = d.control := by
  simp [Dev.pathDown]
/-- The path of CAN comes up without a summary (log 143). -/
@[simp] theorem Dev.canPath_control (d) : (Dev.canPath d).control = d.control := by
  unfold Dev.canPath Dev.pathUp Dev.summary
  (repeat' split) <;> first | contradiction | simp
@[simp] theorem Dev.pathFall_control (d) (p : Fin 4) : (Dev.pathFall d p).control = d.control := by
  unfold Dev.pathFall
  (repeat' split) <;> simp
@[simp] theorem Dev.portRecords_control (d x1) : (Dev.portRecords d x1).control = d.control := by
  fun_induction Dev.portRecords d x1 <;> simp_all
@[simp] theorem Dev.ptnRecords_control (d x1) : (Dev.ptnRecords d x1).control = d.control := by
  fun_induction Dev.ptnRecords d x1 <;> simp_all
@[simp] theorem Dev.recvComplete_control (d x1) : (Dev.recvComplete d x1).control = d.control := by
  unfold Dev.recvComplete
  dsimp only
  (repeat' split) <;> simp
@[simp] theorem Dev.fwTele_control (d x1 x2 x3 x4 x5 x6) : (Dev.fwTele d x1 x2 x3 x4 x5 x6).control = d.control := by
  simp [Dev.fwTele]

/-! #### TimeUnit -/

@[simp] theorem Dev.tmuCount_control (d x1) : (Dev.tmuCount d x1).control = d.control := by
  simp [Dev.tmuCount]
@[simp] theorem Dev.tmuRegs_control (d) : (Dev.tmuRegs d).control = d.control := by
  simp [Dev.tmuRegs]
@[simp] theorem Dev.tmuUpd_control (d x1) : (Dev.tmuUpd d x1).control = d.control := by
  simp [Dev.tmuUpd]
@[simp] theorem Dev.tmuState_control (d x1) : (Dev.tmuState d x1).control = d.control := by
  simp [Dev.tmuState]
@[simp] theorem Dev.reselect_control (d) : (Dev.reselect d).control = d.control := by
  simp [Dev.reselect]
@[simp] theorem Dev.foldGrowth_control (d) : (Dev.foldGrowth d).control = d.control := by
  simp [Dev.foldGrowth]
@[simp] theorem Dev.setBound_control (d x1) : (Dev.setBound d x1).control = d.control := by
  simp [Dev.setBound]
@[simp] theorem Dev.errorBound_control (d) : (Dev.errorBound d).control = d.control := by
  simp [Dev.errorBound]
@[simp] theorem Dev.slewBy_control (d x1) : (Dev.slewBy d x1).control = d.control := by
  simp [Dev.slewBy]
@[simp] theorem Dev.schedStep_control (d x1) : (Dev.schedStep d x1).control = d.control := by
  unfold Dev.schedStep
  (repeat' split) <;> simp
@[simp] theorem Dev.cancelStep_control (d) : (Dev.cancelStep d).control = d.control := by
  unfold Dev.cancelStep
  (repeat' split) <;> simp
@[simp] theorem Dev.boundAt_control (d x1 x2) : (Dev.boundAt d x1 x2).control = d.control := by
  simp [Dev.boundAt]
@[simp] theorem Dev.noteOffset_control (d x1 x2 x3) : (Dev.noteOffset d x1 x2 x3).control = d.control := by
  simp [Dev.noteOffset]
@[simp] theorem Dev.slewMeas_control (d x1) : (Dev.slewMeas d x1).control = d.control := by
  simp [Dev.slewMeas]
@[simp] theorem Dev.lockMeas_control (d x1) : (Dev.lockMeas d x1).control = d.control := by
  simp [Dev.lockMeas]
@[simp] theorem Dev.applyOffset_control (d x1 x2) : (Dev.applyOffset d x1 x2).control = d.control := by
  simp [Dev.applyOffset]
@[simp] theorem Dev.utcSet_control (d x1) : (Dev.utcSet d x1).control = d.control := by
  simp [Dev.utcSet]
@[simp] theorem Dev.ptpUtc_control (d) : (Dev.ptpUtc d).control = d.control := by
  unfold Dev.ptpUtc
  (repeat' split) <;> simp
@[simp] theorem Dev.goodMeas_control (d x1 x2 x3) : (Dev.goodMeas d x1 x2 x3).control = d.control := by
  simp [Dev.goodMeas]
@[simp] theorem Dev.sourceLoss_control (d x1) : (Dev.sourceLoss d x1).control = d.control := by
  simp [Dev.sourceLoss]
@[simp] theorem Dev.ptpMeasurement_control (d x1 x2 x3 x4 x5) : (Dev.ptpMeasurement d x1 x2 x3 x4 x5).control = d.control := by
  unfold Dev.ptpMeasurement
  (repeat' split) <;> simp
@[simp] theorem Dev.ppsIn_control (d x1) : (Dev.ppsIn d x1).control = d.control := by
  simp [Dev.ppsIn]
@[simp] theorem Dev.irigFrame_control (d x1 x2) : (Dev.irigFrame d x1 x2).control = d.control := by
  simp [Dev.irigFrame]
@[simp] theorem Dev.timeSet_control (d x1 x2) : (Dev.timeSet d x1 x2).1.control = d.control := by
  unfold Dev.timeSet
  (repeat' split) <;> simp
@[simp] theorem Dev.stepLand_control (d) : (Dev.stepLand d).control = d.control := by
  unfold Dev.stepLand
  (repeat' split) <;> simp
@[simp] theorem Dev.refLoss_control (d) : (Dev.refLoss d).control = d.control := by
  simp [Dev.refLoss]
@[simp] theorem Dev.refReturn_control (d) : (Dev.refReturn d).control = d.control := by
  simp [Dev.refReturn]
@[simp] theorem Dev.ppsOut_control (d) : (Dev.ppsOut d).control = d.control := by
  simp [Dev.ppsOut]
@[simp] theorem Dev.ppsOutEnd_control (d) : (Dev.ppsOutEnd d).control = d.control := by
  simp [Dev.ppsOutEnd]
@[simp] theorem Dev.leapSecond_control (d) : (Dev.leapSecond d).control = d.control := by
  simp [Dev.leapSecond]
@[simp] theorem Dev.timeCfg_control (d x1 x2) : (Dev.timeCfg d x1 x2).control = d.control := by
  simp [Dev.timeCfg]
@[simp] theorem Dev.ptpHear_control (d x1 x2) : (Dev.ptpHear d x1 x2).control = d.control := by
  simp [Dev.ptpHear]
@[simp] theorem Dev.nowWord_control (d x1) : (Dev.nowWord d x1).1.control = d.control := by
  simp [Dev.nowWord]
@[simp] theorem Dev.nowRead_control (d x1) : (Dev.nowRead d x1).control = d.control := by
  simp [Dev.nowRead]

/-! #### Host -/

@[simp] theorem Dev.mbxSet_control (d x1 x2) : (Dev.mbxSet d x1 x2).control = d.control := by
  simp [Dev.mbxSet]
@[simp] theorem Dev.dmaSet_control (d x1 x2 x3) : (Dev.dmaSet d x1 x2 x3).control = d.control := by
  simp [Dev.dmaSet]
@[simp] theorem Dev.accFail_control (d x1 x2 x3 x4 x5) : (Dev.accFail d x1 x2 x3 x4 x5).control = d.control := by
  unfold Dev.accFail
  (repeat' split) <;> simp
@[simp] theorem Dev.plainWrite_control (d x1 x2 x3 x4) : (Dev.plainWrite d x1 x2 x3 x4).control = d.control := by
  simp [Dev.plainWrite]
@[simp] theorem Dev.stageLow_control (d x1 x2 x3) : (Dev.stageLow d x1 x2 x3).control = d.control := by
  simp [Dev.stageLow]
@[simp] theorem Dev.pairTake_control (d x1 x2 x3) : (Dev.pairTake d x1 x2 x3).control = d.control := by
  simp [Dev.pairTake]
@[simp] theorem Dev.pairLowWrite_control (d x1 x2 x3) : (Dev.pairLowWrite d x1 x2 x3).control = d.control := by
  unfold Dev.pairLowWrite
  (repeat' split) <;> simp
@[simp] theorem Dev.pairHighWrite_control (d x1 x2 x3) : (Dev.pairHighWrite d x1 x2 x3).control = d.control := by
  unfold Dev.pairHighWrite
  (repeat' split) <;> simp
@[simp] theorem Dev.pairWrite_control (d x1 x2 x3 x4) : (Dev.pairWrite d x1 x2 x3 x4).control = d.control := by
  unfold Dev.pairWrite
  (repeat' split) <;> simp
@[simp] theorem Dev.readTimeout_control (d x1 x2) : (Dev.readTimeout d x1 x2).control = d.control := by
  simp [Dev.readTimeout]
@[simp] theorem Dev.mbxEvent_control (d x1 x2) : (Dev.mbxEvent d x1 x2).control = d.control := by
  simp [Dev.mbxEvent]
@[simp] theorem Dev.mbxBad_control (d x1) : (Dev.mbxBad d x1).control = d.control := by
  simp [Dev.mbxBad]
@[simp] theorem Dev.mbxRing_control (d x1) : (Dev.mbxRing d x1).control = d.control := by
  simp [Dev.mbxRing]
@[simp] theorem Dev.mbxDeliver_control (d x1 x2) : (Dev.mbxDeliver d x1 x2).control = d.control := by
  simp [Dev.mbxDeliver]
@[simp] theorem Dev.mbxRack_control (d x1) : (Dev.mbxRack d x1).control = d.control := by
  unfold Dev.mbxRack
  dsimp only
  (repeat' split) <;> simp
@[simp] theorem Dev.mbxRespond_control (d x1 x2 x3 x4 x5) : (Dev.mbxRespond d x1 x2 x3 x4 x5).control = d.control := by
  simp [Dev.mbxRespond]
@[simp] theorem Dev.mbxTake_control (d x1) : (Dev.mbxTake d x1).control = d.control := by
  fun_cases Dev.mbxTake d x1 <;> simp_all +zetaDelta
@[simp] theorem Dev.answer_control (d x1 x2 x3 x4) : (Dev.answer d x1 x2 x3 x4).control = d.control := by
  simp [Dev.answer]
@[simp] theorem Dev.messageSegment_control (d x1) : (Dev.messageSegment d x1).control = d.control := by
  unfold Dev.messageSegment
  (repeat' split) <;> simp
@[simp] theorem Dev.hello_control (d x1) : (Dev.hello d x1).control = d.control := by
  unfold Dev.hello
  (repeat' split) <;> simp
@[simp] theorem Dev.bundleInstall_control (d) : (Dev.bundleInstall d).control = d.control := by
  unfold Dev.bundleInstall
  (repeat' split) <;> simp
@[simp] theorem Dev.bundleStatus_control (d) : (Dev.bundleStatus d).control = d.control := by
  unfold Dev.bundleStatus
  (repeat' split) <;> simp
@[simp] theorem Dev.ptnResetMsg_control (d x1) : (Dev.ptnResetMsg d x1).control = d.control := by
  fun_cases Dev.ptnResetMsg d x1 <;> simp_all
theorem Dev.coreCtrl_control (d : Dev) (n op : Nat) (f : Dev → Nat → Nat → Nat → Dev) (h : ∀ e x y z, (f e x y z).control = e.control) :
    (d.coreCtrl n op f).control = d.control := by
  unfold Dev.coreCtrl
  dsimp only
  repeat' split
  all_goals simp [h]
@[simp] theorem Dev.coreSetHeld_control (d x1 x2 x3) : (Dev.coreSetHeld d x1 x2 x3).control = d.control := by
  simp [Dev.coreSetHeld]
@[simp] theorem Dev.coreSetPc_control (d n) : (Dev.coreSetPc d n).control = d.control := by
  refine Dev.coreCtrl_control _ _ _ _ ?_
  intros
  (repeat' split) <;> simp
@[simp] theorem Dev.coreSetSave_control (d n) : (Dev.coreSetSave d n).control = d.control := by
  refine Dev.coreCtrl_control _ _ _ _ ?_
  intros
  (repeat' split) <;> simp
@[simp] theorem Dev.coreRun_control (d n) : (Dev.coreRun d n).control = d.control := by
  refine Dev.coreCtrl_control _ _ _ _ ?_
  intros
  (repeat' split) <;> simp
@[simp] theorem Dev.corePreempt_control (d n) : (Dev.corePreempt d n).control = d.control := by
  refine Dev.coreCtrl_control _ _ _ _ ?_
  intros
  (repeat' split) <;> simp
@[simp] theorem Dev.coreResume_control (d n) : (Dev.coreResume d n).control = d.control := by
  refine Dev.coreCtrl_control _ _ _ _ ?_
  intros
  (repeat' split) <;> simp
@[simp] theorem Dev.coreReset_control (d n) : (Dev.coreReset d n).control = d.control := by
  refine Dev.coreCtrl_control _ _ _ _ ?_
  intros
  (repeat' split) <;> simp
@[simp] theorem Dev.directGrant_control (d) : (Dev.directGrant d).control = d.control := by
  unfold Dev.directGrant
  (repeat' split) <;> simp
@[simp] theorem Dev.dmaqCreate_control (d x1) : (Dev.dmaqCreate d x1).control = d.control := by
  unfold Dev.dmaqCreate
  (repeat' split) <;> simp
@[simp] theorem Dev.dmaqDestroy_control (d x1) : (Dev.dmaqDestroy d x1).control = d.control := by
  unfold Dev.dmaqDestroy
  (repeat' split) <;> simp
@[simp] theorem Dev.sqDoorbell_control (d x1 x2 x3) : (Dev.sqDoorbell d x1 x2 x3).control = d.control := by
  simp [Dev.sqDoorbell]
@[simp] theorem Dev.cqHeadWrite_control (d x1 x2 x3) : (Dev.cqHeadWrite d x1 x2 x3).control = d.control := by
  simp [Dev.cqHeadWrite]
@[simp] theorem Dev.dmaWrite_control (d x1 x2 x3 x4 x5 x6) : (Dev.dmaWrite d x1 x2 x3 x4 x5 x6).control = d.control := by
  simp [Dev.dmaWrite]
@[simp] theorem Dev.dmaRecv_control (d x1 x2) : (Dev.dmaRecv d x1 x2).control = d.control := by
  simp [Dev.dmaRecv]
@[simp] theorem Dev.dmaComplete_control (d x1 x2) : (Dev.dmaComplete d x1 x2).control = d.control := by
  unfold Dev.dmaComplete
  dsimp only
  (repeat' split) <;> simp
@[simp] theorem Dev.msixDeliver_control (d x1 x2) : (Dev.msixDeliver d x1 x2).control = d.control := by
  simp [Dev.msixDeliver]
@[simp] theorem Dev.headLoad_control (d) : (Dev.headLoad d).control = d.control := by
  simp [Dev.headLoad]
@[simp] theorem Dev.configWrite_control (d x1) : (Dev.configWrite d x1).control = d.control := by
  unfold Dev.configWrite
  (repeat' split) <;> simp
@[simp] theorem Dev.doeDiscovery_control (d x1) : (Dev.doeDiscovery d x1).control = d.control := by
  simp [Dev.doeDiscovery]

/-! #### SecOps -/

@[simp] theorem Dev.secRegs_control (d) : (Dev.secRegs d).control = d.control := by
  simp [Dev.secRegs]
@[simp] theorem Dev.measSel_control (d x1) : (Dev.measSel d x1).control = d.control := by
  simp [Dev.measSel]
@[simp] theorem Dev.pkSel_control (d x1) : (Dev.pkSel d x1).control = d.control := by
  simp [Dev.pkSel]
@[simp] theorem Dev.ptnResets_control (d x1) : (Dev.ptnResets d x1).control = d.control := by
  fun_induction Dev.ptnResets d x1 <;> simp_all
@[simp] theorem Dev.shareScrubs_control (d x1) : (Dev.shareScrubs d x1).control = d.control := by
  fun_induction Dev.shareScrubs d x1 <;> simp_all
@[simp] theorem Dev.keysIn_control (d) : (Dev.keysIn d).control = d.control := by
  simp [Dev.keysIn]
@[simp] theorem Dev.portsOff_control (d x1) : (Dev.portsOff d x1).control = d.control := by
  fun_induction Dev.portsOff d x1 <;> simp_all
@[simp] theorem Dev.mbxDrop_control (d) : (Dev.mbxDrop d).control = d.control := by
  simp [Dev.mbxDrop]

/-! #### PowerLoop -/

@[simp] theorem Dev.dieFld_control (d x1 x2 x3 x4) : (Dev.dieFld d x1 x2 x3 x4).control = d.control := by
  simp [Dev.dieFld]
@[simp] theorem Dev.hbmLimSet_control (d x1) : (Dev.hbmLimSet d x1).control = d.control := by
  simp [Dev.hbmLimSet]
@[simp] theorem Dev.msLimSet_control (d x1) : (Dev.msLimSet d x1).control = d.control := by
  simp [Dev.msLimSet]
@[simp] theorem Dev.pwrStat_control (d x1 x2 x3 x4) : (Dev.pwrStat d x1 x2 x3 x4).control = d.control := by
  simp [Dev.pwrStat]
@[simp] theorem Dev.pwrHot_control (d) : (Dev.pwrHot d).control = d.control := by
  simp [Dev.pwrHot]

/-! #### Dict -/

@[simp] theorem Dev.tokenFail_control (d x1 x2 x3) : (Dev.tokenFail d x1 x2 x3).control = d.control := by
  simp [Dev.tokenFail]
@[simp] theorem Dev.templateBuild_control (d x1 x2 x3) : (Dev.templateBuild d x1 x2 x3).control = d.control := by
  unfold Dev.templateBuild
  (repeat' split) <;> simp
@[simp] theorem Dev.macsecRow_control (d x1 x2) : (Dev.macsecRow d x1 x2).control = d.control := by
  simp [Dev.macsecRow]
@[simp] theorem Dev.applyWords_control (d x1 x2 x3) : (Dev.applyWords d x1 x2 x3).control = d.control := by
  simp [Dev.applyWords]
@[simp] theorem Dev.applyPort_control (d x1 x2) : (Dev.applyPort d x1 x2).control = d.control := by
  simp [Dev.applyPort]
@[simp] theorem Dev.applyPorts_control (d x1) : (Dev.applyPorts d x1).control = d.control := by
  fun_induction Dev.applyPorts d x1 <;> simp_all
@[simp] theorem Dev.splitChange_control (d x1 x2) : (Dev.splitChange d x1 x2).control = d.control := by
  simp [Dev.splitChange]

/-! #### Transports -/

@[simp] theorem Dev.segment_control (d x1) : (Dev.segment d x1).control = d.control := by
  unfold Dev.segment
  (repeat' split) <;> simp
@[simp] theorem Dev.sdoSay_control (d x1) : (Dev.sdoSay d x1).control = d.control := by
  simp [Dev.sdoSay]
@[simp] theorem Dev.sdoAbort_control (d x1 x2 x3) : (Dev.sdoAbort d x1 x2 x3).control = d.control := by
  simp [Dev.sdoAbort]
@[simp] theorem Dev.sdoBlock_control (d x1 x2 x3) : (Dev.sdoBlock d x1 x2 x3).control = d.control := by
  simp [Dev.sdoBlock]
@[simp] theorem Dev.heartbeat_control (d) : (Dev.heartbeat d).control = d.control := by
  simp [Dev.heartbeat]
@[simp] theorem Dev.usbResult_control (d) : (Dev.usbResult d).control = d.control := by
  simp [Dev.usbResult]
@[simp] theorem Dev.puntDone_control (d x1 x2) : (Dev.puntDone d x1 x2).control = d.control := by
  unfold Dev.puntDone
  dsimp only
  (repeat' split) <;> simp
@[simp] theorem Dev.slowSend_control (d x1 x2 x3 x4) : (Dev.slowSend d x1 x2 x3 x4).control = d.control := by
  simp [Dev.slowSend]

/-! #### Firmware -/

@[simp] theorem Dev.imageRefused_control (d x1) : (Dev.imageRefused d x1).control = d.control := by
  simp [Dev.imageRefused]
@[simp] theorem Dev.fwNotice_control (d x1 x2 x3) : (Dev.fwNotice d x1 x2 x3).control = d.control := by
  simp [Dev.fwNotice]
@[simp] theorem Dev.setHeld_control (d x1) : (Dev.setHeld d x1).control = d.control := by
  simp [Dev.setHeld]
@[simp] theorem Dev.updateAnswer_control (d x1) : (Dev.updateAnswer d x1).control = d.control := by
  unfold Dev.updateAnswer
  (repeat' split) <;> simp
@[simp] theorem Dev.assignAll_control (d x1) : (Dev.assignAll d x1).control = d.control := by
  fun_induction Dev.assignAll d x1 <;> simp_all
@[simp] theorem Dev.buildMap_control (d x1) : (Dev.buildMap d x1).control = d.control := by
  unfold Dev.buildMap
  dsimp only
  (repeat' split) <;> simp
@[simp] theorem Dev.bundleKeep_control (d) : (Dev.bundleKeep d).control = d.control := by
  simp [Dev.bundleKeep]
@[simp] theorem Dev.bundleStage_control (d : Dev) (n : Nat) (bs : List Bundle) : (Dev.bundleStage d n bs).control = d.control := by
  induction bs generalizing d with
  | nil => rfl
  | cons b bs ih => simp [Dev.bundleStage, ih, Dev.stageSections_getD_control]
@[simp] theorem Dev.bundleRestore_control (d) : (Dev.bundleRestore d).control = d.control := by
  simp [Dev.bundleRestore]
@[simp] theorem Dev.savedPart_control (d x1 x2) : (Dev.savedPart d x1 x2).control = d.control := by
  simp [Dev.savedPart]
@[simp] theorem Dev.erlBack_control (d x1) : (Dev.erlBack d x1).control = d.control := by
  simp [Dev.erlBack]
@[simp] theorem Dev.saveLogs_control (d x1) : (Dev.saveLogs d x1).control = d.control := by
  unfold Dev.saveLogs
  (repeat' split) <;> simp
@[simp] theorem Dev.reportParts_control (d x1) : (Dev.reportParts d x1).control = d.control := by
  unfold Dev.reportParts
  (repeat' split) <;> simp
@[simp] theorem Dev.saveBad_control (d x1) : (Dev.saveBad d x1).control = d.control := by
  unfold Dev.saveBad
  (repeat' split) <;> simp
@[simp] theorem Dev.arraysFail_control (d x1) : (Dev.arraysFail d x1).control = d.control := by
  fun_induction Dev.arraysFail d x1 <;> simp_all
@[simp] theorem Dev.arrayTest_control (d x1) : (Dev.arrayTest d x1).control = d.control := by
  simp [Dev.arrayTest]
@[simp] theorem Dev.quadsFail_control (d x1) : (Dev.quadsFail d x1).control = d.control := by
  fun_induction Dev.quadsFail d x1 <;> simp_all
@[simp] theorem Dev.partitionRestage_control (d) : (Dev.partitionRestage d).control = d.control := by
  unfold Dev.partitionRestage
  (repeat' split) <;> simp

/-! #### Security -/

@[simp] theorem Dev.spdmSay_control (d x1) : (Dev.spdmSay d x1).control = d.control := by
  simp [Dev.spdmSay]
@[simp] theorem Dev.spdmErr_control (d x1 x2) : (Dev.spdmErr d x1 x2).control = d.control := by
  simp [Dev.spdmErr]
theorem Dev.spdmGate_control (d : Dev) (sid : Option Nat) (req : List Byte) (len need : Nat) (go : Dev) (h : go.control = d.control) :
    (d.spdmGate sid req len need go).control = d.control := by
  unfold Dev.spdmGate
  (repeat' split) <;> simp [h]
@[simp] theorem Dev.spdmHeartbeat_control (d s r) : (Dev.spdmHeartbeat d s r).control = d.control := by
  refine Dev.spdmGate_control _ _ _ _ _ _ ?_
  split <;> simp
@[simp] theorem Dev.tapReset_control (d) : (Dev.tapReset d).control = d.control := by
  simp [Dev.tapReset]

/-! #### Power -/

@[simp] theorem Dev.boardBad_control (d) : (Dev.boardBad d).control = d.control := by
  simp [Dev.boardBad]
@[simp] theorem Dev.bootRegs_control (d) : (Dev.bootRegs d).control = d.control := by
  simp [Dev.bootRegs]
@[simp] theorem Dev.resetWord_control (d x1 x2 x3) : (Dev.resetWord d x1 x2 x3).control = d.control := by
  simp [Dev.resetWord]
@[simp] theorem Dev.pgoodFall_control (d x1 x2) : (Dev.pgoodFall d x1 x2).control = d.control := by
  simp [Dev.pgoodFall]
@[simp] theorem Dev.failsafeTry_control (d) : (Dev.failsafeTry d).control = d.control := by
  simp [Dev.failsafeTry]

/-! #### Exec -/

theorem Dev.hostDo_control (d : Dev) (w : Req) (f : Dev → Dev) (h : (f d).control = d.control) : (d.hostDo w f).control = d.control := by
  unfold Dev.hostDo
  repeat' split
  all_goals simp [h]
theorem Dev.fnDo_control (d : Dev) (w : Option Nat) (f : Dev → Dev) (h : (f d).control = d.control) : (d.fnDo w f).control = d.control := by
  unfold Dev.fnDo
  repeat' split
  all_goals simp [h]
theorem Dev.blockDo_control (d : Dev) (w : Req) (f : Dev → Dev) (h : (f d).control = d.control) : (d.blockDo w f).control = d.control := by
  unfold Dev.blockDo
  split
  · rfl
  · exact Dev.hostDo_control d w f h
theorem Dev.fwDo_control (d : Dev) (f : Dev → Dev) (h : (f d).control = d.control) : (d.fwDo f).control = d.control := by
  unfold Dev.fwDo
  repeat' split
  all_goals simp [h]
theorem Dev.linkDo_control (d : Dev) (f : Dev → Dev) (h : (f d).control = d.control) : (d.linkDo f).control = d.control := by
  unfold Dev.linkDo
  repeat' split
  all_goals simp [h]
theorem Dev.vfDo_control (d : Dev) (n : Nat) (f : Dev → Dev) (h : (f d).control = d.control) : (d.vfDo n f).control = d.control := by
  unfold Dev.vfDo
  repeat' split
  all_goals simp [h]
/-- A register write that no firmware component makes takes no protection fault (R408). -/
theorem Dev.writeDo_control {d : Dev} {w : Req} {k : Nat} {b : Bool} {f : Dev → Dev} (hw : w.isFw = false) (h : (f d).control = d.control) :
    (d.writeDo w k b f).control = d.control := by
  unfold Dev.writeDo
  split
  · exact absurd hw (by simp [Req.isFw])
  · exact Dev.hostDo_control d w f h
theorem Dev.blockWriteDo_control {d : Dev} {w : Req} {k : Nat} {f : Dev → Dev} (hw : w.isFw = false) (h : (f d).control = d.control) :
    (d.blockWriteDo w k f).control = d.control := by
  unfold Dev.blockWriteDo
  split
  · rfl
  · exact Dev.writeDo_control hw h

end Sys2Proof
end

