-- ==== Sys2Proof/Laws/Tensor.lean ====
section
/-! SUPPORT. Every function of the machine that leaves memories, cores, locks, partitions and the model store as they were says so. -/

namespace Sys2Proof

@[simp] theorem Tensor.fold (d : Dev) : Tensor.mk d.mem d.core d.lck d.ptn d.store = d.tensor := by unfold Dev.tensor; rfl
@[simp] theorem Dev.tensor_mk (now free alive regs pqRegs host erl tel tmu cat pq lck ptn core mem flow store dict fw sec pwr out) : (Dev.mk now free alive regs pqRegs host erl tel tmu cat pq lck ptn core mem flow store dict fw sec pwr out).tensor = ⟨mem, core, lck, ptn, store⟩ := by unfold Dev.tensor; rfl
@[simp] theorem Dev.tensor_ite (c : Prop) [Decidable c] (a b : Dev) : (if c then a else b).tensor = if c then a.tensor else b.tensor := by split <;> rfl
@[simp] theorem Dev.tensor_ite1 {α : Type} (c : Prop) [Decidable c] (a b : Dev × α) : (if c then a else b).1.tensor = if c then a.1.tensor else b.1.tensor := by split <;> rfl
@[simp] theorem Dev.tensor_ite2 {α : Type} (c : Prop) [Decidable c] (a b : α × Dev) : (if c then a else b).2.tensor = if c then a.2.tensor else b.2.tensor := by split <;> rfl
@[simp] theorem Dev.tensor_foldl {α : Type} (f : Dev → α → Dev) (l : List α) (d : Dev) (h : ∀ e x, (f e x).tensor = e.tensor) : (l.foldl f d).tensor = d.tensor := by
  induction l generalizing d with
  | nil => rfl
  | cons a l ih => simp [ih, h]

/-! #### Ops -/

@[simp] theorem Dev.wr_tensor (d x1 x2) : (Dev.wr d x1 x2).tensor = d.tensor := by
  simp [Dev.wr]
@[simp] theorem Dev.wrN_tensor (d x1 x2) : (Dev.wrN d x1 x2).tensor = d.tensor := by
  simp [Dev.wrN]
@[simp] theorem Dev.count_tensor (d x1 x2) : (Dev.count d x1 x2).tensor = d.tensor := by
  simp [Dev.count]
@[simp] theorem Dev.wr64_tensor (d x1 x2) : (Dev.wr64 d x1 x2).tensor = d.tensor := by
  simp [Dev.wr64]
@[simp] theorem Dev.count64_tensor (d x1 x2) : (Dev.count64 d x1 x2).tensor = d.tensor := by
  simp [Dev.count64]
@[simp] theorem Dev.regsReset_tensor (d x1 x2) : (Dev.regsReset d x1 x2).tensor = d.tensor := by
  simp [Dev.regsReset]
@[simp] theorem Dev.emit_tensor (d x1) : (Dev.emit d x1).tensor = d.tensor := by
  simp [Dev.emit]
@[simp] theorem Dev.drawN_tensor (d) : (Dev.drawN d).2.tensor = d.tensor := by
  simp [Dev.drawN]
@[simp] theorem Dev.drawB_tensor (d) : (Dev.drawB d).2.tensor = d.tensor := by
  simp [Dev.drawB]
@[simp] theorem Dev.msixRaise_tensor (d x1 x2) : (Dev.msixRaise d x1 x2).tensor = d.tensor := by
  simp [Dev.msixRaise]
@[simp] theorem Dev.teleMake_tensor (d x1 x2 x3 x4 x5 x6) : (Dev.teleMake d x1 x2 x3 x4 x5 x6).tensor = d.tensor := by
  simp [Dev.teleMake]
@[simp] theorem Dev.event_tensor (d x1 x2) : (Dev.event d x1 x2).tensor = d.tensor := by
  unfold Dev.event
  (repeat' split) <;> simp
@[simp] theorem Dev.events_tensor (d x1 x2) : (Dev.events d x1 x2).tensor = d.tensor := by
  fun_induction Dev.events d x1 x2 <;> simp_all
@[simp] theorem Dev.enableWrite_tensor (d x1 x2) : (Dev.enableWrite d x1 x2).tensor = d.tensor := by
  unfold Dev.enableWrite
  (repeat' split) <;> simp
@[simp] theorem Dev.alarmSet_tensor (d x1 x2 x3 x4 x5) : (Dev.alarmSet d x1 x2 x3 x4 x5).tensor = d.tensor := by
  simp [Dev.alarmSet]
@[simp] theorem Dev.erlLost_tensor (d x1) : (Dev.erlLost d x1).tensor = d.tensor := by
  simp [Dev.erlLost]
@[simp] theorem Dev.reportE_tensor (d x1) : (Dev.reportE d x1).tensor = d.tensor := by
  unfold Dev.reportE
  (repeat' split) <;> simp
@[simp] theorem Dev.report_tensor (d x1 x2 x3 x4 x5) : (Dev.report d x1 x2 x3 x4 x5).tensor = d.tensor := by
  simp [Dev.report]
@[simp] theorem Dev.catPut_tensor (d x1) : (Dev.catPut d x1).tensor = d.tensor := by
  simp [Dev.catPut]
@[simp] theorem Dev.notice_tensor (d x1 x2 x3) : (Dev.notice d x1 x2 x3).tensor = d.tensor := by
  simp [Dev.notice]
@[simp] theorem Dev.pqSet_tensor (d x1 x2) : (Dev.pqSet d x1 x2).tensor = d.tensor := by
  simp [Dev.pqSet]
@[simp] theorem Dev.pqPush_tensor (d x1 x2 x3) : (Dev.pqPush d x1 x2 x3).1.tensor = d.tensor := by
  unfold Dev.pqPush
  dsimp only
  (repeat' split) <;> simp_all
@[simp] theorem Dev.pqEmpty_tensor (d x1) : (Dev.pqEmpty d x1).tensor = d.tensor := by
  simp [Dev.pqEmpty]
@[simp] theorem Dev.accErr_tensor (d x1 x2 x3 x4 x5) : (Dev.accErr d x1 x2 x3 x4 x5).tensor = d.tensor := by
  unfold Dev.accErr
  (repeat' split) <;> simp
@[simp] theorem Dev.accLog_tensor (d x1 x2 x3) : (Dev.accLog d x1 x2 x3).tensor = d.tensor := by
  simp [Dev.accLog]

/-! #### DieB -/

@[simp] theorem Dev.ringEvent_tensor (d x1 x2) : (Dev.ringEvent d x1 x2).tensor = d.tensor := by
  simp [Dev.ringEvent]
@[simp] theorem Dev.ringWrite_tensor (d x1) : (Dev.ringWrite d x1).tensor = d.tensor := by
  simp [Dev.ringWrite]
@[simp] theorem Dev.catUnhold_tensor (d x1) : (Dev.catUnhold d x1).tensor = d.tensor := by
  unfold Dev.catUnhold
  (repeat' split) <;> simp
@[simp] theorem Dev.catTake_tensor (d) : (Dev.catTake d).1.tensor = d.tensor := by
  unfold Dev.catTake
  (repeat' split) <;> simp
@[simp] theorem Dev.catRtail_tensor (d x1 x2 x3) : (Dev.catRtail d x1 x2 x3).tensor = d.tensor := by
  unfold Dev.catRtail
  (repeat' split) <;> simp
@[simp] theorem Dev.ringClear_tensor (d x1) : (Dev.ringClear d x1).tensor = d.tensor := by
  simp [Dev.ringClear]
@[simp] theorem Dev.pqCfg_tensor (d x1 x2 x3 x4 x5) : (Dev.pqCfg d x1 x2 x3 x4 x5).tensor = d.tensor := by
  simp [Dev.pqCfg]
@[simp] theorem Dev.pqLatch_tensor (d x1 x2 x3) : (Dev.pqLatch d x1 x2 x3).tensor = d.tensor := by
  simp [Dev.pqLatch]
@[simp] theorem Dev.pqDenied_tensor (d x1 x2 x3 x4) : (Dev.pqDenied d x1 x2 x3 x4).tensor = d.tensor := by
  unfold Dev.pqDenied
  (repeat' split) <;> simp
@[simp] theorem Dev.pqPushCtl_tensor (d x1 x2 x3) : (Dev.pqPushCtl d x1 x2 x3).tensor = d.tensor := by
  simp [Dev.pqPushCtl]
@[simp] theorem Dev.pqPopWord_tensor (d x1 x2) : (Dev.pqPopWord d x1 x2).1.tensor = d.tensor := by
  unfold Dev.pqPopWord
  dsimp only
  (repeat' split) <;> simp
@[simp] theorem Dev.pqPopCtl_tensor (d x1 x2) : (Dev.pqPopCtl d x1 x2).tensor = d.tensor := by
  unfold Dev.pqPopCtl
  dsimp only
  (repeat' split) <;> simp

/-! #### Tensor -/

@[simp] theorem Dev.reportFree_tensor (d x1 x2 x3) : (Dev.reportFree d x1 x2 x3).tensor = d.tensor := by
  simp [Dev.reportFree]
@[simp] theorem Dev.hbmEcc_tensor (d x1 x2 x3) : (Dev.hbmEcc d x1 x2 x3).tensor = d.tensor := by
  unfold Dev.hbmEcc
  (repeat' split) <;> simp
@[simp] theorem Dev.msEcc_tensor (d x1 x2 x3) : (Dev.msEcc d x1 x2 x3).tensor = d.tensor := by
  unfold Dev.msEcc
  (repeat' split) <;> simp
@[simp] theorem Dev.shEcc_tensor (d x1 x2) : (Dev.shEcc d x1 x2).tensor = d.tensor := by
  simp [Dev.shEcc]
@[simp] theorem Dev.setPc_tensor (d x1 x2) : (Dev.setPc d x1 x2).tensor = d.tensor := by
  simp [Dev.setPc]
@[simp] theorem Dev.tally_tensor (d x1 x2) : (Dev.tally d x1 x2).tensor = d.tensor := by
  simp [Dev.tally]
@[simp] theorem Dev.afterPost_tensor (d x1 x2 x3) : (Dev.afterPost d x1 x2 x3).tensor = d.tensor := by
  simp [Dev.afterPost]
@[simp] theorem Dev.unwait_tensor (d x1) : (Dev.unwait d x1).tensor = d.tensor := by
  unfold Dev.unwait
  (repeat' split) <;> simp
@[simp] theorem Dev.eccNote_tensor (d x1 x2) : (Dev.eccNote d x1 x2).tensor = d.tensor := by
  unfold Dev.eccNote
  (repeat' split) <;> simp
@[simp] theorem Dev.bankStalls_tensor (d x1) : (Dev.bankStalls d x1).tensor = d.tensor := by
  simp [Dev.bankStalls]

/-! #### TensorSeq -/

@[simp] theorem Dev.freeBytes_tensor (d x1) : (Dev.freeBytes d x1).2.tensor = d.tensor := by
  simp [Dev.freeBytes]
@[simp] theorem Dev.moveEcc_tensor (d x1 x2) : (Dev.moveEcc d x1 x2).1.tensor = d.tensor := by
  simp [Dev.moveEcc]

/-! #### TensorCtl -/

@[simp] theorem Dev.tenRegsReset_tensor (d x1) : (Dev.tenRegsReset d x1).tensor = d.tensor := by
  simp [Dev.tenRegsReset]

/-! #### PortBase -/

@[simp] theorem Dev.reportNamed_tensor (d x1 x2 x3 x4) : (Dev.reportNamed d x1 x2 x3 x4).tensor = d.tensor := by
  simp [Dev.reportNamed]
@[simp] theorem Dev.prtCount_tensor (d x1 x2 x3) : (Dev.prtCount d x1 x2 x3).tensor = d.tensor := by
  simp [Dev.prtCount]
@[simp] theorem Dev.portSet_tensor (d x1 x2) : (Dev.portSet d x1 x2).tensor = d.tensor := by
  simp [Dev.portSet]
@[simp] theorem Dev.portUpd_tensor (d x1 x2) : (Dev.portUpd d x1 x2).tensor = d.tensor := by
  simp [Dev.portUpd]
@[simp] theorem Dev.onLane_tensor (d x1) : (Dev.onLane d x1).tensor = d.tensor := by
  simp [Dev.onLane]
@[simp] theorem Dev.pktSet_tensor (d x1 x2) : (Dev.pktSet d x1 x2).tensor = d.tensor := by
  simp [Dev.pktSet]
@[simp] theorem Dev.pktUpd_tensor (d x1 x2) : (Dev.pktUpd d x1 x2).tensor = d.tensor := by
  simp [Dev.pktUpd]
@[simp] theorem Dev.egSet_tensor (d x1 x2 x3) : (Dev.egSet d x1 x2 x3).tensor = d.tensor := by
  simp [Dev.egSet]
@[simp] theorem Dev.dropItem_tensor (d x1) : (Dev.dropItem d x1).tensor = d.tensor := by
  unfold Dev.dropItem
  (repeat' split) <;> simp
@[simp] theorem Dev.dropItems_tensor (d x1) : (Dev.dropItems d x1).tensor = d.tensor := by
  fun_induction Dev.dropItems d x1 <;> simp_all
@[simp] theorem Dev.flushPort_tensor (d x1) : (Dev.flushPort d x1).tensor = d.tensor := by
  simp [Dev.flushPort]
@[simp] theorem Dev.flushDead_tensor (d x1) : (Dev.flushDead d x1).tensor = d.tensor := by
  fun_induction Dev.flushDead d x1 <;> simp_all
@[simp] theorem Dev.qRefresh_tensor (d x1 x2) : (Dev.qRefresh d x1 x2).tensor = d.tensor := by
  simp [Dev.qRefresh]
@[simp] theorem Dev.qRefreshAll_tensor (d : Dev) (n : Nat) (qs : List Nat) : (Dev.qRefreshAll d n qs).tensor = d.tensor := by
  induction qs generalizing d with
  | nil => rfl
  | cons q qs ih => simp [Dev.qRefreshAll, ih]
@[simp] theorem Dev.promoClear_tensor (d : Dev) (n : Nat) (qs : List Nat) : (Dev.promoClear d n qs).tensor = d.tensor := by
  induction qs generalizing d with
  | nil => rfl
  | cons q qs ih => simp [Dev.promoClear, ih]

/-! #### Macsec -/

@[simp] theorem Dev.saSet_tensor (d x1 x2) : (Dev.saSet d x1 x2).tensor = d.tensor := by
  simp [Dev.saSet]
@[simp] theorem Dev.msIngress_tensor (d x1 x2) : (Dev.msIngress d x1 x2).1.tensor = d.tensor := by
  unfold Dev.msIngress
  dsimp only
  (repeat' split) <;> simp
@[simp] theorem Dev.msEgress_tensor (d n it) : (Dev.msEgress d n it).1.tensor = d.tensor := by
  unfold Dev.msEgress
  dsimp only
  (repeat' split) <;> simp

/-! #### Ports -/

@[simp] theorem Dev.pauseEmit_tensor (d x1 x2 x3) : (Dev.pauseEmit d x1 x2 x3).tensor = d.tensor := by
  simp [Dev.pauseEmit]
@[simp] theorem Dev.sendPause_tensor (d x1 x2 x3) : (Dev.sendPause d x1 x2 x3).tensor = d.tensor := by
  simp [Dev.sendPause]
@[simp] theorem Dev.pauseList_tensor (d x1 x2) : (Dev.pauseList d x1 x2).tensor = d.tensor := by
  fun_induction Dev.pauseList d x1 x2 <;> simp_all
@[simp] theorem Dev.pauseCheck1_tensor (d x1 x2) : (Dev.pauseCheck1 d x1 x2).tensor = d.tensor := by
  simp [Dev.pauseCheck1]
@[simp] theorem Dev.pauseCheckList_tensor (d x1 x2) : (Dev.pauseCheckList d x1 x2).tensor = d.tensor := by
  fun_induction Dev.pauseCheckList d x1 x2 <;> simp_all
@[simp] theorem Dev.pauseCheck_tensor (d x1) : (Dev.pauseCheck d x1).tensor = d.tensor := by
  simp [Dev.pauseCheck]
@[simp] theorem Dev.pauseRepeat_tensor (d x1 x2) : (Dev.pauseRepeat d x1 x2).tensor = d.tensor := by
  simp [Dev.pauseRepeat]
@[simp] theorem Dev.stormTx_tensor (d x1 x2) : (Dev.stormTx d x1 x2).tensor = d.tensor := by
  simp [Dev.stormTx]
@[simp] theorem Dev.timerEnd_tensor (d x1 x2) : (Dev.timerEnd d x1 x2).tensor = d.tensor := by
  simp [Dev.timerEnd]
@[simp] theorem Dev.pauseLoad_tensor (d x1 x2 x3) : (Dev.pauseLoad d x1 x2 x3).tensor = d.tensor := by
  simp [Dev.pauseLoad]
@[simp] theorem Dev.pauseFrame_tensor (d x1 x2 x3 x4) : (Dev.pauseFrame d x1 x2 x3 x4).tensor = d.tensor := by
  simp [Dev.pauseFrame]
@[simp] theorem Dev.pfcLoads_tensor (d x1 x2 x3) : (Dev.pfcLoads d x1 x2 x3).tensor = d.tensor := by
  fun_induction Dev.pfcLoads d x1 x2 x3 <;> simp_all
@[simp] theorem Dev.pfcFrame_tensor (d x1 x2 x3 x4 x5) : (Dev.pfcFrame d x1 x2 x3 x4 x5).tensor = d.tensor := by
  simp [Dev.pfcFrame]
@[simp] theorem Dev.pauseExpire_tensor (d x1 x2) : (Dev.pauseExpire d x1 x2).tensor = d.tensor := by
  simp [Dev.pauseExpire]
@[simp] theorem Dev.stormRx_tensor (d x1 x2) : (Dev.stormRx d x1 x2).tensor = d.tensor := by
  simp [Dev.stormRx]
@[simp] theorem Dev.stormRxQuiet_tensor (d x1 x2) : (Dev.stormRxQuiet d x1 x2).tensor = d.tensor := by
  simp [Dev.stormRxQuiet]
@[simp] theorem Dev.deliver_tensor (d x1 x2 x3 x4) : (Dev.deliver d x1 x2 x3 x4).tensor = d.tensor := by
  simp [Dev.deliver]
@[simp] theorem Dev.frameReceive_tensor (d x1 x2) : (Dev.frameReceive d x1 x2).tensor = d.tensor := by
  unfold Dev.frameReceive
  dsimp only
  repeat' split
  all_goals first | (simp; done) | (rename_i heq; have h := congrArg (fun r => r.1.tensor) heq; simp at h; simp [← h])
@[simp] theorem Dev.stomp_tensor (d x1 x2) : (Dev.stomp d x1 x2).tensor = d.tensor := by
  induction x2 generalizing d with
  | nil => rfl
  | cons a l ih => rw [Dev.stomp, ih]; (repeat' split) <;> simp
@[simp] theorem Dev.unqueue_tensor (d x1 x2) : (Dev.unqueue d x1 x2).tensor = d.tensor := by
  fun_induction Dev.unqueue d x1 x2 <;> simp_all
@[simp] theorem Dev.refreshHeads_tensor (d x1 x2) : (Dev.refreshHeads d x1 x2).tensor = d.tensor := by
  induction x2 generalizing d with
  | nil => rfl
  | cons a l ih => rw [Dev.refreshHeads, ih]; (repeat' split) <;> simp
@[simp] theorem Dev.frameEnd_tensor (d x1 x2) : (Dev.frameEnd d x1 x2).tensor = d.tensor := by
  unfold Dev.frameEnd
  dsimp only
  (repeat' split) <;> simp_all
@[simp] theorem Dev.freePkt_tensor (d x1) : (Dev.freePkt d x1).tensor = d.tensor := by
  simp [Dev.freePkt]
@[simp] theorem Dev.txAbort_tensor (d x1) : (Dev.txAbort d x1).tensor = d.tensor := by
  unfold Dev.txAbort
  (repeat' split) <;> simp
@[simp] theorem Dev.linkDown_tensor (d x1) : (Dev.linkDown d x1).tensor = d.tensor := by
  simp [Dev.linkDown]
@[simp] theorem Dev.retrain_tensor (d x1) : (Dev.retrain d x1).tensor = d.tensor := by
  simp [Dev.retrain]
@[simp] theorem Dev.retrainList_tensor (d x1) : (Dev.retrainList d x1).tensor = d.tensor := by
  fun_induction Dev.retrainList d x1 <;> simp_all
@[simp] theorem Dev.linkChange_tensor (d x1 x2 x3 x4) : (Dev.linkChange d x1 x2 x3 x4).tensor = d.tensor := by
  simp [Dev.linkChange]
@[simp] theorem Dev.failsafeAssert_tensor (d) : (Dev.failsafeAssert d).tensor = d.tensor := by
  simp [Dev.failsafeAssert]
@[simp] theorem Dev.dieFLoss_tensor (d) : (Dev.dieFLoss d).tensor = d.tensor := by
  simp [Dev.dieFLoss]
@[simp] theorem Dev.failsafeRelease_tensor (d x1) : (Dev.failsafeRelease d x1).tensor = d.tensor := by
  simp [Dev.failsafeRelease]
@[simp] theorem Dev.pairWait_tensor (d x1) : (Dev.pairWait d x1).tensor = d.tensor := by
  simp [Dev.pairWait]

/-! #### Classify -/

@[simp] theorem Dev.parCount_tensor (d x1) : (Dev.parCount d x1).tensor = d.tensor := by
  simp [Dev.parCount]
@[simp] theorem Dev.clsCount_tensor (d x1) : (Dev.clsCount d x1).tensor = d.tensor := by
  simp [Dev.clsCount]
@[simp] theorem Dev.clsCounts_tensor (d x1) : (Dev.clsCounts d x1).tensor = d.tensor := by
  fun_induction Dev.clsCounts d x1 <;> simp_all
@[simp] theorem Dev.seqGap_tensor (d x1 x2) : (Dev.seqGap d x1 x2).tensor = d.tensor := by
  simp [Dev.seqGap]
@[simp] theorem Dev.verUpd_tensor (d x1 x2) : (Dev.verUpd d x1 x2).tensor = d.tensor := by
  simp [Dev.verUpd]
@[simp] theorem Dev.leaveVer_tensor (d x1) : (Dev.leaveVer d x1).tensor = d.tensor := by
  simp [Dev.leaveVer]
@[simp] theorem Dev.tplUpd_tensor (d x1 x2) : (Dev.tplUpd d x1 x2).tensor = d.tensor := by
  simp [Dev.tplUpd]
@[simp] theorem Dev.stageObj_tensor (d x1 x2 x3) : (Dev.stageObj d x1 x2 x3).tensor = d.tensor := by
  unfold Dev.stageObj
  (repeat' split) <;> simp
@[simp] theorem Dev.stageAll_tensor (d x1 x2 x3) : (Dev.stageAll d x1 x2 x3).tensor = d.tensor := by
  fun_induction Dev.stageAll d x1 x2 x3 <;> simp_all
@[simp] theorem Dev.commit_tensor (d x1) : (Dev.commit d x1).1.tensor = d.tensor := by
  unfold Dev.commit
  (repeat' split) <;> simp
@[simp] theorem Dev.retire_tensor (d) : (Dev.retire d).tensor = d.tensor := by
  unfold Dev.retire
  (repeat' split) <;> simp
@[simp] theorem Dev.treeEvent_tensor (d x1 x2 x3 x4 x5) : (Dev.treeEvent d x1 x2 x3 x4 x5).tensor = d.tensor := by
  simp [Dev.treeEvent]
@[simp] theorem Dev.sweepRecs_tensor (d x1 x2) : (Dev.sweepRecs d x1 x2).tensor = d.tensor := by
  fun_induction Dev.sweepRecs d x1 x2 <;> simp_all +zetaDelta
@[simp] theorem Dev.sweep_tensor (d) : (Dev.sweep d).tensor = d.tensor := by
  unfold Dev.sweep
  (repeat' split) <;> simp
@[simp] theorem Dev.sweepEnd_tensor (d) : (Dev.sweepEnd d).tensor = d.tensor := by
  simp [Dev.sweepEnd]
@[simp] theorem Dev.puntToken_tensor (d x1 x2) : (Dev.puntToken d x1 x2).1.tensor = d.tensor := by
  simp [Dev.puntToken]
@[simp] theorem Dev.puntOffer_tensor (d x1 x2 x3) : (Dev.puntOffer d x1 x2 x3).1.tensor = d.tensor := by
  simp [Dev.puntOffer]
@[simp] theorem Dev.pktGone_tensor (d x1) : (Dev.pktGone d x1).tensor = d.tensor := by
  simp [Dev.pktGone]
@[simp] theorem Dev.puntPkt_tensor (d x1 x2 x3 x4 x5 x6) : (Dev.puntPkt d x1 x2 x3 x4 x5 x6).tensor = d.tensor := by
  simp [Dev.puntPkt]
@[simp] theorem Dev.nextHand_tensor (d) : (Dev.nextHand d).tensor = d.tensor := by
  simp [Dev.nextHand]
@[simp] theorem Dev.reinject_tensor (d x1 x2 x3) : (Dev.reinject d x1 x2 x3).tensor = d.tensor := by
  unfold Dev.reinject
  dsimp only
  (repeat' split) <;> simp_all
@[simp] theorem Dev.puntRelease_tensor (d x1 x2) : (Dev.puntRelease d x1 x2).tensor = d.tensor := by
  unfold Dev.puntRelease
  dsimp only
  (repeat' split) <;> simp
@[simp] theorem Dev.take1_tensor (d x1 x2) : (Dev.take1 d x1 x2).tensor = d.tensor := by
  simp [Dev.take1]
@[simp] theorem Dev.dispatchFrom_tensor (d x1 x2) : (Dev.dispatchFrom d x1 x2).tensor = d.tensor := by
  fun_induction Dev.dispatchFrom d x1 x2 <;> simp_all
@[simp] theorem Dev.dispatchTake_tensor (d) : (Dev.dispatchTake d).tensor = d.tensor := by
  simp [Dev.dispatchTake]
@[simp] theorem Dev.parseResult_tensor (d x1) : (Dev.parseResult d x1).tensor = d.tensor := by
  unfold Dev.parseResult
  dsimp only
  (repeat' split) <;> simp_all
@[simp] theorem Dev.byDefault_tensor (d x1 x2 x3) : (Dev.byDefault d x1 x2 x3).tensor = d.tensor := by
  simp [Dev.byDefault]
@[simp] theorem Dev.classify_tensor (d) : (Dev.classify d).tensor = d.tensor := by
  unfold Dev.classify
  dsimp only
  (repeat' split) <;> simp_all

/-! #### Flows -/

@[simp] theorem Dev.flwCount_tensor (d x1) : (Dev.flwCount d x1).tensor = d.tensor := by
  simp [Dev.flwCount]
@[simp] theorem Dev.flowSet_tensor (d x1 x2) : (Dev.flowSet d x1 x2).tensor = d.tensor := by
  simp [Dev.flowSet]
@[simp] theorem Dev.flowRecord_tensor (d x1 x2) : (Dev.flowRecord d x1 x2).tensor = d.tensor := by
  simp [Dev.flowRecord]
@[simp] theorem Dev.flowFind_tensor (d x1 x2) : (Dev.flowFind d x1 x2).1.tensor = d.tensor := by
  unfold Dev.flowFind
  dsimp only
  (repeat' split) <;> simp_all
@[simp] theorem Dev.bind_tensor (d) : (Dev.bind d).tensor = d.tensor := by
  unfold Dev.bind
  dsimp only
  (repeat' split) <;> simp
@[simp] theorem Dev.agingScan_tensor (d) : (Dev.agingScan d).tensor = d.tensor := by
  simp [Dev.agingScan]
@[simp] theorem Dev.entSetState_tensor (d x1 x2) : (Dev.entSetState d x1 x2).tensor = d.tensor := by
  simp [Dev.entSetState]
@[simp] theorem Dev.makeStale_tensor (d x1 x2) : (Dev.makeStale d x1 x2).tensor = d.tensor := by
  unfold Dev.makeStale
  dsimp only
  (repeat' split) <;> simp_all
@[simp] theorem Dev.makeStaleList_tensor (d x1 x2) : (Dev.makeStaleList d x1 x2).tensor = d.tensor := by
  fun_induction Dev.makeStaleList d x1 x2 <;> simp_all
@[simp] theorem Dev.assignRange_tensor (d x1 x2 x3) : (Dev.assignRange d x1 x2 x3).tensor = d.tensor := by
  simp [Dev.assignRange]
@[simp] theorem Dev.fidx_tensor (d x1) : (Dev.fidx d x1).tensor = d.tensor := by
  simp [Dev.fidx]
@[simp] theorem Dev.eidx_tensor (d x1) : (Dev.eidx d x1).tensor = d.tensor := by
  simp [Dev.eidx]
@[simp] theorem Dev.polSet_tensor (d x1 x2) : (Dev.polSet d x1 x2).tensor = d.tensor := by
  simp [Dev.polSet]
@[simp] theorem Dev.flowMark_tensor (d x1 x2) : (Dev.flowMark d x1 x2).tensor = d.tensor := by
  unfold Dev.flowMark
  (repeat' split) <;> simp
@[simp] theorem Dev.police_tensor (d) : (Dev.police d).tensor = d.tensor := by
  unfold Dev.police
  (repeat' split) <;> simp
@[simp] theorem Dev.policerWrite_tensor (d x1 x2 x3 x4 x5 x6 x7) : (Dev.policerWrite d x1 x2 x3 x4 x5 x6 x7).tensor = d.tensor := by
  simp [Dev.policerWrite]
@[simp] theorem Dev.pidx_tensor (d x1 x2) : (Dev.pidx d x1 x2).tensor = d.tensor := by
  simp [Dev.pidx]

/-! #### Score -/

@[simp] theorem Dev.treCount_tensor (d x1 x2) : (Dev.treCount d x1 x2).tensor = d.tensor := by
  simp [Dev.treCount]
@[simp] theorem Dev.recSet_tensor (d x1 x2) : (Dev.recSet d x1 x2).tensor = d.tensor := by
  simp [Dev.recSet]
@[simp] theorem Dev.sqSet_tensor (d x1 x2) : (Dev.sqSet d x1 x2).tensor = d.tensor := by
  simp [Dev.sqSet]
@[simp] theorem Dev.scoreDrop_tensor (d x1) : (Dev.scoreDrop d x1).tensor = d.tensor := by
  unfold Dev.scoreDrop
  (repeat' split) <;> simp
@[simp] theorem Dev.dropEnd_tensor (d x1) : (Dev.dropEnd d x1).tensor = d.tensor := by
  unfold Dev.dropEnd
  (repeat' split) <;> simp
@[simp] theorem Dev.scoreNone_tensor (d x1 x2) : (Dev.scoreNone d x1 x2).tensor = d.tensor := by
  simp [Dev.scoreNone]
@[simp] theorem Dev.scoreAdmit_tensor (d) : (Dev.scoreAdmit d).tensor = d.tensor := by
  fun_cases Dev.scoreAdmit d <;> simp_all
@[simp] theorem Dev.grantHead_tensor (d x1 x2 x3 x4) : (Dev.grantHead d x1 x2 x3 x4).tensor = d.tensor := by
  simp [Dev.grantHead]
@[simp] theorem Dev.grantEns_tensor (d x1 x2 x3) : (Dev.grantEns d x1 x2 x3).1.tensor = d.tensor := by
  fun_induction Dev.grantEns d x1 x2 x3 <;> simp_all
@[simp] theorem Dev.grantFrom_tensor (d : Dev) (es free : List Nat) : (Dev.grantFrom d es free).tensor = d.tensor := by
  induction es generalizing d free with
  | nil => rfl
  | cons e es ih => simp [Dev.grantFrom, ih]
@[simp] theorem Dev.scoreGrant_tensor (d) : (Dev.scoreGrant d).tensor = d.tensor := by
  simp [Dev.scoreGrant]
@[simp] theorem Dev.copyUpd_tensor (d x1 x2 x3) : (Dev.copyUpd d x1 x2 x3).tensor = d.tensor := by
  simp [Dev.copyUpd]
@[simp] theorem Dev.failQueued_tensor (d x1 x2 x3) : (Dev.failQueued d x1 x2 x3).tensor = d.tensor := by
  fun_induction Dev.failQueued d x1 x2 x3 <;> simp_all
@[simp] theorem Dev.slotParity_tensor (d x1 x2 x3) : (Dev.slotParity d x1 x2 x3).tensor = d.tensor := by
  unfold Dev.slotParity
  (repeat' split) <;> simp
@[simp] theorem Dev.scoreDeliver_tensor (d x1) : (Dev.scoreDeliver d x1).tensor = d.tensor := by
  unfold Dev.scoreDeliver
  dsimp only
  (repeat' split) <;> simp
@[simp] theorem Dev.slotReloaded_tensor (d x1) : (Dev.slotReloaded d x1).tensor = d.tensor := by
  unfold Dev.slotReloaded
  (repeat' split) <;> simp
@[simp] theorem Dev.fabricScrub_tensor (d x1) : (Dev.fabricScrub d x1).tensor = d.tensor := by
  unfold Dev.fabricScrub
  (repeat' split) <;> simp

/-! #### Egress -/

@[simp] theorem Dev.visCount_tensor (d x1) : (Dev.visCount d x1).tensor = d.tensor := by
  simp [Dev.visCount]
@[simp] theorem Dev.visorVerdict_tensor (d) : (Dev.visorVerdict d).tensor = d.tensor := by
  unfold Dev.visorVerdict
  dsimp only
  (repeat' split) <;> simp_all
@[simp] theorem Dev.taggedQuiet_tensor (d x1) : (Dev.taggedQuiet d x1).tensor = d.tensor := by
  simp [Dev.taggedQuiet]
@[simp] theorem Dev.noteFileable_tensor (d x1) : (Dev.noteFileable d x1).tensor = d.tensor := by
  simp [Dev.noteFileable]
@[simp] theorem Dev.noteFileables_tensor (d x1) : (Dev.noteFileables d x1).tensor = d.tensor := by
  fun_induction Dev.noteFileables d x1 <;> simp_all
@[simp] theorem Dev.settle_tensor (d x1) : (Dev.settle d x1).tensor = d.tensor := by
  simp [Dev.settle]
@[simp] theorem Dev.release1_tensor (d x1) : (Dev.release1 d x1).1.tensor = d.tensor := by
  unfold Dev.release1
  dsimp only
  (repeat' split) <;> simp_all
@[simp] theorem Dev.releasePort_tensor (d : Dev) (n k : Nat) : (Dev.releasePort d n k).tensor = d.tensor := by
  induction k generalizing d with
  | zero => rfl
  | succ k ih =>
    have h := Dev.release1_tensor d n
    unfold Dev.releasePort
    split <;> rename_i heq <;> rw [heq] at h <;> simp_all
@[simp] theorem Dev.reorderRelease_tensor (d x1) : (Dev.reorderRelease d x1).tensor = d.tensor := by
  simp [Dev.reorderRelease]
@[simp] theorem Dev.enqueue_tensor (d x1 x2 x3) : (Dev.enqueue d x1 x2 x3).1.tensor = d.tensor := by
  unfold Dev.enqueue
  dsimp only
  (repeat' split) <;> simp_all
@[simp] theorem Dev.mirrorCopy_tensor (d x1 x2 x3) : (Dev.mirrorCopy d x1 x2 x3).tensor = d.tensor := by
  simp [Dev.mirrorCopy]
@[simp] theorem Dev.egressEnqueue_tensor (d) : (Dev.egressEnqueue d).tensor = d.tensor := by
  unfold Dev.egressEnqueue
  (repeat' split) <;> simp
@[simp] theorem Dev.drrPick_tensor (d : Dev) (n b k q : Nat) (h : Bool) : (Dev.drrPick d n b k q h).1.tensor = d.tensor := by
  induction k generalizing d q h with
  | zero => rfl
  | succ k ih =>
    unfold Dev.drrPick
    dsimp only
    repeat' split
    all_goals simp [ih]
@[simp] theorem Dev.txStamp_tensor (d x1 x2) : (Dev.txStamp d x1 x2).1.tensor = d.tensor := by
  unfold Dev.txStamp
  dsimp only
  (repeat' split) <;> simp_all
@[simp] theorem Dev.txStart_tensor (d x1 x2 x3 x4) : (Dev.txStart d x1 x2 x3 x4).tensor = d.tensor := by
  unfold Dev.txStart
  cases hx : (d.egAt x1 x2).items with
  | nil => simp [hx]
  | cons it rest =>
    have h := Dev.msEgress_tensor (d.txStamp x1 it).1 x1 (d.txStamp x1 it).2
    cases hm : Dev.msEgress (d.txStamp x1 it).1 x1 (d.txStamp x1 it).2 with
    | mk e o => cases o <;> simp_all
@[simp] theorem Dev.promote1_tensor (d x1 x2) : (Dev.promote1 d x1 x2).tensor = d.tensor := by
  unfold Dev.promote1
  (repeat' split) <;> simp
@[simp] theorem Dev.drrExcess_tensor (d n) : (Dev.drrExcess d n).tensor = d.tensor := by
  unfold Dev.drrExcess
  dsimp only
  (repeat' split) <;> simp
@[simp] theorem Dev.drrGuaranteed_tensor (d n) : (Dev.drrGuaranteed d n).tensor = d.tensor := by
  unfold Dev.drrGuaranteed
  dsimp only
  (repeat' split) <;> simp
@[simp] theorem Dev.schedule_tensor (d n) : (Dev.schedule d n).tensor = d.tensor := by
  unfold Dev.schedule
  dsimp only
  (repeat' split) <;> simp
@[simp] theorem Dev.queueStarved_tensor (d x1 x2) : (Dev.queueStarved d x1 x2).tensor = d.tensor := by
  simp [Dev.queueStarved]
@[simp] theorem Dev.queueWrite_tensor (d x1 x2 x3) : (Dev.queueWrite d x1 x2 x3).tensor = d.tensor := by
  simp [Dev.queueWrite]
@[simp] theorem Dev.txEnd_tensor (d x1) : (Dev.txEnd d x1).tensor = d.tensor := by
  unfold Dev.txEnd
  (repeat' split) <;> simp
@[simp] theorem Dev.freeIdle_tensor (d) : (Dev.freeIdle d).tensor = d.tensor := by
  unfold Dev.freeIdle
  (repeat' split) <;> simp
@[simp] theorem Dev.frameEndAll_tensor (d n g) : (Dev.frameEndAll d n g).tensor = d.tensor := by
  unfold Dev.frameEndAll
  dsimp only
  (repeat' split) <;> simp

/-! #### Huddle -/

@[simp] theorem Dev.hudCount_tensor (d x1 x2) : (Dev.hudCount d x1 x2).tensor = d.tensor := by
  simp [Dev.hudCount]
@[simp] theorem Dev.grpSet_tensor (d x1 x2) : (Dev.grpSet d x1 x2).tensor = d.tensor := by
  simp [Dev.grpSet]
@[simp] theorem Dev.hudEvent_tensor (d x1 x2 x3 x4 x5) : (Dev.hudEvent d x1 x2 x3 x4 x5).tensor = d.tensor := by
  simp [Dev.hudEvent]
@[simp] theorem Dev.fileValue_tensor (d x1 x2 x3 x4) : (Dev.fileValue d x1 x2 x3 x4).tensor = d.tensor := by
  unfold Dev.fileValue
  dsimp only
  (repeat' split) <;> simp
@[simp] theorem Dev.fileValues_tensor (d x1 x2 x3) : (Dev.fileValues d x1 x2 x3).tensor = d.tensor := by
  fun_induction Dev.fileValues d x1 x2 x3 <;> simp_all
@[simp] theorem Dev.hudCounts_tensor (d x1) : (Dev.hudCounts d x1).tensor = d.tensor := by
  fun_induction Dev.hudCounts d x1 <;> simp_all
@[simp] theorem Dev.fileDrop_tensor (d x1 x2 x3) : (Dev.fileDrop d x1 x2 x3).tensor = d.tensor := by
  unfold Dev.fileDrop
  (repeat' split) <;> simp
@[simp] theorem Dev.filePkt_tensor (d x1) : (Dev.filePkt d x1).tensor = d.tensor := by
  unfold Dev.filePkt
  dsimp only
  (repeat' split) <;> simp
@[simp] theorem Dev.takeFiles_tensor (d x1) : (Dev.takeFiles d x1).tensor = d.tensor := by
  fun_induction Dev.takeFiles d x1 <;> simp_all
@[simp] theorem Dev.huddleTake_tensor (d) : (Dev.huddleTake d).tensor = d.tensor := by
  simp [Dev.huddleTake]
@[simp] theorem Dev.stepGroup_tensor (d x1) : (Dev.stepGroup d x1).tensor = d.tensor := by
  fun_cases Dev.stepGroup d x1 <;> simp_all
@[simp] theorem Dev.stepGroups_tensor (d x1) : (Dev.stepGroups d x1).tensor = d.tensor := by
  fun_induction Dev.stepGroups d x1 <;> simp_all
@[simp] theorem Dev.resultPost_tensor (d) : (Dev.resultPost d).tensor = d.tensor := by
  unfold Dev.resultPost
  dsimp only
  (repeat' split) <;> simp
@[simp] theorem Dev.backEntity_tensor (d x1 x2 x3 x4) : (Dev.backEntity d x1 x2 x3 x4).1.tensor = d.tensor := by
  unfold Dev.backEntity
  dsimp only
  (repeat' split) <;> simp
@[simp] theorem Dev.backEntities_tensor (d : Dev) (r : List Byte) (n e : Nat) (xs : List (List Nat)) (acc) :
    (Dev.backEntities d r n e xs acc).1.tensor = d.tensor := by
  induction xs generalizing d e acc with
  | nil => rfl
  | cons x xs ih =>
    have h := Dev.backEntity_tensor d r n e x
    unfold Dev.backEntities
    split <;> rename_i heq <;> rw [heq] at h <;> rw [ih, h]
@[simp] theorem Dev.report1_tensor (d x1 x2 x3 x4 x5 x6 x7) : (Dev.report1 d x1 x2 x3 x4 x5 x6 x7).tensor = d.tensor := by
  simp [Dev.report1]
@[simp] theorem Dev.reports_tensor (d x1 x2 x3 x4 x5 x6) : (Dev.reports d x1 x2 x3 x4 x5 x6).tensor = d.tensor := by
  fun_induction Dev.reports d x1 x2 x3 x4 x5 x6 <;> simp_all
@[simp] theorem Dev.reportAll_tensor (d x1 x2 x3 x4 x5) : (Dev.reportAll d x1 x2 x3 x4 x5).tensor = d.tensor := by
  simp [Dev.reportAll]
@[simp] theorem Dev.resultWriteback_tensor (d x1 x2) : (Dev.resultWriteback d x1 x2).tensor = d.tensor := by
  unfold Dev.resultWriteback
  dsimp only
  (repeat' split) <;> simp
@[simp] theorem Dev.resultDeadline_tensor (d x1) : (Dev.resultDeadline d x1).tensor = d.tensor := by
  unfold Dev.resultDeadline
  dsimp only
  (repeat' split) <;> simp
@[simp] theorem Dev.staleGroups_tensor (d : Dev) (p : Nat) (gs : List Nat) : (Dev.staleGroups d p gs).tensor = d.tensor := by
  induction gs generalizing d with
  | nil => rfl
  | cons g gs ih => rw [Dev.staleGroups, ih]; (repeat' split) <;> simp
@[simp] theorem Dev.releaseBuffers_tensor (d x1) : (Dev.releaseBuffers d x1).tensor = d.tensor := by
  simp [Dev.releaseBuffers]

/-! #### Loader -/

theorem Dev.placeEns_tensor {d d1 : Dev} {p n b} (h : d.placeEns p n b = some d1) : d1.tensor = d.tensor := by
  simp only [Dev.placeEns] at h
  repeat' split at h
  all_goals first | (cases h; done) | (simp only [Option.some.injEq] at h; rw [← h]; simp)
theorem Dev.placeEns_getD_tensor (d : Dev) (p n b) : ((d.placeEns p n b).getD d).tensor = d.tensor := by
  cases h : d.placeEns p n b with
  | none => rfl
  | some d1 => exact Dev.placeEns_tensor h
@[simp] theorem Dev.stageFw_tensor (d x1 x2 x3) : (Dev.stageFw d x1 x2 x3).tensor = d.tensor := by
  fun_induction Dev.stageFw d x1 x2 x3 <;> simp_all [Dev.placeEns_getD_tensor]
@[simp] theorem Dev.versionCommit_tensor (d x1 x2 x3) : (Dev.versionCommit d x1 x2 x3).tensor = d.tensor := by
  unfold Dev.versionCommit
  (repeat' split) <;> simp

/-! #### Memory -/

@[simp] theorem Dev.msRefresh_tensor (d) : (Dev.msRefresh d).tensor = d.tensor := by
  simp [Dev.msRefresh]
@[simp] theorem Dev.stageRefresh_tensor (d : Dev) (ps : List Nat) : (Dev.stageRefresh d ps).tensor = d.tensor := by
  induction ps generalizing d with
  | nil => rfl
  | cons p ps ih => rw [Dev.stageRefresh, ih]; split <;> simp
@[simp] theorem Dev.shareRegs_tensor (d x1) : (Dev.shareRegs d x1).tensor = d.tensor := by
  fun_induction Dev.shareRegs d x1 <;> simp_all
theorem Dev.stageSections_tensor {d d1 : Dev} {p n ss} (h : d.stageSections p n ss = some d1) : d1.tensor = d.tensor := by
  induction ss generalizing d with
  | nil => simp only [Dev.stageSections, Option.some.injEq] at h; rw [h]
  | cons s ss ih =>
    unfold Dev.stageSections at h
    repeat' split at h
    · rename_i heq; rw [ih h, Dev.placeEns_tensor heq]
    · cases h
    · cases h
    · rw [ih h]; simp
    · rw [ih h]; simp
    · exact ih h
theorem Dev.stageSections_getD_tensor (d : Dev) (p n ss) : ((d.stageSections p n ss).getD d).tensor = d.tensor := by
  cases h : d.stageSections p n ss with
  | none => rfl
  | some d1 => exact Dev.stageSections_tensor h
@[simp] theorem Dev.endBundle_tensor (d x1 x2) : (Dev.endBundle d x1 x2).tensor = d.tensor := by
  simp [Dev.endBundle]
@[simp] theorem Dev.endBundles_tensor (d x1 x2) : (Dev.endBundles d x1 x2).tensor = d.tensor := by
  fun_induction Dev.endBundles d x1 x2 <;> simp_all
@[simp] theorem Dev.measChange_tensor (d x1) : (Dev.measChange d x1).tensor = d.tensor := by
  simp [Dev.measChange]

/-! #### ErrLog -/

@[simp] theorem Dev.erlAnnounce_tensor (d x1) : (Dev.erlAnnounce d x1).tensor = d.tensor := by
  simp [Dev.erlAnnounce]
@[simp] theorem Dev.newEntry_tensor (d x1) : (Dev.newEntry d x1).tensor = d.tensor := by
  unfold Dev.newEntry
  (repeat' split) <;> simp
@[simp] theorem Dev.erlTake_tensor (d) : (Dev.erlTake d).tensor = d.tensor := by
  fun_cases Dev.erlTake d <;> simp_all +zetaDelta
@[simp] theorem Dev.erlClear_tensor (d x1) : (Dev.erlClear d x1).tensor = d.tensor := by
  simp [Dev.erlClear]
@[simp] theorem Dev.erlIdx_tensor (d x1) : (Dev.erlIdx d x1).tensor = d.tensor := by
  simp [Dev.erlIdx]

/-! #### Partition -/

@[simp] theorem Dev.wrBytes_tensor (d x1 x2 x3) : (Dev.wrBytes d x1 x2 x3).tensor = d.tensor := by
  simp [Dev.wrBytes]
@[simp] theorem Dev.ptnRegs_tensor (d) : (Dev.ptnRegs d).tensor = d.tensor := by
  simp [Dev.ptnRegs]
@[simp] theorem Dev.stackStat_tensor (d x1 x2) : (Dev.stackStat d x1 x2).tensor = d.tensor := by
  simp [Dev.stackStat]
@[simp] theorem Dev.emptyQueues_tensor (d x1) : (Dev.emptyQueues d x1).tensor = d.tensor := by
  fun_induction Dev.emptyQueues d x1 <;> simp_all
@[simp] theorem Dev.remapNotice_tensor (d x1 x2 x3 x4 x5 x6) : (Dev.remapNotice d x1 x2 x3 x4 x5 x6).tensor = d.tensor := by
  simp [Dev.remapNotice]
@[simp] theorem Dev.remapHolds_tensor (d) : (Dev.remapHolds d).tensor = d.tensor := by
  simp [Dev.remapHolds]

/-! #### Telemetry -/

@[simp] theorem Dev.pathSet_tensor (d x1 x2) : (Dev.pathSet d x1 x2).tensor = d.tensor := by
  simp [Dev.pathSet]
@[simp] theorem Dev.offer_tensor (d x1 x2) : (Dev.offer d x1 x2).tensor = d.tensor := by
  simp [Dev.offer]
@[simp] theorem Dev.teleRecord_tensor (d) : (Dev.teleRecord d).tensor = d.tensor := by
  unfold Dev.teleRecord
  (repeat' split) <;> simp
@[simp] theorem Dev.mgmtOut_tensor (d x1) : (Dev.mgmtOut d x1).tensor = d.tensor := by
  simp [Dev.mgmtOut]
@[simp] theorem Dev.emitAll_tensor (d x1) : (Dev.emitAll d x1).tensor = d.tensor := by
  fun_induction Dev.emitAll d x1 <;> simp_all
@[simp] theorem Dev.mgmtDrain_tensor (d) : (Dev.mgmtDrain d).tensor = d.tensor := by
  simp [Dev.mgmtDrain]
@[simp] theorem Dev.teleDgram_tensor (d x1) : (Dev.teleDgram d x1).tensor = d.tensor := by
  simp [Dev.teleDgram]
@[simp] theorem Dev.teleFirst_tensor (d x1 x2) : (Dev.teleFirst d x1 x2).tensor = d.tensor := by
  simp [Dev.teleFirst]
@[simp] theorem Dev.alarmSend_tensor (d) : (Dev.alarmSend d).tensor = d.tensor := by
  unfold Dev.alarmSend
  (repeat' split) <;> simp
@[simp] theorem Dev.alarmsAgain_tensor (d x1) : (Dev.alarmsAgain d x1).tensor = d.tensor := by
  simp [Dev.alarmsAgain]
@[simp] theorem Dev.summary_tensor (d x1) : (Dev.summary d x1).tensor = d.tensor := by
  simp [Dev.summary]
@[simp] theorem Dev.pathUp_tensor (d x1) : (Dev.pathUp d x1).tensor = d.tensor := by
  simp [Dev.pathUp]
@[simp] theorem Dev.pathDown_tensor (d x1) : (Dev.pathDown d x1).tensor = d.tensor := by
  simp [Dev.pathDown]
@[simp] theorem Dev.portRecords_tensor (d x1) : (Dev.portRecords d x1).tensor = d.tensor := by
  fun_induction Dev.portRecords d x1 <;> simp_all
@[simp] theorem Dev.ptnRecords_tensor (d x1) : (Dev.ptnRecords d x1).tensor = d.tensor := by
  fun_induction Dev.ptnRecords d x1 <;> simp_all
@[simp] theorem Dev.summaryPeriod_tensor (d) : (Dev.summaryPeriod d).tensor = d.tensor := by
  simp [Dev.summaryPeriod]
@[simp] theorem Dev.teleSend_tensor (d) : (Dev.teleSend d).tensor = d.tensor := by
  simp [Dev.teleSend]
@[simp] theorem Dev.recvComplete_tensor (d x1) : (Dev.recvComplete d x1).tensor = d.tensor := by
  unfold Dev.recvComplete
  dsimp only
  (repeat' split) <;> simp
@[simp] theorem Dev.fwTele_tensor (d x1 x2 x3 x4 x5 x6) : (Dev.fwTele d x1 x2 x3 x4 x5 x6).tensor = d.tensor := by
  simp [Dev.fwTele]

/-! #### TimeUnit -/

@[simp] theorem Dev.tmuCount_tensor (d x1) : (Dev.tmuCount d x1).tensor = d.tensor := by
  simp [Dev.tmuCount]
@[simp] theorem Dev.tmuRegs_tensor (d) : (Dev.tmuRegs d).tensor = d.tensor := by
  simp [Dev.tmuRegs]
@[simp] theorem Dev.tmuUpd_tensor (d x1) : (Dev.tmuUpd d x1).tensor = d.tensor := by
  simp [Dev.tmuUpd]
@[simp] theorem Dev.tmuState_tensor (d x1) : (Dev.tmuState d x1).tensor = d.tensor := by
  simp [Dev.tmuState]
@[simp] theorem Dev.reselect_tensor (d) : (Dev.reselect d).tensor = d.tensor := by
  simp [Dev.reselect]
@[simp] theorem Dev.foldGrowth_tensor (d) : (Dev.foldGrowth d).tensor = d.tensor := by
  simp [Dev.foldGrowth]
@[simp] theorem Dev.setBound_tensor (d x1) : (Dev.setBound d x1).tensor = d.tensor := by
  simp [Dev.setBound]
@[simp] theorem Dev.errorBound_tensor (d) : (Dev.errorBound d).tensor = d.tensor := by
  simp [Dev.errorBound]
@[simp] theorem Dev.slewBy_tensor (d x1) : (Dev.slewBy d x1).tensor = d.tensor := by
  simp [Dev.slewBy]
@[simp] theorem Dev.schedStep_tensor (d x1) : (Dev.schedStep d x1).tensor = d.tensor := by
  unfold Dev.schedStep
  (repeat' split) <;> simp
@[simp] theorem Dev.cancelStep_tensor (d) : (Dev.cancelStep d).tensor = d.tensor := by
  unfold Dev.cancelStep
  (repeat' split) <;> simp
@[simp] theorem Dev.boundAt_tensor (d x1 x2) : (Dev.boundAt d x1 x2).tensor = d.tensor := by
  simp [Dev.boundAt]
@[simp] theorem Dev.noteOffset_tensor (d x1 x2 x3) : (Dev.noteOffset d x1 x2 x3).tensor = d.tensor := by
  simp [Dev.noteOffset]
@[simp] theorem Dev.slewMeas_tensor (d x1) : (Dev.slewMeas d x1).tensor = d.tensor := by
  simp [Dev.slewMeas]
@[simp] theorem Dev.lockMeas_tensor (d x1) : (Dev.lockMeas d x1).tensor = d.tensor := by
  simp [Dev.lockMeas]
@[simp] theorem Dev.applyOffset_tensor (d x1 x2) : (Dev.applyOffset d x1 x2).tensor = d.tensor := by
  simp [Dev.applyOffset]
@[simp] theorem Dev.utcSet_tensor (d x1) : (Dev.utcSet d x1).tensor = d.tensor := by
  simp [Dev.utcSet]
@[simp] theorem Dev.ptpUtc_tensor (d) : (Dev.ptpUtc d).tensor = d.tensor := by
  unfold Dev.ptpUtc
  (repeat' split) <;> simp
@[simp] theorem Dev.goodMeas_tensor (d x1 x2 x3) : (Dev.goodMeas d x1 x2 x3).tensor = d.tensor := by
  simp [Dev.goodMeas]
@[simp] theorem Dev.sourceLoss_tensor (d x1) : (Dev.sourceLoss d x1).tensor = d.tensor := by
  simp [Dev.sourceLoss]
@[simp] theorem Dev.ptpMeasurement_tensor (d x1 x2 x3 x4 x5) : (Dev.ptpMeasurement d x1 x2 x3 x4 x5).tensor = d.tensor := by
  unfold Dev.ptpMeasurement
  (repeat' split) <;> simp
@[simp] theorem Dev.ppsIn_tensor (d x1) : (Dev.ppsIn d x1).tensor = d.tensor := by
  simp [Dev.ppsIn]
@[simp] theorem Dev.irigFrame_tensor (d x1 x2) : (Dev.irigFrame d x1 x2).tensor = d.tensor := by
  simp [Dev.irigFrame]
@[simp] theorem Dev.timeSet_tensor (d x1 x2) : (Dev.timeSet d x1 x2).1.tensor = d.tensor := by
  unfold Dev.timeSet
  (repeat' split) <;> simp
@[simp] theorem Dev.stepLand_tensor (d) : (Dev.stepLand d).tensor = d.tensor := by
  unfold Dev.stepLand
  (repeat' split) <;> simp
@[simp] theorem Dev.refLoss_tensor (d) : (Dev.refLoss d).tensor = d.tensor := by
  simp [Dev.refLoss]
@[simp] theorem Dev.refReturn_tensor (d) : (Dev.refReturn d).tensor = d.tensor := by
  simp [Dev.refReturn]
@[simp] theorem Dev.ppsOut_tensor (d) : (Dev.ppsOut d).tensor = d.tensor := by
  simp [Dev.ppsOut]
@[simp] theorem Dev.ppsOutEnd_tensor (d) : (Dev.ppsOutEnd d).tensor = d.tensor := by
  simp [Dev.ppsOutEnd]
@[simp] theorem Dev.leapSecond_tensor (d) : (Dev.leapSecond d).tensor = d.tensor := by
  simp [Dev.leapSecond]
@[simp] theorem Dev.timeCfg_tensor (d x1 x2) : (Dev.timeCfg d x1 x2).tensor = d.tensor := by
  simp [Dev.timeCfg]
@[simp] theorem Dev.ptpHear_tensor (d x1 x2) : (Dev.ptpHear d x1 x2).tensor = d.tensor := by
  simp [Dev.ptpHear]
@[simp] theorem Dev.nowWord_tensor (d x1) : (Dev.nowWord d x1).1.tensor = d.tensor := by
  simp [Dev.nowWord]
@[simp] theorem Dev.nowRead_tensor (d x1) : (Dev.nowRead d x1).tensor = d.tensor := by
  simp [Dev.nowRead]
@[simp] theorem Dev.tick_tensor (d) : (Dev.tick d).tensor = d.tensor := by
  simp [Dev.tick]

/-! #### Host -/

@[simp] theorem Dev.mbxSet_tensor (d x1 x2) : (Dev.mbxSet d x1 x2).tensor = d.tensor := by
  simp [Dev.mbxSet]
@[simp] theorem Dev.dmaSet_tensor (d x1 x2 x3) : (Dev.dmaSet d x1 x2 x3).tensor = d.tensor := by
  simp [Dev.dmaSet]
@[simp] theorem Dev.accFail_tensor (d x1 x2 x3 x4 x5) : (Dev.accFail d x1 x2 x3 x4 x5).tensor = d.tensor := by
  unfold Dev.accFail
  (repeat' split) <;> simp
@[simp] theorem Dev.plainWrite_tensor (d x1 x2 x3 x4) : (Dev.plainWrite d x1 x2 x3 x4).tensor = d.tensor := by
  simp [Dev.plainWrite]
@[simp] theorem Dev.stageLow_tensor (d x1 x2 x3) : (Dev.stageLow d x1 x2 x3).tensor = d.tensor := by
  simp [Dev.stageLow]
@[simp] theorem Dev.pairTake_tensor (d x1 x2 x3) : (Dev.pairTake d x1 x2 x3).tensor = d.tensor := by
  simp [Dev.pairTake]
@[simp] theorem Dev.pairLowWrite_tensor (d x1 x2 x3) : (Dev.pairLowWrite d x1 x2 x3).tensor = d.tensor := by
  unfold Dev.pairLowWrite
  (repeat' split) <;> simp
@[simp] theorem Dev.pairHighWrite_tensor (d x1 x2 x3) : (Dev.pairHighWrite d x1 x2 x3).tensor = d.tensor := by
  unfold Dev.pairHighWrite
  (repeat' split) <;> simp
@[simp] theorem Dev.pairWrite_tensor (d x1 x2 x3 x4) : (Dev.pairWrite d x1 x2 x3 x4).tensor = d.tensor := by
  unfold Dev.pairWrite
  (repeat' split) <;> simp
@[simp] theorem Dev.readTimeout_tensor (d x1 x2) : (Dev.readTimeout d x1 x2).tensor = d.tensor := by
  simp [Dev.readTimeout]
@[simp] theorem Dev.mbxEvent_tensor (d x1 x2) : (Dev.mbxEvent d x1 x2).tensor = d.tensor := by
  simp [Dev.mbxEvent]
@[simp] theorem Dev.mbxBad_tensor (d x1) : (Dev.mbxBad d x1).tensor = d.tensor := by
  simp [Dev.mbxBad]
@[simp] theorem Dev.mbxRing_tensor (d x1) : (Dev.mbxRing d x1).tensor = d.tensor := by
  simp [Dev.mbxRing]
@[simp] theorem Dev.mbxDeliver_tensor (d x1 x2) : (Dev.mbxDeliver d x1 x2).tensor = d.tensor := by
  simp [Dev.mbxDeliver]
@[simp] theorem Dev.mbxRack_tensor (d x1) : (Dev.mbxRack d x1).tensor = d.tensor := by
  unfold Dev.mbxRack
  dsimp only
  (repeat' split) <;> simp
@[simp] theorem Dev.mbxRespond_tensor (d x1 x2 x3 x4 x5) : (Dev.mbxRespond d x1 x2 x3 x4 x5).tensor = d.tensor := by
  simp [Dev.mbxRespond]
@[simp] theorem Dev.mbxTake_tensor (d x1) : (Dev.mbxTake d x1).tensor = d.tensor := by
  fun_cases Dev.mbxTake d x1 <;> simp_all +zetaDelta
@[simp] theorem Dev.answer_tensor (d x1 x2 x3 x4) : (Dev.answer d x1 x2 x3 x4).tensor = d.tensor := by
  simp [Dev.answer]
@[simp] theorem Dev.messageSegment_tensor (d x1) : (Dev.messageSegment d x1).tensor = d.tensor := by
  unfold Dev.messageSegment
  (repeat' split) <;> simp
@[simp] theorem Dev.hello_tensor (d x1) : (Dev.hello d x1).tensor = d.tensor := by
  unfold Dev.hello
  (repeat' split) <;> simp
@[simp] theorem Dev.bundleStatus_tensor (d) : (Dev.bundleStatus d).tensor = d.tensor := by
  unfold Dev.bundleStatus
  (repeat' split) <;> simp
theorem Dev.coreCtrl_tensor (d : Dev) (n op : Nat) (f : Dev → Nat → Nat → Nat → Dev) (h : ∀ e x y z, (f e x y z).tensor = e.tensor) :
    (d.coreCtrl n op f).tensor = d.tensor := by
  unfold Dev.coreCtrl
  dsimp only
  repeat' split
  all_goals simp [h]
@[simp] theorem Dev.coreSetHeld_tensor (d x1 x2 x3) : (Dev.coreSetHeld d x1 x2 x3).tensor = d.tensor := by
  simp [Dev.coreSetHeld]
@[simp] theorem Dev.coreSetSave_tensor (d n) : (Dev.coreSetSave d n).tensor = d.tensor := by
  refine Dev.coreCtrl_tensor _ _ _ _ ?_
  intros
  (repeat' split) <;> simp
@[simp] theorem Dev.directGrant_tensor (d) : (Dev.directGrant d).tensor = d.tensor := by
  unfold Dev.directGrant
  (repeat' split) <;> simp
@[simp] theorem Dev.dmaqCreate_tensor (d x1) : (Dev.dmaqCreate d x1).tensor = d.tensor := by
  unfold Dev.dmaqCreate
  (repeat' split) <;> simp
@[simp] theorem Dev.dmaqDestroy_tensor (d x1) : (Dev.dmaqDestroy d x1).tensor = d.tensor := by
  unfold Dev.dmaqDestroy
  (repeat' split) <;> simp
@[simp] theorem Dev.sqDoorbell_tensor (d x1 x2 x3) : (Dev.sqDoorbell d x1 x2 x3).tensor = d.tensor := by
  simp [Dev.sqDoorbell]
@[simp] theorem Dev.cqHeadWrite_tensor (d x1 x2 x3) : (Dev.cqHeadWrite d x1 x2 x3).tensor = d.tensor := by
  simp [Dev.cqHeadWrite]
@[simp] theorem Dev.dmaRecv_tensor (d x1 x2) : (Dev.dmaRecv d x1 x2).tensor = d.tensor := by
  simp [Dev.dmaRecv]
@[simp] theorem Dev.dmaComplete_tensor (d x1 x2) : (Dev.dmaComplete d x1 x2).tensor = d.tensor := by
  unfold Dev.dmaComplete
  dsimp only
  (repeat' split) <;> simp
@[simp] theorem Dev.msixDeliver_tensor (d x1 x2) : (Dev.msixDeliver d x1 x2).tensor = d.tensor := by
  simp [Dev.msixDeliver]
@[simp] theorem Dev.headLoad_tensor (d) : (Dev.headLoad d).tensor = d.tensor := by
  simp [Dev.headLoad]
@[simp] theorem Dev.fnReset_tensor (d x1) : (Dev.fnReset d x1).tensor = d.tensor := by
  simp [Dev.fnReset]
@[simp] theorem Dev.fnResets_tensor (d x1) : (Dev.fnResets d x1).tensor = d.tensor := by
  fun_induction Dev.fnResets d x1 <;> simp_all +zetaDelta
@[simp] theorem Dev.linkTrained_tensor (d x1 x2 x3) : (Dev.linkTrained d x1 x2 x3).tensor = d.tensor := by
  simp [Dev.linkTrained]
@[simp] theorem Dev.configWrite_tensor (d x1) : (Dev.configWrite d x1).tensor = d.tensor := by
  unfold Dev.configWrite
  (repeat' split) <;> simp
@[simp] theorem Dev.doeDiscovery_tensor (d x1) : (Dev.doeDiscovery d x1).tensor = d.tensor := by
  simp [Dev.doeDiscovery]

/-! #### SecOps -/

@[simp] theorem Dev.secRegs_tensor (d) : (Dev.secRegs d).tensor = d.tensor := by
  simp [Dev.secRegs]
@[simp] theorem Dev.measSel_tensor (d x1) : (Dev.measSel d x1).tensor = d.tensor := by
  simp [Dev.measSel]
@[simp] theorem Dev.pkSel_tensor (d x1) : (Dev.pkSel d x1).tensor = d.tensor := by
  simp [Dev.pkSel]
@[simp] theorem Dev.lifeDone_tensor (d x1 x2) : (Dev.lifeDone d x1 x2).tensor = d.tensor := by
  simp [Dev.lifeDone]
@[simp] theorem Dev.burn_tensor (d x1) : (Dev.burn d x1).tensor = d.tensor := by
  simp [Dev.burn]
@[simp] theorem Dev.provision_tensor (d) : (Dev.provision d).tensor = d.tensor := by
  simp [Dev.provision]
@[simp] theorem Dev.commitSvn_tensor (d) : (Dev.commitSvn d).tensor = d.tensor := by
  simp [Dev.commitSvn]
@[simp] theorem Dev.revokeSlot_tensor (d x1) : (Dev.revokeSlot d x1).tensor = d.tensor := by
  simp [Dev.revokeSlot]
@[simp] theorem Dev.portsOff_tensor (d x1) : (Dev.portsOff d x1).tensor = d.tensor := by
  fun_induction Dev.portsOff d x1 <;> simp_all
@[simp] theorem Dev.mbxDrop_tensor (d) : (Dev.mbxDrop d).tensor = d.tensor := by
  simp [Dev.mbxDrop]

/-! #### PowerLoop -/

@[simp] theorem Dev.dieFld_tensor (d x1 x2 x3 x4) : (Dev.dieFld d x1 x2 x3 x4).tensor = d.tensor := by
  simp [Dev.dieFld]
@[simp] theorem Dev.kRequest_tensor (d x1 x2) : (Dev.kRequest d x1 x2).tensor = d.tensor := by
  simp [Dev.kRequest]
@[simp] theorem Dev.kForce_tensor (d x1 x2) : (Dev.kForce d x1 x2).tensor = d.tensor := by
  simp [Dev.kForce]
@[simp] theorem Dev.tclkStep_tensor (d x1) : (Dev.tclkStep d x1).tensor = d.tensor := by
  unfold Dev.tclkStep
  (repeat' split) <;> simp
@[simp] theorem Dev.tclkSteps_tensor (d x1) : (Dev.tclkSteps d x1).tensor = d.tensor := by
  fun_induction Dev.tclkSteps d x1 <;> simp_all
@[simp] theorem Dev.hbmLimSet_tensor (d x1) : (Dev.hbmLimSet d x1).tensor = d.tensor := by
  simp [Dev.hbmLimSet]
@[simp] theorem Dev.msLimSet_tensor (d x1) : (Dev.msLimSet d x1).tensor = d.tensor := by
  simp [Dev.msLimSet]
@[simp] theorem Dev.stepPart_tensor (d x1 x2) : (Dev.stepPart d x1 x2).tensor = d.tensor := by
  unfold Dev.stepPart
  (repeat' split) <;> simp
@[simp] theorem Dev.reduceWalk_tensor (d x1 x2 x3 x4 x5) : (Dev.reduceWalk d x1 x2 x3 x4 x5).1.tensor = d.tensor := by
  fun_induction Dev.reduceWalk d x1 x2 x3 x4 x5 <;> simp_all +zetaDelta
@[simp] theorem Dev.ceilWalk_tensor (d x1) : (Dev.ceilWalk d x1).1.tensor = d.tensor := by
  fun_induction Dev.ceilWalk d x1 <;> simp_all +zetaDelta
@[simp] theorem Dev.raiseOne_tensor (d x1 x2 x3) : (Dev.raiseOne d x1 x2 x3).tensor = d.tensor := by
  unfold Dev.raiseOne
  (repeat' split) <;> simp
@[simp] theorem Dev.railFail_tensor (d x1) : (Dev.railFail d x1).tensor = d.tensor := by
  simp [Dev.railFail]
@[simp] theorem Dev.railOk_tensor (d x1) : (Dev.railOk d x1).tensor = d.tensor := by
  simp [Dev.railOk]
@[simp] theorem Dev.railReads_tensor (d x1) : (Dev.railReads d x1).tensor = d.tensor := by
  fun_induction Dev.railReads d x1 <;> simp_all +zetaDelta
@[simp] theorem Dev.pwrStat_tensor (d x1 x2 x3 x4) : (Dev.pwrStat d x1 x2 x3 x4).tensor = d.tensor := by
  simp [Dev.pwrStat]
@[simp] theorem Dev.pwrHot_tensor (d) : (Dev.pwrHot d).tensor = d.tensor := by
  simp [Dev.pwrHot]
@[simp] theorem Dev.powerLoop_tensor (d x1 x2) : (Dev.powerLoop d x1 x2).tensor = d.tensor := by
  simp [Dev.powerLoop]
@[simp] theorem Dev.thermalLoop_tensor (d x1) : (Dev.thermalLoop d x1).tensor = d.tensor := by
  simp [Dev.thermalLoop]
@[simp] theorem Dev.holdB_tensor (d x1) : (Dev.holdB d x1).tensor = d.tensor := by
  simp [Dev.holdB]
@[simp] theorem Dev.hwThrottle_tensor (d x1 x2) : (Dev.hwThrottle d x1 x2).tensor = d.tensor := by
  simp [Dev.hwThrottle]
@[simp] theorem Dev.loopLoss_tensor (d) : (Dev.loopLoss d).tensor = d.tensor := by
  simp [Dev.loopLoss]
@[simp] theorem Dev.kRaise_tensor (d x1) : (Dev.kRaise d x1).tensor = d.tensor := by
  simp [Dev.kRaise]
@[simp] theorem Dev.setFreq_tensor (d x1 x2) : (Dev.setFreq d x1 x2).tensor = d.tensor := by
  simp [Dev.setFreq]

/-! #### Dict -/

@[simp] theorem Dev.sessSet_tensor (d x1 x2) : (Dev.sessSet d x1 x2).tensor = d.tensor := by
  simp [Dev.sessSet]
@[simp] theorem Dev.sessUpd_tensor (d x1 x2) : (Dev.sessUpd d x1 x2).tensor = d.tensor := by
  simp [Dev.sessUpd]
@[simp] theorem Dev.tokenFail_tensor (d x1 x2 x3) : (Dev.tokenFail d x1 x2 x3).tensor = d.tensor := by
  simp [Dev.tokenFail]
@[simp] theorem Dev.templateBuild_tensor (d x1 x2 x3) : (Dev.templateBuild d x1 x2 x3).tensor = d.tensor := by
  unfold Dev.templateBuild
  (repeat' split) <;> simp
@[simp] theorem Dev.storeImage_tensor (d x1 x2) : (Dev.storeImage d x1 x2).1.tensor = d.tensor := by
  simp [Dev.storeImage]
@[simp] theorem Dev.macsecRow_tensor (d x1 x2) : (Dev.macsecRow d x1 x2).tensor = d.tensor := by
  simp [Dev.macsecRow]
@[simp] theorem Dev.keepValue_tensor (d x1 x2 x3 x4 x5) : (Dev.keepValue d x1 x2 x3 x4 x5).tensor = d.tensor := by
  simp [Dev.keepValue]
@[simp] theorem Dev.applyWords_tensor (d x1 x2 x3) : (Dev.applyWords d x1 x2 x3).tensor = d.tensor := by
  simp [Dev.applyWords]
@[simp] theorem Dev.applyPort_tensor (d x1 x2) : (Dev.applyPort d x1 x2).tensor = d.tensor := by
  simp [Dev.applyPort]
@[simp] theorem Dev.applyPorts_tensor (d x1) : (Dev.applyPorts d x1).tensor = d.tensor := by
  fun_induction Dev.applyPorts d x1 <;> simp_all
@[simp] theorem Dev.splitChange_tensor (d x1 x2) : (Dev.splitChange d x1 x2).tensor = d.tensor := by
  simp [Dev.splitChange]
@[simp] theorem Dev.applyKey_tensor (d x1) : (Dev.applyKey d x1).tensor = d.tensor := by
  simp [Dev.applyKey]
@[simp] theorem Dev.settingApply_tensor (d) : (Dev.settingApply d).tensor = d.tensor := by
  unfold Dev.settingApply
  dsimp only
  (repeat' split) <;> simp
@[simp] theorem Dev.applyAll_tensor (d x1) : (Dev.applyAll d x1).tensor = d.tensor := by
  fun_induction Dev.applyAll d x1 <;> simp_all +zetaDelta

/-! #### Transports -/

@[simp] theorem Dev.dictReadMsg_tensor (d x1) : (Dev.dictReadMsg d x1).tensor = d.tensor := by
  unfold Dev.dictReadMsg
  dsimp only
  (repeat' split) <;> simp
@[simp] theorem Dev.segment_tensor (d x1) : (Dev.segment d x1).tensor = d.tensor := by
  unfold Dev.segment
  (repeat' split) <;> simp
@[simp] theorem Dev.canPath_tensor (d) : (Dev.canPath d).tensor = d.tensor := by
  simp [Dev.canPath]
@[simp] theorem Dev.sdoSay_tensor (d x1) : (Dev.sdoSay d x1).tensor = d.tensor := by
  simp [Dev.sdoSay]
@[simp] theorem Dev.sdoAbort_tensor (d x1 x2 x3) : (Dev.sdoAbort d x1 x2 x3).tensor = d.tensor := by
  simp [Dev.sdoAbort]
@[simp] theorem Dev.sessEnd_tensor (d x1) : (Dev.sessEnd d x1).tensor = d.tensor := by
  simp [Dev.sessEnd]
@[simp] theorem Dev.sdoBlock_tensor (d x1 x2 x3) : (Dev.sdoBlock d x1 x2 x3).tensor = d.tensor := by
  simp [Dev.sdoBlock]
@[simp] theorem Dev.sdoUp_tensor (d x1) : (Dev.sdoUp d x1).tensor = d.tensor := by
  unfold Dev.sdoUp
  dsimp only
  (repeat' split) <;> simp
@[simp] theorem Dev.udpSay_tensor (d x1 x2 x3) : (Dev.udpSay d x1 x2 x3).tensor = d.tensor := by
  simp [Dev.udpSay]
@[simp] theorem Dev.udpGet_tensor (d x1 x2) : (Dev.udpGet d x1 x2).tensor = d.tensor := by
  unfold Dev.udpGet
  dsimp only
  (repeat' split) <;> simp
@[simp] theorem Dev.sdoTimeout_tensor (d x1) : (Dev.sdoTimeout d x1).tensor = d.tensor := by
  unfold Dev.sdoTimeout
  dsimp only
  (repeat' split) <;> simp
@[simp] theorem Dev.nmtSet_tensor (d x1) : (Dev.nmtSet d x1).tensor = d.tensor := by
  simp [Dev.nmtSet]
@[simp] theorem Dev.canStart_tensor (d) : (Dev.canStart d).tensor = d.tensor := by
  simp [Dev.canStart]
@[simp] theorem Dev.nmtReset_tensor (d) : (Dev.nmtReset d).tensor = d.tensor := by
  simp [Dev.nmtReset]
@[simp] theorem Dev.heartbeat_tensor (d) : (Dev.heartbeat d).tensor = d.tensor := by
  simp [Dev.heartbeat]
@[simp] theorem Dev.canError_tensor (d x1 x2) : (Dev.canError d x1 x2).tensor = d.tensor := by
  simp [Dev.canError]
@[simp] theorem Dev.udpTimeout_tensor (d x1) : (Dev.udpTimeout d x1).tensor = d.tensor := by
  simp [Dev.udpTimeout]
@[simp] theorem Dev.usbFail_tensor (d x1 x2 x3) : (Dev.usbFail d x1 x2 x3).tensor = d.tensor := by
  simp [Dev.usbFail]
@[simp] theorem Dev.usbGate_tensor (d : Dev) (i s : Nat) (go : Dev) (h : go.tensor = d.tensor) : (d.usbGate i s go).tensor = d.tensor := by
  unfold Dev.usbGate
  (repeat' split) <;> simp [h]
@[simp] theorem Dev.usbRead_tensor (d x1 x2 x3 x4) : (Dev.usbRead d x1 x2 x3 x4).tensor = d.tensor := by
  unfold Dev.usbRead
  dsimp only
  (repeat' split) <;> simp
@[simp] theorem Dev.usbWrite_tensor (d x1 x2 x3 x4) : (Dev.usbWrite d x1 x2 x3 x4).tensor = d.tensor := by
  unfold Dev.usbWrite
  dsimp only
  (repeat' split) <;> simp
@[simp] theorem Dev.usbResult_tensor (d) : (Dev.usbResult d).tensor = d.tensor := by
  simp [Dev.usbResult]
@[simp] theorem Dev.usbReset_tensor (d) : (Dev.usbReset d).tensor = d.tensor := by
  simp [Dev.usbReset]
@[simp] theorem Dev.tokenExpire_tensor (d x1) : (Dev.tokenExpire d x1).tensor = d.tensor := by
  simp [Dev.tokenExpire]
@[simp] theorem Dev.pathRise_tensor (d x1) : (Dev.pathRise d x1).tensor = d.tensor := by
  unfold Dev.pathRise
  (repeat' split) <;> simp
@[simp] theorem Dev.pathFall_tensor (d x1) : (Dev.pathFall d x1).tensor = d.tensor := by
  unfold Dev.pathFall
  (repeat' split) <;> simp
@[simp] theorem Dev.mgmtFrame_tensor (d x1) : (Dev.mgmtFrame d x1).tensor = d.tensor := by
  unfold Dev.mgmtFrame
  (repeat' split) <;> simp
@[simp] theorem Dev.puntDone_tensor (d x1 x2) : (Dev.puntDone d x1 x2).tensor = d.tensor := by
  unfold Dev.puntDone
  dsimp only
  (repeat' split) <;> simp
@[simp] theorem Dev.slowSend_tensor (d x1 x2 x3 x4) : (Dev.slowSend d x1 x2 x3 x4).tensor = d.tensor := by
  simp [Dev.slowSend]

/-! #### Firmware -/

@[simp] theorem Dev.imageRefused_tensor (d x1) : (Dev.imageRefused d x1).tensor = d.tensor := by
  simp [Dev.imageRefused]
@[simp] theorem Dev.fwLoad_tensor (d x1) : (Dev.fwLoad d x1).tensor = d.tensor := by
  unfold Dev.fwLoad
  dsimp only
  (repeat' split) <;> simp
@[simp] theorem Dev.fwUpdate_tensor (d x1) : (Dev.fwUpdate d x1).tensor = d.tensor := by
  unfold Dev.fwUpdate
  dsimp only
  (repeat' split) <;> simp
@[simp] theorem Dev.fwNotice_tensor (d x1 x2 x3) : (Dev.fwNotice d x1 x2 x3).tensor = d.tensor := by
  simp [Dev.fwNotice]
@[simp] theorem Dev.setHeld_tensor (d x1) : (Dev.setHeld d x1).tensor = d.tensor := by
  simp [Dev.setHeld]
@[simp] theorem Dev.quiesce_tensor (d) : (Dev.quiesce d).tensor = d.tensor := by
  simp [Dev.quiesce]
@[simp] theorem Dev.imageSwap_tensor (d x1 x2) : (Dev.imageSwap d x1 x2).tensor = d.tensor := by
  simp [Dev.imageSwap]
@[simp] theorem Dev.exportRecs_tensor (d) : (Dev.exportRecs d).tensor = d.tensor := by
  simp [Dev.exportRecs]
@[simp] theorem Dev.updateAnswer_tensor (d x1) : (Dev.updateAnswer d x1).tensor = d.tensor := by
  unfold Dev.updateAnswer
  (repeat' split) <;> simp
@[simp] theorem Dev.dropTransfers_tensor (d) : (Dev.dropTransfers d).tensor = d.tensor := by
  simp [Dev.dropTransfers]
@[simp] theorem Dev.retainedWrite_tensor (d) : (Dev.retainedWrite d).tensor = d.tensor := by
  simp [Dev.retainedWrite]
@[simp] theorem Dev.assignAll_tensor (d x1) : (Dev.assignAll d x1).tensor = d.tensor := by
  fun_induction Dev.assignAll d x1 <;> simp_all
@[simp] theorem Dev.savedPart_tensor (d x1 x2) : (Dev.savedPart d x1 x2).tensor = d.tensor := by
  simp [Dev.savedPart]
@[simp] theorem Dev.erlBack_tensor (d x1) : (Dev.erlBack d x1).tensor = d.tensor := by
  simp [Dev.erlBack]
@[simp] theorem Dev.saveLogs_tensor (d x1) : (Dev.saveLogs d x1).tensor = d.tensor := by
  unfold Dev.saveLogs
  (repeat' split) <;> simp
@[simp] theorem Dev.saveValues_tensor (d x1) : (Dev.saveValues d x1).tensor = d.tensor := by
  simp [Dev.saveValues]
@[simp] theorem Dev.reportParts_tensor (d x1) : (Dev.reportParts d x1).tensor = d.tensor := by
  unfold Dev.reportParts
  (repeat' split) <;> simp
@[simp] theorem Dev.saveBad_tensor (d x1) : (Dev.saveBad d x1).tensor = d.tensor := by
  unfold Dev.saveBad
  (repeat' split) <;> simp
@[simp] theorem Dev.saveTake_tensor (d) : (Dev.saveTake d).tensor = d.tensor := by
  simp [Dev.saveTake]
@[simp] theorem Dev.dictLoad_tensor (d) : (Dev.dictLoad d).tensor = d.tensor := by
  unfold Dev.dictLoad
  dsimp only
  (repeat' split) <;> simp
@[simp] theorem Dev.dictRestore_tensor (d) : (Dev.dictRestore d).tensor = d.tensor := by
  simp [Dev.dictRestore]
@[simp] theorem Dev.arraysFail_tensor (d x1) : (Dev.arraysFail d x1).tensor = d.tensor := by
  fun_induction Dev.arraysFail d x1 <;> simp_all
@[simp] theorem Dev.arrayTest_tensor (d x1) : (Dev.arrayTest d x1).tensor = d.tensor := by
  simp [Dev.arrayTest]
@[simp] theorem Dev.quadsFail_tensor (d x1) : (Dev.quadsFail d x1).tensor = d.tensor := by
  fun_induction Dev.quadsFail d x1 <;> simp_all

/-! #### Security -/

@[simp] theorem Dev.spdmSay_tensor (d x1) : (Dev.spdmSay d x1).tensor = d.tensor := by
  simp [Dev.spdmSay]
@[simp] theorem Dev.spdmErr_tensor (d x1 x2) : (Dev.spdmErr d x1 x2).tensor = d.tensor := by
  simp [Dev.spdmErr]
@[simp] theorem Dev.spdmAnswer_tensor (d x1 x2) : (Dev.spdmAnswer d x1 x2).tensor = d.tensor := by
  simp [Dev.spdmAnswer]
@[simp] theorem Dev.draw_tensor (d x1) : (Dev.draw d x1).2.tensor = d.tensor := by
  simp [Dev.draw]
theorem Dev.spdmGate_tensor (d : Dev) (sid : Option Nat) (req : List Byte) (len need : Nat) (go : Dev) (h : go.tensor = d.tensor) :
    (d.spdmGate sid req len need go).tensor = d.tensor := by
  unfold Dev.spdmGate
  (repeat' split) <;> simp [h]
@[simp] theorem Dev.spdmSigned_tensor (d x1 x2) : (Dev.spdmSigned d x1 x2).tensor = d.tensor := by
  unfold Dev.spdmSigned
  dsimp only
  (repeat' split) <;> simp
@[simp] theorem Dev.spdmSign_tensor (d x1 x2 x3 x4) : (Dev.spdmSign d x1 x2 x3 x4).tensor = d.tensor := by
  simp [Dev.spdmSign]
@[simp] theorem Dev.getVersion_tensor (d x1) : (Dev.getVersion d x1).tensor = d.tensor := by
  simp [Dev.getVersion]
@[simp] theorem Dev.getCapabilities_tensor (d x1) : (Dev.getCapabilities d x1).tensor = d.tensor := by
  unfold Dev.getCapabilities
  try dsimp only
  refine Dev.spdmGate_tensor _ _ _ _ _ _ ?_
  (repeat' split) <;> simp
@[simp] theorem Dev.negotiate_tensor (d x1) : (Dev.negotiate d x1).tensor = d.tensor := by
  unfold Dev.negotiate
  try dsimp only
  refine Dev.spdmGate_tensor _ _ _ _ _ _ ?_
  (repeat' split) <;> simp
@[simp] theorem Dev.getDigests_tensor (d x1 x2) : (Dev.getDigests d x1 x2).tensor = d.tensor := by
  unfold Dev.getDigests
  try dsimp only
  refine Dev.spdmGate_tensor _ _ _ _ _ _ ?_
  (repeat' split) <;> simp
@[simp] theorem Dev.getCertificate_tensor (d x1 x2) : (Dev.getCertificate d x1 x2).tensor = d.tensor := by
  unfold Dev.getCertificate
  try dsimp only
  refine Dev.spdmGate_tensor _ _ _ _ _ _ ?_
  (repeat' split) <;> simp
@[simp] theorem Dev.spdmChallenge_tensor (d x1 x2) : (Dev.spdmChallenge d x1 x2).tensor = d.tensor := by
  unfold Dev.spdmChallenge
  try dsimp only
  refine Dev.spdmGate_tensor _ _ _ _ _ _ ?_
  (repeat' split) <;> simp
@[simp] theorem Dev.getMeasurements_tensor (d x1 x2) : (Dev.getMeasurements d x1 x2).tensor = d.tensor := by
  unfold Dev.getMeasurements
  try dsimp only
  refine Dev.spdmGate_tensor _ _ _ _ _ _ ?_
  (repeat' split) <;> simp
@[simp] theorem Dev.keyExchange_tensor (d x1 x2) : (Dev.keyExchange d x1 x2).tensor = d.tensor := by
  unfold Dev.keyExchange
  try dsimp only
  refine Dev.spdmGate_tensor _ _ _ _ _ _ ?_
  (repeat' split) <;> simp
@[simp] theorem Dev.spdmFinish_tensor (d x1 x2) : (Dev.spdmFinish d x1 x2).tensor = d.tensor := by
  unfold Dev.spdmFinish
  try dsimp only
  refine Dev.spdmGate_tensor _ _ _ _ _ _ ?_
  (repeat' split) <;> simp
@[simp] theorem Dev.spdmHeartbeat_tensor (d s r) : (Dev.spdmHeartbeat d s r).tensor = d.tensor := by
  refine Dev.spdmGate_tensor _ _ _ _ _ _ ?_
  split <;> simp
@[simp] theorem Dev.endSession_tensor (d x1 x2) : (Dev.endSession d x1 x2).tensor = d.tensor := by
  unfold Dev.endSession
  try dsimp only
  refine Dev.spdmGate_tensor _ _ _ _ _ _ ?_
  (repeat' split) <;> simp
@[simp] theorem Dev.vendorRequest_tensor (d x1 x2) : (Dev.vendorRequest d x1 x2).tensor = d.tensor := by
  unfold Dev.vendorRequest
  try dsimp only
  refine Dev.spdmGate_tensor _ _ _ _ _ _ ?_
  (repeat' split) <;> simp
@[simp] theorem Dev.newChallenge_tensor (d) : (Dev.newChallenge d).tensor = d.tensor := by
  simp [Dev.newChallenge]
@[simp] theorem Dev.debugUnlock_tensor (d x1) : (Dev.debugUnlock d x1).tensor = d.tensor := by
  simp [Dev.debugUnlock]
@[simp] theorem Dev.txanRecord_tensor (d x1 x2) : (Dev.txanRecord d x1 x2).tensor = d.tensor := by
  simp [Dev.txanRecord]
@[simp] theorem Dev.pnwarn_tensor (d x1) : (Dev.pnwarn d x1).tensor = d.tensor := by
  unfold Dev.pnwarn
  dsimp only
  (repeat' split) <;> simp

/-! #### Power -/

@[simp] theorem Dev.boardBad_tensor (d) : (Dev.boardBad d).tensor = d.tensor := by
  simp [Dev.boardBad]
@[simp] theorem Dev.bootRegs_tensor (d) : (Dev.bootRegs d).tensor = d.tensor := by
  simp [Dev.bootRegs]
@[simp] theorem Dev.resetWord_tensor (d x1 x2 x3) : (Dev.resetWord d x1 x2 x3).tensor = d.tensor := by
  simp [Dev.resetWord]
@[simp] theorem Dev.saveSkip_tensor (d) : (Dev.saveSkip d).tensor = d.tensor := by
  simp [Dev.saveSkip]
@[simp] theorem Dev.saveBegin_tensor (d x1) : (Dev.saveBegin d x1).tensor = d.tensor := by
  simp [Dev.saveBegin]
@[simp] theorem Dev.sagTrigger_tensor (d x1) : (Dev.sagTrigger d x1).tensor = d.tensor := by
  simp [Dev.sagTrigger]
@[simp] theorem Dev.failsafeTry_tensor (d) : (Dev.failsafeTry d).tensor = d.tensor := by
  simp [Dev.failsafeTry]

/-! #### Exec -/

@[simp] theorem Dev.hostDo_tensor (d : Dev) (w : Req) (f : Dev → Dev) (h : (f d).tensor = d.tensor) : (d.hostDo w f).tensor = d.tensor := by
  unfold Dev.hostDo
  (repeat' split) <;> simp [h]
@[simp] theorem Dev.fnDo_tensor (d : Dev) (w : Option Nat) (f : Dev → Dev) (h : (f d).tensor = d.tensor) : (d.fnDo w f).tensor = d.tensor := by
  unfold Dev.fnDo
  (repeat' split) <;> simp [h]
@[simp] theorem Dev.blockDo_tensor (d : Dev) (w : Req) (f : Dev → Dev) (h : (f d).tensor = d.tensor) : (d.blockDo w f).tensor = d.tensor := by
  unfold Dev.blockDo
  split
  · rfl
  · exact Dev.hostDo_tensor d w f h
@[simp] theorem Dev.fwDo_tensor (d : Dev) (f : Dev → Dev) (h : (f d).tensor = d.tensor) : (d.fwDo f).tensor = d.tensor := by
  unfold Dev.fwDo
  (repeat' split) <;> simp [h]
@[simp] theorem Dev.linkDo_tensor (d : Dev) (f : Dev → Dev) (h : (f d).tensor = d.tensor) : (d.linkDo f).tensor = d.tensor := by
  unfold Dev.linkDo
  (repeat' split) <;> simp [h]
@[simp] theorem Dev.vfDo_tensor (d : Dev) (n : Nat) (f : Dev → Dev) (h : (f d).tensor = d.tensor) : (d.vfDo n f).tensor = d.tensor := by
  unfold Dev.vfDo
  (repeat' split) <;> simp [h]
@[simp] theorem Dev.idle_tensor (d) : (Dev.idle d).tensor = d.tensor := by
  simp [Dev.idle]
/-- A register write that no firmware component makes takes no protection fault (R408). -/
theorem Dev.writeDo_tensor {d : Dev} {w : Req} {k : Nat} {b : Bool} {f : Dev → Dev} (hw : w.isFw = false) (h : (f d).tensor = d.tensor) :
    (d.writeDo w k b f).tensor = d.tensor := by
  unfold Dev.writeDo
  split
  · exact absurd hw (by simp [Req.isFw])
  · exact Dev.hostDo_tensor d w f h
theorem Dev.blockWriteDo_tensor {d : Dev} {w : Req} {k : Nat} {f : Dev → Dev} (hw : w.isFw = false) (h : (f d).tensor = d.tensor) :
    (d.blockWriteDo w k f).tensor = d.tensor := by
  unfold Dev.blockWriteDo
  split
  · rfl
  · exact Dev.writeDo_tensor hw h

end Sys2Proof
end

