-- ==== Sys2Proof/Laws/Plane.lean ====
section
/-! SUPPORT. Every function of the machine that leaves the flow plane and the time unit as they were says so. -/

namespace Sys2Proof

@[simp] theorem Plane.fold (d : Dev) : Plane.mk d.flow d.tmu = d.plane := by unfold Dev.plane; rfl
@[simp] theorem Dev.plane_mk (now free alive regs pqRegs host erl tel tmu cat pq lck ptn core mem flow store dict fw sec pwr out) : (Dev.mk now free alive regs pqRegs host erl tel tmu cat pq lck ptn core mem flow store dict fw sec pwr out).plane = ⟨flow, tmu⟩ := by unfold Dev.plane; rfl
@[simp] theorem Dev.plane_ite (c : Prop) [Decidable c] (a b : Dev) : (if c then a else b).plane = if c then a.plane else b.plane := by split <;> rfl
@[simp] theorem Dev.plane_ite1 {α : Type} (c : Prop) [Decidable c] (a b : Dev × α) : (if c then a else b).1.plane = if c then a.1.plane else b.1.plane := by split <;> rfl
@[simp] theorem Dev.plane_ite2 {α : Type} (c : Prop) [Decidable c] (a b : α × Dev) : (if c then a else b).2.plane = if c then a.2.plane else b.2.plane := by split <;> rfl
@[simp] theorem Dev.plane_foldl {α : Type} (f : Dev → α → Dev) (l : List α) (d : Dev) (h : ∀ e x, (f e x).plane = e.plane) : (l.foldl f d).plane = d.plane := by
  induction l generalizing d with
  | nil => rfl
  | cons a l ih => simp [ih, h]

/-! #### Ops -/

@[simp] theorem Dev.wr_plane (d x1 x2) : (Dev.wr d x1 x2).plane = d.plane := by
  simp [Dev.wr]
@[simp] theorem Dev.wrN_plane (d x1 x2) : (Dev.wrN d x1 x2).plane = d.plane := by
  simp [Dev.wrN]
@[simp] theorem Dev.count_plane (d x1 x2) : (Dev.count d x1 x2).plane = d.plane := by
  simp [Dev.count]
@[simp] theorem Dev.wr64_plane (d x1 x2) : (Dev.wr64 d x1 x2).plane = d.plane := by
  simp [Dev.wr64]
@[simp] theorem Dev.count64_plane (d x1 x2) : (Dev.count64 d x1 x2).plane = d.plane := by
  simp [Dev.count64]
@[simp] theorem Dev.regsReset_plane (d x1 x2) : (Dev.regsReset d x1 x2).plane = d.plane := by
  simp [Dev.regsReset]
@[simp] theorem Dev.emit_plane (d x1) : (Dev.emit d x1).plane = d.plane := by
  simp [Dev.emit]
@[simp] theorem Dev.drawN_plane (d) : (Dev.drawN d).2.plane = d.plane := by
  simp [Dev.drawN]
@[simp] theorem Dev.drawB_plane (d) : (Dev.drawB d).2.plane = d.plane := by
  simp [Dev.drawB]
@[simp] theorem Dev.msixRaise_plane (d x1 x2) : (Dev.msixRaise d x1 x2).plane = d.plane := by
  simp [Dev.msixRaise]
@[simp] theorem Dev.teleMake_plane (d x1 x2 x3 x4 x5 x6) : (Dev.teleMake d x1 x2 x3 x4 x5 x6).plane = d.plane := by
  simp [Dev.teleMake]
@[simp] theorem Dev.event_plane (d x1 x2) : (Dev.event d x1 x2).plane = d.plane := by
  unfold Dev.event
  (repeat' split) <;> simp
@[simp] theorem Dev.events_plane (d x1 x2) : (Dev.events d x1 x2).plane = d.plane := by
  fun_induction Dev.events d x1 x2 <;> simp_all
@[simp] theorem Dev.enableWrite_plane (d x1 x2) : (Dev.enableWrite d x1 x2).plane = d.plane := by
  unfold Dev.enableWrite
  (repeat' split) <;> simp
@[simp] theorem Dev.alarmSet_plane (d x1 x2 x3 x4 x5) : (Dev.alarmSet d x1 x2 x3 x4 x5).plane = d.plane := by
  simp [Dev.alarmSet]
@[simp] theorem Dev.erlLost_plane (d x1) : (Dev.erlLost d x1).plane = d.plane := by
  simp [Dev.erlLost]
@[simp] theorem Dev.reportE_plane (d x1) : (Dev.reportE d x1).plane = d.plane := by
  unfold Dev.reportE
  (repeat' split) <;> simp
@[simp] theorem Dev.report_plane (d x1 x2 x3 x4 x5) : (Dev.report d x1 x2 x3 x4 x5).plane = d.plane := by
  simp [Dev.report]
@[simp] theorem Dev.catPut_plane (d x1) : (Dev.catPut d x1).plane = d.plane := by
  simp [Dev.catPut]
@[simp] theorem Dev.notice_plane (d x1 x2 x3) : (Dev.notice d x1 x2 x3).plane = d.plane := by
  simp [Dev.notice]
@[simp] theorem Dev.pqSet_plane (d x1 x2) : (Dev.pqSet d x1 x2).plane = d.plane := by
  simp [Dev.pqSet]
@[simp] theorem Dev.pqPush_plane (d x1 x2 x3) : (Dev.pqPush d x1 x2 x3).1.plane = d.plane := by
  unfold Dev.pqPush
  dsimp only
  (repeat' split) <;> simp_all
@[simp] theorem Dev.pqEmpty_plane (d x1) : (Dev.pqEmpty d x1).plane = d.plane := by
  simp [Dev.pqEmpty]
@[simp] theorem Dev.lckSet_plane (d x1 x2) : (Dev.lckSet d x1 x2).plane = d.plane := by
  simp [Dev.lckSet]
@[simp] theorem Dev.lckAcquire_plane (d x1 x2 x3) : (Dev.lckAcquire d x1 x2 x3).1.plane = d.plane := by
  fun_cases Dev.lckAcquire d x1 x2 x3 <;> simp_all
@[simp] theorem Dev.lckRelease_plane (d x1 x2) : (Dev.lckRelease d x1 x2).plane = d.plane := by
  simp [Dev.lckRelease]
@[simp] theorem Dev.lckForce_plane (d x1 x2) : (Dev.lckForce d x1 x2).plane = d.plane := by
  simp [Dev.lckForce]
@[simp] theorem Dev.lckForceList_plane (d x1 x2) : (Dev.lckForceList d x1 x2).plane = d.plane := by
  fun_induction Dev.lckForceList d x1 x2 <;> simp_all
@[simp] theorem Dev.lckForceOwner_plane (d x1 x2) : (Dev.lckForceOwner d x1 x2).plane = d.plane := by
  simp [Dev.lckForceOwner]
@[simp] theorem Dev.ptnSet_plane (d x1 x2) : (Dev.ptnSet d x1 x2).plane = d.plane := by
  simp [Dev.ptnSet]
@[simp] theorem Dev.accErr_plane (d x1 x2 x3 x4 x5) : (Dev.accErr d x1 x2 x3 x4 x5).plane = d.plane := by
  unfold Dev.accErr
  (repeat' split) <;> simp
@[simp] theorem Dev.accLog_plane (d x1 x2 x3) : (Dev.accLog d x1 x2 x3).plane = d.plane := by
  simp [Dev.accLog]

/-! #### DieB -/

@[simp] theorem Dev.ringEvent_plane (d x1 x2) : (Dev.ringEvent d x1 x2).plane = d.plane := by
  simp [Dev.ringEvent]
@[simp] theorem Dev.ringWrite_plane (d x1) : (Dev.ringWrite d x1).plane = d.plane := by
  simp [Dev.ringWrite]
@[simp] theorem Dev.catUnhold_plane (d x1) : (Dev.catUnhold d x1).plane = d.plane := by
  unfold Dev.catUnhold
  (repeat' split) <;> simp
@[simp] theorem Dev.catTake_plane (d) : (Dev.catTake d).1.plane = d.plane := by
  unfold Dev.catTake
  (repeat' split) <;> simp
@[simp] theorem Dev.catRtail_plane (d x1 x2 x3) : (Dev.catRtail d x1 x2 x3).plane = d.plane := by
  unfold Dev.catRtail
  (repeat' split) <;> simp
@[simp] theorem Dev.ringClear_plane (d x1) : (Dev.ringClear d x1).plane = d.plane := by
  simp [Dev.ringClear]
@[simp] theorem Dev.pqCfg_plane (d x1 x2 x3 x4 x5) : (Dev.pqCfg d x1 x2 x3 x4 x5).plane = d.plane := by
  simp [Dev.pqCfg]
@[simp] theorem Dev.pqLatch_plane (d x1 x2 x3) : (Dev.pqLatch d x1 x2 x3).plane = d.plane := by
  simp [Dev.pqLatch]
@[simp] theorem Dev.pqDenied_plane (d x1 x2 x3 x4) : (Dev.pqDenied d x1 x2 x3 x4).plane = d.plane := by
  unfold Dev.pqDenied
  (repeat' split) <;> simp
@[simp] theorem Dev.pqPushCtl_plane (d x1 x2 x3) : (Dev.pqPushCtl d x1 x2 x3).plane = d.plane := by
  simp [Dev.pqPushCtl]
@[simp] theorem Dev.pqPopWord_plane (d x1 x2) : (Dev.pqPopWord d x1 x2).1.plane = d.plane := by
  unfold Dev.pqPopWord
  dsimp only
  (repeat' split) <;> simp
@[simp] theorem Dev.pqPopCtl_plane (d x1 x2) : (Dev.pqPopCtl d x1 x2).plane = d.plane := by
  unfold Dev.pqPopCtl
  dsimp only
  (repeat' split) <;> simp
@[simp] theorem Dev.lckAcqWord_plane (d x1 x2) : (Dev.lckAcqWord d x1 x2).1.plane = d.plane := by
  simp [Dev.lckAcqWord]
@[simp] theorem Dev.lckAcqRead_plane (d x1 x2) : (Dev.lckAcqRead d x1 x2).plane = d.plane := by
  simp [Dev.lckAcqRead]
@[simp] theorem Dev.lckAcqWrite_plane (d x1 x2) : (Dev.lckAcqWrite d x1 x2).plane = d.plane := by
  unfold Dev.lckAcqWrite
  (repeat' split) <;> simp
@[simp] theorem Dev.lckForceWrite_plane (d x1 x2) : (Dev.lckForceWrite d x1 x2).plane = d.plane := by
  unfold Dev.lckForceWrite
  (repeat' split) <;> simp

/-! #### Tensor -/

@[simp] theorem Dev.csWrite_plane (d x1 x2 x3) : (Dev.csWrite d x1 x2 x3).plane = d.plane := by
  simp [Dev.csWrite]
@[simp] theorem Dev.csZero_plane (d x1) : (Dev.csZero d x1).plane = d.plane := by
  simp [Dev.csZero]
@[simp] theorem Dev.shWrite_plane (d x1 x2 x3) : (Dev.shWrite d x1 x2 x3).plane = d.plane := by
  simp [Dev.shWrite]
@[simp] theorem Dev.shFromCore_plane (d x1 x2 x3 x4 x5) : (Dev.shFromCore d x1 x2 x3 x4 x5).plane = d.plane := by
  unfold Dev.shFromCore
  (repeat' split) <;> simp
@[simp] theorem Dev.coreFromSh_plane (d x1 x2 x3 x4 x5) : (Dev.coreFromSh d x1 x2 x3 x4 x5).plane = d.plane := by
  unfold Dev.coreFromSh
  (repeat' split) <;> simp
@[simp] theorem Dev.reportFree_plane (d x1 x2 x3) : (Dev.reportFree d x1 x2 x3).plane = d.plane := by
  simp [Dev.reportFree]
@[simp] theorem Dev.hbmEcc_plane (d x1 x2 x3) : (Dev.hbmEcc d x1 x2 x3).plane = d.plane := by
  unfold Dev.hbmEcc
  (repeat' split) <;> simp
@[simp] theorem Dev.msEcc_plane (d x1 x2 x3) : (Dev.msEcc d x1 x2 x3).plane = d.plane := by
  unfold Dev.msEcc
  (repeat' split) <;> simp
@[simp] theorem Dev.shEcc_plane (d x1 x2) : (Dev.shEcc d x1 x2).plane = d.plane := by
  simp [Dev.shEcc]
@[simp] theorem Dev.coreSet_plane (d x1 x2) : (Dev.coreSet d x1 x2).plane = d.plane := by
  simp [Dev.coreSet]
@[simp] theorem Dev.coreUpd_plane (d x1 x2) : (Dev.coreUpd d x1 x2).plane = d.plane := by
  simp [Dev.coreUpd]
@[simp] theorem Dev.setPc_plane (d x1 x2) : (Dev.setPc d x1 x2).plane = d.plane := by
  simp [Dev.setPc]
@[simp] theorem Dev.tally_plane (d x1 x2) : (Dev.tally d x1 x2).plane = d.plane := by
  simp [Dev.tally]
@[simp] theorem Dev.afterPost_plane (d x1 x2 x3) : (Dev.afterPost d x1 x2 x3).plane = d.plane := by
  simp [Dev.afterPost]
@[simp] theorem Dev.corePost_plane (d x1 x2 x3) : (Dev.corePost d x1 x2 x3).plane = d.plane := by
  unfold Dev.corePost
  (repeat' split) <;> simp
@[simp] theorem Dev.complete_plane (d x1 x2 x3 x4 x5) : (Dev.complete d x1 x2 x3 x4 x5).plane = d.plane := by
  simp [Dev.complete]
@[simp] theorem Dev.afterWait_plane (d x1 x2 x3) : (Dev.afterWait d x1 x2 x3).plane = d.plane := by
  unfold Dev.afterWait
  (repeat' split) <;> simp
@[simp] theorem Dev.releaseFree_plane (d x1 x2) : (Dev.releaseFree d x1 x2).plane = d.plane := by
  fun_induction Dev.releaseFree d x1 x2 <;> simp_all
@[simp] theorem Dev.release_plane (d x1) : (Dev.release d x1).plane = d.plane := by
  unfold Dev.release
  (repeat' split) <;> simp
@[simp] theorem Dev.catRecord_plane (d x1) : (Dev.catRecord d x1).plane = d.plane := by
  simp [Dev.catRecord]
@[simp] theorem Dev.catTakeOne_plane (d) : (Dev.catTakeOne d).plane = d.plane := by
  have h := Dev.catTake_plane d
  unfold Dev.catTakeOne
  split <;> rename_i heq <;> rw [heq] at h
  · split <;> simpa using h
  · exact h
@[simp] theorem Dev.unwait_plane (d x1) : (Dev.unwait d x1).plane = d.plane := by
  unfold Dev.unwait
  (repeat' split) <;> simp
@[simp] theorem Dev.tenFail_plane (d x1 x2 x3 x4) : (Dev.tenFail d x1 x2 x3 x4).plane = d.plane := by
  simp [Dev.tenFail]
@[simp] theorem Dev.eccNote_plane (d x1 x2) : (Dev.eccNote d x1 x2).plane = d.plane := by
  unfold Dev.eccNote
  (repeat' split) <;> simp
@[simp] theorem Dev.bankStalls_plane (d x1) : (Dev.bankStalls d x1).plane = d.plane := by
  simp [Dev.bankStalls]
@[simp] theorem Dev.fill_plane (d x1 x2) : (Dev.fill d x1 x2).plane = d.plane := by
  induction x2 generalizing d with
  | nil => rfl
  | cons a l ih => rw [Dev.fill, ih]; (repeat' split) <;> simp
theorem Dev.presentTile_plane {d d1 : Dev} {c p w q} (h : d.presentTile c p w = .ok (d1, q)) : d1.plane = d.plane := by
  simp only [Dev.presentTile] at h
  split at h
  · cases h
  · simp only [Except.ok.injEq, Prod.mk.injEq] at h
    rw [← h.1]; simp
@[simp] theorem Dev.putCode_plane (d x1 x2 x3 x4 x5) : (Dev.putCode d x1 x2 x3 x4 x5).plane = d.plane := by
  simp [Dev.putCode]
@[simp] theorem Dev.putCodes_plane (d x1 x2 x3 x4 x5) : (Dev.putCodes d x1 x2 x3 x4 x5).plane = d.plane := by
  fun_induction Dev.putCodes d x1 x2 x3 x4 x5 <;> simp_all
@[simp] theorem Dev.putSides_plane (d x1 x2 x3 x4) : (Dev.putSides d x1 x2 x3 x4).plane = d.plane := by
  fun_induction Dev.putSides d x1 x2 x3 x4 <;> simp_all
theorem Dev.linkAppend_plane {d d1 : Dev} {c l xs} (h : d.linkAppend c l xs = .ok d1) : d1.plane = d.plane := by
  simp only [Dev.linkAppend] at h
  repeat' split at h
  all_goals first | (cases h; done) | (simp only [Except.ok.injEq] at h; rw [← h]; (repeat' split) <;> simp)
@[simp] theorem Dev.emitArray_plane (d x1 x2 x3 x4) : (Dev.emitArray d x1 x2 x3 x4).plane = d.plane := by
  unfold Dev.emitArray
  dsimp only
  (repeat' split) <;> simp_all
@[simp] theorem Dev.emitArrays_plane (d x1 x2 x3 x4) : (Dev.emitArrays d x1 x2 x3 x4).plane = d.plane := by
  fun_induction Dev.emitArrays d x1 x2 x3 x4 <;> simp_all
theorem Dev.emitPass_plane {d d1 : Dev} {c p} (h : d.emitPass c p = .ok d1) : d1.plane = d.plane := by
  unfold Dev.emitPass at h
  split at h
  · exact Dev.linkAppend_plane h
  · simp only [Except.ok.injEq] at h
    rw [← h]; simp

/-! #### TensorSeq -/

@[simp] theorem Dev.fetchCheck_plane (d x1) : (Dev.fetchCheck d x1).plane = d.plane := by
  simp [Dev.fetchCheck]
@[simp] theorem Dev.nextPc_plane (d x1) : (Dev.nextPc d x1).plane = d.plane := by
  simp [Dev.nextPc]
@[simp] theorem Dev.fetch_plane (d x1 x2) : (Dev.fetch d x1 x2).plane = d.plane := by
  unfold Dev.fetch
  (repeat' split) <;> simp
theorem Dev.issue_plane (d : Dev) (c op : Nat) (ecc : Ecc) (b : Bool) (rsv : Nat → Bool) (errs : Nat → Dev → List Nat)
    (body : Nat → Nat → Dev → Dev) (h : ∀ x y (e : Dev), (body x y e).plane = e.plane) :
    (d.issue c op ecc b rsv errs body).plane = d.plane := by
  unfold Dev.issue
  dsimp only
  repeat' split
  all_goals simp [h]
@[simp] theorem Dev.startPass_plane (d x1 x2) : (Dev.startPass d x1 x2).plane = d.plane := by
  simp [Dev.startPass]
@[simp] theorem Dev.promote_plane (d x1) : (Dev.promote d x1).plane = d.plane := by
  fun_cases Dev.promote d x1 <;> simp_all
@[simp] theorem Dev.coreFault_plane (d x1) : (Dev.coreFault d x1).plane = d.plane := by
  simp [Dev.coreFault]
@[simp] theorem Dev.arrayFault_plane (d x1 x2 x3) : (Dev.arrayFault d x1 x2 x3).plane = d.plane := by
  unfold Dev.arrayFault
  dsimp only
  (repeat' split) <;> simp_all
@[simp] theorem Dev.arrayFaultBy_plane (d x1 x2 x3 x4) : (Dev.arrayFaultBy d x1 x2 x3 x4).plane = d.plane := by
  simp [Dev.arrayFaultBy]
@[simp] theorem Dev.passTaken_plane (d x1 x2 x3) : (Dev.passTaken d x1 x2 x3).plane = d.plane := by
  unfold Dev.passTaken
  (repeat' split) <;> simp
@[simp] theorem Dev.operandEcc_plane (d x1 x2 x3) : (Dev.operandEcc d x1 x2 x3).plane = d.plane := by
  simp [Dev.operandEcc]
@[simp] theorem Dev.doPass_plane (d x1 x2) : (Dev.doPass d x1 x2).plane = d.plane := by
  refine Dev.issue_plane _ _ _ _ _ _ _ _ ?_
  intros
  dsimp only
  repeat' split
  all_goals simp
@[simp] theorem Dev.tileChange_plane (d x1 x2 x3) : (Dev.tileChange d x1 x2 x3).plane = d.plane := by
  unfold Dev.tileChange
  dsimp only
  repeat' split
  all_goals first | (simp; done) | (rename_i heq; simp [Dev.presentTile_plane heq])
@[simp] theorem Dev.bankExchange_plane (d x1) : (Dev.bankExchange d x1).plane = d.plane := by
  fun_cases Dev.bankExchange d x1 <;> simp_all
@[simp] theorem Dev.passCommit_plane (d c) : (Dev.passCommit d c).plane = d.plane := by
  unfold Dev.passCommit
  dsimp only
  repeat' split
  all_goals first | (simp; done) | (rename_i heq; simp [Dev.emitPass_plane heq])
@[simp] theorem Dev.emitError_plane (d x1 x2) : (Dev.emitError d x1 x2).plane = d.plane := by
  fun_cases Dev.emitError d x1 x2 <;> simp_all
@[simp] theorem Dev.doWalk_plane (d c e) : (Dev.doWalk d c e).plane = d.plane := by
  unfold Dev.doWalk
  apply Dev.issue_plane
  intros
  (repeat' split) <;> simp
@[simp] theorem Dev.doLink_plane (d c e) : (Dev.doLink d c e).plane = d.plane := by
  unfold Dev.doLink
  apply Dev.issue_plane
  intros
  (repeat' split) <;> simp
@[simp] theorem Dev.linkComplete_plane (d x1 x2) : (Dev.linkComplete d x1 x2).plane = d.plane := by
  unfold Dev.linkComplete
  (repeat' split) <;> simp
@[simp] theorem Dev.mvWrite_plane (d x1 x2 x3 x4) : (Dev.mvWrite d x1 x2 x3 x4).plane = d.plane := by
  simp [Dev.mvWrite]
@[simp] theorem Dev.freeBytes_plane (d x1) : (Dev.freeBytes d x1).2.plane = d.plane := by
  simp [Dev.freeBytes]
@[simp] theorem Dev.moveEncode_plane (d x1 x2 x3 x4 x5) : (Dev.moveEncode d x1 x2 x3 x4 x5).plane = d.plane := by
  simp [Dev.moveEncode]
@[simp] theorem Dev.moveDecode_plane (d x1 x2 x3 x4 x5) : (Dev.moveDecode d x1 x2 x3 x4 x5).plane = d.plane := by
  simp [Dev.moveDecode]
@[simp] theorem Dev.moveSpan_plane (d x1 x2 x3) : (Dev.moveSpan d x1 x2 x3).plane = d.plane := by
  unfold Dev.moveSpan
  dsimp only
  (repeat' split) <;> simp
@[simp] theorem Dev.moveEcc_plane (d x1 x2) : (Dev.moveEcc d x1 x2).1.plane = d.plane := by
  simp [Dev.moveEcc]
@[simp] theorem Dev.runMove_plane (d c) : (Dev.runMove d c).plane = d.plane := by
  unfold Dev.runMove
  repeat' split
  all_goals first | (simp; done) | (rename_i heq; have h := congrArg (fun r => r.1.plane) heq; simp at h; simp [← h])
@[simp] theorem Dev.doMove_plane (d c e) : (Dev.doMove d c e).plane = d.plane := by
  unfold Dev.doMove
  apply Dev.issue_plane
  intros
  (repeat' split) <;> simp
@[simp] theorem Dev.moveEnd_plane (d x1 x2 x3) : (Dev.moveEnd d x1 x2 x3).plane = d.plane := by
  simp [Dev.moveEnd]
@[simp] theorem Dev.moveComplete_plane (d x1) : (Dev.moveComplete d x1).plane = d.plane := by
  unfold Dev.moveComplete
  (repeat' split) <;> simp
@[simp] theorem Dev.moveStop_plane (d x1) : (Dev.moveStop d x1).plane = d.plane := by
  unfold Dev.moveStop
  (repeat' split) <;> simp
@[simp] theorem Dev.waitqEnd_plane (d x1 x2) : (Dev.waitqEnd d x1 x2).plane = d.plane := by
  unfold Dev.waitqEnd
  (repeat' split) <;> simp
@[simp] theorem Dev.doWaitq_plane (d c e) : (Dev.doWaitq d c e).plane = d.plane := by
  unfold Dev.doWaitq
  apply Dev.issue_plane
  intros
  dsimp only
  repeat' split
  all_goals simp
@[simp] theorem Dev.waiterPop_plane (d x1) : (Dev.waiterPop d x1).plane = d.plane := by
  fun_cases Dev.waiterPop d x1 <;> simp_all
@[simp] theorem Dev.waitqTimeout_plane (d x1) : (Dev.waitqTimeout d x1).plane = d.plane := by
  unfold Dev.waitqTimeout
  (repeat' split) <;> simp
@[simp] theorem Dev.doSignal_plane (d c e) : (Dev.doSignal d c e).plane = d.plane := by
  unfold Dev.doSignal
  apply Dev.issue_plane
  intros
  (repeat' split) <;> simp
@[simp] theorem Dev.lockEnd_plane (d x1 x2) : (Dev.lockEnd d x1 x2).plane = d.plane := by
  simp [Dev.lockEnd]
@[simp] theorem Dev.lockRead_plane (d x1 x2 x3) : (Dev.lockRead d x1 x2 x3).plane = d.plane := by
  simp [Dev.lockRead]
@[simp] theorem Dev.doLock_plane (d c e) : (Dev.doLock d c e).plane = d.plane := by
  unfold Dev.doLock
  apply Dev.issue_plane
  intros
  (repeat' split) <;> simp
@[simp] theorem Dev.lockRetry_plane (d x1) : (Dev.lockRetry d x1).plane = d.plane := by
  unfold Dev.lockRetry
  (repeat' split) <;> simp
@[simp] theorem Dev.lockTimeout_plane (d x1) : (Dev.lockTimeout d x1).plane = d.plane := by
  unfold Dev.lockTimeout
  (repeat' split) <;> simp
@[simp] theorem Dev.doJump_plane (d c e) : (Dev.doJump d c e).plane = d.plane := by
  refine Dev.issue_plane _ _ _ _ _ _ _ _ ?_
  intros
  dsimp only
  (repeat' split) <;> simp
@[simp] theorem Dev.doNop_plane (d c e) : (Dev.doNop d c e).plane = d.plane := by
  refine Dev.issue_plane _ _ _ _ _ _ _ _ ?_
  intros
  simp
@[simp] theorem Dev.doEnd_plane (d c e) : (Dev.doEnd d c e).plane = d.plane := by
  refine Dev.issue_plane _ _ _ _ _ _ _ _ ?_
  intros
  simp

/-! #### TensorCtl -/

@[simp] theorem Dev.tenRun_plane (d x1) : (Dev.tenRun d x1).plane = d.plane := by
  simp [Dev.tenRun]
@[simp] theorem Dev.writeSave_plane (d x1 x2) : (Dev.writeSave d x1 x2).plane = d.plane := by
  simp [Dev.writeSave]
@[simp] theorem Dev.tenPreempt_plane (d x1) : (Dev.tenPreempt d x1).plane = d.plane := by
  unfold Dev.tenPreempt
  (repeat' split) <;> simp
@[simp] theorem Dev.commitAll_plane (d x1 x2) : (Dev.commitAll d x1 x2).plane = d.plane := by
  fun_induction Dev.commitAll d x1 x2 <;> simp_all
@[simp] theorem Dev.linksFinish_plane (d : Dev) (c : Nat) (ks : List Nat) : (Dev.linksFinish d c ks).plane = d.plane := by
  induction ks generalizing d with
  | nil => rfl
  | cons k ks ih =>
    rw [Dev.linksFinish, ih]
    (repeat' split) <;> simp
@[simp] theorem Dev.preemptSaved_plane (d c) : (Dev.preemptSaved d c).plane = d.plane := by
  unfold Dev.preemptSaved
  dsimp only
  (repeat' split) <;> simp
@[simp] theorem Dev.rebase_plane (d x1) : (Dev.rebase d x1).plane = d.plane := by
  simp [Dev.rebase]
@[simp] theorem Dev.tenResume_plane (d x1) : (Dev.tenResume d x1).plane = d.plane := by
  simp [Dev.tenResume]
@[simp] theorem Dev.tenRegsReset_plane (d x1) : (Dev.tenRegsReset d x1).plane = d.plane := by
  simp [Dev.tenRegsReset]
@[simp] theorem Dev.tenReset_plane (d x1) : (Dev.tenReset d x1).plane = d.plane := by
  simp [Dev.tenReset]
@[simp] theorem Dev.tenLock_plane (d x1) : (Dev.tenLock d x1).plane = d.plane := by
  simp [Dev.tenLock]
@[simp] theorem Dev.tenCtrl_plane (d x1 x2 x3) : (Dev.tenCtrl d x1 x2 x3).plane = d.plane := by
  unfold Dev.tenCtrl
  (repeat' split) <;> simp

/-! #### PortBase -/

@[simp] theorem Dev.reportNamed_plane (d x1 x2 x3 x4) : (Dev.reportNamed d x1 x2 x3 x4).plane = d.plane := by
  simp [Dev.reportNamed]
@[simp] theorem Dev.prtCount_plane (d x1 x2 x3) : (Dev.prtCount d x1 x2 x3).plane = d.plane := by
  simp [Dev.prtCount]
@[simp] theorem Dev.onLane_plane (d x1) : (Dev.onLane d x1).plane = d.plane := by
  simp [Dev.onLane]

/-! #### Ports -/

@[simp] theorem Dev.pauseEmit_plane (d x1 x2 x3) : (Dev.pauseEmit d x1 x2 x3).plane = d.plane := by
  simp [Dev.pauseEmit]
@[simp] theorem Dev.pauseList_plane (d x1 x2) : (Dev.pauseList d x1 x2).plane = d.plane := by
  fun_induction Dev.pauseList d x1 x2 <;> simp_all

/-! #### Classify -/

@[simp] theorem Dev.parCount_plane (d x1) : (Dev.parCount d x1).plane = d.plane := by
  simp [Dev.parCount]
@[simp] theorem Dev.clsCount_plane (d x1) : (Dev.clsCount d x1).plane = d.plane := by
  simp [Dev.clsCount]
@[simp] theorem Dev.clsCounts_plane (d x1) : (Dev.clsCounts d x1).plane = d.plane := by
  fun_induction Dev.clsCounts d x1 <;> simp_all
@[simp] theorem Dev.treeEvent_plane (d x1 x2 x3 x4 x5) : (Dev.treeEvent d x1 x2 x3 x4 x5).plane = d.plane := by
  simp [Dev.treeEvent]

/-! #### Flows -/

@[simp] theorem Dev.flwCount_plane (d x1) : (Dev.flwCount d x1).plane = d.plane := by
  simp [Dev.flwCount]
@[simp] theorem Dev.flowRecord_plane (d x1 x2) : (Dev.flowRecord d x1 x2).plane = d.plane := by
  simp [Dev.flowRecord]
@[simp] theorem Dev.fidx_plane (d x1) : (Dev.fidx d x1).plane = d.plane := by
  simp [Dev.fidx]
@[simp] theorem Dev.eidx_plane (d x1) : (Dev.eidx d x1).plane = d.plane := by
  simp [Dev.eidx]
@[simp] theorem Dev.pidx_plane (d x1 x2) : (Dev.pidx d x1 x2).plane = d.plane := by
  simp [Dev.pidx]

/-! #### Score -/

@[simp] theorem Dev.treCount_plane (d x1 x2) : (Dev.treCount d x1 x2).plane = d.plane := by
  simp [Dev.treCount]

/-! #### Egress -/

@[simp] theorem Dev.visCount_plane (d x1) : (Dev.visCount d x1).plane = d.plane := by
  simp [Dev.visCount]

/-! #### Huddle -/

@[simp] theorem Dev.hudCount_plane (d x1 x2) : (Dev.hudCount d x1 x2).plane = d.plane := by
  simp [Dev.hudCount]
@[simp] theorem Dev.hudEvent_plane (d x1 x2 x3 x4 x5) : (Dev.hudEvent d x1 x2 x3 x4 x5).plane = d.plane := by
  simp [Dev.hudEvent]
@[simp] theorem Dev.fillBuffer_plane (d x1 x2) : (Dev.fillBuffer d x1 x2).plane = d.plane := by
  simp [Dev.fillBuffer]
@[simp] theorem Dev.hudCounts_plane (d x1) : (Dev.hudCounts d x1).plane = d.plane := by
  fun_induction Dev.hudCounts d x1 <;> simp_all
@[simp] theorem Dev.writeFile_plane (d x1) : (Dev.writeFile d x1).plane = d.plane := by
  simp [Dev.writeFile]
@[simp] theorem Dev.writeFiles_plane (d x1) : (Dev.writeFiles d x1).plane = d.plane := by
  fun_induction Dev.writeFiles d x1 <;> simp_all

/-! #### Memory -/

@[simp] theorem Dev.loadKeys_plane (d x1) : (Dev.loadKeys d x1).plane = d.plane := by
  fun_induction Dev.loadKeys d x1 <;> simp_all
@[simp] theorem Dev.storeWrite_plane (d x1) : (Dev.storeWrite d x1).plane = d.plane := by
  simp [Dev.storeWrite]
@[simp] theorem Dev.msRefresh_plane (d) : (Dev.msRefresh d).plane = d.plane := by
  simp [Dev.msRefresh]
@[simp] theorem Dev.stageRefresh_plane (d : Dev) (ps : List Nat) : (Dev.stageRefresh d ps).plane = d.plane := by
  induction ps generalizing d with
  | nil => rfl
  | cons p ps ih => rw [Dev.stageRefresh, ih]; split <;> simp
@[simp] theorem Dev.catalogue_plane (d) : (Dev.catalogue d).plane = d.plane := by
  simp [Dev.catalogue]
@[simp] theorem Dev.stgStart_plane (d x1) : (Dev.stgStart d x1).plane = d.plane := by
  simp [Dev.stgStart]
@[simp] theorem Dev.stagingPop_plane (d x1) : (Dev.stagingPop d x1).plane = d.plane := by
  fun_cases Dev.stagingPop d x1 <;> simp_all
@[simp] theorem Dev.waiterServe_plane (d x1) : (Dev.waiterServe d x1).plane = d.plane := by
  fun_cases Dev.waiterServe d x1 <;> simp_all
@[simp] theorem Dev.waitersServe_plane (d x1 x2) : (Dev.waitersServe d x1 x2).plane = d.plane := by
  fun_induction Dev.waitersServe d x1 x2 <;> simp_all
@[simp] theorem Dev.pqPop_plane (d x1 x2) : (Dev.pqPop d x1 x2).plane = d.plane := by
  simp [Dev.pqPop]
@[simp] theorem Dev.stagingReply_plane (d i e l) : (Dev.stagingReply d i e l).plane = d.plane := by
  unfold Dev.stagingReply
  split
  · rfl
  · simp
@[simp] theorem Dev.zeroGr_plane (d x1 x2 x3) : (Dev.zeroGr d x1 x2 x3).plane = d.plane := by
  simp [Dev.zeroGr]
@[simp] theorem Dev.joinShare_plane (d x1) : (Dev.joinShare d x1).plane = d.plane := by
  simp [Dev.joinShare]
@[simp] theorem Dev.joinShares_plane (d x1) : (Dev.joinShares d x1).plane = d.plane := by
  fun_induction Dev.joinShares d x1 <;> simp_all
@[simp] theorem Dev.scrubShare_plane (d x1) : (Dev.scrubShare d x1).plane = d.plane := by
  simp [Dev.scrubShare]
@[simp] theorem Dev.entSet_plane (d x1 x2) : (Dev.entSet d x1 x2).plane = d.plane := by
  simp [Dev.entSet]
@[simp] theorem Dev.extentLeaves_plane (d x1 x2 x3) : (Dev.extentLeaves d x1 x2 x3).plane = d.plane := by
  simp [Dev.extentLeaves]
@[simp] theorem Dev.shareRegs_plane (d x1) : (Dev.shareRegs d x1).plane = d.plane := by
  fun_induction Dev.shareRegs d x1 <;> simp_all
@[simp] theorem Dev.mirrorRebuild_plane (d x1) : (Dev.mirrorRebuild d x1).plane = d.plane := by
  unfold Dev.mirrorRebuild
  dsimp only
  (repeat' split) <;> simp
@[simp] theorem Dev.coreSections_plane (d x1 x2 x3) : (Dev.coreSections d x1 x2 x3).plane = d.plane := by
  fun_induction Dev.coreSections d x1 x2 x3 <;> simp_all
@[simp] theorem Dev.restageCore_plane (d x1 x2) : (Dev.restageCore d x1 x2).plane = d.plane := by
  unfold Dev.restageCore
  (repeat' split) <;> simp
@[simp] theorem Dev.restageCores_plane (d x1 x2) : (Dev.restageCores d x1 x2).plane = d.plane := by
  fun_induction Dev.restageCores d x1 x2 <;> simp_all
@[simp] theorem Dev.loadImage_plane (d x1 x2 x3) : (Dev.loadImage d x1 x2 x3).plane = d.plane := by
  unfold Dev.loadImage
  (repeat' split) <;> simp
@[simp] theorem Dev.shareSections_plane (d x1 x2) : (Dev.shareSections d x1 x2).plane = d.plane := by
  fun_induction Dev.shareSections d x1 x2 <;> simp_all
@[simp] theorem Dev.restagePtn_plane (d x1) : (Dev.restagePtn d x1).plane = d.plane := by
  simp [Dev.restagePtn]
@[simp] theorem Dev.installUpd_plane (d x1 x2) : (Dev.installUpd d x1 x2).plane = d.plane := by
  simp [Dev.installUpd]
@[simp] theorem Dev.installEnd_plane (d x1 x2 x3 x4) : (Dev.installEnd d x1 x2 x3 x4).plane = d.plane := by
  simp [Dev.installEnd]
@[simp] theorem Dev.bundleInstallRun_plane (d x1) : (Dev.bundleInstallRun d x1).plane = d.plane := by
  unfold Dev.bundleInstallRun
  (repeat' split) <;> simp
@[simp] theorem Dev.measChange_plane (d x1) : (Dev.measChange d x1).plane = d.plane := by
  simp [Dev.measChange]
@[simp] theorem Dev.catalogueBundle_plane (d x1 x2 x3 x4) : (Dev.catalogueBundle d x1 x2 x3 x4).plane = d.plane := by
  unfold Dev.catalogueBundle
  (repeat' split) <;> simp
@[simp] theorem Dev.commitCores_plane (d : Dev) (b : Bundle) (rs : List Nat) : (Dev.commitCores d b rs).plane = d.plane := by
  induction rs generalizing d with
  | nil => rfl
  | cons r rs ih => rw [Dev.commitCores, ih]; split <;> simp
@[simp] theorem Dev.commitImages_plane (d : Dev) (b : Bundle) (rs : List Region) : (Dev.commitImages d b rs).plane = d.plane := by
  induction rs generalizing d with
  | nil => rfl
  | cons r rs ih => rw [Dev.commitImages, ih]; (repeat' split) <;> simp
@[simp] theorem Dev.bundleFree_plane (d x1) : (Dev.bundleFree d x1).1.plane = d.plane := by
  unfold Dev.bundleFree
  dsimp only
  (repeat' split) <;> simp

/-! #### ErrLog -/

@[simp] theorem Dev.erlAnnounce_plane (d x1) : (Dev.erlAnnounce d x1).plane = d.plane := by
  simp [Dev.erlAnnounce]
@[simp] theorem Dev.newEntry_plane (d x1) : (Dev.newEntry d x1).plane = d.plane := by
  unfold Dev.newEntry
  (repeat' split) <;> simp
@[simp] theorem Dev.erlTake_plane (d) : (Dev.erlTake d).plane = d.plane := by
  fun_cases Dev.erlTake d <;> simp_all +zetaDelta
@[simp] theorem Dev.erlClear_plane (d x1) : (Dev.erlClear d x1).plane = d.plane := by
  simp [Dev.erlClear]
@[simp] theorem Dev.erlIdx_plane (d x1) : (Dev.erlIdx d x1).plane = d.plane := by
  simp [Dev.erlIdx]

/-! #### Partition -/

@[simp] theorem Dev.wrBytes_plane (d x1 x2 x3) : (Dev.wrBytes d x1 x2 x3).plane = d.plane := by
  simp [Dev.wrBytes]
@[simp] theorem Dev.ptnRegs_plane (d) : (Dev.ptnRegs d).plane = d.plane := by
  simp [Dev.ptnRegs]
@[simp] theorem Dev.granuleScrubDone_plane (d) : (Dev.granuleScrubDone d).plane = d.plane := by
  unfold Dev.granuleScrubDone
  (repeat' split) <;> simp
@[simp] theorem Dev.ptnState_plane (d x1 x2) : (Dev.ptnState d x1 x2).plane = d.plane := by
  simp [Dev.ptnState]
@[simp] theorem Dev.planAll_plane (d) : (Dev.planAll d).plane = d.plane := by
  simp [Dev.planAll]
@[simp] theorem Dev.ptnFail_plane (d x1 x2 x3) : (Dev.ptnFail d x1 x2 x3).plane = d.plane := by
  simp [Dev.ptnFail]
@[simp] theorem Dev.ptnFailAll_plane (d x1 x2 x3) : (Dev.ptnFailAll d x1 x2 x3).plane = d.plane := by
  fun_induction Dev.ptnFailAll d x1 x2 x3 <;> simp_all
@[simp] theorem Dev.unitLost_plane (d x1 x2 x3 x4 x5) : (Dev.unitLost d x1 x2 x3 x4 x5).plane = d.plane := by
  unfold Dev.unitLost
  (repeat' split) <;> simp
@[simp] theorem Dev.coresLost_plane (d x1) : (Dev.coresLost d x1).plane = d.plane := by
  simp [Dev.coresLost]
@[simp] theorem Dev.coreStop_plane (d x1) : (Dev.coreStop d x1).plane = d.plane := by
  simp [Dev.coreStop]
@[simp] theorem Dev.holdLost_plane (d x1) : (Dev.holdLost d x1).plane = d.plane := by
  simp [Dev.holdLost]
@[simp] theorem Dev.coresGone_plane (d x1) : (Dev.coresGone d x1).plane = d.plane := by
  fun_induction Dev.coresGone d x1 <;> simp_all
@[simp] theorem Dev.dieFail_plane (d x1 x2 x3 x4) : (Dev.dieFail d x1 x2 x3 x4).plane = d.plane := by
  simp [Dev.dieFail]
@[simp] theorem Dev.stackStat_plane (d x1 x2) : (Dev.stackStat d x1 x2).plane = d.plane := by
  simp [Dev.stackStat]
@[simp] theorem Dev.hbmFail_plane (d x1 x2) : (Dev.hbmFail d x1 x2).plane = d.plane := by
  simp [Dev.hbmFail]
@[simp] theorem Dev.hbmBurst_plane (d x1 x2) : (Dev.hbmBurst d x1 x2).plane = d.plane := by
  simp [Dev.hbmBurst]
@[simp] theorem Dev.msFail_plane (d x1) : (Dev.msFail d x1).plane = d.plane := by
  simp [Dev.msFail]
@[simp] theorem Dev.coreOut_plane (d x1 x2) : (Dev.coreOut d x1 x2).plane = d.plane := by
  simp [Dev.coreOut]
@[simp] theorem Dev.resetCores_plane (d x1 x2) : (Dev.resetCores d x1 x2).plane = d.plane := by
  fun_induction Dev.resetCores d x1 x2 <;> simp_all
@[simp] theorem Dev.emptyQueues_plane (d x1) : (Dev.emptyQueues d x1).plane = d.plane := by
  fun_induction Dev.emptyQueues d x1 <;> simp_all
@[simp] theorem Dev.resetSlices_plane (d x1) : (Dev.resetSlices d x1).plane = d.plane := by
  simp [Dev.resetSlices]
@[simp] theorem Dev.remapNotice_plane (d x1 x2 x3 x4 x5 x6) : (Dev.remapNotice d x1 x2 x3 x4 x5 x6).plane = d.plane := by
  simp [Dev.remapNotice]
@[simp] theorem Dev.giveCore_plane (d x1 x2 x3) : (Dev.giveCore d x1 x2 x3).plane = d.plane := by
  simp [Dev.giveCore]
@[simp] theorem Dev.storeOut_plane (d x1 x2) : (Dev.storeOut d x1 x2).plane = d.plane := by
  unfold Dev.storeOut
  (repeat' split) <;> simp
@[simp] theorem Dev.shareCore_plane (d x1 x2) : (Dev.shareCore d x1 x2).plane = d.plane := by
  unfold Dev.shareCore
  (repeat' split) <;> simp
@[simp] theorem Dev.shareIdle_plane (d x1 x2) : (Dev.shareIdle d x1 x2).plane = d.plane := by
  simp [Dev.shareIdle]
@[simp] theorem Dev.replan_plane (d x1 x2) : (Dev.replan d x1 x2).plane = d.plane := by
  fun_induction Dev.replan d x1 x2 <;> simp_all +zetaDelta
@[simp] theorem Dev.mirrorLost_plane (d x1 x2) : (Dev.mirrorLost d x1 x2).plane = d.plane := by
  simp [Dev.mirrorLost]
@[simp] theorem Dev.fenceCores_plane (d x1) : (Dev.fenceCores d x1).plane = d.plane := by
  fun_induction Dev.fenceCores d x1 <;> simp_all
@[simp] theorem Dev.freeLocks_plane (d x1) : (Dev.freeLocks d x1).plane = d.plane := by
  fun_induction Dev.freeLocks d x1 <;> simp_all
@[simp] theorem Dev.planMove_plane (d x1 x2 x3 x4) : (Dev.planMove d x1 x2 x3 x4).1.plane = d.plane := by
  unfold Dev.planMove
  (repeat' split) <;> simp
@[simp] theorem Dev.planMoves_plane (d x1 x2) : (Dev.planMoves d x1 x2).1.plane = d.plane := by
  fun_induction Dev.planMoves d x1 x2 <;> simp_all +zetaDelta
@[simp] theorem Dev.startStates_plane (d x1) : (Dev.startStates d x1).plane = d.plane := by
  fun_induction Dev.startStates d x1 <;> simp_all
@[simp] theorem Dev.freeTargets_plane (d x1) : (Dev.freeTargets d x1).plane = d.plane := by
  fun_induction Dev.freeTargets d x1 <;> simp_all
@[simp] theorem Dev.remapHolds_plane (d) : (Dev.remapHolds d).plane = d.plane := by
  simp [Dev.remapHolds]
@[simp] theorem Dev.storeIn_plane (d x1 x2) : (Dev.storeIn d x1 x2).plane = d.plane := by
  unfold Dev.storeIn
  (repeat' split) <;> simp
@[simp] theorem Dev.restart1_plane (d x1 x2 x3) : (Dev.restart1 d x1 x2 x3).plane = d.plane := by
  unfold Dev.restart1
  dsimp only
  (repeat' split) <;> simp
@[simp] theorem Dev.restartAll_plane (d x1 x2 x3) : (Dev.restartAll d x1 x2 x3).plane = d.plane := by
  fun_induction Dev.restartAll d x1 x2 x3 <;> simp_all
@[simp] theorem Dev.moveAgain_plane (d x1 x2) : (Dev.moveAgain d x1 x2).1.plane = d.plane := by
  unfold Dev.moveAgain
  dsimp only
  (repeat' split) <;> simp
@[simp] theorem Dev.movesAgain_plane (d x1 x2) : (Dev.movesAgain d x1 x2).1.plane = d.plane := by
  fun_induction Dev.movesAgain d x1 x2 <;> simp_all +zetaDelta
@[simp] theorem Dev.remapRestart_plane (d) : (Dev.remapRestart d).plane = d.plane := by
  unfold Dev.remapRestart
  (repeat' split) <;> simp
@[simp] theorem Dev.restageDone_plane (d x1) : (Dev.restageDone d x1).plane = d.plane := by
  simp [Dev.restageDone]
@[simp] theorem Dev.sliceIn_plane (d x1 x2) : (Dev.sliceIn d x1 x2).plane = d.plane := by
  unfold Dev.sliceIn
  (repeat' split) <;> simp
@[simp] theorem Dev.timeShareSwitch_plane (d x1) : (Dev.timeShareSwitch d x1).plane = d.plane := by
  unfold Dev.timeShareSwitch
  (repeat' split) <;> simp

/-! #### Telemetry -/

@[simp] theorem Dev.pathSet_plane (d x1 x2) : (Dev.pathSet d x1 x2).plane = d.plane := by
  simp [Dev.pathSet]
@[simp] theorem Dev.offer_plane (d x1 x2) : (Dev.offer d x1 x2).plane = d.plane := by
  simp [Dev.offer]
@[simp] theorem Dev.teleRecord_plane (d) : (Dev.teleRecord d).plane = d.plane := by
  unfold Dev.teleRecord
  (repeat' split) <;> simp
@[simp] theorem Dev.mgmtOut_plane (d x1) : (Dev.mgmtOut d x1).plane = d.plane := by
  simp [Dev.mgmtOut]
@[simp] theorem Dev.emitAll_plane (d x1) : (Dev.emitAll d x1).plane = d.plane := by
  fun_induction Dev.emitAll d x1 <;> simp_all
@[simp] theorem Dev.mgmtDrain_plane (d) : (Dev.mgmtDrain d).plane = d.plane := by
  simp [Dev.mgmtDrain]
@[simp] theorem Dev.teleDgram_plane (d x1) : (Dev.teleDgram d x1).plane = d.plane := by
  simp [Dev.teleDgram]
@[simp] theorem Dev.teleFirst_plane (d x1 x2) : (Dev.teleFirst d x1 x2).plane = d.plane := by
  simp [Dev.teleFirst]
@[simp] theorem Dev.alarmSend_plane (d) : (Dev.alarmSend d).plane = d.plane := by
  unfold Dev.alarmSend
  (repeat' split) <;> simp
@[simp] theorem Dev.alarmsAgain_plane (d x1) : (Dev.alarmsAgain d x1).plane = d.plane := by
  simp [Dev.alarmsAgain]
@[simp] theorem Dev.summary_plane (d x1) : (Dev.summary d x1).plane = d.plane := by
  simp [Dev.summary]
@[simp] theorem Dev.pathUp_plane (d x1) : (Dev.pathUp d x1).plane = d.plane := by
  simp [Dev.pathUp]
@[simp] theorem Dev.pathDown_plane (d x1) : (Dev.pathDown d x1).plane = d.plane := by
  simp [Dev.pathDown]
@[simp] theorem Dev.portRecords_plane (d x1) : (Dev.portRecords d x1).plane = d.plane := by
  fun_induction Dev.portRecords d x1 <;> simp_all
@[simp] theorem Dev.ptnRecords_plane (d x1) : (Dev.ptnRecords d x1).plane = d.plane := by
  fun_induction Dev.ptnRecords d x1 <;> simp_all
@[simp] theorem Dev.summaryPeriod_plane (d) : (Dev.summaryPeriod d).plane = d.plane := by
  simp [Dev.summaryPeriod]
@[simp] theorem Dev.teleSend_plane (d) : (Dev.teleSend d).plane = d.plane := by
  simp [Dev.teleSend]
@[simp] theorem Dev.recvComplete_plane (d x1) : (Dev.recvComplete d x1).plane = d.plane := by
  unfold Dev.recvComplete
  dsimp only
  (repeat' split) <;> simp
@[simp] theorem Dev.fwTele_plane (d x1 x2 x3 x4 x5 x6) : (Dev.fwTele d x1 x2 x3 x4 x5 x6).plane = d.plane := by
  simp [Dev.fwTele]

/-! #### TimeUnit -/

@[simp] theorem Dev.tmuCount_plane (d x1) : (Dev.tmuCount d x1).plane = d.plane := by
  simp [Dev.tmuCount]
@[simp] theorem Dev.tmuRegs_plane (d) : (Dev.tmuRegs d).plane = d.plane := by
  simp [Dev.tmuRegs]
@[simp] theorem Dev.utcSet_plane (d x1) : (Dev.utcSet d x1).plane = d.plane := by
  simp [Dev.utcSet]
@[simp] theorem Dev.nowWord_plane (d x1) : (Dev.nowWord d x1).1.plane = d.plane := by
  simp [Dev.nowWord]
@[simp] theorem Dev.nowRead_plane (d x1) : (Dev.nowRead d x1).plane = d.plane := by
  simp [Dev.nowRead]

/-! #### Host -/

@[simp] theorem Dev.mbxSet_plane (d x1 x2) : (Dev.mbxSet d x1 x2).plane = d.plane := by
  simp [Dev.mbxSet]
@[simp] theorem Dev.dmaSet_plane (d x1 x2 x3) : (Dev.dmaSet d x1 x2 x3).plane = d.plane := by
  simp [Dev.dmaSet]
@[simp] theorem Dev.accFail_plane (d x1 x2 x3 x4 x5) : (Dev.accFail d x1 x2 x3 x4 x5).plane = d.plane := by
  unfold Dev.accFail
  (repeat' split) <;> simp
@[simp] theorem Dev.readWord_plane (d x1 x2) : (Dev.readWord d x1 x2).1.plane = d.plane := by
  simp [Dev.readWord]
@[simp] theorem Dev.plainWrite_plane (d x1 x2 x3 x4) : (Dev.plainWrite d x1 x2 x3 x4).plane = d.plane := by
  simp [Dev.plainWrite]
@[simp] theorem Dev.stageLow_plane (d x1 x2 x3) : (Dev.stageLow d x1 x2 x3).plane = d.plane := by
  simp [Dev.stageLow]
@[simp] theorem Dev.pairTake_plane (d x1 x2 x3) : (Dev.pairTake d x1 x2 x3).plane = d.plane := by
  simp [Dev.pairTake]
@[simp] theorem Dev.pairLowWrite_plane (d x1 x2 x3) : (Dev.pairLowWrite d x1 x2 x3).plane = d.plane := by
  unfold Dev.pairLowWrite
  (repeat' split) <;> simp
@[simp] theorem Dev.pairHighWrite_plane (d x1 x2 x3) : (Dev.pairHighWrite d x1 x2 x3).plane = d.plane := by
  unfold Dev.pairHighWrite
  (repeat' split) <;> simp
@[simp] theorem Dev.pairWrite_plane (d x1 x2 x3 x4) : (Dev.pairWrite d x1 x2 x3 x4).plane = d.plane := by
  unfold Dev.pairWrite
  (repeat' split) <;> simp
@[simp] theorem Dev.registerWrite_plane (d x1 x2 x3 x4) : (Dev.registerWrite d x1 x2 x3 x4).plane = d.plane := by
  fun_cases Dev.registerWrite d x1 x2 x3 x4 <;> simp_all +zetaDelta
@[simp] theorem Dev.readTimeout_plane (d x1 x2) : (Dev.readTimeout d x1 x2).plane = d.plane := by
  simp [Dev.readTimeout]
@[simp] theorem Dev.mbxEvent_plane (d x1 x2) : (Dev.mbxEvent d x1 x2).plane = d.plane := by
  simp [Dev.mbxEvent]
@[simp] theorem Dev.mbxBad_plane (d x1) : (Dev.mbxBad d x1).plane = d.plane := by
  simp [Dev.mbxBad]
@[simp] theorem Dev.mbxRing_plane (d x1) : (Dev.mbxRing d x1).plane = d.plane := by
  simp [Dev.mbxRing]
@[simp] theorem Dev.mbxDeliver_plane (d x1 x2) : (Dev.mbxDeliver d x1 x2).plane = d.plane := by
  simp [Dev.mbxDeliver]
@[simp] theorem Dev.mbxRack_plane (d x1) : (Dev.mbxRack d x1).plane = d.plane := by
  unfold Dev.mbxRack
  dsimp only
  (repeat' split) <;> simp
@[simp] theorem Dev.mbxRespond_plane (d x1 x2 x3 x4 x5) : (Dev.mbxRespond d x1 x2 x3 x4 x5).plane = d.plane := by
  simp [Dev.mbxRespond]
@[simp] theorem Dev.mbxTake_plane (d x1) : (Dev.mbxTake d x1).plane = d.plane := by
  fun_cases Dev.mbxTake d x1 <;> simp_all +zetaDelta
@[simp] theorem Dev.answer_plane (d x1 x2 x3 x4) : (Dev.answer d x1 x2 x3 x4).plane = d.plane := by
  simp [Dev.answer]
@[simp] theorem Dev.messageSegment_plane (d x1) : (Dev.messageSegment d x1).plane = d.plane := by
  unfold Dev.messageSegment
  (repeat' split) <;> simp
@[simp] theorem Dev.hello_plane (d x1) : (Dev.hello d x1).plane = d.plane := by
  unfold Dev.hello
  (repeat' split) <;> simp
@[simp] theorem Dev.bundleInstall_plane (d) : (Dev.bundleInstall d).plane = d.plane := by
  unfold Dev.bundleInstall
  (repeat' split) <;> simp
@[simp] theorem Dev.bundleStatus_plane (d) : (Dev.bundleStatus d).plane = d.plane := by
  unfold Dev.bundleStatus
  (repeat' split) <;> simp
@[simp] theorem Dev.bundleFreeMsg_plane (d) : (Dev.bundleFreeMsg d).plane = d.plane := by
  unfold Dev.bundleFreeMsg
  dsimp only
  (repeat' split) <;> simp
theorem Dev.coreCtrl_plane (d : Dev) (n op : Nat) (f : Dev → Nat → Nat → Nat → Dev) (h : ∀ e x y z, (f e x y z).plane = e.plane) :
    (d.coreCtrl n op f).plane = d.plane := by
  unfold Dev.coreCtrl
  dsimp only
  repeat' split
  all_goals simp [h]
@[simp] theorem Dev.coreSetHeld_plane (d x1 x2 x3) : (Dev.coreSetHeld d x1 x2 x3).plane = d.plane := by
  simp [Dev.coreSetHeld]
@[simp] theorem Dev.coreSetPc_plane (d n) : (Dev.coreSetPc d n).plane = d.plane := by
  refine Dev.coreCtrl_plane _ _ _ _ ?_
  intros
  (repeat' split) <;> simp
@[simp] theorem Dev.coreSetSave_plane (d n) : (Dev.coreSetSave d n).plane = d.plane := by
  refine Dev.coreCtrl_plane _ _ _ _ ?_
  intros
  (repeat' split) <;> simp
@[simp] theorem Dev.coreRun_plane (d n) : (Dev.coreRun d n).plane = d.plane := by
  refine Dev.coreCtrl_plane _ _ _ _ ?_
  intros
  (repeat' split) <;> simp
@[simp] theorem Dev.corePreempt_plane (d n) : (Dev.corePreempt d n).plane = d.plane := by
  refine Dev.coreCtrl_plane _ _ _ _ ?_
  intros
  (repeat' split) <;> simp
@[simp] theorem Dev.coreResume_plane (d n) : (Dev.coreResume d n).plane = d.plane := by
  refine Dev.coreCtrl_plane _ _ _ _ ?_
  intros
  (repeat' split) <;> simp
@[simp] theorem Dev.coreReset_plane (d n) : (Dev.coreReset d n).plane = d.plane := by
  refine Dev.coreCtrl_plane _ _ _ _ ?_
  intros
  (repeat' split) <;> simp
@[simp] theorem Dev.directGrant_plane (d) : (Dev.directGrant d).plane = d.plane := by
  unfold Dev.directGrant
  (repeat' split) <;> simp
@[simp] theorem Dev.dmaqCreate_plane (d x1) : (Dev.dmaqCreate d x1).plane = d.plane := by
  unfold Dev.dmaqCreate
  (repeat' split) <;> simp
@[simp] theorem Dev.dmaqDestroy_plane (d x1) : (Dev.dmaqDestroy d x1).plane = d.plane := by
  unfold Dev.dmaqDestroy
  (repeat' split) <;> simp
@[simp] theorem Dev.sqDoorbell_plane (d x1 x2 x3) : (Dev.sqDoorbell d x1 x2 x3).plane = d.plane := by
  simp [Dev.sqDoorbell]
@[simp] theorem Dev.cqHeadWrite_plane (d x1 x2 x3) : (Dev.cqHeadWrite d x1 x2 x3).plane = d.plane := by
  simp [Dev.cqHeadWrite]
@[simp] theorem Dev.dmaWrite_plane (d x1 x2 x3 x4 x5 x6) : (Dev.dmaWrite d x1 x2 x3 x4 x5 x6).plane = d.plane := by
  simp [Dev.dmaWrite]
@[simp] theorem Dev.dmaRecv_plane (d x1 x2) : (Dev.dmaRecv d x1 x2).plane = d.plane := by
  simp [Dev.dmaRecv]
@[simp] theorem Dev.dmaComplete_plane (d x1 x2) : (Dev.dmaComplete d x1 x2).plane = d.plane := by
  unfold Dev.dmaComplete
  dsimp only
  (repeat' split) <;> simp
@[simp] theorem Dev.msixDeliver_plane (d x1 x2) : (Dev.msixDeliver d x1 x2).plane = d.plane := by
  simp [Dev.msixDeliver]
@[simp] theorem Dev.headLoad_plane (d) : (Dev.headLoad d).plane = d.plane := by
  simp [Dev.headLoad]
@[simp] theorem Dev.fnReset_plane (d x1) : (Dev.fnReset d x1).plane = d.plane := by
  simp [Dev.fnReset]
@[simp] theorem Dev.fnResets_plane (d x1) : (Dev.fnResets d x1).plane = d.plane := by
  fun_induction Dev.fnResets d x1 <;> simp_all +zetaDelta
@[simp] theorem Dev.pfFlr_plane (d) : (Dev.pfFlr d).plane = d.plane := by
  simp [Dev.pfFlr]
@[simp] theorem Dev.hotReset_plane (d) : (Dev.hotReset d).plane = d.plane := by
  simp [Dev.hotReset]
@[simp] theorem Dev.perst_plane (d) : (Dev.perst d).plane = d.plane := by
  simp [Dev.perst]
@[simp] theorem Dev.linkTrained_plane (d x1 x2 x3) : (Dev.linkTrained d x1 x2 x3).plane = d.plane := by
  simp [Dev.linkTrained]
@[simp] theorem Dev.configWrite_plane (d x1) : (Dev.configWrite d x1).plane = d.plane := by
  unfold Dev.configWrite
  (repeat' split) <;> simp
@[simp] theorem Dev.doeDiscovery_plane (d x1) : (Dev.doeDiscovery d x1).plane = d.plane := by
  simp [Dev.doeDiscovery]

/-! #### SecOps -/

@[simp] theorem Dev.secRegs_plane (d) : (Dev.secRegs d).plane = d.plane := by
  simp [Dev.secRegs]
@[simp] theorem Dev.measSel_plane (d x1) : (Dev.measSel d x1).plane = d.plane := by
  simp [Dev.measSel]
@[simp] theorem Dev.pkSel_plane (d x1) : (Dev.pkSel d x1).plane = d.plane := by
  simp [Dev.pkSel]
@[simp] theorem Dev.shareScrubs_plane (d x1) : (Dev.shareScrubs d x1).plane = d.plane := by
  fun_induction Dev.shareScrubs d x1 <;> simp_all
@[simp] theorem Dev.bundlesGone_plane (d x1) : (Dev.bundlesGone d x1).plane = d.plane := by
  simp [Dev.bundlesGone]
@[simp] theorem Dev.lifeDone_plane (d x1 x2) : (Dev.lifeDone d x1 x2).plane = d.plane := by
  simp [Dev.lifeDone]
@[simp] theorem Dev.burn_plane (d x1) : (Dev.burn d x1).plane = d.plane := by
  simp [Dev.burn]
@[simp] theorem Dev.keysIn_plane (d) : (Dev.keysIn d).plane = d.plane := by
  simp [Dev.keysIn]
@[simp] theorem Dev.provision_plane (d) : (Dev.provision d).plane = d.plane := by
  simp [Dev.provision]
@[simp] theorem Dev.commitSvn_plane (d) : (Dev.commitSvn d).plane = d.plane := by
  simp [Dev.commitSvn]
@[simp] theorem Dev.revokeSlot_plane (d x1) : (Dev.revokeSlot d x1).plane = d.plane := by
  simp [Dev.revokeSlot]
@[simp] theorem Dev.mbxDrop_plane (d) : (Dev.mbxDrop d).plane = d.plane := by
  simp [Dev.mbxDrop]

/-! #### PowerLoop -/

@[simp] theorem Dev.dieFld_plane (d x1 x2 x3 x4) : (Dev.dieFld d x1 x2 x3 x4).plane = d.plane := by
  simp [Dev.dieFld]
@[simp] theorem Dev.kRequest_plane (d x1 x2) : (Dev.kRequest d x1 x2).plane = d.plane := by
  simp [Dev.kRequest]
@[simp] theorem Dev.kForce_plane (d x1 x2) : (Dev.kForce d x1 x2).plane = d.plane := by
  simp [Dev.kForce]
@[simp] theorem Dev.tclkStep_plane (d x1) : (Dev.tclkStep d x1).plane = d.plane := by
  unfold Dev.tclkStep
  (repeat' split) <;> simp
@[simp] theorem Dev.tclkSteps_plane (d x1) : (Dev.tclkSteps d x1).plane = d.plane := by
  fun_induction Dev.tclkSteps d x1 <;> simp_all
@[simp] theorem Dev.hbmLimSet_plane (d x1) : (Dev.hbmLimSet d x1).plane = d.plane := by
  simp [Dev.hbmLimSet]
@[simp] theorem Dev.msLimSet_plane (d x1) : (Dev.msLimSet d x1).plane = d.plane := by
  simp [Dev.msLimSet]
@[simp] theorem Dev.stepPart_plane (d x1 x2) : (Dev.stepPart d x1 x2).plane = d.plane := by
  unfold Dev.stepPart
  (repeat' split) <;> simp
@[simp] theorem Dev.reduceWalk_plane (d x1 x2 x3 x4 x5) : (Dev.reduceWalk d x1 x2 x3 x4 x5).1.plane = d.plane := by
  fun_induction Dev.reduceWalk d x1 x2 x3 x4 x5 <;> simp_all +zetaDelta
@[simp] theorem Dev.ceilWalk_plane (d x1) : (Dev.ceilWalk d x1).1.plane = d.plane := by
  fun_induction Dev.ceilWalk d x1 <;> simp_all +zetaDelta
@[simp] theorem Dev.raiseOne_plane (d x1 x2 x3) : (Dev.raiseOne d x1 x2 x3).plane = d.plane := by
  unfold Dev.raiseOne
  (repeat' split) <;> simp
@[simp] theorem Dev.railFail_plane (d x1) : (Dev.railFail d x1).plane = d.plane := by
  simp [Dev.railFail]
@[simp] theorem Dev.railOk_plane (d x1) : (Dev.railOk d x1).plane = d.plane := by
  simp [Dev.railOk]
@[simp] theorem Dev.railReads_plane (d x1) : (Dev.railReads d x1).plane = d.plane := by
  fun_induction Dev.railReads d x1 <;> simp_all +zetaDelta
@[simp] theorem Dev.pwrStat_plane (d x1 x2 x3 x4) : (Dev.pwrStat d x1 x2 x3 x4).plane = d.plane := by
  simp [Dev.pwrStat]
@[simp] theorem Dev.pwrHot_plane (d) : (Dev.pwrHot d).plane = d.plane := by
  simp [Dev.pwrHot]
@[simp] theorem Dev.powerLoop_plane (d x1 x2) : (Dev.powerLoop d x1 x2).plane = d.plane := by
  simp [Dev.powerLoop]
@[simp] theorem Dev.thermalLoop_plane (d x1) : (Dev.thermalLoop d x1).plane = d.plane := by
  simp [Dev.thermalLoop]
@[simp] theorem Dev.holdB_plane (d x1) : (Dev.holdB d x1).plane = d.plane := by
  simp [Dev.holdB]
@[simp] theorem Dev.hwThrottle_plane (d x1 x2) : (Dev.hwThrottle d x1 x2).plane = d.plane := by
  simp [Dev.hwThrottle]
@[simp] theorem Dev.loopLoss_plane (d) : (Dev.loopLoss d).plane = d.plane := by
  simp [Dev.loopLoss]
@[simp] theorem Dev.kRaise_plane (d x1) : (Dev.kRaise d x1).plane = d.plane := by
  simp [Dev.kRaise]
@[simp] theorem Dev.setFreq_plane (d x1 x2) : (Dev.setFreq d x1 x2).plane = d.plane := by
  simp [Dev.setFreq]

/-! #### Dict -/

@[simp] theorem Dev.sessSet_plane (d x1 x2) : (Dev.sessSet d x1 x2).plane = d.plane := by
  simp [Dev.sessSet]
@[simp] theorem Dev.sessUpd_plane (d x1 x2) : (Dev.sessUpd d x1 x2).plane = d.plane := by
  simp [Dev.sessUpd]
@[simp] theorem Dev.tokenFail_plane (d x1 x2 x3) : (Dev.tokenFail d x1 x2 x3).plane = d.plane := by
  simp [Dev.tokenFail]
@[simp] theorem Dev.storeImage_plane (d x1 x2) : (Dev.storeImage d x1 x2).1.plane = d.plane := by
  simp [Dev.storeImage]
@[simp] theorem Dev.keepValue_plane (d x1 x2 x3 x4 x5) : (Dev.keepValue d x1 x2 x3 x4 x5).plane = d.plane := by
  simp [Dev.keepValue]
@[simp] theorem Dev.applyWords_plane (d x1 x2 x3) : (Dev.applyWords d x1 x2 x3).plane = d.plane := by
  simp [Dev.applyWords]

/-! #### Transports -/

@[simp] theorem Dev.dictReadMsg_plane (d x1) : (Dev.dictReadMsg d x1).plane = d.plane := by
  unfold Dev.dictReadMsg
  dsimp only
  (repeat' split) <;> simp
@[simp] theorem Dev.segment_plane (d x1) : (Dev.segment d x1).plane = d.plane := by
  unfold Dev.segment
  (repeat' split) <;> simp
@[simp] theorem Dev.canPath_plane (d) : (Dev.canPath d).plane = d.plane := by
  simp [Dev.canPath]
@[simp] theorem Dev.sdoSay_plane (d x1) : (Dev.sdoSay d x1).plane = d.plane := by
  simp [Dev.sdoSay]
@[simp] theorem Dev.sdoAbort_plane (d x1 x2 x3) : (Dev.sdoAbort d x1 x2 x3).plane = d.plane := by
  simp [Dev.sdoAbort]
@[simp] theorem Dev.sessEnd_plane (d x1) : (Dev.sessEnd d x1).plane = d.plane := by
  simp [Dev.sessEnd]
@[simp] theorem Dev.sdoBlock_plane (d x1 x2 x3) : (Dev.sdoBlock d x1 x2 x3).plane = d.plane := by
  simp [Dev.sdoBlock]
@[simp] theorem Dev.sdoUp_plane (d x1) : (Dev.sdoUp d x1).plane = d.plane := by
  unfold Dev.sdoUp
  dsimp only
  (repeat' split) <;> simp
@[simp] theorem Dev.udpSay_plane (d x1 x2 x3) : (Dev.udpSay d x1 x2 x3).plane = d.plane := by
  simp [Dev.udpSay]
@[simp] theorem Dev.udpGet_plane (d x1 x2) : (Dev.udpGet d x1 x2).plane = d.plane := by
  unfold Dev.udpGet
  dsimp only
  (repeat' split) <;> simp
@[simp] theorem Dev.sdoTimeout_plane (d x1) : (Dev.sdoTimeout d x1).plane = d.plane := by
  unfold Dev.sdoTimeout
  dsimp only
  (repeat' split) <;> simp
@[simp] theorem Dev.nmtSet_plane (d x1) : (Dev.nmtSet d x1).plane = d.plane := by
  simp [Dev.nmtSet]
@[simp] theorem Dev.canStart_plane (d) : (Dev.canStart d).plane = d.plane := by
  simp [Dev.canStart]
@[simp] theorem Dev.nmtReset_plane (d) : (Dev.nmtReset d).plane = d.plane := by
  simp [Dev.nmtReset]
@[simp] theorem Dev.heartbeat_plane (d) : (Dev.heartbeat d).plane = d.plane := by
  simp [Dev.heartbeat]
@[simp] theorem Dev.canError_plane (d x1 x2) : (Dev.canError d x1 x2).plane = d.plane := by
  simp [Dev.canError]
@[simp] theorem Dev.udpTimeout_plane (d x1) : (Dev.udpTimeout d x1).plane = d.plane := by
  simp [Dev.udpTimeout]
@[simp] theorem Dev.usbFail_plane (d x1 x2 x3) : (Dev.usbFail d x1 x2 x3).plane = d.plane := by
  simp [Dev.usbFail]
@[simp] theorem Dev.usbGate_plane (d : Dev) (i s : Nat) (go : Dev) (h : go.plane = d.plane) : (d.usbGate i s go).plane = d.plane := by
  unfold Dev.usbGate
  (repeat' split) <;> simp [h]
@[simp] theorem Dev.usbRead_plane (d x1 x2 x3 x4) : (Dev.usbRead d x1 x2 x3 x4).plane = d.plane := by
  unfold Dev.usbRead
  dsimp only
  (repeat' split) <;> simp
@[simp] theorem Dev.usbWrite_plane (d x1 x2 x3 x4) : (Dev.usbWrite d x1 x2 x3 x4).plane = d.plane := by
  unfold Dev.usbWrite
  dsimp only
  (repeat' split) <;> simp
@[simp] theorem Dev.usbResult_plane (d) : (Dev.usbResult d).plane = d.plane := by
  simp [Dev.usbResult]
@[simp] theorem Dev.usbReset_plane (d) : (Dev.usbReset d).plane = d.plane := by
  simp [Dev.usbReset]
@[simp] theorem Dev.tokenExpire_plane (d x1) : (Dev.tokenExpire d x1).plane = d.plane := by
  simp [Dev.tokenExpire]
@[simp] theorem Dev.pathRise_plane (d x1) : (Dev.pathRise d x1).plane = d.plane := by
  unfold Dev.pathRise
  (repeat' split) <;> simp
@[simp] theorem Dev.pathFall_plane (d x1) : (Dev.pathFall d x1).plane = d.plane := by
  unfold Dev.pathFall
  (repeat' split) <;> simp

/-! #### Firmware -/

@[simp] theorem Dev.imageRefused_plane (d x1) : (Dev.imageRefused d x1).plane = d.plane := by
  simp [Dev.imageRefused]
@[simp] theorem Dev.fwLoad_plane (d x1) : (Dev.fwLoad d x1).plane = d.plane := by
  unfold Dev.fwLoad
  dsimp only
  (repeat' split) <;> simp
@[simp] theorem Dev.fwUpdate_plane (d x1) : (Dev.fwUpdate d x1).plane = d.plane := by
  unfold Dev.fwUpdate
  dsimp only
  (repeat' split) <;> simp
@[simp] theorem Dev.fwNotice_plane (d x1 x2 x3) : (Dev.fwNotice d x1 x2 x3).plane = d.plane := by
  simp [Dev.fwNotice]
@[simp] theorem Dev.setHeld_plane (d x1) : (Dev.setHeld d x1).plane = d.plane := by
  simp [Dev.setHeld]
@[simp] theorem Dev.quiesce_plane (d) : (Dev.quiesce d).plane = d.plane := by
  simp [Dev.quiesce]
@[simp] theorem Dev.imageSwap_plane (d x1 x2) : (Dev.imageSwap d x1 x2).plane = d.plane := by
  simp [Dev.imageSwap]
@[simp] theorem Dev.exportRecs_plane (d) : (Dev.exportRecs d).plane = d.plane := by
  simp [Dev.exportRecs]
@[simp] theorem Dev.updateAnswer_plane (d x1) : (Dev.updateAnswer d x1).plane = d.plane := by
  unfold Dev.updateAnswer
  (repeat' split) <;> simp
@[simp] theorem Dev.dropTransfers_plane (d) : (Dev.dropTransfers d).plane = d.plane := by
  simp [Dev.dropTransfers]
@[simp] theorem Dev.retainedWrite_plane (d) : (Dev.retainedWrite d).plane = d.plane := by
  simp [Dev.retainedWrite]
@[simp] theorem Dev.bundleKeep_plane (d) : (Dev.bundleKeep d).plane = d.plane := by
  simp [Dev.bundleKeep]
@[simp] theorem Dev.savedPart_plane (d x1 x2) : (Dev.savedPart d x1 x2).plane = d.plane := by
  simp [Dev.savedPart]
@[simp] theorem Dev.erlBack_plane (d x1) : (Dev.erlBack d x1).plane = d.plane := by
  simp [Dev.erlBack]
@[simp] theorem Dev.saveLogs_plane (d x1) : (Dev.saveLogs d x1).plane = d.plane := by
  unfold Dev.saveLogs
  (repeat' split) <;> simp
@[simp] theorem Dev.saveValues_plane (d x1) : (Dev.saveValues d x1).plane = d.plane := by
  simp [Dev.saveValues]
@[simp] theorem Dev.reportParts_plane (d x1) : (Dev.reportParts d x1).plane = d.plane := by
  unfold Dev.reportParts
  (repeat' split) <;> simp
@[simp] theorem Dev.saveBad_plane (d x1) : (Dev.saveBad d x1).plane = d.plane := by
  unfold Dev.saveBad
  (repeat' split) <;> simp
@[simp] theorem Dev.saveTake_plane (d) : (Dev.saveTake d).plane = d.plane := by
  simp [Dev.saveTake]
@[simp] theorem Dev.dictLoad_plane (d) : (Dev.dictLoad d).plane = d.plane := by
  unfold Dev.dictLoad
  dsimp only
  (repeat' split) <;> simp
@[simp] theorem Dev.dictRestore_plane (d) : (Dev.dictRestore d).plane = d.plane := by
  simp [Dev.dictRestore]
@[simp] theorem Dev.arraysFail_plane (d x1) : (Dev.arraysFail d x1).plane = d.plane := by
  fun_induction Dev.arraysFail d x1 <;> simp_all
@[simp] theorem Dev.arrayTest_plane (d x1) : (Dev.arrayTest d x1).plane = d.plane := by
  simp [Dev.arrayTest]
@[simp] theorem Dev.quadsFail_plane (d x1) : (Dev.quadsFail d x1).plane = d.plane := by
  fun_induction Dev.quadsFail d x1 <;> simp_all
@[simp] theorem Dev.partitionRestage_plane (d) : (Dev.partitionRestage d).plane = d.plane := by
  unfold Dev.partitionRestage
  (repeat' split) <;> simp

/-! #### Security -/

@[simp] theorem Dev.spdmSay_plane (d x1) : (Dev.spdmSay d x1).plane = d.plane := by
  simp [Dev.spdmSay]
@[simp] theorem Dev.spdmErr_plane (d x1 x2) : (Dev.spdmErr d x1 x2).plane = d.plane := by
  simp [Dev.spdmErr]
@[simp] theorem Dev.spdmAnswer_plane (d x1 x2) : (Dev.spdmAnswer d x1 x2).plane = d.plane := by
  simp [Dev.spdmAnswer]
@[simp] theorem Dev.draw_plane (d x1) : (Dev.draw d x1).2.plane = d.plane := by
  simp [Dev.draw]
theorem Dev.spdmGate_plane (d : Dev) (sid : Option Nat) (req : List Byte) (len need : Nat) (go : Dev) (h : go.plane = d.plane) :
    (d.spdmGate sid req len need go).plane = d.plane := by
  unfold Dev.spdmGate
  (repeat' split) <;> simp [h]
@[simp] theorem Dev.spdmSigned_plane (d x1 x2) : (Dev.spdmSigned d x1 x2).plane = d.plane := by
  unfold Dev.spdmSigned
  dsimp only
  (repeat' split) <;> simp
@[simp] theorem Dev.spdmSign_plane (d x1 x2 x3 x4) : (Dev.spdmSign d x1 x2 x3 x4).plane = d.plane := by
  simp [Dev.spdmSign]
@[simp] theorem Dev.getVersion_plane (d x1) : (Dev.getVersion d x1).plane = d.plane := by
  simp [Dev.getVersion]
@[simp] theorem Dev.getCapabilities_plane (d x1) : (Dev.getCapabilities d x1).plane = d.plane := by
  unfold Dev.getCapabilities
  try dsimp only
  refine Dev.spdmGate_plane _ _ _ _ _ _ ?_
  (repeat' split) <;> simp
@[simp] theorem Dev.negotiate_plane (d x1) : (Dev.negotiate d x1).plane = d.plane := by
  unfold Dev.negotiate
  try dsimp only
  refine Dev.spdmGate_plane _ _ _ _ _ _ ?_
  (repeat' split) <;> simp
@[simp] theorem Dev.getDigests_plane (d x1 x2) : (Dev.getDigests d x1 x2).plane = d.plane := by
  unfold Dev.getDigests
  try dsimp only
  refine Dev.spdmGate_plane _ _ _ _ _ _ ?_
  (repeat' split) <;> simp
@[simp] theorem Dev.getCertificate_plane (d x1 x2) : (Dev.getCertificate d x1 x2).plane = d.plane := by
  unfold Dev.getCertificate
  try dsimp only
  refine Dev.spdmGate_plane _ _ _ _ _ _ ?_
  (repeat' split) <;> simp
@[simp] theorem Dev.spdmChallenge_plane (d x1 x2) : (Dev.spdmChallenge d x1 x2).plane = d.plane := by
  unfold Dev.spdmChallenge
  try dsimp only
  refine Dev.spdmGate_plane _ _ _ _ _ _ ?_
  (repeat' split) <;> simp
@[simp] theorem Dev.getMeasurements_plane (d x1 x2) : (Dev.getMeasurements d x1 x2).plane = d.plane := by
  unfold Dev.getMeasurements
  try dsimp only
  refine Dev.spdmGate_plane _ _ _ _ _ _ ?_
  (repeat' split) <;> simp
@[simp] theorem Dev.keyExchange_plane (d x1 x2) : (Dev.keyExchange d x1 x2).plane = d.plane := by
  unfold Dev.keyExchange
  try dsimp only
  refine Dev.spdmGate_plane _ _ _ _ _ _ ?_
  (repeat' split) <;> simp
@[simp] theorem Dev.spdmFinish_plane (d x1 x2) : (Dev.spdmFinish d x1 x2).plane = d.plane := by
  unfold Dev.spdmFinish
  try dsimp only
  refine Dev.spdmGate_plane _ _ _ _ _ _ ?_
  (repeat' split) <;> simp
@[simp] theorem Dev.spdmHeartbeat_plane (d s r) : (Dev.spdmHeartbeat d s r).plane = d.plane := by
  refine Dev.spdmGate_plane _ _ _ _ _ _ ?_
  split <;> simp
@[simp] theorem Dev.endSession_plane (d x1 x2) : (Dev.endSession d x1 x2).plane = d.plane := by
  unfold Dev.endSession
  try dsimp only
  refine Dev.spdmGate_plane _ _ _ _ _ _ ?_
  (repeat' split) <;> simp
@[simp] theorem Dev.vendorRequest_plane (d x1 x2) : (Dev.vendorRequest d x1 x2).plane = d.plane := by
  unfold Dev.vendorRequest
  try dsimp only
  refine Dev.spdmGate_plane _ _ _ _ _ _ ?_
  (repeat' split) <;> simp
@[simp] theorem Dev.newChallenge_plane (d) : (Dev.newChallenge d).plane = d.plane := by
  simp [Dev.newChallenge]
@[simp] theorem Dev.debugUnlock_plane (d x1) : (Dev.debugUnlock d x1).plane = d.plane := by
  simp [Dev.debugUnlock]
@[simp] theorem Dev.tapReset_plane (d) : (Dev.tapReset d).plane = d.plane := by
  simp [Dev.tapReset]
@[simp] theorem Dev.txanRecord_plane (d x1 x2) : (Dev.txanRecord d x1 x2).plane = d.plane := by
  simp [Dev.txanRecord]
@[simp] theorem Dev.pnwarn_plane (d x1) : (Dev.pnwarn d x1).plane = d.plane := by
  unfold Dev.pnwarn
  dsimp only
  (repeat' split) <;> simp

/-! #### Power -/

@[simp] theorem Dev.boardBad_plane (d) : (Dev.boardBad d).plane = d.plane := by
  simp [Dev.boardBad]
@[simp] theorem Dev.bootRegs_plane (d) : (Dev.bootRegs d).plane = d.plane := by
  simp [Dev.bootRegs]
@[simp] theorem Dev.resetWord_plane (d x1 x2 x3) : (Dev.resetWord d x1 x2 x3).plane = d.plane := by
  simp [Dev.resetWord]
@[simp] theorem Dev.saveSkip_plane (d) : (Dev.saveSkip d).plane = d.plane := by
  simp [Dev.saveSkip]
@[simp] theorem Dev.saveBegin_plane (d x1) : (Dev.saveBegin d x1).plane = d.plane := by
  simp [Dev.saveBegin]
@[simp] theorem Dev.pgoodFall_plane (d x1 x2) : (Dev.pgoodFall d x1 x2).plane = d.plane := by
  simp [Dev.pgoodFall]

/-! #### Exec -/

@[simp] theorem Dev.hostDo_plane (d : Dev) (w : Req) (f : Dev → Dev) (h : (f d).plane = d.plane) : (d.hostDo w f).plane = d.plane := by
  unfold Dev.hostDo
  (repeat' split) <;> simp [h]
@[simp] theorem Dev.fnDo_plane (d : Dev) (w : Option Nat) (f : Dev → Dev) (h : (f d).plane = d.plane) : (d.fnDo w f).plane = d.plane := by
  unfold Dev.fnDo
  (repeat' split) <;> simp [h]
@[simp] theorem Dev.blockDo_plane (d : Dev) (w : Req) (f : Dev → Dev) (h : (f d).plane = d.plane) : (d.blockDo w f).plane = d.plane := by
  unfold Dev.blockDo
  split
  · rfl
  · exact Dev.hostDo_plane d w f h
@[simp] theorem Dev.fwDo_plane (d : Dev) (f : Dev → Dev) (h : (f d).plane = d.plane) : (d.fwDo f).plane = d.plane := by
  unfold Dev.fwDo
  (repeat' split) <;> simp [h]
@[simp] theorem Dev.linkDo_plane (d : Dev) (f : Dev → Dev) (h : (f d).plane = d.plane) : (d.linkDo f).plane = d.plane := by
  unfold Dev.linkDo
  (repeat' split) <;> simp [h]
@[simp] theorem Dev.vfDo_plane (d : Dev) (n : Nat) (f : Dev → Dev) (h : (f d).plane = d.plane) : (d.vfDo n f).plane = d.plane := by
  unfold Dev.vfDo
  (repeat' split) <;> simp [h]
/-- A register write that no firmware component makes takes no protection fault (R408). -/
theorem Dev.writeDo_plane {d : Dev} {w : Req} {k : Nat} {b : Bool} {f : Dev → Dev} (hw : w.isFw = false) (h : (f d).plane = d.plane) :
    (d.writeDo w k b f).plane = d.plane := by
  unfold Dev.writeDo
  split
  · exact absurd hw (by simp [Req.isFw])
  · exact Dev.hostDo_plane d w f h
theorem Dev.blockWriteDo_plane {d : Dev} {w : Req} {k : Nat} {f : Dev → Dev} (hw : w.isFw = false) (h : (f d).plane = d.plane) :
    (d.blockWriteDo w k f).plane = d.plane := by
  unfold Dev.blockWriteDo
  split
  · rfl
  · exact Dev.writeDo_plane hw h

end Sys2Proof
end

