-- ==== Sys2Proof/Laws/Fuses.lean ====
section
/-! SUPPORT. Every function of the machine that burns no fuse says so. -/

namespace Sys2Proof

@[simp] theorem Fuses.fold (d : Dev) : Fuses.mk d.sec.lcf d.sec.udsGone d.sec.floor d.sec.revoked d.sec.tokenCtr = d.fuses := by unfold Dev.fuses; rfl
@[simp] theorem Dev.fuses_mk (now free alive regs pqRegs host erl tel tmu cat pq lck ptn core mem flow store dict fw sec pwr out) :
    (Dev.mk now free alive regs pqRegs host erl tel tmu cat pq lck ptn core mem flow store dict fw sec pwr out).fuses =
      ⟨sec.lcf, sec.udsGone, sec.floor, sec.revoked, sec.tokenCtr⟩ := by unfold Dev.fuses; rfl
@[simp] theorem Dev.fuses_ite (c : Prop) [Decidable c] (a b : Dev) : (if c then a else b).fuses = if c then a.fuses else b.fuses := by split <;> rfl
@[simp] theorem Dev.fuses_ite1 {α : Type} (c : Prop) [Decidable c] (a b : Dev × α) : (if c then a else b).1.fuses = if c then a.1.fuses else b.1.fuses := by split <;> rfl
@[simp] theorem Dev.fuses_ite2 {α : Type} (c : Prop) [Decidable c] (a b : α × Dev) : (if c then a else b).2.fuses = if c then a.2.fuses else b.2.fuses := by split <;> rfl
@[simp] theorem Dev.fuses_foldl {α : Type} (f : Dev → α → Dev) (l : List α) (d : Dev) (h : ∀ e x, (f e x).fuses = e.fuses) : (l.foldl f d).fuses = d.fuses := by
  induction l generalizing d with
  | nil => rfl
  | cons a l ih => simp [ih, h]
theorem Dev.fuses_of_control {d e : Dev} (h : e.control = d.control) : e.fuses = d.fuses := by
  unfold Dev.control at h
  unfold Dev.fuses
  simp only [Control.mk.injEq] at h
  rw [h.1]

/-! #### Ops -/

@[simp] theorem Dev.wr_fuses (d x1 x2) : (Dev.wr d x1 x2).fuses = d.fuses := Dev.fuses_of_control (Dev.wr_control _ _ _)
@[simp] theorem Dev.wrN_fuses (d x1 x2) : (Dev.wrN d x1 x2).fuses = d.fuses := Dev.fuses_of_control (Dev.wrN_control _ _ _)
@[simp] theorem Dev.count_fuses (d x1 x2) : (Dev.count d x1 x2).fuses = d.fuses := Dev.fuses_of_control (Dev.count_control _ _ _)
@[simp] theorem Dev.wr64_fuses (d x1 x2) : (Dev.wr64 d x1 x2).fuses = d.fuses := Dev.fuses_of_control (Dev.wr64_control _ _ _)
@[simp] theorem Dev.count64_fuses (d x1 x2) : (Dev.count64 d x1 x2).fuses = d.fuses := Dev.fuses_of_control (Dev.count64_control _ _ _)
@[simp] theorem Dev.regsReset_fuses (d x1 x2) : (Dev.regsReset d x1 x2).fuses = d.fuses := Dev.fuses_of_control (Dev.regsReset_control _ _ _)
@[simp] theorem Dev.emit_fuses (d x1) : (Dev.emit d x1).fuses = d.fuses := Dev.fuses_of_control (Dev.emit_control _ _)
@[simp] theorem Dev.drawN_fuses (d) : (Dev.drawN d).2.fuses = d.fuses := Dev.fuses_of_control (Dev.drawN_control _)
@[simp] theorem Dev.drawB_fuses (d) : (Dev.drawB d).2.fuses = d.fuses := Dev.fuses_of_control (Dev.drawB_control _)
@[simp] theorem Dev.msixRaise_fuses (d x1 x2) : (Dev.msixRaise d x1 x2).fuses = d.fuses := Dev.fuses_of_control (Dev.msixRaise_control _ _ _)
@[simp] theorem Dev.teleMake_fuses (d x1 x2 x3 x4 x5 x6) : (Dev.teleMake d x1 x2 x3 x4 x5 x6).fuses = d.fuses := Dev.fuses_of_control (Dev.teleMake_control _ _ _ _ _ _ _)
@[simp] theorem Dev.event_fuses (d x1 x2) : (Dev.event d x1 x2).fuses = d.fuses := Dev.fuses_of_control (Dev.event_control _ _ _)
@[simp] theorem Dev.events_fuses (d x1 x2) : (Dev.events d x1 x2).fuses = d.fuses := Dev.fuses_of_control (Dev.events_control _ _ _)
@[simp] theorem Dev.enableWrite_fuses (d x1 x2) : (Dev.enableWrite d x1 x2).fuses = d.fuses := Dev.fuses_of_control (Dev.enableWrite_control _ _ _)
@[simp] theorem Dev.alarmSet_fuses (d x1 x2 x3 x4 x5) : (Dev.alarmSet d x1 x2 x3 x4 x5).fuses = d.fuses := Dev.fuses_of_control (Dev.alarmSet_control _ _ _ _ _ _)
@[simp] theorem Dev.erlLost_fuses (d x1) : (Dev.erlLost d x1).fuses = d.fuses := Dev.fuses_of_control (Dev.erlLost_control _ _)
@[simp] theorem Dev.reportE_fuses (d x1) : (Dev.reportE d x1).fuses = d.fuses := Dev.fuses_of_control (Dev.reportE_control _ _)
@[simp] theorem Dev.report_fuses (d x1 x2 x3 x4 x5) : (Dev.report d x1 x2 x3 x4 x5).fuses = d.fuses := Dev.fuses_of_control (Dev.report_control _ _ _ _ _ _)
@[simp] theorem Dev.catPut_fuses (d x1) : (Dev.catPut d x1).fuses = d.fuses := Dev.fuses_of_control (Dev.catPut_control _ _)
@[simp] theorem Dev.notice_fuses (d x1 x2 x3) : (Dev.notice d x1 x2 x3).fuses = d.fuses := Dev.fuses_of_control (Dev.notice_control _ _ _ _)
@[simp] theorem Dev.pqSet_fuses (d x1 x2) : (Dev.pqSet d x1 x2).fuses = d.fuses := Dev.fuses_of_control (Dev.pqSet_control _ _ _)
@[simp] theorem Dev.pqPush_fuses (d x1 x2 x3) : (Dev.pqPush d x1 x2 x3).1.fuses = d.fuses := Dev.fuses_of_control (Dev.pqPush_control _ _ _ _)
@[simp] theorem Dev.pqEmpty_fuses (d x1) : (Dev.pqEmpty d x1).fuses = d.fuses := Dev.fuses_of_control (Dev.pqEmpty_control _ _)
@[simp] theorem Dev.lckSet_fuses (d x1 x2) : (Dev.lckSet d x1 x2).fuses = d.fuses := Dev.fuses_of_control (Dev.lckSet_control _ _ _)
@[simp] theorem Dev.lckAcquire_fuses (d x1 x2 x3) : (Dev.lckAcquire d x1 x2 x3).1.fuses = d.fuses := Dev.fuses_of_control (Dev.lckAcquire_control _ _ _ _)
@[simp] theorem Dev.lckRelease_fuses (d x1 x2) : (Dev.lckRelease d x1 x2).fuses = d.fuses := Dev.fuses_of_control (Dev.lckRelease_control _ _ _)
@[simp] theorem Dev.lckForce_fuses (d x1 x2) : (Dev.lckForce d x1 x2).fuses = d.fuses := Dev.fuses_of_control (Dev.lckForce_control _ _ _)
@[simp] theorem Dev.lckForceList_fuses (d x1 x2) : (Dev.lckForceList d x1 x2).fuses = d.fuses := Dev.fuses_of_control (Dev.lckForceList_control _ _ _)
@[simp] theorem Dev.lckForceOwner_fuses (d x1 x2) : (Dev.lckForceOwner d x1 x2).fuses = d.fuses := Dev.fuses_of_control (Dev.lckForceOwner_control _ _ _)
@[simp] theorem Dev.ptnSet_fuses (d x1 x2) : (Dev.ptnSet d x1 x2).fuses = d.fuses := Dev.fuses_of_control (Dev.ptnSet_control _ _ _)
@[simp] theorem Dev.accErr_fuses (d x1 x2 x3 x4 x5) : (Dev.accErr d x1 x2 x3 x4 x5).fuses = d.fuses := Dev.fuses_of_control (Dev.accErr_control _ _ _ _ _ _)
@[simp] theorem Dev.accLog_fuses (d x1 x2 x3) : (Dev.accLog d x1 x2 x3).fuses = d.fuses := Dev.fuses_of_control (Dev.accLog_control _ _ _ _)

/-! #### DieB -/

@[simp] theorem Dev.ringEvent_fuses (d x1 x2) : (Dev.ringEvent d x1 x2).fuses = d.fuses := Dev.fuses_of_control (Dev.ringEvent_control _ _ _)
@[simp] theorem Dev.ringWrite_fuses (d x1) : (Dev.ringWrite d x1).fuses = d.fuses := Dev.fuses_of_control (Dev.ringWrite_control _ _)
@[simp] theorem Dev.catUnhold_fuses (d x1) : (Dev.catUnhold d x1).fuses = d.fuses := Dev.fuses_of_control (Dev.catUnhold_control _ _)
@[simp] theorem Dev.catTake_fuses (d) : (Dev.catTake d).1.fuses = d.fuses := Dev.fuses_of_control (Dev.catTake_control _)
@[simp] theorem Dev.catRtail_fuses (d x1 x2 x3) : (Dev.catRtail d x1 x2 x3).fuses = d.fuses := Dev.fuses_of_control (Dev.catRtail_control _ _ _ _)
@[simp] theorem Dev.ringClear_fuses (d x1) : (Dev.ringClear d x1).fuses = d.fuses := Dev.fuses_of_control (Dev.ringClear_control _ _)
@[simp] theorem Dev.pqCfg_fuses (d x1 x2 x3 x4 x5) : (Dev.pqCfg d x1 x2 x3 x4 x5).fuses = d.fuses := Dev.fuses_of_control (Dev.pqCfg_control _ _ _ _ _ _)
@[simp] theorem Dev.pqLatch_fuses (d x1 x2 x3) : (Dev.pqLatch d x1 x2 x3).fuses = d.fuses := by
  simp [Dev.pqLatch]
@[simp] theorem Dev.pqDenied_fuses (d x1 x2 x3 x4) : (Dev.pqDenied d x1 x2 x3 x4).fuses = d.fuses := Dev.fuses_of_control (Dev.pqDenied_control _ _ _ _ _)
@[simp] theorem Dev.pqPushCtl_fuses (d x1 x2 x3) : (Dev.pqPushCtl d x1 x2 x3).fuses = d.fuses := Dev.fuses_of_control (Dev.pqPushCtl_control _ _ _ _)
@[simp] theorem Dev.pqPopWord_fuses (d x1 x2) : (Dev.pqPopWord d x1 x2).1.fuses = d.fuses := by
  unfold Dev.pqPopWord
  dsimp only
  (repeat' split) <;> simp
@[simp] theorem Dev.pqPopCtl_fuses (d x1 x2) : (Dev.pqPopCtl d x1 x2).fuses = d.fuses := by
  unfold Dev.pqPopCtl
  dsimp only
  (repeat' split) <;> simp
@[simp] theorem Dev.lckAcqWord_fuses (d x1 x2) : (Dev.lckAcqWord d x1 x2).1.fuses = d.fuses := Dev.fuses_of_control (Dev.lckAcqWord_control _ _ _)
@[simp] theorem Dev.lckAcqRead_fuses (d x1 x2) : (Dev.lckAcqRead d x1 x2).fuses = d.fuses := Dev.fuses_of_control (Dev.lckAcqRead_control _ _ _)
@[simp] theorem Dev.lckAcqWrite_fuses (d x1 x2) : (Dev.lckAcqWrite d x1 x2).fuses = d.fuses := Dev.fuses_of_control (Dev.lckAcqWrite_control _ _ _)
@[simp] theorem Dev.lckForceWrite_fuses (d x1 x2) : (Dev.lckForceWrite d x1 x2).fuses = d.fuses := Dev.fuses_of_control (Dev.lckForceWrite_control _ _ _)

/-! #### Tensor -/

@[simp] theorem Dev.csWrite_fuses (d x1 x2 x3) : (Dev.csWrite d x1 x2 x3).fuses = d.fuses := Dev.fuses_of_control (Dev.csWrite_control _ _ _ _)
@[simp] theorem Dev.csZero_fuses (d x1) : (Dev.csZero d x1).fuses = d.fuses := Dev.fuses_of_control (Dev.csZero_control _ _)
@[simp] theorem Dev.shWrite_fuses (d x1 x2 x3) : (Dev.shWrite d x1 x2 x3).fuses = d.fuses := Dev.fuses_of_control (Dev.shWrite_control _ _ _ _)
@[simp] theorem Dev.shFromCore_fuses (d x1 x2 x3 x4 x5) : (Dev.shFromCore d x1 x2 x3 x4 x5).fuses = d.fuses := Dev.fuses_of_control (Dev.shFromCore_control _ _ _ _ _ _)
@[simp] theorem Dev.coreFromSh_fuses (d x1 x2 x3 x4 x5) : (Dev.coreFromSh d x1 x2 x3 x4 x5).fuses = d.fuses := Dev.fuses_of_control (Dev.coreFromSh_control _ _ _ _ _ _)
@[simp] theorem Dev.reportFree_fuses (d x1 x2 x3) : (Dev.reportFree d x1 x2 x3).fuses = d.fuses := Dev.fuses_of_control (Dev.reportFree_control _ _ _ _)
@[simp] theorem Dev.hbmEcc_fuses (d x1 x2 x3) : (Dev.hbmEcc d x1 x2 x3).fuses = d.fuses := Dev.fuses_of_control (Dev.hbmEcc_control _ _ _ _)
@[simp] theorem Dev.msEcc_fuses (d x1 x2 x3) : (Dev.msEcc d x1 x2 x3).fuses = d.fuses := Dev.fuses_of_control (Dev.msEcc_control _ _ _ _)
@[simp] theorem Dev.shEcc_fuses (d x1 x2) : (Dev.shEcc d x1 x2).fuses = d.fuses := Dev.fuses_of_control (Dev.shEcc_control _ _ _)
@[simp] theorem Dev.coreSet_fuses (d x1 x2) : (Dev.coreSet d x1 x2).fuses = d.fuses := Dev.fuses_of_control (Dev.coreSet_control _ _ _)
@[simp] theorem Dev.coreUpd_fuses (d x1 x2) : (Dev.coreUpd d x1 x2).fuses = d.fuses := Dev.fuses_of_control (Dev.coreUpd_control _ _ _)
@[simp] theorem Dev.setPc_fuses (d x1 x2) : (Dev.setPc d x1 x2).fuses = d.fuses := Dev.fuses_of_control (Dev.setPc_control _ _ _)
@[simp] theorem Dev.tally_fuses (d x1 x2) : (Dev.tally d x1 x2).fuses = d.fuses := Dev.fuses_of_control (Dev.tally_control _ _ _)
@[simp] theorem Dev.afterPost_fuses (d x1 x2 x3) : (Dev.afterPost d x1 x2 x3).fuses = d.fuses := Dev.fuses_of_control (Dev.afterPost_control _ _ _ _)
@[simp] theorem Dev.corePost_fuses (d x1 x2 x3) : (Dev.corePost d x1 x2 x3).fuses = d.fuses := Dev.fuses_of_control (Dev.corePost_control _ _ _ _)
@[simp] theorem Dev.complete_fuses (d x1 x2 x3 x4 x5) : (Dev.complete d x1 x2 x3 x4 x5).fuses = d.fuses := Dev.fuses_of_control (Dev.complete_control _ _ _ _ _ _)
@[simp] theorem Dev.afterWait_fuses (d x1 x2 x3) : (Dev.afterWait d x1 x2 x3).fuses = d.fuses := Dev.fuses_of_control (Dev.afterWait_control _ _ _ _)
@[simp] theorem Dev.releaseFree_fuses (d x1 x2) : (Dev.releaseFree d x1 x2).fuses = d.fuses := Dev.fuses_of_control (Dev.releaseFree_control _ _ _)
@[simp] theorem Dev.release_fuses (d x1) : (Dev.release d x1).fuses = d.fuses := Dev.fuses_of_control (Dev.release_control _ _)
@[simp] theorem Dev.catRecord_fuses (d x1) : (Dev.catRecord d x1).fuses = d.fuses := Dev.fuses_of_control (Dev.catRecord_control _ _)
@[simp] theorem Dev.catTakeOne_fuses (d) : (Dev.catTakeOne d).fuses = d.fuses := Dev.fuses_of_control (Dev.catTakeOne_control _)
@[simp] theorem Dev.unwait_fuses (d x1) : (Dev.unwait d x1).fuses = d.fuses := Dev.fuses_of_control (Dev.unwait_control _ _)
@[simp] theorem Dev.tenFail_fuses (d x1 x2 x3 x4) : (Dev.tenFail d x1 x2 x3 x4).fuses = d.fuses := Dev.fuses_of_control (Dev.tenFail_control _ _ _ _ _)
@[simp] theorem Dev.eccNote_fuses (d x1 x2) : (Dev.eccNote d x1 x2).fuses = d.fuses := Dev.fuses_of_control (Dev.eccNote_control _ _ _)
@[simp] theorem Dev.bankStalls_fuses (d x1) : (Dev.bankStalls d x1).fuses = d.fuses := Dev.fuses_of_control (Dev.bankStalls_control _ _)
@[simp] theorem Dev.fill_fuses (d x1 x2) : (Dev.fill d x1 x2).fuses = d.fuses := Dev.fuses_of_control (Dev.fill_control _ _ _)
@[simp] theorem Dev.putCode_fuses (d x1 x2 x3 x4 x5) : (Dev.putCode d x1 x2 x3 x4 x5).fuses = d.fuses := Dev.fuses_of_control (Dev.putCode_control _ _ _ _ _ _)
@[simp] theorem Dev.putCodes_fuses (d x1 x2 x3 x4 x5) : (Dev.putCodes d x1 x2 x3 x4 x5).fuses = d.fuses := Dev.fuses_of_control (Dev.putCodes_control _ _ _ _ _ _)
@[simp] theorem Dev.putSides_fuses (d x1 x2 x3 x4) : (Dev.putSides d x1 x2 x3 x4).fuses = d.fuses := Dev.fuses_of_control (Dev.putSides_control _ _ _ _ _)
@[simp] theorem Dev.emitArray_fuses (d x1 x2 x3 x4) : (Dev.emitArray d x1 x2 x3 x4).fuses = d.fuses := Dev.fuses_of_control (Dev.emitArray_control _ _ _ _ _)
@[simp] theorem Dev.emitArrays_fuses (d x1 x2 x3 x4) : (Dev.emitArrays d x1 x2 x3 x4).fuses = d.fuses := Dev.fuses_of_control (Dev.emitArrays_control _ _ _ _ _)

/-! #### TensorSeq -/

@[simp] theorem Dev.fetchCheck_fuses (d x1) : (Dev.fetchCheck d x1).fuses = d.fuses := Dev.fuses_of_control (Dev.fetchCheck_control _ _)
@[simp] theorem Dev.nextPc_fuses (d x1) : (Dev.nextPc d x1).fuses = d.fuses := Dev.fuses_of_control (Dev.nextPc_control _ _)
@[simp] theorem Dev.fetch_fuses (d x1 x2) : (Dev.fetch d x1 x2).fuses = d.fuses := Dev.fuses_of_control (Dev.fetch_control _ _ _)
@[simp] theorem Dev.startPass_fuses (d x1 x2) : (Dev.startPass d x1 x2).fuses = d.fuses := Dev.fuses_of_control (Dev.startPass_control _ _ _)
@[simp] theorem Dev.promote_fuses (d x1) : (Dev.promote d x1).fuses = d.fuses := Dev.fuses_of_control (Dev.promote_control _ _)
@[simp] theorem Dev.coreFault_fuses (d x1) : (Dev.coreFault d x1).fuses = d.fuses := Dev.fuses_of_control (Dev.coreFault_control _ _)
@[simp] theorem Dev.arrayFault_fuses (d x1 x2 x3) : (Dev.arrayFault d x1 x2 x3).fuses = d.fuses := Dev.fuses_of_control (Dev.arrayFault_control _ _ _ _)
@[simp] theorem Dev.arrayFaultBy_fuses (d x1 x2 x3 x4) : (Dev.arrayFaultBy d x1 x2 x3 x4).fuses = d.fuses := Dev.fuses_of_control (Dev.arrayFaultBy_control _ _ _ _ _)
@[simp] theorem Dev.passTaken_fuses (d x1 x2 x3) : (Dev.passTaken d x1 x2 x3).fuses = d.fuses := Dev.fuses_of_control (Dev.passTaken_control _ _ _ _)
@[simp] theorem Dev.operandEcc_fuses (d x1 x2 x3) : (Dev.operandEcc d x1 x2 x3).fuses = d.fuses := Dev.fuses_of_control (Dev.operandEcc_control _ _ _ _)
@[simp] theorem Dev.doPass_fuses (d x1 x2) : (Dev.doPass d x1 x2).fuses = d.fuses := Dev.fuses_of_control (Dev.doPass_control _ _ _)
@[simp] theorem Dev.tileChange_fuses (d x1 x2 x3) : (Dev.tileChange d x1 x2 x3).fuses = d.fuses := Dev.fuses_of_control (Dev.tileChange_control _ _ _ _)
@[simp] theorem Dev.bankExchange_fuses (d x1) : (Dev.bankExchange d x1).fuses = d.fuses := Dev.fuses_of_control (Dev.bankExchange_control _ _)
@[simp] theorem Dev.passCommit_fuses (d x1) : (Dev.passCommit d x1).fuses = d.fuses := Dev.fuses_of_control (Dev.passCommit_control _ _)
@[simp] theorem Dev.emitError_fuses (d x1 x2) : (Dev.emitError d x1 x2).fuses = d.fuses := Dev.fuses_of_control (Dev.emitError_control _ _ _)
@[simp] theorem Dev.doWalk_fuses (d x1 x2) : (Dev.doWalk d x1 x2).fuses = d.fuses := Dev.fuses_of_control (Dev.doWalk_control _ _ _)
@[simp] theorem Dev.doLink_fuses (d x1 x2) : (Dev.doLink d x1 x2).fuses = d.fuses := Dev.fuses_of_control (Dev.doLink_control _ _ _)
@[simp] theorem Dev.linkComplete_fuses (d x1 x2) : (Dev.linkComplete d x1 x2).fuses = d.fuses := Dev.fuses_of_control (Dev.linkComplete_control _ _ _)
@[simp] theorem Dev.mvWrite_fuses (d x1 x2 x3 x4) : (Dev.mvWrite d x1 x2 x3 x4).fuses = d.fuses := Dev.fuses_of_control (Dev.mvWrite_control _ _ _ _ _)
@[simp] theorem Dev.freeBytes_fuses (d x1) : (Dev.freeBytes d x1).2.fuses = d.fuses := Dev.fuses_of_control (Dev.freeBytes_control _ _)
@[simp] theorem Dev.moveEncode_fuses (d x1 x2 x3 x4 x5) : (Dev.moveEncode d x1 x2 x3 x4 x5).fuses = d.fuses := Dev.fuses_of_control (Dev.moveEncode_control _ _ _ _ _ _)
@[simp] theorem Dev.moveDecode_fuses (d x1 x2 x3 x4 x5) : (Dev.moveDecode d x1 x2 x3 x4 x5).fuses = d.fuses := Dev.fuses_of_control (Dev.moveDecode_control _ _ _ _ _ _)
@[simp] theorem Dev.moveSpan_fuses (d x1 x2 x3) : (Dev.moveSpan d x1 x2 x3).fuses = d.fuses := Dev.fuses_of_control (Dev.moveSpan_control _ _ _ _)
@[simp] theorem Dev.moveEcc_fuses (d x1 x2) : (Dev.moveEcc d x1 x2).1.fuses = d.fuses := Dev.fuses_of_control (Dev.moveEcc_control _ _ _)
@[simp] theorem Dev.runMove_fuses (d x1) : (Dev.runMove d x1).fuses = d.fuses := Dev.fuses_of_control (Dev.runMove_control _ _)
@[simp] theorem Dev.doMove_fuses (d x1 x2) : (Dev.doMove d x1 x2).fuses = d.fuses := Dev.fuses_of_control (Dev.doMove_control _ _ _)
@[simp] theorem Dev.moveEnd_fuses (d x1 x2 x3) : (Dev.moveEnd d x1 x2 x3).fuses = d.fuses := Dev.fuses_of_control (Dev.moveEnd_control _ _ _ _)
@[simp] theorem Dev.moveComplete_fuses (d x1) : (Dev.moveComplete d x1).fuses = d.fuses := Dev.fuses_of_control (Dev.moveComplete_control _ _)
@[simp] theorem Dev.moveStop_fuses (d x1) : (Dev.moveStop d x1).fuses = d.fuses := Dev.fuses_of_control (Dev.moveStop_control _ _)
@[simp] theorem Dev.waitqEnd_fuses (d x1 x2) : (Dev.waitqEnd d x1 x2).fuses = d.fuses := Dev.fuses_of_control (Dev.waitqEnd_control _ _ _)
@[simp] theorem Dev.doWaitq_fuses (d x1 x2) : (Dev.doWaitq d x1 x2).fuses = d.fuses := Dev.fuses_of_control (Dev.doWaitq_control _ _ _)
@[simp] theorem Dev.waiterPop_fuses (d x1) : (Dev.waiterPop d x1).fuses = d.fuses := Dev.fuses_of_control (Dev.waiterPop_control _ _)
@[simp] theorem Dev.waitqTimeout_fuses (d x1) : (Dev.waitqTimeout d x1).fuses = d.fuses := Dev.fuses_of_control (Dev.waitqTimeout_control _ _)
@[simp] theorem Dev.doSignal_fuses (d x1 x2) : (Dev.doSignal d x1 x2).fuses = d.fuses := Dev.fuses_of_control (Dev.doSignal_control _ _ _)
@[simp] theorem Dev.lockEnd_fuses (d x1 x2) : (Dev.lockEnd d x1 x2).fuses = d.fuses := Dev.fuses_of_control (Dev.lockEnd_control _ _ _)
@[simp] theorem Dev.lockRead_fuses (d x1 x2 x3) : (Dev.lockRead d x1 x2 x3).fuses = d.fuses := Dev.fuses_of_control (Dev.lockRead_control _ _ _ _)
@[simp] theorem Dev.doLock_fuses (d x1 x2) : (Dev.doLock d x1 x2).fuses = d.fuses := Dev.fuses_of_control (Dev.doLock_control _ _ _)
@[simp] theorem Dev.lockRetry_fuses (d x1) : (Dev.lockRetry d x1).fuses = d.fuses := Dev.fuses_of_control (Dev.lockRetry_control _ _)
@[simp] theorem Dev.lockTimeout_fuses (d x1) : (Dev.lockTimeout d x1).fuses = d.fuses := Dev.fuses_of_control (Dev.lockTimeout_control _ _)
@[simp] theorem Dev.doJump_fuses (d x1 x2) : (Dev.doJump d x1 x2).fuses = d.fuses := Dev.fuses_of_control (Dev.doJump_control _ _ _)
@[simp] theorem Dev.doNop_fuses (d x1 x2) : (Dev.doNop d x1 x2).fuses = d.fuses := Dev.fuses_of_control (Dev.doNop_control _ _ _)
@[simp] theorem Dev.doEnd_fuses (d x1 x2) : (Dev.doEnd d x1 x2).fuses = d.fuses := Dev.fuses_of_control (Dev.doEnd_control _ _ _)

/-! #### TensorCtl -/

@[simp] theorem Dev.tenRun_fuses (d x1) : (Dev.tenRun d x1).fuses = d.fuses := Dev.fuses_of_control (Dev.tenRun_control _ _)
@[simp] theorem Dev.writeSave_fuses (d x1 x2) : (Dev.writeSave d x1 x2).fuses = d.fuses := Dev.fuses_of_control (Dev.writeSave_control _ _ _)
@[simp] theorem Dev.tenPreempt_fuses (d x1) : (Dev.tenPreempt d x1).fuses = d.fuses := Dev.fuses_of_control (Dev.tenPreempt_control _ _)
@[simp] theorem Dev.commitAll_fuses (d x1 x2) : (Dev.commitAll d x1 x2).fuses = d.fuses := Dev.fuses_of_control (Dev.commitAll_control _ _ _)
@[simp] theorem Dev.linksFinish_fuses (d x1 x2) : (Dev.linksFinish d x1 x2).fuses = d.fuses := Dev.fuses_of_control (Dev.linksFinish_control _ _ _)
@[simp] theorem Dev.preemptSaved_fuses (d x1) : (Dev.preemptSaved d x1).fuses = d.fuses := Dev.fuses_of_control (Dev.preemptSaved_control _ _)
@[simp] theorem Dev.rebase_fuses (d x1) : (Dev.rebase d x1).fuses = d.fuses := Dev.fuses_of_control (Dev.rebase_control _ _)
@[simp] theorem Dev.tenResume_fuses (d x1) : (Dev.tenResume d x1).fuses = d.fuses := Dev.fuses_of_control (Dev.tenResume_control _ _)
@[simp] theorem Dev.tenRegsReset_fuses (d x1) : (Dev.tenRegsReset d x1).fuses = d.fuses := Dev.fuses_of_control (Dev.tenRegsReset_control _ _)
@[simp] theorem Dev.tenReset_fuses (d x1) : (Dev.tenReset d x1).fuses = d.fuses := Dev.fuses_of_control (Dev.tenReset_control _ _)
@[simp] theorem Dev.tenLock_fuses (d x1) : (Dev.tenLock d x1).fuses = d.fuses := Dev.fuses_of_control (Dev.tenLock_control _ _)
@[simp] theorem Dev.tenCtrl_fuses (d x1 x2 x3) : (Dev.tenCtrl d x1 x2 x3).fuses = d.fuses := Dev.fuses_of_control (Dev.tenCtrl_control _ _ _ _)

/-! #### PortBase -/

@[simp] theorem Dev.reportNamed_fuses (d x1 x2 x3 x4) : (Dev.reportNamed d x1 x2 x3 x4).fuses = d.fuses := Dev.fuses_of_control (Dev.reportNamed_control _ _ _ _ _)
@[simp] theorem Dev.prtCount_fuses (d x1 x2 x3) : (Dev.prtCount d x1 x2 x3).fuses = d.fuses := Dev.fuses_of_control (Dev.prtCount_control _ _ _ _)
@[simp] theorem Dev.portSet_fuses (d x1 x2) : (Dev.portSet d x1 x2).fuses = d.fuses := Dev.fuses_of_control (Dev.portSet_control _ _ _)
@[simp] theorem Dev.portUpd_fuses (d x1 x2) : (Dev.portUpd d x1 x2).fuses = d.fuses := Dev.fuses_of_control (Dev.portUpd_control _ _ _)
@[simp] theorem Dev.onLane_fuses (d x1) : (Dev.onLane d x1).fuses = d.fuses := Dev.fuses_of_control (Dev.onLane_control _ _)
@[simp] theorem Dev.pktSet_fuses (d x1 x2) : (Dev.pktSet d x1 x2).fuses = d.fuses := Dev.fuses_of_control (Dev.pktSet_control _ _ _)
@[simp] theorem Dev.pktUpd_fuses (d x1 x2) : (Dev.pktUpd d x1 x2).fuses = d.fuses := Dev.fuses_of_control (Dev.pktUpd_control _ _ _)
@[simp] theorem Dev.egSet_fuses (d x1 x2 x3) : (Dev.egSet d x1 x2 x3).fuses = d.fuses := Dev.fuses_of_control (Dev.egSet_control _ _ _ _)
@[simp] theorem Dev.dropItem_fuses (d x1) : (Dev.dropItem d x1).fuses = d.fuses := Dev.fuses_of_control (Dev.dropItem_control _ _)
@[simp] theorem Dev.dropItems_fuses (d x1) : (Dev.dropItems d x1).fuses = d.fuses := Dev.fuses_of_control (Dev.dropItems_control _ _)
@[simp] theorem Dev.flushPort_fuses (d x1) : (Dev.flushPort d x1).fuses = d.fuses := Dev.fuses_of_control (Dev.flushPort_control _ _)
@[simp] theorem Dev.flushDead_fuses (d x1) : (Dev.flushDead d x1).fuses = d.fuses := Dev.fuses_of_control (Dev.flushDead_control _ _)
@[simp] theorem Dev.qRefresh_fuses (d x1 x2) : (Dev.qRefresh d x1 x2).fuses = d.fuses := Dev.fuses_of_control (Dev.qRefresh_control _ _ _)
@[simp] theorem Dev.qRefreshAll_fuses (d x1 x2) : (Dev.qRefreshAll d x1 x2).fuses = d.fuses := Dev.fuses_of_control (Dev.qRefreshAll_control _ _ _)
@[simp] theorem Dev.promoClear_fuses (d x1 x2) : (Dev.promoClear d x1 x2).fuses = d.fuses := Dev.fuses_of_control (Dev.promoClear_control _ _ _)

/-! #### Macsec -/

@[simp] theorem Dev.saSet_fuses (d x1 x2) : (Dev.saSet d x1 x2).fuses = d.fuses := Dev.fuses_of_control (Dev.saSet_control _ _ _)
@[simp] theorem Dev.msIngress_fuses (d x1 x2) : (Dev.msIngress d x1 x2).1.fuses = d.fuses := Dev.fuses_of_control (Dev.msIngress_control _ _ _)
@[simp] theorem Dev.msEgress_fuses (d x1 x2) : (Dev.msEgress d x1 x2).1.fuses = d.fuses := Dev.fuses_of_control (Dev.msEgress_control _ _ _)

/-! #### Ports -/

@[simp] theorem Dev.pauseEmit_fuses (d x1 x2 x3) : (Dev.pauseEmit d x1 x2 x3).fuses = d.fuses := Dev.fuses_of_control (Dev.pauseEmit_control _ _ _ _)
@[simp] theorem Dev.sendPause_fuses (d x1 x2 x3) : (Dev.sendPause d x1 x2 x3).fuses = d.fuses := Dev.fuses_of_control (Dev.sendPause_control _ _ _ _)
@[simp] theorem Dev.pauseList_fuses (d x1 x2) : (Dev.pauseList d x1 x2).fuses = d.fuses := Dev.fuses_of_control (Dev.pauseList_control _ _ _)
@[simp] theorem Dev.pauseCheck1_fuses (d x1 x2) : (Dev.pauseCheck1 d x1 x2).fuses = d.fuses := Dev.fuses_of_control (Dev.pauseCheck1_control _ _ _)
@[simp] theorem Dev.pauseCheckList_fuses (d x1 x2) : (Dev.pauseCheckList d x1 x2).fuses = d.fuses := Dev.fuses_of_control (Dev.pauseCheckList_control _ _ _)
@[simp] theorem Dev.pauseCheck_fuses (d x1) : (Dev.pauseCheck d x1).fuses = d.fuses := Dev.fuses_of_control (Dev.pauseCheck_control _ _)
@[simp] theorem Dev.pauseRepeat_fuses (d x1 x2) : (Dev.pauseRepeat d x1 x2).fuses = d.fuses := Dev.fuses_of_control (Dev.pauseRepeat_control _ _ _)
@[simp] theorem Dev.stormTx_fuses (d x1 x2) : (Dev.stormTx d x1 x2).fuses = d.fuses := Dev.fuses_of_control (Dev.stormTx_control _ _ _)
@[simp] theorem Dev.timerEnd_fuses (d x1 x2) : (Dev.timerEnd d x1 x2).fuses = d.fuses := Dev.fuses_of_control (Dev.timerEnd_control _ _ _)
@[simp] theorem Dev.pauseLoad_fuses (d x1 x2 x3) : (Dev.pauseLoad d x1 x2 x3).fuses = d.fuses := Dev.fuses_of_control (Dev.pauseLoad_control _ _ _ _)
@[simp] theorem Dev.pauseFrame_fuses (d x1 x2 x3 x4) : (Dev.pauseFrame d x1 x2 x3 x4).fuses = d.fuses := Dev.fuses_of_control (Dev.pauseFrame_control _ _ _ _ _)
@[simp] theorem Dev.pfcLoads_fuses (d x1 x2 x3) : (Dev.pfcLoads d x1 x2 x3).fuses = d.fuses := Dev.fuses_of_control (Dev.pfcLoads_control _ _ _ _)
@[simp] theorem Dev.pfcFrame_fuses (d x1 x2 x3 x4 x5) : (Dev.pfcFrame d x1 x2 x3 x4 x5).fuses = d.fuses := Dev.fuses_of_control (Dev.pfcFrame_control _ _ _ _ _ _)
@[simp] theorem Dev.pauseExpire_fuses (d x1 x2) : (Dev.pauseExpire d x1 x2).fuses = d.fuses := Dev.fuses_of_control (Dev.pauseExpire_control _ _ _)
@[simp] theorem Dev.stormRx_fuses (d x1 x2) : (Dev.stormRx d x1 x2).fuses = d.fuses := Dev.fuses_of_control (Dev.stormRx_control _ _ _)
@[simp] theorem Dev.stormRxQuiet_fuses (d x1 x2) : (Dev.stormRxQuiet d x1 x2).fuses = d.fuses := Dev.fuses_of_control (Dev.stormRxQuiet_control _ _ _)
@[simp] theorem Dev.deliver_fuses (d x1 x2 x3 x4) : (Dev.deliver d x1 x2 x3 x4).fuses = d.fuses := Dev.fuses_of_control (Dev.deliver_control _ _ _ _ _)
@[simp] theorem Dev.frameReceive_fuses (d x1 x2) : (Dev.frameReceive d x1 x2).fuses = d.fuses := Dev.fuses_of_control (Dev.frameReceive_control _ _ _)
@[simp] theorem Dev.stomp_fuses (d x1 x2) : (Dev.stomp d x1 x2).fuses = d.fuses := Dev.fuses_of_control (Dev.stomp_control _ _ _)
@[simp] theorem Dev.unqueue_fuses (d x1 x2) : (Dev.unqueue d x1 x2).fuses = d.fuses := Dev.fuses_of_control (Dev.unqueue_control _ _ _)
@[simp] theorem Dev.refreshHeads_fuses (d x1 x2) : (Dev.refreshHeads d x1 x2).fuses = d.fuses := Dev.fuses_of_control (Dev.refreshHeads_control _ _ _)
@[simp] theorem Dev.frameEnd_fuses (d x1 x2) : (Dev.frameEnd d x1 x2).fuses = d.fuses := Dev.fuses_of_control (Dev.frameEnd_control _ _ _)
@[simp] theorem Dev.freePkt_fuses (d x1) : (Dev.freePkt d x1).fuses = d.fuses := Dev.fuses_of_control (Dev.freePkt_control _ _)
@[simp] theorem Dev.txAbort_fuses (d x1) : (Dev.txAbort d x1).fuses = d.fuses := Dev.fuses_of_control (Dev.txAbort_control _ _)
@[simp] theorem Dev.linkDown_fuses (d x1) : (Dev.linkDown d x1).fuses = d.fuses := Dev.fuses_of_control (Dev.linkDown_control _ _)
@[simp] theorem Dev.retrain_fuses (d x1) : (Dev.retrain d x1).fuses = d.fuses := Dev.fuses_of_control (Dev.retrain_control _ _)
@[simp] theorem Dev.retrainList_fuses (d x1) : (Dev.retrainList d x1).fuses = d.fuses := Dev.fuses_of_control (Dev.retrainList_control _ _)
@[simp] theorem Dev.linkChange_fuses (d x1 x2 x3 x4) : (Dev.linkChange d x1 x2 x3 x4).fuses = d.fuses := Dev.fuses_of_control (Dev.linkChange_control _ _ _ _ _)
@[simp] theorem Dev.failsafeAssert_fuses (d) : (Dev.failsafeAssert d).fuses = d.fuses := Dev.fuses_of_control (Dev.failsafeAssert_control _)
@[simp] theorem Dev.dieFLoss_fuses (d) : (Dev.dieFLoss d).fuses = d.fuses := Dev.fuses_of_control (Dev.dieFLoss_control _)
@[simp] theorem Dev.failsafeRelease_fuses (d x1) : (Dev.failsafeRelease d x1).fuses = d.fuses := Dev.fuses_of_control (Dev.failsafeRelease_control _ _)
@[simp] theorem Dev.pairWait_fuses (d x1) : (Dev.pairWait d x1).fuses = d.fuses := Dev.fuses_of_control (Dev.pairWait_control _ _)

/-! #### Classify -/

@[simp] theorem Dev.parCount_fuses (d x1) : (Dev.parCount d x1).fuses = d.fuses := Dev.fuses_of_control (Dev.parCount_control _ _)
@[simp] theorem Dev.clsCount_fuses (d x1) : (Dev.clsCount d x1).fuses = d.fuses := Dev.fuses_of_control (Dev.clsCount_control _ _)
@[simp] theorem Dev.clsCounts_fuses (d x1) : (Dev.clsCounts d x1).fuses = d.fuses := Dev.fuses_of_control (Dev.clsCounts_control _ _)
@[simp] theorem Dev.seqGap_fuses (d x1 x2) : (Dev.seqGap d x1 x2).fuses = d.fuses := Dev.fuses_of_control (Dev.seqGap_control _ _ _)
@[simp] theorem Dev.verUpd_fuses (d x1 x2) : (Dev.verUpd d x1 x2).fuses = d.fuses := Dev.fuses_of_control (Dev.verUpd_control _ _ _)
@[simp] theorem Dev.leaveVer_fuses (d x1) : (Dev.leaveVer d x1).fuses = d.fuses := Dev.fuses_of_control (Dev.leaveVer_control _ _)
@[simp] theorem Dev.tplUpd_fuses (d x1 x2) : (Dev.tplUpd d x1 x2).fuses = d.fuses := Dev.fuses_of_control (Dev.tplUpd_control _ _ _)
@[simp] theorem Dev.stageObj_fuses (d x1 x2 x3) : (Dev.stageObj d x1 x2 x3).fuses = d.fuses := Dev.fuses_of_control (Dev.stageObj_control _ _ _ _)
@[simp] theorem Dev.stageAll_fuses (d x1 x2 x3) : (Dev.stageAll d x1 x2 x3).fuses = d.fuses := Dev.fuses_of_control (Dev.stageAll_control _ _ _ _)
@[simp] theorem Dev.commit_fuses (d x1) : (Dev.commit d x1).1.fuses = d.fuses := Dev.fuses_of_control (Dev.commit_control _ _)
theorem Dev.commit_fuses' (d : Dev) (n : Nat) : (d.commit n).1.fuses = d.fuses := Dev.fuses_of_control (Dev.commit_control _ _)
@[simp] theorem Dev.retire_fuses (d) : (Dev.retire d).fuses = d.fuses := Dev.fuses_of_control (Dev.retire_control _)
@[simp] theorem Dev.treeEvent_fuses (d x1 x2 x3 x4 x5) : (Dev.treeEvent d x1 x2 x3 x4 x5).fuses = d.fuses := Dev.fuses_of_control (Dev.treeEvent_control _ _ _ _ _ _)
@[simp] theorem Dev.sweepRecs_fuses (d x1 x2) : (Dev.sweepRecs d x1 x2).fuses = d.fuses := Dev.fuses_of_control (Dev.sweepRecs_control _ _ _)
@[simp] theorem Dev.sweep_fuses (d) : (Dev.sweep d).fuses = d.fuses := Dev.fuses_of_control (Dev.sweep_control _)
@[simp] theorem Dev.sweepEnd_fuses (d) : (Dev.sweepEnd d).fuses = d.fuses := Dev.fuses_of_control (Dev.sweepEnd_control _)
@[simp] theorem Dev.puntToken_fuses (d x1 x2) : (Dev.puntToken d x1 x2).1.fuses = d.fuses := Dev.fuses_of_control (Dev.puntToken_control _ _ _)
@[simp] theorem Dev.puntOffer_fuses (d x1 x2 x3) : (Dev.puntOffer d x1 x2 x3).1.fuses = d.fuses := Dev.fuses_of_control (Dev.puntOffer_control _ _ _ _)
@[simp] theorem Dev.pktGone_fuses (d x1) : (Dev.pktGone d x1).fuses = d.fuses := Dev.fuses_of_control (Dev.pktGone_control _ _)
@[simp] theorem Dev.puntPkt_fuses (d x1 x2 x3 x4 x5 x6) : (Dev.puntPkt d x1 x2 x3 x4 x5 x6).fuses = d.fuses := Dev.fuses_of_control (Dev.puntPkt_control _ _ _ _ _ _ _)
@[simp] theorem Dev.nextHand_fuses (d) : (Dev.nextHand d).fuses = d.fuses := Dev.fuses_of_control (Dev.nextHand_control _)
@[simp] theorem Dev.reinject_fuses (d x1 x2 x3) : (Dev.reinject d x1 x2 x3).fuses = d.fuses := Dev.fuses_of_control (Dev.reinject_control _ _ _ _)
@[simp] theorem Dev.puntRelease_fuses (d x1 x2) : (Dev.puntRelease d x1 x2).fuses = d.fuses := Dev.fuses_of_control (Dev.puntRelease_control _ _ _)
@[simp] theorem Dev.take1_fuses (d x1 x2) : (Dev.take1 d x1 x2).fuses = d.fuses := Dev.fuses_of_control (Dev.take1_control _ _ _)
@[simp] theorem Dev.dispatchFrom_fuses (d x1 x2) : (Dev.dispatchFrom d x1 x2).fuses = d.fuses := Dev.fuses_of_control (Dev.dispatchFrom_control _ _ _)
@[simp] theorem Dev.dispatchTake_fuses (d) : (Dev.dispatchTake d).fuses = d.fuses := Dev.fuses_of_control (Dev.dispatchTake_control _)
@[simp] theorem Dev.parseResult_fuses (d x1) : (Dev.parseResult d x1).fuses = d.fuses := Dev.fuses_of_control (Dev.parseResult_control _ _)
@[simp] theorem Dev.byDefault_fuses (d x1 x2 x3) : (Dev.byDefault d x1 x2 x3).fuses = d.fuses := Dev.fuses_of_control (Dev.byDefault_control _ _ _ _)
@[simp] theorem Dev.classify_fuses (d) : (Dev.classify d).fuses = d.fuses := Dev.fuses_of_control (Dev.classify_control _)

/-! #### Flows -/

@[simp] theorem Dev.flwCount_fuses (d x1) : (Dev.flwCount d x1).fuses = d.fuses := Dev.fuses_of_control (Dev.flwCount_control _ _)
@[simp] theorem Dev.flowSet_fuses (d x1 x2) : (Dev.flowSet d x1 x2).fuses = d.fuses := Dev.fuses_of_control (Dev.flowSet_control _ _ _)
@[simp] theorem Dev.flowRecord_fuses (d x1 x2) : (Dev.flowRecord d x1 x2).fuses = d.fuses := Dev.fuses_of_control (Dev.flowRecord_control _ _ _)
@[simp] theorem Dev.flowFind_fuses (d x1 x2) : (Dev.flowFind d x1 x2).1.fuses = d.fuses := Dev.fuses_of_control (Dev.flowFind_control _ _ _)
@[simp] theorem Dev.bind_fuses (d) : (Dev.bind d).fuses = d.fuses := Dev.fuses_of_control (Dev.bind_control _)
@[simp] theorem Dev.agingScan_fuses (d) : (Dev.agingScan d).fuses = d.fuses := Dev.fuses_of_control (Dev.agingScan_control _)
@[simp] theorem Dev.entSetState_fuses (d x1 x2) : (Dev.entSetState d x1 x2).fuses = d.fuses := Dev.fuses_of_control (Dev.entSetState_control _ _ _)
@[simp] theorem Dev.makeStale_fuses (d x1 x2) : (Dev.makeStale d x1 x2).fuses = d.fuses := Dev.fuses_of_control (Dev.makeStale_control _ _ _)
@[simp] theorem Dev.makeStaleList_fuses (d x1 x2) : (Dev.makeStaleList d x1 x2).fuses = d.fuses := Dev.fuses_of_control (Dev.makeStaleList_control _ _ _)
@[simp] theorem Dev.assignRange_fuses (d x1 x2 x3) : (Dev.assignRange d x1 x2 x3).fuses = d.fuses := Dev.fuses_of_control (Dev.assignRange_control _ _ _ _)
@[simp] theorem Dev.fidx_fuses (d x1) : (Dev.fidx d x1).fuses = d.fuses := Dev.fuses_of_control (Dev.fidx_control _ _)
@[simp] theorem Dev.eidx_fuses (d x1) : (Dev.eidx d x1).fuses = d.fuses := Dev.fuses_of_control (Dev.eidx_control _ _)
@[simp] theorem Dev.polSet_fuses (d x1 x2) : (Dev.polSet d x1 x2).fuses = d.fuses := Dev.fuses_of_control (Dev.polSet_control _ _ _)
@[simp] theorem Dev.flowMark_fuses (d x1 x2) : (Dev.flowMark d x1 x2).fuses = d.fuses := Dev.fuses_of_control (Dev.flowMark_control _ _ _)
@[simp] theorem Dev.police_fuses (d) : (Dev.police d).fuses = d.fuses := Dev.fuses_of_control (Dev.police_control _)
@[simp] theorem Dev.policerWrite_fuses (d x1 x2 x3 x4 x5 x6 x7) : (Dev.policerWrite d x1 x2 x3 x4 x5 x6 x7).fuses = d.fuses := Dev.fuses_of_control (Dev.policerWrite_control _ _ _ _ _ _ _ _)
@[simp] theorem Dev.pidx_fuses (d x1 x2) : (Dev.pidx d x1 x2).fuses = d.fuses := Dev.fuses_of_control (Dev.pidx_control _ _ _)

/-! #### Score -/

@[simp] theorem Dev.treCount_fuses (d x1 x2) : (Dev.treCount d x1 x2).fuses = d.fuses := Dev.fuses_of_control (Dev.treCount_control _ _ _)
@[simp] theorem Dev.recSet_fuses (d x1 x2) : (Dev.recSet d x1 x2).fuses = d.fuses := Dev.fuses_of_control (Dev.recSet_control _ _ _)
@[simp] theorem Dev.sqSet_fuses (d x1 x2) : (Dev.sqSet d x1 x2).fuses = d.fuses := Dev.fuses_of_control (Dev.sqSet_control _ _ _)
@[simp] theorem Dev.scoreDrop_fuses (d x1) : (Dev.scoreDrop d x1).fuses = d.fuses := Dev.fuses_of_control (Dev.scoreDrop_control _ _)
@[simp] theorem Dev.dropEnd_fuses (d x1) : (Dev.dropEnd d x1).fuses = d.fuses := Dev.fuses_of_control (Dev.dropEnd_control _ _)
@[simp] theorem Dev.scoreNone_fuses (d x1 x2) : (Dev.scoreNone d x1 x2).fuses = d.fuses := Dev.fuses_of_control (Dev.scoreNone_control _ _ _)
@[simp] theorem Dev.scoreAdmit_fuses (d) : (Dev.scoreAdmit d).fuses = d.fuses := Dev.fuses_of_control (Dev.scoreAdmit_control _)
@[simp] theorem Dev.grantHead_fuses (d x1 x2 x3 x4) : (Dev.grantHead d x1 x2 x3 x4).fuses = d.fuses := Dev.fuses_of_control (Dev.grantHead_control _ _ _ _ _)
@[simp] theorem Dev.grantEns_fuses (d x1 x2 x3) : (Dev.grantEns d x1 x2 x3).1.fuses = d.fuses := Dev.fuses_of_control (Dev.grantEns_control _ _ _ _)
@[simp] theorem Dev.grantFrom_fuses (d x1 x2) : (Dev.grantFrom d x1 x2).fuses = d.fuses := Dev.fuses_of_control (Dev.grantFrom_control _ _ _)
@[simp] theorem Dev.scoreGrant_fuses (d) : (Dev.scoreGrant d).fuses = d.fuses := Dev.fuses_of_control (Dev.scoreGrant_control _)
@[simp] theorem Dev.copyUpd_fuses (d x1 x2 x3) : (Dev.copyUpd d x1 x2 x3).fuses = d.fuses := Dev.fuses_of_control (Dev.copyUpd_control _ _ _ _)
@[simp] theorem Dev.failQueued_fuses (d x1 x2 x3) : (Dev.failQueued d x1 x2 x3).fuses = d.fuses := Dev.fuses_of_control (Dev.failQueued_control _ _ _ _)
@[simp] theorem Dev.slotParity_fuses (d x1 x2 x3) : (Dev.slotParity d x1 x2 x3).fuses = d.fuses := Dev.fuses_of_control (Dev.slotParity_control _ _ _ _)
@[simp] theorem Dev.scoreDeliver_fuses (d x1) : (Dev.scoreDeliver d x1).fuses = d.fuses := Dev.fuses_of_control (Dev.scoreDeliver_control _ _)
@[simp] theorem Dev.slotReloaded_fuses (d x1) : (Dev.slotReloaded d x1).fuses = d.fuses := Dev.fuses_of_control (Dev.slotReloaded_control _ _)
@[simp] theorem Dev.fabricScrub_fuses (d x1) : (Dev.fabricScrub d x1).fuses = d.fuses := Dev.fuses_of_control (Dev.fabricScrub_control _ _)

/-! #### Egress -/

@[simp] theorem Dev.visCount_fuses (d x1) : (Dev.visCount d x1).fuses = d.fuses := Dev.fuses_of_control (Dev.visCount_control _ _)
@[simp] theorem Dev.visorVerdict_fuses (d) : (Dev.visorVerdict d).fuses = d.fuses := Dev.fuses_of_control (Dev.visorVerdict_control _)
@[simp] theorem Dev.taggedQuiet_fuses (d x1) : (Dev.taggedQuiet d x1).fuses = d.fuses := Dev.fuses_of_control (Dev.taggedQuiet_control _ _)
@[simp] theorem Dev.noteFileable_fuses (d x1) : (Dev.noteFileable d x1).fuses = d.fuses := Dev.fuses_of_control (Dev.noteFileable_control _ _)
@[simp] theorem Dev.noteFileables_fuses (d x1) : (Dev.noteFileables d x1).fuses = d.fuses := Dev.fuses_of_control (Dev.noteFileables_control _ _)
@[simp] theorem Dev.settle_fuses (d x1) : (Dev.settle d x1).fuses = d.fuses := Dev.fuses_of_control (Dev.settle_control _ _)
@[simp] theorem Dev.release1_fuses (d x1) : (Dev.release1 d x1).1.fuses = d.fuses := Dev.fuses_of_control (Dev.release1_control _ _)
@[simp] theorem Dev.releasePort_fuses (d x1 x2) : (Dev.releasePort d x1 x2).fuses = d.fuses := Dev.fuses_of_control (Dev.releasePort_control _ _ _)
@[simp] theorem Dev.reorderRelease_fuses (d x1) : (Dev.reorderRelease d x1).fuses = d.fuses := Dev.fuses_of_control (Dev.reorderRelease_control _ _)
@[simp] theorem Dev.enqueue_fuses (d x1 x2 x3) : (Dev.enqueue d x1 x2 x3).1.fuses = d.fuses := Dev.fuses_of_control (Dev.enqueue_control _ _ _ _)
@[simp] theorem Dev.mirrorCopy_fuses (d x1 x2 x3) : (Dev.mirrorCopy d x1 x2 x3).fuses = d.fuses := Dev.fuses_of_control (Dev.mirrorCopy_control _ _ _ _)
@[simp] theorem Dev.egressEnqueue_fuses (d) : (Dev.egressEnqueue d).fuses = d.fuses := Dev.fuses_of_control (Dev.egressEnqueue_control _)
@[simp] theorem Dev.drrPick_fuses (d x1 x2 x3 x4 x5) : (Dev.drrPick d x1 x2 x3 x4 x5).1.fuses = d.fuses := Dev.fuses_of_control (Dev.drrPick_control _ _ _ _ _ _)
@[simp] theorem Dev.txStamp_fuses (d x1 x2) : (Dev.txStamp d x1 x2).1.fuses = d.fuses := Dev.fuses_of_control (Dev.txStamp_control _ _ _)
@[simp] theorem Dev.txStart_fuses (d x1 x2 x3 x4) : (Dev.txStart d x1 x2 x3 x4).fuses = d.fuses := Dev.fuses_of_control (Dev.txStart_control _ _ _ _ _)
@[simp] theorem Dev.promote1_fuses (d x1 x2) : (Dev.promote1 d x1 x2).fuses = d.fuses := Dev.fuses_of_control (Dev.promote1_control _ _ _)
@[simp] theorem Dev.drrExcess_fuses (d x1) : (Dev.drrExcess d x1).fuses = d.fuses := Dev.fuses_of_control (Dev.drrExcess_control _ _)
@[simp] theorem Dev.drrGuaranteed_fuses (d x1) : (Dev.drrGuaranteed d x1).fuses = d.fuses := Dev.fuses_of_control (Dev.drrGuaranteed_control _ _)
@[simp] theorem Dev.schedule_fuses (d x1) : (Dev.schedule d x1).fuses = d.fuses := Dev.fuses_of_control (Dev.schedule_control _ _)
@[simp] theorem Dev.queueStarved_fuses (d x1 x2) : (Dev.queueStarved d x1 x2).fuses = d.fuses := Dev.fuses_of_control (Dev.queueStarved_control _ _ _)
@[simp] theorem Dev.queueWrite_fuses (d x1 x2 x3) : (Dev.queueWrite d x1 x2 x3).fuses = d.fuses := Dev.fuses_of_control (Dev.queueWrite_control _ _ _ _)
@[simp] theorem Dev.txEnd_fuses (d x1) : (Dev.txEnd d x1).fuses = d.fuses := Dev.fuses_of_control (Dev.txEnd_control _ _)
@[simp] theorem Dev.freeIdle_fuses (d) : (Dev.freeIdle d).fuses = d.fuses := Dev.fuses_of_control (Dev.freeIdle_control _)
@[simp] theorem Dev.frameEndAll_fuses (d x1 x2) : (Dev.frameEndAll d x1 x2).fuses = d.fuses := Dev.fuses_of_control (Dev.frameEndAll_control _ _ _)

/-! #### Huddle -/

@[simp] theorem Dev.hudCount_fuses (d x1 x2) : (Dev.hudCount d x1 x2).fuses = d.fuses := Dev.fuses_of_control (Dev.hudCount_control _ _ _)
@[simp] theorem Dev.grpSet_fuses (d x1 x2) : (Dev.grpSet d x1 x2).fuses = d.fuses := Dev.fuses_of_control (Dev.grpSet_control _ _ _)
@[simp] theorem Dev.hudEvent_fuses (d x1 x2 x3 x4 x5) : (Dev.hudEvent d x1 x2 x3 x4 x5).fuses = d.fuses := Dev.fuses_of_control (Dev.hudEvent_control _ _ _ _ _ _)
@[simp] theorem Dev.fillBuffer_fuses (d x1 x2) : (Dev.fillBuffer d x1 x2).fuses = d.fuses := Dev.fuses_of_control (Dev.fillBuffer_control _ _ _)
@[simp] theorem Dev.snapOpen_fuses (d x1) : (Dev.snapOpen d x1).fuses = d.fuses := Dev.fuses_of_control (Dev.snapOpen_control _ _)
@[simp] theorem Dev.fileValue_fuses (d x1 x2 x3 x4) : (Dev.fileValue d x1 x2 x3 x4).fuses = d.fuses := Dev.fuses_of_control (Dev.fileValue_control _ _ _ _ _)
@[simp] theorem Dev.fileValues_fuses (d x1 x2 x3) : (Dev.fileValues d x1 x2 x3).fuses = d.fuses := Dev.fuses_of_control (Dev.fileValues_control _ _ _ _)
@[simp] theorem Dev.hudCounts_fuses (d x1) : (Dev.hudCounts d x1).fuses = d.fuses := Dev.fuses_of_control (Dev.hudCounts_control _ _)
@[simp] theorem Dev.fileDrop_fuses (d x1 x2 x3) : (Dev.fileDrop d x1 x2 x3).fuses = d.fuses := Dev.fuses_of_control (Dev.fileDrop_control _ _ _ _)
@[simp] theorem Dev.filePkt_fuses (d x1) : (Dev.filePkt d x1).fuses = d.fuses := Dev.fuses_of_control (Dev.filePkt_control _ _)
@[simp] theorem Dev.takeFiles_fuses (d x1) : (Dev.takeFiles d x1).fuses = d.fuses := Dev.fuses_of_control (Dev.takeFiles_control _ _)
@[simp] theorem Dev.huddleTake_fuses (d) : (Dev.huddleTake d).fuses = d.fuses := Dev.fuses_of_control (Dev.huddleTake_control _)
@[simp] theorem Dev.writeFile_fuses (d x1) : (Dev.writeFile d x1).fuses = d.fuses := Dev.fuses_of_control (Dev.writeFile_control _ _)
@[simp] theorem Dev.writeFiles_fuses (d x1) : (Dev.writeFiles d x1).fuses = d.fuses := Dev.fuses_of_control (Dev.writeFiles_control _ _)
@[simp] theorem Dev.filingWrite_fuses (d) : (Dev.filingWrite d).fuses = d.fuses := Dev.fuses_of_control (Dev.filingWrite_control _)
@[simp] theorem Dev.closeSnap_fuses (d x1 x2) : (Dev.closeSnap d x1 x2).fuses = d.fuses := Dev.fuses_of_control (Dev.closeSnap_control _ _ _)
@[simp] theorem Dev.snapClose_fuses (d x1) : (Dev.snapClose d x1).fuses = d.fuses := Dev.fuses_of_control (Dev.snapClose_control _ _)
@[simp] theorem Dev.stepGroup_fuses (d x1) : (Dev.stepGroup d x1).fuses = d.fuses := Dev.fuses_of_control (Dev.stepGroup_control _ _)
@[simp] theorem Dev.stepGroups_fuses (d x1) : (Dev.stepGroups d x1).fuses = d.fuses := Dev.fuses_of_control (Dev.stepGroups_control _ _)
@[simp] theorem Dev.resultPost_fuses (d) : (Dev.resultPost d).fuses = d.fuses := Dev.fuses_of_control (Dev.resultPost_control _)
@[simp] theorem Dev.backEntity_fuses (d x1 x2 x3 x4) : (Dev.backEntity d x1 x2 x3 x4).1.fuses = d.fuses := Dev.fuses_of_control (Dev.backEntity_control _ _ _ _ _)
@[simp] theorem Dev.backEntities_fuses (d x1 x2 x3 x4 x5) : (Dev.backEntities d x1 x2 x3 x4 x5).1.fuses = d.fuses := Dev.fuses_of_control (Dev.backEntities_control _ _ _ _ _ _)
@[simp] theorem Dev.report1_fuses (d x1 x2 x3 x4 x5 x6 x7) : (Dev.report1 d x1 x2 x3 x4 x5 x6 x7).fuses = d.fuses := Dev.fuses_of_control (Dev.report1_control _ _ _ _ _ _ _ _)
@[simp] theorem Dev.reports_fuses (d x1 x2 x3 x4 x5 x6) : (Dev.reports d x1 x2 x3 x4 x5 x6).fuses = d.fuses := Dev.fuses_of_control (Dev.reports_control _ _ _ _ _ _ _)
@[simp] theorem Dev.reportAll_fuses (d x1 x2 x3 x4 x5) : (Dev.reportAll d x1 x2 x3 x4 x5).fuses = d.fuses := Dev.fuses_of_control (Dev.reportAll_control _ _ _ _ _ _)
@[simp] theorem Dev.resultWriteback_fuses (d x1 x2) : (Dev.resultWriteback d x1 x2).fuses = d.fuses := Dev.fuses_of_control (Dev.resultWriteback_control _ _ _)
@[simp] theorem Dev.resultDeadline_fuses (d x1) : (Dev.resultDeadline d x1).fuses = d.fuses := Dev.fuses_of_control (Dev.resultDeadline_control _ _)
@[simp] theorem Dev.staleGroups_fuses (d x1 x2) : (Dev.staleGroups d x1 x2).fuses = d.fuses := Dev.fuses_of_control (Dev.staleGroups_control _ _ _)
@[simp] theorem Dev.partitionStale_fuses (d x1) : (Dev.partitionStale d x1).fuses = d.fuses := Dev.fuses_of_control (Dev.partitionStale_control _ _)
@[simp] theorem Dev.releaseBuffers_fuses (d x1) : (Dev.releaseBuffers d x1).fuses = d.fuses := Dev.fuses_of_control (Dev.releaseBuffers_control _ _)

/-! #### Loader -/

@[simp] theorem Dev.stageFw_fuses (d x1 x2 x3) : (Dev.stageFw d x1 x2 x3).fuses = d.fuses := Dev.fuses_of_control (Dev.stageFw_control _ _ _ _)
@[simp] theorem Dev.versionCommit_fuses (d x1 x2 x3) : (Dev.versionCommit d x1 x2 x3).fuses = d.fuses := Dev.fuses_of_control (Dev.versionCommit_control _ _ _ _)

/-! #### Memory -/

@[simp] theorem Dev.loadKeys_fuses (d x1) : (Dev.loadKeys d x1).fuses = d.fuses := Dev.fuses_of_control (Dev.loadKeys_control _ _)
@[simp] theorem Dev.storeWrite_fuses (d x1) : (Dev.storeWrite d x1).fuses = d.fuses := Dev.fuses_of_control (Dev.storeWrite_control _ _)
@[simp] theorem Dev.msRefresh_fuses (d) : (Dev.msRefresh d).fuses = d.fuses := Dev.fuses_of_control (Dev.msRefresh_control _)
@[simp] theorem Dev.stageRefresh_fuses (d x1) : (Dev.stageRefresh d x1).fuses = d.fuses := Dev.fuses_of_control (Dev.stageRefresh_control _ _)
@[simp] theorem Dev.catalogue_fuses (d) : (Dev.catalogue d).fuses = d.fuses := Dev.fuses_of_control (Dev.catalogue_control _)
@[simp] theorem Dev.stgStart_fuses (d x1) : (Dev.stgStart d x1).fuses = d.fuses := Dev.fuses_of_control (Dev.stgStart_control _ _)
@[simp] theorem Dev.stagingPop_fuses (d x1) : (Dev.stagingPop d x1).fuses = d.fuses := Dev.fuses_of_control (Dev.stagingPop_control _ _)
@[simp] theorem Dev.waiterServe_fuses (d x1) : (Dev.waiterServe d x1).fuses = d.fuses := Dev.fuses_of_control (Dev.waiterServe_control _ _)
@[simp] theorem Dev.waitersServe_fuses (d x1 x2) : (Dev.waitersServe d x1 x2).fuses = d.fuses := Dev.fuses_of_control (Dev.waitersServe_control _ _ _)
@[simp] theorem Dev.pqPop_fuses (d x1 x2) : (Dev.pqPop d x1 x2).fuses = d.fuses := by
  simp [Dev.pqPop]
@[simp] theorem Dev.stagingReply_fuses (d x1 x2 x3) : (Dev.stagingReply d x1 x2 x3).fuses = d.fuses := Dev.fuses_of_control (Dev.stagingReply_control _ _ _ _)
@[simp] theorem Dev.zeroGr_fuses (d x1 x2 x3) : (Dev.zeroGr d x1 x2 x3).fuses = d.fuses := Dev.fuses_of_control (Dev.zeroGr_control _ _ _ _)
@[simp] theorem Dev.joinShare_fuses (d x1) : (Dev.joinShare d x1).fuses = d.fuses := Dev.fuses_of_control (Dev.joinShare_control _ _)
@[simp] theorem Dev.joinShares_fuses (d x1) : (Dev.joinShares d x1).fuses = d.fuses := Dev.fuses_of_control (Dev.joinShares_control _ _)
@[simp] theorem Dev.scrubShare_fuses (d x1) : (Dev.scrubShare d x1).fuses = d.fuses := Dev.fuses_of_control (Dev.scrubShare_control _ _)
@[simp] theorem Dev.entSet_fuses (d x1 x2) : (Dev.entSet d x1 x2).fuses = d.fuses := Dev.fuses_of_control (Dev.entSet_control _ _ _)
@[simp] theorem Dev.extentLeaves_fuses (d x1 x2 x3) : (Dev.extentLeaves d x1 x2 x3).fuses = d.fuses := Dev.fuses_of_control (Dev.extentLeaves_control _ _ _ _)
@[simp] theorem Dev.shareRegs_fuses (d x1) : (Dev.shareRegs d x1).fuses = d.fuses := Dev.fuses_of_control (Dev.shareRegs_control _ _)
@[simp] theorem Dev.mirrorRebuild_fuses (d x1) : (Dev.mirrorRebuild d x1).fuses = d.fuses := Dev.fuses_of_control (Dev.mirrorRebuild_control _ _)
@[simp] theorem Dev.coreSections_fuses (d x1 x2 x3) : (Dev.coreSections d x1 x2 x3).fuses = d.fuses := Dev.fuses_of_control (Dev.coreSections_control _ _ _ _)
@[simp] theorem Dev.restageCore_fuses (d x1 x2) : (Dev.restageCore d x1 x2).fuses = d.fuses := Dev.fuses_of_control (Dev.restageCore_control _ _ _)
@[simp] theorem Dev.restageCores_fuses (d x1 x2) : (Dev.restageCores d x1 x2).fuses = d.fuses := Dev.fuses_of_control (Dev.restageCores_control _ _ _)
@[simp] theorem Dev.loadImage_fuses (d x1 x2 x3) : (Dev.loadImage d x1 x2 x3).fuses = d.fuses := Dev.fuses_of_control (Dev.loadImage_control _ _ _ _)
@[simp] theorem Dev.shareSections_fuses (d x1 x2) : (Dev.shareSections d x1 x2).fuses = d.fuses := Dev.fuses_of_control (Dev.shareSections_control _ _ _)
@[simp] theorem Dev.restagePtn_fuses (d x1) : (Dev.restagePtn d x1).fuses = d.fuses := Dev.fuses_of_control (Dev.restagePtn_control _ _)
@[simp] theorem Dev.installUpd_fuses (d x1 x2) : (Dev.installUpd d x1 x2).fuses = d.fuses := Dev.fuses_of_control (Dev.installUpd_control _ _ _)
@[simp] theorem Dev.installEnd_fuses (d x1 x2 x3 x4) : (Dev.installEnd d x1 x2 x3 x4).fuses = d.fuses := Dev.fuses_of_control (Dev.installEnd_control _ _ _ _ _)
@[simp] theorem Dev.bundleInstallRun_fuses (d x1) : (Dev.bundleInstallRun d x1).fuses = d.fuses := Dev.fuses_of_control (Dev.bundleInstallRun_control _ _)
@[simp] theorem Dev.endBundle_fuses (d x1 x2) : (Dev.endBundle d x1 x2).fuses = d.fuses := Dev.fuses_of_control (Dev.endBundle_control _ _ _)
@[simp] theorem Dev.endBundles_fuses (d x1 x2) : (Dev.endBundles d x1 x2).fuses = d.fuses := Dev.fuses_of_control (Dev.endBundles_control _ _ _)
@[simp] theorem Dev.measChange_fuses (d x1) : (Dev.measChange d x1).fuses = d.fuses := by
  unfold Dev.measChange
  dsimp only
  (repeat' split) <;> simp
theorem Dev.commitPlane_fuses {d d1 : Dev} {n g b} (h : d.commitPlane n g b = some d1) : d1.fuses = d.fuses := by
  unfold Dev.commitPlane at h
  split at h
  · rw [Option.map_eq_some_iff] at h
    obtain ⟨x, hx, rfl⟩ := h
    rw [Dev.commit_fuses']
    exact Dev.fuses_of_control ((Dev.stageSections_control hx).trans (Dev.endBundles_control _ _ _))
  · cases h
@[simp] theorem Dev.catalogueBundle_fuses (d x1 x2 x3 x4) : (Dev.catalogueBundle d x1 x2 x3 x4).fuses = d.fuses := Dev.fuses_of_control (Dev.catalogueBundle_control _ _ _ _ _)
@[simp] theorem Dev.commitCores_fuses (d x1 x2) : (Dev.commitCores d x1 x2).fuses = d.fuses := Dev.fuses_of_control (Dev.commitCores_control _ _ _)
@[simp] theorem Dev.commitImages_fuses (d x1 x2) : (Dev.commitImages d x1 x2).fuses = d.fuses := Dev.fuses_of_control (Dev.commitImages_control _ _ _)
@[simp] theorem Dev.bundleCommit_fuses (d) : (Dev.bundleCommit d).fuses = d.fuses := by
  have key : ∀ (c : Bool) (n g b) (d1 : Dev), (if c = true then d.commitPlane n g b else some d) = some d1 → d1.fuses = d.fuses := by
    intro c n g b d1 h
    cases c
    · simp at h; rw [h]
    · exact Dev.commitPlane_fuses h
  unfold Dev.bundleCommit
  split
  · rfl
  · split
    · rfl
    · dsimp only
      split
      · simp
      · rename_i heq
        simp only [Dev.installEnd_fuses, Dev.measChange_fuses, Dev.commitImages_fuses, Dev.commitCores_fuses, Dev.catalogue_fuses, Dev.shareSections_fuses, Dev.catalogueBundle_fuses]
        exact key _ _ _ _ _ heq
@[simp] theorem Dev.bundleFree_fuses (d x1) : (Dev.bundleFree d x1).1.fuses = d.fuses := by
  unfold Dev.bundleFree
  dsimp only
  (repeat' split) <;> simp

/-! #### ErrLog -/

@[simp] theorem Dev.erlAnnounce_fuses (d x1) : (Dev.erlAnnounce d x1).fuses = d.fuses := Dev.fuses_of_control (Dev.erlAnnounce_control _ _)
@[simp] theorem Dev.newEntry_fuses (d x1) : (Dev.newEntry d x1).fuses = d.fuses := Dev.fuses_of_control (Dev.newEntry_control _ _)
@[simp] theorem Dev.erlTake_fuses (d) : (Dev.erlTake d).fuses = d.fuses := Dev.fuses_of_control (Dev.erlTake_control _)
@[simp] theorem Dev.erlClear_fuses (d x1) : (Dev.erlClear d x1).fuses = d.fuses := Dev.fuses_of_control (Dev.erlClear_control _ _)
@[simp] theorem Dev.erlIdx_fuses (d x1) : (Dev.erlIdx d x1).fuses = d.fuses := Dev.fuses_of_control (Dev.erlIdx_control _ _)

/-! #### Partition -/

@[simp] theorem Dev.wrBytes_fuses (d x1 x2 x3) : (Dev.wrBytes d x1 x2 x3).fuses = d.fuses := Dev.fuses_of_control (Dev.wrBytes_control _ _ _ _)
@[simp] theorem Dev.ptnRegs_fuses (d) : (Dev.ptnRegs d).fuses = d.fuses := Dev.fuses_of_control (Dev.ptnRegs_control _)
@[simp] theorem Dev.granuleScrubDone_fuses (d) : (Dev.granuleScrubDone d).fuses = d.fuses := Dev.fuses_of_control (Dev.granuleScrubDone_control _)
@[simp] theorem Dev.ptnState_fuses (d x1 x2) : (Dev.ptnState d x1 x2).fuses = d.fuses := Dev.fuses_of_control (Dev.ptnState_control _ _ _)
@[simp] theorem Dev.planAll_fuses (d) : (Dev.planAll d).fuses = d.fuses := Dev.fuses_of_control (Dev.planAll_control _)
@[simp] theorem Dev.ptnFail_fuses (d x1 x2 x3) : (Dev.ptnFail d x1 x2 x3).fuses = d.fuses := Dev.fuses_of_control (Dev.ptnFail_control _ _ _ _)
@[simp] theorem Dev.ptnFailAll_fuses (d x1 x2 x3) : (Dev.ptnFailAll d x1 x2 x3).fuses = d.fuses := Dev.fuses_of_control (Dev.ptnFailAll_control _ _ _ _)
@[simp] theorem Dev.unitLost_fuses (d x1 x2 x3 x4 x5) : (Dev.unitLost d x1 x2 x3 x4 x5).fuses = d.fuses := Dev.fuses_of_control (Dev.unitLost_control _ _ _ _ _ _)
@[simp] theorem Dev.coresLost_fuses (d x1) : (Dev.coresLost d x1).fuses = d.fuses := Dev.fuses_of_control (Dev.coresLost_control _ _)
@[simp] theorem Dev.coreStop_fuses (d x1) : (Dev.coreStop d x1).fuses = d.fuses := Dev.fuses_of_control (Dev.coreStop_control _ _)
@[simp] theorem Dev.holdLost_fuses (d x1) : (Dev.holdLost d x1).fuses = d.fuses := Dev.fuses_of_control (Dev.holdLost_control _ _)
@[simp] theorem Dev.coresGone_fuses (d x1) : (Dev.coresGone d x1).fuses = d.fuses := Dev.fuses_of_control (Dev.coresGone_control _ _)
@[simp] theorem Dev.dieFail_fuses (d x1 x2 x3 x4) : (Dev.dieFail d x1 x2 x3 x4).fuses = d.fuses := Dev.fuses_of_control (Dev.dieFail_control _ _ _ _ _)
@[simp] theorem Dev.stackStat_fuses (d x1 x2) : (Dev.stackStat d x1 x2).fuses = d.fuses := Dev.fuses_of_control (Dev.stackStat_control _ _ _)
@[simp] theorem Dev.hbmFail_fuses (d x1 x2) : (Dev.hbmFail d x1 x2).fuses = d.fuses := Dev.fuses_of_control (Dev.hbmFail_control _ _ _)
@[simp] theorem Dev.hbmBurst_fuses (d x1 x2) : (Dev.hbmBurst d x1 x2).fuses = d.fuses := Dev.fuses_of_control (Dev.hbmBurst_control _ _ _)
@[simp] theorem Dev.msFail_fuses (d x1) : (Dev.msFail d x1).fuses = d.fuses := Dev.fuses_of_control (Dev.msFail_control _ _)
@[simp] theorem Dev.coreOut_fuses (d x1 x2) : (Dev.coreOut d x1 x2).fuses = d.fuses := Dev.fuses_of_control (Dev.coreOut_control _ _ _)
@[simp] theorem Dev.dieBFail_fuses (d) : (Dev.dieBFail d).fuses = d.fuses := by
  simp [Dev.dieBFail]
@[simp] theorem Dev.resetCores_fuses (d x1 x2) : (Dev.resetCores d x1 x2).fuses = d.fuses := Dev.fuses_of_control (Dev.resetCores_control _ _ _)
@[simp] theorem Dev.emptyQueues_fuses (d x1) : (Dev.emptyQueues d x1).fuses = d.fuses := Dev.fuses_of_control (Dev.emptyQueues_control _ _)
@[simp] theorem Dev.resetSlices_fuses (d x1) : (Dev.resetSlices d x1).fuses = d.fuses := Dev.fuses_of_control (Dev.resetSlices_control _ _)
@[simp] theorem Dev.ptnClear_fuses (d x1) : (Dev.ptnClear d x1).fuses = d.fuses := Dev.fuses_of_control (Dev.ptnClear_control _ _)
@[simp] theorem Dev.remapNotice_fuses (d x1 x2 x3 x4 x5 x6) : (Dev.remapNotice d x1 x2 x3 x4 x5 x6).fuses = d.fuses := Dev.fuses_of_control (Dev.remapNotice_control _ _ _ _ _ _ _)
@[simp] theorem Dev.giveCore_fuses (d x1 x2 x3) : (Dev.giveCore d x1 x2 x3).fuses = d.fuses := Dev.fuses_of_control (Dev.giveCore_control _ _ _ _)
@[simp] theorem Dev.storeOut_fuses (d x1 x2) : (Dev.storeOut d x1 x2).fuses = d.fuses := Dev.fuses_of_control (Dev.storeOut_control _ _ _)
@[simp] theorem Dev.shareCore_fuses (d x1 x2) : (Dev.shareCore d x1 x2).fuses = d.fuses := Dev.fuses_of_control (Dev.shareCore_control _ _ _)
@[simp] theorem Dev.shareIdle_fuses (d x1 x2) : (Dev.shareIdle d x1 x2).fuses = d.fuses := Dev.fuses_of_control (Dev.shareIdle_control _ _ _)
@[simp] theorem Dev.replan_fuses (d x1 x2) : (Dev.replan d x1 x2).fuses = d.fuses := Dev.fuses_of_control (Dev.replan_control _ _ _)
@[simp] theorem Dev.ptnReset_fuses (d x1) : (Dev.ptnReset d x1).fuses = d.fuses := Dev.fuses_of_control (Dev.ptnReset_control _ _)
@[simp] theorem Dev.mirrorLost_fuses (d x1 x2) : (Dev.mirrorLost d x1 x2).fuses = d.fuses := Dev.fuses_of_control (Dev.mirrorLost_control _ _ _)
@[simp] theorem Dev.moveShare_fuses (d x1 x2) : (Dev.moveShare d x1 x2).fuses = d.fuses := Dev.fuses_of_control (Dev.moveShare_control _ _ _)
@[simp] theorem Dev.stackPtns_fuses (d x1 x2) : (Dev.stackPtns d x1 x2).fuses = d.fuses := Dev.fuses_of_control (Dev.stackPtns_control _ _ _)
@[simp] theorem Dev.fenceCores_fuses (d x1) : (Dev.fenceCores d x1).fuses = d.fuses := Dev.fuses_of_control (Dev.fenceCores_control _ _)
@[simp] theorem Dev.freeLocks_fuses (d x1) : (Dev.freeLocks d x1).fuses = d.fuses := Dev.fuses_of_control (Dev.freeLocks_control _ _)
@[simp] theorem Dev.planMove_fuses (d x1 x2 x3 x4) : (Dev.planMove d x1 x2 x3 x4).1.fuses = d.fuses := Dev.fuses_of_control (Dev.planMove_control _ _ _ _ _)
@[simp] theorem Dev.planMoves_fuses (d x1 x2) : (Dev.planMoves d x1 x2).1.fuses = d.fuses := Dev.fuses_of_control (Dev.planMoves_control _ _ _)
@[simp] theorem Dev.startStates_fuses (d x1) : (Dev.startStates d x1).fuses = d.fuses := Dev.fuses_of_control (Dev.startStates_control _ _)
@[simp] theorem Dev.freeTargets_fuses (d x1) : (Dev.freeTargets d x1).fuses = d.fuses := Dev.fuses_of_control (Dev.freeTargets_control _ _)
@[simp] theorem Dev.remapHolds_fuses (d) : (Dev.remapHolds d).fuses = d.fuses := Dev.fuses_of_control (Dev.remapHolds_control _)
@[simp] theorem Dev.remapStart_fuses (d) : (Dev.remapStart d).fuses = d.fuses := Dev.fuses_of_control (Dev.remapStart_control _)
@[simp] theorem Dev.storeIn_fuses (d x1 x2) : (Dev.storeIn d x1 x2).fuses = d.fuses := Dev.fuses_of_control (Dev.storeIn_control _ _ _)
@[simp] theorem Dev.restart1_fuses (d x1 x2 x3) : (Dev.restart1 d x1 x2 x3).fuses = d.fuses := Dev.fuses_of_control (Dev.restart1_control _ _ _ _)
@[simp] theorem Dev.restartAll_fuses (d x1 x2 x3) : (Dev.restartAll d x1 x2 x3).fuses = d.fuses := Dev.fuses_of_control (Dev.restartAll_control _ _ _ _)
@[simp] theorem Dev.moveAgain_fuses (d x1 x2) : (Dev.moveAgain d x1 x2).1.fuses = d.fuses := Dev.fuses_of_control (Dev.moveAgain_control _ _ _)
@[simp] theorem Dev.movesAgain_fuses (d x1 x2) : (Dev.movesAgain d x1 x2).1.fuses = d.fuses := Dev.fuses_of_control (Dev.movesAgain_control _ _ _)
@[simp] theorem Dev.remapRestart_fuses (d) : (Dev.remapRestart d).fuses = d.fuses := Dev.fuses_of_control (Dev.remapRestart_control _)
@[simp] theorem Dev.restageDone_fuses (d x1) : (Dev.restageDone d x1).fuses = d.fuses := Dev.fuses_of_control (Dev.restageDone_control _ _)
@[simp] theorem Dev.sliceIn_fuses (d x1 x2) : (Dev.sliceIn d x1 x2).fuses = d.fuses := Dev.fuses_of_control (Dev.sliceIn_control _ _ _)
@[simp] theorem Dev.timeShareSwitch_fuses (d x1) : (Dev.timeShareSwitch d x1).fuses = d.fuses := Dev.fuses_of_control (Dev.timeShareSwitch_control _ _)

/-! #### Telemetry -/

@[simp] theorem Dev.pathSet_fuses (d x1 x2) : (Dev.pathSet d x1 x2).fuses = d.fuses := Dev.fuses_of_control (Dev.pathSet_control _ _ _)
@[simp] theorem Dev.offer_fuses (d x1 x2) : (Dev.offer d x1 x2).fuses = d.fuses := Dev.fuses_of_control (Dev.offer_control _ _ _)
@[simp] theorem Dev.teleRecord_fuses (d) : (Dev.teleRecord d).fuses = d.fuses := Dev.fuses_of_control (Dev.teleRecord_control _)
@[simp] theorem Dev.mgmtOut_fuses (d x1) : (Dev.mgmtOut d x1).fuses = d.fuses := by
  simp [Dev.mgmtOut]
@[simp] theorem Dev.emitAll_fuses (d x1) : (Dev.emitAll d x1).fuses = d.fuses := Dev.fuses_of_control (Dev.emitAll_control _ _)
@[simp] theorem Dev.mgmtDrain_fuses (d) : (Dev.mgmtDrain d).fuses = d.fuses := by
  simp [Dev.mgmtDrain]
@[simp] theorem Dev.teleDgram_fuses (d x1) : (Dev.teleDgram d x1).fuses = d.fuses := by
  simp [Dev.teleDgram]
@[simp] theorem Dev.teleFirst_fuses (d x1 x2) : (Dev.teleFirst d x1 x2).fuses = d.fuses := by
  simp [Dev.teleFirst]
@[simp] theorem Dev.alarmSend_fuses (d) : (Dev.alarmSend d).fuses = d.fuses := by
  unfold Dev.alarmSend
  (repeat' split) <;> simp
@[simp] theorem Dev.alarmsAgain_fuses (d x1) : (Dev.alarmsAgain d x1).fuses = d.fuses := Dev.fuses_of_control (Dev.alarmsAgain_control _ _)
@[simp] theorem Dev.summary_fuses (d x1) : (Dev.summary d x1).fuses = d.fuses := by
  simp [Dev.summary]
@[simp] theorem Dev.pathUp_fuses (d x1) : (Dev.pathUp d x1).fuses = d.fuses := by
  simp [Dev.pathUp]
@[simp] theorem Dev.pathDown_fuses (d x1) : (Dev.pathDown d x1).fuses = d.fuses := Dev.fuses_of_control (Dev.pathDown_control _ _)
@[simp] theorem Dev.portRecords_fuses (d x1) : (Dev.portRecords d x1).fuses = d.fuses := Dev.fuses_of_control (Dev.portRecords_control _ _)
@[simp] theorem Dev.ptnRecords_fuses (d x1) : (Dev.ptnRecords d x1).fuses = d.fuses := Dev.fuses_of_control (Dev.ptnRecords_control _ _)
@[simp] theorem Dev.summaryPeriod_fuses (d) : (Dev.summaryPeriod d).fuses = d.fuses := by
  simp [Dev.summaryPeriod]
@[simp] theorem Dev.teleSend_fuses (d) : (Dev.teleSend d).fuses = d.fuses := by
  simp [Dev.teleSend]
@[simp] theorem Dev.recvComplete_fuses (d x1) : (Dev.recvComplete d x1).fuses = d.fuses := Dev.fuses_of_control (Dev.recvComplete_control _ _)
@[simp] theorem Dev.fwTele_fuses (d x1 x2 x3 x4 x5 x6) : (Dev.fwTele d x1 x2 x3 x4 x5 x6).fuses = d.fuses := Dev.fuses_of_control (Dev.fwTele_control _ _ _ _ _ _ _)

/-! #### TimeUnit -/

@[simp] theorem Dev.tmuCount_fuses (d x1) : (Dev.tmuCount d x1).fuses = d.fuses := Dev.fuses_of_control (Dev.tmuCount_control _ _)
@[simp] theorem Dev.tmuRegs_fuses (d) : (Dev.tmuRegs d).fuses = d.fuses := Dev.fuses_of_control (Dev.tmuRegs_control _)
@[simp] theorem Dev.tmuUpd_fuses (d x1) : (Dev.tmuUpd d x1).fuses = d.fuses := Dev.fuses_of_control (Dev.tmuUpd_control _ _)
@[simp] theorem Dev.tmuState_fuses (d x1) : (Dev.tmuState d x1).fuses = d.fuses := Dev.fuses_of_control (Dev.tmuState_control _ _)
@[simp] theorem Dev.reselect_fuses (d) : (Dev.reselect d).fuses = d.fuses := Dev.fuses_of_control (Dev.reselect_control _)
@[simp] theorem Dev.foldGrowth_fuses (d) : (Dev.foldGrowth d).fuses = d.fuses := Dev.fuses_of_control (Dev.foldGrowth_control _)
@[simp] theorem Dev.setBound_fuses (d x1) : (Dev.setBound d x1).fuses = d.fuses := Dev.fuses_of_control (Dev.setBound_control _ _)
@[simp] theorem Dev.errorBound_fuses (d) : (Dev.errorBound d).fuses = d.fuses := by
  simp [Dev.errorBound]
@[simp] theorem Dev.slewBy_fuses (d x1) : (Dev.slewBy d x1).fuses = d.fuses := Dev.fuses_of_control (Dev.slewBy_control _ _)
@[simp] theorem Dev.schedStep_fuses (d x1) : (Dev.schedStep d x1).fuses = d.fuses := Dev.fuses_of_control (Dev.schedStep_control _ _)
@[simp] theorem Dev.cancelStep_fuses (d) : (Dev.cancelStep d).fuses = d.fuses := Dev.fuses_of_control (Dev.cancelStep_control _)
@[simp] theorem Dev.boundAt_fuses (d x1 x2) : (Dev.boundAt d x1 x2).fuses = d.fuses := Dev.fuses_of_control (Dev.boundAt_control _ _ _)
@[simp] theorem Dev.noteOffset_fuses (d x1 x2 x3) : (Dev.noteOffset d x1 x2 x3).fuses = d.fuses := Dev.fuses_of_control (Dev.noteOffset_control _ _ _ _)
@[simp] theorem Dev.slewMeas_fuses (d x1) : (Dev.slewMeas d x1).fuses = d.fuses := Dev.fuses_of_control (Dev.slewMeas_control _ _)
@[simp] theorem Dev.lockMeas_fuses (d x1) : (Dev.lockMeas d x1).fuses = d.fuses := Dev.fuses_of_control (Dev.lockMeas_control _ _)
@[simp] theorem Dev.applyOffset_fuses (d x1 x2) : (Dev.applyOffset d x1 x2).fuses = d.fuses := Dev.fuses_of_control (Dev.applyOffset_control _ _ _)
@[simp] theorem Dev.utcSet_fuses (d x1) : (Dev.utcSet d x1).fuses = d.fuses := Dev.fuses_of_control (Dev.utcSet_control _ _)
@[simp] theorem Dev.ptpUtc_fuses (d) : (Dev.ptpUtc d).fuses = d.fuses := Dev.fuses_of_control (Dev.ptpUtc_control _)
@[simp] theorem Dev.goodMeas_fuses (d x1 x2 x3) : (Dev.goodMeas d x1 x2 x3).fuses = d.fuses := Dev.fuses_of_control (Dev.goodMeas_control _ _ _ _)
@[simp] theorem Dev.sourceLoss_fuses (d x1) : (Dev.sourceLoss d x1).fuses = d.fuses := Dev.fuses_of_control (Dev.sourceLoss_control _ _)
@[simp] theorem Dev.ptpMeasurement_fuses (d x1 x2 x3 x4 x5) : (Dev.ptpMeasurement d x1 x2 x3 x4 x5).fuses = d.fuses := Dev.fuses_of_control (Dev.ptpMeasurement_control _ _ _ _ _ _)
@[simp] theorem Dev.ppsIn_fuses (d x1) : (Dev.ppsIn d x1).fuses = d.fuses := Dev.fuses_of_control (Dev.ppsIn_control _ _)
@[simp] theorem Dev.irigFrame_fuses (d x1 x2) : (Dev.irigFrame d x1 x2).fuses = d.fuses := Dev.fuses_of_control (Dev.irigFrame_control _ _ _)
@[simp] theorem Dev.timeSet_fuses (d x1 x2) : (Dev.timeSet d x1 x2).1.fuses = d.fuses := Dev.fuses_of_control (Dev.timeSet_control _ _ _)
@[simp] theorem Dev.stepLand_fuses (d) : (Dev.stepLand d).fuses = d.fuses := Dev.fuses_of_control (Dev.stepLand_control _)
@[simp] theorem Dev.refLoss_fuses (d) : (Dev.refLoss d).fuses = d.fuses := Dev.fuses_of_control (Dev.refLoss_control _)
@[simp] theorem Dev.refReturn_fuses (d) : (Dev.refReturn d).fuses = d.fuses := Dev.fuses_of_control (Dev.refReturn_control _)
@[simp] theorem Dev.ppsOut_fuses (d) : (Dev.ppsOut d).fuses = d.fuses := Dev.fuses_of_control (Dev.ppsOut_control _)
@[simp] theorem Dev.ppsOutEnd_fuses (d) : (Dev.ppsOutEnd d).fuses = d.fuses := Dev.fuses_of_control (Dev.ppsOutEnd_control _)
@[simp] theorem Dev.leapSecond_fuses (d) : (Dev.leapSecond d).fuses = d.fuses := Dev.fuses_of_control (Dev.leapSecond_control _)
@[simp] theorem Dev.timeCfg_fuses (d x1 x2) : (Dev.timeCfg d x1 x2).fuses = d.fuses := Dev.fuses_of_control (Dev.timeCfg_control _ _ _)
@[simp] theorem Dev.ptpHear_fuses (d x1 x2) : (Dev.ptpHear d x1 x2).fuses = d.fuses := Dev.fuses_of_control (Dev.ptpHear_control _ _ _)
@[simp] theorem Dev.nowWord_fuses (d x1) : (Dev.nowWord d x1).1.fuses = d.fuses := Dev.fuses_of_control (Dev.nowWord_control _ _)
@[simp] theorem Dev.nowRead_fuses (d x1) : (Dev.nowRead d x1).fuses = d.fuses := Dev.fuses_of_control (Dev.nowRead_control _ _)
@[simp] theorem Dev.tick_fuses (d) : (Dev.tick d).fuses = d.fuses := by
  simp [Dev.tick]

/-! #### Host -/

@[simp] theorem Dev.mbxSet_fuses (d x1 x2) : (Dev.mbxSet d x1 x2).fuses = d.fuses := Dev.fuses_of_control (Dev.mbxSet_control _ _ _)
@[simp] theorem Dev.dmaSet_fuses (d x1 x2 x3) : (Dev.dmaSet d x1 x2 x3).fuses = d.fuses := Dev.fuses_of_control (Dev.dmaSet_control _ _ _ _)
@[simp] theorem Dev.accFail_fuses (d x1 x2 x3 x4 x5) : (Dev.accFail d x1 x2 x3 x4 x5).fuses = d.fuses := Dev.fuses_of_control (Dev.accFail_control _ _ _ _ _ _)
@[simp] theorem Dev.readWord_fuses (d x1 x2) : (Dev.readWord d x1 x2).1.fuses = d.fuses := by
  simp [Dev.readWord]
@[simp] theorem Dev.pairLowRead_fuses (d x1 x2 x3) : (Dev.pairLowRead d x1 x2 x3).fuses = d.fuses := by
  unfold Dev.pairLowRead
  (repeat' split) <;> simp
@[simp] theorem Dev.plainWrite_fuses (d x1 x2 x3 x4) : (Dev.plainWrite d x1 x2 x3 x4).fuses = d.fuses := Dev.fuses_of_control (Dev.plainWrite_control _ _ _ _ _)
@[simp] theorem Dev.stageLow_fuses (d x1 x2 x3) : (Dev.stageLow d x1 x2 x3).fuses = d.fuses := Dev.fuses_of_control (Dev.stageLow_control _ _ _ _)
@[simp] theorem Dev.pairTake_fuses (d x1 x2 x3) : (Dev.pairTake d x1 x2 x3).fuses = d.fuses := Dev.fuses_of_control (Dev.pairTake_control _ _ _ _)
@[simp] theorem Dev.pairLowWrite_fuses (d x1 x2 x3) : (Dev.pairLowWrite d x1 x2 x3).fuses = d.fuses := Dev.fuses_of_control (Dev.pairLowWrite_control _ _ _ _)
@[simp] theorem Dev.pairHighWrite_fuses (d x1 x2 x3) : (Dev.pairHighWrite d x1 x2 x3).fuses = d.fuses := Dev.fuses_of_control (Dev.pairHighWrite_control _ _ _ _)
@[simp] theorem Dev.pairWrite_fuses (d x1 x2 x3 x4) : (Dev.pairWrite d x1 x2 x3 x4).fuses = d.fuses := Dev.fuses_of_control (Dev.pairWrite_control _ _ _ _ _)
@[simp] theorem Dev.registerWrite_fuses (d x1 x2 x3 x4) : (Dev.registerWrite d x1 x2 x3 x4).fuses = d.fuses := by
  fun_cases Dev.registerWrite d x1 x2 x3 x4 <;> simp_all +zetaDelta
@[simp] theorem Dev.readTimeout_fuses (d x1 x2) : (Dev.readTimeout d x1 x2).fuses = d.fuses := Dev.fuses_of_control (Dev.readTimeout_control _ _ _)
@[simp] theorem Dev.mbxEvent_fuses (d x1 x2) : (Dev.mbxEvent d x1 x2).fuses = d.fuses := Dev.fuses_of_control (Dev.mbxEvent_control _ _ _)
@[simp] theorem Dev.mbxBad_fuses (d x1) : (Dev.mbxBad d x1).fuses = d.fuses := Dev.fuses_of_control (Dev.mbxBad_control _ _)
@[simp] theorem Dev.mbxRing_fuses (d x1) : (Dev.mbxRing d x1).fuses = d.fuses := Dev.fuses_of_control (Dev.mbxRing_control _ _)
@[simp] theorem Dev.mbxDeliver_fuses (d x1 x2) : (Dev.mbxDeliver d x1 x2).fuses = d.fuses := Dev.fuses_of_control (Dev.mbxDeliver_control _ _ _)
@[simp] theorem Dev.mbxRack_fuses (d x1) : (Dev.mbxRack d x1).fuses = d.fuses := Dev.fuses_of_control (Dev.mbxRack_control _ _)
@[simp] theorem Dev.mbxRespond_fuses (d x1 x2 x3 x4 x5) : (Dev.mbxRespond d x1 x2 x3 x4 x5).fuses = d.fuses := Dev.fuses_of_control (Dev.mbxRespond_control _ _ _ _ _ _)
@[simp] theorem Dev.mbxTake_fuses (d x1) : (Dev.mbxTake d x1).fuses = d.fuses := Dev.fuses_of_control (Dev.mbxTake_control _ _)
@[simp] theorem Dev.answer_fuses (d x1 x2 x3 x4) : (Dev.answer d x1 x2 x3 x4).fuses = d.fuses := Dev.fuses_of_control (Dev.answer_control _ _ _ _ _)
@[simp] theorem Dev.messageSegment_fuses (d x1) : (Dev.messageSegment d x1).fuses = d.fuses := Dev.fuses_of_control (Dev.messageSegment_control _ _)
@[simp] theorem Dev.hello_fuses (d x1) : (Dev.hello d x1).fuses = d.fuses := Dev.fuses_of_control (Dev.hello_control _ _)
@[simp] theorem Dev.bundleInstall_fuses (d) : (Dev.bundleInstall d).fuses = d.fuses := Dev.fuses_of_control (Dev.bundleInstall_control _)
@[simp] theorem Dev.bundleStatus_fuses (d) : (Dev.bundleStatus d).fuses = d.fuses := Dev.fuses_of_control (Dev.bundleStatus_control _)
@[simp] theorem Dev.bundleFreeMsg_fuses (d) : (Dev.bundleFreeMsg d).fuses = d.fuses := by
  unfold Dev.bundleFreeMsg
  dsimp only
  (repeat' split) <;> simp
@[simp] theorem Dev.ptnResetMsg_fuses (d x1) : (Dev.ptnResetMsg d x1).fuses = d.fuses := Dev.fuses_of_control (Dev.ptnResetMsg_control _ _)
@[simp] theorem Dev.coreSetHeld_fuses (d x1 x2 x3) : (Dev.coreSetHeld d x1 x2 x3).fuses = d.fuses := Dev.fuses_of_control (Dev.coreSetHeld_control _ _ _ _)
@[simp] theorem Dev.coreSetPc_fuses (d x1) : (Dev.coreSetPc d x1).fuses = d.fuses := Dev.fuses_of_control (Dev.coreSetPc_control _ _)
@[simp] theorem Dev.coreSetSave_fuses (d x1) : (Dev.coreSetSave d x1).fuses = d.fuses := Dev.fuses_of_control (Dev.coreSetSave_control _ _)
@[simp] theorem Dev.coreRun_fuses (d x1) : (Dev.coreRun d x1).fuses = d.fuses := Dev.fuses_of_control (Dev.coreRun_control _ _)
@[simp] theorem Dev.corePreempt_fuses (d x1) : (Dev.corePreempt d x1).fuses = d.fuses := Dev.fuses_of_control (Dev.corePreempt_control _ _)
@[simp] theorem Dev.coreResume_fuses (d x1) : (Dev.coreResume d x1).fuses = d.fuses := Dev.fuses_of_control (Dev.coreResume_control _ _)
@[simp] theorem Dev.coreReset_fuses (d x1) : (Dev.coreReset d x1).fuses = d.fuses := Dev.fuses_of_control (Dev.coreReset_control _ _)
@[simp] theorem Dev.directGrant_fuses (d) : (Dev.directGrant d).fuses = d.fuses := Dev.fuses_of_control (Dev.directGrant_control _)
@[simp] theorem Dev.dmaqCreate_fuses (d x1) : (Dev.dmaqCreate d x1).fuses = d.fuses := Dev.fuses_of_control (Dev.dmaqCreate_control _ _)
@[simp] theorem Dev.dmaqDestroy_fuses (d x1) : (Dev.dmaqDestroy d x1).fuses = d.fuses := Dev.fuses_of_control (Dev.dmaqDestroy_control _ _)
@[simp] theorem Dev.sqDoorbell_fuses (d x1 x2 x3) : (Dev.sqDoorbell d x1 x2 x3).fuses = d.fuses := Dev.fuses_of_control (Dev.sqDoorbell_control _ _ _ _)
@[simp] theorem Dev.cqHeadWrite_fuses (d x1 x2 x3) : (Dev.cqHeadWrite d x1 x2 x3).fuses = d.fuses := Dev.fuses_of_control (Dev.cqHeadWrite_control _ _ _ _)
@[simp] theorem Dev.dmaWrite_fuses (d x1 x2 x3 x4 x5 x6) : (Dev.dmaWrite d x1 x2 x3 x4 x5 x6).fuses = d.fuses := Dev.fuses_of_control (Dev.dmaWrite_control _ _ _ _ _ _ _)
@[simp] theorem Dev.dmaRecv_fuses (d x1 x2) : (Dev.dmaRecv d x1 x2).fuses = d.fuses := Dev.fuses_of_control (Dev.dmaRecv_control _ _ _)
@[simp] theorem Dev.dmaComplete_fuses (d x1 x2) : (Dev.dmaComplete d x1 x2).fuses = d.fuses := Dev.fuses_of_control (Dev.dmaComplete_control _ _ _)
@[simp] theorem Dev.msixDeliver_fuses (d x1 x2) : (Dev.msixDeliver d x1 x2).fuses = d.fuses := Dev.fuses_of_control (Dev.msixDeliver_control _ _ _)
@[simp] theorem Dev.headLoad_fuses (d) : (Dev.headLoad d).fuses = d.fuses := Dev.fuses_of_control (Dev.headLoad_control _)
@[simp] theorem Dev.fnReset_fuses (d x1) : (Dev.fnReset d x1).fuses = d.fuses := by
  simp [Dev.fnReset]
@[simp] theorem Dev.fnResets_fuses (d x1) : (Dev.fnResets d x1).fuses = d.fuses := by
  fun_induction Dev.fnResets d x1 <;> simp_all +zetaDelta
@[simp] theorem Dev.pfFlr_fuses (d) : (Dev.pfFlr d).fuses = d.fuses := by
  simp [Dev.pfFlr]
@[simp] theorem Dev.hotReset_fuses (d) : (Dev.hotReset d).fuses = d.fuses := by
  simp [Dev.hotReset]
@[simp] theorem Dev.perst_fuses (d) : (Dev.perst d).fuses = d.fuses := by
  simp [Dev.perst]
@[simp] theorem Dev.vfFlr_fuses (d x1) : (Dev.vfFlr d x1).fuses = d.fuses := by
  simp [Dev.vfFlr]
@[simp] theorem Dev.linkTrained_fuses (d x1 x2 x3) : (Dev.linkTrained d x1 x2 x3).fuses = d.fuses := by
  simp [Dev.linkTrained]
@[simp] theorem Dev.configWrite_fuses (d x1) : (Dev.configWrite d x1).fuses = d.fuses := Dev.fuses_of_control (Dev.configWrite_control _ _)
@[simp] theorem Dev.doeDiscovery_fuses (d x1) : (Dev.doeDiscovery d x1).fuses = d.fuses := Dev.fuses_of_control (Dev.doeDiscovery_control _ _)

/-! #### SecOps -/

@[simp] theorem Dev.secRegs_fuses (d) : (Dev.secRegs d).fuses = d.fuses := Dev.fuses_of_control (Dev.secRegs_control _)
@[simp] theorem Dev.measSel_fuses (d x1) : (Dev.measSel d x1).fuses = d.fuses := Dev.fuses_of_control (Dev.measSel_control _ _)
@[simp] theorem Dev.pkSel_fuses (d x1) : (Dev.pkSel d x1).fuses = d.fuses := Dev.fuses_of_control (Dev.pkSel_control _ _)
@[simp] theorem Dev.ptnResets_fuses (d x1) : (Dev.ptnResets d x1).fuses = d.fuses := Dev.fuses_of_control (Dev.ptnResets_control _ _)
@[simp] theorem Dev.shareScrubs_fuses (d x1) : (Dev.shareScrubs d x1).fuses = d.fuses := Dev.fuses_of_control (Dev.shareScrubs_control _ _)
@[simp] theorem Dev.bundlesGone_fuses (d x1) : (Dev.bundlesGone d x1).fuses = d.fuses := by
  simp [Dev.bundlesGone]
@[simp] theorem Dev.rekeyGang_fuses (d x1) : (Dev.rekeyGang d x1).fuses = d.fuses := by
  simp [Dev.rekeyGang]
@[simp] theorem Dev.rekeyAll_fuses (d x1) : (Dev.rekeyAll d x1).fuses = d.fuses := by
  fun_induction Dev.rekeyAll d x1 <;> simp_all +zetaDelta
@[simp] theorem Dev.lifeDone_fuses (d x1 x2) : (Dev.lifeDone d x1 x2).fuses = d.fuses := by
  simp [Dev.lifeDone]
@[simp] theorem Dev.keysIn_fuses (d) : (Dev.keysIn d).fuses = d.fuses := Dev.fuses_of_control (Dev.keysIn_control _)
@[simp] theorem Dev.rekey_fuses (d x1) : (Dev.rekey d x1).fuses = d.fuses := by
  simp [Dev.rekey]
@[simp] theorem Dev.portsOff_fuses (d x1) : (Dev.portsOff d x1).fuses = d.fuses := Dev.fuses_of_control (Dev.portsOff_control _ _)
@[simp] theorem Dev.mbxDrop_fuses (d) : (Dev.mbxDrop d).fuses = d.fuses := Dev.fuses_of_control (Dev.mbxDrop_control _)

/-! #### PowerLoop -/

@[simp] theorem Dev.dieFld_fuses (d x1 x2 x3 x4) : (Dev.dieFld d x1 x2 x3 x4).fuses = d.fuses := Dev.fuses_of_control (Dev.dieFld_control _ _ _ _ _)
@[simp] theorem Dev.kRequest_fuses (d x1 x2) : (Dev.kRequest d x1 x2).fuses = d.fuses := by
  simp [Dev.kRequest]
@[simp] theorem Dev.kForce_fuses (d x1 x2) : (Dev.kForce d x1 x2).fuses = d.fuses := by
  simp [Dev.kForce]
@[simp] theorem Dev.tclkStep_fuses (d x1) : (Dev.tclkStep d x1).fuses = d.fuses := by
  unfold Dev.tclkStep
  (repeat' split) <;> simp
@[simp] theorem Dev.tclkSteps_fuses (d x1) : (Dev.tclkSteps d x1).fuses = d.fuses := by
  fun_induction Dev.tclkSteps d x1 <;> simp_all
@[simp] theorem Dev.hbmLimSet_fuses (d x1) : (Dev.hbmLimSet d x1).fuses = d.fuses := Dev.fuses_of_control (Dev.hbmLimSet_control _ _)
@[simp] theorem Dev.msLimSet_fuses (d x1) : (Dev.msLimSet d x1).fuses = d.fuses := Dev.fuses_of_control (Dev.msLimSet_control _ _)
@[simp] theorem Dev.stepPart_fuses (d x1 x2) : (Dev.stepPart d x1 x2).fuses = d.fuses := by
  unfold Dev.stepPart
  (repeat' split) <;> simp
@[simp] theorem Dev.reduceWalk_fuses (d x1 x2 x3 x4 x5) : (Dev.reduceWalk d x1 x2 x3 x4 x5).1.fuses = d.fuses := by
  fun_induction Dev.reduceWalk d x1 x2 x3 x4 x5 <;> simp_all +zetaDelta
@[simp] theorem Dev.ceilWalk_fuses (d x1) : (Dev.ceilWalk d x1).1.fuses = d.fuses := by
  fun_induction Dev.ceilWalk d x1 <;> simp_all +zetaDelta
@[simp] theorem Dev.raiseOne_fuses (d x1 x2 x3) : (Dev.raiseOne d x1 x2 x3).fuses = d.fuses := by
  unfold Dev.raiseOne
  (repeat' split) <;> simp
@[simp] theorem Dev.railFail_fuses (d x1) : (Dev.railFail d x1).fuses = d.fuses := by
  simp [Dev.railFail]
@[simp] theorem Dev.railOk_fuses (d x1) : (Dev.railOk d x1).fuses = d.fuses := by
  simp [Dev.railOk]
@[simp] theorem Dev.railReads_fuses (d x1) : (Dev.railReads d x1).fuses = d.fuses := by
  fun_induction Dev.railReads d x1 <;> simp_all +zetaDelta
@[simp] theorem Dev.pwrStat_fuses (d x1 x2 x3 x4) : (Dev.pwrStat d x1 x2 x3 x4).fuses = d.fuses := Dev.fuses_of_control (Dev.pwrStat_control _ _ _ _ _)
@[simp] theorem Dev.pwrHot_fuses (d) : (Dev.pwrHot d).fuses = d.fuses := Dev.fuses_of_control (Dev.pwrHot_control _)
@[simp] theorem Dev.powerLoop_fuses (d x1 x2) : (Dev.powerLoop d x1 x2).fuses = d.fuses := by
  simp [Dev.powerLoop]
@[simp] theorem Dev.thermalLoop_fuses (d x1) : (Dev.thermalLoop d x1).fuses = d.fuses := by
  simp [Dev.thermalLoop]
@[simp] theorem Dev.holdB_fuses (d x1) : (Dev.holdB d x1).fuses = d.fuses := by
  simp [Dev.holdB]
@[simp] theorem Dev.hwThrottle_fuses (d x1 x2) : (Dev.hwThrottle d x1 x2).fuses = d.fuses := by
  simp [Dev.hwThrottle]
@[simp] theorem Dev.hwShutdown_fuses (d x1 x2) : (Dev.hwShutdown d x1 x2).fuses = d.fuses := by
  simp [Dev.hwShutdown]
@[simp] theorem Dev.loopLoss_fuses (d) : (Dev.loopLoss d).fuses = d.fuses := by
  simp [Dev.loopLoss]
@[simp] theorem Dev.kRaise_fuses (d x1) : (Dev.kRaise d x1).fuses = d.fuses := by
  simp [Dev.kRaise]
@[simp] theorem Dev.setFreq_fuses (d x1 x2) : (Dev.setFreq d x1 x2).fuses = d.fuses := by
  simp [Dev.setFreq]

/-! #### Dict -/

@[simp] theorem Dev.sessSet_fuses (d x1 x2) : (Dev.sessSet d x1 x2).fuses = d.fuses := by
  simp [Dev.sessSet]
@[simp] theorem Dev.sessUpd_fuses (d x1 x2) : (Dev.sessUpd d x1 x2).fuses = d.fuses := by
  simp [Dev.sessUpd]
@[simp] theorem Dev.tokenFail_fuses (d x1 x2 x3) : (Dev.tokenFail d x1 x2 x3).fuses = d.fuses := Dev.fuses_of_control (Dev.tokenFail_control _ _ _ _)
@[simp] theorem Dev.templateBuild_fuses (d x1 x2 x3) : (Dev.templateBuild d x1 x2 x3).fuses = d.fuses := Dev.fuses_of_control (Dev.templateBuild_control _ _ _ _)
@[simp] theorem Dev.storeImage_fuses (d x1 x2) : (Dev.storeImage d x1 x2).1.fuses = d.fuses := by
  simp [Dev.storeImage]
@[simp] theorem Dev.macsecRow_fuses (d x1 x2) : (Dev.macsecRow d x1 x2).fuses = d.fuses := Dev.fuses_of_control (Dev.macsecRow_control _ _ _)
@[simp] theorem Dev.keepValue_fuses (d x1 x2 x3 x4 x5) : (Dev.keepValue d x1 x2 x3 x4 x5).fuses = d.fuses := by
  simp [Dev.keepValue]
@[simp] theorem Dev.applyWords_fuses (d x1 x2 x3) : (Dev.applyWords d x1 x2 x3).fuses = d.fuses := Dev.fuses_of_control (Dev.applyWords_control _ _ _ _)
@[simp] theorem Dev.applyPort_fuses (d x1 x2) : (Dev.applyPort d x1 x2).fuses = d.fuses := Dev.fuses_of_control (Dev.applyPort_control _ _ _)
@[simp] theorem Dev.applyPorts_fuses (d x1) : (Dev.applyPorts d x1).fuses = d.fuses := Dev.fuses_of_control (Dev.applyPorts_control _ _)
@[simp] theorem Dev.splitChange_fuses (d x1 x2) : (Dev.splitChange d x1 x2).fuses = d.fuses := Dev.fuses_of_control (Dev.splitChange_control _ _ _)
@[simp] theorem Dev.applyKey_fuses (d x1) : (Dev.applyKey d x1).fuses = d.fuses := by
  simp [Dev.applyKey]
@[simp] theorem Dev.settingApply_fuses (d) : (Dev.settingApply d).fuses = d.fuses := by
  unfold Dev.settingApply
  dsimp only
  (repeat' split) <;> simp
@[simp] theorem Dev.applyAll_fuses (d x1) : (Dev.applyAll d x1).fuses = d.fuses := by
  fun_induction Dev.applyAll d x1 <;> simp_all +zetaDelta

/-! #### Transports -/

@[simp] theorem Dev.dictReadMsg_fuses (d x1) : (Dev.dictReadMsg d x1).fuses = d.fuses := by
  unfold Dev.dictReadMsg
  dsimp only
  (repeat' split) <;> simp
@[simp] theorem Dev.segment_fuses (d x1) : (Dev.segment d x1).fuses = d.fuses := Dev.fuses_of_control (Dev.segment_control _ _)
@[simp] theorem Dev.canPath_fuses (d) : (Dev.canPath d).fuses = d.fuses := by
  simp [Dev.canPath]
@[simp] theorem Dev.sdoSay_fuses (d x1) : (Dev.sdoSay d x1).fuses = d.fuses := Dev.fuses_of_control (Dev.sdoSay_control _ _)
@[simp] theorem Dev.sdoAbort_fuses (d x1 x2 x3) : (Dev.sdoAbort d x1 x2 x3).fuses = d.fuses := Dev.fuses_of_control (Dev.sdoAbort_control _ _ _ _)
@[simp] theorem Dev.sessEnd_fuses (d x1) : (Dev.sessEnd d x1).fuses = d.fuses := by
  simp [Dev.sessEnd]
@[simp] theorem Dev.sdoBlock_fuses (d x1 x2 x3) : (Dev.sdoBlock d x1 x2 x3).fuses = d.fuses := Dev.fuses_of_control (Dev.sdoBlock_control _ _ _ _)
@[simp] theorem Dev.sdoUp_fuses (d x1) : (Dev.sdoUp d x1).fuses = d.fuses := by
  unfold Dev.sdoUp
  dsimp only
  (repeat' split) <;> simp
@[simp] theorem Dev.udpSay_fuses (d x1 x2 x3) : (Dev.udpSay d x1 x2 x3).fuses = d.fuses := by
  simp [Dev.udpSay]
@[simp] theorem Dev.udpGet_fuses (d x1 x2) : (Dev.udpGet d x1 x2).fuses = d.fuses := by
  unfold Dev.udpGet
  dsimp only
  (repeat' split) <;> simp
@[simp] theorem Dev.sdoTimeout_fuses (d x1) : (Dev.sdoTimeout d x1).fuses = d.fuses := by
  unfold Dev.sdoTimeout
  dsimp only
  (repeat' split) <;> simp
@[simp] theorem Dev.nmtSet_fuses (d x1) : (Dev.nmtSet d x1).fuses = d.fuses := by
  simp [Dev.nmtSet]
@[simp] theorem Dev.canStart_fuses (d) : (Dev.canStart d).fuses = d.fuses := by
  simp [Dev.canStart]
@[simp] theorem Dev.nmtReset_fuses (d) : (Dev.nmtReset d).fuses = d.fuses := by
  simp [Dev.nmtReset]
@[simp] theorem Dev.heartbeat_fuses (d) : (Dev.heartbeat d).fuses = d.fuses := Dev.fuses_of_control (Dev.heartbeat_control _)
@[simp] theorem Dev.canError_fuses (d x1 x2) : (Dev.canError d x1 x2).fuses = d.fuses := by
  simp [Dev.canError]
@[simp] theorem Dev.udpTimeout_fuses (d x1) : (Dev.udpTimeout d x1).fuses = d.fuses := by
  simp [Dev.udpTimeout]
@[simp] theorem Dev.usbFail_fuses (d x1 x2 x3) : (Dev.usbFail d x1 x2 x3).fuses = d.fuses := by
  simp [Dev.usbFail]
@[simp] theorem Dev.usbGate_fuses (d : Dev) (i s : Nat) (go : Dev) (h : go.fuses = d.fuses) : (d.usbGate i s go).fuses = d.fuses := by
  unfold Dev.usbGate
  (repeat' split) <;> simp [h]
@[simp] theorem Dev.usbRead_fuses (d x1 x2 x3 x4) : (Dev.usbRead d x1 x2 x3 x4).fuses = d.fuses := by
  unfold Dev.usbRead
  dsimp only
  (repeat' split) <;> simp
@[simp] theorem Dev.usbWrite_fuses (d x1 x2 x3 x4) : (Dev.usbWrite d x1 x2 x3 x4).fuses = d.fuses := by
  unfold Dev.usbWrite
  dsimp only
  (repeat' split) <;> simp
@[simp] theorem Dev.usbResult_fuses (d) : (Dev.usbResult d).fuses = d.fuses := Dev.fuses_of_control (Dev.usbResult_control _)
@[simp] theorem Dev.usbReset_fuses (d) : (Dev.usbReset d).fuses = d.fuses := by
  simp [Dev.usbReset]
@[simp] theorem Dev.tokenExpire_fuses (d x1) : (Dev.tokenExpire d x1).fuses = d.fuses := by
  simp [Dev.tokenExpire]
@[simp] theorem Dev.pathRise_fuses (d x1) : (Dev.pathRise d x1).fuses = d.fuses := by
  unfold Dev.pathRise
  (repeat' split) <;> simp
@[simp] theorem Dev.pathFall_fuses (d x1) : (Dev.pathFall d x1).fuses = d.fuses := by
  unfold Dev.pathFall
  (repeat' split) <;> simp
@[simp] theorem Dev.mgmtFrame_fuses (d x1) : (Dev.mgmtFrame d x1).fuses = d.fuses := by
  unfold Dev.mgmtFrame
  (repeat' split) <;> simp
@[simp] theorem Dev.puntDone_fuses (d x1 x2) : (Dev.puntDone d x1 x2).fuses = d.fuses := Dev.fuses_of_control (Dev.puntDone_control _ _ _)
@[simp] theorem Dev.slowSend_fuses (d x1 x2 x3 x4) : (Dev.slowSend d x1 x2 x3 x4).fuses = d.fuses := Dev.fuses_of_control (Dev.slowSend_control _ _ _ _ _)

/-! #### Firmware -/

@[simp] theorem Dev.imageRefused_fuses (d x1) : (Dev.imageRefused d x1).fuses = d.fuses := Dev.fuses_of_control (Dev.imageRefused_control _ _)
@[simp] theorem Dev.fwLoad_fuses (d x1) : (Dev.fwLoad d x1).fuses = d.fuses := by
  unfold Dev.fwLoad
  dsimp only
  (repeat' split) <;> simp
@[simp] theorem Dev.fwUpdate_fuses (d x1) : (Dev.fwUpdate d x1).fuses = d.fuses := by
  unfold Dev.fwUpdate
  dsimp only
  (repeat' split) <;> simp
@[simp] theorem Dev.fwNotice_fuses (d x1 x2 x3) : (Dev.fwNotice d x1 x2 x3).fuses = d.fuses := Dev.fuses_of_control (Dev.fwNotice_control _ _ _ _)
@[simp] theorem Dev.setHeld_fuses (d x1) : (Dev.setHeld d x1).fuses = d.fuses := Dev.fuses_of_control (Dev.setHeld_control _ _)
@[simp] theorem Dev.quiesce_fuses (d) : (Dev.quiesce d).fuses = d.fuses := by
  simp [Dev.quiesce]
@[simp] theorem Dev.imageSwap_fuses (d x1 x2) : (Dev.imageSwap d x1 x2).fuses = d.fuses := by
  simp [Dev.imageSwap]
@[simp] theorem Dev.exportRecs_fuses (d) : (Dev.exportRecs d).fuses = d.fuses := by
  simp [Dev.exportRecs]
@[simp] theorem Dev.compFresh_fuses (d x1) : (Dev.compFresh d x1).fuses = d.fuses := by
  simp [Dev.compFresh]
@[simp] theorem Dev.importRec_fuses (d x1) : (Dev.importRec d x1).fuses = d.fuses := by
  unfold Dev.importRec
  (repeat' split) <;> simp
@[simp] theorem Dev.importRecs_fuses (d x1) : (Dev.importRecs d x1).fuses = d.fuses := by
  fun_induction Dev.importRecs d x1 <;> simp_all
@[simp] theorem Dev.updateAnswer_fuses (d x1) : (Dev.updateAnswer d x1).fuses = d.fuses := Dev.fuses_of_control (Dev.updateAnswer_control _ _)
@[simp] theorem Dev.dropTransfers_fuses (d) : (Dev.dropTransfers d).fuses = d.fuses := by
  simp [Dev.dropTransfers]
@[simp] theorem Dev.compRestart_fuses (d x1) : (Dev.compRestart d x1).fuses = d.fuses := by
  simp [Dev.compRestart]
@[simp] theorem Dev.watchdog_fuses (d x1) : (Dev.watchdog d x1).fuses = d.fuses := by
  simp [Dev.watchdog]
@[simp] theorem Dev.protFault_fuses (d x1 x2) : (Dev.protFault d x1 x2).fuses = d.fuses := by
  simp [Dev.protFault]
@[simp] theorem Dev.protWrite_fuses (d x1 x2) : (Dev.protWrite d x1 x2).fuses = d.fuses := by
  simp [Dev.protWrite]
@[simp] theorem Dev.managementReset_fuses (d) : (Dev.managementReset d).fuses = d.fuses := by
  simp [Dev.managementReset]
@[simp] theorem Dev.retainedWrite_fuses (d) : (Dev.retainedWrite d).fuses = d.fuses := by
  simp [Dev.retainedWrite]
@[simp] theorem Dev.assignAll_fuses (d x1) : (Dev.assignAll d x1).fuses = d.fuses := Dev.fuses_of_control (Dev.assignAll_control _ _)
@[simp] theorem Dev.buildMap_fuses (d x1) : (Dev.buildMap d x1).fuses = d.fuses := Dev.fuses_of_control (Dev.buildMap_control _ _)
@[simp] theorem Dev.bundleKeep_fuses (d) : (Dev.bundleKeep d).fuses = d.fuses := Dev.fuses_of_control (Dev.bundleKeep_control _)
@[simp] theorem Dev.bundleStage_fuses (d x1 x2) : (Dev.bundleStage d x1 x2).fuses = d.fuses := Dev.fuses_of_control (Dev.bundleStage_control _ _ _)
@[simp] theorem Dev.bundleRestore_fuses (d) : (Dev.bundleRestore d).fuses = d.fuses := Dev.fuses_of_control (Dev.bundleRestore_control _)
@[simp] theorem Dev.savedPart_fuses (d x1 x2) : (Dev.savedPart d x1 x2).fuses = d.fuses := Dev.fuses_of_control (Dev.savedPart_control _ _ _)
@[simp] theorem Dev.erlBack_fuses (d x1) : (Dev.erlBack d x1).fuses = d.fuses := Dev.fuses_of_control (Dev.erlBack_control _ _)
@[simp] theorem Dev.saveLogs_fuses (d x1) : (Dev.saveLogs d x1).fuses = d.fuses := Dev.fuses_of_control (Dev.saveLogs_control _ _)
@[simp] theorem Dev.saveValues_fuses (d x1) : (Dev.saveValues d x1).fuses = d.fuses := by
  simp [Dev.saveValues]
@[simp] theorem Dev.reportParts_fuses (d x1) : (Dev.reportParts d x1).fuses = d.fuses := Dev.fuses_of_control (Dev.reportParts_control _ _)
@[simp] theorem Dev.saveBad_fuses (d x1) : (Dev.saveBad d x1).fuses = d.fuses := Dev.fuses_of_control (Dev.saveBad_control _ _)
@[simp] theorem Dev.saveTake_fuses (d) : (Dev.saveTake d).fuses = d.fuses := by
  simp [Dev.saveTake]
@[simp] theorem Dev.dictLoad_fuses (d) : (Dev.dictLoad d).fuses = d.fuses := by
  unfold Dev.dictLoad
  dsimp only
  (repeat' split) <;> simp
@[simp] theorem Dev.dictRestore_fuses (d) : (Dev.dictRestore d).fuses = d.fuses := by
  simp [Dev.dictRestore]
@[simp] theorem Dev.arraysFail_fuses (d x1) : (Dev.arraysFail d x1).fuses = d.fuses := Dev.fuses_of_control (Dev.arraysFail_control _ _)
@[simp] theorem Dev.arrayTest_fuses (d x1) : (Dev.arrayTest d x1).fuses = d.fuses := Dev.fuses_of_control (Dev.arrayTest_control _ _)
@[simp] theorem Dev.quadsFail_fuses (d x1) : (Dev.quadsFail d x1).fuses = d.fuses := Dev.fuses_of_control (Dev.quadsFail_control _ _)
@[simp] theorem Dev.startSequence_fuses (d x1) : (Dev.startSequence d x1).fuses = d.fuses := by
  simp [Dev.startSequence]
@[simp] theorem Dev.partitionRestage_fuses (d) : (Dev.partitionRestage d).fuses = d.fuses := Dev.fuses_of_control (Dev.partitionRestage_control _)

/-! #### Security -/

@[simp] theorem Dev.spdmSay_fuses (d x1) : (Dev.spdmSay d x1).fuses = d.fuses := Dev.fuses_of_control (Dev.spdmSay_control _ _)
@[simp] theorem Dev.spdmErr_fuses (d x1 x2) : (Dev.spdmErr d x1 x2).fuses = d.fuses := Dev.fuses_of_control (Dev.spdmErr_control _ _ _)
@[simp] theorem Dev.spdmAnswer_fuses (d x1 x2) : (Dev.spdmAnswer d x1 x2).fuses = d.fuses := by
  simp [Dev.spdmAnswer]
@[simp] theorem Dev.draw_fuses (d x1) : (Dev.draw d x1).2.fuses = d.fuses := by
  simp [Dev.draw]
@[simp] theorem Dev.spdmGate_fuses (d : Dev) (sid : Option Nat) (req : List Byte) (len need : Nat) (go : Dev) (h : go.fuses = d.fuses) :
    (d.spdmGate sid req len need go).fuses = d.fuses := by
  unfold Dev.spdmGate
  (repeat' split) <;> simp [h]
@[simp] theorem Dev.spdmSigned_fuses (d x1 x2) : (Dev.spdmSigned d x1 x2).fuses = d.fuses := by
  unfold Dev.spdmSigned
  dsimp only
  (repeat' split) <;> simp
@[simp] theorem Dev.spdmSign_fuses (d x1 x2 x3 x4) : (Dev.spdmSign d x1 x2 x3 x4).fuses = d.fuses := by
  simp [Dev.spdmSign]
@[simp] theorem Dev.getVersion_fuses (d x1) : (Dev.getVersion d x1).fuses = d.fuses := by
  simp [Dev.getVersion]
@[simp] theorem Dev.getCapabilities_fuses (d x1) : (Dev.getCapabilities d x1).fuses = d.fuses := by
  unfold Dev.getCapabilities
  try dsimp only
  refine Dev.spdmGate_fuses _ _ _ _ _ _ ?_
  (repeat' split) <;> simp
@[simp] theorem Dev.negotiate_fuses (d x1) : (Dev.negotiate d x1).fuses = d.fuses := by
  unfold Dev.negotiate
  try dsimp only
  refine Dev.spdmGate_fuses _ _ _ _ _ _ ?_
  (repeat' split) <;> simp
@[simp] theorem Dev.getDigests_fuses (d x1 x2) : (Dev.getDigests d x1 x2).fuses = d.fuses := by
  unfold Dev.getDigests
  try dsimp only
  refine Dev.spdmGate_fuses _ _ _ _ _ _ ?_
  (repeat' split) <;> simp
@[simp] theorem Dev.getCertificate_fuses (d x1 x2) : (Dev.getCertificate d x1 x2).fuses = d.fuses := by
  unfold Dev.getCertificate
  try dsimp only
  refine Dev.spdmGate_fuses _ _ _ _ _ _ ?_
  (repeat' split) <;> simp
@[simp] theorem Dev.spdmChallenge_fuses (d x1 x2) : (Dev.spdmChallenge d x1 x2).fuses = d.fuses := by
  unfold Dev.spdmChallenge
  try dsimp only
  refine Dev.spdmGate_fuses _ _ _ _ _ _ ?_
  (repeat' split) <;> simp
@[simp] theorem Dev.getMeasurements_fuses (d x1 x2) : (Dev.getMeasurements d x1 x2).fuses = d.fuses := by
  unfold Dev.getMeasurements
  try dsimp only
  refine Dev.spdmGate_fuses _ _ _ _ _ _ ?_
  (repeat' split) <;> simp
@[simp] theorem Dev.keyExchange_fuses (d x1 x2) : (Dev.keyExchange d x1 x2).fuses = d.fuses := by
  unfold Dev.keyExchange
  try dsimp only
  refine Dev.spdmGate_fuses _ _ _ _ _ _ ?_
  (repeat' split) <;> simp
@[simp] theorem Dev.spdmFinish_fuses (d x1 x2) : (Dev.spdmFinish d x1 x2).fuses = d.fuses := by
  unfold Dev.spdmFinish
  try dsimp only
  refine Dev.spdmGate_fuses _ _ _ _ _ _ ?_
  (repeat' split) <;> simp
@[simp] theorem Dev.spdmHeartbeat_fuses (d x1 x2) : (Dev.spdmHeartbeat d x1 x2).fuses = d.fuses := Dev.fuses_of_control (Dev.spdmHeartbeat_control _ _ _)
@[simp] theorem Dev.endSession_fuses (d x1 x2) : (Dev.endSession d x1 x2).fuses = d.fuses := by
  unfold Dev.endSession
  try dsimp only
  refine Dev.spdmGate_fuses _ _ _ _ _ _ ?_
  (repeat' split) <;> simp
@[simp] theorem Dev.vendorRequest_fuses (d x1 x2) : (Dev.vendorRequest d x1 x2).fuses = d.fuses := by
  unfold Dev.vendorRequest
  try dsimp only
  refine Dev.spdmGate_fuses _ _ _ _ _ _ ?_
  (repeat' split) <;> simp
@[simp] theorem Dev.newChallenge_fuses (d) : (Dev.newChallenge d).fuses = d.fuses := by
  simp [Dev.newChallenge]
@[simp] theorem Dev.debugUnlock_fuses (d x1) : (Dev.debugUnlock d x1).fuses = d.fuses := by
  simp [Dev.debugUnlock]
@[simp] theorem Dev.tapReset_fuses (d) : (Dev.tapReset d).fuses = d.fuses := Dev.fuses_of_control (Dev.tapReset_control _)
@[simp] theorem Dev.txanRecord_fuses (d x1 x2) : (Dev.txanRecord d x1 x2).fuses = d.fuses := by
  simp [Dev.txanRecord]
@[simp] theorem Dev.pnwarn_fuses (d x1) : (Dev.pnwarn d x1).fuses = d.fuses := by
  unfold Dev.pnwarn
  dsimp only
  (repeat' split) <;> simp

/-! #### Power -/

@[simp] theorem Dev.boardBad_fuses (d) : (Dev.boardBad d).fuses = d.fuses := Dev.fuses_of_control (Dev.boardBad_control _)
@[simp] theorem Dev.cold_fuses (d) : (Dev.cold d).fuses = d.fuses := by
  simp [Dev.cold, Sec.kept]
@[simp] theorem Dev.bootRegs_fuses (d) : (Dev.bootRegs d).fuses = d.fuses := Dev.fuses_of_control (Dev.bootRegs_control _)
@[simp] theorem Dev.resetWord_fuses (d x1 x2 x3) : (Dev.resetWord d x1 x2 x3).fuses = d.fuses := Dev.fuses_of_control (Dev.resetWord_control _ _ _ _)
@[simp] theorem Dev.boot_fuses (d x1 x2) : (Dev.boot d x1 x2).fuses = d.fuses := by
  simp [Dev.boot]
@[simp] theorem Dev.porstRise_fuses (d x1) : (Dev.porstRise d x1).fuses = d.fuses := by
  simp [Dev.porstRise]
@[simp] theorem Dev.vholdRise_fuses (d x1) : (Dev.vholdRise d x1).fuses = d.fuses := by
  simp [Dev.vholdRise]
@[simp] theorem Dev.saveSkip_fuses (d) : (Dev.saveSkip d).fuses = d.fuses := by
  simp [Dev.saveSkip]
@[simp] theorem Dev.saveBegin_fuses (d x1) : (Dev.saveBegin d x1).fuses = d.fuses := by
  simp [Dev.saveBegin]
@[simp] theorem Dev.sagTrigger_fuses (d x1) : (Dev.sagTrigger d x1).fuses = d.fuses := by
  simp [Dev.sagTrigger]
@[simp] theorem Dev.warmReset_fuses (d x1) : (Dev.warmReset d x1).fuses = d.fuses := by
  simp [Dev.warmReset]
@[simp] theorem Dev.warmRequest_fuses (d x1) : (Dev.warmRequest d x1).fuses = d.fuses := by
  simp [Dev.warmRequest]
@[simp] theorem Dev.pwrWarm_fuses (d x1) : (Dev.pwrWarm d x1).fuses = d.fuses := by
  simp [Dev.pwrWarm]
@[simp] theorem Dev.jtagWarm_fuses (d) : (Dev.jtagWarm d).fuses = d.fuses := by
  simp [Dev.jtagWarm]
@[simp] theorem Dev.saveDone_fuses (d x1) : (Dev.saveDone d x1).fuses = d.fuses := by
  unfold Dev.saveDone
  dsimp only
  (repeat' split) <;> simp
@[simp] theorem Dev.sagRestart_fuses (d x1) : (Dev.sagRestart d x1).fuses = d.fuses := by
  simp [Dev.sagRestart]
@[simp] theorem Dev.pgoodFall_fuses (d x1 x2) : (Dev.pgoodFall d x1 x2).fuses = d.fuses := Dev.fuses_of_control (Dev.pgoodFall_control _ _ _)
@[simp] theorem Dev.netDefect_fuses (d x1) : (Dev.netDefect d x1).fuses = d.fuses := by
  unfold Dev.netDefect
  dsimp only
  (repeat' split) <;> simp
@[simp] theorem Dev.failsafeTry_fuses (d) : (Dev.failsafeTry d).fuses = d.fuses := Dev.fuses_of_control (Dev.failsafeTry_control _)

/-! #### Exec -/

@[simp] theorem Dev.hostDo_fuses (d : Dev) (w : Req) (f : Dev → Dev) (h : (f d).fuses = d.fuses) : (d.hostDo w f).fuses = d.fuses := by
  unfold Dev.hostDo
  (repeat' split) <;> simp [h]
@[simp] theorem Dev.fnDo_fuses (d : Dev) (w : Option Nat) (f : Dev → Dev) (h : (f d).fuses = d.fuses) : (d.fnDo w f).fuses = d.fuses := by
  unfold Dev.fnDo
  (repeat' split) <;> simp [h]
@[simp] theorem Dev.blockDo_fuses (d : Dev) (w : Req) (f : Dev → Dev) (h : (f d).fuses = d.fuses) : (d.blockDo w f).fuses = d.fuses := by
  unfold Dev.blockDo
  split
  · rfl
  · exact Dev.hostDo_fuses d w f h
@[simp] theorem Dev.fwDo_fuses (d : Dev) (f : Dev → Dev) (h : (f d).fuses = d.fuses) : (d.fwDo f).fuses = d.fuses := by
  unfold Dev.fwDo
  (repeat' split) <;> simp [h]
@[simp] theorem Dev.linkDo_fuses (d : Dev) (f : Dev → Dev) (h : (f d).fuses = d.fuses) : (d.linkDo f).fuses = d.fuses := by
  unfold Dev.linkDo
  (repeat' split) <;> simp [h]
@[simp] theorem Dev.vfDo_fuses (d : Dev) (n : Nat) (f : Dev → Dev) (h : (f d).fuses = d.fuses) : (d.vfDo n f).fuses = d.fuses := by
  unfold Dev.vfDo
  (repeat' split) <;> simp [h]
@[simp] theorem Dev.idle_fuses (d) : (Dev.idle d).fuses = d.fuses := by
  simp [Dev.idle]
theorem Dev.writeDo_fuses (d : Dev) (w : Req) (k : Nat) (b : Bool) (f : Dev → Dev) (h : (f d).fuses = d.fuses) :
    (d.writeDo w k b f).fuses = d.fuses := by
  unfold Dev.writeDo
  split
  · split
    · exact Dev.protFault_fuses _ _ _
    · exact Dev.hostDo_fuses d _ f h
  · exact Dev.hostDo_fuses d w f h
theorem Dev.blockWriteDo_fuses (d : Dev) (w : Req) (k : Nat) (f : Dev → Dev) (h : (f d).fuses = d.fuses) :
    (d.blockWriteDo w k f).fuses = d.fuses := by
  unfold Dev.blockWriteDo
  split
  · rfl
  · exact Dev.writeDo_fuses d w k true f h

end Sys2Proof
end

