-- ==== Sys2Proof/Laws/Burns.lean ====
section
/-! SUPPORT. The functions that burn fuses: each burns along the transitions of the lifecycle, and every other keeps them. -/

namespace Sys2Proof





theorem Burns.refl (a : Fuses) : Burns a a := ⟨⟨fun _ h => h, id, Nat.le_refl _, fun _ h => h, Nat.le_refl _⟩, id⟩
theorem Burns.trans {a b c : Fuses} (h : Burns a b) (g : Burns b c) : Burns a c :=
  ⟨⟨fun i x => g.1.1 i (h.1.1 i x), fun x => g.1.2.1 (h.1.2.1 x), Nat.le_trans h.1.2.2.1 g.1.2.2.1,
    fun i x => g.1.2.2.2.1 i (h.1.2.2.2.1 i x), Nat.le_trans h.1.2.2.2.2 g.1.2.2.2.2⟩, fun x => g.2 (h.2 x)⟩
theorem Burns.of_eq {a b : Fuses} (h : b = a) : Burns a b := h ▸ Burns.refl a

theorem bit_eq (x i : Nat) : bit x i = x.testBit i := by
  rw [Nat.testBit_eq_decide_div_mod_eq]; rfl
theorem bit_setBit {m i j : Nat} (h : bit m j = true) : bit (setBit m i) j = true := by
  unfold setBit
  split
  · exact h
  · rename_i hi
    rw [bit_eq] at *
    have hi' : m.testBit i = false := by simpa using hi
    rcases Nat.lt_trichotomy i j with hlt | he | hgt
    · have e1 : j = (j - (i + 1)) + (i + 1) := by omega
      rw [e1, ← Nat.testBit_div_two_pow] at h ⊢
      have e2 : (m + 2 ^ i) / 2 ^ (i + 1) = m / 2 ^ (i + 1) := by
        have h2 : m / 2 ^ i % 2 = 0 := by
          have := hi'
          rw [Nat.testBit_eq_decide_div_mod_eq] at this
          simp at this; omega
        rw [Nat.pow_succ, ← Nat.div_div_eq_div_mul, ← Nat.div_div_eq_div_mul, Nat.add_div_right _ (Nat.two_pow_pos i)]
        omega
      rw [e2]; exact h
    · subst he; rw [hi'] at h; cases h
    · rw [Nat.add_comm, Nat.testBit_two_pow_add_gt hgt]; exact h

def lcfAll : List (Nat × Nat × Nat × Nat) :=
  (List.range 2).flatMap (fun p => (List.range 9).flatMap (fun d => (List.range 9).flatMap (fun r => (List.range 2).filterMap (fun x =>
    if r ≤ d ∧ d ≤ r + 1 ∧ (p = 0 → d = 0) then some (p, d, r, x) else none))))

theorem lcfLegal_iff (n : Nat) : LcfLegal n ↔ n ∈ lcfAll.map (fun a => lcfWord a.1 a.2.1 a.2.2.1 a.2.2.2) := by
  constructor
  · rintro ⟨p, d, r, x, hp, hd, hr, hdr, hx, hpd, rfl⟩
    simp only [List.mem_map, lcfAll, List.mem_flatMap, List.mem_range, List.mem_filterMap]
    exact ⟨(p, d, r, x), ⟨p, by omega, d, by omega, r, by omega, x, by omega, by simp [hr, hdr]; exact hpd⟩, rfl⟩
  · simp only [List.mem_map, lcfAll, List.mem_flatMap, List.mem_range, List.mem_filterMap]
    rintro ⟨a, ⟨p, hp, d, hd, r, hr, x, hx, ha⟩, rfl⟩
    split at ha
    · rename_i hc
      simp only [Option.some.injEq] at ha
      subst ha
      exact ⟨p, d, r, x, by omega, by omega, hc.1, hc.2.1, by omega, hc.2.2, rfl⟩
    · cases ha

def lcfState (n : Nat) : Nat :=
  if bit n 17 then 3 else if !bit n 0 then 0 else if popCount 8 (bits n 16 9) < popCount 8 (bits n 8 1) then 2 else 1

theorem burn_all : ∀ n ∈ lcfAll.map (fun a => lcfWord a.1 a.2.1 a.2.2.1 a.2.2.2),
    (lcfState n = 0 → setBit n 0 ∈ lcfAll.map (fun a => lcfWord a.1 a.2.1 a.2.2.1 a.2.2.2)) ∧
    (lcfState n = 1 ∧ popCount 8 (bits n 8 1) < 8 → setBit n (1 + popCount 8 (bits n 8 1)) ∈ lcfAll.map (fun a => lcfWord a.1 a.2.1 a.2.2.1 a.2.2.2)) ∧
    (lcfState n = 2 ∧ popCount 8 (bits n 16 9) < 8 → setBit n (9 + popCount 8 (bits n 16 9)) ∈ lcfAll.map (fun a => lcfWord a.1 a.2.1 a.2.2.1 a.2.2.2)) ∧
    setBit n 17 ∈ lcfAll.map (fun a => lcfWord a.1 a.2.1 a.2.2.1 a.2.2.2) := by decide

theorem Dev.fuses_lcf (d : Dev) : d.fuses.lcf = d.sec.lcf := by unfold Dev.fuses; rfl
theorem Dev.lcf_of_fuses {d e : Dev} (h : e.fuses = d.fuses) : e.sec.lcf = d.sec.lcf := by
  rw [← Dev.fuses_lcf, ← Dev.fuses_lcf, h]
theorem Sec.state_eq (s : Sec) : s.state = lcfState s.lcf := rfl
theorem Sec.deploys_eq (s : Sec) : s.deploys = popCount 8 (bits s.lcf 8 1) := rfl
theorem Sec.returns_eq (s : Sec) : s.returns = popCount 8 (bits s.lcf 16 9) := rfl

theorem Dev.burn_burns (d : Dev) (b : Nat) (h : LcfLegal d.sec.lcf → LcfLegal (setBit d.sec.lcf b)) : Burns d.fuses (d.burn b).fuses := by
  unfold Dev.burn Dev.fuses
  exact ⟨⟨fun i x => bit_setBit x, id, Nat.le_refl _, fun _ x => x, Nat.le_refl _⟩, h⟩

theorem legal_burn {n : Nat} (h : LcfLegal n) :
    (lcfState n = 0 → LcfLegal (setBit n 0)) ∧
    (lcfState n = 1 ∧ popCount 8 (bits n 8 1) < 8 → LcfLegal (setBit n (1 + popCount 8 (bits n 8 1)))) ∧
    (lcfState n = 2 ∧ popCount 8 (bits n 16 9) < 8 → LcfLegal (setBit n (9 + popCount 8 (bits n 16 9)))) ∧
    LcfLegal (setBit n 17) := by
  simp only [lcfLegal_iff] at *
  exact burn_all n h

theorem Dev.provision_burns (d : Dev) (h : d.sec.state = 0) : Burns d.fuses d.provision.fuses := by
  unfold Dev.provision
  rw [Dev.lifeDone_fuses]
  exact Dev.burn_burns _ _ (fun x => (legal_burn x).1 h)

theorem Dev.deploy_burns (d : Dev) (h : d.sec.state = 1 ∧ d.sec.deploys < 8) : Burns d.fuses d.deploy.fuses := by
  unfold Dev.deploy
  rw [Dev.lifeDone_fuses, Dev.measChange_fuses, Dev.keysIn_fuses]
  have e : (d.bundleCommit.rekeyAll d.gangs).fuses = d.fuses := by simp
  have el := Dev.lcf_of_fuses e
  rw [← e]
  refine Dev.burn_burns _ _ (fun x => ?_)
  rw [el] at x ⊢
  exact (legal_burn x).2.1 h

theorem Dev.return_burns (d : Dev) (h : d.sec.state = 2 ∧ d.sec.returns < 8) : Burns d.fuses d.return_.fuses := by
  unfold Dev.return_
  rw [Dev.lifeDone_fuses, Dev.measChange_fuses, Dev.keysIn_fuses]
  have e : (d.bundleCommit.rekeyAll d.gangs).fuses = d.fuses := by simp
  have el := Dev.lcf_of_fuses e
  rw [← e]
  refine Dev.burn_burns _ _ (fun x => ?_)
  rw [el] at x ⊢
  exact (legal_burn x).2.2.1 h

theorem Dev.commitSvn_burns (d : Dev) : Burns d.fuses d.commitSvn.fuses := by
  unfold Dev.commitSvn
  dsimp only
  split
  · rename_i h
    rw [Dev.lifeDone_fuses]
    unfold Dev.fuses
    exact ⟨⟨fun _ x => x, id, Nat.le_of_lt h, fun _ x => x, Nat.le_refl _⟩, id⟩
  · rw [Dev.lifeDone_fuses]; exact Burns.refl _

theorem Dev.revokeSlot_burns (d : Dev) (k : Nat) : Burns d.fuses (d.revokeSlot k).fuses := by
  unfold Dev.revokeSlot
  rw [Dev.lifeDone_fuses]
  unfold Dev.fuses
  exact ⟨⟨fun _ x => x, id, Nat.le_refl _, fun _ x => bit_setBit x, Nat.le_refl _⟩, id⟩

theorem Dev.decommission_burns (d : Dev) : Burns d.fuses d.decommission.fuses := by
  unfold Dev.decommission
  dsimp only
  have e : ((d.ptnResets (upTo 32)).shareScrubs (upTo 32)).fuses = d.fuses := by simp
  have el := Dev.lcf_of_fuses e
  generalize (d.ptnResets (upTo 32)).shareScrubs (upTo 32) = d1 at *
  have h1 : Burns d.fuses ((d1.burn 17).lifeDone 4 true).fuses := by
    rw [Dev.lifeDone_fuses, ← e]
    exact Dev.burn_burns _ _ (fun x => (legal_burn x).2.2.2)
  refine h1.trans ?_
  generalize (d1.burn 17).lifeDone 4 true = d2
  simp
  unfold Dev.fuses
  exact ⟨⟨fun _ x => x, fun _ => rfl, Nat.le_refl _, fun _ x => x, Nat.le_refl _⟩, id⟩

/-- What the checks of R439 leave: the lifecycle operation fits the state. -/
def lifeFits (s : Sec) (v : Nat) : Prop :=
  (v = 1 → s.state = 0) ∧ (v = 2 → s.state = 1 ∧ s.deploys < 8) ∧ (v = 3 → s.state = 2 ∧ s.returns < 8)

theorem Dev.lifeErr_fits (d : Dev) (v : Nat) (h : d.lifeErr v = 0) : lifeFits d.sec v := by
  unfold Dev.lifeErr at h
  dsimp only at h
  refine ⟨fun e => ?_, fun e => ?_, fun e => ?_⟩ <;> subst e <;> simp [abState] at h <;> simp [h]

theorem Dev.lifeOp_burns (d : Dev) (v : Nat) (h : lifeFits d.sec v) : Burns d.fuses (d.lifeOp v).fuses := by
  unfold Dev.lifeOp
  repeat' split
  · exact Dev.provision_burns d (h.1 ‹_›)
  · exact Dev.deploy_burns d (h.2.1 ‹_›)
  · exact Dev.return_burns d (h.2.2 ‹_›)
  · exact Dev.decommission_burns d
  · exact Dev.commitSvn_burns d
  · exact Burns.of_eq (by simp)
  · exact Dev.revokeSlot_burns d _

theorem Dev.dictCommit_burns (d : Dev) (via : Via) (index sb row : Nat) (raw : List Byte) (e : DEnt) (ok : Bool)
    (h : index = 0x5001 → lifeFits d.sec (leNat raw)) : Burns d.fuses (d.dictCommit via index sb row raw e ok).1.fuses := by
  by_cases h5 : index = 0x5001
  · subst h5
    have e : (d.dictCommit via 0x5001 sb row raw e ok).1 = d.lifeOp (leNat raw) := by
      unfold Dev.dictCommit
      have hd : (dictLines 0x5001).any (fun (e : DEnt) => e.rows.isSome) = false := by decide
      have hs : isSelect 0x5001 sb = false := by simp only [isSelect, hd, Bool.and_false]
      simp [hs]
    rw [e]
    exact Dev.lifeOp_burns d _ (h rfl)
  · refine Burns.of_eq ?_
    unfold Dev.dictCommit
    simp [h5]

theorem Dev.tokenCheck_ctr {d : Dev} {index sb sel data t c} (h : d.tokenCheck index sb sel data t = .ok c) : d.sec.tokenCtr ≤ c := by
  unfold Dev.tokenCheck at h
  dsimp only at h
  repeat' split at h
  all_goals first | (cases h; done) | skip
  all_goals
    simp only [Except.ok.injEq] at h
    simp only [not_or, Nat.not_le] at *
    omega

theorem Dev.tokenStep_ctr {d : Dev} {via index sb sel data tok c} (h : d.tokenStep via index sb sel data tok = .ok (some c)) : d.sec.tokenCtr ≤ c := by
  unfold Dev.tokenStep at h
  repeat' split at h
  all_goals first | (cases h; done) | skip
  simp only [Except.ok.injEq, Option.some.injEq] at h
  subst h
  exact Dev.tokenCheck_ctr ‹_›

theorem Dev.writeChecks_ok {d : Dev} {via index sb raw tok e ctr} (h : d.writeChecks via index sb raw tok = .ok (e, ctr)) :
    (index = 0x5001 → lifeFits d.sec (leNat raw)) ∧ (∀ c, ctr = some c → d.sec.tokenCtr ≤ c) := by
  unfold Dev.writeChecks at h
  dsimp only at h
  repeat' split at h
  all_goals first | (cases h; done) | skip
  all_goals
    rename_i _ hc _ hr
    simp only [Except.ok.injEq, Prod.mk.injEq] at h
    obtain ⟨-, rfl⟩ := h
    refine ⟨fun h5 => ?_, fun c hcc => ?_⟩
    · subst h5
      have : d.lifeErr (leNat raw) = 0 := by
        simpa [Dev.ruleErr] using hr
      exact Dev.lifeErr_fits d _ this
    · subst hcc
      split at hc
      · exact Dev.tokenStep_ctr hc
      · cases hc

theorem Dev.dictWrite_burns (d : Dev) (via : Via) (index sb : Nat) (raw : List Byte) (tok : Option (List Byte)) (ok : Bool) :
    Burns d.fuses (d.dictWrite via index sb raw tok ok).1.fuses := by
  unfold Dev.dictWrite
  dsimp only
  have e0 : (if index = 0x5020 then d else d.sessUpd via.sess (fun s => { s with token := none })).fuses = d.fuses := by split <;> simp
  generalize (if index = 0x5020 then d else d.sessUpd via.sess (fun s => { s with token := none })) = d0 at *
  split
  · exact Burns.of_eq (by simp [e0])
  · rename_i e ctr heq
    have hw := Dev.writeChecks_ok heq
    have el := Dev.lcf_of_fuses e0
    cases ctr with
    | none =>
      rw [← e0]
      refine Dev.dictCommit_burns _ _ _ _ _ _ _ _ (fun h5 => ?_)
      have := hw.1 h5
      simpa [lifeFits, Sec.state_eq, Sec.deploys_eq, Sec.returns_eq, el] using this
    | some c =>
      have hc := hw.2 c rfl
      have e1 : Burns d.fuses ({ d0 with sec := { d0.sec with tokenCtr := c } } : Dev).fuses := by
        rw [← e0]
        have : d0.sec.tokenCtr ≤ c := by
          have : d0.fuses.tokenCtr = d.fuses.tokenCtr := by rw [e0]
          have a : d0.fuses.tokenCtr = d0.sec.tokenCtr := by unfold Dev.fuses; rfl
          have b : d.fuses.tokenCtr = d.sec.tokenCtr := by unfold Dev.fuses; rfl
          omega
        unfold Dev.fuses
        exact ⟨⟨fun _ x => x, id, Nat.le_refl _, fun _ x => x, this⟩, id⟩
      refine e1.trans ?_
      refine Dev.dictCommit_burns _ _ _ _ _ _ _ _ (fun h5 => ?_)
      have := hw.1 h5
      simpa [lifeFits, Sec.state_eq, Sec.deploys_eq, Sec.returns_eq, el] using this

theorem Burns.left {a b c : Fuses} (h : Burns b c) (e : b = a) : Burns a c := e ▸ h
theorem Burns.right {a b c : Fuses} (h : Burns a b) (e : c = b) : Burns a c := e ▸ h

theorem Dev.dictWriteMsg_burns (d : Dev) (fn : Option Nat) (ok : Bool) : Burns d.fuses (d.dictWriteMsg fn ok).fuses := by
  unfold Dev.dictWriteMsg
  dsimp only
  repeat' split
  · exact Burns.refl _
  · exact Burns.of_eq (by simp)
  · exact Burns.right (Dev.dictWrite_burns d _ _ _ _ _ _) (Dev.answer_fuses _ _ _ _ _)

theorem Dev.sdoCommit_burns (d : Dev) (index sb : Nat) (data : List Byte) (ok : Bool) (confirm : List Byte) :
    Burns d.fuses (d.sdoCommit index sb data ok confirm).fuses := by
  unfold Dev.sdoCommit
  dsimp only
  have h := (Dev.dictWrite_burns (d.sessEnd 40) .sdo index sb data none ok).left (a := d.fuses) (by simp)
  split <;> exact h.right (by simp)

theorem Dev.sdoDown_burns (d : Dev) (f : SdoDn) (ok : Bool) : Burns d.fuses (d.sdoDown f ok).fuses := by
  unfold Dev.sdoDown
  cases f with
  | expedited index sb data => exact Dev.sdoCommit_burns _ _ _ _ _ _
  | initiate index sb size => exact Burns.of_eq (by simp)
  | blockInitiate index sb size => exact Burns.of_eq (by simp)
  | segment t data last =>
    dsimp only
    repeat' split
    all_goals first | exact Burns.of_eq (by simp; done) | exact Dev.sdoCommit_burns _ _ _ _ _ _
  | blockData data last =>
    dsimp only
    repeat' split
    all_goals exact Burns.of_eq (by simp)
  | blockEnd crc =>
    dsimp only
    repeat' split
    all_goals first | apply Dev.sdoCommit_burns | exact Burns.of_eq (by simp)
  | abort => exact Burns.of_eq (by simp)
  | unknown index sb => exact Burns.of_eq (by simp)

theorem Dev.usdoServe_burns (d : Dev) (node : Nat) (r : UsdoReq) (ok : Bool) : Burns d.fuses (d.usdoServe node r ok).fuses := by
  unfold Dev.usdoServe
  dsimp only
  repeat' split
  all_goals first
    | exact Burns.right (Burns.left (Dev.dictWrite_burns _ _ _ _ _ _ _) (Dev.sessEnd_fuses _ _)) (Dev.emit_fuses _ _)
    | exact Burns.of_eq (by simp)

theorem Dev.udpPut_burns (d : Dev) (src : Nat) (raw : List Byte) (ok : Bool) : Burns d.fuses (d.udpPut src raw ok).fuses := by
  unfold Dev.udpPut
  dsimp only
  split
  · exact Burns.of_eq (by simp)
  split
  · exact Burns.of_eq (by simp)
  split
  · exact Burns.of_eq (by simp)
  split
  · exact Burns.of_eq (by simp)
  · refine Burns.right ((Dev.dictWrite_burns _ _ _ _ _ _ _).left (a := d.fuses) ?_) (Dev.udpSay_fuses _ _ _ _)
    simp

theorem Dev.udpServe_burns (d : Dev) (src : Nat) (raw : List Byte) (ok : Bool) : Burns d.fuses (d.udpServe src raw ok).fuses := by
  unfold Dev.udpServe
  dsimp only
  repeat' split
  all_goals first | exact Dev.udpPut_burns _ _ _ _ | exact Burns.of_eq (by simp)

theorem Dev.heldServe_burns (d : Dev) (r : HeldReq) : Burns d.fuses (d.heldServe r).fuses := by
  unfold Dev.heldServe
  repeat' split
  all_goals first
    | exact Burns.refl _
    | exact Dev.sdoDown_burns _ _ _ | exact Dev.usdoServe_burns _ _ _ _ | exact Dev.udpServe_burns _ _ _ _
    | exact Burns.of_eq (by simp)

theorem Dev.heldAll_burns (d : Dev) (rs : List HeldReq) : Burns d.fuses (d.heldAll rs).fuses := by
  induction rs generalizing d with
  | nil => exact Burns.refl _
  | cons r rs ih => exact (Dev.heldServe_burns d r).trans (ih _)

theorem Dev.request_burns (d : Dev) (r : HeldReq) : Burns d.fuses (d.request r).fuses := by
  unfold Dev.request
  repeat' split
  all_goals first | exact Dev.heldServe_burns _ _ | exact Burns.of_eq (by simp)

theorem Dev.sdoDownload_burns (d : Dev) (f : SdoDn) (ok : Bool) : Burns d.fuses (d.sdoDownload f ok).fuses := by
  unfold Dev.sdoDownload
  split
  · exact Dev.request_burns _ _
  · exact Burns.refl _

theorem Dev.sdoUpload_burns (d : Dev) (f : SdoUp) : Burns d.fuses (d.sdoUpload f).fuses := by
  unfold Dev.sdoUpload
  split
  · exact Dev.request_burns _ _
  · exact Burns.refl _

theorem Dev.usdoTransfer_burns (d : Dev) (n : Nat) (r : UsdoReq) (ok : Bool) : Burns d.fuses (d.usdoTransfer n r ok).fuses := by
  unfold Dev.usdoTransfer
  split
  · exact Dev.request_burns _ _
  · exact Burns.refl _

theorem Dev.usbWriteLast_burns (d : Dev) (index sb seg : Nat) (data : List Byte) (ack ok : Bool) :
    Burns d.fuses (d.usbWriteLast index sb seg data ack ok).fuses := by
  unfold Dev.usbWriteLast
  dsimp only
  unfold Dev.usbGate
  repeat' split
  all_goals first
    | exact Burns.right (Burns.left (Dev.dictWrite_burns _ _ _ _ _ _ _) (Dev.sessUpd_fuses _ _ _)) (Dev.usbFail_fuses _ _ _ _)
    | exact Burns.right (Burns.left (Dev.dictWrite_burns _ _ _ _ _ _ _) (Dev.sessUpd_fuses _ _ _)) ((Dev.emit_fuses _ _).trans (Dev.sessUpd_fuses _ _ _))
    | exact Burns.of_eq (by simp)

theorem Dev.writeVia_burns (d : Dev) (via : Via) (index sb : Nat) (raw : List Byte) (tok : Option (List Byte)) (ok : Bool) :
    Burns d.fuses (d.writeVia via index sb raw tok ok).fuses := by
  unfold Dev.writeVia
  repeat' split
  all_goals first
    | exact Burns.refl _
    | exact Dev.dictWriteMsg_burns _ _ _
    | exact Burns.right (Dev.dictWrite_burns _ _ _ _ _ _ _) (Dev.sessUpd_fuses _ _ _)

theorem Dev.pauseEnd_burns (d : Dev) (code : Nat) : Burns d.fuses (d.pauseEnd code).fuses := by
  unfold Dev.pauseEnd
  exact (Dev.heldAll_burns _ _).left (by simp)

theorem Dev.resumeUpdate_burns (d : Dev) : Burns d.fuses d.resumeUpdate.fuses := by
  unfold Dev.resumeUpdate
  split
  · refine Burns.right ((Dev.pauseEnd_burns _ _).left (a := d.fuses) ?_) (Dev.fwNotice_fuses _ _ _ _)
    split <;> simp
  · exact Burns.refl _

theorem Dev.abandonUpdate_burns (d : Dev) (t : Nat) : Burns d.fuses (d.abandonUpdate t).fuses := by
  unfold Dev.abandonUpdate
  split
  · exact Burns.right (Burns.left (Dev.pauseEnd_burns _ _) ((Dev.report_fuses _ _ _ _ _ _).trans (Dev.imageSwap_fuses _ _ _))) (Dev.fwNotice_fuses _ _ _ _)
  · exact Burns.refl _

theorem Dev.switchImage_burns (d : Dev) (x : Option Nat) : Burns d.fuses (d.switchImage x).fuses := by
  unfold Dev.switchImage
  split
  · dsimp only
    split
    · split
      · exact Burns.left (Dev.abandonUpdate_burns _ _) (by simp)
      · exact Burns.of_eq (by simp)
    · exact Burns.of_eq (by simp)
  · exact Burns.refl _

end Sys2Proof
end

