-- ==== Sys2Proof/Laws/Tab.lean ====
section
/-! SUPPORT. The laws of the sparse tables: what a read after a write gives, and that every operation keeps the canonical form. -/

namespace Sys2Proof

variable {α : Type}

/-! ### The order of the indexes -/

theorem Tab.above_mono {lo hi : Nat} (h : lo ≤ hi) {t : Tab α} (ht : Tab.above hi t = true) : Tab.above lo t = true := by
  cases t with
  | nil => rfl
  | cons a t =>
    simp only [Tab.above, Bool.and_eq_true, decide_eq_true_eq] at ht ⊢
    exact ⟨by omega, ht.2⟩

theorem Tab.sorted_of_above {lo : Nat} {t : Tab α} (h : Tab.above lo t = true) : Tab.sorted t = true := by
  cases t with
  | nil => rfl
  | cons a t =>
    simp only [Tab.above, Bool.and_eq_true] at h
    exact h.2

theorem Tab.above_del {lo : Nat} {t : Tab α} (n : Nat) (h : Tab.above lo t = true) : Tab.above lo (Tab.del t n) = true := by
  induction t generalizing lo with
  | nil => rfl
  | cons a t ih =>
    simp only [Tab.above, Bool.and_eq_true, decide_eq_true_eq] at h
    simp only [Tab.del]
    split
    · exact Tab.above_mono (by omega) (ih h.2)
    · simp only [Tab.above, Bool.and_eq_true, decide_eq_true_eq]
      exact ⟨h.1, ih h.2⟩

theorem Tab.above_put {lo : Nat} {t : Tab α} (n : Nat) (v : α) (hn : lo < n) (h : Tab.above lo t = true) :
    Tab.above lo (Tab.put t n v) = true := by
  induction t generalizing lo with
  | nil => simp [Tab.put, Tab.above, hn]
  | cons a t ih =>
    simp only [Tab.above, Bool.and_eq_true, decide_eq_true_eq] at h
    simp only [Tab.put]
    split
    · rename_i hlt
      simp only [Tab.above, Bool.and_eq_true, decide_eq_true_eq]
      exact ⟨hn, hlt, h.2⟩
    · split
      · rename_i he
        simp only [Tab.above, Bool.and_eq_true, decide_eq_true_eq]
        exact ⟨hn, he ▸ h.2⟩
      · simp only [Tab.above, Bool.and_eq_true, decide_eq_true_eq]
        exact ⟨h.1, ih (by omega) h.2⟩

theorem Tab.above_filter {lo : Nat} {t : Tab α} (p : Nat × α → Bool) (h : Tab.above lo t = true) :
    Tab.above lo (t.filter p) = true := by
  induction t generalizing lo with
  | nil => rfl
  | cons a t ih =>
    simp only [Tab.above, Bool.and_eq_true, decide_eq_true_eq] at h
    rw [List.filter_cons]
    split
    · simp only [Tab.above, Bool.and_eq_true, decide_eq_true_eq]
      exact ⟨h.1, ih h.2⟩
    · exact ih (Tab.above_mono (by omega) h.2)

theorem Tab.above_map {lo : Nat} {t : Tab α} (f : Nat → α → α) (h : Tab.above lo t = true) :
    Tab.above lo (t.map (fun kv => (kv.1, f kv.1 kv.2))) = true := by
  induction t generalizing lo with
  | nil => rfl
  | cons a t ih =>
    simp only [Tab.above, List.map_cons, Bool.and_eq_true, decide_eq_true_eq] at h ⊢
    exact ⟨h.1, ih h.2⟩

theorem Tab.sorted_del {t : Tab α} (n : Nat) (h : Tab.sorted t = true) : Tab.sorted (Tab.del t n) = true := by
  cases t with
  | nil => rfl
  | cons a t =>
    simp only [Tab.sorted] at h
    simp only [Tab.del]
    split
    · exact Tab.sorted_of_above (Tab.above_del n h)
    · exact Tab.above_del n h

theorem Tab.sorted_put {t : Tab α} (n : Nat) (v : α) (h : Tab.sorted t = true) : Tab.sorted (Tab.put t n v) = true := by
  cases t with
  | nil => rfl
  | cons a t =>
    simp only [Tab.sorted] at h
    simp only [Tab.put]
    split
    · rename_i hlt
      simp only [Tab.sorted, Tab.above, Bool.and_eq_true, decide_eq_true_eq]
      exact ⟨hlt, h⟩
    · split
      · rename_i he
        exact he ▸ h
      · exact Tab.above_put n v (by omega) h

theorem Tab.sorted_filter {t : Tab α} (p : Nat × α → Bool) (h : Tab.sorted t = true) : Tab.sorted (t.filter p) = true := by
  cases t with
  | nil => rfl
  | cons a t =>
    simp only [Tab.sorted] at h
    rw [List.filter_cons]
    split
    · exact Tab.above_filter p h
    · exact Tab.sorted_of_above (Tab.above_filter p h)

theorem Tab.sorted_map {t : Tab α} (f : Nat → α → α) (h : Tab.sorted t = true) :
    Tab.sorted (t.map (fun kv => (kv.1, f kv.1 kv.2))) = true := by
  cases t with
  | nil => rfl
  | cons a t => exact Tab.above_map f h

/-! ### The values that a table lists -/

theorem Tab.mem_del {t : Tab α} {n : Nat} {kv : Nat × α} (h : kv ∈ Tab.del t n) : kv ∈ t := by
  induction t with
  | nil => exact h
  | cons a t ih =>
    simp only [Tab.del] at h
    split at h
    · exact List.mem_cons_of_mem _ (ih h)
    · rcases List.mem_cons.1 h with h | h
      · exact h ▸ List.mem_cons_self
      · exact List.mem_cons_of_mem _ (ih h)

theorem Tab.mem_put {t : Tab α} {n : Nat} {v : α} {kv : Nat × α} (h : kv ∈ Tab.put t n v) : kv = (n, v) ∨ kv ∈ t := by
  induction t with
  | nil => exact Or.inl (List.mem_singleton.1 h)
  | cons a t ih =>
    simp only [Tab.put] at h
    split at h
    · exact List.mem_cons.1 h
    · split at h
      · rcases List.mem_cons.1 h with h | h
        · exact Or.inl h
        · exact Or.inr (List.mem_cons_of_mem _ h)
      · rcases List.mem_cons.1 h with h | h
        · exact Or.inr (h ▸ List.mem_cons_self)
        · exact (ih h).imp id (List.mem_cons_of_mem _)

/-! ### Reads after writes -/

theorem Tab.find_put_same (t : Tab α) (n : Nat) (v : α) : Tab.find (Tab.put t n v) n = some v := by
  induction t with
  | nil => simp [Tab.put, Tab.find]
  | cons a t ih =>
    simp only [Tab.put]
    split
    · simp [Tab.find]
    · split
      · simp [Tab.find]
      · rename_i h
        simp [Tab.find, h, ih]

theorem Tab.find_put_other (t : Tab α) {n m : Nat} (v : α) (h : m ≠ n) : Tab.find (Tab.put t n v) m = Tab.find t m := by
  induction t with
  | nil => simp [Tab.put, Tab.find, Ne.symm h]
  | cons a t ih =>
    simp only [Tab.put]
    split
    · simp [Tab.find, Ne.symm h]
    · split
      · rename_i he
        simp [Tab.find, Ne.symm h, he]
      · simp [Tab.find, ih]

theorem Tab.find_del_other (t : Tab α) {n m : Nat} (h : m ≠ n) : Tab.find (Tab.del t n) m = Tab.find t m := by
  induction t with
  | nil => rfl
  | cons a t ih =>
    simp only [Tab.del]
    split
    · rename_i he
      simp [Tab.find, he, Ne.symm h, ih]
    · simp [Tab.find, ih]

theorem Tab.find_del_same (t : Tab α) (n : Nat) : Tab.find (Tab.del t n) n = none := by
  induction t with
  | nil => rfl
  | cons a t ih =>
    simp only [Tab.del]
    split
    · exact ih
    · rename_i he
      simp [Tab.find, he, ih]

variable [DecidableEq α]

/-- A write leaves every other index as it was. -/
theorem Tab.get_set_other (d : α) (t : Tab α) {n m : Nat} (v : α) (h : m ≠ n) {e : α} : Tab.get e (Tab.set d t n v) m = Tab.get e t m := by
  unfold Tab.get Tab.set
  split
  · rw [Tab.find_del_other t h]
  · rw [Tab.find_put_other t v h]

/-- A read of the index just written gives the value written. -/
theorem Tab.get_set_same (d : α) (t : Tab α) (n : Nat) (v : α) : Tab.get d (Tab.set d t n v) n = v := by
  unfold Tab.get Tab.set
  split
  · rename_i e
    rw [Tab.find_del_same, e]; rfl
  · rw [Tab.find_put_same]; rfl

/-- A write of a table entry, read at any index. -/
theorem Tab.get_set (d : α) (t : Tab α) (n m : Nat) (v : α) : Tab.get d (Tab.set d t n v) m = if m = n then v else Tab.get d t m := by
  split
  · rename_i h; rw [h, Tab.get_set_same]
  · rename_i h; exact Tab.get_set_other d t v h

/-! ### The canonical form -/

theorem Tab.wf_iff (d : α) (t : Tab α) : Tab.wf d t = true ↔ Tab.sorted t = true ∧ ∀ kv ∈ t, kv.2 ≠ d := by
  simp [Tab.wf, List.all_eq_true]

theorem Tab.wf_sorted {d : α} {t : Tab α} (h : Tab.wf d t = true) : Tab.sorted t = true := ((Tab.wf_iff d t).1 h).1

theorem Tab.wf_set {d : α} {t : Tab α} (n : Nat) (v : α) (h : Tab.wf d t = true) : Tab.wf d (Tab.set d t n v) = true := by
  rw [Tab.wf_iff] at h ⊢
  unfold Tab.set
  split
  · exact ⟨Tab.sorted_del n h.1, fun kv hk => h.2 kv (Tab.mem_del hk)⟩
  · rename_i hv
    refine ⟨Tab.sorted_put n v h.1, fun kv hk => ?_⟩
    rcases Tab.mem_put hk with e | e
    · rw [e]; exact hv
    · exact h.2 kv e

theorem Tab.wf_setList {d : α} {t : Tab α} (n : Nat) (vs : List α) (h : Tab.wf d t = true) : Tab.wf d (Tab.setList d t n vs) = true := by
  induction vs generalizing t n with
  | nil => exact h
  | cons v vs ih => exact ih (n + 1) (Tab.wf_set n v h)

theorem Tab.wf_filter {d : α} {t : Tab α} (p : Nat × α → Bool) (h : Tab.wf d t = true) : Tab.wf d (t.filter p) = true := by
  rw [Tab.wf_iff] at h ⊢
  exact ⟨Tab.sorted_filter p h.1, fun kv hk => h.2 kv (List.mem_filter.1 hk).1⟩

theorem Tab.wf_keep {d : α} {t : Tab α} (p : Nat → α → Bool) (h : Tab.wf d t = true) : Tab.wf d (Tab.keep t p) = true :=
  Tab.wf_filter _ h

theorem Tab.wf_mapAll {d : α} {t : Tab α} (f : Nat → α → α) (h : Tab.wf d t = true) : Tab.wf d (Tab.mapAll d t f) = true := by
  rw [Tab.wf_iff] at h ⊢
  refine ⟨Tab.sorted_filter _ (Tab.sorted_map f h.1), fun kv hk => ?_⟩
  simpa using (List.mem_filter.1 hk).2

theorem Tab.wf_copyIn {d : α} {t : Tab α} (n len : Nat) (src : Tab α) (a : Nat) (h : Tab.wf d t = true) :
    Tab.wf d (Tab.copyIn d t n len src a) = true := by
  unfold Tab.copyIn
  generalize src.filter _ = l
  have h' := Tab.wf_keep (fun k _ => !(decide (n ≤ k) && decide (k < n + len))) h
  generalize Tab.keep t _ = u at h'
  induction l generalizing u with
  | nil => exact h'
  | cons kv l ih => exact ih _ (Tab.wf_set _ _ h')

/-- A run of writes leaves every index outside it as it was. -/
theorem Tab.get_setList_outside (d : α) (t : Tab α) (n : Nat) (vs : List α) {m : Nat} (h : m < n ∨ n + vs.length ≤ m) :
    Tab.get d (Tab.setList d t n vs) m = Tab.get d t m := by
  induction vs generalizing t n with
  | nil => rfl
  | cons v vs ih =>
    simp only [List.length_cons] at h
    rw [Tab.setList, ih _ _ (by omega), Tab.get_set_other d t v (by omega)]

end Sys2Proof
end

