-- ==== Sys2Proof/Laws/MemOk.lean ====
section
/-! SUPPORT. Every function of the machine keeps the canonical form of the model memories. -/

namespace Sys2Proof

@[simp] theorem Dev.memOk_fold (d : Dev) : (Tab.wf 0#8 d.mem.cs && Tab.wf 0#8 d.mem.hbm) = d.memOk := by unfold Dev.memOk; rfl
theorem Dev.memOk_cs (d : Dev) (h : d.memOk = true) : Tab.wf 0#8 d.mem.cs = true := by
  unfold Dev.memOk Memory.wf at h; rw [Bool.and_eq_true] at h; exact h.1
theorem Dev.memOk_hbm (d : Dev) (h : d.memOk = true) : Tab.wf 0#8 d.mem.hbm = true := by
  unfold Dev.memOk Memory.wf at h; rw [Bool.and_eq_true] at h; exact h.2
@[simp] theorem Dev.memOk_mk (now free alive regs pqRegs host erl tel tmu cat pq lck ptn core mem flow store dict fw sec pwr out) : (Dev.mk now free alive regs pqRegs host erl tel tmu cat pq lck ptn core mem flow store dict fw sec pwr out).memOk = (Tab.wf 0#8 mem.cs && Tab.wf 0#8 mem.hbm) := by unfold Dev.memOk; rfl
@[simp] theorem Dev.memOk_ite (c : Prop) [Decidable c] (a b : Dev) : (if c then a else b).memOk = if c then a.memOk else b.memOk := by split <;> rfl
@[simp] theorem Dev.memOk_ite1 {α : Type} (c : Prop) [Decidable c] (a b : Dev × α) : (if c then a else b).1.memOk = if c then a.1.memOk else b.1.memOk := by split <;> rfl
@[simp] theorem Dev.memOk_ite2 {α : Type} (c : Prop) [Decidable c] (a b : α × Dev) : (if c then a else b).2.memOk = if c then a.2.memOk else b.2.memOk := by split <;> rfl
@[simp] theorem Dev.memOk_foldl {α : Type} (f : Dev → α → Dev) (l : List α) (d : Dev) (h : ∀ e x, e.memOk = true → (f e x).memOk = true) (hd : d.memOk = true) : (l.foldl f d).memOk = true := by
  induction l generalizing d with
  | nil => exact hd
  | cons a l ih => exact ih _ (h _ _ hd)
@[simp] theorem Dev.memOk_foldl_eq {α : Type} (f : Dev → α → Dev) (l : List α) (d : Dev) (h : ∀ e x, (f e x).memOk = e.memOk) : (l.foldl f d).memOk = d.memOk := by
  induction l generalizing d with
  | nil => rfl
  | cons a l ih => simp [ih, h]
theorem Dev.memOk_of_tensor {d e : Dev} (h : e.tensor = d.tensor) : e.memOk = d.memOk := by
  unfold Dev.tensor at h
  unfold Dev.memOk
  simp only [Tensor.mk.injEq] at h
  rw [h.1]

/-! #### The memories themselves (R138, R449) -/

@[simp] theorem Mem.join_cs (m : Mem) (k s b l) : (m.join k s b l).cs = m.cs := rfl
@[simp] theorem Mem.join_hbm (m : Mem) (k s b l) : (m.join k s b l).hbm = m.hbm := rfl
@[simp] theorem Mem.rekeyLine_cs (m : Mem) (k b l) : (m.rekeyLine k b l).cs = m.cs := by
  unfold Mem.rekeyLine
  split <;> rfl
theorem Mem.rekeyLine_wf (m : Mem) (k b l) (h : Tab.wf 0#8 m.hbm = true) : Tab.wf 0#8 (m.rekeyLine k b l).hbm = true := by
  unfold Mem.rekeyLine
  split
  · exact h
  · exact Tab.wf_setList _ _ h
theorem Mem.rekeyLines_cs (ls : List Nat) (k b) (f : Nat → Nat) : ∀ m : Mem, (ls.foldl (fun m i => m.rekeyLine k b (f i)) m).cs = m.cs := by
  induction ls with
  | nil => intro m; rfl
  | cons l ls ih => intro m; rw [List.foldl_cons, ih, Mem.rekeyLine_cs]
theorem Mem.rekeyLines_wf (ls : List Nat) (k b) (f : Nat → Nat) : ∀ m : Mem, Tab.wf 0#8 m.hbm = true → Tab.wf 0#8 (ls.foldl (fun m i => m.rekeyLine k b (f i)) m).hbm = true := by
  induction ls with
  | nil => intro m h; exact h
  | cons l ls ih => intro m h; exact ih _ (Mem.rekeyLine_wf m k b _ h)
@[simp] theorem Mem.rekey_cs (m : Mem) (k b o n) : (m.rekey k b o n).cs = m.cs := by
  unfold Mem.rekey
  split
  · rfl
  · exact Mem.rekeyLines_cs _ k b _ m
theorem Mem.rekey_wf (m : Mem) (k b o n) (h : Tab.wf 0#8 m.hbm = true) : Tab.wf 0#8 (m.rekey k b o n).hbm = true := by
  unfold Mem.rekey
  split
  · exact h
  · exact Mem.rekeyLines_wf _ k b _ m h
@[simp] theorem Mem.writeUnder_cs (m : Mem) (k b o bs) : (m.writeUnder k b o bs).cs = m.cs := by simp [Mem.writeUnder]
theorem Mem.writeUnder_wf (m : Mem) (k b o bs) (h : Tab.wf 0#8 m.hbm = true) : Tab.wf 0#8 (m.writeUnder k b o bs).hbm = true :=
  Tab.wf_setList _ _ (Mem.rekey_wf m k b o _ h)
@[simp] theorem Mem.fromCore_cs (m : Mem) (k b o c a l) : (m.fromCore k b o c a l).cs = m.cs := by simp [Mem.fromCore]
theorem Mem.fromCore_wf (m : Mem) (k b o c a l) (h : Tab.wf 0#8 m.hbm = true) : Tab.wf 0#8 (m.fromCore k b o c a l).hbm = true :=
  Tab.wf_copyIn _ _ _ _ (Mem.rekey_wf m k b o _ h)
@[simp] theorem Mem.mirrorCopy_cs (m : Mem) (e) : (m.mirrorCopy e).cs = m.cs := rfl
theorem Mem.mirrorCopy_wf (m : Mem) (e) (h : Tab.wf 0#8 m.hbm = true) : Tab.wf 0#8 (m.mirrorCopy e).hbm = true := Tab.wf_copyIn _ _ _ _ h

/-! #### Ops -/

@[simp] theorem Dev.wr_memOk (d x1 x2) : (Dev.wr d x1 x2).memOk = d.memOk := Dev.memOk_of_tensor (Dev.wr_tensor _ _ _)
@[simp] theorem Dev.wrN_memOk (d x1 x2) : (Dev.wrN d x1 x2).memOk = d.memOk := Dev.memOk_of_tensor (Dev.wrN_tensor _ _ _)
@[simp] theorem Dev.count_memOk (d x1 x2) : (Dev.count d x1 x2).memOk = d.memOk := Dev.memOk_of_tensor (Dev.count_tensor _ _ _)
@[simp] theorem Dev.wr64_memOk (d x1 x2) : (Dev.wr64 d x1 x2).memOk = d.memOk := Dev.memOk_of_tensor (Dev.wr64_tensor _ _ _)
@[simp] theorem Dev.count64_memOk (d x1 x2) : (Dev.count64 d x1 x2).memOk = d.memOk := Dev.memOk_of_tensor (Dev.count64_tensor _ _ _)
@[simp] theorem Dev.regsReset_memOk (d x1 x2) : (Dev.regsReset d x1 x2).memOk = d.memOk := Dev.memOk_of_tensor (Dev.regsReset_tensor _ _ _)
@[simp] theorem Dev.emit_memOk (d x1) : (Dev.emit d x1).memOk = d.memOk := Dev.memOk_of_tensor (Dev.emit_tensor _ _)
@[simp] theorem Dev.drawN_memOk (d) : (Dev.drawN d).2.memOk = d.memOk := Dev.memOk_of_tensor (Dev.drawN_tensor _)
@[simp] theorem Dev.drawB_memOk (d) : (Dev.drawB d).2.memOk = d.memOk := Dev.memOk_of_tensor (Dev.drawB_tensor _)
@[simp] theorem Dev.msixRaise_memOk (d x1 x2) : (Dev.msixRaise d x1 x2).memOk = d.memOk := Dev.memOk_of_tensor (Dev.msixRaise_tensor _ _ _)
@[simp] theorem Dev.teleMake_memOk (d x1 x2 x3 x4 x5 x6) : (Dev.teleMake d x1 x2 x3 x4 x5 x6).memOk = d.memOk := Dev.memOk_of_tensor (Dev.teleMake_tensor _ _ _ _ _ _ _)
@[simp] theorem Dev.event_memOk (d x1 x2) : (Dev.event d x1 x2).memOk = d.memOk := Dev.memOk_of_tensor (Dev.event_tensor _ _ _)
@[simp] theorem Dev.events_memOk (d x1 x2) : (Dev.events d x1 x2).memOk = d.memOk := Dev.memOk_of_tensor (Dev.events_tensor _ _ _)
@[simp] theorem Dev.enableWrite_memOk (d x1 x2) : (Dev.enableWrite d x1 x2).memOk = d.memOk := Dev.memOk_of_tensor (Dev.enableWrite_tensor _ _ _)
@[simp] theorem Dev.alarmSet_memOk (d x1 x2 x3 x4 x5) : (Dev.alarmSet d x1 x2 x3 x4 x5).memOk = d.memOk := Dev.memOk_of_tensor (Dev.alarmSet_tensor _ _ _ _ _ _)
@[simp] theorem Dev.erlLost_memOk (d x1) : (Dev.erlLost d x1).memOk = d.memOk := Dev.memOk_of_tensor (Dev.erlLost_tensor _ _)
@[simp] theorem Dev.reportE_memOk (d x1) : (Dev.reportE d x1).memOk = d.memOk := Dev.memOk_of_tensor (Dev.reportE_tensor _ _)
@[simp] theorem Dev.report_memOk (d x1 x2 x3 x4 x5) : (Dev.report d x1 x2 x3 x4 x5).memOk = d.memOk := Dev.memOk_of_tensor (Dev.report_tensor _ _ _ _ _ _)
@[simp] theorem Dev.catPut_memOk (d x1) : (Dev.catPut d x1).memOk = d.memOk := Dev.memOk_of_tensor (Dev.catPut_tensor _ _)
@[simp] theorem Dev.notice_memOk (d x1 x2 x3) : (Dev.notice d x1 x2 x3).memOk = d.memOk := Dev.memOk_of_tensor (Dev.notice_tensor _ _ _ _)
@[simp] theorem Dev.pqSet_memOk (d x1 x2) : (Dev.pqSet d x1 x2).memOk = d.memOk := Dev.memOk_of_tensor (Dev.pqSet_tensor _ _ _)
@[simp] theorem Dev.pqPush_memOk (d x1 x2 x3) : (Dev.pqPush d x1 x2 x3).1.memOk = d.memOk := Dev.memOk_of_tensor (Dev.pqPush_tensor _ _ _ _)
@[simp] theorem Dev.pqEmpty_memOk (d x1) : (Dev.pqEmpty d x1).memOk = d.memOk := Dev.memOk_of_tensor (Dev.pqEmpty_tensor _ _)
@[simp] theorem Dev.lckSet_memOk (d x1 x2) : (Dev.lckSet d x1 x2).memOk = d.memOk := by
  simp [Dev.lckSet]
@[simp] theorem Dev.lckAcquire_memOk (d x1 x2 x3) : (Dev.lckAcquire d x1 x2 x3).1.memOk = d.memOk := by
  simp [Dev.lckAcquire]
@[simp] theorem Dev.lckRelease_memOk (d x1 x2) : (Dev.lckRelease d x1 x2).memOk = d.memOk := by
  simp [Dev.lckRelease]
@[simp] theorem Dev.lckForce_memOk (d x1 x2) : (Dev.lckForce d x1 x2).memOk = d.memOk := by
  simp [Dev.lckForce]
@[simp] theorem Dev.lckForceList_memOk (d x1 x2) : (Dev.lckForceList d x1 x2).memOk = d.memOk := by
  fun_induction Dev.lckForceList d x1 x2 <;> simp_all +zetaDelta
@[simp] theorem Dev.lckForceOwner_memOk (d x1 x2) : (Dev.lckForceOwner d x1 x2).memOk = d.memOk := by
  simp [Dev.lckForceOwner]
@[simp] theorem Dev.ptnSet_memOk (d x1 x2) : (Dev.ptnSet d x1 x2).memOk = d.memOk := by
  simp [Dev.ptnSet]
@[simp] theorem Dev.accErr_memOk (d x1 x2 x3 x4 x5) : (Dev.accErr d x1 x2 x3 x4 x5).memOk = d.memOk := Dev.memOk_of_tensor (Dev.accErr_tensor _ _ _ _ _ _)
@[simp] theorem Dev.accLog_memOk (d x1 x2 x3) : (Dev.accLog d x1 x2 x3).memOk = d.memOk := Dev.memOk_of_tensor (Dev.accLog_tensor _ _ _ _)

/-! #### DieB -/

@[simp] theorem Dev.ringEvent_memOk (d x1 x2) : (Dev.ringEvent d x1 x2).memOk = d.memOk := Dev.memOk_of_tensor (Dev.ringEvent_tensor _ _ _)
@[simp] theorem Dev.ringWrite_memOk (d x1) : (Dev.ringWrite d x1).memOk = d.memOk := Dev.memOk_of_tensor (Dev.ringWrite_tensor _ _)
@[simp] theorem Dev.catUnhold_memOk (d x1) : (Dev.catUnhold d x1).memOk = d.memOk := Dev.memOk_of_tensor (Dev.catUnhold_tensor _ _)
@[simp] theorem Dev.catTake_memOk (d) : (Dev.catTake d).1.memOk = d.memOk := Dev.memOk_of_tensor (Dev.catTake_tensor _)
@[simp] theorem Dev.catRtail_memOk (d x1 x2 x3) : (Dev.catRtail d x1 x2 x3).memOk = d.memOk := Dev.memOk_of_tensor (Dev.catRtail_tensor _ _ _ _)
@[simp] theorem Dev.ringClear_memOk (d x1) : (Dev.ringClear d x1).memOk = d.memOk := Dev.memOk_of_tensor (Dev.ringClear_tensor _ _)
@[simp] theorem Dev.pqCfg_memOk (d x1 x2 x3 x4 x5) : (Dev.pqCfg d x1 x2 x3 x4 x5).memOk = d.memOk := Dev.memOk_of_tensor (Dev.pqCfg_tensor _ _ _ _ _ _)
@[simp] theorem Dev.pqLatch_memOk (d x1 x2 x3) : (Dev.pqLatch d x1 x2 x3).memOk = d.memOk := Dev.memOk_of_tensor (Dev.pqLatch_tensor _ _ _ _)
@[simp] theorem Dev.pqDenied_memOk (d x1 x2 x3 x4) : (Dev.pqDenied d x1 x2 x3 x4).memOk = d.memOk := Dev.memOk_of_tensor (Dev.pqDenied_tensor _ _ _ _ _)
@[simp] theorem Dev.pqPushCtl_memOk (d x1 x2 x3) : (Dev.pqPushCtl d x1 x2 x3).memOk = d.memOk := Dev.memOk_of_tensor (Dev.pqPushCtl_tensor _ _ _ _)
@[simp] theorem Dev.pqPopWord_memOk (d x1 x2) : (Dev.pqPopWord d x1 x2).1.memOk = d.memOk := Dev.memOk_of_tensor (Dev.pqPopWord_tensor _ _ _)
@[simp] theorem Dev.pqPopCtl_memOk (d x1 x2) : (Dev.pqPopCtl d x1 x2).memOk = d.memOk := Dev.memOk_of_tensor (Dev.pqPopCtl_tensor _ _ _)
@[simp] theorem Dev.lckAcqWord_memOk (d x1 x2) : (Dev.lckAcqWord d x1 x2).1.memOk = d.memOk := by
  simp [Dev.lckAcqWord]
@[simp] theorem Dev.lckAcqRead_memOk (d x1 x2) : (Dev.lckAcqRead d x1 x2).memOk = d.memOk := by
  simp [Dev.lckAcqRead]
@[simp] theorem Dev.lckAcqWrite_memOk (d x1 x2) : (Dev.lckAcqWrite d x1 x2).memOk = d.memOk := by
  unfold Dev.lckAcqWrite
  dsimp only
  (repeat' split) <;> simp
@[simp] theorem Dev.lckForceWrite_memOk (d x1 x2) : (Dev.lckForceWrite d x1 x2).memOk = d.memOk := by
  unfold Dev.lckForceWrite
  (repeat' split) <;> simp

/-! #### Tensor -/

@[simp] theorem Dev.csWrite_memOk (d c a bs) (h : d.memOk = true) : (Dev.csWrite d c a bs).memOk = true := by
  have hc := d.memOk_cs h
  have hh := d.memOk_hbm h
  simp only [Dev.csWrite, Dev.memOk_mk, Bool.and_eq_true]
  exact ⟨Tab.wf_setList _ _ hc, hh⟩
@[simp] theorem Dev.csZero_memOk (d c) (h : d.memOk = true) : (Dev.csZero d c).memOk = true := by
  have hc := d.memOk_cs h
  have hh := d.memOk_hbm h
  simp only [Dev.csZero, Dev.memOk_mk, Bool.and_eq_true]
  exact ⟨Tab.wf_keep _ hc, hh⟩
@[simp] theorem Dev.shWrite_memOk (d p o bs) (h : d.memOk = true) : (Dev.shWrite d p o bs).memOk = true := by
  have hc := d.memOk_cs h
  have hh := d.memOk_hbm h
  simp only [Dev.shWrite, Dev.memOk_mk, Bool.and_eq_true]
  split
  · exact ⟨by simpa using hc, Mem.writeUnder_wf _ _ _ _ _ (Mem.writeUnder_wf _ _ _ _ _ hh)⟩
  · exact ⟨by simpa using hc, Mem.writeUnder_wf _ _ _ _ _ hh⟩
@[simp] theorem Dev.shFromCore_memOk (d p o c a l) (h : d.memOk = true) : (Dev.shFromCore d p o c a l).memOk = true := by
  have hc := d.memOk_cs h
  have hh := d.memOk_hbm h
  simp only [Dev.shFromCore, Dev.memOk_mk, Bool.and_eq_true]
  split
  · exact ⟨by simpa using hc, Mem.fromCore_wf _ _ _ _ _ _ _ (Mem.fromCore_wf _ _ _ _ _ _ _ hh)⟩
  · exact ⟨by simpa using hc, Mem.fromCore_wf _ _ _ _ _ _ _ hh⟩
@[simp] theorem Dev.coreFromSh_memOk (d c a p o l) (h : d.memOk = true) : (Dev.coreFromSh d c a p o l).memOk = true := by
  have hc := d.memOk_cs h
  have hh := d.memOk_hbm h
  unfold Dev.coreFromSh
  split
  · simp only [Dev.memOk_mk, Bool.and_eq_true]
    exact ⟨Tab.wf_copyIn _ _ _ _ hc, hh⟩
  · exact Dev.csWrite_memOk _ _ _ _ h
@[simp] theorem Dev.reportFree_memOk (d x1 x2 x3) : (Dev.reportFree d x1 x2 x3).memOk = d.memOk := Dev.memOk_of_tensor (Dev.reportFree_tensor _ _ _ _)
@[simp] theorem Dev.hbmEcc_memOk (d x1 x2 x3) : (Dev.hbmEcc d x1 x2 x3).memOk = d.memOk := Dev.memOk_of_tensor (Dev.hbmEcc_tensor _ _ _ _)
@[simp] theorem Dev.msEcc_memOk (d x1 x2 x3) : (Dev.msEcc d x1 x2 x3).memOk = d.memOk := Dev.memOk_of_tensor (Dev.msEcc_tensor _ _ _ _)
@[simp] theorem Dev.shEcc_memOk (d x1 x2) : (Dev.shEcc d x1 x2).memOk = d.memOk := Dev.memOk_of_tensor (Dev.shEcc_tensor _ _ _)
@[simp] theorem Dev.coreSet_memOk (d x1 x2) : (Dev.coreSet d x1 x2).memOk = d.memOk := by
  simp [Dev.coreSet]
@[simp] theorem Dev.coreUpd_memOk (d x1 x2) : (Dev.coreUpd d x1 x2).memOk = d.memOk := by
  simp [Dev.coreUpd]
@[simp] theorem Dev.setPc_memOk (d x1 x2) : (Dev.setPc d x1 x2).memOk = d.memOk := Dev.memOk_of_tensor (Dev.setPc_tensor _ _ _)
@[simp] theorem Dev.tally_memOk (d x1 x2) : (Dev.tally d x1 x2).memOk = d.memOk := Dev.memOk_of_tensor (Dev.tally_tensor _ _ _)
@[simp] theorem Dev.afterPost_memOk (d x1 x2 x3) : (Dev.afterPost d x1 x2 x3).memOk = d.memOk := Dev.memOk_of_tensor (Dev.afterPost_tensor _ _ _ _)
@[simp] theorem Dev.corePost_memOk (d x1 x2 x3) : (Dev.corePost d x1 x2 x3).memOk = d.memOk := by
  unfold Dev.corePost
  dsimp only
  (repeat' split) <;> simp
@[simp] theorem Dev.complete_memOk (d x1 x2 x3 x4 x5) : (Dev.complete d x1 x2 x3 x4 x5).memOk = d.memOk := by
  simp [Dev.complete]
@[simp] theorem Dev.afterWait_memOk (d x1 x2 x3) : (Dev.afterWait d x1 x2 x3).memOk = d.memOk := by
  unfold Dev.afterWait
  dsimp only
  (repeat' split) <;> simp
@[simp] theorem Dev.releaseFree_memOk (d x1 x2) : (Dev.releaseFree d x1 x2).memOk = d.memOk := by
  fun_induction Dev.releaseFree d x1 x2 <;> simp_all +zetaDelta
@[simp] theorem Dev.release_memOk (d x1) : (Dev.release d x1).memOk = d.memOk := by
  unfold Dev.release
  (repeat' split) <;> simp
@[simp] theorem Dev.catRecord_memOk (d x1) : (Dev.catRecord d x1).memOk = d.memOk := by
  simp [Dev.catRecord]
@[simp] theorem Dev.catTakeOne_memOk (d) : (Dev.catTakeOne d).memOk = d.memOk := by
  have h := Dev.catTake_memOk d
  unfold Dev.catTakeOne
  split <;> rename_i heq <;> rw [heq] at h
  · split <;> simpa using h
  · exact h
@[simp] theorem Dev.unwait_memOk (d x1) : (Dev.unwait d x1).memOk = d.memOk := Dev.memOk_of_tensor (Dev.unwait_tensor _ _)
@[simp] theorem Dev.tenFail_memOk (d x1 x2 x3 x4) : (Dev.tenFail d x1 x2 x3 x4).memOk = d.memOk := by
  simp [Dev.tenFail]
@[simp] theorem Dev.eccNote_memOk (d x1 x2) : (Dev.eccNote d x1 x2).memOk = d.memOk := Dev.memOk_of_tensor (Dev.eccNote_tensor _ _ _)
@[simp] theorem Dev.bankStalls_memOk (d x1) : (Dev.bankStalls d x1).memOk = d.memOk := Dev.memOk_of_tensor (Dev.bankStalls_tensor _ _)
@[simp] theorem Dev.fill_memOk (d x1 x2) : (Dev.fill d x1 x2).memOk = d.memOk := by
  induction x2 generalizing d with
  | nil => rfl
  | cons a l ih => rw [Dev.fill, ih]; (repeat' split) <;> simp
theorem Dev.presentTile_memOk {d d1 : Dev} {c p w q} (h : d.presentTile c p w = .ok (d1, q)) : d1.memOk = d.memOk := by
  simp only [Dev.presentTile] at h
  split at h
  · cases h
  · simp only [Except.ok.injEq, Prod.mk.injEq] at h
    rw [← h.1]; simp
@[simp] theorem Dev.putCode_memOk (d x1 x2 x3 x4 x5) (h : d.memOk = true) : (Dev.putCode d x1 x2 x3 x4 x5).memOk = true := by
  simp [Dev.putCode, h]
@[simp] theorem Dev.putCodes_memOk (d x1 x2 x3 x4 x5) (h : d.memOk = true) : (Dev.putCodes d x1 x2 x3 x4 x5).memOk = true := by
  fun_induction Dev.putCodes d x1 x2 x3 x4 x5 <;> simp_all +zetaDelta
@[simp] theorem Dev.putSides_memOk (d x1 x2 x3 x4) (h : d.memOk = true) : (Dev.putSides d x1 x2 x3 x4).memOk = true := by
  fun_induction Dev.putSides d x1 x2 x3 x4 <;> simp_all +zetaDelta
theorem Dev.linkAppend_memOk {d d1 : Dev} {c l xs} (hd : d.memOk = true) (h : d.linkAppend c l xs = .ok d1) : d1.memOk = true := by
  simp only [Dev.linkAppend] at h
  repeat' split at h
  all_goals first | (cases h; done) | (simp only [Except.ok.injEq] at h; rw [← h]; (repeat' split) <;> simp [hd, fun x1 x2 x3 x4 x5 => Dev.putCodes_memOk d x1 x2 x3 x4 x5 hd])
@[simp] theorem Dev.emitArray_memOk (d x1 x2 x3 x4) (h : d.memOk = true) : (Dev.emitArray d x1 x2 x3 x4).memOk = true := by
  unfold Dev.emitArray
  dsimp only
  (repeat' split) <;> simp [h]
@[simp] theorem Dev.emitArrays_memOk (d x1 x2 x3 x4) (h : d.memOk = true) : (Dev.emitArrays d x1 x2 x3 x4).memOk = true := by
  fun_induction Dev.emitArrays d x1 x2 x3 x4 <;> simp_all +zetaDelta
theorem Dev.emitPass_memOk {d d1 : Dev} {c p} (hd : d.memOk = true) (h : d.emitPass c p = .ok d1) : d1.memOk = true := by
  unfold Dev.emitPass at h
  split at h
  · exact Dev.linkAppend_memOk hd h
  · simp only [Except.ok.injEq] at h
    rw [← h]; simp [hd]

/-! #### TensorSeq -/

@[simp] theorem Dev.fetchCheck_memOk (d x1) : (Dev.fetchCheck d x1).memOk = d.memOk := by
  simp [Dev.fetchCheck]
@[simp] theorem Dev.nextPc_memOk (d x1) : (Dev.nextPc d x1).memOk = d.memOk := by
  simp [Dev.nextPc]
@[simp] theorem Dev.fetch_memOk (d x1 x2) : (Dev.fetch d x1 x2).memOk = d.memOk := by
  unfold Dev.fetch
  (repeat' split) <;> simp
@[simp] theorem Dev.issue_memOk (d : Dev) (c op : Nat) (ecc : Ecc) (b : Bool) (rsv : Nat → Bool) (errs : Nat → Dev → List Nat)
    (body : Nat → Nat → Dev → Dev) (hd : d.memOk = true) (h : ∀ x y (e : Dev), e.memOk = true → (body x y e).memOk = true) :
    (d.issue c op ecc b rsv errs body).memOk = true := by
  unfold Dev.issue
  dsimp only
  repeat' split
  all_goals simp [h, hd]
@[simp] theorem Dev.startPass_memOk (d x1 x2) : (Dev.startPass d x1 x2).memOk = d.memOk := by
  simp [Dev.startPass]
@[simp] theorem Dev.promote_memOk (d x1) : (Dev.promote d x1).memOk = d.memOk := by
  unfold Dev.promote
  dsimp only
  (repeat' split) <;> simp
@[simp] theorem Dev.coreFault_memOk (d x1) : (Dev.coreFault d x1).memOk = d.memOk := by
  simp [Dev.coreFault]
@[simp] theorem Dev.arrayFault_memOk (d x1 x2 x3) : (Dev.arrayFault d x1 x2 x3).memOk = d.memOk := by
  unfold Dev.arrayFault
  dsimp only
  (repeat' split) <;> simp
@[simp] theorem Dev.arrayFaultBy_memOk (d x1 x2 x3 x4) : (Dev.arrayFaultBy d x1 x2 x3 x4).memOk = d.memOk := by
  simp [Dev.arrayFaultBy]
@[simp] theorem Dev.passTaken_memOk (d x1 x2 x3) : (Dev.passTaken d x1 x2 x3).memOk = d.memOk := by
  simp [Dev.passTaken]
@[simp] theorem Dev.operandEcc_memOk (d x1 x2 x3) : (Dev.operandEcc d x1 x2 x3).memOk = d.memOk := by
  simp [Dev.operandEcc]
@[simp] theorem Dev.doPass_memOk (d x1 x2) (h : d.memOk = true) : (Dev.doPass d x1 x2).memOk = true := by
  refine Dev.issue_memOk _ _ _ _ _ _ _ _ h ?_
  intro x y e he
  dsimp only
  repeat' split
  all_goals simp [he]
@[simp] theorem Dev.tileChange_memOk (d x1 x2 x3) : (Dev.tileChange d x1 x2 x3).memOk = d.memOk := by
  unfold Dev.tileChange
  dsimp only
  repeat' split
  all_goals first | (simp; done) | (rename_i heq; simp [Dev.presentTile_memOk heq])
@[simp] theorem Dev.bankExchange_memOk (d x1) : (Dev.bankExchange d x1).memOk = d.memOk := by
  unfold Dev.bankExchange
  dsimp only
  (repeat' split) <;> simp
@[simp] theorem Dev.passCommit_memOk (d c) (h : d.memOk = true) : (Dev.passCommit d c).memOk = true := by
  unfold Dev.passCommit
  dsimp only
  repeat' split
  all_goals first | (simp [h]; done) | (rename_i heq; simp [Dev.emitPass_memOk (by simp [h]) heq])
@[simp] theorem Dev.emitError_memOk (d x1 x2) : (Dev.emitError d x1 x2).memOk = d.memOk := by
  unfold Dev.emitError
  dsimp only
  (repeat' split) <;> simp
@[simp] theorem Dev.doWalk_memOk (d c e) (h : d.memOk = true) : (Dev.doWalk d c e).memOk = true := by
  refine Dev.issue_memOk _ _ _ _ _ _ _ _ h ?_
  intro x y e he
  try dsimp only
  (repeat' split) <;> simp [he]
@[simp] theorem Dev.doLink_memOk (d c e) (h : d.memOk = true) : (Dev.doLink d c e).memOk = true := by
  refine Dev.issue_memOk _ _ _ _ _ _ _ _ h ?_
  intro x y e he
  try dsimp only
  (repeat' split) <;> simp [he]
@[simp] theorem Dev.linkComplete_memOk (d c k) (h : d.memOk = true) : (Dev.linkComplete d c k).memOk = true := by
  have hc := d.memOk_cs h
  have hh := d.memOk_hbm h
  unfold Dev.linkComplete
  dsimp only
  split
  · split
    · exact h
    · simp only [Dev.complete_memOk, Dev.coreUpd_memOk, Dev.memOk_ite]
      have h1 : ∀ p, (Dev.memOk { d with mem := { d.mem with cs := Tab.keep d.mem.cs p } }) = true := by
        intro p
        rw [Dev.memOk_mk, Bool.and_eq_true]
        exact ⟨Tab.wf_keep _ hc, hh⟩
      split
      · exact Dev.csWrite_memOk _ _ _ _ (h1 _)
      · exact h1 _
  · exact h
@[simp] theorem Dev.mvWrite_memOk (d x1 x2 x3 x4) (h : d.memOk = true) : (Dev.mvWrite d x1 x2 x3 x4).memOk = true := by
  simp [Dev.mvWrite, h]
@[simp] theorem Dev.freeBytes_memOk (d x1) : (Dev.freeBytes d x1).2.memOk = d.memOk := Dev.memOk_of_tensor (Dev.freeBytes_tensor _ _)
@[simp] theorem Dev.moveEncode_memOk (d x1 x2 x3 x4 x5) (h : d.memOk = true) : (Dev.moveEncode d x1 x2 x3 x4 x5).memOk = true := by
  simp [Dev.moveEncode, h]
@[simp] theorem Dev.moveDecode_memOk (d x1 x2 x3 x4 x5) (h : d.memOk = true) : (Dev.moveDecode d x1 x2 x3 x4 x5).memOk = true := by
  simp [Dev.moveDecode, h]
@[simp] theorem Dev.moveSpan_memOk (d x1 x2 x3) (h : d.memOk = true) : (Dev.moveSpan d x1 x2 x3).memOk = true := by
  unfold Dev.moveSpan
  dsimp only
  (repeat' split) <;> simp [h]
@[simp] theorem Dev.moveEcc_memOk (d x1 x2) : (Dev.moveEcc d x1 x2).1.memOk = d.memOk := Dev.memOk_of_tensor (Dev.moveEcc_tensor _ _ _)
@[simp] theorem Dev.runMove_memOk (d x1) (h : d.memOk = true) : (Dev.runMove d x1).memOk = true := by
  unfold Dev.runMove
  (repeat' split) <;> simp [h]
@[simp] theorem Dev.doMove_memOk (d c e) (h : d.memOk = true) : (Dev.doMove d c e).memOk = true := by
  refine Dev.issue_memOk _ _ _ _ _ _ _ _ h ?_
  intro x y e he
  try dsimp only
  (repeat' split) <;> simp [he]
@[simp] theorem Dev.moveEnd_memOk (d x1 x2 x3) (h : d.memOk = true) : (Dev.moveEnd d x1 x2 x3).memOk = true := by
  simp [Dev.moveEnd, h]
@[simp] theorem Dev.moveComplete_memOk (d x1) (h : d.memOk = true) : (Dev.moveComplete d x1).memOk = true := by
  unfold Dev.moveComplete
  dsimp only
  (repeat' split) <;> simp [h]
@[simp] theorem Dev.moveStop_memOk (d x1) (h : d.memOk = true) : (Dev.moveStop d x1).memOk = true := by
  unfold Dev.moveStop
  dsimp only
  (repeat' split) <;> simp [h]
@[simp] theorem Dev.waitqEnd_memOk (d x1 x2) (h : d.memOk = true) : (Dev.waitqEnd d x1 x2).memOk = true := by
  unfold Dev.waitqEnd
  dsimp only
  (repeat' split) <;> simp [h]
@[simp] theorem Dev.doWaitq_memOk (d c e) (h : d.memOk = true) : (Dev.doWaitq d c e).memOk = true := by
  refine Dev.issue_memOk _ _ _ _ _ _ _ _ h ?_
  intro x y e he
  try dsimp only
  (repeat' split) <;> simp [he]
@[simp] theorem Dev.waiterPop_memOk (d x1) (h : d.memOk = true) : (Dev.waiterPop d x1).memOk = true := by
  unfold Dev.waiterPop
  dsimp only
  (repeat' split) <;> simp [h]
@[simp] theorem Dev.waitqTimeout_memOk (d x1) (h : d.memOk = true) : (Dev.waitqTimeout d x1).memOk = true := by
  unfold Dev.waitqTimeout
  (repeat' split) <;> simp [h]
@[simp] theorem Dev.doSignal_memOk (d c e) (h : d.memOk = true) : (Dev.doSignal d c e).memOk = true := by
  refine Dev.issue_memOk _ _ _ _ _ _ _ _ h ?_
  intro x y e he
  try dsimp only
  (repeat' split) <;> simp [he]
@[simp] theorem Dev.lockEnd_memOk (d x1 x2) (h : d.memOk = true) : (Dev.lockEnd d x1 x2).memOk = true := by
  simp [Dev.lockEnd, h]
@[simp] theorem Dev.lockRead_memOk (d x1 x2 x3) (h : d.memOk = true) : (Dev.lockRead d x1 x2 x3).memOk = true := by
  simp [Dev.lockRead, h]
@[simp] theorem Dev.doLock_memOk (d c e) (h : d.memOk = true) : (Dev.doLock d c e).memOk = true := by
  refine Dev.issue_memOk _ _ _ _ _ _ _ _ h ?_
  intro x y e he
  try dsimp only
  (repeat' split) <;> simp [he]
@[simp] theorem Dev.lockRetry_memOk (d x1) (h : d.memOk = true) : (Dev.lockRetry d x1).memOk = true := by
  unfold Dev.lockRetry
  (repeat' split) <;> simp [h]
@[simp] theorem Dev.lockTimeout_memOk (d x1) (h : d.memOk = true) : (Dev.lockTimeout d x1).memOk = true := by
  unfold Dev.lockTimeout
  (repeat' split) <;> simp [h]
@[simp] theorem Dev.doJump_memOk (d c e) (h : d.memOk = true) : (Dev.doJump d c e).memOk = true := by
  refine Dev.issue_memOk _ _ _ _ _ _ _ _ h ?_
  intro x y e he
  try dsimp only
  (repeat' split) <;> simp [he]
@[simp] theorem Dev.doNop_memOk (d c e) (h : d.memOk = true) : (Dev.doNop d c e).memOk = true := by
  refine Dev.issue_memOk _ _ _ _ _ _ _ _ h ?_
  intro x y e he
  try dsimp only
  (repeat' split) <;> simp [he]
@[simp] theorem Dev.doEnd_memOk (d c e) (h : d.memOk = true) : (Dev.doEnd d c e).memOk = true := by
  refine Dev.issue_memOk _ _ _ _ _ _ _ _ h ?_
  intro x y e he
  try dsimp only
  (repeat' split) <;> simp [he]

/-! #### TensorCtl -/

@[simp] theorem Dev.tenRun_memOk (d x1) : (Dev.tenRun d x1).memOk = d.memOk := by
  simp [Dev.tenRun]
@[simp] theorem Dev.writeSave_memOk (d x1 x2) (h : d.memOk = true) : (Dev.writeSave d x1 x2).memOk = true := by
  simp [Dev.writeSave, h]
@[simp] theorem Dev.tenPreempt_memOk (d x1) (h : d.memOk = true) : (Dev.tenPreempt d x1).memOk = true := by
  unfold Dev.tenPreempt
  (repeat' split) <;> simp [h]
@[simp] theorem Dev.commitAll_memOk (d x1 x2) (h : d.memOk = true) : (Dev.commitAll d x1 x2).memOk = true := by
  fun_induction Dev.commitAll d x1 x2 <;> simp_all +zetaDelta
@[simp] theorem Dev.linksFinish_memOk (d : Dev) (c : Nat) (ks : List Nat) (h : d.memOk = true) : (Dev.linksFinish d c ks).memOk = true := by
  induction ks generalizing d with
  | nil => exact h
  | cons k ks ih =>
    rw [Dev.linksFinish]
    refine ih _ ?_
    (repeat' split) <;> simp [h]
@[simp] theorem Dev.preemptSaved_memOk (d c) (h : d.memOk = true) : (Dev.preemptSaved d c).memOk = true := by
  have h2 := Dev.linksFinish_memOk (d.commitAll c 4) c (upTo 4) (Dev.commitAll_memOk d c 4 h)
  unfold Dev.preemptSaved
  dsimp only
  split
  · split
    · exact Dev.writeSave_memOk _ _ _ (Dev.moveStop_memOk _ _ h2)
    · exact h2
  · exact h
@[simp] theorem Dev.rebase_memOk (d x1) : (Dev.rebase d x1).memOk = d.memOk := by
  simp [Dev.rebase]
@[simp] theorem Dev.tenResume_memOk (d x1) (h : d.memOk = true) : (Dev.tenResume d x1).memOk = true := by
  simp [Dev.tenResume, h]
@[simp] theorem Dev.tenRegsReset_memOk (d x1) : (Dev.tenRegsReset d x1).memOk = d.memOk := Dev.memOk_of_tensor (Dev.tenRegsReset_tensor _ _)
@[simp] theorem Dev.tenReset_memOk (d x1) : (Dev.tenReset d x1).memOk = d.memOk := by
  simp [Dev.tenReset]
@[simp] theorem Dev.tenLock_memOk (d x1) : (Dev.tenLock d x1).memOk = d.memOk := by
  simp [Dev.tenLock]
@[simp] theorem Dev.tenCtrl_memOk (d x1 x2 x3) (h : d.memOk = true) : (Dev.tenCtrl d x1 x2 x3).memOk = true := by
  unfold Dev.tenCtrl
  dsimp only
  (repeat' split) <;> simp [h]

/-! #### PortBase -/

@[simp] theorem Dev.reportNamed_memOk (d x1 x2 x3 x4) : (Dev.reportNamed d x1 x2 x3 x4).memOk = d.memOk := Dev.memOk_of_tensor (Dev.reportNamed_tensor _ _ _ _ _)
@[simp] theorem Dev.prtCount_memOk (d x1 x2 x3) : (Dev.prtCount d x1 x2 x3).memOk = d.memOk := Dev.memOk_of_tensor (Dev.prtCount_tensor _ _ _ _)
@[simp] theorem Dev.portSet_memOk (d x1 x2) : (Dev.portSet d x1 x2).memOk = d.memOk := Dev.memOk_of_tensor (Dev.portSet_tensor _ _ _)
@[simp] theorem Dev.portUpd_memOk (d x1 x2) : (Dev.portUpd d x1 x2).memOk = d.memOk := Dev.memOk_of_tensor (Dev.portUpd_tensor _ _ _)
@[simp] theorem Dev.onLane_memOk (d x1) : (Dev.onLane d x1).memOk = d.memOk := Dev.memOk_of_tensor (Dev.onLane_tensor _ _)
@[simp] theorem Dev.pktSet_memOk (d x1 x2) : (Dev.pktSet d x1 x2).memOk = d.memOk := Dev.memOk_of_tensor (Dev.pktSet_tensor _ _ _)
@[simp] theorem Dev.pktUpd_memOk (d x1 x2) : (Dev.pktUpd d x1 x2).memOk = d.memOk := Dev.memOk_of_tensor (Dev.pktUpd_tensor _ _ _)
@[simp] theorem Dev.egSet_memOk (d x1 x2 x3) : (Dev.egSet d x1 x2 x3).memOk = d.memOk := Dev.memOk_of_tensor (Dev.egSet_tensor _ _ _ _)
@[simp] theorem Dev.dropItem_memOk (d x1) : (Dev.dropItem d x1).memOk = d.memOk := Dev.memOk_of_tensor (Dev.dropItem_tensor _ _)
@[simp] theorem Dev.dropItems_memOk (d x1) : (Dev.dropItems d x1).memOk = d.memOk := Dev.memOk_of_tensor (Dev.dropItems_tensor _ _)
@[simp] theorem Dev.flushPort_memOk (d x1) : (Dev.flushPort d x1).memOk = d.memOk := Dev.memOk_of_tensor (Dev.flushPort_tensor _ _)
@[simp] theorem Dev.flushDead_memOk (d x1) : (Dev.flushDead d x1).memOk = d.memOk := Dev.memOk_of_tensor (Dev.flushDead_tensor _ _)
@[simp] theorem Dev.qRefresh_memOk (d x1 x2) : (Dev.qRefresh d x1 x2).memOk = d.memOk := Dev.memOk_of_tensor (Dev.qRefresh_tensor _ _ _)
@[simp] theorem Dev.qRefreshAll_memOk (d x1 x2) : (Dev.qRefreshAll d x1 x2).memOk = d.memOk := Dev.memOk_of_tensor (Dev.qRefreshAll_tensor _ _ _)
@[simp] theorem Dev.promoClear_memOk (d x1 x2) : (Dev.promoClear d x1 x2).memOk = d.memOk := Dev.memOk_of_tensor (Dev.promoClear_tensor _ _ _)

/-! #### Macsec -/

@[simp] theorem Dev.saSet_memOk (d x1 x2) : (Dev.saSet d x1 x2).memOk = d.memOk := Dev.memOk_of_tensor (Dev.saSet_tensor _ _ _)
@[simp] theorem Dev.msIngress_memOk (d x1 x2) : (Dev.msIngress d x1 x2).1.memOk = d.memOk := Dev.memOk_of_tensor (Dev.msIngress_tensor _ _ _)
@[simp] theorem Dev.msEgress_memOk (d x1 x2) : (Dev.msEgress d x1 x2).1.memOk = d.memOk := Dev.memOk_of_tensor (Dev.msEgress_tensor _ _ _)

/-! #### Ports -/

@[simp] theorem Dev.pauseEmit_memOk (d x1 x2 x3) : (Dev.pauseEmit d x1 x2 x3).memOk = d.memOk := Dev.memOk_of_tensor (Dev.pauseEmit_tensor _ _ _ _)
@[simp] theorem Dev.sendPause_memOk (d x1 x2 x3) : (Dev.sendPause d x1 x2 x3).memOk = d.memOk := Dev.memOk_of_tensor (Dev.sendPause_tensor _ _ _ _)
@[simp] theorem Dev.pauseList_memOk (d x1 x2) : (Dev.pauseList d x1 x2).memOk = d.memOk := Dev.memOk_of_tensor (Dev.pauseList_tensor _ _ _)
@[simp] theorem Dev.pauseCheck1_memOk (d x1 x2) : (Dev.pauseCheck1 d x1 x2).memOk = d.memOk := Dev.memOk_of_tensor (Dev.pauseCheck1_tensor _ _ _)
@[simp] theorem Dev.pauseCheckList_memOk (d x1 x2) : (Dev.pauseCheckList d x1 x2).memOk = d.memOk := Dev.memOk_of_tensor (Dev.pauseCheckList_tensor _ _ _)
@[simp] theorem Dev.pauseCheck_memOk (d x1) : (Dev.pauseCheck d x1).memOk = d.memOk := Dev.memOk_of_tensor (Dev.pauseCheck_tensor _ _)
@[simp] theorem Dev.pauseRepeat_memOk (d x1 x2) : (Dev.pauseRepeat d x1 x2).memOk = d.memOk := Dev.memOk_of_tensor (Dev.pauseRepeat_tensor _ _ _)
@[simp] theorem Dev.stormTx_memOk (d x1 x2) : (Dev.stormTx d x1 x2).memOk = d.memOk := Dev.memOk_of_tensor (Dev.stormTx_tensor _ _ _)
@[simp] theorem Dev.timerEnd_memOk (d x1 x2) : (Dev.timerEnd d x1 x2).memOk = d.memOk := Dev.memOk_of_tensor (Dev.timerEnd_tensor _ _ _)
@[simp] theorem Dev.pauseLoad_memOk (d x1 x2 x3) : (Dev.pauseLoad d x1 x2 x3).memOk = d.memOk := Dev.memOk_of_tensor (Dev.pauseLoad_tensor _ _ _ _)
@[simp] theorem Dev.pauseFrame_memOk (d x1 x2 x3 x4) : (Dev.pauseFrame d x1 x2 x3 x4).memOk = d.memOk := Dev.memOk_of_tensor (Dev.pauseFrame_tensor _ _ _ _ _)
@[simp] theorem Dev.pfcLoads_memOk (d x1 x2 x3) : (Dev.pfcLoads d x1 x2 x3).memOk = d.memOk := Dev.memOk_of_tensor (Dev.pfcLoads_tensor _ _ _ _)
@[simp] theorem Dev.pfcFrame_memOk (d x1 x2 x3 x4 x5) : (Dev.pfcFrame d x1 x2 x3 x4 x5).memOk = d.memOk := Dev.memOk_of_tensor (Dev.pfcFrame_tensor _ _ _ _ _ _)
@[simp] theorem Dev.pauseExpire_memOk (d x1 x2) : (Dev.pauseExpire d x1 x2).memOk = d.memOk := Dev.memOk_of_tensor (Dev.pauseExpire_tensor _ _ _)
@[simp] theorem Dev.stormRx_memOk (d x1 x2) : (Dev.stormRx d x1 x2).memOk = d.memOk := Dev.memOk_of_tensor (Dev.stormRx_tensor _ _ _)
@[simp] theorem Dev.stormRxQuiet_memOk (d x1 x2) : (Dev.stormRxQuiet d x1 x2).memOk = d.memOk := Dev.memOk_of_tensor (Dev.stormRxQuiet_tensor _ _ _)
@[simp] theorem Dev.deliver_memOk (d x1 x2 x3 x4) : (Dev.deliver d x1 x2 x3 x4).memOk = d.memOk := Dev.memOk_of_tensor (Dev.deliver_tensor _ _ _ _ _)
@[simp] theorem Dev.frameReceive_memOk (d x1 x2) : (Dev.frameReceive d x1 x2).memOk = d.memOk := Dev.memOk_of_tensor (Dev.frameReceive_tensor _ _ _)
@[simp] theorem Dev.stomp_memOk (d x1 x2) : (Dev.stomp d x1 x2).memOk = d.memOk := Dev.memOk_of_tensor (Dev.stomp_tensor _ _ _)
@[simp] theorem Dev.unqueue_memOk (d x1 x2) : (Dev.unqueue d x1 x2).memOk = d.memOk := Dev.memOk_of_tensor (Dev.unqueue_tensor _ _ _)
@[simp] theorem Dev.refreshHeads_memOk (d x1 x2) : (Dev.refreshHeads d x1 x2).memOk = d.memOk := Dev.memOk_of_tensor (Dev.refreshHeads_tensor _ _ _)
@[simp] theorem Dev.frameEnd_memOk (d x1 x2) : (Dev.frameEnd d x1 x2).memOk = d.memOk := Dev.memOk_of_tensor (Dev.frameEnd_tensor _ _ _)
@[simp] theorem Dev.freePkt_memOk (d x1) : (Dev.freePkt d x1).memOk = d.memOk := Dev.memOk_of_tensor (Dev.freePkt_tensor _ _)
@[simp] theorem Dev.txAbort_memOk (d x1) : (Dev.txAbort d x1).memOk = d.memOk := Dev.memOk_of_tensor (Dev.txAbort_tensor _ _)
@[simp] theorem Dev.linkDown_memOk (d x1) : (Dev.linkDown d x1).memOk = d.memOk := Dev.memOk_of_tensor (Dev.linkDown_tensor _ _)
@[simp] theorem Dev.retrain_memOk (d x1) : (Dev.retrain d x1).memOk = d.memOk := Dev.memOk_of_tensor (Dev.retrain_tensor _ _)
@[simp] theorem Dev.retrainList_memOk (d x1) : (Dev.retrainList d x1).memOk = d.memOk := Dev.memOk_of_tensor (Dev.retrainList_tensor _ _)
@[simp] theorem Dev.linkChange_memOk (d x1 x2 x3 x4) : (Dev.linkChange d x1 x2 x3 x4).memOk = d.memOk := Dev.memOk_of_tensor (Dev.linkChange_tensor _ _ _ _ _)
@[simp] theorem Dev.failsafeAssert_memOk (d) : (Dev.failsafeAssert d).memOk = d.memOk := Dev.memOk_of_tensor (Dev.failsafeAssert_tensor _)
@[simp] theorem Dev.dieFLoss_memOk (d) : (Dev.dieFLoss d).memOk = d.memOk := Dev.memOk_of_tensor (Dev.dieFLoss_tensor _)
@[simp] theorem Dev.failsafeRelease_memOk (d x1) : (Dev.failsafeRelease d x1).memOk = d.memOk := Dev.memOk_of_tensor (Dev.failsafeRelease_tensor _ _)
@[simp] theorem Dev.pairWait_memOk (d x1) : (Dev.pairWait d x1).memOk = d.memOk := Dev.memOk_of_tensor (Dev.pairWait_tensor _ _)

/-! #### Classify -/

@[simp] theorem Dev.parCount_memOk (d x1) : (Dev.parCount d x1).memOk = d.memOk := Dev.memOk_of_tensor (Dev.parCount_tensor _ _)
@[simp] theorem Dev.clsCount_memOk (d x1) : (Dev.clsCount d x1).memOk = d.memOk := Dev.memOk_of_tensor (Dev.clsCount_tensor _ _)
@[simp] theorem Dev.clsCounts_memOk (d x1) : (Dev.clsCounts d x1).memOk = d.memOk := Dev.memOk_of_tensor (Dev.clsCounts_tensor _ _)
@[simp] theorem Dev.seqGap_memOk (d x1 x2) : (Dev.seqGap d x1 x2).memOk = d.memOk := Dev.memOk_of_tensor (Dev.seqGap_tensor _ _ _)
@[simp] theorem Dev.verUpd_memOk (d x1 x2) : (Dev.verUpd d x1 x2).memOk = d.memOk := Dev.memOk_of_tensor (Dev.verUpd_tensor _ _ _)
@[simp] theorem Dev.leaveVer_memOk (d x1) : (Dev.leaveVer d x1).memOk = d.memOk := Dev.memOk_of_tensor (Dev.leaveVer_tensor _ _)
@[simp] theorem Dev.tplUpd_memOk (d x1 x2) : (Dev.tplUpd d x1 x2).memOk = d.memOk := Dev.memOk_of_tensor (Dev.tplUpd_tensor _ _ _)
@[simp] theorem Dev.stageObj_memOk (d x1 x2 x3) : (Dev.stageObj d x1 x2 x3).memOk = d.memOk := Dev.memOk_of_tensor (Dev.stageObj_tensor _ _ _ _)
@[simp] theorem Dev.stageAll_memOk (d x1 x2 x3) : (Dev.stageAll d x1 x2 x3).memOk = d.memOk := Dev.memOk_of_tensor (Dev.stageAll_tensor _ _ _ _)
@[simp] theorem Dev.commit_memOk (d x1) : (Dev.commit d x1).1.memOk = d.memOk := Dev.memOk_of_tensor (Dev.commit_tensor _ _)
@[simp] theorem Dev.retire_memOk (d) : (Dev.retire d).memOk = d.memOk := Dev.memOk_of_tensor (Dev.retire_tensor _)
@[simp] theorem Dev.treeEvent_memOk (d x1 x2 x3 x4 x5) : (Dev.treeEvent d x1 x2 x3 x4 x5).memOk = d.memOk := Dev.memOk_of_tensor (Dev.treeEvent_tensor _ _ _ _ _ _)
@[simp] theorem Dev.sweepRecs_memOk (d x1 x2) : (Dev.sweepRecs d x1 x2).memOk = d.memOk := Dev.memOk_of_tensor (Dev.sweepRecs_tensor _ _ _)
@[simp] theorem Dev.sweep_memOk (d) : (Dev.sweep d).memOk = d.memOk := Dev.memOk_of_tensor (Dev.sweep_tensor _)
@[simp] theorem Dev.sweepEnd_memOk (d) : (Dev.sweepEnd d).memOk = d.memOk := Dev.memOk_of_tensor (Dev.sweepEnd_tensor _)
@[simp] theorem Dev.puntToken_memOk (d x1 x2) : (Dev.puntToken d x1 x2).1.memOk = d.memOk := Dev.memOk_of_tensor (Dev.puntToken_tensor _ _ _)
@[simp] theorem Dev.puntOffer_memOk (d x1 x2 x3) : (Dev.puntOffer d x1 x2 x3).1.memOk = d.memOk := Dev.memOk_of_tensor (Dev.puntOffer_tensor _ _ _ _)
@[simp] theorem Dev.pktGone_memOk (d x1) : (Dev.pktGone d x1).memOk = d.memOk := Dev.memOk_of_tensor (Dev.pktGone_tensor _ _)
@[simp] theorem Dev.puntPkt_memOk (d x1 x2 x3 x4 x5 x6) : (Dev.puntPkt d x1 x2 x3 x4 x5 x6).memOk = d.memOk := Dev.memOk_of_tensor (Dev.puntPkt_tensor _ _ _ _ _ _ _)
@[simp] theorem Dev.nextHand_memOk (d) : (Dev.nextHand d).memOk = d.memOk := Dev.memOk_of_tensor (Dev.nextHand_tensor _)
@[simp] theorem Dev.reinject_memOk (d x1 x2 x3) : (Dev.reinject d x1 x2 x3).memOk = d.memOk := Dev.memOk_of_tensor (Dev.reinject_tensor _ _ _ _)
@[simp] theorem Dev.puntRelease_memOk (d x1 x2) : (Dev.puntRelease d x1 x2).memOk = d.memOk := Dev.memOk_of_tensor (Dev.puntRelease_tensor _ _ _)
@[simp] theorem Dev.take1_memOk (d x1 x2) : (Dev.take1 d x1 x2).memOk = d.memOk := Dev.memOk_of_tensor (Dev.take1_tensor _ _ _)
@[simp] theorem Dev.dispatchFrom_memOk (d x1 x2) : (Dev.dispatchFrom d x1 x2).memOk = d.memOk := Dev.memOk_of_tensor (Dev.dispatchFrom_tensor _ _ _)
@[simp] theorem Dev.dispatchTake_memOk (d) : (Dev.dispatchTake d).memOk = d.memOk := Dev.memOk_of_tensor (Dev.dispatchTake_tensor _)
@[simp] theorem Dev.parseResult_memOk (d x1) : (Dev.parseResult d x1).memOk = d.memOk := Dev.memOk_of_tensor (Dev.parseResult_tensor _ _)
@[simp] theorem Dev.byDefault_memOk (d x1 x2 x3) : (Dev.byDefault d x1 x2 x3).memOk = d.memOk := Dev.memOk_of_tensor (Dev.byDefault_tensor _ _ _ _)
@[simp] theorem Dev.classify_memOk (d) : (Dev.classify d).memOk = d.memOk := Dev.memOk_of_tensor (Dev.classify_tensor _)

/-! #### Flows -/

@[simp] theorem Dev.flwCount_memOk (d x1) : (Dev.flwCount d x1).memOk = d.memOk := Dev.memOk_of_tensor (Dev.flwCount_tensor _ _)
@[simp] theorem Dev.flowSet_memOk (d x1 x2) : (Dev.flowSet d x1 x2).memOk = d.memOk := Dev.memOk_of_tensor (Dev.flowSet_tensor _ _ _)
@[simp] theorem Dev.flowRecord_memOk (d x1 x2) : (Dev.flowRecord d x1 x2).memOk = d.memOk := Dev.memOk_of_tensor (Dev.flowRecord_tensor _ _ _)
@[simp] theorem Dev.flowFind_memOk (d x1 x2) : (Dev.flowFind d x1 x2).1.memOk = d.memOk := Dev.memOk_of_tensor (Dev.flowFind_tensor _ _ _)
@[simp] theorem Dev.bind_memOk (d) : (Dev.bind d).memOk = d.memOk := Dev.memOk_of_tensor (Dev.bind_tensor _)
@[simp] theorem Dev.agingScan_memOk (d) : (Dev.agingScan d).memOk = d.memOk := Dev.memOk_of_tensor (Dev.agingScan_tensor _)
@[simp] theorem Dev.entSetState_memOk (d x1 x2) : (Dev.entSetState d x1 x2).memOk = d.memOk := Dev.memOk_of_tensor (Dev.entSetState_tensor _ _ _)
@[simp] theorem Dev.makeStale_memOk (d x1 x2) : (Dev.makeStale d x1 x2).memOk = d.memOk := Dev.memOk_of_tensor (Dev.makeStale_tensor _ _ _)
@[simp] theorem Dev.makeStaleList_memOk (d x1 x2) : (Dev.makeStaleList d x1 x2).memOk = d.memOk := Dev.memOk_of_tensor (Dev.makeStaleList_tensor _ _ _)
@[simp] theorem Dev.assignRange_memOk (d x1 x2 x3) : (Dev.assignRange d x1 x2 x3).memOk = d.memOk := Dev.memOk_of_tensor (Dev.assignRange_tensor _ _ _ _)
@[simp] theorem Dev.fidx_memOk (d x1) : (Dev.fidx d x1).memOk = d.memOk := Dev.memOk_of_tensor (Dev.fidx_tensor _ _)
@[simp] theorem Dev.eidx_memOk (d x1) : (Dev.eidx d x1).memOk = d.memOk := Dev.memOk_of_tensor (Dev.eidx_tensor _ _)
@[simp] theorem Dev.polSet_memOk (d x1 x2) : (Dev.polSet d x1 x2).memOk = d.memOk := Dev.memOk_of_tensor (Dev.polSet_tensor _ _ _)
@[simp] theorem Dev.flowMark_memOk (d x1 x2) : (Dev.flowMark d x1 x2).memOk = d.memOk := Dev.memOk_of_tensor (Dev.flowMark_tensor _ _ _)
@[simp] theorem Dev.police_memOk (d) : (Dev.police d).memOk = d.memOk := Dev.memOk_of_tensor (Dev.police_tensor _)
@[simp] theorem Dev.policerWrite_memOk (d x1 x2 x3 x4 x5 x6 x7) : (Dev.policerWrite d x1 x2 x3 x4 x5 x6 x7).memOk = d.memOk := Dev.memOk_of_tensor (Dev.policerWrite_tensor _ _ _ _ _ _ _ _)
@[simp] theorem Dev.pidx_memOk (d x1 x2) : (Dev.pidx d x1 x2).memOk = d.memOk := Dev.memOk_of_tensor (Dev.pidx_tensor _ _ _)

/-! #### Score -/

@[simp] theorem Dev.treCount_memOk (d x1 x2) : (Dev.treCount d x1 x2).memOk = d.memOk := Dev.memOk_of_tensor (Dev.treCount_tensor _ _ _)
@[simp] theorem Dev.recSet_memOk (d x1 x2) : (Dev.recSet d x1 x2).memOk = d.memOk := Dev.memOk_of_tensor (Dev.recSet_tensor _ _ _)
@[simp] theorem Dev.sqSet_memOk (d x1 x2) : (Dev.sqSet d x1 x2).memOk = d.memOk := Dev.memOk_of_tensor (Dev.sqSet_tensor _ _ _)
@[simp] theorem Dev.scoreDrop_memOk (d x1) : (Dev.scoreDrop d x1).memOk = d.memOk := Dev.memOk_of_tensor (Dev.scoreDrop_tensor _ _)
@[simp] theorem Dev.dropEnd_memOk (d x1) : (Dev.dropEnd d x1).memOk = d.memOk := Dev.memOk_of_tensor (Dev.dropEnd_tensor _ _)
@[simp] theorem Dev.scoreNone_memOk (d x1 x2) : (Dev.scoreNone d x1 x2).memOk = d.memOk := Dev.memOk_of_tensor (Dev.scoreNone_tensor _ _ _)
@[simp] theorem Dev.scoreAdmit_memOk (d) : (Dev.scoreAdmit d).memOk = d.memOk := Dev.memOk_of_tensor (Dev.scoreAdmit_tensor _)
@[simp] theorem Dev.grantHead_memOk (d x1 x2 x3 x4) : (Dev.grantHead d x1 x2 x3 x4).memOk = d.memOk := Dev.memOk_of_tensor (Dev.grantHead_tensor _ _ _ _ _)
@[simp] theorem Dev.grantEns_memOk (d x1 x2 x3) : (Dev.grantEns d x1 x2 x3).1.memOk = d.memOk := Dev.memOk_of_tensor (Dev.grantEns_tensor _ _ _ _)
@[simp] theorem Dev.grantFrom_memOk (d x1 x2) : (Dev.grantFrom d x1 x2).memOk = d.memOk := Dev.memOk_of_tensor (Dev.grantFrom_tensor _ _ _)
@[simp] theorem Dev.scoreGrant_memOk (d) : (Dev.scoreGrant d).memOk = d.memOk := Dev.memOk_of_tensor (Dev.scoreGrant_tensor _)
@[simp] theorem Dev.copyUpd_memOk (d x1 x2 x3) : (Dev.copyUpd d x1 x2 x3).memOk = d.memOk := Dev.memOk_of_tensor (Dev.copyUpd_tensor _ _ _ _)
@[simp] theorem Dev.failQueued_memOk (d x1 x2 x3) : (Dev.failQueued d x1 x2 x3).memOk = d.memOk := Dev.memOk_of_tensor (Dev.failQueued_tensor _ _ _ _)
@[simp] theorem Dev.slotParity_memOk (d x1 x2 x3) : (Dev.slotParity d x1 x2 x3).memOk = d.memOk := Dev.memOk_of_tensor (Dev.slotParity_tensor _ _ _ _)
@[simp] theorem Dev.scoreDeliver_memOk (d x1) : (Dev.scoreDeliver d x1).memOk = d.memOk := Dev.memOk_of_tensor (Dev.scoreDeliver_tensor _ _)
@[simp] theorem Dev.slotReloaded_memOk (d x1) : (Dev.slotReloaded d x1).memOk = d.memOk := Dev.memOk_of_tensor (Dev.slotReloaded_tensor _ _)
@[simp] theorem Dev.fabricScrub_memOk (d x1) : (Dev.fabricScrub d x1).memOk = d.memOk := Dev.memOk_of_tensor (Dev.fabricScrub_tensor _ _)

/-! #### Egress -/

@[simp] theorem Dev.visCount_memOk (d x1) : (Dev.visCount d x1).memOk = d.memOk := Dev.memOk_of_tensor (Dev.visCount_tensor _ _)
@[simp] theorem Dev.visorVerdict_memOk (d) : (Dev.visorVerdict d).memOk = d.memOk := Dev.memOk_of_tensor (Dev.visorVerdict_tensor _)
@[simp] theorem Dev.taggedQuiet_memOk (d x1) : (Dev.taggedQuiet d x1).memOk = d.memOk := Dev.memOk_of_tensor (Dev.taggedQuiet_tensor _ _)
@[simp] theorem Dev.noteFileable_memOk (d x1) : (Dev.noteFileable d x1).memOk = d.memOk := Dev.memOk_of_tensor (Dev.noteFileable_tensor _ _)
@[simp] theorem Dev.noteFileables_memOk (d x1) : (Dev.noteFileables d x1).memOk = d.memOk := Dev.memOk_of_tensor (Dev.noteFileables_tensor _ _)
@[simp] theorem Dev.settle_memOk (d x1) : (Dev.settle d x1).memOk = d.memOk := Dev.memOk_of_tensor (Dev.settle_tensor _ _)
@[simp] theorem Dev.release1_memOk (d x1) : (Dev.release1 d x1).1.memOk = d.memOk := Dev.memOk_of_tensor (Dev.release1_tensor _ _)
@[simp] theorem Dev.releasePort_memOk (d x1 x2) : (Dev.releasePort d x1 x2).memOk = d.memOk := Dev.memOk_of_tensor (Dev.releasePort_tensor _ _ _)
@[simp] theorem Dev.reorderRelease_memOk (d x1) : (Dev.reorderRelease d x1).memOk = d.memOk := Dev.memOk_of_tensor (Dev.reorderRelease_tensor _ _)
@[simp] theorem Dev.enqueue_memOk (d x1 x2 x3) : (Dev.enqueue d x1 x2 x3).1.memOk = d.memOk := Dev.memOk_of_tensor (Dev.enqueue_tensor _ _ _ _)
@[simp] theorem Dev.mirrorCopy_memOk (d x1 x2 x3) : (Dev.mirrorCopy d x1 x2 x3).memOk = d.memOk := Dev.memOk_of_tensor (Dev.mirrorCopy_tensor _ _ _ _)
@[simp] theorem Dev.egressEnqueue_memOk (d) : (Dev.egressEnqueue d).memOk = d.memOk := Dev.memOk_of_tensor (Dev.egressEnqueue_tensor _)
@[simp] theorem Dev.drrPick_memOk (d x1 x2 x3 x4 x5) : (Dev.drrPick d x1 x2 x3 x4 x5).1.memOk = d.memOk := Dev.memOk_of_tensor (Dev.drrPick_tensor _ _ _ _ _ _)
@[simp] theorem Dev.txStamp_memOk (d x1 x2) : (Dev.txStamp d x1 x2).1.memOk = d.memOk := Dev.memOk_of_tensor (Dev.txStamp_tensor _ _ _)
@[simp] theorem Dev.txStart_memOk (d x1 x2 x3 x4) : (Dev.txStart d x1 x2 x3 x4).memOk = d.memOk := Dev.memOk_of_tensor (Dev.txStart_tensor _ _ _ _ _)
@[simp] theorem Dev.promote1_memOk (d x1 x2) : (Dev.promote1 d x1 x2).memOk = d.memOk := Dev.memOk_of_tensor (Dev.promote1_tensor _ _ _)
@[simp] theorem Dev.drrExcess_memOk (d x1) : (Dev.drrExcess d x1).memOk = d.memOk := Dev.memOk_of_tensor (Dev.drrExcess_tensor _ _)
@[simp] theorem Dev.drrGuaranteed_memOk (d x1) : (Dev.drrGuaranteed d x1).memOk = d.memOk := Dev.memOk_of_tensor (Dev.drrGuaranteed_tensor _ _)
@[simp] theorem Dev.schedule_memOk (d x1) : (Dev.schedule d x1).memOk = d.memOk := Dev.memOk_of_tensor (Dev.schedule_tensor _ _)
@[simp] theorem Dev.queueStarved_memOk (d x1 x2) : (Dev.queueStarved d x1 x2).memOk = d.memOk := Dev.memOk_of_tensor (Dev.queueStarved_tensor _ _ _)
@[simp] theorem Dev.queueWrite_memOk (d x1 x2 x3) : (Dev.queueWrite d x1 x2 x3).memOk = d.memOk := Dev.memOk_of_tensor (Dev.queueWrite_tensor _ _ _ _)
@[simp] theorem Dev.txEnd_memOk (d x1) : (Dev.txEnd d x1).memOk = d.memOk := Dev.memOk_of_tensor (Dev.txEnd_tensor _ _)
@[simp] theorem Dev.freeIdle_memOk (d) : (Dev.freeIdle d).memOk = d.memOk := Dev.memOk_of_tensor (Dev.freeIdle_tensor _)
@[simp] theorem Dev.frameEndAll_memOk (d x1 x2) : (Dev.frameEndAll d x1 x2).memOk = d.memOk := Dev.memOk_of_tensor (Dev.frameEndAll_tensor _ _ _)

/-! #### Huddle -/

@[simp] theorem Dev.hudCount_memOk (d x1 x2) : (Dev.hudCount d x1 x2).memOk = d.memOk := Dev.memOk_of_tensor (Dev.hudCount_tensor _ _ _)
@[simp] theorem Dev.grpSet_memOk (d x1 x2) : (Dev.grpSet d x1 x2).memOk = d.memOk := Dev.memOk_of_tensor (Dev.grpSet_tensor _ _ _)
@[simp] theorem Dev.hudEvent_memOk (d x1 x2 x3 x4 x5) : (Dev.hudEvent d x1 x2 x3 x4 x5).memOk = d.memOk := Dev.memOk_of_tensor (Dev.hudEvent_tensor _ _ _ _ _ _)
@[simp] theorem Dev.fillBuffer_memOk (d x1 x2) (h : d.memOk = true) : (Dev.fillBuffer d x1 x2).memOk = true := by
  simp [Dev.fillBuffer, h]
@[simp] theorem Dev.snapOpen_memOk (d x1) (h : d.memOk = true) : (Dev.snapOpen d x1).memOk = true := by
  unfold Dev.snapOpen
  dsimp only
  (repeat' split) <;> simp [h]
@[simp] theorem Dev.fileValue_memOk (d x1 x2 x3 x4) : (Dev.fileValue d x1 x2 x3 x4).memOk = d.memOk := Dev.memOk_of_tensor (Dev.fileValue_tensor _ _ _ _ _)
@[simp] theorem Dev.fileValues_memOk (d x1 x2 x3) : (Dev.fileValues d x1 x2 x3).memOk = d.memOk := Dev.memOk_of_tensor (Dev.fileValues_tensor _ _ _ _)
@[simp] theorem Dev.hudCounts_memOk (d x1) : (Dev.hudCounts d x1).memOk = d.memOk := Dev.memOk_of_tensor (Dev.hudCounts_tensor _ _)
@[simp] theorem Dev.fileDrop_memOk (d x1 x2 x3) : (Dev.fileDrop d x1 x2 x3).memOk = d.memOk := Dev.memOk_of_tensor (Dev.fileDrop_tensor _ _ _ _)
@[simp] theorem Dev.filePkt_memOk (d x1) : (Dev.filePkt d x1).memOk = d.memOk := Dev.memOk_of_tensor (Dev.filePkt_tensor _ _)
@[simp] theorem Dev.takeFiles_memOk (d x1) : (Dev.takeFiles d x1).memOk = d.memOk := Dev.memOk_of_tensor (Dev.takeFiles_tensor _ _)
@[simp] theorem Dev.huddleTake_memOk (d) : (Dev.huddleTake d).memOk = d.memOk := Dev.memOk_of_tensor (Dev.huddleTake_tensor _)
@[simp] theorem Dev.writeFile_memOk (d x1) (h : d.memOk = true) : (Dev.writeFile d x1).memOk = true := by
  simp [Dev.writeFile, h]
@[simp] theorem Dev.writeFiles_memOk (d x1) (h : d.memOk = true) : (Dev.writeFiles d x1).memOk = true := by
  fun_induction Dev.writeFiles d x1 <;> simp_all +zetaDelta
@[simp] theorem Dev.filingWrite_memOk (d) (h : d.memOk = true) : (Dev.filingWrite d).memOk = true := by
  simp [Dev.filingWrite, h]
@[simp] theorem Dev.closeSnap_memOk (d g s) (h : d.memOk = true) : (Dev.closeSnap d g s).memOk = true := by
  unfold Dev.closeSnap
  dsimp only
  cases s.buf <;> simp [h]
@[simp] theorem Dev.snapClose_memOk (d x1) (h : d.memOk = true) : (Dev.snapClose d x1).memOk = true := by
  unfold Dev.snapClose
  (repeat' split) <;> simp [h]
@[simp] theorem Dev.stepGroup_memOk (d x1) : (Dev.stepGroup d x1).memOk = d.memOk := Dev.memOk_of_tensor (Dev.stepGroup_tensor _ _)
@[simp] theorem Dev.stepGroups_memOk (d x1) : (Dev.stepGroups d x1).memOk = d.memOk := Dev.memOk_of_tensor (Dev.stepGroups_tensor _ _)
@[simp] theorem Dev.resultPost_memOk (d) : (Dev.resultPost d).memOk = d.memOk := Dev.memOk_of_tensor (Dev.resultPost_tensor _)
@[simp] theorem Dev.backEntity_memOk (d x1 x2 x3 x4) : (Dev.backEntity d x1 x2 x3 x4).1.memOk = d.memOk := Dev.memOk_of_tensor (Dev.backEntity_tensor _ _ _ _ _)
@[simp] theorem Dev.backEntities_memOk (d x1 x2 x3 x4 x5) : (Dev.backEntities d x1 x2 x3 x4 x5).1.memOk = d.memOk := Dev.memOk_of_tensor (Dev.backEntities_tensor _ _ _ _ _ _)
@[simp] theorem Dev.report1_memOk (d x1 x2 x3 x4 x5 x6 x7) : (Dev.report1 d x1 x2 x3 x4 x5 x6 x7).memOk = d.memOk := Dev.memOk_of_tensor (Dev.report1_tensor _ _ _ _ _ _ _ _)
@[simp] theorem Dev.reports_memOk (d x1 x2 x3 x4 x5 x6) : (Dev.reports d x1 x2 x3 x4 x5 x6).memOk = d.memOk := Dev.memOk_of_tensor (Dev.reports_tensor _ _ _ _ _ _ _)
@[simp] theorem Dev.reportAll_memOk (d x1 x2 x3 x4 x5) : (Dev.reportAll d x1 x2 x3 x4 x5).memOk = d.memOk := Dev.memOk_of_tensor (Dev.reportAll_tensor _ _ _ _ _ _)
@[simp] theorem Dev.resultWriteback_memOk (d x1 x2) : (Dev.resultWriteback d x1 x2).memOk = d.memOk := Dev.memOk_of_tensor (Dev.resultWriteback_tensor _ _ _)
@[simp] theorem Dev.resultDeadline_memOk (d x1) : (Dev.resultDeadline d x1).memOk = d.memOk := Dev.memOk_of_tensor (Dev.resultDeadline_tensor _ _)
@[simp] theorem Dev.staleGroups_memOk (d x1 x2) : (Dev.staleGroups d x1 x2).memOk = d.memOk := Dev.memOk_of_tensor (Dev.staleGroups_tensor _ _ _)
@[simp] theorem Dev.partitionStale_memOk (d x1) : (Dev.partitionStale d x1).memOk = d.memOk := by
  simp [Dev.partitionStale]
@[simp] theorem Dev.releaseBuffers_memOk (d x1) : (Dev.releaseBuffers d x1).memOk = d.memOk := Dev.memOk_of_tensor (Dev.releaseBuffers_tensor _ _)

/-! #### Loader -/

@[simp] theorem Dev.stageFw_memOk (d x1 x2 x3) : (Dev.stageFw d x1 x2 x3).memOk = d.memOk := Dev.memOk_of_tensor (Dev.stageFw_tensor _ _ _ _)
@[simp] theorem Dev.versionCommit_memOk (d x1 x2 x3) : (Dev.versionCommit d x1 x2 x3).memOk = d.memOk := Dev.memOk_of_tensor (Dev.versionCommit_tensor _ _ _ _)

/-! #### Memory -/

@[simp] theorem Dev.loadKeys_memOk (d x1) : (Dev.loadKeys d x1).memOk = d.memOk := by
  fun_induction Dev.loadKeys d x1 <;> simp_all
@[simp] theorem Dev.storeWrite_memOk (d x1) : (Dev.storeWrite d x1).memOk = d.memOk := by
  simp [Dev.storeWrite]
@[simp] theorem Dev.msRefresh_memOk (d) : (Dev.msRefresh d).memOk = d.memOk := Dev.memOk_of_tensor (Dev.msRefresh_tensor _)
@[simp] theorem Dev.stageRefresh_memOk (d x1) : (Dev.stageRefresh d x1).memOk = d.memOk := Dev.memOk_of_tensor (Dev.stageRefresh_tensor _ _)
@[simp] theorem Dev.catalogue_memOk (d) : (Dev.catalogue d).memOk = d.memOk := by
  simp [Dev.catalogue]
@[simp] theorem Dev.stgStart_memOk (d x1) : (Dev.stgStart d x1).memOk = d.memOk := by
  simp [Dev.stgStart]
@[simp] theorem Dev.stagingPop_memOk (d x1) : (Dev.stagingPop d x1).memOk = d.memOk := by
  unfold Dev.stagingPop
  dsimp only
  (repeat' split) <;> simp
@[simp] theorem Dev.waiterServe_memOk (d x1) (h : d.memOk = true) : (Dev.waiterServe d x1).memOk = true := by
  unfold Dev.waiterServe
  dsimp only
  (repeat' split) <;> simp [h]
@[simp] theorem Dev.waitersServe_memOk (d x1 x2) (h : d.memOk = true) : (Dev.waitersServe d x1 x2).memOk = true := by
  fun_induction Dev.waitersServe d x1 x2 <;> simp_all +zetaDelta
@[simp] theorem Dev.pqPop_memOk (d x1 x2) (h : d.memOk = true) : (Dev.pqPop d x1 x2).memOk = true := by
  simp [Dev.pqPop, h]
@[simp] theorem Dev.stagingReply_memOk (d x1 x2 x3) (h : d.memOk = true) : (Dev.stagingReply d x1 x2 x3).memOk = true := by
  unfold Dev.stagingReply
  dsimp only
  (repeat' split) <;> simp [h]
@[simp] theorem Dev.zeroGr_memOk (d s b l) (h : d.memOk = true) : (Dev.zeroGr d s b l).memOk = true := by
  have hc := d.memOk_cs h
  have hh := d.memOk_hbm h
  simp only [Dev.zeroGr, Dev.memOk_mk, Bool.and_eq_true]
  exact ⟨hc, Tab.wf_keep _ hh⟩
@[simp] theorem Dev.joinShare_memOk (d p) : (Dev.joinShare d p).memOk = d.memOk := by
  unfold Dev.joinShare
  dsimp only
  split <;> simp
@[simp] theorem Dev.joinShares_memOk (d x1) : (Dev.joinShares d x1).memOk = d.memOk := by
  fun_induction Dev.joinShares d x1 <;> simp_all
@[simp] theorem Dev.scrubShare_memOk (d x1) (h : d.memOk = true) : (Dev.scrubShare d x1).memOk = true := by
  simp [Dev.scrubShare, h]
@[simp] theorem Dev.entSet_memOk (d x1 x2) : (Dev.entSet d x1 x2).memOk = d.memOk := by
  simp [Dev.entSet]
@[simp] theorem Dev.extentLeaves_memOk (d x1 x2 x3) : (Dev.extentLeaves d x1 x2 x3).memOk = d.memOk := by
  simp [Dev.extentLeaves]
@[simp] theorem Dev.shareRegs_memOk (d x1) : (Dev.shareRegs d x1).memOk = d.memOk := Dev.memOk_of_tensor (Dev.shareRegs_tensor _ _)
@[simp] theorem Dev.mirrorRebuild_memOk (d p) (h : d.memOk = true) : (Dev.mirrorRebuild d p).memOk = true := by
  have hc := d.memOk_cs h
  have hh := d.memOk_hbm h
  unfold Dev.mirrorRebuild
  dsimp only
  repeat' split
  · simp only [Dev.shareRegs_memOk, Dev.ptnSet_memOk, Dev.memOk_mk, Bool.and_eq_true]
    exact ⟨hc, Mem.mirrorCopy_wf _ _ hh⟩
  · exact h
  · exact h
@[simp] theorem Dev.coreSections_memOk (d x1 x2 x3) (h : d.memOk = true) : (Dev.coreSections d x1 x2 x3).memOk = true := by
  fun_induction Dev.coreSections d x1 x2 x3 <;> simp_all +zetaDelta
@[simp] theorem Dev.restageCore_memOk (d x1 x2) (h : d.memOk = true) : (Dev.restageCore d x1 x2).memOk = true := by
  unfold Dev.restageCore
  dsimp only
  (repeat' split) <;> simp [h]
@[simp] theorem Dev.restageCores_memOk (d x1 x2) (h : d.memOk = true) : (Dev.restageCores d x1 x2).memOk = true := by
  fun_induction Dev.restageCores d x1 x2 <;> simp_all +zetaDelta
@[simp] theorem Dev.loadImage_memOk (d x1 x2 x3) (h : d.memOk = true) : (Dev.loadImage d x1 x2 x3).memOk = true := by
  unfold Dev.loadImage
  (repeat' split) <;> simp [h]
@[simp] theorem Dev.shareSections_memOk (d x1 x2) (h : d.memOk = true) : (Dev.shareSections d x1 x2).memOk = true := by
  fun_induction Dev.shareSections d x1 x2 <;> simp_all +zetaDelta
@[simp] theorem Dev.restagePtn_memOk (d x1) (h : d.memOk = true) : (Dev.restagePtn d x1).memOk = true := by
  simp [Dev.restagePtn, h]
@[simp] theorem Dev.installUpd_memOk (d x1 x2) : (Dev.installUpd d x1 x2).memOk = d.memOk := by
  simp [Dev.installUpd]
@[simp] theorem Dev.installEnd_memOk (d x1 x2 x3 x4) : (Dev.installEnd d x1 x2 x3 x4).memOk = d.memOk := by
  simp [Dev.installEnd]
@[simp] theorem Dev.bundleInstallRun_memOk (d x1) : (Dev.bundleInstallRun d x1).memOk = d.memOk := by
  unfold Dev.bundleInstallRun
  (repeat' split) <;> simp
@[simp] theorem Dev.endBundle_memOk (d x1 x2) : (Dev.endBundle d x1 x2).memOk = d.memOk := Dev.memOk_of_tensor (Dev.endBundle_tensor _ _ _)
@[simp] theorem Dev.endBundles_memOk (d x1 x2) : (Dev.endBundles d x1 x2).memOk = d.memOk := Dev.memOk_of_tensor (Dev.endBundles_tensor _ _ _)
@[simp] theorem Dev.measChange_memOk (d x1) : (Dev.measChange d x1).memOk = d.memOk := Dev.memOk_of_tensor (Dev.measChange_tensor _ _)
theorem Dev.commitPlane_memOk {d d1 : Dev} {n g b} (h : d.commitPlane n g b = some d1) : d1.memOk = d.memOk := by
  unfold Dev.commitPlane at h
  split at h
  · rw [Option.map_eq_some_iff] at h
    obtain ⟨x, hx, rfl⟩ := h
    exact Dev.memOk_of_tensor ((Dev.commit_tensor _ _).trans ((Dev.stageSections_tensor hx).trans (Dev.endBundles_tensor _ _ _)))
  · cases h
@[simp] theorem Dev.catalogueBundle_memOk (d x1 x2 x3 x4) : (Dev.catalogueBundle d x1 x2 x3 x4).memOk = d.memOk := by
  simp [Dev.catalogueBundle]
@[simp] theorem Dev.commitCores_memOk (d : Dev) (b : Bundle) (rs : List Nat) (h : d.memOk = true) : (Dev.commitCores d b rs).memOk = true := by
  induction rs generalizing d with
  | nil => exact h
  | cons r rs ih => rw [Dev.commitCores]; exact ih _ (by split <;> simp [h])
@[simp] theorem Dev.commitImages_memOk (d : Dev) (b : Bundle) (rs : List Region) (h : d.memOk = true) : (Dev.commitImages d b rs).memOk = true := by
  induction rs generalizing d with
  | nil => exact h
  | cons r rs ih => rw [Dev.commitImages]; exact ih _ (by (repeat' split) <;> simp [h])
@[simp] theorem Dev.bundleCommit_memOk (d) (h : d.memOk = true) : (Dev.bundleCommit d).memOk = true := by
  have key : ∀ (c : Bool) (n g b) (d1 : Dev), (if c = true then d.commitPlane n g b else some d) = some d1 → d1.memOk = true := by
    intro c n g b d1 h1
    cases c
    · simp at h1; rw [← h1]; exact h
    · rw [Dev.commitPlane_memOk h1]; exact h
  unfold Dev.bundleCommit
  split
  · exact h
  · split
    · exact h
    · dsimp only
      split
      · simp [h]
      · rename_i heq
        have h1 := key _ _ _ _ _ heq
        rw [Dev.installEnd_memOk, Dev.measChange_memOk]
        refine Dev.commitImages_memOk _ _ _ (Dev.commitCores_memOk _ _ _ ?_)
        simp [h1]
@[simp] theorem Dev.bundleFree_memOk (d x1) : (Dev.bundleFree d x1).1.memOk = d.memOk := by
  unfold Dev.bundleFree
  dsimp only
  (repeat' split) <;> simp

/-! #### ErrLog -/

@[simp] theorem Dev.erlAnnounce_memOk (d x1) : (Dev.erlAnnounce d x1).memOk = d.memOk := Dev.memOk_of_tensor (Dev.erlAnnounce_tensor _ _)
@[simp] theorem Dev.newEntry_memOk (d x1) : (Dev.newEntry d x1).memOk = d.memOk := Dev.memOk_of_tensor (Dev.newEntry_tensor _ _)
@[simp] theorem Dev.erlTake_memOk (d) : (Dev.erlTake d).memOk = d.memOk := Dev.memOk_of_tensor (Dev.erlTake_tensor _)
@[simp] theorem Dev.erlClear_memOk (d x1) : (Dev.erlClear d x1).memOk = d.memOk := Dev.memOk_of_tensor (Dev.erlClear_tensor _ _)
@[simp] theorem Dev.erlIdx_memOk (d x1) : (Dev.erlIdx d x1).memOk = d.memOk := Dev.memOk_of_tensor (Dev.erlIdx_tensor _ _)

/-! #### Partition -/

@[simp] theorem Dev.wrBytes_memOk (d x1 x2 x3) : (Dev.wrBytes d x1 x2 x3).memOk = d.memOk := Dev.memOk_of_tensor (Dev.wrBytes_tensor _ _ _ _)
@[simp] theorem Dev.ptnRegs_memOk (d) : (Dev.ptnRegs d).memOk = d.memOk := Dev.memOk_of_tensor (Dev.ptnRegs_tensor _)
@[simp] theorem Dev.granuleScrubDone_memOk (d) (h : d.memOk = true) : (Dev.granuleScrubDone d).memOk = true := by
  unfold Dev.granuleScrubDone
  dsimp only
  (repeat' split) <;> simp [h]
@[simp] theorem Dev.ptnState_memOk (d x1 x2) : (Dev.ptnState d x1 x2).memOk = d.memOk := by
  simp [Dev.ptnState]
@[simp] theorem Dev.planAll_memOk (d) : (Dev.planAll d).memOk = d.memOk := by
  simp [Dev.planAll]
@[simp] theorem Dev.ptnFail_memOk (d x1 x2 x3) : (Dev.ptnFail d x1 x2 x3).memOk = d.memOk := by
  simp [Dev.ptnFail]
@[simp] theorem Dev.ptnFailAll_memOk (d x1 x2 x3) : (Dev.ptnFailAll d x1 x2 x3).memOk = d.memOk := by
  fun_induction Dev.ptnFailAll d x1 x2 x3 <;> simp_all +zetaDelta
@[simp] theorem Dev.unitLost_memOk (d x1 x2 x3 x4 x5) : (Dev.unitLost d x1 x2 x3 x4 x5).memOk = d.memOk := by
  unfold Dev.unitLost
  dsimp only
  (repeat' split) <;> simp
@[simp] theorem Dev.coresLost_memOk (d x1) : (Dev.coresLost d x1).memOk = d.memOk := by
  simp [Dev.coresLost]
@[simp] theorem Dev.coreStop_memOk (d x1) : (Dev.coreStop d x1).memOk = d.memOk := by
  simp [Dev.coreStop]
@[simp] theorem Dev.holdLost_memOk (d x1) : (Dev.holdLost d x1).memOk = d.memOk := by
  simp [Dev.holdLost]
@[simp] theorem Dev.coresGone_memOk (d x1) : (Dev.coresGone d x1).memOk = d.memOk := by
  fun_induction Dev.coresGone d x1 <;> simp_all
@[simp] theorem Dev.dieFail_memOk (d x1 x2 x3 x4) : (Dev.dieFail d x1 x2 x3 x4).memOk = d.memOk := by
  simp [Dev.dieFail]
@[simp] theorem Dev.stackStat_memOk (d x1 x2) : (Dev.stackStat d x1 x2).memOk = d.memOk := Dev.memOk_of_tensor (Dev.stackStat_tensor _ _ _)
@[simp] theorem Dev.hbmFail_memOk (d x1 x2) : (Dev.hbmFail d x1 x2).memOk = d.memOk := by
  simp [Dev.hbmFail]
@[simp] theorem Dev.hbmBurst_memOk (d x1 x2) : (Dev.hbmBurst d x1 x2).memOk = d.memOk := by
  simp [Dev.hbmBurst]
@[simp] theorem Dev.msFail_memOk (d x1) : (Dev.msFail d x1).memOk = d.memOk := by
  simp [Dev.msFail]
@[simp] theorem Dev.coreOut_memOk (d x1 x2) : (Dev.coreOut d x1 x2).memOk = d.memOk := by
  simp [Dev.coreOut]
@[simp] theorem Dev.dieBFail_memOk (d) : (Dev.dieBFail d).memOk = d.memOk := by
  simp [Dev.dieBFail]
@[simp] theorem Dev.resetCores_memOk (d x1 x2) (h : d.memOk = true) : (Dev.resetCores d x1 x2).memOk = true := by
  fun_induction Dev.resetCores d x1 x2 <;> simp_all +zetaDelta
@[simp] theorem Dev.emptyQueues_memOk (d x1) : (Dev.emptyQueues d x1).memOk = d.memOk := Dev.memOk_of_tensor (Dev.emptyQueues_tensor _ _)
@[simp] theorem Dev.resetSlices_memOk (d x1) : (Dev.resetSlices d x1).memOk = d.memOk := by
  simp [Dev.resetSlices]
@[simp] theorem Dev.ptnClear_memOk (d x1) (h : d.memOk = true) : (Dev.ptnClear d x1).memOk = true := by
  simp [Dev.ptnClear, h]
@[simp] theorem Dev.remapNotice_memOk (d x1 x2 x3 x4 x5 x6) : (Dev.remapNotice d x1 x2 x3 x4 x5 x6).memOk = d.memOk := Dev.memOk_of_tensor (Dev.remapNotice_tensor _ _ _ _ _ _ _)
@[simp] theorem Dev.giveCore_memOk (d x1 x2 x3) : (Dev.giveCore d x1 x2 x3).memOk = d.memOk := by
  simp [Dev.giveCore]
@[simp] theorem Dev.storeOut_memOk (d x1 x2) (h : d.memOk = true) : (Dev.storeOut d x1 x2).memOk = true := by
  unfold Dev.storeOut
  (repeat' split) <;> simp [h]
@[simp] theorem Dev.shareCore_memOk (d x1 x2) (h : d.memOk = true) : (Dev.shareCore d x1 x2).memOk = true := by
  unfold Dev.shareCore
  dsimp only
  (repeat' split) <;> simp [h]
@[simp] theorem Dev.shareIdle_memOk (d p c) (h : d.memOk = true) : (Dev.shareIdle d p c).memOk = true := by
  have h1 := Dev.preemptSaved_memOk (d.tenPreempt c) c (by simp [h])
  have h2 := Dev.shareCore_memOk _ p c h1
  unfold Dev.shareIdle
  dsimp only
  simp [h2]
@[simp] theorem Dev.replan_memOk (d x1 x2) (h : d.memOk = true) : (Dev.replan d x1 x2).memOk = true := by
  fun_induction Dev.replan d x1 x2 <;> simp_all +zetaDelta
@[simp] theorem Dev.ptnReset_memOk (d p) (h : d.memOk = true) : (Dev.ptnReset d p).memOk = true := by
  have h1 := Dev.ptnClear_memOk d p h
  have h2 := fun l => Dev.replan_memOk _ p l h1
  have h3 := fun l => Dev.restagePtn_memOk _ p (h2 l)
  unfold Dev.ptnReset
  dsimp only
  (repeat' split) <;> simp [h1, h2, h3]
@[simp] theorem Dev.mirrorLost_memOk (d x1 x2) : (Dev.mirrorLost d x1 x2).memOk = d.memOk := by
  simp [Dev.mirrorLost]
@[simp] theorem Dev.moveShare_memOk (d x1 x2) (h : d.memOk = true) : (Dev.moveShare d x1 x2).memOk = true := by
  unfold Dev.moveShare
  dsimp only
  (repeat' split) <;> simp [h]
@[simp] theorem Dev.stackPtns_memOk (d x1 x2) (h : d.memOk = true) : (Dev.stackPtns d x1 x2).memOk = true := by
  fun_induction Dev.stackPtns d x1 x2 <;> simp_all +zetaDelta
@[simp] theorem Dev.fenceCores_memOk (d x1) : (Dev.fenceCores d x1).memOk = d.memOk := by
  fun_induction Dev.fenceCores d x1 <;> simp_all +zetaDelta
@[simp] theorem Dev.freeLocks_memOk (d x1) : (Dev.freeLocks d x1).memOk = d.memOk := by
  fun_induction Dev.freeLocks d x1 <;> simp_all +zetaDelta
@[simp] theorem Dev.planMove_memOk (d x1 x2 x3 x4) : (Dev.planMove d x1 x2 x3 x4).1.memOk = d.memOk := by
  simp [Dev.planMove]
@[simp] theorem Dev.planMoves_memOk (d x1 x2) : (Dev.planMoves d x1 x2).1.memOk = d.memOk := by
  fun_induction Dev.planMoves d x1 x2 <;> simp_all +zetaDelta
@[simp] theorem Dev.startStates_memOk (d x1) : (Dev.startStates d x1).memOk = d.memOk := by
  fun_induction Dev.startStates d x1 <;> simp_all +zetaDelta
@[simp] theorem Dev.freeTargets_memOk (d x1) (h : d.memOk = true) : (Dev.freeTargets d x1).memOk = true := by
  fun_induction Dev.freeTargets d x1 <;> simp_all +zetaDelta
@[simp] theorem Dev.remapHolds_memOk (d) : (Dev.remapHolds d).memOk = d.memOk := Dev.memOk_of_tensor (Dev.remapHolds_tensor _)
@[simp] theorem Dev.remapStart_memOk (d) (h : d.memOk = true) : (Dev.remapStart d).memOk = true := by
  unfold Dev.remapStart
  dsimp only
  (repeat' split) <;> simp [h]
@[simp] theorem Dev.storeIn_memOk (d x1 x2) (h : d.memOk = true) : (Dev.storeIn d x1 x2).memOk = true := by
  unfold Dev.storeIn
  (repeat' split) <;> simp [h]
@[simp] theorem Dev.restart1_memOk (d x1 x2 x3) (h : d.memOk = true) : (Dev.restart1 d x1 x2 x3).memOk = true := by
  unfold Dev.restart1
  dsimp only
  (repeat' split) <;> simp [h]
@[simp] theorem Dev.restartAll_memOk (d x1 x2 x3) (h : d.memOk = true) : (Dev.restartAll d x1 x2 x3).memOk = true := by
  fun_induction Dev.restartAll d x1 x2 x3 <;> simp_all +zetaDelta
@[simp] theorem Dev.moveAgain_memOk (d x1 x2) (h : d.memOk = true) : (Dev.moveAgain d x1 x2).1.memOk = true := by
  simp [Dev.moveAgain, h]
@[simp] theorem Dev.movesAgain_memOk (d x1 x2) (h : d.memOk = true) : (Dev.movesAgain d x1 x2).1.memOk = true := by
  fun_induction Dev.movesAgain d x1 x2 <;> simp_all +zetaDelta
@[simp] theorem Dev.remapRestart_memOk (d) (h : d.memOk = true) : (Dev.remapRestart d).memOk = true := by
  unfold Dev.remapRestart
  dsimp only
  (repeat' split) <;> simp [h]
@[simp] theorem Dev.restageDone_memOk (d x1) (h : d.memOk = true) : (Dev.restageDone d x1).memOk = true := by
  simp [Dev.restageDone, h]
@[simp] theorem Dev.sliceIn_memOk (d x1 x2) (h : d.memOk = true) : (Dev.sliceIn d x1 x2).memOk = true := by
  unfold Dev.sliceIn
  (repeat' split) <;> simp [h]
@[simp] theorem Dev.timeShareSwitch_memOk (d c) (h : d.memOk = true) : (Dev.timeShareSwitch d c).memOk = true := by
  have h1 := Dev.preemptSaved_memOk (d.tenPreempt c) c (by simp [h])
  unfold Dev.timeShareSwitch
  split
  · exact h
  · rename_i t _
    have h2 := Dev.storeOut_memOk _ t.running c h1
    dsimp only
    rw [Dev.event_memOk]
    have h3 : ∀ x : PtnAll, Dev.memOk { ((d.tenPreempt c).preemptSaved c).storeOut t.running c with ptn := x } = true := by
      intro x
      rw [Dev.memOk_mk, Dev.memOk_fold]; exact h2
    have h4 := fun x => Dev.csZero_memOk _ c (h3 x)
    have h5 := fun x q => Dev.storeIn_memOk _ q c (h3 x)
    (repeat' split) <;> simp [h4, h5]

/-! #### Telemetry -/

@[simp] theorem Dev.pathSet_memOk (d x1 x2) : (Dev.pathSet d x1 x2).memOk = d.memOk := Dev.memOk_of_tensor (Dev.pathSet_tensor _ _ _)
@[simp] theorem Dev.offer_memOk (d x1 x2) : (Dev.offer d x1 x2).memOk = d.memOk := Dev.memOk_of_tensor (Dev.offer_tensor _ _ _)
@[simp] theorem Dev.teleRecord_memOk (d) : (Dev.teleRecord d).memOk = d.memOk := Dev.memOk_of_tensor (Dev.teleRecord_tensor _)
@[simp] theorem Dev.mgmtOut_memOk (d x1) : (Dev.mgmtOut d x1).memOk = d.memOk := Dev.memOk_of_tensor (Dev.mgmtOut_tensor _ _)
@[simp] theorem Dev.emitAll_memOk (d x1) : (Dev.emitAll d x1).memOk = d.memOk := Dev.memOk_of_tensor (Dev.emitAll_tensor _ _)
@[simp] theorem Dev.mgmtDrain_memOk (d) : (Dev.mgmtDrain d).memOk = d.memOk := Dev.memOk_of_tensor (Dev.mgmtDrain_tensor _)
@[simp] theorem Dev.teleDgram_memOk (d x1) : (Dev.teleDgram d x1).memOk = d.memOk := Dev.memOk_of_tensor (Dev.teleDgram_tensor _ _)
@[simp] theorem Dev.teleFirst_memOk (d x1 x2) : (Dev.teleFirst d x1 x2).memOk = d.memOk := Dev.memOk_of_tensor (Dev.teleFirst_tensor _ _ _)
@[simp] theorem Dev.alarmSend_memOk (d) : (Dev.alarmSend d).memOk = d.memOk := Dev.memOk_of_tensor (Dev.alarmSend_tensor _)
@[simp] theorem Dev.alarmsAgain_memOk (d x1) : (Dev.alarmsAgain d x1).memOk = d.memOk := Dev.memOk_of_tensor (Dev.alarmsAgain_tensor _ _)
@[simp] theorem Dev.summary_memOk (d x1) : (Dev.summary d x1).memOk = d.memOk := Dev.memOk_of_tensor (Dev.summary_tensor _ _)
@[simp] theorem Dev.pathUp_memOk (d x1) : (Dev.pathUp d x1).memOk = d.memOk := Dev.memOk_of_tensor (Dev.pathUp_tensor _ _)
@[simp] theorem Dev.pathDown_memOk (d x1) : (Dev.pathDown d x1).memOk = d.memOk := Dev.memOk_of_tensor (Dev.pathDown_tensor _ _)
@[simp] theorem Dev.portRecords_memOk (d x1) : (Dev.portRecords d x1).memOk = d.memOk := Dev.memOk_of_tensor (Dev.portRecords_tensor _ _)
@[simp] theorem Dev.ptnRecords_memOk (d x1) : (Dev.ptnRecords d x1).memOk = d.memOk := Dev.memOk_of_tensor (Dev.ptnRecords_tensor _ _)
@[simp] theorem Dev.summaryPeriod_memOk (d) : (Dev.summaryPeriod d).memOk = d.memOk := Dev.memOk_of_tensor (Dev.summaryPeriod_tensor _)
@[simp] theorem Dev.teleSend_memOk (d) : (Dev.teleSend d).memOk = d.memOk := Dev.memOk_of_tensor (Dev.teleSend_tensor _)
@[simp] theorem Dev.recvComplete_memOk (d x1) : (Dev.recvComplete d x1).memOk = d.memOk := Dev.memOk_of_tensor (Dev.recvComplete_tensor _ _)
@[simp] theorem Dev.fwTele_memOk (d x1 x2 x3 x4 x5 x6) : (Dev.fwTele d x1 x2 x3 x4 x5 x6).memOk = d.memOk := Dev.memOk_of_tensor (Dev.fwTele_tensor _ _ _ _ _ _ _)

/-! #### TimeUnit -/

@[simp] theorem Dev.tmuCount_memOk (d x1) : (Dev.tmuCount d x1).memOk = d.memOk := Dev.memOk_of_tensor (Dev.tmuCount_tensor _ _)
@[simp] theorem Dev.tmuRegs_memOk (d) : (Dev.tmuRegs d).memOk = d.memOk := Dev.memOk_of_tensor (Dev.tmuRegs_tensor _)
@[simp] theorem Dev.tmuUpd_memOk (d x1) : (Dev.tmuUpd d x1).memOk = d.memOk := Dev.memOk_of_tensor (Dev.tmuUpd_tensor _ _)
@[simp] theorem Dev.tmuState_memOk (d x1) : (Dev.tmuState d x1).memOk = d.memOk := Dev.memOk_of_tensor (Dev.tmuState_tensor _ _)
@[simp] theorem Dev.reselect_memOk (d) : (Dev.reselect d).memOk = d.memOk := Dev.memOk_of_tensor (Dev.reselect_tensor _)
@[simp] theorem Dev.foldGrowth_memOk (d) : (Dev.foldGrowth d).memOk = d.memOk := Dev.memOk_of_tensor (Dev.foldGrowth_tensor _)
@[simp] theorem Dev.setBound_memOk (d x1) : (Dev.setBound d x1).memOk = d.memOk := Dev.memOk_of_tensor (Dev.setBound_tensor _ _)
@[simp] theorem Dev.errorBound_memOk (d) : (Dev.errorBound d).memOk = d.memOk := Dev.memOk_of_tensor (Dev.errorBound_tensor _)
@[simp] theorem Dev.slewBy_memOk (d x1) : (Dev.slewBy d x1).memOk = d.memOk := Dev.memOk_of_tensor (Dev.slewBy_tensor _ _)
@[simp] theorem Dev.schedStep_memOk (d x1) : (Dev.schedStep d x1).memOk = d.memOk := Dev.memOk_of_tensor (Dev.schedStep_tensor _ _)
@[simp] theorem Dev.cancelStep_memOk (d) : (Dev.cancelStep d).memOk = d.memOk := Dev.memOk_of_tensor (Dev.cancelStep_tensor _)
@[simp] theorem Dev.boundAt_memOk (d x1 x2) : (Dev.boundAt d x1 x2).memOk = d.memOk := Dev.memOk_of_tensor (Dev.boundAt_tensor _ _ _)
@[simp] theorem Dev.noteOffset_memOk (d x1 x2 x3) : (Dev.noteOffset d x1 x2 x3).memOk = d.memOk := Dev.memOk_of_tensor (Dev.noteOffset_tensor _ _ _ _)
@[simp] theorem Dev.slewMeas_memOk (d x1) : (Dev.slewMeas d x1).memOk = d.memOk := Dev.memOk_of_tensor (Dev.slewMeas_tensor _ _)
@[simp] theorem Dev.lockMeas_memOk (d x1) : (Dev.lockMeas d x1).memOk = d.memOk := Dev.memOk_of_tensor (Dev.lockMeas_tensor _ _)
@[simp] theorem Dev.applyOffset_memOk (d x1 x2) : (Dev.applyOffset d x1 x2).memOk = d.memOk := Dev.memOk_of_tensor (Dev.applyOffset_tensor _ _ _)
@[simp] theorem Dev.utcSet_memOk (d x1) : (Dev.utcSet d x1).memOk = d.memOk := Dev.memOk_of_tensor (Dev.utcSet_tensor _ _)
@[simp] theorem Dev.ptpUtc_memOk (d) : (Dev.ptpUtc d).memOk = d.memOk := Dev.memOk_of_tensor (Dev.ptpUtc_tensor _)
@[simp] theorem Dev.goodMeas_memOk (d x1 x2 x3) : (Dev.goodMeas d x1 x2 x3).memOk = d.memOk := Dev.memOk_of_tensor (Dev.goodMeas_tensor _ _ _ _)
@[simp] theorem Dev.sourceLoss_memOk (d x1) : (Dev.sourceLoss d x1).memOk = d.memOk := Dev.memOk_of_tensor (Dev.sourceLoss_tensor _ _)
@[simp] theorem Dev.ptpMeasurement_memOk (d x1 x2 x3 x4 x5) : (Dev.ptpMeasurement d x1 x2 x3 x4 x5).memOk = d.memOk := Dev.memOk_of_tensor (Dev.ptpMeasurement_tensor _ _ _ _ _ _)
@[simp] theorem Dev.ppsIn_memOk (d x1) : (Dev.ppsIn d x1).memOk = d.memOk := Dev.memOk_of_tensor (Dev.ppsIn_tensor _ _)
@[simp] theorem Dev.irigFrame_memOk (d x1 x2) : (Dev.irigFrame d x1 x2).memOk = d.memOk := Dev.memOk_of_tensor (Dev.irigFrame_tensor _ _ _)
@[simp] theorem Dev.timeSet_memOk (d x1 x2) : (Dev.timeSet d x1 x2).1.memOk = d.memOk := Dev.memOk_of_tensor (Dev.timeSet_tensor _ _ _)
@[simp] theorem Dev.stepLand_memOk (d) : (Dev.stepLand d).memOk = d.memOk := Dev.memOk_of_tensor (Dev.stepLand_tensor _)
@[simp] theorem Dev.refLoss_memOk (d) : (Dev.refLoss d).memOk = d.memOk := Dev.memOk_of_tensor (Dev.refLoss_tensor _)
@[simp] theorem Dev.refReturn_memOk (d) : (Dev.refReturn d).memOk = d.memOk := Dev.memOk_of_tensor (Dev.refReturn_tensor _)
@[simp] theorem Dev.ppsOut_memOk (d) : (Dev.ppsOut d).memOk = d.memOk := Dev.memOk_of_tensor (Dev.ppsOut_tensor _)
@[simp] theorem Dev.ppsOutEnd_memOk (d) : (Dev.ppsOutEnd d).memOk = d.memOk := Dev.memOk_of_tensor (Dev.ppsOutEnd_tensor _)
@[simp] theorem Dev.leapSecond_memOk (d) : (Dev.leapSecond d).memOk = d.memOk := Dev.memOk_of_tensor (Dev.leapSecond_tensor _)
@[simp] theorem Dev.timeCfg_memOk (d x1 x2) : (Dev.timeCfg d x1 x2).memOk = d.memOk := Dev.memOk_of_tensor (Dev.timeCfg_tensor _ _ _)
@[simp] theorem Dev.ptpHear_memOk (d x1 x2) : (Dev.ptpHear d x1 x2).memOk = d.memOk := Dev.memOk_of_tensor (Dev.ptpHear_tensor _ _ _)
@[simp] theorem Dev.nowWord_memOk (d x1) : (Dev.nowWord d x1).1.memOk = d.memOk := Dev.memOk_of_tensor (Dev.nowWord_tensor _ _)
@[simp] theorem Dev.nowRead_memOk (d x1) : (Dev.nowRead d x1).memOk = d.memOk := Dev.memOk_of_tensor (Dev.nowRead_tensor _ _)
@[simp] theorem Dev.tick_memOk (d) : (Dev.tick d).memOk = d.memOk := Dev.memOk_of_tensor (Dev.tick_tensor _)

/-! #### Host -/

@[simp] theorem Dev.mbxSet_memOk (d x1 x2) : (Dev.mbxSet d x1 x2).memOk = d.memOk := Dev.memOk_of_tensor (Dev.mbxSet_tensor _ _ _)
@[simp] theorem Dev.dmaSet_memOk (d x1 x2 x3) : (Dev.dmaSet d x1 x2 x3).memOk = d.memOk := Dev.memOk_of_tensor (Dev.dmaSet_tensor _ _ _ _)
@[simp] theorem Dev.accFail_memOk (d x1 x2 x3 x4 x5) : (Dev.accFail d x1 x2 x3 x4 x5).memOk = d.memOk := Dev.memOk_of_tensor (Dev.accFail_tensor _ _ _ _ _ _)
@[simp] theorem Dev.readWord_memOk (d x1 x2) (h : d.memOk = true) : (Dev.readWord d x1 x2).1.memOk = true := by
  simp [Dev.readWord, h]
@[simp] theorem Dev.pairLowRead_memOk (d x1 x2 x3) (h : d.memOk = true) : (Dev.pairLowRead d x1 x2 x3).memOk = true := by
  unfold Dev.pairLowRead
  (repeat' split) <;> simp [h]
@[simp] theorem Dev.plainWrite_memOk (d x1 x2 x3 x4) : (Dev.plainWrite d x1 x2 x3 x4).memOk = d.memOk := Dev.memOk_of_tensor (Dev.plainWrite_tensor _ _ _ _ _)
@[simp] theorem Dev.stageLow_memOk (d x1 x2 x3) : (Dev.stageLow d x1 x2 x3).memOk = d.memOk := Dev.memOk_of_tensor (Dev.stageLow_tensor _ _ _ _)
@[simp] theorem Dev.pairTake_memOk (d x1 x2 x3) : (Dev.pairTake d x1 x2 x3).memOk = d.memOk := Dev.memOk_of_tensor (Dev.pairTake_tensor _ _ _ _)
@[simp] theorem Dev.pairLowWrite_memOk (d x1 x2 x3) : (Dev.pairLowWrite d x1 x2 x3).memOk = d.memOk := Dev.memOk_of_tensor (Dev.pairLowWrite_tensor _ _ _ _)
@[simp] theorem Dev.pairHighWrite_memOk (d x1 x2 x3) : (Dev.pairHighWrite d x1 x2 x3).memOk = d.memOk := Dev.memOk_of_tensor (Dev.pairHighWrite_tensor _ _ _ _)
@[simp] theorem Dev.pairWrite_memOk (d x1 x2 x3 x4) : (Dev.pairWrite d x1 x2 x3 x4).memOk = d.memOk := Dev.memOk_of_tensor (Dev.pairWrite_tensor _ _ _ _ _)
@[simp] theorem Dev.registerWrite_memOk (d x1 x2 x3 x4) (h : d.memOk = true) : (Dev.registerWrite d x1 x2 x3 x4).memOk = true := by
  fun_cases Dev.registerWrite d x1 x2 x3 x4 <;> simp_all +zetaDelta
@[simp] theorem Dev.readTimeout_memOk (d x1 x2) : (Dev.readTimeout d x1 x2).memOk = d.memOk := Dev.memOk_of_tensor (Dev.readTimeout_tensor _ _ _)
@[simp] theorem Dev.mbxEvent_memOk (d x1 x2) : (Dev.mbxEvent d x1 x2).memOk = d.memOk := Dev.memOk_of_tensor (Dev.mbxEvent_tensor _ _ _)
@[simp] theorem Dev.mbxBad_memOk (d x1) : (Dev.mbxBad d x1).memOk = d.memOk := Dev.memOk_of_tensor (Dev.mbxBad_tensor _ _)
@[simp] theorem Dev.mbxRing_memOk (d x1) : (Dev.mbxRing d x1).memOk = d.memOk := Dev.memOk_of_tensor (Dev.mbxRing_tensor _ _)
@[simp] theorem Dev.mbxDeliver_memOk (d x1 x2) : (Dev.mbxDeliver d x1 x2).memOk = d.memOk := Dev.memOk_of_tensor (Dev.mbxDeliver_tensor _ _ _)
@[simp] theorem Dev.mbxRack_memOk (d x1) : (Dev.mbxRack d x1).memOk = d.memOk := Dev.memOk_of_tensor (Dev.mbxRack_tensor _ _)
@[simp] theorem Dev.mbxRespond_memOk (d x1 x2 x3 x4 x5) : (Dev.mbxRespond d x1 x2 x3 x4 x5).memOk = d.memOk := Dev.memOk_of_tensor (Dev.mbxRespond_tensor _ _ _ _ _ _)
@[simp] theorem Dev.mbxTake_memOk (d x1) : (Dev.mbxTake d x1).memOk = d.memOk := Dev.memOk_of_tensor (Dev.mbxTake_tensor _ _)
@[simp] theorem Dev.answer_memOk (d x1 x2 x3 x4) : (Dev.answer d x1 x2 x3 x4).memOk = d.memOk := Dev.memOk_of_tensor (Dev.answer_tensor _ _ _ _ _)
@[simp] theorem Dev.messageSegment_memOk (d x1) : (Dev.messageSegment d x1).memOk = d.memOk := Dev.memOk_of_tensor (Dev.messageSegment_tensor _ _)
@[simp] theorem Dev.hello_memOk (d x1) : (Dev.hello d x1).memOk = d.memOk := Dev.memOk_of_tensor (Dev.hello_tensor _ _)
@[simp] theorem Dev.bundleInstall_memOk (d) : (Dev.bundleInstall d).memOk = d.memOk := by
  unfold Dev.bundleInstall
  dsimp only
  (repeat' split) <;> simp
@[simp] theorem Dev.bundleStatus_memOk (d) : (Dev.bundleStatus d).memOk = d.memOk := Dev.memOk_of_tensor (Dev.bundleStatus_tensor _)
@[simp] theorem Dev.bundleFreeMsg_memOk (d) : (Dev.bundleFreeMsg d).memOk = d.memOk := by
  unfold Dev.bundleFreeMsg
  dsimp only
  (repeat' split) <;> simp
@[simp] theorem Dev.ptnResetMsg_memOk (d x1) (h : d.memOk = true) : (Dev.ptnResetMsg d x1).memOk = true := by
  unfold Dev.ptnResetMsg
  dsimp only
  (repeat' split) <;> simp [h]
@[simp] theorem Dev.coreCtrl_memOk (d : Dev) (n op : Nat) (f : Dev → Nat → Nat → Nat → Dev) (hd : d.memOk = true)
    (h : ∀ e x y z, e.memOk = true → (f e x y z).memOk = true) : (d.coreCtrl n op f).memOk = true := by
  unfold Dev.coreCtrl
  dsimp only
  repeat' split
  all_goals simp [h, hd]
@[simp] theorem Dev.coreSetHeld_memOk (d x1 x2 x3) : (Dev.coreSetHeld d x1 x2 x3).memOk = d.memOk := Dev.memOk_of_tensor (Dev.coreSetHeld_tensor _ _ _ _)
@[simp] theorem Dev.coreSetPc_memOk (d n) (h : d.memOk = true) : (Dev.coreSetPc d n).memOk = true := by
  refine Dev.coreCtrl_memOk _ _ _ _ h ?_
  intro e x y z he
  (repeat' split) <;> simp [he]
@[simp] theorem Dev.coreSetSave_memOk (d x1) : (Dev.coreSetSave d x1).memOk = d.memOk := Dev.memOk_of_tensor (Dev.coreSetSave_tensor _ _)
@[simp] theorem Dev.coreRun_memOk (d n) (h : d.memOk = true) : (Dev.coreRun d n).memOk = true := by
  refine Dev.coreCtrl_memOk _ _ _ _ h ?_
  intro e x y z he
  (repeat' split) <;> simp [he]
@[simp] theorem Dev.corePreempt_memOk (d n) (h : d.memOk = true) : (Dev.corePreempt d n).memOk = true := by
  refine Dev.coreCtrl_memOk _ _ _ _ h ?_
  intro e x y z he
  (repeat' split) <;> simp [he]
@[simp] theorem Dev.coreResume_memOk (d n) (h : d.memOk = true) : (Dev.coreResume d n).memOk = true := by
  refine Dev.coreCtrl_memOk _ _ _ _ h ?_
  intro e x y z he
  (repeat' split) <;> simp [he]
@[simp] theorem Dev.coreReset_memOk (d n) (h : d.memOk = true) : (Dev.coreReset d n).memOk = true := by
  refine Dev.coreCtrl_memOk _ _ _ _ h ?_
  intro e x y z he
  (repeat' split) <;> simp [he]
@[simp] theorem Dev.directGrant_memOk (d) : (Dev.directGrant d).memOk = d.memOk := Dev.memOk_of_tensor (Dev.directGrant_tensor _)
@[simp] theorem Dev.dmaqCreate_memOk (d x1) : (Dev.dmaqCreate d x1).memOk = d.memOk := Dev.memOk_of_tensor (Dev.dmaqCreate_tensor _ _)
@[simp] theorem Dev.dmaqDestroy_memOk (d x1) : (Dev.dmaqDestroy d x1).memOk = d.memOk := Dev.memOk_of_tensor (Dev.dmaqDestroy_tensor _ _)
@[simp] theorem Dev.sqDoorbell_memOk (d x1 x2 x3) : (Dev.sqDoorbell d x1 x2 x3).memOk = d.memOk := Dev.memOk_of_tensor (Dev.sqDoorbell_tensor _ _ _ _)
@[simp] theorem Dev.cqHeadWrite_memOk (d x1 x2 x3) : (Dev.cqHeadWrite d x1 x2 x3).memOk = d.memOk := Dev.memOk_of_tensor (Dev.cqHeadWrite_tensor _ _ _ _)
@[simp] theorem Dev.dmaWrite_memOk (d x1 x2 x3 x4 x5 x6) (h : d.memOk = true) : (Dev.dmaWrite d x1 x2 x3 x4 x5 x6).memOk = true := by
  simp [Dev.dmaWrite, h]
@[simp] theorem Dev.dmaRecv_memOk (d x1 x2) : (Dev.dmaRecv d x1 x2).memOk = d.memOk := Dev.memOk_of_tensor (Dev.dmaRecv_tensor _ _ _)
@[simp] theorem Dev.dmaComplete_memOk (d x1 x2) : (Dev.dmaComplete d x1 x2).memOk = d.memOk := Dev.memOk_of_tensor (Dev.dmaComplete_tensor _ _ _)
@[simp] theorem Dev.msixDeliver_memOk (d x1 x2) : (Dev.msixDeliver d x1 x2).memOk = d.memOk := Dev.memOk_of_tensor (Dev.msixDeliver_tensor _ _ _)
@[simp] theorem Dev.headLoad_memOk (d) : (Dev.headLoad d).memOk = d.memOk := Dev.memOk_of_tensor (Dev.headLoad_tensor _)
@[simp] theorem Dev.fnReset_memOk (d x1) : (Dev.fnReset d x1).memOk = d.memOk := Dev.memOk_of_tensor (Dev.fnReset_tensor _ _)
@[simp] theorem Dev.fnResets_memOk (d x1) : (Dev.fnResets d x1).memOk = d.memOk := Dev.memOk_of_tensor (Dev.fnResets_tensor _ _)
@[simp] theorem Dev.pfFlr_memOk (d) : (Dev.pfFlr d).memOk = d.memOk := by
  simp [Dev.pfFlr]
@[simp] theorem Dev.hotReset_memOk (d) : (Dev.hotReset d).memOk = d.memOk := by
  simp [Dev.hotReset]
@[simp] theorem Dev.perst_memOk (d) : (Dev.perst d).memOk = d.memOk := by
  simp [Dev.perst]
@[simp] theorem Dev.vfFlr_memOk (d x1) (h : d.memOk = true) : (Dev.vfFlr d x1).memOk = true := by
  simp [Dev.vfFlr, h]
@[simp] theorem Dev.linkTrained_memOk (d x1 x2 x3) : (Dev.linkTrained d x1 x2 x3).memOk = d.memOk := Dev.memOk_of_tensor (Dev.linkTrained_tensor _ _ _ _)
@[simp] theorem Dev.configWrite_memOk (d x1) : (Dev.configWrite d x1).memOk = d.memOk := Dev.memOk_of_tensor (Dev.configWrite_tensor _ _)
@[simp] theorem Dev.doeDiscovery_memOk (d x1) : (Dev.doeDiscovery d x1).memOk = d.memOk := Dev.memOk_of_tensor (Dev.doeDiscovery_tensor _ _)

/-! #### SecOps -/

@[simp] theorem Dev.secRegs_memOk (d) : (Dev.secRegs d).memOk = d.memOk := Dev.memOk_of_tensor (Dev.secRegs_tensor _)
@[simp] theorem Dev.measSel_memOk (d x1) : (Dev.measSel d x1).memOk = d.memOk := Dev.memOk_of_tensor (Dev.measSel_tensor _ _)
@[simp] theorem Dev.pkSel_memOk (d x1) : (Dev.pkSel d x1).memOk = d.memOk := Dev.memOk_of_tensor (Dev.pkSel_tensor _ _)
@[simp] theorem Dev.ptnResets_memOk (d x1) (h : d.memOk = true) : (Dev.ptnResets d x1).memOk = true := by
  fun_induction Dev.ptnResets d x1 <;> simp_all +zetaDelta
@[simp] theorem Dev.shareScrubs_memOk (d x1) (h : d.memOk = true) : (Dev.shareScrubs d x1).memOk = true := by
  fun_induction Dev.shareScrubs d x1 <;> simp_all +zetaDelta
@[simp] theorem Dev.bundlesGone_memOk (d x1) : (Dev.bundlesGone d x1).memOk = d.memOk := by
  simp [Dev.bundlesGone]
@[simp] theorem Dev.rekeyGang_memOk (d x1) (h : d.memOk = true) : (Dev.rekeyGang d x1).memOk = true := by
  simp [Dev.rekeyGang, h]
@[simp] theorem Dev.rekeyAll_memOk (d x1) (h : d.memOk = true) : (Dev.rekeyAll d x1).memOk = true := by
  fun_induction Dev.rekeyAll d x1 <;> simp_all +zetaDelta
@[simp] theorem Dev.lifeDone_memOk (d x1 x2) : (Dev.lifeDone d x1 x2).memOk = d.memOk := Dev.memOk_of_tensor (Dev.lifeDone_tensor _ _ _)
@[simp] theorem Dev.burn_memOk (d x1) : (Dev.burn d x1).memOk = d.memOk := Dev.memOk_of_tensor (Dev.burn_tensor _ _)
@[simp] theorem Dev.keysIn_memOk (d) : (Dev.keysIn d).memOk = d.memOk := by
  simp [Dev.keysIn]
@[simp] theorem Dev.provision_memOk (d) : (Dev.provision d).memOk = d.memOk := Dev.memOk_of_tensor (Dev.provision_tensor _)
@[simp] theorem Dev.deploy_memOk (d) (h : d.memOk = true) : (Dev.deploy d).memOk = true := by
  simp [Dev.deploy, h]
@[simp] theorem Dev.return__memOk (d) (h : d.memOk = true) : (Dev.return_ d).memOk = true := by
  simp [Dev.return_, h]
@[simp] theorem Dev.rekey_memOk (d x1) (h : d.memOk = true) : (Dev.rekey d x1).memOk = true := by
  simp [Dev.rekey, h]
@[simp] theorem Dev.commitSvn_memOk (d) : (Dev.commitSvn d).memOk = d.memOk := Dev.memOk_of_tensor (Dev.commitSvn_tensor _)
@[simp] theorem Dev.revokeSlot_memOk (d x1) : (Dev.revokeSlot d x1).memOk = d.memOk := Dev.memOk_of_tensor (Dev.revokeSlot_tensor _ _)
@[simp] theorem Dev.portsOff_memOk (d x1) : (Dev.portsOff d x1).memOk = d.memOk := Dev.memOk_of_tensor (Dev.portsOff_tensor _ _)
@[simp] theorem Dev.mbxDrop_memOk (d) : (Dev.mbxDrop d).memOk = d.memOk := Dev.memOk_of_tensor (Dev.mbxDrop_tensor _)
@[simp] theorem Dev.decommission_memOk (d) (h : d.memOk = true) : (Dev.decommission d).memOk = true := by
  simp [Dev.decommission, h]

/-! #### PowerLoop -/

@[simp] theorem Dev.dieFld_memOk (d x1 x2 x3 x4) : (Dev.dieFld d x1 x2 x3 x4).memOk = d.memOk := Dev.memOk_of_tensor (Dev.dieFld_tensor _ _ _ _ _)
@[simp] theorem Dev.kRequest_memOk (d x1 x2) : (Dev.kRequest d x1 x2).memOk = d.memOk := Dev.memOk_of_tensor (Dev.kRequest_tensor _ _ _)
@[simp] theorem Dev.kForce_memOk (d x1 x2) : (Dev.kForce d x1 x2).memOk = d.memOk := Dev.memOk_of_tensor (Dev.kForce_tensor _ _ _)
@[simp] theorem Dev.tclkStep_memOk (d x1) : (Dev.tclkStep d x1).memOk = d.memOk := Dev.memOk_of_tensor (Dev.tclkStep_tensor _ _)
@[simp] theorem Dev.tclkSteps_memOk (d x1) : (Dev.tclkSteps d x1).memOk = d.memOk := Dev.memOk_of_tensor (Dev.tclkSteps_tensor _ _)
@[simp] theorem Dev.hbmLimSet_memOk (d x1) : (Dev.hbmLimSet d x1).memOk = d.memOk := Dev.memOk_of_tensor (Dev.hbmLimSet_tensor _ _)
@[simp] theorem Dev.msLimSet_memOk (d x1) : (Dev.msLimSet d x1).memOk = d.memOk := Dev.memOk_of_tensor (Dev.msLimSet_tensor _ _)
@[simp] theorem Dev.stepPart_memOk (d x1 x2) : (Dev.stepPart d x1 x2).memOk = d.memOk := Dev.memOk_of_tensor (Dev.stepPart_tensor _ _ _)
@[simp] theorem Dev.reduceWalk_memOk (d x1 x2 x3 x4 x5) : (Dev.reduceWalk d x1 x2 x3 x4 x5).1.memOk = d.memOk := Dev.memOk_of_tensor (Dev.reduceWalk_tensor _ _ _ _ _ _)
@[simp] theorem Dev.ceilWalk_memOk (d x1) : (Dev.ceilWalk d x1).1.memOk = d.memOk := Dev.memOk_of_tensor (Dev.ceilWalk_tensor _ _)
@[simp] theorem Dev.raiseOne_memOk (d x1 x2 x3) : (Dev.raiseOne d x1 x2 x3).memOk = d.memOk := Dev.memOk_of_tensor (Dev.raiseOne_tensor _ _ _ _)
@[simp] theorem Dev.railFail_memOk (d x1) : (Dev.railFail d x1).memOk = d.memOk := Dev.memOk_of_tensor (Dev.railFail_tensor _ _)
@[simp] theorem Dev.railOk_memOk (d x1) : (Dev.railOk d x1).memOk = d.memOk := Dev.memOk_of_tensor (Dev.railOk_tensor _ _)
@[simp] theorem Dev.railReads_memOk (d x1) : (Dev.railReads d x1).memOk = d.memOk := Dev.memOk_of_tensor (Dev.railReads_tensor _ _)
@[simp] theorem Dev.pwrStat_memOk (d x1 x2 x3 x4) : (Dev.pwrStat d x1 x2 x3 x4).memOk = d.memOk := Dev.memOk_of_tensor (Dev.pwrStat_tensor _ _ _ _ _)
@[simp] theorem Dev.pwrHot_memOk (d) : (Dev.pwrHot d).memOk = d.memOk := Dev.memOk_of_tensor (Dev.pwrHot_tensor _)
@[simp] theorem Dev.powerLoop_memOk (d x1 x2) : (Dev.powerLoop d x1 x2).memOk = d.memOk := Dev.memOk_of_tensor (Dev.powerLoop_tensor _ _ _)
@[simp] theorem Dev.thermalLoop_memOk (d x1) : (Dev.thermalLoop d x1).memOk = d.memOk := Dev.memOk_of_tensor (Dev.thermalLoop_tensor _ _)
@[simp] theorem Dev.holdB_memOk (d x1) : (Dev.holdB d x1).memOk = d.memOk := Dev.memOk_of_tensor (Dev.holdB_tensor _ _)
@[simp] theorem Dev.hwThrottle_memOk (d x1 x2) : (Dev.hwThrottle d x1 x2).memOk = d.memOk := Dev.memOk_of_tensor (Dev.hwThrottle_tensor _ _ _)
@[simp] theorem Dev.hwShutdown_memOk (d x1 x2) : (Dev.hwShutdown d x1 x2).memOk = d.memOk := by
  simp [Dev.hwShutdown]
@[simp] theorem Dev.loopLoss_memOk (d) : (Dev.loopLoss d).memOk = d.memOk := Dev.memOk_of_tensor (Dev.loopLoss_tensor _)
@[simp] theorem Dev.kRaise_memOk (d x1) : (Dev.kRaise d x1).memOk = d.memOk := Dev.memOk_of_tensor (Dev.kRaise_tensor _ _)
@[simp] theorem Dev.setFreq_memOk (d x1 x2) : (Dev.setFreq d x1 x2).memOk = d.memOk := Dev.memOk_of_tensor (Dev.setFreq_tensor _ _ _)

/-! #### Dict -/

@[simp] theorem Dev.sessSet_memOk (d x1 x2) : (Dev.sessSet d x1 x2).memOk = d.memOk := Dev.memOk_of_tensor (Dev.sessSet_tensor _ _ _)
@[simp] theorem Dev.sessUpd_memOk (d x1 x2) : (Dev.sessUpd d x1 x2).memOk = d.memOk := Dev.memOk_of_tensor (Dev.sessUpd_tensor _ _ _)
@[simp] theorem Dev.tokenFail_memOk (d x1 x2 x3) : (Dev.tokenFail d x1 x2 x3).memOk = d.memOk := Dev.memOk_of_tensor (Dev.tokenFail_tensor _ _ _ _)
@[simp] theorem Dev.templateBuild_memOk (d x1 x2 x3) : (Dev.templateBuild d x1 x2 x3).memOk = d.memOk := Dev.memOk_of_tensor (Dev.templateBuild_tensor _ _ _ _)
@[simp] theorem Dev.storeImage_memOk (d x1 x2) : (Dev.storeImage d x1 x2).1.memOk = d.memOk := Dev.memOk_of_tensor (Dev.storeImage_tensor _ _ _)
@[simp] theorem Dev.macsecRow_memOk (d x1 x2) : (Dev.macsecRow d x1 x2).memOk = d.memOk := Dev.memOk_of_tensor (Dev.macsecRow_tensor _ _ _)
@[simp] theorem Dev.lifeOp_memOk (d x1) (h : d.memOk = true) : (Dev.lifeOp d x1).memOk = true := by
  simp [Dev.lifeOp, h]
@[simp] theorem Dev.keepValue_memOk (d x1 x2 x3 x4 x5) : (Dev.keepValue d x1 x2 x3 x4 x5).memOk = d.memOk := Dev.memOk_of_tensor (Dev.keepValue_tensor _ _ _ _ _ _)
@[simp] theorem Dev.dictCommit_memOk (d x1 x2 x3 x4 x5 x6 x7) (h : d.memOk = true) : (Dev.dictCommit d x1 x2 x3 x4 x5 x6 x7).1.memOk = true := by
  simp [Dev.dictCommit, h]
@[simp] theorem Dev.dictWrite_memOk (d x1 x2 x3 x4 x5 x6) (h : d.memOk = true) : (Dev.dictWrite d x1 x2 x3 x4 x5 x6).1.memOk = true := by
  unfold Dev.dictWrite
  dsimp only
  (repeat' split) <;> simp [h]
@[simp] theorem Dev.applyWords_memOk (d x1 x2 x3) : (Dev.applyWords d x1 x2 x3).memOk = d.memOk := Dev.memOk_of_tensor (Dev.applyWords_tensor _ _ _ _)
@[simp] theorem Dev.applyPort_memOk (d x1 x2) : (Dev.applyPort d x1 x2).memOk = d.memOk := Dev.memOk_of_tensor (Dev.applyPort_tensor _ _ _)
@[simp] theorem Dev.applyPorts_memOk (d x1) : (Dev.applyPorts d x1).memOk = d.memOk := Dev.memOk_of_tensor (Dev.applyPorts_tensor _ _)
@[simp] theorem Dev.splitChange_memOk (d x1 x2) : (Dev.splitChange d x1 x2).memOk = d.memOk := Dev.memOk_of_tensor (Dev.splitChange_tensor _ _ _)
@[simp] theorem Dev.applyKey_memOk (d x1) : (Dev.applyKey d x1).memOk = d.memOk := Dev.memOk_of_tensor (Dev.applyKey_tensor _ _)
@[simp] theorem Dev.settingApply_memOk (d) : (Dev.settingApply d).memOk = d.memOk := Dev.memOk_of_tensor (Dev.settingApply_tensor _)
@[simp] theorem Dev.applyAll_memOk (d x1) : (Dev.applyAll d x1).memOk = d.memOk := Dev.memOk_of_tensor (Dev.applyAll_tensor _ _)

/-! #### Transports -/

@[simp] theorem Dev.dictReadMsg_memOk (d x1) : (Dev.dictReadMsg d x1).memOk = d.memOk := Dev.memOk_of_tensor (Dev.dictReadMsg_tensor _ _)
@[simp] theorem Dev.dictWriteMsg_memOk (d x1 x2) (h : d.memOk = true) : (Dev.dictWriteMsg d x1 x2).memOk = true := by
  unfold Dev.dictWriteMsg
  dsimp only
  (repeat' split) <;> simp [h]
@[simp] theorem Dev.segment_memOk (d x1) : (Dev.segment d x1).memOk = d.memOk := Dev.memOk_of_tensor (Dev.segment_tensor _ _)
@[simp] theorem Dev.canPath_memOk (d) : (Dev.canPath d).memOk = d.memOk := Dev.memOk_of_tensor (Dev.canPath_tensor _)
@[simp] theorem Dev.sdoSay_memOk (d x1) : (Dev.sdoSay d x1).memOk = d.memOk := Dev.memOk_of_tensor (Dev.sdoSay_tensor _ _)
@[simp] theorem Dev.sdoAbort_memOk (d x1 x2 x3) : (Dev.sdoAbort d x1 x2 x3).memOk = d.memOk := Dev.memOk_of_tensor (Dev.sdoAbort_tensor _ _ _ _)
@[simp] theorem Dev.sessEnd_memOk (d x1) : (Dev.sessEnd d x1).memOk = d.memOk := Dev.memOk_of_tensor (Dev.sessEnd_tensor _ _)
@[simp] theorem Dev.sdoCommit_memOk (d x1 x2 x3 x4 x5) (h : d.memOk = true) : (Dev.sdoCommit d x1 x2 x3 x4 x5).memOk = true := by
  simp [Dev.sdoCommit, h]
@[simp] theorem Dev.sdoDown_memOk (d x1 x2) (h : d.memOk = true) : (Dev.sdoDown d x1 x2).memOk = true := by
  unfold Dev.sdoDown
  dsimp only
  (repeat' split) <;> simp [h]
@[simp] theorem Dev.sdoBlock_memOk (d x1 x2 x3) : (Dev.sdoBlock d x1 x2 x3).memOk = d.memOk := Dev.memOk_of_tensor (Dev.sdoBlock_tensor _ _ _ _)
@[simp] theorem Dev.sdoUp_memOk (d x1) : (Dev.sdoUp d x1).memOk = d.memOk := Dev.memOk_of_tensor (Dev.sdoUp_tensor _ _)
@[simp] theorem Dev.usdoServe_memOk (d x1 x2 x3) (h : d.memOk = true) : (Dev.usdoServe d x1 x2 x3).memOk = true := by
  unfold Dev.usdoServe
  dsimp only
  (repeat' split) <;> simp [h]
@[simp] theorem Dev.udpSay_memOk (d x1 x2 x3) : (Dev.udpSay d x1 x2 x3).memOk = d.memOk := Dev.memOk_of_tensor (Dev.udpSay_tensor _ _ _ _)
@[simp] theorem Dev.udpGet_memOk (d x1 x2) : (Dev.udpGet d x1 x2).memOk = d.memOk := Dev.memOk_of_tensor (Dev.udpGet_tensor _ _ _)
@[simp] theorem Dev.udpPut_memOk (d x1 x2 x3) (h : d.memOk = true) : (Dev.udpPut d x1 x2 x3).memOk = true := by
  unfold Dev.udpPut
  dsimp only
  (repeat' split) <;> simp [h]
@[simp] theorem Dev.udpServe_memOk (d x1 x2 x3) (h : d.memOk = true) : (Dev.udpServe d x1 x2 x3).memOk = true := by
  unfold Dev.udpServe
  dsimp only
  (repeat' split) <;> simp [h]
@[simp] theorem Dev.heldServe_memOk (d x1) (h : d.memOk = true) : (Dev.heldServe d x1).memOk = true := by
  unfold Dev.heldServe
  (repeat' split) <;> simp [h]
@[simp] theorem Dev.heldAll_memOk (d x1) (h : d.memOk = true) : (Dev.heldAll d x1).memOk = true := by
  fun_induction Dev.heldAll d x1 <;> simp_all +zetaDelta
@[simp] theorem Dev.request_memOk (d x1) (h : d.memOk = true) : (Dev.request d x1).memOk = true := by
  simp [Dev.request, h]
@[simp] theorem Dev.sdoDownload_memOk (d x1 x2) (h : d.memOk = true) : (Dev.sdoDownload d x1 x2).memOk = true := by
  simp [Dev.sdoDownload, h]
@[simp] theorem Dev.sdoUpload_memOk (d x1) (h : d.memOk = true) : (Dev.sdoUpload d x1).memOk = true := by
  simp [Dev.sdoUpload, h]
@[simp] theorem Dev.usdoTransfer_memOk (d x1 x2 x3) (h : d.memOk = true) : (Dev.usdoTransfer d x1 x2 x3).memOk = true := by
  simp [Dev.usdoTransfer, h]
@[simp] theorem Dev.sdoTimeout_memOk (d x1) : (Dev.sdoTimeout d x1).memOk = d.memOk := Dev.memOk_of_tensor (Dev.sdoTimeout_tensor _ _)
@[simp] theorem Dev.nmtSet_memOk (d x1) : (Dev.nmtSet d x1).memOk = d.memOk := Dev.memOk_of_tensor (Dev.nmtSet_tensor _ _)
@[simp] theorem Dev.canStart_memOk (d) : (Dev.canStart d).memOk = d.memOk := Dev.memOk_of_tensor (Dev.canStart_tensor _)
@[simp] theorem Dev.nmtReset_memOk (d) : (Dev.nmtReset d).memOk = d.memOk := Dev.memOk_of_tensor (Dev.nmtReset_tensor _)
@[simp] theorem Dev.heartbeat_memOk (d) : (Dev.heartbeat d).memOk = d.memOk := Dev.memOk_of_tensor (Dev.heartbeat_tensor _)
@[simp] theorem Dev.canError_memOk (d x1 x2) : (Dev.canError d x1 x2).memOk = d.memOk := Dev.memOk_of_tensor (Dev.canError_tensor _ _ _)
@[simp] theorem Dev.udpTimeout_memOk (d x1) : (Dev.udpTimeout d x1).memOk = d.memOk := Dev.memOk_of_tensor (Dev.udpTimeout_tensor _ _)
@[simp] theorem Dev.usbFail_memOk (d x1 x2 x3) : (Dev.usbFail d x1 x2 x3).memOk = d.memOk := Dev.memOk_of_tensor (Dev.usbFail_tensor _ _ _ _)
@[simp] theorem Dev.usbGate_memOk (d : Dev) (i s : Nat) (go : Dev) (hd : d.memOk = true) (h : go.memOk = true) : (d.usbGate i s go).memOk = true := by
  unfold Dev.usbGate
  (repeat' split) <;> simp [h, hd]
@[simp] theorem Dev.usbRead_memOk (d x1 x2 x3 x4) : (Dev.usbRead d x1 x2 x3 x4).memOk = d.memOk := Dev.memOk_of_tensor (Dev.usbRead_tensor _ _ _ _ _)
@[simp] theorem Dev.usbWrite_memOk (d x1 x2 x3 x4) : (Dev.usbWrite d x1 x2 x3 x4).memOk = d.memOk := Dev.memOk_of_tensor (Dev.usbWrite_tensor _ _ _ _ _)
@[simp] theorem Dev.usbWriteLast_memOk (d x1 x2 x3 x4 x5 x6) (h : d.memOk = true) : (Dev.usbWriteLast d x1 x2 x3 x4 x5 x6).memOk = true := by
  unfold Dev.usbWriteLast
  dsimp only
  (repeat' split) <;> simp [h]
@[simp] theorem Dev.usbResult_memOk (d) : (Dev.usbResult d).memOk = d.memOk := Dev.memOk_of_tensor (Dev.usbResult_tensor _)
@[simp] theorem Dev.usbReset_memOk (d) : (Dev.usbReset d).memOk = d.memOk := Dev.memOk_of_tensor (Dev.usbReset_tensor _)
@[simp] theorem Dev.tokenExpire_memOk (d x1) : (Dev.tokenExpire d x1).memOk = d.memOk := Dev.memOk_of_tensor (Dev.tokenExpire_tensor _ _)
@[simp] theorem Dev.writeVia_memOk (d x1 x2 x3 x4 x5 x6) (h : d.memOk = true) : (Dev.writeVia d x1 x2 x3 x4 x5 x6).memOk = true := by
  unfold Dev.writeVia
  dsimp only
  (repeat' split) <;> simp [h]
@[simp] theorem Dev.pathRise_memOk (d x1) : (Dev.pathRise d x1).memOk = d.memOk := Dev.memOk_of_tensor (Dev.pathRise_tensor _ _)
@[simp] theorem Dev.pathFall_memOk (d x1) : (Dev.pathFall d x1).memOk = d.memOk := Dev.memOk_of_tensor (Dev.pathFall_tensor _ _)
@[simp] theorem Dev.mgmtFrame_memOk (d x1) : (Dev.mgmtFrame d x1).memOk = d.memOk := Dev.memOk_of_tensor (Dev.mgmtFrame_tensor _ _)
@[simp] theorem Dev.puntDone_memOk (d x1 x2) : (Dev.puntDone d x1 x2).memOk = d.memOk := Dev.memOk_of_tensor (Dev.puntDone_tensor _ _ _)
@[simp] theorem Dev.slowSend_memOk (d x1 x2 x3 x4) : (Dev.slowSend d x1 x2 x3 x4).memOk = d.memOk := Dev.memOk_of_tensor (Dev.slowSend_tensor _ _ _ _ _)

/-! #### Firmware -/

@[simp] theorem Dev.imageRefused_memOk (d x1) : (Dev.imageRefused d x1).memOk = d.memOk := Dev.memOk_of_tensor (Dev.imageRefused_tensor _ _)
@[simp] theorem Dev.fwLoad_memOk (d x1) : (Dev.fwLoad d x1).memOk = d.memOk := Dev.memOk_of_tensor (Dev.fwLoad_tensor _ _)
@[simp] theorem Dev.fwUpdate_memOk (d x1) : (Dev.fwUpdate d x1).memOk = d.memOk := Dev.memOk_of_tensor (Dev.fwUpdate_tensor _ _)
@[simp] theorem Dev.fwNotice_memOk (d x1 x2 x3) : (Dev.fwNotice d x1 x2 x3).memOk = d.memOk := Dev.memOk_of_tensor (Dev.fwNotice_tensor _ _ _ _)
@[simp] theorem Dev.setHeld_memOk (d x1) : (Dev.setHeld d x1).memOk = d.memOk := Dev.memOk_of_tensor (Dev.setHeld_tensor _ _)
@[simp] theorem Dev.quiesce_memOk (d) : (Dev.quiesce d).memOk = d.memOk := Dev.memOk_of_tensor (Dev.quiesce_tensor _)
@[simp] theorem Dev.imageSwap_memOk (d x1 x2) : (Dev.imageSwap d x1 x2).memOk = d.memOk := Dev.memOk_of_tensor (Dev.imageSwap_tensor _ _ _)
@[simp] theorem Dev.exportRecs_memOk (d) : (Dev.exportRecs d).memOk = d.memOk := Dev.memOk_of_tensor (Dev.exportRecs_tensor _)
@[simp] theorem Dev.compFresh_memOk (d x1) : (Dev.compFresh d x1).memOk = d.memOk := by
  simp [Dev.compFresh]
@[simp] theorem Dev.importRec_memOk (d x1) : (Dev.importRec d x1).memOk = d.memOk := by
  unfold Dev.importRec
  (repeat' split) <;> simp
@[simp] theorem Dev.importRecs_memOk (d x1) : (Dev.importRecs d x1).memOk = d.memOk := by
  fun_induction Dev.importRecs d x1 <;> simp_all
@[simp] theorem Dev.updateAnswer_memOk (d x1) : (Dev.updateAnswer d x1).memOk = d.memOk := Dev.memOk_of_tensor (Dev.updateAnswer_tensor _ _)
@[simp] theorem Dev.pauseEnd_memOk (d x1) (h : d.memOk = true) : (Dev.pauseEnd d x1).memOk = true := by
  simp [Dev.pauseEnd, h]
@[simp] theorem Dev.resumeUpdate_memOk (d) (h : d.memOk = true) : (Dev.resumeUpdate d).memOk = true := by
  unfold Dev.resumeUpdate
  dsimp only
  (repeat' split) <;> simp [h]
@[simp] theorem Dev.abandonUpdate_memOk (d x1) (h : d.memOk = true) : (Dev.abandonUpdate d x1).memOk = true := by
  simp [Dev.abandonUpdate, h]
@[simp] theorem Dev.switchImage_memOk (d x1) (h : d.memOk = true) : (Dev.switchImage d x1).memOk = true := by
  unfold Dev.switchImage
  (repeat' split) <;> simp [h]
@[simp] theorem Dev.dropTransfers_memOk (d) : (Dev.dropTransfers d).memOk = d.memOk := Dev.memOk_of_tensor (Dev.dropTransfers_tensor _)
@[simp] theorem Dev.compRestart_memOk (d x1) : (Dev.compRestart d x1).memOk = d.memOk := by
  simp [Dev.compRestart]
@[simp] theorem Dev.watchdog_memOk (d x1) : (Dev.watchdog d x1).memOk = d.memOk := by
  simp [Dev.watchdog]
@[simp] theorem Dev.protFault_memOk (d x1 x2) : (Dev.protFault d x1 x2).memOk = d.memOk := by
  simp [Dev.protFault]
@[simp] theorem Dev.protWrite_memOk (d x1 x2) : (Dev.protWrite d x1 x2).memOk = d.memOk := by
  simp [Dev.protWrite]
@[simp] theorem Dev.managementReset_memOk (d) : (Dev.managementReset d).memOk = d.memOk := by
  simp [Dev.managementReset]
@[simp] theorem Dev.retainedWrite_memOk (d) : (Dev.retainedWrite d).memOk = d.memOk := Dev.memOk_of_tensor (Dev.retainedWrite_tensor _)
@[simp] theorem Dev.assignAll_memOk (d x1) : (Dev.assignAll d x1).memOk = d.memOk := Dev.memOk_of_tensor (Dev.assignAll_tensor _ _)
@[simp] theorem Dev.buildMap_memOk (d b) (h : d.memOk = true) : (Dev.buildMap d b).memOk = true := by
  have hc := d.memOk_cs h
  unfold Dev.buildMap
  dsimp only
  simp only [Dev.remapHolds_memOk, Dev.ptnRegs_memOk, Dev.planAll_memOk, Dev.assignAll_memOk, Dev.wrN_memOk]
  split
  · rw [Dev.report_memOk, Dev.memOk_mk, Bool.and_eq_true]
    exact ⟨hc, rfl⟩
  · rw [Dev.memOk_mk, Bool.and_eq_true]
    exact ⟨hc, rfl⟩
@[simp] theorem Dev.bundleKeep_memOk (d) : (Dev.bundleKeep d).memOk = d.memOk := by
  simp [Dev.bundleKeep]
@[simp] theorem Dev.bundleStage_memOk (d n) (bs : List Bundle) : (Dev.bundleStage d n bs).memOk = d.memOk := by
  induction bs generalizing d with
  | nil => rfl
  | cons b bs ih =>
    have h : ∀ s, ((d.stageSections b.ptn n s).getD d).memOk = d.memOk := by
      intro s
      cases hs : d.stageSections b.ptn n s with
      | none => rfl
      | some x => exact Dev.memOk_of_tensor (Dev.stageSections_tensor hs)
    unfold Dev.bundleStage
    dsimp only
    rw [ih, Dev.memOk_mk, Dev.memOk_fold, h]
@[simp] theorem Dev.bundleRestore_memOk (d) : (Dev.bundleRestore d).memOk = d.memOk := by
  simp [Dev.bundleRestore]
@[simp] theorem Dev.savedPart_memOk (d x1 x2) : (Dev.savedPart d x1 x2).memOk = d.memOk := Dev.memOk_of_tensor (Dev.savedPart_tensor _ _ _)
@[simp] theorem Dev.erlBack_memOk (d x1) : (Dev.erlBack d x1).memOk = d.memOk := Dev.memOk_of_tensor (Dev.erlBack_tensor _ _)
@[simp] theorem Dev.saveLogs_memOk (d x1) : (Dev.saveLogs d x1).memOk = d.memOk := Dev.memOk_of_tensor (Dev.saveLogs_tensor _ _)
@[simp] theorem Dev.saveValues_memOk (d x1) : (Dev.saveValues d x1).memOk = d.memOk := Dev.memOk_of_tensor (Dev.saveValues_tensor _ _)
@[simp] theorem Dev.reportParts_memOk (d x1) : (Dev.reportParts d x1).memOk = d.memOk := Dev.memOk_of_tensor (Dev.reportParts_tensor _ _)
@[simp] theorem Dev.saveBad_memOk (d x1) : (Dev.saveBad d x1).memOk = d.memOk := Dev.memOk_of_tensor (Dev.saveBad_tensor _ _)
@[simp] theorem Dev.saveTake_memOk (d) : (Dev.saveTake d).memOk = d.memOk := Dev.memOk_of_tensor (Dev.saveTake_tensor _)
@[simp] theorem Dev.dictLoad_memOk (d) : (Dev.dictLoad d).memOk = d.memOk := Dev.memOk_of_tensor (Dev.dictLoad_tensor _)
@[simp] theorem Dev.dictRestore_memOk (d) : (Dev.dictRestore d).memOk = d.memOk := Dev.memOk_of_tensor (Dev.dictRestore_tensor _)
@[simp] theorem Dev.arraysFail_memOk (d x1) : (Dev.arraysFail d x1).memOk = d.memOk := Dev.memOk_of_tensor (Dev.arraysFail_tensor _ _)
@[simp] theorem Dev.arrayTest_memOk (d x1) : (Dev.arrayTest d x1).memOk = d.memOk := Dev.memOk_of_tensor (Dev.arrayTest_tensor _ _)
@[simp] theorem Dev.quadsFail_memOk (d x1) : (Dev.quadsFail d x1).memOk = d.memOk := Dev.memOk_of_tensor (Dev.quadsFail_tensor _ _)
@[simp] theorem Dev.startSequence_memOk (d x1) (h : d.memOk = true) : (Dev.startSequence d x1).memOk = true := by
  simp [Dev.startSequence, h]
@[simp] theorem Dev.partitionRestage_memOk (d) (h : d.memOk = true) : (Dev.partitionRestage d).memOk = true := by
  unfold Dev.partitionRestage
  (repeat' split) <;> simp [h]

/-! #### Security -/

@[simp] theorem Dev.spdmSay_memOk (d x1) : (Dev.spdmSay d x1).memOk = d.memOk := Dev.memOk_of_tensor (Dev.spdmSay_tensor _ _)
@[simp] theorem Dev.spdmErr_memOk (d x1 x2) : (Dev.spdmErr d x1 x2).memOk = d.memOk := Dev.memOk_of_tensor (Dev.spdmErr_tensor _ _ _)
@[simp] theorem Dev.spdmAnswer_memOk (d x1 x2) : (Dev.spdmAnswer d x1 x2).memOk = d.memOk := Dev.memOk_of_tensor (Dev.spdmAnswer_tensor _ _ _)
@[simp] theorem Dev.draw_memOk (d x1) : (Dev.draw d x1).2.memOk = d.memOk := Dev.memOk_of_tensor (Dev.draw_tensor _ _)
@[simp] theorem Dev.spdmGate_memOk (d : Dev) (sid : Option Nat) (req : List Byte) (len need : Nat) (go : Dev) (hd : d.memOk = true) (h : go.memOk = true) : (d.spdmGate sid req len need go).memOk = true := by
  unfold Dev.spdmGate
  (repeat' split) <;> simp [h, hd]
@[simp] theorem Dev.spdmSigned_memOk (d x1 x2) : (Dev.spdmSigned d x1 x2).memOk = d.memOk := Dev.memOk_of_tensor (Dev.spdmSigned_tensor _ _ _)
@[simp] theorem Dev.spdmSign_memOk (d x1 x2 x3 x4) : (Dev.spdmSign d x1 x2 x3 x4).memOk = d.memOk := Dev.memOk_of_tensor (Dev.spdmSign_tensor _ _ _ _ _)
@[simp] theorem Dev.getVersion_memOk (d x1) : (Dev.getVersion d x1).memOk = d.memOk := Dev.memOk_of_tensor (Dev.getVersion_tensor _ _)
@[simp] theorem Dev.getCapabilities_memOk (d x1) : (Dev.getCapabilities d x1).memOk = d.memOk := Dev.memOk_of_tensor (Dev.getCapabilities_tensor _ _)
@[simp] theorem Dev.negotiate_memOk (d x1) : (Dev.negotiate d x1).memOk = d.memOk := Dev.memOk_of_tensor (Dev.negotiate_tensor _ _)
@[simp] theorem Dev.getDigests_memOk (d x1 x2) : (Dev.getDigests d x1 x2).memOk = d.memOk := Dev.memOk_of_tensor (Dev.getDigests_tensor _ _ _)
@[simp] theorem Dev.getCertificate_memOk (d x1 x2) : (Dev.getCertificate d x1 x2).memOk = d.memOk := Dev.memOk_of_tensor (Dev.getCertificate_tensor _ _ _)
@[simp] theorem Dev.spdmChallenge_memOk (d x1 x2) : (Dev.spdmChallenge d x1 x2).memOk = d.memOk := Dev.memOk_of_tensor (Dev.spdmChallenge_tensor _ _ _)
@[simp] theorem Dev.getMeasurements_memOk (d x1 x2) : (Dev.getMeasurements d x1 x2).memOk = d.memOk := Dev.memOk_of_tensor (Dev.getMeasurements_tensor _ _ _)
@[simp] theorem Dev.keyExchange_memOk (d x1 x2) : (Dev.keyExchange d x1 x2).memOk = d.memOk := Dev.memOk_of_tensor (Dev.keyExchange_tensor _ _ _)
@[simp] theorem Dev.spdmFinish_memOk (d x1 x2) : (Dev.spdmFinish d x1 x2).memOk = d.memOk := Dev.memOk_of_tensor (Dev.spdmFinish_tensor _ _ _)
@[simp] theorem Dev.spdmHeartbeat_memOk (d x1 x2) : (Dev.spdmHeartbeat d x1 x2).memOk = d.memOk := Dev.memOk_of_tensor (Dev.spdmHeartbeat_tensor _ _ _)
@[simp] theorem Dev.endSession_memOk (d x1 x2) : (Dev.endSession d x1 x2).memOk = d.memOk := Dev.memOk_of_tensor (Dev.endSession_tensor _ _ _)
@[simp] theorem Dev.vendorRequest_memOk (d x1 x2) : (Dev.vendorRequest d x1 x2).memOk = d.memOk := Dev.memOk_of_tensor (Dev.vendorRequest_tensor _ _ _)
@[simp] theorem Dev.newChallenge_memOk (d) : (Dev.newChallenge d).memOk = d.memOk := Dev.memOk_of_tensor (Dev.newChallenge_tensor _)
@[simp] theorem Dev.debugUnlock_memOk (d x1) : (Dev.debugUnlock d x1).memOk = d.memOk := Dev.memOk_of_tensor (Dev.debugUnlock_tensor _ _)
@[simp] theorem Dev.tapReset_memOk (d) : (Dev.tapReset d).memOk = d.memOk := by
  simp [Dev.tapReset]
@[simp] theorem Dev.txanRecord_memOk (d x1 x2) : (Dev.txanRecord d x1 x2).memOk = d.memOk := Dev.memOk_of_tensor (Dev.txanRecord_tensor _ _ _)
@[simp] theorem Dev.pnwarn_memOk (d x1) : (Dev.pnwarn d x1).memOk = d.memOk := Dev.memOk_of_tensor (Dev.pnwarn_tensor _ _)

/-! #### Power -/

@[simp] theorem Dev.boardBad_memOk (d) : (Dev.boardBad d).memOk = d.memOk := Dev.memOk_of_tensor (Dev.boardBad_tensor _)
@[simp] theorem Dev.cold_memOk (d) : (Dev.cold d).memOk = true := by
  unfold Dev.cold
  rw [Dev.memOk_mk]; rfl
@[simp] theorem Dev.bootRegs_memOk (d) : (Dev.bootRegs d).memOk = d.memOk := Dev.memOk_of_tensor (Dev.bootRegs_tensor _)
@[simp] theorem Dev.resetWord_memOk (d x1 x2 x3) : (Dev.resetWord d x1 x2 x3).memOk = d.memOk := Dev.memOk_of_tensor (Dev.resetWord_tensor _ _ _ _)
@[simp] theorem Dev.boot_memOk (d x1 x2) (h : d.memOk = true) : (Dev.boot d x1 x2).memOk = true := by
  simp [Dev.boot, h]
@[simp] theorem Dev.porstRise_memOk (d x1) (h : d.memOk = true) : (Dev.porstRise d x1).memOk = true := by
  simp [Dev.porstRise, h]
@[simp] theorem Dev.vholdRise_memOk (d x1) (h : d.memOk = true) : (Dev.vholdRise d x1).memOk = true := by
  simp [Dev.vholdRise, h]
@[simp] theorem Dev.saveSkip_memOk (d) : (Dev.saveSkip d).memOk = d.memOk := Dev.memOk_of_tensor (Dev.saveSkip_tensor _)
@[simp] theorem Dev.saveBegin_memOk (d x1) : (Dev.saveBegin d x1).memOk = d.memOk := Dev.memOk_of_tensor (Dev.saveBegin_tensor _ _)
@[simp] theorem Dev.sagTrigger_memOk (d x1) : (Dev.sagTrigger d x1).memOk = d.memOk := Dev.memOk_of_tensor (Dev.sagTrigger_tensor _ _)
@[simp] theorem Dev.warmReset_memOk (d x1) (h : d.memOk = true) : (Dev.warmReset d x1).memOk = true := by
  simp [Dev.warmReset, h]
@[simp] theorem Dev.warmRequest_memOk (d x1) (h : d.memOk = true) : (Dev.warmRequest d x1).memOk = true := by
  simp [Dev.warmRequest, h]
@[simp] theorem Dev.pwrWarm_memOk (d x1) (h : d.memOk = true) : (Dev.pwrWarm d x1).memOk = true := by
  simp [Dev.pwrWarm, h]
@[simp] theorem Dev.jtagWarm_memOk (d) (h : d.memOk = true) : (Dev.jtagWarm d).memOk = true := by
  simp [Dev.jtagWarm, h]
@[simp] theorem Dev.saveDone_memOk (d x1) (h : d.memOk = true) : (Dev.saveDone d x1).memOk = true := by
  unfold Dev.saveDone
  dsimp only
  (repeat' split) <;> simp [h]
@[simp] theorem Dev.sagRestart_memOk (d x1) (h : d.memOk = true) : (Dev.sagRestart d x1).memOk = true := by
  simp [Dev.sagRestart, h]
@[simp] theorem Dev.pgoodFall_memOk (d x1 x2) : (Dev.pgoodFall d x1 x2).memOk = d.memOk := by
  simp [Dev.pgoodFall]
@[simp] theorem Dev.netDefect_memOk (d x1) : (Dev.netDefect d x1).memOk = d.memOk := by
  unfold Dev.netDefect
  dsimp only
  (repeat' split) <;> simp
@[simp] theorem Dev.failsafeTry_memOk (d) : (Dev.failsafeTry d).memOk = d.memOk := Dev.memOk_of_tensor (Dev.failsafeTry_tensor _)

/-! #### Exec -/

@[simp] theorem Dev.hostDo_memOk (d : Dev) (w : Req) (f : Dev → Dev) (h : d.memOk = true) (hf : (f d).memOk = true) : (d.hostDo w f).memOk = true := by
  unfold Dev.hostDo
  (repeat' split) <;> simp [h, hf]
@[simp] theorem Dev.fnDo_memOk (d : Dev) (w : Option Nat) (f : Dev → Dev) (h : d.memOk = true) (hf : (f d).memOk = true) : (d.fnDo w f).memOk = true := by
  unfold Dev.fnDo
  (repeat' split) <;> simp [h, hf]
@[simp] theorem Dev.blockDo_memOk (d : Dev) (w : Req) (f : Dev → Dev) (h : d.memOk = true) (hf : (f d).memOk = true) : (d.blockDo w f).memOk = true := by
  unfold Dev.blockDo
  split
  · exact h
  · exact Dev.hostDo_memOk d w f h hf
@[simp] theorem Dev.fwDo_memOk (d : Dev) (f : Dev → Dev) (h : d.memOk = true) (hf : (f d).memOk = true) : (d.fwDo f).memOk = true := by
  unfold Dev.fwDo
  (repeat' split) <;> simp [h, hf]
@[simp] theorem Dev.linkDo_memOk (d : Dev) (f : Dev → Dev) (h : d.memOk = true) (hf : (f d).memOk = true) : (d.linkDo f).memOk = true := by
  unfold Dev.linkDo
  (repeat' split) <;> simp [h, hf]
@[simp] theorem Dev.vfDo_memOk (d : Dev) (n : Nat) (f : Dev → Dev) (h : d.memOk = true) (hf : (f d).memOk = true) : (d.vfDo n f).memOk = true := by
  unfold Dev.vfDo
  (repeat' split) <;> simp [h, hf]
@[simp] theorem Dev.idle_memOk (d) : (Dev.idle d).memOk = d.memOk := Dev.memOk_of_tensor (Dev.idle_tensor _)
@[simp] theorem Dev.writeDo_memOk (d : Dev) (w : Req) (k : Nat) (b : Bool) (f : Dev → Dev) (h : d.memOk = true) (hf : (f d).memOk = true) :
    (d.writeDo w k b f).memOk = true := by
  unfold Dev.writeDo
  split
  · split
    · rw [Dev.protFault_memOk]; exact h
    · exact Dev.hostDo_memOk d _ f h hf
  · exact Dev.hostDo_memOk d w f h hf
@[simp] theorem Dev.blockWriteDo_memOk (d : Dev) (w : Req) (k : Nat) (f : Dev → Dev) (h : d.memOk = true) (hf : (f d).memOk = true) :
    (d.blockWriteDo w k f).memOk = true := by
  unfold Dev.blockWriteDo
  split
  · exact h
  · exact Dev.writeDo_memOk d w k true f h hf

end Sys2Proof
end

