-- ==== Sys2Proof/Laws/HostRest.lean ====
section
/-! SUPPORT. Every function of the machine that leaves the host interface, its pending MSI-X raises apart, as it was says so. -/

namespace Sys2Proof

@[simp] theorem Dev.hostRest_fold (d : Dev) : HostIf.mk d.host.pfHead d.host.vfHead d.host.mbx d.host.dma d.host.rlatch d.host.wlatch d.host.nowLatch [] d.host.msixEn d.host.bme d.host.mse
    d.host.vfEnable d.host.numVfs d.host.linkUp d.host.direct = d.hostRest := by unfold Dev.hostRest; rfl
@[simp] theorem Dev.hostRest_mk (now free alive regs pqRegs host erl tel tmu cat pq lck ptn core mem flow store dict fw sec pwr out) : (Dev.mk now free alive regs pqRegs host erl tel tmu cat pq lck ptn core mem flow store dict fw sec pwr out).hostRest = { host with pba := [] } := by unfold Dev.hostRest; rfl
@[simp] theorem Dev.hostRest_ite (c : Prop) [Decidable c] (a b : Dev) : (if c then a else b).hostRest = if c then a.hostRest else b.hostRest := by split <;> rfl
@[simp] theorem Dev.hostRest_ite1 {α : Type} (c : Prop) [Decidable c] (a b : Dev × α) : (if c then a else b).1.hostRest = if c then a.1.hostRest else b.1.hostRest := by split <;> rfl
@[simp] theorem Dev.hostRest_ite2 {α : Type} (c : Prop) [Decidable c] (a b : α × Dev) : (if c then a else b).2.hostRest = if c then a.2.hostRest else b.2.hostRest := by split <;> rfl
@[simp] theorem Dev.hostRest_foldl {α : Type} (f : Dev → α → Dev) (l : List α) (d : Dev) (h : ∀ e x, (f e x).hostRest = e.hostRest) : (l.foldl f d).hostRest = d.hostRest := by
  induction l generalizing d with
  | nil => rfl
  | cons a l ih => simp [ih, h]

/-! #### Ops -/

@[simp] theorem Dev.wr_hostRest (d x1 x2) : (Dev.wr d x1 x2).hostRest = d.hostRest := by
  simp [Dev.wr]
@[simp] theorem Dev.wrN_hostRest (d x1 x2) : (Dev.wrN d x1 x2).hostRest = d.hostRest := by
  simp [Dev.wrN]
@[simp] theorem Dev.count_hostRest (d x1 x2) : (Dev.count d x1 x2).hostRest = d.hostRest := by
  simp [Dev.count]
@[simp] theorem Dev.wr64_hostRest (d x1 x2) : (Dev.wr64 d x1 x2).hostRest = d.hostRest := by
  simp [Dev.wr64]
@[simp] theorem Dev.count64_hostRest (d x1 x2) : (Dev.count64 d x1 x2).hostRest = d.hostRest := by
  simp [Dev.count64]
@[simp] theorem Dev.regsReset_hostRest (d x1 x2) : (Dev.regsReset d x1 x2).hostRest = d.hostRest := by
  simp [Dev.regsReset]
@[simp] theorem Dev.emit_hostRest (d x1) : (Dev.emit d x1).hostRest = d.hostRest := by
  simp [Dev.emit]
@[simp] theorem Dev.drawN_hostRest (d) : (Dev.drawN d).2.hostRest = d.hostRest := by
  simp [Dev.drawN]
@[simp] theorem Dev.drawB_hostRest (d) : (Dev.drawB d).2.hostRest = d.hostRest := by
  simp [Dev.drawB]
@[simp] theorem Dev.msixRaise_hostRest (d x1 x2) : (Dev.msixRaise d x1 x2).hostRest = d.hostRest := by
  simp [Dev.msixRaise]
@[simp] theorem Dev.teleMake_hostRest (d x1 x2 x3 x4 x5 x6) : (Dev.teleMake d x1 x2 x3 x4 x5 x6).hostRest = d.hostRest := by
  simp [Dev.teleMake]
@[simp] theorem Dev.event_hostRest (d x1 x2) : (Dev.event d x1 x2).hostRest = d.hostRest := by
  unfold Dev.event
  (repeat' split) <;> simp
@[simp] theorem Dev.events_hostRest (d x1 x2) : (Dev.events d x1 x2).hostRest = d.hostRest := by
  fun_induction Dev.events d x1 x2 <;> simp_all
@[simp] theorem Dev.enableWrite_hostRest (d x1 x2) : (Dev.enableWrite d x1 x2).hostRest = d.hostRest := by
  unfold Dev.enableWrite
  (repeat' split) <;> simp
@[simp] theorem Dev.alarmSet_hostRest (d x1 x2 x3 x4 x5) : (Dev.alarmSet d x1 x2 x3 x4 x5).hostRest = d.hostRest := by
  simp [Dev.alarmSet]
@[simp] theorem Dev.erlLost_hostRest (d x1) : (Dev.erlLost d x1).hostRest = d.hostRest := by
  simp [Dev.erlLost]
@[simp] theorem Dev.reportE_hostRest (d x1) : (Dev.reportE d x1).hostRest = d.hostRest := by
  unfold Dev.reportE
  (repeat' split) <;> simp
@[simp] theorem Dev.report_hostRest (d x1 x2 x3 x4 x5) : (Dev.report d x1 x2 x3 x4 x5).hostRest = d.hostRest := by
  simp [Dev.report]
@[simp] theorem Dev.catPut_hostRest (d x1) : (Dev.catPut d x1).hostRest = d.hostRest := by
  simp [Dev.catPut]
@[simp] theorem Dev.notice_hostRest (d x1 x2 x3) : (Dev.notice d x1 x2 x3).hostRest = d.hostRest := by
  simp [Dev.notice]
@[simp] theorem Dev.pqSet_hostRest (d x1 x2) : (Dev.pqSet d x1 x2).hostRest = d.hostRest := by
  simp [Dev.pqSet]
@[simp] theorem Dev.pqPush_hostRest (d x1 x2 x3) : (Dev.pqPush d x1 x2 x3).1.hostRest = d.hostRest := by
  unfold Dev.pqPush
  dsimp only
  (repeat' split) <;> simp_all
@[simp] theorem Dev.pqEmpty_hostRest (d x1) : (Dev.pqEmpty d x1).hostRest = d.hostRest := by
  simp [Dev.pqEmpty]
@[simp] theorem Dev.lckSet_hostRest (d x1 x2) : (Dev.lckSet d x1 x2).hostRest = d.hostRest := by
  simp [Dev.lckSet]
@[simp] theorem Dev.lckAcquire_hostRest (d x1 x2 x3) : (Dev.lckAcquire d x1 x2 x3).1.hostRest = d.hostRest := by
  fun_cases Dev.lckAcquire d x1 x2 x3 <;> simp_all
@[simp] theorem Dev.lckRelease_hostRest (d x1 x2) : (Dev.lckRelease d x1 x2).hostRest = d.hostRest := by
  simp [Dev.lckRelease]
@[simp] theorem Dev.lckForce_hostRest (d x1 x2) : (Dev.lckForce d x1 x2).hostRest = d.hostRest := by
  simp [Dev.lckForce]
@[simp] theorem Dev.lckForceList_hostRest (d x1 x2) : (Dev.lckForceList d x1 x2).hostRest = d.hostRest := by
  fun_induction Dev.lckForceList d x1 x2 <;> simp_all
@[simp] theorem Dev.lckForceOwner_hostRest (d x1 x2) : (Dev.lckForceOwner d x1 x2).hostRest = d.hostRest := by
  simp [Dev.lckForceOwner]
@[simp] theorem Dev.ptnSet_hostRest (d x1 x2) : (Dev.ptnSet d x1 x2).hostRest = d.hostRest := by
  simp [Dev.ptnSet]
@[simp] theorem Dev.accErr_hostRest (d x1 x2 x3 x4 x5) : (Dev.accErr d x1 x2 x3 x4 x5).hostRest = d.hostRest := by
  unfold Dev.accErr
  (repeat' split) <;> simp
@[simp] theorem Dev.accLog_hostRest (d x1 x2 x3) : (Dev.accLog d x1 x2 x3).hostRest = d.hostRest := by
  simp [Dev.accLog]

/-! #### DieB -/

@[simp] theorem Dev.ringEvent_hostRest (d x1 x2) : (Dev.ringEvent d x1 x2).hostRest = d.hostRest := by
  simp [Dev.ringEvent]
@[simp] theorem Dev.ringWrite_hostRest (d x1) : (Dev.ringWrite d x1).hostRest = d.hostRest := by
  simp [Dev.ringWrite]
@[simp] theorem Dev.catUnhold_hostRest (d x1) : (Dev.catUnhold d x1).hostRest = d.hostRest := by
  unfold Dev.catUnhold
  (repeat' split) <;> simp
@[simp] theorem Dev.catTake_hostRest (d) : (Dev.catTake d).1.hostRest = d.hostRest := by
  unfold Dev.catTake
  (repeat' split) <;> simp
@[simp] theorem Dev.catRtail_hostRest (d x1 x2 x3) : (Dev.catRtail d x1 x2 x3).hostRest = d.hostRest := by
  unfold Dev.catRtail
  (repeat' split) <;> simp
@[simp] theorem Dev.ringClear_hostRest (d x1) : (Dev.ringClear d x1).hostRest = d.hostRest := by
  simp [Dev.ringClear]
@[simp] theorem Dev.pqCfg_hostRest (d x1 x2 x3 x4 x5) : (Dev.pqCfg d x1 x2 x3 x4 x5).hostRest = d.hostRest := by
  simp [Dev.pqCfg]
@[simp] theorem Dev.pqLatch_hostRest (d x1 x2 x3) : (Dev.pqLatch d x1 x2 x3).hostRest = d.hostRest := by
  simp [Dev.pqLatch]
@[simp] theorem Dev.pqDenied_hostRest (d x1 x2 x3 x4) : (Dev.pqDenied d x1 x2 x3 x4).hostRest = d.hostRest := by
  unfold Dev.pqDenied
  (repeat' split) <;> simp
@[simp] theorem Dev.pqPushCtl_hostRest (d x1 x2 x3) : (Dev.pqPushCtl d x1 x2 x3).hostRest = d.hostRest := by
  simp [Dev.pqPushCtl]
@[simp] theorem Dev.pqPopWord_hostRest (d x1 x2) : (Dev.pqPopWord d x1 x2).1.hostRest = d.hostRest := by
  unfold Dev.pqPopWord
  dsimp only
  (repeat' split) <;> simp
@[simp] theorem Dev.pqPopCtl_hostRest (d x1 x2) : (Dev.pqPopCtl d x1 x2).hostRest = d.hostRest := by
  unfold Dev.pqPopCtl
  dsimp only
  (repeat' split) <;> simp
@[simp] theorem Dev.lckAcqWord_hostRest (d x1 x2) : (Dev.lckAcqWord d x1 x2).1.hostRest = d.hostRest := by
  simp [Dev.lckAcqWord]
@[simp] theorem Dev.lckAcqRead_hostRest (d x1 x2) : (Dev.lckAcqRead d x1 x2).hostRest = d.hostRest := by
  simp [Dev.lckAcqRead]
@[simp] theorem Dev.lckAcqWrite_hostRest (d x1 x2) : (Dev.lckAcqWrite d x1 x2).hostRest = d.hostRest := by
  unfold Dev.lckAcqWrite
  (repeat' split) <;> simp
@[simp] theorem Dev.lckForceWrite_hostRest (d x1 x2) : (Dev.lckForceWrite d x1 x2).hostRest = d.hostRest := by
  unfold Dev.lckForceWrite
  (repeat' split) <;> simp

/-! #### Tensor -/

@[simp] theorem Dev.csWrite_hostRest (d x1 x2 x3) : (Dev.csWrite d x1 x2 x3).hostRest = d.hostRest := by
  simp [Dev.csWrite]
@[simp] theorem Dev.csZero_hostRest (d x1) : (Dev.csZero d x1).hostRest = d.hostRest := by
  simp [Dev.csZero]
@[simp] theorem Dev.shWrite_hostRest (d x1 x2 x3) : (Dev.shWrite d x1 x2 x3).hostRest = d.hostRest := by
  simp [Dev.shWrite]
@[simp] theorem Dev.shFromCore_hostRest (d x1 x2 x3 x4 x5) : (Dev.shFromCore d x1 x2 x3 x4 x5).hostRest = d.hostRest := by
  unfold Dev.shFromCore
  (repeat' split) <;> simp
@[simp] theorem Dev.coreFromSh_hostRest (d x1 x2 x3 x4 x5) : (Dev.coreFromSh d x1 x2 x3 x4 x5).hostRest = d.hostRest := by
  unfold Dev.coreFromSh
  (repeat' split) <;> simp
@[simp] theorem Dev.reportFree_hostRest (d x1 x2 x3) : (Dev.reportFree d x1 x2 x3).hostRest = d.hostRest := by
  simp [Dev.reportFree]
@[simp] theorem Dev.hbmEcc_hostRest (d x1 x2 x3) : (Dev.hbmEcc d x1 x2 x3).hostRest = d.hostRest := by
  unfold Dev.hbmEcc
  (repeat' split) <;> simp
@[simp] theorem Dev.msEcc_hostRest (d x1 x2 x3) : (Dev.msEcc d x1 x2 x3).hostRest = d.hostRest := by
  unfold Dev.msEcc
  (repeat' split) <;> simp
@[simp] theorem Dev.shEcc_hostRest (d x1 x2) : (Dev.shEcc d x1 x2).hostRest = d.hostRest := by
  simp [Dev.shEcc]
@[simp] theorem Dev.coreSet_hostRest (d x1 x2) : (Dev.coreSet d x1 x2).hostRest = d.hostRest := by
  simp [Dev.coreSet]
@[simp] theorem Dev.coreUpd_hostRest (d x1 x2) : (Dev.coreUpd d x1 x2).hostRest = d.hostRest := by
  simp [Dev.coreUpd]
@[simp] theorem Dev.setPc_hostRest (d x1 x2) : (Dev.setPc d x1 x2).hostRest = d.hostRest := by
  simp [Dev.setPc]
@[simp] theorem Dev.tally_hostRest (d x1 x2) : (Dev.tally d x1 x2).hostRest = d.hostRest := by
  simp [Dev.tally]
@[simp] theorem Dev.afterPost_hostRest (d x1 x2 x3) : (Dev.afterPost d x1 x2 x3).hostRest = d.hostRest := by
  simp [Dev.afterPost]
@[simp] theorem Dev.corePost_hostRest (d x1 x2 x3) : (Dev.corePost d x1 x2 x3).hostRest = d.hostRest := by
  unfold Dev.corePost
  (repeat' split) <;> simp
@[simp] theorem Dev.complete_hostRest (d x1 x2 x3 x4 x5) : (Dev.complete d x1 x2 x3 x4 x5).hostRest = d.hostRest := by
  simp [Dev.complete]
@[simp] theorem Dev.afterWait_hostRest (d x1 x2 x3) : (Dev.afterWait d x1 x2 x3).hostRest = d.hostRest := by
  unfold Dev.afterWait
  (repeat' split) <;> simp
@[simp] theorem Dev.releaseFree_hostRest (d x1 x2) : (Dev.releaseFree d x1 x2).hostRest = d.hostRest := by
  fun_induction Dev.releaseFree d x1 x2 <;> simp_all
@[simp] theorem Dev.release_hostRest (d x1) : (Dev.release d x1).hostRest = d.hostRest := by
  unfold Dev.release
  (repeat' split) <;> simp
@[simp] theorem Dev.catRecord_hostRest (d x1) : (Dev.catRecord d x1).hostRest = d.hostRest := by
  simp [Dev.catRecord]
@[simp] theorem Dev.catTakeOne_hostRest (d) : (Dev.catTakeOne d).hostRest = d.hostRest := by
  have h := Dev.catTake_hostRest d
  unfold Dev.catTakeOne
  split <;> rename_i heq <;> rw [heq] at h
  · split <;> simpa using h
  · exact h
@[simp] theorem Dev.unwait_hostRest (d x1) : (Dev.unwait d x1).hostRest = d.hostRest := by
  unfold Dev.unwait
  (repeat' split) <;> simp
@[simp] theorem Dev.tenFail_hostRest (d x1 x2 x3 x4) : (Dev.tenFail d x1 x2 x3 x4).hostRest = d.hostRest := by
  simp [Dev.tenFail]
@[simp] theorem Dev.eccNote_hostRest (d x1 x2) : (Dev.eccNote d x1 x2).hostRest = d.hostRest := by
  unfold Dev.eccNote
  (repeat' split) <;> simp
@[simp] theorem Dev.bankStalls_hostRest (d x1) : (Dev.bankStalls d x1).hostRest = d.hostRest := by
  simp [Dev.bankStalls]
@[simp] theorem Dev.fill_hostRest (d x1 x2) : (Dev.fill d x1 x2).hostRest = d.hostRest := by
  induction x2 generalizing d with
  | nil => rfl
  | cons a l ih => rw [Dev.fill, ih]; (repeat' split) <;> simp
theorem Dev.presentTile_hostRest {d d1 : Dev} {c p w q} (h : d.presentTile c p w = .ok (d1, q)) : d1.hostRest = d.hostRest := by
  simp only [Dev.presentTile] at h
  split at h
  · cases h
  · simp only [Except.ok.injEq, Prod.mk.injEq] at h
    rw [← h.1]; simp
@[simp] theorem Dev.putCode_hostRest (d x1 x2 x3 x4 x5) : (Dev.putCode d x1 x2 x3 x4 x5).hostRest = d.hostRest := by
  simp [Dev.putCode]
@[simp] theorem Dev.putCodes_hostRest (d x1 x2 x3 x4 x5) : (Dev.putCodes d x1 x2 x3 x4 x5).hostRest = d.hostRest := by
  fun_induction Dev.putCodes d x1 x2 x3 x4 x5 <;> simp_all
@[simp] theorem Dev.putSides_hostRest (d x1 x2 x3 x4) : (Dev.putSides d x1 x2 x3 x4).hostRest = d.hostRest := by
  fun_induction Dev.putSides d x1 x2 x3 x4 <;> simp_all
theorem Dev.linkAppend_hostRest {d d1 : Dev} {c l xs} (h : d.linkAppend c l xs = .ok d1) : d1.hostRest = d.hostRest := by
  simp only [Dev.linkAppend] at h
  repeat' split at h
  all_goals first | (cases h; done) | (simp only [Except.ok.injEq] at h; rw [← h]; (repeat' split) <;> simp)
@[simp] theorem Dev.emitArray_hostRest (d x1 x2 x3 x4) : (Dev.emitArray d x1 x2 x3 x4).hostRest = d.hostRest := by
  unfold Dev.emitArray
  dsimp only
  (repeat' split) <;> simp_all
@[simp] theorem Dev.emitArrays_hostRest (d x1 x2 x3 x4) : (Dev.emitArrays d x1 x2 x3 x4).hostRest = d.hostRest := by
  fun_induction Dev.emitArrays d x1 x2 x3 x4 <;> simp_all
theorem Dev.emitPass_hostRest {d d1 : Dev} {c p} (h : d.emitPass c p = .ok d1) : d1.hostRest = d.hostRest := by
  unfold Dev.emitPass at h
  split at h
  · exact Dev.linkAppend_hostRest h
  · simp only [Except.ok.injEq] at h
    rw [← h]; simp

/-! #### TensorSeq -/

@[simp] theorem Dev.fetchCheck_hostRest (d x1) : (Dev.fetchCheck d x1).hostRest = d.hostRest := by
  simp [Dev.fetchCheck]
@[simp] theorem Dev.nextPc_hostRest (d x1) : (Dev.nextPc d x1).hostRest = d.hostRest := by
  simp [Dev.nextPc]
@[simp] theorem Dev.fetch_hostRest (d x1 x2) : (Dev.fetch d x1 x2).hostRest = d.hostRest := by
  unfold Dev.fetch
  (repeat' split) <;> simp
theorem Dev.issue_hostRest (d : Dev) (c op : Nat) (ecc : Ecc) (b : Bool) (rsv : Nat → Bool) (errs : Nat → Dev → List Nat)
    (body : Nat → Nat → Dev → Dev) (h : ∀ x y (e : Dev), (body x y e).hostRest = e.hostRest) :
    (d.issue c op ecc b rsv errs body).hostRest = d.hostRest := by
  unfold Dev.issue
  dsimp only
  repeat' split
  all_goals simp [h]
@[simp] theorem Dev.startPass_hostRest (d x1 x2) : (Dev.startPass d x1 x2).hostRest = d.hostRest := by
  simp [Dev.startPass]
@[simp] theorem Dev.promote_hostRest (d x1) : (Dev.promote d x1).hostRest = d.hostRest := by
  fun_cases Dev.promote d x1 <;> simp_all
@[simp] theorem Dev.coreFault_hostRest (d x1) : (Dev.coreFault d x1).hostRest = d.hostRest := by
  simp [Dev.coreFault]
@[simp] theorem Dev.arrayFault_hostRest (d x1 x2 x3) : (Dev.arrayFault d x1 x2 x3).hostRest = d.hostRest := by
  unfold Dev.arrayFault
  dsimp only
  (repeat' split) <;> simp_all
@[simp] theorem Dev.arrayFaultBy_hostRest (d x1 x2 x3 x4) : (Dev.arrayFaultBy d x1 x2 x3 x4).hostRest = d.hostRest := by
  simp [Dev.arrayFaultBy]
@[simp] theorem Dev.passTaken_hostRest (d x1 x2 x3) : (Dev.passTaken d x1 x2 x3).hostRest = d.hostRest := by
  unfold Dev.passTaken
  (repeat' split) <;> simp
@[simp] theorem Dev.operandEcc_hostRest (d x1 x2 x3) : (Dev.operandEcc d x1 x2 x3).hostRest = d.hostRest := by
  simp [Dev.operandEcc]
@[simp] theorem Dev.doPass_hostRest (d x1 x2) : (Dev.doPass d x1 x2).hostRest = d.hostRest := by
  refine Dev.issue_hostRest _ _ _ _ _ _ _ _ ?_
  intros
  dsimp only
  repeat' split
  all_goals simp
@[simp] theorem Dev.tileChange_hostRest (d x1 x2 x3) : (Dev.tileChange d x1 x2 x3).hostRest = d.hostRest := by
  unfold Dev.tileChange
  dsimp only
  repeat' split
  all_goals first | (simp; done) | (rename_i heq; simp [Dev.presentTile_hostRest heq])
@[simp] theorem Dev.bankExchange_hostRest (d x1) : (Dev.bankExchange d x1).hostRest = d.hostRest := by
  fun_cases Dev.bankExchange d x1 <;> simp_all
@[simp] theorem Dev.passCommit_hostRest (d c) : (Dev.passCommit d c).hostRest = d.hostRest := by
  unfold Dev.passCommit
  dsimp only
  repeat' split
  all_goals first | (simp; done) | (rename_i heq; simp [Dev.emitPass_hostRest heq])
@[simp] theorem Dev.emitError_hostRest (d x1 x2) : (Dev.emitError d x1 x2).hostRest = d.hostRest := by
  fun_cases Dev.emitError d x1 x2 <;> simp_all
@[simp] theorem Dev.doWalk_hostRest (d c e) : (Dev.doWalk d c e).hostRest = d.hostRest := by
  unfold Dev.doWalk
  apply Dev.issue_hostRest
  intros
  (repeat' split) <;> simp
@[simp] theorem Dev.doLink_hostRest (d c e) : (Dev.doLink d c e).hostRest = d.hostRest := by
  unfold Dev.doLink
  apply Dev.issue_hostRest
  intros
  (repeat' split) <;> simp
@[simp] theorem Dev.linkComplete_hostRest (d x1 x2) : (Dev.linkComplete d x1 x2).hostRest = d.hostRest := by
  unfold Dev.linkComplete
  (repeat' split) <;> simp
@[simp] theorem Dev.mvWrite_hostRest (d x1 x2 x3 x4) : (Dev.mvWrite d x1 x2 x3 x4).hostRest = d.hostRest := by
  simp [Dev.mvWrite]
@[simp] theorem Dev.freeBytes_hostRest (d x1) : (Dev.freeBytes d x1).2.hostRest = d.hostRest := by
  simp [Dev.freeBytes]
@[simp] theorem Dev.moveEncode_hostRest (d x1 x2 x3 x4 x5) : (Dev.moveEncode d x1 x2 x3 x4 x5).hostRest = d.hostRest := by
  simp [Dev.moveEncode]
@[simp] theorem Dev.moveDecode_hostRest (d x1 x2 x3 x4 x5) : (Dev.moveDecode d x1 x2 x3 x4 x5).hostRest = d.hostRest := by
  simp [Dev.moveDecode]
@[simp] theorem Dev.moveSpan_hostRest (d x1 x2 x3) : (Dev.moveSpan d x1 x2 x3).hostRest = d.hostRest := by
  unfold Dev.moveSpan
  dsimp only
  (repeat' split) <;> simp
@[simp] theorem Dev.moveEcc_hostRest (d x1 x2) : (Dev.moveEcc d x1 x2).1.hostRest = d.hostRest := by
  simp [Dev.moveEcc]
@[simp] theorem Dev.runMove_hostRest (d c) : (Dev.runMove d c).hostRest = d.hostRest := by
  unfold Dev.runMove
  repeat' split
  all_goals first | (simp; done) | (rename_i heq; have h := congrArg (fun r => r.1.hostRest) heq; simp at h; simp [← h])
@[simp] theorem Dev.doMove_hostRest (d c e) : (Dev.doMove d c e).hostRest = d.hostRest := by
  unfold Dev.doMove
  apply Dev.issue_hostRest
  intros
  (repeat' split) <;> simp
@[simp] theorem Dev.moveEnd_hostRest (d x1 x2 x3) : (Dev.moveEnd d x1 x2 x3).hostRest = d.hostRest := by
  simp [Dev.moveEnd]
@[simp] theorem Dev.moveComplete_hostRest (d x1) : (Dev.moveComplete d x1).hostRest = d.hostRest := by
  unfold Dev.moveComplete
  (repeat' split) <;> simp
@[simp] theorem Dev.moveStop_hostRest (d x1) : (Dev.moveStop d x1).hostRest = d.hostRest := by
  unfold Dev.moveStop
  (repeat' split) <;> simp
@[simp] theorem Dev.waitqEnd_hostRest (d x1 x2) : (Dev.waitqEnd d x1 x2).hostRest = d.hostRest := by
  unfold Dev.waitqEnd
  (repeat' split) <;> simp
@[simp] theorem Dev.doWaitq_hostRest (d c e) : (Dev.doWaitq d c e).hostRest = d.hostRest := by
  unfold Dev.doWaitq
  apply Dev.issue_hostRest
  intros
  dsimp only
  repeat' split
  all_goals simp
@[simp] theorem Dev.waiterPop_hostRest (d x1) : (Dev.waiterPop d x1).hostRest = d.hostRest := by
  fun_cases Dev.waiterPop d x1 <;> simp_all
@[simp] theorem Dev.waitqTimeout_hostRest (d x1) : (Dev.waitqTimeout d x1).hostRest = d.hostRest := by
  unfold Dev.waitqTimeout
  (repeat' split) <;> simp
@[simp] theorem Dev.doSignal_hostRest (d c e) : (Dev.doSignal d c e).hostRest = d.hostRest := by
  unfold Dev.doSignal
  apply Dev.issue_hostRest
  intros
  (repeat' split) <;> simp
@[simp] theorem Dev.lockEnd_hostRest (d x1 x2) : (Dev.lockEnd d x1 x2).hostRest = d.hostRest := by
  simp [Dev.lockEnd]
@[simp] theorem Dev.lockRead_hostRest (d x1 x2 x3) : (Dev.lockRead d x1 x2 x3).hostRest = d.hostRest := by
  simp [Dev.lockRead]
@[simp] theorem Dev.doLock_hostRest (d c e) : (Dev.doLock d c e).hostRest = d.hostRest := by
  unfold Dev.doLock
  apply Dev.issue_hostRest
  intros
  (repeat' split) <;> simp
@[simp] theorem Dev.lockRetry_hostRest (d x1) : (Dev.lockRetry d x1).hostRest = d.hostRest := by
  unfold Dev.lockRetry
  (repeat' split) <;> simp
@[simp] theorem Dev.lockTimeout_hostRest (d x1) : (Dev.lockTimeout d x1).hostRest = d.hostRest := by
  unfold Dev.lockTimeout
  (repeat' split) <;> simp
@[simp] theorem Dev.doJump_hostRest (d c e) : (Dev.doJump d c e).hostRest = d.hostRest := by
  refine Dev.issue_hostRest _ _ _ _ _ _ _ _ ?_
  intros
  dsimp only
  (repeat' split) <;> simp
@[simp] theorem Dev.doNop_hostRest (d c e) : (Dev.doNop d c e).hostRest = d.hostRest := by
  refine Dev.issue_hostRest _ _ _ _ _ _ _ _ ?_
  intros
  simp
@[simp] theorem Dev.doEnd_hostRest (d c e) : (Dev.doEnd d c e).hostRest = d.hostRest := by
  refine Dev.issue_hostRest _ _ _ _ _ _ _ _ ?_
  intros
  simp

/-! #### TensorCtl -/

@[simp] theorem Dev.tenRun_hostRest (d x1) : (Dev.tenRun d x1).hostRest = d.hostRest := by
  simp [Dev.tenRun]
@[simp] theorem Dev.writeSave_hostRest (d x1 x2) : (Dev.writeSave d x1 x2).hostRest = d.hostRest := by
  simp [Dev.writeSave]
@[simp] theorem Dev.tenPreempt_hostRest (d x1) : (Dev.tenPreempt d x1).hostRest = d.hostRest := by
  unfold Dev.tenPreempt
  (repeat' split) <;> simp
@[simp] theorem Dev.commitAll_hostRest (d x1 x2) : (Dev.commitAll d x1 x2).hostRest = d.hostRest := by
  fun_induction Dev.commitAll d x1 x2 <;> simp_all
@[simp] theorem Dev.linksFinish_hostRest (d : Dev) (c : Nat) (ks : List Nat) : (Dev.linksFinish d c ks).hostRest = d.hostRest := by
  induction ks generalizing d with
  | nil => rfl
  | cons k ks ih =>
    rw [Dev.linksFinish, ih]
    (repeat' split) <;> simp
@[simp] theorem Dev.preemptSaved_hostRest (d c) : (Dev.preemptSaved d c).hostRest = d.hostRest := by
  unfold Dev.preemptSaved
  dsimp only
  (repeat' split) <;> simp
@[simp] theorem Dev.rebase_hostRest (d x1) : (Dev.rebase d x1).hostRest = d.hostRest := by
  simp [Dev.rebase]
@[simp] theorem Dev.tenResume_hostRest (d x1) : (Dev.tenResume d x1).hostRest = d.hostRest := by
  simp [Dev.tenResume]
@[simp] theorem Dev.tenRegsReset_hostRest (d x1) : (Dev.tenRegsReset d x1).hostRest = d.hostRest := by
  simp [Dev.tenRegsReset]
@[simp] theorem Dev.tenReset_hostRest (d x1) : (Dev.tenReset d x1).hostRest = d.hostRest := by
  simp [Dev.tenReset]
@[simp] theorem Dev.tenLock_hostRest (d x1) : (Dev.tenLock d x1).hostRest = d.hostRest := by
  simp [Dev.tenLock]
@[simp] theorem Dev.tenCtrl_hostRest (d x1 x2 x3) : (Dev.tenCtrl d x1 x2 x3).hostRest = d.hostRest := by
  unfold Dev.tenCtrl
  (repeat' split) <;> simp

/-! #### PortBase -/

@[simp] theorem Dev.reportNamed_hostRest (d x1 x2 x3 x4) : (Dev.reportNamed d x1 x2 x3 x4).hostRest = d.hostRest := by
  simp [Dev.reportNamed]
@[simp] theorem Dev.prtCount_hostRest (d x1 x2 x3) : (Dev.prtCount d x1 x2 x3).hostRest = d.hostRest := by
  simp [Dev.prtCount]
@[simp] theorem Dev.portSet_hostRest (d x1 x2) : (Dev.portSet d x1 x2).hostRest = d.hostRest := by
  simp [Dev.portSet]
@[simp] theorem Dev.portUpd_hostRest (d x1 x2) : (Dev.portUpd d x1 x2).hostRest = d.hostRest := by
  simp [Dev.portUpd]
@[simp] theorem Dev.onLane_hostRest (d x1) : (Dev.onLane d x1).hostRest = d.hostRest := by
  simp [Dev.onLane]
@[simp] theorem Dev.pktSet_hostRest (d x1 x2) : (Dev.pktSet d x1 x2).hostRest = d.hostRest := by
  simp [Dev.pktSet]
@[simp] theorem Dev.pktUpd_hostRest (d x1 x2) : (Dev.pktUpd d x1 x2).hostRest = d.hostRest := by
  simp [Dev.pktUpd]
@[simp] theorem Dev.egSet_hostRest (d x1 x2 x3) : (Dev.egSet d x1 x2 x3).hostRest = d.hostRest := by
  simp [Dev.egSet]
@[simp] theorem Dev.dropItem_hostRest (d x1) : (Dev.dropItem d x1).hostRest = d.hostRest := by
  unfold Dev.dropItem
  (repeat' split) <;> simp
@[simp] theorem Dev.dropItems_hostRest (d x1) : (Dev.dropItems d x1).hostRest = d.hostRest := by
  fun_induction Dev.dropItems d x1 <;> simp_all
@[simp] theorem Dev.flushPort_hostRest (d x1) : (Dev.flushPort d x1).hostRest = d.hostRest := by
  simp [Dev.flushPort]
@[simp] theorem Dev.flushDead_hostRest (d x1) : (Dev.flushDead d x1).hostRest = d.hostRest := by
  fun_induction Dev.flushDead d x1 <;> simp_all
@[simp] theorem Dev.qRefresh_hostRest (d x1 x2) : (Dev.qRefresh d x1 x2).hostRest = d.hostRest := by
  simp [Dev.qRefresh]
@[simp] theorem Dev.qRefreshAll_hostRest (d : Dev) (n : Nat) (qs : List Nat) : (Dev.qRefreshAll d n qs).hostRest = d.hostRest := by
  induction qs generalizing d with
  | nil => rfl
  | cons q qs ih => simp [Dev.qRefreshAll, ih]
@[simp] theorem Dev.promoClear_hostRest (d : Dev) (n : Nat) (qs : List Nat) : (Dev.promoClear d n qs).hostRest = d.hostRest := by
  induction qs generalizing d with
  | nil => rfl
  | cons q qs ih => simp [Dev.promoClear, ih]

/-! #### Macsec -/

@[simp] theorem Dev.saSet_hostRest (d x1 x2) : (Dev.saSet d x1 x2).hostRest = d.hostRest := by
  simp [Dev.saSet]
@[simp] theorem Dev.msIngress_hostRest (d x1 x2) : (Dev.msIngress d x1 x2).1.hostRest = d.hostRest := by
  unfold Dev.msIngress
  dsimp only
  (repeat' split) <;> simp
@[simp] theorem Dev.msEgress_hostRest (d n it) : (Dev.msEgress d n it).1.hostRest = d.hostRest := by
  unfold Dev.msEgress
  dsimp only
  (repeat' split) <;> simp

/-! #### Ports -/

@[simp] theorem Dev.pauseEmit_hostRest (d x1 x2 x3) : (Dev.pauseEmit d x1 x2 x3).hostRest = d.hostRest := by
  simp [Dev.pauseEmit]
@[simp] theorem Dev.sendPause_hostRest (d x1 x2 x3) : (Dev.sendPause d x1 x2 x3).hostRest = d.hostRest := by
  simp [Dev.sendPause]
@[simp] theorem Dev.pauseList_hostRest (d x1 x2) : (Dev.pauseList d x1 x2).hostRest = d.hostRest := by
  fun_induction Dev.pauseList d x1 x2 <;> simp_all
@[simp] theorem Dev.pauseCheck1_hostRest (d x1 x2) : (Dev.pauseCheck1 d x1 x2).hostRest = d.hostRest := by
  simp [Dev.pauseCheck1]
@[simp] theorem Dev.pauseCheckList_hostRest (d x1 x2) : (Dev.pauseCheckList d x1 x2).hostRest = d.hostRest := by
  fun_induction Dev.pauseCheckList d x1 x2 <;> simp_all
@[simp] theorem Dev.pauseCheck_hostRest (d x1) : (Dev.pauseCheck d x1).hostRest = d.hostRest := by
  simp [Dev.pauseCheck]
@[simp] theorem Dev.pauseRepeat_hostRest (d x1 x2) : (Dev.pauseRepeat d x1 x2).hostRest = d.hostRest := by
  simp [Dev.pauseRepeat]
@[simp] theorem Dev.stormTx_hostRest (d x1 x2) : (Dev.stormTx d x1 x2).hostRest = d.hostRest := by
  simp [Dev.stormTx]
@[simp] theorem Dev.timerEnd_hostRest (d x1 x2) : (Dev.timerEnd d x1 x2).hostRest = d.hostRest := by
  simp [Dev.timerEnd]
@[simp] theorem Dev.pauseLoad_hostRest (d x1 x2 x3) : (Dev.pauseLoad d x1 x2 x3).hostRest = d.hostRest := by
  simp [Dev.pauseLoad]
@[simp] theorem Dev.pauseFrame_hostRest (d x1 x2 x3 x4) : (Dev.pauseFrame d x1 x2 x3 x4).hostRest = d.hostRest := by
  simp [Dev.pauseFrame]
@[simp] theorem Dev.pfcLoads_hostRest (d x1 x2 x3) : (Dev.pfcLoads d x1 x2 x3).hostRest = d.hostRest := by
  fun_induction Dev.pfcLoads d x1 x2 x3 <;> simp_all
@[simp] theorem Dev.pfcFrame_hostRest (d x1 x2 x3 x4 x5) : (Dev.pfcFrame d x1 x2 x3 x4 x5).hostRest = d.hostRest := by
  simp [Dev.pfcFrame]
@[simp] theorem Dev.pauseExpire_hostRest (d x1 x2) : (Dev.pauseExpire d x1 x2).hostRest = d.hostRest := by
  simp [Dev.pauseExpire]
@[simp] theorem Dev.stormRx_hostRest (d x1 x2) : (Dev.stormRx d x1 x2).hostRest = d.hostRest := by
  simp [Dev.stormRx]
@[simp] theorem Dev.stormRxQuiet_hostRest (d x1 x2) : (Dev.stormRxQuiet d x1 x2).hostRest = d.hostRest := by
  simp [Dev.stormRxQuiet]
@[simp] theorem Dev.deliver_hostRest (d x1 x2 x3 x4) : (Dev.deliver d x1 x2 x3 x4).hostRest = d.hostRest := by
  simp [Dev.deliver]
@[simp] theorem Dev.frameReceive_hostRest (d x1 x2) : (Dev.frameReceive d x1 x2).hostRest = d.hostRest := by
  unfold Dev.frameReceive
  dsimp only
  repeat' split
  all_goals first | (simp; done) | (rename_i heq; have h := congrArg (fun r => r.1.hostRest) heq; simp at h; simp [← h])
@[simp] theorem Dev.stomp_hostRest (d x1 x2) : (Dev.stomp d x1 x2).hostRest = d.hostRest := by
  induction x2 generalizing d with
  | nil => rfl
  | cons a l ih => rw [Dev.stomp, ih]; (repeat' split) <;> simp
@[simp] theorem Dev.unqueue_hostRest (d x1 x2) : (Dev.unqueue d x1 x2).hostRest = d.hostRest := by
  fun_induction Dev.unqueue d x1 x2 <;> simp_all
@[simp] theorem Dev.refreshHeads_hostRest (d x1 x2) : (Dev.refreshHeads d x1 x2).hostRest = d.hostRest := by
  induction x2 generalizing d with
  | nil => rfl
  | cons a l ih => rw [Dev.refreshHeads, ih]; (repeat' split) <;> simp
@[simp] theorem Dev.frameEnd_hostRest (d x1 x2) : (Dev.frameEnd d x1 x2).hostRest = d.hostRest := by
  unfold Dev.frameEnd
  dsimp only
  (repeat' split) <;> simp_all
@[simp] theorem Dev.freePkt_hostRest (d x1) : (Dev.freePkt d x1).hostRest = d.hostRest := by
  simp [Dev.freePkt]
@[simp] theorem Dev.txAbort_hostRest (d x1) : (Dev.txAbort d x1).hostRest = d.hostRest := by
  unfold Dev.txAbort
  (repeat' split) <;> simp
@[simp] theorem Dev.linkDown_hostRest (d x1) : (Dev.linkDown d x1).hostRest = d.hostRest := by
  simp [Dev.linkDown]
@[simp] theorem Dev.retrain_hostRest (d x1) : (Dev.retrain d x1).hostRest = d.hostRest := by
  simp [Dev.retrain]
@[simp] theorem Dev.retrainList_hostRest (d x1) : (Dev.retrainList d x1).hostRest = d.hostRest := by
  fun_induction Dev.retrainList d x1 <;> simp_all
@[simp] theorem Dev.linkChange_hostRest (d x1 x2 x3 x4) : (Dev.linkChange d x1 x2 x3 x4).hostRest = d.hostRest := by
  simp [Dev.linkChange]
@[simp] theorem Dev.failsafeAssert_hostRest (d) : (Dev.failsafeAssert d).hostRest = d.hostRest := by
  simp [Dev.failsafeAssert]
@[simp] theorem Dev.dieFLoss_hostRest (d) : (Dev.dieFLoss d).hostRest = d.hostRest := by
  simp [Dev.dieFLoss]
@[simp] theorem Dev.failsafeRelease_hostRest (d x1) : (Dev.failsafeRelease d x1).hostRest = d.hostRest := by
  simp [Dev.failsafeRelease]
@[simp] theorem Dev.pairWait_hostRest (d x1) : (Dev.pairWait d x1).hostRest = d.hostRest := by
  simp [Dev.pairWait]

/-! #### Classify -/

@[simp] theorem Dev.parCount_hostRest (d x1) : (Dev.parCount d x1).hostRest = d.hostRest := by
  simp [Dev.parCount]
@[simp] theorem Dev.clsCount_hostRest (d x1) : (Dev.clsCount d x1).hostRest = d.hostRest := by
  simp [Dev.clsCount]
@[simp] theorem Dev.clsCounts_hostRest (d x1) : (Dev.clsCounts d x1).hostRest = d.hostRest := by
  fun_induction Dev.clsCounts d x1 <;> simp_all
@[simp] theorem Dev.seqGap_hostRest (d x1 x2) : (Dev.seqGap d x1 x2).hostRest = d.hostRest := by
  simp [Dev.seqGap]
@[simp] theorem Dev.verUpd_hostRest (d x1 x2) : (Dev.verUpd d x1 x2).hostRest = d.hostRest := by
  simp [Dev.verUpd]
@[simp] theorem Dev.leaveVer_hostRest (d x1) : (Dev.leaveVer d x1).hostRest = d.hostRest := by
  simp [Dev.leaveVer]
@[simp] theorem Dev.tplUpd_hostRest (d x1 x2) : (Dev.tplUpd d x1 x2).hostRest = d.hostRest := by
  simp [Dev.tplUpd]
@[simp] theorem Dev.stageObj_hostRest (d x1 x2 x3) : (Dev.stageObj d x1 x2 x3).hostRest = d.hostRest := by
  unfold Dev.stageObj
  (repeat' split) <;> simp
@[simp] theorem Dev.stageAll_hostRest (d x1 x2 x3) : (Dev.stageAll d x1 x2 x3).hostRest = d.hostRest := by
  fun_induction Dev.stageAll d x1 x2 x3 <;> simp_all
@[simp] theorem Dev.commit_hostRest (d x1) : (Dev.commit d x1).1.hostRest = d.hostRest := by
  unfold Dev.commit
  (repeat' split) <;> simp
@[simp] theorem Dev.retire_hostRest (d) : (Dev.retire d).hostRest = d.hostRest := by
  unfold Dev.retire
  (repeat' split) <;> simp
@[simp] theorem Dev.treeEvent_hostRest (d x1 x2 x3 x4 x5) : (Dev.treeEvent d x1 x2 x3 x4 x5).hostRest = d.hostRest := by
  simp [Dev.treeEvent]
@[simp] theorem Dev.sweepRecs_hostRest (d x1 x2) : (Dev.sweepRecs d x1 x2).hostRest = d.hostRest := by
  fun_induction Dev.sweepRecs d x1 x2 <;> simp_all +zetaDelta
@[simp] theorem Dev.sweep_hostRest (d) : (Dev.sweep d).hostRest = d.hostRest := by
  unfold Dev.sweep
  (repeat' split) <;> simp
@[simp] theorem Dev.sweepEnd_hostRest (d) : (Dev.sweepEnd d).hostRest = d.hostRest := by
  simp [Dev.sweepEnd]
@[simp] theorem Dev.puntToken_hostRest (d x1 x2) : (Dev.puntToken d x1 x2).1.hostRest = d.hostRest := by
  simp [Dev.puntToken]
@[simp] theorem Dev.puntOffer_hostRest (d x1 x2 x3) : (Dev.puntOffer d x1 x2 x3).1.hostRest = d.hostRest := by
  simp [Dev.puntOffer]
@[simp] theorem Dev.pktGone_hostRest (d x1) : (Dev.pktGone d x1).hostRest = d.hostRest := by
  simp [Dev.pktGone]
@[simp] theorem Dev.puntPkt_hostRest (d x1 x2 x3 x4 x5 x6) : (Dev.puntPkt d x1 x2 x3 x4 x5 x6).hostRest = d.hostRest := by
  simp [Dev.puntPkt]
@[simp] theorem Dev.nextHand_hostRest (d) : (Dev.nextHand d).hostRest = d.hostRest := by
  simp [Dev.nextHand]
@[simp] theorem Dev.reinject_hostRest (d x1 x2 x3) : (Dev.reinject d x1 x2 x3).hostRest = d.hostRest := by
  unfold Dev.reinject
  dsimp only
  (repeat' split) <;> simp_all
@[simp] theorem Dev.puntRelease_hostRest (d x1 x2) : (Dev.puntRelease d x1 x2).hostRest = d.hostRest := by
  unfold Dev.puntRelease
  dsimp only
  (repeat' split) <;> simp
@[simp] theorem Dev.take1_hostRest (d x1 x2) : (Dev.take1 d x1 x2).hostRest = d.hostRest := by
  simp [Dev.take1]
@[simp] theorem Dev.dispatchFrom_hostRest (d x1 x2) : (Dev.dispatchFrom d x1 x2).hostRest = d.hostRest := by
  fun_induction Dev.dispatchFrom d x1 x2 <;> simp_all
@[simp] theorem Dev.dispatchTake_hostRest (d) : (Dev.dispatchTake d).hostRest = d.hostRest := by
  simp [Dev.dispatchTake]
@[simp] theorem Dev.parseResult_hostRest (d x1) : (Dev.parseResult d x1).hostRest = d.hostRest := by
  unfold Dev.parseResult
  dsimp only
  (repeat' split) <;> simp_all
@[simp] theorem Dev.byDefault_hostRest (d x1 x2 x3) : (Dev.byDefault d x1 x2 x3).hostRest = d.hostRest := by
  simp [Dev.byDefault]
@[simp] theorem Dev.classify_hostRest (d) : (Dev.classify d).hostRest = d.hostRest := by
  unfold Dev.classify
  dsimp only
  (repeat' split) <;> simp_all

/-! #### Flows -/

@[simp] theorem Dev.flwCount_hostRest (d x1) : (Dev.flwCount d x1).hostRest = d.hostRest := by
  simp [Dev.flwCount]
@[simp] theorem Dev.flowSet_hostRest (d x1 x2) : (Dev.flowSet d x1 x2).hostRest = d.hostRest := by
  simp [Dev.flowSet]
@[simp] theorem Dev.flowRecord_hostRest (d x1 x2) : (Dev.flowRecord d x1 x2).hostRest = d.hostRest := by
  simp [Dev.flowRecord]
@[simp] theorem Dev.flowFind_hostRest (d x1 x2) : (Dev.flowFind d x1 x2).1.hostRest = d.hostRest := by
  unfold Dev.flowFind
  dsimp only
  (repeat' split) <;> simp_all
@[simp] theorem Dev.bind_hostRest (d) : (Dev.bind d).hostRest = d.hostRest := by
  unfold Dev.bind
  dsimp only
  (repeat' split) <;> simp
@[simp] theorem Dev.agingScan_hostRest (d) : (Dev.agingScan d).hostRest = d.hostRest := by
  simp [Dev.agingScan]
@[simp] theorem Dev.entSetState_hostRest (d x1 x2) : (Dev.entSetState d x1 x2).hostRest = d.hostRest := by
  simp [Dev.entSetState]
@[simp] theorem Dev.makeStale_hostRest (d x1 x2) : (Dev.makeStale d x1 x2).hostRest = d.hostRest := by
  unfold Dev.makeStale
  dsimp only
  (repeat' split) <;> simp_all
@[simp] theorem Dev.makeStaleList_hostRest (d x1 x2) : (Dev.makeStaleList d x1 x2).hostRest = d.hostRest := by
  fun_induction Dev.makeStaleList d x1 x2 <;> simp_all
@[simp] theorem Dev.assignRange_hostRest (d x1 x2 x3) : (Dev.assignRange d x1 x2 x3).hostRest = d.hostRest := by
  simp [Dev.assignRange]
@[simp] theorem Dev.fidx_hostRest (d x1) : (Dev.fidx d x1).hostRest = d.hostRest := by
  simp [Dev.fidx]
@[simp] theorem Dev.eidx_hostRest (d x1) : (Dev.eidx d x1).hostRest = d.hostRest := by
  simp [Dev.eidx]
@[simp] theorem Dev.polSet_hostRest (d x1 x2) : (Dev.polSet d x1 x2).hostRest = d.hostRest := by
  simp [Dev.polSet]
@[simp] theorem Dev.flowMark_hostRest (d x1 x2) : (Dev.flowMark d x1 x2).hostRest = d.hostRest := by
  unfold Dev.flowMark
  (repeat' split) <;> simp
@[simp] theorem Dev.police_hostRest (d) : (Dev.police d).hostRest = d.hostRest := by
  unfold Dev.police
  (repeat' split) <;> simp
@[simp] theorem Dev.policerWrite_hostRest (d x1 x2 x3 x4 x5 x6 x7) : (Dev.policerWrite d x1 x2 x3 x4 x5 x6 x7).hostRest = d.hostRest := by
  simp [Dev.policerWrite]
@[simp] theorem Dev.pidx_hostRest (d x1 x2) : (Dev.pidx d x1 x2).hostRest = d.hostRest := by
  simp [Dev.pidx]

/-! #### Score -/

@[simp] theorem Dev.treCount_hostRest (d x1 x2) : (Dev.treCount d x1 x2).hostRest = d.hostRest := by
  simp [Dev.treCount]
@[simp] theorem Dev.recSet_hostRest (d x1 x2) : (Dev.recSet d x1 x2).hostRest = d.hostRest := by
  simp [Dev.recSet]
@[simp] theorem Dev.sqSet_hostRest (d x1 x2) : (Dev.sqSet d x1 x2).hostRest = d.hostRest := by
  simp [Dev.sqSet]
@[simp] theorem Dev.scoreDrop_hostRest (d x1) : (Dev.scoreDrop d x1).hostRest = d.hostRest := by
  unfold Dev.scoreDrop
  (repeat' split) <;> simp
@[simp] theorem Dev.dropEnd_hostRest (d x1) : (Dev.dropEnd d x1).hostRest = d.hostRest := by
  unfold Dev.dropEnd
  (repeat' split) <;> simp
@[simp] theorem Dev.scoreNone_hostRest (d x1 x2) : (Dev.scoreNone d x1 x2).hostRest = d.hostRest := by
  simp [Dev.scoreNone]
@[simp] theorem Dev.scoreAdmit_hostRest (d) : (Dev.scoreAdmit d).hostRest = d.hostRest := by
  fun_cases Dev.scoreAdmit d <;> simp_all
@[simp] theorem Dev.grantHead_hostRest (d x1 x2 x3 x4) : (Dev.grantHead d x1 x2 x3 x4).hostRest = d.hostRest := by
  simp [Dev.grantHead]
@[simp] theorem Dev.grantEns_hostRest (d x1 x2 x3) : (Dev.grantEns d x1 x2 x3).1.hostRest = d.hostRest := by
  fun_induction Dev.grantEns d x1 x2 x3 <;> simp_all
@[simp] theorem Dev.grantFrom_hostRest (d : Dev) (es free : List Nat) : (Dev.grantFrom d es free).hostRest = d.hostRest := by
  induction es generalizing d free with
  | nil => rfl
  | cons e es ih => simp [Dev.grantFrom, ih]
@[simp] theorem Dev.scoreGrant_hostRest (d) : (Dev.scoreGrant d).hostRest = d.hostRest := by
  simp [Dev.scoreGrant]
@[simp] theorem Dev.copyUpd_hostRest (d x1 x2 x3) : (Dev.copyUpd d x1 x2 x3).hostRest = d.hostRest := by
  simp [Dev.copyUpd]
@[simp] theorem Dev.failQueued_hostRest (d x1 x2 x3) : (Dev.failQueued d x1 x2 x3).hostRest = d.hostRest := by
  fun_induction Dev.failQueued d x1 x2 x3 <;> simp_all
@[simp] theorem Dev.slotParity_hostRest (d x1 x2 x3) : (Dev.slotParity d x1 x2 x3).hostRest = d.hostRest := by
  unfold Dev.slotParity
  (repeat' split) <;> simp
@[simp] theorem Dev.scoreDeliver_hostRest (d x1) : (Dev.scoreDeliver d x1).hostRest = d.hostRest := by
  unfold Dev.scoreDeliver
  dsimp only
  (repeat' split) <;> simp
@[simp] theorem Dev.slotReloaded_hostRest (d x1) : (Dev.slotReloaded d x1).hostRest = d.hostRest := by
  unfold Dev.slotReloaded
  (repeat' split) <;> simp
@[simp] theorem Dev.fabricScrub_hostRest (d x1) : (Dev.fabricScrub d x1).hostRest = d.hostRest := by
  unfold Dev.fabricScrub
  (repeat' split) <;> simp

/-! #### Egress -/

@[simp] theorem Dev.visCount_hostRest (d x1) : (Dev.visCount d x1).hostRest = d.hostRest := by
  simp [Dev.visCount]
@[simp] theorem Dev.visorVerdict_hostRest (d) : (Dev.visorVerdict d).hostRest = d.hostRest := by
  unfold Dev.visorVerdict
  dsimp only
  (repeat' split) <;> simp_all
@[simp] theorem Dev.taggedQuiet_hostRest (d x1) : (Dev.taggedQuiet d x1).hostRest = d.hostRest := by
  simp [Dev.taggedQuiet]
@[simp] theorem Dev.noteFileable_hostRest (d x1) : (Dev.noteFileable d x1).hostRest = d.hostRest := by
  simp [Dev.noteFileable]
@[simp] theorem Dev.noteFileables_hostRest (d x1) : (Dev.noteFileables d x1).hostRest = d.hostRest := by
  fun_induction Dev.noteFileables d x1 <;> simp_all
@[simp] theorem Dev.settle_hostRest (d x1) : (Dev.settle d x1).hostRest = d.hostRest := by
  simp [Dev.settle]
@[simp] theorem Dev.release1_hostRest (d x1) : (Dev.release1 d x1).1.hostRest = d.hostRest := by
  unfold Dev.release1
  dsimp only
  (repeat' split) <;> simp_all
@[simp] theorem Dev.releasePort_hostRest (d : Dev) (n k : Nat) : (Dev.releasePort d n k).hostRest = d.hostRest := by
  induction k generalizing d with
  | zero => rfl
  | succ k ih =>
    have h := Dev.release1_hostRest d n
    unfold Dev.releasePort
    split <;> rename_i heq <;> rw [heq] at h <;> simp_all
@[simp] theorem Dev.reorderRelease_hostRest (d x1) : (Dev.reorderRelease d x1).hostRest = d.hostRest := by
  simp [Dev.reorderRelease]
@[simp] theorem Dev.enqueue_hostRest (d x1 x2 x3) : (Dev.enqueue d x1 x2 x3).1.hostRest = d.hostRest := by
  unfold Dev.enqueue
  dsimp only
  (repeat' split) <;> simp_all
@[simp] theorem Dev.mirrorCopy_hostRest (d x1 x2 x3) : (Dev.mirrorCopy d x1 x2 x3).hostRest = d.hostRest := by
  simp [Dev.mirrorCopy]
@[simp] theorem Dev.egressEnqueue_hostRest (d) : (Dev.egressEnqueue d).hostRest = d.hostRest := by
  unfold Dev.egressEnqueue
  (repeat' split) <;> simp
@[simp] theorem Dev.drrPick_hostRest (d : Dev) (n b k q : Nat) (h : Bool) : (Dev.drrPick d n b k q h).1.hostRest = d.hostRest := by
  induction k generalizing d q h with
  | zero => rfl
  | succ k ih =>
    unfold Dev.drrPick
    dsimp only
    repeat' split
    all_goals simp [ih]
@[simp] theorem Dev.txStamp_hostRest (d x1 x2) : (Dev.txStamp d x1 x2).1.hostRest = d.hostRest := by
  unfold Dev.txStamp
  dsimp only
  (repeat' split) <;> simp_all
@[simp] theorem Dev.txStart_hostRest (d x1 x2 x3 x4) : (Dev.txStart d x1 x2 x3 x4).hostRest = d.hostRest := by
  unfold Dev.txStart
  cases hx : (d.egAt x1 x2).items with
  | nil => simp [hx]
  | cons it rest =>
    have h := Dev.msEgress_hostRest (d.txStamp x1 it).1 x1 (d.txStamp x1 it).2
    cases hm : Dev.msEgress (d.txStamp x1 it).1 x1 (d.txStamp x1 it).2 with
    | mk e o => cases o <;> simp_all
@[simp] theorem Dev.promote1_hostRest (d x1 x2) : (Dev.promote1 d x1 x2).hostRest = d.hostRest := by
  unfold Dev.promote1
  (repeat' split) <;> simp
@[simp] theorem Dev.drrExcess_hostRest (d n) : (Dev.drrExcess d n).hostRest = d.hostRest := by
  unfold Dev.drrExcess
  dsimp only
  (repeat' split) <;> simp
@[simp] theorem Dev.drrGuaranteed_hostRest (d n) : (Dev.drrGuaranteed d n).hostRest = d.hostRest := by
  unfold Dev.drrGuaranteed
  dsimp only
  (repeat' split) <;> simp
@[simp] theorem Dev.schedule_hostRest (d n) : (Dev.schedule d n).hostRest = d.hostRest := by
  unfold Dev.schedule
  dsimp only
  (repeat' split) <;> simp
@[simp] theorem Dev.queueStarved_hostRest (d x1 x2) : (Dev.queueStarved d x1 x2).hostRest = d.hostRest := by
  simp [Dev.queueStarved]
@[simp] theorem Dev.queueWrite_hostRest (d x1 x2 x3) : (Dev.queueWrite d x1 x2 x3).hostRest = d.hostRest := by
  simp [Dev.queueWrite]
@[simp] theorem Dev.txEnd_hostRest (d x1) : (Dev.txEnd d x1).hostRest = d.hostRest := by
  unfold Dev.txEnd
  (repeat' split) <;> simp
@[simp] theorem Dev.freeIdle_hostRest (d) : (Dev.freeIdle d).hostRest = d.hostRest := by
  unfold Dev.freeIdle
  (repeat' split) <;> simp
@[simp] theorem Dev.frameEndAll_hostRest (d n g) : (Dev.frameEndAll d n g).hostRest = d.hostRest := by
  unfold Dev.frameEndAll
  dsimp only
  (repeat' split) <;> simp

/-! #### Huddle -/

@[simp] theorem Dev.hudCount_hostRest (d x1 x2) : (Dev.hudCount d x1 x2).hostRest = d.hostRest := by
  simp [Dev.hudCount]
@[simp] theorem Dev.grpSet_hostRest (d x1 x2) : (Dev.grpSet d x1 x2).hostRest = d.hostRest := by
  simp [Dev.grpSet]
@[simp] theorem Dev.hudEvent_hostRest (d x1 x2 x3 x4 x5) : (Dev.hudEvent d x1 x2 x3 x4 x5).hostRest = d.hostRest := by
  simp [Dev.hudEvent]
@[simp] theorem Dev.fillBuffer_hostRest (d x1 x2) : (Dev.fillBuffer d x1 x2).hostRest = d.hostRest := by
  simp [Dev.fillBuffer]
@[simp] theorem Dev.snapOpen_hostRest (d x1) : (Dev.snapOpen d x1).hostRest = d.hostRest := by
  unfold Dev.snapOpen
  (repeat' split) <;> simp
@[simp] theorem Dev.fileValue_hostRest (d x1 x2 x3 x4) : (Dev.fileValue d x1 x2 x3 x4).hostRest = d.hostRest := by
  unfold Dev.fileValue
  dsimp only
  (repeat' split) <;> simp
@[simp] theorem Dev.fileValues_hostRest (d x1 x2 x3) : (Dev.fileValues d x1 x2 x3).hostRest = d.hostRest := by
  fun_induction Dev.fileValues d x1 x2 x3 <;> simp_all
@[simp] theorem Dev.hudCounts_hostRest (d x1) : (Dev.hudCounts d x1).hostRest = d.hostRest := by
  fun_induction Dev.hudCounts d x1 <;> simp_all
@[simp] theorem Dev.fileDrop_hostRest (d x1 x2 x3) : (Dev.fileDrop d x1 x2 x3).hostRest = d.hostRest := by
  unfold Dev.fileDrop
  (repeat' split) <;> simp
@[simp] theorem Dev.filePkt_hostRest (d x1) : (Dev.filePkt d x1).hostRest = d.hostRest := by
  unfold Dev.filePkt
  dsimp only
  (repeat' split) <;> simp
@[simp] theorem Dev.takeFiles_hostRest (d x1) : (Dev.takeFiles d x1).hostRest = d.hostRest := by
  fun_induction Dev.takeFiles d x1 <;> simp_all
@[simp] theorem Dev.huddleTake_hostRest (d) : (Dev.huddleTake d).hostRest = d.hostRest := by
  simp [Dev.huddleTake]
@[simp] theorem Dev.writeFile_hostRest (d x1) : (Dev.writeFile d x1).hostRest = d.hostRest := by
  simp [Dev.writeFile]
@[simp] theorem Dev.writeFiles_hostRest (d x1) : (Dev.writeFiles d x1).hostRest = d.hostRest := by
  fun_induction Dev.writeFiles d x1 <;> simp_all
@[simp] theorem Dev.filingWrite_hostRest (d) : (Dev.filingWrite d).hostRest = d.hostRest := by
  simp [Dev.filingWrite]
@[simp] theorem Dev.closeSnap_hostRest (d g s) : (Dev.closeSnap d g s).hostRest = d.hostRest := by
  unfold Dev.closeSnap
  dsimp only
  cases s.buf <;> simp
@[simp] theorem Dev.snapClose_hostRest (d x1) : (Dev.snapClose d x1).hostRest = d.hostRest := by
  unfold Dev.snapClose
  (repeat' split) <;> simp
@[simp] theorem Dev.stepGroup_hostRest (d x1) : (Dev.stepGroup d x1).hostRest = d.hostRest := by
  fun_cases Dev.stepGroup d x1 <;> simp_all
@[simp] theorem Dev.stepGroups_hostRest (d x1) : (Dev.stepGroups d x1).hostRest = d.hostRest := by
  fun_induction Dev.stepGroups d x1 <;> simp_all
@[simp] theorem Dev.resultPost_hostRest (d) : (Dev.resultPost d).hostRest = d.hostRest := by
  unfold Dev.resultPost
  dsimp only
  (repeat' split) <;> simp
@[simp] theorem Dev.backEntity_hostRest (d x1 x2 x3 x4) : (Dev.backEntity d x1 x2 x3 x4).1.hostRest = d.hostRest := by
  unfold Dev.backEntity
  dsimp only
  (repeat' split) <;> simp
@[simp] theorem Dev.backEntities_hostRest (d : Dev) (r : List Byte) (n e : Nat) (xs : List (List Nat)) (acc) :
    (Dev.backEntities d r n e xs acc).1.hostRest = d.hostRest := by
  induction xs generalizing d e acc with
  | nil => rfl
  | cons x xs ih =>
    have h := Dev.backEntity_hostRest d r n e x
    unfold Dev.backEntities
    split <;> rename_i heq <;> rw [heq] at h <;> rw [ih, h]
@[simp] theorem Dev.report1_hostRest (d x1 x2 x3 x4 x5 x6 x7) : (Dev.report1 d x1 x2 x3 x4 x5 x6 x7).hostRest = d.hostRest := by
  simp [Dev.report1]
@[simp] theorem Dev.reports_hostRest (d x1 x2 x3 x4 x5 x6) : (Dev.reports d x1 x2 x3 x4 x5 x6).hostRest = d.hostRest := by
  fun_induction Dev.reports d x1 x2 x3 x4 x5 x6 <;> simp_all
@[simp] theorem Dev.reportAll_hostRest (d x1 x2 x3 x4 x5) : (Dev.reportAll d x1 x2 x3 x4 x5).hostRest = d.hostRest := by
  simp [Dev.reportAll]
@[simp] theorem Dev.resultWriteback_hostRest (d x1 x2) : (Dev.resultWriteback d x1 x2).hostRest = d.hostRest := by
  unfold Dev.resultWriteback
  dsimp only
  (repeat' split) <;> simp
@[simp] theorem Dev.resultDeadline_hostRest (d x1) : (Dev.resultDeadline d x1).hostRest = d.hostRest := by
  unfold Dev.resultDeadline
  dsimp only
  (repeat' split) <;> simp
@[simp] theorem Dev.staleGroups_hostRest (d : Dev) (p : Nat) (gs : List Nat) : (Dev.staleGroups d p gs).hostRest = d.hostRest := by
  induction gs generalizing d with
  | nil => rfl
  | cons g gs ih => rw [Dev.staleGroups, ih]; (repeat' split) <;> simp
@[simp] theorem Dev.partitionStale_hostRest (d x1) : (Dev.partitionStale d x1).hostRest = d.hostRest := by
  fun_cases Dev.partitionStale d x1 <;> simp_all
@[simp] theorem Dev.releaseBuffers_hostRest (d x1) : (Dev.releaseBuffers d x1).hostRest = d.hostRest := by
  simp [Dev.releaseBuffers]

/-! #### Loader -/

theorem Dev.placeEns_hostRest {d d1 : Dev} {p n b} (h : d.placeEns p n b = some d1) : d1.hostRest = d.hostRest := by
  simp only [Dev.placeEns] at h
  repeat' split at h
  all_goals first | (cases h; done) | (simp only [Option.some.injEq] at h; rw [← h]; simp)
theorem Dev.placeEns_getD_hostRest (d : Dev) (p n b) : ((d.placeEns p n b).getD d).hostRest = d.hostRest := by
  cases h : d.placeEns p n b with
  | none => rfl
  | some d1 => exact Dev.placeEns_hostRest h
@[simp] theorem Dev.stageFw_hostRest (d x1 x2 x3) : (Dev.stageFw d x1 x2 x3).hostRest = d.hostRest := by
  fun_induction Dev.stageFw d x1 x2 x3 <;> simp_all [Dev.placeEns_getD_hostRest]
@[simp] theorem Dev.versionCommit_hostRest (d x1 x2 x3) : (Dev.versionCommit d x1 x2 x3).hostRest = d.hostRest := by
  unfold Dev.versionCommit
  (repeat' split) <;> simp

/-! #### Memory -/

@[simp] theorem Dev.loadKeys_hostRest (d x1) : (Dev.loadKeys d x1).hostRest = d.hostRest := by
  fun_induction Dev.loadKeys d x1 <;> simp_all
@[simp] theorem Dev.storeWrite_hostRest (d x1) : (Dev.storeWrite d x1).hostRest = d.hostRest := by
  simp [Dev.storeWrite]
@[simp] theorem Dev.msRefresh_hostRest (d) : (Dev.msRefresh d).hostRest = d.hostRest := by
  simp [Dev.msRefresh]
@[simp] theorem Dev.stageRefresh_hostRest (d : Dev) (ps : List Nat) : (Dev.stageRefresh d ps).hostRest = d.hostRest := by
  induction ps generalizing d with
  | nil => rfl
  | cons p ps ih => rw [Dev.stageRefresh, ih]; split <;> simp
@[simp] theorem Dev.catalogue_hostRest (d) : (Dev.catalogue d).hostRest = d.hostRest := by
  simp [Dev.catalogue]
@[simp] theorem Dev.stgStart_hostRest (d x1) : (Dev.stgStart d x1).hostRest = d.hostRest := by
  simp [Dev.stgStart]
@[simp] theorem Dev.stagingPop_hostRest (d x1) : (Dev.stagingPop d x1).hostRest = d.hostRest := by
  fun_cases Dev.stagingPop d x1 <;> simp_all
@[simp] theorem Dev.waiterServe_hostRest (d x1) : (Dev.waiterServe d x1).hostRest = d.hostRest := by
  fun_cases Dev.waiterServe d x1 <;> simp_all
@[simp] theorem Dev.waitersServe_hostRest (d x1 x2) : (Dev.waitersServe d x1 x2).hostRest = d.hostRest := by
  fun_induction Dev.waitersServe d x1 x2 <;> simp_all
@[simp] theorem Dev.pqPop_hostRest (d x1 x2) : (Dev.pqPop d x1 x2).hostRest = d.hostRest := by
  simp [Dev.pqPop]
@[simp] theorem Dev.stagingReply_hostRest (d i e l) : (Dev.stagingReply d i e l).hostRest = d.hostRest := by
  unfold Dev.stagingReply
  split
  · rfl
  · simp
@[simp] theorem Dev.zeroGr_hostRest (d x1 x2 x3) : (Dev.zeroGr d x1 x2 x3).hostRest = d.hostRest := by
  simp [Dev.zeroGr]
@[simp] theorem Dev.joinShare_hostRest (d x1) : (Dev.joinShare d x1).hostRest = d.hostRest := by
  simp [Dev.joinShare]
@[simp] theorem Dev.joinShares_hostRest (d x1) : (Dev.joinShares d x1).hostRest = d.hostRest := by
  fun_induction Dev.joinShares d x1 <;> simp_all
@[simp] theorem Dev.scrubShare_hostRest (d x1) : (Dev.scrubShare d x1).hostRest = d.hostRest := by
  simp [Dev.scrubShare]
@[simp] theorem Dev.entSet_hostRest (d x1 x2) : (Dev.entSet d x1 x2).hostRest = d.hostRest := by
  simp [Dev.entSet]
@[simp] theorem Dev.extentLeaves_hostRest (d x1 x2 x3) : (Dev.extentLeaves d x1 x2 x3).hostRest = d.hostRest := by
  simp [Dev.extentLeaves]
@[simp] theorem Dev.shareRegs_hostRest (d x1) : (Dev.shareRegs d x1).hostRest = d.hostRest := by
  fun_induction Dev.shareRegs d x1 <;> simp_all
@[simp] theorem Dev.mirrorRebuild_hostRest (d x1) : (Dev.mirrorRebuild d x1).hostRest = d.hostRest := by
  unfold Dev.mirrorRebuild
  dsimp only
  (repeat' split) <;> simp
@[simp] theorem Dev.coreSections_hostRest (d x1 x2 x3) : (Dev.coreSections d x1 x2 x3).hostRest = d.hostRest := by
  fun_induction Dev.coreSections d x1 x2 x3 <;> simp_all
@[simp] theorem Dev.restageCore_hostRest (d x1 x2) : (Dev.restageCore d x1 x2).hostRest = d.hostRest := by
  unfold Dev.restageCore
  (repeat' split) <;> simp
@[simp] theorem Dev.restageCores_hostRest (d x1 x2) : (Dev.restageCores d x1 x2).hostRest = d.hostRest := by
  fun_induction Dev.restageCores d x1 x2 <;> simp_all
@[simp] theorem Dev.loadImage_hostRest (d x1 x2 x3) : (Dev.loadImage d x1 x2 x3).hostRest = d.hostRest := by
  unfold Dev.loadImage
  (repeat' split) <;> simp
@[simp] theorem Dev.shareSections_hostRest (d x1 x2) : (Dev.shareSections d x1 x2).hostRest = d.hostRest := by
  fun_induction Dev.shareSections d x1 x2 <;> simp_all
@[simp] theorem Dev.restagePtn_hostRest (d x1) : (Dev.restagePtn d x1).hostRest = d.hostRest := by
  simp [Dev.restagePtn]
@[simp] theorem Dev.installUpd_hostRest (d x1 x2) : (Dev.installUpd d x1 x2).hostRest = d.hostRest := by
  simp [Dev.installUpd]
@[simp] theorem Dev.installEnd_hostRest (d x1 x2 x3 x4) : (Dev.installEnd d x1 x2 x3 x4).hostRest = d.hostRest := by
  simp [Dev.installEnd]
@[simp] theorem Dev.bundleInstallRun_hostRest (d x1) : (Dev.bundleInstallRun d x1).hostRest = d.hostRest := by
  unfold Dev.bundleInstallRun
  (repeat' split) <;> simp
theorem Dev.stageSections_hostRest {d d1 : Dev} {p n ss} (h : d.stageSections p n ss = some d1) : d1.hostRest = d.hostRest := by
  induction ss generalizing d with
  | nil => simp only [Dev.stageSections, Option.some.injEq] at h; rw [h]
  | cons s ss ih =>
    unfold Dev.stageSections at h
    repeat' split at h
    · rename_i heq; rw [ih h, Dev.placeEns_hostRest heq]
    · cases h
    · cases h
    · rw [ih h]; simp
    · rw [ih h]; simp
    · exact ih h
theorem Dev.stageSections_getD_hostRest (d : Dev) (p n ss) : ((d.stageSections p n ss).getD d).hostRest = d.hostRest := by
  cases h : d.stageSections p n ss with
  | none => rfl
  | some d1 => exact Dev.stageSections_hostRest h
@[simp] theorem Dev.endBundle_hostRest (d x1 x2) : (Dev.endBundle d x1 x2).hostRest = d.hostRest := by
  simp [Dev.endBundle]
@[simp] theorem Dev.endBundles_hostRest (d x1 x2) : (Dev.endBundles d x1 x2).hostRest = d.hostRest := by
  fun_induction Dev.endBundles d x1 x2 <;> simp_all
@[simp] theorem Dev.measChange_hostRest (d x1) : (Dev.measChange d x1).hostRest = d.hostRest := by
  simp [Dev.measChange]
theorem Dev.commitPlane_hostRest {d d1 : Dev} {n g b} (h : d.commitPlane n g b = some d1) : d1.hostRest = d.hostRest := by
  unfold Dev.commitPlane at h
  split at h
  · rw [Option.map_eq_some_iff] at h
    obtain ⟨x, hx, rfl⟩ := h
    exact (Dev.commit_hostRest _ _).trans ((Dev.stageSections_hostRest hx).trans (Dev.endBundles_hostRest _ _ _))
  · cases h
@[simp] theorem Dev.catalogueBundle_hostRest (d x1 x2 x3 x4) : (Dev.catalogueBundle d x1 x2 x3 x4).hostRest = d.hostRest := by
  unfold Dev.catalogueBundle
  (repeat' split) <;> simp
@[simp] theorem Dev.commitCores_hostRest (d : Dev) (b : Bundle) (rs : List Nat) : (Dev.commitCores d b rs).hostRest = d.hostRest := by
  induction rs generalizing d with
  | nil => rfl
  | cons r rs ih => rw [Dev.commitCores, ih]; split <;> simp
@[simp] theorem Dev.commitImages_hostRest (d : Dev) (b : Bundle) (rs : List Region) : (Dev.commitImages d b rs).hostRest = d.hostRest := by
  induction rs generalizing d with
  | nil => rfl
  | cons r rs ih => rw [Dev.commitImages, ih]; (repeat' split) <;> simp
@[simp] theorem Dev.bundleCommit_hostRest (d) : (Dev.bundleCommit d).hostRest = d.hostRest := by
  have key : ∀ (c : Bool) (n g b) (d1 : Dev), (if c = true then d.commitPlane n g b else some d) = some d1 → d1.hostRest = d.hostRest := by
    intro c n g b d1 h
    cases c
    · simp at h; rw [h]
    · exact Dev.commitPlane_hostRest h
  unfold Dev.bundleCommit
  split
  · rfl
  · split
    · rfl
    · dsimp only
      split
      · simp
      · rename_i heq
        simp only [Dev.installEnd_hostRest, Dev.measChange_hostRest, Dev.commitImages_hostRest, Dev.commitCores_hostRest, Dev.catalogue_hostRest, Dev.shareSections_hostRest, Dev.catalogueBundle_hostRest]
        exact key _ _ _ _ _ heq
@[simp] theorem Dev.bundleFree_hostRest (d x1) : (Dev.bundleFree d x1).1.hostRest = d.hostRest := by
  unfold Dev.bundleFree
  dsimp only
  (repeat' split) <;> simp

/-! #### ErrLog -/

@[simp] theorem Dev.erlAnnounce_hostRest (d x1) : (Dev.erlAnnounce d x1).hostRest = d.hostRest := by
  simp [Dev.erlAnnounce]
@[simp] theorem Dev.newEntry_hostRest (d x1) : (Dev.newEntry d x1).hostRest = d.hostRest := by
  unfold Dev.newEntry
  (repeat' split) <;> simp
@[simp] theorem Dev.erlTake_hostRest (d) : (Dev.erlTake d).hostRest = d.hostRest := by
  fun_cases Dev.erlTake d <;> simp_all +zetaDelta
@[simp] theorem Dev.erlClear_hostRest (d x1) : (Dev.erlClear d x1).hostRest = d.hostRest := by
  simp [Dev.erlClear]
@[simp] theorem Dev.erlIdx_hostRest (d x1) : (Dev.erlIdx d x1).hostRest = d.hostRest := by
  simp [Dev.erlIdx]

/-! #### Partition -/

@[simp] theorem Dev.wrBytes_hostRest (d x1 x2 x3) : (Dev.wrBytes d x1 x2 x3).hostRest = d.hostRest := by
  simp [Dev.wrBytes]
@[simp] theorem Dev.ptnRegs_hostRest (d) : (Dev.ptnRegs d).hostRest = d.hostRest := by
  simp [Dev.ptnRegs]
@[simp] theorem Dev.granuleScrubDone_hostRest (d) : (Dev.granuleScrubDone d).hostRest = d.hostRest := by
  unfold Dev.granuleScrubDone
  (repeat' split) <;> simp
@[simp] theorem Dev.ptnState_hostRest (d x1 x2) : (Dev.ptnState d x1 x2).hostRest = d.hostRest := by
  simp [Dev.ptnState]
@[simp] theorem Dev.planAll_hostRest (d) : (Dev.planAll d).hostRest = d.hostRest := by
  simp [Dev.planAll]
@[simp] theorem Dev.ptnFail_hostRest (d x1 x2 x3) : (Dev.ptnFail d x1 x2 x3).hostRest = d.hostRest := by
  simp [Dev.ptnFail]
@[simp] theorem Dev.ptnFailAll_hostRest (d x1 x2 x3) : (Dev.ptnFailAll d x1 x2 x3).hostRest = d.hostRest := by
  fun_induction Dev.ptnFailAll d x1 x2 x3 <;> simp_all
@[simp] theorem Dev.unitLost_hostRest (d x1 x2 x3 x4 x5) : (Dev.unitLost d x1 x2 x3 x4 x5).hostRest = d.hostRest := by
  unfold Dev.unitLost
  (repeat' split) <;> simp
@[simp] theorem Dev.coresLost_hostRest (d x1) : (Dev.coresLost d x1).hostRest = d.hostRest := by
  simp [Dev.coresLost]
@[simp] theorem Dev.coreStop_hostRest (d x1) : (Dev.coreStop d x1).hostRest = d.hostRest := by
  simp [Dev.coreStop]
@[simp] theorem Dev.holdLost_hostRest (d x1) : (Dev.holdLost d x1).hostRest = d.hostRest := by
  simp [Dev.holdLost]
@[simp] theorem Dev.coresGone_hostRest (d x1) : (Dev.coresGone d x1).hostRest = d.hostRest := by
  fun_induction Dev.coresGone d x1 <;> simp_all
@[simp] theorem Dev.dieFail_hostRest (d x1 x2 x3 x4) : (Dev.dieFail d x1 x2 x3 x4).hostRest = d.hostRest := by
  simp [Dev.dieFail]
@[simp] theorem Dev.stackStat_hostRest (d x1 x2) : (Dev.stackStat d x1 x2).hostRest = d.hostRest := by
  simp [Dev.stackStat]
@[simp] theorem Dev.hbmFail_hostRest (d x1 x2) : (Dev.hbmFail d x1 x2).hostRest = d.hostRest := by
  simp [Dev.hbmFail]
@[simp] theorem Dev.hbmBurst_hostRest (d x1 x2) : (Dev.hbmBurst d x1 x2).hostRest = d.hostRest := by
  simp [Dev.hbmBurst]
@[simp] theorem Dev.msFail_hostRest (d x1) : (Dev.msFail d x1).hostRest = d.hostRest := by
  simp [Dev.msFail]
@[simp] theorem Dev.coreOut_hostRest (d x1 x2) : (Dev.coreOut d x1 x2).hostRest = d.hostRest := by
  simp [Dev.coreOut]
@[simp] theorem Dev.dieBFail_hostRest (d) : (Dev.dieBFail d).hostRest = d.hostRest := by
  simp [Dev.dieBFail]
@[simp] theorem Dev.resetCores_hostRest (d x1 x2) : (Dev.resetCores d x1 x2).hostRest = d.hostRest := by
  fun_induction Dev.resetCores d x1 x2 <;> simp_all
@[simp] theorem Dev.emptyQueues_hostRest (d x1) : (Dev.emptyQueues d x1).hostRest = d.hostRest := by
  fun_induction Dev.emptyQueues d x1 <;> simp_all
@[simp] theorem Dev.resetSlices_hostRest (d x1) : (Dev.resetSlices d x1).hostRest = d.hostRest := by
  simp [Dev.resetSlices]
@[simp] theorem Dev.ptnClear_hostRest (d x1) : (Dev.ptnClear d x1).hostRest = d.hostRest := by
  simp [Dev.ptnClear]
@[simp] theorem Dev.remapNotice_hostRest (d x1 x2 x3 x4 x5 x6) : (Dev.remapNotice d x1 x2 x3 x4 x5 x6).hostRest = d.hostRest := by
  simp [Dev.remapNotice]
@[simp] theorem Dev.giveCore_hostRest (d x1 x2 x3) : (Dev.giveCore d x1 x2 x3).hostRest = d.hostRest := by
  simp [Dev.giveCore]
@[simp] theorem Dev.storeOut_hostRest (d x1 x2) : (Dev.storeOut d x1 x2).hostRest = d.hostRest := by
  unfold Dev.storeOut
  (repeat' split) <;> simp
@[simp] theorem Dev.shareCore_hostRest (d x1 x2) : (Dev.shareCore d x1 x2).hostRest = d.hostRest := by
  unfold Dev.shareCore
  (repeat' split) <;> simp
@[simp] theorem Dev.shareIdle_hostRest (d x1 x2) : (Dev.shareIdle d x1 x2).hostRest = d.hostRest := by
  simp [Dev.shareIdle]
@[simp] theorem Dev.replan_hostRest (d x1 x2) : (Dev.replan d x1 x2).hostRest = d.hostRest := by
  fun_induction Dev.replan d x1 x2 <;> simp_all +zetaDelta
@[simp] theorem Dev.ptnReset_hostRest (d x1) : (Dev.ptnReset d x1).hostRest = d.hostRest := by
  simp [Dev.ptnReset]
@[simp] theorem Dev.mirrorLost_hostRest (d x1 x2) : (Dev.mirrorLost d x1 x2).hostRest = d.hostRest := by
  simp [Dev.mirrorLost]
@[simp] theorem Dev.moveShare_hostRest (d x1 x2) : (Dev.moveShare d x1 x2).hostRest = d.hostRest := by
  unfold Dev.moveShare
  dsimp only
  (repeat' split) <;> simp
@[simp] theorem Dev.stackPtns_hostRest (d x1 x2) : (Dev.stackPtns d x1 x2).hostRest = d.hostRest := by
  fun_induction Dev.stackPtns d x1 x2 <;> simp_all
@[simp] theorem Dev.fenceCores_hostRest (d x1) : (Dev.fenceCores d x1).hostRest = d.hostRest := by
  fun_induction Dev.fenceCores d x1 <;> simp_all
@[simp] theorem Dev.freeLocks_hostRest (d x1) : (Dev.freeLocks d x1).hostRest = d.hostRest := by
  fun_induction Dev.freeLocks d x1 <;> simp_all
@[simp] theorem Dev.planMove_hostRest (d x1 x2 x3 x4) : (Dev.planMove d x1 x2 x3 x4).1.hostRest = d.hostRest := by
  unfold Dev.planMove
  (repeat' split) <;> simp
@[simp] theorem Dev.planMoves_hostRest (d x1 x2) : (Dev.planMoves d x1 x2).1.hostRest = d.hostRest := by
  fun_induction Dev.planMoves d x1 x2 <;> simp_all +zetaDelta
@[simp] theorem Dev.startStates_hostRest (d x1) : (Dev.startStates d x1).hostRest = d.hostRest := by
  fun_induction Dev.startStates d x1 <;> simp_all
@[simp] theorem Dev.freeTargets_hostRest (d x1) : (Dev.freeTargets d x1).hostRest = d.hostRest := by
  fun_induction Dev.freeTargets d x1 <;> simp_all
@[simp] theorem Dev.remapHolds_hostRest (d) : (Dev.remapHolds d).hostRest = d.hostRest := by
  simp [Dev.remapHolds]
@[simp] theorem Dev.remapStart_hostRest (d) : (Dev.remapStart d).hostRest = d.hostRest := by
  unfold Dev.remapStart
  (repeat' split) <;> simp
@[simp] theorem Dev.storeIn_hostRest (d x1 x2) : (Dev.storeIn d x1 x2).hostRest = d.hostRest := by
  unfold Dev.storeIn
  (repeat' split) <;> simp
@[simp] theorem Dev.restart1_hostRest (d x1 x2 x3) : (Dev.restart1 d x1 x2 x3).hostRest = d.hostRest := by
  unfold Dev.restart1
  dsimp only
  (repeat' split) <;> simp
@[simp] theorem Dev.restartAll_hostRest (d x1 x2 x3) : (Dev.restartAll d x1 x2 x3).hostRest = d.hostRest := by
  fun_induction Dev.restartAll d x1 x2 x3 <;> simp_all
@[simp] theorem Dev.moveAgain_hostRest (d x1 x2) : (Dev.moveAgain d x1 x2).1.hostRest = d.hostRest := by
  unfold Dev.moveAgain
  dsimp only
  (repeat' split) <;> simp
@[simp] theorem Dev.movesAgain_hostRest (d x1 x2) : (Dev.movesAgain d x1 x2).1.hostRest = d.hostRest := by
  fun_induction Dev.movesAgain d x1 x2 <;> simp_all +zetaDelta
@[simp] theorem Dev.remapRestart_hostRest (d) : (Dev.remapRestart d).hostRest = d.hostRest := by
  unfold Dev.remapRestart
  (repeat' split) <;> simp
@[simp] theorem Dev.restageDone_hostRest (d x1) : (Dev.restageDone d x1).hostRest = d.hostRest := by
  simp [Dev.restageDone]
@[simp] theorem Dev.sliceIn_hostRest (d x1 x2) : (Dev.sliceIn d x1 x2).hostRest = d.hostRest := by
  unfold Dev.sliceIn
  (repeat' split) <;> simp
@[simp] theorem Dev.timeShareSwitch_hostRest (d x1) : (Dev.timeShareSwitch d x1).hostRest = d.hostRest := by
  unfold Dev.timeShareSwitch
  (repeat' split) <;> simp

/-! #### Telemetry -/

@[simp] theorem Dev.pathSet_hostRest (d x1 x2) : (Dev.pathSet d x1 x2).hostRest = d.hostRest := by
  simp [Dev.pathSet]
@[simp] theorem Dev.offer_hostRest (d x1 x2) : (Dev.offer d x1 x2).hostRest = d.hostRest := by
  simp [Dev.offer]
@[simp] theorem Dev.teleRecord_hostRest (d) : (Dev.teleRecord d).hostRest = d.hostRest := by
  unfold Dev.teleRecord
  (repeat' split) <;> simp
@[simp] theorem Dev.mgmtOut_hostRest (d x1) : (Dev.mgmtOut d x1).hostRest = d.hostRest := by
  simp [Dev.mgmtOut]
@[simp] theorem Dev.emitAll_hostRest (d x1) : (Dev.emitAll d x1).hostRest = d.hostRest := by
  fun_induction Dev.emitAll d x1 <;> simp_all
@[simp] theorem Dev.mgmtDrain_hostRest (d) : (Dev.mgmtDrain d).hostRest = d.hostRest := by
  simp [Dev.mgmtDrain]
@[simp] theorem Dev.teleDgram_hostRest (d x1) : (Dev.teleDgram d x1).hostRest = d.hostRest := by
  simp [Dev.teleDgram]
@[simp] theorem Dev.teleFirst_hostRest (d x1 x2) : (Dev.teleFirst d x1 x2).hostRest = d.hostRest := by
  simp [Dev.teleFirst]
@[simp] theorem Dev.alarmSend_hostRest (d) : (Dev.alarmSend d).hostRest = d.hostRest := by
  unfold Dev.alarmSend
  (repeat' split) <;> simp
@[simp] theorem Dev.alarmsAgain_hostRest (d x1) : (Dev.alarmsAgain d x1).hostRest = d.hostRest := by
  simp [Dev.alarmsAgain]
@[simp] theorem Dev.summary_hostRest (d x1) : (Dev.summary d x1).hostRest = d.hostRest := by
  simp [Dev.summary]
@[simp] theorem Dev.pathUp_hostRest (d x1) : (Dev.pathUp d x1).hostRest = d.hostRest := by
  simp [Dev.pathUp]
@[simp] theorem Dev.pathDown_hostRest (d x1) : (Dev.pathDown d x1).hostRest = d.hostRest := by
  simp [Dev.pathDown]
@[simp] theorem Dev.portRecords_hostRest (d x1) : (Dev.portRecords d x1).hostRest = d.hostRest := by
  fun_induction Dev.portRecords d x1 <;> simp_all
@[simp] theorem Dev.ptnRecords_hostRest (d x1) : (Dev.ptnRecords d x1).hostRest = d.hostRest := by
  fun_induction Dev.ptnRecords d x1 <;> simp_all
@[simp] theorem Dev.summaryPeriod_hostRest (d) : (Dev.summaryPeriod d).hostRest = d.hostRest := by
  simp [Dev.summaryPeriod]
@[simp] theorem Dev.teleSend_hostRest (d) : (Dev.teleSend d).hostRest = d.hostRest := by
  simp [Dev.teleSend]
@[simp] theorem Dev.fwTele_hostRest (d x1 x2 x3 x4 x5 x6) : (Dev.fwTele d x1 x2 x3 x4 x5 x6).hostRest = d.hostRest := by
  simp [Dev.fwTele]

/-! #### TimeUnit -/

@[simp] theorem Dev.tmuCount_hostRest (d x1) : (Dev.tmuCount d x1).hostRest = d.hostRest := by
  simp [Dev.tmuCount]
@[simp] theorem Dev.tmuRegs_hostRest (d) : (Dev.tmuRegs d).hostRest = d.hostRest := by
  simp [Dev.tmuRegs]
@[simp] theorem Dev.tmuUpd_hostRest (d x1) : (Dev.tmuUpd d x1).hostRest = d.hostRest := by
  simp [Dev.tmuUpd]
@[simp] theorem Dev.tmuState_hostRest (d x1) : (Dev.tmuState d x1).hostRest = d.hostRest := by
  simp [Dev.tmuState]
@[simp] theorem Dev.reselect_hostRest (d) : (Dev.reselect d).hostRest = d.hostRest := by
  simp [Dev.reselect]
@[simp] theorem Dev.foldGrowth_hostRest (d) : (Dev.foldGrowth d).hostRest = d.hostRest := by
  simp [Dev.foldGrowth]
@[simp] theorem Dev.setBound_hostRest (d x1) : (Dev.setBound d x1).hostRest = d.hostRest := by
  simp [Dev.setBound]
@[simp] theorem Dev.errorBound_hostRest (d) : (Dev.errorBound d).hostRest = d.hostRest := by
  simp [Dev.errorBound]
@[simp] theorem Dev.slewBy_hostRest (d x1) : (Dev.slewBy d x1).hostRest = d.hostRest := by
  simp [Dev.slewBy]
@[simp] theorem Dev.schedStep_hostRest (d x1) : (Dev.schedStep d x1).hostRest = d.hostRest := by
  unfold Dev.schedStep
  (repeat' split) <;> simp
@[simp] theorem Dev.cancelStep_hostRest (d) : (Dev.cancelStep d).hostRest = d.hostRest := by
  unfold Dev.cancelStep
  (repeat' split) <;> simp
@[simp] theorem Dev.boundAt_hostRest (d x1 x2) : (Dev.boundAt d x1 x2).hostRest = d.hostRest := by
  simp [Dev.boundAt]
@[simp] theorem Dev.noteOffset_hostRest (d x1 x2 x3) : (Dev.noteOffset d x1 x2 x3).hostRest = d.hostRest := by
  simp [Dev.noteOffset]
@[simp] theorem Dev.slewMeas_hostRest (d x1) : (Dev.slewMeas d x1).hostRest = d.hostRest := by
  simp [Dev.slewMeas]
@[simp] theorem Dev.lockMeas_hostRest (d x1) : (Dev.lockMeas d x1).hostRest = d.hostRest := by
  simp [Dev.lockMeas]
@[simp] theorem Dev.applyOffset_hostRest (d x1 x2) : (Dev.applyOffset d x1 x2).hostRest = d.hostRest := by
  simp [Dev.applyOffset]
@[simp] theorem Dev.utcSet_hostRest (d x1) : (Dev.utcSet d x1).hostRest = d.hostRest := by
  simp [Dev.utcSet]
@[simp] theorem Dev.ptpUtc_hostRest (d) : (Dev.ptpUtc d).hostRest = d.hostRest := by
  unfold Dev.ptpUtc
  (repeat' split) <;> simp
@[simp] theorem Dev.goodMeas_hostRest (d x1 x2 x3) : (Dev.goodMeas d x1 x2 x3).hostRest = d.hostRest := by
  simp [Dev.goodMeas]
@[simp] theorem Dev.sourceLoss_hostRest (d x1) : (Dev.sourceLoss d x1).hostRest = d.hostRest := by
  simp [Dev.sourceLoss]
@[simp] theorem Dev.ptpMeasurement_hostRest (d x1 x2 x3 x4 x5) : (Dev.ptpMeasurement d x1 x2 x3 x4 x5).hostRest = d.hostRest := by
  unfold Dev.ptpMeasurement
  (repeat' split) <;> simp
@[simp] theorem Dev.ppsIn_hostRest (d x1) : (Dev.ppsIn d x1).hostRest = d.hostRest := by
  simp [Dev.ppsIn]
@[simp] theorem Dev.irigFrame_hostRest (d x1 x2) : (Dev.irigFrame d x1 x2).hostRest = d.hostRest := by
  simp [Dev.irigFrame]
@[simp] theorem Dev.timeSet_hostRest (d x1 x2) : (Dev.timeSet d x1 x2).1.hostRest = d.hostRest := by
  unfold Dev.timeSet
  (repeat' split) <;> simp
@[simp] theorem Dev.stepLand_hostRest (d) : (Dev.stepLand d).hostRest = d.hostRest := by
  unfold Dev.stepLand
  (repeat' split) <;> simp
@[simp] theorem Dev.refLoss_hostRest (d) : (Dev.refLoss d).hostRest = d.hostRest := by
  simp [Dev.refLoss]
@[simp] theorem Dev.refReturn_hostRest (d) : (Dev.refReturn d).hostRest = d.hostRest := by
  simp [Dev.refReturn]
@[simp] theorem Dev.ppsOut_hostRest (d) : (Dev.ppsOut d).hostRest = d.hostRest := by
  simp [Dev.ppsOut]
@[simp] theorem Dev.ppsOutEnd_hostRest (d) : (Dev.ppsOutEnd d).hostRest = d.hostRest := by
  simp [Dev.ppsOutEnd]
@[simp] theorem Dev.leapSecond_hostRest (d) : (Dev.leapSecond d).hostRest = d.hostRest := by
  simp [Dev.leapSecond]
@[simp] theorem Dev.timeCfg_hostRest (d x1 x2) : (Dev.timeCfg d x1 x2).hostRest = d.hostRest := by
  simp [Dev.timeCfg]
@[simp] theorem Dev.ptpHear_hostRest (d x1 x2) : (Dev.ptpHear d x1 x2).hostRest = d.hostRest := by
  simp [Dev.ptpHear]
@[simp] theorem Dev.tick_hostRest (d) : (Dev.tick d).hostRest = d.hostRest := by
  simp [Dev.tick]

/-! #### Host -/

@[simp] theorem Dev.accFail_hostRest (d x1 x2 x3 x4 x5) : (Dev.accFail d x1 x2 x3 x4 x5).hostRest = d.hostRest := by
  unfold Dev.accFail
  (repeat' split) <;> simp
@[simp] theorem Dev.plainWrite_hostRest (d x1 x2 x3 x4) : (Dev.plainWrite d x1 x2 x3 x4).hostRest = d.hostRest := by
  simp [Dev.plainWrite]
@[simp] theorem Dev.pairTake_hostRest (d x1 x2 x3) : (Dev.pairTake d x1 x2 x3).hostRest = d.hostRest := by
  simp [Dev.pairTake]
@[simp] theorem Dev.pairHighWrite_hostRest (d x1 x2 x3) : (Dev.pairHighWrite d x1 x2 x3).hostRest = d.hostRest := by
  unfold Dev.pairHighWrite
  (repeat' split) <;> simp
@[simp] theorem Dev.readTimeout_hostRest (d x1 x2) : (Dev.readTimeout d x1 x2).hostRest = d.hostRest := by
  simp [Dev.readTimeout]
@[simp] theorem Dev.mbxEvent_hostRest (d x1 x2) : (Dev.mbxEvent d x1 x2).hostRest = d.hostRest := by
  simp [Dev.mbxEvent]
@[simp] theorem Dev.mbxBad_hostRest (d x1) : (Dev.mbxBad d x1).hostRest = d.hostRest := by
  simp [Dev.mbxBad]
@[simp] theorem Dev.coreSetHeld_hostRest (d x1 x2 x3) : (Dev.coreSetHeld d x1 x2 x3).hostRest = d.hostRest := by
  simp [Dev.coreSetHeld]
@[simp] theorem Dev.msixDeliver_hostRest (d x1 x2) : (Dev.msixDeliver d x1 x2).hostRest = d.hostRest := by
  simp [Dev.msixDeliver]
@[simp] theorem Dev.doeDiscovery_hostRest (d x1) : (Dev.doeDiscovery d x1).hostRest = d.hostRest := by
  simp [Dev.doeDiscovery]

/-! #### SecOps -/

@[simp] theorem Dev.secRegs_hostRest (d) : (Dev.secRegs d).hostRest = d.hostRest := by
  simp [Dev.secRegs]
@[simp] theorem Dev.measSel_hostRest (d x1) : (Dev.measSel d x1).hostRest = d.hostRest := by
  simp [Dev.measSel]
@[simp] theorem Dev.pkSel_hostRest (d x1) : (Dev.pkSel d x1).hostRest = d.hostRest := by
  simp [Dev.pkSel]
@[simp] theorem Dev.ptnResets_hostRest (d x1) : (Dev.ptnResets d x1).hostRest = d.hostRest := by
  fun_induction Dev.ptnResets d x1 <;> simp_all
@[simp] theorem Dev.shareScrubs_hostRest (d x1) : (Dev.shareScrubs d x1).hostRest = d.hostRest := by
  fun_induction Dev.shareScrubs d x1 <;> simp_all
@[simp] theorem Dev.bundlesGone_hostRest (d x1) : (Dev.bundlesGone d x1).hostRest = d.hostRest := by
  simp [Dev.bundlesGone]
@[simp] theorem Dev.rekeyGang_hostRest (d x1) : (Dev.rekeyGang d x1).hostRest = d.hostRest := by
  simp [Dev.rekeyGang]
@[simp] theorem Dev.rekeyAll_hostRest (d x1) : (Dev.rekeyAll d x1).hostRest = d.hostRest := by
  fun_induction Dev.rekeyAll d x1 <;> simp_all +zetaDelta
@[simp] theorem Dev.lifeDone_hostRest (d x1 x2) : (Dev.lifeDone d x1 x2).hostRest = d.hostRest := by
  simp [Dev.lifeDone]
@[simp] theorem Dev.burn_hostRest (d x1) : (Dev.burn d x1).hostRest = d.hostRest := by
  simp [Dev.burn]
@[simp] theorem Dev.keysIn_hostRest (d) : (Dev.keysIn d).hostRest = d.hostRest := by
  simp [Dev.keysIn]
@[simp] theorem Dev.provision_hostRest (d) : (Dev.provision d).hostRest = d.hostRest := by
  simp [Dev.provision]
@[simp] theorem Dev.deploy_hostRest (d) : (Dev.deploy d).hostRest = d.hostRest := by
  simp [Dev.deploy]
@[simp] theorem Dev.return__hostRest (d) : (Dev.return_ d).hostRest = d.hostRest := by
  simp [Dev.return_]
@[simp] theorem Dev.rekey_hostRest (d x1) : (Dev.rekey d x1).hostRest = d.hostRest := by
  simp [Dev.rekey]
@[simp] theorem Dev.commitSvn_hostRest (d) : (Dev.commitSvn d).hostRest = d.hostRest := by
  simp [Dev.commitSvn]
@[simp] theorem Dev.revokeSlot_hostRest (d x1) : (Dev.revokeSlot d x1).hostRest = d.hostRest := by
  simp [Dev.revokeSlot]
@[simp] theorem Dev.portsOff_hostRest (d x1) : (Dev.portsOff d x1).hostRest = d.hostRest := by
  fun_induction Dev.portsOff d x1 <;> simp_all

/-! #### PowerLoop -/

@[simp] theorem Dev.dieFld_hostRest (d x1 x2 x3 x4) : (Dev.dieFld d x1 x2 x3 x4).hostRest = d.hostRest := by
  simp [Dev.dieFld]
@[simp] theorem Dev.kRequest_hostRest (d x1 x2) : (Dev.kRequest d x1 x2).hostRest = d.hostRest := by
  simp [Dev.kRequest]
@[simp] theorem Dev.kForce_hostRest (d x1 x2) : (Dev.kForce d x1 x2).hostRest = d.hostRest := by
  simp [Dev.kForce]
@[simp] theorem Dev.tclkStep_hostRest (d x1) : (Dev.tclkStep d x1).hostRest = d.hostRest := by
  unfold Dev.tclkStep
  (repeat' split) <;> simp
@[simp] theorem Dev.tclkSteps_hostRest (d x1) : (Dev.tclkSteps d x1).hostRest = d.hostRest := by
  fun_induction Dev.tclkSteps d x1 <;> simp_all
@[simp] theorem Dev.hbmLimSet_hostRest (d x1) : (Dev.hbmLimSet d x1).hostRest = d.hostRest := by
  simp [Dev.hbmLimSet]
@[simp] theorem Dev.msLimSet_hostRest (d x1) : (Dev.msLimSet d x1).hostRest = d.hostRest := by
  simp [Dev.msLimSet]
@[simp] theorem Dev.stepPart_hostRest (d x1 x2) : (Dev.stepPart d x1 x2).hostRest = d.hostRest := by
  unfold Dev.stepPart
  (repeat' split) <;> simp
@[simp] theorem Dev.reduceWalk_hostRest (d x1 x2 x3 x4 x5) : (Dev.reduceWalk d x1 x2 x3 x4 x5).1.hostRest = d.hostRest := by
  fun_induction Dev.reduceWalk d x1 x2 x3 x4 x5 <;> simp_all +zetaDelta
@[simp] theorem Dev.ceilWalk_hostRest (d x1) : (Dev.ceilWalk d x1).1.hostRest = d.hostRest := by
  fun_induction Dev.ceilWalk d x1 <;> simp_all +zetaDelta
@[simp] theorem Dev.raiseOne_hostRest (d x1 x2 x3) : (Dev.raiseOne d x1 x2 x3).hostRest = d.hostRest := by
  unfold Dev.raiseOne
  (repeat' split) <;> simp
@[simp] theorem Dev.railFail_hostRest (d x1) : (Dev.railFail d x1).hostRest = d.hostRest := by
  simp [Dev.railFail]
@[simp] theorem Dev.railOk_hostRest (d x1) : (Dev.railOk d x1).hostRest = d.hostRest := by
  simp [Dev.railOk]
@[simp] theorem Dev.railReads_hostRest (d x1) : (Dev.railReads d x1).hostRest = d.hostRest := by
  fun_induction Dev.railReads d x1 <;> simp_all +zetaDelta
@[simp] theorem Dev.pwrStat_hostRest (d x1 x2 x3 x4) : (Dev.pwrStat d x1 x2 x3 x4).hostRest = d.hostRest := by
  simp [Dev.pwrStat]
@[simp] theorem Dev.pwrHot_hostRest (d) : (Dev.pwrHot d).hostRest = d.hostRest := by
  simp [Dev.pwrHot]
@[simp] theorem Dev.powerLoop_hostRest (d x1 x2) : (Dev.powerLoop d x1 x2).hostRest = d.hostRest := by
  simp [Dev.powerLoop]
@[simp] theorem Dev.thermalLoop_hostRest (d x1) : (Dev.thermalLoop d x1).hostRest = d.hostRest := by
  simp [Dev.thermalLoop]
@[simp] theorem Dev.holdB_hostRest (d x1) : (Dev.holdB d x1).hostRest = d.hostRest := by
  simp [Dev.holdB]
@[simp] theorem Dev.hwThrottle_hostRest (d x1 x2) : (Dev.hwThrottle d x1 x2).hostRest = d.hostRest := by
  simp [Dev.hwThrottle]
@[simp] theorem Dev.hwShutdown_hostRest (d x1 x2) : (Dev.hwShutdown d x1 x2).hostRest = d.hostRest := by
  simp [Dev.hwShutdown]
@[simp] theorem Dev.loopLoss_hostRest (d) : (Dev.loopLoss d).hostRest = d.hostRest := by
  simp [Dev.loopLoss]
@[simp] theorem Dev.kRaise_hostRest (d x1) : (Dev.kRaise d x1).hostRest = d.hostRest := by
  simp [Dev.kRaise]
@[simp] theorem Dev.setFreq_hostRest (d x1 x2) : (Dev.setFreq d x1 x2).hostRest = d.hostRest := by
  simp [Dev.setFreq]

/-! #### Dict -/

@[simp] theorem Dev.sessSet_hostRest (d x1 x2) : (Dev.sessSet d x1 x2).hostRest = d.hostRest := by
  simp [Dev.sessSet]
@[simp] theorem Dev.sessUpd_hostRest (d x1 x2) : (Dev.sessUpd d x1 x2).hostRest = d.hostRest := by
  simp [Dev.sessUpd]
@[simp] theorem Dev.tokenFail_hostRest (d x1 x2 x3) : (Dev.tokenFail d x1 x2 x3).hostRest = d.hostRest := by
  simp [Dev.tokenFail]
@[simp] theorem Dev.templateBuild_hostRest (d x1 x2 x3) : (Dev.templateBuild d x1 x2 x3).hostRest = d.hostRest := by
  unfold Dev.templateBuild
  (repeat' split) <;> simp
@[simp] theorem Dev.storeImage_hostRest (d x1 x2) : (Dev.storeImage d x1 x2).1.hostRest = d.hostRest := by
  simp [Dev.storeImage]
@[simp] theorem Dev.macsecRow_hostRest (d x1 x2) : (Dev.macsecRow d x1 x2).hostRest = d.hostRest := by
  simp [Dev.macsecRow]
@[simp] theorem Dev.keepValue_hostRest (d x1 x2 x3 x4 x5) : (Dev.keepValue d x1 x2 x3 x4 x5).hostRest = d.hostRest := by
  simp [Dev.keepValue]
@[simp] theorem Dev.applyWords_hostRest (d x1 x2 x3) : (Dev.applyWords d x1 x2 x3).hostRest = d.hostRest := by
  simp [Dev.applyWords]
@[simp] theorem Dev.applyPort_hostRest (d x1 x2) : (Dev.applyPort d x1 x2).hostRest = d.hostRest := by
  simp [Dev.applyPort]
@[simp] theorem Dev.applyPorts_hostRest (d x1) : (Dev.applyPorts d x1).hostRest = d.hostRest := by
  fun_induction Dev.applyPorts d x1 <;> simp_all
@[simp] theorem Dev.splitChange_hostRest (d x1 x2) : (Dev.splitChange d x1 x2).hostRest = d.hostRest := by
  simp [Dev.splitChange]
@[simp] theorem Dev.applyKey_hostRest (d x1) : (Dev.applyKey d x1).hostRest = d.hostRest := by
  simp [Dev.applyKey]
@[simp] theorem Dev.settingApply_hostRest (d) : (Dev.settingApply d).hostRest = d.hostRest := by
  unfold Dev.settingApply
  dsimp only
  (repeat' split) <;> simp
@[simp] theorem Dev.applyAll_hostRest (d x1) : (Dev.applyAll d x1).hostRest = d.hostRest := by
  fun_induction Dev.applyAll d x1 <;> simp_all +zetaDelta

/-! #### Transports -/

@[simp] theorem Dev.canPath_hostRest (d) : (Dev.canPath d).hostRest = d.hostRest := by
  simp [Dev.canPath]
@[simp] theorem Dev.sdoSay_hostRest (d x1) : (Dev.sdoSay d x1).hostRest = d.hostRest := by
  simp [Dev.sdoSay]
@[simp] theorem Dev.sdoAbort_hostRest (d x1 x2 x3) : (Dev.sdoAbort d x1 x2 x3).hostRest = d.hostRest := by
  simp [Dev.sdoAbort]
@[simp] theorem Dev.sessEnd_hostRest (d x1) : (Dev.sessEnd d x1).hostRest = d.hostRest := by
  simp [Dev.sessEnd]
@[simp] theorem Dev.sdoBlock_hostRest (d x1 x2 x3) : (Dev.sdoBlock d x1 x2 x3).hostRest = d.hostRest := by
  simp [Dev.sdoBlock]
@[simp] theorem Dev.sdoUp_hostRest (d x1) : (Dev.sdoUp d x1).hostRest = d.hostRest := by
  unfold Dev.sdoUp
  dsimp only
  (repeat' split) <;> simp
@[simp] theorem Dev.udpSay_hostRest (d x1 x2 x3) : (Dev.udpSay d x1 x2 x3).hostRest = d.hostRest := by
  simp [Dev.udpSay]
@[simp] theorem Dev.udpGet_hostRest (d x1 x2) : (Dev.udpGet d x1 x2).hostRest = d.hostRest := by
  unfold Dev.udpGet
  dsimp only
  (repeat' split) <;> simp
@[simp] theorem Dev.sdoTimeout_hostRest (d x1) : (Dev.sdoTimeout d x1).hostRest = d.hostRest := by
  unfold Dev.sdoTimeout
  dsimp only
  (repeat' split) <;> simp
@[simp] theorem Dev.nmtSet_hostRest (d x1) : (Dev.nmtSet d x1).hostRest = d.hostRest := by
  simp [Dev.nmtSet]
@[simp] theorem Dev.canStart_hostRest (d) : (Dev.canStart d).hostRest = d.hostRest := by
  simp [Dev.canStart]
@[simp] theorem Dev.nmtReset_hostRest (d) : (Dev.nmtReset d).hostRest = d.hostRest := by
  simp [Dev.nmtReset]
@[simp] theorem Dev.heartbeat_hostRest (d) : (Dev.heartbeat d).hostRest = d.hostRest := by
  simp [Dev.heartbeat]
@[simp] theorem Dev.canError_hostRest (d x1 x2) : (Dev.canError d x1 x2).hostRest = d.hostRest := by
  simp [Dev.canError]
@[simp] theorem Dev.udpTimeout_hostRest (d x1) : (Dev.udpTimeout d x1).hostRest = d.hostRest := by
  simp [Dev.udpTimeout]
@[simp] theorem Dev.usbFail_hostRest (d x1 x2 x3) : (Dev.usbFail d x1 x2 x3).hostRest = d.hostRest := by
  simp [Dev.usbFail]
@[simp] theorem Dev.usbGate_hostRest (d : Dev) (i s : Nat) (go : Dev) (h : go.hostRest = d.hostRest) : (d.usbGate i s go).hostRest = d.hostRest := by
  unfold Dev.usbGate
  (repeat' split) <;> simp [h]
@[simp] theorem Dev.usbRead_hostRest (d x1 x2 x3 x4) : (Dev.usbRead d x1 x2 x3 x4).hostRest = d.hostRest := by
  unfold Dev.usbRead
  dsimp only
  (repeat' split) <;> simp
@[simp] theorem Dev.usbWrite_hostRest (d x1 x2 x3 x4) : (Dev.usbWrite d x1 x2 x3 x4).hostRest = d.hostRest := by
  unfold Dev.usbWrite
  dsimp only
  (repeat' split) <;> simp
@[simp] theorem Dev.usbResult_hostRest (d) : (Dev.usbResult d).hostRest = d.hostRest := by
  simp [Dev.usbResult]
@[simp] theorem Dev.usbReset_hostRest (d) : (Dev.usbReset d).hostRest = d.hostRest := by
  simp [Dev.usbReset]
@[simp] theorem Dev.tokenExpire_hostRest (d x1) : (Dev.tokenExpire d x1).hostRest = d.hostRest := by
  simp [Dev.tokenExpire]
@[simp] theorem Dev.pathRise_hostRest (d x1) : (Dev.pathRise d x1).hostRest = d.hostRest := by
  unfold Dev.pathRise
  (repeat' split) <;> simp
@[simp] theorem Dev.pathFall_hostRest (d x1) : (Dev.pathFall d x1).hostRest = d.hostRest := by
  unfold Dev.pathFall
  (repeat' split) <;> simp
@[simp] theorem Dev.mgmtFrame_hostRest (d x1) : (Dev.mgmtFrame d x1).hostRest = d.hostRest := by
  unfold Dev.mgmtFrame
  (repeat' split) <;> simp
@[simp] theorem Dev.puntDone_hostRest (d x1 x2) : (Dev.puntDone d x1 x2).hostRest = d.hostRest := by
  unfold Dev.puntDone
  dsimp only
  (repeat' split) <;> simp
@[simp] theorem Dev.slowSend_hostRest (d x1 x2 x3 x4) : (Dev.slowSend d x1 x2 x3 x4).hostRest = d.hostRest := by
  simp [Dev.slowSend]

/-! #### Firmware -/

@[simp] theorem Dev.imageRefused_hostRest (d x1) : (Dev.imageRefused d x1).hostRest = d.hostRest := by
  simp [Dev.imageRefused]
@[simp] theorem Dev.fwNotice_hostRest (d x1 x2 x3) : (Dev.fwNotice d x1 x2 x3).hostRest = d.hostRest := by
  simp [Dev.fwNotice]
@[simp] theorem Dev.setHeld_hostRest (d x1) : (Dev.setHeld d x1).hostRest = d.hostRest := by
  simp [Dev.setHeld]
@[simp] theorem Dev.quiesce_hostRest (d) : (Dev.quiesce d).hostRest = d.hostRest := by
  simp [Dev.quiesce]
@[simp] theorem Dev.imageSwap_hostRest (d x1 x2) : (Dev.imageSwap d x1 x2).hostRest = d.hostRest := by
  simp [Dev.imageSwap]
@[simp] theorem Dev.exportRecs_hostRest (d) : (Dev.exportRecs d).hostRest = d.hostRest := by
  simp [Dev.exportRecs]
@[simp] theorem Dev.compFresh_hostRest (d x1) : (Dev.compFresh d x1).hostRest = d.hostRest := by
  simp [Dev.compFresh]
@[simp] theorem Dev.importRec_hostRest (d x1) : (Dev.importRec d x1).hostRest = d.hostRest := by
  unfold Dev.importRec
  (repeat' split) <;> simp
@[simp] theorem Dev.importRecs_hostRest (d x1) : (Dev.importRecs d x1).hostRest = d.hostRest := by
  fun_induction Dev.importRecs d x1 <;> simp_all
@[simp] theorem Dev.retainedWrite_hostRest (d) : (Dev.retainedWrite d).hostRest = d.hostRest := by
  simp [Dev.retainedWrite]
@[simp] theorem Dev.assignAll_hostRest (d x1) : (Dev.assignAll d x1).hostRest = d.hostRest := by
  fun_induction Dev.assignAll d x1 <;> simp_all
@[simp] theorem Dev.buildMap_hostRest (d x1) : (Dev.buildMap d x1).hostRest = d.hostRest := by
  unfold Dev.buildMap
  dsimp only
  (repeat' split) <;> simp
@[simp] theorem Dev.bundleKeep_hostRest (d) : (Dev.bundleKeep d).hostRest = d.hostRest := by
  simp [Dev.bundleKeep]
@[simp] theorem Dev.bundleStage_hostRest (d : Dev) (n : Nat) (bs : List Bundle) : (Dev.bundleStage d n bs).hostRest = d.hostRest := by
  induction bs generalizing d with
  | nil => rfl
  | cons b bs ih => simp [Dev.bundleStage, ih, Dev.stageSections_getD_hostRest]
@[simp] theorem Dev.bundleRestore_hostRest (d) : (Dev.bundleRestore d).hostRest = d.hostRest := by
  simp [Dev.bundleRestore]
@[simp] theorem Dev.savedPart_hostRest (d x1 x2) : (Dev.savedPart d x1 x2).hostRest = d.hostRest := by
  simp [Dev.savedPart]
@[simp] theorem Dev.erlBack_hostRest (d x1) : (Dev.erlBack d x1).hostRest = d.hostRest := by
  simp [Dev.erlBack]
@[simp] theorem Dev.saveLogs_hostRest (d x1) : (Dev.saveLogs d x1).hostRest = d.hostRest := by
  unfold Dev.saveLogs
  (repeat' split) <;> simp
@[simp] theorem Dev.saveValues_hostRest (d x1) : (Dev.saveValues d x1).hostRest = d.hostRest := by
  simp [Dev.saveValues]
@[simp] theorem Dev.reportParts_hostRest (d x1) : (Dev.reportParts d x1).hostRest = d.hostRest := by
  unfold Dev.reportParts
  (repeat' split) <;> simp
@[simp] theorem Dev.saveBad_hostRest (d x1) : (Dev.saveBad d x1).hostRest = d.hostRest := by
  unfold Dev.saveBad
  (repeat' split) <;> simp
@[simp] theorem Dev.saveTake_hostRest (d) : (Dev.saveTake d).hostRest = d.hostRest := by
  simp [Dev.saveTake]
@[simp] theorem Dev.dictLoad_hostRest (d) : (Dev.dictLoad d).hostRest = d.hostRest := by
  unfold Dev.dictLoad
  dsimp only
  (repeat' split) <;> simp
@[simp] theorem Dev.dictRestore_hostRest (d) : (Dev.dictRestore d).hostRest = d.hostRest := by
  simp [Dev.dictRestore]
@[simp] theorem Dev.arraysFail_hostRest (d x1) : (Dev.arraysFail d x1).hostRest = d.hostRest := by
  fun_induction Dev.arraysFail d x1 <;> simp_all
@[simp] theorem Dev.arrayTest_hostRest (d x1) : (Dev.arrayTest d x1).hostRest = d.hostRest := by
  simp [Dev.arrayTest]
@[simp] theorem Dev.quadsFail_hostRest (d x1) : (Dev.quadsFail d x1).hostRest = d.hostRest := by
  fun_induction Dev.quadsFail d x1 <;> simp_all
@[simp] theorem Dev.startSequence_hostRest (d x1) : (Dev.startSequence d x1).hostRest = d.hostRest := by
  simp [Dev.startSequence]
@[simp] theorem Dev.partitionRestage_hostRest (d) : (Dev.partitionRestage d).hostRest = d.hostRest := by
  unfold Dev.partitionRestage
  (repeat' split) <;> simp

/-! #### Security -/

@[simp] theorem Dev.spdmSay_hostRest (d x1) : (Dev.spdmSay d x1).hostRest = d.hostRest := by
  simp [Dev.spdmSay]
@[simp] theorem Dev.spdmErr_hostRest (d x1 x2) : (Dev.spdmErr d x1 x2).hostRest = d.hostRest := by
  simp [Dev.spdmErr]
@[simp] theorem Dev.spdmAnswer_hostRest (d x1 x2) : (Dev.spdmAnswer d x1 x2).hostRest = d.hostRest := by
  simp [Dev.spdmAnswer]
@[simp] theorem Dev.draw_hostRest (d x1) : (Dev.draw d x1).2.hostRest = d.hostRest := by
  simp [Dev.draw]
theorem Dev.spdmGate_hostRest (d : Dev) (sid : Option Nat) (req : List Byte) (len need : Nat) (go : Dev) (h : go.hostRest = d.hostRest) :
    (d.spdmGate sid req len need go).hostRest = d.hostRest := by
  unfold Dev.spdmGate
  (repeat' split) <;> simp [h]
@[simp] theorem Dev.spdmSigned_hostRest (d x1 x2) : (Dev.spdmSigned d x1 x2).hostRest = d.hostRest := by
  unfold Dev.spdmSigned
  dsimp only
  (repeat' split) <;> simp
@[simp] theorem Dev.spdmSign_hostRest (d x1 x2 x3 x4) : (Dev.spdmSign d x1 x2 x3 x4).hostRest = d.hostRest := by
  simp [Dev.spdmSign]
@[simp] theorem Dev.getVersion_hostRest (d x1) : (Dev.getVersion d x1).hostRest = d.hostRest := by
  simp [Dev.getVersion]
@[simp] theorem Dev.getCapabilities_hostRest (d x1) : (Dev.getCapabilities d x1).hostRest = d.hostRest := by
  unfold Dev.getCapabilities
  try dsimp only
  refine Dev.spdmGate_hostRest _ _ _ _ _ _ ?_
  (repeat' split) <;> simp
@[simp] theorem Dev.negotiate_hostRest (d x1) : (Dev.negotiate d x1).hostRest = d.hostRest := by
  unfold Dev.negotiate
  try dsimp only
  refine Dev.spdmGate_hostRest _ _ _ _ _ _ ?_
  (repeat' split) <;> simp
@[simp] theorem Dev.getDigests_hostRest (d x1 x2) : (Dev.getDigests d x1 x2).hostRest = d.hostRest := by
  unfold Dev.getDigests
  try dsimp only
  refine Dev.spdmGate_hostRest _ _ _ _ _ _ ?_
  (repeat' split) <;> simp
@[simp] theorem Dev.getCertificate_hostRest (d x1 x2) : (Dev.getCertificate d x1 x2).hostRest = d.hostRest := by
  unfold Dev.getCertificate
  try dsimp only
  refine Dev.spdmGate_hostRest _ _ _ _ _ _ ?_
  (repeat' split) <;> simp
@[simp] theorem Dev.spdmChallenge_hostRest (d x1 x2) : (Dev.spdmChallenge d x1 x2).hostRest = d.hostRest := by
  unfold Dev.spdmChallenge
  try dsimp only
  refine Dev.spdmGate_hostRest _ _ _ _ _ _ ?_
  (repeat' split) <;> simp
@[simp] theorem Dev.getMeasurements_hostRest (d x1 x2) : (Dev.getMeasurements d x1 x2).hostRest = d.hostRest := by
  unfold Dev.getMeasurements
  try dsimp only
  refine Dev.spdmGate_hostRest _ _ _ _ _ _ ?_
  (repeat' split) <;> simp
@[simp] theorem Dev.keyExchange_hostRest (d x1 x2) : (Dev.keyExchange d x1 x2).hostRest = d.hostRest := by
  unfold Dev.keyExchange
  try dsimp only
  refine Dev.spdmGate_hostRest _ _ _ _ _ _ ?_
  (repeat' split) <;> simp
@[simp] theorem Dev.spdmFinish_hostRest (d x1 x2) : (Dev.spdmFinish d x1 x2).hostRest = d.hostRest := by
  unfold Dev.spdmFinish
  try dsimp only
  refine Dev.spdmGate_hostRest _ _ _ _ _ _ ?_
  (repeat' split) <;> simp
@[simp] theorem Dev.spdmHeartbeat_hostRest (d s r) : (Dev.spdmHeartbeat d s r).hostRest = d.hostRest := by
  refine Dev.spdmGate_hostRest _ _ _ _ _ _ ?_
  split <;> simp
@[simp] theorem Dev.endSession_hostRest (d x1 x2) : (Dev.endSession d x1 x2).hostRest = d.hostRest := by
  unfold Dev.endSession
  try dsimp only
  refine Dev.spdmGate_hostRest _ _ _ _ _ _ ?_
  (repeat' split) <;> simp
@[simp] theorem Dev.vendorRequest_hostRest (d x1 x2) : (Dev.vendorRequest d x1 x2).hostRest = d.hostRest := by
  unfold Dev.vendorRequest
  try dsimp only
  refine Dev.spdmGate_hostRest _ _ _ _ _ _ ?_
  (repeat' split) <;> simp
@[simp] theorem Dev.newChallenge_hostRest (d) : (Dev.newChallenge d).hostRest = d.hostRest := by
  simp [Dev.newChallenge]
@[simp] theorem Dev.debugUnlock_hostRest (d x1) : (Dev.debugUnlock d x1).hostRest = d.hostRest := by
  simp [Dev.debugUnlock]
@[simp] theorem Dev.tapReset_hostRest (d) : (Dev.tapReset d).hostRest = d.hostRest := by
  simp [Dev.tapReset]
@[simp] theorem Dev.txanRecord_hostRest (d x1 x2) : (Dev.txanRecord d x1 x2).hostRest = d.hostRest := by
  simp [Dev.txanRecord]
@[simp] theorem Dev.pnwarn_hostRest (d x1) : (Dev.pnwarn d x1).hostRest = d.hostRest := by
  unfold Dev.pnwarn
  dsimp only
  (repeat' split) <;> simp

/-! #### Power -/

@[simp] theorem Dev.boardBad_hostRest (d) : (Dev.boardBad d).hostRest = d.hostRest := by
  simp [Dev.boardBad]
@[simp] theorem Dev.bootRegs_hostRest (d) : (Dev.bootRegs d).hostRest = d.hostRest := by
  simp [Dev.bootRegs]
@[simp] theorem Dev.resetWord_hostRest (d x1 x2 x3) : (Dev.resetWord d x1 x2 x3).hostRest = d.hostRest := by
  simp [Dev.resetWord]
@[simp] theorem Dev.saveSkip_hostRest (d) : (Dev.saveSkip d).hostRest = d.hostRest := by
  simp [Dev.saveSkip]
@[simp] theorem Dev.saveBegin_hostRest (d x1) : (Dev.saveBegin d x1).hostRest = d.hostRest := by
  simp [Dev.saveBegin]
@[simp] theorem Dev.sagTrigger_hostRest (d x1) : (Dev.sagTrigger d x1).hostRest = d.hostRest := by
  simp [Dev.sagTrigger]
@[simp] theorem Dev.pgoodFall_hostRest (d x1 x2) : (Dev.pgoodFall d x1 x2).hostRest = d.hostRest := by
  simp [Dev.pgoodFall]
@[simp] theorem Dev.netDefect_hostRest (d x1) : (Dev.netDefect d x1).hostRest = d.hostRest := by
  unfold Dev.netDefect
  dsimp only
  (repeat' split) <;> simp
@[simp] theorem Dev.failsafeTry_hostRest (d) : (Dev.failsafeTry d).hostRest = d.hostRest := by
  simp [Dev.failsafeTry]

/-! #### Exec -/

@[simp] theorem Dev.hostDo_hostRest (d : Dev) (w : Req) (f : Dev → Dev) (h : (f d).hostRest = d.hostRest) : (d.hostDo w f).hostRest = d.hostRest := by
  unfold Dev.hostDo
  (repeat' split) <;> simp [h]
@[simp] theorem Dev.fnDo_hostRest (d : Dev) (w : Option Nat) (f : Dev → Dev) (h : (f d).hostRest = d.hostRest) : (d.fnDo w f).hostRest = d.hostRest := by
  unfold Dev.fnDo
  (repeat' split) <;> simp [h]
@[simp] theorem Dev.blockDo_hostRest (d : Dev) (w : Req) (f : Dev → Dev) (h : (f d).hostRest = d.hostRest) : (d.blockDo w f).hostRest = d.hostRest := by
  unfold Dev.blockDo
  split
  · rfl
  · exact Dev.hostDo_hostRest d w f h
@[simp] theorem Dev.fwDo_hostRest (d : Dev) (f : Dev → Dev) (h : (f d).hostRest = d.hostRest) : (d.fwDo f).hostRest = d.hostRest := by
  unfold Dev.fwDo
  (repeat' split) <;> simp [h]
@[simp] theorem Dev.linkDo_hostRest (d : Dev) (f : Dev → Dev) (h : (f d).hostRest = d.hostRest) : (d.linkDo f).hostRest = d.hostRest := by
  unfold Dev.linkDo
  (repeat' split) <;> simp [h]
@[simp] theorem Dev.vfDo_hostRest (d : Dev) (n : Nat) (f : Dev → Dev) (h : (f d).hostRest = d.hostRest) : (d.vfDo n f).hostRest = d.hostRest := by
  unfold Dev.vfDo
  (repeat' split) <;> simp [h]
@[simp] theorem Dev.idle_hostRest (d) : (Dev.idle d).hostRest = d.hostRest := by
  simp [Dev.idle]
/-- A register write that no firmware component makes takes no protection fault (R408). -/
theorem Dev.writeDo_hostRest {d : Dev} {w : Req} {k : Nat} {b : Bool} {f : Dev → Dev} (hw : w.isFw = false) (h : (f d).hostRest = d.hostRest) :
    (d.writeDo w k b f).hostRest = d.hostRest := by
  unfold Dev.writeDo
  split
  · exact absurd hw (by simp [Req.isFw])
  · exact Dev.hostDo_hostRest d w f h
theorem Dev.blockWriteDo_hostRest {d : Dev} {w : Req} {k : Nat} {f : Dev → Dev} (hw : w.isFw = false) (h : (f d).hostRest = d.hostRest) :
    (d.blockWriteDo w k f).hostRest = d.hostRest := by
  unfold Dev.blockWriteDo
  split
  · rfl
  · exact Dev.writeDo_hostRest hw h

end Sys2Proof
end

