-- ==== Sys2Proof/Laws/State.lean ====
section
/-! SUPPORT. What reading a field gives after an update. The first part turns a field into a part of `Dev.control`, `Dev.tensor` or
`Dev.plane`, of which every function of the machine has a lemma (use `simp [Dev.core_eq]` and the like); the second says, for each shared
operation, which of the other fields it leaves alone; the third is about registers. -/

namespace Sys2Proof

/-! ### Fields as parts -/

theorem Dev.sec_eq (d : Dev) : d.sec = d.control.sec := by unfold Dev.control; rfl
theorem Dev.pwr_eq (d : Dev) : d.pwr = d.control.pwr := by unfold Dev.control; rfl
theorem Dev.dict_eq (d : Dev) : d.dict = d.control.dict := by unfold Dev.control; rfl
theorem Dev.fw_eq (d : Dev) : d.fw = d.control.fw := by unfold Dev.control; rfl
theorem Dev.alive_eq (d : Dev) : d.alive = d.control.alive := by unfold Dev.control; rfl
theorem Dev.now_eq (d : Dev) : d.now = d.control.now := by unfold Dev.control; rfl
theorem Dev.pqRegs_eq (d : Dev) : d.pqRegs = d.control.pqRegs := by unfold Dev.control; rfl
theorem Dev.mem_eq (d : Dev) : d.mem = d.tensor.mem := by unfold Dev.tensor; rfl
theorem Dev.core_eq (d : Dev) : d.core = d.tensor.core := by unfold Dev.tensor; rfl
theorem Dev.lck_eq (d : Dev) : d.lck = d.tensor.lck := by unfold Dev.tensor; rfl
theorem Dev.ptn_eq (d : Dev) : d.ptn = d.tensor.ptn := by unfold Dev.tensor; rfl
theorem Dev.store_eq (d : Dev) : d.store = d.tensor.store := by unfold Dev.tensor; rfl
theorem Dev.flow_eq (d : Dev) : d.flow = d.plane.flow := by unfold Dev.plane; rfl
theorem Dev.tmu_eq (d : Dev) : d.tmu = d.plane.tmu := by unfold Dev.plane; rfl

/-! ### The host interface without its pending MSI-X raises -/

theorem Dev.host_mbx_eq (d : Dev) : d.host.mbx = d.hostRest.mbx := by unfold Dev.hostRest; rfl
theorem Dev.host_dma_eq (d : Dev) : d.host.dma = d.hostRest.dma := by unfold Dev.hostRest; rfl
theorem Dev.host_rlatch_eq (d : Dev) : d.host.rlatch = d.hostRest.rlatch := by unfold Dev.hostRest; rfl
theorem Dev.host_wlatch_eq (d : Dev) : d.host.wlatch = d.hostRest.wlatch := by unfold Dev.hostRest; rfl
theorem Dev.host_nowLatch_eq (d : Dev) : d.host.nowLatch = d.hostRest.nowLatch := by unfold Dev.hostRest; rfl
theorem Dev.host_msixEn_eq (d : Dev) : d.host.msixEn = d.hostRest.msixEn := by unfold Dev.hostRest; rfl
theorem Dev.host_bme_eq (d : Dev) : d.host.bme = d.hostRest.bme := by unfold Dev.hostRest; rfl
theorem Dev.host_mse_eq (d : Dev) : d.host.mse = d.hostRest.mse := by unfold Dev.hostRest; rfl
theorem Dev.host_vfEnable_eq (d : Dev) : d.host.vfEnable = d.hostRest.vfEnable := by unfold Dev.hostRest; rfl
theorem Dev.host_numVfs_eq (d : Dev) : d.host.numVfs = d.hostRest.numVfs := by unfold Dev.hostRest; rfl
theorem Dev.host_linkUp_eq (d : Dev) : d.host.linkUp = d.hostRest.linkUp := by unfold Dev.hostRest; rfl
theorem Dev.host_direct_eq (d : Dev) : d.host.direct = d.hostRest.direct := by unfold Dev.hostRest; rfl

/-! ### The shared operations -/

@[simp] theorem Dev.wr_free (d x1 x2) : (Dev.wr d x1 x2).free = d.free := by
  simp [Dev.wr]
@[simp] theorem Dev.wr_erl (d x1 x2) : (Dev.wr d x1 x2).erl = d.erl := by
  simp [Dev.wr]
@[simp] theorem Dev.wr_tel (d x1 x2) : (Dev.wr d x1 x2).tel = d.tel := by
  simp [Dev.wr]
@[simp] theorem Dev.wr_cat (d x1 x2) : (Dev.wr d x1 x2).cat = d.cat := by
  simp [Dev.wr]
@[simp] theorem Dev.wr_pq (d x1 x2) : (Dev.wr d x1 x2).pq = d.pq := by
  simp [Dev.wr]
@[simp] theorem Dev.wr_out (d x1 x2) : (Dev.wr d x1 x2).out = d.out := by
  simp [Dev.wr]
@[simp] theorem Dev.wrN_free (d x1 x2) : (Dev.wrN d x1 x2).free = d.free := by
  simp [Dev.wrN]
@[simp] theorem Dev.wrN_erl (d x1 x2) : (Dev.wrN d x1 x2).erl = d.erl := by
  simp [Dev.wrN]
@[simp] theorem Dev.wrN_tel (d x1 x2) : (Dev.wrN d x1 x2).tel = d.tel := by
  simp [Dev.wrN]
@[simp] theorem Dev.wrN_cat (d x1 x2) : (Dev.wrN d x1 x2).cat = d.cat := by
  simp [Dev.wrN]
@[simp] theorem Dev.wrN_pq (d x1 x2) : (Dev.wrN d x1 x2).pq = d.pq := by
  simp [Dev.wrN]
@[simp] theorem Dev.wrN_out (d x1 x2) : (Dev.wrN d x1 x2).out = d.out := by
  simp [Dev.wrN]
@[simp] theorem Dev.count_free (d x1 x2) : (Dev.count d x1 x2).free = d.free := by
  simp [Dev.count]
@[simp] theorem Dev.count_erl (d x1 x2) : (Dev.count d x1 x2).erl = d.erl := by
  simp [Dev.count]
@[simp] theorem Dev.count_tel (d x1 x2) : (Dev.count d x1 x2).tel = d.tel := by
  simp [Dev.count]
@[simp] theorem Dev.count_cat (d x1 x2) : (Dev.count d x1 x2).cat = d.cat := by
  simp [Dev.count]
@[simp] theorem Dev.count_pq (d x1 x2) : (Dev.count d x1 x2).pq = d.pq := by
  simp [Dev.count]
@[simp] theorem Dev.count_out (d x1 x2) : (Dev.count d x1 x2).out = d.out := by
  simp [Dev.count]
@[simp] theorem Dev.wr64_free (d x1 x2) : (Dev.wr64 d x1 x2).free = d.free := by
  simp [Dev.wr64]
@[simp] theorem Dev.wr64_erl (d x1 x2) : (Dev.wr64 d x1 x2).erl = d.erl := by
  simp [Dev.wr64]
@[simp] theorem Dev.wr64_tel (d x1 x2) : (Dev.wr64 d x1 x2).tel = d.tel := by
  simp [Dev.wr64]
@[simp] theorem Dev.wr64_cat (d x1 x2) : (Dev.wr64 d x1 x2).cat = d.cat := by
  simp [Dev.wr64]
@[simp] theorem Dev.wr64_pq (d x1 x2) : (Dev.wr64 d x1 x2).pq = d.pq := by
  simp [Dev.wr64]
@[simp] theorem Dev.wr64_out (d x1 x2) : (Dev.wr64 d x1 x2).out = d.out := by
  simp [Dev.wr64]
@[simp] theorem Dev.count64_free (d x1 x2) : (Dev.count64 d x1 x2).free = d.free := by
  simp [Dev.count64]
@[simp] theorem Dev.count64_erl (d x1 x2) : (Dev.count64 d x1 x2).erl = d.erl := by
  simp [Dev.count64]
@[simp] theorem Dev.count64_tel (d x1 x2) : (Dev.count64 d x1 x2).tel = d.tel := by
  simp [Dev.count64]
@[simp] theorem Dev.count64_cat (d x1 x2) : (Dev.count64 d x1 x2).cat = d.cat := by
  simp [Dev.count64]
@[simp] theorem Dev.count64_pq (d x1 x2) : (Dev.count64 d x1 x2).pq = d.pq := by
  simp [Dev.count64]
@[simp] theorem Dev.count64_out (d x1 x2) : (Dev.count64 d x1 x2).out = d.out := by
  simp [Dev.count64]
@[simp] theorem Dev.regsReset_free (d x1 x2) : (Dev.regsReset d x1 x2).free = d.free := by
  simp [Dev.regsReset]
@[simp] theorem Dev.regsReset_erl (d x1 x2) : (Dev.regsReset d x1 x2).erl = d.erl := by
  simp [Dev.regsReset]
@[simp] theorem Dev.regsReset_tel (d x1 x2) : (Dev.regsReset d x1 x2).tel = d.tel := by
  simp [Dev.regsReset]
@[simp] theorem Dev.regsReset_cat (d x1 x2) : (Dev.regsReset d x1 x2).cat = d.cat := by
  simp [Dev.regsReset]
@[simp] theorem Dev.regsReset_pq (d x1 x2) : (Dev.regsReset d x1 x2).pq = d.pq := by
  simp [Dev.regsReset]
@[simp] theorem Dev.regsReset_out (d x1 x2) : (Dev.regsReset d x1 x2).out = d.out := by
  simp [Dev.regsReset]
@[simp] theorem Dev.emit_free (d x1) : (Dev.emit d x1).free = d.free := by
  simp [Dev.emit]
@[simp] theorem Dev.emit_regs (d x1) : (Dev.emit d x1).regs = d.regs := by
  simp [Dev.emit]
@[simp] theorem Dev.emit_erl (d x1) : (Dev.emit d x1).erl = d.erl := by
  simp [Dev.emit]
@[simp] theorem Dev.emit_tel (d x1) : (Dev.emit d x1).tel = d.tel := by
  simp [Dev.emit]
@[simp] theorem Dev.emit_cat (d x1) : (Dev.emit d x1).cat = d.cat := by
  simp [Dev.emit]
@[simp] theorem Dev.emit_pq (d x1) : (Dev.emit d x1).pq = d.pq := by
  simp [Dev.emit]
@[simp] theorem Dev.drawN_regs (d) : (Dev.drawN d).2.regs = d.regs := by
  simp [Dev.drawN]
@[simp] theorem Dev.drawN_erl (d) : (Dev.drawN d).2.erl = d.erl := by
  simp [Dev.drawN]
@[simp] theorem Dev.drawN_tel (d) : (Dev.drawN d).2.tel = d.tel := by
  simp [Dev.drawN]
@[simp] theorem Dev.drawN_cat (d) : (Dev.drawN d).2.cat = d.cat := by
  simp [Dev.drawN]
@[simp] theorem Dev.drawN_pq (d) : (Dev.drawN d).2.pq = d.pq := by
  simp [Dev.drawN]
@[simp] theorem Dev.drawN_out (d) : (Dev.drawN d).2.out = d.out := by
  simp [Dev.drawN]
@[simp] theorem Dev.drawB_regs (d) : (Dev.drawB d).2.regs = d.regs := by
  simp [Dev.drawB]
@[simp] theorem Dev.drawB_erl (d) : (Dev.drawB d).2.erl = d.erl := by
  simp [Dev.drawB]
@[simp] theorem Dev.drawB_tel (d) : (Dev.drawB d).2.tel = d.tel := by
  simp [Dev.drawB]
@[simp] theorem Dev.drawB_cat (d) : (Dev.drawB d).2.cat = d.cat := by
  simp [Dev.drawB]
@[simp] theorem Dev.drawB_pq (d) : (Dev.drawB d).2.pq = d.pq := by
  simp [Dev.drawB]
@[simp] theorem Dev.drawB_out (d) : (Dev.drawB d).2.out = d.out := by
  simp [Dev.drawB]
@[simp] theorem Dev.msixRaise_free (d x1 x2) : (Dev.msixRaise d x1 x2).free = d.free := by
  unfold Dev.msixRaise
  dsimp only
  (repeat' split) <;> simp
@[simp] theorem Dev.msixRaise_regs (d x1 x2) : (Dev.msixRaise d x1 x2).regs = d.regs := by
  unfold Dev.msixRaise
  dsimp only
  (repeat' split) <;> simp
@[simp] theorem Dev.msixRaise_erl (d x1 x2) : (Dev.msixRaise d x1 x2).erl = d.erl := by
  unfold Dev.msixRaise
  dsimp only
  (repeat' split) <;> simp
@[simp] theorem Dev.msixRaise_tel (d x1 x2) : (Dev.msixRaise d x1 x2).tel = d.tel := by
  unfold Dev.msixRaise
  dsimp only
  (repeat' split) <;> simp
@[simp] theorem Dev.msixRaise_cat (d x1 x2) : (Dev.msixRaise d x1 x2).cat = d.cat := by
  unfold Dev.msixRaise
  dsimp only
  (repeat' split) <;> simp
@[simp] theorem Dev.msixRaise_pq (d x1 x2) : (Dev.msixRaise d x1 x2).pq = d.pq := by
  unfold Dev.msixRaise
  dsimp only
  (repeat' split) <;> simp
@[simp] theorem Dev.teleMake_free (d x1 x2 x3 x4 x5 x6) : (Dev.teleMake d x1 x2 x3 x4 x5 x6).free = d.free := by
  simp [Dev.teleMake]
@[simp] theorem Dev.teleMake_regs (d x1 x2 x3 x4 x5 x6) : (Dev.teleMake d x1 x2 x3 x4 x5 x6).regs = d.regs := by
  simp [Dev.teleMake]
@[simp] theorem Dev.teleMake_erl (d x1 x2 x3 x4 x5 x6) : (Dev.teleMake d x1 x2 x3 x4 x5 x6).erl = d.erl := by
  simp [Dev.teleMake]
@[simp] theorem Dev.teleMake_cat (d x1 x2 x3 x4 x5 x6) : (Dev.teleMake d x1 x2 x3 x4 x5 x6).cat = d.cat := by
  simp [Dev.teleMake]
@[simp] theorem Dev.teleMake_pq (d x1 x2 x3 x4 x5 x6) : (Dev.teleMake d x1 x2 x3 x4 x5 x6).pq = d.pq := by
  simp [Dev.teleMake]
@[simp] theorem Dev.teleMake_out (d x1 x2 x3 x4 x5 x6) : (Dev.teleMake d x1 x2 x3 x4 x5 x6).out = d.out := by
  simp [Dev.teleMake]
@[simp] theorem Dev.event_free (d x1 x2) : (Dev.event d x1 x2).free = d.free := by
  unfold Dev.event
  dsimp only
  (repeat' split) <;> simp
@[simp] theorem Dev.event_erl (d x1 x2) : (Dev.event d x1 x2).erl = d.erl := by
  unfold Dev.event
  dsimp only
  (repeat' split) <;> simp
@[simp] theorem Dev.event_cat (d x1 x2) : (Dev.event d x1 x2).cat = d.cat := by
  unfold Dev.event
  dsimp only
  (repeat' split) <;> simp
@[simp] theorem Dev.event_pq (d x1 x2) : (Dev.event d x1 x2).pq = d.pq := by
  unfold Dev.event
  dsimp only
  (repeat' split) <;> simp
@[simp] theorem Dev.events_free (d x1 x2) : (Dev.events d x1 x2).free = d.free := by
  fun_induction Dev.events d x1 x2 <;> simp_all
@[simp] theorem Dev.events_erl (d x1 x2) : (Dev.events d x1 x2).erl = d.erl := by
  fun_induction Dev.events d x1 x2 <;> simp_all
@[simp] theorem Dev.events_cat (d x1 x2) : (Dev.events d x1 x2).cat = d.cat := by
  fun_induction Dev.events d x1 x2 <;> simp_all
@[simp] theorem Dev.events_pq (d x1 x2) : (Dev.events d x1 x2).pq = d.pq := by
  fun_induction Dev.events d x1 x2 <;> simp_all
@[simp] theorem Dev.enableWrite_free (d x1 x2) : (Dev.enableWrite d x1 x2).free = d.free := by
  unfold Dev.enableWrite
  dsimp only
  (repeat' split) <;> simp
@[simp] theorem Dev.enableWrite_erl (d x1 x2) : (Dev.enableWrite d x1 x2).erl = d.erl := by
  unfold Dev.enableWrite
  dsimp only
  (repeat' split) <;> simp
@[simp] theorem Dev.enableWrite_tel (d x1 x2) : (Dev.enableWrite d x1 x2).tel = d.tel := by
  unfold Dev.enableWrite
  dsimp only
  (repeat' split) <;> simp
@[simp] theorem Dev.enableWrite_cat (d x1 x2) : (Dev.enableWrite d x1 x2).cat = d.cat := by
  unfold Dev.enableWrite
  dsimp only
  (repeat' split) <;> simp
@[simp] theorem Dev.enableWrite_pq (d x1 x2) : (Dev.enableWrite d x1 x2).pq = d.pq := by
  unfold Dev.enableWrite
  dsimp only
  (repeat' split) <;> simp
@[simp] theorem Dev.alarmSet_free (d x1 x2 x3 x4 x5) : (Dev.alarmSet d x1 x2 x3 x4 x5).free = d.free := by
  unfold Dev.alarmSet
  dsimp only
  (repeat' split) <;> simp
@[simp] theorem Dev.alarmSet_regs (d x1 x2 x3 x4 x5) : (Dev.alarmSet d x1 x2 x3 x4 x5).regs = d.regs := by
  unfold Dev.alarmSet
  dsimp only
  (repeat' split) <;> simp
@[simp] theorem Dev.alarmSet_erl (d x1 x2 x3 x4 x5) : (Dev.alarmSet d x1 x2 x3 x4 x5).erl = d.erl := by
  unfold Dev.alarmSet
  dsimp only
  (repeat' split) <;> simp
@[simp] theorem Dev.alarmSet_cat (d x1 x2 x3 x4 x5) : (Dev.alarmSet d x1 x2 x3 x4 x5).cat = d.cat := by
  unfold Dev.alarmSet
  dsimp only
  (repeat' split) <;> simp
@[simp] theorem Dev.alarmSet_pq (d x1 x2 x3 x4 x5) : (Dev.alarmSet d x1 x2 x3 x4 x5).pq = d.pq := by
  unfold Dev.alarmSet
  dsimp only
  (repeat' split) <;> simp
@[simp] theorem Dev.alarmSet_out (d x1 x2 x3 x4 x5) : (Dev.alarmSet d x1 x2 x3 x4 x5).out = d.out := by
  unfold Dev.alarmSet
  dsimp only
  (repeat' split) <;> simp
@[simp] theorem Dev.erlLost_free (d x1) : (Dev.erlLost d x1).free = d.free := by
  unfold Dev.erlLost
  dsimp only
  (repeat' split) <;> simp
@[simp] theorem Dev.erlLost_cat (d x1) : (Dev.erlLost d x1).cat = d.cat := by
  unfold Dev.erlLost
  dsimp only
  (repeat' split) <;> simp
@[simp] theorem Dev.erlLost_pq (d x1) : (Dev.erlLost d x1).pq = d.pq := by
  unfold Dev.erlLost
  dsimp only
  (repeat' split) <;> simp
@[simp] theorem Dev.reportE_free (d x1) : (Dev.reportE d x1).free = d.free := by
  unfold Dev.reportE
  dsimp only
  (repeat' split) <;> simp
@[simp] theorem Dev.reportE_cat (d x1) : (Dev.reportE d x1).cat = d.cat := by
  unfold Dev.reportE
  dsimp only
  (repeat' split) <;> simp
@[simp] theorem Dev.reportE_pq (d x1) : (Dev.reportE d x1).pq = d.pq := by
  unfold Dev.reportE
  dsimp only
  (repeat' split) <;> simp
@[simp] theorem Dev.report_free (d x1 x2 x3 x4 x5) : (Dev.report d x1 x2 x3 x4 x5).free = d.free := by
  simp [Dev.report]
@[simp] theorem Dev.report_cat (d x1 x2 x3 x4 x5) : (Dev.report d x1 x2 x3 x4 x5).cat = d.cat := by
  simp [Dev.report]
@[simp] theorem Dev.report_pq (d x1 x2 x3 x4 x5) : (Dev.report d x1 x2 x3 x4 x5).pq = d.pq := by
  simp [Dev.report]
@[simp] theorem Dev.catPut_free (d x1) : (Dev.catPut d x1).free = d.free := by
  unfold Dev.catPut
  dsimp only
  (repeat' split) <;> simp
@[simp] theorem Dev.catPut_regs (d x1) : (Dev.catPut d x1).regs = d.regs := by
  unfold Dev.catPut
  dsimp only
  (repeat' split) <;> simp
@[simp] theorem Dev.catPut_erl (d x1) : (Dev.catPut d x1).erl = d.erl := by
  unfold Dev.catPut
  dsimp only
  (repeat' split) <;> simp
@[simp] theorem Dev.catPut_tel (d x1) : (Dev.catPut d x1).tel = d.tel := by
  unfold Dev.catPut
  dsimp only
  (repeat' split) <;> simp
@[simp] theorem Dev.catPut_pq (d x1) : (Dev.catPut d x1).pq = d.pq := by
  unfold Dev.catPut
  dsimp only
  (repeat' split) <;> simp
@[simp] theorem Dev.catPut_out (d x1) : (Dev.catPut d x1).out = d.out := by
  unfold Dev.catPut
  dsimp only
  (repeat' split) <;> simp
@[simp] theorem Dev.notice_free (d x1 x2 x3) : (Dev.notice d x1 x2 x3).free = d.free := by
  simp [Dev.notice]
@[simp] theorem Dev.notice_regs (d x1 x2 x3) : (Dev.notice d x1 x2 x3).regs = d.regs := by
  simp [Dev.notice]
@[simp] theorem Dev.notice_erl (d x1 x2 x3) : (Dev.notice d x1 x2 x3).erl = d.erl := by
  simp [Dev.notice]
@[simp] theorem Dev.notice_tel (d x1 x2 x3) : (Dev.notice d x1 x2 x3).tel = d.tel := by
  simp [Dev.notice]
@[simp] theorem Dev.notice_pq (d x1 x2 x3) : (Dev.notice d x1 x2 x3).pq = d.pq := by
  simp [Dev.notice]
@[simp] theorem Dev.notice_out (d x1 x2 x3) : (Dev.notice d x1 x2 x3).out = d.out := by
  simp [Dev.notice]
@[simp] theorem Dev.pqSet_free (d x1 x2) : (Dev.pqSet d x1 x2).free = d.free := by
  simp [Dev.pqSet]
@[simp] theorem Dev.pqSet_regs (d x1 x2) : (Dev.pqSet d x1 x2).regs = d.regs := by
  simp [Dev.pqSet]
@[simp] theorem Dev.pqSet_erl (d x1 x2) : (Dev.pqSet d x1 x2).erl = d.erl := by
  simp [Dev.pqSet]
@[simp] theorem Dev.pqSet_tel (d x1 x2) : (Dev.pqSet d x1 x2).tel = d.tel := by
  simp [Dev.pqSet]
@[simp] theorem Dev.pqSet_cat (d x1 x2) : (Dev.pqSet d x1 x2).cat = d.cat := by
  simp [Dev.pqSet]
@[simp] theorem Dev.pqSet_out (d x1 x2) : (Dev.pqSet d x1 x2).out = d.out := by
  simp [Dev.pqSet]
@[simp] theorem Dev.pqPush_free (d x1 x2 x3) : (Dev.pqPush d x1 x2 x3).1.free = d.free := by
  unfold Dev.pqPush
  dsimp only
  (repeat' split) <;> simp
@[simp] theorem Dev.pqPush_erl (d x1 x2 x3) : (Dev.pqPush d x1 x2 x3).1.erl = d.erl := by
  unfold Dev.pqPush
  dsimp only
  (repeat' split) <;> simp
@[simp] theorem Dev.pqPush_cat (d x1 x2 x3) : (Dev.pqPush d x1 x2 x3).1.cat = d.cat := by
  unfold Dev.pqPush
  dsimp only
  (repeat' split) <;> simp
@[simp] theorem Dev.pqEmpty_free (d x1) : (Dev.pqEmpty d x1).free = d.free := by
  simp [Dev.pqEmpty]
@[simp] theorem Dev.pqEmpty_erl (d x1) : (Dev.pqEmpty d x1).erl = d.erl := by
  simp [Dev.pqEmpty]
@[simp] theorem Dev.pqEmpty_tel (d x1) : (Dev.pqEmpty d x1).tel = d.tel := by
  simp [Dev.pqEmpty]
@[simp] theorem Dev.pqEmpty_cat (d x1) : (Dev.pqEmpty d x1).cat = d.cat := by
  simp [Dev.pqEmpty]
@[simp] theorem Dev.pqEmpty_out (d x1) : (Dev.pqEmpty d x1).out = d.out := by
  simp [Dev.pqEmpty]
@[simp] theorem Dev.lckSet_free (d x1 x2) : (Dev.lckSet d x1 x2).free = d.free := by
  simp [Dev.lckSet]
@[simp] theorem Dev.lckSet_regs (d x1 x2) : (Dev.lckSet d x1 x2).regs = d.regs := by
  simp [Dev.lckSet]
@[simp] theorem Dev.lckSet_erl (d x1 x2) : (Dev.lckSet d x1 x2).erl = d.erl := by
  simp [Dev.lckSet]
@[simp] theorem Dev.lckSet_tel (d x1 x2) : (Dev.lckSet d x1 x2).tel = d.tel := by
  simp [Dev.lckSet]
@[simp] theorem Dev.lckSet_cat (d x1 x2) : (Dev.lckSet d x1 x2).cat = d.cat := by
  simp [Dev.lckSet]
@[simp] theorem Dev.lckSet_pq (d x1 x2) : (Dev.lckSet d x1 x2).pq = d.pq := by
  simp [Dev.lckSet]
@[simp] theorem Dev.lckSet_out (d x1 x2) : (Dev.lckSet d x1 x2).out = d.out := by
  simp [Dev.lckSet]
@[simp] theorem Dev.lckAcquire_free (d x1 x2 x3) : (Dev.lckAcquire d x1 x2 x3).1.free = d.free := by
  unfold Dev.lckAcquire
  dsimp only
  (repeat' split) <;> simp
@[simp] theorem Dev.lckAcquire_regs (d x1 x2 x3) : (Dev.lckAcquire d x1 x2 x3).1.regs = d.regs := by
  unfold Dev.lckAcquire
  dsimp only
  (repeat' split) <;> simp
@[simp] theorem Dev.lckAcquire_erl (d x1 x2 x3) : (Dev.lckAcquire d x1 x2 x3).1.erl = d.erl := by
  unfold Dev.lckAcquire
  dsimp only
  (repeat' split) <;> simp
@[simp] theorem Dev.lckAcquire_tel (d x1 x2 x3) : (Dev.lckAcquire d x1 x2 x3).1.tel = d.tel := by
  unfold Dev.lckAcquire
  dsimp only
  (repeat' split) <;> simp
@[simp] theorem Dev.lckAcquire_cat (d x1 x2 x3) : (Dev.lckAcquire d x1 x2 x3).1.cat = d.cat := by
  unfold Dev.lckAcquire
  dsimp only
  (repeat' split) <;> simp
@[simp] theorem Dev.lckAcquire_pq (d x1 x2 x3) : (Dev.lckAcquire d x1 x2 x3).1.pq = d.pq := by
  unfold Dev.lckAcquire
  dsimp only
  (repeat' split) <;> simp
@[simp] theorem Dev.lckAcquire_out (d x1 x2 x3) : (Dev.lckAcquire d x1 x2 x3).1.out = d.out := by
  unfold Dev.lckAcquire
  dsimp only
  (repeat' split) <;> simp
@[simp] theorem Dev.lckRelease_free (d x1 x2) : (Dev.lckRelease d x1 x2).free = d.free := by
  unfold Dev.lckRelease
  dsimp only
  (repeat' split) <;> simp
@[simp] theorem Dev.lckRelease_cat (d x1 x2) : (Dev.lckRelease d x1 x2).cat = d.cat := by
  unfold Dev.lckRelease
  dsimp only
  (repeat' split) <;> simp
@[simp] theorem Dev.lckRelease_pq (d x1 x2) : (Dev.lckRelease d x1 x2).pq = d.pq := by
  unfold Dev.lckRelease
  dsimp only
  (repeat' split) <;> simp
@[simp] theorem Dev.lckForce_free (d x1 x2) : (Dev.lckForce d x1 x2).free = d.free := by
  unfold Dev.lckForce
  dsimp only
  (repeat' split) <;> simp
@[simp] theorem Dev.lckForce_cat (d x1 x2) : (Dev.lckForce d x1 x2).cat = d.cat := by
  unfold Dev.lckForce
  dsimp only
  (repeat' split) <;> simp
@[simp] theorem Dev.lckForce_pq (d x1 x2) : (Dev.lckForce d x1 x2).pq = d.pq := by
  unfold Dev.lckForce
  dsimp only
  (repeat' split) <;> simp
@[simp] theorem Dev.lckForceList_free (d x1 x2) : (Dev.lckForceList d x1 x2).free = d.free := by
  fun_induction Dev.lckForceList d x1 x2 <;> simp_all
@[simp] theorem Dev.lckForceList_cat (d x1 x2) : (Dev.lckForceList d x1 x2).cat = d.cat := by
  fun_induction Dev.lckForceList d x1 x2 <;> simp_all
@[simp] theorem Dev.lckForceList_pq (d x1 x2) : (Dev.lckForceList d x1 x2).pq = d.pq := by
  fun_induction Dev.lckForceList d x1 x2 <;> simp_all
@[simp] theorem Dev.lckForceOwner_free (d x1 x2) : (Dev.lckForceOwner d x1 x2).free = d.free := by
  simp [Dev.lckForceOwner]
@[simp] theorem Dev.lckForceOwner_cat (d x1 x2) : (Dev.lckForceOwner d x1 x2).cat = d.cat := by
  simp [Dev.lckForceOwner]
@[simp] theorem Dev.lckForceOwner_pq (d x1 x2) : (Dev.lckForceOwner d x1 x2).pq = d.pq := by
  simp [Dev.lckForceOwner]
@[simp] theorem Dev.ptnSet_free (d x1 x2) : (Dev.ptnSet d x1 x2).free = d.free := by
  simp [Dev.ptnSet]
@[simp] theorem Dev.ptnSet_regs (d x1 x2) : (Dev.ptnSet d x1 x2).regs = d.regs := by
  simp [Dev.ptnSet]
@[simp] theorem Dev.ptnSet_erl (d x1 x2) : (Dev.ptnSet d x1 x2).erl = d.erl := by
  simp [Dev.ptnSet]
@[simp] theorem Dev.ptnSet_tel (d x1 x2) : (Dev.ptnSet d x1 x2).tel = d.tel := by
  simp [Dev.ptnSet]
@[simp] theorem Dev.ptnSet_cat (d x1 x2) : (Dev.ptnSet d x1 x2).cat = d.cat := by
  simp [Dev.ptnSet]
@[simp] theorem Dev.ptnSet_pq (d x1 x2) : (Dev.ptnSet d x1 x2).pq = d.pq := by
  simp [Dev.ptnSet]
@[simp] theorem Dev.ptnSet_out (d x1 x2) : (Dev.ptnSet d x1 x2).out = d.out := by
  simp [Dev.ptnSet]
@[simp] theorem Dev.accErr_free (d x1 x2 x3 x4 x5) : (Dev.accErr d x1 x2 x3 x4 x5).free = d.free := by
  unfold Dev.accErr
  dsimp only
  (repeat' split) <;> simp
@[simp] theorem Dev.accErr_erl (d x1 x2 x3 x4 x5) : (Dev.accErr d x1 x2 x3 x4 x5).erl = d.erl := by
  unfold Dev.accErr
  dsimp only
  (repeat' split) <;> simp
@[simp] theorem Dev.accErr_cat (d x1 x2 x3 x4 x5) : (Dev.accErr d x1 x2 x3 x4 x5).cat = d.cat := by
  unfold Dev.accErr
  dsimp only
  (repeat' split) <;> simp
@[simp] theorem Dev.accErr_pq (d x1 x2 x3 x4 x5) : (Dev.accErr d x1 x2 x3 x4 x5).pq = d.pq := by
  unfold Dev.accErr
  dsimp only
  (repeat' split) <;> simp
@[simp] theorem Dev.accLog_free (d x1 x2 x3) : (Dev.accLog d x1 x2 x3).free = d.free := by
  simp [Dev.accLog]
@[simp] theorem Dev.accLog_cat (d x1 x2 x3) : (Dev.accLog d x1 x2 x3).cat = d.cat := by
  simp [Dev.accLog]
@[simp] theorem Dev.accLog_pq (d x1 x2 x3) : (Dev.accLog d x1 x2 x3).pq = d.pq := by
  simp [Dev.accLog]

/-! ### Operations that leave every register -/

theorem Dev.rd_of_regs {d e : Dev} (h : e.regs = d.regs) (k : Nat) : e.rd k = d.rd k := by unfold Dev.rd; rw [h]
theorem Dev.rdN_of_regs {d e : Dev} (h : e.regs = d.regs) (k : Nat) : e.rdN k = d.rdN k := by unfold Dev.rdN; rw [Dev.rd_of_regs h]

@[simp] theorem Dev.emit_rd (d x1 k) : (Dev.emit d x1).rd k = d.rd k := Dev.rd_of_regs (by simp) k
@[simp] theorem Dev.emit_rdN (d x1 k) : (Dev.emit d x1).rdN k = d.rdN k := Dev.rdN_of_regs (by simp) k
@[simp] theorem Dev.drawN_rd (d k) : (Dev.drawN d).2.rd k = d.rd k := Dev.rd_of_regs (by simp) k
@[simp] theorem Dev.drawN_rdN (d k) : (Dev.drawN d).2.rdN k = d.rdN k := Dev.rdN_of_regs (by simp) k
@[simp] theorem Dev.drawB_rd (d k) : (Dev.drawB d).2.rd k = d.rd k := Dev.rd_of_regs (by simp) k
@[simp] theorem Dev.drawB_rdN (d k) : (Dev.drawB d).2.rdN k = d.rdN k := Dev.rdN_of_regs (by simp) k
@[simp] theorem Dev.msixRaise_rd (d x1 x2 k) : (Dev.msixRaise d x1 x2).rd k = d.rd k := Dev.rd_of_regs (by simp) k
@[simp] theorem Dev.msixRaise_rdN (d x1 x2 k) : (Dev.msixRaise d x1 x2).rdN k = d.rdN k := Dev.rdN_of_regs (by simp) k
@[simp] theorem Dev.teleMake_rd (d x1 x2 x3 x4 x5 x6 k) : (Dev.teleMake d x1 x2 x3 x4 x5 x6).rd k = d.rd k := Dev.rd_of_regs (by simp) k
@[simp] theorem Dev.teleMake_rdN (d x1 x2 x3 x4 x5 x6 k) : (Dev.teleMake d x1 x2 x3 x4 x5 x6).rdN k = d.rdN k := Dev.rdN_of_regs (by simp) k
@[simp] theorem Dev.alarmSet_rd (d x1 x2 x3 x4 x5 k) : (Dev.alarmSet d x1 x2 x3 x4 x5).rd k = d.rd k := Dev.rd_of_regs (by simp) k
@[simp] theorem Dev.alarmSet_rdN (d x1 x2 x3 x4 x5 k) : (Dev.alarmSet d x1 x2 x3 x4 x5).rdN k = d.rdN k := Dev.rdN_of_regs (by simp) k
@[simp] theorem Dev.catPut_rd (d x1 k) : (Dev.catPut d x1).rd k = d.rd k := Dev.rd_of_regs (by simp) k
@[simp] theorem Dev.catPut_rdN (d x1 k) : (Dev.catPut d x1).rdN k = d.rdN k := Dev.rdN_of_regs (by simp) k
@[simp] theorem Dev.notice_rd (d x1 x2 x3 k) : (Dev.notice d x1 x2 x3).rd k = d.rd k := Dev.rd_of_regs (by simp) k
@[simp] theorem Dev.notice_rdN (d x1 x2 x3 k) : (Dev.notice d x1 x2 x3).rdN k = d.rdN k := Dev.rdN_of_regs (by simp) k
@[simp] theorem Dev.pqSet_rd (d x1 x2 k) : (Dev.pqSet d x1 x2).rd k = d.rd k := Dev.rd_of_regs (by simp) k
@[simp] theorem Dev.pqSet_rdN (d x1 x2 k) : (Dev.pqSet d x1 x2).rdN k = d.rdN k := Dev.rdN_of_regs (by simp) k
@[simp] theorem Dev.lckSet_rd (d x1 x2 k) : (Dev.lckSet d x1 x2).rd k = d.rd k := Dev.rd_of_regs (by simp) k
@[simp] theorem Dev.lckSet_rdN (d x1 x2 k) : (Dev.lckSet d x1 x2).rdN k = d.rdN k := Dev.rdN_of_regs (by simp) k
@[simp] theorem Dev.lckAcquire_rd (d x1 x2 x3 k) : (Dev.lckAcquire d x1 x2 x3).1.rd k = d.rd k := Dev.rd_of_regs (by simp) k
@[simp] theorem Dev.lckAcquire_rdN (d x1 x2 x3 k) : (Dev.lckAcquire d x1 x2 x3).1.rdN k = d.rdN k := Dev.rdN_of_regs (by simp) k
@[simp] theorem Dev.ptnSet_rd (d x1 x2 k) : (Dev.ptnSet d x1 x2).rd k = d.rd k := Dev.rd_of_regs (by simp) k
@[simp] theorem Dev.ptnSet_rdN (d x1 x2 k) : (Dev.ptnSet d x1 x2).rdN k = d.rdN k := Dev.rdN_of_regs (by simp) k

/-! ### Registers -/

@[simp] theorem Dev.rd_mk (now free alive regs pqRegs host erl tel tmu cat pq lck ptn core mem flow store dict fw sec pwr out k) : (Dev.mk now free alive regs pqRegs host erl tel tmu cat pq lck ptn core mem flow store dict fw sec pwr out).rd k = Tab.get (regReset k) regs k := rfl
@[simp] theorem Dev.rd_fold (d : Dev) (k : Nat) : Tab.get (regReset k) d.regs k = d.rd k := rfl
@[simp] theorem Dev.rdN_mk (now free alive regs pqRegs host erl tel tmu cat pq lck ptn core mem flow store dict fw sec pwr out k) : (Dev.mk now free alive regs pqRegs host erl tel tmu cat pq lck ptn core mem flow store dict fw sec pwr out).rdN k = (Tab.get (regReset k) regs k).toNat := rfl
@[simp] theorem Dev.rdN_fold (d : Dev) (k : Nat) : (d.rd k).toNat = d.rdN k := rfl
theorem Dev.rdN_lt (d : Dev) (k : Nat) : d.rdN k < 4294967296 := (d.rd k).isLt
@[simp] theorem Dev.rd_wr_same (d : Dev) (k : Nat) (v : Word) : (d.wr k v).rd k = v := by
  unfold Dev.wr Dev.rd; exact Tab.get_set_same _ _ _ _
@[simp] theorem Dev.rdN_wr_same (d : Dev) (k : Nat) (v : Word) : (d.wr k v).rdN k = v.toNat := by
  unfold Dev.rdN; rw [Dev.rd_wr_same]
@[simp] theorem Dev.rdN_wrN_same (d : Dev) (k v : Nat) : (d.wrN k v).rdN k = v % 4294967296 := by
  unfold Dev.wrN; rw [Dev.rdN_wr_same, BitVec.toNat_ofNat]
@[simp] theorem Dev.rd_wrN_same (d : Dev) (k v : Nat) : (d.wrN k v).rd k = BitVec.ofNat 32 v := by
  unfold Dev.wrN; rw [Dev.rd_wr_same]
theorem Dev.rd_wr_other (d : Dev) {k n : Nat} (v : Word) (h : n ≠ k) : (d.wr k v).rd n = d.rd n := by
  unfold Dev.wr Dev.rd; exact Tab.get_set_other (regReset k) d.regs v h
theorem Dev.rd_wrN_other (d : Dev) {k n : Nat} (v : Nat) (h : n ≠ k) : (d.wrN k v).rd n = d.rd n := Dev.rd_wr_other d _ h
theorem Dev.rdN_wrN_other (d : Dev) {k n : Nat} (v : Nat) (h : n ≠ k) : (d.wrN k v).rdN n = d.rdN n := by
  unfold Dev.rdN; rw [Dev.rd_wrN_other _ _ h]
@[simp] theorem Dev.rdN_count_same (d : Dev) (k n : Nat) : (d.count k n).rdN k = stick32 (d.rdN k + n) := by
  unfold Dev.count
  rw [Dev.rdN_wrN_same]
  unfold stick32
  omega
theorem Dev.rd_count_other (d : Dev) {k m : Nat} (n : Nat) (h : m ≠ k) : (d.count k n).rd m = d.rd m := Dev.rd_wrN_other d _ h
theorem Dev.rdN_count_other (d : Dev) {k m : Nat} (n : Nat) (h : m ≠ k) : (d.count k n).rdN m = d.rdN m := Dev.rdN_wrN_other d _ h

/-- Setting an event writes one register: bit b is set in it. -/
theorem Dev.event_regs (d : Dev) (k b : Nat) : (d.event k b).regs = if wbit (d.rd k) b then d.regs else (d.wrN k (setBit (d.rdN k) b)).regs := by
  unfold Dev.event
  split
  · rfl
  · dsimp only
    repeat' split
    all_goals simp
theorem Dev.rd_event_other (d : Dev) {k n : Nat} (b : Nat) (h : n ≠ k) : (d.event k b).rd n = d.rd n := by
  unfold Dev.rd
  rw [Dev.event_regs]
  split
  · rfl
  · exact Dev.rd_wrN_other d _ h
theorem Dev.rdN_event_other (d : Dev) {k n : Nat} (b : Nat) (h : n ≠ k) : (d.event k b).rdN n = d.rdN n := by
  unfold Dev.rdN; rw [Dev.rd_event_other _ _ h]

theorem bit_setBit_self (m i : Nat) : bit (setBit m i) i = true := by
  unfold setBit
  split
  · assumption
  · rename_i h
    unfold bit at *
    simp only [decide_eq_true_eq] at *
    have h2 : m / 2 ^ i % 2 = 0 := by omega
    rw [Nat.add_div_right _ (Nat.two_pow_pos i)]
    omega
theorem setBit_lt {m i : Nat} (hm : m < 4294967296) (hi : i < 32) : setBit m i < 4294967296 := by
  unfold setBit
  split
  · exact hm
  · rename_i h
    unfold bit at h
    simp only [decide_eq_true_eq] at h
    have h2 : m / 2 ^ i % 2 = 0 := by omega
    have e : (4294967296 : Nat) = 2 ^ i * 2 ^ (32 - i) := by rw [← Nat.pow_add, show i + (32 - i) = 32 by omega]
    have e2 : (2 : Nat) ^ (32 - i) = 2 * 2 ^ (31 - i) := by rw [show 32 - i = (31 - i) + 1 by omega, Nat.pow_succ, Nat.mul_comm]
    have h3 : m / 2 ^ i < 2 ^ (32 - i) := by
      rw [Nat.div_lt_iff_lt_mul (Nat.two_pow_pos i), Nat.mul_comm, ← e]; exact hm
    have h4 : m / 2 ^ i + 1 < 2 ^ (32 - i) := by omega
    have h5 : (m + 2 ^ i) / 2 ^ i < 2 ^ (32 - i) := by rw [Nat.add_div_right _ (Nat.two_pow_pos i)]; exact h4
    rw [Nat.div_lt_iff_lt_mul (Nat.two_pow_pos i), Nat.mul_comm, ← e] at h5
    exact h5

/-- The register after an event: the bit is set, every other bit keeps. -/
theorem Dev.rdN_event_same (d : Dev) (k b : Nat) (hb : b < 32) : (d.event k b).rdN k = setBit (d.rdN k) b := by
  unfold Dev.rdN Dev.rd
  rw [Dev.event_regs]
  split
  · rename_i h
    rw [Dev.rd_fold, Dev.rdN_fold]
    unfold wbit at h
    rw [Dev.rdN_fold] at h
    unfold setBit
    rw [if_pos h]
  · have := Dev.rdN_wrN_same d k (setBit (d.rdN k) b)
    rw [Nat.mod_eq_of_lt (setBit_lt (d.rdN_lt k) hb)] at this
    exact this
theorem Dev.event_set (d : Dev) (k b : Nat) (hb : b < 32) : wbit ((d.event k b).rd k) b = true := by
  unfold wbit
  rw [Dev.rdN_fold, Dev.rdN_event_same d k b hb]
  exact bit_setBit_self _ _
/-- An event bit once set stays set through further events. -/
theorem Dev.event_keeps (d : Dev) (k b k' b' : Nat) (h : wbit (d.rd k') b' = true) (hb : b < 32) : wbit ((d.event k b).rd k') b' = true := by
  unfold wbit at *
  rw [Dev.rdN_fold] at *
  by_cases hk : k' = k
  · subst hk
    rw [Dev.rdN_event_same d k' b hb]
    exact bit_setBit h
  · rw [Dev.rdN_event_other d b hk]; exact h

/-- A drop of a report writes only registers of the error log. -/
theorem Dev.rd_erlLost_other (d : Dev) (c : Nat) {k : Nat} (h1 : k ≠ erlBase + 0x40 + 4 * c) (h2 : k ≠ erlBase + 0x0C) : (d.erlLost c).rd k = d.rd k := by
  unfold Dev.erlLost
  dsimp only
  split
  · rw [Dev.alarmSet_rd]
    simp only [Dev.rd_mk, Dev.rd_fold]
    rw [Dev.rd_event_other _ _ h2, Dev.rd_count_other _ _ h1]
  · rw [Dev.rd_event_other _ _ h2, Dev.rd_count_other _ _ h1]
theorem dropNewestLow_cls {q q' : List ErlEntry} {x : ErlEntry} (h : dropNewestLow q = some (q', x)) : x.cls < 2 := by
  induction q generalizing q' with
  | nil => cases h
  | cons e es ih =>
    unfold dropNewestLow at h
    split at h
    · rename_i hs; cases h; exact ih hs
    · split at h
      · cases h; assumption
      · cases h
/-- Making a report writes only registers of the error log. -/
theorem Dev.rd_report_other (d : Dev) (src code cls p det : Nat) {k : Nat} (hc : cls ≤ 3) (h : k < erlBase ∨ erlBase + 0x50 ≤ k) :
    (d.report src code cls p det).rd k = d.rd k := by
  unfold Dev.report Dev.reportE
  split
  · simp
  · split
    · exact Dev.rd_erlLost_other _ _ (by simp only [Dev.mkReport]; omega) (by omega)
    · split
      · rename_i hs
        rw [Dev.rd_erlLost_other _ _ (by have := dropNewestLow_cls hs; omega) (by omega)]
        simp
      · exact Dev.rd_erlLost_other _ _ (by simp only [Dev.mkReport]; omega) (by omega)
theorem Dev.rdN_report_other (d : Dev) (src code cls p det : Nat) {k : Nat} (hc : cls ≤ 3) (h : k < erlBase ∨ erlBase + 0x50 ≤ k) :
    (d.report src code cls p det).rdN k = d.rdN k := by unfold Dev.rdN; rw [Dev.rd_report_other d _ _ _ _ _ hc h]
/-- A report enters a queue that has room. -/
theorem Dev.report_queue (d : Dev) (src code cls p det : Nat) (h : d.erl.queue.length < 64) :
    (d.report src code cls p det).erl.queue = d.erl.queue ++ [d.mkReport src code cls p det] := by
  unfold Dev.report Dev.reportE
  rw [if_pos h]

end Sys2Proof
end

