-- ==== Sys2Proof/Laws/Host.lean ====
section
/-! SUPPORT. What the gates of a command do when they are open, and what the mailbox operations leave: the lemmas that statements about
the host interface cite. -/

namespace Sys2Proof

theorem Dev.hostDo_open {d : Dev} {who : Req} (h : d.reqOpen who = true) (f : Dev → Dev) : d.hostDo who f = f d := by
  unfold Dev.hostDo; rw [if_pos h]
theorem Dev.fnDo_open {d : Dev} {fn : Option Nat} (h : d.fnOpen fn = true) (f : Dev → Dev) : d.fnDo fn f = f d := by
  unfold Dev.fnDo; rw [if_pos h]
/-- A write that the permission table lets through is the access itself. -/
theorem Dev.writeDo_open {d : Dev} {who : Req} {key : Nat} (h : d.mayWrite who key = true) (f : Dev → Dev) : d.writeDo who key true f = f d := by
  unfold Dev.mayWrite at h
  simp only [Bool.and_eq_true] at h
  unfold Dev.writeDo Dev.hostDo
  split <;> simp_all
theorem Dev.blockWriteDo_open {d : Dev} {who : Req} {key : Nat} (h : d.mayWrite who key = true) (hb : who.atBlocks = true) (f : Dev → Dev) :
    d.blockWriteDo who key f = f d := by
  unfold Dev.blockWriteDo
  cases who with
  | vf n => simp [Req.atBlocks] at hb
  | _ => exact Dev.writeDo_open h f
/-- One of a requester that is no firmware component is the access itself. -/
theorem Dev.writeDo_host {d : Dev} {who : Req} (h : d.reqOpen who = true) (hw : who.isFw = false) (key : Nat) (b : Bool) (f : Dev → Dev) :
    d.writeDo who key b f = f d := by
  unfold Dev.writeDo Dev.hostDo
  cases who <;> simp_all [Req.isFw]
/-- One that the permission table does not let through takes the protection fault in its place (R408, R409). -/
theorem Dev.writeDo_fault {d : Dev} {c key : Nat} (h : d.reqOpen (.fw c) = true) (hm : d.fwMayWrite c key = false) (b : Bool) (f : Dev → Dev) :
    d.writeDo (.fw c) key b f = d.protFault c key := by
  unfold Dev.reqOpen at h
  unfold Dev.writeDo Dev.fwRuns
  simp_all
theorem Dev.linkDo_open {d : Dev} (h : d.host.linkUp = true) (f : Dev → Dev) : d.linkDo f = f d := by
  unfold Dev.linkDo; rw [if_pos h]
theorem Dev.fwDo_open {d : Dev} (h : d.fwReady = true) (g : d.helds = false) (f : Dev → Dev) : d.fwDo f = f d := by
  unfold Dev.fwDo; simp [h, g]
theorem Dev.reqOpen_fnReq (d : Dev) (fn : Option Nat) : d.reqOpen (fnReq fn) = d.fnOpen fn := by
  cases fn <;> rfl
theorem fnReq_fn (fn : Option Nat) : (fnReq fn).fn? = some fn := by cases fn <;> rfl

/-- The mailbox just written. -/
@[simp] theorem Dev.mbxAt_mbxSet_same (d : Dev) (fn : Option Nat) (m : Mbx) : (d.mbxSet fn m).mbxAt fn = m := by
  unfold Dev.mbxSet Dev.mbxAt; exact Tab.get_set_same _ _ _ _
theorem fnIx_inj {a b : Option Nat} (h : fnIx a = fnIx b) : a = b := by
  cases a <;> cases b <;> simp_all [fnIx]
theorem Dev.mbxAt_mbxSet_other (d : Dev) {fn g : Option Nat} (m : Mbx) (h : g ≠ fn) : (d.mbxSet fn m).mbxAt g = d.mbxAt g := by
  unfold Dev.mbxSet Dev.mbxAt
  exact Tab.get_set_other _ _ _ (fun e => h (fnIx_inj e))
theorem Dev.mbxAt_of_rest {d e : Dev} (h : e.hostRest = d.hostRest) (fn : Option Nat) : e.mbxAt fn = d.mbxAt fn := by
  unfold Dev.mbxAt; rw [Dev.host_mbx_eq, Dev.host_mbx_eq, h]
@[simp] theorem Dev.mbxAt_mbxEvent (d : Dev) (fn g : Option Nat) (b : Nat) : (d.mbxEvent fn b).mbxAt g = d.mbxAt g :=
  Dev.mbxAt_of_rest (by unfold Dev.mbxEvent; simp) g
@[simp] theorem Dev.mbxSet_tensor' (d : Dev) (fn : Option Nat) (m : Mbx) : (d.mbxSet fn m).store = d.store := rfl

/-- What answering a request does to its mailbox when no response waits for RACK. -/
theorem Dev.answer_mbx (d : Dev) (fn : Option Nat) (c : MbxMsg) (st : Nat) (pl : List Byte) (h1 : (d.mbxAt fn).resp = false) (h2 : (d.mbxAt fn).discard = false) :
    Answered (d.answer fn c st pl) fn c st pl := by
  simp [Dev.answer, Dev.mbxRespond, Dev.mbxDeliver, h1, h2, Answered]
/-- Answering keeps the agreed version, the features and the segments assembled. -/
theorem Dev.answer_keeps (d : Dev) (fn : Option Nat) (c : MbxMsg) (st : Nat) (pl : List Byte) (h1 : (d.mbxAt fn).resp = false) (h2 : (d.mbxAt fn).discard = false) :
    ((d.answer fn c st pl).mbxAt fn).hello = (d.mbxAt fn).hello ∧ ((d.answer fn c st pl).mbxAt fn).agMajor = (d.mbxAt fn).agMajor ∧
    ((d.answer fn c st pl).mbxAt fn).agMinor = (d.mbxAt fn).agMinor ∧ ((d.answer fn c st pl).mbxAt fn).feat = (d.mbxAt fn).feat ∧
    ((d.answer fn c st pl).mbxAt fn).asm = (d.mbxAt fn).asm := by
  simp [Dev.answer, Dev.mbxRespond, Dev.mbxDeliver, h1, h2]
theorem Dev.asked_msg {d : Dev} {fn : Option Nat} {op : Nat} {c : MbxMsg} (h : d.asked fn op c = true) :
    d.msg fn op = some c ∧ (d.mbxAt fn).resp = false ∧ (d.mbxAt fn).discard = false := by
  unfold Dev.asked at h; simpa [and_assoc] using h
theorem Dev.crosses_word (d : Dev) (who : Req) (off len : Nat) (h : off % 4 = 0) (h1 : 0 < len) (h2 : len ≤ 4) : d.crosses who off len = false := by
  unfold Dev.crosses; rw [if_pos ⟨by omega, h1⟩]
theorem Dev.accFail_counts (d : Dev) (fn : Option Nat) (off len : Nat) (w : Bool) (cause : Nat) (hc : cause < 16) :
    (d.accFail (fnReq fn) off len w cause).rdN (fnBase fn + glbBase + 0x14) = stick32 (d.rdN (fnBase fn + glbBase + 0x14) + 1) ∧
    (d.accFail (fnReq fn) off len w cause).rdN (fnBase fn + glbBase + 0x1C) % 16 = cause := by
  have key : ∀ k, k = fnBase fn + glbBase + 0x14 ∨ k = fnBase fn + glbBase + 0x1C →
      (d.accFail (fnReq fn) off len w cause).rdN k = (((d.count (fnBase fn + glbBase + 0x14) 1).wrN (fnBase fn + glbBase + 0x18) (off % 2 ^ 26)).wrN (fnBase fn + glbBase + 0x1C)
              (2 ^ 31 + 256 * (byteEn off len % 16) + 16 * b2n w + cause)).rdN k := by
    intro k hk
    have hk2 : k < erlBase ∨ erlBase + 0x50 ≤ k := by
      cases fn with
      | none => left; rcases hk with h | h <;> (rw [h]; decide)
      | some n => right; rcases hk with h | h <;> (rw [h]; simp only [fnBase, vfBase, glbBase, erlBase]; omega)
    have hk3 : k ≠ glbBase + 0x0C := by
      rcases hk with h | h <;> (rw [h]; simp [glbBase])
    unfold Dev.accFail
    rw [fnReq_fn]
    dsimp only
    have h1 : (d.accErr fn off (byteEn off len) w cause).rdN k = (((d.count (fnBase fn + glbBase + 0x14) 1).wrN (fnBase fn + glbBase + 0x18) (off % 2 ^ 26)).wrN (fnBase fn + glbBase + 0x1C)
              (2 ^ 31 + 256 * (byteEn off len % 16) + 16 * b2n w + cause)).rdN k := by
      unfold Dev.accErr
      dsimp only
      split
      · rw [Dev.rdN_event_other _ _ hk3]
      · rfl
    split
    · unfold Dev.accLog
      rw [Dev.rdN_report_other _ _ _ _ _ _ (by omega) hk2, h1]
    · exact h1
  constructor
  · rw [key _ (Or.inl rfl), Dev.rdN_wrN_other _ _ (by omega), Dev.rdN_wrN_other _ _ (by omega), Dev.rdN_count_same]
  · rw [key _ (Or.inr rfl), Dev.rdN_wrN_same]
    have : b2n w ≤ 1 := by unfold b2n; split <;> omega
    omega

/-! ### The outcome of a gated meaning -/

/-- What a live command answers on a live device. -/
theorem Machine.live_next {s : Machine.State} (h : s.dev.alive = true) (f : Dev → Dev) : Machine.live s f = .next { s with dev := f s.dev } := by
  unfold Machine.live; rw [if_pos h]

/-- A live command leaves a dead device as it is. -/
theorem Machine.live_dead {s : Machine.State} (h : s.dev.alive = false) (f : Dev → Dev) : Machine.live s f = .next s := by
  unfold Machine.live; simp [h]

/-- A part that a function leaves alone, a live command leaves alone. -/
theorem Machine.live_keeps {α : Type} (π : Dev → α) {s t : Machine.State} {f : Dev → Dev} (h : Machine.live s f = .next t) (hf : ∀ d, π (f d) = π d) :
    π t.dev = π s.dev := by
  unfold Machine.live at h
  simp only [Host.Outcome.next.injEq] at h
  subst h
  dsimp only
  split
  · exact hf _
  · rfl

/-- The same of a command of the time unit's hardware. -/
theorem Machine.timeLive_keeps {α : Type} (π : Dev → α) {s t : Machine.State} {f : Dev → Dev} (h : Machine.timeLive s f = .next t)
    (hf : ∀ d, π (f d) = π d) : π t.dev = π s.dev := by
  unfold Machine.timeLive at h
  simp only [Host.Outcome.next.injEq] at h
  subst h
  dsimp only
  split
  · exact hf _
  · rfl

/-- What a command of the time unit's hardware answers on a live device. -/
theorem Machine.timeLive_next {s : Machine.State} (h : s.dev.alive = true) (f : Dev → Dev) :
    Machine.timeLive s f = .next { s with dev := f s.dev } := by
  unfold Machine.timeLive; rw [h]; rfl

/-- The same of a command that the supplies bring. -/
theorem Machine.always_keeps {α : Type} (π : Dev → α) {s t : Machine.State} {f : Dev → Dev} (h : Machine.always s f = .next t) (hf : ∀ d, π (f d) = π d) :
    π t.dev = π s.dev := by
  unfold Machine.always at h
  simp only [Host.Outcome.next.injEq] at h
  subst h
  exact hf _

end Sys2Proof
end

