-- ==== Sys2Proof/Tests/Slice0.lean ====
section
/-! SUPPORT. Tests of slice 0: the well-formedness checks refuse an ill-formed term each, a few single steps whose results are worked
out from the rules by hand, and for every statement with hypotheses a state and operands that meet them. -/

-- One declaration after the other: many kernel evaluations at once would hold a thread each.
set_option Elab.async false

open Sys2Proof Sys2Proof.Machine

/-! ### Every check of WellFormed refuses an ill-formed command -/

/-- Register accesses: a requester that does not exist, an offset beyond BAR0, a length of 0 or above 64, an unaligned half of a pair. -/
theorem test_wf_refuses_host : (([.registerWrite (.vf 32) 0 4 0, .registerWrite .pf 0x1000000 4 0, .registerWrite .pf 0 0 0, .registerWrite .pf 0 65 0,
      .pairLowRead (.fw 12) 0 4, .pairLowRead .pf 0x1000000 4, .pairLowRead .pf 0 0, .pairLowRead .pf 0 65,
      .pairLowWrite (.vf 32) 0 0, .pairLowWrite .pf 0x1000000 0, .pairLowWrite .pf 2 0, .pairHighWrite (.vf 32) 0 0,
      .pairHighWrite .pf 0x1000000 0, .pairHighWrite .pf 2 0, .readTimeout (some 32) true] : List Instr).any Instr.wf) = false := by decide +kernel

/-- Frames and packets: no bytes, pause fields beyond their widths, a template 0, an operand beyond its table. -/
theorem test_wf_refuses_frames : (([.frameReceive 0 [] 60, .frameReceive 0 [0] 16383, .pause 0 65536 true true, .pfc 0 256 [0, 0, 0, 0, 0, 0, 0, 0] true true, .pfc 0 1 [0] true true,
      .pfc 0 1 [0, 0, 0, 0, 0, 0, 0, 65536] true true, .reinject 0 0 (.synth [] default), .reinject 0 0 (.orig 512), .puntRelease 0 512, .templateBuild 0 0 [],
      .versionCommit (.vf 32) 1 [], .versionCommit .pf 65536 [], .flowEntryFwWrite 0 none none (some (2 ^ 24)) none, .flowEntryFwWrite 0 none none none none [.version 0], .flowEntryFwWrite 0 none none none none [.fprof 32],
      .entityRangeAssign 0 1 262144, .flwFidxWrite (.vf 32) 0, .flwEidxWrite (.vf 32) 0,
      .policerClassWrite 0 (2 ^ 32) 0 64 64 true true, .policerClassWrite 0 0 (2 ^ 32) 64 64 true true,
      .policerClassWrite 0 0 0 63 64 true true, .policerClassWrite 0 0 0 65 64 true true, .policerClassWrite 0 0 0 64 16777216 true true, .gntPidxCopy (.vf 32) 0 0,
      .queueRecordWrite 0 0 [], .queueRecordWrite 0 0 [0, 0, 0, 0, 0, 0, 2 ^ 32], .slowPathTransmit 0 0 [] none] : List Instr).any Instr.wf) = false := by decide +kernel

/-- Time: fields beyond their widths, a leap code that does not exist. -/
theorem test_wf_refuses_time : (([.ptpMeasurement (.vf 32) 0 0 0 0, .ptpMeasurement .pf (2 ^ 64) 0 0 0, .ptpMeasurement .pf 0 256 0 0,
      .ptpMeasurement .pf 0 0 0 256, .irigFrame 0 { day := 0 } 0 true 0 0, .irigFrame 0 {} 0 true 16 0, .irigFrame 0 {} 0 true 0 (-2), .irigFrame 0 {} 0 true 0 2, .irigFrame 0 { year := 100 } 0 true 0 0,
      .timeSet 0 (2 ^ 32), .tmuNowRead (.vf 32)] : List Instr).any Instr.wf) = false := by decide +kernel

/-- Catcher, queues and locks: a source, an owner, a depth or a level that does not exist. -/
theorem test_wf_refuses_units : (([.catcherRecord { source := 36 }, .catcherRecord { code := 256 }, .catRtailWrite (.vf 32) 0 0, .pqCfgWrite 0 true 64 0 0,
      .pqCfgWrite 0 true 0 7 0, .pqPushctl (.vf 32) 0 0, .pqPushctl .pf 0 8, .pqPopctl (.vf 32) 0, .lckAcqRead (.vf 32) 0,
      .lckAcqWrite (.vf 32) 0, .lckForce (.vf 32) 0] : List Instr).any Instr.wf) = false := by decide +kernel

/-- Core control and the error log: a requester that does not exist. -/
theorem test_wf_refuses_cores : (([.tenCtrlRun (.vf 32) 0, .tenCtrlPreempt (.vf 32) 0, .tenCtrlResume (.vf 32) 0, .tenCtrlReset (.vf 32) 0,
      .tenCtrlLock (.vf 32) 0, .erlCtlClear (.vf 32) 0, .erlIdxWrite (.vf 32) 0] : List Instr).any Instr.wf) = false := by decide +kernel

/-- Host interface: a function, a DMA queue, a doorbell value, a descriptor length, a vector or a link width that does not exist. -/
theorem test_wf_refuses_mailbox : (([.mbxRing (some 32), .mbxRack (some 32), .mbxTake (some 32), .messageSegment (some 32), .hello (some 32), .dictRead (some 32),
      .ptnReset (some 32), .dmaqCreate (some 32), .dmaqDestroy (some 32), .dictWrite (some 32) true, .sqDoorbell (some 32) 0 0,
      .sqDoorbell none 16 0, .sqDoorbell none 0 65536, .cqHeadWrite (some 32) 0 0, .cqHeadWrite none 16 0,
      .cqHeadWrite none 0 65536, .dmaWrite 0 0 [] [] none none, .dmaRecv 0 [], .dmaComplete (some 32) 0, .dmaComplete none 16,
      .msixDeliver (some 32) 0, .msixDeliver none 64, .configSpaceWrite (.numVfs 33), .configSpaceWrite (.mse (some 32) true),
      .configSpaceWrite (.bme (some 32) true), .configSpaceWrite (.msixEn (some 32) true), .pcieLinkTrained 6 16 true,
      .pcieLinkTrained 5 2 true] : List Instr).any Instr.wf) = false := by decide +kernel

/-- Dictionary and transports: a client node, a subindex 0, a token, a datagram or a segment beyond its size. -/
theorem test_wf_refuses_dictionary : (([.storeSettings (.usdo 128) 1 none true, .storeSettings .usb 0 none true, .restoreDefaults (.usdo 128) 1 none,
      .restoreDefaults .usb 0 none, .tokenStage (.usdo 128) [], .tokenStage .usb (List.replicate 8193 0), .tokenExpiry (.usdo 0),
      .sdoTimeout (some 128), .sdoTimeout (some 0), .usdoTransfer 0 (.read 0 0) true, .usdoTransfer 128 (.read 0 0) true,
      .udpRead 0 (List.replicate 1473 0), .udpWrite 0 (List.replicate 1473 0) true, .usbRead 65536 0 0 0, .usbRead 0 256 0 0,
      .usbWrite 65536 0 0 (List.replicate 4096 0), .usbWrite 0 256 0 (List.replicate 4096 0), .usbWrite 0 0 0 [],
      .usbWriteLast 65536 0 0 [] true true, .usbWriteLast 0 256 0 [] true true,
      .usbWriteLast 0 0 0 (List.replicate 4097 0) true true] : List Instr).any Instr.wf) = false := by decide +kernel

/-- Security: a session, a row or an SPDM message of the wrong size, a requester that does not exist. -/
theorem test_wf_refuses_security : (([.provision (.usdo 128) none, .deploy (.usdo 128) none, .returnDevice (.usdo 128) none, .decommission (.usdo 128) none,
      .commitSvn (.usdo 128) none, .rekey (.usdo 128) 0 none, .revoke (.usdo 128) 0 none,
      .macsecKeyRow (.usdo 128) (List.replicate 64 0) none, .macsecKeyRow .usb [] none, .getVersion [], .getCapabilities [],
      .negotiateAlgorithms [], .getDigests none [], .getCertificate none [], .challenge none [], .getMeasurements none [],
      .keyExchange none [], .finish none [], .heartbeatSpdm none [], .endSession none [], .vendorDefinedRequest none [],
      .secMeasselWrite (.vf 32) 1, .secPkselWrite (.vf 32) 0] : List Instr).any Instr.wf) = false := by decide +kernel

/-- Firmware, power and telemetry: a record type, a rail, temperatures, straps, a cause, a part or an alarm that does not exist. -/
theorem test_wf_refuses_power : (([.updateAbandon 65536, .powerLoopPeriod [] [(16, none)], .thermalLoopPeriod [], .porstRise { straps := 2 ^ 32 },
      .porstRise { hbmBad := 256 }, .porstRise { msBad := 256 }, .porstRise { planes := 4 }, .sagTrigger 0, .saveDone (some 0),
      .saveDone (some 7), .sagRestart { straps := 2 ^ 32 }, .alarmChange 11 0 true 0, .vholdRise { straps := 2 ^ 32 }] : List Instr).any Instr.wf) = false := by decide +kernel

/-- Well-formed commands are accepted. -/
theorem test_wf_accepts : (([.registerWrite .pf 0 4 0, .pause 0 65535 true true, .hello (some 31), .dmaRecv 0 (List.replicate 64 0), .usbRead 0x1018 4 0 64,
      .sagTrigger 1, .alarmChange 9 31 true 0] : List Instr).all Instr.wf) = true := by decide +kernel

/-! ### Single steps -/

/-- R167, R171: a free lock with BROKEN set reads as held by the reader, with BROKEN and the grant: bits 31, 30, [13:8] and 0. -/
theorem test_lock_acquire : (match Machine.step { pending := [.lckAcqRead (.fw 3) 255], dev := { alive := true, regs := [(4, 2)], fw := { image := some {} }, lck := [(255, { broken := true })] } } with
    | .next t => decide (t.dev.out.head? = some (.read (.fw 3) 0 (0xC0000001 + 256 * 35)))
    | _ => false) = true := by decide +kernel

/-- R470: a write of PWR_WARM other than "WARM" is ignored. -/
theorem test_warm_ignored : (match Machine.step { pending := [.pwrWarm 0x4D524158], dev := { alive := true, host := { linkUp := true, mse := [(0, true)] } } } with
    | .next t => t.dev.alive && t.dev.pwr.saving.isNone
    | _ => false) = true := by decide +kernel

/-- R464, R470: "WARM" starts the save with cause 5. -/
theorem test_warm_saves : (match Machine.step { pending := [.pwrWarm 0x4D524157], dev := { alive := true, host := { linkUp := true, mse := [(0, true)] } } } with
    | .next t => !t.dev.alive && decide (t.dev.pwr.saving = some 5)
    | _ => false) = true := by decide +kernel

/-- R439: DEPLOY in BLANK is refused with 0x0800_0022, and no fuse burns. -/
theorem test_deploy_blank : (match Machine.step { pending := [.deploy .usb none], dev := { alive := true, regs := [(4, 2), (pwrBase + 0x1C, 0x20000)] } } with
    | .next t => decide (t.dev.sec.lcf = 0) && decide ((t.dev.sessAt 190).result.1 = 0x08000022)
    | _ => false) = true := by decide +kernel

/-- R160: of entries at levels 2, 5, 5 and 7 a pop takes the 7, then the older 5. -/
theorem test_pop_order : ((({ ents := [{ level := 2, data := [1] }, { level := 5, data := [2] }, { level := 7, data := [3] }, { level := 5, data := [4] }] } : Pq).pop.bind
    (fun a => a.2.pop.map (fun b => (a.1.data, b.1.data)))) = some ([3], [2])) := by decide +kernel

/-- The check value of CRC-32C (the Castagnoli polynomial, reflected): 0xE3069283 over the digits 1 to 9. -/
theorem test_crc32c : crc32c [0x31, 0x32, 0x33, 0x34, 0x35, 0x36, 0x37, 0x38, 0x39] = 0xE3069283 := by decide +kernel

/-- Without supply the device does nothing (R464, R488): a frame that arrives leaves the reset state as it is. -/
theorem test_dead_device : Machine.step { pending := [.frameReceive 0 [1] 59] } = .next {} := by rfl

/-- R488, R491: VHOLD rising powers the Helmet, and the device still waits for PORST_N. -/
theorem test_vhold : (match Machine.step { pending := [.vholdRise {}] } with
    | .next t => t.dev.pwr.vhold && !t.dev.alive && t.dev.flow.failsafe
    | _ => false) = true := by decide +kernel

/-- R196: a PAUSE of 3 quanta of 512 ns at 1 Gb/s holds the management port for 15,360 tenths of a nanosecond. -/
theorem test_mgmt_pause : (match Machine.step { pending := [.mgmtPortFrame ([1, 0x80, 0xC2, 0, 0, 1] ++ leBytes 6 0 ++ [0x88, 0x08, 0, 1, 0, 3])], dev := { alive := true } } with
    | .next t => decide (t.dev.dict.mgmtPause = 15360)
    | _ => false) = true := by decide +kernel

/-! ### Witnesses of the hypotheses of the statements, by statement -/

theorem witness_StepRunsTheFrontCommand :
    (∃ (c : Instr) (rest : List Instr) (s : Machine.State), s.pending = c :: rest ∧ rest ≠ []) :=
  ⟨.dispatchTake, [.sweep], { pending := [.dispatchTake, .sweep] }, rfl, by decide⟩

theorem witness_AnIdleStepPassesOneTick :
    (∃ (s : Machine.State), s.pending = [] ∧ s.dev.alive = true) :=
  ⟨{ dev := { alive := true } }, rfl, rfl⟩

theorem witness_WithoutSupplyOnlyTheSuppliesAct :
    (∃ (c : Instr) (s : Machine.State), s.dev.alive = false ∧ (∀ b, c ≠ .porstRise b) ∧ (∀ b, c ≠ .vholdRise b) ∧ (∀ k, c ≠ .sagTrigger k) ∧ (∀ k, c ≠ .saveDone k) ∧ (∀ b, c ≠ .sagRestart b) ∧ (c.timeUnit = false ∨ s.dev.pwr.saving = none ∨ s.dev.pwr.frozen = true)) :=
  ⟨.dispatchTake, {}, rfl, fun _ h => Instr.noConfusion h, fun _ h => Instr.noConfusion h, fun _ h => Instr.noConfusion h, fun _ h => Instr.noConfusion h, fun _ h => Instr.noConfusion h, .inl rfl⟩

theorem witness_FrameOfControl :
    (∃ (c : Instr) (s t : Machine.State), c.altersControl = false ∧ Machine.exec c s = .next t) :=
  ⟨.dispatchTake, {}, _, rfl, rfl⟩

theorem witness_FrameOfTheTensorSide :
    (∃ (c : Instr) (s t : Machine.State), c.altersTensor = false ∧ Machine.exec c s = .next t) :=
  ⟨.dispatchTake, {}, _, rfl, rfl⟩

theorem witness_FrameOfTheFlowPlane :
    (∃ (c : Instr) (s t : Machine.State), c.altersPlane = false ∧ Machine.exec c s = .next t) :=
  ⟨.summaryPeriod, {}, _, rfl, rfl⟩

theorem witness_FrameOfTheHostInterface :
    (∃ (c : Instr) (s t : Machine.State), c.altersHost = false ∧ Machine.exec c s = .next t) :=
  ⟨.dispatchTake, {}, _, rfl, rfl⟩

theorem witness_FramesOfUnitsAndRegisters :
    (∃ (c : Instr) (s t : Machine.State), c.altersQueues = false ∧ Machine.exec c s = .next t) ∧
    (∃ (c : Instr) (s t : Machine.State), c.altersCatcher = false ∧ Machine.exec c s = .next t) ∧
    (∃ (c : Instr) (s t : Machine.State), c.altersErrorLog = false ∧ Machine.exec c s = .next t) ∧
    (∃ (c : Instr) (s t : Machine.State), c.keepsRegisters = true ∧ Machine.exec c s = .next t) :=
  ⟨⟨.sweep, {}, _, rfl, rfl⟩,
   ⟨.sweepEnd, {}, _, rfl, rfl⟩,
   ⟨.sweep, {}, _, rfl, rfl⟩,
   ⟨.sweep, {}, _, rfl, rfl⟩⟩

theorem witness_EveryStepKeepsTheMemoryForm :
    (∃ (s t : Machine.State), s.dev.memOk = true ∧ Machine.step s = .next t) :=
  ⟨{ pending := [.dispatchTake] }, _, by unfold Dev.memOk; decide, rfl⟩

theorem witness_EveryStepOnlyBurnsFuses :
    (∃ (s t : Machine.State), Machine.step s = .next t) :=
  ⟨{ pending := [.dispatchTake] }, _, rfl⟩

theorem witness_OffsetsWithoutARegisterReadZero :
    (∃ (s : Machine.State) (who : Req) (off len : Nat), (s.dev.alive = true) ∧ (s.dev.reqOpen who = true) ∧ (s.dev.crosses who off len = false) ∧ (s.dev.place who off = .bad 3)) ∧
    (∃ (s : Machine.State) (fn : Option Nat) (off len : Nat) (data : BitVec 64), (s.dev.alive = true) ∧ (s.dev.fnOpen fn = true) ∧ (fnWf fn = true) ∧ (s.dev.crosses (fnReq fn) off len = false) ∧ (s.dev.place (fnReq fn) off = .bad 3)) :=
  ⟨⟨{ dev := { alive := true, host := { linkUp := true, mse := [(0, true)] } } }, .pf, 0x28, 4, by decide +kernel⟩,
   ⟨{ dev := { alive := true, host := { linkUp := true, mse := [(0, true)] } } }, none, 0x28, 4, 7, by decide +kernel⟩⟩

theorem witness_LocksReleaseOnlyToTheirOwner :
    (∃ (s : Machine.State) (who : Req) (n : Fin 256), (s.dev.alive = true) ∧ (s.dev.mayWrite who (lckBase + 4 * n) = true) ∧ ((s.dev.lckAt n).held = true) ∧ ((s.dev.lckAt n).owner = who.owner)) ∧
    (∃ (s : Machine.State) (who : Req) (n : Fin 256), (s.dev.alive = true) ∧ (s.dev.mayWrite who (lckBase + 4 * n) = true) ∧ ((s.dev.lckAt n).held = false ∨ (s.dev.lckAt n).owner ≠ who.owner) ∧ (s.dev.erl.queue.length < 64)) :=
  ⟨⟨{ dev := { alive := true, regs := [(4, 2)], fw := { image := some {}, prot := { table := [{ comp := 3, base := lckBase + 1020, len := 4 }] } }, lck := [(255, { held := true, owner := 35 })] } }, .fw 3, 255, by decide +kernel⟩,
   ⟨{ dev := { alive := true, regs := [(4, 2)], fw := { image := some {}, prot := { table := [{ comp := 4, base := lckBase + 1020, len := 4 }] } }, lck := [(255, { held := true, owner := 35 })] } }, .fw 4, 255, by decide +kernel⟩⟩

theorem witness_PriorityQueuesKeepTheirOrder :
    (∃ (s : Machine.State) (who : Req) (n : Fin 64) (level : Nat), (s.dev.alive = true) ∧ (s.dev.mayWrite who (pqBase + 0x100 * n + 0x14) = true) ∧ (s.dev.pqMayPush who n = true) ∧ ((s.dev.pqAt n).ents.length < (s.dev.pqAt n).cap)) ∧
    (∃ (s : Machine.State) (who : Req) (n : Fin 64) (level : Nat), (s.dev.alive = true) ∧ (s.dev.mayWrite who (pqBase + 0x100 * n + 0x14) = true) ∧ (s.dev.pqMayPush who n = true) ∧ ((s.dev.pqAt n).cap ≤ (s.dev.pqAt n).ents.length)) ∧
    (∃ (s : Machine.State) (who : Req) (n : Fin 64), (s.dev.alive = true) ∧ (s.dev.reqOpen who = true) ∧ (s.dev.pqMayPop who n = true) ∧ ((s.dev.pqAt n).waiters = []) ∧ ((s.dev.pqAt n).ents ≠ [])) ∧
    (∃ (s : Machine.State) (who : Req) (n : Fin 64), (s.dev.alive = true) ∧ (s.dev.reqOpen who = true) ∧ (s.dev.pqMayPop who n = true) ∧ ((s.dev.pqAt n).waiters = []) ∧ ((s.dev.pqAt n).ents = [])) :=
  ⟨⟨{ dev := { alive := true, regs := [(4, 2)], fw := { image := some {}, prot := { table := [{ comp := 3, base := pqBase + 0x3F14, len := 4 }] } }, pq := [(63, { en := true, owner := 48 })] } }, .fw 3, 63, 7, by decide +kernel⟩,
   ⟨{ dev := { alive := true, regs := [(4, 2)], fw := { image := some {}, prot := { table := [{ comp := 3, base := pqBase + 0x3F14, len := 4 }] } }, pq := [(63, { en := true, owner := 48, depth := 0, ents := List.replicate 16 { level := 1, data := [] } })] } }, .fw 3, 63, 7, by decide +kernel⟩,
   ⟨{ dev := { alive := true, regs := [(4, 2)], fw := { image := some {} }, pq := [(63, { en := true, owner := 48, ents := [{ level := 2, data := [7] }, { level := 5, data := [8] }] })] } }, .fw 3, 63, by decide +kernel⟩,
   ⟨{ dev := { alive := true, regs := [(4, 2)], fw := { image := some {} }, pq := [(63, { en := true, owner := 48 })] } }, .fw 3, 63, by decide +kernel⟩⟩

theorem witness_StoresChangeOnlyTheirBytes :
    (∃ (s : Machine.State) (n : Fin 32) (k : Fin 4) (desc data : List Byte), (s.dev.alive = true) ∧ ((s.dev.dmaAt (some n) k).ready = true) ∧ ((dmaDesc desc).bad true = false) ∧ (inKind (s.dev.regionsOf n) 5 (dmaDesc desc).shoff (dmaDesc desc).len = true) ∧ (s.dev.inShare n (dmaDesc desc).shoff (dmaDesc desc).len = true) ∧ (bit (dmaDesc desc).flags 0 = false)) ∧
    (∃ (s : Machine.State) (i : Nat) (r : StgReq), (s.dev.alive = true) ∧ (s.dev.store.stg[i]? = some r) ∧ (r.status = 0)) ∧
    (∃ (s : Machine.State) (x : Scrub) (rest : List Scrub), (s.dev.alive = true) ∧ (s.dev.store.scrubs = x :: rest) ∧ (x.dest = none)) :=
  ⟨⟨{ dev := { alive := true, host := { dma := [(64, { active := true, sqN := 16, cqN := 16, sqBase := 0, cqBase := 4096, todo := 1 })] }, ptn := { ptn := [(3, { ent := { valid := true, len := 4, gang := 3 } })] }, store := { bundles := [{ inst := 1, ptn := 3, gang := 3, regions := [{ kind := 5, off := 0, len := 4096 }] }] } } }, 3, 0, leBytes 8 0 ++ leBytes 8 0 ++ leBytes 4 64 ++ leBytes 2 9 ++ leBytes 1 1 ++ leBytes 41 0, [1, 2], by decide +kernel⟩,
   ⟨{ dev := { alive := true, store := { stg := [{ ptn := 3, expert := 0, slot := 0, lib := 0, reply := 0, tag := 0, dst := 100, data := [7, 8], readLen := 2 }] } } }, 0, { ptn := 3, expert := 0, slot := 0, lib := 0, reply := 0, tag := 0, dst := 100, data := [7, 8], readLen := 2 }, by decide +kernel⟩,
   ⟨{ dev := { alive := true, mem := { hbm := [(7, 9)] }, store := { scrubs := [{ stack := 0, base := 0, len := 1 }] } } }, { stack := 0, base := 0, len := 1 }, [], by decide +kernel⟩⟩

theorem witness_RegisterAccessesTakeEffect :
    (∃ (s : Machine.State) (who : Req) (off : Nat) (data : BitVec 64) (k : Nat), (s.dev.alive = true) ∧ (s.dev.mayWrite who off = true) ∧ (off % 4 = 0) ∧ (s.dev.place who off = .reg k) ∧ ((regRow k).isSome = true) ∧ (mbxBase ≤ k % 0x10000000) ∧ (k % 0x10000000 < mbxBase + 0x1000) ∧ ((s.dev.mbxAt (if k < 0x10000000 then none else some (k / 0x10000000 - 1))).pending = false)) ∧
    (∃ (s : Machine.State) (who : Req) (off : Nat) (data : BitVec 64) (k : Nat) (r : RegRow), (s.dev.alive = true) ∧ (s.dev.mayWrite who off = true) ∧ (off % 4 = 0) ∧ (s.dev.place who off = .reg k) ∧ (PlainReg k r = true)) ∧
    (∃ (s : Machine.State) (who : Req) (off len k : Nat), (s.dev.alive = true) ∧ (s.dev.reqOpen who = true) ∧ (off % 4 = 0) ∧ 0 < len ∧ len ≤ 4 ∧ (s.dev.place who off = .reg k) ∧ (isPairLow k = true)) ∧
    (∃ (s : Machine.State) (who : Req) (off len k : Nat), (s.dev.alive = true) ∧ (s.dev.reqOpen who = true) ∧ (off % 4 = 0) ∧ (0 < len) ∧ (len ≤ 4) ∧ (s.dev.place who off = .reg k) ∧ (isPairLow k = false) ∧ (isPairLow (k - 4) = false) ∧ (readActs k = false)) ∧
    (∃ (s : Machine.State) (who : Req) (off len k : Nat), (s.dev.alive = true) ∧ (s.dev.reqOpen who = true) ∧ (off % 4 = 0) ∧ 0 < len ∧ len ≤ 4 ∧ (s.dev.place who off = .reg k) ∧ (isPairLow k = false) ∧ (isPairLow (k - 4) = true)) ∧
    (∃ (s : Machine.State) (who : Req) (off k : Nat) (data : Word), (s.dev.alive = true) ∧ (s.dev.mayWrite who off = true) ∧ (s.dev.place who off = .reg k) ∧ (isPairLow k = true) ∧ (s.dev.pairCause who k = none)) ∧
    (∃ (s : Machine.State) (who : Req) (off : Nat) (c : Fin 32) (data : Word), (s.dev.alive = true) ∧ (s.dev.mayWrite who off = true) ∧ (s.dev.place who off = .reg (tenReg c 0x1C)) ∧ (s.dev.pairCause who (tenReg c 0x18) = none)) ∧
    (∃ (s : Machine.State) (fn : Option Nat) (isWrite : Bool), (s.dev.alive = true) ∧ (s.dev.fnOpen fn = true) ∧ (fnWf fn = true)) ∧
    (∃ (s : Machine.State) (who : Req) (off len : Nat) (n : Fin 256), (s.dev.alive = true) ∧ (s.dev.reqOpen who = true) ∧ (off % 4 = 0) ∧ (0 < len) ∧ (len ≤ 4) ∧ (s.dev.place who off = .reg (lckBase + 4 * n)) ∧ ((s.dev.lckAt n).held = false)) ∧
    (∃ (s : Machine.State) (who : Req) (off k : Nat), (s.dev.alive = true) ∧ (s.dev.reqOpen who = true) ∧ (off % 8 = 0) ∧ (s.dev.place who off = .reg k) ∧ (isPairLow k = true)) ∧
    (∃ (s : Machine.State) (c off len : Nat) (data : BitVec 64), (s.dev.alive = true) ∧ (s.dev.reqOpen (.fw c) = true) ∧ (s.dev.fwMayWrite c (off / 4 * 4) = false)) :=
  ⟨⟨{ dev := { alive := true, host := { linkUp := true, mse := [(0, true)] } } }, .pf, mbxBase + 16, 7, mbxBase + 16, by decide +kernel⟩,
   ⟨{ dev := { alive := true, host := { linkUp := true, mse := [(0, true)] } } }, .pf, secBase + 0x18, 7, secBase + 0x18, (regRow (secBase + 0x18)).getD { base := 0 }, by decide +kernel⟩,
   ⟨{ dev := { alive := true, host := { linkUp := true, mse := [(0, true)] } } }, .pf, tenBase + 0x80, 4, tenBase + 0x80, by decide +kernel⟩,
   ⟨{ dev := { alive := true, host := { linkUp := true, mse := [(0, true)] } } }, .pf, glbBase, 4, glbBase, by decide +kernel⟩,
   ⟨{ dev := { alive := true, host := { linkUp := true, mse := [(0, true)] } } }, .pf, tenBase + 0x84, 4, tenBase + 0x84, by decide +kernel⟩,
   ⟨{ dev := { alive := true, regs := [(4, 2)], fw := { image := some {}, prot := { table := [{ comp := 3, base := tenBase + 0x18, len := 8 }] } } } }, .fw 3, tenBase + 0x18, tenBase + 0x18, 64, by decide +kernel⟩,
   ⟨{ dev := { alive := true, regs := [(4, 2)], fw := { image := some {}, prot := { table := [{ comp := 3, base := tenBase + 0x18, len := 8 }] } } } }, .fw 3, tenBase + 0x1C, 0, 5, by decide +kernel⟩,
   ⟨{ dev := { alive := true, host := { linkUp := true, mse := [(0, true)] } } }, none, false, by decide +kernel⟩,
   ⟨{ dev := { alive := true, host := { linkUp := true, mse := [(0, true)] } } }, .pf, lckBase + 1020, 1, 255, by decide +kernel⟩,
   ⟨{ dev := { alive := true, host := { linkUp := true, mse := [(0, true)] } } }, .pf, tenBase + 0x80, tenBase + 0x80, by decide +kernel⟩,
   ⟨{ dev := { alive := true, regs := [(4, 2)], fw := { image := some {} } } }, 10, prt 3 0, 4, 1, by decide +kernel⟩⟩

theorem witness_AccessesTurnedAwayAreCounted :
    (∃ (s : Machine.State) (fn : Option Nat) (off len : Nat) (data : BitVec 64), (s.dev.alive = true) ∧ (s.dev.fnOpen fn = true) ∧ (fnWf fn = true) ∧ (s.dev.crosses (fnReq fn) off len = true)) ∧
    (∃ (s : Machine.State) (fn : Option Nat) (off : Nat) (data : BitVec 64) (k : Nat) (r : RegRow), (s.dev.alive = true) ∧ (s.dev.fnOpen fn = true) ∧ (fnWf fn = true) ∧ (off % 4 = 0) ∧ (s.dev.place (fnReq fn) off = .reg k) ∧ (regRow k = some r) ∧ (r.writable = false) ∧ (isPairLow k = false) ∧ (isPairLow (k - 4) = false) ∧ (¬(mbxBase ≤ k % 0x10000000 ∧ k % 0x10000000 < mbxBase + 0x1000)) ∧ (¬(msixBase ≤ k % 0x10000000 ∧ k % 0x10000000 < pbaBase))) ∧
    (∃ (s : Machine.State) (fn : Option Nat) (off len : Nat) (data : BitVec 64) (k : Nat), (s.dev.alive = true) ∧ (s.dev.fnOpen fn = true) ∧ (fnWf fn = true) ∧ (s.dev.crosses (fnReq fn) off len = false) ∧ (s.dev.place (fnReq fn) off = .reg k) ∧ ((regRow k).isSome = true) ∧ mbxBase ≤ k % 0x10000000 ∧ k % 0x10000000 < mbxBase + 0x1000 ∧ ((s.dev.mbxAt (if k < 0x10000000 then none else some (k / 0x10000000 - 1))).pending = true)) :=
  ⟨⟨{ dev := { alive := true, host := { linkUp := true, mse := [(0, true)] } } }, none, 3, 4, 0, by decide +kernel⟩,
   ⟨{ dev := { alive := true, host := { linkUp := true, mse := [(0, true)] } } }, none, glbBase, 0, glbBase, (regRow glbBase).getD { base := 0 }, by decide +kernel⟩,
   ⟨{ dev := { alive := true, host := { linkUp := true, vfEnable := true, numVfs := 8, mse := [(4, true)], mbx := [(4, { pending := true })] } } }, some 3, 0x2000, 4, 0, vfBase 3 + mbxBase, by decide +kernel⟩⟩

theorem witness_MailboxDoorbellsTakeAndAnswer :
    (∃ (s : Machine.State) (fn : Option Nat), (s.dev.alive = true) ∧ (s.dev.fnOpen fn = true) ∧ ((s.dev.mbxAt fn).pending = false)) ∧
    (∃ (s : Machine.State) (fn : Option Nat), (s.dev.alive = true) ∧ (s.dev.fnOpen fn = true) ∧ ((s.dev.mbxAt fn).resp = true) ∧ ((s.dev.mbxAt fn).waiting = none)) ∧
    (∃ (s : Machine.State) (fn : Option Nat) (r : MbxRsp), (s.dev.alive = true) ∧ (s.dev.fnOpen fn = true) ∧ ((s.dev.mbxAt fn).resp = true) ∧ ((s.dev.mbxAt fn).waiting = some r)) ∧
    (∃ (s : Machine.State) (fn : Option Nat), (s.dev.alive = true) ∧ ((s.dev.mbxAt fn).pending = true) ∧ ((s.dev.mbxAt fn).cur = none) ∧ ((s.dev.mbxAt fn).waiting = none) ∧ (s.dev.fwReady = true) ∧ (s.dev.helds = true)) ∧
    (∃ (s : Machine.State) (fn : Option Nat), (s.dev.alive = true) ∧ ((s.dev.mbxAt fn).pending = true) ∧ ((s.dev.mbxAt fn).cur = none) ∧ ((s.dev.mbxAt fn).waiting = none) ∧ (s.dev.fwReady = true) ∧ (s.dev.helds = false) ∧ (s.dev.romServes = false) ∧ (subN (s.dev.mbxPage fn 16) 2 2 = 1) ∧ subN (s.dev.mbxPage fn 16) 4 2 ≤ 4080 ∧ subN (s.dev.mbxPage fn 16) 6 2 ≤ 1 ∧ (subN (s.dev.mbxPage fn 16) 12 2 = 0) ∧ (subN (s.dev.mbxPage fn 16) 14 2 = 0)) ∧
    (∃ (s : Machine.State) (fn : Option Nat) (c : MbxMsg), (s.dev.alive = true) ∧ ((s.dev.mbxAt fn).cur = some c) ∧ (c.more = true) ∧ (c.opcode ≠ 0x21 ∨ s.dev.partials < 48) ∧ ((s.dev.mbxAt fn).resp = false) ∧ ((s.dev.mbxAt fn).discard = false)) ∧
    (∃ (s : Machine.State) (fn : Option Nat) (c : MbxMsg), (s.dev.alive = true) ∧ (s.dev.asked fn 1 c = true) ∧ (subN c.payload 0 1 = (s.dev.mbxOffer fn).1) ∧ 16 ≤ (c.payload.drop 2).length) :=
  ⟨⟨{ dev := { alive := true, host := { linkUp := true, mse := [(0, true)] } } }, none, by decide +kernel⟩,
   ⟨{ dev := { alive := true, host := { linkUp := true, mse := [(0, true)], mbx := [(0, { resp := true })] } } }, none, by decide +kernel⟩,
   ⟨{ dev := { alive := true, host := { linkUp := true, mse := [(0, true)], mbx := [(0, { resp := true, waiting := some { opcode := 1, seq := 0, status := 0, major := 1, minor := 0, payload := [] } })] } } }, none, { opcode := 1, seq := 0, status := 0, major := 1, minor := 0, payload := [] }, by decide +kernel⟩,
   ⟨{ dev := { alive := true, regs := [(4, 6)], host := { mbx := [(0, { pending := true })] } } }, none, by decide +kernel⟩,
   ⟨{ dev := { alive := true, regs := [(4, 2), (mbxBase, 0x10000)], host := { mbx := [(0, { pending := true })] } } }, none, by decide +kernel⟩,
   ⟨{ dev := { alive := true, host := { mbx := [(0, { cur := some { opcode := 0x20, seq := 1, payload := [], more := true } })] } } }, none, { opcode := 0x20, seq := 1, payload := [], more := true }, by decide +kernel⟩,
   ⟨{ dev := { alive := true, host := { mbx := [(0, { pending := true, taken := true, cur := some { opcode := 1, seq := 5, payload := leBytes 18 1 } })] } } }, none, { opcode := 1, seq := 5, payload := leBytes 18 1 }, by decide +kernel⟩⟩

theorem witness_HostMessagesAnswer :
    (∃ (s : Machine.State) (c : MbxMsg), (s.dev.alive = true) ∧ (s.dev.asked none 0x30 c = true) ∧ (rangesIn c.payload = true) ∧ ((s.dev.store.installs.filter (fun x => decide (x.state < 2))).length < 8)) ∧
    (∃ (s : Machine.State) (c : MbxMsg), (s.dev.alive = true) ∧ (s.dev.asked none 0x31 c = true) ∧ 4 ≤ c.payload.length ∧ (s.dev.store.installs.find? (fun x => decide (x.ticket = subN c.payload 0 4)) = none)) ∧
    (∃ (s : Machine.State) (c : MbxMsg) (x : Install), (s.dev.alive = true) ∧ (s.dev.asked none 0x31 c = true) ∧ 4 ≤ c.payload.length ∧ (s.dev.store.installs.find? (fun x => decide (x.ticket = subN c.payload 0 4)) = some x)) ∧
    (∃ (s : Machine.State) (c : MbxMsg), (s.dev.alive = true) ∧ (s.dev.asked none 0x32 c = true) ∧ 32 ≤ c.payload.length) ∧
    (∃ (s : Machine.State) (fn : Option Nat) (c : MbxMsg), (s.dev.alive = true) ∧ (s.dev.asked fn 0x40 c = true) ∧ 1 ≤ c.payload.length ∧ subN c.payload 0 1 ≤ 31 ∧ (fn = none ∨ fn = some (subN c.payload 0 1))) ∧
    (∃ (s : Machine.State) (c : MbxMsg), (s.dev.alive = true) ∧ (s.dev.asked none 0x50 c = true) ∧ 8 ≤ c.payload.length) ∧
    (∃ (s : Machine.State) (fn : Option Nat) (c : MbxMsg), (s.dev.alive = true) ∧ (s.dev.asked fn 0x40 c = true) ∧ 1 ≤ c.payload.length ∧ subN c.payload 0 1 ≤ 31 ∧ fn ≠ none ∧ fn ≠ some (subN c.payload 0 1)) ∧
    (∃ (s : Machine.State) (fn : Option Nat) (c : MbxMsg) (v : List Byte), (s.dev.alive = true) ∧ (s.dev.asked fn 0x20 c = true) ∧ 8 ≤ c.payload.length ∧ (subN c.payload 3 1 = 0) ∧ (s.dev.dictRead (.mbx fn) (subN c.payload 0 2) (subN c.payload 2 1) = .ok v)) ∧
    (∃ (s : Machine.State) (fn : Option Nat) (ok : Bool) (c : MbxMsg) (index sb : Nat) (tok : Option (List Byte)) (data : List Byte), (s.dev.alive = true) ∧ (s.dev.asked fn 0x21 c = true) ∧ (writeMsg c.payload = some (index, sb, tok, data)) ∧ (((s.dev.dictWrite (.mbx fn) index sb data tok ok).1.mbxAt fn).resp = false) ∧ (((s.dev.dictWrite (.mbx fn) index sb data tok ok).1.mbxAt fn).discard = false)) :=
  ⟨⟨{ dev := { alive := true, host := { mbx := [(0, { pending := true, taken := true, cur := some { opcode := 0x30, seq := 5, payload := leBytes 8 0 ++ leBytes 8 1 ++ leBytes 16 0 } })] } } }, { opcode := 0x30, seq := 5, payload := leBytes 8 0 ++ leBytes 8 1 ++ leBytes 16 0 }, by decide +kernel⟩,
   ⟨{ dev := { alive := true, host := { mbx := [(0, { pending := true, taken := true, cur := some { opcode := 0x31, seq := 5, payload := leBytes 4 9 } })] } } }, { opcode := 0x31, seq := 5, payload := leBytes 4 9 }, by decide +kernel⟩,
   ⟨{ dev := { alive := true, store := { installs := [{ ticket := 9 }] }, host := { mbx := [(0, { pending := true, taken := true, cur := some { opcode := 0x31, seq := 5, payload := leBytes 4 9 } })] } } }, { opcode := 0x31, seq := 5, payload := leBytes 4 9 }, { ticket := 9 }, by decide +kernel⟩,
   ⟨{ dev := { alive := true, host := { mbx := [(0, { pending := true, taken := true, cur := some { opcode := 0x32, seq := 5, payload := leBytes 32 9 } })] } } }, { opcode := 0x32, seq := 5, payload := leBytes 32 9 }, by decide +kernel⟩,
   ⟨{ dev := { alive := true, host := { mbx := [(4, { pending := true, taken := true, cur := some { opcode := 0x40, seq := 5, payload := leBytes 1 3 } })] } } }, some 3, { opcode := 0x40, seq := 5, payload := leBytes 1 3 }, by decide +kernel⟩,
   ⟨{ dev := { alive := true, host := { mbx := [(0, { pending := true, taken := true, cur := some { opcode := 0x50, seq := 5, payload := leBytes 8 6 } })] } } }, { opcode := 0x50, seq := 5, payload := leBytes 8 6 }, by decide +kernel⟩,
   ⟨{ dev := { alive := true, host := { mbx := [(4, { pending := true, taken := true, cur := some { opcode := 0x40, seq := 5, payload := leBytes 1 2 } })] } } }, some 3, { opcode := 0x40, seq := 5, payload := leBytes 1 2 }, by decide +kernel⟩,
   ⟨{ dev := { alive := true, host := { mbx := [(0, { pending := true, taken := true, cur := some { opcode := 0x20, seq := 5, payload := leBytes 8 0x1000 } })] } } }, none, { opcode := 0x20, seq := 5, payload := leBytes 8 0x1000 }, ({} : Dev).dread 0x1000 0 0, by decide +kernel⟩,
   ⟨{ dev := { alive := true, host := { mbx := [(0, { pending := true, taken := true, cur := some { opcode := 0x21, seq := 5, payload := leBytes 12 0x1000 } })] } } }, none, true, { opcode := 0x21, seq := 5, payload := leBytes 12 0x1000 }, 0x1000, 0, none, [], by decide +kernel⟩⟩

theorem witness_CoreControlActs :
    (∃ (s : Machine.State) (n : Fin 32) (c : MbxMsg) (k : Nat), (s.dev.alive = true) ∧ (s.dev.asked (some n) 0x41 c = true) ∧ (subN c.payload 1 1 = 0) ∧ (s.dev.coreOfRank n (subN c.payload 0 1) = some k) ∧ ((s.dev.coreAt k).lock = false)) ∧
    (∃ (s : Machine.State) (n : Fin 32) (c : MbxMsg) (k : Nat), (s.dev.alive = true) ∧ (s.dev.asked (some n) 0x41 c = true) ∧ (subN c.payload 1 1 = 1) ∧ (s.dev.coreOfRank n (subN c.payload 0 1) = some k) ∧ ((s.dev.coreAt k).lock = false)) ∧
    (∃ (s : Machine.State) (n : Fin 32) (c : MbxMsg) (k : Nat), (s.dev.alive = true) ∧ (s.dev.asked (some n) 0x41 c = true) ∧ (subN c.payload 1 1 = 2) ∧ (s.dev.coreOfRank n (subN c.payload 0 1) = some k) ∧ ((s.dev.coreAt k).st = .idle) ∧ s.dev.pc k + 64 ≤ csSize) ∧
    (∃ (s : Machine.State) (n : Fin 32) (c : MbxMsg) (k : Nat), (s.dev.alive = true) ∧ (s.dev.asked (some n) 0x41 c = true) ∧ (subN c.payload 1 1 = 3) ∧ (s.dev.coreOfRank n (subN c.payload 0 1) = some k) ∧ ((s.dev.coreAt k).st = .run ∨ (s.dev.coreAt k).st = .wait)) ∧
    (∃ (s : Machine.State) (n : Fin 32) (c : MbxMsg) (k : Nat), (s.dev.alive = true) ∧ (s.dev.asked (some n) 0x41 c = true) ∧ (subN c.payload 1 1 = 4) ∧ (s.dev.coreOfRank n (subN c.payload 0 1) = some k) ∧ ((s.dev.coreAt k).st = .saved) ∧ (s.dev.inShare (s.dev.corePtn k) (s.dev.saveBase k) 9728 = true) ∧ (subN (s.dev.shRead (s.dev.corePtn k) (s.dev.saveBase k) 9728) 0 1 = 1) ∧ (bit (subN (s.dev.shRead (s.dev.corePtn k) (s.dev.saveBase k) 9728) 3 1) 0 = true) ∧ (bit (subN (s.dev.shRead (s.dev.corePtn k) (s.dev.saveBase k) 9728) 3 1) 1 = false)) ∧
    (∃ (s : Machine.State) (n : Fin 32) (c : MbxMsg) (k : Nat), (s.dev.alive = true) ∧ (s.dev.asked (some n) 0x41 c = true) ∧ (subN c.payload 1 1 = 5) ∧ (s.dev.coreOfRank n (subN c.payload 0 1) = some k) ∧ (s.dev.coreUp k = true)) ∧
    (∃ (s : Machine.State) (who : Req) (c : Fin 32), (s.dev.alive = true) ∧ (s.dev.reqOpen who = true) ∧ (who.isFw = false) ∧ (s.dev.tenDenied who c = none) ∧ ((s.dev.coreAt c).st = .idle) ∧ (s.dev.pc c + 64 ≤ csSize)) ∧
    (∃ (s : Machine.State) (who : Req) (c : Fin 32), (s.dev.alive = true) ∧ (s.dev.reqOpen who = true) ∧ (who.isFw = false) ∧ (s.dev.tenDenied who c = none) ∧ ((s.dev.coreAt c).st = .run ∨ (s.dev.coreAt c).st = .wait)) ∧
    (∃ (s : Machine.State) (who : Req) (c : Fin 32), (s.dev.alive = true) ∧ (s.dev.reqOpen who = true) ∧ (who.isFw = false) ∧ (s.dev.tenDenied who c = none) ∧ ((s.dev.coreAt c).st = .saved) ∧ (s.dev.inShare (s.dev.corePtn c) (s.dev.saveBase c) 9728 = true) ∧ (subN (s.dev.shRead (s.dev.corePtn c) (s.dev.saveBase c) 9728) 0 1 = 1) ∧ (bit (subN (s.dev.shRead (s.dev.corePtn c) (s.dev.saveBase c) 9728) 3 1) 0 = true) ∧ (bit (subN (s.dev.shRead (s.dev.corePtn c) (s.dev.saveBase c) 9728) 3 1) 1 = false)) ∧
    (∃ (s : Machine.State) (who : Req) (c : Fin 32), (s.dev.alive = true) ∧ (s.dev.reqOpen who = true) ∧ (who.isFw = false) ∧ (s.dev.tenDenied who c = none) ∧ (s.dev.coreUp c = true)) ∧
    (∃ (s : Machine.State) (who : Req) (c : Fin 32), (s.dev.alive = true) ∧ (s.dev.mayWrite who (tenReg c 4) = true) ∧ (who.maySetLock = true) ∧ (s.dev.tenDenied who c = none)) ∧
    (∃ (s : Machine.State) (c : Fin 32), (s.dev.alive = true) ∧ ((s.dev.coreAt c).st = .freezing) ∧ ((s.dev.coreAt c).emit = []) ∧ ((s.dev.coreAt c).links = []) ∧ (s.dev.inShare (s.dev.corePtn c) (s.dev.saveBase c) 9728 = true)) :=
  ⟨⟨{ dev := { alive := true, host := { mbx := [(4, { pending := true, taken := true, cur := some { opcode := 0x41, seq := 5, payload := leBytes 1 0 ++ leBytes 1 0 ++ leBytes 14 0 } })] }, ptn := { ptn := [(3, { ent := { valid := true, cores := 32, len := 4 }, order := [5] })] } } }, 3, { opcode := 0x41, seq := 5, payload := leBytes 1 0 ++ leBytes 1 0 ++ leBytes 14 0 }, 5, by decide +kernel⟩,
   ⟨{ dev := { alive := true, host := { mbx := [(4, { pending := true, taken := true, cur := some { opcode := 0x41, seq := 5, payload := leBytes 1 0 ++ leBytes 1 1 ++ leBytes 14 0 } })] }, ptn := { ptn := [(3, { ent := { valid := true, cores := 32, len := 4 }, order := [5] })] } } }, 3, { opcode := 0x41, seq := 5, payload := leBytes 1 0 ++ leBytes 1 1 ++ leBytes 14 0 }, 5, by decide +kernel⟩,
   ⟨{ dev := { alive := true, host := { mbx := [(4, { pending := true, taken := true, cur := some { opcode := 0x41, seq := 5, payload := leBytes 1 0 ++ leBytes 1 2 ++ leBytes 14 0 } })] }, ptn := { ptn := [(3, { ent := { valid := true, cores := 32, len := 4 }, order := [5] })] } } }, 3, { opcode := 0x41, seq := 5, payload := leBytes 1 0 ++ leBytes 1 2 ++ leBytes 14 0 }, 5, by decide +kernel⟩,
   ⟨{ dev := { alive := true, host := { mbx := [(4, { pending := true, taken := true, cur := some { opcode := 0x41, seq := 5, payload := leBytes 1 0 ++ leBytes 1 3 ++ leBytes 14 0 } })] }, ptn := { ptn := [(3, { ent := { valid := true, cores := 32, len := 4 }, order := [5] })] }, core := [(5, { st := .run })] } }, 3, { opcode := 0x41, seq := 5, payload := leBytes 1 0 ++ leBytes 1 3 ++ leBytes 14 0 }, 5, by decide +kernel⟩,
   ⟨{ dev := { alive := true, host := { mbx := [(4, { pending := true, taken := true, cur := some { opcode := 0x41, seq := 5, payload := leBytes 1 0 ++ leBytes 1 4 ++ leBytes 14 0 } })] }, ptn := { ptn := [(3, { ent := { valid := true, cores := 32, len := 4 }, order := [5] })] }, core := [(5, { st := .saved })], mem := { hbm := [(0, 1), (3, 1)] } } }, 3, { opcode := 0x41, seq := 5, payload := leBytes 1 0 ++ leBytes 1 4 ++ leBytes 14 0 }, 5, by decide +kernel⟩,
   ⟨{ dev := { alive := true, host := { mbx := [(4, { pending := true, taken := true, cur := some { opcode := 0x41, seq := 5, payload := leBytes 1 0 ++ leBytes 1 5 ++ leBytes 14 0 } })] }, ptn := { ptn := [(3, { ent := { valid := true, cores := 32, len := 4 }, order := [5] })] } } }, 3, { opcode := 0x41, seq := 5, payload := leBytes 1 0 ++ leBytes 1 5 ++ leBytes 14 0 }, 5, by decide +kernel⟩,
   ⟨{ dev := { alive := true, sec := { debug := true }, ptn := { ptn := [(3, { ent := { valid := true, cores := 32, len := 4 }, order := [5] })] } } }, .debug, 5, by decide +kernel⟩,
   ⟨{ dev := { alive := true, sec := { debug := true }, ptn := { ptn := [(3, { ent := { valid := true, cores := 32, len := 4 }, order := [5] })] }, core := [(5, { st := .wait })] } }, .debug, 5, by decide +kernel⟩,
   ⟨{ dev := { alive := true, sec := { debug := true }, ptn := { ptn := [(3, { ent := { valid := true, cores := 32, len := 4 }, order := [5] })] }, core := [(5, { st := .saved })], mem := { hbm := [(0, 1), (3, 1)] } } }, .debug, 5, by decide +kernel⟩,
   ⟨{ dev := { alive := true, sec := { debug := true }, ptn := { ptn := [(3, { ent := { valid := true, cores := 32, len := 4 }, order := [5] })] } } }, .debug, 5, by decide +kernel⟩,
   ⟨{ dev := { alive := true, regs := [(4, 2)], fw := { image := some {}, prot := { table := [{ comp := 0, base := tenReg 5 4, len := 4 }] } }, ptn := { ptn := [(3, { ent := { valid := true, cores := 32, len := 4 }, order := [5] })] } } }, .fw 0, 5, by decide +kernel⟩,
   ⟨{ dev := { alive := true, ptn := { ptn := [(3, { ent := { valid := true, cores := 32, len := 4 }, order := [5] })] }, core := [(5, { st := .freezing })] } }, 5, by decide +kernel⟩⟩

theorem witness_DmaQueuesActAndRun :
    (∃ (s : Machine.State) (fn : Option Nat) (c : MbxMsg), (s.dev.alive = true) ∧ (s.dev.asked fn 0x60 c = true) ∧ 24 ≤ c.payload.length ∧ subN c.payload 0 1 < dmaQueues fn ∧ (ringSize (subN c.payload 2 2) = true) ∧ (ringSize (subN c.payload 4 2) = true) ∧ (subN c.payload 8 8 % 4096 = 0) ∧ (subN c.payload 16 8 % 4096 = 0) ∧ ((s.dev.dmaAt fn (subN c.payload 0 1)).active = false)) ∧
    (∃ (s : Machine.State) (fn : Option Nat) (c : MbxMsg), (s.dev.alive = true) ∧ (s.dev.asked fn 0x61 c = true) ∧ 1 ≤ c.payload.length ∧ subN c.payload 0 1 < dmaQueues fn ∧ ((s.dev.dmaAt fn (subN c.payload 0 1)).active = true) ∧ ((s.dev.dmaAt fn (subN c.payload 0 1)).run = none)) ∧
    (∃ (s : Machine.State) (fn : Option Nat) (q tail : Nat), (s.dev.alive = true) ∧ (s.dev.fnOpen fn = true) ∧ q < dmaQueues fn ∧ ((s.dev.dmaAt fn q).active = true) ∧ tail % 4096 < (s.dev.dmaAt fn q).sqN ∧ (s.dev.dmaAt fn q).todo + (tail % 4096 + (s.dev.dmaAt fn q).sqN - (s.dev.dmaAt fn q).sqTail) % (s.dev.dmaAt fn q).sqN ≤ (s.dev.dmaAt fn q).sqN - 1) ∧
    (∃ (s : Machine.State) (fn : Option Nat) (q head : Nat), (s.dev.alive = true) ∧ (s.dev.fnOpen fn = true) ∧ q < dmaQueues fn ∧ ((s.dev.dmaAt fn q).active = true) ∧ head % 4096 < (s.dev.dmaAt fn q).cqN ∧ (head % 4096 + (s.dev.dmaAt fn q).cqN - (s.dev.dmaAt fn q).cqHead) % (s.dev.dmaAt fn q).cqN ≤ ((s.dev.dmaAt fn q).cqTail + (s.dev.dmaAt fn q).cqN - (s.dev.dmaAt fn q).cqHead) % (s.dev.dmaAt fn q).cqN) ∧
    (∃ (s : Machine.State) (n : Fin 32) (q : Fin 4) (desc data : List Byte), (s.dev.alive = true) ∧ ((s.dev.dmaAt (some n) q).ready = true) ∧ ((dmaDesc desc).bad true = false) ∧ (inKind (s.dev.regionsOf n) 5 (dmaDesc desc).shoff (dmaDesc desc).len = true) ∧ (s.dev.inShare n (dmaDesc desc).shoff (dmaDesc desc).len = true) ∧ (bit (dmaDesc desc).flags 0 = false)) ∧
    (∃ (s : Machine.State) (q : Fin 16) (desc : List Byte), (s.dev.alive = true) ∧ ((s.dev.dmaAt none q).ready = true) ∧ ((dmaDesc desc).bad false = false)) ∧
    (∃ (s : Machine.State) (fn : Option Nat) (q : Nat) (r : DmaDone), (s.dev.alive = true) ∧ ((s.dev.dmaAt fn q).active = true) ∧ ((s.dev.dmaAt fn q).run = some r) ∧ (r.desc.flags = 0)) ∧
    (∃ (s : Machine.State) (fn : Option Nat) (v : Nat), (s.dev.alive = true) ∧ (Tab.get false s.dev.host.pba (64 * fnIx fn + v) = true) ∧ (s.dev.msixOpen fn v = true)) :=
  ⟨⟨{ dev := { alive := true, host := { mbx := [(0, { pending := true, taken := true, cur := some { opcode := 0x60, seq := 5, payload := leBytes 2 0 ++ leBytes 2 16 ++ leBytes 2 16 ++ leBytes 2 0 ++ leBytes 8 4096 ++ leBytes 8 8192 } })] } } }, none, { opcode := 0x60, seq := 5, payload := leBytes 2 0 ++ leBytes 2 16 ++ leBytes 2 16 ++ leBytes 2 0 ++ leBytes 8 4096 ++ leBytes 8 8192 }, by decide +kernel⟩,
   ⟨{ dev := { alive := true, host := { mbx := [(0, { pending := true, taken := true, cur := some { opcode := 0x61, seq := 5, payload := leBytes 1 2 } })], dma := [(2, { active := true, sqN := 16, cqN := 16, sqBase := 0, cqBase := 4096, todo := 1 })] } } }, none, { opcode := 0x61, seq := 5, payload := leBytes 1 2 }, by decide +kernel⟩,
   ⟨{ dev := { alive := true, host := { linkUp := true, mse := [(0, true)], dma := [(2, { active := true, sqN := 16, cqN := 16, sqBase := 0, cqBase := 4096, todo := 1 })] } } }, none, 2, 3, by decide +kernel⟩,
   ⟨{ dev := { alive := true, host := { linkUp := true, mse := [(0, true)], dma := [(2, { active := true, sqN := 16, cqN := 16, sqBase := 0, cqBase := 4096, cqTail := 4 })] } } }, none, 2, 3, by decide +kernel⟩,
   ⟨{ dev := { alive := true, host := { dma := [(64, { active := true, sqN := 16, cqN := 16, sqBase := 0, cqBase := 4096, todo := 1 })] }, ptn := { ptn := [(3, { ent := { valid := true, len := 4, gang := 3 } })] }, store := { bundles := [{ inst := 1, ptn := 3, gang := 3, regions := [{ kind := 5, off := 0, len := 4096 }] }] } } }, 3, 0, leBytes 8 0 ++ leBytes 8 0 ++ leBytes 4 64 ++ leBytes 2 9 ++ leBytes 1 1 ++ leBytes 41 0, [1, 2], by decide +kernel⟩,
   ⟨{ dev := { alive := true, host := { dma := [(2, { active := true, sqN := 16, cqN := 16, sqBase := 0, cqBase := 4096, todo := 1 })] } } }, 2, leBytes 8 4096 ++ leBytes 8 0 ++ leBytes 4 4096 ++ leBytes 2 9 ++ leBytes 1 2 ++ leBytes 41 0, by decide +kernel⟩,
   ⟨{ dev := { alive := true, host := { dma := [(2, { active := true, sqN := 16, cqN := 16, sqBase := 0, cqBase := 4096, todo := 1, run := some { desc := dmaDesc [], status := 0, bytes := 64 } })] } } }, none, 2, { desc := dmaDesc [], status := 0, bytes := 64 }, by decide +kernel⟩,
   ⟨{ dev := { alive := true, regs := [(msixBase + 60, 0)], host := { pba := [(3, true)], msixEn := [(0, true)], bme := [(0, true)] } } }, none, 3, by decide +kernel⟩⟩

theorem witness_LinkAndFunctionResetsAct :
    (∃ (s : Machine.State), s.dev.alive = true) ∧
    (∃ (s : Machine.State), (s.dev.alive = true) ∧ (s.dev.host.linkUp = true)) ∧
    (∃ (s : Machine.State) (n : Fin 32), (s.dev.alive = true) ∧ (s.dev.host.linkUp = true) ∧ (s.dev.host.vfEnable = true) ∧ n.val < s.dev.host.numVfs) ∧
    (∃ (s : Machine.State), s.dev.alive = true) ∧
    (∃ (s : Machine.State) (rate width : Nat) (flit : Bool), (s.dev.alive = true) ∧ (rate = 3 ∨ rate = 4 ∨ rate = 5) ∧ (width = 4 ∨ width = 8 ∨ width = 16)) ∧
    (∃ (s : Machine.State) (on : Bool), (s.dev.alive = true) ∧ (s.dev.host.linkUp = true)) ∧
    (∃ (s : Machine.State) (n : Nat), (s.dev.alive = true) ∧ (s.dev.host.linkUp = true) ∧ 1 ≤ n ∧ n ≤ 32) ∧
    (∃ (s : Machine.State) (fn : Option Nat) (on : Bool), (s.dev.alive = true) ∧ (s.dev.host.linkUp = true)) ∧
    (∃ (s : Machine.State) (fn : Option Nat) (on : Bool), (s.dev.alive = true) ∧ (s.dev.host.linkUp = true)) ∧
    (∃ (s : Machine.State) (fn : Option Nat) (on : Bool), (s.dev.alive = true) ∧ (s.dev.host.linkUp = true)) ∧
    (∃ (s : Machine.State) (index : Nat), (s.dev.alive = true) ∧ (s.dev.host.linkUp = true) ∧ index < 3) :=
  ⟨⟨{ dev := { alive := true, host := { linkUp := true, vfEnable := true, numVfs := 8, direct := 5, mbx := [(0, { pending := true }), (4, { pending := true })] } } }, by decide +kernel⟩,
   ⟨{ dev := { alive := true, host := { linkUp := true, vfEnable := true, numVfs := 8, direct := 5, mbx := [(0, { pending := true }), (4, { pending := true })] } } }, by decide +kernel⟩,
   ⟨{ dev := { alive := true, host := { linkUp := true, vfEnable := true, numVfs := 8, direct := 5, mbx := [(0, { pending := true }), (4, { pending := true })] } } }, 3, by decide +kernel⟩,
   ⟨{ dev := { alive := true, host := { linkUp := true, vfEnable := true, numVfs := 8, direct := 5, mbx := [(0, { pending := true }), (4, { pending := true })] } } }, by decide +kernel⟩,
   ⟨{ dev := { alive := true } }, 5, 16, true, by decide +kernel⟩,
   ⟨{ dev := { alive := true, host := { linkUp := true, vfEnable := true, numVfs := 8, direct := 5, mbx := [(0, { pending := true }), (4, { pending := true })] } } }, true, by decide +kernel⟩,
   ⟨{ dev := { alive := true, host := { linkUp := true, vfEnable := true, numVfs := 8, direct := 5, mbx := [(0, { pending := true }), (4, { pending := true })] } } }, 32, by decide +kernel⟩,
   ⟨{ dev := { alive := true, host := { linkUp := true, vfEnable := true, numVfs := 8, direct := 5, mbx := [(0, { pending := true }), (4, { pending := true })] } } }, none, true, by decide +kernel⟩,
   ⟨{ dev := { alive := true, host := { linkUp := true, vfEnable := true, numVfs := 8, direct := 5, mbx := [(0, { pending := true }), (4, { pending := true })] } } }, none, true, by decide +kernel⟩,
   ⟨{ dev := { alive := true, host := { linkUp := true, vfEnable := true, numVfs := 8, direct := 5, mbx := [(0, { pending := true }), (4, { pending := true })] } } }, none, false, by decide +kernel⟩,
   ⟨{ dev := { alive := true, host := { linkUp := true, vfEnable := true, numVfs := 8, direct := 5, mbx := [(0, { pending := true }), (4, { pending := true })] } } }, 2, by decide +kernel⟩⟩

theorem witness_ReceivedFramesAreCountedAndDelivered :
    (∃ (s : Machine.State) (n : Fin 32) (data : List Byte) (pad : Nat), (s.dev.alive = true) ∧ (s.dev.hears n = true) ∧ (1 ≤ s.dev.portMode n) ∧ (s.dev.portMode n ≤ 3) ∧ (60 ≤ (padded data pad).length) ∧ ((padded data pad).length + 4 ≤ bits (s.dev.rdN (prt n 4)) 13 0) ∧ (etherType (padded data pad) ≠ 0x8808 ∨ s.dev.portMode n = 2) ∧ (s.dev.portMode n ≠ 3 ∨ s.dev.filterPass n (padded data pad) = true) ∧ (bit (s.dev.rdN (prt n 0x30)) 0 = false) ∧ (s.dev.admits n (cellsOf (bits (s.dev.rdN (prt n 4)) 13 0)) = true)) ∧
    (∃ (s : Machine.State) (n : Fin 32) (data : List Byte) (pad : Nat), (s.dev.alive = true) ∧ (s.dev.hears n = true) ∧ (1 ≤ s.dev.portMode n) ∧ (s.dev.portMode n ≤ 3) ∧ ((padded data pad).length < 60)) ∧
    (∃ (s : Machine.State) (n : Fin 32) (i : Nat), (s.dev.alive = true) ∧ (s.dev.pktFind (fun p => decide (p.entry = n.val) && !p.synth && decide (p.eof = none)) = some i)) ∧
    (∃ (s : Machine.State) (n : Fin 32) (i : Nat), (s.dev.alive = true) ∧ (s.dev.pktFind (fun p => decide (p.entry = n.val) && !p.synth && decide (p.eof = none)) = some i)) ∧
    (∃ (s : Machine.State) (n : Fin 32) (data fr : List Byte) (pad : Nat) (fail untag : Bool), (s.dev.alive = true) ∧ (s.dev.hears n = true) ∧ (1 ≤ s.dev.portMode n) ∧ (s.dev.portMode n ≤ 3) ∧ (60 ≤ (padded data pad).length) ∧ ((padded data pad).length + 4 ≤ bits (s.dev.rdN (prt n 4)) 13 0) ∧ (etherType (padded data pad) ≠ 0x8808 ∨ s.dev.portMode n = 2) ∧ (s.dev.portMode n ≠ 3 ∨ s.dev.filterPass n (padded data pad) = true) ∧ (bit (s.dev.rdN (prt n 0x30)) 0 = true) ∧ (((s.dev.prtCount n 0 1).prtCount n 1 ((padded data pad).length + 4)).msIngress n (padded data pad)).2 = some (fr, fail, untag) ∧ ((((s.dev.prtCount n 0 1).prtCount n 1 ((padded data pad).length + 4)).msIngress n (padded data pad)).1.admits n (cellsOf (bits (s.dev.rdN (prt n 4)) 13 0)) = true)) :=
  ⟨⟨{ dev := { alive := true, regs := [(prt 4 0, 0x2), (prt 4 4, 1518), (portBuf 4 0, 100), (portBuf 4 1, 100)], flow := { ports := [(4, { link := true })] } } }, 4, List.replicate 40 0, 20, by decide +kernel⟩,
   ⟨{ dev := { alive := true, regs := [(prt 4 0, 0x2)], flow := { ports := [(4, { link := true })] } } }, 4, List.replicate 20 0, 7, by decide +kernel⟩,
   ⟨{ dev := { alive := true, regs := [(prt 4 0, 0x2)], flow := { pkts := [(7, { src := 4, port := 4, entry := 4, cells := 6, len := 300 })], ports := [(4, { link := true })] } } }, 4, 7, by decide +kernel⟩,
   ⟨{ dev := { alive := true, regs := [(prt 4 0, 0x2)], flow := { pkts := [(7, { src := 4, port := 4, entry := 4, cells := 6, len := 300 })], q := [(42, { items := [{ pkt := some 7, len := 300, cells := 5, data := [] }] })], ports := [(4, { link := true })] } } }, 4, 7, by decide +kernel⟩,
   ⟨{ dev := { alive := true, regs := [(prt 4 0, 0x1), (prt 4 4, 1518), (prt 4 0x30, 5), (portBuf 4 0, 100), (portBuf 4 1, 100)], flow := { ports := [(4, { link := true })] } } }, 4, List.replicate 40 0, List.replicate 60 0, 20, false, true, by decide +kernel⟩⟩

theorem witness_PauseActsBothWays :
    (∃ (s : Machine.State) (n : Fin 32) (quanta : Nat) (good forUs : Bool), (s.dev.alive = true) ∧ (s.dev.hears n = true) ∧ (s.dev.pauseAccepts n 1 good forUs = true) ∧ (Tab.get false (s.dev.portAt n).ignoring 8 = false)) ∧
    (∃ (s : Machine.State) (n : Fin 32) (enable : Nat) (quanta : List Nat) (good forUs : Bool), (s.dev.alive = true) ∧ (s.dev.hears n = true) ∧ (s.dev.pauseAccepts n 2 good forUs = true) ∧ ((maskBits 8 enable).any (fun i => Tab.get false (s.dev.portAt n).ignoring i) = false)) ∧
    (∃ (s : Machine.State) (n : Fin 32) (i : Fin 9), s.dev.alive = true) ∧
    (∃ (s : Machine.State) (n : Fin 32) (i : Fin 9), (s.dev.alive = true) ∧ (s.dev.mayPause n = true) ∧ (s.dev.flow.failsafe = false) ∧ ((s.dev.portAt n).tx = none) ∧ (Tab.get false (s.dev.portAt n).xoff i = true) ∧ (Tab.get false (s.dev.portAt n).stopped i = false) ∧ (s.dev.rdN (prt n 0x1C) < s.dev.cellsHeld n i)) ∧
    (∃ (s : Machine.State) (n : Fin 32) (i : Fin 9) (q : Nat) (it : EgItem), (s.dev.alive = true) ∧ (s.dev.mayPause n = true) ∧ (s.dev.portAt n).tx = some (q, it) ∧ (Tab.get false (s.dev.portAt n).xoff i = true) ∧ (Tab.get false (s.dev.portAt n).stopped i = false) ∧ (s.dev.rdN (prt n 0x1C) < s.dev.cellsHeld n i)) ∧
    (∃ (s : Machine.State) (n : Fin 32) (i : Fin 9), (s.dev.alive = true) ∧ ((Tab.find (s.dev.portAt n).timer i).isSome = true)) ∧
    (∃ (s : Machine.State) (n : Fin 32) (i : Fin 9), (s.dev.alive = true) ∧ (Tab.get false (s.dev.portAt n).ignoring i = true)) ∧
    (∃ (s : Machine.State) (n : Fin 32) (i : Fin 9), (s.dev.alive = true) ∧ (s.dev.mayPause n = true) ∧ (s.dev.flow.failsafe = false) ∧ ((s.dev.portAt n).tx = none) ∧ ((s.dev.fcIndexes n).contains i = true) ∧ (bit (s.dev.rdN (prt n 0x14)) 3 = true) ∧ (Tab.get false (s.dev.portAt n).stopped i = false) ∧ (s.dev.rdN (prt n 0x1C) < s.dev.cellsHeld n i)) :=
  ⟨⟨{ dev := { alive := true, regs := [(prt 4 0, 0x1), (prt 4 0x14, 5)], flow := { ports := [(4, { link := true })] } } }, 4, 10, true, true, by decide +kernel⟩,
   ⟨{ dev := { alive := true, regs := [(prt 4 0, 0x1), (prt 4 0x14, 6)], flow := { ports := [(4, { link := true })] } } }, 4, 3, [5, 0, 0, 0, 0, 0, 0, 0], true, true, by decide +kernel⟩,
   ⟨{ dev := { alive := true } }, 4, 8, by decide +kernel⟩,
   ⟨{ dev := { alive := true, regs := [(prt 4 0, 0x3), (prt 4 0x14, 0x50009), (prt 4 0x1C, 10)], flow := { failsafe := false, ports := [(4, { link := true, xoff := [(8, true)], timer := [(8, 100)], ignoring := [(3, true)] })], pkts := [(7, { src := 4, port := 4, entry := 4, cells := 60 })] } } }, 4, 8, by decide +kernel⟩,
   ⟨{ dev := { alive := true, regs := [(prt 4 0, 0x3), (prt 4 0x14, 0x50009), (prt 4 0x1C, 10)], flow := { failsafe := false, ports := [(4, { link := true, tx := some (2, { pkt := none, len := 64, cells := 1, data := [] }), xoff := [(8, true)], timer := [(8, 100)], ignoring := [(3, true)] })], pkts := [(7, { src := 4, port := 4, entry := 4, cells := 60 })] } } }, 4, 8, 2, { pkt := none, len := 64, cells := 1, data := [] }, by decide +kernel⟩,
   ⟨{ dev := { alive := true, regs := [(prt 4 0x14, 0x50009), (prt 4 0x1C, 10)], flow := { ports := [(4, { link := true, xoff := [(8, true)], timer := [(8, 100)], ignoring := [(3, true)] })], pkts := [(7, { src := 4, port := 4, cells := 60 })] } } }, 4, 8, by decide +kernel⟩,
   ⟨{ dev := { alive := true, regs := [(prt 4 0x14, 0x50009), (prt 4 0x1C, 10)], flow := { ports := [(4, { link := true, xoff := [(8, true)], timer := [(8, 100)], ignoring := [(3, true)] })], pkts := [(7, { src := 4, port := 4, cells := 60 })] } } }, 4, 3, by decide +kernel⟩,
   ⟨{ dev := { alive := true, regs := [(prt 4 0, 0x3), (prt 4 0x14, 0x50009), (prt 4 0x1C, 10)], flow := { failsafe := false, ports := [(4, { link := true, xoff := [(8, true)], timer := [(8, 100)], ignoring := [(3, true)] })], pkts := [(7, { src := 4, port := 4, entry := 4, cells := 60 })] } } }, 4, 8, by decide +kernel⟩⟩

theorem witness_LinksAndTheFailSafe :
    (∃ (s : Machine.State) (n : Fin 32) (lf rf : Bool), (s.dev.alive = true) ∧ (s.dev.portExists n = true) ∧ ((s.dev.portAt n).link = true)) ∧
    (∃ (s : Machine.State), s.dev.alive = true) ∧
    (∃ (s : Machine.State), (s.dev.alive = true) ∧ (s.dev.fwReady = true) ∧ (s.dev.helds = false) ∧ (s.dev.flow.dieFLost = false) ∧ (s.dev.pairsUp = true) ∧ (s.dev.flow.failsafe = true) ∧ s.dev.dvalN 0x3003 1 0 ≠ 1 ∧ (s.dev.pwr.boardErr = 0) ∧ (s.dev.dict.apply.any (fun k => decide (keyIndex k = 0x3001)) = false)) ∧
    (∃ (s : Machine.State) (n : Fin 32), (s.dev.alive = true) ∧ (s.dev.paired n = true) ∧ (s.dev.flow.waived.contains n.val = false) ∧ (((s.dev.portAt n).link && (s.dev.portAt (s.dev.partner n)).link) = false)) :=
  ⟨⟨{ dev := { alive := true, regs := [(prt 4 0, 0x1)], flow := { ports := [(4, { link := true })] } } }, 4, true, false, by decide +kernel⟩,
   ⟨{ dev := { alive := true, regs := [(prt 4 0, 0x1)], flow := { failsafe := false, ports := [(4, { link := true })] } } }, by decide +kernel⟩,
   ⟨{ dev := { alive := true, regs := [(glbBase + 4, 2)] } }, by decide +kernel⟩,
   ⟨{ dev := { alive := true, regs := [(prt 4 0, 0x200001), (prt 8 0, 0x100001)] } }, 4, by decide +kernel⟩⟩

theorem witness_PacketsAreTakenParsedAndClassified :
    (∃ (s : Machine.State) (i : Nat) (p : Pkt), (s.dev.alive = true) ∧ (s.dev.anyHeld = false) ∧ (s.dev.flow.pkts.filter (fun kv => decide (kv.2.stage = .rx)) = [(i, p)]) ∧ (p.src < 33) ∧ (s.dev.eligible p.src = some i) ∧ ((s.dev.take1 p.src i).flow.pkts.all (fun kv => decide (kv.2.stage ≠ .rx)) = true)) ∧
    (∃ (s : Machine.State), (s.dev.alive = true)) ∧
    (∃ (s : Machine.State) (pipe : Fin 4) (i : Nat), (s.dev.alive = true) ∧ (s.dev.oldest (fun x => decide (x = .taken pipe)) = some i) ∧ ((s.dev.pkt i).punt3 = none) ∧ (bits (s.dev.pkt i).conf.ctl 2 0 = 0)) ∧
    (∃ (s : Machine.State) (i : Nat) (e : AmEnt), (s.dev.alive = true) ∧ (s.dev.turn .parsed = some i) ∧ ((s.dev.pkt i).punt3 = none) ∧ (parW (s.dev.pkt i) 0 31 24 = 0) ∧ (s.dev.profN (bits (s.dev.clsPort (s.dev.pkt i).port) (19 + 4 * parW (s.dev.pkt i) 0 10 8) (16 + 4 * parW (s.dev.pkt i) 0 10 8)) ≤ 10) ∧ (s.dev.amLookup (bits (s.dev.clsPort (s.dev.pkt i).port) (19 + 4 * parW (s.dev.pkt i) 0 10 8) (16 + 4 * parW (s.dev.pkt i) 0 10 8)) s.dev.vcur (wordsNat (s.dev.keyWords (bits (s.dev.clsPort (s.dev.pkt i).port) (19 + 4 * parW (s.dev.pkt i) 0 10 8) (16 + 4 * parW (s.dev.pkt i) 0 10 8)) (s.dev.pkt i) 0)) = some e) ∧ (resKind e.res = 0)) ∧
    (∃ (s : Machine.State) (pipe : Fin 4) (i r : Nat), (s.dev.alive = true) ∧ (s.dev.oldest (fun x => decide (x = .taken pipe)) = some i) ∧ ((s.dev.pkt i).punt3 = some r) ∧ ((s.dev.pkt i).reinj = false) ∧ (parW (s.dev.pkt i) 0 31 24 = 0)) ∧
    (∃ (s : Machine.State) (i : Nat), (s.dev.alive = true) ∧ (s.dev.turn .parsed = some i) ∧ (parW (s.dev.pkt i) 0 31 24 ≠ 0) ∧ ((s.dev.pkt i).reinj = true ∨ bits (s.dev.clsPort (s.dev.pkt i).port) 3 2 ≠ 2)) :=
  ⟨⟨{ dev := { alive := true, regs := [], flow := { pkts := [(3, { src := 4, port := 4, data := List.replicate 60 0 })], takes := 6 } } }, 3, { src := 4, port := 4, data := List.replicate 60 0 }, by decide +kernel⟩,
   ⟨{ dev := { alive := true } }, by decide +kernel⟩,
   ⟨{ dev := { alive := true, flow := { pkts := [(3, { src := 4, port := 4, stage := .taken 2 })] } } }, 2, 3, by decide +kernel⟩,
   ⟨{ dev := { alive := true, regs := [], flow := { pkts := [(3, { src := 4, port := 4, stage := .parsed })], am := [(5, { res := 8, ctl := 2 ^ 63 + 2 ^ 32 })] } } }, 3, { res := 8, ctl := 2 ^ 63 + 2 ^ 32 }, by decide +kernel⟩,
   ⟨{ dev := { alive := true, flow := { pkts := [(3, { src := 4, port := 4, stage := .taken 2, punt3 := some 3, conf := { lim := List.replicate 35 (2 ^ 20 + 1) } })] } } }, 2, 3, 3, by decide +kernel⟩,
   ⟨{ dev := { alive := true, flow := { pkts := [(3, { src := 4, port := 4, stage := .parsed, par := [2 ^ 24] })] } } }, 3, by decide +kernel⟩⟩

theorem witness_PuntsAreReinjectedAndReleased :
    (∃ (s : Machine.State) (core : Fin 8) (port : Fin 32) (k : Nat) (x : PuntEnt) (i : Nat), (s.dev.alive = true) ∧ (s.dev.fwReady = true) ∧ (s.dev.helds = false) ∧ ((Tab.get [] s.dev.flow.puntQ core)[k]? = some x) ∧ (x.pkt = some i)) ∧
    (∃ (s : Machine.State) (core : Fin 8) (port : Fin 32) (data : List Byte) (st : TStamp), (s.dev.alive = true) ∧ (s.dev.fwReady = true) ∧ (s.dev.helds = false) ∧ (s.dev.flow.sysUsed + cellsOf (data.length + 4) ≤ s.dev.rdN (gntBase + 8))) ∧
    (∃ (s : Machine.State) (core : Fin 8) (k : Nat) (x : PuntEnt), (s.dev.alive = true) ∧ (s.dev.fwReady = true) ∧ (s.dev.helds = false) ∧ ((Tab.get [] s.dev.flow.puntQ core)[k]? = some x)) ∧
    (∃ (s : Machine.State) (core : Fin 8) (port : Fin 32) (data : List Byte) (st : TStamp), (s.dev.alive = true) ∧ (s.dev.fwReady = true) ∧ (s.dev.helds = false) ∧ (s.dev.rdN (gntBase + 8) < s.dev.flow.sysUsed + cellsOf (data.length + 4))) :=
  ⟨⟨{ dev := { alive := true, regs := [(glbBase + 4, 2)], flow := { pkts := [(3, { src := 4, port := 4, stage := .punted 2 })], puntQ := [(2, [{ header := [], par := [], pkt := none }, { header := [], par := [], pkt := some 3 }])] } } }, 2, 7, 1, { header := [], par := [], pkt := some 3 }, 3, by decide +kernel⟩,
   ⟨{ dev := { alive := true, regs := [(glbBase + 4, 2), (gntBase + 8, 4)], flow := {  } } }, 2, 7, List.replicate 60 0, {}, by decide +kernel⟩,
   ⟨{ dev := { alive := true, regs := [(glbBase + 4, 2)], flow := { pkts := [(3, { src := 4, port := 4, stage := .punted 2 })], puntQ := [(2, [{ header := [], par := [], pkt := some 3 }])] } } }, 2, 0, { header := [], par := [], pkt := some 3 }, by decide +kernel⟩,
   ⟨{ dev := { alive := true, regs := [(glbBase + 4, 2), (gntBase + 8, 4)], flow := { sysUsed := 4 } } }, 2, 7, List.replicate 60 0, {}, by decide +kernel⟩⟩

theorem witness_RuleVersionsCommitRetireAndSweep :
    (∃ (s : Machine.State) (c : Fin 12) (v : Nat) (objs : List VObj), (s.dev.alive = true) ∧ (s.dev.mayWrite (.fw c) (clsBase + 0x0C) = true) ∧ (v = vsucc s.dev.vcur) ∧ (s.dev.flow.commitAt ≠ some s.dev.fclk) ∧ (s.dev.flow.vers.length < 4)) ∧
    (∃ (s : Machine.State) (c : Fin 12) (v : Nat) (objs : List VObj), (s.dev.alive = true) ∧ (s.dev.mayWrite (.fw c) (clsBase + 0x0C) = true) ∧ (v ≠ vsucc s.dev.vcur ∨ s.dev.flow.commitAt = some s.dev.fclk)) ∧
    (∃ (s : Machine.State) (c : Fin 12) (v : Nat) (objs : List VObj), (s.dev.alive = true) ∧ (s.dev.mayWrite (.fw c) (clsBase + 0x0C) = true) ∧ (v = vsucc s.dev.vcur) ∧ (s.dev.flow.commitAt ≠ some s.dev.fclk) ∧ (4 ≤ s.dev.flow.vers.length)) ∧
    (∃ (s : Machine.State) (v : Nat) (objs : List VObj), (s.dev.alive = true) ∧ (s.dev.reqOpen .pf = true)) ∧
    (∃ (s : Machine.State) (a : Nat) (b : VerSlot) (rest : List VerSlot), (s.dev.alive = true) ∧ (s.dev.flow.vers = { v := a } :: b :: rest)) ∧
    (∃ (s : Machine.State) (x : VerSlot) (rest : List VerSlot), (s.dev.alive = true) ∧ (s.dev.flow.vers = x :: rest) ∧ (x.live = false) ∧ (s.dev.flow.sweeping = false)) ∧
    (∃ (s : Machine.State), (s.dev.alive = true) ∧ (s.dev.flow.sweeping = true)) ∧
    (∃ (s : Machine.State) (core : Fin 8) (n : Fin 4096) (recd : List Byte) (g k : Nat), (s.dev.alive = true) ∧ (s.dev.fwReady = true) ∧ (s.dev.helds = false) ∧ (Tab.get [] s.dev.flow.puntQ core ≠ []) ∧ (fld recd 8 1 = 2) ∧ (streamOk recd = true) ∧ (s.dev.bindingOf (fld recd 12 1) (fld recd 14 2) = some g) ∧ (s.dev.groupRec g = some k) ∧ (fld recd 10 1 = g) ∧ (ctlOwner (tplCtl recd) = gPtn (Tab.get [] s.dev.flow.tpl k)) ∧ ((s.dev.ent (gPtn (Tab.get [] s.dev.flow.tpl k))).tplfirst ≤ n) ∧ (n < (s.dev.ent (gPtn (Tab.get [] s.dev.flow.tpl k))).tplfirst + (s.dev.ent (gPtn (Tab.get [] s.dev.flow.tpl k))).tplcount) ∧ (targetsOk (Tab.get [] s.dev.flow.tpl k) recd = true) ∧ (s.dev.flow.commitAt ≠ some s.dev.fclk) ∧ (s.dev.flow.vers.length < 4)) :=
  ⟨⟨{ dev := { alive := true, regs := [(4, 2)], fw := { image := some {}, prot := { table := [{ comp := 9, base := clsBase + 0x0C, len := 4 }] } } } }, 9, 2, [.am 7 {}], by decide +kernel⟩,
   ⟨{ dev := { alive := true, regs := [(4, 2)], fw := { image := some {}, prot := { table := [{ comp := 9, base := clsBase + 0x0C, len := 4 }] } } } }, 9, 4, [], by decide +kernel⟩,
   ⟨{ dev := { alive := true, regs := [(4, 2)], flow := { vers := [{ v := 1 }, { v := 2 }, { v := 3 }, { v := 4 }] }, fw := { image := some {}, prot := { table := [{ comp := 9, base := clsBase + 0x0C, len := 4 }] } } } }, 9, 5, [], by decide +kernel⟩,
   ⟨{ dev := { alive := true, host := { linkUp := true, mse := [(0, true)] } } }, 2, [], by decide +kernel⟩,
   ⟨{ dev := { alive := true, regs := [], flow := { vers := [{ v := 1 }, { v := 2 }] } } }, 1, { v := 2 }, [], by decide +kernel⟩,
   ⟨{ dev := { alive := true, regs := [], flow := { vers := [{ v := 1, live := false }, { v := 2 }], am := [(5, { res := 8, ctl := 2 ^ 63 + 65536 }), (6, { res := 8, ctl := 2 ^ 63 + 1 })] } } }, { v := 1, live := false }, [{ v := 2 }], by decide +kernel⟩,
   ⟨{ dev := { alive := true, regs := [], flow := { vers := [{ v := 1, live := false }, { v := 2 }], sweeping := true } } }, by decide +kernel⟩,
   ⟨{ dev := { alive := true, regs := [(glbBase + 4, 2)], dict := { vals := [(dkey 0x3100 2 1, leBytes 1 1 ++ leBytes 3 0 ++ leBytes 4 9)] }, ptn := { ptn := [(0, { ent := { tplcount := 10 } })] }, flow := { puntQ := [(2, [{ header := [], par := [], pkt := none }])], tpl := [(6, leBytes 8 (2 ^ 63) ++ leBytes 1 1 ++ leBytes 1 9 ++ leBytes 4 0 ++ leBytes 1 1 ++ leBytes 1 0 ++ leBytes 4 0 ++ leBytes 4 4)] } } }, 2, 5, (leBytes 8 0 ++ leBytes 1 2 ++ leBytes 1 0 ++ leBytes 1 9 ++ leBytes 1 0 ++ leBytes 1 1 ++ leBytes 1 1 ++ leBytes 4 0 ++ leBytes 2 1 ++ leBytes 44 0 ++ leBytes 32 0), 9, 6, by decide +kernel⟩⟩

theorem witness_BindingAgingAndEntities :
    (∃ (s : Machine.State) (i : Nat), (s.dev.alive = true) ∧ (s.dev.turn .classified = some i) ∧ (bits (s.dev.pkt i).res 143 136 = 0) ∧ (bits (s.dev.pkt i).res 135 128 = 0)) ∧
    (∃ (s : Machine.State) (i ix : Nat), (s.dev.alive = true) ∧ (s.dev.turn .classified = some i) ∧ (bits (s.dev.pkt i).res 143 136 ≠ 0) ∧ (bits (s.dev.pkt i).res 135 128 = 0) ∧ ((flowCands (s.dev.flowDigest (bits (s.dev.pkt i).res 143 136) (s.dev.pkt i))).find? (fun k => (s.dev.flowAt k).valid && decide ((s.dev.flowAt k).digest = s.dev.flowDigest (bits (s.dev.pkt i).res 143 136) (s.dev.pkt i)) && decide ((s.dev.flowAt k).fprof = bits (s.dev.pkt i).res 143 136)) = some ix)) ∧
    (∃ (s : Machine.State), (s.dev.alive = true) ∧ ((s.dev.flowAt s.dev.flow.scan).valid = true) ∧ ((s.dev.flowAt s.dev.flow.scan).static = false) ∧ bits (s.dev.fprof (s.dev.flowAt s.dev.flow.scan).fprof 3) 15 0 ≠ 0 ∧ bits (s.dev.fprof (s.dev.flowAt s.dev.flow.scan).fprof 3) 15 0 ≤ s.dev.idleAge (s.dev.flowAt s.dev.flow.scan)) ∧
    (∃ (s : Machine.State) (i : Fin 1048576) (st ev va : Option Bool) (en : Option Nat) (more : List FlowSet), (s.dev.alive = true) ∧ (s.dev.fwReady = true) ∧ (s.dev.helds = false)) ∧
    (∃ (s : Machine.State) (i : Fin 1048576) (v w : Nat) (b : Bool), (s.dev.alive = true) ∧ (s.dev.fwReady = true) ∧ (s.dev.helds = false)) ∧
    (∃ (s : Machine.State) (p : Fin 32) (first n : Nat), (s.dev.alive = true) ∧ (s.dev.fwReady = true) ∧ (s.dev.helds = false) ∧ first + n ≤ 262144) ∧
    (∃ (s : Machine.State) (who : Req) (i : Fin 1048576), (s.dev.alive = true) ∧ (s.dev.mayWrite who (flwBase + 0x20) = true) ∧ (who.atBlocks = true)) ∧
    (∃ (s : Machine.State) (who : Req) (e : Fin 262144), (s.dev.alive = true) ∧ (s.dev.mayWrite who (flwBase + 0x80) = true) ∧ (who.atBlocks = true)) :=
  ⟨⟨{ dev := { alive := true, regs := [], flow := { pkts := [(3, { src := 4, port := 4, stage := .classified })] } } }, 3, by decide +kernel⟩,
   ⟨{ dev := { alive := true, regs := [], flow := { pkts := [(3, { src := 4, port := 4, stage := .classified, res := 2 ^ 136 })], flow := [(111258, { digest := 74763733183161456123047341222, fprof := 1, valid := true })] } } }, 3, 111258, by decide +kernel⟩,
   ⟨{ dev := { alive := true, regs := [(flwBase + 0x10C, 5)], flow := { flow := [(0, { valid := true })] }, now := 5 * msec } }, by decide +kernel⟩,
   ⟨{ dev := { alive := true, regs := [(glbBase + 4, 2)], flow := {  } } }, 1048575, some true, none, some false, some (2 ^ 23 + 5), [.packets 7], by decide +kernel⟩,
   ⟨{ dev := { alive := true, regs := [(glbBase + 4, 2)], flow := {  } } }, 1048575, 2 ^ 23 + 5, 2 ^ 64 - 1, true, by decide +kernel⟩,
   ⟨{ dev := { alive := true, regs := [(glbBase + 4, 2)], flow := { est := [(101, 0x301)] } } }, 31, 100, 3, by decide +kernel⟩,
   ⟨{ dev := { alive := true, sec := { debug := true }, flow := { flow := [(5, { packets := 7 })] } } }, .debug, 5, by decide +kernel⟩,
   ⟨{ dev := { alive := true, sec := { debug := true } } }, .debug, 262143, by decide +kernel⟩⟩

theorem witness_PolicersColourAndCount :
    (∃ (s : Machine.State) (i : Nat), (s.dev.alive = true) ∧ (s.dev.turn .bound = some i) ∧ (bits (s.dev.pkt i).res 191 176 = 0 ∨ (s.dev.polAt (bits (s.dev.pkt i).res 191 176)).en = false)) ∧
    (∃ (s : Machine.State) (i : Nat), (s.dev.alive = true) ∧ (s.dev.turn .bound = some i) ∧ (bits (s.dev.pkt i).res 191 176 ≠ 0) ∧ ((s.dev.polAt (bits (s.dev.pkt i).res 191 176)).en = true) ∧ (((s.dev.polAt (bits (s.dev.pkt i).res 191 176)).colour s.dev.fclk (parW (s.dev.pkt i) 27 13 0)).1 = 2)) ∧
    (∃ (s : Machine.State) (i : Nat), (s.dev.alive = true) ∧ (s.dev.turn .bound = some i) ∧ (bits (s.dev.pkt i).res 191 176 ≠ 0) ∧ ((s.dev.polAt (bits (s.dev.pkt i).res 191 176)).en = true) ∧ (((s.dev.polAt (bits (s.dev.pkt i).res 191 176)).colour s.dev.fclk (parW (s.dev.pkt i) 27 13 0)).1 = 1)) ∧
    (∃ (s : Machine.State) (i : Nat), (s.dev.alive = true) ∧ (s.dev.turn .bound = some i) ∧ (bits (s.dev.pkt i).res 191 176 ≠ 0) ∧ ((s.dev.polAt (bits (s.dev.pkt i).res 191 176)).en = true) ∧ (((s.dev.polAt (bits (s.dev.pkt i).res 191 176)).colour s.dev.fclk (parW (s.dev.pkt i) 27 13 0)).1 = 0)) ∧
    (∃ (s : Machine.State) (c : Fin 16384) (cinc pinc cbs pbs : Nat) (en rf : Bool), (s.dev.alive = true) ∧ (s.dev.fwReady = true) ∧ (s.dev.helds = false) ∧ (bucketsOk cbs pbs = true)) ∧
    (∃ (s : Machine.State) (c : Fin 16384) (cinc pinc cbs pbs : Nat) (en rf : Bool), (s.dev.alive = true) ∧ (s.dev.fwReady = true) ∧ (s.dev.helds = false) ∧ (bucketsOk cbs pbs = false)) ∧
    (∃ (s : Machine.State) (who : Req) (c : Fin 16384), (s.dev.alive = true) ∧ (s.dev.mayWrite who (gntBase + 0x20) = true) ∧ (who.atBlocks = true)) ∧
    (∃ (s : Machine.State) (who : Req) (c : Fin 16384), (s.dev.alive = true) ∧ (s.dev.mayWrite who (gntBase + 0x20) = true) ∧ (who.atBlocks = true)) :=
  ⟨⟨{ dev := { alive := true, regs := [], flow := { pkts := [(3, { src := 4, port := 4, stage := .bound })] } } }, 3, by decide +kernel⟩,
   ⟨{ dev := { alive := true, regs := [], flow := { pkts := [(3, { src := 4, port := 4, stage := .bound, res := 2 ^ 176, par := List.replicate 32 100 })], pol := [(1, { en := true })] } } }, 3, by decide +kernel⟩,
   ⟨{ dev := { alive := true, regs := [], flow := { pkts := [(3, { src := 4, port := 4, stage := .bound, res := 2 ^ 176, par := List.replicate 32 100 })], pol := [(1, { en := true, pbs := 200, tp := 2 ^ 31 })] } } }, 3, by decide +kernel⟩,
   ⟨{ dev := { alive := true, regs := [], flow := { pkts := [(3, { src := 4, port := 4, stage := .bound, res := 2 ^ 176, par := List.replicate 32 100 })], pol := [(1, { en := true, cbs := 200, pbs := 200, tc := 2 ^ 31, tp := 2 ^ 31 })] } } }, 3, by decide +kernel⟩,
   ⟨{ dev := { alive := true, regs := [(glbBase + 4, 2)], flow := {  } } }, 9, 1, 2, 64, 65, true, true, by decide +kernel⟩,
   ⟨{ dev := { alive := true, regs := [(glbBase + 4, 2)], flow := {  } } }, 9, 1, 2, 63, 64, true, true, by decide +kernel⟩,
   ⟨{ dev := { alive := true, sec := { debug := true }, flow := { pol := [(9, { cinc := 5, red := 6 })] } } }, .debug, 9, by decide +kernel⟩,
   ⟨{ dev := { alive := true, sec := { debug := true } } }, .debug, 9, by decide +kernel⟩⟩

theorem witness_TheFabricScoresAndServes :
    (∃ (s : Machine.State) (i : Nat), (s.dev.alive = true) ∧ (s.dev.turn .policed = some i) ∧ (s.dev.ensRecord (bits (s.dev.pkt i).res 175 170) (s.dev.pkt i).ver = none)) ∧
    (∃ (s : Machine.State) (i r : Nat), (s.dev.alive = true) ∧ (s.dev.turn .policed = some i) ∧ (s.dev.ensRecord (bits (s.dev.pkt i).res 175 170) (s.dev.pkt i).ver = some r) ∧ ((s.dev.recAt r).copies.any s.dev.copyOk = false)) ∧
    (∃ (s : Machine.State) (i r : Nat), (s.dev.alive = true) ∧ (s.dev.turn .policed = some i) ∧ (s.dev.ensRecord (bits (s.dev.pkt i).res 175 170) (s.dev.pkt i).ver = some r) ∧ ((s.dev.recAt r).copies.any s.dev.copyOk = true) ∧ ((s.dev.sqAt (bits (s.dev.pkt i).res 175 170)).length < (s.dev.recAt r).sqlim) ∧ (s.dev.poolUsed < 65536)) ∧
    (∃ (s : Machine.State) (i r : Nat), (s.dev.alive = true) ∧ (s.dev.turn .policed = some i) ∧ (s.dev.ensRecord (bits (s.dev.pkt i).res 175 170) (s.dev.pkt i).ver = some r) ∧ ((s.dev.recAt r).copies.any s.dev.copyOk = true) ∧ ((s.dev.recAt r).sqlim ≤ (s.dev.sqAt (bits (s.dev.pkt i).res 175 170)).length ∨ 65536 ≤ s.dev.poolUsed)) ∧
    (∃ (s : Machine.State) (e : Fin 64) (n at_ own : Nat), (s.dev.alive = true) ∧ (Tab.get none s.dev.flow.drops e = some (n, at_, own)) ∧ ((Tab.get [] s.dev.cat.fifo 32).length < 8) ∧ (Tab.get [] s.dev.cat.hold 32 = [])) ∧
    (∃ (s : Machine.State) (e i r : Nat) (c : EnsCopy), (s.dev.alive = true) ∧ (e < 64) ∧ (s.dev.sqAt e = [i]) ∧ ((upTo 64).all (fun k => decide (k = e) || decide (s.dev.sqAt k = [])) = true) ∧ (s.dev.ensRecord e (s.dev.pkt i).ver = some r) ∧ ((s.dev.recAt r).copies = [c]) ∧ (s.dev.copyOk c = true) ∧ (c.quads.all (fun q => decide (q < 4)) = true)) ∧
    (∃ (s : Machine.State) (i : Nat) (err : Option (Fin 8192 × Bool)), (s.dev.alive = true) ∧ (s.dev.firstHand .granted = some i) ∧ (err.all (fun x => (s.dev.pkt i).grant.isNone || decide (s.dev.slotOwner x.1.val ≠ (s.dev.pkt i).grant)) = true)) ∧
    (∃ (s : Machine.State) (i r c : Nat) (slot : Fin 8192), (s.dev.alive = true) ∧ (s.dev.firstHand .granted = some i) ∧ (s.dev.pkt i).grant = some (r, c) ∧ (s.dev.slotOwner slot = some (r, c)) ∧ (c < (s.dev.recAt r).copies.length)) ∧
    (∃ (s : Machine.State) (slot : Fin 8192) (r c : Nat), (s.dev.alive = true) ∧ (s.dev.slotOwner slot = some (r, c)) ∧ (((s.dev.recAt r).copies.getD c { quads := [], first := [] }).reload.contains slot.val = true)) ∧
    (∃ (s : Machine.State), (s.dev.alive = true) ∧ (bit (s.dev.rdN (treBase + 4)) 1 = true)) ∧
    (∃ (s : Machine.State) (r c n : Nat), (s.dev.alive = true) ∧ (bit (s.dev.rdN (treBase + 4)) 1 = true) ∧ (s.dev.slotOwner s.dev.flow.scrub = some (r, c)) ∧ (c < (s.dev.recAt r).copies.length)) :=
  ⟨⟨{ dev := { alive := true, regs := [], flow := { pkts := [(3, { src := 4, port := 4, stage := .policed })] } } }, 3, by decide +kernel⟩,
   ⟨{ dev := { alive := true, regs := [], flow := { qInSvc := 13, pkts := [(3, { src := 4, port := 4, ver := 1, stage := .policed })], recs := [(2, { inUse := true, ctl := 2 ^ 63, copies := [{ quads := [1], first := [0] }], sqlim := 16, trees := [{ oblivious := true, depth := 0, cls := 0, qpos := 0, nodes := [], leaves := [9] }] })] } } }, 3, 2, by decide +kernel⟩,
   ⟨{ dev := { alive := true, regs := [], flow := { qInSvc := 15, pkts := [(3, { src := 4, port := 4, ver := 1, stage := .policed })], recs := [(2, { inUse := true, ctl := 2 ^ 63, copies := [{ quads := [1], first := [0] }], sqlim := 16, trees := [{ oblivious := true, depth := 0, cls := 0, qpos := 0, nodes := [], leaves := [9] }] })] } } }, 3, 2, by decide +kernel⟩,
   ⟨{ dev := { alive := true, regs := [], flow := { qInSvc := 15, pkts := [(3, { src := 4, port := 4, ver := 1, stage := .policed })], recs := [(2, { inUse := true, ctl := 2 ^ 63, copies := [{ quads := [1], first := [0] }], sqlim := 0, trees := [{ oblivious := true, depth := 0, cls := 0, qpos := 0, nodes := [], leaves := [9] }] })] } } }, 3, 2, by decide +kernel⟩,
   ⟨{ dev := { alive := true, regs := [], flow := { drops := [(9, some (4, 100, 32))] } } }, 9, 4, 100, 32, by decide +kernel⟩,
   ⟨{ dev := { alive := true, regs := [], flow := { qInSvc := 15, sq := [(0, [3])], pkts := [(3, { src := 4, port := 4, ver := 1, stage := .queued })], recs := [(2, { inUse := true, ctl := 2 ^ 63, copies := [{ quads := [1], first := [0] }], sqlim := 16, trees := [{ oblivious := true, depth := 0, cls := 0, qpos := 0, nodes := [], leaves := [9] }] })] } } }, 0, 3, 2, { quads := [1], first := [0] }, by decide +kernel⟩,
   ⟨{ dev := { alive := true, regs := [], flow := { pkts := [(3, { src := 4, port := 4, stage := .granted, grant := some (2, 0) })] } } }, 3, some (7, true), by decide +kernel⟩,
   ⟨{ dev := { alive := true, flow := { pkts := [(3, { src := 4, port := 4, stage := .granted, grant := some (2, 0) })], recs := [(2, { inUse := true, ctl := 2 ^ 63, copies := [{ quads := [1], first := [0] }], sqlim := 16, trees := [{ oblivious := true, depth := 0, cls := 0, qpos := 0, nodes := [], leaves := [9] }] })] } } }, 3, 2, 0, 2048, by decide +kernel⟩,
   ⟨{ dev := { alive := true, regs := [], flow := { recs := [(2, { inUse := true, ctl := 2 ^ 63, copies := [{ quads := [1], first := [0], reload := [2048] }], sqlim := 16, trees := [{ oblivious := true, depth := 0, cls := 0, qpos := 0, nodes := [], leaves := [9] }] })] } } }, 2048, 2, 0, by decide +kernel⟩,
   ⟨{ dev := { alive := true, regs := [(treBase + 4, 2)], flow := { scrub := 8191 } } }, by decide +kernel⟩,
   ⟨{ dev := { alive := true, regs := [(treBase + 4, 2)], flow := { scrub := 2048, recs := [(2, { inUse := true, ctl := 2 ^ 63, copies := [{ quads := [1], first := [0] }], sqlim := 16, trees := [{ oblivious := true, depth := 0, cls := 0, qpos := 0, nodes := [], leaves := [9] }] })] } } }, 2, 0, 9, by decide +kernel⟩⟩

theorem witness_VerdictsAndTheReorderStage :
    (∃ (s : Machine.State) (i : Nat), (s.dev.alive = true) ∧ (s.dev.firstHand .scored = some i)) ∧
    (∃ (s : Machine.State) (k : Fin 64), s.dev.alive = true) ∧
    (∃ (s : Machine.State) (n : Fin 32) (i : Nat), (s.dev.alive = true) ∧ (s.dev.pktFind (fun p => decide (p.port = n.val) && decide (p.seq = (s.dev.portAt n).relSeq) && decide (p.stage = .verdict)) = some i)) ∧
    (∃ (s : Machine.State) (i : Nat), (s.dev.alive = true) ∧ (s.dev.firstHand .released = some i) ∧ ((s.dev.pkt i).eof ≠ some false) ∧ ((s.dev.pkt i).synth = false) ∧ ((s.dev.pkt i).mode = 1) ∧ ((s.dev.pkt i).act = 0 ∨ (s.dev.pkt i).act = 4) ∧ ((s.dev.pkt i).tagged = false) ∧ ((s.dev.pkt i).marked = false ∨ (s.dev.egAt (s.dev.partner (s.dev.pkt i).port) (s.dev.pkt i).cls).occ < s.dev.rdN (gntQ (s.dev.partner (s.dev.pkt i).port) (s.dev.pkt i).cls 0x18)) ∧ (s.dev.mayTx (s.dev.partner (s.dev.pkt i).port) = true) ∧ (s.dev.egAt (s.dev.partner (s.dev.pkt i).port) (s.dev.pkt i).cls).occ + (s.dev.pkt i).cells ≤ s.dev.rdN (gntQ (s.dev.partner (s.dev.pkt i).port) (s.dev.pkt i).cls 0x14)) ∧
    (∃ (s : Machine.State) (i : Nat), (s.dev.alive = true) ∧ (s.dev.firstHand .released = some i) ∧ ((s.dev.pkt i).eof ≠ some false) ∧ ((s.dev.pkt i).synth = false) ∧ ((s.dev.pkt i).act = 3 ∨ ((s.dev.pkt i).mode ≠ 1 ∧ (s.dev.pkt i).act ≠ 2 ∧ (s.dev.pkt i).act ≠ 5)) ∧ (((decide ((s.dev.pkt i).mode = 1)) && (s.dev.tagBytes (s.dev.pkt i) (s.dev.partner (s.dev.pkt i).port)).2) = false)) ∧
    (∃ (s : Machine.State) (i n q : Nat), (s.dev.alive = true) ∧ (s.dev.firstHand .released = some i) ∧ ((s.dev.pkt i).eof ≠ some false) ∧ ((s.dev.pkt i).synth = false) ∧ ((s.dev.pkt i).act = 2) ∧ ((s.dev.pkt i).mode ≠ 1) ∧ (bits (s.dev.rdN (visBase + 0x2000 + 0x10 * bits (s.dev.pkt i).res 151 144)) 4 0 = n) ∧ (bits (s.dev.rdN (visBase + 0x2000 + 0x10 * bits (s.dev.pkt i).res 151 144)) 7 5 = q) ∧ (bit (s.dev.rdN (visBase + 0x2000 + 0x10 * bits (s.dev.pkt i).res 151 144)) 8 = true) ∧ (bit (s.dev.rdN (visBase + 0x2000 + 0x10 * bits (s.dev.pkt i).res 151 144)) 9 = false) ∧ (bits (s.dev.rdN (visBase + 0x2000 + 0x10 * bits (s.dev.pkt i).res 151 144)) 31 16 = 0) ∧ (s.dev.portMode n ≠ 2 ∨ n ≠ (s.dev.pkt i).port) ∧ (s.dev.mayTx n = true) ∧ (s.dev.egAt n q).occ + (s.dev.pkt i).cells ≤ s.dev.rdN (gntQ n q 0x14) ∧ ((s.dev.pkt i).marked = false)) :=
  ⟨⟨{ dev := { alive := true, regs := [], flow := { pkts := [(3, { src := 4, port := 4, stage := .scored, defaulted := true })] } } }, 3, by decide +kernel⟩,
   ⟨{ dev := { alive := true, regs := [], flow := { tagAt := [(5, 100)] }, tel := { alarms := [(655365, { set := true })] } } }, 5, by decide +kernel⟩,
   ⟨{ dev := { alive := true, regs := [], flow := { pkts := [(3, { src := 4, port := 4, stage := .verdict })] } } }, 4, 3, by decide +kernel⟩,
   ⟨{ dev := { alive := true, regs := [(prt 4 0, 0x200001), (prt 8 0, 0x100001), (gntQ 8 0 0x14, 100)], flow := { pkts := [(3, { src := 4, port := 4, mode := 1, cells := 1, stage := .released })], ports := [(4, { link := true }), (8, { link := true })] } } }, 3, by decide +kernel⟩,
   ⟨{ dev := { alive := true, regs := [], flow := { pkts := [(3, { src := 4, port := 4, mode := 1, act := 3, stage := .released })] } } }, 3, by decide +kernel⟩,
   ⟨{ dev := { alive := true, regs := [(prt 8 0, 3), (visBase + 0x2000, 0x1A8), (gntQ 8 5 0x14, 100)], flow := { pkts := [(3, { src := 4, port := 4, mode := 0, act := 2, cells := 1, data := [1, 2], stage := .released })], ports := [(4, { link := true }), (8, { link := true })] } } }, 3, 8, 5, by decide +kernel⟩⟩

theorem witness_TheSchedulerSendsAndFrames :
    (∃ (s : Machine.State) (n : Fin 32) (q : Nat) (it : EgItem) (rest : List EgItem), (s.dev.alive = true) ∧ ((s.dev.portAt n).tx = none) ∧ (s.dev.mayTx n = true) ∧ ((upTo 8).find? (fun k => (((s.dev.qRefreshAll n (upTo 8)).promoClear n (upTo 8)).egAt n k).promo.isSome) = none) ∧ (((s.dev.qRefreshAll n (upTo 8)).promoClear n (upTo 8)).starvedPick n = none) ∧ (((s.dev.qRefreshAll n (upTo 8)).promoClear n (upTo 8)).strictPick n 2 = some q) ∧ ((s.dev.egAt n q).items = it :: rest) ∧ (bit (s.dev.rdN (prt n 0x30)) 1 = false)) ∧
    (∃ (s : Machine.State) (n : Fin 32) (q : Nat) (it : EgItem), (s.dev.alive = true) ∧ (s.dev.portAt n).tx = some (q, it) ∧ (s.dev.whole it = true) ∧ (s.dev.flow.failsafe = false) ∧ (it.pkt.all (fun i => decide ((s.dev.pkt i).entry < 32)) = true)) ∧
    (∃ (s : Machine.State) (i : Nat), (s.dev.alive = true) ∧ (s.dev.pktFind Pkt.idle = some i)) ∧
    (∃ (s : Machine.State) (n : Fin 32) (q : Fin 8), (s.dev.alive = true) ∧ bits (s.dev.rdN (gntBase + 0x800 + 4 * n)) 15 0 ≠ 0 ∧ (s.dev.qRefresh n q).qBand n q ((s.dev.qRefresh n q).egAt n q) ≠ 0) ∧
    (∃ (s : Machine.State) (n : Fin 32) (q : Fin 8) (w : List Nat), (s.dev.alive = true) ∧ (s.dev.fwReady = true) ∧ (s.dev.helds = false)) ∧
    (∃ (s : Machine.State) (n : Fin 32) (q : Nat) (it : EgItem), (s.dev.alive = true) ∧ (s.dev.portAt n).tx = some (q, it) ∧ (s.dev.whole it = false)) :=
  ⟨⟨{ dev := { alive := true, regs := [(prt 4 0, 3), (gntQ 4 5 0, 0), (gntQ 4 5 4, 9), (gntQ 4 5 0x0C, 100)], flow := { ports := [(4, { link := true })], q := [(37, { items := [{ pkt := none, len := 64, cells := 1 }], cc := 5 })] } } }, 4, 5, { pkt := none, len := 64, cells := 1 }, [], by decide +kernel⟩,
   ⟨{ dev := { alive := true, regs := [], flow := { failsafe := false, ports := [(4, { link := true, tx := some (5, { pkt := some 3, len := 64, cells := 1 }) })], pkts := [(3, { port := 4, stage := .gone, refs := 1, cells := 1, hudDone := true, eof := some true })] } } }, 4, 5, { pkt := some 3, len := 64, cells := 1 }, by decide +kernel⟩,
   ⟨{ dev := { alive := true, regs := [], flow := { pkts := [(3, { port := 4, stage := .gone, cells := 1, hudDone := true, eof := some true })] } } }, 3, by decide +kernel⟩,
   ⟨{ dev := { alive := true, regs := [(gntBase + 0x810, 100)], flow := { q := [(37, { items := [{ pkt := none, len := 64, cells := 1 }], cc := 5 })] } } }, 4, 5, by decide +kernel⟩,
   ⟨{ dev := { alive := true, regs := [(glbBase + 4, 2)], flow := { q := [(37, { items := [{ pkt := none, len := 64, cells := 1 }], cc := 5 })] } } }, 4, 5, [3, 2, 3, 4, 5, 6, 7], by decide +kernel⟩,
   ⟨{ dev := { alive := true, regs := [], flow := { ports := [(4, { link := true, tx := some (5, { pkt := some 3, len := 64, cells := 1 }) })], pkts := [(3, { port := 4, stage := .gone, refs := 1, cells := 1 })] } } }, 4, 5, { pkt := some 3, len := 64, cells := 1 }, by decide +kernel⟩⟩

theorem witness_TheTimeUnitActs :
    (∃ (s : Machine.State) (c : Fin 12) (off epoch extra cls : Nat), (s.dev.alive = true) ∧ (s.dev.mayWrite (.fw c) (tmuBase + 0x74) = true) ∧ (bit (s.dev.rdN (tmuReg 4)) 5 = true) ∧ (epoch % 256 = s.dev.tmu.epoch) ∧ (cls ≤ bits (s.dev.rdN (tmuReg 0x64)) 7 0)) ∧
    (∃ (s : Machine.State) (c : Fin 12) (off epoch extra cls : Nat), (s.dev.alive = true) ∧ (s.dev.mayWrite (.fw c) (tmuBase + 0x74) = true) ∧ (bit (s.dev.rdN (tmuReg 4)) 5 = true) ∧ (epoch % 256 ≠ s.dev.tmu.epoch)) ∧
    (∃ (s : Machine.State) (x : Nat), ((s.dev.alive || (s.dev.pwr.saving.isSome && !s.dev.pwr.frozen)) = true) ∧ (bit (s.dev.rdN (tmuReg 4)) 6 = true) ∧ (s.dev.tmu.ppsLast.all (fun l => decide (l + 10000000000 ≤ s.dev.now)) = true) ∧ ((Tab.get {} s.dev.tmu.src 2).qualified = false ∨ ((x : Int) - sext 32 (s.dev.rdN (tmuReg 0x48))) % (qsec : Int) ≤ 4000 * (bits (s.dev.rdN (tmuReg 0x44)) 15 0 : Int) ∨ (qsec : Int) - ((x : Int) - sext 32 (s.dev.rdN (tmuReg 0x48))) % (qsec : Int) ≤ 4000 * (bits (s.dev.rdN (tmuReg 0x44)) 15 0 : Int)) ∧ (s.dev.tmu.unknown = false)) ∧
    (∃ (s : Machine.State) (x : Nat) (f : IrigIn), ((s.dev.alive || (s.dev.pwr.saving.isSome && !s.dev.pwr.frozen)) = true) ∧ (bit (s.dev.rdN (tmuReg 4)) 7 = true) ∧ (f.ok = true) ∧ (bit (s.dev.rdN (tmuReg 4)) 8 = false ∨ (irigControl f.fmt = true ∧ f.q < 12)) ∧ ((s.dev.tmu.irigPrev.all (fun p => decide (s.dev.irigSecs f = p + 1))) = true)) ∧
    (∃ (s : Machine.State) (k : Fin 4), ((s.dev.alive || (s.dev.pwr.saving.isSome && !s.dev.pwr.frozen)) = true) ∧ ((Tab.get {} s.dev.tmu.src k).qualified = true)) ∧
    (∃ (s : Machine.State), ((s.dev.alive || (s.dev.pwr.saving.isSome && !s.dev.pwr.frozen)) = true) ∧ (s.dev.tmu.refIn = true)) ∧
    (∃ (s : Machine.State), ((s.dev.alive || (s.dev.pwr.saving.isSome && !s.dev.pwr.frozen)) = true) ∧ (s.dev.tmu.refIn = false) ∧ (bit (s.dev.rdN (tmuReg 4)) 4 = false)) ∧
    (∃ (s : Machine.State) (q bound : Nat), (s.dev.alive = true) ∧ (s.dev.fwReady = true) ∧ (s.dev.helds = false) ∧ (s.dev.tmu.sel = 0) ∧ (1000000 ≤ bound)) ∧
    (∃ (s : Machine.State) (p : PendStep), ((s.dev.alive || (s.dev.pwr.saving.isSome && !s.dev.pwr.frozen)) = true) ∧ (s.dev.tmu.pend = some p)) ∧
    (∃ (s : Machine.State), ((s.dev.alive || (s.dev.pwr.saving.isSome && !s.dev.pwr.frozen)) = true) ∧ (s.dev.tmu.unknown = false)) ∧
    (∃ (s : Machine.State), ((s.dev.alive || (s.dev.pwr.saving.isSome && !s.dev.pwr.frozen)) = true) ∧ (bit (s.dev.rdN (tmuReg 4)) 0 = true) ∧ ((bit (s.dev.rdN (tmuReg 4)) 1 && s.dev.tmu.unknown) = false) ∧ (s.dev.tmu.ppsOut = false)) ∧
    (∃ (s : Machine.State), ((s.dev.alive || (s.dev.pwr.saving.isSome && !s.dev.pwr.frozen)) = true) ∧ (s.dev.tmu.ppsOut = true) ∧ (s.dev.tmu.ppsUntil ≤ s.dev.now)) ∧
    (∃ (s : Machine.State), ((s.dev.alive || (s.dev.pwr.saving.isSome && !s.dev.pwr.frozen)) = true) ∧ (s.dev.tmu.leap = 1 ∨ s.dev.tmu.leap = -1)) ∧
    (∃ (s : Machine.State) (who : Req), (s.dev.alive = true) ∧ (s.dev.reqOpen who = true)) ∧
    (∃ (s : Machine.State) (c : Fin 12) (off epoch extra cls : Nat), (s.dev.alive = true) ∧ (s.dev.mayWrite (.fw c) (tmuBase + 0x74) = true) ∧ (bit (s.dev.rdN (tmuReg 4)) 5 = true) ∧ (epoch % 256 = s.dev.tmu.epoch) ∧ (bits (s.dev.rdN (tmuReg 0x64)) 7 0 < cls)) ∧
    (∃ (s : Machine.State) (x l : Nat), ((s.dev.alive || (s.dev.pwr.saving.isSome && !s.dev.pwr.frozen)) = true) ∧ (bit (s.dev.rdN (tmuReg 4)) 6 = true) ∧ (s.dev.tmu.ppsLast = some l) ∧ (s.dev.now < l + 10000000000)) ∧
    (∃ (s : Machine.State) (x : Nat) (f : IrigIn), ((s.dev.alive || (s.dev.pwr.saving.isSome && !s.dev.pwr.frozen)) = true) ∧ (bit (s.dev.rdN (tmuReg 4)) 7 = true) ∧ (f.ok = false ∨ (bit (s.dev.rdN (tmuReg 4)) 8 = true ∧ irigControl f.fmt = false))) ∧
    (∃ (s : Machine.State) (q bound : Nat), (s.dev.alive = true) ∧ (s.dev.tmu.sel ≠ 0 ∨ bound < 1000000)) :=
  ⟨⟨{ dev := { alive := true, regs := [(4, 2), (tmuReg 4, 32)], fw := { image := some {}, prot := { table := [{ comp := 9, base := tmuBase + 0x74, len := 4 }] } }, tmu := {  } } }, 9, 2 ^ 48 - 1, 0, 0, 0, by decide +kernel⟩,
   ⟨{ dev := { alive := true, regs := [(4, 2), (tmuReg 4, 32)], fw := { image := some {}, prot := { table := [{ comp := 9, base := tmuBase + 0x74, len := 4 }] } }, tmu := {  } } }, 9, 4, 255, 0, 0, by decide +kernel⟩,
   ⟨{ dev := { alive := true, regs := [(tmuReg 4, 64)], tmu := { unknown := false } } }, 4000000010, by decide +kernel⟩,
   ⟨{ dev := { alive := true, regs := [(tmuReg 4, 0x180)], tmu := {  } } }, 4000000010, { fmt := 5, sec := 7, q := 3 }, by decide +kernel⟩,
   ⟨{ dev := { alive := true, regs := [], tmu := { src := [(1, { qualified := true, good := 3 })], sel := 1, state := .locked } } }, 1, by decide +kernel⟩,
   ⟨{ dev := { alive := true, regs := [], tmu := { refIn := true } } }, by decide +kernel⟩,
   ⟨{ dev := { alive := true, regs := [(tmuReg 4, 0)], tmu := {  } } }, by decide +kernel⟩,
   ⟨{ dev := { alive := true, regs := [(glbBase + 4, 2)], tmu := { cnt := 7 } } }, 10, 1000000, by decide +kernel⟩,
   ⟨{ dev := { alive := true, regs := [], tmu := { cnt := 7, epoch := 255, pend := some { delta := -3, at_ := 7, prev := .freerun } } } }, { delta := -3, at_ := 7, prev := .freerun }, by decide +kernel⟩,
   ⟨{ dev := { alive := true, regs := [], tmu := { unknown := false } } }, by decide +kernel⟩,
   ⟨{ dev := { alive := true, regs := [(tmuReg 4, 1)], tmu := {  } } }, by decide +kernel⟩,
   ⟨{ dev := { alive := true, regs := [], tmu := { ppsOut := true } } }, by decide +kernel⟩,
   ⟨{ dev := { alive := true, regs := [], tmu := { leap := -1 } } }, by decide +kernel⟩,
   ⟨{ dev := { alive := true, sec := { debug := true }, tmu := { cnt := 4000000001 } } }, .debug, by decide +kernel⟩,
   ⟨{ dev := { alive := true, regs := [(4, 2), (tmuReg 4, 32)], fw := { image := some {}, prot := { table := [{ comp := 9, base := tmuBase + 0x74, len := 4 }] } }, tmu := {  } } }, 9, 4, 0, 0, 250, by decide +kernel⟩,
   ⟨{ dev := { alive := true, regs := [(tmuReg 4, 64)], tmu := { unknown := false, ppsLast := some 3 } } }, 4000000010, 3, by decide +kernel⟩,
   ⟨{ dev := { alive := true, regs := [(tmuReg 4, 0x180)], tmu := {  } } }, 4000000010, { fmt := 3 }, by decide +kernel⟩,
   ⟨{ dev := { alive := true, regs := [(glbBase + 4, 2)] } }, 10, 999999, by decide +kernel⟩⟩

theorem witness_SnapshotsOpenFileAndClose :
    (∃ (s : Machine.State) (g : Fin 64) (k n : Nat), (s.dev.alive = true) ∧ (s.dev.groupRec g = some k) ∧ (s.dev.tmu.unknown = false) ∧ ((s.dev.grpAt g).running = true) ∧ ((s.dev.grpAt g).recs.head?.all (fun x => decide (gRate x.2 = gRate (Tab.get [] s.dev.flow.tpl k))) = true) ∧ ((s.dev.grpAt g).next = some n) ∧ (gOpenNum (Tab.get [] s.dev.flow.tpl k) n ≤ s.dev.timeNum (Tab.get [] s.dev.flow.tpl k)) ∧ (bit (fld (Tab.get [] s.dev.flow.tpl k) 11 1) 2 = false)) ∧
    (∃ (s : Machine.State) (g : Fin 64) (k : Nat), (s.dev.alive = true) ∧ (s.dev.groupRec g = some k) ∧ (s.dev.tmu.unknown = false) ∧ ((s.dev.grpAt g).running = false) ∧ ((s.dev.grpAt g).anyClosed = false) ∧ (s.dev.timeNum (Tab.get [] s.dev.flow.tpl k) < gOpenNum (Tab.get [] s.dev.flow.tpl k) (s.dev.firstSnap (Tab.get [] s.dev.flow.tpl k)))) ∧
    (∃ (s : Machine.State) (g : Fin 64) (x : Snap) (rest : List Snap), (s.dev.alive = true) ∧ ((s.dev.grpAt g).opened = x :: rest) ∧ (s.dev.tmu.unknown = false) ∧ ((s.dev.grpAt g).running = true) ∧ gCloseNum x.recd x.n ≤ s.dev.timeNum x.recd) ∧
    (∃ (s : Machine.State) (i : Nat), (s.dev.alive = true) ∧ (s.dev.nextFile = some i)) ∧
    (∃ (s : Machine.State), s.dev.alive = true) ∧
    (∃ (s : Machine.State), (s.dev.alive = true) ∧ (s.dev.nextFile = none)) :=
  ⟨⟨{ dev := { alive := true, tmu := { unknown := false, cnt := 4000000000 }, flow := { tpl := [(6, (leBytes 8 (2 ^ 63) ++ leBytes 1 1 ++ leBytes 1 5 ++ leBytes 1 3 ++ leBytes 1 0 ++ leBytes 2 50 ++ leBytes 1 1 ++ leBytes 1 4 ++ leBytes 4 0 ++ leBytes 4 2 ++ leBytes 12 0 ++ leBytes 1 2 ++ leBytes 1 1 ++ leBytes 12 0 ++ leBytes 1 2 ++ leBytes 1 1 ++ leBytes 76 0))], grp := [(5, { running := true, tpl := 6, next := some 51 })] } } }, 5, 6, 51, by decide +kernel⟩,
   ⟨{ dev := { alive := true, tmu := { unknown := false, cnt := 4000000123 }, flow := { tpl := [(6, (leBytes 8 (2 ^ 63) ++ leBytes 1 1 ++ leBytes 1 5 ++ leBytes 1 3 ++ leBytes 1 0 ++ leBytes 2 50 ++ leBytes 1 1 ++ leBytes 1 4 ++ leBytes 4 0 ++ leBytes 4 2 ++ leBytes 12 0 ++ leBytes 1 2 ++ leBytes 1 1 ++ leBytes 12 0 ++ leBytes 1 2 ++ leBytes 1 1 ++ leBytes 76 0))] } } }, 5, 6, by decide +kernel⟩,
   ⟨{ dev := { alive := true, tmu := { unknown := false, cnt := 4000000000 }, flow := { tpl := [(6, (leBytes 8 (2 ^ 63) ++ leBytes 1 1 ++ leBytes 1 5 ++ leBytes 1 3 ++ leBytes 1 0 ++ leBytes 2 50 ++ leBytes 1 1 ++ leBytes 1 4 ++ leBytes 4 0 ++ leBytes 4 2 ++ leBytes 12 0 ++ leBytes 1 2 ++ leBytes 1 1 ++ leBytes 12 0 ++ leBytes 1 2 ++ leBytes 1 1 ++ leBytes 76 0))], grp := [(5, { running := true, tpl := 6, next := some 51, opened := [{ n := 50, recd := (leBytes 8 (2 ^ 63) ++ leBytes 1 1 ++ leBytes 1 5 ++ leBytes 1 3 ++ leBytes 1 0 ++ leBytes 2 50 ++ leBytes 1 1 ++ leBytes 1 4 ++ leBytes 4 0 ++ leBytes 4 2 ++ leBytes 12 0 ++ leBytes 1 2 ++ leBytes 1 1 ++ leBytes 12 0 ++ leBytes 1 2 ++ leBytes 1 1 ++ leBytes 76 0) }] })] } } }, 5, { n := 50, recd := (leBytes 8 (2 ^ 63) ++ leBytes 1 1 ++ leBytes 1 5 ++ leBytes 1 3 ++ leBytes 1 0 ++ leBytes 2 50 ++ leBytes 1 1 ++ leBytes 1 4 ++ leBytes 4 0 ++ leBytes 4 2 ++ leBytes 12 0 ++ leBytes 1 2 ++ leBytes 1 1 ++ leBytes 12 0 ++ leBytes 1 2 ++ leBytes 1 1 ++ leBytes 76 0) }, [], by decide +kernel⟩,
   ⟨{ dev := { alive := true, tmu := { unknown := false, cnt := 4000000000 }, flow := { tpl := [(6, (leBytes 8 (2 ^ 63) ++ leBytes 1 1 ++ leBytes 1 5 ++ leBytes 1 3 ++ leBytes 1 0 ++ leBytes 2 50 ++ leBytes 1 1 ++ leBytes 1 4 ++ leBytes 4 0 ++ leBytes 4 2 ++ leBytes 12 0 ++ leBytes 1 2 ++ leBytes 1 1 ++ leBytes 12 0 ++ leBytes 1 2 ++ leBytes 1 1 ++ leBytes 76 0))], grp := [(5, { running := true, tpl := 6 })], pkts := [(3, { released := true, eof := some true, res := 2 ^ 192 })] } } }, 3, by decide +kernel⟩,
   ⟨{ dev := { alive := true, tmu := { unknown := false, cnt := 4000000000 }, flow := { tpl := [(6, (leBytes 8 (2 ^ 63) ++ leBytes 1 1 ++ leBytes 1 5 ++ leBytes 1 3 ++ leBytes 1 0 ++ leBytes 2 50 ++ leBytes 1 1 ++ leBytes 1 4 ++ leBytes 4 0 ++ leBytes 4 2 ++ leBytes 12 0 ++ leBytes 1 2 ++ leBytes 1 1 ++ leBytes 12 0 ++ leBytes 1 2 ++ leBytes 1 1 ++ leBytes 76 0))], grp := [(5, { running := true, tpl := 6 })], fileQ := [{ grp := 5, n := 50, ptn := 3, off := 0, val := [7], soff := 8, status := 1 }, { grp := 5, n := 50, ptn := 3, off := 1, val := [7], soff := 9, status := 1 }, { grp := 5, n := 50, ptn := 3, off := 2, val := [7], soff := 10, status := 1 }] } } }, by decide +kernel⟩,
   ⟨{ dev := { alive := true } }, by decide +kernel⟩⟩

theorem witness_ResultsAreTakenAndWrittenBack :
    (∃ (s : Machine.State) (c : CatRec) (rest : List CatRec) (k : Nat), (s.dev.alive = true) ∧ (s.dev.cat.fwd = c :: rest) ∧ (bits c.value 63 60 = 1) ∧ (s.dev.groupRec (bits c.value 59 54) = some k) ∧ ((s.dev.grpAt (bits c.value 59 54)).running = true) ∧ (s.dev.tmu.unknown = false) ∧ (s.dev.sameGang c.partition (gPtn ((s.dev.grpAt (bits c.value 59 54)).recOf ((s.dev.grpAt (bits c.value 59 54)).whole (bits c.value 47 0)) (Tab.get [] s.dev.flow.tpl k))) = true) ∧ ((s.dev.grpAt (bits c.value 59 54)).anyClosed = true) ∧ (((s.dev.grpAt (bits c.value 59 54)).whole (bits c.value 47 0)) ≤ (s.dev.grpAt (bits c.value 59 54)).lastClosed)) ∧
    (∃ (s : Machine.State) (c : CatRec) (rest : List CatRec) (k : Nat), (s.dev.alive = true) ∧ (s.dev.cat.fwd = c :: rest) ∧ (1 ≤ bits c.value 63 60) ∧ (bits c.value 63 60 ≤ 3) ∧ (s.dev.groupRec (bits c.value 59 54) = some k) ∧ ((s.dev.grpAt (bits c.value 59 54)).running = false ∨ s.dev.tmu.unknown = true ∨ (s.dev.grpAt (bits c.value 59 54)).anyClosed = false ∨ (s.dev.grpAt (bits c.value 59 54)).lastClosed < ((s.dev.grpAt (bits c.value 59 54)).whole (bits c.value 47 0)))) ∧
    (∃ (s : Machine.State) (c : CatRec) (rest : List CatRec) (k : Nat), (s.dev.alive = true) ∧ (s.dev.cat.fwd = c :: rest) ∧ (bits c.value 63 60 = 2) ∧ (s.dev.groupRec (bits c.value 59 54) = some k) ∧ ((s.dev.grpAt (bits c.value 59 54)).running = true) ∧ (s.dev.tmu.unknown = false) ∧ (s.dev.sameGang c.partition (gPtn ((s.dev.grpAt (bits c.value 59 54)).recOf ((s.dev.grpAt (bits c.value 59 54)).whole (bits c.value 47 0)) (Tab.get [] s.dev.flow.tpl k))) = true) ∧ ((s.dev.grpAt (bits c.value 59 54)).anyClosed = true) ∧ (((s.dev.grpAt (bits c.value 59 54)).whole (bits c.value 47 0)) ≤ (s.dev.grpAt (bits c.value 59 54)).lastClosed) ∧ (Tab.get none (s.dev.grpAt (bits c.value 59 54)).held (((s.dev.grpAt (bits c.value 59 54)).whole (bits c.value 47 0)) % gNbuf ((s.dev.grpAt (bits c.value 59 54)).recOf ((s.dev.grpAt (bits c.value 59 54)).whole (bits c.value 47 0)) (Tab.get [] s.dev.flow.tpl k))) = some ((s.dev.grpAt (bits c.value 59 54)).whole (bits c.value 47 0)))) ∧
    (∃ (s : Machine.State) (g : Fin 64) (ecc : Ecc) (n : Nat) (rest : List Nat) (k : Nat), (s.dev.alive = true) ∧ ((s.dev.grpAt g).results = n :: rest) ∧ (s.dev.groupRec g = some k)) ∧
    (∃ (s : Machine.State) (g : Fin 64) (m : Nat) (rest : List Nat) (k : Nat), (s.dev.alive = true) ∧ ((s.dev.grpAt g).deadlines = m :: rest) ∧ (s.dev.groupRec g = some k)) ∧
    (∃ (s : Machine.State) (p : Fin 32), s.dev.alive = true) :=
  ⟨⟨{ dev := { alive := true, tmu := { unknown := false, cnt := 4000000000 }, flow := { tpl := [(6, (leBytes 8 (2 ^ 63) ++ leBytes 1 1 ++ leBytes 1 5 ++ leBytes 1 3 ++ leBytes 1 0 ++ leBytes 2 50 ++ leBytes 1 1 ++ leBytes 1 4 ++ leBytes 4 0 ++ leBytes 4 2 ++ leBytes 12 0 ++ leBytes 1 2 ++ leBytes 1 1 ++ leBytes 12 0 ++ leBytes 1 2 ++ leBytes 1 1 ++ leBytes 76 0))], grp := [(5, { running := true, tpl := 6, anyClosed := true, lastClosed := 50 })] }, ptn := { ptn := [(3, { ent := { valid := true, gang := 3 } })] }, cat := { fwd := [{ value := 2 ^ 60 + 5 * 2 ^ 54 + 50, source := 3, partition := 3, kind := 0, detail := 0 }] } } }, { value := 2 ^ 60 + 5 * 2 ^ 54 + 50, source := 3, partition := 3, kind := 0, detail := 0 }, [], 6, by decide +kernel⟩,
   ⟨{ dev := { alive := true, tmu := { unknown := false, cnt := 4000000000 }, flow := { tpl := [(6, (leBytes 8 (2 ^ 63) ++ leBytes 1 1 ++ leBytes 1 5 ++ leBytes 1 3 ++ leBytes 1 0 ++ leBytes 2 50 ++ leBytes 1 1 ++ leBytes 1 4 ++ leBytes 4 0 ++ leBytes 4 2 ++ leBytes 12 0 ++ leBytes 1 2 ++ leBytes 1 1 ++ leBytes 12 0 ++ leBytes 1 2 ++ leBytes 1 1 ++ leBytes 76 0))], grp := [(5, { running := true, tpl := 6, anyClosed := true, lastClosed := 49 })] }, ptn := { ptn := [(3, { ent := { valid := true, gang := 3 } })] }, cat := { fwd := [{ value := 2 ^ 60 + 5 * 2 ^ 54 + 50, source := 3, partition := 3, kind := 0, detail := 0 }] } } }, { value := 2 ^ 60 + 5 * 2 ^ 54 + 50, source := 3, partition := 3, kind := 0, detail := 0 }, [], 6, by decide +kernel⟩,
   ⟨{ dev := { alive := true, tmu := { unknown := false, cnt := 4000000000 }, flow := { tpl := [(6, (leBytes 8 (2 ^ 63) ++ leBytes 1 1 ++ leBytes 1 5 ++ leBytes 1 3 ++ leBytes 1 0 ++ leBytes 2 50 ++ leBytes 1 1 ++ leBytes 1 4 ++ leBytes 4 0 ++ leBytes 4 2 ++ leBytes 12 0 ++ leBytes 1 2 ++ leBytes 1 1 ++ leBytes 12 0 ++ leBytes 1 2 ++ leBytes 1 1 ++ leBytes 76 0))], grp := [(5, { running := true, tpl := 6, anyClosed := true, lastClosed := 50, held := [(0, some 50), (1, some 50), (2, some 50), (3, some 50)] })] }, ptn := { ptn := [(3, { ent := { valid := true, gang := 3 } })] }, cat := { fwd := [{ value := 2 ^ 61 + 5 * 2 ^ 54 + 50, source := 3, partition := 3, kind := 0, detail := 0 }] } } }, { value := 2 ^ 61 + 5 * 2 ^ 54 + 50, source := 3, partition := 3, kind := 0, detail := 0 }, [], 6, by decide +kernel⟩,
   ⟨{ dev := { alive := true, tmu := { unknown := false, cnt := 4000000000 }, flow := { tpl := [(6, (leBytes 8 (2 ^ 63) ++ leBytes 1 1 ++ leBytes 1 5 ++ leBytes 1 3 ++ leBytes 1 0 ++ leBytes 2 50 ++ leBytes 1 1 ++ leBytes 1 4 ++ leBytes 4 0 ++ leBytes 4 2 ++ leBytes 12 0 ++ leBytes 1 2 ++ leBytes 1 1 ++ leBytes 12 0 ++ leBytes 1 2 ++ leBytes 1 1 ++ leBytes 76 0))], grp := [(5, { running := true, tpl := 6, results := [50] })] } } }, 5, .none, 50, [], 6, by decide +kernel⟩,
   ⟨{ dev := { alive := true, tmu := { unknown := false, cnt := 4000000000 }, flow := { tpl := [(6, (leBytes 8 (2 ^ 63) ++ leBytes 1 1 ++ leBytes 1 5 ++ leBytes 1 3 ++ leBytes 1 0 ++ leBytes 2 50 ++ leBytes 1 1 ++ leBytes 1 4 ++ leBytes 4 0 ++ leBytes 4 2 ++ leBytes 12 0 ++ leBytes 1 2 ++ leBytes 1 1 ++ leBytes 12 0 ++ leBytes 1 2 ++ leBytes 1 1 ++ leBytes 76 0))], grp := [(5, { running := true, tpl := 6, deadlines := [50, 51] })] } } }, 5, 50, [51], 6, by decide +kernel⟩,
   ⟨{ dev := { alive := true, tmu := { unknown := false, cnt := 4000000000 }, flow := { tpl := [(6, (leBytes 8 (2 ^ 63) ++ leBytes 1 1 ++ leBytes 1 5 ++ leBytes 1 3 ++ leBytes 1 0 ++ leBytes 2 50 ++ leBytes 1 1 ++ leBytes 1 4 ++ leBytes 4 0 ++ leBytes 4 2 ++ leBytes 12 0 ++ leBytes 1 2 ++ leBytes 1 1 ++ leBytes 12 0 ++ leBytes 1 2 ++ leBytes 1 1 ++ leBytes 76 0))], grp := [(5, { running := true, tpl := 6 })] }, ptn := { staleReports := [3, 4] } } }, 3, by decide +kernel⟩⟩

theorem witness_CatcherRecordsAndRings :
    (∃ (s : Machine.State) (r : CatRec), (s.dev.alive = true) ∧ (Tab.get [] s.dev.cat.fifo r.source).length < 8 ∧ (Tab.get [] s.dev.cat.hold r.source = [])) ∧
    (∃ (s : Machine.State) (k : Nat) (r : CatRec) (rest : List CatRec), (s.dev.alive = true) ∧ (s.dev.cat.pick = some k) ∧ (Tab.get [] s.dev.cat.fifo k = r :: rest) ∧ (Tab.get [] s.dev.cat.hold k = []) ∧ (Tab.get 0 s.dev.cat.head (if r.partition < 32 then r.partition else 32) + 256 - Tab.get 0 s.dev.cat.tail (if r.partition < 32 then r.partition else 32)) % 256 ≠ 128) ∧
    (∃ (s : Machine.State) (p : Fin 32) (v : Word), (s.dev.alive = true) ∧ (s.dev.reqOpen (.vf p) = true) ∧ (v.toNat % 256 + 256 - Tab.get 0 s.dev.cat.tail p) % 256 ≤ (Tab.get 0 s.dev.cat.head p + 256 - Tab.get 0 s.dev.cat.tail p) % 256) ∧
    (∃ (s : Machine.State) (c : Fin 12) (p : Fin 33) (v : Word), (s.dev.alive = true) ∧ (s.dev.mayWrite (.fw c) (catBase + 0x404 + 0x10 * p) = true) ∧ ((v.toNat % 256 + 256 - Tab.get 0 s.dev.cat.tail p) % 256 ≤ (Tab.get 0 s.dev.cat.head p + 256 - Tab.get 0 s.dev.cat.tail p) % 256)) ∧
    (∃ (s : Machine.State) (v : Word), (s.dev.alive = true) ∧ (s.dev.reqOpen .pf = true) ∧ ((v.toNat % 256 + 256 - Tab.get 0 s.dev.cat.tail 32) % 256 ≤ (Tab.get 0 s.dev.cat.head 32 + 256 - Tab.get 0 s.dev.cat.tail 32) % 256)) ∧
    (∃ (s : Machine.State) (p : Fin 32) (v : Word), (s.dev.alive = true) ∧ (s.dev.reqOpen (.vf p) = true) ∧ ((Tab.get 0 s.dev.cat.head p + 256 - Tab.get 0 s.dev.cat.tail p) % 256 < (v.toNat % 256 + 256 - Tab.get 0 s.dev.cat.tail p) % 256)) :=
  ⟨⟨{ dev := { alive := true } }, { source := 9, value := 4 }, by decide +kernel⟩,
   ⟨{ dev := { alive := true, cat := { fifo := [(9, [{ source := 9, value := 4, partition := 31 }])], head := [(31, 255)], tail := [(31, 200)], ptr := 35 } } }, 9, { source := 9, value := 4, partition := 31 }, [], by decide +kernel⟩,
   ⟨{ dev := { alive := true, host := { linkUp := true, mse := [(32, true)], vfEnable := true, numVfs := 32 }, cat := { head := [(31, 255)], tail := [(31, 200)] } } }, 31, 255, by decide +kernel⟩,
   ⟨{ dev := { alive := true, regs := [(4, 2)], fw := { image := some {}, prot := { table := [{ comp := 9, base := catBase + 0x404 + 0x10 * 31, len := 4 }] } }, cat := { head := [(31, 255)], tail := [(31, 200)] } } }, 9, 31, 255, by decide +kernel⟩,
   ⟨{ dev := { alive := true, host := { linkUp := true, mse := [(0, true)] }, cat := { head := [(32, 255)], tail := [(32, 200)] } } }, 255, by decide +kernel⟩,
   ⟨{ dev := { alive := true, host := { linkUp := true, mse := [(32, true)], vfEnable := true, numVfs := 32 }, cat := { head := [(31, 254)], tail := [(31, 200)] } } }, 31, 255, by decide +kernel⟩⟩

theorem witness_QueuesAndLocksActThroughRegisters :
    (∃ (s : Machine.State) (n : Fin 64) (en : Bool) (owner depth hiwater : Nat), (s.dev.alive = true) ∧ (s.dev.fwReady = true) ∧ (s.dev.helds = false) ∧ owner < 63) ∧
    (∃ (s : Machine.State) (who : Req) (n : Fin 64) (level : Nat), (s.dev.alive = true) ∧ (s.dev.mayWrite who (pqBase + 0x100 * n + 0x14) = true) ∧ (s.dev.pqMayPush who n = true) ∧ ((s.dev.pqAt n).ents.length < (s.dev.pqAt n).cap)) ∧
    (∃ (s : Machine.State) (who : Req) (n : Fin 64) (e : PqEntry) (y : Pq), (s.dev.alive = true) ∧ (s.dev.reqOpen who = true) ∧ (s.dev.pqMayPop who n = true) ∧ ((s.dev.pqAt n).waiters = []) ∧ ({ s.dev.pqAt n with popPtr := (who.port + 1) % 84 } : Pq).pop = some (e, y)) ∧
    (∃ (s : Machine.State) (n : Fin 64) (c : Nat) (ws : List Nat) (e : PqEntry) (y : Pq), (s.dev.alive = true) ∧ ((s.dev.pqAt n).waiters = c :: ws) ∧ c < 32 ∧ ((s.dev.pqAt n).pop = some (e, y))) ∧
    (∃ (s : Machine.State) (who : Req) (n : Fin 256), (s.dev.alive = true) ∧ (s.dev.reqOpen who = true) ∧ ((s.dev.lckAt n).held = false)) ∧
    (∃ (s : Machine.State) (who : Req) (n : Fin 256), (s.dev.alive = true) ∧ (s.dev.mayWrite who (lckBase + 4 * n) = true) ∧ ((s.dev.lckAt n).held = true) ∧ ((s.dev.lckAt n).owner = who.owner)) ∧
    (∃ (s : Machine.State) (c : Fin 12) (n : Fin 256), (s.dev.alive = true) ∧ (s.dev.mayWrite (.fw c) (lckBase + 0x800) = true) ∧ ((s.dev.lckAt n).held = true)) ∧
    (∃ (s : Machine.State) (who : Req) (n : Fin 64) (level : Nat), (s.dev.alive = true) ∧ (s.dev.mayWrite who (pqBase + 0x100 * n + 0x14) = true) ∧ (s.dev.pqMayPush who n = true) ∧ ((s.dev.pqAt n).cap ≤ (s.dev.pqAt n).ents.length)) ∧
    (∃ (s : Machine.State) (n : Fin 64) (ws : List Nat) (e : PqEntry) (y : Pq), (s.dev.alive = true) ∧ ((s.dev.pqAt n).waiters = 65 :: ws) ∧ (s.dev.stgRoom (s.dev.pqAt n).owner = true) ∧ (s.dev.pqAt n).pop = some (e, y)) ∧
    (∃ (s : Machine.State) (who : Req) (n : Fin 256), (s.dev.alive = true) ∧ (s.dev.reqOpen who = true) ∧ ((s.dev.lckAt n).held = true)) :=
  ⟨⟨{ dev := { alive := true, regs := [(glbBase + 4, 2)], pq := [(63, { ents := [{ level := 1, data := [] }] })] } }, 63, true, 48, 6, 100, by decide +kernel⟩,
   ⟨{ dev := { alive := true, regs := [(4, 2)], fw := { image := some {}, prot := { table := [{ comp := 3, base := pqBase + 0x3F14, len := 4 }] } }, pq := [(63, { en := true, owner := 48 })] } }, .fw 3, 63, 7, by decide +kernel⟩,
   ⟨{ dev := { alive := true, regs := [(4, 2)], fw := { image := some {} }, pq := [(63, { en := true, owner := 48, ents := [{ level := 2, data := [7] }, { level := 5, data := [8] }] })] } }, .fw 3, 63, { level := 5, data := [8] }, { en := true, owner := 48, ents := [{ level := 2, data := [7] }], popPtr := 71 }, by decide +kernel⟩,
   ⟨{ dev := { alive := true, pq := [(63, { en := true, ents := [{ level := 5, data := [8] }], waiters := [3] })], core := [(3, { st := .wait, waiting := some (.queue 63 0) })] } }, 63, 3, [], { level := 5, data := [8] }, { en := true, waiters := [3] }, by decide +kernel⟩,
   ⟨{ dev := { alive := true, regs := [(4, 2)], fw := { image := some {} }, lck := [(255, { broken := true })] } }, .fw 3, 255, by decide +kernel⟩,
   ⟨{ dev := { alive := true, regs := [(4, 2)], fw := { image := some {}, prot := { table := [{ comp := 3, base := lckBase + 0x3FC, len := 4 }] } }, lck := [(255, { held := true, owner := 35 })] } }, .fw 3, 255, by decide +kernel⟩,
   ⟨{ dev := { alive := true, regs := [(4, 2)], fw := { image := some {}, prot := { table := [{ comp := 3, base := lckBase + 0x800, len := 4 }] } }, lck := [(255, { held := true, owner := 35 })] } }, 3, 255, by decide +kernel⟩,
   ⟨{ dev := { alive := true, regs := [(4, 2)], fw := { image := some {}, prot := { table := [{ comp := 3, base := pqBase + 0x3F14, len := 4 }] } }, pq := [(63, { en := true, owner := 48, ents := List.replicate 16 { level := 1, data := [] } })] } }, .fw 3, 63, 7, by decide +kernel⟩,
   ⟨{ dev := { alive := true, pq := [(63, { en := true, owner := 3, ents := [{ level := 5, data := [8] }], waiters := [65, 3] })] } }, 63, [3], { level := 5, data := [8] }, { en := true, owner := 3, waiters := [65, 3] }, by decide +kernel⟩,
   ⟨{ dev := { alive := true, sec := { debug := true }, lck := [(255, { held := true, owner := 3 })] } }, .debug, 255, by decide +kernel⟩⟩

theorem witness_TheSequencerRuns :
    (∃ (s : Machine.State) (c : Fin 32) (desc : Nat) (ecc : Ecc), (s.dev.alive = true) ∧ (s.dev.fetches c 9 desc = true) ∧ (bits desc 511 64 = 0) ∧ (s.dev.pc c + 128 ≤ csSize) ∧ (ecc ≠ .uncFetch)) ∧
    (∃ (s : Machine.State) (c : Fin 32) (desc : Nat) (ecc : Ecc), (s.dev.alive = true) ∧ (s.dev.fetches c 10 desc = true) ∧ (bits desc 511 64 = 0) ∧ ((s.dev.coreAt c).quiet = true) ∧ (ecc ≠ .uncFetch)) ∧
    (∃ (s : Machine.State) (c : Fin 32) (desc : Nat) (ecc : Ecc), (s.dev.alive = true) ∧ (s.dev.fetches c 8 desc = true) ∧ (bits desc 477 64 = 0) ∧ (bits desc 511 496 ≠ 0) ∧ ((s.dev.coreAt c).ctr.getD (bits desc 479 478) 0 + 1 < bits desc 511 496) ∧ (0 ≤ (s.dev.pc c : Int) + 64 * sext 16 (bits desc 495 480)) ∧ ((s.dev.pc c : Int) + 64 * sext 16 (bits desc 495 480) + 64 ≤ csSize) ∧ (ecc ≠ .uncFetch)) ∧
    (∃ (s : Machine.State) (c : Fin 32) (desc : Nat) (ecc : Ecc), (s.dev.alive = true) ∧ (s.dev.fetches c 8 desc = true) ∧ (bits desc 477 64 = 0) ∧ (bits desc 511 496 ≠ 0) ∧ (bits desc 511 496 ≤ (s.dev.coreAt c).ctr.getD (bits desc 479 478) 0 + 1) ∧ (s.dev.pc c + 128 ≤ csSize) ∧ (ecc ≠ .uncFetch)) ∧
    (∃ (s : Machine.State) (c : Fin 32) (desc : Nat) (ecc : Ecc), (s.dev.alive = true) ∧ (s.dev.fetches c 2 desc = true) ∧ (bits desc 89 66 = 0) ∧ (walkErrs desc s.dev = []) ∧ ((s.dev.coreAt c).usesWalk (bits desc 65 64) = false) ∧ (s.dev.pc c + 128 ≤ csSize) ∧ (ecc ≠ .uncFetch)) ∧
    (∃ (s : Machine.State) (c : Fin 32) (desc : Nat) (ecc : Ecc), (s.dev.alive = true) ∧ (s.dev.fetches c 3 desc = true) ∧ (bits desc 405 66 = 0) ∧ (linkErrs desc s.dev = []) ∧ ((s.dev.coreAt c).usesLink (bits desc 65 64) = false) ∧ (Tab.get none (s.dev.coreAt c).links (bits desc 65 64) = none) ∧ (s.dev.pc c + 128 ≤ csSize) ∧ (ecc ≠ .uncFetch)) ∧
    (∃ (s : Machine.State) (c : Fin 32) (k : Fin 4) (l : LinkCtx), (s.dev.alive = true) ∧ (Tab.get none (s.dev.coreAt c).links k = some l) ∧ (l.ready = false) ∧ (l.cap = 0)) ∧
    (∃ (s : Machine.State) (c : Fin 32), (s.dev.alive = true) ∧ ((s.dev.coreAt c).st = .run) ∧ ((s.dev.coreAt c).cur = none) ∧ (s.dev.pc c + 64 ≤ csSize)) ∧
    (∃ (s : Machine.State) (c : Fin 32) (desc : Nat), (s.dev.alive = true) ∧ ((s.dev.coreAt c).st = .run) ∧ ((s.dev.coreAt c).cur = none) ∧ (s.dev.pc c + 64 ≤ csSize) ∧ (s.dev.csNat c (s.dev.pc c) 64 = desc) ∧ (bits desc 7 0 = 0 ∨ 10 < bits desc 7 0)) :=
  ⟨⟨{ dev := { alive := true, regs := [], core := [(3, { st := .run })], mem := { cs := Tab.setList 0 [] (3 * 2 ^ 25) (leBytes 64 (9 + 5 * 2 ^ 48)) } } }, 3, 9 + 5 * 2 ^ 48, .corrected, by decide +kernel⟩,
   ⟨{ dev := { alive := true, regs := [], core := [(3, { st := .run })], mem := { cs := Tab.setList 0 [] (3 * 2 ^ 25) (leBytes 64 (10)) } } }, 3, 10, .corrected, by decide +kernel⟩,
   ⟨{ dev := { alive := true, regs := [], core := [(3, { st := .run })], mem := { cs := Tab.setList 0 [] (3 * 2 ^ 25) (leBytes 64 (8 + 4 * 2 ^ 480 + 3 * 2 ^ 496)) } } }, 3, 8 + 4 * 2 ^ 480 + 3 * 2 ^ 496, .corrected, by decide +kernel⟩,
   ⟨{ dev := { alive := true, regs := [], core := [(3, { st := .run, ctr := [2, 0, 0, 0] })], mem := { cs := Tab.setList 0 [] (3 * 2 ^ 25) (leBytes 64 (8 + 4 * 2 ^ 480 + 3 * 2 ^ 496)) } } }, 3, 8 + 4 * 2 ^ 480 + 3 * 2 ^ 496, .corrected, by decide +kernel⟩,
   ⟨{ dev := { alive := true, regs := [], core := [(3, { st := .run })], mem := { cs := Tab.setList 0 [] (3 * 2 ^ 25) (leBytes 64 (204586912993508869715038122831439402623842448834689020753338571587447022005519556854547885352054304827961691487059186457252414279842929693804157992962)) } } }, 3, 204586912993508869715038122831439402623842448834689020753338571587447022005519556854547885352054304827961691487059186457252414279842929693804157992962, .corrected, by decide +kernel⟩,
   ⟨{ dev := { alive := true, regs := [], core := [(3, { st := .run })], mem := { cs := Tab.setList 0 [] (3 * 2 ^ 25) (leBytes 64 (51146731296959788226141849992229357114615355169962782271565430904559418711042978846462453648772934946447774275924385799723217763760448551335218905091)) } } }, 3, 51146731296959788226141849992229357114615355169962782271565430904559418711042978846462453648772934946447774275924385799723217763760448551335218905091, .corrected, by decide +kernel⟩,
   ⟨{ dev := { alive := true, regs := [], core := [(3, { st := .run, links := [(2, some { code := 1, n := 4, c := 1, g := 16, cap := 0, pbase := 128, gbase := 256 })] })] } }, 3, 2, { code := 1, n := 4, c := 1, g := 16, cap := 0, pbase := 128, gbase := 256 }, by decide +kernel⟩,
   ⟨{ dev := { alive := true, core := [(3, { st := .run })] } }, 3, by decide +kernel⟩,
   ⟨{ dev := { alive := true, core := [(3, { st := .run })] } }, 3, 0, by decide +kernel⟩⟩

theorem witness_MovesQueuesAndSignalsRun :
    (∃ (s : Machine.State) (c : Fin 32) (desc : Nat) (ecc : Ecc), (s.dev.alive = true) ∧ (s.dev.fetches c 4 desc = true) ∧ (bits desc 379 64 = 0) ∧ (moveErrs c desc s.dev = []) ∧ (mvConv desc = 0) ∧ ((s.dev.coreAt c).moves = []) ∧ (s.dev.pc c + 128 ≤ csSize) ∧ (ecc.unc = false)) ∧
    (∃ (s : Machine.State) (c : Fin 32) (m : MoveRun), (s.dev.alive = true) ∧ ((s.dev.coreAt c).moves = [m]) ∧ (m.started = true) ∧ ((s.dev.coreAt c).st ≠ .saved) ∧ ((s.dev.coreAt c).st ≠ .faulted) ∧ (mvConv m.desc = 0)) ∧
    (∃ (s : Machine.State) (c : Fin 32) (m : MoveRun) (l : LinkCtx), (s.dev.alive = true) ∧ ((s.dev.coreAt c).moves = [m]) ∧ (m.started = true) ∧ ((s.dev.coreAt c).st ≠ .saved) ∧ ((s.dev.coreAt c).st ≠ .faulted) ∧ (mvConv m.desc ≠ 0) ∧ ((s.dev.coreAt c).mvLink m.desc = some l)) ∧
    (∃ (s : Machine.State) (c : Fin 32) (desc : Nat) (e : PqEntry) (y : Pq) (ecc : Ecc), (s.dev.alive = true) ∧ (s.dev.fetches c 5 desc = true) ∧ (bits desc 423 64 = 0) ∧ (waitqErrs c desc s.dev = []) ∧ ((s.dev.pqAt (bits desc 429 424)).waiters = []) ∧ ({ s.dev.pqAt (bits desc 429 424) with popPtr := (c.val + 1) % 84 } : Pq).pop = some (e, y) ∧ (s.dev.pc c + 128 ≤ csSize) ∧ (ecc ≠ .uncFetch)) ∧
    (∃ (s : Machine.State) (c : Fin 32) (desc : Nat) (ecc : Ecc), (s.dev.alive = true) ∧ (s.dev.fetches c 5 desc = true) ∧ (bits desc 423 64 = 0) ∧ (waitqErrs c desc s.dev = []) ∧ ((s.dev.pqAt (bits desc 429 424)).ents = []) ∧ (ecc ≠ .uncFetch)) ∧
    (∃ (s : Machine.State) (c : Fin 32) (k at_ : Nat), (s.dev.alive = true) ∧ (s.dev.coreAt c).waiting = some (.queue k at_) ∧ (bits (s.dev.curDesc c) 461 430 ≠ 0) ∧ (s.dev.pc c + 64 ≤ csSize)) ∧
    (∃ (s : Machine.State) (c : Fin 32) (desc : Nat) (ecc : Ecc), (s.dev.alive = true) ∧ (s.dev.fetches c 6 desc = true) ∧ (bits desc 411 64 = 0) ∧ (signalErrs c desc s.dev = []) ∧ ((s.dev.coreAt c).quiet = true) ∧ (bit desc 413 = true) ∧ (bit desc 412 = false) ∧ ((s.dev.pqAt (bits desc 422 417)).ents.length < (s.dev.pqAt (bits desc 422 417)).cap) ∧ (s.dev.pc c + 128 ≤ csSize) ∧ (ecc ≠ .uncFetch)) ∧
    (∃ (s : Machine.State) (c : Fin 32) (desc : Nat) (ecc : Ecc), (s.dev.alive = true) ∧ (s.dev.fetches c 6 desc = true) ∧ (bits desc 411 64 = 0) ∧ ((s.dev.coreAt c).quiet = true) ∧ (bit desc 413 = false) ∧ (bit desc 412 = true) ∧ (bit desc 11 = false) ∧ ((Tab.get [] s.dev.cat.fifo c).length < 8) ∧ (Tab.get [] s.dev.cat.hold c = []) ∧ (s.dev.pc c + 128 ≤ csSize) ∧ (ecc ≠ .uncFetch)) :=
  ⟨⟨{ dev := { alive := true, regs := [], core := [(3, { st := .run })], mem := { cs := Tab.setList 0 [] (3 * 2 ^ 25) (leBytes 64 (4 + 64 * 2 ^ 400 + 128 * 2 ^ 432)) } } }, 3, 4 + 64 * 2 ^ 400 + 128 * 2 ^ 432, .corData, by decide +kernel⟩,
   ⟨{ dev := { alive := true, regs := [], core := [(3, { st := .run, moves := [{ desc := 4 + 64 * 2 ^ 400 + 128 * 2 ^ 432, pc := 0, started := true }] })], mem := { cs := Tab.setList 0 [] (3 * 2 ^ 25) (leBytes 64 (4 + 64 * 2 ^ 400 + 128 * 2 ^ 432)) } } }, 3, { desc := 4 + 64 * 2 ^ 400 + 128 * 2 ^ 432, pc := 0, started := true }, by decide +kernel⟩,
   ⟨{ dev := { alive := true, regs := [], core := [(3, { st := .run, links := [(0, some { code := 0, n := 4, c := 1, g := 16, cap := 0, pbase := 128, gbase := 256, ready := true })], moves := [{ desc := 4 + 1 * 2 ^ 384 + 128 * 2 ^ 432, pc := 0, started := true }] })] } }, 3, { desc := 4 + 1 * 2 ^ 384 + 128 * 2 ^ 432, pc := 0, started := true }, { code := 0, n := 4, c := 1, g := 16, cap := 0, pbase := 128, gbase := 256, ready := true }, by decide +kernel⟩,
   ⟨{ dev := { alive := true, regs := [], core := [(3, { st := .run })], mem := { cs := Tab.setList 0 [] (3 * 2 ^ 25) (leBytes 64 (5 + 9 * 2 ^ 424 + 128 * 2 ^ 487 + 256 * 2 ^ 462)) }, ptn := { ptn := [(1, { ent := { valid := true, cores := 8 } })] }, pq := [(9, { en := true, owner := 1, ents := [{ level := 5, data := [8] }] })] } }, 3, 5 + 9 * 2 ^ 424 + 128 * 2 ^ 487 + 256 * 2 ^ 462, { level := 5, data := [8] }, { en := true, owner := 1, popPtr := 4 }, .corrected, by decide +kernel⟩,
   ⟨{ dev := { alive := true, regs := [], core := [(3, { st := .run })], mem := { cs := Tab.setList 0 [] (3 * 2 ^ 25) (leBytes 64 (5 + 9 * 2 ^ 424 + 128 * 2 ^ 487 + 256 * 2 ^ 462)) }, ptn := { ptn := [(1, { ent := { valid := true, cores := 8 } })] }, pq := [(9, { en := true, owner := 1 })] } }, 3, 5 + 9 * 2 ^ 424 + 128 * 2 ^ 487 + 256 * 2 ^ 462, .corrected, by decide +kernel⟩,
   ⟨{ dev := { alive := true, regs := [(tenReg 3 0x0C, 64)], core := [(3, { st := .wait, waiting := some (.queue 9 7), cur := some (0, 5 + 9 * 2 ^ 424 + 128 * 2 ^ 487 + 256 * 2 ^ 462 + 2 ^ 430) })], pq := [(9, { en := true, owner := 1, waiters := [3, 4] })] } }, 3, 9, 7, by decide +kernel⟩,
   ⟨{ dev := { alive := true, regs := [], core := [(3, { st := .run })], mem := { cs := Tab.setList 0 [] (3 * 2 ^ 25) (leBytes 64 (6 + 9 * 2 ^ 417 + 3 * 2 ^ 414 + 2 ^ 413)) }, ptn := { ptn := [(1, { ent := { valid := true, cores := 8 } })] }, pq := [(9, { en := true, owner := 1 })] } }, 3, 6 + 9 * 2 ^ 417 + 3 * 2 ^ 414 + 2 ^ 413, .corrected, by decide +kernel⟩,
   ⟨{ dev := { alive := true, regs := [], core := [(3, { st := .run })], mem := { cs := Tab.setList 0 [] (3 * 2 ^ 25) (leBytes 64 (6 + 2 ^ 412 + 7 * 2 ^ 448)) } } }, 3, 6 + 2 ^ 412 + 7 * 2 ^ 448, .corrected, by decide +kernel⟩⟩

theorem witness_LockDescriptorsAcquireAndWait :
    (∃ (s : Machine.State) (c : Fin 32) (desc : Nat) (ecc : Ecc), (s.dev.alive = true) ∧ (s.dev.fetches c 7 desc = true) ∧ (bits desc 445 64 = 0) ∧ (lockErrs c desc s.dev = []) ∧ (bit desc 446 = false) ∧ ((s.dev.lckAt (bits desc 454 447)).held = false) ∧ (s.dev.pc c + 128 ≤ csSize) ∧ (ecc ≠ .uncFetch)) ∧
    (∃ (s : Machine.State) (c : Fin 32) (desc : Nat) (ecc : Ecc), (s.dev.alive = true) ∧ (s.dev.fetches c 7 desc = true) ∧ (bits desc 445 64 = 0) ∧ (lockErrs c desc s.dev = []) ∧ (bit desc 446 = true) ∧ ((s.dev.lckAt (bits desc 454 447)).held = true) ∧ ((s.dev.lckAt (bits desc 454 447)).owner = s.dev.corePtn c) ∧ (s.dev.pc c + 128 ≤ csSize) ∧ (ecc ≠ .uncFetch)) ∧
    (∃ (s : Machine.State) (c : Fin 32) (k at_ : Nat), (s.dev.alive = true) ∧ (s.dev.coreAt c).waiting = some (.lock k at_) ∧ ((s.dev.lckAt k).held = false) ∧ (s.dev.pc c + 64 ≤ csSize)) ∧
    (∃ (s : Machine.State) (c : Fin 32) (k at_ : Nat), (s.dev.alive = true) ∧ (s.dev.coreAt c).waiting = some (.lock k at_) ∧ ((s.dev.lckAt k).held = true) ∧ ((s.dev.lckAt k).owner ≠ s.dev.corePtn c)) ∧
    (∃ (s : Machine.State) (c : Fin 32) (k at_ : Nat), (s.dev.alive = true) ∧ (s.dev.coreAt c).waiting = some (.lock k at_) ∧ (bits (s.dev.curDesc c) 486 455 ≠ 0) ∧ ((s.dev.lckAt k).held = true) ∧ ((s.dev.lckAt k).owner ≠ s.dev.corePtn c) ∧ (s.dev.pc c + 64 ≤ csSize)) :=
  ⟨⟨{ dev := { alive := true, regs := [], core := [(3, { st := .run })], mem := { cs := Tab.setList 0 [] (3 * 2 ^ 25) (leBytes 64 (7 + 9 * 2 ^ 447 + 128 * 2 ^ 487)) } } }, 3, 7 + 9 * 2 ^ 447 + 128 * 2 ^ 487, .corrected, by decide +kernel⟩,
   ⟨{ dev := { alive := true, regs := [], core := [(3, { st := .run, held := [9] })], mem := { cs := Tab.setList 0 [] (3 * 2 ^ 25) (leBytes 64 (7 + 2 ^ 446 + 9 * 2 ^ 447 + 128 * 2 ^ 487)) }, lck := [(9, { held := true, owner := 255 })] } }, 3, 7 + 2 ^ 446 + 9 * 2 ^ 447 + 128 * 2 ^ 487, .corrected, by decide +kernel⟩,
   ⟨{ dev := { alive := true, regs := [(tenReg 3 0x0C, 64)], core := [(3, { st := .wait, waiting := some (.lock 9 7), cur := some (0, 7 + 2 ^ 455) })] } }, 3, 9, 7, by decide +kernel⟩,
   ⟨{ dev := { alive := true, regs := [(tenReg 3 0x0C, 64)], core := [(3, { st := .wait, waiting := some (.lock 9 7), cur := some (0, 7 + 2 ^ 455) })], lck := [(9, { held := true, owner := 1 })] } }, 3, 9, 7, by decide +kernel⟩,
   ⟨{ dev := { alive := true, regs := [(tenReg 3 0x0C, 64)], core := [(3, { st := .wait, waiting := some (.lock 9 7), cur := some (0, 7 + 2 ^ 455) })], lck := [(9, { held := true, owner := 1 })] } }, 3, 9, 7, by decide +kernel⟩⟩

theorem witness_PassesRunAndRestart :
    (∃ (s : Machine.State) (c : Fin 32) (desc : Nat) (ecc : Ecc), (s.dev.alive = true) ∧ (s.dev.fetches c 1 desc = true) ∧ (bits desc 223 64 = 0) ∧ (passErrs c desc s.dev = []) ∧ ((s.dev.coreAt c).run = none) ∧ (passOfmt desc ≠ 3 ∨ (Tab.get none (s.dev.coreAt c).links (passLctx desc)).any (fun l => l.ready) = true) ∧ (passTiles desc = 0 ∨ (Tab.get none (s.dev.coreAt c).walks (passWalk desc)).isSome = true) ∧ (s.dev.pc c + 128 ≤ csSize) ∧ (ecc.unc = false)) ∧
    (∃ (s : Machine.State) (c : Fin 32) (desc : Nat) (p : PassRun) (ecc : Ecc), (s.dev.alive = true) ∧ (s.dev.fetches c 1 desc = true) ∧ (bits desc 223 64 = 0) ∧ (passErrs c desc s.dev = []) ∧ ((s.dev.coreAt c).run = some p) ∧ ((s.dev.coreAt c).pend = none) ∧ (passOfmt desc ≠ 3 ∨ (Tab.get none (s.dev.coreAt c).links (passLctx desc)).any (fun l => l.ready) = true) ∧ (s.dev.pc c + 128 ≤ csSize) ∧ (ecc.unc = false)) ∧
    (∃ (s : Machine.State) (c : Fin 32) (p : PassRun) (w : Walk) (ecc : Ecc), (s.dev.alive = true) ∧ ((s.dev.coreAt c).run = some p) ∧ ((s.dev.coreAt c).st.working = true) ∧ (p.started = true) ∧ (passRipple p.desc = false) ∧ (p.tile < passTiles p.desc) ∧ (Tab.get none (s.dev.coreAt c).walks (passWalk p.desc) = some w) ∧ (ecc.unc = false) ∧ ((((s.dev.fill c (passNamed p.desc)).eccNote c ecc).presentTile c p w).isOk = true)) ∧
    (∃ (s : Machine.State) (c : Fin 32) (p : PassRun) (w : Walk) (ecc : Ecc), (s.dev.alive = true) ∧ ((s.dev.coreAt c).run = some p) ∧ ((s.dev.coreAt c).st.working = true) ∧ (p.started = true) ∧ (passRipple p.desc = true) ∧ (p.tile < passTiles p.desc) ∧ (Tab.get none (s.dev.coreAt c).walks (passWalk p.desc) = some w) ∧ (ecc.unc = false) ∧ ((((s.dev.fill c (passNamed p.desc)).eccNote c ecc).presentTile c p w).isOk = true)) ∧
    (∃ (s : Machine.State) (c : Fin 32) (p : PassRun), (s.dev.alive = true) ∧ ((s.dev.coreAt c).run = some p) ∧ ((s.dev.coreAt c).st.working = true) ∧ (p.started = true) ∧ (p.tile = passTiles p.desc) ∧ ((s.dev.coreAt c).emit.any (fun e => (upTo 4).any (fun a => bit (passArrays e.desc) a && bit (passArrays p.desc) a)) = false)) ∧
    (∃ (s : Machine.State) (c : Fin 32) (p : PassRun) (rest : List PassRun) (d2 : Dev), (s.dev.alive = true) ∧ ((s.dev.coreAt c).emit = p :: rest) ∧ ((s.dev.coreAt c).st ≠ .saved) ∧ ((s.dev.coreAt c).st ≠ .faulted) ∧ ((s.dev.coreSet c { s.dev.coreAt c with emit := rest }).emitPass c p = .ok d2)) ∧
    (∃ (s : Machine.State) (c : Fin 32) (arr : Fin 4) (col : Fin 128) (ecc : Bool) (p : PassRun), (s.dev.alive = true) ∧ ((s.dev.coreAt c).run = some p) ∧ (p.started = true) ∧ (bit (passArrays p.desc) arr = true) ∧ (p.rerun = false)) ∧
    (∃ (s : Machine.State) (c : Fin 32) (arr : Fin 4) (col : Fin 128) (ecc : Bool) (p : PassRun), (s.dev.alive = true) ∧ ((s.dev.coreAt c).run = some p) ∧ (p.started = true) ∧ (bit (passArrays p.desc) arr = true) ∧ (p.rerun = true)) ∧
    (∃ (s : Machine.State) (c : Fin 32) (arr : Fin 4) (p : PassRun) (rest : List PassRun), (s.dev.alive = true) ∧ ((s.dev.coreAt c).emit = p :: rest) ∧ (bit (passArrays p.desc) arr = true) ∧ (bit p.redrain arr = false)) ∧
    (∃ (s : Machine.State) (k : Fin 4) (n : Nat), (s.dev.alive = true) ∧ (Tab.get 0 s.dev.pwr.tclkReq k = n) ∧ (n ≠ 0) ∧ (s.dev.dieLow k ≤ s.dev.kNow k)) :=
  ⟨⟨{ dev := { alive := true, regs := [(tenReg 3 0x28, 15)], core := [(3, { st := .run })], mem := { cs := Tab.setList 0 [] (3 * 2 ^ 25) (leBytes 64 (35835915874844867376689752057998025596342468931868941614313935756257409580278446286347976428482075820033)) } } }, 3, 35835915874844867376689752057998025596342468931868941614313935756257409580278446286347976428482075820033, .corrected, by decide +kernel⟩,
   ⟨{ dev := { alive := true, regs := [(tenReg 3 0x28, 15)], core := [(3, { st := .run, run := some { desc := 1, pc := 0, started := true } })], mem := { cs := Tab.setList 0 [] (3 * 2 ^ 25) (leBytes 64 (35835915874844867376689752057998025596342468931868941614313935756257409580278446286347976428482075820033)) } } }, 3, 35835915874844867376689752057998025596342468931868941614313935756257409580278446286347976428482075820033, { desc := 1, pc := 0, started := true }, .corrected, by decide +kernel⟩,
   ⟨{ dev := { alive := true, regs := [], core := [(3, { st := .run, run := some { desc := 926336714761247856737388353498847745610788058881513133836958991458620565094401, pc := 0, started := true, bank := [[]] }, walks := [(0, some { desc := 204586912993508869715038122831439402623842448834689020753338571587447022005519556854547885352054304827961691487059186457252414279842929693804157992962, i := [0, 0, 0, 0, 0] })] })] } }, 3, { desc := 926336714761247856737388353498847745610788058881513133836958991458620565094401, pc := 0, started := true, bank := [[]] }, { desc := 204586912993508869715038122831439402623842448834689020753338571587447022005519556854547885352054304827961691487059186457252414279842929693804157992962, i := [0, 0, 0, 0, 0] }, .corrected, by decide +kernel⟩,
   ⟨{ dev := { alive := true, regs := [], core := [(3, { st := .run, run := some { desc := 926336714815167750071689633088181775784827320228787422682040136420827785592833, pc := 0, started := true, bank := [[]] }, walks := [(0, some { desc := 204586912993508869715038122831439402623842448834689020753338571587447022005519556854547885352054304827961691487059186457252414279842929693804157992962, i := [0, 0, 0, 0, 0] })] })] } }, 3, { desc := 926336714815167750071689633088181775784827320228787422682040136420827785592833, pc := 0, started := true, bank := [[]] }, { desc := 204586912993508869715038122831439402623842448834689020753338571587447022005519556854547885352054304827961691487059186457252414279842929693804157992962, i := [0, 0, 0, 0, 0] }, .corrected, by decide +kernel⟩,
   ⟨{ dev := { alive := true, regs := [], core := [(3, { st := .run, run := some { desc := 1, pc := 0, started := true } })] } }, 3, { desc := 1, pc := 0, started := true }, by decide +kernel⟩,
   ⟨{ dev := { alive := true, regs := [], core := [(3, { st := .run, emit := [{ desc := 1, pc := 0, started := true }] })] } }, 3, { desc := 1, pc := 0, started := true }, [], { alive := true, regs := [], core := [(3, { st := .run })] }, by decide +kernel⟩,
   ⟨{ dev := { alive := true, regs := [], core := [(3, { st := .run, run := some { desc := 2 ^ 229, pc := 0, started := true } })] } }, 3, 2, 127, true, { desc := 2 ^ 229, pc := 0, started := true }, by decide +kernel⟩,
   ⟨{ dev := { alive := true, regs := [], core := [(3, { st := .run, run := some { desc := 2 ^ 229, pc := 0, started := true, rerun := true } })] } }, 3, 2, 127, false, { desc := 2 ^ 229, pc := 0, started := true, rerun := true }, by decide +kernel⟩,
   ⟨{ dev := { alive := true, regs := [], core := [(3, { st := .run, emit := [{ desc := 2 ^ 229, pc := 0 }] })] } }, 3, 2, { desc := 2 ^ 229, pc := 0 }, [], by decide +kernel⟩,
   ⟨{ dev := { alive := true, regs := [(pwrReg 0x68, 1500 + 2048 * 8)], pwr := { tclkReq := [(2, 9)] } } }, 2, 9, by decide +kernel⟩⟩

theorem witness_StagingAndScrubsAct :
    (∃ (s : Machine.State) (p : Fin 32) (n : Nat) (e : PqEntry) (y : Pq), (s.dev.alive = true) ∧ (s.dev.stgRoom p = true) ∧ (Tab.get none s.dev.store.stgHeld p = none) ∧ (s.dev.stgQueue p = some n) ∧ ((s.dev.pqAt n).waiters = []) ∧ (({ s.dev.pqAt n with popPtr := 66 } : Pq).pop = some (e, y)) ∧ (s.dev.store.stg.any (fun x => decide (x.ptn = (s.dev.stgPlan p e.data).ptn) && decide (x.lib = (s.dev.stgPlan p e.data).lib) && decide (x.slot = (s.dev.stgPlan p e.data).slot)) = false)) ∧
    (∃ (s : Machine.State) (p : Fin 32) (n : Nat), (s.dev.alive = true) ∧ (s.dev.stgRoom p = true) ∧ (Tab.get none s.dev.store.stgHeld p = none) ∧ (s.dev.stgQueue p = some n) ∧ ((s.dev.pqAt n).waiters = []) ∧ (({ s.dev.pqAt n with popPtr := 66 } : Pq).pop = none)) ∧
    (∃ (s : Machine.State) (i : Nat) (r : StgReq), (s.dev.alive = true) ∧ (s.dev.store.stg[i]? = some r) ∧ (r.status = 0)) ∧
    (∃ (s : Machine.State) (x : Scrub) (rest : List Scrub), (s.dev.alive = true) ∧ (s.dev.store.scrubs = x :: rest) ∧ (x.dest = none)) ∧
    (∃ (s : Machine.State) (x : Scrub) (rest : List Scrub) (p : Nat) (m : Bool), (s.dev.alive = true) ∧ (s.dev.store.scrubs = x :: rest) ∧ (x.dest = some (p, m))) :=
  ⟨⟨{ dev := { alive := true, regs := [(memReg 0x164, 0x9800000)], pq := [(9, { en := true, owner := 3, ents := [{ level := 1, data := leBytes 32 0 }] })] } }, 3, 9, { level := 1, data := leBytes 32 0 }, { en := true, owner := 3, popPtr := 66 }, by decide +kernel⟩,
   ⟨{ dev := { alive := true, regs := [(memReg 0x164, 0x9800000)], pq := [(9, { en := true, owner := 3 })] } }, 3, 9, by decide +kernel⟩,
   ⟨{ dev := { alive := true, store := { stg := [{ ptn := 3, expert := 0, slot := 0, lib := 0, reply := 0, tag := 0, dst := 128, data := [7, 8], readLen := 2 }] } } }, 0, { ptn := 3, expert := 0, slot := 0, lib := 0, reply := 0, tag := 0, dst := 128, data := [7, 8], readLen := 2 }, by decide +kernel⟩,
   ⟨{ dev := { alive := true, mem := { hbm := [(7, 9)] }, store := { scrubs := [{ stack := 0, base := 0, len := 1 }] } } }, { stack := 0, base := 0, len := 1 }, [], by decide +kernel⟩,
   ⟨{ dev := { alive := true, store := { scrubs := [{ stack := 2, base := 5, len := 1, dest := some (3, true) }] } } }, { stack := 2, base := 5, len := 1, dest := some (3, true) }, [], 3, true, by decide +kernel⟩⟩

theorem witness_InstallsRunAndCommit :
    (∃ (s : Machine.State) (i : Install) (bs : List Byte), (s.dev.alive = true) ∧ (s.dev.fwReady = true) ∧ (s.dev.helds = false) ∧ (s.dev.store.installs.any (fun x => decide (x.state = 1)) = false) ∧ (s.dev.store.installs.find? (fun x => decide (x.state = 0)) = some i)) ∧
    (∃ (s : Machine.State) (i : Install), (s.dev.alive = true) ∧ (s.dev.fwReady = true) ∧ (s.dev.helds = false) ∧ (s.dev.store.installs.any (fun x => decide (x.state = 1)) = false) ∧ (s.dev.store.installs.find? (fun x => decide (x.state = 0)) = some i)) ∧
    (∃ (s : Machine.State) (i : Install) (b : Bundle), (s.dev.alive = true) ∧ (s.dev.fwReady = true) ∧ (s.dev.helds = false) ∧ (s.dev.store.installs.find? (fun x => decide (x.state = 1)) = some i) ∧ (i.ready = some (b, false)) ∧ (bundleHasPlane b = false) ∧ (b.old = false)) :=
  ⟨⟨{ dev := { alive := true, regs := [(glbBase + 4, 2)], store := { installs := [{ ticket := 4, total := 2 }] } } }, { ticket := 4, total := 2 }, [1, 2], by decide +kernel⟩,
   ⟨{ dev := { alive := true, regs := [(glbBase + 4, 2)], store := { installs := [{ ticket := 4, total := 2 }] } } }, { ticket := 4, total := 2 }, by decide +kernel⟩,
   ⟨{ dev := { alive := true, regs := [(glbBase + 4, 2)], store := { installs := [{ ticket := 4, total := 2, state := 1, ready := some ({ inst := 1 }, false) }] } } }, { ticket := 4, total := 2, state := 1, ready := some ({ inst := 1 }, false) }, { inst := 1 }, by decide +kernel⟩⟩

theorem witness_FaultsAreTakenAndRemapped :
    (∃ (s : Machine.State) (k : Fin 4) (det : Nat), (s.dev.alive = true) ∧ (Tab.get 0 s.dev.ptn.dies k = 0)) ∧
    (∃ (s : Machine.State) (k : Fin 4) (det : Nat), (s.dev.alive = true) ∧ (Tab.get 0 s.dev.ptn.dies k = 0)) ∧
    (∃ (s : Machine.State) (det : Nat), (s.dev.alive = true) ∧ (s.dev.ptn.dieBLost = false)) ∧
    (∃ (s : Machine.State) (k : Fin 4) (det : Nat), (s.dev.alive = true) ∧ (Tab.get 0 s.dev.ptn.dies k = 0)) ∧
    (∃ (s : Machine.State) (n : Fin 8) (det : Nat), (s.dev.alive = true) ∧ Tab.get 0 s.dev.ptn.hbm n ≤ 1) ∧
    (∃ (s : Machine.State) (n : Fin 8) (det : Nat), (s.dev.alive = true) ∧ Tab.get 0 s.dev.ptn.hbm n ≤ 1) ∧
    (∃ (s : Machine.State) (n : Fin 8), (s.dev.alive = true) ∧ Tab.get 0 s.dev.ptn.ms n ≤ 1) ∧
    (∃ (s : Machine.State) (c : Fin 32) (det : Nat), (s.dev.alive = true) ∧ (s.dev.coreUp c = true)) ∧
    (∃ (s : Machine.State), s.dev.alive = true) ∧
    (∃ (s : Machine.State) (p : Fin 2), (s.dev.alive = true) ∧ (bit s.dev.pwr.planes p = false)) ∧
    (∃ (s : Machine.State) (u : FUnit) (cause det at_ : Nat) (rest : List (FUnit × Nat × Nat × Nat)), (s.dev.alive = true) ∧ (s.dev.ptn.cur = none) ∧ (s.dev.ptn.todo = (u, cause, det, at_) :: rest) ∧ s.dev.affected u.lost ≠ []) ∧
    (∃ (s : Machine.State) (r : Remap) (m : Move1), (s.dev.alive = true) ∧ (s.dev.ptn.cur = some r) ∧ (r.moves = [m]) ∧ (s.dev.coreUp m.new = true)) ∧
    (∃ (s : Machine.State) (c : Fin 32) (y : TShare), (s.dev.alive = true) ∧ (Tab.get none s.dev.ptn.tshare c = some y)) ∧
    (∃ (s : Machine.State) (p : Fin 32), (s.dev.alive = true) ∧ ((s.dev.ptnAt p).state = .restage) ∧ (s.dev.ptn.cur = none)) ∧
    (∃ (s : Machine.State) (p : Fin 32) (k : Nat), (s.dev.alive = true) ∧ ((s.dev.ent p).prot = true) ∧ ((s.dev.ptnAt p).mirrored = false) ∧ 0 < (s.dev.ent p).len ∧ ((upTo 8).find? (fun x => decide (nearDie x ≠ nearDie (s.dev.ent p).pstack) && decide (Tab.get 0 s.dev.ptn.hbm x ≤ 1) && (s.dev.freeRun x (s.dev.ent p).len).isSome) = some k)) :=
  ⟨⟨{ dev := { alive := true } }, 2, 1000, by decide +kernel⟩,
   ⟨{ dev := { alive := true } }, 2, 1000, by decide +kernel⟩,
   ⟨{ dev := { alive := true } }, 1000, by decide +kernel⟩,
   ⟨{ dev := { alive := true } }, 2, 1000, by decide +kernel⟩,
   ⟨{ dev := { alive := true } }, 7, 1000, by decide +kernel⟩,
   ⟨{ dev := { alive := true } }, 7, 1000, by decide +kernel⟩,
   ⟨{ dev := { alive := true, store := { bundles := [{ inst := 1 }] } } }, 7, by decide +kernel⟩,
   ⟨{ dev := { alive := true } }, 31, 1000, by decide +kernel⟩,
   ⟨{ dev := { alive := true } }, by decide +kernel⟩,
   ⟨{ dev := { alive := true, pwr := { planes := 1 } } }, 1, by decide +kernel⟩,
   ⟨{ dev := { alive := true, ptn := { todo := [(.core 3, 4, 9, 10)], ptn := [(1, { ent := { valid := true, cores := 8 }, order := [3] })] } } }, .core 3, 4, 9, 10, [], by decide +kernel⟩,
   ⟨{ dev := { alive := true, ptn := { cur := some { cause := 4, moves := [{ ptn := 1, old := 3, new := 31, tshared := false, lock := false, save := 0 }], det := 9, at_ := 10, planned := 11 }, ptn := [(1, { ent := { valid := true, cores := 2 ^ 31 }, order := [31] })] } } }, { cause := 4, moves := [{ ptn := 1, old := 3, new := 31, tshared := false, lock := false, save := 0 }], det := 9, at_ := 10, planned := 11 }, { ptn := 1, old := 3, new := 31, tshared := false, lock := false, save := 0 }, by decide +kernel⟩,
   ⟨{ dev := { alive := true, ptn := { tshare := [(3, some { running := 1, other := 2, otherLock := false, otherPc := 0, otherSave := 0, otherReset := true })] } } }, 3, { running := 1, other := 2, otherLock := false, otherPc := 0, otherSave := 0, otherReset := true }, by decide +kernel⟩,
   ⟨{ dev := { alive := true, ptn := { ptn := [(1, { state := .restage })] } } }, 1, by decide +kernel⟩,
   ⟨{ dev := { alive := true, ptn := { freeGr := [1000], ptn := [(1, { ent := { valid := true, prot := true, len := 1 } })] } } }, 1, 5, by decide +kernel⟩⟩

theorem witness_TheErrorLogTakesAndShows :
    (∃ (s : Machine.State) (e : ErlEntry) (rest : List ErlEntry) (k : Nat), (s.dev.alive = true) ∧ (s.dev.erl.queue = e :: rest) ∧ (((s.dev.erl.newest (fun x => decide (x.source = e.source) && decide (x.code = e.code) && decide (x.cls = e.cls))).all (fun y => !y.2.recent e)) = true) ∧ (s.dev.erl.place e.cls = some k)) ∧
    (∃ (s : Machine.State) (e x : ErlEntry) (rest : List ErlEntry) (k : Nat), (s.dev.alive = true) ∧ (s.dev.erl.queue = e :: rest) ∧ (s.dev.erl.newest (fun x => decide (x.source = e.source) && decide (x.code = e.code) && decide (x.cls = e.cls)) = some (k, x)) ∧ (x.saved = false) ∧ (x.stamp ≤ e.stamp) ∧ (e.stamp ≤ x.stamp + 2000000)) ∧
    (∃ (s : Machine.State) (who : Req) (mask : Fin 16), (s.dev.alive = true) ∧ (s.dev.reqOpen who = true) ∧ (who.atBlocks = true) ∧ (s.dev.mayWrite who (erlBase + 4) = true)) ∧
    (∃ (s : Machine.State) (who : Req) (k : Fin 4096), (s.dev.alive = true) ∧ (s.dev.reqOpen who = true) ∧ (who.atBlocks = true) ∧ (s.dev.mayWrite who (erlBase + 0x18) = true)) :=
  ⟨⟨{ dev := { alive := true, erl := { queue := [{ cls := 3, code := 5 }] } } }, { cls := 3, code := 5 }, [], 3840, by decide +kernel⟩,
   ⟨{ dev := { alive := true, erl := { queue := [{ cls := 3, code := 5, stamp := 2000000 }], slots := [(3840, { cls := 3, code := 5 })] } } }, { cls := 3, code := 5, stamp := 2000000 }, { cls := 3, code := 5 }, [], 3840, by decide +kernel⟩,
   ⟨{ dev := { alive := true, sec := { debug := true }, erl := { slots := [(3840, { cls := 3, code := 5 })], alarm := true } } }, .debug, 8, by decide +kernel⟩,
   ⟨{ dev := { alive := true, sec := { debug := true }, erl := { slots := [(3840, { cls := 3, code := 5 })], alarm := true } } }, .debug, 3840, by decide +kernel⟩⟩

theorem witness_FirmwareLoadsAndStarts :
    (∃ (s : Machine.State) (c : MbxMsg), (s.dev.alive = true) ∧ (s.dev.asked none 0x10 c = true) ∧ (s.dev.romServes = true) ∧ (loadPayload c.payload = true)) ∧
    (∃ (s : Machine.State) (c : MbxMsg) (bs : List Byte), (s.dev.alive = true) ∧ (s.dev.asked none 0x10 c = true) ∧ (s.dev.romServes = true) ∧ (loadPayload c.payload = true)) ∧
    (∃ (s : Machine.State) (c : MbxMsg), (s.dev.alive = true) ∧ (s.dev.asked none 0x10 c = true) ∧ (s.dev.romServes = true) ∧ (loadPayload c.payload = false)) ∧
    (∃ (s : Machine.State) (c : MbxMsg), (s.dev.alive = true) ∧ (s.dev.asked none 0x11 c = true) ∧ (s.dev.fwReady = true) ∧ (s.dev.helds = false) ∧ (loadPayload c.payload = true) ∧ (s.dev.fw.phase = .none)) ∧
    (∃ (s : Machine.State) (c : MbxMsg) (bs : List Byte), (s.dev.alive = true) ∧ (s.dev.asked none 0x11 c = true) ∧ (s.dev.fwReady = true) ∧ (s.dev.helds = false) ∧ (loadPayload c.payload = true) ∧ (s.dev.fw.phase = .none)) ∧
    (∃ (s : Machine.State) (c : MbxMsg) (data : Option (List Byte)), (s.dev.alive = true) ∧ (s.dev.asked none 0x11 c = true) ∧ (s.dev.fwReady = true) ∧ (s.dev.helds = false) ∧ (loadPayload c.payload = true) ∧ s.dev.fw.phase ≠ .none) ∧
    (∃ (s : Machine.State) (x : SelfTest), (s.dev.alive = true) ∧ (s.dev.fwRuns = true) ∧ (s.dev.fwReady = false)) ∧
    (∃ (s : Machine.State) (p : Nat), (s.dev.alive = true) ∧ (s.dev.fwReady = true) ∧ (s.dev.ptn.dieBLost = false) ∧ ((upTo 32).find? (fun x => (s.dev.ent x).valid && decide ((s.dev.ptnAt x).state = .offline) && !(s.dev.ptnAt x).order.isEmpty) = some p)) :=
  ⟨⟨{ dev := { alive := true, regs := [(glbBase + 4, 1)], host := { mbx := [(0, { pending := true, taken := true, cur := some { opcode := 0x10, seq := 5, payload := leBytes 8 2 ++ leBytes 2 1 ++ leBytes 6 0 ++ leBytes 8 0 ++ leBytes 8 64 } })] } } }, { opcode := 0x10, seq := 5, payload := leBytes 8 2 ++ leBytes 2 1 ++ leBytes 6 0 ++ leBytes 8 0 ++ leBytes 8 64 }, by decide +kernel⟩,
   ⟨{ dev := { alive := true, regs := [(glbBase + 4, 1)], host := { mbx := [(0, { pending := true, taken := true, cur := some { opcode := 0x10, seq := 5, payload := leBytes 8 2 ++ leBytes 2 1 ++ leBytes 6 0 ++ leBytes 8 0 ++ leBytes 8 64 } })] } } }, { opcode := 0x10, seq := 5, payload := leBytes 8 2 ++ leBytes 2 1 ++ leBytes 6 0 ++ leBytes 8 0 ++ leBytes 8 64 }, [1, 2], by decide +kernel⟩,
   ⟨{ dev := { alive := true, regs := [(glbBase + 4, 1)], host := { mbx := [(0, { pending := true, taken := true, cur := some { opcode := 0x10, seq := 5, payload := [] } })] } } }, { opcode := 0x10, seq := 5, payload := [] }, by decide +kernel⟩,
   ⟨{ dev := { alive := true, regs := [(glbBase + 4, 2)], host := { mbx := [(0, { pending := true, taken := true, cur := some { opcode := 0x11, seq := 5, payload := leBytes 8 2 ++ leBytes 2 1 ++ leBytes 6 0 ++ leBytes 8 0 ++ leBytes 8 64 } })] } } }, { opcode := 0x11, seq := 5, payload := leBytes 8 2 ++ leBytes 2 1 ++ leBytes 6 0 ++ leBytes 8 0 ++ leBytes 8 64 }, by decide +kernel⟩,
   ⟨{ dev := { alive := true, regs := [(glbBase + 4, 2)], host := { mbx := [(0, { pending := true, taken := true, cur := some { opcode := 0x11, seq := 5, payload := leBytes 8 2 ++ leBytes 2 1 ++ leBytes 6 0 ++ leBytes 8 0 ++ leBytes 8 64 } })] } } }, { opcode := 0x11, seq := 5, payload := leBytes 8 2 ++ leBytes 2 1 ++ leBytes 6 0 ++ leBytes 8 0 ++ leBytes 8 64 }, [1, 2], by decide +kernel⟩,
   ⟨{ dev := { alive := true, regs := [(glbBase + 4, 2)], fw := { phase := .prepare }, host := { mbx := [(0, { pending := true, taken := true, cur := some { opcode := 0x11, seq := 5, payload := leBytes 8 2 ++ leBytes 2 1 ++ leBytes 6 0 ++ leBytes 8 0 ++ leBytes 8 64 } })] } } }, { opcode := 0x11, seq := 5, payload := leBytes 8 2 ++ leBytes 2 1 ++ leBytes 6 0 ++ leBytes 8 0 ++ leBytes 8 64 }, none, by decide +kernel⟩,
   ⟨{ dev := { alive := true, regs := [(glbBase + 4, 0)], fw := { image := some { bytes := [1] } } } }, { arrays := [(3, 1)], quads := 2 }, by decide +kernel⟩,
   ⟨{ dev := { alive := true, regs := [(glbBase + 4, 2)], ptn := { ptn := [(3, { ent := { valid := true, cores := 32, len := 4 }, order := [5] })] } } }, 3, by decide +kernel⟩⟩

theorem witness_TheLiveUpdateRunsItsPhases :
    (∃ (s : Machine.State), (s.dev.alive = true) ∧ (s.dev.fw.phase = .prepare) ∧ (s.dev.store.installs.any (fun i => decide (i.state = 1)) = false)) ∧
    (∃ (s : Machine.State) (r : Option Nat), (s.dev.alive = true) ∧ (s.dev.fw.phase = .quiesce) ∧ (r.all (fun t => !recCritical t) = true)) ∧
    (∃ (s : Machine.State) (r : Nat), (s.dev.alive = true) ∧ (s.dev.fw.phase = .quiesce) ∧ (recCritical r = true) ∧ (s.dev.dict.held = [])) ∧
    (∃ (s : Machine.State), (s.dev.alive = true) ∧ (s.dev.fw.phase = .switch) ∧ (s.dev.dict.held = [])) ∧
    (∃ (s : Machine.State) (typ : Nat), (s.dev.alive = true) ∧ (s.dev.fw.phase = .switch) ∧ (s.dev.dict.held = [])) :=
  ⟨⟨{ dev := { alive := true, fw := { phase := .prepare } } }, by decide +kernel⟩,
   ⟨{ dev := { alive := true, fw := { phase := .quiesce, other := some { bytes := [1] } } } }, some 9, by decide +kernel⟩,
   ⟨{ dev := { alive := true, regs := [(glbBase + 4, 6)], fw := { phase := .quiesce, other := some { bytes := [1] } } } }, 1, by decide +kernel⟩,
   ⟨{ dev := { alive := true, regs := [(glbBase + 4, 6)], fw := { phase := .switch, image := some { bytes := [1] } }, tel := { fwHeld := true } } }, by decide +kernel⟩,
   ⟨{ dev := { alive := true, regs := [(glbBase + 4, 6)], fw := { phase := .switch, other := some { bytes := [1] } }, tel := { fwHeld := true } } }, 3, by decide +kernel⟩⟩

theorem witness_FirmwareFaultsRestartComponents :
    (∃ (s : Machine.State), (s.dev.alive = true) ∧ (s.dev.fwRuns = true) ∧ (s.dev.helds = false)) ∧
    (∃ (s : Machine.State) (c : Fin 12), (s.dev.alive = true) ∧ (s.dev.fwRuns = true) ∧ (s.dev.helds = false) ∧ c ≠ 0) ∧
    (∃ (s : Machine.State) (c : Fin 12) (a : Nat), (s.dev.alive = true) ∧ (s.dev.fwRuns = true)) ∧
    (∃ (s : Machine.State), s.dev.alive = true) ∧
    (∃ (s : Machine.State), (s.dev.alive = true) ∧ (s.dev.fw.image = none)) ∧
    (∃ (s : Machine.State), (s.dev.alive = true) ∧ (s.dev.fwRuns = true)) :=
  ⟨⟨{ dev := { alive := true, regs := [(glbBase + 4, 0)], fw := { image := some { bytes := [1] } } } }, by decide +kernel⟩,
   ⟨{ dev := { alive := true, regs := [(glbBase + 4, 0)], fw := { image := some { bytes := [1] }, restarts := [(5, [0, 0])] } } }, 5, by decide +kernel⟩,
   ⟨{ dev := { alive := true, regs := [(glbBase + 4, 0)], fw := { image := some { bytes := [1] }, restarts := [(5, [0, 0])] } } }, 5, 64, by decide +kernel⟩,
   ⟨{ dev := { alive := true, fw := { image := some { bytes := [1] }, mgmtDue := true } } }, by decide +kernel⟩,
   ⟨{ dev := { alive := true } }, by decide +kernel⟩,
   ⟨{ dev := { alive := true, regs := [(glbBase + 4, 0)], fw := { image := some { bytes := [1] } } } }, by decide +kernel⟩⟩

theorem witness_ThePowerAndThermalLoopsAct :
    (∃ (s : Machine.State) (parts : List Nat) (rails : List (Nat × Option (Nat × Nat))), s.dev.alive = true) ∧
    (∃ (s : Machine.State) (temps : List Int) (k : Fin 4), (s.dev.alive = true) ∧ 950 < temps.getD k 0 ∧ s.dev.dieLow k ≤ 16) ∧
    (∃ (s : Machine.State) (temps : List Int) (k : Fin 4), (s.dev.alive = true) ∧ temps.getD k 0 < 920) ∧
    (∃ (s : Machine.State) (p : Fin 22), (s.dev.alive = true) ∧ (s.dev.pwr.hot.contains p.val = false)) ∧
    (∃ (s : Machine.State) (p : Fin 22), (s.dev.alive = true) ∧ p.val < 4 ∧ s.dev.dieLow p ≤ 16) ∧
    (∃ (s : Machine.State) (p : Fin 22), (s.dev.alive = true) ∧ (s.dev.pwr.hot.contains p.val = true)) ∧
    (∃ (s : Machine.State) (p : Fin 22) (det : Nat), (s.dev.alive = true) ∧ p.val < 4 ∧ (Tab.get 0 s.dev.ptn.dies p = 0)) ∧
    (∃ (s : Machine.State) (p : Fin 22) (det : Nat), (s.dev.alive = true) ∧ 4 ≤ p.val ∧ p.val < 12 ∧ Tab.get 0 s.dev.ptn.hbm (p.val - 4) ≤ 1) ∧
    (∃ (s : Machine.State) (p : Fin 22) (det : Nat), (s.dev.alive = true) ∧ 12 ≤ p.val ∧ p.val < 20 ∧ Tab.get 0 s.dev.ptn.ms (p.val - 12) ≤ 1) ∧
    (∃ (s : Machine.State) (det : Nat), (s.dev.alive = true) ∧ (s.dev.ptn.dieBLost = false)) ∧
    (∃ (s : Machine.State) (det : Nat), s.dev.alive = true) ∧
    (∃ (s : Machine.State), (s.dev.alive = true) ∧ (s.dev.pwr.armed = true) ∧ (bit (s.dev.rdN (pwrReg 8)) 1 = false)) ∧
    (∃ (s : Machine.State) (k : Fin 4) (det : Nat), (s.dev.alive = true) ∧ (Tab.get 0 s.dev.ptn.dies k = 0)) :=
  ⟨⟨{ dev := { alive := true, regs := [(pwrReg 4, 450)], pwr := { bucket := 5000 } } }, [100000, 50000, 60000, 60000, 60000, 60000, 100000, 40000], [(2, some (750, 100))], by decide +kernel⟩,
   ⟨{ dev := { alive := true, regs := [(pwrReg 0x60, 0x108190)] } }, [951], 0, by decide +kernel⟩,
   ⟨{ dev := { alive := true, regs := [(pwrReg 0x60, 0x0F8190)] } }, [919], 0, by decide +kernel⟩,
   ⟨{ dev := { alive := true, pwr := { hot := [3] } } }, 21, by decide +kernel⟩,
   ⟨{ dev := { alive := true, regs := [(pwrReg 0x60, 0x108320)] } }, 0, by decide +kernel⟩,
   ⟨{ dev := { alive := true, pwr := { hot := [3, 21] } } }, 3, by decide +kernel⟩,
   ⟨{ dev := { alive := true } }, 3, 9, by decide +kernel⟩,
   ⟨{ dev := { alive := true } }, 11, 9, by decide +kernel⟩,
   ⟨{ dev := { alive := true } }, 19, 9, by decide +kernel⟩,
   ⟨{ dev := { alive := true } }, 9, by decide +kernel⟩,
   ⟨{ dev := { alive := true } }, 9, by decide +kernel⟩,
   ⟨{ dev := { alive := true, regs := [(pwrReg 0x60, 0x108190)], pwr := { armed := true } } }, by decide +kernel⟩,
   ⟨{ dev := { alive := true } }, 2, 9, by decide +kernel⟩⟩

theorem witness_ThePowerStateMovesWithItsSupplies :
    (∃ (s : Machine.State) (b : BootIn), (s.dev.pwr.porst = false) ∧ (s.dev.pwr.vhold = true) ∧ (s.dev.pwr.saving = none)) ∧
    (∃ (s : Machine.State) (b : BootIn), (s.dev.pwr.porst = false) ∧ (s.dev.pwr.vhold = false ∨ s.dev.pwr.saving ≠ none)) ∧
    (∃ (s : Machine.State) (x b : BootIn), (s.dev.alive = false) ∧ (s.dev.pwr.saving = none) ∧ (s.dev.pwr.porstPend = some b)) ∧
    (∃ (s : Machine.State) (x : BootIn), (s.dev.alive = false) ∧ (s.dev.pwr.saving = none) ∧ (s.dev.pwr.porstPend = none)) ∧
    (∃ (s : Machine.State) (cause : Fin 5), (s.dev.alive = true) ∧ (s.dev.pwr.vhold = true) ∧ (s.dev.pwr.porst = true) ∧ (s.dev.pwr.porstPend = none) ∧ (s.dev.saveStands = false)) ∧
    (∃ (s : Machine.State) (cause : Nat), (s.dev.pwr.saving = some cause) ∧ (s.dev.pwr.frozen = true) ∧ (s.dev.pwr.porstPend = none)) ∧
    (∃ (s : Machine.State) (cut cause : Nat), (s.dev.pwr.saving = some cause)) ∧
    (∃ (s : Machine.State) (cause : Nat), (s.dev.pwr.saving = some cause) ∧ (s.dev.pwr.frozen = false)) ∧
    (∃ (s : Machine.State) (b : BootIn), (s.dev.alive = false) ∧ (s.dev.pwr.vhold = true) ∧ (s.dev.pwr.frozen = true) ∧ (s.dev.pwr.porst = true) ∧ (s.dev.pwr.saving = none)) ∧
    (∃ (s : Machine.State), (s.dev.alive = true) ∧ (s.dev.fnOpen none = true) ∧ (s.dev.saveStands = false)) ∧
    (∃ (s : Machine.State) (v : Word), (s.dev.alive = true) ∧ (s.dev.fnOpen none = true) ∧ v ≠ 0x4D524157) ∧
    (∃ (s : Machine.State), (s.dev.alive = true) ∧ (s.dev.sec.debug = true) ∧ (s.dev.saveStands = false)) ∧
    (∃ (s : Machine.State), (s.dev.alive = true) ∧ (s.dev.sec.debug = false)) :=
  ⟨⟨{ dev := { pwr := { vhold := true } } }, { straps := 0x12345 }, by decide +kernel⟩,
   ⟨{ dev := {} }, { straps := 0x12345 }, by decide +kernel⟩,
   ⟨{ dev := { pwr := { porst := true, porstPend := some { straps := 0x12345 } } } }, {}, { straps := 0x12345 }, by decide +kernel⟩,
   ⟨{ dev := {} }, {}, by decide +kernel⟩,
   ⟨{ dev := { alive := true, pwr := { vhold := true, porst := true } } }, 4, by decide +kernel⟩,
   ⟨{ dev := { pwr := { vhold := true, frozen := true, saving := some 2, skips := 3 } } }, 2, by decide +kernel⟩,
   ⟨{ dev := { pwr := { vhold := true, frozen := true, saving := some 2, skips := 3 } } }, 4, 2, by decide +kernel⟩,
   ⟨{ dev := { pwr := { vhold := true, porst := true, saving := some 5 } } }, 5, by decide +kernel⟩,
   ⟨{ dev := { pwr := { vhold := true, porst := true, frozen := true } } }, { straps := 0x12345 }, by decide +kernel⟩,
   ⟨{ dev := { alive := true, host := { linkUp := true, mse := [(0, true)] } } }, by decide +kernel⟩,
   ⟨{ dev := { alive := true, host := { linkUp := true, mse := [(0, true)] } } }, 5, by decide +kernel⟩,
   ⟨{ dev := { alive := true, sec := { debug := true } } }, by decide +kernel⟩,
   ⟨{ dev := { alive := true } }, by decide +kernel⟩⟩

theorem witness_SettingsApplyAndStoresAct :
    (∃ (s : Machine.State) (k : Nat) (ks : List Nat), (s.dev.alive = true) ∧ (s.dev.fwReady = true) ∧ (s.dev.helds = false) ∧ (s.dev.dict.apply = k :: ks) ∧ (keyIndex k = 0x3010)) ∧
    (∃ (s : Machine.State) (k : Nat) (ks : List Nat), (s.dev.alive = true) ∧ (s.dev.fwReady = true) ∧ (s.dev.helds = false) ∧ (s.dev.dict.apply = k :: ks) ∧ (keyIndex k = 0x3030)) ∧
    (∃ (s : Machine.State) (sb : Fin 4) (e : DEnt), (s.dev.alive = true) ∧ (s.dev.fwReady = true) ∧ (s.dev.helds = false) ∧ ((s.dev.sessAt 190).token = none) ∧ (s.dev.writeChecks .usb 0x1010 sb (leBytes 4 saveWord) none = .ok (e, none)) ∧ ((s.dev.storeImage sb true).2 = 0) ∧ s.dev.dict.norB.seq < s.dev.dict.norA.seq) ∧
    (∃ (s : Machine.State) (sb : Fin 4) (tok : Option (List Byte)), (s.dev.alive = true) ∧ (s.dev.fwReady = true) ∧ (s.dev.helds = false) ∧ ((s.dev.sessAt 190).token = none)) ∧
    (∃ (s : Machine.State) (raw : List Byte) (e : DEnt), (s.dev.alive = true) ∧ (s.dev.fwReady = true) ∧ (s.dev.helds = false) ∧ ((s.dev.sessAt 190).token = none) ∧ (s.dev.writeChecks .usb 0x5020 0 raw none = .ok (e, none))) ∧
    (∃ (s : Machine.State) (via : Via), s.dev.alive = true) :=
  ⟨⟨{ dev := { alive := true, regs := [(glbBase + 4, 2)], dict := { apply := [dkey 0x3010 1 0], vals := [(dkey 0x3010 1 0, leBytes 4 0x88A8)] } } }, dkey 0x3010 1 0, [], by decide +kernel⟩,
   ⟨{ dev := { alive := true, regs := [(glbBase + 4, 2)], dict := { apply := [dkey 0x3030 0 0], vals := [(dkey 0x3030 0 0, leBytes 4 77)] } } }, dkey 0x3030 0 0, [], by decide +kernel⟩,
   ⟨{ dev := { alive := true, regs := [(glbBase + 4, 2), (pwrReg 0x1C, 0x20000)], dict := { norA := { valid := true, seq := 4 }, vals := [(dkey 0x3030 0 0, leBytes 4 77)] }, pwr := { nor := true } } }, 1, (dictEnt 0x1010 1).getD { idx := 0, len := 0, acc := .ro }, by decide +kernel⟩,
   ⟨{ dev := { alive := true, regs := [(glbBase + 4, 2), (pwrReg 0x1C, 0x20000)] } }, 1, none, by decide +kernel⟩,
   ⟨{ dev := { alive := true, regs := [(glbBase + 4, 2), (pwrReg 0x1C, 0x20000)] } }, [1, 2], (dictEnt 0x5020 0).getD { idx := 0, len := 0, acc := .ro }, by decide +kernel⟩,
   ⟨{ dev := { alive := true, dict := { sess := [(190, { token := some ([1], 5) })] } } }, .usb, by decide +kernel⟩⟩

theorem witness_CanTransfersCommitAndAnswer :
    (∃ (s : Machine.State) (index sb : Nat) (data : List Byte) (ok : Bool), (s.dev.alive = true) ∧ (s.dev.sdoServes = true) ∧ (s.dev.helds = false)) ∧
    (∃ (s : Machine.State) (index sb size : Nat) (ok : Bool), (s.dev.alive = true) ∧ (s.dev.sdoServes = true) ∧ (s.dev.helds = false) ∧ (s.dev.mayOpen 40 = true) ∧ size ≤ asmMax) ∧
    (∃ (s : Machine.State) (a : Asm) (data : List Byte) (ok : Bool), (s.dev.alive = true) ∧ (s.dev.sdoServes = true) ∧ (s.dev.helds = false) ∧ ((s.dev.sessAt 40).asm = some a) ∧ (a.block = false) ∧ a.data.length + (data.take 7).length ≤ asmMax ∧ (a.total = 0)) ∧
    (∃ (s : Machine.State) (index sb : Nat) (ok : Bool), (s.dev.alive = true) ∧ (s.dev.sdoServes = true) ∧ (s.dev.helds = false)) ∧
    (∃ (s : Machine.State) (index sb : Nat) (v : List Byte), (s.dev.alive = true) ∧ (s.dev.sdoServes = true) ∧ (s.dev.helds = false) ∧ (s.dev.dictRead .sdo index sb = .ok v) ∧ 1 ≤ v.length ∧ v.length ≤ 4) ∧
    (∃ (s : Machine.State) (node : Option Nat), (s.dev.alive = true) ∧ ((s.dev.sessAt (match node with | none => 40 | some n => Via.sess (.usdo n))).asm.isSome = true)) ∧
    (∃ (s : Machine.State) (node index sb : Nat) (ok : Bool) (v : List Byte), (s.dev.alive = true) ∧ (s.dev.sdoServes = true) ∧ (s.dev.helds = false) ∧ s.dev.dict.canFd ≠ 0 ∧ s.dev.usdoOpen < 8 ∧ (s.dev.dictRead (.usdo node) index sb = .ok v)) ∧
    (∃ (s : Machine.State), (s.dev.alive = true) ∧ (s.dev.canUp = true)) ∧
    (∃ (s : Machine.State), (s.dev.alive = true) ∧ (s.dev.canUp = true)) ∧
    (∃ (s : Machine.State), (s.dev.alive = true) ∧ (s.dev.canUp = true)) ∧
    (∃ (s : Machine.State), (s.dev.alive = true) ∧ (s.dev.canUp = true)) ∧
    (∃ (s : Machine.State), (s.dev.alive = true) ∧ (s.dev.canUp = true)) ∧
    (∃ (s : Machine.State), (s.dev.alive = true) ∧ (s.dev.canUp = true) ∧ s.dev.dvalN 0x1017 0 0 ≠ 0) :=
  ⟨⟨{ dev := { alive := true, regs := [(glbBase + 4, 2), (pwrReg 0x1C, 0x200A0)], dict := { nmt := .operational } } }, 0x1017, 0, [5, 0], true, by decide +kernel⟩,
   ⟨{ dev := { alive := true, regs := [(glbBase + 4, 2), (pwrReg 0x1C, 0x200A0)], dict := { nmt := .operational } } }, 0x2001, 0, 60, true, by decide +kernel⟩,
   ⟨{ dev := { alive := true, regs := [(glbBase + 4, 2), (pwrReg 0x1C, 0x200A0)], dict := { nmt := .operational, sess := [(40, { asm := some { index := 5, sub := 0, seg := 1 } })] } } }, { index := 5, sub := 0, seg := 1 }, [1, 2], true, by decide +kernel⟩,
   ⟨{ dev := { alive := true, regs := [(glbBase + 4, 2), (pwrReg 0x1C, 0x200A0)], dict := { nmt := .operational } } }, 5, 6, true, by decide +kernel⟩,
   ⟨{ dev := { alive := true, regs := [(glbBase + 4, 2), (pwrReg 0x1C, 0x200A0)], dict := { nmt := .operational } } }, 0x1001, 0, [0], by decide +kernel⟩,
   ⟨{ dev := { alive := true, dict := { sess := [(44, { asm := some { index := 5, sub := 0 } })] } } }, some 3, by decide +kernel⟩,
   ⟨{ dev := { alive := true, regs := [(glbBase + 4, 2), (pwrReg 0x1C, 0x200A0)], dict := { nmt := .operational, canFd := 1 } } }, 3, 0x1001, 0, true, [0], by decide +kernel⟩,
   ⟨{ dev := { alive := true, regs := [(glbBase + 4, 2), (pwrReg 0x1C, 0x200A0)], dict := { nmt := .operational } } }, by decide +kernel⟩,
   ⟨{ dev := { alive := true, regs := [(glbBase + 4, 2), (pwrReg 0x1C, 0x200A0)], dict := { nmt := .operational } } }, by decide +kernel⟩,
   ⟨{ dev := { alive := true, regs := [(glbBase + 4, 2), (pwrReg 0x1C, 0x200A0)], dict := { nmt := .operational } } }, by decide +kernel⟩,
   ⟨{ dev := { alive := true, regs := [(glbBase + 4, 2), (pwrReg 0x1C, 0x200A0)], dict := { nmt := .operational, sess := [(44, { opened := true })] } } }, by decide +kernel⟩,
   ⟨{ dev := { alive := true, regs := [(glbBase + 4, 2), (pwrReg 0x1C, 0x200A0)], dict := { nmt := .operational, sess := [(44, { opened := true })] } } }, by decide +kernel⟩,
   ⟨{ dev := { alive := true, regs := [(glbBase + 4, 2), (pwrReg 0x1C, 0x200A0)], dict := { nmt := .operational } } }, by decide +kernel⟩⟩

theorem witness_UdpAndUsbTransfersAct :
    (∃ (s : Machine.State) (src : Nat) (raw v : List Byte), (s.dev.alive = true) ∧ (s.dev.fwReady = true) ∧ (s.dev.pwr.boardErr = 0) ∧ (s.dev.helds = false) ∧ (s.dev.mgmtHeld = false) ∧ (s.dev.dict.mgmtQ = []) ∧ (24 ≤ raw.length) ∧ (sub raw 0 2 = [0x45, 0x44]) ∧ (subN raw 2 1 = 1) ∧ ((s.dev.sessAt (200 + src)).resp.find? (fun r => decide (r.1 = subN raw 4 4)) = none) ∧ (subN raw 3 1 = 1) ∧ (subN raw 12 4 = 0) ∧ (s.dev.dictRead (.udp src) (subN raw 8 2) (subN raw 10 1) = .ok v)) ∧
    (∃ (s : Machine.State) (src : Nat) (raw resp : List Byte), (s.dev.alive = true) ∧ (s.dev.fwReady = true) ∧ (s.dev.pwr.boardErr = 0) ∧ (s.dev.helds = false) ∧ (s.dev.mgmtHeld = true) ∧ (24 ≤ raw.length) ∧ (sub raw 0 2 = [0x45, 0x44]) ∧ (subN raw 2 1 = 1) ∧ (s.dev.sessAt (200 + src)).resp.find? (fun r => decide (r.1 = subN raw 4 4)) = some (subN raw 4 4, resp)) ∧
    (∃ (s : Machine.State) (src : Nat) (raw : List Byte) (ok : Bool), (s.dev.alive = true) ∧ (s.dev.fwReady = true) ∧ (s.dev.pwr.boardErr = 0) ∧ (s.dev.helds = false) ∧ (s.dev.mgmtHeld = false) ∧ (s.dev.dict.mgmtQ = []) ∧ (24 ≤ raw.length) ∧ (sub raw 0 2 = [0x45, 0x44]) ∧ (subN raw 2 1 = 1) ∧ ((s.dev.sessAt (200 + src)).resp.find? (fun r => decide (r.1 = subN raw 4 4)) = none) ∧ (subN raw 3 1 = 2) ∧ (s.dev.dvalN 0x2031 2 0 = 0)) ∧
    (∃ (s : Machine.State) (src : Nat) (raw v : List Byte) (ok : Bool), (s.dev.alive = true) ∧ (s.dev.fwReady = true) ∧ (s.dev.pwr.boardErr = 0) ∧ (s.dev.helds = false) ∧ (s.dev.mgmtHeld = false) ∧ (s.dev.dict.mgmtQ = []) ∧ (24 ≤ raw.length) ∧ (sub raw 0 2 = [0x45, 0x44]) ∧ (subN raw 2 1 = 1) ∧ ((s.dev.sessAt (200 + src)).resp.find? (fun r => decide (r.1 = subN raw 4 4)) = none) ∧ (subN raw 3 1 = 2) ∧ (s.dev.dvalN 0x2031 2 0 ≠ 0) ∧ (subN raw 20 4 ≤ asmMax) ∧ (s.dev.mayOpen (200 + src) = true) ∧ ((s.dev.sessAt (200 + src)).asm = none) ∧ (({ index := subN raw 8 2, sub := subN raw 10 1, total := subN raw 20 4, parts := [(subN raw 12 4, (raw.drop 24).take (min 1400 (subN raw 16 2)))], last := bit (subN raw 11 1) 0 } : Asm).whole = some v)) ∧
    (∃ (s : Machine.State) (src : Nat), s.dev.alive = true) ∧
    (∃ (s : Machine.State) (index sb len : Nat) (v : List Byte), (s.dev.alive = true) ∧ (s.dev.fwReady = true) ∧ (s.dev.helds = false) ∧ (s.dev.dictRead .usb index sb = .ok v)) ∧
    (∃ (s : Machine.State) (index sb seg : Nat) (data : List Byte) (a : Asm), (s.dev.alive = true) ∧ (s.dev.fwReady = true) ∧ (s.dev.helds = false) ∧ (data.length = 4096) ∧ seg ≤ 255 ∧ (s.dev.mayOpen 190 = true) ∧ (s.dev.usbAsm index sb seg data = some a)) ∧
    (∃ (s : Machine.State) (index sb seg : Nat) (data : List Byte) (ok : Bool) (a : Asm), (s.dev.alive = true) ∧ (s.dev.fwReady = true) ∧ (s.dev.helds = false) ∧ data.length ≤ 4096 ∧ seg ≤ 255 ∧ (s.dev.usbAsm index sb seg data = some a) ∧ (((s.dev.sessUpd 190 (fun x => { x with asm := none, copy := none })).dictWrite .usb index sb a.data none ok).2 = 0)) ∧
    (∃ (s : Machine.State), (s.dev.alive = true) ∧ (s.dev.helds = false)) ∧
    (∃ (s : Machine.State), s.dev.alive = true) :=
  ⟨⟨{ dev := { alive := true, regs := [(glbBase + 4, 2)] } }, 3, leBytes 1 0x45 ++ leBytes 1 0x44 ++ leBytes 1 1 ++ leBytes 1 1 ++ leBytes 4 9 ++ leBytes 2 0x1001 ++ leBytes 1 0 ++ leBytes 1 0 ++ leBytes 4 0 ++ leBytes 2 4 ++ leBytes 2 0 ++ leBytes 4 0 ++ leBytes 0 5, [0], by decide +kernel⟩,
   ⟨{ dev := { alive := true, regs := [(glbBase + 4, 2)], dict := { mgmtPause := 9, sess := [(203, { resp := [(9, [1, 2])] })] } } }, 3, leBytes 1 0x45 ++ leBytes 1 0x44 ++ leBytes 1 1 ++ leBytes 1 1 ++ leBytes 4 9 ++ leBytes 16 0, [1, 2], by decide +kernel⟩,
   ⟨{ dev := { alive := true, regs := [(glbBase + 4, 2)] } }, 3, leBytes 1 0x45 ++ leBytes 1 0x44 ++ leBytes 1 1 ++ leBytes 1 2 ++ leBytes 4 9 ++ leBytes 2 0x1017 ++ leBytes 1 0 ++ leBytes 1 1 ++ leBytes 4 0 ++ leBytes 2 2 ++ leBytes 2 0 ++ leBytes 4 2 ++ leBytes 2 5, true, by decide +kernel⟩,
   ⟨{ dev := { alive := true, regs := [(glbBase + 4, 2)], dict := { vals := [(dkey 0x2031 2 0, [1])] } } }, 3, leBytes 1 0x45 ++ leBytes 1 0x44 ++ leBytes 1 1 ++ leBytes 1 2 ++ leBytes 4 9 ++ leBytes 2 0x1017 ++ leBytes 1 0 ++ leBytes 1 1 ++ leBytes 4 0 ++ leBytes 2 2 ++ leBytes 2 0 ++ leBytes 4 2 ++ leBytes 2 5, leBytes 2 5, true, by decide +kernel⟩,
   ⟨{ dev := { alive := true, dict := { sess := [(203, { opened := true })] } } }, 3, by decide +kernel⟩,
   ⟨{ dev := { alive := true, regs := [(glbBase + 4, 2)] } }, 0x1001, 0, 64, [0], by decide +kernel⟩,
   ⟨{ dev := { alive := true, regs := [(glbBase + 4, 2)] } }, 0x3001, 0, 0, List.replicate 4096 7, { index := 0x3001, sub := 0, data := List.replicate 4096 7, seg := 1 }, rfl, by decide +kernel, by decide +kernel, List.length_replicate, by decide, by decide +kernel, rfl⟩,
   ⟨{ dev := { alive := true, regs := [(glbBase + 4, 2), (pwrReg 0x1C, 0x20000)] } }, 0x1017, 0, 0, leBytes 2 5, true, { index := 0x1017, sub := 0, data := leBytes 2 5, seg := 1 }, by decide +kernel⟩,
   ⟨{ dev := { alive := true, dict := { sess := [(190, { result := (0, 0x1017, 0, true) })] } } }, by decide +kernel⟩,
   ⟨{ dev := { alive := true, dict := { sess := [(190, { token := some ([1], 0) })] } } }, by decide +kernel⟩⟩

theorem witness_LifecycleWritesActWhenTheirChecksHold :
    (∃ (s : Machine.State) (tok : Option (List Byte)), (s.dev.alive = true) ∧ (s.dev.fwReady = true) ∧ (s.dev.helds = false) ∧ ((s.dev.sessAt 190).token = none)) ∧
    (∃ (s : Machine.State) (tok : Option (List Byte)), (s.dev.alive = true) ∧ (s.dev.fwReady = true) ∧ (s.dev.helds = false) ∧ ((s.dev.sessAt 190).token = none)) ∧
    (∃ (s : Machine.State) (tok : Option (List Byte)), (s.dev.alive = true) ∧ (s.dev.fwReady = true) ∧ (s.dev.helds = false) ∧ ((s.dev.sessAt 190).token = none)) ∧
    (∃ (s : Machine.State) (tok : Option (List Byte)), (s.dev.alive = true) ∧ (s.dev.fwReady = true) ∧ (s.dev.helds = false) ∧ ((s.dev.sessAt 190).token = none)) ∧
    (∃ (s : Machine.State) (tok : Option (List Byte)), (s.dev.alive = true) ∧ (s.dev.fwReady = true) ∧ (s.dev.helds = false) ∧ ((s.dev.sessAt 190).token = none)) ∧
    (∃ (s : Machine.State) (g : Fin 32) (tok : Option (List Byte)), (s.dev.alive = true) ∧ (s.dev.fwReady = true) ∧ (s.dev.helds = false) ∧ ((s.dev.sessAt 190).token = none)) ∧
    (∃ (s : Machine.State) (k : Fin 4) (tok : Option (List Byte)), (s.dev.alive = true) ∧ (s.dev.fwReady = true) ∧ (s.dev.helds = false) ∧ ((s.dev.sessAt 190).token = none)) :=
  ⟨⟨{ dev := { alive := true, regs := [(glbBase + 4, 2), (pwrReg 0x1C, 0x20000)], dict := { vals := [(dkey 0x5010 1 0, leBytes 48 1)] } } }, none, by decide +kernel⟩,
   ⟨{ dev := { alive := true, regs := [(glbBase + 4, 2), (pwrReg 0x1C, 0x20000)], dict := { vals := [(dkey 0x5010 1 0, leBytes 48 1)] } } }, none, by decide +kernel⟩,
   ⟨{ dev := { alive := true, regs := [(glbBase + 4, 2), (pwrReg 0x1C, 0x20000)], dict := { vals := [(dkey 0x5010 1 0, leBytes 48 1)] } } }, none, by decide +kernel⟩,
   ⟨{ dev := { alive := true, regs := [(glbBase + 4, 2), (pwrReg 0x1C, 0x20000)], dict := { vals := [(dkey 0x5010 1 0, leBytes 48 1)] } } }, none, by decide +kernel⟩,
   ⟨{ dev := { alive := true, regs := [(glbBase + 4, 2), (pwrReg 0x1C, 0x20000)], dict := { vals := [(dkey 0x5010 1 0, leBytes 48 1)] } } }, none, by decide +kernel⟩,
   ⟨{ dev := { alive := true, regs := [(glbBase + 4, 2), (pwrReg 0x1C, 0x20000)], dict := { vals := [(dkey 0x5010 1 0, leBytes 48 1)] } } }, 3, none, by decide +kernel⟩,
   ⟨{ dev := { alive := true, regs := [(glbBase + 4, 2), (pwrReg 0x1C, 0x20000)], dict := { vals := [(dkey 0x5010 1 0, leBytes 48 1)] } } }, 3, none, by decide +kernel⟩⟩

theorem witness_SecurityRowsWindowsAndDebugAct :
    (∃ (s : Machine.State) (row : List Byte) (tok : Option (List Byte)), (s.dev.alive = true) ∧ (s.dev.fwReady = true) ∧ (s.dev.helds = false) ∧ ((s.dev.sessAt 190).token = none)) ∧
    (∃ (s : Machine.State) (n : Fin 32) (an : Nat), (s.dev.alive = true) ∧ (s.dev.fwReady = true) ∧ (s.dev.helds = false) ∧ (s.dev.portExists n = true) ∧ (wbit (s.dev.rd (prt n 0x0C)) 3 = true) ∧ (([1, 2, 3].map (fun i => (bits (s.dev.rdN (prt n 0x30)) 5 4 + i) % 4)).find? (fun an => (Tab.get {} s.dev.flow.ms (saKey n an)).fresh) = some an)) ∧
    (∃ (s : Machine.State) (n : Fin 32), (s.dev.alive = true) ∧ (s.dev.fwReady = true) ∧ (s.dev.helds = false) ∧ (s.dev.portExists n = true) ∧ (wbit (s.dev.rd (prt n 0x0C)) 3 = true) ∧ (([1, 2, 3].map (fun i => (bits (s.dev.rdN (prt n 0x30)) 5 4 + i) % 4)).find? (fun an => (Tab.get {} s.dev.flow.ms (saKey n an)).fresh) = none)) ∧
    (∃ (s : Machine.State) (reply : List Byte), s.dev.alive = true) ∧
    (∃ (s : Machine.State) (who : Req) (ix : Fin 64), (s.dev.alive = true) ∧ (s.dev.reqOpen who = true) ∧ (who.atBlocks = true) ∧ (s.dev.mayWrite who (secBase + 0x40) = true) ∧ (1 ≤ ix.val) ∧ (ix.val ≤ 37)) ∧
    (∃ (s : Machine.State) (who : Req) (ix : Fin 64), (s.dev.alive = true) ∧ (s.dev.reqOpen who = true) ∧ (who.atBlocks = true) ∧ (s.dev.mayWrite who (secBase + 0x40) = true) ∧ (ix.val = 0 ∨ 37 < ix.val)) ∧
    (∃ (s : Machine.State) (who : Req) (p : Fin 32), (s.dev.alive = true) ∧ (s.dev.reqOpen who = true) ∧ (who.atBlocks = true) ∧ (s.dev.mayWrite who (secBase + 0x200) = true)) ∧
    (∃ (s : Machine.State), s.dev.alive = true) :=
  ⟨⟨{ dev := { alive := true, regs := [(glbBase + 4, 2), (pwrReg 0x1C, 0x20000)], dict := { vals := [(dkey 0x5010 1 0, leBytes 48 1)] } } }, leBytes 64 0, none, by decide +kernel⟩,
   ⟨{ dev := { alive := true, regs := [(glbBase + 4, 2), (prt 0 0x0C, 8)], flow := { ms := [(saKey 0 2, { installed := true, pn := 1 })] } } }, 0, 2, by decide +kernel⟩,
   ⟨{ dev := { alive := true, regs := [(glbBase + 4, 2), (prt 0 0x0C, 8)] } }, 0, by decide +kernel⟩,
   ⟨{ dev := { alive := true } }, [], by decide +kernel⟩,
   ⟨{ dev := { alive := true, sec := { debug := true } } }, .debug, 37, by decide +kernel⟩,
   ⟨{ dev := { alive := true, sec := { debug := true } } }, .debug, 38, by decide +kernel⟩,
   ⟨{ dev := { alive := true, sec := { debug := true } } }, .debug, 31, by decide +kernel⟩,
   ⟨{ dev := { alive := true, lck := [(9, { held := true, owner := 63 })] } }, by decide +kernel⟩⟩

theorem witness_SpdmServes :
    (∃ (s : Machine.State) (req : List Byte), (s.dev.alive = true) ∧ (s.dev.host.linkUp = true) ∧ (subN req 0 1 = 0x10)) ∧
    (∃ (s : Machine.State) (req : List Byte), (s.dev.alive = true) ∧ (s.dev.host.linkUp = true) ∧ (subN req 0 1 = 0x12) ∧ 4 ≤ req.length ∧ (s.dev.sec.conn = 1)) ∧
    (∃ (s : Machine.State) (req : List Byte), (s.dev.alive = true) ∧ (s.dev.host.linkUp = true) ∧ (subN req 0 1 = 0x12) ∧ 32 ≤ req.length ∧ (s.dev.sec.conn = 2) ∧ (bit (subN req 8 4) 7 = true) ∧ (bit (subN req 12 4) 1 = true) ∧ ((algTables req).any (fun x => decide (x.1 = 2 ∨ x.1 = 3 ∨ x.1 = 5) && decide (Nat.land x.2 (algChoice x.1) = 0)) = false)) ∧
    (∃ (s : Machine.State) (req : List Byte), (s.dev.alive = true) ∧ (s.dev.host.linkUp = true) ∧ (subN req 0 1 = 0x12) ∧ 32 ≤ req.length ∧ (s.dev.sec.conn = 2) ∧ (bit (subN req 8 4) 7 = false)) ∧
    (∃ (s : Machine.State) (req : List Byte), (s.dev.alive = true) ∧ (s.dev.host.linkUp = true) ∧ (subN req 0 1 = 0x12) ∧ 3 ≤ s.dev.sec.conn ∧ 4 ≤ req.length) ∧
    (∃ (s : Machine.State) (req : List Byte), (s.dev.alive = true) ∧ (s.dev.host.linkUp = true) ∧ (subN req 0 1 = 0x12) ∧ 3 ≤ s.dev.sec.conn ∧ 8 ≤ req.length ∧ (bits (subN req 2 1) 3 0 = 0)) ∧
    (∃ (s : Machine.State) (req : List Byte), (s.dev.alive = true) ∧ (s.dev.host.linkUp = true) ∧ (subN req 0 1 = 0x12) ∧ 3 ≤ s.dev.sec.conn ∧ 36 ≤ req.length ∧ (bits (subN req 2 1) 3 0 = 0)) ∧
    (∃ (s : Machine.State) (req : List Byte), (s.dev.alive = true) ∧ (s.dev.host.linkUp = true) ∧ (subN req 0 1 = 0x12) ∧ 3 ≤ s.dev.sec.conn ∧ 37 ≤ req.length ∧ (bit (subN req 2 1) 0 = true) ∧ subN req 3 1 ≤ 37 ∧ 1 ≤ subN req 3 1 ∧ (bits (subN req 36 1) 3 0 = 0)) ∧
    (∃ (s : Machine.State) (req : List Byte), (s.dev.alive = true) ∧ (s.dev.host.linkUp = true) ∧ (subN req 0 1 = 0x12) ∧ 3 ≤ s.dev.sec.conn ∧ 9 ≤ req.length ∧ (subN req 4 2 = 3) ∧ (subN req 6 1 = 2) ∧ (subN req 7 2 = 0x1F7A) ∧ s.dev.sec.signed ≠ []) ∧
    (∃ (s : Machine.State) (req : List Byte), (s.dev.alive = true) ∧ (s.dev.host.linkUp = true) ∧ (subN req 0 1 = 0x12) ∧ 3 ≤ s.dev.sec.conn ∧ 138 ≤ req.length ∧ (bits (subN req 3 1) 3 0 = 0) ∧ s.dev.sec.sess.length < 4) ∧
    (∃ (s : Machine.State) (req : List Byte), (s.dev.alive = true) ∧ (s.dev.host.linkUp = true) ∧ (subN req 0 1 = 0x12) ∧ 3 ≤ s.dev.sec.conn ∧ 138 ≤ req.length ∧ (bits (subN req 3 1) 3 0 = 0) ∧ 4 ≤ s.dev.sec.sess.length) ∧
    (∃ (s : Machine.State) (k : Nat) (req : List Byte), (s.dev.alive = true) ∧ (s.dev.host.linkUp = true) ∧ (subN req 0 1 = 0x12) ∧ 3 ≤ s.dev.sec.conn ∧ (s.dev.sessOk (some k) = true) ∧ 52 ≤ req.length ∧ (s.dev.sessDone (some k) = false)) ∧
    (∃ (s : Machine.State) (k : Nat) (req : List Byte), (s.dev.alive = true) ∧ (s.dev.host.linkUp = true) ∧ (subN req 0 1 = 0x12) ∧ 3 ≤ s.dev.sec.conn ∧ (s.dev.sessOk (some k) = true) ∧ 4 ≤ req.length ∧ (s.dev.sessDone (some k) = true)) ∧
    (∃ (s : Machine.State) (k : Nat) (req : List Byte), (s.dev.alive = true) ∧ (s.dev.host.linkUp = true) ∧ (subN req 0 1 = 0x12) ∧ 3 ≤ s.dev.sec.conn ∧ (s.dev.sessOk (some k) = true) ∧ 4 ≤ req.length ∧ (s.dev.sessDone (some k) = true)) :=
  ⟨⟨{ dev := { alive := true, host := { linkUp := true }, sec := { conn := 3 } } }, leBytes 1 0x10 ++ leBytes 1 0x84 ++ leBytes 2 0, by decide +kernel⟩,
   ⟨{ dev := { alive := true, host := { linkUp := true }, sec := { conn := 1 } } }, leBytes 1 0x12 ++ leBytes 1 0xE1 ++ leBytes 1 0 ++ leBytes 1 0 ++ leBytes 8 0, by decide +kernel⟩,
   ⟨{ dev := { alive := true, host := { linkUp := true }, sec := { conn := 2 } } }, leBytes 1 0x12 ++ leBytes 1 0xE3 ++ leBytes 1 0 ++ leBytes 1 0 ++ leBytes 4 0 ++ leBytes 4 0x80 ++ leBytes 4 2 ++ leBytes 16 0, by decide +kernel⟩,
   ⟨{ dev := { alive := true, host := { linkUp := true }, sec := { conn := 2 } } }, leBytes 1 0x12 ++ leBytes 1 0xE3 ++ leBytes 1 0 ++ leBytes 1 0 ++ leBytes 28 0, by decide +kernel⟩,
   ⟨{ dev := { alive := true, host := { linkUp := true }, sec := { conn := 3 } } }, leBytes 1 0x12 ++ leBytes 1 0x81 ++ leBytes 1 0 ++ leBytes 1 0 ++ leBytes 0 0, by decide +kernel⟩,
   ⟨{ dev := { alive := true, host := { linkUp := true }, sec := { conn := 3 } } }, leBytes 1 0x12 ++ leBytes 1 0x82 ++ leBytes 1 0 ++ leBytes 1 0 ++ leBytes 4 0, by decide +kernel⟩,
   ⟨{ dev := { alive := true, host := { linkUp := true }, sec := { conn := 3 } } }, leBytes 1 0x12 ++ leBytes 1 0x83 ++ leBytes 1 0 ++ leBytes 1 0 ++ leBytes 32 0, by decide +kernel⟩,
   ⟨{ dev := { alive := true, host := { linkUp := true }, sec := { conn := 3 } } }, leBytes 1 0x12 ++ leBytes 1 0xE0 ++ leBytes 1 1 ++ leBytes 1 1 ++ leBytes 33 0, by decide +kernel⟩,
   ⟨{ dev := { alive := true, host := { linkUp := true }, sec := { conn := 3, signed := [1] } } }, leBytes 1 0x12 ++ leBytes 1 0xFE ++ leBytes 2 0 ++ leBytes 2 3 ++ leBytes 1 2 ++ leBytes 2 0x1F7A, by decide +kernel⟩,
   ⟨{ dev := { alive := true, host := { linkUp := true }, sec := { conn := 3 } } }, leBytes 1 0x12 ++ leBytes 1 0xE4 ++ leBytes 1 0 ++ leBytes 1 0 ++ leBytes 134 0, by decide +kernel⟩,
   ⟨{ dev := { alive := true, host := { linkUp := true }, sec := { conn := 3, sess := [{ id := 0x10001 }, { id := 0x20001 }, { id := 0x30001 }, { id := 0x40001 }] } } }, leBytes 1 0x12 ++ leBytes 1 0xE4 ++ leBytes 1 0 ++ leBytes 1 0 ++ leBytes 134 0, by decide +kernel⟩,
   ⟨{ dev := { alive := true, host := { linkUp := true }, sec := { conn := 3, sess := [{ id := 0x10001 }] } } }, 0x10001, leBytes 1 0x12 ++ leBytes 1 0xE5 ++ leBytes 1 0 ++ leBytes 1 0 ++ leBytes 48 0, by decide +kernel⟩,
   ⟨{ dev := { alive := true, host := { linkUp := true }, sec := { conn := 3, sess := [{ id := 0x10001, done := true }] } } }, 0x10001, leBytes 1 0x12 ++ leBytes 1 0xE8 ++ leBytes 1 0 ++ leBytes 1 0 ++ leBytes 0 0, by decide +kernel⟩,
   ⟨{ dev := { alive := true, host := { linkUp := true }, sec := { conn := 3, sess := [{ id := 0x10001, done := true }] } } }, 0x10001, leBytes 1 0x12 ++ leBytes 1 0xEC ++ leBytes 1 0 ++ leBytes 1 0 ++ leBytes 0 0, by decide +kernel⟩⟩

theorem witness_TelemetryAndManagementPortsAct :
    (∃ (s : Machine.State) (r : TelRec) (rs : List TelRec) (p : Nat), (s.dev.alive = true) ∧ (s.dev.tel.fresh = r :: rs) ∧ p < 4 ∧ ((s.dev.path p).up = true) ∧ (s.dev.carries p r.rank = true) ∧ queueBytes (s.dev.path p).queue + r.len ≤ pathCap p) ∧
    (∃ (s : Machine.State) (r : TelRec) (rs : List TelRec) (p : Nat), (s.dev.alive = true) ∧ (s.dev.tel.fresh = r :: rs) ∧ p < 4 ∧ ((s.dev.path p).up = false)) ∧
    (∃ (s : Machine.State) (code i : Nat) (on : Bool) (detail : Nat), (s.dev.alive = true) ∧ (alarmExists code i = true) ∧ (Tab.get {} s.dev.tel.alarms (alarmKey code i)).set ≠ on) ∧
    (∃ (s : Machine.State) (k : Nat) (a : Alarm), (s.dev.alive = true) ∧ (s.dev.alarmDue = some (k, a))) ∧
    (∃ (s : Machine.State) (b : Fin 16) (ds : DmaDesc) (x : Nat) (rest : List (DmaDesc × Nat)), (s.dev.alive = true) ∧ ((Tab.get {} s.dev.host.dma b).recv = (ds, x) :: rest) ∧ ((Tab.get {} s.dev.host.dma b).run = none) ∧ (s.dev.oldestRecv x = true) ∧ ((bufRecs ds.len (s.dev.path 0).queue).1 ≠ [])) ∧
    (∃ (s : Machine.State), (s.dev.alive = true)) ∧
    (∃ (s : Machine.State), (s.dev.alive = true) ∧ ((s.dev.path 3).up = false)) ∧
    (∃ (s : Machine.State), (s.dev.alive = true) ∧ ((s.dev.path 0).up = false) ∧ (s.dev.pciePath = true)) ∧
    (∃ (s : Machine.State) (p : Fin 4), (s.dev.alive = true) ∧ (p.val = 1 ∨ p.val = 3)) ∧
    (∃ (s : Machine.State), (s.dev.alive = true) ∧ (s.dev.pciePath = false)) ∧
    (∃ (s : Machine.State) (passive busOff : Bool), (s.dev.alive = true) ∧ s.dev.canNode ≠ 0 ∧ s.dev.dict.nmt ≠ .off) ∧
    (∃ (s : Machine.State) (fr : List Byte), (s.dev.alive = true) ∧ (s.dev.pwr.boardErr = 0) ∧ (etherType fr = 0x8808) ∧ (be fr 14 2 = 1) ∧ (fr.take 6 = s.dev.mgmtMac) ∧ (0 < be fr 16 2)) ∧
    (∃ (s : Machine.State) (fr : List Byte), (s.dev.alive = true) ∧ (s.dev.pwr.boardErr = 0) ∧ (etherType fr = 0x8808) ∧ (be fr 14 2 = 1) ∧ (fr.take 6 = s.dev.mgmtMac) ∧ (be fr 16 2 = 0)) ∧
    (∃ (s : Machine.State) (fr : List Byte), (s.dev.alive = true) ∧ (s.dev.pwr.boardErr = 0) ∧ (s.dev.fwReady = true) ∧ (s.dev.helds = false) ∧ (s.dev.mgmtHeld = false) ∧ (s.dev.dict.mgmtQ = []) ∧ (etherType fr = 0x0806) ∧ (be fr 14 2 = 1) ∧ (be fr 16 2 = 0x0800) ∧ (be fr 20 2 = 1) ∧ (zeros (leBytes 4 (s.dev.dvalN 0x2030 1 0)).reverse = false) ∧ (sub fr 38 4 = (leBytes 4 (s.dev.dvalN 0x2030 1 0)).reverse)) ∧
    (∃ (s : Machine.State) (n : Fin 32) (k : Fin 8) (fr : List Byte) (mark : Option (Nat × Option TStamp)), (s.dev.alive = true) ∧ (s.dev.fwReady = true) ∧ (s.dev.helds = false) ∧ (s.dev.ptpOk n fr mark.isSome = true) ∧ (s.dev.flow.sysUsed + cellsOf (fr.length + 4) ≤ s.dev.rdN (gntBase + 8)) ∧ ((s.dev.enqueue n k { pkt := none, len := fr.length + 4, cells := cellsOf (fr.length + 4), data := fr, mark := mark }).2 = true)) :=
  ⟨⟨{ dev := { alive := true, tel := { fresh := [{ rank := 2, typ := 1, source := 9, seq := 4 }], path := [(1, { up := true })] } } }, { rank := 2, typ := 1, source := 9, seq := 4 }, [], 1, by decide +kernel⟩,
   ⟨{ dev := { alive := true, tel := { fresh := [{ rank := 2, typ := 1, source := 9, seq := 4 }] } } }, { rank := 2, typ := 1, source := 9, seq := 4 }, [], 3, by decide +kernel⟩,
   ⟨{ dev := { alive := true, tel := { path := [(1, { up := true })] } } }, 9, 31, true, 5, by decide +kernel⟩,
   ⟨{ dev := { alive := true, tel := { alarms := [(alarmKey 9 2, { set := true, count := 1, seq := 7, pend := 8 })], path := [(3, { up := true })] } } }, alarmKey 9 2, { set := true, count := 1, seq := 7, pend := 8 }, by decide +kernel⟩,
   ⟨{ dev := { alive := true, host := { dma := [(2, { active := true, recv := [({ dmaDesc [] with len := 4096 }, 0)] })] }, tel := { path := [(0, { up := true, queue := [{ rank := 2, typ := 1, source := 9, seq := 4 }] })] } } }, 2, { dmaDesc [] with len := 4096 }, 0, [], by decide +kernel⟩,
   ⟨{ dev := { alive := true, tel := { path := [(1, { up := true, notOffered := 3 })] } } }, by decide +kernel⟩,
   ⟨{ dev := { alive := true } }, by decide +kernel⟩,
   ⟨{ dev := { alive := true, host := { bme := [(0, true)], dma := [(2, { active := true, recv := [(dmaDesc [], 0)] })] } } }, by decide +kernel⟩,
   ⟨{ dev := { alive := true, tel := { path := [(1, { up := true })] } } }, 1, by decide +kernel⟩,
   ⟨{ dev := { alive := true, tel := { path := [(0, { up := true })] } } }, by decide +kernel⟩,
   ⟨{ dev := { alive := true, regs := [(glbBase + 4, 2), (pwrReg 0x1C, 0x200A0)], dict := { nmt := .operational } } }, true, true, by decide +kernel⟩,
   ⟨{ dev := { alive := true } }, ({} : Dev).mgmtMac ++ leBytes 6 0 ++ [0x88, 0x08] ++ [0, 1] ++ [0, 3], by decide +kernel⟩,
   ⟨{ dev := { alive := true, dict := { mgmtPause := 99, mgmtQ := [.usbStall] } } }, ({} : Dev).mgmtMac ++ leBytes 6 0 ++ [0x88, 0x08] ++ [0, 1] ++ [0, 0], by decide +kernel⟩,
   ⟨{ dev := { alive := true, regs := [(glbBase + 4, 2)], dict := { vals := [(dkey 0x2030 1 0, [2, 0, 0, 10])] } } }, leBytes 6 0 ++ leBytes 6 9 ++ [8, 6] ++ [0, 1, 8, 0, 6, 4, 0, 1] ++ leBytes 6 9 ++ [10, 0, 0, 1] ++ leBytes 6 0 ++ [10, 0, 0, 2], by decide +kernel⟩,
   ⟨{ dev := { alive := true, regs := [(glbBase + 4, 2), (gntBase + 8, 1000), (gntQ 0 3 0x14, 1000), (gntQ 0 3 0x18, 1000), (prt 0 0, 3)], flow := { ports := [(0, { link := true })] } } }, 0, 3, leBytes 60 1, none, by decide +kernel⟩⟩
end

section
/-! What a register access of chapter 14 does when its requester reaches the device: first the gate of each command, then one lemma for each
branch of a read or a write, and from these the obligations O17 and O18. -/

namespace Sys2Proof

/-! ### The commands of a register access are their gated operations -/

theorem Machine.exec_registerWrite_gated (who : Req) (off len : Nat) (data : BitVec 64) (s : Machine.State) :
    Machine.exec (.registerWrite who off len data) s = Machine.live s (fun d => d.writeDo who (off / 4 * 4)
      (!isTenCtrl off || decide (data.toNat = 2 ^ 31)) (fun d => d.registerWrite who off len data.toNat)) := rfl

theorem Machine.exec_pairLowRead_open {s : Machine.State} {who : Req} (ha : s.dev.alive = true) (ho : s.dev.reqOpen who = true) (off len : Nat) :
    Machine.exec (.pairLowRead who off len) s = .next { s with dev := s.dev.pairLowRead who off len } := by
  have harm : Machine.exec (.pairLowRead who off len) s = Machine.live s (fun d => d.hostDo who (fun d => d.pairLowRead who off len)) := rfl
  rw [harm, Machine.live_next ha, Dev.hostDo_open ho]

theorem Machine.exec_pairLowWrite_open {s : Machine.State} {who : Req} {off : Nat} (ha : s.dev.alive = true) (hm : s.dev.mayWrite who off = true)
    (data : Word) : Machine.exec (.pairLowWrite who off data) s = .next { s with dev := s.dev.pairLowWrite who off data.toNat } := by
  have harm : Machine.exec (.pairLowWrite who off data) s =
      Machine.live s (fun d => d.writeDo who off true (fun d => d.pairLowWrite who off data.toNat)) := rfl
  rw [harm, Machine.live_next ha, Dev.writeDo_open hm]

theorem Machine.exec_pairHighWrite_open {s : Machine.State} {who : Req} {off : Nat} (ha : s.dev.alive = true) (hm : s.dev.mayWrite who off = true)
    (data : Word) : Machine.exec (.pairHighWrite who off data) s = .next { s with dev := s.dev.pairHighWrite who off data.toNat } := by
  have harm : Machine.exec (.pairHighWrite who off data) s =
      Machine.live s (fun d => d.writeDo who off true (fun d => d.pairHighWrite who off data.toNat)) := rfl
  rw [harm, Machine.live_next ha, Dev.writeDo_open hm]

theorem Machine.exec_readTimeout_open {s : Machine.State} {fn : Option Nat} (ha : s.dev.alive = true) (ho : s.dev.fnOpen fn = true) (w : Bool) :
    Machine.exec (.readTimeout fn w) s = .next { s with dev := s.dev.readTimeout fn w } := by
  have harm : Machine.exec (.readTimeout fn w) s = Machine.live s (fun d => d.fnDo fn (fun d => d.readTimeout fn w)) := rfl
  rw [harm, Machine.live_next ha, Dev.fnDo_open ho]

/-- A function's write passes no permission table (R408 is about firmware). -/
theorem Machine.exec_registerWrite_fn {s : Machine.State} {fn : Option Nat} (ha : s.dev.alive = true) (ho : s.dev.fnOpen fn = true)
    (off len : Nat) (data : BitVec 64) :
    Machine.exec (.registerWrite (fnReq fn) off len data) s = .next { s with dev := s.dev.registerWrite (fnReq fn) off len data.toNat } := by
  rw [Machine.exec_registerWrite_gated, Machine.live_next ha,
    Dev.writeDo_host (by rw [Dev.reqOpen_fnReq, ho]) (by cases fn <;> rfl)]

/-- R408: a component's write of a register that the table does not name, whatever it writes. -/
theorem Machine.exec_registerWrite_fault {s : Machine.State} {c off : Nat} (ha : s.dev.alive = true) (ho : s.dev.reqOpen (.fw c) = true)
    (hm : s.dev.fwMayWrite c (off / 4 * 4) = false) (len : Nat) (data : BitVec 64) :
    Machine.exec (.registerWrite (.fw c) off len data) s = .next { s with dev := s.dev.protFault c (off / 4 * 4) } := by
  rw [Machine.exec_registerWrite_gated, Machine.live_next ha, Dev.writeDo_fault ho hm]

/-- Firmware addresses PF BAR0's map word by word (log 50). -/
theorem Dev.place_fw {d : Dev} {c off k : Nat} (h : d.place (.fw c) off = .reg k) : k = off / 4 * 4 ∧ k < 0x10000000 := by
  simp only [Dev.place, placeOf] at h
  split at h
  · cases h
  · split at h
    · cases h
      exact ⟨rfl, by omega⟩
    · cases h

/-- Where the permission table names a whole register, not LOCK of a TEN_CTRL alone, the write it permits is the access itself. -/
theorem Machine.exec_registerWrite_open {s : Machine.State} {who : Req} {off k : Nat} (ha : s.dev.alive = true) (hm : s.dev.mayWrite who off = true)
    (h4 : off % 4 = 0) (hp : s.dev.place who off = .reg k) (hk : k < 0x10000000 → k % 4 = 0 → isTenCtrl k = false) (len : Nat) (data : BitVec 64) :
    Machine.exec (.registerWrite who off len data) s = .next { s with dev := s.dev.registerWrite who off len data.toNat } := by
  have hoff : off / 4 * 4 = off := by omega
  rw [Machine.exec_registerWrite_gated, Machine.live_next ha, hoff]
  cases who with
  | fw c =>
    obtain ⟨hkey, hlt⟩ := Dev.place_fw hp
    have hten : isTenCtrl off = false := by rw [← hoff, ← hkey]; exact hk hlt (by omega)
    rw [hten, Bool.not_false, Bool.true_or, Dev.writeDo_open hm]
  | _ =>
    have hopen := hm
    simp only [Dev.mayWrite, Bool.and_true] at hopen
    rw [Dev.writeDo_host hopen rfl]

/-! ### Registers with a place of their own in the map -/

/-- The row of TEN_CTRL is one whose write is a command of its own. -/
theorem regRow_tenCtrl {k : Nat} (hlo : tenBase ≤ k) (hhi : k < memBase) (hk : k % 0x20000 = 4) : (regRow k).any (·.own) = true := by
  have hrows : ∀ c : Fin 32, (regRow (tenReg c 4)).any (·.own) = true := by decide +kernel
  unfold tenBase at hlo
  unfold memBase at hhi
  have hc : tenReg ((k - 0x800000) / 0x20000) 4 = k := by unfold tenReg tenBase; omega
  have hown := hrows ⟨(k - 0x800000) / 0x20000, by omega⟩
  rwa [hc] at hown

theorem isTenCtrl_of_lt {k : Nat} (h : k < tenBase) : isTenCtrl k = false := by
  unfold isTenCtrl
  simp [Nat.not_le.mpr h]

/-- The locks' registers, and the word below them, are no low word of a pair. -/
theorem isPairLow_lock {k : Nat} (hlo : lckBase ≤ k + 4) (hhi : k < lckBase + 0x400) : isPairLow k = false := by
  unfold lckBase at hlo hhi
  have hmod : k % 0x10000000 = k := by omega
  unfold isPairLow
  simp only [hmod, mbxBase, tmuBase, prtBase, parBase, clsBase, flwBase, gntBase, treBase, visBase, hudBase, tenBase, memBase, pwrBase,
    Bool.or_eq_false_iff, Bool.and_eq_false_iff, decide_eq_false_iff_not]
  omega

theorem isPairLow_saveBase (c : Fin 32) : isPairLow (tenReg c 0x18) = true := by
  revert c
  decide +kernel

/-! ### Reads (R9 to R11, R165) -/

/-- R9: the high word of the pair at `k` goes to the requester's read latch, as `Dev.pairLowRead` puts it there. -/
def Dev.latchHigh (d : Dev) (who : Req) (k : Nat) : Dev :=
  { d with host := { d.host with rlatch := Tab.set 0 d.host.rlatch (latchKey who (k + 4)) (d.regValue who (k + 4)) } }

theorem Dev.latchHigh_rlatch (d : Dev) (who : Req) (k : Nat) :
    Tab.get 0 (d.latchHigh who k).host.rlatch (latchKey who (k + 4)) = d.regValue who (k + 4) := Tab.get_set_same _ _ _ _

/-- R9: a read that includes byte 0 of a pair's low word latches the high word. -/
theorem Dev.pairLowRead_lowWord {d : Dev} {who : Req} {off len k : Nat} (h4 : off % 4 = 0) (h0 : 0 < len) (hl : len ≤ 4)
    (hp : d.place who off = .reg k) (hk : isPairLow k = true) :
    d.pairLowRead who off len =
      (d.latchHigh who k).emit (.read who 0 (d.regValue who k % 2 ^ (8 * len))) := by
  have hlen : len ≠ 8 := by omega
  simp [Dev.pairLowRead, d.crosses_word who off len h4 h0 hl, hp, hk, hlen, h4, Dev.latchHigh]

/-- R9: a read of the high word returns the requester's latch. -/
theorem Dev.pairLowRead_highWord {d : Dev} {who : Req} {off len k : Nat} (h4 : off % 4 = 0) (h0 : 0 < len) (hl : len ≤ 4)
    (hp : d.place who off = .reg k) (hk : isPairLow k = false) (hk4 : isPairLow (k - 4) = true) :
    d.pairLowRead who off len = d.emit (.read who 0 (Tab.get 0 d.host.rlatch (latchKey who k) % 2 ^ (8 * len))) := by
  simp [Dev.pairLowRead, d.crosses_word who off len h4 h0 hl, hp, hk, hk4, h4]

/-- R11: a read of a register of one word is what the read of its word does, cut to the addressed bytes. -/
theorem Dev.pairLowRead_oneWord {d : Dev} {who : Req} {off len k : Nat} (h4 : off % 4 = 0) (h0 : 0 < len) (hl : len ≤ 4)
    (hp : d.place who off = .reg k) (hk : isPairLow k = false) (hk4 : isPairLow (k - 4) = false) :
    d.pairLowRead who off len = (d.readWord who k).1.emit (.read who 0 ((d.readWord who k).2 % 2 ^ (8 * len))) := by
  have hlen : len ≠ 8 := by omega
  simp [Dev.pairLowRead, d.crosses_word who off len h4 h0 hl, hp, hk, hk4, hlen, h4]

/-- R10, R13: an aligned 64-bit access to a pair crosses no boundary. -/
theorem Dev.crosses_pair {d : Dev} {who : Req} {off k : Nat} (h8 : off % 8 = 0) (hp : d.place who off = .reg k) (hk : isPairLow k = true) :
    d.crosses who off 8 = false := by
  simp [Dev.crosses, h8, hp, hk]

theorem Dev.pairLowRead_bothWords {d : Dev} {who : Req} {off k : Nat} (h8 : off % 8 = 0) (hp : d.place who off = .reg k) (hk : isPairLow k = true) :
    d.pairLowRead who off 8 =
      (d.latchHigh who k).emit (.read who 0 (d.regValue who k + 2 ^ 32 * d.regValue who (k + 4))) := by
  simp [Dev.pairLowRead, Dev.crosses_pair h8 hp hk, hp, hk, Dev.latchHigh]

theorem Dev.readWord_of_not_acts {k : Nat} (h : readActs k = false) (d : Dev) (who : Req) : d.readWord who k = (d, d.regValue who k) := by
  simp only [readActs, Bool.or_eq_false_iff, Bool.and_eq_false_iff, decide_eq_false_iff_not] at h
  obtain ⟨⟨hlck, hpq⟩, htmu⟩ := h
  unfold Dev.readWord
  rw [if_neg (by tauto), if_neg (by tauto), if_neg htmu]

theorem Dev.readWord_lock (d : Dev) (who : Req) (n : Fin 256) : d.readWord who (lckBase + 4 * n) = d.lckAcqWord who n := by
  unfold Dev.readWord
  rw [if_pos (by omega)]
  congr 1
  omega

/-- R165: an acquire of a free lock takes it and answers GRANTED. -/
theorem Dev.lckAcqWord_free {d : Dev} {who : Req} {n : Nat} (h : (d.lckAt n).held = false) :
    (d.lckAcqWord who n).1.lckAt n = { d.lckAt n with held := true, owner := who.owner, ptr := (who.port + 1) % 84 } ∧
    (d.lckAcqWord who n).2 = ((d.lckAcqWord who n).1.lckAt n).word true ∧ (d.lckAcqWord who n).1.out = d.out := by
  have hset : ∀ l : Lck, (d.lckSet n l).lckAt n = l := fun l => Tab.get_set_same _ _ _ _
  simp [Dev.lckAcqWord, Dev.lckAcquire, h, hset]

/-! ### Writes (R4, R9, R355, R359) -/

theorem byteMask_word {off : Nat} (h4 : off % 4 = 0) : byteMask off 4 = 2 ^ 32 - 1 := by
  simp [byteMask, h4]

/-- R359: a write to a request page that takes requests puts the addressed bytes in place. -/
theorem Dev.registerWrite_page {d : Dev} {who : Req} {off len k : Nat} (hc : d.crosses who off len = false) (hp : d.place who off = .reg k)
    (hr : (regRow k).isSome = true) (hlo : mbxBase ≤ k % 0x10000000) (hhi : k % 0x10000000 < mbxBase + 0x1000)
    (hfree : (d.mbxAt (if k < 0x10000000 then none else some (k / 0x10000000 - 1))).pending = false) (data : Nat) :
    d.registerWrite who off len data = d.wrN k (d.rdN k - Nat.land (d.rdN k) (byteMask off len) +
      Nat.land (data * 2 ^ (8 * (off % 4))) (byteMask off len)) := by
  obtain ⟨r, hr⟩ := Option.isSome_iff_exists.mp hr
  simp [Dev.registerWrite, hc, hp, hr, hlo, hhi, hfree]

/-- R359: a write to the request page while PENDING is 1 is turned away with cause 9. -/
theorem Dev.registerWrite_busyPage {d : Dev} {who : Req} {off len k : Nat} (hc : d.crosses who off len = false) (hp : d.place who off = .reg k)
    (hr : (regRow k).isSome = true) (hlo : mbxBase ≤ k % 0x10000000) (hhi : k % 0x10000000 < mbxBase + 0x1000)
    (hbusy : (d.mbxAt (if k < 0x10000000 then none else some (k / 0x10000000 - 1))).pending = true) (data : Nat) :
    d.registerWrite who off len data = d.accFail who off len true 9 := by
  obtain ⟨r, hr⟩ := Option.isSome_iff_exists.mp hr
  simp [Dev.registerWrite, hc, hp, hr, hlo, hhi, hbusy]

theorem Dev.registerWrite_crossing {d : Dev} {who : Req} {off len : Nat} (hc : d.crosses who off len = true) (data : Nat) :
    d.registerWrite who off len data = d.accFail who off len true 2 := by
  simp [Dev.registerWrite, hc]

/-- R355: a 32-bit write of a register without a field to change is turned away with cause 4. -/
theorem Dev.registerWrite_readOnly {d : Dev} {who : Req} {off k : Nat} {r : RegRow} (h4 : off % 4 = 0) (hp : d.place who off = .reg k)
    (hr : regRow k = some r) (hw : r.writable = false) (hk : isPairLow k = false) (hk4 : isPairLow (k - 4) = false)
    (hmbx : ¬(mbxBase ≤ k % 0x10000000 ∧ k % 0x10000000 < mbxBase + 0x1000)) (hmsix : ¬(msixBase ≤ k % 0x10000000 ∧ k % 0x10000000 < pbaBase))
    (data : Nat) : d.registerWrite who off 4 data = d.accFail who off 4 true 4 := by
  have hc := d.crosses_word who off 4 h4 (by omega) (by omega)
  simp only [Dev.registerWrite, hc, hp, hr, hk, hk4, hw, if_neg hmbx, if_neg hmsix, if_false, if_true, Bool.false_eq_true, Nat.lt_irrefl]

/-- The parts of `PlainReg`, by name. -/
theorem PlainReg.parts {k : Nat} {r : RegRow} (h : PlainReg k r = true) :
    regRow k = some r ∧ ¬(mbxBase ≤ k % 0x10000000 ∧ k % 0x10000000 < mbxBase + 0x1000) ∧
    ¬(msixBase ≤ k % 0x10000000 ∧ k % 0x10000000 < pbaBase) ∧ isPairLow k = false ∧ isPairLow (k - 4) = false ∧ r.own = false ∧
    r.writable = true ∧ r.rwl = 0 ∧ ¬(pqBase ≤ k ∧ k < catBase ∧ 0x20 ≤ k % 0x100) ∧ isEventReg (k - 4) = false ∧ r.base ≠ catBase + 0x40C := by
  simpa [PlainReg, and_assoc, or_assoc, imp_iff_not_or] using h

/-- A plain register is no TEN_CTRL, whose write is a command of its own. -/
theorem PlainReg.not_tenCtrl {k : Nat} {r : RegRow} (h : PlainReg k r = true) : ¬(tenBase ≤ k ∧ k < memBase ∧ k % 0x20000 = 4) := by
  rintro ⟨hlo, hhi, hk⟩
  obtain ⟨hr, -, -, -, -, hown, -⟩ := PlainReg.parts h
  have hrow := regRow_tenCtrl hlo hhi hk
  rw [hr, Option.any_some, hown] at hrow
  exact Bool.false_ne_true hrow

theorem PlainReg.isTenCtrl_eq_false {k : Nat} {r : RegRow} (h : PlainReg k r = true) (h4 : k % 4 = 0) : isTenCtrl k = false := by
  have hten := PlainReg.not_tenCtrl h
  simp only [isTenCtrl, Bool.and_eq_false_iff, decide_eq_false_iff_not]
  omega

/-- R4: a 32-bit write of a plain register. -/
theorem Dev.registerWrite_plain {d : Dev} {who : Req} {off k : Nat} {r : RegRow} (h4 : off % 4 = 0) (hp : d.place who off = .reg k)
    (h : PlainReg k r = true) (data : Nat) : d.registerWrite who off 4 data = d.plainWrite r k m32 data := by
  have hc := d.crosses_word who off 4 h4 (by omega) (by omega)
  have hten := PlainReg.not_tenCtrl h
  obtain ⟨hr, hmbx, hmsix, hk, hk4, hown, hw, hrwl, hpq, -, -⟩ := PlainReg.parts h
  simp only [Dev.registerWrite, hc, hp, hr, hk, hk4, hw, hown, hrwl, if_neg hmbx, if_neg hmsix, if_neg hten, if_neg hpq, if_false,
    Bool.false_eq_true, Bool.true_eq_false, Nat.lt_irrefl, ne_eq, not_true_eq_false]

/-- R4, R6: what a plain write leaves in a register that is no enable register and no ring's event register. -/
theorem Dev.rdN_plainWrite (d : Dev) {r : RegRow} {k : Nat} (he : isEventReg (k - 4) = false) (hb : r.base ≠ catBase + 0x40C) (mask data : Nat) :
    (d.plainWrite r k mask data).rdN k =
      (let v := d.rdN k - Nat.land (d.rdN k) (Nat.land r.rw mask) + Nat.land data (Nat.land r.rw mask)
       v - Nat.land v (Nat.land (Nat.land r.w1c mask) data)) % 2 ^ 32 := by
  simp [Dev.plainWrite, he, hb]

/-- R9: the low word of a pair that the requester may write goes to its latch. -/
theorem Dev.pairLowWrite_stages {d : Dev} {who : Req} {off k : Nat} (hp : d.place who off = .reg k) (hk : isPairLow k = true)
    (hc : d.pairCause who k = none) (data : Nat) : d.pairLowWrite who off data = d.stageLow who k data := by
  simp [Dev.pairLowWrite, hp, hk, hc]

/-- R9: the high word of TEN_SAVEBASE takes the pair. -/
theorem Dev.pairHighWrite_saveBase {d : Dev} {who : Req} {off : Nat} {c : Fin 32} (hp : d.place who off = .reg (tenReg c 0x1C))
    (hc : d.pairCause who (tenReg c 0x18) = none) (data : Nat) :
    d.pairHighWrite who off data =
      (d.wrN (tenReg c 0x18) (Tab.get 0 d.host.wlatch (latchKey who (tenReg c 0x18)) / 16384 * 16384)).wrN (tenReg c 0x1C) (data % 256) := by
  have hlow : tenReg c 0x1C - 4 = tenReg c 0x18 := by unfold tenReg; omega
  have hhigh : tenReg c 0x18 + 4 = tenReg c 0x1C := by unfold tenReg; omega
  have hin : (tenBase ≤ tenReg c 0x18 ∧ tenReg c 0x18 < memBase) ∧ tenReg c 0x18 % 0x20000 = 0x18 := by
    unfold tenReg tenBase memBase
    omega
  simp [Dev.pairHighWrite, hp, hlow, hhigh, isPairLow_saveBase, hc, Dev.pairTake, hin]

/-! ### Accesses that are counted (R355, R356) -/

/-- A cause that is not logged writes only the registers of GLB that count it. -/
theorem Dev.rd_accFail_other {d : Dev} {fn : Option Nat} {k : Nat} (hk : 0x20 ≤ k % 0x10000000) {cause : Nat}
    (hcause : ¬(cause = 1 ∨ cause = 2 ∨ cause = 5)) (off len : Nat) (w : Bool) : (d.accFail (fnReq fn) off len w cause).rd k = d.rd k := by
  have hbase : fnBase fn % 0x10000000 = 0 := by
    cases fn <;> simp [fnBase, vfBase]
  have hne : ∀ o, o < 0x20 → k ≠ fnBase fn + glbBase + o := by
    rintro o ho rfl
    unfold glbBase at hk
    omega
  have herr : (d.accErr fn off (byteEn off len) w cause).rd k = d.rd k := by
    unfold Dev.accErr
    dsimp only
    cases fn with
    | none => rw [Dev.rd_event_other _ _ (by unfold glbBase; omega), Dev.rd_wrN_other _ _ (hne _ (by omega)),
        Dev.rd_wrN_other _ _ (hne _ (by omega)), Dev.rd_count_other _ _ (hne _ (by omega))]
    | some n => rw [Dev.rd_wrN_other _ _ (hne _ (by omega)), Dev.rd_wrN_other _ _ (hne _ (by omega)),
        Dev.rd_count_other _ _ (hne _ (by omega))]
  simpa [Dev.accFail, fnReq_fn, hcause] using herr

/-- R356: GLB_TOCNT of the function counts an access that does not complete. -/
theorem Dev.rdN_readTimeout (d : Dev) (fn : Option Nat) (w : Bool) :
    (d.readTimeout fn w).rdN (fnBase fn + glbBase + 0x20) = stick32 (d.rdN (fnBase fn + glbBase + 0x20) + 1) := by
  have hev : ∀ e : Dev, (e.event (glbBase + 0x0C) 1).rdN (fnBase fn + glbBase + 0x20) = e.rdN (fnBase fn + glbBase + 0x20) :=
    fun e => Dev.rdN_event_other e 1 (by unfold glbBase; omega)
  unfold Dev.readTimeout
  cases fn <;> cases w <;> simp [hev]

/-- R356: the PF's GLB_EVENT shows it. -/
theorem Dev.readTimeout_event (d : Dev) (w : Bool) : wbit ((d.readTimeout none w).rd (glbBase + 0x0C)) 1 = true := by
  have hset := (d.count (fnBase none + glbBase + 0x20) 1).event_set (glbBase + 0x0C) 1 (by omega)
  unfold Dev.readTimeout
  cases w <;> simpa using hset

/-- R356: the read itself ends as Completer Abort. -/
theorem Dev.readTimeout_aborts (d : Dev) (fn : Option Nat) : (d.readTimeout fn false).out.head? = some (.read (fnReq fn) 2 0) := by
  simp [Dev.readTimeout, Dev.emit]

/-! ### The obligations -/

/-- Settles O17: each clause is the branch of a read or of a write that its hypotheses select. -/
theorem registerAccessesTakeEffect : Obligations.RegisterAccessesTakeEffect := by
  unfold Obligations.RegisterAccessesTakeEffect
  refine ⟨?pageWrite, ?plainWrite, ?lowRead, ?plainRead, ?highRead, ?lowWrite, ?highWrite, ?timeout, ?lockRead, ?pairRead, ?fault⟩
  case pageWrite =>
    intro s who off data k ha hm h4 hp hr hlo hhi hfree
    have hten : k < 0x10000000 → k % 4 = 0 → isTenCtrl k = false :=
      fun _ _ => isTenCtrl_of_lt (by unfold mbxBase at hhi; unfold tenBase; omega)
    refine ⟨_, Machine.exec_registerWrite_open ha hm h4 hp hten 4 data, ?_⟩
    have hold := s.dev.rdN_lt k
    rw [Dev.registerWrite_page (s.dev.crosses_word who off 4 h4 (by omega) (by omega)) hp hr hlo hhi hfree, Dev.rdN_wrN_same, byteMask_word h4, h4]
    have hland : ∀ x : Nat, Nat.land x (2 ^ 32 - 1) = x % 2 ^ 32 := fun x => Nat.and_two_pow_sub_one_eq_mod x 32
    rw [hland, hland]
    omega
  case plainWrite =>
    intro s who off data k r ha hm h4 hp hplain
    obtain ⟨-, -, -, -, -, -, -, -, -, hev, hbase⟩ := PlainReg.parts hplain
    refine ⟨_, Machine.exec_registerWrite_open ha hm h4 hp (fun _ => PlainReg.isTenCtrl_eq_false hplain) 4 data, ?_⟩
    rw [Dev.registerWrite_plain h4 hp hplain, Dev.rdN_plainWrite _ hev hbase]
  case lowRead =>
    intro s who off len k ha ho h4 h0 hl hp hk
    refine ⟨_, Machine.exec_pairLowRead_open ha ho off len, ?_⟩
    rw [Dev.pairLowRead_lowWord h4 h0 hl hp hk]
    exact ⟨Dev.latchHigh_rlatch _ who k, rfl⟩
  case plainRead =>
    intro s who off len k ha ho h4 h0 hl hp hk hk4 hacts
    refine ⟨_, Machine.exec_pairLowRead_open ha ho off len, ?_⟩
    rw [Dev.pairLowRead_oneWord h4 h0 hl hp hk hk4, Dev.readWord_of_not_acts hacts]
  case highRead =>
    intro s who off len k ha ho h4 h0 hl hp hk hk4
    refine ⟨_, Machine.exec_pairLowRead_open ha ho off len, ?_⟩
    rw [Dev.pairLowRead_highWord h4 h0 hl hp hk hk4]
  case lowWrite =>
    intro s who off k data ha hm hp hk hc
    refine ⟨_, Machine.exec_pairLowWrite_open ha hm data, ?_⟩
    rw [Dev.pairLowWrite_stages hp hk hc]
    exact ⟨(Tab.get_set_same _ _ _ _).trans (Nat.mod_eq_of_lt data.isLt), rfl⟩
  case highWrite =>
    intro s who off c data ha hm hp hc
    refine ⟨_, Machine.exec_pairHighWrite_open ha hm data, ?_⟩
    rw [Dev.pairHighWrite_saveBase hp hc, Dev.rdN_wrN_other _ _ (by unfold tenReg; omega), Dev.rdN_wrN_same, Dev.rdN_wrN_same]
    exact ⟨rfl, by omega⟩
  case timeout =>
    intro s fn w ha ho _
    refine ⟨_, Machine.exec_readTimeout_open ha ho w, Dev.rdN_readTimeout _ fn w, ?_, ?_⟩
    · rintro rfl
      exact Dev.readTimeout_event _ w
    · rintro rfl
      exact Dev.readTimeout_aborts _ fn
  case lockRead =>
    intro s who off len n ha ho h4 h0 hl hp hfree
    refine ⟨_, Machine.exec_pairLowRead_open ha ho off len, ?_⟩
    obtain ⟨hlock, hword, hout⟩ := Dev.lckAcqWord_free (who := who) hfree
    rw [Dev.pairLowRead_oneWord h4 h0 hl hp (isPairLow_lock (by omega) (by omega)) (isPairLow_lock (by omega) (by omega)), Dev.readWord_lock, hword]
    exact ⟨hlock, congrArg _ hout⟩
  case pairRead =>
    intro s who off k ha ho h8 hp hk
    refine ⟨_, Machine.exec_pairLowRead_open ha ho off 8, ?_⟩
    rw [Dev.pairLowRead_bothWords h8 hp hk]
    exact ⟨rfl, rfl⟩
  case fault =>
    intro s c off len data ha ho hm
    exact ⟨_, Machine.exec_registerWrite_fault ha ho hm len data, rfl⟩

/-- Settles O18: the causes 2, 4 and 9 are turned away by one operation, which counts and names the cause; cause 9 writes no register of a
request page. -/
theorem accessesTurnedAwayAreCounted : Obligations.AccessesTurnedAwayAreCounted := by
  unfold Obligations.AccessesTurnedAwayAreCounted
  refine ⟨?crossing, ?readOnly, ?busyPage⟩
  case crossing =>
    intro s fn off len data ha ho _ hc
    refine ⟨_, Machine.exec_registerWrite_fn ha ho off len data, ?_⟩
    rw [Dev.registerWrite_crossing hc]
    exact Dev.accFail_counts _ fn off len true 2 (by omega)
  case readOnly =>
    intro s fn off data k r ha ho _ h4 hp hr hw hk hk4 hmbx hmsix
    refine ⟨_, Machine.exec_registerWrite_fn ha ho off 4 data, ?_⟩
    rw [Dev.registerWrite_readOnly h4 hp hr hw hk hk4 hmbx hmsix]
    exact Dev.accFail_counts _ fn off 4 true 4 (by omega)
  case busyPage =>
    intro s fn off len data k ha ho _ hc hp hr hlo hhi hbusy
    refine ⟨_, Machine.exec_registerWrite_fn ha ho off len data, ?_⟩
    rw [Dev.registerWrite_busyPage hc hp hr hlo hhi hbusy]
    obtain ⟨hcount, hcause⟩ := Dev.accFail_counts s.dev fn off len true 9 (by omega)
    exact ⟨hcount, hcause, Dev.rd_accFail_other (by unfold mbxBase at hlo; omega) (by omega) off len true⟩

end Sys2Proof
end

section
/-! Steps 9 and 10 of chapter 9: what an update of a packet or of an egress queue leaves, then one lemma for each branch of the verdict, the
release and the enqueue, and from these the obligation O33. -/

namespace Sys2Proof

/-! ### The commands of the steps are their operations -/

theorem Machine.exec_visorVerdict_alive {s : Machine.State} (ha : s.dev.alive = true) :
    Machine.exec .visorVerdict s = .next { s with dev := s.dev.visorVerdict } :=
  Machine.live_next ha (fun d => d.visorVerdict)

theorem Machine.exec_taggedQuietExpiry_alive {s : Machine.State} (ha : s.dev.alive = true) (k : Fin 64) :
    Machine.exec (.taggedQuietExpiry k) s = .next { s with dev := s.dev.taggedQuiet k } :=
  Machine.live_next ha (fun d => d.taggedQuiet k)

theorem Machine.exec_reorderRelease_alive {s : Machine.State} (ha : s.dev.alive = true) (n : Fin 32) :
    Machine.exec (.reorderRelease n) s = .next { s with dev := s.dev.reorderRelease n } :=
  Machine.live_next ha (fun d => d.reorderRelease n)

theorem Machine.exec_egressEnqueue_alive {s : Machine.State} (ha : s.dev.alive = true) :
    Machine.exec .egressEnqueue s = .next { s with dev := s.dev.egressEnqueue } :=
  Machine.live_next ha (fun d => d.egressEnqueue)

/-! ### Packets -/

theorem Dev.pkt_of_plane {d e : Dev} (h : e.plane = d.plane) (i : Nat) : e.pkt i = d.pkt i := by
  unfold Dev.pkt
  rw [Dev.flow_eq, h, ← Dev.flow_eq]

@[simp] theorem Dev.pkt_pktSet_same (d : Dev) (i : Nat) (p : Pkt) : (d.pktSet i p).pkt i = p := by
  simp [Dev.pkt, Dev.pktSet, Tab.get, Tab.find_put_same]

theorem Dev.pkt_pktSet_other (d : Dev) {i j : Nat} (p : Pkt) (h : i ≠ j) : (d.pktSet j p).pkt i = d.pkt i := by
  simp [Dev.pkt, Dev.pktSet, Tab.get, Tab.find_put_other _ _ h]

@[simp] theorem Dev.pkt_pktUpd_same (d : Dev) (i : Nat) (f : Pkt → Pkt) : (d.pktUpd i f).pkt i = f (d.pkt i) :=
  Dev.pkt_pktSet_same d i _

theorem Dev.pkt_pktUpd_other (d : Dev) {i j : Nat} (f : Pkt → Pkt) (h : i ≠ j) : (d.pktUpd j f).pkt i = d.pkt i :=
  Dev.pkt_pktSet_other d _ h

@[simp] theorem Dev.pkt_nextHand (d : Dev) (i : Nat) : d.nextHand.pkt i = d.pkt i := rfl
@[simp] theorem Dev.pkt_portSet (d : Dev) (n : Nat) (x : PortSt) (i : Nat) : (d.portSet n x).pkt i = d.pkt i := rfl
@[simp] theorem Dev.pkt_verUpd (d : Dev) (v : Nat) (f : Nat → Nat) (i : Nat) : (d.verUpd v f).pkt i = d.pkt i := rfl
@[simp] theorem Dev.pkt_alarmSet (d : Dev) (code inst : Nat) (set : Bool) (detail : Nat) (force : Bool) (i : Nat) :
    (d.alarmSet code inst set detail force).pkt i = d.pkt i := Dev.pkt_of_plane (by simp) i
@[simp] theorem Dev.pkt_visCount (d : Dev) (k i : Nat) : (d.visCount k).pkt i = d.pkt i := Dev.pkt_of_plane (by simp) i
@[simp] theorem Dev.pkt_prtCount (d : Dev) (n k x i : Nat) : (d.prtCount n k x).pkt i = d.pkt i := Dev.pkt_of_plane (by simp) i

/-! ### The verdict and the tag alarm (R240, R480) -/

theorem Dev.visorVerdict_pkt {d : Dev} {i : Nat} (h : d.firstHand .scored = some i) :
    d.visorVerdict.pkt i = { d.pkt i with act := (d.verdictOf (d.pkt i)).1, cls := (d.verdictOf (d.pkt i)).2,
                                          tagged := decide ((d.verdictOf (d.pkt i)).1 = 1), stage := .verdict } := by
  have htag : ∀ (e : Dev) (t : Tab Nat), ({ e with flow := { e.flow with tagAt := t } } : Dev).pkt i = e.pkt i := fun _ _ => rfl
  unfold Dev.visorVerdict
  rw [h]
  dsimp only
  (repeat' split) <;> simp [htag]

theorem Dev.alarmSet_tagAt (d : Dev) (code inst : Nat) (set : Bool) (detail : Nat) (force : Bool) :
    (d.alarmSet code inst set detail force).flow.tagAt = d.flow.tagAt := by
  simp [Dev.flow_eq]

/-- R480: an alarm that was already in the state asked for keeps it, and any other takes it. -/
theorem Dev.alarmSet_state (d : Dev) (code inst : Nat) (set : Bool) (detail : Nat) (force : Bool) :
    (Tab.get {} (d.alarmSet code inst set detail force).tel.alarms (alarmKey code inst)).set = set := by
  unfold Dev.alarmSet
  dsimp only
  split
  · rename_i hsame
    exact hsame.1
  · rw [Tab.get_set_same]

theorem Dev.taggedQuiet_ends (d : Dev) (k : Nat) :
    Tab.find (d.taggedQuiet k).flow.tagAt k = none ∧ (Tab.get {} (d.taggedQuiet k).tel.alarms (alarmKey 10 k)).set = false := by
  refine ⟨?_, Dev.alarmSet_state _ 10 k false 0 false⟩
  unfold Dev.taggedQuiet
  rw [Dev.alarmSet_tagAt]
  exact Tab.find_del_same _ _

/-! ### Inline pairs and port counters (R176, R197) -/

theorem Dev.rdN_count64_other (d : Dev) {k m : Nat} (x : Nat) (hlo : m ≠ k) (hhi : m ≠ k + 4) : (d.count64 k x).rdN m = d.rdN m := by
  unfold Dev.count64 Dev.wr64
  rw [Dev.rdN_wrN_other _ _ hhi, Dev.rdN_wrN_other _ _ hlo]

/-- The registers that say how ports are paired: PRT_CFG of each port and SPLIT of each block. -/
theorem Dev.paired_congr {d e : Dev} (hcfg : ∀ n, e.prtCfg n = d.prtCfg n) (hsplit : ∀ b, e.split b = d.split b) (m : Nat) :
    e.paired m = d.paired m := by
  have hexists : ∀ n, e.portExists n = d.portExists n := fun n => by
    unfold Dev.portExists
    rw [hsplit]
  simp only [Dev.paired, Dev.partner, Dev.portMode, Dev.portSpeed, hcfg, hexists]
  rfl

theorem Dev.paired_of_regs {d e : Dev} (h : e.regs = d.regs) (m : Nat) : e.paired m = d.paired m :=
  Dev.paired_congr (fun _ => Dev.rdN_of_regs h _) (fun b => by unfold Dev.split; rw [Dev.rdN_of_regs h]) m

/-- The counters of a port stand apart from PRT_CFG and SPLIT. -/
theorem Dev.paired_prtCount (d : Dev) (n : Nat) {k : Nat} (x : Nat) (hk : k < 32) (m : Nat) : (d.prtCount n k x).paired m = d.paired m := by
  apply Dev.paired_congr
  · intro j
    exact Dev.rdN_count64_other d x (by unfold prt prtBase; omega) (by unfold prt prtBase; omega)
  · intro b
    unfold Dev.split
    rw [Dev.prtCount, Dev.rdN_count64_other d x (by unfold prt prtBase; omega) (by unfold prt prtBase; omega)]

/-! ### The release (R176, R225) -/

/-- R176: is a packet handled as dropped at its release, its port INLINE without a pair? -/
def Dev.unpaired (d : Dev) (p : Pkt) : Bool := decide (p.mode = 1) && !d.paired p.port

theorem Dev.unpaired_iff (d : Dev) (p : Pkt) : d.unpaired p = true ↔ p.mode = 1 ∧ d.paired p.port = false := by
  simp [Dev.unpaired]

/-- What the release leaves in a packet that was `q`; `lost`: handled as dropped. -/
structure Pkt.ReleasedFrom (p q : Pkt) (lost : Bool) : Prop where
  released : p.released = true
  stage : p.stage = .released
  data : p.data = q.data
  mode : p.mode = q.mode
  port : p.port = q.port
  act : p.act = if lost then 3 else q.act

/-- The turn of port n in the reorder stage: the packet with its next number, its verdict known. -/
def Dev.releaseTurn (d : Dev) (n : Nat) : Option Nat :=
  d.pktFind (fun p => decide (p.port = n) && decide (p.seq = (d.portAt n).relSeq) && decide (p.stage = .verdict))

@[simp] theorem Dev.pktSet_regs (d : Dev) (j : Nat) (p : Pkt) : (d.pktSet j p).regs = d.regs := rfl
@[simp] theorem Dev.pktUpd_regs (d : Dev) (j : Nat) (f : Pkt → Pkt) : (d.pktUpd j f).regs = d.regs := rfl
@[simp] theorem Dev.portSet_regs (d : Dev) (n : Nat) (x : PortSt) : (d.portSet n x).regs = d.regs := rfl
@[simp] theorem Dev.nextHand_regs (d : Dev) : d.nextHand.regs = d.regs := rfl
@[simp] theorem Dev.verUpd_regs (d : Dev) (v : Nat) (f : Nat → Nat) : (d.verUpd v f).regs = d.regs := rfl

theorem Dev.settle_regs (d : Dev) (j : Nat) : (d.settle j).regs = d.regs := by
  unfold Dev.settle Dev.leaveVer
  dsimp only
  (repeat' split) <;> simp

theorem Dev.pkt_settle_other (d : Dev) {i j : Nat} (h : i ≠ j) : (d.settle j).pkt i = d.pkt i := by
  unfold Dev.settle Dev.leaveVer
  dsimp only
  (repeat' split) <;> simp [Dev.pkt_pktSet_other _ _ h]

/-- R304: the Huddle's note writes one field of its packet. -/
theorem Dev.pkt_noteFileable_same (d : Dev) (j : Nat) : ∃ f, (d.noteFileable j).pkt j = { d.pkt j with fileAt := f } := by
  unfold Dev.noteFileable
  rw [Dev.pkt_pktUpd_same]
  split
  · exact ⟨_, rfl⟩
  · exact ⟨(d.pkt j).fileAt, rfl⟩

/-- R223: leaving the version writes one field of its packet. -/
theorem Dev.pkt_settle_same (d : Dev) (j : Nat) : ∃ b, (d.settle j).pkt j = { d.pkt j with inVer := b } := by
  unfold Dev.settle Dev.leaveVer
  dsimp only
  split
  · split
    · exact ⟨false, by simp⟩
    · exact ⟨(d.pkt j).inVer, rfl⟩
  · exact ⟨(d.pkt j).inVer, rfl⟩

theorem Dev.release1_none {d : Dev} {n : Nat} (h : d.releaseTurn n = none) : d.release1 n = (d, false) := by
  unfold Dev.releaseTurn at h
  simp [Dev.release1, h]

/-- The device in which a released packet is rewritten: an unpaired one has been counted as dropped. -/
def Dev.countUnpaired (d : Dev) (q : Pkt) : Dev := if d.unpaired q then d.prtCount q.port 15 1 else d

@[simp] theorem Dev.pkt_countUnpaired (d : Dev) (q : Pkt) (i : Nat) : (d.countUnpaired q).pkt i = d.pkt i := by
  unfold Dev.countUnpaired
  split
  · exact Dev.pkt_prtCount d _ _ _ i
  · rfl

@[simp] theorem Dev.paired_countUnpaired (d : Dev) (q : Pkt) (m : Nat) : (d.countUnpaired q).paired m = d.paired m := by
  unfold Dev.countUnpaired
  split
  · exact Dev.paired_prtCount d _ 1 (by omega) m
  · rfl

/-- One release rewrites packet j; then the Huddle's note and the version's count of it follow. -/
theorem Dev.release1_some {d : Dev} {n j : Nat} (h : d.releaseTurn n = some j) :
    ∃ x p, d.release1 n = (((((d.countUnpaired (d.pkt j)).nextHand.portSet n x).pktSet j p).noteFileable j).settle j, true) ∧
      p.ReleasedFrom (d.pkt j) (d.unpaired (d.pkt j)) := by
  unfold Dev.releaseTurn at h
  simp only [Dev.release1, h]
  refine ⟨_, _, rfl, rfl, rfl, ?data, ?mode, ?port, ?act⟩
  case act =>
    unfold Dev.unpaired
    dsimp only
    split <;> rfl
  all_goals
    dsimp only
    split <;> rfl

theorem Dev.release1_pkt_other {d : Dev} {n i j : Nat} (h : d.releaseTurn n = some j) (hij : i ≠ j) : (d.release1 n).1.pkt i = d.pkt i := by
  obtain ⟨x, p, heq, -⟩ := Dev.release1_some h
  rw [heq, Dev.pkt_settle_other _ hij, Dev.noteFileable, Dev.pkt_pktUpd_other _ _ hij, Dev.pkt_pktSet_other _ _ hij,
    Dev.pkt_portSet, Dev.pkt_nextHand, Dev.pkt_countUnpaired]

theorem Dev.release1_pkt_same {d : Dev} {n j : Nat} (h : d.releaseTurn n = some j) :
    ((d.release1 n).1.pkt j).ReleasedFrom (d.pkt j) (d.unpaired (d.pkt j)) := by
  obtain ⟨x, p, heq, hp⟩ := Dev.release1_some h
  rw [heq]
  obtain ⟨b, hsettle⟩ := Dev.pkt_settle_same ((((d.countUnpaired (d.pkt j)).nextHand.portSet n x).pktSet j p).noteFileable j) j
  obtain ⟨f, hnote⟩ := Dev.pkt_noteFileable_same (((d.countUnpaired (d.pkt j)).nextHand.portSet n x).pktSet j p) j
  rw [hsettle, hnote, Dev.pkt_pktSet_same]
  exact ⟨hp.released, hp.stage, hp.data, hp.mode, hp.port, hp.act⟩

theorem Dev.release1_unpaired (d : Dev) (n : Nat) (q : Pkt) : (d.release1 n).1.unpaired q = d.unpaired q := by
  unfold Dev.unpaired
  cases h : d.releaseTurn n with
  | none => rw [Dev.release1_none h]
  | some j =>
    obtain ⟨x, p, heq, -⟩ := Dev.release1_some h
    have hregs : (d.release1 n).1.regs = (d.countUnpaired (d.pkt j)).regs := by
      rw [heq, Dev.settle_regs, Dev.noteFileable, Dev.pktUpd_regs, Dev.pktSet_regs, Dev.portSet_regs, Dev.nextHand_regs]
    rw [Dev.paired_of_regs hregs, Dev.paired_countUnpaired]

/-- R225: a further release leaves a released packet as it is, but for the Huddle's note and the version's count. -/
theorem Dev.release1_keeps {d : Dev} {i : Nat} {q : Pkt} (h : (d.pkt i).ReleasedFrom q (d.unpaired q)) (n : Nat) :
    ((d.release1 n).1.pkt i).ReleasedFrom q (d.unpaired q) := by
  cases hturn : d.releaseTurn n with
  | none => rwa [Dev.release1_none hturn]
  | some j =>
    by_cases hij : i = j
    · subst hij
      have hagain := Dev.release1_pkt_same hturn
      have hlost : d.unpaired (d.pkt i) = d.unpaired q := by
        unfold Dev.unpaired
        rw [h.mode, h.port]
      rw [hlost] at hagain
      refine ⟨hagain.released, hagain.stage, hagain.data.trans h.data, hagain.mode.trans h.mode, hagain.port.trans h.port, ?_⟩
      rw [hagain.act, h.act]
      split <;> rfl
    · rwa [Dev.release1_pkt_other hturn hij]

theorem Dev.releasePort_succ (d : Dev) (n k : Nat) :
    d.releasePort n (k + 1) = if (d.release1 n).2 then (d.release1 n).1.releasePort n k else (d.release1 n).1 := by
  rw [Dev.releasePort]
  split <;> rename_i heq <;> simp [heq]

theorem Dev.releasePort_keeps {d : Dev} {i : Nat} {q : Pkt} (h : (d.pkt i).ReleasedFrom q (d.unpaired q)) (n fuel : Nat) :
    ((d.releasePort n fuel).pkt i).ReleasedFrom q (d.unpaired q) := by
  induction fuel generalizing d with
  | zero => exact h
  | succ k ih =>
    have hfirst := Dev.release1_keeps h n
    rw [Dev.releasePort_succ]
    split
    · rw [← Dev.release1_unpaired d n] at hfirst ⊢
      exact ih hfirst
    · exact hfirst

/-- R225: the packet whose turn has come is released, whatever follows it. -/
theorem Dev.reorderRelease_pkt {d : Dev} {n i : Nat} (h : d.releaseTurn n = some i) :
    ((d.reorderRelease n).pkt i).ReleasedFrom (d.pkt i) (d.unpaired (d.pkt i)) := by
  have hfirst := Dev.release1_pkt_same h
  have hdone : (d.release1 n).2 = true := by
    obtain ⟨x, p, heq, -⟩ := Dev.release1_some h
    rw [heq]
  rw [Dev.reorderRelease, Dev.releasePort_succ, if_pos hdone]
  rw [← Dev.release1_unpaired d n] at hfirst ⊢
  exact Dev.releasePort_keeps hfirst n 1023

/-! ### The enqueue (R245) -/

@[simp] theorem Dev.egAt_egSet_same (d : Dev) (n q : Nat) (x : EgQ) : (d.egSet n q x).egAt n q = x := Tab.get_set_same _ _ _ _

theorem Dev.qRefresh_items (d : Dev) (n q : Nat) : ((d.qRefresh n q).egAt n q).items = (d.egAt n q).items := by
  simp [Dev.qRefresh]

theorem Dev.qRefresh_occ (d : Dev) (n q : Nat) : ((d.qRefresh n q).egAt n q).occ = (d.egAt n q).occ := by
  unfold EgQ.occ
  rw [Dev.qRefresh_items]

theorem Dev.qRefresh_cutOk (d : Dev) (n q : Nat) (p : Pkt) : (d.qRefresh n q).cutOk n q p = d.cutOk n q p := by
  unfold Dev.cutOk
  rw [Dev.qRefresh_items]
  rfl

theorem Dev.qRefresh_mayTx (d : Dev) (n q m : Nat) : (d.qRefresh n q).mayTx m = d.mayTx m := rfl
theorem Dev.qRefresh_rdN (d : Dev) (n q k : Nat) : (d.qRefresh n q).rdN k = d.rdN k := rfl
theorem Dev.qRefresh_pkt (d : Dev) (n q i : Nat) : (d.qRefresh n q).pkt i = d.pkt i := rfl

/-- R245: does queue q of port n take the item: its port transmits, QMAX holds its cells and, when it is marked, YMAX is not reached? -/
structure Dev.Admits (d : Dev) (n q : Nat) (it : EgItem) : Prop where
  mayTx : d.mayTx n = true
  fits : (d.egAt n q).occ + it.cells ≤ d.rdN (gntQ n q 0x14)
  markedFits : it.marked = false ∨ (d.egAt n q).occ < d.rdN (gntQ n q 0x18)

/-- R245: an item of packet i that its queue takes stands at its end, with the cut-through judged at the enqueue (log 128). -/
theorem Dev.enqueue_admitted {d : Dev} {n q i : Nat} {it : EgItem} (hi : it.pkt = some i) (h : d.Admits n q it) :
    (d.enqueue n q it).2 = true ∧
    ((d.enqueue n q it).1.egAt n q).items = (d.egAt n q).items ++ [{ it with cut := d.cutOk n q (d.pkt i) }] ∧
    (d.enqueue n q it).1.pkt i = { d.pkt i with refs := (d.pkt i).refs + 1 } := by
  obtain ⟨htx, hfits, hmark⟩ := h
  have hroom : ¬d.rdN (gntQ n q 0x14) < (d.egAt n q).occ + it.cells := by omega
  have hymax : ¬(it.marked = true ∧ d.rdN (gntQ n q 0x18) ≤ (d.egAt n q).occ) := by
    rintro ⟨hm, hle⟩
    rcases hmark with hno | hlt
    · exact absurd (hno.symm.trans hm) Bool.false_ne_true
    · omega
  have hpkt : ∀ (e : Dev) (x : EgQ), (e.egSet n q x).pkt i = e.pkt i := fun _ _ => rfl
  have heg : ∀ (e : Dev) (f : Pkt → Pkt), (e.pktUpd i f).egAt n q = e.egAt n q := fun _ _ => rfl
  simp [Dev.enqueue, hi, Dev.qRefresh_mayTx, Dev.qRefresh_rdN, Dev.qRefresh_occ, Dev.qRefresh_pkt, Dev.qRefresh_cutOk, Dev.qRefresh_items,
    htx, hroom, hymax, hpkt, heg]

/-! ### The action of the packet released first (R33, R241 to R243) -/

/-- A packet at the end of step 10: what is left of it stands in the egress queues. -/
def Dev.stepOver (d : Dev) (i : Nat) : Dev := d.pktSet i { d.pkt i with stage := .gone }

theorem Dev.stepOver_pkt (d : Dev) (i : Nat) : (d.stepOver i).pkt i = { d.pkt i with stage := .gone } := Dev.pkt_pktSet_same _ _ _

theorem Dev.stepOver_admits {d : Dev} {n q : Nat} {it : EgItem} (h : d.Admits n q it) (i : Nat) : (d.stepOver i).Admits n q it :=
  ⟨h.mayTx, h.fits, h.markedFits⟩

/-- What a queue that takes an item of the packet at step 10 leaves. -/
theorem Dev.stepOver_enqueue {d : Dev} {n q i : Nat} {it : EgItem} (hi : it.pkt = some i) (h : d.Admits n q it) :
    ((d.stepOver i).enqueue n q it).2 = true ∧
    (((d.stepOver i).enqueue n q it).1.egAt n q).items = (d.egAt n q).items ++ [{ it with cut := d.cutOk n q (d.pkt i) }] ∧
    ((d.stepOver i).enqueue n q it).1.pkt i = { d.pkt i with stage := .gone, refs := (d.pkt i).refs + 1 } := by
  obtain ⟨htaken, hitems, hpkt⟩ := Dev.enqueue_admitted hi (Dev.stepOver_admits h i)
  rw [Dev.stepOver_pkt] at hitems hpkt
  exact ⟨htaken, hitems, hpkt⟩

/-- R242: an untagged packet is sent as it came. -/
theorem Dev.tagBytes_untagged {d : Dev} {p : Pkt} (h : p.tagged = false) (n : Nat) : d.tagBytes p n = (0, false) := by
  simp [Dev.tagBytes, h]

theorem Dev.taggedData_untagged {d : Dev} {p : Pkt} (h : p.tagged = false) (n : Nat) : d.taggedData p n = p.data := by
  simp [Dev.taggedData, h]

section Step10

variable {d : Dev} {i : Nat} (hfirst : d.firstHand .released = some i) (heof : (d.pkt i).eof ≠ some false) (hsynth : (d.pkt i).synth = false)
include hfirst heof hsynth

/-- R241: a forwarded or rate-classed packet of an INLINE port goes to its partner's queue. -/
theorem Dev.egressEnqueue_inline (hmode : (d.pkt i).mode = 1) (hact : (d.pkt i).act = 0 ∨ (d.pkt i).act = 4) (htag : (d.pkt i).tagged = false) :
    d.egressEnqueue = ((d.stepOver i).enqueue (d.partner (d.pkt i).port) (d.pkt i).cls
      { pkt := some i, len := (d.pkt i).len, cells := (d.pkt i).cells, marked := (d.pkt i).marked, data := (d.pkt i).data }).1 := by
  have hpunt : (d.pkt i).act ≠ 5 := by omega
  have hdrop : (d.pkt i).act ≠ 3 := by omega
  have hmirror : (d.pkt i).act ≠ 2 := by omega
  simp [Dev.egressEnqueue, hfirst, heof, hsynth, hmode, hpunt, hdrop, hmirror, Dev.tagBytes_untagged htag, Dev.taggedData_untagged htag,
    Dev.stepOver]

/-- R33, R241: a dropped packet, and one that the mode of its port forwards nowhere, only goes. -/
theorem Dev.egressEnqueue_gone (hact : (d.pkt i).act = 3 ∨ ((d.pkt i).mode ≠ 1 ∧ (d.pkt i).act ≠ 2 ∧ (d.pkt i).act ≠ 5))
    (htag : (decide ((d.pkt i).mode = 1) && (d.tagBytes (d.pkt i) (d.partner (d.pkt i).port)).2) = false) :
    d.egressEnqueue = d.stepOver i := by
  have hpunt : (d.pkt i).act ≠ 5 := by omega
  have hmirror : (d.pkt i).act ≠ 2 := by omega
  by_cases hmode : (d.pkt i).mode = 1
  · have hdrop : (d.pkt i).act = 3 := by omega
    have hshown : (d.tagBytes (d.pkt i) (d.partner (d.pkt i).port)).2 = false := by simpa [hmode] using htag
    simp [Dev.egressEnqueue, hfirst, heof, hsynth, hmode, hdrop, hshown, Dev.stepOver]
  · simp [Dev.egressEnqueue, hfirst, heof, hsynth, hmode, hpunt, hmirror, Dev.stepOver]

/-- R243: a mirrored packet of a port of another mode leaves a copy alone. -/
theorem Dev.egressEnqueue_mirror (hact : (d.pkt i).act = 2) (hmode : (d.pkt i).mode ≠ 1) :
    d.egressEnqueue = (d.stepOver i).mirrorCopy i (bits (d.pkt i).res 151 144) (d.pkt i).data := by
  simp [Dev.egressEnqueue, hfirst, heof, hsynth, hmode, hact, Dev.stepOver]

end Step10

/-- R243: a whole copy without a tag that its destination may send and takes. -/
theorem Dev.mirrorCopy_whole {d : Dev} {i m n q : Nat} {fr : List Byte} {it : EgItem}
    (hn : bits (d.rdN (visBase + 0x2000 + 0x10 * m)) 4 0 = n) (hq : bits (d.rdN (visBase + 0x2000 + 0x10 * m)) 7 5 = q)
    (hen : bit (d.rdN (visBase + 0x2000 + 0x10 * m)) 8 = true) (htag : bit (d.rdN (visBase + 0x2000 + 0x10 * m)) 9 = false)
    (hwhole : bits (d.rdN (visBase + 0x2000 + 0x10 * m)) 31 16 = 0) (htap : d.portMode n ≠ 2 ∨ n ≠ (d.pkt i).port)
    (hit : it = { pkt := some i, len := fr.length + 4, cells := (d.pkt i).cells, marked := (d.pkt i).marked, data := fr })
    (htaken : (d.enqueue n q it).2 = true) : d.mirrorCopy i m fr = (d.enqueue n q it).1 := by
  have hsend : (decide (d.portMode n = 2) && decide (n = (d.pkt i).port)) = false := by
    simpa [imp_iff_not_or] using htap
  subst hit
  simp [Dev.mirrorCopy, hn, hq, hen, htag, hwhole, hsend, htaken]

/-! ### The obligation -/

/-- Settles O33: each clause is the branch of its command that its hypotheses select; the release is an induction over the packets that the
same command releases after the one in turn. -/
theorem verdictsAndTheReorderStage : Obligations.VerdictsAndTheReorderStage := by
  unfold Obligations.VerdictsAndTheReorderStage
  refine ⟨?verdict, ?tagAlarm, ?release, ?inline, ?gone, ?mirror⟩
  case verdict =>
    intro s i ha hfirst
    exact ⟨_, Machine.exec_visorVerdict_alive ha, Dev.visorVerdict_pkt hfirst⟩
  case tagAlarm =>
    intro s k ha
    exact ⟨_, Machine.exec_taggedQuietExpiry_alive ha k, Dev.taggedQuiet_ends s.dev k⟩
  case release =>
    intro s n i ha hturn
    have hrel := Dev.reorderRelease_pkt (d := s.dev) (n := n) hturn
    refine ⟨_, Machine.exec_reorderRelease_alive ha n, hrel.released, hrel.stage, hrel.data, hrel.act.trans ?_⟩
    simp only [Dev.unpaired_iff]
  case inline =>
    intro s i ha hfirst heof hsynth hmode hact htag hmark htx hfits
    refine ⟨_, Machine.exec_egressEnqueue_alive ha, ?_⟩
    dsimp only
    rw [Dev.egressEnqueue_inline hfirst heof hsynth hmode hact htag]
    exact (Dev.stepOver_enqueue rfl ⟨htx, hfits, hmark⟩).2
  case gone =>
    intro s i ha hfirst heof hsynth hact htag
    refine ⟨_, Machine.exec_egressEnqueue_alive ha, ?_⟩
    rw [Dev.egressEnqueue_gone hfirst heof hsynth hact htag, Dev.stepOver]
  case mirror =>
    intro s i n q ha hfirst heof hsynth hact hmode hn hq hen htag hwhole htap htx hfits hmark
    refine ⟨_, Machine.exec_egressEnqueue_alive ha, ?_⟩
    obtain ⟨htaken, hleft⟩ := Dev.stepOver_enqueue (i := i)
      (it := { pkt := some i, len := (s.dev.pkt i).data.length + 4, cells := (s.dev.pkt i).cells, data := (s.dev.pkt i).data })
      rfl ⟨htx, hfits, .inl rfl⟩
    have hport : s.dev.portMode n ≠ 2 ∨ n ≠ ((s.dev.stepOver i).pkt i).port := by rwa [Dev.stepOver_pkt]
    dsimp only
    rw [Dev.egressEnqueue_mirror hfirst heof hsynth hact hmode,
      Dev.mirrorCopy_whole (d := s.dev.stepOver i) hn hq hen htag hwhole hport (by rw [Dev.stepOver_pkt, hmark]) htaken]
    exact hleft

end Sys2Proof
end

section
/-! A PASS from its issue to its committed drain, the array faults that restart it and the clock steps of its die: what each operation of
the array unit leaves in the record of its core, in core store and in the core's registers, and from these the obligation O43. -/

namespace Sys2Proof

/-! ### The commands of the array unit are their operations -/

theorem Machine.exec_pass_alive {s : Machine.State} (ha : s.dev.alive = true) (c : Fin 32) (ecc : Ecc) :
    Machine.exec (.pass c ecc) s = .next { s with dev := s.dev.doPass c ecc } :=
  Machine.live_next ha (fun d => d.doPass c ecc)

theorem Machine.exec_swap_alive {s : Machine.State} (ha : s.dev.alive = true) (c : Fin 32) (ecc : Ecc) :
    Machine.exec (.swap c ecc) s = .next { s with dev := s.dev.tileChange c false ecc } :=
  Machine.live_next ha (fun d => d.tileChange c false ecc)

theorem Machine.exec_front_alive {s : Machine.State} (ha : s.dev.alive = true) (c : Fin 32) (ecc : Ecc) :
    Machine.exec (.front c ecc) s = .next { s with dev := s.dev.tileChange c true ecc } :=
  Machine.live_next ha (fun d => d.tileChange c true ecc)

theorem Machine.exec_bankExchange_alive {s : Machine.State} (ha : s.dev.alive = true) (c : Fin 32) :
    Machine.exec (.bankExchange c) s = .next { s with dev := s.dev.bankExchange c } :=
  Machine.live_next ha (fun d => d.bankExchange c)

theorem Machine.exec_passCommit_alive {s : Machine.State} (ha : s.dev.alive = true) (c : Fin 32) :
    Machine.exec (.passCommit c) s = .next { s with dev := s.dev.passCommit c } :=
  Machine.live_next ha (fun d => d.passCommit c)

theorem Machine.exec_arrayFault_alive {s : Machine.State} (ha : s.dev.alive = true) (c : Fin 32) (arr : Fin 4) (col : Fin 128) (ecc : Bool) :
    Machine.exec (.arrayFault c arr col ecc) s = .next { s with dev := s.dev.arrayFaultBy c arr col ecc } :=
  Machine.live_next ha (fun d => d.arrayFaultBy c arr col ecc)

theorem Machine.exec_emitDrainError_alive {s : Machine.State} (ha : s.dev.alive = true) (c : Fin 32) (arr : Fin 4) :
    Machine.exec (.emitDrainError c arr) s = .next { s with dev := s.dev.emitError c arr } :=
  Machine.live_next ha (fun d => d.emitError c arr)

theorem Machine.exec_tclkStep_alive {s : Machine.State} (ha : s.dev.alive = true) (k : Fin 4) :
    Machine.exec (.tclkStep k) s = .next { s with dev := s.dev.tclkStep k } :=
  Machine.live_next ha (fun d => d.tclkStep k)

/-! ### Core records and memories -/

theorem Dev.coreAt_of_tensor {d e : Dev} (h : e.tensor = d.tensor) (c : Nat) : e.coreAt c = d.coreAt c := by
  unfold Dev.coreAt
  rw [Dev.core_eq, h, ← Dev.core_eq]

theorem Dev.mem_of_tensor {d e : Dev} (h : e.tensor = d.tensor) : e.mem = d.mem := by
  rw [Dev.mem_eq, h, ← Dev.mem_eq]

@[simp] theorem Dev.coreAt_coreSet_same (d : Dev) (c : Nat) (x : Core) : (d.coreSet c x).coreAt c = x := Tab.get_set_same _ _ _ _
@[simp] theorem Dev.coreAt_coreUpd_same (d : Dev) (c : Nat) (f : Core → Core) : (d.coreUpd c f).coreAt c = f (d.coreAt c) :=
  Dev.coreAt_coreSet_same d c _
@[simp] theorem Dev.coreSet_mem (d : Dev) (c : Nat) (x : Core) : (d.coreSet c x).mem = d.mem := rfl
@[simp] theorem Dev.coreUpd_mem (d : Dev) (c : Nat) (f : Core → Core) : (d.coreUpd c f).mem = d.mem := rfl
@[simp] theorem Dev.coreSet_regs (d : Dev) (c : Nat) (x : Core) : (d.coreSet c x).regs = d.regs := rfl
@[simp] theorem Dev.coreUpd_regs (d : Dev) (c : Nat) (f : Core → Core) : (d.coreUpd c f).regs = d.regs := rfl

@[simp] theorem Dev.coreAt_wrN (d : Dev) (k v c : Nat) : (d.wrN k v).coreAt c = d.coreAt c := Dev.coreAt_of_tensor (by simp) c
@[simp] theorem Dev.coreAt_count (d : Dev) (k n c : Nat) : (d.count k n).coreAt c = d.coreAt c := Dev.coreAt_of_tensor (by simp) c
@[simp] theorem Dev.coreAt_event (d : Dev) (k b c : Nat) : (d.event k b).coreAt c = d.coreAt c := Dev.coreAt_of_tensor (by simp) c
@[simp] theorem Dev.coreAt_report (d : Dev) (src code cls p det c : Nat) : (d.report src code cls p det).coreAt c = d.coreAt c :=
  Dev.coreAt_of_tensor (by simp) c
@[simp] theorem Dev.coreAt_eccNote (d : Dev) (c0 : Nat) (e : Ecc) (c : Nat) : (d.eccNote c0 e).coreAt c = d.coreAt c :=
  Dev.coreAt_of_tensor (by simp) c
@[simp] theorem Dev.coreAt_setPc (d : Dev) (c0 : Nat) (v : Int) (c : Nat) : (d.setPc c0 v).coreAt c = d.coreAt c :=
  Dev.coreAt_of_tensor (by simp) c
@[simp] theorem Dev.coreAt_tally (d : Dev) (c0 : Nat) (n : Counts) (c : Nat) : (d.tally c0 n).coreAt c = d.coreAt c :=
  Dev.coreAt_of_tensor (by simp) c
@[simp] theorem Dev.coreAt_unwait (d : Dev) (c0 c : Nat) : (d.unwait c0).coreAt c = d.coreAt c := Dev.coreAt_of_tensor (by simp) c
@[simp] theorem Dev.coreAt_bankStalls (d : Dev) (c0 c : Nat) : (d.bankStalls c0).coreAt c = d.coreAt c := Dev.coreAt_of_tensor (by simp) c
@[simp] theorem Dev.coreAt_csWrite (d : Dev) (c0 a : Nat) (bs : List Byte) (c : Nat) : (d.csWrite c0 a bs).coreAt c = d.coreAt c := rfl

@[simp] theorem Dev.report_mem (d : Dev) (src code cls p det : Nat) : (d.report src code cls p det).mem = d.mem := Dev.mem_of_tensor (by simp)
@[simp] theorem Dev.eccNote_mem (d : Dev) (c : Nat) (e : Ecc) : (d.eccNote c e).mem = d.mem := Dev.mem_of_tensor (by simp)
@[simp] theorem Dev.setPc_mem (d : Dev) (c : Nat) (v : Int) : (d.setPc c v).mem = d.mem := Dev.mem_of_tensor (by simp)
@[simp] theorem Dev.tally_mem (d : Dev) (c : Nat) (n : Counts) : (d.tally c n).mem = d.mem := Dev.mem_of_tensor (by simp)
@[simp] theorem Dev.bankStalls_mem (d : Dev) (c : Nat) : (d.bankStalls c).mem = d.mem := Dev.mem_of_tensor (by simp)

theorem Dev.csNat_of_mem {d e : Dev} (h : e.mem = d.mem) (c a len : Nat) : e.csNat c a len = d.csNat c a len := by
  unfold Dev.csNat Dev.csRead
  rw [h]

theorem Dev.biasBank_of_mem {d e : Dev} (h : e.mem = d.mem) (c x arr : Nat) : e.biasBank c x arr = d.biasBank c x arr := by
  unfold Dev.biasBank
  simp only [Dev.csNat_of_mem h]

/-! ### Fills (R65, R69) -/

theorem Dev.fill_coreAt (d : Dev) (c : Nat) (as : List Nat) : ∃ t, (d.fill c as).coreAt c = { d.coreAt c with arr := t } := by
  induction as generalizing d with
  | nil => exact ⟨_, rfl⟩
  | cons a as ih =>
    rw [Dev.fill]
    split
    · obtain ⟨t, ht⟩ := ih (d.coreSet c { d.coreAt c with arr := Tab.set {} (d.coreAt c).arr a (d.fillTile c ((d.coreAt c).arrAt a) a _ _) })
      exact ⟨t, by rw [ht, Dev.coreAt_coreSet_same]⟩
    · exact ih d

@[simp] theorem Dev.fill_mem (d : Dev) (c : Nat) (as : List Nat) : (d.fill c as).mem = d.mem := by
  induction as generalizing d with
  | nil => rfl
  | cons a as ih =>
    rw [Dev.fill, ih]
    split <;> rfl

@[simp] theorem Dev.fill_regs (d : Dev) (c : Nat) (as : List Nat) : (d.fill c as).regs = d.regs := by
  induction as generalizing d with
  | nil => rfl
  | cons a as ih =>
    rw [Dev.fill, ih]
    split <;> rfl

@[simp] theorem Dev.fill_st (d : Dev) (c : Nat) (as : List Nat) : ((d.fill c as).coreAt c).st = (d.coreAt c).st := by
  obtain ⟨t, ht⟩ := d.fill_coreAt c as
  rw [ht]

@[simp] theorem Dev.fill_run (d : Dev) (c : Nat) (as : List Nat) : ((d.fill c as).coreAt c).run = (d.coreAt c).run := by
  obtain ⟨t, ht⟩ := d.fill_coreAt c as
  rw [ht]

@[simp] theorem Dev.fill_pend (d : Dev) (c : Nat) (as : List Nat) : ((d.fill c as).coreAt c).pend = (d.coreAt c).pend := by
  obtain ⟨t, ht⟩ := d.fill_coreAt c as
  rw [ht]

@[simp] theorem Dev.fill_emit (d : Dev) (c : Nat) (as : List Nat) : ((d.fill c as).coreAt c).emit = (d.coreAt c).emit := by
  obtain ⟨t, ht⟩ := d.fill_coreAt c as
  rw [ht]

/-! ### What stands in core store and what drains to it -/

/-- The memories and the passes of core c that drain. -/
def Dev.drains (d : Dev) (c : Nat) : Mem × List PassRun := (d.mem, (d.coreAt c).emit)

theorem Dev.drains_eq_iff {d e : Dev} {c : Nat} : e.drains c = d.drains c ↔ e.mem = d.mem ∧ (e.coreAt c).emit = (d.coreAt c).emit :=
  Prod.mk_inj

theorem Dev.drains_of_tensor {d e : Dev} (h : e.tensor = d.tensor) (c : Nat) : e.drains c = d.drains c :=
  Dev.drains_eq_iff.mpr ⟨Dev.mem_of_tensor h, by rw [Dev.coreAt_of_tensor h]⟩

theorem Dev.drains_coreSet {d : Dev} {c : Nat} {x : Core} (h : x.emit = (d.coreAt c).emit) : (d.coreSet c x).drains c = d.drains c :=
  Dev.drains_eq_iff.mpr ⟨rfl, by rw [Dev.coreAt_coreSet_same, h]⟩

theorem Dev.drains_fill (d : Dev) (c : Nat) (as : List Nat) : (d.fill c as).drains c = d.drains c :=
  Dev.drains_eq_iff.mpr ⟨d.fill_mem c as, d.fill_emit c as⟩

/-- R152: a record that the Catcher holds back delays a completion and no more. -/
theorem Dev.drains_corePost (d : Dev) (c : Nat) (r : CatRec) (after : Option (Nat × Bool)) : (d.corePost c r after).drains c = d.drains c := by
  have hput : (d.catPut r).drains c = d.drains c := Dev.drains_of_tensor (by simp) c
  unfold Dev.corePost
  dsimp only
  split
  · exact (Dev.drains_coreSet (by rfl)).trans hput
  · cases after with
    | none => exact hput
    | some a => exact (Dev.drains_of_tensor (by simp) c).trans hput

theorem Dev.drains_complete (d : Dev) (c desc pc : Nat) (isPass empty : Bool) : (d.complete c desc pc isPass empty).drains c = d.drains c := by
  unfold Dev.complete
  dsimp only
  split
  · exact Dev.drains_corePost d c _ _
  · split
    · exact Dev.drains_coreSet (by rfl)
    · exact Dev.drains_of_tensor (by simp) c

theorem Dev.drains_tenFail (d : Dev) (c code pc desc : Nat) : (d.tenFail c code pc desc).drains c = d.drains c := by
  unfold Dev.tenFail
  dsimp only
  rw [Dev.drains_of_tensor (Dev.report_tensor _ _ _ _ _ _), Dev.drains_corePost]
  split
  · rfl
  · rw [Dev.drains_of_tensor (Dev.event_tensor _ _ _), Dev.drains_of_tensor (Dev.wrN_tensor _ _ _), Dev.drains_coreSet (by simp),
      Dev.drains_of_tensor (Dev.unwait_tensor _ _)]

theorem Dev.drains_startPass (d : Dev) (c : Nat) (p : PassRun) : (d.startPass c p).drains c = d.drains c := by
  unfold Dev.startPass
  dsimp only
  split
  · rw [Dev.drains_tenFail, Dev.drains_coreSet (by rfl)]
  · split
    · rw [Dev.drains_tenFail, Dev.drains_coreSet (by rfl)]
    · rw [Dev.drains_fill, Dev.drains_coreSet (by rfl)]

theorem Dev.drains_promote (d : Dev) (c : Nat) : (d.promote c).drains c = d.drains c := by
  unfold Dev.promote
  dsimp only
  split
  · rw [Dev.drains_startPass, Dev.drains_coreSet (by rfl)]
  · rfl

/-! ### The registers of a core -/

/-- A report leaves the registers of the TEN blocks. -/
theorem Dev.rd_tenReg_report (d : Dev) (src code p det c off : Nat) {cls : Nat} (hc : cls ≤ 3) :
    (d.report src code cls p det).rd (tenReg c off) = d.rd (tenReg c off) :=
  Dev.rd_report_other d src code cls p det hc (.inr (by unfold tenReg tenBase erlBase; omega))

theorem tenReg_ne {c off off' : Nat} (h : off ≠ off') : tenReg c off ≠ tenReg c off' := by
  unfold tenReg
  omega

/-- R91: what the checks of the core store met writes TEN_EVENT and the counts from TEN_ECCCOR on. -/
theorem Dev.rd_eccNote_other (d : Dev) (c : Nat) (e : Ecc) {off : Nat} (hevent : off ≠ 0x10) (hbelow : off < 0x70) :
    (d.eccNote c e).rd (tenReg c off) = d.rd (tenReg c off) := by
  unfold Dev.eccNote
  split
  · exact Dev.rd_count_other d _ (tenReg_ne (by omega))
  · split
    · rw [Dev.rd_event_other _ _ (tenReg_ne hevent), Dev.rd_count_other _ _ (tenReg_ne (by omega))]
    · rfl

/-- R91: an uncorrectable word counts in TEN_ECCUNC. -/
theorem Dev.rdN_eccNote_uncFetch (d : Dev) (c : Nat) :
    (d.eccNote c .uncFetch).rdN (tenReg c 0x74) = stick32 (d.rdN (tenReg c 0x74) + 1) := by
  have hnote : d.eccNote c .uncFetch = (d.count (tenReg c 0x74) 1).event (tenReg c 0x10) 5 := rfl
  rw [hnote, Dev.rdN_event_other _ _ (tenReg_ne (by omega)), Dev.rdN_count_same]

/-! ### The issue of a descriptor (R96, R98, R99) -/

/-- The parts of `Dev.fetches`, by name. -/
theorem Dev.fetches_parts {d : Dev} {c op desc : Nat} (h : d.fetches c op desc = true) :
    (d.coreAt c).st = .run ∧ (d.coreAt c).cur = none ∧ d.pc c + 64 ≤ csSize ∧ d.csNat c (d.pc c) 64 = desc ∧ bits desc 7 0 = op ∧
    bit desc 10 = false ∧ bits desc 47 12 = 0 ∧ bits desc 9 8 = 0 := by
  simpa [Dev.fetches, and_assoc] using h

/-- A descriptor without BARRIER that fails no check is carried out. -/
theorem Dev.issue_sound {d : Dev} {c op desc : Nat} {ecc : Ecc} (hf : d.fetches c op desc = true) (h0 : 0 < op) (h10 : op ≤ 10)
    (hecc : ecc ≠ .uncFetch) {rsv : Nat → Bool} (hrsv : rsv desc = true) {errs : Nat → Dev → List Nat} (herrs : errs desc (d.fetch c ecc) = [])
    (body : Nat → Nat → Dev → Dev) : d.issue c op ecc false rsv errs body = body desc (d.pc c) (d.fetch c ecc) := by
  obtain ⟨hst, hcur, hpc, hdesc, hop, hbar, hrsv0, hrsv1⟩ := Dev.fetches_parts hf
  have hcurPc : d.curPc c = d.pc c := by simp only [Dev.curPc, hcur]
  have hcurDesc : d.curDesc c = desc := by simp only [Dev.curDesc, hcur, hdesc]
  have hin : ¬csSize < d.pc c + 64 := by omega
  have hknown : ¬(op = 0 ∨ 10 < op) := by omega
  simp [Dev.issue, hst, hcur, hcurPc, hcurDesc, hin, hecc, hop, hknown, hbar, hrsv0, hrsv1, hrsv, herrs, errIf, lowest]

theorem Dev.fetch_coreAt {d : Dev} {c : Nat} (hcur : (d.coreAt c).cur = none) (ecc : Ecc) :
    (d.fetch c ecc).coreAt c = { d.coreAt c with cur := some (d.pc c, d.csNat c (d.pc c) 64) } := by
  unfold Dev.fetch
  rw [hcur]
  dsimp only
  split <;> simp

@[simp] theorem Dev.fetch_mem (d : Dev) (c : Nat) (ecc : Ecc) : (d.fetch c ecc).mem = d.mem := by
  unfold Dev.fetch
  dsimp only
  (repeat' split) <;> simp

/-- R96: TEN_PC goes on by 64, and stays within its 25 bits. -/
theorem Dev.fetch_pc {d : Dev} {c : Nat} (hcur : (d.coreAt c).cur = none) (hpc : d.pc c + 64 ≤ csSize) (ecc : Ecc) :
    (d.fetch c ecc).pc c = d.pc c + 64 := by
  unfold Dev.fetch
  rw [hcur]
  dsimp only
  rw [Dev.setPc, Dev.pc, Dev.rdN_wrN_same]
  unfold wrapI
  unfold csSize at hpc
  omega

/-- A fetch writes TEN_PC and what the check of the fetched word counts. -/
theorem Dev.rd_fetch_other (d : Dev) (c : Nat) (ecc : Ecc) {off : Nat} (hpc : off ≠ 0x0C) (hevent : off ≠ 0x10) (hbelow : off < 0x70) :
    (d.fetch c ecc).rd (tenReg c off) = d.rd (tenReg c off) := by
  unfold Dev.fetch
  split
  · rfl
  · dsimp only
    rw [Dev.setPc, Dev.rd_wrN_other _ _ (tenReg_ne hpc), Dev.rd_of_regs (Dev.coreUpd_regs _ _ _)]
    split
    · exact Dev.rd_eccNote_other d c ecc hevent hbelow
    · rfl

/-- R96: the sequencer goes on to a next fetch that lies in the core store. -/
theorem Dev.nextPc_inside {d : Dev} {c : Nat} (hpc : d.pc c + 64 ≤ csSize) : d.nextPc c = d.coreUpd c (fun x => { x with cur := none }) := by
  have hin : ¬csSize < (d.coreUpd c (fun x => { x with cur := none })).pc c + 64 := by
    rw [Dev.pc, Dev.rdN_of_regs (Dev.coreUpd_regs _ _ _), ← Dev.pc]
    omega
  unfold Dev.nextPc Dev.fetchCheck
  rw [if_neg (fun h => hin h.2)]

/-! ### The issue of a PASS (R53, R96, R100, R112) -/

/-- The PASS as it issues at `pc`: its effective bases and its bias (R53, R101). -/
def Dev.issuedPass (d : Dev) (c desc pc : Nat) : PassRun :=
  { desc := desc, pc := pc, dst := (d.coreAt c).dstEff desc, expdst := (d.coreAt c).expEff desc,
    bank := (passNamed desc).map (fun a => d.biasBank c desc a) }

/-- The counters of the walk that a PASS names; none of an empty context. -/
def Core.walkNow (x : Core) (desc : Nat) : List Nat :=
  match Tab.get none x.walks (passWalk desc) with
  | some w => w.i
  | none => []

/-- R53, R76: the pass at its start, its bias in the working banks. -/
def PassRun.begun (p : PassRun) (x : Core) : PassRun :=
  { p with started := true, tile := 0, held := [], walk0 := x.walkNow p.desc }

/-- R100: the checks of a PASS read the walks, the loop counters and TEN_ARRAYS. -/
theorem passErrs_congr {d e : Dev} {c : Nat} (hwalks : (e.coreAt c).walks = (d.coreAt c).walks) (hctr : (e.coreAt c).ctr = (d.coreAt c).ctr)
    (harrays : e.rd (tenReg c 0x28) = d.rd (tenReg c 0x28)) (desc : Nat) : passErrs c desc e = passErrs c desc d := by
  simp only [passErrs, Core.dstEff, Core.expEff, hwalks, hctr, harrays]

theorem Dev.passErrs_fetch {d : Dev} {c : Nat} (hcur : (d.coreAt c).cur = none) (desc : Nat) (ecc : Ecc) :
    passErrs c desc (d.fetch c ecc) = passErrs c desc d :=
  passErrs_congr (by rw [Dev.fetch_coreAt hcur]) (by rw [Dev.fetch_coreAt hcur])
    (Dev.rd_fetch_other d c ecc (by omega) (by omega) (by omega)) desc

theorem Dev.issuedPass_fetch {d : Dev} {c : Nat} (hcur : (d.coreAt c).cur = none) (desc pc : Nat) (ecc : Ecc) :
    (d.fetch c ecc).issuedPass c desc pc = d.issuedPass c desc pc := by
  simp only [Dev.issuedPass, Dev.fetch_coreAt hcur, Core.dstEff, Core.expEff, Dev.biasBank_of_mem (d.fetch_mem c ecc)]

/-- R103: the link context of a PASS that drains to one is open and ready. -/
def Core.linkOpen (x : Core) (desc : Nat) : Prop :=
  passOfmt desc ≠ 3 ∨ (Tab.get none x.links (passLctx desc)).any (fun l => l.ready) = true

/-- R93: the walk context of a PASS with tiles is loaded. -/
def Core.walkLoaded (x : Core) (desc : Nat) : Prop :=
  passTiles desc = 0 ∨ (Tab.get none x.walks (passWalk desc)).isSome = true

theorem Core.linkBusy_of_linkOpen {x : Core} {desc : Nat} (h : x.linkOpen desc) : x.linkBusy desc = false := by
  unfold Core.linkBusy
  rcases h with hfmt | hready
  · simp [hfmt]
  · cases hl : Tab.get none x.links (passLctx desc) with
    | none => simp
    | some l => simp_all

/-- A pass whose contexts are loaded enters the arrays. -/
theorem Dev.startPass_loaded {d : Dev} {c : Nat} {p : PassRun} (hwalk : (d.coreAt c).walkLoaded p.desc) (hlink : (d.coreAt c).linkOpen p.desc) :
    d.startPass c p = (d.coreSet c { d.coreAt c with run := some (p.begun (d.coreAt c)) }).fill c (upTo 4) := by
  have hw : ¬(0 < passTiles p.desc ∧ Tab.get none (d.coreAt c).walks (passWalk p.desc) = none) := by
    rintro ⟨hpos, hnone⟩
    rcases hwalk with h0 | hsome
    · omega
    · rw [hnone] at hsome
      cases hsome
  have hl : ¬(passOfmt p.desc = 3 ∧ Tab.get none (d.coreAt c).links (passLctx p.desc) = none) := by
    rintro ⟨h3, hnone⟩
    rcases hlink with hfmt | hready
    · exact hfmt h3
    · rw [hnone] at hready
      cases hready
  unfold Dev.startPass
  rw [if_neg hw, if_neg hl]
  rfl

/-- With no pass running the PASS starts. -/
theorem Dev.passTaken_idle {d : Dev} {c desc : Nat} (hrun : (d.coreAt c).run = none) (hwalk : (d.coreAt c).walkLoaded desc)
    (hlink : (d.coreAt c).linkOpen desc) (pc : Nat) :
    ((d.passTaken c desc pc).coreAt c).run = some ((d.issuedPass c desc pc).begun (d.coreAt c)) ∧
    ((d.passTaken c desc pc).coreAt c).st = (d.coreAt c).st ∧ (d.passTaken c desc pc).regs = d.regs := by
  have htaken : d.passTaken c desc pc =
      (d.coreSet c { d.coreAt c with run := some (d.issuedPass c desc pc) }).startPass c (d.issuedPass c desc pc) := by
    simp [Dev.passTaken, hrun, Dev.issuedPass]
  rw [htaken, Dev.startPass_loaded (by rw [Dev.coreAt_coreSet_same]; exact hwalk) (by rw [Dev.coreAt_coreSet_same]; exact hlink)]
  simp [PassRun.begun, Core.walkNow]

/-- Behind a running pass the PASS waits. -/
theorem Dev.passTaken_behind {d : Dev} {c desc : Nat} {p : PassRun} (hrun : (d.coreAt c).run = some p) (pc : Nat) :
    ((d.passTaken c desc pc).coreAt c).run = some p ∧ ((d.passTaken c desc pc).coreAt c).pend = some (d.issuedPass c desc pc) ∧
    ((d.passTaken c desc pc).coreAt c).st = (d.coreAt c).st ∧ (d.passTaken c desc pc).regs = d.regs := by
  have htaken : d.passTaken c desc pc = (d.coreSet c { d.coreAt c with pend := some (d.issuedPass c desc pc) }).fill c (upTo 4) := by
    simp [Dev.passTaken, hrun, Dev.issuedPass]
  simp [htaken, hrun]

theorem Ecc.data_unc {e : Ecc} (h : e.unc = false) : e.data.unc = false := by
  cases e with
  | uncData n => exact h
  | _ => rfl

/-- A sound PASS that is taken leaves its core as the taking does, with the sequencer at the next descriptor. -/
theorem Dev.doPass_taken {d e : Dev} {c desc : Nat} {ecc : Ecc} (hf : d.fetches c 1 desc = true) (hrsv : bits desc 223 64 = 0)
    (herrs : passErrs c desc d = []) (hroom : (d.coreAt c).run = none ∨ (d.coreAt c).pend = none) (hlink : (d.coreAt c).linkOpen desc)
    (hpc : d.pc c + 128 ≤ csSize) (hunc : ecc.unc = false) (htaken : (d.fetch c ecc).passTaken c desc (d.pc c) = e)
    (hst : (e.coreAt c).st = .run) (hregs : e.regs = (d.fetch c ecc).regs) :
    (d.doPass c ecc).coreAt c = { e.coreAt c with cur := none } ∧ (d.doPass c ecc).pc c = d.pc c + 64 := by
  obtain ⟨-, hcur, hin, -⟩ := Dev.fetches_parts hf
  have hecc : ecc ≠ .uncFetch := by
    rintro rfl
    cases hunc
  have hfree : (((d.fetch c ecc).coreAt c).run.isSome && ((d.fetch c ecc).coreAt c).pend.isSome) = false := by
    rw [Dev.fetch_coreAt hcur]
    rcases hroom with h | h <;> simp [h]
  have hready : ((d.fetch c ecc).coreAt c).linkBusy desc = false := by
    rw [Dev.fetch_coreAt hcur]
    exact Core.linkBusy_of_linkOpen hlink
  have hnote : (e.eccNote c ecc.data).pc c = d.pc c + 64 := by
    rw [← Dev.fetch_pc hcur hin ecc]
    unfold Dev.pc Dev.rdN
    rw [Dev.rd_eccNote_other e c ecc.data (by omega) (by omega), Dev.rd_of_regs hregs]
  have hpass : d.doPass c ecc = (e.eccNote c ecc.data).coreUpd c (fun x => { x with cur := none }) := by
    have hissue := Dev.issue_sound hf (by omega) (by omega) hecc (rsv := fun x => decide (bits x 223 64 = 0)) (by simp [hrsv])
      (errs := passErrs c) (by rw [Dev.passErrs_fetch hcur, herrs])
    rw [Dev.doPass, hissue]
    simp only [hfree, hready, Bool.or_self, Bool.false_eq_true, if_false, htaken, Dev.operandEcc, Ecc.data_unc hunc, Dev.coreAt_eccNote, hst,
      if_true]
    exact Dev.nextPc_inside (by omega)
  rw [hpass]
  refine ⟨by simp, ?_⟩
  rw [← hnote]
  exact Dev.rdN_of_regs (Dev.coreUpd_regs _ _ _) _

/-- R53, R96: a sound PASS with nothing running starts. -/
theorem Dev.doPass_starts {d : Dev} {c desc : Nat} {ecc : Ecc} (hf : d.fetches c 1 desc = true) (hrsv : bits desc 223 64 = 0)
    (herrs : passErrs c desc d = []) (hrun : (d.coreAt c).run = none) (hlink : (d.coreAt c).linkOpen desc)
    (hwalk : (d.coreAt c).walkLoaded desc) (hpc : d.pc c + 128 ≤ csSize) (hunc : ecc.unc = false) :
    ((d.doPass c ecc).coreAt c).run = some ((d.issuedPass c desc (d.pc c)).begun (d.coreAt c)) ∧ (d.doPass c ecc).pc c = d.pc c + 64 := by
  obtain ⟨hst, hcur, -⟩ := Dev.fetches_parts hf
  have hcore := Dev.fetch_coreAt hcur ecc
  obtain ⟨htrun, htst, htregs⟩ := Dev.passTaken_idle (d := d.fetch c ecc) (c := c) (desc := desc) (by rw [hcore]; exact hrun)
    (by rw [hcore]; exact hwalk) (by rw [hcore]; exact hlink) (d.pc c)
  obtain ⟨hleft, hnext⟩ := Dev.doPass_taken hf hrsv herrs (.inl hrun) hlink hpc hunc rfl (by rw [htst, hcore]; exact hst) htregs
  refine ⟨?_, hnext⟩
  rw [hleft, ← Dev.issuedPass_fetch hcur desc (d.pc c) ecc]
  exact htrun.trans (by rw [hcore]; rfl)

/-- R96, R112: a sound PASS behind a running one waits with its bias staged. -/
theorem Dev.doPass_waits {d : Dev} {c desc : Nat} {p : PassRun} {ecc : Ecc} (hf : d.fetches c 1 desc = true) (hrsv : bits desc 223 64 = 0)
    (herrs : passErrs c desc d = []) (hrun : (d.coreAt c).run = some p) (hpend : (d.coreAt c).pend = none) (hlink : (d.coreAt c).linkOpen desc)
    (hpc : d.pc c + 128 ≤ csSize) (hunc : ecc.unc = false) :
    ((d.doPass c ecc).coreAt c).run = some p ∧ ((d.doPass c ecc).coreAt c).pend = some (d.issuedPass c desc (d.pc c)) ∧
    (d.doPass c ecc).pc c = d.pc c + 64 := by
  obtain ⟨hst, hcur, -⟩ := Dev.fetches_parts hf
  have hcore := Dev.fetch_coreAt hcur ecc
  obtain ⟨htrun, htpend, htst, htregs⟩ := Dev.passTaken_behind (d := d.fetch c ecc) (c := c) (desc := desc) (by rw [hcore]; exact hrun) (d.pc c)
  obtain ⟨hleft, hnext⟩ := Dev.doPass_taken hf hrsv herrs (.inr hpend) hlink hpc hunc rfl (by rw [htst, hcore]; exact hst) htregs
  rw [hleft, ← Dev.issuedPass_fetch hcur desc (d.pc c) ecc]
  exact ⟨htrun, htpend, hnext⟩

/-! ### The change of a tile (R70, R73) -/

theorem Core.convertAll_desc (x : Core) (p : PassRun) : (x.convertAll p).1.desc = p.desc := by
  unfold Core.convertAll
  split <;> rfl

/-- A presented tile leaves the memories and counts its tile. -/
theorem Dev.presentTile_ok {d e : Dev} {c : Nat} {p q : PassRun} {w : Walk} (h : d.presentTile c p w = .ok (e, q)) :
    e.mem = d.mem ∧ q.tile = p.tile + 1 ∧ q.desc = p.desc := by
  simp only [Dev.presentTile] at h
  split at h
  · cases h
  · simp only [Except.ok.injEq, Prod.mk.injEq] at h
    obtain ⟨rfl, rfl⟩ := h
    exact ⟨by simp, rfl, Core.convertAll_desc _ p⟩

/-- The pending tile of a pass whose slices are sound becomes active, by the change its RIPPLE names. -/
theorem Dev.tileChange_presents {d : Dev} {c : Nat} {p : PassRun} {w : Walk} {ecc : Ecc} (hrun : (d.coreAt c).run = some p)
    (hwork : (d.coreAt c).st.working = true) (hstart : p.started = true) (htile : p.tile < passTiles p.desc)
    (hwalk : Tab.get none (d.coreAt c).walks (passWalk p.desc) = some w) (hunc : ecc.unc = false)
    (hok : (((d.fill c (passNamed p.desc)).eccNote c ecc).presentTile c p w).isOk = true) :
    let r := ((d.fill c (passNamed p.desc)).eccNote c ecc).presentTile c p w
    let t := d.tileChange c (passRipple p.desc) ecc
    (t.coreAt c).run = r.toOption.map (fun x => x.2) ∧ (t.coreAt c).run.map (fun x => x.tile) = some (p.tile + 1) ∧
      (t.coreAt c).run.map (fun x => x.desc) = some p.desc ∧ t.mem = d.mem := by
  cases hr : ((d.fill c (passNamed p.desc)).eccNote c ecc).presentTile c p w with
  | error e =>
    rw [hr] at hok
    cases hok
  | ok r =>
    obtain ⟨e, q⟩ := r
    obtain ⟨hmem, hnext, hdesc⟩ := Dev.presentTile_ok hr
    have hchange : d.tileChange c (passRipple p.desc) ecc =
        ((e.coreUpd c (fun y => { y with run := some q })).fill c (upTo 4)).bankStalls c := by
      simp [Dev.tileChange, hrun, hwork, hstart, htile, hwalk, hunc, hr]
    simp [hchange, Except.toOption, hnext, hdesc, hmem]

/-! ### The exchange of the banks and the drain (R68, R111, R112) -/

/-- A pass with all its tiles, whose arrays drain nothing, exchanges its banks. -/
theorem Dev.bankExchange_complete {d : Dev} {c : Nat} {p : PassRun} (hrun : (d.coreAt c).run = some p) (hwork : (d.coreAt c).st.working = true)
    (hstart : p.started = true) (htile : p.tile = passTiles p.desc)
    (hidle : (d.coreAt c).emit.any (fun e => (upTo 4).any (fun a => bit (passArrays e.desc) a && bit (passArrays p.desc) a)) = false) :
    d.bankExchange c = ((d.tally c { ovf := ((d.coreAt c).convertAll p).2 }).coreUpd c
      (fun y => { y with run := none, emit := y.emit ++ [((d.coreAt c).convertAll p).1] })).promote c := by
  simp only [Dev.bankExchange, hrun, hwork, hstart, htile, hidle, decide_true, Bool.not_false, Bool.and_self, if_true]

theorem Dev.promote_none {d : Dev} {c : Nat} (h : (d.coreAt c).pend = none) : d.promote c = d := by
  unfold Dev.promote
  dsimp only
  rw [h]
  cases (d.coreAt c).run <;> rfl

theorem Dev.coreAt_putCodes (d : Dev) (c base code i : Nat) (us : List Nat) (k : Nat) :
    (d.putCodes c base code i us).coreAt k = d.coreAt k := by
  induction us generalizing d i with
  | nil => rfl
  | cons u us ih =>
    rw [Dev.putCodes, ih]
    unfold Dev.putCode
    split <;> rfl

theorem Dev.coreAt_putSides (d : Dev) (c base i : Nat) (es : List (Nat × Nat)) (k : Nat) :
    (d.putSides c base i es).coreAt k = d.coreAt k := by
  induction es generalizing d i with
  | nil => rfl
  | cons e es ih => rw [Dev.putSides, ih, Dev.coreAt_csWrite]

/-- R113: an append writes its link context in the core's record. -/
theorem Dev.linkAppend_emit {d e : Dev} {c lc : Nat} {xs : List Nat} (h : d.linkAppend c lc xs = .ok e) :
    (e.coreAt c).emit = (d.coreAt c).emit := by
  unfold Dev.linkAppend at h
  split at h
  · cases h
  · dsimp only at h
    split at h
    · cases h
    · split at h
      · cases h
      · cases h
        rw [Dev.coreAt_tally, Dev.coreAt_coreUpd_same]
        split <;> simp [Dev.coreAt_putSides, Dev.coreAt_putCodes]

theorem Dev.coreAt_emitArray (d : Dev) (c : Nat) (p : PassRun) (j : Nat) (bank : List Nat) (k : Nat) :
    (d.emitArray c p j bank).coreAt k = d.coreAt k := by
  unfold Dev.emitArray
  dsimp only
  split <;> simp

theorem Dev.coreAt_emitArrays (d : Dev) (c : Nat) (p : PassRun) (j : Nat) (banks : List (List Nat)) (k : Nat) :
    (d.emitArrays c p j banks).coreAt k = d.coreAt k := by
  induction banks generalizing d j with
  | nil => rfl
  | cons b bs ih => rw [Dev.emitArrays, ih, Dev.coreAt_emitArray]

/-- R55, R113: a drain writes core store, counts, and a link context. -/
theorem Dev.emitPass_emit {d e : Dev} {c : Nat} {p : PassRun} (h : d.emitPass c p = .ok e) : (e.coreAt c).emit = (d.coreAt c).emit := by
  unfold Dev.emitPass at h
  split at h
  · exact Dev.linkAppend_emit h
  · cases h
    rw [Dev.coreAt_emitArrays]

/-- The oldest draining pass whose drain meets no error commits. -/
theorem Dev.passCommit_drained {d e : Dev} {c : Nat} {p : PassRun} {rest : List PassRun} (hemit : (d.coreAt c).emit = p :: rest)
    (hsaved : (d.coreAt c).st ≠ .saved) (hfaulted : (d.coreAt c).st ≠ .faulted)
    (hok : (d.coreSet c { d.coreAt c with emit := rest }).emitPass c p = .ok e) :
    d.passCommit c = e.complete c p.desc p.pc true (decide (passTiles p.desc = 0)) := by
  simp only [Dev.passCommit, hemit, hsaved, hfaulted, or_self, if_false, hok]

/-! ### Array faults and errors of a drain (R83, R91, R114) -/

/-- R83: the pass that a fault restarts stands at its first tile, its bias in the working banks. -/
def Dev.rerunOf (d : Dev) (c : Nat) (p : PassRun) : PassRun :=
  { p with rerun := true, tile := 0, held := [], bank := (passNamed p.desc).map (fun a => d.biasBank c p.desc a) }

theorem Dev.arrayFault_restarts {d : Dev} {c arr : Nat} {p : PassRun} (hrun : (d.coreAt c).run = some p) (hstart : p.started = true)
    (hnamed : bit (passArrays p.desc) arr = true) (hfirst : p.rerun = false) (col : Nat) :
    ∃ x : Core, x.run = some (d.rerunOf c p) ∧ d.arrayFault c arr col =
      ((((d.count (tenReg c 0x60 + 4 * arr) 1).coreSet c x).fill c (upTo 4)).event (tenReg c 0x10) 3).report 2 0x200 1 (d.corePtn c)
        (c + 256 * arr + 65536 * col) := by
  simp only [Dev.arrayFault, Dev.coreAt_count, hrun, hstart, hnamed, hfirst, Bool.and_self, if_true, Bool.false_eq_true, if_false]
  exact ⟨_, by rw [Dev.rerunOf, hstart], rfl⟩

theorem Dev.arrayFault_faults {d : Dev} {c arr : Nat} {p : PassRun} (hrun : (d.coreAt c).run = some p) (hstart : p.started = true)
    (hnamed : bit (passArrays p.desc) arr = true) (hagain : p.rerun = true) (col : Nat) :
    d.arrayFault c arr col =
      ((d.count (tenReg c 0x60 + 4 * arr) 1).coreFault c).report 2 0x201 2 (d.corePtn c) (c + 256 * arr + 65536 * col) := by
  simp only [Dev.arrayFault, Dev.coreAt_count, hrun, hstart, hnamed, hagain, Bool.and_self, if_true]

/-- R83: what a first fault leaves: the pass restarted, the array's count and TEN_EVENT; every other register of the core keeps. -/
theorem Dev.arrayFault_restarts_leaves {d : Dev} {c arr : Nat} {p : PassRun} (hrun : (d.coreAt c).run = some p) (hstart : p.started = true)
    (hnamed : bit (passArrays p.desc) arr = true) (hfirst : p.rerun = false) (col : Nat) :
    ((d.arrayFault c arr col).coreAt c).run = some (d.rerunOf c p) ∧ wbit ((d.arrayFault c arr col).rd (tenReg c 0x10)) 3 = true ∧
    ∀ off, off ≠ 0x10 → (d.arrayFault c arr col).rdN (tenReg c off) = (d.count (tenReg c 0x60 + 4 * arr) 1).rdN (tenReg c off) := by
  obtain ⟨x, hx, heq⟩ := Dev.arrayFault_restarts hrun hstart hnamed hfirst col
  rw [heq]
  refine ⟨by simp [hx], ?_, ?_⟩
  · rw [Dev.rd_tenReg_report _ _ _ _ _ _ _ (by omega)]
    exact Dev.event_set _ _ _ (by omega)
  · intro off hoff
    unfold Dev.rdN
    rw [Dev.rd_tenReg_report _ _ _ _ _ _ _ (by omega), Dev.rd_event_other _ _ (tenReg_ne hoff), Dev.rd_of_regs (Dev.fill_regs _ _ _),
      Dev.rd_of_regs (Dev.coreSet_regs _ _ _)]

/-- R83: what a fault in the re-run leaves. -/
theorem Dev.arrayFault_faults_leaves {d : Dev} {c arr : Nat} {p : PassRun} (hrun : (d.coreAt c).run = some p) (hstart : p.started = true)
    (hnamed : bit (passArrays p.desc) arr = true) (hagain : p.rerun = true) (col : Nat) :
    ((d.arrayFault c arr col).coreAt c).st = .faulted ∧ ((d.arrayFault c arr col).coreAt c).run = none ∧
    wbit ((d.arrayFault c arr col).rd (tenReg c 0x10)) 4 = true := by
  rw [Dev.arrayFault_faults hrun hstart hnamed hagain]
  unfold Dev.coreFault
  refine ⟨by simp, by simp, ?_⟩
  rw [Dev.rd_tenReg_report _ _ _ _ _ _ _ (by omega)]
  exact Dev.event_set _ _ _ (by omega)

/-- R91: the cause of a fault is noted before the fault is taken. -/
theorem Dev.arrayFaultBy_eq (d : Dev) (c arr col : Nat) (ecc : Bool) :
    d.arrayFaultBy c arr col ecc = (d.eccNote c (if ecc then .uncFetch else .none)).arrayFault c arr col := by
  cases ecc <;> rfl

theorem Dev.rerunOf_eccNote (d : Dev) (c0 : Nat) (e : Ecc) (c : Nat) (p : PassRun) : (d.eccNote c0 e).rerunOf c p = d.rerunOf c p := by
  simp only [Dev.rerunOf, Dev.biasBank_of_mem (d.eccNote_mem c0 e)]

/-- R114: a first error on an array's emit path marks its drain. -/
theorem Dev.emitError_first {d : Dev} {c arr : Nat} {p : PassRun} {rest : List PassRun} (hemit : (d.coreAt c).emit = p :: rest)
    (hnamed : bit (passArrays p.desc) arr = true) (hfirst : bit p.redrain arr = false) :
    d.emitError c arr = (d.coreSet c { d.coreAt c with emit := { p with redrain := setBit p.redrain arr } :: rest }).report 2 0x202 1
      (d.corePtn c) (c + 256 * arr) := by
  simp [Dev.emitError, hemit, hnamed, hfirst]

/-! ### Clock steps (R85, R422) -/

theorem bits_putBits_same (x h l v : Nat) : bits (putBits x h l v) h l = v % 2 ^ (h + 1 - l) := by
  have hfield : x / 2 ^ l - bits x h l = 2 ^ (h + 1 - l) * (x / 2 ^ l / 2 ^ (h + 1 - l)) := by
    have hsplit := Nat.mod_add_div (x / 2 ^ l) (2 ^ (h + 1 - l))
    unfold bits
    omega
  rw [bits, putBits, Nat.add_mul_div_left _ _ (Nat.two_pow_pos l), Nat.sub_mul_div, hfield, Nat.mul_add_mod, Nat.mod_mod]

theorem Dev.kNow_kForce (d : Dev) (k v : Nat) : (d.kForce k v).kNow k = v % 32 := by
  have hword : ∀ y, bits (y % 4294967296) 15 11 = bits y 15 11 := fun y => by
    unfold bits
    omega
  unfold Dev.kForce Dev.dieFld Dev.kNow Dev.dieReg
  rw [Dev.rdN_wrN_same, hword, bits_putBits_same]
  rfl

/-- R422: a limit of the hardware takes the step still requested. -/
theorem Dev.tclkReq_kForce (d : Dev) (k v : Nat) : Tab.get 0 (d.kForce k v).pwr.tclkReq k = 0 := by
  have hpwr : (d.kForce k v).pwr = (d.kRequest k 0).pwr := by
    unfold Dev.kForce Dev.dieFld
    rw [Dev.pwr_eq, Dev.wrN_control, ← Dev.pwr_eq]
  rw [hpwr]
  exact Tab.get_set_same 0 d.pwr.tclkReq k 0

theorem Dev.tclkStep_requested {d : Dev} {k n : Nat} (hreq : Tab.get 0 d.pwr.tclkReq k = n) (hn : n ≠ 0) :
    d.tclkStep k = d.kForce k (max (d.dieLow k) (min (d.kLimit k)
      (if n < d.kNow k then d.kNow k - 1 else if d.kNow k < n then d.kNow k + 1 else n))) := by
  unfold Dev.tclkStep
  rw [hreq]
  cases n with
  | zero => exact absurd rfl hn
  | succ n => rfl

theorem Dev.kNow_le (d : Dev) (k : Nat) : d.kNow k ≤ 31 := by
  unfold Dev.kNow bits
  omega

/-- R85, R422: no limit leaves more than the full clock, or than the lowest step where that is higher. -/
theorem Dev.kLimit_le (d : Dev) (k : Nat) : d.kLimit k ≤ max (d.dieLow k) 16 := by
  unfold Dev.kLimit
  split <;> omega

/-! ### The obligation -/

/-- Settles O43: each clause is the branch of its command that its hypotheses select; what a later part of the command does is followed
only as far as it may change what the clause reads. -/
theorem passesRunAndRestart : Obligations.PassesRunAndRestart := by
  unfold Obligations.PassesRunAndRestart
  refine ⟨?start, ?wait, ?swap, ?front, ?exchange, ?commit, ?restart, ?rerunFault, ?drainError, ?clockStep⟩
  case start =>
    intro s c desc ecc ha hf hrsv herrs hrun hlink hwalk hpc hunc
    exact ⟨_, Machine.exec_pass_alive ha c ecc, Dev.doPass_starts hf hrsv herrs hrun hlink hwalk hpc hunc⟩
  case wait =>
    intro s c desc p ecc ha hf hrsv herrs hrun hpend hlink hpc hunc
    exact ⟨_, Machine.exec_pass_alive ha c ecc, Dev.doPass_waits hf hrsv herrs hrun hpend hlink hpc hunc⟩
  case swap =>
    intro s c p w ecc ha hrun hwork hstart hripple htile hwalk hunc hok
    refine ⟨_, Machine.exec_swap_alive ha c ecc, ?_⟩
    rw [← hripple]
    exact Dev.tileChange_presents hrun hwork hstart htile hwalk hunc hok
  case front =>
    intro s c p w ecc ha hrun hwork hstart hripple htile hwalk hunc hok
    refine ⟨_, Machine.exec_front_alive ha c ecc, ?_⟩
    rw [← hripple]
    exact Dev.tileChange_presents hrun hwork hstart htile hwalk hunc hok
  case exchange =>
    intro s c p ha hrun hwork hstart htile hidle
    refine ⟨_, Machine.exec_bankExchange_alive ha c, ?_⟩
    dsimp only
    rw [Dev.bankExchange_complete hrun hwork hstart htile hidle]
    obtain ⟨hmem, hemit⟩ := Dev.drains_eq_iff.mp (Dev.drains_promote _ c)
    refine ⟨hemit.trans (by simp), fun hpend => ?_, hmem.trans (by simp)⟩
    rw [Dev.promote_none (by simpa using hpend)]
    simp
  case commit =>
    intro s c p rest d2 ha hemit hsaved hfaulted hok
    refine ⟨_, Machine.exec_passCommit_alive ha c, ?_⟩
    dsimp only
    rw [Dev.passCommit_drained hemit hsaved hfaulted hok]
    obtain ⟨hmem, hkept⟩ := Dev.drains_eq_iff.mp (Dev.drains_complete d2 c p.desc p.pc true (decide (passTiles p.desc = 0)))
    exact ⟨hkept.trans ((Dev.emitPass_emit hok).trans (by simp)), hmem⟩
  case restart =>
    intro s c arr col ecc p ha hrun hstart hnamed hfirst
    refine ⟨_, Machine.exec_arrayFault_alive ha c arr col ecc, ?_⟩
    dsimp only
    rw [Dev.arrayFaultBy_eq]
    obtain ⟨hrestart, hevent, hregs⟩ := Dev.arrayFault_restarts_leaves
      (d := s.dev.eccNote c (if ecc then .uncFetch else .none)) (by simpa using hrun) hstart hnamed hfirst col
    have hcount : tenReg c 0x60 + 4 * arr = tenReg c (0x60 + 4 * arr) := Nat.add_assoc _ _ _
    refine ⟨by rw [hrestart, Dev.rerunOf_eccNote]; rfl, ?count, hevent, ?uncorrectable⟩
    case count =>
      rw [hcount, hregs _ (by omega), hcount, Dev.rdN_count_same]
      unfold Dev.rdN
      rw [Dev.rd_eccNote_other _ _ _ (by omega) (by omega)]
    case uncorrectable =>
      rintro rfl
      rw [hregs _ (by omega), hcount, Dev.rdN_count_other _ _ (tenReg_ne (by omega))]
      exact Dev.rdN_eccNote_uncFetch s.dev c
  case rerunFault =>
    intro s c arr col ecc p ha hrun hstart hnamed hagain
    refine ⟨_, Machine.exec_arrayFault_alive ha c arr col ecc, ?_⟩
    dsimp only
    rw [Dev.arrayFaultBy_eq]
    exact Dev.arrayFault_faults_leaves (by simpa using hrun) hstart hnamed hagain col
  case drainError =>
    intro s c arr p rest ha hemit hnamed hfirst
    refine ⟨_, Machine.exec_emitDrainError_alive ha c arr, ?_⟩
    dsimp only
    rw [Dev.emitError_first hemit hnamed hfirst]
    simp
  case clockStep =>
    intro s k n ha hreq hn hlow
    have hnow := s.dev.kNow_le k
    have hlimit := s.dev.kLimit_le k
    refine ⟨_, Machine.exec_tclkStep_alive ha k, ?_⟩
    dsimp only
    rw [Dev.tclkStep_requested hreq hn, Dev.kNow_kForce, Nat.mod_eq_of_lt (by omega)]
    exact ⟨rfl, le_max_left _ _, Dev.tclkReq_kForce _ _ _⟩

end Sys2Proof
end

section
/-! What the sequencer of a tensor core leaves when it fetches, completes, posts or stops a descriptor, in the core's record, in the queues
and locks and in the core's registers: the facts that the obligations about descriptors share. -/

namespace Sys2Proof

/-! ### What lies beside a core's record -/

@[simp] theorem Dev.coreUpd_pq (d : Dev) (c : Nat) (f : Core → Core) : (d.coreUpd c f).pq = d.pq := rfl
@[simp] theorem Dev.coreUpd_cat (d : Dev) (c : Nat) (f : Core → Core) : (d.coreUpd c f).cat = d.cat := rfl
@[simp] theorem Dev.coreUpd_lck (d : Dev) (c : Nat) (f : Core → Core) : (d.coreUpd c f).lck = d.lck := rfl
@[simp] theorem Dev.coreUpd_ptn (d : Dev) (c : Nat) (f : Core → Core) : (d.coreUpd c f).ptn = d.ptn := rfl

/-- What a write leaves of the memories depends on the memories alone. -/
theorem Dev.csWrite_mem_congr {d e : Dev} (h : e.mem = d.mem) (c a : Nat) (bs : List Byte) : (e.csWrite c a bs).mem = (d.csWrite c a bs).mem := by
  simp only [Dev.csWrite, h]

theorem Dev.csRead_of_mem {d e : Dev} (h : e.mem = d.mem) (c a len : Nat) : e.csRead c a len = d.csRead c a len := by
  simp only [Dev.csRead, h]

theorem Dev.pc_of_regs {d e : Dev} (h : e.regs = d.regs) (c : Nat) : e.pc c = d.pc c := Dev.rdN_of_regs h _

@[simp] theorem Dev.pc_coreUpd (d : Dev) (k : Nat) (f : Core → Core) (c : Nat) : (d.coreUpd k f).pc c = d.pc c := rfl

/-- The descriptor that the sequencer stands at, as its record, core store and registers give it. -/
theorem Dev.curDesc_congr {d e : Dev} {c : Nat} (hcur : (e.coreAt c).cur = (d.coreAt c).cur) (hmem : e.mem = d.mem) (hregs : e.regs = d.regs) :
    e.curDesc c = d.curDesc c := by
  simp only [Dev.curDesc, hcur, Dev.csNat_of_mem hmem, Dev.pc_of_regs hregs]

theorem Dev.lck_of_tensor {d e : Dev} (h : e.tensor = d.tensor) : e.lck = d.lck := by
  rw [Dev.lck_eq, h, ← Dev.lck_eq]

theorem Dev.ptn_of_tensor {d e : Dev} (h : e.tensor = d.tensor) : e.ptn = d.ptn := by
  rw [Dev.ptn_eq, h, ← Dev.ptn_eq]

theorem Dev.ownerOfCore_of_ptn {d e : Dev} (h : e.ptn = d.ptn) (c : Nat) : e.ownerOfCore c = d.ownerOfCore c := by
  simp only [Dev.ownerOfCore, h]

theorem Dev.corePtn_of_ptn {d e : Dev} (h : e.ptn = d.ptn) (c : Nat) : e.corePtn c = d.corePtn c := by
  simp only [Dev.corePtn, Dev.ownerOfCore_of_ptn h]

theorem Dev.sameGang_of_ptn {d e : Dev} (h : e.ptn = d.ptn) (p q : Nat) : e.sameGang p q = d.sameGang p q := by
  unfold Dev.sameGang Dev.ent
  rw [h]

/-! ### Checks of the core store and fetches (R91, R96) -/

@[simp] theorem Dev.eccNote_pq (d : Dev) (c : Nat) (e : Ecc) : (d.eccNote c e).pq = d.pq := by
  unfold Dev.eccNote
  (repeat' split) <;> simp

@[simp] theorem Dev.eccNote_cat (d : Dev) (c : Nat) (e : Ecc) : (d.eccNote c e).cat = d.cat := by
  unfold Dev.eccNote
  (repeat' split) <;> simp

@[simp] theorem Dev.eccNote_lck (d : Dev) (c : Nat) (e : Ecc) : (d.eccNote c e).lck = d.lck := Dev.lck_of_tensor (by simp)
@[simp] theorem Dev.eccNote_ptn (d : Dev) (c : Nat) (e : Ecc) : (d.eccNote c e).ptn = d.ptn := Dev.ptn_of_tensor (by simp)
@[simp] theorem Dev.setPc_pq (d : Dev) (c : Nat) (v : Int) : (d.setPc c v).pq = d.pq := Dev.wrN_pq _ _ _
@[simp] theorem Dev.setPc_cat (d : Dev) (c : Nat) (v : Int) : (d.setPc c v).cat = d.cat := Dev.wrN_cat _ _ _
@[simp] theorem Dev.setPc_lck (d : Dev) (c : Nat) (v : Int) : (d.setPc c v).lck = d.lck := Dev.lck_of_tensor (by simp)
@[simp] theorem Dev.setPc_ptn (d : Dev) (c : Nat) (v : Int) : (d.setPc c v).ptn = d.ptn := Dev.ptn_of_tensor (by simp)

/-- A fetch notes a corrected word, keeps the descriptor in the core's record and moves TEN_PC on. -/
theorem Dev.fetch_eq {d : Dev} {c : Nat} (hcur : (d.coreAt c).cur = none) (ecc : Ecc) :
    d.fetch c ecc = ((if ecc = .corrected then d.eccNote c ecc else d).coreUpd c
      (fun x => { x with cur := some (d.pc c, d.csNat c (d.pc c) 64) })).setPc c (d.pc c + 64) := by
  unfold Dev.fetch
  rw [hcur]

/-- What a fetch leaves beside the core's record and registers. -/
theorem Dev.fetch_beside {d : Dev} {c : Nat} (hcur : (d.coreAt c).cur = none) (ecc : Ecc) :
    (d.fetch c ecc).pq = d.pq ∧ (d.fetch c ecc).cat = d.cat ∧ (d.fetch c ecc).lck = d.lck ∧ (d.fetch c ecc).ptn = d.ptn := by
  rw [Dev.fetch_eq hcur]
  split <;> simp

/-! ### Completions (R97, R98, R152) -/

/-- The effects behind a post write TEN_LASTSEQ and TEN_PASSES. -/
theorem Dev.rd_afterPost_other (d : Dev) (c seq : Nat) (isPass : Bool) {off : Nat} (hseq : off ≠ 0x20) (hbelow : off < 0x80) :
    (d.afterPost c seq isPass).rd (tenReg c off) = d.rd (tenReg c off) := by
  have hlast : (d.wrN (tenReg c 0x20) (seq % 65536)).rd (tenReg c off) = d.rd (tenReg c off) := Dev.rd_wrN_other d _ (tenReg_ne hseq)
  cases isPass with
  | false => exact hlast
  | true =>
    have hlow : tenReg c off ≠ tenReg c 0x80 := tenReg_ne (by omega)
    have hhigh : tenReg c off ≠ tenReg c 0x80 + 4 := tenReg_ne (off' := 0x84) (by omega)
    exact (Dev.rd_wrN_other _ _ hhigh).trans ((Dev.rd_wrN_other _ _ hlow).trans hlast)

@[simp] theorem Dev.afterPost_pq (d : Dev) (c seq : Nat) (isPass : Bool) : (d.afterPost c seq isPass).pq = d.pq := by
  cases isPass <;> simp [Dev.afterPost]

@[simp] theorem Dev.afterPost_cat (d : Dev) (c seq : Nat) (isPass : Bool) : (d.afterPost c seq isPass).cat = d.cat := by
  cases isPass <;> simp [Dev.afterPost]

/-- R152: a post leaves the core's record but for the completion it may delay, the registers that no completion writes, and what lies
beside the Catcher. -/
theorem Dev.corePost_leaves (d : Dev) (c : Nat) (r : CatRec) (after : Option (Nat × Bool)) :
    (∃ l, (d.corePost c r after).coreAt c = { d.coreAt c with defer := l }) ∧
    (∀ off, off ≠ 0x20 → off < 0x80 → (d.corePost c r after).rd (tenReg c off) = d.rd (tenReg c off)) ∧
    (d.corePost c r after).mem = d.mem ∧ (d.corePost c r after).pq = d.pq ∧ (d.corePost c r after).lck = d.lck := by
  have hput : (d.catPut r).coreAt c = d.coreAt c := Dev.coreAt_of_tensor (by simp) c
  have hmem : (d.catPut r).mem = d.mem := Dev.mem_of_tensor (by simp)
  have hlck : (d.catPut r).lck = d.lck := Dev.lck_of_tensor (by simp)
  unfold Dev.corePost
  dsimp only
  split
  · exact ⟨⟨_, by rw [Dev.coreAt_coreUpd_same, hput]⟩, fun off _ _ => Dev.catPut_rd d r _, hmem, by simp, hlck⟩
  · cases after with
    | none => exact ⟨⟨_, hput⟩, fun off _ _ => Dev.catPut_rd d r _, hmem, by simp, hlck⟩
    | some a =>
      have htensor : ((d.catPut r).afterPost c a.1 a.2).tensor = (d.catPut r).tensor := by simp
      refine ⟨⟨_, (Dev.coreAt_of_tensor htensor c).trans hput⟩, fun off hseq hbelow => ?_, (Dev.mem_of_tensor htensor).trans hmem, by simp,
        (Dev.lck_of_tensor htensor).trans hlck⟩
      exact (Dev.rd_afterPost_other _ c a.1 a.2 hseq hbelow).trans (Dev.catPut_rd d r _)

/-- R97: what a completion leaves: the core's record but for the completions that wait, the registers but for those it writes, and what
lies beside the Catcher. -/
theorem Dev.complete_leaves (d : Dev) (c desc pc : Nat) (isPass empty : Bool) :
    (∃ l, (d.complete c desc pc isPass empty).coreAt c = { d.coreAt c with defer := l }) ∧
    (∀ off, off ≠ 0x20 → off < 0x80 → (d.complete c desc pc isPass empty).rd (tenReg c off) = d.rd (tenReg c off)) ∧
    (d.complete c desc pc isPass empty).mem = d.mem ∧ (d.complete c desc pc isPass empty).pq = d.pq ∧
    (d.complete c desc pc isPass empty).lck = d.lck := by
  unfold Dev.complete
  dsimp only
  split
  · exact Dev.corePost_leaves d c _ _
  · split
    · exact ⟨⟨_, Dev.coreAt_coreUpd_same _ _ _⟩, fun off _ _ => rfl, rfl, rfl, rfl⟩
    · have htensor : (d.afterPost c (bits desc 63 48) isPass).tensor = d.tensor := by simp
      exact ⟨⟨_, Dev.coreAt_of_tensor htensor c⟩, fun off hseq hbelow => Dev.rd_afterPost_other d c _ _ hseq hbelow,
        Dev.mem_of_tensor htensor, by simp, Dev.lck_of_tensor htensor⟩

theorem Dev.complete_coreAt (d : Dev) (c desc pc : Nat) (isPass empty : Bool) :
    ∃ l, (d.complete c desc pc isPass empty).coreAt c = { d.coreAt c with defer := l } := (d.complete_leaves c desc pc isPass empty).1

@[simp] theorem Dev.pc_complete (d : Dev) (c desc pc : Nat) (isPass empty : Bool) :
    (d.complete c desc pc isPass empty).pc c = d.pc c := by
  obtain ⟨-, hregs, -⟩ := d.complete_leaves c desc pc isPass empty
  unfold Dev.pc Dev.rdN
  rw [hregs _ (by omega) (by omega)]

@[simp] theorem Dev.complete_mem (d : Dev) (c desc pc : Nat) (isPass empty : Bool) : (d.complete c desc pc isPass empty).mem = d.mem := by
  obtain ⟨-, -, hmem, -⟩ := d.complete_leaves c desc pc isPass empty
  exact hmem

@[simp] theorem Dev.complete_pq (d : Dev) (c desc pc : Nat) (isPass empty : Bool) : (d.complete c desc pc isPass empty).pq = d.pq := by
  obtain ⟨-, -, -, hpq, -⟩ := d.complete_leaves c desc pc isPass empty
  exact hpq

@[simp] theorem Dev.complete_lck (d : Dev) (c desc pc : Nat) (isPass empty : Bool) : (d.complete c desc pc isPass empty).lck = d.lck := by
  obtain ⟨-, -, -, -, hlck⟩ := d.complete_leaves c desc pc isPass empty
  exact hlck

/-- A completion without CATCH makes no record. -/
theorem Dev.complete_cat {d : Dev} {c desc : Nat} (hcatch : bit desc 11 = false) (pc : Nat) (isPass empty : Bool) :
    (d.complete c desc pc isPass empty).cat = d.cat := by
  simp only [Dev.complete, hcatch, Bool.false_eq_true, if_false]
  split <;> simp

/-- R98: a completion without CATCH that waits for no record puts its SEQ in TEN_LASTSEQ. -/
theorem Dev.complete_lastSeq {d : Dev} {c desc : Nat} (hcatch : bit desc 11 = false) (hdefer : (d.coreAt c).defer = []) (pc : Nat) (empty : Bool) :
    (d.complete c desc pc false empty).rdN (tenReg c 0x20) = bits desc 63 48 := by
  have hpost : d.complete c desc pc false empty = d.wrN (tenReg c 0x20) (bits desc 63 48 % 65536) := by
    simp [Dev.complete, hcatch, hdefer, Dev.afterPost]
  rw [hpost, Dev.rdN_wrN_same]
  unfold bits
  omega

/-- R96, R97: a descriptor completes and the sequencer goes on to a next fetch that lies in the core store. -/
theorem Dev.complete_nextPc {d : Dev} {c : Nat} (hpc : d.pc c + 64 ≤ csSize) (desc pc : Nat) :
    (d.complete c desc pc false false).nextPc c = (d.complete c desc pc false false).coreUpd c (fun x => { x with cur := none }) :=
  Dev.nextPc_inside (by rwa [Dev.pc_complete])

/-! ### Waits that end (R106, R108) -/

/-- The descriptor at `pc` ends and the program of core c runs on: what the end of a WAITQ and the end of a LOCK share. -/
def Dev.runsOn (d : Dev) (c desc pc : Nat) : Dev :=
  ((d.coreUpd c (fun x => { x with st := .run, waiting := none })).complete c desc pc false false).nextPc c

theorem Dev.runsOn_leaves {d : Dev} {c : Nat} (hpc : d.pc c + 64 ≤ csSize) (desc pc : Nat) :
    (∃ l, (d.runsOn c desc pc).coreAt c = { d.coreAt c with st := .run, waiting := none, cur := none, defer := l }) ∧
    (d.runsOn c desc pc).mem = d.mem ∧ (d.runsOn c desc pc).pq = d.pq ∧ (d.runsOn c desc pc).lck = d.lck := by
  obtain ⟨l, hl⟩ := (d.coreUpd c (fun x => { x with st := .run, waiting := none })).complete_coreAt c desc pc false false
  rw [Dev.runsOn, Dev.complete_nextPc (by simpa using hpc)]
  exact ⟨⟨l, by simp [hl]⟩, by simp, by simp, by simp⟩

/-! ### Descriptors that fail (R110) -/

@[simp] theorem Dev.unwait_regs (d : Dev) (c : Nat) : (d.unwait c).regs = d.regs := by
  unfold Dev.unwait
  split <;> simp

/-- R110: the core stops in ERROR, with its TEN_ERRPC and TEN_EVENT. -/
def Dev.stopped (d : Dev) (c code pc : Nat) : Dev :=
  (((d.unwait c).coreSet c { d.coreAt c with st := .error, errcode := code, pcSet := false, waiting := none, cur := none }).wrN
    (tenReg c 0x24) pc).event (tenReg c 0x10) 1

/-- R110: the first failing descriptor stops its core; its error record and its report write none of the registers that no completion
writes. -/
theorem Dev.tenFail_stops {d : Dev} {c : Nat} (hst : (d.coreAt c).st ≠ .error) (code pc desc : Nat) :
    (∃ l, (d.tenFail c code pc desc).coreAt c = { (d.stopped c code pc).coreAt c with defer := l }) ∧
    ∀ off, off ≠ 0x20 → off < 0x80 → (d.tenFail c code pc desc).rd (tenReg c off) = (d.stopped c code pc).rd (tenReg c off) := by
  have hfail : ∃ r src rcode p det, ∃ cls ≤ 3,
      d.tenFail c code pc desc = ((d.stopped c code pc).corePost c r none).report src rcode cls p det := by
    unfold Dev.tenFail
    dsimp only
    rw [if_neg hst]
    exact ⟨_, _, _, _, _, _, by split <;> omega, rfl⟩
  obtain ⟨r, src, rcode, p, det, cls, hcls, heq⟩ := hfail
  obtain ⟨⟨l, hcore⟩, hregs, -⟩ := (d.stopped c code pc).corePost_leaves c r none
  rw [heq]
  refine ⟨⟨l, by rw [Dev.coreAt_report, hcore]⟩, fun off hseq hbelow => ?_⟩
  rw [Dev.rd_tenReg_report _ _ _ _ _ _ _ hcls, hregs off hseq hbelow]

/-- R110: what the first failing descriptor of a core leaves in STATE, ERRCODE, TEN_ERRPC, TEN_PC and TEN_EVENT. -/
theorem Dev.tenFail_leaves {d : Dev} {c : Nat} (hst : (d.coreAt c).st ≠ .error) (code : Nat) {pc : Nat} (hpc : pc ≤ csSize) (desc : Nat) :
    ((d.tenFail c code pc desc).coreAt c).st = .error ∧ ((d.tenFail c code pc desc).coreAt c).errcode = code ∧
    (d.tenFail c code pc desc).rdN (tenReg c 0x24) = pc ∧ (d.tenFail c code pc desc).pc c = d.pc c ∧
    wbit ((d.tenFail c code pc desc).rd (tenReg c 0x10)) 1 = true ∧
    ∀ b, wbit (d.rd (tenReg c 0x10)) b = true → wbit ((d.tenFail c code pc desc).rd (tenReg c 0x10)) b = true := by
  obtain ⟨⟨l, hcore⟩, hregs⟩ := Dev.tenFail_stops hst code pc desc
  have hunwait : ∀ x k, ((d.unwait c).coreSet c x).rd k = d.rd k := fun x k => Dev.rd_of_regs (by simp) k
  have herrpc : (d.stopped c code pc).rdN (tenReg c 0x24) = pc := by
    unfold csSize at hpc
    rw [Dev.stopped, Dev.rdN_event_other _ _ (tenReg_ne (by omega)), Dev.rdN_wrN_same]
    omega
  have hpcReg : (d.stopped c code pc).rd (tenReg c 0x0C) = d.rd (tenReg c 0x0C) := by
    rw [Dev.stopped, Dev.rd_event_other _ _ (tenReg_ne (by omega)), Dev.rd_wrN_other _ _ (tenReg_ne (by omega)), hunwait]
  refine ⟨by rw [hcore, Dev.stopped]; simp, by rw [hcore, Dev.stopped]; simp, ?_, ?_, ?_, fun b hb => ?_⟩
  · rw [Dev.rdN, hregs _ (by omega) (by omega)]
    exact herrpc
  · rw [Dev.pc, Dev.rdN, hregs _ (by omega) (by omega), hpcReg]
    rfl
  · rw [hregs _ (by omega) (by omega)]
    exact Dev.event_set _ _ _ (by omega)
  · rw [hregs _ (by omega) (by omega)]
    refine Dev.event_keeps _ _ _ _ _ ?_ (by omega)
    rwa [Dev.rd_wrN_other _ _ (tenReg_ne (by omega)), hunwait]

end Sys2Proof
end

section
/-! The descriptors that the sequencer carries out by itself, the contexts that WALK and LINK load, and the fetches that stop a program:
the obligation O40. -/

namespace Sys2Proof

/-! ### The issue of a descriptor (R96, R98) -/

/-- A core with nothing outstanding passes the barrier that END and SIGNAL carry. -/
theorem Dev.issue_quiet {d : Dev} {c : Nat} (hq : (d.coreAt c).quiet = true) (op : Nat) (ecc : Ecc) (rsv : Nat → Bool)
    (errs : Nat → Dev → List Nat) (body : Nat → Nat → Dev → Dev) :
    d.issue c op ecc true rsv errs body = d.issue c op ecc false rsv errs body := by
  simp [Dev.issue, hq]

/-- The fetch behind a descriptor that is not the last of its core store lies in it. -/
theorem Dev.fetch_room {d : Dev} {c op desc : Nat} (hf : d.fetches c op desc = true) (hpc : d.pc c + 128 ≤ csSize) (ecc : Ecc) :
    (d.fetch c ecc).pc c + 64 ≤ csSize := by
  obtain ⟨-, hcur, hin, -⟩ := Dev.fetches_parts hf
  rw [Dev.fetch_pc hcur hin]
  omega

/-- A sound descriptor stands fetched in the core's record. -/
theorem Dev.fetched_coreAt {d : Dev} {c op desc : Nat} (hf : d.fetches c op desc = true) (ecc : Ecc) :
    (d.fetch c ecc).coreAt c = { d.coreAt c with cur := some (d.pc c, desc) } := by
  obtain ⟨-, hcur, -, hdesc, -⟩ := Dev.fetches_parts hf
  rw [Dev.fetch_coreAt hcur, hdesc]

theorem Dev.fetched_pc {d : Dev} {c op desc : Nat} (hf : d.fetches c op desc = true) (ecc : Ecc) : (d.fetch c ecc).pc c = d.pc c + 64 := by
  obtain ⟨-, hcur, hin, -⟩ := Dev.fetches_parts hf
  exact Dev.fetch_pc hcur hin ecc

/-! ### NOP, END and JUMP (R109) -/

theorem Dev.doNop_sound {d : Dev} {c desc : Nat} {ecc : Ecc} (hf : d.fetches c 9 desc = true) (hrsv : bits desc 511 64 = 0)
    (hpc : d.pc c + 128 ≤ csSize) (hecc : ecc ≠ .uncFetch) :
    d.doNop c ecc = ((d.fetch c ecc).complete c desc (d.pc c) false false).coreUpd c (fun x => { x with cur := none }) := by
  rw [Dev.doNop, Dev.issue_sound hf (by omega) (by omega) hecc (by simp [hrsv]) rfl]
  exact Dev.complete_nextPc (Dev.fetch_room hf hpc ecc) desc (d.pc c)

theorem Dev.doEnd_sound {d : Dev} {c desc : Nat} {ecc : Ecc} (hf : d.fetches c 10 desc = true) (hrsv : bits desc 511 64 = 0)
    (hquiet : (d.coreAt c).quiet = true) (hecc : ecc ≠ .uncFetch) :
    d.doEnd c ecc = (((d.fetch c ecc).complete c desc (d.pc c) false false).coreUpd c (fun x => { x with st := .idle, cur := none })).event
      (tenReg c 0x10) 0 := by
  rw [Dev.doEnd, Dev.issue_quiet hquiet, Dev.issue_sound hf (by omega) (by omega) hecc (by simp [hrsv]) rfl]

/-- The counter of a sound JUMP, and the sequencer behind it: a turn of the loop, or the way out of it. -/
theorem Dev.doJump_sound {d : Dev} {c desc : Nat} {ecc : Ecc} (hf : d.fetches c 8 desc = true) (hrsv : bits desc 477 64 = 0)
    (hcount : bits desc 511 496 ≠ 0) (hecc : ecc ≠ .uncFetch) :
    d.doJump c ecc =
      if (d.coreAt c).ctr.getD (bits desc 479 478) 0 + 1 < bits desc 511 496 then
        ((((d.fetch c ecc).complete c desc (d.pc c) false false).coreUpd c
          (fun x => { x with ctr := x.ctr.set (bits desc 479 478) ((d.coreAt c).ctr.getD (bits desc 479 478) 0 + 1) })).setPc c
            (d.pc c + 64 * sext 16 (bits desc 495 480))).nextPc c
      else
        (((d.fetch c ecc).complete c desc (d.pc c) false false).coreUpd c
          (fun x => { x with ctr := x.ctr.set (bits desc 479 478) 0 })).nextPc c := by
  rw [Dev.doJump, Dev.issue_sound hf (by omega) (by omega) hecc (by simp [hrsv]) (by simp [hcount, errIf])]
  simp only [Dev.fetched_coreAt hf]

/-- R96: TEN_PC takes an address that lies in the core store as it is. -/
theorem Dev.pc_setPc {v : Int} (hlow : 0 ≤ v) (hhigh : v ≤ csSize) (d : Dev) (c : Nat) : (d.setPc c v).pc c = v.toNat := by
  rw [Dev.setPc, Dev.pc, Dev.rdN_wrN_same]
  unfold wrapI
  unfold csSize at hhigh
  omega

theorem Dev.doJump_turns {d : Dev} {c desc : Nat} {ecc : Ecc} (hf : d.fetches c 8 desc = true) (hrsv : bits desc 477 64 = 0)
    (hcount : bits desc 511 496 ≠ 0) (hmore : (d.coreAt c).ctr.getD (bits desc 479 478) 0 + 1 < bits desc 511 496)
    (hlow : 0 ≤ (d.pc c : Int) + 64 * sext 16 (bits desc 495 480)) (hhigh : (d.pc c : Int) + 64 * sext 16 (bits desc 495 480) + 64 ≤ csSize)
    (hecc : ecc ≠ .uncFetch) :
    (d.doJump c ecc).pc c = ((d.pc c : Int) + 64 * sext 16 (bits desc 495 480)).toNat ∧
    ((d.doJump c ecc).coreAt c).ctr = (d.coreAt c).ctr.set (bits desc 479 478) ((d.coreAt c).ctr.getD (bits desc 479 478) 0 + 1) ∧
    ((d.doJump c ecc).coreAt c).st = .run := by
  obtain ⟨hst, -⟩ := Dev.fetches_parts hf
  obtain ⟨l, hl⟩ := (d.fetch c ecc).complete_coreAt c desc (d.pc c) false false
  have hjump := Dev.pc_setPc hlow (by omega)
  rw [Dev.doJump_sound hf hrsv hcount hecc, if_pos hmore, Dev.nextPc_inside (by rw [hjump]; omega)]
  refine ⟨by rw [Dev.pc_coreUpd, hjump], ?_, ?_⟩ <;> simp [hl, Dev.fetched_coreAt hf, hst]

theorem Dev.doJump_leaves {d : Dev} {c desc : Nat} {ecc : Ecc} (hf : d.fetches c 8 desc = true) (hrsv : bits desc 477 64 = 0)
    (hcount : bits desc 511 496 ≠ 0) (hlast : bits desc 511 496 ≤ (d.coreAt c).ctr.getD (bits desc 479 478) 0 + 1)
    (hpc : d.pc c + 128 ≤ csSize) (hecc : ecc ≠ .uncFetch) :
    (d.doJump c ecc).pc c = d.pc c + 64 ∧ ((d.doJump c ecc).coreAt c).ctr = (d.coreAt c).ctr.set (bits desc 479 478) 0 := by
  obtain ⟨l, hl⟩ := (d.fetch c ecc).complete_coreAt c desc (d.pc c) false false
  have hroom := Dev.fetch_room hf hpc ecc
  rw [Dev.doJump_sound hf hrsv hcount hecc, if_neg (by omega), Dev.nextPc_inside (by simpa using hroom)]
  simp [hl, Dev.fetched_coreAt hf, Dev.fetched_pc hf]

/-! ### WALK and LINK (R94, R95, R102, R103) -/

theorem Dev.doWalk_loads {d : Dev} {c desc : Nat} {ecc : Ecc} (hf : d.fetches c 2 desc = true) (hrsv : bits desc 89 66 = 0)
    (herrs : walkErrs desc d = []) (hfree : (d.coreAt c).usesWalk (bits desc 65 64) = false) (hpc : d.pc c + 128 ≤ csSize)
    (hecc : ecc ≠ .uncFetch) :
    Tab.get none ((d.doWalk c ecc).coreAt c).walks (bits desc 65 64) = some { desc := desc, i := [0, 0, 0, 0, 0] } ∧
    (d.doWalk c ecc).pc c = d.pc c + 64 := by
  have hroom := Dev.fetch_room hf hpc ecc
  have hunused : ((d.fetch c ecc).coreAt c).usesWalk (bits desc 65 64) = false := by
    rw [Dev.fetched_coreAt hf]
    exact hfree
  rw [Dev.doWalk, Dev.issue_sound hf (by omega) (by omega) hecc (by simp [hrsv]) herrs]
  simp only [hunused, Bool.false_eq_true, if_false]
  rw [Dev.complete_nextPc (by simpa using hroom)]
  obtain ⟨l, hl⟩ := ((d.fetch c ecc).coreUpd c (fun x => { x with
    walks := Tab.set none x.walks (bits desc 65 64) (some { desc := desc, i := [0, 0, 0, 0, 0] }) })).complete_coreAt c desc (d.pc c) false false
  simp [hl, Dev.fetched_pc hf, Tab.get_set_same]

/-- R103: the context that a LINK at `pc` opens. -/
def linkOpened (desc pc : Nat) : LinkCtx :=
  { code := bits desc 406 406, n := bits desc 461 438, c := bits desc 437 422, g := linkG desc, cap := bits desc 419 407,
    pbase := bits desc 511 487, gbase := bits desc 486 462, seq := bits desc 63 48, ctch := bit desc 11, pc := pc }

theorem Dev.doLink_opens {d : Dev} {c desc : Nat} {ecc : Ecc} (hf : d.fetches c 3 desc = true) (hrsv : bits desc 405 66 = 0)
    (herrs : linkErrs desc d = []) (hfree : (d.coreAt c).usesLink (bits desc 65 64) = false)
    (hnone : Tab.get none (d.coreAt c).links (bits desc 65 64) = none) (hpc : d.pc c + 128 ≤ csSize) (hecc : ecc ≠ .uncFetch) :
    Tab.get none ((d.doLink c ecc).coreAt c).links (bits desc 65 64) = some (linkOpened desc (d.pc c)) ∧
    (d.doLink c ecc).pc c = d.pc c + 64 := by
  have hroom := Dev.fetch_room hf hpc ecc
  have hunused : ((d.fetch c ecc).coreAt c).usesLink (bits desc 65 64) = false := by
    rw [Dev.fetched_coreAt hf]
    exact hfree
  have hempty : Tab.get none ((d.fetch c ecc).coreAt c).links (bits desc 65 64) = none := by
    rw [Dev.fetched_coreAt hf]
    exact hnone
  rw [Dev.doLink, Dev.issue_sound hf (by omega) (by omega) hecc (by simp [hrsv]) herrs]
  simp only [hunused, hempty, Bool.or_self, Bool.false_eq_true, if_false]
  rw [Dev.nextPc_inside (by simpa using hroom)]
  simp [Dev.fetched_pc hf, Tab.get_set_same, linkOpened]

/-- R103: the transfer of a context without side list reads 0, and the context is ready. -/
theorem Dev.linkComplete_ready {d : Dev} {c k : Nat} {l : LinkCtx} (hl : Tab.get none (d.coreAt c).links k = some l) (hready : l.ready = false)
    (hcap : l.cap = 0) :
    Tab.get none ((d.linkComplete c k).coreAt c).links k = some { l with ready := true } ∧
    (d.linkComplete c k).mem = { d.mem with cs := Tab.keep d.mem.cs (fun a _ =>
      !(decide (c * 2 ^ 25 + l.pbase ≤ a) && decide (a < c * 2 ^ 25 + l.pbase + qlSize l.code l.n l.cap))) } := by
  simp only [Dev.linkComplete, hl, hready, hcap, Bool.false_eq_true, if_false, Nat.lt_irrefl]
  refine ⟨?_, by simp⟩
  obtain ⟨m, hm⟩ := Dev.complete_coreAt _ c _ l.pc false false
  rw [hm]
  simp [Tab.get_set_same]

/-! ### Fetches that stop the program (R91, R96, R98, R110) -/

/-- An uncorrectable word stops the program before anything of the descriptor is read. -/
theorem Dev.doNop_uncorrectable {d : Dev} {c : Nat} (hst : (d.coreAt c).st = .run) (hcur : (d.coreAt c).cur = none) (hpc : d.pc c + 64 ≤ csSize) :
    d.doNop c .uncFetch = ((d.eccNote c .uncFetch).setPc c (d.pc c + 64)).tenFail c 0x0B (d.pc c) 0 := by
  have hin : ¬csSize < d.pc c + 64 := by omega
  simp [Dev.doNop, Dev.issue, hst, hcur, Dev.curPc, hin]

theorem Dev.doNop_unknown {d : Dev} {c desc : Nat} (hst : (d.coreAt c).st = .run) (hcur : (d.coreAt c).cur = none) (hpc : d.pc c + 64 ≤ csSize)
    (hdesc : d.csNat c (d.pc c) 64 = desc) (hop : bits desc 7 0 = 0 ∨ 10 < bits desc 7 0) :
    d.doNop c .none = (d.fetch c .none).tenFail c 1 (d.pc c) desc := by
  have hin : ¬csSize < d.pc c + 64 := by omega
  simp [Dev.doNop, Dev.issue, hst, hcur, Dev.curPc, Dev.curDesc, hin, hdesc, hop]

/-- R91: an uncorrectable word sets its event. -/
theorem Dev.eccNote_uncFetch_event (d : Dev) (c : Nat) : wbit ((d.eccNote c .uncFetch).rd (tenReg c 0x10)) 5 = true :=
  Dev.event_set (d.count (tenReg c 0x74) 1) (tenReg c 0x10) 5 (by omega)

/-! ### The obligation -/

/-- Settles O40: each clause is the branch of its command that its hypotheses select; a completion leaves of the core's record all but the
completions that wait, and of its registers all that the clauses read. -/
theorem theSequencerRuns : Obligations.TheSequencerRuns := by
  unfold Obligations.TheSequencerRuns
  refine ⟨?nop, ?endProgram, ?jumpTurns, ?jumpLeaves, ?walk, ?link, ?linkComplete, ?uncorrectable, ?unknown⟩
  case nop =>
    intro s c desc ecc ha hf hrsv hpc hecc
    refine ⟨_, Machine.live_next ha (fun d => d.doNop c ecc), ?_⟩
    obtain ⟨hst, -⟩ := Dev.fetches_parts hf
    obtain ⟨l, hl⟩ := (s.dev.fetch c ecc).complete_coreAt c desc (s.dev.pc c) false false
    dsimp only
    rw [Dev.doNop_sound hf hrsv hpc hecc]
    refine ⟨by simp [Dev.fetched_pc hf], by simp [hl, Dev.fetched_coreAt hf, hst], fun hcatch hdefer => ?_⟩
    rw [Dev.rdN_of_regs (Dev.coreUpd_regs _ _ _)]
    exact Dev.complete_lastSeq hcatch (by rw [Dev.fetched_coreAt hf]; exact hdefer) _ _
  case endProgram =>
    intro s c desc ecc ha hf hrsv hquiet hecc
    refine ⟨_, Machine.live_next ha (fun d => d.doEnd c ecc), ?_⟩
    dsimp only
    rw [Dev.doEnd_sound hf hrsv hquiet hecc]
    refine ⟨?_, by simp, Dev.event_set _ _ _ (by omega)⟩
    rw [Dev.pc, Dev.rdN_event_other _ _ (tenReg_ne (by omega)), ← Dev.pc]
    simp [Dev.fetched_pc hf]
  case jumpTurns =>
    intro s c desc ecc ha hf hrsv hcount hmore hlow hhigh hecc
    exact ⟨_, Machine.live_next ha (fun d => d.doJump c ecc), Dev.doJump_turns hf hrsv hcount hmore hlow hhigh hecc⟩
  case jumpLeaves =>
    intro s c desc ecc ha hf hrsv hcount hlast hpc hecc
    exact ⟨_, Machine.live_next ha (fun d => d.doJump c ecc), Dev.doJump_leaves hf hrsv hcount hlast hpc hecc⟩
  case walk =>
    intro s c desc ecc ha hf hrsv herrs hfree hpc hecc
    exact ⟨_, Machine.live_next ha (fun d => d.doWalk c ecc), Dev.doWalk_loads hf hrsv herrs hfree hpc hecc⟩
  case link =>
    intro s c desc ecc ha hf hrsv herrs hfree hnone hpc hecc
    exact ⟨_, Machine.live_next ha (fun d => d.doLink c ecc), Dev.doLink_opens hf hrsv herrs hfree hnone hpc hecc⟩
  case linkComplete =>
    intro s c k l ha hl hready hcap
    refine ⟨_, Machine.live_next ha (fun d => d.linkComplete c k), ?_⟩
    obtain ⟨hlinks, hmem⟩ := Dev.linkComplete_ready hl hready hcap
    dsimp only
    exact ⟨hlinks, by rw [hmem], by rw [hmem]⟩
  case uncorrectable =>
    intro s c ha hst hcur hpc
    refine ⟨_, Machine.live_next ha (fun d => d.doNop c .uncFetch), ?_⟩
    dsimp only
    rw [Dev.doNop_uncorrectable hst hcur hpc]
    have hevent : wbit (((s.dev.eccNote c .uncFetch).setPc c (s.dev.pc c + 64)).rd (tenReg c 0x10)) 5 = true := by
      rw [Dev.setPc, Dev.rd_wrN_other _ _ (tenReg_ne (by omega))]
      exact s.dev.eccNote_uncFetch_event c
    obtain ⟨herror, hcode, herrpc, hpcReg, hset, hkeeps⟩ := Dev.tenFail_leaves
      (d := (s.dev.eccNote c .uncFetch).setPc c (s.dev.pc c + 64)) (c := c) (by simp [hst]) 0x0B (pc := s.dev.pc c) (by omega) 0
    exact ⟨herror, hcode, herrpc, hpcReg.trans (Dev.pc_setPc (by omega) (by omega) _ _), hset, hkeeps 5 hevent⟩
  case unknown =>
    intro s c desc ha hst hcur hpc hdesc hop
    refine ⟨_, Machine.live_next ha (fun d => d.doNop c .none), ?_⟩
    dsimp only
    rw [Dev.doNop_unknown hst hcur hpc hdesc hop]
    obtain ⟨herror, hcode, herrpc, hpcReg, hset, -⟩ := Dev.tenFail_leaves
      (d := s.dev.fetch c .none) (c := c) (by rw [Dev.fetch_coreAt hcur]; simp [hst]) 1 (pc := s.dev.pc c) (by omega) desc
    exact ⟨herror, hcode, herrpc, hpcReg.trans (Dev.fetch_pc hcur hpc _), hset⟩

end Sys2Proof
end

section
/-! The move engine, and the descriptors that use the priority queues and the Catcher: the obligation O41. -/

namespace Sys2Proof

/-! ### The checks of a descriptor that uses memory or queues -/

theorem Dev.inShare_of_ptn {d e : Dev} (h : e.ptn = d.ptn) (p off len : Nat) : e.inShare p off len = d.inShare p off len := by
  unfold Dev.inShare Dev.ent
  rw [h]

theorem Dev.pqAt_of_pq {d e : Dev} (h : e.pq = d.pq) (n : Nat) : e.pqAt n = d.pqAt n := by
  unfold Dev.pqAt
  rw [h]

@[simp] theorem Dev.pqSet_mem (d : Dev) (n : Nat) (q : Pq) : (d.pqSet n q).mem = d.mem := rfl
@[simp] theorem Dev.coreAt_pqSet (d : Dev) (n : Nat) (q : Pq) (c : Nat) : (d.pqSet n q).coreAt c = d.coreAt c := rfl
@[simp] theorem Dev.pqAt_pqSet_same (d : Dev) (n : Nat) (q : Pq) : (d.pqSet n q).pqAt n = q := Tab.get_set_same _ _ _ _

/-- R158, R159: who may use a queue is a matter of the queues and the partitions. -/
theorem Dev.coreMayQueue_congr {d e : Dev} (hpq : e.pq = d.pq) (hptn : e.ptn = d.ptn) (c q : Nat) : e.coreMayQueue c q = d.coreMayQueue c q := by
  simp only [Dev.coreMayQueue, Dev.pqAt_of_pq hpq, Dev.ownerOfCore_of_ptn hptn, Dev.sameGang_of_ptn hptn]

theorem waitqErrs_congr {d e : Dev} (hpq : e.pq = d.pq) (hptn : e.ptn = d.ptn) (c desc : Nat) : waitqErrs c desc e = waitqErrs c desc d := by
  simp only [waitqErrs, Dev.coreMayQueue_congr hpq hptn]

theorem signalErrs_congr {d e : Dev} (hpq : e.pq = d.pq) (hptn : e.ptn = d.ptn) (c desc : Nat) : signalErrs c desc e = signalErrs c desc d := by
  simp only [signalErrs, Dev.coreMayQueue_congr hpq hptn]

/-- R104: the checks of a MOVE read the link contexts and the partitions. -/
theorem moveErrs_congr {d e : Dev} {c : Nat} (hlinks : (e.coreAt c).links = (d.coreAt c).links) (hptn : e.ptn = d.ptn) (desc : Nat) :
    moveErrs c desc e = moveErrs c desc d := by
  simp only [moveErrs, hlinks, Dev.corePtn_of_ptn hptn, Dev.inShare_of_ptn hptn, Dev.ownerOfCore_of_ptn hptn, Dev.sameGang_of_ptn hptn]

/-! ### The move engine takes up a MOVE (R96, R104) -/

/-- R91, R126: a source without an uncorrectable word stops no MOVE, and what its checks counted stands in no TEN_PC. -/
theorem Dev.moveEcc_sound {d : Dev} {c : Nat} {m : MoveRun} (hc : c < 32) (hunc : m.ecc.unc = false) :
    (d.moveEcc c m).2 = false ∧ (d.moveEcc c m).1.pc c = d.pc c := by
  have hcount : ∀ k, tenReg c 0x0C ≠ k → (d.count k 1).pc c = d.pc c := fun k hk => Dev.rdN_count_other d 1 hk
  unfold Dev.moveEcc
  split
  · refine ⟨by simp [Dev.shLost, hunc], ?_⟩
    have hmem : ∀ off, tenReg c 0x0C ≠ memReg off := by
      intro off
      unfold tenReg tenBase memReg memBase
      omega
    simp only [Dev.shEcc, Dev.hbmEcc, hunc, Bool.false_and, Bool.false_eq_true, if_false]
    split
    · exact hcount _ (hmem _)
    · rfl
  · refine ⟨hunc, ?_⟩
    have hten : ∀ k, tenReg c 0x0C ≠ tenReg k 0x70 := by
      intro k
      unfold tenReg
      omega
    simp only [Dev.eccNote, hunc, Bool.false_eq_true, if_false]
    split
    · exact hcount _ (hten _)
    · rfl

/-- A MOVE without conversion at the head of the engine is taken up. -/
theorem Dev.runMove_takes {d : Dev} {c : Nat} {m : MoveRun} {rest : List MoveRun} (hc : c < 32) (hmoves : (d.coreAt c).moves = m :: rest)
    (hstart : m.started = false) (hunc : m.ecc.unc = false) (hconv : mvConv m.desc = 0) :
    (d.runMove c).coreAt c = { d.coreAt c with moves := { m with started := true, ecc := .none } :: rest } ∧
    (d.runMove c).mem = d.mem ∧ (d.runMove c).pc c = d.pc c := by
  obtain ⟨hsound, hpc⟩ := Dev.moveEcc_sound (d := d) (m := m) hc hunc
  have hrun : d.runMove c = (d.moveEcc c m).1.coreUpd c (fun x => { x with moves := { m with started := true, ecc := .none } :: rest }) := by
    simp [Dev.runMove, hmoves, hstart, hsound, Dev.moveErr, hconv]
  rw [hrun, Dev.coreAt_coreUpd_same, Dev.coreAt_of_tensor (Dev.moveEcc_tensor d c m)]
  exact ⟨rfl, (Dev.coreUpd_mem _ _ _).trans (Dev.mem_of_tensor (Dev.moveEcc_tensor d c m)), hpc⟩

theorem Dev.runMove_empty {d : Dev} {c : Nat} (hmoves : (d.coreAt c).moves = []) : d.runMove c = d := by
  simp [Dev.runMove, hmoves]

/-- R104: a sound MOVE without conversion enters an empty engine and is taken up. -/
theorem Dev.doMove_takes {d : Dev} {c desc : Nat} {ecc : Ecc} (hc : c < 32) (hf : d.fetches c 4 desc = true) (hrsv : bits desc 379 64 = 0)
    (herrs : moveErrs c desc d = []) (hconv : mvConv desc = 0) (hempty : (d.coreAt c).moves = []) (hpc : d.pc c + 128 ≤ csSize)
    (hunc : ecc.unc = false) :
    ((d.doMove c ecc).coreAt c).moves = [{ desc := desc, pc := d.pc c, started := true }] ∧ (d.doMove c ecc).mem = d.mem ∧
    (d.doMove c ecc).pc c = d.pc c + 64 := by
  obtain ⟨hst, hcur, -⟩ := Dev.fetches_parts hf
  obtain ⟨-, -, -, hptn⟩ := Dev.fetch_beside hcur ecc
  have hfetched := Dev.fetched_coreAt hf ecc
  have hecc : ecc ≠ .uncFetch := by
    rintro rfl
    cases hunc
  set m : MoveRun := { desc := desc, pc := d.pc c, ecc := ecc.data } with hm
  set e : Dev := (d.fetch c ecc).coreSet c { (d.fetch c ecc).coreAt c with moves := [m] } with he
  have hentered : e.coreAt c = { (d.fetch c ecc).coreAt c with moves := [m] } := Dev.coreAt_coreSet_same _ _ _
  obtain ⟨htaken, hmem, hpcReg⟩ := Dev.runMove_takes (d := e) (m := m) (rest := []) hc (by rw [hentered]) rfl (Ecc.data_unc hunc) hconv
  rw [hentered, hfetched] at htaken
  have hnow : (e.runMove c).pc c = d.pc c + 64 := by
    rw [hpcReg, ← Dev.fetched_pc hf ecc]
    exact Dev.pc_of_regs (Dev.coreSet_regs _ _ _) c
  have hmove : d.doMove c ecc = (e.runMove c).coreUpd c (fun x => { x with cur := none }) := by
    rw [Dev.doMove, Dev.issue_sound hf (by omega) (by omega) hecc (by simp [hrsv]) (by rw [moveErrs_congr (by rw [hfetched]) hptn, herrs]),
      ← Dev.nextPc_inside (d := e.runMove c) (c := c) (by omega)]
    have hnone : ((d.fetch c ecc).coreAt c).moves = [] := by
      rw [hfetched]
      exact hempty
    simp [hconv, hnone, ← hm, ← he, htaken, hst]
  rw [hmove]
  exact ⟨by rw [Dev.coreAt_coreUpd_same, htaken], hmem.trans (d.fetch_mem c ecc), hnow⟩

/-! ### The last write of a MOVE (R97, R104, R105) -/

/-- The MOVE at the head of an engine that works, or freezes, ends; without a next one there is nothing to take up. -/
theorem Dev.moveComplete_leaves {d : Dev} {c : Nat} {m : MoveRun} (hmoves : (d.coreAt c).moves = [m]) (hstart : m.started = true)
    (hsaved : (d.coreAt c).st ≠ .saved) (hfaulted : (d.coreAt c).st ≠ .faulted) :
    ((d.moveComplete c).coreAt c).moves = [] ∧
    (d.moveComplete c).mem = (d.moveSpan c m (mvTotal m.desc ((d.coreAt c).mvLink m.desc))).mem := by
  have hend : ((d.moveEnd c m []).coreAt c).moves = [] := by
    obtain ⟨l, hl⟩ := ((d.moveSpan c m (mvTotal m.desc ((d.coreAt c).mvLink m.desc))).coreUpd c (fun x => { x with moves := [] })).complete_coreAt
      c m.desc m.pc false false
    rw [Dev.moveEnd, Dev.coreAt_bankStalls, hl]
    simp
  have hcomplete : d.moveComplete c = d.moveEnd c m [] := by
    simp [Dev.moveComplete, hmoves, hstart, hsaved, hfaulted, Dev.runMove_empty hend]
  rw [hcomplete]
  exact ⟨hend, by simp [Dev.moveEnd]⟩

theorem Dev.moveSpan_copies {m : MoveRun} (hconv : mvConv m.desc = 0) (d : Dev) (c : Nat) :
    d.moveSpan c m (mvTotal m.desc ((d.coreAt c).mvLink m.desc)) =
      d.mvWrite c m.desc (mvDst m.desc + m.done) (d.mvRead c m.desc (mvSrc m.desc + m.done) (bits m.desc 431 400 - m.done)) := by
  simp [Dev.moveSpan, mvTotal, hconv]

theorem Dev.moveSpan_converts {d : Dev} {c : Nat} {m : MoveRun} {l : LinkCtx} (hconv : mvConv m.desc ≠ 0)
    (hlink : (d.coreAt c).mvLink m.desc = some l) :
    d.moveSpan c m (mvTotal m.desc ((d.coreAt c).mvLink m.desc)) =
      if mvConv m.desc = 1 then d.moveEncode c m.desc l m.done l.n else d.moveDecode c m.desc l m.done l.n := by
  have htotal : mvTotal m.desc (some l) = l.n := by
    unfold mvTotal
    split <;> simp_all
  rw [hlink, htotal]
  unfold Dev.moveSpan
  dsimp only
  rw [hlink]
  split <;> simp_all

/-! ### WAITQ (R106, R162) -/

/-- R106: what a WAITQ stores when it ends: an entry with its status, or the status of a TIMEOUT. -/
def Dev.waitqStore (d : Dev) (c desc : Nat) : Option PqEntry → Dev
  | some e => (d.csWrite c (bits desc 511 487) e.data).csWrite c (bits desc 486 462) (leBytes 8 (1 + 256 * e.level))
  | none => d.csWrite c (bits desc 486 462) (leBytes 8 2)

theorem Dev.waitqEnd_eq (d : Dev) (c : Nat) (e : Option PqEntry) :
    d.waitqEnd c e = (d.waitqStore c (d.curDesc c) e).runsOn c (d.curDesc c) (d.curPc c) := by
  cases e <;> rfl

theorem Dev.waitqStore_mem_congr {d e : Dev} (h : e.mem = d.mem) (c desc : Nat) (x : Option PqEntry) :
    (e.waitqStore c desc x).mem = (d.waitqStore c desc x).mem := by
  cases x with
  | none => exact Dev.csWrite_mem_congr h _ _ _
  | some x => exact Dev.csWrite_mem_congr (Dev.csWrite_mem_congr h _ _ _) _ _ _

theorem Dev.waitqStore_beside (d : Dev) (c desc : Nat) (x : Option PqEntry) :
    (d.waitqStore c desc x).pc c = d.pc c ∧ (d.waitqStore c desc x).pq = d.pq := by
  cases x <;> exact ⟨rfl, rfl⟩

/-- R106: what the end of a WAITQ leaves. -/
theorem Dev.waitqEnd_leaves {d : Dev} {c : Nat} (hpc : d.pc c + 64 ≤ csSize) (e : Option PqEntry) :
    ((d.waitqEnd c e).coreAt c).st = .run ∧ ((d.waitqEnd c e).coreAt c).waiting = none ∧
    (d.waitqEnd c e).mem = (d.waitqStore c (d.curDesc c) e).mem ∧ (d.waitqEnd c e).pq = d.pq := by
  obtain ⟨hpcReg, hpq⟩ := d.waitqStore_beside c (d.curDesc c) e
  obtain ⟨⟨l, hcore⟩, hmem, hkeeps, -⟩ :=
    Dev.runsOn_leaves (d := d.waitqStore c (d.curDesc c) e) (by rwa [hpcReg]) (d.curDesc c) (d.curPc c)
  rw [Dev.waitqEnd_eq]
  exact ⟨by rw [hcore], by rw [hcore], hmem, hkeeps.trans hpq⟩

/-- R106: a sound WAITQ on a queue with an entry and no waiter takes the entry. -/
theorem Dev.doWaitq_takes {d : Dev} {c desc : Nat} {e : PqEntry} {y : Pq} {ecc : Ecc} (hf : d.fetches c 5 desc = true)
    (hrsv : bits desc 423 64 = 0) (herrs : waitqErrs c desc d = []) (hwaiters : (d.pqAt (bits desc 429 424)).waiters = [])
    (hpop : ({ d.pqAt (bits desc 429 424) with popPtr := (c + 1) % 84 } : Pq).pop = some (e, y)) (hpc : d.pc c + 128 ≤ csSize)
    (hecc : ecc ≠ .uncFetch) :
    (d.doWaitq c ecc).pqAt (bits desc 429 424) = y ∧ ((d.doWaitq c ecc).coreAt c).st = .run ∧
    (d.doWaitq c ecc).mem = (d.waitqStore c desc (some e)).mem := by
  obtain ⟨-, hcur, -⟩ := Dev.fetches_parts hf
  obtain ⟨hpq, -, -, hptn⟩ := Dev.fetch_beside hcur ecc
  have hroom := Dev.fetch_room hf hpc ecc
  have hwait : d.doWaitq c ecc = ((d.fetch c ecc).pqSet (bits desc 429 424) y).waitqEnd c (some e) := by
    rw [Dev.doWaitq, Dev.issue_sound hf (by omega) (by omega) hecc (by simp [hrsv]) (by rw [waitqErrs_congr hpq hptn, herrs])]
    simp only [hwaiters] at hpop
    simp only [Dev.pqAt_of_pq hpq, hwaiters, hpop]
  have hdesc : ((d.fetch c ecc).pqSet (bits desc 429 424) y).curDesc c = desc := by
    simp only [Dev.curDesc, Dev.coreAt_pqSet, Dev.fetched_coreAt hf]
  obtain ⟨hst, -, hmem, hleft⟩ := Dev.waitqEnd_leaves (d := (d.fetch c ecc).pqSet (bits desc 429 424) y) (c := c)
    (by rwa [Dev.pc_of_regs (Dev.pqSet_regs _ _ _)]) (some e)
  rw [hwait]
  refine ⟨by rw [Dev.pqAt_of_pq hleft, Dev.pqAt_pqSet_same], hst, ?_⟩
  rw [hmem, hdesc]
  exact Dev.waitqStore_mem_congr ((Dev.pqSet_mem _ _ _).trans (d.fetch_mem c ecc)) c desc _

theorem Pq.pop_empty {q : Pq} (h : q.ents = []) : q.pop = none := by
  simp [Pq.pop, Pq.top1, h]

/-- R162: a sound WAITQ on an empty queue waits behind the queue's waiters, with its descriptor fetched. -/
theorem Dev.doWaitq_waits {d : Dev} {c desc : Nat} {ecc : Ecc} (hf : d.fetches c 5 desc = true) (hrsv : bits desc 423 64 = 0)
    (herrs : waitqErrs c desc d = []) (hempty : (d.pqAt (bits desc 429 424)).ents = []) (hecc : ecc ≠ .uncFetch) :
    d.doWaitq c ecc = ((d.fetch c ecc).pqSet (bits desc 429 424) { d.pqAt (bits desc 429 424) with
        popPtr := (c + 1) % 84, waiters := (d.pqAt (bits desc 429 424)).waiters ++ [c] }).coreUpd c
      (fun x => { x with st := .wait, waiting := some (.queue (bits desc 429 424) d.now) }) := by
  obtain ⟨-, hcur, -⟩ := Dev.fetches_parts hf
  obtain ⟨hpq, -, -, hptn⟩ := Dev.fetch_beside hcur ecc
  have hnow : (d.fetch c ecc).now = d.now := by
    rw [Dev.now_eq, Dev.fetch_control, ← Dev.now_eq]
  have hpop : ({ d.pqAt (bits desc 429 424) with popPtr := (c + 1) % 84 } : Pq).pop = none := Pq.pop_empty hempty
  rw [Dev.doWaitq, Dev.issue_sound hf (by omega) (by omega) hecc (by simp [hrsv]) (by rw [waitqErrs_congr hpq hptn, herrs])]
  simp only [Dev.pqAt_of_pq hpq, hpop, hnow]
  cases (d.pqAt (bits desc 429 424)).waiters <;> rfl

/-- R106: a WAITQ with a TIMEOUT leaves the waiters of its queue at it. -/
theorem Dev.waitqTimeout_leaves {d : Dev} {c k since : Nat} (hwaiting : (d.coreAt c).waiting = some (.queue k since))
    (htimeout : bits (d.curDesc c) 461 430 ≠ 0) (hpc : d.pc c + 64 ≤ csSize) :
    ((d.waitqTimeout c).coreAt c).waiting = none ∧ ((d.waitqTimeout c).coreAt c).st = .run ∧
    ((d.waitqTimeout c).pqAt k).waiters = (d.pqAt k).waiters.filter (fun w => decide (w ≠ c)) ∧
    (d.waitqTimeout c).mem = (d.waitqStore c (d.curDesc c) none).mem := by
  have htime : d.waitqTimeout c = (d.unwait c).waitqEnd c none := by
    simp [Dev.waitqTimeout, hwaiting, htimeout]
  have hunwait : d.unwait c = d.pqSet k { d.pqAt k with waiters := (d.pqAt k).waiters.filter (fun w => decide (w ≠ c)) } := by
    simp [Dev.unwait, hwaiting]
  have hmem : (d.unwait c).mem = d.mem := Dev.mem_of_tensor (by simp)
  have hdesc : (d.unwait c).curDesc c = d.curDesc c := Dev.curDesc_congr (by simp) hmem (Dev.unwait_regs d c)
  obtain ⟨hst, hwait, hstore, hpq⟩ := Dev.waitqEnd_leaves (d := d.unwait c) (c := c) (by rwa [Dev.pc_of_regs (Dev.unwait_regs d c)]) none
  rw [htime]
  refine ⟨hwait, hst, by rw [Dev.pqAt_of_pq hpq, hunwait, Dev.pqAt_pqSet_same], ?_⟩
  rw [hstore, hdesc]
  exact Dev.waitqStore_mem_congr hmem c _ _

/-! ### SIGNAL (R107, R150, R160) -/

/-- R160: a push with room lands behind the entries held, and sets events of its queue alone. -/
theorem Dev.pqPush_room {d : Dev} {n : Nat} (hroom : (d.pqAt n).ents.length < (d.pqAt n).cap) (port : Nat) (e : PqEntry) :
    ((d.pqPush n port e).1.pqAt n).ents = (d.pqAt n).ents ++ [e] ∧
    ∀ k, k ≠ pqBase + 0x100 * n + 0x08 → (d.pqPush n port e).1.rd k = d.rd k := by
  simp only [Dev.pqPush, hroom, if_true]
  refine ⟨?_, fun k hk => ?_⟩
  · rw [Dev.pqAt_of_pq (d := d.pqSet n { d.pqAt n with pushPtr := (port + 1) % 84, ents := (d.pqAt n).ents ++ [e] })
      (by (repeat' split) <;> simp), Dev.pqAt_pqSet_same]
  · (repeat' split) <;> simp [Dev.rd_event_other _ _ hk]

theorem Dev.pc_pqPush {d : Dev} {n : Nat} (hroom : (d.pqAt n).ents.length < (d.pqAt n).cap) (port : Nat) (e : PqEntry) (c : Nat) :
    (d.pqPush n port e).1.pc c = d.pc c := by
  have hne : tenReg c 0x0C ≠ pqBase + 0x100 * n + 0x08 := by
    unfold tenReg tenBase pqBase
    omega
  unfold Dev.pc Dev.rdN
  rw [(Dev.pqPush_room hroom port e).2 _ hne]

/-- R107: a SIGNAL with PUSH and without POST appends 32 bytes of core store. -/
theorem Dev.doSignal_pushes {d : Dev} {c desc : Nat} {ecc : Ecc} (hf : d.fetches c 6 desc = true) (hrsv : bits desc 411 64 = 0)
    (herrs : signalErrs c desc d = []) (hquiet : (d.coreAt c).quiet = true) (hpush : bit desc 413 = true) (hpost : bit desc 412 = false)
    (hroom : (d.pqAt (bits desc 422 417)).ents.length < (d.pqAt (bits desc 422 417)).cap) (hpc : d.pc c + 128 ≤ csSize)
    (hecc : ecc ≠ .uncFetch) :
    ((d.doSignal c ecc).pqAt (bits desc 422 417)).ents =
      (d.pqAt (bits desc 422 417)).ents ++ [{ level := bits desc 416 414, data := d.csRead c (bits desc 447 423) 32 }] ∧
    (d.doSignal c ecc).pc c = d.pc c + 64 := by
  obtain ⟨-, hcur, -⟩ := Dev.fetches_parts hf
  obtain ⟨hpq, -, -, hptn⟩ := Dev.fetch_beside hcur ecc
  rw [← Dev.pqAt_of_pq hpq] at hroom ⊢
  rw [← Dev.csRead_of_mem (d.fetch_mem c ecc)]
  set e : PqEntry := { level := bits desc 416 414, data := (d.fetch c ecc).csRead c (bits desc 447 423) 32 } with he
  obtain ⟨hents, -⟩ := Dev.pqPush_room hroom c e
  have hnow := (Dev.pc_pqPush hroom c e c).trans (Dev.fetched_pc hf ecc)
  have hsignal : d.doSignal c ecc = (((d.fetch c ecc).pqPush (bits desc 422 417) c e).1.complete c desc (d.pc c) false false).coreUpd c
      (fun x => { x with cur := none }) := by
    rw [Dev.doSignal, Dev.issue_quiet hquiet,
      Dev.issue_sound hf (by omega) (by omega) hecc (by simp [hrsv]) (by rw [signalErrs_congr hpq hptn, herrs])]
    simp only [hpush, hpost, Bool.false_eq_true, if_true, if_false, ← he]
    exact Dev.complete_nextPc (by omega) desc (d.pc c)
  rw [hsignal]
  exact ⟨by rw [Dev.pqAt_of_pq ((Dev.coreUpd_pq _ _ _).trans (Dev.complete_pq _ _ _ _ _ _)), hents],
    by rw [Dev.pc_coreUpd, Dev.pc_complete, hnow]⟩

/-- R150: a record whose source has room and holds nothing back enters its FIFO. -/
theorem Dev.corePost_room {d : Dev} {c : Nat} {r : CatRec} (hsource : r.source = c) (hroom : (Tab.get [] d.cat.fifo c).length < 8)
    (hhold : Tab.get [] d.cat.hold c = []) :
    Tab.get [] (d.corePost c r none).cat.fifo c = Tab.get [] d.cat.fifo c ++ [r] ∧ (d.corePost c r none).regs = d.regs := by
  have hfree : ¬8 ≤ (Tab.get [] d.cat.fifo c).length := by omega
  have hpost : d.corePost c r none = d.catPut r := by
    simp [Dev.corePost, hfree, hhold]
  rw [hpost]
  refine ⟨?_, Dev.catPut_regs d r⟩
  rw [Dev.catPut, hsource]
  dsimp only
  rw [if_pos ⟨hroom, hhold⟩]
  exact Tab.get_set_same _ _ _ _

/-- R107: the record of a SIGNAL with POST at `pc`. -/
def Dev.signalRecord (d : Dev) (c desc pc : Nat) : CatRec :=
  { value := bits desc 511 448, seq := bits desc 63 48, source := c, partition := d.corePtn c, kind := 2, opcode := 6, detail := pc % 2 ^ 32 }

/-- R107: a SIGNAL with POST and without PUSH places its record. -/
theorem Dev.doSignal_posts {d : Dev} {c desc : Nat} {ecc : Ecc} (hf : d.fetches c 6 desc = true) (hrsv : bits desc 411 64 = 0)
    (hquiet : (d.coreAt c).quiet = true) (hpush : bit desc 413 = false) (hpost : bit desc 412 = true) (hcatch : bit desc 11 = false)
    (hroom : (Tab.get [] d.cat.fifo c).length < 8) (hhold : Tab.get [] d.cat.hold c = []) (hpc : d.pc c + 128 ≤ csSize)
    (hecc : ecc ≠ .uncFetch) :
    Tab.get [] (d.doSignal c ecc).cat.fifo c = Tab.get [] d.cat.fifo c ++ [d.signalRecord c desc (d.pc c)] ∧
    (d.doSignal c ecc).pc c = d.pc c + 64 := by
  obtain ⟨-, hcur, -⟩ := Dev.fetches_parts hf
  obtain ⟨-, hcat, -, hptn⟩ := Dev.fetch_beside hcur ecc
  have hrecord : (d.fetch c ecc).signalRecord c desc (d.pc c) = d.signalRecord c desc (d.pc c) := by
    simp only [Dev.signalRecord, Dev.corePtn_of_ptn hptn]
  rw [← hcat] at hroom hhold ⊢
  rw [← hrecord]
  obtain ⟨hfifo, hregs⟩ := Dev.corePost_room (c := c) (r := (d.fetch c ecc).signalRecord c desc (d.pc c)) rfl hroom hhold
  have hnow := (Dev.pc_of_regs hregs c).trans (Dev.fetched_pc hf ecc)
  have hin : ((d.fetch c ecc).corePost c ((d.fetch c ecc).signalRecord c desc (d.pc c)) none).pc c + 64 ≤ csSize := by omega
  have hsignal : d.doSignal c ecc = (((d.fetch c ecc).corePost c ((d.fetch c ecc).signalRecord c desc (d.pc c)) none).complete c desc (d.pc c)
      false false).coreUpd c (fun x => { x with cur := none }) := by
    rw [Dev.doSignal, Dev.issue_quiet hquiet,
      Dev.issue_sound hf (by omega) (by omega) hecc (by simp [hrsv]) (by simp [signalErrs, hpush])]
    simp only [hpush, hpost, Bool.false_eq_true, if_true, if_false]
    exact Dev.complete_nextPc hin desc (d.pc c)
  rw [hsignal]
  exact ⟨by rw [Dev.coreUpd_cat, Dev.complete_cat hcatch, hfifo], by rw [Dev.pc_coreUpd, Dev.pc_complete, hnow]⟩

/-! ### The obligation -/

/-- Settles O41: each clause is the branch of its command that its hypotheses select; what the checks of a fetch or of a source note, and
what a completion leaves behind, stand beside what the clauses read. -/
theorem movesQueuesAndSignalsRun : Obligations.MovesQueuesAndSignalsRun := by
  unfold Obligations.MovesQueuesAndSignalsRun
  refine ⟨?move, ?moveEnds, ?moveConverts, ?waitqTakes, ?waitqWaits, ?waitqTimeout, ?signalPushes, ?signalPosts⟩
  case move =>
    intro s c desc ecc ha hf hrsv herrs hconv hempty hpc hunc
    exact ⟨_, Machine.live_next ha (fun d => d.doMove c ecc), Dev.doMove_takes c.isLt hf hrsv herrs hconv hempty hpc hunc⟩
  case moveEnds =>
    intro s c m ha hmoves hstart hsaved hfaulted hconv
    refine ⟨_, Machine.live_next ha (fun d => d.moveComplete c), ?_⟩
    rw [← Dev.moveSpan_copies hconv]
    exact Dev.moveComplete_leaves hmoves hstart hsaved hfaulted
  case moveConverts =>
    intro s c m l ha hmoves hstart hsaved hfaulted hconv hlink
    refine ⟨_, Machine.live_next ha (fun d => d.moveComplete c), ?_⟩
    rw [← Dev.moveSpan_converts hconv hlink]
    exact Dev.moveComplete_leaves hmoves hstart hsaved hfaulted
  case waitqTakes =>
    intro s c desc e y ecc ha hf hrsv herrs hwaiters hpop hpc hecc
    exact ⟨_, Machine.live_next ha (fun d => d.doWaitq c ecc), Dev.doWaitq_takes hf hrsv herrs hwaiters hpop hpc hecc⟩
  case waitqWaits =>
    intro s c desc ecc ha hf hrsv herrs hempty hecc
    refine ⟨_, Machine.live_next ha (fun d => d.doWaitq c ecc), ?_⟩
    dsimp only
    rw [Dev.doWaitq_waits hf hrsv herrs hempty hecc]
    set q : Pq := { s.dev.pqAt (bits desc 429 424) with
      popPtr := (c.val + 1) % 84, waiters := (s.dev.pqAt (bits desc 429 424)).waiters ++ [c.val] } with hq
    refine ⟨by rw [Dev.pqAt_of_pq (Dev.coreUpd_pq _ _ _), Dev.pqAt_pqSet_same], by simp, by simp, ?_, ?_, ?_⟩
    · rw [Dev.coreUpd_mem, Dev.pqSet_mem, Dev.fetch_mem]
    · rw [Dev.pc_coreUpd, Dev.pc_of_regs (Dev.pqSet_regs _ _ _), Dev.fetched_pc hf]
    · rw [Dev.coreAt_coreUpd_same, Dev.coreAt_pqSet, Dev.fetched_coreAt hf]
  case waitqTimeout =>
    intro s c k since ha hwaiting htimeout hpc
    exact ⟨_, Machine.live_next ha (fun d => d.waitqTimeout c), Dev.waitqTimeout_leaves hwaiting htimeout hpc⟩
  case signalPushes =>
    intro s c desc ecc ha hf hrsv herrs hquiet hpush hpost hroom hpc hecc
    exact ⟨_, Machine.live_next ha (fun d => d.doSignal c ecc), Dev.doSignal_pushes hf hrsv herrs hquiet hpush hpost hroom hpc hecc⟩
  case signalPosts =>
    intro s c desc ecc ha hf hrsv hquiet hpush hpost hcatch hroom hhold hpc hecc
    exact ⟨_, Machine.live_next ha (fun d => d.doSignal c ecc), Dev.doSignal_posts hf hrsv hquiet hpush hpost hcatch hroom hhold hpc hecc⟩

end Sys2Proof
end

section
/-! The hardware locks as LOCK descriptors take and release them: the obligation O42. -/

namespace Sys2Proof

/-! ### Locks (R165, R166) -/

theorem Dev.lckAt_of_lck {d e : Dev} (h : e.lck = d.lck) (n : Nat) : e.lckAt n = d.lckAt n := by
  unfold Dev.lckAt
  rw [h]

@[simp] theorem Dev.lckAt_lckSet_same (d : Dev) (n : Nat) (l : Lck) : (d.lckSet n l).lckAt n = l := Tab.get_set_same _ _ _ _
@[simp] theorem Dev.coreAt_lckSet (d : Dev) (n : Nat) (l : Lck) (c : Nat) : (d.lckSet n l).coreAt c = d.coreAt c := rfl
@[simp] theorem Dev.lckSet_mem (d : Dev) (n : Nat) (l : Lck) : (d.lckSet n l).mem = d.mem := rfl

/-- R165: an acquire takes a free lock. -/
theorem Dev.lckAcquire_free_lock {d : Dev} {n : Nat} (hfree : (d.lckAt n).held = false) (o port : Nat) :
    d.lckAcquire n o port = (d.lckSet n { d.lckAt n with held := true, owner := o, ptr := (port + 1) % 84 }, true) := by
  simp [Dev.lckAcquire, hfree]

/-- R165: an acquire of a lock that another owner holds is not granted. -/
theorem Dev.lckAcquire_foreign_lock {d : Dev} {n o : Nat} (hheld : (d.lckAt n).held = true) (hother : (d.lckAt n).owner ≠ o) (port : Nat) :
    d.lckAcquire n o port = (d.lckSet n { d.lckAt n with ptr := (port + 1) % 84 }, false) := by
  simp [Dev.lckAcquire, hheld, hother]

/-- R166: an owner releases its lock. -/
theorem Dev.lckRelease_own {d : Dev} {n o : Nat} (hheld : (d.lckAt n).held = true) (hown : (d.lckAt n).owner = o) :
    d.lckRelease n o = d.lckSet n { d.lckAt n with held := false, owner := 0, broken := false } := by
  simp [Dev.lckRelease, hheld, hown]

/-! ### The end of a LOCK (R108) -/

/-- R108: the status of a LOCK is stored where its descriptor says. -/
def Dev.lockStore (d : Dev) (c : Nat) (st : List Byte) : Dev := d.csWrite c (bits (d.curDesc c) 511 487) st

theorem Dev.lockStore_mem_congr {d e : Dev} {c desc : Nat} (hdesc : e.curDesc c = desc) (hmem : e.mem = d.mem) (st : List Byte) :
    (e.lockStore c st).mem = (d.csWrite c (bits desc 511 487) st).mem := by
  rw [Dev.lockStore, hdesc]
  exact Dev.csWrite_mem_congr hmem _ _ _

/-- R108: what the end of a LOCK leaves. -/
theorem Dev.lockEnd_leaves {d : Dev} {c : Nat} (hpc : d.pc c + 64 ≤ csSize) (st : List Byte) :
    (∃ l, (d.lockEnd c st).coreAt c = { d.coreAt c with st := .run, waiting := none, cur := none, defer := l }) ∧
    (d.lockEnd c st).mem = (d.lockStore c st).mem ∧ (d.lockEnd c st).lck = d.lck := by
  have hend : d.lockEnd c st = (d.lockStore c st).runsOn c (d.curDesc c) (d.curPc c) := rfl
  obtain ⟨hcore, hmem, -, hlck⟩ := Dev.runsOn_leaves (d := d.lockStore c st) (c := c) hpc (d.curDesc c) (d.curPc c)
  rw [hend]
  exact ⟨hcore, hmem, hlck⟩

/-! ### The reads of an acquire (R108, R165) -/

/-- The lock as core c takes it for its partition. -/
def Dev.lckTaken (d : Dev) (c id : Nat) : Lck := { d.lckAt id with held := true, owner := d.corePtn c, ptr := (c + 1) % 84 }

/-- The locks that a core holds, with one more. -/
def Core.holding (x : Core) (id : Nat) : List Nat := if x.held.contains id then x.held else x.held ++ [id]

theorem Core.holding_contains (x : Core) (id : Nat) : (x.holding id).contains id = true := by
  unfold Core.holding
  split
  · assumption
  · simp

/-- An acquire that finds its lock free is granted, whether or not it may read again. -/
theorem Dev.lockRead_free {d : Dev} {c id : Nat} (hfree : (d.lckAt id).held = false) (last : Bool) :
    d.lockRead c id last = ((d.lckSet id (d.lckTaken c id)).coreUpd c (fun x => { x with held := x.holding id })).lockEnd c
      (lockStatus true (d.lckAt id).broken false false (d.corePtn c)) := by
  simp [Dev.lockRead, Dev.lckAcquire_free_lock hfree, Core.holding, Dev.lckTaken]

/-- R108: what a granted acquire leaves. -/
theorem Dev.lockRead_grants {d : Dev} {c id : Nat} (hfree : (d.lckAt id).held = false) (hpc : d.pc c + 64 ≤ csSize) (last : Bool) :
    (d.lockRead c id last).lckAt id = d.lckTaken c id ∧ ((d.lockRead c id last).coreAt c).held.contains id = true ∧
    ((d.lockRead c id last).coreAt c).waiting = none ∧ ((d.lockRead c id last).coreAt c).st = .run ∧
    (d.lockRead c id last).mem =
      (d.csWrite c (bits (d.curDesc c) 511 487) (lockStatus true (d.lckAt id).broken false false (d.corePtn c))).mem := by
  rw [Dev.lockRead_free hfree]
  set e := (d.lckSet id (d.lckTaken c id)).coreUpd c (fun x => { x with held := x.holding id }) with he
  have hdesc : e.curDesc c = d.curDesc c := Dev.curDesc_congr (by simp [he]) (by simp [he]) (by simp [he])
  obtain ⟨⟨l, hcore⟩, hmem, hlck⟩ := Dev.lockEnd_leaves (d := e) (c := c) hpc (lockStatus true (d.lckAt id).broken false false (d.corePtn c))
  refine ⟨?_, ?_, by rw [hcore], by rw [hcore], ?_⟩
  · rw [Dev.lckAt_of_lck hlck, he, Dev.lckAt_of_lck (Dev.coreUpd_lck _ _ _), Dev.lckAt_lckSet_same]
  · rw [hcore, he, Dev.coreAt_coreUpd_same]
    exact Core.holding_contains _ _
  · rw [hmem]
    exact Dev.lockStore_mem_congr hdesc (by simp [he]) _

/-- R108: an acquire that may read again goes on waiting for a lock that another owner holds. -/
theorem Dev.lockRead_waits {d : Dev} {c id since : Nat} (hwaiting : (d.coreAt c).waiting = some (.lock id since))
    (hheld : (d.lckAt id).held = true) (hother : (d.lckAt id).owner ≠ d.corePtn c) :
    ((d.lockRead c id false).coreAt c).waiting = some (.lock id since) ∧ ((d.lockRead c id false).coreAt c).st = .wait ∧
    (d.lockRead c id false).mem = d.mem := by
  simp [Dev.lockRead, Dev.lckAcquire_foreign_lock hheld hother, hwaiting]

/-- R108: the last read of an acquire ends with TIMEOUT when another owner holds the lock. -/
theorem Dev.lockRead_timesOut {d : Dev} {c id : Nat} (hheld : (d.lckAt id).held = true) (hother : (d.lckAt id).owner ≠ d.corePtn c)
    (hpc : d.pc c + 64 ≤ csSize) :
    ((d.lockRead c id true).coreAt c).waiting = none ∧ ((d.lockRead c id true).coreAt c).st = .run ∧
    (d.lockRead c id true).mem = (d.csWrite c (bits (d.curDesc c) 511 487) (lockStatus false false true false (d.lckAt id).owner)).mem := by
  have hread : d.lockRead c id true = (d.lckSet id { d.lckAt id with ptr := (c + 1) % 84 }).lockEnd c
      (lockStatus false false true false (d.lckAt id).owner) := by
    simp [Dev.lockRead, Dev.lckAcquire_foreign_lock hheld hother]
  rw [hread]
  set e := d.lckSet id { d.lckAt id with ptr := (c + 1) % 84 } with he
  have hdesc : e.curDesc c = d.curDesc c := Dev.curDesc_congr (by simp [he]) (by simp [he]) (by simp [he])
  obtain ⟨⟨l, hcore⟩, hmem, -⟩ := Dev.lockEnd_leaves (d := e) (c := c) (by rwa [Dev.pc_of_regs (Dev.lckSet_regs _ _ _)])
    (lockStatus false false true false (d.lckAt id).owner)
  refine ⟨by rw [hcore], by rw [hcore], ?_⟩
  rw [hmem]
  exact Dev.lockStore_mem_congr hdesc (by simp [he]) _

theorem Dev.lockRetry_reads {d : Dev} {c id since : Nat} (hwaiting : (d.coreAt c).waiting = some (.lock id since)) :
    d.lockRetry c = d.lockRead c id false := by
  simp [Dev.lockRetry, hwaiting]

theorem Dev.lockTimeout_reads {d : Dev} {c id since : Nat} (hwaiting : (d.coreAt c).waiting = some (.lock id since))
    (htimeout : bits (d.curDesc c) 486 455 ≠ 0) : d.lockTimeout c = d.lockRead c id true := by
  simp [Dev.lockTimeout, hwaiting, htimeout]

/-! ### LOCK (R96, R108) -/

/-- R108: the checks of a LOCK read the locks that the core holds. -/
theorem lockErrs_congr {d e : Dev} {c : Nat} (hheld : (e.coreAt c).held = (d.coreAt c).held) (desc : Nat) :
    lockErrs c desc e = lockErrs c desc d := by
  simp only [lockErrs, hheld]

/-- A sound LOCK of a free lock acquires it. -/
theorem Dev.doLock_acquires {d : Dev} {c desc : Nat} {ecc : Ecc} (hf : d.fetches c 7 desc = true) (hrsv : bits desc 445 64 = 0)
    (herrs : lockErrs c desc d = []) (hacquire : bit desc 446 = false) (hfree : (d.lckAt (bits desc 454 447)).held = false)
    (hpc : d.pc c + 128 ≤ csSize) (hecc : ecc ≠ .uncFetch) :
    (d.doLock c ecc).lckAt (bits desc 454 447) = d.lckTaken c (bits desc 454 447) ∧
    ((d.doLock c ecc).coreAt c).held.contains (bits desc 454 447) = true ∧ ((d.doLock c ecc).coreAt c).st = .run ∧
    (d.doLock c ecc).mem = (d.csWrite c (bits desc 511 487)
      (lockStatus true (d.lckAt (bits desc 454 447)).broken false false (d.corePtn c))).mem := by
  obtain ⟨-, hcur, -⟩ := Dev.fetches_parts hf
  obtain ⟨-, -, hlck, hptn⟩ := Dev.fetch_beside hcur ecc
  have hfetched := Dev.fetched_coreAt hf ecc
  have hlock := Dev.lckAt_of_lck hlck (bits desc 454 447)
  have hdesc : (d.fetch c ecc).curDesc c = desc := by
    simp only [Dev.curDesc, hfetched]
  have hread : d.doLock c ecc = (d.fetch c ecc).lockRead c (bits desc 454 447) false := by
    rw [Dev.doLock, Dev.issue_sound hf (by omega) (by omega) hecc (by simp [hrsv]) (by rw [lockErrs_congr (d := d) (by rw [hfetched]), herrs])]
    simp [hacquire]
  obtain ⟨htaken, hheld, -, hst, hmem⟩ := Dev.lockRead_grants (d := d.fetch c ecc) (by rw [hlock, hfree]) (Dev.fetch_room hf hpc ecc) false
  rw [hdesc, hlock, Dev.corePtn_of_ptn hptn] at hmem
  rw [hread]
  refine ⟨?_, hheld, hst, hmem.trans (Dev.csWrite_mem_congr (d.fetch_mem c ecc) _ _ _)⟩
  rw [htaken, Dev.lckTaken, hlock, Dev.corePtn_of_ptn hptn, Dev.lckTaken]

/-- A sound LOCK that releases a lock of its own partition frees it. -/
theorem Dev.doLock_releases {d : Dev} {c desc : Nat} {ecc : Ecc} (hf : d.fetches c 7 desc = true) (hrsv : bits desc 445 64 = 0)
    (herrs : lockErrs c desc d = []) (hrelease : bit desc 446 = true) (hheld : (d.lckAt (bits desc 454 447)).held = true)
    (hown : (d.lckAt (bits desc 454 447)).owner = d.corePtn c) (hpc : d.pc c + 128 ≤ csSize) (hecc : ecc ≠ .uncFetch) :
    (d.doLock c ecc).lckAt (bits desc 454 447) =
      { d.lckAt (bits desc 454 447) with held := false, owner := 0, broken := false } ∧
    ((d.doLock c ecc).coreAt c).held = (d.coreAt c).held.filter (fun k => decide (k ≠ bits desc 454 447)) ∧
    (d.doLock c ecc).mem = (d.csWrite c (bits desc 511 487)
      (lockStatus false (d.lckAt (bits desc 454 447)).broken false false (d.lckAt (bits desc 454 447)).owner)).mem := by
  obtain ⟨-, hcur, -⟩ := Dev.fetches_parts hf
  obtain ⟨-, -, hlck, hptn⟩ := Dev.fetch_beside hcur ecc
  have hfetched := Dev.fetched_coreAt hf ecc
  have hlock := Dev.lckAt_of_lck hlck (bits desc 454 447)
  set e := ((d.fetch c ecc).lckSet (bits desc 454 447) { d.lckAt (bits desc 454 447) with held := false, owner := 0, broken := false }).coreUpd c
    (fun x => { x with held := x.held.filter (fun k => decide (k ≠ bits desc 454 447)) }) with he
  have hend : d.doLock c ecc = e.lockEnd c
      (lockStatus false (d.lckAt (bits desc 454 447)).broken false false (d.lckAt (bits desc 454 447)).owner) := by
    rw [Dev.doLock, Dev.issue_sound hf (by omega) (by omega) hecc (by simp [hrsv]) (by rw [lockErrs_congr (d := d) (by rw [hfetched]), herrs])]
    have hfreed := Dev.lckRelease_own (d := d.fetch c ecc) (n := bits desc 454 447) (o := d.corePtn c) (by rw [hlock, hheld]) (by rw [hlock, hown])
    rw [hlock] at hfreed
    simp [hrelease, hlock, hheld, hown, Dev.corePtn_of_ptn hptn, hfreed, he]
  have hdesc : e.curDesc c = desc := by
    simp [Dev.curDesc, he, hfetched]
  obtain ⟨⟨l, hcore⟩, hmem, hkeeps⟩ := Dev.lockEnd_leaves (d := e) (c := c)
    (by rw [he, Dev.pc_coreUpd, Dev.pc_of_regs (Dev.lckSet_regs _ _ _)]; exact Dev.fetch_room hf hpc ecc)
    (lockStatus false (d.lckAt (bits desc 454 447)).broken false false (d.lckAt (bits desc 454 447)).owner)
  rw [hend]
  refine ⟨?_, ?_, ?_⟩
  · rw [Dev.lckAt_of_lck hkeeps, he, Dev.lckAt_of_lck (Dev.coreUpd_lck _ _ _), Dev.lckAt_lckSet_same]
  · rw [hcore, he]
    simp [hfetched]
  · rw [hmem]
    exact Dev.lockStore_mem_congr hdesc (by simp [he]) _

/-! ### The obligation -/

/-- Settles O42: each clause is a read of the lock that its hypotheses grant, refuse or end, or the release of an own lock. -/
theorem lockDescriptorsAcquireAndWait : Obligations.LockDescriptorsAcquireAndWait := by
  unfold Obligations.LockDescriptorsAcquireAndWait
  refine ⟨?acquire, ?release, ?retryGranted, ?retryWaits, ?timeout⟩
  case acquire =>
    intro s c desc ecc ha hf hrsv herrs hacquire hfree hpc hecc
    exact ⟨_, Machine.live_next ha (fun d => d.doLock c ecc), Dev.doLock_acquires hf hrsv herrs hacquire hfree hpc hecc⟩
  case release =>
    intro s c desc ecc ha hf hrsv herrs hrelease hheld hown hpc hecc
    exact ⟨_, Machine.live_next ha (fun d => d.doLock c ecc), Dev.doLock_releases hf hrsv herrs hrelease hheld hown hpc hecc⟩
  case retryGranted =>
    intro s c k since ha hwaiting hfree hpc
    refine ⟨_, Machine.live_next ha (fun d => d.lockRetry c), ?_⟩
    dsimp only
    rw [Dev.lockRetry_reads hwaiting]
    obtain ⟨htaken, -, hwait, hst, hmem⟩ := Dev.lockRead_grants hfree hpc false
    exact ⟨htaken, hwait, hst, hmem⟩
  case retryWaits =>
    intro s c k since ha hwaiting hheld hother
    refine ⟨_, Machine.live_next ha (fun d => d.lockRetry c), ?_⟩
    dsimp only
    rw [Dev.lockRetry_reads hwaiting]
    exact Dev.lockRead_waits hwaiting hheld hother
  case timeout =>
    intro s c k since ha hwaiting htimeout hheld hother hpc
    refine ⟨_, Machine.live_next ha (fun d => d.lockTimeout c), ?_⟩
    dsimp only
    rw [Dev.lockTimeout_reads hwaiting htimeout]
    exact Dev.lockRead_timesOut hheld hother hpc

end Sys2Proof
end

section
/-! The staging engine, a finished request and a finished scrub, and what they leave of the model memories and of the model store
(chapter 5): the obligation O44. -/

namespace Sys2Proof

/-! ### The model store (R136, R149) -/

theorem Dev.store_of_tensor {d e : Dev} (h : e.tensor = d.tensor) : e.store = d.store := by
  rw [Dev.store_eq, h, ← Dev.store_eq]

/-- R136: the bundles but for the replaced ones that no staging request reads. -/
def Store.inUse (s : Store) : List Bundle := s.bundles.filter (fun b => !b.old || s.stg.any (fun r => decide (r.inst = b.inst)))

theorem Dev.catalogue_tensor (d : Dev) : d.catalogue.tensor = { d.tensor with store := { d.store with bundles := d.store.inUse } } := by
  simp only [Dev.catalogue, Dev.stageRefresh_tensor, Dev.msRefresh_tensor, Dev.tensor, Store.inUse]

@[simp] theorem Dev.catalogue_mem (d : Dev) : d.catalogue.mem = d.mem := by
  rw [Dev.mem_eq, Dev.catalogue_tensor, Dev.mem_eq]

@[simp] theorem Dev.catalogue_ptn (d : Dev) : d.catalogue.ptn = d.ptn := by
  rw [Dev.ptn_eq, Dev.catalogue_tensor, Dev.ptn_eq]

@[simp] theorem Dev.catalogue_store (d : Dev) : d.catalogue.store = { d.store with bundles := d.store.inUse } := by
  rw [Dev.store_eq, Dev.catalogue_tensor]

/-! ### The staging engine (R132, R134, R162) -/

/-- R134: a request whose slot no other writes is in progress at once. -/
theorem Dev.stgStart_free {d : Dev} {r : StgReq}
    (hfree : d.store.stg.any (fun x => decide (x.ptn = r.ptn) && decide (x.lib = r.lib) && decide (x.slot = r.slot)) = false) :
    d.stgStart r = { d with store := { d.store with stg := d.store.stg ++ [r], stgHeld := Tab.set none d.store.stgHeld r.ptn none } } := by
  simp only [Dev.stgStart, hfree, Bool.false_eq_true, if_false]

/-- R132: with room and no held request, the engine starts the request of the entry it pops. -/
theorem Dev.stagingPop_takes {d : Dev} {p n : Nat} {e : PqEntry} {y : Pq} (hroom : d.stgRoom p = true)
    (hheld : Tab.get none d.store.stgHeld p = none) (hqueue : d.stgQueue p = some n) (hwaiters : (d.pqAt n).waiters = [])
    (hpop : ({ d.pqAt n with popPtr := 66 } : Pq).pop = some (e, y)) :
    d.stagingPop p = (d.pqSet n y).stgStart (d.stgPlan p e.data) := by
  simp only [hwaiters] at hpop
  simp only [Dev.stagingPop, hroom, hheld, hqueue, hwaiters, hpop, if_true]

/-- R162: at an empty queue without waiters the engine waits; 65 is its number and 66 its pop pointer (R502, log 20). -/
theorem Dev.stagingPop_waits {d : Dev} {p n : Nat} (hroom : d.stgRoom p = true) (hheld : Tab.get none d.store.stgHeld p = none)
    (hqueue : d.stgQueue p = some n) (hwaiters : (d.pqAt n).waiters = []) (hpop : ({ d.pqAt n with popPtr := 66 } : Pq).pop = none) :
    d.stagingPop p = d.pqSet n { d.pqAt n with popPtr := 66, waiters := [65] } := by
  simp only [hwaiters] at hpop
  simp only [Dev.stagingPop, hroom, hheld, hqueue, hwaiters, hpop, if_true, List.any_nil, Bool.false_eq_true, if_false, List.nil_append]

/-! ### A request finishes (R133) -/

/-- What a write leaves of the memories depends on the memories and the partitions alone. -/
theorem Dev.shWrite_mem_congr {d e : Dev} (hmem : e.mem = d.mem) (hptn : e.ptn = d.ptn) (p off : Nat) (bs : List Byte) :
    (e.shWrite p off bs).mem = (d.shWrite p off bs).mem := by
  unfold Dev.shWrite Dev.unitKey Dev.doubled Dev.ent Dev.ptnAt
  rw [hmem, hptn]

/-- The i-th request leaves the list, and what it read is counted. -/
def Dev.stgRead (d : Dev) (i : Nat) (r : StgReq) : Dev :=
  let d0 := { d with store := { d.store with stg := d.store.stg.eraseIdx i } }
  if r.readLen = 0 then d0 else d0.count64 (memReg 0x108 + 0x20 * r.ptn) r.readLen

/-- R133: the reply and the Catcher record of a request that ended with status 0. -/
def Dev.stgAnswer (d : Dev) (r : StgReq) : Dev :=
  let q := r.reply % 64
  let d1 :=
    if bit r.reply 7 then
      (if (d.pqAt q).en && decide ((d.pqAt q).owner = r.ptn) then
        (d.pqPush q 65 { level := 7, data := stgReplyBytes r 0 r.data.length }).1
       else d.count (memReg 0x114 + 0x20 * r.ptn) 1)
    else d
  if bit r.reply 6 then d1.catPut { value := r.tag, source := 34, partition := r.ptn, kind := 4 } else d1

theorem Dev.stgRead_tensor (d : Dev) (i : Nat) (r : StgReq) :
    (d.stgRead i r).tensor = { d.tensor with store := { d.store with stg := d.store.stg.eraseIdx i } } := by
  simp only [Dev.stgRead, Dev.tensor_ite, Dev.count64_tensor, ite_self, Dev.tensor]

@[simp] theorem Dev.stgAnswer_tensor (d : Dev) (r : StgReq) : (d.stgAnswer r).tensor = d.tensor := by
  unfold Dev.stgAnswer
  simp

/-- A request that meets no error is read, written, counted and answered. -/
theorem Dev.stagingReply_sound {d : Dev} {i : Nat} {r : StgReq} (hreq : d.store.stg[i]? = some r) (hsound : r.status = 0) :
    d.stagingReply i .none false =
      ((((d.stgRead i r).shWrite r.ptn r.dst r.data).count (memReg 0x110 + 0x20 * r.ptn) 1).stgAnswer r).catalogue := by
  simp [Dev.stagingReply, Dev.stgRead, Dev.stgAnswer, hreq, hsound, Ecc.unc, Dev.msEcc, Ecc.cor]

/-- R133: what it leaves of the memories, of the partitions and of the requests in progress. -/
theorem Dev.stagingReply_leaves {d : Dev} {i : Nat} {r : StgReq} (hreq : d.store.stg[i]? = some r) (hsound : r.status = 0) :
    (d.stagingReply i .none false).mem = (d.shWrite r.ptn r.dst r.data).mem ∧ (d.stagingReply i .none false).ptn = d.ptn ∧
    (d.stagingReply i .none false).store.stg = d.store.stg.eraseIdx i := by
  have hread := d.stgRead_tensor i r
  have hmem : (d.stgRead i r).mem = d.mem := by rw [Dev.mem_eq, hread, Dev.mem_eq]
  have hptn : (d.stgRead i r).ptn = d.ptn := by rw [Dev.ptn_eq, hread, Dev.ptn_eq]
  set w := (d.stgRead i r).shWrite r.ptn r.dst r.data with hw
  have hanswer : ((w.count (memReg 0x110 + 0x20 * r.ptn) 1).stgAnswer r).tensor = w.tensor := by simp
  rw [Dev.stagingReply_sound hreq hsound, Dev.catalogue_mem, Dev.catalogue_ptn, Dev.catalogue_store, ← hw, Dev.mem_of_tensor hanswer,
    Dev.ptn_of_tensor hanswer, Dev.store_of_tensor hanswer]
  refine ⟨Dev.shWrite_mem_congr hmem hptn _ _ _, hptn, ?_⟩
  have hstore : w.store = (d.stgRead i r).store := rfl
  rw [hstore, Dev.store_eq, hread]

/-! ### A scrub ends (R129) -/

theorem Dev.granuleScrubDone_free {d : Dev} {x : Scrub} {rest : List Scrub} (hscrubs : d.store.scrubs = x :: rest) (hdest : x.dest = none) :
    d.granuleScrubDone = { d.zeroGr x.stack x.base x.len with
      store := { d.store with scrubs := rest }, ptn := { d.ptn with freeGr := d.ptn.freeGr ++ extent x.stack x.base x.len } } := by
  simp only [Dev.granuleScrubDone, hscrubs, hdest]
  rfl

theorem Dev.ent_of_ptn {d e : Dev} (h : e.ptn = d.ptn) (p : Nat) : e.ent p = d.ent p := by
  unfold Dev.ent
  rw [h]

@[simp] theorem Dev.joinShare_ptn (d : Dev) (p : Nat) : (d.joinShare p).ptn = d.ptn := rfl
@[simp] theorem Dev.joinShare_store (d : Dev) (p : Nat) : (d.joinShare p).store = d.store := rfl
@[simp] theorem Dev.ptnRegs_ptn (d : Dev) : d.ptnRegs.ptn = d.ptn := Dev.ptn_of_tensor (by simp)
@[simp] theorem Dev.ptnRegs_store (d : Dev) : d.ptnRegs.store = d.store := Dev.store_of_tensor (by simp)

/-- A map entry just set, as the map shows it once its share has taken the granules. -/
theorem Dev.entSet_shown (d : Dev) (p : Nat) (e : MapEnt) :
    ((d.entSet p e).joinShare p).ptnRegs.store = d.store ∧ ((d.entSet p e).joinShare p).ptnRegs.ptn.freeGr = d.ptn.freeGr ∧
    ((d.entSet p e).joinShare p).ptnRegs.ent p = e := by
  refine ⟨by rw [Dev.ptnRegs_store]; rfl, by rw [Dev.ptnRegs_ptn]; rfl, ?_⟩
  rw [Dev.ent_of_ptn (Dev.ptnRegs_ptn _), Dev.ent_of_ptn (Dev.joinShare_ptn _ _)]
  simp [Dev.ent, Dev.entSet, Dev.ptnSet, Tab.get_set_same]

/-- Granules that the map gives to an extent of a partition go into its entry, not to the free list. -/
theorem Dev.granuleScrubDone_given {d : Dev} {x : Scrub} {rest : List Scrub} {p : Nat} {m : Bool} (hscrubs : d.store.scrubs = x :: rest)
    (hdest : x.dest = some (p, m)) :
    d.granuleScrubDone.store.scrubs = rest ∧ d.granuleScrubDone.ptn.freeGr = d.ptn.freeGr ∧
    d.granuleScrubDone.ent p = if m then { d.ent p with mstack := x.stack, mbase := x.base }
      else { d.ent p with pstack := x.stack, pbase := x.base, len := x.len } := by
  cases m <;> simp only [Dev.granuleScrubDone, hscrubs, hdest] <;>
    exact (Dev.entSet_shown _ p _).imp_left (congrArg Store.scrubs)

/-! ### The obligation -/

/-- Settles O44: each clause is the branch of its command that its hypotheses select. -/
theorem stagingAndScrubsAct : Obligations.StagingAndScrubsAct := by
  unfold Obligations.StagingAndScrubsAct
  refine ⟨?popTakes, ?popWaits, ?reply, ?scrubFree, ?scrubGiven⟩
  case popTakes =>
    intro s p n e y ha hroom hheld hqueue hwaiters hpop hfree
    refine ⟨_, Machine.live_next ha (fun d => d.stagingPop p), ?_⟩
    dsimp only
    rw [Dev.stagingPop_takes hroom hheld hqueue hwaiters hpop, Dev.stgStart_free (d := s.dev.pqSet n y) hfree]
    exact ⟨Dev.pqAt_pqSet_same _ _ _, rfl⟩
  case popWaits =>
    intro s p n ha hroom hheld hqueue hwaiters hpop
    refine ⟨_, Machine.live_next ha (fun d => d.stagingPop p), ?_⟩
    dsimp only
    rw [Dev.stagingPop_waits hroom hheld hqueue hwaiters hpop, Dev.pqAt_pqSet_same]
    exact ⟨rfl, rfl, rfl⟩
  case reply =>
    intro s i r ha hreq hsound
    obtain ⟨hmem, -, hstg⟩ := Dev.stagingReply_leaves hreq hsound
    exact ⟨_, Machine.live_next ha (fun d => d.stagingReply i .none false), hmem, hstg⟩
  case scrubFree =>
    intro s x rest ha hscrubs hdest
    refine ⟨_, Machine.live_next ha (fun d => d.granuleScrubDone), ?_⟩
    dsimp only
    rw [Dev.granuleScrubDone_free hscrubs hdest]
    exact ⟨rfl, rfl, rfl⟩
  case scrubGiven =>
    intro s x rest p m ha hscrubs hdest
    exact ⟨_, Machine.live_next ha (fun d => d.granuleScrubDone), Dev.granuleScrubDone_given hscrubs hdest⟩

end Sys2Proof
end

section
/-! The writes of a partition's share and the scrub of its granules byte by byte: which lines of the HBM come to stand under which key, what
a read gives afterwards and what stays as it was (R128, R129, R138, R449), and from these the obligation O16. -/

namespace Sys2Proof

/-! ### Runs of a table -/

theorem Tab.getList_eq_map {α : Type} (d : α) (t : Tab α) (n len : Nat) :
    Tab.getList d t n len = (upTo len).map (fun i => Tab.get d t (n + i)) := by
  induction len generalizing n with
  | zero => rfl
  | succ len ih =>
    rw [Tab.getList, ih, upTo, upTo, List.range_succ_eq_map, List.map_cons, List.map_map]
    simp only [Nat.add_zero, Function.comp_def, Nat.add_assoc, Nat.add_comm 1]

/-- A read of the run just written gives the values written. -/
theorem Tab.getList_setList {α : Type} [DecidableEq α] (d : α) (t : Tab α) (n : Nat) (vs : List α) :
    Tab.getList d (Tab.setList d t n vs) n vs.length = vs := by
  induction vs generalizing t n with
  | nil => rfl
  | cons v vs ih =>
    rw [List.length_cons, Tab.getList, Tab.setList, ih, Tab.get_setList_outside _ _ _ _ (by omega), Tab.get_set_same]

theorem Tab.find_filter_index {α : Type} (t : Tab α) (p : Nat → Bool) (n : Nat) :
    Tab.find (t.filter (fun kv => p kv.1)) n = if p n then Tab.find t n else none := by
  induction t with
  | nil => simp [Tab.find]
  | cons kv t ih =>
    obtain ⟨k, v⟩ := kv
    by_cases hk : k = n
    · subst hk
      cases hp : p k <;> simp [Tab.find, hp, ih]
    · cases hp : p k <;> simp [Tab.find, hp, ih, hk]

/-- A read of a table of which only some indexes are kept. -/
theorem Tab.get_keep {α : Type} (d : α) (t : Tab α) (p : Nat → Bool) (n : Nat) :
    Tab.get d (Tab.keep t (fun k _ => p k)) n = if p n then Tab.get d t n else d := by
  unfold Tab.get Tab.keep
  rw [Tab.find_filter_index]
  split <;> rfl

/-! ### The lines of the HBM and their keys (R138, R449) -/

/-- A line that comes to stand under a key does; every other line keeps its own. -/
theorem Mem.lineKey_rekeyLine (m : Mem) (k : Option XtsKey) (base l x : Nat) :
    (m.rekeyLine k base l).lineKey x = if x = l then k else m.lineKey x := by
  unfold Mem.rekeyLine
  split
  · rename_i hkey
    split
    · rename_i hx
      rw [hx, hkey]
    · rfl
  · by_cases hx : x = l
    · subst hx
      rw [if_pos rfl]
      by_cases hgran : Tab.get none m.gkey (64 * x / granule) = k
      · simp only [Mem.lineKey, hgran, if_true, Tab.find_del_same]
      · simp only [Mem.lineKey, hgran, if_false, Tab.find_put_same]
    · rw [if_neg hx]
      split <;> simp only [Mem.lineKey, Tab.find_del_other _ hx, Tab.find_put_other _ _ hx]

theorem Mem.rekeyLine_ukey (m : Mem) (k : Option XtsKey) (base l : Nat) : (m.rekeyLine k base l).ukey = m.ukey := by
  unfold Mem.rekeyLine
  split <;> rfl

/-- The rekey of a line changes no byte of another one. -/
theorem Mem.sameAt_rekeyLine (m : Mem) (k : Option XtsKey) (base : Nat) {l a : Nat} (h : a / 64 ≠ l) :
    (m.rekeyLine k base l).sameAt m a := by
  refine ⟨?_, by rw [Mem.lineKey_rekeyLine, if_neg h]⟩
  unfold Mem.rekeyLine
  split
  · rfl
  · exact Tab.get_setList_outside _ _ _ _ (by simp [upTo]; omega)

theorem Mem.sameAt.trans {m n o : Mem} {a : Nat} (h : m.sameAt n a) (g : n.sameAt o a) : m.sameAt o a :=
  ⟨h.1.trans g.1, h.2.trans g.2⟩

/-- A run that stands under a key still does when a line comes to stand under it. -/
theorem Mem.under_rekeyLine {m : Mem} {k : Option XtsKey} {x len : Nat} (h : m.under k x len = true) (base l : Nat) :
    (m.rekeyLine k base l).under k x len = true := by
  unfold Mem.rekeyLine
  split
  · exact h
  · simp only [Mem.under, Bool.and_eq_true, List.all_eq_true] at h ⊢
    obtain ⟨hlines, hgran⟩ := h
    refine ⟨fun kv hkv => ?_, hgran⟩
    split_ifs at hkv
    · exact hlines kv (Tab.mem_del hkv)
    · obtain rfl | hold := Tab.mem_put hkv
      · simp
      · exact hlines kv hold

/-! ### The lines that a write touches -/

/-- A run that stands under the key stays; else each line that it touches is rekeyed, and what every such step keeps, `Mem.rekey` keeps. -/
theorem Mem.rekey_induct {P : Mem → Prop} {m : Mem} (hm : P m) (k : Option XtsKey) (base off len : Nat)
    (hstep : m.under k (base + off) len = false → ∀ n l, (base + off) / 64 ≤ l → l < (base + off + len + 63) / 64 → P n →
      P (n.rekeyLine k base l)) :
    P (m.rekey k base off len) := by
  unfold Mem.rekey
  split
  · exact hm
  · rename_i hunder
    refine List.foldlRecOn _ _ hm (fun n hn i hi => hstep (by simpa using hunder) n _ (by omega) ?_ hn)
    have := List.mem_range.1 hi
    omega

@[simp] theorem Mem.rekey_ukey (m : Mem) (k : Option XtsKey) (base off len : Nat) : (m.rekey k base off len).ukey = m.ukey :=
  Mem.rekey_induct (P := fun n => n.ukey = m.ukey) rfl k base off len (fun _ n l _ _ hn => (n.rekeyLine_ukey k base l).trans hn)

theorem Mem.under_rekey {m : Mem} {k : Option XtsKey} {x n : Nat} (h : m.under k x n = true) (base off len : Nat) :
    (m.rekey k base off len).under k x n = true :=
  Mem.rekey_induct (P := fun o => o.under k x n = true) h k base off len (fun _ _ l _ _ ho => Mem.under_rekeyLine ho base l)

/-- Where the run does not stand under the key, each of its lines comes to. -/
theorem Mem.lineKey_rekey {m : Mem} {k : Option XtsKey} {base off len : Nat} (h : m.under k (base + off) len = false) {l : Nat}
    (hlo : (base + off) / 64 ≤ l) (hhi : l < (base + off + len + 63) / 64) : (m.rekey k base off len).lineKey l = k := by
  have hlines : ∀ n i, i < n →
      ((upTo n).foldl (fun m i => m.rekeyLine k base ((base + off) / 64 + i)) m).lineKey ((base + off) / 64 + i) = k := by
    intro n
    induction n with
    | zero => intro i hi; omega
    | succ n ih =>
      intro i hi
      rw [upTo, List.range_succ, List.foldl_append, List.foldl_cons, List.foldl_nil, Mem.lineKey_rekeyLine]
      split
      · rfl
      · exact ih i (by omega)
  have hl := hlines ((base + off + len + 63) / 64 - (base + off) / 64) (l - (base + off) / 64) (by omega)
  rw [Nat.add_sub_cancel' hlo] at hl
  simpa [Mem.rekey, h] using hl

/-! ### A write under a key -/

@[simp] theorem Mem.writeUnder_ukey (m : Mem) (k : Option XtsKey) (base off : Nat) (bs : List Byte) :
    (m.writeUnder k base off bs).ukey = m.ukey := by
  simp [Mem.writeUnder]

theorem Mem.under_writeUnder {m : Mem} {k : Option XtsKey} {x n : Nat} (h : m.under k x n = true) (base off : Nat) (bs : List Byte) :
    (m.writeUnder k base off bs).under k x n = true :=
  Mem.under_rekey h base off bs.length

/-- A read of lines that stand under the key it reads with gives the bytes as they are stored. -/
theorem Mem.readUnder_own {m : Mem} {k : Option XtsKey} {base off len : Nat}
    (h : ∀ l, (base + off) / 64 ≤ l → l < (base + off + len + 63) / 64 → m.lineKey l = k) :
    m.readUnder k base off len = Tab.getList 0 m.hbm (base + off) len := by
  unfold Mem.readUnder
  split
  · rfl
  · rw [Tab.getList_eq_map]
    refine List.map_congr_left (fun i hi => ?_)
    have hlt := List.mem_range.1 hi
    have hkey := h ((base + (off + i)) / 64) (by omega) (by omega)
    simp only [Mem.byteUnder, hkey, if_true, Nat.add_assoc]

/-- R138: what was written under a key is read under it. -/
theorem Mem.readUnder_writeUnder (m : Mem) (k : Option XtsKey) (base off : Nat) (bs : List Byte) :
    (m.writeUnder k base off bs).readUnder k base off bs.length = bs := by
  have hstored : Tab.getList 0 (m.writeUnder k base off bs).hbm (base + off) bs.length = bs := Tab.getList_setList _ _ _ _
  cases h : m.under k (base + off) bs.length with
  | true => rw [Mem.readUnder, Mem.under_writeUnder h base off bs, if_pos rfl, hstored]
  | false =>
    have hkeys : ∀ l, (base + off) / 64 ≤ l → l < (base + off + bs.length + 63) / 64 → (m.writeUnder k base off bs).lineKey l = k :=
      fun l hlo hhi => Mem.lineKey_rekey h hlo hhi
    rw [Mem.readUnder_own hkeys, hstored]

/-- An address that a write spares lies outside its bytes. -/
theorem Mem.spares_outside {m : Mem} {k : Option XtsKey} {x len a : Nat} (h : m.spares k x len a = true) : a < x ∨ x + len ≤ a := by
  simp only [Mem.spares, Bool.or_eq_true, Bool.and_eq_true, decide_eq_true_eq] at h
  omega

/-- An address that a write spares lies outside its lines, where these do not stand under its key. -/
theorem Mem.spares_lines {m : Mem} {k : Option XtsKey} {x len a : Nat} (h : m.spares k x len a = true) (hunder : m.under k x len = false) :
    a / 64 < x / 64 ∨ (x + len + 63) / 64 ≤ a / 64 := by
  simpa [Mem.spares, hunder] using h

theorem Mem.sameAt_writeUnder {m : Mem} {k : Option XtsKey} {base off a : Nat} {bs : List Byte}
    (h : m.spares k (base + off) bs.length a = true) : (m.writeUnder k base off bs).sameAt m a := by
  have hrekey : (m.rekey k base off bs.length).sameAt m a :=
    Mem.rekey_induct (P := fun n => n.sameAt m a) ⟨rfl, rfl⟩ k base off bs.length (fun hunder n l hlo hhi hn =>
      (n.sameAt_rekeyLine k base (by have := Mem.spares_lines h hunder; omega)).trans hn)
  exact Mem.sameAt.trans ⟨Tab.get_setList_outside _ _ _ _ (Mem.spares_outside h), rfl⟩ hrekey

/-- What a write spares it still spares after another one under the same key. -/
theorem Mem.spares_writeUnder {m : Mem} {k : Option XtsKey} {x len a : Nat} (h : m.spares k x len a = true) (base off : Nat) (bs : List Byte) :
    (m.writeUnder k base off bs).spares k x len a = true := by
  simp only [Mem.spares, Bool.or_eq_true, Bool.and_eq_true] at h ⊢
  exact h.imp_right (fun hin => ⟨Mem.under_writeUnder hin.1 base off bs, hin.2⟩)

/-! ### A write of a share (R128) -/

@[simp] theorem Dev.shWrite_cs (d : Dev) (p off : Nat) (bs : List Byte) : (d.shWrite p off bs).mem.cs = d.mem.cs := by
  unfold Dev.shWrite
  dsimp only
  split <;> simp

theorem MapEnt.prim_offset (e : MapEnt) (off : Nat) : e.prim off = e.prim 0 + off := by
  simp [MapEnt.prim]

theorem MapEnt.mirr_offset (e : MapEnt) (off : Nat) : e.mirr off = e.mirr 0 + off := by
  simp [MapEnt.mirr]

theorem Dev.shWrite_unitKey (d : Dev) (p off : Nat) (bs : List Byte) (q : Nat) : (d.shWrite p off bs).unitKey q = d.unitKey q := by
  unfold Dev.shWrite Dev.unitKey
  dsimp only
  split <;> simp

/-- A share without a valid mirror reads the bytes just written. -/
theorem Dev.shRead_shWrite {d : Dev} {p : Nat} (hsingle : d.doubled p = false) (off : Nat) (bs : List Byte) :
    (d.shWrite p off bs).shRead p off bs.length = bs := by
  rw [Dev.shRead, Dev.shWrite_unitKey]
  simp only [Dev.shWrite, hsingle, Bool.false_eq_true, if_false]
  exact Mem.readUnder_writeUnder _ _ _ _ _

theorem Dev.sameAt_shWrite {d : Dev} {p off a : Nat} {bs : List Byte} (h : d.shSpares p off bs.length a = true) :
    (d.shWrite p off bs).mem.sameAt d.mem a := by
  simp only [Dev.shSpares, MapEnt.prim_offset _ off, MapEnt.mirr_offset _ off, Bool.and_eq_true, Bool.or_eq_true, Bool.not_eq_true'] at h
  obtain ⟨hprim, hmirr⟩ := h
  have hfirst : (d.mem.writeUnder (d.unitKey p) ((d.ent p).prim 0) off bs).sameAt d.mem a := Mem.sameAt_writeUnder hprim
  unfold Dev.shWrite
  dsimp only
  split
  · rename_i hdouble
    have hsecond := Mem.spares_writeUnder (hmirr.resolve_left (by simp [hdouble])) ((d.ent p).prim 0) off bs
    exact (Mem.sameAt_writeUnder hsecond).trans hfirst
  · exact hfirst

/-- What a device reads whose memories are those that a write of a share leaves, and whose partitions have not changed. -/
theorem Dev.stores_of_shWrite {d e : Dev} {p off : Nat} {bs : List Byte} (hmem : e.mem = (d.shWrite p off bs).mem) (hptn : e.ptn = d.ptn) :
    e.mem.cs = d.mem.cs ∧ (d.doubled p = false → e.shRead p off bs.length = bs) ∧
    ∀ a, d.shSpares p off bs.length a = true → e.mem.sameAt d.mem a := by
  refine ⟨by rw [hmem, Dev.shWrite_cs], fun hsingle => ?_, fun a ha => by rw [hmem]; exact Dev.sameAt_shWrite ha⟩
  have hread : e.shRead p off bs.length = (d.shWrite p off bs).shRead p off bs.length := by
    simp only [Dev.shRead, Dev.unitKey, hmem, Dev.ent_of_ptn hptn]
    rfl
  rw [hread, Dev.shRead_shWrite hsingle]

/-! ### A write of a function's queue (R366, R368) -/

theorem length_leBytes (n x : Nat) : (leBytes n x).length = n := by
  induction n generalizing x with
  | zero => rfl
  | succ n ih => rw [leBytes, List.length_cons, ih]

theorem length_padTo (n : Nat) (bs : List Byte) : (padTo n bs).length = n := by
  rw [padTo, List.length_take, List.length_append, length_leBytes]
  omega

/-- R368: a descriptor that is not bad moves whole lines. -/
theorem DmaDesc.len_lines {s : DmaDesc} (h : s.bad true = false) : 64 * (s.len / 64) = s.len := by
  simp only [DmaDesc.bad, if_true, Bool.or_eq_false_iff, decide_eq_false_iff_not] at h
  omega

/-- R366: a WRITE that passes its checks and meets no error stores the host data to the share, and touches no partition. -/
theorem Dev.dmaWrite_leaves {d : Dev} {n q : Nat} {desc : List Byte} (hready : (d.dmaAt (some n) q).ready = true)
    (hgood : (dmaDesc desc).bad true = false) (hkind : inKind (d.regionsOf n) 5 (dmaDesc desc).shoff (dmaDesc desc).len = true)
    (hshare : d.inShare n (dmaDesc desc).shoff (dmaDesc desc).len = true) (hpush : bit (dmaDesc desc).flags 0 = false) (data : List Byte) :
    (d.dmaWrite n q desc data none none).mem = (d.shWrite n (dmaDesc desc).shoff (padTo (dmaDesc desc).len data)).mem ∧
    (d.dmaWrite n q desc data none none).ptn = d.ptn := by
  have hwrite : d.dmaWrite n q desc data none none =
      (d.shWrite n (dmaDesc desc).shoff (padTo (dmaDesc desc).len data)).dmaSet (some n) q
        { d.dmaAt (some n) q with run := some { desc := dmaDesc desc, status := 0, bytes := (dmaDesc desc).len } } := by
    simp [Dev.dmaWrite, hready, hgood, hkind, hshare, hpush, DmaDesc.len_lines hgood]
  rw [hwrite]
  exact ⟨rfl, rfl⟩

/-! ### A scrub (R129) -/

/-- R129: the bytes of the granules read 0, the others as before. -/
theorem Dev.zeroGr_hbm (d : Dev) (stack base len a : Nat) :
    Tab.get 0 (d.zeroGr stack base len).mem.hbm a =
      if stack * stackSize + base * granule ≤ a ∧ a < stack * stackSize + base * granule + len * granule then 0 else Tab.get 0 d.mem.hbm a := by
  have hstart : (stack * 192 + base) * granule = stack * stackSize + base * granule := by
    unfold granule stackSize
    omega
  have hend : (stack * 192 + base + len) * granule = stack * stackSize + base * granule + len * granule := by
    rw [Nat.add_mul, hstart]
  simp only [Dev.zeroGr, Nat.mul_one, hstart, hend]
  rw [Tab.get_keep]
  by_cases hin : stack * stackSize + base * granule ≤ a ∧ a < stack * stackSize + base * granule + len * granule
  · simp [hin]
  · rw [if_neg hin, if_pos (by simp; omega)]

/-! ### The obligation -/

/-- Settles O16: a WRITE and a staged slot are one write of a share, which rekeys and stores no line but its own; a scrub keeps the bytes
outside its granules. -/
theorem storesChangeOnlyTheirBytes : Obligations.StoresChangeOnlyTheirBytes := by
  unfold Obligations.StoresChangeOnlyTheirBytes
  refine ⟨?dmaWrite, ?slot, ?scrub⟩
  case dmaWrite =>
    intro s n k desc data ha hready hgood hkind hshare hpush
    obtain ⟨hmem, hptn⟩ := Dev.dmaWrite_leaves hready hgood hkind hshare hpush data
    have hstores := Dev.stores_of_shWrite hmem hptn
    rw [length_padTo] at hstores
    exact ⟨_, Machine.live_next ha (fun d => d.dmaWrite n k desc data none none), hstores⟩
  case slot =>
    intro s i r ha hreq hsound
    obtain ⟨hmem, hptn, -⟩ := Dev.stagingReply_leaves hreq hsound
    exact ⟨_, Machine.live_next ha (fun d => d.stagingReply i .none false), Dev.stores_of_shWrite hmem hptn⟩
  case scrub =>
    intro s x rest ha hscrubs hdest
    refine ⟨_, Machine.live_next ha (fun d => d.granuleScrubDone), ?_⟩
    dsimp only
    rw [Dev.granuleScrubDone_free hscrubs hdest]
    exact ⟨rfl, fun a => Dev.zeroGr_hbm _ _ _ _ a⟩

end Sys2Proof
end

section
/-! The install of a bundle: what an outcome, the commit and the sections it writes leave of the model store (R139 to R148), and from these
the obligation O45. -/

namespace Sys2Proof

/-! ### An install's record (R148, R364) -/

/-- R148, R364: the record of an install that ends with an outcome at a step. -/
def Install.ended (x : Install) (code step : Nat) (hostdma : Bool) : Install :=
  { x with state := 2, outcome := code, step := step, hostdma := hostdma, ready := none }

/-- R364: the model store with the record of ticket t changed by f. -/
def Store.updInstall (s : Store) (t : Nat) (f : Install → Install) : Store :=
  { s with installs := s.installs.map (fun x => if x.ticket = t then f x else x) }

@[simp] theorem Dev.installUpd_store (d : Dev) (t : Nat) (f : Install → Install) : (d.installUpd t f).store = d.store.updInstall t f := rfl

/-- The end of an install changes its record and counts. -/
theorem Dev.installEnd_tensor (d : Dev) (t code step : Nat) (hostdma : Bool) :
    (d.installEnd t code step hostdma).tensor = (d.installUpd t (fun x => x.ended code step hostdma)).tensor := by
  simp only [Dev.installEnd, Dev.tensor_ite, Dev.report_tensor, Dev.event_tensor, Dev.count_tensor, ite_self]
  rfl

@[simp] theorem Dev.installEnd_store (d : Dev) (t code step : Nat) (hostdma : Bool) :
    (d.installEnd t code step hostdma).store = d.store.updInstall t (fun x => x.ended code step hostdma) :=
  Dev.store_of_tensor (d.installEnd_tensor t code step hostdma)

/-- R125: the wear counts what a bundle's sections write. -/
@[simp] theorem Dev.storeWrite_store (d : Dev) (n : Nat) : (d.storeWrite n).store = { d.store with written := d.store.written + n } := by
  unfold Dev.storeWrite
  dsimp only
  split
  · exact Dev.store_of_tensor (Dev.event_tensor _ _ _)
  · rfl

/-! ### Reading a bundle (R147 steps 1 to 6) -/

/-- The record of an install whose bundle was read. -/
def Install.read (x : Install) : Except (Nat × Nat) (Bundle × Bool) → Install
  | .error (c, st) => x.ended c st false
  | .ok (b, rep) => { x with state := 1, step := 6, ready := some (b, rep) }

/-- With none running, the oldest queued install takes the result of reading its bundle. -/
theorem Dev.bundleInstallRun_reads {d : Dev} {i : Install} (hidle : d.store.installs.any (fun x => decide (x.state = 1)) = false)
    (hqueued : d.store.installs.find? (fun x => decide (x.state = 0)) = some i) (bs : List Byte) :
    (d.bundleInstallRun (some bs)).store.installs = (d.store.updInstall i.ticket (fun x => x.read (d.readBundle bs i.total))).installs := by
  simp only [Dev.bundleInstallRun, hidle, hqueued, Bool.false_eq_true, if_false]
  rcases d.readBundle bs i.total with ⟨c, st⟩ | ⟨b, rep⟩
  · dsimp only
    rw [Dev.installEnd_store]
    rfl
  · dsimp only
    rw [Dev.installUpd_store, Dev.storeWrite_store]
    rfl

/-- A failed host read ends it with HOSTDMA. -/
theorem Dev.bundleInstallRun_hostFails {d : Dev} {i : Install} (hidle : d.store.installs.any (fun x => decide (x.state = 1)) = false)
    (hqueued : d.store.installs.find? (fun x => decide (x.state = 0)) = some i) :
    d.bundleInstallRun none = d.installEnd i.ticket 0xFF 1 true := by
  simp only [Dev.bundleInstallRun, hidle, hqueued, Bool.false_eq_true, if_false]

/-! ### The commit (R147 step 7) -/

@[simp] theorem Dev.shareSections_store (d : Dev) (p : Nat) (ss : List Sect) : (d.shareSections p ss).store = d.store := by
  induction ss generalizing d with
  | nil => rfl
  | cons s ss ih =>
    rw [Dev.shareSections, ih]
    split <;> rfl

@[simp] theorem Dev.coreSections_store (d : Dev) (c r : Nat) (ss : List Sect) : (d.coreSections c r ss).store = d.store := by
  induction ss generalizing d with
  | nil => rfl
  | cons s ss ih =>
    rw [Dev.coreSections, ih]
    split <;> rfl

@[simp] theorem Dev.commitCores_store (d : Dev) (b : Bundle) (rs : List Nat) : (d.commitCores b rs).store = d.store := by
  induction rs generalizing d with
  | nil => rfl
  | cons r rs ih =>
    rw [Dev.commitCores, ih]
    split
    · exact Dev.coreSections_store _ _ _ _
    · rfl

@[simp] theorem Dev.commitImages_store (d : Dev) (b : Bundle) (rs : List Region) : (d.commitImages b rs).store = d.store := by
  induction rs generalizing d with
  | nil => rfl
  | cons r rs ih =>
    rw [Dev.commitImages, ih]
    (repeat' split) <;> rfl

@[simp] theorem Dev.measChange_store (d : Dev) (ix : Nat) : (d.measChange ix).store = d.store := Dev.store_of_tensor (by simp)

/-- R139: a bundle that replaces none joins the catalogue's bundles. -/
theorem Dev.catalogueBundle_adds (d : Dev) (n : Nat) (b : Bundle) :
    (d.catalogueBundle n b false false).store =
      { d.store with bundles := d.store.bundles ++ [{ b with am := [] }], nextInst := d.store.nextInst + 1 } := by
  simp [Dev.catalogueBundle]

/-- What the commit of a bundle without flow-plane objects that replaces none leaves of the model store. -/
theorem Dev.bundleCommit_store {d : Dev} {i : Install} {b : Bundle} (hrunning : d.store.installs.find? (fun x => decide (x.state = 1)) = some i)
    (hready : i.ready = some (b, false)) (hplane : bundleHasPlane b = false) :
    d.bundleCommit.store = ({ d.store with
      bundles := ({ d.store with bundles := d.store.bundles ++ [{ b with am := [] }] } : Store).inUse,
      nextInst := d.store.nextInst + 1 } : Store).updInstall i.ticket (fun x => x.ended 0 7 false) := by
  simp [Dev.bundleCommit, hrunning, hready, hplane, Dev.catalogueBundle_adds, Store.inUse]

theorem Store.mem_inUse_of_current {s : Store} {b : Bundle} (hmem : b ∈ s.bundles) (hcurrent : b.old = false) : b ∈ s.inUse :=
  List.mem_filter.2 ⟨hmem, by simp [hcurrent]⟩

/-! ### The obligation -/

/-- Settles O45: an install's record takes what its bundle gives, and the commit of a bundle without flow-plane objects touches of the
model store the catalogue and that record alone. -/
theorem installsRunAndCommit : Obligations.InstallsRunAndCommit := by
  unfold Obligations.InstallsRunAndCommit
  refine ⟨?read, ?hostFails, ?commit⟩
  case read =>
    intro s i bs ha hfw hheld hidle hqueued
    refine ⟨_, Machine.live_next ha (fun d => d.fwDo (fun d => d.bundleInstallRun (some bs))), ?_⟩
    dsimp only
    rw [Dev.fwDo_open hfw hheld, Dev.bundleInstallRun_reads hidle hqueued]
    rcases s.dev.readBundle bs i.total with ⟨c, st⟩ | ⟨b, rep⟩ <;> rfl
  case hostFails =>
    intro s i ha hfw hheld hidle hqueued
    refine ⟨_, Machine.live_next ha (fun d => d.fwDo (fun d => d.bundleInstallRun none)), ?_⟩
    dsimp only
    rw [Dev.fwDo_open hfw hheld, Dev.bundleInstallRun_hostFails hidle hqueued, Dev.installEnd_store]
    rfl
  case commit =>
    intro s i b ha hfw hheld hrunning hready hplane hcurrent
    refine ⟨_, Machine.live_next ha (fun d => d.fwDo (fun d => d.bundleCommit)), ?_⟩
    dsimp only
    rw [Dev.fwDo_open hfw hheld, Dev.bundleCommit_store hrunning hready hplane]
    exact ⟨rfl, Store.mem_inUse_of_current (by simp) hcurrent, rfl⟩

end Sys2Proof
end

section
/-! The gates of the commands of chapter 6, and the accesses of functions that are turned away: what the obligations about queues, locks and
rings share. -/

namespace Sys2Proof

/-- A write that the permission table lets through, on a live device. -/
theorem Machine.live_writeDo {s : Machine.State} {who : Req} {key : Nat} (ha : s.dev.alive = true) (hm : s.dev.mayWrite who key = true)
    (f : Dev → Dev) : Machine.live s (fun d => d.writeDo who key true f) = .next { s with dev := f s.dev } := by
  rw [Machine.live_next ha, Dev.writeDo_open hm]

/-- A write of a requester that is no firmware component, on a live device. -/
theorem Machine.live_writeDo_host {s : Machine.State} {who : Req} (ha : s.dev.alive = true) (ho : s.dev.reqOpen who = true) (hw : who.isFw = false)
    (key : Nat) (f : Dev → Dev) : Machine.live s (fun d => d.writeDo who key true f) = .next { s with dev := f s.dev } := by
  rw [Machine.live_next ha, Dev.writeDo_host ho hw]

/-- An access that reaches a live device. -/
theorem Machine.live_hostDo {s : Machine.State} {who : Req} (ha : s.dev.alive = true) (ho : s.dev.reqOpen who = true) (f : Dev → Dev) :
    Machine.live s (fun d => d.hostDo who f) = .next { s with dev := f s.dev } := by
  rw [Machine.live_next ha, Dev.hostDo_open ho]

/-- An act of firmware that serves, on a live device. -/
theorem Machine.live_fwDo {s : Machine.State} (ha : s.dev.alive = true) (hready : s.dev.fwReady = true) (hheld : s.dev.helds = false)
    (f : Dev → Dev) : Machine.live s (fun d => d.fwDo f) = .next { s with dev := f s.dev } := by
  rw [Machine.live_next ha, Dev.fwDo_open hready hheld]

/-- R355: a whole word turned away with a cause that is not logged is a failed access of four bytes. -/
theorem Dev.accErr_word (d : Dev) (fn : Option Nat) {off : Nat} (h4 : off % 4 = 0) (w : Bool) {cause : Nat}
    (hcause : ¬(cause = 1 ∨ cause = 2 ∨ cause = 5)) : d.accErr fn off 15 w cause = d.accFail (fnReq fn) off 4 w cause := by
  have hbytes : byteEn off 4 = 15 := by simp [byteEn, h4]
  simp only [Dev.accFail, fnReq_fn, hbytes, if_neg hcause]

end Sys2Proof
end

section
/-! The priority queues: the order in which pops take entries, then the push and the pop of a register access and the pop of a waiter. From
these the obligation O15, and the queue clauses of O39. -/

namespace Sys2Proof

/-! ### The order of a pop (R160) -/

/-- The running maximum of `Pq.top1` bounds every level, and is its start or one of them. -/
theorem foldl_level_bounds (es : List PqEntry) (m : Nat) :
    m ≤ es.foldl (fun m e => max m (e.level + 1)) m ∧ (∀ e ∈ es, e.level + 1 ≤ es.foldl (fun m e => max m (e.level + 1)) m) ∧
    (es.foldl (fun m e => max m (e.level + 1)) m = m ∨ ∃ e ∈ es, es.foldl (fun m e => max m (e.level + 1)) m = e.level + 1) := by
  induction es generalizing m with
  | nil => simp
  | cons e es ih =>
    obtain ⟨hstart, hall, hreached⟩ := ih (max m (e.level + 1))
    simp only [List.foldl_cons, List.forall_mem_cons, List.exists_mem_cons_iff]
    refine ⟨by omega, ⟨by omega, hall⟩, ?_⟩
    rcases hreached with hreached | hreached
    · omega
    · exact Or.inr (Or.inr hreached)

/-- A queue that holds an entry has a highest level, which one of its entries has. -/
theorem Pq.top1_of_ents {q : Pq} (h : q.ents ≠ []) : ∃ e ∈ q.ents, q.top1 = e.level + 1 ∧ ∀ x ∈ q.ents, x.level ≤ e.level := by
  obtain ⟨-, hall, hreached⟩ := foldl_level_bounds q.ents 0
  obtain ⟨x, hx⟩ := List.exists_mem_of_ne_nil _ h
  have hpos := hall x hx
  rcases hreached with hzero | ⟨e, he, htop⟩
  · omega
  · refine ⟨e, he, htop, fun y hy => ?_⟩
    have hle := hall y hy
    omega

/-- The oldest entry of a level that the list holds is taken out, and the others stay in order. -/
theorem takeLevel_oldest {l : Nat} {es : List PqEntry} (h : ∃ e ∈ es, e.level = l) :
    ∃ as e bs, es = as ++ e :: bs ∧ e.level = l ∧ (∀ x ∈ as, x.level ≠ l) ∧ takeLevel l es = some (e, as ++ bs) := by
  induction es with
  | nil => simp at h
  | cons x xs ih =>
    by_cases hx : x.level = l
    · exact ⟨[], x, xs, rfl, hx, by simp, by simp [takeLevel, hx]⟩
    · obtain ⟨as, e, bs, hsplit, hlevel, holder, htake⟩ := ih (by simpa [hx] using h)
      exact ⟨x :: as, e, bs, by simp [hsplit], hlevel, by simpa using ⟨hx, holder⟩, by simp [takeLevel, hx, htake]⟩

/-- R160: a pop takes the oldest entry of the highest level held. -/
theorem Pq.pop_oldest_highest {q : Pq} (h : q.ents ≠ []) :
    ∃ as e bs, q.ents = as ++ e :: bs ∧ (∀ x ∈ as, x.level < e.level) ∧ (∀ x ∈ bs, x.level ≤ e.level) ∧
      q.pop = some (e, { q with ents := as ++ bs }) := by
  obtain ⟨top, htop, hlevel, hhighest⟩ := Pq.top1_of_ents h
  obtain ⟨as, e, bs, hsplit, he, holder, htake⟩ := takeLevel_oldest ⟨top, htop, rfl⟩
  rw [hsplit] at hhighest
  refine ⟨as, e, bs, hsplit, fun x hx => ?_, fun x hx => ?_, by simp [Pq.pop, hlevel, htake]⟩
  · have hle := hhighest x (by simp [hx])
    have hne := holder x hx
    omega
  · have hle := hhighest x (by simp [hx])
    omega

/-! ### Pushes (R160, R163, R170) -/

theorem Dev.length_pqStaged (d : Dev) (who : Req) (n : Nat) : (d.pqStaged who n).length = 32 := by
  simp [Dev.pqStaged, length_leBytes, upTo]

/-- R170: a requester that may push pushes what it staged. -/
theorem Dev.pqPushCtl_pushes {d : Dev} {who : Req} {n : Nat} (hmay : d.pqMayPush who n = true) (level : Nat) :
    d.pqPushCtl who n level = (d.pqPush n who.port { level := level % 8, data := d.pqStaged who n }).1 := by
  simp [Dev.pqPushCtl, hmay]

/-- R163: a push into an empty queue sets NONEMPTY, bit 0 of PQ_EVENT. -/
theorem Dev.pqPush_first {d : Dev} {n : Nat} (hempty : (d.pqAt n).ents = []) (port : Nat) (e : PqEntry) :
    wbit ((d.pqPush n port e).1.rd (pqBase + 0x100 * n + 0x08)) 0 = true := by
  have hroom : (d.pqAt n).ents.length < (d.pqAt n).cap := by simp [hempty, Pq.cap]
  simp only [Dev.pqPush, if_pos hroom, if_pos hempty]
  split
  · exact Dev.event_keeps _ _ _ _ _ (Dev.event_set _ _ _ (by omega)) (by omega)
  · exact Dev.event_set _ _ _ (by omega)

/-- R160: a full queue ignores a push: OVERRUN is set and PQ_OVRCNT counts. -/
theorem Dev.pqPush_full {d : Dev} {n : Nat} (hfull : (d.pqAt n).cap ≤ (d.pqAt n).ents.length) (port : Nat) (e : PqEntry) :
    ((d.pqPush n port e).1.pqAt n).ents = (d.pqAt n).ents ∧ wbit ((d.pqPush n port e).1.rd (pqBase + 0x100 * n + 0x08)) 2 = true ∧
    (d.pqPush n port e).1.rdN (pqBase + 0x100 * n + 0x10) = stick32 (d.rdN (pqBase + 0x100 * n + 0x10) + 1) := by
  have hno : ¬(d.pqAt n).ents.length < (d.pqAt n).cap := by omega
  simp only [Dev.pqPush, if_neg hno]
  refine ⟨?_, ?_, ?_⟩
  · rw [Dev.pqAt_of_pq (Dev.count_pq _ _ _), Dev.pqAt_of_pq (Dev.event_pq _ _ _), Dev.pqAt_pqSet_same]
  · rw [Dev.rd_count_other _ _ (by omega)]
    exact Dev.event_set _ _ _ (by omega)
  · rw [Dev.rdN_count_same, Dev.rdN_event_other _ _ (by omega), Dev.pqSet_rdN]

theorem Dev.pqPushCtl_full {d : Dev} {who : Req} {n : Nat} (hmay : d.pqMayPush who n = true) (hfull : (d.pqAt n).cap ≤ (d.pqAt n).ents.length)
    (level : Nat) :
    ((d.pqPushCtl who n level).pqAt n).ents = (d.pqAt n).ents ∧
    wbit ((d.pqPushCtl who n level).rd (pqBase + 0x100 * n + 0x08)) 2 = true ∧
    (d.pqPushCtl who n level).rdN (pqBase + 0x100 * n + 0x10) = stick32 (d.rdN (pqBase + 0x100 * n + 0x10) + 1) := by
  rw [Dev.pqPushCtl_pushes hmay]
  exact Dev.pqPush_full hfull _ _

/-! ### Pops through registers (R160, R170) -/

@[simp] theorem Dev.pqLatch_pq (d : Dev) (who : Req) (n : Nat) (bs : List Byte) : (d.pqLatch who n bs).pq = d.pq := rfl

/-- R162: with no waiter before it, a pop is served at once. -/
theorem Dev.pqPop_unqueued {d : Dev} {who : Req} {n : Nat} (hwaiters : (d.pqAt n).waiters = []) : d.pqPop who n = d.pqPopCtl who n := by
  simp [Dev.pqPop, Dev.waitersServe, hwaiters]

/-- R160, R170: a pop of an entry leaves the rest of the queue, and the read answers the entry's level. -/
theorem Dev.pqPop_takes {d : Dev} {who : Req} {n : Nat} {e : PqEntry} {y : Pq} (hmay : d.pqMayPop who n = true)
    (hwaiters : (d.pqAt n).waiters = []) (hpop : ({ d.pqAt n with popPtr := (who.port + 1) % 84 } : Pq).pop = some (e, y)) :
    (d.pqPop who n).pqAt n = y ∧ (d.pqPop who n).out = .read who 0 (2 ^ 31 + 256 * e.level) :: d.out := by
  have hread : d.pqPop who n = ((((d.pqSet n { d.pqAt n with popPtr := (who.port + 1) % 84 }).pqSet n y).pqLatch who n e.data).emit
      (.read who 0 (2 ^ 31 + 256 * e.level))) := by
    rw [Dev.pqPop_unqueued hwaiters]
    simp [Dev.pqPopCtl, Dev.pqPopWord, hmay, hpop]
  rw [hread]
  refine ⟨?_, rfl⟩
  rw [Dev.pqAt_of_pq (Dev.emit_pq _ _), Dev.pqAt_of_pq (Dev.pqLatch_pq _ _ _ _), Dev.pqAt_pqSet_same]

/-- R160, R170: a pop of an empty queue moves the pop pointer, clears the requester's latch and answers EMPTY. -/
theorem Dev.pqPop_empty {d : Dev} {who : Req} {n : Nat} (hmay : d.pqMayPop who n = true) (hwaiters : (d.pqAt n).waiters = [])
    (hempty : (d.pqAt n).ents = []) :
    d.pqPop who n = ((d.pqSet n { d.pqAt n with popPtr := (who.port + 1) % 84 }).pqLatch who n []).emit (.read who 0 (2 ^ 30)) := by
  have hpop : ({ d.pqAt n with popPtr := (who.port + 1) % 84 } : Pq).pop = none := Pq.pop_empty hempty
  rw [Dev.pqPop_unqueued hwaiters]
  simp [Dev.pqPopCtl, Dev.pqPopWord, hmay, hpop]

/-! ### The obligation about the order -/

/-- Settles O15: a push appends or overruns, and a pop splits the list of entries at the oldest one of the highest level. -/
theorem priorityQueuesKeepTheirOrder : Obligations.PriorityQueuesKeepTheirOrder := by
  unfold Obligations.PriorityQueuesKeepTheirOrder
  refine ⟨?push, ?overrun, ?pop, ?empty⟩
  case push =>
    intro s who n level ha hm hmay hroom
    refine ⟨_, Machine.live_writeDo ha hm (fun d => d.pqPushCtl who n level), ?_⟩
    dsimp only
    rw [Dev.pqPushCtl_pushes hmay]
    exact ⟨_, (Dev.pqPush_room hroom _ _).1, rfl, Dev.length_pqStaged _ _ _, rfl⟩
  case overrun =>
    intro s who n level ha hm hmay hfull
    exact ⟨_, Machine.live_writeDo ha hm (fun d => d.pqPushCtl who n level), Dev.pqPushCtl_full hmay hfull level⟩
  case pop =>
    intro s who n ha ho hmay hwaiters hents
    obtain ⟨as, e, bs, hsplit, holder, hyounger, hpop⟩ :=
      Pq.pop_oldest_highest (q := { s.dev.pqAt n with popPtr := (who.port + 1) % 84 }) hents
    obtain ⟨hleft, hout⟩ := Dev.pqPop_takes hmay hwaiters hpop
    refine ⟨_, Machine.live_hostDo ha ho (fun d => d.pqPop who n), as, e, bs, hsplit, holder, hyounger, ?_, ?_⟩
    · dsimp only
      rw [hleft]
    · dsimp only
      rw [hout, List.head?_cons]
  case empty =>
    intro s who n ha ho hmay hwaiters hempty
    refine ⟨_, Machine.live_hostDo ha ho (fun d => d.pqPop who n), ?_⟩
    dsimp only
    rw [Dev.pqPop_empty hmay hwaiters hempty]
    refine ⟨?_, rfl, rfl, rfl, rfl, rfl⟩
    rw [Dev.pqAt_of_pq (Dev.emit_pq _ _), Dev.pqAt_of_pq (Dev.pqLatch_pq _ _ _ _), Dev.pqAt_pqSet_same]
    exact hempty

end Sys2Proof
end

section
/-! The hardware locks as register accesses acquire, release and force them: the obligation O14, and the lock clauses of O39. -/

namespace Sys2Proof

/-! ### Acquires (R165) -/

/-- R165: a read of a held lock moves its pointer and shows the holder; GRANTED says that the reader is the holder. -/
theorem Dev.lckAcqRead_held {d : Dev} {who : Req} {n : Nat} (hheld : (d.lckAt n).held = true) :
    (d.lckAcqRead who n).lckAt n = { d.lckAt n with ptr := (who.port + 1) % 84 } ∧
    (d.lckAcqRead who n).out = .read who 0 (((d.lckAcqRead who n).lckAt n).word (decide ((d.lckAt n).owner = who.owner))) :: d.out := by
  have hread : d.lckAcqRead who n = (d.lckSet n { d.lckAt n with ptr := (who.port + 1) % 84 }).emit
      (.read who 0 (({ d.lckAt n with ptr := (who.port + 1) % 84 } : Lck).word (decide ((d.lckAt n).owner = who.owner)))) := by
    simp [Dev.lckAcqRead, Dev.lckAcqWord, Dev.lckAcquire, hheld]
  have hlock : (d.lckAcqRead who n).lckAt n = { d.lckAt n with ptr := (who.port + 1) % 84 } := by
    rw [hread]
    exact Dev.lckAt_lckSet_same d n _
  refine ⟨hlock, ?_⟩
  rw [hlock, hread]
  rfl

/-! ### Releases (R166) -/

/-- R166: a write by the owning domain frees the lock and does nothing else. -/
theorem Dev.lckAcqWrite_own {d : Dev} {who : Req} {n : Nat} (hheld : (d.lckAt n).held = true) (hown : (d.lckAt n).owner = who.owner) :
    d.lckAcqWrite who n = d.lckSet n { d.lckAt n with held := false, owner := 0, broken := false } := by
  unfold Dev.lckAcqWrite
  dsimp only
  rw [if_pos ⟨hheld, hown⟩, Dev.lckRelease_own hheld hown]

theorem Lck.not_own {l : Lck} {o : Nat} (h : l.held = false ∨ l.owner ≠ o) : ¬(l.held = true ∧ l.owner = o) := by
  rintro ⟨hheld, hown⟩
  simp [hheld, hown] at h

/-- R499: the detail of the report of a release that is ignored. -/
def Lck.lostDetail (l : Lck) (n o : Nat) : Nat :=
  n + 256 * (if l.held then l.owner else 0) + 16384 * b2n (!l.held) + 65536 * o

/-- R166: a release by any other domain, or of a free lock, is counted and reported. -/
theorem Dev.lckRelease_ignored {d : Dev} {n o : Nat} (h : (d.lckAt n).held = false ∨ (d.lckAt n).owner ≠ o) :
    ∃ p, d.lckRelease n o = (d.count (lckBase + 0x804) 1).report 5 1 0 p ((d.lckAt n).lostDetail n o) := by
  exact ⟨_, by rw [Dev.lckRelease, if_neg (Lck.not_own h)]; rfl⟩

/-- R166, R355: the access that makes it is counted as well if it is a function's. -/
theorem Dev.lckAcqWrite_ignored {d : Dev} {who : Req} {n : Nat} (h : (d.lckAt n).held = false ∨ (d.lckAt n).owner ≠ who.owner) :
    d.lckAcqWrite who n = d.lckRelease n who.owner ∨
    ∃ fn off, off % 4 = 0 ∧ d.lckAcqWrite who n = (d.lckRelease n who.owner).accErr fn off 15 true 7 := by
  simp only [Dev.lckAcqWrite, if_neg (Lck.not_own h)]
  cases who with
  | pf => exact Or.inr ⟨none, lckBase + 4 * n, by unfold lckBase; omega, rfl⟩
  | vf p => exact Or.inr ⟨some p, 0x10000 + 4 * n, by omega, rfl⟩
  | fw c => exact Or.inl rfl
  | debug => exact Or.inl rfl

/-- What such a write leaves of the locks, of LCK_BADREL and of the error log is what the ignored release does. -/
theorem Dev.lckAcqWrite_ignored_leaves {d : Dev} {who : Req} {n : Nat} (h : (d.lckAt n).held = false ∨ (d.lckAt n).owner ≠ who.owner) :
    (d.lckAcqWrite who n).lck = (d.lckRelease n who.owner).lck ∧ (d.lckAcqWrite who n).erl = (d.lckRelease n who.owner).erl ∧
    (d.lckAcqWrite who n).rdN (lckBase + 0x804) = (d.lckRelease n who.owner).rdN (lckBase + 0x804) := by
  rcases Dev.lckAcqWrite_ignored h with hwrite | ⟨fn, off, h4, hwrite⟩
  · rw [hwrite]
    exact ⟨rfl, rfl, rfl⟩
  · rw [hwrite]
    refine ⟨Dev.lck_of_tensor (Dev.accErr_tensor _ _ _ _ _ _), Dev.accErr_erl _ _ _ _ _ _, ?_⟩
    rw [Dev.accErr_word _ _ h4 _ (by omega), Dev.rdN, Dev.rd_accFail_other (by unfold lckBase; omega) (by omega), Dev.rdN]

/-- R166: LCK_BADREL counts an ignored release, the locks stay, and a report queue with room takes its report. -/
theorem Dev.lckRelease_ignored_leaves {d : Dev} {n o : Nat} (h : (d.lckAt n).held = false ∨ (d.lckAt n).owner ≠ o)
    (hroom : d.erl.queue.length < 64) :
    (d.lckRelease n o).lck = d.lck ∧ (d.lckRelease n o).rdN (lckBase + 0x804) = stick32 (d.rdN (lckBase + 0x804) + 1) ∧
    ∃ e, (d.lckRelease n o).erl.queue = d.erl.queue ++ [e] ∧ e.source = 5 ∧ e.code = 1 ∧ e.cls = 0 ∧
      e.detail = (d.lckAt n).lostDetail n o % 2 ^ 32 := by
  obtain ⟨p, hrelease⟩ := Dev.lckRelease_ignored h
  rw [hrelease]
  refine ⟨Dev.lck_of_tensor (by simp), ?_, (d.count (lckBase + 0x804) 1).mkReport 5 1 0 p ((d.lckAt n).lostDetail n o), ?_, rfl, rfl, rfl, rfl⟩
  · rw [Dev.rdN_report_other _ _ _ _ _ _ (by omega) (by unfold lckBase erlBase; omega), Dev.rdN_count_same]
  · rw [Dev.report_queue _ _ _ _ _ _ (by simpa using hroom), Dev.count_erl]

/-! ### Forced releases (R167) -/

/-- R167: a forced release of a held lock breaks it, and LCK_BROKENCNT counts it. -/
theorem Dev.lckForce_held {d : Dev} {n : Nat} (hheld : (d.lckAt n).held = true) (row : Nat) :
    (d.lckForce n row).lckAt n = { d.lckAt n with held := false, owner := 0, broken := true } ∧
    (d.lckForce n row).rdN (lckBase + 0x808) = stick32 (d.rdN (lckBase + 0x808) + 1) := by
  simp only [Dev.lckForce, hheld, if_true]
  refine ⟨?_, ?_⟩
  · rw [Dev.lckAt_of_lck (Dev.lck_of_tensor (Dev.report_tensor _ _ _ _ _ _)), Dev.lckAt_of_lck (Dev.lck_of_tensor (Dev.count_tensor _ _ _)),
      Dev.lckAt_lckSet_same]
  · rw [Dev.rdN_report_other _ _ _ _ _ _ (by omega) (by unfold lckBase erlBase; omega), Dev.rdN_count_same, Dev.lckSet_rdN]

/-! ### The obligation about releases -/

/-- Settles O14: the owner's write is one update of the lock; any other is the ignored release, whatever counts the access beside it. -/
theorem locksReleaseOnlyToTheirOwner : Obligations.LocksReleaseOnlyToTheirOwner := by
  unfold Obligations.LocksReleaseOnlyToTheirOwner
  refine ⟨?owner, ?other⟩
  case owner =>
    intro s who n ha hm hheld hown
    refine ⟨_, Machine.live_writeDo ha hm (fun d => d.lckAcqWrite who n), ?_⟩
    dsimp only
    rw [Dev.lckAcqWrite_own hheld hown]
    exact ⟨Dev.lckAt_lckSet_same _ _ _, rfl, rfl⟩
  case other =>
    intro s who n ha hm hother hroom
    refine ⟨_, Machine.live_writeDo ha hm (fun d => d.lckAcqWrite who n), ?_⟩
    dsimp only
    obtain ⟨hlck, herl, hcount⟩ := Dev.lckAcqWrite_ignored_leaves hother
    rw [hlck, herl, hcount]
    exact Dev.lckRelease_ignored_leaves hother hroom

end Sys2Proof
end

section
/-! The Catcher: a record enters its FIFO, a take moves one to its ring, and a ring's reader moves the tail: the obligation O38. -/

namespace Sys2Proof

/-! ### Sources and FIFOs (R150, R152) -/

/-- R150: a record of a source with room and nothing held back enters its FIFO, and nothing else changes. -/
theorem Dev.catRecord_room {d : Dev} {r : CatRec} (hroom : (Tab.get [] d.cat.fifo r.source).length < 8)
    (hhold : Tab.get [] d.cat.hold r.source = []) :
    d.catRecord r =
      { d with cat := { d.cat with fifo := Tab.set [] d.cat.fifo r.source (Tab.get [] d.cat.fifo r.source ++ [r]) } } := by
  have hput : d.catPut r =
      { d with cat := { d.cat with fifo := Tab.set [] d.cat.fifo r.source (Tab.get [] d.cat.fifo r.source ++ [r]) } } := by
    rw [Dev.catPut]
    dsimp only
    rw [if_pos ⟨hroom, hhold⟩]
  have hpost : d.corePost r.source r none = d.catPut r := by
    have hfree : ¬8 ≤ (Tab.get [] d.cat.fifo r.source).length := by omega
    simp [Dev.corePost, hfree, hhold]
  rw [Dev.catRecord, hpost, ite_self, hput]

theorem Dev.catUnhold_none {d : Dev} {k : Nat} (hhold : Tab.get [] d.cat.hold k = []) : d.catUnhold k = d := by
  simp only [Dev.catUnhold, hhold]

/-! ### Rings (R154 to R156) -/

/-- R155: the ring of a record: its partition's, or ring 32. -/
def CatRec.ring (r : CatRec) : Nat := if r.partition < 32 then r.partition else 32

@[simp] theorem Dev.ringEvent_cat (d : Dev) (p b : Nat) : (d.ringEvent p b).cat = d.cat := by
  unfold Dev.ringEvent
  dsimp only
  (repeat' split) <;> simp

/-- R155, R156: a record of a ring with room goes into the slot at the head. -/
theorem Dev.ringWrite_cat {d : Dev} {r : CatRec}
    (hroom : (Tab.get 0 d.cat.head r.ring + 256 - Tab.get 0 d.cat.tail r.ring) % 256 ≠ 128) :
    (d.ringWrite r).cat = { d.cat with
      slot := Tab.set CatRec.zero d.cat.slot (r.ring * 128 + Tab.get 0 d.cat.head r.ring % 128) r,
      head := Tab.set 0 d.cat.head r.ring ((Tab.get 0 d.cat.head r.ring + 1) % 256) } := by
  unfold CatRec.ring at *
  simp only [Dev.ringWrite, if_neg hroom, Dev.ringEvent_cat]

/-! ### Takes (R151, R152) -/

@[simp] theorem Dev.afterWait_cat (d : Dev) (c : Nat) (a : Bool × Option (Nat × Bool)) (rest : List (Bool × Option (Nat × Bool))) :
    (d.afterWait c a rest).cat = d.cat := by
  unfold Dev.afterWait
  dsimp only
  split <;> simp

@[simp] theorem Dev.releaseFree_cat (d : Dev) (c : Nat) (l : List (Bool × Option (Nat × Bool))) : (d.releaseFree c l).cat = d.cat := by
  induction l generalizing d with
  | nil => rfl
  | cons a rest ih =>
    rw [Dev.releaseFree]
    split
    · rfl
    · rw [ih, Dev.afterWait_cat]

/-- R152: the effects that a held record delayed write no part of the Catcher. -/
@[simp] theorem Dev.release_cat (d : Dev) (c : Nat) : (d.release c).cat = d.cat := by
  unfold Dev.release
  split <;> simp

theorem Dev.catTakeOne_cat (d : Dev) : d.catTakeOne.cat = d.catTake.1.cat := by
  unfold Dev.catTakeOne
  obtain ⟨e, k⟩ := d.catTake
  cases k with
  | none => rfl
  | some k =>
    dsimp only
    split
    · exact Dev.release_cat e k
    · rfl

/-- R154: a record as its take stamps and numbers it. -/
def Dev.catStamped (d : Dev) (r : CatRec) : CatRec := { r with stamp := d.nclk, take := d.cat.take }

/-- R151: the picked source gives its oldest record, and the pointer moves behind it. -/
def Dev.catPicked (d : Dev) (k : Nat) (rest : List CatRec) : Dev :=
  { d with cat := { d.cat with fifo := Tab.set [] d.cat.fifo k rest, ptr := (k + 1) % 36, take := (d.cat.take + 1) % 2 ^ 32 } }

/-- R155, R339: a POST goes on to the write-back unit, and a notice makes a telemetry record. -/
def Dev.catForward (d : Dev) (r : CatRec) : Dev :=
  let d1 := if r.kind = 0x02 then { d with cat := { d.cat with fwd := d.cat.fwd ++ [r] } } else d
  if r.kind = 0x20 then d1.teleMake 1 2 6 r.partition 0 r.bytes else d1

/-- Of the Catcher, forwarding writes the records forwarded alone. -/
theorem Dev.catForward_cat (d : Dev) (r : CatRec) : ∃ fwd, (d.catForward r).cat = { d.cat with fwd := fwd } := by
  unfold Dev.catForward
  dsimp only
  by_cases hpost : r.kind = 0x02
  · rw [if_pos hpost, if_neg (by omega)]
    exact ⟨_, rfl⟩
  · rw [if_neg hpost]
    split
    · exact ⟨_, Dev.teleMake_cat _ _ _ _ _ _ _⟩
    · exact ⟨_, rfl⟩

theorem Dev.catTake_picked {d : Dev} {k : Nat} {r : CatRec} {rest : List CatRec} (hpick : d.cat.pick = some k)
    (hfifo : Tab.get [] d.cat.fifo k = r :: rest) :
    d.catTake.1 = ((((d.catPicked k rest).count (catBase + 0x104 + 8 * k) 1).ringWrite (d.catStamped r)).catForward
      (d.catStamped r)).catUnhold k := by
  simp only [Dev.catTake, hpick, hfifo]
  rfl

/-- R151, R155: a take of the picked source, whose ring has room and which holds nothing back; only the records forwarded to the write-back
unit depend on the record's kind. -/
theorem Dev.catTakeOne_picked {d : Dev} {k : Nat} {r : CatRec} {rest : List CatRec} (hpick : d.cat.pick = some k)
    (hfifo : Tab.get [] d.cat.fifo k = r :: rest) (hhold : Tab.get [] d.cat.hold k = [])
    (hroom : (Tab.get 0 d.cat.head r.ring + 256 - Tab.get 0 d.cat.tail r.ring) % 256 ≠ 128) :
    ∃ fwd, d.catTakeOne.cat = { (d.catPicked k rest).cat with
      slot := Tab.set CatRec.zero d.cat.slot (r.ring * 128 + Tab.get 0 d.cat.head r.ring % 128) (d.catStamped r),
      head := Tab.set 0 d.cat.head r.ring ((Tab.get 0 d.cat.head r.ring + 1) % 256), fwd := fwd } := by
  have hring := Dev.ringWrite_cat (d := (d.catPicked k rest).count (catBase + 0x104 + 8 * k) 1) (r := d.catStamped r)
    (by rw [Dev.count_cat]; exact hroom)
  obtain ⟨fwd, hforward⟩ :=
    (((d.catPicked k rest).count (catBase + 0x104 + 8 * k) 1).ringWrite (d.catStamped r)).catForward_cat (d.catStamped r)
  rw [hring, Dev.count_cat] at hforward
  rw [Dev.catTakeOne_cat, Dev.catTake_picked hpick hfifo, Dev.catUnhold_none (by rw [hforward]; exact hhold), hforward]
  exact ⟨fwd, rfl⟩

/-! ### Tails (R156, R157) -/

/-- R157: may the requester move the tail of ring p: the ring of its partition, the PF ring 32, firmware every ring? -/
def Req.ownsRing (p : Nat) : Req → Bool
  | .pf => decide (p = 32)
  | .vf n => decide (n = p)
  | .fw _ => true
  | .debug => false

/-- R156: a tail not beyond the head is stored. -/
theorem Dev.catRtail_stores {d : Dev} {who : Req} {p v : Nat} (hown : who.ownsRing p = true)
    (hle : (v % 256 + 256 - Tab.get 0 d.cat.tail p) % 256 ≤ (Tab.get 0 d.cat.head p + 256 - Tab.get 0 d.cat.tail p) % 256) :
    d.catRtail who p v = { d with cat := { d.cat with tail := Tab.set 0 d.cat.tail p (v % 256) } } := by
  cases who with
  | pf | vf n =>
    simp only [Req.ownsRing, decide_eq_true_eq] at hown
    subst hown
    simp [Dev.catRtail, hle]
  | fw c => simp [Dev.catRtail, hle]
  | debug => cases hown

/-- R156, R355: one beyond the head is ignored, and counted with cause 8 for the function. -/
theorem Dev.catRtail_beyond {d : Dev} {p v : Nat}
    (hlt : (Tab.get 0 d.cat.head p + 256 - Tab.get 0 d.cat.tail p) % 256 < (v % 256 + 256 - Tab.get 0 d.cat.tail p) % 256) :
    d.catRtail (.vf p) p v = d.accErr (some p) 0x9004 15 true 8 := by
  simp [Dev.catRtail, Nat.not_le.mpr hlt]

/-! ### The obligation -/

/-- Settles O38: each clause is the branch of a placing, a take or a tail write that its hypotheses select. -/
theorem catcherRecordsAndRings : Obligations.CatcherRecordsAndRings := by
  unfold Obligations.CatcherRecordsAndRings
  refine ⟨?record, ?take, ?tailVf, ?tailFw, ?tailPf, ?tailBeyond⟩
  case record =>
    intro s r ha hroom hhold
    refine ⟨_, Machine.live_next ha (fun d => d.catRecord r), ?_⟩
    dsimp only
    rw [Dev.catRecord_room hroom hhold]
    exact ⟨Tab.get_set_same _ _ _ _, rfl⟩
  case take =>
    intro s k r rest ha hpick hfifo hhold hroom
    refine ⟨_, Machine.live_next ha (fun d => d.catTakeOne), ?_⟩
    obtain ⟨fwd, hcat⟩ := Dev.catTakeOne_picked hpick hfifo hhold hroom
    dsimp only
    rw [hcat]
    exact ⟨Tab.get_set_same _ _ _ _, Tab.get_set_same _ _ _ _, Tab.get_set_same _ _ _ _, rfl, rfl⟩
  case tailVf =>
    intro s p v ha ho hle
    refine ⟨_, Machine.live_writeDo_host ha ho rfl _ (fun d => d.catRtail (.vf p) p v.toNat), ?_⟩
    rw [Dev.catRtail_stores (by simp [Req.ownsRing]) hle]
  case tailFw =>
    intro s c p v ha hm hle
    refine ⟨_, Machine.live_writeDo ha hm (fun d => d.catRtail (.fw c) p v.toNat), ?_⟩
    rw [Dev.catRtail_stores rfl hle]
  case tailPf =>
    intro s v ha ho hle
    refine ⟨_, Machine.live_writeDo_host ha ho rfl _ (fun d => d.catRtail .pf 32 v.toNat), ?_⟩
    rw [Dev.catRtail_stores rfl hle]
  case tailBeyond =>
    intro s p v ha ho hlt
    refine ⟨_, Machine.live_writeDo_host ha ho rfl _ (fun d => d.catRtail (.vf p) p v.toNat), ?_⟩
    dsimp only
    rw [Dev.catRtail_beyond hlt]
    refine ⟨Dev.accErr_cat _ _ _ _ _ _, ?_⟩
    rw [Dev.accErr_word _ _ (by omega) _ (by omega)]
    simpa [bits, fnBase] using (Dev.accFail_counts s.dev (some p.val) 0x9004 4 true 8 (by omega)).2

end Sys2Proof
end

section
/-! The queues as firmware configures them and as waiters are served, and with these and the clauses above the obligation O39. -/

namespace Sys2Proof

/-! ### Configuration (R158) -/

/-- R158: a write of PQ_CFG empties the queue, clears its events and its count of overruns. -/
theorem Dev.pqCfg_stores {d : Dev} {owner : Nat} (howner : owner < 63) (n : Nat) (en : Bool) (depth hiwater : Nat) :
    (d.pqCfg n en owner depth hiwater).pqAt n =
      { d.pqAt n with en := en, owner := owner, depth := min depth 6, hiwater := hiwater, ents := [] } ∧
    (d.pqCfg n en owner depth hiwater).rdN (pqBase + 0x100 * n + 0x08) = 0 ∧
    (d.pqCfg n en owner depth hiwater).rdN (pqBase + 0x100 * n + 0x10) = 0 := by
  rw [Dev.pqCfg, if_neg (by omega)]
  dsimp only
  refine ⟨?_, ?_, ?_⟩
  · rw [Dev.pqAt_of_pq (Dev.wrN_pq _ _ _), Dev.pqAt_of_pq (Dev.wrN_pq _ _ _), Dev.pqAt_pqSet_same]
  · rw [Dev.rdN_wrN_other _ _ (by omega), Dev.rdN_wrN_same]
  · rw [Dev.rdN_wrN_same]

/-! ### What runs on behind a wait (R96, R106, R162) -/

/-- A core that waits for nothing stands in no queue. -/
theorem Dev.unwait_idle {d : Dev} {c : Nat} (hidle : (d.coreAt c).waiting = none) : d.unwait c = d := by
  simp [Dev.unwait, hidle]

/-- A descriptor of such a core that fails leaves the queues, and the core waits for nothing. -/
theorem Dev.tenFail_idle {d : Dev} {c : Nat} (hst : (d.coreAt c).st ≠ .error) (hidle : (d.coreAt c).waiting = none) (code pc desc : Nat) :
    ((d.tenFail c code pc desc).coreAt c).waiting = none ∧ (d.tenFail c code pc desc).pq = d.pq := by
  obtain ⟨⟨l, hcore⟩, -⟩ := Dev.tenFail_stops hst code pc desc
  have hpost : ∀ (e : Dev) (r : CatRec), (e.corePost c r none).pq = e.pq := by
    intro e r
    obtain ⟨-, -, -, hpq, -⟩ := e.corePost_leaves c r none
    exact hpq
  refine ⟨by rw [hcore, Dev.stopped]; simp, ?_⟩
  unfold Dev.tenFail
  dsimp only
  rw [if_neg hst, Dev.unwait_idle hidle, Dev.report_pq, hpost, Dev.event_pq, Dev.wrN_pq]
  rfl

/-- R96: going on to the next fetch, even one that stops the program, leaves the queues. -/
theorem Dev.nextPc_idle {d : Dev} {c : Nat} (hidle : (d.coreAt c).waiting = none) :
    ((d.nextPc c).coreAt c).waiting = none ∧ (d.nextPc c).pq = d.pq := by
  have hupd : ((d.coreUpd c (fun x => { x with cur := none })).coreAt c).waiting = none := by
    rw [Dev.coreAt_coreUpd_same]
    exact hidle
  unfold Dev.nextPc Dev.fetchCheck
  split
  · rename_i hbeyond
    obtain ⟨hrun, -⟩ := hbeyond
    exact Dev.tenFail_idle (by rw [hrun]; decide) hupd _ _ _
  · exact ⟨hupd, rfl⟩

/-- R106: the end of a WAITQ ends the wait and leaves the queues, wherever its core goes on. -/
theorem Dev.waitqEnd_idle (d : Dev) (c : Nat) (e : Option PqEntry) :
    ((d.waitqEnd c e).coreAt c).waiting = none ∧ (d.waitqEnd c e).pq = d.pq := by
  obtain ⟨-, hpq⟩ := d.waitqStore_beside c (d.curDesc c) e
  set x := (d.waitqStore c (d.curDesc c) e).coreUpd c (fun x => { x with st := .run, waiting := none }) with hx
  obtain ⟨l, hcore⟩ := x.complete_coreAt c (d.curDesc c) (d.curPc c) false false
  obtain ⟨hwait, hleft⟩ := Dev.nextPc_idle (d := x.complete c (d.curDesc c) (d.curPc c) false false) (c := c)
    (by rw [hcore, hx, Dev.coreAt_coreUpd_same])
  rw [Dev.waitqEnd_eq, Dev.runsOn, ← hx]
  exact ⟨hwait, by rw [hleft, Dev.complete_pq, hx, Dev.coreUpd_pq, hpq]⟩

/-! ### Waiters (R132, R162) -/

/-- R162: the oldest waiter, a core, takes an entry that landed. -/
theorem Dev.waiterServe_core {d : Dev} {n c : Nat} {ws : List Nat} {e : PqEntry} {y : Pq} (hwaiters : (d.pqAt n).waiters = c :: ws) (hc : c < 32)
    (hpop : (d.pqAt n).pop = some (e, y)) :
    (d.waiterServe n).pqAt n = { y with waiters := ws, popPtr := (c + 1) % 84 } ∧ ((d.waiterServe n).coreAt c).waiting = none := by
  have hserve : d.waiterServe n = (d.pqSet n { y with waiters := ws, popPtr := (c + 1) % 84 }).waitqEnd c (some e) := by
    have hcore : d.waiterServe n = d.waiterPop n := by
      unfold Dev.waiterServe
      dsimp only
      split
      · rename_i hstaging
        rw [hwaiters] at hstaging
        simp only [List.cons.injEq] at hstaging
        omega
      · rfl
    simp only [hcore, Dev.waiterPop, hwaiters, hc, hpop, if_true]
  obtain ⟨hwait, hpq⟩ := (d.pqSet n { y with waiters := ws, popPtr := (c + 1) % 84 }).waitqEnd_idle c (some e)
  rw [hserve]
  exact ⟨by rw [Dev.pqAt_of_pq hpq, Dev.pqAt_pqSet_same], hwait⟩

@[simp] theorem Dev.stgStart_pq (d : Dev) (r : StgReq) : (d.stgStart r).pq = d.pq := by
  unfold Dev.stgStart
  dsimp only
  split <;> rfl

/-- R132, R162: the oldest waiter, the staging engine with room for a request, takes an entry that landed; 65 is its number and 66 its pop
pointer (R502, log 20). -/
theorem Dev.waiterServe_staging {d : Dev} {n : Nat} {ws : List Nat} {e : PqEntry} {y : Pq} (hwaiters : (d.pqAt n).waiters = 65 :: ws)
    (hroom : d.stgRoom (d.pqAt n).owner = true) (hpop : (d.pqAt n).pop = some (e, y)) :
    (d.waiterServe n).pqAt n = { y with waiters := ws, popPtr := 66 } := by
  have hserve : d.waiterServe n =
      (d.pqSet n { y with waiters := ws, popPtr := 66 }).stgStart (d.stgPlan (d.pqAt n).owner e.data) := by
    simp only [Dev.waiterServe, hwaiters, hroom, hpop]
  rw [hserve, Dev.pqAt_of_pq (Dev.stgStart_pq _ _), Dev.pqAt_pqSet_same]

/-! ### The obligation -/

/-- Settles O39: each clause is one access to a queue or to a lock, or the service of a waiter, as the lemmas about queues and locks give it. -/
theorem queuesAndLocksActThroughRegisters : Obligations.QueuesAndLocksActThroughRegisters := by
  unfold Obligations.QueuesAndLocksActThroughRegisters
  refine ⟨?cfg, ?push, ?pop, ?waiterCore, ?acquire, ?release, ?force, ?overrun, ?waiterStaging, ?shown⟩
  case cfg =>
    intro s n en owner depth hiwater ha hready hheld howner
    exact ⟨_, Machine.live_fwDo ha hready hheld (fun d => d.pqCfg n en owner depth hiwater), Dev.pqCfg_stores howner _ _ _ _⟩
  case push =>
    intro s who n level ha hm hmay hroom
    refine ⟨_, Machine.live_writeDo ha hm (fun d => d.pqPushCtl who n level), ?_⟩
    dsimp only
    rw [Dev.pqPushCtl_pushes hmay]
    exact ⟨(Dev.pqPush_room hroom _ _).1, fun hempty => Dev.pqPush_first hempty _ _⟩
  case pop =>
    intro s who n e y ha ho hmay hwaiters hpop
    exact ⟨_, Machine.live_hostDo ha ho (fun d => d.pqPop who n), Dev.pqPop_takes hmay hwaiters hpop⟩
  case waiterCore =>
    intro s n c ws e y ha hwaiters hc hpop
    exact ⟨_, Machine.live_next ha (fun d => d.waiterServe n), Dev.waiterServe_core hwaiters hc hpop⟩
  case acquire =>
    intro s who n ha ho hfree
    obtain ⟨hlock, hword, hout⟩ := Dev.lckAcqWord_free (who := who) hfree
    refine ⟨_, Machine.live_hostDo ha ho (fun d => d.lckAcqRead who n), hlock, ?_⟩
    exact congrArg₂ List.cons (congrArg (Out.read who 0) hword) hout
  case release =>
    intro s who n ha hm hheld hown
    refine ⟨_, Machine.live_writeDo ha hm (fun d => d.lckAcqWrite who n), ?_⟩
    rw [Dev.lckAcqWrite_own hheld hown]
  case force =>
    intro s c n ha hm hheld
    exact ⟨_, Machine.live_writeDo ha hm (fun d => d.lckForceWrite (.fw c) n), Dev.lckForce_held hheld 6⟩
  case overrun =>
    intro s who n level ha hm hmay hfull
    exact ⟨_, Machine.live_writeDo ha hm (fun d => d.pqPushCtl who n level), Dev.pqPushCtl_full hmay hfull level⟩
  case waiterStaging =>
    intro s n ws e y ha hwaiters hroom hpop
    exact ⟨_, Machine.live_next ha (fun d => d.waiterServe n), Dev.waiterServe_staging hwaiters hroom hpop⟩
  case shown =>
    intro s who n ha ho hheld
    exact ⟨_, Machine.live_hostDo ha ho (fun d => d.lckAcqRead who n), Dev.lckAcqRead_held hheld⟩

end Sys2Proof
end

section
/-! Frames of chapter 7: what pause generation, the stomp and MACsec leave of packets, queues and registers, the delivery of a frame and its
end-of-frame status, and from these the obligation O24. -/

namespace Sys2Proof

/-! ### The commands are their operations -/

theorem Machine.exec_frameReceive_alive {s : Machine.State} (ha : s.dev.alive = true) (n : Fin 32) (data : List Byte) (pad : Nat) :
    Machine.exec (.frameReceive n data pad) s = .next { s with dev := s.dev.frameReceive n (padded data pad) } :=
  Machine.live_next ha (fun d => d.frameReceive n (padded data pad))

theorem Machine.exec_frameEnd_alive {s : Machine.State} (ha : s.dev.alive = true) (n : Fin 32) (good : Bool) :
    Machine.exec (.frameEnd n good) s = .next { s with dev := s.dev.frameEndAll n good } :=
  Machine.live_next ha (fun d => d.frameEndAll n good)

/-! ### Counters of a port (R9, R197) -/

theorem Dev.rd64_count64_same (d : Dev) (k x : Nat) : (d.count64 k x).rd64 k = (d.rd64 k + x) % 2 ^ 64 := by
  unfold Dev.count64 Dev.wr64
  generalize d.rd64 k + x = v
  rw [Dev.rd64, Dev.rdN_wrN_other _ _ (by omega), Dev.rdN_wrN_same, Dev.rdN_wrN_same]
  omega

theorem Dev.rd64_of_rdN {d e : Dev} {k : Nat} (hlo : e.rdN k = d.rdN k) (hhi : e.rdN (k + 4) = d.rdN (k + 4)) : e.rd64 k = d.rd64 k := by
  rw [Dev.rd64, hlo, hhi, ← Dev.rd64]

@[simp] theorem Dev.prtCount_flow (d : Dev) (n k x : Nat) : (d.prtCount n k x).flow = d.flow := by
  simp [Dev.flow_eq]

theorem Dev.rd64_prtCount_same (d : Dev) (n k x : Nat) :
    (d.prtCount n k x).rd64 (prt n (0x100 + 8 * k)) = (d.rd64 (prt n (0x100 + 8 * k)) + x) % 2 ^ 64 :=
  Dev.rd64_count64_same d _ x

/-- Counter k of a port lies at its own place in the port's page. -/
theorem Dev.rdN_prtCount_other (d : Dev) (n x : Nat) {k a : Nat} (hk : k < 32)
    (ha : a % 0x1000 < 0x100 + 8 * k ∨ 0x100 + 8 * k + 8 ≤ a % 0x1000) : (d.prtCount n k x).rdN a = d.rdN a :=
  Dev.rdN_count64_other d x (by unfold prt prtBase; omega) (by unfold prt prtBase; omega)

theorem Dev.rd64_prtCount_other (d : Dev) (n x m : Nat) {k off : Nat} (hk : k < 32) (hoff : off + 4 < 0x1000)
    (h : off + 8 ≤ 0x100 + 8 * k ∨ 0x100 + 8 * k + 8 ≤ off) : (d.prtCount n k x).rd64 (prt m off) = d.rd64 (prt m off) :=
  Dev.rd64_of_rdN (Dev.rdN_prtCount_other d n x hk (by unfold prt prtBase; omega))
    (Dev.rdN_prtCount_other d n x hk (by unfold prt prtBase; omega))

theorem prt_mod (n : Nat) {off : Nat} (h : off < 0x1000) : prt n off % 0x1000 = off := by
  unfold prt prtBase
  omega

theorem prt_lt_gntBase (n : Fin 32) {off : Nat} (h : off < 0x1000) : prt n off < gntBase := by
  unfold prt prtBase gntBase
  omega

theorem gntBase_le_portBuf (n w : Nat) : gntBase ≤ portBuf n w := by
  unfold portBuf
  omega

theorem prt_ne_portBuf (n : Fin 32) {off : Nat} (h : off < 0x1000) (m w : Nat) : prt n off ≠ portBuf m w := by
  have := prt_lt_gntBase n h
  have := gntBase_le_portBuf m w
  omega

/-! ### What leaves packets and queues (R186, R190) -/

/-- The packets, the queues and, of every page, the registers below the counters from TX_PAUSE on (0x160) stand as they were. -/
structure Dev.SameFrames (d e : Dev) : Prop where
  pkts : e.flow.pkts = d.flow.pkts
  nextPkt : e.flow.nextPkt = d.flow.nextPkt
  q : e.flow.q = d.flow.q
  low : ∀ a, a % 0x1000 < 0x160 → e.rdN a = d.rdN a

theorem Dev.SameFrames.refl (d : Dev) : d.SameFrames d := ⟨rfl, rfl, rfl, fun _ _ => rfl⟩

theorem Dev.SameFrames.trans {d e f : Dev} (h : d.SameFrames e) (g : e.SameFrames f) : d.SameFrames f :=
  ⟨g.pkts.trans h.pkts, g.nextPkt.trans h.nextPkt, g.q.trans h.q, fun a ha => (g.low a ha).trans (h.low a ha)⟩

/-- A step that may be taken. -/
theorem Dev.SameFrames.perhaps {d e f : Dev} (h : d.SameFrames e) (g : e.SameFrames f) (c : Prop) [Decidable c] :
    d.SameFrames (if c then f else e) := by
  split
  · exact h.trans g
  · exact h

theorem Dev.SameFrames.pkt {d e : Dev} (h : d.SameFrames e) (i : Nat) : e.pkt i = d.pkt i := by
  rw [Dev.pkt, h.pkts, ← Dev.pkt]

theorem Dev.SameFrames.low64 {d e : Dev} (h : d.SameFrames e) {a : Nat} (ha : a % 0x1000 < 0x15C) : e.rd64 a = d.rd64 a :=
  Dev.rd64_of_rdN (h.low a (by omega)) (h.low (a + 4) (by omega))

theorem Dev.sameFrames_portSet (d : Dev) (n : Nat) (x : PortSt) : d.SameFrames (d.portSet n x) := ⟨rfl, rfl, rfl, fun _ _ => rfl⟩

theorem Dev.sameFrames_saSet (d : Dev) (k : Nat) (x : MsSa) : d.SameFrames (d.saSet k x) := ⟨rfl, rfl, rfl, fun _ _ => rfl⟩

theorem Dev.sameFrames_prtCount (d : Dev) (n x : Nat) {k : Nat} (hlo : 12 ≤ k) (hhi : k < 32) : d.SameFrames (d.prtCount n k x) :=
  ⟨by simp, by simp, by simp, fun a ha => Dev.rdN_prtCount_other d n x hhi (by omega)⟩

theorem Dev.sameFrames_onLane (d : Dev) (o : Out) : d.SameFrames (d.onLane o) := by
  unfold Dev.onLane
  split
  · exact .refl d
  · exact ⟨rfl, rfl, rfl, fun _ _ => rfl⟩

theorem Dev.sameFrames_alarmSet (d : Dev) (code inst : Nat) (set : Bool) (detail : Nat) (force : Bool) :
    d.SameFrames (d.alarmSet code inst set detail force) := by
  have hflow : (d.alarmSet code inst set detail force).flow = d.flow := by simp [Dev.flow_eq]
  exact ⟨by rw [hflow], by rw [hflow], by rw [hflow], fun a _ => Dev.alarmSet_rdN d _ _ _ _ _ a⟩

theorem Dev.sameFrames_pauseEmit (d : Dev) (n i quanta : Nat) : d.SameFrames (d.pauseEmit n i quanta) :=
  (d.sameFrames_prtCount n 1 (by split <;> omega) (by split <;> omega)).trans (Dev.sameFrames_onLane _ _)

theorem Dev.sameFrames_sendPause (d : Dev) (n i quanta : Nat) : d.SameFrames (d.sendPause n i quanta) := by
  unfold Dev.sendPause
  split
  · exact d.sameFrames_portSet n _
  · exact d.sameFrames_pauseEmit n i quanta

theorem Dev.sameFrames_pauseCheck1 (d : Dev) (n i : Nat) : d.SameFrames (d.pauseCheck1 n i) := by
  unfold Dev.pauseCheck1
  exact (((d.sameFrames_portSet n _).perhaps (Dev.sameFrames_sendPause _ _ _ _) _).perhaps (Dev.sameFrames_sendPause _ _ _ _) _).perhaps
    (Dev.sameFrames_alarmSet _ _ _ _ _ _) _

theorem Dev.sameFrames_pauseCheckList (d : Dev) (n : Nat) (is : List Nat) : d.SameFrames (d.pauseCheckList n is) := by
  induction is generalizing d with
  | nil => exact .refl d
  | cons i is ih => exact (d.sameFrames_pauseCheck1 n i).trans (ih _)

theorem Dev.sameFrames_pauseCheck (d : Dev) (n : Nat) : d.SameFrames (d.pauseCheck n) := d.sameFrames_pauseCheckList n _

theorem Dev.sameFrames_stomp (d : Dev) (i : Nat) (ports : List (Nat × PortSt)) : d.SameFrames (d.stomp i ports) := by
  induction ports generalizing d with
  | nil => exact .refl d
  | cons port ports ih =>
    obtain ⟨m, x⟩ := port
    refine Dev.SameFrames.trans ?_ (ih _)
    split
    · exact (Dev.SameFrames.refl d).perhaps
        ((d.sameFrames_portSet m _).trans (Dev.sameFrames_prtCount _ m 1 (by omega) (by omega))) _
    · exact .refl d

/-- R190: validation counts in one of the five MACsec counters. -/
theorem Dev.msValidate_counter (d : Dev) (n : Nat) (fr : List Byte) : 16 ≤ (d.msValidate n fr).counter ∧ (d.msValidate n fr).counter ≤ 20 := by
  unfold Dev.msValidate
  dsimp only
  (repeat' split) <;> simp

theorem Dev.sameFrames_msIngress (d : Dev) (n : Nat) (fr : List Byte) : d.SameFrames (d.msIngress n fr).1 := by
  obtain ⟨hlo, hhi⟩ := d.msValidate_counter n fr
  have htook : d.SameFrames (match (d.msValidate n fr).took with
      | some (k, pn) => d.saSet k { d.saAt k with pn := max (d.saAt k).pn (pn + 1) }
      | none => d) := by
    split
    · exact d.sameFrames_saSet _ _
    · exact .refl d
  unfold Dev.msIngress
  dsimp only
  split
  · exact htook.trans (Dev.sameFrames_prtCount _ n 1 (by omega) (by omega))
  split
  · exact htook.trans (Dev.sameFrames_prtCount _ n 1 (by omega) (by omega))
  split
  · exact htook.trans (Dev.sameFrames_prtCount _ n 1 (by omega) (by omega))
  · exact htook

/-! ### Delivery (R180, R237) -/

/-- R237: a claim is judged by registers of the packet buffer. -/
theorem Dev.admits_congr {d e : Dev} (h : ∀ a, gntBase ≤ a → e.rdN a = d.rdN a) (n r : Nat) : e.admits n r = d.admits n r := by
  have hbuf : ∀ m w, e.rdN (portBuf m w) = d.rdN (portBuf m w) := fun m w => h _ (gntBase_le_portBuf m w)
  simp only [Dev.admits, hbuf, h (gntBase + 0x08) (by omega)]

/-- The packet that a delivered frame becomes. -/
def Dev.arrival (d : Dev) (n : Nat) (data : List Byte) (fail untag : Bool) : Pkt :=
  { src := n, port := n, entry := n, mode := d.portMode n, data := data, len := data.length + 4, stamp := d.rxStamp n,
    cells := cellsOf (bits (d.rdN (prt n 4)) 13 0), pri := d.framePri n data, msFail := fail, msUntag := untag }

theorem Dev.deliver_admitted {d : Dev} {n : Fin 32} (h : d.admits n (cellsOf (bits (d.rdN (prt n 4)) 13 0)) = true)
    (data : List Byte) (fail untag : Bool) :
    (d.deliver n data fail untag).flow.nextPkt = d.flow.nextPkt + 1 ∧
    (d.deliver n data fail untag).pkt d.flow.nextPkt = d.arrival n data fail untag ∧
    ∀ off, off < 0x15C → (d.deliver n data fail untag).rd64 (prt n off) = d.rd64 (prt n off) := by
  simp only [Dev.deliver, h, if_true]
  have hframes := fun e : Dev => e.sameFrames_pauseCheck n
  refine ⟨(hframes _).nextPkt, ?_, fun off hoff => ?_⟩
  · rw [(hframes _).pkt]
    exact congrArg (Option.getD · _) (Tab.find_put_same _ _ _)
  · rw [(hframes _).low64 (by rw [prt_mod n (by omega)]; exact hoff)]
    exact Dev.rd64_of_rdN (Dev.rdN_wrN_other _ _ (prt_ne_portBuf n (by omega) n 2))
      (Dev.rdN_wrN_other _ _ (prt_ne_portBuf n (off := off + 4) (by omega) n 2))

/-- R180, R197: a frame counts in RX_FRAMES and its length in RX_BYTES. -/
def Dev.counted (d : Dev) (n : Nat) (data : List Byte) : Dev := (d.prtCount n 0 1).prtCount n 1 (data.length + 4)

@[simp] theorem Dev.counted_flow (d : Dev) (n : Nat) (data : List Byte) : (d.counted n data).flow = d.flow := by
  simp [Dev.counted]

theorem Dev.rdN_counted_other (d : Dev) (n : Nat) (data : List Byte) {a : Nat} (h : a % 0x1000 < 0x100 ∨ 0x110 ≤ a % 0x1000) :
    (d.counted n data).rdN a = d.rdN a := by
  rw [Dev.counted, Dev.rdN_prtCount_other _ n _ (by omega) (by omega), Dev.rdN_prtCount_other _ n _ (by omega) (by omega)]

theorem Dev.rd64_counted_frames (d : Dev) (n : Nat) (data : List Byte) :
    (d.counted n data).rd64 (prt n 0x100) = (d.rd64 (prt n 0x100) + 1) % 2 ^ 64 := by
  rw [Dev.counted, Dev.rd64_prtCount_other _ n _ n (by omega) (by omega) (by omega)]
  exact Dev.rd64_prtCount_same d n 0 1

theorem Dev.rd64_counted_bytes (d : Dev) (n : Nat) (data : List Byte) :
    (d.counted n data).rd64 (prt n 0x108) = (d.rd64 (prt n 0x108) + data.length + 4) % 2 ^ 64 := by
  rw [Nat.add_assoc, ← Dev.rd64_prtCount_other d n 1 n (k := 0) (off := 0x108) (by omega) (by omega) (by omega)]
  exact Dev.rd64_prtCount_same (d.prtCount n 0 1) n 1 (data.length + 4)

theorem Dev.admits_counted (d : Dev) (n : Fin 32) (data : List Byte) (r : Nat) : (d.counted n data).admits n r = d.admits n r := by
  apply Dev.admits_congr
  intro a ha
  have hcount : ∀ (e : Dev) (k x : Nat), k < 32 → (e.prtCount n k x).rdN a = e.rdN a := fun e k x hk =>
    have hpage := prt_lt_gntBase n (off := 0x100 + 8 * k + 4) (by omega)
    Dev.rdN_count64_other e x (by unfold prt at *; omega) (by unfold prt at *; omega)
  rw [Dev.counted, hcount _ 1 _ (by omega), hcount _ 0 _ (by omega)]

/-- Does the MAC of port n let a frame through to MACsec and delivery (R175, R177, R178, R180)? -/
structure Dev.Accepts (d : Dev) (n : Nat) (data : List Byte) : Prop where
  hears : d.hears n = true
  enabled : 1 ≤ d.portMode n
  known : d.portMode n ≤ 3
  whole : 60 ≤ data.length
  fits : data.length + 4 ≤ bits (d.rdN (prt n 4)) 13 0
  noControl : etherType data ≠ 0x8808 ∨ d.portMode n = 2
  passes : d.portMode n ≠ 3 ∨ d.filterPass n data = true

/-- R180: such a frame is counted and goes to delivery, through ingress MACsec where it is on. -/
theorem Dev.frameReceive_accepted {d : Dev} {n : Nat} {data : List Byte} (h : d.Accepts n data) :
    d.frameReceive n data = if bit (d.rdN (prt n 0x30)) 0 then
        match (d.counted n data).msIngress n data with
        | (e, some (fr, fail, untag)) => e.deliver n fr fail untag
        | (e, none) => e
      else (d.counted n data).deliver n data false false := by
  obtain ⟨hears, enabled, known, whole, fits, noControl, passes⟩ := h
  have hmode : ¬(d.portMode n = 0 ∨ 3 < d.portMode n) := by omega
  have hwhole : ¬data.length + 4 < 64 := by omega
  have hfits : ¬bits (d.rdN (prt n 4)) 13 0 < data.length + 4 := by omega
  have hcontrol : ¬(etherType data = 0x8808 ∧ d.portMode n ≠ 2) := fun ⟨hc, ht⟩ => noControl.elim (absurd hc) (absurd · ht)
  have hpass : ¬(d.portMode n = 3 ∧ d.filterPass n data = false) := by
    rintro ⟨hend, hno⟩
    exact passes.elim (absurd hend) (fun hyes => absurd (hyes.symm.trans hno) (by decide))
  rw [Dev.frameReceive, if_neg (by rw [hears]; decide)]
  dsimp only
  rw [if_neg hmode, if_neg hwhole, if_neg hfits, if_neg hcontrol, if_neg hpass]
  rfl

/-- R180: a frame shorter than 64 bytes only counts. -/
theorem Dev.frameReceive_runt {d : Dev} {n : Nat} {data : List Byte} (hears : d.hears n = true) (enabled : 1 ≤ d.portMode n)
    (known : d.portMode n ≤ 3) (hshort : data.length < 60) : d.frameReceive n data = (d.counted n data).prtCount n 3 1 := by
  rw [Dev.frameReceive, if_neg (by rw [hears]; decide)]
  dsimp only
  rw [if_neg (by omega), if_pos (by omega)]
  rfl

/-- What a frame that arrives at port n as `raw` and is delivered as `fr` leaves (R180, R197). -/
structure Dev.Received (d e : Dev) (n : Nat) (raw fr : List Byte) (fail untag : Bool) : Prop where
  nextPkt : e.flow.nextPkt = d.flow.nextPkt + 1
  stage : (e.pkt d.flow.nextPkt).stage = .rx
  src : (e.pkt d.flow.nextPkt).src = n
  entry : (e.pkt d.flow.nextPkt).entry = n
  mode : (e.pkt d.flow.nextPkt).mode = d.portMode n
  data : (e.pkt d.flow.nextPkt).data = fr
  len : (e.pkt d.flow.nextPkt).len = fr.length + 4
  cells : (e.pkt d.flow.nextPkt).cells = cellsOf (bits (d.rdN (prt n 4)) 13 0)
  msFail : (e.pkt d.flow.nextPkt).msFail = fail
  msUntag : (e.pkt d.flow.nextPkt).msUntag = untag
  frames : e.rd64 (prt n 0x100) = (d.rd64 (prt n 0x100) + 1) % 2 ^ 64
  bytes : e.rd64 (prt n 0x108) = (d.rd64 (prt n 0x108) + raw.length + 4) % 2 ^ 64

/-- A counted frame, whatever MACsec has done since, becomes the next packet where its cells are admitted. -/
theorem Dev.received_deliver {d e : Dev} {n : Fin 32} {data : List Byte} (hsame : (d.counted n data).SameFrames e)
    (hadmit : e.admits n (cellsOf (bits (d.rdN (prt n 4)) 13 0)) = true) (fr : List Byte) (fail untag : Bool) :
    d.Received (e.deliver n fr fail untag) n data fr fail untag := by
  have hcfg : ∀ off, off < 0x100 → e.rdN (prt n off) = d.rdN (prt n off) := fun off hoff => by
    have hmod := prt_mod n (off := off) (by omega)
    rw [hsame.low _ (by omega), Dev.rdN_counted_other _ _ _ (by omega)]
  have hmode : e.portMode n = d.portMode n := by
    rw [Dev.portMode, Dev.prtCfg, hcfg 0 (by omega), ← Dev.prtCfg, ← Dev.portMode]
  have hnext : e.flow.nextPkt = d.flow.nextPkt := by rw [hsame.nextPkt, Dev.counted_flow]
  rw [← hcfg 4 (by omega)] at hadmit
  obtain ⟨hone, hpkt, hregs⟩ := Dev.deliver_admitted hadmit fr fail untag
  rw [hnext] at hone hpkt
  refine ⟨hone, ?stage, ?src, ?entry, ?mode, ?content, ?len, ?cells, ?msFail, ?msUntag, ?frames, ?bytes⟩
  case frames =>
    rw [hregs _ (by omega), hsame.low64 (by rw [prt_mod n (by omega)]; omega), Dev.rd64_counted_frames]
  case bytes =>
    rw [hregs _ (by omega), hsame.low64 (by rw [prt_mod n (by omega)]; omega), Dev.rd64_counted_bytes]
  case mode => rw [hpkt, ← hmode, Dev.arrival]
  case cells => rw [hpkt, ← hcfg 4 (by omega), Dev.arrival]
  all_goals rw [hpkt, Dev.arrival]

theorem Dev.frameReceive_plain {d : Dev} {n : Fin 32} {data : List Byte} (h : d.Accepts n data) (hms : bit (d.rdN (prt n 0x30)) 0 = false)
    (hadmit : d.admits n (cellsOf (bits (d.rdN (prt n 4)) 13 0)) = true) :
    d.Received (d.frameReceive n data) n data data false false := by
  rw [Dev.frameReceive_accepted h, hms]
  exact Dev.received_deliver (.refl _) ((d.admits_counted n data _).trans hadmit) data false false

theorem Dev.frameReceive_macsec {d : Dev} {n : Fin 32} {data fr : List Byte} {fail untag : Bool} (h : d.Accepts n data)
    (hms : bit (d.rdN (prt n 0x30)) 0 = true) (hres : ((d.counted n data).msIngress n data).2 = some (fr, fail, untag))
    (hadmit : ((d.counted n data).msIngress n data).1.admits n (cellsOf (bits (d.rdN (prt n 4)) 13 0)) = true) :
    d.Received (d.frameReceive n data) n data fr fail untag := by
  have hpair : (d.counted n data).msIngress n data = (((d.counted n data).msIngress n data).1, some (fr, fail, untag)) := by rw [← hres]
  have hdeliver : d.frameReceive n data = ((d.counted n data).msIngress n data).1.deliver n fr fail untag := by
    rw [Dev.frameReceive_accepted h, hms, hpair]
    rfl
  rw [hdeliver]
  exact Dev.received_deliver (Dev.sameFrames_msIngress _ _ _) hadmit fr fail untag

/-! ### A packet leaves every queue (R181) -/

/-- No item of the queue is of packet i. -/
def EgQ.Without (x : EgQ) (i : Nat) : Prop := ∀ it ∈ x.items, it.pkt ≠ some i

theorem Dev.dropItem_leaves (d : Dev) (it : EgItem) : (d.dropItem it).regs = d.regs ∧ (d.dropItem it).flow.q = d.flow.q := by
  unfold Dev.dropItem
  split <;> exact ⟨rfl, rfl⟩

theorem Dev.dropItems_leaves (d : Dev) (its : List EgItem) : (d.dropItems its).regs = d.regs ∧ (d.dropItems its).flow.q = d.flow.q := by
  induction its generalizing d with
  | nil => exact ⟨rfl, rfl⟩
  | cons it its ih =>
    obtain ⟨hregs, hq⟩ := d.dropItem_leaves it
    exact ⟨(ih _).1.trans hregs, (ih _).2.trans hq⟩

theorem Dev.unqueue_regs (d : Dev) (i : Nat) (qs : List (Nat × EgQ)) : (d.unqueue i qs).regs = d.regs := by
  induction qs generalizing d with
  | nil => rfl
  | cons kx qs ih =>
    obtain ⟨k, x⟩ := kx
    unfold Dev.unqueue
    dsimp only
    split
    · exact ih d
    · exact (ih _).trans (Dev.dropItems_leaves _ _).1

/-- A queue stands clear of packet i, or as the list that `unqueue` still has to go through says. -/
def Dev.ClearOrListed (d : Dev) (i : Nat) (qs : List (Nat × EgQ)) : Prop :=
  ∀ k, (Tab.get {} d.flow.q k).Without i ∨ (k, Tab.get {} d.flow.q k) ∈ qs

theorem Dev.unqueue_clears {d : Dev} {i : Nat} {qs : List (Nat × EgQ)} (h : d.ClearOrListed i qs) (k : Nat) :
    (Tab.get {} (d.unqueue i qs).flow.q k).Without i := by
  induction qs generalizing d with
  | nil => exact (h k).resolve_right List.not_mem_nil
  | cons jx qs ih =>
    obtain ⟨j, x⟩ := jx
    unfold Dev.unqueue
    dsimp only
    split
    · rename_i hgone
      have hclear : x.Without i := by simpa [EgQ.Without] using hgone
      refine ih (fun m => ?_)
      rcases h m with hm | hm
      · exact .inl hm
      · rcases List.mem_cons.1 hm with heq | hrest
        · obtain ⟨-, hx⟩ := Prod.mk.inj heq
          exact .inl (hx ▸ hclear)
        · exact .inr hrest
    · refine ih (fun m => ?_)
      rw [(Dev.dropItems_leaves _ _).2, Dev.egSet, Nat.div_add_mod]
      dsimp only
      by_cases hmj : m = j
      · subst hmj
        rw [Tab.get_set_same]
        exact .inl (fun it hit => by simpa using (List.mem_filter.1 hit).2)
      · rw [Tab.get_set_other _ _ _ hmj]
        rcases h m with hm | hm
        · exact .inl hm
        · rcases List.mem_cons.1 hm with heq | hrest
          · exact absurd (Prod.mk.inj heq).1 hmj
          · exact .inr hrest

theorem Tab.mem_of_find {α : Type} {t : Tab α} {n : Nat} {v : α} (h : Tab.find t n = some v) : (n, v) ∈ t := by
  induction t with
  | nil => exact absurd h (by simp [Tab.find])
  | cons kw t ih =>
    obtain ⟨k, w⟩ := kw
    unfold Tab.find at h
    split at h
    · rename_i hk
      rw [hk, Option.some.inj h]
      exact List.mem_cons_self
    · exact List.mem_cons_of_mem _ (ih h)

theorem Dev.clearOrListed_all (d : Dev) (i : Nat) : d.ClearOrListed i d.flow.q := by
  intro k
  unfold Tab.get
  cases hfind : Tab.find d.flow.q k with
  | none => exact .inl (fun _ hit => absurd hit List.not_mem_nil)
  | some x => exact .inr (Tab.mem_of_find hfind)

/-! ### The end-of-frame status (R181, R191, R304) -/

theorem Dev.refreshHeads_regs (d : Dev) (i : Nat) (qs : List (Nat × EgQ)) : (d.refreshHeads i qs).regs = d.regs := by
  induction qs generalizing d with
  | nil => rfl
  | cons kx qs ih =>
    obtain ⟨k, x⟩ := kx
    refine (ih _).trans ?_
    (repeat' split) <;> rfl

/-- Packet i takes its status and gives back the cells it does not fill (R181, R237). -/
def Dev.statusSet (d : Dev) (n i : Nat) (good : Bool) : Dev :=
  ((d.refreshHeads i d.flow.q).pktSet i { d.pkt i with eof := some good, cells := min (d.pkt i).cells (cellsOf (d.pkt i).len) }).wrN
    (portBuf n 2) (d.rdN (portBuf n 2) - ((d.pkt i).cells - min (d.pkt i).cells (cellsOf (d.pkt i).len)))

/-- The oldest frame of port n whose status is not known (R181). -/
def Dev.openFrame (d : Dev) (n : Nat) : Option Nat :=
  d.pktFind (fun p => decide (p.entry = n) && !p.synth && decide (p.eof = none))

theorem Dev.frameEnd_good {d : Dev} {n i : Nat} (h : d.openFrame n = some i) : d.frameEnd n true = (d.statusSet n i true).pauseCheck n := by
  unfold Dev.openFrame at h
  simp only [Dev.frameEnd, h]
  rfl

theorem Dev.frameEnd_bad {d : Dev} {n i : Nat} (h : d.openFrame n = some i) :
    d.frameEnd n false = ((((d.statusSet n i false).prtCount n 2 1).stomp i (d.statusSet n i false).flow.ports).unqueue i
      (d.statusSet n i false).flow.q).pauseCheck n := by
  unfold Dev.openFrame at h
  simp only [Dev.frameEnd, h]
  rfl

theorem Dev.frameEnd_good_pkt {d : Dev} {n i : Nat} (h : d.openFrame n = some i) :
    (d.frameEnd n true).pkt i = { d.pkt i with eof := some true, cells := min (d.pkt i).cells (cellsOf (d.pkt i).len) } := by
  rw [Dev.frameEnd_good h, (Dev.sameFrames_pauseCheck _ n).pkt]
  exact Dev.pkt_pktSet_same _ i _

/-- R181: no queue keeps a bad frame. -/
theorem Dev.frameEnd_bad_queues {d : Dev} {n i : Nat} (h : d.openFrame n = some i) (k : Nat) :
    (Tab.get {} (d.frameEnd n false).flow.q k).Without i := by
  have hstomp := Dev.sameFrames_stomp ((d.statusSet n i false).prtCount n 2 1) i (d.statusSet n i false).flow.ports
  have hq := hstomp.q
  rw [Dev.prtCount_flow] at hq
  rw [Dev.frameEnd_bad h, (Dev.sameFrames_pauseCheck _ n).q, ← hq]
  exact Dev.unqueue_clears (Dev.clearOrListed_all _ i) k

/-- R181, R197: a bad frame counts in RX_FCSERR. -/
theorem Dev.frameEnd_bad_counts {d : Dev} {n : Fin 32} {i : Nat} (h : d.openFrame n = some i) :
    (d.frameEnd n false).rd64 (prt n 0x110) = (d.rd64 (prt n 0x110) + 1) % 2 ^ 64 := by
  have hlow : prt n 0x110 % 0x1000 < 0x15C := by rw [prt_mod n (by omega)]; omega
  have hstatus : ∀ off, off < 0x1000 → (d.statusSet n i false).rdN (prt n off) = d.rdN (prt n off) := fun off hoff =>
    (Dev.rdN_wrN_other _ _ (prt_ne_portBuf n hoff n 2)).trans (Dev.rdN_of_regs (Dev.refreshHeads_regs d i _) _)
  have hunqueue : ∀ (e : Dev) (qs : List (Nat × EgQ)) (a : Nat), (e.unqueue i qs).rd64 a = e.rd64 a := fun e qs a =>
    Dev.rd64_of_rdN (Dev.rdN_of_regs (e.unqueue_regs i qs) _) (Dev.rdN_of_regs (e.unqueue_regs i qs) _)
  have hbefore : (d.statusSet n i false).rd64 (prt n 0x110) = d.rd64 (prt n 0x110) :=
    Dev.rd64_of_rdN (hstatus 0x110 (by omega)) (hstatus 0x114 (by omega))
  rw [Dev.frameEnd_bad h, (Dev.sameFrames_pauseCheck _ n).low64 hlow, hunqueue, (Dev.sameFrames_stomp _ i _).low64 hlow, ← hbefore]
  exact Dev.rd64_prtCount_same (d.statusSet n i false) n 2 1

/-- What the end of a frame writes in its packet, and the bytes it leaves there (R181, R237). -/
def Pkt.ends (p : Pkt) : Option Bool × Nat × List Byte := (p.eof, p.cells, p.data)

/-- Every register, every queue, and the status, cells and data of every packet stand as they were. -/
structure Dev.SameEnds (d e : Dev) : Prop where
  regs : e.regs = d.regs
  q : e.flow.q = d.flow.q
  ends : ∀ i, (e.pkt i).ends = (d.pkt i).ends

theorem Dev.SameEnds.refl (d : Dev) : d.SameEnds d := ⟨rfl, rfl, fun _ => rfl⟩

theorem Dev.SameEnds.trans {d e f : Dev} (h : d.SameEnds e) (g : e.SameEnds f) : d.SameEnds f :=
  ⟨g.regs.trans h.regs, g.q.trans h.q, fun i => (g.ends i).trans (h.ends i)⟩

theorem Dev.sameEnds_pktUpd (d : Dev) (j : Nat) {f : Pkt → Pkt} (h : ∀ p, (f p).ends = p.ends) : d.SameEnds (d.pktUpd j f) := by
  refine ⟨rfl, rfl, fun i => ?_⟩
  by_cases hij : i = j
  · rw [hij, Dev.pkt_pktUpd_same, h]
  · rw [Dev.pkt_pktUpd_other _ _ hij]

theorem Dev.sameEnds_noteFileables (d : Dev) (is : List Nat) : d.SameEnds (d.noteFileables is) := by
  induction is generalizing d with
  | nil => exact .refl d
  | cons i is ih => exact (d.sameEnds_pktUpd i (fun p => by split <;> rfl)).trans (ih _)

theorem Dev.sameEnds_verUpd (d : Dev) (v : Nat) (f : Nat → Nat) : d.SameEnds (d.verUpd v f) :=
  ⟨rfl, rfl, fun _ => rfl⟩

theorem Dev.sameEnds_settle (d : Dev) (i : Nat) : d.SameEnds (d.settle i) := by
  unfold Dev.settle Dev.leaveVer
  dsimp only
  split
  · split
    · exact (d.sameEnds_pktUpd i (f := fun p => { p with inVer := false }) (fun _ => rfl)).trans (Dev.sameEnds_verUpd _ _ _)
    · exact .refl d
  · exact .refl d

/-- R304: the Huddle's notes after an end of frame leave what the end of frame wrote. -/
theorem Dev.sameEnds_frameEndAll (d : Dev) (n : Nat) (good : Bool) : (d.frameEnd n good).SameEnds (d.frameEndAll n good) := by
  unfold Dev.frameEndAll
  dsimp only
  have hnoted := Dev.sameEnds_noteFileables (d.frameEnd n good)
    (((d.frameEnd n good).flow.pkts.filter (fun kv => decide (kv.2.entry = n) && kv.2.fileable)).map (fun kv => kv.1))
  split
  · exact hnoted.trans ((Dev.sameEnds_pktUpd _ _ (f := fun p => { p with hudDone := true }) (fun _ => rfl)).trans (Dev.sameEnds_settle _ _))
  · exact hnoted

/-! ### The obligation -/

/-- Settles O24: the two delivered forms are `received_deliver` after the branch that their hypotheses select; a status is written by
`statusSet`, and what follows it leaves the packet, or only takes it out of the queues. That a runt counts in RX_FRAMES as well is log 135. -/
theorem receivedFramesAreCountedAndDelivered : Obligations.ReceivedFramesAreCountedAndDelivered := by
  unfold Obligations.ReceivedFramesAreCountedAndDelivered
  refine ⟨?plain, ?runt, ?good, ?bad, ?macsec⟩
  case plain =>
    intro s n data pad ha hears enabled known whole fits noControl passes hms hadmit
    have h := Dev.frameReceive_plain ⟨hears, enabled, known, whole, fits, noControl, passes⟩ hms hadmit
    exact ⟨_, Machine.exec_frameReceive_alive ha n data pad, h.nextPkt, h.stage, h.src, h.entry, h.mode, h.data, h.len, h.cells, h.frames,
      h.bytes⟩
  case runt =>
    intro s n data pad ha hears enabled known hshort
    refine ⟨_, Machine.exec_frameReceive_alive ha n data pad, ?_⟩
    rw [Dev.frameReceive_runt hears enabled known hshort, Dev.counted]
  case good =>
    intro s n i ha hopen
    have hends := (s.dev.sameEnds_frameEndAll n true).ends i
    rw [Dev.frameEnd_good_pkt hopen] at hends
    obtain ⟨heof, hrest⟩ := Prod.mk.inj hends
    obtain ⟨hcells, hdata⟩ := Prod.mk.inj hrest
    exact ⟨_, Machine.exec_frameEnd_alive ha n true, heof, hcells, hdata⟩
  case bad =>
    intro s n i ha hopen
    have hends := s.dev.sameEnds_frameEndAll n false
    refine ⟨_, Machine.exec_frameEnd_alive ha n false, ?_, fun m _ q _ => ?_⟩
    · exact (Dev.rd64_of_rdN (Dev.rdN_of_regs hends.regs _) (Dev.rdN_of_regs hends.regs _)).trans (Dev.frameEnd_bad_counts hopen)
    · rw [Dev.egAt, hends.q]
      exact List.all_eq_true.2 (fun it hit => decide_eq_true (Dev.frameEnd_bad_queues hopen (8 * m + q) it hit))
  case macsec =>
    intro s n data fr pad fail untag ha hears enabled known whole fits noControl passes hms hres hadmit
    have h := Dev.frameReceive_macsec ⟨hears, enabled, known, whole, fits, noControl, passes⟩ hms hres hadmit
    exact ⟨_, Machine.exec_frameReceive_alive ha n data pad, h.nextPkt, h.stage, h.src, h.entry, h.mode, h.data, h.len, h.cells, h.frames,
      h.bytes, h.msFail, h.msUntag⟩

end Sys2Proof
end

section
/-! Rule versions of chapter 8: what a staged write leaves, the three outcomes of a commit, and the retirement and the sweep of the oldest
version; from these the obligation O29. -/

namespace Sys2Proof

/-! ### Registers and the flow plane stand apart -/

@[simp] theorem Dev.wrN_flow (d : Dev) (k v : Nat) : (d.wrN k v).flow = d.flow := rfl
@[simp] theorem Dev.event_flow (d : Dev) (k b : Nat) : (d.event k b).flow = d.flow := by simp [Dev.flow_eq]
@[simp] theorem Dev.catPut_flow (d : Dev) (r : CatRec) : (d.catPut r).flow = d.flow := by simp [Dev.flow_eq]
@[simp] theorem Dev.accErr_flow (d : Dev) (fn : Option Nat) (off be : Nat) (w : Bool) (cause : Nat) :
    (d.accErr fn off be w cause).flow = d.flow := by simp [Dev.flow_eq]

theorem vsucc_lt (v : Nat) : vsucc v < 65536 := by
  unfold vsucc
  omega

/-! ### Staged writes (R222) -/

/-- The live versions, the FCLK of the last commit and the clock stand as they were. -/
structure Dev.SameVersions (d e : Dev) : Prop where
  vers : e.flow.vers = d.flow.vers
  commitAt : e.flow.commitAt = d.flow.commitAt
  now : e.now = d.now

theorem Dev.SameVersions.refl (d : Dev) : d.SameVersions d := ⟨rfl, rfl, rfl⟩

theorem Dev.SameVersions.trans {d e f : Dev} (h : d.SameVersions e) (g : e.SameVersions f) : d.SameVersions f :=
  ⟨g.vers.trans h.vers, g.commitAt.trans h.commitAt, g.now.trans h.now⟩

theorem Dev.SameVersions.vcur {d e : Dev} (h : d.SameVersions e) : e.vcur = d.vcur := by
  rw [Dev.vcur, h.vers, ← Dev.vcur]

theorem Dev.SameVersions.fclk {d e : Dev} (h : d.SameVersions e) : e.fclk = d.fclk := by
  rw [Dev.fclk, h.now, ← Dev.fclk]

theorem Dev.sameVersions_stageObj (d : Dev) (n cur : Nat) (o : VObj) : d.SameVersions (d.stageObj n cur o) := by
  cases o with
  | undoEns r =>
    unfold Dev.stageObj
    dsimp only
    split <;> exact ⟨rfl, rfl, rfl⟩
  | _ => exact ⟨rfl, rfl, rfl⟩

theorem Dev.sameVersions_stageAll (d : Dev) (n cur : Nat) (os : List VObj) : d.SameVersions (d.stageAll n cur os) := by
  induction os generalizing d with
  | nil => exact .refl d
  | cons o os ih => exact (d.sameVersions_stageObj n cur o).trans (ih _)

theorem Dev.sameVersions_placeEns {d e : Dev} {p n : Nat} {b : List Byte} (h : d.placeEns p n b = some e) : d.SameVersions e := by
  unfold Dev.placeEns at h
  dsimp only at h
  split at h
  · cases h
    exact (d.sameVersions_stageAll n d.vcur _).trans ⟨rfl, rfl, rfl⟩
  · cases h

/-- An image of firmware's own is placed, or is not staged at all. -/
theorem Dev.sameVersions_placed (d : Dev) (p n : Nat) (b : List Byte) : d.SameVersions ((d.placeEns p n b).getD d) := by
  cases h : d.placeEns p n b with
  | none => exact .refl d
  | some e => exact Dev.sameVersions_placeEns h

theorem Dev.sameVersions_stageFw (d : Dev) (n cur : Nat) (os : List VObj) : d.SameVersions (d.stageFw n cur os) := by
  induction os generalizing d with
  | nil => exact .refl d
  | cons o os ih =>
    cases o with
    | ens b =>
      refine Dev.SameVersions.trans ?_ (ih _)
      split
      · exact d.sameVersions_placed 32 n b
      · exact .refl d
    | _ => exact (d.sameVersions_stageObj n cur _).trans (ih _)

/-! ### The commit (R222, R228) -/

/-- What a commit leaves in CLS_VCOMMIT, CLS_VLAST and CLS_EVENT. -/
def Dev.commitNoted (d : Dev) (v last b : Nat) : Dev :=
  ((d.wrN (clsBase + 0x0C) (v % 65536)).wrN (clsBase + 0x10) last).event (clsBase + 0x14) b

@[simp] theorem Dev.commitNoted_flow (d : Dev) (v last b : Nat) : (d.commitNoted v last b).flow = d.flow := by
  simp [Dev.commitNoted]

theorem Dev.commitNoted_vcommit (d : Dev) (v last b : Nat) : (d.commitNoted v last b).rdN (clsBase + 0x0C) = v % 65536 := by
  rw [Dev.commitNoted, Dev.rdN_event_other _ _ (by decide), Dev.rdN_wrN_other _ _ (by decide), Dev.rdN_wrN_same]
  omega

theorem Dev.commitNoted_vlast (d : Dev) (v b : Nat) {last : Nat} (h : last < 2 ^ 32) :
    (d.commitNoted v last b).rdN (clsBase + 0x10) = last := by
  rw [Dev.commitNoted, Dev.rdN_event_other _ _ (by decide), Dev.rdN_wrN_same]
  exact Nat.mod_eq_of_lt h

theorem Dev.commitNoted_event (d : Dev) (v last : Nat) {b : Nat} (hb : b < 32) :
    wbit ((d.commitNoted v last b).rd (clsBase + 0x14)) b = true :=
  Dev.event_set _ _ _ hb

/-- Version v is appended to the live ones, in this FCLK. -/
def Dev.verAppended (d : Dev) (v : Nat) : Dev :=
  { d with flow := { d.flow with vers := d.flow.vers ++ [{ v := v }], commitAt := some d.fclk } }

theorem Dev.vcur_append {d : Dev} {vs : List VerSlot} {x : VerSlot} (h : d.flow.vers = vs ++ [x]) : d.vcur = x.v := by
  simp [Dev.vcur, h]

/-- R222, R228: the three outcomes of a commit. -/
theorem Dev.commit_eq (d : Dev) (v : Nat) : (d.commit v).1 =
    if v ≠ vsucc d.vcur ∨ d.flow.commitAt = some d.fclk then d.commitNoted v (2 ^ 16 + v % 65536) 2
    else if 4 ≤ d.flow.vers.length then d.commitNoted v (2 ^ 17 + v % 65536) 2
    else (d.verAppended v).commitNoted v v 0 := by
  refine (apply_ite Prod.fst _ _ _).trans (if_congr Iff.rfl rfl ?_)
  exact apply_ite Prod.fst _ _ _

theorem Dev.commit_accepted {d : Dev} {v : Nat} (hnext : v = vsucc d.vcur) (hfirst : d.flow.commitAt ≠ some d.fclk)
    (hroom : d.flow.vers.length < 4) : (d.commit v).1 = (d.verAppended v).commitNoted v v 0 := by
  rw [Dev.commit_eq, if_neg (fun h => h.elim (fun hne => hne hnext) hfirst), if_neg (Nat.not_le.2 hroom)]

theorem Dev.commit_invalid {d : Dev} {v : Nat} (h : v ≠ vsucc d.vcur ∨ d.flow.commitAt = some d.fclk) :
    (d.commit v).1 = d.commitNoted v (2 ^ 16 + v % 65536) 2 := by
  rw [Dev.commit_eq, if_pos h]

theorem Dev.commit_full {d : Dev} {v : Nat} (hnext : v = vsucc d.vcur) (hfirst : d.flow.commitAt ≠ some d.fclk)
    (hfull : 4 ≤ d.flow.vers.length) : (d.commit v).1 = d.commitNoted v (2 ^ 17 + v % 65536) 2 := by
  rw [Dev.commit_eq, if_neg (fun h => h.elim (fun hne => hne hnext) hfirst), if_pos hfull]

theorem Machine.exec_versionCommit_fw {s : Machine.State} {c : Fin 12} (ha : s.dev.alive = true)
    (hm : s.dev.mayWrite (.fw c) (clsBase + 0x0C) = true) (v : Nat) (objs : List VObj) :
    Machine.exec (.versionCommit (.fw c) v objs) s =
      .next { s with dev := ((s.dev.stageFw (vsucc s.dev.vcur) s.dev.vcur objs).commit v).1 } :=
  Machine.live_writeDo ha hm (fun d => d.versionCommit (.fw c) v objs)

/-! ### Retirement and sweep (R223, R224) -/

theorem Dev.retire_oldest {d : Dev} {a : Nat} {b : VerSlot} {rest : List VerSlot} (h : d.flow.vers = { v := a } :: b :: rest) :
    d.retire = ({ d with flow := { d.flow with vers := { v := a, live := false } :: b :: rest } } : Dev).event (clsBase + 0x14) 1 := by
  unfold Dev.retire
  rw [h]
  rfl

/-- Of the flow plane the sweep of the ensembles' records changes those records only. -/
theorem Dev.sweepRecs_flow (d : Dev) (v : Nat) (rs : List (Nat × EnsRec)) :
    ∃ recs, (d.sweepRecs v rs).flow = { d.flow with recs := recs } := by
  induction rs generalizing d with
  | nil => exact ⟨d.flow.recs, rfl⟩
  | cons kr rs ih =>
    obtain ⟨k, r⟩ := kr
    rw [Dev.sweepRecs]
    dsimp only
    split
    · obtain ⟨recs, hrecs⟩ := ih (Dev.treeEvent _ _ _ _ _ _)
      exact ⟨recs, by rw [hrecs, Dev.treeEvent, Dev.catPut_flow]⟩
    · obtain ⟨recs, hrecs⟩ := ih { d with flow := { d.flow with recs := Tab.set {} d.flow.recs k { r with ctl := sweepCtl v r.ctl } } }
      exact ⟨recs, by rw [hrecs]⟩

theorem Dev.sweep_start {d : Dev} {x : VerSlot} {rest : List VerSlot} (hvers : d.flow.vers = x :: rest) (hlive : x.live = false)
    (hidle : d.flow.sweeping = false) : ∃ recs, d.sweep.flow = { d.flow with
      am := Tab.mapAll ({} : AmEnt) d.flow.am (fun _ e => { e with ctl := sweepCtl x.v e.ctl })
      ch := Tab.mapAll ({} : ChEnt) d.flow.ch (fun _ e => { e with ctl := sweepCtl x.v e.ctl })
      tpl := Tab.mapAll ([] : List Byte) d.flow.tpl (fun _ b => tplSetCtl b (sweepCtl x.v (tplCtl b)))
      sweeping := true, recs := recs } := by
  have hgo : ¬((x.live || d.flow.sweeping) = true) := by simp [hlive, hidle]
  simp only [Dev.sweep, hvers, if_neg hgo]
  exact Dev.sweepRecs_flow _ _ _

/-! ### A template that a Shortstop core builds (R303) -/

/-- The record is a stream template of a bound stream, inside the ranges of the partition of its group (log 65). -/
structure Dev.MayBuild (d : Dev) (core n : Nat) (recd : List Byte) (g k : Nat) : Prop where
  held : Tab.get [] d.flow.puntQ core ≠ []
  typ : fld recd 8 1 = 2
  stream : streamOk recd = true
  bound : d.bindingOf (fld recd 12 1) (fld recd 14 2) = some g
  known : d.groupRec g = some k
  group : fld recd 10 1 = g
  owner : ctlOwner (tplCtl recd) = gPtn (Tab.get [] d.flow.tpl k)
  first : (d.ent (gPtn (Tab.get [] d.flow.tpl k))).tplfirst ≤ n
  last : n < (d.ent (gPtn (Tab.get [] d.flow.tpl k))).tplfirst + (d.ent (gPtn (Tab.get [] d.flow.tpl k))).tplcount
  targets : targetsOk (Tab.get [] d.flow.tpl k) recd = true

theorem Dev.templateBuild_commits {d : Dev} {core n : Nat} {recd : List Byte} {g k : Nat} (h : d.MayBuild core n recd g k) :
    d.templateBuild core n recd = ((d.stageAll (vsucc d.vcur) d.vcur [VObj.endTpl n, VObj.tpl n recd]).commit (vsucc d.vcur)).1 := by
  have hgo : ¬(Tab.get [] d.flow.puntQ core = [] ∨ fld recd 8 1 ≠ 2 ∨ streamOk recd = false) := by simp [h.held, h.typ, h.stream]
  simp only [Dev.templateBuild, if_neg hgo, h.bound, h.known]
  exact if_pos ⟨h.group, h.owner, h.first, h.last, h.targets⟩

theorem Machine.exec_templateBuild_fw {s : Machine.State} (ha : s.dev.alive = true) (hready : s.dev.fwReady = true) (hheld : s.dev.helds = false)
    (core : Fin 8) (n : Fin 4096) (recd : List Byte) :
    Machine.exec (.templateBuild core n recd) s = .next { s with dev := s.dev.templateBuild core n recd } :=
  Machine.live_fwDo ha hready hheld (fun d => d.templateBuild core n recd)

/-! ### The obligation -/

/-- Settles O29: the writes staged for a commit leave the versions, so each commit clause is one outcome of `Dev.commit` on the staged
device; retirement, sweep and sweep end are the branches that their hypotheses select. -/
theorem ruleVersionsCommitRetireAndSweep : Obligations.RuleVersionsCommitRetireAndSweep := by
  unfold Obligations.RuleVersionsCommitRetireAndSweep
  refine ⟨?accepted, ?invalid, ?full, ?host, ?retired, ?swept, ?freed, ?built⟩
  case accepted =>
    intro s c v objs ha hm hnext hfirst hroom
    have hstaged := s.dev.sameVersions_stageFw (vsucc s.dev.vcur) s.dev.vcur objs
    have hlt := vsucc_lt s.dev.vcur
    refine ⟨_, Machine.exec_versionCommit_fw ha hm v objs, ?_⟩
    dsimp only
    rw [Dev.commit_accepted (by rwa [hstaged.vcur]) (by rwa [hstaged.commitAt, hstaged.fclk]) (by rwa [hstaged.vers])]
    refine ⟨?_, ?_, ?_, (Dev.commitNoted_vcommit _ _ _ _).trans (by omega), Dev.commitNoted_vlast _ _ _ (by omega),
      Dev.commitNoted_event _ _ _ (by decide)⟩
    · rw [Dev.commitNoted_flow, Dev.verAppended, hstaged.vers]
    · exact Dev.vcur_append (x := { v := v }) (by rw [Dev.commitNoted_flow]; rfl)
    · rw [Dev.commitNoted_flow, Dev.verAppended, hstaged.fclk]
  case invalid =>
    intro s c v objs ha hm hinvalid
    have hstaged := s.dev.sameVersions_stageFw (vsucc s.dev.vcur) s.dev.vcur objs
    refine ⟨_, Machine.exec_versionCommit_fw ha hm v objs, ?_⟩
    dsimp only
    rw [Dev.commit_invalid (by rwa [hstaged.vcur, hstaged.commitAt, hstaged.fclk])]
    refine ⟨?_, ?_, Dev.commitNoted_vcommit _ _ _ _, Dev.commitNoted_vlast _ _ _ (by omega), Dev.commitNoted_event _ _ _ (by decide)⟩
    · rw [Dev.commitNoted_flow, hstaged.vers]
    · rw [Dev.vcur, Dev.commitNoted_flow, ← Dev.vcur, hstaged.vcur]
  case full =>
    intro s c v objs ha hm hnext hfirst hfull
    have hstaged := s.dev.sameVersions_stageFw (vsucc s.dev.vcur) s.dev.vcur objs
    have hlt := vsucc_lt s.dev.vcur
    refine ⟨_, Machine.exec_versionCommit_fw ha hm v objs, ?_⟩
    dsimp only
    rw [Dev.commit_full (by rwa [hstaged.vcur]) (by rwa [hstaged.commitAt, hstaged.fclk]) (by rwa [hstaged.vers])]
    refine ⟨?_, (Dev.commitNoted_vlast _ _ _ (by omega)).trans (by omega), Dev.commitNoted_event _ _ _ (by decide)⟩
    rw [Dev.commitNoted_flow, hstaged.vers]
  case host =>
    intro s v objs ha ho
    exact ⟨_, Machine.live_writeDo_host ha ho rfl _ (fun d => d.versionCommit .pf v objs), rfl, by rw [Dev.versionCommit, Dev.accErr_flow]⟩
  case retired =>
    intro s a b rest ha hvers
    refine ⟨_, Machine.live_next ha (fun d => d.retire), ?_⟩
    dsimp only
    rw [Dev.retire_oldest hvers]
    exact ⟨by rw [Dev.event_flow], Dev.event_set _ _ _ (by decide)⟩
  case swept =>
    intro s x rest ha hvers hlive hidle
    obtain ⟨recs, hflow⟩ := Dev.sweep_start hvers hlive hidle
    refine ⟨_, Machine.live_next ha (fun d => d.sweep), ?_⟩
    dsimp only
    rw [hflow]
    exact ⟨rfl, rfl, rfl, rfl, rfl⟩
  case freed =>
    intro s ha hsweeping
    refine ⟨_, Machine.live_next ha (fun d => d.sweepEnd), ?_⟩
    dsimp only
    rw [Dev.sweepEnd, if_pos hsweeping]
    exact ⟨rfl, rfl, rfl, rfl, rfl, rfl⟩
  case built =>
    intro s core n recd g k ha hready hheld hq htyp hstream hbound hknown hgroup howner hlo hhi htargets hfirst hroom
    have hstaged := s.dev.sameVersions_stageAll (vsucc s.dev.vcur) s.dev.vcur [VObj.endTpl n, VObj.tpl n recd]
    refine ⟨_, Machine.exec_templateBuild_fw ha hready hheld core n recd, ?_⟩
    dsimp only
    rw [Dev.templateBuild_commits ⟨hq, htyp, hstream, hbound, hknown, hgroup, howner, hlo, hhi, htargets⟩,
      Dev.commit_accepted (by rw [hstaged.vcur]) (by rwa [hstaged.commitAt, hstaged.fclk]) (by rwa [hstaged.vers])]
    exact ⟨Dev.vcur_append (x := { v := vsucc s.dev.vcur }) (by rw [Dev.commitNoted_flow]; rfl), by rw [Dev.commitNoted_flow]; rfl⟩

end Sys2Proof
end

section
/-! Reinjection and release of punted frames: what a Shortstop core's acts make of its queue, of the packet and of the counters, and from
these the obligation O28. -/

namespace Sys2Proof

/-! ### The commands are their operations -/

theorem Machine.exec_reinject_fw {s : Machine.State} (ha : s.dev.alive = true) (hready : s.dev.fwReady = true) (hheld : s.dev.helds = false)
    (core : Fin 8) (port : Fin 32) (k : Reinj) :
    Machine.exec (.reinject core port k) s = .next { s with dev := s.dev.reinject core port k } :=
  Machine.live_fwDo ha hready hheld (fun d => d.reinject core port k)

theorem Machine.exec_puntRelease_fw {s : Machine.State} (ha : s.dev.alive = true) (hready : s.dev.fwReady = true) (hheld : s.dev.helds = false)
    (core : Fin 8) (k : Nat) : Machine.exec (.puntRelease core k) s = .next { s with dev := s.dev.puntDone core k } :=
  Machine.live_fwDo ha hready hheld (fun d => d.puntDone core k)

/-! ### Counters of the parser and the punt queues (R9, R207) -/

@[simp] theorem Dev.parCount_flow (d : Dev) (k : Nat) : (d.parCount k).flow = d.flow := rfl

theorem Dev.rd64_parCount_same (d : Dev) (k : Nat) :
    (d.parCount k).rd64 (parBase + 0x100 + 8 * k) = (d.rd64 (parBase + 0x100 + 8 * k) + 1) % 2 ^ 64 :=
  Dev.rd64_count64_same d _ 1

theorem Dev.pkt_of_flow {d e : Dev} (h : e.flow = d.flow) (i : Nat) : e.pkt i = d.pkt i := by
  rw [Dev.pkt, h, ← Dev.pkt]

/-- Entry k leaves the queue of a Shortstop core. -/
def Dev.puntTaken (d : Dev) (core k : Nat) : Dev :=
  { d with flow := { d.flow with puntQ := Tab.set [] d.flow.puntQ core ((Tab.get [] d.flow.puntQ core).eraseIdx k) } }

theorem Dev.puntTaken_queue (d : Dev) (core k : Nat) :
    Tab.get [] (d.puntTaken core k).flow.puntQ core = (Tab.get [] d.flow.puntQ core).eraseIdx k :=
  Tab.get_set_same _ _ _ _

/-! ### Reinjection (R208, R237, R281) -/

/-- A held original as it waits again: a new arrival of source 32 under the port named (R208, log 129). -/
def Dev.reinjected (d : Dev) (port : Nat) (p : Pkt) : Pkt :=
  { p with src := 32, port := port, mode := if port = p.port then p.mode else d.portMode port, reinj := true, stage := .rx,
           par := [], punt3 := none, hudDone := false, defaulted := false, flow := none, dn := none, entity := none,
           marked := false, released := false, tagged := false, fileAt := none }

theorem Dev.reinject_orig {d : Dev} {core k i : Nat} {x : PuntEnt} (hx : (Tab.get [] d.flow.puntQ core)[k]? = some x) (hi : x.pkt = some i)
    (port : Nat) : d.reinject core port (.orig k) = ((d.puntTaken core k).pktSet i (d.reinjected port (d.pkt i))).parCount 4 := by
  simp only [Dev.reinject, hx, Option.bind_some, hi]
  rfl

/-- The device in which a built frame is the next packet, its cells taken from the system pool (R237). -/
def Dev.synthAdded (d : Dev) (p : Pkt) : Dev :=
  { d with flow := { d.flow with pkts := Tab.put d.flow.pkts d.flow.nextPkt p, nextPkt := d.flow.nextPkt + 1,
                                 sysUsed := d.flow.sysUsed + p.cells } }

theorem Dev.synthAdded_pkt (d : Dev) (p : Pkt) : (d.synthAdded p).pkt d.flow.nextPkt = p := by
  simp [Dev.synthAdded, Dev.pkt, Tab.get, Tab.find_put_same]

/-- A frame that a Shortstop core built, its stamp marked SUPPLIED (R281). -/
def Dev.synthPkt (d : Dev) (port : Nat) (data : List Byte) (st : TStamp) : Pkt :=
  { src := 32, port := port, mode := d.portMode port, data := data, len := data.length + 4,
    stamp := { st with flags := setBit st.flags 0 }, cells := cellsOf (data.length + 4), reinj := true, synth := true, eof := some true }

theorem Dev.reinject_synth {d : Dev} {data : List Byte} (hroom : d.flow.sysUsed + cellsOf (data.length + 4) ≤ d.rdN (gntBase + 8))
    (core port : Nat) (st : TStamp) :
    d.reinject core port (.synth data st) = (d.synthAdded (d.synthPkt port data st)).parCount 5 :=
  if_neg (Nat.not_lt.2 hroom)

theorem Dev.reinject_synth_full {d : Dev} {data : List Byte} (hfull : d.rdN (gntBase + 8) < d.flow.sysUsed + cellsOf (data.length + 4))
    (core port : Nat) (st : TStamp) :
    d.reinject core port (.synth data st) = { d with flow := { d.flow with synthDrop := d.flow.synthDrop + 1 } } :=
  if_pos hfull

/-! ### Release (R207) -/

@[simp] theorem Dev.onLane_flow (d : Dev) (o : Out) : (d.onLane o).flow = d.flow := by
  unfold Dev.onLane
  split <;> rfl

theorem Dev.sendPause_puntQ (d : Dev) (n i quanta : Nat) : (d.sendPause n i quanta).flow.puntQ = d.flow.puntQ := by
  unfold Dev.sendPause
  split
  · rfl
  · rw [Dev.pauseEmit, Dev.onLane_flow, Dev.prtCount_flow]

/-- A step that may be taken. -/
theorem Dev.puntQ_perhaps {d e f : Dev} (h : e.flow.puntQ = d.flow.puntQ) (g : f.flow.puntQ = e.flow.puntQ) (c : Prop) [Decidable c] :
    (if c then f else e).flow.puntQ = d.flow.puntQ := by
  split
  · exact g.trans h
  · exact h

theorem Dev.pauseCheck1_puntQ (d : Dev) (n i : Nat) : (d.pauseCheck1 n i).flow.puntQ = d.flow.puntQ := by
  have halarm : ∀ (e : Dev), (e.alarmSet 2 n false 0 false).flow.puntQ = e.flow.puntQ := fun e => by simp [Dev.flow_eq]
  unfold Dev.pauseCheck1
  exact Dev.puntQ_perhaps (Dev.puntQ_perhaps (Dev.puntQ_perhaps rfl (Dev.sendPause_puntQ _ _ _ _) _) (Dev.sendPause_puntQ _ _ _ _) _)
    (halarm _) _

theorem Dev.pauseCheck_puntQ (d : Dev) (n : Nat) : (d.pauseCheck n).flow.puntQ = d.flow.puntQ := by
  unfold Dev.pauseCheck
  induction d.fcIndexes n generalizing d with
  | nil => rfl
  | cons i is ih => exact (ih _).trans (d.pauseCheck1_puntQ n i)

theorem Dev.freePkt_puntQ (d : Dev) (i : Nat) : (d.freePkt i).flow.puntQ = d.flow.puntQ := by
  unfold Dev.freePkt
  dsimp only
  split
  · rw [Dev.pauseCheck_puntQ]
    rfl
  · rfl

theorem Dev.freePkt_gone (d : Dev) (i : Nat) : Tab.find (d.freePkt i).flow.pkts i = none := by
  unfold Dev.freePkt
  dsimp only
  split
  · rw [(Dev.sameFrames_pauseCheck _ _).pkts]
    exact Tab.find_del_same _ _
  · exact Tab.find_del_same _ _

theorem Dev.puntRelease_queue {d : Dev} {core k : Nat} {x : PuntEnt} (hx : (Tab.get [] d.flow.puntQ core)[k]? = some x) :
    Tab.get [] (d.puntRelease core k).flow.puntQ core = (Tab.get [] d.flow.puntQ core).eraseIdx k := by
  simp only [Dev.puntRelease, hx]
  cases x.pkt with
  | none => exact d.puntTaken_queue core k
  | some i =>
    rw [Dev.freePkt_puntQ]
    exact d.puntTaken_queue core k

theorem Dev.puntRelease_frees {d : Dev} {core k : Nat} {x : PuntEnt} (hx : (Tab.get [] d.flow.puntQ core)[k]? = some x) :
    x.pkt.all (fun i => (Tab.find (d.puntRelease core k).flow.pkts i).isNone) = true := by
  simp only [Dev.puntRelease, hx]
  cases x.pkt with
  | none => rfl
  | some i => simp [Dev.freePkt_gone]

/-- R286: hearing an Announce is the time unit's alone. -/
theorem Dev.ptpHear_flow (d : Dev) (p : Nat) (m : List Byte) : (d.ptpHear p m).flow = d.flow := by
  unfold Dev.ptpHear
  dsimp only
  split <;> rfl

theorem Dev.puntDone_flow (d : Dev) (core k : Nat) : (d.puntDone core k).flow = (d.puntRelease core k).flow := by
  unfold Dev.puntDone
  cases hx : (Tab.get [] d.flow.puntQ core)[k]? with
  | none => simp [Dev.puntRelease, hx]
  | some x =>
    dsimp only
    (repeat' split) <;> simp only [Dev.ptpHear_flow]

/-! ### The obligation -/

/-- Settles O28: a reinjection takes its entry out of the queue and sets one packet, whose cells and port of entry stay as they were under
the port named (log 129); a release takes its entry out and deletes the packet, whatever the servo hears of it. -/
theorem puntsAreReinjectedAndReleased : Obligations.PuntsAreReinjectedAndReleased := by
  unfold Obligations.PuntsAreReinjectedAndReleased
  refine ⟨?original, ?built, ?released, ?full⟩
  case original =>
    intro s core port k x i ha hready hheld hx hi
    refine ⟨_, Machine.exec_reinject_fw ha hready hheld core port (.orig k), ?_⟩
    dsimp only
    have hpkt : (s.dev.reinject core port (.orig k)).pkt i = s.dev.reinjected port (s.dev.pkt i) := by
      rw [Dev.reinject_orig hx hi, Dev.pkt_of_flow (Dev.parCount_flow _ 4), Dev.pkt_pktSet_same]
    rw [hpkt, Dev.reinject_orig hx hi]
    exact ⟨rfl, rfl, rfl, rfl, rfl, rfl, rfl, rfl, s.dev.puntTaken_queue core k, Dev.rd64_parCount_same _ 4⟩
  case built =>
    intro s core port data st ha hready hheld hroom
    refine ⟨_, Machine.exec_reinject_fw ha hready hheld core port (.synth data st), ?_⟩
    dsimp only
    rw [Dev.reinject_synth hroom, Dev.pkt_of_flow (Dev.parCount_flow _ 5)]
    exact ⟨rfl, Dev.synthAdded_pkt _ _, rfl⟩
  case released =>
    intro s core k x ha hready hheld hx
    refine ⟨_, Machine.exec_puntRelease_fw ha hready hheld core k, ?_⟩
    dsimp only
    rw [Dev.puntDone_flow]
    exact ⟨Dev.puntRelease_queue hx, Dev.puntRelease_frees hx⟩
  case full =>
    intro s core port data st ha hready hheld hfull
    exact ⟨_, Machine.exec_reinject_fw ha hready hheld core port (.synth data st), by rw [Dev.reinject_synth_full hfull]⟩

end Sys2Proof
end

section
/-! Steps 2 to 5 of chapter 8: which packets a dispatch FCLK takes and what it writes, the delivery of a parse result with its punt, and the
classification by a hit or by the port's default for a failure; from these the obligation O27. -/

namespace Sys2Proof

/-! ### The commands are their operations -/

theorem Machine.exec_dispatchTake_alive {s : Machine.State} (ha : s.dev.alive = true) :
    Machine.exec .dispatchTake s = .next { s with dev := s.dev.dispatchTake } :=
  Machine.live_next ha (fun d => d.dispatchTake)

theorem Machine.exec_parseResult_alive {s : Machine.State} (ha : s.dev.alive = true) (pipe : Fin 4) :
    Machine.exec (.parseResult pipe) s = .next { s with dev := s.dev.parseResult pipe } :=
  Machine.live_next ha (fun d => d.parseResult pipe)

theorem Machine.exec_classify_alive {s : Machine.State} (ha : s.dev.alive = true) :
    Machine.exec .classify s = .next { s with dev := s.dev.classify } :=
  Machine.live_next ha (fun d => d.classify)

/-! ### Registers and counters -/

theorem Dev.rd_count64_other (d : Dev) {k m : Nat} (x : Nat) (hlo : m ≠ k) (hhi : m ≠ k + 4) : (d.count64 k x).rd m = d.rd m := by
  unfold Dev.count64 Dev.wr64
  rw [Dev.rd_wrN_other _ _ hhi, Dev.rd_wrN_other _ _ hlo]

/-- Counter k of the parser lies at its own place. -/
theorem Dev.rd_parCount_other (d : Dev) {k m : Nat} (h : m < parBase + 0x100 + 8 * k ∨ parBase + 0x100 + 8 * k + 8 ≤ m) :
    (d.parCount k).rd m = d.rd m :=
  d.rd_count64_other 1 (by omega) (by omega)

theorem Dev.rd64_of_rd {d e : Dev} {k : Nat} (hlo : e.rd k = d.rd k) (hhi : e.rd (k + 4) = d.rd (k + 4)) : e.rd64 k = d.rd64 k :=
  Dev.rd64_of_rdN (congrArg BitVec.toNat hlo) (congrArg BitVec.toNat hhi)

/-! ### One take (R198) -/

/-- Packet i as take `takes` leaves it in its pipe, with the sequence number of its port. -/
def Dev.taken (d : Dev) (i : Nat) : Pkt :=
  let p := d.pkt i
  let r := parseFrame (d.parCfgOf p.port p.mode) p.data
  { p with order := d.flow.takes, seq := (d.portAt p.port).nextSeq, stage := .taken (d.flow.takes % 4),
           par := r.words p.mode p.port p.len p.msUntag p.msFail p.synth p.reinj, punt3 := r.reason, conf := d.parSnap }

theorem Dev.take1_pkt (d : Dev) (s i : Nat) : (d.take1 s i).pkt i = d.taken i := by
  unfold Dev.take1
  dsimp only
  split
  · exact (Dev.pkt_portSet _ _ _ i).trans (Dev.pkt_pktSet_same _ i _)
  · exact Dev.pkt_pktSet_same _ i _

theorem Dev.take1_takes (d : Dev) (s i : Nat) : (d.take1 s i).flow.takes = d.flow.takes + 1 := by
  unfold Dev.take1
  dsimp only
  split <;> rfl

theorem Dev.take1_dptr (d : Dev) (s i : Nat) : (d.take1 s i).flow.dptr = (s + 1) % 33 := by
  unfold Dev.take1
  dsimp only
  split <;> rfl

/-- A take writes one register, the counter of its pipe. -/
theorem Dev.take1_regs (d : Dev) (s i : Nat) : (d.take1 s i).regs = (d.parCount (d.flow.takes % 4)).regs := by
  unfold Dev.take1
  dsimp only
  split <;> rfl

theorem Dev.take1_rd (d : Dev) (s i : Nat) {a : Nat} (h : a < parBase + 0x100 ∨ parBase + 0x120 ≤ a) : (d.take1 s i).rd a = d.rd a := by
  have hpipe := Nat.mod_lt d.flow.takes (show 4 > 0 by decide)
  rw [Dev.rd_of_regs (d.take1_regs s i)]
  exact d.rd_parCount_other (by unfold parBase at *; omega)

/-! ### Which packet a source offers (R198, R225) -/

theorem Dev.pktFind_some {d : Dev} {f : Pkt → Bool} {i : Nat} (h : d.pktFind f = some i) : ∃ p, (i, p) ∈ d.flow.pkts ∧ f p = true := by
  obtain ⟨⟨j, p⟩, hfind, rfl⟩ := Option.map_eq_some_iff.1 h
  exact ⟨p, List.mem_of_find?_eq_some hfind, by simpa using List.find?_some hfind⟩

/-- A source offers only a packet of its own that waits. -/
theorem Dev.eligible_waits {d : Dev} {k i : Nat} (h : d.eligible k = some i) :
    ∃ p, (i, p) ∈ d.flow.pkts ∧ p.src = k ∧ p.stage = .rx := by
  unfold Dev.eligible at h
  split at h
  · rename_i hk
    obtain ⟨p, hmem, hp⟩ := Dev.pktFind_some h
    simp only [Bool.and_eq_true, decide_eq_true_eq] at hp
    exact ⟨p, hmem, hp.1.1.trans hk.symm, hp.1.2⟩
  · split at h
    · rename_i hfind
      obtain ⟨p, hmem, hp⟩ := Dev.pktFind_some hfind
      simp only [Bool.and_eq_true, decide_eq_true_eq] at hp
      split at h
      · cases h
        exact ⟨p, hmem, hp⟩
      · cases h
    · cases h

theorem Dev.eligible_none_of_all {d : Dev} (h : d.flow.pkts.all (fun kv => decide (kv.2.stage ≠ .rx)) = true) (k : Nat) :
    d.eligible k = none := by
  refine Option.eq_none_iff_forall_ne_some.2 (fun i hi => ?_)
  obtain ⟨p, hmem, -, hstage⟩ := Dev.eligible_waits hi
  exact of_decide_eq_true (List.all_eq_true.1 h _ hmem) hstage

/-- Where one packet alone waits, no other source than its own offers one. -/
theorem Dev.eligible_none_of_only {d : Dev} {i : Nat} {p : Pkt}
    (honly : d.flow.pkts.filter (fun kv => decide (kv.2.stage = .rx)) = [(i, p)]) {k : Nat} (hk : k ≠ p.src) : d.eligible k = none := by
  refine Option.eq_none_iff_forall_ne_some.2 (fun j hj => ?_)
  obtain ⟨q, hmem, hsrc, hstage⟩ := Dev.eligible_waits hj
  have hin : (j, q) ∈ d.flow.pkts.filter (fun kv => decide (kv.2.stage = .rx)) := List.mem_filter.2 ⟨hmem, decide_eq_true hstage⟩
  rw [honly, List.mem_singleton] at hin
  cases hin
  exact hk hsrc.symm

/-- What a source offers depends on the flow plane and on the ports' MACsec registers. -/
theorem Dev.eligible_congr {d e : Dev} (hflow : e.flow = d.flow) (hmacsec : ∀ n, e.rdN (prt n 0x30) = d.rdN (prt n 0x30)) (k : Nat) :
    e.eligible k = d.eligible k := by
  have hfind : ∀ f, e.pktFind f = d.pktFind f := fun f => by rw [Dev.pktFind, hflow, ← Dev.pktFind]
  have hfull : ∀ n, e.windowFull n = d.windowFull n := fun n => by rw [Dev.windowFull, Dev.portAt, hflow, ← Dev.portAt, ← Dev.windowFull]
  have harrived : ∀ p, e.arrived p = d.arrived p := fun p => by rw [Dev.arrived, hmacsec, ← Dev.arrived]
  simp only [Dev.eligible, hfind, hfull, harrived, Dev.pkt_of_flow hflow]

/-! ### One FCLK of the dispatcher (R198, R225) -/

theorem Dev.dispatchFrom_none {d : Dev} {ks : List Nat} (h : ∀ k ∈ ks, d.eligible k = none) (n : Nat) : d.dispatchFrom n ks = d := by
  induction ks with
  | nil => rfl
  | cons k ks ih =>
    rw [Dev.dispatchFrom, h k List.mem_cons_self, ih (fun j hj => h j (List.mem_cons_of_mem k hj)), ite_self]

/-- One source offers a packet, no other does, and after its take none does. -/
theorem Dev.dispatchFrom_one {d : Dev} {s i : Nat} {ks : List Nat} (hs : s ∈ ks) (hoffer : d.eligible s = some i)
    (hothers : ∀ k, k ≠ s → d.eligible k = none) (hafter : ∀ k, (d.take1 s i).eligible k = none) (n : Nat) :
    d.dispatchFrom (n + 1) ks = d.take1 s i := by
  induction ks with
  | nil => cases hs
  | cons k ks ih =>
    rw [Dev.dispatchFrom, if_neg n.succ_ne_zero]
    by_cases hk : k = s
    · rw [hk, hoffer]
      exact Dev.dispatchFrom_none (fun j _ => hafter j) n
    · rw [hothers k hk]
      exact ih ((List.mem_cons.1 hs).resolve_left (Ne.symm hk))

theorem Dev.dispatchFrom_takes (d : Dev) (n : Nat) (ks : List Nat) :
    d.flow.takes ≤ (d.dispatchFrom n ks).flow.takes ∧ (d.dispatchFrom n ks).flow.takes ≤ d.flow.takes + n := by
  induction ks generalizing d n with
  | nil => exact ⟨Nat.le_refl _, Nat.le_add_right _ _⟩
  | cons k ks ih =>
    rw [Dev.dispatchFrom]
    split
    · exact ⟨Nat.le_refl _, Nat.le_add_right _ _⟩
    · split
      · exact ih d n
      · have hrest := ih (d.take1 k ‹_›) (n - 1)
        rw [Dev.take1_takes] at hrest
        omega

theorem Dev.dispatchFrom_rd (d : Dev) (n : Nat) (ks : List Nat) {a : Nat} (h : a < parBase + 0x100 ∨ parBase + 0x120 ≤ a) :
    (d.dispatchFrom n ks).rd a = d.rd a := by
  induction ks generalizing d n with
  | nil => rfl
  | cons k ks ih =>
    rw [Dev.dispatchFrom]
    split
    · rfl
    · split
      · exact ih d n
      · exact (ih _ _).trans (d.take1_rd _ _ h)

/-- The device in which an FCLK with a held port has been counted (R225). -/
def Dev.holdNoted (d : Dev) : Dev := if d.anyHeld then (d.parCount 7).event (parBase + 0x14) 1 else d

/-- The sources in the order of one FCLK. -/
def Dev.sourceOrder (d : Dev) : List Nat := (upTo 33).map (fun i => (d.flow.dptr + i) % 33)

theorem Dev.dispatchTake_eq (d : Dev) : d.dispatchTake = d.holdNoted.dispatchFrom 4 d.sourceOrder := rfl

theorem Dev.mem_sourceOrder (d : Dev) {s : Nat} : s ∈ d.sourceOrder ↔ s < 33 := by
  simp only [Dev.sourceOrder, upTo, List.mem_map, List.mem_range]
  constructor
  · rintro ⟨i, -, rfl⟩
    exact Nat.mod_lt _ (by decide)
  · intro hs
    exact ⟨(s + 33 - d.flow.dptr % 33) % 33, Nat.mod_lt _ (by decide), by omega⟩

theorem Dev.holdNoted_flow (d : Dev) : d.holdNoted.flow = d.flow := by
  unfold Dev.holdNoted
  split
  · simp
  · rfl

theorem Dev.holdNoted_macsec (d : Dev) (n : Nat) : d.holdNoted.rdN (prt n 0x30) = d.rdN (prt n 0x30) := by
  have hplace : prt n 0x30 % 0x1000 = 0x30 := prt_mod n (by decide)
  unfold Dev.holdNoted
  split
  · rw [Dev.rdN_event_other _ _ (by unfold parBase; omega)]
    exact Dev.rdN_count64_other d 1 (by unfold parBase; omega) (by unfold parBase; omega)
  · rfl

theorem Dev.holdNoted_counts {d : Dev} (h : d.anyHeld = true) :
    d.holdNoted.rd64 (parBase + 0x138) = (d.rd64 (parBase + 0x138) + 1) % 2 ^ 64 ∧ wbit (d.holdNoted.rd (parBase + 0x14)) 1 = true := by
  unfold Dev.holdNoted
  rw [if_pos h]
  refine ⟨?_, Dev.event_set _ _ _ (by decide)⟩
  rw [Dev.rd64_of_rd (Dev.rd_event_other _ _ (by decide)) (Dev.rd_event_other _ _ (by decide))]
  exact d.rd64_parCount_same 7

theorem Dev.dispatchTake_only {d : Dev} {i : Nat} {p : Pkt} (hheld : d.anyHeld = false)
    (honly : d.flow.pkts.filter (fun kv => decide (kv.2.stage = .rx)) = [(i, p)]) (hsrc : p.src < 33) (hoffer : d.eligible p.src = some i)
    (hafter : (d.take1 p.src i).flow.pkts.all (fun kv => decide (kv.2.stage ≠ .rx)) = true) : d.dispatchTake = d.take1 p.src i := by
  have hnote : d.holdNoted = d := if_neg (by simp [hheld])
  rw [Dev.dispatchTake_eq, hnote]
  exact Dev.dispatchFrom_one (d.mem_sourceOrder.2 hsrc) hoffer (fun k hk => Dev.eligible_none_of_only honly hk)
    (Dev.eligible_none_of_all hafter) 3

theorem Dev.dispatchTake_nothing {d : Dev} (h : (upTo 33).all (fun k => (d.eligible k).isNone) = true) : d.dispatchTake.flow = d.flow := by
  have hnone : ∀ k ∈ d.sourceOrder, d.holdNoted.eligible k = none := fun k hk => by
    rw [Dev.eligible_congr d.holdNoted_flow d.holdNoted_macsec]
    exact Option.isNone_iff_eq_none.1 (List.all_eq_true.1 h k (List.mem_range.2 (d.mem_sourceOrder.1 hk)))
  rw [Dev.dispatchTake_eq, Dev.dispatchFrom_none hnone, Dev.holdNoted_flow]

/-! ### Punts (R205, R206, R223) -/

theorem Dev.leaveVer_regs (d : Dev) (i : Nat) : (d.leaveVer i).regs = d.regs := by
  unfold Dev.leaveVer
  dsimp only
  split <;> rfl

theorem Dev.leaveVer_puntQ (d : Dev) (i : Nat) : (d.leaveVer i).flow.puntQ = d.flow.puntQ := by
  unfold Dev.leaveVer
  dsimp only
  split <;> rfl

theorem Dev.puntToken_puntQ (d : Dev) (r lim : Nat) : (d.puntToken r lim).1.flow.puntQ = d.flow.puntQ := by
  unfold Dev.puntToken
  dsimp only
  (repeat' split) <;> rfl

/-- R206: reason r of a packet has a token and the queue of its Shortstop core room. -/
def Dev.puntRoom (d : Dev) (r : Nat) (conf : ParSnap) : Prop :=
  (d.puntToken r (conf.lim.getD r 0)).2 = true ∧ (Tab.get [] d.flow.puntQ (conf.core r)).length < 512

theorem Dev.puntOffer_admits {d : Dev} {r : Nat} {conf : ParSnap} (h : d.puntRoom r conf) (e : PuntEnt) :
    (d.puntOffer r conf e).2 = true ∧
    Tab.get [] (d.puntOffer r conf e).1.flow.puntQ (conf.core r) = Tab.get [] d.flow.puntQ (conf.core r) ++ [e] := by
  obtain ⟨htoken, hroom⟩ := h
  rw [← d.puntToken_puntQ r (conf.lim.getD r 0)] at hroom ⊢
  have hin : ((d.puntToken r (conf.lim.getD r 0)).2 &&
      decide ((Tab.get [] (d.puntToken r (conf.lim.getD r 0)).1.flow.puntQ (conf.core r)).length < 512)) = true :=
    Bool.and_eq_true_iff.2 ⟨htoken, decide_eq_true hroom⟩
  simp only [Dev.puntOffer, hin, if_true]
  exact ⟨trivial, Tab.get_set_same _ _ _ _⟩

theorem Dev.puntOffer_refuses {d : Dev} {r : Nat} {conf : ParSnap} (h : ¬d.puntRoom r conf) (e : PuntEnt) :
    (d.puntOffer r conf e).2 = false ∧ wbit ((d.puntOffer r conf e).1.rd (parBase + 0x14)) 0 = true := by
  rw [Dev.puntRoom, ← d.puntToken_puntQ r (conf.lim.getD r 0)] at h
  have hout : ¬((d.puntToken r (conf.lim.getD r 0)).2 &&
      decide ((Tab.get [] (d.puntToken r (conf.lim.getD r 0)).1.flow.puntQ (conf.core r)).length < 512)) = true :=
    fun hc => h ⟨(Bool.and_eq_true_iff.1 hc).1, of_decide_eq_true (Bool.and_eq_true_iff.1 hc).2⟩
  simp only [Dev.puntOffer, if_neg hout]
  exact ⟨trivial, Dev.event_set _ _ _ (by decide)⟩

/-- The entry of a packet punted with reason r (R207). -/
def puntEntry (p : Pkt) (i r ver ruleid metaW : Nat) (verdict : Bool) : PuntEnt :=
  { header := puntHeader p r ver ruleid metaW false verdict, par := p.par, pkt := some i }

theorem Dev.puntPkt_admitted {d : Dev} {i r : Nat} (h : (d.leaveVer i).puntRoom r (d.pkt i).conf) (ver ruleid metaW : Nat) (verdict : Bool) :
    ((d.puntPkt i r ver ruleid metaW verdict).pkt i).stage = .punted ((d.pkt i).conf.core r) ∧
    Tab.get [] (d.puntPkt i r ver ruleid metaW verdict).flow.puntQ ((d.pkt i).conf.core r) =
      Tab.get [] d.flow.puntQ ((d.pkt i).conf.core r) ++ [puntEntry (d.pkt i) i r ver ruleid metaW verdict] := by
  obtain ⟨hin, hqueue⟩ := Dev.puntOffer_admits h (puntEntry (d.pkt i) i r ver ruleid metaW verdict)
  rw [Dev.leaveVer_puntQ] at hqueue
  unfold puntEntry at hin hqueue ⊢
  simp only [Dev.puntPkt, hin, if_true]
  exact ⟨by rw [Dev.pkt_pktUpd_same], hqueue⟩

theorem Dev.puntPkt_refused {d : Dev} {i r : Nat} (h : ¬(d.leaveVer i).puntRoom r (d.pkt i).conf) (ver ruleid metaW : Nat) (verdict : Bool) :
    ((d.puntPkt i r ver ruleid metaW verdict).pkt i).stage = .gone ∧
    wbit ((d.puntPkt i r ver ruleid metaW verdict).rd (parBase + 0x14)) 0 = true := by
  obtain ⟨hout, hevent⟩ := Dev.puntOffer_refuses h (puntEntry (d.pkt i) i r ver ruleid metaW verdict)
  unfold puntEntry at hout hevent
  simp only [Dev.puntPkt, hout, Bool.false_eq_true, if_false, Dev.pktGone]
  refine ⟨by rw [Dev.pkt_pktUpd_same], ?_⟩
  rw [Dev.rd_of_regs (Dev.pktUpd_regs _ _ _), Dev.rd_of_regs (Dev.leaveVer_regs _ _)]
  exact hevent

/-! ### Parse results (R199, R205) -/

/-- R205: with the snoops off there is none. -/
theorem Dev.snoopOf_off (d : Dev) {p : Pkt} (h : bits p.conf.ctl 2 0 = 0) : d.snoopOf p = none := by
  have hoff : bit p.conf.ctl 0 = false ∧ bit p.conf.ctl 1 = false ∧ bit p.conf.ctl 2 = false := by
    simp only [bits, bit, decide_eq_false_iff_not] at h ⊢
    omega
  obtain ⟨hsv, hgoose, hptp⟩ := hoff
  simp [Dev.snoopOf, hsv, hgoose, hptp]

/-- The device in which the parse error of a packet has been counted (R199). -/
def Dev.errorCounted (d : Dev) (p : Pkt) : Dev := if parW p 0 31 24 = 0 then d else d.parCount (7 + parW p 0 31 24)

theorem Dev.errorCounted_flow (d : Dev) (p : Pkt) : (d.errorCounted p).flow = d.flow := by
  unfold Dev.errorCounted
  split <;> rfl

theorem Dev.parseResult_parsed {d : Dev} {pipe i : Nat} (hoff : d.oldest (fun x => decide (x = .taken pipe)) = some i)
    (hpunt : (d.pkt i).punt3 = none) (hsnoop : bits (d.pkt i).conf.ctl 2 0 = 0) :
    (d.parseResult pipe).pkt i = { d.pkt i with stage := .parsed } := by
  have hstep : d.parseResult pipe = (d.errorCounted (d.pkt i)).pktUpd i (fun q => { q with stage := .parsed }) := by
    simp only [Dev.parseResult, hoff, hpunt, Dev.snoopOf_off _ hsnoop]
    rfl
  rw [hstep, Dev.pkt_pktUpd_same, Dev.pkt_of_flow (d.errorCounted_flow _)]

theorem Dev.parseResult_punts {d : Dev} {pipe i r : Nat} (hoff : d.oldest (fun x => decide (x = .taken pipe)) = some i)
    (hpunt : (d.pkt i).punt3 = some r) (hfirst : (d.pkt i).reinj = false) (herr : parW (d.pkt i) 0 31 24 = 0) :
    d.parseResult pipe = d.puntPkt i r 0 0 0 false := by
  simp only [Dev.parseResult, hoff, hpunt, hfirst, herr, if_true]

/-! ### Classification (R208, R210, R213, R217, R221) -/

/-- Packet i under the current version. -/
def Dev.entering (d : Dev) (i : Nat) : Pkt := { d.pkt i with ver := d.vcur, inVer := true }

/-- The device in which packet i has taken the current version (R221, R223). -/
def Dev.entered (d : Dev) (i : Nat) : Dev := (d.pktSet i (d.entering i)).verUpd d.vcur (fun n => n + 1)

/-- A count of the packets in flight is no part of what an object's visibility depends on. -/
theorem Dev.vbase_entered (d : Dev) (i : Nat) : (d.entered i).vbase = d.vbase := by
  have hv : ∀ x : VerSlot, (if x.v = d.vcur then { x with infl := x.infl + 1 } else x).v = x.v := fun x => by split <;> rfl
  simp [Dev.vbase, Dev.entered, Dev.verUpd, Dev.pktSet, List.head?_map, Function.comp_def, hv]

theorem Dev.visible_entered (d : Dev) (i c pv : Nat) : (d.entered i).visible c pv = d.visible c pv := by
  have hord : ∀ v, (d.entered i).vord v = d.vord v := fun v => by rw [Dev.vord, Dev.vbase_entered, ← Dev.vord]
  unfold Dev.visible
  rw [hord, hord, hord]

theorem Dev.amLookup_entered (d : Dev) (i prof ver key : Nat) : (d.entered i).amLookup prof ver key = d.amLookup prof ver key := by
  simp only [Dev.amLookup, Dev.visible_entered]
  rfl

/-- The profile of a packet in the associative memory (R210). -/
def Dev.amProf (d : Dev) (p : Pkt) : Nat := bits (d.clsPort p.port) (19 + 4 * parW p 0 10 8) (16 + 4 * parW p 0 10 8)

theorem Dev.classifyPkt_hit {d : Dev} {p : Pkt} {e : AmEnt} (herr : parW p 0 31 24 = 0) (hsize : d.profN (d.amProf p) ≤ 10)
    (hhit : d.amLookup (d.amProf p) p.ver (wordsNat (d.keyWords (d.amProf p) p 0)) = some e) (hkind : resKind e.res = 0) :
    d.classifyPkt p = (.res e.res, [0]) := by
  unfold Dev.amProf at hsize hhit
  simp only [Dev.classifyPkt, herr, ne_eq, not_true_eq_false, if_false, if_neg (Nat.not_lt.2 hsize), hhit, hkind]

theorem Dev.classifyPkt_error {p : Pkt} (d : Dev) (herr : parW p 0 31 24 ≠ 0) : d.classifyPkt p = (.dflt true, []) :=
  if_pos herr

theorem Dev.classify_hit {d : Dev} {i x : Nat} (hturn : d.turn .parsed = some i) (hpunt : (d.pkt i).punt3 = none)
    (hend : (d.entered i).classifyPkt (d.entering i) = (.res x, [0])) :
    d.classify = ((d.entered i).clsCount 0).pktSet i { d.entering i with res := x, stage := .classified } := by
  have hfirst : ¬((d.pkt i).reinj && (d.pkt i).punt3.isSome) = true := by simp [hpunt]
  dsimp only [Dev.entered, Dev.entering] at hend
  simp only [Dev.classify, hturn, if_neg hfirst, hend]
  rfl

/-! ### The default for a failure (R217) -/

/-- BASEACT of a failure, by PARSEFAIL: forward, drop or tap. -/
def failBase (act : Nat) : Nat := if act = 0 then 0 else if act = 3 then 2 else 3

theorem failBase_lt (act : Nat) : failBase act < 2 ^ 4 := by
  unfold failBase
  split
  · decide
  · split <;> decide

/-- The device in which a failure has been counted, and REPUNT where the default would punt a reinjected packet (R208). -/
def Dev.failCounted (d : Dev) (repunt : Bool) : Dev := if repunt then (d.clsCount 20).parCount 6 else d.clsCount 20

theorem Dev.failCounted_counts (d : Dev) (repunt : Bool) :
    (d.failCounted repunt).rd64 (clsBase + 0x5A0) = (d.rd64 (clsBase + 0x5A0) + 1) % 2 ^ 64 := by
  have hcount : (d.clsCount 20).rd64 (clsBase + 0x5A0) = (d.rd64 (clsBase + 0x5A0) + 1) % 2 ^ 64 := Dev.rd64_count64_same d _ 1
  unfold Dev.failCounted
  split
  · rw [Dev.rd64_of_rd (Dev.rd_parCount_other _ (by decide)) (Dev.rd_parCount_other _ (by decide)), hcount]
  · exact hcount

/-- Packet p classified by its port's default with BASEACT of a failure; r holds the other fields of the result. -/
def Dev.failed (d : Dev) (p : Pkt) (r : Nat) : Pkt :=
  { p with res := putBits r 163 160 (failBase (bits (d.clsPort p.port) 3 2)), defaulted := true, stage := .classified }

theorem Dev.byDefault_fail {d : Dev} {i : Nat} (h : (d.pkt i).reinj = true ∨ bits (d.clsPort (d.pkt i).port) 3 2 ≠ 2) :
    ∃ repunt r, d.byDefault i true false = (d.failCounted repunt).pktSet i (d.failed (d.pkt i) r) := by
  have hstays : ¬(bits (d.clsPort (d.pkt i).port) 3 2 = 2 ∧ (d.pkt i).reinj = false) := by
    rintro ⟨hact, hreinj⟩
    exact h.elim (fun ht => by simp [hreinj] at ht) (fun hne => hne hact)
  simp only [Dev.byDefault, if_true, if_neg hstays]
  by_cases hact : bits (d.clsPort (d.pkt i).port) 3 2 = 2
  · exact ⟨true, _, by rw [if_pos ⟨hact, trivial⟩]; rfl⟩
  · exact ⟨false, _, by rw [if_neg (fun hc => hact hc.1)]; rfl⟩

theorem Dev.classify_error {d : Dev} {i : Nat} (hturn : d.turn .parsed = some i) (herr : parW (d.pkt i) 0 31 24 ≠ 0)
    (hstays : (d.pkt i).reinj = true ∨ bits (d.clsPort (d.pkt i).port) 3 2 ≠ 2) :
    ∃ repunt r, d.classify = ((d.entered i).failCounted repunt).pktSet i (d.failed (d.entering i) r) := by
  have hpkt : (d.entered i).pkt i = d.entering i := Dev.pkt_pktSet_same d i _
  by_cases hpunt : ((d.pkt i).reinj && (d.pkt i).punt3.isSome) = true
  · refine ⟨true, d.defRes (bits (d.clsPort (d.pkt i).port) 13 11), ?_⟩
    simp only [Dev.classify, hturn, hpunt, if_true]
    rfl
  · obtain ⟨repunt, r, hdefault⟩ := Dev.byDefault_fail (d := d.entered i) (i := i) (by rw [hpkt]; exact hstays)
    refine ⟨repunt, r, ?_⟩
    rw [hpkt] at hdefault
    have hend : (d.entered i).classifyPkt (d.entering i) = (.dflt true, []) := Dev.classifyPkt_error _ herr
    refine Eq.trans ?_ hdefault
    dsimp only [Dev.entered, Dev.entering] at hend
    simp only [Dev.classify, hturn, if_neg hpunt, hend]
    rfl

/-! ### The obligation -/

/-- Settles O27: of the sources only the one that offers the waiting packet acts, and the bound of four is an induction over the sources; a
parse result and a classification are the branch of their command that the hypotheses select. -/
theorem packetsAreTakenParsedAndClassified : Obligations.PacketsAreTakenParsedAndClassified := by
  unfold Obligations.PacketsAreTakenParsedAndClassified
  refine ⟨?taken, ?bound, ?parsed, ?hit, ?punted, ?failed⟩
  case taken =>
    intro s i p ha hheld honly hsrc hoffer hafter
    refine ⟨_, Machine.exec_dispatchTake_alive ha, ?_⟩
    dsimp only
    rw [Dev.dispatchTake_only hheld honly hsrc hoffer hafter, Dev.take1_pkt, Dev.take1_takes, Dev.take1_dptr]
    exact ⟨rfl, rfl, rfl, rfl, rfl, rfl⟩
  case bound =>
    intro s ha
    obtain ⟨hlo, hhi⟩ := s.dev.holdNoted.dispatchFrom_takes 4 s.dev.sourceOrder
    rw [Dev.holdNoted_flow, ← Dev.dispatchTake_eq] at hlo hhi
    refine ⟨_, Machine.exec_dispatchTake_alive ha, hlo, hhi, Dev.dispatchTake_nothing, fun hheld => ?_⟩
    obtain ⟨hcount, hevent⟩ := Dev.holdNoted_counts hheld
    dsimp only
    rw [Dev.dispatchTake_eq, Dev.dispatchFrom_rd _ _ _ (by decide),
      Dev.rd64_of_rd (Dev.dispatchFrom_rd _ _ _ (by decide)) (Dev.dispatchFrom_rd _ _ _ (by decide))]
    exact ⟨hcount, hevent⟩
  case parsed =>
    intro s pipe i ha hoff hpunt hsnoop
    exact ⟨_, Machine.exec_parseResult_alive ha pipe, Dev.parseResult_parsed hoff hpunt hsnoop⟩
  case hit =>
    intro s i e ha hturn hpunt herr hsize hhit hkind
    have hend : (s.dev.entered i).classifyPkt (s.dev.entering i) = (.res e.res, [0]) :=
      Dev.classifyPkt_hit herr hsize ((s.dev.amLookup_entered i _ _ _).trans hhit) hkind
    refine ⟨_, Machine.exec_classify_alive ha, ?_⟩
    dsimp only
    rw [Dev.classify_hit hturn hpunt hend]
    exact ⟨Dev.pkt_pktSet_same _ _ _, Dev.rd64_count64_same (s.dev.entered i) _ 1⟩
  case punted =>
    intro s pipe i r ha hoff hpunt hfirst herr
    refine ⟨_, Machine.exec_parseResult_alive ha pipe, ?_⟩
    dsimp only
    rw [Dev.parseResult_punts hoff hpunt hfirst herr, ← Dev.leaveVer_puntQ s.dev i]
    split
    case isTrue hroom =>
      rw [Dev.leaveVer_puntQ]
      exact Dev.puntPkt_admitted hroom 0 0 0 false
    case isFalse hroom => exact Dev.puntPkt_refused hroom 0 0 0 false
  case failed =>
    intro s i ha hturn herr hstays
    obtain ⟨repunt, r, hclassified⟩ := Dev.classify_error hturn herr hstays
    refine ⟨_, Machine.exec_classify_alive ha, ?_⟩
    dsimp only
    rw [hclassified, Dev.pkt_pktSet_same]
    refine ⟨rfl, rfl, rfl, ?_, Dev.failCounted_counts (s.dev.entered i) repunt⟩
    exact (bits_putBits_same r 163 160 _).trans (Nat.mod_eq_of_lt (failBase_lt _))

end Sys2Proof
end

section
/-! Words of a block that an operation writes one after another: what they read afterwards, and what the run leaves; and the byte strings
that such words hold. The index registers and the queue records of chapter 9 are written so. -/

namespace Sys2Proof

/-! ### Register pairs (R9) -/

theorem Dev.rdN_wr64_other (d : Dev) {k m : Nat} (v : Nat) (hlo : m ≠ k) (hhi : m ≠ k + 4) : (d.wr64 k v).rdN m = d.rdN m := by
  rw [Dev.wr64, Dev.rdN_wrN_other _ _ hhi, Dev.rdN_wrN_other _ _ hlo]

theorem Dev.rd64_wr64_same (d : Dev) (k v : Nat) : (d.wr64 k v).rd64 k = v % 2 ^ 64 := by
  rw [Dev.wr64, Dev.rd64, Dev.rdN_wrN_other _ _ (by omega), Dev.rdN_wrN_same, Dev.rdN_wrN_same]
  omega

theorem Dev.rd64_wr64_other (d : Dev) {k m : Nat} (v : Nat) (h : m + 8 ≤ k ∨ k + 8 ≤ m) : (d.wr64 k v).rd64 m = d.rd64 m :=
  Dev.rd64_of_rdN (d.rdN_wr64_other v (by omega) (by omega)) (d.rdN_wr64_other v (by omega) (by omega))

/-! ### Runs of words -/

/-- The first n values of w stand in consecutive words from register a on. -/
def Dev.wordsPut (d : Dev) (a : Nat) (w : Nat → Nat) (n : Nat) : Dev := (upTo n).foldl (fun (e : Dev) k => e.wrN (a + 4 * k) (w k)) d

theorem Dev.wordsPut_succ (d : Dev) (a : Nat) (w : Nat → Nat) (n : Nat) :
    d.wordsPut a w (n + 1) = (d.wordsPut a w n).wrN (a + 4 * n) (w n) := by
  simp [Dev.wordsPut, upTo, List.range_succ]

@[simp] theorem Dev.wordsPut_flow (d : Dev) (a : Nat) (w : Nat → Nat) (n : Nat) : (d.wordsPut a w n).flow = d.flow := by
  induction n with
  | zero => rfl
  | succ n ih => rw [Dev.wordsPut_succ, Dev.wrN_flow, ih]

theorem Dev.rdN_wordsPut_outside (d : Dev) {a m : Nat} (w : Nat → Nat) {n : Nat} (h : m < a ∨ a + 4 * n ≤ m) :
    (d.wordsPut a w n).rdN m = d.rdN m := by
  induction n with
  | zero => rfl
  | succ n ih => rw [Dev.wordsPut_succ, Dev.rdN_wrN_other _ _ (by omega), ih (by omega)]

theorem Dev.rdN_wordsPut_inside (d : Dev) (a : Nat) (w : Nat → Nat) {k n : Nat} (h : k < n) :
    (d.wordsPut a w n).rdN (a + 4 * k) = w k % 2 ^ 32 := by
  induction n with
  | zero => omega
  | succ n ih =>
    rw [Dev.wordsPut_succ]
    by_cases hk : k = n
    · rw [hk]
      exact Dev.rdN_wrN_same _ _ _
    · rw [Dev.rdN_wrN_other _ _ (by omega), ih (by omega)]

/-! ### Numbers from bytes (R3) -/

theorem leNat_lt (bs : List Byte) : leNat bs < 256 ^ bs.length := by
  induction bs with
  | nil => exact Nat.one_pos
  | cons b bs ih =>
    have hb : b.toNat < 256 := b.isLt
    rw [leNat, List.length_cons, Nat.pow_succ]
    omega

/-- Four bytes make a word. -/
theorem leNat_take4_lt (bs : List Byte) : leNat (bs.take 4) < 2 ^ 32 :=
  calc leNat (bs.take 4) < 256 ^ (bs.take 4).length := leNat_lt _
    _ ≤ 256 ^ 4 := Nat.pow_le_pow_right (by decide) (List.length_take_le 4 bs)

end Sys2Proof
end

section
/-! Chapter 9 up to step 6: the binding of a packet by a hit or to nothing, the visit of the aging scanner, firmware's writes of flow entries
and of entity ranges, and the two index registers; from these the obligation O30. -/

namespace Sys2Proof

/-! ### The commands are their operations -/

theorem Machine.exec_bind_alive {s : Machine.State} (ha : s.dev.alive = true) : Machine.exec .bind s = .next { s with dev := s.dev.bind } :=
  Machine.live_next ha (fun d => d.bind)

theorem Machine.exec_agingScan_alive {s : Machine.State} (ha : s.dev.alive = true) :
    Machine.exec .agingScan s = .next { s with dev := s.dev.agingScan } :=
  Machine.live_next ha (fun d => d.agingScan)

theorem Machine.exec_flowEntryFwWrite_fw {s : Machine.State} (ha : s.dev.alive = true) (hready : s.dev.fwReady = true)
    (hheld : s.dev.helds = false) (i : Fin 1048576) (st ev : Option Bool) (en : Option Nat) (va : Option Bool) (more : List FlowSet) :
    Machine.exec (.flowEntryFwWrite i st ev en va more) s =
      .next { s with dev := s.dev.flowSet i ((s.dev.flowAt i).write (flowSets st ev en va more)) } :=
  Machine.live_fwDo ha hready hheld (fun d => d.flowSet i ((d.flowAt i).write (flowSets st ev en va more)))

theorem Machine.exec_entityRangeAssign_fw {s : Machine.State} (ha : s.dev.alive = true) (hready : s.dev.fwReady = true)
    (hheld : s.dev.helds = false) (p : Fin 32) (first n : Nat) :
    Machine.exec (.entityRangeAssign p first n) s = .next { s with dev := s.dev.assignRange p first n } :=
  Machine.live_fwDo ha hready hheld (fun d => d.assignRange p first n)

/-- A write of a block register by a requester that has it, on a live device (R352). -/
theorem Machine.live_blockWriteDo {s : Machine.State} {who : Req} {key : Nat} (ha : s.dev.alive = true) (hm : s.dev.mayWrite who key = true)
    (hb : who.atBlocks = true) (f : Dev → Dev) : Machine.live s (fun d => d.blockWriteDo who key f) = .next { s with dev := f s.dev } := by
  rw [Machine.live_next ha, Dev.blockWriteDo_open hm hb]

/-! ### Flow entries -/

@[simp] theorem Dev.flowAt_flowSet_same (d : Dev) (i : Nat) (e : FlowEnt) : (d.flowSet i e).flowAt i = e := Tab.get_set_same _ _ _ _

theorem Dev.flowAt_pktSet (d : Dev) (i : Nat) (p : Pkt) (ix : Nat) : (d.pktSet i p).flowAt ix = d.flowAt ix := rfl

@[simp] theorem Dev.flwCount_flow (d : Dev) (k : Nat) : (d.flwCount k).flow = d.flow := rfl

theorem Dev.flowAt_of_flow {d e : Dev} (h : e.flow = d.flow) (i : Nat) : e.flowAt i = d.flowAt i := by
  rw [Dev.flowAt, h, ← Dev.flowAt]

/-! ### Binding (R231 to R234) -/

/-- Packet p as step 6 leaves it, bound to a flow at most. -/
def Pkt.boundTo (p : Pkt) (ix : Option Nat) (dn : Option Nat) : Pkt := { p with flow := ix, dn := dn, entity := none, stage := .bound }

theorem Dev.bind_unbound {d : Dev} {i : Nat} (hturn : d.turn .classified = some i) (hflow : bits (d.pkt i).res 143 136 = 0)
    (hent : bits (d.pkt i).res 135 128 = 0) : d.bind = (d.flwCount 5).pktSet i ((d.pkt i).boundTo none none) := by
  simp only [Dev.bind, hturn, hflow, hent]
  rfl

/-- What the update of entry ix for packet p computes; `hit`: the entry was found, not inserted (R233). -/
def Dev.entryUpdate (d : Dev) (p : Pkt) (ix : Nat) (hit : Bool) : FlowEnt × Option Nat × Bool :=
  flowUpdate (d.flowAt ix) (!hit) (bits (d.rdN (flwBase + 4)) 3 0) p.stamp.q p.len p.ver d.flwNow

/-- The device in which entry ix is updated and a skipped interarrival time counted (R233). -/
def Dev.entryUpdated (d : Dev) (p : Pkt) (ix : Nat) (hit : Bool) : Dev :=
  if (d.entryUpdate p ix hit).2.2 then (d.flowSet ix (d.entryUpdate p ix hit).1).flwCount 7 else d.flowSet ix (d.entryUpdate p ix hit).1

theorem Dev.entryUpdated_entry (d : Dev) (p : Pkt) (ix : Nat) (hit : Bool) :
    (d.entryUpdated p ix hit).flowAt ix = (d.entryUpdate p ix hit).1 := by
  unfold Dev.entryUpdated
  split
  · rw [Dev.flowAt_of_flow (Dev.flwCount_flow _ _), Dev.flowAt_flowSet_same]
  · rw [Dev.flowAt_flowSet_same]

/-- A packet whose flow is found, with no entity profile, is bound to the entry alone. -/
theorem Dev.bind_found {d e : Dev} {i ix : Nat} {hit : Bool} (hturn : d.turn .classified = some i)
    (hflow : bits (d.pkt i).res 143 136 ≠ 0) (hent : bits (d.pkt i).res 135 128 = 0)
    (hfind : d.flowFind (bits (d.pkt i).res 143 136) (d.flowDigest (bits (d.pkt i).res 143 136) (d.pkt i)) = (e, some (ix, hit))) :
    d.bind = (e.entryUpdated (d.pkt i) ix hit).pktSet i ((d.pkt i).boundTo (some ix) (e.entryUpdate (d.pkt i) ix hit).2.1) := by
  simp only [Dev.bind, hturn, if_neg hflow, hent, hfind, if_true, ne_eq, not_true_eq_false, false_and, if_false]
  rfl

/-- Entry k is the one of digest g under profile j. -/
def Dev.flowHit (d : Dev) (j g k : Nat) : Bool :=
  (d.flowAt k).valid && decide ((d.flowAt k).digest = g) && decide ((d.flowAt k).fprof = j)

theorem Dev.flowFind_hit {d : Dev} {j g ix : Nat} (h : (flowCands g).find? (d.flowHit j g) = some ix) :
    d.flowFind j g = (d.flwCount 0, some (ix, true)) := by
  unfold Dev.flowHit at h
  simp only [Dev.flowFind, h]

/-- The count of a hit is no part of what the entry's update reads. -/
theorem Dev.entryUpdate_flwCount (d : Dev) (p : Pkt) (ix : Nat) (hit : Bool) :
    (d.flwCount 0).entryUpdate p ix hit = d.entryUpdate p ix hit := by
  have hcfg : (d.flwCount 0).rdN (flwBase + 4) = d.rdN (flwBase + 4) := Dev.rdN_count64_other d 1 (by decide) (by decide)
  rw [Dev.entryUpdate, hcfg, Dev.flowAt_of_flow (Dev.flwCount_flow _ _)]
  rfl

/-! ### Aging (R232) -/

/-- The device in which the scanner has gone on to the next entry. -/
def Dev.scanned (d : Dev) : Dev := { d with flow := { d.flow with scan := (d.flow.scan + 1) % 1048576 } }

theorem Dev.agingScan_removes {d : Dev} (hvalid : (d.flowAt d.flow.scan).valid = true) (hstatic : (d.flowAt d.flow.scan).static = false)
    (hlimit : bits (d.fprof (d.flowAt d.flow.scan).fprof 3) 15 0 ≠ 0)
    (hidle : bits (d.fprof (d.flowAt d.flow.scan).fprof 3) 15 0 ≤ d.idleAge (d.flowAt d.flow.scan)) :
    d.agingScan.flow = (d.scanned.flowSet d.flow.scan { d.flowAt d.flow.scan with valid := false }).flow := by
  simp only [Dev.agingScan, hvalid, hstatic, hlimit, hidle, Bool.not_false, ne_eq, not_false_eq_true, decide_true, Bool.and_self, if_true]
  rfl

/-! ### Entity ranges (R236) -/

theorem Tab.find_append {α : Type} (t u : Tab α) (n : Nat) : Tab.find (t ++ u) n = (Tab.find t n).or (Tab.find u n) := by
  induction t with
  | nil => rfl
  | cons kv t ih =>
    obtain ⟨k, v⟩ := kv
    by_cases hk : k = n <;> simp [Tab.find, hk, ih]

/-- A run of equal values. -/
theorem Tab.find_constRun {α : Type} (first : Nat) (v : α) {k : Nat} {is : List Nat} (h : k ∈ is) :
    Tab.find (is.map (fun i => (first + i, v))) (first + k) = some v := by
  induction is with
  | nil => cases h
  | cons i is ih =>
    by_cases hi : i = k
    · simp [Tab.find, hi]
    · simpa [Tab.find, hi] using ih ((List.mem_cons.1 h).resolve_left (Ne.symm hi))

theorem Dev.assignRange_states (d : Dev) (p first : Nat) {k n : Nat} (h : k < n) :
    (d.assignRange p first n).entState (first + k) = 0x400 := by
  have hbelow : ∀ t : Tab Nat, Tab.find (Tab.keep t (fun j _ => decide (j < first))) (first + k) = none := fun t => by
    rw [Tab.keep, Tab.find_filter_index t (fun j => decide (j < first)), if_neg (by simp)]
  simp only [Dev.assignRange, Dev.entState, Tab.get, Tab.find_append, hbelow, Tab.find_constRun first 0x400 (List.mem_range.2 h), upTo]
  rfl

/-- The device in which the two words of partition p's range are written. -/
def Dev.rangeWritten (d : Dev) (p first n : Nat) : Dev := (d.wrN (flwBase + 0x400 + 8 * p) first).wrN (flwBase + 0x404 + 8 * p) n

/-- Beside the two words of the range a move writes the block's event register and the partition's count of stale entities. -/
theorem Dev.assignRange_regs (d : Dev) (p first n : Nat) :
    (d.assignRange p first n).regs =
      ((if d.warmIn first n = [] then d.rangeWritten p first n else (d.rangeWritten p first n).event (flwBase + 0x0C) 2).count
        (flwBase + 0x800 + 4 * p) (d.warmIn first n).length).regs :=
  rfl

theorem Dev.assignRange_rdN (d : Dev) (p first n : Nat) {a : Nat} (hlo : flwBase + 0x400 ≤ a) (hhi : a < flwBase + 0x800) :
    (d.assignRange p first n).rdN a = (d.rangeWritten p first n).rdN a := by
  rw [Dev.rdN_of_regs (d.assignRange_regs p first n), Dev.rdN_count_other _ _ (by omega)]
  split
  · rfl
  · exact Dev.rdN_event_other _ _ (by omega)

/-! ### The index registers (R250) -/

theorem Dev.fidx_eq (d : Dev) (i : Nat) :
    d.fidx i = (d.wrN (flwBase + 0x20) (2 ^ 31 + i)).wordsPut (flwBase + 0x40) (fun k => leNat (((d.flowAt i).bytesOf.drop (4 * k)).take 4)) 16 :=
  rfl

/-- An index register holds OP with the index. -/
theorem opIndex_lt {i : Nat} (h : i < 2 ^ 20) : 2 ^ 31 + i < 2 ^ 32 := by omega

/-! ### The obligation -/

/-- Settles O30: a binding with no profile or by a hit is one branch of step 6, which writes the packet and at most one entry; the other
clauses are the words that their operation writes, and what it leaves of the flow plane. -/
theorem bindingAgingAndEntities : Obligations.BindingAgingAndEntities := by
  unfold Obligations.BindingAgingAndEntities
  refine ⟨?unbound, ?hit, ?aged, ?written, ?fields, ?assigned, ?flowIndex, ?entityIndex⟩
  case unbound =>
    intro s i ha hturn hflow hent
    refine ⟨_, Machine.exec_bind_alive ha, ?_⟩
    dsimp only
    rw [Dev.bind_unbound hturn hflow hent]
    exact ⟨Dev.pkt_pktSet_same _ _ _, rfl⟩
  case hit =>
    intro s i ix ha hturn hflow hent hfind
    refine ⟨_, Machine.exec_bind_alive ha, ?_⟩
    dsimp only
    rw [Dev.bind_found hturn hflow hent (Dev.flowFind_hit hfind), Dev.pkt_pktSet_same, Dev.flowAt_pktSet, Dev.entryUpdated_entry,
      Dev.entryUpdate_flwCount]
    exact ⟨rfl, rfl, rfl⟩
  case aged =>
    intro s ha hvalid hstatic hlimit hidle
    refine ⟨_, Machine.exec_agingScan_alive ha, ?_⟩
    have hflow := Dev.agingScan_removes hvalid hstatic hlimit hidle
    dsimp only
    rw [Dev.flowAt_of_flow hflow, hflow]
    exact ⟨Dev.flowAt_flowSet_same _ _ _, rfl⟩
  case written =>
    intro s i st ev va en more ha hready hheld
    exact ⟨_, Machine.exec_flowEntryFwWrite_fw ha hready hheld i st ev en va more, rfl⟩
  case fields =>
    intro s i v w b ha hready hheld
    exact ⟨_, Machine.exec_flowEntryFwWrite_fw ha hready hheld i _ _ _ _ _, Dev.flowAt_flowSet_same _ _ _⟩
  case assigned =>
    intro s p first n ha hready hheld hfit
    refine ⟨_, Machine.exec_entityRangeAssign_fw ha hready hheld p first n, ?first, ?count, fun k => s.dev.assignRange_states p first⟩
    case first =>
      rw [Dev.assignRange_rdN _ _ _ _ (by omega) (by omega), Dev.rangeWritten, Dev.rdN_wrN_other _ _ (by omega), Dev.rdN_wrN_same]
      omega
    case count =>
      rw [Dev.assignRange_rdN _ _ _ _ (by omega) (by omega), Dev.rangeWritten, Dev.rdN_wrN_same]
      omega
  case flowIndex =>
    intro s who i ha hwrite hblocks
    refine ⟨_, Machine.live_blockWriteDo ha hwrite hblocks (fun d => d.fidx i), ?_⟩
    dsimp only
    rw [Dev.fidx_eq]
    refine ⟨?index, Dev.wordsPut_flow _ _ _ _, fun k hk => ?word⟩
    case index =>
      rw [Dev.rdN_wordsPut_outside _ _ (by omega), Dev.rdN_wrN_same]
      exact Nat.mod_eq_of_lt (opIndex_lt i.isLt)
    case word =>
      rw [Dev.rdN_wordsPut_inside _ _ _ hk]
      exact Nat.mod_eq_of_lt (leNat_take4_lt _)
  case entityIndex =>
    intro s who e ha hwrite hblocks
    refine ⟨_, Machine.live_blockWriteDo ha hwrite hblocks (fun d => d.eidx e), ?index, Dev.rd64_wr64_same _ _ _, rfl⟩
    rw [Dev.eidx, Dev.rdN_wr64_other _ _ (by omega) (by omega), Dev.rdN_wrN_same]
    exact Nat.mod_eq_of_lt (opIndex_lt (by omega))

end Sys2Proof
end

section
/-! Step 7 of chapter 9: what the colour of a packet makes of it and of its policer class, firmware's write of a class, and GNT_PIDX; from
these the obligation O31. -/

namespace Sys2Proof

/-! ### The commands are their operations -/

theorem Machine.exec_police_alive {s : Machine.State} (ha : s.dev.alive = true) :
    Machine.exec .police s = .next { s with dev := s.dev.police } :=
  Machine.live_next ha (fun d => d.police)

theorem Machine.exec_policerClassWrite_fw {s : Machine.State} (ha : s.dev.alive = true) (hready : s.dev.fwReady = true)
    (hheld : s.dev.helds = false) (c : Fin 16384) (cinc pinc cbs pbs : Nat) (en rf : Bool) :
    Machine.exec (.policerClassWrite c cinc pinc cbs pbs en rf) s = .next { s with dev := s.dev.policerWrite c cinc pinc cbs pbs en rf } :=
  Machine.live_fwDo ha hready hheld (fun d => d.policerWrite c cinc pinc cbs pbs en rf)

theorem Machine.exec_gntPidxCopy_open {s : Machine.State} {who : Req} (ha : s.dev.alive = true)
    (hwrite : s.dev.mayWrite who (gntBase + 0x20) = true) (hblocks : who.atBlocks = true) (c : Fin 16384) (op : Bool) :
    Machine.exec (.gntPidxCopy who c op) s = .next { s with dev := s.dev.pidx c op } :=
  Machine.live_blockWriteDo ha hwrite hblocks (fun d => d.pidx c op)

/-! ### Policer classes -/

@[simp] theorem Dev.polAt_polSet_same (d : Dev) (c : Nat) (x : Policer) : (d.polSet c x).polAt c = x := Tab.get_set_same _ _ _ _

@[simp] theorem Dev.polAt_pktSet (d : Dev) (i : Nat) (p : Pkt) (c : Nat) : (d.pktSet i p).polAt c = d.polAt c := rfl

@[simp] theorem Dev.polAt_seqGap (d : Dev) (n s c : Nat) : (d.seqGap n s).polAt c = d.polAt c := rfl

@[simp] theorem Dev.polAt_flowMark (d : Dev) (f : Option Nat) (drop : Bool) (c : Nat) : (d.flowMark f drop).polAt c = d.polAt c := by
  cases f <;> rfl

@[simp] theorem Dev.polAt_pktGone (d : Dev) (i c : Nat) : (d.pktGone i).polAt c = d.polAt c := by
  unfold Dev.pktGone Dev.leaveVer
  dsimp only
  split <;> rfl

theorem Dev.pktGone_stage (d : Dev) (i : Nat) : ((d.pktGone i).pkt i).stage = .gone := by
  rw [Dev.pktGone, Dev.pkt_pktUpd_same]

/-! ### The colour of a packet (R238) -/

/-- Packet p as step 7 passes it on. -/
def Pkt.passed (p : Pkt) : Pkt := { p with stage := .policed }

theorem Dev.police_unpoliced {d : Dev} {i : Nat} (hturn : d.turn .bound = some i)
    (hclass : bits (d.pkt i).res 191 176 = 0 ∨ (d.polAt (bits (d.pkt i).res 191 176)).en = false) :
    d.police = d.pktSet i (d.pkt i).passed := by
  simp only [Dev.police, hturn, if_pos hclass]
  rfl

/-- The policer class of packet i. -/
def Dev.classOf (d : Dev) (i : Nat) : Nat := bits (d.pkt i).res 191 176

/-- The colour that packet i takes of its class, and the class after it. -/
def Dev.coloured (d : Dev) (i : Nat) : Nat × Policer := (d.polAt (d.classOf i)).colour d.fclk (parW (d.pkt i) 27 13 0)

/-- Packet i is at step 7 under an enabled class, of which it takes the colour. -/
structure Dev.TakesColour (d : Dev) (i colour : Nat) : Prop where
  turn : d.turn .bound = some i
  named : d.classOf i ≠ 0
  enabled : (d.polAt (d.classOf i)).en = true
  colour : (d.coloured i).1 = colour

theorem Dev.TakesColour.policed {d : Dev} {i col : Nat} (h : d.TakesColour i col) : ¬(d.classOf i = 0 ∨ (d.polAt (d.classOf i)).en = false) := by
  rintro (hc | hen)
  · exact h.named hc
  · exact Bool.false_ne_true (hen.symm.trans h.enabled)

/-- The device in which packet i has spent its class's tokens and is counted there. -/
def Dev.spent (d : Dev) (i : Nat) : Dev := d.polSet (d.classOf i) (d.coloured i).2

theorem Dev.spent_class (d : Dev) (i : Nat) : (d.spent i).polAt (d.classOf i) = (d.coloured i).2 := Dev.polAt_polSet_same _ _ _

/-- The device as step 7 leaves it with a RED packet i: its flow and its class count it, and its port's order goes on without it. -/
def Dev.policedRed (d : Dev) (i : Nat) : Dev :=
  (((d.spent i).flowMark (d.pkt i).flow true).seqGap (d.pkt i).port (d.pkt i).seq).pktGone i

/-- With a YELLOW packet i: it goes on marked. -/
def Dev.policedYellow (d : Dev) (i : Nat) : Dev :=
  ((d.spent i).flowMark (d.pkt i).flow false).pktSet i { d.pkt i with marked := true, stage := .policed }

/-- With a GREEN packet i: it goes on as it is. -/
def Dev.policedGreen (d : Dev) (i : Nat) : Dev := (d.spent i).pktSet i (d.pkt i).passed

theorem Dev.police_coloured {d : Dev} {i colour : Nat} (h : d.TakesColour i colour) :
    d.police = if colour = 2 then d.policedRed i else if colour = 1 then d.policedYellow i else d.policedGreen i := by
  have hpoliced := h.policed
  have hcolour := h.colour
  simp only [Dev.coloured, Dev.classOf] at hcolour hpoliced
  simp only [Dev.police, h.turn, if_neg hpoliced, hcolour]
  rfl

/-! ### Writes of a class (R239) -/

theorem Dev.policerWrite_excluded {cbs pbs : Nat} (h : bucketsOk cbs pbs = false) (d : Dev) (c cinc pinc : Nat) (en rf : Bool) :
    d.policerWrite c cinc pinc cbs pbs en rf = d :=
  if_pos h

theorem Dev.policerWrite_stores {cbs pbs : Nat} (h : bucketsOk cbs pbs = true) (d : Dev) (c cinc pinc : Nat) (en rf : Bool) :
    d.policerWrite c cinc pinc cbs pbs en rf =
      d.polSet c { d.polAt c with cinc := cinc, pinc := pinc, cbs := cbs, pbs := pbs, en := en, resetFull := rf,
                                  tc := if rf then cbs * 2 ^ 24 else 0, tp := if rf then pbs * 2 ^ 24 else 0, last := d.fclk } :=
  if_neg (by simp [h])

/-! ### GNT_PIDX (R251) -/

/-- The eight words of GNT_PDATA: the record of a class, and its tokens as they are refilled in y. -/
def Policer.words (x y : Policer) : List Nat :=
  [x.cinc, x.pinc, x.cbs, x.pbs, b2n x.en + 2 * b2n x.resetFull, y.tc % 2 ^ 32, y.tp % 2 ^ 32,
   y.tc / 2 ^ 32 % 65536 + 65536 * (y.tp / 2 ^ 32 % 65536)]

/-- The device in which GNT_PIDX and the words of GNT_PDATA are written. -/
def Dev.pdataPut (d : Dev) (c : Nat) : Dev :=
  (d.wrN (gntBase + 0x20) (2 ^ 31 + c)).wordsPut (gntBase + 0x40) (fun k => ((d.polAt c).words ((d.polAt c).refill d.fclk)).getD k 0) 8

@[simp] theorem Dev.wr64_flow (d : Dev) (k v : Nat) : (d.wr64 k v).flow = d.flow := rfl

theorem Dev.pidx_copy (d : Dev) (c : Nat) :
    d.pidx c true = (((d.pdataPut c).wr64 (gntBase + 0x60) (d.polAt c).green).wr64 (gntBase + 0x68) (d.polAt c).yellow).wr64 (gntBase + 0x70)
      (d.polAt c).red :=
  rfl

/-- The counts of a copy lie behind the words of the record. -/
theorem Dev.pidx_copy_rdN (d : Dev) (c : Nat) {a : Nat} (h : a < gntBase + 0x60) : (d.pidx c true).rdN a = (d.pdataPut c).rdN a := by
  rw [Dev.pidx_copy, Dev.rdN_wr64_other _ _ (by omega) (by omega), Dev.rdN_wr64_other _ _ (by omega) (by omega),
    Dev.rdN_wr64_other _ _ (by omega) (by omega)]

theorem Dev.pidx_copy_word (d : Dev) (c : Nat) {k : Nat} (h : k < 8) :
    (d.pidx c true).rdN (gntBase + 0x40 + 4 * k) = ((d.polAt c).words ((d.polAt c).refill d.fclk)).getD k 0 % 2 ^ 32 := by
  rw [Dev.pidx_copy_rdN _ _ (by omega)]
  exact Dev.rdN_wordsPut_inside _ _ _ h

theorem Dev.pidx_copy_index (d : Dev) (c : Fin 16384) : (d.pidx c true).rdN (gntBase + 0x20) = 2 ^ 31 + c := by
  rw [Dev.pidx_copy_rdN _ _ (by omega), Dev.pdataPut, Dev.rdN_wordsPut_outside _ _ (by omega), Dev.rdN_wrN_same]
  exact Nat.mod_eq_of_lt (opIndex_lt (by omega))

theorem Dev.pidx_copy_flow (d : Dev) (c : Nat) : (d.pidx c true).flow = d.flow := by
  rw [Dev.pidx_copy, Dev.wr64_flow, Dev.wr64_flow, Dev.wr64_flow, Dev.pdataPut, Dev.wordsPut_flow, Dev.wrN_flow]

theorem Dev.pidx_copy_cinc (d : Dev) (c : Nat) : (d.pidx c true).rdN (gntBase + 0x40) = (d.polAt c).cinc % 2 ^ 32 :=
  d.pidx_copy_word c (k := 0) (by decide)

theorem Dev.pidx_copy_cbs (d : Dev) (c : Nat) : (d.pidx c true).rdN (gntBase + 0x48) = (d.polAt c).cbs % 2 ^ 32 :=
  d.pidx_copy_word c (k := 2) (by decide)

theorem Dev.pidx_copy_green (d : Dev) (c : Nat) : (d.pidx c true).rd64 (gntBase + 0x60) = (d.polAt c).green % 2 ^ 64 := by
  rw [Dev.pidx_copy, Dev.rd64_wr64_other _ _ (by omega), Dev.rd64_wr64_other _ _ (by omega), Dev.rd64_wr64_same]

theorem Dev.pidx_copy_red (d : Dev) (c : Nat) : (d.pidx c true).rd64 (gntBase + 0x70) = (d.polAt c).red % 2 ^ 64 := by
  rw [Dev.pidx_copy, Dev.rd64_wr64_same]

/-! ### The obligation -/

/-- Settles O31: a packet at step 7 has no enabled class, or one of three colours, each one branch of the step; a write of a class is judged
by its bucket sizes; and a copy by GNT_PIDX writes the index, the eight words of the record and the three counts, each at its own place. -/
theorem policersColourAndCount : Obligations.PolicersColourAndCount := by
  unfold Obligations.PolicersColourAndCount
  refine ⟨?unpoliced, ?red, ?yellow, ?green, ?stored, ?excluded, ?copied, ?held⟩
  case unpoliced =>
    intro s i ha hturn hclass
    exact ⟨_, Machine.exec_police_alive ha, by rw [Dev.police_unpoliced hturn hclass, Pkt.passed]⟩
  case red =>
    intro s i ha hturn hnamed hen hcolour
    refine ⟨_, Machine.exec_police_alive ha, ?_⟩
    dsimp only
    rw [Dev.police_coloured ⟨hturn, hnamed, hen, hcolour⟩, if_pos rfl, Dev.policedRed, Dev.polAt_pktGone, Dev.polAt_seqGap, Dev.polAt_flowMark]
    exact ⟨Dev.pktGone_stage _ _, s.dev.spent_class i⟩
  case yellow =>
    intro s i ha hturn hnamed hen hcolour
    refine ⟨_, Machine.exec_police_alive ha, ?_⟩
    dsimp only
    rw [Dev.police_coloured ⟨hturn, hnamed, hen, hcolour⟩, if_neg (by decide), if_pos rfl, Dev.policedYellow,
      Dev.pkt_pktSet_same, Dev.polAt_pktSet, Dev.polAt_flowMark]
    exact ⟨rfl, rfl, s.dev.spent_class i⟩
  case green =>
    intro s i ha hturn hnamed hen hcolour
    refine ⟨_, Machine.exec_police_alive ha, ?_⟩
    dsimp only
    rw [Dev.police_coloured ⟨hturn, hnamed, hen, hcolour⟩, if_neg (by decide), if_neg (by decide), Dev.policedGreen,
      Dev.pkt_pktSet_same, Dev.polAt_pktSet]
    exact ⟨rfl, rfl, s.dev.spent_class i⟩
  case stored =>
    intro s c cinc pinc cbs pbs en rf ha hready hheld hok
    refine ⟨_, Machine.exec_policerClassWrite_fw ha hready hheld c cinc pinc cbs pbs en rf, ?_⟩
    dsimp only
    rw [Dev.policerWrite_stores hok]
    exact ⟨Dev.polAt_polSet_same _ _ _, rfl⟩
  case excluded =>
    intro s c cinc pinc cbs pbs en rf ha hready hheld hout
    exact ⟨_, Machine.exec_policerClassWrite_fw ha hready hheld c cinc pinc cbs pbs en rf, by rw [Dev.policerWrite_excluded hout]⟩
  case copied =>
    intro s who c ha hwrite hblocks
    exact ⟨_, Machine.exec_gntPidxCopy_open ha hwrite hblocks c true, s.dev.pidx_copy_flow c, s.dev.pidx_copy_index c,
      s.dev.pidx_copy_cinc c, s.dev.pidx_copy_cbs c, s.dev.pidx_copy_green c, s.dev.pidx_copy_red c⟩
  case held =>
    intro s who c ha hwrite hblocks
    exact ⟨_, Machine.exec_gntPidxCopy_open ha hwrite hblocks c false, rfl⟩

end Sys2Proof
end

section
/-! The scheduler and the end of a frame (chapter 9, R237, R246 to R249): what bringing the queues to the present leaves, how a transmission
begins, what the end of a frame sends and counts whatever pause frames follow it, starvation, and firmware's write of a queue record; from
these the obligation O34. -/

namespace Sys2Proof

/-! ### The commands are their operations -/

theorem Machine.exec_scheduleDecision_alive {s : Machine.State} (ha : s.dev.alive = true) (n : Fin 32) :
    Machine.exec (.scheduleDecision n) s = .next { s with dev := s.dev.schedule n } :=
  Machine.live_next ha (fun d => d.schedule n)

theorem Machine.exec_frameRelease_port {s : Machine.State} (ha : s.dev.alive = true) (n : Fin 32) :
    Machine.exec (.frameRelease (some n)) s = .next { s with dev := s.dev.txEnd n } :=
  Machine.live_next ha (fun d => d.txEnd n)

theorem Machine.exec_frameRelease_idle {s : Machine.State} (ha : s.dev.alive = true) :
    Machine.exec (.frameRelease none) s = .next { s with dev := s.dev.freeIdle } :=
  Machine.live_next ha (fun d => d.freeIdle)

theorem Machine.exec_queueStarved_alive {s : Machine.State} (ha : s.dev.alive = true) (n : Fin 32) (q : Fin 8) :
    Machine.exec (.queueStarved n q) s = .next { s with dev := s.dev.queueStarved n q } :=
  Machine.live_next ha (fun d => d.queueStarved n q)

theorem Machine.exec_queueRecordWrite_fw {s : Machine.State} (ha : s.dev.alive = true) (hready : s.dev.fwReady = true)
    (hheld : s.dev.helds = false) (n : Fin 32) (q : Fin 8) (w : List Nat) :
    Machine.exec (.queueRecordWrite n q w) s = .next { s with dev := s.dev.queueWrite n q w } :=
  Machine.live_fwDo ha hready hheld (fun d => d.queueWrite n q w)

/-! ### Ports and queues -/

@[simp] theorem Dev.portAt_portSet_same (d : Dev) (n : Nat) (x : PortSt) : (d.portSet n x).portAt n = x := Tab.get_set_same _ _ _ _

theorem Dev.portAt_portSet_other (d : Dev) {n m : Nat} (x : PortSt) (h : n ≠ m) : (d.portSet m x).portAt n = d.portAt n :=
  Tab.get_set_other _ _ _ h

theorem Dev.portAt_of_flow {d e : Dev} (h : e.flow = d.flow) (n : Nat) : e.portAt n = d.portAt n := by
  rw [Dev.portAt, h, ← Dev.portAt]

theorem Dev.egAt_of_flow {d e : Dev} (h : e.flow = d.flow) (n q : Nat) : e.egAt n q = d.egAt n q := by
  rw [Dev.egAt, h, ← Dev.egAt]

theorem Dev.egAt_egSet_other (d : Dev) (n : Nat) {q k : Nat} (x : EgQ) (h : q ≠ k) : (d.egSet n k x).egAt n q = d.egAt n q :=
  Tab.get_set_other _ _ _ (by omega)

/-! ### Bringing the queues of a port to the present (R246, R248, R249) -/

/-- Only the credits, the ages and the promotions of the queues differ: no item comes or goes, and nothing beside the queues changes. -/
structure Dev.SameItems (n : Nat) (d e : Dev) : Prop where
  rest : ∃ t, e = { d with flow := { d.flow with q := t } }
  items : ∀ q, (e.egAt n q).items = (d.egAt n q).items

theorem Dev.SameItems.refl (n : Nat) (d : Dev) : Dev.SameItems n d d := ⟨⟨d.flow.q, rfl⟩, fun _ => rfl⟩

theorem Dev.SameItems.trans {n : Nat} {d e f : Dev} (h : Dev.SameItems n d e) (g : Dev.SameItems n e f) : Dev.SameItems n d f := by
  obtain ⟨t, rfl⟩ := h.rest
  obtain ⟨u, rfl⟩ := g.rest
  exact ⟨⟨u, rfl⟩, fun q => (g.items q).trans (h.items q)⟩

theorem Dev.sameItems_egSet (d : Dev) (n q : Nat) {x : EgQ} (h : x.items = (d.egAt n q).items) : Dev.SameItems n d (d.egSet n q x) := by
  refine ⟨⟨_, rfl⟩, fun k => ?_⟩
  by_cases hk : k = q
  · rw [hk, Dev.egAt_egSet_same, h]
  · rw [Dev.egAt_egSet_other _ _ _ hk]

theorem Dev.sameItems_qRefresh (d : Dev) (n q : Nat) : Dev.SameItems n d (d.qRefresh n q) := d.sameItems_egSet n q rfl

theorem Dev.sameItems_qRefreshAll (d : Dev) (n : Nat) (qs : List Nat) : Dev.SameItems n d (d.qRefreshAll n qs) := by
  induction qs generalizing d with
  | nil => exact .refl n d
  | cons q qs ih => exact (d.sameItems_qRefresh n q).trans (ih _)

theorem Dev.sameItems_promoClear (d : Dev) (n : Nat) (qs : List Nat) : Dev.SameItems n d (d.promoClear n qs) := by
  induction qs generalizing d with
  | nil => exact .refl n d
  | cons q qs ih =>
    refine Dev.SameItems.trans ?_ (ih _)
    split
    · exact d.sameItems_egSet n q rfl
    · exact .refl n d

/-- The device that a scheduling decision of port n looks at (R248). -/
def Dev.scheduled (d : Dev) (n : Nat) : Dev := (d.qRefreshAll n (upTo 8)).promoClear n (upTo 8)

theorem Dev.sameItems_scheduled (d : Dev) (n : Nat) : Dev.SameItems n d (d.scheduled n) :=
  (d.sameItems_qRefreshAll n _).trans (Dev.sameItems_promoClear _ n _)

/-! ### A transmission begins (R191, R193, R248) -/

/-- The transmit stamp of a frame is the time unit's, or a count there. -/
theorem Dev.txStamp_rdN (d : Dev) (n : Nat) (it : EgItem) {a : Nat} (h : prtBase ≤ a) : (d.txStamp n it).1.rdN a = d.rdN a := by
  have hcount : ∀ (e : Dev) {k : Nat}, k < 12 → (e.count64 (tmuBase + 0x100 + 8 * k) 1).rdN a = e.rdN a := fun e k hk =>
    Dev.rdN_count64_other e 1 (by unfold prtBase tmuBase at *; omega) (by unfold prtBase tmuBase at *; omega)
  unfold Dev.txStamp
  dsimp only
  (repeat' split) <;> simp only [hcount, Nat.reduceLT] <;> rfl

theorem Dev.txStamp_unmarked {it : EgItem} (h : it.mark = none) (d : Dev) (n : Nat) : d.txStamp n it = (d, it) := by
  unfold Dev.txStamp
  rw [h]

theorem Dev.msEgress_off {d : Dev} {n : Nat} (h : bit (d.rdN (prt n 0x30)) 1 = false) (it : EgItem) : d.msEgress n it = (d, some it) := by
  simp [Dev.msEgress, h]

/-- Without egress MACsec the head of the queue goes into transmission, stamped, and the others stay. -/
theorem Dev.txStart_sends {d : Dev} {n q : Nat} {it : EgItem} {rest : List EgItem} (hitems : (d.egAt n q).items = it :: rest)
    (hoff : bit (d.rdN (prt n 0x30)) 1 = false) (drr promoted : Bool) :
    ((d.txStart n q drr promoted).portAt n).tx = some (q, (d.txStamp n it).2) ∧ ((d.txStart n q drr promoted).egAt n q).items = rest := by
  have hstamped : (d.txStamp n it).1.msEgress n (d.txStamp n it).2 = ((d.txStamp n it).1, some (d.txStamp n it).2) :=
    Dev.msEgress_off (by rw [Dev.txStamp_rdN _ _ _ (by unfold prt; omega)]; exact hoff) _
  simp only [Dev.txStart, hitems, hstamped, Dev.portUpd, Dev.portAt_portSet_same, true_and]
  exact congrArg EgQ.items (Dev.egAt_egSet_same _ _ _ _)

theorem Dev.schedule_strict {d : Dev} {n q : Nat} (hidle : (d.portAt n).tx = none) (hmay : d.mayTx n = true)
    (hpromo : (upTo 8).find? (fun k => ((d.scheduled n).egAt n k).promo.isSome) = none) (hstarved : (d.scheduled n).starvedPick n = none)
    (hpick : (d.scheduled n).strictPick n 2 = some q) : d.schedule n = (d.scheduled n).txStart n q false false := by
  unfold Dev.scheduled at *
  simp only [Dev.schedule, hidle, hmay, hpromo, hstarved, hpick, Option.isSome_none, Bool.not_true, Bool.or_self, Bool.false_eq_true, if_false]

/-! ### What follows the end of a frame (R186, R237) -/

/-- The transmitter of port n is idle and no pause frame waits for it. -/
def Dev.Idle (d : Dev) (n : Nat) : Prop := (d.portAt n).tx = none ∧ (d.portAt n).ctl = []

/-- Port n, where it was idle, still is, and what has been sent stays sent. -/
structure Dev.StaysIdle (n : Nat) (d e : Dev) : Prop where
  idle : d.Idle n → e.Idle n
  sent : d.out <:+ e.out

theorem Dev.StaysIdle.refl (n : Nat) (d : Dev) : Dev.StaysIdle n d d := ⟨id, List.suffix_rfl⟩

theorem Dev.StaysIdle.trans {n : Nat} {d e f : Dev} (h : Dev.StaysIdle n d e) (g : Dev.StaysIdle n e f) : Dev.StaysIdle n d f :=
  ⟨fun hd => g.idle (h.idle hd), h.sent.trans g.sent⟩

/-- A step that may be taken. -/
theorem Dev.StaysIdle.perhaps {n : Nat} {d e f : Dev} (h : Dev.StaysIdle n d e) (g : Dev.StaysIdle n e f) (c : Prop) [Decidable c] :
    Dev.StaysIdle n d (if c then f else e) := by
  split
  · exact h.trans g
  · exact h

theorem Dev.staysIdle_of_flow (n : Nat) {d e : Dev} (hflow : e.flow = d.flow) (hout : d.out <:+ e.out) : Dev.StaysIdle n d e :=
  ⟨fun h => by rwa [Dev.Idle, Dev.portAt_of_flow hflow], hout⟩

theorem Dev.staysIdle_portSet (d : Dev) (n m : Nat) {x : PortSt} (h : d.Idle m → x.tx = none ∧ x.ctl = []) :
    Dev.StaysIdle n d (d.portSet m x) := by
  refine ⟨fun hd => ?_, List.suffix_rfl⟩
  by_cases hm : n = m
  · subst hm
    rw [Dev.Idle, Dev.portAt_portSet_same]
    exact h hd
  · rwa [Dev.Idle, Dev.portAt_portSet_other _ _ hm]

theorem Dev.staysIdle_onLane (d : Dev) (n : Nat) (o : Out) : Dev.StaysIdle n d (d.onLane o) := by
  refine Dev.staysIdle_of_flow n (d.onLane_flow o) ?_
  unfold Dev.onLane
  split
  · exact List.suffix_rfl
  · exact List.suffix_cons _ _

theorem Dev.onLane_out {d : Dev} (h : d.flow.failsafe = false) (o : Out) : (d.onLane o).out = o :: d.out := by
  rw [Dev.onLane, h]
  rfl

theorem Dev.staysIdle_count64 (d : Dev) (n k x : Nat) : Dev.StaysIdle n d (d.count64 k x) :=
  Dev.staysIdle_of_flow n rfl (by rw [Dev.count64_out])

theorem Dev.staysIdle_pauseEmit (d : Dev) (n m i quanta : Nat) : Dev.StaysIdle n d (d.pauseEmit m i quanta) :=
  (d.staysIdle_count64 n _ 1).trans (Dev.staysIdle_onLane _ n _)

/-- A pause frame waits only where a frame is in flight. -/
theorem Dev.staysIdle_sendPause (d : Dev) (n m i quanta : Nat) : Dev.StaysIdle n d (d.sendPause m i quanta) := by
  unfold Dev.sendPause
  split
  case isTrue hbusy =>
    refine d.staysIdle_portSet n m (fun hidle => ?_)
    rw [hidle.1] at hbusy
    cases hbusy
  case isFalse => exact d.staysIdle_pauseEmit n m i quanta

theorem Dev.staysIdle_pauseList (d : Dev) (n m : Nat) (ps : List (Nat × Nat)) : Dev.StaysIdle n d (d.pauseList m ps) := by
  induction ps generalizing d with
  | nil => exact .refl n d
  | cons p ps ih => exact (d.staysIdle_pauseEmit n m p.1 p.2).trans (ih _)

theorem Dev.sameFrames_pauseList (d : Dev) (n : Nat) (ps : List (Nat × Nat)) : d.SameFrames (d.pauseList n ps) := by
  induction ps generalizing d with
  | nil => exact .refl d
  | cons p ps ih => exact (d.sameFrames_pauseEmit n p.1 p.2).trans (ih _)

theorem Dev.staysIdle_alarmSet (d : Dev) (n code inst : Nat) (set : Bool) (detail : Nat) (force : Bool) :
    Dev.StaysIdle n d (d.alarmSet code inst set detail force) :=
  Dev.staysIdle_of_flow n (by simp [Dev.flow_eq]) (by rw [Dev.alarmSet_out])

theorem Dev.staysIdle_pauseCheck1 (d : Dev) (n m i : Nat) : Dev.StaysIdle n d (d.pauseCheck1 m i) := by
  unfold Dev.pauseCheck1
  refine (((d.staysIdle_portSet n m ?_).perhaps (Dev.staysIdle_sendPause _ n m _ _) _).perhaps
    (Dev.staysIdle_sendPause _ n m _ _) _).perhaps (Dev.staysIdle_alarmSet _ n _ _ _ _ _) _
  exact fun hidle => hidle

theorem Dev.staysIdle_pauseCheck (d : Dev) (n m : Nat) : Dev.StaysIdle n d (d.pauseCheck m) := by
  unfold Dev.pauseCheck
  induction d.fcIndexes m generalizing d with
  | nil => exact .refl n d
  | cons i is ih => exact (d.staysIdle_pauseCheck1 n m i).trans (ih _)

theorem Dev.staysIdle_freePkt (d : Dev) (n i : Nat) : Dev.StaysIdle n d (d.freePkt i) := by
  unfold Dev.freePkt
  dsimp only
  split
  · refine Dev.StaysIdle.trans ?_ (Dev.staysIdle_pauseCheck _ n _)
    exact ⟨id, List.suffix_rfl⟩
  · exact ⟨id, List.suffix_rfl⟩

theorem Dev.staysIdle_dropItem (d : Dev) (n : Nat) (it : EgItem) : Dev.StaysIdle n d (d.dropItem it) := by
  unfold Dev.dropItem
  split <;> exact ⟨id, List.suffix_rfl⟩

/-- The counters of a port below TX_PAUSE stand apart from what a freed packet writes. -/
theorem Dev.freePkt_rd64 (d : Dev) (i : Nat) (n : Fin 32) {off : Nat} (h : off < 0x15C) : (d.freePkt i).rd64 (prt n off) = d.rd64 (prt n off) := by
  unfold Dev.freePkt
  dsimp only
  split
  · rw [(Dev.sameFrames_pauseCheck _ _).low64 (by rw [prt_mod _ (by omega)]; exact h)]
    refine Dev.rd64_of_rdN (Dev.rdN_wrN_other _ _ (prt_ne_portBuf n (by omega) _ _)) (Dev.rdN_wrN_other _ _ ?_)
    exact prt_ne_portBuf n (off := off + 4) (by omega) _ _
  · rfl

/-! ### The end of a frame (R191, R237) -/

/-- What a frame sends as it ends. -/
def EgItem.output (it : EgItem) (n q : Nat) : Out :=
  match it.pkt with
  | some i => .frame n q i it.data it.bad
  | none => .frameBytes n it.data

/-- The device in which the transmitter of port n is idle again, with no pause frame waiting. -/
def Dev.txIdled (d : Dev) (n : Nat) : Dev := (d.qRefreshAll n (upTo 8)).portUpd n (fun p => { p with tx := none, ctl := [] })

/-- The device in which the frame of the item that left port n has been counted. -/
def Dev.txCounted (d : Dev) (n q : Nat) (it : EgItem) : Dev :=
  ((((d.txIdled n).prtCount n 10 1).prtCount n 11 it.len).count64 (gntQ n q 0x30) 1).count64 (gntQ n q 0x38) it.len

theorem Dev.count64_flow (d : Dev) (k x : Nat) : (d.count64 k x).flow = d.flow := rfl

theorem Dev.txIdled_idle (d : Dev) (n : Nat) : (d.txIdled n).Idle n := by
  rw [Dev.Idle, Dev.txIdled, Dev.portUpd, Dev.portAt_portSet_same]
  exact ⟨rfl, rfl⟩

theorem Dev.txCounted_flow (d : Dev) (n q : Nat) (it : EgItem) : (d.txCounted n q it).flow = (d.txIdled n).flow := by
  rw [Dev.txCounted, Dev.count64_flow, Dev.count64_flow, Dev.prtCount_flow, Dev.prtCount_flow]

theorem Dev.txCounted_idle (d : Dev) (n q : Nat) (it : EgItem) : (d.txCounted n q it).Idle n := by
  rw [Dev.Idle, Dev.portAt_of_flow (d.txCounted_flow n q it)]
  exact d.txIdled_idle n

theorem Dev.txCounted_out (d : Dev) (n q : Nat) (it : EgItem) : (d.txCounted n q it).out = d.out := by
  obtain ⟨t, hrefresh⟩ := (d.sameItems_qRefreshAll n (upTo 8)).rest
  rw [Dev.txCounted, Dev.count64_out, Dev.count64_out, Dev.prtCount, Dev.count64_out, Dev.prtCount, Dev.count64_out, Dev.txIdled, hrefresh]
  rfl

theorem Dev.txCounted_failsafe (d : Dev) (n q : Nat) (it : EgItem) : (d.txCounted n q it).flow.failsafe = d.flow.failsafe := by
  obtain ⟨t, hrefresh⟩ := (d.sameItems_qRefreshAll n (upTo 8)).rest
  rw [Dev.txCounted_flow, Dev.txIdled, hrefresh]
  rfl

theorem Dev.txCounted_count (d : Dev) (n : Fin 32) (q : Nat) (it : EgItem) :
    (d.txCounted n q it).rd64 (prt n 0x150) = (d.rd64 (prt n 0x150) + 1) % 2 ^ 64 := by
  obtain ⟨t, hrefresh⟩ := (d.sameItems_qRefreshAll n (upTo 8)).rest
  have hbelow : prt n 0x150 + 4 < gntBase := prt_lt_gntBase n (off := 0x154) (by decide)
  have hqueue : ∀ (e : Dev) (off x : Nat), (e.count64 (gntQ n q off) x).rd64 (prt n 0x150) = e.rd64 (prt n 0x150) := fun e off x =>
    e.rd64_wr64_other _ (by unfold gntQ; omega)
  rw [Dev.txCounted, hqueue, hqueue, Dev.rd64_prtCount_other _ _ _ _ (by decide) (by decide) (by decide), Dev.txIdled, hrefresh]
  exact Dev.rd64_prtCount_same _ n 10 1

/-- The device in which the frame has been sent and its item dropped, the waiting pause frames after it. -/
def Dev.txSent (d : Dev) (n q : Nat) (it : EgItem) : Dev :=
  (((d.txCounted n q it).onLane (it.output n q)).dropItem it).pauseList n (d.portAt n).ctl

theorem Dev.txEnd_whole {d : Dev} {n q : Nat} {it : EgItem} (htx : (d.portAt n).tx = some (q, it)) (hwhole : d.whole it = true) :
    d.txEnd n = d.txSent n q it ∨ ∃ i, d.txEnd n = (d.txSent n q it).freePkt i := by
  have hends : ¬d.whole it = false := by simp [hwhole]
  simp only [Dev.txEnd, htx, if_neg hends]
  cases hpkt : it.pkt with
  | none =>
    left
    simp only [Dev.txSent, EgItem.output, hpkt]
    rfl
  | some i =>
    dsimp only
    split
    · right
      refine ⟨i, ?_⟩
      simp only [Dev.txSent, EgItem.output, hpkt]
      rfl
    · left
      simp only [Dev.txSent, EgItem.output, hpkt]
      rfl

theorem Dev.txEnd_arriving {d : Dev} {n q : Nat} {it : EgItem} (htx : (d.portAt n).tx = some (q, it)) (hwhole : d.whole it = false) :
    d.txEnd n = d := by
  simp only [Dev.txEnd, htx, hwhole, if_true]

/-- What follows a frame's own output and count: the port stays idle, the output stays in its place, the count as it is. -/
theorem Dev.txEnd_follows {d : Dev} {n : Fin 32} {q : Nat} {it : EgItem} (htx : (d.portAt n).tx = some (q, it)) (hwhole : d.whole it = true) :
    Dev.StaysIdle n ((d.txCounted n q it).onLane (it.output n q)) (d.txEnd n) ∧
    (d.txEnd n).rd64 (prt n 0x150) = (d.txCounted n q it).rd64 (prt n 0x150) := by
  have hidle : Dev.StaysIdle n ((d.txCounted n q it).onLane (it.output n q)) (d.txSent n q it) :=
    (Dev.staysIdle_dropItem _ n it).trans (Dev.staysIdle_pauseList _ n n _)
  have hcount : (d.txSent n q it).rd64 (prt n 0x150) = (d.txCounted n q it).rd64 (prt n 0x150) := by
    have hregs : (((d.txCounted n q it).onLane (it.output n q)).dropItem it).regs = ((d.txCounted n q it).onLane (it.output n q)).regs :=
      (Dev.dropItem_leaves _ it).1
    have hlow : prt n 0x150 % 0x1000 < 0x15C := by rw [prt_mod _ (by decide)]; decide
    rw [Dev.txSent, (Dev.sameFrames_pauseList _ _ _).low64 hlow, Dev.rd64_of_rdN (Dev.rdN_of_regs hregs _) (Dev.rdN_of_regs hregs _),
      (Dev.sameFrames_onLane _ _).low64 hlow]
  obtain hend | ⟨i, hend⟩ := Dev.txEnd_whole htx hwhole
  · rw [hend]
    exact ⟨hidle, hcount⟩
  · rw [hend, Dev.freePkt_rd64 _ _ _ (by decide)]
    exact ⟨hidle.trans (Dev.staysIdle_freePkt _ n i), hcount⟩

/-- What was sent first after a record of outputs stands at the record's length. -/
theorem sent_at_length {o : Out} {os all : List Out} (h : o :: os <:+ all) : all.reverse[os.length]? = some o := by
  obtain ⟨later, rfl⟩ := h
  simp

theorem Dev.txEnd_sends {d : Dev} {n : Fin 32} {q : Nat} {it : EgItem} (htx : (d.portAt n).tx = some (q, it)) (hwhole : d.whole it = true)
    (hfailsafe : d.flow.failsafe = false) :
    ((d.txEnd n).portAt n).tx = none ∧ (d.txEnd n).out.reverse[d.out.length]? = some (it.output n q) ∧ ((d.txEnd n).portAt n).ctl = [] ∧
    (d.txEnd n).rd64 (prt n 0x150) = (d.rd64 (prt n 0x150) + 1) % 2 ^ 64 := by
  obtain ⟨hfollows, hcount⟩ := Dev.txEnd_follows htx hwhole
  obtain ⟨hdone, hwaiting⟩ := ((Dev.staysIdle_onLane _ n _).trans hfollows).idle (d.txCounted_idle n q it)
  have hsent := hfollows.sent
  rw [Dev.onLane_out ((d.txCounted_failsafe n q it).trans hfailsafe), Dev.txCounted_out] at hsent
  exact ⟨hdone, sent_at_length hsent, hwaiting, hcount.trans (d.txCounted_count n q it)⟩

/-! ### Starvation and the queue record (R247, R249) -/

theorem Dev.queueStarved_ages {d : Dev} {n q : Nat} (hlim : bits (d.rdN (gntBase + 0x800 + 4 * n)) 15 0 ≠ 0)
    (hband : (d.qRefresh n q).qBand n q ((d.qRefresh n q).egAt n q) ≠ 0) :
    (d.queueStarved n q).egAt n q = { (d.qRefresh n q).egAt n q with
      age := max ((d.qRefresh n q).egAt n q).age ((bits (d.rdN (gntBase + 0x800 + 4 * n)) 15 0 + 1) * 10000) } := by
  have hstarves : ¬(bits (d.rdN (gntBase + 0x800 + 4 * n)) 15 0 = 0 ∨ (d.qRefresh n q).qBand n q ((d.qRefresh n q).egAt n q) = 0) :=
    not_or.2 ⟨hlim, hband⟩
  simp only [Dev.queueStarved, if_neg hstarves, Dev.egAt_egSet_same]

/-- A queue x with the credits that a write of its record gives it. -/
def EgQ.reset (x : EgQ) (w : List Nat) : EgQ :=
  { x with cc := if bit (w.getD 0 0) 1 then (bits (w.getD 3 0) 23 0 : Int) * 2 ^ 24 else 0,
           cp := if bit (w.getD 0 0) 1 then (bits (w.getD 4 0) 23 0 : Int) * 2 ^ 24 else 0, d := 0 }

/-- The device in which queue q of port n is brought to the present and the words of its record are written. -/
def Dev.recordPut (d : Dev) (n q : Nat) (w : List Nat) : Dev := (d.qRefresh n q).wordsPut (gntQ n q 0) (fun k => w.getD k 0) 7

theorem Dev.queueWrite_eq (d : Dev) (n q : Nat) (w : List Nat) :
    d.queueWrite n q w = (d.recordPut n q w).egSet n q (((d.recordPut n q w).egAt n q).reset w) :=
  rfl

theorem gntQ_word (n q k : Nat) : gntQ n q (4 * k) = gntQ n q 0 + 4 * k := rfl

theorem Dev.egSet_regs (d : Dev) (n q : Nat) (x : EgQ) : (d.egSet n q x).regs = d.regs := rfl

theorem Dev.queueWrite_words (d : Dev) (n q : Nat) (w : List Nat) {k : Nat} (h : k < 7) :
    (d.queueWrite n q w).rdN (gntQ n q (4 * k)) = w.getD k 0 % 2 ^ 32 := by
  rw [Dev.queueWrite_eq, Dev.rdN_of_regs (Dev.egSet_regs _ _ _ _), gntQ_word, Dev.recordPut, Dev.rdN_wordsPut_inside _ _ _ h]

theorem Dev.queueWrite_queue (d : Dev) (n q : Nat) (w : List Nat) : (d.queueWrite n q w).egAt n q = ((d.qRefresh n q).egAt n q).reset w := by
  rw [Dev.queueWrite_eq, Dev.egAt_egSet_same, Dev.recordPut, Dev.egAt_of_flow (Dev.wordsPut_flow _ _ _ _)]

/-! ### The obligation -/

/-- Settles O34: the strict pick is one branch of the decision, and its queue holds the same items when it is brought to the present; the end
of a frame counts and sends it before all that may follow, which leaves the port idle, the output in its place and the count as it is; the
other clauses are the queue and the words that their operation writes. -/
theorem theSchedulerSendsAndFrames : Obligations.TheSchedulerSendsAndFrames := by
  unfold Obligations.TheSchedulerSendsAndFrames
  refine ⟨?strict, ?ended, ?freed, ?starved, ?written, ?arriving⟩
  case strict =>
    intro s n q it rest ha hidle hmay hpromo hstarved hpick hitems hoff
    have hsame := s.dev.sameItems_scheduled n
    have hmacsec : (s.dev.scheduled n).rdN (prt n 0x30) = s.dev.rdN (prt n 0x30) := by
      obtain ⟨t, heq⟩ := hsame.rest
      rw [heq]
      rfl
    obtain ⟨htx, hrest⟩ := Dev.txStart_sends ((hsame.items q).trans hitems) (by rw [hmacsec]; exact hoff) false false
    refine ⟨_, Machine.exec_scheduleDecision_alive ha n, ?_⟩
    dsimp only
    rw [Dev.schedule_strict hidle hmay hpromo hstarved hpick, htx]
    exact ⟨rfl, rfl, hrest, fun hmark => by rw [Dev.txStamp_unmarked hmark]⟩
  case ended =>
    intro s n q it ha htx hwhole hfailsafe _
    exact ⟨_, Machine.exec_frameRelease_port ha n, Dev.txEnd_sends htx hwhole hfailsafe⟩
  case freed =>
    intro s i ha hfind
    refine ⟨_, Machine.exec_frameRelease_idle ha, ?_⟩
    simp only [Dev.freeIdle, hfind]
    exact s.dev.freePkt_gone i
  case starved =>
    intro s n q ha hlim hband
    refine ⟨_, Machine.exec_queueStarved_alive ha n q, ?_⟩
    dsimp only
    rw [Dev.queueStarved_ages hlim hband]
    exact ⟨Nat.le_max_right _ _, s.dev.qRefresh_items n q⟩
  case written =>
    intro s n q w ha hready hheld
    refine ⟨_, Machine.exec_queueRecordWrite_fw ha hready hheld n q w, fun k => s.dev.queueWrite_words n q w, ?_⟩
    dsimp only
    rw [Dev.queueWrite_queue]
    exact ⟨rfl, rfl, rfl, s.dev.qRefresh_items n q⟩
  case arriving =>
    intro s n q it ha htx hwhole
    exact ⟨_, Machine.exec_frameRelease_port ha n, by rw [Dev.txEnd_arriving htx hwhole]⟩

end Sys2Proof
end

section
/-! The tree engine of chapter 10: what a scoring operation leaves of packets, score queues, records and registers, then one lemma for each
branch of admission, grant, delivery, reload and scrub; from these the obligation O32. -/

namespace Sys2Proof

/-! ### The commands are their operations -/

theorem Machine.exec_scoreAdmit_alive {s : Machine.State} (ha : s.dev.alive = true) :
    Machine.exec .scoreAdmit s = .next { s with dev := s.dev.scoreAdmit } :=
  Machine.live_next ha (fun d => d.scoreAdmit)

theorem Machine.exec_dropEnd_alive {s : Machine.State} (ha : s.dev.alive = true) (e : Fin 64) :
    Machine.exec (.dropEnd e) s = .next { s with dev := s.dev.dropEnd e } :=
  Machine.live_next ha (fun d => d.dropEnd e)

theorem Machine.exec_scoreGrant_alive {s : Machine.State} (ha : s.dev.alive = true) :
    Machine.exec .scoreGrant s = .next { s with dev := s.dev.scoreGrant } :=
  Machine.live_next ha (fun d => d.scoreGrant)

theorem Machine.exec_scoreDeliver_alive {s : Machine.State} (ha : s.dev.alive = true) (err : Option (Fin 8192 × Bool)) :
    Machine.exec (.scoreDeliver err) s = .next { s with dev := s.dev.scoreDeliver (err.map (fun x => (x.1.val, x.2))) } :=
  Machine.live_next ha (fun d => d.scoreDeliver (err.map (fun x : Fin 8192 × Bool => (x.1.val, x.2))))

theorem Machine.exec_slotReloadDone_alive {s : Machine.State} (ha : s.dev.alive = true) (slot : Fin 8192) :
    Machine.exec (.slotReloadDone slot) s = .next { s with dev := s.dev.slotReloaded slot } :=
  Machine.live_next ha (fun d => d.slotReloaded slot)

theorem Machine.exec_fabricScrub_alive {s : Machine.State} (ha : s.dev.alive = true) (err : Ecc) :
    Machine.exec (.fabricScrub err) s = .next { s with dev := s.dev.fabricScrub err } :=
  Machine.live_next ha (fun d => d.fabricScrub err)

/-! ### Counters, reports and events of the block (R9, R277) -/

@[simp] theorem Dev.treCount_flow (d : Dev) (k n : Nat) : (d.treCount k n).flow = d.flow := rfl
@[simp] theorem Dev.treeEvent_flow (d : Dev) (owner code ens n det : Nat) : (d.treeEvent owner code ens n det).flow = d.flow :=
  Dev.catPut_flow d _
@[simp] theorem Dev.reportNamed_flow (d : Dev) (src cls p det : Nat) : (d.reportNamed src cls p det).flow = d.flow := by
  simp [Dev.flow_eq]

theorem Dev.rd64_treCount_same (d : Dev) (k n : Nat) :
    (d.treCount k n).rd64 (treBase + 0x1000 + 8 * k) = (d.rd64 (treBase + 0x1000 + 8 * k) + n) % 2 ^ 64 :=
  Dev.rd64_count64_same d _ n

theorem Dev.rd_treCount_other (d : Dev) (n : Nat) {k a : Nat} (h : a < treBase + 0x1000 + 8 * k ∨ treBase + 0x1000 + 8 * k + 8 ≤ a) :
    (d.treCount k n).rd a = d.rd a :=
  d.rd_count64_other n (by omega) (by omega)

@[simp] theorem Dev.treeEvent_rd (d : Dev) (owner code ens n det a : Nat) : (d.treeEvent owner code ens n det).rd a = d.rd a :=
  Dev.rd_of_regs (Dev.catPut_regs d _) a

/-- A report writes the error log's registers and no others. -/
theorem Dev.rd_reportNamed_tre (d : Dev) (src p det : Nat) {cls a : Nat} (hcls : cls ≤ 3) (ha : treBase ≤ a) :
    (d.reportNamed src cls p det).rd a = d.rd a := by
  unfold Dev.reportNamed
  rw [Dev.rd_report_other _ _ _ _ _ _ hcls (.inr (by unfold treBase at ha; unfold erlBase; omega)), Dev.drawN_rd]

/-- R150: a record whose source has room and holds nothing back enters its FIFO. -/
theorem Dev.catPut_room {d : Dev} {r : CatRec} (hroom : (Tab.get [] d.cat.fifo r.source).length < 8)
    (hhold : Tab.get [] d.cat.hold r.source = []) : Tab.get [] (d.catPut r).cat.fifo r.source = Tab.get [] d.cat.fifo r.source ++ [r] := by
  rw [Dev.catPut]
  dsimp only
  rw [if_pos ⟨hroom, hhold⟩]
  exact Tab.get_set_same _ _ _ _

/-! ### Score queues and records (R254, R268) -/

theorem Dev.sqAt_of_flow {d e : Dev} (h : e.flow = d.flow) (k : Nat) : e.sqAt k = d.sqAt k := by
  rw [Dev.sqAt, h, ← Dev.sqAt]

theorem Dev.recAt_of_recs {d e : Dev} (h : e.flow.recs = d.flow.recs) (r : Nat) : e.recAt r = d.recAt r := by
  rw [Dev.recAt, h, ← Dev.recAt]

@[simp] theorem Dev.sqAt_sqSet_same (d : Dev) (e : Nat) (q : List Nat) : (d.sqSet e q).sqAt e = q := Tab.get_set_same _ _ _ _

theorem Dev.sqAt_sqSet_other (d : Dev) {e k : Nat} (q : List Nat) (h : k ≠ e) : (d.sqSet e q).sqAt k = d.sqAt k :=
  Tab.get_set_other _ _ _ h

@[simp] theorem Dev.sqAt_pktSet (d : Dev) (i : Nat) (p : Pkt) (e : Nat) : (d.pktSet i p).sqAt e = d.sqAt e := rfl
@[simp] theorem Dev.pkt_sqSet (d : Dev) (e : Nat) (q : List Nat) (i : Nat) : (d.sqSet e q).pkt i = d.pkt i := rfl
theorem Dev.sqSet_regs (d : Dev) (e : Nat) (q : List Nat) : (d.sqSet e q).regs = d.regs := rfl
theorem Dev.copyUpd_regs (d : Dev) (r c : Nat) (f : EnsCopy → EnsCopy) : (d.copyUpd r c f).regs = d.regs := rfl

@[simp] theorem Dev.recAt_recSet_same (d : Dev) (r : Nat) (x : EnsRec) : (d.recSet r x).recAt r = x := Tab.get_set_same _ _ _ _

/-- The copies of a record with copy c changed by f. -/
def EnsRec.copyMap (x : EnsRec) (c : Nat) (f : EnsCopy → EnsCopy) : List EnsCopy :=
  (x.copies.zip (upTo x.copies.length)).map (fun a => if a.2 = c then f a.1 else a.1)

theorem EnsRec.copyMap_getD (x : EnsRec) {c : Nat} (f : EnsCopy → EnsCopy) (y : EnsCopy) (h : c < x.copies.length) :
    (x.copyMap c f).getD c y = f (x.copies.getD c y) := by
  simp [EnsRec.copyMap, upTo, List.getD, h]

theorem Dev.recAt_copyUpd (d : Dev) (r c : Nat) (f : EnsCopy → EnsCopy) :
    (d.copyUpd r c f).recAt r = { d.recAt r with copies := (d.recAt r).copyMap c f } :=
  Dev.recAt_recSet_same _ _ _

theorem Dev.pkt_copyUpd (d : Dev) (r c : Nat) (f : EnsCopy → EnsCopy) (i : Nat) : (d.copyUpd r c f).pkt i = d.pkt i := rfl
theorem Dev.sqAt_copyUpd (d : Dev) (r c : Nat) (f : EnsCopy → EnsCopy) (e : Nat) : (d.copyUpd r c f).sqAt e = d.sqAt e := rfl

/-! ### Admission (R268, R277) -/

/-- A packet that is scored without a record or without a copy in service, handed over as number `hand`. -/
def Pkt.unscored (p : Pkt) (hand : Nat) : Pkt :=
  { p with s := 0, k := 0, fs := false, grant := none, lsat := false, fssat := 0, stage := .granted, hand := hand }

theorem Dev.scoreNone_pkt (d : Dev) (i k : Nat) : (d.scoreNone i k).pkt i = (d.pkt i).unscored d.flow.hands := by
  rw [Dev.scoreNone, Dev.pkt_pktUpd_same, Dev.pkt_nextHand, Dev.pkt_of_flow (Dev.treCount_flow _ _ _), Pkt.unscored]

theorem Dev.scoreNone_regs (d : Dev) (i k : Nat) : (d.scoreNone i k).regs = (d.treCount k 1).regs := by
  rw [Dev.scoreNone, Dev.pktUpd_regs, Dev.nextHand_regs]

theorem Dev.scoreNone_counts (d : Dev) (i k : Nat) :
    (d.scoreNone i k).rd64 (treBase + 0x1000 + 8 * k) = (d.rd64 (treBase + 0x1000 + 8 * k) + 1) % 2 ^ 64 := by
  have hregs : ∀ a, (d.scoreNone i k).rd a = (d.treCount k 1).rd a := Dev.rd_of_regs (d.scoreNone_regs i k)
  rw [Dev.rd64_of_rd (hregs _) (hregs _), Dev.rd64_treCount_same]

section
variable {d : Dev} {i : Nat} (hturn : d.turn .policed = some i)
include hturn

theorem Dev.scoreAdmit_recordless (hrec : d.ensRecord (bits (d.pkt i).res 175 170) (d.pkt i).ver = none) :
    d.scoreAdmit = d.scoreNone i 2 := by
  simp only [Dev.scoreAdmit, hturn, hrec]

variable {r : Nat} (hrec : d.ensRecord (bits (d.pkt i).res 175 170) (d.pkt i).ver = some r)
include hrec

theorem Dev.scoreAdmit_copyless (hcopies : (d.recAt r).copies.any d.copyOk = false) : d.scoreAdmit = d.scoreNone i 8 := by
  simp [Dev.scoreAdmit, hturn, hrec, hcopies]

theorem Dev.scoreAdmit_queues (hcopies : (d.recAt r).copies.any d.copyOk = true)
    (hlimit : (d.sqAt (bits (d.pkt i).res 175 170)).length < (d.recAt r).sqlim) (hpool : d.poolUsed < 65536) :
    d.scoreAdmit = (d.pktSet i { d.pkt i with stage := .queued }).sqSet (bits (d.pkt i).res 175 170)
      (d.sqAt (bits (d.pkt i).res 175 170) ++ [i]) := by
  simp [Dev.scoreAdmit, hturn, hrec, hcopies, hlimit, hpool]

theorem Dev.scoreAdmit_refuses (hcopies : (d.recAt r).copies.any d.copyOk = true)
    (hfull : (d.recAt r).sqlim ≤ (d.sqAt (bits (d.pkt i).res 175 170)).length ∨ 65536 ≤ d.poolUsed) :
    d.scoreAdmit = ((d.scoreDrop (d.recAt r)).seqGap (d.pkt i).port (d.pkt i).seq).pktGone i := by
  have hno : ¬((d.sqAt (bits (d.pkt i).res 175 170)).length < (d.recAt r).sqlim ∧ d.poolUsed < 65536) := by omega
  simp only [Dev.scoreAdmit, hturn, hrec, hcopies, if_neg hno]
  rfl

end

@[simp] theorem Dev.sqAt_seqGap (d : Dev) (n s e : Nat) : (d.seqGap n s).sqAt e = d.sqAt e := rfl

@[simp] theorem Dev.sqAt_pktGone (d : Dev) (i e : Nat) : (d.pktGone i).sqAt e = d.sqAt e := by
  unfold Dev.pktGone Dev.leaveVer
  dsimp only
  split <;> rfl

/-- R277: a refusal writes the drop runs of the flow plane and nothing else of it. -/
theorem Dev.scoreDrop_flow (d : Dev) (x : EnsRec) : ∃ runs, (d.scoreDrop x).flow = { d.flow with drops := runs } := by
  have hcounted : (((d.treCount 3 1).count (treBase + 0x108 + 0x10 * x.ens) 1).event (treBase + 0x0C) 0).flow = d.flow := by
    rw [Dev.event_flow]
    rfl
  unfold Dev.scoreDrop
  dsimp only
  split
  · exact ⟨_, by rw [hcounted]⟩
  · exact ⟨_, by rw [Dev.treeEvent_flow, hcounted]⟩

@[simp] theorem Dev.sqAt_scoreDrop (d : Dev) (x : EnsRec) (e : Nat) : (d.scoreDrop x).sqAt e = d.sqAt e := by
  obtain ⟨runs, hflow⟩ := d.scoreDrop_flow x
  rw [Dev.sqAt, hflow]
  rfl

theorem Dev.dropEnd_ends {d : Dev} {e n at_ own : Nat} (h : Tab.get none d.flow.drops e = some (n, at_, own)) :
    d.dropEnd e = { d with flow := { d.flow with drops := Tab.del d.flow.drops e } }.treeEvent own 2 e n 0 := by
  simp only [Dev.dropEnd, h]

/-! ### Grants (R258, R269) -/

/-- Packet i as it is granted copy c of record r: scored on the features that stand now. -/
def Dev.grantedPkt (d : Dev) (i r c : Nat) : Pkt :=
  let v := d.scorePkt (d.pkt i) (d.recAt r)
  { d.pkt i with stage := .granted, hand := d.flow.hands, grant := some (r, c), s := v.1, k := v.2.1, fs := v.2.2.1,
                 lsat := v.2.2.2.1, fssat := v.2.2.2.2 }

theorem Dev.quadsCounted_flow (d : Dev) (qs : List Nat) : (qs.foldl (fun (z : Dev) q => z.treCount (9 + q) 1) d).flow = d.flow := by
  induction qs generalizing d with
  | nil => rfl
  | cons q qs ih => exact ih (d.treCount (9 + q) 1)

/-- A grant moves the hand-over count, the head of one queue and one packet; beside them it counts in its quadrants. -/
theorem Dev.grantHead_flow (d : Dev) (e i r c : Nat) :
    (d.grantHead e i r c).flow = ((d.nextHand.sqSet e (d.sqAt e).tail).pktSet i (d.grantedPkt i r c)).flow := by
  unfold Dev.grantHead
  dsimp only
  split
  · rfl
  · exact Dev.quadsCounted_flow _ _

theorem Dev.grantHead_pkt (d : Dev) (e i r c : Nat) : (d.grantHead e i r c).pkt i = d.grantedPkt i r c := by
  rw [Dev.pkt_of_flow (d.grantHead_flow e i r c), Dev.pkt_pktSet_same]

theorem Dev.sqAt_grantHead_same (d : Dev) (e i r c : Nat) : (d.grantHead e i r c).sqAt e = (d.sqAt e).tail := by
  rw [Dev.sqAt_of_flow (d.grantHead_flow e i r c), Dev.sqAt_pktSet, Dev.sqAt_sqSet_same]

theorem Dev.sqAt_grantHead_other (d : Dev) {e k : Nat} (i r c : Nat) (h : k ≠ e) : (d.grantHead e i r c).sqAt k = d.sqAt k := by
  rw [Dev.sqAt_of_flow (d.grantHead_flow e i r c), Dev.sqAt_pktSet, Dev.sqAt_sqSet_other _ _ h]
  rfl

theorem Dev.grantEns_empty {d : Dev} {e : Nat} (h : d.sqAt e = []) (n : Nat) (free : List Nat) : d.grantEns e n free = (d, free) := by
  cases n with
  | zero => rfl
  | succ n => simp only [Dev.grantEns, h]

theorem Dev.grantEns_single {d : Dev} {e i r n : Nat} {c : EnsCopy} {free : List Nat} (hqueue : d.sqAt e = [i])
    (hrec : d.ensRecord e (d.pkt i).ver = some r) (hcopies : (d.recAt r).copies = [c]) (hok : d.copyOk c = true)
    (hfree : c.quads.all (fun q => free.contains q) = true) : (d.grantEns e (n + 1) free).1 = d.grantHead e i r 0 := by
  have hafter : (d.grantHead e i r 0).sqAt e = [] := by rw [Dev.sqAt_grantHead_same, hqueue, List.tail_cons]
  have hcopy : (upTo [c].length).find? (fun k =>
      d.copyOk ([c].getD k { quads := [], first := [] }) &&
        ([c].getD k { quads := [], first := [] }).quads.all (fun q => free.contains q)) = some 0 := by
    rw [List.length_singleton, upTo, List.range_one, List.find?_singleton, List.getD_cons_zero, hok, hfree]
    rfl
  simp only [Dev.grantEns, hqueue, hrec, hcopies, hcopy, Dev.grantEns_empty hafter]

theorem Dev.grantFrom_empty {d : Dev} {es : List Nat} (h : ∀ k ∈ es, d.sqAt k = []) (free : List Nat) : d.grantFrom es free = d := by
  induction es with
  | nil => rfl
  | cons k es ih =>
    rw [Dev.grantFrom, Dev.grantEns_empty (h k List.mem_cons_self)]
    exact ih (fun j hj => h j (List.mem_cons_of_mem k hj))

/-- One ensemble's queue holds an event, no other does, and after its grants none does. -/
theorem Dev.grantFrom_one {d : Dev} {e : Nat} {es free : List Nat} (hin : e ∈ es) (hothers : ∀ k ∈ es, k ≠ e → d.sqAt k = [])
    (hafter : ∀ k ∈ es, (d.grantEns e 4 free).1.sqAt k = []) : d.grantFrom es free = (d.grantEns e 4 free).1 := by
  induction es with
  | nil => cases hin
  | cons k es ih =>
    rw [Dev.grantFrom]
    by_cases hk : k = e
    · rw [hk]
      exact Dev.grantFrom_empty (fun j hj => hafter j (List.mem_cons_of_mem k hj)) _
    · rw [Dev.grantEns_empty (hothers k List.mem_cons_self hk)]
      exact ih ((List.mem_cons.1 hin).resolve_left (Ne.symm hk)) (fun j hj => hothers j (List.mem_cons_of_mem k hj))
        (fun j hj => hafter j (List.mem_cons_of_mem k hj))

/-- The ensembles in the order of one FCLK. -/
def Dev.ensOrder (d : Dev) : List Nat := (upTo 64).map (fun i => (d.flow.sqPtr + i) % 64)

/-- The quadrants free at the beginning of one FCLK: those in service. -/
def Dev.freeQuads (d : Dev) : List Nat := (upTo 4).filter (fun q => bit d.flow.qInSvc q)

theorem Dev.mem_ensOrder (d : Dev) {e : Nat} : e ∈ d.ensOrder ↔ e < 64 := by
  simp only [Dev.ensOrder, upTo, List.mem_map, List.mem_range]
  constructor
  · rintro ⟨i, -, rfl⟩
    exact Nat.mod_lt _ (by decide)
  · intro he
    exact ⟨(e + 64 - d.flow.sqPtr % 64) % 64, Nat.mod_lt _ (by decide), by omega⟩

theorem Dev.copyOk_quads {d : Dev} {c : EnsCopy} (hok : d.copyOk c = true) (hquads : c.quads.all (fun q => decide (q < 4)) = true) :
    c.quads.all (fun q => d.freeQuads.contains q) = true := by
  obtain ⟨-, hserve⟩ := Bool.and_eq_true_iff.1 hok
  refine List.all_eq_true.2 (fun q hq => List.contains_iff_mem.2 (List.mem_filter.2 ⟨?_, List.all_eq_true.1 hserve q hq⟩))
  exact List.mem_range.2 (of_decide_eq_true (List.all_eq_true.1 hquads q hq))

/-- The pointer of the arbiter moves on by one ensemble. -/
def Dev.sqPtrMoved (d : Dev) (ptr : Nat) : Dev := { d with flow := { d.flow with sqPtr := (ptr + 1) % 64 } }

theorem Dev.scoreGrant_eq (d : Dev) : d.scoreGrant = (d.grantFrom d.ensOrder d.freeQuads).sqPtrMoved d.flow.sqPtr := by
  rw [Dev.scoreGrant, Dev.sqPtrMoved, Dev.ensOrder, Dev.freeQuads]

theorem Dev.scoreGrant_single {d : Dev} {e i r : Nat} {c : EnsCopy} (he : e < 64) (hqueue : d.sqAt e = [i])
    (hothers : (upTo 64).all (fun k => decide (k = e) || decide (d.sqAt k = [])) = true)
    (hrec : d.ensRecord e (d.pkt i).ver = some r) (hcopies : (d.recAt r).copies = [c]) (hok : d.copyOk c = true)
    (hquads : c.quads.all (fun q => decide (q < 4)) = true) :
    d.scoreGrant = (d.grantHead e i r 0).sqPtrMoved d.flow.sqPtr := by
  have hempty : ∀ k ∈ d.ensOrder, k ≠ e → d.sqAt k = [] := fun k hk hne => by
    simpa [hne] using List.all_eq_true.1 hothers k (List.mem_range.2 (d.mem_ensOrder.1 hk))
  have hgrant : (d.grantEns e 4 d.freeQuads).1 = d.grantHead e i r 0 :=
    Dev.grantEns_single hqueue hrec hcopies hok (Dev.copyOk_quads hok hquads)
  rw [Dev.scoreGrant_eq, Dev.grantFrom_one (d.mem_ensOrder.2 he) hempty, hgrant]
  intro k hk
  rw [hgrant]
  by_cases hke : k = e
  · rw [hke, Dev.sqAt_grantHead_same, hqueue, List.tail_cons]
  · rw [Dev.sqAt_grantHead_other _ _ _ _ hke, hempty k hk hke]

/-! ### Delivery (R269, R270) -/

/-- The counts of a delivered event: it and its block E, then the saturations of its link function and its front stage. -/
def Dev.deliverCounted (d : Dev) (p : Pkt) : Dev :=
  let d2 := (d.treCount 0 1).treCount 1 (b2n p.fs)
  let d3 := if p.lsat then (d2.treCount 6 1).event (treBase + 0x0C) 3 else d2
  if 0 < p.fssat then (d3.treCount 7 p.fssat).event (treBase + 0x0C) 4 else d3

@[simp] theorem Dev.deliverCounted_flow (d : Dev) (p : Pkt) : (d.deliverCounted p).flow = d.flow := by
  unfold Dev.deliverCounted
  dsimp only
  (repeat' split) <;> simp

/-- The counters behind the first, and TRE_EVENT, lie apart from it. -/
theorem Dev.deliverCounted_rd (d : Dev) (p : Pkt) {a : Nat} (hlo : treBase + 0x1000 ≤ a) (hhi : a < treBase + 0x1008) :
    (d.deliverCounted p).rd a = (d.treCount 0 1).rd a := by
  have hcount : ∀ (e : Dev) (k n : Nat), 1 ≤ k → (e.treCount k n).rd a = e.rd a := fun e k n hk => e.rd_treCount_other n (by omega)
  have hevent : ∀ (e : Dev) (b : Nat), (e.event (treBase + 0x0C) b).rd a = e.rd a := fun e b => e.rd_event_other b (by omega)
  unfold Dev.deliverCounted
  dsimp only
  (repeat' split) <;> simp only [hevent, hcount _ 7 _ (by decide), hcount _ 6 _ (by decide), hcount _ 1 _ (by decide)]

theorem Dev.deliverCounted_counts (d : Dev) (p : Pkt) :
    (d.deliverCounted p).rd64 (treBase + 0x1000) = (d.rd64 (treBase + 0x1000) + 1) % 2 ^ 64 :=
  (Dev.rd64_of_rd (d.deliverCounted_rd p (by decide) (by decide)) (d.deliverCounted_rd p (by decide) (by decide))).trans
    (d.rd64_treCount_same 0 1)

/-- A parity error in slot x.1 meets packet p: the slot is one of the copy that p was granted. -/
def Dev.hitBy (d : Dev) (p : Pkt) (x : Nat × Bool) : Prop := p.grant.isSome = true ∧ d.slotOwner x.1 = p.grant

theorem Dev.scoreDeliver_sound {d : Dev} {i : Nat} {err : Option (Nat × Bool)} (hfirst : d.firstHand .granted = some i)
    (hmiss : ∀ x ∈ err, ¬d.hitBy (d.pkt i) x) :
    d.scoreDeliver err =
      if (d.pkt i).grant.isSome then (d.pktSet i { d.pkt i with stage := .scored }).deliverCounted (d.pkt i)
      else d.pktSet i { d.pkt i with stage := .scored } := by
  cases err with
  | none =>
    simp only [Dev.scoreDeliver, hfirst]
    rfl
  | some x =>
    have hno : ¬((d.pkt i).grant.isSome = true ∧ d.slotOwner x.1 = (d.pkt i).grant) := hmiss x rfl
    simp only [Dev.scoreDeliver, hfirst, if_neg hno]
    rfl

theorem Dev.scoreDeliver_pkt {d : Dev} {i : Nat} {err : Option (Nat × Bool)} (hfirst : d.firstHand .granted = some i)
    (hmiss : ∀ x ∈ err, ¬d.hitBy (d.pkt i) x) : (d.scoreDeliver err).pkt i = { d.pkt i with stage := .scored } := by
  rw [Dev.scoreDeliver_sound hfirst hmiss]
  split
  · rw [Dev.pkt_of_flow (Dev.deliverCounted_flow _ _), Dev.pkt_pktSet_same]
  · exact Dev.pkt_pktSet_same _ _ _

theorem Dev.scoreDeliver_counts {d : Dev} {i : Nat} {err : Option (Nat × Bool)} (hfirst : d.firstHand .granted = some i)
    (hmiss : ∀ x ∈ err, ¬d.hitBy (d.pkt i) x) (hgrant : (d.pkt i).grant.isSome = true) :
    (d.scoreDeliver err).rd64 (treBase + 0x1000) = (d.rd64 (treBase + 0x1000) + 1) % 2 ^ 64 := by
  rw [Dev.scoreDeliver_sound hfirst hmiss, if_pos hgrant]
  exact Dev.deliverCounted_counts _ _

theorem Dev.scoreDeliver_hit {d : Dev} {i s : Nat} {bad : Bool} (hfirst : d.firstHand .granted = some i)
    (hhit : d.hitBy (d.pkt i) (s, bad)) : d.scoreDeliver (some (s, bad)) = d.slotParity s bad (some i) := by
  have hyes : (d.pkt i).grant.isSome = true ∧ d.slotOwner s = (d.pkt i).grant := hhit
  simp only [Dev.scoreDeliver, hfirst, if_pos hyes]

/-! ### Parity errors (R272) -/

/-- The device in which a parity error has been counted and shown. -/
def Dev.parityNoted (d : Dev) : Dev := (d.treCount 4 1).event (treBase + 0x0C) 1

@[simp] theorem Dev.parityNoted_flow (d : Dev) : d.parityNoted.flow = d.flow := by simp [Dev.parityNoted]

theorem Dev.parityNoted_counts (d : Dev) : d.parityNoted.rd64 (treBase + 0x1020) = (d.rd64 (treBase + 0x1020) + 1) % 2 ^ 64 := by
  rw [Dev.parityNoted, Dev.rd64_of_rd (Dev.rd_event_other _ _ (by decide)) (Dev.rd_event_other _ _ (by decide))]
  exact d.rd64_treCount_same 4 1

/-- Event i back at the head of ensemble e's queue, to be granted again. -/
def Dev.eventReturned (d : Dev) (i e : Nat) : Dev :=
  (d.pktUpd i (fun p => { p with stage := .queued, grant := none, regrant := true })).sqSet e (i :: d.sqAt e)

def EnsCopy.reloading (y : EnsCopy) (s : Nat) : EnsCopy := { y with reload := y.reload ++ [s] }

def EnsCopy.takenOut (y : EnsCopy) : EnsCopy := { y with lost := true, reload := [] }

/-- An error that event i meets in slot s of copy c of record r, whose backing copy is sound, before its report. -/
def Dev.parityReturned (d : Dev) (s i r c : Nat) : Dev :=
  (d.parityNoted.eventReturned i (d.recAt r).ens).copyUpd r c (fun y => y.reloading s)

theorem Dev.slotParity_reloads {d : Dev} {s r c : Nat} (howner : d.slotOwner s = some (r, c)) (i : Nat) :
    ∃ own, d.slotParity s false (some i) = (d.parityReturned s i r c).reportNamed 0x0C 1 own s :=
  ⟨_, by simp only [Dev.slotParity, howner]; rfl⟩

theorem Dev.parityReturned_pkt (d : Dev) (s i r c : Nat) :
    (d.parityReturned s i r c).pkt i = { d.pkt i with stage := .queued, grant := none, regrant := true } := by
  rw [← Dev.pkt_of_flow d.parityNoted_flow i, Dev.parityReturned, Dev.pkt_copyUpd, Dev.eventReturned, Dev.pkt_sqSet, Dev.pkt_pktUpd_same]

theorem Dev.parityReturned_queue (d : Dev) (s i r c : Nat) :
    (d.parityReturned s i r c).sqAt (d.recAt r).ens = i :: d.sqAt (d.recAt r).ens := by
  rw [← Dev.sqAt_of_flow d.parityNoted_flow, Dev.parityReturned, Dev.sqAt_copyUpd, Dev.eventReturned, Dev.sqAt_sqSet_same]

theorem Dev.parityReturned_rec (d : Dev) (s i r c : Nat) :
    (d.parityReturned s i r c).recAt r = { d.recAt r with copies := (d.recAt r).copyMap c (fun y => y.reloading s) } := by
  have hsame : (d.parityNoted.eventReturned i (d.recAt r).ens).recAt r = d.recAt r :=
    Dev.recAt_of_recs (congrArg Flow.recs d.parityNoted_flow) r
  rw [Dev.parityReturned, Dev.recAt_copyUpd, hsame]

theorem Dev.parityReturned_rd (d : Dev) (s i r c a : Nat) : (d.parityReturned s i r c).rd a = d.parityNoted.rd a := by
  apply Dev.rd_of_regs
  rw [Dev.parityReturned, Dev.copyUpd_regs, Dev.eventReturned, Dev.sqSet_regs, Dev.pktUpd_regs]

/-- The records, the scrubber's place and TRE_EVENT stand as they were. -/
structure Dev.SameFabric (d e : Dev) : Prop where
  recs : e.flow.recs = d.flow.recs
  scrub : e.flow.scrub = d.flow.scrub
  event : e.rd (treBase + 0x0C) = d.rd (treBase + 0x0C)

theorem Dev.SameFabric.refl (d : Dev) : d.SameFabric d := ⟨rfl, rfl, rfl⟩

theorem Dev.SameFabric.trans {d e f : Dev} (h : d.SameFabric e) (g : e.SameFabric f) : d.SameFabric f :=
  ⟨g.recs.trans h.recs, g.scrub.trans h.scrub, g.event.trans h.event⟩

theorem Dev.sameFabric_sqSet (d : Dev) (e : Nat) (q : List Nat) : d.SameFabric (d.sqSet e q) := ⟨rfl, rfl, rfl⟩

theorem Dev.sameFabric_scoreNone (d : Dev) (i k : Nat) : d.SameFabric (d.scoreNone i k) :=
  ⟨rfl, rfl, (Dev.rd_of_regs (d.scoreNone_regs i k) _).trans (d.rd_treCount_other 1 (by omega))⟩

theorem Dev.sameFabric_failQueued (d : Dev) (e r : Nat) (is : List Nat) : d.SameFabric (d.failQueued e r is) := by
  induction is generalizing d with
  | nil => exact .refl d
  | cons i is ih =>
    rw [Dev.failQueued]
    split
    · exact (d.sameFabric_sqSet e _).trans ((Dev.sameFabric_scoreNone _ i 8).trans (ih _))
    · exact ih d

/-- The device in which a parity error has been noted and copy c of record r taken out of service. -/
def Dev.copyLost (d : Dev) (r c : Nat) : Dev := (d.parityNoted.copyUpd r c EnsCopy.takenOut).event (treBase + 0x0C) 2

theorem Dev.copyLost_flow (d : Dev) (r c : Nat) : (d.copyLost r c).flow = (d.copyUpd r c EnsCopy.takenOut).flow := by
  rw [Dev.copyLost, Dev.event_flow]
  simp only [Dev.copyUpd, Dev.recSet, Dev.recAt, Dev.parityNoted_flow]

/-- The report and the record of a lost copy leave the fabric. -/
theorem Dev.sameFabric_lossNoted (d : Dev) (r c s own o ens n : Nat) :
    (d.copyLost r c).SameFabric (((d.copyLost r c).reportNamed 0x0C 2 own s).treeEvent o 4 ens n s) :=
  ⟨by simp, by simp, by rw [Dev.treeEvent_rd, Dev.rd_reportNamed_tre _ _ _ _ (by decide) (by decide)]⟩

/-- R268: with no copy of record r left, the packets that wait for it are scored without one. -/
def Dev.waitersFailed (d : Dev) (ens r : Nat) : Dev := if d.allLost (d.recAt r) then d.failQueued ens r (d.sqAt ens) else d

theorem Dev.sameFabric_waitersFailed (d : Dev) (ens r : Nat) : d.SameFabric (d.waitersFailed ens r) := by
  unfold Dev.waitersFailed
  split
  · exact d.sameFabric_failQueued ens r _
  · exact .refl d

theorem Dev.slotParity_takesOut {d : Dev} {s r c : Nat} (howner : d.slotOwner s = some (r, c)) :
    ∃ own o n, d.slotParity s true none =
      (((d.copyLost r c).reportNamed 0x0C 2 own s).treeEvent o 4 (d.recAt r).ens n s).waitersFailed (d.recAt r).ens r :=
  ⟨_, _, _, by simp only [Dev.slotParity, howner]; rfl⟩

/-- What follows the loss of a copy, its report, its record and the scores of the waiting packets, leaves the fabric. -/
theorem Dev.sameFabric_slotParity {d : Dev} {s r c : Nat} (howner : d.slotOwner s = some (r, c)) :
    (d.copyLost r c).SameFabric (d.slotParity s true none) := by
  obtain ⟨own, o, n, hparity⟩ := Dev.slotParity_takesOut howner
  rw [hparity]
  exact (d.sameFabric_lossNoted r c s own o _ n).trans (Dev.sameFabric_waitersFailed _ _ r)

/-! ### Reloads and the scrubber (R272) -/

theorem Dev.slotReloaded_ends {d : Dev} {s r c : Nat} (howner : d.slotOwner s = some (r, c))
    (hreload : ((d.recAt r).copies.getD c { quads := [], first := [] }).reload.contains s = true) :
    (d.slotReloaded s).recAt r =
      { d.recAt r with copies := (d.recAt r).copyMap c (fun y => { y with reload := y.reload.filter (fun z => decide (z ≠ s)) }),
                       reloads := (d.recAt r).reloads + 1 } := by
  simp only [Dev.slotReloaded, howner, if_pos hreload]
  rw [Dev.recAt_of_recs (congrArg Flow.recs (Dev.treeEvent_flow _ _ _ _ _ _)), Dev.recAt_recSet_same,
    Dev.recAt_of_recs (congrArg Flow.recs (Dev.treCount_flow _ _ _)), Dev.recAt_copyUpd]

/-- The scrubber at its next slot. -/
def Dev.scrubMoved (d : Dev) : Dev := { d with flow := { d.flow with scrub := (d.flow.scrub + 1) % 8192 } }

theorem Dev.fabricScrub_sound {d : Dev} (hon : bit (d.rdN (treBase + 4)) 1 = true) : d.fabricScrub .none = d.scrubMoved := if_pos hon

theorem Dev.fabricScrub_fails {d : Dev} (hon : bit (d.rdN (treBase + 4)) 1 = true) (n : Nat) :
    d.fabricScrub (.uncData n) = d.scrubMoved.slotParity d.flow.scrub true none := if_pos hon

/-! ### The obligation -/

/-- Settles O32: admission is one of four branches; of the arbiter's 64 visits only the one to the waiting queue acts, and its one grant
empties it; a delivery meets a parity error of its copy or not; and what follows the loss of a copy leaves the records as they were. That a
packet without a score keeps its place in hand order, and that the scrubber goes up from slot to slot, is log 136. -/
theorem theFabricScoresAndServes : Obligations.TheFabricScoresAndServes := by
  unfold Obligations.TheFabricScoresAndServes
  refine ⟨?recordless, ?copyless, ?queued, ?refused, ?dropEnd, ?granted, ?delivered, ?returned, ?reloaded, ?scrubbed, ?lost⟩
  case recordless =>
    intro s i ha hturn hrec
    refine ⟨_, Machine.exec_scoreAdmit_alive ha, ?_⟩
    dsimp only
    rw [Dev.scoreAdmit_recordless hturn hrec]
    exact ⟨s.dev.scoreNone_pkt i 2, s.dev.scoreNone_counts i 2⟩
  case copyless =>
    intro s i r ha hturn hrec hcopies
    refine ⟨_, Machine.exec_scoreAdmit_alive ha, ?_⟩
    dsimp only
    rw [Dev.scoreAdmit_copyless hturn hrec hcopies]
    exact ⟨s.dev.scoreNone_pkt i 8, s.dev.scoreNone_counts i 8⟩
  case queued =>
    intro s i r ha hturn hrec hcopies hlimit hpool
    refine ⟨_, Machine.exec_scoreAdmit_alive ha, ?_⟩
    dsimp only
    rw [Dev.scoreAdmit_queues hturn hrec hcopies hlimit hpool]
    exact ⟨Dev.pkt_pktSet_same _ _ _, Dev.sqAt_sqSet_same _ _ _⟩
  case refused =>
    intro s i r ha hturn hrec hcopies hfull
    refine ⟨_, Machine.exec_scoreAdmit_alive ha, ?_⟩
    dsimp only
    rw [Dev.scoreAdmit_refuses hturn hrec hcopies hfull, Dev.sqAt_pktGone, Dev.sqAt_seqGap, Dev.sqAt_scoreDrop]
    exact ⟨Dev.pktGone_stage _ _, rfl⟩
  case dropEnd =>
    intro s e n at_ own ha hrun hroom hhold
    refine ⟨_, Machine.exec_dropEnd_alive ha e, ?_⟩
    dsimp only
    rw [Dev.dropEnd_ends hrun, Dev.treeEvent_flow, Nat.min_comm]
    exact ⟨Tab.find_del_same _ _, rfl, Dev.catPut_room hroom hhold⟩
  case granted =>
    intro s e i r c ha he hqueue hothers hrec hcopies hok hquads
    refine ⟨_, Machine.exec_scoreGrant_alive ha, ?_⟩
    dsimp only
    have hpkt : s.dev.scoreGrant.pkt i = s.dev.grantedPkt i r 0 := by
      rw [Dev.scoreGrant_single he hqueue hothers hrec hcopies hok hquads]
      exact s.dev.grantHead_pkt e i r 0
    have hempty : s.dev.scoreGrant.sqAt e = [] := by
      rw [Dev.scoreGrant_single he hqueue hothers hrec hcopies hok hquads]
      exact (s.dev.sqAt_grantHead_same e i r 0).trans (congrArg List.tail hqueue)
    rw [hpkt]
    exact ⟨rfl, rfl, rfl, rfl, rfl, hempty, rfl⟩
  case delivered =>
    intro s i err ha hfirst herr
    have hmiss : ∀ x ∈ err.map (fun x => (x.1.val, x.2)), ¬s.dev.hitBy (s.dev.pkt i) x := by
      rintro x hx ⟨hgrant, howner⟩
      obtain ⟨y, rfl, rfl⟩ := Option.map_eq_some_iff.1 hx
      simp [Option.isSome_iff_ne_none.1 hgrant, howner] at herr
    exact ⟨_, Machine.exec_scoreDeliver_alive ha err, Dev.scoreDeliver_pkt hfirst hmiss, Dev.scoreDeliver_counts hfirst hmiss⟩
  case returned =>
    intro s i r c slot ha hfirst hgrant howner hc
    refine ⟨_, Machine.exec_scoreDeliver_alive ha (some (slot, false)), ?_⟩
    obtain ⟨own, hparity⟩ := Dev.slotParity_reloads howner i
    have hfabric : ∀ a, treBase ≤ a → ((s.dev.parityReturned slot i r c).reportNamed 0x0C 1 own slot).rd a = s.dev.parityNoted.rd a :=
      fun a h => (Dev.rd_reportNamed_tre _ _ _ _ (by decide) h).trans (s.dev.parityReturned_rd slot i r c a)
    dsimp only [Option.map_some]
    rw [Dev.scoreDeliver_hit hfirst ⟨by rw [hgrant]; rfl, howner.trans hgrant.symm⟩, hparity,
      Dev.pkt_of_flow (Dev.reportNamed_flow _ _ _ _ _), Dev.sqAt_of_flow (Dev.reportNamed_flow _ _ _ _ _),
      Dev.recAt_of_recs (congrArg Flow.recs (Dev.reportNamed_flow _ _ _ _ _)), Dev.parityReturned_pkt, Dev.parityReturned_queue,
      Dev.parityReturned_rec, EnsRec.copyMap_getD _ _ _ hc, hfabric _ (by decide),
      Dev.rd64_of_rd (hfabric _ (by decide)) (hfabric _ (by decide))]
    exact ⟨rfl, rfl, rfl, rfl, s.dev.parityNoted_counts, Dev.event_set _ _ _ (by decide)⟩
  case reloaded =>
    intro s slot r c ha howner hreload
    refine ⟨_, Machine.exec_slotReloadDone_alive ha slot, ?_⟩
    dsimp only
    rw [Dev.slotReloaded_ends howner hreload]
    exact ⟨rfl, rfl⟩
  case scrubbed =>
    intro s ha hon
    exact ⟨_, Machine.exec_fabricScrub_alive ha .none, by rw [Dev.fabricScrub_sound hon, Dev.scrubMoved]⟩
  case lost =>
    intro s r c n ha hon howner hc
    refine ⟨_, Machine.exec_fabricScrub_alive ha (.uncData n), ?_⟩
    have howner' : s.dev.scrubMoved.slotOwner s.dev.flow.scrub = some (r, c) := howner
    obtain ⟨hrecs, hscrub, hevent⟩ := Dev.sameFabric_slotParity howner'
    dsimp only
    rw [Dev.fabricScrub_fails hon, Dev.recAt_of_recs hrecs, hscrub, hevent, Dev.copyLost_flow,
      Dev.recAt_of_recs (congrArg Flow.recs (Dev.copyLost_flow _ _ _)), Dev.recAt_copyUpd]
    exact ⟨congrArg EnsCopy.lost (EnsRec.copyMap_getD _ _ _ hc), rfl, Dev.event_set _ _ _ (by decide)⟩

end Sys2Proof
end

section
/-! The gate of every command. A command of the time unit's hardware runs while the device is alive or a warm reset saves, one of the
supplies always, and each other one while the device is alive; from that the obligation O4. -/

namespace Sys2Proof

/-- The commands that the supplies, the save and the restart bring, whatever the device does (R455, R464, R467, R491). -/
def Instr.supply : Instr → Bool
  | .porstRise _ | .vholdRise _ | .sagTrigger _ | .saveDone _ | .sagRestart _ => true
  | _ => false

theorem Machine.exec_timeUnit_gated {c : Instr} (h : c.timeUnit = true) (s : Machine.State) : ∃ f, Machine.exec c s = Machine.timeLive s f := by
  cases c
  case refLoss | refReturn | ppsInEdge | irigFrame | sourceLoss | stepLand | errorBoundUpdate | ppsOutPulse | ppsOutEnd | leapSecond =>
    dsimp only [Machine.exec]
    exact ⟨_, rfl⟩
  all_goals exact absurd h Bool.false_ne_true

theorem Machine.exec_gated {c : Instr} (ht : c.timeUnit = false) (hs : c.supply = false) (s : Machine.State) :
    ∃ f, Machine.exec c s = Machine.live s f := by
  cases c
  case refLoss | refReturn | ppsInEdge | irigFrame | sourceLoss | stepLand | errorBoundUpdate | ppsOutPulse | ppsOutEnd | leapSecond =>
    exact absurd ht.symm Bool.false_ne_true
  case porstRise | vholdRise | sagTrigger | saveDone | sagRestart => exact absurd hs.symm Bool.false_ne_true
  all_goals
    dsimp only [Machine.exec]
    exact ⟨_, rfl⟩

/-- Without supply, and outside the save of a warm reset, the time unit stands still (R280, R464). -/
theorem Machine.timeLive_dead {s : Machine.State} (ha : s.dev.alive = false) (hs : s.dev.pwr.saving = none ∨ s.dev.pwr.frozen = true)
    (f : Dev → Dev) : Machine.timeLive s f = .next s := by
  have hsave : (s.dev.pwr.saving.isSome && !s.dev.pwr.frozen) = false := by
    obtain hnone | hfrozen := hs
    · simp [hnone]
    · simp [hfrozen]
  unfold Machine.timeLive
  rw [ha, hsave]
  rfl

/-- Settles O4: each command that the supplies do not bring has one of two gates, and both are closed. That a closed gate leaves the whole
state as it is, and not only what R464 and R465 name, is the model's reading of log entry 5. -/
theorem withoutSupplyOnlyTheSuppliesAct : Obligations.WithoutSupplyOnlyTheSuppliesAct := by
  intro c s ha hporst hvhold hsag hsave hrestart hunit
  cases ht : c.timeUnit with
  | true =>
    obtain ⟨f, hf⟩ := Machine.exec_timeUnit_gated ht s
    rw [hf, Machine.timeLive_dead ha (hunit.resolve_left (by simp [ht]))]
  | false =>
    have hs : c.supply = false := by
      unfold Instr.supply
      split
      · exact absurd rfl (hporst _)
      · exact absurd rfl (hvhold _)
      · exact absurd rfl (hsag _)
      · exact absurd rfl (hsave _)
      · exact absurd rfl (hrestart _)
      · rfl
    obtain ⟨f, hf⟩ := Machine.exec_gated ht hs s
    rw [hf, Machine.live_dead ha]

end Sys2Proof
end

section
/-! The operations of the time unit (chapter 11): what each leaves of the sources, of the counters and of the events, and what the commands
of the unit do; from these the obligation O35. -/

namespace Sys2Proof

/-! ### The commands of the time unit are their operations -/

/-- R280, R464: the unit's hardware runs while the device is alive or a warm reset saves. -/
theorem Machine.timeLive_runs {s : Machine.State} (h : (s.dev.alive || (s.dev.pwr.saving.isSome && !s.dev.pwr.frozen)) = true) (f : Dev → Dev) :
    Machine.timeLive s f = .next { s with dev := f s.dev } := by
  unfold Machine.timeLive
  rw [if_pos h]

theorem Machine.exec_ptpMeasurement_open {s : Machine.State} {who : Req} (ha : s.dev.alive = true)
    (hm : s.dev.mayWrite who (tmuBase + 0x74) = true) (off epoch extra cls : Nat) :
    Machine.exec (.ptpMeasurement who off epoch extra cls) s = .next { s with dev := s.dev.ptpMeasurement who off epoch extra cls } := by
  have harm : Machine.exec (.ptpMeasurement who off epoch extra cls) s =
      Machine.live s (fun d => d.writeDo who (tmuBase + 0x74) true (fun d => d.ptpMeasurement who off epoch extra cls)) := rfl
  rw [harm, Machine.live_next ha, Dev.writeDo_open hm]

theorem Machine.exec_timeSet_alive {s : Machine.State} (ha : s.dev.alive = true) (q bound : Nat) :
    Machine.exec (.timeSet q bound) s = .next { s with dev := s.dev.fwDo (fun d => (d.timeSet q bound).1) } :=
  Machine.live_next ha (fun d => d.fwDo (fun d => (d.timeSet q bound).1))

theorem Machine.exec_tmuNowRead_open {s : Machine.State} {who : Req} (ha : s.dev.alive = true) (ho : s.dev.reqOpen who = true) :
    Machine.exec (.tmuNowRead who) s = .next { s with dev := s.dev.nowRead who } := by
  have harm : Machine.exec (.tmuNowRead who) s = Machine.live s (fun d => d.hostDo who (fun d => d.nowRead who)) := rfl
  rw [harm, Machine.live_next ha, Dev.hostDo_open ho]

section
variable {s : Machine.State} (hruns : (s.dev.alive || (s.dev.pwr.saving.isSome && !s.dev.pwr.frozen)) = true)
include hruns

theorem Machine.exec_refLoss_runs : Machine.exec .refLoss s = .next { s with dev := s.dev.refLoss } :=
  Machine.timeLive_runs hruns (fun d => d.refLoss)

theorem Machine.exec_refReturn_runs : Machine.exec .refReturn s = .next { s with dev := s.dev.refReturn } :=
  Machine.timeLive_runs hruns (fun d => d.refReturn)

theorem Machine.exec_ppsInEdge_runs (x : Nat) : Machine.exec (.ppsInEdge x) s = .next { s with dev := s.dev.ppsIn x } :=
  Machine.timeLive_runs hruns (fun d => d.ppsIn x)

theorem Machine.exec_irigFrame_runs (x : Nat) (f : IrigIn) :
    Machine.exec (.irigFrame x f.toIrigDate f.offMin f.ok f.q f.leap) s = .next { s with dev := s.dev.irigFrame x f } :=
  Machine.timeLive_runs hruns (fun d => d.irigFrame x f)

theorem Machine.exec_sourceLoss_runs (k : Fin 4) : Machine.exec (.sourceLoss k) s = .next { s with dev := s.dev.sourceLoss k } :=
  Machine.timeLive_runs hruns (fun d => d.sourceLoss k)

theorem Machine.exec_stepLand_runs : Machine.exec .stepLand s = .next { s with dev := s.dev.stepLand } :=
  Machine.timeLive_runs hruns (fun d => d.stepLand)

theorem Machine.exec_errorBoundUpdate_runs : Machine.exec .errorBoundUpdate s = .next { s with dev := s.dev.errorBound } :=
  Machine.timeLive_runs hruns (fun d => d.errorBound)

theorem Machine.exec_ppsOutPulse_runs : Machine.exec .ppsOutPulse s = .next { s with dev := s.dev.ppsOut } :=
  Machine.timeLive_runs hruns (fun d => d.ppsOut)

theorem Machine.exec_ppsOutEnd_runs : Machine.exec .ppsOutEnd s = .next { s with dev := s.dev.ppsOutEnd } :=
  Machine.timeLive_runs hruns (fun d => d.ppsOutEnd)

theorem Machine.exec_leapSecond_runs : Machine.exec .leapSecond s = .next { s with dev := s.dev.leapSecond } :=
  Machine.timeLive_runs hruns (fun d => d.leapSecond)

end

/-! ### The unit's state after the shared operations -/

@[simp] theorem Dev.wrN_tmu (d : Dev) (k v : Nat) : (d.wrN k v).tmu = d.tmu := rfl
@[simp] theorem Dev.tmuCount_tmu (d : Dev) (k : Nat) : (d.tmuCount k).tmu = d.tmu := rfl
@[simp] theorem Dev.event_tmu (d : Dev) (k b : Nat) : (d.event k b).tmu = d.tmu := by simp [Dev.tmu_eq]
@[simp] theorem Dev.alarmSet_tmu (d : Dev) (code inst : Nat) (set : Bool) (detail : Nat) (force : Bool) :
    (d.alarmSet code inst set detail force).tmu = d.tmu := by simp [Dev.tmu_eq]
@[simp] theorem Dev.report_tmu (d : Dev) (src code cls p det : Nat) : (d.report src code cls p det).tmu = d.tmu := by simp [Dev.tmu_eq]
@[simp] theorem Dev.tmuUpd_tmu (d : Dev) (f : Tmu → Tmu) : (d.tmuUpd f).tmu = f d.tmu := rfl

/-- Of the registers a change of the unit's state moves two: TMU_UTCOFF, for the announced leap second, and TMU_STAT. -/
theorem Dev.rd_tmuUpd_other (d : Dev) (f : Tmu → Tmu) {k : Nat} (hutc : k ≠ tmuReg 0x38) (hstat : k ≠ tmuReg 0x0C) :
    (d.tmuUpd f).rd k = d.rd k := by
  unfold Dev.tmuUpd Dev.tmuRegs
  dsimp only
  rw [Dev.rd_wrN_other _ _ hstat, Dev.rd_wrN_other _ _ hutc]
  rfl

theorem Dev.rdN_tmuUpd_other (d : Dev) (f : Tmu → Tmu) {k : Nat} (hutc : k ≠ tmuReg 0x38) (hstat : k ≠ tmuReg 0x0C) :
    (d.tmuUpd f).rdN k = d.rdN k := congrArg BitVec.toNat (d.rd_tmuUpd_other f hutc hstat)

theorem Dev.rd64_tmuCount_same (d : Dev) (k : Nat) :
    (d.tmuCount k).rd64 (tmuReg (0x100 + 8 * k)) = (d.rd64 (tmuReg (0x100 + 8 * k)) + 1) % 2 ^ 64 := Dev.rd64_count64_same d _ 1

theorem Dev.rd_tmuCount_other (d : Dev) {k a : Nat} (h : a < tmuReg (0x100 + 8 * k) ∨ tmuReg (0x108 + 8 * k) ≤ a) :
    (d.tmuCount k).rd a = d.rd a := by
  unfold tmuReg at h
  exact Dev.rd_count64_other d 1 (by unfold tmuReg; omega) (by unfold tmuReg; omega)

theorem Dev.rdN_tmuCount_other (d : Dev) {k a : Nat} (h : a < tmuReg (0x100 + 8 * k) ∨ tmuReg (0x108 + 8 * k) ≤ a) :
    (d.tmuCount k).rdN a = d.rdN a := congrArg BitVec.toNat (d.rd_tmuCount_other h)

/-- A change of STATE moves nothing else of the unit but the mark that it was LOCKED once (R290, R293). -/
theorem Dev.tmuState_tmu (d : Dev) (s : TimeState) : ∃ b, (d.tmuState s).tmu = { d.tmu with state := s, everLocked := b } := by
  unfold Dev.tmuState
  split
  · rename_i hsame
    exact ⟨d.tmu.everLocked, by rw [← hsame]⟩
  · refine ⟨d.tmu.everLocked || decide (s = .locked), ?_⟩
    dsimp only
    split
    · simp
    · split <;> simp

theorem Dev.setBound_tmu (d : Dev) (b : Nat) : ∃ e, (d.setBound b).tmu = { d.tmu with err := e } := by
  unfold Dev.setBound
  split
  · exact ⟨d.tmu.err, rfl⟩
  · exact ⟨_, rfl⟩

theorem Dev.setBound_err {d : Dev} (h : d.tmu.unknown = false) (b : Nat) : (d.setBound b).tmu.err = min 0xFFFFFFFE b := by
  unfold Dev.setBound
  rw [if_neg (by simp [h])]
  rfl

/-! ### The operations of the servo leave the sources -/

/-- From d to e the unit may have moved its state, its selection, its bound and its phase, but not what it knows of the sources, nor a
register from the counter OMITTED on (offset 0x110), and no event of it has been cleared. -/
structure Dev.Steers (d e : Dev) : Prop where
  src : e.tmu.src = d.tmu.src
  ppsLast : e.tmu.ppsLast = d.tmu.ppsLast
  irigPrev : e.tmu.irigPrev = d.tmu.irigPrev
  counts : ∀ k, tmuReg 0x110 ≤ k → e.rd k = d.rd k
  events : ∀ b, wbit (d.rd (tmuReg 0x10)) b = true → wbit (e.rd (tmuReg 0x10)) b = true

theorem Dev.Steers.rd64 {d e : Dev} (h : d.Steers e) {k : Nat} (hk : tmuReg 0x110 ≤ k) : e.rd64 k = d.rd64 k :=
  Dev.rd64_of_rd (h.counts k hk) (h.counts (k + 4) (Nat.le_add_right_of_le hk))

theorem Dev.Steers.refl (d : Dev) : d.Steers d := ⟨rfl, rfl, rfl, fun _ _ => rfl, fun _ h => h⟩

theorem Dev.Steers.trans {d e f : Dev} (h : d.Steers e) (g : e.Steers f) : d.Steers f :=
  ⟨g.src.trans h.src, g.ppsLast.trans h.ppsLast, g.irigPrev.trans h.irigPrev, fun k hk => (g.counts k hk).trans (h.counts k hk),
    fun b hb => g.events b (h.events b hb)⟩

theorem Dev.Steers.perhaps {d e f : Dev} (h : d.Steers e) (g : d.Steers f) (c : Prop) [Decidable c] : d.Steers (if c then e else f) := by
  split
  · exact h
  · exact g

theorem Dev.steers_tmuUpd (d : Dev) {f : Tmu → Tmu} (hsrc : (f d.tmu).src = d.tmu.src) (hpps : (f d.tmu).ppsLast = d.tmu.ppsLast)
    (hirig : (f d.tmu).irigPrev = d.tmu.irigPrev) : d.Steers (d.tmuUpd f) where
  src := hsrc
  ppsLast := hpps
  irigPrev := hirig
  counts k hk := d.rd_tmuUpd_other f (by unfold tmuReg at *; omega) (by unfold tmuReg at *; omega)
  events b hb := by rwa [d.rd_tmuUpd_other f (by decide) (by decide)]

theorem Dev.steers_event (d : Dev) {b : Nat} (hb : b < 32) : d.Steers (d.event (tmuReg 0x10) b) where
  src := by rw [Dev.event_tmu]
  ppsLast := by rw [Dev.event_tmu]
  irigPrev := by rw [Dev.event_tmu]
  counts k hk := d.rd_event_other b (by unfold tmuReg at *; omega)
  events b' hb' := d.event_keeps _ b _ b' hb' hb

theorem Dev.steers_wrN (d : Dev) {k : Nat} (hk : k < tmuReg 0x110) (hevent : k ≠ tmuReg 0x10) (v : Nat) : d.Steers (d.wrN k v) where
  src := rfl
  ppsLast := rfl
  irigPrev := rfl
  counts a ha := d.rd_wrN_other v (by omega)
  events b hb := by rwa [d.rd_wrN_other v hevent.symm]

/-- STEPS and STEPCANCEL are the two counters of the servo itself (R294). -/
theorem Dev.steers_tmuCount (d : Dev) {k : Nat} (hk : k < 2) : d.Steers (d.tmuCount k) where
  src := rfl
  ppsLast := rfl
  irigPrev := rfl
  counts a ha := d.rd_tmuCount_other (by unfold tmuReg at *; omega)
  events b hb := by rwa [d.rd_tmuCount_other (by unfold tmuReg at *; omega)]

theorem Dev.steers_alarmSet (d : Dev) (code inst : Nat) (set : Bool) (detail : Nat) (force : Bool) :
    d.Steers (d.alarmSet code inst set detail force) where
  src := by rw [Dev.alarmSet_tmu]
  ppsLast := by rw [Dev.alarmSet_tmu]
  irigPrev := by rw [Dev.alarmSet_tmu]
  counts k _ := by rw [Dev.alarmSet_rd]
  events b hb := by rwa [Dev.alarmSet_rd]

theorem Dev.steers_tmuState (d : Dev) (s : TimeState) : d.Steers (d.tmuState s) := by
  unfold Dev.tmuState
  have hmoved : d.Steers ((d.tmuUpd (fun t => { t with state := s, everLocked := t.everLocked || decide (s = .locked) })).event (tmuReg 0x10) 1) :=
    (d.steers_tmuUpd rfl rfl rfl).trans (Dev.steers_event _ (by decide))
  exact (Dev.Steers.refl d).perhaps ((hmoved.trans (Dev.steers_alarmSet ..)).perhaps ((hmoved.trans (Dev.steers_alarmSet ..)).perhaps hmoved _) _) _

theorem Dev.steers_reselect (d : Dev) : d.Steers d.reselect := by
  unfold Dev.reselect
  exact (Dev.Steers.refl d).perhaps ((d.steers_tmuUpd rfl rfl rfl).trans (Dev.steers_event _ (by decide))) _

theorem Dev.steers_setBound (d : Dev) (b : Nat) : d.Steers (d.setBound b) := by
  unfold Dev.setBound
  exact (Dev.Steers.refl d).perhaps (d.steers_tmuUpd rfl rfl rfl) _

theorem Dev.steers_boundAt (d : Dev) (mag srcb : Nat) : d.Steers (d.boundAt mag srcb) :=
  (d.steers_tmuUpd rfl rfl rfl).trans (Dev.steers_setBound _ _)

theorem Dev.steers_noteOffset (d : Dev) (s mag srcb : Nat) : d.Steers (d.noteOffset s mag srcb) := d.steers_tmuUpd rfl rfl rfl

theorem Dev.steers_schedStep (d : Dev) (off : Int) : d.Steers (d.schedStep off) := by
  unfold Dev.schedStep
  split
  · exact d.steers_tmuUpd rfl rfl rfl
  · exact (d.steers_tmuUpd rfl rfl rfl).trans (Dev.steers_tmuState _ _)

theorem Dev.steers_cancelStep (d : Dev) : d.Steers d.cancelStep := by
  unfold Dev.cancelStep
  split
  · exact ((d.steers_tmuUpd rfl rfl rfl).trans (Dev.steers_tmuState _ _)).trans (Dev.steers_tmuCount _ (by decide))
  · exact Dev.Steers.refl d

theorem Dev.steers_slewBy (d : Dev) (off : Int) : d.Steers (d.slewBy off) := d.steers_tmuUpd rfl rfl rfl

theorem Dev.steers_slewMeas (d : Dev) (off : Int) : d.Steers (d.slewMeas off) := by
  have hlong : ∀ (e : Dev) (c : Prop) [Decidable c], e.Steers (if c then e.event (tmuReg 0x10) 4 else e) := fun e c _ =>
    (e.steers_event (by decide)).perhaps (Dev.Steers.refl e) c
  unfold Dev.slewMeas
  exact ((d.steers_cancelStep.perhaps (Dev.Steers.refl d) _).trans (hlong _ _)).trans (Dev.steers_slewBy _ off)

theorem Dev.steers_lockMeas (d : Dev) (mag : Nat) : d.Steers (d.lockMeas mag) := by
  have hfreq : ∀ v, d.Steers ((({ d with free := d.free + 1 } : Dev).wrN (tmuReg 0x6C) v).tmuState .locked) := fun v =>
    have hdraw : d.Steers { d with free := d.free + 1 } := ⟨rfl, rfl, rfl, fun _ _ => rfl, fun _ h => h⟩
    (hdraw.trans (Dev.steers_wrN _ (by decide) (by decide) v)).trans (Dev.steers_tmuState _ _)
  unfold Dev.lockMeas
  exact (Dev.Steers.refl d).perhaps ((hfreq _).perhaps ((d.steers_tmuState _).perhaps (Dev.Steers.refl d) _) _) _

theorem Dev.steers_applyOffset (d : Dev) (off : Int) (srcb : Nat) : d.Steers (d.applyOffset off srcb) :=
  ((d.steers_schedStep off).perhaps ((d.steers_slewMeas off).trans (Dev.steers_lockMeas _ _)) _).trans (Dev.steers_boundAt _ _ _)

theorem Dev.steers_utcSet (d : Dev) (v : Int) : d.Steers (d.utcSet v) := by
  unfold Dev.utcSet
  exact (Dev.Steers.refl d).perhaps ((d.steers_wrN (by decide) (by decide) _).trans (Dev.steers_event _ (by decide))) _

theorem Dev.steers_ptpUtc (d : Dev) : d.Steers d.ptpUtc := by
  unfold Dev.ptpUtc
  split
  · dsimp only
    split
    · exact (d.steers_tmuUpd rfl rfl rfl).trans (Dev.steers_utcSet _ _)
    · exact d.steers_tmuUpd rfl rfl rfl
  · exact Dev.Steers.refl d

/-! ### A good measurement (R285) -/

/-- What the unit knows of source s after a good measurement of it with source bound srcb. -/
def Dev.measured (d : Dev) (s srcb : Nat) : TimeSrc :=
  let x := Tab.get ({} : TimeSrc) d.tmu.src s
  { good := min 15 (x.good + 1), qualified := x.qualified || decide (bits (d.rdN (tmuReg 0x5C)) 3 0 ≤ min 15 (x.good + 1)), srcb := srcb,
    bad := 0, last := d.now }

theorem Dev.measured_congr {d e : Dev} (hqual : e.rdN (tmuReg 0x5C) = d.rdN (tmuReg 0x5C)) (hsrc : e.tmu.src = d.tmu.src) (hnow : e.now = d.now)
    (s srcb : Nat) : e.measured s srcb = d.measured s srcb := by
  unfold Dev.measured
  rw [hsrc, hqual, hnow]

theorem Dev.measured_tmuUpd (d : Dev) (f : Tmu → Tmu) (hsrc : (f d.tmu).src = d.tmu.src) (s srcb : Nat) :
    (d.tmuUpd f).measured s srcb = d.measured s srcb :=
  Dev.measured_congr (d.rdN_tmuUpd_other f (by decide) (by decide)) hsrc rfl s srcb

theorem Dev.measured_tmuCount (d : Dev) (k s srcb : Nat) : (d.tmuCount k).measured s srcb = d.measured s srcb :=
  Dev.measured_congr (d.rdN_tmuCount_other (by unfold tmuReg; omega)) rfl rfl s srcb

/-- The first part of a good measurement: the source takes it. -/
def Dev.noted (d : Dev) (s srcb : Nat) : Dev := d.tmuUpd (fun t => { t with src := Tab.set {} t.src s (d.measured s srcb) })

/-- The rest of it, selection, offset, state and bound, steers. -/
theorem Dev.steers_goodMeas (d : Dev) (s : Nat) (off : Int) (srcb : Nat) : (d.noted s srcb).Steers (d.goodMeas s off srcb) := by
  have hsel : (d.noted s srcb).Steers (d.noted s srcb).reselect := Dev.steers_reselect _
  have hutc : (d.noted s srcb).Steers (if s = 1 then (d.noted s srcb).reselect.ptpUtc else (d.noted s srcb).reselect) :=
    (hsel.trans (Dev.steers_ptpUtc _)).perhaps hsel _
  have hnote := hutc.trans (Dev.steers_noteOffset _ s (nsUp off) srcb)
  have hwrite (v : Nat) := hnote.trans (Dev.steers_wrN _ (show tmuReg 0x68 < tmuReg 0x110 by decide) (by decide) v)
  exact ((hwrite _).trans (Dev.steers_applyOffset _ off srcb)).perhaps hsel ((d.noted s srcb).reselect.tmu.sel = s)

theorem Dev.goodMeas_source (d : Dev) (s : Nat) (off : Int) (srcb : Nat) :
    Tab.get {} (d.goodMeas s off srcb).tmu.src s = d.measured s srcb := by
  rw [(d.steers_goodMeas s off srcb).src]
  exact Tab.get_set_same _ _ _ _

theorem Dev.goodMeas_ppsLast (d : Dev) (s : Nat) (off : Int) (srcb : Nat) : (d.goodMeas s off srcb).tmu.ppsLast = d.tmu.ppsLast :=
  (d.steers_goodMeas s off srcb).ppsLast

theorem Dev.goodMeas_irigPrev (d : Dev) (s : Nat) (off : Int) (srcb : Nat) : (d.goodMeas s off srcb).tmu.irigPrev = d.tmu.irigPrev :=
  (d.steers_goodMeas s off srcb).irigPrev

theorem Dev.rd64_tmuUpd_count (d : Dev) (f : Tmu → Tmu) {k : Nat} (hk : tmuReg 0x100 ≤ k) : (d.tmuUpd f).rd64 k = d.rd64 k :=
  Dev.rd64_of_rd (d.rd_tmuUpd_other f (by unfold tmuReg at *; omega) (by unfold tmuReg at *; omega))
    (d.rd_tmuUpd_other f (by unfold tmuReg at *; omega) (by unfold tmuReg at *; omega))

theorem Dev.goodMeas_rd64 (d : Dev) (s : Nat) (off : Int) (srcb : Nat) {k : Nat} (hk : tmuReg 0x110 ≤ k) :
    (d.goodMeas s off srcb).rd64 k = d.rd64 k :=
  ((d.steers_goodMeas s off srcb).rd64 hk).trans (d.rd64_tmuUpd_count _ (by unfold tmuReg at *; omega))

/-! ### The loss of a source (R285) -/

/-- The first part of a loss: the source is not qualified. -/
def Dev.disqualified (d : Dev) (s : Nat) : Dev :=
  d.tmuUpd (fun t => { t with src := Tab.set {} t.src s { Tab.get ({} : TimeSrc) d.tmu.src s with qualified := false, good := 0 } })

/-- The loss of a qualified source is an event and a count; the rest of it steers. -/
theorem Dev.steers_sourceLoss {d : Dev} {s : Nat} (h : (Tab.get ({} : TimeSrc) d.tmu.src s).qualified = true) :
    (((d.disqualified s).event (tmuReg 0x10) 3).tmuCount 9).Steers (d.sourceLoss s) := by
  unfold Dev.sourceLoss
  dsimp only
  rw [if_pos h]
  have hcancel (e : Dev) (c : Bool) : e.Steers (if c then e.cancelStep else e) := e.steers_cancelStep.perhaps (Dev.Steers.refl e) _
  have hforget (e : Dev) : e.Steers (if s = 1 then e.tmuUpd (fun t => { t with servo := {} }) else e) :=
    (e.steers_tmuUpd rfl rfl rfl).perhaps (Dev.Steers.refl e) _
  have hselect (c : Bool) := ((hcancel (((d.disqualified s).event (tmuReg 0x10) 3).tmuCount 9) c).trans (hforget _)).trans (Dev.steers_reselect _)
  exact ((hselect _).trans (Dev.steers_tmuState _ _)).perhaps (hselect _) _

theorem Dev.sourceLoss_unqualified {d : Dev} {s : Nat} (h : (Tab.get ({} : TimeSrc) d.tmu.src s).qualified = false) :
    d.sourceLoss s = d.disqualified s := by
  unfold Dev.sourceLoss
  dsimp only
  rw [if_neg (by simp [h])]
  rfl

theorem Dev.sourceLoss_source (d : Dev) (s : Nat) :
    Tab.get {} (d.sourceLoss s).tmu.src s = { Tab.get ({} : TimeSrc) d.tmu.src s with qualified := false, good := 0 } := by
  have hsrc : (d.sourceLoss s).tmu.src = (d.disqualified s).tmu.src := by
    cases h : (Tab.get ({} : TimeSrc) d.tmu.src s).qualified with
    | true => rw [(Dev.steers_sourceLoss h).src, Dev.tmuCount_tmu, Dev.event_tmu]
    | false => rw [Dev.sourceLoss_unqualified h]
  rw [hsrc]
  exact Tab.get_set_same _ _ _ _

/-- A loss counts in SRCLOST alone of the counters from OMITTED on. -/
theorem Dev.sourceLoss_rd (d : Dev) (s : Nat) {k : Nat} (hk : tmuReg 0x110 ≤ k) (hloss : k < tmuReg 0x148 ∨ tmuReg 0x150 ≤ k) :
    (d.sourceLoss s).rd k = d.rd k := by
  have hlost : (d.disqualified s).rd k = d.rd k := d.rd_tmuUpd_other _ (by unfold tmuReg at *; omega) (by unfold tmuReg at *; omega)
  cases h : (Tab.get ({} : TimeSrc) d.tmu.src s).qualified with
  | true =>
    rw [(Dev.steers_sourceLoss h).counts k hk, Dev.rd_tmuCount_other _ hloss, Dev.rd_event_other _ _ (by unfold tmuReg at *; omega), hlost]
  | false => rw [Dev.sourceLoss_unqualified h, hlost]

theorem Dev.rd64_sourceLoss (d : Dev) (s : Nat) {k : Nat} (hk : tmuReg 0x110 ≤ k) (hloss : k + 8 ≤ tmuReg 0x148 ∨ tmuReg 0x150 ≤ k) :
    (d.sourceLoss s).rd64 k = d.rd64 k :=
  Dev.rd64_of_rd (d.sourceLoss_rd s hk (by omega)) (d.sourceLoss_rd s (by omega) (by omega))

theorem Dev.disqualified_events (d : Dev) (s : Nat) : (d.disqualified s).rd (tmuReg 0x10) = d.rd (tmuReg 0x10) :=
  d.rd_tmuUpd_other _ (by decide) (by decide)

theorem Dev.sourceLoss_events (d : Dev) (s : Nat) {b : Nat} (h : wbit (d.rd (tmuReg 0x10)) b = true) :
    wbit ((d.sourceLoss s).rd (tmuReg 0x10)) b = true := by
  cases hq : (Tab.get ({} : TimeSrc) d.tmu.src s).qualified with
  | true =>
    apply (Dev.steers_sourceLoss hq).events
    rw [Dev.rd_tmuCount_other _ (by decide)]
    exact Dev.event_keeps _ _ _ _ _ (by rwa [Dev.disqualified_events]) (by decide)
  | false => rwa [Dev.sourceLoss_unqualified hq, Dev.disqualified_events]

theorem Dev.sourceLoss_qualified {d : Dev} {s : Nat} (h : (Tab.get ({} : TimeSrc) d.tmu.src s).qualified = true) :
    wbit ((d.sourceLoss s).rd (tmuReg 0x10)) 3 = true ∧ (d.sourceLoss s).rd64 (tmuReg 0x148) = (d.rd64 (tmuReg 0x148) + 1) % 2 ^ 64 := by
  have hsteers := Dev.steers_sourceLoss h
  constructor
  · apply hsteers.events
    rw [Dev.rd_tmuCount_other _ (by decide)]
    exact Dev.event_set _ _ _ (by decide)
  · rw [hsteers.rd64 (by decide)]
    have hkept : ((d.disqualified s).event (tmuReg 0x10) 3).rd64 (tmuReg 0x148) = d.rd64 (tmuReg 0x148) :=
      (Dev.rd64_of_rd (Dev.rd_event_other _ _ (by decide)) (Dev.rd_event_other _ _ (by decide))).trans (d.rd64_tmuUpd_count _ (by decide))
    rw [← hkept]
    exact Dev.rd64_tmuCount_same _ 9

/-! ### PTP, PPS_IN and IRIG-B (R285, R287, R288) -/

theorem Dev.rd64_event_count (d : Dev) (b : Nat) {k : Nat} (hk : tmuReg 0x100 ≤ k) : (d.event (tmuReg 0x10) b).rd64 k = d.rd64 k :=
  Dev.rd64_of_rd (d.rd_event_other b (by unfold tmuReg at *; omega)) (d.rd_event_other b (by unfold tmuReg at *; omega))

/-- The two words of TMU_MEAS as firmware writes them. -/
def Dev.measWritten (d : Dev) (off epoch : Nat) : Dev :=
  (d.wrN (tmuReg 0x70) (off % 2 ^ 32)).wrN (tmuReg 0x74) (off / 2 ^ 32 % 65536 + 65536 * (epoch % 256))

theorem Dev.rd_measWritten_other (d : Dev) (off epoch : Nat) {k : Nat} (hlo : k ≠ tmuReg 0x70) (hhi : k ≠ tmuReg 0x74) :
    (d.measWritten off epoch).rd k = d.rd k := by
  rw [Dev.measWritten, Dev.rd_wrN_other _ _ hhi, Dev.rd_wrN_other _ _ hlo]

theorem Dev.rd64_measWritten (d : Dev) (off epoch : Nat) {k : Nat} (hk : tmuReg 0x100 ≤ k) : (d.measWritten off epoch).rd64 k = d.rd64 k :=
  Dev.rd64_of_rd (d.rd_measWritten_other off epoch (by unfold tmuReg at *; omega) (by unfold tmuReg at *; omega))
    (d.rd_measWritten_other off epoch (by unfold tmuReg at *; omega) (by unfold tmuReg at *; omega))

/-- The source bound of a PTP measurement: PTPERR, the TLV's inaccuracy in profile 2, and 16 ns at the management port. -/
def Dev.ptpBound (d : Dev) (extra : Nat) : Nat :=
  bits (d.rdN (tmuReg 0x54)) 15 0 + (if bits (d.rdN (tmuReg 0x64)) 17 16 = 2 then extra else 0) + (if bit (d.rdN (tmuReg 0x64)) 23 then 16 else 0)

section
variable {d : Dev} {off epoch extra cls : Nat} (hon : bit (d.rdN (tmuReg 4)) 5 = true)
include hon

theorem Dev.ptpMeasurement_stale (hold : epoch % 256 ≠ d.tmu.epoch) (c : Nat) :
    d.ptpMeasurement (.fw c) off epoch extra cls = (d.measWritten off epoch).tmuCount 8 := by
  simp only [Dev.ptpMeasurement, hon, if_pos hold, Bool.true_eq_false, if_false]
  rfl

theorem Dev.ptpMeasurement_poor (hnew : epoch % 256 = d.tmu.epoch) (hpoor : bits (d.rdN (tmuReg 0x64)) 7 0 < cls) (c : Nat) :
    d.ptpMeasurement (.fw c) off epoch extra cls = (d.measWritten off epoch).sourceLoss 1 := by
  simp only [Dev.ptpMeasurement, hon, hnew, if_pos hpoor, Bool.true_eq_false, if_false, ne_eq, not_true_eq_false]
  rw [← hnew]
  rfl

theorem Dev.ptpMeasurement_good (hnew : epoch % 256 = d.tmu.epoch) (hgood : cls ≤ bits (d.rdN (tmuReg 0x64)) 7 0) (c : Nat) :
    d.ptpMeasurement (.fw c) off epoch extra cls = ((d.measWritten off epoch).tmuCount 7).goodMeas 1 (sext 48 off) (d.ptpBound extra) := by
  simp only [Dev.ptpMeasurement, hon, hnew, if_neg (Nat.not_lt.2 hgood), Bool.true_eq_false, if_false, ne_eq, not_true_eq_false]
  rw [← hnew]
  rfl

end

theorem Dev.rdN_measWritten_other (d : Dev) (off epoch : Nat) {k : Nat} (hlo : k ≠ tmuReg 0x70) (hhi : k ≠ tmuReg 0x74) :
    (d.measWritten off epoch).rdN k = d.rdN k := congrArg BitVec.toNat (d.rd_measWritten_other off epoch hlo hhi)

theorem Dev.measured_measWritten (d : Dev) (off epoch s srcb : Nat) : (d.measWritten off epoch).measured s srcb = d.measured s srcb :=
  Dev.measured_congr (d.rdN_measWritten_other off epoch (by decide) (by decide)) rfl rfl s srcb

/-- R287: an edge `fr` behind a second boundary lies within the window of the nearest boundary when it lies within it of either one. -/
theorem nearest_within {fr sec : Int} {win : Nat} (h0 : 0 ≤ fr) (hsec : fr < sec) (h : fr ≤ win ∨ sec - fr ≤ win) :
    (if 2 * fr < sec then -fr else sec - fr).natAbs ≤ win := by
  split
  · omega
  · omega

/-- R287: how far an edge at reported time x comes after a second boundary. -/
def Dev.ppsPast (d : Dev) (x : Nat) : Int := ((x : Int) - sext 32 (d.rdN (tmuReg 0x48))) % (qsec : Int)

/-- Its distance to the nearest one. -/
def Dev.ppsOffset (d : Dev) (x : Nat) : Int := if 2 * d.ppsPast x < qsec then -d.ppsPast x else qsec - d.ppsPast x

/-- PPSWIN in quarter nanoseconds. -/
def Dev.ppsWindow (d : Dev) : Nat := 4000 * bits (d.rdN (tmuReg 0x44)) 15 0

theorem Dev.ppsOffset_within {d : Dev} {x : Nat} (h : d.ppsPast x ≤ 4000 * (bits (d.rdN (tmuReg 0x44)) 15 0 : Int) ∨
    (qsec : Int) - d.ppsPast x ≤ 4000 * (bits (d.rdN (tmuReg 0x44)) 15 0 : Int)) : (d.ppsOffset x).natAbs ≤ d.ppsWindow :=
  nearest_within (Int.emod_nonneg _ (by decide)) (Int.emod_lt_of_pos _ (by decide)) h

section
variable {d : Dev} {x : Nat} (hon : bit (d.rdN (tmuReg 4)) 6 = true)
include hon

theorem Dev.ppsIn_early {l : Nat} (hlast : d.tmu.ppsLast = some l) (hsoon : d.now < l + 10000000000) :
    d.ppsIn x = (d.tmuCount 4).event (tmuReg 0x10) 7 := by
  unfold Dev.ppsIn
  rw [if_neg (by simp [hon]), hlast]
  dsimp only
  rw [decide_eq_true hsoon, if_pos (by rfl)]

theorem Dev.ppsIn_accepted (hlate : d.tmu.ppsLast.all (fun l => decide (l + 10000000000 ≤ d.now)) = true)
    (hwin : (Tab.get {} d.tmu.src 2).qualified = false ∨ (d.ppsOffset x).natAbs ≤ d.ppsWindow) (hknown : d.tmu.unknown = false) :
    d.ppsIn x = ((d.tmuUpd (fun t => { t with ppsLast := some d.now })).tmuCount 3).goodMeas 2 (d.ppsOffset x)
      (bits (d.rdN (tmuReg 0x54)) 31 16) := by
  have hin : ((Tab.get ({} : TimeSrc) d.tmu.src 2).qualified && decide (d.ppsWindow < (d.ppsOffset x).natAbs)) = false := by
    obtain hnew | hnear := hwin
    · rw [hnew, Bool.false_and]
    · rw [decide_eq_false (Nat.not_lt.2 hnear), Bool.and_false]
  unfold Dev.ppsIn
  rw [if_neg (by simp [hon])]
  dsimp only
  rw [if_neg ?accepted, if_neg (by simp [hknown])]
  · rfl
  case accepted =>
    rw [Bool.or_eq_true, not_or]
    refine ⟨?_, ne_true_of_eq_false hin⟩
    split
    · rename_i l hlast
      rw [hlast, Option.all_some] at hlate
      rw [decide_eq_true_eq]
      exact Nat.not_lt.2 (of_decide_eq_true hlate)
    · exact Bool.false_ne_true

end

/-- The first part of an IRIG-B frame: its time is the one the next frame follows. -/
def Dev.irigHeard (d : Dev) (f : IrigIn) : Dev := d.tmuUpd (fun u => { u with irigPrev := some (d.irigSecs f) })

/-- A good frame counts, and the leap second of an extension is announced. -/
def Dev.irigTaken (d : Dev) (f : IrigIn) : Dev :=
  if bit (d.rdN (tmuReg 4)) 8 = true ∧ f.leap ≠ 0 then ((d.irigHeard f).tmuCount 5).tmuUpd (fun u => { u with leap := f.leap })
  else (d.irigHeard f).tmuCount 5

theorem Dev.irigTaken_count (d : Dev) (f : IrigIn) : (d.irigTaken f).rd64 (tmuReg 0x128) = (d.rd64 (tmuReg 0x128) + 1) % 2 ^ 64 := by
  have hcount : ((d.irigHeard f).tmuCount 5).rd64 (tmuReg 0x128) = (d.rd64 (tmuReg 0x128) + 1) % 2 ^ 64 := by
    rw [← d.rd64_tmuUpd_count (fun u => { u with irigPrev := some (d.irigSecs f) }) (by decide)]
    exact Dev.rd64_tmuCount_same _ 5
  unfold Dev.irigTaken
  split
  · rw [Dev.rd64_tmuUpd_count _ _ (by decide), hcount]
  · exact hcount

theorem Dev.irigTaken_irigPrev (d : Dev) (f : IrigIn) : (d.irigTaken f).tmu.irigPrev = some (d.irigSecs f) := by
  unfold Dev.irigTaken
  split
  · rfl
  · rfl

theorem Dev.measured_irigTaken (d : Dev) (f : IrigIn) (s srcb : Nat) : (d.irigTaken f).measured s srcb = d.measured s srcb := by
  have hcounted : ((d.irigHeard f).tmuCount 5).measured s srcb = d.measured s srcb := by
    rw [Dev.measured_tmuCount, Dev.irigHeard, Dev.measured_tmuUpd _ _ rfl]
  unfold Dev.irigTaken
  split
  · rw [Dev.measured_tmuUpd _ _ rfl, hcounted]
  · exact hcounted

/-- The time quality of a frame: 0 without an extension. -/
def Dev.irigQuality (d : Dev) (f : IrigIn) : Nat := if bit (d.rdN (tmuReg 4)) 8 then f.q else 0

/-- The source bound of a good frame: by its quality, or IRIGERR. -/
def Dev.irigBound (d : Dev) (f : IrigIn) : Nat :=
  if d.irigQuality f = 0 then bits (d.rdN (tmuReg 0x58)) 15 0 else 10 ^ (d.irigQuality f - 1)

theorem Dev.irigBound_eq (d : Dev) (f : IrigIn) :
    d.irigBound f = if bit (d.rdN (tmuReg 4)) 8 ∧ f.q ≠ 0 then 10 ^ (f.q - 1) else bits (d.rdN (tmuReg 0x58)) 15 0 := by
  unfold Dev.irigBound Dev.irigQuality
  cases bit (d.rdN (tmuReg 4)) 8 with
  | false => simp
  | true => by_cases h : f.q = 0 <;> simp [h]

section
variable {d : Dev} {f : IrigIn} (hon : bit (d.rdN (tmuReg 4)) 7 = true)
include hon

theorem Dev.irigFrame_good (hok : f.ok = true) (hext : bit (d.rdN (tmuReg 4)) 8 = false ∨ (irigControl f.fmt = true ∧ f.q < 12))
    (hnext : d.tmu.irigPrev.all (fun p => decide (d.irigSecs f = p + 1)) = true) (x : Nat) :
    ∃ off, d.irigFrame x f = (d.irigTaken f).goodMeas 3 off (d.irigBound f) := by
  have hq : d.irigQuality f < 12 := by
    unfold Dev.irigQuality
    split
    · rename_i hbit
      exact (hext.resolve_left (by simp [hbit])).2
    · decide
  unfold Dev.irigQuality at hq
  unfold Dev.irigFrame
  rw [if_neg (by simp [hon])]
  dsimp only
  rw [if_neg ?good, if_neg (Nat.not_le.2 hq)]
  · exact ⟨_, rfl⟩
  case good =>
    rintro (hfail | h15 | horder | ⟨hbit, hfmt⟩)
    · simp [hok] at hfail
    · exact absurd h15 (Nat.ne_of_lt (Nat.lt_of_lt_of_le hq (by decide)))
    · split at horder
      · rename_i p hprev
        rw [hprev, Option.all_some] at hnext
        exact absurd (of_decide_eq_true hnext) (of_decide_eq_false horder)
      · exact absurd horder (by decide)
    · simp [hbit, hfmt] at hext

end

/-- A failing frame counts, is an event, and starts the count of good frames anew. -/
def Dev.irigFailed (d : Dev) (f : IrigIn) : Dev :=
  let x := Tab.get ({} : TimeSrc) d.tmu.src 3
  (((d.irigHeard f).tmuCount 6).event (tmuReg 0x10) 8).tmuUpd
    (fun u => { u with src := Tab.set {} u.src 3 { x with bad := x.bad + 1, good := 0 } })

theorem Dev.irigFrame_fails {d : Dev} {f : IrigIn} (hon : bit (d.rdN (tmuReg 4)) 7 = true)
    (hbad : f.ok = false ∨ (bit (d.rdN (tmuReg 4)) 8 = true ∧ irigControl f.fmt = false)) (x : Nat) :
    d.irigFrame x f = d.irigFailed f ∨ d.irigFrame x f = (d.irigFailed f).sourceLoss 3 := by
  unfold Dev.irigFrame
  dsimp only
  rw [if_neg (by simp [hon]), if_pos (by tauto)]
  exact (ite_eq_or_eq _ _ _).symm

theorem Dev.irigFailed_good (d : Dev) (f : IrigIn) : (Tab.get {} (d.irigFailed f).tmu.src 3).good = 0 := by
  rw [Dev.irigFailed, Dev.tmuUpd_tmu, Tab.get_set_same]

theorem Dev.irigFailed_count (d : Dev) (f : IrigIn) : (d.irigFailed f).rd64 (tmuReg 0x130) = (d.rd64 (tmuReg 0x130) + 1) % 2 ^ 64 := by
  rw [Dev.irigFailed, Dev.rd64_tmuUpd_count _ _ (by decide), Dev.rd64_event_count _ _ (by decide),
    ← d.rd64_tmuUpd_count (fun u => { u with irigPrev := some (d.irigSecs f) }) (by decide)]
  exact Dev.rd64_tmuCount_same _ 6

theorem Dev.irigFailed_event (d : Dev) (f : IrigIn) : wbit ((d.irigFailed f).rd (tmuReg 0x10)) 8 = true := by
  rw [Dev.irigFailed, Dev.rd_tmuUpd_other _ _ (by decide) (by decide)]
  exact Dev.event_set _ _ _ (by decide)

/-! ### Firmware sets the time, steps land, the bound is renewed (R282, R289, R290, R294) -/

theorem Dev.boundAt_tmu (d : Dev) (mag srcb : Nat) :
    ∃ b e, (d.boundAt mag srcb).tmu = { d.tmu with goodBound := b, grown := 0, goodAt := d.now, landed := false, err := e } :=
  ⟨_, Dev.setBound_tmu _ _⟩

theorem Dev.schedStep_tmu (d : Dev) (off : Int) :
    ∃ p st b, (d.schedStep off).tmu = { d.tmu with pend := p, state := st, everLocked := b } := by
  unfold Dev.schedStep
  split
  · exact ⟨_, d.tmu.state, d.tmu.everLocked, rfl⟩
  · exact ⟨_, .stepping, Dev.tmuState_tmu _ _⟩

/-- R293: with none pending, a step is scheduled at the present reported time. -/
theorem Dev.schedStep_first {d : Dev} (h : d.tmu.pend = none) (off : Int) :
    ∃ b, (d.schedStep off).tmu =
      { d.tmu with pend := some { delta := off, at_ := d.tmu.cnt, prev := d.tmu.state }, state := .stepping, everLocked := b } := by
  unfold Dev.schedStep
  rw [h]
  exact Dev.tmuState_tmu _ _

theorem Dev.cancelStep_tmu (d : Dev) : ∃ p st b, d.cancelStep.tmu = { d.tmu with pend := p, state := st, everLocked := b } := by
  unfold Dev.cancelStep
  split
  · rename_i s _
    exact ⟨none, s.prev, Dev.tmuState_tmu _ _⟩
  · exact ⟨d.tmu.pend, d.tmu.state, d.tmu.everLocked, rfl⟩

theorem Dev.slewMeas_tmu (d : Dev) (off : Int) :
    ∃ p st b, (d.slewMeas off).tmu = { d.tmu with pend := p, state := st, everLocked := b, slew := off * 65536 } := by
  have hcancel : ∃ p st b, (if d.tmu.pend.isSome then d.cancelStep else d).tmu = { d.tmu with pend := p, state := st, everLocked := b } := by
    split
    · exact d.cancelStep_tmu
    · exact ⟨d.tmu.pend, d.tmu.state, d.tmu.everLocked, rfl⟩
  obtain ⟨p, st, b, h⟩ := hcancel
  refine ⟨p, st, b, ?_⟩
  unfold Dev.slewMeas Dev.slewBy
  dsimp only
  rw [Dev.tmuUpd_tmu, apply_ite Dev.tmu, Dev.event_tmu, ite_self, h]

/-- R292: a small offset, with no step pending, is slewed and nothing else. -/
theorem Dev.slewMeas_small {d : Dev} {off : Int} (hpend : d.tmu.pend = none) (hsmall : off.natAbs ≤ 4 * d.stepThr) :
    d.slewMeas off = d.slewBy off := by
  have hnone : (if d.tmu.pend.isSome then d.cancelStep else d) = d := by
    rw [hpend]
    rfl
  unfold Dev.slewMeas
  dsimp only
  rw [hnone, if_neg (Nat.not_lt.2 hsmall)]

/-- R289: the set is a measurement of source 4, of no source that qualifies. -/
def Dev.setByFirmware (d : Dev) (bound : Nat) : Dev := d.tmuUpd (fun t => { t with source := 4, offs := [], offSrc := 4, offSrcb := bound })

theorem Dev.timeSet_refused {d : Dev} {bound : Nat} (h : d.tmu.sel ≠ 0 ∨ bound < 1000000) (q : Nat) : (d.timeSet q bound).1 = d := by
  unfold Dev.timeSet
  rw [if_pos h]

/-- The bound that a set leaves when it is slewed. -/
def Dev.setBoundNs (d : Dev) (q bound : Nat) : Nat := nsUp ((q : Int) - d.tmu.cnt) + bound + d.boardErr

/-- A set that is slewed. -/
def Dev.setSlewed (d : Dev) (q bound : Nat) : Dev :=
  ((((d.setByFirmware bound).slewMeas ((q : Int) - d.tmu.cnt)).tmuUpd
    (fun t => { t with goodBound := d.setBoundNs q bound, grown := 0, goodAt := d.now, landed := false })).setBound (d.setBoundNs q bound))

/-- A set that is stepped. -/
def Dev.setStepped (d : Dev) (q bound : Nat) : Dev :=
  ((d.setByFirmware bound).schedStep ((q : Int) - d.tmu.cnt)).boundAt (nsUp ((q : Int) - d.tmu.cnt)) bound

theorem Dev.timeSet_accepted {d : Dev} {bound : Nat} (hsel : d.tmu.sel = 0) (hbound : 1000000 ≤ bound) (q : Nat) :
    (d.timeSet q bound).1 = if d.tmu.unknown || (decide (4 * d.stepThr < ((q : Int) - d.tmu.cnt).natAbs) && d.mayStep)
      then d.setStepped q bound else d.setSlewed q bound := by
  unfold Dev.timeSet
  rw [if_neg (by omega)]
  dsimp only
  split
  · rfl
  · rfl

/-- A set has SOURCE 4 and leaves the sources and the selection (none) as they are. -/
theorem Dev.timeSet_source {d : Dev} {bound : Nat} (hsel : d.tmu.sel = 0) (hbound : 1000000 ≤ bound) (q : Nat) :
    (d.timeSet q bound).1.tmu.source = 4 ∧ (d.timeSet q bound).1.tmu.sel = 0 ∧ (d.timeSet q bound).1.tmu.src = d.tmu.src := by
  rw [Dev.timeSet_accepted hsel hbound]
  split
  · obtain ⟨b, e, hb⟩ := ((d.setByFirmware bound).schedStep ((q : Int) - d.tmu.cnt)).boundAt_tmu (nsUp ((q : Int) - d.tmu.cnt)) bound
    obtain ⟨p, st, l, hp⟩ := (d.setByFirmware bound).schedStep_tmu ((q : Int) - d.tmu.cnt)
    rw [Dev.setStepped, hb, hp]
    exact ⟨rfl, hsel, rfl⟩
  · obtain ⟨e, he⟩ := Dev.setBound_tmu (((d.setByFirmware bound).slewMeas ((q : Int) - d.tmu.cnt)).tmuUpd
      (fun t => { t with goodBound := d.setBoundNs q bound, grown := 0, goodAt := d.now, landed := false })) (d.setBoundNs q bound)
    obtain ⟨p, st, l, hp⟩ := (d.setByFirmware bound).slewMeas_tmu ((q : Int) - d.tmu.cnt)
    rw [Dev.setSlewed, he, Dev.tmuUpd_tmu, hp]
    exact ⟨rfl, hsel, rfl⟩

/-- R293: the first set of a time that is UNKNOWN is a step. -/
theorem Dev.timeSet_unknown {d : Dev} {bound : Nat} (hsel : d.tmu.sel = 0) (hbound : 1000000 ≤ bound) (hunknown : d.tmu.unknown = true)
    (hpend : d.tmu.pend = none) (q : Nat) :
    (d.timeSet q bound).1.tmu.state = .stepping ∧
    (d.timeSet q bound).1.tmu.pend = some { delta := (q : Int) - d.tmu.cnt, at_ := d.tmu.cnt, prev := d.tmu.state } := by
  rw [Dev.timeSet_accepted hsel hbound, hunknown, if_pos (by rfl)]
  obtain ⟨b, e, hb⟩ := ((d.setByFirmware bound).schedStep ((q : Int) - d.tmu.cnt)).boundAt_tmu (nsUp ((q : Int) - d.tmu.cnt)) bound
  obtain ⟨l, hp⟩ := Dev.schedStep_first (d := d.setByFirmware bound) hpend ((q : Int) - d.tmu.cnt)
  rw [Dev.setStepped, hb, hp]
  exact ⟨rfl, rfl⟩

/-- R292: a set close to the present time is slewed. -/
theorem Dev.timeSet_close {d : Dev} {q bound : Nat} (hsel : d.tmu.sel = 0) (hbound : 1000000 ≤ bound) (hknown : d.tmu.unknown = false)
    (hpend : d.tmu.pend = none) (hsmall : ((q : Int) - d.tmu.cnt).natAbs ≤ 4 * d.stepThr) :
    (d.timeSet q bound).1.tmu.state = d.tmu.state ∧ (d.timeSet q bound).1.tmu.slew = ((q : Int) - d.tmu.cnt) * 65536 ∧
    (d.timeSet q bound).1.tmu.err = min 0xFFFFFFFE (d.setBoundNs q bound) := by
  have hthr : (d.setByFirmware bound).stepThr = d.stepThr := d.rdN_tmuUpd_other _ (by decide) (by decide)
  have hslew : (d.setByFirmware bound).slewMeas ((q : Int) - d.tmu.cnt) = (d.setByFirmware bound).slewBy ((q : Int) - d.tmu.cnt) :=
    Dev.slewMeas_small hpend (by rwa [hthr])
  rw [Dev.timeSet_accepted hsel hbound, hknown, decide_eq_false (Nat.not_lt.2 hsmall), Bool.false_and,
    Bool.or_false, if_neg Bool.false_ne_true, Dev.setSlewed, hslew]
  obtain ⟨e, he⟩ := Dev.setBound_tmu (((d.setByFirmware bound).slewBy ((q : Int) - d.tmu.cnt)).tmuUpd
    (fun t => { t with goodBound := d.setBoundNs q bound, grown := 0, goodAt := d.now, landed := false })) (d.setBoundNs q bound)
  refine ⟨?_, ?_, Dev.setBound_err (by exact hknown) _⟩
  · rw [he]
    rfl
  · rw [he]
    rfl

theorem Dev.stepGroup_grpSet (d : Dev) (g : Nat) : ∃ x, d.stepGroup g = d.grpSet g x := by
  unfold Dev.stepGroup
  dsimp only
  split
  · split
    · exact ⟨_, rfl⟩
    · exact ⟨_, rfl⟩
  · exact ⟨_, rfl⟩

theorem Dev.stepGroups_keeps (d : Dev) (gs : List Nat) : (d.stepGroups gs).tmu = d.tmu ∧ (d.stepGroups gs).regs = d.regs := by
  induction gs generalizing d with
  | nil => exact ⟨rfl, rfl⟩
  | cons g gs ih =>
    obtain ⟨x, hx⟩ := d.stepGroup_grpSet g
    rw [Dev.stepGroups, hx]
    exact ih _

/-- The landing up to the change of STATE: the old time and the new EPOCH for the report, then the jump. -/
def Dev.landed (d : Dev) (p : PendStep) (code det : Nat) : Dev :=
  let old := d.tmuUpd (fun t => { t with cnt := p.boundary, epoch := (t.epoch + 1) % 256, slew := 0, frac := 0 })
  let bound := d.tmu.offSrcb + d.boardErr + d.lockThr
  ((old.report 0x0E code 0 0xFF det).event (tmuReg 0x10) 0).tmuUpd (fun t =>
    { t with
      cnt := ((p.boundary : Int) + p.delta).toNat, pend := none, unknown := false, lastDelta := p.delta, goodBound := bound, grown := 0,
      goodAt := d.now, landed := true, err := min 0xFFFFFFFE bound })

theorem Dev.landed_event (d : Dev) (p : PendStep) (code det : Nat) : wbit ((d.landed p code det).rd (tmuReg 0x10)) 0 = true := by
  unfold Dev.landed
  dsimp only
  rw [Dev.rd_tmuUpd_other _ _ (by decide) (by decide)]
  exact Dev.event_set _ _ _ (by decide)

/-- R294, R311: after the jump STATE changes, STEPS counts, OMITTED too if a pulse is left out, and the groups take the step. -/
theorem Dev.stepLand_lands {d : Dev} {p : PendStep} (h : d.tmu.pend = some p) : ∃ (code det : Nat) (st : TimeState) (omits : Bool),
    d.stepLand = (if omits then (((d.landed p code det).tmuState st).tmuCount 0).tmuCount 2
      else ((d.landed p code det).tmuState st).tmuCount 0).stepGroups (upTo 64) := by
  unfold Dev.stepLand
  rw [h]
  exact ⟨_, _, _, _, rfl⟩

theorem Dev.stepLand_tmu {d : Dev} {p : PendStep} (h : d.tmu.pend = some p) :
    d.stepLand.tmu.cnt = ((p.boundary : Int) + p.delta).toNat ∧ d.stepLand.tmu.epoch = (d.tmu.epoch + 1) % 256 ∧
    d.stepLand.tmu.pend = none ∧ d.stepLand.tmu.unknown = false ∧ d.stepLand.tmu.slew = 0 := by
  obtain ⟨code, det, st, omits, hland⟩ := Dev.stepLand_lands h
  obtain ⟨l, hl⟩ := (d.landed p code det).tmuState_tmu st
  rw [hland, (Dev.stepGroups_keeps _ _).1, apply_ite Dev.tmu, Dev.tmuCount_tmu, ite_self, Dev.tmuCount_tmu, hl]
  unfold Dev.landed
  dsimp only
  rw [Dev.tmuUpd_tmu, Dev.event_tmu, Dev.report_tmu, Dev.tmuUpd_tmu]
  exact ⟨rfl, rfl, rfl, rfl, rfl⟩

theorem Dev.stepLand_event {d : Dev} {p : PendStep} (h : d.tmu.pend = some p) : wbit (d.stepLand.rd (tmuReg 0x10)) 0 = true := by
  obtain ⟨code, det, st, omits, hland⟩ := Dev.stepLand_lands h
  have hset : wbit ((((d.landed p code det).tmuState st).tmuCount 0).rd (tmuReg 0x10)) 0 = true := by
    rw [Dev.rd_tmuCount_other _ (by decide)]
    exact (Dev.steers_tmuState _ _).events 0 (d.landed_event p code det)
  rw [hland, Dev.rd_of_regs (Dev.stepGroups_keeps _ _).2]
  split
  · rwa [Dev.rd_tmuCount_other _ (by decide)]
  · exact hset

/-- R282: the bound as it will stand at the end of the millisecond. -/
def Dev.boundAhead (d : Dev) : Nat := ({ d with now := d.now + msec } : Dev).boundNow

theorem Dev.errorBound_err {d : Dev} (h : d.tmu.unknown = false) : d.errorBound.tmu.err = min 0xFFFFFFFE d.boundAhead := by
  unfold Dev.errorBound
  dsimp only
  split
  · obtain ⟨l, hl⟩ := (d.setBound d.boundAhead).tmuState_tmu .freerun
    exact (congrArg Tmu.err hl).trans (Dev.setBound_err h _)
  · exact Dev.setBound_err h _

theorem Dev.errorBound_freerun {d : Dev} (hstate : d.tmu.state = .holdover) (hlim : d.rdN (tmuReg 0x34) < d.boundAhead) :
    d.errorBound.tmu.state = .freerun := by
  unfold Dev.errorBound
  dsimp only
  rw [if_pos ⟨hstate, hlim⟩]
  obtain ⟨l, hl⟩ := (d.setBound d.boundAhead).tmuState_tmu .freerun
  exact congrArg Tmu.state hl

/-! ### Reference, pulses, leap seconds, NOW (R279, R283, R295, R297) -/

theorem Dev.rd64_foldGrowth (d : Dev) {k : Nat} (hk : tmuReg 0x100 ≤ k) : d.foldGrowth.rd64 k = d.rd64 k := by
  unfold Dev.foldGrowth
  exact d.rd64_tmuUpd_count _ hk

/-- TUCLK has moved to the 10 MHz reference (b) or to the crystal. -/
def Dev.refMoved (d : Dev) (b : Bool) : Dev := ((d.foldGrowth.tmuUpd (fun t => { t with refIn := b })).event (tmuReg 0x10) 5).tmuCount 10

theorem Dev.refLoss_moves {d : Dev} (h : d.tmu.refIn = true) : d.refLoss = d.refMoved false := if_pos h

theorem Dev.refReturn_moves {d : Dev} (h : d.tmu.refIn = false) (hsel : bit (d.rdN (tmuReg 4)) 4 = false) : d.refReturn = d.refMoved true :=
  if_neg (by simp [h, hsel])

/-- R283: a change of the reference is an event and a count. -/
theorem Dev.refMoved_parts (d : Dev) (b : Bool) :
    (d.refMoved b).tmu.refIn = b ∧ wbit ((d.refMoved b).rd (tmuReg 0x10)) 5 = true ∧
    (d.refMoved b).rd64 (tmuReg 0x150) = (d.rd64 (tmuReg 0x150) + 1) % 2 ^ 64 := by
  refine ⟨?_, ?_, ?_⟩
  · rw [Dev.refMoved, Dev.tmuCount_tmu, Dev.event_tmu, Dev.tmuUpd_tmu]
  · rw [Dev.refMoved, Dev.rd_tmuCount_other _ (by decide)]
    exact Dev.event_set _ _ _ (by decide)
  · have hkept : ((d.foldGrowth.tmuUpd (fun t => { t with refIn := b })).event (tmuReg 0x10) 5).rd64 (tmuReg 0x150) = d.rd64 (tmuReg 0x150) := by
      rw [Dev.rd64_event_count _ _ (by decide), Dev.rd64_tmuUpd_count _ _ (by decide), Dev.rd64_foldGrowth _ (by decide)]
    rw [Dev.refMoved, ← hkept]
    exact Dev.rd64_tmuCount_same _ 10

theorem Dev.ppsOut_rises {d : Dev} (hon : bit (d.rdN (tmuReg 4)) 0 = true) (hknown : (bit (d.rdN (tmuReg 4)) 1 && d.tmu.unknown) = false)
    (hlow : d.tmu.ppsOut = false) : d.ppsOut.tmu.ppsOut = true ∧ d.ppsOut.out = .pin "PPS_OUT" true :: d.out := by
  unfold Dev.ppsOut
  dsimp only
  rw [if_pos (by simp only [hon, hknown, hlow]; decide)]
  exact ⟨rfl, rfl⟩

theorem Dev.ppsOutEnd_falls {d : Dev} (hhigh : d.tmu.ppsOut = true) (hdue : d.tmu.ppsUntil ≤ d.now) :
    d.ppsOutEnd.tmu.ppsOut = false ∧ d.ppsOutEnd.out = .pin "PPS_OUT" false :: d.out := by
  unfold Dev.ppsOutEnd
  rw [if_pos (by simp [hhigh, hdue])]
  exact ⟨rfl, rfl⟩

/-- The word of TMU_UTCOFF shows the announced leap second. -/
theorem Dev.rdN_tmuUpd_utc (d : Dev) (f : Tmu → Tmu) :
    (d.tmuUpd f).rdN (tmuReg 0x38) = putBits (d.rdN (tmuReg 0x38)) 17 16 (leapBits (f d.tmu).leap) % 4294967296 := by
  unfold Dev.tmuUpd Dev.tmuRegs
  dsimp only
  rw [Dev.rdN_wrN_other _ _ (by decide), Dev.rdN_wrN_same]
  rfl

/-- A second more or less is another value of the 16 bits of TMU_UTCOFF. -/
theorem wrapI_leap_ne (x : Nat) {l : Int} (hl : l = 1 ∨ l = -1) : x % 65536 ≠ wrapI 16 (sext 16 x + l) := by
  unfold wrapI sext
  dsimp only
  split
  · omega
  · omega

theorem wrapI_16_lt (v : Int) : wrapI 16 v < 65536 := by
  unfold wrapI
  omega

/-- Bits 17 and 16 are put beside the low 16, and the low 16 beside them. -/
theorem putBits_17_16_low (x : Nat) : putBits x 17 16 0 % 4294967296 % 65536 = x % 65536 := by
  unfold putBits bits
  omega

theorem putBits_15_0_low (x : Nat) {v : Nat} (hv : v < 65536) : putBits x 15 0 v % 4294967296 % 65536 = v := by
  unfold putBits bits
  omega

theorem putBits_15_0_high (x v : Nat) : bits (putBits x 15 0 v % 4294967296) 17 16 = bits x 17 16 := by
  unfold putBits bits
  omega

theorem bits_mod_word_17_16 (x : Nat) : bits (x % 4294967296) 17 16 = bits x 17 16 := by
  unfold bits
  omega

theorem Dev.leapSecond_passes {d : Dev} (h : d.tmu.leap = 1 ∨ d.tmu.leap = -1) :
    d.leapSecond.rdN (tmuReg 0x38) % 65536 = wrapI 16 (sext 16 (d.rdN (tmuReg 0x38)) + d.tmu.leap) ∧ d.leapSecond.tmu.leap = 0 ∧
    bits (d.leapSecond.rdN (tmuReg 0x38)) 17 16 = 0 ∧ wbit (d.leapSecond.rd (tmuReg 0x10)) 6 = true := by
  have hword : (d.tmuUpd (fun t => { t with leap := 0 })).rdN (tmuReg 0x38) = putBits (d.rdN (tmuReg 0x38)) 17 16 0 % 4294967296 :=
    d.rdN_tmuUpd_utc _
  have hchanges : (d.tmuUpd (fun t => { t with leap := 0 })).rdN (tmuReg 0x38) % 65536 ≠
      wrapI 16 (sext 16 (d.rdN (tmuReg 0x38)) + d.tmu.leap) := by
    rw [hword, putBits_17_16_low]
    exact wrapI_leap_ne _ h
  have hleap : d.leapSecond = ((d.tmuUpd (fun t => { t with leap := 0 })).wrN (tmuReg 0x38)
      (putBits (putBits (d.rdN (tmuReg 0x38)) 17 16 0 % 4294967296) 15 0
        (wrapI 16 (sext 16 (d.rdN (tmuReg 0x38)) + d.tmu.leap)))).event (tmuReg 0x10) 6 := by
    unfold Dev.leapSecond Dev.utcSet
    dsimp only
    rw [if_neg (by omega), if_neg hchanges, hword]
  rw [hleap, Dev.rdN_event_other _ _ (by decide), Dev.rdN_wrN_same]
  refine ⟨putBits_15_0_low _ (wrapI_16_lt _), ?_, ?_, Dev.event_set _ _ _ (by decide)⟩
  · rw [Dev.event_tmu, Dev.wrN_tmu, Dev.tmuUpd_tmu]
  · rw [putBits_15_0_high, bits_mod_word_17_16, bits_putBits_same]
    rfl

/-- R297: what a read of TMU_NOW0 latches for its requester. -/
theorem Dev.nowRead_latches (d : Dev) (who : Req) :
    Tab.find (d.nowRead who).host.nowLatch (8 * who.code + 1) = some (d.stamp.seconds % 2 ^ 32) ∧
    Tab.find (d.nowRead who).host.nowLatch (8 * who.code + 3) = some d.stamp.epoch ∧
    Tab.find (d.nowRead who).host.nowLatch (8 * who.code + 4) = some (if d.tmu.unknown then 0xFFFFFFFF else d.tmu.err) := by
  unfold Dev.nowRead Dev.nowWord Dev.emit
  dsimp only [List.foldl]
  refine ⟨?_, ?_, ?_⟩
  · rw [Tab.find_put_other _ _ (by omega), Tab.find_put_other _ _ (by omega), Tab.find_put_other _ _ (by omega), Tab.find_put_same]
  · rw [Tab.find_put_other _ _ (by omega), Tab.find_put_same]
  · rw [Tab.find_put_same]

/-- Settles O35, command by command: each clause is what one operation of the unit leaves. -/
theorem theTimeUnitActs : Obligations.TheTimeUnitActs := by
  refine ⟨?ptpGood, ?ptpStale, ?ppsGood, ?irigGood, ?loss, ?refLost, ?refBack, ?set, ?land, ?bound, ?pulse, ?pulseEnd, ?leap, ?now, ?ptpPoor,
    ?ppsEarly, ?irigBad, ?setRefused⟩
  case ptpGood =>
    intro s c off epoch extra cls ha hmay hon hnew hcls
    refine ⟨_, Machine.exec_ptpMeasurement_open ha hmay off epoch extra cls, ?_⟩
    dsimp only
    rw [Dev.ptpMeasurement_good hon hnew hcls, Dev.goodMeas_source, Dev.measured_tmuCount, Dev.measured_measWritten,
      Dev.goodMeas_rd64 _ _ _ _ (by decide)]
    refine ⟨rfl, (Dev.rd64_tmuCount_same _ 7).trans ?_⟩
    rw [Dev.rd64_measWritten _ _ _ (by decide)]
  case ptpStale =>
    intro s c off epoch extra cls ha hmay hon hold
    refine ⟨_, Machine.exec_ptpMeasurement_open ha hmay off epoch extra cls, ?_⟩
    dsimp only
    rw [Dev.ptpMeasurement_stale hon hold]
    refine ⟨rfl, (Dev.rd64_tmuCount_same _ 8).trans ?_⟩
    rw [Dev.rd64_measWritten _ _ _ (by decide)]
  case ppsGood =>
    intro s x hruns hon hlate hwin hknown
    refine ⟨_, Machine.exec_ppsInEdge_runs hruns x, ?_⟩
    dsimp only
    rw [Dev.ppsIn_accepted hon hlate (hwin.imp_right Dev.ppsOffset_within) hknown, Dev.goodMeas_ppsLast, Dev.goodMeas_source,
      Dev.measured_tmuCount, Dev.measured_tmuUpd _ _ rfl, Dev.goodMeas_rd64 _ _ _ _ (by decide)]
    refine ⟨rfl, rfl, (Dev.rd64_tmuCount_same _ 3).trans ?_⟩
    rw [Dev.rd64_tmuUpd_count _ _ (by decide)]
  case irigGood =>
    intro s x f hruns hon hok hext hnext
    refine ⟨_, Machine.exec_irigFrame_runs hruns x f, ?_⟩
    obtain ⟨off, hgood⟩ := Dev.irigFrame_good hon hok hext hnext x
    dsimp only
    rw [hgood, Dev.goodMeas_irigPrev, Dev.goodMeas_source, Dev.measured_irigTaken, Dev.goodMeas_rd64 _ _ _ _ (by decide), Dev.irigBound_eq]
    exact ⟨s.dev.irigTaken_irigPrev f, rfl, s.dev.irigTaken_count f⟩
  case loss =>
    intro s k hruns hqual
    refine ⟨_, Machine.exec_sourceLoss_runs hruns k, ?_⟩
    dsimp only
    rw [Dev.sourceLoss_source]
    exact ⟨rfl, rfl, Dev.sourceLoss_qualified hqual⟩
  case refLost =>
    intro s hruns href
    refine ⟨_, Machine.exec_refLoss_runs hruns, ?_⟩
    dsimp only
    rw [Dev.refLoss_moves href]
    exact s.dev.refMoved_parts false
  case refBack =>
    intro s hruns href hsel
    refine ⟨_, Machine.exec_refReturn_runs hruns, ?_⟩
    dsimp only
    rw [Dev.refReturn_moves href hsel]
    exact s.dev.refMoved_parts true
  case set =>
    intro s q bound ha hready hheld hsel hbound
    refine ⟨_, Machine.exec_timeSet_alive ha q bound, ?_⟩
    dsimp only
    rw [Dev.fwDo_open hready hheld]
    obtain ⟨hsource, hnone, hsrc⟩ := Dev.timeSet_source hsel hbound q
    exact ⟨hsource, hnone, hsrc, fun hunknown hpend => Dev.timeSet_unknown hsel hbound hunknown hpend q,
      fun hknown hpend hsmall => Dev.timeSet_close hsel hbound hknown hpend hsmall⟩
  case land =>
    intro s p hruns hpend
    refine ⟨_, Machine.exec_stepLand_runs hruns, ?_⟩
    obtain ⟨hcnt, hepoch, hnone, hknown, hslew⟩ := Dev.stepLand_tmu hpend
    exact ⟨hcnt, hepoch, hnone, hknown, hslew, Dev.stepLand_event hpend⟩
  case bound =>
    intro s hruns hknown
    exact ⟨_, Machine.exec_errorBoundUpdate_runs hruns, Dev.errorBound_err hknown, Dev.errorBound_freerun⟩
  case pulse =>
    intro s hruns hon hknown hlow
    exact ⟨_, Machine.exec_ppsOutPulse_runs hruns, Dev.ppsOut_rises hon hknown hlow⟩
  case pulseEnd =>
    intro s hruns hhigh hdue
    exact ⟨_, Machine.exec_ppsOutEnd_runs hruns, Dev.ppsOutEnd_falls hhigh hdue⟩
  case leap =>
    intro s hruns hleap
    exact ⟨_, Machine.exec_leapSecond_runs hruns, Dev.leapSecond_passes hleap⟩
  case now =>
    intro s who ha ho
    exact ⟨_, Machine.exec_tmuNowRead_open ha ho, rfl, s.dev.nowRead_latches who⟩
  case ptpPoor =>
    intro s c off epoch extra cls ha hmay hon hnew hpoor
    refine ⟨_, Machine.exec_ptpMeasurement_open ha hmay off epoch extra cls, ?_⟩
    dsimp only
    rw [Dev.ptpMeasurement_poor hon hnew hpoor, Dev.sourceLoss_source]
    exact ⟨rfl, rfl⟩
  case ppsEarly =>
    intro s x l hruns hon hlast hsoon
    refine ⟨_, Machine.exec_ppsInEdge_runs hruns x, ?_⟩
    dsimp only
    rw [Dev.ppsIn_early hon hlast hsoon, Dev.event_tmu, Dev.rd64_event_count _ _ (by decide)]
    exact ⟨rfl, Dev.rd64_tmuCount_same _ 4, Dev.event_set _ _ _ (by decide)⟩
  case irigBad =>
    intro s x f hruns hon hbad
    refine ⟨_, Machine.exec_irigFrame_runs hruns x f, ?_⟩
    dsimp only
    obtain hfails | hfails := Dev.irigFrame_fails hon hbad x
    · rw [hfails]
      exact ⟨s.dev.irigFailed_good f, s.dev.irigFailed_count f, s.dev.irigFailed_event f⟩
    · rw [hfails, Dev.sourceLoss_source, Dev.rd64_sourceLoss _ _ (by decide) (by decide)]
      exact ⟨rfl, s.dev.irigFailed_count f, Dev.sourceLoss_events _ _ (s.dev.irigFailed_event f)⟩
  case setRefused =>
    intro s q bound ha hrefused
    refine ⟨_, Machine.exec_timeSet_alive ha q bound, ?_⟩
    have hsame : s.dev.fwDo (fun d => (d.timeSet q bound).1) = s.dev := by
      unfold Dev.fwDo
      split
      · exact Dev.timeSet_refused hrefused q
      · rfl
    rw [hsame]

end Sys2Proof
end

section
/-! What holds of every command by way of its gate: a command answers a next state with the queue as it was, and a property or a relation
that the command's operation keeps, the command keeps. From these the obligations O1, O2 and O3. -/

namespace Sys2Proof

theorem Machine.exec_supply_gated {c : Instr} (h : c.supply = true) (s : Machine.State) : ∃ f, Machine.exec c s = Machine.always s f := by
  cases c
  case porstRise | vholdRise | sagTrigger | saveDone | sagRestart =>
    dsimp only [Machine.exec]
    exact ⟨_, rfl⟩
  all_goals exact absurd h Bool.false_ne_true

/-- Settles O3: each of the three gates answers a next state and leaves the queue (log 10). -/
theorem everyCommandAnswersAndLeavesTheQueue : Obligations.EveryCommandAnswersAndLeavesTheQueue := by
  intro c s
  cases ht : c.timeUnit with
  | true =>
    obtain ⟨f, hf⟩ := Machine.exec_timeUnit_gated ht s
    exact ⟨_, hf, rfl⟩
  | false =>
    cases hs : c.supply with
    | true =>
      obtain ⟨f, hf⟩ := Machine.exec_supply_gated hs s
      exact ⟨_, hf, rfl⟩
    | false =>
      obtain ⟨f, hf⟩ := Machine.exec_gated ht hs s
      exact ⟨_, hf, rfl⟩

/-- Settles O1: a step is the command at the front of the queue. -/
theorem stepRunsTheFrontCommand : Obligations.StepRunsTheFrontCommand := by
  intro c rest s hq
  unfold Machine.step
  rw [hq]

/-! ### The passing of time (log 1) -/

theorem Machine.step_idle {s : Machine.State} (h : s.pending = []) : Machine.step s = .next { s with dev := s.dev.idle } := by
  unfold Machine.step
  rw [h]

@[simp] theorem Dev.emitAll_now (d : Dev) (os : List Out) : (d.emitAll os).now = d.now := by
  induction os generalizing d with
  | nil => rfl
  | cons o os ih => exact ih (d.emit o)
@[simp] theorem Dev.mgmtDrain_now (d : Dev) : d.mgmtDrain.now = d.now := by
  unfold Dev.mgmtDrain
  split
  · rfl
  · exact Dev.emitAll_now _ _
@[simp] theorem Dev.teleDgram_now (d : Dev) (rs : List TelRec) : (d.teleDgram rs).now = d.now := by
  unfold Dev.teleDgram Dev.mgmtOut
  dsimp only
  split <;> rfl
@[simp] theorem Dev.teleSend_now (d : Dev) : d.teleSend.now = d.now := by
  have hdgram : ∀ e : Dev, ∀ x : TelPath, ∀ rs : List TelRec, ((e.pathSet 1 x).teleDgram rs).now = e.now := fun e x rs => Dev.teleDgram_now _ rs
  unfold Dev.teleSend
  dsimp only
  split <;> split
  · exact (hdgram _ _ _).trans d.mgmtDrain_now
  · exact (hdgram _ _ _).trans d.mgmtDrain_now
  · exact d.mgmtDrain_now
  · exact d.mgmtDrain_now

theorem Dev.idle_alive {d : Dev} (h : d.alive = true) : d.idle = d.tick.teleSend := by
  unfold Dev.idle
  rw [if_pos h]

/-- Settles O2, as the model's choice of log entry 1. -/
theorem anIdleStepPassesOneTick : Obligations.AnIdleStepPassesOneTick := by
  intro s hq
  refine ⟨_, Machine.step_idle hq, hq, fun ha => ?_, fun ha hsave hfrozen => ?_, fun ha hstill => ?_⟩
  · rw [Dev.idle_tensor, Dev.idle_fuses]
    refine ⟨?_, rfl, rfl⟩
    rw [Dev.idle_alive ha, Dev.teleSend_now]
    rfl
  · simp [Dev.idle, ha, hsave, hfrozen, Dev.tick]
  · have hidle : s.dev.idle = s.dev := by
      unfold Dev.idle
      rw [ha]
      obtain hnone | hfrozen := hstill
      · simp [hnone]
      · simp [hfrozen]
    rw [hidle]

end Sys2Proof
end

section
/-! The invariants of a step: the canonical form of the memories and the fuses that only burn. Each command is one operation behind a gate;
the operation keeps the invariant by its own law, and the gate hands that on. From these the obligations O10 and O11. -/

namespace Sys2Proof

/-! ### A property that an operation keeps, its command keeps -/

theorem Machine.live_preserves {P : Dev → Prop} {s t : Machine.State} {f : Dev → Dev} (h : Machine.live s f = .next t) (hs : P s.dev)
    (hf : ∀ d, P d → P (f d)) : P t.dev := by
  unfold Machine.live at h
  simp only [Host.Outcome.next.injEq] at h
  subst h
  dsimp only
  split
  · exact hf _ hs
  · exact hs

theorem Machine.timeLive_preserves {P : Dev → Prop} {s t : Machine.State} {f : Dev → Dev} (h : Machine.timeLive s f = .next t) (hs : P s.dev)
    (hf : ∀ d, P d → P (f d)) : P t.dev := by
  unfold Machine.timeLive at h
  simp only [Host.Outcome.next.injEq] at h
  subst h
  dsimp only
  split
  · exact hf _ hs
  · exact hs

theorem Machine.always_preserves {P : Dev → Prop} {s t : Machine.State} {f : Dev → Dev} (h : Machine.always s f = .next t) (hs : P s.dev)
    (hf : ∀ d, P d → P (f d)) : P t.dev := by
  unfold Machine.always at h
  simp only [Host.Outcome.next.injEq] at h
  subst h
  exact hf _ hs

/-- A property that the front command's operation keeps, or the passing of time, a step keeps. -/
theorem Machine.step_preserves {P : Dev → Prop} (hidle : ∀ d, P d → P d.idle)
    (hexec : ∀ {c : Instr} {s t : Machine.State}, P s.dev → Machine.exec c s = .next t → P t.dev) {s t : Machine.State} (hs : P s.dev)
    (h : Machine.step s = .next t) : P t.dev := by
  cases hq : s.pending with
  | nil =>
    rw [Machine.step_idle hq, Host.Outcome.next.injEq] at h
    subst h
    exact hidle _ hs
  | cons c rest =>
    rw [stepRunsTheFrontCommand c rest s hq] at h
    exact hexec (s := { s with pending := rest }) hs h

/-! ### The canonical form of the memories -/

theorem Machine.exec_memOk {c : Instr} {s t : Machine.State} (hs : s.dev.memOk = true) (h : Machine.exec c s = .next t) :
    t.dev.memOk = true := by
  cases c
  all_goals dsimp only [Machine.exec] at h
  case refLoss | refReturn | ppsInEdge | irigFrame | sourceLoss | stepLand | errorBoundUpdate | ppsOutPulse | ppsOutEnd | leapSecond =>
    exact Machine.timeLive_preserves (P := fun d => d.memOk = true) h hs fun d hd => by simp [hd]
  case porstRise | vholdRise | sagTrigger | saveDone | sagRestart =>
    exact Machine.always_preserves (P := fun d => d.memOk = true) h hs fun d hd => by simp [hd]
  case frameRelease n =>
    exact Machine.live_preserves (P := fun d => d.memOk = true) h hs fun d hd => by cases n <;> simp [hd]
  case linkRetrainFail k det =>
    exact Machine.live_preserves (P := fun d => d.memOk = true) h hs fun d hd => by cases k <;> simp [hd]
  all_goals exact Machine.live_preserves (P := fun d => d.memOk = true) h hs fun d hd => by simp [hd]

/-- Settles O10, for the representation of log 100. -/
theorem everyStepKeepsTheMemoryForm : Obligations.EveryStepKeepsTheMemoryForm := by
  intro s t hs h
  exact Machine.step_preserves (P := fun d => d.memOk = true) (fun d hd => by rw [Dev.idle_memOk]; exact hd) Machine.exec_memOk hs h

/-! ### The fuses -/

/-- What a live command may do to the fuses, its operation does. -/
theorem Machine.live_burns {s t : Machine.State} {f : Dev → Dev} (h : Machine.live s f = .next t) (hf : ∀ d, Burns d.fuses (f d).fuses) :
    Burns s.dev.fuses t.dev.fuses :=
  Machine.live_preserves (P := fun d => Burns s.dev.fuses d.fuses) h (Burns.refl _) fun d hd => hd.trans (hf d)

/-- The commands that may burn a fuse: those that carry a write of the dictionary, at once or when a live update lets go of it. -/
def Instr.mayBurn : Instr → Bool
  | .dictWrite .. | .storeSettings .. | .restoreDefaults .. | .tokenStage .. | .sdoDownload .. | .sdoUpload .. | .usdoTransfer ..
  | .udpRead .. | .udpWrite .. | .usbWriteLast .. | .provision .. | .deploy .. | .returnDevice .. | .decommission .. | .commitSvn ..
  | .rekey .. | .revoke .. | .macsecKeyRow .. | .liveUpdateSwitch .. | .liveUpdateResume | .updateAbandon .. => true
  | _ => false

theorem Machine.exec_fuses {c : Instr} {s t : Machine.State} (hc : c.mayBurn = false) (h : Machine.exec c s = .next t) :
    t.dev.fuses = s.dev.fuses := by
  cases c
  all_goals try exact absurd hc.symm Bool.false_ne_true
  all_goals dsimp only [Machine.exec] at h
  case refLoss | refReturn | ppsInEdge | irigFrame | sourceLoss | stepLand | errorBoundUpdate | ppsOutPulse | ppsOutEnd | leapSecond =>
    exact Machine.timeLive_keeps Dev.fuses h fun d => by simp
  case porstRise | vholdRise | sagTrigger | saveDone | sagRestart => exact Machine.always_keeps Dev.fuses h fun d => by simp
  case frameRelease n => exact Machine.live_keeps Dev.fuses h fun d => by cases n <;> simp
  case linkRetrainFail k det => exact Machine.live_keeps Dev.fuses h fun d => by cases k <;> simp
  all_goals exact Machine.live_keeps Dev.fuses h fun d => by simp [Dev.writeDo_fuses, Dev.blockWriteDo_fuses]

theorem Machine.exec_burns {c : Instr} {s t : Machine.State} (h : Machine.exec c s = .next t) : Burns s.dev.fuses t.dev.fuses := by
  cases hc : c.mayBurn with
  | false => exact Burns.of_eq (Machine.exec_fuses hc h)
  | true =>
    cases c
    all_goals try exact absurd hc Bool.false_ne_true
    all_goals dsimp only [Machine.exec] at h
    case dictWrite fn ok => exact Machine.live_burns h fun d => d.dictWriteMsg_burns fn ok
    case storeSettings | restoreDefaults | tokenStage | provision | deploy | returnDevice | decommission | commitSvn | rekey | revoke
        | macsecKeyRow =>
      exact Machine.live_burns h fun d => d.writeVia_burns _ _ _ _ _ _
    case sdoDownload f ok => exact Machine.live_burns h fun d => d.sdoDownload_burns f ok
    case sdoUpload f => exact Machine.live_burns h fun d => d.sdoUpload_burns f
    case usdoTransfer n r ok => exact Machine.live_burns h fun d => d.usdoTransfer_burns n r ok
    case udpRead | udpWrite => exact Machine.live_burns h fun d => d.request_burns _
    case usbWriteLast => exact Machine.live_burns h fun d => d.usbWriteLast_burns _ _ _ _ _ _
    case liveUpdateSwitch x => exact Machine.live_burns h fun d => d.switchImage_burns x
    case liveUpdateResume => exact Machine.live_burns h fun d => d.resumeUpdate_burns
    case updateAbandon typ => exact Machine.live_burns h fun d => d.abandonUpdate_burns typ

/-- Settles O11: a write of the dictionary burns along the lifecycle's transitions, and no other operation touches a fuse. -/
theorem everyStepOnlyBurnsFuses : Obligations.EveryStepOnlyBurnsFuses := by
  intro s t h
  exact Machine.step_preserves (P := fun d => Burns s.dev.fuses d.fuses) (fun d hd => hd.trans (Burns.of_eq d.idle_fuses))
    (fun hs h => hs.trans (Machine.exec_burns h)) (Burns.refl _) h

end Sys2Proof
end

section
/-! The frames of the parts of the device: a command outside the list of a part is one operation that leaves the part by its own law, and a
gate leaves what its operation leaves. A register write reaches a part outside its list only by the protection fault of a firmware
component (R408). From these the obligations O5 to O8. -/

namespace Sys2Proof

/-- Settles O5. -/
theorem frameOfControl : Obligations.FrameOfControl := by
  intro c s t hc h
  cases c
  all_goals try exact absurd hc.symm Bool.false_ne_true
  all_goals dsimp only [Machine.exec] at h
  case refLoss | refReturn | ppsInEdge | irigFrame | sourceLoss | stepLand | ppsOutPulse | ppsOutEnd | leapSecond =>
    exact Machine.timeLive_keeps Dev.control h fun d => by simp
  case frameRelease n => exact Machine.live_keeps Dev.control h fun d => by cases n <;> simp
  case pairLowWrite who _ _ | pairHighWrite who _ _ | versionCommit who _ _ | flwFidxWrite who _ | flwEidxWrite who _ | gntPidxCopy who _ _
      | ptpMeasurement who _ _ _ _ | catRtailWrite who _ _ | pqPushctl who _ _ | lckAcqWrite who _ | lckForce who _ | tenCtrlRun who _
      | tenCtrlPreempt who _ | tenCtrlResume who _ | tenCtrlReset who _ | tenCtrlLock who _ | erlCtlClear who _ | erlIdxWrite who _
      | secMeasselWrite who _ | secPkselWrite who _ =>
    have hw : who.isFw = false := by
      cases who with
      | fw c => exact hc
      | _ => rfl
    exact Machine.live_keeps Dev.control h fun d => by simp [Dev.writeDo_control hw, Dev.blockWriteDo_control hw]
  all_goals
    refine Machine.live_keeps Dev.control h fun d => ?_
    simp [Dev.hostDo_control, Dev.fnDo_control, Dev.fwDo_control, Dev.linkDo_control]

/-- Settles O6. -/
theorem frameOfTheTensorSide : Obligations.FrameOfTheTensorSide := by
  intro c s t hc h
  cases c
  all_goals try exact absurd hc.symm Bool.false_ne_true
  all_goals dsimp only [Machine.exec] at h
  case refLoss | refReturn | ppsInEdge | irigFrame | sourceLoss | stepLand | errorBoundUpdate | ppsOutPulse | ppsOutEnd | leapSecond =>
    exact Machine.timeLive_keeps Dev.tensor h fun d => by simp
  case sagTrigger => exact Machine.always_keeps Dev.tensor h fun d => by simp
  case frameRelease n => exact Machine.live_keeps Dev.tensor h fun d => by cases n <;> simp
  case pairLowWrite who _ _ | pairHighWrite who _ _ | versionCommit who _ _ | flwFidxWrite who _ | flwEidxWrite who _ | gntPidxCopy who _ _
      | ptpMeasurement who _ _ _ _ | catRtailWrite who _ _ | pqPushctl who _ _ | erlCtlClear who _ | erlIdxWrite who _
      | secMeasselWrite who _ | secPkselWrite who _ =>
    have hw : who.isFw = false := by
      cases who with
      | fw c => exact hc
      | _ => rfl
    exact Machine.live_keeps Dev.tensor h fun d => by simp [Dev.writeDo_tensor hw, Dev.blockWriteDo_tensor hw]
  all_goals exact Machine.live_keeps Dev.tensor h fun d => by simp

/-- Settles O7. -/
theorem frameOfTheFlowPlane : Obligations.FrameOfTheFlowPlane := by
  intro c s t hc h
  cases c
  all_goals try exact absurd hc.symm Bool.false_ne_true
  all_goals dsimp only [Machine.exec] at h
  case registerWrite who _ _ _ | pairLowWrite who _ _ | pairHighWrite who _ _ | flwFidxWrite who _ | flwEidxWrite who _ | gntPidxCopy who _ _
      | catRtailWrite who _ _ | pqPushctl who _ _ | lckAcqWrite who _ | lckForce who _ | tenCtrlRun who _
      | tenCtrlPreempt who _ | tenCtrlResume who _ | tenCtrlReset who _ | tenCtrlLock who _ | erlCtlClear who _ | erlIdxWrite who _
      | secMeasselWrite who _ | secPkselWrite who _ =>
    have hw : who.isFw = false := by
      cases who with
      | fw c => exact hc
      | _ => rfl
    exact Machine.live_keeps Dev.plane h fun d => by simp [Dev.writeDo_plane hw, Dev.blockWriteDo_plane hw]
  all_goals exact Machine.live_keeps Dev.plane h fun d => by simp

/-- Settles O8. -/
theorem frameOfTheHostInterface : Obligations.FrameOfTheHostInterface := by
  intro c s t hc h
  cases c
  all_goals try exact absurd hc.symm Bool.false_ne_true
  all_goals dsimp only [Machine.exec] at h
  case refLoss | refReturn | ppsInEdge | irigFrame | sourceLoss | stepLand | errorBoundUpdate | ppsOutPulse | ppsOutEnd | leapSecond =>
    exact Machine.timeLive_keeps Dev.hostRest h fun d => by simp
  case sagTrigger => exact Machine.always_keeps Dev.hostRest h fun d => by simp
  case frameRelease n => exact Machine.live_keeps Dev.hostRest h fun d => by cases n <;> simp
  case linkRetrainFail k det => exact Machine.live_keeps Dev.hostRest h fun d => by cases k <;> simp
  case pairHighWrite who _ _ | versionCommit who _ _ | flwFidxWrite who _ | flwEidxWrite who _ | gntPidxCopy who _ _
      | ptpMeasurement who _ _ _ _ | catRtailWrite who _ _ | pqPushctl who _ _ | lckAcqWrite who _ | lckForce who _ | tenCtrlRun who _
      | tenCtrlPreempt who _ | tenCtrlResume who _ | tenCtrlReset who _ | tenCtrlLock who _ | erlCtlClear who _ | erlIdxWrite who _
      | secMeasselWrite who _ | secPkselWrite who _ =>
    have hw : who.isFw = false := by
      cases who with
      | fw c => exact hc
      | _ => rfl
    exact Machine.live_keeps Dev.hostRest h fun d => by simp [Dev.writeDo_hostRest hw, Dev.blockWriteDo_hostRest hw]
  all_goals exact Machine.live_keeps Dev.hostRest h fun d => by simp

end Sys2Proof
end

section
/-! The Huddle (chapter 12): what its operations leave of packets and groups, then one lemma for each branch of opening, filing, closing,
results and write-back. From these the obligations O36 and O37. -/

namespace Sys2Proof

/-! ### Groups and the flow plane -/

@[simp] theorem Dev.grpAt_grpSet_same (d : Dev) (g : Nat) (x : HudGrp) : (d.grpSet g x).grpAt g = x := Tab.get_set_same _ _ _ _

theorem Dev.grpAt_of_flow {d e : Dev} (h : e.flow = d.flow) (g : Nat) : e.grpAt g = d.grpAt g := by
  unfold Dev.grpAt
  rw [h]

theorem Dev.flow_of_plane {d e : Dev} (h : e.plane = d.plane) : e.flow = d.flow := by
  rw [Dev.flow_eq, h, ← Dev.flow_eq]

@[simp] theorem Dev.hudCount_flow (d : Dev) (k n : Nat) : (d.hudCount k n).flow = d.flow := rfl
@[simp] theorem Dev.hudCounts_flow (d : Dev) (ks : List Nat) : (d.hudCounts ks).flow = d.flow := Dev.flow_of_plane (by simp)
@[simp] theorem Dev.hudEvent_flow (d : Dev) (p code g count n : Nat) : (d.hudEvent p code g count n).flow = d.flow :=
  Dev.flow_of_plane (by simp)
@[simp] theorem Dev.count_flow (d : Dev) (k n : Nat) : (d.count k n).flow = d.flow := rfl
@[simp] theorem Dev.report_flow (d : Dev) (src code cls p det : Nat) : (d.report src code cls p det).flow = d.flow :=
  Dev.flow_of_plane (by simp)
@[simp] theorem Dev.shEcc_flow (d : Dev) (p : Nat) (ecc : Ecc) : (d.shEcc p ecc).flow = d.flow := Dev.flow_of_plane (by simp)
@[simp] theorem Dev.writeFiles_flow (d : Dev) (vs : List FileVal) : (d.writeFiles vs).flow = d.flow := Dev.flow_of_plane (by simp)
@[simp] theorem Dev.shWrite_flow (d : Dev) (p off : Nat) (bs : List Byte) : (d.shWrite p off bs).flow = d.flow :=
  Dev.flow_of_plane (by simp)
@[simp] theorem Dev.pqPush_flow (d : Dev) (n port : Nat) (e : PqEntry) : (d.pqPush n port e).1.flow = d.flow := Dev.flow_of_plane (by simp)
@[simp] theorem Dev.teleMake_flow (d : Dev) (a b c e f : Nat) (bs : List Byte) : (d.teleMake a b c e f bs).flow = d.flow :=
  Dev.flow_of_plane (by simp)

/-! ### Opening (R299, R309, R312) -/

/-- R299, R309: at its opening time the snapshot takes its buffer, and the group waits for the next. -/
theorem Dev.snapOpen_opens {d : Dev} {g k n : Nat} (hrec : d.groupRec g = some k) (hknown : d.tmu.unknown = false)
    (hruns : (d.grpAt g).running = true)
    (hrate : (d.grpAt g).recs.head?.all (fun x => decide (gRate x.2 = gRate (Tab.get [] d.flow.tpl k))) = true)
    (hnext : (d.grpAt g).next = some n) (hdue : gOpenNum (Tab.get [] d.flow.tpl k) n ≤ d.timeNum (Tab.get [] d.flow.tpl k))
    (hfree : bit (fld (Tab.get [] d.flow.tpl k) 11 1) 2 = false) :
    ((d.snapOpen g).grpAt g).next = some (n + 1) ∧
    ((d.snapOpen g).grpAt g).opened = (d.grpAt g).opened ++ [{
      n := n
      recd := Tab.get [] d.flow.tpl k
      buf := some (gArea (Tab.get [] d.flow.tpl k) + n % gNbuf (Tab.get [] d.flow.tpl k) * gBufLen (Tab.get [] d.flow.tpl k)) }] := by
  have hfill : ∀ (e : Dev) (r : List Byte) (off : Nat), (e.fillBuffer r off).grpAt g = e.grpAt g := fun e r off =>
    Dev.grpAt_of_flow (Dev.flow_of_plane (by simp)) g
  unfold Dev.snapOpen
  cases hhead : (d.grpAt g).recs.head? with
  | none => simp [hrec, hknown, hruns, hnext, hhead, hfree, Int.not_lt.mpr hdue, hfill]
  | some x =>
    rw [hhead] at hrate
    simp only [Option.all_some, decide_eq_true_eq] at hrate
    simp [hrec, hknown, hruns, hnext, hhead, hrate, hfree, Int.not_lt.mpr hdue, hfill]

/-- R299, R300: a group that starts before its first opening runs and waits for it. -/
theorem Dev.snapOpen_starts {d : Dev} {g k : Nat} (hrec : d.groupRec g = some k) (hknown : d.tmu.unknown = false)
    (hstopped : (d.grpAt g).running = false) (hnew : (d.grpAt g).anyClosed = false)
    (hearly : d.timeNum (Tab.get [] d.flow.tpl k) < gOpenNum (Tab.get [] d.flow.tpl k) (d.firstSnap (Tab.get [] d.flow.tpl k))) :
    ((d.snapOpen g).grpAt g).running = true ∧ ((d.snapOpen g).grpAt g).next = some (d.firstSnap (Tab.get [] d.flow.tpl k)) ∧
    ((d.snapOpen g).grpAt g).opened = (d.grpAt g).opened := by
  unfold Dev.snapOpen
  simp [hrec, hknown, hstopped, hnew, hearly]

/-! ### Closing (R309, R313, R314) -/

@[simp] theorem Dev.grpAt_writeFiles (d : Dev) (vs : List FileVal) (g : Nat) : (d.writeFiles vs).grpAt g = d.grpAt g :=
  Dev.grpAt_of_flow (d.writeFiles_flow vs) g

/-- R309, R314: what the close writes into the group's record; `lost` counts the events that found no room. -/
def HudGrp.closed1 (x : HudGrp) (s : Snap) (closed : List Snap) (lost : Nat) : HudGrp :=
  { x with opened := x.opened.filter (fun t => decide (t.n ≠ s.n)), closed := closed, lastClosed := max x.lastClosed s.n, anyClosed := true,
           gap := 0, deadlines := x.deadlines ++ [s.n], lostEv := lost }

theorem Dev.closeSnap_grpAt (d : Dev) (g : Nat) (s : Snap) :
    ∃ closed lost, (d.closeSnap g s).grpAt g = (d.grpAt g).closed1 s closed lost := by
  have hflow : ∃ (e : Dev) (closed : List Snap) (lost : Nat), (d.closeSnap g s).flow = (e.grpSet g ((d.grpAt g).closed1 s closed lost)).flow := by
    unfold Dev.closeSnap
    simp only [Dev.teleMake_flow, apply_ite Dev.flow, Dev.hudEvent_flow, Dev.event_flow, Dev.hudCount_flow, ite_self, Dev.grpAt_writeFiles]
    exact ⟨_, _, _, rfl⟩
  obtain ⟨e, closed, lost, hclose⟩ := hflow
  exact ⟨closed, lost, (Dev.grpAt_of_flow hclose g).trans (e.grpAt_grpSet_same g _)⟩

theorem Dev.snapClose_closes {d : Dev} {g : Nat} {x : Snap} {rest : List Snap} (hopen : (d.grpAt g).opened = x :: rest)
    (hknown : d.tmu.unknown = false) (hruns : (d.grpAt g).running = true) (hdue : gCloseNum x.recd x.n ≤ d.timeNum x.recd) :
    d.snapClose g = d.closeSnap g x := by
  unfold Dev.snapClose
  simp [hopen, hknown, hruns, Int.not_lt.mpr hdue]

/-! ### Filing (R304 to R308) -/

theorem Dev.fileValue_pkts (d : Dev) (g : Nat) (r : List Byte) (n : Int) (v : HVal) : (d.fileValue g r n v).flow.pkts = d.flow.pkts := by
  unfold Dev.fileValue
  dsimp only
  (repeat' split) <;> simp [Dev.grpSet]

theorem Dev.fileValues_pkts (d : Dev) (g : Nat) (r : List Byte) (vs : List (Int × HVal)) : (d.fileValues g r vs).flow.pkts = d.flow.pkts := by
  induction vs generalizing d with
  | nil => rfl
  | cons a as ih => exact (ih _).trans (d.fileValue_pkts g r a.1 a.2)

theorem Dev.fileDrop_pkts (d : Dev) (p g n : Nat) : (d.fileDrop p g n).flow.pkts = d.flow.pkts := by
  unfold Dev.fileDrop
  dsimp only
  (repeat' split) <;> simp

theorem Dev.filePkt_pkts (d : Dev) (i : Nat) : (d.filePkt i).flow.pkts = d.flow.pkts := by
  unfold Dev.filePkt
  dsimp only
  (repeat' split) <;> simp [Dev.fileValues_pkts, Dev.fileDrop_pkts]

/-- R304: one take files packet j, marks it as finished with and lets it leave its version. -/
def Dev.takeFile (d : Dev) (j : Nat) : Dev := ((d.filePkt j).pktUpd j (fun p => { p with hudDone := true })).settle j

theorem Dev.takeFile_same (d : Dev) (i : Nat) : ((d.takeFile i).pkt i).hudDone = true ∧ ((d.takeFile i).pkt i).data = (d.pkt i).data := by
  unfold Dev.takeFile
  obtain ⟨b, hsettle⟩ := Dev.pkt_settle_same ((d.filePkt i).pktUpd i (fun p => { p with hudDone := true })) i
  have hfiled : (d.filePkt i).pkt i = d.pkt i := by
    unfold Dev.pkt
    rw [Dev.filePkt_pkts]
  rw [hsettle, Dev.pkt_pktUpd_same, hfiled]
  exact ⟨rfl, rfl⟩

theorem Dev.takeFile_other (d : Dev) {i j : Nat} (h : i ≠ j) : (d.takeFile j).pkt i = d.pkt i := by
  unfold Dev.takeFile
  rw [Dev.pkt_settle_other _ h, Dev.pkt_pktUpd_other _ _ h]
  unfold Dev.pkt
  rw [Dev.filePkt_pkts]

/-- A packet that the Huddle has finished with stays so, and keeps its data. -/
theorem Dev.takeFiles_keeps {d : Dev} {i : Nat} (k : Nat) (h : (d.pkt i).hudDone = true) :
    ((d.takeFiles k).pkt i).hudDone = true ∧ ((d.takeFiles k).pkt i).data = (d.pkt i).data := by
  induction k generalizing d with
  | zero => exact ⟨h, rfl⟩
  | succ k ih =>
    unfold Dev.takeFiles
    split
    · exact ⟨h, rfl⟩
    · rename_i j _
      obtain ⟨hdone, hdata⟩ : ((d.takeFile j).pkt i).hudDone = true ∧ ((d.takeFile j).pkt i).data = (d.pkt i).data := by
        by_cases hij : i = j
        · rw [← hij]
          exact d.takeFile_same i
        · rw [d.takeFile_other hij]
          exact ⟨h, rfl⟩
      obtain ⟨hdone', hdata'⟩ := ih (d := d.takeFile j) hdone
      exact ⟨hdone', hdata'.trans hdata⟩

theorem Dev.huddleTake_takes {d : Dev} {i : Nat} (h : d.nextFile = some i) :
    (d.huddleTake.pkt i).hudDone = true ∧ (d.huddleTake.pkt i).data = (d.pkt i).data := by
  have htake : d.huddleTake = (d.takeFile i).takeFiles 3 := by
    unfold Dev.huddleTake Dev.takeFiles
    rw [h]
    rfl
  obtain ⟨hdone, hdata⟩ := d.takeFile_same i
  obtain ⟨hdone', hdata'⟩ := Dev.takeFiles_keeps 3 hdone
  rw [htake]
  exact ⟨hdone', hdata'.trans hdata⟩

theorem Dev.huddleTake_idle {d : Dev} (h : d.nextFile = none) : d.huddleTake = d := by
  unfold Dev.huddleTake Dev.takeFiles
  rw [h]

theorem Dev.writeFile_mem_congr {d e : Dev} (hmem : e.mem = d.mem) (hptn : e.ptn = d.ptn) (v : FileVal) :
    (e.writeFile v).mem = (d.writeFile v).mem := by
  unfold Dev.writeFile
  split
  · exact Dev.shWrite_mem_congr hmem hptn _ _ _
  · exact Dev.shWrite_mem_congr (Dev.shWrite_mem_congr hmem hptn _ _ _) hptn _ _ _

theorem Dev.writeFiles_mem_congr {d e : Dev} (hmem : e.mem = d.mem) (hptn : e.ptn = d.ptn) (vs : List FileVal) :
    (e.writeFiles vs).mem = (d.writeFiles vs).mem := by
  induction vs generalizing d e with
  | nil => exact hmem
  | cons v vs ih => exact ih (Dev.writeFile_mem_congr hmem hptn v) (by unfold Dev.writeFile Dev.shWrite; split <;> exact hptn)

theorem Dev.filingWrite_mem (d : Dev) : d.filingWrite.mem = (d.writeFiles (d.flow.fileQ.take 2)).mem := by
  unfold Dev.filingWrite
  refine Dev.writeFiles_mem_congr ?_ ?_ _ <;> rfl

/-! ### Results (R315, R316) -/

/-- The oldest forwarded record names snapshot n of group g, whose record is r: the group runs, the snapshot is closed, and the record's
partition belongs to the group's gang (R300, R315). -/
structure Dev.Forwards (d : Dev) (c : CatRec) (rest : List CatRec) (g n : Nat) (r : List Byte) : Prop where
  fwd : d.cat.fwd = c :: rest
  group : bits c.value 59 54 = g
  number : (d.grpAt g).whole (bits c.value 47 0) = n
  record : ∃ k, d.groupRec g = some k ∧ (d.grpAt g).recOf n (Tab.get [] d.flow.tpl k) = r
  runs : (d.grpAt g).running = true
  known : d.tmu.unknown = false
  gang : d.sameGang c.partition (gPtn r) = true
  closed : (d.grpAt g).anyClosed = true ∧ n ≤ (d.grpAt g).lastClosed

/-- The device with its oldest forwarded record taken. -/
def Dev.forwarded (d : Dev) (rest : List CatRec) : Dev := { d with cat := { d.cat with fwd := rest } }

theorem Dev.resultPost_result {d : Dev} {c : CatRec} {rest : List CatRec} {g n : Nat} {r : List Byte} (h : d.Forwards c rest g n r)
    (hop : bits c.value 63 60 = 1) :
    d.resultPost = (d.forwarded rest).grpSet g { d.grpAt g with results := (d.grpAt g).results ++ [n] } := by
  obtain ⟨hfwd, hg, hn, ⟨k, hrec, hr⟩, hruns, hknown, hgang, hany, hclosed⟩ := h
  have hrec' : (d.forwarded rest).groupRec g = some k := hrec
  have hgrp : (d.forwarded rest).grpAt g = d.grpAt g := rfl
  have hgang' : (d.forwarded rest).sameGang c.partition (gPtn r) = true := hgang
  unfold Dev.forwarded at *
  unfold Dev.resultPost
  simp [hfwd, hg, hn, hr, hrec', hgrp, hruns, hknown, hgang', hany, Nat.not_lt.mpr hclosed, hop]

theorem Dev.resultPost_release {d : Dev} {c : CatRec} {rest : List CatRec} {g n : Nat} {r : List Byte} (h : d.Forwards c rest g n r)
    (hop : bits c.value 63 60 = 2) (hheld : Tab.get none (d.grpAt g).held (n % gNbuf r) = some n) :
    d.resultPost = (d.forwarded rest).grpSet g { d.grpAt g with held := Tab.set none (d.grpAt g).held (n % gNbuf r) none } := by
  obtain ⟨hfwd, hg, hn, ⟨k, hrec, hr⟩, hruns, hknown, hgang, hany, hclosed⟩ := h
  have hrec' : (d.forwarded rest).groupRec g = some k := hrec
  have hgrp : (d.forwarded rest).grpAt g = d.grpAt g := rfl
  have hgang' : (d.forwarded rest).sameGang c.partition (gPtn r) = true := hgang
  unfold Dev.forwarded at *
  unfold Dev.resultPost
  simp [hfwd, hg, hn, hr, hrec', hgrp, hruns, hknown, hgang', hany, Nat.not_lt.mpr hclosed, hop, hheld]

/-- R315: a record for a group that does not run, or for a snapshot not closed, is dropped and counted. -/
theorem Dev.resultPost_drops {d : Dev} {c : CatRec} {rest : List CatRec} {g k : Nat} (hfwd : d.cat.fwd = c :: rest)
    (hg : bits c.value 59 54 = g) (hlo : 1 ≤ bits c.value 63 60) (hhi : bits c.value 63 60 ≤ 3) (hrec : d.groupRec g = some k)
    (hbad : (d.grpAt g).running = false ∨ d.tmu.unknown = true ∨ (d.grpAt g).anyClosed = false ∨
      (d.grpAt g).lastClosed < (d.grpAt g).whole (bits c.value 47 0)) : d.resultPost = (d.forwarded rest).hudCount 19 1 := by
  have hrec' : ((d.forwarded rest).hudCount 19 1).groupRec g = some k := hrec
  have hrec'' : (d.forwarded rest).groupRec g = some k := hrec
  have hgrp : (d.forwarded rest).grpAt g = d.grpAt g := rfl
  have hop : ¬ (bits c.value 63 60 = 0 ∨ 3 < bits c.value 63 60) := by omega
  unfold Dev.forwarded at *
  unfold Dev.resultPost
  simp only [hfwd, hg, hrec'', hgrp, hop, if_false]
  rw [if_pos]
  simp only [Bool.or_eq_true, Bool.not_eq_true', decide_eq_true_eq]
  tauto

/-! ### Entities and the groups (R316 to R318) -/

theorem Dev.makeStale_grp (d : Dev) (e cause : Nat) : (d.makeStale e cause).flow.grp = d.flow.grp := by
  unfold Dev.makeStale
  dsimp only
  (repeat' split) <;> simp [Dev.entSetState]

theorem Dev.makeStaleList_grp (d : Dev) (cause : Nat) (es : List Nat) : (d.makeStaleList cause es).flow.grp = d.flow.grp := by
  induction es generalizing d with
  | nil => rfl
  | cons e es ih => exact (ih _).trans (d.makeStale_grp e cause)

theorem Dev.staleGroups_grp (d : Dev) (p : Nat) (gs : List Nat) : (d.staleGroups p gs).flow.grp = d.flow.grp := by
  induction gs generalizing d with
  | nil => rfl
  | cons g gs ih =>
    refine (ih _).trans ?_
    split
    · dsimp only
      split
      · exact d.makeStaleList_grp 2 _
      · rfl
    · rfl

theorem Dev.backEntity_grp (d : Dev) (r : List Byte) (n e : Nat) (xs : List Nat) : (d.backEntity r n e xs).1.flow.grp = d.flow.grp := by
  unfold Dev.backEntity
  dsimp only
  split <;> simp [Dev.entSetState]

theorem Dev.backEntities_grp (d : Dev) (r : List Byte) (n e : Nat) (xss : List (List Nat)) (acc : List (Nat × List Nat)) :
    (d.backEntities r n e xss acc).1.flow.grp = d.flow.grp := by
  induction xss generalizing d e acc with
  | nil => rfl
  | cons xs xss ih =>
    have hone := d.backEntity_grp r n e xs
    unfold Dev.backEntities
    split
    · rename_i heq
      rw [heq] at hone
      exact (ih _ _ _).trans hone
    · rename_i heq
      rw [heq] at hone
      exact (ih _ _ _).trans hone

theorem Dev.enqueue_grp (d : Dev) (n q : Nat) (it : EgItem) : (d.enqueue n q it).1.flow.grp = d.flow.grp := by
  unfold Dev.enqueue
  dsimp only
  (repeat' split) <;> simp [Dev.qRefresh, Dev.egSet, Dev.pktUpd, Dev.pktSet]

theorem Dev.report1_grp (d : Dev) (rep g : Nat) (r : List Byte) (n idx : Nat) (last : Bool) (es : List (Nat × List Nat)) :
    (d.report1 rep g r n idx last es).flow.grp = d.flow.grp := by
  unfold Dev.report1
  dsimp only
  (repeat' split) <;> simp [Dev.enqueue_grp]

theorem Dev.reports_grp (d : Dev) (rep g : Nat) (r : List Byte) (n i : Nat) (ess : List (List (Nat × List Nat))) :
    (d.reports rep g r n i ess).flow.grp = d.flow.grp := by
  fun_induction Dev.reports d rep g r n i ess with
  | case1 => rfl
  | case2 d i es => exact d.report1_grp rep g r n i true es
  | case3 d i es rest _ ih => exact ih.trans (d.report1_grp rep g r n i false es)

theorem Dev.reportAll_grp (d : Dev) (rep g : Nat) (r : List Byte) (n : Nat) (es : List (Nat × List Nat)) :
    (d.reportAll rep g r n es).flow.grp = d.flow.grp := by
  unfold Dev.reportAll
  dsimp only
  split
  · exact d.reports_grp rep g r n 0 _
  · rfl

theorem Dev.grpAt_of_grp {d e : Dev} (h : e.flow.grp = d.flow.grp) (g : Nat) : e.grpAt g = d.grpAt g := by
  unfold Dev.grpAt
  rw [h]

/-- R316: the write-back takes the oldest result of its group, whatever it decodes. -/
theorem Dev.resultWriteback_takes {d : Dev} {g n k : Nat} {rest : List Nat} (hres : (d.grpAt g).results = n :: rest)
    (hrec : d.groupRec g = some k) (ecc : Ecc) :
    (d.resultWriteback g ecc).grpAt g = { d.grpAt g with results := rest, lastBack := n } := by
  refine (Dev.grpAt_of_grp (d := d.grpSet g { d.grpAt g with results := rest, lastBack := n }) ?_ g).trans (d.grpAt_grpSet_same g _)
  have hset : ∀ e : Dev, e.flow = d.flow → ∀ x : HudGrp, (e.grpSet g x).flow.grp = (d.grpSet g x).flow.grp := fun e he x => by
    unfold Dev.grpSet
    rw [he]
  unfold Dev.resultWriteback
  simp only [hres, hrec]
  (repeat' split) <;> simp [Dev.reportAll_grp, Dev.backEntities_grp, hset]

/-- R317: the scan takes the oldest close that waits. -/
theorem Dev.resultDeadline_takes {d : Dev} {g m k : Nat} {rest : List Nat} (hdead : (d.grpAt g).deadlines = m :: rest)
    (hrec : d.groupRec g = some k) : (d.resultDeadline g).grpAt g = { d.grpAt g with deadlines := rest } := by
  refine (Dev.grpAt_of_grp (d := d.grpSet g { d.grpAt g with deadlines := rest }) ?_ g).trans (d.grpAt_grpSet_same g _)
  unfold Dev.resultDeadline
  simp only [hdead, hrec]
  (repeat' split) <;> simp [Dev.makeStaleList_grp]

/-- R318: the report leaves the queue of reports, and no group changes. -/
theorem Dev.partitionStale_reported (d : Dev) (p : Nat) :
    (d.partitionStale p).ptn.staleReports = d.ptn.staleReports.filter (fun q => decide (q ≠ p)) ∧
    (d.partitionStale p).flow.grp = d.flow.grp := by
  unfold Dev.partitionStale
  rw [Dev.ptn_of_tensor (Dev.staleGroups_tensor _ _ _), Dev.staleGroups_grp]
  exact ⟨rfl, rfl⟩

/-! ### The obligations -/

/-- Settles O36. -/
theorem snapshotsOpenFileAndClose : Obligations.SnapshotsOpenFileAndClose := by
  refine ⟨?opens, ?starts, ?closes, ?takes, ?files, ?idle⟩
  case opens =>
    intro s g k n ha hrec hknown hruns hrate hnext hdue hfree
    exact ⟨_, Machine.live_next ha (fun d => d.snapOpen g), Dev.snapOpen_opens hrec hknown hruns hrate hnext hdue hfree⟩
  case starts =>
    intro s g k ha hrec hknown hstopped hnew hearly
    exact ⟨_, Machine.live_next ha (fun d => d.snapOpen g), Dev.snapOpen_starts hrec hknown hstopped hnew hearly⟩
  case closes =>
    intro s g x rest ha hopen hknown hruns hdue
    refine ⟨_, Machine.live_next ha (fun d => d.snapClose g), ?_⟩
    obtain ⟨closed, lost, hgrp⟩ := s.dev.closeSnap_grpAt g x
    dsimp only
    rw [Dev.snapClose_closes hopen hknown hruns hdue, hgrp, ← hopen]
    exact ⟨rfl, rfl, rfl, rfl, rfl⟩
  case takes =>
    intro s i ha hnext
    exact ⟨_, Machine.live_next ha (fun d => d.huddleTake), Dev.huddleTake_takes hnext⟩
  case files =>
    intro s ha
    refine ⟨_, Machine.live_next ha (fun d => d.filingWrite), ?_, s.dev.filingWrite_mem⟩
    exact congrArg Flow.fileQ (Dev.writeFiles_flow _ _)
  case idle =>
    intro s ha hnone
    refine ⟨_, Machine.live_next ha (fun d => d.huddleTake), ?_⟩
    rw [Dev.huddleTake_idle hnone]

/-- Settles O37; the number of a snapshot is rebuilt whole from the last closed one's by log 137. -/
theorem resultsAreTakenAndWrittenBack : Obligations.ResultsAreTakenAndWrittenBack := by
  refine ⟨?result, ?drops, ?release, ?writeback, ?deadline, ?stale⟩
  case result =>
    intro s c rest k ha hfwd hop hrec hruns hknown hgang hany hclosed
    refine ⟨_, Machine.live_next ha (fun d => d.resultPost), ?_⟩
    dsimp only
    rw [Dev.resultPost_result ⟨hfwd, rfl, rfl, ⟨k, hrec, rfl⟩, hruns, hknown, hgang, hany, hclosed⟩ hop, Dev.grpAt_grpSet_same]
    exact ⟨rfl, rfl⟩
  case drops =>
    intro s c rest k ha hfwd hlo hhi hrec hbad
    refine ⟨_, Machine.live_next ha (fun d => d.resultPost), ?_⟩
    dsimp only
    rw [Dev.resultPost_drops hfwd rfl hlo hhi hrec hbad]
    exact ⟨rfl, rfl, Dev.rd64_count64_same (s.dev.forwarded rest) (hudBase + 0x1098) 1⟩
  case release =>
    intro s c rest k ha hfwd hop hrec hruns hknown hgang hany hclosed hheld
    refine ⟨_, Machine.live_next ha (fun d => d.resultPost), ?_⟩
    dsimp only
    rw [Dev.resultPost_release ⟨hfwd, rfl, rfl, ⟨k, hrec, rfl⟩, hruns, hknown, hgang, hany, hclosed⟩ hop hheld, Dev.grpAt_grpSet_same]
    refine ⟨rfl, rfl, ?_⟩
    dsimp only
    exact Tab.get_set_same _ _ _ _
  case writeback =>
    intro s g ecc n rest k ha hres hrec
    refine ⟨_, Machine.live_next ha (fun d => d.resultWriteback g ecc), ?_⟩
    dsimp only
    rw [Dev.resultWriteback_takes hres hrec]
    exact ⟨rfl, rfl⟩
  case deadline =>
    intro s g m rest k ha hdead hrec
    refine ⟨_, Machine.live_next ha (fun d => d.resultDeadline g), ?_⟩
    dsimp only
    rw [Dev.resultDeadline_takes hdead hrec]
    exact ⟨rfl, rfl⟩
  case stale =>
    intro s p ha
    refine ⟨_, Machine.live_next ha (fun d => d.partitionStale p), ?_⟩
    dsimp only
    exact s.dev.partitionStale_reported p

end Sys2Proof
end

section
/-! The error log (chapter 13): the take of the oldest report by its two outcomes, the clear, and the copy of a slot. From these the
obligation O47. -/

namespace Sys2Proof

/-! ### The log beside its announcements (R345, R479) -/

@[simp] theorem Dev.erlAnnounce_erl (d : Dev) (e : ErlEntry) : (d.erlAnnounce e).erl = d.erl := by
  unfold Dev.erlAnnounce
  dsimp only
  (repeat' split) <;> simp

@[simp] theorem Dev.wordsPut_erl (d : Dev) (a : Nat) (w : Nat → Nat) (n : Nat) : (d.wordsPut a w n).erl = d.erl := by
  induction n with
  | zero => rfl
  | succ n ih => rw [Dev.wordsPut_succ, Dev.wrN_erl, ih]

/-! ### The oldest report (R342, R343) -/

/-- The log without its oldest report. -/
def Dev.erlTaken (d : Dev) (rest : List ErlEntry) : Dev := { d with erl := { d.erl with queue := rest } }

theorem Dev.erlTaken_freeSlot (d : Dev) (rest : List ErlEntry) (lo hi : Nat) :
    (d.erlTaken rest).erl.freeSlot lo hi = d.erl.freeSlot lo hi := rfl

theorem Dev.erlTaken_oldestLow (d : Dev) (rest : List ErlEntry) : (d.erlTaken rest).erl.oldestLow = d.erl.oldestLow := rfl

/-- The place of a new entry looks at the slots, not at the reports. -/
theorem Dev.erlTaken_place (d : Dev) (rest : List ErlEntry) (cls : Nat) : (d.erlTaken rest).erl.place cls = d.erl.place cls := by
  unfold Erl.place
  rw [Dev.erlTaken_freeSlot, Dev.erlTaken_freeSlot, Dev.erlTaken_oldestLow]

/-- The newest entry of a report's source, code and class (R342). -/
def Erl.like (l : Erl) (e : ErlEntry) : Option (Nat × ErlEntry) :=
  l.newest (fun x => decide (x.source = e.source) && decide (x.code = e.code) && decide (x.cls = e.cls))

/-- R343: a report whose like is not recent makes an entry. -/
theorem Dev.erlTake_makes {d : Dev} {e : ErlEntry} {rest : List ErlEntry} (hq : d.erl.queue = e :: rest)
    (hold : (d.erl.like e).all (fun y => !y.2.recent e) = true) : d.erlTake = (d.erlTaken rest).newEntry e := by
  have hlike : ({ d.erl with queue := rest } : Erl).like e = d.erl.like e := rfl
  unfold Erl.like at hlike
  unfold Dev.erlTake
  simp only [hq, hlike]
  cases hnew : d.erl.like e with
  | none =>
    unfold Erl.like at hnew
    rw [hnew]
    rfl
  | some y =>
    rw [hnew] at hold
    simp only [Option.all_some, Bool.not_eq_true'] at hold
    unfold Erl.like at hnew
    simp only [hnew, hold]
    rfl

theorem Dev.newEntry_placed {d : Dev} {e : ErlEntry} {k : Nat} (hplace : d.erl.place e.cls = some k) :
    (d.newEntry e).erl = { d.erl with
      slots := Tab.put d.erl.slots k { e with seq := d.erl.nextSeq }
      nextSeq := (d.erl.nextSeq + 1) % 2 ^ 32 } := by
  unfold Dev.newEntry
  simp only [hplace, Dev.erlAnnounce_erl, Dev.wrN_erl]

/-- R342: a report adds to the count of a recent like entry. -/
theorem Dev.erlTake_coalesces {d : Dev} {e x : ErlEntry} {rest : List ErlEntry} {k : Nat} (hq : d.erl.queue = e :: rest)
    (hlike : d.erl.like e = some (k, x)) (hrecent : x.recent e = true) :
    d.erlTake.erl = { d.erl with
      queue := rest
      slots := Tab.put d.erl.slots k { x with
        count := stick 0xFFFF (x.count + 1)
        partition := if x.partition = e.partition then x.partition else 0xFE } } := by
  have hsame : ({ d.erl with queue := rest } : Erl).like e = some (k, x) := hlike
  unfold Erl.like at hsame
  unfold Dev.erlTake
  simp only [hq, hsame, hrecent, if_true, Dev.count_erl]

/-! ### The clear (R345) and the copy of a slot (R347) -/

theorem Dev.erlClear_erl (d : Dev) (mask : Nat) :
    (d.erlClear mask).erl = { d.erl with slots := Tab.keep d.erl.slots (fun _ e => !bit mask e.cls), alarm := false } :=
  Dev.alarmSet_erl _ _ _ _ _ _

/-- The 32 bytes that ERL_DATA shows of slot k. -/
def Erl.shown (l : Erl) (k : Nat) : List Byte := ((Tab.find l.slots k).map ErlEntry.bytes).getD (leBytes 32 0)

theorem Dev.erlIdx_eq (d : Dev) (k : Nat) :
    d.erlIdx k = (d.wrN (erlBase + 0x18) (2 ^ 31 + k)).wordsPut (erlBase + 0x20) (fun i => leNat (((d.erl.shown k).drop (4 * i)).take 4)) 8 := by
  unfold Dev.erlIdx Erl.shown
  cases Tab.find d.erl.slots k <;> rfl

theorem Dev.erlIdx_shows (d : Dev) {k : Nat} (hk : k < 4096) :
    (d.erlIdx k).erl = d.erl ∧ (d.erlIdx k).rdN (erlBase + 0x18) = 2 ^ 31 + k ∧
    ∀ i, i < 8 → (d.erlIdx k).rdN (erlBase + 0x20 + 4 * i) = leNat (((d.erl.shown k).drop (4 * i)).take 4) := by
  rw [Dev.erlIdx_eq]
  refine ⟨by rw [Dev.wordsPut_erl, Dev.wrN_erl], ?_, fun i hi => ?_⟩
  · rw [Dev.rdN_wordsPut_outside _ _ (by omega), Dev.rdN_wrN_same, Nat.mod_eq_of_lt (by omega)]
  · rw [Dev.rdN_wordsPut_inside _ _ _ hi, Nat.mod_eq_of_lt (leNat_take4_lt _)]

/-! ### The obligation -/

/-- Settles O47. That a restored entry is not recent is log 131. -/
theorem theErrorLogTakesAndShows : Obligations.TheErrorLogTakesAndShows := by
  refine ⟨?makes, ?coalesces, ?clears, ?shows⟩
  case makes =>
    intro s e rest k ha hq hold hplace
    refine ⟨_, Machine.live_next ha (fun d => d.erlTake), ?_⟩
    dsimp only
    rw [Dev.erlTake_makes hq hold, Dev.newEntry_placed ((Dev.erlTaken_place _ _ _).trans hplace)]
    exact ⟨rfl, Tab.find_put_same _ _ _, rfl⟩
  case coalesces =>
    intro s e x rest k ha hq hlike hsaved hlo hhi
    refine ⟨_, Machine.live_next ha (fun d => d.erlTake), ?_⟩
    have hrecent : x.recent e = true := by simp [ErlEntry.recent, hsaved, hlo, hhi]
    dsimp only
    rw [Dev.erlTake_coalesces hq hlike hrecent]
    exact ⟨rfl, Tab.find_put_same _ _ _, rfl⟩
  case clears =>
    intro s who mask ha _ hb hm
    refine ⟨_, Machine.live_blockWriteDo ha hm hb (fun d => d.erlClear mask), ?_⟩
    dsimp only
    rw [Dev.erlClear_erl]
    exact ⟨rfl, rfl, rfl⟩
  case shows =>
    intro s who k ha _ hb hm
    exact ⟨_, Machine.live_blockWriteDo ha hm hb (fun d => d.erlIdx k), s.dev.erlIdx_shows k.isLt⟩

end Sys2Proof
end

section
/-! The state after reset (chapters 17 and 18) and the mailbox protocol (chapter 14, R359 to R361): a doorbell, the take of a request,
a segment and HELLO by the outcome the statement names. From these the obligations O12 and O19. -/

namespace Sys2Proof

/-! ### Reset (R438, R455, R488) -/

/-- A device whose memories list no byte has them in canonical form. -/
theorem Dev.memOk_of_empty {d : Dev} (hcs : d.mem.cs = []) (hhbm : d.mem.hbm = []) : d.memOk = true := by
  unfold Dev.memOk Memory.wf
  rw [hcs, hhbm]
  rfl

/-- A lifecycle word without a burned bit is legal: BLANK. -/
theorem lcfLegal_zero : LcfLegal 0 := ⟨0, 0, 0, 0, by decide⟩

/-- Settles O12. That the device waits without supply is log 4. -/
theorem resetHasTheInvariants : Obligations.ResetHasTheInvariants := by
  refine ⟨rfl, Dev.memOk_of_empty rfl rfl, ?_, rfl, rfl, rfl⟩
  unfold Dev.fuses
  exact lcfLegal_zero

/-! ### RING and RACK (R359) -/

theorem Dev.mbxRing_idle {d : Dev} {fn : Option Nat} (hpending : (d.mbxAt fn).pending = false) :
    d.mbxRing fn = d.mbxSet fn { d.mbxAt fn with pending := true } := by
  simp [Dev.mbxRing, hpending]

theorem Dev.mbxRack_last {d : Dev} {fn : Option Nat} (hresp : (d.mbxAt fn).resp = true) (hwaiting : (d.mbxAt fn).waiting = none) :
    d.mbxRack fn = d.mbxSet fn { d.mbxAt fn with resp := false, page := none } := by
  simp [Dev.mbxRack, hresp, hwaiting]

theorem Dev.mbxRack_next {d : Dev} {fn : Option Nat} {r : MbxRsp} (hresp : (d.mbxAt fn).resp = true)
    (hwaiting : (d.mbxAt fn).waiting = some r) :
    d.mbxRack fn = (d.mbxSet fn { d.mbxAt fn with resp := false, page := none }).mbxDeliver fn r := by
  simp [Dev.mbxRack, hresp, hwaiting]

/-- A response to a free page is shown: RESP is 1, PENDING and TAKEN are 0. -/
theorem Dev.mbxDeliver_free {d : Dev} {fn : Option Nat} (r : MbxRsp) (hresp : (d.mbxAt fn).resp = false) :
    (d.mbxDeliver fn r).mbxAt fn =
      { d.mbxAt fn with cur := none, waiting := none, page := some r, resp := true, pending := false, taken := false } := by
  simp [Dev.mbxDeliver, hresp]

/-! ### The take (R359 step 3, R361) -/

/-- While HELD is 1 a request is only taken. -/
theorem Dev.mbxTake_held {d : Dev} {fn : Option Nat} (hpending : (d.mbxAt fn).pending = true) (hcur : (d.mbxAt fn).cur = none)
    (hwaiting : (d.mbxAt fn).waiting = none) (hready : d.fwReady = true) (hheld : d.helds = true) :
    d.mbxTake fn = d.mbxSet fn { d.mbxAt fn with taken := true } := by
  simp [Dev.mbxTake, hpending, hcur, hwaiting, hready, hheld]

/-- The header of the request page of fn is that of a HELLO with sound lengths, flags and reserved fields. -/
def Dev.helloHead (d : Dev) (fn : Option Nat) : Prop :=
  subN (d.mbxPage fn 16) 2 2 = 1 ∧ subN (d.mbxPage fn 16) 4 2 ≤ 4080 ∧ subN (d.mbxPage fn 16) 6 2 ≤ 1 ∧
    subN (d.mbxPage fn 16) 12 2 = 0 ∧ subN (d.mbxPage fn 16) 14 2 = 0

/-- The HELLO that firmware takes from the request page of fn. -/
def Dev.helloMsg (d : Dev) (fn : Option Nat) : MbxMsg :=
  { opcode := 1
    seq := subN (d.mbxPage fn 16) 8 4
    payload := sub (d.mbxPage fn 16) 0 2 ++ ((d.mbxPage fn (16 + subN (d.mbxPage fn 16) 4 2)).drop 16).take (subN (d.mbxPage fn 16) 4 2) }

/-- A sound HELLO is held for its answer. -/
theorem Dev.mbxTake_hello {d : Dev} {fn : Option Nat} (hpending : (d.mbxAt fn).pending = true) (hcur : (d.mbxAt fn).cur = none)
    (hwaiting : (d.mbxAt fn).waiting = none) (hready : d.fwReady = true) (hheld : d.helds = false) (hrom : d.romServes = false)
    (hhead : d.helloHead fn) :
    (d.mbxTake fn).mbxAt fn = { d.mbxAt fn with taken := true, cur := some (d.helloMsg fn) } := by
  obtain ⟨hop, hlen, hflags, hrsv, hrsv'⟩ := hhead
  have hsound : ¬(4080 < subN (d.mbxPage fn 16) 4 2 ∨ 1 < subN (d.mbxPage fn 16) 6 2 ∨ subN (d.mbxPage fn 16) 12 2 ≠ 0 ∨
      subN (d.mbxPage fn 16) 14 2 ≠ 0) := by omega
  unfold Dev.mbxTake
  simp only [hpending, hcur, hwaiting, hready, hheld, hrom, hop]
  rw [if_neg (by simp), if_neg (by simp), if_neg (by simp), if_neg hsound, if_true, Dev.mbxAt_mbxSet_same]
  rfl

/-! ### Segments (R360) and HELLO (R361) -/

/-- A segment that is not the last is kept and answered with OK. -/
theorem Dev.segment_more {d : Dev} {fn : Option Nat} {c : MbxMsg} (hcur : (d.mbxAt fn).cur = some c) (hmore : c.more = true)
    (hroom : c.opcode ≠ 0x21 ∨ d.partials < 48) :
    d.segment fn = (d.mbxSet fn { d.mbxAt fn with asm := some c }).answer fn c 0 [] := by
  have hopens : (c.more && decide (c.opcode = 0x21) && decide (48 ≤ d.partials)) = false := by
    rw [hmore, Bool.true_and, ← Bool.decide_and, decide_eq_false_iff_not]
    omega
  unfold Dev.segment Dev.messageSegment
  simp only [hcur]
  rw [hopens, if_neg Bool.false_ne_true, if_pos hmore]

/-- The mailbox of fn once HELLO c agreed the smaller MINOR and the common features of the offer. -/
def Dev.agreed (d : Dev) (fn : Option Nat) (c : MbxMsg) : Mbx :=
  { d.mbxAt fn with
    hello := true
    agMajor := (d.mbxOffer fn).1
    agMinor := min (subN c.payload 1 1) (d.mbxOffer fn).2.1
    feat := Nat.land (subN (c.payload.drop 2) 8 8) (d.mbxOffer fn).2.2
    asm := none }

/-- The payload of the answer to HELLO c: the offer and the features agreed. -/
def Dev.offerBytes (d : Dev) (fn : Option Nat) (c : MbxMsg) : List Byte :=
  leBytes 1 (d.mbxOffer fn).1 ++ leBytes 1 (d.mbxOffer fn).2.1 ++ leBytes 6 0 ++ leBytes 8 (d.mbxOffer fn).2.2 ++ leBytes 8 (d.agreed fn c).feat

theorem Dev.hello_agrees {d : Dev} {fn : Option Nat} {c : MbxMsg} (hmsg : d.msg fn 1 = some c)
    (hmajor : subN c.payload 0 1 = (d.mbxOffer fn).1) (hlen : 16 ≤ (c.payload.drop 2).length) :
    d.hello fn = (d.mbxSet fn (d.agreed fn c)).answer fn c 0 (d.offerBytes fn c) := by
  unfold Dev.hello
  simp only [hmsg]
  rw [if_neg (not_not_intro hmajor), if_neg (Nat.not_lt.mpr hlen)]
  rfl

/-! ### The obligation -/

/-- Settles O19. -/
theorem mailboxDoorbellsTakeAndAnswer : Obligations.MailboxDoorbellsTakeAndAnswer := by
  refine ⟨?ring, ?rack, ?rackNext, ?held, ?take, ?segment, ?hello⟩
  case ring =>
    intro s fn ha hopen hpending
    refine ⟨_, Machine.live_next ha (fun d => d.fnDo fn (fun d => d.mbxRing fn)), ?_⟩
    rw [Dev.fnDo_open hopen, Dev.mbxRing_idle hpending]
  case rack =>
    intro s fn ha hopen hresp hwaiting
    refine ⟨_, Machine.live_next ha (fun d => d.fnDo fn (fun d => d.mbxRack fn)), ?_⟩
    rw [Dev.fnDo_open hopen, Dev.mbxRack_last hresp hwaiting]
  case rackNext =>
    intro s fn r ha hopen hresp hwaiting
    refine ⟨_, Machine.live_next ha (fun d => d.fnDo fn (fun d => d.mbxRack fn)), ?_⟩
    dsimp only
    rw [Dev.fnDo_open hopen, Dev.mbxRack_next hresp hwaiting, Dev.mbxDeliver_free r (by rw [Dev.mbxAt_mbxSet_same])]
    exact ⟨rfl, rfl, rfl⟩
  case held =>
    intro s fn ha hpending hcur hwaiting hready hheld
    exact ⟨_, Machine.live_next ha (fun d => d.mbxTake fn), by rw [Dev.mbxTake_held hpending hcur hwaiting hready hheld]⟩
  case take =>
    intro s fn ha hpending hcur hwaiting hready hheld hrom hop hlen hflags hrsv hrsv'
    refine ⟨_, Machine.live_next ha (fun d => d.mbxTake fn), ?_⟩
    dsimp only
    rw [Dev.mbxTake_hello hpending hcur hwaiting hready hheld hrom ⟨hop, hlen, hflags, hrsv, hrsv'⟩]
    exact ⟨rfl, hpending, rfl⟩
  case segment =>
    intro s fn c ha hcur hmore hroom hresp hdiscard
    refine ⟨_, Machine.live_next ha (fun d => d.segment fn), ?_⟩
    dsimp only
    rw [Dev.segment_more hcur hmore hroom]
    have hresp' : ((s.dev.mbxSet fn { s.dev.mbxAt fn with asm := some c }).mbxAt fn).resp = false := by rwa [Dev.mbxAt_mbxSet_same]
    have hdiscard' : ((s.dev.mbxSet fn { s.dev.mbxAt fn with asm := some c }).mbxAt fn).discard = false := by rwa [Dev.mbxAt_mbxSet_same]
    obtain ⟨_, _, _, _, hasm⟩ := Dev.answer_keeps _ fn c 0 [] hresp' hdiscard'
    exact ⟨Dev.answer_mbx _ fn c 0 [] hresp' hdiscard', by rw [hasm, Dev.mbxAt_mbxSet_same]⟩
  case hello =>
    intro s fn c ha hasked hmajor hlen
    obtain ⟨hmsg, hresp, hdiscard⟩ := Dev.asked_msg hasked
    refine ⟨_, Machine.live_next ha (fun d => d.hello fn), ?_⟩
    dsimp only
    rw [Dev.hello_agrees hmsg hmajor hlen]
    have hresp' : ((s.dev.mbxSet fn (s.dev.agreed fn c)).mbxAt fn).resp = false := by rwa [Dev.mbxAt_mbxSet_same]
    have hdiscard' : ((s.dev.mbxSet fn (s.dev.agreed fn c)).mbxAt fn).discard = false := by rwa [Dev.mbxAt_mbxSet_same]
    obtain ⟨hhello, hmaj, hmin, hfeat, _⟩ := Dev.answer_keeps _ fn c 0 (s.dev.offerBytes fn c) hresp' hdiscard'
    obtain ⟨hpage, _⟩ := Dev.answer_mbx _ fn c 0 (s.dev.offerBytes fn c) hresp' hdiscard'
    rw [hhello, hmaj, hmin, hfeat, Dev.mbxAt_mbxSet_same]
    refine ⟨rfl, rfl, rfl, rfl, ?_⟩
    cases hp : (((s.dev.mbxSet fn (s.dev.agreed fn c)).answer fn c 0 (s.dev.offerBytes fn c)).mbxAt fn).page with
    | none => simp [hp] at hpage
    | some r =>
      simp only [hp, Option.map_some, Option.some.injEq, Prod.mk.injEq] at hpage
      simp [hpage]

end Sys2Proof
end

section
/-! The dictionary message DICT_READ (chapter 14, R379, R396) serves an entry from the copy that an earlier message of the mailbox took.
From this the refutation of the obligation O20. -/

namespace Sys2Proof

/-! ### Reading from a copy (R379) -/

/-- A read further into an entry that the mailbox holds a copy of is answered from the copy, whatever the entry reads now. -/
theorem Dev.dictReadMsg_copied {d : Dev} {fn : Option Nat} {c : MbxMsg} {w : List Byte} (hmsg : d.msg fn 0x20 = some c)
    (hlen : 8 ≤ c.payload.length) (hrsv : subN c.payload 3 1 = 0)
    (hcopy : d.mbxCopy fn (256 * subN c.payload 0 2 + subN c.payload 2 1) (subN c.payload 4 4) = some w) :
    d.dictReadMsg fn = d.answer fn c 0 (leBytes 4 0 ++ leBytes 4 w.length ++ (w.drop (subN c.payload 4 4)).take 4072) := by
  unfold Dev.dictReadMsg
  simp only [hmsg, hcopy]
  rw [if_neg (by omega)]

/-! ### The refutation -/

/-- A DICT_READ of entry 0x1000:0 from offset 1. -/
def readFurther : MbxMsg := { opcode := 0x20, seq := 0, payload := [0x00, 0x10, 0, 0, 1, 0, 0, 0] }

/-- The PF's mailbox carries out that read, and its session holds an empty copy of the entry. -/
def copyHeld : Machine.State :=
  { dev := { alive := true, host := { mbx := [(0, { cur := some readFurther })] }, dict := { sess := [(0, { copy := some (256 * 0x1000, [], 0) })] } } }

/-- The entry itself reads four bytes. -/
theorem copyHeld_reads : ∃ v, copyHeld.dev.dictRead (.mbx none) 0x1000 0 = .ok v ∧ v.length = 4 := by
  have h : (match copyHeld.dev.dictRead (.mbx none) 0x1000 0 with | .ok v => decide (v.length = 4) | .error _ => false) = true := by decide +kernel
  split at h
  next v hv => exact ⟨v, hv, by simpa using h⟩
  next => exact absurd h Bool.false_ne_true

/-- Refutes O20: a read from offset 1 of an entry that the mailbox holds a copy of is answered from the copy (R379), not from what the
entry reads now; here the copy is empty and the entry has four bytes. -/
theorem not_hostMessagesAnswer : ¬ Obligations.HostMessagesAnswer := by
  intro h
  obtain ⟨_, _, _, _, _, _, _, hread, _⟩ := h
  obtain ⟨v, hv, hlen⟩ := copyHeld_reads
  obtain ⟨t, ht, ⟨hpage, _⟩, _⟩ := hread copyHeld none readFurther v rfl (by decide) (by decide) (by decide) hv
  have hcopied : t.dev = copyHeld.dev.answer none readFurther 0 (leBytes 4 0 ++ leBytes 4 0) := by
    have hs : Machine.exec (.dictRead none) copyHeld = .next { copyHeld with dev := copyHeld.dev.dictReadMsg none } :=
      Machine.live_next (s := copyHeld) rfl (fun d => d.dictReadMsg none)
    rw [ht, Dev.dictReadMsg_copied (c := readFurther) (w := []) rfl (by decide) (by decide) (by decide)] at hs
    injection hs with hs
    rw [hs]
    rfl
  obtain ⟨hpage', _⟩ := Dev.answer_mbx copyHeld.dev none readFurther 0 (leBytes 4 0 ++ leBytes 4 0) rfl rfl
  rw [hcopied, hpage'] at hpage
  have hoff : subN readFurther.payload 4 4 = 1 := by decide
  have hlens := congrArg (Option.map (fun x => x.2.2.2.length)) hpage
  simp [hlen, hoff, length_leBytes] at hlens

end Sys2Proof
end

section
/-! DMA queues (chapter 14, R366 to R369) and MSI-X (R370): a message, a doorbell, a descriptor and a completion by the outcome the
statement names. From these the obligation O22. -/

namespace Sys2Proof

/-! ### The queue pairs (R363, R369) -/

@[simp] theorem Dev.dmaAt_dmaSet_same (d : Dev) (fn : Option Nat) (q : Nat) (x : DmaQ) : (d.dmaSet fn q x).dmaAt fn q = x :=
  Tab.get_set_same _ _ _ _

@[simp] theorem Dev.mbxAt_dmaSet (d : Dev) (fn : Option Nat) (q : Nat) (x : DmaQ) (g : Option Nat) : (d.dmaSet fn q x).mbxAt g = d.mbxAt g := rfl

theorem Dev.dmaAt_of_rest {d e : Dev} (h : e.hostRest = d.hostRest) (fn : Option Nat) (q : Nat) : e.dmaAt fn q = d.dmaAt fn q := by
  unfold Dev.dmaAt
  rw [Dev.host_dma_eq, Dev.host_dma_eq, h]

/-- Answering a request leaves every DMA queue. -/
@[simp] theorem Dev.dmaAt_answer (d : Dev) (fn : Option Nat) (c : MbxMsg) (st : Nat) (pl : List Byte) (g : Option Nat) (q : Nat) :
    (d.answer fn c st pl).dmaAt g q = d.dmaAt g q := by
  have hevent (e : Dev) : (e.mbxEvent fn 0).dmaAt g q = e.dmaAt g q := Dev.dmaAt_of_rest (Dev.mbxEvent_hostRest _ _ _) g q
  unfold Dev.answer Dev.mbxRespond Dev.mbxDeliver
  dsimp only
  split
  · rfl
  · split
    · rfl
    · rw [hevent]
      rfl

/-- The queue pair that a DMAQ_CREATE with payload p makes. -/
def createdQueue (p : List Byte) : DmaQ :=
  { active := true, sqN := subN p 2 2, cqN := subN p 4 2, sqBase := subN p 8 8, cqBase := subN p 16 8 }

theorem Dev.dmaqCreate_sound {d : Dev} {fn : Option Nat} {c : MbxMsg} (hmsg : d.msg fn 0x60 = some c) (hlen : 24 ≤ c.payload.length)
    (hq : subN c.payload 0 1 < dmaQueues fn) (hsq : ringSize (subN c.payload 2 2) = true) (hcq : ringSize (subN c.payload 4 2) = true)
    (hsb : subN c.payload 8 8 % 4096 = 0) (hcb : subN c.payload 16 8 % 4096 = 0) (hidle : (d.dmaAt fn (subN c.payload 0 1)).active = false) :
    d.dmaqCreate fn = (d.dmaSet fn (subN c.payload 0 1) (createdQueue c.payload)).answer fn c 0 [] := by
  unfold Dev.dmaqCreate
  simp only [hmsg, hsq, hcq, hsb, hcb, hidle]
  rw [if_neg (by simp; omega), if_neg Bool.false_ne_true]
  rfl

theorem Dev.dmaqDestroy_idle {d : Dev} {fn : Option Nat} {c : MbxMsg} (hmsg : d.msg fn 0x61 = some c) (hlen : 1 ≤ c.payload.length)
    (hq : subN c.payload 0 1 < dmaQueues fn) (hactive : (d.dmaAt fn (subN c.payload 0 1)).active = true)
    (hrun : (d.dmaAt fn (subN c.payload 0 1)).run = none) :
    d.dmaqDestroy fn =
      (d.dmaSet fn (subN c.payload 0 1) {}).answer fn c 0 (leBytes 4 (d.dmaAt fn (subN c.payload 0 1)).todo) := by
  unfold Dev.dmaqDestroy
  simp only [hmsg, hactive, hrun]
  rw [if_neg (not_or.mpr ⟨by omega, not_or.mpr ⟨by omega, by simp⟩⟩), if_neg (by simp)]

/-! ### Doorbells (R369) -/

theorem Dev.sqDoorbell_inRange {d : Dev} {fn : Option Nat} {q tail : Nat} (hq : q < dmaQueues fn) (hactive : (d.dmaAt fn q).active = true)
    (htail : tail % 4096 < (d.dmaAt fn q).sqN)
    (hroom : (d.dmaAt fn q).todo + (tail % 4096 + (d.dmaAt fn q).sqN - (d.dmaAt fn q).sqTail) % (d.dmaAt fn q).sqN ≤ (d.dmaAt fn q).sqN - 1) :
    d.sqDoorbell fn q tail = d.dmaSet fn q { d.dmaAt fn q with
      sqTail := tail % 4096
      todo := (d.dmaAt fn q).todo + (tail % 4096 + (d.dmaAt fn q).sqN - (d.dmaAt fn q).sqTail) % (d.dmaAt fn q).sqN } := by
  unfold Dev.sqDoorbell
  dsimp only
  rw [if_neg (Nat.not_le.mpr hq), if_neg (by simp only [hactive]; simp; omega)]

theorem Dev.cqHeadWrite_inRange {d : Dev} {fn : Option Nat} {q head : Nat} (hq : q < dmaQueues fn) (hactive : (d.dmaAt fn q).active = true)
    (hhead : head % 4096 < (d.dmaAt fn q).cqN)
    (hwritten : (head % 4096 + (d.dmaAt fn q).cqN - (d.dmaAt fn q).cqHead) % (d.dmaAt fn q).cqN ≤
      ((d.dmaAt fn q).cqTail + (d.dmaAt fn q).cqN - (d.dmaAt fn q).cqHead) % (d.dmaAt fn q).cqN) :
    d.cqHeadWrite fn q head = d.dmaSet fn q { d.dmaAt fn q with cqHead := head % 4096 } := by
  unfold Dev.cqHeadWrite
  dsimp only
  rw [if_neg (Nat.not_le.mpr hq), if_neg (by simp only [hactive]; simp; omega)]

/-! ### Descriptors (R366 to R368) -/

/-- A sound WRITE stores the host data and finishes with status 0 and its length. -/
theorem Dev.dmaWrite_sound {d : Dev} {n q : Nat} {desc : List Byte} (hready : (d.dmaAt (some n) q).ready = true)
    (hgood : (dmaDesc desc).bad true = false) (hkind : inKind (d.regionsOf n) 5 (dmaDesc desc).shoff (dmaDesc desc).len = true)
    (hshare : d.inShare n (dmaDesc desc).shoff (dmaDesc desc).len = true) (hpush : bit (dmaDesc desc).flags 0 = false) (data : List Byte) :
    d.dmaWrite n q desc data none none =
      (d.shWrite n (dmaDesc desc).shoff (padTo (dmaDesc desc).len data)).dmaSet (some n) q
        { d.dmaAt (some n) q with run := some { desc := dmaDesc desc, status := 0, bytes := (dmaDesc desc).len } } := by
  simp [Dev.dmaWrite, hready, hgood, hkind, hshare, hpush, DmaDesc.len_lines hgood]

theorem Dev.dmaRecv_opens {d : Dev} {q : Nat} {desc : List Byte} (hready : (d.dmaAt none q).ready = true)
    (hgood : (dmaDesc desc).bad false = false) :
    d.dmaRecv q desc = d.dmaSet none q { d.dmaAt none q with recv := (d.dmaAt none q).recv ++ [(dmaDesc desc, d.recvNext)] } := by
  simp [Dev.dmaRecv, hready, hgood]

/-- The 16 bytes of the completion entry of descriptor r, which finished on queue x. -/
def DmaQ.entry (x : DmaQ) (r : DmaDone) : List Byte :=
  leBytes 2 r.desc.tag ++ leBytes 2 ((x.sqHead + 1) % x.sqN) ++ leBytes 1 r.status ++ leBytes 1 (b2n x.phase) ++ leBytes 2 0 ++ leBytes 4 r.bytes ++
    leBytes 4 0

/-- The queue once the completion of its running descriptor is written: the indexes advance, and the phase turns at the ring's end. -/
def DmaQ.completed (x : DmaQ) : DmaQ :=
  { x with
    run := none
    sqHead := (x.sqHead + 1) % x.sqN
    todo := x.todo - 1
    cqTail := (x.cqTail + 1) % x.cqN
    phase := if (x.cqTail + 1) % x.cqN = 0 then !x.phase else x.phase }

/-- A descriptor that pushes nothing and raises nothing only writes its completion. -/
theorem Dev.dmaComplete_plain {d : Dev} {fn : Option Nat} {q : Nat} {r : DmaDone} (hactive : (d.dmaAt fn q).active = true)
    (hrun : (d.dmaAt fn q).run = some r) (hflags : r.desc.flags = 0) :
    d.dmaComplete fn q =
      (d.emit (.hostWrite fn ((d.dmaAt fn q).cqBase + 16 * (d.dmaAt fn q).cqTail) ((d.dmaAt fn q).entry r))).dmaSet fn q (d.dmaAt fn q).completed := by
  have hbit (i : Nat) : bit 0 i = false := by simp [bit]
  unfold Dev.dmaComplete
  simp only [hrun, hactive, hflags, hbit]
  simp [DmaQ.entry, DmaQ.completed, hactive]

/-! ### MSI-X (R370) -/

theorem Dev.msixDeliver_open {d : Dev} {fn : Option Nat} {v : Nat} (hpending : Tab.get false d.host.pba (64 * fnIx fn + v) = true)
    (hopen : d.msixOpen fn v = true) :
    d.msixDeliver fn v =
      ({ d with host := { d.host with pba := Tab.set false d.host.pba (64 * fnIx fn + v) false } }).emit (.msix fn v) := by
  simp [Dev.msixDeliver, hpending, hopen]

/-! ### The obligation -/

/-- Settles O22. -/
theorem dmaQueuesActAndRun : Obligations.DmaQueuesActAndRun := by
  refine ⟨?create, ?destroy, ?tail, ?head, ?write, ?recv, ?complete, ?msix⟩
  case create =>
    intro s fn c ha hasked hlen hq hsq hcq hsb hcb hidle
    obtain ⟨hmsg, hresp, hdiscard⟩ := Dev.asked_msg hasked
    refine ⟨_, Machine.live_next ha (fun d => d.dmaqCreate fn), ?_⟩
    dsimp only
    rw [Dev.dmaqCreate_sound hmsg hlen hq hsq hcq hsb hcb hidle, Dev.dmaAt_answer, Dev.dmaAt_dmaSet_same]
    exact ⟨rfl, Dev.answer_mbx _ fn c 0 [] hresp hdiscard⟩
  case destroy =>
    intro s fn c ha hasked hlen hq hactive hrun
    obtain ⟨hmsg, hresp, hdiscard⟩ := Dev.asked_msg hasked
    refine ⟨_, Machine.live_next ha (fun d => d.dmaqDestroy fn), ?_⟩
    dsimp only
    rw [Dev.dmaqDestroy_idle hmsg hlen hq hactive hrun, Dev.dmaAt_answer, Dev.dmaAt_dmaSet_same]
    exact ⟨rfl, Dev.answer_mbx _ fn c 0 _ hresp hdiscard⟩
  case tail =>
    intro s fn q tail ha hopen hq hactive htail hroom
    refine ⟨_, Machine.live_next ha (fun d => d.fnDo fn (fun d => d.sqDoorbell fn q tail)), ?_⟩
    rw [Dev.fnDo_open hopen, Dev.sqDoorbell_inRange hq hactive htail hroom]
  case head =>
    intro s fn q head ha hopen hq hactive hhead hwritten
    refine ⟨_, Machine.live_next ha (fun d => d.fnDo fn (fun d => d.cqHeadWrite fn q head)), ?_⟩
    rw [Dev.fnDo_open hopen, Dev.cqHeadWrite_inRange hq hactive hhead hwritten]
  case write =>
    intro s n q desc data ha hready hgood hkind hshare hpush
    exact ⟨_, Machine.live_next ha (fun d => d.dmaWrite n q desc data none none),
      by rw [Dev.dmaWrite_sound hready hgood hkind hshare hpush]⟩
  case recv =>
    intro s q desc ha hready hgood
    exact ⟨_, Machine.live_next ha (fun d => d.dmaRecv q desc), by rw [Dev.dmaRecv_opens hready hgood]⟩
  case complete =>
    intro s fn q r ha hactive hrun hflags
    refine ⟨_, Machine.live_next ha (fun d => d.dmaComplete fn q), ?_⟩
    dsimp only
    rw [Dev.dmaComplete_plain hactive hrun hflags, Dev.dmaAt_dmaSet_same]
    exact ⟨rfl, rfl, rfl, rfl, rfl⟩
  case msix =>
    intro s fn v ha hpending hopen
    refine ⟨_, Machine.live_next ha (fun d => d.msixDeliver fn v), ?_⟩
    dsimp only
    rw [Dev.msixDeliver_open hpending hopen]
    exact ⟨rfl, Tab.get_set_same false s.dev.host.pba _ false⟩

end Sys2Proof
end

section
/-! The resets of the PCIe link and its functions, link training, configuration space and DOE Discovery (chapter 14, R348 to R351, R371,
R373): what each leaves of the host interface. From these the obligation O23. -/

namespace Sys2Proof

/-! ### What two devices with the same host interface share -/

theorem Dev.linkUp_of_rest {d e : Dev} (h : e.hostRest = d.hostRest) : e.host.linkUp = d.host.linkUp := by
  rw [Dev.host_linkUp_eq, Dev.host_linkUp_eq, h]
theorem Dev.direct_of_rest {d e : Dev} (h : e.hostRest = d.hostRest) : e.host.direct = d.host.direct := by
  rw [Dev.host_direct_eq, Dev.host_direct_eq, h]
theorem Dev.vfEnable_of_rest {d e : Dev} (h : e.hostRest = d.hostRest) : e.host.vfEnable = d.host.vfEnable := by
  rw [Dev.host_vfEnable_eq, Dev.host_vfEnable_eq, h]
theorem Dev.bme_of_rest {d e : Dev} (h : e.hostRest = d.hostRest) : e.host.bme = d.host.bme := by
  rw [Dev.host_bme_eq, Dev.host_bme_eq, h]

/-! ### The reset of one function (R371) -/

/-- The mailbox of a function that is reset. -/
theorem Dev.mbxAt_fnReset_same (d : Dev) (fn : Option Nat) : (d.fnReset fn).mbxAt fn = (d.mbxAt fn).reset :=
  Tab.get_set_same ({} : Mbx) d.host.mbx (fnIx fn) (d.mbxAt fn).reset

theorem Dev.mbxAt_fnReset_other (d : Dev) {fn g : Option Nat} (h : g ≠ fn) : (d.fnReset fn).mbxAt g = d.mbxAt g :=
  Tab.get_set_other ({} : Mbx) d.host.mbx (d.mbxAt fn).reset (fun e => h (fnIx_inj e))

theorem Dev.fnReset_linkUp (d : Dev) (fn : Option Nat) : (d.fnReset fn).host.linkUp = d.host.linkUp := rfl

theorem Dev.fnResets_linkUp (d : Dev) (ns : List Nat) : (d.fnResets ns).host.linkUp = d.host.linkUp := by
  induction ns generalizing d with
  | nil => rfl
  | cons n ns ih => rw [Dev.fnResets, ih, Dev.fnReset_linkUp]

/-- The resets of the VFs leave the PF's mailbox. -/
theorem Dev.mbxAt_fnResets_pf (d : Dev) (ns : List Nat) : (d.fnResets ns).mbxAt none = d.mbxAt none := by
  induction ns generalizing d with
  | nil => rfl
  | cons n ns ih => rw [Dev.fnResets, ih, Dev.mbxAt_fnReset_other d (by simp)]

/-- Grants and VFs revoked, the mailboxes and the link stay. -/
def Dev.vfsGone (d : Dev) : Dev := { d with host := { d.host with direct := 0, vfEnable := false, numVfs := 0 } }

theorem Dev.mbxAt_vfsGone (d : Dev) (g : Option Nat) : d.vfsGone.mbxAt g = d.mbxAt g := rfl
theorem Dev.vfsGone_linkUp (d : Dev) : d.vfsGone.host.linkUp = d.host.linkUp := rfl

/-! ### The resets of the PF, of the link and of a VF (R371) -/

/-- The host side of the PF and of every VF is reset. -/
def Dev.hostCleared (d : Dev) : Dev := ((d.fnReset none).fnResets (upTo 32)).pathDown 0

/-- A PF function-level reset leaves of the host interface what the resets of the functions leave, without grants and VFs. -/
theorem Dev.pfFlr_hostRest (d : Dev) : d.pfFlr.hostRest = d.hostCleared.vfsGone.hostRest := by
  unfold Dev.pfFlr
  dsimp only
  rw [Dev.emptyQueues_hostRest, Dev.lckForceOwner_hostRest]
  rfl

theorem Dev.pfFlr_direct (d : Dev) : d.pfFlr.host.direct = 0 := Dev.direct_of_rest (Dev.pfFlr_hostRest d)
theorem Dev.pfFlr_vfEnable (d : Dev) : d.pfFlr.host.vfEnable = false := Dev.vfEnable_of_rest (Dev.pfFlr_hostRest d)

/-- The link stays as it is. -/
theorem Dev.pfFlr_linkUp (d : Dev) : d.pfFlr.host.linkUp = d.host.linkUp := by
  rw [Dev.linkUp_of_rest (Dev.pfFlr_hostRest d), Dev.vfsGone_linkUp, Dev.hostCleared,
    Dev.linkUp_of_rest (Dev.pathDown_hostRest _ _), Dev.fnResets_linkUp, Dev.fnReset_linkUp]

theorem Dev.mbxAt_pfFlr_pf (d : Dev) : d.pfFlr.mbxAt none = (d.mbxAt none).reset := by
  rw [Dev.mbxAt_of_rest (Dev.pfFlr_hostRest d), Dev.mbxAt_vfsGone, Dev.hostCleared,
    Dev.mbxAt_of_rest (Dev.pathDown_hostRest _ _), Dev.mbxAt_fnResets_pf, Dev.mbxAt_fnReset_same]

/-- The link is down; the rest of the host interface stays. -/
def Dev.pcieDown (d : Dev) : Dev := { d with host := { d.host with linkUp := false } }

theorem Dev.pcieDown_leaves (d : Dev) :
    d.pcieDown.host.linkUp = false ∧ d.pcieDown.host.direct = d.host.direct ∧ d.pcieDown.host.vfEnable = d.host.vfEnable ∧
    d.pcieDown.mbxAt none = d.mbxAt none := ⟨rfl, rfl, rfl, rfl⟩

theorem Dev.hotReset_leaves (d : Dev) :
    d.hotReset.host.linkUp = false ∧ d.hotReset.host.direct = 0 ∧ d.hotReset.host.vfEnable = false ∧ (d.hotReset.mbxAt none).pending = false := by
  have hreset : d.hotReset = d.pfFlr.pcieDown := rfl
  obtain ⟨hup, hdirect, hvf, hmbx⟩ := d.pfFlr.pcieDown_leaves
  rw [hreset, hup, hdirect, hvf, hmbx, Dev.pfFlr_direct, Dev.pfFlr_vfEnable, Dev.mbxAt_pfFlr_pf]
  exact ⟨rfl, rfl, rfl, rfl⟩

/-- PERST_N is low. -/
def Dev.perstLow (d : Dev) : Dev := { d with pwr := { d.pwr with perst := true } }

theorem Dev.perstLow_leaves (d : Dev) : d.perstLow.host = d.host ∧ d.perstLow.pwr.perst = true := ⟨rfl, rfl⟩

theorem Dev.mbxAt_vfFlr (d : Dev) (n : Nat) (g : Option Nat) : (d.vfFlr n).mbxAt g = (d.fnReset (some n)).mbxAt g := by
  unfold Dev.vfFlr
  exact Dev.mbxAt_of_rest (Dev.ptnReset_hostRest _ _) g

/-! ### Training, configuration space and DOE Discovery (R348, R350, R351) -/

/-- Training at a supported rate and width shows both and sets LINKCHG. -/
theorem Dev.linkTrained_supported (d : Dev) {rate width : Nat} (flit : Bool) (hrate : rate = 3 ∨ rate = 4 ∨ rate = 5)
    (hwidth : width = 4 ∨ width = 8 ∨ width = 16) :
    d.linkTrained rate width flit =
      (({ d with host := { d.host with linkUp := true }, pwr := { d.pwr with perst := false } }).wrN (glbBase + 8)
        (rate + 16 * width + 512 * b2n (flit || decide (rate = 5)))).event (glbBase + 0x0C) 2 := by
  have hsupported : ([3, 4, 5].contains rate && [4, 8, 16].contains width) = true := by
    rw [Bool.and_eq_true, List.contains_iff_mem, List.contains_iff_mem]
    simp [hrate, hwidth]
  unfold Dev.linkTrained
  rw [if_pos hsupported]

theorem Dev.configWrite_bme (d : Dev) (fn : Option Nat) (on : Bool) :
    Tab.get false (d.configWrite (.bme fn on)).host.bme (fnIx fn) = on ∧ (d.configWrite (.bme fn on)).regs = d.regs := by
  unfold Dev.configWrite
  dsimp only
  split
  · rw [Dev.bme_of_rest (Dev.pathDown_hostRest _ _)]
    exact ⟨Tab.get_set_same _ _ _ _, rfl⟩
  · exact ⟨Tab.get_set_same _ _ _ _, rfl⟩

/-! ### The obligation -/

/-- Settles O23. That a reset clears VF Enable is log 54, the bytes of DOE Discovery are log 55. -/
theorem linkAndFunctionResetsAct : Obligations.LinkAndFunctionResetsAct := by
  refine ⟨?hotReset, ?pfFlr, ?vfFlr, ?perst, ?trained, ?vfEnable, ?numVfs, ?mse, ?msixEn, ?bme, ?doe⟩
  case hotReset =>
    intro s ha
    exact ⟨_, Machine.live_next ha (fun d => d.hotReset), s.dev.hotReset_leaves⟩
  case pfFlr =>
    intro s ha hup
    refine ⟨_, Machine.live_next ha (fun d => d.linkDo (fun d => d.pfFlr)), ?_⟩
    dsimp only
    rw [Dev.linkDo_open hup]
    rw [Dev.pfFlr_linkUp, Dev.pfFlr_direct, Dev.pfFlr_vfEnable, Dev.mbxAt_pfFlr_pf]
    exact ⟨hup, rfl, rfl, rfl⟩
  case vfFlr =>
    intro s n ha hup hen hn
    refine ⟨_, Machine.live_next ha (fun d => d.vfDo n (fun d => d.vfFlr n)), ?_⟩
    dsimp only
    have hopen : s.dev.vfDo n (fun d => d.vfFlr n) = s.dev.vfFlr n := by simp [Dev.vfDo, hup, hen, hn]
    rw [hopen, Dev.mbxAt_vfFlr, Dev.mbxAt_vfFlr, Dev.mbxAt_fnReset_same, Dev.mbxAt_fnReset_other s.dev (by simp)]
    exact ⟨rfl, rfl, rfl⟩
  case perst =>
    intro s ha
    have hperst : s.dev.perst = s.dev.hotReset.perstLow := rfl
    obtain ⟨hhost, hlow⟩ := s.dev.hotReset.perstLow_leaves
    obtain ⟨hup, hdirect, _⟩ := s.dev.hotReset_leaves
    refine ⟨_, Machine.live_next ha (fun d => d.perst), ?_⟩
    dsimp only
    rw [hperst, hhost, hup, hdirect]
    exact ⟨rfl, hlow, rfl⟩
  case trained =>
    intro s rate width flit ha hrate hwidth
    refine ⟨_, Machine.live_next ha (fun d => d.linkTrained rate width flit), ?_⟩
    have hb : b2n (flit || decide (rate = 5)) ≤ 1 := by unfold b2n; split <;> omega
    dsimp only
    rw [Dev.linkTrained_supported _ flit hrate hwidth]
    refine ⟨(Dev.linkUp_of_rest (Dev.event_hostRest _ _ _)).trans rfl, ?_, Dev.event_set _ _ _ (by decide)⟩
    rw [Dev.rdN_event_other _ _ (by decide), Dev.rdN_wrN_same, Nat.mod_eq_of_lt (by omega)]
  case vfEnable =>
    intro s on ha hup
    exact ⟨_, Machine.live_next ha (fun d => d.linkDo (fun d => d.configWrite (.vfEnable on))), by rw [Dev.linkDo_open hup]; rfl⟩
  case numVfs =>
    intro s n ha hup h1 h32
    refine ⟨_, Machine.live_next ha (fun d => d.linkDo (fun d => d.configWrite (.numVfs n))), ?_⟩
    rw [Dev.linkDo_open hup, Dev.configWrite, if_pos ⟨h1, h32⟩]
  case mse =>
    intro s fn on ha hup
    exact ⟨_, Machine.live_next ha (fun d => d.linkDo (fun d => d.configWrite (.mse fn on))), by rw [Dev.linkDo_open hup]; rfl⟩
  case msixEn =>
    intro s fn on ha hup
    exact ⟨_, Machine.live_next ha (fun d => d.linkDo (fun d => d.configWrite (.msixEn fn on))), by rw [Dev.linkDo_open hup]; rfl⟩
  case bme =>
    intro s fn on ha hup
    refine ⟨_, Machine.live_next ha (fun d => d.linkDo (fun d => d.configWrite (.bme fn on))), ?_⟩
    dsimp only
    rw [Dev.linkDo_open hup]
    exact s.dev.configWrite_bme fn on
  case doe =>
    intro s index ha hup hindex
    refine ⟨_, Machine.live_next ha (fun d => d.linkDo (fun d => d.doeDiscovery index)), ?_⟩
    rw [Dev.linkDo_open hup, Dev.doeDiscovery, if_pos hindex]

end Sys2Proof
end

section
/-! What an operation that leaves the control side (`Dev.control`) leaves of its parts, the words of GLB_STAT beside other registers, and
what the common operations leave of telemetry's hold. Statements about firmware and security cite these. -/

namespace Sys2Proof

/-! ### The parts of the control side -/

section
variable {d e : Dev} (h : e.control = d.control)
include h

theorem Dev.sec_of_control : e.sec = d.sec := by
  unfold Dev.control at h
  injection h
theorem Dev.pwr_of_control : e.pwr = d.pwr := by
  unfold Dev.control at h
  injection h
theorem Dev.dict_of_control : e.dict = d.dict := by
  unfold Dev.control at h
  injection h
theorem Dev.fw_of_control : e.fw = d.fw := by
  unfold Dev.control at h
  injection h
theorem Dev.now_of_control : e.now = d.now := by
  unfold Dev.control at h
  injection h
theorem Dev.alive_of_control : e.alive = d.alive := by
  unfold Dev.control at h
  injection h

end

/-! ### GLB_STAT -/

theorem Dev.helds_of_rd {d e : Dev} (h : e.rd (glbBase + 4) = d.rd (glbBase + 4)) : e.helds = d.helds := by unfold Dev.helds; rw [h]
theorem Dev.fwReady_of_rd {d e : Dev} (h : e.rd (glbBase + 4) = d.rd (glbBase + 4)) : e.fwReady = d.fwReady := by unfold Dev.fwReady; rw [h]
theorem Dev.romServes_of_rd {d e : Dev} (h : e.rd (glbBase + 4) = d.rd (glbBase + 4)) : e.romServes = d.romServes := by unfold Dev.romServes; rw [h]

/-- A mailbox answers in a register of its own function. -/
theorem Dev.rd_mbxEvent (d : Dev) (fn : Option Nat) (b : Nat) : (d.mbxEvent fn b).rd (glbBase + 4) = d.rd (glbBase + 4) := by
  refine Dev.rd_event_other d b ?_
  unfold glbBase mbxBase
  omega

theorem Dev.rd_answer (d : Dev) (fn : Option Nat) (c : MbxMsg) (st : Nat) (pl : List Byte) :
    (d.answer fn c st pl).rd (glbBase + 4) = d.rd (glbBase + 4) := by
  unfold Dev.answer Dev.mbxRespond Dev.mbxDeliver
  dsimp only
  split
  · rfl
  · split
    · rfl
    · rw [Dev.rd_mbxEvent]
      rfl

/-- Writes of other registers, one for each number of a list. -/
theorem Dev.rd_foldl_wrN (ns : List Nat) {key : Nat → Nat} (v : Dev → Nat → Nat) {k : Nat} (hk : ∀ n, k ≠ key n) (d : Dev) :
    (ns.foldl (fun (x : Dev) n => x.wrN (key n) (v x n)) d).rd k = d.rd k := by
  induction ns generalizing d with
  | nil => rfl
  | cons n ns ih => rw [List.foldl_cons, ih, Dev.rd_wrN_other _ _ (hk n)]

/-- The security block's registers lie above the others. -/
theorem Dev.rd_secRegs (d : Dev) {k : Nat} (hk : k < secBase) : (d.secRegs).rd k = d.rd k := by
  unfold Dev.secRegs
  dsimp only
  rw [Dev.rd_foldl_wrN _ _ (by omega), Dev.rd_wrN_other _ _ (by omega), Dev.rd_wrN_other _ _ (by omega), Dev.rd_wrN_other _ _ (by omega)]

theorem Dev.rd_measChange (d : Dev) (ix : Nat) {k : Nat} (hk : k < secBase) : (d.measChange ix).rd k = d.rd k := by
  unfold Dev.measChange
  rw [Dev.rd_event_other _ _ (by omega)]
  rfl

/-! ### Telemetry's hold (R414) -/

@[simp] theorem Dev.teleMake_fwHeld (d : Dev) (rank typ source partition inst : Nat) (payload : List Byte) :
    (d.teleMake rank typ source partition inst payload).tel.fwHeld = d.tel.fwHeld := rfl

@[simp] theorem Dev.event_fwHeld (d : Dev) (k b : Nat) : (d.event k b).tel.fwHeld = d.tel.fwHeld := by
  unfold Dev.event
  dsimp only
  (repeat' split) <;> simp

@[simp] theorem Dev.mbxEvent_fwHeld (d : Dev) (fn : Option Nat) (b : Nat) : (d.mbxEvent fn b).tel.fwHeld = d.tel.fwHeld :=
  Dev.event_fwHeld _ _ _

theorem Dev.answer_fwHeld (d : Dev) (fn : Option Nat) (c : MbxMsg) (st : Nat) (pl : List Byte) :
    (d.answer fn c st pl).tel.fwHeld = d.tel.fwHeld := by
  unfold Dev.answer Dev.mbxRespond Dev.mbxDeliver
  dsimp only
  split
  · rfl
  · split
    · rfl
    · rw [Dev.mbxEvent_fwHeld]
      rfl

end Sys2Proof
end

section
/-! Live updates, watchdogs and firmware faults (chapter 16, R409, R414 to R418, R424 to R426). From these the obligations O49 and O50. -/

namespace Sys2Proof

/-! ### GLB_STAT.HELD and the notices (R414, R427) -/

/-- A bit is what was written into its field. -/
theorem bit_putBits_same (x i : Nat) (b : Bool) : bit (putBits x i i (b2n b)) i = b := by
  have hfield := bits_putBits_same x i i (b2n b)
  unfold bits at hfield
  unfold bit
  rw [show i + 1 - i = 1 by omega, pow_one] at hfield
  rw [hfield]
  cases b <;> rfl

theorem bit_mod_word {i : Nat} (x : Nat) (hi : i < 32) : bit (x % 2 ^ 32) i = bit x i := by
  rw [bit_eq, bit_eq, Nat.testBit_mod_two_pow]
  simp [hi]

/-- A field of GLB_STAT of one bit reads what was written. -/
theorem Dev.setHeld_helds (d : Dev) (on : Bool) : (d.setHeld on).helds = on := by
  unfold Dev.setHeld Dev.helds wbit
  rw [Dev.rd_wrN_same, BitVec.toNat_ofNat, bit_mod_word _ (by decide), bit_putBits_same]

theorem Dev.fwNotice_helds (d : Dev) (code comp count : Nat) : (d.fwNotice code comp count).helds = d.helds :=
  Dev.helds_of_rd (Dev.notice_rd _ _ _ _ _)
theorem Dev.fwNotice_tel (d : Dev) (code comp count : Nat) : (d.fwNotice code comp count).tel = d.tel := Dev.notice_tel _ _ _ _
theorem Dev.fwNotice_fw (d : Dev) (code comp count : Nat) : (d.fwNotice code comp count).fw = d.fw :=
  Dev.fw_of_control (Dev.fwNotice_control _ _ _ _)
theorem Dev.report_fw (d : Dev) (src code cls p det : Nat) : (d.report src code cls p det).fw = d.fw :=
  Dev.fw_of_control (Dev.report_control _ _ _ _ _ _)
theorem Dev.report_dict (d : Dev) (src code cls p det : Nat) : (d.report src code cls p det).dict = d.dict :=
  Dev.dict_of_control (Dev.report_control _ _ _ _ _ _)

/-! ### The end of the pause (R395, R414) -/

theorem Dev.updateAnswer_helds (d : Dev) (code : Nat) : (d.updateAnswer code).helds = d.helds := by
  unfold Dev.updateAnswer
  split
  · exact Dev.helds_of_rd (Dev.rd_answer _ _ _ _ _)
  · rfl

theorem Dev.updateAnswer_fwHeld (d : Dev) (code : Nat) : (d.updateAnswer code).tel.fwHeld = d.tel.fwHeld := by
  unfold Dev.updateAnswer
  split
  · exact Dev.answer_fwHeld _ _ _ _ _
  · rfl

/-- The update is over: no image waits, and telemetry goes on. -/
def Dev.updateOver (d : Dev) : Dev :=
  { d with fw := { d.fw with phase := .none, other := none, discarded := none }, tel := { d.tel with fwHeld := false } }

/-- With no request held the pause ends as the update does, and HELD clears. -/
theorem Dev.pauseEnd_unheld {d : Dev} (code : Nat) (hheld : d.dict.held = []) :
    (d.pauseEnd code).fw = d.updateOver.fw ∧ (d.pauseEnd code).helds = false ∧ (d.pauseEnd code).tel.fwHeld = false := by
  have hcontrol : ((d.updateOver.setHeld false).updateAnswer code).control = d.updateOver.control := by
    rw [Dev.updateAnswer_control, Dev.setHeld_control]
  have hnone : ((d.updateOver.setHeld false).updateAnswer code).dict.held = [] := by
    rw [Dev.dict_of_control hcontrol]
    exact hheld
  have hend : d.pauseEnd code = { (d.updateOver.setHeld false).updateAnswer code with
      dict := { ((d.updateOver.setHeld false).updateAnswer code).dict with held := [] } } := by
    change ({ (d.updateOver.setHeld false).updateAnswer code with dict := { ((d.updateOver.setHeld false).updateAnswer code).dict with held := [] } } : Dev).heldAll
      ((d.updateOver.setHeld false).updateAnswer code).dict.held = _
    rw [hnone]
    rfl
  rw [hend]
  refine ⟨?_, ?_, ?_⟩
  · change ((d.updateOver.setHeld false).updateAnswer code).fw = _
    exact Dev.fw_of_control hcontrol
  · exact (Dev.updateAnswer_helds _ _).trans (Dev.setHeld_helds _ _)
  · exact Dev.updateAnswer_fwHeld _ _

/-! ### The images (R414, R418) -/

theorem Dev.measChange_fw (d : Dev) (ix : Nat) : (d.measChange ix).fw = d.fw := by
  unfold Dev.measChange
  exact (Dev.fw_of_control (Dev.event_control _ _ _)).trans rfl
theorem Dev.measChange_dict (d : Dev) (ix : Nat) : (d.measChange ix).dict = d.dict := by
  unfold Dev.measChange
  exact (Dev.dict_of_control (Dev.event_control _ _ _)).trans rfl


/-- What the supervisor programs for a slot. -/
def protOfSlot : Option FwImage → Prot
  | some i => protOf i
  | none => {}

/-- The slots hold the images named, and the protection is programmed for the first. -/
def Dev.withSlots (d : Dev) (new old : Option FwImage) : Dev :=
  { d with fw := { d.fw with image := new, other := old, prot := protOfSlot new } }

theorem Dev.imageSwap_eq (d : Dev) (new old : Option FwImage) :
    d.imageSwap new old =
      (if ((d.withSlots new old).measChange 2).runSvn = d.runSvn then (d.withSlots new old).measChange 2
        else ((d.withSlots new old).measChange 2).measChange 3).secRegs := by
  cases new <;> rfl

/-- The images change, and of the rest of firmware and the dictionary nothing. -/
theorem Dev.imageSwap_leaves (d : Dev) (new old : Option FwImage) :
    (d.imageSwap new old).fw = (d.withSlots new old).fw ∧ (d.imageSwap new old).dict = d.dict := by
  rw [Dev.imageSwap_eq, Dev.fw_of_control (Dev.secRegs_control _), Dev.dict_of_control (Dev.secRegs_control _)]
  split
  · rw [Dev.measChange_fw, Dev.measChange_dict]
    exact ⟨rfl, rfl⟩
  · rw [Dev.measChange_fw, Dev.measChange_dict, Dev.measChange_fw, Dev.measChange_dict]
    exact ⟨rfl, rfl⟩

theorem Dev.compFresh_fw (d : Dev) (c : Nat) : (d.compFresh c).fw = d.fw := by
  unfold Dev.compFresh
  (repeat' split) <;> rfl

/-- The switch takes the other image. -/
def Dev.switched (d : Dev) (discard : Option Nat) : Dev :=
  { d.exportRecs.imageSwap d.fw.other d.fw.image with
    fw := { (d.exportRecs.imageSwap d.fw.other d.fw.image).fw with phase := .switch, discarded := discard } }

theorem Dev.switched_leaves (d : Dev) (discard : Option Nat) :
    (d.switched discard).fw.phase = .switch ∧ (d.switched discard).fw.image = d.fw.other ∧ (d.switched discard).fw.other = d.fw.image ∧
    (d.switched discard).fw.discarded = discard ∧ (d.switched discard).dict = d.dict := by
  obtain ⟨hfw, hdict⟩ := d.exportRecs.imageSwap_leaves d.fw.other d.fw.image
  unfold Dev.switched
  rw [hfw]
  dsimp only
  rw [hdict]
  exact ⟨rfl, rfl, rfl, rfl, rfl⟩

/-- R417: no record, or one that is not critical, keeps the new image. -/
theorem Dev.switchImage_fw {d : Dev} {discard : Option Nat} (hphase : d.fw.phase = .quiesce) (hkeeps : discard.all (fun t => !recCritical t) = true) :
    (d.switchImage discard).fw = (d.switched discard).fw := by
  unfold Dev.switchImage
  rw [if_pos hphase]
  cases discard with
  | none => rfl
  | some t =>
    have hcritical : recCritical t = false := by simpa using hkeeps
    simp only [hcritical, Bool.false_eq_true, if_false, Dev.compFresh_fw]
    rfl

/-- R418: a critical record ends the update. -/
theorem Dev.switchImage_critical {d : Dev} {t : Nat} (hphase : d.fw.phase = .quiesce) (hcritical : recCritical t = true) :
    d.switchImage (some t) = (d.switched (some t)).abandonUpdate t := by
  unfold Dev.switchImage
  rw [if_pos hphase]
  simp only [hcritical, if_true]
  rfl

/-- R418: an abandoned update brings the other image back and ends the pause. -/
theorem Dev.abandonUpdate_unheld {d : Dev} (typ : Nat) (hphase : d.fw.phase = .switch) (hheld : d.dict.held = []) :
    (d.abandonUpdate typ).fw.phase = .none ∧ (d.abandonUpdate typ).fw.other = none ∧ (d.abandonUpdate typ).helds = false ∧
    (d.abandonUpdate typ).tel.fwHeld = false ∧ (d.abandonUpdate typ).fw.image = d.fw.other := by
  obtain ⟨hfw, hdict⟩ := d.imageSwap_leaves d.fw.other d.fw.image
  have hheld' : ((d.imageSwap d.fw.other d.fw.image).report 0x12 6 2 0xFF (typ % 65536)).dict.held = [] := by
    rw [Dev.report_dict, hdict, hheld]
  obtain ⟨hend, hhelds, htel⟩ := Dev.pauseEnd_unheld 9 hheld'
  unfold Dev.abandonUpdate
  rw [if_pos hphase]
  dsimp only
  rw [Dev.fwNotice_fw, Dev.fwNotice_helds, Dev.fwNotice_tel, hend, hhelds, htel]
  unfold Dev.updateOver
  rw [Dev.report_fw, hfw]
  exact ⟨rfl, rfl, rfl, rfl, rfl⟩

/-- The report of a record that the new image discarded. -/
def Dev.discardReport (d : Dev) : Dev :=
  match d.fw.discarded with
  | some t => d.report 0x12 5 0 0xFF (t % 65536)
  | none => d

theorem Dev.discardReport_control (d : Dev) : d.discardReport.control = d.control := by
  unfold Dev.discardReport
  split
  · exact Dev.report_control _ _ _ _ _ _
  · rfl

/-- R414 phase 5: the resumption ends the pause and keeps the image. -/
theorem Dev.resumeUpdate_unheld {d : Dev} (hphase : d.fw.phase = .switch) (hheld : d.dict.held = []) :
    d.resumeUpdate.fw.phase = .none ∧ d.resumeUpdate.fw.other = none ∧ d.resumeUpdate.helds = false ∧
    d.resumeUpdate.tel.fwHeld = false ∧ d.resumeUpdate.fw.image = d.fw.image := by
  have hresume : d.resumeUpdate = (d.discardReport.pauseEnd 0).fwNotice 0x11 0 ((d.now - d.fw.pauseAt) / 10000) := by
    unfold Dev.resumeUpdate Dev.discardReport
    exact (if_pos hphase).trans rfl
  have hheld' : d.discardReport.dict.held = [] := by
    rw [Dev.dict_of_control d.discardReport_control, hheld]
  obtain ⟨hend, hhelds, htel⟩ := Dev.pauseEnd_unheld 0 hheld'
  rw [hresume, Dev.fwNotice_fw, Dev.fwNotice_helds, Dev.fwNotice_tel, hend, hhelds, htel]
  unfold Dev.updateOver
  rw [Dev.fw_of_control d.discardReport_control]
  exact ⟨rfl, rfl, rfl, rfl, rfl⟩

/-- Settles O49. -/
theorem theLiveUpdateRunsItsPhases : Obligations.TheLiveUpdateRunsItsPhases := by
  refine ⟨?quiesce, ?switch, ?critical, ?resume, ?abandon⟩
  case quiesce =>
    intro s ha hphase hidle
    refine ⟨_, Machine.live_next ha (fun d => d.quiesce), ?_⟩
    dsimp only
    unfold Dev.quiesce
    rw [if_pos ⟨hphase, hidle⟩]
    dsimp only
    rw [Dev.fwNotice_fw, Dev.fwNotice_tel, Dev.fwNotice_helds, Dev.fw_of_control (Dev.setHeld_control _ _), Dev.setHeld_helds]
    exact ⟨rfl, rfl, rfl, rfl, rfl⟩
  case switch =>
    intro s r ha hphase hkeeps
    refine ⟨_, Machine.live_next ha (fun d => d.switchImage r), ?_⟩
    dsimp only
    rw [Dev.switchImage_fw hphase hkeeps]
    obtain ⟨hswitch, himage, hother, hdiscarded, _⟩ := s.dev.switched_leaves r
    exact ⟨hswitch, himage, hother, hdiscarded⟩
  case critical =>
    intro s r ha hphase hcritical hheld
    refine ⟨_, Machine.live_next ha (fun d => d.switchImage (some r)), ?_⟩
    obtain ⟨hswitch, himage, hother, _, hdict⟩ := s.dev.switched_leaves (some r)
    obtain ⟨hnone, hgone, hhelds, htel, hback⟩ := Dev.abandonUpdate_unheld r hswitch (by rw [hdict, hheld])
    dsimp only
    rw [Dev.switchImage_critical hphase hcritical]
    exact ⟨hnone, hback.trans hother, hgone, hhelds, htel⟩
  case resume =>
    intro s ha hphase hheld
    exact ⟨_, Machine.live_next ha (fun d => d.resumeUpdate), Dev.resumeUpdate_unheld hphase hheld⟩
  case abandon =>
    intro s typ ha hphase hheld
    exact ⟨_, Machine.live_next ha (fun d => d.abandonUpdate typ), Dev.abandonUpdate_unheld typ hphase hheld⟩

/-! ### Restarts (R409, R424) -/

/-- The times of component c's restarts within 60 s, with one now. -/
def Dev.restartTimes (d : Dev) (c : Nat) : List Nat :=
  (Tab.get [] d.fw.restarts c).filter (fun t => decide (d.now < t + minute)) ++ [d.now]

theorem Dev.dropTransfers_fw (d : Dev) : d.dropTransfers.fw = d.fw := rfl

/-- A restart is recorded, and the third in 60 s makes the management reset due. -/
theorem Dev.compRestart_fw (d : Dev) (c : Nat) :
    (d.compRestart c).fw =
      { d.fw with
        restarts := Tab.set [] d.fw.restarts c (d.restartTimes c)
        mgmtDue := d.fw.mgmtDue || decide (3 ≤ (d.restartTimes c).length) } := by
  unfold Dev.compRestart
  dsimp only
  rw [Dev.fwNotice_fw, Dev.compFresh_fw]
  split
  · rw [Dev.dropTransfers_fw, Dev.report_fw, Dev.fw_of_control (Dev.lckForceOwner_control _ _ _)]
    rfl
  · rw [Dev.report_fw, Dev.fw_of_control (Dev.lckForceOwner_control _ _ _)]
    rfl

theorem Dev.restartTimes_of_control {d e : Dev} (h : e.control = d.control) (c : Nat) : e.restartTimes c = d.restartTimes c := by
  unfold Dev.restartTimes
  rw [Dev.fw_of_control h, Dev.now_of_control h]

/-- R409: a fault records the restart as a missed watchdog does. -/
theorem Dev.protFault_fw {d : Dev} {c addr : Nat} (hruns : d.fwRuns = true) :
    (d.protFault c addr).fw =
      { d.fw with
        restarts := Tab.set [] d.fw.restarts c (d.restartTimes c)
        mgmtDue := d.fw.mgmtDue || decide (3 ≤ (d.restartTimes c).length) } := by
  unfold Dev.protFault
  rw [if_pos hruns, Dev.compRestart_fw, Dev.restartTimes_of_control (Dev.report_control _ _ _ _ _ _), Dev.report_fw]

theorem Dev.watchdog_serving {d : Dev} (c : Nat) (hruns : d.fwRuns = true) (hheld : d.helds = false) :
    d.watchdog c = if c = 0 then { d with fw := { d.fw with mgmtDue := true } } else d.compRestart c := by
  unfold Dev.watchdog
  rw [if_neg (by simp [hruns, hheld])]

/-! ### The management reset (R425) -/

theorem Dev.importRec_fw (d : Dev) (b : RecBody) : (d.importRec b).fw = d.fw := by
  cases b <;> rfl

theorem Dev.importRecs_fw (d : Dev) (rs : List StateRec) : (d.importRecs rs).fw = d.fw := by
  induction rs with
  | nil => rfl
  | cons r rs ih =>
    rw [Dev.importRecs]
    split
    · rw [Dev.importRec_fw, ih]
    · rw [Dev.compFresh_fw, ih]

/-- R425: does the ROM find the active slot's image good? -/
def Dev.imageGood (d : Dev) : Bool :=
  match d.fw.image with
  | some i => (match d.imageCheck i.bytes i.bytes.length with | .ok _ => true | .error _ => false)
  | none => false

/-- The report and the notice of the reset. -/
def Dev.mgmtTold (d : Dev) : Dev :=
  (d.report 0x12 3 2 0xFF
    (if d.fw.mgmtDue && (Tab.get [] d.fw.restarts 0).isEmpty && d.fw.restarts.any (fun kv => decide (3 ≤ kv.2.length)) then 0 else 1)).fwNotice
    0x14 0 (d.fw.mgmtResets + 1)

/-- Firmware's state when the cores come out of the reset: it counts, ends an update and forgets the restarts. -/
def Fw.reset (f : Fw) : Fw :=
  { f with
    phase := .none
    other := none
    discarded := none
    mgmtResets := f.mgmtResets + 1
    mgmtDue := false
    restarts := []
    prot := protOfSlot f.image }

/-- The device when the cores come out of the reset. -/
def Dev.mgmtCleared (d : Dev) : Dev :=
  ({ d.mgmtTold with
    fw := d.fw.reset
    dict := { d.mgmtTold.dict with sess := [], held := [] }
    tel := { d.mgmtTold.tel with fwHeld := false } } : Dev).mbxDrop

/-- The ROM waits for FW_LOAD. -/
def Dev.imageGone (d : Dev) : Dev := { d with fw := { d.fw with image := none, prot := {} } }

theorem Dev.mgmtTold_fw (d : Dev) : d.mgmtTold.fw = d.fw := by
  unfold Dev.mgmtTold
  rw [Dev.fwNotice_fw, Dev.report_fw]

theorem Dev.mgmtCleared_fw (d : Dev) : d.mgmtCleared.fw = d.fw.reset := by
  unfold Dev.mgmtCleared
  exact (Dev.fw_of_control (Dev.mbxDrop_control _)).trans rfl

theorem Dev.managementReset_eq (d : Dev) :
    d.managementReset =
      if d.imageGood then
        (if d.fwReady then (d.mgmtCleared.importRecs d.fw.retained).wrN (glbBase + 4) 2 else d.mgmtCleared.wrN (glbBase + 4) 0)
      else (d.mgmtCleared.imageGone.wrN (glbBase + 4) 1).secRegs := by
  have hreset : d.fw.reset =
      { d.mgmtTold.fw with
        phase := .none
        other := none
        discarded := none
        mgmtResets := d.fw.mgmtResets + 1
        mgmtDue := false
        restarts := []
        prot := protOfSlot d.fw.image } := by rw [Dev.mgmtTold_fw]; rfl
  unfold Dev.mgmtCleared
  rw [hreset]
  rfl

theorem Dev.imageGone_reset (d : Dev) :
    (d.mgmtCleared.imageGone.wrN (glbBase + 4) 1).secRegs.fw = { d.fw.reset with image := none, prot := {} } := by
  rw [Dev.fw_of_control (Dev.secRegs_control _), Dev.fw_of_control (Dev.wrN_control _ _ _), Dev.imageGone, Dev.mgmtCleared_fw]

/-- The reset leaves the image and its permissions as the ROM finds them, and the rest of firmware's state reset. -/
theorem Dev.managementReset_fw (d : Dev) : ∃ image prot, d.managementReset.fw = { d.fw.reset with image := image, prot := prot } := by
  rw [Dev.managementReset_eq]
  split
  · split
    · rw [Dev.fw_of_control (Dev.wrN_control _ _ _), Dev.importRecs_fw, Dev.mgmtCleared_fw]
      exact ⟨_, _, rfl⟩
    · rw [Dev.fw_of_control (Dev.wrN_control _ _ _), Dev.mgmtCleared_fw]
      exact ⟨_, _, rfl⟩
  · exact ⟨_, _, d.imageGone_reset⟩

/-- Without an image the ROM waits for FW_LOAD. -/
theorem Dev.managementReset_noImage {d : Dev} (himage : d.fw.image = none) :
    d.managementReset = (d.mgmtCleared.imageGone.wrN (glbBase + 4) 1).secRegs := by
  rw [Dev.managementReset_eq, Dev.imageGood, himage]
  rfl

/-! ### The retained records (R416, R426) -/

theorem Dev.exportRecs_sound (d : Dev) : d.exportRecs.fw.retained.all StateRec.sound = true := by
  simp [Dev.exportRecs, StateRec.sound]

theorem Dev.exportRecs_bodies (d : Dev) : d.exportRecs.fw.retained.map (fun x => x.body) = d.recBodies := by
  simp [Dev.exportRecs, Function.comp_def]

/-- Settles O50. That the reset is one step is log 84. -/
theorem firmwareFaultsRestartComponents : Obligations.FirmwareFaultsRestartComponents := by
  refine ⟨?supervisor, ?component, ?fault, ?reset, ?noImage, ?retained⟩
  case supervisor =>
    intro s ha hruns hheld
    exact ⟨_, Machine.live_next ha (fun d => d.watchdog 0), by rw [Dev.watchdog_serving 0 hruns hheld, if_pos rfl]⟩
  case component =>
    intro s c ha hruns hheld hc
    refine ⟨_, Machine.live_next ha (fun d => d.watchdog c), ?_⟩
    dsimp only
    have hne : (c : Nat) ≠ 0 := fun h => hc (Fin.ext h)
    rw [Dev.watchdog_serving c hruns hheld, if_neg hne, Dev.compRestart_fw]
    exact ⟨Tab.get_set_same _ _ _ _, rfl⟩
  case fault =>
    intro s c a ha hruns
    refine ⟨_, Machine.live_next ha (fun d => d.protWrite c a), ?_⟩
    dsimp only
    unfold Dev.protWrite
    split
    · rfl
    · rw [Dev.protFault_fw hruns]
      exact ⟨Tab.get_set_same _ _ _ _, rfl⟩
  case reset =>
    intro s ha
    refine ⟨_, Machine.live_next ha (fun d => d.managementReset), ?_⟩
    obtain ⟨image, prot, hfw⟩ := s.dev.managementReset_fw
    dsimp only
    rw [hfw]
    exact ⟨rfl, rfl, rfl, rfl⟩
  case noImage =>
    intro s ha himage
    refine ⟨_, Machine.live_next ha (fun d => d.managementReset), ?_⟩
    have hreset := Dev.managementReset_noImage himage
    have hrd : s.dev.managementReset.rd (glbBase + 4) = 1 := by
      rw [hreset, Dev.rd_secRegs _ (by decide), Dev.rd_wrN_same]
      rfl
    dsimp only
    refine ⟨?_, ?_, ?_⟩
    · rw [Dev.romServes, hrd]
      decide
    · rw [Dev.fwReady, hrd]
      decide
    · rw [hreset, Dev.imageGone_reset]
  case retained =>
    intro s ha hruns
    refine ⟨_, Machine.live_next ha (fun d => d.retainedWrite), ?_⟩
    dsimp only
    unfold Dev.retainedWrite
    rw [if_pos hruns]
    exact ⟨s.dev.exportRecs_bodies, s.dev.exportRecs_sound, rfl, rfl⟩

end Sys2Proof
end

section
/-! Firmware images, the start sequence and the re-stage of a partition (chapter 16, R411 to R413, R472). From these the obligation O48. -/

namespace Sys2Proof

/-! ### FW_LOAD (R411) -/

/-- The request of an image that is refused is answered with its code, and firmware stays as it is. -/
theorem Dev.refused_answers {d : Dev} {c : MbxMsg} (code : Nat) (hresp : (d.mbxAt none).resp = false) (hdiscard : (d.mbxAt none).discard = false) :
    Answered ((d.imageRefused code).answer none c 0 (leBytes 4 code)) none c 0 (leBytes 4 code) ∧
    ((d.imageRefused code).answer none c 0 (leBytes 4 code)).fw = d.fw := by
  have hmbx : (d.imageRefused code).mbxAt none = d.mbxAt none := Dev.mbxAt_of_rest (d.imageRefused_hostRest code) none
  refine ⟨Dev.answer_mbx _ none c 0 _ (by rw [hmbx, hresp]) (by rw [hmbx, hdiscard]), ?_⟩
  rw [Dev.fw_of_control (Dev.answer_control _ _ _ _ _), Dev.fw_of_control (Dev.imageRefused_control _ _)]

/-- A request that is only answered leaves firmware. -/
theorem Dev.answered_fw {d : Dev} {c : MbxMsg} (st : Nat) (pl : List Byte) (hresp : (d.mbxAt none).resp = false)
    (hdiscard : (d.mbxAt none).discard = false) :
    Answered (d.answer none c st pl) none c st pl ∧ (d.answer none c st pl).fw = d.fw :=
  ⟨Dev.answer_mbx d none c st pl hresp hdiscard, Dev.fw_of_control (Dev.answer_control _ _ _ _ _)⟩

theorem Dev.fwLoad_lost {d : Dev} {c : MbxMsg} (hmsg : d.msg none 0x10 = some c) (hrom : d.romServes = true) (hpl : loadPayload c.payload = true) :
    d.fwLoad none = (d.imageRefused 3).answer none c 0 (leBytes 4 3) := by
  simp [Dev.fwLoad, hmsg, hrom, hpl]

theorem Dev.fwLoad_malformed {d : Dev} {c : MbxMsg} (hmsg : d.msg none 0x10 = some c) (hrom : d.romServes = true)
    (hpl : loadPayload c.payload = false) (data : Option (List Byte)) : d.fwLoad data = d.answer none c 6 [] := by
  simp [Dev.fwLoad, hmsg, hrom, hpl]

theorem Dev.fwLoad_refused {d : Dev} {c : MbxMsg} {bs : List Byte} {code : Nat} (hmsg : d.msg none 0x10 = some c) (hrom : d.romServes = true)
    (hpl : loadPayload c.payload = true) (hcheck : d.imageCheck bs (subN c.payload 0 8) = .error code) :
    d.fwLoad (some bs) = (d.imageRefused code).answer none c 0 (leBytes 4 code) := by
  simp [Dev.fwLoad, hmsg, hrom, hpl, hcheck]

/-- The image runs under its own protection. -/
def Dev.imageRuns (d : Dev) (img : FwImage) : Dev :=
  { d with fw := { d.fw with image := some img, other := none, phase := .none, prot := protOf img } }

theorem Dev.fwLoad_runs {d : Dev} {c : MbxMsg} {bs : List Byte} {img : FwImage} (hmsg : d.msg none 0x10 = some c) (hrom : d.romServes = true)
    (hpl : loadPayload c.payload = true) (hcheck : d.imageCheck bs (subN c.payload 0 8) = .ok img) :
    d.fwLoad (some bs) = (((d.answer none c 0 (leBytes 4 0)).imageRuns img).mbxDrop.wrN (glbBase + 4) 0).secRegs := by
  simp only [Dev.fwLoad, hmsg, hrom, hpl, hcheck]
  rfl

/-- A started image is that of firmware, and GLB_STAT reads 0. -/
theorem Dev.imageRuns_starts (d : Dev) (img : FwImage) :
    ((d.imageRuns img).mbxDrop.wrN (glbBase + 4) 0).secRegs.fw = (d.imageRuns img).fw ∧
    ((d.imageRuns img).mbxDrop.wrN (glbBase + 4) 0).secRegs.rdN (glbBase + 4) = 0 := by
  constructor
  · rw [Dev.fw_of_control (Dev.secRegs_control _), Dev.fw_of_control (Dev.wrN_control _ _ _), Dev.fw_of_control (Dev.mbxDrop_control _)]
  · unfold Dev.rdN
    rw [Dev.rd_secRegs _ (by decide), Dev.rd_wrN_same]
    rfl

/-! ### FW_UPDATE (R413) -/

section
variable {d : Dev} {c : MbxMsg} (hmsg : d.msg none 0x11 = some c) (hready : d.fwReady = true) (hheld : d.helds = false)
  (hpl : loadPayload c.payload = true)
include hmsg hready hheld hpl

theorem Dev.fwUpdate_busy (hphase : d.fw.phase ≠ .none) (data : Option (List Byte)) : d.fwUpdate data = d.answer none c 0 (leBytes 4 0x0A) := by
  simp [Dev.fwUpdate, hmsg, hready, hheld, hpl, hphase]

theorem Dev.fwUpdate_lost (hphase : d.fw.phase = .none) : d.fwUpdate none = (d.imageRefused 3).answer none c 0 (leBytes 4 3) := by
  simp [Dev.fwUpdate, hmsg, hready, hheld, hpl, hphase]

theorem Dev.fwUpdate_refused {bs : List Byte} {code : Nat} (hphase : d.fw.phase = .none)
    (hcheck : d.imageCheck bs (subN c.payload 0 8) = .error code) :
    d.fwUpdate (some bs) = (d.imageRefused code).answer none c 0 (leBytes 4 code) := by
  simp [Dev.fwUpdate, hmsg, hready, hheld, hpl, hphase, hcheck]

theorem Dev.fwUpdate_checked {bs : List Byte} {img : FwImage} (hphase : d.fw.phase = .none)
    (hcheck : d.imageCheck bs (subN c.payload 0 8) = .ok img) :
    d.fwUpdate (some bs) =
      if d.updateKeeps img then { d with fw := { d.fw with other := some img, phase := .prepare } } else d.answer none c 0 (leBytes 4 8) := by
  simp [Dev.fwUpdate, hmsg, hready, hheld, hpl, hphase, hcheck]

end

/-! ### The start sequence leaves the image (R412) -/

/-- A value that is no frequency is programmed without a trace on the control side. -/
theorem Dev.applyKey_control (d : Dev) {k : Nat} (h : keyIndex k ≠ 0x4020) : (d.applyKey k).control = d.control := by
  simp [Dev.applyKey, h]

theorem Dev.applyKey_freq (d : Dev) {k : Nat} (h : keyIndex k = 0x4020) :
    d.applyKey k = d.setFreq (k % 256 - 1) (leNat (d.dval (keyIndex k) (k % 256) (k / 2 ^ 24))) := by
  simp [Dev.applyKey, h]

theorem Dev.kForce_fw (d : Dev) (k v : Nat) : (d.kForce k v).fw = d.fw := rfl

/-- The clock of die k and its request are not below the lowest step (R85). -/
def Dev.kFloored (d : Dev) (k : Nat) : Dev :=
  if d.kNow k < d.dieLow k then d.kForce k (d.dieLow k) else if d.kWant k < d.dieLow k then d.kRequest k (d.dieLow k) else d

theorem Dev.kFloored_fw (d : Dev) (k : Nat) : (d.kFloored k).fw = d.fw := by
  unfold Dev.kFloored
  split
  · exact Dev.kForce_fw d k _
  · split <;> rfl

theorem Dev.kRaise_fw (d : Dev) (k : Nat) : (d.kRaise k).fw = d.fw := by
  change (if bits ((d.kFloored k).dieReg k) 20 16 < d.dieLow k then (d.kFloored k).dieFld k 20 16 (d.dieLow k) else d.kFloored k).fw = d.fw
  split
  · rw [Dev.fw_of_control (Dev.dieFld_control _ _ _ _ _), Dev.kFloored_fw]
  · exact Dev.kFloored_fw d k

theorem Dev.setFreq_fw (d : Dev) (k f : Nat) : (d.setFreq k f).fw = d.fw := by
  unfold Dev.setFreq
  dsimp only
  split
  · rfl
  · split
    · rw [Dev.report_fw]
    · rw [Dev.kRaise_fw, Dev.fw_of_control (Dev.dieFld_control _ _ _ _ _), Dev.fw_of_control (Dev.emit_control _ _)]

theorem Dev.applyKey_fw (d : Dev) (k : Nat) : (d.applyKey k).fw = d.fw := by
  by_cases h : keyIndex k = 0x4020
  · rw [Dev.applyKey_freq d h, Dev.setFreq_fw]
  · exact Dev.fw_of_control (Dev.applyKey_control d h)

theorem Dev.applyAll_fw (d : Dev) (ks : List Nat) : (d.applyAll ks).fw = d.fw := by
  induction ks generalizing d with
  | nil => rfl
  | cons k ks ih => rw [Dev.applyAll, ih, Dev.applyKey_fw]

theorem Dev.storeImage_fw (d : Dev) (sb : Nat) (ok : Bool) : (d.storeImage sb ok).1.fw = d.fw := by
  simp only [Dev.storeImage, apply_ite Prod.fst, apply_ite Dev.fw, ite_self]

theorem Dev.dictLoad_fw (d : Dev) : d.dictLoad.fw = d.fw := by
  unfold Dev.dictLoad
  dsimp only
  split
  · rfl
  · rw [Dev.report_fw]

theorem Dev.dictRestore_fw (d : Dev) : d.dictRestore.fw = d.fw := by
  unfold Dev.dictRestore
  split
  · rfl
  · rw [Dev.storeImage_fw]

theorem Dev.saveValues_fw (d : Dev) (s : SaveImg) : (d.saveValues s).fw = d.fw := by
  unfold Dev.saveValues
  split <;> rfl

theorem Dev.saveTake_fw (d : Dev) : d.saveTake.fw = d.fw := by
  unfold Dev.saveTake
  split
  · dsimp only
    rw [Dev.fw_of_control (Dev.saveBad_control _ _), Dev.fw_of_control (Dev.event_control _ _ _), Dev.report_fw,
      Dev.fw_of_control (Dev.reportParts_control _ _), Dev.saveValues_fw, Dev.fw_of_control (Dev.saveLogs_control _ _)]
  · rfl

/-- The controller starts with the dictionary's rate, and neither firmware nor a register changes. -/
theorem Dev.canStart_leaves (d : Dev) : d.canStart.fw = d.fw ∧ ∀ k, d.canStart.rd k = d.rd k := by
  unfold Dev.canStart
  split
  · exact ⟨rfl, fun _ => rfl⟩
  · dsimp only
    refine ⟨(Dev.fw_of_control (Dev.canPath_control _)).trans rfl, fun k => (Dev.rd_of_regs ?_ k).trans rfl⟩
    unfold Dev.canPath
    split
    · unfold Dev.pathUp Dev.summary
      split <;> rfl
    · split <;> rfl

/-- Steps 1 to 3 of the start sequence: the dictionary, the save, the self-test. -/
def Dev.startLoaded (d : Dev) : Dev := d.dictLoad.dictRestore

/-- The state is taken from a save that no start has taken, and stored when it holds values. -/
def Dev.startTaken (d : Dev) : Dev :=
  if d.pwr.save.valid && !d.pwr.save.consumed && d.pwr.save.accepted.contains 6 then (d.saveTake.storeImage 1 true).1 else d.saveTake

/-- The self-test ran and the map is built. -/
def Dev.startTested (d : Dev) (t : SelfTest) : Dev :=
  (({ (d.arrayTest t.arrays).quadsFail (maskBits 4 t.quads) with
      flow := { ((d.arrayTest t.arrays).quadsFail (maskBits 4 t.quads)).flow with qInSvc := 15 - Nat.land 15 t.quads, feat := [], est := [] } } : Dev).wrN
    (treBase + 8) 256).buildMap ((upTo 32).filter (fun c => t.arrays.any (fun a => decide (a.1 = c))))

/-- The values and the bundles are in effect, and the image is measured. -/
def Dev.startApplied (d : Dev) : Dev := ((d.applyAll d.applyKeys).bundleRestore).measChange 5

/-- The burst bucket starts full. -/
def Dev.bucketFull (d : Dev) : Dev := { d with pwr := { d.pwr with bucket := 50 * d.cap } }

theorem Dev.startSequence_eq {d : Dev} (t : SelfTest) (hruns : d.fwRuns = true) (hready : d.fwReady = false) :
    d.startSequence t = (((d.startLoaded.startTaken.startTested t).startApplied.bucketFull.wrN (glbBase + 4) 2).secRegs).canStart := by
  unfold Dev.startSequence
  rw [if_pos (by simp [hruns, hready])]
  rfl

theorem Dev.startTaken_fw (d : Dev) : d.startTaken.fw = d.fw := by
  unfold Dev.startTaken
  split
  · rw [Dev.storeImage_fw, Dev.saveTake_fw]
  · rw [Dev.saveTake_fw]

theorem Dev.startTested_fw (d : Dev) (t : SelfTest) : (d.startTested t).fw = d.fw := by
  unfold Dev.startTested
  rw [Dev.fw_of_control (Dev.buildMap_control _ _), Dev.fw_of_control (Dev.wrN_control _ _ _)]
  dsimp only
  rw [Dev.fw_of_control (Dev.quadsFail_control _ _), Dev.fw_of_control (Dev.arrayTest_control _ _)]

theorem Dev.startApplied_fw (d : Dev) : d.startApplied.fw = d.fw := by
  unfold Dev.startApplied
  rw [Dev.measChange_fw, Dev.fw_of_control (Dev.bundleRestore_control _), Dev.applyAll_fw]

/-- The start sequence ends ready with the image that ran. -/
theorem Dev.startSequence_ends {d : Dev} (t : SelfTest) (hruns : d.fwRuns = true) (hready : d.fwReady = false) :
    (d.startSequence t).fwReady = true ∧ (d.startSequence t).fw = d.fw := by
  rw [Dev.startSequence_eq t hruns hready]
  obtain ⟨hfw, hrd⟩ := (((d.startLoaded.startTaken.startTested t).startApplied.bucketFull.wrN (glbBase + 4) 2).secRegs).canStart_leaves
  constructor
  · rw [Dev.fwReady, hrd, Dev.rd_secRegs _ (by decide), Dev.rd_wrN_same]
    decide
  · rw [hfw, Dev.fw_of_control (Dev.secRegs_control _), Dev.fw_of_control (Dev.wrN_control _ _ _)]
    change (d.startLoaded.startTaken.startTested t).startApplied.fw = d.fw
    rw [Dev.startApplied_fw, Dev.startTested_fw, Dev.startTaken_fw, Dev.startLoaded, Dev.dictRestore_fw, Dev.dictLoad_fw]

/-! ### The re-stage of a partition (R472) -/

theorem Dev.coreSections_ptn (d : Dev) (c r : Nat) (ss : List Sect) : (d.coreSections c r ss).ptn = d.ptn := by
  induction ss generalizing d with
  | nil => rfl
  | cons s ss ih =>
    rw [Dev.coreSections, ih]
    split <;> rfl

theorem Dev.restageCore_ptn (d : Dev) (p c : Nat) : (d.restageCore p c).ptn = d.ptn := by
  unfold Dev.restageCore
  dsimp only
  split
  · rw [Dev.coreSections_ptn]
    rfl
  · rfl

theorem Dev.restageCores_ptn (d : Dev) (p : Nat) (cs : List Nat) : (d.restageCores p cs).ptn = d.ptn := by
  induction cs generalizing d with
  | nil => rfl
  | cons c cs ih =>
    rw [Dev.restageCores, ih]
    split
    · exact Dev.restageCore_ptn d p c
    · rfl

theorem Dev.shareSections_ptn (d : Dev) (p : Nat) (ss : List Sect) : (d.shareSections p ss).ptn = d.ptn := by
  induction ss generalizing d with
  | nil => rfl
  | cons s ss ih =>
    rw [Dev.shareSections, ih]
    split <;> rfl

/-- A re-stage brings sections back, and changes no partition. -/
theorem Dev.restagePtn_ptn (d : Dev) (p : Nat) : (d.restagePtn p).ptn = d.ptn := by
  unfold Dev.restagePtn
  rw [Dev.restageCores_ptn, Dev.shareSections_ptn]

theorem Dev.ptnAt_of_ptn {d e : Dev} (h : e.ptn = d.ptn) (p : Nat) : e.ptnAt p = d.ptnAt p := by
  unfold Dev.ptnAt
  rw [h]

theorem Dev.ptnAt_ptnState_same (d : Dev) (p : Nat) (x : PtnState) : (d.ptnState p x).ptnAt p = { d.ptnAt p with state := x } :=
  Tab.get_set_same _ _ _ _

/-! ### The obligation -/

/-- Settles O48. That the start is one step is log 142. -/
theorem firmwareLoadsAndStarts : Obligations.FirmwareLoadsAndStarts := by
  refine ⟨?lost, ?load, ?malformed, ?updateLost, ?update, ?busy, ?start, ?restage⟩
  case lost =>
    intro s c ha hasked hrom hpl
    obtain ⟨hmsg, hresp, hdiscard⟩ := Dev.asked_msg hasked
    refine ⟨_, Machine.live_next ha (fun d => d.fwLoad none), ?_⟩
    dsimp only
    rw [Dev.fwLoad_lost hmsg hrom hpl]
    exact Dev.refused_answers 3 hresp hdiscard
  case load =>
    intro s c bs ha hasked hrom hpl
    obtain ⟨hmsg, hresp, hdiscard⟩ := Dev.asked_msg hasked
    refine ⟨_, Machine.live_next ha (fun d => d.fwLoad (some bs)), ?_⟩
    dsimp only
    cases hcheck : s.dev.imageCheck bs (subN c.payload 0 8) with
    | error code =>
      rw [Dev.fwLoad_refused hmsg hrom hpl hcheck]
      exact Dev.refused_answers code hresp hdiscard
    | ok img =>
      obtain ⟨hfw, hstat⟩ := (s.dev.answer none c 0 (leBytes 4 0)).imageRuns_starts img
      rw [Dev.fwLoad_runs hmsg hrom hpl hcheck]
      dsimp only
      rw [hfw, hstat]
      exact ⟨rfl, rfl, rfl, rfl, rfl⟩
  case malformed =>
    intro s c ha hasked hrom hpl
    obtain ⟨hmsg, hresp, hdiscard⟩ := Dev.asked_msg hasked
    refine ⟨_, Machine.live_next ha (fun d => d.fwLoad none), ?_⟩
    dsimp only
    rw [Dev.fwLoad_malformed hmsg hrom hpl]
    exact Dev.answered_fw 6 [] hresp hdiscard
  case updateLost =>
    intro s c ha hasked hready hheld hpl hphase
    obtain ⟨hmsg, hresp, hdiscard⟩ := Dev.asked_msg hasked
    refine ⟨_, Machine.live_next ha (fun d => d.fwUpdate none), ?_⟩
    dsimp only
    rw [Dev.fwUpdate_lost hmsg hready hheld hpl hphase]
    exact Dev.refused_answers 3 hresp hdiscard
  case update =>
    intro s c bs ha hasked hready hheld hpl hphase
    obtain ⟨hmsg, hresp, hdiscard⟩ := Dev.asked_msg hasked
    refine ⟨_, Machine.live_next ha (fun d => d.fwUpdate (some bs)), ?_⟩
    dsimp only
    cases hcheck : s.dev.imageCheck bs (subN c.payload 0 8) with
    | error code =>
      rw [Dev.fwUpdate_refused hmsg hready hheld hpl hphase hcheck]
      exact Dev.refused_answers code hresp hdiscard
    | ok img =>
      rw [Dev.fwUpdate_checked hmsg hready hheld hpl hphase hcheck]
      dsimp only
      split
      · exact ⟨rfl, rfl, rfl⟩
      · exact Dev.answered_fw 0 _ hresp hdiscard
  case busy =>
    intro s c data ha hasked hready hheld hpl hphase
    obtain ⟨hmsg, hresp, hdiscard⟩ := Dev.asked_msg hasked
    refine ⟨_, Machine.live_next ha (fun d => d.fwUpdate data), ?_⟩
    dsimp only
    rw [Dev.fwUpdate_busy hmsg hready hheld hpl hphase]
    exact Dev.answered_fw 0 _ hresp hdiscard
  case start =>
    intro s x ha hruns hready
    refine ⟨_, Machine.live_next ha (fun d => d.startSequence x), ?_⟩
    obtain ⟨hends, hfw⟩ := Dev.startSequence_ends x hruns hready
    have hlcf := congrArg Fuses.lcf (s.dev.startSequence_fuses x)
    unfold Dev.fuses at hlcf
    dsimp only
    exact ⟨hends, congrArg Fw.image hfw, hlcf⟩
  case restage =>
    intro s p ha hready hdie hfind
    refine ⟨_, Machine.live_next ha (fun d => d.partitionRestage), ?_⟩
    have hrestage : s.dev.partitionRestage = ((s.dev.restagePtn p).ptnState p .service).ptnRegs := by
      unfold Dev.partitionRestage
      rw [hfind]
      simp [hready, hdie]
    dsimp only
    rw [hrestage, Dev.ptnAt_of_ptn (Dev.ptnRegs_ptn _), Dev.ptnAt_ptnState_same, Dev.ptnAt_of_ptn (s.dev.restagePtn_ptn p)]
    exact ⟨rfl, rfl⟩

end Sys2Proof
end

section
/-! SPDM over the DOE mailbox (chapter 17, R435, R436): the gate of a request, and what each request does behind it. From these the
obligation O58. -/

namespace Sys2Proof

/-! ### The gate and the answers (R435) -/

/-- A request of version 1.2, of its length, in an open session or none, and in its order is carried out. -/
theorem Dev.spdmGate_open {d : Dev} {sid : Option Nat} {req : List Byte} {len need : Nat} (hup : d.host.linkUp = true)
    (hsess : d.sessOk sid = true) (hver : subN req 0 1 = 0x12) (hlen : len ≤ req.length) (hconn : need ≤ d.sec.conn) (go : Dev) :
    d.spdmGate sid req len need go = go := by
  unfold Dev.spdmGate
  rw [if_neg (by simp [hup]), if_neg (by simp [hsess]), if_neg (not_not_intro hver), if_neg (by omega), if_neg (by omega)]

theorem Dev.spdmAnswer_out (d : Dev) (req resp : List Byte) : (d.spdmAnswer req resp).out = .doe resp :: d.out := rfl

theorem Dev.spdmAnswer_sec (d : Dev) (req resp : List Byte) : (d.spdmAnswer req resp).sec = { d.sec with trans := d.sec.trans ++ req ++ resp } := rfl

/-- The transcript hash that a response with this body signs. -/
def Dev.signHash (d : Dev) (kind : Nat) (req body : List Byte) : List Byte := Config.spdmHash kind (d.sec.trans ++ req ++ body)

/-- The body with the Alias signature over its transcript hash. -/
def Dev.signedBody (d : Dev) (kind : Nat) (req body : List Byte) : List Byte :=
  body ++ padTo 96 (Config.ecdsaSign (p384Scalar d.aliasSeed) (d.signHash kind req body))

/-- A signed response of the connection uses one draw, and keeps its transcript hash. -/
theorem Dev.spdmSign_drawn (d : Dev) (kind : Nat) (req body : List Byte) :
    ((d.draw 32).2.spdmSign none kind req body).out = .doe (d.signedBody kind req body) :: d.out ∧
    ((d.draw 32).2.spdmSign none kind req body).sec.signed = d.signHash kind req body ∧
    ((d.draw 32).2.spdmSign none kind req body).sec.draws = d.sec.draws + 1 := ⟨rfl, rfl, rfl⟩

/-! ### The connection (R435) -/

theorem Dev.getVersion_begins {d : Dev} {req : List Byte} (hup : d.host.linkUp = true) (hver : subN req 0 1 = 0x10) :
    d.getVersion req =
      ({ d with sec := { d.sec with conn := 1, trans := [], signed := [], sess := [] } } : Dev).spdmAnswer req
        ([0x10, 0x04, 0, 0, 0, 1] ++ leBytes 2 0x1200) := by
  simp [Dev.getVersion, hup, hver]

theorem Dev.getCapabilities_next {d : Dev} {req : List Byte} (hup : d.host.linkUp = true) (hver : subN req 0 1 = 0x12) (hlen : 4 ≤ req.length)
    (hconn : d.sec.conn = 1) :
    d.getCapabilities req =
      ({ d with sec := { d.sec with conn := 2 } } : Dev).spdmAnswer req
        (spdmHdr 0x61 0 0 ++ leBytes 4 0 ++ leBytes 4 spdmCaps ++ leBytes 4 4096 ++ leBytes 4 65536) := by
  unfold Dev.getCapabilities
  rw [Dev.spdmGate_open hup rfl hver hlen (by omega), if_neg (by omega)]

/-- The request offers the device's base algorithms, and its choice in every table. -/
def offersOurs (req : List Byte) : Bool :=
  bit (subN req 8 4) 7 && bit (subN req 12 4) 1 &&
    !(algTables req).any (fun t => decide (t.1 = 2 ∨ t.1 = 3 ∨ t.1 = 5) && decide (Nat.land t.2 (algChoice t.1) = 0))

/-- The response to an agreed negotiation: the device's choice of each table. -/
def algResponse (req : List Byte) : List Byte :=
  let ts := algTables req
  let out := ts.flatMap (fun t => leBytes 1 t.1 ++ leBytes 1 0x20 ++ leBytes 2 (algChoice t.1))
  spdmHdr 0x63 ts.length 0 ++ leBytes 2 (36 + out.length) ++ leBytes 2 1 ++ leBytes 4 4 ++ leBytes 4 0x80 ++ leBytes 4 2 ++ leBytes 16 0 ++ out

/-- Any choice but the device's own is refused; an agreed one takes the connection on. -/
theorem Dev.negotiate_next {d : Dev} {req : List Byte} (hup : d.host.linkUp = true) (hver : subN req 0 1 = 0x12) (hlen : 32 ≤ req.length)
    (hconn : d.sec.conn = 2) :
    d.negotiate req =
      if offersOurs req then ({ d with sec := { d.sec with conn := 3 } } : Dev).spdmAnswer req (algResponse req) else d.spdmErr 7 0xE3 := by
  unfold Dev.negotiate
  rw [Dev.spdmGate_open hup rfl hver hlen (by omega)]
  dsimp only
  rw [if_neg (by omega)]
  have hours : (!bit (subN req 8 4) 7 || !bit (subN req 12 4) 1 ||
      (algTables req).any (fun t => decide (t.1 = 2 ∨ t.1 = 3 ∨ t.1 = 5) && decide (Nat.land t.2 (algChoice t.1) = 0))) = !offersOurs req := by
    unfold offersOurs
    simp only [Bool.not_and, Bool.not_not]
  rw [hours]
  cases offersOurs req <;> rfl

/-! ### Attestation (R435, R436) -/

section
variable {d : Dev} {req : List Byte} (hup : d.host.linkUp = true) (hver : subN req 0 1 = 0x12) (hconn : 3 ≤ d.sec.conn)
include hup hver hconn

theorem Dev.getDigests_answers (hlen : 4 ≤ req.length) :
    d.getDigests none req = d.spdmAnswer req (spdmHdr 0x01 0 1 ++ padTo 48 (Config.sha384 d.slot0)) := by
  unfold Dev.getDigests
  rw [Dev.spdmGate_open hup rfl hver hlen hconn]

/-- The portion of the chain that a GET_CERTIFICATE names. -/
theorem Dev.getCertificate_answers (hlen : 8 ≤ req.length) (hslot : bits (subN req 2 1) 3 0 = 0) :
    d.getCertificate none req =
      if d.slot0.length ≤ subN req 4 2 then d.spdmErr 1 0
      else
        (let part := sub d.slot0 (subN req 4 2) (min (subN req 6 2) (min 4000 (d.slot0.length - subN req 4 2)))
        d.spdmAnswer req (spdmHdr 0x02 0 0 ++ leBytes 2 part.length ++ leBytes 2 (d.slot0.length - subN req 4 2 - part.length) ++ part)) := by
  unfold Dev.getCertificate
  rw [Dev.spdmGate_open hup rfl hver hlen hconn]
  simp only [hslot, ne_eq, not_true_eq_false, false_or]

theorem Dev.spdmChallenge_signs (hlen : 36 ≤ req.length) (hslot : bits (subN req 2 1) 3 0 = 0) :
    d.spdmChallenge none req =
      (d.draw 32).2.spdmSign none 1 req
        (spdmHdr 0x03 0 1 ++ padTo 48 (Config.sha384 d.slot0) ++ (d.draw 32).1 ++ d.measSummary (subN req 3 1) ++ leBytes 2 0) := by
  unfold Dev.spdmChallenge
  rw [Dev.spdmGate_open hup rfl hver hlen hconn, if_neg (by simp), if_neg (not_not_intro hslot)]

/-- A signed request of one measurement. -/
theorem Dev.getMeasurements_signs (hlen : 37 ≤ req.length) (hsig : bit (subN req 2 1) 0 = true) (hhi : subN req 3 1 ≤ 37) (hlo : 1 ≤ subN req 3 1)
    (hslot : bits (subN req 36 1) 3 0 = 0) :
    d.getMeasurements none req =
      (d.draw 32).2.spdmSign none 2 req
        (spdmHdr 0x60 0 0 ++ leBytes 1 1 ++ leBytes 3 (d.measBlock (subN req 3 1)).length ++ d.measBlock (subN req 3 1) ++ (d.draw 32).1 ++ leBytes 2 0) := by
  unfold Dev.getMeasurements
  have hne : subN req 3 1 ≠ 0 := by omega
  have hone : subN req 3 1 ≠ 0xFF := by omega
  simp only [hsig, if_true]
  rw [Dev.spdmGate_open hup rfl hver hlen hconn, if_neg (by simp only [hslot]; omega)]
  simp only [if_neg hne, if_neg hone, List.flatMap_singleton]
  rfl

theorem Dev.vendorRequest_signs (hlen : 9 ≤ req.length) (hstd : subN req 4 2 = 3) (hvlen : subN req 6 1 = 2) (hvendor : subN req 7 2 = 0x1F7A)
    (hsigned : d.sec.signed ≠ []) :
    d.vendorRequest none req =
      d.spdmAnswer req (spdmHdr 0x7E 0 0 ++ leBytes 2 3 ++ leBytes 1 2 ++ leBytes 2 0x1F7A ++
        leBytes 2 (padTo 4627 (Config.mldsaSign (d.aliasSeed.drop 48) d.sec.signed)).length ++
        padTo 4627 (Config.mldsaSign (d.aliasSeed.drop 48) d.sec.signed)) := by
  unfold Dev.vendorRequest
  rw [Dev.spdmGate_open hup rfl hver hlen hconn, if_neg (by omega)]
  simp only [Dev.lastSigned, hsigned, if_false]

/-! ### Sessions (R435) -/

theorem Dev.keyExchange_full (hlen : 138 ≤ req.length) (hslot : bits (subN req 3 1) 3 0 = 0) (hfull : 4 ≤ d.sec.sess.length) :
    d.keyExchange none req = d.spdmErr 0x0A 0 := by
  unfold Dev.keyExchange
  rw [Dev.spdmGate_open hup rfl hver hlen hconn, if_neg (by simp), if_neg (not_not_intro hslot), if_pos hfull]

/-- With room a session is added whose handshake is not done. -/
theorem Dev.keyExchange_opens (hlen : 138 ≤ req.length) (hslot : bits (subN req 3 1) 3 0 = 0) (hroom : d.sec.sess.length < 4) :
    (∃ h, (d.keyExchange none req).sec.sess = d.sec.sess ++ [{ id := subN req 4 2 + 65536 * d.sidFree, done := false, signed := h }]) ∧
    (d.keyExchange none req).sec.conn = d.sec.conn := by
  unfold Dev.keyExchange
  rw [Dev.spdmGate_open hup rfl hver hlen hconn, if_neg (by simp), if_neg (not_not_intro hslot), if_neg (by omega)]
  exact ⟨⟨_, rfl⟩, rfl⟩

variable {k : Nat} (hsess : d.sessOk (some k) = true)
include hsess

/-- The handshake of session k is done. -/
theorem Dev.spdmFinish_checks (hlen : 52 ≤ req.length) (hopen : d.sessDone (some k) = false) :
    d.spdmFinish (some k) req =
      if Config.spdmFinish k (d.sec.trans ++ req.take 4) (sub req 4 48) = true then
        ({ d with sec := { d.sec with sess := d.sec.sess.map (fun (x : SpdmSess) => if x.id = k then { x with done := true } else x) } } : Dev).spdmAnswer req
          (spdmHdr 0x65 0 0)
      else d.spdmErr 6 0 := by
  unfold Dev.spdmFinish
  rw [Dev.spdmGate_open hup hsess hver hlen hconn]
  dsimp only
  rw [if_neg (by simp [hopen])]
  cases Config.spdmFinish k (d.sec.trans ++ req.take 4) (sub req 4 48) <;> rfl

theorem Dev.spdmHeartbeat_done (hlen : 4 ≤ req.length) (hdone : d.sessDone (some k) = true) :
    d.spdmHeartbeat (some k) req = d.emit (.doe (spdmHdr 0x68 0 0)) := by
  unfold Dev.spdmHeartbeat
  rw [Dev.spdmGate_open hup hsess hver hlen hconn, if_pos hdone]
  rfl

theorem Dev.endSession_done (hlen : 4 ≤ req.length) (hdone : d.sessDone (some k) = true) :
    d.endSession (some k) req =
      ({ d with sec := { d.sec with sess := d.sec.sess.filter (fun x => decide (x.id ≠ k)) } } : Dev).emit (.doe (spdmHdr 0x6C 0 0)) := by
  unfold Dev.endSession
  rw [Dev.spdmGate_open hup hsess hver hlen hconn]
  dsimp only
  rw [if_pos hdone]
  rfl

end

/-! ### The obligation -/

/-- Settles O58. The formats of the messages are log 61. -/
theorem spdmServes : Obligations.SpdmServes := by
  refine ⟨?version, ?capabilities, ?negotiated, ?refused, ?digests, ?certificate, ?challenge, ?measurements, ?vendor, ?exchange, ?full, ?finish,
    ?heartbeat, ?finished⟩
  case version =>
    intro s req ha hup hver
    refine ⟨_, Machine.live_next ha (fun d => d.linkDo (fun d => d.getVersion req)), ?_⟩
    dsimp only
    rw [Dev.linkDo_open hup, Dev.getVersion_begins hup hver]
    exact ⟨rfl, rfl, rfl⟩
  case capabilities =>
    intro s req ha hup hver hlen hconn
    refine ⟨_, Machine.live_next ha (fun d => d.linkDo (fun d => d.getCapabilities req)), ?_⟩
    dsimp only
    rw [Dev.linkDo_open hup, Dev.getCapabilities_next hup hver hlen hconn]
    exact ⟨rfl, rfl⟩
  case negotiated =>
    intro s req ha hup hver hlen hconn hasym hhash htables
    refine ⟨_, Machine.live_next ha (fun d => d.linkDo (fun d => d.negotiate req)), ?_⟩
    have hours : offersOurs req = true := by simp only [offersOurs, hasym, hhash, htables]; rfl
    dsimp only
    rw [Dev.linkDo_open hup, Dev.negotiate_next hup hver hlen hconn, if_pos hours]
    exact ⟨rfl, rfl⟩
  case refused =>
    intro s req ha hup hver hlen hconn hasym
    refine ⟨_, Machine.live_next ha (fun d => d.linkDo (fun d => d.negotiate req)), ?_⟩
    have hours : ¬offersOurs req = true := by simp [offersOurs, hasym]
    rw [Dev.linkDo_open hup, Dev.negotiate_next hup hver hlen hconn, if_neg hours]
  case digests =>
    intro s req ha hup hver hconn hlen
    refine ⟨_, Machine.live_next ha (fun d => d.linkDo (fun d => d.getDigests none req)), ?_⟩
    dsimp only
    rw [Dev.linkDo_open hup, Dev.getDigests_answers hup hver hconn hlen]
    exact ⟨rfl, rfl⟩
  case certificate =>
    intro s req ha hup hver hconn hlen hslot
    refine ⟨_, Machine.live_next ha (fun d => d.linkDo (fun d => d.getCertificate none req)), ?_⟩
    dsimp only
    rw [Dev.linkDo_open hup, Dev.getCertificate_answers hup hver hconn hlen hslot]
    split <;> rfl
  case challenge =>
    intro s req ha hup hver hconn hlen hslot
    refine ⟨_, Machine.live_next ha (fun d => d.linkDo (fun d => d.spdmChallenge none req)), ?_⟩
    dsimp only
    rw [Dev.linkDo_open hup, Dev.spdmChallenge_signs hup hver hconn hlen hslot]
    exact s.dev.spdmSign_drawn 1 req _
  case measurements =>
    intro s req ha hup hver hconn hlen hsig hhi hlo hslot
    refine ⟨_, Machine.live_next ha (fun d => d.linkDo (fun d => d.getMeasurements none req)), ?_⟩
    dsimp only
    rw [Dev.linkDo_open hup, Dev.getMeasurements_signs hup hver hconn hlen hsig hhi hlo hslot]
    exact s.dev.spdmSign_drawn 2 req _
  case vendor =>
    intro s req ha hup hver hconn hlen hstd hvlen hvendor hsigned
    refine ⟨_, Machine.live_next ha (fun d => d.linkDo (fun d => d.vendorRequest none req)), ?_⟩
    dsimp only
    rw [Dev.linkDo_open hup, Dev.vendorRequest_signs hup hver hconn hlen hstd hvlen hvendor hsigned]
    rfl
  case exchange =>
    intro s req ha hup hver hconn hlen hslot hroom
    refine ⟨_, Machine.live_next ha (fun d => d.linkDo (fun d => d.keyExchange none req)), ?_⟩
    obtain ⟨⟨h, hadded⟩, hkept⟩ := Dev.keyExchange_opens hup hver hconn hlen hslot hroom
    dsimp only
    rw [Dev.linkDo_open hup]
    exact ⟨⟨_, hadded, rfl, rfl⟩, hkept⟩
  case full =>
    intro s req ha hup hver hconn hlen hslot hfull
    refine ⟨_, Machine.live_next ha (fun d => d.linkDo (fun d => d.keyExchange none req)), ?_⟩
    rw [Dev.linkDo_open hup, Dev.keyExchange_full hup hver hconn hlen hslot hfull]
  case finish =>
    intro s k req ha hup hver hconn hsess hlen hopen
    refine ⟨_, Machine.live_next ha (fun d => d.linkDo (fun d => d.spdmFinish (some k) req)), ?_⟩
    dsimp only
    rw [Dev.linkDo_open hup, Dev.spdmFinish_checks hup hver hconn hsess hlen hopen]
    split
    · exact ⟨rfl, rfl⟩
    · rfl
  case heartbeat =>
    intro s k req ha hup hver hconn hsess hlen hdone
    refine ⟨_, Machine.live_next ha (fun d => d.linkDo (fun d => d.spdmHeartbeat (some k) req)), ?_⟩
    rw [Dev.linkDo_open hup, Dev.spdmHeartbeat_done hup hver hconn hsess hlen hdone]
  case finished =>
    intro s k req ha hup hver hconn hsess hlen hdone
    refine ⟨_, Machine.live_next ha (fun d => d.linkDo (fun d => d.endSession (some k) req)), ?_⟩
    dsimp only
    rw [Dev.linkDo_open hup, Dev.endSession_done hup hver hconn hsess hlen hdone]
    exact ⟨rfl, rfl⟩

end Sys2Proof
end

section
/-! Dictionary writes of the USB session by the outcome of their checks (chapter 15, R379), MACsec rows and associations, debug access, the
security windows and the TAP reset (chapter 17, R442, R450, R451, R453, R497). From these the obligation O57. -/

namespace Sys2Proof

/-! ### A write of the USB session (R379, R403) -/

@[simp] theorem Dev.sessAt_sessUpd_same (d : Dev) (k : Nat) (f : Sess → Sess) : (d.sessUpd k f).sessAt k = f (d.sessAt k) :=
  Tab.get_set_same _ _ _ _

/-- A session's change leaves the rest of the device. -/
theorem Dev.sessUpd_leaves (d : Dev) (k : Nat) (f : Sess → Sess) :
    (d.sessUpd k f).sec = d.sec ∧ (d.sessUpd k f).flow = d.flow ∧ (d.sessUpd k f).fw = d.fw ∧ (d.sessUpd k f).regs = d.regs := ⟨rfl, rfl, rfl, rfl⟩

/-- The USB session's result of a write. -/
def Dev.usbEnded (d : Dev) (ab index sb : Nat) : Dev :=
  d.sessUpd 190 (fun s => { s with opened := true, result := (ab, index, sb, decide (ab = 0)) })

theorem Dev.usbEnded_result (d : Dev) (ab index sb : Nat) : ((d.usbEnded ab index sb).sessAt 190).result = (ab, index, sb, decide (ab = 0)) := by
  rw [Dev.usbEnded, Dev.sessAt_sessUpd_same]

/-- A checked write takes the token of its session and its counter. -/
def Dev.tokenSpent (d : Dev) (ctr : Option Nat) : Dev :=
  match ctr with
  | some c => { d.sessUpd 190 (fun s => { s with token := none }) with sec := { d.sec with tokenCtr := c } }
  | none => d.sessUpd 190 (fun s => { s with token := none })

/-- Of the security engine the token counter alone may change. -/
theorem Dev.tokenSpent_leaves (d : Dev) (ctr : Option Nat) :
    (∃ n, (d.tokenSpent ctr).sec = { d.sec with tokenCtr := n }) ∧ (d.tokenSpent ctr).flow = d.flow ∧ (d.tokenSpent ctr).fw = d.fw := by
  cases ctr with
  | none => exact ⟨⟨d.sec.tokenCtr, rfl⟩, rfl, rfl⟩
  | some c => exact ⟨⟨c, rfl⟩, rfl, rfl⟩

section
variable {d : Dev} (hready : d.fwReady = true) (hheld : d.helds = false) (htoken : (d.sessAt 190).token = none) {index : Nat}
  (hindex : index ≠ 0x5020) {sb : Nat} {raw : List Byte} {tok : Option (List Byte)}
include hready hheld htoken hindex

/-- A write whose checks fail changes nothing of the security engine or the flow plane, and of the dictionary the session's token alone. -/
theorem Dev.usbWrite_refused {ab : Nat} (hcheck : d.writeChecks .usb index sb raw tok = .error ab) (ok : Bool) :
    ∃ e : Dev, d.writeVia .usb index sb raw tok ok = e.usbEnded ab index sb ∧ e.sec = d.sec ∧ e.flow = d.flow ∧
      e.dict = (d.sessUpd 190 (fun s => { s with token := none })).dict := by
  refine ⟨(d.sessUpd 190 (fun s => { s with token := none })).tokenFail index sb ab, ?_, ?_, ?_, Dev.dict_of_control (Dev.tokenFail_control _ _ _ _)⟩
  · unfold Dev.writeVia Dev.dictWrite
    rw [if_neg (by simp [hready, hheld])]
    have hsess : Via.sess .usb = 190 := rfl
    cases tok <;> simp only [hsess, htoken, if_neg hindex, hcheck] <;> rfl
  · rw [Dev.sec_of_control (Dev.tokenFail_control _ _ _ _)]
    rfl
  · rw [Dev.flow_of_plane (Dev.tokenFail_plane _ _ _ _)]
    rfl

/-- A write whose checks hold is committed. -/
theorem Dev.usbWrite_committed {e : DEnt} {ctr : Option Nat} (hcheck : d.writeChecks .usb index sb raw tok = .ok (e, ctr)) (ok : Bool) :
    d.writeVia .usb index sb raw tok ok =
      ((d.tokenSpent ctr).dictCommit .usb index sb (if isRow index sb then Tab.get 0 (d.sessAt 190).sel index else 0) raw e ok).1.usbEnded
        ((d.tokenSpent ctr).dictCommit .usb index sb (if isRow index sb then Tab.get 0 (d.sessAt 190).sel index else 0) raw e ok).2 index sb := by
  unfold Dev.writeVia Dev.dictWrite
  rw [if_neg (by simp [hready, hheld])]
  have hsess : Via.sess .usb = 190 := rfl
  cases tok <;> simp only [hsess, htoken, if_neg hindex, hcheck] <;> cases ctr <;> rfl

end

/-! ### MACsec rows and associations (R450, R451) -/

/-- A row of zeros deletes the association of the row, any other installs it with packet number 1. -/
theorem Dev.macsecRow_installs (d : Dev) (row : Nat) (raw : List Byte) :
    (Tab.get {} (d.macsecRow row raw).flow.ms (saKey (row / 128) (row % 128))).installed = !zeros raw ∧
    (zeros raw = false → (Tab.get {} (d.macsecRow row raw).flow.ms (saKey (row / 128) (row % 128))).pn = 1) := by
  unfold Dev.macsecRow
  dsimp only
  cases hz : zeros raw with
  | true =>
    simp only [if_true]
    rw [Tab.get_set_same]
    exact ⟨rfl, fun h => absurd h.symm Bool.false_ne_true⟩
  | false =>
    simp only [Bool.false_eq_true, if_false]
    rw [Tab.get_set_same]
    exact ⟨rfl, fun _ => rfl⟩

theorem Dev.dictCommit_macsec (d : Dev) (via : Via) (row : Nat) (raw : List Byte) (e : DEnt) (ok : Bool) :
    d.dictCommit via 0x5040 2 row raw e ok = (d.macsecRow row raw, 0) := rfl

/-- An alarm shows what it is set to. -/
theorem Dev.alarmSet_shows (d : Dev) (code inst : Nat) (on : Bool) (detail : Nat) (force : Bool) :
    (Tab.get {} (d.alarmSet code inst on detail force).tel.alarms (alarmKey code inst)).set = on := by
  unfold Dev.alarmSet
  dsimp only
  split
  next h => exact h.1
  next => rw [Tab.get_set_same]

section
variable {d : Dev} {n : Nat} (hexists : d.portExists n = true) (hwarn : wbit (d.rd (prt n 0x0C)) 3 = true)
include hexists hwarn

/-- The next association that can send takes TXAN. -/
theorem Dev.pnwarn_next {an : Nat}
    (hnext : ([1, 2, 3].map (fun i => (bits (d.rdN (prt n 0x30)) 5 4 + i) % 4)).find? (fun an => (Tab.get {} d.flow.ms (saKey n an)).fresh) = some an) :
    d.pnwarn n = ((d.wrN (prt n 0x30) (putBits (d.rdN (prt n 0x30)) 5 4 an)).txanRecord n an).alarmSet 6 n false 0 false := by
  unfold Dev.pnwarn
  dsimp only
  rw [if_neg (by simp [hexists, hwarn]), hnext]

theorem Dev.pnwarn_none
    (hnone : ([1, 2, 3].map (fun i => (bits (d.rdN (prt n 0x30)) 5 4 + i) % 4)).find? (fun an => (Tab.get {} d.flow.ms (saKey n an)).fresh) = none) :
    d.pnwarn n = d.alarmSet 6 n true 0 false := by
  unfold Dev.pnwarn
  dsimp only
  rw [if_neg (by simp [hexists, hwarn]), hnone]

end

theorem Dev.rdN_txanRecord (d : Dev) (n an k : Nat) : (d.txanRecord n an).rdN k = d.rdN k := rfl

/-! ### Debug access (R442) -/

/-- The reply is signed by an allowed signer over the challenge and the serial. -/
def Dev.replyGood (d : Dev) (reply : List Byte) : Bool :=
  d.debugSigner (sub reply 16 48) && decide (reply.length = 4800) && sigVerifies reply (d.sec.challenge ++ leBytes 4 Config.serial)

/-- A good reply opens debug access, and every reply takes one draw for a fresh challenge. -/
theorem Dev.debugUnlock_sec (d : Dev) (reply : List Byte) :
    (d.debugUnlock reply).sec.debug = (d.sec.debug || d.replyGood reply) ∧ (d.debugUnlock reply).sec.draws = d.sec.draws + 1 := by
  have hunlock : d.debugUnlock reply = if d.replyGood reply then
      ((({ d.newChallenge with sec := { d.newChallenge.sec with debug := true } } : Dev).event (secBase + 0x10) 5).report 0x11 6 0 0xFF 0).secRegs
      else d.newChallenge := rfl
  rw [hunlock]
  cases d.replyGood reply with
  | true =>
    rw [if_pos rfl, Dev.sec_of_control (Dev.secRegs_control _), Dev.sec_of_control (Dev.report_control _ _ _ _ _ _),
      Dev.sec_of_control (Dev.event_control _ _ _)]
    exact ⟨(Bool.or_true _).symm, rfl⟩
  | false =>
    rw [if_neg Bool.false_ne_true]
    exact ⟨(Bool.or_false _).symm, rfl⟩

/-! ### The windows (R453) -/

theorem Dev.wrBytes_eq (d : Dev) (k : Nat) (bs : List Byte) (n : Nat) :
    d.wrBytes k bs n = d.wordsPut k (fun i => leNat ((bs.drop (4 * i)).take 4)) n := rfl

/-- An index of 1 to 37 shows its measurement and its count. -/
theorem Dev.measSel_shows (d : Dev) {ix : Nat} (hlo : 1 ≤ ix) (hhi : ix ≤ 37) :
    (d.measSel ix).rdN (secBase + 0x40) = 2 ^ 31 + ix ∧ (d.measSel ix).rdN (secBase + 0x44) = Tab.get 0 d.sec.measCnt ix % 2 ^ 32 ∧
    ∀ i, i < 12 → (d.measSel ix).rdN (secBase + 0x50 + 4 * i) = leNat (((padTo 48 (d.meas ix)).drop (4 * i)).take 4) := by
  unfold Dev.measSel
  rw [if_pos ⟨hlo, hhi⟩, Dev.wrBytes_eq]
  refine ⟨?_, ?_, fun i hi => ?_⟩
  · rw [Dev.rdN_wordsPut_outside _ _ (by omega), Dev.rdN_wrN_other _ _ (by omega), Dev.rdN_wrN_same, Nat.mod_eq_of_lt (by omega)]
  · rw [Dev.rdN_wordsPut_outside _ _ (by omega), Dev.rdN_wrN_same]
    rfl
  · rw [Dev.rdN_wordsPut_inside _ _ _ hi, Nat.mod_eq_of_lt (leNat_take4_lt _)]

/-- An index outside 1 to 37 selects nothing. -/
theorem Dev.measSel_none (d : Dev) {ix : Nat} (hix : ix < 64) (hout : ix = 0 ∨ 37 < ix) :
    (d.measSel ix).rdN (secBase + 0x40) = ix ∧ ∀ i, (d.measSel ix).rdN (secBase + 0x50 + 4 * i) = d.rdN (secBase + 0x50 + 4 * i) := by
  unfold Dev.measSel
  rw [if_neg (by omega)]
  refine ⟨by rw [Dev.rdN_wrN_same, Nat.mod_eq_of_lt (by omega)], fun i => ?_⟩
  rw [Dev.rdN_wrN_other _ _ (by omega)]

theorem Dev.pkSel_shows (d : Dev) {p : Nat} (hp : p < 32) : (d.pkSel p).rdN (secBase + 0x200) = 2 ^ 31 + 2 ^ 30 * b2n (!d.sec.udsGone) + p := by
  have hb : b2n (!d.sec.udsGone) ≤ 1 := by unfold b2n; split <;> omega
  unfold Dev.pkSel
  dsimp only
  rw [Dev.wrBytes_eq, Dev.rdN_wordsPut_outside _ _ (by omega), Dev.rdN_wrN_same, Nat.mod_eq_of_lt (by omega)]

/-! ### The TAP reset (R167, R497) -/

/-- A lock released by force. -/
def Lck.forced (l : Lck) : Lck := { l with held := false, owner := 0, broken := true }

theorem Dev.lckForce_other (d : Dev) {n m : Nat} (row : Nat) (h : m ≠ n) : (d.lckForce n row).lckAt m = d.lckAt m := by
  unfold Dev.lckForce
  dsimp only
  split
  · rw [Dev.lckAt_of_lck (Dev.lck_of_tensor (Dev.report_tensor _ _ _ _ _ _)), Dev.lckAt_of_lck (Dev.lck_of_tensor (Dev.count_tensor _ _ _))]
    unfold Dev.lckAt Dev.lckSet
    rw [Tab.get_set_other _ _ _ h]
  · rfl

theorem Dev.lckForce_unheld {d : Dev} {n : Nat} (row : Nat) (h : (d.lckAt n).held = false) : d.lckForce n row = d := by
  simp [Dev.lckForce, h]

theorem Dev.lckForceList_unheld {d : Dev} {n : Nat} (row : Nat) (ns : List Nat) (h : (d.lckAt n).held = false) :
    (d.lckForceList row ns).lckAt n = d.lckAt n := by
  induction ns generalizing d with
  | nil => rfl
  | cons m ns ih =>
    rw [Dev.lckForceList]
    by_cases hm : n = m
    · subst hm
      rw [Dev.lckForce_unheld row h, ih h]
    · rw [ih (by rwa [Dev.lckForce_other d row hm]), Dev.lckForce_other d row hm]

/-- A held lock of the list is released. -/
theorem Dev.lckForceList_held {d : Dev} {n : Nat} (row : Nat) {ns : List Nat} (hmem : n ∈ ns) (h : (d.lckAt n).held = true) :
    (d.lckForceList row ns).lckAt n = (d.lckAt n).forced := by
  induction ns generalizing d with
  | nil => cases hmem
  | cons m ns ih =>
    rw [Dev.lckForceList]
    by_cases hm : n = m
    · subst hm
      obtain ⟨hforced, _⟩ := Dev.lckForce_held h row
      rw [Dev.lckForceList_unheld row ns (by rw [hforced]), hforced]
      rfl
    · have hrest : n ∈ ns := (List.mem_cons.mp hmem).resolve_left hm
      rw [ih hrest (by rwa [Dev.lckForce_other d row hm]), Dev.lckForce_other d row hm]

/-- A held lock is among those of its owner. -/
theorem Dev.mem_locksOf {d : Dev} {n o : Nat} (hheld : (d.lckAt n).held = true) (hown : (d.lckAt n).owner = o) : n ∈ d.locksOf o := by
  unfold Dev.lckAt Tab.get at hheld hown
  cases hfind : Tab.find d.lck n with
  | none =>
    rw [hfind] at hheld
    exact absurd hheld Bool.false_ne_true
  | some l =>
    rw [hfind] at hheld hown
    unfold Dev.locksOf
    refine List.mem_map.mpr ⟨(n, l), List.mem_filter.mpr ⟨Tab.mem_of_find hfind, ?_⟩, rfl⟩
    simp only [Option.getD_some] at hheld hown
    simp [hheld, hown]

/-! ### The obligation -/

/-- Settles O57. -/
theorem securityRowsWindowsAndDebugAct : Obligations.SecurityRowsWindowsAndDebugAct := by
  refine ⟨?row, ?pnwarn, ?exhausted, ?debug, ?selected, ?unselected, ?keys, ?tap⟩
  case row =>
    intro s row tok ha hready hheld htoken
    refine ⟨_, Machine.live_next ha (fun d => d.writeVia .usb 0x5040 2 row tok true), ?_⟩
    dsimp only
    cases hcheck : s.dev.writeChecks .usb 0x5040 2 row tok with
    | error ab =>
      obtain ⟨e, hwrite, _, hflow, _⟩ := Dev.usbWrite_refused hready hheld htoken (by decide) hcheck true
      rw [hwrite]
      exact ⟨congrArg Flow.ms hflow, e.usbEnded_result ab 0x5040 2⟩
    | ok x =>
      have hrow : (if isRow 0x5040 2 then Tab.get 0 (s.dev.sessAt 190).sel 0x5040 else 0) = Tab.get 0 (s.dev.sessAt 190).sel 0x5040 :=
        if_pos (by decide)
      rw [Dev.usbWrite_committed hready hheld htoken (by decide) hcheck true, Dev.dictCommit_macsec, hrow]
      exact ⟨Dev.macsecRow_installs _ _ _, Dev.usbEnded_result _ _ _ _⟩
  case pnwarn =>
    intro s n an ha hready hheld hexists hwarn hnext
    refine ⟨_, Machine.live_fwDo ha hready hheld (fun d => d.pnwarn n), ?_⟩
    dsimp only
    rw [Dev.pnwarn_next hexists hwarn hnext, Dev.alarmSet_rdN, Dev.rdN_txanRecord, Dev.rdN_wrN_same]
    exact ⟨rfl, Dev.alarmSet_shows _ _ _ _ _ _⟩
  case exhausted =>
    intro s n ha hready hheld hexists hwarn hnone
    refine ⟨_, Machine.live_fwDo ha hready hheld (fun d => d.pnwarn n), ?_⟩
    dsimp only
    rw [Dev.pnwarn_none hexists hwarn hnone]
    exact ⟨Dev.alarmSet_shows _ _ _ _ _ _, Dev.alarmSet_regs _ _ _ _ _ _⟩
  case debug =>
    intro s reply ha
    exact ⟨_, Machine.live_next ha (fun d => d.debugUnlock reply), s.dev.debugUnlock_sec reply⟩
  case selected =>
    intro s who ix ha _ hb hm hlo hhi
    refine ⟨_, Machine.live_blockWriteDo ha hm hb (fun d => d.measSel ix), ?_⟩
    dsimp only
    exact s.dev.measSel_shows hlo hhi
  case unselected =>
    intro s who ix ha _ hb hm hout
    obtain ⟨hsel, hdata⟩ := s.dev.measSel_none ix.isLt hout
    exact ⟨_, Machine.live_blockWriteDo ha hm hb (fun d => d.measSel ix), hsel, fun i _ => hdata i⟩
  case keys =>
    intro s who p ha _ hb hm
    refine ⟨_, Machine.live_blockWriteDo ha hm hb (fun d => d.pkSel p), ?_⟩
    dsimp only
    exact s.dev.pkSel_shows p.isLt
  case tap =>
    intro s ha
    refine ⟨_, Machine.live_next ha (fun d => d.tapReset), fun n hheld hown => ?_⟩
    exact Dev.lckForceList_held 5 (Dev.mem_locksOf hheld hown) hheld

end Sys2Proof
end

section
/-! The lifecycle operations and the rekey written over USB (chapter 17, R432, R439, R440, R443). From these the obligation O56. -/

namespace Sys2Proof

/-- Reading what was written gives the number, within the bytes written. -/
theorem leNat_leBytes (n x : Nat) : leNat (leBytes n x) = x % 256 ^ n := by
  induction n generalizing x with
  | zero => simp [leBytes, leNat, Nat.mod_one]
  | succ n ih =>
    have hbyte : (BitVec.ofNat 8 x).toNat = x % 256 := BitVec.toNat_ofNat x 8
    rw [leBytes, leNat, ih, hbyte, Nat.pow_succ', Nat.mod_mul]

/-! ### The fuses one by one -/

section
variable {d e : Dev} (h : e.fuses = d.fuses)
include h

theorem Dev.udsGone_of_fuses : e.sec.udsGone = d.sec.udsGone := by
  unfold Dev.fuses at h
  injection h

theorem Dev.floor_of_fuses : e.sec.floor = d.sec.floor := by
  unfold Dev.fuses at h
  injection h

theorem Dev.revoked_of_fuses : e.sec.revoked = d.sec.revoked := by
  unfold Dev.fuses at h
  injection h

end

/-! ### What a commit of an install and a rekey leave of the control side (R147, R432) -/

/-- The control side without the counts of changed measurements and the SPDM sessions that end with them (R437). -/
def Dev.sealed (d : Dev) : Control := { d.control with sec := { d.sec with measCnt := [], sess := [] } }

theorem Dev.sealed_of_control {d e : Dev} (h : e.control = d.control) : e.sealed = d.sealed := by
  unfold Dev.sealed
  rw [h, Dev.sec_of_control h]

section
variable {d e : Dev} (h : e.sealed = d.sealed)
include h

theorem Dev.kgen_of_sealed : e.sec.kgen = d.sec.kgen := congrArg (fun c => c.sec.kgen) h

theorem Dev.dict_of_sealed : e.dict = d.dict := by
  unfold Dev.sealed Dev.control at h
  injection h

theorem Dev.now_of_sealed : e.now = d.now := by
  unfold Dev.sealed Dev.control at h
  injection h

end

theorem Dev.measChange_sealed (d : Dev) (ix : Nat) : (d.measChange ix).sealed = d.sealed := by
  unfold Dev.measChange
  rw [Dev.sealed_of_control (Dev.event_control _ _ _)]
  unfold Dev.sealed Dev.control
  dsimp only
  split <;> rfl

theorem Dev.foldl_measChange_sealed (ps : List Nat) (d : Dev) :
    (ps.foldl (fun (x : Dev) p => x.measChange (6 + p)) d).sealed = d.sealed := by
  induction ps generalizing d with
  | nil => rfl
  | cons p ps ih => rw [List.foldl_cons, ih, Dev.measChange_sealed]

theorem Dev.bundlesGone_sealed (d : Dev) (g : Nat) : (d.bundlesGone g).sealed = d.sealed := by
  have hstore : ∀ st : Store, ({ d with store := st } : Dev).sealed = d.sealed := fun st => by
    unfold Dev.sealed Dev.control
    rfl
  unfold Dev.bundlesGone
  dsimp only
  split
  · rw [Dev.sealed_of_control (Dev.catalogue_control _), Dev.foldl_measChange_sealed, hstore]
  · exact hstore _

theorem Dev.lifeDone_sealed (d : Dev) (op : Nat) (meas : Bool) : (d.lifeDone op meas).sealed = d.sealed := by
  unfold Dev.lifeDone
  dsimp only
  rw [Dev.sealed_of_control (Dev.secRegs_control _)]
  cases meas with
  | true =>
    rw [if_pos rfl, Dev.measChange_sealed, Dev.sealed_of_control (Dev.event_control _ _ _),
      Dev.sealed_of_control (Dev.report_control _ _ _ _ _ _)]
  | false =>
    rw [if_neg Bool.false_ne_true, Dev.sealed_of_control (Dev.event_control _ _ _), Dev.sealed_of_control (Dev.report_control _ _ _ _ _ _)]

theorem Dev.commitPlane_control {d e : Dev} {n : Nat} {gone : List Bundle} {b : Bundle} (h : d.commitPlane n gone b = some e) :
    e.control = d.control := by
  unfold Dev.commitPlane at h
  split at h
  next =>
    obtain ⟨x, hstaged, rfl⟩ := Option.map_eq_some_iff.mp h
    exact (Dev.commit_control x n).trans ((Dev.stageSections_control hstaged).trans (Dev.endBundles_control d n gone))
  next => cases h

/-- The flow-plane step of an install's commit, where it has one, leaves the control side. -/
theorem Dev.planeStep_control {d e : Dev} {c : Bool} {n : Nat} {gone : List Bundle} {b : Bundle}
    (h : (if c = true then d.commitPlane n gone b else some d) = some e) : e.control = d.control := by
  cases c with
  | false => rw [Option.some.inj h]
  | true => exact Dev.commitPlane_control h

theorem Dev.bundleCommit_sealed (d : Dev) : d.bundleCommit.sealed = d.sealed := by
  unfold Dev.bundleCommit
  split
  next => rfl
  next =>
    split
    next => rfl
    next =>
      dsimp only
      split
      next => exact Dev.sealed_of_control (Dev.installEnd_control _ _ _ _ _)
      next e hplane =>
        rw [Dev.sealed_of_control (Dev.installEnd_control _ _ _ _ _), Dev.measChange_sealed,
          Dev.sealed_of_control (Dev.commitImages_control _ _ _), Dev.sealed_of_control (Dev.commitCores_control _ _ _),
          Dev.sealed_of_control (Dev.catalogue_control _), Dev.sealed_of_control (Dev.shareSections_control _ _ _),
          Dev.sealed_of_control (Dev.catalogueBundle_control _ _ _ _ _), Dev.sealed_of_control (Dev.planeStep_control hplane)]

/-- The generation of a rekeyed gang goes up by one. -/
theorem Dev.rekeyGang_kgen (d : Dev) (g : Nat) : Tab.get 0 (d.rekeyGang g).sec.kgen g = (Tab.get 0 d.sec.kgen g + 1) % 65536 := by
  unfold Dev.rekeyGang
  dsimp only
  rw [Dev.sec_of_control (Dev.report_control _ _ _ _ _ _), Dev.sec_of_control (Dev.event_control _ _ _),
    Dev.sec_of_control (Dev.joinShares_control _ _), Dev.sec_of_control (Dev.loadKeys_control _ _),
    Dev.sec_of_control (Dev.shareScrubs_control _ _), Dev.kgen_of_sealed (Dev.bundlesGone_sealed _ _)]
  dsimp only
  rw [Tab.get_set_same, Dev.sec_of_control (Dev.ptnResets_control _ _)]

theorem Dev.rekey_kgen (d : Dev) (g : Nat) : Tab.get 0 (d.rekey g).sec.kgen g = (Tab.get 0 d.sec.kgen g + 1) % 65536 := by
  rw [Dev.rekey, Dev.kgen_of_sealed (Dev.lifeDone_sealed _ _ _), Dev.kgen_of_sealed (Dev.measChange_sealed _ _), Dev.rekeyGang_kgen,
    Dev.kgen_of_sealed (Dev.bundleCommit_sealed _)]

/-! ### What each operation burns (R439, R440, R443) -/

theorem Dev.burn_lcf (d : Dev) (b : Nat) : (d.burn b).sec.lcf = setBit d.sec.lcf b := rfl

theorem Dev.provision_lcf (d : Dev) : d.provision.sec.lcf = setBit d.sec.lcf 0 := by
  rw [Dev.provision, Dev.lcf_of_fuses (Dev.lifeDone_fuses _ _ _), Dev.burn_lcf]

/-- A bit burned after every gang is rekeyed, with the keys loaded after it. -/
theorem Dev.rekeyedBurn_lcf (d : Dev) (gs : List Nat) (b op : Nat) :
    ((((d.bundleCommit.rekeyAll gs).burn b).keysIn.measChange 5).lifeDone op true).sec.lcf = setBit d.sec.lcf b := by
  rw [Dev.lcf_of_fuses (Dev.lifeDone_fuses _ _ _), Dev.lcf_of_fuses (Dev.measChange_fuses _ _), Dev.lcf_of_fuses (Dev.keysIn_fuses _),
    Dev.burn_lcf, Dev.lcf_of_fuses (Dev.rekeyAll_fuses _ _), Dev.lcf_of_fuses (Dev.bundleCommit_fuses _)]

theorem Dev.deploy_lcf (d : Dev) : d.deploy.sec.lcf = setBit d.sec.lcf (1 + d.sec.deploys) := d.rekeyedBurn_lcf _ _ _

theorem Dev.return_lcf (d : Dev) : d.return_.sec.lcf = setBit d.sec.lcf (9 + d.sec.returns) := d.rekeyedBurn_lcf _ _ _

/-- COMMIT SVN raises the floor to the running SVN and burns nothing of the lifecycle. -/
theorem Dev.commitSvn_sec (d : Dev) : d.commitSvn.sec.floor = max d.sec.floor (min 64 d.runSvn) ∧ d.commitSvn.sec.lcf = d.sec.lcf := by
  unfold Dev.commitSvn
  dsimp only
  split
  next hlow =>
    rw [Dev.floor_of_fuses (Dev.lifeDone_fuses _ _ _), Dev.lcf_of_fuses (Dev.lifeDone_fuses _ _ _)]
    exact ⟨(Nat.max_eq_right (Nat.le_of_lt hlow)).symm, rfl⟩
  next hnot =>
    rw [Dev.floor_of_fuses (Dev.lifeDone_fuses _ _ _), Dev.lcf_of_fuses (Dev.lifeDone_fuses _ _ _)]
    exact ⟨(Nat.max_eq_left (Nat.le_of_not_lt hnot)).symm, rfl⟩

theorem Dev.revokeSlot_sec (d : Dev) (k : Nat) : (d.revokeSlot k).sec.revoked = setBit d.sec.revoked k ∧ (d.revokeSlot k).sec.lcf = d.sec.lcf := by
  rw [Dev.revokeSlot, Dev.revoked_of_fuses (Dev.lifeDone_fuses _ _ _), Dev.lcf_of_fuses (Dev.lifeDone_fuses _ _ _)]
  exact ⟨rfl, rfl⟩

/-! ### DECOMMISSION (R440) -/

theorem Dev.dropItem_failsafe (d : Dev) (it : EgItem) : (d.dropItem it).flow.failsafe = d.flow.failsafe := by
  unfold Dev.dropItem
  split <;> rfl

theorem Dev.dropItems_failsafe (its : List EgItem) (d : Dev) : (d.dropItems its).flow.failsafe = d.flow.failsafe := by
  induction its generalizing d with
  | nil => rfl
  | cons it its ih => rw [Dev.dropItems, ih, Dev.dropItem_failsafe]

theorem Dev.prtCount_failsafe (d : Dev) (n k x : Nat) : (d.prtCount n k x).flow.failsafe = d.flow.failsafe := rfl

theorem Dev.wrN_failsafe (d : Dev) (k v : Nat) : (d.wrN k v).flow.failsafe = d.flow.failsafe := rfl

/-- Steps that each leave FAILSAFE_N leave it together. -/
theorem Dev.foldl_failsafe (f : Dev → Nat → Dev) (hf : ∀ d q, (f d q).flow.failsafe = d.flow.failsafe) (qs : List Nat) (d : Dev) :
    (qs.foldl f d).flow.failsafe = d.flow.failsafe := by
  induction qs generalizing d with
  | nil => rfl
  | cons q qs ih => rw [List.foldl_cons, ih, hf]

theorem Dev.flushPort_failsafe (d : Dev) (n : Nat) : (d.flushPort n).flow.failsafe = d.flow.failsafe := by
  unfold Dev.flushPort
  refine Dev.foldl_failsafe _ (fun e q => ?_) _ d
  dsimp only
  split
  next => rfl
  next => rw [Dev.prtCount_failsafe, Dev.dropItems_failsafe]; rfl

theorem Dev.portsOff_failsafe (ns : List Nat) (d : Dev) : (d.portsOff ns).flow.failsafe = d.flow.failsafe := by
  induction ns generalizing d with
  | nil => rfl
  | cons n ns ih =>
    unfold Dev.portsOff
    rw [ih, Dev.flushPort_failsafe]
    exact Dev.wrN_failsafe _ _ _

/-- FAILSAFE_N is low after it was driven low. -/
theorem Dev.failsafeAssert_low (d : Dev) : d.failsafeAssert.flow.failsafe = true := by
  unfold Dev.failsafeAssert
  split
  next h => exact h
  next => rfl

/-- The UDS and the firmware are gone. -/
def Dev.secretless (d : Dev) : Dev := { d with sec := { d.sec with udsGone := true }, fw := {} }

theorem Dev.secretless_sec (d : Dev) : d.secretless.sec = { d.sec with udsGone := true } ∧ d.secretless.fw = {} := ⟨rfl, rfl⟩

/-- FAILSAFE_N is firmware's to release no more. -/
def Dev.unreleased (d : Dev) : Dev := { d with flow := { d.flow with released := false } }

theorem Dev.unreleased_control (d : Dev) : d.unreleased.control = d.control := by unfold Dev.control; rfl

/-- The device of DECOMMISSION when its firmware is gone: partitions reset, shares scrubbed, the bit burned. -/
def Dev.decommissioned (d : Dev) : Dev := ((((d.ptnResets (upTo 32)).shareScrubs (upTo 32)).burn 17).lifeDone 4 true).secretless

/-- DECOMMISSION drives FAILSAFE_N low, drops the keys, and leaves the device to its ROM. -/
theorem Dev.decommission_eq (d : Dev) : d.decommission =
    (((d.decommissioned.unreleased.failsafeAssert.loadKeys (upTo 32)).portsOff (upTo 32)).mbxDrop.wrN (glbBase + 4) 1).secRegs := rfl

theorem Dev.decommissioned_gone (d : Dev) : d.decommissioned.sec.udsGone = true ∧ d.decommissioned.fw = {} := by
  rw [Dev.decommissioned, (Dev.secretless_sec _).1, (Dev.secretless_sec _).2]
  exact ⟨rfl, rfl⟩

theorem Dev.decommissioned_lcf (d : Dev) : d.decommissioned.sec.lcf = setBit d.sec.lcf 17 := by
  rw [Dev.decommissioned, (Dev.secretless_sec _).1]
  dsimp only
  rw [Dev.lcf_of_fuses (Dev.lifeDone_fuses _ _ _), Dev.burn_lcf, Dev.sec_of_control (Dev.shareScrubs_control _ _),
    Dev.sec_of_control (Dev.ptnResets_control _ _)]

/-- The control side after DECOMMISSION is that of the moment its firmware went. -/
theorem Dev.decommission_control (d : Dev) : d.decommission.control = d.decommissioned.control := by
  rw [Dev.decommission_eq, Dev.secRegs_control, Dev.wrN_control, Dev.mbxDrop_control, Dev.portsOff_control, Dev.loadKeys_control,
    Dev.failsafeAssert_control, Dev.unreleased_control]

theorem Dev.decommission_failsafe (d : Dev) : d.decommission.flow.failsafe = true := by
  rw [Dev.decommission_eq, Dev.flow_of_plane (Dev.secRegs_plane _), Dev.flow_of_plane (Dev.wrN_plane _ _ _),
    Dev.flow_of_plane (Dev.mbxDrop_plane _), Dev.portsOff_failsafe, Dev.flow_of_plane (Dev.loadKeys_plane _ _), Dev.failsafeAssert_low]

theorem Dev.decommission_romServes (d : Dev) : d.decommission.romServes = true := by
  rw [Dev.decommission_eq]
  unfold Dev.romServes
  rw [Dev.rd_secRegs _ (by decide), Dev.wrN, Dev.rd_wr_same]
  decide

/-! ### The operations of 0x5001 over USB (R439) -/

theorem Dev.usbEnded_leaves (d : Dev) (ab index sb : Nat) :
    (d.usbEnded ab index sb).sec = d.sec ∧ (d.usbEnded ab index sb).flow = d.flow ∧ (d.usbEnded ab index sb).fw = d.fw ∧
    (d.usbEnded ab index sb).romServes = d.romServes := ⟨rfl, rfl, rfl, rfl⟩

theorem Dev.dictCommit_life (d : Dev) (row : Nat) (raw : List Byte) (e : DEnt) (ok : Bool) :
    d.dictCommit .usb 0x5001 0 row raw e ok = (d.lifeOp (leNat raw), 0) := rfl

section
variable {d : Dev} (hready : d.fwReady = true) (hheld : d.helds = false) (htoken : (d.sessAt 190).token = none) {raw : List Byte}
  {tok : Option (List Byte)}
include hready hheld htoken

/-- A refused lifecycle write burns nothing and keeps its code. -/
theorem Dev.lifeWrite_refused {ab : Nat} (hcheck : d.writeChecks .usb 0x5001 0 raw tok = .error ab) {e : Dev}
    (he : e = d.writeVia .usb 0x5001 0 raw tok true) :
    e.sec.lcf = d.sec.lcf ∧ e.sec.floor = d.sec.floor ∧ e.sec.revoked = d.sec.revoked ∧ e.sec.kgen = d.sec.kgen ∧
    (e.sessAt 190).result = (ab, 0x5001, 0, decide (ab = 0)) := by
  obtain ⟨x, hwrite, hsec, _⟩ := Dev.usbWrite_refused hready hheld htoken (by decide) hcheck true
  have hfinal : e.sec = d.sec := by rw [he, hwrite]; exact hsec
  exact ⟨by rw [hfinal], by rw [hfinal], by rw [hfinal], by rw [hfinal], by rw [he, hwrite]; exact x.usbEnded_result ab 0x5001 0⟩

/-- An accepted one runs its operation, on a device of which the token counter may have moved, and ends with code 0. -/
theorem Dev.lifeWrite_done {x : DEnt × Option Nat} (hcheck : d.writeChecks .usb 0x5001 0 raw tok = .ok x) :
    ∃ e : Dev, (∃ n, e.sec = { d.sec with tokenCtr := n }) ∧ e.fw = d.fw ∧
      d.writeVia .usb 0x5001 0 raw tok true = (e.lifeOp (leNat raw)).usbEnded 0 0x5001 0 := by
  obtain ⟨hsec, _, hfw⟩ := d.tokenSpent_leaves x.2
  refine ⟨d.tokenSpent x.2, hsec, hfw, ?_⟩
  rw [Dev.usbWrite_committed hready hheld htoken (by decide) hcheck true, Dev.dictCommit_life]

end

theorem Dev.lifeOp_provision (d : Dev) : d.lifeOp (leNat (leBytes 4 1)) = d.provision := rfl
theorem Dev.lifeOp_deploy (d : Dev) : d.lifeOp (leNat (leBytes 4 2)) = d.deploy := rfl
theorem Dev.lifeOp_return (d : Dev) : d.lifeOp (leNat (leBytes 4 3)) = d.return_ := rfl
theorem Dev.lifeOp_decommission (d : Dev) : d.lifeOp (leNat (leBytes 4 4)) = d.decommission := rfl
theorem Dev.lifeOp_commitSvn (d : Dev) : d.lifeOp (leNat (leBytes 4 0x10)) = d.commitSvn := rfl

theorem Dev.lifeOp_rekey (d : Dev) {g : Nat} (hg : g < 32) : d.lifeOp (leNat (leBytes 4 (0x10000 + g))) = d.rekey g := by
  have hv : leNat (leBytes 4 (0x10000 + g)) = 0x10000 + g := by rw [leNat_leBytes, Nat.mod_eq_of_lt (by omega)]
  have hhigh : (0x10000 + g) / 65536 = 1 := by omega
  have hlow : (0x10000 + g) % 65536 = g := by omega
  rw [hv, Dev.lifeOp, if_neg (by omega), if_neg (by omega), if_neg (by omega), if_neg (by omega), if_neg (by omega), if_pos hhigh, hlow]

theorem Dev.lifeOp_revoke (d : Dev) {k : Nat} (hk : k < 4) : d.lifeOp (leNat (leBytes 4 (0x20000 + k))) = d.revokeSlot k := by
  have hv : leNat (leBytes 4 (0x20000 + k)) = 0x20000 + k := by rw [leNat_leBytes, Nat.mod_eq_of_lt (by omega)]
  have hlow : (0x20000 + k) % 65536 = k := by omega
  rw [hv, Dev.lifeOp, if_neg (by omega), if_neg (by omega), if_neg (by omega), if_neg (by omega), if_neg (by omega), if_neg (by omega), hlow]

/-! ### The obligation -/

/-- Settles O56. -/
theorem lifecycleWritesActWhenTheirChecksHold : Obligations.LifecycleWritesActWhenTheirChecksHold := by
  refine ⟨?provision, ?deploy, ?return_, ?decommission, ?commitSvn, ?rekey, ?revoke⟩
  case provision =>
    intro s tok ha hready hheld htoken
    refine ⟨_, Machine.live_next ha (fun d => d.writeVia .usb 0x5001 0 (leBytes 4 1) tok true), ?_⟩
    dsimp only
    cases hcheck : s.dev.writeChecks .usb 0x5001 0 (leBytes 4 1) tok with
    | error ab => exact Dev.lifeWrite_refused hready hheld htoken hcheck rfl
    | ok x =>
      obtain ⟨e, ⟨n, hsec⟩, _, hwrite⟩ := Dev.lifeWrite_done hready hheld htoken hcheck
      obtain ⟨hs, _, _, _⟩ := Dev.usbEnded_leaves e.provision 0 0x5001 0
      rw [hwrite, Dev.lifeOp_provision]
      refine ⟨?_, Dev.usbEnded_result _ _ _ _⟩
      rw [hs, Dev.provision_lcf, hsec]
  case deploy =>
    intro s tok ha hready hheld htoken
    refine ⟨_, Machine.live_next ha (fun d => d.writeVia .usb 0x5001 0 (leBytes 4 2) tok true), ?_⟩
    dsimp only
    cases hcheck : s.dev.writeChecks .usb 0x5001 0 (leBytes 4 2) tok with
    | error ab => exact Dev.lifeWrite_refused hready hheld htoken hcheck rfl
    | ok x =>
      obtain ⟨e, ⟨n, hsec⟩, _, hwrite⟩ := Dev.lifeWrite_done hready hheld htoken hcheck
      obtain ⟨hs, _, _, _⟩ := Dev.usbEnded_leaves e.deploy 0 0x5001 0
      rw [hwrite, Dev.lifeOp_deploy]
      refine ⟨?_, Dev.usbEnded_result _ _ _ _⟩
      rw [hs, Dev.deploy_lcf, hsec]
      rfl
  case return_ =>
    intro s tok ha hready hheld htoken
    refine ⟨_, Machine.live_next ha (fun d => d.writeVia .usb 0x5001 0 (leBytes 4 3) tok true), ?_⟩
    dsimp only
    cases hcheck : s.dev.writeChecks .usb 0x5001 0 (leBytes 4 3) tok with
    | error ab => exact Dev.lifeWrite_refused hready hheld htoken hcheck rfl
    | ok x =>
      obtain ⟨e, ⟨n, hsec⟩, _, hwrite⟩ := Dev.lifeWrite_done hready hheld htoken hcheck
      obtain ⟨hs, _, _, _⟩ := Dev.usbEnded_leaves e.return_ 0 0x5001 0
      rw [hwrite, Dev.lifeOp_return]
      refine ⟨?_, Dev.usbEnded_result _ _ _ _⟩
      rw [hs, Dev.return_lcf, hsec]
      rfl
  case decommission =>
    intro s tok ha hready hheld htoken
    refine ⟨_, Machine.live_next ha (fun d => d.writeVia .usb 0x5001 0 (leBytes 4 4) tok true), ?_⟩
    dsimp only
    cases hcheck : s.dev.writeChecks .usb 0x5001 0 (leBytes 4 4) tok with
    | error ab => exact Dev.lifeWrite_refused hready hheld htoken hcheck rfl
    | ok x =>
      obtain ⟨e, ⟨n, hsec⟩, _, hwrite⟩ := Dev.lifeWrite_done hready hheld htoken hcheck
      obtain ⟨hs, hflow, hf, hrom⟩ := Dev.usbEnded_leaves e.decommission 0 0x5001 0
      rw [hwrite, Dev.lifeOp_decommission]
      obtain ⟨hgone, himage⟩ := e.decommissioned_gone
      rw [hs, hflow, hf, hrom, Dev.sec_of_control e.decommission_control, Dev.fw_of_control e.decommission_control]
      exact ⟨by rw [Dev.decommissioned_lcf, hsec], hgone, e.decommission_romServes, himage, e.decommission_failsafe, Dev.usbEnded_result _ _ _ _⟩
  case commitSvn =>
    intro s tok ha hready hheld htoken
    refine ⟨_, Machine.live_next ha (fun d => d.writeVia .usb 0x5001 0 (leBytes 4 0x10) tok true), ?_⟩
    dsimp only
    cases hcheck : s.dev.writeChecks .usb 0x5001 0 (leBytes 4 0x10) tok with
    | error ab => exact Dev.lifeWrite_refused hready hheld htoken hcheck rfl
    | ok x =>
      obtain ⟨e, ⟨n, hsec⟩, hfw, hwrite⟩ := Dev.lifeWrite_done hready hheld htoken hcheck
      obtain ⟨hs, _, _, _⟩ := Dev.usbEnded_leaves e.commitSvn 0 0x5001 0
      rw [hwrite, Dev.lifeOp_commitSvn]
      obtain ⟨hfloor, hlcf⟩ := e.commitSvn_sec
      have hsvn : e.runSvn = s.dev.runSvn := by unfold Dev.runSvn; rw [hfw]
      rw [hs, hfloor, hlcf, hsvn, hsec]
      exact ⟨rfl, rfl, Dev.usbEnded_result _ _ _ _⟩
  case rekey =>
    intro s g tok ha hready hheld htoken
    refine ⟨_, Machine.live_next ha (fun d => d.writeVia .usb 0x5001 0 (leBytes 4 (0x10000 + g)) tok true), ?_⟩
    dsimp only
    cases hcheck : s.dev.writeChecks .usb 0x5001 0 (leBytes 4 (0x10000 + g)) tok with
    | error ab => exact Dev.lifeWrite_refused hready hheld htoken hcheck rfl
    | ok x =>
      obtain ⟨e, ⟨n, hsec⟩, _, hwrite⟩ := Dev.lifeWrite_done hready hheld htoken hcheck
      obtain ⟨hs, _, _, _⟩ := Dev.usbEnded_leaves (e.rekey g) 0 0x5001 0
      rw [hwrite, Dev.lifeOp_rekey _ g.isLt]
      rw [hs, Dev.rekey_kgen, Dev.lcf_of_fuses (Dev.rekey_fuses _ _), hsec]
      exact ⟨rfl, rfl, Dev.usbEnded_result _ _ _ _⟩
  case revoke =>
    intro s k tok ha hready hheld htoken
    refine ⟨_, Machine.live_next ha (fun d => d.writeVia .usb 0x5001 0 (leBytes 4 (0x20000 + k)) tok true), ?_⟩
    dsimp only
    cases hcheck : s.dev.writeChecks .usb 0x5001 0 (leBytes 4 (0x20000 + k)) tok with
    | error ab => exact Dev.lifeWrite_refused hready hheld htoken hcheck rfl
    | ok x =>
      obtain ⟨e, ⟨n, hsec⟩, _, hwrite⟩ := Dev.lifeWrite_done hready hheld htoken hcheck
      obtain ⟨hs, _, _, _⟩ := Dev.usbEnded_leaves (e.revokeSlot k) 0 0x5001 0
      rw [hwrite, Dev.lifeOp_revoke _ k.isLt]
      obtain ⟨hrevoked, hlcf⟩ := e.revokeSlot_sec k
      rw [hs, hrevoked, hlcf, hsec]
      exact ⟨rfl, rfl, Dev.usbEnded_result _ _ _ _⟩

end Sys2Proof
end

section
/-! Settings that take effect, the stores and loads of the persistent image, and tokens (chapter 15, R380, R382, R384, R388). From these the
obligation O53. -/

namespace Sys2Proof

/-! ### Settings (R380) -/

/-- The device whose oldest committed value is taken. -/
def Dev.applyTaken (d : Dev) (ks : List Nat) : Dev := { d with dict := { d.dict with apply := ks } }

theorem Dev.applyTaken_dvalN (d : Dev) (ks : List Nat) (index sb row : Nat) : (d.applyTaken ks).dvalN index sb row = d.dvalN index sb row := rfl

section
variable {d : Dev} {k : Nat} {ks : List Nat} (happly : d.dict.apply = k :: ks)
include happly

theorem Dev.settingApply_takes : d.settingApply = (d.applyTaken ks).applyKey k := by
  unfold Dev.settingApply
  rw [happly]
  rfl

theorem Dev.settingApply_parser (hindex : keyIndex k = 0x3010) :
    d.settingApply = (d.applyTaken ks).wrN (parBase + 4 * (k % 256)) (d.dvalN 0x3010 (k % 256) (k / 2 ^ 24)) := by
  rw [Dev.settingApply_takes happly, Dev.applyKey]
  dsimp only
  rw [hindex]
  rfl

theorem Dev.settingApply_pool (hindex : keyIndex k = 0x3030) :
    d.settingApply = (d.applyTaken ks).wrN (gntBase + 8) (d.dvalN 0x3030 (k % 256) (k / 2 ^ 24)) := by
  rw [Dev.settingApply_takes happly, Dev.applyKey]
  dsimp only
  rw [hindex]
  rfl

end

/-! ### Stores (R382) -/

/-- A store that fits writes the copy with the lower sequence number, here B, and leaves the other. -/
theorem Dev.storeImage_intoB {d : Dev} {sb : Nat} (hfits : (d.storeImage sb true).2 = 0) (hlower : d.dict.norB.seq < d.dict.norA.seq) :
    (d.storeImage sb true).1.dict.norB.valid = true ∧ (d.storeImage sb true).1.dict.norB.seq = d.dict.norA.seq + 1 ∧
    (d.storeImage sb true).1.dict.norA = d.dict.norA ∧ (d.storeImage sb true).1.dict.lastStore = 0 := by
  have hnotA : decide (d.dict.norA.seq ≤ d.dict.norB.seq) = false := decide_eq_false (by omega)
  unfold Dev.storeImage at hfits ⊢
  simp only [hnotA, Bool.false_eq_true, if_false, if_true] at hfits ⊢
  split at hfits
  next =>
    have habort : abStore ≠ 0 := by decide
    exact absurd hfits habort
  next hroom =>
    rw [if_neg hroom]
    exact ⟨rfl, rfl, rfl, rfl⟩

/-- What a write takes of its session changes nothing of a store's outcome. -/
theorem Dev.storeImage_tokenSpent (d : Dev) (sb : Nat) : ((d.tokenSpent none).storeImage sb true).2 = (d.storeImage sb true).2 := by
  unfold Dev.storeImage
  dsimp only
  rw [apply_ite Prod.snd, apply_ite Prod.snd]
  rfl

theorem Dev.tokenSpent_dict (d : Dev) (ctr : Option Nat) : (d.tokenSpent ctr).dict = (d.sessUpd 190 (fun s => { s with token := none })).dict := by
  cases ctr <;> rfl

theorem Dev.dictCommit_store (d : Dev) (sb : Fin 4) (row : Nat) (raw : List Byte) (e : DEnt) (ok : Bool) :
    d.dictCommit .usb 0x1010 sb row raw e ok = d.storeImage sb ok := by
  have hselect : isSelect 0x1010 sb = false := by revert sb; decide
  unfold Dev.dictCommit
  dsimp only
  rw [hselect]
  rfl

/-! ### Loads (R384) -/

/-- The device with a range marked. -/
def Dev.marked (d : Dev) (sb : Nat) : Dev :=
  { d with dict := { d.dict with restore := if d.dict.restore.contains sb then d.dict.restore else d.dict.restore ++ [sb] } }

theorem Dev.marked_dict (d : Dev) (sb : Nat) : sb ∈ (d.marked sb).dict.restore ∧ (d.marked sb).dict.vals = d.dict.vals := by
  refine ⟨?_, rfl⟩
  change sb ∈ if d.dict.restore.contains sb then d.dict.restore else d.dict.restore ++ [sb]
  split
  next h => exact List.contains_iff_mem.mp h
  next => exact List.mem_append_right _ (List.mem_singleton.mpr rfl)

theorem Dev.dictCommit_load (d : Dev) (sb : Fin 4) (row : Nat) (raw : List Byte) (e : DEnt) (ok : Bool) :
    d.dictCommit .usb 0x1011 sb row raw e ok = (d.marked sb, 0) := by
  have hselect : isSelect 0x1011 sb = false := by revert sb; decide
  unfold Dev.dictCommit
  dsimp only
  rw [hselect]
  rfl

theorem Dev.usbEnded_dict (d : Dev) (ab index sb : Nat) :
    (d.usbEnded ab index sb).dict.restore = d.dict.restore ∧ (d.usbEnded ab index sb).dict.vals = d.dict.vals ∧
    (d.usbEnded ab index sb).dict.norA = d.dict.norA ∧ (d.usbEnded ab index sb).dict.norB = d.dict.norB ∧
    (d.usbEnded ab index sb).dict.lastStore = d.dict.lastStore := ⟨rfl, rfl, rfl, rfl, rfl⟩

/-! ### Tokens (R388) -/

/-- A write of 0x5020 is staged with its time and spends no token. -/
theorem Dev.usbWrite_staged {d : Dev} {raw : List Byte} {e : DEnt} (hready : d.fwReady = true) (hheld : d.helds = false)
    (htoken : (d.sessAt 190).token = none) (hcheck : d.writeChecks .usb 0x5020 0 raw none = .ok (e, none)) :
    d.writeVia .usb 0x5020 0 raw none true =
      (d.sessUpd 190 (fun s => { s with opened := true, token := some (raw, d.now) })).usbEnded 0 0x5020 0 := by
  unfold Dev.writeVia Dev.dictWrite
  rw [if_neg (by simp [hready, hheld])]
  have hsess : Via.sess .usb = 190 := rfl
  simp only [hsess, htoken, hcheck]
  rfl

theorem Dev.usbEnded_token (d : Dev) (ab index sb : Nat) : ((d.usbEnded ab index sb).sessAt 190).token = (d.sessAt 190).token := by
  rw [Dev.usbEnded, Dev.sessAt_sessUpd_same]

/-! ### The obligation -/

/-- Settles O53. -/
theorem settingsApplyAndStoresAct : Obligations.SettingsApplyAndStoresAct := by
  refine ⟨?parser, ?pool, ?store, ?load, ?stage, ?expiry⟩
  case parser =>
    intro s k ks ha hready hheld happly hindex
    refine ⟨_, Machine.live_fwDo ha hready hheld (fun d => d.settingApply), ?_⟩
    dsimp only
    rw [Dev.settingApply_parser happly hindex]
    exact ⟨rfl, Dev.rdN_wrN_same _ _ _⟩
  case pool =>
    intro s k ks ha hready hheld happly hindex
    refine ⟨_, Machine.live_fwDo ha hready hheld (fun d => d.settingApply), ?_⟩
    dsimp only
    rw [Dev.settingApply_pool happly hindex]
    exact ⟨rfl, Dev.rdN_wrN_same _ _ _⟩
  case store =>
    intro s sb e ha hready hheld htoken hcheck hfits hlower
    refine ⟨_, Machine.live_next ha (fun d => d.writeVia .usb 0x1010 sb (leBytes 4 saveWord) none true), ?_⟩
    dsimp only
    have hfits' : ((s.dev.tokenSpent none).storeImage sb true).2 = 0 := (s.dev.storeImage_tokenSpent sb).trans hfits
    obtain ⟨hvalid, hseq, hother, hlast⟩ := Dev.storeImage_intoB hfits' hlower
    rw [Dev.usbWrite_committed hready hheld htoken (by decide) hcheck true, Dev.dictCommit_store, hfits']
    obtain ⟨_, _, hA, hB, hL⟩ := ((s.dev.tokenSpent none).storeImage sb true).1.usbEnded_dict 0 0x1010 sb
    rw [hA, hB, hL]
    exact ⟨hvalid, hseq, hother, hlast, Dev.usbEnded_result _ _ _ _⟩
  case load =>
    intro s sb tok ha hready hheld htoken
    refine ⟨_, Machine.live_next ha (fun d => d.writeVia .usb 0x1011 sb (leBytes 4 loadWord) tok true), ?_⟩
    dsimp only
    cases hcheck : s.dev.writeChecks .usb 0x1011 sb (leBytes 4 loadWord) tok with
    | error ab =>
      obtain ⟨e, hwrite, _, _, hdict⟩ := Dev.usbWrite_refused hready hheld htoken (by decide) hcheck true
      obtain ⟨hR, _, _, _, _⟩ := e.usbEnded_dict ab 0x1011 sb
      rw [hwrite, hR, hdict]
      exact ⟨rfl, e.usbEnded_result ab 0x1011 sb⟩
    | ok x =>
      rw [Dev.usbWrite_committed hready hheld htoken (by decide) hcheck true, Dev.dictCommit_load]
      obtain ⟨hmem, hvals⟩ := (s.dev.tokenSpent x.2).marked_dict sb
      obtain ⟨hR, hV, _, _, _⟩ := ((s.dev.tokenSpent x.2).marked sb).usbEnded_dict 0 0x1011 sb
      dsimp only
      rw [hR, hV, hvals, Dev.tokenSpent_dict]
      exact ⟨hmem, rfl, Dev.usbEnded_result _ _ _ _⟩
  case stage =>
    intro s raw e ha hready hheld htoken hcheck
    refine ⟨_, Machine.live_next ha (fun d => d.writeVia .usb 0x5020 0 raw none true), ?_⟩
    dsimp only
    rw [Dev.usbWrite_staged hready hheld htoken hcheck, Dev.usbEnded_token, Dev.sessAt_sessUpd_same]
    exact ⟨rfl, Dev.usbEnded_result _ _ _ _⟩
  case expiry =>
    intro s via ha
    exact ⟨_, Machine.live_next ha (fun d => d.tokenExpire via), rfl⟩

end Sys2Proof
end

section
/-! CAN: classic SDO transfers, USDO, the NMT state and the heartbeat (chapter 15, R397 to R399). From these the obligation O54. -/

namespace Sys2Proof

/-! ### Requests that are served (R395, R397) -/

section
variable {d : Dev} (hserves : d.sdoServes = true) (hheld : d.helds = false)
include hserves

theorem Dev.fwReady_of_sdoServes : d.fwReady = true := by
  unfold Dev.sdoServes Dev.canUp at hserves
  simp only [Bool.and_eq_true] at hserves
  exact hserves.1.1.1.2

include hheld

/-- While the node serves and no pause holds it, a CAN request is served at once. -/
theorem Dev.request_can {r : HeldReq} (hcan : r.isUdp = false) : d.request r = d.heldServe r := by
  unfold Dev.request
  rw [if_neg (by simp [Dev.fwReady_of_sdoServes hserves, hcan]), if_neg (by simp [hheld])]

theorem Dev.sdoDownload_served (f : SdoDn) (ok : Bool) : d.sdoDownload f ok = d.sdoDown f ok := by
  unfold Dev.sdoDownload
  rw [if_pos hserves, Dev.request_can hserves hheld rfl]
  exact if_pos hserves

theorem Dev.sdoUpload_served (f : SdoUp) : d.sdoUpload f = d.sdoUp f := by
  unfold Dev.sdoUpload
  rw [if_pos hserves, Dev.request_can hserves hheld rfl]
  exact if_pos hserves

theorem Dev.usdoTransfer_served (hfd : d.dict.canFd ≠ 0) (node : Nat) (r : UsdoReq) (ok : Bool) :
    d.usdoTransfer node r ok = d.usdoServe node r ok := by
  have hboth : (d.sdoServes && decide (d.dict.canFd ≠ 0)) = true := by simp [hserves, hfd]
  unfold Dev.usdoTransfer
  rw [if_pos hboth, Dev.request_can hserves hheld rfl]
  exact if_pos hboth

end

/-! ### Frames (R398) -/

/-- A response is a frame with the node's identifier, and leaves the dictionary and the node's number. -/
theorem Dev.sdoSay_sends (d : Dev) (bs : List Byte) :
    (d.sdoSay bs).out = .can (0x580 + d.canNode) (padTo 8 bs) :: d.out ∧ (d.sdoSay bs).canNode = d.canNode ∧ (d.sdoSay bs).dict = d.dict :=
  ⟨rfl, rfl, rfl⟩

@[simp] theorem Dev.sessAt_sdoSay (d : Dev) (bs : List Byte) (k : Nat) : (d.sdoSay bs).sessAt k = d.sessAt k := rfl

@[simp] theorem Dev.sessAt_sessSet_same (d : Dev) (k : Nat) (x : Sess) : (d.sessSet k x).sessAt k = x := Tab.get_set_same _ _ _ _

/-- A change of a session sends nothing. -/
theorem Dev.sessSet_leaves (d : Dev) (k : Nat) (x : Sess) : (d.sessSet k x).out = d.out ∧ (d.sessSet k x).canNode = d.canNode := ⟨rfl, rfl⟩

/-- The frame that ends a download: the confirmation, or the abort with the code of the commit. -/
def endFrame (index sb code : Nat) (confirm : List Byte) : List Byte :=
  if code = 0 then confirm else leBytes 1 0x80 ++ mux index sb ++ leBytes 4 code

/-- A download's last frame commits the value and says how it went. -/
theorem Dev.sdoCommit_says (d : Dev) (index sb : Nat) (data : List Byte) (ok : Bool) (confirm : List Byte) :
    d.sdoCommit index sb data ok confirm = ((d.sessEnd 40).dictWrite .sdo index sb data none ok).1.sdoSay
      (endFrame index sb ((d.sessEnd 40).dictWrite .sdo index sb data none ok).2 confirm) := by
  unfold Dev.sdoCommit endFrame
  dsimp only
  split <;> rfl

/-- An initiate opens the assembly of its value. -/
theorem Dev.sdoDown_initiate {d : Dev} {size : Nat} (hopen : d.mayOpen 40 = true) (hsize : size ≤ asmMax) (index sb : Nat) (ok : Bool) :
    d.sdoDown (.initiate index sb size) ok =
      (d.sessSet 40 { (d.sessAt 40).ended with opened := true, asm := some { index := index, sub := sb, total := size } }).sdoSay
        (leBytes 1 0x60 ++ mux index sb) := by
  unfold Dev.sdoDown
  dsimp only
  rw [if_neg (by simp [hopen]), if_neg (by omega)]

/-- A segment in order joins the assembly. -/
theorem Dev.sdoDown_segment {d : Dev} {a : Asm} {data : List Byte} (hasm : (d.sessAt 40).asm = some a) (hclassic : a.block = false)
    (hroom : a.data.length + (data.take 7).length ≤ asmMax) (htotal : a.total = 0) (ok : Bool) :
    d.sdoDown (.segment (decide (a.seg % 2 = 1)) data false) ok =
      (d.sessSet 40 { d.sessAt 40 with asm := some { a with data := a.data ++ data.take 7, seg := a.seg + 1 } }).sdoSay
        (leBytes 1 (0x20 + 16 * b2n (decide (a.seg % 2 = 1)))) := by
  have hfits : ¬(asmMax < (a.data ++ data.take 7).length ∨ (a.total ≠ 0 ∧ (a.total < (a.data ++ data.take 7).length ∨
      (false = true ∧ (a.data ++ data.take 7).length ≠ a.total)))) := by
    rw [List.length_append]
    omega
  unfold Dev.sdoDown
  dsimp only
  rw [hasm]
  dsimp only
  rw [if_neg (by simp [hclassic]), if_neg (by simp), if_neg hfits, if_neg Bool.false_ne_true]

/-- A short value is uploaded in one frame. -/
theorem Dev.sdoUp_short {d : Dev} {index sb : Nat} {v : List Byte} (hread : d.dictRead .sdo index sb = .ok v) (hlo : 1 ≤ v.length)
    (hhi : v.length ≤ 4) :
    d.sdoUp (.initiate index sb) = (d.sessEnd 40).sdoSay (leBytes 1 (0x43 + 4 * (4 - v.length)) ++ mux index sb ++ v) := by
  unfold Dev.sdoUp
  dsimp only
  rw [hread]
  exact if_pos ⟨hlo, hhi⟩

/-- A session that ends holds neither a part of a write nor a copy. -/
theorem Dev.sessEnd_same (d : Dev) (k : Nat) : ((d.sessEnd k).sessAt k).asm = none ∧ ((d.sessEnd k).sessAt k).copy = none := by
  rw [Dev.sessEnd, Dev.sessAt_sessUpd_same]
  exact ⟨rfl, rfl⟩

/-- The session of a client: the classic SDO session, or a node's USDO session. -/
def canSess (node : Option Nat) : Nat :=
  match node with
  | none => 40
  | some n => Via.sess (.usdo n)

/-- A timeout ends the transfer and leaves no other trace in the sessions. -/
theorem Dev.sdoTimeout_sess {d : Dev} {node : Option Nat} (hasm : (d.sessAt (canSess node)).asm.isSome = true) :
    (d.sdoTimeout node).dict = (d.sessEnd (canSess node)).dict := by
  cases node with
  | none =>
    have hactive : ((d.sessAt 40).asm.isSome || (d.sessAt 40).copy.isSome) = true := by
      rw [show (d.sessAt 40).asm.isSome = true from hasm, Bool.true_or]
    unfold Dev.sdoTimeout
    dsimp only
    rw [if_pos hactive]
    split <;> rfl
  | some n =>
    have hactive : ((d.sessAt (Via.sess (.usdo n))).asm.isSome || (d.sessAt (Via.sess (.usdo n))).copy.isSome) = true := by
      rw [show (d.sessAt (Via.sess (.usdo n))).asm.isSome = true from hasm, Bool.true_or]
    unfold Dev.sdoTimeout
    dsimp only
    rw [if_pos hactive]
    split <;> rfl

theorem Dev.sessAt_of_dict {d e : Dev} (h : e.dict = d.dict) (k : Nat) : e.sessAt k = d.sessAt k := by
  unfold Dev.sessAt
  rw [h]

/-- A USDO read with room for a session answers with the value. -/
theorem Dev.usdoServe_read {d : Dev} {node index sb : Nat} {v : List Byte} (hroom : d.usdoOpen < 8)
    (hread : d.dictRead (.usdo node) index sb = .ok v) (ok : Bool) : d.usdoServe node (.read index sb) ok = d.emit (.usdo node 0 v) := by
  unfold Dev.usdoServe
  dsimp only
  rw [if_neg (by simp [hroom]), hread]

/-! ### The node's state (R397, R482) -/

/-- CAN has no summary record. -/
theorem Dev.summary_can (d : Dev) : d.summary 2 = d := by
  unfold Dev.summary
  exact if_pos rfl

/-- The CAN path comes up and goes down without a frame, a register or a change of the dictionary. -/
theorem Dev.canPath_leaves (d : Dev) : d.canPath.dict = d.dict ∧ d.canPath.regs = d.regs ∧ d.canPath.out = d.out := by
  refine ⟨Dev.dict_of_control (Dev.canPath_control d), ?_⟩
  unfold Dev.canPath Dev.pathUp
  rw [Dev.summary_can]
  split
  · split <;> exact ⟨rfl, rfl⟩
  · split <;> exact ⟨rfl, rfl⟩

theorem Dev.sdoServes_of {d e : Dev} (hdict : e.dict = d.dict) (hregs : e.regs = d.regs) : e.sdoServes = d.sdoServes := by
  unfold Dev.sdoServes Dev.canUp Dev.canNode Dev.strap Dev.fwReady Dev.rdN Dev.rd
  rw [hdict, hregs]

theorem Dev.path_pathSet_same (d : Dev) (p : Nat) (x : TelPath) : (d.pathSet p x).path p = x := Tab.get_set_same _ _ _ _

theorem Dev.path_alarmsAgain (d : Dev) (p q : Nat) : (d.alarmsAgain p).path q = d.path q := rfl

theorem Dev.pathDown_same (d : Dev) (p : Nat) : ((d.pathDown p).path p).up = false ∧ ((d.pathDown p).path p).queue = [] := by
  have hpath : (d.pathDown p).path p = { d.path p with up := false, queue := [] } := Tab.get_set_same _ _ _ _
  rw [hpath]
  exact ⟨rfl, rfl⟩

/-- The CAN path is up exactly when the node serves. -/
theorem Dev.canPath_up (d : Dev) : (d.canPath.path 2).up = d.canPath.sdoServes := by
  obtain ⟨hdict, hregs, _⟩ := d.canPath_leaves
  rw [Dev.sdoServes_of hdict hregs]
  unfold Dev.canPath
  cases hserves : d.sdoServes with
  | true =>
    rw [if_pos rfl]
    unfold Dev.pathUp
    split
    next h => exact h
    next => rw [Dev.summary_can, Dev.path_alarmsAgain, Dev.path_pathSet_same]
  | false =>
    rw [if_neg Bool.false_ne_true]
    split
    next => exact (d.pathDown_same 2).1
    next h => exact Bool.eq_false_iff.mpr h

/-- An NMT command of a node on the bus sets its state, and the CAN path follows. -/
theorem Dev.nmtSet_sets {d : Dev} (hup : d.canUp = true) (st : Nmt) :
    (d.nmtSet st).dict = { d.dict with nmt := st } ∧ (((d.nmtSet st).path 2).up = true ↔ (d.nmtSet st).sdoServes = true) := by
  unfold Dev.nmtSet
  rw [if_pos hup, Dev.canPath_up]
  exact ⟨(Dev.canPath_leaves _).1, Iff.rfl⟩

/-- The sessions of CAN. -/
def canSession (k : Nat) : Bool := decide (40 ≤ k) && decide (k < 169)

/-- The device at the moment a node starts: no CAN session, no CAN request held, pre-operational. -/
def Dev.canFresh (d : Dev) : Dev :=
  { d with dict := { d.dict with canRate := d.dvalN 0x2032 1 0, canFd := d.dvalN 0x2032 2 0, nmt := .preOp, canPassive := false, canBusOff := false,
                                 sess := Tab.keep d.dict.sess (fun k _ => !canSession k), held := d.dict.held.filter HeldReq.isUdp } }

theorem Dev.canStart_eq {d : Dev} (hnode : d.canNode ≠ 0) : d.canStart = (d.canFresh.emit (.can (0x700 + d.canNode) [0])).canPath := by
  unfold Dev.canStart
  exact (if_neg hnode).trans rfl

/-- A reset of a node on the bus ends every CAN session, with the boot-up message. -/
theorem Dev.nmtReset_starts {d : Dev} (hup : d.canUp = true) :
    d.nmtReset.dict.nmt = .preOp ∧ (∀ k, 40 ≤ k → k < 169 → d.nmtReset.sessAt k = {}) ∧
    d.nmtReset.out.head? = some (.can (0x700 + d.canNode) [0]) := by
  have hnode : d.canNode ≠ 0 := by
    unfold Dev.canUp at hup
    simp only [Bool.and_eq_true, decide_eq_true_eq] at hup
    exact hup.1.1.1
  have hreset : d.nmtReset = (d.canFresh.emit (.can (0x700 + d.canNode) [0])).canPath := (if_pos hup).trans (Dev.canStart_eq hnode)
  obtain ⟨hdict, _, hout⟩ := (d.canFresh.emit (.can (0x700 + d.canNode) [0])).canPath_leaves
  rw [hreset, hdict, hout]
  refine ⟨rfl, fun k hlo hhi => ?_, rfl⟩
  rw [Dev.sessAt_of_dict hdict]
  refine (Tab.get_keep ({} : Sess) d.dict.sess (fun k => !canSession k) k).trans (if_neg ?_)
  simp [canSession, hlo, hhi]

/-- The byte of a heartbeat (log 58). -/
def nmtByte : Nmt → Nat
  | .stopped => 4
  | .operational => 5
  | _ => 0x7F

/-- A node with a heartbeat period sends its state. -/
theorem Dev.heartbeat_sends {d : Dev} (hup : d.canUp = true) (hperiod : d.dvalN 0x1017 0 0 ≠ 0) :
    d.heartbeat = d.emit (.can (0x700 + d.canNode) (leBytes 1 (nmtByte d.dict.nmt))) :=
  if_pos (by rw [hup, Bool.true_and, decide_eq_true hperiod])

/-! ### The obligation -/

/-- Settles O54. The identifiers, frame bytes and the heartbeat byte are those the model takes from outside the spec (log 58). -/
theorem canTransfersCommitAndAnswer : Obligations.CanTransfersCommitAndAnswer := by
  refine ⟨?expedited, ?initiate, ?segment, ?unknown, ?upload, ?timeout, ?usdo, ?start, ?stop, ?preOp, ?resetCommunication, ?resetNode, ?heartbeat⟩
  case expedited =>
    intro s index sb data ok ha hserves hheld
    refine ⟨_, Machine.live_next ha (fun d => d.sdoDownload (.expedited index sb data) ok), ?_⟩
    dsimp only
    rw [Dev.sdoDownload_served hserves hheld]
    have hcommit : s.dev.sdoDown (.expedited index sb data) ok = s.dev.sdoCommit index sb (data.take 4) ok (leBytes 1 0x60 ++ mux index sb) := rfl
    rw [hcommit, Dev.sdoCommit_says]
    exact ⟨rfl, rfl⟩
  case initiate =>
    intro s index sb size ok ha hserves hheld hopen hsize
    refine ⟨_, Machine.live_next ha (fun d => d.sdoDownload (.initiate index sb size) ok), ?_⟩
    dsimp only
    rw [Dev.sdoDownload_served hserves hheld, Dev.sdoDown_initiate hopen hsize, Dev.sessAt_sdoSay, Dev.sessAt_sessSet_same]
    exact ⟨rfl, rfl⟩
  case segment =>
    intro s a data ok ha hserves hheld hasm hclassic hroom htotal
    refine ⟨_, Machine.live_next ha (fun d => d.sdoDownload (.segment (decide (a.seg % 2 = 1)) data false) ok), ?_⟩
    dsimp only
    rw [Dev.sdoDownload_served hserves hheld, Dev.sdoDown_segment hasm hclassic hroom htotal, Dev.sessAt_sdoSay, Dev.sessAt_sessSet_same]
    exact ⟨rfl, rfl⟩
  case unknown =>
    intro s index sb ok ha hserves hheld
    refine ⟨_, Machine.live_next ha (fun d => d.sdoDownload (.unknown index sb) ok), ?_⟩
    rw [Dev.sdoDownload_served hserves hheld]
    rfl
  case upload =>
    intro s index sb v ha hserves hheld hread hlo hhi
    refine ⟨_, Machine.live_next ha (fun d => d.sdoUpload (.initiate index sb)), ?_⟩
    dsimp only
    rw [Dev.sdoUpload_served hserves hheld, Dev.sdoUp_short hread hlo hhi, Dev.sessAt_sdoSay]
    exact ⟨rfl, (s.dev.sessEnd_same 40).2⟩
  case timeout =>
    intro s node ha hasm
    refine ⟨_, Machine.live_next ha (fun d => d.sdoTimeout node), ?_⟩
    dsimp only
    rw [Dev.sessAt_of_dict (Dev.sdoTimeout_sess hasm)]
    exact s.dev.sessEnd_same (canSess node)
  case usdo =>
    intro s node index sb ok v ha hserves hheld hfd hroom hread
    refine ⟨_, Machine.live_next ha (fun d => d.usdoTransfer node (.read index sb) ok), ?_⟩
    rw [Dev.usdoTransfer_served hserves hheld hfd, Dev.usdoServe_read hroom hread]
  case start => exact fun s ha hup => ⟨_, Machine.live_next ha (fun d => d.nmtSet .operational), Dev.nmtSet_sets hup .operational⟩
  case stop => exact fun s ha hup => ⟨_, Machine.live_next ha (fun d => d.nmtSet .stopped), Dev.nmtSet_sets hup .stopped⟩
  case preOp => exact fun s ha hup => ⟨_, Machine.live_next ha (fun d => d.nmtSet .preOp), Dev.nmtSet_sets hup .preOp⟩
  case resetCommunication => exact fun s ha hup => ⟨_, Machine.live_next ha (fun d => d.nmtReset), Dev.nmtReset_starts hup⟩
  case resetNode => exact fun s ha hup => ⟨_, Machine.live_next ha (fun d => d.nmtReset), Dev.nmtReset_starts hup⟩
  case heartbeat =>
    intro s ha hup hperiod
    exact ⟨_, Machine.live_next ha (fun d => d.heartbeat), congrArg (fun e => { s with dev := e }) (Dev.heartbeat_sends hup hperiod)⟩

end Sys2Proof
end

section
/-! Dictionary transfers over UDP and USB (chapter 15, R400 to R404), and what a write leaves of the management port's pause (R196). From
these the obligation O55. -/

namespace Sys2Proof

/-! ### What a lifecycle operation leaves of the dictionary and the clock -/

/-- The dictionary and the clock. -/
def Dev.records (d : Dev) : Dict × Nat := (d.dict, d.now)

theorem Dev.records_of_control {d e : Dev} (h : e.control = d.control) : e.records = d.records :=
  Prod.ext (Dev.dict_of_control h) (Dev.now_of_control h)

theorem Dev.records_of_sealed {d e : Dev} (h : e.sealed = d.sealed) : e.records = d.records :=
  Prod.ext (Dev.dict_of_sealed h) (Dev.now_of_sealed h)

theorem Dev.burn_records (d : Dev) (b : Nat) : (d.burn b).records = d.records := rfl

theorem Dev.secretless_records (d : Dev) : d.secretless.records = d.records := rfl

theorem Dev.rekeyGang_records (d : Dev) (g : Nat) : (d.rekeyGang g).records = d.records := by
  have hkgen : ∀ (e : Dev) (t : Tab Nat), ({ e with sec := { e.sec with kgen := t } } : Dev).records = e.records := fun _ _ => rfl
  unfold Dev.rekeyGang
  dsimp only
  rw [Dev.records_of_control (Dev.report_control _ _ _ _ _ _), Dev.records_of_control (Dev.event_control _ _ _),
    Dev.records_of_control (Dev.joinShares_control _ _), Dev.records_of_control (Dev.loadKeys_control _ _),
    Dev.records_of_control (Dev.shareScrubs_control _ _), Dev.records_of_sealed (Dev.bundlesGone_sealed _ _), hkgen,
    Dev.records_of_control (Dev.ptnResets_control _ _)]

theorem Dev.rekeyAll_records (gs : List Nat) (d : Dev) : (d.rekeyAll gs).records = d.records := by
  induction gs generalizing d with
  | nil => rfl
  | cons g gs ih => rw [Dev.rekeyAll, ih, Dev.rekeyGang_records]

theorem Dev.rekeyedBurn_records (d : Dev) (gs : List Nat) (b op : Nat) :
    ((((d.bundleCommit.rekeyAll gs).burn b).keysIn.measChange 5).lifeDone op true).records = d.records := by
  rw [Dev.records_of_sealed (Dev.lifeDone_sealed _ _ _), Dev.records_of_sealed (Dev.measChange_sealed _ _),
    Dev.records_of_control (Dev.keysIn_control _), Dev.burn_records, Dev.rekeyAll_records, Dev.records_of_sealed (Dev.bundleCommit_sealed _)]

theorem Dev.provision_records (d : Dev) : d.provision.records = d.records := by
  rw [Dev.provision, Dev.records_of_sealed (Dev.lifeDone_sealed _ _ _), Dev.burn_records]

theorem Dev.rekey_records (d : Dev) (g : Nat) : (d.rekey g).records = d.records := by
  rw [Dev.rekey, Dev.records_of_sealed (Dev.lifeDone_sealed _ _ _), Dev.records_of_sealed (Dev.measChange_sealed _ _), Dev.rekeyGang_records,
    Dev.records_of_sealed (Dev.bundleCommit_sealed _)]

theorem Dev.commitSvn_records (d : Dev) : d.commitSvn.records = d.records := by
  unfold Dev.commitSvn
  dsimp only
  split
  · exact (Dev.records_of_sealed (Dev.lifeDone_sealed _ _ _)).trans rfl
  · exact Dev.records_of_sealed (Dev.lifeDone_sealed _ _ _)

theorem Dev.revokeSlot_records (d : Dev) (k : Nat) : (d.revokeSlot k).records = d.records :=
  (Dev.records_of_sealed (Dev.lifeDone_sealed _ _ _)).trans rfl

theorem Dev.decommission_records (d : Dev) : d.decommission.records = d.records := by
  rw [Dev.records_of_control d.decommission_control, Dev.decommissioned, Dev.secretless_records,
    Dev.records_of_sealed (Dev.lifeDone_sealed _ _ _), Dev.burn_records, Dev.records_of_control (Dev.shareScrubs_control _ _),
    Dev.records_of_control (Dev.ptnResets_control _ _)]

theorem Dev.lifeOp_records (d : Dev) (v : Nat) : (d.lifeOp v).records = d.records := by
  unfold Dev.lifeOp
  split
  · exact d.provision_records
  split
  · exact d.rekeyedBurn_records _ _ _
  split
  · exact d.rekeyedBurn_records _ _ _
  split
  · exact d.decommission_records
  split
  · exact d.commitSvn_records
  split
  · exact d.rekey_records _
  · exact d.revokeSlot_records _

/-! ### What a write leaves of the management port (R196) -/

/-- The clock, the end of a received PAUSE, and what waits for it. -/
def Dev.mgmtSide (d : Dev) : Nat × Nat × List Out := (d.now, d.dict.mgmtPause, d.dict.mgmtQ)

theorem Dev.mgmtSide_of_records {d e : Dev} (h : e.records = d.records) : e.mgmtSide = d.mgmtSide :=
  congrArg (fun r => (r.2, r.1.mgmtPause, r.1.mgmtQ)) h

theorem Dev.mgmtSide_of_control {d e : Dev} (h : e.control = d.control) : e.mgmtSide = d.mgmtSide :=
  Dev.mgmtSide_of_records (Dev.records_of_control h)

theorem Dev.storeImage_mgmtSide (d : Dev) (sb : Nat) (ok : Bool) : (d.storeImage sb ok).1.mgmtSide = d.mgmtSide := by
  unfold Dev.storeImage
  dsimp only
  (repeat' split) <;> rfl

theorem Dev.railFail_mgmtSide (d : Dev) (r : Nat) : (d.railFail r).mgmtSide = d.mgmtSide := by
  have hheld : ∀ rs : List Nat, ({ d with pwr := { d.pwr with railHeld := rs } } : Dev).mgmtSide = d.mgmtSide := fun _ => rfl
  unfold Dev.railFail
  dsimp only
  split
  · rw [Dev.mgmtSide_of_control (Dev.count64_control _ _ _), Dev.mgmtSide_of_control (Dev.report_control _ _ _ _ _ _), hheld]
  · rw [Dev.mgmtSide_of_control (Dev.alarmSet_control _ _ _ _ _ _), Dev.mgmtSide_of_control (Dev.count64_control _ _ _),
      Dev.mgmtSide_of_control (Dev.report_control _ _ _ _ _ _), hheld]

theorem Dev.macsecRow_mgmtSide (d : Dev) (row : Nat) (raw : List Byte) : (d.macsecRow row raw).mgmtSide = d.mgmtSide := by
  unfold Dev.macsecRow
  dsimp only
  split <;> rfl

theorem Dev.sessUpd_mgmtSide (d : Dev) (k : Nat) (f : Sess → Sess) : (d.sessUpd k f).mgmtSide = d.mgmtSide := rfl

theorem Dev.keepValue_mgmtSide (d : Dev) (index sb row : Nat) (raw : List Byte) (e : DEnt) :
    (d.keepValue index sb row raw e).mgmtSide = d.mgmtSide := rfl

/-- Both branches of a commit leave it. -/
theorem Dev.mgmtSide_ite {c : Prop} [Decidable c] {a b : Dev × Nat} {m : Nat × Nat × List Out} (ha : a.1.mgmtSide = m) (hb : b.1.mgmtSide = m) :
    (if c then a else b).1.mgmtSide = m := by
  split
  · exact ha
  · exact hb

theorem Dev.ptnResetIf_mgmtSide (d : Dev) (v p : Nat) : (if v = 1 then d.ptnReset p else d).mgmtSide = d.mgmtSide := by
  split
  · exact Dev.mgmtSide_of_control (Dev.ptnReset_control _ _)
  · rfl

/-- No commit of a value moves the clock or touches the management port's pause: a row or history, a store, a load, the time, a partition's
reset, a lifecycle operation, a signer, a token, a rail, an association, and any other value. -/
theorem Dev.dictCommit_mgmtSide (d : Dev) (via : Via) (index sb row : Nat) (raw : List Byte) (e : DEnt) (ok : Bool) :
    (d.dictCommit via index sb row raw e ok).1.mgmtSide = d.mgmtSide := by
  have hsigner : ((d.keepValue index sb 0 raw e).measChange 4).mgmtSide = d.mgmtSide :=
    (Dev.mgmtSide_of_records (Dev.records_of_sealed (Dev.measChange_sealed (d.keepValue index sb 0 raw e) 4))).trans rfl
  unfold Dev.dictCommit
  refine Dev.mgmtSide_ite rfl (Dev.mgmtSide_ite rfl (Dev.mgmtSide_ite (d.storeImage_mgmtSide sb ok) (Dev.mgmtSide_ite rfl ?_)))
  refine Dev.mgmtSide_ite (Dev.mgmtSide_of_control (Dev.timeSet_control _ _ _)) (Dev.mgmtSide_ite (d.ptnResetIf_mgmtSide _ _) ?_)
  refine Dev.mgmtSide_ite (Dev.mgmtSide_of_records (d.lifeOp_records _)) (Dev.mgmtSide_ite hsigner (Dev.mgmtSide_ite rfl ?_))
  exact Dev.mgmtSide_ite (d.railFail_mgmtSide _) (Dev.mgmtSide_ite (d.macsecRow_mgmtSide _ _) rfl)

/-- Nor does a write, checked or refused. -/
theorem Dev.dictWrite_mgmtSide (d : Dev) (via : Via) (index sb : Nat) (raw : List Byte) (tok : Option (List Byte)) (ok : Bool) :
    (d.dictWrite via index sb raw tok ok).1.mgmtSide = d.mgmtSide := by
  unfold Dev.dictWrite
  dsimp only
  split
  next =>
    rw [Dev.mgmtSide_of_control (Dev.tokenFail_control _ _ _ _)]
    split <;> rfl
  next e ctr _ =>
    rw [Dev.dictCommit_mgmtSide]
    by_cases hstage : index = 0x5020
    · rw [if_pos hstage]
      cases ctr <;> rfl
    · rw [if_neg hstage]
      cases ctr <;> rfl

/-- Outside a pause, with nothing waiting, the management port sends at once. -/
theorem Dev.mgmtOut_sent {d : Dev} (hheld : d.mgmtHeld = false) (hempty : d.dict.mgmtQ = []) (o : Out) : d.mgmtOut o = d.emit o := by
  unfold Dev.mgmtOut
  exact if_neg (by simp [hheld, hempty])

theorem Dev.mgmtFree_of {d e : Dev} (h : e.mgmtSide = d.mgmtSide) (hheld : d.mgmtHeld = false) (hempty : d.dict.mgmtQ = []) :
    e.mgmtHeld = false ∧ e.dict.mgmtQ = [] := by
  unfold Dev.mgmtSide at h
  obtain ⟨hnow, hpause, hq⟩ := Prod.mk.inj h |>.imp id Prod.mk.inj
  unfold Dev.mgmtHeld at hheld ⊢
  rw [hnow, hpause, hq]
  exact ⟨hheld, hempty⟩

/-! ### UDP (R400 to R402) -/

/-- An answer that nothing holds goes out, and the values stay. -/
theorem Dev.udpSay_sends {d : Dev} (hheld : d.mgmtHeld = false) (hempty : d.dict.mgmtQ = []) (k sq : Nat) (resp : List Byte) :
    (d.udpSay k sq resp).out = .udp resp :: d.out ∧ (d.udpSay k sq resp).dict.vals = d.dict.vals := by
  have hfree := Dev.mgmtFree_of (d.sessUpd_mgmtSide k (fun s => { s with opened := true, seen := d.now, resp := ((sq, resp) :: s.resp).take 16 }))
    hheld hempty
  unfold Dev.udpSay
  rw [Dev.mgmtOut_sent hfree.1 hfree.2]
  exact ⟨rfl, rfl⟩

/-- A datagram of the service is not discarded for its header. -/
theorem udpHeader_ok {raw : List Byte} (hlen : 24 ≤ raw.length) (hmagic : sub raw 0 2 = [0x45, 0x44]) (hversion : subN raw 2 1 = 1) :
    ¬(raw.length < 24 ∨ sub raw 0 2 ≠ [0x45, 0x44] ∨ subN raw 2 1 ≠ 1) := by
  rintro (hshort | hother | hother)
  · omega
  · exact hother hmagic
  · exact hother hversion

section
variable {d : Dev} (hready : d.fwReady = true) (hboard : d.pwr.boardErr = 0) (hpause : d.helds = false) {src : Nat} {raw : List Byte}
  (hlen : 24 ≤ raw.length) (hmagic : sub raw 0 2 = [0x45, 0x44]) (hversion : subN raw 2 1 = 1)
include hready hboard hpause

/-- A datagram of the service is served at once while no pause of a live update holds it. -/
theorem Dev.request_udp (ok : Bool) : d.request (.udp src raw ok) = d.udpServe src raw ok := by
  unfold Dev.request
  rw [if_neg (by simp [hready, hboard]), if_neg (by simp [hpause])]
  rfl

include hlen hmagic hversion

/-- A repeated SEQ is answered with the response kept. -/
theorem Dev.udp_repeated {r : Nat × List Byte} (hkept : (d.sessAt (200 + src)).resp.find? (fun r => decide (r.1 = subN raw 4 4)) = some r)
    (ok : Bool) : d.request (.udp src raw ok) = (d.sessUpd (200 + src) (fun s => { s with seen := d.now })).mgmtOut (.udp r.2) := by
  have hsess : Via.sess (.udp src) = 200 + src := rfl
  rw [Dev.request_udp hready hboard hpause, Dev.udpServe]
  rw [if_neg (udpHeader_ok hlen hmagic hversion), hsess, hkept]

variable (hnew : (d.sessAt (200 + src)).resp.find? (fun r => decide (r.1 = subN raw 4 4)) = none)
include hnew

/-- A READ of a new SEQ. -/
theorem Dev.udp_get (hop : subN raw 3 1 = 1) (ok : Bool) : d.request (.udp src raw ok) = d.udpGet src raw := by
  have hsess : Via.sess (.udp src) = 200 + src := rfl
  rw [Dev.request_udp hready hboard hpause, Dev.udpServe]
  rw [if_neg (udpHeader_ok hlen hmagic hversion), hsess, hnew]
  exact if_pos hop

/-- A WRITE of a new SEQ. -/
theorem Dev.udp_put (hop : subN raw 3 1 = 2) (ok : Bool) : d.request (.udp src raw ok) = d.udpPut src raw ok := by
  have hsess : Via.sess (.udp src) = 200 + src := rfl
  rw [Dev.request_udp hready hboard hpause, Dev.udpServe]
  rw [if_neg (udpHeader_ok hlen hmagic hversion), hsess, hnew]
  dsimp only
  rw [if_neg (by omega), if_pos hop]

end

/-- A read at offset 0 takes a copy of the value and answers with its first bytes. -/
theorem Dev.udpGet_first {d : Dev} {src : Nat} {raw v : List Byte} (hfirst : subN raw 12 4 = 0)
    (hread : d.dictRead (.udp src) (subN raw 8 2) (subN raw 10 1) = .ok v) :
    d.udpGet src raw = (d.sessUpd (200 + src) (fun s => { s with copy := some (256 * subN raw 8 2 + subN raw 10 1, v, d.now) })).udpSay (200 + src)
      (subN raw 4 4) (udpAnswer raw v.length (v.take (min 1400 (subN raw 16 2)))) := by
  unfold Dev.udpGet
  cases hcopy : (d.sessAt (Via.sess (.udp src))).copy with
  | none =>
    simp only [hfirst, hcopy, hread, List.drop_zero]
    rfl
  | some c =>
    simp only [hfirst, hcopy, hread, List.drop_zero, ne_eq, not_true_eq_false, false_and, if_false]
    rfl

/-- Writes are off. -/
theorem Dev.udpPut_off {d : Dev} (hoff : d.dvalN 0x2031 2 0 = 0) (src : Nat) (raw : List Byte) (ok : Bool) :
    d.udpPut src raw ok = d.udpSay (200 + src) (subN raw 4 4) (udpAnswer raw abTransport []) :=
  if_pos hoff

/-- The assembly that a write's first datagram begins. -/
def firstPart (raw : List Byte) : Asm :=
  { index := subN raw 8 2, sub := subN raw 10 1, total := subN raw 20 4,
    parts := [(subN raw 12 4, (raw.drop 24).take (min 1400 (subN raw 16 2)))], last := bit (subN raw 11 1) 0 }

/-- A source's session without its assembly. -/
def Dev.asmDropped (d : Dev) (k : Nat) : Dev := d.sessUpd k (fun s => { s with asm := none })

/-- A write that its first datagram completes is answered with the code of its commit. -/
theorem Dev.udpPut_whole {d : Dev} {src : Nat} {raw v : List Byte} (hon : d.dvalN 0x2031 2 0 ≠ 0) (hsize : subN raw 20 4 ≤ asmMax)
    (hopen : d.mayOpen (200 + src) = true) (hasm : (d.sessAt (200 + src)).asm = none) (hwhole : (firstPart raw).whole = some v) (ok : Bool) :
    d.udpPut src raw ok = ((d.asmDropped (200 + src)).dictWrite (.udp src) (subN raw 8 2) (subN raw 10 1) v none ok).1.udpSay (200 + src)
      (subN raw 4 4) (udpAnswer raw ((d.asmDropped (200 + src)).dictWrite (.udp src) (subN raw 8 2) (subN raw 10 1) v none ok).2 []) := by
  have hsess : Via.sess (.udp src) = 200 + src := rfl
  unfold firstPart at hwhole
  unfold Dev.udpPut
  dsimp only
  rw [if_neg hon, if_neg (by omega), if_neg (by simp [hopen, hsess])]
  simp only [hsess, hasm, List.nil_append, Bool.false_or, hwhole]
  rfl

/-! ### USB (R403, R404) -/

section
variable {d : Dev} (hready : d.fwReady = true) (hheld : d.helds = false) {index sb seg : Nat}
include hready hheld

theorem Dev.usbGate_open (go : Dev) : d.usbGate index sb go = go := by
  unfold Dev.usbGate
  rw [if_neg (by simp [hready]), if_neg (by simp [hheld])]

/-- The first segment of a read takes the session's copy. -/
theorem Dev.usbRead_first {v : List Byte} (hread : d.dictRead .usb index sb = .ok v) (len : Nat) :
    d.usbRead index sb 0 len =
      ((d.sessUpd 190 (fun s => { s with copy := some (256 * index + sb, v, d.now) })).sessUpd 190
        (fun s => { s with opened := true, result := (0, index, sb, false) })).emit (.usb (v.take (min 4096 len))) := by
  unfold Dev.usbRead
  dsimp only
  rw [Dev.usbGate_open hready hheld, if_pos rfl, hread]
  rfl

/-- A segment that fits joins the assembly. -/
theorem Dev.usbWrite_joins {data : List Byte} {a : Asm} (hlen : data.length = 4096) (hseg : seg ≤ 255) (hopen : d.mayOpen 190 = true)
    (hasm : d.usbAsm index sb seg data = some a) :
    d.usbWrite index sb seg data = (d.sessUpd 190 (fun s => { s with copy := none })).sessUpd 190
      (fun s => { s with opened := true, asm := some a, result := (0, index, sb, false) }) := by
  unfold Dev.usbWrite
  dsimp only
  rw [Dev.usbGate_open hready hheld, if_neg (by omega), if_neg (by simp [hopen]), hasm]

/-- The last segment of a write whose commit succeeds is acknowledged. -/
theorem Dev.usbWriteLast_done {data : List Byte} {a : Asm} {ok : Bool} (hlen : data.length ≤ 4096) (hseg : seg ≤ 255)
    (hasm : d.usbAsm index sb seg data = some a)
    (hdone : ((d.sessUpd 190 (fun x => { x with asm := none, copy := none })).dictWrite .usb index sb a.data none ok).2 = 0) :
    d.usbWriteLast index sb seg data true ok =
      ((((d.sessUpd 190 (fun x => { x with asm := none, copy := none })).dictWrite .usb index sb a.data none ok).1).sessUpd 190
        (fun s => { s with opened := true, result := (0, index, sb, true) })).emit (.usb []) := by
  unfold Dev.usbWriteLast
  dsimp only
  rw [Dev.usbGate_open hready hheld, if_neg (by omega), hasm]
  dsimp only
  rw [if_neg (not_not_intro hdone), if_pos rfl]

end

@[simp] theorem Dev.sessAt_emit (d : Dev) (o : Out) (k : Nat) : (d.emit o).sessAt k = d.sessAt k := rfl

theorem Dev.sessAt_sessSet_other (d : Dev) {k j : Nat} (x : Sess) (h : j ≠ k) : (d.sessSet k x).sessAt j = d.sessAt j :=
  Tab.get_set_other _ _ _ h

theorem Dev.usbReset_sess (d : Dev) : d.usbReset.sessAt 190 = { d.sessAt 190 with asm := none, token := none, copy := none } := by
  have hdict : d.usbReset.dict = (d.sessUpd 190 (fun s => { s with asm := none, token := none, copy := none })).dict :=
    Dev.dict_of_control (Dev.pathDown_control _ _)
  rw [Dev.sessAt_of_dict hdict, Dev.sessAt_sessUpd_same]

/-! ### The obligation -/

/-- Settles O55. A repeated answer waits for a received PAUSE as R196 says, and the header's places are R400's and those of log 59. -/
theorem udpAndUsbTransfersAct : Obligations.UdpAndUsbTransfersAct := by
  refine ⟨?read, ?repeated, ?off, ?write, ?idle, ?usbRead, ?usbWrite, ?usbLast, ?result, ?busReset⟩
  case read =>
    intro s src raw v ha hready hboard hpause hheld hempty hlen hmagic hversion hnew hop hfirst hread
    refine ⟨_, Machine.live_next ha (fun d => d.request (.udp src raw true)), ?_⟩
    dsimp only
    rw [Dev.udp_get hready hboard hpause hlen hmagic hversion hnew hop, Dev.udpGet_first hfirst hread]
    obtain ⟨hfree, hnone⟩ := Dev.mgmtFree_of (s.dev.sessUpd_mgmtSide (200 + src)
      (fun x => { x with copy := some (256 * subN raw 8 2 + subN raw 10 1, v, s.dev.now) })) hheld hempty
    exact Dev.udpSay_sends hfree hnone _ _ _
  case repeated =>
    intro s src raw resp ha hready hboard hpause hheld hlen hmagic hversion hkept
    refine ⟨_, Machine.live_next ha (fun d => d.request (.udp src raw true)), ?_⟩
    dsimp only
    have hwaits : (s.dev.sessUpd (200 + src) (fun x => { x with seen := s.dev.now })).mgmtHeld = true := hheld
    rw [Dev.udp_repeated hready hboard hpause hlen hmagic hversion hkept, Dev.mgmtOut, if_pos (by rw [hwaits, Bool.true_or])]
    exact ⟨rfl, rfl, rfl⟩
  case off =>
    intro s src raw ok ha hready hboard hpause hheld hempty hlen hmagic hversion hnew hop hoff
    refine ⟨_, Machine.live_next ha (fun d => d.request (.udp src raw ok)), ?_⟩
    dsimp only
    rw [Dev.udp_put hready hboard hpause hlen hmagic hversion hnew hop, Dev.udpPut_off hoff]
    exact Dev.udpSay_sends hheld hempty _ _ _
  case write =>
    intro s src raw v ok ha hready hboard hpause hheld hempty hlen hmagic hversion hnew hop hon hsize hopen hasm hwhole
    refine ⟨_, Machine.live_next ha (fun d => d.request (.udp src raw ok)), ?_⟩
    dsimp only
    rw [Dev.udp_put hready hboard hpause hlen hmagic hversion hnew hop, Dev.udpPut_whole hon hsize hopen hasm hwhole]
    have hside := (Dev.dictWrite_mgmtSide (s.dev.asmDropped (200 + src)) (.udp src) (subN raw 8 2) (subN raw 10 1) v none ok).trans
      (s.dev.sessUpd_mgmtSide (200 + src) (fun x => { x with asm := none }))
    obtain ⟨hfree, hnone⟩ := Dev.mgmtFree_of hside hheld hempty
    obtain ⟨hout, hvals⟩ := Dev.udpSay_sends hfree hnone (200 + src) (subN raw 4 4)
      (udpAnswer raw ((s.dev.asmDropped (200 + src)).dictWrite (.udp src) (subN raw 8 2) (subN raw 10 1) v none ok).2 [])
    exact ⟨congrArg List.head? hout, hvals⟩
  case idle =>
    intro s src ha
    exact ⟨_, Machine.live_next ha (fun d => d.udpTimeout src), s.dev.sessAt_sessSet_same (200 + src) {}, fun k hk => s.dev.sessAt_sessSet_other {} hk⟩
  case usbRead =>
    intro s index sb len v ha hready hheld hread
    refine ⟨_, Machine.live_next ha (fun d => d.usbRead index sb 0 len), ?_⟩
    dsimp only
    rw [Dev.usbRead_first hready hheld hread, Dev.sessAt_emit, Dev.sessAt_sessUpd_same, Dev.sessAt_sessUpd_same]
    exact ⟨rfl, rfl, rfl⟩
  case usbWrite =>
    intro s index sb seg data a ha hready hheld hlen hseg hopen hasm
    refine ⟨_, Machine.live_next ha (fun d => d.usbWrite index sb seg data), ?_⟩
    dsimp only
    rw [Dev.usbWrite_joins hready hheld hlen hseg hopen hasm, Dev.sessAt_sessUpd_same, Dev.sessAt_sessUpd_same]
    exact ⟨rfl, rfl, rfl, rfl⟩
  case usbLast =>
    intro s index sb seg data ok a ha hready hheld hlen hseg hasm hdone
    refine ⟨_, Machine.live_next ha (fun d => d.usbWriteLast index sb seg data true ok), ?_⟩
    dsimp only
    rw [Dev.usbWriteLast_done hready hheld hlen hseg hasm hdone, Dev.sessAt_emit, Dev.sessAt_sessUpd_same]
    exact ⟨rfl, rfl, rfl⟩
  case result =>
    intro s ha hheld
    refine ⟨_, Machine.live_next ha (fun d => d.usbResult), ?_⟩
    rw [Dev.usbResult]
    dsimp only
    rw [if_neg (by simp [hheld])]
  case busReset =>
    intro s ha
    refine ⟨_, Machine.live_next ha (fun d => d.usbReset), ?_⟩
    dsimp only
    rw [Dev.usbReset_sess]
    exact ⟨rfl, rfl, rfl, Dev.pathDown_same _ 3⟩

end Sys2Proof
end

section
/-! Failed units of the tensor side (chapter 13, R330, R331, R336, R337): what each failure leaves of the partitions' state and of the queue
of failed units, and the defects of die B (R19). -/

namespace Sys2Proof

/-! ### A failed unit is queued (R331, R338) -/

theorem Dev.holdLost_ptn (d : Dev) (c : Nat) : (d.holdLost c).ptn = d.ptn := rfl

theorem Dev.coreStop_ptn (d : Dev) (c : Nat) : (d.coreStop c).ptn = d.ptn := by
  rw [Dev.coreStop, Dev.coreUpd_ptn, Dev.ptn_of_tensor (Dev.unwait_tensor _ _)]

theorem Dev.coresGone_ptn (cs : List Nat) (d : Dev) : (d.coresGone cs).ptn = d.ptn := by
  induction cs generalizing d with
  | nil => rfl
  | cons c cs ih => rw [Dev.coresGone, ih, Dev.holdLost_ptn, Dev.coreStop_ptn]

/-- A unit as it stands in the queue of failed units. -/
def PtnAll.queued (x : PtnAll) (u : FUnit) (code det now : Nat) : PtnAll := { x with todo := x.todo ++ [(u, code, det, now)] }

theorem Dev.unitLost_ptn (d : Dev) (u : FUnit) (code cls detail det : Nat) :
    (d.unitLost u code cls detail det).ptn = d.ptn.queued u code det d.now := by
  have hptn : ∀ p, ((d.report 0x0F code cls p detail).event (ptnReg 0x10) 3).ptn = d.ptn := fun p =>
    (Dev.ptn_of_tensor (Dev.event_tensor _ _ _)).trans (Dev.ptn_of_tensor (Dev.report_tensor _ _ _ _ _ _))
  unfold Dev.unitLost PtnAll.queued
  rw [Dev.ptnRegs_ptn]
  dsimp only
  rw [hptn]

/-- The partitions' state with a die out of service, its cores with it. -/
def PtnAll.dieGone (x : PtnAll) (k st : Nat) : PtnAll :=
  { x with dies := Tab.set 0 x.dies k st, out := (dieCores k).foldl (fun m c => setBit m c) x.out,
           spares := (dieCores k).foldl (fun m c => clrBit m c) x.spares }

/-- A die fails: the rest of the device aside, what becomes of the partitions' state. -/
theorem Dev.dieFail_ptn {d : Dev} {k : Nat} (hup : Tab.get 0 d.ptn.dies k = 0) (src det : Nat) (trip : Bool) :
    (d.dieFail k src det trip).ptn = (d.ptn.dieGone k (if trip then 2 else 1)).queued (.die k) 1 det d.now := by
  unfold Dev.dieFail
  rw [if_pos hup]
  dsimp only
  rw [Dev.unitLost_ptn, Dev.coresGone_ptn, Dev.now_of_control (Dev.coresGone_control _ _)]
  cases trip <;> rfl

/-- A die that fails shows how, its cores go out of service, and it is queued. -/
theorem Dev.dieFail_queued {d : Dev} {k : Nat} (hup : Tab.get 0 d.ptn.dies k = 0) (src det : Nat) (trip : Bool) :
    Tab.get 0 (d.dieFail k src det trip).ptn.dies k = (if trip then 2 else 1) ∧
    (d.dieFail k src det trip).ptn.out = (dieCores k).foldl (fun m c => setBit m c) d.ptn.out ∧
    (d.dieFail k src det trip).ptn.todo = d.ptn.todo ++ [(.die k, 1, det, d.now)] := by
  rw [Dev.dieFail_ptn hup]
  exact ⟨Tab.get_set_same _ _ _ _, rfl, rfl⟩

theorem Dev.stackStat_leaves (d : Dev) (off n : Nat) :
    (d.stackStat off n).ptn = d.ptn ∧ (d.stackStat off n).now = d.now ∧ (d.stackStat off n).store = d.store := ⟨rfl, rfl, rfl⟩

/-- A stack that fails shows 2 and is queued. -/
theorem Dev.hbmFail_queued {d : Dev} {n : Nat} (hup : Tab.get 0 d.ptn.hbm n ≤ 1) (det : Nat) :
    Tab.get 0 (d.hbmFail n det).ptn.hbm n = 2 ∧ (d.hbmFail n det).ptn.todo = d.ptn.todo ++ [(.hbm n, 2, det, d.now)] := by
  unfold Dev.hbmFail
  rw [if_pos hup]
  dsimp only
  rw [Dev.unitLost_ptn, Dev.ptn_of_tensor (Dev.event_tensor _ _ _), Dev.now_of_control (Dev.event_control _ _ _),
    (Dev.stackStat_leaves _ _ _).1, (Dev.stackStat_leaves _ _ _).2.1]
  exact ⟨Tab.get_set_same 0 d.ptn.hbm n 2, rfl⟩

theorem Dev.hbmBurst_queued {d : Dev} {n : Nat} (hup : Tab.get 0 d.ptn.hbm n ≤ 1) (det : Nat) :
    Tab.get 0 (d.hbmBurst n det).ptn.hbm n = 2 ∧ (d.hbmBurst n det).ptn.todo = d.ptn.todo ++ [(.hbm n, 2, det, d.now)] := by
  have hptn : (d.hbmEcc n 0xFF .uncFetch).ptn = d.ptn := Dev.ptn_of_tensor (Dev.hbmEcc_tensor _ _ _ _)
  have hnow : (d.hbmEcc n 0xFF .uncFetch).now = d.now := Dev.now_of_control (Dev.hbmEcc_control _ _ _ _)
  have hfail := Dev.hbmFail_queued (d := d.hbmEcc n 0xFF .uncFetch) (n := n) (by rwa [hptn]) det
  rwa [hptn, hnow] at hfail

/-- The damage of every bundle with a model-store stack's failure (log 44). -/
def Bundle.hurt (b : Bundle) : Bundle := { b with damaged := true }

/-- A model-store stack that fails shows 2 and damages every bundle. -/
theorem Dev.msFail_damages {d : Dev} {n : Nat} (hup : Tab.get 0 d.ptn.ms n ≤ 1) :
    Tab.get 0 (d.msFail n).ptn.ms n = 2 ∧ (d.msFail n).store.bundles = d.store.bundles.map Bundle.hurt := by
  unfold Dev.msFail
  rw [if_pos hup]
  dsimp only
  rw [Dev.ptn_of_tensor (Dev.event_tensor _ _ _), Dev.ptn_of_tensor (Dev.report_tensor _ _ _ _ _ _), Dev.ptn_of_tensor (Dev.event_tensor _ _ _),
    Dev.store_of_tensor (Dev.event_tensor _ _ _), Dev.store_of_tensor (Dev.report_tensor _ _ _ _ _ _),
    Dev.store_of_tensor (Dev.event_tensor _ _ _), (Dev.stackStat_leaves _ _ _).1, (Dev.stackStat_leaves _ _ _).2.2]
  exact ⟨Tab.get_set_same 0 d.ptn.ms n 2, rfl⟩

/-- A core that fails goes out of service and is queued. -/
theorem Dev.coreOut_queued {d : Dev} {c : Nat} (hup : d.coreUp c = true) (det : Nat) :
    (d.coreOut c det).ptn.out = setBit d.ptn.out c ∧ (d.coreOut c det).ptn.todo = d.ptn.todo ++ [(.core c, 4, det, d.now)] := by
  unfold Dev.coreOut
  rw [if_pos hup, Dev.unitLost_ptn]
  exact ⟨rfl, rfl⟩

/-! ### The loss of die B (R337) -/

/-- The partitions' state without the table of partitions: units, the queue of failed ones, the re-map in progress. -/
def PtnAll.units (x : PtnAll) : PtnAll := { x with ptn := [] }

theorem Dev.units_of_tensor {d e : Dev} (h : e.tensor = d.tensor) : e.ptn.units = d.ptn.units := by rw [Dev.ptn_of_tensor h]

theorem Dev.ptnSet_units (d : Dev) (p : Nat) (x : Ptn) : (d.ptnSet p x).ptn.units = d.ptn.units := rfl

theorem Dev.ptnFail_units (d : Dev) (p cause old : Nat) : (d.ptnFail p cause old).ptn.units = d.ptn.units := by
  unfold Dev.ptnFail
  split
  · rfl
  · rw [Dev.units_of_tensor (Dev.alarmSet_tensor _ _ _ _ _ _), Dev.units_of_tensor (Dev.notice_tensor _ _ _ _),
      Dev.units_of_tensor (Dev.event_tensor _ _ _), Dev.units_of_tensor (Dev.report_tensor _ _ _ _ _ _)]
    rfl

theorem Dev.ptnFailAll_units (ps : List Nat) (d : Dev) (cause old : Nat) : (d.ptnFailAll cause old ps).ptn.units = d.ptn.units := by
  induction ps generalizing d with
  | nil => rfl
  | cons p ps ih => rw [Dev.ptnFailAll, ih, Dev.ptnFail_units]

/-- The device when die F's Helmet has recorded the loss of die B. -/
def Dev.dieBGone (d : Dev) : Dev :=
  { d with ptn := { d.ptn with dieBLost := true }, pwr := { d.pwr with fLog := (d.mkReport 0x0F 5 3 0xFF 0 :: d.pwr.fLog).take 1920 } }

/-- The alarm and the event of the loss. -/
def Dev.dieBShown (d : Dev) : Dev := (d.dieBGone.alarmSet 4 0x0F true (5 * 65536) true).event (ptnReg 0x10) 3

theorem Dev.dieBShown_units (d : Dev) : d.dieBShown.ptn.units = { d.ptn.units with dieBLost := true } := by
  rw [Dev.dieBShown, Dev.units_of_tensor (Dev.event_tensor _ _ _), Dev.units_of_tensor (Dev.alarmSet_tensor _ _ _ _ _ _)]
  rfl

theorem Dev.dieBFail_units {d : Dev} (hup : d.ptn.dieBLost = false) : d.dieBFail.ptn.units = { d.ptn.units with dieBLost := true } := by
  unfold Dev.dieBFail
  rw [if_neg (by simp [hup])]
  dsimp only
  rw [Dev.ptnRegs_ptn, Dev.ptnFailAll_units, Dev.units_of_tensor (Dev.makeStaleList_tensor _ _ _)]
  exact d.dieBShown_units

/-- After the loss of die B it is recorded, whether this one or an earlier. -/
theorem Dev.dieBFail_lost (d : Dev) : d.dieBFail.ptn.dieBLost = true := by
  cases hlost : d.ptn.dieBLost with
  | true =>
    unfold Dev.dieBFail
    rw [if_pos hlost]
    exact hlost
  | false => exact congrArg PtnAll.dieBLost (Dev.dieBFail_units hlost)

theorem Dev.dieBFail_todo {d : Dev} (hup : d.ptn.dieBLost = false) : d.dieBFail.ptn.todo = d.ptn.todo := by
  have htodo : d.dieBFail.ptn.units.todo = d.ptn.todo := by rw [Dev.dieBFail_units hup]; rfl
  exact htodo

/-! ### Defects of die B (R19) -/

/-- The mask of die B's planes does not move with a failure or a report. -/
theorem Dev.dieBFail_planes (d : Dev) : d.dieBFail.pwr.planes = d.pwr.planes := by
  unfold Dev.dieBFail
  split
  · rfl
  · dsimp only
    rw [Dev.pwr_of_control (Dev.ptnRegs_control _), Dev.pwr_of_control (Dev.ptnFailAll_control _ _ _ _),
      Dev.pwr_of_control (Dev.makeStaleList_control _ _ _), Dev.pwr_of_control (Dev.event_control _ _ _),
      Dev.pwr_of_control (Dev.alarmSet_control _ _ _ _ _ _)]

/-- A lane taken for a defective one. -/
theorem Dev.netDefect_lane (d : Dev) :
    (d.netDefect .lane).pwr.spareLanes = stick 65535 (d.pwr.spareLanes + 1) ∧ (d.netDefect .lane).ptn = d.ptn := by
  unfold Dev.netDefect
  rw [Dev.pwr_of_control (Dev.reportFree_control _ _ _ _), Dev.ptn_of_tensor (Dev.reportFree_tensor _ _ _ _)]
  exact ⟨rfl, rfl⟩

/-- A plane that fails is recorded; with both gone die B is lost. -/
theorem Dev.netDefect_plane {d : Dev} {p : Fin 2} (hup : bit d.pwr.planes p = false) :
    (d.netDefect (.plane p)).pwr.planes = setBit d.pwr.planes p ∧
    (setBit d.pwr.planes p = 3 → (d.netDefect (.plane p)).ptn.dieBLost = true) := by
  have hplanes : ∀ n : Nat, ((({ d with pwr := { d.pwr with planes := n } }) : Dev).reportFree 8 1 0xFF).pwr.planes = n := fun n => by
    rw [Dev.pwr_of_control (Dev.reportFree_control _ _ _ _)]
  unfold Dev.netDefect
  dsimp only
  rw [if_neg (by simp [hup])]
  rw [hplanes]
  split
  next => exact ⟨(Dev.dieBFail_planes _).trans (hplanes _), fun _ => Dev.dieBFail_lost _⟩
  next hone => exact ⟨hplanes _, fun hboth => absurd hboth hone⟩

end Sys2Proof
end

section
/-! SUPPORT. What the operations of a tensor core leave of the partitions' state: all of it. -/

namespace Sys2Proof

@[simp] theorem Dev.ptn_ite (c : Prop) [Decidable c] (a b : Dev) : (if c then a else b).ptn = if c then a.ptn else b.ptn := by split <;> rfl

/-! ### Common operations -/

@[simp] theorem Dev.count_ptn (d x1 x2) : (Dev.count d x1 x2).ptn = d.ptn := Dev.ptn_of_tensor (Dev.count_tensor _ _ _)
@[simp] theorem Dev.wrN_ptn (d x1 x2) : (Dev.wrN d x1 x2).ptn = d.ptn := Dev.ptn_of_tensor (Dev.wrN_tensor _ _ _)
@[simp] theorem Dev.event_ptn (d x1 x2) : (Dev.event d x1 x2).ptn = d.ptn := Dev.ptn_of_tensor (Dev.event_tensor _ _ _)
@[simp] theorem Dev.report_ptn (d x1 x2 x3 x4 x5) : (Dev.report d x1 x2 x3 x4 x5).ptn = d.ptn := Dev.ptn_of_tensor (Dev.report_tensor _ _ _ _ _ _)
@[simp] theorem Dev.catPut_ptn (d x1) : (Dev.catPut d x1).ptn = d.ptn := Dev.ptn_of_tensor (Dev.catPut_tensor _ _)
@[simp] theorem Dev.regsReset_ptn (d x1 x2) : (Dev.regsReset d x1 x2).ptn = d.ptn := Dev.ptn_of_tensor (Dev.regsReset_tensor _ _ _)
@[simp] theorem Dev.tenRegsReset_ptn (d x1) : (Dev.tenRegsReset d x1).ptn = d.ptn := Dev.ptn_of_tensor (Dev.tenRegsReset_tensor _ _)
@[simp] theorem Dev.afterPost_ptn (d x1 x2 x3) : (Dev.afterPost d x1 x2 x3).ptn = d.ptn := Dev.ptn_of_tensor (Dev.afterPost_tensor _ _ _ _)
@[simp] theorem Dev.tally_ptn (d x1 x2) : (Dev.tally d x1 x2).ptn = d.ptn := Dev.ptn_of_tensor (Dev.tally_tensor _ _ _)
@[simp] theorem Dev.unwait_ptn (d x1) : (Dev.unwait d x1).ptn = d.ptn := Dev.ptn_of_tensor (Dev.unwait_tensor _ _)
@[simp] theorem Dev.moveEcc_ptn (d x1 x2) : (Dev.moveEcc d x1 x2).1.ptn = d.ptn := Dev.ptn_of_tensor (Dev.moveEcc_tensor _ _ _)
@[simp] theorem Dev.freeBytes_ptn (d x1) : (Dev.freeBytes d x1).2.ptn = d.ptn := Dev.ptn_of_tensor (Dev.freeBytes_tensor _ _)
@[simp] theorem Dev.notice_ptn (d x1 x2 x3) : (Dev.notice d x1 x2 x3).ptn = d.ptn := Dev.ptn_of_tensor (Dev.notice_tensor _ _ _ _)
@[simp] theorem Dev.remapNotice_ptn (d x1 x2 x3 x4 x5 x6) : (Dev.remapNotice d x1 x2 x3 x4 x5 x6).ptn = d.ptn := Dev.ptn_of_tensor (Dev.remapNotice_tensor _ _ _ _ _ _ _)
@[simp] theorem Dev.bankStalls_ptn (d x1) : (Dev.bankStalls d x1).ptn = d.ptn := Dev.ptn_of_tensor (Dev.bankStalls_tensor _ _)
@[simp] theorem Dev.drawN_ptn (d) : (Dev.drawN d).2.ptn = d.ptn := Dev.ptn_of_tensor (Dev.drawN_tensor _)

/-! ### Operations of a core -/

@[simp] theorem Dev.lckSet_ptn (d x1 x2) : (Dev.lckSet d x1 x2).ptn = d.ptn := by
  simp [Dev.lckSet]
@[simp] theorem Dev.lckForce_ptn (d x1 x2) : (Dev.lckForce d x1 x2).ptn = d.ptn := by
  simp [Dev.lckForce]
@[simp] theorem Dev.lckForceList_ptn (d x1 x2) : (Dev.lckForceList d x1 x2).ptn = d.ptn := by
  fun_induction Dev.lckForceList d x1 x2 <;> simp_all
@[simp] theorem Dev.lckForceOwner_ptn (d x1 x2) : (Dev.lckForceOwner d x1 x2).ptn = d.ptn := by
  simp [Dev.lckForceOwner]
@[simp] theorem Dev.csWrite_ptn (d x1 x2 x3) : (Dev.csWrite d x1 x2 x3).ptn = d.ptn := by
  simp [Dev.csWrite]
@[simp] theorem Dev.csZero_ptn (d x1) : (Dev.csZero d x1).ptn = d.ptn := by
  simp [Dev.csZero]
@[simp] theorem Dev.shWrite_ptn (d x1 x2 x3) : (Dev.shWrite d x1 x2 x3).ptn = d.ptn := by
  simp [Dev.shWrite]
@[simp] theorem Dev.shFromCore_ptn (d x1 x2 x3 x4 x5) : (Dev.shFromCore d x1 x2 x3 x4 x5).ptn = d.ptn := by
  unfold Dev.shFromCore
  (repeat' split) <;> simp
@[simp] theorem Dev.coreFromSh_ptn (d x1 x2 x3 x4 x5) : (Dev.coreFromSh d x1 x2 x3 x4 x5).ptn = d.ptn := by
  unfold Dev.coreFromSh
  (repeat' split) <;> simp
@[simp] theorem Dev.coreSet_ptn (d x1 x2) : (Dev.coreSet d x1 x2).ptn = d.ptn := by
  simp [Dev.coreSet]
@[simp] theorem Dev.corePost_ptn (d x1 x2 x3) : (Dev.corePost d x1 x2 x3).ptn = d.ptn := by
  unfold Dev.corePost
  (repeat' split) <;> simp
@[simp] theorem Dev.complete_ptn (d x1 x2 x3 x4 x5) : (Dev.complete d x1 x2 x3 x4 x5).ptn = d.ptn := by
  simp [Dev.complete]
@[simp] theorem Dev.tenFail_ptn (d x1 x2 x3 x4) : (Dev.tenFail d x1 x2 x3 x4).ptn = d.ptn := by
  simp [Dev.tenFail]
@[simp] theorem Dev.fill_ptn (d x1 x2) : (Dev.fill d x1 x2).ptn = d.ptn := by
  induction x2 generalizing d with
  | nil => rfl
  | cons a l ih => rw [Dev.fill, ih]; (repeat' split) <;> simp
@[simp] theorem Dev.putCode_ptn (d x1 x2 x3 x4 x5) : (Dev.putCode d x1 x2 x3 x4 x5).ptn = d.ptn := by
  simp [Dev.putCode]
@[simp] theorem Dev.putCodes_ptn (d x1 x2 x3 x4 x5) : (Dev.putCodes d x1 x2 x3 x4 x5).ptn = d.ptn := by
  fun_induction Dev.putCodes d x1 x2 x3 x4 x5 <;> simp_all
@[simp] theorem Dev.putSides_ptn (d x1 x2 x3 x4) : (Dev.putSides d x1 x2 x3 x4).ptn = d.ptn := by
  fun_induction Dev.putSides d x1 x2 x3 x4 <;> simp_all
theorem Dev.linkAppend_ptn {d d1 : Dev} {c l xs} (h : d.linkAppend c l xs = .ok d1) : d1.ptn = d.ptn := by
  simp only [Dev.linkAppend] at h
  split at h
  next => cases h
  next =>
    split at h
    next => cases h
    next =>
      split at h
      next => cases h
      next =>
        rw [← Except.ok.inj h, Dev.tally_ptn, Dev.coreUpd_ptn]
        split <;> simp
@[simp] theorem Dev.emitArray_ptn (d x1 x2 x3 x4) : (Dev.emitArray d x1 x2 x3 x4).ptn = d.ptn := by
  unfold Dev.emitArray
  dsimp only
  (repeat' split) <;> simp_all
@[simp] theorem Dev.emitArrays_ptn (d x1 x2 x3 x4) : (Dev.emitArrays d x1 x2 x3 x4).ptn = d.ptn := by
  fun_induction Dev.emitArrays d x1 x2 x3 x4 <;> simp_all
theorem Dev.emitPass_ptn {d d1 : Dev} {c p} (h : d.emitPass c p = .ok d1) : d1.ptn = d.ptn := by
  unfold Dev.emitPass at h
  split at h
  · exact Dev.linkAppend_ptn h
  · simp only [Except.ok.injEq] at h
    rw [← h]; simp
@[simp] theorem Dev.fetchCheck_ptn (d x1) : (Dev.fetchCheck d x1).ptn = d.ptn := by
  simp [Dev.fetchCheck]
@[simp] theorem Dev.startPass_ptn (d x1 x2) : (Dev.startPass d x1 x2).ptn = d.ptn := by
  simp [Dev.startPass]
@[simp] theorem Dev.promote_ptn (d x1) : (Dev.promote d x1).ptn = d.ptn := by
  fun_cases Dev.promote d x1 <;> simp_all
@[simp] theorem Dev.passCommit_ptn (d c) : (Dev.passCommit d c).ptn = d.ptn := by
  unfold Dev.passCommit
  dsimp only
  split
  next => rfl
  next =>
    split
    next => rfl
    next =>
      split
      next hemit => rw [Dev.complete_ptn, Dev.emitPass_ptn hemit, Dev.coreSet_ptn]
      next => rw [Dev.tenFail_ptn, Dev.coreSet_ptn]
@[simp] theorem Dev.linkComplete_ptn (d x1 x2) : (Dev.linkComplete d x1 x2).ptn = d.ptn := by
  unfold Dev.linkComplete
  (repeat' split) <;> simp
@[simp] theorem Dev.mvWrite_ptn (d x1 x2 x3 x4) : (Dev.mvWrite d x1 x2 x3 x4).ptn = d.ptn := by
  simp [Dev.mvWrite]
@[simp] theorem Dev.moveEncode_ptn (d x1 x2 x3 x4 x5) : (Dev.moveEncode d x1 x2 x3 x4 x5).ptn = d.ptn := by
  simp [Dev.moveEncode]
@[simp] theorem Dev.moveDecode_ptn (d x1 x2 x3 x4 x5) : (Dev.moveDecode d x1 x2 x3 x4 x5).ptn = d.ptn := by
  simp [Dev.moveDecode]
@[simp] theorem Dev.moveSpan_ptn (d x1 x2 x3) : (Dev.moveSpan d x1 x2 x3).ptn = d.ptn := by
  unfold Dev.moveSpan
  dsimp only
  (repeat' split) <;> simp
@[simp] theorem Dev.runMove_ptn (d c) : (Dev.runMove d c).ptn = d.ptn := by
  unfold Dev.runMove
  split
  next =>
    split
    next => rfl
    next => dsimp only; (repeat' split) <;> simp
  next => rfl
@[simp] theorem Dev.moveEnd_ptn (d x1 x2 x3) : (Dev.moveEnd d x1 x2 x3).ptn = d.ptn := by
  simp [Dev.moveEnd]
@[simp] theorem Dev.moveStop_ptn (d x1) : (Dev.moveStop d x1).ptn = d.ptn := by
  unfold Dev.moveStop
  (repeat' split) <;> simp
@[simp] theorem Dev.tenRun_ptn (d x1) : (Dev.tenRun d x1).ptn = d.ptn := by
  simp [Dev.tenRun]
@[simp] theorem Dev.writeSave_ptn (d x1 x2) : (Dev.writeSave d x1 x2).ptn = d.ptn := by
  simp [Dev.writeSave]
@[simp] theorem Dev.tenPreempt_ptn (d x1) : (Dev.tenPreempt d x1).ptn = d.ptn := by
  unfold Dev.tenPreempt
  (repeat' split) <;> simp
@[simp] theorem Dev.commitAll_ptn (d x1 x2) : (Dev.commitAll d x1 x2).ptn = d.ptn := by
  fun_induction Dev.commitAll d x1 x2 <;> simp_all
@[simp] theorem Dev.linksFinish_ptn (d : Dev) (c : Nat) (ks : List Nat) : (Dev.linksFinish d c ks).ptn = d.ptn := by
  induction ks generalizing d with
  | nil => rfl
  | cons k ks ih =>
    rw [Dev.linksFinish, ih]
    (repeat' split) <;> simp
@[simp] theorem Dev.preemptSaved_ptn (d c) : (Dev.preemptSaved d c).ptn = d.ptn := by
  unfold Dev.preemptSaved
  dsimp only
  (repeat' split) <;> simp
@[simp] theorem Dev.rebase_ptn (d x1) : (Dev.rebase d x1).ptn = d.ptn := by
  simp [Dev.rebase]
@[simp] theorem Dev.tenResume_ptn (d x1) : (Dev.tenResume d x1).ptn = d.ptn := by
  simp [Dev.tenResume]
@[simp] theorem Dev.loadImage_ptn (d x1 x2 x3) : (Dev.loadImage d x1 x2 x3).ptn = d.ptn := by
  unfold Dev.loadImage
  (repeat' split) <;> simp
@[simp] theorem Dev.storeOut_ptn (d x1 x2) : (Dev.storeOut d x1 x2).ptn = d.ptn := by
  unfold Dev.storeOut
  (repeat' split) <;> simp
@[simp] theorem Dev.storeIn_ptn (d x1 x2) : (Dev.storeIn d x1 x2).ptn = d.ptn := by
  unfold Dev.storeIn
  (repeat' split) <;> simp [Dev.restageCore_ptn]
@[simp] theorem Dev.sliceIn_ptn (d x1 x2) : (Dev.sliceIn d x1 x2).ptn = d.ptn := by
  unfold Dev.sliceIn
  (repeat' split) <;> simp

end Sys2Proof
end

section
/-! The re-map (chapter 13, R332 to R340): what its steps leave of the queue of failed units and of the partitions' state, and the rebuilding of
a mirror (R128). From these and the failures the obligation O46. -/

namespace Sys2Proof

/-! ### What the steps of a re-map leave of its course -/

/-- The queue of failed units, the count of re-maps and the re-map in progress. -/
def PtnAll.course (x : PtnAll) : List (FUnit × Nat × Nat × Nat) × Nat × Option Remap := (x.todo, x.remaps, x.cur)

theorem Dev.course_of_ptn {d e : Dev} (h : e.ptn = d.ptn) : e.ptn.course = d.ptn.course := by rw [h]

theorem Dev.course_of_units {d e : Dev} (h : e.ptn.units = d.ptn.units) : e.ptn.course = d.ptn.course := by
  have hcourse : e.ptn.units.course = d.ptn.units.course := by rw [h]
  exact hcourse

theorem Dev.freeLocks_ptn (ps : List Nat) (d : Dev) : (d.freeLocks ps).ptn = d.ptn := by
  induction ps generalizing d with
  | nil => rfl
  | cons p ps ih => rw [Dev.freeLocks, ih, Dev.lckForceOwner_ptn]

theorem Dev.fenceCores_ptn (cs : List Nat) (d : Dev) : (d.fenceCores cs).ptn = d.ptn := by
  induction cs generalizing d with
  | nil => rfl
  | cons c cs ih => rw [Dev.fenceCores, ih, Dev.coreStop_ptn]

theorem Dev.freeTargets_ptn (ms : List Move1) (d : Dev) : (d.freeTargets ms).ptn = d.ptn := by
  induction ms generalizing d with
  | nil => rfl
  | cons m ms ih =>
    rw [Dev.freeTargets, ih]
    split
    · rw [Dev.preemptSaved_ptn, Dev.tenPreempt_ptn]
    · rfl

theorem Dev.giveCore_course (d : Dev) (p old tgt : Nat) : (d.giveCore p old tgt).ptn.course = d.ptn.course := by
  unfold Dev.giveCore
  dsimp only
  split <;> rfl

theorem Dev.planMove_course (d : Dev) (cause p c t : Nat) : (d.planMove cause p c t).1.ptn.course = d.ptn.course := by
  unfold Dev.planMove
  dsimp only
  split
  · rw [Dev.course_of_units (Dev.ptnFail_units _ _ _ _), Dev.course_of_ptn (Dev.remapNotice_ptn _ _ _ _ _ _ _), Dev.giveCore_course]
  · rw [Dev.course_of_ptn (Dev.remapNotice_ptn _ _ _ _ _ _ _), Dev.giveCore_course]

theorem Dev.planMoves_course (ws : List (Nat × Nat × Nat)) (d : Dev) (cause : Nat) : (d.planMoves cause ws).1.ptn.course = d.ptn.course := by
  induction ws generalizing d with
  | nil => rfl
  | cons w ws ih =>
    obtain ⟨p, c, t⟩ := w
    rw [Dev.planMoves]
    exact (ih _).trans (Dev.planMove_course _ _ _ _ _)

theorem Dev.startStates_course (ps : List Nat) (d : Dev) : (d.startStates ps).ptn.course = d.ptn.course := by
  induction ps generalizing d with
  | nil => rfl
  | cons p ps ih =>
    rw [Dev.startStates, ih]
    split <;> rfl

/-! ### The start of a re-map (R332) -/

theorem Dev.affected_none (d : Dev) : d.affected [] = [] :=
  List.filter_eq_nil_iff.mpr (fun p _ => by simp)

/-- A unit that takes cores of a partition with it leaves the queue and starts a re-map, which counts. -/
theorem Dev.remapStart_begins {d : Dev} {u : FUnit} {cause det at_ : Nat} {rest : List (FUnit × Nat × Nat × Nat)} (hfree : d.ptn.cur = none)
    (htodo : d.ptn.todo = (u, cause, det, at_) :: rest) (hhit : d.affected u.lost ≠ []) :
    d.remapStart.ptn.todo = rest ∧ d.remapStart.ptn.remaps = stick32 (d.ptn.remaps + 1) ∧
    d.remapStart.ptn.cur.map (fun r => (r.cause, r.det, r.at_)) = some (cause, det, at_) := by
  cases u
  case hbm | ms | dieB => exact absurd d.affected_none hhit
  case die | core =>
    unfold Dev.remapStart
    rw [hfree, htodo]
    dsimp -zeta only
    extract_lets _ d0 lost ps pl ts target d1 _ n1 d2 d3 want m d4 _ d5
    have hfenced : d1.ptn = d0.ptn := by rw [Dev.fenceCores_ptn, Dev.freeLocks_ptn]
    have hsource : d0.ptn.course = (rest, d.ptn.remaps, d.ptn.cur) := rfl
    have hps : ps ≠ [] := hhit
    clear_value d1 d0 ps
    have hcounted : n1.ptn.course = (d1.ptn.todo, stick32 (d1.ptn.remaps + 1), d1.ptn.cur) := rfl
    have hshown : d2.ptn = n1.ptn := by rw [Dev.event_ptn, Dev.wrN_ptn]
    have hjudged : d3.ptn = d2.ptn := by
      simp only [d3]
      split
      · rfl
      · rw [Dev.event_ptn, Dev.report_ptn]
    have hmoved : d4.ptn.course = d3.ptn.course := (Dev.startStates_course _ _).trans (Dev.planMoves_course _ _ _)
    have hcourse : d4.ptn.course = (rest, stick32 (d.ptn.remaps + 1), d.ptn.cur) := by
      rw [hmoved, hjudged, hshown, hcounted, hfenced]
      exact congrArg (fun x => (x.1, stick32 (x.2.1 + 1), x.2.2)) hsource
    clear_value d4
    have hkept : d5.ptn.todo = d4.ptn.todo ∧ d5.ptn.remaps = d4.ptn.remaps := ⟨rfl, rfl⟩
    have hstarted : d5.ptn.cur.map (fun r => (r.cause, r.det, r.at_)) = some (cause, det, at_) := rfl
    have hshows : ((d5.freeTargets m.2).ptnRegs.remapHolds).ptn = d5.ptn := by
      rw [Dev.ptn_of_tensor (Dev.remapHolds_tensor _), Dev.ptnRegs_ptn, Dev.freeTargets_ptn]
    rw [if_neg hps, hshows]
    exact ⟨hkept.1.trans (congrArg Prod.fst hcourse), hkept.2.trans (congrArg (fun x => x.2.1) hcourse), hstarted⟩

/-! ### The end of a re-map (R332 step 6, R333) -/

/-- The partitions' state without the prepared plans. -/
def PtnAll.unplanned (x : PtnAll) : PtnAll := { x with plan := [] }

theorem Dev.foldl_unplanned (f : Dev → Nat → Dev) (hf : ∀ d u, (f d u).ptn.unplanned = d.ptn.unplanned) (us : List Nat) (d : Dev) :
    (us.foldl f d).ptn.unplanned = d.ptn.unplanned := by
  induction us generalizing d with
  | nil => rfl
  | cons u us ih => rw [List.foldl_cons, ih, hf]

theorem Dev.planAll_unplanned (d : Dev) : d.planAll.ptn.unplanned = d.ptn.unplanned := by
  unfold Dev.planAll
  refine Dev.foldl_unplanned _ (fun e u => ?_) _ d
  dsimp only
  rw [Dev.wrN_ptn, Dev.wrN_ptn, Dev.wrN_ptn]
  dsimp only
  rw [Dev.drawN_ptn]
  rfl

theorem Dev.ptnAt_of_unplanned {d e : Dev} (h : e.ptn.unplanned = d.ptn.unplanned) (p : Nat) : e.ptnAt p = d.ptnAt p := by
  have hptn : e.ptn.unplanned.ptn = d.ptn.unplanned.ptn := by rw [h]
  unfold Dev.ptnAt
  exact congrArg (fun t => Tab.get {} t p) hptn

/-- The plans, the map's registers and the holds of PWR_DIE, as every change of the map ends. -/
def Dev.replanned (d : Dev) : Dev := d.planAll.ptnRegs.remapHolds

theorem Dev.replanned_unplanned (d : Dev) : d.replanned.ptn.unplanned = d.ptn.unplanned := by
  rw [Dev.replanned, Dev.ptn_of_tensor (Dev.remapHolds_tensor _), Dev.ptnRegs_ptn, Dev.planAll_unplanned]

/-- A core that restarts leaves its partition in service, time-shared where its target is. -/
theorem Dev.restart1_state (d : Dev) (m : Move1) (ns cause : Nat) :
    ((d.restart1 m ns cause).ptnAt m.ptn).state = if m.tshared then .tshared else .service := by
  unfold Dev.restart1
  dsimp only
  rw [Dev.ptnAt_of_ptn (Dev.remapNotice_ptn _ _ _ _ _ _ _), Dev.ptnAt_of_ptn (Dev.tenRun_ptn _ _), Dev.ptnAt_ptnState_same]

/-- A re-map ends: the step times are shown, the event, the entry and the counter record follow. -/
def Dev.remapShown (d : Dev) (det fence load total who : Nat) : Dev :=
  ((((((d.wrN (ptnReg 0x20) det).wrN (ptnReg 0x24) fence).wrN (ptnReg 0x28) load).wrN (ptnReg 0x2C) total).event (ptnReg 0x10) 1).report 0x0F 6 0 who
    total).teleMake 4 3 0x0F 0xFF 0 (leBytes 4 det ++ leBytes 4 fence ++ leBytes 4 load ++ leBytes 4 total)

theorem Dev.remapShown_ptn (d : Dev) (det fence load total who : Nat) : (d.remapShown det fence load total who).ptn = d.ptn := by
  unfold Dev.remapShown
  rw [Dev.ptn_of_tensor (Dev.teleMake_tensor _ _ _ _ _ _ _), Dev.report_ptn, Dev.event_ptn, Dev.wrN_ptn, Dev.wrN_ptn, Dev.wrN_ptn, Dev.wrN_ptn]

/-- The detection time stands in PTN_DETECT. -/
theorem Dev.rdN_remapShown (d : Dev) (det fence load total who : Nat) :
    (d.remapShown det fence load total who).rdN (ptnReg 0x20) = det % 2 ^ 32 := by
  have htele : ∀ (e : Dev) (pl : List Byte), (e.teleMake 4 3 0x0F 0xFF 0 pl).rdN (ptnReg 0x20) = e.rdN (ptnReg 0x20) := fun _ _ => rfl
  unfold Dev.remapShown
  rw [htele, Dev.rdN_report_other _ _ _ _ _ _ (by decide) (by decide), Dev.rdN_event_other _ _ (by decide), Dev.rdN_wrN_other _ _ (by decide),
    Dev.rdN_wrN_other _ _ (by decide), Dev.rdN_wrN_other _ _ (by decide), Dev.rdN_wrN_same]
  rfl

/-- Steps that each leave a register leave it together. -/
theorem Dev.foldl_rdN {k : Nat} (f : Dev → Nat → Dev) (us : List Nat) (hf : ∀ d, ∀ u ∈ us, (f d u).rdN k = d.rdN k) (d : Dev) :
    (us.foldl f d).rdN k = d.rdN k := by
  induction us generalizing d with
  | nil => rfl
  | cons u us ih =>
    rw [List.foldl_cons, ih (fun e v hv => hf e v (List.mem_cons_of_mem u hv)), hf d u List.mem_cons_self]

theorem Dev.rdN_planAll (d : Dev) : d.planAll.rdN (ptnReg 0x20) = d.rdN (ptnReg 0x20) := by
  have hregs : ∀ (e : Dev) (x : PtnAll), ({ e.drawN.2 with ptn := x } : Dev).rdN (ptnReg 0x20) = e.rdN (ptnReg 0x20) := fun _ _ => rfl
  unfold Dev.planAll
  refine Dev.foldl_rdN _ _ (fun e u _ => ?_) d
  dsimp only
  rw [Dev.rdN_wrN_other _ _ (by unfold ptnReg; omega), Dev.rdN_wrN_other _ _ (by unfold ptnReg; omega),
    Dev.rdN_wrN_other _ _ (by unfold ptnReg; omega), hregs]

theorem Dev.rdN_shareRegs {k : Nat} (hk : memReg 0x100 + 0x20 * 32 ≤ k) (ps : List Nat) (hps : ∀ p ∈ ps, p < 32) (d : Dev) :
    (d.shareRegs ps).rdN k = d.rdN k := by
  induction ps generalizing d with
  | nil => rfl
  | cons p ps ih =>
    have hp := hps p List.mem_cons_self
    rw [Dev.shareRegs, ih (fun q hq => hps q (List.mem_cons_of_mem p hq)), Dev.rdN_wrN_other _ _ (by omega)]

theorem Dev.rdN_ptnRegs (d : Dev) : d.ptnRegs.rdN (ptnReg 0x20) = d.rdN (ptnReg 0x20) := by
  unfold Dev.ptnRegs
  dsimp only
  rw [Dev.rdN_wrN_other _ _ (by decide), Dev.rdN_wrN_other _ _ (by decide), Dev.rdN_wrN_other _ _ (by decide),
    Dev.rdN_shareRegs (by decide) _ (by decide)]
  refine Dev.foldl_rdN _ _ (fun e p _ => ?_) d
  rw [Dev.wrBytes_eq, Dev.rdN_wordsPut_outside _ _ (Or.inl (by unfold ptnReg; omega)), Dev.rdN_wrN_other _ _ (by unfold ptnReg; omega)]

theorem Dev.rdN_remapHolds (d : Dev) : d.remapHolds.rdN (ptnReg 0x20) = d.rdN (ptnReg 0x20) := by
  unfold Dev.remapHolds
  refine Dev.foldl_rdN _ _ (fun e k _ => ?_) d
  rw [Dev.rdN_wrN_other _ _ (by unfold ptnReg ptnBase pwrBase; omega)]

theorem Dev.rdN_replanned (d : Dev) : d.replanned.rdN (ptnReg 0x20) = d.rdN (ptnReg 0x20) := by
  rw [Dev.replanned, Dev.rdN_remapHolds, Dev.rdN_ptnRegs, Dev.rdN_planAll]

/-- No re-map is in progress any more. -/
def Dev.remapOver (d : Dev) : Dev := { d with ptn := { d.ptn with cur := none } }

/-- A re-map of one move whose target is up ends with the restart of that core. -/
theorem Dev.remapRestart_one {d : Dev} {r : Remap} {m : Move1} (hcur : d.ptn.cur = some r) (hone : r.moves = [m]) (hup : d.coreUp m.new = true) :
    ∃ fence load total who, d.remapRestart = ((d.restart1 m total r.cause).remapShown r.det fence load total who).remapOver.replanned := by
  have hdead : [m].filter (fun (x : Move1) => !d.coreUp x.new) = [] := by simp [hup]
  have hall : [m].filter (fun (x : Move1) => !([] : List Move1).any (fun y => decide (y.ptn = x.ptn))) = [m] := rfl
  refine ⟨(r.planned - r.at_) / 10, (d.now - r.planned) / 10, r.det + (r.planned - r.at_) / 10 + (d.now - r.planned) / 10, m.ptn, ?_⟩
  unfold Dev.remapRestart
  rw [hcur]
  dsimp -zeta only
  rw [hone, hdead]
  extract_lets dead late fence load total d0 d2 who d3
  have hdone : d0 = d.restart1 m total r.cause := rfl
  have hwho : who = m.ptn := rfl
  rw [if_pos rfl]
  simp only [d3, d2, hwho, hdone]
  rfl

/-- The partitions' state and the detection time after a re-map of one move. -/
theorem Dev.remapRestart_ends {d : Dev} {r : Remap} {m : Move1} (hcur : d.ptn.cur = some r) (hone : r.moves = [m]) (hup : d.coreUp m.new = true) :
    d.remapRestart.ptn.cur = none ∧ (d.remapRestart.ptnAt m.ptn).state = (if m.tshared then .tshared else .service) ∧
    d.remapRestart.rdN (ptnReg 0x20) = r.det % 2 ^ 32 := by
  obtain ⟨fence, load, total, who, hend⟩ := Dev.remapRestart_one hcur hone hup
  have hptn := Dev.replanned_unplanned ((d.restart1 m total r.cause).remapShown r.det fence load total who).remapOver
  have hat : ∀ e : Dev, e.remapOver.ptnAt m.ptn = e.ptnAt m.ptn := fun _ => rfl
  have hreg : ∀ e : Dev, e.remapOver.rdN (ptnReg 0x20) = e.rdN (ptnReg 0x20) := fun _ => rfl
  rw [hend]
  refine ⟨?_, ?_, ?_⟩
  · have hover : ((d.restart1 m total r.cause).remapShown r.det fence load total who).remapOver.ptn.unplanned.cur = none := rfl
    rw [← hptn] at hover
    exact hover
  · rw [Dev.ptnAt_of_unplanned hptn, hat, Dev.ptnAt_of_ptn (Dev.remapShown_ptn _ _ _ _ _ _), Dev.restart1_state]
  · rw [Dev.rdN_replanned, hreg, Dev.rdN_remapShown]

/-! ### Shared cores, re-stages and mirrors (R128, R336, R340) -/

/-- A shared core changes to its other partition. -/
theorem Dev.timeShareSwitch_swaps {d : Dev} {c : Nat} {y : TShare} (hshared : Tab.get none d.ptn.tshare c = some y) :
    (Tab.get none (d.timeShareSwitch c).ptn.tshare c).map (fun z => (z.running, z.other, z.otherReset)) = some (y.other, y.running, false) ∧
    wbit ((d.timeShareSwitch c).rd (ptnReg 0x10)) 5 = true := by
  unfold Dev.timeShareSwitch
  rw [hshared]
  dsimp -zeta only
  extract_lets d1 d2 t' _ d3 d4 d5
  refine ⟨?_, Dev.event_set _ _ _ (by decide)⟩
  have hin : d5.ptn = d4.ptn := by rw [Dev.setPc_ptn, Dev.wrN_ptn, Dev.wrN_ptn, Dev.coreSet_ptn]
  have hstore : d4.ptn = d3.ptn := by
    simp only [d4]
    split
    · exact Dev.csZero_ptn _ _
    · exact Dev.storeIn_ptn _ _ _
  rw [Dev.event_ptn, Dev.sliceIn_ptn, hin, hstore]
  exact congrArg (Option.map (fun (z : TShare) => (z.running, z.other, z.otherReset))) (Tab.get_set_same none d2.ptn.tshare c (some t'))

/-- A re-staged partition returns to service with its cores as they were. -/
theorem Dev.restageDone_serves {d : Dev} {p : Nat} (hstate : (d.ptnAt p).state = .restage) (hfree : d.ptn.cur = none) :
    ((d.restageDone p).ptnAt p).state = .service ∧ ((d.restageDone p).ptnAt p).order = (d.ptnAt p).order := by
  unfold Dev.restageDone
  rw [hfree]
  dsimp only
  rw [if_pos ⟨hstate, rfl⟩, Dev.ptnAt_of_ptn (Dev.ptnRegs_ptn _), Dev.ptnAt_of_unplanned (Dev.planAll_unplanned _),
    Dev.ptnAt_of_ptn (Dev.notice_ptn _ _ _ _), Dev.ptnAt_ptnState_same, Dev.ptnAt_of_ptn (d.restagePtn_ptn p)]
  exact ⟨rfl, rfl⟩

/-- The map entry of partition p with its mirror on the first free run of stack k. -/
def Dev.mirroredEnt (d : Dev) (p k : Nat) : MapEnt := { d.ent p with mstack := k, mbase := (d.freeRun k (d.ent p).len).getD 0 }

/-- A mirror on the lowest free run of the lowest stack near another die (log 42). -/
theorem Dev.mirrorRebuild_places {d : Dev} {p k : Nat} (hprot : (d.ent p).prot = true) (hlost : (d.ptnAt p).mirrored = false)
    (hlen : 0 < (d.ent p).len)
    (hstack : (upTo 8).find? (fun x => decide (nearDie x ≠ nearDie (d.ent p).pstack) && decide (Tab.get 0 d.ptn.hbm x ≤ 1) &&
      (d.freeRun x (d.ent p).len).isSome) = some k) :
    ∃ e : Dev, d.mirrorRebuild p = (e.ptnSet p { e.ptnAt p with ent := d.mirroredEnt p k, mirrored := true }).shareRegs [p] := by
  have hmay : ((d.ent p).prot && !(d.ptnAt p).mirrored && decide (0 < (d.ent p).len)) = true := by simp [hprot, hlost, hlen]
  unfold Dev.mirrorRebuild
  rw [if_pos hmay, hstack]
  exact ⟨_, rfl⟩

theorem Dev.mirrorRebuild_valid {d : Dev} {p k : Nat} (hprot : (d.ent p).prot = true) (hlost : (d.ptnAt p).mirrored = false)
    (hlen : 0 < (d.ent p).len)
    (hstack : (upTo 8).find? (fun x => decide (nearDie x ≠ nearDie (d.ent p).pstack) && decide (Tab.get 0 d.ptn.hbm x ≤ 1) &&
      (d.freeRun x (d.ent p).len).isSome) = some k) :
    ((d.mirrorRebuild p).ptnAt p).mirrored = true ∧ (d.mirrorRebuild p).ent p = d.mirroredEnt p k := by
  obtain ⟨e, hplaced⟩ := Dev.mirrorRebuild_places hprot hlost hlen hstack
  have hptn : ∀ x : Dev, (x.shareRegs [p]).ptn = x.ptn := fun x => Dev.ptn_of_tensor (Dev.shareRegs_tensor _ _)
  have hset : ∀ x : Ptn, (e.ptnSet p x).ptnAt p = x := fun x => Tab.get_set_same _ _ _ _
  rw [hplaced, Dev.ptnAt_of_ptn (hptn _), Dev.ent_of_ptn (hptn _)]
  exact ⟨congrArg Ptn.mirrored (hset _), congrArg Ptn.ent (hset _)⟩

/-! ### The obligation -/

/-- Settles O46. The run that a new mirror takes is the model's choice (log 42), as is the damage of every bundle by a failed stack of the
model store (log 44); the defects of die B are those of R19, counted as log 91 says. -/
theorem faultsAreTakenAndRemapped : Obligations.FaultsAreTakenAndRemapped := by
  refine ⟨?heartbeat, ?link, ?linkB, ?trip, ?burst, ?stack, ?store, ?core, ?lane, ?plane, ?start, ?restart, ?slice, ?restage, ?mirror⟩
  case heartbeat => exact fun s k det ha hup => ⟨_, Machine.live_next ha (fun d => d.dieFail k 0 det false), Dev.dieFail_queued hup 0 det false⟩
  case link => exact fun s k det ha hup => ⟨_, Machine.live_next ha (fun d => d.dieFail k 1 det false), Dev.dieFail_queued hup 1 det false⟩
  case linkB => exact fun s det ha hup => ⟨_, Machine.live_next ha (fun d => d.dieBFail), s.dev.dieBFail_lost, Dev.dieBFail_todo hup⟩
  case trip => exact fun s k det ha hup => ⟨_, Machine.live_next ha (fun d => d.dieFail k 2 det true), Dev.dieFail_queued hup 2 det true⟩
  case burst => exact fun s n det ha hup => ⟨_, Machine.live_next ha (fun d => d.hbmBurst n det), Dev.hbmBurst_queued hup det⟩
  case stack => exact fun s n det ha hup => ⟨_, Machine.live_next ha (fun d => d.hbmFail n det), Dev.hbmFail_queued hup det⟩
  case store => exact fun s n ha hup => ⟨_, Machine.live_next ha (fun d => d.msFail n), Dev.msFail_damages hup⟩
  case core => exact fun s c det ha hup => ⟨_, Machine.live_next ha (fun d => d.coreOut c det), Dev.coreOut_queued hup det⟩
  case lane => exact fun s ha => ⟨_, Machine.live_next ha (fun d => d.netDefect .lane), s.dev.netDefect_lane⟩
  case plane => exact fun s p ha hup => ⟨_, Machine.live_next ha (fun d => d.netDefect (.plane p)), Dev.netDefect_plane hup⟩
  case start =>
    exact fun s u cause det at_ rest ha hfree htodo hhit => ⟨_, Machine.live_next ha (fun d => d.remapStart), Dev.remapStart_begins hfree htodo hhit⟩
  case restart => exact fun s r m ha hcur hone hup => ⟨_, Machine.live_next ha (fun d => d.remapRestart), Dev.remapRestart_ends hcur hone hup⟩
  case slice => exact fun s c y ha hshared => ⟨_, Machine.live_next ha (fun d => d.timeShareSwitch c), Dev.timeShareSwitch_swaps hshared⟩
  case restage => exact fun s p ha hstate hfree => ⟨_, Machine.live_next ha (fun d => d.restageDone p), Dev.restageDone_serves hstate hfree⟩
  case mirror =>
    exact fun s p k ha hprot hlost hlen hstack => ⟨_, Machine.live_next ha (fun d => d.mirrorRebuild p), Dev.mirrorRebuild_valid hprot hlost hlen hstack⟩

end Sys2Proof
end

section
/-! The power loop, the thermal loop and the fixed hardware limits (chapters 16 and 18, R420, R422, R423, R456 to R460). From these the
obligation O51. -/

namespace Sys2Proof

/-! ### Fields of a word -/

theorem bits_mod_two_pow {h l n : Nat} (x : Nat) (hn : h < n) : bits (x % 2 ^ n) h l = bits x h l := by
  refine Nat.eq_of_testBit_eq fun i => ?_
  unfold bits
  rw [Nat.testBit_mod_two_pow, Nat.testBit_mod_two_pow, Nat.testBit_div_two_pow, Nat.testBit_div_two_pow, Nat.testBit_mod_two_pow]
  by_cases hi : i < h + 1 - l
  · simp [hi, show i + l < n by omega]
  · simp [hi]

/-- A field below the one written stays. -/
theorem bits_putBits_below {h' l : Nat} (x h v l' : Nat) (hbelow : h' < l) : bits (putBits x h l v) h' l' = bits x h' l' := by
  rw [← bits_mod_two_pow _ hbelow, ← bits_mod_two_pow x hbelow]
  have hle : 2 ^ l * bits x h l ≤ x := (Nat.mul_le_mul_left _ (Nat.mod_le _ _)).trans (Nat.mul_div_le _ _)
  rw [putBits, Nat.add_mul_mod_self_left, Nat.sub_mul_mod hle]

/-! ### The registers of the tensor-die clocks (R85, R477) -/

theorem Dev.dieReg_dieFld_same (d : Dev) (k h l v : Nat) : (d.dieFld k h l v).dieReg k = putBits (d.dieReg k) h l v % 2 ^ 32 :=
  Dev.rdN_wrN_same _ _ _

theorem Dev.dieReg_dieFld_other (d : Dev) {j k : Nat} (h l v : Nat) (hjk : k ≠ j) : (d.dieFld j h l v).dieReg k = d.dieReg k :=
  Dev.rdN_wrN_other _ _ (by unfold pwrReg; omega)

theorem Dev.dieReg_kForce_other (d : Dev) {j k : Nat} (v : Nat) (hjk : k ≠ j) : (d.kForce j v).dieReg k = d.dieReg k :=
  Dev.dieReg_dieFld_other _ _ _ _ hjk

theorem Dev.dieFld_pwr (d : Dev) (k h l v : Nat) : (d.dieFld k h l v).pwr = d.pwr := Dev.pwr_of_control (Dev.wrN_control _ _ _)

/-- What is written into a field of a die's register reads back. -/
theorem Dev.bits_dieFld_same (d : Dev) (k : Nat) {h l v : Nat} (hh : h < 32) (hv : v < 2 ^ (h + 1 - l)) :
    bits ((d.dieFld k h l v).dieReg k) h l = v := by
  rw [Dev.dieReg_dieFld_same, bits_mod_two_pow _ hh, bits_putBits_same, Nat.mod_eq_of_lt hv]

theorem Dev.bits_dieFld_below (d : Dev) (k : Nat) {h h' l : Nat} (v l' : Nat) (hh : h' < 32) (hbelow : h' < l) :
    bits ((d.dieFld k h l v).dieReg k) h' l' = bits (d.dieReg k) h' l' := by
  rw [Dev.dieReg_dieFld_same, bits_mod_two_pow _ hh, bits_putBits_below _ _ _ _ hbelow]

/-- Steps of one die each, over a list of dies: what the step of die k does to its register, the walk does. -/
theorem Dev.foldl_dieReg (f : Dev → Nat → Dev) (R : Nat → Nat → Prop) (k : Nat) (hother : ∀ d j, k ≠ j → (f d j).dieReg k = d.dieReg k)
    (hown : ∀ d, R (d.dieReg k) ((f d k).dieReg k)) (ks : List Nat) (honce : ks.Nodup) (hmem : k ∈ ks) (d : Dev) :
    R (d.dieReg k) ((ks.foldl f d).dieReg k) := by
  have hrest : ∀ (js : List Nat) (e : Dev), k ∉ js → (js.foldl f e).dieReg k = e.dieReg k := by
    intro js
    induction js with
    | nil => exact fun _ _ => rfl
    | cons j js ih =>
      intro e hnot
      rw [List.foldl_cons, ih _ (fun h => hnot (List.mem_cons_of_mem j h)), hother _ _ (fun h => hnot (h ▸ List.mem_cons_self))]
  induction ks generalizing d with
  | nil => exact absurd hmem (List.not_mem_nil)
  | cons j js ih =>
    obtain ⟨hfresh, htail⟩ := List.nodup_cons.mp honce
    rw [List.foldl_cons]
    by_cases hjk : k = j
    · subst hjk
      rw [hrest js _ hfresh]
      exact hown d
    · rw [← hother d j hjk]
      exact ih htail ((List.mem_cons.mp hmem).resolve_left hjk) (f d j)

theorem mem_dies {k : Nat} (hk : k < 4) : k ∈ upTo 4 := List.mem_range.mpr hk

/-- What each step of a walk leaves, the walk leaves. -/
theorem foldl_keeps {α β γ : Type} (f : α → β → α) (g : α → γ) (hf : ∀ a b, g (f a b) = g a) (bs : List β) (a : α) :
    g (bs.foldl f a) = g a := by
  induction bs generalizing a with
  | nil => rfl
  | cons b bs ih => rw [List.foldl_cons, ih, hf]

/-! ### The power loop (R419, R457 to R460) -/

/-- What the loop computes in a period and its steps leave: PWR_EST, the cap's register, the burst bucket and the arming. -/
def Dev.budget (d : Dev) : Nat × Nat × Nat × Bool := (d.rdN (pwrReg 0x20), d.rdN (pwrReg 4), d.pwr.bucket, d.pwr.armed)

theorem Dev.budget_of {d e : Dev} (hest : e.rdN (pwrReg 0x20) = d.rdN (pwrReg 0x20)) (hcap : e.rdN (pwrReg 4) = d.rdN (pwrReg 4))
    (hpwr : e.pwr = d.pwr) : e.budget = d.budget := by rw [Dev.budget, Dev.budget, hest, hcap, hpwr]

/-- A step that may be left out. -/
theorem Dev.budget_ite (c : Prop) [Decidable c] {d e : Dev} (h : e.budget = d.budget) : (if c then e else d).budget = d.budget := by
  split
  · exact h
  · rfl

theorem Dev.wrN_budget (d : Dev) {k : Nat} (v : Nat) (hest : k ≠ pwrReg 0x20) (hcap : k ≠ pwrReg 4) : (d.wrN k v).budget = d.budget :=
  Dev.budget_of (Dev.rdN_wrN_other _ _ (Ne.symm hest)) (Dev.rdN_wrN_other _ _ (Ne.symm hcap)) (Dev.pwr_of_control (Dev.wrN_control _ _ _))

theorem Dev.event_budget (d : Dev) : ∀ b, (d.event (pwrReg 0xC) b).budget = d.budget := fun b =>
  Dev.budget_of (Dev.rdN_event_other _ _ (by decide)) (Dev.rdN_event_other _ _ (by decide)) (Dev.pwr_of_control (Dev.event_control _ _ _))

theorem Dev.count64_budget (d : Dev) {k : Nat} (x : Nat) (hk : pwrReg 0x100 ≤ k) : (d.count64 k x).budget = d.budget := by
  have hest : pwrReg 0x20 < pwrReg 0x100 := by decide
  have hcap : pwrReg 4 < pwrReg 0x100 := by decide
  exact Dev.budget_of (Dev.rdN_count64_other _ _ (by omega) (by omega)) (Dev.rdN_count64_other _ _ (by omega) (by omega))
    (Dev.pwr_of_control (Dev.count64_control _ _ _))

theorem Dev.report_budget (d : Dev) (src code p det : Nat) {cls : Nat} (hcls : cls ≤ 3) : (d.report src code cls p det).budget = d.budget :=
  Dev.budget_of (Dev.rdN_report_other _ _ _ _ _ _ hcls (Or.inr (by decide))) (Dev.rdN_report_other _ _ _ _ _ _ hcls (Or.inr (by decide)))
    (Dev.pwr_of_control (Dev.report_control _ _ _ _ _ _))

theorem Dev.alarmSet_budget (d : Dev) (code inst : Nat) (set : Bool) (det : Nat) (force : Bool) :
    (d.alarmSet code inst set det force).budget = d.budget :=
  Dev.budget_of (Dev.alarmSet_rdN _ _ _ _ _ _ _) (Dev.alarmSet_rdN _ _ _ _ _ _ _) (Dev.pwr_of_control (Dev.alarmSet_control _ _ _ _ _ _))

theorem Dev.dieFld_budget (d : Dev) (k h l v : Nat) : (d.dieFld k h l v).budget = d.budget :=
  Dev.wrN_budget _ _ (by unfold pwrReg; omega) (by unfold pwrReg; omega)

theorem Dev.tclkSteps_budget (ks : List Nat) (d : Dev) : (d.tclkSteps ks).budget = d.budget := by
  induction ks generalizing d with
  | nil => rfl
  | cons k ks ih =>
    rw [Dev.tclkSteps, ih, Dev.tclkStep]
    split
    · rfl
    · exact Dev.dieFld_budget _ _ _ _ _

theorem Dev.railFail_budget (d : Dev) (r : Nat) : (d.railFail r).budget = d.budget := by
  unfold Dev.railFail
  dsimp only
  split
  · rw [Dev.count64_budget _ _ (by decide), Dev.report_budget _ _ _ _ _ (by decide)]
    rfl
  · rw [Dev.alarmSet_budget, Dev.count64_budget _ _ (by decide), Dev.report_budget _ _ _ _ _ (by decide)]
    rfl

theorem Dev.railOk_budget (d : Dev) (r : Nat) : (d.railOk r).budget = d.budget := by
  unfold Dev.railOk
  dsimp only
  split
  · rfl
  · rw [Dev.alarmSet_budget]
    rfl

theorem Dev.railReads_budget (rs : List (Nat × Option (Nat × Nat))) (d : Dev) : (d.railReads rs).budget = d.budget := by
  induction rs generalizing d with
  | nil => rfl
  | cons x rs ih =>
    obtain ⟨r, _ | ⟨v, i⟩⟩ := x
    · rw [Dev.railReads, ih, Dev.railFail_budget]
    · rw [Dev.railReads, ih, Dev.wrN_budget _ _ (by unfold pwrReg; omega) (by unfold pwrReg; omega), Dev.railOk_budget]

theorem Dev.stepPart_budget (d : Dev) (p : PPart) (v : Nat) : (d.stepPart p v).budget = d.budget := by
  cases p with
  | die k => rfl
  | hbm | ms => exact Dev.wrN_budget _ _ (by decide) (by decide)

theorem Dev.ceilWalk_budget (ps : List PPart) (d : Dev) : (d.ceilWalk ps).1.budget = d.budget := by
  induction ps with
  | nil => rfl
  | cons p ps ih =>
    rw [Dev.ceilWalk]
    split
    · exact (Dev.stepPart_budget _ _ _).trans ih
    · exact ih

theorem Dev.reduceWalk_budget (ps : List (PPart × Nat)) (d : Dev) (est : List Nat) (need got : Nat) (done : List PPart) :
    (d.reduceWalk est need got done ps).1.budget = d.budget := by
  induction ps generalizing d got done with
  | nil => rfl
  | cons x ps ih =>
    obtain ⟨p, lo⟩ := x
    rw [Dev.reduceWalk]
    dsimp only
    split
    · rfl
    · split
      · rw [ih, Dev.stepPart_budget]
      · exact ih _ _ _

theorem Dev.raiseOne_budget (d : Dev) (est : List Nat) (p c : Nat) : (d.raiseOne est p c).budget = d.budget := by
  unfold Dev.raiseOne
  split
  · exact Dev.stepPart_budget _ _ _
  · rfl

theorem Dev.pwrStat_budget (d : Dev) (run fallback limiting empty : Bool) : (d.pwrStat run fallback limiting empty).budget = d.budget :=
  Dev.wrN_budget _ _ (by decide) (by decide)

theorem low_bits_of_word (x y : Bool) (m : Nat) :
    bit ((b2n x + 2 * b2n y + 4 * m) % 2 ^ 32) 0 = x ∧ bit ((b2n x + 2 * b2n y + 4 * m) % 2 ^ 32) 1 = y := by
  rw [bit_mod_word _ (by decide), bit_mod_word _ (by decide)]
  unfold bit
  cases x <;> cases y <;> simp [b2n] <;> omega

/-- RUN and the fallback of PWR_STAT. -/
theorem Dev.pwrStat_bits (d : Dev) (run fallback limiting empty : Bool) :
    bit ((d.pwrStat run fallback limiting empty).rdN (pwrReg 8)) 0 = run ∧
    bit ((d.pwrStat run fallback limiting empty).rdN (pwrReg 8)) 1 = fallback := by
  let h : Nat → Nat := fun p => b2n (d.pwr.hot.contains p)
  have hword : (d.pwrStat run fallback limiting empty).rdN (pwrReg 8) = (b2n run + 2 * b2n fallback + 4 * (b2n limiting + 2 * b2n empty +
      4 * h 0 + 8 * h 1 + 16 * h 2 + 32 * h 3 + 64 * h 20 + 128 * h 21)) % 2 ^ 32 := by
    unfold Dev.pwrStat
    dsimp only
    rw [Dev.rdN_wrN_same]
    ring_nf
    rfl
  rw [hword]
  exact low_bits_of_word _ _ _

theorem Dev.quieted_budget (d : Dev) (n : Nat) : ({ d with pwr := { d.pwr with quiet := n } } : Dev).budget = d.budget := rfl

theorem Dev.cap_of_budget {d e : Dev} (h : e.budget = d.budget) : e.cap = d.cap := by
  have hcap : e.rdN (pwrReg 4) = d.rdN (pwrReg 4) := congrArg (fun x => x.2.1) h
  unfold Dev.cap
  rw [hcap]

theorem Dev.powerLoop_budget (d : Dev) (parts : List Nat) (rails : List (Nat × Option (Nat × Nat))) :
    ∃ cap, (d.powerLoop parts rails).budget =
      (packageEst (parts.take 8) % 2 ^ 32, cap, bucketNext d.pwr.bucket d.cap (packageEst (parts.take 8)), true) := by
  unfold Dev.powerLoop
  extract_lets est d0 c p e x _ pw d1 d2 r0 r1 cut peak d3 d4 d5 d6 d7 _ d8
  have hread : d0.budget = d.budget := (Dev.railReads_budget _ _).trans (Dev.tclkSteps_budget _ _)
  have hcap : c = d.cap := Dev.cap_of_budget hread
  have hbucket : e = bucketNext d.pwr.bucket d.cap p := by
    have hb : d0.pwr.bucket = d.pwr.bucket := congrArg (fun x => x.2.2.1) hread
    rw [← hcap, ← hb]
  have hset : d1.pwr.bucket = e ∧ d1.pwr.armed = true := by
    have hpwr : d1.pwr = pw := foldl_keeps _ (fun x : Dev => x.pwr) (fun _ _ => Dev.pwr_of_control (Dev.wrN_control _ _ _)) _ _
    rw [hpwr]
    exact ⟨rfl, rfl⟩
  have hshown : d2.budget = (p % 2 ^ 32, d2.rdN (pwrReg 4), e, true) := by
    have hest : d2.rdN (pwrReg 0x20) = p % 2 ^ 32 := by
      rw [Dev.rdN_wrN_other _ _ (by decide), Dev.rdN_wrN_other _ _ (by decide), Dev.rdN_wrN_same]
      rfl
    have hpwr : d2.pwr = d1.pwr := Dev.pwr_of_control (by rw [Dev.wrN_control, Dev.wrN_control, Dev.wrN_control])
    rw [Dev.budget, hest, hpwr, hset.1, hset.2]
  clear_value d2 e c
  have hceil : r0.1.budget = d2.budget := Dev.ceilWalk_budget _ _
  have hreduce : r1.1.budget = d2.budget := by
    simp only [r1]
    split
    · rw [Dev.reduceWalk_budget, hceil]
    · exact hceil
  clear_value r1
  have h3 : d3.budget = d2.budget := Eq.trans (Dev.budget_ite _ (Dev.raiseOne_budget _ _ _ _)) hreduce
  have h4 : d4.budget = d3.budget := Dev.budget_ite _ (Dev.event_budget _ _)
  have h5 : d5.budget = d4.budget := Dev.budget_ite _ (Dev.event_budget _ _)
  have h6 : d6.budget = d5.budget := Dev.budget_ite _ (Dev.count64_budget _ _ (by decide))
  have h7 : d7.budget = d6.budget := Dev.budget_ite _ (Dev.count64_budget _ _ (by decide))
  have h8 : d8.budget = d7.budget := Dev.quieted_budget _ _
  refine ⟨d2.rdN (pwrReg 4), ?_⟩
  rw [Dev.pwrStat_budget, h8, h7, h6, h5, h4, h3, hshown, hbucket]

/-- RUN is set at the end of a period. -/
theorem Dev.powerLoop_runs (d : Dev) (parts : List Nat) (rails : List (Nat × Option (Nat × Nat))) :
    bit ((d.powerLoop parts rails).rdN (pwrReg 8)) 0 = true := by
  unfold Dev.powerLoop
  extract_lets
  exact (Dev.pwrStat_bits _ _ _ _ _).1

/-- A period shows P, moves the bucket, arms the fallback and runs. -/
theorem Dev.powerLoop_period (d : Dev) (parts : List Nat) (rails : List (Nat × Option (Nat × Nat))) :
    (d.powerLoop parts rails).rdN (pwrReg 0x20) = packageEst (parts.take 8) % 2 ^ 32 ∧
    (d.powerLoop parts rails).pwr.bucket = bucketNext d.pwr.bucket d.cap (packageEst (parts.take 8)) ∧
    (d.powerLoop parts rails).pwr.armed = true ∧ bit ((d.powerLoop parts rails).rdN (pwrReg 8)) 0 = true := by
  obtain ⟨cap, hbudget⟩ := d.powerLoop_budget parts rails
  rw [Dev.budget, Prod.mk.injEq, Prod.mk.injEq, Prod.mk.injEq] at hbudget
  obtain ⟨hest, -, hbucket, harmed⟩ := hbudget
  exact ⟨hest, hbucket, harmed, d.powerLoop_runs parts rails⟩

/-! ### The thermal loop (R420) -/

/-- The move of die k's ceiling by its temperature. -/
def Dev.ceilStep (temps : List Int) (d : Dev) (k : Nat) : Dev :=
  if 950 < temps.getD k 0 then d.dieFld k 20 16 (max (d.dieLow k) (bits (d.dieReg k) 20 16 - 1))
  else if temps.getD k 0 < 920 then d.dieFld k 20 16 (min 16 (bits (d.dieReg k) 20 16 + 1)) else d

theorem Dev.ceilStep_other (temps : List Int) (d : Dev) {j k : Nat} (hjk : k ≠ j) : (d.ceilStep temps j).dieReg k = d.dieReg k := by
  unfold Dev.ceilStep
  split
  · exact Dev.dieReg_dieFld_other _ _ _ _ hjk
  · split
    · exact Dev.dieReg_dieFld_other _ _ _ _ hjk
    · rfl

theorem Dev.ceilStep_pwr (temps : List Int) (d : Dev) (k : Nat) : (d.ceilStep temps k).pwr = d.pwr := by
  unfold Dev.ceilStep
  split
  · exact Dev.dieFld_pwr _ _ _ _ _
  · split
    · exact Dev.dieFld_pwr _ _ _ _ _
    · rfl

theorem Dev.ceilStep_hot {temps : List Int} {k : Nat} (hhot : 950 < temps.getD k 0) (d : Dev) (hlow : d.dieLow k ≤ 16) :
    bits ((d.ceilStep temps k).dieReg k) 20 16 = max (d.dieLow k) (bits (d.dieReg k) 20 16 - 1) := by
  have hfield : bits (d.dieReg k) 20 16 < 32 := Nat.mod_lt _ (by decide)
  rw [Dev.ceilStep, if_pos hhot, Dev.bits_dieFld_same _ _ (by decide) (by omega)]

theorem Dev.ceilStep_cool {temps : List Int} {k : Nat} (hcool : temps.getD k 0 < 920) (d : Dev) :
    bits ((d.ceilStep temps k).dieReg k) 20 16 = min 16 (bits (d.dieReg k) 20 16 + 1) := by
  rw [Dev.ceilStep, if_neg (by omega), if_pos hcool, Dev.bits_dieFld_same _ _ (by decide) (by omega)]

/-- The device with the temperatures of a period. -/
def Dev.measuredTemps (d : Dev) (temps : List Int) : Dev := { d with pwr := { d.pwr with temps := temps.take 22 } }

theorem Dev.dieReg_measuredTemps (d : Dev) (temps : List Int) (k : Nat) : (d.measuredTemps temps).dieReg k = d.dieReg k := rfl

/-- A period leaves the dies' registers as the moves of the ceilings do, for the memory limits are in another register. -/
theorem Dev.thermalLoop_dieReg (d : Dev) (temps : List Int) (k : Nat) :
    (d.thermalLoop temps).dieReg k = ((upTo 4).foldl (Dev.ceilStep temps) (d.measuredTemps temps)).dieReg k := by
  have hmem : memReg 4 < pwrReg 0x60 := by decide
  have hother : pwrReg (0x60 + 4 * k) ≠ memReg 4 := by unfold pwrReg at *; omega
  exact ((Dev.rdN_wrN_other _ _ hother).trans (Dev.rdN_wrN_other _ _ hother)).trans rfl

theorem Dev.thermalLoop_temps (d : Dev) (temps : List Int) : (d.thermalLoop temps).pwr.temps = temps.take 22 := by
  have hwalk : ((upTo 4).foldl (Dev.ceilStep temps) (d.measuredTemps temps)).pwr = (d.measuredTemps temps).pwr :=
    foldl_keeps _ (fun x : Dev => x.pwr) (Dev.ceilStep_pwr temps) _ _
  have hpwr : ∀ (e : Dev) (v w : Nat), ((e.hbmLimSet v).msLimSet w).pwr = e.pwr := fun _ _ _ =>
    Dev.pwr_of_control (by rw [Dev.msLimSet, Dev.wrN_control, Dev.hbmLimSet, Dev.wrN_control])
  unfold Dev.thermalLoop
  extract_lets _ d0 d1 mem h m d2
  have hd2 : d2.pwr = d1.pwr := hpwr _ _ _
  have hd1 : d1.pwr = d0.pwr := hwalk
  exact congrArg Pwr.temps (hd2.trans hd1)

/-- A hot die's ceiling goes down one step, not below its lowest k. -/
theorem Dev.thermalLoop_hot {d : Dev} {temps : List Int} {k : Nat} (hk : k < 4) (hhot : 950 < temps.getD k 0) (hlow : d.dieLow k ≤ 16) :
    bits ((d.thermalLoop temps).dieReg k) 20 16 = max (d.dieLow k) (bits (d.dieReg k) 20 16 - 1) := by
  have hwalk := Dev.foldl_dieReg (Dev.ceilStep temps)
    (fun r r' => lowK (bits r 10 0) ≤ 16 → bits r' 20 16 = max (lowK (bits r 10 0)) (bits r 20 16 - 1)) k
    (fun e j hjk => e.ceilStep_other temps hjk) (fun e he => Dev.ceilStep_hot hhot e he) (upTo 4) (by decide) (mem_dies hk) (d.measuredTemps temps)
  rw [d.thermalLoop_dieReg]
  exact hwalk hlow

/-- A cool die's ceiling rises one step, to 16. -/
theorem Dev.thermalLoop_cool {d : Dev} {temps : List Int} {k : Nat} (hk : k < 4) (hcool : temps.getD k 0 < 920) :
    bits ((d.thermalLoop temps).dieReg k) 20 16 = min 16 (bits (d.dieReg k) 20 16 + 1) := by
  rw [d.thermalLoop_dieReg]
  exact Dev.foldl_dieReg (Dev.ceilStep temps) (fun r r' => bits r' 20 16 = min 16 (bits r 20 16 + 1)) k
    (fun e j hjk => e.ceilStep_other temps hjk) (fun e => Dev.ceilStep_cool hcool e) (upTo 4) (by decide) (mem_dies hk) (d.measuredTemps temps)

/-! ### The throttle (R422) -/

/-- A part enters the list of hot parts, with its event and its count. -/
def Dev.hotEnters (d : Dev) (part : Nat) : Dev :=
  if d.pwr.hot.contains part = false then
    (({ d with pwr := { d.pwr with hot := d.pwr.hot ++ [part] } } : Dev).event (pwrReg 0xC) 3).count64 (pwrReg 0x118) 1
  else d

/-- What the limit does to a part that is hot. -/
def Dev.throttled (d : Dev) (part : Nat) : Dev :=
  if part < 4 then (d.kForce part (max (d.dieLow part) (d.kNow part - 1))).dieFld part 21 21 1
  else if part = 20 then (upTo 4).foldl (fun (x : Dev) k => x.holdB k) d
  else if part = 21 then d.alarmSet 5 0 true 0 false
  else d

theorem Dev.hwThrottle_hot (d : Dev) (part : Nat) : d.hwThrottle part true = ((d.hotEnters part).throttled part).pwrHot := by
  unfold Dev.hwThrottle Dev.hotEnters
  rw [if_pos rfl]
  cases d.pwr.hot.contains part <;> rfl

theorem Dev.pwrHot_pwr (d : Dev) : d.pwrHot.pwr = d.pwr := Dev.pwr_of_control (Dev.wrN_control _ _ _)

theorem Dev.kForce_hot (d : Dev) (k v : Nat) : (d.kForce k v).pwr.hot = d.pwr.hot := by
  rw [Dev.kForce, Dev.dieFld_pwr]
  rfl

theorem Dev.holdB_hot (d : Dev) (k : Nat) : (d.holdB k).pwr.hot = d.pwr.hot := by
  unfold Dev.holdB
  split
  · exact Dev.kForce_hot _ _ _
  · split <;> rfl

/-- The limits themselves leave the list of hot parts. -/
theorem Dev.throttled_hot (d : Dev) (part : Nat) : (d.throttled part).pwr.hot = d.pwr.hot := by
  unfold Dev.throttled
  split
  · rw [Dev.dieFld_pwr, Dev.kForce_hot]
  · split
    · exact foldl_keeps _ (fun x : Dev => x.pwr.hot) Dev.holdB_hot _ _
    · split
      · rw [Dev.pwr_of_control (Dev.alarmSet_control _ _ _ _ _ _)]
      · rfl

/-- A part that becomes hot joins the list. -/
theorem Dev.hwThrottle_joins {d : Dev} {part : Nat} (hcool : d.pwr.hot.contains part = false) :
    (d.hwThrottle part true).pwr.hot = d.pwr.hot ++ [part] := by
  rw [Dev.hwThrottle_hot, Dev.pwrHot_pwr, Dev.throttled_hot, Dev.hotEnters, if_pos hcool, Dev.pwr_of_control (Dev.count64_control _ _ _),
    Dev.pwr_of_control (Dev.event_control _ _ _)]

/-- The registers of the dies do not move with the list of hot parts. -/
theorem Dev.dieReg_hotEnters (d : Dev) (part : Nat) {k : Nat} (hk : k < 4) : (d.hotEnters part).dieReg k = d.dieReg k := by
  have hregs : ∀ x : Pwr, ({ d with pwr := x } : Dev).rdN (pwrReg (0x60 + 4 * k)) = d.rdN (pwrReg (0x60 + 4 * k)) := fun _ => rfl
  unfold Dev.hotEnters
  split
  · exact ((Dev.rdN_count64_other _ _ (by unfold pwrReg; omega) (by unfold pwrReg; omega)).trans
      (Dev.rdN_event_other _ _ (by unfold pwrReg; omega))).trans (hregs _)
  · rfl

theorem Dev.dieReg_pwrHot (d : Dev) (k : Nat) : d.pwrHot.dieReg k = d.dieReg k := Dev.rdN_wrN_other _ _ (by unfold pwrReg; omega)

/-- A hot tensor die goes down one step, and shows its throttle. -/
theorem Dev.hwThrottle_die {d : Dev} {k : Nat} (hk : k < 4) (hlow : d.dieLow k ≤ 16) :
    (d.hwThrottle k true).kNow k = max (d.dieLow k) (d.kNow k - 1) ∧ bit ((d.hwThrottle k true).dieReg k) 21 = true := by
  have hreg := d.dieReg_hotEnters k hk
  have hlow' : (d.hotEnters k).dieLow k = d.dieLow k := by rw [Dev.dieLow, Dev.fSet, hreg]; rfl
  have hnow' : (d.hotEnters k).kNow k = d.kNow k := by rw [Dev.kNow, hreg]; rfl
  have hle := d.kNow_le k
  have hthrottled : (d.hwThrottle k true).dieReg k =
      (((d.hotEnters k).kForce k (max (d.dieLow k) (d.kNow k - 1))).dieFld k 21 21 1).dieReg k := by
    rw [Dev.hwThrottle_hot, Dev.dieReg_pwrHot, Dev.throttled, if_pos hk, hlow', hnow']
  refine ⟨?_, ?_⟩
  · have hforced := (d.hotEnters k).kNow_kForce k (max (d.dieLow k) (d.kNow k - 1))
    rw [Nat.mod_eq_of_lt (by omega)] at hforced
    rw [Dev.kNow, hthrottled, Dev.bits_dieFld_below _ _ _ _ (by decide) (by decide)]
    exact hforced
  · rw [hthrottled, Dev.dieReg_dieFld_same, bit_mod_word _ (by decide)]
    exact bit_putBits_same _ 21 true

/-- A part that is cool again leaves the list. -/
theorem Dev.hwThrottle_leaves {d : Dev} {part : Nat} (hhot : d.pwr.hot.contains part = true) :
    (d.hwThrottle part false).pwr.hot = d.pwr.hot.filter (fun x => decide (x ≠ part)) := by
  unfold Dev.hwThrottle
  rw [if_neg (by decide), if_pos hhot]
  dsimp only
  rw [Dev.pwrHot_pwr]
  split
  · rw [Dev.dieFld_pwr]
  · split
    · rw [Dev.pwr_of_control (Dev.alarmSet_control _ _ _ _ _ _)]
    · rfl

/-! ### The loss of the loop (R423) -/

/-- A tensor die at k = 8 or its lowest step; one under its own throttle keeps a lower k. -/
def Dev.fallDie (d : Dev) (k : Nat) : Dev :=
  d.kForce k (if bit (d.dieReg k) 21 then min (max 8 (d.dieLow k)) (d.kNow k) else max 8 (d.dieLow k))

/-- Both memory limits at 8. -/
def Dev.memFalls (d : Dev) : Dev := (d.hbmLimSet 8).msLimSet 8

/-- The event, the count, the entry and PWR_STAT of the fallback. -/
def Dev.fallShown (d : Dev) : Dev :=
  let e := ((d.event (pwrReg 0xC) 2).count64 (pwrReg 0x110) 1).report 0x12 9 1 0xFF 0
  e.pwrStat false true false (bit (e.rdN (pwrReg 8)) 3)

theorem Dev.loopLoss_falls {d : Dev} (harmed : d.pwr.armed = true) (hquiet : bit (d.rdN (pwrReg 8)) 1 = false) :
    d.loopLoss = ((upTo 4).foldl Dev.fallDie d).memFalls.fallShown := by
  unfold Dev.loopLoss
  rw [if_pos (by simp [harmed, hquiet])]
  rfl

theorem Dev.rdN_fallShown (d : Dev) {k : Nat} (hk : k = memReg 4 ∨ pwrReg 0x60 ≤ k ∧ k < pwrReg 0x100) : d.fallShown.rdN k = d.rdN k := by
  have hmem : memReg 4 < pwrReg 8 := by decide
  have hcount : pwrReg 0x100 ≤ pwrReg 0x110 := by decide
  have hstat : pwrReg 8 < pwrReg 0x60 := by decide
  have hdies : pwrReg 0x60 < pwrReg 0x100 := by decide
  have hevent : pwrReg 0xC < pwrReg 0x60 := by decide
  have hstat' : pwrReg 8 < pwrReg 0xC := by decide
  have herl : erlBase + 0x50 ≤ memReg 4 := by decide
  unfold Dev.fallShown
  dsimp only
  rw [Dev.pwrStat, Dev.rdN_wrN_other _ _ (by omega), Dev.rdN_report_other _ _ _ _ _ _ (by decide) (Or.inr (by omega)),
    Dev.rdN_count64_other _ _ (by omega) (by omega), Dev.rdN_event_other _ _ (by omega)]

theorem Dev.memFalls_limits (d : Dev) : bits (d.memFalls.rdN (memReg 4)) 12 8 = 8 ∧ bits (d.memFalls.rdN (memReg 4)) 4 0 = 8 := by
  unfold Dev.memFalls Dev.msLimSet Dev.hbmLimSet
  rw [Dev.rdN_wrN_same, Dev.rdN_wrN_same]
  unfold bits putBits bits
  omega

theorem Dev.dieReg_memFalls (d : Dev) (k : Nat) : d.memFalls.dieReg k = d.dieReg k := by
  have hother : pwrReg (0x60 + 4 * k) ≠ memReg 4 := by unfold pwrReg memReg memBase pwrBase; omega
  exact (Dev.rdN_wrN_other _ _ hother).trans (Dev.rdN_wrN_other _ _ hother)

theorem Dev.fallDie_kNow {d : Dev} {k : Nat} (hown : bit (d.dieReg k) 21 = false) (hlow : d.dieLow k ≤ 16) :
    (d.fallDie k).kNow k = max 8 (d.dieLow k) := by
  rw [Dev.fallDie, if_neg (by simp [hown]), Dev.kNow_kForce, Nat.mod_eq_of_lt (by omega)]

/-- Without the loop every tensor die stands at k = 8 or its lowest step, and both memory limits at 8. -/
theorem Dev.loopLoss_limits {d : Dev} (harmed : d.pwr.armed = true) (hquiet : bit (d.rdN (pwrReg 8)) 1 = false) :
    d.loopLoss.hbmLim = 8 ∧ d.loopLoss.msLim = 8 ∧ bit (d.loopLoss.rdN (pwrReg 8)) 1 = true ∧
    ∀ k, k < 4 → bit (d.dieReg k) 21 = false → d.dieLow k ≤ 16 → d.loopLoss.kNow k = max 8 (d.dieLow k) := by
  obtain ⟨hhbm, hms⟩ := ((upTo 4).foldl Dev.fallDie d).memFalls_limits
  rw [Dev.loopLoss_falls harmed hquiet]
  refine ⟨?_, ?_, (Dev.pwrStat_bits _ _ _ _ _).2, fun k hk hown hlow => ?_⟩
  · rw [Dev.hbmLim, Dev.rdN_fallShown _ (Or.inl rfl), hhbm]
  · rw [Dev.msLim, Dev.rdN_fallShown _ (Or.inl rfl), hms]
  · have hwalk := Dev.foldl_dieReg Dev.fallDie
      (fun r r' => bit r 21 = false → lowK (bits r 10 0) ≤ 16 → bits r' 15 11 = max 8 (lowK (bits r 10 0))) k
      (fun e j hjk => Dev.dieReg_kForce_other _ _ hjk) (fun e ho hl => Dev.fallDie_kNow (d := e) ho hl) (upTo 4) (by decide) (mem_dies hk) d
    have hshown : ∀ e : Dev, e.fallShown.dieReg k = e.dieReg k := fun e =>
      Dev.rdN_fallShown e (Or.inr ⟨by unfold pwrReg; omega, by unfold pwrReg; omega⟩)
    rw [Dev.kNow, hshown, Dev.dieReg_memFalls]
    exact hwalk hown hlow

/-! ### The fixed limits (R422) -/

theorem Dev.dieFLoss_lost (d : Dev) : d.dieFLoss.flow.dieFLost = true ∧ d.dieFLoss.flow.failsafe = true := by
  refine ⟨?_, Dev.failsafeAssert_low _⟩
  unfold Dev.dieFLoss Dev.failsafeAssert
  split <;> rfl

theorem Dev.hwShutdown_die (d : Dev) {k : Nat} (det : Nat) (hk : k < 4) : d.hwShutdown k det = d.dieFail k 2 det true := if_pos hk

theorem Dev.hwShutdown_hbm (d : Dev) {k : Nat} (det : Nat) (hlo : 4 ≤ k) (hhi : k < 12) : d.hwShutdown k det = d.hbmFail (k - 4) det := by
  rw [Dev.hwShutdown, if_neg (by omega), if_pos hhi]

theorem Dev.hwShutdown_ms (d : Dev) {k : Nat} (det : Nat) (hlo : 12 ≤ k) (hhi : k < 20) : d.hwShutdown k det = d.msFail (k - 12) := by
  rw [Dev.hwShutdown, if_neg (by omega), if_neg (by omega), if_pos hhi]

/-! ### The obligation -/

/-- Settles O51. That a thermal period moves each ceiling by one step is the model's reading (log 82); the fall of PGOOD_Td is R456. -/
theorem thePowerAndThermalLoopsAct : Obligations.ThePowerAndThermalLoopsAct := by
  refine ⟨?period, ?hotDie, ?coolDie, ?joins, ?steps, ?leaves, ?die, ?hbm, ?store, ?dieB, ?dieF, ?loss, ?pgood⟩
  case period => exact fun s parts rails ha => ⟨_, Machine.live_next ha (fun d => d.powerLoop parts rails), s.dev.powerLoop_period parts rails⟩
  case hotDie =>
    exact fun s temps k ha hhot hlow => ⟨_, Machine.live_next ha (fun d => d.thermalLoop temps), s.dev.thermalLoop_temps temps,
      Dev.thermalLoop_hot k.isLt hhot hlow⟩
  case coolDie =>
    exact fun s temps k ha hcool => ⟨_, Machine.live_next ha (fun d => d.thermalLoop temps), s.dev.thermalLoop_temps temps,
      Dev.thermalLoop_cool k.isLt hcool⟩
  case joins => exact fun s p ha hcool => ⟨_, Machine.live_next ha (fun d => d.hwThrottle p true), Dev.hwThrottle_joins hcool⟩
  case steps => exact fun s p ha hp hlow => ⟨_, Machine.live_next ha (fun d => d.hwThrottle p true), Dev.hwThrottle_die hp hlow⟩
  case leaves => exact fun s p ha hhot => ⟨_, Machine.live_next ha (fun d => d.hwThrottle p false), Dev.hwThrottle_leaves hhot⟩
  case die =>
    intro s p det ha hp hup
    obtain ⟨hdie, -, htodo⟩ := Dev.dieFail_queued hup 2 det true
    refine ⟨_, Machine.live_next ha (fun d => d.hwShutdown p det), ?_⟩
    dsimp only
    rw [Dev.hwShutdown_die _ _ hp]
    exact ⟨hdie, htodo⟩
  case hbm =>
    intro s p det ha hlo hhi hup
    refine ⟨_, Machine.live_next ha (fun d => d.hwShutdown p det), ?_⟩
    dsimp only
    rw [Dev.hwShutdown_hbm _ _ hlo hhi]
    exact Dev.hbmFail_queued hup det
  case store =>
    intro s p det ha hlo hhi hup
    refine ⟨_, Machine.live_next ha (fun d => d.hwShutdown p det), ?_⟩
    dsimp only
    rw [Dev.hwShutdown_ms _ _ hlo hhi]
    exact (Dev.msFail_damages hup).1
  case dieB => exact fun s det ha _ => ⟨_, Machine.live_next ha (fun d => d.hwShutdown 20 det), s.dev.dieBFail_lost⟩
  case dieF => exact fun s det ha => ⟨_, Machine.live_next ha (fun d => d.hwShutdown 21 det), s.dev.dieFLoss_lost⟩
  case loss => exact fun s ha harmed hquiet => ⟨_, Machine.live_next ha (fun d => d.loopLoss), Dev.loopLoss_limits harmed hquiet⟩
  case pgood =>
    intro s k det ha hup
    obtain ⟨hdie, -, htodo⟩ := Dev.dieFail_queued hup 0 det false
    exact ⟨_, Machine.live_next ha (fun d => d.pgoodFall k det), hdie, htodo⟩

end Sys2Proof
end

section
/-! Boot and the straps (chapter 18, R471, R491): the straps that a boot is given stand in PWR_STRAPS. From this the obligation O52. -/

namespace Sys2Proof

/-! ### The registers that boot loads (R471) -/

/-- Steps that each leave a register leave it together. -/
theorem Dev.rd_foldl_keeps {k : Nat} (f : Dev → Nat → Dev) (us : List Nat) (hf : ∀ d, ∀ u ∈ us, (f d u).rd k = d.rd k) (d : Dev) :
    (us.foldl f d).rd k = d.rd k := by
  induction us generalizing d with
  | nil => rfl
  | cons u us ih =>
    rw [List.foldl_cons, ih (fun e v hv => hf e v (List.mem_cons_of_mem u hv)), hf d u List.mem_cons_self]

/-- The registers that the rest of a boot leaves: those below the error log's, and PWR_RESET and PWR_STRAPS. -/
def bootLeaves (k : Nat) : Prop := k < erlBase ∨ pwrReg 0x14 ≤ k ∧ k < pwrReg 0x20

theorem Dev.rd_bootRegs (d : Dev) {k : Nat} (hk : bootLeaves k) : d.bootRegs.rd k = d.rd k := by
  unfold bootLeaves erlBase pwrReg pwrBase at hk
  have hb : ∀ u ∈ upTo 8, u < 8 := fun u hu => List.mem_range.mp hu
  have hn : ∀ u ∈ upTo 32, u < 32 := fun u hu => List.mem_range.mp hu
  unfold Dev.bootRegs
  dsimp only
  rw [Dev.rd_secRegs _ (by unfold secBase; omega), Dev.msRefresh, Dev.wr64, Dev.rd_wrN_other _ _ (by unfold memReg memBase; omega),
    Dev.rd_wrN_other _ _ (by unfold memReg memBase; omega), Dev.rd_wrN_other _ _ (by unfold memReg memBase; omega),
    Dev.rd_wrN_other _ _ (by unfold memReg memBase; omega),
    Dev.rd_foldl_keeps _ _ (fun e n h => Dev.rd_wrN_other _ _ (by have := hn n h; unfold prt prtBase; omega)),
    Dev.rd_foldl_keeps _ _ (fun e b h => Dev.rd_wrN_other _ _ (by have := hb b h; unfold prtBase; omega)),
    Dev.rd_wrN_other _ _ (by unfold pwrReg pwrBase; omega), Dev.rd_wrN_other _ _ (by unfold pwrReg pwrBase; omega),
    Dev.rd_wrN_other _ _ (by unfold pwrReg pwrBase; omega),
    Dev.rd_foldl_keeps _ _ (fun e n _ => Dev.rd_wrN_other _ _ (by unfold pwrReg pwrBase; omega))]

theorem Dev.rd_tmuRegs (d : Dev) {k : Nat} (hk : bootLeaves k) : d.tmuRegs.rd k = d.rd k := by
  unfold bootLeaves erlBase pwrReg pwrBase at hk
  unfold Dev.tmuRegs
  dsimp only
  rw [Dev.rd_wrN_other _ _ (by unfold tmuReg tmuBase; omega), Dev.rd_wrN_other _ _ (by unfold tmuReg tmuBase; omega)]

theorem Dev.rd_boardBad (d : Dev) {k : Nat} (hk : bootLeaves k) : d.boardBad.rd k = d.rd k := by
  unfold bootLeaves at hk
  have herl : erlBase + 0x50 ≤ pwrReg 0x14 := by decide
  have hevent : pwrReg 0xC < pwrReg 0x14 := by decide
  have hlow : erlBase < pwrReg 0xC := by decide
  unfold Dev.boardBad
  split
  · rfl
  · rw [Dev.rd_report_other _ _ _ _ _ _ (by decide) (by omega), Dev.rd_event_other _ _ (by omega)]

/-! ### Boot (R471) -/

/-- The device at a boot with everything volatile lost, the board and the pins read. -/
def Dev.powered (d : Dev) (b : BootIn) : Dev :=
  let board := if b.nor then b.board.take 256 else []
  { d.cold with
    alive := true
    pwr := { d.cold.pwr with vhold := true, porst := true, board := board, boardErr := boardCheck board, nor := b.nor, planes := b.planes % 4,
                             spareLanes := b.spareLanes }
    ptn := { d.cold.ptn with hbm := stackTab b.hbmBad, ms := stackTab b.msBad }
    tmu := { refIn := b.refIn } }

/-- The straps and what they and the fuses load. -/
def Dev.strapped (d : Dev) (straps : Nat) : Dev := (d.wrN (pwrReg 0x1C) straps).bootRegs

/-- The time unit and PWR_RESET at a boot. -/
def Dev.timed (d : Dev) (cause : Nat) (restart : Bool) : Dev := ((d.wrN (tmuBase + 8) d.strapPrio).tmuRegs).resetWord cause restart 0

theorem Dev.boot_eq (d : Dev) (b : BootIn) (restart : Bool) :
    ∃ cause, d.boot b restart = (((d.powered b).strapped (b.straps % 2 ^ 20)).timed cause restart).headLoad.newChallenge.boardBad := ⟨_, rfl⟩

theorem Dev.rd_timed (d : Dev) (cause : Nat) (restart : Bool) {k : Nat} (hk : bootLeaves k) (hother : k ≠ pwrReg 0x14) :
    (d.timed cause restart).rd k = d.rd k := by
  have htmu : k ≠ tmuBase + 8 := by
    unfold bootLeaves erlBase pwrReg pwrBase at hk
    unfold tmuBase
    omega
  rw [Dev.timed, Dev.resetWord, Dev.rd_wrN_other _ _ hother, Dev.rd_tmuRegs _ hk, Dev.rd_wrN_other _ _ htmu]

theorem Dev.rd_challenged (d : Dev) (k : Nat) : d.headLoad.newChallenge.rd k = d.rd k := rfl

/-- A booted device shows the straps that its boot was given. -/
theorem Dev.boot_straps (d : Dev) (b : BootIn) (restart : Bool) : (d.boot b restart).rdN (pwrReg 0x1C) = b.straps % 2 ^ 20 := by
  have hleaves : bootLeaves (pwrReg 0x1C) := Or.inr (by decide)
  obtain ⟨cause, hboot⟩ := d.boot_eq b restart
  have hrd : (d.boot b restart).rd (pwrReg 0x1C) = ((d.powered b).wrN (pwrReg 0x1C) (b.straps % 2 ^ 20)).rd (pwrReg 0x1C) := by
    rw [hboot, Dev.rd_boardBad _ hleaves, Dev.rd_challenged, Dev.rd_timed _ _ _ hleaves (by decide), Dev.strapped, Dev.rd_bootRegs _ hleaves]
  rw [Dev.rdN, hrd, Dev.rd_wrN_same, BitVec.toNat_ofNat]
  omega

/-! ### The obligation -/

/-- VHOLD that rises with an edge waiting boots with the pins as they are now (R491). -/
theorem Dev.vholdRise_boots {d : Dev} {b : BootIn} (hdead : d.alive = false) (hidle : d.pwr.saving = none) (hpend : d.pwr.porstPend.isSome = true) :
    d.vholdRise b = d.boot b false := by
  rw [Dev.vholdRise, if_neg (by simp [hdead, hidle]), if_pos hpend]

theorem Machine.exec_vholdRise (s : Machine.State) (b : BootIn) :
    Machine.exec (.vholdRise b) s = .next { s with dev := s.dev.vholdRise b } := rfl

/-- A device without supply whose rising edge of PORST_N came while the straps stood at 0. -/
def edgeWaits : Machine.State := { dev := { pwr := { porst := true, porstPend := some {} } } }

/-- The pins when VHOLD rises: one strap is now up. -/
def strapUp : BootIn := { straps := 1 }

/-- Refutes O52: its third clause lets VHOLD latch the straps as they stood at the waiting edge of PORST_N. They latch at the later of the two
edges (R491), so at the rise of VHOLD: with a strap that came up between the edges, PWR_STRAPS is 1 where the clause says 0. -/
theorem not_thePowerStateMovesWithItsSupplies : ¬ Obligations.ThePowerStateMovesWithItsSupplies := by
  unfold Obligations.ThePowerStateMovesWithItsSupplies
  intro h
  obtain ⟨-, -, hvhold, -⟩ := h
  obtain ⟨t, ht, -, hstraps, -⟩ := hvhold edgeWaits strapUp {} rfl rfl rfl
  have hboots : edgeWaits.dev.vholdRise strapUp = edgeWaits.dev.boot strapUp false := Dev.vholdRise_boots rfl rfl rfl
  rw [Machine.exec_vholdRise, hboots, Host.Outcome.next.injEq] at ht
  rw [← ht] at hstraps
  exact absurd ((edgeWaits.dev.boot_straps strapUp false).symm.trans hstraps) (by decide)

end Sys2Proof
end

section
/-! Control of the tensor cores (chapters 4 and 14, R115, R119, R120, R122, R123, R363, R500): what each operation does to its core, the
message CORE_CTRL and TEN_CTRL that ask for them, and the save of a frozen core. From these the obligation O21. -/

namespace Sys2Proof

/-! ### The operations on a core -/

/-- RUN starts an idle core whose first descriptor lies in the store. -/
theorem Dev.tenRun_starts {d : Dev} {c : Nat} (hidle : (d.coreAt c).st = .idle) (hpc : d.pc c + 64 ≤ csSize) :
    d.tenRun c = (d.coreSet c { d.coreAt c with st := .run, errcode := 0, pcSet := false, ctr := [0, 0, 0, 0], waiting := none, cur := none }).wrN
      (tenReg c 0x24) 0 := by
  have hinside : ∀ x : Core, ¬ csSize < ((d.coreSet c x).wrN (tenReg c 0x24) 0).pc c + 64 := fun x => by
    have hkept : ((d.coreSet c x).wrN (tenReg c 0x24) 0).pc c = d.pc c := Dev.rdN_wrN_other _ _ (tenReg_ne (by decide))
    omega
  unfold Dev.tenRun
  dsimp only
  rw [if_pos (Or.inl hidle), Dev.fetchCheck, if_neg (fun h => hinside _ h.2)]

/-- A core that is stopped for a save. -/
def Core.freezes (x : Core) : Core := { x with st := .freezing, waiting := none }

/-- PREEMPT freezes a core at work. -/
theorem Dev.tenPreempt_freezes {d : Dev} {c : Nat} (hwork : (d.coreAt c).st = .run ∨ (d.coreAt c).st = .wait) :
    d.tenPreempt c = (d.unwait c).coreUpd c Core.freezes := by
  unfold Dev.tenPreempt
  rcases hwork with h | h <;> rw [h] <;> rfl

/-- The save record at TEN_SAVEBASE lies in the share and is that of a core that was idle. -/
def Dev.idleSave (d : Dev) (c : Nat) : Prop :=
  d.inShare (d.corePtn c) (d.saveBase c) 9728 = true ∧ subN (d.shRead (d.corePtn c) (d.saveBase c) 9728) 0 1 = 1 ∧
    bit (subN (d.shRead (d.corePtn c) (d.saveBase c) 9728) 3 1) 0 = true ∧ bit (subN (d.shRead (d.corePtn c) (d.saveBase c) 9728) 3 1) 1 = false

/-- RESUME of an idle save brings a saved core to IDLE. -/
theorem Dev.tenResume_idle {d : Dev} {c : Nat} (hsaved : (d.coreAt c).st = .saved) (hsave : d.idleSave c) :
    d.tenResume c = d.coreSet c { d.coreAt c with st := .idle, errcode := 0 } := by
  obtain ⟨hshare, hversion, hvalid, hrun⟩ := hsave
  unfold Dev.tenResume
  dsimp only
  rw [if_pos (Or.inr hsaved), if_pos hshare, if_pos (by simp [hversion, hvalid, hrun])]

theorem Dev.lckForceList_mem (ns : List Nat) (d : Dev) (row : Nat) : (d.lckForceList row ns).mem = d.mem := by
  have hforce : ∀ (e : Dev) (n : Nat), (e.lckForce n row).mem = e.mem := fun e n => by
    unfold Dev.lckForce
    dsimp only
    split
    · rw [Dev.report_mem, Dev.mem_of_tensor (Dev.count_tensor _ _ _)]
      rfl
    · rfl
  induction ns generalizing d with
  | nil => rfl
  | cons n ns ih => rw [Dev.lckForceList, ih, hforce]

/-- RESET brings a core in service to IDLE, and leaves LOCK, the memories and the mailboxes. -/
theorem Dev.tenReset_idle {d : Dev} {c : Nat} (hup : d.coreUp c = true) :
    ((d.tenReset c).coreAt c).st = .idle ∧ ((d.tenReset c).coreAt c).lock = (d.coreAt c).lock ∧ (d.tenReset c).mem = d.mem ∧
    (d.tenReset c).hostRest = d.hostRest := by
  unfold Dev.tenReset
  dsimp only
  rw [hup, Dev.coreAt_of_tensor (Dev.tenRegsReset_tensor _ _), Dev.coreAt_coreSet_same, Dev.mem_of_tensor (Dev.tenRegsReset_tensor _ _),
    Dev.coreSet_mem, Dev.lckForceList_mem, Dev.mem_of_tensor (Dev.unwait_tensor _ _), Dev.tenRegsReset_hostRest, Dev.coreSet_hostRest,
    Dev.lckForceList_hostRest, Dev.unwait_hostRest]
  exact ⟨rfl, rfl, rfl, rfl⟩

/-! ### CORE_CTRL (R363) -/

/-- A mailbox's event lies in no TEN block. -/
theorem Dev.rdN_answer_ten (d : Dev) (n : Nat) (c : MbxMsg) (st : Nat) (pl : List Byte) {k off : Nat} (hoff : off < 0x2000) :
    (d.answer (some n) c st pl).rdN (tenReg k off) = d.rdN (tenReg k off) := by
  have hevent : ∀ e : Dev, (e.mbxEvent (some n) 0).rdN (tenReg k off) = e.rdN (tenReg k off) := fun e =>
    Dev.rdN_event_other e 0 (show tenReg k off ≠ vfBase n + mbxBase + 0x2008 by unfold tenReg tenBase vfBase mbxBase; omega)
  unfold Dev.answer Dev.mbxRespond Dev.mbxDeliver
  dsimp only
  split
  · rfl
  · split
    · rfl
    · exact (hevent _).trans rfl

/-- What an operation of CORE_CTRL makes of the device before its answer. -/
abbrev CoreOp := Dev → Nat → Nat → Nat → Dev

/-- A message CORE_CTRL that names a rank with a core is carried out and answered with the TEN_STATUS that results; the answer leaves the
cores, the memories and the TEN registers as the operation left them. -/
theorem Dev.coreCtrl_acts {d : Dev} {n op k : Nat} {c : MbxMsg} {f : CoreOp} (hasked : d.asked (some n) 0x41 c = true)
    (hop : subN c.payload 1 1 = op) (hcore : d.coreOfRank n (subN c.payload 0 1) = some k)
    (hrest : (f d (subN c.payload 0 1) k (subN c.payload 8 8)).hostRest = d.hostRest) :
    (d.coreCtrl n op f).coreAt k = (f d (subN c.payload 0 1) k (subN c.payload 8 8)).coreAt k ∧
    (d.coreCtrl n op f).mem = (f d (subN c.payload 0 1) k (subN c.payload 8 8)).mem ∧
    (∀ off, off < 0x2000 → (d.coreCtrl n op f).rdN (tenReg k off) = (f d (subN c.payload 0 1) k (subN c.payload 8 8)).rdN (tenReg k off)) ∧
    Answered (d.coreCtrl n op f) (some n) c 0 (leBytes 4 ((d.coreCtrl n op f).tenStatus k)) := by
  obtain ⟨hmsg, hresp, hdiscard⟩ := Dev.asked_msg hasked
  have hk : k < 32 := by
    unfold Dev.coreOfRank at hcore
    split at hcore
    · split at hcore
      · next hlt => exact Option.some.inj hcore ▸ hlt
      · exact absurd hcore (by simp)
    · exact absurd hcore (by simp)
  have hacts : d.coreCtrl n op f = (f d (subN c.payload 0 1) k (subN c.payload 8 8)).answer (some n) c 0
      (leBytes 4 ((f d (subN c.payload 0 1) k (subN c.payload 8 8)).tenStatus k)) := by
    unfold Dev.coreCtrl
    rw [hmsg]
    dsimp only
    rw [if_neg (by simp [hop]), hcore]
  generalize f d (subN c.payload 0 1) k (subN c.payload 8 8) = e at hacts hrest ⊢
  have hmbx : e.mbxAt (some n) = d.mbxAt (some n) := Dev.mbxAt_of_rest hrest _
  have hcoreAt : (d.coreCtrl n op f).coreAt k = e.coreAt k := by
    rw [hacts]
    exact Dev.coreAt_of_tensor (Dev.answer_tensor _ _ _ _ _) k
  have hstatus : (d.coreCtrl n op f).tenStatus k = e.tenStatus k := by rw [Dev.tenStatus, hcoreAt, Dev.tenStatus]
  refine ⟨hcoreAt, ?_, fun off hoff => ?_, ?_⟩
  · rw [hacts]
    exact Dev.mem_of_tensor (Dev.answer_tensor _ _ _ _ _)
  · rw [hacts, Dev.rdN_answer_ten _ _ _ _ _ hoff]
  · rw [hstatus, hacts]
    exact Dev.answer_mbx _ _ _ _ _ (by rw [hmbx, hresp]) (by rw [hmbx, hdiscard])

/-- CORE_CTRL's set-PC of the VF n. -/
def Dev.setPcOp (n : Nat) : CoreOp := fun d r k v =>
  if (d.coreAt k).lock then d.coreSetHeld n r 0x0C
  else (d.wrN (tenReg k 0x0C) (v % 2 ^ 32 / 64 * 64)).coreUpd k (fun x => { x with pcSet := true })

/-- CORE_CTRL's set-savebase of the VF n. -/
def Dev.setSaveOp (n : Nat) : CoreOp := fun d r k v =>
  if (d.coreAt k).lock then d.coreSetHeld n r 0x18
  else (d.wrN (tenReg k 0x18) (v % 2 ^ 32 / 16384 * 16384)).wrN (tenReg k 0x1C) (v / 2 ^ 32 % 256)

theorem Dev.setPcOp_open {d : Dev} {k : Nat} (hopen : (d.coreAt k).lock = false) (n r v : Nat) :
    Dev.setPcOp n d r k v = (d.wrN (tenReg k 0x0C) (v % 2 ^ 32 / 64 * 64)).coreUpd k (fun x => { x with pcSet := true }) :=
  if_neg (by simp [hopen])

theorem Dev.setSaveOp_open {d : Dev} {k : Nat} (hopen : (d.coreAt k).lock = false) (n r v : Nat) :
    Dev.setSaveOp n d r k v = (d.wrN (tenReg k 0x18) (v % 2 ^ 32 / 16384 * 16384)).wrN (tenReg k 0x1C) (v / 2 ^ 32 % 256) :=
  if_neg (by simp [hopen])

/-! ### TEN_CTRL (R122, R500) -/

/-- One write of TEN_CTRL of a requester that direct mode lets through: the first operation named is carried out. -/
theorem Dev.tenCtrl_acts {d : Dev} {who : Req} {c : Nat} (hopen : d.tenDenied who c = none) :
    d.tenCtrl who c 1 = d.tenRun c ∧ d.tenCtrl who c 2 = d.tenPreempt c ∧ d.tenCtrl who c 4 = d.tenResume c ∧ d.tenCtrl who c 8 = d.tenReset c := by
  unfold Dev.tenCtrl
  rw [hopen]
  exact ⟨rfl, rfl, rfl, rfl⟩

theorem Dev.tenCtrl_lock {d : Dev} {who : Req} {c : Nat} (hopen : d.tenDenied who c = none) (hset : who.maySetLock = true) :
    d.tenCtrl who c (2 ^ 31) = d.tenLock c := by
  unfold Dev.tenCtrl
  rw [hopen, hset]
  rfl

/-- A write of TEN_CTRL's operations by a requester that is no firmware component. -/
theorem Machine.live_tenCtrl {s : Machine.State} {who : Req} (ha : s.dev.alive = true) (ho : s.dev.reqOpen who = true) (hw : who.isFw = false)
    (key : Nat) (f : Dev → Dev) : Machine.live s (fun d => d.writeDo who key false f) = .next { s with dev := f s.dev } := by
  rw [Machine.live_next ha, Dev.writeDo_host ho hw]

/-! ### The save of a frozen core (R115) -/

/-- What the save of core c rests on: the partitions, TEN_SAVEBASE, and the count of saves. -/
def Dev.saveSlot (d : Dev) (c : Nat) : PtnAll × Nat × Nat × Nat :=
  (d.ptn, d.rdN (tenReg c 0x18), d.rdN (tenReg c 0x1C), (d.coreAt c).saves)

theorem Dev.saveSlot_of {d e : Dev} {c : Nat} (hptn : e.ptn = d.ptn) (hlow : e.rdN (tenReg c 0x18) = d.rdN (tenReg c 0x18))
    (hhigh : e.rdN (tenReg c 0x1C) = d.rdN (tenReg c 0x1C)) (hcore : e.coreAt c = d.coreAt c) : e.saveSlot c = d.saveSlot c := by
  rw [Dev.saveSlot, hptn, hlow, hhigh, hcore, Dev.saveSlot]

theorem Dev.count_saveSlot (d : Dev) (c : Nat) {off : Nat} (x : Nat) (hoff : 0x20 ≤ off) : (d.count (tenReg c off) x).saveSlot c = d.saveSlot c :=
  Dev.saveSlot_of (Dev.ptn_of_tensor (Dev.count_tensor _ _ _)) (Dev.rdN_count_other _ _ (tenReg_ne (by omega)))
    (Dev.rdN_count_other _ _ (tenReg_ne (by omega))) (Dev.coreAt_count _ _ _ _)

theorem Dev.tally_saveSlot (d : Dev) (c : Nat) (t : Counts) : (d.tally c t).saveSlot c = d.saveSlot c := by
  unfold Dev.tally
  rw [Dev.count_saveSlot _ _ _ (by decide), Dev.count_saveSlot _ _ _ (by decide), Dev.count_saveSlot _ _ _ (by decide),
    Dev.count_saveSlot _ _ _ (by decide), Dev.count_saveSlot _ _ _ (by decide), Dev.count_saveSlot _ _ _ (by decide)]

theorem Dev.drawN_saveSlot (d : Dev) (c : Nat) : d.drawN.2.saveSlot c = d.saveSlot c := rfl

theorem Dev.bankStalls_saveSlot (d : Dev) (c : Nat) : (d.bankStalls c).saveSlot c = d.saveSlot c :=
  (Dev.count_saveSlot _ _ _ (by decide)).trans (d.drawN_saveSlot c)

theorem Dev.report_saveSlot (d : Dev) (src code p det c : Nat) {cls : Nat} (hcls : cls ≤ 3) :
    (d.report src code cls p det).saveSlot c = d.saveSlot c := by
  have hreg : ∀ off, (d.report src code cls p det).rdN (tenReg c off) = d.rdN (tenReg c off) := fun off =>
    congrArg BitVec.toNat (Dev.rd_tenReg_report d src code p det c off hcls)
  exact Dev.saveSlot_of (Dev.report_ptn _ _ _ _ _ _) (hreg _) (hreg _) (Dev.coreAt_report _ _ _ _ _ _ _)

theorem Dev.mvWrite_saveSlot (d : Dev) (c desc a : Nat) (bs : List Byte) : (d.mvWrite c desc a bs).saveSlot c = d.saveSlot c := by
  unfold Dev.mvWrite
  split
  · rfl
  · rfl

theorem Dev.moveEncode_saveSlot (d : Dev) (c desc : Nat) (l : LinkCtx) (a z : Nat) : (d.moveEncode c desc l a z).saveSlot c = d.saveSlot c := by
  unfold Dev.moveEncode
  dsimp only
  rw [Dev.tally_saveSlot]
  split
  · rw [Dev.mvWrite_saveSlot]
  · rw [Dev.mvWrite_saveSlot, Dev.mvWrite_saveSlot, Dev.mvWrite_saveSlot]

theorem Dev.moveDecode_saveSlot (d : Dev) (c desc : Nat) (l : LinkCtx) (a z : Nat) : (d.moveDecode c desc l a z).saveSlot c = d.saveSlot c := by
  unfold Dev.moveDecode
  extract_lets nb src sb cnt codes esc r d1
  have hwritten : d1.saveSlot c = d.saveSlot c := by rw [Dev.tally_saveSlot, Dev.mvWrite_saveSlot]
  split
  · rw [Dev.report_saveSlot _ _ _ _ _ _ (by decide), hwritten]
  · exact hwritten

theorem Dev.moveSpan_saveSlot (d : Dev) (c : Nat) (m : MoveRun) (z : Nat) : (d.moveSpan c m z).saveSlot c = d.saveSlot c := by
  unfold Dev.moveSpan
  dsimp only
  split
  · exact Dev.mvWrite_saveSlot _ _ _ _ _
  · exact Dev.moveEncode_saveSlot _ _ _ _ _ _
  · exact Dev.moveDecode_saveSlot _ _ _ _ _ _
  · rfl

theorem Dev.coreUpd_saveSlot (d : Dev) (c : Nat) (f : Core → Core) (hf : ∀ x, (f x).saves = x.saves) : (d.coreUpd c f).saveSlot c = d.saveSlot c := by
  have hsaves : ((d.coreUpd c f).coreAt c).saves = (d.coreAt c).saves := by rw [Dev.coreAt_coreUpd_same, hf]
  rw [Dev.saveSlot, hsaves]
  rfl

theorem Dev.complete_saveSlot (d : Dev) (c desc pc : Nat) (isPass empty : Bool) : (d.complete c desc pc isPass empty).saveSlot c = d.saveSlot c := by
  obtain ⟨⟨l, hcore⟩, hregs, -⟩ := d.complete_leaves c desc pc isPass empty
  have hreg : ∀ off, off ≠ 0x20 → off < 0x80 → (d.complete c desc pc isPass empty).rdN (tenReg c off) = d.rdN (tenReg c off) := fun off h1 h2 =>
    congrArg BitVec.toNat (hregs off h1 h2)
  rw [Dev.saveSlot, Dev.complete_ptn, hreg _ (by decide) (by decide), hreg _ (by decide) (by decide), hcore, Dev.saveSlot]

theorem Dev.moveEnd_saveSlot (d : Dev) (c : Nat) (m : MoveRun) (rest : List MoveRun) : (d.moveEnd c m rest).saveSlot c = d.saveSlot c := by
  unfold Dev.moveEnd
  rw [Dev.bankStalls_saveSlot, Dev.complete_saveSlot, Dev.coreUpd_saveSlot, Dev.moveSpan_saveSlot]
  exact fun _ => rfl

theorem Dev.moveStop_saveSlot (d : Dev) (c : Nat) : (d.moveStop c).saveSlot c = d.saveSlot c := by
  unfold Dev.moveStop
  split
  · extract_lets w tot z
    have hdraw : w.2.saveSlot c = d.saveSlot c := d.drawN_saveSlot c
    split
    · split
      · rw [Dev.moveEnd_saveSlot, hdraw]
      · rw [Dev.coreUpd_saveSlot, Dev.moveSpan_saveSlot, hdraw]
        exact fun _ => rfl
    · rfl
  · rfl

/-- The slot of the next save lies in the share of the core's partition. -/
def Dev.saveFits (d : Dev) (c : Nat) : Prop := d.inShare (d.corePtn c) (d.saveBase c) 9728 = true

theorem Dev.saveFits_of_slot {d e : Dev} {c : Nat} (h : e.saveSlot c = d.saveSlot c) (hfits : d.saveFits c) : e.saveFits c := by
  rw [Dev.saveSlot, Dev.saveSlot, Prod.mk.injEq, Prod.mk.injEq, Prod.mk.injEq] at h
  obtain ⟨hptn, hlow, hhigh, -⟩ := h
  have hbase : e.saveBase c = d.saveBase c := by rw [Dev.saveBase, hlow, hhigh, Dev.saveBase]
  rw [Dev.saveFits, Dev.corePtn_of_ptn hptn, hbase, Dev.inShare_of_ptn hptn]
  exact hfits

/-- A save with room counts, brings the core to SAVED and sets its event. -/
theorem Dev.writeSave_saves {d : Dev} {c : Nat} (running : Bool) (hfits : d.saveFits c) :
    ((d.writeSave c running).coreAt c).st = .saved ∧ ((d.writeSave c running).coreAt c).saves = (d.coreAt c).saves + 1 ∧
    wbit ((d.writeSave c running).rd (tenReg c 0x10)) 2 = true := by
  have hshare : ∀ (e : Dev) (p o : Nat) (bs : List Byte), (e.shWrite p o bs).coreAt c = e.coreAt c := fun _ _ _ _ => rfl
  unfold Dev.writeSave
  extract_lets p d1
  have hroom : d1.inShare p (d1.saveBase c) 9728 = true := hfits
  rw [if_pos hroom, Dev.coreAt_event, Dev.coreAt_coreUpd_same, Dev.coreAt_setPc, hshare,
    Dev.coreAt_coreUpd_same]
  exact ⟨rfl, rfl, Dev.event_set _ _ _ (by decide)⟩

/-- With no drain to commit and no LINK open the save of a frozen core only stops its MOVE first. -/
theorem Dev.preemptSaved_quiet {d : Dev} {c : Nat} (hfrozen : (d.coreAt c).st = .freezing) (hdrained : (d.coreAt c).emit = [])
    (hlinks : (d.coreAt c).links = []) : d.preemptSaved c = (d.moveStop c).writeSave c true := by
  have hcommit : d.commitAll c 4 = d := by rw [Dev.commitAll, if_pos hdrained]
  have hfinish : ∀ ks : List Nat, d.linksFinish c ks = d := by
    intro ks
    induction ks with
    | nil => rfl
    | cons k ks ih =>
      rw [Dev.linksFinish, hlinks]
      exact ih
  unfold Dev.preemptSaved
  rw [if_pos hfrozen, hcommit]
  dsimp only
  rw [hfinish, if_pos hfrozen]

/-! ### The obligation -/

/-- Settles O21. That RESUME of a save of an idle core leaves it idle is the model's choice (log 22), as are the 0 in TEN_ERRPC after RUN
(log 118) and the reset of a core out of service, which the clauses leave out (log 138). -/
theorem coreControlActs : Obligations.CoreControlActs := by
  refine ⟨?setPc, ?setSave, ?run, ?preempt, ?resume, ?reset, ?ctrlRun, ?ctrlPreempt, ?ctrlResume, ?ctrlReset, ?ctrlLock, ?saved⟩
  case setPc =>
    intro s n c k ha hasked hop hcore hlock
    have hset := Dev.setPcOp_open hlock n (subN c.payload 0 1) (subN c.payload 8 8)
    obtain ⟨hcoreAt, -, hregs, hanswer⟩ := Dev.coreCtrl_acts (f := Dev.setPcOp n) hasked hop hcore
      (by rw [hset, Dev.coreUpd_hostRest, Dev.wrN_hostRest])
    rw [hset] at hcoreAt hregs
    refine ⟨_, Machine.live_next ha (fun d => d.coreSetPc n), ?_, ?_, hanswer⟩
    · refine (hregs 0x0C (by decide)).trans ((Dev.rdN_wrN_same _ _ _).trans ?_)
      omega
    · exact congrArg Core.pcSet (hcoreAt.trans (Dev.coreAt_coreUpd_same _ _ _))
  case setSave =>
    intro s n c k ha hasked hop hcore hlock
    have hset := Dev.setSaveOp_open hlock n (subN c.payload 0 1) (subN c.payload 8 8)
    obtain ⟨-, -, hregs, hanswer⟩ := Dev.coreCtrl_acts (f := Dev.setSaveOp n) hasked hop hcore (by rw [hset, Dev.wrN_hostRest, Dev.wrN_hostRest])
    rw [hset] at hregs
    refine ⟨_, Machine.live_next ha (fun d => d.coreSetSave n), ?_, ?_, hanswer⟩
    · refine (hregs 0x18 (by decide)).trans ?_
      rw [Dev.rdN_wrN_other _ _ (tenReg_ne (by decide)), Dev.rdN_wrN_same]
      omega
    · refine (hregs 0x1C (by decide)).trans ((Dev.rdN_wrN_same _ _ _).trans ?_)
      omega
  case run =>
    intro s n c k ha hasked hop hcore hidle hpc
    have hrun := Dev.tenRun_starts hidle hpc
    obtain ⟨hcoreAt, -, -, hanswer⟩ := Dev.coreCtrl_acts (f := fun d _ k _ => d.tenRun k) hasked hop hcore
      (by rw [hrun, Dev.wrN_hostRest, Dev.coreSet_hostRest])
    refine ⟨_, Machine.live_next ha (fun d => d.coreRun n), ?_, hanswer⟩
    rw [hrun, Dev.coreAt_wrN, Dev.coreAt_coreSet_same] at hcoreAt
    exact congrArg Core.st hcoreAt
  case preempt =>
    intro s n c k ha hasked hop hcore hwork
    have hfreeze := Dev.tenPreempt_freezes hwork
    obtain ⟨hcoreAt, -, -, hanswer⟩ := Dev.coreCtrl_acts (f := fun d _ k _ => d.tenPreempt k) hasked hop hcore
      (by rw [hfreeze, Dev.coreUpd_hostRest, Dev.unwait_hostRest])
    refine ⟨_, Machine.live_next ha (fun d => d.corePreempt n), ?_, hanswer⟩
    rw [hfreeze, Dev.coreAt_coreUpd_same] at hcoreAt
    exact congrArg Core.st hcoreAt
  case resume =>
    intro s n c k ha hasked hop hcore hsaved hshare hversion hvalid hrun
    have hidle := Dev.tenResume_idle hsaved ⟨hshare, hversion, hvalid, hrun⟩
    obtain ⟨hcoreAt, -, -, hanswer⟩ := Dev.coreCtrl_acts (f := fun d _ k _ => d.tenResume k) hasked hop hcore
      (by rw [hidle, Dev.coreSet_hostRest])
    refine ⟨_, Machine.live_next ha (fun d => d.coreResume n), ?_, hanswer⟩
    rw [hidle, Dev.coreAt_coreSet_same] at hcoreAt
    exact congrArg Core.st hcoreAt
  case reset =>
    intro s n c k ha hasked hop hcore hup
    obtain ⟨hidle, hlock, hmem, hrest⟩ := Dev.tenReset_idle hup
    obtain ⟨hcoreAt, hmemAt, -, hanswer⟩ := Dev.coreCtrl_acts (f := fun d _ k _ => d.tenReset k) hasked hop hcore hrest
    exact ⟨_, Machine.live_next ha (fun d => d.coreReset n), (congrArg Core.st hcoreAt).trans hidle, (congrArg Core.lock hcoreAt).trans hlock,
      hmemAt.trans hmem, hanswer⟩
  case ctrlRun =>
    intro s who c ha ho hw hopen hidle hpc
    refine ⟨_, Machine.live_tenCtrl ha ho hw _ (fun d => d.tenCtrl who c 1), ?_⟩
    dsimp only
    rw [(Dev.tenCtrl_acts hopen).1, Dev.tenRun_starts hidle hpc, Dev.coreAt_wrN, Dev.coreAt_coreSet_same, Dev.rdN_wrN_same]
    exact ⟨rfl, rfl, rfl, rfl⟩
  case ctrlPreempt =>
    intro s who c ha ho hw hopen hwork
    refine ⟨_, Machine.live_tenCtrl ha ho hw _ (fun d => d.tenCtrl who c 2), ?_⟩
    dsimp only
    rw [(Dev.tenCtrl_acts hopen).2.1, Dev.tenPreempt_freezes hwork, Dev.coreAt_coreUpd_same]
    exact ⟨rfl, rfl, (Dev.coreUpd_mem _ _ _).trans (Dev.mem_of_tensor (Dev.unwait_tensor _ _))⟩
  case ctrlResume =>
    intro s who c ha ho hw hopen hsaved hshare hversion hvalid hrun
    refine ⟨_, Machine.live_tenCtrl ha ho hw _ (fun d => d.tenCtrl who c 4), ?_⟩
    dsimp only
    rw [(Dev.tenCtrl_acts hopen).2.2.1, Dev.tenResume_idle hsaved ⟨hshare, hversion, hvalid, hrun⟩, Dev.coreAt_coreSet_same]
    exact ⟨rfl, rfl⟩
  case ctrlReset =>
    intro s who c ha ho hw hopen hup
    obtain ⟨hidle, hlock, hmem, -⟩ := Dev.tenReset_idle hup
    refine ⟨_, Machine.live_tenCtrl ha ho hw _ (fun d => d.tenCtrl who c 8), ?_⟩
    dsimp only
    rw [(Dev.tenCtrl_acts hopen).2.2.2]
    exact ⟨hidle, hlock, hmem⟩
  case ctrlLock =>
    intro s who c ha hmay hset hopen
    exact ⟨_, Machine.live_writeDo ha hmay (fun d => d.tenCtrl who c (2 ^ 31)),
      congrArg (fun e => { s with dev := e }) (Dev.tenCtrl_lock hopen hset)⟩
  case saved =>
    intro s c ha hfrozen hdrained hlinks hfits
    obtain ⟨hst, hsaves, hevent⟩ := Dev.writeSave_saves true (Dev.saveFits_of_slot (s.dev.moveStop_saveSlot c) hfits)
    have hcount : ((s.dev.moveStop c).coreAt c).saves = (s.dev.coreAt c).saves := congrArg (fun x => x.2.2.2) (s.dev.moveStop_saveSlot c)
    refine ⟨_, Machine.live_next ha (fun d => d.preemptSaved c), ?_⟩
    dsimp only
    rw [Dev.preemptSaved_quiet hfrozen hdrained hlinks]
    exact ⟨hst, hsaves.trans (congrArg (· + 1) hcount), hevent⟩

end Sys2Proof
end

section
/-! SUPPORT. The priority queues, the Catcher and the error log together: every operation that leaves all three says so. -/

namespace Sys2Proof

/-- The priority queues, the Catcher and the error log. -/
structure Backlog where
  pq : Tab Pq
  cat : Cat
  erl : Erl

@[irreducible] def Dev.backlog (d : Dev) : Backlog := ⟨d.pq, d.cat, d.erl⟩

@[simp] theorem Dev.pq_backlog (d : Dev) : d.pq = d.backlog.pq := by unfold Dev.backlog; rfl
@[simp] theorem Dev.cat_backlog (d : Dev) : d.cat = d.backlog.cat := by unfold Dev.backlog; rfl
@[simp] theorem Dev.erl_backlog (d : Dev) : d.erl = d.backlog.erl := by unfold Dev.backlog; rfl
@[simp] theorem Backlog.eta (b : Backlog) : Backlog.mk b.pq b.cat b.erl = b := rfl
@[simp] theorem Dev.backlog_mk (now free alive regs pqRegs host erl tel tmu cat pq lck ptn core mem flow store dict fw sec pwr out) :
    (Dev.mk now free alive regs pqRegs host erl tel tmu cat pq lck ptn core mem flow store dict fw sec pwr out).backlog = ⟨pq, cat, erl⟩ := by
  unfold Dev.backlog; rfl
@[simp] theorem Backlog.pq_ite (c : Prop) [Decidable c] (a b : Backlog) : (if c then a else b).pq = if c then a.pq else b.pq := by split <;> rfl
@[simp] theorem Backlog.cat_ite (c : Prop) [Decidable c] (a b : Backlog) : (if c then a else b).cat = if c then a.cat else b.cat := by split <;> rfl
@[simp] theorem Backlog.erl_ite (c : Prop) [Decidable c] (a b : Backlog) : (if c then a else b).erl = if c then a.erl else b.erl := by split <;> rfl
@[simp] theorem Dev.backlog_ite (c : Prop) [Decidable c] (a b : Dev) : (if c then a else b).backlog = if c then a.backlog else b.backlog := by split <;> rfl
@[simp] theorem Dev.backlog_ite1 {α : Type} (c : Prop) [Decidable c] (a b : Dev × α) :
    (if c then a else b).1.backlog = if c then a.1.backlog else b.1.backlog := by split <;> rfl
@[simp] theorem Dev.backlog_foldl {α : Type} (f : Dev → α → Dev) (l : List α) (d : Dev) (h : ∀ e x, (f e x).backlog = e.backlog) :
    (l.foldl f d).backlog = d.backlog := by
  induction l generalizing d with
  | nil => rfl
  | cons a l ih => simp [ih, h]

@[simp] theorem Dev.wr_backlog (d x1 x2) : (Dev.wr d x1 x2).backlog = d.backlog := by
  simp [Dev.wr]
@[simp] theorem Dev.wrN_backlog (d x1 x2) : (Dev.wrN d x1 x2).backlog = d.backlog := by
  simp [Dev.wrN]
@[simp] theorem Dev.count_backlog (d x1 x2) : (Dev.count d x1 x2).backlog = d.backlog := by
  simp [Dev.count]
@[simp] theorem Dev.wr64_backlog (d x1 x2) : (Dev.wr64 d x1 x2).backlog = d.backlog := by
  simp [Dev.wr64]
@[simp] theorem Dev.count64_backlog (d x1 x2) : (Dev.count64 d x1 x2).backlog = d.backlog := by
  simp [Dev.count64]
@[simp] theorem Dev.regsReset_backlog (d x1 x2) : (Dev.regsReset d x1 x2).backlog = d.backlog := by
  simp [Dev.regsReset]
@[simp] theorem Dev.emit_backlog (d x1) : (Dev.emit d x1).backlog = d.backlog := by
  simp [Dev.emit]
@[simp] theorem Dev.drawN_backlog (d) : (Dev.drawN d).2.backlog = d.backlog := by
  simp [Dev.drawN]
@[simp] theorem Dev.msixRaise_backlog (d x1 x2) : (Dev.msixRaise d x1 x2).backlog = d.backlog := by
  simp [Dev.msixRaise]
@[simp] theorem Dev.teleMake_backlog (d x1 x2 x3 x4 x5 x6) : (Dev.teleMake d x1 x2 x3 x4 x5 x6).backlog = d.backlog := by
  simp [Dev.teleMake]
@[simp] theorem Dev.event_backlog (d x1 x2) : (Dev.event d x1 x2).backlog = d.backlog := by
  unfold Dev.event
  (repeat' split) <;> simp
@[simp] theorem Dev.alarmSet_backlog (d x1 x2 x3 x4 x5) : (Dev.alarmSet d x1 x2 x3 x4 x5).backlog = d.backlog := by
  simp [Dev.alarmSet]
@[simp] theorem Dev.lckSet_backlog (d x1 x2) : (Dev.lckSet d x1 x2).backlog = d.backlog := by
  simp [Dev.lckSet]
@[simp] theorem Dev.lckAcquire_backlog (d x1 x2 x3) : (Dev.lckAcquire d x1 x2 x3).1.backlog = d.backlog := by
  fun_cases Dev.lckAcquire d x1 x2 x3 <;> simp_all
@[simp] theorem Dev.ptnSet_backlog (d x1 x2) : (Dev.ptnSet d x1 x2).backlog = d.backlog := by
  simp [Dev.ptnSet]
@[simp] theorem Dev.accErr_backlog (d x1 x2 x3 x4 x5) : (Dev.accErr d x1 x2 x3 x4 x5).backlog = d.backlog := by
  unfold Dev.accErr
  (repeat' split) <;> simp
@[simp] theorem Dev.erlAnnounce_backlog (d x1) : (Dev.erlAnnounce d x1).backlog = d.backlog := by
  simp [Dev.erlAnnounce]
@[simp] theorem Dev.erlIdx_backlog (d x1) : (Dev.erlIdx d x1).backlog = d.backlog := by
  simp [Dev.erlIdx]
@[simp] theorem Dev.ringEvent_backlog (d x1 x2) : (Dev.ringEvent d x1 x2).backlog = d.backlog := by
  simp [Dev.ringEvent]
@[simp] theorem Dev.pqDenied_backlog (d x1 x2 x3 x4) : (Dev.pqDenied d x1 x2 x3 x4).backlog = d.backlog := by
  unfold Dev.pqDenied
  (repeat' split) <;> simp
@[simp] theorem Dev.lckAcqWord_backlog (d x1 x2) : (Dev.lckAcqWord d x1 x2).1.backlog = d.backlog := by
  simp [Dev.lckAcqWord]
@[simp] theorem Dev.lckAcqRead_backlog (d x1 x2) : (Dev.lckAcqRead d x1 x2).backlog = d.backlog := by
  simp [Dev.lckAcqRead]
@[simp] theorem Dev.csWrite_backlog (d x1 x2 x3) : (Dev.csWrite d x1 x2 x3).backlog = d.backlog := by
  simp [Dev.csWrite]
@[simp] theorem Dev.csZero_backlog (d x1) : (Dev.csZero d x1).backlog = d.backlog := by
  simp [Dev.csZero]
@[simp] theorem Dev.shWrite_backlog (d x1 x2 x3) : (Dev.shWrite d x1 x2 x3).backlog = d.backlog := by
  simp [Dev.shWrite]
@[simp] theorem Dev.shFromCore_backlog (d x1 x2 x3 x4 x5) : (Dev.shFromCore d x1 x2 x3 x4 x5).backlog = d.backlog := by
  unfold Dev.shFromCore
  (repeat' split) <;> simp
@[simp] theorem Dev.coreSet_backlog (d x1 x2) : (Dev.coreSet d x1 x2).backlog = d.backlog := by
  simp [Dev.coreSet]
@[simp] theorem Dev.coreUpd_backlog (d x1 x2) : (Dev.coreUpd d x1 x2).backlog = d.backlog := by
  simp [Dev.coreUpd]
@[simp] theorem Dev.afterPost_backlog (d x1 x2 x3) : (Dev.afterPost d x1 x2 x3).backlog = d.backlog := by
  simp [Dev.afterPost]
@[simp] theorem Dev.afterWait_backlog (d x1 x2 x3) : (Dev.afterWait d x1 x2 x3).backlog = d.backlog := by
  unfold Dev.afterWait
  (repeat' split) <;> simp
@[simp] theorem Dev.releaseFree_backlog (d x1 x2) : (Dev.releaseFree d x1 x2).backlog = d.backlog := by
  fun_induction Dev.releaseFree d x1 x2 <;> simp_all
@[simp] theorem Dev.release_backlog (d x1) : (Dev.release d x1).backlog = d.backlog := by
  unfold Dev.release
  (repeat' split) <;> simp
@[simp] theorem Dev.eccNote_backlog (d x1 x2) : (Dev.eccNote d x1 x2).backlog = d.backlog := by
  unfold Dev.eccNote
  (repeat' split) <;> simp
@[simp] theorem Dev.fill_backlog (d x1 x2) : (Dev.fill d x1 x2).backlog = d.backlog := by
  induction x2 generalizing d with
  | nil => rfl
  | cons a l ih => rw [Dev.fill, ih]; (repeat' split) <;> simp
@[simp] theorem Dev.tenRegsReset_backlog (d x1) : (Dev.tenRegsReset d x1).backlog = d.backlog := by
  simp [Dev.tenRegsReset]
@[simp] theorem Dev.prtCount_backlog (d x1 x2 x3) : (Dev.prtCount d x1 x2 x3).backlog = d.backlog := by
  simp [Dev.prtCount]
@[simp] theorem Dev.portSet_backlog (d x1 x2) : (Dev.portSet d x1 x2).backlog = d.backlog := by
  simp [Dev.portSet]
@[simp] theorem Dev.portUpd_backlog (d x1 x2) : (Dev.portUpd d x1 x2).backlog = d.backlog := by
  simp [Dev.portUpd]
@[simp] theorem Dev.onLane_backlog (d x1) : (Dev.onLane d x1).backlog = d.backlog := by
  simp [Dev.onLane]
@[simp] theorem Dev.pktSet_backlog (d x1 x2) : (Dev.pktSet d x1 x2).backlog = d.backlog := by
  simp [Dev.pktSet]
@[simp] theorem Dev.pktUpd_backlog (d x1 x2) : (Dev.pktUpd d x1 x2).backlog = d.backlog := by
  simp [Dev.pktUpd]
@[simp] theorem Dev.egSet_backlog (d x1 x2 x3) : (Dev.egSet d x1 x2 x3).backlog = d.backlog := by
  simp [Dev.egSet]
@[simp] theorem Dev.dropItem_backlog (d x1) : (Dev.dropItem d x1).backlog = d.backlog := by
  unfold Dev.dropItem
  (repeat' split) <;> simp
@[simp] theorem Dev.dropItems_backlog (d x1) : (Dev.dropItems d x1).backlog = d.backlog := by
  fun_induction Dev.dropItems d x1 <;> simp_all
@[simp] theorem Dev.flushPort_backlog (d x1) : (Dev.flushPort d x1).backlog = d.backlog := by
  simp [Dev.flushPort]
@[simp] theorem Dev.flushDead_backlog (d x1) : (Dev.flushDead d x1).backlog = d.backlog := by
  fun_induction Dev.flushDead d x1 <;> simp_all
@[simp] theorem Dev.qRefresh_backlog (d x1 x2) : (Dev.qRefresh d x1 x2).backlog = d.backlog := by
  simp [Dev.qRefresh]
@[simp] theorem Dev.qRefreshAll_backlog (d : Dev) (n : Nat) (qs : List Nat) : (Dev.qRefreshAll d n qs).backlog = d.backlog := by
  induction qs generalizing d with
  | nil => rfl
  | cons q qs ih => simp [Dev.qRefreshAll, ih]
@[simp] theorem Dev.promoClear_backlog (d : Dev) (n : Nat) (qs : List Nat) : (Dev.promoClear d n qs).backlog = d.backlog := by
  induction qs generalizing d with
  | nil => rfl
  | cons q qs ih => simp [Dev.promoClear, ih]
@[simp] theorem Dev.saSet_backlog (d x1 x2) : (Dev.saSet d x1 x2).backlog = d.backlog := by
  simp [Dev.saSet]
@[simp] theorem Dev.msEgress_backlog (d n it) : (Dev.msEgress d n it).1.backlog = d.backlog := by
  unfold Dev.msEgress
  dsimp only
  (repeat' split) <;> simp
@[simp] theorem Dev.pauseEmit_backlog (d x1 x2 x3) : (Dev.pauseEmit d x1 x2 x3).backlog = d.backlog := by
  simp [Dev.pauseEmit]
@[simp] theorem Dev.sendPause_backlog (d x1 x2 x3) : (Dev.sendPause d x1 x2 x3).backlog = d.backlog := by
  simp [Dev.sendPause]
@[simp] theorem Dev.pauseList_backlog (d x1 x2) : (Dev.pauseList d x1 x2).backlog = d.backlog := by
  fun_induction Dev.pauseList d x1 x2 <;> simp_all
@[simp] theorem Dev.pauseCheck1_backlog (d x1 x2) : (Dev.pauseCheck1 d x1 x2).backlog = d.backlog := by
  simp [Dev.pauseCheck1]
@[simp] theorem Dev.pauseCheckList_backlog (d x1 x2) : (Dev.pauseCheckList d x1 x2).backlog = d.backlog := by
  fun_induction Dev.pauseCheckList d x1 x2 <;> simp_all
@[simp] theorem Dev.pauseCheck_backlog (d x1) : (Dev.pauseCheck d x1).backlog = d.backlog := by
  simp [Dev.pauseCheck]
@[simp] theorem Dev.freePkt_backlog (d x1) : (Dev.freePkt d x1).backlog = d.backlog := by
  simp [Dev.freePkt]
@[simp] theorem Dev.txAbort_backlog (d x1) : (Dev.txAbort d x1).backlog = d.backlog := by
  unfold Dev.txAbort
  (repeat' split) <;> simp
@[simp] theorem Dev.linkDown_backlog (d x1) : (Dev.linkDown d x1).backlog = d.backlog := by
  simp [Dev.linkDown]
@[simp] theorem Dev.retrain_backlog (d x1) : (Dev.retrain d x1).backlog = d.backlog := by
  simp [Dev.retrain]
@[simp] theorem Dev.retrainList_backlog (d x1) : (Dev.retrainList d x1).backlog = d.backlog := by
  fun_induction Dev.retrainList d x1 <;> simp_all
@[simp] theorem Dev.failsafeAssert_backlog (d) : (Dev.failsafeAssert d).backlog = d.backlog := by
  simp [Dev.failsafeAssert]
@[simp] theorem Dev.dieFLoss_backlog (d) : (Dev.dieFLoss d).backlog = d.backlog := by
  simp [Dev.dieFLoss]
@[simp] theorem Dev.seqGap_backlog (d x1 x2) : (Dev.seqGap d x1 x2).backlog = d.backlog := by
  simp [Dev.seqGap]
@[simp] theorem Dev.verUpd_backlog (d x1 x2) : (Dev.verUpd d x1 x2).backlog = d.backlog := by
  simp [Dev.verUpd]
@[simp] theorem Dev.leaveVer_backlog (d x1) : (Dev.leaveVer d x1).backlog = d.backlog := by
  simp [Dev.leaveVer]
@[simp] theorem Dev.tplUpd_backlog (d x1 x2) : (Dev.tplUpd d x1 x2).backlog = d.backlog := by
  simp [Dev.tplUpd]
@[simp] theorem Dev.stageObj_backlog (d x1 x2 x3) : (Dev.stageObj d x1 x2 x3).backlog = d.backlog := by
  unfold Dev.stageObj
  (repeat' split) <;> simp
@[simp] theorem Dev.stageAll_backlog (d x1 x2 x3) : (Dev.stageAll d x1 x2 x3).backlog = d.backlog := by
  fun_induction Dev.stageAll d x1 x2 x3 <;> simp_all
@[simp] theorem Dev.commit_backlog (d x1) : (Dev.commit d x1).1.backlog = d.backlog := by
  unfold Dev.commit
  simp
@[simp] theorem Dev.puntToken_backlog (d x1 x2) : (Dev.puntToken d x1 x2).1.backlog = d.backlog := by
  simp [Dev.puntToken]
@[simp] theorem Dev.puntOffer_backlog (d x1 x2 x3) : (Dev.puntOffer d x1 x2 x3).1.backlog = d.backlog := by
  simp [Dev.puntOffer]
@[simp] theorem Dev.pktGone_backlog (d x1) : (Dev.pktGone d x1).backlog = d.backlog := by
  simp [Dev.pktGone]
@[simp] theorem Dev.puntPkt_backlog (d x1 x2 x3 x4 x5 x6) : (Dev.puntPkt d x1 x2 x3 x4 x5 x6).backlog = d.backlog := by
  simp [Dev.puntPkt]
@[simp] theorem Dev.nextHand_backlog (d) : (Dev.nextHand d).backlog = d.backlog := by
  simp [Dev.nextHand]
@[simp] theorem Dev.flwCount_backlog (d x1) : (Dev.flwCount d x1).backlog = d.backlog := by
  simp [Dev.flwCount]
@[simp] theorem Dev.flowSet_backlog (d x1 x2) : (Dev.flowSet d x1 x2).backlog = d.backlog := by
  simp [Dev.flowSet]
@[simp] theorem Dev.flowRecord_backlog (d x1 x2) : (Dev.flowRecord d x1 x2).backlog = d.backlog := by
  simp [Dev.flowRecord]
@[simp] theorem Dev.flowFind_backlog (d x1 x2) : (Dev.flowFind d x1 x2).1.backlog = d.backlog := by
  unfold Dev.flowFind
  dsimp only
  (repeat' split) <;> simp_all
@[simp] theorem Dev.bind_backlog (d) : (Dev.bind d).backlog = d.backlog := by
  unfold Dev.bind
  dsimp only
  (repeat' split) <;> simp
@[simp] theorem Dev.entSetState_backlog (d x1 x2) : (Dev.entSetState d x1 x2).backlog = d.backlog := by
  simp [Dev.entSetState]
@[simp] theorem Dev.makeStale_backlog (d x1 x2) : (Dev.makeStale d x1 x2).backlog = d.backlog := by
  unfold Dev.makeStale
  dsimp only
  (repeat' split) <;> simp_all
@[simp] theorem Dev.makeStaleList_backlog (d x1 x2) : (Dev.makeStaleList d x1 x2).backlog = d.backlog := by
  fun_induction Dev.makeStaleList d x1 x2 <;> simp_all
@[simp] theorem Dev.assignRange_backlog (d x1 x2 x3) : (Dev.assignRange d x1 x2 x3).backlog = d.backlog := by
  simp [Dev.assignRange]
@[simp] theorem Dev.fidx_backlog (d x1) : (Dev.fidx d x1).backlog = d.backlog := by
  simp [Dev.fidx]
@[simp] theorem Dev.eidx_backlog (d x1) : (Dev.eidx d x1).backlog = d.backlog := by
  simp [Dev.eidx]
@[simp] theorem Dev.polSet_backlog (d x1 x2) : (Dev.polSet d x1 x2).backlog = d.backlog := by
  simp [Dev.polSet]
@[simp] theorem Dev.flowMark_backlog (d x1 x2) : (Dev.flowMark d x1 x2).backlog = d.backlog := by
  unfold Dev.flowMark
  (repeat' split) <;> simp
@[simp] theorem Dev.police_backlog (d) : (Dev.police d).backlog = d.backlog := by
  unfold Dev.police
  (repeat' split) <;> simp
@[simp] theorem Dev.policerWrite_backlog (d x1 x2 x3 x4 x5 x6 x7) : (Dev.policerWrite d x1 x2 x3 x4 x5 x6 x7).backlog = d.backlog := by
  simp [Dev.policerWrite]
@[simp] theorem Dev.pidx_backlog (d x1 x2) : (Dev.pidx d x1 x2).backlog = d.backlog := by
  simp [Dev.pidx]
@[simp] theorem Dev.treCount_backlog (d x1 x2) : (Dev.treCount d x1 x2).backlog = d.backlog := by
  simp [Dev.treCount]
@[simp] theorem Dev.recSet_backlog (d x1 x2) : (Dev.recSet d x1 x2).backlog = d.backlog := by
  simp [Dev.recSet]
@[simp] theorem Dev.sqSet_backlog (d x1 x2) : (Dev.sqSet d x1 x2).backlog = d.backlog := by
  simp [Dev.sqSet]
@[simp] theorem Dev.scoreNone_backlog (d x1 x2) : (Dev.scoreNone d x1 x2).backlog = d.backlog := by
  simp [Dev.scoreNone]
@[simp] theorem Dev.grantHead_backlog (d x1 x2 x3 x4) : (Dev.grantHead d x1 x2 x3 x4).backlog = d.backlog := by
  simp [Dev.grantHead]
@[simp] theorem Dev.grantEns_backlog (d x1 x2 x3) : (Dev.grantEns d x1 x2 x3).1.backlog = d.backlog := by
  fun_induction Dev.grantEns d x1 x2 x3 <;> simp_all
@[simp] theorem Dev.grantFrom_backlog (d : Dev) (es free : List Nat) : (Dev.grantFrom d es free).backlog = d.backlog := by
  induction es generalizing d free with
  | nil => rfl
  | cons e es ih => simp [Dev.grantFrom, ih]
@[simp] theorem Dev.scoreGrant_backlog (d) : (Dev.scoreGrant d).backlog = d.backlog := by
  simp [Dev.scoreGrant]
@[simp] theorem Dev.copyUpd_backlog (d x1 x2 x3) : (Dev.copyUpd d x1 x2 x3).backlog = d.backlog := by
  simp [Dev.copyUpd]
@[simp] theorem Dev.failQueued_backlog (d x1 x2 x3) : (Dev.failQueued d x1 x2 x3).backlog = d.backlog := by
  fun_induction Dev.failQueued d x1 x2 x3 <;> simp_all
@[simp] theorem Dev.visCount_backlog (d x1) : (Dev.visCount d x1).backlog = d.backlog := by
  simp [Dev.visCount]
@[simp] theorem Dev.visorVerdict_backlog (d) : (Dev.visorVerdict d).backlog = d.backlog := by
  unfold Dev.visorVerdict
  dsimp only
  (repeat' split) <;> simp_all
@[simp] theorem Dev.taggedQuiet_backlog (d x1) : (Dev.taggedQuiet d x1).backlog = d.backlog := by
  simp [Dev.taggedQuiet]
@[simp] theorem Dev.noteFileable_backlog (d x1) : (Dev.noteFileable d x1).backlog = d.backlog := by
  simp [Dev.noteFileable]
@[simp] theorem Dev.settle_backlog (d x1) : (Dev.settle d x1).backlog = d.backlog := by
  simp [Dev.settle]
@[simp] theorem Dev.release1_backlog (d x1) : (Dev.release1 d x1).1.backlog = d.backlog := by
  unfold Dev.release1
  dsimp only
  (repeat' split) <;> simp_all
@[simp] theorem Dev.releasePort_backlog (d : Dev) (n k : Nat) : (Dev.releasePort d n k).backlog = d.backlog := by
  induction k generalizing d with
  | zero => rfl
  | succ k ih =>
    have h := Dev.release1_backlog d n
    unfold Dev.releasePort
    split <;> rename_i heq <;> rw [heq] at h <;> simp_all
@[simp] theorem Dev.reorderRelease_backlog (d x1) : (Dev.reorderRelease d x1).backlog = d.backlog := by
  simp [Dev.reorderRelease]
@[simp] theorem Dev.enqueue_backlog (d x1 x2 x3) : (Dev.enqueue d x1 x2 x3).1.backlog = d.backlog := by
  unfold Dev.enqueue
  dsimp only
  (repeat' split) <;> simp_all
@[simp] theorem Dev.mirrorCopy_backlog (d x1 x2 x3) : (Dev.mirrorCopy d x1 x2 x3).backlog = d.backlog := by
  simp [Dev.mirrorCopy]
@[simp] theorem Dev.egressEnqueue_backlog (d) : (Dev.egressEnqueue d).backlog = d.backlog := by
  unfold Dev.egressEnqueue
  (repeat' split) <;> simp
@[simp] theorem Dev.drrPick_backlog (d : Dev) (n b k q : Nat) (h : Bool) : (Dev.drrPick d n b k q h).1.backlog = d.backlog := by
  induction k generalizing d q h with
  | zero => rfl
  | succ k ih =>
    unfold Dev.drrPick
    dsimp only
    repeat' split
    all_goals simp [ih]
@[simp] theorem Dev.txStamp_backlog (d x1 x2) : (Dev.txStamp d x1 x2).1.backlog = d.backlog := by
  unfold Dev.txStamp
  dsimp only
  (repeat' split) <;> simp_all
@[simp] theorem Dev.txStart_backlog (d x1 x2 x3 x4) : (Dev.txStart d x1 x2 x3 x4).backlog = d.backlog := by
  unfold Dev.txStart
  cases hx : (d.egAt x1 x2).items with
  | nil => simp [hx]
  | cons it rest =>
    have h := Dev.msEgress_backlog (d.txStamp x1 it).1 x1 (d.txStamp x1 it).2
    cases hm : Dev.msEgress (d.txStamp x1 it).1 x1 (d.txStamp x1 it).2 with
    | mk e o => cases o <;> simp_all
@[simp] theorem Dev.promote1_backlog (d x1 x2) : (Dev.promote1 d x1 x2).backlog = d.backlog := by
  unfold Dev.promote1
  simp
@[simp] theorem Dev.drrExcess_backlog (d n) : (Dev.drrExcess d n).backlog = d.backlog := by
  unfold Dev.drrExcess
  dsimp only
  (repeat' split) <;> simp
@[simp] theorem Dev.drrGuaranteed_backlog (d n) : (Dev.drrGuaranteed d n).backlog = d.backlog := by
  unfold Dev.drrGuaranteed
  dsimp only
  (repeat' split) <;> simp
@[simp] theorem Dev.schedule_backlog (d n) : (Dev.schedule d n).backlog = d.backlog := by
  unfold Dev.schedule
  dsimp only
  (repeat' split) <;> simp
@[simp] theorem Dev.queueStarved_backlog (d x1 x2) : (Dev.queueStarved d x1 x2).backlog = d.backlog := by
  simp [Dev.queueStarved]
@[simp] theorem Dev.queueWrite_backlog (d x1 x2 x3) : (Dev.queueWrite d x1 x2 x3).backlog = d.backlog := by
  simp [Dev.queueWrite]
@[simp] theorem Dev.txEnd_backlog (d x1) : (Dev.txEnd d x1).backlog = d.backlog := by
  unfold Dev.txEnd
  (repeat' split) <;> simp
@[simp] theorem Dev.freeIdle_backlog (d) : (Dev.freeIdle d).backlog = d.backlog := by
  unfold Dev.freeIdle
  (repeat' split) <;> simp
@[simp] theorem Dev.hudCount_backlog (d x1 x2) : (Dev.hudCount d x1 x2).backlog = d.backlog := by
  simp [Dev.hudCount]
@[simp] theorem Dev.grpSet_backlog (d x1 x2) : (Dev.grpSet d x1 x2).backlog = d.backlog := by
  simp [Dev.grpSet]
@[simp] theorem Dev.fillBuffer_backlog (d x1 x2) : (Dev.fillBuffer d x1 x2).backlog = d.backlog := by
  simp [Dev.fillBuffer]
@[simp] theorem Dev.snapOpen_backlog (d x1) : (Dev.snapOpen d x1).backlog = d.backlog := by
  unfold Dev.snapOpen
  (repeat' split) <;> simp
@[simp] theorem Dev.fileValue_backlog (d x1 x2 x3 x4) : (Dev.fileValue d x1 x2 x3 x4).backlog = d.backlog := by
  unfold Dev.fileValue
  dsimp only
  (repeat' split) <;> simp
@[simp] theorem Dev.fileValues_backlog (d x1 x2 x3) : (Dev.fileValues d x1 x2 x3).backlog = d.backlog := by
  fun_induction Dev.fileValues d x1 x2 x3 <;> simp_all
@[simp] theorem Dev.hudCounts_backlog (d x1) : (Dev.hudCounts d x1).backlog = d.backlog := by
  fun_induction Dev.hudCounts d x1 <;> simp_all
@[simp] theorem Dev.writeFile_backlog (d x1) : (Dev.writeFile d x1).backlog = d.backlog := by
  simp [Dev.writeFile]
@[simp] theorem Dev.writeFiles_backlog (d x1) : (Dev.writeFiles d x1).backlog = d.backlog := by
  fun_induction Dev.writeFiles d x1 <;> simp_all
@[simp] theorem Dev.filingWrite_backlog (d) : (Dev.filingWrite d).backlog = d.backlog := by
  simp [Dev.filingWrite]
@[simp] theorem Dev.stepGroup_backlog (d x1) : (Dev.stepGroup d x1).backlog = d.backlog := by
  fun_cases Dev.stepGroup d x1 <;> simp_all
@[simp] theorem Dev.stepGroups_backlog (d x1) : (Dev.stepGroups d x1).backlog = d.backlog := by
  fun_induction Dev.stepGroups d x1 <;> simp_all
@[simp] theorem Dev.backEntity_backlog (d x1 x2 x3 x4) : (Dev.backEntity d x1 x2 x3 x4).1.backlog = d.backlog := by
  unfold Dev.backEntity
  dsimp only
  (repeat' split) <;> simp
@[simp] theorem Dev.backEntities_backlog (d : Dev) (r : List Byte) (n e : Nat) (xs : List (List Nat)) (acc) :
    (Dev.backEntities d r n e xs acc).1.backlog = d.backlog := by
  induction xs generalizing d e acc with
  | nil => rfl
  | cons x xs ih =>
    have h := Dev.backEntity_backlog d r n e x
    unfold Dev.backEntities
    split <;> rename_i heq <;> rw [heq] at h <;> rw [ih, h]
@[simp] theorem Dev.report1_backlog (d x1 x2 x3 x4 x5 x6 x7) : (Dev.report1 d x1 x2 x3 x4 x5 x6 x7).backlog = d.backlog := by
  simp [Dev.report1]
@[simp] theorem Dev.reports_backlog (d x1 x2 x3 x4 x5 x6) : (Dev.reports d x1 x2 x3 x4 x5 x6).backlog = d.backlog := by
  fun_induction Dev.reports d x1 x2 x3 x4 x5 x6 <;> simp_all
@[simp] theorem Dev.reportAll_backlog (d x1 x2 x3 x4 x5) : (Dev.reportAll d x1 x2 x3 x4 x5).backlog = d.backlog := by
  simp [Dev.reportAll]
@[simp] theorem Dev.staleGroups_backlog (d : Dev) (p : Nat) (gs : List Nat) : (Dev.staleGroups d p gs).backlog = d.backlog := by
  induction gs generalizing d with
  | nil => rfl
  | cons g gs ih => rw [Dev.staleGroups, ih]; (repeat' split) <;> simp
@[simp] theorem Dev.partitionStale_backlog (d x1) : (Dev.partitionStale d x1).backlog = d.backlog := by
  fun_cases Dev.partitionStale d x1 <;> simp_all
theorem Dev.placeEns_backlog {d d1 : Dev} {p n b} (h : d.placeEns p n b = some d1) : d1.backlog = d.backlog := by
  simp only [Dev.placeEns] at h
  split at h
  · rw [← Option.some.inj h]; simp
  · cases h
@[simp] theorem Dev.loadKeys_backlog (d x1) : (Dev.loadKeys d x1).backlog = d.backlog := by
  fun_induction Dev.loadKeys d x1 <;> simp_all
@[simp] theorem Dev.storeWrite_backlog (d x1) : (Dev.storeWrite d x1).backlog = d.backlog := by
  simp [Dev.storeWrite]
@[simp] theorem Dev.msRefresh_backlog (d) : (Dev.msRefresh d).backlog = d.backlog := by
  simp [Dev.msRefresh]
@[simp] theorem Dev.stageRefresh_backlog (d : Dev) (ps : List Nat) : (Dev.stageRefresh d ps).backlog = d.backlog := by
  induction ps generalizing d with
  | nil => rfl
  | cons p ps ih => rw [Dev.stageRefresh, ih]; split <;> simp
@[simp] theorem Dev.catalogue_backlog (d) : (Dev.catalogue d).backlog = d.backlog := by
  simp [Dev.catalogue]
@[simp] theorem Dev.stgStart_backlog (d x1) : (Dev.stgStart d x1).backlog = d.backlog := by
  simp [Dev.stgStart]
@[simp] theorem Dev.zeroGr_backlog (d x1 x2 x3) : (Dev.zeroGr d x1 x2 x3).backlog = d.backlog := by
  simp [Dev.zeroGr]
@[simp] theorem Dev.joinShare_backlog (d x1) : (Dev.joinShare d x1).backlog = d.backlog := by
  simp [Dev.joinShare]
@[simp] theorem Dev.entSet_backlog (d x1 x2) : (Dev.entSet d x1 x2).backlog = d.backlog := by
  simp [Dev.entSet]
@[simp] theorem Dev.shareRegs_backlog (d x1) : (Dev.shareRegs d x1).backlog = d.backlog := by
  fun_induction Dev.shareRegs d x1 <;> simp_all
@[simp] theorem Dev.mirrorRebuild_backlog (d x1) : (Dev.mirrorRebuild d x1).backlog = d.backlog := by
  unfold Dev.mirrorRebuild
  dsimp only
  (repeat' split) <;> simp
@[simp] theorem Dev.coreSections_backlog (d x1 x2 x3) : (Dev.coreSections d x1 x2 x3).backlog = d.backlog := by
  fun_induction Dev.coreSections d x1 x2 x3 <;> simp_all
@[simp] theorem Dev.restageCore_backlog (d x1 x2) : (Dev.restageCore d x1 x2).backlog = d.backlog := by
  unfold Dev.restageCore
  (repeat' split) <;> simp
@[simp] theorem Dev.restageCores_backlog (d x1 x2) : (Dev.restageCores d x1 x2).backlog = d.backlog := by
  fun_induction Dev.restageCores d x1 x2 <;> simp_all
@[simp] theorem Dev.shareSections_backlog (d x1 x2) : (Dev.shareSections d x1 x2).backlog = d.backlog := by
  fun_induction Dev.shareSections d x1 x2 <;> simp_all
@[simp] theorem Dev.restagePtn_backlog (d x1) : (Dev.restagePtn d x1).backlog = d.backlog := by
  simp [Dev.restagePtn]
@[simp] theorem Dev.installUpd_backlog (d x1 x2) : (Dev.installUpd d x1 x2).backlog = d.backlog := by
  simp [Dev.installUpd]
theorem Dev.stageSections_backlog {d d1 : Dev} {p n ss} (h : d.stageSections p n ss = some d1) : d1.backlog = d.backlog := by
  induction ss generalizing d with
  | nil => simp only [Dev.stageSections, Option.some.injEq] at h; rw [h]
  | cons s ss ih =>
    unfold Dev.stageSections at h
    repeat' split at h
    · rename_i heq; rw [ih h, Dev.placeEns_backlog heq]
    · cases h
    · cases h
    · rw [ih h]; simp
    · rw [ih h]; simp
    · exact ih h
@[simp] theorem Dev.endBundle_backlog (d x1 x2) : (Dev.endBundle d x1 x2).backlog = d.backlog := by
  simp [Dev.endBundle]
@[simp] theorem Dev.endBundles_backlog (d x1 x2) : (Dev.endBundles d x1 x2).backlog = d.backlog := by
  fun_induction Dev.endBundles d x1 x2 <;> simp_all
@[simp] theorem Dev.measChange_backlog (d x1) : (Dev.measChange d x1).backlog = d.backlog := by
  simp [Dev.measChange]
theorem Dev.commitPlane_backlog {d d1 : Dev} {n g b} (h : d.commitPlane n g b = some d1) : d1.backlog = d.backlog := by
  unfold Dev.commitPlane at h
  split at h
  · rw [Option.map_eq_some_iff] at h
    obtain ⟨x, hx, rfl⟩ := h
    exact (Dev.commit_backlog _ _).trans ((Dev.stageSections_backlog hx).trans (Dev.endBundles_backlog _ _ _))
  · cases h
@[simp] theorem Dev.catalogueBundle_backlog (d x1 x2 x3 x4) : (Dev.catalogueBundle d x1 x2 x3 x4).backlog = d.backlog := by
  unfold Dev.catalogueBundle
  (repeat' split) <;> simp
@[simp] theorem Dev.commitCores_backlog (d : Dev) (b : Bundle) (rs : List Nat) : (Dev.commitCores d b rs).backlog = d.backlog := by
  induction rs generalizing d with
  | nil => rfl
  | cons r rs ih => rw [Dev.commitCores, ih]; split <;> simp
@[simp] theorem Dev.commitImages_backlog (d : Dev) (b : Bundle) (rs : List Region) : (Dev.commitImages d b rs).backlog = d.backlog := by
  induction rs generalizing d with
  | nil => rfl
  | cons r rs ih => rw [Dev.commitImages, ih]; (repeat' split) <;> simp
@[simp] theorem Dev.bundleFree_backlog (d x1) : (Dev.bundleFree d x1).1.backlog = d.backlog := by
  unfold Dev.bundleFree
  dsimp only
  (repeat' split) <;> simp
@[simp] theorem Dev.wrBytes_backlog (d x1 x2 x3) : (Dev.wrBytes d x1 x2 x3).backlog = d.backlog := by
  simp [Dev.wrBytes]
@[simp] theorem Dev.ptnRegs_backlog (d) : (Dev.ptnRegs d).backlog = d.backlog := by
  simp [Dev.ptnRegs]
@[simp] theorem Dev.granuleScrubDone_backlog (d) : (Dev.granuleScrubDone d).backlog = d.backlog := by
  unfold Dev.granuleScrubDone
  (repeat' split) <;> simp
@[simp] theorem Dev.ptnState_backlog (d x1 x2) : (Dev.ptnState d x1 x2).backlog = d.backlog := by
  simp [Dev.ptnState]
@[simp] theorem Dev.planAll_backlog (d) : (Dev.planAll d).backlog = d.backlog := by
  simp [Dev.planAll]
@[simp] theorem Dev.coresLost_backlog (d x1) : (Dev.coresLost d x1).backlog = d.backlog := by
  simp [Dev.coresLost]
@[simp] theorem Dev.stackStat_backlog (d x1 x2) : (Dev.stackStat d x1 x2).backlog = d.backlog := by
  simp [Dev.stackStat]
@[simp] theorem Dev.remapHolds_backlog (d) : (Dev.remapHolds d).backlog = d.backlog := by
  simp [Dev.remapHolds]
@[simp] theorem Dev.pathSet_backlog (d x1 x2) : (Dev.pathSet d x1 x2).backlog = d.backlog := by
  simp [Dev.pathSet]
@[simp] theorem Dev.offer_backlog (d x1 x2) : (Dev.offer d x1 x2).backlog = d.backlog := by
  simp [Dev.offer]
@[simp] theorem Dev.teleRecord_backlog (d) : (Dev.teleRecord d).backlog = d.backlog := by
  unfold Dev.teleRecord
  (repeat' split) <;> simp
@[simp] theorem Dev.mgmtOut_backlog (d x1) : (Dev.mgmtOut d x1).backlog = d.backlog := by
  simp [Dev.mgmtOut]
@[simp] theorem Dev.emitAll_backlog (d x1) : (Dev.emitAll d x1).backlog = d.backlog := by
  fun_induction Dev.emitAll d x1 <;> simp_all
@[simp] theorem Dev.mgmtDrain_backlog (d) : (Dev.mgmtDrain d).backlog = d.backlog := by
  simp [Dev.mgmtDrain]
@[simp] theorem Dev.teleDgram_backlog (d x1) : (Dev.teleDgram d x1).backlog = d.backlog := by
  simp [Dev.teleDgram]
@[simp] theorem Dev.teleFirst_backlog (d x1 x2) : (Dev.teleFirst d x1 x2).backlog = d.backlog := by
  simp [Dev.teleFirst]
@[simp] theorem Dev.alarmSend_backlog (d) : (Dev.alarmSend d).backlog = d.backlog := by
  unfold Dev.alarmSend
  (repeat' split) <;> simp
@[simp] theorem Dev.alarmsAgain_backlog (d x1) : (Dev.alarmsAgain d x1).backlog = d.backlog := by
  simp [Dev.alarmsAgain]
@[simp] theorem Dev.summary_backlog (d x1) : (Dev.summary d x1).backlog = d.backlog := by
  simp [Dev.summary]
@[simp] theorem Dev.pathUp_backlog (d x1) : (Dev.pathUp d x1).backlog = d.backlog := by
  simp [Dev.pathUp]
@[simp] theorem Dev.pathDown_backlog (d x1) : (Dev.pathDown d x1).backlog = d.backlog := by
  simp [Dev.pathDown]
@[simp] theorem Dev.portRecords_backlog (d x1) : (Dev.portRecords d x1).backlog = d.backlog := by
  fun_induction Dev.portRecords d x1 <;> simp_all
@[simp] theorem Dev.ptnRecords_backlog (d x1) : (Dev.ptnRecords d x1).backlog = d.backlog := by
  fun_induction Dev.ptnRecords d x1 <;> simp_all
@[simp] theorem Dev.summaryPeriod_backlog (d) : (Dev.summaryPeriod d).backlog = d.backlog := by
  simp [Dev.summaryPeriod]
@[simp] theorem Dev.recvComplete_backlog (d x1) : (Dev.recvComplete d x1).backlog = d.backlog := by
  unfold Dev.recvComplete
  dsimp only
  (repeat' split) <;> simp
@[simp] theorem Dev.fwTele_backlog (d x1 x2 x3 x4 x5 x6) : (Dev.fwTele d x1 x2 x3 x4 x5 x6).backlog = d.backlog := by
  simp [Dev.fwTele]
@[simp] theorem Dev.tmuCount_backlog (d x1) : (Dev.tmuCount d x1).backlog = d.backlog := by
  simp [Dev.tmuCount]
@[simp] theorem Dev.tmuRegs_backlog (d) : (Dev.tmuRegs d).backlog = d.backlog := by
  simp [Dev.tmuRegs]
@[simp] theorem Dev.tmuUpd_backlog (d x1) : (Dev.tmuUpd d x1).backlog = d.backlog := by
  simp [Dev.tmuUpd]
@[simp] theorem Dev.tmuState_backlog (d x1) : (Dev.tmuState d x1).backlog = d.backlog := by
  simp [Dev.tmuState]
@[simp] theorem Dev.reselect_backlog (d) : (Dev.reselect d).backlog = d.backlog := by
  simp [Dev.reselect]
@[simp] theorem Dev.foldGrowth_backlog (d) : (Dev.foldGrowth d).backlog = d.backlog := by
  simp [Dev.foldGrowth]
@[simp] theorem Dev.setBound_backlog (d x1) : (Dev.setBound d x1).backlog = d.backlog := by
  simp [Dev.setBound]
@[simp] theorem Dev.errorBound_backlog (d) : (Dev.errorBound d).backlog = d.backlog := by
  simp [Dev.errorBound]
@[simp] theorem Dev.slewBy_backlog (d x1) : (Dev.slewBy d x1).backlog = d.backlog := by
  simp [Dev.slewBy]
@[simp] theorem Dev.schedStep_backlog (d x1) : (Dev.schedStep d x1).backlog = d.backlog := by
  unfold Dev.schedStep
  (repeat' split) <;> simp
@[simp] theorem Dev.cancelStep_backlog (d) : (Dev.cancelStep d).backlog = d.backlog := by
  unfold Dev.cancelStep
  (repeat' split) <;> simp
@[simp] theorem Dev.boundAt_backlog (d x1 x2) : (Dev.boundAt d x1 x2).backlog = d.backlog := by
  simp [Dev.boundAt]
@[simp] theorem Dev.noteOffset_backlog (d x1 x2 x3) : (Dev.noteOffset d x1 x2 x3).backlog = d.backlog := by
  simp [Dev.noteOffset]
@[simp] theorem Dev.slewMeas_backlog (d x1) : (Dev.slewMeas d x1).backlog = d.backlog := by
  simp [Dev.slewMeas]
@[simp] theorem Dev.lockMeas_backlog (d x1) : (Dev.lockMeas d x1).backlog = d.backlog := by
  simp [Dev.lockMeas]
@[simp] theorem Dev.applyOffset_backlog (d x1 x2) : (Dev.applyOffset d x1 x2).backlog = d.backlog := by
  simp [Dev.applyOffset]
@[simp] theorem Dev.utcSet_backlog (d x1) : (Dev.utcSet d x1).backlog = d.backlog := by
  simp [Dev.utcSet]
@[simp] theorem Dev.ptpUtc_backlog (d) : (Dev.ptpUtc d).backlog = d.backlog := by
  unfold Dev.ptpUtc
  (repeat' split) <;> simp
@[simp] theorem Dev.goodMeas_backlog (d x1 x2 x3) : (Dev.goodMeas d x1 x2 x3).backlog = d.backlog := by
  simp [Dev.goodMeas]
@[simp] theorem Dev.sourceLoss_backlog (d x1) : (Dev.sourceLoss d x1).backlog = d.backlog := by
  simp [Dev.sourceLoss]
@[simp] theorem Dev.ptpMeasurement_backlog (d x1 x2 x3 x4 x5) : (Dev.ptpMeasurement d x1 x2 x3 x4 x5).backlog = d.backlog := by
  unfold Dev.ptpMeasurement
  (repeat' split) <;> simp
@[simp] theorem Dev.ppsIn_backlog (d x1) : (Dev.ppsIn d x1).backlog = d.backlog := by
  simp [Dev.ppsIn]
@[simp] theorem Dev.irigFrame_backlog (d x1 x2) : (Dev.irigFrame d x1 x2).backlog = d.backlog := by
  simp [Dev.irigFrame]
@[simp] theorem Dev.timeSet_backlog (d x1 x2) : (Dev.timeSet d x1 x2).1.backlog = d.backlog := by
  unfold Dev.timeSet
  (repeat' split) <;> simp
@[simp] theorem Dev.refLoss_backlog (d) : (Dev.refLoss d).backlog = d.backlog := by
  simp [Dev.refLoss]
@[simp] theorem Dev.refReturn_backlog (d) : (Dev.refReturn d).backlog = d.backlog := by
  simp [Dev.refReturn]
@[simp] theorem Dev.ppsOut_backlog (d) : (Dev.ppsOut d).backlog = d.backlog := by
  simp [Dev.ppsOut]
@[simp] theorem Dev.ppsOutEnd_backlog (d) : (Dev.ppsOutEnd d).backlog = d.backlog := by
  simp [Dev.ppsOutEnd]
@[simp] theorem Dev.leapSecond_backlog (d) : (Dev.leapSecond d).backlog = d.backlog := by
  simp [Dev.leapSecond]
@[simp] theorem Dev.timeCfg_backlog (d x1 x2) : (Dev.timeCfg d x1 x2).backlog = d.backlog := by
  simp [Dev.timeCfg]
@[simp] theorem Dev.ptpHear_backlog (d x1 x2) : (Dev.ptpHear d x1 x2).backlog = d.backlog := by
  simp [Dev.ptpHear]
@[simp] theorem Dev.nowWord_backlog (d x1) : (Dev.nowWord d x1).1.backlog = d.backlog := by
  simp [Dev.nowWord]
@[simp] theorem Dev.nowRead_backlog (d x1) : (Dev.nowRead d x1).backlog = d.backlog := by
  simp [Dev.nowRead]
@[simp] theorem Dev.mbxSet_backlog (d x1 x2) : (Dev.mbxSet d x1 x2).backlog = d.backlog := by
  simp [Dev.mbxSet]
@[simp] theorem Dev.dmaSet_backlog (d x1 x2 x3) : (Dev.dmaSet d x1 x2 x3).backlog = d.backlog := by
  simp [Dev.dmaSet]
@[simp] theorem Dev.mbxEvent_backlog (d x1 x2) : (Dev.mbxEvent d x1 x2).backlog = d.backlog := by
  simp [Dev.mbxEvent]
@[simp] theorem Dev.mbxBad_backlog (d x1) : (Dev.mbxBad d x1).backlog = d.backlog := by
  simp [Dev.mbxBad]
@[simp] theorem Dev.mbxRing_backlog (d x1) : (Dev.mbxRing d x1).backlog = d.backlog := by
  simp [Dev.mbxRing]
@[simp] theorem Dev.mbxDeliver_backlog (d x1 x2) : (Dev.mbxDeliver d x1 x2).backlog = d.backlog := by
  simp [Dev.mbxDeliver]
@[simp] theorem Dev.mbxRack_backlog (d x1) : (Dev.mbxRack d x1).backlog = d.backlog := by
  unfold Dev.mbxRack
  dsimp only
  (repeat' split) <;> simp
@[simp] theorem Dev.mbxRespond_backlog (d x1 x2 x3 x4 x5) : (Dev.mbxRespond d x1 x2 x3 x4 x5).backlog = d.backlog := by
  simp [Dev.mbxRespond]
@[simp] theorem Dev.mbxTake_backlog (d x1) : (Dev.mbxTake d x1).backlog = d.backlog := by
  fun_cases Dev.mbxTake d x1 <;> simp_all +zetaDelta
@[simp] theorem Dev.answer_backlog (d x1 x2 x3 x4) : (Dev.answer d x1 x2 x3 x4).backlog = d.backlog := by
  simp [Dev.answer]
@[simp] theorem Dev.messageSegment_backlog (d x1) : (Dev.messageSegment d x1).backlog = d.backlog := by
  unfold Dev.messageSegment
  (repeat' split) <;> simp
@[simp] theorem Dev.hello_backlog (d x1) : (Dev.hello d x1).backlog = d.backlog := by
  unfold Dev.hello
  (repeat' split) <;> simp
@[simp] theorem Dev.bundleInstall_backlog (d) : (Dev.bundleInstall d).backlog = d.backlog := by
  unfold Dev.bundleInstall
  (repeat' split) <;> simp
@[simp] theorem Dev.bundleStatus_backlog (d) : (Dev.bundleStatus d).backlog = d.backlog := by
  unfold Dev.bundleStatus
  (repeat' split) <;> simp
@[simp] theorem Dev.bundleFreeMsg_backlog (d) : (Dev.bundleFreeMsg d).backlog = d.backlog := by
  unfold Dev.bundleFreeMsg
  dsimp only
  (repeat' split) <;> simp
@[simp] theorem Dev.directGrant_backlog (d) : (Dev.directGrant d).backlog = d.backlog := by
  unfold Dev.directGrant
  (repeat' split) <;> simp
@[simp] theorem Dev.dmaqCreate_backlog (d x1) : (Dev.dmaqCreate d x1).backlog = d.backlog := by
  unfold Dev.dmaqCreate
  (repeat' split) <;> simp
@[simp] theorem Dev.dmaqDestroy_backlog (d x1) : (Dev.dmaqDestroy d x1).backlog = d.backlog := by
  unfold Dev.dmaqDestroy
  (repeat' split) <;> simp
@[simp] theorem Dev.dmaWrite_backlog (d x1 x2 x3 x4 x5 x6) : (Dev.dmaWrite d x1 x2 x3 x4 x5 x6).backlog = d.backlog := by
  simp [Dev.dmaWrite]
@[simp] theorem Dev.dmaRecv_backlog (d x1 x2) : (Dev.dmaRecv d x1 x2).backlog = d.backlog := by
  simp [Dev.dmaRecv]
@[simp] theorem Dev.msixDeliver_backlog (d x1 x2) : (Dev.msixDeliver d x1 x2).backlog = d.backlog := by
  simp [Dev.msixDeliver]
@[simp] theorem Dev.fnReset_backlog (d x1) : (Dev.fnReset d x1).backlog = d.backlog := by
  simp [Dev.fnReset]
@[simp] theorem Dev.fnResets_backlog (d x1) : (Dev.fnResets d x1).backlog = d.backlog := by
  fun_induction Dev.fnResets d x1 <;> simp_all +zetaDelta
@[simp] theorem Dev.linkTrained_backlog (d x1 x2 x3) : (Dev.linkTrained d x1 x2 x3).backlog = d.backlog := by
  simp [Dev.linkTrained]
@[simp] theorem Dev.configWrite_backlog (d x1) : (Dev.configWrite d x1).backlog = d.backlog := by
  unfold Dev.configWrite
  (repeat' split) <;> simp
@[simp] theorem Dev.doeDiscovery_backlog (d x1) : (Dev.doeDiscovery d x1).backlog = d.backlog := by
  simp [Dev.doeDiscovery]
@[simp] theorem Dev.dieFld_backlog (d x1 x2 x3 x4) : (Dev.dieFld d x1 x2 x3 x4).backlog = d.backlog := by
  simp [Dev.dieFld]
@[simp] theorem Dev.kRequest_backlog (d x1 x2) : (Dev.kRequest d x1 x2).backlog = d.backlog := by
  simp [Dev.kRequest]
@[simp] theorem Dev.kForce_backlog (d x1 x2) : (Dev.kForce d x1 x2).backlog = d.backlog := by
  simp [Dev.kForce]
@[simp] theorem Dev.tclkStep_backlog (d x1) : (Dev.tclkStep d x1).backlog = d.backlog := by
  unfold Dev.tclkStep
  (repeat' split) <;> simp
@[simp] theorem Dev.tclkSteps_backlog (d x1) : (Dev.tclkSteps d x1).backlog = d.backlog := by
  fun_induction Dev.tclkSteps d x1 <;> simp_all
@[simp] theorem Dev.hbmLimSet_backlog (d x1) : (Dev.hbmLimSet d x1).backlog = d.backlog := by
  simp [Dev.hbmLimSet]
@[simp] theorem Dev.msLimSet_backlog (d x1) : (Dev.msLimSet d x1).backlog = d.backlog := by
  simp [Dev.msLimSet]
@[simp] theorem Dev.stepPart_backlog (d x1 x2) : (Dev.stepPart d x1 x2).backlog = d.backlog := by
  unfold Dev.stepPart
  (repeat' split) <;> simp
@[simp] theorem Dev.reduceWalk_backlog (d x1 x2 x3 x4 x5) : (Dev.reduceWalk d x1 x2 x3 x4 x5).1.backlog = d.backlog := by
  fun_induction Dev.reduceWalk d x1 x2 x3 x4 x5 <;> simp_all +zetaDelta
@[simp] theorem Dev.ceilWalk_backlog (d x1) : (Dev.ceilWalk d x1).1.backlog = d.backlog := by
  fun_induction Dev.ceilWalk d x1 <;> simp_all +zetaDelta
@[simp] theorem Dev.raiseOne_backlog (d x1 x2 x3) : (Dev.raiseOne d x1 x2 x3).backlog = d.backlog := by
  unfold Dev.raiseOne
  (repeat' split) <;> simp
@[simp] theorem Dev.railOk_backlog (d x1) : (Dev.railOk d x1).backlog = d.backlog := by
  simp [Dev.railOk]
@[simp] theorem Dev.pwrStat_backlog (d x1 x2 x3 x4) : (Dev.pwrStat d x1 x2 x3 x4).backlog = d.backlog := by
  simp [Dev.pwrStat]
@[simp] theorem Dev.pwrHot_backlog (d) : (Dev.pwrHot d).backlog = d.backlog := by
  simp [Dev.pwrHot]
@[simp] theorem Dev.thermalLoop_backlog (d x1) : (Dev.thermalLoop d x1).backlog = d.backlog := by
  simp [Dev.thermalLoop]
@[simp] theorem Dev.holdB_backlog (d x1) : (Dev.holdB d x1).backlog = d.backlog := by
  simp [Dev.holdB]
@[simp] theorem Dev.hwThrottle_backlog (d x1 x2) : (Dev.hwThrottle d x1 x2).backlog = d.backlog := by
  simp [Dev.hwThrottle]
@[simp] theorem Dev.kRaise_backlog (d x1) : (Dev.kRaise d x1).backlog = d.backlog := by
  simp [Dev.kRaise]
@[simp] theorem Dev.secRegs_backlog (d) : (Dev.secRegs d).backlog = d.backlog := by
  simp [Dev.secRegs]
@[simp] theorem Dev.measSel_backlog (d x1) : (Dev.measSel d x1).backlog = d.backlog := by
  simp [Dev.measSel]
@[simp] theorem Dev.pkSel_backlog (d x1) : (Dev.pkSel d x1).backlog = d.backlog := by
  simp [Dev.pkSel]
@[simp] theorem Dev.mbxDrop_backlog (d) : (Dev.mbxDrop d).backlog = d.backlog := by
  simp [Dev.mbxDrop]
@[simp] theorem Dev.sessSet_backlog (d x1 x2) : (Dev.sessSet d x1 x2).backlog = d.backlog := by
  simp [Dev.sessSet]
@[simp] theorem Dev.sessUpd_backlog (d x1 x2) : (Dev.sessUpd d x1 x2).backlog = d.backlog := by
  simp [Dev.sessUpd]
@[simp] theorem Dev.storeImage_backlog (d x1 x2) : (Dev.storeImage d x1 x2).1.backlog = d.backlog := by
  simp [Dev.storeImage]
@[simp] theorem Dev.applyWords_backlog (d x1 x2 x3) : (Dev.applyWords d x1 x2 x3).backlog = d.backlog := by
  simp [Dev.applyWords]
@[simp] theorem Dev.applyPort_backlog (d x1 x2) : (Dev.applyPort d x1 x2).backlog = d.backlog := by
  simp [Dev.applyPort]
@[simp] theorem Dev.applyPorts_backlog (d x1) : (Dev.applyPorts d x1).backlog = d.backlog := by
  fun_induction Dev.applyPorts d x1 <;> simp_all
@[simp] theorem Dev.splitChange_backlog (d x1 x2) : (Dev.splitChange d x1 x2).backlog = d.backlog := by
  simp [Dev.splitChange]
@[simp] theorem Dev.dictReadMsg_backlog (d x1) : (Dev.dictReadMsg d x1).backlog = d.backlog := by
  unfold Dev.dictReadMsg
  dsimp only
  (repeat' split) <;> simp
@[simp] theorem Dev.segment_backlog (d x1) : (Dev.segment d x1).backlog = d.backlog := by
  unfold Dev.segment
  (repeat' split) <;> simp
@[simp] theorem Dev.canPath_backlog (d) : (Dev.canPath d).backlog = d.backlog := by
  simp [Dev.canPath]
@[simp] theorem Dev.sdoSay_backlog (d x1) : (Dev.sdoSay d x1).backlog = d.backlog := by
  simp [Dev.sdoSay]
@[simp] theorem Dev.sdoAbort_backlog (d x1 x2 x3) : (Dev.sdoAbort d x1 x2 x3).backlog = d.backlog := by
  simp [Dev.sdoAbort]
@[simp] theorem Dev.sessEnd_backlog (d x1) : (Dev.sessEnd d x1).backlog = d.backlog := by
  simp [Dev.sessEnd]
@[simp] theorem Dev.sdoTimeout_backlog (d x1) : (Dev.sdoTimeout d x1).backlog = d.backlog := by
  unfold Dev.sdoTimeout
  dsimp only
  (repeat' split) <;> simp
@[simp] theorem Dev.nmtSet_backlog (d x1) : (Dev.nmtSet d x1).backlog = d.backlog := by
  simp [Dev.nmtSet]
@[simp] theorem Dev.canStart_backlog (d) : (Dev.canStart d).backlog = d.backlog := by
  simp [Dev.canStart]
@[simp] theorem Dev.nmtReset_backlog (d) : (Dev.nmtReset d).backlog = d.backlog := by
  simp [Dev.nmtReset]
@[simp] theorem Dev.heartbeat_backlog (d) : (Dev.heartbeat d).backlog = d.backlog := by
  simp [Dev.heartbeat]
@[simp] theorem Dev.canError_backlog (d x1 x2) : (Dev.canError d x1 x2).backlog = d.backlog := by
  simp [Dev.canError]
@[simp] theorem Dev.udpTimeout_backlog (d x1) : (Dev.udpTimeout d x1).backlog = d.backlog := by
  simp [Dev.udpTimeout]
@[simp] theorem Dev.usbFail_backlog (d x1 x2 x3) : (Dev.usbFail d x1 x2 x3).backlog = d.backlog := by
  simp [Dev.usbFail]
@[simp] theorem Dev.usbGate_backlog (d : Dev) (i s : Nat) (go : Dev) (h : go.backlog = d.backlog) : (d.usbGate i s go).backlog = d.backlog := by
  unfold Dev.usbGate
  (repeat' split) <;> simp [h]
@[simp] theorem Dev.usbRead_backlog (d x1 x2 x3 x4) : (Dev.usbRead d x1 x2 x3 x4).backlog = d.backlog := by
  unfold Dev.usbRead
  dsimp only
  (repeat' split) <;> simp
@[simp] theorem Dev.usbWrite_backlog (d x1 x2 x3 x4) : (Dev.usbWrite d x1 x2 x3 x4).backlog = d.backlog := by
  unfold Dev.usbWrite
  dsimp only
  (repeat' split) <;> simp
@[simp] theorem Dev.usbResult_backlog (d) : (Dev.usbResult d).backlog = d.backlog := by
  simp [Dev.usbResult]
@[simp] theorem Dev.usbReset_backlog (d) : (Dev.usbReset d).backlog = d.backlog := by
  simp [Dev.usbReset]
@[simp] theorem Dev.tokenExpire_backlog (d x1) : (Dev.tokenExpire d x1).backlog = d.backlog := by
  simp [Dev.tokenExpire]
@[simp] theorem Dev.pathRise_backlog (d x1) : (Dev.pathRise d x1).backlog = d.backlog := by
  unfold Dev.pathRise
  (repeat' split) <;> simp
@[simp] theorem Dev.pathFall_backlog (d x1) : (Dev.pathFall d x1).backlog = d.backlog := by
  unfold Dev.pathFall
  (repeat' split) <;> simp
@[simp] theorem Dev.mgmtFrame_backlog (d x1) : (Dev.mgmtFrame d x1).backlog = d.backlog := by
  unfold Dev.mgmtFrame
  (repeat' split) <;> simp
@[simp] theorem Dev.slowSend_backlog (d x1 x2 x3 x4) : (Dev.slowSend d x1 x2 x3 x4).backlog = d.backlog := by
  simp [Dev.slowSend]
@[simp] theorem Dev.setHeld_backlog (d x1) : (Dev.setHeld d x1).backlog = d.backlog := by
  simp [Dev.setHeld]
@[simp] theorem Dev.exportRecs_backlog (d) : (Dev.exportRecs d).backlog = d.backlog := by
  simp [Dev.exportRecs]
@[simp] theorem Dev.compFresh_backlog (d x1) : (Dev.compFresh d x1).backlog = d.backlog := by
  simp [Dev.compFresh]
@[simp] theorem Dev.importRec_backlog (d x1) : (Dev.importRec d x1).backlog = d.backlog := by
  unfold Dev.importRec
  (repeat' split) <;> simp
@[simp] theorem Dev.importRecs_backlog (d x1) : (Dev.importRecs d x1).backlog = d.backlog := by
  fun_induction Dev.importRecs d x1 <;> simp_all
@[simp] theorem Dev.dropTransfers_backlog (d) : (Dev.dropTransfers d).backlog = d.backlog := by
  simp [Dev.dropTransfers]
@[simp] theorem Dev.retainedWrite_backlog (d) : (Dev.retainedWrite d).backlog = d.backlog := by
  simp [Dev.retainedWrite]
@[simp] theorem Dev.assignAll_backlog (d x1) : (Dev.assignAll d x1).backlog = d.backlog := by
  fun_induction Dev.assignAll d x1 <;> simp_all
theorem Dev.stageSections_getD_backlog (d : Dev) (p n ss) : ((d.stageSections p n ss).getD d).backlog = d.backlog := by
  cases h : d.stageSections p n ss with
  | none => rfl
  | some d1 => exact Dev.stageSections_backlog h
@[simp] theorem Dev.bundleStage_backlog (d : Dev) (n : Nat) (bs : List Bundle) : (Dev.bundleStage d n bs).backlog = d.backlog := by
  induction bs generalizing d with
  | nil => rfl
  | cons b bs ih => simp [Dev.bundleStage, ih, Dev.stageSections_getD_backlog]
@[simp] theorem Dev.savedPart_backlog (d x1 x2) : (Dev.savedPart d x1 x2).backlog = d.backlog := by
  simp [Dev.savedPart]
@[simp] theorem Dev.saveValues_backlog (d x1) : (Dev.saveValues d x1).backlog = d.backlog := by
  simp [Dev.saveValues]
@[simp] theorem Dev.reportParts_backlog (d x1) : (Dev.reportParts d x1).backlog = d.backlog := by
  unfold Dev.reportParts
  (repeat' split) <;> simp
@[simp] theorem Dev.dictRestore_backlog (d) : (Dev.dictRestore d).backlog = d.backlog := by
  simp [Dev.dictRestore]
@[simp] theorem Dev.partitionRestage_backlog (d) : (Dev.partitionRestage d).backlog = d.backlog := by
  unfold Dev.partitionRestage
  (repeat' split) <;> simp
@[simp] theorem Dev.spdmSay_backlog (d x1) : (Dev.spdmSay d x1).backlog = d.backlog := by
  simp [Dev.spdmSay]
@[simp] theorem Dev.spdmErr_backlog (d x1 x2) : (Dev.spdmErr d x1 x2).backlog = d.backlog := by
  simp [Dev.spdmErr]
@[simp] theorem Dev.spdmAnswer_backlog (d x1 x2) : (Dev.spdmAnswer d x1 x2).backlog = d.backlog := by
  simp [Dev.spdmAnswer]
@[simp] theorem Dev.draw_backlog (d x1) : (Dev.draw d x1).2.backlog = d.backlog := by
  simp [Dev.draw]
theorem Dev.spdmGate_backlog (d : Dev) (sid : Option Nat) (req : List Byte) (len need : Nat) (go : Dev) (h : go.backlog = d.backlog) :
    (d.spdmGate sid req len need go).backlog = d.backlog := by
  unfold Dev.spdmGate
  (repeat' split) <;> simp [h]
@[simp] theorem Dev.spdmSigned_backlog (d x1 x2) : (Dev.spdmSigned d x1 x2).backlog = d.backlog := by
  unfold Dev.spdmSigned
  dsimp only
  (repeat' split) <;> simp
@[simp] theorem Dev.spdmSign_backlog (d x1 x2 x3 x4) : (Dev.spdmSign d x1 x2 x3 x4).backlog = d.backlog := by
  simp [Dev.spdmSign]
@[simp] theorem Dev.getVersion_backlog (d x1) : (Dev.getVersion d x1).backlog = d.backlog := by
  simp [Dev.getVersion]
@[simp] theorem Dev.getCapabilities_backlog (d x1) : (Dev.getCapabilities d x1).backlog = d.backlog := by
  unfold Dev.getCapabilities
  dsimp only
  refine Dev.spdmGate_backlog _ _ _ _ _ _ ?_
  (repeat' split) <;> simp
@[simp] theorem Dev.negotiate_backlog (d x1) : (Dev.negotiate d x1).backlog = d.backlog := by
  unfold Dev.negotiate
  dsimp only
  refine Dev.spdmGate_backlog _ _ _ _ _ _ ?_
  (repeat' split) <;> simp
@[simp] theorem Dev.getDigests_backlog (d x1 x2) : (Dev.getDigests d x1 x2).backlog = d.backlog := by
  unfold Dev.getDigests
  refine Dev.spdmGate_backlog _ _ _ _ _ _ ?_
  simp
@[simp] theorem Dev.getCertificate_backlog (d x1 x2) : (Dev.getCertificate d x1 x2).backlog = d.backlog := by
  unfold Dev.getCertificate
  dsimp only
  refine Dev.spdmGate_backlog _ _ _ _ _ _ ?_
  (repeat' split) <;> simp
@[simp] theorem Dev.spdmChallenge_backlog (d x1 x2) : (Dev.spdmChallenge d x1 x2).backlog = d.backlog := by
  unfold Dev.spdmChallenge
  dsimp only
  refine Dev.spdmGate_backlog _ _ _ _ _ _ ?_
  (repeat' split) <;> simp
@[simp] theorem Dev.getMeasurements_backlog (d x1 x2) : (Dev.getMeasurements d x1 x2).backlog = d.backlog := by
  unfold Dev.getMeasurements
  dsimp only
  refine Dev.spdmGate_backlog _ _ _ _ _ _ ?_
  (repeat' split) <;> simp
@[simp] theorem Dev.keyExchange_backlog (d x1 x2) : (Dev.keyExchange d x1 x2).backlog = d.backlog := by
  unfold Dev.keyExchange
  dsimp only
  refine Dev.spdmGate_backlog _ _ _ _ _ _ ?_
  (repeat' split) <;> simp
@[simp] theorem Dev.spdmFinish_backlog (d x1 x2) : (Dev.spdmFinish d x1 x2).backlog = d.backlog := by
  unfold Dev.spdmFinish
  dsimp only
  refine Dev.spdmGate_backlog _ _ _ _ _ _ ?_
  (repeat' split) <;> simp
@[simp] theorem Dev.spdmHeartbeat_backlog (d s r) : (Dev.spdmHeartbeat d s r).backlog = d.backlog := by
  refine Dev.spdmGate_backlog _ _ _ _ _ _ ?_
  split <;> simp
@[simp] theorem Dev.endSession_backlog (d x1 x2) : (Dev.endSession d x1 x2).backlog = d.backlog := by
  unfold Dev.endSession
  dsimp only
  refine Dev.spdmGate_backlog _ _ _ _ _ _ ?_
  (repeat' split) <;> simp
@[simp] theorem Dev.vendorRequest_backlog (d x1 x2) : (Dev.vendorRequest d x1 x2).backlog = d.backlog := by
  unfold Dev.vendorRequest
  dsimp only
  refine Dev.spdmGate_backlog _ _ _ _ _ _ ?_
  (repeat' split) <;> simp
@[simp] theorem Dev.newChallenge_backlog (d) : (Dev.newChallenge d).backlog = d.backlog := by
  simp [Dev.newChallenge]
@[simp] theorem Dev.txanRecord_backlog (d x1 x2) : (Dev.txanRecord d x1 x2).backlog = d.backlog := by
  simp [Dev.txanRecord]
@[simp] theorem Dev.pnwarn_backlog (d x1) : (Dev.pnwarn d x1).backlog = d.backlog := by
  unfold Dev.pnwarn
  dsimp only
  (repeat' split) <;> simp
@[simp] theorem Dev.saveSkip_backlog (d) : (Dev.saveSkip d).backlog = d.backlog := by
  simp [Dev.saveSkip]
@[simp] theorem Dev.saveBegin_backlog (d x1) : (Dev.saveBegin d x1).backlog = d.backlog := by
  simp [Dev.saveBegin]
@[simp] theorem Dev.sagTrigger_backlog (d x1) : (Dev.sagTrigger d x1).backlog = d.backlog := by
  simp [Dev.sagTrigger]
theorem Dev.hostDo_keeps {α : Type} (π : Dev → α) {d : Dev} {w : Req} {f : Dev → Dev} (h : π (f d) = π d) : π (d.hostDo w f) = π d := by
  unfold Dev.hostDo
  split
  · exact h
  · rfl
theorem Dev.fnDo_keeps {α : Type} (π : Dev → α) {d : Dev} {fn : Option Nat} {f : Dev → Dev} (h : π (f d) = π d) : π (d.fnDo fn f) = π d := by
  unfold Dev.fnDo
  split
  · exact h
  · rfl
theorem Dev.fwDo_keeps {α : Type} (π : Dev → α) {d : Dev} {f : Dev → Dev} (h : π (f d) = π d) : π (d.fwDo f) = π d := by
  unfold Dev.fwDo
  split
  · exact h
  · rfl
theorem Dev.linkDo_keeps {α : Type} (π : Dev → α) {d : Dev} {f : Dev → Dev} (h : π (f d) = π d) : π (d.linkDo f) = π d := by
  unfold Dev.linkDo
  split
  · exact h
  · rfl
@[simp] theorem Dev.hostDo_backlog (d : Dev) (w : Req) (f : Dev → Dev) (h : (f d).backlog = d.backlog) : (d.hostDo w f).backlog = d.backlog :=
  Dev.hostDo_keeps Dev.backlog h
@[simp] theorem Dev.fnDo_backlog (d : Dev) (w : Option Nat) (f : Dev → Dev) (h : (f d).backlog = d.backlog) : (d.fnDo w f).backlog = d.backlog :=
  Dev.fnDo_keeps Dev.backlog h
@[simp] theorem Dev.fwDo_backlog (d : Dev) (f : Dev → Dev) (h : (f d).backlog = d.backlog) : (d.fwDo f).backlog = d.backlog :=
  Dev.fwDo_keeps Dev.backlog h
@[simp] theorem Dev.linkDo_backlog (d : Dev) (f : Dev → Dev) (h : (f d).backlog = d.backlog) : (d.linkDo f).backlog = d.backlog :=
  Dev.linkDo_keeps Dev.backlog h
@[simp] theorem Dev.msIngress_backlog (d x1 x2) : (Dev.msIngress d x1 x2).1.backlog = d.backlog := by
  unfold Dev.msIngress
  dsimp only
  (repeat' split) <;> simp
@[simp] theorem Dev.pauseRepeat_backlog (d x1 x2) : (Dev.pauseRepeat d x1 x2).backlog = d.backlog := by
  simp [Dev.pauseRepeat]
@[simp] theorem Dev.stormTx_backlog (d x1 x2) : (Dev.stormTx d x1 x2).backlog = d.backlog := by
  simp [Dev.stormTx]
@[simp] theorem Dev.timerEnd_backlog (d x1 x2) : (Dev.timerEnd d x1 x2).backlog = d.backlog := by
  simp [Dev.timerEnd]
@[simp] theorem Dev.pauseLoad_backlog (d x1 x2 x3) : (Dev.pauseLoad d x1 x2 x3).backlog = d.backlog := by
  simp [Dev.pauseLoad]
@[simp] theorem Dev.pauseFrame_backlog (d x1 x2 x3 x4) : (Dev.pauseFrame d x1 x2 x3 x4).backlog = d.backlog := by
  simp [Dev.pauseFrame]
@[simp] theorem Dev.pfcLoads_backlog (d x1 x2 x3) : (Dev.pfcLoads d x1 x2 x3).backlog = d.backlog := by
  fun_induction Dev.pfcLoads d x1 x2 x3 <;> simp_all
@[simp] theorem Dev.pfcFrame_backlog (d x1 x2 x3 x4 x5) : (Dev.pfcFrame d x1 x2 x3 x4 x5).backlog = d.backlog := by
  simp [Dev.pfcFrame]
@[simp] theorem Dev.pauseExpire_backlog (d x1 x2) : (Dev.pauseExpire d x1 x2).backlog = d.backlog := by
  simp [Dev.pauseExpire]
@[simp] theorem Dev.stormRx_backlog (d x1 x2) : (Dev.stormRx d x1 x2).backlog = d.backlog := by
  simp [Dev.stormRx]
@[simp] theorem Dev.stormRxQuiet_backlog (d x1 x2) : (Dev.stormRxQuiet d x1 x2).backlog = d.backlog := by
  simp [Dev.stormRxQuiet]
@[simp] theorem Dev.deliver_backlog (d x1 x2 x3 x4) : (Dev.deliver d x1 x2 x3 x4).backlog = d.backlog := by
  simp [Dev.deliver]
@[simp] theorem Dev.frameReceive_backlog (d x1 x2) : (Dev.frameReceive d x1 x2).backlog = d.backlog := by
  have hin := Dev.msIngress_backlog ((d.prtCount x1 0 1).prtCount x1 1 (x2.length + 4)) x1 x2
  unfold Dev.frameReceive
  dsimp only
  (repeat' split) <;> simp_all
@[simp] theorem Dev.stomp_backlog (d x1 x2) : (Dev.stomp d x1 x2).backlog = d.backlog := by
  induction x2 generalizing d with
  | nil => rfl
  | cons a l ih => rw [Dev.stomp, ih]; (repeat' split) <;> simp
@[simp] theorem Dev.unqueue_backlog (d x1 x2) : (Dev.unqueue d x1 x2).backlog = d.backlog := by
  fun_induction Dev.unqueue d x1 x2 <;> simp_all
@[simp] theorem Dev.refreshHeads_backlog (d x1 x2) : (Dev.refreshHeads d x1 x2).backlog = d.backlog := by
  induction x2 generalizing d with
  | nil => rfl
  | cons a l ih => rw [Dev.refreshHeads, ih]; (repeat' split) <;> simp
@[simp] theorem Dev.frameEnd_backlog (d x1 x2) : (Dev.frameEnd d x1 x2).backlog = d.backlog := by
  unfold Dev.frameEnd
  dsimp only
  (repeat' split) <;> simp_all
@[simp] theorem Dev.linkChange_backlog (d x1 x2 x3 x4) : (Dev.linkChange d x1 x2 x3 x4).backlog = d.backlog := by
  simp [Dev.linkChange]
@[simp] theorem Dev.failsafeRelease_backlog (d x1) : (Dev.failsafeRelease d x1).backlog = d.backlog := by
  simp [Dev.failsafeRelease]
@[simp] theorem Dev.parCount_backlog (d x1) : (Dev.parCount d x1).backlog = d.backlog := by
  simp [Dev.parCount]
@[simp] theorem Dev.clsCount_backlog (d x1) : (Dev.clsCount d x1).backlog = d.backlog := by
  simp [Dev.clsCount]
@[simp] theorem Dev.clsCounts_backlog (d x1) : (Dev.clsCounts d x1).backlog = d.backlog := by
  fun_induction Dev.clsCounts d x1 <;> simp_all
@[simp] theorem Dev.retire_backlog (d) : (Dev.retire d).backlog = d.backlog := by
  unfold Dev.retire
  (repeat' split) <;> simp
@[simp] theorem Dev.sweepEnd_backlog (d) : (Dev.sweepEnd d).backlog = d.backlog := by
  simp [Dev.sweepEnd]
@[simp] theorem Dev.reinject_backlog (d x1 x2 x3) : (Dev.reinject d x1 x2 x3).backlog = d.backlog := by
  unfold Dev.reinject
  dsimp only
  (repeat' split) <;> simp_all
@[simp] theorem Dev.puntRelease_backlog (d x1 x2) : (Dev.puntRelease d x1 x2).backlog = d.backlog := by
  unfold Dev.puntRelease
  dsimp only
  (repeat' split) <;> simp
@[simp] theorem Dev.take1_backlog (d x1 x2) : (Dev.take1 d x1 x2).backlog = d.backlog := by
  simp [Dev.take1]
@[simp] theorem Dev.dispatchFrom_backlog (d x1 x2) : (Dev.dispatchFrom d x1 x2).backlog = d.backlog := by
  fun_induction Dev.dispatchFrom d x1 x2 <;> simp_all
@[simp] theorem Dev.dispatchTake_backlog (d) : (Dev.dispatchTake d).backlog = d.backlog := by
  simp [Dev.dispatchTake]
@[simp] theorem Dev.parseResult_backlog (d x1) : (Dev.parseResult d x1).backlog = d.backlog := by
  unfold Dev.parseResult
  dsimp only
  (repeat' split) <;> simp_all
@[simp] theorem Dev.byDefault_backlog (d x1 x2 x3) : (Dev.byDefault d x1 x2 x3).backlog = d.backlog := by
  simp [Dev.byDefault]
@[simp] theorem Dev.classify_backlog (d) : (Dev.classify d).backlog = d.backlog := by
  unfold Dev.classify
  dsimp only
  (repeat' split) <;> simp_all
@[simp] theorem Dev.agingScan_backlog (d) : (Dev.agingScan d).backlog = d.backlog := by
  simp [Dev.agingScan]
@[simp] theorem Dev.noteFileables_backlog (d x1) : (Dev.noteFileables d x1).backlog = d.backlog := by
  fun_induction Dev.noteFileables d x1 <;> simp_all
@[simp] theorem Dev.frameEndAll_backlog (d n g) : (Dev.frameEndAll d n g).backlog = d.backlog := by
  unfold Dev.frameEndAll
  dsimp only
  (repeat' split) <;> simp
theorem Dev.placeEns_getD_backlog (d : Dev) (c n b) : ((d.placeEns c n b).getD d).backlog = d.backlog := by
  cases h : d.placeEns c n b with
  | none => rfl
  | some d1 => exact Dev.placeEns_backlog h
@[simp] theorem Dev.stageFw_backlog (d x1 x2 x3) : (Dev.stageFw d x1 x2 x3).backlog = d.backlog := by
  fun_induction Dev.stageFw d x1 x2 x3 <;> simp_all [Dev.placeEns_getD_backlog]
@[simp] theorem Dev.versionCommit_backlog (d x1 x2 x3) : (Dev.versionCommit d x1 x2 x3).backlog = d.backlog := by
  unfold Dev.versionCommit
  (repeat' split) <;> simp
@[simp] theorem Dev.stageLow_backlog (d x1 x2 x3) : (Dev.stageLow d x1 x2 x3).backlog = d.backlog := by
  simp [Dev.stageLow]
@[simp] theorem Dev.pairTake_backlog (d x1 x2 x3) : (Dev.pairTake d x1 x2 x3).backlog = d.backlog := by
  simp [Dev.pairTake]
@[simp] theorem Dev.readTimeout_backlog (d x1 x2) : (Dev.readTimeout d x1 x2).backlog = d.backlog := by
  simp [Dev.readTimeout]
@[simp] theorem Dev.templateBuild_backlog (d x1 x2 x3) : (Dev.templateBuild d x1 x2 x3).backlog = d.backlog := by
  unfold Dev.templateBuild
  (repeat' split) <;> simp
@[simp] theorem Dev.puntDone_backlog (d x1 x2) : (Dev.puntDone d x1 x2).backlog = d.backlog := by
  unfold Dev.puntDone
  dsimp only
  (repeat' split) <;> simp
@[simp] theorem Dev.failsafeTry_backlog (d) : (Dev.failsafeTry d).backlog = d.backlog := by
  simp [Dev.failsafeTry]
/-- A delivery that reads no slot in error reports nothing. -/
@[simp] theorem Dev.scoreDeliver_none_backlog (d : Dev) : (d.scoreDeliver none).backlog = d.backlog := by
  unfold Dev.scoreDeliver
  split
  · rfl
  · simp

end Sys2Proof
end

section
/-! SUPPORT. Every operation that leaves the priority queues, though not all of the backlog, says so. -/

namespace Sys2Proof

@[simp] theorem Dev.erlLost_backlog_pq (d x1) : (Dev.erlLost d x1).backlog.pq = d.backlog.pq := by
  simp [Dev.erlLost]
@[simp] theorem Dev.reportE_backlog_pq (d x1) : (Dev.reportE d x1).backlog.pq = d.backlog.pq := by
  unfold Dev.reportE
  (repeat' split) <;> simp
@[simp] theorem Dev.report_backlog_pq (d x1 x2 x3 x4 x5) : (Dev.report d x1 x2 x3 x4 x5).backlog.pq = d.backlog.pq := by
  simp [Dev.report]
@[simp] theorem Dev.catPut_backlog_pq (d x1) : (Dev.catPut d x1).backlog.pq = d.backlog.pq := by
  simp [Dev.catPut]
@[simp] theorem Dev.notice_backlog_pq (d x1 x2 x3) : (Dev.notice d x1 x2 x3).backlog.pq = d.backlog.pq := by
  simp [Dev.notice]
@[simp] theorem Dev.lckRelease_backlog_pq (d x1 x2) : (Dev.lckRelease d x1 x2).backlog.pq = d.backlog.pq := by
  simp [Dev.lckRelease]
@[simp] theorem Dev.lckForce_backlog_pq (d x1 x2) : (Dev.lckForce d x1 x2).backlog.pq = d.backlog.pq := by
  simp [Dev.lckForce]
@[simp] theorem Dev.lckForceList_backlog_pq (d x1 x2) : (Dev.lckForceList d x1 x2).backlog.pq = d.backlog.pq := by
  fun_induction Dev.lckForceList d x1 x2 <;> simp_all
@[simp] theorem Dev.lckForceOwner_backlog_pq (d x1 x2) : (Dev.lckForceOwner d x1 x2).backlog.pq = d.backlog.pq := by
  simp [Dev.lckForceOwner]
@[simp] theorem Dev.accLog_backlog_pq (d x1 x2 x3) : (Dev.accLog d x1 x2 x3).backlog.pq = d.backlog.pq := by
  simp [Dev.accLog]
@[simp] theorem Dev.newEntry_backlog_pq (d x1) : (Dev.newEntry d x1).backlog.pq = d.backlog.pq := by
  unfold Dev.newEntry
  (repeat' split) <;> simp
@[simp] theorem Dev.erlTake_backlog_pq (d) : (Dev.erlTake d).backlog.pq = d.backlog.pq := by
  fun_cases Dev.erlTake d <;> simp_all +zetaDelta
@[simp] theorem Dev.erlClear_backlog_pq (d x1) : (Dev.erlClear d x1).backlog.pq = d.backlog.pq := by
  simp [Dev.erlClear]
@[simp] theorem Dev.ringWrite_backlog_pq (d x1) : (Dev.ringWrite d x1).backlog.pq = d.backlog.pq := by
  simp [Dev.ringWrite]
@[simp] theorem Dev.catUnhold_backlog_pq (d x1) : (Dev.catUnhold d x1).backlog.pq = d.backlog.pq := by
  unfold Dev.catUnhold
  (repeat' split) <;> simp
@[simp] theorem Dev.catTake_backlog_pq (d) : (Dev.catTake d).1.backlog.pq = d.backlog.pq := by
  unfold Dev.catTake
  (repeat' split) <;> simp
@[simp] theorem Dev.catRtail_backlog_pq (d x1 x2 x3) : (Dev.catRtail d x1 x2 x3).backlog.pq = d.backlog.pq := by
  unfold Dev.catRtail
  (repeat' split) <;> simp
@[simp] theorem Dev.lckAcqWrite_backlog_pq (d x1 x2) : (Dev.lckAcqWrite d x1 x2).backlog.pq = d.backlog.pq := by
  unfold Dev.lckAcqWrite
  (repeat' split) <;> simp
@[simp] theorem Dev.lckForceWrite_backlog_pq (d x1 x2) : (Dev.lckForceWrite d x1 x2).backlog.pq = d.backlog.pq := by
  unfold Dev.lckForceWrite
  (repeat' split) <;> simp
@[simp] theorem Dev.reportFree_backlog_pq (d x1 x2 x3) : (Dev.reportFree d x1 x2 x3).backlog.pq = d.backlog.pq := by
  simp [Dev.reportFree]
@[simp] theorem Dev.hbmEcc_backlog_pq (d x1 x2 x3) : (Dev.hbmEcc d x1 x2 x3).backlog.pq = d.backlog.pq := by
  unfold Dev.hbmEcc
  (repeat' split) <;> simp
@[simp] theorem Dev.shEcc_backlog_pq (d x1 x2) : (Dev.shEcc d x1 x2).backlog.pq = d.backlog.pq := by
  simp [Dev.shEcc]
@[simp] theorem Dev.corePost_backlog_pq (d x1 x2 x3) : (Dev.corePost d x1 x2 x3).backlog.pq = d.backlog.pq := by
  unfold Dev.corePost
  (repeat' split) <;> simp
@[simp] theorem Dev.complete_backlog_pq (d x1 x2 x3 x4 x5) : (Dev.complete d x1 x2 x3 x4 x5).backlog.pq = d.backlog.pq := by
  simp [Dev.complete]
@[simp] theorem Dev.catRecord_backlog_pq (d x1) : (Dev.catRecord d x1).backlog.pq = d.backlog.pq := by
  simp [Dev.catRecord]
@[simp] theorem Dev.catTakeOne_backlog_pq (d) : (Dev.catTakeOne d).backlog.pq = d.backlog.pq := by
  have h := Dev.catTake_backlog_pq d
  unfold Dev.catTakeOne
  split <;> rename_i heq <;> rw [heq] at h
  · split <;> simpa using h
  · exact h
@[simp] theorem Dev.linkComplete_backlog_pq (d x1 x2) : (Dev.linkComplete d x1 x2).backlog.pq = d.backlog.pq := by
  unfold Dev.linkComplete
  (repeat' split) <;> simp
@[simp] theorem Dev.reportNamed_backlog_pq (d x1 x2 x3 x4) : (Dev.reportNamed d x1 x2 x3 x4).backlog.pq = d.backlog.pq := by
  simp [Dev.reportNamed]
@[simp] theorem Dev.treeEvent_backlog_pq (d x1 x2 x3 x4 x5) : (Dev.treeEvent d x1 x2 x3 x4 x5).backlog.pq = d.backlog.pq := by
  simp [Dev.treeEvent]
@[simp] theorem Dev.scoreDrop_backlog_pq (d x1) : (Dev.scoreDrop d x1).backlog.pq = d.backlog.pq := by
  unfold Dev.scoreDrop
  (repeat' split) <;> simp
@[simp] theorem Dev.dropEnd_backlog_pq (d x1) : (Dev.dropEnd d x1).backlog.pq = d.backlog.pq := by
  unfold Dev.dropEnd
  (repeat' split) <;> simp
@[simp] theorem Dev.scoreAdmit_backlog_pq (d) : (Dev.scoreAdmit d).backlog.pq = d.backlog.pq := by
  fun_cases Dev.scoreAdmit d <;> simp_all
@[simp] theorem Dev.slotParity_backlog_pq (d x1 x2 x3) : (Dev.slotParity d x1 x2 x3).backlog.pq = d.backlog.pq := by
  unfold Dev.slotParity
  (repeat' split) <;> simp
@[simp] theorem Dev.scoreDeliver_backlog_pq (d x1) : (Dev.scoreDeliver d x1).backlog.pq = d.backlog.pq := by
  unfold Dev.scoreDeliver
  dsimp only
  (repeat' split) <;> simp
@[simp] theorem Dev.slotReloaded_backlog_pq (d x1) : (Dev.slotReloaded d x1).backlog.pq = d.backlog.pq := by
  unfold Dev.slotReloaded
  (repeat' split) <;> simp
@[simp] theorem Dev.fabricScrub_backlog_pq (d x1) : (Dev.fabricScrub d x1).backlog.pq = d.backlog.pq := by
  unfold Dev.fabricScrub
  (repeat' split) <;> simp
@[simp] theorem Dev.hudEvent_backlog_pq (d x1 x2 x3 x4 x5) : (Dev.hudEvent d x1 x2 x3 x4 x5).backlog.pq = d.backlog.pq := by
  simp [Dev.hudEvent]
@[simp] theorem Dev.fileDrop_backlog_pq (d x1 x2 x3) : (Dev.fileDrop d x1 x2 x3).backlog.pq = d.backlog.pq := by
  unfold Dev.fileDrop
  (repeat' split) <;> simp
@[simp] theorem Dev.filePkt_backlog_pq (d x1) : (Dev.filePkt d x1).backlog.pq = d.backlog.pq := by
  unfold Dev.filePkt
  dsimp only
  (repeat' split) <;> simp
@[simp] theorem Dev.takeFiles_backlog_pq (d x1) : (Dev.takeFiles d x1).backlog.pq = d.backlog.pq := by
  fun_induction Dev.takeFiles d x1 <;> simp_all
@[simp] theorem Dev.huddleTake_backlog_pq (d) : (Dev.huddleTake d).backlog.pq = d.backlog.pq := by
  simp [Dev.huddleTake]
@[simp] theorem Dev.resultPost_backlog_pq (d) : (Dev.resultPost d).backlog.pq = d.backlog.pq := by
  unfold Dev.resultPost
  dsimp only
  (repeat' split) <;> simp
@[simp] theorem Dev.resultWriteback_backlog_pq (d x1 x2) : (Dev.resultWriteback d x1 x2).backlog.pq = d.backlog.pq := by
  unfold Dev.resultWriteback
  dsimp only
  (repeat' split) <;> simp
@[simp] theorem Dev.resultDeadline_backlog_pq (d x1) : (Dev.resultDeadline d x1).backlog.pq = d.backlog.pq := by
  unfold Dev.resultDeadline
  dsimp only
  (repeat' split) <;> simp
@[simp] theorem Dev.installEnd_backlog_pq (d x1 x2 x3 x4) : (Dev.installEnd d x1 x2 x3 x4).backlog.pq = d.backlog.pq := by
  simp [Dev.installEnd]
@[simp] theorem Dev.bundleInstallRun_backlog_pq (d x1) : (Dev.bundleInstallRun d x1).backlog.pq = d.backlog.pq := by
  unfold Dev.bundleInstallRun
  (repeat' split) <;> simp
@[simp] theorem Dev.bundleCommit_backlog_pq (d) : (Dev.bundleCommit d).backlog.pq = d.backlog.pq := by
  have key : ∀ (c : Bool) (n g b) (d1 : Dev), (if c = true then d.commitPlane n g b else some d) = some d1 → d1.backlog.pq = d.backlog.pq := by
    intro c n g b d1 h
    cases c
    · simp at h; rw [h]
    · exact congrArg Backlog.pq (Dev.commitPlane_backlog h)
  unfold Dev.bundleCommit
  split
  · rfl
  · split
    · rfl
    · dsimp only
      split
      · simp
      · rename_i heq
        simp only [Dev.installEnd_backlog_pq, Dev.measChange_backlog, Dev.commitImages_backlog, Dev.commitCores_backlog, Dev.catalogue_backlog, Dev.shareSections_backlog, Dev.catalogueBundle_backlog]
        exact key _ _ _ _ _ heq
@[simp] theorem Dev.ptnFail_backlog_pq (d x1 x2 x3) : (Dev.ptnFail d x1 x2 x3).backlog.pq = d.backlog.pq := by
  simp [Dev.ptnFail]
@[simp] theorem Dev.ptnFailAll_backlog_pq (d x1 x2 x3) : (Dev.ptnFailAll d x1 x2 x3).backlog.pq = d.backlog.pq := by
  fun_induction Dev.ptnFailAll d x1 x2 x3 <;> simp_all
@[simp] theorem Dev.unitLost_backlog_pq (d x1 x2 x3 x4 x5) : (Dev.unitLost d x1 x2 x3 x4 x5).backlog.pq = d.backlog.pq := by
  unfold Dev.unitLost
  (repeat' split) <;> simp
@[simp] theorem Dev.hbmFail_backlog_pq (d x1 x2) : (Dev.hbmFail d x1 x2).backlog.pq = d.backlog.pq := by
  simp [Dev.hbmFail]
@[simp] theorem Dev.hbmBurst_backlog_pq (d x1 x2) : (Dev.hbmBurst d x1 x2).backlog.pq = d.backlog.pq := by
  simp [Dev.hbmBurst]
@[simp] theorem Dev.msFail_backlog_pq (d x1) : (Dev.msFail d x1).backlog.pq = d.backlog.pq := by
  simp [Dev.msFail]
@[simp] theorem Dev.coreOut_backlog_pq (d x1 x2) : (Dev.coreOut d x1 x2).backlog.pq = d.backlog.pq := by
  simp [Dev.coreOut]
@[simp] theorem Dev.dieBFail_backlog_pq (d) : (Dev.dieBFail d).backlog.pq = d.backlog.pq := by
  simp [Dev.dieBFail]
@[simp] theorem Dev.restageDone_backlog_pq (d x1) : (Dev.restageDone d x1).backlog.pq = d.backlog.pq := by
  simp [Dev.restageDone]
@[simp] theorem Dev.stepLand_backlog_pq (d) : (Dev.stepLand d).backlog.pq = d.backlog.pq := by
  unfold Dev.stepLand
  (repeat' split) <;> simp
@[simp] theorem Dev.accFail_backlog_pq (d x1 x2 x3 x4 x5) : (Dev.accFail d x1 x2 x3 x4 x5).backlog.pq = d.backlog.pq := by
  unfold Dev.accFail
  (repeat' split) <;> simp
@[simp] theorem Dev.coreSetHeld_backlog_pq (d x1 x2 x3) : (Dev.coreSetHeld d x1 x2 x3).backlog.pq = d.backlog.pq := by
  simp [Dev.coreSetHeld]
theorem Dev.coreCtrl_backlog_pq (d : Dev) (n op : Nat) (f : Dev → Nat → Nat → Nat → Dev) (h : ∀ e x y z, (f e x y z).backlog.pq = e.backlog.pq) :
    (d.coreCtrl n op f).backlog.pq = d.backlog.pq := by
  unfold Dev.coreCtrl
  dsimp only
  repeat' split
  all_goals simp [h]
@[simp] theorem Dev.coreSetPc_backlog_pq (d n) : (Dev.coreSetPc d n).backlog.pq = d.backlog.pq := by
  refine Dev.coreCtrl_backlog_pq _ _ _ _ ?_
  intros
  (repeat' split) <;> simp
@[simp] theorem Dev.coreSetSave_backlog_pq (d n) : (Dev.coreSetSave d n).backlog.pq = d.backlog.pq := by
  refine Dev.coreCtrl_backlog_pq _ _ _ _ ?_
  intros
  (repeat' split) <;> simp
@[simp] theorem Dev.sqDoorbell_backlog_pq (d x1 x2 x3) : (Dev.sqDoorbell d x1 x2 x3).backlog.pq = d.backlog.pq := by
  simp [Dev.sqDoorbell]
@[simp] theorem Dev.cqHeadWrite_backlog_pq (d x1 x2 x3) : (Dev.cqHeadWrite d x1 x2 x3).backlog.pq = d.backlog.pq := by
  simp [Dev.cqHeadWrite]
@[simp] theorem Dev.railFail_backlog_pq (d x1) : (Dev.railFail d x1).backlog.pq = d.backlog.pq := by
  simp [Dev.railFail]
@[simp] theorem Dev.railReads_backlog_pq (d x1) : (Dev.railReads d x1).backlog.pq = d.backlog.pq := by
  fun_induction Dev.railReads d x1 <;> simp_all +zetaDelta
@[simp] theorem Dev.powerLoop_backlog_pq (d x1 x2) : (Dev.powerLoop d x1 x2).backlog.pq = d.backlog.pq := by
  simp [Dev.powerLoop]
@[simp] theorem Dev.loopLoss_backlog_pq (d) : (Dev.loopLoss d).backlog.pq = d.backlog.pq := by
  simp [Dev.loopLoss]
@[simp] theorem Dev.imageRefused_backlog_pq (d x1) : (Dev.imageRefused d x1).backlog.pq = d.backlog.pq := by
  simp [Dev.imageRefused]
@[simp] theorem Dev.fwLoad_backlog_pq (d x1) : (Dev.fwLoad d x1).backlog.pq = d.backlog.pq := by
  unfold Dev.fwLoad
  dsimp only
  (repeat' split) <;> simp
@[simp] theorem Dev.fwUpdate_backlog_pq (d x1) : (Dev.fwUpdate d x1).backlog.pq = d.backlog.pq := by
  unfold Dev.fwUpdate
  dsimp only
  (repeat' split) <;> simp
@[simp] theorem Dev.fwNotice_backlog_pq (d x1 x2 x3) : (Dev.fwNotice d x1 x2 x3).backlog.pq = d.backlog.pq := by
  simp [Dev.fwNotice]
@[simp] theorem Dev.quiesce_backlog_pq (d) : (Dev.quiesce d).backlog.pq = d.backlog.pq := by
  simp [Dev.quiesce]
@[simp] theorem Dev.debugUnlock_backlog_pq (d x1) : (Dev.debugUnlock d x1).backlog.pq = d.backlog.pq := by
  simp [Dev.debugUnlock]
@[simp] theorem Dev.tapReset_backlog_pq (d) : (Dev.tapReset d).backlog.pq = d.backlog.pq := by
  simp [Dev.tapReset]
@[simp] theorem Dev.netDefect_backlog_pq (d x1) : (Dev.netDefect d x1).backlog.pq = d.backlog.pq := by
  unfold Dev.netDefect
  dsimp only
  (repeat' split) <;> simp
@[simp] theorem Dev.pairWait_backlog_pq (d x1) : (Dev.pairWait d x1).backlog.pq = d.backlog.pq := by
  simp [Dev.pairWait]
@[simp] theorem Dev.sweepRecs_backlog_pq (d x1 x2) : (Dev.sweepRecs d x1 x2).backlog.pq = d.backlog.pq := by
  fun_induction Dev.sweepRecs d x1 x2 <;> simp_all +zetaDelta
@[simp] theorem Dev.sweep_backlog_pq (d) : (Dev.sweep d).backlog.pq = d.backlog.pq := by
  unfold Dev.sweep
  (repeat' split) <;> simp
@[simp] theorem Dev.pairLowWrite_backlog_pq (d x1 x2 x3) : (Dev.pairLowWrite d x1 x2 x3).backlog.pq = d.backlog.pq := by
  unfold Dev.pairLowWrite
  (repeat' split) <;> simp
@[simp] theorem Dev.pairHighWrite_backlog_pq (d x1 x2 x3) : (Dev.pairHighWrite d x1 x2 x3).backlog.pq = d.backlog.pq := by
  unfold Dev.pairHighWrite
  (repeat' split) <;> simp
@[simp] theorem Dev.compRestart_backlog_pq (d c) : (Dev.compRestart d c).backlog.pq = d.backlog.pq := by
  simp [Dev.compRestart]
@[simp] theorem Dev.watchdog_backlog_pq (d c) : (Dev.watchdog d c).backlog.pq = d.backlog.pq := by
  simp [Dev.watchdog]
@[simp] theorem Dev.protFault_backlog_pq (d c addr) : (Dev.protFault d c addr).backlog.pq = d.backlog.pq := by
  simp [Dev.protFault]
@[simp] theorem Dev.protWrite_backlog_pq (d c addr) : (Dev.protWrite d c addr).backlog.pq = d.backlog.pq := by
  simp [Dev.protWrite]
@[simp] theorem Dev.managementReset_backlog_pq (d) : (Dev.managementReset d).backlog.pq = d.backlog.pq := by
  simp [Dev.managementReset]

end Sys2Proof
end

section
/-! SUPPORT. Every operation that leaves the Catcher, though not all of the backlog, says so. -/

namespace Sys2Proof

@[simp] theorem Dev.backlog_cat_foldl {α : Type} (f : Dev → α → Dev) (l : List α) (d : Dev) (h : ∀ e x, (f e x).backlog.cat = e.backlog.cat) :
    (l.foldl f d).backlog.cat = d.backlog.cat := by
  induction l generalizing d with
  | nil => rfl
  | cons a l ih => simp [ih, h]

@[simp] theorem Dev.erlLost_backlog_cat (d x1) : (Dev.erlLost d x1).backlog.cat = d.backlog.cat := by
  simp [Dev.erlLost]
@[simp] theorem Dev.reportE_backlog_cat (d x1) : (Dev.reportE d x1).backlog.cat = d.backlog.cat := by
  unfold Dev.reportE
  (repeat' split) <;> simp
@[simp] theorem Dev.report_backlog_cat (d x1 x2 x3 x4 x5) : (Dev.report d x1 x2 x3 x4 x5).backlog.cat = d.backlog.cat := by
  simp [Dev.report]
@[simp] theorem Dev.pqSet_backlog_cat (d x1 x2) : (Dev.pqSet d x1 x2).backlog.cat = d.backlog.cat := by
  simp [Dev.pqSet]
@[simp] theorem Dev.pqPush_backlog_cat (d x1 x2 x3) : (Dev.pqPush d x1 x2 x3).1.backlog.cat = d.backlog.cat := by
  unfold Dev.pqPush
  dsimp only
  (repeat' split) <;> simp_all
@[simp] theorem Dev.pqEmpty_backlog_cat (d x1) : (Dev.pqEmpty d x1).backlog.cat = d.backlog.cat := by
  simp [Dev.pqEmpty]
@[simp] theorem Dev.lckRelease_backlog_cat (d x1 x2) : (Dev.lckRelease d x1 x2).backlog.cat = d.backlog.cat := by
  simp [Dev.lckRelease]
@[simp] theorem Dev.lckForce_backlog_cat (d x1 x2) : (Dev.lckForce d x1 x2).backlog.cat = d.backlog.cat := by
  simp [Dev.lckForce]
@[simp] theorem Dev.lckForceList_backlog_cat (d x1 x2) : (Dev.lckForceList d x1 x2).backlog.cat = d.backlog.cat := by
  fun_induction Dev.lckForceList d x1 x2 <;> simp_all
@[simp] theorem Dev.lckForceOwner_backlog_cat (d x1 x2) : (Dev.lckForceOwner d x1 x2).backlog.cat = d.backlog.cat := by
  simp [Dev.lckForceOwner]
@[simp] theorem Dev.accLog_backlog_cat (d x1 x2 x3) : (Dev.accLog d x1 x2 x3).backlog.cat = d.backlog.cat := by
  simp [Dev.accLog]
@[simp] theorem Dev.newEntry_backlog_cat (d x1) : (Dev.newEntry d x1).backlog.cat = d.backlog.cat := by
  unfold Dev.newEntry
  (repeat' split) <;> simp
@[simp] theorem Dev.erlTake_backlog_cat (d) : (Dev.erlTake d).backlog.cat = d.backlog.cat := by
  fun_cases Dev.erlTake d <;> simp_all +zetaDelta
@[simp] theorem Dev.erlClear_backlog_cat (d x1) : (Dev.erlClear d x1).backlog.cat = d.backlog.cat := by
  simp [Dev.erlClear]
@[simp] theorem Dev.pqCfg_backlog_cat (d x1 x2 x3 x4 x5) : (Dev.pqCfg d x1 x2 x3 x4 x5).backlog.cat = d.backlog.cat := by
  simp [Dev.pqCfg]
@[simp] theorem Dev.pqPushCtl_backlog_cat (d x1 x2 x3) : (Dev.pqPushCtl d x1 x2 x3).backlog.cat = d.backlog.cat := by
  simp [Dev.pqPushCtl]
@[simp] theorem Dev.lckAcqWrite_backlog_cat (d x1 x2) : (Dev.lckAcqWrite d x1 x2).backlog.cat = d.backlog.cat := by
  unfold Dev.lckAcqWrite
  (repeat' split) <;> simp
@[simp] theorem Dev.lckForceWrite_backlog_cat (d x1 x2) : (Dev.lckForceWrite d x1 x2).backlog.cat = d.backlog.cat := by
  unfold Dev.lckForceWrite
  (repeat' split) <;> simp
@[simp] theorem Dev.reportFree_backlog_cat (d x1 x2 x3) : (Dev.reportFree d x1 x2 x3).backlog.cat = d.backlog.cat := by
  simp [Dev.reportFree]
@[simp] theorem Dev.hbmEcc_backlog_cat (d x1 x2 x3) : (Dev.hbmEcc d x1 x2 x3).backlog.cat = d.backlog.cat := by
  unfold Dev.hbmEcc
  (repeat' split) <;> simp
@[simp] theorem Dev.unwait_backlog_cat (d x1) : (Dev.unwait d x1).backlog.cat = d.backlog.cat := by
  unfold Dev.unwait
  (repeat' split) <;> simp
@[simp] theorem Dev.coreFault_backlog_cat (d x1) : (Dev.coreFault d x1).backlog.cat = d.backlog.cat := by
  simp [Dev.coreFault]
@[simp] theorem Dev.arrayFault_backlog_cat (d x1 x2 x3) : (Dev.arrayFault d x1 x2 x3).backlog.cat = d.backlog.cat := by
  unfold Dev.arrayFault
  dsimp only
  (repeat' split) <;> simp_all
@[simp] theorem Dev.arrayFaultBy_backlog_cat (d x1 x2 x3 x4) : (Dev.arrayFaultBy d x1 x2 x3 x4).backlog.cat = d.backlog.cat := by
  simp [Dev.arrayFaultBy]
@[simp] theorem Dev.emitError_backlog_cat (d x1 x2) : (Dev.emitError d x1 x2).backlog.cat = d.backlog.cat := by
  fun_cases Dev.emitError d x1 x2 <;> simp_all
@[simp] theorem Dev.tenReset_backlog_cat (d x1) : (Dev.tenReset d x1).backlog.cat = d.backlog.cat := by
  simp [Dev.tenReset]
@[simp] theorem Dev.reportNamed_backlog_cat (d x1 x2 x3 x4) : (Dev.reportNamed d x1 x2 x3 x4).backlog.cat = d.backlog.cat := by
  simp [Dev.reportNamed]
@[simp] theorem Dev.stagingPop_backlog_cat (d x1) : (Dev.stagingPop d x1).backlog.cat = d.backlog.cat := by
  fun_cases Dev.stagingPop d x1 <;> simp_all
@[simp] theorem Dev.installEnd_backlog_cat (d x1 x2 x3 x4) : (Dev.installEnd d x1 x2 x3 x4).backlog.cat = d.backlog.cat := by
  simp [Dev.installEnd]
@[simp] theorem Dev.bundleInstallRun_backlog_cat (d x1) : (Dev.bundleInstallRun d x1).backlog.cat = d.backlog.cat := by
  unfold Dev.bundleInstallRun
  (repeat' split) <;> simp
@[simp] theorem Dev.bundleCommit_backlog_cat (d) : (Dev.bundleCommit d).backlog.cat = d.backlog.cat := by
  have key : ∀ (c : Bool) (n g b) (d1 : Dev), (if c = true then d.commitPlane n g b else some d) = some d1 → d1.backlog.cat = d.backlog.cat := by
    intro c n g b d1 h
    cases c
    · simp at h; rw [h]
    · exact congrArg Backlog.cat (Dev.commitPlane_backlog h)
  unfold Dev.bundleCommit
  split
  · rfl
  · split
    · rfl
    · dsimp only
      split
      · simp
      · rename_i heq
        simp only [Dev.installEnd_backlog_cat, Dev.measChange_backlog, Dev.commitImages_backlog, Dev.commitCores_backlog, Dev.catalogue_backlog, Dev.shareSections_backlog, Dev.catalogueBundle_backlog]
        exact key _ _ _ _ _ heq
@[simp] theorem Dev.unitLost_backlog_cat (d x1 x2 x3 x4 x5) : (Dev.unitLost d x1 x2 x3 x4 x5).backlog.cat = d.backlog.cat := by
  unfold Dev.unitLost
  (repeat' split) <;> simp
@[simp] theorem Dev.hbmFail_backlog_cat (d x1 x2) : (Dev.hbmFail d x1 x2).backlog.cat = d.backlog.cat := by
  simp [Dev.hbmFail]
@[simp] theorem Dev.hbmBurst_backlog_cat (d x1 x2) : (Dev.hbmBurst d x1 x2).backlog.cat = d.backlog.cat := by
  simp [Dev.hbmBurst]
@[simp] theorem Dev.msFail_backlog_cat (d x1) : (Dev.msFail d x1).backlog.cat = d.backlog.cat := by
  simp [Dev.msFail]
@[simp] theorem Dev.coreOut_backlog_cat (d x1 x2) : (Dev.coreOut d x1 x2).backlog.cat = d.backlog.cat := by
  simp [Dev.coreOut]
@[simp] theorem Dev.emptyQueues_backlog_cat (d x1) : (Dev.emptyQueues d x1).backlog.cat = d.backlog.cat := by
  fun_induction Dev.emptyQueues d x1 <;> simp_all
@[simp] theorem Dev.stepLand_backlog_cat (d) : (Dev.stepLand d).backlog.cat = d.backlog.cat := by
  unfold Dev.stepLand
  (repeat' split) <;> simp
@[simp] theorem Dev.accFail_backlog_cat (d x1 x2 x3 x4 x5) : (Dev.accFail d x1 x2 x3 x4 x5).backlog.cat = d.backlog.cat := by
  unfold Dev.accFail
  (repeat' split) <;> simp
@[simp] theorem Dev.coreSetHeld_backlog_cat (d x1 x2 x3) : (Dev.coreSetHeld d x1 x2 x3).backlog.cat = d.backlog.cat := by
  simp [Dev.coreSetHeld]
theorem Dev.coreCtrl_backlog_cat (d : Dev) (n op : Nat) (f : Dev → Nat → Nat → Nat → Dev) (h : ∀ e x y z, (f e x y z).backlog.cat = e.backlog.cat) :
    (d.coreCtrl n op f).backlog.cat = d.backlog.cat := by
  unfold Dev.coreCtrl
  dsimp only
  repeat' split
  all_goals simp [h]
@[simp] theorem Dev.coreSetPc_backlog_cat (d n) : (Dev.coreSetPc d n).backlog.cat = d.backlog.cat := by
  refine Dev.coreCtrl_backlog_cat _ _ _ _ ?_
  intros
  (repeat' split) <;> simp
@[simp] theorem Dev.coreSetSave_backlog_cat (d n) : (Dev.coreSetSave d n).backlog.cat = d.backlog.cat := by
  refine Dev.coreCtrl_backlog_cat _ _ _ _ ?_
  intros
  (repeat' split) <;> simp
@[simp] theorem Dev.coreReset_backlog_cat (d n) : (Dev.coreReset d n).backlog.cat = d.backlog.cat := by
  refine Dev.coreCtrl_backlog_cat _ _ _ _ ?_
  intros
  simp
@[simp] theorem Dev.sqDoorbell_backlog_cat (d x1 x2 x3) : (Dev.sqDoorbell d x1 x2 x3).backlog.cat = d.backlog.cat := by
  simp [Dev.sqDoorbell]
@[simp] theorem Dev.cqHeadWrite_backlog_cat (d x1 x2 x3) : (Dev.cqHeadWrite d x1 x2 x3).backlog.cat = d.backlog.cat := by
  simp [Dev.cqHeadWrite]
@[simp] theorem Dev.dmaComplete_backlog_cat (d x1 x2) : (Dev.dmaComplete d x1 x2).backlog.cat = d.backlog.cat := by
  unfold Dev.dmaComplete
  dsimp only
  (repeat' split) <;> simp
@[simp] theorem Dev.pfFlr_backlog_cat (d) : (Dev.pfFlr d).backlog.cat = d.backlog.cat := by
  simp [Dev.pfFlr]
@[simp] theorem Dev.hotReset_backlog_cat (d) : (Dev.hotReset d).backlog.cat = d.backlog.cat := by
  simp [Dev.hotReset]
@[simp] theorem Dev.perst_backlog_cat (d) : (Dev.perst d).backlog.cat = d.backlog.cat := by
  simp [Dev.perst]
@[simp] theorem Dev.railFail_backlog_cat (d x1) : (Dev.railFail d x1).backlog.cat = d.backlog.cat := by
  simp [Dev.railFail]
@[simp] theorem Dev.railReads_backlog_cat (d x1) : (Dev.railReads d x1).backlog.cat = d.backlog.cat := by
  fun_induction Dev.railReads d x1 <;> simp_all +zetaDelta
@[simp] theorem Dev.powerLoop_backlog_cat (d x1 x2) : (Dev.powerLoop d x1 x2).backlog.cat = d.backlog.cat := by
  simp [Dev.powerLoop]
@[simp] theorem Dev.loopLoss_backlog_cat (d) : (Dev.loopLoss d).backlog.cat = d.backlog.cat := by
  simp [Dev.loopLoss]
@[simp] theorem Dev.setFreq_backlog_cat (d x1 x2) : (Dev.setFreq d x1 x2).backlog.cat = d.backlog.cat := by
  simp [Dev.setFreq]
@[simp] theorem Dev.applyKey_backlog_cat (d x1) : (Dev.applyKey d x1).backlog.cat = d.backlog.cat := by
  simp [Dev.applyKey]
@[simp] theorem Dev.settingApply_backlog_cat (d) : (Dev.settingApply d).backlog.cat = d.backlog.cat := by
  unfold Dev.settingApply
  dsimp only
  (repeat' split) <;> simp
@[simp] theorem Dev.applyAll_backlog_cat (d x1) : (Dev.applyAll d x1).backlog.cat = d.backlog.cat := by
  fun_induction Dev.applyAll d x1 <;> simp_all +zetaDelta
@[simp] theorem Dev.imageRefused_backlog_cat (d x1) : (Dev.imageRefused d x1).backlog.cat = d.backlog.cat := by
  simp [Dev.imageRefused]
@[simp] theorem Dev.fwLoad_backlog_cat (d x1) : (Dev.fwLoad d x1).backlog.cat = d.backlog.cat := by
  unfold Dev.fwLoad
  dsimp only
  (repeat' split) <;> simp
@[simp] theorem Dev.fwUpdate_backlog_cat (d x1) : (Dev.fwUpdate d x1).backlog.cat = d.backlog.cat := by
  unfold Dev.fwUpdate
  dsimp only
  (repeat' split) <;> simp
@[simp] theorem Dev.buildMap_backlog_cat (d x1) : (Dev.buildMap d x1).backlog.cat = d.backlog.cat := by
  unfold Dev.buildMap
  dsimp only
  (repeat' split) <;> simp
@[simp] theorem Dev.bundleKeep_backlog_cat (d) : (Dev.bundleKeep d).backlog.cat = d.backlog.cat := by
  simp [Dev.bundleKeep]
@[simp] theorem Dev.bundleRestore_backlog_cat (d) : (Dev.bundleRestore d).backlog.cat = d.backlog.cat := by
  simp [Dev.bundleRestore]
@[simp] theorem Dev.erlBack_backlog_cat (d x1) : (Dev.erlBack d x1).backlog.cat = d.backlog.cat := by
  simp [Dev.erlBack]
@[simp] theorem Dev.saveLogs_backlog_cat (d x1) : (Dev.saveLogs d x1).backlog.cat = d.backlog.cat := by
  unfold Dev.saveLogs
  simp
@[simp] theorem Dev.saveBad_backlog_cat (d x1) : (Dev.saveBad d x1).backlog.cat = d.backlog.cat := by
  unfold Dev.saveBad
  (repeat' split) <;> simp
@[simp] theorem Dev.saveTake_backlog_cat (d) : (Dev.saveTake d).backlog.cat = d.backlog.cat := by
  simp [Dev.saveTake]
@[simp] theorem Dev.dictLoad_backlog_cat (d) : (Dev.dictLoad d).backlog.cat = d.backlog.cat := by
  unfold Dev.dictLoad
  dsimp only
  (repeat' split) <;> simp
@[simp] theorem Dev.arraysFail_backlog_cat (d x1) : (Dev.arraysFail d x1).backlog.cat = d.backlog.cat := by
  fun_induction Dev.arraysFail d x1 <;> simp_all
@[simp] theorem Dev.arrayTest_backlog_cat (d x1) : (Dev.arrayTest d x1).backlog.cat = d.backlog.cat := by
  simp [Dev.arrayTest]
@[simp] theorem Dev.quadsFail_backlog_cat (d x1) : (Dev.quadsFail d x1).backlog.cat = d.backlog.cat := by
  fun_induction Dev.quadsFail d x1 <;> simp_all
@[simp] theorem Dev.startSequence_backlog_cat (d x1) : (Dev.startSequence d x1).backlog.cat = d.backlog.cat := by
  simp [Dev.startSequence]
@[simp] theorem Dev.debugUnlock_backlog_cat (d x1) : (Dev.debugUnlock d x1).backlog.cat = d.backlog.cat := by
  simp [Dev.debugUnlock]
@[simp] theorem Dev.tapReset_backlog_cat (d) : (Dev.tapReset d).backlog.cat = d.backlog.cat := by
  simp [Dev.tapReset]
@[simp] theorem Dev.pairWait_backlog_cat (d x1) : (Dev.pairWait d x1).backlog.cat = d.backlog.cat := by
  simp [Dev.pairWait]
@[simp] theorem Dev.pairLowWrite_backlog_cat (d x1 x2 x3) : (Dev.pairLowWrite d x1 x2 x3).backlog.cat = d.backlog.cat := by
  unfold Dev.pairLowWrite
  (repeat' split) <;> simp
@[simp] theorem Dev.pairHighWrite_backlog_cat (d x1 x2 x3) : (Dev.pairHighWrite d x1 x2 x3).backlog.cat = d.backlog.cat := by
  unfold Dev.pairHighWrite
  (repeat' split) <;> simp

end Sys2Proof
end

section
/-! SUPPORT. Every operation that leaves the error log, though not all of the backlog, says so. -/

namespace Sys2Proof

@[simp] theorem Dev.catPut_backlog_erl (d x1) : (Dev.catPut d x1).backlog.erl = d.backlog.erl := by
  simp [Dev.catPut]
@[simp] theorem Dev.notice_backlog_erl (d x1 x2 x3) : (Dev.notice d x1 x2 x3).backlog.erl = d.backlog.erl := by
  simp [Dev.notice]
@[simp] theorem Dev.pqSet_backlog_erl (d x1 x2) : (Dev.pqSet d x1 x2).backlog.erl = d.backlog.erl := by
  simp [Dev.pqSet]
@[simp] theorem Dev.pqPush_backlog_erl (d x1 x2 x3) : (Dev.pqPush d x1 x2 x3).1.backlog.erl = d.backlog.erl := by
  unfold Dev.pqPush
  dsimp only
  (repeat' split) <;> simp_all
@[simp] theorem Dev.ringWrite_backlog_erl (d x1) : (Dev.ringWrite d x1).backlog.erl = d.backlog.erl := by
  simp [Dev.ringWrite]
@[simp] theorem Dev.catUnhold_backlog_erl (d x1) : (Dev.catUnhold d x1).backlog.erl = d.backlog.erl := by
  unfold Dev.catUnhold
  (repeat' split) <;> simp
@[simp] theorem Dev.catTake_backlog_erl (d) : (Dev.catTake d).1.backlog.erl = d.backlog.erl := by
  unfold Dev.catTake
  (repeat' split) <;> simp
@[simp] theorem Dev.catRtail_backlog_erl (d x1 x2 x3) : (Dev.catRtail d x1 x2 x3).backlog.erl = d.backlog.erl := by
  unfold Dev.catRtail
  (repeat' split) <;> simp
@[simp] theorem Dev.pqCfg_backlog_erl (d x1 x2 x3 x4 x5) : (Dev.pqCfg d x1 x2 x3 x4 x5).backlog.erl = d.backlog.erl := by
  simp [Dev.pqCfg]
@[simp] theorem Dev.pqPushCtl_backlog_erl (d x1 x2 x3) : (Dev.pqPushCtl d x1 x2 x3).backlog.erl = d.backlog.erl := by
  simp [Dev.pqPushCtl]
@[simp] theorem Dev.corePost_backlog_erl (d x1 x2 x3) : (Dev.corePost d x1 x2 x3).backlog.erl = d.backlog.erl := by
  unfold Dev.corePost
  (repeat' split) <;> simp
@[simp] theorem Dev.complete_backlog_erl (d x1 x2 x3 x4 x5) : (Dev.complete d x1 x2 x3 x4 x5).backlog.erl = d.backlog.erl := by
  simp [Dev.complete]
@[simp] theorem Dev.catRecord_backlog_erl (d x1) : (Dev.catRecord d x1).backlog.erl = d.backlog.erl := by
  simp [Dev.catRecord]
@[simp] theorem Dev.catTakeOne_backlog_erl (d) : (Dev.catTakeOne d).backlog.erl = d.backlog.erl := by
  have h := Dev.catTake_backlog_erl d
  unfold Dev.catTakeOne
  split <;> rename_i heq <;> rw [heq] at h
  · split <;> simpa using h
  · exact h
@[simp] theorem Dev.linkComplete_backlog_erl (d x1 x2) : (Dev.linkComplete d x1 x2).backlog.erl = d.backlog.erl := by
  unfold Dev.linkComplete
  (repeat' split) <;> simp
@[simp] theorem Dev.treeEvent_backlog_erl (d x1 x2 x3 x4 x5) : (Dev.treeEvent d x1 x2 x3 x4 x5).backlog.erl = d.backlog.erl := by
  simp [Dev.treeEvent]
@[simp] theorem Dev.scoreDrop_backlog_erl (d x1) : (Dev.scoreDrop d x1).backlog.erl = d.backlog.erl := by
  unfold Dev.scoreDrop
  (repeat' split) <;> simp
@[simp] theorem Dev.dropEnd_backlog_erl (d x1) : (Dev.dropEnd d x1).backlog.erl = d.backlog.erl := by
  unfold Dev.dropEnd
  (repeat' split) <;> simp
@[simp] theorem Dev.scoreAdmit_backlog_erl (d) : (Dev.scoreAdmit d).backlog.erl = d.backlog.erl := by
  fun_cases Dev.scoreAdmit d <;> simp_all
@[simp] theorem Dev.slotReloaded_backlog_erl (d x1) : (Dev.slotReloaded d x1).backlog.erl = d.backlog.erl := by
  unfold Dev.slotReloaded
  (repeat' split) <;> simp
@[simp] theorem Dev.hudEvent_backlog_erl (d x1 x2 x3 x4 x5) : (Dev.hudEvent d x1 x2 x3 x4 x5).backlog.erl = d.backlog.erl := by
  simp [Dev.hudEvent]
@[simp] theorem Dev.fileDrop_backlog_erl (d x1 x2 x3) : (Dev.fileDrop d x1 x2 x3).backlog.erl = d.backlog.erl := by
  unfold Dev.fileDrop
  (repeat' split) <;> simp
@[simp] theorem Dev.filePkt_backlog_erl (d x1) : (Dev.filePkt d x1).backlog.erl = d.backlog.erl := by
  unfold Dev.filePkt
  dsimp only
  (repeat' split) <;> simp
@[simp] theorem Dev.takeFiles_backlog_erl (d x1) : (Dev.takeFiles d x1).backlog.erl = d.backlog.erl := by
  fun_induction Dev.takeFiles d x1 <;> simp_all
@[simp] theorem Dev.huddleTake_backlog_erl (d) : (Dev.huddleTake d).backlog.erl = d.backlog.erl := by
  simp [Dev.huddleTake]
@[simp] theorem Dev.closeSnap_backlog_erl (d g s) : (Dev.closeSnap d g s).backlog.erl = d.backlog.erl := by
  unfold Dev.closeSnap
  dsimp only
  cases s.buf <;> simp
@[simp] theorem Dev.snapClose_backlog_erl (d x1) : (Dev.snapClose d x1).backlog.erl = d.backlog.erl := by
  unfold Dev.snapClose
  (repeat' split) <;> simp
@[simp] theorem Dev.resultPost_backlog_erl (d) : (Dev.resultPost d).backlog.erl = d.backlog.erl := by
  unfold Dev.resultPost
  dsimp only
  (repeat' split) <;> simp
@[simp] theorem Dev.resultDeadline_backlog_erl (d x1) : (Dev.resultDeadline d x1).backlog.erl = d.backlog.erl := by
  unfold Dev.resultDeadline
  dsimp only
  (repeat' split) <;> simp
@[simp] theorem Dev.stagingPop_backlog_erl (d x1) : (Dev.stagingPop d x1).backlog.erl = d.backlog.erl := by
  fun_cases Dev.stagingPop d x1 <;> simp_all
@[simp] theorem Dev.restageDone_backlog_erl (d x1) : (Dev.restageDone d x1).backlog.erl = d.backlog.erl := by
  simp [Dev.restageDone]
@[simp] theorem Dev.dmaComplete_backlog_erl (d x1 x2) : (Dev.dmaComplete d x1 x2).backlog.erl = d.backlog.erl := by
  unfold Dev.dmaComplete
  dsimp only
  (repeat' split) <;> simp
@[simp] theorem Dev.fwNotice_backlog_erl (d x1 x2 x3) : (Dev.fwNotice d x1 x2 x3).backlog.erl = d.backlog.erl := by
  simp [Dev.fwNotice]
@[simp] theorem Dev.quiesce_backlog_erl (d) : (Dev.quiesce d).backlog.erl = d.backlog.erl := by
  simp [Dev.quiesce]
@[simp] theorem Dev.sweepRecs_backlog_erl (d x1 x2) : (Dev.sweepRecs d x1 x2).backlog.erl = d.backlog.erl := by
  fun_induction Dev.sweepRecs d x1 x2 <;> simp_all +zetaDelta
@[simp] theorem Dev.sweep_backlog_erl (d) : (Dev.sweep d).backlog.erl = d.backlog.erl := by
  unfold Dev.sweep
  (repeat' split) <;> simp

end Sys2Proof
end

section
/-! SUPPORT. Every operation that leaves the plain registers says so. -/

namespace Sys2Proof

@[simp] theorem Dev.regs_ite (c : Prop) [Decidable c] (a b : Dev) : (if c then a else b).regs = if c then a.regs else b.regs := by split <;> rfl
@[simp] theorem Dev.regs_foldl {α : Type} (f : Dev → α → Dev) (l : List α) (d : Dev) (h : ∀ e x, (f e x).regs = e.regs) :
    (l.foldl f d).regs = d.regs := by
  induction l generalizing d with
  | nil => rfl
  | cons a l ih => simp [ih, h]

@[simp] theorem Dev.lckAcqWord_regs (d x1 x2) : (Dev.lckAcqWord d x1 x2).1.regs = d.regs := by
  simp [Dev.lckAcqWord]
@[simp] theorem Dev.lckAcqRead_regs (d x1 x2) : (Dev.lckAcqRead d x1 x2).regs = d.regs := by
  simp [Dev.lckAcqRead]
@[simp] theorem Dev.shWrite_regs (d x1 x2 x3) : (Dev.shWrite d x1 x2 x3).regs = d.regs := by
  simp [Dev.shWrite]
@[simp] theorem Dev.portUpd_regs (d x1 x2) : (Dev.portUpd d x1 x2).regs = d.regs := by
  simp [Dev.portUpd]
@[simp] theorem Dev.qRefresh_regs (d x1 x2) : (Dev.qRefresh d x1 x2).regs = d.regs := by
  simp [Dev.qRefresh, Dev.egSet_regs]
@[simp] theorem Dev.failsafeAssert_regs (d) : (Dev.failsafeAssert d).regs = d.regs := by
  simp [Dev.failsafeAssert]
@[simp] theorem Dev.dieFLoss_regs (d) : (Dev.dieFLoss d).regs = d.regs := by
  simp [Dev.dieFLoss]
@[simp] theorem Dev.seqGap_regs (d x1 x2) : (Dev.seqGap d x1 x2).regs = d.regs := by
  simp [Dev.seqGap]
@[simp] theorem Dev.treeEvent_regs (d x1 x2 x3 x4 x5) : (Dev.treeEvent d x1 x2 x3 x4 x5).regs = d.regs := by
  simp [Dev.treeEvent]
@[simp] theorem Dev.pktGone_regs (d x1) : (Dev.pktGone d x1).regs = d.regs := by
  simp [Dev.pktGone, Dev.leaveVer_regs]
@[simp] theorem Dev.flowSet_regs (d x1 x2) : (Dev.flowSet d x1 x2).regs = d.regs := by
  simp [Dev.flowSet]
@[simp] theorem Dev.polSet_regs (d x1 x2) : (Dev.polSet d x1 x2).regs = d.regs := by
  simp [Dev.polSet]
@[simp] theorem Dev.flowMark_regs (d x1 x2) : (Dev.flowMark d x1 x2).regs = d.regs := by
  cases x1 with
  | some ix => exact Dev.flowSet_regs _ _ _
  | none => rfl
@[simp] theorem Dev.police_regs (d) : (Dev.police d).regs = d.regs := by
  unfold Dev.police
  split
  · rfl
  · dsimp only
    split
    · exact Dev.pktSet_regs _ _ _
    · split
      · rw [Dev.pktGone_regs, Dev.seqGap_regs, Dev.flowMark_regs, Dev.polSet_regs]
      · split
        · rw [Dev.pktSet_regs, Dev.flowMark_regs, Dev.polSet_regs]
        · rw [Dev.pktSet_regs, Dev.polSet_regs]
@[simp] theorem Dev.policerWrite_regs (d x1 x2 x3 x4 x5 x6 x7) : (Dev.policerWrite d x1 x2 x3 x4 x5 x6 x7).regs = d.regs := by
  simp [Dev.policerWrite]
@[simp] theorem Dev.dropEnd_regs (d x1) : (Dev.dropEnd d x1).regs = d.regs := by
  unfold Dev.dropEnd
  (repeat' split) <;> simp
@[simp] theorem Dev.queueStarved_regs (d x1 x2) : (Dev.queueStarved d x1 x2).regs = d.regs := by
  simp [Dev.queueStarved, Dev.egSet_regs]
@[simp] theorem Dev.grpSet_regs (d x1 x2) : (Dev.grpSet d x1 x2).regs = d.regs := by
  simp [Dev.grpSet]
@[simp] theorem Dev.fillBuffer_regs (d x1 x2) : (Dev.fillBuffer d x1 x2).regs = d.regs := by
  simp [Dev.fillBuffer]
@[simp] theorem Dev.snapOpen_regs (d x1) : (Dev.snapOpen d x1).regs = d.regs := by
  unfold Dev.snapOpen
  (repeat' split) <;> simp
@[simp] theorem Dev.writeFile_regs (d x1) : (Dev.writeFile d x1).regs = d.regs := by
  simp [Dev.writeFile]
@[simp] theorem Dev.writeFiles_regs (d x1) : (Dev.writeFiles d x1).regs = d.regs := by
  fun_induction Dev.writeFiles d x1 <;> simp_all
@[simp] theorem Dev.filingWrite_regs (d) : (Dev.filingWrite d).regs = d.regs := by
  simp [Dev.filingWrite]
@[simp] theorem Dev.stgStart_regs (d x1) : (Dev.stgStart d x1).regs = d.regs := by
  simp [Dev.stgStart]
@[simp] theorem Dev.stagingPop_regs (d x1) : (Dev.stagingPop d x1).regs = d.regs := by
  fun_cases Dev.stagingPop d x1 <;> simp_all
@[simp] theorem Dev.pathSet_regs (d x1 x2) : (Dev.pathSet d x1 x2).regs = d.regs := by
  simp [Dev.pathSet]
@[simp] theorem Dev.offer_regs (d x1 x2) : (Dev.offer d x1 x2).regs = d.regs := by
  simp [Dev.offer]
@[simp] theorem Dev.teleRecord_regs (d) : (Dev.teleRecord d).regs = d.regs := by
  unfold Dev.teleRecord
  (repeat' split) <;> simp
@[simp] theorem Dev.mgmtOut_regs (d x1) : (Dev.mgmtOut d x1).regs = d.regs := by
  simp [Dev.mgmtOut]
@[simp] theorem Dev.teleDgram_regs (d x1) : (Dev.teleDgram d x1).regs = d.regs := by
  simp [Dev.teleDgram]
@[simp] theorem Dev.teleFirst_regs (d x1 x2) : (Dev.teleFirst d x1 x2).regs = d.regs := by
  simp [Dev.teleFirst]
@[simp] theorem Dev.alarmsAgain_regs (d x1) : (Dev.alarmsAgain d x1).regs = d.regs := by
  simp [Dev.alarmsAgain]
@[simp] theorem Dev.summary_regs (d x1) : (Dev.summary d x1).regs = d.regs := by
  simp [Dev.summary]
@[simp] theorem Dev.pathUp_regs (d x1) : (Dev.pathUp d x1).regs = d.regs := by
  simp [Dev.pathUp]
@[simp] theorem Dev.pathDown_regs (d x1) : (Dev.pathDown d x1).regs = d.regs := by
  simp [Dev.pathDown]
@[simp] theorem Dev.portRecords_regs (d x1) : (Dev.portRecords d x1).regs = d.regs := by
  fun_induction Dev.portRecords d x1 <;> simp_all
@[simp] theorem Dev.ptnRecords_regs (d x1) : (Dev.ptnRecords d x1).regs = d.regs := by
  fun_induction Dev.ptnRecords d x1 <;> simp_all
@[simp] theorem Dev.summaryPeriod_regs (d) : (Dev.summaryPeriod d).regs = d.regs := by
  simp [Dev.summaryPeriod]
@[simp] theorem Dev.recvComplete_regs (d x1) : (Dev.recvComplete d x1).regs = d.regs := by
  unfold Dev.recvComplete
  dsimp only
  (repeat' split) <;> simp
@[simp] theorem Dev.nowWord_regs (d x1) : (Dev.nowWord d x1).1.regs = d.regs := by
  simp [Dev.nowWord]
@[simp] theorem Dev.nowRead_regs (d x1) : (Dev.nowRead d x1).regs = d.regs := by
  simp [Dev.nowRead]
@[simp] theorem Dev.dmaSet_regs (d x1 x2 x3) : (Dev.dmaSet d x1 x2 x3).regs = d.regs := by
  simp [Dev.dmaSet]
@[simp] theorem Dev.dmaWrite_regs (d x1 x2 x3 x4 x5 x6) : (Dev.dmaWrite d x1 x2 x3 x4 x5 x6).regs = d.regs := by
  simp [Dev.dmaWrite]
@[simp] theorem Dev.dmaRecv_regs (d x1 x2) : (Dev.dmaRecv d x1 x2).regs = d.regs := by
  simp [Dev.dmaRecv]
@[simp] theorem Dev.msixDeliver_regs (d x1 x2) : (Dev.msixDeliver d x1 x2).regs = d.regs := by
  simp [Dev.msixDeliver]
@[simp] theorem Dev.configWrite_regs (d x1) : (Dev.configWrite d x1).regs = d.regs := by
  unfold Dev.configWrite
  (repeat' split) <;> simp
@[simp] theorem Dev.doeDiscovery_regs (d x1) : (Dev.doeDiscovery d x1).regs = d.regs := by
  simp [Dev.doeDiscovery]
@[simp] theorem Dev.sessSet_regs (d x1 x2) : (Dev.sessSet d x1 x2).regs = d.regs := by
  simp [Dev.sessSet]
@[simp] theorem Dev.sessUpd_regs (d x1 x2) : (Dev.sessUpd d x1 x2).regs = d.regs := by
  simp [Dev.sessUpd]
@[simp] theorem Dev.canPath_regs (d) : (Dev.canPath d).regs = d.regs := by
  simp [Dev.canPath]
@[simp] theorem Dev.sdoSay_regs (d x1) : (Dev.sdoSay d x1).regs = d.regs := by
  simp [Dev.sdoSay]
@[simp] theorem Dev.sdoAbort_regs (d x1 x2 x3) : (Dev.sdoAbort d x1 x2 x3).regs = d.regs := by
  simp [Dev.sdoAbort]
@[simp] theorem Dev.sessEnd_regs (d x1) : (Dev.sessEnd d x1).regs = d.regs := by
  simp [Dev.sessEnd]
@[simp] theorem Dev.sdoTimeout_regs (d x1) : (Dev.sdoTimeout d x1).regs = d.regs := by
  unfold Dev.sdoTimeout
  dsimp only
  (repeat' split) <;> simp
@[simp] theorem Dev.nmtSet_regs (d x1) : (Dev.nmtSet d x1).regs = d.regs := by
  simp [Dev.nmtSet]
@[simp] theorem Dev.canStart_regs (d) : (Dev.canStart d).regs = d.regs := by
  simp [Dev.canStart]
@[simp] theorem Dev.nmtReset_regs (d) : (Dev.nmtReset d).regs = d.regs := by
  simp [Dev.nmtReset]
@[simp] theorem Dev.heartbeat_regs (d) : (Dev.heartbeat d).regs = d.regs := by
  simp [Dev.heartbeat]
@[simp] theorem Dev.canError_regs (d x1 x2) : (Dev.canError d x1 x2).regs = d.regs := by
  simp [Dev.canError]
@[simp] theorem Dev.udpTimeout_regs (d x1) : (Dev.udpTimeout d x1).regs = d.regs := by
  simp [Dev.udpTimeout]
@[simp] theorem Dev.usbFail_regs (d x1 x2 x3) : (Dev.usbFail d x1 x2 x3).regs = d.regs := by
  simp [Dev.usbFail]
@[simp] theorem Dev.usbGate_regs (d : Dev) (i s : Nat) (go : Dev) (h : go.regs = d.regs) : (d.usbGate i s go).regs = d.regs := by
  unfold Dev.usbGate
  (repeat' split) <;> simp [h]
@[simp] theorem Dev.usbRead_regs (d x1 x2 x3 x4) : (Dev.usbRead d x1 x2 x3 x4).regs = d.regs := by
  unfold Dev.usbRead
  dsimp only
  (repeat' split) <;> simp
@[simp] theorem Dev.usbWrite_regs (d x1 x2 x3 x4) : (Dev.usbWrite d x1 x2 x3 x4).regs = d.regs := by
  unfold Dev.usbWrite
  dsimp only
  (repeat' split) <;> simp
@[simp] theorem Dev.usbResult_regs (d) : (Dev.usbResult d).regs = d.regs := by
  simp [Dev.usbResult]
@[simp] theorem Dev.usbReset_regs (d) : (Dev.usbReset d).regs = d.regs := by
  simp [Dev.usbReset]
@[simp] theorem Dev.tokenExpire_regs (d x1) : (Dev.tokenExpire d x1).regs = d.regs := by
  simp [Dev.tokenExpire]
@[simp] theorem Dev.pathRise_regs (d x1) : (Dev.pathRise d x1).regs = d.regs := by
  unfold Dev.pathRise
  (repeat' split) <;> simp
@[simp] theorem Dev.pathFall_regs (d x1) : (Dev.pathFall d x1).regs = d.regs := by
  unfold Dev.pathFall
  (repeat' split) <;> simp
@[simp] theorem Dev.exportRecs_regs (d) : (Dev.exportRecs d).regs = d.regs := by
  simp [Dev.exportRecs]
@[simp] theorem Dev.retainedWrite_regs (d) : (Dev.retainedWrite d).regs = d.regs := by
  simp [Dev.retainedWrite]
@[simp] theorem Dev.spdmSay_regs (d x1) : (Dev.spdmSay d x1).regs = d.regs := by
  simp [Dev.spdmSay]
@[simp] theorem Dev.spdmErr_regs (d x1 x2) : (Dev.spdmErr d x1 x2).regs = d.regs := by
  simp [Dev.spdmErr]
@[simp] theorem Dev.spdmAnswer_regs (d x1 x2) : (Dev.spdmAnswer d x1 x2).regs = d.regs := by
  simp [Dev.spdmAnswer]
@[simp] theorem Dev.draw_regs (d x1) : (Dev.draw d x1).2.regs = d.regs := by
  simp [Dev.draw]
theorem Dev.spdmGate_regs (d : Dev) (sid : Option Nat) (req : List Byte) (len need : Nat) (go : Dev) (h : go.regs = d.regs) :
    (d.spdmGate sid req len need go).regs = d.regs := by
  unfold Dev.spdmGate
  (repeat' split) <;> simp [h]
@[simp] theorem Dev.spdmSigned_regs (d x1 x2) : (Dev.spdmSigned d x1 x2).regs = d.regs := by
  unfold Dev.spdmSigned
  dsimp only
  (repeat' split) <;> simp
@[simp] theorem Dev.spdmSign_regs (d x1 x2 x3 x4) : (Dev.spdmSign d x1 x2 x3 x4).regs = d.regs := by
  simp [Dev.spdmSign]
@[simp] theorem Dev.getVersion_regs (d x1) : (Dev.getVersion d x1).regs = d.regs := by
  simp [Dev.getVersion]
@[simp] theorem Dev.getCapabilities_regs (d x1) : (Dev.getCapabilities d x1).regs = d.regs := by
  unfold Dev.getCapabilities
  dsimp only
  refine Dev.spdmGate_regs _ _ _ _ _ _ ?_
  (repeat' split) <;> simp
@[simp] theorem Dev.negotiate_regs (d x1) : (Dev.negotiate d x1).regs = d.regs := by
  unfold Dev.negotiate
  dsimp only
  refine Dev.spdmGate_regs _ _ _ _ _ _ ?_
  (repeat' split) <;> simp
@[simp] theorem Dev.getDigests_regs (d x1 x2) : (Dev.getDigests d x1 x2).regs = d.regs := by
  unfold Dev.getDigests
  refine Dev.spdmGate_regs _ _ _ _ _ _ ?_
  simp
@[simp] theorem Dev.getCertificate_regs (d x1 x2) : (Dev.getCertificate d x1 x2).regs = d.regs := by
  unfold Dev.getCertificate
  dsimp only
  refine Dev.spdmGate_regs _ _ _ _ _ _ ?_
  (repeat' split) <;> simp
@[simp] theorem Dev.spdmChallenge_regs (d x1 x2) : (Dev.spdmChallenge d x1 x2).regs = d.regs := by
  unfold Dev.spdmChallenge
  dsimp only
  refine Dev.spdmGate_regs _ _ _ _ _ _ ?_
  (repeat' split) <;> simp
@[simp] theorem Dev.getMeasurements_regs (d x1 x2) : (Dev.getMeasurements d x1 x2).regs = d.regs := by
  unfold Dev.getMeasurements
  dsimp only
  refine Dev.spdmGate_regs _ _ _ _ _ _ ?_
  (repeat' split) <;> simp
@[simp] theorem Dev.keyExchange_regs (d x1 x2) : (Dev.keyExchange d x1 x2).regs = d.regs := by
  unfold Dev.keyExchange
  dsimp only
  refine Dev.spdmGate_regs _ _ _ _ _ _ ?_
  (repeat' split) <;> simp
@[simp] theorem Dev.spdmFinish_regs (d x1 x2) : (Dev.spdmFinish d x1 x2).regs = d.regs := by
  unfold Dev.spdmFinish
  dsimp only
  refine Dev.spdmGate_regs _ _ _ _ _ _ ?_
  (repeat' split) <;> simp
@[simp] theorem Dev.spdmHeartbeat_regs (d s r) : (Dev.spdmHeartbeat d s r).regs = d.regs := by
  refine Dev.spdmGate_regs _ _ _ _ _ _ ?_
  split <;> simp
@[simp] theorem Dev.endSession_regs (d x1 x2) : (Dev.endSession d x1 x2).regs = d.regs := by
  unfold Dev.endSession
  dsimp only
  refine Dev.spdmGate_regs _ _ _ _ _ _ ?_
  (repeat' split) <;> simp
@[simp] theorem Dev.vendorRequest_regs (d x1 x2) : (Dev.vendorRequest d x1 x2).regs = d.regs := by
  unfold Dev.vendorRequest
  dsimp only
  refine Dev.spdmGate_regs _ _ _ _ _ _ ?_
  (repeat' split) <;> simp
@[simp] theorem Dev.saveSkip_regs (d) : (Dev.saveSkip d).regs = d.regs := by
  simp [Dev.saveSkip]
@[simp] theorem Dev.saveBegin_regs (d x1) : (Dev.saveBegin d x1).regs = d.regs := by
  simp [Dev.saveBegin]
@[simp] theorem Dev.sagTrigger_regs (d x1) : (Dev.sagTrigger d x1).regs = d.regs := by
  simp [Dev.sagTrigger]
@[simp] theorem Dev.hostDo_regs (d : Dev) (w : Req) (f : Dev → Dev) (h : (f d).regs = d.regs) : (d.hostDo w f).regs = d.regs :=
  Dev.hostDo_keeps Dev.regs h
@[simp] theorem Dev.fwDo_regs (d : Dev) (f : Dev → Dev) (h : (f d).regs = d.regs) : (d.fwDo f).regs = d.regs :=
  Dev.fwDo_keeps Dev.regs h
@[simp] theorem Dev.linkDo_regs (d : Dev) (f : Dev → Dev) (h : (f d).regs = d.regs) : (d.linkDo f).regs = d.regs :=
  Dev.linkDo_keeps Dev.regs h
@[simp] theorem Dev.erlClear_regs (d x1) : (Dev.erlClear d x1).regs = d.regs := by
  simp [Dev.erlClear]
@[simp] theorem Dev.qRefreshAll_regs (d : Dev) (n : Nat) (qs : List Nat) : (Dev.qRefreshAll d n qs).regs = d.regs := by
  induction qs generalizing d with
  | nil => rfl
  | cons q qs ih => simp [Dev.qRefreshAll, ih]
@[simp] theorem Dev.timerEnd_regs (d x1 x2) : (Dev.timerEnd d x1 x2).regs = d.regs := by
  simp [Dev.timerEnd]
@[simp] theorem Dev.pauseExpire_regs (d x1 x2) : (Dev.pauseExpire d x1 x2).regs = d.regs := by
  simp [Dev.pauseExpire]
@[simp] theorem Dev.stormRxQuiet_regs (d x1 x2) : (Dev.stormRxQuiet d x1 x2).regs = d.regs := by
  simp [Dev.stormRxQuiet]
@[simp] theorem Dev.failsafeRelease_regs (d x1) : (Dev.failsafeRelease d x1).regs = d.regs := by
  simp [Dev.failsafeRelease]
@[simp] theorem Dev.sweepRecs_regs (d x1 x2) : (Dev.sweepRecs d x1 x2).regs = d.regs := by
  fun_induction Dev.sweepRecs d x1 x2 <;> simp_all +zetaDelta
@[simp] theorem Dev.sweep_regs (d) : (Dev.sweep d).regs = d.regs := by
  unfold Dev.sweep
  (repeat' split) <;> simp
@[simp] theorem Dev.sweepEnd_regs (d) : (Dev.sweepEnd d).regs = d.regs := by
  simp [Dev.sweepEnd]
@[simp] theorem Dev.taggedQuiet_regs (d x1) : (Dev.taggedQuiet d x1).regs = d.regs := by
  simp [Dev.taggedQuiet]
@[simp] theorem Dev.alarmSend_regs (d) : (Dev.alarmSend d).regs = d.regs := by
  unfold Dev.alarmSend
  (repeat' split) <;> simp
@[simp] theorem Dev.failsafeTry_regs (d) : (Dev.failsafeTry d).regs = d.regs := by
  simp [Dev.failsafeTry]

end Sys2Proof
end

section
/-! The frames of the priority queues, the Catcher, the error log and the plain registers: a command outside the list of a unit is one
operation that leaves the unit by its own law, and a gate leaves what its operation leaves. From these the obligation O9. -/

namespace Sys2Proof

/-! ### Gates -/

/-- A register write that no firmware component makes takes no protection fault (R408). -/
theorem Dev.writeDo_keeps {α : Type} (π : Dev → α) {d : Dev} {w : Req} {k : Nat} {b : Bool} {f : Dev → Dev} (hw : w.isFw = false)
    (h : π (f d) = π d) : π (d.writeDo w k b f) = π d := by
  unfold Dev.writeDo
  split
  · exact absurd hw (by simp [Req.isFw])
  · exact Dev.hostDo_keeps π h
theorem Dev.blockWriteDo_keeps {α : Type} (π : Dev → α) {d : Dev} {w : Req} {k : Nat} {f : Dev → Dev} (hw : w.isFw = false)
    (h : π (f d) = π d) : π (d.blockWriteDo w k f) = π d := by
  unfold Dev.blockWriteDo
  split
  · rfl
  · exact Dev.writeDo_keeps π hw h

section
variable {d : Dev} {f : Dev → Dev}
@[simp] theorem Dev.hostDo_backlog_pq (w : Req) (h : (f d).backlog.pq = d.backlog.pq) : (d.hostDo w f).backlog.pq = d.backlog.pq :=
  Dev.hostDo_keeps (fun d => d.backlog.pq) h
@[simp] theorem Dev.fnDo_backlog_pq (fn : Option Nat) (h : (f d).backlog.pq = d.backlog.pq) : (d.fnDo fn f).backlog.pq = d.backlog.pq :=
  Dev.fnDo_keeps (fun d => d.backlog.pq) h
@[simp] theorem Dev.fnDo_backlog_cat (fn : Option Nat) (h : (f d).backlog.cat = d.backlog.cat) : (d.fnDo fn f).backlog.cat = d.backlog.cat :=
  Dev.fnDo_keeps (fun d => d.backlog.cat) h
@[simp] theorem Dev.fwDo_backlog_pq (h : (f d).backlog.pq = d.backlog.pq) : (d.fwDo f).backlog.pq = d.backlog.pq :=
  Dev.fwDo_keeps (fun d => d.backlog.pq) h
@[simp] theorem Dev.fwDo_backlog_cat (h : (f d).backlog.cat = d.backlog.cat) : (d.fwDo f).backlog.cat = d.backlog.cat :=
  Dev.fwDo_keeps (fun d => d.backlog.cat) h
@[simp] theorem Dev.fwDo_backlog_erl (h : (f d).backlog.erl = d.backlog.erl) : (d.fwDo f).backlog.erl = d.backlog.erl :=
  Dev.fwDo_keeps (fun d => d.backlog.erl) h
@[simp] theorem Dev.linkDo_backlog_cat (h : (f d).backlog.cat = d.backlog.cat) : (d.linkDo f).backlog.cat = d.backlog.cat :=
  Dev.linkDo_keeps (fun d => d.backlog.cat) h
end

/-- A firmware component's write that its permissions do not name restarts it, which leaves the priority queues (R408, R409). -/
theorem Dev.writeDo_backlog_pq {d : Dev} {w : Req} {k : Nat} {b : Bool} {f : Dev → Dev} (h : (f d).backlog.pq = d.backlog.pq) :
    (d.writeDo w k b f).backlog.pq = d.backlog.pq := by
  unfold Dev.writeDo
  split
  · split
    · exact Dev.protFault_backlog_pq _ _ _
    · exact Dev.hostDo_backlog_pq _ h
  · exact Dev.hostDo_backlog_pq _ h
theorem Dev.blockWriteDo_backlog_pq {d : Dev} {w : Req} {k : Nat} {f : Dev → Dev} (h : (f d).backlog.pq = d.backlog.pq) :
    (d.blockWriteDo w k f).backlog.pq = d.backlog.pq := by
  unfold Dev.blockWriteDo
  split
  · rfl
  · exact Dev.writeDo_backlog_pq h

theorem Dev.writeDo_backlog_cat {d : Dev} {w : Req} {k : Nat} {b : Bool} {f : Dev → Dev} (hw : w.isFw = false)
    (h : (f d).backlog.cat = d.backlog.cat) : (d.writeDo w k b f).backlog.cat = d.backlog.cat :=
  Dev.writeDo_keeps (fun d => d.backlog.cat) hw h
theorem Dev.blockWriteDo_backlog_cat {d : Dev} {w : Req} {k : Nat} {f : Dev → Dev} (hw : w.isFw = false)
    (h : (f d).backlog.cat = d.backlog.cat) : (d.blockWriteDo w k f).backlog.cat = d.backlog.cat :=
  Dev.blockWriteDo_keeps (fun d => d.backlog.cat) hw h
theorem Dev.writeDo_backlog_erl {d : Dev} {w : Req} {k : Nat} {b : Bool} {f : Dev → Dev} (hw : w.isFw = false)
    (h : (f d).backlog.erl = d.backlog.erl) : (d.writeDo w k b f).backlog.erl = d.backlog.erl :=
  Dev.writeDo_keeps (fun d => d.backlog.erl) hw h
theorem Dev.blockWriteDo_backlog_erl {d : Dev} {w : Req} {k : Nat} {f : Dev → Dev} (hw : w.isFw = false)
    (h : (f d).backlog.erl = d.backlog.erl) : (d.blockWriteDo w k f).backlog.erl = d.backlog.erl :=
  Dev.blockWriteDo_keeps (fun d => d.backlog.erl) hw h

/-! ### The four frames -/

theorem Machine.exec_keeps_pq {c : Instr} {s t : Machine.State} (hc : c.altersQueues = false) (h : Machine.exec c s = .next t) :
    t.dev.pq = s.dev.pq := by
  cases c
  all_goals try exact absurd hc.symm Bool.false_ne_true
  all_goals dsimp only [Machine.exec] at h
  case refLoss | refReturn | ppsInEdge | irigFrame | sourceLoss | stepLand | errorBoundUpdate | ppsOutPulse | ppsOutEnd | leapSecond =>
    exact Machine.timeLive_keeps Dev.pq h fun d => by simp
  case sagTrigger => exact Machine.always_keeps Dev.pq h fun d => by simp
  case frameRelease n => exact Machine.live_keeps Dev.pq h fun d => by cases n <;> simp
  case pairLowWrite | pairHighWrite | versionCommit | ptpMeasurement | catRtailWrite | lckAcqWrite | lckForce =>
    exact Machine.live_keeps Dev.pq h fun d => by simp [Dev.writeDo_backlog_pq]
  case flwFidxWrite | flwEidxWrite | gntPidxCopy | erlCtlClear | erlIdxWrite | secMeasselWrite | secPkselWrite =>
    exact Machine.live_keeps Dev.pq h fun d => by simp [Dev.blockWriteDo_backlog_pq]
  all_goals exact Machine.live_keeps Dev.pq h fun d => by simp

theorem Machine.exec_keeps_cat {c : Instr} {s t : Machine.State} (hc : c.altersCatcher = false) (h : Machine.exec c s = .next t) :
    t.dev.cat = s.dev.cat := by
  cases c
  all_goals try exact absurd hc.symm Bool.false_ne_true
  all_goals dsimp only [Machine.exec] at h
  case refLoss | refReturn | ppsInEdge | irigFrame | sourceLoss | stepLand | errorBoundUpdate | ppsOutPulse | ppsOutEnd | leapSecond =>
    exact Machine.timeLive_keeps Dev.cat h fun d => by simp
  case sagTrigger => exact Machine.always_keeps Dev.cat h fun d => by simp
  case frameRelease n => exact Machine.live_keeps Dev.cat h fun d => by cases n <;> simp
  case pairLowWrite who _ _ | pairHighWrite who _ _ | versionCommit who _ _ | flwFidxWrite who _ | flwEidxWrite who _ | gntPidxCopy who _ _
      | ptpMeasurement who _ _ _ _ | pqPushctl who _ _ | lckAcqWrite who _ | lckForce who _ | erlCtlClear who _ | erlIdxWrite who _
      | secMeasselWrite who _ | secPkselWrite who _ =>
    have hw : who.isFw = false := by
      cases who with
      | fw c => exact hc
      | _ => rfl
    exact Machine.live_keeps Dev.cat h fun d => by simp [Dev.writeDo_backlog_cat hw, Dev.blockWriteDo_backlog_cat hw]
  case scoreDeliver err =>
    cases err with
    | none => exact Machine.live_keeps Dev.cat h fun d => by simp
    | some _ => exact absurd hc.symm Bool.false_ne_true
  all_goals exact Machine.live_keeps Dev.cat h fun d => by simp

theorem Machine.exec_keeps_erl {c : Instr} {s t : Machine.State} (hc : c.altersErrorLog = false) (h : Machine.exec c s = .next t) :
    t.dev.erl = s.dev.erl := by
  cases c
  all_goals try exact absurd hc.symm Bool.false_ne_true
  all_goals dsimp only [Machine.exec] at h
  case refLoss | refReturn | ppsInEdge | irigFrame | sourceLoss | errorBoundUpdate | ppsOutPulse | ppsOutEnd | leapSecond =>
    exact Machine.timeLive_keeps Dev.erl h fun d => by simp
  case sagTrigger => exact Machine.always_keeps Dev.erl h fun d => by simp
  case frameRelease n => exact Machine.live_keeps Dev.erl h fun d => by cases n <;> simp
  case versionCommit who _ _ | flwFidxWrite who _ | flwEidxWrite who _ | gntPidxCopy who _ _ | ptpMeasurement who _ _ _ _
      | catRtailWrite who _ _ | pqPushctl who _ _ | erlIdxWrite who _ | secMeasselWrite who _ | secPkselWrite who _ =>
    have hw : who.isFw = false := by
      cases who with
      | fw c => exact hc
      | _ => rfl
    exact Machine.live_keeps Dev.erl h fun d => by simp [Dev.writeDo_backlog_erl hw, Dev.blockWriteDo_backlog_erl hw]
  case scoreDeliver err =>
    cases err with
    | none => exact Machine.live_keeps Dev.erl h fun d => by simp
    | some _ => exact absurd hc.symm Bool.false_ne_true
  all_goals exact Machine.live_keeps Dev.erl h fun d => by simp

theorem Machine.exec_keeps_regs {c : Instr} {s t : Machine.State} (hc : c.keepsRegisters = true) (h : Machine.exec c s = .next t) :
    t.dev.regs = s.dev.regs := by
  cases c
  all_goals try exact absurd hc Bool.false_ne_true
  all_goals dsimp only [Machine.exec] at h
  case sagTrigger => exact Machine.always_keeps Dev.regs h fun d => by simp
  case erlCtlClear who _ =>
    have hw : who.isFw = false := by
      cases who with
      | fw c => exact absurd hc Bool.false_ne_true
      | _ => rfl
    exact Machine.live_keeps Dev.regs h fun d => Dev.blockWriteDo_keeps Dev.regs hw (Dev.erlClear_regs _ _)
  all_goals exact Machine.live_keeps Dev.regs h fun d => by simp

/-- Settles O9. -/
theorem framesOfUnitsAndRegisters : Obligations.FramesOfUnitsAndRegisters :=
  ⟨fun _ _ _ => Machine.exec_keeps_pq, fun _ _ _ => Machine.exec_keeps_cat, fun _ _ _ => Machine.exec_keeps_erl,
    fun _ _ _ => Machine.exec_keeps_regs⟩

end Sys2Proof
end
